-- ==== Sys2Proof/Word.lean ====
section
/-! DEFINITION. The word types of the KN-800 and their plainest arithmetic: bytes, 64-bit words,
drip numbers (R25), little-endian byte order (R7) and bit ranges (R6). -/

namespace Sys2Proof

/-- One byte. -/
abbrev Byte := BitVec 8

/-- A 64-bit word: a register of a thread or a quad, a register of BAR0, a dictionary U64. -/
abbrev Word := BitVec 64

/-- A byte string, lowest address first. -/
abbrev Bytes := List Byte

/-- A drip number: 48 bits, wrapping (R25). -/
abbrev Drip := BitVec 48

/-- A slice of the package, 0 to 7 (R2). -/
abbrev SliceId := Fin 8

/-- A logical routing engine E0 to E3 (R19). -/
abbrev EngineId := Fin 4

/-- A hardware thread of a routing engine (R87). -/
abbrev ThreadId := Fin 64

/-- A quad of a slice (R16). -/
abbrev QuadId := Fin 8

/-- A fabric port P0 to P7 of a slice (R252). -/
abbrev PortId := Fin 8

/-- R25: drip `a` is later than drip `b` when (a - b) mod 2^48 lies between 1 and 2^47 - 1. -/
def Drip.later (a b : Drip) : Bool :=
  decide (1 ≤ (a - b).toNat) && decide ((a - b).toNat ≤ 2 ^ 47 - 1)

/-- A drip that has arrived or lies behind: not later than the other (R25). -/
def Drip.notLater (a b : Drip) : Bool := !(Drip.later a b)

/-- The drip `n` drips after `d`, modulo 2^48. -/
def Drip.plus (d : Drip) (n : Nat) : Drip := d + BitVec.ofNat 48 n

end Sys2Proof
end

