-- ==== Sys2Proof/Machine/Bits.lean ====
section
/-! DEFINITION. Bit fields, byte order, sign extension and the CRC-32C: how the records of the manual
are laid out in bytes (R5 to R8). -/

namespace Sys2Proof

/-- Bits [hi:lo] of a number (R6). -/
def bits (v hi lo : Nat) : Nat := (v >>> lo) % 2 ^ (hi + 1 - lo)

/-- Bit n of a number (R6). -/
def bit (v n : Nat) : Bool := v.testBit n

/-- The number 0 or 1 of a flag. -/
def b2n (b : Bool) : Nat := if b then 1 else 0

/-- Place the value `x` of a field of `w` bits at bit `lo` (R6). -/
def field (x w lo : Nat) : Nat := (x % 2 ^ w) <<< lo

/-- The number that a little-endian byte string holds (R7). -/
def leNat : Bytes → Nat
  | [] => 0
  | b :: bs => b.toNat + 256 * leNat bs

/-- The `n` little-endian bytes of a number (R7). -/
def leBytes : Nat → Nat → Bytes
  | 0, _ => []
  | n + 1, v => BitVec.ofNat 8 v :: leBytes n (v / 256)

/-- `n` zero bytes. -/
def zeros (n : Nat) : Bytes := List.replicate n 0#8

/-- `n` bytes of `b` from byte `off`; a byte beyond the string is 0. -/
def slice (b : Bytes) (off n : Nat) : Bytes :=
  let t := (b.drop off).take n
  t ++ zeros (n - t.length)

/-- Pad a byte string with zero bytes to a multiple of `k`. -/
def padTo (k : Nat) (b : Bytes) : Bytes := b ++ zeros ((k - b.length % k) % k)

/-- The 32-bit immediate of an instruction word, sign-extended to 64 bits (R96). -/
def sext32 (imm : Nat) : Word := (BitVec.ofNat 32 imm).signExtend 64

/-- The signed value of a 32-bit immediate. -/
def sint32 (imm : Nat) : Int := (BitVec.ofNat 32 imm).toInt

/-- The least whole number of units of `k` that hold `n`. -/
def ceilDiv (n k : Nat) : Nat := (n + k - 1) / k

/-- `n` rounded up to a multiple of `k`. -/
def roundUp (n k : Nat) : Nat := ceilDiv n k * k

/-- One bit step of the CRC-32C (Castagnoli, reflected polynomial 0x82F6_3B78). -/
def crcStep (c : Nat) : Nat := if c % 2 = 1 then (c / 2) ^^^ 0x82F63B78 else c / 2

/-- Eight bit steps. -/
def crcByte (c : Nat) (b : Byte) : Nat :=
  let c0 := c ^^^ b.toNat
  crcStep (crcStep (crcStep (crcStep (crcStep (crcStep (crcStep (crcStep c0)))))))

/-- The CRC-32C of a byte string (R58, R120, R150, R257, R266, R358, R378). -/
def crc32c (b : Bytes) : Nat := (b.foldl crcByte 0xFFFFFFFF) ^^^ 0xFFFFFFFF

/-- Replace `x.length` bytes of `b` from byte `off`. -/
def patch (b : Bytes) (off : Nat) (x : Bytes) : Bytes :=
  b.take off ++ x ++ b.drop (off + x.length)

/-- The zero-based numbers of the set bits of a mask below `n`, ascending. -/
def setBits (n mask : Nat) : List Nat := (List.range n).filter (fun i => mask.testBit i)

end Sys2Proof
end

