-- ==== Sys2Proof/Machine/Types.lean ====
section
/-! DEFINITION. The records that commands carry and State holds: statuses (R10), stage kinds (R30),
packets (R266), launch entries (R29), the schedule image and the records of the load stream. A field of
a record is a natural number within the width its table gives; the width is checked in WellFormed. -/

namespace Sys2Proof

/-- The request statuses of Table 00-1 (R10). -/
inductive Status where
  | ok | squeezed | partialDone
  | deadline | tierLate | tierFail | checksum | protection | fabricLost | remoteUnknown
  | throttle | collectiveStall | scheduleCollision | fault | upstreamLost | cancelled
  deriving DecidableEq, Repr

/-- The code of a status (R10). -/
def Status.code : Status → Nat
  | .ok => 0x00 | .squeezed => 0x01 | .partialDone => 0x02
  | .deadline => 0x10 | .tierLate => 0x11 | .tierFail => 0x12 | .checksum => 0x13
  | .protection => 0x14 | .fabricLost => 0x15 | .remoteUnknown => 0x16 | .throttle => 0x17
  | .collectiveStall => 0x18 | .scheduleCollision => 0x19 | .fault => 0x1A
  | .upstreamLost => 0x1B | .cancelled => 0x1F

/-- The status of a code; a reserved code reads as FAULT (R11). -/
def Status.ofCode : Nat → Status
  | 0x00 => .ok | 0x01 => .squeezed | 0x02 => .partialDone
  | 0x10 => .deadline | 0x11 => .tierLate | 0x12 => .tierFail | 0x13 => .checksum
  | 0x14 => .protection | 0x15 => .fabricLost | 0x16 => .remoteUnknown | 0x17 => .throttle
  | 0x18 => .collectiveStall | 0x19 => .scheduleCollision | 0x1B => .upstreamLost
  | 0x1F => .cancelled | _ => .fault

/-- The stage kinds of Table 02-3 (R30). -/
inductive StageKind where
  | quad | route | combine | inject | receive | collective | prefetch | rangePrefetch
  | view | input | outputMain | outputSqz | passDigest | windowOpen | windowClose | handoff
  deriving DecidableEq, Repr

/-- The logical unit a launch entry names (Table 02-2). -/
inductive UnitName where
  | quad (q : QuadId) | engine (e : EngineId) | collective | port (p : PortId)
  | link (peer : SliceId) | sump | sequencer
  deriving DecidableEq, Repr

/-- A replica slot of a slice: quad and slot (R71). -/
structure SlotRef where
  quad : Nat
  slot : Nat
  deriving DecidableEq, Repr, Inhabited

/-- A slice of the system: node and slice (R71). -/
structure Place where
  node : Nat
  slice : Nat
  deriving DecidableEq, Repr, Inhabited

/-- A range of slice offsets or global addresses. -/
structure Range where
  base : Nat
  len : Nat
  deriving DecidableEq, Repr, Inhabited

/-- What a ROUTE phase does in the routing of a layer (R52, R81, R87); `other` for a phase with none of these. -/
inductive PhaseRole where
  | score | select | grant | assign | packOut | packBack | lookahead | other
  deriving DecidableEq, Repr

/-- The fields a launch entry has for its kind (Table 04-1, R167, Table 12-4, R301, R211, R223, R104, R100, R124). -/
structure StageFields where
  /-- ENTRY of a phase or a segment (R87, R167). -/
  entry : Nat := 0
  /-- FIRST and THREADS of a phase (R87). -/
  first : Nat := 0
  threads : Nat := 0
  /-- OWNER of a phase (R87). -/
  owner : Nat := 0
  /-- PREFETCH_SET of a phase, or the set and range of a range prefetch (R87, R104). -/
  prefetchSet : Nat := 0
  range : Nat := 0
  /-- ARG of a phase or a segment (R87, R167). -/
  arg : Word := 0
  /-- The role of a phase in a layer's routing (R52). -/
  role : PhaseRole := .other
  /-- MoE layer the stage serves, if any. -/
  layer : Option Nat := none
  /-- Replica slots an expert segment, a prefetch or a receive serves (R171, R223, R133). -/
  slots : List SlotRef := []
  /-- The slots that a prefetch stage names, each with its layer: they may lie in different layers (R223). -/
  prefetch : List (Nat × SlotRef) := []
  /-- A return injection or return receive (R36, R137). -/
  isReturn : Bool := false
  /-- DESC, STEP, CHANNEL of a collective step (Table 12-4). -/
  desc : Nat := 0
  step : Nat := 0
  channel : Nat := 0
  /-- REGION and NEW_OWNER of a handoff (R301). -/
  region : Nat := 0
  newOwner : Nat := 0
  /-- Ranges of a write window (R211). -/
  ranges : List Range := []
  /-- Injection number of an injection, as SEND names it (R100); of a phase, the injection its records leave by (R73). -/
  injection : Nat := 0
  /-- Further injections a phase owns (R100). -/
  owns : List Nat := []
  /-- Flags the stage's program waits on with RECV or WAIT_FLAG (R534). -/
  waits : List Nat := []
  /-- In still-water mode load traffic may run while this stage does (R382; DESIGN CHOICE, log 153). -/
  loads : Bool := false
  /-- The flag that the stage's completion or its output sets, if any (R32). -/
  sets : Option Nat := none
  deriving DecidableEq, Repr, Inhabited

/-- A launch entry (Table 02-2, R29). `inputs` are the presence flags it names. -/
structure StageEntry where
  unit : UnitName
  launch : Nat
  duration : Nat
  due : Nat
  inputs : List Nat
  kind : StageKind
  /-- CTX: the context served, or 255 for a frame-wide stage (R87, R167). -/
  ctx : Nat := 255
  f : StageFields := {}
  deriving DecidableEq, Repr

/-- The latest launch drip of a stage as an offset: D - DURATION + 1 (R33). -/
def StageEntry.latest (e : StageEntry) : Nat := e.due + 1 - e.duration

/-- A Nelcel packet: header (Table 10-6) and payload (R266). -/
structure Packet where
  opcode : Nat
  fence : Bool := false
  mark : Bool := false
  echo : Bool := false
  epoch : Nat := 0
  trusted : Bool := false
  first : Bool := true
  last : Bool := true
  retx : Bool := false
  job : Nat := 0
  ctx : Nat := 255
  srcSlice : Nat := 0
  srcNode : Nat := 0
  dstNode : Nat := 0
  dstSlice : Nat := 0
  dstOffset : Nat := 0
  plen : Nat := 0
  opmod : Nat := 0
  msgId : Nat := 0
  flowSeq : Nat := 0
  mgroup : Nat := 0
  sched : Bool := false
  ttl : Nat := 31
  reqId : Nat := 0
  ecrc : Nat := 0
  payload : Bytes := []
  deriving DecidableEq, Repr, Inhabited

/-- How a packet reached the slice: on an external port, over the internal link from a peer slice, or from the
slice itself (R263, R271). -/
inductive Arrival where
  | port (p : PortId) | link (peer : SliceId) | own
  deriving DecidableEq, Repr

/-- A link of a slice: one of its external ports or the internal link to a peer slice (R252). -/
inductive LinkId where
  | port (p : PortId) | link (peer : SliceId)
  deriving DecidableEq, Repr

/-- A door of the dictionary (chapter 17): the BAR0 window, or a lantern session. -/
inductive Principal where
  | host | operator | owner | security
  deriving DecidableEq, Repr

/-- A region table entry (Table 11-1, R296). -/
structure RegionEntry where
  base : Nat := 0
  valid : Bool := false
  /-- 0 MEMORY, 1 SINK, 2 WINDOW. -/
  kind : Nat := 0
  r : Bool := false
  w : Bool := false
  a : Bool := false
  m : Bool := false
  job : Nat := 0
  pages : Nat := 0
  ownerNode : Nat := 0
  hostm : Bool := false
  nextOwner : Nat := 0
  pending : Bool := false
  handoffDrip : Drip := 0
  deriving DecidableEq, Repr, Inhabited

/-- A collective group: header and members in chain order (Tables 12-1 and 12-2). -/
structure Group where
  valid : Bool := false
  twoLevel : Bool := false
  self : Nat := 0
  members : List Place := []
  deriving DecidableEq, Repr, Inhabited

/-- A collective descriptor (Table 12-3). -/
structure CollDesc where
  collId : Nat
  group : Nat
  ctx : Nat
  inFmt : Nat
  outFmt : Nat
  zeroGate : Bool
  steps : Nat
  elems : Nat
  chunksPerStep : Nat
  inAddr : Nat
  outAddr : Nat
  layer : Nat
  quad : Nat
  slot : Nat
  deriving DecidableEq, Repr, Inhabited

/-- An owner declaration (Table 09-2). -/
structure OwnerDecl where
  kind : Nat := 0
  reserve : List Nat := [0, 0, 0, 0, 0, 0]
  limit : List Nat := [0, 0, 0, 0, 0, 0]
  deriving DecidableEq, Repr, Inhabited

/-- A residency table entry (Table 08-6). `state`: 0 ABSENT, 1 SUMP, 2 IN_FLIGHT, 3 STAGED, 4 RESIDENT. -/
structure ResEntry where
  layer : Nat
  quad : Nat
  slot : Nat
  state : Nat
  pinned : Bool := false
  pool : Bool := false
  lastFail : Nat := 0
  frame : Nat := 0
  window : Nat := 0
  lastUse : Drip := 0
  sumpAddr : Nat := 0
  tiles : Nat := 0
  imageBytes : Nat := 0
  deriving DecidableEq, Repr, Inhabited

/-- A replica of an expert placed in a slot of this slice: what the image says a slot holds. -/
structure PlacedSlot where
  layer : Nat
  quad : Nat
  slot : Nat
  expert : Nat
  replica : Nat
  deriving DecidableEq, Repr, Inhabited

/-- A record buffer that the image names for the record of one source: its slice offset, and a presence flag that the record sets
once it has landed, if the image names one (R124). -/
structure RecordBuf where
  src : Place
  addr : Nat
  flag : Option Nat := none
  deriving DecidableEq, Repr, Inhabited

/-- The layer data of one slice (R55 to R57, R130, R137, R139): where the descriptors, the lists, the hidden rows
and the returned rows of an MoE layer lie, and which presence flags its records and rows set (R124, R133). -/
structure LayerInfo where
  layer : Nat
  /-- Main and squeeze routing descriptors, 256 bits each (Table 03-1). -/
  mainDesc : Nat
  sqzDesc : Nat
  /-- Slice offset of hidden row 0 (R60). -/
  hiddenAddr : Nat := 0
  /-- Where each engine's unit region keeps its two panel buffers, its copy of the hidden rows, its logit buffer and its copy of
  the placement table: engine-local addresses (R60, R94). The manual gives no layout, so the image names them (log 123). -/
  panelLocal : Nat := 0
  hiddenLocal : Nat := 0
  logitLocal : Nat := 0
  placementLocal : Nat := 0
  /-- Engine-local addresses of the dispatch list and the return list (R80, R137). -/
  dispatchLocal : Nat := 0
  returnLocal : Nat := 0
  /-- Slice offset of the slot's output row 0 per slot, and the format the drains write (R116, R137). -/
  returnRows : List (SlotRef × Nat) := []
  returnFmt : Nat := 4
  /-- Record buffers for the count and grant records of each source (R124). -/
  countBufs : List RecordBuf := []
  grantBufs : List RecordBuf := []
  /-- Presence flags (R32, R75, R128, R133). -/
  panelFlags : List Nat := []
  countFlag : Nat := 0
  grantFlag : Nat := 0
  shapeFlag : Nat := 0
  dispatchFlags : List (SlotRef × Nat) := []
  returnFlag : Nat := 0
  combineFlag : Nat := 0
  deriving DecidableEq, Repr, Inhabited

/-- The part of a schedule image that one slice of one node runs. -/
structure SliceImage where
  /-- Record buffers for the view and pass-digest records of each source (R124). -/
  viewBufs : List RecordBuf := []
  digestBufs : List RecordBuf := []
  entries : List StageEntry := []
  /-- Route programs of E0 to E3 (R98) and quad programs of quads 0 to 7 (R169). -/
  programs : List (List Word) := []
  quadPrograms : List (List Word) := []
  /-- Other bytes the image puts in the engines' local memory: engine, local address, bytes (R139). -/
  locals : List (Nat × Nat × Bytes) := []
  layers : List LayerInfo := []
  placed : List PlacedSlot := []
  /-- HBM partitions (Table 08-4) and bases. -/
  weightBase : Nat := 0
  weightBytes : Nat := 0
  stateBase : Nat := 0
  stateBytes : Nat := 0
  /-- The ledger that the image states, as base and entries: a reshape keeps it (R372; DESIGN CHOICE, log 151). -/
  ledger : Nat × Nat := (0, 0)
  poolBase : Nat := 0
  poolFrames : Nat := 0
  frameBytes : Nat := 0
  freeTarget : Nat := 0
  residencyBase : Nat := 0
  rowmapBase : Nat := 0
  shapeBase : Nat := 0
  exchRxBase : Nat := 0
  collRxBase : Nat := 0
  /-- Pool classes 0 to 5: base and count (R236). -/
  classes : List (Nat × Nat) := []
  owners : List OwnerDecl := []
  /-- Load-time allocations: owner and bytes, in image order (R248). -/
  loadAllocs : List (Nat × Nat) := []
  /-- Owners that the exchange, the reorder logic, the parking logic and the collective engine use. -/
  exchOwner : Nat := 0
  reorderOwner : Nat := 0
  parkOwner : Nat := 0
  collOwner : Nat := 0
  residency : List ResEntry := []
  regions : List (Nat × RegionEntry) := []
  groups : List (Nat × Group) := []
  colls : List (Nat × CollDesc) := []
  prefetchSets : List (List Range) := []
  /-- Multicast member lists (R315). -/
  mcast : List (Nat × List Place) := []
  deriving DecidableEq, Repr, Inhabited

/-- A schedule image as one device holds it. Its byte form is not given by the manual, so the commands that load one
carry it in this form (DESIGN CHOICE, log 3). -/
structure Image where
  job : Nat := 1
  modelId : Nat := 0
  node : Nat := 0
  nodes : List Nat := []
  /-- Members of the job: every slice that takes part. -/
  members : List Place := []
  frameLen : Nat := 1
  dripBeats : Nat := 256
  congestionMode : Nat := 0
  stillWater : Bool := false
  tuning : Bool := false
  legacyDrop : Bool := false
  sumpRate : Nat := 0
  jobSeed : Word := 0
  unitMapDigest : Option Bytes := none
  linksOut : List Nat := []
  inRowBytes : Nat := 0
  outRowBytes : Nat := 0
  outAddr : List Nat := []
  /-- Slice offset of input row 0, per slice. -/
  inAddr : List Nat := []
  rows : Nat := 16
  /-- Deadline table (R368). -/
  bounds : List (Nat × Nat) := []
  outMain : Nat := 0
  outSqz : Nat := 0
  /-- The context bindings that the image states, each a context, its ring and its pool owner: a reshape keeps them (R372; DESIGN
  CHOICE, log 151). -/
  bindings : List (Nat × Nat × Nat) := []
  weightDigest : Bytes := []
  slices : List SliceImage := []
  /-- Load map of this node: each ID and the (slice, offset) pairs it is written to (R379). -/
  loadMap : List (Nat × List (Nat × Nat)) := []
  /-- Where a hot-set slot keeps the items in the sump windows: the load map of a load into a slot (R349). -/
  hotMap : List (Nat × List (Nat × Nat)) := []
  /-- Replicas of the whole job that are pool-homed and not pinned: place, layer and slot (R217). -/
  poolHomed : List (Place × Nat × SlotRef) := []
  /-- Those that are pool-homed and pinned. -/
  pinnedHomed : List (Place × Nat × SlotRef) := []
  /-- Slice and offset at which the weight region keeps the manifest (R385). -/
  manifestAt : Option (Nat × Nat) := none
  deriving DecidableEq, Repr, Inhabited

/-- A load item: the 64-byte header of Table 14-2 and the payload (R378). -/
structure LoadItem where
  kind : Nat
  chain : Nat
  loadId : Nat
  seq : Nat
  id : Nat
  epoch : Nat := 0
  itemCrc : Nat
  part : Nat := 0
  parts : Nat := 1
  payload : Bytes
  deriving DecidableEq, Repr, Inhabited

/-- A TIME symbol as received, with the local receive time (Table 10-4, R38). -/
structure TimeSym where
  t1 : Nat
  echoT1 : Nat
  echoRx : Nat
  gmErr : Nat
  /-- Local system time at which the symbol arrived, PHY latency removed (R38). -/
  rx : Nat
  deriving DecidableEq, Repr, Inhabited

/-- A TIME packet's payload (R269). -/
structure TimePkt where
  gmNode : Nat
  gmLocked : Bool
  hops : Nat
  dripOrigin : Nat
  dripBeats : Nat
  deriving DecidableEq, Repr, Inhabited

/-- A Uaric request message (Table 17-14), its TAG judged over the bytes given. -/
structure UaricMsg where
  version : Nat
  type : Nat
  session : Nat
  seq : Nat
  body : Bytes
  tag : Bytes := []
  /-- The UDP port that the datagram is sent to (R451). -/
  dstPort : Nat := 30517
  /-- The IPv6 address that it is sent to; none is the link-local address of the port. -/
  dst : Option Bytes := none
  deriving DecidableEq, Repr, Inhabited

/-- A memory or configuration operation of the host's PCIe TLPs: offset and data. -/
structure Tlp where
  offset : Nat
  data : Bytes
  poisoned : Bool := false
  deriving DecidableEq, Repr, Inhabited

/-- The kinds of physical unit of Table 19-7, with the INDEX. -/
structure UnitRef where
  kind : Nat
  index : Nat
  deriving DecidableEq, Repr, Inhabited

/-- What the root finds of an expander when it enumerates a sump port (R504, R505). `lanes` 4 or 8, `rate` 32 or 64. -/
structure Expander where
  lanes : Nat
  rate : Nat
  serial : Nat
  sizeBytes : Nat
  /-- CDAT read bandwidth in MB/s, none if the CDAT gives none. -/
  cdat : Option Nat
  /-- The DVSEC reports memory capability and no cache capability, and both decoders committed in time. -/
  suitable : Bool
  deriving DecidableEq, Repr, Inhabited

end Sys2Proof

namespace Sys2Proof

/-- A door of the dictionary: the BAR0 window, or a lantern session 1 to 8 (R431). -/
inductive Door where
  | bar0 | session (n : Nat)
  deriving DecidableEq, Repr

/-- The fixed-function units of a routing engine that a thread starts (R99, R108, R139). -/
inductive EngineUnit where
  | scoring | topk | capacity | sorter | pack | digest | combine
  deriving DecidableEq, Repr

/-- The two networks (R265). -/
inductive Net where
  | req | rsp
  deriving DecidableEq, Repr

/-- A report to an error ring (R483): class, unit, status, context and the DETAIL words. -/
structure Report where
  cls : Nat
  unit : UnitRef
  status : Nat := 0
  ctx : Nat := 255
  detail : List Nat := []
  deriving DecidableEq, Repr, Inhabited

/-- A schedule collision (R49): the point as a row of Table 02-6 counted from 1, its instance and network (0 REQ, 1 RSP), and
the winning and the losing claimant as a position in the row's list and the claimant's own index. -/
structure Collision where
  row : Nat
  inst : Nat := 0
  net : Nat := 0
  won : Nat × Nat
  lost : Nat × Nat
  /-- The entry of the losing stage where that is not the one the command names. -/
  loser : Option Nat := none
  deriving DecidableEq, Repr, Inhabited

/-- Where a command reads memory, and the words among what it reads that ECC finds uncorrectable (R204). -/
structure Reads (α : Type) where
  on : α
  bad : List Nat := []
  deriving DecidableEq, Repr, Inhabited

/-- What the FEC of a port found in a frame (R260): whether a byte of the frame lies in an uncorrectable codeword, and how many
such codewords end with it. -/
structure Fec where
  bad : Bool := false
  words : Nat := 0
  deriving DecidableEq, Repr, Inhabited

/-- The bytes that a sump read returns, and whether they carry CXL poison (R230). -/
structure SumpData where
  bytes : Bytes
  poison : Bool := false
  deriving DecidableEq, Repr, Inhabited

/-- A persisted entry whose record of the higher count fails at a power-up, or both its records (R435). -/
structure LostRecord where
  index : Nat
  sub : Nat
  channel : Nat := 0
  both : Bool := false
  deriving DecidableEq, Repr, Inhabited

/-- What the board and the die show at a start-up: rails in tolerance (R513), the root PLL locked (R516), the attempts at
clock alignment that failed per slice (R400), the slices that pass their self-test (R520), the entropy source healthy
(R414), whether the sets in slots A and B start (R468), and the records of the store that fail at a power-up (R435). -/
structure BootInputs where
  railsOk : Bool := true
  pllLocked : Bool := true
  alignFails : List Nat := []
  selfTest : Nat := 255
  trngOk : Bool := true
  setStarts : List Bool := [true, true]
  lost : List LostRecord := []
  /-- Helper data that the store holds otherwise than at the last boot, if any (R412). -/
  helper : Option Bytes := none
  deriving DecidableEq, Repr, Inhabited

/-- A configuration request the host port acts on: BAR2 size, Bus Master Enable, an MSI-X control write (function mask),
Max Payload and Max Read Request Size, or a read (R488, R500, R501, R508, R520). -/
inductive ConfigReq where
  | read | bar2Size (log2 : Nat) | busMaster (on : Bool) | msixControl (enable mask : Bool)
  | payloadSizes (mps mrrs : Nat)
  deriving DecidableEq, Repr

/-- The ways the host link resets the port (R502). -/
inductive HostReset where
  | hotReset | linkDisable | perst
  deriving DecidableEq, Repr

/-- The test instructions of the TAP that R529 names, and any other. -/
inductive TapInstr where
  | bypass | idcode | extest | extestPulse | extestTrain | clamp | highz
  deriving DecidableEq, Repr

end Sys2Proof
end

