-- ==== Sys2Proof/Config.lean ====
section
/-! DEFINITION. What one part or one implementation fixes and the manual does not: opaque constants that no proof can
evaluate. A claim about a value built from one holds for every value of it. -/

namespace Sys2Proof.Config

/-- Choice among the results R198 allows: operation code and operand give a number that picks one of them. -/
opaque ulpPick : Nat → BitVec 32 → Nat

/-- Bytes drawn from the TRNG (R414), numbered by the draw counter in State. -/
opaque trngByte : Nat → Byte

/-- The PUF key that the die of the package reconstructs from helper data: 32 bytes (R412). -/
opaque pufKey : Bytes → Bytes

/-- The helper data in the on-package store as shipped (R412). -/
opaque helperData : Bytes

/-- Ed448 (RFC 8032): the public key of a 57-byte seed (R412). -/
opaque ed448Public : Bytes → Bytes

/-- Ed448: the signature under a seed, with a context string, over a message (R415, R424, R453). -/
opaque ed448Sign : Bytes → String → Bytes → Bytes

/-- Ed448: whether a signature verifies under a public key (R416, R453, R461). -/
opaque ed448Verify : Bytes → String → Bytes → Bytes → Bool

/-- X448 (RFC 7748): the public key of a private key, and the shared secret (R415). -/
opaque x448Public : Bytes → Bytes
opaque x448 : Bytes → Bytes → Bytes

/-- AES-256-GMAC or AES-256-GCM (R418): the 16-byte tag over authenticated data and ciphertext under a key and an IV. -/
opaque gcmTag : Bytes → Bytes → Bytes → Bytes → Bytes

/-- AES-256-GCM: the stream cipher of a key and an IV; it is its own inverse in counter mode (R418). -/
opaque gcmXor : Bytes → Bytes → Bytes → Bytes

/-- X.509: the subject key of a certificate, and its serial numbers (R413, R416). -/
opaque certKey : Bytes → Bytes
opaque certSerial : Bytes → Bytes

/-- X.509: whether the holder of a public key signed a certificate, and whether it is valid at a TIME64 (R413, R416). -/
opaque certSigned : Bytes → Bytes → Bool
opaque certValidAt : Bytes → Nat → Bool

/-- Fixed transmit and receive latency of the PHY and FEC of a port, in 1/256 ns (R38). -/
opaque phyLatency : Nat → Nat

/-- The TRAIN symbol of a lane map: its fields after the first byte are not given (Table 10-4). -/
opaque trainSymbol : Nat → Bytes

/-- The row of a pseudo-channel that holds an address of it, in HBM terms the manual does not give (R470). -/
opaque hbmRow : Nat → Nat

/-- Entries that hold a value as shipped (Tables 16-7, 17-5, 18-5). -/
opaque serial : Bytes
opaque stepping : Nat
opaque lanternMac : Bytes
opaque deviceCert : Bytes
opaque caCert : Bytes
opaque rootKey : Bytes

/-- Digest of the boot code, which MR0 measures (Table 16-4): 64 bytes. -/
opaque bootCode : Bytes

/-- The firmware set that a slot holds as shipped: its image bytes (R459). -/
opaque shippedSet : Nat → Bytes

/-- The order in which physical units of equal rank stand in no table of the manual is not used; a spare found bad at
boot is named here: the SPARES_LEFT value of a slice as found at boot (R487). -/
opaque sparesAtBoot : Nat → Nat

/-- STORE_WEAR after a number of writes to the on-package store: how the store spreads them is not given (R436). -/
opaque storeWear : Nat → Nat

/-- The logit that a TOPK takes of a layer, row and expert of which no SCORE has written one (R65). -/
opaque unscored : Nat → Nat → Nat → BitVec 32

/-- A value the manual leaves undefined, numbered by the free-value counter in State. -/
opaque freeWord : Nat → Word

end Sys2Proof.Config
end

