-- ==== Sys2Proof/Syntax.lean ====
section
/-! DEFINITION. The commands of the KN-800: one constructor for each row of the command table. A command is an event
at the device's edge, a write of one of its registers or entries, an instruction that one of its threads or quads
issues, or an act of one of its own engines. -/

namespace Sys2Proof

/-- A command. The rule each row names stands in its comment. -/
inductive Instr where
  /-- DRIP_BOUNDARY (R24): A drip boundary arrives on the time base and the drip count advances. -/
  | dripBoundary
  /-- STAGE_LAUNCH (R28): A unit launches a scheduled stage at a drip boundary once its inputs are present. -/
  | stageLaunch (sl : SliceId) (i : Nat) (hits : List Collision)
  /-- STAGE_COMPLETE (R31): A launched stage completes its work. -/
  | stageComplete (sl : SliceId) (i : Nat)
  /-- TIME_SYMBOL_SEND (R38): Every 1 µs each up external port sends a TIME symbol with its send time and echo fields. -/
  | timeSymbolSend (sl : SliceId) (p : PortId)
  /-- TIME_SYMBOL (R38): A received TIME symbol yields the offset and delay to the peer and updates the error bound. -/
  | timeSymbol (sl : SliceId) (p : PortId) (y : TimeSym)
  /-- HOLDOVER_TIMEOUT (R44): After 2 ms in HOLDOVER without a parent the device enters FREE and ends cross-device scheduled requests. -/
  | holdoverTimeout
  /-- TIME_PACKET_SEND (R269): Every 100 µs each device sends a link-local TIME packet on each up external port. -/
  | timePacketSend (sl : SliceId) (p : PortId)
  /-- TIME_PACKET (R269): A received TIME packet supplies grandmaster, hop count, DRIP_ORIGIN and DRIP_BEATS for parent choice. -/
  | timePacket (sl : SliceId) (p : PortId) (y : TimePkt)
  /-- TIME_IN_PPS (R45): A TIME_IN pulse marks a whole second, stepping system time with no job loaded or slewing otherwise. -/
  | timeInPps
  /-- TIME_IN_LOCK (R527): TIME_IN becomes locked once the 10 MHz and pulse inputs meet their criteria. -/
  | timeInLock
  /-- TIME_IN_LOSS (R47): Loss of the 10 MHz or pulse input is recorded and the grandmaster keeps its last trim. -/
  | timeInLoss
  /-- PANEL_LANDED (R59): A router panel lands in a panel buffer and its CRC and trailer are checked. -/
  | panelLanded (sl : Reads SliceId) (e : EngineId) (layer panel : Nat)
  /-- COUNT_RECORD (R75): A count record arrives at the exchange receiver and is checked and landed for GRANT. -/
  | countRecord (sl : SliceId) (src : Place) (msg : Bytes)
  /-- GRANT_RECORD (R75): A grant record arrives and is checked and landed for ASSIGN. -/
  | grantRecord (sl : SliceId) (src : Place) (msg : Bytes)
  /-- VIEW_RECORD (R217): A residency view record arrives and is landed for the next frame's view. -/
  | viewRecord (sl : SliceId) (src : Place) (msg : Bytes)
  /-- PASS_DIGEST_RECORD (R406): A pass-digest record with a slice digest and flags arrives and is landed. -/
  | passDigestRecord (sl : SliceId) (src : Place) (msg : Bytes)
  /-- LOOKAHEAD_COUNT (R82): A lookahead count for a SUMP replica arrives at its holding slice, which ranks candidates and issues prefetches. -/
  | lookaheadCount (sl : SliceId) (src : Place) (layer : Nat) (counts : List (SlotRef × Nat))
  /-- ROUTING_ENGINE_FAIL (R85): A routing engine fails in service; its requests end with FAULT and the spare is taken at the next frame start if free. -/
  | routingEngineFail (sl : SliceId) (e : EngineId)
  /-- UNIT_FAIL (R472): A unit fails with no free spare and is marked OUT, ending the requests of its live stages. -/
  | unitFail (sl : SliceId) (u : UnitRef)
  /-- NOP (R97): Route program instruction that does nothing. -/
  | nop (sl : SliceId) (e : EngineId) (t : ThreadId)
  /-- MOVI (R97): Route program instruction that moves an immediate into a register or its upper half. -/
  | movi (sl : SliceId) (e : EngineId) (t : ThreadId)
  /-- ADD (R97): Route program instruction that adds two operands. -/
  | add (sl : SliceId) (e : EngineId) (t : ThreadId)
  /-- SUB (R97): Route program instruction that subtracts two operands. -/
  | sub (sl : SliceId) (e : EngineId) (t : ThreadId)
  /-- MUL (R97): Route program instruction that multiplies two operands keeping the low 64 bits. -/
  | mul (sl : SliceId) (e : EngineId) (t : ThreadId)
  /-- LOGIC (R97): Route program instruction performing AND, OR, XOR or AND-NOT. -/
  | logic (sl : SliceId) (e : EngineId) (t : ThreadId)
  /-- SHIFT (R97): Route program instruction shifting left, logically right or arithmetically right. -/
  | shift (sl : SliceId) (e : EngineId) (t : ThreadId)
  /-- CMP (R97): Route program instruction that sets a predicate from a comparison. -/
  | cmp (sl : SliceId) (e : EngineId) (t : ThreadId)
  /-- PLOG (R97): Route program instruction combining two predicates. -/
  | plog (sl : SliceId) (e : EngineId) (t : ThreadId)
  /-- BR (R97): Route program instruction that branches relative to the program counter. -/
  | br (sl : SliceId) (e : EngineId) (t : ThreadId)
  /-- HALT (R89): A thread ends its part of a phase; the phase completes when all its threads have halted. -/
  | halt (sl : SliceId) (e : EngineId) (t : ThreadId)
  /-- LD (R94): Route program local load from routing SRAM, data returning 4 ACLK cycles after grant. -/
  | ld (sl : Reads SliceId) (e : EngineId) (t : ThreadId)
  /-- ST (R97): Route program local store into the shared region or the thread's own window. -/
  | st (sl : SliceId) (e : EngineId) (t : ThreadId)
  /-- XLD (R92): Remote load of a global address; the thread enters WAIT_MEM and switches. -/
  | xld (sl : SliceId) (e : EngineId) (t : ThreadId)
  /-- XST (R92): Remote store of a global address, up to 16 outstanding per thread. -/
  | xst (sl : SliceId) (e : EngineId) (t : ThreadId)
  /-- XCOPY_GET (R102): Remote copy from a global address into local memory. -/
  | xcopyGet (sl : SliceId) (e : EngineId) (t : ThreadId)
  /-- XCOPY_PUT (R102): Remote copy from local memory to a global address. -/
  | xcopyPut (sl : Reads SliceId) (e : EngineId) (t : ThreadId)
  /-- XATOM_FADD (R97): Remote binary32 fetch-and-add returning the old value. -/
  | xatomFadd (sl : SliceId) (e : EngineId) (t : ThreadId)
  /-- XATOM_CAS (R97): Remote compare-and-swap returning the old value. -/
  | xatomCas (sl : SliceId) (e : EngineId) (t : ThreadId)
  /-- SCORE (R61): Starts the scoring unit over the engine's panels and row blocks. -/
  | score (sl : Reads SliceId) (e : EngineId) (t : ThreadId)
  /-- TOPK (R67): Runs SELECT for the engine's home rows: keys, group choice, top-k, weights and replicas. -/
  | topk (sl : Reads SliceId) (e : EngineId) (t : ThreadId)
  /-- CAPACITY_GRANT (R76): Runs GRANT: assigns capacity rows per replica slot and sends grant records. -/
  | capacityGrant (sl : SliceId) (e : EngineId) (t : ThreadId)
  /-- CAPACITY_ASSIGN (R77): Runs ASSIGN: gives granted rows to choices, drops the rest and renormalises weights. -/
  | capacityAssign (sl : SliceId) (e : EngineId) (t : ThreadId)
  /-- SORT (R80): Sorts the slice's dispatch list by destination key. -/
  | sort (sl : SliceId) (e : EngineId) (t : ThreadId)
  /-- PACK (R122): Packs the exchange blocks for one destination slice, dense or zero-run compressed. -/
  | pack (sl : Reads SliceId) (e : EngineId) (t : ThreadId)
  /-- SEND (R100): Queues whole packed blocks to an injection of the phase. -/
  | send (sl : Reads SliceId) (e : EngineId) (t : ThreadId)
  /-- RECV (R101): Waits until a named presence flag is set. -/
  | recv (sl : SliceId) (e : EngineId) (t : ThreadId)
  /-- ALLOC (R239): Requests a pool buffer under an owner list, granted, refused or waiting. -/
  | alloc (sl : SliceId) (e : EngineId) (t : ThreadId)
  /-- DONE (R244): Posts DONE on a shared buffer handle for a non-tail owner. -/
  | done (sl : SliceId) (e : EngineId) (t : ThreadId)
  /-- FREE (R244): The tail owner frees a buffer handle, accepted or rejected. -/
  | free (sl : SliceId) (e : EngineId) (t : ThreadId)
  /-- POOL_RETRY (R242): After a release the manager retries queued ALLOCs in queue order. -/
  | poolRetry (sl : SliceId)
  /-- WAIT_DRIP (R106): A thread waits for a named drip, or continues or misses if it is already past. -/
  | waitDrip (sl : SliceId) (e : EngineId) (t : ThreadId)
  /-- WAIT_DRIP_WAKE (R106): A waiting thread becomes READY at the first edge of its named drip. -/
  | waitDripWake (sl : SliceId) (e : EngineId) (t : ThreadId)
  /-- FENCE_LOCAL (R107): Completes when every earlier local store of the thread is visible. -/
  | fenceLocal (sl : SliceId) (e : EngineId) (t : ThreadId)
  /-- FENCE_MARK (R107): Sets FENCE on the thread's next packet to a named slice. -/
  | fenceMark (sl : SliceId) (e : EngineId) (t : ThreadId)
  /-- FENCE_DRAIN (R107): Holds the thread until every outstanding remote access has been answered. -/
  | fenceDrain (sl : SliceId) (e : EngineId) (t : ThreadId)
  /-- DIGEST (R108): Computes a SHAKE256 digest of local bytes into a 64-byte result. -/
  | digest (sl : Reads SliceId) (e : EngineId) (t : ThreadId)
  /-- THREAD_YIELD (R91): A thread that has issued 64 instructions in a row yields to the next READY thread. -/
  | threadYield (sl : SliceId) (e : EngineId)
  /-- UNIT_COMPLETE (R99): A fixed-function unit completes, waking the thread that started it and granting waiting threads. -/
  | unitComplete (sl : Reads SliceId) (e : EngineId) (u : EngineUnit)
  /-- RANGE_PREFETCH (R104): A range of a prefetch set is staged for a route program phase. -/
  | rangePrefetch (sl : SliceId) (i : Nat)
  /-- DISPATCH_BLOCK (R131): A DISPATCH exchange block arrives, is decoded and written to its landing positions. -/
  | dispatchBlock (sl : SliceId) (src : Place) (msg : Bytes)
  /-- RETURN_BLOCK (R138): A RETURN exchange block arrives at a home and its rows or statuses are placed by token and rank. -/
  | returnBlock (sl : SliceId) (src : Place) (msg : Bytes)
  /-- RETURN_LIST_WRITE (R137): When a slot's dispatch input is present the receiver writes the slot's return list. -/
  | returnListWrite (sl : SliceId) (layer : Nat) (x : SlotRef)
  /-- COMBINE (R139): A COMBINE phase starts the combine unit on the engine's home row blocks. -/
  | combineStage (sl : SliceId) (i : Nat)
  /-- COMBINE_COMPLETE (R140): The combine unit finishes the weighted sums and sets its output flag. -/
  | combineComplete (sl : Reads SliceId) (i : Nat)
  /-- QUAD_NOP (R169): Quad instruction that does nothing. -/
  | quadNop (sl : SliceId) (q : QuadId)
  /-- QUAD_HALT (R167): Quad instruction ending the segment once queues drain. -/
  | quadHalt (sl : SliceId) (q : QuadId)
  /-- QUAD_WAIT_DRIP (R172): Quad instruction waiting for a named drip. -/
  | quadWaitDrip (sl : SliceId) (q : QuadId)
  /-- WAIT_FLAG (R172): Quad instruction waiting for a presence flag. -/
  | waitFlag (sl : SliceId) (q : QuadId)
  /-- SET_FLAG (R168): Quad instruction setting a flag once earlier drains and VOPs are written. -/
  | setFlag (sl : SliceId) (q : QuadId)
  /-- LOOP (R169): Quad instruction repeating the following words a number of times. -/
  | quadLoop (sl : SliceId) (q : QuadId)
  /-- BRZ (R169): Quad instruction branching when a register is zero. -/
  | brz (sl : SliceId) (q : QuadId)
  /-- SET (R169): Quad instruction setting a register from an immediate. -/
  | quadSet (sl : SliceId) (q : QuadId)
  /-- ADDI (R169): Quad instruction adding an immediate to a register. -/
  | addi (sl : SliceId) (q : QuadId)
  /-- ADDQ (R169): Quad instruction adding two registers. -/
  | addq (sl : SliceId) (q : QuadId)
  /-- MULI (R169): Quad instruction multiplying a register by an immediate. -/
  | muli (sl : SliceId) (q : QuadId)
  /-- LDSHAPE (R173): Quad instruction reading a shape-record field and making the slot current. -/
  | ldshape (sl : SliceId) (q : QuadId)
  /-- WLOAD (R165): The weight bus loads tiles into array shadows, checking each header and CRC. -/
  | wload (sl : Reads SliceId) (q : QuadId)
  /-- SWAP (R144): Arrays copy their shadow weights into the active registers. -/
  | swap (sl : SliceId) (q : QuadId)
  /-- ROWCOPY (R149): Staging DMA copies bytes into the chamber store. -/
  | rowcopy (sl : SliceId) (q : QuadId)
  /-- STREAM (R145): Arrays stream a row block against the active tile into an accumulator slot. -/
  | stream (sl : Reads SliceId) (q : QuadId)
  /-- ACCLOAD (R161): Loads a slot from a binary32 or BF16 partial in the chamber store. -/
  | accload (sl : SliceId) (q : QuadId)
  /-- DRAIN (R160): Converts a slot to the destination format, with optional epilogue or stochastic PARTIAL rounding. -/
  | drain (sl : Reads SliceId) (q : QuadId)
  /-- DRAINT (R162): Writes array slots as a weight tile, dense, masked or compressed. -/
  | draint (sl : SliceId) (q : QuadId)
  /-- POISONED_DRAIN_REPORT (R166): At the drip after a poisoned drain, the context is torn down or the replica slot's sections are marked. -/
  | poisonedDrainReport (sl : SliceId) (q : QuadId)
  /-- VOP_CONVERT (R196): Vector operation converting elements. -/
  | vopConvert (sl : SliceId) (q : QuadId)
  /-- VOP_ADD (R196): Vector element-wise addition. -/
  | vopAdd (sl : SliceId) (q : QuadId)
  /-- VOP_MUL (R196): Vector element-wise multiplication. -/
  | vopMul (sl : SliceId) (q : QuadId)
  /-- VOP_MAX (R196): Vector element-wise maximum. -/
  | vopMax (sl : SliceId) (q : QuadId)
  /-- VOP_MIN (R196): Vector element-wise minimum. -/
  | vopMin (sl : SliceId) (q : QuadId)
  /-- VOP_ADDS (R196): Vector addition of a scalar. -/
  | vopAdds (sl : SliceId) (q : QuadId)
  /-- VOP_MULS (R196): Vector multiplication by a scalar. -/
  | vopMuls (sl : SliceId) (q : QuadId)
  /-- VOP_AXPY (R196): Vector fused a times s plus b. -/
  | vopAxpy (sl : SliceId) (q : QuadId)
  /-- VOP_ADDB (R196): Vector addition of a broadcast operand. -/
  | vopAddb (sl : SliceId) (q : QuadId)
  /-- VOP_MULB (R196): Vector multiplication by a broadcast operand. -/
  | vopMulb (sl : SliceId) (q : QuadId)
  /-- VOP_EXP (R198): Vector exponential. -/
  | vopExp (sl : SliceId) (q : QuadId)
  /-- VOP_SIGMOID (R198): Vector sigmoid. -/
  | vopSigmoid (sl : SliceId) (q : QuadId)
  /-- VOP_SILU (R198): Vector SiLU. -/
  | vopSilu (sl : SliceId) (q : QuadId)
  /-- VOP_TANH (R198): Vector hyperbolic tangent. -/
  | vopTanh (sl : SliceId) (q : QuadId)
  /-- VOP_LOG (R198): Vector natural logarithm. -/
  | vopLog (sl : SliceId) (q : QuadId)
  /-- VOP_RSQRT (R198): Vector reciprocal square root. -/
  | vopRsqrt (sl : SliceId) (q : QuadId)
  /-- VOP_RECIP (R198): Vector correctly rounded reciprocal. -/
  | vopRecip (sl : SliceId) (q : QuadId)
  /-- VOP_EXPSUB (R198): Vector exponential of a minus a broadcast value. -/
  | vopExpsub (sl : SliceId) (q : QuadId)
  /-- VOP_SWIGLU (R198): Vector SwiGLU of two operands. -/
  | vopSwiglu (sl : SliceId) (q : QuadId)
  /-- VOP_SUM (R197): Vector sum reduction in the fixed tree order. -/
  | vopSum (sl : SliceId) (q : QuadId)
  /-- VOP_SUMSQ (R197): Vector sum-of-squares reduction. -/
  | vopSumsq (sl : SliceId) (q : QuadId)
  /-- VOP_MAXRED (R197): Vector maximum reduction. -/
  | vopMaxred (sl : SliceId) (q : QuadId)
  /-- SUMP_TILE_ARRIVAL (R229): A fetched sump tile lands and its CRC and KMAC tag are checked. -/
  | sumpTileArrival (sl : SliceId) (layer : Nat) (x : SlotRef) (tile : Nat) (data : SumpData) (tag : Bytes)
  /-- FETCH_COMPLETE (R216): Every tile of a fetch is present and the slot becomes STAGED. -/
  | fetchComplete (sl : SliceId) (layer : Nat) (x : SlotRef)
  /-- PREFETCH (R223): A scheduled prefetch stage takes frames for its SUMP slots and reserves port bytes. -/
  | prefetchStage (sl : SliceId) (i : Nat)
  /-- VIEW (R217): A VIEW stage snapshots residency, applies eviction and sends view records. -/
  | viewStage (sl : SliceId) (i : Nat)
  /-- FRAME_RELEASE (R220): An evicted slot's frame is released once the frame start and its last sampling stage have passed. -/
  | frameRelease (sl : SliceId) (frame : Nat)
  /-- WINDOW_OPEN (R211): A WINDOW_OPEN stage opens a write window over named tile ranges. -/
  | windowOpen (sl : SliceId) (i : Nat)
  /-- WINDOW_CLOSE (R212): A write window closes when its writes have landed, and its tiles are checked and recorded. -/
  | windowClose (sl : SliceId) (i : Nat)
  /-- PATROL_SCRUB (R232): Patrol scrub reads HBM granules in reserved beats and writes back corrected words. -/
  | patrolScrub (sl : SliceId) (corrected uncorrectable : List Nat)
  /-- HBM_RETRAIN (R234): A pseudo-channel is retrained in reserved beats once per RETRAIN_INTERVAL. -/
  | hbmRetrain (sl : SliceId) (stack : Fin 4)
  /-- POOL_LOW_RESET (R250): Writing LOW_RESET sets every LOW_FREE to its FREE. -/
  | poolLowReset (sl : SliceId)
  /-- POOL_REJECT_CLEAR (R250): Writing 1 to POOL_LAST_REJECT VALID clears it. -/
  | poolRejectClear (sl : SliceId)
  /-- LINK_RETRAIN_ATTEMPT (R255): Every 1 ms a DOWN port or link starts a training attempt. -/
  | linkRetrainAttempt (sl : SliceId) (l : LinkId)
  /-- LINK_TRAIN_COMPLETE (R255): Training completes and the link moves to AUTH, or to UP for an internal link. -/
  | linkTrainComplete (sl : SliceId) (l : LinkId)
  /-- LINK_TRAIN_TIMEOUT (R255): Training not complete within 50 ms fails and the link returns to DOWN. -/
  | linkTrainTimeout (sl : SliceId) (l : LinkId)
  /-- LINK_FRAME_SEND (R257): A link transmits its next frame, DATA, IDLE or TRAIN, with its control slot. -/
  | linkFrameSend (sl : SliceId) (l : LinkId)
  /-- LINK_FRAME (R261): A received frame is checked by CRC and tag and its header, control slot and stream taken. -/
  | linkFrame (sl : SliceId) (l : LinkId) (frame : Bytes) (corrected : Nat) (fec : Fec)
  /-- FRAME_SILENCE_TIMEOUT (R256): No good frame for 2 µs takes the link DOWN. -/
  | frameSilenceTimeout (sl : SliceId) (l : LinkId)
  /-- REPLAY_TIMEOUT (R262): A kept frame unacknowledged for 4 µs is resent from that frame. -/
  | replayTimeout (sl : SliceId) (l : LinkId)
  /-- DOWN_SYMBOL (R256): A DOWN symbol from the peer takes the link DOWN. -/
  | downSymbol (sl : SliceId) (l : LinkId) (reason : Nat)
  /-- EGRESS_PACKET_START (R263): A packet starts on an egress once the sender holds credits for it. -/
  | egressPacketStart (sl : SliceId) (l : LinkId) (n : Net)
  /-- ROUTER_FORWARD (R271): A router picks the sprayed egress of a transit packet, or copies a multicast packet. -/
  | routerForward (sl : SliceId) (a : Arrival) (p : Packet)
  /-- READ (R299): A READ request is delivered, checked and queued for application. -/
  | read (sl : SliceId) (a : Arrival) (p : Packet)
  /-- WRITE (R299): A WRITE message packet is delivered in order, checked against the region table and queued. -/
  | write (sl : SliceId) (a : Arrival) (p : Packet)
  /-- REDUCE (R308): A REDUCE request is delivered, passes the replay filter and is queued. -/
  | reduce (sl : SliceId) (a : Arrival) (p : Packet)
  /-- ATOMIC_FADD (R308): An ATOMIC_FADD request is delivered, filtered and queued. -/
  | atomicFadd (sl : SliceId) (a : Arrival) (p : Packet)
  /-- ATOMIC_CAS (R308): An ATOMIC_CAS request is delivered, filtered and queued. -/
  | atomicCas (sl : SliceId) (a : Arrival) (p : Packet)
  /-- MCAST_WRITE (R315): A multicast store copy is delivered to a member and checked there. -/
  | mcastWrite (sl : SliceId) (a : Arrival) (p : Packet)
  /-- OPERATION_APPLY (R309): The apply queue starts its head operation once its lines are free and answers when applied. -/
  | operationApply (sl : Reads SliceId)
  /-- READ_DATA (R300): A READ_DATA answer completes a remote read at the issuer. -/
  | readData (sl : SliceId) (a : Arrival) (p : Packet)
  /-- ACK (R300): An ACK completes a write, reduction or multicast member at the issuer. -/
  | ack (sl : SliceId) (a : Arrival) (p : Packet)
  /-- NACK (R300): A NACK ends, retransmits or reports unknown a remote operation by its reason. -/
  | nack (sl : SliceId) (a : Arrival) (p : Packet)
  /-- ATOMIC_RESULT (R300): An ATOMIC_RESULT returns the old value of an atomic to its issuer. -/
  | atomicResult (sl : SliceId) (a : Arrival) (p : Packet)
  /-- E2E_TIMEOUT (R277): An unanswered REQ message is retransmitted, or given up after RETRY_LIMIT. -/
  | e2eTimeout (sl : SliceId) (dst : Place) (msgId : Nat)
  /-- WINDOWED_SEND (R283): A MARKED-mode REQ message is sent once the congestion window has room. -/
  | windowedSend (sl : SliceId) (dst : Place)
  /-- CTRL_SKIP (R278): A CTRL SKIP makes the destination treat a FLOW_SEQ range as delivered. -/
  | ctrlSkip (sl : SliceId) (a : Arrival) (p : Packet)
  /-- CTRL_LOST (R288): A CTRL LOST notice is applied to every slice of the device for its effective drip. -/
  | ctrlLost (p : Packet)
  /-- LOSS_HOLD_EXPIRY (R288): A destination node with no eligible port for LOSS_HOLD is detected lost and a notice sent. -/
  | lossHoldExpiry (node : Nat)
  /-- LOST_MARK (R288): At the effective drip slices are marked lost and their traffic discarded with NACK LOST. -/
  | lostMark
  /-- ROUTE_SWITCH_DRIP (R286): The operator schedules a routing table switch drip, checked against drip, drain and pending switch. -/
  | routeSwitchDrip (d : Door) (v : Word)
  /-- ROUTE_SWITCH (R286): At the switch drip ROUTE_ACTIVE flips and new messages carry the new EPOCH. -/
  | routeSwitch
  /-- ROUTE_DRAIN_END (R286): After ROUTE_DRAIN_DRIPS the previous table stops being live. -/
  | routeDrainEnd
  /-- PORT_DISABLE (R255): The operator disables or enables a port, moving it to DISABLED or DOWN. -/
  | portDisable (d : Door) (sl : SliceId) (p : PortId) (disable : Bool)
  /-- MCAST_COMPLETE (R318): Every member of a multicast store has completed or is missing, and the outcome is settled. -/
  | mcastComplete (sl : SliceId) (group msgId : Nat)
  /-- REGION_ENTRY (R297): A write of a region table entry, accepted only for HOSTM or invalid entries that pass the checks. -/
  | regionEntry (d : Door) (sl : SliceId) (v : Bytes)
  /-- REGION_HANDOFF (R301): A write that sets a pending ownership handoff for a drip H. -/
  | regionHandoff (d : Door) (sl : SliceId) (v : Bytes)
  /-- OWNERSHIP_MOVE (R301): At drip H a pending handoff moves NEXT_OWNER into OWNER_NODE. -/
  | ownershipMove (sl : SliceId) (entry : Nat)
  /-- HANDOFF (R301): A HANDOFF stage moves a region's owner at its launch drip or misses. -/
  | handoffStage (sl : SliceId) (i : Nat)
  /-- COLLECTIVE (R333): A collective step launches, sends PULLs and lead chunks. -/
  | collectiveStep (sl : SliceId) (i : Nat)
  /-- SUM_CHUNK (R336): A SUM chunk arrives and is consumed, parked or discarded by Table 12-6. -/
  | sumChunk (sl : SliceId) (src : Place) (msg : Bytes)
  /-- RESULT_CHUNK (R333): A RESULT chunk arrives, is written to the output and relayed to predecessors. -/
  | resultChunk (sl : SliceId) (src : Place) (msg : Bytes)
  /-- PULL (R334): A PULL arrives, permitting chunks below its LIMIT and freeing those below its FIRST. -/
  | pull (sl : SliceId) (src : Place) (msg : Bytes)
  /-- PULL_REPEAT (R334): Every 4 µs a waiting step repeats its last PULL. -/
  | pullRepeat (sl : SliceId) (i : Nat)
  /-- CHUNK_SEND (R334): A SUM chunk is sent once the successor's LIMIT permits it. -/
  | chunkSend (sl : SliceId) (i : Nat)
  /-- COLLECTIVE_STEP_COMPLETE (R335): A collective step completes at a member and its output becomes present at the next drip. -/
  | collectiveStepComplete (sl : SliceId) (i : Nat)
  /-- COLL_EPOCH_DRIP (R345): A write scheduling a membership epoch drip, checked against frame starts. -/
  | collEpochDrip (d : Door) (v : Word)
  /-- MEMBERSHIP_EPOCH (R345): At the epoch drip next group lists become current and lost members are re-admitted. -/
  | membershipEpoch
  /-- LEDGER_SCAN (R359): On scan drips the sequencer reads and accepts ledger records whose PHASE matches. -/
  | ledgerScan (sl : SliceId)
  /-- SUBMIT (R352): A SUBMIT command queues a request for admission at a frame start. -/
  | submit (sl : SliceId) (i : Nat)
  /-- CANCEL (R367): A CANCEL ends matching pending or admitted requests of its context. -/
  | cancel (sl : SliceId) (i : Nat)
  /-- CTX_OPEN (R355): A CTX_OPEN binds a context to a ring, owner and partial area and starts it. -/
  | ctxOpen (sl : SliceId) (i : Nat)
  /-- CTX_CLOSE (R356): A CTX_CLOSE puts a context into STOPPING and cancels its pending requests. -/
  | ctxClose (sl : SliceId) (i : Nat)
  /-- COPY (R363): A COPY moves bytes between host memory and device memory by host DMA. -/
  | copy (sl : SliceId) (i : Nat)
  /-- INPUT (R353): The INPUT stage reads admitted requests' rows from host memory through the hash unit. -/
  | inputStage (sl : SliceId) (i : Nat)
  /-- OUTPUT_MAIN (R353): The main OUTPUT stage writes non-squeezed requests' rows to host memory. -/
  | outputMain (sl : SliceId) (i : Nat)
  /-- OUTPUT_SQZ (R353): The squeeze OUTPUT stage writes squeezed requests' rows to host memory. -/
  | outputSqz (sl : SliceId) (i : Nat)
  /-- LAYER_BOUNDARY (R369): At the drip after an MoE COMBINE completes, live requests are projected and cancels applied. -/
  | layerBoundary (sl : SliceId) (layer : Nat)
  /-- REQUEST_DEADLINE (R371): A request whose output is absent at drip DEADLINE plus 1 ends with DEADLINE. -/
  | requestDeadline (sl : SliceId) (req : Nat)
  /-- CONTEXT_TEARDOWN (R357): A faulted context enters STOPPING, its requests end and its threads and buffers are released. -/
  | contextTeardown (ctx : Nat)
  /-- CONTEXT_OFF (R356): A stopping context enters OFF at the drip after its last completion record. -/
  | contextOff (ctx : Nat)
  /-- COMPLETION_WRITE (R364): A completion record is written to its ring when room allows, body before word 0. -/
  | completionWrite (ring : Fin 64)
  /-- LEDGER_ENABLE (R359): Setting LEDGER_ENABLE resets the ledger head and phase; clearing it stops scans. -/
  | ledgerEnable (d : Door) (sl : SliceId) (on : Bool)
  /-- RING_ENABLE (R375): Setting RING_ENABLE resets RING_HEAD and RING_TAIL to 0. -/
  | ringEnable (d : Door) (on : Bool)
  /-- RING_HEAD (R365): The host advances a ring's head, freeing space for held completions. -/
  | ringHead (ring : Fin 64) (v : Nat)
  /-- HOT_SERVE (R349): A write switching the job to a READY hot-set slot, unloading and loading from the sump. -/
  | hotServe (d : Door) (slot : Nat)
  /-- RESHAPE_ARM (R372): A RESHAPE_DRIP write arms a reshape at a frame start. -/
  | reshapeArm (d : Door) (v : Word)
  /-- RESHAPE_DISARM (R372): Writing 0 to RESHAPE_DRIP disarms a pending reshape. -/
  | reshapeDisarm (d : Door)
  /-- RESHAPE (R374): At the reshape drip a device starts the new image, or unloads if absent from it. -/
  | reshape
  /-- LOAD_START (R376): A write starting a model load toward a hot-set slot, the job, or an update. -/
  | loadStart (d : Door)
  /-- LOAD_HOST_READ (R381): The chain head reads the next load item from host memory. -/
  | loadHostRead
  /-- IMAGE_ITEM (R380): An IMAGE load item arrives, is checked, written per the load map and forwarded. -/
  | imageItem (it : LoadItem) (img : Image)
  /-- MANIFEST_ITEM (R380): A MANIFEST load item arrives, is checked, written and forwarded. -/
  | manifestItem (it : LoadItem)
  /-- TILE_ITEM (R380): A TILE load item arrives, is checked against the manifest, written and forwarded. -/
  | tileItem (it : LoadItem)
  /-- PANEL_ITEM (R380): A PANEL part arrives, is checked in part order, written and forwarded. -/
  | panelItem (it : LoadItem)
  /-- PLACEMENT_ITEM (R380): A PLACEMENT part arrives, is checked in part order, written and forwarded. -/
  | placementItem (it : LoadItem)
  /-- MAP_ITEM (R378): A MAP part of an update replaces the load map for the stream. -/
  | mapItem (it : LoadItem) (m : List (Nat × List (Nat × Nat)))
  /-- END_ITEM (R380): The END item triggers the completeness and digest checks that seal the load. -/
  | endItem (it : LoadItem)
  /-- ITEM_FORWARD (R382): A checked item is forwarded downstream once the forward window has room. -/
  | itemForward
  /-- LOAD_FORWARD_ACK (R382): The downstream acknowledges forwarded items, freeing the forward window. -/
  | loadForwardAck (seq : Nat)
  /-- LOAD_SEAL (R385): The weight-set digest is computed and matched and the load seals or fails. -/
  | loadSeal
  /-- UPSTREAM_TIMEOUT (R387): No item from upstream for UPSTREAM_TIMEOUT puts the device in HELD. -/
  | upstreamTimeout
  /-- LOAD_CHAIN (R388): A new LOAD_CHAIN written at a held device sends its resume token upstream. -/
  | loadChain (d : Door) (v : Bytes)
  /-- RESUME_TOKEN (R388): A resume token is served from a FULL device's copy or by re-reading host memory. -/
  | resumeToken (v : Bytes)
  /-- EPOCH_SWITCH (R392): A write requesting a weight epoch switch at a frame start W. -/
  | epochSwitch (d : Door) (v : Word)
  /-- WEIGHT_EPOCH_SWITCH (R393): At W the new weight epoch comes into force for passes starting from then. -/
  | weightEpochSwitch
  /-- EPOCH_RETIRE (R393): The old epoch retires after the last stage of the last pass pinning it completes. -/
  | epochRetire
  /-- PASS_DIGEST (R406): A PASS_DIGEST stage forms the slice record and sends the slice digest to every slice. -/
  | passDigest (sl : SliceId) (i : Nat)
  /-- PASS_DIGEST_FORM (R406): At the stage's due drip each slice forms the pass digest, marking INCOMPLETE if records are missing. -/
  | passDigestForm (sl : SliceId) (i : Nat)
  /-- HELLO (R415): A link session HELLO arrives and the agent verifies certificates and computes X448. -/
  | hello (sl : SliceId) (p : PortId) (msg : Bytes)
  /-- FINISH_SIGN (R417): The security controller completes a FINISH signature and the FINISH is sent. -/
  | finishSign
  /-- FINISH (R416): A FINISH arrives and the peer is accepted, taking the port UP, or refused. -/
  | finish (sl : SliceId) (p : PortId) (msg : Bytes)
  /-- AUTH_TIMEOUT (R417): A port not UP 10 ms after its HELLO goes DOWN with reason 4. -/
  | authTimeout (sl : SliceId) (p : PortId)
  /-- LINK_REKEY (R420): When FCOUNT reaches REKEY_FRAMES the direction derives a new key and flips KEY_PHASE. -/
  | linkRekey (sl : SliceId) (p : PortId)
  /-- OLD_KEY_ERASE (R420): The receiver erases the old link key 256 frames after the first frame under the new one. -/
  | oldKeyErase (sl : SliceId) (p : PortId)
  /-- TRNG_HEALTH_FAIL (R414): A TRNG health test fails and no new sessions are accepted until it passes. -/
  | trngHealthFail
  /-- QUOTE_NONCE (R424): A nonce write starts a quote: registers are snapshotted and signing begins. -/
  | quoteNonce (d : Door) (v : Bytes)
  /-- QUOTE_COMPLETE (R424): The signed quote is placed in QUOTE and QUOTE_DATA cleared. -/
  | quoteComplete
  /-- MR7_EXTEND (R422): The owner's 64 bytes extend MR7 and the event log. -/
  | mr7Extend (d : Door) (v : Bytes)
  /-- DICT_READ (R449): A BAR0-window READ places an entry value or chunk in DICT_DATA. -/
  | dictRead (index sub : Nat)
  /-- DICT_WRITE (R438): A BAR0-window WRITE of an entry with no row of its own, judged by the ordered checks. -/
  | dictWrite (index sub : Nat)
  /-- DICT_INFO (R441): A BAR0-window INFO returns an entry's 16-byte descriptor. -/
  | dictInfo (index sub : Nat)
  /-- DICT_OVERRUN_CLEAR (R450): Writing 1 to DICT_STATUS OVERRUN clears it. -/
  | dictOverrunClear
  /-- DICT_STAGING_TIMEOUT (R449): A chunked staging copy left unfinished for 10 s is discarded. -/
  | dictStagingTimeout
  /-- PERSISTED_WRITE_COMMIT (R434): A persisted write's record is read back and the value commits, extending MR3. -/
  | persistedWriteCommit (readBackOk : Bool)
  /-- DEFAULTS_RESTORE (R435): Marks persisted entries of the listed ranges to take their defaults at next power-up. -/
  | defaultsRestore (d : Door)
  /-- CREDENTIAL_WRITE (R442): A credential list write, closing sessions of removed keys and clearing OWNER_LOCK for CRED_OWNER. -/
  | credentialWrite (d : Door) (sub : Nat) (v : Bytes)
  /-- LIFECYCLE_ENABLE (R446): Writing 1 to a function's ENABLE starts it or defers its start. -/
  | lifecycleEnable (d : Door) (f : Fin 7) (ch : Nat)
  /-- LIFECYCLE_DISABLE (R446): Writing 0 to a function's ENABLE stops it or clears a deferred start. -/
  | lifecycleDisable (d : Door) (f : Fin 7) (ch : Nat)
  /-- LIFECYCLE_START_COMPLETE (R445): A function's start steps complete and it enters ON. -/
  | lifecycleStartComplete (f : Fin 7) (ch : Nat) (x : Option Expander)
  /-- LIFECYCLE_START_FAIL (R447): A start that times out or fails a step stops, enters OFF and clears ENABLE. -/
  | lifecycleStartFail (f : Fin 7) (ch : Nat) (code : Nat)
  /-- LIFECYCLE_STOP_COMPLETE (R446): A function's stop completes, entering OFF and running any deferred start. -/
  | lifecycleStopComplete (f : Fin 7) (ch : Nat)
  /-- ENABLE_RECORD_WRITE (R446): The persisted record of an ENABLE write is written once the store and holdup allow. -/
  | enableRecordWrite (readBackOk : Bool)
  /-- OPEN (R453): A Uaric OPEN is answered with a CHALLENGE or a REJECT. -/
  | uaricOpen (m : UaricMsg)
  /-- PROVE (R453): A Uaric PROVE is verified and the session accepted or rejected. -/
  | prove (m : UaricMsg)
  /-- CLOSE (R454): A Uaric CLOSE ends a session. -/
  | uaricClose (m : UaricMsg)
  /-- CERT_GET (R452): A Uaric CERT_GET returns a chunk of the device or intermediate certificate. -/
  | certGet (m : UaricMsg)
  /-- UARIC_READ (R455): A Uaric READ request returns an entry value in a RESULT. -/
  | uaricRead (m : UaricMsg)
  /-- UARIC_WRITE (R455): A Uaric WRITE request writes an entry and returns a RESULT. -/
  | uaricWrite (m : UaricMsg)
  /-- UARIC_INFO (R455): A Uaric INFO request returns an entry descriptor. -/
  | uaricInfo (m : UaricMsg)
  /-- UARIC_HANDSHAKE_TIMEOUT (R454): A handshake not proven within 2 s is dropped. -/
  | uaricHandshakeTimeout (h : Nat)
  /-- UARIC_IDLE_TIMEOUT (R454): A session idle for LANTERN_IDLE seconds closes. -/
  | uaricIdleTimeout (n : Nat)
  /-- FW_STAGE_DATA (R460): A segment of a firmware set is written into the staging slot. -/
  | fwStageData (d : Door) (v : Bytes)
  /-- FW_STAGE_COMMIT (R461): The staged image is checked and marked VERIFIED or REJECTED. -/
  | fwStageCommit (d : Door) (len : Nat)
  /-- FW_ROLLOUT (R462): Writing 1 starts a live rollout toward the staging slot. -/
  | fwRollout (d : Door)
  /-- FW_ROLLBACK (R462): Writing 2 starts a live rollback toward the non-running slot. -/
  | fwRollback (d : Door)
  /-- FW_BOOT_SLOT (R464): A cold install selects the slot that the next power-up boots. -/
  | fwBootSlot (d : Door) (slot : Nat)
  /-- HANDOVER_STEP (R463): At its handover drip a processor switches to the new image at a handover point. -/
  | handoverStep (digestOk : Bool)
  /-- IMAGE_READY (R463): A handed-over image reports ready, MR5 is extended and the step count rises. -/
  | imageReady
  /-- HANDOVER_READY_TIMEOUT (R466): An image not ready within 64 µs returns to the old image and the rollout reverts. -/
  | handoverReadyTimeout (oldReturns : Bool)
  /-- ROLLOUT_RESUME (R465): A held rollout returns to RUNNING once no hold reason applies. -/
  | rolloutResume
  /-- BOOT_SLOT_COMMIT (R467): After step 34 the new running slot is written to FW_BOOT_SLOT and the rollout returns to IDLE. -/
  | bootSlotCommit (readBackOk : Bool)
  /-- MARGIN_SENSOR_READ (R471): Every 100 ms margin sensors are read and sparing decisions made. -/
  | marginSensorRead (sl : SliceId) (u : UnitRef) (below provisional : Bool)
  /-- SPARE_MIGRATION (R475): Copying a pseudo-channel or row to its spare completes and takeover follows. -/
  | spareMigration (sl : SliceId) (stack : Fin 4)
  /-- TELEMETRY_SAMPLE (R481): Every TELEM_PERIOD ms a telemetry sample set is taken. -/
  | telemetrySample
  /-- ERROR_REPORT (R484): The record unit accepts a report, coalescing it or opening a record. -/
  | errorReport (sl : SliceId) (r : Report)
  /-- ERROR_RECORD_CLOSE (R485): An open error record closes after 1 ms and is written to the ring or dropped. -/
  | errorRecordClose (sl : SliceId)
  /-- ERR_CLEAR (R487): Writing 1 empties ERR_FIRST and zeroes ERR_OVERFLOW. -/
  | errClear (d : Door) (sl : SliceId)
  /-- REGISTER_WRITE (R491): A write to a BAR0 register that has no row of its own. -/
  | registerWrite (off : Nat) (data : Bytes)
  /-- BAR0_INVALID_ACCESS (R491): A BAR0 access of a wrong size is aborted or discarded and counted. -/
  | bar0InvalidAccess (off size : Nat) (isWrite : Bool)
  /-- EVT_CAUSE_CLEAR (R501): Writing 1 to an EVT_CAUSE bit clears it. -/
  | evtCauseClear (mask : Nat)
  /-- MSIX_UNMASK (R501): Unmasking an MSI-X vector sends any pending message. -/
  | msixUnmask (v : Fin 64)
  /-- BAR2_READ (R493): A host read TLP through BAR2 is translated, checked and answered. -/
  | bar2Read (off : Reads Nat) (len : Nat)
  /-- BAR2_WRITE (R495): A host write TLP through BAR2 is translated, checked and applied in arrival order. -/
  | bar2Write (t : Tlp)
  /-- BAR2_READ_TIMEOUT (R496): A BAR2 read unanswered after 1 ms completes with Completer Abort. -/
  | bar2ReadTimeout
  /-- DMA_REQUEST_ISSUE (R498): The host port issues one request per turn from its DMA channels in cyclic order. -/
  | dmaRequestIssue
  /-- HOST_READ_COMPLETION (R499): A completion to a device read of host memory arrives, succeeding or failing the read. -/
  | hostReadCompletion (tag : Nat) (data : Bytes) (ok : Bool)
  /-- HOST_READ_TIMEOUT (R499): A device read unanswered after 10 ms fails. -/
  | hostReadTimeout (tag : Nat)
  /-- MSIX_MOD_TIMEOUT (R501): MOD_TIME expires for a ring and its vector sends a message. -/
  | msixModTimeout (ring : Fin 64)
  /-- FLR (R502): A function level reset resets BAR0, ledgers and rings and tears down contexts. -/
  | flr
  /-- PERST_N (R502): PERST_N, hot reset or link disable takes the host link down with FLR effects. -/
  | perstN (k : HostReset)
  /-- HOST_LINK_DOWN (R500): The host link leaves L0 or BME clears; requests cannot issue and records are held. -/
  | hostLinkDown (bme : Bool)
  /-- HOST_LINK_UP (R500): The host link returns and held completion records are written in order. -/
  | hostLinkUp (width speed : Nat)
  /-- SUMP_LINK_DOWN (R507): A sump link leaves L0, making the slice's pool slots ABSENT. -/
  | sumpLinkDown (sl : SliceId)
  /-- SUMP_RETRAIN (R507): Every 10 ms a down sump port repeats enumeration and judges the device found. -/
  | sumpRetrain (sl : SliceId) (x : Option Expander)
  /-- SUMP_READ_TIMEOUT (R506): A sump read unanswered after 1 ms fails its fetch with 0x12. -/
  | sumpReadTimeout (sl : SliceId) (layer : Nat) (x : SlotRef)
  /-- SUMP_EVENT_POLL (R506): Every 100 ms the port reads the expander's event records via the mailbox. -/
  | sumpEventPoll (sl : SliceId) (events : List Nat)
  /-- POWER_UP (R520): PWR_OK rises and the device runs PLL lock, alignment, identity, boot and self-test. -/
  | powerUp (b : BootInputs)
  /-- PWR_OK_FALL (R518): PWR_OK falls and everything except always-on contents resets. -/
  | pwrOkFall (vauxHolds : Bool)
  /-- RAIL_FAULT (R513): A rail leaves tolerance, failing a slice or the device. -/
  | railFault (sl : Option SliceId)
  /-- SYS_RST_ASSERT (R518): SYS_RST_N asserted resets slices, management controller and host port and unloads the job. -/
  | sysRstAssert
  /-- SYS_RST_RELEASE (R519): SYS_RST_N released restarts processors on the running slot's set. -/
  | sysRstRelease (b : BootInputs)
  /-- PLL_LOCK_LOSS (R517): The root PLL loses lock, dividers stop and the device acts as under SYS_RST_N. -/
  | pllLockLoss
  /-- VID_STEP (R511): The VCORE VID code changes by one step per 100 µs. -/
  | vidStep (sl : SliceId) (up : Bool)
  /-- SENSOR_READ (R521): Every 100 µs junction sensors are read and slice temperature updated. -/
  | sensorRead (sl : SliceId) (temp : Int)
  /-- POWER_WINDOW (R521): A 1 ms measurement window closes and limits of Table 21-6 are judged. -/
  | powerWindow (watts : List Nat) (shared : Nat)
  /-- THROTTLE_RELEASE (R522): After 10 ms below release levels the divider is raised one step. -/
  | throttleRelease (sl : SliceId)
  /-- HOLDUP_OK_CHANGE (R526): The filtered HOLDUP_OK input changes and HOLDUP_STATE follows. -/
  | holdupOkChange (level : Bool)
  /-- I3C_POLL (R528): Every 100 ms each I3C target is polled. -/
  | i3cPoll (target : Fin 16) (reading : Nat)
  /-- I3C_IBI (R528): An I3C in-band interrupt is written as a POWER record. -/
  | i3cIbi (target : Fin 16) (data : Nat)
  /-- TAP_INSTRUCTION (R529): A JTAG instruction is decoded, boundary tests acting only while SYS_RST_N is low. -/
  | tapInstruction (x : TapInstr)
  /-- PLL_RELOCK (R517): The root PLL relocks after a loss of lock and the device releases itself from reset through R519. -/
  | pllRelock (b : BootInputs)
  /-- TRNG_HEALTH_PASS (R414): The entropy source passes its health tests again and new link and lantern sessions are accepted once more. -/
  | trngHealthPass
  /-- HOT_SERVE_LOAD_COMPLETE (R349): The load of a hot-set slot's image and weights from the sump finishes, the slot becomes SERVING and the job is loaded. -/
  | hotServeLoadComplete
  /-- CONFIGURATION_REQUEST (R520): A PCIe configuration request from the host is answered with Request Retry Status during self-test and otherwise applied, including Resizable BAR size, Bus Master Enable and MSI-X control. -/
  | configurationRequest (x : ConfigReq)
  deriving DecidableEq, Repr

end Sys2Proof
end

