-- ==== Sys2Proof/Decode.lean ====
section
/-! DEFINITION. The command that a word spells. The KN-800 is a block that takes commands: no row of its command table has
bits, so no word spells a command. -/

namespace Sys2Proof

/-- The command of a table word: none, since the table gives no row any bits. -/
def decodeTableWord (_nbits _w : Nat) : Option Instr := none

end Sys2Proof
end

