-- ==== Sys2Proof/Machine/Crypto.lean ====
section
/-! DEFINITION. The hash functions the manual names: Keccak-f[1600], SHAKE256 (FIPS 202), cSHAKE256 and KMAC256
(SP 800-185). R108, R151, R385, R404 to R407, R415, R422 and R453 use them. -/

namespace Sys2Proof

/-- The round constants of Keccak-f[1600]. -/
def keccakRC : List Nat :=
  [0x0000000000000001, 0x0000000000008082, 0x800000000000808A, 0x8000000080008000,
   0x000000000000808B, 0x0000000080000001, 0x8000000080008081, 0x8000000000008009,
   0x000000000000008A, 0x0000000000000088, 0x0000000080008009, 0x000000008000000A] ++
  [0x000000008000808B, 0x800000000000008B, 0x8000000000008089, 0x8000000000008003,
   0x8000000000008002, 0x8000000000000080, 0x000000000000800A, 0x800000008000000A,
   0x8000000080008081, 0x8000000000008080, 0x0000000080000001, 0x8000000080008008]

/-- The rotation of lane x + 5y. -/
def keccakRot : List Nat :=
  [0, 1, 62, 28, 27, 36, 44, 6, 55, 20, 3, 10, 43, 25, 39, 41, 45, 15, 21, 8, 18, 2, 61, 56, 14]

/-- Rotate a 64-bit lane left. -/
def rotl64 (x n : Nat) : Nat := ((x <<< n) ||| (x >>> (64 - n))) % 2 ^ 64

/-- One round of Keccak-f[1600] over 25 lanes. -/
def keccakRound (a : List Nat) (rc : Nat) : List Nat :=
  let at_ (l : List Nat) (i : Nat) := l.getD i 0
  let c := (List.range 5).map fun x =>
    at_ a x ^^^ at_ a (x + 5) ^^^ at_ a (x + 10) ^^^ at_ a (x + 15) ^^^ at_ a (x + 20)
  let d := (List.range 5).map fun x => at_ c ((x + 4) % 5) ^^^ rotl64 (at_ c ((x + 1) % 5)) 1
  let t := (List.range 25).map fun i => at_ a i ^^^ at_ d (i % 5)
  -- lane (x, y) of the new array comes from the lane rho and pi move there
  let b := (List.range 25).map fun i =>
    let sx := (i % 5 + 3 * (i / 5)) % 5
    let src := sx + 5 * (i % 5)
    rotl64 (at_ t src) (keccakRot.getD src 0)
  let e := (List.range 25).map fun i =>
    let x := i % 5
    let y := i / 5
    at_ b i ^^^ ((at_ b ((x + 1) % 5 + 5 * y) ^^^ (2 ^ 64 - 1)) &&& at_ b ((x + 2) % 5 + 5 * y))
  e.set 0 (at_ e 0 ^^^ rc)

/-- Keccak-f[1600]. -/
def keccakF (a : List Nat) : List Nat := keccakRC.foldl keccakRound a

/-- Absorb one block of 136 bytes. -/
def absorb136 (a : List Nat) (blk : Bytes) : List Nat :=
  keccakF ((List.range 25).map fun i =>
    if i < 17 then a.getD i 0 ^^^ leNat ((blk.drop (8 * i)).take 8) else a.getD i 0)

/-- Absorb `n` blocks of a padded message. -/
def absorbAll : Nat → List Nat → Bytes → List Nat
  | 0, a, _ => a
  | n + 1, a, m => absorbAll n (absorb136 a (m.take 136)) (m.drop 136)

/-- The first 136 bytes of a state. -/
def squeezeBlock (a : List Nat) : Bytes := ((a.take 17).map (leBytes 8)).flatten

/-- Squeeze `n` blocks. -/
def squeezeAll : Nat → List Nat → Bytes
  | 0, _ => []
  | n + 1, a => squeezeBlock a ++ squeezeAll n (keccakF a)

/-- The sponge with rate 136: a domain suffix byte, the pad10*1 rule and an output length. -/
def sponge (suffix : Byte) (m : Bytes) (outLen : Nat) : Bytes :=
  let q := 136 - m.length % 136
  let pad : Bytes :=
    if q = 1 then [suffix ||| 0x80#8] else suffix :: (zeros (q - 2) ++ [0x80#8])
  let p := m ++ pad
  (squeezeAll (ceilDiv outLen 136) (absorbAll (p.length / 136) (List.replicate 25 0) p)).take outLen

/-- SHAKE256. -/
def shake256 (m : Bytes) (outLen : Nat) : Bytes := sponge 0x1F#8 m outLen

/-- The big-endian bytes of a number, at least one. -/
def beMin (fuel v : Nat) : Bytes :=
  match fuel with
  | 0 => []
  | f + 1 => if v < 256 then [BitVec.ofNat 8 v] else beMin f (v / 256) ++ [BitVec.ofNat 8 v]

/-- left_encode and right_encode of SP 800-185. -/
def leftEncode (v : Nat) : Bytes := let b := beMin 9 v; BitVec.ofNat 8 b.length :: b
def rightEncode (v : Nat) : Bytes := let b := beMin 9 v; b ++ [BitVec.ofNat 8 b.length]

/-- encode_string of SP 800-185. -/
def encodeString (s : Bytes) : Bytes := leftEncode (8 * s.length) ++ s

/-- bytepad to the rate. -/
def bytepad136 (x : Bytes) : Bytes := padTo 136 (leftEncode 136 ++ x)

/-- The bytes of an ASCII text. -/
def ascii (t : String) : Bytes := t.toList.map fun c => BitVec.ofNat 8 c.toNat

/-- cSHAKE256 with function name N and customisation S. -/
def cshake256 (m : Bytes) (outLen : Nat) (n s : Bytes) : Bytes :=
  sponge 0x04#8 (bytepad136 (encodeString n ++ encodeString s) ++ m) outLen

/-- KMAC256 with an output of `outLen` bytes. -/
def kmac256 (key m : Bytes) (outLen : Nat) (s : Bytes) : Bytes :=
  cshake256 (bytepad136 (encodeString key) ++ m ++ rightEncode (8 * outLen)) outLen (ascii "KMAC") s

/-- The 64-byte SHAKE256 digest that the manual uses throughout. -/
def digest64 (m : Bytes) : Bytes := shake256 m 64

end Sys2Proof
end

