-- ==== Sys2Proof/Machine/State.lean ====
section
/-! DEFINITION. The state of the KN-800: everything the manual gives the device, as plain data, the queue of waiting
commands, and the state at reset. Counters are natural numbers; the dictionary reads them at their entry's width. -/

namespace Sys2Proof.Machine

/-- Memory of one slice over its 41-bit slice offsets (R205): addresses rising, no entry equal to 0, which is what an
unlisted byte reads as (DESIGN CHOICE, log 1). -/
abbrev Memory := List Host.Cell

/-- The reasons the machine stops with a fault. No command of this device stops it; the reason is kept for an access
that a caller makes outside the 41-bit offset space. -/
inductive Fault where
  /-- Raised by no command; an offset of 2^41 or more names nothing (R205). Safe: the model stops. -/
  | offsetBeyondSlice
  deriving DecidableEq, Repr

/-- The reasons a command is refused. -/
inductive Refusal where
  /-- Raised by exec for a command that has no meaning yet. Safe: the model stops. -/
  | notModelled (mnemonic : String)
  deriving DecidableEq, Repr

/-- The states of a stage of the current frame (R28, R33 to R36). `void` is a collective step that sends nothing (R340). -/
inductive RunState where
  | waiting | launched | completed | missed | withdrawn | void
  deriving DecidableEq, Repr

/-- One stage of one frame: its launch entry, the frame start and where it stands. -/
structure Run where
  idx : Nat
  frame : Drip
  entry : StageEntry
  st : RunState := .waiting
  /-- Drip of the actual launch. -/
  launchedAt : Drip := 0
  /-- An input was absent at the launch drip in still-water mode (R34). -/
  lateInput : Bool := false
  /-- The act that this kind of stage performs at its launch has been done. -/
  begun : Bool := false
  /-- A thread of the phase was stopped before its HALT, so the phase does not complete (R89, R110). -/
  stopped : Bool := false
  /-- At the launch drip: the slices marked lost (R75), and the contexts of the row map that were not live (R136). -/
  lost : List Place := []
  dead : List Nat := []
  /-- The device entered FREE while the stage was live: it carries no more of what its own requests send to other devices (R44). -/
  freed : Bool := false
  deriving DecidableEq, Repr

/-- Thread states (Table 04-2). -/
inductive ThreadPhase where
  | idle | ready | running | waitMem | waitUnit (u : EngineUnit) | waitDrip (d : Drip) | waitFlag (f : Nat) | waitPool
  deriving DecidableEq, Repr

/-- A hardware thread (R87 to R93, R107). -/
structure Thread where
  st : ThreadPhase := .idle
  pc : Nat := 0
  g : List Word := List.replicate 32 0
  p : List Bool := List.replicate 8 false
  /-- Instructions issued in a row (R91). -/
  issued : Nat := 0
  /-- XSTs outstanding and other remote accesses outstanding (R92). -/
  xst : Nat := 0
  other : Nat := 0
  /-- An XST that found 16 outstanding waits to issue (R92), or a FENCE DRAIN waits (R107). -/
  xstWait : Bool := false
  drain : Bool := false
  /-- It waits in WAIT_MEM for a staged copy, which is there once the engine has issued another instruction or has none to issue
  (R92, R104). -/
  staged : Bool := false
  /-- Slices a FENCE MARK is pending for (R107). -/
  marks : List Place := []
  /-- The stage the thread serves: its run number, CTX, pool owner, prefetch set and launch drip. -/
  run : Nat := 0
  ctx : Nat := 255
  owner : Nat := 0
  prefetchSet : Nat := 0
  launchDrip : Drip := 0
  deriving DecidableEq, Repr, Inhabited

/-- A unit start that waits for its unit (R99): the unit, the thread and the instruction word. -/
structure UnitWait where
  unit : EngineUnit
  thread : Nat
  word : Word
  deriving DecidableEq, Repr

/-- The panels that an engine loads for one SCORE pass, in ascending order (R59): their layer, the pass that takes them, whether
it is a lookahead pass, the frame of the pass, and the panel that lands next. -/
structure Sweep where
  layer : Nat
  pass : Option Nat
  look : Bool
  frame : Drip
  next : Nat
  deriving DecidableEq, Repr

/-- A panel that lies in a panel buffer (R59): its layer and number, the pass that takes it, and which of the two buffers. -/
structure PanelBuf where
  layer : Nat
  panel : Nat
  pass : Option Nat
  buf : Nat
  deriving DecidableEq, Repr

/-- A pass of the scoring unit (R61): its descriptor, whether it is a lookahead pass, the stage it runs for, and the panel it
scores next. -/
structure ScorePass where
  desc : Nat
  look : Bool
  run : Nat
  next : Nat
  deriving DecidableEq, Repr

/-- A routing engine. -/
structure Engine where
  threads : List Thread := List.replicate 64 {}
  running : Option Nat := none
  last : Nat := 63
  /-- Units in use, each with the thread that started it (R99); the combine unit has none. -/
  busy : List (EngineUnit × Nat) := []
  waits : List UnitWait := []
  /-- Panels landed and not yet scored, at most two, the panels being loaded, and the pass that the scoring unit runs (R59,
  R61). -/
  panels : List PanelBuf := []
  /-- The panel buffer whose turn it is (R59). -/
  nextBuf : Nat := 0
  sweep : Option Sweep := none
  scoring : Option ScorePass := none
  /-- The engine has failed and its stages are withdrawn (R85). -/
  failed : Bool := false
  deriving DecidableEq, Repr, Inhabited

/-- The logits of one row for the 64 experts of a panel (R61, R62). -/
structure LogitBlock where
  layer : Nat
  lookahead : Bool
  row : Nat
  panel : Nat
  vals : List (BitVec 32)
  deriving DecidableEq, Repr

/-- A choice of a row (R67 to R79): expert, rank, replica and place, weight, and the capacity row once granted. -/
structure Choice where
  layer : Nat
  row : Nat
  rank : Nat
  expert : Nat
  replica : Nat
  node : Nat
  slice : Nat
  quad : Nat
  slot : Nat
  weight : BitVec 32
  nanf : Bool := false
  /-- none before ASSIGN; some (some r) kept in capacity row r; some none dropped (R77). -/
  kept : Option (Option Nat) := none
  deriving DecidableEq, Repr

/-- A count record that has landed (R73, R75). -/
structure CountRec where
  src : Place
  layer : Nat
  tag : Nat
  entries : List Nat
  deriving DecidableEq, Repr

/-- A grant record that has landed (R74, R75): granted and base row per entry. -/
structure GrantRec where
  src : Place
  layer : Nat
  tag : Nat
  entries : List (Nat × Nat)
  deriving DecidableEq, Repr

/-- Lookahead counts that arrived from a home (R82). -/
structure LookRec where
  src : Place
  layer : Nat
  /-- Frame start of the pass in which the counts arrived. -/
  frame : Drip
  counts : List (SlotRef × Nat)
  deriving DecidableEq, Repr

/-- A row map entry (Table 13-1). -/
structure RowEntry where
  valid : Bool := false
  ctx : Nat := 0
  sqz : Bool := false
  req : Nat := 0
  pos : Nat := 0
  deriving DecidableEq, Repr, Inhabited

/-- One code of a residency view (R217). -/
structure ViewCode where
  place : Place
  layer : Nat
  slot : SlotRef
  code : Nat
  deriving DecidableEq, Repr

/-- What SELECT of a layer found at its launch drip: the frame of its pass, the row map (R54) and the residency view (R65,
R217). -/
structure LayerSnap where
  layer : Nat
  frame : Drip
  rows : List RowEntry
  view : List ViewCode
  deriving DecidableEq, Repr

/-- A grant as the grant engine made it (R76): source, slot, rank (0 under TOKEN_MAJOR), rows granted and base row. -/
structure GrantOut where
  layer : Nat
  src : Place
  slot : SlotRef
  rank : Nat
  g : Nat
  base : Nat
  deriving DecidableEq, Repr

/-- The routing state of a slice (chapter 03) and its counters (Table 03-8, Table 04-9). -/
structure Routing where
  logits : List LogitBlock := []
  choices : List Choice := []
  counts : List CountRec := []
  grants : List GrantRec := []
  look : List LookRec := []
  /-- Where epochs place the placement table of a layer, other than at its PLACEMENT_ADDR: the layer, the frame start from
  which passes pin the epoch, and the slice offset; the newest first (R391). -/
  placements : List (Nat × Drip × Nat) := []
  /-- Lookahead choices of the rows: replicas only (R81, R83). -/
  lookChoices : List Choice := []
  /-- What SELECT of each layer found at its launch drip (R54, R65). -/
  snaps : List LayerSnap := []
  /-- Lookahead candidates that a frame has taken up: layer, frame start, slot (R82). -/
  looked : List (Nat × Drip × SlotRef) := []
  /-- Layers whose lookahead pass met a panel that failed, with the frame start: it selects nothing (R59). -/
  lookBad : List (Nat × Drip) := []
  /-- SELECT done at an engine: layer, engine, 0 main or 1 squeeze. Layers whose count records are sent, and layers
  whose ASSIGN has run at an engine. -/
  topkDone : List (Nat × Nat × Nat) := []
  countsSent : List Nat := []
  assigned : List (Nat × Nat) := []
  /-- Grants made here, rows used per slot, choices refused per layer, and the engines that have granted (R76, R127). -/
  grantOut : List GrantOut := []
  used : List (Nat × SlotRef × Nat) := []
  refused : List (Nat × Nat) := []
  grantsDone : List (Nat × Nat) := []
  /-- Sorted dispatch lists, by layer (R80). -/
  dispatch : List (Nat × List Choice) := []
  droppedChoices : Nat := 0
  skippedRows : Nat := 0
  nanRows : Nat := 0
  lostSources : Nat := 0
  lookaheadFetches : Nat := 0
  threadFaults : Nat := 0
  lastFault : Nat := 0
  lateWaits : Nat := 0
  programWords : Nat := 0
  deriving DecidableEq, Repr, Inhabited

/-- A section at the slice that receives it (R114, R131 to R135): a dispatch section at the expert slice, or a return
section at the home. -/
structure Section where
  isReturn : Bool
  layer : Nat
  peer : Place
  slot : SlotRef
  /-- Capacity rows granted, or rows dispatched and expected back, ascending. -/
  rows : List Nat
  landed : List Nat := []
  lastSeq : Option Nat := none
  count : Nat := 0
  complete : Bool := false
  /-- A status the section is marked with (R132, R134, R135, R166). -/
  status : Option Nat := none
  /-- The frame start of the pass that the section belongs to (R134). -/
  frame : Drip := 0
  deriving DecidableEq, Repr

/-- A landing buffer of a landing set (R130): set, slot of a dispatch buffer or none for a return buffer, number, offset. -/
structure LandBuf where
  set : Nat
  slot : Option SlotRef
  idx : Nat
  offset : Nat
  deriving DecidableEq, Repr

/-- A block or record that waits in the queue of an injection (R100). -/
structure QueuedMsg where
  injection : Nat
  dst : Place
  data : Bytes
  fence : Bool := false
  deriving DecidableEq, Repr

/-- A block that SEND has put in the queue of an injection (R100, R125): the injection, the frame of its phase, the block's KIND and
layer, its destination slice, and its slot and SEQ. -/
structure SentBlock where
  injection : Nat
  frame : Drip
  kind : Nat
  layer : Nat
  dst : Place
  slot : SlotRef
  seq : Nat
  deriving DecidableEq, Repr

/-- The exchange of a slice (chapter 05). -/
structure Exchange where
  sections : List Section := []
  landing : List LandBuf := []
  injections : List QueuedMsg := []
  /-- Return lists, by layer and slot (R137). -/
  returnLists : List (Nat × SlotRef × List Choice) := []
  /-- A buffer that PACK filled: slice offset, destination and block lengths (R100, R122). -/
  packed : List (Nat × Place × List Nat) := []
  /-- Blocks that SEND has queued in the frames that still have live stages, those that have left included (R36, R125). -/
  sent : List SentBlock := []
  /-- Rows marked with a status: layer, token, code (R138, R141). -/
  marks : List (Nat × Nat × Nat) := []
  rxBase : Nat := 0
  shapeBase : Nat := 0
  blocksSent : Nat := 0
  zrunBlocks : Nat := 0
  bytesSaved : Nat := 0
  discarded : Nat := 0
  checksumBlocks : Nat := 0
  lostSources : Nat := 0
  discardedRows : Nat := 0
  deriving DecidableEq, Repr, Inhabited

/-- A tile in the cells of an array, active or shadow (R144, R150, R165): its bytes and its poison code, if any. -/
structure Tile where
  bytes : Bytes
  poison : Option Nat := none
  deriving DecidableEq, Repr

/-- An accumulator slot: 16 rows of 128 binary32, the poison code, the TILE_ID and NEXT_M1 of the last tile streamed into
it, and whether the running segment has updated it since its last drain (R146, R155, R161, R165, R171). -/
structure AccSlot where
  vals : List (BitVec 32) := []
  poison : Option Nat := none
  tileId : Nat := 0
  next : Nat := 127
  dirty : Bool := false
  deriving DecidableEq, Repr, Inhabited

/-- An array of a quad (R144 to R146). -/
structure Array where
  active : Option Tile := none
  shadow : Option Tile := none
  slots : List AccSlot := List.replicate 8 {}
  deriving DecidableEq, Repr, Inhabited

/-- Where the quad's sequencer stands (R167 to R172). -/
inductive QuadPhase where
  | idle | running | waitDrip (d : Drip) | waitFlag (f : Nat)
  deriving DecidableEq, Repr

/-- A LOOP in progress: first word, one past the last word, passes left (R169). -/
structure LoopFrame where
  first : Nat
  stop : Nat
  left : Nat
  deriving DecidableEq, Repr

/-- A drain of a poisoned slot that waits to be reported at the next drip (R166): the slot's code, the physical array, the
TILE_ID, the current slot (layer and slot), the segment and the drip of the drain. -/
structure PoisonedDrain where
  code : Nat
  array : Nat
  tileId : Nat
  cur : Option (Nat × Nat)
  run : Run
  at_ : Drip
  deriving DecidableEq, Repr

/-- A quad: its sequencer, registers, arrays and program store (chapter 06). -/
structure Quad where
  st : QuadPhase := .idle
  pc : Nat := 0
  q : List Word := List.replicate 16 0
  loops : List LoopFrame := []
  /-- Current slot, set by LDSHAPE, and the layer it names (R169). -/
  cur : Option (Nat × Nat) := none
  /-- Slots reached by LDSHAPE in this segment (R171). -/
  reached : List Nat := []
  partials : Nat := 0
  run : Nat := 0
  ctx : Nat := 255
  launchDrip : Drip := 0
  arrays : List Array := List.replicate 4 {}
  program : List Word := []
  /-- Drains of poisoned slots not yet reported (R166). -/
  poisoned : List PoisonedDrain := []
  /-- Window mappings sampled at launch: window number and frame (R218). -/
  sampled : List (Nat × Option Nat) := []
  deriving DecidableEq, Repr, Inhabited

/-- Array and numeric counters of a slice (Tables 06-11 and 07-7). -/
structure ArrayCounters where
  tilesLoaded : Nat := 0
  zeroTiles : Nat := 0
  tileCrcFails : Nat := 0
  tileHeaderFaults : Nat := 0
  quadFaults : Nat := 0
  quadLastFault : Nat := 0
  quadProgramWords : Nat := 0
  satElements : Nat := 0
  nonfiniteDrains : Nat := 0
  nonfiniteVops : Nat := 0
  vopFaults : Nat := 0
  deriving DecidableEq, Repr, Inhabited

/-- Kinds of fetch (Table 08-7). -/
inductive FetchKind where
  | scheduled | demand | lookahead
  deriving DecidableEq, Repr

/-- A fetch in flight (R221 to R229). -/
structure Fetch where
  kind : FetchKind
  layer : Nat
  slot : SlotRef
  frame : Nat
  due : Drip
  projected : Drip
  landed : List Nat := []
  /-- The prefetch stage that started it (R223). -/
  run : Option Nat := none
  /-- The drip it was issued for, and whether the sump port serves it (R221). -/
  issued : Drip := 0
  active : Bool := false
  /-- The drip in which its last tile landed; once it is present, that from which it is (R216). -/
  full : Option Drip := none
  /-- It has failed: its slot is in SUMP again at the next drip boundary (R214, R216). -/
  failed : Bool := false
  deriving DecidableEq, Repr

/-- A write window (R211): ranges of whole tiles, and whether it is open. -/
structure WriteWindow where
  ranges : List Range := []
  isOpen : Bool := false
  deriving DecidableEq, Repr, Inhabited

/-- The memory tiers of a slice (chapter 08). -/
structure Tiers where
  weightBase : Nat := 0
  weightBytes : Nat := 0
  stateBase : Nat := 0
  stateBytes : Nat := 0
  poolBase : Nat := 0
  poolFrames : Nat := 0
  frameBytes : Nat := 0
  freeTarget : Nat := 0
  residencyBase : Nat := 0
  sumpRate : Nat := 224
  /-- Rate derived at the last enumeration since power-up, if any (R222). -/
  derivedRate : Option Nat := none
  res : List ResEntry := []
  view : List ViewCode := []
  viewNext : List ViewCode := []
  viewLanded : List Place := []
  /-- Slots chosen for eviction at the last snapshot (R219). -/
  evict : List (Nat × SlotRef) := []
  /-- Frames evicted and not yet released (R220). -/
  releasing : List Nat := []
  fetches : List Fetch := []
  /-- Fetches of which every tile is present, until FETCH_COMPLETE ends them (R216, R223). -/
  present : List Fetch := []
  window : WriteWindow := {}
  /-- Tiles written inside the window, by offset (R212). -/
  written : List Nat := []
  fetchPrefetch : Nat := 0
  fetchDemand : Nat := 0
  fetchLookahead : Nat := 0
  fetchLate : Nat := 0
  fetchFailed : Nat := 0
  legacyDrops : Nat := 0
  evictions : Nat := 0
  noFrame : Nat := 0
  viewMissing : Nat := 0
  scrubCorrected : Nat := 0
  scrubUncorrectable : Nat := 0
  scrubPasses : Nat := 0
  /-- Next granule that patrol scrub reads (R232), next pseudo-channel retrained per stack (R234). -/
  scrubPos : Nat := 0
  /-- System time at which the scrub pass began, and whether it has been recorded as too long (R232). -/
  scrubStart : Nat := 0
  scrubLate : Bool := false
  retrainPos : List Nat := [0, 0, 0, 0]
  /-- Corrected words of the current pass, by word offset (R470). -/
  passCorrected : List Nat := []
  /-- Staged copies of prefetch-set ranges: set, range, and pieces by global address (R104). -/
  staged : List (Nat × Nat × List (Nat × Bytes)) := []
  deriving DecidableEq, Repr, Inhabited

/-- A pool class (R236, R239, R250). -/
structure PoolClass where
  base : Nat := 0
  count : Nat := 0
  lowFree : Nat := 0
  deriving DecidableEq, Repr, Inhabited

/-- A buffer that has ever been used since job load (R240, R244). -/
structure Buf where
  cls : Nat
  idx : Nat
  alloc : Bool
  owner : Nat
  /-- The class whose account is charged is `cls`; owner list, tail last (R243). -/
  list : List Nat
  done : Nat := 0
  gen : Nat := 0
  torn : Bool := false
  ctx : Nat := 255
  deriving DecidableEq, Repr

/-- A thread ALLOC that waits for a buffer (R242). -/
structure PoolWait where
  engine : Nat
  thread : Nat
  bytes : Nat
  list : List Nat
  reg : Nat
  owner : Nat
  ctx : Nat
  deriving DecidableEq, Repr

/-- The pool manager of a slice (chapter 09). -/
structure Pools where
  classes : List PoolClass := List.replicate 6 {}
  owners : List OwnerDecl := []
  bufs : List Buf := []
  waits : List PoolWait := []
  ownerSel : Nat := 0
  lastReject : Nat := 0
  configured : Bool := false
  allocs : Nat := 0
  fallbacks : Nat := 0
  poolWaits : Nat := 0
  exhausted : Nat := 0
  rejected : Nat := 0
  stale : Nat := 0
  deriving DecidableEq, Repr, Inhabited

/-- A DATA frame kept until it is acknowledged (R262). -/
structure KeptFrame where
  seq : Nat
  stream : Bytes
  sends : Nat := 1
  deriving DecidableEq, Repr

/-- A link session (R415 to R420). -/
structure Session where
  priv : Bytes := []
  hello : Bytes := []
  peerHello : Bytes := []
  /-- Bytes of the SESSION message being sent, and of the one being received (R259). -/
  txMsg : Bytes := []
  txPart : Nat := 0
  rxPart : Nat := 0
  rxMsg : Bytes := []
  signAsked : Bool := false
  finishSent : Bool := false
  finishSeen : Bool := false
  isLo : Bool := false
  encrypt : Bool := false
  transcript : Bytes := []
  /-- Keys, salts and chain values derived and not yet in use: 88 bytes (R415). -/
  okm : Bytes := []
  /-- A FINISH signed while parts of the HELLO were still to be sent; it follows them (R415). -/
  finish : Bytes := []
  txKey : Bytes := []
  rxKey : Bytes := []
  /-- The key before the last rekey of the receiving direction, with its count, until it is erased (R420). -/
  rxOld : Option (Bytes × Nat) := none
  txSalt : Bytes := []
  rxSalt : Bytes := []
  txGen : Bytes := []
  rxGen : Bytes := []
  txCount : Nat := 0
  rxCount : Nat := 0
  txPhase : Bool := false
  rxPhase : Bool := false
  /-- Frames in a row whose CRC failed (R419). -/
  rxBad : Nat := 0
  /-- Frames received since the first under the new key (R420). -/
  sinceRekey : Nat := 0
  deriving DecidableEq, Repr, Inhabited

/-- A packet queued for an egress: the port number of its route word if any (R272), the claimant of Table 02-6 it came from,
and its number while it still stands in the ingress buffer of that claimant (R263). -/
structure Queued where
  pkt : Packet
  route : Option Nat := .none
  origin : Arrival := .own
  hold : Option Nat := .none
  deriving DecidableEq, Repr

/-- A link: an external port, or the internal link to a peer slice (chapter 10). `st`: the code of Table 10-1. -/
structure Link where
  st : Nat := 0
  disabled : Bool := false
  /-- Held out of service for want of a spare lane (R472). -/
  heldOut : Bool := false
  /-- In the eligible sets (R287). -/
  inService : Bool := false
  laneMap : Nat := 0x3210
  txSeq : Nat := 0
  kept : List KeptFrame := []
  /-- Frames to send again, by FSEQ (R262). -/
  resend : List Nat := []
  rxSeq : Nat := 4095
  nakOwed : Bool := false
  nakSent : Bool := false
  /-- Credits held for the peer's buffers, and credits to return (R263). -/
  reqCredits : Nat := 0
  rspCredits : Nat := 0
  reqReturn : Nat := 0
  rspReturn : Nat := 0
  /-- Stream bytes received and not yet a whole packet, and bytes waiting to be framed (R267). -/
  rxStream : Bytes := []
  txStream : Bytes := []
  /-- Packets in the ingress buffers, each with the port number of its route word if any (R263, R272). -/
  ingressReq : List (Packet × Option Nat) := []
  ingressRsp : List (Packet × Option Nat) := []
  /-- Packets queued for this egress (R264). -/
  egressReq : List Queued := []
  egressRsp : List Queued := []
  /-- Control symbols waiting for a control slot: 32 bytes each (R259). -/
  symbols : List Bytes := []
  /-- Times of the uncorrectable codewords of the last 1 ms (R256). -/
  fecTimes : List Nat := []
  /-- The second of TIME64 under way, the corrected symbols in it, and the whole seconds before it, one after the other, with more than
  10^6 of them (R470). -/
  fecSecond : Nat := 0
  fecCount : Nat := 0
  fecHot : Nat := 0
  /-- A link that left UP while a job scheduled traffic over it, until the job is reloaded (R18, R287). -/
  jobLost : Bool := false
  /-- For a port so lost, the nodes of the job whose eligible set held it (R287). -/
  lostFor : List Nat := []
  /-- Last T1 received and its local receive time (R38); what the last TIME packet said (R269). -/
  timeRx : Option (Nat × Nat) := none
  timePkt : Option TimePkt := none
  gmErr : Nat := 0
  /-- TSEQ of the next TIME symbol (Table 10-4). -/
  tseq : Nat := 0
  sess : Session := {}
  fecCorrected : Nat := 0
  fecUncorrectable : Nat := 0
  replays : Nat := 0
  downEvents : Nat := 0
  deriving DecidableEq, Repr, Inhabited

/-- Who waits for the answer of a message (R300). -/
inductive Issuer where
  | thread (e : Nat) (t : Nat) (kind : Nat) (reg : Nat) (addr : Nat) (len : Nat)
  /-- A thread that has halted, with the phase it served: its outstanding stores are still answered for (R103). -/
  | halted (u : Run)
  /-- An injection or a range prefetch: the launch entry and the frame of the stage, and for a prefetch the address. -/
  | inject (run : Nat) (frame : Drip)
  /-- The collective engine: the launch entry, COLL_ID and frame of the step. -/
  | coll (run : Nat) (id : Nat) (frame : Drip)
  | load (seq : Nat) | prefetch (run : Nat) (addr : Nat) (frame : Drip) | none
  deriving DecidableEq, Repr

/-- A REQ message sent and not yet answered (R270, R277). For a multicast, `group` names the group. -/
structure OutMsg where
  dst : Place
  group : Option Nat := .none
  msgId : Nat
  firstSeq : Nat
  packets : List Packet
  issuer : Issuer
  retries : Nat := 0
  retxed : Bool := false
  /-- Its bytes have left OUT of its flow since it was last sent (R283). -/
  settled : Bool := false
  deriving DecidableEq, Repr

/-- A flow at its source (R270, R283). -/
structure SrcFlow where
  dst : Place
  group : Option Nat := .none
  net : Net
  nextSeq : Nat := 0
  nextMsg : Nat := 0
  win : Nat := 0
  out : Nat := 0
  acc : Nat := 0
  halve : Nat := 0
  deriving DecidableEq, Repr

/-- A message that waits for the congestion window of its flow (R283). -/
structure WindowWait where
  dst : Place
  group : Option Nat := .none
  packets : List Packet
  issuer : Issuer
  deriving DecidableEq, Repr

/-- A message being received: its region entry, the NACK reason and offset with which it has been refused (R273, R299), the
bytes taken by a receiver that is not memory, and whether any packet carried MARK (R276). -/
structure OpenMsg where
  msgId : Nat
  entry : Option Nat := .none
  refused : Option (Nat × Nat) := .none
  mark : Bool := false
  data : Bytes := []
  /-- The load pipeline answered it NACK ECRC and takes it again when it is sent anew (R380). -/
  again : Bool := false
  deriving DecidableEq, Repr

/-- A flow at its destination (R273 to R278). -/
structure DstFlow where
  src : Place
  net : Net
  group : Option Nat := .none
  /-- Every FLOW_SEQ below `base` (counted without wrap) is delivered or skipped; `ahead` lists those beyond. -/
  base : Nat := 0
  ahead : List Nat := []
  /-- FLOW_SEQs skipped under R278, counted without wrap, while a packet that carries one can still be told from a newer one. -/
  skipped : List Nat := []
  /-- Packets held with the buffer handle that keeps the payload (R275). -/
  held : List (Packet × Nat) := []
  msgs : List OpenMsg := []
  /-- The last 1,024 completed messages with the answer each got (R278). -/
  completed : List (Nat × Packet) := []
  deriving DecidableEq, Repr

/-- The fabric endpoint of a slice (chapter 10). -/
structure Fabric where
  src : List SrcFlow := []
  dst : List DstFlow := []
  outMsgs : List OutMsg := []
  windowed : List WindowWait := []
  /-- Packets that wait for their consumer in this slice; one that came over a link still stands in its ingress buffer (R263, R275). -/
  inject : List Queued := []
  /-- Number of the next packet that a router leaves in its ingress buffer while it waits for an egress (R263). -/
  nextHold : Nat := 0
  /-- Scheduled packets kept for the FENCE rule of R277. -/
  retransmits : Nat := 0
  giveups : Nat := 0
  /-- Slices this device has marked lost in the loaded job (R288). -/
  lost : List Place := []
  deriving DecidableEq, Repr, Inhabited

/-- A record of the replay filter (R311). EXPIRED is a DONE record whose time is more than 2 ms past. -/
inductive FilterRec where
  | pending | done (answer : Packet) (time : Nat)
  deriving DecidableEq, Repr

/-- A source slot of the replay filter: records by REQ_ID; an ID without one is EMPTY (R311). -/
structure FilterSlot where
  src : Place
  newest : Nat
  recs : List (Nat × FilterRec)
  deriving DecidableEq, Repr

/-- A multicast message at its sender (R317): each member with none while unanswered, 0 when completed, or the code of the
reason it is missing; and whether an answer carried ECHO. -/
structure McastMsg where
  group : Nat
  msgId : Nat
  ctx : Nat
  /-- The frame of the store. -/
  frame : Drip := 0
  echo : Bool := false
  members : List (Place × Option Nat)
  deriving DecidableEq, Repr

/-- An operation that waits to be applied (R309): the memory its range stood for when it was delivered (R218), as pieces of
address and length, and whether an open write window admitted it (R203, R212). -/
structure ApplyItem where
  pkt : Packet
  arr : Arrival
  ranges : List (Nat × Nat) := []
  win : Bool := false
  deriving DecidableEq, Repr

/-- The remote-memory endpoint of a slice (chapter 11). -/
structure Remote where
  regions : List (Nat × RegionEntry) := []
  regionSel : Nat := 0
  applyQ : List ApplyItem := []
  filter : List FilterSlot := []
  reqIds : List (Place × Nat) := []
  mcast : List McastMsg := []
  refused : Nat := 0
  poison : Nat := 0
  replayed : Nat := 0
  unknown : Nat := 0
  full : Nat := 0
  unknownIssued : Nat := 0
  mcastPartial : Nat := 0
  deriving DecidableEq, Repr, Inhabited

/-- A live collective step at this member (R333 to R342). Chunks and sums are the carrier bytes; an empty sum is none. -/
structure CollStep where
  run : Nat
  frame : Drip
  desc : CollDesc
  group : Group
  step : Nat
  epoch : Nat
  /-- The routing table that its messages name while it is live (R343). -/
  table : Nat := 0
  gated : Bool := false
  status : Nat := 0
  /-- Next chunk whose sum is to be formed here. -/
  cur : Nat := 0
  /-- FIRST and LIMIT of the last PULL sent to each predecessor (R334). -/
  granted : List (Place × Nat × Nat) := []
  /-- Sums received and not yet added: predecessor, chunk, payload or none for ZERO. -/
  got : List (Place × Nat × Option Bytes) := []
  /-- Sums ready to send or sent and kept: chunk, payload, sent. -/
  sums : List (Nat × Option Bytes × Bool) := []
  /-- Chunks below this the successor lets us send. -/
  limit : Nat := 0
  /-- Chunks below this the successor has passed. -/
  passed : Nat := 0
  results : List Nat := []
  /-- RESULT chunks owed and not yet answered: destination and chunk. -/
  owed : List (Place × Nat) := []
  completed : Bool := false
  deriving DecidableEq, Repr

/-- The collective engine of a slice (chapter 12). -/
structure Coll where
  groups : List (Nat × Group) := []
  nextGroups : List (Nat × Group) := []
  descs : List (Nat × CollDesc) := []
  steps : List CollStep := []
  /-- Parked lead chunks: sender, header and payload bytes, buffer handle (R337). -/
  parked : List (Place × Bytes × Nat) := []
  /-- PULLs for steps not launched (R334): sender and message. -/
  pulls : List (Place × Bytes) := []
  /-- Instances ended here: COLL_ID, frame, code (R340). -/
  ended : List (Nat × Drip × Nat) := []
  groupSel : Nat := 0
  rxBase : Nat := 0
  stepsDone : Nat := 0
  stalls : Nat := 0
  parkedCount : Nat := 0
  parkDropped : Nat := 0
  discarded : Nat := 0
  zeroChunks : Nat := 0
  deriving DecidableEq, Repr, Inhabited

/-- A command record of the ledger (Table 13-3) as accepted. -/
structure Cmd where
  slot : Nat
  kind : Nat
  ctx : Nat
  tag : Nat
  words : List Nat
  ledgerIndex : Nat
  acceptDrip : Drip
  waitFlag : Option Nat := .none
  /-- Number of the acceptance at its slice (R361). -/
  seq : Nat := 0
  /-- A SUBMIT that has been checked and waits for admission (R352). -/
  queued : Bool := false
  deriving DecidableEq, Repr

/-- A condition that ends a request (R12): drip found, drip given, status, and the MoE layer it arose at or 0xFF. -/
structure Cond where
  found : Drip
  given : Drip
  status : Status
  layer : Nat := 0xFF
  deriving DecidableEq, Repr

/-- A request admitted to a pass (R350 to R371). -/
structure Request where
  slot : Nat
  cmd : Cmd
  rows : Nat
  firstRow : Nat
  frame : Drip
  deadline : Drip
  sqz : Bool := false
  sqzLayer : Nat := 0
  /-- Bytes of the input that have landed, and whether all have (R353). -/
  inputGot : Nat := 0
  inputDone : Bool := false
  inputRows : Bytes := []
  outputRows : Bytes := []
  outputDone : Bool := false
  /-- A CANCEL waits for the next layer boundary (Table 13-6). -/
  cancel : Bool := false
  conds : List Cond := []
  ended : Bool := false
  /-- Partial record entries of Table 11-7 and the number missing (R318). -/
  partials : List Nat := []
  missing : Nat := 0
  deriving DecidableEq, Repr

/-- What a pass pins and records at its frame start (R391, R399, R403, R405). -/
structure Pass where
  frame : Drip := 0
  epoch : Nat := 0
  /-- Weight-set digest of the epoch that the pass pins (R391). -/
  weightDigest : Bytes := []
  fwVersion : Nat := 0
  unitMap : Bytes := []
  rowmap : List RowEntry := []
  disturbed : Bool := false
  selectsDone : Bool := false
  /-- Slice digests that have landed, with FLAGS (R406). -/
  digests : List (Place × Bytes × Nat) := []
  passDigest : Bytes := []
  incomplete : Bool := false
  /-- Requests of the pass that have been settled, which its slice record still covers (R405). -/
  gone : List Request := []
  deriving DecidableEq, Repr, Inhabited

/-- The sequencer of a slice (chapter 13). -/
structure Service where
  ledgerBase : Nat := 0
  ledgerEntries : Nat := 16
  ledgerEnable : Bool := false
  ledgerHead : Nat := 0
  ledgerPhase : Bool := true
  scanDrips : Nat := 1
  scanMax : Nat := 64
  rowmapBase : Nat := 0
  pending : List Cmd := []
  reqs : List Request := []
  rowmap : List RowEntry := []
  /-- COPY commands in progress: command and bytes left (R363). -/
  copies : List (Cmd × Nat) := []
  pass : Pass := {}
  /-- Passes that began before that one and of which a request or a stage is left (R391, R407). -/
  older : List Pass := []
  /-- MoE layers whose COMBINE has completed in this pass, each with the drip of its layer boundary, and those whose boundary has
  been taken (R367, R369). -/
  combined : List (Nat × Drip) := []
  boundaries : List Nat := []
  /-- Commands accepted so far (R361). -/
  accepted : Nat := 0
  /-- Contexts torn down and not opened since, with the code each ended with here (R342). -/
  endCodes : List (Nat × Nat) := []
  deriving DecidableEq, Repr, Inhabited

/-- An error record (Table 19-5). -/
structure ErrRecord where
  r : Report
  early : Bool := false
  count : Nat := 1
  seq : Nat := 0
  firstDrip : Drip := 0
  lastDrip : Drip := 0
  deriving DecidableEq, Repr

/-- The error ring of a slice (R482 to R487), in its always-on domain. -/
structure Errors where
  ring : List (Nat × ErrRecord) := []
  head : Nat := 0
  tail : Nat := 0
  sel : Nat := 0
  first : Option ErrRecord := .none
  last : Option ErrRecord := .none
  overflow : Nat := 0
  reports : Nat := 0
  opened : List ErrRecord := []
  nextSeq : Nat := 0
  queued : List Report := []
  deriving DecidableEq, Repr, Inhabited

/-- The spares of a slice and the units they serve (Table 19-3). -/
structure Spares where
  /-- Per quad: logical array served by the spare, 7 none; and OUT. -/
  array : List Nat := List.replicate 8 7
  arrayOut : List Bool := List.replicate 8 false
  engine : Nat := 7
  engineOut : Bool := false
  adder : Nat := 0
  /-- Lanes served by SP0 and SP1: port and lane, if any. -/
  sp : List (Option (Nat × Nat)) := [.none, .none]
  linksOut : Nat := 0
  sumpOut : Bool := false
  /-- Per stack: pseudo-channel served by the spare, 127 none; OUT; spare rows in use. -/
  pch : List Nat := List.replicate 4 127
  pchOut : List Bool := List.replicate 4 false
  rows : List Nat := List.replicate 4 0
  rowsSpared : Nat := 0
  /-- Bit p: Pp is recorded as disabled by the operator or held out (Table 19-3). -/
  portsOut : Nat := 0
  /-- Unit-map changes that wait for a frame start, by logical unit, with the row of a spare row (R473). -/
  waiting : List (UnitRef × Option Nat) := []
  /-- Units that failed in service and are withdrawn, by logical name; kind 0 is the whole slice (R85, R472). -/
  failed : List UnitRef := []
  /-- The slice can route no more for the job, until it is reloaded (R85). -/
  routeless : Bool := false
  /-- Spare units that failed, by physical name. -/
  bad : List UnitRef := []
  /-- Consecutive margin readings beyond the threshold: unit, count, one not provisional (R471). -/
  margins : List (UnitRef × Nat × Bool) := []
  /-- Copies to a spare that are under way: stack, pseudo-channel, and the row of a spare row (R475). -/
  migrating : List (Nat × Nat × Option Nat) := []
  /-- Rows that a spare row serves, and pseudo-channels that are OUT: stack, pseudo-channel, row (R470, R472). -/
  retired : List (Nat × Nat × Nat) := []
  outPch : List (Nat × Nat) := []
  deriving DecidableEq, Repr, Inhabited

/-- Supplies, clocks and heat of a slice (chapter 21). -/
structure Power where
  vid : Nat := 10
  domains : Nat := 0
  aclkDiv : Nat := 8
  throttleSteps : Nat := 0
  temp : Int := 0
  /-- A sensor reading of the current window was at or above the throttle level (R522). -/
  tempHot : Bool := false
  /-- Watts of the slice in the last window (R521). -/
  watts : Nat := 0
  /-- In still-water mode, launches are withdrawn until release (R523). -/
  withheld : Bool := false
  heldInReset : Bool := false
  deriving DecidableEq, Repr, Inhabited

/-- The sump port of a slice (R503 to R508): link state, lanes, rate, device. -/
structure Sump where
  link : Nat := 0
  lanes : Nat := 0
  rate : Nat := 0
  capacity : Nat := 0
  serial : Nat := 0
  linkDowns : Nat := 0
  poison : Nat := 0
  /-- Another device was found after a loss: the slots stay ABSENT until the job is reloaded (R507). -/
  foreign : Bool := false
  /-- Tags of what a load wrote to the sump beside the tiles of sump images, whose tags stand behind them: sump offset and tag (R229,
  R377; DESIGN CHOICE, log 154). -/
  tags : List (Nat × Bytes) := []
  deriving DecidableEq, Repr, Inhabited

/-- A lifecycle function (R445 to R447): 0 OFF, 1 STARTING, 2 ON, 3 STOPPING. -/
structure Lifecycle where
  st : Nat := 0
  enable : Bool := false
  lastFail : Nat := 0
  deferred : Bool := false
  deriving DecidableEq, Repr, Inhabited

/-- One slice (R13, R16). -/
structure SliceState where
  /-- The slice passed its self-test (R3, R520). -/
  present : Bool := false
  mem : Memory := []
  /-- Poisoned 8-byte words, by offset (R204). -/
  poison : List Nat := []
  /-- Presence flags that are set, and those that were set at the last drip boundary (R32). -/
  flags : List Nat := []
  flagsAt : List Nat := []
  /-- Flags of stages that completed in this drip, which the next drip boundary clears (R534). -/
  toClear : List Nat := []
  runs : List Run := []
  engines : List Engine := List.replicate 4 {}
  routing : Routing := {}
  exch : Exchange := {}
  quads : List Quad := List.replicate 8 {}
  arr : ArrayCounters := {}
  tiers : Tiers := {}
  pools : Pools := {}
  ports : List Link := List.replicate 8 {}
  ilinks : List Link := List.replicate 8 {}
  fabric : Fabric := {}
  remote : Remote := {}
  coll : Coll := {}
  svc : Service := {}
  err : Errors := {}
  spares : Spares := {}
  power : Power := {}
  sump : Sump := {}
  /-- Lifecycle functions 4 to 6 of the slice (Table 17-7). -/
  life : List Lifecycle := List.replicate 3 { enable := true }
  deriving DecidableEq, Repr, Inhabited

/-- The time base (R24, R37 to R47). `state`: 0 FREE, 1 ACQUIRING, 2 LOCKED, 3 HOLDOVER, 4 GRANDMASTER. -/
structure Time where
  drip : Drip := 0
  dripBeats : Nat := 256
  origin : Nat := 0
  hasOrigin : Bool := false
  mismatch : Option Nat := .none
  now : Nat := 0
  state : Nat := 0
  offset : Int := 0
  delay : Int := 0
  parent : Nat := 0xFF
  gmNode : Nat := 0
  gmLocked : Bool := false
  hops : Nat := 0
  tiEnable : Bool := false
  tiSeconds : Nat := 0
  tiLocked : Bool := false
  /-- The grandmaster, this device or the one that it follows, has lost the TIME_IN that made it one and stays it (R47). -/
  held : Bool := false
  /-- Its own TIME_IN is locked too, and it follows a lower node as an ordinary device (R46). -/
  yielded : Bool := false
  /-- FREE was entered, and the next drip ends what crosses the device's edge (R44). -/
  freeDue : Bool := false
  errBound : Nat := 0
  good : Nat := 0
  stepped : Bool := false
  slewing : Int := 0
  stageMisses : Nat := 0
  collisions : Nat := 0
  deriving DecidableEq, Repr, Inhabited

/-- A context 0 to 254 that is not OFF, or an OFF one with work left (R354 to R357). `st`: code of Table 13-2. -/
structure Ctx where
  ctx : Nat
  st : Nat
  ring : Nat
  owner : Nat
  area : Nat
  partialSlot : Nat := 0
  /-- The command whose completion is owed at ON (CTX_OPEN) or at OFF (CTX_CLOSE), with its slice. -/
  opens : List (Nat × Cmd) := []
  closes : List (Nat × Cmd) := []
  /-- The drip in which a completion record of the context was last written (R356). -/
  wrote : Option Drip := .none
  deferred : List (Nat × Cmd) := []
  deriving DecidableEq, Repr

/-- A completion record before it is written (Table 13-4). -/
structure Completion where
  ring : Nat
  status : Status
  ctx : Nat
  slice : Nat
  sqz : Bool := false
  digest : Bytes := []
  part : Option Nat := .none
  tag : Nat
  ledgerIndex : Nat
  kind : Nat
  /-- Pending-queue slot of an admitted request. -/
  slot : Option Nat := .none
  reason : Nat := 0
  sqzLayer : Nat := 0
  endLayer : Nat := 0xFF
  acceptDrip : Drip := 0
  admitDrip : Drip := 0
  endDrip : Drip := 0
  rows : Nat := 0
  firstRow : Nat := 0
  /-- Partial record entries and the number missing (R366). -/
  partials : List Nat := []
  missing : Nat := 0
  deriving DecidableEq, Repr

/-- A completion ring (R364, R365, R491, R501). -/
structure Ring where
  base : Nat := 0
  entries : Nat := 16
  enable : Bool := false
  head : Nat := 0
  tail : Nat := 0
  phase : Bool := true
  held : List Completion := []
  vector : Nat := 0
  modCount : Nat := 1
  modTime : Nat := 0
  unsignalled : Nat := 0
  deriving DecidableEq, Repr, Inhabited

/-- A CRC record of the manifest (Table 14-3). -/
structure CrcRecord where
  id : Nat
  crc : Nat
  length : Nat
  elem : Nat := 0
  form : Nat := 0
  deriving DecidableEq, Repr

/-- A hot-set slot (R349): 0 EMPTY, 1 LOADING, 2 READY, 3 SERVING. -/
structure HotSlot where
  st : Nat := 0
  img : Option Image := .none
  /-- The manifest and the program digest of the slot's load. -/
  manifest : List CrcRecord := []
  program : Bytes := []
  deriving DecidableEq, Repr, Inhabited

/-- The model-load pipeline (chapter 14). `st`: code of Table 14-1. -/
structure Load where
  target : Nat := 4
  chain : Bytes := []
  source : Bytes := []
  st : Nat := 0
  status : Nat := 0
  token : Bytes := []
  upstreamTimeout : Nat := 100
  window : Nat := 67108864
  frameStart : Nat := 0
  items : Nat := 0
  nextSeq : Nat := 0
  retried : Bool := false
  img : Option Image := .none
  imageBytes : Bytes := []
  map : List (Nat × List (Nat × Nat)) := []
  manifest : List CrcRecord := []
  /-- IDs whose every byte has been written (R380). -/
  written : List Nat := []
  /-- A panel or table being received: ID, next part, PARTS, bytes so far (R380). -/
  open_ : Option (Nat × Nat × Nat × Bytes) := .none
  /-- Items forwarded and not acknowledged (R382), and items waiting to be forwarded. -/
  forwarded : List LoadItem := []
  toForward : List LoadItem := []
  ended : Bool := false
  hotLoading : Option Nat := .none
  /-- Items taken in this load, from which a FULL device serves a resume (R388). -/
  history : List LoadItem := []
  /-- Bytes of LOAD_SOURCE that the head has taken, and where each SEQ began (R381, R388). -/
  taken : Nat := 0
  offsets : List Nat := []
  /-- The downstream is lost, so nothing more is forwarded (R387). -/
  stopped : Bool := false
  /-- The update is a tile repair, and the epoch it carries otherwise (R389, R390). -/
  repair : Bool := false
  updateEpoch : Option Nat := .none
  deriving DecidableEq, Repr, Inhabited

/-- A sealed update: its epoch, its manifest and its map (R389). -/
structure SealedUpdate where
  epoch : Nat := 0
  manifest : List CrcRecord := []
  map : List (Nat × List (Nat × Nat)) := []
  deriving DecidableEq, Repr, Inhabited

/-- An epoch that passes may still pin: its number, digest and load map (R391, R393). -/
structure PinnedEpoch where
  epoch : Nat := 0
  digest : Bytes := []
  map : List (Nat × List (Nat × Nat)) := []
  deriving DecidableEq, Repr, Inhabited

/-- Weight epochs (R391 to R394). -/
structure Epochs where
  current : Nat := 0
  /-- Frame start from which passes pin it. -/
  since : Drip := 0
  digest : Bytes := []
  switch_ : Option (Nat × Drip) := .none
  switchReg : Nat := 0
  /-- Load map of the epoch in force, and the previous epoch until it retires (R389, R393). -/
  map : List (Nat × List (Nat × Nat)) := []
  previous : Option PinnedEpoch := .none
  /-- Manifest in force, and the sealed updates, each with its manifest and load map, that no switch has brought in yet. -/
  manifest : List CrcRecord := []
  sealed_ : List SealedUpdate := []
  /-- A WINDOW_CLOSE completed: new root due at the next frame start (R394). -/
  tuningRoot : Option Bytes := .none
  deriving DecidableEq, Repr, Inhabited

/-- Still-water setting and digests (chapter 15). -/
structure Still where
  on : Bool := false
  jobSeed : Word := 0
  programDigest : Bytes := []
  unitMapDigest : Bytes := []
  digestsWritten : Nat := 0
  disturbedPasses : Nat := 0
  deriving DecidableEq, Repr, Inhabited

/-- An entry of the event log (R423). -/
structure LogEntry where
  digest : Bytes
  mr : Nat
  drip : Drip
  deriving DecidableEq, Repr

/-- The security controller (chapter 16). -/
structure Security where
  /-- The PUF helper data in the on-package store (R412). -/
  helper : Bytes := Config.helperData
  identity : Nat := 0
  identityKey : Bytes := []
  trngFailing : Bool := false
  memoryKey : Bytes := []
  mr : List Bytes := List.replicate 8 (zeros 64)
  log : List LogEntry := []
  logCount : Nat := 0
  logLost : Nat := 0
  mrSel : Nat := 0
  logSel : Nat := 0
  quoteState : Nat := 0
  quoteBody : Bytes := []
  quote : Bytes := []
  quoteData : Bytes := []
  /-- QUOTE_NONCE and MR7_EXTEND as last written, which only SECURITY reads (Table 16-7). -/
  quoteNonce : Bytes := []
  mr7Value : Bytes := []
  linkEncrypt : Bool := false
  rekeyFrames : Nat := 68719476736
  bootCount : Nat := 0
  authFailures : Nat := 0
  deviceCert : Bytes := []
  caCert : Bytes := []
  /-- The two certificates as they stood at the last boot, which are the ones in effect (R428). -/
  deviceCertUsed : Bytes := []
  caCertUsed : Bytes := []
  revoked : Bytes := []
  /-- Ports whose FINISH waits to be signed, in order: slice, port (R417). -/
  signQueue : List (Nat × Nat) := []
  handoverSinceBoot : Bool := false
  deriving DecidableEq, Repr, Inhabited

/-- The records of a persisted entry in the on-package store (R434): entry, channel, write count, value. -/
structure StoreRecord where
  index : Nat
  sub : Nat
  channel : Nat
  count : Nat
  value : Bytes
  /-- The CRC-32C over the fields above. -/
  crc : Nat := 0
  /-- The value of the other record, which has the older count. -/
  older : Option Bytes := none
  deriving DecidableEq, Repr

/-- A persisted write in progress (R434): entry, channel, value, the door it answers and its SEQ. -/
structure PersistedWrite where
  index : Nat
  sub : Nat
  channel : Nat
  value : Bytes
  door : Door
  deriving DecidableEq, Repr

/-- A chunked write being staged (R449): door, entry, channel, next chunk, bytes. -/
structure Staging where
  door : Door
  index : Nat
  sub : Nat
  channel : Nat
  next : Nat
  data : Bytes
  deriving DecidableEq, Repr

/-- An access that a door has started: a read, write or INFO with the fields of its door, or a whole value for one entry (R449). -/
inductive DictOp where
  | read (d : Door) (index sub c k size : Nat)
  | write (d : Door) (index sub c k : Nat) (last : Bool) (size len : Nat) (b : Bytes)
  | info (d : Door) (index sub : Nat)
  | value (d : Door) (index sub c : Nat) (v : Bytes)
  deriving DecidableEq, Repr

/-- The object dictionary (chapter 17). -/
structure Dict where
  deviceState : Nat := 0
  ownerLock : Bool := false
  holdup : Bool := false
  storeWear : Nat := 0
  /-- Records in the store, the newest of each entry first. -/
  store : List StoreRecord := []
  /-- Writes the store has taken: records and firmware segments (R436). -/
  storeWrites : Nat := 0
  /-- Entries marked for their default at the next power-up (R435). -/
  restore : Bool := false
  writing : Option PersistedWrite := .none
  staging : List Staging := []
  /-- Accesses that wait for the handover of the management controller, in order (R463). -/
  queued : List DictOp := []
  /-- ENABLE records waiting to be written: function, channel, value (R446). -/
  enableRecords : List (Nat × Nat × Bool) := []
  credOperator : Bytes := []
  credOwner : Bytes := []
  credSecurity : Bytes := []
  addrMode : Nat := 1
  addr : Bytes := zeros 16
  prefix_ : Nat := 64
  gateway : Bytes := zeros 16
  udpPort : Nat := 30517
  idle : Nat := 60
  ctxSel : Nat := 0
  ringSel : Nat := 0
  hotSel : Nat := 0
  scrubInterval : Nat := 3600
  retrainInterval : Nat := 500
  legacyDrop : Bool := false
  unitMapChanges : Nat := 0
  telemPeriod : Nat := 100
  telem : List Bytes := []
  tripCount : Nat := 0
  /-- Lifecycle functions 0 to 3 (Table 17-7). -/
  life : List Lifecycle := [{ enable := true }, { enable := true }, { enable := true }, {}]
  /-- The BAR0 window (Tables 17-10 to 17-13). -/
  sel : Nat := 0x1000
  indexReg : Nat := 0
  busy : Bool := false
  overrun : Bool := false
  code : Nat := 0
  length : Nat := 0
  data : Bytes := []
  deriving DecidableEq, Repr, Inhabited

/-- A Uaric session (R452 to R455). -/
structure USession where
  num : Nat
  principal : Principal
  key : Bytes
  k : Bytes
  seq : Nat := 0
  result : Bytes := []
  deriving DecidableEq, Repr

/-- A handshake in progress (R453): number, principal, client key, th1, shared key. -/
structure UHandshake where
  num : Nat
  principal : Principal
  key : Bytes
  th1 : Bytes
  k : Bytes
  deriving DecidableEq, Repr

/-- The lantern port (R451 to R455). -/
structure Lantern where
  sessions : List USession := []
  handshakes : List UHandshake := []
  authFailures : Nat := 0
  /-- LANTERN_IDLE in effect: as it stood when the LANTERN function last started (Table 17-5). -/
  idle : Nat := 60
  /-- LANTERN_UDP_PORT in effect, likewise. -/
  port : Nat := 30517
  /-- LANTERN_ADDR_MODE and LANTERN_ADDR in effect, likewise. -/
  addrMode : Nat := 1
  addr : Bytes := zeros 16
  deriving DecidableEq, Repr, Inhabited

/-- Firmware (chapter 18). `rollout`: 0 IDLE, 1 RUNNING, 2 HELD, 3 REVERTING, 4 FAILED. -/
structure Firmware where
  slots : List Bytes := [[], []]
  valid : List Bool := [true, true]
  running : Nat := 0
  boot : Nat := 0
  counter : Nat := 0
  bootFails : Nat := 0
  stageOffset : Nat := 0
  stageState : Nat := 0
  stageReason : Nat := 0
  rollout : Nat := 0
  step : Nat := 0
  hold : Nat := 0
  settle : Nat := 1024
  procSel : Nat := 1
  target : Nat := 0
  /-- Slot each processor of steps 1 to 34 runs (R467). -/
  procs : List Nat := List.replicate 34 0
  lastH : Drip := 0
  startDrip : Drip := 0
  /-- A processor has switched and has not yet reported ready (R463). -/
  switching : Bool := false
  /-- The processor of a step that did not report ready, which is back on its old image at the next drip boundary, and whether that
  image runs (R466). -/
  returning : Option (Nat × Bool) := none
  collHold : Nat := 0
  committing : Bool := false
  /-- Per slot, the digests last recorded in MR0 to MR2 or MR5 for the images of steps 1 to 34 of its set (R519). -/
  measured : List (List Bytes) := [List.replicate 34 [], List.replicate 34 []]
  deriving DecidableEq, Repr, Inhabited

/-- Requests the host port has out or waits to issue (R497 to R499). `chan`: channel of Table 20-10. -/
inductive DmaJob where
  | inputRead (sl req addr len : Nat)
  | copyRead (sl cmd addr len dev : Nat)
  | loadRead (addr len : Nat)
  | outputWrite (sl req addr : Nat) (data : Bytes)
  | copyWrite (sl cmd addr : Nat) (data : Bytes)
  | recordWrite (addr : Nat) (data : Bytes)
  | message (vector : Nat)
  deriving DecidableEq, Repr

/-- The host port (chapter 20). -/
structure HostPort where
  linkUp : Bool := false
  width : Nat := 0
  speed : Nat := 0
  bme : Bool := false
  chanSel : Nat := 0
  evtVector : Nat := 63
  evtMask : Nat := 0
  evtCause : Nat := 0
  /-- BAR2_WIN_k: base, slice, enable. -/
  wins : List (Nat × Nat × Bool) := (List.range 8).map (fun k => (0, k, false))
  bar2Size : Nat := 36
  /-- MSI-X table entries of 16 bytes, pending bits, function mask and enable. -/
  msix : List Bytes := List.replicate 64 (zeros 12 ++ [1#8, 0#8, 0#8, 0#8])
  pendingBits : Nat := 0
  msixEnable : Bool := false
  msixMask : Bool := false
  mps : Nat := 128
  mrrs : Nat := 512
  rings : List Ring := (List.range 64).map (fun r => { vector := r })
  ring0Partial : Nat := 0
  ring0Slot : Nat := 0
  /-- DMA channels 0 to 17, requests waiting to issue, oldest first; the next channel to have a turn. -/
  chans : List (List DmaJob) := List.replicate 18 []
  turn : Nat := 0
  /-- Reads issued and unanswered, by tag. -/
  reads : List (Nat × DmaJob) := []
  hostResets : Nat := 0
  barAborts : Nat := 0
  dmaErrors : Nat := 0
  dropped : Nat := 0
  deriving DecidableEq, Repr, Inhabited

/-- Package pins, clocks and tables shared by the slices. -/
structure Package where
  pwrOk : Bool := false
  sysRst : Bool := true
  thermtrip : Bool := false
  pllLocked : Bool := false
  dividersRun : Bool := false
  /-- Package watts of the windows of the current 10 ms; the mean of the last 10 ms, and of the last window (R427, R521). -/
  windows : List Nat := []
  powerW : Nat := 0
  powerFine : Nat := 0
  /-- Last reading of each I3C target (R528). -/
  i3c : List (Nat × Nat) := []
  tap : TapInstr := .bypass
  nodeId : Nat := 0
  congestionMode : Nat := 0
  routeActive : Nat := 0
  routeSwitch : Option Drip := .none
  routeSwitchReg : Nat := 0
  drainEnd : Option Drip := .none
  routeDrain : Nat := 64
  tableA : Bytes := []
  tableB : Bytes := []
  e2e : Nat := 25
  retryLimit : Nat := 2
  markBytes : Nat := 32768
  winInit : Nat := 262144
  /-- WIN_INIT as it stood at job load, the first window of the job's flows (R283). -/
  winJob : Nat := 262144
  winMax : Nat := 1048576
  lossHold : Nat := 20
  fencePorts : Nat := 0
  fenceSlices : Nat := 0
  /-- CTRL LOST notices waiting for their effective drip: node, slices mask, drip (R288). -/
  notices : List (Nat × Nat × Drip) := []
  memberEpoch : Nat := 0
  /-- Epoch drips accepted and not yet reached, earliest first (R345). -/
  collEpochs : List Drip := []
  collEpochReg : Nat := 0
  reshapeArmed : Bool := false
  reshapeSlot : Nat := 0
  reshapeDrip : Nat := 0
  /-- The slot as it was armed: its image is the one that a reshape takes (R372, R374). -/
  reshapeHot : HotSlot := {}
  requestsDone : Nat := 0
  squeezeSwitches : Nat := 0
  deadlineEnds : Nat := 0
  deriving DecidableEq, Repr, Inhabited

/-- What the device sends out of the package and keeps no more: posted writes to host memory, answers to the host,
lantern datagrams, CXL requests, MSI-X messages and load items, newest last (DESIGN CHOICE, log 4). -/
inductive Emit where
  | hostWrite (addr : Nat) (data : Bytes)
  | hostRead (tag addr len : Nat)
  | msix (vector : Nat)
  | cpl (data : Bytes) (abort : Bool) (ep : Bool)
  | cfg (retry : Bool)
  | lantern (msg : Bytes)
  | frame (sl : Nat) (l : LinkId) (data : Bytes)
  | cxlRead (sl addr len : Nat)
  | cxlWrite (sl addr : Nat) (data : Bytes)
  | timeOut (pps : Bool)
  | token (node : Nat) (data : Bytes)
  | vid (sl code : Nat)
  /-- What the TAP shifts out under IDCODE (R529). -/
  | idcode (value : Nat)
  /-- Lookahead counts sent to the slice that holds the replicas (R82). -/
  | lookahead (sl : Nat) (dst : Place) (layer : Nat) (counts : List (SlotRef × Nat))
  deriving DecidableEq, Repr

/-- The state of the KN-800. -/
structure State where
  time : Time := {}
  job : Option Image := .none
  /-- First frame start of the loaded job, start of the current frame and of the next (R29). -/
  frame0 : Drip := 0
  frame : Drip := 0
  running : Bool := false
  slices : List SliceState := List.replicate 8 {}
  ctxs : List Ctx := []
  /-- Tear-downs owed: context and the drip t of R357. -/
  tears : List (Nat × Drip) := []
  hot : List HotSlot := List.replicate 4 {}
  load : Load := {}
  epochs : Epochs := {}
  still : Still := {}
  sec : Security := {}
  dict : Dict := {}
  lantern : Lantern := {}
  fw : Firmware := {}
  host : HostPort := {}
  pkg : Package := {}
  /-- Performance counters as they stood at the boundary that started the drip: entry key, channel and value (R426). -/
  perf : List (Nat × Nat × Nat) := []
  /-- Draws made from the TRNG, and free values used (log 2). -/
  draws : Nat := 0
  free : Nat := 0
  out : List Emit := []
  /-- Commands that wait, first in first out. -/
  pending : List Instr := []
  deriving DecidableEq, Repr, Inhabited

/-- The KN-800 as shipped, before PWR_OK rises: every entry at its default, no job, nothing waiting (R435, Tables 16-7 and
18-5). -/
def State.reset : State :=
  { sec := { deviceCert := Config.deviceCert, caCert := Config.caCert }
    fw := { slots := [Config.shippedSet 0, Config.shippedSet 1] } }

end Sys2Proof.Machine
end

