-- ==== Sys2Proof/Machine/Ops.lean ====
section
/-! DEFINITION. The named operations over the state that every family of commands shares: slices, memory, presence flags,
reports to the error rings, the ending of requests, contexts and the measurement registers. -/

namespace Sys2Proof.Machine

/-- What a command answers. -/
abbrev Out := Host.Outcome State Fault Refusal

/-! ### Slices -/

/-- The state of slice `i`. -/
def State.sl (s : State) (i : Nat) : SliceState := s.slices.getD i {}

/-- Change slice `i` alone. -/
def State.onSl (s : State) (i : Nat) (f : SliceState → SliceState) : State :=
  { s with slices := s.slices.modify i f }

/-- Change every slice. -/
def State.onAll (s : State) (f : SliceState → SliceState) : State := { s with slices := s.slices.map f }

/-- Fold over the slice numbers. -/
def State.eachSlice (s : State) (f : State → Nat → State) : State := (List.range 8).foldl f s

/-- The physical routing engine behind a logical one (R19). -/
def SliceState.physEngine (x : SliceState) (e : Nat) : Nat := if x.spares.engine = e then 4 else e

/-- Append to what the device sends out. -/
def State.emit (s : State) (e : Emit) : State := { s with out := s.out ++ [e] }

/-- The next free value: a value the manual leaves undefined (log 2). -/
def State.takeFree (s : State) : Word × State := (Config.freeWord s.free, { s with free := s.free + 1 })

/-- Draw `n` bytes from the TRNG (R414). -/
def State.drawTrng (s : State) (n : Nat) : Bytes × State :=
  ((List.range n).map fun i => Config.trngByte (s.draws + i), { s with draws := s.draws + n })

/-- The current drip. -/
def State.now (s : State) : Drip := s.time.drip

/-- The part of the loaded image that slice `i` runs. -/
def State.img (s : State) (i : Nat) : SliceImage :=
  match s.job with
  | some j => j.slices.getD i {}
  | none => {}

/-- This slice's place in the system. -/
def State.place (s : State) (i : Nat) : Place := { node := s.pkg.nodeId, slice := i }

/-! ### Memory of a slice (R205) -/

/-- The byte at an offset; an unlisted byte reads 0 (DESIGN CHOICE, log 1). -/
def Memory.read : Memory → Nat → Byte
  | [], _ => 0
  | (k, v) :: m, a => if a < k then 0 else if k = a then v else Memory.read m a

/-- Write one byte, keeping offsets rising and no entry 0. -/
def Memory.write : Memory → Nat → Byte → Memory
  | [], a, b => if b = 0 then [] else [(a, b)]
  | (k, v) :: m, a, b =>
    if a < k then (if b = 0 then (k, v) :: m else (a, b) :: (k, v) :: m)
    else if k = a then (if b = 0 then m else (a, b) :: m)
    else (k, v) :: Memory.write m a b

/-- Offsets rise strictly from above `lo`, and no entry is 0. -/
def Memory.wfFrom : Option Nat → Memory → Bool
  | _, [] => true
  | lo, (k, v) :: m => (match lo with | none => true | some l => decide (l < k)) && v != 0 && Memory.wfFrom (some k) m

/-- The canonical form of a slice's memory. -/
def Memory.wf (m : Memory) : Bool := Memory.wfFrom none m

/-- Write a byte string from an offset upward. -/
def Memory.writeBytes : Memory → Nat → Bytes → Memory
  | m, _, [] => m
  | m, a, b :: bs => Memory.writeBytes (Memory.write m a b) (a + 1) bs

/-- `n` bytes from an offset. -/
def Memory.readBytes (m : Memory) (a n : Nat) : Bytes := (List.range n).map fun i => Memory.read m (a + i)

/-- Write bytes into a slice; a poisoned 8-byte word that is wholly written is poisoned no more (R204). -/
def SliceState.store (x : SliceState) (a : Nat) (b : Bytes) : SliceState :=
  { x with
    mem := x.mem.writeBytes a b
    poison := x.poison.filter fun w => !(decide (a ≤ w) && decide (w + 8 ≤ a + b.length)) }

/-- Read bytes of a slice. -/
def SliceState.load (x : SliceState) (a n : Nat) : Bytes := x.mem.readBytes a n

/-- Read a little-endian number of a slice. -/
def SliceState.loadNat (x : SliceState) (a n : Nat) : Nat := leNat (x.load a n)

/-- Whether a range of HBM has a granule in a pseudo-channel: granules of 256 bytes rotate over the stacks and then the
pseudo-channels (R207). -/
def inPch (a n stack pc : Nat) : Bool :=
  n != 0 && decide (a < 0x4000000000) &&
  decide ((stack + 4 * pc + 256 - a / 256 % 256) % 256 ≤ (a + n - 1) / 256 - a / 256)

/-- Whether a range of a slice holds a poisoned word, or a granule of a pseudo-channel that is OUT (R204, R472). -/
def SliceState.poisoned (x : SliceState) (a n : Nat) : Bool :=
  (x.poison.any fun w => decide (w < a + n) && decide (a < w + 8)) || x.spares.outPch.any fun o => inPch a n o.1 o.2

/-- Poison the 8-byte words of a range (R204). -/
def SliceState.poisonRange (x : SliceState) (a n : Nat) : SliceState :=
  let ws := (List.range (ceilDiv (a % 8 + n) 8)).map fun i => a / 8 * 8 + 8 * i
  { x with poison := x.poison ++ ws.filter fun w => !x.poison.contains w }

/-! ### Offsets (R205) -/

def stagingBase : Nat := 0x7F00000000
def chamberBase : Nat := 0x7F10000000
def routingBase : Nat := 0x7F20000000
def sumpBase : Nat := 0x8000000000

/-- The slice offset of a byte of engine `e`'s routing SRAM (R94). -/
def engineAddr (e a : Nat) : Nat := routingBase + e * 0x1000000 + a

/-- The slice offset of a byte of quad `q`'s chamber store. -/
def chamberAddr (q a : Nat) : Nat := chamberBase + q * 0x2000000 + a

/-! ### Presence flags (R32, R534) -/

/-- Threads and quads that wait for a flag go on (R101, R172). -/
def SliceState.wakeOn (x : SliceState) (f : Nat) : SliceState :=
  { x with
    engines := x.engines.map fun g => { g with threads := g.threads.map fun t => if t.st = .waitFlag f then { t with st := .ready } else t }
    quads := x.quads.map fun q => if q.st = .waitFlag f then { q with st := .running } else q }

/-- Set a flag; a flag already set stays set. -/
def SliceState.setFlag (x : SliceState) (f : Nat) : SliceState :=
  if x.flags.contains f then x else { x.wakeOn f with flags := x.flags ++ [f] }

/-- Clear a flag. -/
def SliceState.clearFlag (x : SliceState) (f : Nat) : SliceState :=
  { x with flags := x.flags.filter (· != f), flagsAt := x.flagsAt.filter (· != f) }

/-- Set the flag of an output, if it names one. -/
def SliceState.setFlag? (x : SliceState) : Option Nat → SliceState
  | some f => x.setFlag f
  | none => x

/-! ### Reports to the error rings (R483, R484) -/

/-- Package units report to the ring of slice 0 (R482, R509). -/
def reportHome (r : Report) (sl : Nat) : Nat :=
  if r.unit.kind = 11 || r.unit.kind = 12 || r.unit.kind = 13 || r.unit.kind = 14 then 0 else sl

/-- A unit makes a report: it holds up to four, and a fifth is dropped and counted (R484). -/
def Errors.queue (e : Errors) (r : Report) : Errors :=
  if (e.queued.filter fun x => x.unit == r.unit).length < 4 then { e with queued := e.queued ++ [r] }
  else { e with overflow := min (e.overflow + 1) 0xFFFFFFFF }

/-- Report to the error ring of slice `sl` (R482, R484). -/
def State.report (s : State) (sl : Nat) (r : Report) : State :=
  s.onSl (reportHome r sl) fun x => { x with err := x.err.queue r }

/-- A report of a slice's own unit. -/
def mkReport (cls kind index : Nat) (status : Nat := 0) (ctx : Nat := 255) (detail : List Nat := []) : Report :=
  { cls := cls, unit := { kind := kind, index := index }, status := status, ctx := ctx, detail := detail }

/-! ### The row map (R351) and the ending of requests (R12, R353) -/

/-- Table 13-1. -/
def RowEntry.word (r : RowEntry) : Nat :=
  field (b2n r.valid) 1 0 + field r.ctx 8 1 + field (b2n r.sqz) 1 9 + field r.req 12 10 + field r.pos 10 22

/-- Put a row map in force and write it to the staging store at ROWMAP_BASE (R351). -/
def SliceState.setRowmap (x : SliceState) (m : List RowEntry) : SliceState :=
  { x.store x.svc.rowmapBase ((m.map fun r => leBytes 8 r.word).flatten) with svc := { x.svc with rowmap := m } }

/-- Change the requests of a slice. -/
def SliceState.onReqs (x : SliceState) (f : Request → Request) : SliceState :=
  { x with svc := { x.svc with reqs := x.svc.reqs.map f } }

/-- The pass whose frame starts at a drip (R350). -/
def Service.passOf (v : Service) (fr : Drip) : Pass :=
  if v.pass.frame == fr then v.pass else (v.older.find? fun p => p.frame == fr).getD {}

/-- Change the pass whose frame starts at a drip. -/
def Service.onPass (v : Service) (fr : Drip) (f : Pass → Pass) : Service :=
  if v.pass.frame == fr then { v with pass := f v.pass }
  else { v with older := v.older.map fun p => if p.frame == fr then f p else p }

/-- A request whose first ending status has been given by drip `d` has ended; its rows are not valid, and a pass
that loses a row before its last SELECT is disturbed (R353, R403). -/
def SliceState.settleRows (x : SliceState) (d : Drip) : SliceState :=
  let due (r : Request) := !r.ended && r.conds.any fun c => Drip.notLater c.given d
  let gone := (x.svc.reqs.filter due).map (·.slot)
  if gone = [] then x
  else
    let lost := x.svc.rowmap.any fun r => r.valid && gone.contains r.req
    let y := (x.onReqs fun r => if due r then { r with ended := true } else r).setRowmap
      (x.svc.rowmap.map fun r => if r.valid && gone.contains r.req then { r with valid := false } else r)
    { y with svc := { y.svc with pass := { y.svc.pass with disturbed := y.svc.pass.disturbed || (lost && !y.svc.pass.selectsDone) } } }

/-- Give a status to every request of a slice that a predicate picks (R12). -/
def State.endReqs (s : State) (sl : Nat) (p : Request → Bool) (found given : Drip) (st : Status)
    (layer : Nat := 0xFF) : State :=
  s.onSl sl fun x =>
    (x.onReqs fun r => if p r then { r with conds := r.conds ++ [⟨found, given, st, layer⟩] } else r).settleRows s.now

/-- A condition that ends a request at the next drip (R12). -/
def State.endNext (s : State) (sl : Nat) (p : Request → Bool) (st : Status) (layer : Nat := 0xFF) : State :=
  s.endReqs sl p s.now (s.now.plus 1) st layer

/-- The requests of a context. One whose status has been given stays until its drip ends, and what arises in that drip still
takes part (R12). -/
def Request.isCtx (c : Nat) (r : Request) : Bool := r.cmd.ctx == c

/-- End the requests of a context with a status at the next drip on every slice. -/
def State.endCtxNext (s : State) (c : Nat) (st : Status) : State :=
  s.eachSlice fun t i => t.endNext i (Request.isCtx c) st

/-- The requests admitted in the pass of a frame, and those of them that have not ended. -/
def Request.inFrame (f : Drip) (r : Request) : Bool := r.frame == f
def Request.liveIn (f : Drip) (r : Request) : Bool := r.inFrame f && !r.ended

/-- Kinds whose row of Table 02-4 carries no status: tied to no request (R36). -/
def tiesNone : StageKind → Bool
  | .rangePrefetch | .view | .passDigest | .windowOpen | .windowClose | .handoff => true
  | _ => false

/-- Whether SELECT of a layer has launched in the pass of a frame, so that the slice's choices of the layer are that pass's. -/
def SliceState.snapOf (x : SliceState) (l : Nat) (f : Drip) : Bool := x.routing.snaps.any fun k => k.layer == l && k.frame == f

/-- What SELECT of a layer found when it last launched. -/
def SliceState.snap? (x : SliceState) (l : Nat) : Option LayerSnap := x.routing.snaps.find? fun k => k.layer == l

/-- Rows valid for a layer: their row map entry named a live context at the launch drip of SELECT (R54). -/
def SliceState.rowValid (x : SliceState) (l t : Nat) : Bool :=
  match x.snap? l with
  | some k => (k.rows.getD t {}).valid
  | none => (x.svc.rowmap.getD t {}).valid

/-- The row map entry of a row as SELECT of a layer found it. -/
def SliceState.rowAt (x : SliceState) (l t : Nat) : RowEntry :=
  match x.snap? l with
  | some k => k.rows.getD t {}
  | none => x.svc.rowmap.getD t {}

/-- A request of a slice holds a row valid for a layer that a predicate picks. -/
def SliceState.hasRow (x : SliceState) (l : Nat) (p : Nat → Bool) (r : Request) : Bool :=
  (List.range r.rows).any fun k => p (r.firstRow + k) && x.rowValid l (r.firstRow + k)

/-- A request of a slice has a choice of a layer, not dropped, that a predicate picks. -/
def SliceState.hasChoice (x : SliceState) (l : Nat) (p : Choice → Bool) (r : Request) : Bool :=
  x.routing.choices.any fun c =>
    c.layer == l && decide (r.firstRow ≤ c.row) && decide (c.row < r.firstRow + r.rows) && c.kept != some none && p c

/-- The PACK phases of a frame that own the injection of a stage (R100) have all completed, so that what it carries is queued or
gone. -/
def SliceState.packed (x : SliceState) (u : Run) : Bool :=
  let owners := x.runs.filter fun v => v.frame == u.frame && v.entry.f.role == .packOut &&
    (v.entry.f.injection == u.entry.f.injection || v.entry.f.owns.contains u.entry.f.injection)
  !owners.isEmpty && owners.all fun v => v.st == .completed

/-- Whether an injection stage carries the dispatch blocks of a layer for a slice (R36, R100): those that SEND has queued under its
number, and, until the PACK phases that own it have completed, those that lie the way of its port or link and that SEND has queued
under no other number (DEDUCED, log 119). -/
def SliceState.carries (x : SliceState) (me : Place) (u : Run) (l : Nat) (p : Place) : Bool :=
  let sent := x.exch.sent.filter fun b => b.frame == u.frame && b.kind == 4 && b.layer == l && b.dst == p
  (sent.any fun b => b.injection == u.entry.f.injection) ||
  (sent.isEmpty && some l == u.entry.f.layer && !x.packed u &&
    (match u.entry.unit with
     | .link k => p.node == me.node && p.slice == k.val
     | _ => p.node != me.node))

/-- An injection stage carries the records of SELECT or GRANT of a layer (R73, R74). -/
def SliceState.carriesRecords (x : SliceState) (u : Run) (l : Nat) : Bool :=
  x.runs.any fun v => v.frame == u.frame && (v.entry.f.role == .select || v.entry.f.role == .grant) && v.entry.f.layer == some l &&
    v.entry.f.injection == u.entry.f.injection

/-- A request has a choice of a layer whose dispatch block an injection stage carries. -/
def SliceState.carriesFor (x : SliceState) (me : Place) (u : Run) (p : Choice → Bool) (r : Request) : Bool :=
  ((x.routing.snaps.filter fun k => k.frame == u.frame).map (·.layer)).any fun l =>
    x.hasChoice l (fun c => p c && x.carries me u l { node := c.node, slice := c.slice }) r

/-- Whether a stage of no context handles rows or data of a request of its slice (R36). A lookahead stage handles none's (R83);
one of no layer handles every request's, and so may one of a layer before SELECT has launched in its pass. After it, an injection
carries the rows whose dispatch blocks SEND gives it, and the records of SELECT and GRANT every valid row's; a receive
of returns takes the rows sent out, one of blocks those of this home placed in the slots it serves, one of records every valid
row's; a phase of one engine's home rows handles those, and any other stage every valid row (DEDUCED, log 119). -/
def SliceState.handles (x : SliceState) (me : Place) (u : Run) (r : Request) : Bool :=
  match u.entry.f.layer with
  | none => true
  | some l =>
    if u.entry.f.role == .lookahead then false
    else if !x.snapOf l u.frame then true
    else
      let home (e : Nat) (t : Nat) : Bool := t / 16 % 4 == e
      match u.entry.kind with
      | .inject =>
        (x.carriesRecords u l && x.hasRow l (fun _ => true) r) || x.carriesFor me u (fun _ => true) r
      | .receive =>
        if u.entry.f.isReturn then x.hasChoice l (fun _ => true) r
        else if u.entry.f.slots.isEmpty then x.hasRow l (fun _ => true) r
        else x.hasChoice l (fun c => c.node == me.node && c.slice == me.slice &&
          u.entry.f.slots.contains { quad := c.quad, slot := c.slot }) r
      | .route | .combine =>
        match u.entry.f.role, u.entry.unit with
        | .score, _ | .grant, _ => x.hasRow l (fun _ => true) r
        | .packOut, _ => x.hasChoice l (fun _ => true) r
        | .packBack, _ => x.hasChoice l (fun c => c.node == me.node && c.slice == me.slice) r
        | _, .engine e => x.hasRow l (home e.val) r
        | _, _ => x.hasRow l (fun _ => true) r
      | _ => x.hasRow l (fun _ => true) r

/-- Whether a stage is tied to a request of its own slice (R36). A stage that names a context is tied to that context's
request of the pass; any other to the requests of the pass at its slice whose rows or data it handles: an OUTPUT stage to those
of its schedule (R353, R370), a prefetch or a return injection to none. -/
def SliceState.ties (x : SliceState) (me : Place) (u : Run) (r : Request) : Bool :=
  if tiesNone u.entry.kind then false
  else if u.entry.ctx < 255 then r.cmd.ctx == u.entry.ctx && r.inFrame u.frame
  else r.inFrame u.frame && match u.entry.kind with
    | .prefetch => false
    | .inject => !u.entry.f.isReturn && x.handles me u r
    | .outputMain => !r.sqz
    | .outputSqz => r.sqz
    | _ => x.handles me u r

/-- Whether a stage of a slice is tied to a request of slice `i`. -/
def State.ties (s : State) (i : Nat) (u : Run) (r : Request) : Bool := (s.sl i).ties { node := s.pkg.nodeId, slice := i } u r

/-- End the requests tied to a stage, found at `found` and given at `given`. A stage of a context ties to that context's
request wherever it is admitted (R36). -/
def State.endTied (s : State) (sl : Nat) (u : Run) (found given : Drip) (st : Status) : State :=
  if u.entry.ctx < 255 then s.eachSlice fun t i => t.endReqs i (s.ties i u) found given st (u.entry.f.layer.getD 0xFF)
  else s.endReqs sl (s.ties sl u) found given st (u.entry.f.layer.getD 0xFF)

/-- Whether any request is tied to a stage. -/
def State.tied (s : State) (sl : Nat) (u : Run) : Bool :=
  if u.entry.ctx < 255 then (List.range 8).any fun i => (s.sl i).svc.reqs.any (s.ties i u)
  else (s.sl sl).svc.reqs.any (s.ties sl u)

/-- Change the run of a stage that `p` picks, the first one. -/
def modifyFirst {α : Type} (p : α → Bool) (f : α → α) : List α → List α
  | [] => []
  | x :: xs => if p x then f x :: xs else x :: modifyFirst p f xs

/-- Change the runs of a slice. -/
def SliceState.onRuns (x : SliceState) (f : Run → Run) : SliceState := { x with runs := x.runs.map f }

/-! ### Contexts (R354, R364) -/

/-- The context record of `c`. -/
def State.ctx? (s : State) (c : Nat) : Option Ctx := s.ctxs.find? fun x => x.ctx == c

/-- The state of a context: 255 is ON while a job is loaded (R354). -/
def State.ctxState (s : State) (c : Nat) : Nat :=
  if c = 255 then (if s.job.isSome then 2 else 0)
  else match s.ctx? c with
    | some x => x.st
    | none => 0

/-- Change a context's record. -/
def State.onCtx (s : State) (c : Nat) (f : Ctx → Ctx) : State :=
  { s with ctxs := s.ctxs.map fun x => if x.ctx == c then f x else x }

/-- The ring of a context's completions: its binding, else ring 0 (R364). -/
def State.ctxRing (s : State) (c : Nat) : Nat :=
  match s.ctx? c with
  | some x => if x.st = 0 then 0 else x.ring
  | none => 0

/-- The pool owner of a context. -/
def State.ctxOwner (s : State) (c : Nat) : Nat :=
  match s.ctx? c with
  | some x => x.owner
  | none => 0

/-! ### MSI-X and device events (R501, Table 20-8) -/

/-- Queue a job on a host DMA channel (Table 20-10). -/
def State.pushChan (s : State) (ch : Nat) (j : DmaJob) : State :=
  { s with host := { s.host with chans := s.host.chans.modify ch (· ++ [j]) } }

/-- Whether a vector is masked: by the function mask or its own vector control. -/
def HostPort.masked (h : HostPort) (v : Nat) : Bool :=
  h.msixMask || ((h.msix.getD v []).getD 12 0).toNat.testBit 0

/-- A vector sends a message, or sets its pending bit while masked (R501). -/
def State.msix (s : State) (v : Nat) : State :=
  if !s.host.msixEnable then s
  else if s.host.masked v then { s with host := { s.host with pendingBits := s.host.pendingBits ||| 2 ^ v } }
  else s.pushChan 17 (.message v)

/-- EVT_CAUSE and not MASK. -/
def HostPort.evt (h : HostPort) : Nat := h.evtCause &&& (h.evtMask ^^^ 0xFF)

/-- Set a cause bit; the event vector sends a message when the unmasked causes change from 0 (R501). -/
def State.cause (s : State) (b : Nat) : State :=
  let t := { s with host := { s.host with evtCause := s.host.evtCause ||| 2 ^ b } }
  if s.host.evt = 0 && t.host.evt != 0 then t.msix s.host.evtVector else t

/-! ### Completions (R364, R365) -/

/-- Change a completion ring. -/
def State.onRing (s : State) (r : Nat) (f : Ring → Ring) : State :=
  { s with host := { s.host with rings := s.host.rings.modify r f } }

/-- RING_HEAD takes the index of the next record that the host will read. An index beyond an enabled ring is a breach that an error record
notes; it stands modulo RING_ENTRIES, and no request is affected by it alone (R4, R365; DESIGN CHOICE, log 149). -/
def State.setRingHead (s : State) (ring v : Nat) : State :=
  let r := s.host.rings.getD ring {}
  let t := s.onRing ring fun r => { r with head := v % 65536 }
  if r.enable && decide (r.entries ≤ v % 65536) then t.report 0 (mkReport 0x18 14 0) else t

/-- Place a completion among those a ring holds: records that end in one drip in ascending order of slice and ledger
index (R365). -/
def holdIn : Completion → List Completion → List Completion
  | c, [] => [c]
  | c, d :: ds =>
    if c.endDrip = d.endDrip && (c.slice < d.slice || (c.slice = d.slice && c.ledgerIndex < d.ledgerIndex))
    then c :: d :: ds else d :: holdIn c ds

/-- A ring that is enabled and not full (R364, R365). -/
def Ring.takes (r : Ring) : Bool := r.enable && (r.tail + 1) % max 1 r.entries != r.head % max 1 r.entries

/-- Whether a ring can take a record now: enabled, not full, and the port may issue requests (R364, R365, R500). -/
def State.ringOpen (s : State) (r : Ring) : Bool := r.takes && s.host.linkUp && s.host.bme

/-- The records for which a ring has space: none where it is not enabled (R364, R365). -/
def Ring.room (r : Ring) : Nat :=
  let n := max 1 r.entries
  if r.enable then (r.head % n + n - 1 - r.tail % n) % n else 0

/-- The completions that a ring holds for want of space: those owed beyond its room (R365). -/
def Ring.over (r : Ring) : Nat := r.held.length - r.room

/-- The completions that the KN-800 holds for a ring: all that are owed while the port can issue nothing (R365, R500). -/
def State.ringHeld (s : State) (r : Ring) : Nat := if s.host.linkUp && s.host.bme then r.over else r.held.length

/-- Owe a completion record to its ring, which waits for COMPLETION_WRITE. A ring that has no space for it begins to hold with it; a
record beyond the 4,096 that it holds is dropped, counted and recorded (R365, R500, Table 20-8). -/
def State.complete (s : State) (c : Completion) : State :=
  let r := s.host.rings.getD c.ring {}
  let t := s.onRing c.ring fun r => { r with held := holdIn c r.held }
  if 4096 < t.ringHeld (t.host.rings.getD c.ring {}) then
    ({ s with host := { s.host with dropped := s.host.dropped + 1 } }).report 0 (mkReport 0x18 14 0 c.status.code c.ctx)
  else if r.over = 0 ∧ (t.host.rings.getD c.ring {}).over ≠ 0 then t.cause 3
  else t

/-- The completion of a command other than an admitted SUBMIT. -/
def State.completeCmd (s : State) (sl : Nat) (c : Cmd) (st : Status) (reason : Nat) (ring : Option Nat := none) : State :=
  s.complete
    { ring := ring.getD (s.ctxRing c.ctx), status := st, ctx := c.ctx, slice := sl, tag := c.tag,
      ledgerIndex := c.ledgerIndex, kind := c.kind, reason := reason, acceptDrip := c.acceptDrip, endDrip := s.now }

/-! ### Measurement registers (R422, R423) -/

/-- Extend register `n` with a 64-byte event digest. The event log holds 4,096 entries; a full log keeps its entries, and
LOG_LOST counts what is not logged (R422, R423). -/
def State.extendMR (s : State) (n : Nat) (d : Bytes) : State :=
  let full := decide (4096 ≤ s.sec.log.length)
  { s with sec := { s.sec with
      mr := s.sec.mr.set n (digest64 (0x20#8 :: (s.sec.mr.getD n (zeros 64) ++ d)))
      log := if full then s.sec.log else s.sec.log ++ [{ digest := d, mr := n, drip := s.now }]
      logCount := s.sec.logCount + 1
      logLost := s.sec.logLost + b2n full } }

/-! ### Residency (Table 08-6) -/

/-- The entry of a slot. -/
def Tiers.entry? (t : Tiers) (layer : Nat) (x : SlotRef) : Option ResEntry :=
  t.res.find? fun e => e.layer == layer && e.quad == x.quad && e.slot == x.slot

end Sys2Proof.Machine
end

