-- ==== Sys2Proof/Machine/Links.lean ====
section
/-! DEFINITION. Operations over links and packets that several families share: the link table (Table 10-1), the packet
header (Table 10-6), egress queues, and the choice of grandmaster and parent (R39, R43, R44). -/

namespace Sys2Proof.Machine

/-! ### Links -/

def linkDown : Nat := 0
def linkTrain : Nat := 1
def linkAuth : Nat := 2
def linkUp : Nat := 3
def linkDisabled : Nat := 4

/-- The link of a slice. -/
def SliceState.link (x : SliceState) : LinkId → Link
  | .port p => x.ports.getD p {}
  | .link k => x.ilinks.getD k {}

/-- Change a link of a slice. -/
def SliceState.onLink (x : SliceState) (l : LinkId) (f : Link → Link) : SliceState :=
  match l with
  | .port p => { x with ports := x.ports.modify p f }
  | .link k => { x with ilinks := x.ilinks.modify k f }

/-- Change a link of slice `sl`. -/
def State.onLink (s : State) (sl : Nat) (l : LinkId) (f : Link → Link) : State := s.onSl sl fun x => x.onLink l f

def State.link (s : State) (sl : Nat) (l : LinkId) : Link := (s.sl sl).link l

/-- The unit of a link in error records (Table 19-7). -/
def LinkId.unit : LinkId → UnitRef
  | .port p => { kind := 7, index := 8 * p.val + 7 }
  | .link k => { kind := 8, index := k.val }

/-! ### Packets (R265 to R267) -/

def opREAD : Nat := 0x10
def opWRITE : Nat := 0x11
def opREDUCE : Nat := 0x12
def opFADD : Nat := 0x13
def opCAS : Nat := 0x14
def opMCAST : Nat := 0x15
def opTIME : Nat := 0x18
def opCTRL : Nat := 0x19
def opDATA : Nat := 0x20
def opACK : Nat := 0x21
def opNACK : Nat := 0x22
def opRESULT : Nat := 0x23

/-- Whether an opcode is one of Table 10-5. -/
def opKnown (o : Nat) : Bool :=
  o == 0x10 || o == 0x11 || o == 0x12 || o == 0x13 || o == 0x14 || o == 0x15 || o == 0x18 || o == 0x19 ||
  o == 0x20 || o == 0x21 || o == 0x22 || o == 0x23

/-- The network of an opcode. -/
def netOf (o : Nat) : Net := if o < 0x20 then .req else .rsp

/-- The 32-byte header (Table 10-6), with a value for the fields that ECRC takes as 0. -/
def headerNat (p : Packet) (mark : Bool) (ttl ecrc : Nat) : Nat :=
  field p.opcode 8 0 + field (b2n p.fence) 1 8 + field (b2n mark) 1 9 + field (b2n p.echo) 1 10 +
  field p.epoch 1 11 + field (b2n p.trusted) 1 12 + field (b2n p.first) 1 13 + field (b2n p.last) 1 14 +
  field (b2n p.retx) 1 15 + field p.job 16 16 + field p.ctx 8 32 + field p.srcSlice 3 40 + field p.srcNode 20 44 +
  field p.dstOffset 41 64 + field p.dstSlice 3 105 + field p.dstNode 20 108 + field p.plen 13 128 +
  field p.opmod 3 141 + field p.msgId 16 144 + field p.flowSeq 16 160 + field p.mgroup 10 176 +
  field (b2n p.sched) 1 186 + field ttl 5 187 + field p.reqId 32 192 + field ecrc 32 224

/-- ECRC of a packet (R266). -/
def packetEcrc (p : Packet) : Nat := crc32c (leBytes 32 (headerNat p false 0 0) ++ p.payload)

/-- A packet in the stream: header, payload, zero bytes to a multiple of 8 (R267). -/
def packetBytes (p : Packet) : Bytes := padTo 8 (leBytes 32 (headerNat p p.mark p.ttl p.ecrc) ++ p.payload)

/-- A header read from the stream; its payload follows. -/
def headerOf (h : Nat) (payload : Bytes) : Packet :=
  { opcode := bits h 7 0, fence := bit h 8, mark := bit h 9, echo := bit h 10, epoch := bits h 11 11,
    trusted := bit h 12, first := bit h 13, last := bit h 14, retx := bit h 15, job := bits h 31 16,
    ctx := bits h 39 32, srcSlice := bits h 42 40, srcNode := bits h 63 44, dstOffset := bits h 104 64,
    dstSlice := bits h 107 105, dstNode := bits h 127 108, plen := bits h 140 128, opmod := bits h 143 141,
    msgId := bits h 159 144, flowSeq := bits h 175 160, mgroup := bits h 185 176, sched := bit h 186,
    ttl := bits h 191 187, reqId := bits h 223 192, ecrc := bits h 255 224, payload := payload }

/-- Credits of a packet (R263). -/
def packetCredits (p : Packet) : Nat := ceilDiv (32 + p.payload.length) 32

def Packet.src (p : Packet) : Place := { node := p.srcNode, slice := p.srcSlice }
def Packet.dst (p : Packet) : Place := { node := p.dstNode, slice := p.dstSlice }

/-- Bytes queued for an egress and network of a slice: every packet that waits for it (R282). -/
def Link.queuedBytes (l : Link) (n : Net) : Nat :=
  let q : List Queued := match n with | .req => l.egressReq | .rsp => l.egressRsp
  (q.map fun x => 32 + x.pkt.payload.length).sum

/-- Queue a packet that came from a claimant of Table 02-6 for an egress; MARK is set when MARK_BYTES are already queued (R282).
TIME and CTRL are not marked apart. A packet that came over a link stays in its ingress buffer (R263). -/
def State.enqueue (s : State) (sl : Nat) (l : LinkId) (a : Arrival) (p : Packet) (route : Option Nat) : State :=
  s.onLink sl l fun k =>
    let m := p.mark || decide (s.pkg.markBytes ≤ k.queuedBytes (netOf p.opcode))
    let q : Queued := { pkt := { p with mark := m }, route := route, origin := a, hold := if a = .own then none else some (s.sl sl).fabric.nextHold }
    match netOf p.opcode with
    | .req => { k with egressReq := k.egressReq ++ [q] }
    | .rsp => { k with egressRsp := k.egressRsp ++ [q] }

/-- Set the ECRC of a packet that this slice sends. -/
def sealPacket (p : Packet) : Packet := { p with ecrc := packetEcrc p }

/-! ### Time: state changes, origin and parent (R39 to R46) -/

/-- A beat in TIME64 units of 1/256 ns. -/
def beatUnits : Nat := 1024

/-- The drip that holds a system time (R24). -/
def dripAt (t : Time) : Drip :=
  BitVec.ofInt 48 (((t.now : Int) - t.origin) / ((t.dripBeats * beatUnits : Nat) : Int))

/-- Change TIME_STATE; a change sets EVT_CAUSE.TIME, and leaving LOCKED for ACQUIRING is recorded (R41, Table 20-8). The record
of the clocks carries no item: its rule names none (R483, log 121). -/
def State.setTimeState (s : State) (st : Nat) : State :=
  if s.time.state = st then s
  else
    let t := { s with time := { s.time with state := st, good := 0, stepped := false } }
    let u := if s.time.state = 2 && st = 1 then t.report 0 (mkReport 0x03 13 0) else t
    u.cause 5

/-- Put a DRIP_ORIGIN in force and count drips from it (R24, R43). -/
def State.setOrigin (s : State) (o : Nat) : State :=
  let t := { s.time with origin := o, hasOrigin := true, mismatch := .none }
  { s with time := { t with drip := dripAt t } }

/-- The TIME packets that up external ports carry, in port-number order (R252). -/
def State.timePorts (s : State) : List (Nat × TimePkt) :=
  ((List.range 64).map fun n =>
    let l := s.link (n / 8) (.port (Fin.ofNat 8 n))
    match l.timePkt with
    | some k => if l.st = linkUp then [(n, k)] else []
    | none => []).flatten

/-- Whether a claim (locked, node) outranks another: a locked TIME_IN first, then the lower node number (R39, R46). -/
def claimBetter (a b : Bool × Nat) : Bool := (a.1 && !b.1) || (a.1 == b.1 && decide (a.2 < b.2))

/-- The best grandmaster claim among the ports that carry time, a device's own name apart. -/
def State.bestClaim (s : State) : Option (Bool × Nat) :=
  (s.timePorts.filter fun x => x.2.gmNode != s.pkg.nodeId).foldl
    (fun b x =>
      let c := (x.2.gmLocked, x.2.gmNode)
      match b with
      | none => some c
      | some d => if claimBetter c d then some c else some d) none

/-- The port with the fewest hops to a grandmaster, the lowest number among equals (R39). -/
def State.parentFor (s : State) (gm : Nat) : Option (Nat × TimePkt) :=
  (s.timePorts.filter fun x => x.2.gmNode == gm).foldl
    (fun b x =>
      match b with
      | none => some x
      | some y => if x.2.hops < y.2.hops then some x else some y) none

/-- Become grandmaster: a device keeps the DRIP_ORIGIN it holds, and one that holds none sets one (R43). -/
def State.becomeGrandmaster (s : State) : State :=
  let lk := s.time.tiEnable && s.time.tiLocked
  let t := { s with time := { s.time with parent := 0xFF, gmNode := s.pkg.nodeId, gmLocked := lk, hops := 0, errBound := 0, mismatch := .none, held := false, yielded := false } }
  let u := if t.time.hasOrigin then t else t.setOrigin (if lk then 0 else roundUp t.time.now beatUnits)
  u.setTimeState 4

/-- A device that is not the grandmaster meets its parent's DRIP_ORIGIN (R43). -/
def State.meetOrigin (s : State) (o : Nat) : State :=
  if !s.time.hasOrigin || s.time.origin = o then { s with time := { s.time with mismatch := .none } }
  else if s.job.isNone then s.setOrigin o
  else
    let t := { s with time := { s.time with mismatch := some o } }
    if s.time.mismatch = some o then t else t.report 0 (mkReport 0x03 13 0)

/-- A device's own claim to be grandmaster: its TIME_IN is enabled and locked. -/
def State.ownClaim (s : State) : Bool := s.time.tiEnable && s.time.tiLocked

/-- Follow a grandmaster's claim through the parent port (R39, R44). A device whose own TIME_IN is locked yields to a lower node
that is locked: it follows as an ordinary device, and records it (R46). A grandmaster that is followed and loses its lock stays
grandmaster (R47). -/
def State.follow (s : State) (c : Bool × Nat) : State :=
  match s.parentFor c.2 with
  | none => s
  | some (n, k) =>
    let yields := s.ownClaim && c.1
    let held := s.time.state != 4 && s.time.gmNode == k.gmNode && (s.time.held || s.time.gmLocked) && !k.gmLocked
    let t := { s with time := { s.time with
      parent := n, held := held, yielded := yields, gmNode := k.gmNode, gmLocked := k.gmLocked, hops := k.hops + 1 } }
    let u := if yields && !s.time.yielded then t.report 0 (mkReport 0x03 13 0) else t
    let v := if u.time.state = 2 || u.time.state = 1 then u else u.setTimeState 1
    v.meetOrigin k.dripOrigin

/-- The grandmaster has lost its TIME_IN, this device or the one that it follows, and no TIME_IN of the system is locked: it stays
grandmaster (R47). -/
def State.gmStays (s : State) : Bool :=
  !s.ownClaim && s.timePorts.all (fun x => !x.2.gmLocked) &&
  (s.time.held || (s.time.state != 4 && s.time.gmLocked)) &&
  (s.time.state == 4 || s.timePorts.any fun x => x.2.gmNode == s.time.gmNode)

/-- Choose the grandmaster and the parent port (R39, R44, R46, R47). -/
def State.chooseParent (s : State) : State :=
  if s.gmStays then (if s.time.state = 4 then s else s.follow (false, s.time.gmNode))
  else
    match s.bestClaim with
    | none =>
      if s.ownClaim || (!s.timePorts.isEmpty) then s.becomeGrandmaster
      else if s.time.state = 1 || s.time.state = 2 then
        ({ s with time := { s.time with parent := 0xFF, yielded := false } }).setTimeState 3
      else s
    | some c => if claimBetter (s.ownClaim, s.pkg.nodeId) c then s.becomeGrandmaster else s.follow c

end Sys2Proof.Machine
end

