-- ==== Sys2Proof/Machine/StageOps.lean ====
section
/-! DEFINITION. Operations on the stages of the current frames: presence at a boundary, launch, completion, withdrawal and
the clearing of presence flags (R28 to R36, R534). The commands themselves stand in Stages.lean. -/

namespace Sys2Proof.Machine

/-- The launch drip and the due drip of a stage in its frame. -/
def Run.launchDrip (u : Run) : Drip := u.frame.plus u.entry.launch
def Run.dueDrip (u : Run) : Drip := u.frame.plus u.entry.due
def Run.latestDrip (u : Run) : Drip := u.frame.plus u.entry.latest

/-- A stage has ended: completed, missed, withdrawn, or void and done (R340). -/
def Run.over (u : Run) : Bool :=
  match u.st with
  | .waiting | .launched => false
  | _ => true

/-- The launch entry's unit in the terms of Table 19-7 (R49). -/
def unitRefOf : UnitName → UnitRef
  | .quad q => { kind := 2, index := q.val }
  | .engine e => { kind := 3, index := e.val }
  | .collective => { kind := 4, index := 0xFFF }
  | .port p => { kind := 7, index := 8 * p.val + 7 }
  | .link k => { kind := 8, index := k.val }
  | .sump => { kind := 9, index := 0 }
  | .sequencer => { kind := 10, index := 0 }

/-- The unit of Table 19-7 behind the logical unit of a launch entry: a routing engine that the spare serves is physical engine 4
(R19, R49). -/
def SliceState.unitOf (x : SliceState) : UnitName → UnitRef
  | .engine e => { kind := 3, index := x.physEngine e.val }
  | n => unitRefOf n

/-- The claimants of a point that are collision-checked, by position in its row of Table 02-6; the router egress and the
injection of an internal link are checked in SCHEDULED mode. -/
def checkedAt (scheduled : Bool) (row pos : Nat) : Bool :=
  match row with
  | 1 | 8 | 9 => pos == 0
  | 2 => decide (pos < 4)
  | 3 | 5 => decide (pos < 5)
  | 4 => decide (pos < 3)
  | 6 | 7 => scheduled && decide (pos < 5)
  | 10 => pos == 0 || pos == 2
  | _ => false

/-- Positions of Table 02-6 that stand for a range of claimants. -/
def rangeAt (row pos : Nat) : Bool :=
  match row with
  | 1 | 2 | 8 | 9 => pos == 0
  | 3 => pos == 0 || pos == 3 || pos == 4
  | 5 => decide (pos < 2)
  | 6 | 7 => decide (pos < 3)
  | _ => false

/-- Whether two claims make a schedule collision: both checked, and the winner not after the loser (R48, R49). -/
def collides (scheduled : Bool) (c : Collision) : Bool :=
  checkedAt scheduled c.row c.won.1 && checkedAt scheduled c.row c.lost.1 &&
  (decide (c.won.1 < c.lost.1) || (c.won.1 == c.lost.1 && decide (c.won.2 ≤ c.lost.2)))

/-- D0 to D2 of a COLLISION record (R49). -/
def collisionDetail (c : Collision) : List Nat :=
  let inst := if [1, 2, 4, 5, 6, 7, 9].contains c.row then c.inst else 0
  let who (k : Nat × Nat) : Nat := field k.1 8 0 + field (if rangeAt c.row k.1 then k.2 else 0) 8 8
  [field c.row 8 0 + field inst 8 8 + (if c.row = 6 ∨ c.row = 7 then field c.net 1 16 else 0), who c.won, who c.lost]

/-- Whether a stage uses a presence flag: as an input, or waited on by its program (R534). -/
def Run.uses (u : Run) (f : Nat) : Bool := u.entry.inputs.contains f || u.entry.f.waits.contains f

/-- Launch order within a frame: launch drip, then entry number. The manual does not say which of two stages with one launch drip is
the last (DESIGN CHOICE, log 144). -/
def Run.before (u v : Run) : Bool :=
  decide (u.entry.launch < v.entry.launch) || (u.entry.launch == v.entry.launch && decide (u.idx < v.idx))

/-- The flags a stage clears when it ends: those it uses and no later stage of its frame does (R534). -/
def SliceState.clearedBy (x : SliceState) (u : Run) : List Nat :=
  (u.entry.inputs ++ u.entry.f.waits).filter fun f =>
    !(x.runs.any fun v => v.frame == u.frame && v.uses f && u.before v)

/-- Put the run (idx, frame) into a state. -/
def SliceState.setRun (x : SliceState) (u : Run) (f : Run → Run) : SliceState :=
  x.onRuns fun v => if v.idx == u.idx && v.frame == u.frame then f v else v

/-- A stage ends within a drip: the flags it was the last to use are cleared at the next drip boundary (R534). -/
def SliceState.endRun (x : SliceState) (u : Run) (st : RunState) : SliceState :=
  { x.setRun u fun v => { v with st := st } with toClear := x.toClear ++ x.clearedBy u }

/-- The flags owed to a boundary are cleared at it (R534). -/
def SliceState.clearDue (x : SliceState) : SliceState := { x.toClear.foldl SliceState.clearFlag x with toClear := [] }

/-- A stage ends at a drip boundary, which clears its flags (R534). -/
def SliceState.endRunNow (x : SliceState) (u : Run) (st : RunState) : SliceState := (x.endRun u st).clearDue

/-- A stage completes and the flag of its output, if it names one, is set (R32). -/
def SliceState.completeRun (x : SliceState) (u : Run) : SliceState :=
  (x.endRun u .completed).setFlag? u.entry.f.sets

/-- The first waiting run of an entry, and the first launched one. -/
def SliceState.waitingRun (x : SliceState) (i : Nat) : Option Run :=
  x.runs.find? fun u => u.idx == i && u.st == .waiting
def SliceState.launchedRun (x : SliceState) (i : Nat) : Option Run :=
  x.runs.find? fun u => u.idx == i && u.st == .launched

/-- Whether the inputs of a stage were present at the last drip boundary (R32). -/
def SliceState.present? (x : SliceState) (u : Run) : Bool := u.entry.inputs.all fun f => x.flagsAt.contains f

/-- A unit refuses further launches: it failed, or it is withheld in still-water throttling (R472, R523). -/
def SliceState.barred (x : SliceState) (n : UnitName) : Bool :=
  x.power.withheld || x.spares.routeless || x.spares.failed.contains (unitRefOf n) || x.spares.failed.contains { kind := 0, index := 0 } ||
  (match n with
   | .engine e => (x.engines.getD e {}).failed
   | .quad q => x.spares.failed.any fun u => u.kind == 1 && u.index / 8 == q.val
   | _ => false)

/-- Whether a stage may launch now: its launch drip has come, its latest launch drip is not past, its inputs are present,
and in still-water mode it is exactly the launch drip (R28, R33, R34). -/
def State.launchable (s : State) (sl : Nat) (u : Run) : Bool :=
  let x := s.sl sl
  u.st == .waiting && !Drip.later u.launchDrip s.now && !Drip.later s.now u.latestDrip && x.present? u &&
  !x.barred u.entry.unit && (!s.still.on || u.launchDrip == s.now)

/-- The contexts of the row maps in use that are not live (R54, R136). -/
def State.deadCtxs (s : State) (sl : Nat) : List Nat :=
  let x := s.sl sl
  let rows := x.svc.rowmap ++ (x.routing.snaps.map (·.rows)).flatten
  ((rows.filter fun r => r.valid && s.ctxState r.ctx != 2).map (·.ctx)).eraseDups

/-- Mark a stage launched at the current drip, with what its rules read at the launch drip. -/
def State.markLaunched (s : State) (sl : Nat) (u : Run) : State :=
  let x := s.sl sl
  s.onSl sl fun y => y.setRun u fun v =>
    { v with st := .launched, launchedAt := s.now, lost := x.fabric.lost, dead := s.deadCtxs sl }

/-- In still-water mode a stage whose inputs are absent at its launch drip has missed, and the miss is noted (R34). -/
def State.noteLate (s : State) (sl : Nat) (u : Run) : State :=
  if s.still.on && u.launchDrip == s.now && !(s.sl sl).present? u then
    s.onSl sl fun x => x.setRun u fun v => { v with lateInput := true }
  else s

/-- A claim of a stage loses to another scheduled claim: the collision is counted, and in still-water mode it is recorded and
ends the stage's requests at the next boundary (R49, R50). -/
def State.collide (s : State) (sl : Nat) (v : Run) (c : Collision) : State :=
  -- the losing stage: the one named, or the one that launches
  let u := match c.loser with
    | some i => ((s.sl sl).launchedRun i).getD v
    | none => v
  if !collides (s.pkg.congestionMode == 0) c then s
  else
    let t := { s with time := { s.time with collisions := s.time.collisions + 1 } }
    if !s.still.on then t
    else
      let tied := s.tied sl u
      let r := t.report sl { cls := 0x02, unit := (s.sl sl).unitOf u.entry.unit, status := if tied then 0x19 else 0,
                             ctx := u.entry.ctx, detail := collisionDetail c }
      if tied then r.endTied sl u s.now (s.now.plus 1) .scheduleCollision else r

/-- The run of an entry that acts now: one already launched whose act has not begun, or a waiting one that may launch,
which is then launched. -/
def State.actingRun (s : State) (sl i : Nat) (k : StageKind) : Option (Run × State) :=
  let x := s.sl sl
  match x.runs.find? fun u => u.idx == i && u.entry.kind == k && u.st == .launched && !u.begun with
  | some u => some (u, s.onSl sl fun y => y.setRun u fun v => { v with begun := true })
  | none =>
    match x.runs.find? fun u => u.idx == i && u.entry.kind == k && u.st == .waiting with
    | some u =>
      if s.launchable sl u then
        some ({ u with st := .launched, launchedAt := s.now, begun := true, lost := x.fabric.lost, dead := s.deadCtxs sl },
          (s.markLaunched sl u).onSl sl fun y => y.setRun u fun v => { v with begun := true })
      else none
    | none => none

/-- A rule ends the requests tied to a stage for a fault at the next drip; a stage that serves a context has its context
torn down then (R166, R171, R204, R357). -/
def State.faultStage (s : State) (sl : Nat) (u : Run) (st : Status) : State :=
  let t := s.endTied sl u s.now (s.now.plus 1) st
  if u.entry.ctx < 255 then { t with tears := t.tears ++ [(u.entry.ctx, s.now.plus 1)] } else t

/-- The launch drip of the launched stage a unit runs. -/
def Run.tag (u : Run) : Nat := u.launchedAt.toNat

/-- A report names a stage by its kind code (Table 02-3) and its entry number. -/
def kindCode : StageKind → Nat
  | .quad => 0 | .route => 1 | .combine => 2 | .inject => 3 | .receive => 4 | .collective => 5 | .prefetch => 6
  | .rangePrefetch => 7 | .view => 8 | .input => 9 | .outputMain => 10 | .outputSqz => 11 | .passDigest => 12
  | .windowOpen => 13 | .windowClose => 14 | .handoff => 15

end Sys2Proof.Machine
end

