-- ==== Sys2Proof/Machine/ThreadOps.lean ====
section
/-! DEFINITION. Operations on routing-engine threads: registers, waking, faults and the end of a phase (R87 to R93, R109,
R110). -/

namespace Sys2Proof.Machine

def SliceState.engine (x : SliceState) (e : Nat) : Engine := x.engines.getD e {}
def SliceState.onEngine (x : SliceState) (e : Nat) (f : Engine → Engine) : SliceState :=
  { x with engines := x.engines.modify e f }
def Engine.thread (g : Engine) (t : Nat) : Thread := g.threads.getD t {}
def Engine.onThread (g : Engine) (t : Nat) (f : Thread → Thread) : Engine := { g with threads := g.threads.modify t f }
def SliceState.onThread (x : SliceState) (e t : Nat) (f : Thread → Thread) : SliceState :=
  x.onEngine e fun g => g.onThread t f
def State.onThread (s : State) (sl e t : Nat) (f : Thread → Thread) : State := s.onSl sl fun x => x.onThread e t f
def State.thread (s : State) (sl e t : Nat) : Thread := ((s.sl sl).engine e).thread t

/-- A register read: g0 reads 0 (R93). -/
def Thread.reg (t : Thread) (n : Nat) : Word := if n = 0 then 0 else t.g.getD n 0

/-- A register write: a write to g0 is discarded (R93). -/
def Thread.setReg (t : Thread) (n : Nat) (v : Word) : Thread := if n = 0 then t else { t with g := t.g.set n v }

/-- A predicate read: p0 reads 1 (R93). -/
def Thread.pred (t : Thread) (n : Nat) : Bool := if n = 0 then true else t.p.getD n false

/-- A predicate write: a write to p0 is discarded (R93). -/
def Thread.setPred (t : Thread) (n : Nat) (v : Bool) : Thread := if n = 0 then t else { t with p := t.p.set n v }

/-- The thread leaves the issue slot: it blocks, yields, halts or faults (R91). -/
def Engine.leave (g : Engine) (t : Nat) : Engine :=
  if g.running = some t then { g with running := none, last := t } else g

/-- The first thread in cyclic order after `k` that a predicate picks. -/
def Engine.firstAfter (g : Engine) (k : Nat) (p : Thread → Bool) : Option Nat :=
  ((List.range 64).map fun i => (k + 1 + i) % 64).find? fun t => p (g.thread t)

/-- The first READY thread in cyclic order after `k` (R91); with none READY, the first that waits for a staged copy, since its
latency has passed before anything else issues (R104, log 136). -/
def Engine.nextReady (g : Engine) (k : Nat) : Option Nat :=
  match g.firstAfter k fun h => h.st == .ready with
  | some t => some t
  | none => g.firstAfter k fun h => h.staged

/-- Whether a thread may issue now: it runs, or nothing runs and it is the next READY thread (R91). -/
def Engine.mayIssue (g : Engine) (t : Nat) : Bool :=
  match g.running with
  | some r => r == t && (g.thread t).st == .running
  | none => g.nextReady g.last == some t

/-- A thread that waits for a staged copy has it (R104). -/
def Thread.copied (h : Thread) : Thread := if h.staged then { h with st := .ready, staged := false } else h

/-- Take the issue slot: the thread runs and its count of instructions in a row rises (R91). -/
def Engine.take (g : Engine) (t : Nat) : Engine :=
  let fresh := g.running != some t
  { g with running := some t, threads := g.threads.map Thread.copied }.onThread t fun h => { h with st := .running, issued := (if fresh then 0 else h.issued) + 1 }

/-- A thread enters a wait state and another may issue. -/
def Engine.block (g : Engine) (t : Nat) (st : ThreadPhase) : Engine :=
  (g.onThread t fun h => { h with st := st }).leave t

/-- A waiting thread becomes READY. -/
def Thread.wake (h : Thread) : Thread := { h with st := .ready }

/-- Answers to the outstanding remote accesses of a thread are discarded from now on (R110). -/
def dropIssuer (e t : Nat) : Issuer → Issuer
  | .thread e' t' k r a n => if e' = e ∧ t' = t then .none else .thread e' t' k r a n
  | i => i

/-- Threads of the phase that a run launched. -/
def Run.threads (u : Run) : List Nat := (List.range (u.entry.f.threads)).map (u.entry.f.first + ·)

/-- The engine of a phase. -/
def Run.engine? (u : Run) : Option Nat := match u.entry.unit with | .engine e => some e.val | _ => none

/-- What is outstanding of a thread that has halted is answered for by its phase (R103). -/
def haltIssuer (e t : Nat) (u : Option Run) : Issuer → Issuer
  | .thread e' t' k r a n =>
    if e' = e ∧ t' = t then (match u with | some v => .halted v | none => .none) else .thread e' t' k r a n
  | i => i

/-- The run a thread serves. -/
def SliceState.threadRun (x : SliceState) (e t : Nat) : Option Run :=
  let h := (x.engine e).thread t
  x.runs.find? fun u => u.idx == h.run && u.st == .launched && u.engine? == some e && u.threads.contains t

/-- A thread stops and returns to IDLE; its starts, waits and queue entries end, and `f` is what becomes of its outstanding
remote accesses. Its window keeps what it held (R89, R110). -/
def SliceState.endThread (x : SliceState) (e t : Nat) (f : Issuer → Issuer) : SliceState :=
  let y := x.onEngine e fun g =>
    let g1 := (g.onThread t fun h => { h with st := .idle, xstWait := false, drain := false, staged := false }).leave t
    { g1 with waits := g1.waits.filter fun w => w.thread != t }
  { y with
    pools := { y.pools with waits := y.pools.waits.filter fun w => !(w.engine == e && w.thread == t) }
    fabric := { y.fabric with
      outMsgs := y.fabric.outMsgs.map fun m => { m with issuer := f m.issuer }
      windowed := y.fabric.windowed.map fun m => { m with issuer := f m.issuer } } }

/-- A thread is stopped: answers to its outstanding remote accesses are discarded (R110). -/
def SliceState.stopThread (x : SliceState) (e t : Nat) : SliceState := x.endThread e t (dropIssuer e t)

/-- A thread halts; its phase answers for the stores it has outstanding (R103). -/
def SliceState.haltThread (x : SliceState) (e t : Nat) : SliceState := x.endThread e t (haltIssuer e t (x.threadRun e t))

/-- All threads of a phase are IDLE again (R89, R110). -/
def SliceState.phaseDone (x : SliceState) (u : Run) : Bool :=
  match u.engine? with
  | some e => u.threads.all fun t => ((x.engine e).thread t).st == .idle
  | none => false

/-- Complete the phase of a thread if its last thread has ended, none of them stopped short of its HALT. A COMBINE phase also
waits for its combine unit. -/
def SliceState.tryCompletePhase (x : SliceState) (e t : Nat) : SliceState :=
  let h := (x.engine e).thread t
  match x.runs.find? fun u => u.idx == h.run && u.st == .launched && u.engine? == some e &&
      u.threads.contains t with
  | some u =>
    if x.phaseDone u && !u.stopped && (u.entry.kind == .route || !((x.engine e).busy.any fun b => b.1 == .combine)) then x.completeRun u
    else x
  | none => x

/-- A phase with a thread stopped before its HALT does not complete (R89, R110). -/
def SliceState.noComplete (x : SliceState) (u? : Option Run) : SliceState :=
  match u? with
  | some u => x.setRun u fun v => { v with stopped := true }
  | none => x

/-- The threads of a phase that still run are stopped (R89). -/
def SliceState.stopPhase (x : SliceState) (u : Run) : SliceState :=
  match u.engine? with
  | some e => u.threads.foldl (fun (y : SliceState) t =>
      let h := (y.engine e).thread t
      if h.run == u.idx && h.st != .idle then y.stopThread e t else y) x
  | none => x

/-- A read of ranges for a stage, of which one holds a poisoned word, ends the requests tied to the stage with FAULT at the next drip
(R204). -/
def State.readFor (s : State) (sl : Nat) (u? : Option Run) (rs : List (Nat × Nat)) : State :=
  match u? with
  | some u => if rs.any fun r => (s.sl sl).poisoned r.1 r.2 then s.faultStage sl u .fault else s
  | none => s

/-- A thread ends with a status (R103, R110): a context's phase tears its context down, the request tied to the phase
ends with the status; a frame-wide phase ends the requests tied to its stage. -/
def State.endThreadWith (s : State) (sl e t : Nat) (st : Status) : State :=
  let h := s.thread sl e t
  let u? := (s.sl sl).threadRun e t
  let s1 := s.onSl sl fun x => (x.stopThread e t)
  let s2 := match u? with
    | some u => s1.endTied sl u s.now (s.now.plus 1) st
    | none => s1
  if h.ctx < 255 then
    let s3 : State := { s2 with tears := s2.tears ++ [(h.ctx, s.now.plus 1)] }
    s3.onSl sl fun x => x.noComplete u?
  else s2.onSl sl fun x => x.tryCompletePhase e t

/-- LAST_FAULT (R112). -/
def lastFaultWord (code e t pc drip : Nat) : Nat :=
  field code 8 0 + field e 2 8 + field t 6 10 + field pc 15 16 + field drip 32 32

def faultLocalBounds : Nat := 1
def faultMisalign : Nat := 2
def faultPcBounds : Nat := 3
def faultUnitArg : Nat := 4
def faultStillWater : Nat := 5
def faultPoolEmpty : Nat := 6

/-- The program counter that a fault reports (R109): that of the instruction, whose word the thread has passed; for a program
counter outside the store, the counter itself. DEDUCED (log 115). -/
def Thread.faultPc (h : Thread) (code : Nat) : Nat := if code = faultPcBounds then h.pc else h.pc - 1

/-- A thread faults (R109, R110): it stops, an error record is written and counted, and its requests end with FAULT. -/
def State.threadFault (s : State) (sl e t code : Nat) : State :=
  let h := s.thread sl e t
  let ties := match (s.sl sl).threadRun e t with | some u => s.tied sl u | none => false
  let s1 := s.report sl (mkReport 0x05 3 ((s.sl sl).physEngine e) (if ties then Status.fault.code else 0) h.ctx [code, t, e, h.faultPc code])
  let s2 := s1.onSl sl fun x =>
    { x with routing := { x.routing with
        threadFaults := x.routing.threadFaults + 1
        lastFault := lastFaultWord code e t (h.faultPc code) s.now.toNat } }
  s2.endThreadWith sl e t .fault

/-- Start the threads of a phase (R89). -/
def SliceState.startPhase (x : SliceState) (u : Run) (launch : Drip) : SliceState :=
  match u.engine? with
  | none => x
  | some e =>
    u.threads.foldl (fun y t =>
      y.onThread e t fun _ =>
        let h : Thread :=
          { st := .ready, pc := u.entry.f.entry, run := u.idx, ctx := u.entry.ctx, owner := u.entry.f.owner,
            prefetchSet := u.entry.f.prefetchSet, launchDrip := launch }
        (((h.setReg 1 (BitVec.ofNat 64 (t - u.entry.f.first))).setReg 2 u.entry.f.arg).setReg 3
          (BitVec.ofNat 64 launch.toNat)).setReg 4 (BitVec.ofNat 64 (0xD00000 + t * 0xC000))) x

end Sys2Proof.Machine
end

