-- ==== Sys2Proof/Machine/FabricOps.lean ====
section
/-! DEFINITION. Operations of the fabric that several families share: routing tables (R284, R285), the router (R268, R271,
R272, R290), sending a message (R270, R283), answers (R276) and the order of delivery (R273, R274). -/

namespace Sys2Proof.Machine

/-! ### Routing tables (Table 10-8) -/

/-- Entry i of a table: PORT_MASK and word 1. -/
def tableEntry (b : Bytes) (i : Nat) : Nat × Nat := (leNat (slice b (16 * i) 8), leNat (slice b (16 * i + 8) 8))

/-- The table an EPOCH names. -/
def Package.table (k : Package) (epoch : Nat) : Bytes := if epoch = 0 then k.tableA else k.tableB

/-- A table is live while it is active or draining (R286). -/
def State.tableLive (s : State) (epoch : Nat) : Bool := epoch == s.pkg.routeActive || s.pkg.drainEnd.isSome

/-- The port is UP and taken into service (R285, R287). -/
def State.portServes (s : State) (n : Nat) : Bool :=
  let l := s.link (n / 8) (.port (Fin.ofNat 8 n))
  l.st == linkUp && l.inService

/-- PORT_MASK of a destination node's entry as ports, ascending; an invalid entry has none (R285). -/
def State.entryPorts (s : State) (dst epoch : Nat) : List Nat :=
  let j := if dst / 1024 ≠ s.pkg.nodeId / 1024 then dst / 1024 else 1024 + dst % 1024
  let w := tableEntry (s.pkg.table epoch) j
  if w.2 % 2 = 1 then setBits 64 w.1 else []

/-- The eligible ports of a destination node (R285). -/
def State.eligible (s : State) (dst epoch : Nat) : List Nat := (s.entryPorts dst epoch).filter s.portServes

/-! ### Internal links (R17, R18) -/

def State.innerUp (s : State) (a b : Nat) : Bool := ((s.sl a).ilinks.getD b {}).st == linkUp

/-- The lowest-numbered slice with working links to both ends, in MARKED mode (R18). -/
def State.relay (s : State) (a b : Nat) : Option Nat :=
  if s.pkg.congestionMode = 1 then
    (List.range 8).find? fun m => m != a && m != b && s.innerUp a m && s.innerUp m b
  else none

/-- The unit a packet arrived by. -/
def Arrival.unit : Arrival → UnitRef
  | .port p => { kind := 7, index := 8 * p.val + 7 }
  | .link k => { kind := 8, index := k.val }
  | .own => { kind := 0, index := 0 }

/-- A router discards a packet and writes an error record (R268); nothing is counted. -/
def State.routerDiscard (s : State) (sl : Nat) (a : Arrival) (p : Packet) : State :=
  s.report sl { cls := 0x0E, unit := Arrival.unit a, ctx := p.ctx, detail := [p.opcode, p.dstNode * 8 + p.dstSlice, p.flowSeq, p.ttl] }

/-- A packet crosses from slice a to slice b, with the port number of its route word if its egress lies there (R17, R18,
R272). The copy of a multicast packet for a member slice k carries 64 + 8k instead (DESIGN CHOICE, log 12). -/
def State.cross (s : State) (a b : Nat) (arr : Arrival) (p : Packet) (port : Option Nat) : State :=
  if s.innerUp a b then s.enqueue a (.link (Fin.ofNat 8 b)) arr p port
  else match s.relay a b with
    | some m => s.enqueue a (.link (Fin.ofNat 8 m)) arr p port
    | none => s.routerDiscard a arr p

/-- Queue a packet for a port of the package, which may lie on another slice. -/
def State.toPort (s : State) (sl : Nat) (a : Arrival) (p : Packet) (n : Nat) : State :=
  if n / 8 = sl then s.enqueue sl (.port (Fin.ofNat 8 n)) a p none else s.cross sl (n / 8) a p (some n)

/-- The egress of a unicast packet for another node (R271). -/
def State.spray (s : State) (sl : Nat) (a : Arrival) (p : Packet) : State :=
  let e := s.eligible p.dstNode p.epoch
  match e[(p.flowSeq + p.srcNode + p.srcSlice) % e.length]? with
  | some n => s.toPort sl a p n
  | none => s.routerDiscard sl a p

/-- A port of the package is UP. -/
def State.portUp (s : State) (n : Nat) : Bool := (s.link (n / 8) (.port (Fin.ofNat 8 n))).st == linkUp

/-- Ports that receive a copy: not the one it arrived on, not fenced by the operator, and UP (R316). -/
def State.copyPorts (s : State) (mask : Nat) (arrived : Option Nat) : List Nat :=
  (setBits 64 mask).filter fun n => some n != arrived && !s.pkg.fencePorts.testBit n && s.portUp n

/-- The package number of the port a packet arrived on. -/
def Arrival.portNumber (sl : Nat) : Arrival → Option Nat
  | .port p => some (8 * sl + p.val)
  | _ => none

/-- A packet that is for slice `sl` waits there for its consumer, in the ingress buffer of the link that it came over (R263, R275). -/
def State.toOwn (s : State) (sl : Nat) (a : Arrival) (p : Packet) : State :=
  s.onSl sl fun x => { x with fabric := { x.fabric with inject := x.fabric.inject ++
    [{ pkt := p, origin := a, hold := if a = .own then none else some x.fabric.nextHold }] } }

/-- One copy of a multicast packet to each port and each slice of its group's entry (R290, R316). A router that is reached
over an internal link makes no copy of its own: the slice where the packet entered the device made them all. -/
def State.copyMulticast (s : State) (sl : Nat) (a : Arrival) (p : Packet) : State :=
  let w := tableEntry (s.pkg.table p.epoch) (2048 + p.mgroup)
  if w.2 % 2 = 0 then s.routerDiscard sl a p
  else
    let q := { p with ttl := p.ttl - 1 }
    let s1 := (s.copyPorts w.1 (Arrival.portNumber sl a)).foldl (fun v n => v.toPort sl a q n) s
    (setBits 8 (bits w.2 8 1)).foldl (fun v k =>
      if s.pkg.fenceSlices.testBit k || (s.sl sl).fabric.lost.contains (s.place k) then v
      else if k = sl then v.toOwn sl a q else v.cross sl k a q (some (64 + 8 * k))) s1

/-- The router of a slice takes a packet (R267, R268, R271, R272, R285). `route`: the port of the route word it came with;
such a packet has passed this device's router already, and its TTL stands (DEDUCED, log 12). A TIME packet goes no further (R269). -/
def State.routePacket (s : State) (sl : Nat) (a : Arrival) (route : Option Nat) (p : Packet) : State :=
  if (p.ttl = 0 && route.isNone) || !opKnown p.opcode || p.payload.length > 4096 || p.plen > 4096 || !s.tableLive p.epoch then
    s.routerDiscard sl a p
  else if p.opcode = opTIME then s
  else if p.opcode = opMCAST then
    match a, route with
    | .link _, some n =>
      if 64 ≤ n then (if (n - 64) / 8 = sl then s.toOwn sl a p else s.cross sl ((n - 64) / 8) a p (some n))
      else if s.portUp n then s.toPort sl a p n else s
    | .link _, none => s.toOwn sl a p
    | _, _ => s.copyMulticast sl a p
  else if p.dstNode = s.pkg.nodeId then
    let q := match a with | .link _ => p | _ => { p with ttl := p.ttl - 1 }
    if p.dstSlice = sl then s.toOwn sl a p else s.cross sl p.dstSlice a q none
  else
    match route with
    | some n => if s.portServes n then s.toPort sl a p n else s.spray sl a p
    | none => s.spray sl a { p with ttl := p.ttl - 1 }

/-! ### Taking a packet from where it waits -/

/-- Credits of an ingress buffer go back to the sender (R263). -/
def State.creditBack (s : State) (sl : Nat) (a : Arrival) (p : Packet) : State :=
  let give (l : Link) : Link := match netOf p.opcode with
    | .req => { l with reqReturn := l.reqReturn + packetCredits p }
    | .rsp => { l with rspReturn := l.rspReturn + packetCredits p }
  match a with
  | .port q => s.onLink sl (.port q) give
  | .link k => s.onLink sl (.link k) give
  | .own => s

/-- Whether a queue of the slice still holds the packet that a number names (R263). -/
def SliceState.held (x : SliceState) (a : Arrival) (n : Nat) : Bool :=
  x.fabric.inject.any (fun q => q.origin == a && q.hold == some n) ||
  (x.ports ++ x.ilinks).any fun l => (l.egressReq ++ l.egressRsp).any fun q => q.origin == a && q.hold == some n

/-- Once the last copy of a packet has left its ingress buffer, the credits go back (R263). -/
def State.freeHold (s : State) (sl : Nat) (a : Arrival) (hold : Option Nat) (p : Packet) : State :=
  match hold with
  | none => s
  | some n => if (s.sl sl).held a n then s else s.creditBack sl a p

/-- A packet that waited for its consumer leaves the slice's list of those, and the ingress buffer that it stood in (R263). -/
def State.takeOwn (s : State) (sl : Nat) (p : Packet) : State :=
  match (s.sl sl).fabric.inject.find? fun q => q.pkt == p with
  | none => s
  | some q =>
    (s.onSl sl fun x => { x with fabric := { x.fabric with inject := x.fabric.inject.eraseP fun k => k.pkt == p } }).freeHold sl q.origin q.hold p

/-- A packet leaves the ingress buffer of its arrival, and its credits go back (R263). Nothing changes where it is not there. -/
def State.takeIngress (s : State) (sl : Nat) (a : Arrival) (p : Packet) : State :=
  let onBuf (l : Link) : Link :=
    match netOf p.opcode with
    | .req => if l.ingressReq.any fun x => x.1 == p then
        { l with ingressReq := l.ingressReq.eraseP fun x => x.1 == p, reqReturn := l.reqReturn + packetCredits p } else l
    | .rsp => if l.ingressRsp.any fun x => x.1 == p then
        { l with ingressRsp := l.ingressRsp.eraseP fun x => x.1 == p, rspReturn := l.rspReturn + packetCredits p } else l
  match a with
  | .port q => s.onLink sl (.port q) onBuf
  | .link k => s.onLink sl (.link k) onBuf
  | .own => s.takeOwn sl p

/-- A packet leaves the list of those that wait for a router, and its credits are still out (R263). -/
def State.liftIngress (s : State) (sl : Nat) (a : Arrival) (p : Packet) : State :=
  let onBuf (l : Link) : Link :=
    match netOf p.opcode with
    | .req => { l with ingressReq := l.ingressReq.eraseP fun x => x.1 == p }
    | .rsp => { l with ingressRsp := l.ingressRsp.eraseP fun x => x.1 == p }
  match a with
  | .port q => s.onLink sl (.port q) onBuf
  | .link k => s.onLink sl (.link k) onBuf
  | .own => s.takeOwn sl p

/-- Whether a packet waits where it is said to have arrived. -/
def State.waits (s : State) (sl : Nat) (a : Arrival) (p : Packet) : Bool :=
  let on (l : Link) : Bool := match netOf p.opcode with
    | .req => l.ingressReq.any fun x => x.1 == p
    | .rsp => l.ingressRsp.any fun x => x.1 == p
  match a with
  | .port q => on (s.link sl (.port q))
  | .link k => on (s.link sl (.link k))
  | .own => true

/-- Packets of the same network that stand before a packet in the ingress buffer it waits in; none where it does not wait there. -/
def State.before (s : State) (sl : Nat) (a : Arrival) (p : Packet) : List Packet :=
  let on (l : Link) : List Packet :=
    let q : List Packet := match netOf p.opcode with | .req => l.ingressReq.map (·.1) | .rsp => l.ingressRsp.map (·.1)
    if q.contains p then q.takeWhile (· != p) else []
  match a with
  | .port q => on (s.link sl (.port q))
  | .link k => on (s.link sl (.link k))
  | .own => []

/-- A router takes a packet from its ingress buffer and queues it or its copies; the buffer is free, and its credits go back,
once the last of them has started (R263). -/
def State.forward (s : State) (sl : Nat) (a : Arrival) (route : Option Nat) (p : Packet) : State :=
  let n := (s.sl sl).fabric.nextHold
  let t := (s.liftIngress sl a p).routePacket sl a route p
  let u := if s.waits sl a p then t.freeHold sl a (some n) p else t
  u.onSl sl fun x => { x with fabric := { x.fabric with nextHold := n + 1 } }

/-- The port of the route word that a waiting packet came with. -/
def State.routeWord (s : State) (sl : Nat) (a : Arrival) (p : Packet) : Option Nat :=
  let look (l : Link) : Option Nat :=
    match (l.ingressReq ++ l.ingressRsp).find? fun x => x.1 == p with
    | some x => x.2
    | none => none
  match a with
  | .port q => look (s.link sl (.port q))
  | .link k => look (s.link sl (.link k))
  | .own => none

/-! ### Sending (R270, R277, R281, R283) -/

/-- JOB of a packet this device sends: the loaded job, or 0. -/
def State.jobId (s : State) : Nat := match s.job with | some j => j.job | none => 0

/-- A message to send. `parts`: the DST offset and the payload of each packet. -/
structure SendSpec where
  dst : Place
  group : Option Nat := none
  opcode : Nat
  opmod : Nat := 0
  parts : List (Nat × Bytes)
  ctx : Nat := 255
  fence : Bool := false
  trusted : Bool := false
  sched : Bool := false
  reqId : Nat := 0
  issuer : Issuer := .none

/-- Payload bytes from an offset upward, in packets of at most 4,096 bytes (Table 10-6). -/
def payloadParts (off : Nat) (b : Bytes) : List (Nat × Bytes) :=
  (pieces4096 b.length b).zipIdx.map fun x => (off + 4096 * x.2, x.1)
where
  pieces4096 : Nat → Bytes → List Bytes
    | 0, _ => []
    | n + 1, b => if b.isEmpty then [] else b.take 4096 :: pieces4096 n (b.drop 4096)

/-- The packets of a message, not yet numbered. -/
def State.buildPackets (s : State) (sl : Nat) (m : SendSpec) : List Packet :=
  m.parts.zipIdx.map fun x =>
    { opcode := m.opcode, fence := m.fence && x.2 == 0, trusted := m.trusted, first := x.2 == 0,
      last := x.2 + 1 == m.parts.length, job := s.jobId, ctx := m.ctx, srcSlice := sl, srcNode := s.pkg.nodeId,
      dstNode := m.dst.node, dstSlice := m.dst.slice, dstOffset := x.1.1, plen := x.1.2.length, opmod := m.opmod,
      mgroup := m.group.getD 0, sched := m.sched, reqId := m.reqId, payload := x.1.2 }

def SrcFlow.is (f : SrcFlow) (dst : Place) (group : Option Nat) (n : Net) : Bool :=
  f.dst == dst && f.group == group && f.net == n

/-- A flow at its source; a flow not used yet starts at number 0 with the window WIN_INIT, which a job takes as it stands at its load
(R270, R283). -/
def State.srcFlow (s : State) (sl : Nat) (dst : Place) (group : Option Nat) (n : Net) : SrcFlow :=
  match (s.sl sl).fabric.src.find? fun f => f.is dst group n with
  | some f => f
  | none => { dst := dst, group := group, net := n, win := if s.job.isSome then s.pkg.winJob else s.pkg.winInit }

/-- Put a flow back. -/
def State.setSrcFlow (s : State) (sl : Nat) (f : SrcFlow) : State :=
  s.onSl sl fun x =>
    let rest := x.fabric.src.filter fun g => !g.is f.dst f.group f.net
    { x with fabric := { x.fabric with src := rest ++ [f] } }

/-- Bytes of the packets of a message, headers included (R283). -/
def messageBytes (ps : List Packet) : Nat := (ps.map fun p => 32 + p.payload.length).sum

def OutMsg.is (m : OutMsg) (dst : Place) (group : Option Nat) : Bool := m.dst == dst && m.group == group

/-- Whether a message may leave now: the window of R283, the 4,096 packets of R270, and the FENCE rule of R277. -/
def State.maySend (s : State) (sl : Nat) (dst : Place) (group : Option Nat) (ps : List Packet) : Bool :=
  let f := s.srcFlow sl dst group .req
  let mine := (s.sl sl).fabric.outMsgs.filter fun m => m.is dst group
  let far := match mine with
    | [] => 0
    | m :: rest => rest.foldl (fun b o => max b ((f.nextSeq + 65536 - o.firstSeq) % 65536)) ((f.nextSeq + 65536 - m.firstSeq) % 65536)
  (s.pkg.congestionMode == 0 || f.out == 0 || decide (f.out + messageBytes ps ≤ f.win)) &&
  (mine.isEmpty || decide (far + ps.length ≤ 4096)) &&
  !(ps.any (·.fence) && mine.any (·.retxed))

/-- A multicast message is tracked against the member list of its group; a member marked lost is missing at once with
FABRIC_LOST (R315, R317). -/
def State.trackGroup (s : State) (sl : Nat) (group : Option Nat) (msgId ctx : Nat) : List McastMsg :=
  match group with
  | none => []
  | some g =>
    let ms : List Place := match (s.img sl).mcast.find? fun k => k.1 == g with
      | some k => k.2
      | none => []
    [{ group := g, msgId := msgId, ctx := ctx,
       frame := s.frame
       members := ms.map fun p => (p, if (s.sl sl).fabric.lost.contains p then some 0x15 else none) }]

/-- A slice that is marked lost itself injects no more of the job's traffic (R289). -/
def State.silenced (s : State) (sl : Nat) : Bool := (s.sl sl).fabric.lost.contains (s.place sl)

/-- The routing table that a new message names: ROUTE_ACTIVE, and for a live collective step the one in force at its launch, as
long as that is live (R286, R343). -/
def State.epochFor (s : State) (sl : Nat) : Issuer → Nat
  | .coll run id frame =>
    match (s.sl sl).coll.steps.find? fun c => !c.completed && c.run == run && c.desc.collId == id && c.frame == frame with
    | some c => if s.tableLive c.table then c.table else s.pkg.routeActive
    | none => s.pkg.routeActive
  | _ => s.pkg.routeActive

/-- Number a REQ message, keep it until it is answered, and put its packets on their way (R270, R283). -/
def State.launchMsg (s : State) (sl : Nat) (dst : Place) (group : Option Nat) (ps : List Packet) (iss : Issuer) : State :=
  if s.silenced sl then s else
  let f := s.srcFlow sl dst group .req
  let qs := ps.zipIdx.map fun x => sealPacket { x.1 with
    msgId := f.nextMsg, flowSeq := (f.nextSeq + x.2) % 65536, epoch := s.epochFor sl iss }
  let f' := { f with
    nextSeq := (f.nextSeq + ps.length) % 65536
    nextMsg := (f.nextMsg + 1) % 65536
    out := if s.pkg.congestionMode = 1 then f.out + messageBytes ps else f.out }
  let t := (s.setSrcFlow sl f').onSl sl fun x => { x with
    fabric := { x.fabric with
      outMsgs := x.fabric.outMsgs ++ [{ dst := dst, group := group, msgId := f.nextMsg, firstSeq := f.nextSeq, packets := qs, issuer := iss }] }
    remote := { x.remote with mcast := x.remote.mcast ++ s.trackGroup sl group f.nextMsg (match qs with | p :: _ => p.ctx | [] => 255) } }
  qs.foldl (fun v p => v.routePacket sl .own none p) t

/-- Send a REQ message; where it may not leave yet it waits (R283, R277). -/
def State.sendMsg (s : State) (sl : Nat) (m : SendSpec) : State :=
  if s.silenced sl then s
  else
    let ps := s.buildPackets sl m
    let behind := s.pkg.congestionMode == 1 && (s.sl sl).fabric.windowed.any fun w => w.dst == m.dst && w.group == m.group
    if s.maySend sl m.dst m.group ps && !behind then s.launchMsg sl m.dst m.group ps m.issuer
    else s.onSl sl fun x => { x with fabric := { x.fabric with
      windowed := x.fabric.windowed ++ [{ dst := m.dst, group := m.group, packets := ps, issuer := m.issuer }] } }

/-- The next message that waits to a destination leaves if it may. -/
def State.releaseOne (s : State) (sl : Nat) (dst : Place) : State :=
  match (s.sl sl).fabric.windowed.find? fun w => w.dst == dst && s.maySend sl dst w.group w.packets with
  | some w =>
    let first := (s.sl sl).fabric.windowed.find? fun v => v.dst == dst && v.group == w.group
    if s.pkg.congestionMode = 1 && first != some w then s
    else
      (s.onSl sl fun x => { x with fabric := { x.fabric with windowed := x.fabric.windowed.eraseP (· == w) } }).launchMsg
        sl dst w.group w.packets w.issuer
  | none => s

/-- After an answer in SCHEDULED mode, what R277 or R270 held goes on. -/
def State.releaseHeld (s : State) (sl : Nat) (dst : Place) : State :=
  if s.pkg.congestionMode = 1 then s
  else (s.sl sl).fabric.windowed.foldl (fun v w => if w.dst == dst then v.releaseOne sl dst else v) s

/-- The window of a flow on an answer to a message of b bytes (R283): congested by ECHO or NACK RETRY. -/
def SrcFlow.answered (f : SrcFlow) (winMax b msgId : Nat) (congested : Bool) : SrcFlow :=
  let g := { f with out := f.out - b }
  let d := (msgId + 65536 - f.halve) % 65536
  if congested then
    if 1 ≤ d ∧ d ≤ 32767 then
      { g with win := max 4128 (f.win / 16 * 8), halve := (f.nextMsg + 65535) % 65536, acc := 0 }
    else g
  else grow winMax (b / 4128 + 2) { g with acc := g.acc + b }
where
  grow (winMax : Nat) : Nat → SrcFlow → SrcFlow
    | 0, f => f
    | n + 1, f =>
      if f.win ≤ f.acc ∧ 0 < f.win then grow winMax n { f with acc := f.acc - f.win, win := min winMax (f.win + 4096) } else f

/-- The answer of a message changes its flow's window in MARKED mode, once for each time it was sent (R283). -/
def State.windowAnswer (s : State) (sl : Nat) (m : OutMsg) (congested : Bool) : State :=
  let put (o : OutMsg) : OutMsg := if o.is m.dst m.group && o.msgId == m.msgId then { o with settled := true } else o
  if s.pkg.congestionMode = 1 && !m.settled then
    (s.setSrcFlow sl ((s.srcFlow sl m.dst m.group .req).answered s.pkg.winMax (messageBytes m.packets) m.msgId congested)).onSl sl fun x =>
      { x with fabric := { x.fabric with outMsgs := x.fabric.outMsgs.map put } }
  else s

/-- Send a message again: RETX set, the EPOCH in force, and the same numbers (R277). -/
def State.resendMsg (s : State) (sl : Nat) (m : OutMsg) : State :=
  if s.silenced sl then s else
  let qs := m.packets.map fun p => sealPacket { p with retx := true, epoch := s.pkg.routeActive, ttl := 31, mark := false }
  let t := s.onSl sl fun x => { x with fabric := { x.fabric with
    retransmits := x.fabric.retransmits + 1
    outMsgs := x.fabric.outMsgs.map fun o =>
      if o.is m.dst m.group && o.msgId == m.msgId then
        { o with packets := qs, retries := o.retries + 1, retxed := true, settled := false } else o } }
  let u := if t.pkg.congestionMode = 1 then
      let f := t.srcFlow sl m.dst m.group .req
      t.setSrcFlow sl { f with out := f.out + messageBytes m.packets } else t
  qs.foldl (fun v p => v.routePacket sl .own none p) u

/-! ### Answers (R276) -/

/-- The answer to a request as this slice sends it: the next number of the RSP flow, the MSG_ID of the request. -/
def State.answerPacket (s : State) (sl : Nat) (req : Packet) (op opmod : Nat) (payload : Bytes) (echo : Bool) : Packet :=
  let f := s.srcFlow sl (Packet.src req) none .rsp
  sealPacket {
    opcode := op, echo := echo, epoch := s.pkg.routeActive, trusted := req.trusted, job := req.job, ctx := req.ctx,
    srcSlice := sl, srcNode := s.pkg.nodeId, dstNode := req.srcNode, dstSlice := req.srcSlice, dstOffset := 0,
    plen := payload.length, opmod := opmod, msgId := req.msgId, flowSeq := f.nextSeq, reqId := req.reqId, payload := payload }

/-- Send an answer. -/
def State.sendAnswer (s : State) (sl : Nat) (req : Packet) (op opmod : Nat) (payload : Bytes) (echo : Bool) : State :=
  if s.silenced sl && s.job.isSome && req.job == s.jobId then s else
  let p := s.answerPacket sl req op opmod payload echo
  let f := s.srcFlow sl (Packet.src req) none .rsp
  (s.setSrcFlow sl { f with nextSeq := (f.nextSeq + 1) % 65536 }).routePacket sl .own none p

/-- The payload of a NACK: the first offset refused or poisoned for reasons 3 and 5, otherwise 0 (Table 11-5). -/
def nackPayload (reason off : Nat) : Bytes := leBytes 8 (if reason = 3 ∨ reason = 5 then off % 2 ^ 41 else 0)

def nackRETRY : Nat := 1
def nackECRC : Nat := 2
def nackPROT : Nat := 3
def nackUNKNOWN : Nat := 4
def nackPOISON : Nat := 5
def nackLOST : Nat := 6

/-! ### Flows at their destination (R273, R274, R278) -/

/-- The place of a FLOW_SEQ counted without wrap, or none where it lies below `base`. -/
def DstFlow.pos (f : DstFlow) (seq : Nat) : Option Nat :=
  let d := (seq + 65536 - f.base % 65536) % 65536
  if d < 32768 then some (f.base + d) else none

/-- Whether a FLOW_SEQ is one that was skipped: those below `base` are counted down from it (R278). -/
def DstFlow.wasSkipped (f : DstFlow) (seq : Nat) : Bool :=
  let d := (seq + 65536 - f.base % 65536) % 65536
  f.skipped.any fun n => n + (if d < 32768 then 0 else 65536) == f.base + d

/-- Whether a FLOW_SEQ is delivered or skipped. -/
def DstFlow.delivered (f : DstFlow) (seq : Nat) : Bool :=
  match f.pos seq with
  | none => true
  | some n => f.ahead.contains n

/-- Move `base` over what is delivered. -/
def DstFlow.advance : Nat → DstFlow → DstFlow
  | 0, f => f
  | n + 1, f =>
    if f.ahead.contains f.base then DstFlow.advance n { f with base := f.base + 1, ahead := f.ahead.filter (· != f.base) } else f

/-- A FLOW_SEQ is delivered or skipped. -/
def DstFlow.settle (f : DstFlow) (seq : Nat) : DstFlow :=
  match f.pos seq with
  | none => f
  | some n => if f.ahead.contains n then f else DstFlow.advance (f.ahead.length + 1) { f with ahead := n :: f.ahead }

/-- Whether a packet may be delivered: the packets of its own message below it are delivered (R273), and with FENCE set
every lower FLOW_SEQ of its flow is (R274). -/
def DstFlow.ready (f : DstFlow) (p : Packet) : Bool :=
  (p.first || f.delivered ((p.flowSeq + 65535) % 65536)) &&
  (!p.fence || f.group.isSome || f.pos p.flowSeq == some f.base)

def DstFlow.is (f : DstFlow) (src : Place) (group : Option Nat) : Bool := f.src == src && f.group == group

/-- The flow of a REQ packet at this slice; one not seen yet starts at 0. -/
def SliceState.dstFlow (x : SliceState) (src : Place) (group : Option Nat) : DstFlow :=
  match x.fabric.dst.find? fun f => f.is src group with
  | some f => f
  | none => { src := src, net := .req, group := group }

def SliceState.setDstFlow (x : SliceState) (f : DstFlow) : SliceState :=
  let rest := x.fabric.dst.filter fun g => !g.is f.src f.group
  { x with fabric := { x.fabric with dst := rest ++ [f] } }

/-- The group of a packet's flow: a multicast packet belongs to the flow of its group (R270, R290). -/
def Packet.group (p : Packet) : Option Nat := if p.opcode = opMCAST then some p.mgroup else none

/-- The message being received, as the flow knows it. -/
def DstFlow.msg (f : DstFlow) (id : Nat) : OpenMsg :=
  match f.msgs.find? fun m => m.msgId == id with
  | some m => m
  | none => { msgId := id }

def DstFlow.setMsg (f : DstFlow) (m : OpenMsg) : DstFlow :=
  { f with msgs := (f.msgs.filter fun o => o.msgId != m.msgId) ++ [m] }

/-- A message is complete: its answer is kept among the last 1,024 (R278). -/
def DstFlow.finish (f : DstFlow) (id : Nat) (ans : Packet) : DstFlow :=
  let c := (f.completed.filter fun k => k.1 != id) ++ [(id, ans)]
  { f with msgs := f.msgs.filter fun m => m.msgId != id, completed := c.drop (c.length - 1024) }

/-- Answer a request and keep the answer for its message (R276, R278). -/
def State.completeMsg (s : State) (sl : Nat) (req : Packet) (op opmod : Nat) (payload : Bytes) : State :=
  let f := (s.sl sl).dstFlow (Packet.src req) (Packet.group req)
  let echo := req.mark || (f.msg req.msgId).mark
  let ans := s.answerPacket sl req op opmod payload echo
  (s.sendAnswer sl req op opmod payload echo).onSl sl fun x =>
    x.setDstFlow ((x.dstFlow (Packet.src req) (Packet.group req)).finish req.msgId ans)

/-- Answer a request with NACK and keep that answer. -/
def State.nackMsg (s : State) (sl : Nat) (req : Packet) (reason off : Nat) : State :=
  s.completeMsg sl req opNACK reason (nackPayload reason off)

/-! ### Lost slices (R288) -/

/-- Whether a device already knows of a loss: marked, or a notice waits. -/
def State.lossKnown (s : State) (p : Place) : Bool :=
  s.pkg.notices.any (fun n => n.1 == p.node && n.2.1.testBit p.slice) ||
  (List.range 8).any fun i => (s.sl i).fabric.lost.contains p

/-- Payload of CTRL LOST (Table 10-9). -/
def lostPayload (job node mask : Nat) (eff : Drip) : Bytes :=
  leBytes 16 (field job 16 0 + field node 20 16 + field mask 8 36 + field eff.toNat 48 64)

/-- Payload of CTRL SKIP (Table 10-9). -/
def skipPayload (msgId first count : Nat) : Bytes := leBytes 16 (field msgId 16 0 + field first 16 16 + field count 16 32)

/-- A CTRL packet (R270): FLOW_SEQ and MSG_ID 0. A slice that is marked lost itself sends none for the job (R289). -/
def State.sendCtrl (s : State) (sl : Nat) (dst : Place) (opmod : Nat) (payload : Bytes) : State :=
  if s.silenced sl && s.job.isSome then s else
  s.routePacket sl .own none (sealPacket
    { opcode := opCTRL, epoch := s.pkg.routeActive, job := s.jobId, srcSlice := sl, srcNode := s.pkg.nodeId,
      dstNode := dst.node, dstSlice := dst.slice, opmod := opmod, plen := payload.length, payload := payload, msgId := 0, flowSeq := 0 })

/-- The slice that sends the device's notices: the lowest that is not marked lost (R288, R289). -/
def State.speaker (s : State) : Nat := ((List.range 8).find? fun i => !s.silenced i).getD 0

/-- The device detects slices of a node as lost: a notice goes to every node of the job for 16 drips hence (R288). -/
def State.detectLoss (s : State) (node mask : Nat) : State :=
  match s.job with
  | none => s
  | some j =>
    let new := ((List.range 8).filter fun k => mask.testBit k && !s.lossKnown { node := node, slice := k })
    if new.isEmpty then s
    else
      let m := (new.map fun k => 2 ^ k).sum
      let eff := s.now.plus 16
      let t := { s with pkg := { s.pkg with notices := s.pkg.notices ++ [(node, m, eff)] } }
      j.nodes.foldl (fun v n =>
        if n = s.pkg.nodeId then v else v.sendCtrl s.speaker { node := n, slice := 0 } 0 (lostPayload j.job node m eff)) t

/-- The slice serves: it passed its self-test, it has not failed as a unit, and it is not held in reset (R3, R472, R513). -/
def SliceState.serves (x : SliceState) : Bool :=
  x.present && !x.spares.failed.contains { kind := 0, index := 0 } && !x.power.heldInReset

/-- In MARKED mode every pair of slices of this node whose link is out of service and that has no relay loses its
higher-numbered slice (R18, R288). A slice that has failed as a unit takes its links with it: it is the slice that is lost, and the
others of its pairs go on, by R15 and R513, whatever their numbers (DESIGN CHOICE, log 148). -/
def State.cutPairs (s : State) : State :=
  if s.pkg.congestionMode = 0 || s.job.isNone then s
  else (List.range 8).foldl (fun v b => (List.range b).foldl (fun (w : State) a =>
    if (w.sl a).serves && (w.sl b).serves && !(w.innerUp a b && w.innerUp b a) && (w.relay a b).isNone then
      w.detectLoss w.pkg.nodeId (2 ^ b)
    else w) v) s

/-- The internal link between two slices has been lost for the job at either end (R18). -/
def State.pairLost (s : State) (a b : Nat) : Bool :=
  ((s.sl a).ilinks.getD b {}).jobLost || ((s.sl b).ilinks.getD a {}).jobLost

/-- A port that the eligible set of a node held has been lost for the job (R287). -/
def State.wayLost (s : State) (node : Nat) : Bool := s.slices.any fun x => x.ports.any fun l => l.lostFor.contains node

end Sys2Proof.Machine
end

