-- ==== Sys2Proof/Machine/Numerics.lean ====
section
/-! DEFINITION. Number formats, exact arithmetic and the rounding points of chapter 07. A value is exact until a rule
rounds it. -/

namespace Sys2Proof

/-- An exact value: NaN, an infinity, or plus or minus m times 2^e; a zero keeps its sign (R181). -/
inductive Num where
  | nan
  | inf (neg : Bool)
  | fin (neg : Bool) (m : Nat) (e : Int)
  deriving DecidableEq, Repr, Inhabited

/-- What a finite magnitude beyond the largest becomes: an infinity (R182), or the largest, with E4M3 and E5M2 writing
their own infinities (R183), or the largest with nothing else (MX element formats). -/
inductive Big where
  | ieee | sat
  deriving DecidableEq, Repr

/-- An element format (Table 07-2). `top` is the code of the largest finite magnitude; `infCode` the code of infinity. -/
structure Fmt where
  ebits : Nat
  frac : Nat
  bias : Nat
  top : Nat
  infCode : Option Nat
  nanCode : Option Nat
  big : Big
  /-- MX formats: emax of R184. -/
  emax : Option Nat := none
  deriving DecidableEq, Repr

/-- Bits of an element. -/
def Fmt.width (f : Fmt) : Nat := 1 + f.ebits + f.frac

def fE4M3 : Fmt := ⟨4, 3, 7, 0x7E, none, some 0x7F, .sat, none⟩
def fE5M2 : Fmt := ⟨5, 2, 15, 0x7B, some 0x7C, some 0x7E, .sat, none⟩
def fE3M2 : Fmt := ⟨3, 2, 3, 0x1F, none, none, .sat, some 4⟩
def fE2M3 : Fmt := ⟨2, 3, 1, 0x1F, none, none, .sat, some 2⟩
def fE2M1 : Fmt := ⟨2, 1, 1, 0x7, none, none, .sat, some 2⟩
def fBF16 : Fmt := ⟨8, 7, 127, 0x7F7F, some 0x7F80, some 0x7FC0, .ieee, none⟩
def fB16 : Fmt := ⟨5, 10, 15, 0x7BFF, some 0x7C00, some 0x7E00, .ieee, none⟩
def fB32 : Fmt := ⟨8, 23, 127, 0x7F7FFFFF, some 0x7F800000, some 0x7FC00000, .ieee, none⟩
def fW48 : Fmt := ⟨10, 37, 511, 0x7FDFFFFFFFFF, some 0x7FE000000000, some 0x7FF000000000, .ieee, none⟩

/-- The format of an element code (Table 07-1): ELEM codes 0 to 8, and 9 for binary32 (row-block code). -/
def fmtOf : Nat → Option Fmt
  | 0 => some { fE4M3 with emax := some 8 }
  | 1 => some { fE5M2 with emax := some 15 }
  | 2 => some fE4M3
  | 3 => some fE5M2
  | 4 => some fBF16
  | 5 => some fB16
  | 6 => some fE3M2
  | 7 => some fE2M3
  | 8 => some fE2M1
  | 9 => some fB32
  | _ => none

/-- Exponent of the least significant bit of the smallest subnormal. -/
def Fmt.emin (f : Fmt) : Int := 1 - (f.bias : Int) - f.frac

/-- Decode an element (R177). -/
def Fmt.decode (f : Fmt) (x : Nat) : Num :=
  let neg := x.testBit (f.ebits + f.frac)
  let c := x % 2 ^ (f.ebits + f.frac)
  if f.infCode = some c then .inf neg
  else if f.nanCode.isSome && f.top < c then .nan
  else
    let e := c / 2 ^ f.frac
    let m := c % 2 ^ f.frac
    if e = 0 then .fin neg m f.emin else .fin neg (m + 2 ^ f.frac) (f.emin + e - 1)

/-- m times 2^e rounded to nearest even into the grid of a format: the code of the magnitude, which may lie beyond `top`. -/
def Fmt.roundCode (f : Fmt) (m : Nat) (e : Int) : Nat :=
  if m = 0 then 0
  else
    let q := max f.emin (e + Nat.log2 m - f.frac)
    let n :=
      if q ≤ e then m <<< (e - q).toNat
      else
        let k := (q - e).toNat
        let t := m >>> k
        let r := m % 2 ^ k
        if 2 * r > 2 ^ k || (2 * r = 2 ^ k && t % 2 = 1) then t + 1 else t
    (q - f.emin).toNat * 2 ^ f.frac + n

/-- The sign bit of a format. -/
def Fmt.sign (f : Fmt) (neg : Bool) : Nat := if neg then 2 ^ (f.ebits + f.frac) else 0

/-- Round an exact value once into a format (R182, R183); the flag says that a finite value was saturated. -/
def Fmt.encode (f : Fmt) : Num → Nat × Bool
  | .nan => (f.nanCode.getD 0, false)
  | .inf s =>
    match f.infCode with
    | some c => (f.sign s + c, false)
    | none => (f.nanCode.getD 0, false)
  | .fin s m e =>
    let c := f.roundCode m e
    if c ≤ f.top then (f.sign s + c, false)
    else match f.big with
      | .ieee => (f.sign s + f.infCode.getD f.top, false)
      | .sat => (f.sign s + f.top, true)

/-- Not a finite value. -/
def Num.isNonfinite : Num → Bool
  | .fin _ _ _ => false
  | _ => true

def Num.neg : Num → Num
  | .nan => .nan
  | .inf s => .inf (!s)
  | .fin s m e => .fin (!s) m e

def Num.zero : Num := .fin false 0 0

/-- The signed integer of a value over 2^q, for q at most its exponent. -/
def Num.toIntAt (q : Int) : Num → Int
  | .fin s m e => let v : Int := (m <<< (e - q).toNat : Nat); if s then -v else v
  | _ => 0

/-- Exact sum; a zero sum is -0 only when both addends are -0 (R181). -/
def Num.add : Num → Num → Num
  | .nan, _ | _, .nan => .nan
  | .inf a, .inf b => if a = b then .inf a else .nan
  | .inf a, _ => .inf a
  | _, .inf b => .inf b
  | .fin s m e, .fin t n g =>
    if m = 0 && n = 0 then .fin (s && t) 0 0
    else
      let q := min e g
      let v := Num.toIntAt q (.fin s m e) + Num.toIntAt q (.fin t n g)
      .fin (decide (v < 0)) v.natAbs q

/-- Exact product (R185). -/
def Num.mul : Num → Num → Num
  | .nan, _ | _, .nan => .nan
  | .inf a, .inf b => .inf (a != b)
  | .inf a, .fin t n _ => if n = 0 then .nan else .inf (a != t)
  | .fin s m _, .inf b => if m = 0 then .nan else .inf (s != b)
  | .fin s m e, .fin t n g => .fin (s != t) (m * n) (e + g)

/-- Multiply by a power of two. -/
def Num.scale (k : Int) : Num → Num
  | .fin s m e => .fin s m (e + k)
  | x => x

/-- Exact sum of a list of products: NaN and infinities as R185 says; a zero sum is -0 only when every addend is -0 (R181), and
an empty sum is +0. -/
def Num.sum : List Num → Num
  | [] => .zero
  | x :: xs => xs.foldl Num.add x

/-- The numeric order of two values that are not NaN, +0 counting as larger than -0 (R196). -/
def Num.lt : Num → Num → Bool
  | .inf a, .inf b => a && !b
  | .inf a, .fin _ _ _ => a
  | .fin _ _ _, .inf b => !b
  | .fin s m e, .fin t n g =>
    if m = 0 && n = 0 then s && !t
    else let q := min e g; decide (Num.toIntAt q (.fin s m e) < Num.toIntAt q (.fin t n g))
  | _, _ => false

/-- A binary32 value. -/
abbrev F32 := BitVec 32

def F32.num (x : F32) : Num := fB32.decode x.toNat

/-- round32: round to nearest even into binary32 (R182). -/
def round32 (x : Num) : F32 := BitVec.ofNat 32 (fB32.encode x).1

def F32.isNaN (x : F32) : Bool := match F32.num x with | .nan => true | _ => false
def F32.add (x y : F32) : F32 := round32 ((F32.num x).add (F32.num y))
def F32.mul (x y : F32) : F32 := round32 ((F32.num x).mul (F32.num y))
def F32.sub (x y : F32) : F32 := round32 ((F32.num x).add (F32.num y).neg)
def F32.lt (x y : F32) : Bool := Num.lt (F32.num x) (F32.num y)

/-- The larger of two values; NaN when either is (R196). -/
def F32.max (x y : F32) : F32 :=
  if F32.isNaN x || F32.isNaN y then 0x7FC00000#32 else if F32.lt x y then y else x

def F32.min (x y : F32) : F32 :=
  if F32.isNaN x || F32.isNaN y then 0x7FC00000#32 else if F32.lt y x then y else x

/-! ### Division and roots -/

/-- a over b rounded to nearest even into binary32: extra bits and a sticky bit keep the rounding exact. -/
def ratio (neg : Bool) (a : Nat) (ae : Int) (b : Nat) (be : Int) : Num :=
  let k := 400
  let q := (a <<< k) / b
  let st := if (a <<< k) % b = 0 then 0 else 1
  .fin neg (2 * q + st) (ae - be - k - 1)

/-- Quotient of two binary32 values. -/
def F32.div (x y : F32) : F32 :=
  match F32.num x, F32.num y with
  | .nan, _ | _, .nan => 0x7FC00000#32
  | .inf _, .inf _ => 0x7FC00000#32
  | .inf a, .fin t _ _ => round32 (.inf (a != t))
  | .fin s _ _, .inf b => round32 (.fin (s != b) 0 0)
  | .fin s m e, .fin t n g =>
    if n = 0 then (if m = 0 then 0x7FC00000#32 else round32 (.inf (s != t)))
    else if m = 0 then round32 (.fin (s != t) 0 0)
    else round32 (ratio (s != t) m e n g)

/-- Integer square root by bits, from bit `n` down. -/
def isqrtFrom : Nat → Nat → Nat → Nat
  | 0, r, v => if (r + 1) * (r + 1) ≤ v then r + 1 else r
  | n + 1, r, v => let t := r + 2 ^ (n + 1); isqrtFrom n (if t * t ≤ v then t else r) v

def isqrt (v : Nat) : Nat := isqrtFrom (Nat.log2 v / 2 + 1) 0 v

/-! ### Transcendental operations (R198)

The manual bounds the error and fixes the special values. The result is one of the 2n floats that lie within n ulp of the
exact value; which one is Config.ulpPick, the same for every unit. Exact values are computed to 512 fraction bits. -/

def fixBits : Nat := 512

/-- Fixed-point product. -/
def fixMul (a b : Int) : Int := (a * b) / (2 ^ fixBits : Int)

/-- x as a fixed-point number, for a finite x. -/
def toFix : Num → Int
  | .fin s m e =>
    let v : Nat := if e + fixBits ≥ 0 then m <<< (e + fixBits).toNat else m >>> (-(e + fixBits)).toNat
    if s then -(v : Int) else v
  | _ => 0

/-- Taylor series of e^r: `n` more terms from the term `t` of index `k`. -/
def expTerms : Nat → Nat → Int → Int → Int → Int
  | 0, _, _, _, acc => acc
  | n + 1, k, r, t, acc => let t' := fixMul t r / (k : Int); expTerms n (k + 1) r t' (acc + t')

def squareTimes : Nat → Int → Int
  | 0, x => x
  | n + 1, x => squareTimes n (fixMul x x)

/-- e^x in fixed point, for x between -256 and 256. -/
def fixExp (x : Int) : Int :=
  let one : Int := 2 ^ fixBits
  squareTimes 10 (expTerms 70 1 (x / 1024) one one)

/-- Clamp a fixed-point number to plus or minus `b`. -/
def fixClamp (b : Nat) (x : Int) : Int :=
  let m : Int := (b : Int) * 2 ^ fixBits
  max (-m) (min m x)

/-- Series of 2 atanh(z): `n` more terms. -/
def atanhTerms : Nat → Nat → Int → Int → Int → Int
  | 0, _, _, _, acc => 2 * acc
  | n + 1, k, z2, p, acc => atanhTerms n (k + 2) z2 (fixMul p z2) (acc + p / (k : Int))

def fixLn2 : Int := let z : Int := 2 ^ fixBits / 3; atanhTerms 170 1 (fixMul z z) z 0

/-- ln of m times 2^e, m not 0. -/
def fixLog (m : Nat) (e : Int) : Int :=
  let k := Nat.log2 m
  let one : Int := 2 ^ fixBits
  let y : Int := if k ≤ fixBits then ((m <<< (fixBits - k) : Nat) : Int) else ((m >>> (k - fixBits) : Nat) : Int)
  let z := ((y - one) * one) / (y + one)
  atanhTerms 170 1 (fixMul z z) z 0 + (e + k) * fixLn2

/-- The binary32 magnitude code just below a positive fixed-point number. -/
def belowCode (v : Nat) : Nat :=
  if v = 0 then 0
  else
    let e : Int := -(fixBits : Int)
    let q := max fB32.emin (e + Nat.log2 v - 23)
    (q - fB32.emin).toNat * 2 ^ 23 + (v >>> (q - e).toNat)

/-- The highest code within n ulp of a number that lies at or just above code c: past the next binade the steps are twice an
ulp; the subnormal range and the first binade have one step. -/
def ulpHigh (c n : Nat) : Nat :=
  let b := max 2 (c / 2 ^ 23 + 1) * 2 ^ 23
  if c + n ≤ b then c + n else b + (c + n - b) / 2

/-- One of the floats within n ulp of a fixed-point number, by the part's own choice. `lo` keeps a result away from zero. -/
def pickUlp (op : Nat) (x : F32) (n : Nat) (lo : Nat) (v : Int) : F32 :=
  let c := belowCode v.natAbs
  let high := min 0x7F7FFFFF (ulpHigh c n)
  let low := max lo (c + 1 - n)
  BitVec.ofNat 32 (fB32.sign (decide (v < 0)) + (low + Config.ulpPick op x % max 1 (high + 1 - low)))

/-- A float kept within n ulp of a fixed-point number of its own sign: the nearest end of what the bound allows; a number past
the format's range is an infinity. -/
def clampUlp (n : Nat) (v : Int) (r : F32) : F32 :=
  let c := belowCode v.natAbs
  BitVec.ofNat 32 (r.toNat / 2 ^ 31 * 2 ^ 31 +
    max (min 0x7F800000 (c + 1 - n)) (min (min 0x7F800000 (ulpHigh c n)) (r.toNat % 2 ^ 31)))

def nan32 : F32 := 0x7FC00000#32
def inf32 : F32 := 0x7F800000#32
def one32 : F32 := 0x3F800000#32

/-- A fixed-point number as an exact value. -/
def fixNum (v : Int) : Num := .fin (decide (v < 0)) v.natAbs (-(fixBits : Int))

/-- EXP: within 1 ulp; its overflow and underflow switch points are exact (R198). -/
def F32.exp (x : F32) : F32 :=
  match F32.num x with
  | .nan => nan32
  | .inf s => if s then 0#32 else inf32
  | y =>
    let v := fixExp (fixClamp 200 (toFix y))
    let r := round32 (fixNum v)
    if r = inf32 then inf32 else if r = 0#32 then 0#32 else pickUlp 0x10 x 1 1 v

/-- The logistic function of a number, in fixed point. Below -200 it is less than 2^-288, which no binary32 product lifts to half a
subnormal step once the number itself is a factor. -/
def fixSigmoid (y : Num) : Int :=
  let v := if toFix y < -(200 * 2 ^ fixBits) then 0 else fixExp (fixClamp 200 (toFix y))
  (v * 2 ^ fixBits) / (2 ^ fixBits + v)

/-- SIGMOID: within 2 ulp. -/
def F32.sigmoid (x : F32) : F32 :=
  match F32.num x with
  | .nan => nan32
  | .inf s => if s then 0#32 else one32
  | .fin s m e =>
    if m = 0 then 0x3F000000#32
    else pickUlp 0x11 x 2 0 (fixSigmoid (.fin s m e))

/-- SILU: round32 of a times SIGMOID(a) (Table 07-5), within 3 ulp of the exact value (Table 07-6). -/
def F32.silu (x : F32) : F32 :=
  match F32.num x with
  | .nan => nan32
  | .inf s => if s then 0x80000000#32 else inf32
  | .fin s m e =>
    if m = 0 then round32 (.fin s 0 0)
    else clampUlp 3 (fixMul (toFix (.fin s m e)) (fixSigmoid (.fin s m e))) (F32.mul x (F32.sigmoid x))

/-- SWIGLU: round32 of SILU(a) times b (Table 07-5), within 4 ulp of the exact value (Table 07-6). -/
def F32.swiglu (x y : F32) : F32 :=
  let r := F32.mul (F32.silu x) y
  match F32.num x, F32.num y with
  | .fin s m e, .fin t k f =>
    if m = 0 ∨ k = 0 then r
    else clampUlp 4 (fixMul (fixMul (toFix (.fin s m e)) (fixSigmoid (.fin s m e))) (toFix (.fin t k f))) r
  | _, _ => r

/-- TANH: within 2 ulp. -/
def F32.tanh (x : F32) : F32 :=
  match F32.num x with
  | .nan => nan32
  | .inf s => if s then 0xBF800000#32 else one32
  | .fin s m e =>
    if m = 0 then round32 (.fin s 0 0)
    else
      let one : Int := 2 ^ fixBits
      let v := fixExp (fixClamp 100 (2 * toFix (.fin s m e)))
      pickUlp 0x13 x 2 0 (((v - one) * one) / (v + one))

/-- LOG: within 1 ulp. -/
def F32.log (x : F32) : F32 :=
  match F32.num x with
  | .nan => nan32
  | .inf s => if s then nan32 else inf32
  | .fin s m e =>
    if m = 0 then 0xFF800000#32
    else if s then nan32
    else if x = one32 then 0#32
    else pickUlp 0x14 x 1 0 (fixLog m e)

/-- RSQRT: within 1 ulp. -/
def F32.rsqrt (x : F32) : F32 :=
  match F32.num x with
  | .nan => nan32
  | .inf s => if s then nan32 else 0#32
  | .fin s m e =>
    if m = 0 then (if s then 0xFF800000#32 else inf32)
    else if s then nan32
    else
      -- 1/sqrt(m 2^e) = sqrt(2^(2K) / m') / 2^(K + e'/2), with e made even
      let odd := e % 2 = 1
      let m' := if odd then 2 * m else m
      let e' := if odd then e - 1 else e
      let r := isqrt ((2 ^ 1400) / m')
      let sh : Int := fixBits - 700 - e' / 2
      let v : Nat := if sh ≥ 0 then r <<< sh.toNat else r >>> (-sh).toNat
      pickUlp 0x15 x 1 1 v

/-- RECIP: correctly rounded. -/
def F32.recip (x : F32) : F32 := F32.div one32 x

/-! ### Rows, blocks and scales (R117, R178, R184) -/

/-- Whether a format code is an MX format: 0, 1, 6, 7, 8. -/
def isMX (c : Nat) : Bool := c == 0 || c == 1 || c == 6 || c == 7 || c == 8

/-- Bytes of an element in rows: 1 for FP8 and MXFP8, 2 for BF16 and binary16, 4 for binary32. -/
def elemBytes : Nat → Nat
  | 4 | 5 => 2
  | 9 => 4
  | _ => 1

/-- The value of an MX element under its scale byte (R178). -/
def mxValue (f : Fmt) (code scale : Nat) : Num :=
  if scale = 0xFF then .nan else (f.decode code).scale ((scale : Int) - 127)

/-- floor(log2 m) of m times 2^e. -/
def floorLog2 (m : Nat) (e : Int) : Int := e + Nat.log2 m

/-- Magnitude order. -/
def Num.absMax : List Num → Nat × Int
  | [] => (0, 0)
  | .fin _ m e :: xs =>
    let (n, g) := Num.absMax xs
    if m = 0 then (n, g) else if n = 0 then (m, e)
    else if Num.lt (.fin false n g) (.fin false m e) then (m, e) else (n, g)
  | _ :: xs => Num.absMax xs

/-- An MX block of 32 values: scale byte, element codes, elements saturated, and whether it held a non-finite (R184). -/
def mxEncode (f : Fmt) (v : List Num) : Nat × List Nat × Nat × Bool :=
  if v.any Num.isNonfinite then (0xFF, v.map fun _ => 0, 0, true)
  else
    let (m, e) := Num.absMax v
    let x0 : Int := if m = 0 then -127 else floorLog2 m e - f.emax.getD 0
    let x := max (-127) (min 127 x0)
    let r := v.map fun y => f.encode (y.scale (-x))
    ((x + 127).toNat, r.map (·.1), (r.filter (·.2)).length, false)

/-- What writing values wrote: bytes, elements saturated, and whether an infinity, a NaN or a non-finite block was written. -/
structure Written where
  bytes : Bytes
  sat : Nat := 0
  nonfinite : Bool := false
  deriving DecidableEq, Repr

/-- The values of a format with no scales. -/
def encodePlain (c : Nat) (v : List Num) : Written :=
  match fmtOf c with
  | none => { bytes := [] }
  | some f =>
    let r := v.map f.encode
    { bytes := (r.map fun x => leBytes (elemBytes c) x.1).flatten
      sat := (r.filter (·.2)).length
      nonfinite := r.any fun x => (f.decode x.1).isNonfinite }

/-- Split a list into pieces of `k`, with fuel. -/
def chunksOf {α : Type} (k : Nat) : Nat → List α → List (List α)
  | 0, _ => []
  | _, [] => []
  | n + 1, xs => xs.take k :: chunksOf k n (xs.drop k)

def pieces {α : Type} (k : Nat) (xs : List α) : List (List α) := chunksOf k xs.length xs

/-- The MX blocks of a row: element bytes and scale bytes apart. A short block is completed with +0 (R184). -/
def encodeMX (c : Nat) (v : List Num) : Bytes × Bytes × Nat × Bool :=
  match fmtOf c with
  | none => ([], [], 0, false)
  | some f =>
    let bs := (pieces 32 v).map fun b => mxEncode f (b ++ List.replicate (32 - b.length) Num.zero)
    (((bs.map fun b => b.2.1).flatten).map (BitVec.ofNat 8), bs.map fun b => BitVec.ofNat 8 b.1,
      (bs.map fun b => b.2.2.1).sum, bs.any fun b => b.2.2.2)

/-- A row in the dense row format: elements, then scales, padded to 32 bytes (R117). -/
def encodeRow (c : Nat) (v : List Num) : Written :=
  if isMX c then
    let (el, sc, sat, nf) := encodeMX c v
    { bytes := padTo 32 (el ++ sc), sat := sat, nonfinite := nf }
  else
    let w := encodePlain c v
    { w with bytes := padTo 32 w.bytes }

/-- Bytes of a dense row of n elements before the padding, and with it (R117). -/
def rowData (c n : Nat) : Nat := if isMX c then roundUp n 32 + ceilDiv n 32 else n * elemBytes c
def rowBytes (c n : Nat) : Nat := roundUp (rowData c n) 32

/-- The n values of a dense row (R117, R178, R179). -/
def decodeRow (c n : Nat) (b : Bytes) : List Num :=
  match fmtOf c with
  | none => []
  | some f =>
    let w := elemBytes c
    (List.range n).map fun i =>
      let code := leNat ((b.drop (i * w)).take w)
      if isMX c then mxValue f code ((b.getD (roundUp n 32 + i / 32) 0).toNat) else f.decode code

/-- Decode to binary32; an MX value beyond the range becomes an infinity (R179). -/
def toF32 (v : List Num) : List F32 := v.map round32

/-! ### Reductions (R197) -/

/-- Combine adjacent pairs once; a member without a partner stays. -/
def pairUp {α : Type} (f : α → α → α) : List α → List α
  | a :: b :: xs => f a b :: pairUp f xs
  | xs => xs

/-- The tree of one block of up to 128 lanes: seven levels. -/
def treeFold {α : Type} (f : α → α → α) : Nat → List α → List α
  | 0, xs => xs
  | n + 1, xs => treeFold f n (pairUp f xs)

/-- A reduction over blocks of `k` elements in the order of R197. -/
def reduceBy (f : F32 → F32 → F32) (k : Nat) (xs : List F32) : F32 :=
  let bs := (pieces k xs).map fun b => (treeFold f 7 b).headD 0
  match bs with
  | [] => 0
  | b :: rest => rest.foldl f b

/-! ### Stochastic rounding (R190, R191) -/

def philoxRound (c : Nat × Nat × Nat × Nat) (k : Nat × Nat) : Nat × Nat × Nat × Nat :=
  let p0 := 0xD2511F53 * c.1
  let p1 := 0xCD9E8D57 * c.2.2.1
  ((p1 >>> 32) ^^^ c.2.1 ^^^ k.1, p1 % 2 ^ 32, (p0 >>> 32) ^^^ c.2.2.2 ^^^ k.2, p0 % 2 ^ 32)

def philoxRounds : Nat → Nat × Nat → Nat × Nat × Nat × Nat → Nat × Nat × Nat × Nat
  | 0, _, c => c
  | n + 1, k, c =>
    philoxRounds n ((k.1 + 0x9E3779B9) % 2 ^ 32, (k.2 + 0xBB67AE85) % 2 ^ 32) (philoxRound c k)

/-- The random value of one element of a PARTIAL drain (R191). -/
def philoxR (seed : Nat) (tileId row col drain : Nat) : Nat :=
  (philoxRounds 10 (seed % 2 ^ 32, (seed >>> 32) % 2 ^ 32)
    (tileId % 2 ^ 32, (tileId >>> 32) % 2 ^ 16, (row % 16 + (col <<< 4)) % 2 ^ 32, drain % 2 ^ 32)).1 % 2 ^ 16

/-- PARTIAL conversion of a binary32 value to BF16 (R190). -/
def partialBF16 (x : F32) (r : Nat) : Nat :=
  let sgn := if x.toNat.testBit 31 then 0x8000 else 0
  match F32.num x with
  | .nan => 0x7FC0
  | .inf _ => sgn + 0x7F80
  | .fin _ _ _ => sgn + min 0x7F80 ((x.toNat % 2 ^ 31 + r) >>> 16)

end Sys2Proof
end

