-- ==== Sys2Proof/Machine/Pools.lean ====
section
/-! DEFINITION. The rimstone pool manager (chapter 09): allocation, DONE and FREE, tear-down, load, and its own commands. -/

namespace Sys2Proof.Machine

/-- Buffer sizes of classes 0 to 5 (Table 09-1). -/
def classSize (c : Nat) : Nat := [256, 1024, 4096, 16384, 65536, 262144].getD c 0

def Pools.cls (p : Pools) (c : Nat) : PoolClass := p.classes.getD c {}
def Pools.owner (p : Pools) (o : Nat) : OwnerDecl := p.owners.getD o {}
def ownerRes (d : OwnerDecl) (c : Nat) : Nat := d.reserve.getD c 0
def ownerLim (d : OwnerDecl) (c : Nat) : Nat := d.limit.getD c 0

/-- Buffers of class c that are allocated; FREE[c]; HELD[o][c]; UNUSED[c] (R239). -/
def Pools.used (p : Pools) (c : Nat) : Nat := (p.bufs.filter fun b => b.cls == c && b.alloc).length
def Pools.free (p : Pools) (c : Nat) : Nat := (p.cls c).count - p.used c
def Pools.held (p : Pools) (o c : Nat) : Nat := (p.bufs.filter fun b => b.cls == c && b.alloc && b.owner == o).length
def Pools.unused (p : Pools) (c : Nat) : Nat :=
  ((List.range 64).map fun o => ownerRes (p.owner o) c - p.held o c).sum

/-- The buffer record of class c, number i. -/
def Pools.buf? (p : Pools) (c i : Nat) : Option Buf := p.bufs.find? fun b => b.cls == c && b.idx == i
def Pools.isFree (p : Pools) (c i : Nat) : Bool := match p.buf? c i with | some b => !b.alloc | none => true

/-- The lowest-numbered free buffer of a class: some number up to the count of allocated ones is free. -/
def Pools.lowestFree (p : Pools) (c : Nat) : Option Nat :=
  (List.range (min (p.cls c).count (p.used c + 1))).find? fun i => p.isFree c i

/-- OFFSET of buffer i of class c (R236). -/
def Pools.offset (p : Pools) (c i : Nat) : Nat := (p.cls c).base + i * classSize c

/-- The handle of Table 09-3. -/
def handleWord (off c gen : Nat) : Word := BitVec.ofNat 64 (field off 41 0 + field c 3 41 + field gen 8 44)

/-- The outcome of an allocation request (R239). -/
inductive AllocResult where
  | granted (h : Word) (c i : Nat)
  | exhausted
  | unitArg
  deriving DecidableEq, Repr

/-- The class in which an owner is granted n bytes, if any: from the smallest that fits upward (R239). -/
def Pools.grantClass (p : Pools) (o n : Nat) : Option Nat :=
  ((List.range 6).filter fun c => n ≤ classSize c).find? fun c =>
    (decide (p.held o c < ownerRes (p.owner o) c) || (decide (p.held o c < ownerLim (p.owner o) c) && decide (p.unused c < p.free c))) &&
    (p.lowestFree c).isSome

/-- The smallest class that fits n bytes. -/
def firstClass (n : Nat) : Nat := (((List.range 6).find? fun c => n ≤ classSize c)).getD 6

/-- Requests under an owner are served: the pools are configured and the owner is declared (R237, R248). -/
def Pools.serves (p : Pools) (o : Nat) : Bool := p.configured && (p.owner o).kind != 0

/-- Allocate under an owner with an owner list and a context tag (R239, R243, R244). -/
def Pools.alloc (p : Pools) (o n : Nat) (list : List Nat) (ctx : Nat) : AllocResult × Pools :=
  if !p.configured || n = 0 || n > 262144 || (p.owner o).kind = 0 then (.unitArg, p)
  else
    match p.grantClass o n with
    | none => (.exhausted, { p with exhausted := p.exhausted + 1 })
    | some c =>
      match p.lowestFree c with
      | none => (.exhausted, { p with exhausted := p.exhausted + 1 })
      | some i =>
        let old := p.buf? c i
        let gen := match old with | some b => b.gen | none => 0
        let torn := match old with | some b => b.torn | none => false
        let b : Buf := { cls := c, idx := i, alloc := true, owner := o, list := list, gen := gen, torn := torn, ctx := ctx }
        let bufs := match old with
          | some _ => p.bufs.map fun x => if x.cls == c && x.idx == i then b else x
          | none => p.bufs ++ [b]
        let q := { p with bufs := bufs, allocs := p.allocs + 1, fallbacks := p.fallbacks + b2n (firstClass n != c) }
        let fr := q.free c
        (.granted (handleWord (p.offset c i) c gen) c i,
          { q with classes := q.classes.modify c fun k => { k with lowFree := min k.lowFree fr } })

/-- Release a buffer: GEN advances, and TORN is set by a tear-down and cleared by any other release (R244, R247). -/
def Pools.release (p : Pools) (c i : Nat) (torn : Bool) : Pools :=
  { p with bufs := p.bufs.map fun b =>
      if b.cls == c && b.idx == i && b.alloc then { b with alloc := false, gen := (b.gen + 1) % 256, done := 0, torn := torn }
      else b }

/-- The buffer a handle names by class and offset. -/
def Pools.named (p : Pools) (h : Nat) : Option (Nat × Nat) :=
  let c := bits h 43 41
  let off := bits h 40 0
  let k := p.cls c
  if c < 6 ∧ k.base ≤ off ∧ (off - k.base) % classSize c = 0 ∧ (off - k.base) / classSize c < k.count
  then some (c, (off - k.base) / classSize c) else none

/-- The allocated buffer of a handle: class, offset and generation match (Table 09-4). -/
def Pools.match? (p : Pools) (h : Nat) : Option Buf :=
  match p.named h with
  | none => none
  | some (c, i) =>
    match p.buf? c i with
    | some b => if b.alloc && b.gen == bits h 51 44 then some b else none
    | none => none

/-- Position of an owner on a list. -/
def ownerIndex (l : List Nat) (o : Nat) : Option Nat := l.findIdx? (· == o)

/-- Why DONE or FREE is rejected (Table 09-4), or none. -/
def judgeDoneFree (p : Pools) (isFree : Bool) (o h : Nat) : Option Nat :=
  match p.match? h with
  | none => some 2
  | some b =>
    match ownerIndex b.list o with
    | none => some 3
    | some k =>
      let tail := k + 1 = b.list.length
      if isFree then
        if !tail then some 0
        else if b.done + 1 = 2 ^ (b.list.length - 1) then none
        else some 1
      else if tail then some 4
      else if b.done.testBit k then some 5
      else none

/-- A rejection after a tear-down: TORN is set and GEN is the one that release ended (R245). -/
def Pools.staleTorn (p : Pools) (h : Nat) : Bool :=
  match p.named h with
  | none => false
  | some (c, i) =>
    match p.buf? c i with
    | some b => b.torn && decide (bits h 51 44 = (b.gen + 255) % 256)
    | none => false

/-- POOL_LAST_REJECT (Table 09-10). -/
def rejectWord (h o : Nat) (isFree : Bool) (reason : Nat) : Nat :=
  field h 52 0 + field o 6 52 + field (b2n isFree) 1 58 + field reason 3 59 + 2 ^ 63

/-- DONE or FREE by an owner (R244, R245): whether it was accepted, and the slice after it with its error record. -/
def State.doneFree (s : State) (sl : Nat) (isFree : Bool) (o h : Nat) : Bool × State :=
  let p := (s.sl sl).pools
  match judgeDoneFree p isFree o h with
  | none =>
    match p.match? h with
    | none => (false, s)
    | some b =>
      let q := if isFree then p.release b.cls b.idx false
        else { p with bufs := p.bufs.map fun x =>
          if x.cls == b.cls && x.idx == b.idx then { x with done := x.done ||| 2 ^ ((ownerIndex b.list o).getD 0) } else x }
      (true, s.onSl sl fun x => { x with pools := q })
  | some r =>
    if r = 2 && p.staleTorn h then (false, s.onSl sl fun x => { x with pools := { x.pools with stale := x.pools.stale + 1 } })
    else
      let b := p.match? h
      let tail := match b with | some b => b.list.getLastD 0 | none => 0
      let done := match b with | some b => b.done | none => 0
      let t := s.onSl sl fun x => { x with pools := { x.pools with
        rejected := x.pools.rejected + 1, lastReject := rejectWord h o isFree r } }
      (false, t.report sl (mkReport 0x0B 5 0 0 255 [h, o, tail, field done 7 0 + field r 3 8]))

/-- Tear-down of a context: every buffer tagged with it is released and marked TORN (R247). -/
def Pools.tearDown (p : Pools) (ctx : Nat) : Pools :=
  { p with bufs := p.bufs.map fun b =>
      if b.alloc && b.ctx == ctx then { b with alloc := false, gen := (b.gen + 1) % 256, done := 0, torn := true } else b }

/-- Unload: every buffer released, no class and no owner in force, the registers at their reset values (R248, R250). -/
def Pools.unload (p : Pools) : Pools :=
  { p with
    bufs := [], owners := [], waits := [], configured := false, classes := List.replicate 6 {}, ownerSel := 0, lastReject := 0 }

/-- Job load: accounts cleared, the image's classes and owners in force, then its load-time allocations in ascending
owner number and image order (R248). The counters of R251 are reset. -/
def Pools.load (classes : List (Nat × Nat)) (owners : List OwnerDecl) (allocs : List (Nat × Nat)) : Pools :=
  let p : Pools :=
    { classes := (List.range 6).map fun c => let k := classes.getD c (0, 0); { base := k.1, count := k.2, lowFree := k.2 }
      owners := owners, configured := true }
  (List.range 64).foldl (fun q o =>
    (allocs.filter fun a => a.1 == o).foldl (fun r a => (r.alloc o a.2 [o] 255).2) q) p

/-- The retry of one waiting ALLOC (R242). -/
def retryWait (sl : Nat) (s : State) (w : PoolWait) : State :=
  match (s.sl sl).pools.alloc w.owner w.bytes w.list w.ctx with
  | (.granted h _ _, q) =>
    s.onSl sl fun x =>
      ({ x with pools := { q with waits := q.waits.filter (· != w) } }).onThread w.engine w.thread fun t =>
        (t.setReg w.reg h).wake
  | (_, _) => s

/-- POOL_RETRY (R242): the queued ALLOCs are retried in queue order; one still refused keeps its place. -/
def execPoolRetry (sl : SliceId) (s : State) : Out :=
  .next ((s.sl sl).pools.waits.foldl (retryWait sl) s)

/-- POOL_LOW_RESET (R250): every LOW_FREE becomes its FREE. -/
def execPoolLowReset (sl : SliceId) (s : State) : Out :=
  .next (s.onSl sl fun x =>
    let p := x.pools
    { x with pools := { p with classes := (List.range 6).map fun c => { p.cls c with lowFree := p.free c } } })

/-- POOL_REJECT_CLEAR (R250): writing 1 to VALID clears it; the other fields are read-only and stay. -/
def execPoolRejectClear (sl : SliceId) (s : State) : Out :=
  .next (s.onSl sl fun x => { x with pools := { x.pools with lastReject := x.pools.lastReject % 2 ^ 63 } })

end Sys2Proof.Machine
end

