-- ==== Sys2Proof/Machine/TierOps.lean ====
section
/-! DEFINITION. Operations on the memory tiers that several families share: the offset map (R205, R206), the residency
table (R214 to R216), the view (R217), frames of the resident pool (R218 to R220) and fetches (R221 to R230). -/

namespace Sys2Proof.Machine

/-- Insertion into a sorted list, and the sort it gives. -/
def insertBy {α : Type} (lt : α → α → Bool) (x : α) : List α → List α
  | [] => [x]
  | y :: ys => if lt x y then x :: y :: ys else y :: insertBy lt x ys
def sortBy {α : Type} (lt : α → α → Bool) (xs : List α) : List α := xs.foldr (insertBy lt) []

/-! ### The slice offset map (Table 08-2) -/

inductive Region where
  | hbm | window | staging | chamber (q : Nat) | routing (e : Nat) | exchange | sump | reserved
  deriving DecidableEq, Repr

def regionOf (a : Nat) : Region :=
  if a < 0x4000000000 then .hbm
  else if a < 0x6000000000 then .window
  else if a < 0x7F00000000 then .reserved
  else if a < 0x7F02000000 then .staging
  else if 0x7F10000000 ≤ a ∧ a < 0x7F20000000 then
    (if (a - 0x7F10000000) % 0x2000000 < 0x1800000 then .chamber ((a - 0x7F10000000) / 0x2000000) else .reserved)
  else if 0x7F20000000 ≤ a ∧ a < 0x7F24000000 then .routing ((a - 0x7F20000000) / 0x1000000)
  else if 0x7F40000000 ≤ a ∧ a < 0x7F80000000 then .exchange
  else if 0x8000000000 ≤ a ∧ a < 0x20000000000 then .sump
  else .reserved

/-- Whether a range lies wholly in memory that one predicate allows, at both ends and within one region. -/
def inRegion (a n : Nat) (r : Region) : Bool := regionOf a == r && (n == 0 || regionOf (a + n - 1) == r)

/-- HBM of the device region (Table 08-4). -/
def deviceRegion (a n : Nat) : Bool := decide (0x3FC0000000 < a + n) && decide (a < 0x4000000000)

/-- A range within the state region of a slice. -/
def Tiers.inState (t : Tiers) (a n : Nat) : Bool := decide (t.stateBase ≤ a) && decide (a + n ≤ t.stateBase + t.stateBytes)
def Tiers.inWeight (t : Tiers) (a n : Nat) : Bool := decide (a < t.weightBase + t.weightBytes) && decide (t.weightBase < a + n)

/-- Partitions of a slice's HBM as (base, bytes): weight, state, pool and pool classes 4 and 5 (Table 08-4). -/
def SliceState.partitions (x : SliceState) : List (Nat × Nat) :=
  [(x.tiers.weightBase, x.tiers.weightBytes), (x.tiers.stateBase, x.tiers.stateBytes),
   (x.tiers.poolBase, x.tiers.poolFrames * x.tiers.frameBytes),
   ((x.pools.cls 4).base, (x.pools.cls 4).count * classSize 4), ((x.pools.cls 5).base, (x.pools.cls 5).count * classSize 5)]

/-- A range in HBM outside every partition and the device region: free space (R210). -/
def SliceState.hbmFree (x : SliceState) (a n : Nat) : Bool :=
  inRegion a n .hbm && !deviceRegion a n &&
  x.partitions.all fun p => decide (a + n ≤ p.1) || decide (p.1 + p.2 ≤ a) || p.2 == 0

/-! ### The residency table (Table 08-6) -/

def resWord (e : ResEntry) : Nat :=
  field e.state 3 0 + field (b2n e.pinned) 1 3 + field (b2n e.pool) 1 4 + field e.lastFail 8 8 + field e.frame 16 16 +
  field e.window 16 32 + field e.lastUse.toNat 48 64 + field e.sumpAddr 41 128 + field e.tiles 16 192 +
  field e.imageBytes 32 208

def resOffset (base : Nat) (e : ResEntry) : Nat := base + (512 * e.layer + 64 * e.quad + e.slot) * 32

def resIs (e : ResEntry) (layer : Nat) (x : SlotRef) : Bool :=
  e.layer == layer && e.quad == x.quad && e.slot == x.slot

/-- Change the entries a predicate picks, in the table and in its bytes at RESIDENCY_BASE (R215). -/
def SliceState.onRes (x : SliceState) (p : ResEntry → Bool) (f : ResEntry → ResEntry) : SliceState :=
  let res := x.tiers.res.map fun e => if p e then f e else e
  let y := { x with tiers := { x.tiers with res := res } }
  ((x.tiers.res.filter p).map f).foldl (fun z e => z.store (resOffset x.tiers.residencyBase e) (leBytes 32 (resWord e))) y

/-- The residency state of a slot: a weight-homed slot is always RESIDENT (R216). -/
def Tiers.stateOf (t : Tiers) (layer : Nat) (s : SlotRef) : Nat :=
  match t.entry? layer s with
  | some e => if e.pool then e.state else 4
  | none => 4

/-- The code a view holds for a replica; weight-homed replicas hold 3 in every view (R217). -/
def viewCodeIn (view : List ViewCode) (pl : Place) (layer : Nat) (s : SlotRef) : Nat :=
  match view.find? fun v => v.place == pl && v.layer == layer && v.slot == s with
  | some v => v.code
  | none => 3
def Tiers.viewCode (t : Tiers) (pl : Place) (layer : Nat) (s : SlotRef) : Nat := viewCodeIn t.view pl layer s

/-! ### Windows and frames (R218 to R220) -/

/-- Frames that hold or are taking a copy, and those evicted and not released. -/
def Tiers.framesUsed (t : Tiers) : List Nat :=
  ((t.res.filter fun e => e.pool && (e.state == 3 || e.state == 4)).map (·.frame)) ++ t.fetches.map (·.frame) ++ t.releasing

/-- The released frame with the lowest number (R220). -/
def Tiers.freeFrame (t : Tiers) : Option Nat :=
  (List.range t.poolFrames).find? fun f => !t.framesUsed.contains f

/-- The HBM offset of a window offset under the mapping of the slot that owns the window, if it is mapped (R218). -/
def Tiers.windowAddr (t : Tiers) (a : Nat) : Option Nat :=
  if t.frameBytes = 0 then none
  else
    let w := (a - 0x4000000000) / t.frameBytes
    match t.res.find? fun e => e.pool && e.window == w with
    | some e => if e.state = 3 || e.state = 4 then some (t.poolBase + e.frame * t.frameBytes + (a - 0x4000000000) % t.frameBytes)
                else none
    | none => none

/-- The slot a window offset belongs to. -/
def Tiers.windowSlot (t : Tiers) (a : Nat) : Option ResEntry :=
  if t.frameBytes = 0 then none
  else t.res.find? fun e => e.pool && e.window == (a - 0x4000000000) / t.frameBytes

/-- The memory that a range stands for: pieces of address and length. -/
abbrev Parts := List (Nat × Nat)

/-- A range of resident pool windows, cut where one window ends and the next begins: each part goes to its own frame, under the
mapping given. None where a part is unmapped (R218). `fuel` bounds the parts. -/
def cutWindows (fb : Nat) (map : Nat → Option Nat) : Nat → Nat → Nat → Option Parts
  | 0, _, _ => some []
  | fuel + 1, a, n =>
    let c := min n (fb - (a - 0x4000000000) % fb)
    if n = 0 then some []
    else match map a, cutWindows fb map fuel (a + c) (n - c) with
      | some b, some r => some ((b, c) :: r)
      | _, _ => none

/-- A range of windows under a mapping of window offsets to HBM offsets. -/
def Tiers.windowParts (t : Tiers) (map : Nat → Option Nat) (a n : Nat) : Option Parts :=
  if !inRegion a n .window || t.frameBytes == 0 then none else cutWindows t.frameBytes map (n / t.frameBytes + 2) a n

/-- The memory that a reader reaches at a range of slice offsets: windows are translated, others stay; none where a byte is
reserved or unmapped (R205, R206, R218). -/
def SliceState.ranges? (x : SliceState) (a n : Nat) : Option Parts :=
  match regionOf a with
  | .window => x.tiers.windowParts x.tiers.windowAddr a n
  | .reserved => none
  | .exchange => none
  | .sump => if inRegion a n .sump && decide (a + n - 0x8000000000 ≤ x.sump.capacity) then some [(a, n)] else none
  | r => if inRegion a n r then some [(a, n)] else none

/-- The bytes of a list of parts. -/
def SliceState.loadRanges (x : SliceState) (rs : Parts) : Bytes := (rs.map fun r => x.load r.1 r.2).flatten

/-- The bytes at a readable range. -/
def SliceState.readBytes? (x : SliceState) (a n : Nat) : Option Bytes := (x.ranges? a n).map x.loadRanges

/-- The parts that bytes o to o + n - 1 of a list of parts stand for. -/
def subParts : Parts → Nat → Nat → Parts
  | [], _, _ => []
  | (a, l) :: rs, o, n =>
    if n = 0 then []
    else if l ≤ o then subParts rs (o - l) n
    else (a + o, min n (l - o)) :: subParts rs 0 (n - min n (l - o))

/-- Whether a word of the parts is poisoned. -/
def SliceState.poisonedIn (x : SliceState) (rs : Parts) : Bool := rs.any fun r => x.poisoned r.1 r.2

/-- Poison goes with copied words: that which the parts had in state x stands at the bytes from d on in state y (R149). -/
def SliceState.copyPoisonOf (y x : SliceState) (rs : Parts) (d : Nat) : SliceState :=
  (rs.foldl (fun (z : SliceState × Nat) r =>
    (((x.poison.filter fun c => decide (c < r.1 + r.2) && decide (r.1 < c + 8)).foldl
      (fun u c => u.poisonRange (max c r.1 - r.1 + z.2) (min (c + 8) (r.1 + r.2) - max c r.1)) z.1), z.2 + r.2)) (y, d)).1

/-! ### Fetches (R221 to R230) -/

/-- Bytes a fetch moves: the tiles and a 32-byte tag each (R222, R229). -/
def fetchBytes (e : ResEntry) : Nat := e.imageBytes + 32 * e.tiles

/-- Bytes per drip that the scheduled prefetch stages of a slice reserve at a drip, in the frame of the drip and every other one
(R223, R224). -/
def State.prefetchReserved (s : State) (sl : Nat) (d : Drip) : Nat :=
  let x := s.sl sl
  let n := match s.job with | some j => max 1 j.frameLen | none => 1
  let at_ := (d - s.frame).toNat % n
  (((s.img sl).entries.filter fun e => e.kind == .prefetch && decide (e.launch ≤ at_) && decide (at_ < e.launch + e.duration)).map fun e =>
    let b := (e.f.prefetch.map fun r => match x.tiers.entry? r.1 r.2 with | some k => fetchBytes k | none => 0).sum
    ceilDiv b (max 1 e.duration)).sum

/-- The projection of R224, with fuel: the first drip at which nothing is left. -/
def State.projectFrom (s : State) (sl : Nat) : Nat → Drip → Nat → Drip
  | 0, d, _ => d
  | n + 1, d, left =>
    if left = 0 then d
    else s.projectFrom sl n (d.plus 1) (left - ((s.sl sl).tiers.sumpRate * s.time.dripBeats - s.prefetchReserved sl d))

/-- The later of two drips. -/
def laterOf (a b : Drip) : Drip := if Drip.later a b then a else b

/-- A fetch stands before another at the sump port (R221): the one it serves, then demand fetches, then lookahead ones, the older
first, those issued in one drip by (layer, quad, slot). -/
def Fetch.before (a b : Fetch) : Bool :=
  let rank (f : Fetch) : Nat := if f.active then 0 else if f.kind == .demand then 1 else 2
  let key (f : Fetch) : Nat := (f.layer * 8 + f.slot.quad) * 64 + f.slot.slot
  decide (rank a < rank b) || (rank a == rank b &&
    (Drip.later b.issued a.issued || (a.issued == b.issued && decide (key a < key b))))

/-- The fetches that share what the scheduled ones leave of the port, in the order in which it serves them (R221). -/
def Tiers.shared (t : Tiers) : List Fetch := sortBy Fetch.before (t.fetches.filter fun f => f.kind != .scheduled && !f.failed)

/-- The projections of the fetches that share the port, one after the other (R224). -/
def State.projections (s : State) (sl : Nat) : List Fetch → Drip → List (Nat × SlotRef × Drip)
  | [], _ => []
  | f :: rest, d =>
    let p := if f.active then f.projected
      else s.projectFrom sl 1048576 (laterOf f.issued d)
        (match (s.sl sl).tiers.entry? f.layer f.slot with | some e => fetchBytes e | none => 0)
    (f.layer, f.slot, p) :: s.projections sl rest p

/-- The fetches of a slice with their projections as they stand. -/
def State.reproject (s : State) (sl : Nat) : State :=
  let ps := s.projections sl (s.sl sl).tiers.shared ((s.sl sl).tiers.shared.head?.elim 0 (·.issued))
  let put (f : Fetch) : Fetch :=
    match ps.find? fun p => p.1 == f.layer && p.2.1 == f.slot with
    | some p => { f with projected := p.2.2 }
    | none => f
  s.onSl sl fun x => { x with tiers := { x.tiers with fetches := x.tiers.fetches.map put } }

/-- The sump port, when it serves none of the fetches that share it, begins the next one (R221). At a drip boundary every fetch of
the past drip may be next; within a drip one issued in it waits for the boundary, which orders the fetches of a drip. -/
def State.portNext (s : State) (sl : Nat) : State :=
  match (s.sl sl).tiers.shared with
  | [] => s
  | f :: _ =>
    if f.active || f.issued == s.now then s
    else
      let t := s.onSl sl fun x => { x with tiers := { x.tiers with fetches := x.tiers.fetches.map fun g =>
        if g.layer == f.layer && g.slot == f.slot then { g with active := true } else g } }
      match (s.sl sl).tiers.entry? f.layer f.slot with
      | some e => t.emit (.cxlRead sl e.sumpAddr (fetchBytes e))
      | none => t

/-- The launch drip of the segment of the frame that serves a slot of a layer, which is the fetch's due drip. -/
def SliceState.segmentDrip (x : SliceState) (fr : Drip) (layer : Nat) (s : SlotRef) : Option Drip :=
  (x.runs.find? fun u => u.entry.kind == .quad && u.frame == fr && u.entry.f.layer == some layer &&
    u.entry.f.slots.contains s).map Run.launchDrip

/-- Whether a fetch for a slot is under way. -/
def Tiers.fetching (t : Tiers) (layer : Nat) (r : SlotRef) : Bool := t.fetches.any fun f => f.layer == layer && f.slot == r

/-- Start a fetch for a SUMP slot as of a drip, if a frame is free; answers whether it took one. The slot is IN_FLIGHT: at once
where its stage or GRANT launches, at a drip boundary, and for a lookahead fetch at the next (R214, R216). The port reads for a scheduled
fetch at once, for the others in turn (R221). -/
def State.startFetch (s : State) (sl : Nat) (k : FetchKind) (layer : Nat) (sr : SlotRef) (issued due : Drip)
    (run : Option Nat) : Bool × State :=
  let x := s.sl sl
  match x.tiers.entry? layer sr with
  | none => (false, s)
  | some e =>
    match x.tiers.freeFrame with
    | none => (false, s.onSl sl fun y => { y with tiers := { y.tiers with noFrame := y.tiers.noFrame + 1 } })
    | some f =>
      let ft : Fetch := { kind := k, layer := layer, slot := sr, frame := f, due := due, projected := due, run := run, issued := issued }
      let t := s.onSl sl fun y =>
        let z := if k == .lookahead then y else y.onRes (fun r => resIs r layer sr) fun r => { r with state := 2 }
        { z with tiers := { z.tiers with
            fetches := z.tiers.fetches ++ [ft]
            fetchPrefetch := z.tiers.fetchPrefetch + b2n (k == .scheduled)
            fetchDemand := z.tiers.fetchDemand + b2n (k == .demand)
            fetchLookahead := z.tiers.fetchLookahead + b2n (k == .lookahead) } }
      if k == .scheduled then (true, t.emit (.cxlRead sl e.sumpAddr (fetchBytes e))) else (true, t.reproject sl)

/-- A fetch fails: its LAST_FAIL is written at once, it is counted and recorded, its stage completes no more, and at the next drip
boundary its frame is released and its slot is in SUMP again (R214, R216, R223, R229, R230). One that has every tile is in flight no
more. -/
def State.failFetch (s : State) (sl : Nat) (layer : Nat) (sr : SlotRef) (code : Nat) (detail : List Nat) : State :=
  let is (f : Fetch) : Bool := f.layer == layer && f.slot == sr && !f.failed && f.full.isNone
  if !(s.sl sl).tiers.fetches.any is then s else
  let t := s.onSl sl fun y =>
    let x := y.onRes (fun r => resIs r layer sr) fun r => { r with lastFail := code }
    let runs := (x.tiers.fetches.filter is).filterMap (·.run)
    { x with
      runs := x.runs.map fun u => if u.entry.kind == .prefetch && u.st == .launched && runs.contains u.idx then { u with stopped := true } else u
      tiers := { x.tiers with
        fetches := x.tiers.fetches.map fun f => if is f then { f with failed := true } else f
        fetchFailed := x.tiers.fetchFailed + 1 } }
  t.report sl (mkReport 0x0A 9 0 code 255 detail)

/-- At the boundary that starts a drip the slots of fetches that failed are in SUMP again, those of which every tile is present are
STAGED and used, and those of fetches that began are IN_FLIGHT (R214, R216, R219). -/
def SliceState.settleFetches (x : SliceState) (now : Drip) : SliceState :=
  if x.tiers.fetches.isEmpty then x
  else
    let y := x.tiers.fetches.foldl (fun (z : SliceState) f =>
      z.onRes (fun r => resIs r f.layer f.slot) fun r =>
        if f.failed then { r with state := 1 }
        else if f.full.isSome then { r with state := 3, frame := f.frame, lastUse := now }
        else { r with state := 2 }) x
    { y with tiers := { y.tiers with
      fetches := y.tiers.fetches.filter fun f => !f.failed && f.full.isNone
      present := y.tiers.present ++ (y.tiers.fetches.filter fun f => !f.failed && f.full.isSome).map fun f => { f with full := some now } } }

end Sys2Proof.Machine
end

