-- ==== Sys2Proof/Machine/RouteOps.lean ====
section
/-! DEFINITION. What the routing rules read: routing descriptors (R55, R56), placement tables (R71), members of the job,
and the STEP_TAG of a layer (R74). -/

namespace Sys2Proof.Machine

/-! ### The routing descriptor (Table 03-1), 256 bits -/

def dExperts (d : Nat) : Nat := bits d 14 0
def dGroups (d : Nat) : Nat := bits d 21 15
def dTopGroups (d : Nat) : Nat := bits d 28 22
def dK (d : Nat) : Nat := bits d 34 29
def dScoreFn (d : Nat) : Nat := bits d 36 35
def dGroupScore (d : Nat) : Nat := bits d 37 37
def dBiasUse (d : Nat) : Nat := bits d 39 38
def dNorm (d : Nat) : Nat := bits d 40 40
def dOrder (d : Nat) : Nat := bits d 41 41
def dRenorm (d : Nat) : Bool := bit d 42
def dRouterFmt (d : Nat) : Nat := bits d 45 43
def dHiddenFmt (d : Nat) : Nat := bits d 48 46
def dSortEngine (d : Nat) : Nat := bits d 50 49
def dResidentOnly (d : Nat) : Bool := bit d 51
def dSkip (d : Nat) : Bool := bit d 52
def dLookahead (d : Nat) : Bool := bit d 53
def dLookaheadK (d : Nat) : Nat := bits d 59 54
def dCap (d : Nat) : Nat := 16 * bits d 71 64
def dTok16 (d : Nat) : Nat := bits d 78 72
def dRows (d : Nat) : Nat := 16 * dTok16 d
def dLayer (d : Nat) : Nat := bits d 87 80
def dLookaheadMax (d : Nat) : Nat := bits d 95 88
def dScale (d : Nat) : F32 := BitVec.ofNat 32 (bits d 127 96)
def dRouterAddr (d : Nat) : Nat := bits d 168 128
def dWidth (d : Nat) : Nat := 32 * bits d 179 169
def dPlacement (d : Nat) : Nat := bits d 232 192

/-- The range checks of R56 that a descriptor alone decides. -/
def descOk (d : Nat) : Bool :=
  let e := dExperts d
  let g := dGroups d
  decide (64 ≤ e) && decide (e ≤ 16384) && e % 64 == 0 && decide (1 ≤ g) && decide (g ≤ 64) && e % max 1 g == 0 &&
  decide (1 ≤ dTopGroups d) && decide (dTopGroups d ≤ g) && decide (1 ≤ dK d) && decide (dK d ≤ 32) &&
  dScoreFn d != 3 && dBiasUse d != 3 && decide (dRouterFmt d ≤ 4) && decide (dHiddenFmt d ≤ 4) &&
  bits d 63 60 == 0 && bits d 79 79 == 0 && bits d 191 180 == 0 && bits d 255 233 == 0 &&
  decide (16 ≤ dCap d) && decide (dCap d ≤ 2048) && decide (1 ≤ dTok16 d) && decide (dTok16 d ≤ 64) &&
  decide (1 ≤ dWidth d / 32) && decide (dWidth d / 32 ≤ 1024) && decide (dK d ≤ dTopGroups d * e / max 1 g) &&
  !(F32.num (dScale d)).isNonfinite &&
  (if dLookahead d then decide (1 ≤ dLookaheadK d) && decide (dLookaheadK d ≤ 32) else dLookaheadK d == 0)

/-- The layer data of a slice. -/
def State.layer? (s : State) (sl l : Nat) : Option LayerInfo := (s.img sl).layers.find? fun i => i.layer == l

/-- The next MoE layer of a slice's image (R81). -/
def State.nextLayer (s : State) (sl l : Nat) : Option LayerInfo :=
  (s.img sl).layers.foldl (fun b i =>
    if l < i.layer then (match b with | some (j : LayerInfo) => if i.layer < j.layer then some i else b | none => some i) else b)
    none

/-! ### Placement (Table 03-2) -/

/-- Where the placement table of a descriptor's layer lies for the pass of a frame: a pass keeps the epoch that is in force at its
frame start (R391, R393). -/
def SliceState.placementAt (x : SliceState) (d : Nat) (fr : Drip) : Nat :=
  match x.routing.placements.find? fun p => p.1 == dLayer d && Drip.notLater p.2.1 fr with
  | some p => p.2.2
  | none => dPlacement d

/-- A descriptor as the pass of a frame reads it: its PLACEMENT_ADDR is that of the epoch which the pass pins (R391). -/
def SliceState.passDesc (x : SliceState) (fr : Drip) (d : Nat) : Nat :=
  d - field (dPlacement d) 41 192 + field (x.placementAt d fr) 41 192

/-- The 32-byte placement entry of an expert. -/
def placeEntry (x : SliceState) (d e : Nat) : Nat := x.loadNat (dPlacement d + 32 * e) 32
def peBias (w : Nat) : F32 := BitVec.ofNat 32 (bits w 31 0)
def peReplicas (w : Nat) : Nat := bits w 33 32 + 1
def peValid (w : Nat) : Bool := bit w 34
def peLoc (w r : Nat) : Nat := bits w (64 + 32 * r + 31) (64 + 32 * r)
def locPlace (l : Nat) : Place := { node := bits l 19 0, slice := bits l 22 20 }
def locSlot (l : Nat) : SlotRef := { quad := bits l 25 23, slot := bits l 31 26 }

/-- The order of the pair (node, slice) (R76). -/
def Place.lt (a b : Place) : Bool := decide (a.node < b.node) || (a.node == b.node && decide (a.slice < b.slice))

def slotLt (a b : SlotRef) : Bool := decide (a.quad < b.quad) || (a.quad == b.quad && decide (a.slot < b.slot))

/-- Every location that the placement table of a layer names, those of experts with VALID 0 included (R71). -/
def locationsOf (x : SliceState) (d : Nat) : List (Place × SlotRef) :=
  ((List.range (dExperts d)).map fun e =>
    let w := placeEntry x d e
    (List.range (peReplicas w)).map fun r => (locPlace (peLoc w r), locSlot (peLoc w r))).flatten

/-- Every replica of a layer: expert, replica number, place and slot. An expert with VALID 0 is never chosen, and its locations
count as no replica slots (DEDUCED, log 122). -/
def replicasOf (x : SliceState) (d : Nat) : List (Nat × Nat × Place × SlotRef) :=
  ((List.range (dExperts d)).map fun e =>
    let w := placeEntry x d e
    if peValid w then
      (List.range (peReplicas w)).map fun r => (e, r, locPlace (peLoc w r), locSlot (peLoc w r))
    else []).flatten

/-- The replica slots that a layer places in a slice, in ascending order of QUAD and then SLOT (R73). -/
def slotsAt (x : SliceState) (d : Nat) (p : Place) : List (Nat × Nat × SlotRef) :=
  sortBy (fun a b => slotLt a.2.2 b.2.2)
    (((replicasOf x d).filter fun r => r.2.2.1 == p).map fun r => (r.1, r.2.1, r.2.2.2))

/-- Members of the job in ascending (node, slice). -/
def State.members (s : State) : List Place :=
  match s.job with
  | some j => sortBy Place.lt j.members
  | none => []

/-- Slices of the job that hold a replica of a layer, in ascending order. -/
def State.holders (s : State) (sl d : Nat) : List Place :=
  s.members.filter fun p => (replicasOf (s.sl sl) d).any fun r => r.2.2.1 == p

/-- Entries of a count record per slot: K of the main descriptor, or one under TOKEN_MAJOR (R73). -/
def perSlot (d : Nat) : Nat := if dOrder d = 1 then 1 else dK d

/-! ### STEP_TAG (R74) -/

/-- Bits [15:0] of the launch drip of SELECT of a layer in a frame. -/
def SliceState.selectTag (x : SliceState) (fr : Drip) (l : Nat) : Option Nat :=
  ((x.runs.filter fun u => u.frame == fr && u.entry.f.role == .select && u.entry.f.layer == some l).foldl
    (fun b u => match b with
      | some (v : Run) => if u.before v then some u else b
      | none => some u) none).map fun u => u.launchDrip.toNat % 65536

/-- The stage of a role and layer whose frame has a tag and which has not ended. -/
def SliceState.expecting (x : SliceState) (role : PhaseRole) (l tag : Nat) : Option Run :=
  x.runs.find? fun u => u.entry.f.role == role && u.entry.f.layer == some l && !u.over && x.selectTag u.frame l == some tag

/-- A row map entry from its word (Table 13-1). -/
def RowEntry.ofWord (w : Nat) : RowEntry :=
  { valid := bit w 0, ctx := bits w 8 1, sqz := bit w 9, req := bits w 21 10, pos := bits w 31 22 }

/-- The row map as it stands in the staging store at ROWMAP_BASE (R351). -/
def SliceState.rowmapRead (x : SliceState) : List RowEntry :=
  (List.range x.svc.rowmap.length).map fun t => RowEntry.ofWord (x.loadNat (x.svc.rowmapBase + 8 * t) 8)

/-- The row map with the rows of contexts that are not live made invalid (R54). -/
def State.liveRowmap (s : State) (sl : Nat) : List RowEntry :=
  (s.sl sl).rowmapRead.map fun r => { r with valid := r.valid && s.ctxState r.ctx == 2 }

/-- SELECT of a layer launches in the pass of a frame: what an earlier pass left for the layer goes, and the row map and the
view are taken (R54, R65, R403). -/
def State.beginLayer (s : State) (sl : Nat) (l : Nat) (frame : Drip) (tag : Nat) : State :=
  let m := s.liveRowmap sl
  s.onSl sl fun x => { x with routing := { x.routing with
    snaps := (x.routing.snaps.filter fun k => k.layer != l) ++ [{ layer := l, frame := frame, rows := m, view := x.tiers.view }]
    choices := x.routing.choices.filter fun c => c.layer != l
    counts := x.routing.counts.filter fun c => c.layer != l || c.tag == tag
    grants := x.routing.grants.filter fun c => c.layer != l || c.tag == tag
    topkDone := x.routing.topkDone.filter fun k => k.1 != l
    countsSent := x.routing.countsSent.filter (· != l)
    assigned := x.routing.assigned.filter fun a => a.1 != l
    grantOut := x.routing.grantOut.filter fun g => g.layer != l
    used := x.routing.used.filter fun u => u.1 != l
    refused := x.routing.refused.filter fun u => u.1 != l
    grantsDone := x.routing.grantsDone.filter fun g => g.1 != l
    dispatch := x.routing.dispatch.filter fun k => k.1 != l } }

end Sys2Proof.Machine
end

