-- ==== Sys2Proof/Machine/Records.lean ====
section
/-! DEFINITION. Records from other slices and from the own slice: count, grant, view and pass-digest records (R73 to R75,
R124, R217, R406), and the queueing of messages for an injection (R100). -/

namespace Sys2Proof.Machine

/-! ### The record header (Table 03-3) -/

def rKind (h : Nat) : Nat := bits h 7 0
def rLayer (h : Nat) : Nat := bits h 15 8
def rOrder (h : Nat) : Nat := bits h 16 16
def rSrc (h : Nat) : Place := { node := bits h 39 20, slice := bits h 19 17 }
def rEntries (h : Nat) : Nat := bits h 55 40
def rTag (h : Nat) : Nat := bits h 79 64
def rReservedOk (h : Nat) : Bool := bits h 63 56 == 0 && bits h 127 80 == 0

/-- The 16 header bytes of a record. -/
def recordHeader (kind layer order : Nat) (src : Place) (entries tag : Nat) : Bytes :=
  leBytes 16 (field kind 8 0 + field layer 8 8 + field order 1 16 + field src.slice 3 17 + field src.node 20 20 +
    field entries 16 40 + field tag 16 64)

/-- A place as one number, in reports. -/
def placeNat (p : Place) : Nat := p.node * 8 + p.slice

/-- Discard a record or block: counted in EXCH_DISCARDED and reported (R75, R124, R131). -/
def State.discard (s : State) (sl cls : Nat) : State :=
  (s.onSl sl fun x => { x with exch := { x.exch with discarded := x.exch.discarded + 1 } }).report sl
    (mkReport cls 0 0)

/-- A record that has landed is written to the buffer that the image names for its source, and sets its presence flag (R124). -/
def SliceState.landRecord (x : SliceState) (bufs : List RecordBuf) (src : Place) (msg : Bytes) : SliceState :=
  match bufs.find? fun b => b.src == src with
  | some b => (x.store b.addr msg).setFlag? b.flag
  | none => x

/-- The two-byte and four-byte entries of a record. -/
def entries16 (msg : Bytes) (n : Nat) : List Nat := (List.range n).map fun i => leNat ((msg.drop (16 + 2 * i)).take 2)
def entries32 (msg : Bytes) (n : Nat) : List Nat := (List.range n).map fun i => leNat ((msg.drop (16 + 4 * i)).take 4)

/-- The input of GRANT is present when every slice of the job that is not lost has its count record landed (R75). -/
def State.checkCounts (s : State) (sl l tag : Nat) : State :=
  match s.layer? sl l with
  | none => s
  | some li =>
    let x := s.sl sl
    if s.members.all fun p => x.fabric.lost.contains p || x.routing.counts.any fun c => c.layer == l && c.tag == tag && c.src == p
    then s.onSl sl fun y => y.setFlag li.countFlag else s

/-- The frame of the pass in which a stage of a role and layer expects the records of a tag; the current one where none does. -/
def State.tagFrame (s : State) (sl : Nat) (role : PhaseRole) (l tag : Nat) : Drip :=
  ((s.sl sl).expecting role l tag).elim s.frame (·.frame)

/-- The input of ASSIGN is present when every slice that holds a replica has its grant record landed (R75). -/
def State.checkGrants (s : State) (sl l tag : Nat) : State :=
  match s.layer? sl l with
  | none => s
  | some li =>
    let x := s.sl sl
    if (s.holders sl (x.passDesc (s.tagFrame sl .assign l tag) li.mainDesc)).all fun p => x.routing.grants.any fun c => c.layer == l && c.tag == tag && c.src == p
    then s.onSl sl fun y => y.setFlag li.grantFlag else s

/-- A count record lands for GRANT, or is discarded (R75, R124). -/
def State.landCount (s : State) (sl : Nat) (src : Place) (msg : Bytes) : State :=
  let h := leNat (msg.take 16)
  let l := rLayer h
  match s.layer? sl l with
  | none => s.discard sl 0x06
  | some li =>
    let x := s.sl sl
    let d := x.passDesc (s.tagFrame sl .grant l (rTag h)) li.mainDesc
    let n := (slotsAt x d (s.place sl)).length * perSlot d
    if rKind h == 1 && rReservedOk h && rSrc h == src && rOrder h == dOrder d && rEntries h == n &&
       msg.length == 16 + 2 * n && s.members.contains src && (x.expecting .grant l (rTag h)).isSome &&
       !(x.routing.counts.any fun c => c.layer == l && c.tag == rTag h && c.src == src) then
      (s.onSl sl fun y => { y.landRecord li.countBufs src msg with routing := { y.routing with
        counts := y.routing.counts ++ [{ src := src, layer := l, tag := rTag h, entries := entries16 msg n }] } }).checkCounts
          sl l (rTag h)
    else s.discard sl 0x04

/-- A grant record lands for ASSIGN, or is discarded (R75, R124). -/
def State.landGrant (s : State) (sl : Nat) (src : Place) (msg : Bytes) : State :=
  let h := leNat (msg.take 16)
  let l := rLayer h
  match s.layer? sl l with
  | none => s.discard sl 0x06
  | some li =>
    let x := s.sl sl
    let d := x.passDesc (s.tagFrame sl .assign l (rTag h)) li.mainDesc
    let n := (slotsAt x d src).length * perSlot d
    let es := entries32 msg n
    if rKind h == 2 && rReservedOk h && rSrc h == src && rOrder h == dOrder d && rEntries h == n &&
       msg.length == 16 + 4 * n && (s.holders sl d).contains src && (es.all fun e => bits e 31 28 == 0) &&
       (x.expecting .assign l (rTag h)).isSome &&
       !(x.routing.grants.any fun c => c.layer == l && c.tag == rTag h && c.src == src) then
      (s.onSl sl fun y => { y.landRecord li.grantBufs src msg with routing := { y.routing with
        grants := y.routing.grants ++ [⟨src, l, rTag h, es.map fun e => (bits e 15 0, bits e 27 16)⟩] } }).checkGrants
          sl l (rTag h)
    else s.discard sl 0x04

/-- The lowest layer and the number of layers that views describe: 512 codes a layer (R217). -/
def State.viewLayers (s : State) (sl : Nat) : Nat × Nat :=
  let ls := (s.img sl).layers.map (·.layer)
  match ls with
  | [] => (0, 0)
  | l :: rest => let lo := rest.foldl min l; let hi := rest.foldl max l; (lo, hi - lo + 1)

/-- Whether a tag lies in the current frame. -/
def State.tagInFrame (s : State) (tag : Nat) : Bool :=
  match s.job with
  | some j => decide ((tag + 65536 - s.frame.toNat % 65536) % 65536 < j.frameLen)
  | none => false

/-- The start of the next frame. -/
def State.nextFrame (s : State) : Drip := s.frame.plus (match s.job with | some j => j.frameLen | none => 0)

/-- A view record lands for the next frame's view, or is discarded (R124, R217). -/
def State.landView (s : State) (sl : Nat) (src : Place) (msg : Bytes) : State :=
  let h := leNat (msg.take 16)
  let x := s.sl sl
  let n := rEntries h
  if rKind h == 7 && rReservedOk h && rSrc h == src && rLayer h == (s.viewLayers sl).1 &&
     n == 512 * (s.viewLayers sl).2 && msg.length == 16 + ceilDiv n 4 && s.members.contains src && s.tagInFrame (rTag h) &&
     !x.tiers.viewLanded.contains src then
    let code (i : Nat) : Nat := ((msg.getD (16 + i / 4) 0).toNat >>> (2 * (i % 4))) % 4
    let codes : List ViewCode :=
      ((s.img sl).layers.map fun li =>
        (slotsAt x (x.passDesc s.nextFrame li.mainDesc) src).map fun r =>
          ({ place := src, layer := li.layer, slot := r.2.2,
             code := code (512 * (li.layer - rLayer h) + 64 * r.2.2.quad + r.2.2.slot) } : ViewCode)).flatten
    s.onSl sl fun y => { y.landRecord (s.img sl).viewBufs src msg with tiers := { y.tiers with
      viewNext := y.tiers.viewNext ++ codes, viewLanded := y.tiers.viewLanded ++ [src] } }
  else s.discard sl 0x0A

/-- The PASS_DIGEST stage that a tag names, up to its due drip and while its pass has no digest, whatever became of its launch
(R406). -/
def State.digestRun (s : State) (sl tag : Nat) : Option Run :=
  let x := s.sl sl
  x.runs.find? fun u => u.entry.kind == .passDigest && u.launchDrip.toNat % 65536 == tag && !Drip.later s.now u.dueDrip &&
    (x.svc.passOf u.frame).passDigest.isEmpty

/-- The frame of the pass whose digest records carry a tag, and whether one is still expected. -/
def State.digestFrame (s : State) (sl tag : Nat) : Drip := (s.digestRun sl tag).elim s.frame (·.frame)
def State.expectsDigest (s : State) (sl tag : Nat) : Bool := (s.digestRun sl tag).isSome

/-- A pass-digest record lands, or is discarded (R124, R406). -/
def State.landPassDigest (s : State) (sl : Nat) (src : Place) (msg : Bytes) : State :=
  let h := leNat (msg.take 16)
  let x := s.sl sl
  if rKind h == 8 && rReservedOk h && rSrc h == src && rLayer h == 0 && rEntries h == 1 && msg.length == 88 &&
     (msg.drop 81).all (· == 0) && s.members.contains src &&
     !((x.svc.passOf (s.digestFrame sl (rTag h))).digests.any fun g => g.1 == src) && s.expectsDigest sl (rTag h) then
    s.onSl sl fun y =>
      let v := y.svc.onPass (s.digestFrame sl (rTag h)) fun p =>
        { p with digests := p.digests ++ [(src, slice msg 16 64, (msg.getD 80 0).toNat)] }
      { y.landRecord (s.img sl).digestBufs src msg with svc := v }
  else s.discard sl 0x06

/-- A record to the sending slice itself is written locally into the same buffer; any other waits in the queue of its
injection (R73, R100, R124). -/
def State.sendRecord (s : State) (sl inj : Nat) (dst : Place) (msg : Bytes) : State :=
  if dst = s.place sl then
    match rKind (leNat (msg.take 16)) with
    | 1 => s.landCount sl dst msg
    | 2 => s.landGrant sl dst msg
    | 7 => s.landView sl dst msg
    | 8 => s.landPassDigest sl dst msg
    | _ => s
  else s.onSl sl fun x => { x with exch := { x.exch with
    injections := x.exch.injections ++ [{ injection := inj, dst := dst, data := msg }] } }

end Sys2Proof.Machine
end

