-- ==== Sys2Proof/Machine/Routing.lean ====
section
/-! DEFINITION. Token routing (chapter 03): what the scoring, top-k and capacity units and the dispatch sorter compute, and
the commands of the routing stage that are not instructions. -/

namespace Sys2Proof.Machine

/-! ### Scoring (R58 to R63) -/

/-- Bytes of a router panel (R58). -/
def panelBytes (d : Nat) : Nat :=
  let k := dWidth d
  64 * k * elemBytes (dRouterFmt d) + (if isMX (dRouterFmt d) then 2 * k else 0) + 32

def panelAddr (d p : Nat) : Nat := dRouterAddr d + p * panelBytes d

/-- The checks on a panel when it lands: its CRC, and trailer bytes 4 to 31 are 0 (R59). -/
def panelOk (b : Bytes) : Bool :=
  let n := b.length - 32
  crc32c (b.take n) == leNat ((b.drop n).take 4) && (b.drop (n + 4)).all (· == 0)

/-- The K values of expert j of a panel (R58, R178). -/
def panelRow (d : Nat) (b : Bytes) (j : Nat) : List Num :=
  let k := dWidth d
  let f := dRouterFmt d
  let w := elemBytes f
  let els := (b.drop (j * k * w)).take (k * w)
  let scs := (b.drop (64 * k * w + j * (k / 32))).take (k / 32)
  match fmtOf f with
  | none => []
  | some fm => (List.range k).map fun i =>
      let code := leNat ((els.drop (i * w)).take w)
      if isMX f then mxValue fm code ((scs.getD (i / 32) 0).toNat) else fm.decode code

/-- A logit: one exact block sum and one rounding per K-block of 32, in ascending K (R62). -/
def logit (h r : List Num) : F32 :=
  (pieces 32 (h.zip r)).foldl (fun acc blk =>
    round32 ((F32.num acc).add (Num.sum (blk.map fun x => x.1.mul x.2)))) 0

/-- The hidden row t of a layer, from the copy of an engine (R60). -/
def hiddenRow (x : SliceState) (li : LayerInfo) (d e t : Nat) : List Num :=
  let n := rowBytes (dHiddenFmt d) (dWidth d)
  decodeRow (dHiddenFmt d) (dWidth d) (x.load (engineAddr e (li.hiddenLocal + t * n)) n)

/-- The scoring unit of engine e over one panel and every row block (R61): hidden rows of one layer against a panel of a
descriptor, which lies in a panel buffer of the engine. -/
def scorePanel (x : SliceState) (li : LayerInfo) (d pd e p : Nat) (look : Bool) (b : Bytes) : List LogitBlock :=
  let rs := (List.range 64).map (panelRow pd b)
  (List.range (dRows d)).map fun t =>
    let h := hiddenRow x li d e t
    ({ layer := dLayer pd, lookahead := look, row := t, panel := p, vals := rs.map (logit h) } : LogitBlock)

/-- The home engine of a row (R53), and the place of the row among the rows it homes. -/
def homeOf (t : Nat) : Nat := (t / 16) % 4
def homeIndex (t : Nat) : Nat := t / 64 * 16 + t % 16

/-- Put logits into the logit buffers of the home engines, over what the last pass left. -/
def Routing.putLogits (r : Routing) (bs : List LogitBlock) : Routing :=
  { r with logits := (r.logits.filter fun o => !(bs.any fun b =>
      b.layer == o.layer && b.lookahead == o.lookahead && b.row == o.row && b.panel == o.panel)) ++ bs }

/-- Logits also stand in the home engine's logit buffer, row by row in expert order, where its threads read them (R61, R94). -/
def SliceState.storeLogits (x : SliceState) (li : LayerInfo) (experts : Nat) (bs : List LogitBlock) : SliceState :=
  bs.foldl (fun y b =>
    y.store (engineAddr (homeOf b.row) (li.logitLocal + homeIndex b.row * experts * 4 + b.panel * 256))
      ((b.vals.map fun v => leBytes 4 v.toNat).flatten)) x

/-- The layer whose panels a pass scores: its own, or the next one for a lookahead pass (R81). -/
def State.passLayer (s : State) (sl : Nat) (p : ScorePass) : Option LayerInfo :=
  if p.look then s.nextLayer sl (dLayer p.desc) else s.layer? sl (dLayer p.desc)

/-- The descriptor of the panels of a pass. -/
def passDesc (p : ScorePass) (ln : LayerInfo) : Nat := if p.look then ln.mainDesc else p.desc

/-- The scoring unit scores the next panel of its pass, if it has landed, and frees its buffer (R59, R61). A poisoned word of the buffer
ends the requests tied to the stage (R204). -/
def State.scoreNext (s : State) (sl e : Nat) : State :=
  let g := (s.sl sl).engine e
  match g.scoring with
  | none => s
  | some p =>
    match s.layer? sl (dLayer p.desc), s.passLayer sl p with
    | some li, some ln =>
      match g.panels.find? fun b => b.layer == ln.layer && b.panel == p.next with
      | none => s
      | some k =>
        let pd := passDesc p ln
        let t := s.readFor sl ((s.sl sl).runs.find? fun u => u.idx == p.run && !u.over)
          [(engineAddr e (ln.panelLocal + k.buf * panelBytes pd), panelBytes pd)]
        t.onSl sl fun x =>
          let b := x.load (engineAddr e (ln.panelLocal + k.buf * panelBytes pd)) (panelBytes pd)
          let bs := scorePanel x li p.desc pd e p.next p.look b
          let y := ({ x with routing := x.routing.putLogits bs } : SliceState).storeLogits ln (dExperts pd) bs
          y.onEngine e fun h =>
            { h with panels := h.panels.filter (· != k), scoring := some { p with next := p.next + 4 } }
    | _, _ => s

/-- Whether the pass of an engine's scoring unit has scored every panel of the engine. -/
def State.passDone (s : State) (sl e : Nat) : Bool :=
  match ((s.sl sl).engine e).scoring with
  | none => true
  | some p => match s.passLayer sl p with
    | some ln => decide (dExperts (passDesc p ln) / 64 ≤ p.next)
    | none => true

/-- Whether the stage that the scoring unit runs for has not ended. -/
def State.passLive (s : State) (sl e : Nat) : Bool :=
  match ((s.sl sl).engine e).scoring with
  | none => false
  | some p => (s.sl sl).runs.any fun u => u.idx == p.run && !u.over

/-- The engine takes its own copy of the hidden rows and of the placement table, which its threads may read (R60, R94). It takes both
as the scoring unit starts its pass, the table of the epoch that the pass pins (log 123). -/
def SliceState.copyInputs (x : SliceState) (li : LayerInfo) (d e : Nat) : SliceState :=
  let n := dRows d * rowBytes (dHiddenFmt d) (dWidth d)
  let y := x.store (engineAddr e li.hiddenLocal) (x.load li.hiddenAddr n)
  y.store (engineAddr e li.placementLocal) (x.load (dPlacement d) (32 * dExperts d))

/-- The ranges that the scoring unit reads as it starts a pass (R204). -/
def scoreReads (li : LayerInfo) (d : Nat) : List (Nat × Nat) :=
  [(li.hiddenAddr, dRows d * rowBytes (dHiddenFmt d) (dWidth d)), (dPlacement d, 32 * dExperts d)]

/-- SCORE: the scoring unit starts a pass over the panels of its engine, and scores those that have landed (R59, R61, R81). -/
def State.scoreWork (s : State) (sl e d : Nat) (look : Bool) (run : Nat) (frame : Drip) : State :=
  match s.layer? sl (dLayer d) with
  | none => s
  | some li =>
    let t := s.onSl sl fun x => (x.copyInputs li (x.passDesc frame d) e).onEngine e fun g =>
      { g with scoring := some { desc := d, look := look, run := run, next := e } }
    (t.scoreNext sl e).scoreNext sl e

/-! ### Ranking, keys, choice and weights (R64 to R70) -/

/-- a is less than b as a number, -0 equal to +0. -/
def numLess (a b : F32) : Bool :=
  match F32.num a, F32.num b with
  | .fin s m e, .fin t n g => if m = 0 && n = 0 then false else Num.lt (.fin s m e) (.fin t n g)
  | x, y => Num.lt x y

/-- Value a at index i ranks above value b at index j (R64). -/
def ranksAbove (a : F32) (i : Nat) (b : F32) (j : Nat) : Bool :=
  if F32.isNaN a && F32.isNaN b then decide (i < j)
  else if F32.isNaN a then false
  else if F32.isNaN b then true
  else if numLess b a then true
  else if numLess a b then false
  else decide (i < j)

/-- The n highest-ranking of a list of (index, value). -/
def topRanked (n : Nat) (xs : List (Nat × F32)) : List (Nat × F32) :=
  (sortBy (fun a b => ranksAbove a.2 a.1 b.2 b.1) xs).take n

/-- The logits of a row, expert by expert. Where no SCORE has written one the manual gives none, and it is a free value (DESIGN
CHOICE, log 145). -/
def rowLogits (r : Routing) (l : Nat) (look : Bool) (t experts : Nat) : List F32 :=
  ((List.range (experts / 64)).map fun p =>
    match r.logits.find? fun b => b.layer == l && b.lookahead == look && b.row == t && b.panel == p with
    | some b => b.vals
    | none => (List.range 64).map fun i => Config.unscored l t (64 * p + i)).flatten

/-- The key of each expert (R65). -/
def rowKeys (x : SliceState) (d : Nat) (lg : List F32) : List F32 :=
  if dBiasUse d = 0 then lg
  else lg.zipIdx.map fun v => F32.add v.1 (peBias (placeEntry x d v.2))

/-- An expert counts as RESIDENT when the view at the launch drip of SELECT holds 3 for every one of its replicas (R65, R217). -/
def expertResident (x : SliceState) (d e : Nat) : Bool :=
  let w := placeEntry x d e
  let view := match x.snap? (dLayer d) with | some k => k.view | none => x.tiers.view
  (List.range (peReplicas w)).all fun r =>
    viewCodeIn view (locPlace (peLoc w r)) (dLayer d) (locSlot (peLoc w r)) == 3

/-- Whether an expert is eligible (R65). -/
def eligible (x : SliceState) (d e : Nat) (residentOnly : Bool) : Bool :=
  peValid (placeEntry x d e) && (!residentOnly || expertResident x d e)

/-- The score of a group from its eligible members' keys, or none when it has none (R66). -/
def groupScore (d : Nat) (members : List (Nat × F32)) : Option F32 :=
  match topRanked 2 members with
  | [] => none
  | [a] => some (if dGroupScore d = 1 then nan32 else a.2)
  | a :: b :: _ =>
    some (if dGroupScore d = 1 then (if F32.isNaN a.2 || F32.isNaN b.2 then nan32 else F32.add a.2 b.2) else a.2)

/-- The choices of a row, in rank order (R67). -/
def chooseExperts (x : SliceState) (d k : Nat) (residentOnly : Bool) (keys : List F32) : List Nat :=
  let per := dExperts d / max 1 (dGroups d)
  let el := (keys.zipIdx.map fun v => (v.2, v.1)).filter fun v => eligible x d v.1 residentOnly
  let gs := (List.range (dGroups d)).map fun g => (g, el.filter fun v => v.1 / max 1 per == g)
  let present := (gs.map fun g => match groupScore d g.2 with | some sc => [(g.1, sc)] | none => []).flatten
  let keep := (topRanked (dTopGroups d) present).map (·.1)
  (topRanked k (el.filter fun v => keep.contains (v.1 / max 1 per))).map (·.1)

/-- The largest value that is not NaN, or NaN when all are. -/
def largest (xs : List F32) : F32 :=
  (xs.filter fun v => !F32.isNaN v).foldl (fun m v => if F32.isNaN m || numLess m v then v else m) nan32

/-- Sum in list order, one rounding per step. -/
def sumInOrder : List F32 → F32
  | [] => 0
  | a :: rest => rest.foldl F32.add a

/-- The weights of a row's choices (R69). -/
def choiceWeights (d : Nat) (u : List F32) (ch : List Nat) : List F32 :=
  let v := ch.map fun e => u.getD e nan32
  let p :=
    if dScoreFn d = 2 then v.map F32.sigmoid
    else
      let m := if dScoreFn d = 0 then largest u else largest v
      let s := if dScoreFn d = 0 then reduceBy F32.add 64 (u.map fun y => F32.exp (F32.sub y m))
               else sumInOrder (v.map fun y => F32.exp (F32.sub y m))
      v.map fun y => F32.div (F32.exp (F32.sub y m)) s
  let p' :=
    if dNorm d = 1 then
      let s2 := sumInOrder p
      match F32.num s2 with
      | .fin _ m _ => if m = 0 then p else p.map fun y => F32.div y s2
      | _ => p
    else p
  p'.map fun y => F32.mul y (dScale d)

/-- The replica a choice picks: a hash of layer, expert, home and row under the job seed (R72). -/
def replicaPick (layer expert : Nat) (home : Place) (row seed n : Nat) : Nat :=
  let m := 2 ^ 64
  let x := ((layer <<< 56) ||| (expert <<< 42) ||| (home.node <<< 13) ||| (home.slice <<< 10) ||| row) % m
  let z0 := x ^^^ seed
  let z1 := ((z0 ^^^ (z0 >>> 31)) * 0x9F3B5C2D71E4A6B5) % m
  let z2 := ((z1 ^^^ (z1 >>> 29)) * 0xD2B74A913C6E58F3) % m
  let z := z2 ^^^ (z2 >>> 32)
  ((z % 2 ^ 32) * n) >>> 32

/-- The choice of an expert at a rank, with its replica and place. -/
def makeChoice (x : SliceState) (d : Nat) (home : Place) (seed t rank e : Nat) (w : F32) (nanf : Bool) : Choice :=
  let pe := placeEntry x d e
  let r := replicaPick (dLayer d) e home t seed (peReplicas pe)
  let loc := peLoc pe r
  { layer := dLayer d, row := t, rank := rank, expert := e, replica := r, node := (locPlace loc).node,
    slice := (locPlace loc).slice, quad := (locSlot loc).quad, slot := (locSlot loc).slot, weight := w, nanf := nanf }

def Choice.place (c : Choice) : Place := { node := c.node, slice := c.slice }
def Choice.ref (c : Choice) : SlotRef := { quad := c.quad, slot := c.slot }

/-- The home rows of engine e (R53). -/
def homeRows (d e : Nat) : List Nat := (List.range (dRows d)).filter fun t => (t / 16) % 4 == e

/-- The choices of one row (R65 to R70). -/
def rowChoices (x : SliceState) (d : Nat) (home : Place) (seed t : Nat) : List Choice :=
  if dSkip d then []
  else
    let lg := rowLogits x.routing (dLayer d) false t (dExperts d)
    let keys := rowKeys x d lg
    let ch := chooseExperts x d (dK d) (dResidentOnly d) keys
    let ws := choiceWeights d (if dBiasUse d = 2 then keys else lg) ch
    let nanf := ws.any F32.isNaN
    ((ch.zip ws).zipIdx).map fun v => makeChoice x d home seed t v.2 v.1.1 v.1.2 nanf

/-- The job seed (R72). -/
def State.seed (s : State) : Nat := s.still.jobSeed.toNat

/-- The count record for one destination slice (R73). -/
def countEntries (x : SliceState) (d : Nat) (cs : List Choice) (dst : Place) : List Nat :=
  ((slotsAt x d dst).map fun r =>
    let mine := cs.filter fun c => c.place == dst && c.ref == r.2.2
    if dOrder d = 1 then [mine.length]
    else (List.range (dK d)).map fun k => (mine.filter fun c => c.rank == k).length).flatten

/-- Send a count record to every slice that holds a replica of the layer (R73). -/
def State.sendCounts (s : State) (sl : Nat) (li : LayerInfo) (tag inj : Nat) (frame : Drip) : State :=
  let x := s.sl sl
  let d := x.passDesc frame li.mainDesc
  let cs := x.routing.choices.filter fun c => c.layer == li.layer
  let t := s.onSl sl fun y => { y with routing := { y.routing with countsSent := y.routing.countsSent ++ [li.layer] } }
  (s.holders sl d).foldl (fun v dst =>
    let es := countEntries x d cs dst
    v.sendRecord sl inj dst
      (recordHeader 1 li.layer (dOrder d) (s.place sl) es.length tag ++ (es.map (leBytes 2)).flatten)) t

/-- Whether SELECT is over at the slice: every home engine has run the main form, and the squeeze form where it homes valid
squeeze rows. -/
def SliceState.selectOver (x : SliceState) (d : Nat) : Bool :=
  let l := dLayer d
  (List.range 4).all fun e =>
    ((homeRows d e).isEmpty || x.routing.topkDone.contains (l, e, 0)) &&
    ((homeRows d e).all (fun t => !(x.rowValid l t && (x.rowAt l t).sqz)) || x.routing.topkDone.contains (l, e, 1))

/-- The descriptor that routes the rows of a TOPK whose local address names `d` (R57): where that is the layer's descriptor of
the other kind, the layer's own of this kind; else `d`. DEDUCED (log 117). -/
def State.selectDesc (s : State) (sl d : Nat) (sqz : Bool) : Nat :=
  match s.layer? sl (dLayer d) with
  | none => d
  | some li =>
    if sqz then (if d = li.mainDesc then li.sqzDesc else d)
    else if d = li.sqzDesc then li.mainDesc else d

/-- TOPK, main or squeeze: SELECT for the engine's home rows (R65 to R73). -/
def State.topkWork (s : State) (sl e d : Nat) (sqz : Bool) (u : Run) : State :=
  match s.layer? sl (dLayer d) with
  | none => s
  | some li =>
    let x := s.sl sl
    let l := dLayer d
    let rows := (homeRows d e).filter fun t => x.rowValid l t && (x.rowAt l t).sqz == sqz
    let cs := (rows.map fun t => rowChoices x (x.passDesc u.frame d) (s.place sl) s.seed t)
    let nan := (cs.filter fun c => c.any (·.nanf)).length
    let t := s.onSl sl fun y => { y with routing := { y.routing with
      choices := (y.routing.choices.filter fun c => !(c.layer == l && rows.contains c.row)) ++ cs.flatten
      nanRows := y.routing.nanRows + nan
      topkDone := y.routing.topkDone ++ [(l, e, b2n sqz)] } }
    let y := t.sl sl
    match y.selectTag u.frame l with
    | none => t
    | some tag =>
      if y.selectOver li.mainDesc && !y.routing.countsSent.contains l then
        t.sendCounts sl li tag u.entry.f.injection u.frame
      else t

/-- TOPK, lookahead: LOOKAHEAD_K choices per valid row with the next layer's descriptor, and the counts of the replicas
that are in SUMP, each to the slice that holds them (R81, R82). A squeeze row too takes the main descriptor of the next layer: R81
names none of the two (DESIGN CHOICE, log 146). -/
def State.topkLook (s : State) (sl e d : Nat) (frame : Drip) : State :=
  match s.nextLayer sl (dLayer d) with
  | none => s
  | some ln =>
    let x := s.sl sl
    let nd := x.passDesc frame ln.mainDesc
    -- R59: a pass with a failed panel selects nothing
    let bad := x.routing.lookBad.contains (ln.layer, frame)
    let rows := (homeRows d e).filter fun t => !bad && x.rowValid (dLayer d) t
    let cs := (rows.map fun t =>
      let lg := rowLogits x.routing (dLayer nd) true t (dExperts nd)
      (chooseExperts x nd (dLookaheadK d) false (rowKeys x nd lg)).zipIdx.map fun v =>
        makeChoice x nd (s.place sl) s.seed t v.2 v.1 0 false).flatten
    let inSump := cs.filter fun c => x.tiers.viewCode c.place (dLayer nd) c.ref == 1
    let t := s.onSl sl fun y => { y with routing := { y.routing with
      lookChoices := (y.routing.lookChoices.filter fun c => !(c.layer == dLayer nd && rows.contains c.row)) ++ inSump } }
    s.members.foldl (fun v dst =>
      let refs := ((inSump.filter fun c => c.place == dst).map (·.ref)).eraseDups
      if refs = [] then v
      else v.emit (.lookahead sl dst (dLayer nd)
        (refs.map fun r => (r, (inSump.filter fun c => c.place == dst && c.ref == r).length)))) t

/-! ### Capacity (R74 to R78, R127, R128) -/

/-- Counts of a source for slot number i: one per rank, or one in all (R76). A source with no record counts 0. -/
def slotCounts (x : SliceState) (l tag : Nat) (src : Place) (per i : Nat) : List Nat :=
  match x.routing.counts.find? fun c => c.layer == l && c.tag == tag && c.src == src with
  | some c => (List.range per).map fun k => c.entries.getD (i * per + k) 0
  | none => List.replicate per 0

/-- Grant the rows of one slot: rank by rank, and within a rank source by source (R76). TOKEN_MAJOR has one rank. -/
def grantSlot (cap l : Nat) (slot : SlotRef) (srcs : List Place) (cnt : Place → List Nat) (per : Nat) :
    List GrantOut × Nat × Nat :=
  (List.range per).foldl (fun acc r =>
    srcs.foldl (fun (a : List GrantOut × Nat × Nat) p =>
      let c := (cnt p).getD r 0
      let g := min c (cap - a.2.1)
      (a.1 ++ [⟨l, p, slot, r, g, a.2.1⟩], a.2.1 + g, a.2.2 + (c - g))) acc) ([], 0, 0)

/-- The counts of a source for slot number i; a source that was marked lost at the launch drip counts 0 (R75, R76). -/
def grantCounts (x : SliceState) (lost : List Place) (l tag per i : Nat) (p : Place) : List Nat :=
  if lost.contains p then List.replicate per 0 else slotCounts x l tag p per i

/-- A demand fetch for a SUMP slot (R224). Still water issues none (R228). -/
def State.demand (s : State) (sl l : Nat) (fr : Drip) (slot : SlotRef) : State :=
  let x := s.sl sl
  if !s.still.on && x.tiers.stateOf l slot == 1 && !x.tiers.fetching l slot then
    (s.startFetch sl .demand l slot s.now ((x.segmentDrip fr l slot).getD s.now) none).2
  else s

/-- At the launch of GRANT the grant engine issues a demand fetch for each of its counted slots that is in SUMP (R224). -/
def State.demands (s : State) (sl e l : Nat) (u : Run) : State :=
  match s.layer? sl l with
  | none => s
  | some li =>
    let x := s.sl sl
    let md := x.passDesc u.frame li.mainDesc
    let tag := (x.selectTag u.frame l).getD 0
    let cnt (i : Nat) (p : Place) : Nat := (grantCounts x x.fabric.lost l tag (perSlot md) i p).sum
    ((slotsAt x md (s.place sl)).zipIdx.filter fun r =>
      r.1.2.2.quad % 4 == e && (s.members.map (cnt r.2)).sum != 0).foldl (fun v r => v.demand sl l u.frame r.1.2.2) s

/-- LEGACY_TIER_DROP takes C as 0 for a slot that is ABSENT or whose fetch is projected after its due drip (R226). -/
def State.legacyZero (s : State) (sl l : Nat) (fr : Drip) (slot : SlotRef) : Bool :=
  let x := s.sl sl
  s.dict.legacyDrop && !s.still.on &&
  (match x.tiers.entry? l slot with
   | none => false
   | some e => e.pool && (e.state == 0 || (e.state == 1 && !x.tiers.fetching l slot) ||
      ((e.state == 2 || (e.state == 1 && x.tiers.fetching l slot)) && (match x.tiers.fetches.find? fun f => f.layer == l && f.slot == slot with
        | some f => Drip.later f.projected ((x.segmentDrip fr l slot).getD s.now)
        | none => true))))

/-- A shape record entry (Table 05-3). -/
def shapeEntry (used expert replica : Nat) (live lost : Bool) : Nat :=
  field used 12 0 + field (ceilDiv used 16) 8 12 + field expert 14 20 + field replica 2 34 + field (b2n live) 1 36 +
    field (b2n lost) 1 37

/-- SHAPE_BASE of a layer (R127). -/
def shapeAddr (x : SliceState) (l : Nat) : Nat := x.exch.shapeBase + (l % 4) * 8192

/-- The sections that arrive at the slots of this slice in a layer, one per home and slot (R114). -/
def dispatchSections (x : SliceState) (frame : Drip) (l : Nat) (srcs : List Place) (slots : List SlotRef) : List Section :=
  (slots.map fun r => srcs.map fun p =>
    let rows := ((x.routing.grantOut.filter fun g => g.layer == l && g.slot == r && g.src == p).map fun g =>
      (List.range g.g).map (g.base + ·)).flatten
    ({ isReturn := false, layer := l, peer := p, slot := r, rows := sortBy (fun a b => decide (a < b)) rows, frame := frame } : Section)).flatten

/-- The end of GRANT: the shape record with its header last, the sections, with no return list written for them yet, and a grant
record to every source (R74, R76, R127, R128). -/
def State.finishGrant (s : State) (sl : Nat) (li : LayerInfo) (tag inj : Nat) (frame : Drip) : State :=
  let x := s.sl sl
  let d := x.passDesc frame li.mainDesc
  let l := li.layer
  let slots := slotsAt x d (s.place sl)
  let usedOf (r : SlotRef) : Nat := match x.routing.used.find? fun u => u.1 == l && u.2.1 == r with | some u => u.2.2 | none => 0
  let entry (i : Nat) : Nat := match slots.find? fun r => 64 * r.2.2.quad + r.2.2.slot == i with
    | some r => shapeEntry (usedOf r.2.2) r.1 r.2.1 true false
    | none => 0
  let total := (slots.map fun r => usedOf r.2.2).sum
  let refused := ((x.routing.refused.filter fun u => u.1 == l).map (·.2)).sum
  let hdr := field 3 8 0 + field l 8 8 + field (dOrder d) 1 16 + field sl 3 17 + field s.pkg.nodeId 20 20 + field 512 16 40 +
    field tag 16 64 + field total 32 96 + field refused 32 128
  let t := s.onSl sl fun y =>
    let y1 := y.store (shapeAddr y l + 64) (((List.range 512).map fun i => leBytes 8 (entry i)).flatten)
    let y2 := y1.store (shapeAddr y l) (leBytes 64 hdr)
    let secs := dispatchSections x frame l s.members (slots.map (·.2.2))
    { y2.setFlag li.shapeFlag with exch := { y2.exch with
        returnLists := y2.exch.returnLists.filter fun k => k.1 != l
        sections := (y2.exch.sections.filter fun c => c.isReturn || c.layer != l) ++ secs } }
  s.members.foldl (fun v p =>
    let es := (slots.map fun r => (List.range (perSlot d)).map fun k =>
      match x.routing.grantOut.find? fun g => g.layer == l && g.slot == r.2.2 && g.src == p && g.rank == k with
      | some g => field g.g 16 0 + field g.base 12 16
      | none => 0).flatten
    v.sendRecord sl inj p (recordHeader 2 l (dOrder d) (s.place sl) es.length tag ++ (es.map (leBytes 4)).flatten)) t

/-- CAPACITY GRANT: the engine grants the rows of the slots of its quads (R76, R224 to R228). -/
def State.grantWork (s : State) (sl e d : Nat) (u : Run) : State :=
  match s.layer? sl (dLayer d) with
  | none => s
  | some li =>
    let l := li.layer
    let md := (s.sl sl).passDesc u.frame li.mainDesc
    let tag := ((s.sl sl).selectTag u.frame l).getD 0
    let per := perSlot md
    let slots := slotsAt (s.sl sl) md (s.place sl)
    let mine := slots.zipIdx.filter fun r => r.1.2.2.quad % 4 == e
    -- R75: the sources that were marked lost at the launch drip
    let lost := s.members.filter fun p => u.lost.contains p
    -- R75: lost sources are counted once for the layer
    let x0 := s.sl sl
    let s0 := if x0.routing.grantsDone.any (fun g => g.1 == l) then s
      else lost.foldl (fun v _ =>
        (v.onSl sl fun y => { y with routing := { y.routing with lostSources := y.routing.lostSources + 1 } }).report sl
          (mkReport 0x04 3 (x0.physEngine e))) s
    let s2 := mine.foldl (fun v r =>
      let x := v.sl sl
      let zero := v.legacyZero sl l u.frame r.1.2.2
      let (gs, used, ref) := grantSlot (if zero then 0 else dCap md) l r.1.2.2 s.members (grantCounts x lost l tag per r.2) per
      v.onSl sl fun y => { y with
        routing := { y.routing with
          grantOut := y.routing.grantOut ++ gs
          used := y.routing.used ++ [(l, r.1.2.2, used)]
          refused := y.routing.refused ++ [(l, ref)] }
        tiers := { y.tiers with legacyDrops := y.tiers.legacyDrops + (if zero then ref else 0) } }) s0
    let s3 := s2.onSl sl fun y => { y with routing := { y.routing with grantsDone := y.routing.grantsDone ++ [(l, e)] } }
    let need := if slots.isEmpty then [e] else (slots.map fun r => r.2.2.quad % 4).eraseDups
    if need.all fun g => (s3.sl sl).routing.grantsDone.contains (l, g) then s3.finishGrant sl li tag u.entry.f.injection u.frame else s3

/-- The grant that a home holds for a slot and rank (R77). -/
def grantFor (x : SliceState) (d l tag : Nat) (p : Place) (r : SlotRef) (rank : Nat) : Nat × Nat :=
  match x.routing.grants.find? fun g => g.layer == l && g.tag == tag && g.src == p with
  | none => (0, 0)
  | some g =>
    match (slotsAt x d p).findIdx? fun q => q.2.2 == r with
    | none => (0, 0)
    | some i => g.entries.getD (i * perSlot d + (if dOrder d = 1 then 0 else rank)) (0, 0)

/-- Give a choice its capacity row, or drop it (R77). -/
def keepChoice (x : SliceState) (d tag : Nat) (cs : List Choice) (c : Choice) : Choice :=
  let same (b : Choice) : Bool := b.place == c.place && b.ref == c.ref && (dOrder d == 1 || b.rank == c.rank)
  let before := (cs.filter fun b => same b && decide (b.row < c.row)).length
  let gb := grantFor x d c.layer tag c.place c.ref c.rank
  { c with kept := some (if before < gb.1 then some (gb.2 + before) else none) }

def Choice.isKept (c : Choice) : Bool := match c.kept with | some (some _) => true | _ => false
def Choice.capRow (c : Choice) : Nat := match c.kept with | some (some r) => r | _ => 0

/-- A row with a NaN weight carries NANF in each of its entries (R70). -/
def flagNan (cs : List Choice) : List Choice :=
  let n := cs.any fun c => F32.isNaN c.weight
  cs.map fun c => { c with nanf := c.nanf || n }

/-- Renormalise the surviving weights of one row's choices (R78). -/
def renormRow (d : Nat) (cs : List Choice) : List Choice :=
  let live := cs.filter Choice.isKept
  if dRenorm d && decide (live.length < cs.length) && !live.isEmpty then
    let sAll := sumInOrder (cs.map (·.weight))
    let sSurv := sumInOrder (live.map (·.weight))
    match F32.num sAll, F32.num sSurv with
    | .fin _ _ _, .fin _ m _ =>
      if m = 0 then cs
      else
        let f := F32.div sAll sSurv
        cs.map fun c => if c.isKept then { c with weight := F32.mul c.weight f } else c
    | _, _ => cs
  else cs

/-- CAPACITY ASSIGN: the engine's home rows take the rows granted to them (R77, R78). -/
def State.assignWork (s : State) (sl e d : Nat) (u : Run) : State :=
  match s.layer? sl (dLayer d) with
  | none => s
  | some li =>
    let l := li.layer
    let x := s.sl sl
    let md := x.passDesc u.frame li.mainDesc
    let tag := (x.selectTag u.frame l).getD 0
    let cs := x.routing.choices.filter fun c => c.layer == l
    let rows := (homeRows md e).filter fun t => x.rowValid l t
    let out := rows.map fun t => flagNan (renormRow md ((cs.filter fun c => c.row == t).map (keepChoice x md tag cs)))
    -- R70: rows whose weights became NaN here; the others were counted at TOPK
    let nan := ((rows.zip out).filter fun r => r.2.any (·.nanf) && !(cs.any fun c => c.row == r.1 && c.nanf)).length
    let dropped := (out.map fun r => (r.filter fun c => !c.isKept).length).sum
    let skipped := ((rows.zip out).filter fun r =>
      !(dSkip (if (x.rowAt l r.1).sqz then li.sqzDesc else md)) && !(r.2.any Choice.isKept)).length
    s.onSl sl fun y => { y with routing := { y.routing with
      choices := (y.routing.choices.filter fun c => !(c.layer == l && rows.contains c.row)) ++ out.flatten
      droppedChoices := y.routing.droppedChoices + dropped
      skippedRows := y.routing.skippedRows + skipped
      nanRows := y.routing.nanRows + nan
      assigned := y.routing.assigned ++ [(l, e)] } }

/-! ### Dispatch list (R79, R80) -/

/-- A dispatch entry (Table 03-5). -/
def dispatchEntry (c : Choice) : Nat :=
  field c.weight.toNat 32 0 + field c.node 20 32 + field c.slice 3 52 + field c.quad 3 55 + field c.slot 6 58 +
  field c.capRow 11 64 + field c.expert 14 76 + field c.rank 5 90 + field (b2n c.nanf) 1 95 + field c.row 10 96 +
  field c.replica 2 106

/-- The key (NODE, SLICE, QUAD, SLOT, ROW) of R80 as one number. -/
def dispatchKey (c : Choice) : Nat :=
  (((c.node * 8 + c.slice) * 8 + c.quad) * 64 + c.slot) * 2048 + c.capRow

/-- The return sections a home expects: one per slot to which it sent rows (R137). -/
def returnSections (frame : Drip) (l : Nat) (cs : List Choice) : List Section :=
  ((cs.map fun c => (c.place, c.ref)).eraseDups).map fun k =>
    { isReturn := true, layer := l, peer := k.1, slot := k.2, frame := frame,
      rows := sortBy (fun a b => decide (a < b)) ((cs.filter fun c => c.place == k.1 && c.ref == k.2).map Choice.capRow) }

/-- SORT: the slice's dispatch list in the order of R80, which goes to the list buffer of every engine that packs from it;
answers its entries. The home engines hand their entries to SORT_ENGINE alone: a sorter of another engine has none (R80; DEDUCED,
log 124). -/
def State.sortWork (s : State) (sl e d : Nat) (frame : Drip) : Nat × State :=
  match s.layer? sl (dLayer d) with
  | none => (0, s)
  | some li =>
    if dSortEngine li.mainDesc ≠ e then (0, s) else
    let l := li.layer
    let cs := sortBy (fun a b => decide (dispatchKey a < dispatchKey b))
      ((s.sl sl).routing.choices.filter fun c => c.layer == l && c.isKept)
    (cs.length, s.onSl sl fun x =>
      let y := (List.range 4).foldl (fun (v : SliceState) g =>
        v.store (engineAddr g li.dispatchLocal) ((cs.map fun c => leBytes 16 (dispatchEntry c)).flatten)) x
      let z := { y with
        routing := { y.routing with dispatch := (y.routing.dispatch.filter fun k => k.1 != l) ++ [(l, cs)] }
        exch := { y.exch with
          sections := (y.exch.sections.filter fun c => !(c.isReturn && c.layer == l)) ++ returnSections frame l cs
          marks := y.exch.marks.filter fun m => m.1 != l } }
      -- R133: with no row sent there is no section to wait for
      if cs.isEmpty then z.setFlag li.returnFlag else z)

/-! ### Commands -/

/-- The pass that the next panels of an engine are for (R59): of the SCORE phases of the layer and the lookahead passes that
score it, the earliest that has not ended and whose panels have not begun to land. -/
def State.sweepFor (s : State) (sl e layer : Nat) : Option Run :=
  let x := s.sl sl
  let g := x.engine e
  let begun (u : Run) : Bool := match g.sweep with | some w => w.pass == some u.idx && w.frame == u.frame | none => false
  (x.runs.filter fun u => u.engine? == some e && !u.over && !begun u &&
    ((u.entry.f.role == .score && u.entry.f.layer == some layer) ||
     (u.entry.f.role == .lookahead && (u.entry.f.layer.bind fun l => s.nextLayer sl l).map (·.layer) == some layer))).foldl
    (fun b u => match b with
      | some (v : Run) => if u.before v then some u else b
      | none => some u) none

/-- The loads that a panel belongs to: the next of those under way, or for an engine's first panel the ones that begin. -/
def State.sweepAt (s : State) (sl e layer panel : Nat) : Option Sweep :=
  if panel = e then
    match s.sweepFor sl e layer with
    | some u => some { layer := layer, pass := some u.idx, look := u.entry.f.role == .lookahead, frame := u.frame, next := panel }
    | none => some { layer := layer, pass := none, look := false, frame := s.frame, next := panel }
  else match ((s.sl sl).engine e).sweep with
    | some w => if w.layer = layer ∧ w.next = panel then some w else none
    | none => none

/-- Panel buffers whose pass is still to come: those of a pass that has ended are free again, and so are those that an engine's
first panel finds without one. -/
def SliceState.heldPanels (x : SliceState) (e panel : Nat) : List PanelBuf :=
  (x.engine e).panels.filter fun b => match b.pass with
    | some i => x.runs.any fun u => u.idx == i && !u.over
    | none => panel != e

/-- PANEL_LANDED (R59): the engine's panels land in ascending order, each in the panel buffer whose turn it is, and its scoring unit takes them
as they come. A panel that fails its checks ends with CHECKSUM every request with a valid row in the slice, except in a
lookahead pass, which selects nothing then, and is recorded. -/
def State.doPanelLanded (s : State) (sl : SliceId) (e : EngineId) (layer panel : Nat) : Out :=
  match s.layer? sl layer, s.sweepAt sl e layer panel with
  | some li, some w =>
    let x := s.sl sl
    let d := li.mainDesc
    let held := x.heldPanels e panel
    if panel % 4 ≠ e.val ∨ dExperts d / 64 ≤ panel ∨ 2 ≤ held.length then .next s
    else
      let b := x.load (panelAddr d panel) (panelBytes d)
      let ok := panelOk b
      let s := s.readFor sl (w.pass.bind fun i => x.runs.find? fun u => u.idx == i && !u.over) [(panelAddr d panel, panelBytes d)]
      let k := if held.any fun p => p.buf == (x.engine e).nextBuf then 1 - (x.engine e).nextBuf else (x.engine e).nextBuf
      let t := s.onSl sl fun y =>
        let z := (y.store (engineAddr e (li.panelLocal + k * panelBytes d)) b).onEngine e fun g =>
          { g with
            panels := held ++ [{ layer := layer, panel := panel, pass := w.pass, buf := k }]
            nextBuf := 1 - k
            sweep := some { w with next := panel + 4 } }
        if ok then z.setFlag? li.panelFlags[panel]? else z
      if ok then .next (t.scoreNext sl e)
      else
        let v := t.report sl (mkReport 0x04 3 (x.physEngine e) (if w.look then 0 else Status.checksum.code))
        let v1 := if w.look then
            v.onSl sl fun y => { y with routing := { y.routing with lookBad := (y.routing.lookBad.filter fun k => k.1 != layer) ++ [(layer, w.frame)] } }
          else v.endNext sl (fun r => x.svc.rowmap.any fun m => m.valid && m.req == r.slot) .checksum layer
        .next (v1.scoreNext sl e)
  | _, _ => .next s

/-- COUNT_RECORD (R75): the exchange receiver lands or discards a count record. -/
def execCountRecord (sl : SliceId) (src : Place) (msg : Bytes) (s : State) : Out := .next (s.landCount sl src msg)

/-- GRANT_RECORD (R75): the exchange receiver lands or discards a grant record. -/
def execGrantRecord (sl : SliceId) (src : Place) (msg : Bytes) (s : State) : Out := .next (s.landGrant sl src msg)

/-- VIEW_RECORD (R217): the exchange receiver lands or discards a view record. -/
def execViewRecord (sl : SliceId) (src : Place) (msg : Bytes) (s : State) : Out := .next (s.landView sl src msg)

/-- PASS_DIGEST_RECORD (R406): the exchange receiver lands or discards a pass-digest record. -/
def execPassDigestRecord (sl : SliceId) (src : Place) (msg : Bytes) (s : State) : Out :=
  .next (s.landPassDigest sl src msg)

/-- The candidates of a layer in a frame at the slice that holds them: slot, expert, replica and total count, ranked. The counts
of every home engine that sent one add up (R82). -/
def lookCandidates (x : SliceState) (d l : Nat) (frame : Drip) (own : Place) : List (SlotRef × Nat × Nat × Nat) :=
  let cs := ((slotsAt x (x.passDesc frame d) own).map fun r =>
    (r.2.2, r.1, r.2.1, ((x.routing.look.filter fun k => k.layer == l && k.frame == frame).map fun k =>
      ((k.counts.filter fun c => c.1 == r.2.2).map (·.2)).sum).sum)).filter fun c => c.2.2.2 != 0
  sortBy (fun a b => decide (b.2.2.2 < a.2.2.2) || (a.2.2.2 == b.2.2.2 &&
    (decide (a.2.1 < b.2.1) || (a.2.1 == b.2.1 && decide (a.2.2.1 < b.2.2.1))))) cs

/-- A lookahead fetch of a candidate (R82, R227): none for a slot that is no longer in SUMP, which counts as skipped, as one with
no frame does. -/
def State.lookFetch (s : State) (sl layer : Nat) (r : SlotRef) : State :=
  let x := s.sl sl
  let t := s.onSl sl fun y => { y with routing := { y.routing with looked := y.routing.looked ++ [(layer, s.frame, r)] } }
  if x.tiers.stateOf layer r == 1 && !x.tiers.fetching layer r then
    let (ok, w) := t.startFetch sl .lookahead layer r s.now ((x.segmentDrip s.frame layer r).getD s.now) none
    if ok then w.onSl sl fun y => { y with routing := { y.routing with lookaheadFetches := y.routing.lookaheadFetches + 1 } }
    else w
  else t.onSl sl fun y => { y with tiers := { y.tiers with noFrame := y.tiers.noFrame + 1 } }

/-- LOOKAHEAD_COUNT (R82, R227): the holding slice adds the counts, ranks its candidates and issues lookahead fetches, at most
LOOKAHEAD_MAX for the layer in a frame. It ranks again at each arrival, over the candidates it has not taken up yet (DESIGN
CHOICE, log 125). -/
def execLookaheadCount (sl : SliceId) (src : Place) (layer : Nat) (counts : List (SlotRef × Nat)) (s : State) : Out :=
  match s.layer? sl layer, (s.img sl).layers.find? (fun i => (s.nextLayer sl i.layer).map (·.layer) == some layer) with
  | some ln, some lp =>
    let old (f : Drip) : Bool := f == s.frame
    let t := s.onSl sl fun x => { x with routing := { x.routing with
      look := (x.routing.look.filter fun k => old k.frame) ++ [⟨src, layer, s.frame, counts⟩]
      looked := x.routing.looked.filter fun k => old k.2.1 } }
    let seen := (t.sl sl).routing.looked.filter fun k => k.1 == layer
    let cand := (lookCandidates (t.sl sl) ln.mainDesc layer s.frame (s.place sl)).filter fun c => !(seen.any fun k => k.2.2 == c.1)
    .next ((cand.take (dLookaheadMax lp.mainDesc - seen.length)).foldl (fun v c => v.lookFetch sl layer c.1) t)
  | _, _ => .next s

end Sys2Proof.Machine
end

