-- ==== Sys2Proof/Machine/Exchange.lean ====
section
/-! DEFINITION. Dispatch, exchange and combine (chapter 05): packing exchange blocks, sending an injection, the exchange
receiver, the combine unit, and the commands of the exchange. -/

namespace Sys2Proof.Machine

/-! ### Exchange blocks (R115 to R120) -/

/-- The row-block code of a FMT code of Tables 05-1 and 05-4: 6 there is binary32 (Table 07-1). -/
def rowFmt (c : Nat) : Nat := if c = 6 then 9 else c

/-- Rows a block carries at most (R115). -/
def blockRows (rb : Nat) : Nat := min 16 (262080 / max 1 rb)

/-- The fields of an exchange block header (Table 05-1). -/
structure BlockHeader where
  kind : Nat
  layer : Nat
  zrun : Bool
  fmt : Nat
  count : Nat
  last : Bool
  seq : Nat
  status : Nat
  tag : Nat
  home : Place
  exp : Place
  slot : SlotRef
  rowBytes : Nat
  payloadBytes : Nat
  crc : Nat
  rows : List Nat
  deriving DecidableEq, Repr

/-- The 64 header bytes. -/
def BlockHeader.bytes (h : BlockHeader) : Bytes :=
  leBytes 64 (field h.kind 8 0 + field h.layer 8 8 + field (b2n h.zrun) 1 16 + field h.fmt 3 17 + field h.count 5 20 +
    field (b2n h.last) 1 25 + field h.seq 11 26 + field h.status 8 40 + field h.tag 16 48 + field h.home.node 20 64 +
    field h.home.slice 3 84 + field h.exp.node 20 87 + field h.exp.slice 3 107 + field h.slot.quad 3 110 +
    field h.slot.slot 6 113 + field h.rowBytes 18 128 + field h.payloadBytes 18 146 + field h.crc 32 192 +
    ((h.rows.zipIdx.map fun r => field r.1 11 (256 + 16 * r.2)).sum))

/-- A header read from 64 bytes. -/
def blockHeader (n : Nat) : BlockHeader :=
  { kind := bits n 7 0, layer := bits n 15 8, zrun := bit n 16, fmt := bits n 19 17, count := bits n 24 20, last := bit n 25,
    seq := bits n 36 26, status := bits n 47 40, tag := bits n 63 48, home := { node := bits n 83 64, slice := bits n 86 84 },
    exp := { node := bits n 106 87, slice := bits n 109 107 }, slot := { quad := bits n 112 110, slot := bits n 118 113 },
    rowBytes := bits n 145 128, payloadBytes := bits n 163 146, crc := bits n 223 192,
    rows := (List.range 16).map fun i => bits n (16 * i + 266) (16 * i + 256) }

/-- The reserved fields of a header are 0, and the ROW entries beyond COUNT (Table 05-1). -/
def headerReserved (n : Nat) : Bool :=
  bits n 39 37 == 0 && bits n 127 119 == 0 && bits n 191 164 == 0 && bits n 255 224 == 0 &&
  ((List.range 16).all fun i => bits n (16 * i + 271) (16 * i + 267) == 0) &&
  ((List.range 16).all fun i => decide (i < bits n 24 20) || bits n (16 * i + 271) (16 * i + 256) == 0)

/-- Split the leading words of a list that satisfy a test, at most `k` of them. -/
def spanMax (p : Bytes → Bool) : Nat → List Bytes → Nat × List Bytes
  | 0, ws => (0, ws)
  | _, [] => (0, [])
  | k + 1, w :: ws => if p w then let r := spanMax p k ws; (r.1 + 1, r.2) else (0, w :: ws)

def zeroWord (w : Bytes) : Bool := w.all (· == 0)

/-- The zero-run payload of 64-bit words, with fuel (R118). -/
def zrunEncodeFrom : Nat → List Bytes → Bytes
  | 0, _ => []
  | _, [] => []
  | n + 1, ws =>
    let z := spanMax zeroWord 65535 ws
    let l := spanMax (fun w => !zeroWord w) 65535 z.2
    leBytes 8 (z.1 + l.1 * 65536) ++ (z.2.take l.1).flatten ++ zrunEncodeFrom n l.2

def wordsOf (b : Bytes) : List Bytes := pieces 8 b

/-- The canonical zero-run form of a dense payload (R118). -/
def zrunEncode (dense : Bytes) : Bytes := zrunEncodeFrom ((wordsOf dense).length + 1) (wordsOf dense)

/-- Decode a zero-run payload to exactly `d` words, with fuel for its control words; none where it fails its check (R118). -/
def zrunDecodeFrom : Nat → Nat → Bytes → Option Bytes
  | 0, _, _ => none
  | n + 1, d, b =>
    if d = 0 then (if b.isEmpty then some [] else none)
    else if b.length < 8 then none
    else
      let c := leNat (b.take 8)
      let z := bits c 15 0
      let l := bits c 31 16
      let rest := b.drop 8
      if bits c 63 32 ≠ 0 ∨ d < z + l ∨ rest.length < 8 * l then none
      else
        match zrunDecodeFrom n (d - z - l) (rest.drop (8 * l)) with
        | some t => some (zeros (8 * z) ++ rest.take (8 * l) ++ t)
        | none => none

def zrunDecode (d : Nat) (b : Bytes) : Option Bytes := zrunDecodeFrom (b.length + 1) d b

/-- The CRC of a block (R120): the header with CRC 0, then the payload as sent. -/
def blockCrc (hdr payload : Bytes) : Nat := crc32c (patch hdr 24 (zeros 4) ++ payload)

/-- A block from its rows: dense or zero-run (R119), with its CRC. -/
def makeBlock (h : BlockHeader) (compress : Bool) (dense : Bytes) : Bytes :=
  let z := zrunEncode dense
  let useZ := compress && !dense.isEmpty && decide (z.length < dense.length)
  let p := if useZ then z else dense
  let h1 := { h with zrun := useZ, payloadBytes := p.length, crc := 0 }
  ({ h1 with crc := blockCrc h1.bytes p }).bytes ++ p

/-- The blocks of one section (R115): rows as (capacity row, dense row). A status sends no payload (R137). -/
def sectionBlocks (h : BlockHeader) (compress : Bool) (rows : List (Nat × Bytes)) : List Bytes :=
  let g := blockRows h.rowBytes
  let ps := pieces g rows
  let qs := if ps.isEmpty then [[]] else ps
  qs.zipIdx.map fun x =>
    let dense := if h.status = 0 then (x.1.map (·.2)).flatten else []
    makeBlock { h with count := x.1.length, last := x.2 + 1 == qs.length, seq := x.2, rows := x.1.map (·.1) } compress dense

/-! ### PACK and SEND (R100, R122, R136, R137) -/

/-- Whether the context of a row was live at the launch drip of a PACK phase: SELECT found the row valid, and its context was ON
still (R54, R136). -/
def SliceState.rowLive (x : SliceState) (u : Run) (l t : Nat) : Bool :=
  x.rowValid l t && !u.dead.contains (x.rowAt l t).ctx

/-- Fields of an entry of a sorted list (Table 03-5): the slice, the slot, the capacity row and the token. -/
def lePlace (w : Nat) : Place := { node := bits w 51 32, slice := bits w 54 52 }
def leRef (w : Nat) : SlotRef := { quad := bits w 57 55, slot := bits w 63 58 }
def leRow (w : Nat) : Nat := bits w 74 64
def leToken (w : Nat) : Nat := bits w 105 96

/-- The entries of a sorted list in an engine's local memory. -/
def SliceState.sortedList (x : SliceState) (e a n : Nat) : List Nat := (List.range n).map fun i => x.loadNat (engineAddr e (a + 16 * i)) 16

/-- The dispatch blocks of a layer for one destination slice from a sorted list, and how many rows are written as zero words (R122,
R136). -/
def State.dispatchBlocks (s : State) (sl : Nat) (li : LayerInfo) (u : Run) (list : List Nat) (dst : Place) (compress : Bool) :
    List Bytes × Nat :=
  let x := s.sl sl
  let d := li.mainDesc
  let rb := rowBytes (dHiddenFmt d) (dWidth d)
  let tag := (x.selectTag u.frame li.layer).getD 0
  let toDst := list.filter fun w => lePlace w == dst
  let blocks := ((slotsAt x (x.passDesc u.frame d) dst).map fun r =>
    let rows := (toDst.filter fun w => leRef w == r.2.2).map fun w =>
      (leRow w, if x.rowLive u li.layer (leToken w) then x.load (li.hiddenAddr + leToken w * rb) rb else zeros rb)
    sectionBlocks
      { kind := 4, layer := li.layer, zrun := false, fmt := dHiddenFmt d, count := 0, last := false, seq := 0, status := 0,
        tag := tag, home := s.place sl, exp := dst, slot := r.2.2, rowBytes := rb, payloadBytes := 0, crc := 0, rows := [] }
      compress rows).flatten
  (blocks, (toDst.filter fun w => !x.rowLive u li.layer (leToken w)).length)

/-- The offset of output row 0 of a slot (R137). -/
def returnRow0 (li : LayerInfo) (r : SlotRef) : Nat :=
  match li.returnRows.find? fun k => k.1 == r with | some k => k.2 | none => 0

/-- The return blocks of a layer for one home slice, from a return list: sections with rows, of slots whose return list is written
or whose sections carry a status. None goes to a lost home (R134, R135, R137). -/
def State.returnBlocks (s : State) (sl : Nat) (li : LayerInfo) (u : Run) (list : List Nat) (home : Place) (compress : Bool) : List Bytes :=
  let x := s.sl sl
  let d := li.mainDesc
  let rb := rowBytes (rowFmt li.returnFmt) (dWidth d)
  let tag := (x.selectTag u.frame li.layer).getD 0
  let mine := list.filter fun w => lePlace w == home
  if x.fabric.lost.contains home then []
  else ((slotsAt x (x.passDesc u.frame d) (s.place sl)).map fun r =>
    let c? := x.exch.sections.find? fun c => !c.isReturn && c.layer == li.layer && c.peer == home && c.slot == r.2.2
    let st := (c?.bind (·.status)).getD 0
    -- a section that carries a status names its own rows (R137)
    let rows := if st = 0 then (mine.filter fun w => leRef w == r.2.2).map leRow else (c?.map (·.rows)).getD []
    if rows.isEmpty then []
    else
      sectionBlocks
        { kind := 5, layer := li.layer, zrun := false, fmt := li.returnFmt, count := 0, last := false, seq := 0, status := st,
          tag := tag, home := home, exp := s.place sl, slot := r.2.2, rowBytes := rb, payloadBytes := 0, crc := 0, rows := [] }
        compress (rows.map fun k => (k, if st = 0 then x.load (returnRow0 li r.2.2 + k * rb) rb else []))).flatten

/-- The destination slice of a global address (R122). -/
def placeOf (a : Nat) : Place := { node := bits a 63 44, slice := bits a 43 41 }

/-- Capacity rows of the sections of a layer that the return list holds, each as (home, slot, row) (R137). -/
def SliceState.returnRowsOf (x : SliceState) (layer : Nat) : List (Place × SlotRef × Nat) :=
  ((x.exch.sections.filter fun c => !c.isReturn && c.layer == layer &&
      x.exch.returnLists.any fun k => k.1 == layer && k.2.1 == c.slot).map fun c =>
    c.rows.map fun r => (c.peer, c.slot, r)).flatten

/-- The dispatch list of a layer (R80). -/
def SliceState.dispatchList (x : SliceState) (layer : Nat) : List Choice :=
  match x.routing.dispatch.find? fun k => k.1 == layer with
  | some k => k.2
  | none => []

/-- The layer that a PACK packs, and whether from its return list: as its phase names them, and for a phase that names neither as
the list's address does (DEDUCED, log 124). -/
def State.packLayer (s : State) (sl a : Nat) (u : Run) : Option (LayerInfo × Bool) :=
  let li? := match u.entry.f.layer with
    | some l => s.layer? sl l
    | none => (s.img sl).layers.find? fun i => i.dispatchLocal == a || i.returnLocal == a
  li?.map fun li => (li, match u.entry.f.role with
    | .packOut => false
    | .packBack => true
    | _ => li.returnLocal == a && li.dispatchLocal != a)

/-- The ranges that PACK reads for a destination: its sorted list, and the hidden rows or the output rows that it packs (R204). -/
def State.packReads (s : State) (sl e a : Nat) (li : LayerInfo) (u : Run) (isRet : Bool) (list : List Nat) (pl : Place) : List (Nat × Nat) :=
  let x := s.sl sl
  let d := li.mainDesc
  let mine := list.filter fun w => lePlace w == pl
  (engineAddr e a, 16 * list.length) ::
    (if isRet then
      let rb := rowBytes (rowFmt li.returnFmt) (dWidth d)
      (mine.filter fun w => !(x.exch.sections.any fun c => !c.isReturn && c.layer == li.layer && c.peer == pl && c.slot == leRef w &&
          c.status.isSome)).map fun w => (returnRow0 li (leRef w) + leRow w * rb, rb)
     else
      let rb := rowBytes (dHiddenFmt d) (dWidth d)
      (mine.filter fun w => x.rowLive u li.layer (leToken w)).map fun w => (li.hiddenAddr + leToken w * rb, rb))

/-- PACK: the blocks of a destination from the sorted list at a local address into a buffer; answers the length, or none for
UNIT_ARG (R122). -/
def State.packWork (s : State) (sl e a : Nat) (u : Run) (dst handle : Nat) (compress : Bool) : Option (Nat × State) :=
  let x := s.sl sl
  let pl := placeOf dst
  match s.packLayer sl a u, x.pools.match? handle with
  | some (li, isRet), some b =>
    let n := if isRet then (x.returnRowsOf li.layer).length else (x.dispatchList li.layer).length
    let shared := decide (0xC40000 ≤ a) && decide (a + 16 * n ≤ 0xD00000)
    if bits dst 40 0 ≠ 0 ∨ !s.members.contains pl ∨ !(decide (a + 16 * n ≤ 0xC00000) || shared) then none
    else
      let list := x.sortedList e a n
      let (blocks, voids) := if isRet then (s.returnBlocks sl li u list pl compress, 0) else s.dispatchBlocks sl li u list pl compress
      let data := blocks.flatten
      if data.length > classSize b.cls then none
      else
        let off := x.pools.offset b.cls b.idx
        some (data.length, (s.readFor sl (some u) (s.packReads sl e a li u isRet list pl)).onSl sl fun y =>
          let z := y.store off data
          { z with exch := { z.exch with
              packed := (z.exch.packed.filter fun k => k.1 != off) ++ [(off, pl, blocks.map (·.length))]
              discardedRows := z.exch.discardedRows + voids } })
  | _, _ => none

/-- The number of leading lengths that sum to exactly n. -/
def takeSum : Nat → List Nat → Option Nat
  | 0, _ => some 0
  | _, [] => none
  | n, l :: ls => if l ≤ n then (takeSum (n - l) ls).map (· + 1) else none
termination_by structural _ ls => ls

/-- Whole blocks from an offset in a packed buffer: destination and lengths, or none (R100). -/
def Exchange.blocksAt (x : Exchange) (off len : Nat) : Option (Place × List Nat) :=
  (x.packed.findSome? fun k =>
    if off < k.1 then none
    else match takeSum (off - k.1) k.2.2 with
      | none => none
      | some i => match takeSum len (k.2.2.drop i) with
        | none => none
        | some j => some (k.2.1, (k.2.2.drop i).take j))

/-- Cut bytes at lengths. -/
def cutAt : List Nat → Bytes → List Bytes
  | [], _ => []
  | n :: ns, b => b.take n :: cutAt ns (b.drop n)

/-! ### The exchange receiver (R124, R130 to R138) -/

/-- The landing position of capacity row c of a slot, or of return position p (R130). -/
def Exchange.landAddr (x : Exchange) (layer : Nat) (slot : Option SlotRef) (rb n : Nat) : Option Nat :=
  let g := blockRows rb
  match x.landing.find? fun b => b.set == layer % 2 && b.slot == slot && b.idx == n / max 1 g with
  | some b => some (b.offset + (n % max 1 g) * rb)
  | none => none

/-- Write a row to its landing position. -/
def SliceState.landRow (x : SliceState) (layer : Nat) (slot : Option SlotRef) (rb n : Nat) (b : Bytes) : SliceState :=
  match x.exch.landAddr layer slot rb n with
  | some a => x.store a b
  | none => x

/-- Change the sections a predicate picks. -/
def SliceState.onSections (x : SliceState) (p : Section → Bool) (f : Section → Section) : SliceState :=
  { x with exch := { x.exch with sections := x.exch.sections.map fun c => if p c then f c else c } }

def Section.is (c : Section) (ret : Bool) (layer : Nat) (peer : Place) (slot : SlotRef) : Bool :=
  c.isReturn == ret && c.layer == layer && c.peer == peer && c.slot == slot

/-- ROWS_USED of a slot, as GRANT left it (R76). -/
def SliceState.rowsUsed (x : SliceState) (layer : Nat) (r : SlotRef) : Nat :=
  match x.routing.used.find? fun u => u.1 == layer && u.2.1 == r with | some u => u.2.2 | none => 0

/-- The dispatch input of a slot becomes present when every section is complete: the pad rows are zeroed and the flag of
the slot is set (R133). The return list is written by its own command (R137). -/
def State.checkSlot (s : State) (sl : Nat) (li : LayerInfo) (r : SlotRef) : State :=
  let x := s.sl sl
  let secs := x.exch.sections.filter fun c => !c.isReturn && c.layer == li.layer && c.slot == r
  if secs.isEmpty || !(secs.all (·.complete)) then s
  else
    let d := li.mainDesc
    let rb := rowBytes (dHiddenFmt d) (dWidth d)
    let u := x.rowsUsed li.layer r
    s.onSl sl fun y =>
      let z := (List.range (16 * ceilDiv u 16 - u)).foldl (fun v i => v.landRow li.layer (some r) rb (u + i) (zeros rb)) y
      z.setFlag? ((li.dispatchFlags.find? fun k => k.1 == r).map (·.2))

/-- The return input of a home is present when every return section it expects is complete (R133). -/
def State.checkReturns (s : State) (sl : Nat) (li : LayerInfo) : State :=
  let secs := (s.sl sl).exch.sections.filter fun c => c.isReturn && c.layer == li.layer
  if secs.all (·.complete) then s.onSl sl fun y => y.setFlag li.returnFlag else s

/-- Mark the row of a token with a status: its request of the layer's pass ends with it at the next drip (R138, R141). For one whose
status has been given already it is one more condition, which is recorded (R12). -/
def State.markToken (s : State) (sl layer t st : Nat) : State :=
  let x := s.sl sl
  let u := s.onSl sl fun y => { y with exch := { y.exch with marks := y.exch.marks ++ [(layer, t, st)] } }
  u.endNext sl (fun q => x.snapOf layer q.frame && decide (q.firstRow ≤ t) && decide (t < q.firstRow + q.rows)) (Status.ofCode st) layer

/-- Whether a return status counts as a drop under LEGACY_TIER_DROP (R226). -/
def State.legacyStatus (s : State) (st : Nat) : Bool := s.dict.legacyDrop && !s.still.on && (st == 0x11 || st == 0x12)

/-- The kept choices of a layer behind a return section. -/
def SliceState.sectionChoices (x : SliceState) (layer : Nat) (peer : Place) (r : SlotRef) : List Choice :=
  (x.dispatchList layer).filter fun c => c.place == peer && c.ref == r

/-- Discard a block (R131). -/
def State.discardBlock (s : State) (sl : Nat) : State := s.discard sl 0x06

/-- A section fails its CRC or zero-run check: every row is zero, and it is complete with CHECKSUM (R132). -/
def State.failSection (s : State) (sl : Nat) (li : LayerInfo) (c : Section) (rb : Nat) : State :=
  let d := li.mainDesc
  let s1 := s.onSl sl fun x =>
    let pos : List Nat := if c.isReturn then (x.sectionChoices li.layer c.peer c.slot).map fun k => k.row * dK d + k.rank else c.rows
    let y := pos.foldl (fun v n => v.landRow li.layer (if c.isReturn then none else some c.slot) rb n (zeros rb)) x
    let z := y.onSections (fun k => k.is c.isReturn li.layer c.peer c.slot) fun k => { k with complete := true, status := some 0x13 }
    { z with exch := { z.exch with checksumBlocks := z.exch.checksumBlocks + 1 } }
  let s2 := s1.report sl (mkReport 0x06 0 0 0x13)
  if c.isReturn then
    (((s2.sl sl).sectionChoices li.layer c.peer c.slot).foldl (fun v k => v.markToken sl li.layer k.row 0x13) s2).checkReturns sl li
  else s2.checkSlot sl li c.slot

/-- Note a block of a section as landed; the section completes when LAST and every block below it have landed. None where
the total COUNT, once LAST has landed, is other than the rows expected: more than they are, or fewer with every block landed (R131). -/
def Section.account (c : Section) (h : BlockHeader) : Option Section :=
  let landed := h.seq :: c.landed
  let cnt := c.count + h.count
  let last := if h.last then some h.seq else c.lastSeq
  match last with
  | none => some { c with landed := landed, count := cnt }
  | some n =>
    if c.rows.length < cnt then none
    else if (List.range (n + 1)).all fun i => landed.contains i then
      (if cnt = c.rows.length then some { c with landed := landed, count := cnt, lastSeq := last, complete := true } else none)
    else some { c with landed := landed, count := cnt, lastSeq := last }

/-- The rows of a block's payload, or none where a check fails (R118, R120). A payload of another length than PAYLOAD_BYTES, or a
dense one that is not COUNT rows long, fails as a zero-run length check would (DEDUCED, log 138). -/
def blockData (hdr : Bytes) (h : BlockHeader) (payload : Bytes) : Option (List Bytes) :=
  if payload.length ≠ h.payloadBytes ∨ blockCrc hdr payload ≠ h.crc then none
  else if h.status ≠ 0 then some []
  else
    let n := h.count * h.rowBytes
    match (if h.zrun then zrunDecode (n / 8) payload else some payload) with
    | some d => if d.length = n then some ((List.range h.count).map fun i => (d.drop (i * h.rowBytes)).take h.rowBytes) else none
    | none => none

/-- A block that a section may take: not complete, at most G rows, each expected, SEQ not landed (R131). A block of a section that
is complete or failed is not among those expected, and is discarded and counted (DEDUCED, log 138). So is one that R115 and R137 let
no sender make: COUNT above G, COUNT 0 with a payload or ZRUN, and a payload beside a STATUS (DESIGN CHOICE, log 138). -/
def blockFits (c : Section) (h : BlockHeader) : Bool :=
  !c.complete && decide (h.count ≤ blockRows h.rowBytes) && ((h.rows.take h.count).all fun r => c.rows.contains r) &&
  !c.landed.contains h.seq && (h.count != 0 || (h.payloadBytes == 0 && !h.zrun)) && (h.status == 0 || h.payloadBytes == 0)

/-- A DISPATCH block arrives at the expert slice (R131, R132, R133). The header is judged before the CRC: a block that fails both is
discarded and fails no section; one with a STATUS, which only a return block carries, is discarded (DESIGN CHOICE, log 138). -/
def State.landDispatch (s : State) (sl : Nat) (msg : Bytes) : State :=
  let hdr := msg.take 64
  let n := leNat hdr
  let h := blockHeader n
  let x := s.sl sl
  match s.layer? sl h.layer, x.exch.sections.find? fun c => c.is false h.layer h.home h.slot with
  | some li, some c =>
    let d := li.mainDesc
    let rb := rowBytes (dHiddenFmt d) (dWidth d)
    if msg.length < 64 || h.kind != 4 || !headerReserved n || x.selectTag s.frame h.layer != some h.tag || h.exp != s.place sl ||
       h.status != 0 || h.fmt != dHiddenFmt d || h.rowBytes != rb || !blockFits c h then s.discardBlock sl
    else
      match blockData hdr h (msg.drop 64) with
      | none => s.failSection sl li c rb
      | some rows =>
        let t := s.onSl sl fun y =>
          (h.rows.zip rows).foldl (fun v r => v.landRow h.layer (some h.slot) rb r.1 r.2) y
        match c.account h with
        | none => t.discardBlock sl
        | some c' => (t.onSl sl fun y => y.onSections (fun k => k.is false h.layer h.home h.slot) fun _ => c').checkSlot sl li h.slot
  | _, _ => s.discardBlock sl

/-- A RETURN block arrives at the home (R131, R138, R226). -/
def State.landReturn (s : State) (sl : Nat) (msg : Bytes) : State :=
  let hdr := msg.take 64
  let n := leNat hdr
  let h := blockHeader n
  let x := s.sl sl
  match s.layer? sl h.layer, x.exch.sections.find? fun c => c.is true h.layer h.exp h.slot with
  | some li, some c =>
    let d := li.mainDesc
    let rb := rowBytes (rowFmt li.returnFmt) (dWidth d)
    if msg.length < 64 || h.kind != 5 || !headerReserved n || x.selectTag s.frame h.layer != some h.tag || h.home != s.place sl ||
       h.fmt != li.returnFmt || h.rowBytes != rb || !blockFits c h then s.discardBlock sl
    else
      match blockData hdr h (msg.drop 64) with
      | none => s.failSection sl li c rb
      | some rows =>
        let ks := x.sectionChoices h.layer h.exp h.slot
        let choice (r : Nat) : List Choice := ks.filter fun k => k.capRow == r
        let t := s.onSl sl fun y => (h.rows.zip rows).foldl (fun v r =>
          (choice r.1).foldl (fun w k => w.landRow h.layer none rb (k.row * dK d + k.rank) r.2) v) y
        match c.account h with
        | none => t.discardBlock sl
        | some c' =>
          -- R138: a status marks the tokens; R226: in legacy mode a tier status drops the section's choices
          let u := if h.status = 0 || s.legacyStatus h.status then t
            else ((h.rows.take h.count).map choice).flatten.foldl (fun v k => v.markToken sl h.layer k.row h.status) t
          (u.onSl sl fun y => y.onSections (fun k => k.is true h.layer h.exp h.slot) fun _ =>
            { c' with status := if h.status = 0 then c'.status else some h.status }).checkReturns sl li
  | _, _ => s.discardBlock sl

/-- The exchange receiver takes a whole message, told apart by its KIND byte (R124). -/
def State.exchangeReceive (s : State) (sl : Nat) (src : Place) (msg : Bytes) : State :=
  match (msg.getD 0 0).toNat with
  | 1 => s.landCount sl src msg
  | 2 => s.landGrant sl src msg
  | 4 => s.landDispatch sl msg
  | 5 => s.landReturn sl msg
  | 7 => s.landView sl src msg
  | 8 => s.landPassDigest sl src msg
  | _ => s.discardBlock sl

/-! ### Injection (R123 to R125, R281) -/

/-- Count a block as sent (R143): blocks, zero-run blocks and the bytes they save. -/
def Exchange.countSent (x : Exchange) (msg : Bytes) : Exchange :=
  let h := blockHeader (leNat (msg.take 64))
  if h.kind = 4 ∨ h.kind = 5 then
    { x with
      blocksSent := x.blocksSent + 1
      zrunBlocks := x.zrunBlocks + b2n h.zrun
      bytesSaved := x.bytesSaved + (if h.zrun then h.count * h.rowBytes - h.payloadBytes else 0) }
  else x

/-- EXCH_RX_BASE of a destination slice: this device's slices as the image gives them; another device's slice as the slice
of the same number here (DESIGN CHOICE, log 20). -/
def State.rxBaseOf (s : State) (dst : Place) : Nat :=
  match s.job with
  | some j => (j.slices.getD dst.slice {}).exchRxBase
  | none => 0

/-- A return block for a home that is marked lost: none goes to it (R134). -/
def SliceState.voidReturn (x : SliceState) (q : QueuedMsg) : Bool := x.fabric.lost.contains q.dst && rKind (leNat (q.data.take 16)) == 5

/-- A message of this slice's own requests for another device: a dispatch block or a count record (R44). -/
def State.freeStops (s : State) (q : QueuedMsg) : Bool :=
  q.dst.node != s.pkg.nodeId && (rKind (leNat (q.data.take 16)) == 1 || rKind (leNat (q.data.take 16)) == 4)

/-- Send one queued message: to the own slice it is written locally, to another it goes as WRITE packets (R123, R124). -/
def State.injectMsg (s : State) (sl : Nat) (u : Run) (q : QueuedMsg) : State :=
  if (s.sl sl).voidReturn q || (u.freed && s.freeStops q) then s else
  let t := s.onSl sl fun x => { x with exch := x.exch.countSent q.data }
  if q.dst = s.place sl then t.exchangeReceive sl q.dst q.data
  else t.sendMsg sl
    { dst := q.dst, opcode := opWRITE, parts := payloadParts (s.rxBaseOf q.dst) q.data, fence := q.fence,
      sched := s.pkg.congestionMode == 0, issuer := .inject u.idx u.frame }

/-- The destination slices of the job in the order of R125: from the one after its own, its own last. -/
def State.rotated (s : State) (sl : Nat) : List Place :=
  let ms := s.members
  let own := s.place sl
  (ms.filter fun p => Place.lt own p) ++ (ms.filter fun p => Place.lt p own) ++ [own]

/-- The order of R122 within a destination: (QUAD, SLOT), then SEQ; a record has none of these and keeps its place. -/
def blockKey (q : QueuedMsg) : Nat :=
  let h := blockHeader (leNat (q.data.take 64))
  if h.kind = 4 ∨ h.kind = 5 then (h.slot.quad * 64 + h.slot.slot) * 2048 + h.seq else 0

/-- The messages of an injection for one destination in the order in which they leave (R125). -/
def toDestination (qs : List QueuedMsg) (p : Place) : List QueuedMsg :=
  (sortBy (fun a b => decide (blockKey a.1 < blockKey b.1) || (blockKey a.1 == blockKey b.1 && decide (a.2 < b.2)))
    ((qs.filter fun q => q.dst == p).zipIdx)).map (·.1)

/-- Send everything queued for an injection, destination by destination (R125). -/
def State.injectAll (s : State) (sl : Nat) (u : Run) (inj : Nat) : State :=
  let mine := (s.sl sl).exch.injections.filter fun q => q.injection == inj
  let t := s.onSl sl fun x => { x with exch := { x.exch with
    injections := x.exch.injections.filter fun q => q.injection != inj } }
  ((s.rotated sl).map (toDestination mine)).flatten.foldl (fun v q => v.injectMsg sl u q) t

/-- What SEND notes of a block that it queues (R100, R125). -/
def sentBlock (frame : Drip) (q : QueuedMsg) : SentBlock :=
  let h := blockHeader (leNat (q.data.take 64))
  { injection := q.injection, frame := frame, kind := h.kind, layer := h.layer, dst := q.dst, slot := h.slot, seq := h.seq }

/-- The blocks of a layer that a source makes for a destination, by slot and SEQ in the order of R122 (R115, R122, R134, R137): a
section for every slot of a dispatch, and for a return the sections with rows of a home that is not lost. -/
def State.blocksFor (s : State) (sl : Nat) (frame : Drip) (h : BlockHeader) (p : Place) : List (SlotRef × Nat) :=
  let x := s.sl sl
  match s.layer? sl h.layer with
  | none => []
  | some li =>
    let g := max 1 (blockRows h.rowBytes)
    let seqs (r : SlotRef) (n : Nat) : List (SlotRef × Nat) := (List.range n).map fun k => (r, k)
    if h.kind = 4 then
      ((slotsAt x (x.passDesc frame li.mainDesc) p).map fun r => seqs r.2.2
        (max 1 (ceilDiv ((x.dispatchList h.layer).filter fun c => c.place == p && c.ref == r.2.2).length g))).flatten
    else if x.fabric.lost.contains p then []
    else
      let mine := x.exch.sections.filter fun c => !c.isReturn && c.layer == h.layer && c.peer == p
      ((sortBy (fun a b => slotLt a.slot b.slot) mine).map fun c => seqs c.slot (ceilDiv c.rows.length g)).flatten

/-- MARKED mode: what is queued for an injection leaves at once in the order of R125: a block waits until every block before it has
been queued, by this injection or another, and blocks to the own slice wait until the launch drip (R100, R122, R123, R125). -/
def State.injectMarked (s : State) (sl : Nat) (u : Run) (inj : Nat) (h : BlockHeader) : State :=
  let keys := (((s.rotated sl).filter (· != s.place sl)).map fun p => (s.blocksFor sl u.frame h p).map fun k => (p, k)).flatten
  (keys.foldl (fun (a : Bool × State) k =>
    if !a.1 then a
    else
      let v := a.2
      let is (q : QueuedMsg) : Bool :=
        let b := sentBlock u.frame q
        q.injection == inj && b.kind == h.kind && b.layer == h.layer && b.dst == k.1 && b.slot == k.2.1 && b.seq == k.2.2
      match (v.sl sl).exch.injections.find? is with
      | some q => (true, (v.onSl sl fun x => { x with exch := { x.exch with injections := x.exch.injections.eraseP is } }).injectMsg sl u q)
      | none => ((v.sl sl).exch.sent.any fun b =>
          b.frame == u.frame && b.kind == h.kind && b.layer == h.layer && b.dst == k.1 && b.slot == k.2.1 && b.seq == k.2.2, v))
    (true, s)).2

/-! ### Combine (R139 to R141) -/

/-- A row of a tensor at an offset. -/
def tensorRow (x : SliceState) (fmt addr width t : Nat) : List F32 × Bool :=
  let n := rowBytes fmt width
  (toF32 (decodeRow fmt width (x.load (addr + t * n) n)), x.poisoned (addr + t * n) n)

/-- One step of the weighted sum: an exact product and one rounding (R140). -/
def fma32 (acc w o : F32) : F32 := round32 ((F32.num acc).add ((F32.num w).mul (F32.num o)))

/-- The kept choices of a row in ascending rank; a section dropped in legacy mode leaves the row, with the remaining
weights scaled (R140, R226). -/
def State.keptOf (s : State) (sl : Nat) (li : LayerInfo) (t : Nat) : List Choice :=
  let x := s.sl sl
  let all := sortBy (fun a b => decide (a.rank < b.rank))
    ((x.dispatchList li.layer).filter fun c => c.row == t)
  let live := all.filter fun c => !(x.exch.sections.any fun k =>
    k.is true li.layer c.place c.ref && (match k.status with | some st => s.legacyStatus st | none => false))
  if live.length = all.length || !dRenorm li.mainDesc || live.isEmpty then live
  else
    let sAll := sumInOrder (all.map (·.weight))
    let sSurv := sumInOrder (live.map (·.weight))
    match F32.num sAll, F32.num sSurv with
    | .fin _ _ _, .fin _ m _ =>
      if m = 0 then live else let f := F32.div sAll sSurv; live.map fun c => { c with weight := F32.mul c.weight f }
    | _, _ => live

/-- The output of one row of the combine, and whether it read a poisoned word (R140, R204). -/
def State.combineRow (s : State) (sl : Nat) (li : LayerInfo) (w0 add mul t : Nat) : List F32 × Bool :=
  let x := s.sl sl
  let d := li.mainDesc
  let width := dWidth d
  let rb := rowBytes (rowFmt li.returnFmt) width
  let ks := s.keptOf sl li t
  let zero : List F32 := List.replicate width 0
  let a := if bit w0 17 then tensorRow x (rowFmt (bits w0 23 21)) add width t else (zero, false)
  if ks.isEmpty then (a.1, a.2)
  else
    let acc := ks.foldl (fun (v : List F32 × Bool) c =>
      match x.exch.landAddr li.layer none rb (t * dK d + c.rank) with
      | some ad => ((v.1.zip (toF32 (decodeRow (rowFmt li.returnFmt) width (x.load ad rb)))).map fun y => fma32 y.1 c.weight y.2,
          v.2 || x.poisoned ad rb)
      | none => v) (zero, false)
    let m := if bit w0 16 then tensorRow x (rowFmt (bits w0 20 18)) mul width t else (zero, false)
    let acc1 := if bit w0 16 then (acc.1.zip m.1).map fun y => F32.mul y.1 y.2 else acc.1
    let acc2 := if bit w0 17 then (acc1.zip a.1).map fun y => F32.add y.1 y.2 else acc1
    (acc2, acc.2 || m.2 || a.2)

/-- Reserved fields are 0, no format code is reserved and every address lies in the slice's HBM (R139, Table 05-4). -/
def combineFieldsOk (n : Nat) : Bool :=
  bits n 63 27 == 0 && bits n 127 105 == 0 && bits n 191 169 == 0 && bits n 255 233 == 0 &&
  bits n 20 18 != 7 && bits n 23 21 != 7 && bits n 26 24 != 7 && decide (bits n 104 64 < 0x4000000000) &&
  decide (bits n 168 128 < 0x4000000000) && decide (bits n 232 192 < 0x4000000000)

/-- The combine descriptor is well formed (Table 05-4). -/
def combineOk (n : Nat) : Bool := bits n 7 0 == 6 && combineFieldsOk n

/-- The output rows of a combine over an engine's home rows touch the weight region, which changes only inside a write window, and no
window admits a combine (R203, R211). -/
def SliceState.combineBarred (x : SliceState) (e n d : Nat) : Bool :=
  let orb := rowBytes (rowFmt (bits n 26 24)) (dWidth d)
  (homeRows d e).any fun t =>
    let a := bits n 104 64 + t * orb
    decide (0 < x.tiers.weightBytes) && decide (a < x.tiers.weightBase + x.tiers.weightBytes) && decide (x.tiers.weightBase < a + orb)

/-- A row takes part in the combine of a layer: it is valid for the layer, its request has not ended, and it carries no status (R140,
R141). -/
def SliceState.combines (x : SliceState) (l t : Nat) : Bool :=
  x.rowValid l t && !(x.exch.marks.any fun m => m.1 == l && m.2.1 == t) &&
  x.svc.reqs.any fun q => q.slot == (x.rowAt l t).req && !q.ended && (match x.snap? l with | some k => q.frame == k.frame | none => true)

/-- The combine unit of an engine over its home row blocks (R140, R141). A poisoned word among what it reads ends the requests tied to
its stage (R204). -/
def State.combineWork (s : State) (sl e n : Nat) (u : Run) : State :=
  match s.layer? sl (bits n 15 8) with
  | none => s
  | some li =>
    let d := li.mainDesc
    let ofmt := rowFmt (bits n 26 24)
    let orb := rowBytes ofmt (dWidth d)
    let rows := (homeRows d e).filter ((s.sl sl).combines li.layer)
    let out := rows.foldl (fun (v : State × Bool) t =>
      let (vals, bad) := v.1.combineRow sl li n (bits n 168 128) (bits n 232 192) t
      if bad then (v.1, true)
      else
        let w := encodeRow ofmt (vals.map F32.num)
        (v.1.onSl sl fun x =>
          let y := x.store (bits n 104 64 + t * orb) w.bytes
          { y with arr := { y.arr with
              satElements := y.arr.satElements + w.sat
              nonfiniteDrains := y.arr.nonfiniteDrains + b2n w.nonfinite } }, v.2)) (s, false)
    if out.2 then out.1.faultStage sl u .fault else out.1

/-! ### Commands -/

/-- DISPATCH_BLOCK (R131). -/
def execDispatchBlock (sl : SliceId) (_src : Place) (msg : Bytes) (s : State) : Out := .next (s.landDispatch sl msg)

/-- RETURN_BLOCK (R138). -/
def execReturnBlock (sl : SliceId) (_src : Place) (msg : Bytes) (s : State) : Out := .next (s.landReturn sl msg)

/-- An entry of the return list (R137): NODE and SLICE name the home. -/
def returnEntry (h : Place) (r : SlotRef) (row : Nat) : Nat :=
  field h.node 20 32 + field h.slice 3 52 + field r.quad 3 55 + field r.slot 6 58 + field row 11 64

/-- The return list of a layer: (NODE, SLICE, QUAD, SLOT, ROW) ascending over the slots whose lists are written. -/
def SliceState.returnList (x : SliceState) (layer : Nat) : Bytes :=
  let lt (a b : Place × SlotRef × Nat) : Bool :=
    Place.lt a.1 b.1 || (a.1 == b.1 && (slotLt a.2.1 b.2.1 || (a.2.1 == b.2.1 && decide (a.2.2 < b.2.2))))
  ((sortBy lt (x.returnRowsOf layer)).map fun e => leBytes 16 (returnEntry e.1 e.2.1 e.2.2)).flatten

/-- RETURN_LIST_WRITE (R137): the return list of a slot whose dispatch input is present, in every engine's list. -/
def execReturnListWrite (sl : SliceId) (layer : Nat) (r : SlotRef) (s : State) : Out :=
  match s.layer? sl layer with
  | none => .next s
  | some li =>
    let secs := (s.sl sl).exch.sections.filter fun c => !c.isReturn && c.layer == layer && c.slot == r
    if secs.isEmpty || !(secs.all (·.complete)) then .next s
    else
      .next (s.onSl sl fun x =>
        let y := { x with exch := { x.exch with
          returnLists := (x.exch.returnLists.filter fun k => !(k.1 == layer && k.2.1 == r)) ++ [(layer, r, [])] } }
        (List.range 4).foldl (fun v e => v.store (engineAddr e li.returnLocal) (y.returnList layer)) y)

/-- COMBINE (R139): the phase launches, its threads start, and the combine unit of the engine is in use. -/
def execCombineStage (sl : SliceId) (i : Nat) (s : State) : Out :=
  match s.actingRun sl i .combine with
  | none => .next s
  | some (u, t) =>
    match u.engine? with
    | none => .next t
    | some e =>
      .next (t.onSl sl fun x =>
        (x.startPhase u u.launchDrip).onEngine e fun g => { g with busy := g.busy ++ [(.combine, 64)] })

/-- COMBINE_COMPLETE (R140): the rows are written, the flag of the output is set, and a layer whose last home engine is
done is noted for its layer boundary (R369). -/
def State.doCombineComplete (s : State) (sl : SliceId) (i : Nat) : Out :=
  match (s.sl sl).runs.find? fun u => u.idx == i && u.entry.kind == .combine && u.st == .launched && u.begun with
  | none => .next s
  | some u =>
    match u.engine? with
    | none => .next s
    | some e =>
      if ((s.sl sl).engine e).busy.any (fun b => b.1 == .combine) then
        let n := leNat ((s.sl sl).load (engineAddr e (u.entry.f.arg.toNat % 2 ^ 24)) 32)
        -- R4: a descriptor that is no combine descriptor of a layer of the image, or whose output lies in the weight region (R203), ends
        -- the stage's requests, and nothing is written
        let fit := combineOk n && (match s.layer? sl (bits n 15 8) with
          | some li => !(s.sl sl).combineBarred e n li.mainDesc
          | none => false)
        let t := if fit then s.combineWork sl e n u
          else (s.report sl (mkReport 0x04 3 ((s.sl sl).physEngine e) (if s.tied sl u then Status.fault.code else 0)
            u.entry.ctx)).faultStage sl u .fault
        .next (t.onSl sl fun x =>
          let w := x.onEngine e fun g => { g with busy := g.busy.filter fun b => b.1 != .combine }
          let y := if fit then w.setFlag? u.entry.f.sets else w
          let l := bits n 15 8
          let left := y.runs.any fun v => v.entry.kind == .combine && v.frame == u.frame && v.entry.f.layer == u.entry.f.layer &&
            v.idx != u.idx && (!v.begun || (match v.engine? with
              | some g => (y.engine g).busy.any fun b => b.1 == .combine
              | none => false)) && !v.over
          let z := if left || y.svc.combined.any (fun k => k.1 == l) then y
            else { y with svc := { y.svc with combined := y.svc.combined ++ [(l, s.now.plus 1)] } }
          z.tryCompletePhase e u.entry.f.first)
      else .next s

/-- A section is past its use: the stages of its pass that read it have ended or can launch no more, or its pass is over (R134, R135). -/
def SliceState.sectionPast (x : SliceState) (now : Drip) (c : Section) : Bool :=
  let mine := x.runs.filter fun u => u.frame == c.frame
  let readers := mine.filter fun u => u.entry.f.layer == some c.layer &&
    (if c.isReturn then u.entry.kind == .combine else u.entry.kind == .quad && u.entry.f.slots.contains c.slot)
  mine.isEmpty || (!readers.isEmpty && readers.all fun u => u.over || (!c.isReturn && Drip.later now u.latestDrip))

/-- Sections of lost peers are settled at the boundary of their mark (R134): a lost home's sections are zero-filled, and a
home marks the rows it expected from a lost expert slice. "The event" that is counted and recorded is one section with rows; one
without rows has lost nothing and is completed alone (DESIGN CHOICE, log 147). -/
def State.settleLost (s : State) (sl : Nat) (lost : Place → Bool) : State :=
  let x := s.sl sl
  let open1 := x.exch.sections.filter fun c => !c.complete && lost c.peer && !x.sectionPast s.now c
  open1.foldl (fun v c =>
    match v.layer? sl c.layer with
    | none => v
    | some li =>
      let d := li.mainDesc
      if c.isReturn then
        let w := v.onSl sl fun y => y.onSections (fun k => k.is true c.layer c.peer c.slot) fun k => { k with complete := true, status := some 0x15 }
        (((w.sl sl).sectionChoices c.layer c.peer c.slot).foldl (fun z k => z.markToken sl c.layer k.row 0x15) w).checkReturns sl li
      else
        let rb := rowBytes (dHiddenFmt d) (dWidth d)
        let w := v.onSl sl fun y =>
          let y1 := c.rows.foldl (fun z n => z.landRow c.layer (some c.slot) rb n (zeros rb)) y
          let y2 := y1.onSections (fun k => k.is false c.layer c.peer c.slot) fun k => { k with complete := true }
          let a := shapeAddr y2 c.layer + 64 + 8 * (64 * c.slot.quad + c.slot.slot)
          if c.rows.isEmpty then y2
          else
            let y3 := y2.store a (leBytes 8 (y2.loadNat a 8 ||| 2 ^ 37))
            { y3 with exch := { y3.exch with lostSources := y3.exch.lostSources + 1 } }
        let w1 := if c.rows.isEmpty then w else w.report sl (mkReport 0x06 0 0)
        w1.checkSlot sl li c.slot) s

/-- A link or a peer on the way from a slice is known lost: the peer is marked, the internal link to it is lost, or its node has no
eligible port (R135). -/
def State.knownLost (s : State) (sl : Nat) (p : Place) : Bool :=
  (s.sl sl).fabric.lost.contains p ||
  (if p.node = s.pkg.nodeId then s.pairLost sl p.slice
   else (s.eligible p.node s.pkg.routeActive).isEmpty || (s.still.on && s.wayLost p.node))

/-- A missed segment: the sections of its slots that have no status carry FABRIC_LOST where a link or peer of a missing section is
known lost, and DEADLINE otherwise (R135). -/
def State.missSlots (s : State) (sl : Nat) (u : Run) : State :=
  let x := s.sl sl
  s.onSl sl fun y => y.onSections
    (fun c => !c.isReturn && some c.layer == u.entry.f.layer && u.entry.f.slots.contains c.slot && !c.rows.isEmpty && c.status.isNone)
    fun c =>
      let lost := x.exch.sections.any fun k => !k.isReturn && k.layer == c.layer && k.slot == c.slot && !k.complete &&
        s.knownLost sl k.peer
      { c with status := some (if lost then 0x15 else 0x10) }

/-- Sections made for a peer that is marked lost already are settled at once (R134). -/
def State.settleMade (s : State) (sl : Nat) : State :=
  let lost := (s.sl sl).fabric.lost
  if lost.isEmpty then s else s.settleLost sl fun p => lost.contains p

end Sys2Proof.Machine
end

