-- ==== Sys2Proof/Machine/Operands.lean ====
section
/-! DEFINITION. The operand forms of the instruction words: a route program's word (Table 04-4) and a quad program's word
(Table 06-7), and the local address space of an engine (Table 04-3). -/

namespace Sys2Proof.Machine

/-! ### Route programs (R95, R96) -/

def wOp (w : Nat) : Nat := bits w 63 58
def wPred (w : Nat) : Nat := bits w 57 55
def wNeg (w : Nat) : Bool := bit w 54
def wD (w : Nat) : Nat := bits w 53 49
def wA (w : Nat) : Nat := bits w 48 44
def wB (w : Nat) : Nat := bits w 43 39
def wFn (w : Nat) : Nat := bits w 38 32
def wImm (w : Nat) : Nat := bits w 31 0
/-- The predicates that CMP, PLOG and FREE name. -/
def wPd (w : Nat) : Nat := bits w 51 49
def wPa (w : Nat) : Nat := bits w 46 44
def wPb (w : Nat) : Nat := bits w 41 39

/-- Whether the guard holds (R96). -/
def Thread.guardHolds (h : Thread) (w : Nat) : Bool := h.pred (wPred w) != wNeg w

/-- The first operand, gA. -/
def Thread.opA (h : Thread) (w : Nat) : Word := h.reg (wA w)
/-- gB. -/
def Thread.opB (h : Thread) (w : Nat) : Word := h.reg (wB w)

/-- src2: gB, or IMM sign-extended with FN[0] set (R96). -/
def Thread.src2 (h : Thread) (w : Nat) : Word := if bit (wFn w) 0 then sext32 (wImm w) else h.opB w

/-- A local or remote address: gA + sign-extended IMM (R96). -/
def Thread.addr (h : Thread) (w : Nat) : Nat := (h.opA w + sext32 (wImm w)).toNat

/-- FN[2:1]. -/
def wFn2 (w : Nat) : Nat := bits (wFn w) 2 1

/-- The width in bytes of FN[2:1]: 1, 2, 4, 8. -/
def wWidth (w : Nat) : Nat := 2 ^ wFn2 w

/-! ### The local address space of an engine (Table 04-3) -/

/-- A load may address any of the 16 MiB. -/
def localRead (a n : Nat) : Bool := decide (a + n ≤ 0x1000000)

/-- A store may address the shared region, or the thread's own window, and lies in one of the two: one of thread 0 that begins in
the first and ends in the second addresses neither (DEDUCED, log 132). -/
def localWrite (t a n : Nat) : Bool :=
  (decide (0xC40000 ≤ a) && decide (a + n ≤ 0xD00000)) ||
  (decide (0xD00000 + t * 0xC000 ≤ a) && decide (a + n ≤ 0xD00000 + (t + 1) * 0xC000))

/-- The program word of a thread's program counter (R94, R113). -/
def SliceState.routeWord (x : SliceState) (e pc : Nat) : Nat := x.loadNat (engineAddr e (0xC00000 + 8 * pc)) 8

/-! ### Global addresses (R265, R314) -/

def gaNode (a : Nat) : Nat := bits a 63 44
def gaSlice (a : Nat) : Nat := bits a 43 41
def gaOffset (a : Nat) : Nat := bits a 40 0
def gaPlace (a : Nat) : Place := { node := gaNode a, slice := gaSlice a }

/-- The multicast group of a global address (R314). -/
def gaGroup (a : Nat) : Option Nat := if 0xFFC00 ≤ gaNode a then some (gaNode a - 0xFFC00) else none

/-! ### Quad programs (Table 06-7) -/

/-- CLASS and OP together: bits [63:56]. -/
def qCode (w : Nat) : Nat := bits w 63 56
def qMask (w : Nat) : Nat := bits w 55 52
def qD (w : Nat) : Nat := bits w 51 48
def qA (w : Nat) : Nat := bits w 47 44
def qB (w : Nat) : Nat := bits w 43 40
def qFn (w : Nat) : Nat := bits w 39 32
def qImm (w : Nat) : Nat := bits w 31 0

/-- The arrays of AMASK, ascending. -/
def qArrays (w : Nat) : List Nat := setBits 4 (qMask w)

end Sys2Proof.Machine
end

