-- ==== Sys2Proof/Machine/Tiles.lean ====
section
/-! DEFINITION. Weight tiles and what an array computes with them (chapter 06): the tile header and payload (R150 to R153),
the columns of a loaded tile (R155, R156), the forward and transposed streams (R145, R154, R158), and the writing of tiles
(R162 to R164). -/

namespace Sys2Proof.Machine

/-! ### The tile header (Table 06-2), 256 bits -/

def thElem (h : Nat) : Nat := bits h 11 8
def thForm (h : Nat) : Nat := bits h 13 12
def thLayout (h : Nat) : Nat := bits h 15 14
def thKext (h : Nat) : Nat := bits h 22 16
def thNext (h : Nat) : Nat := bits h 29 23
def thId (h : Nat) : Nat := bits h 79 32
def thBytes (h : Nat) : Nat := bits h 99 80
def thCrc (h : Nat) : Nat := bits h 159 128

def formDense : Nat := 0
def formSparse : Nat := 1
def formZero : Nat := 2

/-- Bytes of the elements, the indices and the scales of a payload (Table 06-4). -/
def elemSection (elem : Nat) : Nat :=
  if elem = 8 then 8192 else if elem = 6 ∨ elem = 7 then 12288 else if elem = 4 ∨ elem = 5 then 32768 else 16384
def indexSection (form : Nat) : Nat := if form = formSparse then 4096 else 0
def tileBlocks (form : Nat) : Nat := if form = formSparse then 8 else 4
def scaleSection (elem form : Nat) : Nat := if isMX elem then 128 * tileBlocks form else 0

/-- PAYLOAD_BYTES of an element format and form (Table 06-4). -/
def tilePayload (elem form : Nat) : Nat :=
  if form = formZero then 0 else elemSection elem + indexSection form + scaleSection elem form

/-- A valid header (R151). -/
def tileHeaderOk (h : Nat) : Bool :=
  bits h 7 0 == 0x61 && decide (thElem h ≤ 8) && decide (thForm h ≤ 2) && bits h 31 30 == 0 && bits h 127 100 == 0 &&
  bits h 255 160 == 0 && (if isMX (thElem h) then thLayout h == 1 || thLayout h == 2 else thLayout h == 0) &&
  thBytes h == tilePayload (thElem h) (thForm h) && (thForm h != formSparse || thKext h % 2 == 1)

/-- The header bytes of a tile, with a given CRC. -/
def tileHeader (elem form layout kext next id crc : Nat) : Bytes :=
  leBytes 32 (0x61 + field elem 4 8 + field form 2 12 + field layout 2 14 + field kext 7 16 + field next 7 23 +
    field id 48 32 + field (tilePayload elem form) 20 80 + field crc 32 128)

/-- The CRC of a tile: the header with CRC 0, then the payload (R150). -/
def tileCrc (hdr payload : Bytes) : Nat := crc32c (patch (hdr.take 32) 16 (zeros 4) ++ payload)

/-- Whether the CRC of a whole tile holds (R165). -/
def tileCrcOk (b : Bytes) : Bool := tileCrc (b.take 32) (b.drop 32) == thCrc (leNat (b.take 32))

/-! ### Elements of a payload (R153) -/

/-- The codes packed in a byte string, `w` bits each, lower positions in lower bits. -/
def unpackCodes (elem : Nat) (b : Bytes) : List Nat :=
  if elem = 8 then (b.map fun x => [x.toNat % 16, x.toNat / 16]).flatten
  else if elem = 6 ∨ elem = 7 then
    ((pieces 3 b).map fun p => let n := leNat p; (List.range 4).map fun i => (n >>> (6 * i)) % 64).flatten
  else if elem = 4 ∨ elem = 5 then (pieces 2 b).map leNat
  else b.map (·.toNat)

def packCodes (elem : Nat) (cs : List Nat) : Bytes :=
  if elem = 8 then (pieces 2 cs).map fun p => BitVec.ofNat 8 (p.headD 0 % 16 + 16 * (p.drop 1).headD 0)
  else if elem = 6 ∨ elem = 7 then
    ((pieces 4 cs).map fun p => leBytes 3 ((p.zipIdx.map fun x => (x.1 % 64) <<< (6 * x.2)).sum)).flatten
  else if elem = 4 ∨ elem = 5 then (cs.map fun c => leBytes 2 c).flatten
  else cs.map (BitVec.ofNat 8)

/-- The 2-bit indices of an index section, in order of position. -/
def unpackIndices (b : Bytes) : List Nat := (b.map fun x => (List.range 4).map fun i => (x.toNat >>> (2 * i)) % 4).flatten
def packIndices (is : List Nat) : Bytes :=
  (pieces 4 is).map fun p => BitVec.ofNat 8 ((p.zipIdx.map fun x => (x.1 % 4) <<< (2 * x.2)).sum)

/-- The scale byte of block segment b and column j (R153). -/
def scaleAt (form layout : Nat) (scales : Bytes) (b j : Nat) : Nat :=
  (scales.getD (if layout = 2 then tileBlocks form * j + b else 128 * b + j) 0).toNat

/-- A cell as loaded: its weight with the block scale, and its index. Cells beyond the valid rows and columns hold +0 and
index 0 (R155, R178). -/
structure Cell where
  w : Num
  idx : Nat
  deriving DecidableEq, Repr

/-- The 128 cell rows of a tile that is dense or 2:4. -/
def tileRows (b : Bytes) : List (List Cell) :=
  let h := leNat (b.take 32)
  let el := thElem h
  let form := thForm h
  let p := b.drop 32
  let codes := pieces 128 (unpackCodes el (p.take (elemSection el)))
  let idx := if form = formSparse then pieces 128 (unpackIndices ((p.drop (elemSection el)).take 4096)) else []
  let sc := p.drop (elemSection el + indexSection form)
  match fmtOf el with
  | none => []
  | some f =>
    codes.zipIdx.map fun r =>
      let is := idx.getD r.2 []
      (r.1.zip (is ++ List.replicate (128 - is.length) 0)).zipIdx.map fun c =>
        if thKext h < r.2 ∨ thNext h < c.2 then { w := Num.zero, idx := 0 }
        else
          let v := if isMX el then mxValue f c.1.1 (scaleAt form (thLayout h) sc (r.2 * tileBlocks form / 128) c.2)
            else f.decode c.1.1
          { w := v, idx := c.1.2 }

/-- Turn rows of equal length into columns. -/
def transpose {α : Type} (n : Nat) (rows : List (List α)) : List (List α) :=
  rows.foldr (fun r cols => (r.zip cols).map fun x => x.1 :: x.2) (List.replicate n [])

/-! ### Streams -/

/-- The products of one column for one token row: a dense cell takes the element of its row, a 2:4 cell the element of its
group that its index names (R144, R156). -/
def columnProducts (form : Nat) (col : List Cell) (act : List Num) : List Num :=
  if form = formSparse then
    let groups := ((pieces 4 act).map fun g => [g, g]).flatten
    (col.zip groups).map fun x => x.1.w.mul (x.2.getD x.1.idx Num.zero)
  else (col.zip act).map fun x => x.1.w.mul x.2

/-- Block sums, each exact, added in order with one rounding each, from +0 (R145). -/
def sumBlocks (bs : List (List Num)) : F32 :=
  bs.foldl (fun (s : F32) b => round32 ((F32.num s).add (Num.sum b))) 0

/-- The sum of products in blocks of k. -/
def blockSum (k : Nat) (ps : List Num) : F32 := sumBlocks (pieces k ps)

/-- The tile sums of one token row, one per column (R145). -/
def forwardRow (form : Nat) (cols : List (List Cell)) (act : List Num) : List F32 :=
  cols.map fun c => blockSum (if form = formSparse then 16 else 32) (columnProducts form c act)

/-- The row sums of a transposed stream: along each cell row, in blocks of 32 columns (R158). -/
def transposedSums (rows : List (List Cell)) (grad : List Num) : List F32 :=
  rows.map fun r => blockSum 32 ((r.zip grad).map fun x => x.1.w.mul x.2)

/-- The outputs of a transposed stream, one per position of K (R158). In a 2:4 tile each product goes to the position that
its cell's index names; where cells of both rows of a group name one position, the sums of cell rows 2g and 2g + 1 for it are added
with one rounding, row 2g first, and a position that no index names receives +0. -/
def transposedOut (form : Nat) (rows : List (List Cell)) (grad : List Num) : List F32 :=
  if form = formSparse then
    ((pieces 2 rows).map fun pr =>
      (List.range 4).map fun q =>
        let pick (r : List Cell) : F32 := sumBlocks ((pieces 32 (r.zip grad)).map fun b =>
          b.filterMap fun x => if x.1.idx = q then some (x.1.w.mul x.2) else none)
        let names (r : List Cell) : Bool := (r.zip grad).any fun x => x.1.idx == q
        match (pr.headD []), ((pr.drop 1).headD []) with
        | a, b =>
          if names a && names b then F32.add (pick a) (pick b)
          else if names a then pick a
          else if names b then pick b
          else 0).flatten
  else transposedSums rows grad

/-! ### Accumulator slots (R146) -/

/-- The 16 rows of 128 values of a slot. -/
def AccSlot.rows (a : AccSlot) : List (List F32) := pieces 128 (a.vals ++ List.replicate (2048 - a.vals.length) 0)

/-- Put new sums into a slot: replace it, or add each with one rounding (R145). -/
def AccSlot.put (a : AccSlot) (acc : Bool) (v : List (List F32)) : AccSlot :=
  { a with vals := if acc then ((a.rows.zip v).map fun x => (x.1.zip x.2).map fun y => F32.add y.1 y.2).flatten else v.flatten }

/-- A stream's effect on the slot it updates by an active tile that is not poisoned: the tile's identifiers are noted, and a
clearing stream removes the slot's poison (R161, R165). -/
def AccSlot.note (a : AccSlot) (h : Nat) (acc : Bool) : AccSlot :=
  { a with tileId := thId h, next := thNext h, dirty := true, poison := if acc then a.poison else none }

/-! ### Writing tiles (R162 to R164) -/

/-- Encode the values of one block segment of a column: element codes, scale byte and elements saturated (R182 to R184). -/
def encodeSegment (elem : Nat) (v : List Num) : List Nat × Nat × Nat × Bool :=
  match fmtOf elem with
  | none => ([], 0, 0, false)
  | some f =>
    if isMX elem then
      let r := mxEncode f (v ++ List.replicate (32 - v.length) Num.zero)
      (r.2.1.take v.length, r.1, r.2.2.1, r.2.2.2)
    else
      let r := v.map f.encode
      (r.map (·.1), 0, (r.filter (·.2)).length, r.any fun x => (f.decode x.1).isNonfinite)

/-- The first two non-zeros of a group in index order, a short group filled with +0 at the lowest free index (R164). -/
def compressGroup (v : List F32) : List (F32 × Nat) :=
  let nz := ((v.zipIdx.filter fun x => !(F32.num x.1 matches .fin _ 0 _)).take 2)
  let free := ((List.range 4).filter fun q => !(nz.any fun x => x.2 == q)).take (2 - nz.length)
  let all := nz ++ free.map fun q => ((0 : F32), q)
  (all.filter fun x => all.all fun y => decide (x.2 ≤ y.2)) ++ (all.filter fun x => !(all.all fun y => decide (x.2 ≤ y.2)))

/-- The stored cells of one column from 128 source values: a dense column as it stands, a masked one by the indices in place,
a compressed one by its non-zeros (R163, R164). -/
def storedColumn (mode : Nat) (src : List F32) (idx : List Nat) : List (F32 × Nat) :=
  match mode with
  | 0 => src.map fun v => (v, 0)
  | 1 => ((pieces 4 src).zip (pieces 2 idx)).map (fun x => x.2.map fun i => (x.1.getD i 0, i)) |>.flatten
  | _ => ((pieces 4 src).map compressGroup).flatten

end Sys2Proof.Machine
end

