-- ==== Sys2Proof/Machine/Quads.lean ====
section
/-! DEFINITION. The commands of the quads (chapter 06): one for each instruction of a quad program, and the report of a
poisoned drain. A command acts when its quad's segment runs and the word at its program counter is that instruction. Units
act in program order (log 6). -/

namespace Sys2Proof.Machine

/-! ### Quads and segments (R167 to R169) -/

def SliceState.quad (x : SliceState) (q : Nat) : Quad := x.quads.getD q {}
def SliceState.onQuad (x : SliceState) (q : Nat) (f : Quad → Quad) : SliceState := { x with quads := x.quads.modify q f }
def State.onQuad (s : State) (sl q : Nat) (f : Quad → Quad) : State := s.onSl sl fun x => x.onQuad q f
def State.quad (s : State) (sl q : Nat) : Quad := (s.sl sl).quad q

/-- q0 reads 0, and a write to it is discarded (R168). -/
def Quad.reg (k : Quad) (n : Nat) : Word := if n = 0 then 0 else k.q.getD n 0
def Quad.setReg (k : Quad) (n : Nat) (v : Word) : Quad := if n = 0 then k else { k with q := k.q.set n v }

def Quad.array (k : Quad) (a : Nat) : Array := k.arrays.getD a {}
def Quad.onArray (k : Quad) (a : Nat) (f : Array → Array) : Quad := { k with arrays := k.arrays.modify a f }
def Array.slot (y : Array) (n : Nat) : AccSlot := y.slots.getD n {}
def Array.onSlot (y : Array) (n : Nat) (f : AccSlot → AccSlot) : Array := { y with slots := y.slots.modify n f }

/-- Change the slots of a quad's arrays. -/
def Quad.onSlots (k : Quad) (f : AccSlot → AccSlot) : Quad :=
  { k with arrays := k.arrays.map fun y => { y with slots := y.slots.map f } }

/-- Launch of a segment (R167, R218): q1 holds ARG, q2 the launch drip, every other register 0, and the mappings of the
resident pool window are sampled. -/
def SliceState.startSegment (x : SliceState) (q : Nat) (u : Run) (launch : Drip) : SliceState :=
  x.onQuad q fun k =>
    let k1 : Quad :=
      { k with
        st := .running, pc := u.entry.f.entry, q := List.replicate 16 0, loops := [], cur := none, reached := [], partials := 0,
        run := u.idx, ctx := u.entry.ctx, launchDrip := launch,
        sampled := (x.tiers.res.filter (·.pool)).map fun e =>
          (e.window, if e.state == 3 || e.state == 4 then some e.frame else none) }
    ((k1.setReg 1 u.entry.f.arg).setReg 2 (BitVec.ofNat 64 launch.toNat)).onSlots fun a => { a with dirty := false }

/-- The run a quad serves. -/
def SliceState.quadRun (x : SliceState) (q : Nat) : Option Run :=
  x.runs.find? fun u => u.idx == (x.quad q).run && u.st == .launched && u.entry.kind == .quad &&
    (match u.entry.unit with | .quad k => k.val == q | _ => false)

/-- The physical array behind a logical one (R19, Table 19-3). -/
def SliceState.physArray (x : SliceState) (q a : Nat) : Nat := if x.spares.array.getD q 7 = a then 4 else a

/-! ### Faults (R171, R175) -/

def qfTileHeader : Nat := 1
def qfTileCrc : Nat := 2
def qfTileForm : Nat := 3
def qfSwapEmpty : Nat := 4
def qfAddrBounds : Nat := 5
def qfPcBounds : Nat := 6
def qfWriteWindow : Nat := 7
def qfDesc : Nat := 8
def qfVopArg : Nat := 9

/-- QUAD_LAST_FAULT (R175). -/
def quadFaultWord (code q a pc drip : Nat) : Nat :=
  field code 8 0 + field q 3 8 + field a 2 11 + field pc 13 13 + field drip 32 32

/-- A quad fault of either kind is counted and written to an error record with the code, the quad, the array and the program
counter (R171). -/
def State.quadFault (s : State) (sl q : Nat) (a : Option Nat) (pc code : Nat) : State :=
  let x := s.sl sl
  let unit : Nat × Nat := match a with | some i => (1, 8 * q + x.physArray q i) | none => (2, q)
  let t := s.report sl (mkReport 0x08 unit.1 unit.2 0 (x.quad q).ctx [code, q, a.elim 0xFF (x.physArray q), pc])
  t.onSl sl fun y => { y with arr := { y.arr with
    quadFaults := y.arr.quadFaults + 1
    quadLastFault := quadFaultWord code q (a.getD 0) pc s.now.toNat } }

/-- Mark every section of a replica slot with a code; a marked section keeps the lower one (R166). -/
def SliceState.markSlot (x : SliceState) (layer : Nat) (r : SlotRef) (code : Nat) : SliceState :=
  x.onSections (fun c => !c.isReturn && c.layer == layer && c.slot == r)
    fun c => { c with status := some (match c.status with | some st => min st code | none => code) }

/-- The segment ends: its stage completes and the quad is idle. -/
def SliceState.endSegment (x : SliceState) (q : Nat) : SliceState :=
  let y := x.onQuad q fun k => { k with st := .idle, loops := [] }
  match x.quadRun q with
  | some u => y.completeRun u
  | none => y

/-- The segment stops without its HALT, so its stage does not complete (R167, R171). -/
def SliceState.stopSegment (x : SliceState) (q : Nat) : SliceState :=
  let y := x.onQuad q fun k => { k with st := .idle, loops := [] }
  match x.quadRun q with
  | some u => y.setRun u fun v => { v with stopped := true }
  | none => y

/-- A fault of kind segment (R171): undrained slots are poisoned with FAULT, replica slots not yet reached, and the current
one if it has undrained work, are marked; a context's segment ends its request, and a segment that serves neither ends the
requests tied to it (R166). The segment stops. -/
def State.segmentFault (s : State) (sl q : Nat) (a : Option Nat) (pc code : Nat) : State :=
  let x := s.sl sl
  let k := x.quad q
  let t := s.quadFault sl q a pc code
  let undrained := k.arrays.any fun y => y.slots.any (·.dirty)
  let t1 := t.onQuad sl q fun k =>
    k.onSlots fun z => if z.dirty then { z with poison := some Status.fault.code, dirty := false } else z
  let t2 := match x.quadRun q with
    | none => t1
    | some u =>
      let l := u.entry.f.layer.getD 0
      let rest : List (Nat × SlotRef) :=
        (u.entry.f.slots.filter fun (r : SlotRef) => !(r.quad == q && k.reached.contains r.slot)).map fun r => (l, r)
      let cur : List (Nat × SlotRef) := match k.cur with
        | some c => if undrained then [(c.1, ({ quad := q, slot := c.2 } : SlotRef))] else []
        | none => []
      if u.entry.ctx < 255 || u.entry.f.slots.isEmpty then t1.faultStage sl u .fault
      else t1.onSl sl fun y => (rest ++ cur).foldl (fun (z : SliceState) (r : Nat × SlotRef) => z.markSlot r.1 r.2 Status.fault.code) y
  t2.onSl sl fun y => y.stopSegment q

/-! ### Issue (R168, R169) -/

/-- Leave the ends of LOOP bodies: back to the first word while passes are left, else out of the loop; with fuel. -/
def Quad.wrap : Nat → Quad → Quad
  | 0, k => k
  | n + 1, k =>
    match k.loops with
    | [] => k
    | f :: rest =>
      if k.pc ≠ f.stop then k
      else if 1 < f.left then { k with pc := f.first, loops := { f with left := f.left - 1 } :: rest }
      else Quad.wrap n { k with loops := rest }

/-- Go to the next word. -/
def Quad.goTo (k : Quad) (pc : Nat) : Quad := Quad.wrap 5 { k with pc := pc }

/-- Issue one word of a quad program: a running segment whose word has the class and opcode goes past it, and the body acts on the state
with the quad as it was. A program counter outside the store faults (R168, R169, R171). -/
def State.issueQuad (s : State) (sl q : Nat) (code : Nat) (body : State → Quad → Nat → State) : State :=
  let k := s.quad sl q
  if k.st ≠ .running then s
  else if k.pc > 8191 then s.segmentFault sl q none k.pc qfPcBounds
  else
    let w := (k.program.getD k.pc 0).toNat
    if qCode w = code then body (s.onQuad sl q fun k => k.goTo (k.pc + 1)) k w else s

/-! ### Control and registers (Table 06-8) -/

/-- NOP (R169). -/
def execQuadNop (sl : SliceId) (q : QuadId) (s : State) : Out := .next (s.issueQuad sl q 0x00 fun v _ _ => v)

/-- HALT (R167): every unit has done its work, so the segment completes. -/
def execQuadHalt (sl : SliceId) (q : QuadId) (s : State) : Out :=
  .next (s.issueQuad sl q 0x01 fun v _ _ => v.onSl sl fun x => x.endSegment q)

/-- WAIT_DRIP (R106, R172): FN[0] names the frame start or the launch drip. -/
def execQuadWaitDrip (sl : SliceId) (q : QuadId) (s : State) : Out :=
  .next (s.issueQuad sl q 0x02 fun v k w =>
    let run := (v.sl sl).quadRun q
    let base := if bit (qFn w) 0 then k.launchDrip else match run with | some u => u.frame | none => v.frame
    let d := base.plus (qImm w)
    if Drip.later d v.now then v.onQuad sl q fun j => { j with st := .waitDrip d }
    else if v.still.on then
      -- the segment has missed; the monitor reports it at the next boundary
      let v1 := v.onQuad sl q fun j => { j with st := .waitDrip d }
      match run with
      | some u => v1.onSl sl fun x => x.setRun u fun r => { r with lateInput := true }
      | none => v1
    else v.onSl sl fun x => { x with routing := { x.routing with lateWaits := x.routing.lateWaits + 1 } })

/-- WAIT_FLAG (R101, R172). -/
def execWaitFlag (sl : SliceId) (q : QuadId) (s : State) : Out :=
  .next (s.issueQuad sl q 0x03 fun v _ w =>
    if (v.sl sl).flags.contains (qImm w) then v else v.onQuad sl q fun j => { j with st := .waitFlag (qImm w) })

/-- SET_FLAG (R168, R199): earlier drains and vector operations have been written. -/
def execSetFlag (sl : SliceId) (q : QuadId) (s : State) : Out :=
  .next (s.issueQuad sl q 0x04 fun v _ w => v.onSl sl fun x => x.setFlag (qImm w))

/-- LOOP (R169): the body is the next IMM[15:0] words; a count of 0 or an empty body goes past it. -/
def execQuadLoop (sl : SliceId) (q : QuadId) (s : State) : Out :=
  .next (s.issueQuad sl q 0x05 fun v k w =>
    let n := bits (qImm w) 15 0
    let count := if qA w = 0 then bits (qImm w) 31 16 else (k.reg (qA w)).toNat
    v.onQuad sl q fun _ =>
      if count = 0 ∨ n = 0 then k.goTo (k.pc + 1 + n)
      else { k with pc := k.pc + 1, loops := { first := k.pc + 1, stop := k.pc + 1 + n, left := count } :: k.loops })

/-- BRZ (R169): a taken branch leaves the loops whose body does not hold its target (log 7). -/
def execBrz (sl : SliceId) (q : QuadId) (s : State) : Out :=
  .next (s.issueQuad sl q 0x06 fun v k w =>
    if k.reg (qA w) = 0 then
      let d := (k.pc : Int) + sint32 (qImm w)
      let p := if d < 0 then 8192 else d.toNat
      v.onQuad sl q fun j => { j with pc := p, loops := k.loops.filter fun f => decide (f.first ≤ p) && decide (p < f.stop) }
    else v)

/-- SET (R169). -/
def execQuadSet (sl : SliceId) (q : QuadId) (s : State) : Out :=
  .next (s.issueQuad sl q 0x10 fun v k w =>
    let r := if bit (qFn w) 0 then BitVec.ofNat 64 ((k.reg (qD w)).toNat % 2 ^ 32 + qImm w * 2 ^ 32) else sext32 (qImm w)
    v.onQuad sl q fun j => j.setReg (qD w) r)

/-- ADDI (R169). -/
def execAddi (sl : SliceId) (q : QuadId) (s : State) : Out :=
  .next (s.issueQuad sl q 0x11 fun v k w => v.onQuad sl q fun j => j.setReg (qD w) (k.reg (qA w) + sext32 (qImm w)))

/-- ADDQ (R169). -/
def execAddq (sl : SliceId) (q : QuadId) (s : State) : Out :=
  .next (s.issueQuad sl q 0x12 fun v k w => v.onQuad sl q fun j => j.setReg (qD w) (k.reg (qA w) + k.reg (qB w)))

/-- MULI (R169): the low 64 bits of the product with the unsigned immediate. -/
def execMuli (sl : SliceId) (q : QuadId) (s : State) : Out :=
  .next (s.issueQuad sl q 0x13 fun v k w =>
    v.onQuad sl q fun j => j.setReg (qD w) (k.reg (qA w) * BitVec.ofNat 64 (qImm w)))

/-- A field of a shape entry: ROWS_USED, ROW_BLOCKS, LIVE, LOST (Table 05-3). -/
def shapeField (n w : Nat) : Nat :=
  match n with
  | 0 => bits w 11 0
  | 1 => bits w 19 12
  | 2 => bits w 36 36
  | _ => bits w 37 37

/-- LDSHAPE (R173): the slot becomes the current slot. -/
def execLdshape (sl : SliceId) (q : QuadId) (s : State) : Out :=
  .next (s.issueQuad sl q 0x20 fun v _ w =>
    let slot := bits (qImm w) 5 0
    let layer := bits (qImm w) 15 8
    let x := v.sl sl
    let e := x.loadNat (shapeAddr x layer + 64 + 8 * (64 * q + slot)) 8
    v.onQuad sl q fun j =>
      { j.setReg (qD w) (BitVec.ofNat 64 (shapeField (bits (qFn w) 1 0) e)) with
        cur := some (layer, slot), reached := j.reached ++ [slot] })

/-! ### Addresses (R149, R205, R206, R218) -/

def chamberBytes : Nat := 0x1800000

/-- The slice offset of a range of the quad's own chamber store. -/
def ownChamber (q a n : Nat) : Option Nat := if a + n ≤ chamberBytes then some (chamberAddr q a) else none

/-- The HBM that a window offset stands for under the mapping that a segment sampled at its launch (R218). -/
def SliceState.sampledAddr (x : SliceState) (k : Quad) (a : Nat) : Option Nat :=
  match k.sampled.find? fun e => e.1 == (a - 0x4000000000) / x.tiers.frameBytes with
  | some (_, some f) => some (x.tiers.poolBase + f * x.tiers.frameBytes + (a - 0x4000000000) % x.tiers.frameBytes)
  | _ => none

/-- The HBM that a range of HBM, or of the resident pool windows as the segment sampled them, stands for. -/
def SliceState.quadHbm (x : SliceState) (k : Quad) (a n : Nat) : Option Parts :=
  if inRegion a n .hbm then some [(a, n)] else x.tiers.windowParts (x.sampledAddr k) a n

/-- Where a drain writes: an address below 24 MiB is in the chamber store, any other is a slice offset in HBM or in the quad's own
chamber store (log 8). It writes no window (R203). -/
def drainAddr (q a n : Nat) : Option Nat :=
  match ownChamber q a n with
  | some c => some c
  | none => if inRegion a n (.chamber q) || inRegion a n .hbm then some a else none

/-- Where a drain reads its tensor: as it writes, and through the windows too. -/
def SliceState.drainParts (x : SliceState) (k : Quad) (q a n : Nat) : Option Parts :=
  match drainAddr q a n with
  | some c => some [(c, n)]
  | none => x.quadHbm k a n

/-- HBM that a drain may write: the state region, pool classes and free space; the weight region, the resident pool and the
device region are written by others (R203, Table 08-4). -/
def SliceState.drainWritable (x : SliceState) (a n : Nat) : Bool :=
  regionOf a != .hbm ||
  (!deviceRegion a n && !x.tiers.inWeight a n &&
    !(decide (a < x.tiers.poolBase + x.tiers.poolFrames * x.tiers.frameBytes) && decide (x.tiers.poolBase < a + n)))

/-! ### The weight bus (R149, R165, R218) -/

/-- A shadow as the bus leaves it. -/
def State.setShadow (s : State) (sl q a : Nat) (t : Tile) : State :=
  s.onQuad sl q fun k => k.onArray a fun y => { y with shadow := some t }

/-- The code of a tile that the bus reads from an unmapped window (R218). -/
def SliceState.unmappedCode (x : SliceState) (a : Nat) : Nat :=
  match x.tiers.windowSlot a with
  | some e => if e.state = 0 then Status.tierFail.code else if e.lastFail ≠ 0 then e.lastFail else Status.tierLate.code
  | none => Status.tierLate.code

/-- Every tile not yet loaded is absent: the shadows of the arrays in rotation are poisoned. -/
def State.absentTiles (s : State) (sl q : Nat) (arrs : List Nat) (i n code : Nat) : State :=
  (List.range (min (n - i) arrs.length)).foldl (fun v j =>
    v.setShadow sl q (arrs.getD ((i + j) % arrs.length) 0) { bytes := zeros 32, poison := some code }) s

/-- How a run of tiles ended: the state and the address after the last tile, an end with no stated address, or a fault of
kind segment. -/
inductive BusEnd where
  | done (s : State) (a : Nat)
  | early (s : State)
  | bounds (s : State)

/-- Load tiles i to n - 1 from address a (R165). -/
def State.busFrom (s : State) (sl q : Nat) (chamber : Bool) (arrs : List Nat) (pc n : Nat) : Nat → Nat → BusEnd
  | 0, a => .done s a
  | left + 1, a =>
    let i := n - (left + 1)
    let x := s.sl sl
    let k := x.quad q
    let arr := arrs.getD (i % max 1 arrs.length) 0
    let at_ (len : Nat) : Option Parts := if chamber then (ownChamber q a len).map fun p => [(p, len)] else x.quadHbm k a len
    -- R218: a tile of which a byte lies in an unmapped window is absent, and so are those after it
    let stop (len : Nat) : BusEnd :=
      if !chamber && inRegion a len .window then
        .early (s.absentTiles sl q arrs i n (x.unmappedCode (if (at_ 1).isNone then a else a + len - 1)))
      else .bounds s
    match at_ 32 with
    | none => stop 32
    | some p =>
      let h := leNat (x.loadRanges p)
      if !tileHeaderOk h then
        .early (((s.absentTiles sl q arrs i n Status.fault.code).quadFault sl q (some arr) pc qfTileHeader).onSl sl fun y => { y with arr := { y.arr with tileHeaderFaults := y.arr.tileHeaderFaults + 1 } })
      else
        let len := 32 + thBytes h
        match at_ len with
        | none => stop len
        | some p =>
          let b := x.loadRanges p
          let crc := tileCrcOk b
          let bad := !crc || x.poisonedIn p
          let s1 := if arrs.isEmpty then s
            else s.setShadow sl q arr { bytes := b, poison := if bad then some Status.checksum.code else none }
          let s2 := if crc then s1
            else (s1.quadFault sl q (some arr) pc qfTileCrc).onSl sl fun y =>
              { y with arr := { y.arr with tileCrcFails := y.arr.tileCrcFails + 1 } }
          let s3 := if bad || arrs.isEmpty then s2
            else s2.onSl sl fun y => { y with arr := { y.arr with
              tilesLoaded := y.arr.tilesLoaded + 1
              zeroTiles := y.arr.zeroTiles + b2n (thForm h == formZero) } }
          s3.busFrom sl q chamber arrs pc n left (a + len)

/-- WLOAD (R165): qD is the address after the last tile. Where the run ends before its last tile the manual states no
address, and qD takes a free value (log 9). -/
def State.wload (s : State) (sl : SliceId) (q : QuadId) : Out :=
  .next (s.issueQuad sl q 0x30 fun v k w =>
    let n := (k.reg (qB w)).toNat
    match v.busFrom sl q (bit (qFn w) 0) (qArrays w) k.pc n n (k.reg (qA w)).toNat with
    | .done t a => t.onQuad sl q fun j => j.setReg (qD w) (BitVec.ofNat 64 a)
    | .early t => let r := t.takeFree; r.2.onQuad sl q fun j => j.setReg (qD w) r.1
    | .bounds t => t.segmentFault sl q none k.pc qfAddrBounds)

/-- SWAP (R144, R165): the shadow, which the bus alone writes, is copied into the active registers. -/
def execSwap (sl : SliceId) (q : QuadId) (s : State) : Out :=
  .next (s.issueQuad sl q 0x31 fun v k w =>
    match (qArrays w).find? fun a => (k.array a).shadow.isNone with
    | some a => v.segmentFault sl q (some a) k.pc qfSwapEmpty
    | none => v.onQuad sl q fun j => (qArrays w).foldl (fun z a => z.onArray a fun y => { y with active := y.shadow }) j)

/-! ### Rows (R149, R159) -/

/-- ROWCOPY (R149): from HBM, the staging store or the own chamber store into the chamber store; poison goes with the
words. -/
def execRowcopy (sl : SliceId) (q : QuadId) (s : State) : Out :=
  .next (s.issueQuad sl q 0x40 fun v k w =>
    let n := (k.reg (qB w)).toNat
    let a := (k.reg (qA w)).toNat
    let x := v.sl sl
    let src := if inRegion a n .staging || inRegion a n (.chamber q) then some [(a, n)] else x.quadHbm k a n
    match src, ownChamber q (k.reg (qD w)).toNat n with
    | some p, some d => v.onSl sl fun y => (y.store d (y.loadRanges p)).copyPoisonOf y p d
    | _, _ => v.segmentFault sl q none k.pc qfAddrBounds)

/-- The fields of a row-block descriptor (Table 06-6). -/
structure RowDesc where
  rows : Nat
  fmt : Nat
  rowBytes : Nat
  stride : Nat
  deriving DecidableEq, Repr

/-- A descriptor, or none for the DESC fault (R159, R171). -/
def rowDesc (v : Nat) : Option RowDesc :=
  let d : RowDesc := { rows := bits v 4 0, fmt := bits v 8 5, rowBytes := bits v 26 9, stride := 32 * bits v 44 27 }
  if bits v 63 45 = 0 ∧ 1 ≤ d.rows ∧ d.rows ≤ 16 ∧ (d.fmt ≤ 5 ∨ d.fmt = 9) ∧ d.rowBytes ≠ 0 ∧ d.rowBytes % 32 = 0 ∧
     d.rowBytes ≤ d.stride
  then some d else none

/-- Bytes that a row block covers. -/
def RowDesc.extent (d : RowDesc) : Nat := 15 * d.stride + d.rowBytes

/-- Elements that a dense row of ROW_BYTES can hold in a format (R117). -/
def rowElems (fmt rb : Nat) : Nat := if isMX fmt then 32 * (rb / 33) else rb / elemBytes fmt

/-- Elements c to c + n - 1 of a row, +0 beyond the row (R155). -/
def rowSpan (fmt rb : Nat) (b : Bytes) (c n : Nat) : List Num :=
  let m := rowElems fmt rb
  match fmtOf fmt with
  | none => []
  | some f =>
    let w := elemBytes fmt
    let el := (b.drop (c * w)).take (n * w)
    let k := min n (m - c)
    let vals := ((pieces w el).take k).zipIdx.map fun x =>
      let code := leNat x.1
      if isMX fmt then mxValue f code ((b.getD (m + (c + x.2) / 32) 0).toNat) else f.decode code
    vals ++ List.replicate (n - vals.length) Num.zero

/-- The activation rows of a stream: 16 rows of `span` elements from KOFF, +0 at or beyond the K limit, the row's end and
ROWS (R155, R159). -/
def streamRows (x : SliceState) (d : RowDesc) (p koff klim span : Nat) : List (List Num) :=
  (List.range 16).map fun r =>
    if d.rows ≤ r then List.replicate span Num.zero
    else
      let v := rowSpan d.fmt d.rowBytes (x.load (p + r * d.stride) d.rowBytes) koff span
      v.zipIdx.map fun e => if klim ≤ koff + e.2 then Num.zero else e.1

/-- Whether elements c to c + n - 1 of the rows that a block holds, or their block scales, read a poisoned word (R188, R204). -/
def rowsPoisoned (x : SliceState) (d : RowDesc) (p : Parts) (c n : Nat) : Bool :=
  let w := elemBytes d.fmt
  let k := min n (rowElems d.fmt d.rowBytes - c)
  k != 0 && (List.range d.rows).any fun r =>
    let a := r * d.stride
    x.poisonedIn (subParts p (a + c * w) (k * w)) ||
    (isMX d.fmt && x.poisonedIn (subParts p (a + rowElems d.fmt d.rowBytes + c / 32) ((c + k - 1) / 32 - c / 32 + 1)))

/-! ### Streams (R145, R154, R158, R165, R170) -/

/-- The slots a stream updates: two for a transposed stream of a 2:4 tile. -/
def streamSlots (h : Nat) (trans : Bool) (n : Nat) : List Nat :=
  if trans && thForm h == formSparse then [n, n + 1] else [n]

/-- Whether a stream matches its active tile (R148, R170). -/
def streamFits (h fmt : Nat) (wide trans : Bool) (slot : Nat) : Bool :=
  decide (fmt ≤ 5) && !(trans && wide) && !(trans && thForm h == formSparse && slot % 2 == 1) &&
  (thForm h == formZero || trans || wide == (thForm h == formSparse))

/-- The sums that a stream brings to its slots, one list of 16 rows per slot. -/
def streamSums (b : Bytes) (trans : Bool) (rows : List (List Num)) : List (List (List F32)) :=
  let form := thForm (leNat (b.take 32))
  let cells := tileRows b
  if trans then
    let outs := rows.map (transposedOut form cells)
    if form = formSparse then [outs.map (·.take 128), outs.map (·.drop 128)] else [outs]
  else
    let cols := transpose 128 cells
    [rows.map (forwardRow form cols)]

/-- A stream issues the rows of its block to an array: its active tile, or the +0 that stands for an absent one, is no zero tile, and the
stream matches it (R154, R165, R170). -/
def Array.issues (y : Array) (fmt slot : Nat) (wide trans : Bool) : Bool :=
  match y.active with
  | none => false
  | some t =>
    let h := leNat (t.bytes.take 32)
    t.poison.isSome || (streamFits h fmt wide trans slot && thForm h != formZero)

/-- What a stream does on one array, and whether it is a TILE_FORM fault. -/
def Array.stream (y : Array) (fmt slot : Nat) (acc wide trans : Bool) (rows : Nat → List (List Num)) : Array × Bool :=
  let poison (c : Nat) (ns : List Nat) : Array :=
    ns.foldl (fun z n => z.onSlot n fun a => { a with poison := some c, dirty := true }) y
  match y.active with
  | none => (poison Status.fault.code [slot], true)
  | some t =>
    let h := leNat (t.bytes.take 32)
    match t.poison with
    | some c =>
      ((streamSlots h trans slot).foldl
        (fun z n => z.onSlot n fun a => { a with poison := some c, dirty := true, tileId := thId h, next := 127 }) y, false)
    | none =>
      if !streamFits h fmt wide trans slot then (poison Status.fault.code [slot], true)
      else if thForm h = formZero then
        (y.onSlot slot fun a => { (a.note h acc) with vals := if acc then a.vals else [] }, false)
      else
        let sums := streamSums t.bytes trans (rows (if wide then 256 else 128))
        (((streamSlots h trans slot).zip sums).foldl (fun z n => z.onSlot n.1 fun a => (a.note h acc).put acc n.2) y, false)

/-- STREAM (R145): every array of AMASK streams the row block against its own active tile. Poisoned words of the rows issued end the
requests tied to the segment (R204). -/
def State.stream (s : State) (sl : SliceId) (q : QuadId) : Out :=
  .next (s.issueQuad sl q 0x41 fun v k w =>
    match rowDesc (k.reg (qB w)).toNat with
    | none => v.segmentFault sl q none k.pc qfDesc
    | some d =>
      match ownChamber q (k.reg (qA w)).toNat d.extent with
      | none => v.segmentFault sl q none k.pc qfAddrBounds
      | some p =>
        let x := v.sl sl
        let koff := 32 * bits (qImm w) 15 0
        let klim := 32 * bits (qImm w) 31 16
        let slot := bits (qFn w) 6 4
        let rows := streamRows x d p koff klim
        let span := if bit (qFn w) 2 then 256 else 128
        let issued := (qArrays w).any fun a => ((v.quad sl q).array a).issues d.fmt slot (bit (qFn w) 2) (bit (qFn w) 3)
        let v1 := if issued && rowsPoisoned x d [(p, d.extent)] koff (min span (klim - koff)) then
            (match x.quadRun q with | some u => v.faultStage sl u .fault | none => v)
          else v
        (qArrays w).foldl (fun t a =>
          let r := ((t.quad sl q).array a).stream d.fmt slot (bit (qFn w) 0) (bit (qFn w) 2) (bit (qFn w) 3) rows
          let t1 := t.onQuad sl q fun j => j.onArray a fun _ => r.1
          if r.2 then t1.quadFault sl q (some a) k.pc qfTileForm else t1) v1)

/-- ACCLOAD (R161): 16 rows of 128 packed values per array, the arrays of AMASK in order (log 10). -/
def execAccload (sl : SliceId) (q : QuadId) (s : State) : Out :=
  .next (s.issueQuad sl q 0x42 fun v k w =>
    let fmt := if bit (qFn w) 0 then 4 else 9
    let n := 2048 * elemBytes fmt
    let slot := bits (qFn w) 6 4
    match ownChamber q (k.reg (qA w)).toNat (n * (qArrays w).length) with
    | none => v.segmentFault sl q none k.pc qfAddrBounds
    | some p =>
      let x := v.sl sl
      let v1 := if x.poisoned p (n * (qArrays w).length) then
          (match x.quadRun q with | some u => v.faultStage sl u .fault | none => v)
        else v
      (qArrays w).zipIdx.foldl (fun t a =>
        let at_ := p + a.2 * n
        t.onQuad sl q fun j => j.onArray a.1 fun y => y.onSlot slot fun z =>
          { z with
            vals := toF32 (rowSpan fmt n (x.load at_ n) 0 2048)
            poison := if x.poisoned at_ n then z.poison else none
            next := 127
            dirty := true }) v1)

/-! ### Drains (R160, R161, R165, R188 to R191) -/

/-- A drain of a poisoned slot waits for its report (R166). -/
def State.notePoisoned (s : State) (sl q a : Nat) (k : Quad) (code id : Nat) : State :=
  match (s.sl sl).quadRun q with
  | some u => s.onQuad sl q fun j => { j with poisoned := j.poisoned ++
      [{ code := code, array := (s.sl sl).physArray q a, tileId := id, cur := k.cur, run := u, at_ := s.now }] }
  | none => s

/-- The values that reach the rounding point of one row of a drain (R188). -/
def epilogue (epi : Nat) (v : List F32) (e : List Num) : List Num :=
  match epi with
  | 1 => (v.zip e).map fun x => (F32.num x.1).add x.2
  | 2 => (v.zip e).map fun x => (F32.num x.1).mul x.2
  | _ => v.map F32.num

/-- One row of a drain written at an address: the element bytes, and in an MX format the scale bytes, whole blocks (R188). -/
def SliceState.drainRow (x : SliceState) (d : RowDesc) (fmt c at_ : Nat) (v : List Num) : SliceState × Nat × Bool :=
  if isMX fmt then
    let r := encodeMX fmt v
    ((x.store (at_ + c) r.1).store (at_ + rowElems fmt d.rowBytes + c / 32) r.2.1, r.2.2.1, r.2.2.2)
  else
    let r := encodePlain fmt v
    (x.store (at_ + c * elemBytes fmt) r.bytes, r.sat, r.nonfinite)

/-- One row of a PARTIAL drain (R190, R191). -/
def partialRow (seed id row c drain : Nat) (v : List F32) : Bytes × Bool :=
  let codes := v.zipIdx.map fun x => partialBF16 x.1 (philoxR seed id row (c + x.2) drain)
  ((codes.map fun n => leBytes 2 n).flatten, codes.any fun n => (n / 128) % 256 == 255)

/-- The columns from c that a drain of a slot writes: those up to NEXT_M1, within the row (R155, R188). -/
def drainCols (z : AccSlot) (fmt : Nat) (d : RowDesc) (c : Nat) : Nat :=
  min ((if z.poison.isSome then 127 else z.next) + 1) (rowElems fmt d.rowBytes - c)

/-- DRAIN on one array: columns from c; answers the state and whether a non-finite value was written. -/
def State.drainArray (s : State) (sl q a : Nat) (k : Quad) (d : RowDesc) (dst : Nat) (tens : Parts) (epi : Nat) (part : Bool)
    (slot c : Nat) :
    State × Bool :=
  let x := s.sl sl
  let z := (((x.quad q).array a)).slot slot
  let fmt := if part then 4 else d.fmt
  let n := drainCols z fmt d c
  let rows := if z.poison.isSome then List.replicate 16 (List.replicate 128 (0 : F32)) else z.rows
  let seed := s.still.jobSeed.toNat
  let useEpi := z.poison.isNone && !part && (epi == 1 || epi == 2)
  let (y, sat, nf) := ((rows.take d.rows).zipIdx).foldl (fun (b : SliceState × Nat × Bool) r =>
    let at_ := dst + r.2 * d.stride
    let v := r.1.take n
    if part then
      let p := partialRow seed z.tileId r.2 c k.partials v
      (b.1.store (at_ + 2 * c) (if z.poison.isSome then zeros (2 * n) else p.1), b.2.1, b.2.2 || p.2)
    else
      let e := if useEpi then rowSpan fmt d.rowBytes (x.loadRanges (subParts tens (r.2 * d.stride) d.rowBytes)) c n else []
      let o := b.1.drainRow d fmt c at_ (epilogue (if useEpi then epi else 0) v e)
      (o.1, b.2.1 + o.2.1, b.2.2 || o.2.2)) (x, 0, false)
  let s1 := s.onSl sl fun _ =>
    ({ y with arr := { y.arr with satElements := y.arr.satElements + sat } }).onQuad q fun j =>
      j.onArray a fun b => b.onSlot slot fun w => { w with dirty := false }
  let s2 := match z.poison with
    | some code => s1.notePoisoned sl q a k code z.tileId
    | none => s1
  (s2, nf)

/-- DRAIN (R160): the array of rank m writes columns IMM[15:0] × 128 + 128m. -/
def State.drain (s : State) (sl : SliceId) (q : QuadId) : Out :=
  .next (s.issueQuad sl q 0x50 fun v k w =>
    match rowDesc (k.reg (qB w)).toNat with
    | none => v.segmentFault sl q none k.pc qfDesc
    | some d =>
      let x := v.sl sl
      let epi := bits (qFn w) 1 0
      let part := bit (qFn w) 2
      let useEpi := !part && (epi == 1 || epi == 2)
      let dst := drainAddr q (k.reg (qD w)).toNat d.extent
      let tens := if useEpi then x.drainParts k q (k.reg (qA w)).toNat d.extent else some []
      match dst, tens with
      | some p, some e =>
        if !x.drainWritable p d.extent then v.segmentFault sl q none k.pc qfAddrBounds
        else
          let slot := bits (qFn w) 6 4
          let col (m : Nat) : Nat := bits (qImm w) 15 0 * 128 + 128 * m
          let bad := (qArrays w).zipIdx.any fun a =>
            let z := ((x.quad q).array a.1).slot slot
            z.poison.isNone && rowsPoisoned x d e (col a.2) (drainCols z d.fmt d (col a.2))
          let v1 := if useEpi && bad then
              (match x.quadRun q with | some u => v.faultStage sl u .fault | none => v)
            else v
          let r := (qArrays w).zipIdx.foldl (fun (t : State × Bool) a =>
            let o := t.1.drainArray sl q a.1 k d p e epi part slot (col a.2)
            (o.1, t.2 || o.2)) (v1, false)
          r.1.onSl sl fun y =>
            ({ y with arr := { y.arr with nonfiniteDrains := y.arr.nonfiniteDrains + b2n r.2 } }).onQuad q fun j =>
              { j with partials := j.partials + b2n part }
      | _, _ => v.segmentFault sl q none k.pc qfAddrBounds)

/-! ### DRAINT (R162 to R164) -/

/-- Whether ranges cover every byte of [a, e), with fuel: the range that holds its first byte, then the rest. -/
def coveredBy (rs : List Range) (e : Nat) : Nat → Nat → Bool
  | 0, a => decide (e ≤ a)
  | n + 1, a =>
    if e ≤ a then true
    else match rs.find? fun r => decide (r.base ≤ a) && decide (a < r.base + r.len) with
      | some r => coveredBy rs e n (r.base + r.len)
      | none => false

/-- Whether every byte of a range lies under an open write window (R211, R298). -/
def Tiers.inWindow (t : Tiers) (a n : Nat) : Bool :=
  t.window.isOpen && coveredBy t.window.ranges (a + n) (t.window.ranges.length + 1) a

/-- The tile bytes that a DRAINT leaves, from the bytes in place, the 128 rows of the slots, the mode, the half, the element
format and the TILE_ID; and the elements saturated and whether one is not finite. The valid extents and the scale layout are
those of the tile in place (log 11). -/
def writeTile (old : Bytes) (src : List (List F32)) (mode half elem id : Nat) : Bytes × Nat × Bool :=
  let h := leNat (old.take 32)
  let form := if mode = 0 then formDense else formSparse
  let es := elemSection elem
  let layout := if isMX elem then (if thLayout h = 2 then 2 else 1) else 0
  let hdr (crc : Nat) : Bytes := tileHeader elem form layout (thKext h) (thNext h) id crc
  let size := tilePayload elem form
  let body := (old.drop 32 ++ zeros size).take size
  let cols := transpose 128 src
  let segLen := if mode = 0 then 32 else 16
  -- indices in place for a masked half
  let oldIdx := pieces 128 (unpackIndices ((old.drop (32 + elemSection (thElem h))).take 4096))
  let idxCols := transpose 128 ((oldIdx.drop (64 * half)).take 64)
  let stored := cols.zipIdx.map fun c => storedColumn mode c.1 (idxCols.getD c.2 [])
  let segs := stored.map fun c => (pieces segLen c).map fun g => encodeSegment elem (g.map fun x => F32.num x.1)
  let sat := ((segs.map fun c => (c.map fun g => g.2.2.1).sum)).sum
  let nf := segs.any fun c => c.any fun g => g.2.2.2
  let nrow := if mode = 0 then 128 else 64
  let codes := (transpose nrow (segs.map fun c => (c.map (·.1)).flatten)).flatten
  let eb := packCodes elem codes
  let off := if mode = 0 then 0 else half * (es / 2)
  let b1 := patch body off eb
  let b2 := if mode = 0 then b1
    else if mode = 1 then (if half = 0 then patch b1 es (packIndices oldIdx.flatten) else b1)
    else patch b1 (es + half * 2048) (packIndices (transpose 64 (stored.map fun c => c.map (·.2))).flatten)
  let so := es + indexSection form
  let b3 := if !isMX elem then b2
    else segs.zipIdx.foldl (fun b c =>
      (c.1.zipIdx).foldl (fun z g =>
        let seg := (if mode = 0 then 0 else 4 * half) + g.2
        patch z (so + (if layout = 2 then tileBlocks form * c.2 + seg else 128 * seg + c.2)) [BitVec.ofNat 8 g.1.2.1]) b) b2
  let crc := if mode ≠ 0 ∧ half = 0 then 0 else tileCrc (hdr 0) b3
  (hdr crc ++ b3, sat, nf)

/-- DRAINT (R162): slots 0 to 7 of one array as a weight tile in an open write window. A form or element format that
Table 06-8 does not list writes nothing; such an image is refused at load (log 13). -/
def execDraint (sl : SliceId) (q : QuadId) (s : State) : Out :=
  .next (s.issueQuad sl q 0x51 fun v k w =>
    match qArrays w with
    | [] => v
    | a :: _ =>
      let x := v.sl sl
      let mode := bits (qFn w) 1 0
      let elem := bits (qImm w) 3 0
      let half := b2n (bit (qFn w) 2)
      let dst := (k.reg (qD w)).toNat
      let form := if mode = 0 then formDense else formSparse
      if mode = 3 ∨ 8 < elem then v
      else if !x.tiers.inWindow dst (32 + tilePayload elem form) then v.segmentFault sl q (some a) k.pc qfWriteWindow
      else
        let slots := ((x.quad q).array a).slots
        let src := (slots.map fun z => if z.poison.isSome then List.replicate 16 (List.replicate 128 (0 : F32)) else z.rows).flatten
        let r := writeTile (x.load dst (32 + tilePayload elem form)) src mode half elem ((k.reg (qA w)).toNat % 2 ^ 48)
        let v1 := v.onSl sl fun y =>
          let z := (y.store dst r.1).onQuad q fun j => j.onArray a fun b => { b with slots := b.slots.map fun c => { c with dirty := false } }
          { z with
            arr := { z.arr with satElements := z.arr.satElements + r.2.1, nonfiniteDrains := z.arr.nonfiniteDrains + b2n r.2.2 }
            tiers := { z.tiers with written := if z.tiers.written.contains dst then z.tiers.written else z.tiers.written ++ [dst] } }
        slots.foldl (fun t z => match z.poison with
          | some code => t.notePoisoned sl q a k code z.tileId
          | none => t) v1)

/-- POISONED_DRAIN_REPORT (R166): at the next drip after a drain of a poisoned slot. -/
def execPoisonedDrainReport (sl : SliceId) (q : QuadId) (s : State) : Out :=
  let due := (s.quad sl q).poisoned.filter fun p => Drip.later s.now p.at_
  let t := s.onQuad sl q fun k => { k with poisoned := k.poisoned.filter fun p => !Drip.later s.now p.at_ }
  .next (due.foldl (fun v p =>
    let st := Status.ofCode p.code
    let ties := v.tied sl p.run
    let v1 := v.report sl (mkReport 0x07 1 (8 * q + p.array) (if ties then p.code else 0) p.run.entry.ctx [q, p.array, p.tileId])
    if p.run.entry.ctx < 255 then
      let v2 := v1.endTied sl p.run p.at_ (p.at_.plus 1) st
      { v2 with tears := v2.tears ++ [(p.run.entry.ctx, p.at_.plus 1)] }
    else match p.cur with
      | some c =>
        if (p.run.entry.f.slots.contains { quad := q, slot := c.2 }) then
          v1.onSl sl fun x => x.markSlot c.1 { quad := q, slot := c.2 } p.code
        else v1.endTied sl p.run p.at_ (p.at_.plus 1) st
      | none => v1.endTied sl p.run p.at_ (p.at_.plus 1) st) t)

end Sys2Proof.Machine
end

