-- ==== Sys2Proof/Machine/Vector.lean ====
section
/-! DEFINITION. The vector operations (R195 to R200): one command for each operation code of VOP. -/

namespace Sys2Proof.Machine

/-- The operand rules and ranges of a VOP as its word and registers give them (R195). -/
structure VopArgs where
  n : Nat
  scalar : F32
  aFmt : Nat
  dFmt : Nat
  a : Nat
  b : Nat
  d : Nat
  deriving DecidableEq, Repr

/-- How an operation takes a second source: none, element-wise, or one broadcast binary32 (R195). -/
inductive VopB where
  | none | each | one
  deriving DecidableEq, Repr

/-- Bytes of an operand of n elements (R195): MX rows with scales and padding, others packed. -/
def vopBytes (fmt n : Nat) : Nat := if isMX fmt then rowBytes fmt n else n * elemBytes fmt

/-- Row-block codes (Table 07-1). -/
def rowCode (c : Nat) : Bool := decide (c ≤ 5) || c == 9

/-- The arguments of a VOP, or none where an operand rule is broken or a range leaves the chamber store (R195, R200). -/
def vopArgs (k : Quad) (w : Nat) (takesB : VopB) (reduces : Bool) : Option VopArgs :=
  let c := (k.reg (qB w)).toNat
  let v : VopArgs :=
    { n := bits c 31 0, scalar := BitVec.ofNat 32 (bits c 63 32), aFmt := bits (qFn w) 3 0, dFmt := bits (qFn w) 7 4,
      a := (k.reg (qA w)).toNat, b := if takesB = .none then 0 else (k.reg (qA w + 1)).toNat, d := (k.reg (qD w)).toNat }
  let la := vopBytes v.aFmt v.n
  let lb := match takesB with | .none => 0 | .each => la | .one => 4
  let ld := if reduces then 4 else vopBytes v.dFmt v.n
  let apart (x n : Nat) : Bool := decide (v.d + ld ≤ x) || decide (x + n ≤ v.d)
  let same := v.d == v.a && elemBytes v.dFmt == elemBytes v.aFmt
  if rowCode v.aFmt ∧ rowCode v.dFmt ∧ 1 ≤ v.n ∧ v.n ≤ 4194304 ∧ (takesB = .none ∨ qA w ≤ 14) ∧
     (!reduces ∨ v.dFmt = 9) ∧ ((!isMX v.aFmt && !isMX v.dFmt) ∨ v.n % 32 = 0) ∧
     v.a % 32 = 0 ∧ v.d % 32 = 0 ∧ (takesB = .none ∨ v.b % 32 = 0) ∧
     v.a + la ≤ chamberBytes ∧ v.d + ld ≤ chamberBytes ∧ v.b + lb ≤ chamberBytes ∧
     (same ∨ (apart v.a la ∧ (takesB = .none ∨ apart v.b lb)))
  then some v else none

/-- n elements of an operand, decoded to binary32 (R179, R196). -/
def vopRead (x : SliceState) (q fmt a n : Nat) : List F32 :=
  let len := vopBytes fmt n
  let b := x.load (chamberAddr q a) len
  match fmtOf fmt with
  | none => []
  | some f =>
    toF32 (((pieces (elemBytes fmt) b).take n).zipIdx.map fun e =>
      let code := leNat e.1
      if isMX fmt then mxValue f code ((b.getD (n + e.2 / 32) 0).toNat) else f.decode code)

/-- One VOP: a word whose IMM[7:0] is the code issues; a broken rule faults with VOP_ARG; otherwise the results are rounded
once into the destination format and written (R195, R196, R200, R201, R204). -/
def State.vop (s : State) (sl q code : Nat) (takesB : VopB) (reduces : Bool)
    (f : VopArgs → List F32 → List F32 → List F32) : State :=
  let k0 := s.quad sl q
  if k0.st = .running && decide (k0.pc ≤ 8191) && bits (qImm (k0.program.getD k0.pc 0).toNat) 7 0 != code then s
  else s.issueQuad sl q 0x60 fun v k w =>
    match vopArgs k w takesB reduces with
    | none =>
      (v.onSl sl fun x => { x with arr := { x.arr with vopFaults := x.arr.vopFaults + 1 } }).segmentFault sl q none k.pc qfVopArg
    | some g =>
      let x := v.sl sl
      let bLen := match takesB with | .none => 0 | .each => vopBytes g.aFmt g.n | .one => 4
      let bad := x.poisoned (chamberAddr q g.a) (vopBytes g.aFmt g.n) || (bLen != 0 && x.poisoned (chamberAddr q g.b) bLen)
      let v1 := if bad then (match x.quadRun q with | some u => v.faultStage sl u .fault | none => v) else v
      let av := vopRead x q g.aFmt g.a g.n
      let bv := match takesB with
        | .none => []
        | .each => vopRead x q g.aFmt g.b g.n
        | .one => [BitVec.ofNat 32 (x.loadNat (chamberAddr q g.b) 4)]
      let r := (f g av bv).map F32.num
      let wr := if isMX g.dFmt && !reduces then encodeRow g.dFmt r else encodePlain (if reduces then 9 else g.dFmt) r
      v1.onSl sl fun y =>
        let z := y.store (chamberAddr q g.d) wr.bytes
        { z with arr := { z.arr with
          satElements := z.arr.satElements + wr.sat
          nonfiniteVops := z.arr.nonfiniteVops + b2n wr.nonfinite } }

/-- An operation of one source. -/
def State.vop1 (s : State) (sl q code : Nat) (f : F32 → F32 → F32) : State :=
  s.vop sl q code .none false fun g a _ => a.map fun x => f g.scalar x

/-- An element-wise operation of two sources. -/
def State.vop2 (s : State) (sl q code : Nat) (f : F32 → F32 → F32 → F32) : State :=
  s.vop sl q code .each false fun g a b => (a.zip b).map fun x => f g.scalar x.1 x.2

/-- An operation with a broadcast source. -/
def State.vopB (s : State) (sl q code : Nat) (f : F32 → F32 → F32) : State :=
  s.vop sl q code .one false fun _ a b => a.map fun x => f x (b.headD 0)

/-- A reduction (R197). -/
def State.vopR (s : State) (sl q code : Nat) (pre : F32 → F32) (f : F32 → F32 → F32) : State :=
  s.vop sl q code .none true fun _ a _ => [reduceBy f 128 (a.map pre)]

/-- VOP CONVERT (Table 07-5). -/
def execVopConvert (sl : SliceId) (q : QuadId) (s : State) : Out := .next (s.vop1 sl q 0x00 fun _ x => x)
/-- VOP ADD. -/
def execVopAdd (sl : SliceId) (q : QuadId) (s : State) : Out := .next (s.vop2 sl q 0x01 fun _ x y => F32.add x y)
/-- VOP MUL. -/
def execVopMul (sl : SliceId) (q : QuadId) (s : State) : Out := .next (s.vop2 sl q 0x02 fun _ x y => F32.mul x y)
/-- VOP MAX (R196). -/
def execVopMax (sl : SliceId) (q : QuadId) (s : State) : Out := .next (s.vop2 sl q 0x03 fun _ x y => F32.max x y)
/-- VOP MIN (R196). -/
def execVopMin (sl : SliceId) (q : QuadId) (s : State) : Out := .next (s.vop2 sl q 0x04 fun _ x y => F32.min x y)
/-- VOP ADDS. -/
def execVopAdds (sl : SliceId) (q : QuadId) (s : State) : Out := .next (s.vop1 sl q 0x05 fun c x => F32.add x c)
/-- VOP MULS. -/
def execVopMuls (sl : SliceId) (q : QuadId) (s : State) : Out := .next (s.vop1 sl q 0x06 fun c x => F32.mul x c)
/-- VOP AXPY: one rounding. -/
def execVopAxpy (sl : SliceId) (q : QuadId) (s : State) : Out := .next (s.vop2 sl q 0x07 fun c x y => fma32 y x c)
/-- VOP ADDB. -/
def execVopAddb (sl : SliceId) (q : QuadId) (s : State) : Out := .next (s.vopB sl q 0x08 F32.add)
/-- VOP MULB. -/
def execVopMulb (sl : SliceId) (q : QuadId) (s : State) : Out := .next (s.vopB sl q 0x09 F32.mul)
/-- VOP EXP (R198). -/
def execVopExp (sl : SliceId) (q : QuadId) (s : State) : Out := .next (s.vop1 sl q 0x10 fun _ x => F32.exp x)
/-- VOP SIGMOID. -/
def execVopSigmoid (sl : SliceId) (q : QuadId) (s : State) : Out := .next (s.vop1 sl q 0x11 fun _ x => F32.sigmoid x)
/-- VOP SILU. -/
def execVopSilu (sl : SliceId) (q : QuadId) (s : State) : Out := .next (s.vop1 sl q 0x12 fun _ x => F32.silu x)
/-- VOP TANH. -/
def execVopTanh (sl : SliceId) (q : QuadId) (s : State) : Out := .next (s.vop1 sl q 0x13 fun _ x => F32.tanh x)
/-- VOP LOG. -/
def execVopLog (sl : SliceId) (q : QuadId) (s : State) : Out := .next (s.vop1 sl q 0x14 fun _ x => F32.log x)
/-- VOP RSQRT. -/
def execVopRsqrt (sl : SliceId) (q : QuadId) (s : State) : Out := .next (s.vop1 sl q 0x15 fun _ x => F32.rsqrt x)
/-- VOP RECIP. -/
def execVopRecip (sl : SliceId) (q : QuadId) (s : State) : Out := .next (s.vop1 sl q 0x16 fun _ x => F32.recip x)
/-- VOP EXPSUB. -/
def execVopExpsub (sl : SliceId) (q : QuadId) (s : State) : Out :=
  .next (s.vopB sl q 0x17 fun x b => F32.exp (F32.sub x b))
/-- VOP SWIGLU. -/
def execVopSwiglu (sl : SliceId) (q : QuadId) (s : State) : Out :=
  .next (s.vop2 sl q 0x18 fun _ x y => F32.swiglu x y)
/-- VOP SUM (R197). -/
def execVopSum (sl : SliceId) (q : QuadId) (s : State) : Out := .next (s.vopR sl q 0x20 id F32.add)
/-- VOP SUMSQ: the sum of the rounded squares. -/
def execVopSumsq (sl : SliceId) (q : QuadId) (s : State) : Out := .next (s.vopR sl q 0x21 (fun x => F32.mul x x) F32.add)
/-- VOP MAXRED. -/
def execVopMaxred (sl : SliceId) (q : QuadId) (s : State) : Out := .next (s.vopR sl q 0x22 id F32.max)

end Sys2Proof.Machine
end

