-- ==== Sys2Proof/Machine/UnitMap.lean ====
section
/-! DEFINITION. The unit map (R19, R470 to R473, R477): its bytes, the spares that are free, the logical unit behind a
physical one, and how a change of the map is recorded and takes effect. -/

namespace Sys2Proof.Machine

/-! ### The map (R477) -/

/-- Bit mask of the slices that a predicate picks. -/
def sliceMask (p : Nat → Bool) : Nat := ((List.range 8).map fun i => if p i then 2 ^ i else 0).sum

/-- SLICES_PRESENT: the slices that passed their self-test (R3). -/
def State.slicesPresent (s : State) : Nat := sliceMask fun i => (s.sl i).present

/-- The record of one slice (Table 19-3). -/
def unitRecord (x : SliceState) : Bytes :=
  let p := x.spares
  [BitVec.ofNat 8 (b2n x.present)] ++
  ((List.range 8).map fun q => BitVec.ofNat 8 (field (p.array.getD q 7) 3 0 + field (b2n (p.arrayOut.getD q false)) 1 3)) ++
  [BitVec.ofNat 8 (field p.engine 3 0 + field (b2n p.engineOut) 1 3), BitVec.ofNat 8 p.adder, BitVec.ofNat 8 p.linksOut] ++
  ((List.range 8).map fun k => leBytes 2 (x.ports.getD k {}).laneMap).flatten ++
  [BitVec.ofNat 8 p.portsOut, BitVec.ofNat 8 (b2n p.sumpOut)] ++
  ((List.range 4).map fun k => leBytes 2 (field (p.pch.getD k 127) 7 0 + field (b2n (p.pchOut.getD k false)) 1 7)).flatten ++
  ((List.range 4).map fun k => leBytes 2 (p.rows.getD k 0)).flatten ++ zeros 18

/-- UNIT_MAP: 528 bytes (R477). -/
def State.unitMap (s : State) : Bytes :=
  leBytes 2 1 ++ [BitVec.ofNat 8 s.slicesPresent] ++ zeros 13 ++ (s.slices.map unitRecord).flatten

/-- The unit-map digest (R404). -/
def State.unitMapDigest (s : State) : Bytes := digest64 (0x04#8 :: s.unitMap)

/-! ### The on-package store (R434, R436) -/

/-- A report of the store. -/
def State.storeReport (s : State) : State := s.report 0 (mkReport 0x13 13 0)

/-- The store takes a write: its wear is what the store finds, and reaching 90 % is recorded (R436). -/
def State.storeWrite (s : State) : State :=
  let n := s.dict.storeWrites + 1
  let wear := min 100 (Config.storeWear n)
  let t := { s with dict := { s.dict with storeWrites := n, storeWear := wear } }
  if s.dict.storeWear < 90 ∧ 90 ≤ wear then t.storeReport else t

/-- The bytes of a record that its CRC covers (R434). -/
def StoreRecord.bytes (r : StoreRecord) : Bytes := leBytes 2 r.index ++ leBytes 1 r.sub ++ leBytes 1 r.channel ++ leBytes 4 r.count ++ r.value

/-- A record with its CRC-32C. -/
def StoreRecord.sealed_ (r : StoreRecord) : StoreRecord := { r with crc := crc32c r.bytes }

/-- A record of an entry is in the store: its count rises and MR3 is extended (R434). -/
def State.storeRecord (s : State) (index sub c : Nat) (v : Bytes) : State :=
  let same (r : StoreRecord) : Bool := r.index == index && r.sub == sub && r.channel == c
  let last := s.dict.store.find? same
  let n := match last with | some r => r.count | none => 0
  let r : StoreRecord := { index := index, sub := sub, channel := c, count := (n + 1) % 2 ^ 32, value := v, older := last.map (·.value) }
  let t := { s with dict := { s.dict with store := r.sealed_ :: s.dict.store.filter fun r => !same r } }
  t.storeWrite.extendMR 3 (digest64 (leBytes 2 index ++ leBytes 1 sub ++ leBytes 1 c ++ v))

/-- The device writes a persisted entry of its own: the value with its record, or the old value where the store is worn out (R434,
R436). -/
def State.devicePersist (s : State) (index sub c : Nat) (v : Bytes) (apply : State → State) : State :=
  if 100 ≤ s.dict.storeWear ∧ index / 4096 ≠ 8 then s.storeReport else (apply s).storeRecord index sub c v

/-- A change of the unit map: counted, measured into MR6 and recorded (R473). -/
def State.mapChanged (s : State) (sl : Nat) (u : UnitRef) : State :=
  let n := s.dict.unitMapChanges + 1
  let t := s.devicePersist 0x7000 2 0 (leBytes 4 n) fun v => { v with dict := { v.dict with unitMapChanges := n } }
  (t.extendMR 6 t.unitMapDigest).report sl { cls := 0x15, unit := u }

/-! ### Free spares (R470, R487) -/

/-- Spares of a slice found good at boot: a bit of SPARES_LEFT. -/
def spareAtBoot (sl bitN : Nat) : Bool := (Config.sparesAtBoot sl).testBit bitN

def State.arraySpareFree (s : State) (sl q : Nat) : Bool :=
  let p := (s.sl sl).spares
  spareAtBoot sl q && p.array.getD q 7 == 7 && !p.bad.contains { kind := 1, index := 8 * q + 4 }

def State.engineSpareFree (s : State) (sl : Nat) : Bool :=
  let p := (s.sl sl).spares
  spareAtBoot sl 8 && p.engine == 7 && !p.bad.contains { kind := 3, index := 4 }

/-- SP0 and SP1, numbered 0 and 1; a transceiver that failed is named by its code at port 0 (4 or 5). -/
def State.laneSpareFree (s : State) (sl k : Nat) : Bool :=
  let p := (s.sl sl).spares
  spareAtBoot sl (9 + k) && (p.sp.getD k none).isNone && !p.bad.contains { kind := 7, index := 4 + k }

def State.pchSpareFree (s : State) (sl stack : Nat) : Bool :=
  let p := (s.sl sl).spares
  spareAtBoot sl (11 + stack) && p.pch.getD stack 127 == 127 && !p.bad.contains { kind := 6, index := 65 * stack + 64 }

/-- The number of free adder lanes. -/
def State.adderSparesFree (s : State) (sl : Nat) : Nat :=
  bits (Config.sparesAtBoot sl) 18 15 - (setBits 8 (s.sl sl).spares.adder).length

/-- SPARES_LEFT (R487). -/
def State.sparesLeft (s : State) (sl : Nat) : Nat :=
  ((List.range 8).map fun q => if s.arraySpareFree sl q then 2 ^ q else 0).sum + field (b2n (s.engineSpareFree sl)) 1 8 +
  field (b2n (s.laneSpareFree sl 0)) 1 9 + field (b2n (s.laneSpareFree sl 1)) 1 10 +
  ((List.range 4).map fun k => if s.pchSpareFree sl k then 2 ^ (11 + k) else 0).sum + field (s.adderSparesFree sl) 4 15

/-! ### Physical and logical units (R19) -/



/-- The logical unit that a physical unit serves, or none where it serves none. -/
def Spares.logical (p : Spares) (u : UnitRef) : Option UnitRef :=
  if u.kind = 1 then
    let q := u.index / 8
    let a := p.array.getD q 7
    if u.index % 8 = 4 then (if a < 4 then some { kind := 1, index := 8 * q + a } else none)
    else if a = u.index % 8 then none else some u
  else if u.kind = 3 then
    if u.index = 4 then (if p.engine < 4 then some { kind := 3, index := p.engine } else none)
    else if p.engine = u.index then none else some u
  else if u.kind = 6 then
    let k := u.index / 65
    let c := p.pch.getD k 127
    if u.index % 65 = 64 then (if c < 64 then some { kind := 6, index := 65 * k + c } else none)
    else if c = u.index % 65 then none else some u
  else some u

/-- The physical unit that serves a logical one (R19, Table 19-7). -/
def Spares.physical (p : Spares) (u : UnitRef) : UnitRef :=
  if u.kind = 1 ∧ p.array.getD (u.index / 8) 7 = u.index % 8 then { u with index := 8 * (u.index / 8) + 4 }
  else if u.kind = 3 ∧ p.engine = u.index then { u with index := 4 }
  else if u.kind = 6 ∧ p.pch.getD (u.index / 65) 127 = u.index % 65 then { u with index := 65 * (u.index / 65) + 64 }
  else u

def State.onSpares (s : State) (sl : Nat) (f : Spares → Spares) : State := s.onSl sl fun x => { x with spares := f x.spares }

/-- The unit is withdrawn no more. -/
def Spares.restore (p : Spares) (u : UnitRef) : Spares := { p with failed := p.failed.filter (· != u) }

/-- The unit is withdrawn. -/
def Spares.withdraw (p : Spares) (u : UnitRef) : Spares :=
  if p.failed.contains u then p else { p with failed := p.failed ++ [u] }

/-- The domain of a unit that is OUT goes off (R515). -/
def SliceState.domainOff (x : SliceState) (n : Nat) : SliceState :=
  if x.power.domains.testBit n then { x with power := { x.power with domains := x.power.domains ^^^ 2 ^ n } } else x

/-- A change of the unit map takes effect for a logical unit (R472, R473): its spare takes over if it is free, else the unit
is OUT; a link, a port or a sump port is recorded as it stands. -/
def State.applyMap (s : State) (sl : Nat) (w : UnitRef × Option Nat) : State :=
  let u := w.1
  let x := s.sl sl
  match u.kind with
  | 1 =>
    let q := u.index / 8
    let a := u.index % 8
    if s.arraySpareFree sl q then
      ((s.onSpares sl fun p => { p.restore u with array := p.array.set q a }).onSl sl fun y =>
        y.onQuad q fun k => k.onArray a fun _ => {}).mapChanged sl u
    else if x.spares.arrayOut.getD q false then s
    else (s.onSpares sl fun p => { p with arrayOut := p.arrayOut.set q true }).mapChanged sl (x.spares.physical u)
  | 3 =>
    if s.engineSpareFree sl then
      ((s.onSpares sl fun p => { p.restore u with engine := u.index }).onSl sl fun y =>
        y.onEngine u.index fun _ => {}).mapChanged sl u
    else if x.spares.engineOut then s
    else ((s.onSpares sl fun p => { p with engineOut := true }).onSl sl fun y => y.domainOff (8 + u.index)).mapChanged sl (x.spares.physical u)
  | 4 =>
    -- the whole engine has no spare
    if u.index = 0xFFF then s.mapChanged sl u
    else if 0 < s.adderSparesFree sl then
      match (List.range 8).find? fun i => !x.spares.adder.testBit i with
      | some i => (s.onSpares sl fun p => { p.restore u with adder := p.adder ||| 2 ^ i }).mapChanged sl u
      | none => s
    else (s.onSpares sl fun p => p.withdraw { kind := 4, index := 0xFFF }).mapChanged sl u
  | 6 =>
    let k := u.index / 65
    let c := u.index % 65
    match w.2 with
    | some row =>
      let n := x.spares.rowsSpared + 1
      let t := s.onSpares sl fun p => { p with rows := p.rows.modify k (· + 1), retired := p.retired ++ [(k, c, row)] }
      (t.devicePersist 0x7010 2 sl (leBytes 4 n) fun v => v.onSpares sl fun p => { p with rowsSpared := n }).mapChanged sl u
    | none =>
      if s.pchSpareFree sl k then (s.onSpares sl fun p => { p.restore u with pch := p.pch.set k c }).mapChanged sl u
      else if x.spares.outPch.contains (k, c) then s
      else (s.onSpares sl fun p => { p with pchOut := p.pchOut.set k true, outPch := p.outPch ++ [(k, c)] }).mapChanged sl (x.spares.physical u)
  | 7 =>
    let n := u.index / 8
    let l := x.ports.getD n {}
    let out := l.disabled || l.heldOut
    if x.spares.portsOut.testBit n = out then s
    else (s.onSpares sl fun p => { p with portsOut := p.portsOut ^^^ 2 ^ n }).mapChanged sl u
  | 8 =>
    let out := decide ((x.ilinks.getD u.index {}).st ≠ 3)
    if x.spares.linksOut.testBit u.index = out then s
    else (s.onSpares sl fun p => { p with linksOut := p.linksOut ^^^ 2 ^ u.index }).mapChanged sl u
  | 9 =>
    if x.spares.sumpOut then s
    else ((s.onSpares sl fun p => { p with sumpOut := true }).onSl sl fun y => y.domainOff 19).mapChanged sl u
  | _ => s

/-- A change of the map is due: at once with no job loaded, else at the next frame start (R473). -/
def State.mapDue (s : State) (sl : Nat) (u : UnitRef) (row : Option Nat := none) : State :=
  if s.job.isNone then s.applyMap sl (u, row)
  else if (s.sl sl).spares.waiting.contains (u, row) then s
  else s.onSpares sl fun p => { p with waiting := p.waiting ++ [(u, row)] }

/-- A lane remap in still-water mode waits for the unload (R474). -/
def isLaneChange (w : UnitRef × Option Nat) : Bool := w.1.kind == 7 && w.1.index % 8 != 7

/-- The changes that wait take effect, lanes apart (R473, R474). -/
def State.applyWaiting (s : State) : State :=
  s.eachSlice fun t i =>
    let due := (t.sl i).spares.waiting.filter fun w => !isLaneChange w
    due.foldl (fun v w => v.applyMap i w) (t.onSpares i fun p => { p with waiting := p.waiting.filter isLaneChange })

end Sys2Proof.Machine
end

