-- ==== Sys2Proof/Machine/LinkState.lean ====
section
/-! DEFINITION. Link states (R255, R256, R287): the frame a link sends (R257 to R259, R418 to R420), leaving UP and coming
UP, and what each does to the packets of the link. -/

namespace Sys2Proof.Machine

/-! ### Frames (Tables 10-2 and 10-3) -/

def kindIDLE : Nat := 0
def kindDATA : Nat := 1
def kindTRAIN : Nat := 2

/-- The control symbols NONE, DOWN and SESSION (Table 10-4). -/
def symNone : Bytes := zeros 32
def symDown (reason : Nat) : Bytes := [2#8, BitVec.ofNat 8 reason] ++ zeros 30
def symSession (part : Nat) (b : Bytes) : Bytes := [4#8, BitVec.ofNat 8 part] ++ slice b 0 30

/-- The 96-bit IV: the salt of the direction, then FCOUNT (R419). -/
def linkIv (salt : Bytes) (count : Nat) : Bytes := salt ++ leBytes 8 count

/-- The next rekey chain value and key of a direction (R420). -/
def nextGen (gen : Bytes) : Bytes := kmac256 gen [] 16 (ascii "NEXT")
def nextKey (gen salt : Bytes) : Bytes := kmac256 (nextGen gen) salt 32 (ascii "LINKKEY")

/-- The sender rekeys its direction when FCOUNT reaches REKEY_FRAMES (R420). -/
def Session.rekeyTx (x : Session) (limit : Nat) : Session :=
  if x.txKey != [] && decide (limit ≤ x.txCount) then
    { x with txKey := nextKey x.txGen x.txSalt, txGen := nextGen x.txGen, txCount := 0, txPhase := !x.txPhase }
  else x

/-- A frame of a link, and the link after it: credits returned and FCOUNT raised. -/
def buildFrame (l : Link) (limit kind fseq : Nat) (slot stream : Bytes) : Bytes × Link :=
  let x := l.sess.rekeyTx limit
  let rq := min l.reqReturn 4095
  let rs := min l.rspReturn 4095
  let hdr := leBytes 12 (field fseq 12 0 + field kind 2 12 + field (b2n l.nakOwed) 1 14 + field (b2n x.txPhase) 1 15 +
    field l.rxSeq 12 16 + field rq 12 28 + field rs 12 40)
  let head := hdr ++ slice slot 0 32
  let body := slice stream 0 960
  let iv := linkIv x.txSalt x.txCount
  let (sent, tag) : Bytes × Bytes :=
    if x.txKey = [] then (body, zeros 16)
    else if x.encrypt then
      let c := Config.gcmXor x.txKey iv body
      (c, Config.gcmTag x.txKey iv head c)
    else (body, Config.gcmTag x.txKey iv (head ++ body) [])
  let f := head ++ sent ++ slice tag 0 16
  (f ++ leBytes 4 (crc32c f),
    { l with
      nakOwed := false, reqReturn := l.reqReturn - rq, rspReturn := l.rspReturn - rs
      sess := { x with txCount := x.txCount + b2n (x.txKey != []) } })

/-! ### Leaving UP (R256, R287) -/

/-- The packets queued at an egress. -/
def Link.queued (l : Link) : List Queued := l.egressRsp ++ l.egressReq

/-- What a link keeps when it is not UP: its settings, its ingress buffers, its counters. -/
def Link.cleared (l : Link) (st : Nat) : Link :=
  { l with
    st := st, inService := false, txSeq := 0, kept := [], resend := [], rxSeq := 4095, nakOwed := false, nakSent := false
    reqCredits := 0, rspCredits := 0, reqReturn := 0, rspReturn := 0, rxStream := [], txStream := []
    egressReq := [], egressRsp := [], symbols := [], fecTimes := [], timeRx := none, timePkt := none, sess := {} }

/-- A packet that was queued for a link that went down goes over what remains; a copy of a multicast packet, which is not
sprayed, and a link-local packet are lost (R287, R290). -/
def State.requeue (s : State) (sl : Nat) (l : LinkId) (x : Queued) : State :=
  let p := x.pkt
  let hold (v : State) (n : Nat) : State := v.onSl sl fun y => { y with fabric := { y.fabric with nextHold := n } }
  let n := (s.sl sl).fabric.nextHold
  -- what still stands in an ingress buffer keeps its number
  let a : Arrival := if x.hold.isSome then x.origin else .own
  let t := hold s (x.hold.getD n)
  let u := if p.opcode = opTIME then t
    else match l with
    | .port _ => if p.opcode = opMCAST then t else t.spray sl a p
    | .link k =>
      match x.route with
      | some n => t.cross sl (if 64 ≤ n then (n - 64) / 8 else n / 8) a p (some n)
      | none => t.cross sl (if p.opcode = opMCAST then k.val else p.dstSlice) a p none
  hold u n

/-- Packets queued at the slice no longer stand in the ingress buffer of a link that has left UP: its credits start anew. -/
def SliceState.voidHolds (x : SliceState) (l : LinkId) : SliceState :=
  let a : Arrival := match l with | .port q => .port q | .link k => .link k
  let off (q : Queued) : Queued := if q.origin = a then { q with hold := none } else q
  let f (k : Link) : Link := { k with egressReq := k.egressReq.map off, egressRsp := k.egressRsp.map off }
  { x with ports := x.ports.map f, ilinks := x.ilinks.map f, fabric := { x.fabric with inject := x.fabric.inject.map off } }

/-- Whether the loss of a link matters to the job until it is reloaded: a port in still-water mode (R287), an internal link
where traffic is scheduled (R18). -/
def State.losesJob (s : State) (l : LinkId) : Bool :=
  s.job.isSome &&
  (match l with
   | .port _ => s.still.on
   | .link _ => s.pkg.congestionMode == 0)

/-- The nodes of the job whose eligible set holds a port (R287). -/
def State.nodesBy (s : State) (sl : Nat) : LinkId → List Nat
  | .port p => match s.job with
    | some j => j.nodes.filter fun m => (s.eligible m s.pkg.routeActive).contains (8 * sl + p.val)
    | none => []
  | .link _ => []

/-- A link goes DOWN, or DISABLED, from any state. From UP the loss is counted and recorded, its session is discarded, and
its queued packets go over what remains. `reason`: the code of its DOWN symbol, or 0 where it sends none. -/
def State.goDown (s : State) (sl : Nat) (l : LinkId) (st reason : Nat) : State :=
  let k := s.link sl l
  let s1 := if reason = 0 ∨ k.st = linkDown ∨ k.st = linkDisabled then s
    else s.emit (.frame sl l (buildFrame k s.sec.rekeyFrames kindIDLE 0 (symDown reason) []).1)
  let s2 := { s1.onLink sl l fun x => x.cleared st with
    sec := { s1.sec with signQueue := match l with
      | .port p => s1.sec.signQueue.filter (· != (sl, p.val))
      | .link _ => s1.sec.signQueue } }
  if k.st = linkUp then
    let s3 := s2.onLink sl l fun x =>
      { x with
        downEvents := x.downEvents + 1, jobLost := x.jobLost || s.losesJob l
        lostFor := if s.losesJob l then x.lostFor ++ s.nodesBy sl l else x.lostFor }
    let s4 := s3.report sl { cls := 0x0D, unit := LinkId.unit l }
    let s4v := s4.onSl sl fun x => x.voidHolds l
    let s5r := k.queued.foldl (fun v x => v.requeue sl l x) s4v
    let s5 := (k.queued.map fun x => (x.origin, x.hold, x.pkt)).foldl (fun (v : State × List (Arrival × Option Nat)) x =>
      if v.2.contains (x.1, x.2.1) then v else (v.1.freeHold sl x.1 x.2.1 x.2.2, (x.1, x.2.1) :: v.2)) (s5r, []) |>.1
    match l with
    | .port p => if s.time.parent = 8 * sl + p.val || k.timePkt.isSome then s5.chooseParent else s5
    | .link j =>
      (s5.mapDue sl { kind := 8, index := j.val }).cutPairs
  else match l with
    | .port _ => s2
    -- R18: a link that fails to come up is out of service too
    | .link j => s2.mapDue sl { kind := 8, index := j.val }

/-- A link comes UP: each side grants the full credits, and numbering starts anew (R255, R263). A port joins the eligible
sets at a later drip (R287); an internal link is recorded in the unit map. -/
def State.goUp (s : State) (sl : Nat) (l : LinkId) : State :=
  let t := s.onLink sl l fun k =>
    { k with
      st := linkUp, txSeq := 0, rxSeq := 4095, kept := [], resend := [], nakOwed := false, nakSent := false, rxStream := [], txStream := []
      reqCredits := 4096, rspCredits := 4096, reqReturn := 0, rspReturn := 0, fecTimes := [], symbols := [] }
  match l with
  | .port _ => t
  | .link j => t.mapDue sl { kind := 8, index := j.val }

end Sys2Proof.Machine
end

