-- ==== Sys2Proof/Machine/Sessions.lean ====
section
/-! DEFINITION. Link sessions (R415 to R420): the HELLO and FINISH messages, their checks, the keys of a direction, and the
commands of the handshake. -/

namespace Sys2Proof.Machine

/-! ### Versions (R457, R459) -/

/-- VERSION of a set image. -/
def setVersion (img : Bytes) : Nat := leNat (slice img 4 8)
def verClass (v : Nat) : Nat := bits v 15 0
def verMinor (v : Nat) : Nat := bits v 31 16

/-- FW_VERSION: in the middle of a rollout, the target's class and minor with patch 0xFF00 + k (R457). -/
def State.fwVersion (s : State) : Nat :=
  let f := s.fw
  let ver (n : Nat) : Nat := setVersion (f.slots.getD n [])
  if (f.rollout = 1 ∨ f.rollout = 2 ∨ f.rollout = 3) ∧ 1 ≤ f.step ∧ f.step ≤ 33 then
    bits (ver f.target) 31 0 + field (0xFF00 + f.step) 16 32
  else bits (ver f.running) 47 0

/-! ### Identity and certificates (R412, R413, R416) -/

/-- The seed of the identity key, from the helper data in the store (R412). -/
def State.identitySeed (s : State) : Bytes := shake256 (0x10#8 :: Config.pufKey s.sec.helper) 57

/-- The serial numbers of REVOKED, each preceded by its length (R428), with fuel. -/
def revokedSerials : Nat → Bytes → List Bytes
  | 0, _ => []
  | _, [] => []
  | n + 1, l :: rest => rest.take l.toNat :: revokedSerials n (rest.drop l.toNat)

/-- A chain of a certificate and its intermediate leads to the root key. -/
def chainOk (cert ca : Bytes) : Bool := Config.certSigned Config.rootKey ca && Config.certSigned (Config.certKey ca) cert

/-- A serial of a chain is revoked. -/
def State.chainRevoked (s : State) (cert ca : Bytes) : Bool :=
  let r := revokedSerials s.sec.revoked.length s.sec.revoked
  r.contains (Config.certSerial cert) || r.contains (Config.certSerial ca)

/-! ### Messages (Table 16-2) -/

/-- The HELLO that port p of a slice sends. -/
def State.helloBytes (s : State) (sl p : Nat) (nonce pub : Bytes) : Bytes :=
  let c := s.sec.deviceCertUsed
  let a := s.sec.caCertUsed
  [1#8, BitVec.ofNat 8 (b2n s.sec.linkEncrypt)] ++ leBytes 2 c.length ++ leBytes 2 a.length ++ zeros 2 ++
  leBytes 4 (s.pkg.nodeId % 2 ^ 20) ++ [BitVec.ofNat 8 (8 * sl + p)] ++ zeros 3 ++ leBytes 8 s.fwVersion ++
  slice nonce 0 32 ++ slice pub 0 56 ++ c ++ a

/-- Fields of a HELLO. -/
def helloCertLen (h : Bytes) : Nat := leNat (slice h 2 2)
def helloCaLen (h : Bytes) : Nat := leNat (slice h 4 2)
def helloCert (h : Bytes) : Bytes := slice h 112 (helloCertLen h)
def helloCa (h : Bytes) : Bytes := slice h (112 + helloCertLen h) (helloCaLen h)
def helloPub (h : Bytes) : Bytes := slice h 56 56
def helloEncrypt (h : Bytes) : Bool := (h.getD 1 0).toNat.testBit 0
def helloVersion (h : Bytes) : Nat := leNat (slice h 16 8)

/-- A message of the layout of a HELLO. -/
def helloFormed (h : Bytes) : Bool :=
  h.getD 0 0 == 1#8 && decide (h.length = 112 + helloCertLen h + helloCaLen h)

/-- Begin AUTH on a port: with a good identity and a healthy entropy source it makes a key pair and a nonce and sends its
HELLO (R413 to R415). -/
def State.beginAuth (s : State) (sl p : Nat) : State :=
  let l : LinkId := .port (Fin.ofNat 8 p)
  let s0 := s.onLink sl l fun k => { k with st := linkAuth, sess := {} }
  if s.sec.identity = 1 && !s.sec.trngFailing then
    let (priv, s1) := s0.drawTrng 56
    let (nonce, s2) := s1.drawTrng 32
    let h := s.helloBytes sl p nonce (Config.x448Public priv)
    s2.onLink sl l fun k => { k with sess := { priv := priv, hello := h, txMsg := h } }
  else s0

/-- The peer is refused: DOWN with reason 4, the failure counted and recorded with the port and the check (R416). -/
def State.refusePeer (s : State) (sl p check : Nat) : State :=
  let l : LinkId := .port (Fin.ofNat 8 p)
  let t := { s with sec := { s.sec with authFailures := s.sec.authFailures + 1 } }
  (t.report sl { cls := 0x12, unit := { kind := 7, index := 8 * p + 7 }, detail := [8 * sl + p, check] }).goDown sl l linkDown 4

/-- The first check of R416 that a peer's HELLO fails: 1 chain, 2 revocation, 3 validity, 4 class; 0 for none. -/
def State.helloCheck (s : State) (h : Bytes) : Nat :=
  if !helloFormed h || !chainOk (helloCert h) (helloCa h) then 1
  else if s.chainRevoked (helloCert h) (helloCa h) then 2
  else if (s.time.state == 2 || s.time.state == 4) && !(Config.certValidAt (helloCert h) s.time.now && Config.certValidAt (helloCa h) s.time.now) then 3
  else if verClass (helloVersion h) ≠ verClass s.fwVersion then 4
  else 0

/-- The keys of a session (R415): transcript, shared secret and the derived bytes; the private half is erased. -/
def Session.derive (x : Session) (peer : Bytes) : Session :=
  let isLo := decide (leNat (helloPub x.hello) < leNat (helloPub peer))
  let tr := digest64 (0x30#8 :: (if isLo then x.hello ++ peer else peer ++ x.hello))
  let okm := kmac256 (Config.x448 x.priv (helloPub peer)) tr 88 (ascii "LINK")
  { x with
    peerHello := peer, isLo := isLo, transcript := tr, okm := okm, priv := []
    encrypt := helloEncrypt x.hello || helloEncrypt peer }

/-- The keys come into use (R415, R419): the sender of HELLO_LO transmits under k_lo and receives under k_hi. -/
def Session.activate (x : Session) : Session :=
  let o := x.okm
  let lo := (slice o 0 32, slice o 64 4)
  let hi := (slice o 32 32, slice o 68 4)
  let tx := if x.isLo then lo else hi
  let rx := if x.isLo then hi else lo
  { x with
    txKey := tx.1, txSalt := tx.2, rxKey := rx.1, rxSalt := rx.2, txGen := slice o 72 16, rxGen := slice o 72 16
    txCount := 0, rxCount := 0, txPhase := false, rxPhase := false, rxOld := none, rxBad := 0, sinceRekey := 0, okm := [], txMsg := [] }

/-- The port comes UP once its own FINISH is sent and the peer's is accepted; while the entropy source fails its tests no session is
accepted (R414 to R416). -/
def State.tryAuthUp (s : State) (sl p : Nat) : State :=
  let l : LinkId := .port (Fin.ofNat 8 p)
  let k := s.link sl l
  if k.st = linkAuth && k.sess.finishSent && k.sess.finishSeen && !s.sec.trngFailing then
    (s.onLink sl l fun x => { x with sess := x.sess.activate }).goUp sl l
  else s

/-- A whole HELLO has arrived at a port in AUTH (R415, R416). -/
def State.takeHello (s : State) (sl p : Nat) (h : Bytes) : State :=
  let l : LinkId := .port (Fin.ofNat 8 p)
  let k := s.link sl l
  if k.st ≠ linkAuth ∨ k.sess.hello = [] ∨ k.sess.peerHello ≠ [] then s
  else
    let c := s.helloCheck h
    if c ≠ 0 then s.refusePeer sl p c
    else
      let t := s.onLink sl l fun x => { x with sess := { (x.sess.derive h) with signAsked := true } }
      { t with sec := { t.sec with signQueue := t.sec.signQueue ++ [(sl, p)] } }

/-- A whole FINISH has arrived: its signature verifies under the peer's certificate key, or the peer is refused (R416). -/
def State.takeFinish (s : State) (sl p : Nat) (f : Bytes) : State :=
  let l : LinkId := .port (Fin.ofNat 8 p)
  let k := s.link sl l
  if k.st ≠ linkAuth ∨ k.sess.peerHello = [] ∨ k.sess.finishSeen then s
  else if f.getD 0 0 == 2#8 && f.length == 122 && (slice f 1 7).all (· == 0) &&
      Config.ed448Verify (Config.certKey (helloCert k.sess.peerHello)) "KN800-LINK" k.sess.transcript (f.drop 8) then
    (s.onLink sl l fun x => { x with sess := { x.sess with finishSeen := true } }).tryAuthUp sl p
  else s.refusePeer sl p 5

/-- The length of the SESSION message that starts with these bytes, once it is known; 0 for a message of no known kind. -/
def sessionLength (b : Bytes) : Nat :=
  if b.getD 0 0 = 1#8 then 112 + helloCertLen b + helloCaLen b else if b.getD 0 0 = 2#8 then 122 else 0

/-- A SESSION symbol: parts are taken in order, and a whole message is handed on (R259, R415). -/
def State.takeSession (s : State) (sl p : Nat) (part : Nat) (b : Bytes) : State :=
  let l : LinkId := .port (Fin.ofNat 8 p)
  let x := (s.link sl l).sess
  if part ≠ 0 ∧ part ≠ x.rxPart then s
  else
    let m := (if part = 0 then [] else x.rxMsg) ++ slice b 0 30
    let n := sessionLength m
    let put (msg : Bytes) (k : Nat) (t : State) : State := t.onLink sl l fun y => { y with sess := { y.sess with rxMsg := msg, rxPart := k } }
    if n ≤ m.length then
      let t := put [] 0 s
      if n = 0 then t else if m.getD 0 0 = 1#8 then t.takeHello sl p (m.take n) else t.takeFinish sl p (m.take n)
    else put m (part + 1) s

/-! ### Commands -/

/-- HELLO (R415): a session HELLO arrives whole. -/
def execHello (sl : SliceId) (p : PortId) (msg : Bytes) (s : State) : Out := .next (s.takeHello sl p msg)

/-- A FINISH is ready: it is sent at once, or after what is left of the HELLO (R415). -/
def Session.queueFinish (x : Session) (m : Bytes) : Session :=
  if x.txPart < ceilDiv x.txMsg.length 30 then { x with finish := m } else { x with txMsg := m, txPart := 0 }

/-- FINISH_SIGN (R417): the security controller completes the signature at the head of its queue, and the FINISH is sent. -/
def execFinishSign (s : State) : Out :=
  match s.sec.signQueue with
  | [] => .next s
  | (sl, p) :: rest =>
    let l : LinkId := .port (Fin.ofNat 8 p)
    let t := { s with sec := { s.sec with signQueue := rest } }
    let sig := Config.ed448Sign s.identitySeed "KN800-LINK" (s.link sl l).sess.transcript
    .next (t.onLink sl l fun k => { k with sess := k.sess.queueFinish (2#8 :: (zeros 7 ++ slice sig 0 114)) })

/-- FINISH (R416): a FINISH arrives whole. -/
def execFinish (sl : SliceId) (p : PortId) (msg : Bytes) (s : State) : Out := .next (s.takeFinish sl p msg)

/-- Every part of the HELLO has been sent. -/
def Session.helloSent (x : Session) : Bool := x.hello != [] && (x.txMsg != x.hello || decide (x.hello.length ≤ 30 * x.txPart))

/-- AUTH_TIMEOUT (R417): a port that has sent its HELLO and is not UP in time goes DOWN with reason 4. -/
def execAuthTimeout (sl : SliceId) (p : PortId) (s : State) : Out :=
  let k := s.link sl (.port p)
  if k.st = linkAuth && k.sess.helloSent then .next (s.goDown sl (.port p) linkDown 4) else .next s

/-- LINK_REKEY (R420): the sending direction derives its next key once FCOUNT has reached REKEY_FRAMES. -/
def execLinkRekey (sl : SliceId) (p : PortId) (s : State) : Out :=
  .next (s.onLink sl (.port p) fun k => if k.st = linkUp then { k with sess := k.sess.rekeyTx s.sec.rekeyFrames } else k)

/-- The old key of the receiving direction goes 256 frames after the first under the new one (R420). -/
def Session.eraseOld (x : Session) : Session := if 256 ≤ x.sinceRekey then { x with rxOld := none } else x

/-- OLD_KEY_ERASE (R420). -/
def execOldKeyErase (sl : SliceId) (p : PortId) (s : State) : Out :=
  .next (s.onLink sl (.port p) fun k => { k with sess := k.sess.eraseOld })

end Sys2Proof.Machine
end

