-- ==== Sys2Proof/Machine/Time.lean ====
section
/-! DEFINITION. The commands of the time base (chapter 02, R37 to R47, R269, R527). -/

namespace Sys2Proof.Machine

/-- The TIME symbol a port sends: SYM 1, TSEQ, T1, ECHO_T1, ECHO_RX, GM_ERR (Table 10-4). -/
def timeSymbolBytes (s : State) (l : Link) : Bytes :=
  let e := l.timeRx.getD (0, 0)
  let g := if s.time.state = 4 then 0 else s.time.errBound
  leBytes 32 (1 + field l.tseq 8 8 + field s.time.now 64 16 + field e.1 64 80 + field e.2 64 144 + field g 32 208)

/-- TIME_SYMBOL_SEND (R38): a port that is up sends a TIME symbol in its control stream. -/
def execTimeSymbolSend (sl : SliceId) (p : PortId) (s : State) : Out :=
  let l := s.link sl (.port p)
  if l.st = linkUp then
    .next (s.onLink sl (.port p) fun k =>
      { k with symbols := k.symbols ++ [timeSymbolBytes s l], tseq := (k.tseq + 1) % 256 })
  else .next s

/-- The offset of R38: parent time minus own time, in 1/256 ns. An odd difference is rounded down: the manual gives the
division by 2 and no rounding (DESIGN CHOICE, log 120). -/
def symbolOffset (y : TimeSym) : Int :=
  (((y.echoRx : Int) - y.echoT1) - ((y.rx : Int) - y.t1)) / 2

/-- The delay of R38, in 1/256 ns, rounded down as the offset is (DESIGN CHOICE, log 120). -/
def symbolDelay (y : TimeSym) : Int :=
  (((y.echoRx : Int) - y.echoT1) + ((y.rx : Int) - y.t1)) / 2

/-- A symbol whose sender has had none from this port yet echoes nothing: ECHO_T1 and ECHO_RX are 0, and there is no pair of
exchanges to compute from (DEDUCED, log 120). -/
def paired (y : TimeSym) : Bool := !(y.echoT1 == 0 && y.echoRx == 0)

/-- The error bound b of R41. -/
def errorBound (gmErr : Nat) (offset : Int) : Nat := gmErr + offset.natAbs + 32

/-- The state after an exchange with the parent whose bound is b (R41): 2 ns is 512 units. -/
def State.judgeBound (s : State) (b : Nat) : State :=
  let t := { s with time := { s.time with errBound := b } }
  if b ≤ 512 then
    let u := { t with time := { t.time with good := t.time.good + 1 } }
    if u.time.state = 1 && 64 ≤ u.time.good then
      let v := u.setTimeState 2
      if v.time.hasOrigin then v
      else match (v.link (v.time.parent / 8) (.port (Fin.ofNat 8 v.time.parent))).timePkt with
        | some k => v.setOrigin k.dripOrigin
        | none => v
    else u
  else
    let u := { t with time := { t.time with good := 0 } }
    if u.time.state = 2 then u.setTimeState 1 else u

/-- A TIME symbol arrives (R38, R40, R41): the receiver keeps T1 and its receive time; on the parent port a pair of exchanges
corrects its time. The filtered offset of R41 is the offset of the exchange itself: the manual gives no filter (DESIGN CHOICE,
log 120). -/
def State.takeTimeSymbol (s : State) (sl : Nat) (p : PortId) (y : TimeSym) : State :=
  if (s.link sl (.port p)).st = linkUp then
    let t := s.onLink sl (.port p) fun k => { k with timeRx := some (y.t1, y.rx), gmErr := y.gmErr }
    if s.time.parent = 8 * sl + p.val && s.time.state != 4 && paired y then
      let o := symbolOffset y
      let t1 := { t with time := { t.time with offset := o, delay := symbolDelay y } }
      -- R41: one step in ACQUIRING with no job; R40: otherwise a slew
      let t2 :=
        if s.job.isNone && s.time.state = 1 && !s.time.stepped then
          let tm := { t1.time with now := ((t1.time.now : Int) + o).toNat, stepped := true }
          { t1 with time := { tm with drip := dripAt tm } }
        else { t1 with time := { t1.time with slewing := o } }
      t2.judgeBound (errorBound y.gmErr o)
    else t
  else s

/-- TIME_SYMBOL (R38). -/
def execTimeSymbol (sl : SliceId) (p : PortId) (y : TimeSym) (s : State) : Out := .next (s.takeTimeSymbol sl p y)

/-- HOLDOVER_TIMEOUT (R44): FREE; the next drip boundary ends what crosses the device's edge. -/
def execHoldoverTimeout (s : State) : Out :=
  if s.time.state = 3 then
    let t := s.setTimeState 0
    .next { t with time := { t.time with freeDue := true } }
  else .next s

/-- The payload of a TIME packet (R269). A device that knows no grandmaster yet announces itself (DEDUCED, log 121). -/
def timePayload (s : State) : Bytes :=
  let alone := s.time.parent = 0xFF && s.time.state != 4
  leBytes 32 (field (if alone then s.pkg.nodeId else s.time.gmNode) 20 0 +
    field (if alone then b2n (s.time.tiEnable && s.time.tiLocked) else b2n s.time.gmLocked) 1 20 +
    field (if alone then 0 else s.time.hops) 8 24 + field s.time.origin 64 32 + field s.time.dripBeats 32 96)

/-- The TIME packet a device sends. -/
def timePacket (s : State) (sl : Nat) : Packet :=
  sealPacket { opcode := opTIME, srcNode := s.pkg.nodeId, srcSlice := sl, dstNode := 0, dstSlice := 0, dstOffset := 0,
               plen := 32, msgId := 0, flowSeq := 0, payload := timePayload s }

/-- A device in FREE that has held no DRIP_ORIGIN since power-up and hears of no other device is the lowest-numbered one that
carries time: it becomes grandmaster (R39, R43; DEDUCED, log 121). -/
def State.standAlone (s : State) : State :=
  if s.time.state = 0 && !s.time.hasOrigin && s.timePorts.isEmpty then s.becomeGrandmaster else s

/-- TIME_PACKET_SEND (R39, R269): a link-local TIME packet on an external port that is up. A device that has heard of no other
chooses itself first. -/
def execTimePacketSend (sl : SliceId) (p : PortId) (s : State) : Out :=
  let t := s.standAlone
  if (t.link sl (.port p)).st = linkUp then .next (t.enqueue sl (.port p) .own (timePacket t sl) none) else .next t

/-- TIME_PACKET (R39, R43, R269): the router takes the packet, and the device chooses its grandmaster and parent anew. -/
def execTimePacket (sl : SliceId) (p : PortId) (y : TimePkt) (s : State) : Out :=
  if (s.link sl (.port p)).st = linkUp then
    .next ((s.onLink sl (.port p) fun k => { k with timePkt := some y }).chooseParent)
  else .next s

/-- TIME_IN_PPS (R45): the pulse is the whole second TIME_IN_SECONDS; time steps with no job loaded, else slews. A device that has
yielded to a lower node follows it as an ordinary device (R46). Before a pulse for which TIME_IN_SECONDS has not been written
anew, the manual gives no second count; the model takes the entry as it stands (DESIGN CHOICE, log 143). -/
def execTimeInPps (s : State) : Out :=
  if s.time.tiEnable && !s.time.yielded then
    let t := s.time.tiSeconds * 1000000000 * 256
    if s.job.isNone then
      let tm := { s.time with now := t }
      .next { s with time := { tm with drip := dripAt tm } }
    else .next { s with time := { s.time with slewing := (t : Int) - s.time.now } }
  else .next s

/-- TIME_IN_LOCK (R39, R527): TIME_IN is locked, which may make this device the grandmaster. -/
def execTimeInLock (s : State) : Out :=
  .next ({ s with time := { s.time with tiLocked := true, held := s.time.held && s.time.state != 4 } }).chooseParent

/-- TIME_IN_LOSS (R47): the loss is recorded; a grandmaster keeps its last trim and stays grandmaster. A device that had yielded
(R46) is no claimant any more. -/
def execTimeInLoss (s : State) : Out :=
  let gm := s.time.state = 4
  let t := { s with time := { s.time with
    tiLocked := false, yielded := false, gmLocked := if gm then false else s.time.gmLocked, held := s.time.held || (gm && s.time.gmLocked) } }
  .next (if s.time.tiEnable then t.report 0 (mkReport 0x03 13 0) else t)

end Sys2Proof.Machine
end

