-- ==== Sys2Proof/Machine/LinkLayer.lean ====
section
/-! DEFINITION. The link layer (R255 to R264, R267): training, sending and receiving frames, replay, credits and the packet
stream. An event is presented once, as a frame that carries it or as a command of its own. -/

namespace Sys2Proof.Machine

/-! ### The packet stream (R265, R267, R272) -/

/-- The route word of a packet on an internal link (R272). -/
def routeWordBytes (r : Option Nat) : Bytes := leBytes 8 (r.getD 0)

/-- A packet as it stands in the stream of a link. On an internal link its route word comes first, and never as the last
word of a frame, where it could not be told from fill (DESIGN CHOICE, log 21). -/
def streamed (l : LinkId) (before : Nat) (x : Packet × Option Nat) : Bytes :=
  match l with
  | .port _ => packetBytes x.1
  | .link _ => (if before % 960 = 952 then zeros 8 else []) ++ routeWordBytes x.2 ++ packetBytes x.1

/-- The route word of a packet that came over an internal link: a packet for this node carries none. -/
def State.routeOf (s : State) (p : Packet) (w : Nat) : Option Nat :=
  if p.opcode ≠ opMCAST && p.dstNode == s.pkg.nodeId then none else some (bits w 6 0)

/-- Whole packets at the front of a received stream, each with its route word, and the bytes left over; with fuel. -/
def State.parseStream (s : State) (inner : Bool) : Nat → Bytes → List (Packet × Option Nat) × Bytes
  | 0, b => ([], b)
  | n + 1, b =>
    if b.isEmpty then ([], [])
    else if inner then
      if b.all (· == 0) then ([], [])
      else if b.length < 40 then ([], b)
      else
        let h := leNat (slice b 8 32)
        let len := 8 + roundUp (32 + bits h 140 128) 8
        if b.length < len then ([], b)
        else
          let p := headerOf h ((b.drop 40).take (bits h 140 128))
          let r := s.parseStream inner n (b.drop len)
          ((p, s.routeOf p (leNat (b.take 8))) :: r.1, r.2)
    else if b.getD 0 0 == 0 then s.parseStream inner n (b.drop 8)
    else if b.length < 32 then ([], b)
    else
      let h := leNat (b.take 32)
      let len := roundUp (32 + bits h 140 128) 8
      if b.length < len then ([], b)
      else
        let r := s.parseStream inner n (b.drop len)
        ((headerOf h ((b.drop 32).take (bits h 140 128)), none) :: r.1, r.2)

/-- The fields of a TIME packet's payload (R269). -/
def timePktOf (b : Bytes) : TimePkt :=
  let n := leNat (slice b 0 32)
  { gmNode := bits n 19 0, gmLocked := bit n 20, hops := bits n 31 24, dripOrigin := bits n 95 32, dripBeats := bits n 127 96 }

/-- A received packet goes to the ingress buffer of its network; a TIME packet is consumed at once, after the checks of a router and of a
destination (R263, R268, R269). -/
def State.ingress (s : State) (sl : Nat) (l : LinkId) (x : Packet × Option Nat) : State :=
  if x.1.opcode = opTIME then
    let t := s.onLink sl l fun k => { k with reqReturn := k.reqReturn + packetCredits x.1 }
    match l with
    | .port p =>
      if x.1.ttl = 0 ∨ 4096 < x.1.plen ∨ s.tableLive x.1.epoch = false then t.routerDiscard sl (.port p) x.1
      else if packetEcrc x.1 ≠ x.1.ecrc then t
      else (t.onLink sl l fun k => { k with timePkt := some (timePktOf x.1.payload) }).chooseParent
    | .link _ => t
  else s.onLink sl l fun k =>
    match netOf x.1.opcode with
    | .req => { k with ingressReq := k.ingressReq ++ [x] }
    | .rsp => { k with ingressRsp := k.ingressRsp ++ [x] }

/-! ### Sending (R257 to R264) -/

/-- The bytes of a frame that one of the four lanes of a port carries, in the order it sends them: word w of 8 bytes goes to lane
w mod 4 (R253). -/
def laneBytes (f : Bytes) (lane : Nat) : Bytes := ((List.range 32).map fun j => slice f (8 * (4 * j + lane)) 8).flatten

/-- The four symbols in which a lane sends a byte: bits [1:0] first, the lower bit of a pair the lower bit of its symbol (R253). -/
def byteSymbols (b : BitVec 8) : List (BitVec 2) :=
  [b.extractLsb' 0 2, b.extractLsb' 2 2, b.extractLsb' 4 2, b.extractLsb' 6 2]

/-- What the transceiver of a lane sends of a frame, without the parity of R260 and the markers between codewords (log 139). -/
def laneSymbols (f : Bytes) (lane : Nat) : List (BitVec 2) := ((laneBytes f lane).map byteSymbols).flatten

/-- Put a built frame on the wire; on an external port lane k carries `laneSymbols` of it. -/
def State.transmit (s : State) (sl : Nat) (l : LinkId) (b : Bytes × Link) : State :=
  (s.onLink sl l fun _ => b.2).emit (.frame sl l b.1)

/-- The control slot of an UP link's next frame, and the link without that symbol. The slot is filled at the transmission: a TIME symbol
carries the time of this frame's first bit and what the port has received by then, under the TSEQ it was given (R259). -/
def State.nextSymbol (s : State) (k : Link) : Bytes × Link :=
  match k.symbols with
  | [] => (symNone, k)
  | b :: rest =>
    (if b.getD 0 0 = 1#8 then timeSymbolBytes s { k with tseq := (b.getD 1 0).toNat } else b, { k with symbols := rest })

/-- The next frame of a link that is UP (R262): a frame to send again, a new DATA frame, or IDLE. -/
def State.sendUp (s : State) (sl : Nat) (l : LinkId) : State :=
  let (slot, k) := s.nextSymbol (s.link sl l)
  match k.resend with
  | f :: rest =>
    match k.kept.find? fun x => x.seq == f with
    | none => s.onLink sl l fun x => { x with resend := rest }
    | some y =>
      if 8 ≤ y.sends then s.goDown sl l linkDown 2
      else
        let k1 := { k with resend := rest, kept := k.kept.map fun x => if x.seq == f then { x with sends := x.sends + 1 } else x }
        s.transmit sl l (buildFrame k1 s.sec.rekeyFrames kindDATA f slot y.stream)
  | [] =>
    if k.txStream.isEmpty || decide (512 ≤ k.kept.length) then s.transmit sl l (buildFrame k s.sec.rekeyFrames kindIDLE 0 slot [])
    else
      let b := slice k.txStream 0 960
      let k1 := { k with txStream := k.txStream.drop 960, kept := k.kept ++ [{ seq := k.txSeq, stream := b }], txSeq := (k.txSeq + 1) % 4096 }
      s.transmit sl l (buildFrame k1 s.sec.rekeyFrames kindDATA k.txSeq slot b)

/-- The next frame of a port in AUTH: the next part of its message, or none (R415). The last part of its FINISH may bring it
UP. -/
def State.sendAuth (s : State) (sl : Nat) (l : LinkId) : State :=
  let k := s.link sl l
  let x := k.sess
  let parts := ceilDiv x.txMsg.length 30
  if x.txPart < parts then
    let t := s.transmit sl l (buildFrame { k with sess := { x with txPart := x.txPart + 1 } } s.sec.rekeyFrames kindIDLE 0
      (symSession x.txPart (slice x.txMsg (30 * x.txPart) 30)) [])
    if x.txPart + 1 = parts && x.txMsg.getD 0 0 == 2#8 then
      let u := t.onLink sl l fun y => { y with sess := { y.sess with finishSent := true } }
      match l with
      | .port p => u.tryAuthUp sl p
      | .link _ => u
    else if x.txPart + 1 = parts && !x.finish.isEmpty then
      t.onLink sl l fun y => { y with sess := { y.sess with txMsg := x.finish, txPart := 0, finish := [] } }
    else t
  else s.transmit sl l (buildFrame k s.sec.rekeyFrames kindIDLE 0 symNone [])

/-- LINK_FRAME_SEND (R257, R259, R262): the next frame of a link in TRAIN, AUTH or UP. -/
def execLinkFrameSend (sl : SliceId) (l : LinkId) (s : State) : Out :=
  let k := s.link sl l
  if k.st = linkUp then .next (s.sendUp sl l)
  else if k.st = linkAuth then .next (s.sendAuth sl l)
  else if k.st = linkTrain then
    .next (s.transmit sl l (buildFrame k s.sec.rekeyFrames kindTRAIN 0 (3#8 :: slice (Config.trainSymbol k.laneMap) 0 31) []))
  else .next s

/-- The claimant among those of local injection that a packet of the slice's own comes from, by its position: E0 to E3 at 0 to 3, the
collective engine, the load pipeline, and management, which answers too (Table 02-6; DEDUCED, log 126). The blocks of an injection come
from the engine whose PACK phase owns it (R100). -/
def SliceState.localClaim (x : SliceState) (p : Packet) : Nat :=
  match x.fabric.outMsgs.find? fun m => m.is (Packet.dst p) (Packet.group p) && m.msgId == p.msgId && netOf p.opcode == .req with
  | none => 6
  | some m =>
    match m.issuer with
    | .thread e _ _ _ _ _ => min e 3
    | .halted u => match u.entry.unit with | .engine e => e.val | _ => 3
    | .inject run frame =>
      match x.runs.find? fun u => u.idx == run && u.frame == frame with
      | none => 3
      | some u =>
        (x.runs.filterMap fun v => match v.entry.unit with
          | .engine e =>
            if v.frame == frame && (v.entry.f.injection == u.entry.f.injection || v.entry.f.owns.contains u.entry.f.injection) then some e.val
            else none
          | _ => none).foldl min 3
    | .coll _ _ _ => 4
    | .load _ => 5
    | .prefetch _ _ _ => 3
    | .none => 6

/-- The claimant of Table 02-6 that a queued packet belongs to, in priority order: ports, internal links, local injection. -/
def SliceState.claimant (x : SliceState) (q : Queued) : Nat :=
  match q.origin with
  | .port p => p.val
  | .link k => 8 + k.val
  | .own => 16 + x.localClaim q.pkt

/-- Each claimant's first packet: a claimant's own stream is granted in order (R48). -/
def SliceState.claims (x : SliceState) (qs : List Queued) : List (Nat × Queued) :=
  qs.foldl (fun a q =>
    let c := (if q.pkt.sched then 0 else 100) + x.claimant q
    if a.any fun k => k.1 % 100 == c % 100 then a else a ++ [(c, q)]) []

/-- The packet that an egress starts next in a network: of the claims whose packets have credits, the first in the order of Table 02-6,
those of scheduled work before the others (R48, R263, R264, R281). -/
def SliceState.nextEgress (x : SliceState) (qs : List Queued) (credits : Nat) : Option Queued :=
  (((x.claims qs).filter fun k => decide (packetCredits k.2.pkt ≤ credits)).foldl
    (fun (b : Option (Nat × Queued)) k => match b with
      | none => some k
      | some c => if k.1 < c.1 then some k else b) none).map (·.2)

/-- A packet starts on a link: its credits are spent, and it joins the stream (R263). -/
def Link.startPacket (l : LinkId) (k : Link) (n : Net) (x : Queued) : Link :=
  let k1 := { k with txStream := k.txStream ++ streamed l k.txStream.length (x.pkt, x.route) }
  match n with
  | .req => { k1 with egressReq := k.egressReq.erase x, reqCredits := k.reqCredits - packetCredits x.pkt }
  | .rsp => { k1 with egressRsp := k.egressRsp.erase x, rspCredits := k.rspCredits - packetCredits x.pkt }

/-- A packet starts on an egress, and what it held of its ingress buffer is free (R263). -/
def State.startEgress (s : State) (sl : Nat) (l : LinkId) (n : Net) (x : Queued) : State :=
  (s.onLink sl l fun y => Link.startPacket l y n x).freeHold sl x.origin x.hold x.pkt

/-- EGRESS_PACKET_START (R263, R264): a ready RSP packet with credits goes first; a REQ packet only when there is none. -/
def execEgressPacketStart (sl : SliceId) (l : LinkId) (n : Net) (s : State) : Out :=
  let k := s.link sl l
  if k.st ≠ linkUp then .next s
  else
    match n, (s.sl sl).nextEgress k.egressRsp k.rspCredits with
    | .rsp, some x => .next (s.startEgress sl l .rsp x)
    | .rsp, none => .next s
    | .req, some _ => .next s
    | .req, none =>
      match (s.sl sl).nextEgress k.egressReq k.reqCredits with
      | some x => .next (s.startEgress sl l .req x)
      | none => .next s

/-! ### Receiving (R259 to R262, R418 to R420) -/

/-- A frame that fails its CRC still counts; the gap is reported by one NAK (R262, R419). -/
def Link.badFrame (k : Link) : Link :=
  { k with
    nakOwed := k.nakOwed || !k.nakSent, nakSent := true
    sess := { k.sess with rxCount := k.sess.rxCount + 1, rxBad := k.sess.rxBad + 1, sinceRekey := k.sess.sinceRekey + 1 }.eraseOld }

/-- Whether a tag is right under a key and a count. -/
def Session.tagOk (x : Session) (key : Bytes) (count : Nat) (f : Bytes) : Bool :=
  let iv := linkIv x.rxSalt count
  let want := if x.encrypt then Config.gcmTag key iv (f.take 44) (slice f 44 960) else Config.gcmTag key iv (f.take 1004) []
  slice want 0 16 == slice f 1004 16

/-- A frame is judged under the key its KEY_PHASE names (R420): the key and count that fit, and the session after it; none
where the tag fails. Frames lost to a bad CRC just before the first frame of a new key may have been under it already. -/
def Session.judge (x : Session) (f : Bytes) : Option (Bytes × Nat × Session) :=
  let phase := (leNat (slice f 0 2)).testBit 15
  if phase = x.rxPhase then
    if x.tagOk x.rxKey x.rxCount f then
      some (x.rxKey, x.rxCount,
        ({ x with rxCount := x.rxCount + 1, rxBad := 0, sinceRekey := x.sinceRekey + 1 }).eraseOld)
    else none
  else
    match x.rxOld with
    | some (k, c) =>
      if x.tagOk k c f then some (k, c, { x with rxOld := some (k, c + 1), rxBad := 0, sinceRekey := x.sinceRekey + 1 }.eraseOld) else none
    | none =>
      let k := nextKey x.rxGen x.rxSalt
      match (List.range (x.rxBad + 1)).find? fun c => x.tagOk k c f with
      | some c =>
        some (k, c, { x with
          rxOld := some (x.rxKey, x.rxCount), rxKey := k, rxGen := nextGen x.rxGen, rxCount := c + 1, rxPhase := phase,
          rxBad := 0, sinceRekey := 0 })
      | none => none

/-- Acknowledgement, NAK and credits of a header (R262, R263). -/
def Link.takeHeader (k : Link) (h : Nat) : Link :=
  let a := bits h 27 16
  let kept := if k.kept.any fun x => x.seq == a then ((k.kept.dropWhile fun x => x.seq != a).drop 1) else k.kept
  let k1 := { k with
    kept := kept, resend := k.resend.filter fun f => kept.any fun x => x.seq == f
    reqCredits := k.reqCredits + bits h 39 28, rspCredits := k.rspCredits + bits h 51 40 }
  if bit h 14 && !kept.isEmpty then { k1 with resend := kept.map (·.seq), replays := k1.replays + 1 } else k1

/-- A DATA frame in order is taken, any other is discarded, and the first discard asks for a replay (R262). -/
def State.takeData (s : State) (sl : Nat) (l : LinkId) (fseq : Nat) (stream : Bytes) : State :=
  let k := s.link sl l
  if fseq = (k.rxSeq + 1) % 4096 then
    let b := k.rxStream ++ stream
    let inner := match l with | .port _ => false | .link _ => true
    let (ps, rest) := s.parseStream inner (b.length + 1) b
    ps.foldl (fun v x => v.ingress sl l x) (s.onLink sl l fun y => { y with rxSeq := fseq, nakSent := false, rxStream := rest })
  else s.onLink sl l fun y => { y with nakOwed := y.nakOwed || !y.nakSent, nakSent := true }

/-- A DOWN symbol takes a link that is UP, or a port in AUTH, DOWN (R256). -/
def State.peerDown (s : State) (sl : Nat) (l : LinkId) : State :=
  let k := s.link sl l
  if k.st = linkUp ∨ k.st = linkAuth then s.goDown sl l linkDown 0 else s

/-- A TIME symbol as received on a port (Table 10-4, R38). -/
def timeSymOf (s : State) (sl p : Nat) (w : Nat) : TimeSym :=
  { t1 := bits w 79 16, echoT1 := bits w 143 80, echoRx := bits w 207 144, gmErr := bits w 239 208,
    rx := s.time.now - Config.phyLatency (8 * sl + p) }

/-- The control slot of a good frame (R259): TIME is used only in UP, SESSION only in AUTH; a reserved symbol is ignored. -/
def State.takeSlot (s : State) (sl : Nat) (l : LinkId) (slot : Bytes) : State :=
  let w := leNat slot
  match bits w 7 0, l with
  | 1, .port p => s.takeTimeSymbol sl p (timeSymOf s sl p w)
  | 2, _ => s.peerDown sl l
  | 4, .port p => if (s.link sl l).st = linkAuth then s.takeSession sl p (bits w 15 8) (slot.drop 2) else s
  | _, _ => s

/-- A frame that passed its CRC: in UP its tag, header and stream, and in every state its control slot (R261). -/
def State.goodFrame (s : State) (sl : Nat) (l : LinkId) (f : Bytes) : State :=
  let k := s.link sl l
  let slot := slice f 12 32
  if k.st ≠ linkUp then s.takeSlot sl l slot
  else
    let h := leNat (slice f 0 12)
    let judged : Option (Bytes × Session) :=
      if k.sess.rxKey = [] then some (slice f 44 960, k.sess)
      else match k.sess.judge f with
        | none => none
        | some (key, c, x) =>
          some (if k.sess.encrypt then Config.gcmXor key (linkIv k.sess.rxSalt c) (slice f 44 960) else slice f 44 960, x)
    match judged with
    | none => s.goDown sl l linkDown 4
    | some (stream, x) =>
      let t := s.onLink sl l fun y => ({ y with sess := x }).takeHeader h
      let u := if bits h 13 12 = kindDATA then t.takeData sl l (bits h 11 0) stream else t
      u.takeSlot sl l slot

/-- An uncorrectable codeword, judged once: counted and recorded; more than 64 in 1 ms take the port DOWN (R256, R260). -/
def State.fecFail (s : State) (sl : Nat) (l : LinkId) : State :=
  let t := s.onLink sl l fun k =>
    { k with fecUncorrectable := k.fecUncorrectable + 1, fecTimes := (k.fecTimes.filter fun x => decide (s.time.now < x + 256000000)) ++ [s.time.now] }
  let u := t.report sl { cls := 0x0C, unit := LinkId.unit l }
  if 64 < (u.link sl l).fecTimes.length && (u.link sl l).st = linkUp then u.goDown sl l linkDown 3 else u

/-- Corrected FEC symbols of a port at a TIME64 in 1/256 ns: those of the second under way, and the run of whole seconds with more than
10^6 (R470). -/
def Link.fecRate (l : Link) (now n : Nat) : Link :=
  let sec := now / 256000000000
  if sec = l.fecSecond then { l with fecCount := l.fecCount + n }
  else
    let hot := decide (1000000 < l.fecCount)
    { l with fecSecond := sec, fecCount := n, fecHot := if hot && sec == l.fecSecond + 1 then l.fecHot + 1 else 0 }

/-- What the FEC of a port found in a frame: counted, and whether the frame fails with it. An internal link carries no FEC (R260). -/
def State.fecOf (s : State) (sl : Nat) (l : LinkId) (corrected : Nat) (fec : Fec) : State × Bool :=
  match l with
  | .link _ => (s, false)
  | .port _ =>
    let t := s.onLink sl l fun y => ({ y with fecCorrected := y.fecCorrected + corrected } : Link).fecRate s.time.now corrected
    ((List.range fec.words).foldl (fun (v : State) _ => v.fecFail sl l) t, fec.bad)

/-- LINK_FRAME (R260, R261): FEC, then CRC, then tag, then what the frame holds. A frame with a byte in an
uncorrectable codeword fails as its CRC would. -/
def execLinkFrame (sl : SliceId) (l : LinkId) (f : Bytes) (corrected : Nat) (fec : Fec) (s : State) : Out :=
  let k := s.link sl l
  if k.st = linkDown ∨ k.st = linkDisabled then .next s
  else
    let (s2, bad) := s.fecOf sl l corrected fec
    if bad then .next (s2.onLink sl l fun y => if y.st = linkUp then y.badFrame else y)
    else if f.length ≠ 1024 ∨ crc32c (f.take 1020) ≠ leNat (slice f 1020 4) then
      .next (s2.onLink sl l fun y => if y.st = linkUp then y.badFrame else y)
    else .next (s2.goodFrame sl l f)

/-! ### Training and timers (R255, R256, R262) -/

/-- LINK_RETRAIN_ATTEMPT (R255): a link that is DOWN, and not held out of service (R472), starts to train. -/
def execLinkRetrainAttempt (sl : SliceId) (l : LinkId) (s : State) : Out :=
  let k := s.link sl l
  if k.st = linkDown && !k.heldOut && !k.disabled && (s.sl sl).present then .next (s.onLink sl l fun y => { y with st := linkTrain }) else .next s

/-- LINK_TRAIN_COMPLETE (R255): to AUTH, or to UP for an internal link. -/
def execLinkTrainComplete (sl : SliceId) (l : LinkId) (s : State) : Out :=
  if (s.link sl l).st = linkTrain then
    match l with
    | .port p => .next (s.beginAuth sl p)
    | .link _ => .next (s.goUp sl l)
  else .next s

/-- LINK_TRAIN_TIMEOUT (R255): training fails, to DOWN; the failure is recorded (Table 19-8). -/
def execLinkTrainTimeout (sl : SliceId) (l : LinkId) (s : State) : Out :=
  if (s.link sl l).st = linkTrain then
    .next ((s.goDown sl l linkDown 0).report sl { cls := 0x0D, unit := LinkId.unit l })
  else .next s

/-- FRAME_SILENCE_TIMEOUT (R256): no good frame for 2 µs. -/
def execFrameSilenceTimeout (sl : SliceId) (l : LinkId) (s : State) : Out :=
  if (s.link sl l).st = linkUp then .next (s.goDown sl l linkDown 0) else .next s

/-- REPLAY_TIMEOUT (R262): the kept frames go again from the oldest. -/
def execReplayTimeout (sl : SliceId) (l : LinkId) (s : State) : Out :=
  .next (s.onLink sl l fun k =>
    if k.st = linkUp && !k.kept.isEmpty then { k with resend := k.kept.map (·.seq), replays := k.replays + 1 } else k)

/-- DOWN_SYMBOL (R256): the peer takes the link DOWN. -/
def execDownSymbol (sl : SliceId) (l : LinkId) (_reason : Nat) (s : State) : Out := .next (s.peerDown sl l)

end Sys2Proof.Machine
end

