-- ==== Sys2Proof/Machine/Spares.lean ====
section
/-! DEFINITION. Failing units and their spares (R85, R470 to R476), and the error rings (R482 to R486). -/

namespace Sys2Proof.Machine

/-! ### Failures (R15, R85, R472) -/

/-- Whether a stage runs on a logical unit of a slice; kind 0 is the whole slice. -/
def onUnit (u : UnitRef) (n : UnitName) : Bool :=
  u.kind == 0 || match n with
  | .quad q => (u.kind == 1 && u.index / 8 == q.val) || (u.kind == 2 && u.index == q.val)
  | .engine e => u.kind == 3 && u.index == e.val
  | .collective => u.kind == 4
  | .port p => u.kind == 7 && u.index / 8 == p.val
  | .link k => u.kind == 8 && u.index == k.val
  | .sump => u.kind == 9
  | .sequencer => u.kind == 10

/-- The stages live on a logical unit. -/
def SliceState.liveOn (x : SliceState) (u : UnitRef) : List Run :=
  x.runs.filter fun r => r.st == .launched && onUnit u r.entry.unit

/-- A failed engine runs nothing: its threads stop and its units are free (R85). -/
def SliceState.stopEngine (x : SliceState) (e : Nat) : SliceState :=
  ((List.range 64).foldl (fun (y : SliceState) t => y.stopThread e t) x).onEngine e fun g =>
    { g with failed := true, running := none, busy := [], waits := [] }

/-- The requests of every stage live on a failed unit end with FAULT at the next drip, and those stages end (R85, R472). -/
def State.failLive (s : State) (sl : Nat) (u : UnitRef) : State :=
  let live := (s.sl sl).liveOn u
  let t := live.foldl (fun (v : State) r => v.faultStage sl r .fault) s
  t.onSl sl fun x => live.foldl (fun (y : SliceState) r => y.endRun r .withdrawn) x

/-- Requests that a slice whose routing is lost can serve no more: those with a valid row in a layer it routes, which a request of
any pass has until it ends (R353), and those of any slice of this device with a choice placed in it that was not dropped (R77, R85). -/
def State.endSliceWork (s : State) (sl : Nat) : State :=
  let t := if (s.img sl).layers.isEmpty then s
    else s.endNext sl (fun r => !r.ended) .fault
  t.eachSlice fun v i =>
    v.endNext i (fun r => (s.sl i).routing.choices.any fun c =>
      c.node == s.pkg.nodeId && c.slice == sl && c.kept != some none && decide (r.firstRow ≤ c.row) && decide (c.row < r.firstRow + r.rows) &&
      (s.sl i).snapOf c.layer r.frame) .fault

/-- The changes that wait for a spare of a unit's kind at the same place: those have it first (R471, R473). -/
def Spares.reserved (p : Spares) (u : UnitRef) : Nat :=
  (p.waiting.filter fun w => w.1.kind == u.kind && w.1 != u && w.2.isNone &&
    match u.kind with
    | 1 => w.1.index / 8 == u.index / 8
    | 3 => true
    | 4 => w.1.index != 0xFFF
    | 7 => isLaneChange w
    | _ => false).length

/-- A routing engine fails (R85). -/
def State.failEngine (s : State) (sl e : Nat) : State :=
  let u : UnitRef := { kind := 3, index := e }
  let t := ((s.failLive sl u).onSl sl fun x => x.stopEngine e).onSpares sl fun p => p.withdraw u
  -- a spare that another failed engine is to have at the next frame start is not free
  let free := s.engineSpareFree sl && (s.sl sl).spares.reserved u == 0
  let t1 := if free || s.job.isNone then t
    else (t.endSliceWork sl).onSpares sl fun p => { p with routeless := true }
  t1.mapDue sl u

/-- A lane of a port is remapped to a free spare; with none the port is held out of service (R254, R472, R474). -/
def State.remapLane (s : State) (sl p lane : Nat) : State :=
  let put (k : Nat) : State :=
    let old := ((s.sl sl).ports.getD p {}).laneMap
    let t := (s.onSl sl fun x => { x with
      ports := x.ports.modify p fun l => { l with laneMap := old - field (bits old (4 * lane + 3) (4 * lane)) 4 (4 * lane) + field (4 + k) 4 (4 * lane) }
      spares := { x.spares with sp := x.spares.sp.set k (some (p, lane)) } })
    let v := t.mapChanged sl { kind := 7, index := 8 * p + 4 + k }
    v.storeRecord 0x4012 (p + 1) sl (leBytes 2 ((v.sl sl).ports.getD p {}).laneMap)
  if s.laneSpareFree sl 0 then put 0
  else if s.laneSpareFree sl 1 then put 1
  else ((s.onLink sl (.port (Fin.ofNat 8 p)) fun l => { l with heldOut := true }).goDown sl (.port (Fin.ofNat 8 p)) linkDown 0).mapDue sl
    { kind := 7, index := 8 * p + 7 }

/-- A port that has begun to train, or is past that: a remap takes effect only when it trains again (R254). -/
def Link.active (l : Link) : Bool := l.st == linkTrain || l.st == linkAuth || l.st == linkUp

/-- The lane a transceiver of a port serves. -/
def Link.laneOf (l : Link) (t : Nat) : Option Nat := (List.range 4).find? fun k => bits l.laneMap (4 * k + 3) (4 * k) == t

/-- A transceiver fails outright: its port goes DOWN in any case, and the lane is remapped (R474). -/
def State.failLane (s : State) (sl p t : Nat) : State :=
  let k := (s.sl sl).ports.getD p {}
  let s1 := if 4 ≤ t then s.onSpares sl fun x => { x with bad := x.bad ++ [{ kind := 7, index := t }] } else s
  match k.laneOf t with
  | none => s1
  | some lane =>
    let l : LinkId := .port (Fin.ofNat 8 p)
    let s2 := if k.active then s1.goDown sl l linkDown 5 else s1
    s2.remapLane sl p lane

/-- A residue mismatch: the sum being formed is wrong, so the step that forms it carries FAULT (R342, R470). Which of the live steps
that is the command does not say: a free value picks it (DESIGN CHOICE, log 156). -/
def State.wrongSum (s : State) (sl : Nat) : State :=
  let n := ((s.sl sl).coll.steps.filter fun c => !c.completed).length
  if n = 0 then s
  else
    let k := s.takeFree
    let pick := k.1.toNat % n
    k.2.onSl sl fun x =>
      let mark (y : Nat × List CollStep) (c : CollStep) : Nat × List CollStep :=
        if c.completed then (y.1, y.2 ++ [c])
        else (y.1 + 1, y.2 ++ [if y.1 = pick then { c with status := if c.status = 0 then 0x1A else min c.status 0x1A } else c])
      { x with coll := { x.coll with steps := (x.coll.steps.foldl mark (0, [])).2 } }

/-- A physical unit of a slice fails in service (R472): a spare takes its place if one is free, else it is OUT. A unit of a
kind without spares is withdrawn until the job is reloaded. -/
def State.failUnit (s : State) (sl : Nat) (u : UnitRef) : State :=
  let p := (s.sl sl).spares
  match p.logical u with
  | none =>
    s.onSpares sl fun x => if x.bad.contains u then x else { x with bad := x.bad ++ [u] }
  | some l =>
    let spareUsed := (u.kind = 1 && u.index % 8 = 4) || (u.kind = 3 && u.index = 4) || (u.kind = 6 && u.index % 65 = 64)
    let s0 := if spareUsed then s.onSpares sl fun x => { x with bad := x.bad ++ [u] } else s
    match l.kind with
    | 1 =>
      let t := ((s0.failLive sl l).onSl sl fun x => x.onQuad (l.index / 8) fun k => { k with st := .idle, loops := [] }).onSpares sl
        fun x => x.withdraw l
      t.mapDue sl l
    | 3 => s0.failEngine sl l.index
    | 4 =>
      -- the whole engine, or an adder lane without a free one: the engine is OUT
      if l.index = 0xFFF || decide (s.adderSparesFree sl ≤ p.reserved l) then
        let out : UnitRef := { kind := 4, index := 0xFFF }
        let t := if l.index = 0xFFF then s0 else s0.wrongSum sl
        ((t.failLive sl out).onSpares sl fun x => x.withdraw out).mapDue sl l
      else (s0.wrongSum sl).mapDue sl l
    | 6 =>
      if s.pchSpareFree sl (l.index / 65) && !(p.migrating.any fun m => m.1 == l.index / 65 && m.2.2.isNone) then
        s0.onSpares sl fun x => { x with migrating := x.migrating ++ [(l.index / 65, l.index % 65, none)] }
      else s0.mapDue sl l
    | 7 =>
      if l.index % 8 = 7 then s0.goDown sl (.port (Fin.ofNat 8 (l.index / 8))) linkDown 0
      else s0.failLane sl (l.index / 8) (l.index % 8)
    | 8 => s0.goDown sl (.link (Fin.ofNat 8 l.index)) linkDown 0
    | 9 => ((s0.failLive sl l).onSpares sl fun x => x.withdraw { kind := 9, index := 0 }).mapDue sl l
    | 0 =>
      -- R15: the whole slice; what runs on it stops
      let t := (s0.failLive sl l).onSl sl fun x =>
        { (List.range 4).foldl (fun (y : SliceState) e => y.stopEngine e) x with
          quads := x.quads.map fun q => { q with st := .idle, loops := [] } }
      (t.onSpares sl fun x => x.withdraw l).report sl { cls := 0x15, unit := u }
    | _ =>
      let t := (s0.failLive sl l).onSpares sl fun x => x.withdraw l
      t.report sl { cls := 0x15, unit := u }

/-- ROUTING_ENGINE_FAIL (R85): a routing engine fails in service. -/
def execRoutingEngineFail (sl : SliceId) (e : EngineId) (s : State) : Out := .next (s.failEngine sl e)

/-- UNIT_FAIL (R472): a physical unit fails in service. -/
def execUnitFail (sl : SliceId) (u : UnitRef) (s : State) : Out := .next (s.failUnit sl u)

/-! ### Margins and migration (R471, R474, R475) -/

/-- Whether a unit that a margin decision names has a free spare, beside those that changes already waiting are to have. -/
def State.marginSpare (s : State) (sl : Nat) (u : UnitRef) : Bool :=
  let n := (s.sl sl).spares.reserved u
  match u.kind with
  | 1 => s.arraySpareFree sl (u.index / 8) && n == 0
  | 3 => s.engineSpareFree sl && n == 0
  | 7 => decide (n < b2n (s.laneSpareFree sl 0) + b2n (s.laneSpareFree sl 1))
  | _ => false

/-- A margin decision (R471, R474): the spare is taken, or a record is written and the unit stays in service. -/
def State.marginDecision (s : State) (sl : Nat) (u : UnitRef) : State :=
  match (s.sl sl).spares.logical u with
  | none => s
  | some l =>
    if !s.marginSpare sl l then s.report sl { cls := 0x15, unit := u }
    else if l.kind = 7 then
      let k := (s.sl sl).ports.getD (l.index / 8) {}
      match k.laneOf (l.index % 8) with
      | none => s
      | some lane =>
        if k.st = linkUp && s.job.isSome && s.still.on then
          (if (s.sl sl).spares.waiting.contains (l, none) then s
           else s.onSpares sl fun p => { p with waiting := p.waiting ++ [(l, none)] })
        else
          let t := if k.active then s.goDown sl (.port (Fin.ofNat 8 (l.index / 8))) linkDown 5 else s
          t.remapLane sl (l.index / 8) lane
    else s.mapDue sl l

/-- A port whose lanes have had more than 10^6 corrected symbols in each of 10 seconds: a lane of it is to have a spare (R470). The
counts are of the port; a free value tells which of its lanes (DESIGN CHOICE, log 156). -/
def State.judgeFec (s : State) (sl p : Nat) : State :=
  let l := (s.sl sl).ports.getD p {}
  if l.fecCount = 0 ∧ l.fecHot = 0 then s
  else
    let m := l.fecRate s.time.now 0
    if m.fecHot < 10 then s.onLink sl (.port (Fin.ofNat 8 p)) fun _ => m
    else
      let k := s.takeFree
      let lane := k.1.toNat % 4
      (k.2.onLink sl (.port (Fin.ofNat 8 p)) fun _ => { m with fecHot := 0 }).marginDecision sl
        { kind := 7, index := 8 * p + bits l.laneMap (4 * lane + 3) (4 * lane) }

/-- MARGIN_SENSOR_READ (R471): three readings in a row beyond the threshold, one of them not provisional, decide. -/
def execMarginSensorRead (sl : SliceId) (u : UnitRef) (below provisional : Bool) (s : State) : Out :=
  let ms := (s.sl sl).spares.margins
  let old := ms.find? fun m => m.1 == u
  let rest := ms.filter fun m => m.1 != u
  let n := (match old with | some m => m.2.1 | none => 0) + 1
  let firm := (match old with | some m => m.2.2 | none => false) || !provisional
  let keep (l : List (UnitRef × Nat × Bool)) : State := s.onSpares sl fun p => { p with margins := l }
  if !below then .next (keep rest)
  else if 3 ≤ n && firm then .next ((keep rest).marginDecision sl u)
  else .next (keep (rest ++ [(u, n, firm)]))

/-- SPARE_MIGRATION (R475): the first copy under way on a stack completes, and the spare takes over under R473. -/
def execSpareMigration (sl : SliceId) (stack : Fin 4) (s : State) : Out :=
  match (s.sl sl).spares.migrating.find? fun m => m.1 == stack.val with
  | none => .next s
  | some m =>
    let t := s.onSpares sl fun p => { p with migrating := p.migrating.erase m }
    .next (t.mapDue sl { kind := 6, index := 65 * m.1 + m.2.1 } m.2.2)

/-- A pseudo-channel is to be replaced for its ECC counts (R470): a copy begins if its stack's spare is free; without one the
pseudo-channel stays in service and a record is written. -/
def State.retirePch (s : State) (sl stack pc : Nat) : State :=
  let p := (s.sl sl).spares
  if p.migrating.any fun m => m.1 == stack && m.2.2.isNone then s
  else if p.pch.getD stack 127 = pc then s
  else if s.pchSpareFree sl stack then s.onSpares sl fun x => { x with migrating := x.migrating ++ [(stack, pc, none)] }
  else s.report sl { cls := 0x15, unit := { kind := 6, index := 65 * stack + pc } }

/-- A row is to be replaced (R470): a copy to a spare row begins, and a third row of its pseudo-channel asks for the spare
pseudo-channel. -/
def State.retireRow (s : State) (sl stack pc row : Nat) : State :=
  let p := (s.sl sl).spares
  if p.retired.contains (stack, pc, row) || p.migrating.contains (stack, pc, some row) then s
  else
    let n := (p.retired.filter fun r => r.1 == stack && r.2.1 == pc).length +
      (p.migrating.filter fun m => m.1 == stack && m.2.1 == pc && m.2.2.isSome).length
    -- a third row triggers the spare pseudo-channel; where that one is not free, one of the 32 spare rows
    if 2 ≤ n && s.pchSpareFree sl stack && !(p.migrating.any fun m => m.1 == stack && m.2.2.isNone) then s.retirePch sl stack pc
    else if p.migrating.contains (stack, pc, none) then s
    else if 32 ≤ n then s.report sl { cls := 0x15, unit := { kind := 6, index := 65 * stack + pc } }
    else s.onSpares sl fun x => { x with migrating := x.migrating ++ [(stack, pc, some row)] }

/-! ### Error rings (R482 to R486) -/

/-- The 64 bytes of a record (Table 19-5). -/
def errBytes (sl : Nat) (e : ErrRecord) : Bytes :=
  leBytes 2 e.r.cls ++ leBytes 2 (field e.r.unit.index 12 0 + field e.r.unit.kind 4 12) ++
  [BitVec.ofNat 8 (sl % 8), BitVec.ofNat 8 e.r.status, BitVec.ofNat 8 e.r.ctx, BitVec.ofNat 8 (b2n e.early)] ++
  leBytes 4 e.count ++ leBytes 4 e.seq ++ leBytes 8 e.firstDrip.toNat ++ leBytes 8 e.lastDrip.toNat ++
  ((List.range 4).map fun i => leBytes 8 (e.r.detail.getD i 0)).flatten

/-- A closed record is written at ERR_TAIL, or dropped and counted where the ring is full (R486). -/
def Errors.close (e : Errors) (r : ErrRecord) : Errors :=
  if (e.tail + 1) % 1024 = e.head then { e with overflow := min (e.overflow + 1) 0xFFFFFFFF }
  else { e with ring := (e.ring.filter fun k => k.1 != e.tail) ++ [(e.tail, r)], tail := (e.tail + 1) % 1024 }

/-- Close the oldest open record. -/
def Errors.closeOldest (e : Errors) (early : Bool) : Errors :=
  match e.opened with
  | [] => e
  | r :: rest => ({ e with opened := rest }).close { r with early := early }

/-- The record unit accepts a report (R484, R485). -/
def Errors.accept (e : Errors) (now : Drip) (r : Report) : Errors :=
  let same (k : ErrRecord) : Bool := k.r.cls == r.cls && k.r.unit == r.unit
  let (seq, e1) : Nat × Errors :=
    match e.opened.find? same with
    | some k =>
      (k.seq, { e with opened := modifyFirst same (fun y => { y with count := min (y.count + 1) 0xFFFFFFFF, lastDrip := now }) e.opened })
    | none =>
      let e0 := if 16 ≤ e.opened.length then e.closeOldest true else e
      (e0.nextSeq, { e0 with
        opened := e0.opened ++ [{ r := r, seq := e0.nextSeq, firstDrip := now, lastDrip := now }]
        nextSeq := (e0.nextSeq + 1) % 2 ^ 32 })
  let rec1 : ErrRecord := { r := r, seq := seq, firstDrip := now, lastDrip := now }
  { e1 with
    reports := e1.reports + 1, last := some rec1
    first := match e1.first with | some f => some f | none => some rec1 }

/-- Change the error ring of a slice; a record written to it sets EVT_CAUSE.ERROR_RECORD (Table 20-8). -/
def State.onErr (s : State) (sl : Nat) (f : Errors → Errors) : State :=
  let t := s.onSl sl fun x => { x with err := f x.err }
  if (t.sl sl).err.tail = (s.sl sl).err.tail then t else t.cause 0

/-- UNIT of a report (Table 19-7). -/
def reportUnit (r : Report) : Nat := field r.unit.index 12 0 + field r.unit.kind 4 12

/-- The report that the record unit accepts next: of the lowest UNIT, the one that unit made first (R484, Table 02-6). -/
def Errors.nextReport (e : Errors) : Option Report :=
  match (e.queued.map reportUnit).min? with
  | some u => e.queued.find? fun r => reportUnit r == u
  | none => none

/-- One report is accepted. -/
def Errors.acceptNext (e : Errors) (now : Drip) : Errors :=
  match e.nextReport with
  | some r => ({ e with queued := e.queued.erase r }).accept now r
  | none => e

/-- Every report that waits is accepted. -/
def Errors.acceptAll (e : Errors) (now : Drip) : Errors := e.queued.foldl (fun x _ => x.acceptNext now) e

/-- ERROR_REPORT (R484): a unit holds this report, or makes it now, and the record unit accepts the next of those held. -/
def execErrorReport (sl : SliceId) (r : Report) (s : State) : Out :=
  .next (s.onErr sl fun e => (if e.queued.contains r then e else e.queue r).acceptNext s.now)

/-- ERROR_RECORD_CLOSE (R485, R486): the oldest open record is 1 ms old. -/
def execErrorRecordClose (sl : SliceId) (s : State) : Out := .next (s.onErr sl fun e => e.closeOldest false)

end Sys2Proof.Machine
end

