-- ==== Sys2Proof/Machine/Flags.lean ====
section
/-! DEFINITION. The predicates that instructions compute (Table 04-5). Arithmetic sets no flags (R93); presence flags are in
Ops.lean. -/

namespace Sys2Proof.Machine

/-- CMP: FN[3:1] names the condition; codes 6 and 7 are refused at load (R98). -/
def compare (c : Nat) (a b : Word) : Option Bool :=
  match c with
  | 0 => some (a == b)
  | 1 => some (a != b)
  | 2 => some (decide (a.toNat < b.toNat))
  | 3 => some (decide (b.toNat ≤ a.toNat))
  | 4 => some (decide (a.toInt < b.toInt))
  | 5 => some (decide (b.toInt ≤ a.toInt))
  | _ => none

/-- PLOG: FN[2:1] names the operation. -/
def predLogic (c : Nat) (a b : Bool) : Bool :=
  match c with
  | 0 => a && b
  | 1 => a || b
  | 2 => a != b
  | _ => a && !b

/-- LOGIC: FN[2:1] names the operation. -/
def wordLogic (c : Nat) (a b : Word) : Word :=
  match c with
  | 0 => a &&& b
  | 1 => a ||| b
  | 2 => a ^^^ b
  | _ => a &&& ~~~b

/-- SHIFT: FN[2:1] names the operation; the count is src2 modulo 64. Code 3 is refused at load (R98). -/
def wordShift (c : Nat) (a b : Word) : Option Word :=
  let n := b.toNat % 64
  match c with
  | 0 => some (a <<< n)
  | 1 => some (a >>> n)
  | 2 => some (a.sshiftRight n)
  | _ => none

end Sys2Proof.Machine
end

