-- ==== Sys2Proof/Machine/Threads.lean ====
section
/-! DEFINITION. The commands of routing-engine threads (chapter 04): one for each instruction of a route program, and the
engine's own acts. A command acts when its thread may issue and the word at its program counter is that instruction. -/

namespace Sys2Proof.Machine

/-! ### Issue (R91, R96, R109) -/

/-- The words of one row: opcode and function bits. -/
abbrev Form := Nat → Bool

def opIs (op : Nat) : Form := fun w => wOp w == op
/-- An opcode with FN[1], or with FN[2:1], at a value. -/
def opFn1 (op : Nat) (v : Bool) : Form := fun w => wOp w == op && bit (wFn w) 1 == v
def opFn2 (op v : Nat) : Form := fun w => wOp w == op && wFn2 w == v

/-- Issue one instruction of a thread: it takes the slot, the program counter passes the word, and where the guard holds the
body acts on the state with the thread as it was. A program counter outside the store faults (R91, R96, R109). -/
def State.issueThread (s : State) (sl e t : Nat) (form : Form) (body : State → Thread → Nat → State) : State :=
  let g := (s.sl sl).engine e
  let h := g.thread t
  if !g.mayIssue t || (g.running == some t && decide (64 ≤ h.issued)) then s
  else if h.pc > 32767 then s.threadFault sl e t faultPcBounds
  else
    let w := (s.sl sl).routeWord e h.pc
    if form w then
      let s1 := s.onSl sl fun x => x.onEngine e fun g => (g.take t).onThread t fun k => { k with pc := k.pc + 1 }
      if h.guardHolds w then body s1 h w else s1
    else s

/-- Write a register of a thread. -/
def State.putReg (s : State) (sl e t n : Nat) (v : Word) : State := s.onThread sl e t fun k => k.setReg n v
def State.putPred (s : State) (sl e t n : Nat) (v : Bool) : State := s.onThread sl e t fun k => k.setPred n v

/-- The thread leaves the slot for a wait state, or READY to give others their turn. -/
def State.blockThread (s : State) (sl e t : Nat) (st : ThreadPhase) : State :=
  s.onSl sl fun x => x.onEngine e fun g => g.block t st

/-! ### Plain instructions -/

/-- NOP (R97). -/
def execNop (sl : SliceId) (e : EngineId) (t : ThreadId) (s : State) : Out :=
  .next (s.issueThread sl e t (opIs 0x00) fun v _ _ => v)

/-- MOVI (R97): gD = sext(IMM), or IMM in the upper half with the low half kept. -/
def moviValue (w : Nat) (old : Word) : Word :=
  if bit (wFn w) 1 then BitVec.ofNat 64 (old.toNat % 2 ^ 32 + wImm w * 2 ^ 32) else sext32 (wImm w)

def execMovi (sl : SliceId) (e : EngineId) (t : ThreadId) (s : State) : Out :=
  .next (s.issueThread sl e t (opIs 0x01) fun v h w => v.putReg sl e t (wD w) (moviValue w (h.reg (wD w))))

/-- ADD (R97). -/
def execAdd (sl : SliceId) (e : EngineId) (t : ThreadId) (s : State) : Out :=
  .next (s.issueThread sl e t (opIs 0x02) fun v h w => v.putReg sl e t (wD w) (h.opA w + h.src2 w))

/-- SUB (R97). -/
def execSub (sl : SliceId) (e : EngineId) (t : ThreadId) (s : State) : Out :=
  .next (s.issueThread sl e t (opIs 0x03) fun v h w => v.putReg sl e t (wD w) (h.opA w - h.src2 w))

/-- MUL (R97): the low 64 bits. -/
def execMul (sl : SliceId) (e : EngineId) (t : ThreadId) (s : State) : Out :=
  .next (s.issueThread sl e t (opIs 0x04) fun v h w => v.putReg sl e t (wD w) (h.opA w * h.src2 w))

/-- LOGIC (R97). -/
def execLogic (sl : SliceId) (e : EngineId) (t : ThreadId) (s : State) : Out :=
  .next (s.issueThread sl e t (opIs 0x05) fun v h w => v.putReg sl e t (wD w) (wordLogic (wFn2 w) (h.opA w) (h.src2 w)))

/-- SHIFT (R97). -/
def execShift (sl : SliceId) (e : EngineId) (t : ThreadId) (s : State) : Out :=
  .next (s.issueThread sl e t (opIs 0x06) fun v h w =>
    match wordShift (wFn2 w) (h.opA w) (h.src2 w) with
    | some r => v.putReg sl e t (wD w) r
    | none => v)

/-- CMP (R97). -/
def execCmp (sl : SliceId) (e : EngineId) (t : ThreadId) (s : State) : Out :=
  .next (s.issueThread sl e t (opIs 0x07) fun v h w =>
    match compare (bits (wFn w) 3 1) (h.opA w) (h.src2 w) with
    | some r => v.putPred sl e t (wPd w) r
    | none => v)

/-- PLOG (R97). -/
def execPlog (sl : SliceId) (e : EngineId) (t : ThreadId) (s : State) : Out :=
  .next (s.issueThread sl e t (opIs 0x08) fun v h w =>
    v.putPred sl e t (wPd w) (predLogic (wFn2 w) (h.pred (wPa w)) (h.pred (wPb w))))

/-- The target of a branch: pc + sext(IMM). A target below 0 counts as one outside the program store. -/
def branchTarget (pc w : Nat) : Nat :=
  let d := (pc : Int) + sint32 (wImm w)
  if d < 0 then 32768 else d.toNat

/-- BR (R97). -/
def execBr (sl : SliceId) (e : EngineId) (t : ThreadId) (s : State) : Out :=
  .next (s.issueThread sl e t (opIs 0x09) fun v h w => v.onThread sl e t fun k => { k with pc := branchTarget h.pc w })

/-- HALT (R89): the thread is IDLE again, and its phase completes with its last thread. -/
def execHalt (sl : SliceId) (e : EngineId) (t : ThreadId) (s : State) : Out :=
  .next (s.issueThread sl e t (opIs 0x0A) fun v _ _ => v.onSl sl fun x => (x.haltThread e t).tryCompletePhase e t)

/-! ### Local memory (R94, R204) -/

/-- A read of a poisoned word ends the requests tied to the thread's stage with FAULT at the next drip (R204). -/
def State.engineRead (s : State) (sl e t a n : Nat) : State :=
  s.readFor sl ((s.sl sl).threadRun e t) [(engineAddr e a, n)]

/-- LD (R94, R97): zero-extended. -/
def State.doLd (s : State) (sl : SliceId) (e : EngineId) (t : ThreadId) : Out :=
  .next (s.issueThread sl e t (opIs 0x10) fun v h w =>
    let a := h.addr w
    let n := wWidth w
    if localRead a n then
      (v.engineRead sl e t a n).putReg sl e t (wD w) (BitVec.ofNat 64 ((v.sl sl).loadNat (engineAddr e a) n))
    else v.threadFault sl e t faultLocalBounds)

/-- ST (R94, R97): the low bytes of gB. -/
def execSt (sl : SliceId) (e : EngineId) (t : ThreadId) (s : State) : Out :=
  .next (s.issueThread sl e t (opIs 0x11) fun v h w =>
    let a := h.addr w
    let n := wWidth w
    if localWrite t a n then v.onSl sl fun x => x.store (engineAddr e a) (leBytes n (h.opB w).toNat)
    else v.threadFault sl e t faultLocalBounds)

/-! ### Remote access (R92, R102 to R104, R111, R314) -/

/-- Bytes of the staged copy of a prefetch set, if it holds all of a range (R104). -/
def SliceState.stagedBytes (x : SliceState) (set a n : Nat) : Option Bytes :=
  let ps := (x.tiers.staged.filter fun k => k.1 == set).map fun k => k.2.2
  let byte (i : Nat) : Option Byte := ps.flatten.findSome? fun p =>
    if p.1 ≤ i ∧ i < p.1 + p.2.length then p.2[i - p.1]? else none
  (List.range n).mapM fun i => byte (a + i)

/-- Whether a range lies inside a range of the thread's prefetch set (R104). -/
def State.inPrefetch (s : State) (sl set a n : Nat) : Bool :=
  set != 0 && (((s.img sl).prefetchSets.getD (set - 1) []).any fun r => decide (r.base ≤ a) && decide (a + n ≤ r.base + r.len))

/-- Send a remote access of a thread. A mark of FENCE MARK for the slice goes on this packet (R107). -/
def State.threadSend (s : State) (sl e t : Nat) (h : Thread) (a op : Nat) (payload : Bytes) (iss : Issuer) : State :=
  let pl := gaPlace a
  let marked := h.marks.contains pl
  let rid : Nat := ((s.sl sl).remote.reqIds.find? fun r => r.1 == pl).elim 1 fun r => r.2
  let withId := op == opFADD || op == opCAS
  let nextId : Nat := if rid = 0xFFFFFFFF then 1 else rid + 1
  let s1 := s.onSl sl fun x =>
    let y := x.onThread e t fun k => { k with marks := k.marks.filter (· != pl) }
    if withId then
      { y with remote := { y.remote with
          reqIds := (y.remote.reqIds.filter fun r => r.1 != pl) ++ [(pl, nextId)] } }
    else y
  s1.sendMsg sl {
    dst := pl, opcode := op, parts := [(gaOffset a, payload)], ctx := h.ctx, fence := marked,
    reqId := if withId then rid else 0, issuer := iss }

/-- A store of a thread: to a multicast address it goes as MCAST_WRITE, which may not carry FENCE (R274, R314). None for
UNIT_ARG. -/
def State.threadStore (s : State) (sl e t : Nat) (h : Thread) (a : Nat) (b : Bytes) (iss : Issuer) : Option State :=
  match gaGroup a with
  | none => some (s.threadSend sl e t h a opWRITE b iss)
  | some g =>
    if h.marks.contains (gaPlace a) then none
    else some (s.sendMsg sl {
      dst := { node := 0, slice := 0 }, group := some g, opcode := opMCAST, parts := [(gaOffset a, b)],
      ctx := h.ctx, issuer := iss })

/-- The thread enters WAIT_MEM with one more remote access outstanding (R92). -/
def State.waitRemote (s : State) (sl e t : Nat) : State :=
  (s.blockThread sl e t .waitMem).onThread sl e t fun k => { k with other := k.other + 1 }

/-- The thread enters WAIT_MEM for a staged copy (R92, R104). -/
def State.waitStaged (s : State) (sl e t : Nat) : State :=
  (s.blockThread sl e t .waitMem).onThread sl e t fun k => { k with staged := true }

/-- XLD (R92, R97, R102, R104, R111). A piece of its prefetch set that is not staged, whose READ did not come, reads 0: the manual
puts no value there (DESIGN CHOICE, log 136). A misaligned XLD faults with MISALIGN also where still water would stop it: the manual
gives no order of the two (DESIGN CHOICE, log 135). -/
def execXld (sl : SliceId) (e : EngineId) (t : ThreadId) (s : State) : Out :=
  .next (s.issueThread sl e t (opIs 0x12) fun v h w =>
    let a := h.addr w
    let n := wWidth w
    if a % n ≠ 0 then v.threadFault sl e t faultMisalign
    else if v.inPrefetch sl h.prefetchSet a n then
      let b := ((v.sl sl).stagedBytes h.prefetchSet a n).getD (zeros n)
      (v.waitStaged sl e t).putReg sl e t (wD w) (BitVec.ofNat 64 (leNat b))
    else if v.still.on then v.threadFault sl e t faultStillWater
    else (v.waitRemote sl e t).threadSend sl e t h a opREAD (leBytes 8 n) (.thread e t 0 (wD w) 0 n))

/-- XST (R92, R97, R102): with 16 outstanding the thread waits before it issues. -/
def execXst (sl : SliceId) (e : EngineId) (t : ThreadId) (s : State) : Out :=
  .next (s.issueThread sl e t (opIs 0x13) fun v h w =>
    let a := h.addr w
    let n := wWidth w
    if a % n ≠ 0 then v.threadFault sl e t faultMisalign
    else if 16 ≤ h.xst then
      (v.blockThread sl e t .waitMem).onThread sl e t fun k => { k with pc := h.pc, xstWait := true }
    else
      match v.threadStore sl e t h a (leBytes n (h.opB w).toNat) (.thread e t 1 0 0 n) with
      | some u => u.onThread sl e t fun k => { k with xst := k.xst + 1 }
      | none => v.threadFault sl e t faultUnitArg)

/-- XCOPY checks (R102): length, alignment of both ends, the local end. None where all hold. An XCOPY that breaks more than one
faults for the first in this order: the manual gives none (DESIGN CHOICE, log 135). -/
def copyFault (t : Nat) (h : Thread) (w : Nat) : Option Nat :=
  let n := (h.opB w).toNat
  let a := h.addr w
  let l := (h.reg (wD w)).toNat
  if n < 8 ∨ 4096 < n ∨ n % 8 ≠ 0 then some faultUnitArg
  else if a % 8 ≠ 0 ∨ l % 8 ≠ 0 then some faultMisalign
  else if !localWrite t l n then some faultLocalBounds
  else none

/-- XCOPY get (R102, R104, R111). Its own checks come before that of still water: the manual gives no order (DESIGN CHOICE, log
135). -/
def execXcopyGet (sl : SliceId) (e : EngineId) (t : ThreadId) (s : State) : Out :=
  .next (s.issueThread sl e t (opFn1 0x14 false) fun v h w =>
    match copyFault t h w with
    | some c => v.threadFault sl e t c
    | none =>
      let n := (h.opB w).toNat
      let a := h.addr w
      let l := (h.reg (wD w)).toNat
      if v.inPrefetch sl h.prefetchSet a n then
        (v.waitStaged sl e t).onSl sl fun x =>
          x.store (engineAddr e l) ((x.stagedBytes h.prefetchSet a n).getD (zeros n))
      else if v.still.on then v.threadFault sl e t faultStillWater
      else (v.waitRemote sl e t).threadSend sl e t h a opREAD (leBytes 8 n) (.thread e t 2 0 l n))

/-- XCOPY put (R102). -/
def State.doXcopyPut (s : State) (sl : SliceId) (e : EngineId) (t : ThreadId) : Out :=
  .next (s.issueThread sl e t (opFn1 0x14 true) fun v h w =>
    match copyFault t h w with
    | some c => v.threadFault sl e t c
    | none =>
      let n := (h.opB w).toNat
      let l := (h.reg (wD w)).toNat
      let b := (v.sl sl).load (engineAddr e l) n
      match ((v.engineRead sl e t l n).waitRemote sl e t).threadStore sl e t h (h.addr w) b (.thread e t 3 0 0 n) with
      | some u => u
      | none => v.threadFault sl e t faultUnitArg)

/-- XATOM FADD (R97, R102): the old value returns to gD. -/
def execXatomFadd (sl : SliceId) (e : EngineId) (t : ThreadId) (s : State) : Out :=
  .next (s.issueThread sl e t (opFn1 0x15 false) fun v h w =>
    let a := h.addr w
    if a % 4 ≠ 0 then v.threadFault sl e t faultMisalign
    else (v.waitRemote sl e t).threadSend sl e t h a opFADD (leBytes 4 (h.opB w).toNat ++ zeros 4) (.thread e t 4 (wD w) 0 8))

/-- XATOM CAS (R97, R102): COMPARE is gD, NEW is gB, the old value returns to gD. -/
def execXatomCas (sl : SliceId) (e : EngineId) (t : ThreadId) (s : State) : Out :=
  .next (s.issueThread sl e t (opFn1 0x15 true) fun v h w =>
    let a := h.addr w
    if a % 8 ≠ 0 then v.threadFault sl e t faultMisalign
    else (v.waitRemote sl e t).threadSend sl e t h a opCAS
      (leBytes 8 (h.reg (wD w)).toNat ++ leBytes 8 (h.opB w).toNat) (.thread e t 5 (wD w) 0 8))

/-! ### Unit starts (R99, R108) -/

/-- The ranges that a unit reads for a layer beside its descriptor (R204): SCORE the hidden rows and the placement table, TOPK the
placement table and its logit buffer, GRANT and ASSIGN their record buffers. -/
def State.unitReads (s : State) (sl e : Nat) (u : EngineUnit) (w d : Nat) (frame : Drip) : List (Nat × Nat) :=
  let x := s.sl sl
  match s.layer? sl (dLayer d) with
  | none => []
  | some li =>
    let look := wFn2 w == 2
    let ln := if look then (s.nextLayer sl li.layer).getD li else li
    let records (bufs : List RecordBuf) (entry : Nat) : List (Nat × Nat) :=
      bufs.map fun b => (b.addr, 16 + entry * perSlot d * (slotsAt x (x.passDesc frame d) (if entry = 2 then s.place sl else b.src)).length)
    match u with
    | .scoring => scoreReads li (x.passDesc frame d)
    | .topk =>
      let nd := x.passDesc frame (if look then ln.mainDesc else d)
      [(dPlacement nd, 32 * dExperts nd), (engineAddr e ln.logitLocal, (homeRows d e).length * dExperts nd * 4)]
    | .capacity => if bit (wFn w) 1 then records li.grantBufs 4 else records li.countBufs 2
    | _ => []

/-- A descriptor that is well formed and of a layer that the image does not have: its unit has nothing to work on, and by R4 the
requests tied to the stage end with FAULT and a record is written. -/
def State.strayDesc (s : State) (sl e : Nat) (run : Option Run) : State :=
  let t := s.report sl (mkReport 0x04 3 ((s.sl sl).physEngine e)
    (if (run.map (s.tied sl)).getD false then Status.fault.code else 0) ((run.map (·.entry.ctx)).getD 255))
  match run with
  | some u => t.faultStage sl u .fault
  | none => t

/-- What a unit does for a thread's instruction: the state it leaves, or none for UNIT_ARG. The words are those of SCORE,
TOPK, CAPACITY, SORT, PACK and DIGEST. Their "local gA" is gA itself: IMM is no part of it, as Table 04-5 adds it only where a row
writes it (DEDUCED, log 134). -/
def State.unitWork (s : State) (sl e t : Nat) (u : EngineUnit) (w : Nat) : Option State :=
  let h := s.thread sl e t
  let a := (h.opA w).toNat
  let d := leNat ((s.sl sl).load (engineAddr e a) 32)
  let run := (s.sl sl).threadRun e t
  let frame := run.elim s.frame (·.frame)
  let inLocal := decide (a + 32 ≤ 0x1000000)
  let routed := u == .scoring || u == .topk || u == .capacity || u == .sorter
  if routed && !(inLocal && descOk d) then none
  else if routed && (s.layer? sl (dLayer d)).isNone then
    some (if u = .sorter then (s.strayDesc sl e run).putReg sl e t (wD w) 0 else s.strayDesc sl e run)
  else
    let v := if routed then s.readFor sl run ((engineAddr e a, 32) :: s.unitReads sl e u w d frame) else s
    match u with
    | .scoring => some (v.scoreWork sl e d (bit (wFn w) 1) h.run frame)
    | .topk => some (match wFn2 w, run with
      | 0, some r => v.topkWork sl e (v.selectDesc sl d false) false r
      | 1, some r => v.topkWork sl e (v.selectDesc sl d true) true r
      | 2, _ => v.topkLook sl e d frame
      | _, _ => v)
    | .capacity => some (match run with
      | some r => if bit (wFn w) 1 then v.assignWork sl e d r else (v.grantWork sl e d r).settleMade sl
      | none => v)
    | .sorter =>
      let r := v.sortWork sl e d frame
      some ((r.2.settleMade sl).putReg sl e t (wD w) (BitVec.ofNat 64 r.1))
    | .pack =>
      match run with
      | none => some v
      | some u =>
        match v.packWork sl e a u (h.opB w).toNat (h.reg (wD w)).toNat (bit (wFn w) 1) with
        | some r => some (r.2.putReg sl e t (wD w) (BitVec.ofNat 64 r.1))
        | none => none
    | .digest =>
      let n := (h.opB w).toNat
      let l := (h.reg (wD w)).toNat
      some ((v.engineRead sl e t a n).onSl sl fun x => x.store (engineAddr e l) (digest64 (x.load (engineAddr e a) n)))
    | .combine => some v

/-- The unit is granted to a thread: it is in use until it completes. A bad descriptor faults the thread, and the unit stays
free (R99). Answers whether the unit is in use. -/
def State.grantUnit (s : State) (sl e t : Nat) (u : EngineUnit) (w : Nat) : Bool × State :=
  match s.unitWork sl e t u w with
  | some v => (true, v.onSl sl fun x => x.onEngine e fun g => { g with busy := g.busy ++ [(u, t)] })
  | none => (false, s.threadFault sl e t faultUnitArg)

/-- Start a unit: the thread waits in WAIT_UNIT, and the unit is granted at once where it is free (R99). -/
def State.startUnit (s : State) (sl e t : Nat) (u : EngineUnit) (w : Nat) : State :=
  let v := s.blockThread sl e t (.waitUnit u)
  if ((v.sl sl).engine e).busy.any fun b => b.1 == u then
    v.onSl sl fun x => x.onEngine e fun g => { g with waits := g.waits ++ [⟨u, t, BitVec.ofNat 64 w⟩] }
  else (v.grantUnit sl e t u w).2

/-- The waiting threads are granted in ascending thread number, until one holds the unit (R99). -/
def State.grantWaiters (s : State) (sl e : Nat) (u : EngineUnit) : Nat → State
  | 0 => s
  | n + 1 =>
    let ws := ((s.sl sl).engine e).waits.filter fun x => x.unit == u
    match ws with
    | [] => s
    | w0 :: rest =>
      let w := rest.foldl (fun b x => if x.thread < b.thread then x else b) w0
      let v := s.onSl sl fun x => x.onEngine e fun g => { g with waits := g.waits.eraseP (· == w) }
      let r := v.grantUnit sl e w.thread u w.word.toNat
      if r.1 then r.2 else r.2.grantWaiters sl e u n

/-- SCORE (R61). -/
def State.doScore (s : State) (sl : SliceId) (e : EngineId) (t : ThreadId) : Out :=
  .next (s.issueThread sl e t (opIs 0x18) fun v _ w => v.startUnit sl e t .scoring w)

/-- TOPK (R67). -/
def State.doTopk (s : State) (sl : SliceId) (e : EngineId) (t : ThreadId) : Out :=
  .next (s.issueThread sl e t (opIs 0x19) fun v _ w => v.startUnit sl e t .topk w)

/-- CAPACITY GRANT (R76). -/
def execCapacityGrant (sl : SliceId) (e : EngineId) (t : ThreadId) (s : State) : Out :=
  .next (s.issueThread sl e t (opFn1 0x1A false) fun v _ w => v.startUnit sl e t .capacity w)

/-- CAPACITY ASSIGN (R77). -/
def execCapacityAssign (sl : SliceId) (e : EngineId) (t : ThreadId) (s : State) : Out :=
  .next (s.issueThread sl e t (opFn1 0x1A true) fun v _ w => v.startUnit sl e t .capacity w)

/-- SORT (R80). -/
def execSort (sl : SliceId) (e : EngineId) (t : ThreadId) (s : State) : Out :=
  .next (s.issueThread sl e t (opIs 0x1B) fun v _ w => v.startUnit sl e t .sorter w)

/-- PACK (R122). -/
def State.doPack (s : State) (sl : SliceId) (e : EngineId) (t : ThreadId) : Out :=
  .next (s.issueThread sl e t (opIs 0x1C) fun v _ w => v.startUnit sl e t .pack w)

/-- DIGEST (R108): 0 to 4,194,304 bytes; the 64-byte result in the own window or the shared region. An end out of bounds faults with
LOCAL_BOUNDS, the code that Table 04-7 has for a local end of the other instructions (DEDUCED, log 137). -/
def State.doDigest (s : State) (sl : SliceId) (e : EngineId) (t : ThreadId) : Out :=
  .next (s.issueThread sl e t (opIs 0x2A) fun v h w =>
    let n := (h.opB w).toNat
    if 4194304 < n then v.threadFault sl e t faultUnitArg
    else if !localRead (h.opA w).toNat n || !localWrite t (h.reg (wD w)).toNat 64 then v.threadFault sl e t faultLocalBounds
    else v.startUnit sl e t .digest w)

/-! ### Blocks and flags (R100, R101) -/

/-- SEND (R100): the blocks wait in the queue of the injection; in MARKED mode they leave as the window allows. -/
def State.doSend (s : State) (sl : SliceId) (e : EngineId) (t : ThreadId) : Out :=
  .next (s.issueThread sl e t (opIs 0x1D) fun v h w =>
    let x := v.sl sl
    let off := bits (h.opA w).toNat 40 0
    match x.threadRun e t, x.exch.blocksAt off (h.opB w).toNat with
    | some u, some (pl, lens) =>
      if u.entry.f.injection ≠ wImm w ∧ u.entry.f.owns.contains (wImm w) = false then v.threadFault sl e t faultUnitArg
      else
        let qs : List QueuedMsg := (cutAt lens (x.load off (h.opB w).toNat)).zipIdx.map fun b =>
          { injection := wImm w, dst := pl, data := b.1, fence := b.2 == 0 && h.marks.contains pl }
        let v1 := (v.readFor sl (some u) [(off, (h.opB w).toNat)]).onThread sl e t fun k => { k with marks := k.marks.filter (· != pl) }
        let v2 := v1.onSl sl fun y => { y with exch := { y.exch with
          injections := y.exch.injections ++ qs, sent := y.exch.sent ++ qs.map (sentBlock u.frame) } }
        if v.pkg.congestionMode = 1 then
          match qs with
          | [] => v2
          | q :: _ => v2.injectMarked sl u (wImm w) (blockHeader (leNat (q.data.take 64)))
        else v2
    | _, _ => v.threadFault sl e t faultUnitArg)

/-- RECV (R101): the thread waits until the flag is set. -/
def execRecv (sl : SliceId) (e : EngineId) (t : ThreadId) (s : State) : Out :=
  .next (s.issueThread sl e t (opIs 0x1E) fun v _ w =>
    v.blockThread sl e t (if (v.sl sl).flags.contains (wImm w) then .ready else .waitFlag (wImm w)))

/-! ### Pools (R105, R239 to R245) -/

/-- The owner list of an ALLOC: that of local gB, or the allocating owner alone with g0; none where it breaks R243. -/
def State.ownerList (s : State) (sl e : Nat) (h : Thread) (w : Nat) : Option (List Nat) :=
  if wB w = 0 then some [h.owner]
  else
    let a := (h.opB w).toNat
    if a % 8 ≠ 0 ∨ 0x1000000 < a + 16 then none
    else
      let b := (s.sl sl).load (engineAddr e a) 16
      let n := (b.getD 0 0).toNat
      let l := ((b.drop 1).take n).map (·.toNat)
      if n < 1 ∨ 8 < n ∨ !((b.drop (n + 1)).all (· == 0)) ∨ l.head? ≠ some h.owner ∨ l.eraseDups.length ≠ l.length ∨
         l.any (fun o => o ≥ 64 || ((s.sl sl).pools.owner o).kind == 0) then none
      else some l

/-- ALLOC (R239, R241, R242). -/
def execAlloc (sl : SliceId) (e : EngineId) (t : ThreadId) (s : State) : Out :=
  .next (s.issueThread sl e t (opIs 0x20) fun v h w =>
    match v.ownerList sl e h w with
    | none => v.threadFault sl e t faultUnitArg
    | some l =>
      let n := (h.opA w).toNat
      let v := if wB w = 0 then v else v.engineRead sl e t (h.opB w).toNat 16
      let (r, p) := (v.sl sl).pools.alloc h.owner n l h.ctx
      let v1 := v.onSl sl fun x => { x with pools := p }
      match r with
      | .granted hd _ _ => v1.putReg sl e t (wD w) hd
      | .unitArg => v1.threadFault sl e t faultUnitArg
      | .exhausted =>
        if bit (wFn w) 1 then v1.putReg sl e t (wD w) 0
        else if v.still.on then v1.threadFault sl e t faultPoolEmpty
        else (v1.blockThread sl e t .waitPool).onSl sl fun x => { x with pools := { x.pools with
          poolWaits := x.pools.poolWaits + 1
          waits := x.pools.waits ++ [{ engine := e, thread := t, bytes := n, list := l, reg := wD w, owner := h.owner, ctx := h.ctx }] } })

/-- DONE (R244, R245). Before a job has configured the pools every request is refused with UNIT_ARG (R248). -/
def execDone (sl : SliceId) (e : EngineId) (t : ThreadId) (s : State) : Out :=
  .next (s.issueThread sl e t (opIs 0x21) fun v h w =>
    if (v.sl sl).pools.serves h.owner then (v.doneFree sl false h.owner (h.opA w).toNat).2 else v.threadFault sl e t faultUnitArg)

/-- FREE (R244, R245): pD tells whether it was accepted. -/
def execFree (sl : SliceId) (e : EngineId) (t : ThreadId) (s : State) : Out :=
  .next (s.issueThread sl e t (opIs 0x22) fun v h w =>
    if (v.sl sl).pools.serves h.owner then
      let r := v.doneFree sl true h.owner (h.opA w).toNat
      r.2.putPred sl e t (wPd w) r.1
    else v.threadFault sl e t faultUnitArg)

/-! ### Time and order (R106, R107) -/

/-- WAIT_DRIP (R106). -/
def execWaitDrip (sl : SliceId) (e : EngineId) (t : ThreadId) (s : State) : Out :=
  .next (s.issueThread sl e t (opIs 0x28) fun v h w =>
    let base := if bit (wFn w) 1 then h.launchDrip else match (v.sl sl).threadRun e t with | some u => u.frame | none => v.frame
    let d := base.plus (wImm w)
    if Drip.later d v.now then v.blockThread sl e t (.waitDrip d)
    else if v.still.on then
      -- the phase has missed; the monitor reports it at the next boundary
      let v1 := v.blockThread sl e t (.waitDrip d)
      match (v.sl sl).threadRun e t with
      | some u => v1.onSl sl fun x => x.setRun u fun k => { k with lateInput := true }
      | none => v1
    else v.onSl sl fun x => { x with routing := { x.routing with lateWaits := x.routing.lateWaits + 1 } })

/-- WAIT_DRIP_WAKE (R106): the named drip has come. -/
def execWaitDripWake (sl : SliceId) (e : EngineId) (t : ThreadId) (s : State) : Out :=
  match (s.thread sl e t).st with
  | .waitDrip d =>
    let missed := match (s.sl sl).threadRun e t with | some u => u.lateInput | none => false
    if Drip.later d s.now || missed then .next s else .next (s.onThread sl e t Thread.wake)
  | _ => .next s

/-- FENCE LOCAL (R107): a thread's stores take effect as it issues them, so every earlier store is visible. -/
def execFenceLocal (sl : SliceId) (e : EngineId) (t : ThreadId) (s : State) : Out :=
  .next (s.issueThread sl e t (opFn2 0x29 0) fun v _ _ => v)

/-- FENCE MARK (R107). -/
def execFenceMark (sl : SliceId) (e : EngineId) (t : ThreadId) (s : State) : Out :=
  .next (s.issueThread sl e t (opFn2 0x29 1) fun v h w =>
    let pl := gaPlace (h.opA w).toNat
    v.onThread sl e t fun k => { k with marks := if k.marks.contains pl then k.marks else k.marks ++ [pl] })

/-- FENCE DRAIN (R107). -/
def execFenceDrain (sl : SliceId) (e : EngineId) (t : ThreadId) (s : State) : Out :=
  .next (s.issueThread sl e t (opFn2 0x29 2) fun v h _ =>
    if h.xst = 0 ∧ h.other = 0 then v.blockThread sl e t .ready
    else (v.blockThread sl e t .waitMem).onThread sl e t fun k => { k with drain := true })

/-! ### The engine's own acts -/

/-- THREAD_YIELD (R91): after 64 instructions in a row the thread yields. -/
def execThreadYield (sl : SliceId) (e : EngineId) (s : State) : Out :=
  let g := (s.sl sl).engine e
  match g.running with
  | some t => if 64 ≤ (g.thread t).issued then .next (s.blockThread sl e t .ready) else .next s
  | none => .next s

/-- UNIT_COMPLETE (R99): the unit is free, its thread goes on, and the next waiting thread is granted. The combine unit
completes by COMBINE_COMPLETE. -/
def State.doUnitComplete (s : State) (sl : SliceId) (e : EngineId) (u : EngineUnit) : Out :=
  match ((s.sl sl).engine e).busy.find? fun b => b.1 == u with
  | none => .next s
  | some b =>
    if u = .combine then .next s
    else if u = .scoring && !s.passDone sl e && s.passLive sl e then
      -- R59: the unit waits for a panel that has not landed, which in still water is a miss of the phase
      .next (match (s.sl sl).threadRun e b.2 with
        | some r => if s.still.on then s.onSl sl fun x => x.setRun r fun k => { k with lateInput := true } else s
        | none => s)
    else
      let v := s.onSl sl fun x => x.onEngine e fun g =>
        let g1 := { g with busy := g.busy.eraseP (· == b) }
        if (g.thread b.2).st = .waitUnit u ∧ !(g.waits.any fun k => k.unit == u && k.thread == b.2) then g1.onThread b.2 Thread.wake
        else g1
      .next (v.grantWaiters sl e u 64)

/-- RANGE_PREFETCH (R104): a range of a prefetch set is staged; a range of the own slice is read at once, another slice's
by READs. -/
def execRangePrefetch (sl : SliceId) (i : Nat) (s : State) : Out :=
  match s.actingRun sl i .rangePrefetch with
  | none => .next s
  | some (u, t) =>
    let set := u.entry.f.prefetchSet
    let r : Range := ((t.img sl).prefetchSets.getD (set - 1) []).getD u.entry.f.range default
    let put (ps : List (Nat × Bytes)) (x : SliceState) : SliceState :=
      { x with tiers := { x.tiers with
          staged := (x.tiers.staged.filter fun k => !(k.1 == set && k.2.1 == u.entry.f.range)) ++ [(set, u.entry.f.range, ps)] } }
    let parts := payloadParts r.base (zeros r.len)
    if gaPlace r.base = t.place sl then
      let y := t.sl sl
      -- a piece that cannot be read is refused, as any remote read of it would be, and the stage does not complete (R206, R218)
      let got := parts.filterMap fun p => (y.readBytes? (gaOffset p.1) p.2.length).map fun b => (p.1, b)
      if got.length = parts.length then .next (t.onSl sl fun x => (put got x).completeRun u)
      else .next ((t.onSl sl (put got)).endTied sl u t.now (t.now.plus 1) .protection)
    else
      .next (parts.foldl (fun v p => v.sendMsg sl
        { dst := gaPlace p.1, opcode := opREAD, parts := [(gaOffset p.1, leBytes 8 p.2.length)], ctx := 255,
          issuer := .prefetch u.idx p.1 u.frame, sched := t.pkg.congestionMode == 0 }) (t.onSl sl (put [])))

end Sys2Proof.Machine
end

