-- ==== Sys2Proof/Machine/Tiers.lean ====
section
/-! DEFINITION. The commands of the memory tiers (chapter 08): fetches, the residency view, write windows, patrol scrub and
retraining; and the weight-set digest (R384, R385). -/

namespace Sys2Proof.Machine

/-! ### The weight-set digest (R384, R385) -/

/-- A CRC record (Table 14-3). -/
def crcRecordBytes (r : CrcRecord) : Bytes :=
  leBytes 16 (field r.id 48 0 + field r.crc 32 48 + field r.length 24 80 + field r.elem 4 104 + field r.form 2 108)

/-- One level of the tree above another: pairs are hashed, an unpaired last node is carried up. -/
def treeLevel : List Bytes → List Bytes
  | a :: b :: rest => digest64 (0x01#8 :: (a ++ b)) :: treeLevel rest
  | rest => rest

/-- Levels up to a single node, with fuel. -/
def treeRoot : Nat → List Bytes → Bytes
  | _, [] => []
  | _, [a] => a
  | 0, a :: _ => a
  | n + 1, l => treeRoot n (treeLevel l)

/-- The leaves of the tree of a manifest (R385). -/
def leaves (m : List CrcRecord) : List Bytes := m.map fun r => digest64 (0x00#8 :: crcRecordBytes r)

/-- The weight-set digest of a manifest (R385). -/
def weightRoot (m : List CrcRecord) : Bytes := treeRoot (m.length + 1) (leaves m)

/-- A level a number of levels up. -/
def levelUp : Nat → List Bytes → List Bytes
  | 0, l => l
  | n + 1, l => levelUp n (treeLevel l)

/-- A level and those above it up to the root, with fuel. -/
def levelsFrom : Nat → List Bytes → List Bytes
  | 0, l => l
  | n + 1, l => if l.length ≤ 1 then l else l ++ levelsFrom n (treeLevel l)

/-- The tree levels above blocks of 4,096 leaves, the nodes of the blocks first and the root last (R385). -/
def treeTop (m : List CrcRecord) : List Bytes := levelsFrom m.length (levelUp 12 (leaves m))

/-! ### Fetches (R216, R223, R229) -/

/-- Length of the tile that a header starts. -/
def tileLength (hdr : Bytes) : Nat := 32 + thBytes (leNat (slice hdr 0 32))

/-- The offset of a tile of an image, from the images before it; with fuel. -/
def tileOffset (x : SliceState) : Nat → Nat → Nat
  | 0, a => a
  | n + 1, a => tileOffset x n (a + tileLength (x.load a 32))

/-- The fetch of a slot. -/
def Tiers.fetch? (t : Tiers) (layer : Nat) (r : SlotRef) : Option Fetch := t.fetches.find? fun f => f.layer == layer && f.slot == r

/-- The KMAC tag of a sump tile (R229). -/
def sumpTag (key : Bytes) (off : Nat) (tile : Bytes) : Bytes := kmac256 key (leBytes 8 off ++ tile) 32 (ascii "SUMP")

/-- SUMP_TILE_ARRIVAL (R229, R230, R506, R508): the CRC and the tag are checked as the tile lands; a failure ends the fetch with
0x13. A tile that carries CXL poison is counted, and ends it with 0x12. -/
def execSumpTileArrival (sl : SliceId) (layer : Nat) (r : SlotRef) (tile : Nat) (data : SumpData) (tag : Bytes) (s : State) : Out :=
  let x := s.sl sl
  let b := data.bytes
  match x.tiers.fetch? layer r, x.tiers.entry? layer r with
  | some f, some e =>
    if e.tiles ≤ tile ∨ f.landed.contains tile ∨ f.failed = true then .next s
    else
      let off := tileOffset x tile e.sumpAddr
      if data.poison then
        .next ((s.onSl sl fun y => { y with sump := { y.sump with poison := y.sump.poison + 1 } }).failFetch sl layer r 0x12
          [thId (leNat (slice b 0 32))])
      else if tileCrcOk b && tag == sumpTag s.sec.memoryKey off b then
        .next (s.onSl sl fun y =>
          let z := y.store (y.tiers.poolBase + f.frame * y.tiers.frameBytes + (off - e.sumpAddr)) b
          { z with tiers := { z.tiers with fetches := z.tiers.fetches.map fun g =>
              if g == f then
                { g with landed := g.landed ++ [tile], full := if g.landed.length + 1 = e.tiles then some s.now else g.full }
              else g } })
      else .next (s.failFetch sl layer r 0x13 [thId (leNat (slice b 0 32))])
  | _, _ => .next s

/-- FETCH_COMPLETE (R216, R223): a fetch of which every tile is present ends; its slot is STAGED since the drip boundary at which
they were, for a state changes at a boundary only (R214). It counts as late if that was after its due drip (R235), and a prefetch
stage completes when every fetch it started is present. -/
def execFetchComplete (sl : SliceId) (layer : Nat) (r : SlotRef) (s : State) : Out :=
  match (s.sl sl).tiers.present.find? fun f => f.layer == layer && f.slot == r with
  | none => .next s
  | some f =>
    .next (s.onSl sl fun y =>
      let late := f.kind != .lookahead && f.full.any fun d => Drip.later d f.due
      let w := { y with tiers := { y.tiers with
        present := y.tiers.present.filter (· != f), fetchLate := y.tiers.fetchLate + b2n late } }
      match f.run with
      | none => w
      | some i =>
        if w.tiers.fetches.any fun g => g.run == some i then w
        else match w.runs.find? fun u => u.idx == i && u.entry.kind == .prefetch && u.st == .launched && !u.stopped with
          | some u => w.completeRun u
          | none => w)

/-- PREFETCH (R223): the stage takes a frame for each slot it names that is in SUMP, in the order named; one that starts no fetch is
complete. -/
def execPrefetchStage (sl : SliceId) (i : Nat) (s : State) : Out :=
  match s.actingRun sl i .prefetch with
  | none => .next s
  | some (u, t) =>
    let (n, v) := u.entry.f.prefetch.foldl (fun (a : Nat × State) k =>
      let l := k.1
      let r := k.2
      match ((a.2.sl sl).tiers.entry? l r) with
      | some e =>
        if e.pool && e.state == 1 && !(a.2.sl sl).tiers.fetching l r then
          let k := a.2.startFetch sl .scheduled l r u.launchedAt u.dueDrip (some i)
          (a.1 + b2n k.1, k.2)
        else a
      | none => a) (0, t)
    .next (if n = 0 then v.onSl sl fun y => y.completeRun u else v)

/-! ### The view (R217, R219, R220) -/

/-- Frames that hold no copy and that no fetch is filling (R219). -/
def Tiers.emptyFrames (t : Tiers) : Nat :=
  t.poolFrames - (t.res.filter fun e => e.pool && (e.state == 2 || e.state == 3 || e.state == 4)).length

/-- Order of eviction: the oldest last use, then the lower frame (R219). -/
def evictBefore (a b : ResEntry) : Bool := Drip.later b.lastUse a.lastUse || (a.lastUse == b.lastUse && decide (a.frame < b.frame))

/-- The slots a snapshot evicts (R219). -/
def SliceState.evictions (x : SliceState) (now : Drip) : List (Nat × SlotRef) :=
  let t := x.tiers
  -- a stage is live from its launch drip to its due drip, completed early or held as it may be
  let named (e : ResEntry) : Bool := x.runs.any fun u => u.entry.kind == .prefetch && u.st != .withdrawn &&
    !Drip.later u.launchDrip now && !Drip.later now u.dueDrip &&
    u.entry.f.prefetch.contains (e.layer, { quad := e.quad, slot := e.slot })
  let cand := sortBy evictBefore (t.res.filter fun e => e.pool && (e.state == 3 || e.state == 4) && !e.pinned && !named e)
  (cand.take (t.freeTarget - t.emptyFrames)).map fun e => (e.layer, ({ quad := e.quad, slot := e.slot } : SlotRef))

/-- The code of a slot in a view (R217). -/
def Tiers.codeOf (t : Tiers) (evict : List (Nat × SlotRef)) (layer : Nat) (r : SlotRef) : Nat :=
  match t.stateOf layer r with
  | 0 => 0
  | 1 => 1
  | 2 => 2
  | _ => if evict.contains (layer, r) then 1 else 3

/-- The view record of a slice (R217): four codes a byte, in ascending layer, quad and slot. -/
def State.viewMsg (s : State) (sl : Nat) (evict : List (Nat × SlotRef)) (launch : Drip) : Bytes :=
  let x := s.sl sl
  let (lo, n) := s.viewLayers sl
  let codes := ((List.range n).map fun k =>
    let placed : List SlotRef := match s.layer? sl (lo + k) with
      | some li => (slotsAt x (x.passDesc s.nextFrame li.mainDesc) (s.place sl)).map (·.2.2)
      | none => []
    (List.range 512).map fun j =>
      let r : SlotRef := { quad := j / 64, slot := j % 64 }
      if placed.contains r then x.tiers.codeOf evict (lo + k) r else 0).flatten
  recordHeader 7 lo 0 (s.place sl) (512 * n) (launch.toNat % 65536) ++
    ((pieces 4 codes).map fun p => BitVec.ofNat 8 ((p.zipIdx.map fun c => c.1 <<< (2 * c.2)).sum))

/-- VIEW (R216, R217, R219): ABSENT slots return to SUMP if the port is back, the slice takes its snapshot, chooses the slots
to evict, and sends its record to every slice of the job. -/
def execViewStage (sl : SliceId) (i : Nat) (s : State) : Out :=
  match s.actingRun sl i .view with
  | none => .next s
  | some (u, t) =>
    let t1 := t.onSl sl fun x =>
      if x.sump.link = 3 && !x.sump.foreign then x.onRes (fun e => e.pool && e.state == 0) fun e => { e with state := 1 } else x
    let ev := (t1.sl sl).evictions t.now
    let t2 := t1.onSl sl fun x => { x with tiers := { x.tiers with evict := ev } }
    let msg := t2.viewMsg sl ev u.launchDrip
    .next ((t2.members.foldl (fun v p => v.sendRecord sl u.entry.f.injection p msg) t2).onSl sl fun x => x.completeRun u)

/-- FRAME_RELEASE (R220): the frame of an evicted slot is free once no stage that sampled it runs. -/
def execFrameRelease (sl : SliceId) (frame : Nat) (s : State) : Out :=
  let x := s.sl sl
  if x.quads.any fun q => q.st != .idle && q.sampled.any fun m => m.2 == some frame then .next s
  else .next (s.onSl sl fun y => { y with tiers := { y.tiers with releasing := y.tiers.releasing.filter (· != frame) } })

/-! ### Write windows (R211, R212) -/

/-- WINDOW_OPEN (R211). -/
def execWindowOpen (sl : SliceId) (i : Nat) (s : State) : Out :=
  match s.actingRun sl i .windowOpen with
  | none => .next s
  | some (u, t) =>
    .next (t.onSl sl fun x =>
      ({ x with tiers := { x.tiers with window := { ranges := u.entry.f.ranges, isOpen := true }, written := [] } }).completeRun u)

/-- The tiles that a load map places in the window of a slice: ID and offset. -/
def State.windowTiles (s : State) (sl : Nat) : List (Nat × Nat) :=
  let w := (s.sl sl).tiers.window
  let m := match s.job with | some j => j.loadMap | none => []
  (m.map fun k => (k.2.filter fun p => p.1 == sl && w.ranges.any fun r => decide (r.base ≤ p.2) && decide (p.2 < r.base + r.len)).map
    fun p => (k.1, p.2)).flatten

/-- A tile of the window is checked; one that holds gives its record of the manifest its new CRC (R212). -/
def State.recordTile (s : State) (sl : Nat) (t : Nat × Nat) : State :=
  let x := s.sl sl
  let h := leNat (x.load t.2 32)
  let b := x.load t.2 (tileLength (x.load t.2 32))
  if tileHeaderOk h && tileCrcOk b && !x.poisoned t.2 b.length then
    { s with epochs := { s.epochs with manifest := s.epochs.manifest.map fun r =>
        if r.id == t.1 then { r with crc := thCrc h, length := b.length, elem := thElem h, form := thForm h } else r } }
  else s.report sl (mkReport 0x07 0 0)

/-- The manifest in force stands in the weight region at the offset that the image names, and behind it the tree levels above blocks
of 4,096 leaves (R385, log 131). -/
def State.keepManifest (s : State) : State :=
  match s.job with
  | some j =>
    match j.manifestAt with
    | some k => s.onSl k.1 fun x => x.store k.2 ((s.epochs.manifest.map crcRecordBytes).flatten ++ (treeTop s.epochs.manifest).flatten)
    | none => s
  | none => s

/-- Remote WRITEs that were admitted to the open window and have not been applied. -/
def SliceState.windowWrites (x : SliceState) : Bool := x.tiers.window.isOpen && x.remote.applyQ.any (·.win)

/-- WINDOW_CLOSE (R212, R394): once every write issued to the window has landed, the window closes, its tiles are checked, and the
new root is due at the next frame start. Until then the stage is launched and waits. -/
def execWindowClose (sl : SliceId) (i : Nat) (s : State) : Out :=
  match s.actingRun sl i .windowClose with
  | none => .next s
  | some (u, t) =>
    if (t.sl sl).windowWrites then .next (t.onSl sl fun x => x.setRun u fun v => { v with begun := false }) else
    let v := (t.windowTiles sl).foldl (fun w k => w.recordTile sl k) t
    let c := v.onSl sl fun x => ({ x with tiers := { x.tiers with window := { x.tiers.window with isOpen := false } } }).completeRun u
    .next ({ c with epochs := { c.epochs with tuningRoot := some (weightRoot c.epochs.manifest) } } : State).keepManifest

/-! ### Scrub and retraining (R232 to R234, R470) -/

/-- Stack and pseudo-channel of an HBM offset (R207). -/
def stackOf (a : Nat) : Nat := a / 256 % 4
def pchOf (a : Nat) : Nat := a / 1024 % 64

/-- The address of an HBM offset within its pseudo-channel: a[37:16] x 256 + a[7:0] (R207). -/
def pchAddr (a : Nat) : Nat := bits a 37 16 * 256 + bits a 7 0

/-- The row of a pseudo-channel that an HBM offset lies in (R470). -/
def hbmRowOf (a : Nat) : Nat := Config.hbmRow (pchAddr a)

/-- The HBM unit of an offset, by physical pseudo-channel (Table 19-7). -/
def SliceState.hbmUnit (x : SliceState) (a : Nat) : UnitRef :=
  let k := stackOf a
  { kind := 6, index := 65 * k + (if x.spares.pch.getD k 127 = pchOf a then 64 else pchOf a) }

/-- The tile of a load map and a manifest that stands over an offset of a slice. -/
def tileIn (map : List (Nat × List (Nat × Nat))) (manifest : List CrcRecord) (sl a : Nat) : Option Nat :=
  map.findSome? fun k =>
    if k.2.any fun p => p.1 == sl && decide (p.2 ≤ a) &&
      (match manifest.find? fun r => r.id == k.1 with | some r => decide (a < p.2 + r.length) | none => false)
    then some k.1 else none

/-- The tile that stands over an offset of a slice: placed by the weight epoch in force, by an update that has sealed, by the epoch
that passes may still pin, or by the load under way (R379, R389, R393). -/
def State.tileAt (s : State) (sl a : Nat) : Option Nat :=
  let e := s.epochs
  (([(e.map, e.manifest)] ++ (e.sealed_.map fun u => (u.map, u.manifest)) ++ (e.previous.toList.map fun u => (u.map, e.manifest)) ++
    [(s.load.map, s.load.manifest)]).findSome? fun k => tileIn k.1 k.2 sl a)

/-- An uncorrectable word (R204, R233): poisoned and recorded; in a frame its slot returns to SUMP, in the weight region its
tile is named; its row is to be replaced (R470). -/
def State.uncorrectable (s : State) (sl w : Nat) : State :=
  let x := s.sl sl
  let t := s.onSl sl fun y =>
    let z := y.poisonRange w 8
    { z with tiers := { z.tiers with scrubUncorrectable := z.tiers.scrubUncorrectable + 1 } }
  let k := x.tiers
  let tile := if k.inWeight w 8 then s.tileAt sl w else none
  let t1 := t.report sl { cls := 0x09, unit := x.hbmUnit w, detail := match tile with | some i => [w, i] | none => [w] }
  let hit (e : ResEntry) : Bool := e.pool && (e.state == 3 || e.state == 4) &&
    decide (k.poolBase + e.frame * k.frameBytes ≤ w) && decide (w < k.poolBase + (e.frame + 1) * k.frameBytes)
  let frames := (k.res.filter hit).map (·.frame)
  -- a frame that a fetch is filling: the fetch ends
  let filling (f : Fetch) : Bool := decide (k.poolBase + f.frame * k.frameBytes ≤ w) && decide (w < k.poolBase + (f.frame + 1) * k.frameBytes)
  let broken := k.fetches.filter filling
  let t2 := t1.onSl sl fun y =>
    let z := y.onRes (fun e => hit e || broken.any fun f => resIs e f.layer f.slot) fun e => { e with state := 1, lastFail := 0 }
    { z with
      runs := z.runs.map fun u => if u.entry.kind == .prefetch && u.st == .launched && broken.any (fun f => f.run == some u.idx) then
        { u with stopped := true } else u
      tiers := { z.tiers with releasing := z.tiers.releasing ++ frames, fetches := z.tiers.fetches.filter fun f => !filling f } }
  t2.retireRow sl (stackOf w) (pchOf w) (hbmRowOf w)

/-- Words that a read finds uncorrectable (R204): each is poisoned and recorded before the reader acts on it. A word that is poisoned
already is no news, and one outside the memory that ECC protects is none. -/
def State.findBad (s : State) (sl : Nat) (ws : List Nat) : State :=
  ws.foldl (fun v w =>
    if w % 8 ≠ 0 || (v.sl sl).poisoned w 8 then v
    else match regionOf w with
      | .hbm => v.uncorrectable sl w
      | .chamber q => (v.onSl sl fun y => y.poisonRange w 8).report sl (mkReport 0x09 2 q 0 255 [w])
      | .routing e => (v.onSl sl fun y => y.poisonRange w 8).report sl (mkReport 0x09 3 (if (v.sl sl).spares.engine = e then 4 else e) 0 255 [w])
      | .staging => (v.onSl sl fun y => y.poisonRange w 8).report sl (mkReport 0x09 0 0 0 255 [w])
      | _ => v) s

/-! ### Readers that find bad words (R204) -/

/-- WLOAD (R165). The words that the weight bus finds uncorrectable come with the command. -/
def execWload (sl : Reads SliceId) (q : QuadId) (s : State) : Out := (s.findBad sl.on sl.bad).wload sl.on q

/-- STREAM (R145). The words that it finds uncorrectable come with the command. -/
def execStream (sl : Reads SliceId) (q : QuadId) (s : State) : Out := (s.findBad sl.on sl.bad).stream sl.on q

/-- DRAIN (R160). The words that it finds uncorrectable come with the command. -/
def execDrain (sl : Reads SliceId) (q : QuadId) (s : State) : Out := (s.findBad sl.on sl.bad).drain sl.on q

/-- LD (R94). The words that its read finds uncorrectable come with the command. -/
def execLd (sl : Reads SliceId) (e : EngineId) (t : ThreadId) (s : State) : Out := (s.findBad sl.on sl.bad).doLd sl.on e t

/-- SEND (R100). The words that its read finds uncorrectable come with the command. -/
def execSend (sl : Reads SliceId) (e : EngineId) (t : ThreadId) (s : State) : Out := (s.findBad sl.on sl.bad).doSend sl.on e t

/-- COMBINE_COMPLETE (R140). The words that its read finds uncorrectable come with the command. -/
def execCombineComplete (sl : Reads SliceId) (i : Nat) (s : State) : Out := (s.findBad sl.on sl.bad).doCombineComplete sl.on i

/-- PANEL_LANDED (R59). The words that its read finds uncorrectable come with the command. -/
def execPanelLanded (sl : Reads SliceId) (e : EngineId) (layer panel : Nat) (s : State) : Out := (s.findBad sl.on sl.bad).doPanelLanded sl.on e layer panel

/-- PACK (R122). The words that its read finds uncorrectable come with the command. -/
def execPack (sl : Reads SliceId) (e : EngineId) (t : ThreadId) (s : State) : Out := (s.findBad sl.on sl.bad).doPack sl.on e t

/-- SCORE (R61). The words that its read finds uncorrectable come with the command. -/
def execScore (sl : Reads SliceId) (e : EngineId) (t : ThreadId) (s : State) : Out := (s.findBad sl.on sl.bad).doScore sl.on e t

/-- TOPK (R67). The words that its read finds uncorrectable come with the command. -/
def execTopk (sl : Reads SliceId) (e : EngineId) (t : ThreadId) (s : State) : Out := (s.findBad sl.on sl.bad).doTopk sl.on e t

/-- DIGEST (R108). The words that its read finds uncorrectable come with the command. -/
def execDigest (sl : Reads SliceId) (e : EngineId) (t : ThreadId) (s : State) : Out := (s.findBad sl.on sl.bad).doDigest sl.on e t

/-- XCOPY put (R102). The words that its read finds uncorrectable come with the command. -/
def execXcopyPut (sl : Reads SliceId) (e : EngineId) (t : ThreadId) (s : State) : Out := (s.findBad sl.on sl.bad).doXcopyPut sl.on e t

/-- UNIT_COMPLETE (R99). The words that its read finds uncorrectable come with the command. -/
def execUnitComplete (sl : Reads SliceId) (e : EngineId) (u : EngineUnit) (s : State) : Out := (s.findBad sl.on sl.bad).doUnitComplete sl.on e u

/-- A corrected word (R232, R470): counted in the pass; four in one row, or 64 in one pseudo-channel, ask for a spare. -/
def State.corrected (s : State) (sl w : Nat) : State :=
  let t := s.onSl sl fun x => { x with tiers := { x.tiers with
    scrubCorrected := x.tiers.scrubCorrected + 1, passCorrected := x.tiers.passCorrected ++ [w] } }
  let here := (t.sl sl).tiers.passCorrected.filter fun v => stackOf v == stackOf w && pchOf v == pchOf w
  let t1 := if (here.filter fun v => hbmRowOf v == hbmRowOf w).length = 4 then
      t.retireRow sl (stackOf w) (pchOf w) (hbmRowOf w) else t
  if here.length = 64 then t1.retirePch sl (stackOf w) (pchOf w) else t1

/-- A scrub pass that is still under way SCRUB_INTERVAL after it began. -/
def State.scrubSlow (s : State) (sl : Nat) : Bool :=
  let k := (s.sl sl).tiers
  k.scrubPos != 0 && !k.scrubLate && decide (k.scrubStart + 256000000000 * s.dict.scrubInterval < s.time.now)

/-- The first granule of a pass sets when it began; a pass that its interval cannot hold is recorded once (R232). -/
def State.scrubDue (s : State) (sl : Nat) : State :=
  if (s.sl sl).tiers.scrubPos = 0 then
    s.onSl sl fun x => { x with tiers := { x.tiers with scrubStart := s.time.now, scrubLate := false } }
  else if s.scrubSlow sl then
    (s.onSl sl fun x => { x with tiers := { x.tiers with scrubLate := true } }).report sl (mkReport 0x09 0 0)
  else s

/-- PATROL_SCRUB (R232, R233): the next granule is read; the command says which of its words were corrected and which could
not be. -/
def execPatrolScrub (sl : SliceId) (corrected uncorrectable : List Nat) (s : State) : Out :=
  let g := (s.sl sl).tiers.scrubPos
  let words (l : List Nat) : List Nat := (List.range 32).filterMap fun i => if l.contains (g + 8 * i) then some (g + 8 * i) else none
  let t := (words corrected).foldl (fun v w => v.corrected sl w) s
  let u := ((words uncorrectable).foldl (fun v w => v.uncorrectable sl w) t).scrubDue sl
  .next (u.onSl sl fun x => { x with tiers :=
    if g + 256 < 0x4000000000 then { x.tiers with scrubPos := g + 256 }
    else { x.tiers with scrubPos := 0, scrubPasses := x.tiers.scrubPasses + 1, passCorrected := [] } })

/-- HBM_RETRAIN (R234): the next pseudo-channel of a stack is retrained, unless a copy to a spare runs on the stack (R475). -/
def execHbmRetrain (sl : SliceId) (stack : Fin 4) (s : State) : Out :=
  if (s.sl sl).spares.migrating.any fun m => m.1 == stack.val then .next s
  else .next (s.onSl sl fun x => { x with tiers := { x.tiers with
    retrainPos := x.tiers.retrainPos.modify stack.val fun n => (n + 1) % 64 } })

end Sys2Proof.Machine
end

