-- ==== Sys2Proof/Machine/Collective.lean ====
section
/-! DEFINITION. The collective engine (chapter 12): chunks and the sums they carry, chain traffic, matching and parking,
endings, and membership epochs. Chunks and sums are the carrier bytes of R324; an empty sum is none. -/

namespace Sys2Proof

/-! ### Descriptors and chunks (R328, R329) -/

/-- Whether the carrier is W48 (R324). -/
def CollDesc.wide (d : CollDesc) : Bool := Machine.rowFmt d.inFmt == 9
/-- Elements of a full chunk, chunks of the collective, elements of chunk c. -/
def CollDesc.full (d : CollDesc) : Nat := if d.wide then 10920 else 16384
def CollDesc.chunks (d : CollDesc) : Nat := ceilDiv d.elems d.full
def CollDesc.count (d : CollDesc) (c : Nat) : Nat := min d.full (d.elems - c * d.full)
/-- The first chunk of a step and one past its last (R329). -/
def CollDesc.lead (d : CollDesc) (s : Nat) : Nat := s * d.chunksPerStep
def CollDesc.stop (d : CollDesc) (s : Nat) : Nat := min d.chunks ((s + 1) * d.chunksPerStep)

/-! ### Chains (R326) -/

/-- Level-1 and level-2 predecessors of a member, in the order its sums are added (R333). -/
def Group.preds (g : Group) (i : Nat) : List Place :=
  let node (k : Nat) : Nat := (g.members.getD k default).node
  let at_ (k : Nat) : Place := g.members.getD k default
  if !g.twoLevel then (if i = 0 then [] else [at_ (i - 1)])
  else
    let one := if i ≠ 0 ∧ node (i - 1) = node i then [at_ (i - 1)] else []
    let leader := i + 1 = g.members.length || node (i + 1) != node i
    -- the first member of the own run; the leader of the run before stands just below it
    let start := ((List.range (i + 1)).reverse.takeWhile fun k => node k == node i).getLastD i
    one ++ (if leader && start != 0 then [at_ (start - 1)] else [])

/-- The successor of a member, or none for the tail. -/
def Group.succ (g : Group) (i : Nat) : Option Place :=
  let n := g.members.length
  let node (k : Nat) : Nat := (g.members.getD k default).node
  if n ≤ i + 1 then none
  else if !g.twoLevel || node (i + 1) == node i then g.members[i + 1]?
  else
    let run := ((List.range n).drop (i + 1)).takeWhile fun k => node k == node (i + 1)
    g.members[run.getLastD (i + 1)]?

end Sys2Proof

namespace Sys2Proof.Machine

/-! ### Values (R323, R324) -/

/-- Values of a plain format, one after another. -/
def plainNums (c : Nat) (b : Bytes) : List Num :=
  match fmtOf c with
  | none => []
  | some f => (pieces (elemBytes c) b).map fun e => f.decode (leNat e)

/-- Carrier bytes of values: each is rounded once into the carrier, exactly for an input (R193, R194, R323). -/
def carrierBytes (wide : Bool) (v : List Num) : Bytes :=
  (v.map fun x => if wide then leBytes 6 (fW48.encode x).1 else leBytes 4 (fB32.encode x).1).flatten

/-- Values of carrier bytes. -/
def carrierNums (wide : Bool) (b : Bytes) : List Num :=
  if wide then (pieces 6 b).map fun e => fW48.decode (leNat e) else (pieces 4 b).map fun e => fB32.decode (leNat e)

/-- One add of R323: an empty side contributes nothing. -/
def carrierAdd (wide : Bool) : Option Bytes → Option Bytes → Option Bytes
  | none, b => b
  | a, none => a
  | some a, some b => some (carrierBytes wide (((carrierNums wide a).zip (carrierNums wide b)).map fun x => x.1.add x.2))

/-- The result chunk: the total rounded once into OUT_FMT, or +0 where it is empty (R323). -/
def resultChunkOf (d : CollDesc) (c : Nat) (t : Option Bytes) : Written :=
  encodePlain (rowFmt d.outFmt) (match t with
    | some b => carrierNums d.wide b
    | none => List.replicate (d.count c) Num.zero)

/-! ### Chunk messages (Table 12-5) -/

def chKind (n : Nat) : Nat := bits n 7 0
def chColl (n : Nat) : Nat := bits n 23 8
def chChunk (n : Nat) : Nat := bits n 43 24
def chZero (n : Nat) : Bool := bit n 44
def chEpoch (n : Nat) : Nat := bits n 45 45
def chStatus (n : Nat) : Nat := bits n 55 48
def chFmt (n : Nat) : Nat := bits n 58 56
def chTag (n : Nat) : Nat := bits n 79 64
def chLimit (n : Nat) : Nat := bits n 99 80
def chElems (n : Nat) : Nat := bits n 114 100
def chReserved (n : Nat) : Bool := bits n 47 46 == 0 && bits n 63 59 == 0 && bits n 511 115 == 0

/-- The 64-byte header of a message of a step. -/
def CollStep.header (c : CollStep) (kind chunk : Nat) (zero : Bool) (fmt limit elems : Nat) : Bytes :=
  leBytes 64 (field kind 8 0 + field c.desc.collId 16 8 + field chunk 20 24 + field (b2n zero) 1 44 + field c.epoch 1 45 +
    field c.status 8 48 + field fmt 3 56 + field c.frame.toNat 16 64 + field limit 20 80 + field elems 15 100)

/-- COLL_RX_BASE of a destination slice, as for EXCH_RX_BASE (log 20). -/
def State.collRxOf (s : State) (dst : Place) : Nat :=
  match s.job with
  | some j => (j.slices.getD dst.slice {}).collRxBase
  | none => 0

/-- Send a message of a step as trusted WRITE packets (R332). -/
def State.sendChunk (s : State) (sl : Nat) (c : CollStep) (dst : Place) (msg : Bytes) : State :=
  s.sendMsg sl
    { dst := dst, opcode := opWRITE, parts := payloadParts (s.collRxOf dst) msg, ctx := c.desc.ctx, trusted := true, sched := true,
      issuer := .coll c.run c.desc.collId c.frame }

/-! ### A live step (R333, R334) -/

def CollStep.key (c : CollStep) (d : CollStep) : Bool := c.run == d.run && c.frame == d.frame && c.desc.collId == d.desc.collId && c.step == d.step

/-- Change the step that another one is. -/
def State.onStep (s : State) (sl : Nat) (c : CollStep) (f : CollStep → CollStep) : State :=
  s.onSl sl fun x => { x with coll := { x.coll with steps := x.coll.steps.map fun d => if d.key c then f d else d } }

def State.step? (s : State) (sl : Nat) (c : CollStep) : CollStep := ((s.sl sl).coll.steps.find? fun d => d.key c).getD c

/-- The lowest of two statuses, where 0 is none (R342). -/
def lowStatus (a b : Nat) : Nat := if a = 0 then b else if b = 0 then a else min a b

/-- A status met by one step of an instance is carried by all its steps at this member (R342). -/
def SliceState.raise (x : SliceState) (c : CollStep) (st : Nat) : SliceState :=
  { x with coll := { x.coll with steps := x.coll.steps.map fun d =>
      if d.desc.collId == c.desc.collId && d.frame == c.frame then { d with status := lowStatus d.status st } else d } }

/-- The status that the steps of an instance carry at this member. -/
def SliceState.carried (x : SliceState) (id : Nat) (frame : Drip) : Nat :=
  ((x.coll.steps.filter fun d => d.desc.collId == id && d.frame == frame).map (·.status)).foldl lowStatus 0

/-- The code with which a context that is not live ended here, or CANCELLED (R342). -/
def Service.endCode (v : Service) (c : Nat) : Nat :=
  match v.endCodes.find? fun e => e.1 == c with
  | some e => e.2
  | none => Status.cancelled.code

/-- Predecessors and successor of this member in the step's group. -/
def CollStep.preds (c : CollStep) : List Place := c.group.preds c.group.self
def CollStep.succ (c : CollStep) : Option Place := c.group.succ c.group.self
def CollStep.lo (c : CollStep) : Nat := c.desc.lead c.step
def CollStep.hi (c : CollStep) : Nat := c.desc.stop c.step

/-- The next chunk not yet received from a predecessor. -/
def CollStep.first (c : CollStep) (p : Place) : Nat :=
  (((List.range (c.hi - c.cur)).map (· + c.cur)).find? fun k => !c.got.any fun g => g.1 == p && g.2.1 == k).getD c.hi

/-- Free working buffers of the 16 that a step has (R334). -/
def CollStep.freeBuffers (c : CollStep) : Nat := 16 - (c.sums.length + c.got.length)

/-- Send a PULL to each predecessor whose FIRST or LIMIT changed (R334). -/
def State.pullAll (s : State) (sl : Nat) (c0 : CollStep) (again : Bool) : State :=
  c0.preds.foldl (fun v p =>
    let c := v.step? sl c0
    let f := c.first p
    let want := (p, f, f + c.freeBuffers)
    if c.granted.contains want && !again then v
    else
      let u := v.onStep sl c fun d => { d with granted := (d.granted.filter fun g => g.1 != p) ++ [want] }
      u.sendChunk sl c p (c.header 0x0B f false 0 want.2.2 0)) s

/-- The input of a chunk at this member, in the carrier, and whether it read a poisoned word (R325, R342). -/
def CollStep.input (c : CollStep) (x : SliceState) (k : Nat) : Option Bytes × Bool :=
  if c.gated || c.status != 0 then (none, false)
  else
    let f := rowFmt c.desc.inFmt
    let w := elemBytes f
    let a := c.desc.inAddr + k * c.desc.full * w
    let n := c.desc.count k * w
    if x.poisoned a n then (none, true) else (some (carrierBytes c.desc.wide (plainNums f (x.load a n))), false)

/-- Whether a write to a range of the output is refused: the weight region takes it only in an open window (R211, R335). -/
def SliceState.outRefused (x : SliceState) (a n : Nat) : Bool := x.tiers.inWeight a n && !x.tiers.inWindow a n

/-- End the requests a collective serves at the next drip: those of its context, or those tied to its stage (R335, R342). -/
def State.endColl (s : State) (sl : Nat) (c : CollStep) (st : Status) : State :=
  if c.desc.ctx < 255 then s.endCtxNext c.desc.ctx st
  else match (s.sl sl).runs.find? fun u => u.idx == c.run && u.frame == c.frame with
    | some u => s.endTied sl u s.now (s.now.plus 1) st
    | none => s

/-- Write a result chunk to the output and note it, then owe it to each predecessor and send it (R333). The tail counts the
saturated elements and the non-finite chunk that it writes (R324). -/
def State.takeResultBytes (s : State) (sl : Nat) (c0 : CollStep) (k : Nat) (b : Bytes) (sat : Nat := 0) (nonfinite : Bool := false) : State :=
  let c := s.step? sl c0
  let w := elemBytes (rowFmt c.desc.outFmt)
  let a := c.desc.outAddr + k * c.desc.full * w
  let s1 :=
    if c.status ≠ 0 then s
    else if (s.sl sl).outRefused a b.length then (s.report sl (mkReport 0x10 4 0xFFF 0x1A c.desc.ctx)).endColl sl c .fault
    else s.onSl sl fun x =>
      let y := x.store a b
      { y with
        tiers := { y.tiers with written := if y.tiers.inWindow a b.length then y.tiers.written ++ [a] else y.tiers.written }
        arr := { y.arr with satElements := y.arr.satElements + sat, nonfiniteDrains := y.arr.nonfiniteDrains + b2n nonfinite } }
  let s2 := s1.onStep sl c fun d => { d with results := if d.results.contains k then d.results else d.results ++ [k] }
  c.preds.foldl (fun v p =>
    let u := v.onStep sl c fun d => { d with owed := if d.owed.contains (p, k) then d.owed else d.owed ++ [(p, k)] }
    u.sendChunk sl c p (c.header 0x0A k false c.desc.outFmt 0 (c.desc.count k) ++ b)) s2

/-- Form the sums whose parts are all here, in ascending chunk (R333), with fuel. -/
def State.formSums (s : State) (sl : Nat) (c0 : CollStep) : Nat → State
  | 0 => s
  | n + 1 =>
    let c := s.step? sl c0
    let k := c.cur
    let ready := c.preds.all fun p => c.got.any fun g => g.1 == p && g.2.1 == k
    if c.completed || decide (c.hi ≤ k) || !ready || (c.succ.isSome && decide (16 ≤ c.sums.length)) then s
    else
      let (a, bad) := c.input (s.sl sl) k
      let part (p : Place) : Option Bytes := match c.got.find? fun g => g.1 == p && g.2.1 == k with | some g => g.2.2 | none => none
      let t := c.preds.foldl (fun v p => carrierAdd c.desc.wide v (part p)) a
      let s1 := (s.onStep sl c fun d => { d with cur := k + 1, got := d.got.filter fun g => g.2.1 != k }).onSl sl fun x =>
        if bad then x.raise c 0x1A else x
      match c.succ with
      | some _ => (s1.onStep sl c fun d => { d with sums := d.sums ++ [(k, t, false)] }).formSums sl c n
      | none =>
        let w := resultChunkOf c.desc k t
        (s1.takeResultBytes sl c k w.bytes w.sat w.nonfinite).formSums sl c n

/-- Send the next SUM chunk that may go: the lead chunk at once, a later one below the successor's LIMIT (R334). -/
def State.sendSum (s : State) (sl : Nat) (c0 : CollStep) : State :=
  let c := s.step? sl c0
  match c.succ, c.sums.find? fun k => !k.2.2 && (k.1 == c.lo || decide (k.1 < c.limit)) with
  | some p, some (k, t, _) =>
    let u := s.onStep sl c fun d => { d with sums := d.sums.map fun e => if e.1 == k then (e.1, e.2.1, true) else e }
    let v := u.onSl sl fun x => { x with coll := { x.coll with zeroChunks := x.coll.zeroChunks + b2n t.isNone } }
    v.sendChunk sl c p (c.header 0x09 k t.isNone (b2n c.desc.wide) 0 (c.desc.count k) ++ t.getD [])
  | _, _ => s

/-- A SUM chunk that a live step takes (R333, R342): it is added when its turn comes, and FIRST and LIMIT are told anew. -/
def State.consumeSum (s : State) (sl : Nat) (c : CollStep) (src : Place) (n : Nat) (payload : Bytes) : State :=
  let k := chChunk n
  let have1 := k < (s.step? sl c).cur || (s.step? sl c).got.any fun g => g.1 == src && g.2.1 == k
  let s1 := (s.onStep sl c fun d =>
    { d with got := if have1 then d.got else d.got ++ [(src, k, if chZero n then none else some payload)] }).onSl sl fun x =>
      x.raise c (chStatus n)
  (s1.formSums sl c 64).pullAll sl c false

/-- A PULL for a live step (R334): what lies below FIRST is passed, what lies below LIMIT may go, and kept chunks from FIRST up
are sent again. -/
def State.applyPull (s : State) (sl : Nat) (c : CollStep) (first limit : Nat) : State :=
  (s.onStep sl c fun d =>
    { d with
      passed := max d.passed (min first d.hi), limit := max d.limit limit
      sums := (d.sums.filter fun k => decide (first ≤ k.1)).map fun k => (k.1, k.2.1, false) }).formSums sl c 64 |>.pullAll sl c false

/-! ### Matching and parking (R336, R337) -/

/-- Whether a header names a step: the collective, the frame and the chunk. -/
def CollStep.covers (c : CollStep) (n : Nat) : Bool :=
  c.desc.collId == chColl n && c.frame.toNat % 65536 == chTag n && decide (c.lo ≤ chChunk n) && decide (chChunk n < c.hi)

/-- The descriptor of a collective. -/
def SliceState.collDesc? (x : SliceState) (id : Nat) : Option (Nat × CollDesc) := x.coll.descs.find? fun d => d.2.collId == id

/-- A discarded chunk (Table 12-6). -/
def State.discardChunk (s : State) (sl : Nat) (record : Bool) : State :=
  let t := s.onSl sl fun x => { x with coll := { x.coll with discarded := x.coll.discarded + 1 } }
  if record then t.report sl (mkReport 0x10 4 0xFFF) else t

/-- The chunk is of the form its descriptor asks for. -/
def chunkAsExpected (d : CollDesc) (n : Nat) (payload : Bytes) : Bool :=
  let c := chChunk n
  let sum := chKind n == 0x09
  chReserved n && decide (c < d.chunks) && chElems n == d.count c && chFmt n == (if sum then b2n d.wide else d.outFmt) &&
  (sum || !chZero n) &&
  payload.length == (if chZero n then 0 else if sum then d.count c * (if d.wide then 6 else 4) else d.count c * elemBytes (rowFmt d.outFmt))

/-- The runs of an instance's steps that hold a chunk: the run and its frame. -/
def SliceState.chunkRun (x : SliceState) (desc : CollDesc) (idx n : Nat) : Option Run :=
  x.runs.find? fun u => u.entry.kind == .collective && u.entry.f.desc == idx && u.frame.toNat % 65536 == chTag n &&
    decide (desc.lead u.entry.f.step ≤ chChunk n) && decide (chChunk n < desc.stop u.entry.f.step)

/-- The lead chunk of a step that has not launched here, of this frame or the next (Table 12-6). -/
def State.isEarlyLead (s : State) (sl idx : Nat) (d : CollDesc) (n : Nat) : Bool :=
  let x := s.sl sl
  let lead := (s.img sl).entries.any fun e => e.kind == .collective && e.f.desc == idx && d.lead e.f.step == chChunk n
  lead && chKind n == 0x09 &&
  (match x.chunkRun d idx n with
   | some u => u.st == .waiting
   | none => chTag n == s.nextFrame.toNat % 65536)

/-- The step of the schedule that holds a chunk is of an earlier frame and has no run any more: it has completed, missed or been
withdrawn (Table 12-6). -/
def State.isPast (s : State) (sl idx : Nat) (d : CollDesc) (n : Nat) : Bool :=
  let back := (s.frame.toNat % 65536 + 65536 - chTag n) % 65536
  let len := match s.job with | some j => max 1 j.frameLen | none => 1
  decide (back < 32768) && back % len == 0 &&
  (s.img sl).entries.any fun e => e.kind == .collective && e.f.desc == idx &&
    decide (d.lead e.f.step ≤ chChunk n) && decide (chChunk n < d.stop e.f.step)

/-- Park a chunk in a class-5 buffer of the parking owner, or drop it (R337). -/
def State.park (s : State) (sl : Nat) (src : Place) (msg : Bytes) : State :=
  let x := s.sl sl
  let o := (s.img sl).parkOwner
  match x.pools.alloc o 65600 [o] 255 with
  | (.granted h c i, q) =>
    s.onSl sl fun y =>
      let z := { y with pools := q }.store (q.offset c i) msg
      { z with coll := { z.coll with parked := z.coll.parked ++ [(src, msg, h.toNat)], parkedCount := z.coll.parkedCount + 1 } }
  | (_, q) => s.onSl sl fun y => { y with pools := q, coll := { y.coll with parkDropped := y.coll.parkDropped + 1 } }

/-- Whether an instance has ended here (R340). -/
def SliceState.instanceEnded (x : SliceState) (coll tag : Nat) : Bool :=
  x.coll.ended.any fun e => e.1 == coll && e.2.1.toNat % 65536 == tag

/-- A SUM or RESULT chunk arrives (Table 12-6). -/
def State.takeChunk (s : State) (sl : Nat) (src : Place) (msg : Bytes) : State :=
  let n := leNat (slice msg 0 64)
  let payload := msg.drop 64
  let x := s.sl sl
  let sum := chKind n == 0x09
  let live := x.coll.steps.find? fun c => !c.completed && c.covers n && c.epoch == chEpoch n
  match x.collDesc? (chColl n) with
  | none => s.discardChunk sl true
  | some (idx, d) =>
    if msg.length < 64 || !chunkAsExpected d n payload || (live.isNone && chEpoch n != s.pkg.memberEpoch % 2) then s.discardChunk sl true
    else
      match live with
      | some c =>
        if sum then
          if c.preds.contains src && (c.granted.any fun g => g.1 == src && decide (chChunk n < g.2.2)) then
            s.consumeSum sl c src n payload
          else s.discardChunk sl true
        else if c.succ == some src then
          (s.onSl sl fun x => x.raise c (chStatus n)).takeResultBytes sl c (chChunk n) payload
        else s.discardChunk sl true
      | none =>
        if s.isEarlyLead sl idx d n then s.park sl src msg
        else if x.instanceEnded (chColl n) (chTag n) then s.discardChunk sl false
        else match x.chunkRun d idx n with
          | some u => s.discardChunk sl (!u.over)
          | none => s.discardChunk sl (!s.isPast sl idx d n)

/-- Whether a PULL whose FIRST is f acts on a step (R334): on the one that holds chunk f, and on the one that ends there if it has sent
every chunk it owes. Steps of one instance may overlap (R339), so a PULL for a later step leaves what an earlier one keeps or has yet
to send; FIRST at the end of one step is also the start of the next, and the header does not say which of them asks (DESIGN CHOICE,
log 150). -/
def CollStep.pulledBy (c : CollStep) (f : Nat) : Bool :=
  decide (c.lo ≤ f) && (decide (f < c.hi) || (f == c.hi && c.cur == c.hi && c.sums.all fun k => k.2.2))

/-- A PULL arrives (R334): it acts on the live steps of its instance that it names, and one for a step not launched waits. -/
def State.takePull (s : State) (sl : Nat) (src : Place) (msg : Bytes) : State :=
  let n := leNat (slice msg 0 64)
  let x := s.sl sl
  let f := chChunk n
  let mine := x.coll.steps.filter fun c => !c.completed && c.desc.collId == chColl n && c.frame.toNat % 65536 == chTag n &&
    c.epoch == chEpoch n && c.succ == some src
  let now := mine.filter fun c => c.pulledBy f
  let s1 := now.foldl (fun v c => v.applyPull sl c f (chLimit n)) s
  let known := now.any fun c => decide (f < c.hi)
  match x.collDesc? (chColl n) with
  | none => s1
  | some (idx, d) =>
    let waiting := match x.chunkRun d idx n with
      | some u => u.st == .waiting
      | none => decide (f < d.chunks) && chTag n == s.nextFrame.toNat % 65536
    if known || !waiting || x.instanceEnded (chColl n) (chTag n) then s1
    else if 64 ≤ x.coll.pulls.length then s1
    else s1.onSl sl fun y => { y with coll := { y.coll with pulls := y.coll.pulls ++ [(src, msg)] } }

/-- The collective engine takes a whole message that landed at COLL_RX_BASE (R332). -/
def State.collReceive (s : State) (sl : Nat) (src : Place) (msg : Bytes) : State :=
  match (msg.getD 0 0).toNat with
  | 0x0B => s.takePull sl src msg
  | 0x09 => s.takeChunk sl src msg
  | 0x0A => s.takeChunk sl src msg
  | _ => s.discardChunk sl true

/-! ### Launch, completion and endings (R335, R340, R341) -/

/-- Free the parked chunks a predicate picks (R337). -/
def SliceState.unpark (x : SliceState) (p : Nat → Bool) : SliceState :=
  let gone := x.coll.parked.filter fun k => p (leNat (slice k.2.1 0 64))
  let pools := gone.foldl (fun (q : Pools) k => match q.match? k.2.2 with | some b => q.release b.cls b.idx false | none => q) x.pools
  { x with
    pools := pools
    coll := { x.coll with parked := x.coll.parked.filter fun k => !p (leNat (slice k.2.1 0 64)) } }

/-- A member's instance ends with a code: its live steps are withdrawn, later ones launch as void steps, and the requests of
every step end (R340, R341). -/
def State.endInstance (s : State) (sl : Nat) (coll : Nat) (frame : Drip) (code : Status) (given : Drip)
    (found : Option Drip := none) : State :=
  let x := s.sl sl
  if x.coll.ended.any fun e => e.1 == coll && e.2.1 == frame then s
  else
    let mine := x.coll.steps.filter fun c => !c.completed && c.desc.collId == coll && c.frame == frame
    let t := s.onSl sl fun y =>
      let y1 := mine.foldl (fun (z : SliceState) c =>
        match z.runs.find? fun u => u.idx == c.run && u.frame == c.frame && u.st == .launched with
        | some u => z.endRun u .withdrawn
        | none => z) y
      let y2 := y1.unpark fun n => chColl n == coll && chTag n == frame.toNat % 65536
      { y2 with coll := { y2.coll with
          steps := y2.coll.steps.filter fun c => c.completed || !(c.desc.collId == coll && c.frame == frame)
          pulls := y2.coll.pulls.filter fun k => !(chColl (leNat (slice k.2 0 64)) == coll && chTag (leNat (slice k.2 0 64)) == frame.toNat % 65536)
          ended := y2.coll.ended ++ [(coll, frame, code.code)]
          stalls := y2.coll.stalls + b2n (code == .collectiveStall) } }
    let idx := match x.collDesc? coll with | some d => d.1 | none => 4096
    ((t.sl sl).runs.filter fun u => u.entry.kind == .collective && u.entry.f.desc == idx && u.frame == frame).foldl
      (fun v u => v.endTied sl u (found.getD s.now) given code) t

/-- Whether the gating shape entry says that no token came: LIVE 0 or ROWS_USED 0 (R325). -/
def SliceState.gateClosed (x : SliceState) (d : CollDesc) : Bool :=
  let e := x.loadNat (shapeAddr x d.layer + 64 + 8 * (64 * d.quad + d.slot)) 8
  d.zeroGate && (shapeField 2 e == 0 || shapeField 0 e == 0)

/-- COLLECTIVE (R333, R334, R341): a step launches, takes a parked lead chunk and the PULLs that wait for it, pulls, and sends
its lead chunk. A step of an ended instance, or of a group with a lost member, is void. -/
def execCollectiveStep (sl : SliceId) (i : Nat) (s : State) : Out :=
  match s.actingRun sl i .collective with
  | none => .next s
  | some (u, t) =>
    let x := t.sl sl
    match x.coll.descs.find? fun d => d.1 == u.entry.f.desc with
    | none => .next (t.onSl sl fun y => y.endRun u .void)
    | some (_, d) =>
      let mine (n : Nat) : Bool := chColl n == d.collId && chTag n == u.frame.toNat % 65536 &&
        decide (d.lead u.entry.f.step ≤ chChunk n) && decide (chChunk n < d.stop u.entry.f.step)
      let g : Group := match x.coll.groups.find? fun k => k.1 == d.group with | some k => k.2 | none => {}
      if x.instanceEnded d.collId (u.frame.toNat % 65536) then .next (t.onSl sl fun y => (y.endRun u .void).unpark mine)
      else if g.members.any fun p => x.fabric.lost.contains p then
        .next ((t.onSl sl fun y => (y.endRun u .void).unpark mine).endInstance sl d.collId u.frame .fabricLost (t.now.plus 1))
      else
        let first := if d.ctx < 255 && t.ctxState d.ctx != 2 then x.svc.endCode d.ctx else 0
        let c : CollStep :=
          { run := u.idx, frame := u.frame, desc := d, group := g, step := u.entry.f.step, epoch := t.pkg.memberEpoch % 2,
            table := t.pkg.routeActive, gated := x.gateClosed d, status := lowStatus first (x.carried d.collId u.frame),
            cur := d.lead u.entry.f.step, passed := d.lead u.entry.f.step }
        let s1 := t.onSl sl fun y => ({ y with coll := { y.coll with steps := y.coll.steps ++ [c] } } : SliceState).raise c first
        -- the parked lead chunk is taken first, then the PULLs held for the step; one of another epoch is discarded (Table 12-6)
        let lead := x.coll.parked.filter fun k => c.covers (leNat (slice k.2.1 0 64)) && c.preds.contains k.1
        let s2 := lead.foldl (fun (v : State) k =>
          let n := leNat (slice k.2.1 0 64)
          if chEpoch n ≠ c.epoch then v.discardChunk sl true
          else (v.onStep sl c fun e => { e with
            got := e.got ++ [(k.1, chChunk n, if chZero n then none else some (k.2.1.drop 64))] }).onSl sl fun y => y.raise c (chStatus n))
          (s1.onSl sl fun y => y.unpark fun n => c.covers n)
        let held := x.coll.pulls.filter fun k => c.covers (leNat (slice k.2 0 64)) && some k.1 == c.succ
        let s3 := held.foldl (fun (v : State) k => v.applyPull sl c (chChunk (leNat (slice k.2 0 64))) (chLimit (leNat (slice k.2 0 64))))
          (s2.onSl sl fun y => { y with coll := { y.coll with pulls := y.coll.pulls.filter fun k => !held.contains k } })
        .next (((s3.formSums sl c 64).pullAll sl c true).sendSum sl c)

/-- SUM_CHUNK (R336). -/
def execSumChunk (sl : SliceId) (src : Place) (msg : Bytes) (s : State) : Out := .next (s.takeChunk sl src msg)

/-- RESULT_CHUNK (R333, R336). -/
def execResultChunk (sl : SliceId) (src : Place) (msg : Bytes) (s : State) : Out := .next (s.takeChunk sl src msg)

/-- PULL (R334). -/
def execPull (sl : SliceId) (src : Place) (msg : Bytes) (s : State) : Out := .next (s.takePull sl src msg)

/-- The live step of a launch entry. -/
def SliceState.liveStep (x : SliceState) (i : Nat) : Option CollStep := x.coll.steps.find? fun c => c.run == i && !c.completed

/-- PULL_REPEAT (R334): a step that waits for data repeats its last PULLs. -/
def execPullRepeat (sl : SliceId) (i : Nat) (s : State) : Out :=
  match (s.sl sl).liveStep i with
  | none => .next s
  | some c => .next (if c.cur < c.hi then s.pullAll sl c true else s)

/-- CHUNK_SEND (R334): the next SUM chunk that the successor permits goes. -/
def execChunkSend (sl : SliceId) (i : Nat) (s : State) : Out :=
  match (s.sl sl).liveStep i with
  | none => .next s
  | some c => .next (((s.formSums sl c 64).sendSum sl c).pullAll sl c false)

/-- Whether a step is complete at this member (R335). -/
def CollStep.finished (c : CollStep) : Bool :=
  (c.succ.isNone || (decide (c.hi ≤ c.passed) && c.sums.isEmpty)) && c.owed.isEmpty && decide (c.hi ≤ c.cur) &&
  ((List.range (c.hi - c.lo)).all fun k => c.results.contains (c.lo + k))

/-- COLLECTIVE_STEP_COMPLETE (R335, R342): the output's flag is set, for the next drip, and a carried status ends the
requests of the context. -/
def execCollectiveStepComplete (sl : SliceId) (i : Nat) (s : State) : Out :=
  match (s.sl sl).liveStep i with
  | none => .next s
  | some c =>
    if !c.finished then .next s
    else
      let t := s.onStep sl c fun d => { d with completed := true }
      let u := t.onSl sl fun x =>
        let y := { x with coll := { x.coll with stepsDone := x.coll.stepsDone + 1 } }
        match y.runs.find? fun r => r.idx == i && r.frame == c.frame && r.st == .launched with
        | some r => y.completeRun r
        | none => y
      .next (if c.status = 0 then u else u.endColl sl c (Status.ofCode c.status))

/-- MEMBERSHIP_EPOCH (R345): at the boundary of the epoch drip next lists become current, the epoch rises, and lost slices
named in a current list are re-admitted. -/
def execMembershipEpoch (s : State) : Out :=
  match s.pkg.collEpochs with
  | [] => .next s
  | e :: es =>
    if Drip.later e s.now then .next s
    else
      let next (x : SliceState) : List (Nat × Group) :=
        (x.coll.groups.filter fun g => !x.coll.nextGroups.any fun n => n.1 == g.1) ++ x.coll.nextGroups
      let named : List Place := (s.slices.map fun x => ((next x).map fun g => g.2.members).flatten).flatten
      let t := s.onAll fun x =>
        { x with
          coll := { x.coll with groups := next x, nextGroups := [] }
          fabric := { x.fabric with lost := x.fabric.lost.filter fun p => !named.contains p } }
      .next { t with pkg := { t.pkg with memberEpoch := (t.pkg.memberEpoch + 1) % 65536, collEpochs := es } }

end Sys2Proof.Machine
end

