-- ==== Sys2Proof/Machine/Remote.lean ====
section
/-! DEFINITION. The remote-memory endpoint of a slice (R273 to R278, R295 to R313): delivery, the checks of Table 11-3, the
replay filter, the apply queue, and the commands that deliver requests. -/

namespace Sys2Proof

/-! ### Forms (Tables 10-5 and 11-5) -/

/-- Bytes of an element of a REDUCE, 0 for a reserved code. -/
def reduceSize (opmod : Nat) : Nat :=
  if opmod = 0 ∨ opmod = 3 ∨ opmod = 4 then 8 else if opmod = 1 ∨ opmod = 5 ∨ opmod = 6 then 4 else if opmod = 2 then 2 else 0

/-- Bytes of memory that an operation covers. -/
def Packet.covers (p : Packet) : Nat :=
  if p.opcode = 0x10 then bits (leNat (slice p.payload 0 8)) 12 0
  else if p.opcode = 0x13 then 4 else if p.opcode = 0x14 then 8 else p.payload.length

/-- REDUCE, ATOMIC_FADD and ATOMIC_CAS pass the replay filter (R312). -/
def Packet.filtered (p : Packet) : Bool := p.opcode == 0x12 || p.opcode == 0x13 || p.opcode == 0x14

/-- The form of Table 11-5: packet count, PLEN, reserved bits, alignment, and REQ_ID where required. -/
def Packet.formOk (p : Packet) : Bool :=
  let n := p.covers
  let one := p.first && p.last
  p.plen == p.payload.length &&
  (if p.opcode = 0x10 then
    one && p.plen == 8 && decide (leNat p.payload < 8192) && decide (1 ≤ n) && decide (n ≤ 4096) &&
    (if n = 1 ∨ n = 2 ∨ n = 4 ∨ n = 8 then p.dstOffset % n == 0 else p.dstOffset % 8 == 0 && n % 8 == 0)
  else if p.opcode = 0x11 ∨ p.opcode = 0x15 then decide (1 ≤ p.plen) && decide (p.plen ≤ 4096)
  else if p.opcode = 0x12 then
    let z := reduceSize p.opmod
    one && z != 0 && decide (1 ≤ p.plen) && p.plen % max 1 z == 0 && p.dstOffset % max 1 z == 0 && p.reqId != 0
  else if p.opcode = 0x13 then one && p.plen == 8 && decide (leNat p.payload < 2 ^ 32) && p.dstOffset % 4 == 0 && p.reqId != 0
  else if p.opcode = 0x14 then one && p.plen == 16 && p.dstOffset % 8 == 0 && p.reqId != 0
  else false)

/-! ### The region table (R295 to R298) -/

/-- One past the last byte of an entry. -/
def RegionEntry.stop (e : RegionEntry) : Nat := e.base + 4096 * e.pages

/-- The entry holds every byte of a range. -/
def RegionEntry.holds (e : RegionEntry) (a n : Nat) : Bool := decide (e.base ≤ a) && decide (a + n ≤ e.stop)

/-- The right and the kinds of Table 11-4. -/
def RegionEntry.grants (e : RegionEntry) (op : Nat) : Bool :=
  if op = 0x10 then e.r && (e.kind == 0 || e.kind == 2)
  else if op = 0x11 then e.w && decide (e.kind ≤ 2)
  else if op = 0x12 ∨ op = 0x13 then e.a && e.kind == 0
  else if op = 0x14 then e.w && e.kind == 0
  else if op = 0x15 then e.m && e.kind == 0
  else false

/-- Operations that replace data are the owner's, on MEMORY and WINDOW entries (R295, R298). -/
def RegionEntry.ownerOk (e : RegionEntry) (op node : Nat) : Bool :=
  !(op == 0x11 || op == 0x14 || op == 0x15) || e.kind == 1 || e.ownerNode == node

end Sys2Proof

namespace Sys2Proof.Machine


/-- Words that the application of an operation to some pieces reads: all of them, or the partial edge words of a store
(Table 11-3). -/
def SliceState.readsPoison (x : SliceState) (p : Packet) (rs : List (Nat × Nat)) : Bool :=
  let a := p.dstOffset
  let n := p.covers
  if p.opcode = opWRITE ∨ p.opcode = opMCAST then
    (a % 8 != 0 && x.poisoned (a / 8 * 8) 8) || ((a + n) % 8 != 0 && x.poisoned ((a + n) / 8 * 8) 8)
  else rs.any fun r => x.poisoned r.1 r.2

/-- The offset of the first poisoned byte of pieces that stand for a range from `off` up. -/
def SliceState.firstPoison (x : SliceState) (off : Nat) : List (Nat × Nat) → Nat
  | [] => off
  | r :: rs =>
    match (List.range r.2).find? fun i => x.poisoned (r.1 + i) 1 with
    | some i => off + i
    | none => x.firstPoison (off + r.2) rs

/-! ### Checks (Table 11-3, R304, R305) -/

/-- What a check finds: the packet passes with the entry it uses, or fails with a NACK reason, an offset and a step. -/
inductive Check where
  | pass (entry : Option Nat)
  | fail (reason off step : Nat)
  deriving DecidableEq, Repr

/-- Steps 1 and 2; for a trusted packet R304 (step 0) and the form. -/
def State.checkEarly (s : State) (p : Packet) : Check :=
  let loaded := match s.job with | some j => p.job == j.job | none => false
  if p.trusted then
    -- a port takes packets from its stream only in UP, which it reaches through AUTH alone (R255, R261)
    if !(loaded || (s.job.isNone && p.job == 0)) then .fail nackPROT p.dstOffset 0
    else if p.formOk then .pass none else .fail nackPROT p.dstOffset 2
  else if !loaded then .fail nackPROT p.dstOffset 1
  else if p.formOk then .pass none else .fail nackPROT p.dstOffset 2

/-- The load map names the range, for the device's own pipeline while it is LOADING (R377). -/
def State.loadAdmits (s : State) (sl : Nat) (p : Packet) : Bool :=
  s.load.st == 1 && p.srcNode == s.pkg.nodeId &&
  s.load.map.any fun m => m.2.any fun o =>
    o.1 == sl && decide (o.2 ≤ p.dstOffset) &&
    decide (p.dstOffset + p.covers ≤ o.2 + ((s.load.manifest.find? fun r => r.id == m.1).elim 0 (·.length)))

/-- A WINDOW entry whose write window is open covers the range (R298, R305). -/
def SliceState.windowAdmits (x : SliceState) (a n : Nat) : Bool :=
  x.tiers.inWindow a n && x.remote.regions.any fun r => r.2.valid && r.2.kind == 2 && r.2.w && r.2.holds a n

/-- The limits of R305. Nothing but a WRITE that the load or a window admits changes the sump or the weight region (R203). -/
def State.trustedOk (s : State) (sl : Nat) (p : Packet) : Bool :=
  let x := s.sl sl
  let a := p.dstOffset
  let n := p.covers
  (p.opcode == opREAD || p.opcode == opWRITE || p.opcode == opREDUCE) &&
  ((inRegion a n .hbm && !deviceRegion a n) || inRegion a n .staging || inRegion a n .sump) &&
  (p.opcode == opREAD || !(regionOf a == .sump || x.tiers.inWeight a n) ||
    (p.opcode == opWRITE && (s.loadAdmits sl p || x.windowAdmits a n)))

/-- Steps 4 to 8, or the limits of a trusted packet and step 8. `m`: the message as it stands. -/
def State.checkLate (s : State) (sl : Nat) (p : Packet) (m : OpenMsg) : Check :=
  let x := s.sl sl
  let a := p.dstOffset
  let n := p.covers
  let rs := (x.ranges? a n).getD [(a, n)]
  let poison (k : Option Nat) : Check := if x.readsPoison p rs then .fail nackPOISON (x.firstPoison a rs) 8 else .pass k
  if p.trusted then (if s.trustedOk sl p then poison none else .fail nackPROT a 5)
  else
    let found := if p.first then x.remote.regions.find? fun r => r.2.valid && r.2.job == p.job && r.2.holds a n
      else match m.entry with
        | some k => x.remote.regions.find? fun r => r.1 == k && r.2.holds a n
        | none => none
    match found with
    | none => .fail nackPROT a 4
    | some (k, e) =>
      if regionOf a = .window && (x.ranges? a n).isNone then .fail nackPROT a 4
      else if p.first && !e.grants p.opcode then .fail nackPROT a 5
      else if p.first && !e.ownerOk p.opcode p.srcNode then .fail nackPROT a 6
      else if e.kind = 2 && p.opcode = opWRITE && !x.tiers.inWindow a n then .fail nackPROT a 7
      else if e.kind = 1 then .pass (some k)
      else poison (some k)

/-! ### The replay filter (R311 to R313) -/

/-- 2 ms in units of 1/256 ns. -/
def twoMs : Nat := 512000000

/-- A source slot that may be released (R311). -/
def FilterSlot.stale (f : FilterSlot) (now wait : Nat) : Bool :=
  f.recs.all fun r => match r.2 with
    | .pending => false
    | .done _ t => decide (t + twoMs + wait < now)

/-- What the filter does with a packet (R312). -/
inductive FilterVerdict where
  | pass | discard | retry | unknown | replay (ans : Packet)
  deriving DecidableEq, Repr

/-- The filter of a slot after an ID: NEWEST moves up, and IDs that fall below the 4,096 records go. -/
def FilterSlot.note (f : FilterSlot) (x : Nat) : FilterSlot :=
  let d := (x + 2 ^ 32 - f.newest) % 2 ^ 32
  if 1 ≤ d ∧ d < 2 ^ 31 then
    { f with newest := x, recs := f.recs.filter fun r => decide ((x + 2 ^ 32 - r.1) % 2 ^ 32 < 4096) }
  else f

/-- The rules of R312: the verdict, and the slots after it. -/
def filterJudge (slots : List FilterSlot) (p : Packet) (now wait : Nat) : FilterVerdict × List FilterSlot :=
  let live := slots.filter fun f => !f.stale now wait
  let src := Packet.src p
  let judge (f0 : FilterSlot) (rest : List FilterSlot) : FilterVerdict × List FilterSlot :=
    let f := f0.note p.reqId
    if 4096 ≤ (f.newest + 2 ^ 32 - p.reqId) % 2 ^ 32 then (.unknown, rest ++ [f])
    else match f.recs.find? fun r => r.1 == p.reqId with
      | none => (.pass, rest ++ [{ f with recs := f.recs ++ [(p.reqId, .pending)] }])
      | some (_, .pending) => (.discard, rest ++ [f])
      | some (_, .done ans t) => (if t + twoMs < now then .unknown else .replay ans, rest ++ [f])
  match live.find? fun f => f.src == src with
  | some f => judge f (live.filter fun g => g.src != src)
  | none =>
    if 4096 ≤ live.length then (.retry, live)
    else if p.retx then (.unknown, live)
    else judge { src := src, newest := (p.reqId + 2 ^ 32 - 1) % 2 ^ 32, recs := [] } live

/-- The units of E2E_TIMEOUT over all the attempts a source makes (R311). -/
def State.retrySpan (s : State) : Nat := s.pkg.e2e * 256000 * (s.pkg.retryLimit + 1)

/-- A record that left the filter as PENDING holds its answer (R312). -/
def FilterSlot.finish (f : FilterSlot) (p ans : Packet) (now : Nat) : FilterSlot :=
  if f.src = Packet.src p then
    { f with recs := f.recs.map fun r => if r.1 == p.reqId && r.2 == .pending then (r.1, .done ans now) else r }
  else f

/-! ### Answers -/

/-- Answer a message for good: the answer is kept for its MSG_ID (R278), and in the filter for a packet that left it as PENDING
(R312). -/
def State.settleMsg (s : State) (sl : Nat) (p : Packet) (op opmod : Nat) (payload : Bytes) : State :=
  let ans := s.answerPacket sl p op opmod payload (p.mark || (((s.sl sl).dstFlow (Packet.src p) (Packet.group p)).msg p.msgId).mark)
  let t := s.completeMsg sl p op opmod payload
  if p.filtered then t.onSl sl fun x => { x with remote := { x.remote with filter := x.remote.filter.map fun f => f.finish p ans s.time.now } }
  else t

/-- Send an answer again (R278, R312). -/
def State.answerAgain (s : State) (sl : Nat) (p ans : Packet) : State := s.sendAnswer sl p ans.opcode ans.opmod ans.payload ans.echo

/-- Count and record a refusal (R299, R305); a packet whose sender R304 does not accept is only answered. -/
def State.noteRefusal (s : State) (sl : Nat) (p : Packet) (off step : Nat) : State :=
  if step = 8 then s.onSl sl fun x => { x with remote := { x.remote with poison := x.remote.poison + 1 } }
  else if step = 0 then s
  else
    let t := s.report sl (mkReport 0x0F 0 0 0 p.ctx [p.srcNode * 8 + p.srcSlice, p.opcode, off, step])
    if p.trusted then t else t.onSl sl fun x => { x with remote := { x.remote with refused := x.remote.refused + 1 } }

/-- Put the message of a packet back into its flow. -/
def State.putMsg (s : State) (sl : Nat) (p : Packet) (m : OpenMsg) : State :=
  s.onSl sl fun x => x.setDstFlow ((x.dstFlow (Packet.src p) (Packet.group p)).setMsg m)

/-- Refuse a packet: the rest of its message is discarded, and the message is answered once, when its last packet is
delivered (R299). One refused before step 3 occupies no filter record (R312). -/
def State.refusePacket (s : State) (sl : Nat) (p : Packet) (m : OpenMsg) (reason off step : Nat) : State :=
  let t := (s.noteRefusal sl p off step).putMsg sl p { m with refused := some (reason, off) }
  if !p.last then t
  else if step < 3 then t.completeMsg sl p opNACK reason (nackPayload reason off)
  else t.settleMsg sl p opNACK reason (nackPayload reason off)

/-! ### Consumers (R124, R273, R298, R332, R382) -/

/-- The collective engine takes every trusted WRITE that falls in the 128 KiB at COLL_RX_BASE (R332). -/
def State.toColl (s : State) (sl : Nat) (p : Packet) : Bool :=
  let b := (s.sl sl).coll.rxBase
  p.trusted && p.opcode == opWRITE && s.job.isSome && decide (b ≤ p.dstOffset) && decide (p.dstOffset < b + 131072)

/-- The load receive window of a slice (R382): nothing is stored there. -/
def toLoader (p : Packet) : Bool :=
  p.trusted && p.opcode == opWRITE && decide (0x7F01F00000 ≤ p.dstOffset) && decide (p.dstOffset < 0x7F02000000)

/-- ITEM_CRC of an item's bytes holds, and so does the CRC of a tile (R380). -/
def itemSound (b : Bytes) : Bool :=
  crc32c (patch b 22 (zeros 4)) == leNat (slice b 22 4) && (b.getD 0 0 != 0x13#8 || tileCrcOk (b.drop 64))

/-- What waits for its application: the memory that the range stands for in this drip, and whether it needs the open window. -/
def SliceState.applyItem (x : SliceState) (p : Packet) (a : Arrival) : ApplyItem :=
  { pkt := p, arr := a, ranges := (x.ranges? p.dstOffset p.covers).getD [(p.dstOffset, p.covers)]
    win := p.opcode == opWRITE && x.tiers.inWindow p.dstOffset p.covers }

/-- A packet that passed its checks goes to its consumer: a receiver that takes whole messages, or the apply queue. -/
def State.consume (s : State) (sl : Nat) (a : Arrival) (p : Packet) (m : OpenMsg) (entry : Option Nat) : State :=
  let m1 := { m with entry := if p.first then entry else m.entry, data := m.data ++ p.payload }
  let sink := match entry with
    | some k => (s.sl sl).remote.regions.any fun r => r.1 == k && r.2.kind == 1
    | none => false
  if sink then
    let t := s.putMsg sl p m1
    if p.last then (t.exchangeReceive sl (Packet.src p) m1.data).settleMsg sl p opACK 0 [] else t
  else if s.toColl sl p then
    let t := s.putMsg sl p m1
    if p.last then (t.collReceive sl (Packet.src p) m1.data).settleMsg sl p opACK 0 [] else t
  else if toLoader p then
    -- R380: an item that fails a CRC is answered NACK ECRC, and its upstream sends it again
    if p.last && !itemSound m1.data then
      (s.putMsg sl p { m1 with data := [], again := true }).sendAnswer sl p opNACK nackECRC (nackPayload nackECRC 0) p.mark
    else
      let t := s.putMsg sl p m1
      if p.last then t.settleMsg sl p opACK 0 [] else t
  else (s.putMsg sl p { m1 with data := [] }).onSl sl fun x => { x with remote := { x.remote with applyQ := x.remote.applyQ ++ [x.applyItem p a] } }

/-- A packet is delivered: its checks in the order of Table 11-3, then its consumer. -/
def State.deliver (s : State) (sl : Nat) (a : Arrival) (p : Packet) : State :=
  let f := (s.sl sl).dstFlow (Packet.src p) (Packet.group p)
  let m0 := f.msg p.msgId
  let m := { m0 with mark := m0.mark || p.mark }
  let seen := s.onSl sl fun x => x.setDstFlow (f.settle p.flowSeq)
  let t := seen.putMsg sl p m
  match m.refused with
  | some (reason, off) => if p.last then t.completeMsg sl p opNACK reason (nackPayload reason off) else t
  | none =>
    match s.checkEarly p with
    | .fail reason off step => t.refusePacket sl p m reason off step
    | .pass _ =>
      let go (v : State) : State :=
        match v.checkLate sl p m with
        | .fail reason off step => v.refusePacket sl p m reason off step
        | .pass k => v.consume sl a p m k
      if p.filtered then
        let (verdict, slots) := filterJudge (s.sl sl).remote.filter p s.time.now s.retrySpan
        let put (v : State) (g : Remote → Remote) : State := v.onSl sl fun x => { x with remote := g { x.remote with filter := slots } }
        match verdict with
        | .pass => go (put t id)
        | .discard => put seen id
        | .retry => (put s fun r => { r with full := r.full + 1 }).sendAnswer sl p opNACK nackRETRY (nackPayload nackRETRY 0) p.mark
        | .unknown => (put t fun r => { r with unknown := r.unknown + 1 }).completeMsg sl p opNACK nackUNKNOWN (nackPayload nackUNKNOWN 0)
        | .replay ans => (put seen fun r => { r with replayed := r.replayed + 1 }).answerAgain sl p ans
      else go t

/-! ### Order of delivery (R273 to R275, R278) -/

/-- Packets held in the reorder tags of a slice. -/
def SliceState.heldCount (x : SliceState) : Nat := (x.fabric.dst.map fun f => f.held.length).sum

/-- Hold a packet that may not be delivered yet: a tag and a buffer of the reorder owner, or it stays where it is (R275). -/
def State.hold (s : State) (sl : Nat) (a : Arrival) (p : Packet) : State :=
  let x := s.sl sl
  let o := (s.img sl).reorderOwner
  if 2048 ≤ x.heldCount then s
  else match x.pools.alloc o (max 1 p.payload.length) [o] 255 with
    | (.granted h c i, q) =>
      (s.takeIngress sl a p).onSl sl fun y =>
        let z := { y with pools := q }.store (q.offset c i) p.payload
        let f := z.dstFlow (Packet.src p) (Packet.group p)
        z.setDstFlow { f with held := f.held ++ [(p, h.toNat)] }
    | (_, q) => s.onSl sl fun y => { y with pools := q }

/-- Free the buffer of a held packet. -/
def SliceState.freeHeld (x : SliceState) (h : Nat) : SliceState :=
  match x.pools.match? h with
  | some b => { x with pools := x.pools.release b.cls b.idx false }
  | none => x

/-- Deliver the held packets of a flow that may now be delivered, with fuel; a full apply queue holds them (R309). -/
def State.deliverHeld (s : State) (sl : Nat) (src : Place) (group : Option Nat) : Nat → State
  | 0 => s
  | n + 1 =>
    let x := s.sl sl
    let f := x.dstFlow src group
    if 1024 ≤ x.remote.applyQ.length then s
    else match f.held.find? fun h => f.ready h.1 with
      | none => s
      | some h =>
        let t := s.onSl sl fun y =>
          let z := y.freeHeld h.2
          let g := z.dstFlow src group
          z.setDstFlow { g with held := g.held.eraseP (· == h) }
        (t.deliver sl .own h.1).deliverHeld sl src group n

/-- Packets of the loaded job from a slice marked lost here (R289). -/
def State.fromLost (s : State) (sl : Nat) (p : Packet) : Bool :=
  s.job.isSome && p.job == s.jobId && (s.sl sl).fabric.lost.contains (Packet.src p)

/-- What the first router of the device discards (R268). -/
def State.routerBad (s : State) (a : Arrival) (p : Packet) : Bool :=
  match a with
  | .port _ => p.ttl == 0 || !s.tableLive p.epoch || decide (4096 < p.plen)
  | _ => false

/-- A trusted packet came over an internal link, or over a port that is UP, which it reaches through AUTH alone, or from whose stream
it was taken while it was (R255, R261, R304). -/
def State.cameIn (s : State) (sl : Nat) (a : Arrival) (p : Packet) : Bool :=
  match a with
  | .port q => (s.link sl (.port q)).st == linkUp || s.waits sl a p
  | _ => true

/-- A trusted packet that came in otherwise has its message refused (R299, R304). -/
def State.refuseStray (s : State) (sl : Nat) (a : Arrival) (p : Packet) : State :=
  if p.trusted && !s.cameIn sl a p then
    s.putMsg sl p { ((s.sl sl).dstFlow (Packet.src p) (Packet.group p)).msg p.msgId with refused := some (nackPROT, p.dstOffset) }
  else s

/-- A REQ packet for this slice is taken from where it waits: discarded, answered, held or delivered. -/
def State.takeReq (s : State) (sl : Nat) (a : Arrival) (p : Packet) : State :=
  let gone := s.takeIngress sl a p
  let src := Packet.src p
  let group := Packet.group p
  let x := s.sl sl
  let f := x.dstFlow src group
  if s.routerBad a p then gone.routerDiscard sl a p
  else if packetEcrc p ≠ p.ecrc then gone.sendAnswer sl p opNACK nackECRC (nackPayload nackECRC 0) p.mark
  else if s.fromLost sl p then (if p.last then gone.sendAnswer sl p opNACK nackLOST (nackPayload nackLOST 0) p.mark else gone)
  else if f.wasSkipped p.flowSeq then gone
  else match (if p.filtered then none else f.completed.find? fun c => c.1 == p.msgId) with
    | some c => gone.answerAgain sl p c.2
    | none =>
      let v := s.refuseStray sl a p
      let in_ := v.takeIngress sl a p
      if f.delivered p.flowSeq then (if p.filtered || (f.msg p.msgId).again then in_.deliver sl a p else gone)
      else if f.held.any fun h => h.1.flowSeq == p.flowSeq then gone
      else if 1024 ≤ x.remote.applyQ.length then s
      else if f.ready p then (in_.deliver sl a p).deliverHeld sl src group (f.held.length + 1)
      else v.hold sl a p

/-- An ingress buffer is served oldest first: each packet that stands before this one is a request for this slice that the receiver
cannot take now, for want of a tag, a buffer or room in the apply queue (R275, R309). -/
def State.inTurn (s : State) (sl : Nat) (a : Arrival) (p : Packet) : Bool :=
  (s.before sl a p).all fun o =>
    netOf o.opcode == .req && Packet.dst o == s.place sl && (s.takeReq sl a o).waits sl a o

/-- The receiver takes a REQ packet whose turn it is; it passes over a waiting one only for a packet that it need not hold (R275). -/
def State.receiveReq (s : State) (sl : Nat) (a : Arrival) (p : Packet) : State :=
  let t := s.takeReq sl a p
  if s.inTurn sl a p && ((s.before sl a p).isEmpty || (t.sl sl).heldCount ≤ (s.sl sl).heldCount) then t else s

/-- A unicast request of one opcode is for this slice. -/
def State.unicastReq (s : State) (sl : Nat) (a : Arrival) (p : Packet) (op : Nat) : State :=
  if p.opcode = op && Packet.dst p == s.place sl then s.receiveReq sl a p else s

/-! ### Application (R308, R309) -/

/-- One element of a REDUCE (R308). -/
def reduceElem (opmod old v : Nat) : Nat :=
  let sx (k : Nat) : Int := (BitVec.ofNat 64 k).toInt
  let f (k : Nat) : F32 := BitVec.ofNat 32 k
  match opmod with
  | 0 => (old + v) % 2 ^ 64
  | 1 => (F32.add (f old) (f v)).toNat
  | 2 => (fBF16.encode ((fBF16.decode old).add (fBF16.decode v))).1
  | 3 => if sx v < sx old then v else old
  | 4 => if sx old < sx v then v else old
  | 5 => (F32.min (f old) (f v)).toNat
  | _ => (F32.max (f old) (f v)).toNat

/-- The bytes a REDUCE leaves. -/
def reduceBytes (opmod : Nat) (old v : Bytes) : Bytes :=
  let z := max 1 (reduceSize opmod)
  (((pieces z old).zip (pieces z v)).map fun e => leBytes z (reduceElem opmod (leNat e.1) (leNat e.2))).flatten

/-- A tile written inside the open write window is noted for its close (R212). -/
def SliceState.noteWritten (x : SliceState) (a n : Nat) : SliceState :=
  if x.tiers.inWindow a n then { x with tiers := { x.tiers with written := x.tiers.written ++ [a] } } else x

/-- A packet is refused when it comes to be applied: what waits of its message goes with it (R299). -/
def State.refuseApply (s : State) (sl : Nat) (p : Packet) (m : OpenMsg) (reason off step : Nat) : State :=
  let mine (o : ApplyItem) : Bool := Packet.src o.pkt == Packet.src p && Packet.group o.pkt == Packet.group p && o.pkt.msgId == p.msgId
  let q := ((s.sl sl).remote.applyQ.filter mine).getLast?.elim p (·.pkt)
  (s.onSl sl fun x => { x with remote := { x.remote with applyQ := x.remote.applyQ.filter fun o => !mine o } }).refusePacket
    sl q m reason off step

/-- Apply an operation to memory and answer it (R308, R309). A word that has been poisoned since the delivery fails step 8 now; a
WRITE that only the open write window let in is refused once the window is closed (R203, R212). -/
def State.applyOp (s : State) (sl : Nat) (o : ApplyItem) : State :=
  let x := s.sl sl
  let p := o.pkt
  let a := p.dstOffset
  let m := (x.dstFlow (Packet.src p) (Packet.group p)).msg p.msgId
  if o.win && !x.tiers.inWindow a p.covers then s.refuseApply sl p m nackPROT a (if p.trusted then 5 else 7)
  else if x.readsPoison p o.ranges then s.refuseApply sl p m nackPOISON (x.firstPoison a o.ranges) 8
  else if p.opcode = opREAD then s.settleMsg sl p opDATA 0 (x.loadRanges o.ranges)
  else if p.opcode = opWRITE ∨ p.opcode = opMCAST then
    let t := s.onSl sl fun y => (y.store a p.payload).noteWritten a p.payload.length
    if p.last then t.settleMsg sl p opACK 0 [] else t
  else if p.opcode = opREDUCE then
    (s.onSl sl fun y => y.store a (reduceBytes p.opmod (y.load a p.payload.length) p.payload)).settleMsg sl p opACK 0 []
  else if p.opcode = opFADD then
    let old := x.loadNat a 4
    let new := (F32.add (BitVec.ofNat 32 old) (BitVec.ofNat 32 (leNat (p.payload.take 4)))).toNat
    (s.onSl sl fun y => y.store a (leBytes 4 new)).settleMsg sl p opRESULT 0 (leBytes 8 old)
  else
    let old := x.loadNat a 8
    let t := if old = leNat (slice p.payload 0 8) then s.onSl sl fun y => y.store a (slice p.payload 8 8) else s
    t.settleMsg sl p opRESULT 0 (leBytes 8 old)

/-- Held packets that waited for room in the apply queue go on. -/
def State.deliverAllHeld (s : State) (sl : Nat) : State :=
  (s.sl sl).fabric.dst.foldl (fun v f => if f.held.isEmpty then v else v.deliverHeld sl f.src f.group (f.held.length + 1)) s

/-! ### Commands -/

/-- READ (R299). -/
def execRead (sl : SliceId) (a : Arrival) (p : Packet) (s : State) : Out := .next (s.unicastReq sl a p opREAD)

/-- WRITE (R299). -/
def execWrite (sl : SliceId) (a : Arrival) (p : Packet) (s : State) : Out := .next (s.unicastReq sl a p opWRITE)

/-- REDUCE (R308). -/
def execReduce (sl : SliceId) (a : Arrival) (p : Packet) (s : State) : Out := .next (s.unicastReq sl a p opREDUCE)

/-- ATOMIC_FADD (R308). -/
def execAtomicFadd (sl : SliceId) (a : Arrival) (p : Packet) (s : State) : Out := .next (s.unicastReq sl a p opFADD)

/-- ATOMIC_CAS (R308). -/
def execAtomicCas (sl : SliceId) (a : Arrival) (p : Packet) (s : State) : Out := .next (s.unicastReq sl a p opCAS)

/-- MCAST_WRITE (R290, R315): on an external port the router makes its copies first, and the slice then takes its own. -/
def execMcastWrite (sl : SliceId) (a : Arrival) (p : Packet) (s : State) : Out :=
  if p.opcode ≠ opMCAST then .next s
  else
    match a with
    | .port _ =>
      let q := { p with ttl := p.ttl - 1 }
      let t := s.forward sl a none p
      let own (v : State) : Bool := (v.sl sl).fabric.inject.any fun k => k.pkt == q
      .next (if !s.inTurn sl a p then s else if own t && !own s then t.receiveReq sl .own q else t)
    | _ => .next (s.receiveReq sl a p)

/-- OPERATION_APPLY (R309): the head of the apply queue is applied and answered. -/
def State.operationApply (s : State) (sl : SliceId) : Out :=
  match (s.sl sl).remote.applyQ with
  | [] => .next s
  | o :: rest =>
    .next (((s.onSl sl fun x => { x with remote := { x.remote with applyQ := rest } }).applyOp sl o).deliverAllHeld sl)

/-- OPERATION_APPLY (R204, R309). The words that its reads find uncorrectable come with the command. -/
def execOperationApply (sl : Reads SliceId) (s : State) : Out := (s.findBad sl.on sl.bad).operationApply sl.on

/-- Settle a skipped range in a flow (R278): held packets of it are dropped, and later ones will be. -/
def SliceState.skipRange (x : SliceState) (src : Place) (msgId first count : Nat) : SliceState :=
  let seqs := (List.range count).map fun i => (first + i) % 65536
  let f := x.dstFlow src none
  let open_ := seqs.filter fun q => !f.delivered q
  let drop := f.held.filter fun h => open_.contains h.1.flowSeq
  let y := drop.foldl (fun z h => z.freeHeld h.2) x
  let g := seqs.foldl DstFlow.settle f
  let k := g.skipped ++ open_.filterMap f.pos
  y.setDstFlow { g with
    held := g.held.filter fun h => !open_.contains h.1.flowSeq
    msgs := g.msgs.filter fun m => m.msgId != msgId || open_.isEmpty
    skipped := k.filter fun n => decide (g.base ≤ n + 32768) }

/-- CTRL_SKIP (R278): the named REQ packets count as delivered. -/
def execCtrlSkip (sl : SliceId) (a : Arrival) (p : Packet) (s : State) : Out :=
  if p.opcode = opCTRL && p.opmod = 1 && Packet.dst p == s.place sl then
    let gone := s.takeIngress sl a p
    let n := leNat (slice p.payload 0 16)
    if s.routerBad a p then .next (gone.routerDiscard sl a p)
    else if packetEcrc p ≠ p.ecrc ∨ bit n 48 = true ∨ s.fromLost sl p = true then .next gone
    else
      let t := gone.onSl sl fun x => x.skipRange (Packet.src p) (bits n 15 0) (bits n 31 16) (bits n 47 32)
      .next (t.deliverHeld sl (Packet.src p) none (((t.sl sl).dstFlow (Packet.src p) none).held.length + 1))
  else .next s

/-! ### Handoff (R301) -/

/-- Change a region table entry. -/
def SliceState.onRegion (x : SliceState) (k : Nat) (f : RegionEntry → RegionEntry) : SliceState :=
  { x with remote := { x.remote with regions := x.remote.regions.map fun r => if r.1 == k then (r.1, f r.2) else r } }

def SliceState.region (x : SliceState) (k : Nat) : RegionEntry :=
  match x.remote.regions.find? fun r => r.1 == k with
  | some r => r.2
  | none => {}

/-- OWNERSHIP_MOVE (R301): at drip H the pending owner takes over. -/
def execOwnershipMove (sl : SliceId) (entry : Nat) (s : State) : Out :=
  let e := (s.sl sl).region entry
  if e.valid && e.pending && !Drip.later e.handoffDrip s.now then
    .next (s.onSl sl fun x => x.onRegion entry fun r => { r with ownerNode := r.nextOwner, pending := false })
  else .next s

/-- HANDOFF (R301): at its launch drip the stage moves the owner and completes, or misses and cancels a pending handoff. -/
def execHandoffStage (sl : SliceId) (i : Nat) (s : State) : Out :=
  match s.actingRun sl i .handoff with
  | none => .next s
  | some (u, t) =>
    let k := u.entry.f.region
    let e := (t.sl sl).region k
    if e.valid && !e.pending then
      .next (t.onSl sl fun x => (x.onRegion k fun r => { r with ownerNode := u.entry.f.newOwner }).completeRun u)
    else
      let v := t.onSl sl fun x => (x.onRegion k fun r => { r with pending := false }).endRun u .missed
      .next { v.report sl (mkReport 0x01 10 0 0 u.entry.ctx) with
        time := { v.time with stageMisses := v.time.stageMisses + 1 } }

end Sys2Proof.Machine
end

