-- ==== Sys2Proof/Machine/Answers.lean ====
section
/-! DEFINITION. The source side of the fabric (R277 to R279, R283, R286 to R289, R300, R317, R318): answers, retransmission,
give-up, multicast outcomes, lost slices and the switch of routing tables. -/

namespace Sys2Proof.Machine

/-! ### Outcomes at the issuer (R92, R103, R104, R107, R300) -/

/-- A thread with nothing outstanding that a FENCE DRAIN holds goes on (R107). -/
def Thread.drained (h : Thread) : Thread :=
  if h.drain && h.xst == 0 && h.other == 0 then { h.wake with drain := false } else h

/-- An XST of the thread has been answered; one that waited to issue may (R92). -/
def Thread.xstDone (h : Thread) : Thread :=
  let k := { h with xst := h.xst - 1 }
  if k.xstWait then { k.wake with xstWait := false } else k.drained

/-- Another remote access of the thread has been answered. -/
def Thread.otherDone (h : Thread) : Thread := ({ h with other := h.other - 1 } : Thread).wake.drained

/-- Pieces of a staged range, with one more (R104); the stage completes with its last. -/
def SliceState.landPiece (x : SliceState) (run a : Nat) (frame : Drip) (b : Bytes) (len : Nat → Nat → Nat) : SliceState :=
  match x.runs.find? fun u => u.idx == run && u.frame == frame && u.entry.kind == .rangePrefetch && u.st == .launched with
  | none => x
  | some u =>
    let ps0 := u.entry.f.prefetchSet
    let r := u.entry.f.range
    let old := ((x.tiers.staged.find? fun k => k.1 == ps0 && k.2.1 == r).elim [] fun k => k.2.2).filter fun p => p.1 != a
    let ps := old ++ [(a, b)]
    let y := { x with tiers := { x.tiers with
      staged := (x.tiers.staged.filter fun k => !(k.1 == ps0 && k.2.1 == r)) ++ [(ps0, r, ps)] } }
    if len ps0 r ≤ (ps.map fun p => p.2.length).sum then y.completeRun u else y

/-- A remote operation completed at its issuer. -/
def State.issuerDone (s : State) (sl : Nat) (i : Issuer) (req : Option Packet) (dst : Place) (data : Bytes) : State :=
  match i with
  | .thread e t kind reg addr _ =>
    match kind with
    | 0 | 4 | 5 => s.onThread sl e t fun h => (h.setReg reg (BitVec.ofNat 64 (leNat (data.take 8)))).otherDone
    | 1 => s.onThread sl e t Thread.xstDone
    | 2 => s.onSl sl fun x => (x.store (engineAddr e addr) data).onThread e t Thread.otherDone
    | _ => s.onThread sl e t Thread.otherDone
  | .coll run _ frame =>
    -- the ACK of a RESULT chunk (R335)
    match req with
    | some p =>
      let n := leNat (slice p.payload 0 64)
      if chKind n = 0x0A then
        let put (c : CollStep) : CollStep :=
          if c.run == run && c.desc.collId == chColl n && c.frame == frame then
            { c with owed := c.owed.filter fun o => o != (dst, chChunk n) }
          else c
        s.onSl sl fun x => { x with coll := { x.coll with steps := x.coll.steps.map put } }
      else s
    | none => s
  | .prefetch run addr frame => s.onSl sl fun x => x.landPiece run addr frame data fun ps0 r =>
      (((s.img sl).prefetchSets.getD (ps0 - 1) []).getD r default).len
  | .load seq => { s with load := { s.load with forwarded := s.load.forwarded.filter fun i => decide (seq < i.seq) } }
  | .inject _ _ | .halted _ | .none => s

/-- A remote operation failed at its issuer with a status (R103, R300, R341). -/
def State.issuerFail (s : State) (sl : Nat) (i : Issuer) (st : Status) : State :=
  let tied (run : Nat) (frame : Drip) : State :=
    match (s.sl sl).runs.find? fun u => u.idx == run && u.frame == frame && (u.st == .launched || u.st == .completed) with
    | some u => s.endTied sl u s.now (s.now.plus 1) st
    | none => s
  match i with
  | .thread e t _ _ _ _ => s.endThreadWith sl e t st
  | .halted u =>
    -- the thread has halted: its phase answers, as it would for a live one (R103)
    let t := s.endTied sl u s.now (s.now.plus 1) st
    if u.entry.ctx < 255 then { t with tears := t.tears ++ [(u.entry.ctx, s.now.plus 1)] } else t
  | .inject run frame => tied run frame
  | .prefetch run _ frame => tied run frame
  | .coll _ id frame => s.endInstance sl id frame st (s.now.plus 1)
  | .load _ => { s with load := { s.load with stopped := true } }
  | .none => s

/-! ### Answers (R276, R277, R283, R300) -/

/-- The message an answer belongs to: a unicast one to the answering slice, else a multicast one that waits for it. -/
def State.answered? (s : State) (sl : Nat) (p : Packet) : Option OutMsg :=
  let x := s.sl sl
  let src := Packet.src p
  match x.fabric.outMsgs.find? fun m => m.group.isNone && m.dst == src && m.msgId == p.msgId with
  | some m => some m
  | none => x.fabric.outMsgs.find? fun m => m.group.isSome && m.msgId == p.msgId &&
      x.remote.mcast.any fun k => some k.group == m.group && k.msgId == m.msgId && k.members.any fun e => e.1 == src && e.2.isNone

/-- Opcode of the request of a message. -/
def OutMsg.op (m : OutMsg) : Nat := match m.packets with | p :: _ => p.opcode | [] => 0

/-- Whether the request is a reduction or an atomic. -/
def OutMsg.filtered (m : OutMsg) : Bool := match m.packets with | p :: _ => p.filtered | [] => false

/-- A message leaves the list of those unanswered. -/
def State.dropOut (s : State) (sl : Nat) (m : OutMsg) : State :=
  s.onSl sl fun x => { x with fabric := { x.fabric with outMsgs := x.fabric.outMsgs.eraseP fun o => o.is m.dst m.group && o.msgId == m.msgId } }

/-- A REMOTE_UNKNOWN that the issuer reports is counted (R300). -/
def State.countUnknown (s : State) (sl : Nat) (st : Status) : State :=
  if st = .remoteUnknown then s.onSl sl fun x => { x with remote := { x.remote with unknownIssued := x.remote.unknownIssued + 1 } } else s

/-- End a unicast message with a status. -/
def State.failMsg (s : State) (sl : Nat) (m : OutMsg) (st : Status) : State :=
  (((s.dropOut sl m).countUnknown sl st).issuerFail sl m.issuer st).releaseHeld sl m.dst

/-- Mark a member of a multicast message: 0 completed, else the code of the reason it is missing (R317). -/
def State.markMember (s : State) (sl g msgId : Nat) (who : Place → Bool) (code : Nat) (echo : Bool) : State :=
  let put (k : McastMsg) : McastMsg :=
    if k.group == g && k.msgId == msgId then
      { k with echo := k.echo || echo, members := k.members.map fun e => if who e.1 && e.2.isNone then (e.1, some code) else e }
    else k
  s.onSl sl fun x => { x with remote := { x.remote with mcast := x.remote.mcast.map put } }

/-- The source gives up on a message (R277 to R279, R288, R317). A CTRL SKIP names the flow to one destination slice (Table
10-6), so none goes out for the flow of a multicast group (DEDUCED, log 127). -/
def State.giveUp (s : State) (sl : Nat) (m : OutMsg) : State :=
  let t := s.onSl sl fun x => { x with fabric := { x.fabric with giveups := x.fabric.giveups + 1 } }
  match m.group with
  | some g => t.markMember sl g m.msgId (fun _ => true) 0x15 true
  | none =>
    let u := t.sendCtrl sl m.dst 1 (skipPayload m.msgId m.firstSeq m.packets.length)
    let v := u.failMsg sl m (if m.filtered then .remoteUnknown else .fabricLost)
    v.detectLoss m.dst.node (2 ^ m.dst.slice)

/-- A message is due to be sent again, or given up (R277, R279). -/
def State.retryOrGiveUp (s : State) (sl : Nat) (m : OutMsg) : State :=
  if s.still.on || decide (s.pkg.retryLimit ≤ m.retries) then s.giveUp sl m else s.resendMsg sl m

/-- NACK RETRY or NACK ECRC (R277); in still-water mode it ends the message with FABRIC_LOST and a SKIP (R279, R300). -/
def State.nackRetry (s : State) (sl : Nat) (m : OutMsg) : State :=
  if s.still.on && m.group.isNone then
    (s.sendCtrl sl m.dst 1 (skipPayload m.msgId m.firstSeq m.packets.length)).failMsg sl m .fabricLost
  else s.retryOrGiveUp sl m

/-- The status of a NACK that ends a message (Table 11-6). -/
def nackStatus (m : OutMsg) (reason : Nat) : Status :=
  if reason = nackPROT then .protection
  else if reason = nackPOISON then .fault
  else if reason = nackUNKNOWN then .remoteUnknown
  else if m.filtered && m.retxed then .remoteUnknown else .fabricLost

/-- The answer opcode that completes a request. -/
def answerOp (op : Nat) : Nat := if op = opREAD then opDATA else if op = opFADD ∨ op = opCAS then opRESULT else opACK

/-- An answer arrives for a message. -/
def State.takeAnswer (s : State) (sl : Nat) (p : Packet) (m : OutMsg) : State :=
  let retry := p.opcode == opNACK && (p.opmod == nackRETRY || p.opmod == nackECRC)
  match m.group with
  | none =>
    let t := s.windowAnswer sl m (p.echo || (p.opcode == opNACK && p.opmod == nackRETRY))
    if retry then t.nackRetry sl m
    else if p.opcode = opNACK then t.failMsg sl m (nackStatus m p.opmod)
    else ((t.dropOut sl m).issuerDone sl m.issuer m.packets.head? m.dst p.payload).releaseHeld sl m.dst
  | some g =>
    if retry then
      let v := s.windowAnswer sl m (p.echo || p.opmod == nackRETRY)
      v.retryOrGiveUp sl { m with settled := true }
    else s.markMember sl g m.msgId (· == Packet.src p) (if p.opcode = opNACK then (nackStatus m p.opmod).code else 0) p.echo

/-- An RSP packet for this slice is taken in its turn (R268, R275, R276, R278): a bad one, or one for no message, is discarded. -/
def State.receiveRsp (s : State) (sl : Nat) (a : Arrival) (p : Packet) (op : Nat) : State :=
  if p.opcode = op && Packet.dst p == s.place sl && (s.before sl a p).isEmpty then
    let gone := s.takeIngress sl a p
    if s.routerBad a p then gone.routerDiscard sl a p
    else if packetEcrc p ≠ p.ecrc || s.fromLost sl p then gone
    else match s.answered? sl p with
      | some m =>
        if op = opNACK && (decide (p.opmod < 1) || decide (6 < p.opmod)) then gone
        else if op = opNACK || answerOp m.op == op then gone.takeAnswer sl p m
        else gone
      | none => gone
  else s

/-- READ_DATA (R300). -/
def execReadData (sl : SliceId) (a : Arrival) (p : Packet) (s : State) : Out := .next (s.receiveRsp sl a p opDATA)

/-- ACK (R300). -/
def execAck (sl : SliceId) (a : Arrival) (p : Packet) (s : State) : Out := .next (s.receiveRsp sl a p opACK)

/-- NACK (R300). -/
def execNack (sl : SliceId) (a : Arrival) (p : Packet) (s : State) : Out := .next (s.receiveRsp sl a p opNACK)

/-- ATOMIC_RESULT (R300). -/
def execAtomicResult (sl : SliceId) (a : Arrival) (p : Packet) (s : State) : Out := .next (s.receiveRsp sl a p opRESULT)

/-- E2E_TIMEOUT (R277, R279, R283): a message that has waited E2E_TIMEOUT is sent again or given up. A multicast message is
named by its group's global address. -/
def execE2eTimeout (sl : SliceId) (dst : Place) (msgId : Nat) (s : State) : Out :=
  let x := s.sl sl
  let waits (m : OutMsg) : Bool := match m.group with
    | none => m.dst == dst
    | some g => dst.node == 0xFFC00 + g && x.remote.mcast.any fun k => k.group == g && k.msgId == m.msgId && k.members.any fun e => e.2.isNone
  match x.fabric.outMsgs.find? fun m => m.msgId == msgId && waits m with
  | none => .next s
  | some m => .next ((s.windowAnswer sl m true).retryOrGiveUp sl { m with settled := true })

/-- WINDOWED_SEND (R283): the oldest message that waits for the window of its flow leaves once it fits. -/
def execWindowedSend (sl : SliceId) (dst : Place) (s : State) : Out := .next (s.releaseOne sl dst)

/-! ### Multicast outcomes (R317 to R319) -/

/-- A partial record entry (Table 11-7). -/
def partialEntry (p : Place) (code g : Nat) : Nat :=
  field p.node 20 0 + field p.slice 3 20 + field code 8 24 + field g 10 32

/-- Missing members are appended to the partial record of a request: 64 are listed, the rest are counted (R318). -/
def Request.addPartials (r : Request) (es : List Nat) : Request :=
  let room := 64 - r.partials.length
  { r with partials := r.partials ++ es.take room, missing := r.missing + (es.length - room) }

/-- MCAST_COMPLETE (R318): every member has completed or is missing. -/
def execMcastComplete (sl : SliceId) (g msgId : Nat) (s : State) : Out :=
  match (s.sl sl).remote.mcast.find? fun k => k.group == g && k.msgId == msgId with
  | none => .next s
  | some k =>
    if k.members.any fun e => e.2.isNone then .next s
    else
      let t := s.onSl sl fun x => { x with remote := { x.remote with mcast := x.remote.mcast.filter fun o => !(o.group == g && o.msgId == msgId) } }
      let m? := (s.sl sl).fabric.outMsgs.find? fun m => m.group == some g && m.msgId == msgId
      let u : State := match m? with
        | some m => (t.windowAnswer sl m k.echo).dropOut sl m
        | none => t
      let iss : Issuer := match m? with | some m => m.issuer | none => .none
      let dst : Place := match m? with | some m => m.dst | none => default
      let missing := k.members.filter fun e => e.2 != some 0
      let done := k.members.length - missing.length
      let finish (v : State) : State := (v.issuerDone sl iss none dst []).releaseHeld sl dst
      if missing.isEmpty then .next (finish u)
      else
        let codes := missing.map fun e => e.2.getD 0
        let v := if 0 < done then u.onSl sl fun x => { x with remote := { x.remote with mcastPartial := x.remote.mcastPartial + 1 } } else u
        if k.ctx = 255 then .next (finish (v.report sl (mkReport 0x0F 0 0)))
        else if 0 < done then
          let es := missing.map fun e => partialEntry e.1 (e.2.getD 0) g
          -- its output, when it comes, ends the request with PARTIAL (R10, R319)
          .next (finish (v.onAll fun x => x.onReqs fun r => if r.isCtx k.ctx && r.frame == k.frame then r.addPartials es else r))
        else
          let st := Status.ofCode (codes.foldl min 255)
          .next ((v.eachSlice fun w i => w.endNext i (fun r => r.isCtx k.ctx && r.frame == k.frame) st).issuerFail sl iss st)

/-! ### Lost slices (R288, R289) -/

/-- A CTRL LOST notice is taken for its effective drip; one that comes late takes effect at the next drip and is recorded. -/
def State.takeLost (s : State) (p : Packet) : State :=
  let n := leNat (slice p.payload 0 16)
  let eff : Drip := BitVec.ofNat 48 (bits n 111 64)
  if s.job.isNone ∨ bits n 15 0 ≠ s.jobId then s
  else
    let late := Drip.later s.now eff
    let t := { s with pkg := { s.pkg with
      notices := s.pkg.notices ++ [(bits n 35 16, bits n 43 36, if late then s.now.plus 1 else eff)] } }
    if late then t.report 0 (mkReport 0x0E 13 0) else t

/-- A packet leaves whatever ingress buffer of the device holds it. -/
def State.takeAnywhere (s : State) (p : Packet) : State :=
  s.eachSlice fun v i =>
    let w := (List.range 8).foldl (fun u q => u.takeIngress i (.port (Fin.ofNat 8 q)) p) v
    let y := (List.range 8).foldl (fun u q => u.takeIngress i (.link (Fin.ofNat 8 q)) p) w
    y.takeIngress i .own p

/-- CTRL_LOST (R288): the notice is applied to every slice of the device. -/
def execCtrlLost (p : Packet) (s : State) : Out :=
  if p.opcode = opCTRL && p.opmod = 0 && p.dstNode == s.pkg.nodeId then
    let t := s.takeAnywhere p
    .next (if packetEcrc p = p.ecrc && !s.fromLost p.dstSlice p then t.takeLost p else t)
  else .next s

/-- LOSS_HOLD_EXPIRY (R288): a node of the job has had no eligible port for LOSS_HOLD. -/
def execLossHoldExpiry (node : Nat) (s : State) : Out :=
  match s.job with
  | none => .next s
  | some j =>
    .next (if node ≠ s.pkg.nodeId && j.nodes.contains node && (s.eligible node s.pkg.routeActive).isEmpty then s.detectLoss node 255 else s)

/-- A slice of the device marks places lost: sections of theirs are settled (R134), counts they owe are no longer waited for
(R75), and collectives with a lost member end (R341). -/
def State.markLost (s : State) (sl : Nat) (ps : List Place) : State :=
  let new := ps.filter fun p => !(s.sl sl).fabric.lost.contains p
  if new.isEmpty then s
  else
    let t := s.onSl sl fun x => { x with fabric := { x.fabric with lost := x.fabric.lost ++ new } }
    let u := t.settleLost sl fun p => new.contains p
    let y := u.sl sl
    let waiting : List (Nat × Nat) := (y.runs.filterMap fun r =>
      match r.entry.f.layer with
      | some l => if r.entry.f.role == .grant && !r.over then (y.selectTag r.frame l).map fun g => (l, g) else none
      | none => none).eraseDups
    let v0 := waiting.foldl (fun (w : State) k => w.checkCounts sl k.1 k.2) u
    -- the mark takes effect at the boundary of its drip: what it makes present is present for a launch at that drip
    let v := v0.onSl sl fun z => { z with flagsAt := z.flagsAt ++ z.flags.filter fun f => !(s.sl sl).flags.contains f && !z.flagsAt.contains f }
    ((v.sl sl).coll.steps.filter fun c => !c.completed && c.group.members.any fun p => new.contains p).foldl
      (fun w c => w.endInstance sl c.desc.collId c.frame .fabricLost w.now) v

/-- LOST_MARK (R288, R289): at the effective drip the named slices are marked lost on every slice; the requests of a slice of
this device that is named end. -/
def execLostMark (s : State) : Out :=
  let due := s.pkg.notices.filter fun n => !Drip.later n.2.2 s.now
  if due.isEmpty then .next s
  else
    let ps : List Place := (due.map fun n => (setBits 8 n.2.1).map fun k => ({ node := n.1, slice := k } : Place)).flatten.eraseDups
    let t := { s with pkg := { s.pkg with notices := s.pkg.notices.filter fun n => Drip.later n.2.2 s.now } }
    let u := t.eachSlice fun v i => v.markLost i ps
    .next ((ps.filter fun p => p.node == s.pkg.nodeId).foldl
      (fun v p => v.endReqs p.slice (fun _ => true) v.now v.now .fabricLost) u)

/-! ### Forwarding and tables (R271, R286, R290) -/

/-- ROUTER_FORWARD (R268, R271, R272, R275, R290): a router takes a packet in its turn and queues it, or its copies. A CTRL LOST for this
node is consumed (R288), and discarded where a slice that is marked lost sent it (R289). A TIME packet is consumed: the device has taken
what it says as it came in (R269). -/
def execRouterForward (sl : SliceId) (a : Arrival) (p : Packet) (s : State) : Out :=
  let r := s.routeWord sl a p
  if p.opcode = opCTRL && p.opmod = 0 && p.dstNode == s.pkg.nodeId && !s.routerBad a p then
    let gone := s.takeIngress sl a p
    .next (if packetEcrc p = p.ecrc && !s.fromLost sl p then gone.takeLost p else gone)
  else if p.opcode = opTIME then .next (s.takeIngress sl a p)
  else .next (if s.inTurn sl a p then s.forward sl a r p else s)

/-- ROUTE_SWITCH (R286): at the switch drip the other table becomes active, and the previous one drains. -/
def execRouteSwitch (s : State) : Out :=
  match s.pkg.routeSwitch with
  | none => .next s
  | some d =>
    if Drip.later d s.now then .next s
    else .next { s with pkg := { s.pkg with
      routeActive := 1 - s.pkg.routeActive, routeSwitch := none, drainEnd := some (d.plus s.pkg.routeDrain) } }

/-- ROUTE_DRAIN_END (R286): the previous table is live no more. -/
def execRouteDrainEnd (s : State) : Out :=
  match s.pkg.drainEnd with
  | none => .next s
  | some d => if Drip.later d s.now then .next s else .next { s with pkg := { s.pkg with drainEnd := none } }

end Sys2Proof.Machine
end

