-- ==== Sys2Proof/Machine/Service.lean ====
section
/-! DEFINITION. Contexts, the command ledger, requests and completion rings (chapter 13), and the digests of a request and of
a slice (R404 to R407). -/

namespace Sys2Proof.Machine

/-! ### Command records (Table 13-3) -/

def Cmd.word (c : Cmd) (i : Nat) : Nat := c.words.getD i 0
def Cmd.wantsDigest (c : Cmd) : Bool := (c.word 0).testBit 16
def Cmd.noSqueeze (c : Cmd) : Bool := (c.word 0).testBit 17
def Cmd.indirect (c : Cmd) : Bool := (c.word 0).testBit 18
def Cmd.rows (c : Cmd) : Nat := bits (c.word 1) 10 0
def Cmd.deadline (c : Cmd) : Drip := BitVec.ofNat 48 (bits (c.word 1) 63 16)
def Cmd.ring (c : Cmd) : Nat := bits (c.word 1) 5 0
def Cmd.owner (c : Cmd) : Nat := bits (c.word 1) 11 6
def Cmd.hostA (c : Cmd) : Nat := c.word 2
def Cmd.hostB (c : Cmd) : Nat := c.word 3
def Cmd.dev (c : Cmd) : Nat := bits (c.word 4) 40 0
def Cmd.sqzFrom (c : Cmd) : Nat := bits (c.word 4) 7 0
def Cmd.sqzForce (c : Cmd) : Bool := (c.word 4).testBit 8
def Cmd.length (c : Cmd) : Nat := bits (c.word 5) 31 0
def Cmd.lenAddr (c : Cmd) : Nat := bits (c.word 6) 40 0
def Cmd.lenShift (c : Cmd) : Nat := bits (c.word 6) 45 41

/-- Bits of word `i` that a command of a kind uses; every other bit is reserved (Table 13-3). -/
def cmdMask (kind i : Nat) : Nat :=
  let all := 2 ^ 64 - 1
  match i with
  | 0 => if kind = 1 then all else if kind = 5 then all - 3 * 2 ^ 16 else all - 0xFFFF0000
  | 1 => if kind = 1 then all - 31 * 2 ^ 11 else if kind = 2 ∨ kind = 5 then 1 else if kind = 3 then 0xFFF else 0
  | 2 => if kind = 1 ∨ kind = 3 ∨ kind = 5 then all else 0
  | 3 => if kind = 1 then all else 0
  | 4 => if kind = 1 then 0x1FF else if kind = 5 then 2 ^ 41 - 1 else 0
  | 5 => if kind = 2 ∨ kind = 5 then 2 ^ 32 - 1 else 0
  | 6 => if kind = 1 then 2 ^ 41 - 1 else if kind = 5 then 2 ^ 46 - 1 else 0
  | _ => 1 + 0xFFFFFFFF * 2 ^ 16

/-- The REASON with which an accepted record ends at once, if it does (R360, Table 13-5): 1 RECORD, 2 FIELD. `t` is T. -/
def recordFault (b : Bytes) (c : Cmd) (t : Nat) : Option Nat :=
  if c.kind = 0 || 5 < c.kind || bits (c.word 7) 47 16 != crc32c (b.take 56) ||
      (List.range 8).any (fun i => c.word i &&& (cmdMask c.kind i) != c.word i) then some 1
  else if (c.kind = 1 && (c.rows = 0 || t < c.rows)) || ((c.kind = 3 || c.kind = 4) && c.ctx = 255) ||
      ((c.kind = 1 || c.kind = 5) && c.indirect && c.lenAddr % 4 != 0) || (c.kind = 3 && c.hostA % 64 != 0) then some 2
  else none

/-- T: token rows of a slice; with no job loaded the field's own range is all that bounds ROWS. -/
def State.tokenRows (s : State) : Nat := match s.job with | some j => j.rows | none => 1024

/-- The ring of a command's completion: a CTX_OPEN's is the one it names, or ring 0 where that ring is not enabled and the open is
refused for it (R355, R364). -/
def State.cmdRing (s : State) (c : Cmd) : Nat :=
  if c.kind = 3 then (if s.ctxState c.ctx = 0 ∧ (s.host.rings.getD c.ring {}).enable = false then 0 else c.ring) else s.ctxRing c.ctx

/-! ### The scan (R359 to R361) -/

/-- Change the sequencer of a slice. -/
def State.onSvc (s : State) (sl : Nat) (f : Service → Service) : State := s.onSl sl fun x => { x with svc := f x.svc }

/-- The lowest of the 4,096 pending-queue slots that no command and no request holds (Table 13-1). -/
def Service.freeSlot (v : Service) : Option Nat :=
  let used := v.pending.map (·.slot) ++ v.reqs.map (·.slot) ++ v.copies.map fun k => k.1.slot
  (List.range (min 4096 (used.length + 1))).find? fun i => !used.contains i

/-- The scan over at most `n` records, from LEDGER_HEAD (R359, R360). -/
def State.scanFrom (sl : Nat) : Nat → State → State
  | 0, s => s
  | n + 1, s =>
    let v := (s.sl sl).svc
    let b := (s.sl sl).load (v.ledgerBase + 64 * v.ledgerHead) 64
    let w := (List.range 8).map fun i => leNat (slice b (8 * i) 8)
    let w0 := w.getD 0 0
    let c : Cmd := { slot := v.freeSlot.getD 0, kind := bits w0 7 0, ctx := bits w0 15 8, tag := bits w0 63 32, words := w,
                     ledgerIndex := v.ledgerHead, acceptDrip := s.now, seq := v.accepted }
    let bad := recordFault b c s.tokenRows
    -- a record whose CRC fails is no CTX_OPEN, whatever its KIND reads
    let ring := if bits (c.word 7) 47 16 != crc32c (b.take 56) then s.ctxRing c.ctx else s.cmdRing c
    if (w.getD 7 0).testBit 0 != v.ledgerPhase || 4096 ≤ v.pending.length || v.freeSlot.isNone ||
        4096 ≤ s.ringHeld (s.host.rings.getD ring {}) then s
    else
      let wraps := v.ledgerEntries ≤ v.ledgerHead + 1
      let t := s.onSvc sl fun v => { v with
        ledgerHead := if wraps then 0 else v.ledgerHead + 1
        ledgerPhase := v.ledgerPhase != wraps
        accepted := v.accepted + 1 }
      match bad with
      | some r => State.scanFrom sl n (t.completeCmd sl c .fault r (some ring))
      | none =>
        let waits := (c.kind = 1 || c.kind = 5) && w0.testBit 19
        let d := { c with waitFlag := if waits then some (bits w0 31 20) else none }
        State.scanFrom sl n (t.onSvc sl fun v => { v with pending := v.pending ++ [d] })

/-- Commands that wait for a flag act at the first scan at which it is set and no earlier command of their context still
waits; the flags are cleared at the end of the scan (R361, R534). -/
def SliceState.releaseWaits (x : SliceState) : SliceState :=
  let step (acc : List Cmd × List Nat × List Nat) (c : Cmd) : List Cmd × List Nat × List Nat :=
    match c.waitFlag with
    | none => (acc.1 ++ [c], acc.2)
    | some f =>
      if x.flags.contains f && x.flagsAt.contains f && !acc.2.1.contains c.ctx then (acc.1 ++ [{ c with waitFlag := none }], acc.2.1, acc.2.2 ++ [f])
      else (acc.1 ++ [c], acc.2.1 ++ [c.ctx], acc.2.2)
  let r := x.svc.pending.foldl step ([], [], [])
  r.2.2.foldl SliceState.clearFlag { x with svc := { x.svc with pending := r.1 } }

/-- LEDGER_SCAN (R359). -/
def execLedgerScan (sl : SliceId) (s : State) : Out :=
  let v := (s.sl sl).svc
  if s.now.toNat % max 1 v.scanDrips != 0 then .next s
  else
    let t := if v.ledgerEnable then State.scanFrom sl v.scanMax s else s
    .next (t.onSl sl SliceState.releaseWaits)

/-- A command is held back: it waits for its flag, or an earlier command of its context does (R361). -/
def Service.held (v : Service) (c : Cmd) : Bool :=
  c.waitFlag.isSome || v.pending.any fun d => decide (d.seq < c.seq) && d.ctx == c.ctx && d.waitFlag.isSome

/-- A command may act: it is not held back, and every earlier command has acted or is held back on another context (R361). A
SUBMIT that waits for admission has acted. -/
def Service.ready (v : Service) (c : Cmd) : Bool :=
  !c.queued && !v.held c &&
  v.pending.all fun d => decide (c.seq ≤ d.seq) || d.queued || (d.ctx != c.ctx && v.held d)

/-- The command of a kind in a slot, if it may act. -/
def State.actingCmd (s : State) (sl i kind : Nat) : Option Cmd :=
  let v := (s.sl sl).svc
  v.pending.find? fun c => c.slot == i && c.kind == kind && v.ready c

/-- A command leaves the pending queue. -/
def State.dropCmd (s : State) (sl : Nat) (c : Cmd) : State :=
  s.onSvc sl fun v => { v with pending := v.pending.filter fun d => d.slot != c.slot }

/-- A command ends: it leaves the queue and its completion is owed. -/
def State.endCmd (s : State) (sl : Nat) (c : Cmd) (st : Status) (reason : Nat) : State :=
  (s.dropCmd sl c).completeCmd sl c st reason

/-! ### SUBMIT and CANCEL (R352, R354, R367) -/

/-- SUBMIT: the request is queued for admission, or ends where its context forbids it (Table 13-2) or where it asks for a
digest that the image does not form (R406). -/
def execSubmit (sl : SliceId) (i : Nat) (s : State) : Out :=
  match s.actingCmd sl i 1 with
  | none => .next s
  | some c =>
    let st := s.ctxState c.ctx
    if st = 0 ∨ st = 3 then .next (s.endCmd sl c .fault 3)
    else if c.wantsDigest && !(s.img sl).entries.any (fun e => e.kind == .passDigest) then .next (s.endCmd sl c .fault 2)
    else .next (s.onSvc sl fun v => { v with pending := v.pending.map fun d => if d.slot == i then { d with queued := true } else d })

/-- One command was accepted before another: by drip, then slice, then order at the slice (R361, R365). -/
def acceptedBefore (a : Nat × Cmd) (b : Nat × Cmd) : Bool :=
  Drip.later b.2.acceptDrip a.2.acceptDrip ||
  (a.2.acceptDrip == b.2.acceptDrip && (decide (a.1 < b.1) || (a.1 == b.1 && decide (a.2.seq < b.2.seq))))

/-- The pending SUBMITs of a context accepted before a command end with CANCELLED; those `p` picks. -/
def State.cancelPending (s : State) (p : Nat → Cmd → Bool) : State :=
  s.eachSlice fun t i =>
    ((t.sl i).svc.pending.filter fun c => c.kind == 1 && p i c).foldl (fun u c => u.endCmd i c .cancelled 0) t

/-- The MoE layers of a slice. -/
def State.moeLayers (s : State) (sl : Nat) : List Nat := (s.img sl).layers.map (·.layer)

/-- The last layer boundary of the pass has been taken at a slice, or there is none (R367). -/
def State.lastBoundaryPast (s : State) (sl : Nat) : Bool :=
  (s.moeLayers sl).all fun l => (s.sl sl).svc.boundaries.contains l

/-- CANCEL (Table 13-6): pending requests end at once; an admitted one is cancelled at its slice's next layer boundary. -/
def execCancel (sl : SliceId) (i : Nat) (s : State) : Out :=
  match s.actingCmd sl i 2 with
  | none => .next s
  | some c =>
    let mine (j : Nat) (d : Cmd) : Bool :=
      d.ctx == c.ctx && acceptedBefore (j, d) (sl.val, c) && ((c.word 1).testBit 0 || d.tag == bits (c.word 5) 31 0)
    let admitted (j : Nat) (r : Request) : Bool := mine j r.cmd && !r.ended && !r.outputDone && !s.lastBoundaryPast j
    let hit := (List.range 8).any fun j =>
      (s.sl j).svc.pending.any (fun d => d.kind == 1 && mine j d) || (s.sl j).svc.reqs.any (admitted j)
    if hit then
      let t := (s.cancelPending mine).eachSlice fun u j =>
        u.onSl j fun x => x.onReqs fun r => if admitted j r then { r with cancel := true } else r
      .next (t.endCmd sl c .ok 0)
    else .next (s.endCmd sl c .fault 5)

/-! ### Contexts (R354 to R357) -/

/-- Open a context (R355): from OFF it is bound and enters STARTING, or is refused; in STARTING or ON nothing changes; in
STOPPING the open is deferred. -/
def State.openCtx (s : State) (sl : Nat) (c : Cmd) : State :=
  match s.ctxState c.ctx with
  | 0 =>
    if !(s.host.rings.getD c.ring {}).enable then s.completeCmd sl c .fault 2 (some 0)
    else if ((s.sl sl).pools.owner c.owner).kind != 1 then s.completeCmd sl c .fault 2 (some c.ring)
    else
      let x : Ctx := { ctx := c.ctx, st := 1, ring := c.ring, owner := c.owner, area := c.hostA, opens := [(sl, c)] }
      { s.onAll (fun y => { y with svc := { y.svc with endCodes := y.svc.endCodes.filter fun e => e.1 != c.ctx } }) with
        ctxs := (s.ctxs.filter fun y => y.ctx != c.ctx) ++ [x] }
  | 3 => s.onCtx c.ctx fun x => { x with deferred := x.deferred ++ [(sl, c)] }
  | _ => s.completeCmd sl c .ok 0 (some c.ring)

/-- CTX_OPEN (R355). -/
def execCtxOpen (sl : SliceId) (i : Nat) (s : State) : Out :=
  match s.actingCmd sl i 3 with
  | none => .next s
  | some c => .next ((s.dropCmd sl c).openCtx sl c)

/-- A context enters STOPPING; an open still owed its completion ends with CANCELLED. -/
def State.stopCtx (s : State) (c : Nat) : State :=
  let owed := match s.ctx? c with | some x => x.opens | none => []
  let t := owed.foldl (fun (u : State) o => u.completeCmd o.1 o.2 .cancelled 0 (some o.2.ring)) s
  t.onCtx c fun x => { x with st := 3, opens := [] }

/-- CTX_CLOSE (R356). -/
def execCtxClose (sl : SliceId) (i : Nat) (s : State) : Out :=
  match s.actingCmd sl i 4 with
  | none => .next s
  | some c =>
    let st := s.ctxState c.ctx
    if st = 0 then .next (s.endCmd sl c .ok 0)
    else
      let t := (s.dropCmd sl c).onCtx c.ctx fun x => { x with closes := x.closes ++ [(sl.val, c)] }
      if st = 3 then .next t
      else .next ((t.stopCtx c.ctx).cancelPending fun j d => d.ctx == c.ctx && acceptedBefore (j, d) (sl.val, c))

/-- The threads of a context stop on every engine of a slice (R110). -/
def SliceState.stopCtxThreads (x : SliceState) (c : Nat) : SliceState :=
  (List.range 4).foldl (fun (y : SliceState) e =>
    (List.range 64).foldl (fun (z : SliceState) t =>
      let h := (z.engine e).thread t
      if h.ctx == c && h.st != .idle then (z.stopThread e t).noComplete (z.threadRun e t) else z) y) x

/-- The condition reported: of those given in the first drip, the earliest found at or above 0x10, then the lowest code; else
the highest of OK, SQUEEZED and PARTIAL (R12, R319). -/
def better (a b : Cond) : Cond :=
  let ea := decide (0x10 ≤ a.status.code)
  let eb := decide (0x10 ≤ b.status.code)
  if ea && eb then
    if Drip.later b.found a.found then a else if Drip.later a.found b.found then b
    else if b.status.code < a.status.code then b else a
  else if ea then a else if eb then b
  else if a.status.code < b.status.code then b else a

/-- The conditions that take part: those given in the drip of the first (R12). -/
def deciding (ks : List Cond) : List Cond :=
  match ks with
  | [] => []
  | c :: cs =>
    let first := cs.foldl (fun d k => if Drip.later d k.given then k.given else d) c.given
    ks.filter fun k => k.given == first

/-- The condition reported of a list, once the drip of its first status has come (R12). -/
def outcomeOf (ks : List Cond) (now : Drip) : Option Cond :=
  match deciding ks with
  | [] => none
  | c :: cs => if Drip.later c.given now then none else some (cs.foldl better c)

/-- The reported condition of a request, once the drip of its first status has come. -/
def Request.outcome (r : Request) (now : Drip) : Option Cond := outcomeOf r.conds now

/-- The code with which a context ends in the device: R12's outcome over the failures given to its requests of every slice, or
CANCELLED where there is none (R342, R354). -/
def State.ctxCode (s : State) (c : Nat) : Nat :=
  let ks := ((s.slices.map fun x => ((x.svc.reqs.filter (Request.isCtx c)).map (·.conds)).flatten).flatten).filter fun k =>
    decide (0x10 ≤ k.status.code)
  (outcomeOf ks s.now).elim Status.cancelled.code (·.status.code)

/-- A context is torn down at this drip (R357, R247, R342). Threads that serve a context in OFF stop too (R110). -/
def State.tearCtx (s : State) (c : Nat) : State :=
  if s.ctxState c = 0 then s.onAll fun x => { x.stopCtxThreads c with pools := (x.stopCtxThreads c).pools.tearDown c }
  else
    let t := if s.ctxState c = 3 then s else s.stopCtx c
    let u := t.cancelPending fun _ d => d.ctx == c
    let code := u.ctxCode c
    u.eachSlice fun v i =>
      (v.endReqs i (Request.isCtx c) v.now v.now .cancelled).onSl i fun x =>
        let y := x.stopCtxThreads c
        { y with
          svc := { y.svc with endCodes := (y.svc.endCodes.filter fun e => e.1 != c) ++ [(c, code)] }
          pools := y.pools.tearDown c
          coll := ((y.coll.steps.filter fun k => k.desc.ctx == c && !k.completed).foldl (fun z k => z.raise k code) y).coll }

/-- CONTEXT_TEARDOWN (R357): the tear-downs that are due for a context are made. -/
def execContextTeardown (ctx : Nat) (s : State) : Out :=
  let due (e : Nat × Drip) : Bool := e.1 == ctx && !Drip.later e.2 s.now
  if s.tears.any due then .next (({ s with tears := s.tears.filter fun e => !due e }).tearCtx ctx)
  else .next s

/-- Whether any completion of a context is still to be written, or will be (R356, R357). -/
def State.ctxBusy (s : State) (c : Nat) : Bool :=
  (s.slices.any fun x => x.svc.pending.any (fun d => d.ctx == c) || x.svc.reqs.any (fun r => r.cmd.ctx == c) ||
    x.svc.copies.any fun k => k.1.ctx == c) ||
  s.host.rings.any fun r => r.held.any fun k => k.ctx == c

/-- CONTEXT_OFF (R355, R356): at a drip after its last completion record was written the context enters OFF, the closes that wait for it complete, and the deferred opens act. -/
def execContextOff (ctx : Nat) (s : State) : Out :=
  match s.ctx? ctx with
  | none => .next s
  | some x =>
    if x.st = 3 && !s.ctxBusy ctx && x.wrote != some s.now then
      let t := x.closes.foldl (fun (u : State) o => u.completeCmd o.1 o.2 .ok 0) s
      let u := { t with ctxs := t.ctxs.filter fun y => y.ctx != ctx }
      .next (x.deferred.foldl (fun (v : State) o => v.openCtx o.1 o.2) u)
    else .next s

/-! ### COPY (R362, R363) -/

/-- COPY: its range is checked and its bytes go through host DMA. -/
def execCopy (sl : SliceId) (i : Nat) (s : State) : Out :=
  match s.actingCmd sl i 5 with
  | none => .next s
  | some c =>
    let x := s.sl sl
    let count := x.loadNat c.lenAddr 4
    let n := if c.indirect then count * 2 ^ c.lenShift else c.length
    let toHost := (c.word 1).testBit 0
    let inside := if toHost then inRegion c.dev n .hbm || inRegion c.dev n .staging
      else x.tiers.inState c.dev n || x.hbmFree c.dev n
    if c.length < n then .next (s.endCmd sl c .fault 4)
    else if n = 0 then .next (s.endCmd sl c .ok 0)
    else if !inside then .next (s.endCmd sl c .fault 2)
    else
      let t := (s.dropCmd sl c).onSvc sl fun v => { v with copies := v.copies ++ [(c, n)] }
      .next (if toHost then t.pushChan (2 * sl.val + 1) (.copyWrite sl c.slot c.hostA (x.load c.dev n))
             else t.pushChan (2 * sl.val) (.copyRead sl c.slot c.hostA n c.dev))

/-- `n` more bytes of a COPY have been moved; it completes with its last (R363). -/
def State.copyMoved (s : State) (sl slot n : Nat) : State :=
  match (s.sl sl).svc.copies.find? fun k => k.1.slot == slot with
  | none => s
  | some k =>
    if k.2 ≤ n then
      (s.onSvc sl fun v => { v with copies := v.copies.filter fun j => j.1.slot != slot }).completeCmd sl k.1 .ok 0
    else s.onSvc sl fun v => { v with copies := v.copies.map fun j => if j.1.slot == slot then (j.1, j.2 - n) else j }

/-- A COPY fails: what is left of it is not moved (R499, R500). -/
def State.copyFailed (s : State) (sl slot : Nat) : State :=
  match (s.sl sl).svc.copies.find? fun k => k.1.slot == slot with
  | none => s
  | some k =>
    let mine (j : DmaJob) : Bool := match j with
      | .copyRead a b _ _ _ => a == sl && b == slot
      | .copyWrite a b _ _ => a == sl && b == slot
      | _ => false
    let t := s.onSvc sl fun v => { v with copies := v.copies.filter fun j => j.1.slot != slot }
    ({ t with host := { t.host with chans := t.host.chans.map fun (q : List DmaJob) => q.filter fun j => !mine j } }).completeCmd sl k.1 .fault 2

/-! ### Admission (R352, R362, R369, R370) -/

/-- A request switches to the squeeze schedule from a layer on: SQZ is set on its rows (R370). -/
def State.switchReq (s : State) (sl slot layer : Nat) : State :=
  let t := s.onSl sl fun x =>
    (x.onReqs fun r => if r.slot == slot then { r with sqz := true, sqzLayer := layer } else r).setRowmap
      (x.svc.rowmap.map fun e => if e.valid && e.req == slot then { e with sqz := true } else e)
  { t with pkg := { t.pkg with squeezeSwitches := t.pkg.squeezeSwitches + 1 } }

/-- A request is projected with a lag: beyond its deadline it is to switch (R369). -/
def State.overdue (s : State) (r : Request) (lag : Nat) : Bool :=
  !r.cmd.noSqueeze && !r.cmd.sqzForce && !r.sqz &&
  Drip.later (r.frame.plus ((match s.job with | some j => j.outMain | none => 0) + lag)) r.deadline

/-- The first MoE layer of a slice above a layer, or the first of all. -/
def State.layerAfter (s : State) (sl : Nat) (l : Option Nat) : Nat :=
  ((s.moeLayers sl).filter fun k => match l with | some b => decide (b < k) | none => true).foldl min 255

/-- Admission of the pending requests of a slice at frame start `f`, in order of acceptance from row `next` (R352). -/
def State.admitFrom (sl : Nat) (f : Drip) : List Cmd → Nat → State → State
  | [], _, s => s
  | c :: cs, next, s =>
    let taken := s.slices.any fun x => x.svc.reqs.any fun r => r.cmd.ctx == c.ctx && r.frame == f
    if c.kind ≠ 1 ∨ !c.queued ∨ s.ctxState c.ctx ≠ 2 ∨ taken ∨ s.ringHeld (s.host.rings.getD (s.ctxRing c.ctx) {}) ≠ 0 then
      State.admitFrom sl f cs next s
    else
      let n := if c.indirect then (s.sl sl).loadNat c.lenAddr 4 else c.rows
      if c.rows < n then State.admitFrom sl f cs next (s.endCmd sl c .fault 4)
      else if n = 0 then State.admitFrom sl f cs next (s.endCmd sl c .ok 0)
      else if s.tokenRows < next + n then s
      else
        let r : Request := { slot := c.slot, cmd := c, rows := n, firstRow := next, frame := f, deadline := c.deadline }
        let t := (s.dropCmd sl c).onSl sl fun x =>
          let m := (List.range x.svc.rowmap.length).map fun k =>
            if next ≤ k ∧ k < next + n then ({ valid := true, ctx := c.ctx, req := c.slot, pos := k - next } : RowEntry)
            else x.svc.rowmap.getD k {}
          { x with svc := { x.svc with reqs := x.svc.reqs ++ [r], rowmap := m } }
        let go := t.overdue r 0 || (c.sqzForce && !c.noSqueeze && c.sqzFrom == 0)
        State.admitFrom sl f cs (next + n) (if go then t.switchReq sl c.slot (t.layerAfter sl none) else t)

/-- Admission at a slice at a frame start: every row is first made invalid (R352). -/
def State.admitWaiting (s : State) (sl : Nat) (f : Drip) : State :=
  let t := s.onSvc sl fun v => { v with rowmap := List.replicate s.tokenRows {} }
  let u := State.admitFrom sl f ((t.sl sl).svc.pending) 0 t
  u.onSl sl fun x => x.setRowmap x.svc.rowmap

/-! ### INPUT and OUTPUT (R353) -/

/-- The INPUT stage completes once the input of every request it reads has landed. -/
def SliceState.tryInput (x : SliceState) : SliceState :=
  match x.runs.find? fun u => u.entry.kind == .input && u.st == .launched with
  | some u => if x.svc.reqs.all fun r => !r.liveIn u.frame || r.inputDone then x.completeRun u else x
  | none => x

/-- The read of a request's rows. -/
def State.startInput (s : State) (sl : Nat) (f : Drip) (r : Request) : State :=
  let n := r.rows * (match s.job with | some j => j.inRowBytes | none => 0)
  if !r.liveIn f then s
  else if n = 0 then s.onSl sl fun x => x.onReqs fun q => if q.slot == r.slot then { q with inputDone := true } else q
  else (s.onSl sl fun x => x.onReqs fun q => if q.slot == r.slot then { q with inputRows := zeros n } else q).pushChan
    (2 * sl) (.inputRead sl r.slot r.cmd.hostA n)

/-- INPUT: the rows of each admitted request are read from host memory. -/
def execInputStage (sl : SliceId) (i : Nat) (s : State) : Out :=
  match s.actingRun sl i .input with
  | none => .next (match (s.sl sl).waitingRun i with
      | some u => if u.entry.kind = .input then s.noteLate sl u else s
      | none => s)
  | some (u, t) => .next (((t.sl sl).svc.reqs.foldl (fun v r => v.startInput sl u.frame r) t).onSl sl SliceState.tryInput)

/-- Bytes of a request's input land at their rows (R353); the last byte completes it. -/
def State.inputLanded (s : State) (sl slot addr : Nat) (data : Bytes) : State :=
  match s.job, (s.sl sl).svc.reqs.find? fun r => r.slot == slot with
  | some j, some r =>
    let off := (addr + 2 ^ 64 - r.cmd.hostA) % 2 ^ 64
    s.onSl sl fun x =>
      let y := (x.store (j.inAddr.getD sl 0 + r.firstRow * j.inRowBytes + off) data).onReqs fun q =>
        if q.slot == slot then
          { q with inputGot := q.inputGot + data.length, inputRows := patch q.inputRows off data
                   inputDone := decide (q.inputRows.length ≤ q.inputGot + data.length) }
        else q
      y.tryInput
  | _, _ => s

/-- Whether an OUTPUT stage of a kind writes a request: some of its rows are valid with the stage's SQZ (R353). -/
def SliceState.writes (x : SliceState) (sqz : Bool) (f : Drip) (r : Request) : Bool :=
  r.liveIn f && !r.outputDone && x.svc.rowmap.any fun e => e.valid && e.req == r.slot && e.sqz == sqz

/-- The output stage of a kind completes when every request it writes has been written. -/
def SliceState.tryOutput (x : SliceState) (sqz : Bool) : SliceState :=
  match x.runs.find? fun u => u.entry.kind == (if sqz then .outputSqz else .outputMain) && u.st == .launched with
  | some u => if x.svc.reqs.all fun r => !r.liveIn u.frame || r.sqz != sqz || r.outputRows.isEmpty || r.outputDone then x.completeRun u else x
  | none => x

/-- The status of a request whose output is delivered: PARTIAL displaces OK and SQUEEZED (R10, R319). -/
def Request.result (r : Request) : Status :=
  if !r.partials.isEmpty then .partialDone else if r.sqz then .squeezed else .ok

/-- The last row of a request's output has been written: it is present at the next drip (R353). -/
def State.outputWritten (s : State) (sl slot : Nat) : State :=
  match (s.sl sl).svc.reqs.find? fun r => r.slot == slot with
  | none => s
  | some r =>
    if r.ended || r.outputDone then s
    else
      (s.endNext sl (fun q => q.slot == slot) r.result).onSl sl fun x =>
        (x.onReqs fun q => if q.slot == slot then { q with outputDone := true } else q).tryOutput r.sqz

/-- An OUTPUT stage: the rows of each of its requests go to HOST_B. -/
def State.outputStage (s : State) (sl i : Nat) (k : StageKind) (sqz : Bool) : State :=
  match s.actingRun sl i k with
  | none => match (s.sl sl).waitingRun i with
    | some u => if u.entry.kind = k then s.noteLate sl u else s
    | none => s
  | some (u, t) =>
    let x := t.sl sl
    let row := match s.job with | some j => j.outRowBytes | none => 0
    let base := match s.job with | some j => j.outAddr.getD sl 0 | none => 0
    let v := (x.svc.reqs.filter (x.writes sqz u.frame)).foldl (fun (v : State) r =>
      let b := x.load (base + r.firstRow * row) (r.rows * row)
      if b.isEmpty then v.outputWritten sl r.slot
      else (v.onSl sl fun y => y.onReqs fun q => if q.slot == r.slot then { q with outputRows := b } else q).pushChan
        (2 * sl + 1) (.outputWrite sl r.slot r.cmd.hostB b)) t
    v.onSl sl fun y => y.tryOutput sqz

/-- OUTPUT_MAIN and OUTPUT_SQZ (R353). -/
def execOutputMain (sl : SliceId) (i : Nat) (s : State) : Out := .next (s.outputStage sl i .outputMain false)
def execOutputSqz (sl : SliceId) (i : Nat) (s : State) : Out := .next (s.outputStage sl i .outputSqz true)

/-! ### Layer boundaries and deadlines (R367 to R371) -/

/-- Drips by which a boundary comes after its compiled drip; 0 in still-water mode (R369). -/
def State.lagAt (s : State) (layer : Nat) (f : Drip) : Nat :=
  if s.still.on then 0
  else
    let bound := match s.job with | some j => ((j.bounds.find? fun b => b.1 == layer).map (·.2)).getD 0 | none => 0
    (s.now - f).toNat - bound

/-- LAYER_BOUNDARY (R367, R369, R370): cancels apply, and the live requests are projected unless the layer is the last. -/
def execLayerBoundary (sl : SliceId) (layer : Nat) (s : State) : Out :=
  let v := (s.sl sl).svc
  if v.combined.any (fun k => k.1 == layer && !Drip.later k.2 s.now) && !v.boundaries.contains layer then
    let t := (s.endReqs sl (fun r => r.cancel) s.now s.now .cancelled layer).onSvc sl fun v =>
      { v with combined := v.combined.filter (·.1 != layer), boundaries := v.boundaries ++ [layer] }
    let next := t.layerAfter sl (some layer)
    if (t.moeLayers sl).any fun k => decide (layer < k) then
      .next (((t.sl sl).svc.reqs.filter fun r => !r.ended && !r.sqz &&
          (t.overdue r (t.lagAt layer r.frame) || (r.cmd.sqzForce && !r.cmd.noSqueeze && decide (layer < r.cmd.sqzFrom) && decide (r.cmd.sqzFrom ≤ next)))).foldl
        (fun u r => u.switchReq sl r.slot next) t)
    else .next t
  else .next s

/-- The output of a request is present at a drip. -/
def Request.present (r : Request) (d : Drip) : Bool :=
  r.outputDone && r.conds.any fun c => decide (c.status.code < 0x10) && !Drip.later c.given d

/-- REQUEST_DEADLINE (R371): from drip DEADLINE + 1 a request whose output is not present ends with DEADLINE. A SUBMIT that is
still pending then ends too. -/
def execRequestDeadline (sl : SliceId) (req : Nat) (s : State) : Out :=
  let v := (s.sl sl).svc
  match v.reqs.find? fun r => r.slot == req && !r.ended with
  | some r =>
    if Drip.later s.now r.deadline && !r.present (r.deadline.plus 1) then
      .next (s.endReqs sl (fun q => q.slot == req) s.now s.now .deadline)
    else .next s
  | none =>
    match v.reqs.find? fun r => r.slot == req with
    | some r =>
      -- R12: one that has ended in this drip takes the condition too
      if Drip.later s.now r.deadline && !r.present (r.deadline.plus 1) then
        .next (s.endReqs sl (fun q => q.slot == req) s.now s.now .deadline)
      else .next s
    | none =>
    match v.pending.find? fun c => c.slot == req && c.kind == 1 with
    | some c =>
      if Drip.later s.now c.deadline then
        let t := s.endCmd sl c .deadline 0
        .next { t with pkg := { t.pkg with deadlineEnds := t.pkg.deadlineEnds + 1 } }
      else .next s
    | none => .next s

/-! ### Digests (R404 to R407) -/

/-- Request input digest and output digest (R404). -/
def inputDigest (r : Request) : Bytes := digest64 (0x01#8 :: r.inputRows)
def outputDigest (r : Request) : Bytes := digest64 (0x07#8 :: r.outputRows)

/-- The requests of a pass at a slice, settled ones included. -/
def Service.passReqs (v : Service) (p : Pass) : List Request := (p.gone ++ v.reqs).filter fun r => r.frame == p.frame

/-- One row of the slice record (Table 15-5). -/
def recordRow (v : Service) (p : Pass) (e : RowEntry) : Bytes :=
  if !e.valid then zeros 16
  else
    match (v.passReqs p).find? fun r => r.slot == e.req with
    | none => zeros 16
    | some r =>
      leBytes 8 e.word ++ [if r.sqz then BitVec.ofNat 8 r.sqzLayer else 0xFF#8] ++ zeros 3 ++
      leBytes 4 (min 0xFFFFFFFF (r.deadline - p.frame).toNat)

/-- The slice record of the pass of a frame (Table 15-5). -/
def State.sliceRecord (s : State) (sl : Nat) (fr : Drip) : Bytes :=
  let v := (s.sl sl).svc
  let p := v.passOf fr
  leBytes 4 (s.pkg.nodeId % 2 ^ 20) ++ [BitVec.ofNat 8 sl, BitVec.ofNat 8 (b2n p.disturbed)] ++
  leBytes 2 p.rowmap.length ++ leBytes 8 p.fwVersion ++ slice p.unitMap 0 64 ++
  (p.rowmap.map (recordRow v p)).flatten ++
  (((v.passReqs p).mergeSort fun a b => decide (a.firstRow ≤ b.firstRow)).map inputDigest).flatten

/-- The slice digest (R405). -/
def State.sliceDigest (s : State) (sl : Nat) (fr : Drip) : Bytes := digest64 (0x02#8 :: s.sliceRecord sl fr)

/-- Mode bits (Table 15-7). -/
def State.modeBits (s : State) (p : Pass) : Nat :=
  b2n s.still.on + field s.pkg.congestionMode 1 1 + field (b2n s.dict.legacyDrop) 1 2 +
  field (b2n (match s.job with | some j => j.tuning | none => false)) 1 3 +
  field (b2n (p.disturbed || p.digests.any fun d => d.2.2.testBit 0)) 1 4 + field (b2n p.incomplete) 1 5

/-- The result digest of a request, over what its own pass pinned and met (Table 15-6, R391). -/
def State.resultDigest (s : State) (sl : Nat) (r : Request) : Bytes :=
  let p := (s.sl sl).svc.passOf r.frame
  digest64 (0x06#8 :: (slice s.still.programDigest 0 64 ++ slice p.weightDigest 0 64 ++ inputDigest r ++
    slice p.passDigest 0 64 ++ outputDigest r ++ slice p.unitMap 0 64 ++ leBytes 8 p.fwVersion ++ leBytes 8 (s.modeBits p) ++
    leBytes 8 s.still.jobSeed.toNat ++ leBytes 4 (s.pkg.nodeId % 2 ^ 20) ++
    [BitVec.ofNat 8 sl, BitVec.ofNat 8 r.cmd.ctx] ++ leBytes 2 r.firstRow))

/-! ### Settlement (R12) -/

/-- Where a partial record goes: the slot taken, and the state with the next one in turn (R366). -/
def State.partialSlot (s : State) (ctx : Nat) : Nat × State :=
  match s.ctx? ctx with
  | some x => (x.partialSlot % 8, s.onCtx ctx fun y => { y with partialSlot := (y.partialSlot + 1) % 8 })
  | none => (s.host.ring0Slot % 8, { s with host := { s.host with ring0Slot := (s.host.ring0Slot + 1) % 8 } })

/-- A job waiting or a read in flight serves a request. -/
def DmaJob.serves (sl slot : Nat) : DmaJob → Bool
  | .inputRead a b _ _ => a == sl && b == slot
  | .outputWrite a b _ _ => a == sl && b == slot
  | _ => false

/-- The port moves nothing more for a request: jobs that wait are dropped, and a read in flight lands nowhere (its slot number
is then beyond the queue). -/
def State.dropDma (s : State) (sl slot : Nat) : State :=
  { s with host := { s.host with
      chans := s.host.chans.map fun (q : List DmaJob) => q.filter fun j => !j.serves sl slot
      reads := s.host.reads.map fun e => match e.2 with
        | .inputRead a b ad n => if a == sl && b == slot then (e.1, .inputRead a 4096 ad n) else e
        | _ => e } }

/-- A request is settled with its outcome: its completion is owed, conditions not reported are recorded, and it leaves the
slice (R12, R364, R366, R407). -/
def State.settle (s : State) (sl : Nat) (r : Request) (c0 : Cond) : State :=
  let result := decide (c0.status.code < 0x10)
  let c : Cond := if result then { c0 with status := r.result } else c0
  let digest := if r.cmd.wantsDigest && result then s.resultDigest sl r else []
  let part := !r.partials.isEmpty
  let ps := if part then s.partialSlot r.cmd.ctx else (0, s)
  let others := (r.conds.erase c0).filter fun k => decide (0x10 ≤ k.status.code)
  let s1 := others.foldl (fun (t : State) k => t.report sl (mkReport 0x01 10 0 k.status.code r.cmd.ctx)) ps.2
  let s2 := if r.outputDone then s1 else s1.dropDma sl r.slot
  let s3 := s2.onSvc sl fun v => { v with reqs := v.reqs.filter fun q => q.slot != r.slot }.onPass r.frame fun p =>
    { p with gone := p.gone ++ [r] }
  let s4 := { s3 with
    pkg := { s3.pkg with requestsDone := s3.pkg.requestsDone + 1, deadlineEnds := s3.pkg.deadlineEnds + b2n (c.status == Status.deadline) } }
  s4.complete
    { ring := s4.ctxRing r.cmd.ctx, status := c.status, ctx := r.cmd.ctx, slice := sl, sqz := r.sqz, digest := digest,
      part := if part then some ps.1 else none, tag := r.cmd.tag, ledgerIndex := r.cmd.ledgerIndex, kind := 1,
      slot := some r.slot, sqzLayer := if r.sqz then r.sqzLayer else 0,
      endLayer := if result then 0xFF else c.layer, acceptDrip := r.cmd.acceptDrip, admitDrip := r.frame, endDrip := c.given,
      rows := r.rows, firstRow := r.firstRow, partials := r.partials, missing := r.missing }

/-- Every request whose first status was given by a drip is settled. -/
def State.settleAll (s : State) (d : Drip) : State :=
  s.eachSlice fun t i =>
    (t.sl i).svc.reqs.foldl (fun (u : State) r => match r.outcome d with | some c => u.settle i r c | none => u) t

/-! ### Completion rings (R364 to R366, R501) -/

/-- The 16 words of a completion record but for PHASE (Table 13-4). -/
def completionBytes (c : Completion) (phase : Bool) : Bytes :=
  leBytes 8 (b2n phase + field c.status.code 8 8 + field c.ctx 8 16 + field c.slice 3 24 + field (b2n c.sqz) 1 27 +
    field (b2n (!c.digest.isEmpty)) 1 28 + field (b2n c.part.isSome) 1 29 + field c.tag 32 32) ++
  leBytes 8 (field c.ledgerIndex 16 0 + field c.kind 8 16 + field c.reason 8 24 + field c.sqzLayer 8 32 +
    field c.endLayer 8 40 + field (c.part.getD 0) 3 48) ++
  leBytes 8 c.acceptDrip.toNat ++ leBytes 8 c.admitDrip.toNat ++ leBytes 8 c.endDrip.toNat ++
  leBytes 8 (field c.rows 11 0 + field c.firstRow 10 11) ++ zeros 16 ++ slice c.digest 0 64

/-- A partial record (R366). -/
def partialBytes (c : Completion) : Bytes :=
  leBytes 4 c.tag ++ leBytes 2 c.partials.length ++ leBytes 2 (c.partials.length + c.missing) ++ zeros 8 ++
  slice ((c.partials.map (leBytes 8)).flatten) 0 512

/-- The partial area of a context (R366). -/
def State.partialArea (s : State) (ctx : Nat) : Nat :=
  match s.ctx? ctx with
  | some x => x.area
  | none => s.host.ring0Partial

/-- One record written on a ring asks for its vector's message when the count reaches MOD_COUNT; the message returns the
count of every ring of the vector to 0 (R501). -/
def State.signalVector (s : State) (v : Nat) : State :=
  let t := { s with host := { s.host with rings := s.host.rings.map fun (r : Machine.Ring) => if r.vector == v then { r with unsignalled := 0 } else r } }
  t.msix v

/-- COMPLETION_WRITE (R364, R365, R366, R498, R501): the oldest held record of a ring is written, its partial record first,
then bytes 8 to 127, then word 0; a result digest that it carries is written with it (R409). -/
def execCompletionWrite (ring : Fin 64) (s : State) : Out :=
  let r := s.host.rings.getD ring {}
  match r.held with
  | [] => .next s
  | c :: cs =>
    let writing := match c.slot with
      | some k => (s.host.chans.getD (2 * c.slice + 1) []).any fun j => j.serves c.slice k
      | none => false
    if !s.ringOpen r || writing then .next s
    else
      let a := (r.base + 128 * r.tail) % 2 ^ 64
      let b := completionBytes c r.phase
      let t := match c.part with
        | some k => s.pushChan 17 (.recordWrite ((s.partialArea c.ctx + 528 * k) % 2 ^ 64) (partialBytes c))
        | none => s
      let u := (t.pushChan 17 (.recordWrite (a + 8) (b.drop 8))).pushChan 17 (.recordWrite a (b.take 8))
      let wraps := r.entries ≤ r.tail + 1
      let d : State := { u with still := { u.still with digestsWritten := u.still.digestsWritten + b2n (!c.digest.isEmpty) } }
      let v := (d.onCtx c.ctx fun x => { x with wrote := some s.now }).onRing ring fun q => { q with
        held := cs, tail := if wraps then 0 else q.tail + 1, phase := q.phase != wraps, unsignalled := q.unsignalled + 1 }
      .next (if max 1 r.modCount ≤ r.unsignalled + 1 then v.signalVector r.vector else v)

/-- RING_HEAD (R365): the host has read up to a record. -/
def execRingHead (ring : Fin 64) (v : Nat) (s : State) : Out := .next (s.setRingHead ring v)

end Sys2Proof.Machine
end

