-- ==== Sys2Proof/Machine/JobLoad.lean ====
section
/-! DEFINITION. The checks that refuse a schedule image at load, and the loading and unloading of a job (R248, R376, R380, and
the load rules of the other chapters). -/

namespace Sys2Proof.Machine

/-! ### Programs (R98, R111, R169, R189, R196) -/

/-- Bits [53:0] of a route instruction that its opcode uses (Table 04-5); none for a reserved opcode. -/
def routeMask (op : Nat) : Option Nat :=
  let d := 0x1F * 2 ^ 49
  let p := 7 * 2 ^ 49
  let a := 0x1F * 2 ^ 44
  let b := 0x1F * 2 ^ 39
  let fn (m : Nat) := m * 2 ^ 32
  let imm := 0xFFFFFFFF
  match op with
  | 0x00 | 0x0A => some 0
  | 0x01 => some (d + fn 2 + imm)
  | 0x02 | 0x03 | 0x04 => some (d + a + b + fn 1 + imm)
  | 0x05 | 0x06 => some (d + a + b + fn 7 + imm)
  | 0x07 => some (p + a + b + fn 15 + imm)
  | 0x08 => some (p + 7 * 2 ^ 44 + 7 * 2 ^ 39 + fn 6)
  | 0x09 => some imm
  | 0x10 | 0x12 => some (d + a + fn 6 + imm)
  | 0x11 | 0x13 => some (a + b + fn 6 + imm)
  | 0x14 | 0x15 => some (d + a + b + fn 2 + imm)
  | 0x18 | 0x1A => some (a + fn 2)
  | 0x19 => some (a + fn 6)
  | 0x1B => some (d + a)
  | 0x1C | 0x20 => some (d + a + b + fn 2)
  | 0x1D => some (a + b + imm)
  | 0x1E => some imm
  | 0x21 => some a
  | 0x22 => some (p + a)
  | 0x28 => some (fn 2 + imm)
  | 0x29 => some (a + fn 6)
  | 0x2A => some (d + a + b)
  | _ => none

/-- A route instruction at a position passes the load check; `still`: the still-water restrictions hold (R98, R111). -/
def routeWordOk (still : Bool) (pc w : Nat) : Bool :=
  let op := bits w 63 58
  let f := bits w 38 32
  match routeMask op with
  | none => false
  | some m =>
    let low := bits w 53 0
    low &&& m == low &&
    (!(op == 0x06 || op == 0x19 || op == 0x29) || bits f 2 1 != 3) && (op != 0x07 || decide (bits f 3 1 ≤ 5)) &&
    (op != 0x09 || (decide (0 ≤ (pc : Int) + sint32 (bits w 31 0)) && decide ((pc : Int) + sint32 (bits w 31 0) < 32768))) &&
    !(still && (op == 0x13 || op == 0x15 || (op == 0x14 && f.testBit 1)))

/-- A route program passes the load check. -/
def routeProgramOk (still : Bool) (p : List Word) : Bool :=
  decide (p.length ≤ 32768) && p.zipIdx.all fun e => routeWordOk still e.2 e.1.toNat

/-- Bits [55:0] of a quad instruction that its class and opcode use (Table 06-8); none for a reserved one. -/
def quadMask (code : Nat) : Option Nat :=
  let am := 0xF * 2 ^ 52
  let d := 0xF * 2 ^ 48
  let a := 0xF * 2 ^ 44
  let b := 0xF * 2 ^ 40
  let fn (m : Nat) := m * 2 ^ 32
  let imm := 0xFFFFFFFF
  match code with
  | 0x00 | 0x01 => some 0
  | 0x02 => some (fn 1 + imm)
  | 0x03 | 0x04 => some imm
  | 0x05 | 0x06 => some (a + imm)
  | 0x10 => some (d + fn 1 + imm)
  | 0x11 | 0x13 => some (d + a + imm)
  | 0x12 => some (d + a + b)
  | 0x20 => some (d + fn 3 + 0xFF3F)
  | 0x30 => some (am + d + a + b + fn 1)
  | 0x31 => some am
  | 0x40 => some (d + a + b)
  | 0x41 => some (am + a + b + fn 0x7D + imm)
  | 0x42 => some (am + a + fn 0x71)
  | 0x50 => some (am + d + a + b + fn 0x77 + 0xFFFF)
  | 0x51 => some (am + d + a + fn 7 + 0xF)
  | 0x60 => some (d + a + b + fn 0xFF + 0xFF)
  | _ => none

/-- The codes of Table 07-5. -/
def vopKnown (c : Nat) : Bool := decide (c ≤ 9) || (decide (0x10 ≤ c) && decide (c ≤ 0x18)) || (decide (0x20 ≤ c) && decide (c ≤ 0x22))

/-- A quad program passes the load check: words, branch targets, LOOP nesting, length. -/
def quadProgramOk (p : List Word) : Bool :=
  let ws := p.map (·.toNat)
  let loops := (ws.zipIdx.filter fun e => bits e.1 63 56 == 0x05).map fun e => (e.2, bits e.1 15 0)
  decide (p.length ≤ 8192) && ws.zipIdx.all fun e =>
    let w := e.1
    let code := bits w 63 56
    match quadMask code with
    | none => false
    | some m =>
      let low := bits w 55 0
      let target := (e.2 : Int) + sint32 (bits w 31 0)
      low &&& m == low && (code != 0x06 || (decide (0 ≤ target) && decide (target < 8192))) &&
      (code != 0x60 || vopKnown (bits w 7 0)) && (code != 0x50 || !w.testBit 34 || bits w 33 32 == 0) &&
      decide ((loops.filter fun l => decide (l.1 ≤ e.2) && decide (e.2 ≤ l.1 + l.2)).length ≤ 4 + b2n (code != 0x05))

/-! ### Stages (R29 to R31, R88, R167, R174) -/

/-- The kind of an entry fits its unit (R30). -/
def kindFits (e : StageEntry) : Bool :=
  match e.kind, e.unit with
  | .quad, .quad _ | .route, .engine _ | .combine, .engine _ | .collective, .collective | .prefetch, .sump => true
  | .inject, .port _ | .inject, .link _ | .receive, .port _ | .receive, .link _ => true
  | .quad, _ | .route, _ | .combine, _ | .collective, _ | .prefetch, _ | .inject, _ | .receive, _ => false
  | _, .sequencer => true
  | _, _ => false

/-- Instances of an entry that are live at offset `d` of a frame of `p` drips (R31). -/
def liveAt (p d : Nat) (e : StageEntry) : Nat :=
  let upTo (x : Nat) : Nat := if d ≤ x then (x - d) / max 1 p + 1 else 0
  upTo e.due - (if e.launch = 0 then 0 else upTo (e.launch - 1))

/-- At no drip are more than `n` of the entries live. -/
def liveAtMost (p n : Nat) (es : List StageEntry) : Bool :=
  es.all fun e => decide ((es.map (liveAt p (e.launch % max 1 p))).sum ≤ n)

/-- The stage checks of one slice. -/
def stagesOk (p : Nat) (es : List StageEntry) : Bool :=
  (es.all fun e => kindFits e && decide (1 ≤ e.duration) && decide (e.launch + e.duration ≤ e.due + 1) && decide (e.inputs.length ≤ 15) &&
    (!(e.kind == .route || e.kind == .combine) || (decide (1 ≤ e.f.threads) && decide (e.f.first + e.f.threads ≤ 64)))) &&
  ((List.range es.length).all fun i => (List.range i).all fun k =>
    match es[i]?, es[k]? with
    | some a, some b => a.unit != b.unit || a.launch % max 1 p != b.launch % max 1 p
    | _, _ => true) &&
  liveAtMost p 4096 es && liveAtMost p 16 (es.filter fun e => e.kind == .collective) &&
  ((List.range 8).all fun q => liveAtMost p 1 (es.filter fun e => e.unit == .quad (Fin.ofNat 8 q))) &&
  (List.range 4).all fun g => (List.range 64).all fun t =>
    liveAtMost p 1 (es.filter fun e => e.unit == .engine (Fin.ofNat 4 g) && decide (e.f.first ≤ t) && decide (t < e.f.first + e.f.threads))

/-! ### Layers (R56, R57, R60, R83, R126, R368) -/

/-- Bits in which a squeeze descriptor may differ: TOP_GROUPS, K, RESIDENT_ONLY, SKIP_LAYER (R57). -/
def sqzMask : Nat := field 0x7F 7 22 + field 0x3F 6 29 + 2 ^ 51 + 2 ^ 52

/-- Bytes of one engine's unit region that a layer needs (R60). -/
def unitBytes (d : Nat) : Nat :=
  2 * panelBytes d + dRows d * rowBytes (dHiddenFmt d) (dWidth d) + 16 * ceilDiv (ceilDiv (dRows d) 16) 4 * dExperts d * 4 +
  32 * dExperts d + 16 * dRows d * dK d

/-- The layer checks of one slice. -/
def layersOk (still : Bool) (bounds : List (Nat × Nat)) (ls : List LayerInfo) : Bool :=
  ls.all fun l =>
    let m := l.mainDesc
    let q := l.sqzDesc
    descOk m && descOk q && (m ||| sqzMask) == (q ||| sqzMask) && decide (dK q ≤ dK m) && decide (unitBytes m ≤ 12582912) &&
    (!(dLookahead m) || (!still && ls.any fun k => decide (l.layer < k.layer))) && bounds.any fun b => b.1 == l.layer

/-- The least DURATION of a dispatch or return injection (R126). -/
def injectionFloor (beats homes : Nat) (li : LayerInfo) (placed : Nat) (ret : Bool) : Nat :=
  let d := li.mainDesc
  let rb := if ret then rowBytes (rowFmt li.returnFmt) (dWidth d) else rowBytes (dHiddenFmt d) (dWidth d)
  let bytes (rows : Nat) : Nat :=
    let sections := if ret then min rows (homes * placed) else homes * placed
    rows * rb + (sections + ceilDiv rows (max 1 (blockRows rb))) * 64
  ceilDiv (max (bytes (dCap d * placed)) (bytes (dRows d * dK d))) (6400 * max 1 beats)

/-- The injections of a slice are long enough; a dispatch injection is one that names slots. -/
def injectionsOk (j : Image) (x : SliceState) (me : Place) (si : SliceImage) : Bool :=
  si.entries.all fun e =>
    if e.kind = .inject ∧ (e.f.isReturn ∨ e.f.slots ≠ []) then
      match si.layers.find? fun l => some l.layer == e.f.layer with
      | some l => decide (injectionFloor j.dripBeats j.members.length l (slotsAt x l.mainDesc me).length e.f.isReturn ≤ e.duration)
      | none => true
    else true

/-- The placement tables name no location twice and no node outside the job (R71). -/
def placementsOk (j : Image) (x : SliceState) (ls : List LayerInfo) : Bool :=
  ls.all fun l =>
    let r := locationsOf x l.mainDesc
    r.all (fun k => j.nodes.contains k.1.node) && r.eraseDups.length == r.length

/-! ### Memory (R127, R130, R210, R211, R217, R219, R236, R238, R382) -/

/-- Two ranges share a byte. -/
def overlaps (a b : Nat × Nat) : Bool := decide (0 < a.2) && decide (0 < b.2) && decide (a.1 < b.1 + b.2) && decide (b.1 < a.1 + a.2)

/-- No two ranges of a list overlap. -/
def disjoint : List (Nat × Nat) → Bool
  | [] => true
  | r :: rs => rs.all (fun q => !overlaps r q) && disjoint rs

/-- A range lies in the staging store or in HBM outside the device region. -/
def inStaging (r : Nat × Nat) : Bool := r.2 == 0 || (decide (stagingBase ≤ r.1) && decide (r.1 + r.2 ≤ stagingBase + 0x2000000))
def inHbm (r : Nat × Nat) : Bool := decide (r.1 + r.2 ≤ 0x3FC0000000)

/-- Range of a pool class. -/
def classRange (si : SliceImage) (c : Nat) : Nat × Nat :=
  let k := si.classes.getD c (0, 0)
  (k.1, k.2 * classSize c)

/-- The HBM partitions that an image names (Table 08-4). -/
def imagePartitions (si : SliceImage) : List (Nat × Nat) :=
  [(si.weightBase, si.weightBytes), (si.stateBase, si.stateBytes), (si.poolBase, si.poolFrames * si.frameBytes),
   classRange si 4, classRange si 5]

/-- The memory of a slice as an image lays it out. -/
def layoutOk (si : SliceImage) : Bool :=
  let shape := (si.shapeBase, 32768)
  let collRx := (si.collRxBase, 131072)
  let window := (0x7F01F00000, 0x100000)
  let low := (List.range 4).map (classRange si)
  let fixed := [shape, collRx]
  (imagePartitions si).all (fun r => r.1 % 0x200000 == 0 && inHbm r) && disjoint (imagePartitions si) &&
  low.all inStaging && fixed.all inStaging && disjoint (low ++ fixed ++ [window]) &&
  ((List.range 4).all fun c => (classRange si c).1 % classSize c == 0) &&
  ((List.range 6).all fun c => decide ((si.classes.getD c (0, 0)).2 ≤ 131072)) &&
  decide ((classRange si 4).2 ≤ 0x100000000) && decide ((classRange si 5).2 ≤ 0x100000000)

/-- The owners of an image (R237, R238). -/
def ownersOk (si : SliceImage) : Bool :=
  let os := si.owners
  decide (os.length ≤ 64) &&
  ((List.range 6).all fun c =>
    let n := (si.classes.getD c (0, 0)).2
    decide ((os.map fun o => ownerRes o c).sum ≤ n) && os.all fun o => decide (ownerRes o c ≤ ownerLim o c) && decide (ownerLim o c ≤ n)) &&
  (os.all fun o => decide (o.kind ≤ 5) && (!(o.kind == 1 || o.kind == 2) || (List.range 6).any fun c => ownerRes o c != 0)) &&
  (os.any fun o => o.kind == 4) && (os.filter fun o => o.kind == 5).length == 1 && os.all fun o => o.kind != 5 || decide (16 ≤ ownerRes o 5)

/-- Windows and pool-homed replicas (R211, R213, R217, R219). -/
def tiersOk (tuning : Bool) (si : SliceImage) : Bool :=
  (si.entries.all fun e => !(e.kind == .windowOpen || e.kind == .windowClose) || tuning) &&
  (si.entries.all fun e => e.kind != .windowOpen || (decide (e.f.ranges.length ≤ 16) &&
    e.f.ranges.all fun r => decide (si.weightBase ≤ r.base) && decide (r.base + r.len ≤ si.weightBase + si.weightBytes))) &&
  (!(si.residency.any fun e => e.pool) || si.entries.any fun e => e.kind == .view) &&
  decide ((si.residency.filter fun e => e.pool && e.pinned).length ≤ si.poolFrames) &&
  -- R218: the frame size
  (si.poolFrames == 0 || (si.frameBytes % 2097152 == 0 && decide (2097152 ≤ si.frameBytes) && decide (si.frameBytes ≤ 268435456))) &&
  (si.residency.all fun e => !e.pool || decide (e.imageBytes ≤ si.frameBytes)) &&
  -- R223: a prefetch stage names up to 64 pool-homed slots of its slice
  si.entries.all fun e => e.kind != .prefetch || (decide (e.f.prefetch.length ≤ 64) &&
    e.f.prefetch.all fun p => si.residency.any fun r => r.pool && resIs r p.1 p.2)

/-! ### Regions (R124, R296, R297) -/

/-- The entry lies where Table 11-2 allows its kind and its rights; `parts` are the HBM partitions. An HBM entry may span
partitions: each byte is judged by its own row, so pools admit none of it and the weight region only reads. -/
def regionPlaced (parts : List (Nat × Nat)) (e : RegionEntry) : Bool :=
  let r := (e.base, 4096 * e.pages)
  let only (k : Nat) (rd w a m : Bool) : Bool := e.kind == k && (rd || !e.r) && (w || !e.w) && (a || !e.a) && (m || !e.m)
  let part (i : Nat) : Nat × Nat := parts.getD i (0, 0)
  let within (p : Nat × Nat) : Bool := decide (p.1 ≤ r.1) && decide (r.1 + r.2 ≤ p.1 + p.2)
  let free := parts.all fun p => !overlaps p r
  let pools := (parts.drop 2).any fun p => overlaps p r
  (!e.hostm || (regionOf e.base == .hbm && free)) &&
  match regionOf e.base with
  | .hbm =>
    inHbm r && !pools &&
      (if overlaps (part 0) r then only 0 true false false false || (within (part 0) && only 2 true true false false)
       else only 0 true true true true)
  | .staging => inRegion r.1 r.2 .staging && only 0 true false false false
  | .window => inRegion r.1 r.2 .window && only 0 true false false false
  | .sump => inRegion r.1 r.2 .sump && only 0 true false false false
  | .exchange => inRegion r.1 r.2 .exchange && only 1 false true false false
  | _ => false

/-- An entry within Table 11-1 and Table 11-2; one that is not valid has nothing to show. -/
def regionOk (parts : List (Nat × Nat)) (e : RegionEntry) : Bool :=
  !e.valid || (e.base % 4096 == 0 && decide (1 ≤ e.pages) && decide (e.pages ≤ 402653184) && decide (e.kind ≤ 2) && regionPlaced parts e)

/-- The valid entries of a table do not overlap. -/
def regionsDisjoint (rs : List (Nat × RegionEntry)) : Bool :=
  disjoint ((rs.filter fun r => r.2.valid).map fun r => (r.2.base, 4096 * r.2.pages))

/-- The region table of an image: every slice of the job has a SINK entry that covers EXCH_RX_BASE (R124). -/
def regionsOk (job : Nat) (member : Bool) (si : SliceImage) : Bool :=
  si.regions.all (fun r => decide (r.1 < 4096) && regionOk (imagePartitions si) r.2) && regionsDisjoint si.regions &&
  (!member || si.regions.any fun r => r.2.valid && r.2.kind == 1 && r.2.w && r.2.job == job && r.2.holds si.exchRxBase 1)

/-! ### Groups and collectives (R315, R327, R331, R339, R346) -/

/-- Nodes of the maximal runs of a member list. -/
def runNodes : List Place → List Nat
  | [] => []
  | p :: ps => match ps with
    | [] => [p.node]
    | q :: _ => if p.node = q.node then runNodes ps else p.node :: runNodes ps

/-- A group as slice `me` of a job may hold it (R327). -/
def groupOk (nodes : List Nat) (me : Place) (g : Group) : Bool :=
  !g.valid || (decide (1 ≤ g.members.length) && decide (g.members.length ≤ 4096) && g.members.eraseDups.length == g.members.length &&
    g.members.all (fun p => nodes.contains p.node) && g.members[g.self]? == some me &&
    (!g.twoLevel || (runNodes g.members).eraseDups.length == (runNodes g.members).length))

/-- Lengths of the runs of a member list, in order. -/
def runLengths : List Place → List Nat
  | [] => []
  | p :: ps => match ps, runLengths ps with
    | [], _ => [1]
    | q :: _, n :: ns => if p.node = q.node then (n + 1) :: ns else 1 :: n :: ns
    | _, [] => [1]

/-- The longest path from a head to the tail, in ns (R339). -/
def chainPath (g : Group) : Nat :=
  if g.twoLevel then
    let ls := runLengths g.members
    (ls.zipIdx.map fun e => (e.1 - 1) * 200 + (ls.length - 1 - e.2) * 400).foldl max 0
  else ((g.members.zip (g.members.drop 1)).map fun e => if e.1.node = e.2.node then 200 else 400).sum

/-- The least DURATION of a step (R339), counted in 1/48 ps. -/
def stepFloor (beats : Nat) (g : Group) (d : CollDesc) (s : Nat) : Nat :=
  let inner := (g.members.zip (g.members.drop 1)).any fun e => e.1.node == e.2.node
  let e := d.full
  let rate := if inner then 48 else 30
  let per := max (max (e * (if d.wide then 6 else 4) * rate) (e * elemBytes (rowFmt d.outFmt) * rate)) (e * (if d.wide then 250 else 125))
  let chunks := d.stop s - d.lead s
  ceilDiv (chunks * per + 2 * chainPath g * 48000) (192000 * max 1 beats)

/-- A descriptor within Table 12-3 and R331. -/
def collDescOk (si : SliceImage) (d : CollDesc) : Bool :=
  let i := (d.inAddr, d.elems * elemBytes (rowFmt d.inFmt))
  let o := (d.outAddr, d.elems * elemBytes (rowFmt d.outFmt))
  let lies (r : Nat × Nat) : Bool := inStaging r || (inHbm r && !overlaps r (classRange si 4) && !overlaps r (classRange si 5))
  decide (d.collId < 65536) && decide (d.ctx < 256) && decide (2 ≤ d.inFmt) && decide (d.inFmt ≤ 6) && decide (2 ≤ d.outFmt) && decide (d.outFmt ≤ 6) &&
  decide (1 ≤ d.steps) && decide (d.steps ≤ 4095) && decide (1 ≤ d.elems) && decide (d.elems ≤ 2 ^ 28) &&
  decide (1 ≤ d.chunksPerStep) && decide (d.chunksPerStep ≤ 4096) && d.steps == ceilDiv d.chunks d.chunksPerStep &&
  (si.groups.any fun g => g.1 == d.group && g.2.valid) && lies i && lies o &&
  (!overlaps i o || (i.1 == o.1 && elemBytes (rowFmt d.inFmt) == elemBytes (rowFmt d.outFmt)))

/-- The collectives of a slice. -/
def collsOk (j : Image) (me : Place) (si : SliceImage) : Bool :=
  decide (si.groups.length ≤ 256) && si.groups.all (fun g => decide (g.1 < 256) && groupOk j.nodes me g.2) &&
  decide (si.colls.length ≤ 4096) && si.colls.all (fun d => decide (d.1 < 4096) && collDescOk si d.2) &&
  ((si.colls.map fun d => d.2.collId).eraseDups.length == si.colls.length) &&
  decide (si.mcast.length ≤ 64) && si.mcast.all (fun m => decide (m.2.length ≤ 1024)) &&
  si.entries.all fun e => e.kind != .collective ||
    (match si.colls.find? fun d => d.1 == e.f.desc with
     | some d => decide (e.f.step < d.2.steps) &&
        (match si.groups.find? fun g => g.1 == d.2.group with
         | some g => decide (stepFloor j.dripBeats g.2 d.2 e.f.step ≤ e.duration)
         | none => false)
     | none => false)

/-! ### The image as a whole -/

/-- A place that an image names is no slice of this device that failed its self-test (R3). -/
def State.named (s : State) (p : Place) : Bool := p.node != s.pkg.nodeId || (s.sl p.slice).present

/-- An image places no work on a unit that is OUT, and has no part for a slice that is not present (R3, R472). -/
def unitsOk (x : SliceState) (si : SliceImage) : Bool :=
  (x.present || si == {}) && si.entries.all fun e =>
    !(x.spares.failed.contains (unitRefOf e.unit) || x.spares.failed.contains { kind := 0, index := 0 } ||
      (match e.unit with
       | .quad q => x.spares.failed.any fun u => u.kind == 1 && u.index / 8 == q.val
       | .engine g => (x.engines.getD g {}).failed
       | _ => false))

/-- A byte of an engine's local memory as an image places it: the last item that covers it; 0 where none does. -/
def localByte (si : SliceImage) (e a : Nat) : Byte :=
  si.locals.foldl (fun b k => if k.1 = e ∧ k.2.1 ≤ a then k.2.2.getD (a - k.2.1) b else b) 0

/-- The image's items lie in local memory, and the combine descriptors they hold are well formed (R139). -/
def combinesOk (si : SliceImage) : Bool :=
  si.locals.all (fun k => decide (k.1 < 4) && decide (k.2.1 + k.2.2.length ≤ 0x1000000)) &&
  si.entries.all fun e => e.kind != .combine ||
    (match e.unit with
     | .engine g => combineFieldsOk (leNat ((List.range 32).map fun i => localByte si g.val (e.f.arg.toNat % 2 ^ 24 + i)))
     | _ => true)

/-- The program words of a phase: those from its entry up to its first HALT. -/
def phaseWords (si : SliceImage) (e : StageEntry) : List Nat :=
  match e.unit with
  | .engine g => (((si.programs.getD g.val []).drop e.f.entry).map (·.toNat)).takeWhile fun w => bits w 63 58 != 0x0A
  | _ => []

/-- Work of a number of ACLK cycles fits the DURATION of a stage: 6 of them in a beat (R9). -/
def durationFits (j : Image) (e : StageEntry) (cycles : Nat) : Bool := decide (cycles ≤ e.duration * (6 * j.dripBeats))

/-- ACLK cycles of an engine's scoring pass: its panels, the row blocks, and K-steps of 32 elements, or of 8 where an operand is BF16
(R61, Table 03-7). -/
def scoreCycles (d pd e : Nat) : Nat :=
  ((List.range (dExperts pd / 64)).filter fun p => p % 4 == e).length * dTok16 d *
    ceilDiv (dWidth d) (if dHiddenFmt d == 4 || dRouterFmt pd == 4 then 8 else 32)

/-- ACLK cycles of the choice for an engine's home rows: the keys of every expert and, with several groups, those of the kept groups, 256
to a cycle; and the terms of EXP or SIGMOID that the weights take, 64 to a cycle (R65 to R69, Table 03-7). A lookahead forms no
weights (R81). -/
def selectCycles (d e : Nat) (look : Bool) : Nat :=
  let groups := max 1 (dGroups d)
  let kept := if groups = 1 then 0 else ceilDiv (dTopGroups d * (dExperts d / groups)) 256
  let terms := if look then 0 else if dScoreFn d = 0 then dExperts d else dK d
  if dSkip d then 0 else (homeRows d e).length * (ceilDiv (dExperts d) 256 + kept + ceilDiv terms 64)

/-- ACLK cycles of a grant engine: the count entries of every member for the slots of its quads, 64 to a cycle (R53, R76). -/
def grantCycles (members d e : Nat) (slots : List SlotRef) : Nat :=
  ceilDiv (members * (slots.filter fun r => r.quad % 4 == e).length * perSlot d) 64

/-- ACLK cycles of the dispatch sorter for the most entries that a layer can have (R80). -/
def sortCycles (d : Nat) : Nat := ceilDiv (dRows d * dK d) 64 + 48

/-- The work of each unit that a phase starts fits the phase's DURATION by the rates of Table 03-7 (R84). -/
def routeLimitsOk (j : Image) (x : SliceState) (me : Place) (si : SliceImage) : Bool :=
  si.entries.all fun e =>
    match e.unit, si.layers.find? fun l => some l.layer == e.f.layer with
    | .engine g, some l =>
      let d := l.mainDesc
      let next := ((si.layers.filter fun k => decide (l.layer < k.layer)).foldl
        (fun (b : Option LayerInfo) k => match b with | some c => if k.layer < c.layer then some k else b | none => some k) none).elim d (·.mainDesc)
      (phaseWords si e).all fun w =>
        let op := bits w 63 58
        let f := bits w 38 32
        if op = 0x18 then durationFits j e (scoreCycles d (if bit f 1 then next else d) g.val)
        else if op = 0x19 then
          durationFits j e (if bits f 2 1 = 2 then selectCycles next g.val true else selectCycles (if bits f 2 1 = 1 then l.sqzDesc else d) g.val false)
        else if op = 0x1A ∧ !bit f 1 then durationFits j e (grantCycles j.members.length d g.val ((slotsAt x d me).map (·.2.2)))
        else if op = 0x1B then durationFits j e (sortCycles d)
        else true
    | _, _ => true

/-- PACK and COMBINE phases fit their DURATION by the limits of Table 05-5 (R142). A PACK that may compress takes a second pass
(R117). -/
def exchLimitsOk (j : Image) (x : SliceState) (me : Place) (si : SliceImage) : Bool :=
  let layer (n : Option Nat) : Option LayerInfo := si.layers.find? fun l => some l.layer == n
  si.entries.all fun e =>
    match e.unit with
    | .engine g =>
      if e.kind = .route ∧ (e.f.role = .packOut ∨ e.f.role = .packBack) then
        match layer e.f.layer with
        | none => true
        | some l =>
          let d := l.mainDesc
          let back := e.f.role == .packBack
          let rows := if back then dCap d * (slotsAt x d me).length else dRows d * dK d
          let rb := if back then rowBytes (rowFmt l.returnFmt) (dWidth d) else rowBytes (dHiddenFmt d) (dWidth d)
          let engines := (si.entries.filter fun k => k.kind == .route && k.f.role == e.f.role && k.f.layer == e.f.layer).length
          let passes := if (phaseWords si e).any fun w => bits w 63 58 == 0x1C && bit (bits w 38 32) 1 then 2 else 1
          durationFits j e (ceilDiv (rows * rb * passes) (max 1 engines * 512))
      else if e.kind = .combine then
        let n := leNat ((List.range 32).map fun i => localByte si g.val (e.f.arg.toNat % 2 ^ 24 + i))
        match layer (some (bits n 15 8)) with
        | none => true
        | some l =>
          let d := l.mainDesc
          let mine := (homeRows d g.val).length
          durationFits j e ((mine * dK d + (b2n (bit n 16) + b2n (bit n 17)) * mine) * ceilDiv (dWidth d) 128)
      else true
    | _ => true

/-- Every slice that the part of one slice names: those of its placement tables, record buffers, groups, multicast lists and internal
links (R3). -/
def State.sliceNames (s : State) (x : SliceState) (si : SliceImage) : List Place :=
  (si.layers.map fun l => (locationsOf x l.mainDesc).map (·.1) ++ (l.countBufs ++ l.grantBufs).map (·.src)).flatten ++
  (si.viewBufs ++ si.digestBufs).map (·.src) ++ (si.groups.map fun g => g.2.members).flatten ++ (si.mcast.map (·.2)).flatten ++
  si.entries.filterMap fun e => match e.unit with
    | .link k => some (s.place k.val)
    | _ => none

/-- The internal links of a slice that are out of service: those that the unit map records, and those to a slice that passed its
self-test which are not UP (R18). -/
def State.linksDown (s : State) (i : Nat) : Nat :=
  sliceMask fun k => (s.sl i).spares.linksOut.testBit k ||
    (k != i && (s.sl i).present && (s.sl k).present && decide (((s.sl i).ilinks.getD k {}).st ≠ linkUp))

/-- The checks of the part of one slice. -/
def State.sliceImageOk (s : State) (j : Image) (i : Nat) : Bool :=
  let si := j.slices.getD i {}
  let x := s.sl i
  let me := s.place i
  (s.sliceNames x si).all s.named && routeLimitsOk j x me si &&
  exchLimitsOk j x me si && stagesOk j.frameLen si.entries && unitsOk x si && layersOk j.stillWater j.bounds si.layers && injectionsOk j x me si &&
  placementsOk j x si.layers && (si == {} || (layoutOk si && ownersOk si)) && tiersOk j.tuning si && regionsOk j.job (j.members.contains me) si &&
  collsOk j me si && combinesOk si && si.programs.all (routeProgramOk j.stillWater) && si.quadPrograms.all quadProgramOk &&
  (si.entries.isEmpty || !j.stillWater || si.entries.any fun e => e.kind == .passDigest) &&
  (!x.present || decide (j.sumpRate ≤ x.tiers.sumpRate))

/-- The device accepts an image: its settings match the device's, and the part of every slice passes (R18, R26, R29, R41, R43,
R139, R222, R226, R280, R368, R396, R413, R478). -/
def State.imageOk (s : State) (j : Image) : Bool :=
  s.sec.identity == 1 && (s.time.state == 2 || s.time.state == 4) && s.time.hasOrigin && s.time.mismatch.isNone && decide (1 ≤ j.frameLen) && decide (j.frameLen ≤ 1048576) &&
  j.dripBeats == s.time.dripBeats && j.congestionMode == s.pkg.congestionMode && j.stillWater == s.still.on &&
  j.legacyDrop == s.dict.legacyDrop && j.node == s.pkg.nodeId &&
  j.members.all s.named && ((j.poolHomed ++ j.pinnedHomed).all fun h => s.named h.1) &&
  ((j.loadMap ++ j.hotMap).all fun m => m.2.all fun o => s.named (s.place o.1)) && (j.manifestAt.all fun o => s.named (s.place o.1)) &&
  ((j.congestionMode == 1 && !j.stillWater) || (List.range 8).all fun i => j.linksOut.getD i 0 == s.linksDown i) &&
  decide (j.outSqz ≤ j.outMain) && decide (j.outMain < j.frameLen) && j.bounds.all (fun b => decide (b.2 < j.frameLen)) &&
  (!j.stillWater || (match j.unitMapDigest with | some d => d == s.unitMapDigest | none => true)) &&
  (List.range 8).all (s.sliceImageOk j)

/-! ### Load-time allocations (R130, R248, R334) -/

/-- The landing buffers of a slice, without their offsets, and their sizes: two sets, for even and odd layers (R130). -/
def landingBufs (x : SliceState) (me : Place) (si : SliceImage) : List (LandBuf × Nat) :=
  ((List.range 2).map fun set =>
    let ls := si.layers.filter fun l => l.layer % 2 == set
    let slots := (ls.map fun l => (slotsAt x l.mainDesc me).map fun r => r.2.2).flatten.eraseDups
    let disp := (slots.map fun sr =>
      let need := ls.filter fun l => (slotsAt x l.mainDesc me).any fun r => r.2.2 == sr
      let rb (l : LayerInfo) : Nat := rowBytes (dHiddenFmt l.mainDesc) (dWidth l.mainDesc)
      let n := (need.map fun l => ceilDiv (dCap l.mainDesc) (max 1 (blockRows (rb l)))).foldl max 0
      let b := (need.map fun l => blockRows (rb l) * rb l).foldl max 0
      (List.range n).map fun k => (({ set := set, slot := some sr, idx := k, offset := 0 } : LandBuf), b)).flatten
    let rr (l : LayerInfo) : Nat := rowBytes (rowFmt l.returnFmt) (dWidth l.mainDesc)
    let n := (ls.map fun l => ceilDiv (dRows l.mainDesc * dK l.mainDesc) (max 1 (blockRows (rr l)))).foldl max 0
    let b := (ls.map fun l => blockRows (rr l) * rr l).foldl max 0
    disp ++ (List.range n).map fun k => (({ set := set, slot := none, idx := k, offset := 0 } : LandBuf), b)).flatten

/-- A load-time allocation: owner, bytes, the class it must come from if any, and the landing buffer it serves. -/
structure LoadAlloc where
  owner : Nat
  bytes : Nat
  cls : Option Nat := none
  land : Option LandBuf := none

/-- The load-time allocations of a slice: those the image lists, the landing sets, and the 256 working buffers of the
collective engine. -/
def loadAllocsOf (x : SliceState) (me : Place) (si : SliceImage) : List LoadAlloc :=
  (si.loadAllocs.map fun a => { owner := a.1, bytes := a.2 }) ++
  ((landingBufs x me si).map fun b => { owner := si.exchOwner, bytes := b.2, cls := some (firstClass b.2), land := some b.1 }) ++
  if si.entries.isEmpty then [] else List.replicate 256 { owner := si.collOwner, bytes := 65536, cls := some 4 }

/-- The pools of a slice at job load, and its landing buffers; none where an allocation fails (R130, R248, R334). -/
def loadPools (x : SliceState) (me : Place) (si : SliceImage) : Option (Pools × List LandBuf) :=
  let p0 := { Pools.load si.classes si.owners [] with ownerSel := x.pools.ownerSel }
  if si == {} then some (p0, [])
  else
    (List.range 64).foldl (fun acc o =>
      ((loadAllocsOf x me si).filter fun a => a.owner == o).foldl (fun (acc : Option (Pools × List LandBuf)) a =>
        match acc with
        | none => none
        | some k =>
          match k.1.alloc a.owner a.bytes [a.owner] 255 with
          | (.granted h c _, q) =>
            if a.cls.isSome && a.cls != some c then none
            else some (q, match a.land with | some b => k.2 ++ [{ b with offset := bits h.toNat 40 0 }] | none => k.2)
          | _ => none) acc) (some (p0, []))

/-! ### Loading (R86, R112, R113, R175, R215 to R217, R236, R248, R283, R296, R310, R326, R409) -/

/-- Domains of the units that an image uses: quads in bits 0 to 7, engines in 8 to 11, the collective engine in 12 (R515). -/
def domainsOf (si : SliceImage) : Nat :=
  ((List.range 13).map fun k =>
    if si.entries.any fun e => match e.unit with
      | .quad q => q.val == k
      | .engine g => g.val + 8 == k
      | .collective => k == 12
      | _ => false
    then 2 ^ k else 0).sum

/-- Residency at load: a pinned slot is fetched and RESIDENT in a frame of its own; any other pool-homed one is in the sump, or
ABSENT without it; a weight-homed slot is RESIDENT (R214, R216, R219). -/
def residencyAt (sumpUp : Bool) (es : List ResEntry) : List ResEntry :=
  (es.foldl (fun (a : List ResEntry × Nat) e =>
    if !e.pool then (a.1 ++ [{ e with state := 4 }], a.2)
    else if !sumpUp then (a.1 ++ [{ e with state := 0 }], a.2)
    else if e.pinned then (a.1 ++ [{ e with state := 4, frame := a.2 }], a.2 + 1)
    else (a.1 ++ [{ e with state := 1, frame := 0 }], a.2)) ([], 0)).1

/-- Copy the pinned replicas into their frames, and write the residency table (R215, R219). -/
def SliceState.writeResidency (x : SliceState) : SliceState :=
  let t := x.tiers
  let y := (t.res.filter fun e => e.pool && e.state == 4).foldl (fun (z : SliceState) e =>
    z.store (t.poolBase + e.frame * t.frameBytes) (z.load e.sumpAddr e.imageBytes)) x
  t.res.foldl (fun (z : SliceState) e => z.store (resOffset t.residencyBase e) (leBytes 32 (resWord e))) y

/-- The routing of a slice at load; across a reshape its counters stay (R86, R112, R374). -/
def Routing.atLoad (r : Routing) (keep : Bool) (words : Nat) : Routing :=
  if keep then
    { droppedChoices := r.droppedChoices, skippedRows := r.skippedRows, nanRows := r.nanRows, lostSources := r.lostSources,
      lookaheadFetches := r.lookaheadFetches, threadFaults := r.threadFaults, lastFault := r.lastFault, lateWaits := r.lateWaits,
      programWords := words }
  else { programWords := words }

/-- The exchange of a slice at load (R130, R143). -/
def Exchange.atLoad (x : Exchange) (keep : Bool) (land : List LandBuf) (rx shape : Nat) : Exchange :=
  if keep then { x with sections := [], landing := land, injections := [], sent := [], returnLists := [], packed := [], marks := [], rxBase := rx, shapeBase := shape }
  else { landing := land, rxBase := rx, shapeBase := shape }

/-- One slice takes its part of an image. `keep`: across a reshape its counters and its commands stay (R374). -/
def SliceState.takeImage (x : SliceState) (j : Image) (si : SliceImage) (pools : Pools) (land : List LandBuf) (keep : Bool)
    (winInit : Nat) : SliceState :=
  let t := x.tiers
  let put (l : Link) : Link := { l with inService := l.st == linkUp && !l.heldOut, jobLost := false, lostFor := [] }
  let arr := if keep then x.arr else {}
  let y : SliceState :=
    { x with
      sump := if keep then x.sump else { x.sump with linkDowns := 0, poison := 0 }
      flags := [], flagsAt := [], toClear := [], runs := []
      spares := { x.spares with routeless := false }
      engines := x.engines.map fun g => { failed := g.failed }
      routing := x.routing.atLoad keep (si.programs.map (·.length)).sum
      exch := x.exch.atLoad keep land si.exchRxBase si.shapeBase
      quads := (List.range 8).map fun q => { program := si.quadPrograms.getD q [] }
      arr := { arr with quadProgramWords := (si.quadPrograms.map (·.length)).sum }
      pools := if keep then { pools with allocs := x.pools.allocs, fallbacks := x.pools.fallbacks, poolWaits := x.pools.poolWaits,
                                         exhausted := x.pools.exhausted, rejected := x.pools.rejected, stale := x.pools.stale,
                                         lastReject := x.pools.lastReject }
               else pools
      ports := x.ports.map put
      ilinks := x.ilinks.map put
      fabric := { x.fabric with lost := [], src := x.fabric.src.map fun f => { f with win := winInit, acc := 0, halve := f.nextMsg } }
      power := { x.power with domains := (x.power.domains / 2 ^ 13) * 2 ^ 13 + domainsOf si } }
  let y1 : SliceState :=
    { y with
      tiers :=
        { t with
          weightBase := si.weightBase, weightBytes := si.weightBytes, stateBase := si.stateBase, stateBytes := si.stateBytes
          poolBase := si.poolBase, poolFrames := si.poolFrames, frameBytes := si.frameBytes, freeTarget := si.freeTarget
          residencyBase := si.residencyBase, res := residencyAt (x.sump.link == 3) si.residency
          view := j.poolHomed.map fun p => { place := p.1, layer := p.2.1, slot := p.2.2, code := 1 }
          viewNext := [], viewLanded := [], evict := [], releasing := [], fetches := [], present := [], window := {}, written := [], staged := []
          fetchPrefetch := if keep then t.fetchPrefetch else 0, fetchDemand := if keep then t.fetchDemand else 0
          fetchLookahead := if keep then t.fetchLookahead else 0, fetchLate := if keep then t.fetchLate else 0
          fetchFailed := if keep then t.fetchFailed else 0, legacyDrops := if keep then t.legacyDrops else 0
          evictions := if keep then t.evictions else 0, noFrame := if keep then t.noFrame else 0
          viewMissing := if keep then t.viewMissing else 0 }
      remote :=
        if keep then { x.remote with regions := si.regions, reqIds := [], filter := [], mcast := [] }
        else { regions := si.regions, regionSel := x.remote.regionSel, applyQ := x.remote.applyQ }
      coll :=
        if keep then { x.coll with descs := si.colls, steps := [], parked := [], pulls := [], ended := [], rxBase := si.collRxBase }
        else { groups := si.groups, descs := si.colls, rxBase := si.collRxBase, groupSel := x.coll.groupSel }
      svc := { x.svc with rowmapBase := si.rowmapBase, rowmap := List.replicate j.rows {}, pass := {}, older := [], combined := [], boundaries := []
                          reqs := if keep then x.svc.reqs else [] } }
  let stores := si.programs.zipIdx.foldl (fun (z : SliceState) p => z.store (engineAddr p.2 0xC00000) (p.1.map fun w => leBytes 8 w.toNat).flatten) y1
  let z := si.locals.foldl (fun (z : SliceState) k => z.store (engineAddr k.1 k.2.1) k.2.2) stores
  z.writeResidency

/-- The weights of an image in a hot-set slot are copied from the sump to where its load map places them (R349). -/
def State.placeWeights (s : State) (j : Image) (m : List CrcRecord) : State :=
  m.foldl (fun (t : State) r =>
    let of (l : List (Nat × List (Nat × Nat))) : List (Nat × Nat) := ((l.find? fun k => k.1 == r.id).map (·.2)).getD []
    match of j.hotMap with
    | [] => t
    | src :: _ =>
      let b := (t.sl src.1).load src.2 r.length
      (of j.loadMap).foldl (fun (u : State) o => u.onSl o.1 fun x => x.store o.2 b) t) s

/-- A write to the sump is tagged with the session memory key in force (R229, R377). -/
def State.tagWrite (s : State) (sl a : Nat) (b : Bytes) : State :=
  if regionOf a != .sump then s
  else s.onSl sl fun x => { x with sump := { x.sump with tags := (x.sump.tags.filter fun k => k.1 != a) ++ [(a, sumpTag s.sec.memoryKey a b)] } }

/-- What a hot-set slot keeps in the sump of a weight carries its tag, item by item (R229, R377). -/
def State.hotSound (s : State) (j : Image) (m : List CrcRecord) : Bool :=
  m.all fun r => (j.hotMap.filter fun k => k.1 == r.id).all fun k => (k.2.take 1).all fun o =>
    regionOf o.2 != .sump || (List.range (ceilDiv r.length 65536)).all fun i =>
      let a := o.2 + 65536 * i
      (s.sl o.1).sump.tags.contains (a, sumpTag s.sec.memoryKey a ((s.sl o.1).load a (min 65536 (r.length - 65536 * i))))

/-- The image becomes the job with its first frame start at a drip; none where it is refused (R248, R380). -/
def State.loadJob (s : State) (j : Image) (m : List CrcRecord) (program : Bytes) (first : Drip) (keep : Bool) : Option State :=
  if !s.imageOk j then none
  else
    let pools := (List.range 8).map fun i => loadPools (s.sl i) (s.place i) (j.slices.getD i {})
    if pools.any Option.isNone then none
    else
      let t := s.eachSlice fun v i =>
        let p := (pools.getD i none).getD ({}, [])
        v.onSl i fun x => x.takeImage j (j.slices.getD i {}) p.1 p.2 keep v.pkg.winInit
      let root := weightRoot m
      let u : State :=
        { t with
          job := some j, frame0 := first, frame := first, running := false
          ctxs := if keep then t.ctxs else []
          tears := if keep then t.tears else []
          epochs := { current := if keep then t.epochs.current else 0, since := first, digest := root, manifest := m, map := j.loadMap }
          still := { t.still with
            jobSeed := j.jobSeed, programDigest := program
            digestsWritten := if keep then t.still.digestsWritten else 0
            disturbedPasses := if keep then t.still.disturbedPasses else 0 }
          pkg := if keep then { t.pkg with winJob := t.pkg.winInit } else { t.pkg with winJob := t.pkg.winInit, requestsDone := 0, squeezeSwitches := 0, deadlineEnds := 0, notices := [] } }
      let v := ((u.keepManifest.extendMR 4 program).extendMR 4 root).cutPairs
      some (match j.unitMapDigest with
        | some d => if !j.stillWater && d != v.unitMapDigest then v.report 0 (mkReport 0x11 11 0) else v
        | none => v)

/-- Whether this device has marked the pass under way as disturbed (R403, R409). -/
def State.disturbedNow (s : State) : Nat := b2n (s.running && s.slices.any fun x => x.svc.pass.disturbed)

/-- The job unloads, and a DRIP_ORIGIN that waited for it is adopted (R43): its stages end, its pools are released and its regions cleared, its units are switched off (R248, R296,
R515). -/
def State.unloadJob (s : State) : State :=
  let t := s.onAll fun x =>
    { x with
      runs := [], flagsAt := [], pools := x.pools.unload, routing := { x.routing with placements := [] }
      engines := x.engines.map fun g => { failed := g.failed }
      quads := x.quads.map fun q => { program := q.program }
      remote := { x.remote with regions := [], mcast := [] }
      coll := { x.coll with groups := [], nextGroups := [], descs := [], steps := [], parked := [], pulls := [] }
      exch := { x.exch with sections := [], landing := [], injections := [], sent := [], packed := [] }
      svc := { x.svc with reqs := [], rowmap := [], pass := {}, older := [] }
      power := { x.power with domains := (x.power.domains / 2 ^ 13) * 2 ^ 13 } }
  let u : State := { t with
    job := none, running := false
    still := { t.still with disturbedPasses := t.still.disturbedPasses + s.disturbedNow } }
  -- R43: with no job loaded the device adopts its parent's DRIP_ORIGIN
  match u.time.mismatch with
  | some o => u.setOrigin o
  | none => u

end Sys2Proof.Machine
end

