-- ==== Sys2Proof/Machine/Load.lean ====
section
/-! DEFINITION. Loading the model (chapter 14): load states, items and their checks, chains and resumes, weight epochs, the
hot set and reshapes (R349, R372 to R374). -/

namespace Sys2Proof.Machine

/-! ### Load states (R376, R377) -/

/-- Enter a load state; EVT_CAUSE LOAD says that LOAD_STATE changed (Table 20-8). -/
def State.setLoad (s : State) (st status : Nat) : State :=
  let t := { s with load := { s.load with st := st, status := status } }
  if s.load.st = st then t else t.cause 1

/-- Change a hot-set slot. -/
def State.onHot (s : State) (k : Nat) (f : HotSlot → HotSlot) : State := { s with hot := s.hot.modify k f }

/-- A record of the load pipeline; a failed item is named by its SEQ and its ID (R380). -/
def State.loadRecord (s : State) (status : Nat) (named : List Nat := []) : State := s.report 0 (mkReport 0x11 11 0 status 255 named)

/-- The load fails with a status: a slot being loaded becomes EMPTY, and a pending switch to the epoch of a failed update is
cancelled (R380, R392). -/
def State.failLoad (s : State) (st : Status) (seq id : Nat) : State :=
  let t := (s.setLoad 4 st.code).loadRecord st.code [seq, id]
  let u := { t with load := { t.load with forwarded := [], toForward := [], stopped := true } }
  if s.load.target ≤ 3 then u.onHot s.load.target fun _ => {}
  else if s.load.target = 5 && !s.load.repair && s.epochs.switch_.any (fun w => s.load.updateEpoch == some w.1) then
    ({ u with epochs := { u.epochs with switch_ := none } }).loadRecord 0
  else u

/-- LOAD_START (R376, R394): refused, or the load starts at SEQ 0. HELD is left by it as Table 14-1 and R502 say. -/
def State.loadStart (s : State) : Option State :=
  let l := s.load
  let slot := s.hot.getD l.target {}
  if l.st = 1 ∨ (l.target ≤ 3 ∧ slot.st = 3) ∨ (l.target = 4 ∧ s.job.isSome) ∨ (l.target = 5 ∧ s.job.isNone) then none
  else
    let t := (s.setLoad 1 0)
    let u := { t with load := { t.load with
      token := [], items := 0, nextSeq := 0, retried := false, img := none, imageBytes := [], map := [], manifest := [],
      written := [], open_ := none, forwarded := [], toForward := [], ended := false, history := [], taken := 0, offsets := [],
      stopped := false, repair := false, updateEpoch := none } }
    some (if l.target ≤ 3 then u.onHot l.target fun _ => { st := 1 } else u)

/-! ### The chain (R381, R386) -/

def chainNo (v : Bytes) : Nat := leNat (slice v 0 2)
def chainLoad (v : Bytes) : Nat := leNat (slice v 2 2)
def chainCount (v : Bytes) : Nat := leNat (slice v 4 1)
def chainSelf (v : Bytes) : Nat := leNat (slice v 5 1)
def chainNode (v : Bytes) (k : Nat) : Nat := leNat (slice v (8 + 4 * k) 4) % 2 ^ 20

/-- The head of a chain. -/
def Load.head (l : Load) : Bool := !l.chain.isEmpty && chainSelf l.chain == 0

/-- The device after this one, if any. -/
def Load.next (l : Load) : Option Nat :=
  if chainSelf l.chain + 1 < chainCount l.chain then some (chainNode l.chain (chainSelf l.chain + 1)) else none

/-- The device before this one, if any. -/
def Load.prev (l : Load) : Option Nat :=
  if l.chain.isEmpty || chainSelf l.chain = 0 then none else some (chainNode l.chain (chainSelf l.chain - 1))

/-- The load map names every TILE, PANEL and PLACEMENT item of the stream (R379): those that have come, and but for an update, which
carries a part of the weight set, those that the manifest announces. -/
def Load.full (l : Load) : Bool :=
  let named (id : Nat) : Bool := l.map.any fun m => m.1 == id
  !l.manifest.isEmpty && (l.history.all fun i => !(i.kind == 0x13 || i.kind == 0x14 || i.kind == 0x15) || named i.id) &&
  (l.target == 5 || l.manifest.all fun r => named r.id)

/-- The resume token (R386); SEQ is all ones while no item is complete (log 30). -/
def Load.tokenBytes (l : Load) (node : Nat) : Bytes :=
  leBytes 16 (field (chainNo l.chain) 16 0 + field (chainLoad l.chain) 16 16 + field (l.nextSeq + 2 ^ 40 - 1) 40 32 +
    field node 20 72 + field (b2n l.full) 1 92)

/-! ### Items (R378, R379) -/

/-- The 64 header bytes of an item with a given ITEM_CRC (Table 14-2). -/
def itemHeader (i : LoadItem) (crc : Nat) : Bytes :=
  leBytes 64 (field i.kind 8 0 + field i.chain 16 8 + field i.loadId 16 24 + field i.seq 40 40 + field i.payload.length 32 80 +
    field i.id 48 112 + field i.epoch 16 160 + field crc 32 176 + field i.part 16 208 + field i.parts 16 224)

/-- The bytes of an item as it travels. -/
def itemBytes (i : LoadItem) : Bytes := itemHeader i i.itemCrc ++ i.payload

/-- ITEM_CRC holds (Table 14-2). -/
def itemCrcOk (i : LoadItem) : Bool := crc32c (itemHeader i 0 ++ i.payload) == i.itemCrc

/-- Matrix field of an ID (Table 06-3). -/
def idMatrix (id : Nat) : Nat := bits id 25 22
def idLayer (id : Nat) : Nat := bits id 47 40

/-- A router panel's pseudo-ID: matrix 15, row and column block 0 (R384). -/
def panelId (id : Nat) : Bool := idMatrix id == 15 && bits id 21 0 == 0

/-- A placement table's pseudo-ID: matrix 14, expert 0 (R384). -/
def placementId (id : Nat) : Bool := idMatrix id == 14 && bits id 39 26 == 0 && bits id 21 0 == 0

/-- Where the load map puts an ID. -/
def Load.places (l : Load) (id : Nat) : List (Nat × Nat) := ((l.map.find? fun m => m.1 == id).map (·.2)).getD []

/-- Write a payload wherever the map names the ID (R379); a write to the sump is tagged but under target 5 (R377). -/
def State.writeItem (s : State) (i : LoadItem) : State :=
  (s.load.places i.id).foldl (fun (t : State) o =>
    let u := t.onSl o.1 fun x => x.store (o.2 + 65536 * i.part) i.payload
    if s.load.target ≤ 4 then u.tagWrite o.1 (o.2 + 65536 * i.part) i.payload else u) s

/-- In still-water mode a load into a hot-set slot and an update run only in stages that the image names (R382). -/
def State.loadOpen (s : State) : Bool :=
  !s.still.on || s.load.target == 4 || s.slices.any fun x => x.runs.any fun u => u.st == .launched && u.entry.f.loads

/-- The item is complete: it counts, the token moves on, and it waits to be forwarded (R379, R382, R386). -/
def State.itemDone (s : State) (i : LoadItem) : State :=
  let l := s.load
  let m : Load := { l with
    items := l.items + 1, nextSeq := l.nextSeq + 1, retried := false, history := l.history ++ [i]
    offsets := if l.head then l.offsets ++ [l.taken] else l.offsets
    taken := if l.head then l.taken + 64 + i.payload.length else l.taken
    toForward := if l.next.isSome && !l.stopped then l.toForward ++ [i] else l.toForward }
  { s with load := { m with token := m.tokenBytes s.pkg.nodeId } }

/-- An item already complete here is passed on and not written (R388). -/
def State.passItem (s : State) (i : LoadItem) : State :=
  let l := s.load
  { s with load := { l with
      retried := false
      taken := if l.head then l.offsets.getD i.seq 0 + 64 + i.payload.length else l.taken
      toForward := if l.next.isSome && !l.stopped then l.toForward ++ [i] else l.toForward } }

/-- ITEM_CRC or a tile's own check fails: the item is asked for once more, and a second failure ends the load (R380). -/
def State.itemBad (s : State) (i : LoadItem) : State :=
  if s.load.retried then s.failLoad .checksum i.seq i.id
  else ({ s with load := { s.load with retried := true } }).loadRecord Status.checksum.code [i.seq, i.id]

/-- Whether an item is the next one of the load; a HELD device takes the items of a resume (R387, R388). -/
def State.itemArrives (s : State) (i : LoadItem) : State :=
  if s.load.st = 2 && i.chain = chainNo s.load.chain && i.loadId = chainLoad s.load.chain then s.setLoad 1 0 else s

/-- ITEM_CRC holds, and of a TILE its header and its CRC (R380). -/
def itemWhole (i : LoadItem) : Bool :=
  itemCrcOk i && (i.kind != 0x13 || (tileHeaderOk (leNat (i.payload.take 32)) && tileCrcOk i.payload))

/-- Take an item: ignore it, check it as it arrives, then pass it on or go on with what its kind asks (R380, R382, R388). -/
def State.takeItem (s : State) (kind : Nat) (i : LoadItem) (f : State → State) : State :=
  let t := s.itemArrives i
  let l := t.load
  let again := (l.st = 1 || l.st = 2 || l.st = 3) && decide (i.seq < l.nextSeq)
  if i.kind != kind || !t.loadOpen then s
  else if !again && (l.st != 1 || l.ended || i.seq != l.nextSeq) then s
  else if !itemWhole i then t.itemBad i
  else if again then t.passItem i
  else f { t with load := { l with updateEpoch := if l.target = 5 then some (l.updateEpoch.getD i.epoch) else none } }

/-- IMAGE_ITEM (R378, R379): a part of the schedule image, whose load map serves the items to come. -/
def execImageItem (i : LoadItem) (img : Image) (s : State) : Out :=
  .next (s.takeItem 0x11 i fun t =>
    -- an update has a MAP part in place of the IMAGE parts (R378)
    if t.load.target = 5 then t.failLoad .fault i.seq i.id else
    let m := if t.load.target ≤ 3 then img.hotMap else img.loadMap
    ({ t with load := { t.load with img := some img, imageBytes := t.load.imageBytes ++ i.payload, map := m } }).itemDone i)

/-- Records of a MANIFEST payload, with fuel (Table 14-3). -/
def parseRecords : Nat → Bytes → List CrcRecord
  | 0, _ => []
  | n + 1, b =>
    if b.length < 16 then []
    else
      let w := leNat (b.take 16)
      { id := bits w 47 0, crc := bits w 79 48, length := bits w 103 80, elem := bits w 107 104, form := bits w 109 108 } ::
        parseRecords n (b.drop 16)

/-- IDs rise strictly (R384). -/
def idsRise : List CrcRecord → Bool
  | a :: b :: rest => decide (a.id < b.id) && idsRise (b :: rest)
  | _ => true

/-- MANIFEST_ITEM (R384): a part of the manifest. -/
def execManifestItem (i : LoadItem) (s : State) : Out :=
  .next (s.takeItem 0x12 i fun t =>
    let m := t.load.manifest ++ parseRecords i.payload.length i.payload
    if i.payload.length % 16 = 0 && idsRise m then ({ t with load := { t.load with manifest := m } }).itemDone i
    else t.failLoad .fault i.seq i.id)

/-- The record of an ID in the manifest. -/
def Load.record? (l : Load) (id : Nat) : Option CrcRecord := l.manifest.find? fun r => r.id == id

/-! ### Updates (R389, R390) -/

/-- Where the pinned epochs keep the placement table of a layer of a slice: the one in force, and that of the previous epoch
until it retires (R389, R393). -/
def State.pinnedBases (s : State) (sl d : Nat) : List Nat :=
  let ps := (s.sl sl).routing.placements.filter fun p => p.1 == dLayer d
  let at_ (q : List (Nat × Drip × Nat)) : Nat := match q with | p :: _ => p.2.2 | [] => dPlacement d
  at_ ps :: (if s.epochs.previous.isSome then [at_ (ps.filter fun p => Drip.later s.epochs.since p.2.1)] else [])

/-- Ranges of a slice that pinned epochs reference: the places of their load maps, and their placement tables (R389). -/
def State.pinnedRanges (s : State) (sl : Nat) : List (Nat × Nat) :=
  let maps := s.epochs.map ++ (match s.epochs.previous with | some e => e.map | none => [])
  let len (id : Nat) : Nat := ((s.epochs.manifest.find? fun r => r.id == id).map (·.length)).getD 0
  let ofMap : List (Nat × Nat) := ((maps.filter fun m => idMatrix m.1 != 14).map fun m =>
    (m.2.filter fun o => o.1 == sl).map fun o => (o.2, len m.1)).flatten
  let tables : List (Nat × Nat) := ((s.img sl).layers.map fun l =>
    (s.pinnedBases sl l.mainDesc).map fun b => (b, 32 * dExperts l.mainDesc)).flatten
  ofMap ++ tables

/-- A range that an item of an update is to fill overlaps none that a pinned epoch references (R389). -/
def State.rangeFree (s : State) (i : LoadItem) (len : Nat) : Bool :=
  s.load.target != 5 || s.load.repair || (s.load.places i.id).all fun o =>
    (s.pinnedRanges o.1).all fun r => decide (o.2 + len ≤ r.1) || decide (r.1 + r.2 ≤ o.2)

/-- The loaded image has its TUNING flag set. -/
def State.tuning (s : State) : Bool := match s.job with | some j => j.tuning | none => false

/-- A load map names a place that a pinned epoch references (R389). -/
def State.mapHits (s : State) (m : List (Nat × List (Nat × Nat))) : Bool :=
  m.any fun k => k.2.any fun o =>
    let n := if idMatrix k.1 = 14 then 1 else 32
    (s.pinnedRanges o.1).any fun r => decide (o.2 < r.1 + r.2) && decide (r.1 < o.2 + n)

/-- An item shows that the load is no tile repair (R390); none where the update that it then is is refused (R389, R394, log 152). -/
def State.noRepair (s : State) : Option State :=
  if s.load.target != 5 || !s.load.repair then some s
  else if s.tuning || s.mapHits s.load.map then none
  else some { s with load := { s.load with repair := false } }

/-- TILE_ITEM (R380, R384, R390). -/
def execTileItem (i : LoadItem) (s : State) : Out :=
  .next (s.takeItem 0x13 i fun t =>
    if 14 ≤ idMatrix i.id || i.part != 0 || i.parts != 1 then t.failLoad .fault i.seq i.id
    else match t.load.record? i.id with
      | none => t.failLoad .fault i.seq i.id
      | some r =>
        let same := t.epochs.manifest.any fun k => k.id == r.id && k.crc == r.crc
        -- R390: a tile that is new to the set shows that the update is no repair; here, where its old bytes lie, it is refused
        if t.load.target = 5 && !same && (t.load.places i.id).isEmpty && t.noRepair.isNone then t.failLoad .fault i.seq i.id else
        let t := if t.load.target = 5 && !same && (t.load.places i.id).isEmpty then t.noRepair.getD t else t
        let known := !t.load.repair || same
        if r.crc != thCrc (leNat (i.payload.take 32)) || r.length != i.payload.length || !known then
          t.failLoad .checksum i.seq i.id
        else if !t.rangeFree i r.length then t.failLoad .fault i.seq i.id
        else
          let u := t.writeItem i
          ({ u with load := { u.load with written := u.load.written ++ [i.id] } }).itemDone i)

/-- A part of a panel or table follows the part before it, and all agree on PARTS (R378, R380). -/
def Load.partOk (l : Load) (i : LoadItem) : Bool :=
  (match l.open_ with
   | some (id, next, parts, _) => i.id == id && i.part == next && i.parts == parts
   | none => i.part == 0 && decide (1 ≤ i.parts) && !l.written.contains i.id) &&
  (i.part + 1 == i.parts || i.payload.length == 65536) && decide (i.part < i.parts)

/-- A part of a panel or table, whose whole is checked once its last part has arrived (R380). -/
def State.partItem (t : State) (i : LoadItem) (idOk : Bool) (crcOf : Bytes → Option Nat) (accept : Bytes → Bool) : State :=
  if !idOk || !t.load.partOk i || t.noRepair.isNone then t.failLoad .fault i.seq i.id
  else
    let t := t.noRepair.getD t
    match t.load.record? i.id with
    | none => t.failLoad .fault i.seq i.id
    | some r =>
      if !t.rangeFree i r.length then t.failLoad .fault i.seq i.id else
      let all := (match t.load.open_ with | some o => o.2.2.2 | none => []) ++ i.payload
      if i.part + 1 = i.parts then
        if crcOf all != some r.crc || r.length != all.length then t.failLoad .checksum i.seq i.id
        else if !accept all then t.failLoad .fault i.seq i.id
        else
          let u := t.writeItem i
          ({ u with load := { u.load with open_ := none, written := u.load.written ++ [i.id] } }).itemDone i
      else
        let u := t.writeItem i
        ({ u with load := { u.load with open_ := some (i.id, i.part + 1, i.parts, all) } }).itemDone i

/-- PANEL_ITEM (R58, R380, R384). -/
def execPanelItem (i : LoadItem) (s : State) : Out :=
  .next (s.takeItem 0x14 i fun t =>
    t.partItem i (panelId i.id) (fun b => if panelOk b then some (leNat (slice b (b.length - 32) 4)) else none) fun _ => true)

/-- By its map a load is a tile repair: it names tiles at the places where they already lie (R390). Its items may show otherwise. -/
def State.isRepair (s : State) (m : List (Nat × List (Nat × Nat))) : Bool :=
  m.all fun k => decide (idMatrix k.1 < 14) &&
    k.2.all fun o => s.epochs.map.any fun e => e.1 == k.1 && e.2.contains o

/-- MAP_ITEM (R378, R389, R394): the map of an update; one that writes where a pinned epoch reads is refused, and so is any
but a repair in a TUNING job. The digest that the update states leads the payload of its first part (log 3). -/
def execMapItem (i : LoadItem) (m : List (Nat × List (Nat × Nat))) (s : State) : Out :=
  .next (s.takeItem 0x16 i fun t =>
    if t.load.target != 5 then t.failLoad .fault i.seq i.id
    else
      let map := t.load.map ++ m
      let repair := t.isRepair map
      if !repair && (t.tuning || t.mapHits map) then t.failLoad .fault i.seq i.id
      else ({ t with load := { t.load with map := map, repair := repair, imageBytes := t.load.imageBytes ++ i.payload } }).itemDone i)

/-- The placement table of an update agrees with the one in force in BIAS and VALID, and keeps R71 (R389). -/
def State.placementKept (s : State) (layer : Nat) (b : Bytes) : Bool :=
  s.load.target != 5 ||
  ((List.range 8).all fun sl =>
    match s.layer? sl layer with
    | none => true
    | some li =>
      let d := li.mainDesc
      let old (e : Nat) : Nat := (s.sl sl).loadNat ((s.pinnedBases sl d).headD 0 + 32 * e) 32
      let new (e : Nat) : Nat := leNat (slice b (32 * e) 32)
      b.length == 32 * dExperts d &&
      (List.range (dExperts d)).all fun e => peBias (old e) == peBias (new e) && peValid (old e) == peValid (new e)) &&
  (let locs : List Nat := ((List.range (b.length / 32)).map fun e =>
      let w := leNat (slice b (32 * e) 32)
      (List.range (peReplicas w)).map (peLoc w)).flatten
   locs.eraseDups.length == locs.length &&
   locs.all fun k => match s.job with | some j => j.nodes.contains (locPlace k).node | none => false)

/-- PLACEMENT_ITEM (R71, R380, R384, R389). -/
def execPlacementItem (i : LoadItem) (s : State) : Out :=
  .next (s.takeItem 0x15 i fun t =>
    t.partItem i (placementId i.id) (fun b => some (crc32c b)) fun b =>
      t.placementKept (idLayer i.id) b)

/-- END_ITEM (R380): every entry of the load map has been written, or the load fails. -/
def execEndItem (i : LoadItem) (s : State) : Out :=
  .next (s.takeItem 0x17 i fun t =>
    if i.payload.isEmpty && t.load.open_.isNone && t.load.map.all fun m => t.load.written.contains m.1 then
      ({ t with load := { t.load with ended := true } }).itemDone i
    else t.failLoad .fault i.seq i.id)

/-! ### Reading, forwarding and resuming (R381 to R388) -/

/-- LOAD_HOST_READ (R381, R388): the head asks host memory for the next item of LOAD_SOURCE. -/
def execLoadHostRead (s : State) : Out :=
  let l := s.load
  let len := leNat (slice l.source 8 8)
  let out := !(s.host.chans.getD 16 []).isEmpty || s.host.reads.any fun r => match r.2 with | .loadRead _ _ => true | _ => false
  if !l.head || !s.loadOpen || !(l.st = 1 || l.st = 3) || len ≤ l.taken || out then .next s
  else .next (s.pushChan 16 (.loadRead ((leNat (slice l.source 0 8) + l.taken) % 2 ^ 64) (min 65600 (len - l.taken))))

/-- ITEM_FORWARD (R382, R387): the next item leaves for the next device if the forward window has room and the device is not lost. -/
def execItemForward (s : State) : Out :=
  let l := s.load
  match l.toForward, l.next with
  | i :: rest, some n =>
    let held := (l.forwarded.map fun k => 64 + k.payload.length).sum
    if l.stopped || !s.loadOpen || (s.sl 0).fabric.lost.contains { node := n, slice := 0 } || l.window < held + 64 + i.payload.length then .next s
    else
      let t := { s with load := { l with toForward := rest, forwarded := l.forwarded ++ [i] } }
      .next (t.sendMsg 0
        { dst := { node := n, slice := 0 }, opcode := opWRITE, trusted := true, parts := payloadParts 0x7F01F00000 (itemBytes i),
          issuer := .load i.seq })
  | _, _ => .next s

/-- LOAD_FORWARD_ACK (R382): the downstream has acknowledged items. -/
def execLoadForwardAck (seq : Nat) (s : State) : Out :=
  .next { s with load := { s.load with forwarded := s.load.forwarded.filter fun i => decide (seq < i.seq) } }

/-- UPSTREAM_TIMEOUT (R387): the device enters HELD. -/
def execUpstreamTimeout (s : State) : Out :=
  if s.load.st = 1 ∧ s.load.head = false ∧ s.load.ended = false then
    .next ((s.setLoad 2 Status.upstreamLost.code).loadRecord Status.upstreamLost.code)
  else .next s

/-- A LOAD_CHAIN as R381 lays it out. -/
def chainFormOk (v : Bytes) : Bool :=
  decide (8 ≤ v.length) && decide (1 ≤ chainCount v) && decide (chainCount v ≤ 64) && v.length == 8 + 4 * chainCount v &&
  decide (chainSelf v < chainCount v)

/-- The chain is written. A HELD device of the same load sends its token to its new upstream, and a device with a new
downstream forwards nothing to it until its token has been answered (R388). -/
def State.setChain (s : State) (v : Bytes) : State :=
  let l := s.load
  let same := chainNo v == chainNo l.chain && chainLoad v == chainLoad l.chain
  let m := { l with chain := v }
  let m1 := if (l.st = 1 || l.st = 2 || l.st = 3) && m.next != l.next then
      { m with forwarded := [], toForward := [], stopped := true } else m
  let t := { s with load := m1 }
  match m.prev with
  | some n => if l.st = 2 && same then t.emit (.token n (m.tokenBytes s.pkg.nodeId)) else t
  | none => t

/-- RESUME_TOKEN (R388): a FULL device that is far enough serves the resume from its own items, the head reads the items
again, and any other device hands the token on. A token of another load is refused. -/
def execResumeToken (v : Bytes) (s : State) : Out :=
  let l := s.load
  let w := leNat (slice v 0 16)
  let next := (bits w 71 32 + 1) % 2 ^ 40
  if !(l.st = 1 || l.st = 2 || l.st = 3) || bits w 15 0 != chainNo l.chain || bits w 31 16 != chainLoad l.chain then .next s
  else if l.full && next ≤ l.nextSeq then
    .next { s with load := { l with
      stopped := false, forwarded := [], toForward := l.history.filter fun i => decide (next ≤ i.seq) } }
  else if l.head then
    .next { s with load := { l with stopped := false, forwarded := [], toForward := [], taken := l.offsets.getD next l.taken } }
  else
    let t := { s with load := { l with stopped := false, forwarded := [], toForward := [] } }
    match l.prev with
    | some n => .next (t.emit (.token n v))
    | none => .next t

/-! ### Sealing (R229, R377, R380, R385) -/

/-- Write the tags of a sump image behind its tiles (R229). -/
def State.tagImage (s : State) (sl : Nat) (e : ResEntry) : State :=
  (List.range e.tiles).foldl (fun (t : State) k =>
    t.onSl sl fun x =>
      let off := tileOffset x k e.sumpAddr
      x.store (e.sumpAddr + e.imageBytes + 32 * k) (sumpTag t.sec.memoryKey off (x.load off (tileLength (x.load off 32))))) s

/-- Tag the sump images of every pool-homed replica of an image. -/
def State.tagImages (s : State) (j : Image) : State :=
  s.eachSlice fun t i => ((j.slices.getD i {}).residency.filter (·.pool)).foldl (fun (u : State) e => u.tagImage i e) t

/-- The program digest of the IMAGE parts (R404). -/
def programDigest (b : Bytes) : Bytes := digest64 (0x03#8 :: b)

/-- LOAD_SEAL (R380, R385): the weight-set digest is that which the image or the update states, or the load fails. A sealed
load for target 4 becomes the job, and every load-time check applies. -/
def execLoadSeal (s : State) : Out :=
  let l := s.load
  let root := weightRoot l.manifest
  if l.st != 1 || !l.ended then .next s
  else if l.target = 5 then
    if root != slice l.imageBytes 0 64 then .next (s.failLoad .checksum l.nextSeq 0)
    else
      let t := s.setLoad 3 0
      .next (if l.repair then t else { t with epochs := { t.epochs with
        sealed_ := (t.epochs.sealed_.filter fun u => some u.epoch != l.updateEpoch) ++
          [{ epoch := l.updateEpoch.getD 0, manifest := l.manifest, map := l.map }] } })
  else match l.img with
    | none => .next (s.failLoad .fault l.nextSeq 0)
    | some j =>
      if root != j.weightDigest then .next (s.failLoad .checksum l.nextSeq 0)
      else
        let t := s.tagImages j
        if l.target ≤ 3 then
          .next ((t.setLoad 3 0).onHot l.target fun _ =>
            { st := 2, img := some j, manifest := l.manifest, program := programDigest l.imageBytes })
        else match t.loadJob j l.manifest (programDigest l.imageBytes) (BitVec.ofNat 48 l.frameStart) false with
          | some u => .next (u.setLoad 3 0)
          | none => .next (t.failLoad .fault l.nextSeq 0)

/-! ### Weight epochs (R391 to R394) -/

/-- A drip is a frame start of the loaded job that lies at least `n` frames after the current drip. -/
def State.frameStartAfter (s : State) (d : Drip) (n : Nat) : Bool :=
  match s.job with
  | some j => decide ((d - s.frame0).toNat % max 1 j.frameLen = 0) && decide (n * j.frameLen ≤ (d - s.now).toNat) &&
      decide ((d - s.now).toNat < 2 ^ 47)
  | none => false

/-- EPOCH_SWITCH (R392): refused, or the switch is pending for W. -/
def State.switchEpoch (s : State) (v : Word) : Option State :=
  let e := bits v.toNat 15 0
  let w := BitVec.ofNat 48 (bits v.toNat 63 16)
  let carried := s.epochs.sealed_.any fun k => k.epoch == e
  if !s.frameStartAfter w 2 || s.epochs.switch_.isSome || s.epochs.previous.isSome || s.pkg.reshapeArmed || !carried ||
     e != (s.epochs.current + 1) % 65536 || s.tuning then none
  else some { s with epochs := { s.epochs with switch_ := some (e, w), switchReg := v.toNat } }

/-- Passes whose frame starts at this drip pin the epoch now in force. -/
def State.repin (s : State) : State :=
  s.onAll fun x =>
    if x.svc.pass.frame = s.now then
      { x with svc := { x.svc with pass := { x.svc.pass with epoch := s.epochs.current, weightDigest := s.epochs.digest } } }
    else x

/-- Replicas of an expert on a slice of this device, by the placement table at an offset of the slice (R71). -/
def State.replicasAt (s : State) (sl base e : Nat) : Nat :=
  let w := (s.sl sl).loadNat (base + 32 * e) 32
  if peValid w then ((List.range (peReplicas w)).filter fun k => locPlace (peLoc w k) == s.place sl).length else 0

/-- The places of an ID that a new epoch keeps from the one in force (R389, R393): all of them, but those that its placement table
drops. The table drops what a tile's expert had on a slice where the update writes as many replicas of it there as the table then
names; a placement table that the update carries takes the place of the old one (DEDUCED, log 152). -/
def State.keptPlaces (s : State) (u : SealedUpdate) (id : Nat) (ps : List (Nat × Nat)) : List (Nat × Nat) :=
  let placesOf (k : Nat) : List (Nat × Nat) := ((u.map.find? fun m => m.1 == k).map (·.2)).getD []
  if idMatrix id = 14 then (if (placesOf id).isEmpty then ps else [])
  else if idMatrix id = 15 then ps
  else ps.filter fun o =>
    match (u.map.filter fun m => idMatrix m.1 == 14 && idLayer m.1 == idLayer id).findSome? fun m => m.2.find? fun p => p.1 == o.1,
          s.layer? o.1 (idLayer id) with
    | some t, some li =>
      let e := bits id 39 26
      let old := s.replicasAt o.1 ((s.pinnedBases o.1 li.mainDesc).headD 0) e
      old == 0 || decide (((placesOf id).filter fun p => p.1 == o.1).length < s.replicasAt o.1 t.2 e)
    | _, _ => true

/-- The load map of the epoch that an update brings in: its own places, and those kept of the epoch in force. -/
def State.mergeMaps (s : State) (u : SealedUpdate) : List (Nat × List (Nat × Nat)) :=
  let old := s.epochs.map
  (old.map fun m => (m.1, ((u.map.filter fun k => k.1 == m.1).map (·.2)).flatten ++
    (s.keptPlaces u m.1 m.2).filter fun o => !((u.map.filter fun k => k.1 == m.1).any fun k => k.2.contains o))) ++
  u.map.filter fun k => !(old.any fun m => m.1 == k.1)

/-- At W the new epoch comes into force: its placement tables, places and digest serve the passes that start at or after W
(R391, R393, R422). -/
def State.enterEpoch (s : State) : State :=
  match s.epochs.switch_ with
  | none => s
  | some (e, w) =>
    match s.epochs.sealed_.find? fun u => u.epoch == e with
    | none => s
    | some u =>
    if w != s.now then s
    else
      let root := weightRoot u.manifest
      let old := s.epochs
      let t := s.eachSlice fun v i => v.onSl i fun x =>
        let new : List (Nat × Drip × Nat) := ((u.map.filter fun m => idMatrix m.1 == 14).map fun (m : Nat × List (Nat × Nat)) =>
          (m.2.filter fun o => o.1 == i).map fun o => (idLayer m.1, w, o.2)).flatten
        { x with routing := { x.routing with placements := new ++ x.routing.placements } }
      let v := { t with epochs :=
        { current := e, since := w, digest := root, switch_ := none, switchReg := old.switchReg, manifest := u.manifest
          map := s.mergeMaps u
          previous := some { epoch := old.current, digest := old.digest, map := old.map }
          sealed_ := old.sealed_.filter fun k => k.epoch != e, tuningRoot := old.tuningRoot } }
      ((v.keepManifest.extendMR 4 v.still.programDigest).extendMR 4 root).repin

/-- WEIGHT_EPOCH_SWITCH (R393). -/
def execWeightEpochSwitch (s : State) : Out := .next s.enterEpoch

/-- The previous epoch retires once no stage of a pass that pinned it is left (R393). -/
def State.retireEpoch (s : State) : State :=
  if s.epochs.previous.isSome &&
     s.slices.all fun x => x.runs.all fun u => u.over || Drip.notLater s.epochs.since u.frame
  then { s with epochs := { s.epochs with previous := none } }
  else s

/-- EPOCH_RETIRE (R393). -/
def execEpochRetire (s : State) : Out := .next s.retireEpoch

/-- In a TUNING job the epoch rises at the first frame start after a WINDOW_CLOSE completed (R394). -/
def State.tuningEpoch (s : State) : State :=
  match s.epochs.tuningRoot with
  | none => s
  | some root =>
    let old := s.epochs
    let t := { s with epochs := { old with
      current := (old.current + 1) % 65536, since := s.now, digest := root, tuningRoot := none
      previous := some { epoch := old.current, digest := old.digest, map := old.map } } }
    t.extendMR 4 root

/-! ### The hot set (R349) -/

/-- HOT_SERVE (R349, R373): refused, or the job unloads and the slot's image loads from the sump. -/
def State.serveHot (s : State) (k : Nat) : Option State :=
  let busy := s.ctxs.any fun c => c.st = 1 || c.st = 2 || c.st = 3
  let waiting := s.slices.any fun x => x.svc.pending.any (fun c => c.kind == 1) || x.svc.reqs.any fun r => !r.ended
  if (s.hot.getD k {}).st != 2 || busy || waiting || s.pkg.reshapeArmed then none
  else
    let t := s.unloadJob
    some { t with
      hot := t.hot.map fun h => if h.st == 3 then { h with st := 2 } else h
      load := { t.load with hotLoading := some k } }

/-- HOT_SERVE_LOAD_COMPLETE (R349): the weights have been read, the slot is SERVING, and the job's first frame start is
LOAD_FRAME_START (log 31). An image that a load-time check refuses leaves the slot READY. -/
def execHotServeLoadComplete (s : State) : Out :=
  match s.load.hotLoading with
  | none => .next s
  | some k =>
    let h := s.hot.getD k {}
    let t := { s with load := { s.load with hotLoading := none } }
    match h.img with
    | none => .next t
    | some j =>
      if !t.hotSound j h.manifest then .next (t.loadRecord Status.checksum.code) else
      match ((t.placeWeights j h.manifest).tagImages j).loadJob j h.manifest h.program (BitVec.ofNat 48 s.load.frameStart) false with
      | some u => .next (u.onHot k fun g => { g with st := 3 })
      | none => .next (t.loadRecord Status.fault.code)

/-! ### Reshapes (R372 to R374) -/

/-- What a new image keeps of the loaded one across a reshape (R372). -/
def sameSettings (a b : Image) : Bool :=
  a.modelId == b.modelId && a.frameLen == b.frameLen && a.dripBeats == b.dripBeats && a.congestionMode == b.congestionMode &&
  a.legacyDrop == b.legacyDrop && a.stillWater == b.stillWater && a.rows == b.rows && a.bounds == b.bounds && a.outMain == b.outMain && a.outSqz == b.outSqz &&
  a.bindings == b.bindings &&
  (List.range 8).all fun i =>
    let x := a.slices.getD i {}
    let y := b.slices.getD i {}
    x.stateBase == y.stateBase && x.stateBytes == y.stateBytes && x.ledger == y.ledger && x.rowmapBase == y.rowmapBase

/-- No stage of an image is live across a frame start. -/
def noneAcross (j : Image) : Bool := j.slices.all fun x => x.entries.all fun e => decide (e.due < j.frameLen)

/-- A write of R to RESHAPE_DRIP (R372, R373, R392): refused, or the reshape is armed. -/
def State.armReshape (s : State) (v : Word) : Option State :=
  let r := BitVec.ofNat 48 v.toNat
  let h := s.hot.getD s.pkg.reshapeSlot {}
  match s.job, h.img with
  | some j, some n =>
    if s.pkg.reshapeArmed || !s.frameStartAfter r 2 || s.pkg.routeSwitch != some r ||
       !(s.pkg.collEpochs.contains r && s.pkg.collEpochReg == v.toNat) || h.st != 2 ||
       !sameSettings j n || !noneAcross j || !noneAcross n then none
    else
      let t := { s with pkg := { s.pkg with reshapeArmed := true, reshapeDrip := v.toNat, reshapeHot := h } }
      some (if s.epochs.switch_.isSome then
        ({ t with epochs := { t.epochs with switch_ := none } }).loadRecord 0 else t)
  | _, _ => none

/-- A write of 0 to RESHAPE_DRIP (R372). -/
def State.disarmReshape (s : State) : Option State :=
  let r := BitVec.ofNat 48 s.pkg.reshapeDrip
  if s.pkg.reshapeArmed && !((r - s.now).toNat < 2 ^ 47 && 2 ≤ (r - s.now).toNat) then none
  else some { s with pkg := { s.pkg with reshapeArmed := false, reshapeDrip := 0, reshapeHot := {} } }

/-- A device that a reshape leaves out ends every request, tears down every context and unloads (R374). -/
def State.leaveJob (s : State) : State :=
  let t := (s.cancelPending fun _ _ => true).eachSlice fun u i => u.endReqs i (fun _ => true) u.now u.now .cancelled
  let v := (t.ctxs.map (·.ctx)).foldl (fun (u : State) c => u.tearCtx c) t
  (v.settleAll v.now).unloadJob

/-- At R the device starts the new image, or leaves the job (R374). -/
def State.reshape (s : State) : State :=
  let k := s.pkg.reshapeSlot
  let h := s.pkg.reshapeHot
  if !s.pkg.reshapeArmed || BitVec.ofNat 48 s.pkg.reshapeDrip != s.now then s
  else
    let t := { s with
      pkg := { s.pkg with reshapeArmed := false, reshapeDrip := 0, reshapeHot := {} }
      hot := s.hot.map fun g => if g.st == 3 then { g with st := 2 } else g }
    match h.img with
    | none => t
    | some j =>
      if !j.nodes.contains s.pkg.nodeId then t.leaveJob
      else if !t.hotSound j h.manifest then t.leaveJob.loadRecord Status.checksum.code
      else match ((t.placeWeights j h.manifest).tagImages j).loadJob j h.manifest h.program s.now true with
        | some u => u.onHot k fun g => { g with st := 3 }
        | none => t.leaveJob.loadRecord Status.fault.code

/-- RESHAPE (R374). -/
def execReshape (s : State) : Out := .next s.reshape

end Sys2Proof.Machine
end

