-- ==== Sys2Proof/Machine/StillWater.lean ====
section
/-! DEFINITION. The pass digest (R405, R406). -/

namespace Sys2Proof.Machine

/-- The pass-digest record of a slice, for the pass of a frame (R406). -/
def State.passDigestMsg (s : State) (sl : Nat) (fr launch : Drip) : Bytes :=
  recordHeader 8 0 0 (s.place sl) 1 (launch.toNat % 65536) ++ slice (s.sliceDigest sl fr) 0 64 ++
    [BitVec.ofNat 8 (b2n ((s.sl sl).svc.passOf fr).disturbed)] ++ zeros 7

/-- PASS_DIGEST (R405, R406): at its launch the slice forms its record and sends its digest to every slice of the job. -/
def execPassDigest (sl : SliceId) (i : Nat) (s : State) : Out :=
  match s.actingRun sl i .passDigest with
  | none => .next s
  | some (u, t) =>
    let msg := t.passDigestMsg sl u.frame u.launchDrip
    .next (t.members.foldl (fun (v : State) p => v.sendRecord sl u.entry.f.injection p msg) t)

/-- The slices of the job in ascending node and slice. -/
def State.membersInOrder (s : State) : List Place :=
  s.members.mergeSort fun a b => decide (placeNat a ≤ placeNat b)

/-- At the due drip of the stage the slice forms the pass digest from the slice digests that have landed, whether the stage
launched or missed; one that has not landed contributes zeros and marks the pass INCOMPLETE (R406). A stage that launched is complete
with it. -/
def State.formPass (s : State) (sl : Nat) (u : Run) : State :=
  let ps := s.membersInOrder
  let got := ((s.sl sl).svc.passOf u.frame).digests
  let one (p : Place) : Bytes := match got.find? fun g => g.1 == p with | some g => g.2.1 | none => zeros 64
  let all := ps.all fun p => got.any fun g => g.1 == p
  s.onSl sl fun x =>
    let y := { x with svc := x.svc.onPass u.frame fun p =>
      { p with passDigest := digest64 (0x05#8 :: (ps.map one).flatten), incomplete := p.incomplete || !all } }
    if u.st == .launched then y.completeRun u else y

/-- A PASS_DIGEST stage whose due drip this is and whose pass has no digest yet. -/
def SliceState.digestDue (x : SliceState) (now : Drip) (u : Run) : Bool :=
  u.entry.kind == .passDigest && u.dueDrip == now && (x.svc.passOf u.frame).passDigest.isEmpty

/-- PASS_DIGEST_FORM (R406). -/
def execPassDigestForm (sl : SliceId) (i : Nat) (s : State) : Out :=
  match (s.sl sl).runs.find? fun u => u.idx == i && (s.sl sl).digestDue s.now u with
  | some u => .next (s.formPass sl u)
  | none => .next s

/-- The pass digests of a slice that are due in a drip and that no PASS_DIGEST_FORM has formed are formed as the drip ends. -/
def State.formDue (s : State) (sl : Nat) : State :=
  ((s.sl sl).runs.filter ((s.sl sl).digestDue s.now)).foldl (fun t u => t.formPass sl u) s

end Sys2Proof.Machine
end

