-- ==== Sys2Proof/Machine/Security.lean ====
section
/-! DEFINITION. The security controller (chapter 16): the entropy source, quotes, and the measurement of the firmware that is
being replaced. -/

namespace Sys2Proof.Machine

/-! ### The entropy source (R414) -/

/-- TRNG_HEALTH_FAIL (R414): no new link or lantern session until the tests pass again. -/
def execTrngHealthFail (s : State) : Out :=
  .next (({ s with sec := { s.sec with trngFailing := true } }).report 0 (mkReport 0x12 12 0))

/-- TRNG_HEALTH_PASS (R414): sessions are accepted again; ports that waited in AUTH begin theirs, and those that are through it come
UP. -/
def execTrngHealthPass (s : State) : Out :=
  let t := { s with sec := { s.sec with trngFailing := false } }
  .next (t.eachSlice fun u i => (List.range 8).foldl (fun (v : State) p =>
    let k := v.link i (.port (Fin.ofNat 8 p))
    if k.st = linkAuth && k.sess.hello.isEmpty then v.beginAuth i p else v.tryAuthUp i p) u)

/-! ### Quotes (R424) -/

/-- The processor of step k is being handed over, forward or back, or is on its way back to its old image (R463, R466). -/
def Firmware.handing (f : Firmware) (k : Nat) : Bool :=
  (f.switching && ((f.rollout == 1 && f.step + 1 == k) || (f.rollout == 3 && f.step == k))) || f.returning.any (·.1 == k)

/-- A handover of the security controller runs: step 34 of a rollout (R463). -/
def State.securityHandover (s : State) : Bool :=
  s.fw.handing 34

/-- Quotes are refused while one is made, while a handover of the security controller runs, and without a good identity. -/
def State.quoteRefused (s : State) : Bool := s.sec.quoteState == 1 || s.securityHandover || s.sec.identity != 1

/-- The quote body up to its signature (Table 16-5). -/
def State.quoteBodyFor (s : State) (nonce : Bytes) : Bytes :=
  leBytes 2 1 ++
  leBytes 2 (b2n s.still.on + field (b2n s.job.isSome) 1 1 + field (b2n s.dict.ownerLock) 1 2 +
    field (b2n s.sec.handoverSinceBoot) 1 3) ++
  leBytes 4 (s.pkg.nodeId % 2 ^ 20) ++ leBytes 8 s.fwVersion ++ leBytes 8 s.sec.bootCount ++ leBytes 8 s.now.toNat ++
  leBytes 8 s.time.now ++ slice nonce 0 32 ++ slice s.sec.quoteData 0 64 ++ slice s.unitMapDigest 0 64 ++
  ((List.range 8).map fun k => slice (s.sec.mr.getD k []) 0 64).flatten ++ leBytes 8 s.sec.logCount ++ leBytes 8 s.sec.logLost

/-- A nonce is written: the registers are snapshot and the quote is being made (R424). -/
def State.askQuote (s : State) (nonce : Bytes) : Option State :=
  if s.quoteRefused then none
  else some { s with sec := { s.sec with quoteState := 1, quoteBody := s.quoteBodyFor nonce, quoteNonce := nonce } }

/-- QUOTE_COMPLETE (R424): body and signature stand in QUOTE, and QUOTE_DATA is cleared. -/
def execQuoteComplete (s : State) : Out :=
  if s.sec.quoteState = 1 then
    .next { s with sec := { s.sec with
      quoteState := 2, quoteData := [], quoteBody := []
      quote := s.sec.quoteBody ++ slice (Config.ed448Sign s.identitySeed "KN800-QUOTE" s.sec.quoteBody) 0 114 } }
  else .next s

end Sys2Proof.Machine
end

