-- ==== Sys2Proof/Machine/FirmwareOps.lean ====
section
/-! DEFINITION. Operations on firmware sets (chapter 18): slots, staging and its checks, the start of a rollout, and its
conditions. The commands stand in Firmware.lean. -/

namespace Sys2Proof.Machine

/-! ### Slots and set images (R459 to R461) -/

/-- The most bytes a slot holds: 96 MiB. -/
def slotBytes : Nat := 100663296

/-- The staging slot: neither running nor boot (R459). -/
def Firmware.staging? (f : Firmware) : Option Nat := if f.running = f.boot then some (1 - f.running) else none

/-- ROLLBACK and CERT_LEN of a set image. -/
def setRollback (img : Bytes) : Nat := leNat (slice img 12 4)
def setCertLen (img : Bytes) : Nat := leNat (slice img 20 2)
def setCert (img : Bytes) : Bytes := slice img 504 (setCertLen img)

/-- Entry k of the image table: KIND, OFFSET, LENGTH and digest. -/
def setKind (img : Bytes) (k : Nat) : Nat := leNat (slice img (24 + 80 * k) 1)
def setOffset (img : Bytes) (k : Nat) : Nat := leNat (slice img (24 + 80 * k + 4) 4)
def setLength (img : Bytes) (k : Nat) : Nat := leNat (slice img (24 + 80 * k + 8) 4)
def setDigest (img : Bytes) (k : Nat) : Bytes := slice img (24 + 80 * k + 16) 64

/-- The entry of a KIND. -/
def setEntry (img : Bytes) (kind : Nat) : Nat := ((List.range 6).find? fun k => setKind img k == kind).getD kind

/-- Every image of a set matches its digest. -/
def digestsOk (img : Bytes) : Bool :=
  (List.range 6).all fun k => digest64 (slice img (setOffset img k) (setLength img k)) == setDigest img k

/-- The first check of Table 18-3 that an image of TOTAL_LEN bytes fails, 0 for none. -/
def State.stagingCheck (s : State) (img : Bytes) (total : Nat) : Nat :=
  let body := 504 + setCertLen img
  if total != img.length || total != leNat (slice img 16 4) || slotBytes < total || total < body + 114 ||
     (List.range 6).any (fun k => decide (setOffset img k < body) || decide (total - 114 < setOffset img k + setLength img k)) then 1
  else if leNat (slice img 0 2) != 1 || leNat (slice img 2 2) != 0 || leNat (slice img 22 2) != 0 ||
     (List.range 6).any (fun k => leNat (slice img (24 + 80 * k + 1) 3) != 0 || leNat (slice img (24 + 80 * k + 12) 4) != 0 ||
       !((List.range 6).any fun j => setKind img j == k)) ||
     (List.range 6).any (fun k => (List.range k).any fun j =>
       decide (setOffset img k < setOffset img j + setLength img j) && decide (setOffset img j < setOffset img k + setLength img k)) then 2
  else if !Config.certSigned Config.rootKey (setCert img) then 3
  else if (revokedSerials s.sec.revoked.length s.sec.revoked).contains (Config.certSerial (setCert img)) then 4
  else if !Config.ed448Verify (Config.certKey (setCert img)) "KN800-FW" (digest64 (0x50#8 :: img.take (total - 114))) (img.drop (total - 114)) then 5
  else if !digestsOk img then 6
  else if setRollback img < s.fw.counter then 7
  else if 0xFEFF < bits (setVersion img) 47 32 then 8
  else 0

/-- A staging write is refused by the device's state (R460). -/
def State.stageRefused (s : State) (len : Nat) : Bool :=
  s.fw.rollout == 1 || s.fw.rollout == 2 || s.fw.rollout == 3 || s.fw.running != s.fw.boot || decide (slotBytes < s.fw.stageOffset + len)

/-- A segment lands in the staging slot at FW_STAGE_OFFSET, which advances; the first one empties the slot (R460). -/
def State.stageData (s : State) (v : Bytes) : State :=
  match s.fw.staging? with
  | none => s
  | some k =>
    let f := s.fw
    let old := if f.stageState = 1 then f.slots.getD k [] else []
    { s with fw := { f with
        slots := f.slots.set k (slice old 0 f.stageOffset ++ v ++ old.drop (f.stageOffset + v.length))
        valid := f.valid.set k false, stageState := 1, stageReason := 0, stageOffset := f.stageOffset + v.length } }

/-- FW_STAGE_COMMIT (R461). -/
def State.stageCommit (s : State) (total : Nat) : Option State :=
  match s.fw.staging? with
  | none => none
  | some k =>
    let r := s.stagingCheck (s.fw.slots.getD k []) total
    let t := { s with fw := { s.fw with
      stageState := if r = 0 then 2 else 3, stageReason := r, valid := s.fw.valid.set k (r == 0) } }
    some (if r = 0 then t else t.report 0 (mkReport 0x14 11 0))

/-! ### Rollouts (R456 to R466) -/

/-- R458: one class, and minors that differ by at most 1. -/
def pairOk (a b : Nat) : Bool :=
  verClass a == verClass b && decide (verMinor a ≤ verMinor b + 1) && decide (verMinor b ≤ verMinor a + 1)

/-- A write of 1 or 2 to FW_ROLLOUT (R462): refused, or the rollout or rollback starts. -/
def State.startRollout (s : State) (v : Nat) : Option State :=
  let f := s.fw
  let to? : Option Nat := if v = 1 then (match f.staging? with | some k => if f.stageState = 2 then some k else none | none => none)
    else some (1 - f.running)
  match to? with
  | none => none
  | some k =>
    if !(f.rollout = 0 || f.rollout = 4) || !f.valid.getD k false || s.pkg.reshapeArmed || !s.dict.holdup || f.committing ||
       !pairOk (setVersion (f.slots.getD f.running [])) (setVersion (f.slots.getD k [])) then none
    else some { s with fw := { f with
      rollout := 1, step := 0, hold := 0, target := k, startDrip := s.now, switching := false, collHold := 0 } }

/-- The slice of a processor's step, if it has one, and its kind (Table 18-1). -/
def stepSlice (k : Nat) : Option Nat := if 1 ≤ k ∧ k ≤ 32 then some ((k - 1) % 8) else none
def stepKind (k : Nat) : Nat := if k ≤ 32 then (k - 1) / 8 else k - 29

/-- The next step of a rollout, or the step that a reversal undoes. -/
def Firmware.nextStep (f : Firmware) : Nat := if f.rollout = 3 then f.step else f.step + 1

/-- The collective condition of R463 holds for a step. -/
def State.collFree (s : State) (k : Nat) : Bool :=
  match stepSlice k with
  | some i => !(stepKind k == 2 || stepKind k == 3) || (s.sl i).coll.steps.all fun c => c.completed
  | none => true

/-- A drip is a frame start of the loaded job. -/
def State.isFrameStart (s : State) (d : Drip) : Bool :=
  match s.job with
  | some j => !Drip.later s.frame0 d && (d - s.frame0).toNat % max 1 j.frameLen == 0
  | none => false

/-- While a still-water job is loaded (R399). -/
def State.stillJob (s : State) : Bool := match s.job with | some j => j.stillWater | none => false

/-- The lowest-numbered reason that holds a rollout, 0 for none (R465). -/
def State.holdReason (s : State) : Nat :=
  if s.dict.ownerLock then 1
  else if s.pkg.reshapeArmed then 2
  else if !s.dict.holdup then 3
  else if 1048576 ≤ s.fw.collHold then 4
  else 0

/-- A rollout enters HELD before its next step, or returns from it (R465). -/
def State.checkHold (s : State) : State :=
  let r := s.holdReason
  if s.fw.rollout = 1 && !s.fw.switching && decide (s.fw.step < 34) && r != 0 then { s with fw := { s.fw with rollout := 2, hold := r } }
  else if s.fw.rollout = 2 then
    (if r = 0 then { s with fw := { s.fw with rollout := 1, hold := 0, startDrip := s.now } } else { s with fw := { s.fw with hold := r } })
  else s

/-- The drip is one at which the next handover may fall (R463). A rollout that returns from HELD waits 2 drips as one that starts
does: step 10 of Table 18-4 (DEDUCED, log 130). -/
def State.handoverDue (s : State) : Bool :=
  let f := s.fw
  let first := f.rollout == 1 && f.step == 0
  let ready := !Drip.later (f.startDrip.plus 2) s.now && (first || !Drip.later (f.lastH.plus f.settle) s.now)
  (f.rollout == 1 || f.rollout == 3) && !f.switching && decide (1 ≤ f.nextStep) && decide (f.nextStep ≤ 34) && ready &&
  (f.rollout == 3 || s.holdReason == 0) && s.collFree f.nextStep && (!s.stillJob || s.isFrameStart s.now)

/-- The rollout turns back; with nothing to undo it has failed (R466). -/
def State.reverting (s : State) : State := { s with fw := { s.fw with rollout := if s.fw.step = 0 then 4 else 3, switching := false } }

end Sys2Proof.Machine
end

