-- ==== Sys2Proof/Machine/DictTables.lean ====
section
/-! DEFINITION. The entries of the object dictionary (Tables 02-7 to 21-4, R440, R443, R445): index, sub-index, type, access
for HOST, OPERATOR and OWNER (1 read, 2 write, 3 both, 0 hidden), persistence, channel scope, owner lock and maximum length. -/

namespace Sys2Proof.Machine

/-- An entry. `ty`: code of Table 17-2. -/
structure Entry where
  index : Nat
  sub : Nat
  ty : Nat
  host : Nat
  operator : Nat
  owner : Nat
  persist : Bool
  chan : Bool
  lock : Bool
  len : Nat
  deriving DecidableEq, Repr, Inhabited

/-- Entries 0x1000:01 to 0x2010:06. -/
def entries0 : List Entry := [
  ⟨0x1000, 1, 7, 1, 1, 1, true, false, false, 256⟩,
  ⟨0x1000, 2, 7, 1, 1, 1, true, false, false, 256⟩,
  ⟨0x1000, 3, 7, 1, 1, 1, true, false, false, 256⟩,
  ⟨0x1000, 4, 7, 1, 1, 1, true, false, false, 256⟩,
  ⟨0x1000, 5, 1, 1, 1, 1, true, false, false, 0⟩,
  ⟨0x1000, 6, 1, 1, 1, 1, false, false, false, 0⟩,
  ⟨0x1000, 7, 2, 1, 1, 1, false, false, false, 0⟩,
  ⟨0x2000, 1, 1, 1, 1, 1, false, false, false, 0⟩,
  ⟨0x2000, 2, 0, 1, 1, 3, true, false, false, 0⟩,
  ⟨0x2000, 3, 0, 0, 2, 0, false, false, true, 0⟩,
  ⟨0x2000, 4, 0, 1, 1, 1, false, false, false, 0⟩,
  ⟨0x2000, 5, 1, 1, 1, 1, false, false, false, 0⟩,
  ⟨0x2000, 6, 2, 1, 1, 1, false, false, false, 0⟩,
  ⟨0x2000, 7, 1, 1, 1, 1, false, false, false, 0⟩,
  ⟨0x2000, 8, 3, 1, 1, 1, false, false, false, 0⟩,
  ⟨0x2000, 9, 4, 1, 1, 1, false, false, false, 0⟩,
  ⟨0x2000, 10, 4, 1, 1, 1, false, false, false, 0⟩,
  ⟨0x2000, 11, 4, 1, 1, 1, false, false, false, 0⟩,
  ⟨0x2010, 1, 8, 1, 1, 1, true, false, false, 6⟩,
  ⟨0x2010, 2, 1, 1, 3, 1, true, false, false, 0⟩,
  ⟨0x2010, 3, 8, 1, 3, 1, true, false, false, 16⟩,
  ⟨0x2010, 4, 1, 1, 3, 1, true, false, false, 0⟩,
  ⟨0x2010, 5, 8, 1, 3, 1, true, false, false, 16⟩,
  ⟨0x2010, 6, 2, 1, 3, 1, true, false, false, 0⟩]

/-- Entries 0x2010:07 to 0x2204:02. -/
def entries1 : List Entry := [
  ⟨0x2010, 7, 3, 1, 3, 1, true, false, false, 0⟩,
  ⟨0x2010, 8, 1, 1, 1, 1, false, false, false, 0⟩,
  ⟨0x2010, 9, 4, 1, 1, 1, false, false, false, 0⟩,
  ⟨0x2020, 1, 3, 1, 1, 1, true, false, false, 0⟩,
  ⟨0x2100, 1, 1, 1, 1, 1, false, false, false, 0⟩,
  ⟨0x2100, 2, 5, 0, 1, 1, false, false, false, 0⟩,
  ⟨0x2100, 3, 1, 1, 1, 1, false, false, false, 0⟩,
  ⟨0x2100, 4, 0, 0, 3, 1, true, false, false, 0⟩,
  ⟨0x2100, 5, 4, 0, 2, 0, false, false, false, 0⟩,
  ⟨0x2100, 6, 3, 0, 1, 1, false, false, false, 0⟩,
  ⟨0x2200, 1, 0, 3, 3, 1, true, false, false, 0⟩,
  ⟨0x2200, 2, 1, 1, 1, 1, false, false, false, 0⟩,
  ⟨0x2200, 3, 1, 1, 1, 1, false, false, false, 0⟩,
  ⟨0x2201, 1, 0, 3, 3, 1, true, false, false, 0⟩,
  ⟨0x2201, 2, 1, 1, 1, 1, false, false, false, 0⟩,
  ⟨0x2201, 3, 1, 1, 1, 1, false, false, false, 0⟩,
  ⟨0x2202, 1, 0, 3, 3, 1, true, false, false, 0⟩,
  ⟨0x2202, 2, 1, 1, 1, 1, false, false, false, 0⟩,
  ⟨0x2202, 3, 1, 1, 1, 1, false, false, false, 0⟩,
  ⟨0x2203, 1, 0, 3, 3, 1, true, false, false, 0⟩,
  ⟨0x2203, 2, 1, 1, 1, 1, false, false, false, 0⟩,
  ⟨0x2203, 3, 1, 1, 1, 1, false, false, false, 0⟩,
  ⟨0x2204, 1, 0, 3, 3, 1, true, true, false, 0⟩,
  ⟨0x2204, 2, 1, 1, 1, 1, false, true, false, 0⟩]

/-- Entries 0x2204:03 to 0x3220:08. -/
def entries2 : List Entry := [
  ⟨0x2204, 3, 1, 1, 1, 1, false, true, false, 0⟩,
  ⟨0x2205, 1, 0, 3, 3, 1, true, true, false, 0⟩,
  ⟨0x2205, 2, 1, 1, 1, 1, false, true, false, 0⟩,
  ⟨0x2205, 3, 1, 1, 1, 1, false, true, false, 0⟩,
  ⟨0x2206, 1, 0, 3, 3, 1, true, true, false, 0⟩,
  ⟨0x2206, 2, 1, 1, 1, 1, false, true, false, 0⟩,
  ⟨0x2206, 3, 1, 1, 1, 1, false, true, false, 0⟩,
  ⟨0x3200, 1, 4, 0, 0, 1, false, true, false, 0⟩,
  ⟨0x3200, 2, 4, 0, 0, 1, false, true, false, 0⟩,
  ⟨0x3200, 3, 4, 0, 1, 1, false, true, false, 0⟩,
  ⟨0x3200, 4, 4, 0, 1, 1, false, true, false, 0⟩,
  ⟨0x3200, 5, 4, 0, 0, 1, false, true, false, 0⟩,
  ⟨0x3210, 1, 4, 1, 1, 1, false, true, false, 0⟩,
  ⟨0x3210, 2, 4, 0, 1, 1, false, true, false, 0⟩,
  ⟨0x3210, 3, 4, 0, 0, 1, false, true, false, 0⟩,
  ⟨0x3210, 4, 3, 1, 1, 1, false, true, false, 0⟩,
  ⟨0x3220, 1, 4, 0, 0, 1, false, true, false, 0⟩,
  ⟨0x3220, 2, 4, 0, 0, 1, false, true, false, 0⟩,
  ⟨0x3220, 3, 4, 0, 0, 1, false, true, false, 0⟩,
  ⟨0x3220, 4, 4, 0, 1, 1, false, true, false, 0⟩,
  ⟨0x3220, 5, 4, 1, 1, 1, false, true, false, 0⟩,
  ⟨0x3220, 6, 4, 0, 1, 1, false, true, false, 0⟩,
  ⟨0x3220, 7, 4, 0, 0, 1, false, true, false, 0⟩,
  ⟨0x3220, 8, 4, 1, 1, 1, false, true, false, 0⟩]

/-- Entries 0x3220:09 to 0x3270:02. -/
def entries3 : List Entry := [
  ⟨0x3220, 9, 4, 1, 1, 1, false, true, false, 0⟩,
  ⟨0x3230, 1, 4, 0, 0, 1, false, true, false, 0⟩,
  ⟨0x3230, 2, 4, 0, 0, 1, false, true, false, 0⟩,
  ⟨0x3230, 3, 4, 1, 1, 1, false, true, false, 0⟩,
  ⟨0x3230, 4, 4, 1, 1, 1, false, true, false, 0⟩,
  ⟨0x3230, 5, 4, 1, 1, 1, false, true, false, 0⟩,
  ⟨0x3230, 6, 4, 0, 1, 1, false, true, false, 0⟩,
  ⟨0x3230, 7, 3, 1, 1, 1, false, true, false, 0⟩,
  ⟨0x3240, 1, 4, 0, 1, 1, false, true, false, 0⟩,
  ⟨0x3240, 2, 4, 1, 1, 1, false, true, false, 0⟩,
  ⟨0x3240, 3, 4, 1, 1, 1, false, true, false, 0⟩,
  ⟨0x3240, 4, 4, 1, 1, 1, false, true, false, 0⟩,
  ⟨0x3250, 1, 4, 0, 0, 1, false, true, false, 0⟩,
  ⟨0x3250, 2, 4, 0, 1, 1, false, true, false, 0⟩,
  ⟨0x3250, 3, 4, 0, 1, 1, false, true, false, 0⟩,
  ⟨0x3250, 4, 4, 1, 1, 1, false, true, false, 0⟩,
  ⟨0x3250, 5, 4, 1, 1, 1, false, true, false, 0⟩,
  ⟨0x3250, 6, 4, 0, 1, 1, false, true, false, 0⟩,
  ⟨0x3260, 1, 2, 3, 3, 3, false, true, false, 0⟩,
  ⟨0x3260, 2, 8, 3, 1, 3, false, true, false, 32⟩,
  ⟨0x3260, 3, 8, 2, 0, 2, false, true, false, 16⟩,
  ⟨0x3260, 4, 2, 1, 1, 1, false, true, false, 0⟩,
  ⟨0x3270, 1, 4, 0, 0, 1, false, true, false, 0⟩,
  ⟨0x3270, 2, 4, 1, 1, 1, false, true, false, 0⟩]

/-- Entries 0x3270:03 to 0x4000:05. -/
def entries4 : List Entry := [
  ⟨0x3270, 3, 4, 0, 1, 1, false, true, false, 0⟩,
  ⟨0x3270, 4, 4, 0, 1, 1, false, true, false, 0⟩,
  ⟨0x3270, 5, 4, 0, 1, 1, false, true, false, 0⟩,
  ⟨0x3270, 6, 4, 0, 0, 1, false, true, false, 0⟩,
  ⟨0x3270, 7, 4, 1, 1, 1, false, true, false, 0⟩,
  ⟨0x3270, 8, 1, 3, 3, 3, false, true, false, 0⟩,
  ⟨0x3270, 9, 8, 1, 1, 1, false, true, false, 16400⟩,
  ⟨0x3270, 10, 8, 2, 0, 2, false, true, false, 16400⟩,
  ⟨0x3280, 1, 4, 3, 1, 1, false, true, false, 0⟩,
  ⟨0x3280, 2, 3, 3, 1, 1, false, true, false, 0⟩,
  ⟨0x3280, 3, 0, 3, 1, 1, false, true, false, 0⟩,
  ⟨0x3280, 4, 3, 1, 1, 1, false, true, false, 0⟩,
  ⟨0x3280, 5, 3, 3, 3, 1, true, true, false, 0⟩,
  ⟨0x3280, 6, 2, 3, 3, 1, true, true, false, 0⟩,
  ⟨0x3280, 7, 2, 1, 1, 1, false, true, false, 0⟩,
  ⟨0x3280, 8, 4, 1, 1, 1, false, true, false, 0⟩,
  ⟨0x3290, 1, 3, 1, 1, 1, false, true, false, 0⟩,
  ⟨0x3290, 2, 1, 1, 1, 1, false, true, false, 0⟩,
  ⟨0x3290, 3, 4, 1, 1, 1, false, true, false, 0⟩,
  ⟨0x4000, 1, 3, 1, 3, 1, true, false, false, 0⟩,
  ⟨0x4000, 2, 1, 1, 3, 1, true, false, true, 0⟩,
  ⟨0x4000, 3, 1, 1, 1, 1, false, false, false, 0⟩,
  ⟨0x4000, 4, 4, 0, 3, 1, false, false, false, 0⟩,
  ⟨0x4000, 5, 3, 1, 3, 1, true, false, false, 0⟩]

/-- Entries 0x4000:06 to 0x4011:08. -/
def entries5 : List Entry := [
  ⟨0x4000, 6, 8, 0, 3, 1, true, false, false, 49152⟩,
  ⟨0x4000, 7, 8, 0, 3, 1, true, false, false, 49152⟩,
  ⟨0x4000, 8, 3, 1, 3, 1, true, false, false, 0⟩,
  ⟨0x4000, 9, 1, 1, 3, 1, true, false, false, 0⟩,
  ⟨0x4000, 10, 3, 1, 3, 1, true, false, false, 0⟩,
  ⟨0x4000, 11, 3, 1, 3, 1, true, false, false, 0⟩,
  ⟨0x4000, 12, 3, 1, 3, 1, true, false, false, 0⟩,
  ⟨0x4000, 13, 3, 1, 3, 1, true, false, false, 0⟩,
  ⟨0x4010, 1, 1, 1, 1, 1, false, true, false, 0⟩,
  ⟨0x4010, 2, 1, 1, 1, 1, false, true, false, 0⟩,
  ⟨0x4010, 3, 1, 1, 1, 1, false, true, false, 0⟩,
  ⟨0x4010, 4, 1, 1, 1, 1, false, true, false, 0⟩,
  ⟨0x4010, 5, 1, 1, 1, 1, false, true, false, 0⟩,
  ⟨0x4010, 6, 1, 1, 1, 1, false, true, false, 0⟩,
  ⟨0x4010, 7, 1, 1, 1, 1, false, true, false, 0⟩,
  ⟨0x4010, 8, 1, 1, 1, 1, false, true, false, 0⟩,
  ⟨0x4011, 1, 0, 0, 3, 1, true, true, false, 0⟩,
  ⟨0x4011, 2, 0, 0, 3, 1, true, true, false, 0⟩,
  ⟨0x4011, 3, 0, 0, 3, 1, true, true, false, 0⟩,
  ⟨0x4011, 4, 0, 0, 3, 1, true, true, false, 0⟩,
  ⟨0x4011, 5, 0, 0, 3, 1, true, true, false, 0⟩,
  ⟨0x4011, 6, 0, 0, 3, 1, true, true, false, 0⟩,
  ⟨0x4011, 7, 0, 0, 3, 1, true, true, false, 0⟩,
  ⟨0x4011, 8, 0, 0, 3, 1, true, true, false, 0⟩]

/-- Entries 0x4012:01 to 0x4014:08. -/
def entries6 : List Entry := [
  ⟨0x4012, 1, 2, 0, 1, 1, true, true, false, 0⟩,
  ⟨0x4012, 2, 2, 0, 1, 1, true, true, false, 0⟩,
  ⟨0x4012, 3, 2, 0, 1, 1, true, true, false, 0⟩,
  ⟨0x4012, 4, 2, 0, 1, 1, true, true, false, 0⟩,
  ⟨0x4012, 5, 2, 0, 1, 1, true, true, false, 0⟩,
  ⟨0x4012, 6, 2, 0, 1, 1, true, true, false, 0⟩,
  ⟨0x4012, 7, 2, 0, 1, 1, true, true, false, 0⟩,
  ⟨0x4012, 8, 2, 0, 1, 1, true, true, false, 0⟩,
  ⟨0x4013, 1, 4, 0, 1, 1, false, true, false, 0⟩,
  ⟨0x4013, 2, 4, 0, 1, 1, false, true, false, 0⟩,
  ⟨0x4013, 3, 4, 0, 1, 1, false, true, false, 0⟩,
  ⟨0x4013, 4, 4, 0, 1, 1, false, true, false, 0⟩,
  ⟨0x4013, 5, 4, 0, 1, 1, false, true, false, 0⟩,
  ⟨0x4013, 6, 4, 0, 1, 1, false, true, false, 0⟩,
  ⟨0x4013, 7, 4, 0, 1, 1, false, true, false, 0⟩,
  ⟨0x4013, 8, 4, 0, 1, 1, false, true, false, 0⟩,
  ⟨0x4014, 1, 4, 1, 1, 1, false, true, false, 0⟩,
  ⟨0x4014, 2, 4, 1, 1, 1, false, true, false, 0⟩,
  ⟨0x4014, 3, 4, 1, 1, 1, false, true, false, 0⟩,
  ⟨0x4014, 4, 4, 1, 1, 1, false, true, false, 0⟩,
  ⟨0x4014, 5, 4, 1, 1, 1, false, true, false, 0⟩,
  ⟨0x4014, 6, 4, 1, 1, 1, false, true, false, 0⟩,
  ⟨0x4014, 7, 4, 1, 1, 1, false, true, false, 0⟩,
  ⟨0x4014, 8, 4, 1, 1, 1, false, true, false, 0⟩]

/-- Entries 0x4015:01 to 0x4040:03. -/
def entries7 : List Entry := [
  ⟨0x4015, 1, 4, 0, 1, 1, false, true, false, 0⟩,
  ⟨0x4015, 2, 4, 0, 1, 1, false, true, false, 0⟩,
  ⟨0x4015, 3, 4, 0, 1, 1, false, true, false, 0⟩,
  ⟨0x4015, 4, 4, 0, 1, 1, false, true, false, 0⟩,
  ⟨0x4015, 5, 4, 0, 1, 1, false, true, false, 0⟩,
  ⟨0x4015, 6, 4, 0, 1, 1, false, true, false, 0⟩,
  ⟨0x4015, 7, 4, 0, 1, 1, false, true, false, 0⟩,
  ⟨0x4015, 8, 4, 0, 1, 1, false, true, false, 0⟩,
  ⟨0x4016, 1, 4, 1, 1, 1, false, true, false, 0⟩,
  ⟨0x4016, 2, 4, 1, 1, 1, false, true, false, 0⟩,
  ⟨0x4016, 3, 4, 1, 1, 1, false, true, false, 0⟩,
  ⟨0x4016, 4, 4, 1, 1, 1, false, true, false, 0⟩,
  ⟨0x4016, 5, 4, 1, 1, 1, false, true, false, 0⟩,
  ⟨0x4016, 6, 4, 1, 1, 1, false, true, false, 0⟩,
  ⟨0x4016, 7, 4, 1, 1, 1, false, true, false, 0⟩,
  ⟨0x4016, 8, 4, 1, 1, 1, false, true, false, 0⟩,
  ⟨0x4020, 1, 4, 0, 1, 1, false, true, false, 0⟩,
  ⟨0x4020, 2, 4, 1, 1, 1, false, true, false, 0⟩,
  ⟨0x4020, 3, 3, 1, 1, 1, false, true, false, 0⟩,
  ⟨0x4030, 1, 4, 0, 3, 1, false, false, false, 0⟩,
  ⟨0x4030, 2, 1, 0, 3, 1, false, false, false, 0⟩,
  ⟨0x4040, 1, 4, 1, 1, 1, false, true, false, 0⟩,
  ⟨0x4040, 2, 4, 1, 1, 1, false, true, false, 0⟩,
  ⟨0x4040, 3, 4, 0, 1, 1, false, true, false, 0⟩]

/-- Entries 0x4040:04 to 0x5010:07. -/
def entries8 : List Entry := [
  ⟨0x4040, 4, 4, 1, 1, 1, false, true, false, 0⟩,
  ⟨0x4040, 5, 4, 0, 1, 1, false, true, false, 0⟩,
  ⟨0x4040, 6, 4, 1, 1, 1, false, true, false, 0⟩,
  ⟨0x4040, 7, 4, 1, 1, 1, false, true, false, 0⟩,
  ⟨0x5000, 1, 4, 1, 1, 1, false, true, false, 0⟩,
  ⟨0x5000, 2, 4, 1, 1, 1, false, true, false, 0⟩,
  ⟨0x5000, 3, 4, 1, 1, 1, false, true, false, 0⟩,
  ⟨0x5000, 4, 4, 1, 1, 1, false, true, false, 0⟩,
  ⟨0x5000, 5, 4, 1, 1, 1, false, true, false, 0⟩,
  ⟨0x5000, 6, 3, 1, 1, 1, false, true, false, 0⟩,
  ⟨0x5000, 7, 3, 1, 1, 1, false, true, false, 0⟩,
  ⟨0x5000, 8, 3, 1, 1, 1, false, true, false, 0⟩,
  ⟨0x5000, 9, 4, 1, 1, 1, false, true, false, 0⟩,
  ⟨0x5000, 10, 3, 1, 3, 1, true, true, true, 0⟩,
  ⟨0x5000, 11, 3, 1, 1, 1, false, true, false, 0⟩,
  ⟨0x5000, 12, 4, 1, 1, 1, false, true, false, 0⟩,
  ⟨0x5000, 13, 4, 1, 1, 1, false, true, false, 0⟩,
  ⟨0x5010, 1, 4, 0, 0, 1, false, true, false, 0⟩,
  ⟨0x5010, 2, 4, 0, 0, 1, false, true, false, 0⟩,
  ⟨0x5010, 3, 4, 0, 0, 1, false, true, false, 0⟩,
  ⟨0x5010, 4, 4, 0, 1, 1, false, true, false, 0⟩,
  ⟨0x5010, 5, 4, 1, 1, 1, false, true, false, 0⟩,
  ⟨0x5010, 6, 4, 0, 0, 1, false, true, false, 0⟩,
  ⟨0x5010, 7, 4, 0, 0, 1, false, true, false, 0⟩]

/-- Entries 0x5010:08 to 0x6101:04. -/
def entries9 : List Entry := [
  ⟨0x5010, 8, 4, 0, 1, 1, false, true, false, 0⟩,
  ⟨0x5010, 9, 4, 0, 1, 1, false, true, false, 0⟩,
  ⟨0x5010, 10, 4, 1, 1, 1, false, true, false, 0⟩,
  ⟨0x5010, 11, 4, 1, 1, 1, false, true, false, 0⟩,
  ⟨0x5010, 12, 4, 1, 1, 1, false, true, false, 0⟩,
  ⟨0x5010, 13, 4, 1, 1, 1, false, true, false, 0⟩,
  ⟨0x5010, 14, 4, 1, 1, 1, false, true, false, 0⟩,
  ⟨0x5020, 1, 3, 1, 3, 1, true, false, false, 0⟩,
  ⟨0x5020, 2, 3, 1, 3, 1, true, false, false, 0⟩,
  ⟨0x5020, 3, 0, 1, 3, 1, true, false, true, 0⟩,
  ⟨0x6000, 1, 3, 1, 3, 1, true, false, true, 0⟩,
  ⟨0x6000, 2, 4, 1, 1, 1, false, false, false, 0⟩,
  ⟨0x6000, 3, 9, 1, 1, 1, false, false, false, 0⟩,
  ⟨0x6000, 4, 4, 1, 1, 1, false, false, false, 0⟩,
  ⟨0x6000, 5, 4, 0, 0, 1, false, false, false, 0⟩,
  ⟨0x6040, 1, 2, 1, 1, 1, false, false, false, 0⟩,
  ⟨0x6040, 2, 4, 3, 1, 3, false, false, false, 0⟩,
  ⟨0x6100, 1, 1, 3, 3, 3, false, false, false, 0⟩,
  ⟨0x6100, 2, 1, 1, 1, 1, false, false, false, 0⟩,
  ⟨0x6100, 3, 1, 1, 1, 1, false, false, false, 0⟩,
  ⟨0x6101, 1, 1, 3, 3, 3, false, false, false, 0⟩,
  ⟨0x6101, 2, 4, 3, 1, 1, false, false, false, 0⟩,
  ⟨0x6101, 3, 3, 3, 1, 1, false, false, false, 0⟩,
  ⟨0x6101, 4, 0, 3, 1, 1, false, false, false, 0⟩]

/-- Entries 0x6101:05 to 0x6200:0B. -/
def entries10 : List Entry := [
  ⟨0x6101, 5, 3, 3, 1, 1, false, false, false, 0⟩,
  ⟨0x6101, 6, 3, 1, 1, 1, false, false, false, 0⟩,
  ⟨0x6101, 7, 2, 1, 1, 1, false, false, false, 0⟩,
  ⟨0x6101, 8, 4, 3, 1, 1, false, false, false, 0⟩,
  ⟨0x6110, 1, 1, 1, 1, 1, false, false, false, 0⟩,
  ⟨0x6110, 2, 1, 3, 1, 3, false, false, true, 0⟩,
  ⟨0x6110, 3, 4, 3, 1, 3, false, false, true, 0⟩,
  ⟨0x6120, 1, 1, 3, 3, 3, false, false, false, 0⟩,
  ⟨0x6120, 2, 1, 1, 1, 1, true, false, false, 0⟩,
  ⟨0x6120, 3, 1, 2, 2, 0, false, false, true, 0⟩,
  ⟨0x6130, 1, 4, 1, 1, 1, false, false, false, 0⟩,
  ⟨0x6130, 2, 4, 1, 1, 1, false, false, false, 0⟩,
  ⟨0x6130, 3, 4, 1, 1, 1, false, false, false, 0⟩,
  ⟨0x6200, 1, 1, 3, 3, 1, false, false, false, 0⟩,
  ⟨0x6200, 2, 8, 3, 3, 1, false, false, false, 264⟩,
  ⟨0x6200, 3, 8, 3, 0, 0, false, false, false, 16⟩,
  ⟨0x6200, 4, 0, 2, 2, 0, false, false, true, 0⟩,
  ⟨0x6200, 5, 1, 1, 1, 1, false, false, false, 0⟩,
  ⟨0x6200, 6, 1, 1, 1, 1, false, false, false, 0⟩,
  ⟨0x6200, 7, 8, 1, 1, 1, false, false, false, 16⟩,
  ⟨0x6200, 8, 3, 1, 3, 1, true, false, false, 0⟩,
  ⟨0x6200, 9, 3, 1, 3, 1, true, false, false, 0⟩,
  ⟨0x6200, 10, 4, 3, 3, 1, false, false, false, 0⟩,
  ⟨0x6200, 11, 2, 1, 1, 1, false, false, false, 0⟩]

/-- Entries 0x6200:0C to 0x8000:08. -/
def entries11 : List Entry := [
  ⟨0x6200, 12, 4, 3, 3, 3, false, false, true, 0⟩,
  ⟨0x6200, 13, 8, 1, 1, 1, false, false, false, 64⟩,
  ⟨0x6200, 14, 4, 1, 1, 1, false, false, false, 0⟩,
  ⟨0x6300, 1, 0, 1, 3, 3, true, false, true, 0⟩,
  ⟨0x6300, 2, 4, 0, 0, 1, false, false, false, 0⟩,
  ⟨0x6300, 3, 8, 1, 1, 1, false, false, false, 64⟩,
  ⟨0x6300, 4, 8, 1, 1, 1, false, false, false, 64⟩,
  ⟨0x6300, 5, 4, 1, 1, 1, false, false, false, 0⟩,
  ⟨0x6300, 6, 4, 1, 1, 1, false, false, false, 0⟩,
  ⟨0x7000, 1, 8, 1, 1, 1, false, false, false, 528⟩,
  ⟨0x7000, 2, 3, 1, 1, 1, true, false, false, 0⟩,
  ⟨0x7010, 1, 3, 1, 1, 1, false, true, false, 0⟩,
  ⟨0x7010, 2, 3, 1, 1, 1, true, true, false, 0⟩,
  ⟨0x7010, 3, 5, 1, 1, 1, false, true, false, 0⟩,
  ⟨0x7020, 1, 3, 1, 3, 1, true, false, false, 0⟩,
  ⟨0x7020, 2, 8, 1, 1, 1, false, false, false, 2048⟩,
  ⟨0x8000, 1, 1, 1, 1, 1, false, false, false, 0⟩,
  ⟨0x8000, 2, 8, 1, 1, 1, false, false, false, 57⟩,
  ⟨0x8000, 3, 8, 1, 1, 1, true, false, false, 65536⟩,
  ⟨0x8000, 4, 8, 1, 1, 1, true, false, false, 65536⟩,
  ⟨0x8000, 5, 8, 1, 1, 1, true, false, false, 57⟩,
  ⟨0x8000, 6, 8, 1, 1, 1, true, false, false, 5376⟩,
  ⟨0x8000, 7, 0, 1, 3, 1, true, false, false, 0⟩,
  ⟨0x8000, 8, 4, 1, 3, 1, true, false, false, 0⟩]

/-- Entries 0x8000:09 to 0x9010:01. -/
def entries12 : List Entry := [
  ⟨0x8000, 9, 4, 1, 1, 1, true, false, false, 0⟩,
  ⟨0x8000, 10, 4, 1, 1, 1, false, false, false, 0⟩,
  ⟨0x8010, 1, 1, 3, 3, 3, false, false, false, 0⟩,
  ⟨0x8010, 2, 8, 1, 1, 1, false, false, false, 64⟩,
  ⟨0x8010, 3, 2, 3, 3, 3, false, false, false, 0⟩,
  ⟨0x8010, 4, 8, 1, 1, 1, false, false, false, 80⟩,
  ⟨0x8010, 5, 4, 1, 1, 1, false, false, false, 0⟩,
  ⟨0x8010, 6, 4, 1, 1, 1, false, false, false, 0⟩,
  ⟨0x8010, 7, 8, 0, 0, 2, false, false, false, 64⟩,
  ⟨0x8020, 1, 8, 2, 2, 2, false, false, false, 32⟩,
  ⟨0x8020, 2, 8, 2, 2, 2, false, false, false, 64⟩,
  ⟨0x8020, 3, 8, 1, 1, 1, false, false, false, 842⟩,
  ⟨0x8020, 4, 1, 1, 1, 1, false, false, false, 0⟩,
  ⟨0x8030, 1, 3, 1, 1, 1, false, false, false, 0⟩,
  ⟨0x8040, 1, 8, 0, 0, 0, true, false, false, 912⟩,
  ⟨0x8040, 2, 8, 0, 0, 0, true, false, false, 912⟩,
  ⟨0x8040, 3, 8, 0, 0, 0, true, false, false, 912⟩,
  ⟨0x9000, 1, 4, 1, 1, 1, false, false, false, 0⟩,
  ⟨0x9000, 2, 1, 1, 1, 1, false, false, false, 0⟩,
  ⟨0x9000, 3, 1, 3, 3, 1, true, false, true, 0⟩,
  ⟨0x9000, 4, 8, 1, 1, 1, false, false, false, 16⟩,
  ⟨0x9000, 5, 3, 1, 1, 1, true, false, false, 0⟩,
  ⟨0x9000, 6, 3, 1, 1, 1, true, false, false, 0⟩,
  ⟨0x9010, 1, 3, 3, 3, 1, false, false, true, 0⟩]

/-- Entries 0x9010:02 to 0xA000:09. -/
def entries13 : List Entry := [
  ⟨0x9010, 2, 8, 2, 2, 0, false, false, true, 65536⟩,
  ⟨0x9010, 3, 3, 2, 2, 0, false, false, true, 0⟩,
  ⟨0x9010, 4, 2, 1, 1, 1, false, false, false, 0⟩,
  ⟨0x9020, 1, 1, 2, 2, 0, false, false, true, 0⟩,
  ⟨0x9020, 2, 1, 1, 1, 1, false, false, false, 0⟩,
  ⟨0x9020, 3, 1, 1, 1, 1, false, false, false, 0⟩,
  ⟨0x9020, 4, 1, 1, 1, 1, false, false, false, 0⟩,
  ⟨0x9020, 5, 3, 1, 3, 1, true, false, true, 0⟩,
  ⟨0x9020, 6, 1, 3, 3, 3, false, false, true, 0⟩,
  ⟨0x9020, 7, 4, 1, 1, 1, false, false, false, 0⟩,
  ⟨0xA000, 1, 2, 3, 3, 1, false, true, false, 0⟩,
  ⟨0xA000, 2, 2, 1, 1, 1, false, true, false, 0⟩,
  ⟨0xA000, 3, 2, 3, 3, 3, false, true, false, 0⟩,
  ⟨0xA000, 4, 8, 1, 1, 1, false, true, false, 64⟩,
  ⟨0xA000, 5, 8, 1, 1, 1, false, true, false, 64⟩,
  ⟨0xA000, 6, 8, 1, 1, 1, false, true, false, 64⟩,
  ⟨0xA000, 7, 3, 1, 1, 1, false, true, false, 0⟩,
  ⟨0xA000, 8, 4, 1, 1, 1, false, true, false, 0⟩,
  ⟨0xA000, 9, 0, 2, 2, 2, false, true, false, 0⟩]

/-- Every entry. -/
def entries : List Entry :=
  entries0 ++ entries1 ++ entries2 ++ entries3 ++ entries4 ++ entries5 ++ entries6 ++ entries7 ++ entries8 ++ entries9 ++ entries10 ++ entries11 ++ entries12 ++ entries13

/-- The entry of an index and sub-index. -/
def entry? (index sub : Nat) : Option Entry := entries.find? fun e => e.index == index && e.sub == sub

/-- A performance counter (R426). -/
def Entry.perf (e : Entry) : Bool := e.host == 0 && e.operator == 0 && e.owner == 1

/-- Width of a fixed-width type, 0 for STR and BLOB (Table 17-2). -/
def typeWidth (ty : Nat) : Nat :=
  match ty with
  | 0 | 1 => 1
  | 2 => 2
  | 3 | 5 | 6 => 4
  | 4 | 9 => 8
  | _ => 0

/-- The most bytes of a value. -/
def Entry.maxLen (e : Entry) : Nat := if typeWidth e.ty = 0 then e.len else typeWidth e.ty

end Sys2Proof.Machine
end

