-- ==== Sys2Proof/Machine/DictRead.lean ====
section
/-! DEFINITION. What a read of each dictionary entry returns. One function per range of Table 17-4; `c` is the slice of a
channel-scoped entry. -/

namespace Sys2Proof.Machine

/-! ### Value encodings -/

/-- A region entry as 256 bits (Table 11-1). -/
def regionWord (e : RegionEntry) : Nat :=
  field e.base 41 0 + field (b2n e.valid) 1 41 + field e.kind 2 42 + field (b2n e.r) 1 44 + field (b2n e.w) 1 45 +
  field (b2n e.a) 1 46 + field (b2n e.m) 1 47 + field e.job 16 48 + field e.pages 29 64 + field e.ownerNode 20 93 +
  field (b2n e.hostm) 1 113 + field e.nextOwner 20 128 + field (b2n e.pending) 1 148 + field e.handoffDrip.toNat 48 192

/-- A region entry of 256 bits. -/
def regionOfWord (w : Nat) : RegionEntry :=
  { base := bits w 40 0, valid := bit w 41, kind := bits w 43 42, r := bit w 44, w := bit w 45, a := bit w 46, m := bit w 47
    job := bits w 63 48, pages := bits w 92 64, ownerNode := bits w 112 93, hostm := bit w 113, nextOwner := bits w 147 128
    pending := bit w 148, handoffDrip := BitVec.ofNat 48 (bits w 239 192) }

/-- A group list (Tables 12-1 and 12-2). -/
def groupBytes (g : Group) : Bytes :=
  leBytes 16 (field (b2n g.valid) 1 0 + field (b2n g.twoLevel) 1 1 + field g.members.length 13 2 + field g.self 12 15) ++
  (g.members.map fun p => leBytes 4 (field p.node 20 0 + field p.slice 3 20)).flatten

/-- The group of a list. -/
def groupOfBytes (b : Bytes) : Group :=
  let h := leNat (slice b 0 16)
  { valid := bit h 0, twoLevel := bit h 1, self := bits h 26 15
    members := (List.range (bits h 14 2)).map fun i =>
      let w := leNat (slice b (16 + 4 * i) 4)
      { node := bits w 19 0, slice := bits w 22 20 } }

/-- Completion records are held because the port cannot issue requests (R500). -/
def HostPort.heldBack (h : HostPort) : Bool := !(h.linkUp && h.bme) && h.rings.any fun r => !r.held.isEmpty

/-- HP_STATUS[10:0] (Table 20-4). -/
def HostPort.status (h : HostPort) : Nat :=
  if h.linkUp then
    1 + field h.width 3 1 + field h.speed 3 4 + field (b2n (h.speed == 6)) 1 7 + field (b2n (h.width != 4 || h.speed != 6)) 1 8 +
      field (b2n h.bme) 1 9 + field (b2n h.heldBack) 1 10
  else field (b2n h.bme) 1 9 + field (b2n h.heldBack) 1 10

/-- DEVICE_STATE: LOADING and SERVING follow the load and the job (Table 17-5). -/
def State.deviceState (s : State) : Nat :=
  if s.dict.deviceState != 1 then s.dict.deviceState
  else if s.job.isSome then 3
  else if s.load.st = 1 then 2
  else 1

/-- A lifecycle function: 0 to 3 of the device, 4 to 6 of a slice. -/
def State.lifeOf (s : State) (f c : Nat) : Lifecycle := if f < 4 then s.dict.life.getD f {} else (s.sl c).life.getD (f - 4) {}

/-- ENABLE reads 1 while the function is STARTING or ON, or while a deferred start waits (R446). -/
def Lifecycle.enableRead (l : Lifecycle) : Bool := l.st == 1 || l.st == 2 || l.deferred

/-- The package power as a principal sees it (R427). -/
def State.powerSeen (s : State) (p : Principal) : Nat := if p = .owner then s.pkg.powerFine else 16 * (s.pkg.powerW / 16)

/-- An event log entry of 80 bytes (R423). -/
def logBytes (e : LogEntry) : Bytes :=
  slice e.digest 0 64 ++ [BitVec.ofNat 8 e.mr, BitVec.ofNat 8 e.mr] ++ zeros 6 ++ leBytes 8 e.drip.toNat

/-- An error record as the entries of a slice show it. -/
def errShown (sl : Nat) : Option ErrRecord → Bytes
  | some r => errBytes sl r
  | none => zeros 64

/-! ### Ranges -/

/-- 0x1000: identity (Table 17-5). -/
def State.read1000 (s : State) (sub : Nat) : Bytes :=
  match sub with
  | 1 => ascii "Wenset"
  | 2 => ascii "Karnel KN-800"
  | 3 => ascii "KN-800-2T"
  | 4 => Config.serial
  | 5 => leBytes 1 Config.stepping
  | 6 => leBytes 1 s.slicesPresent
  | _ => leBytes 2 1

/-- 0x2000: device and host port (Tables 17-5 and 20-14). -/
def State.read2000 (s : State) (sub : Nat) : Bytes :=
  match sub with
  | 1 => leBytes 1 s.deviceState
  | 2 => leBytes 1 (b2n s.dict.ownerLock)
  | 4 => leBytes 1 (b2n s.dict.holdup)
  | 5 => leBytes 1 s.dict.storeWear
  | 6 => leBytes 2 s.host.status
  | 7 => leBytes 1 s.host.bar2Size
  | 8 => leBytes 4 s.host.hostResets
  | 9 => leBytes 8 s.host.barAborts
  | 10 => leBytes 8 s.host.dmaErrors
  | 11 => leBytes 8 s.host.dropped
  | _ => []

/-- 0x2010: the lantern port (Table 17-5). -/
def State.read2010 (s : State) (sub : Nat) : Bytes :=
  match sub with
  | 1 => slice Config.lanternMac 0 6
  | 2 => leBytes 1 s.dict.addrMode
  | 3 => s.dict.addr
  | 4 => leBytes 1 s.dict.prefix_
  | 5 => s.dict.gateway
  | 6 => leBytes 2 s.dict.udpPort
  | 7 => leBytes 4 s.dict.idle
  | 8 => leBytes 1 s.lantern.sessions.length
  | _ => leBytes 8 s.lantern.authFailures

/-- 0x2100: time (Table 02-7). A TIME_OFFSET outside I32 shows modulo 2^32, as does a TIME_ERR_BOUND of more than 32 bits: the manual
gives the widths and neither wraps nor saturates them (DESIGN CHOICE, log 133). -/
def State.read2100 (s : State) (sub : Nat) : Bytes :=
  match sub with
  | 1 => leBytes 1 s.time.state
  | 2 => leBytes 4 (BitVec.ofInt 32 s.time.offset).toNat
  | 3 => leBytes 1 s.time.parent
  | 4 => leBytes 1 (b2n s.time.tiEnable)
  | 6 => leBytes 4 s.time.errBound
  | _ => []

/-- 0x2200 to 0x2206: lifecycle functions (R445, R446). -/
def State.readLife (s : State) (f sub c : Nat) : Bytes :=
  let l := s.lifeOf f c
  match sub with
  | 1 => leBytes 1 (b2n l.enableRead)
  | 2 => leBytes 1 l.st
  | _ => leBytes 1 l.lastFail

/-- 0x3200 to 0x3220: routing, threads, exchange (Tables 03-8, 04-9, 05-7). -/
def SliceState.read3200 (x : SliceState) (index sub : Nat) : Bytes :=
  let r := x.routing
  let e := x.exch
  match index, sub with
  | 0x3200, 1 => leBytes 8 r.droppedChoices
  | 0x3200, 2 => leBytes 8 r.skippedRows
  | 0x3200, 3 => leBytes 8 r.nanRows
  | 0x3200, 4 => leBytes 8 r.lostSources
  | 0x3200, 5 => leBytes 8 r.lookaheadFetches
  | 0x3210, 1 => leBytes 8 r.threadFaults
  | 0x3210, 2 => leBytes 8 r.lastFault
  | 0x3210, 3 => leBytes 8 r.lateWaits
  | 0x3210, 4 => leBytes 4 r.programWords
  | 0x3220, 1 => leBytes 8 e.blocksSent
  | 0x3220, 2 => leBytes 8 e.zrunBlocks
  | 0x3220, 3 => leBytes 8 e.bytesSaved
  | 0x3220, 4 => leBytes 8 e.discarded
  | 0x3220, 5 => leBytes 8 e.checksumBlocks
  | 0x3220, 6 => leBytes 8 e.lostSources
  | 0x3220, 7 => leBytes 8 e.discardedRows
  | 0x3220, 8 => leBytes 8 e.rxBase
  | 0x3220, 9 => leBytes 8 e.shapeBase
  | _, _ => []

/-- 0x3230 to 0x3250: arrays, numerics, pools (Tables 06-11, 07-7, R246). -/
def SliceState.read3230 (x : SliceState) (index sub : Nat) : Bytes :=
  let a := x.arr
  let p := x.pools
  match index, sub with
  | 0x3230, 1 => leBytes 8 a.tilesLoaded
  | 0x3230, 2 => leBytes 8 a.zeroTiles
  | 0x3230, 3 => leBytes 8 a.tileCrcFails
  | 0x3230, 4 => leBytes 8 a.tileHeaderFaults
  | 0x3230, 5 => leBytes 8 a.quadFaults
  | 0x3230, 6 => leBytes 8 a.quadLastFault
  | 0x3230, 7 => leBytes 4 a.quadProgramWords
  | 0x3240, 1 => leBytes 8 a.satElements
  | 0x3240, 2 => leBytes 8 a.nonfiniteDrains
  | 0x3240, 3 => leBytes 8 a.nonfiniteVops
  | 0x3240, 4 => leBytes 8 a.vopFaults
  | 0x3250, 1 => leBytes 8 p.allocs
  | 0x3250, 2 => leBytes 8 p.fallbacks
  | 0x3250, 3 => leBytes 8 p.poolWaits
  | 0x3250, 4 => leBytes 8 p.exhausted
  | 0x3250, 5 => leBytes 8 p.rejected
  | 0x3250, 6 => leBytes 8 p.stale
  | _, _ => []

/-- 0x3260 to 0x3290: regions, collectives, ledger, power (Tables 11-9, 12-9, 13-9, 21-11). -/
def SliceState.read3260 (x : SliceState) (index sub : Nat) : Bytes :=
  let c := x.coll
  let v := x.svc
  match index, sub with
  | 0x3260, 1 => leBytes 2 x.remote.regionSel
  | 0x3260, 2 => leBytes 32 (regionWord (x.region x.remote.regionSel))
  | 0x3260, 4 => leBytes 2 (x.remote.regions.filter fun r => r.2.valid).length
  | 0x3270, 1 => leBytes 8 c.stepsDone
  | 0x3270, 2 => leBytes 8 c.stalls
  | 0x3270, 3 => leBytes 8 c.parkedCount
  | 0x3270, 4 => leBytes 8 c.parkDropped
  | 0x3270, 5 => leBytes 8 c.discarded
  | 0x3270, 6 => leBytes 8 c.zeroChunks
  | 0x3270, 7 => leBytes 8 c.rxBase
  | 0x3270, 8 => leBytes 1 c.groupSel
  | 0x3270, 9 => match c.groups.find? fun g => g.1 == c.groupSel with | some g => groupBytes g.2 | none => []
  | 0x3280, 1 => leBytes 8 v.ledgerBase
  | 0x3280, 2 => leBytes 4 v.ledgerEntries
  | 0x3280, 3 => leBytes 1 (b2n v.ledgerEnable)
  | 0x3280, 4 => leBytes 4 v.ledgerHead
  | 0x3280, 5 => leBytes 4 v.scanDrips
  | 0x3280, 6 => leBytes 2 v.scanMax
  | 0x3280, 7 => leBytes 2 v.pending.length
  | 0x3280, 8 => leBytes 8 v.rowmapBase
  | 0x3290, 1 => leBytes 4 x.power.domains
  | 0x3290, 2 => leBytes 1 x.power.aclkDiv
  | 0x3290, 3 => leBytes 8 x.power.throttleSteps
  | _, _ => []

/-- 0x4000 and 0x4030: fabric settings (Tables 10-10 and 11-9). -/
def State.read4000 (s : State) (index sub : Nat) : Bytes :=
  let p := s.pkg
  match index, sub with
  | 0x4000, 1 => leBytes 4 p.nodeId
  | 0x4000, 2 => leBytes 1 p.congestionMode
  | 0x4000, 3 => leBytes 1 p.routeActive
  | 0x4000, 4 => leBytes 8 p.routeSwitchReg
  | 0x4000, 5 => leBytes 4 p.routeDrain
  | 0x4000, 6 => p.tableA
  | 0x4000, 7 => p.tableB
  | 0x4000, 8 => leBytes 4 p.e2e
  | 0x4000, 9 => leBytes 1 p.retryLimit
  | 0x4000, 10 => leBytes 4 p.markBytes
  | 0x4000, 11 => leBytes 4 p.winInit
  | 0x4000, 12 => leBytes 4 p.winMax
  | 0x4000, 13 => leBytes 4 p.lossHold
  | 0x4030, 1 => leBytes 8 p.fencePorts
  | 0x4030, 2 => leBytes 1 p.fenceSlices
  | _, _ => []

/-- 0x4010 to 0x4020 and 0x4040: ports, fabric and remote-memory counters (Tables 10-10 and 11-9). -/
def SliceState.read4010 (x : SliceState) (index sub : Nat) : Bytes :=
  let l := x.ports.getD (sub - 1) {}
  let r := x.remote
  match index, sub with
  | 0x4010, _ => leBytes 1 l.st
  | 0x4011, _ => leBytes 1 (b2n l.disabled)
  | 0x4012, _ => leBytes 2 l.laneMap
  | 0x4013, _ => leBytes 8 l.fecCorrected
  | 0x4014, _ => leBytes 8 l.fecUncorrectable
  | 0x4015, _ => leBytes 8 l.replays
  | 0x4016, _ => leBytes 8 l.downEvents
  | 0x4020, 1 => leBytes 8 x.fabric.retransmits
  | 0x4020, 2 => leBytes 8 x.fabric.giveups
  | 0x4020, 3 => leBytes 4 x.fabric.lost.length
  | 0x4040, 1 => leBytes 8 r.refused
  | 0x4040, 2 => leBytes 8 r.poison
  | 0x4040, 3 => leBytes 8 r.replayed
  | 0x4040, 4 => leBytes 8 r.unknown
  | 0x4040, 5 => leBytes 8 r.full
  | 0x4040, 6 => leBytes 8 r.unknownIssued
  | 0x4040, 7 => leBytes 8 r.mcastPartial
  | _, _ => []

/-- 0x5000 and 0x5010: memory tiers and sump link of a slice (Tables 08-9 and 20-14). -/
def SliceState.read5000 (x : SliceState) (index sub : Nat) : Bytes :=
  let t := x.tiers
  let u := x.sump
  match index, sub with
  | 0x5000, 1 => leBytes 8 t.weightBase
  | 0x5000, 2 => leBytes 8 t.weightBytes
  | 0x5000, 3 => leBytes 8 t.stateBase
  | 0x5000, 4 => leBytes 8 t.stateBytes
  | 0x5000, 5 => leBytes 8 t.poolBase
  | 0x5000, 6 => leBytes 4 t.poolFrames
  | 0x5000, 7 => leBytes 4 t.frameBytes
  | 0x5000, 8 => leBytes 4 t.freeTarget
  | 0x5000, 9 => leBytes 8 t.residencyBase
  | 0x5000, 10 => leBytes 4 t.sumpRate
  | 0x5000, 11 => leBytes 4 (field u.link 8 0 + field u.lanes 8 8 + field u.rate 8 16)
  | 0x5000, 12 => leBytes 8 u.capacity
  | 0x5000, 13 => leBytes 8 u.serial
  | 0x5010, 1 => leBytes 8 t.fetchPrefetch
  | 0x5010, 2 => leBytes 8 t.fetchDemand
  | 0x5010, 3 => leBytes 8 t.fetchLookahead
  | 0x5010, 4 => leBytes 8 t.fetchLate
  | 0x5010, 5 => leBytes 8 t.fetchFailed
  | 0x5010, 6 => leBytes 8 t.legacyDrops
  | 0x5010, 7 => leBytes 8 t.evictions
  | 0x5010, 8 => leBytes 8 t.noFrame
  | 0x5010, 9 => leBytes 8 t.viewMissing
  | 0x5010, 10 => leBytes 8 t.scrubCorrected
  | 0x5010, 11 => leBytes 8 t.scrubUncorrectable
  | 0x5010, 12 => leBytes 8 t.scrubPasses
  | 0x5010, 13 => leBytes 8 u.linkDowns
  | 0x5010, 14 => leBytes 8 u.poison
  | _, _ => []

/-- 0x5020: scrub, retraining and the legacy mode (Table 08-9). -/
def State.read5020 (s : State) (sub : Nat) : Bytes :=
  match sub with
  | 1 => leBytes 4 s.dict.scrubInterval
  | 2 => leBytes 4 s.dict.retrainInterval
  | _ => leBytes 1 (b2n s.dict.legacyDrop)

/-- 0x6000 to 0x6130: drips, membership, contexts, rings, reshapes, hot set, service counters (Tables 02-7, 12-9, 13-9). -/
def State.read6000 (s : State) (index sub : Nat) : Bytes :=
  let ring := s.host.rings.getD s.dict.ringSel {}
  match index, sub with
  | 0x6000, 1 => leBytes 4 s.time.dripBeats
  | 0x6000, 2 => leBytes 8 s.now.toNat
  | 0x6000, 3 => leBytes 8 s.time.origin
  | 0x6000, 4 => leBytes 8 s.time.stageMisses
  | 0x6000, 5 => leBytes 8 s.time.collisions
  | 0x6040, 1 => leBytes 2 s.pkg.memberEpoch
  | 0x6040, 2 => leBytes 8 s.pkg.collEpochReg
  | 0x6100, 1 => leBytes 1 s.dict.ctxSel
  | 0x6100, 2 => leBytes 1 (s.ctxState s.dict.ctxSel)
  | 0x6100, 3 => leBytes 1 (s.ctxRing s.dict.ctxSel)
  | 0x6101, 1 => leBytes 1 s.dict.ringSel
  | 0x6101, 2 => leBytes 8 ring.base
  | 0x6101, 3 => leBytes 4 ring.entries
  | 0x6101, 4 => leBytes 1 (b2n ring.enable)
  | 0x6101, 5 => leBytes 4 ring.head
  | 0x6101, 6 => leBytes 4 ring.tail
  | 0x6101, 7 => leBytes 2 (s.ringHeld ring)
  | 0x6101, 8 => leBytes 8 s.host.ring0Partial
  | 0x6110, 1 => leBytes 1 (b2n s.pkg.reshapeArmed)
  | 0x6110, 2 => leBytes 1 s.pkg.reshapeSlot
  | 0x6110, 3 => leBytes 8 s.pkg.reshapeDrip
  | 0x6120, 1 => leBytes 1 s.dict.hotSel
  | 0x6120, 2 => leBytes 1 (s.hot.getD s.dict.hotSel {}).st
  | 0x6130, 1 => leBytes 8 s.pkg.requestsDone
  | 0x6130, 2 => leBytes 8 s.pkg.squeezeSwitches
  | 0x6130, 3 => leBytes 8 s.pkg.deadlineEnds
  | _, _ => []

/-- 0x6200 and 0x6300: loads, epochs, still-water mode (Tables 14-5 and 15-9). -/
def State.read6200 (s : State) (index sub : Nat) : Bytes :=
  let l := s.load
  match index, sub with
  | 0x6200, 1 => leBytes 1 l.target
  | 0x6200, 2 => l.chain
  | 0x6200, 3 => l.source
  | 0x6200, 5 => leBytes 1 l.st
  | 0x6200, 6 => leBytes 1 l.status
  | 0x6200, 7 => l.token
  | 0x6200, 8 => leBytes 4 l.upstreamTimeout
  | 0x6200, 9 => leBytes 4 l.window
  | 0x6200, 10 => leBytes 8 l.frameStart
  | 0x6200, 11 => leBytes 2 s.epochs.current
  | 0x6200, 12 => leBytes 8 s.epochs.switchReg
  | 0x6200, 13 => s.epochs.digest
  | 0x6200, 14 => leBytes 8 l.items
  | 0x6300, 1 => leBytes 1 (b2n s.still.on)
  | 0x6300, 2 => leBytes 8 s.still.jobSeed.toNat
  | 0x6300, 3 => s.still.programDigest
  | 0x6300, 4 => s.still.unitMapDigest
  | 0x6300, 5 => leBytes 8 s.still.digestsWritten
  | 0x6300, 6 => leBytes 8 (s.still.disturbedPasses + s.disturbedNow)
  | _, _ => []

/-- 0x7000 to 0x7020: unit map, spares, telemetry (Table 19-9). -/
def State.read7000 (s : State) (index sub c : Nat) : Bytes :=
  match index, sub with
  | 0x7000, 1 => s.unitMap
  | 0x7000, 2 => leBytes 4 s.dict.unitMapChanges
  | 0x7010, 1 => leBytes 4 (s.sparesLeft c)
  | 0x7010, 2 => leBytes 4 (s.sl c).spares.rowsSpared
  | 0x7010, 3 => leBytes 4 (BitVec.ofInt 32 (s.sl c).power.temp).toNat
  | 0x7020, 1 => leBytes 4 s.dict.telemPeriod
  | 0x7020, 2 => s.dict.telem.flatten
  | _, _ => []

/-- 0x8000 to 0x8040: security (Tables 16-7 and 17-6). -/
def State.read8000 (s : State) (p : Principal) (index sub : Nat) : Bytes :=
  let k := s.sec
  match index, sub with
  | 0x8000, 1 => leBytes 1 k.identity
  | 0x8000, 2 => k.identityKey
  | 0x8000, 3 => k.deviceCert
  | 0x8000, 4 => k.caCert
  | 0x8000, 5 => Config.rootKey
  | 0x8000, 6 => k.revoked
  | 0x8000, 7 => leBytes 1 (b2n k.linkEncrypt)
  | 0x8000, 8 => leBytes 8 k.rekeyFrames
  | 0x8000, 9 => leBytes 8 k.bootCount
  | 0x8000, 10 => leBytes 8 k.authFailures
  | 0x8010, 1 => leBytes 1 k.mrSel
  | 0x8010, 2 => k.mr.getD k.mrSel (zeros 64)
  | 0x8010, 3 => leBytes 2 k.logSel
  | 0x8010, 4 => match k.log[k.logSel]? with | some e => logBytes e | none => zeros 80
  | 0x8010, 5 => leBytes 8 k.logCount
  | 0x8010, 6 => leBytes 8 k.logLost
  | 0x8010, 7 => k.mr7Value
  | 0x8020, 1 => k.quoteNonce
  | 0x8020, 2 => k.quoteData
  | 0x8020, 3 => k.quote
  | 0x8020, 4 => leBytes 1 k.quoteState
  | 0x8030, 1 => leBytes 4 (s.powerSeen p)
  | 0x8040, 1 => s.dict.credOperator
  | 0x8040, 2 => s.dict.credOwner
  | 0x8040, 3 => s.dict.credSecurity
  | _, _ => []

/-- 0x9000 to 0x9020: firmware (Table 18-5). -/
def State.read9000 (s : State) (index sub : Nat) : Bytes :=
  let f := s.fw
  let ver (k : Nat) : Nat := bits (setVersion (f.slots.getD k [])) 47 0
  match index, sub with
  | 0x9000, 1 => leBytes 8 s.fwVersion
  | 0x9000, 2 => leBytes 1 f.running
  | 0x9000, 3 => leBytes 1 f.boot
  | 0x9000, 4 => ((List.range 2).map fun k => leBytes 8 (if f.valid.getD k false then ver k else 0)).flatten
  | 0x9000, 5 => leBytes 4 f.counter
  | 0x9000, 6 => leBytes 4 f.bootFails
  | 0x9010, 1 => leBytes 4 f.stageOffset
  | 0x9010, 4 => leBytes 2 (field f.stageState 8 0 + field f.stageReason 8 8)
  | 0x9020, 2 => leBytes 1 f.rollout
  | 0x9020, 3 => leBytes 1 f.step
  | 0x9020, 4 => leBytes 1 f.hold
  | 0x9020, 5 => leBytes 4 f.settle
  | 0x9020, 6 => leBytes 1 f.procSel
  | 0x9020, 7 => leBytes 8 (ver (f.procs.getD (f.procSel - 1) 0))
  | _, _ => []

/-- 0xA000: the error ring of a slice (Table 19-9). -/
def State.readA000 (s : State) (sub c : Nat) : Bytes :=
  let e := (s.sl c).err
  match sub with
  | 1 => leBytes 2 e.head
  | 2 => leBytes 2 e.tail
  | 3 => leBytes 2 e.sel
  | 4 => errShown c ((e.ring.find? fun k => k.1 == e.sel).map (·.2))
  | 5 => errShown c e.first
  | 6 => errShown c e.last
  | 7 => leBytes 4 e.overflow
  | 8 => leBytes 8 e.reports
  | _ => []

/-- The value of an entry as it stands (R439). -/
def State.rawEntry (s : State) (p : Principal) (index sub c : Nat) : Bytes :=
  let x := s.sl c
  match index / 4096 with
  | 1 => s.read1000 sub
  | 2 =>
    if index = 0x2000 then s.read2000 sub
    else if index = 0x2010 then s.read2010 sub
    else if index = 0x2020 then leBytes 4 s.dict.tripCount
    else if index = 0x2100 then s.read2100 sub
    else s.readLife (index - 0x2200) sub c
  | 3 => if index < 0x3230 then x.read3200 index sub else if index < 0x3260 then x.read3230 index sub else x.read3260 index sub
  | 4 => if index = 0x4000 || index = 0x4030 then s.read4000 index sub else x.read4010 index sub
  | 5 => if index = 0x5020 then s.read5020 sub else x.read5000 index sub
  | 6 => if index < 0x6200 then s.read6000 index sub else s.read6200 index sub
  | 7 => s.read7000 index sub c
  | 8 => s.read8000 p index sub
  | 9 => s.read9000 index sub
  | 10 => s.readA000 sub c
  | _ => []

/-- A performance counter reads as it stood at the boundary that started the drip (R426). -/
def State.perfValue (s : State) (index sub c : Nat) : Nat :=
  match s.perf.find? fun k => k.1 == index * 256 + sub && k.2.1 == c with
  | some k => k.2.2
  | none => 0

/-- What a read of an entry returns. -/
def State.readEntry (s : State) (e : Entry) (p : Principal) (c : Nat) : Bytes :=
  let ch := if e.chan then c else 0
  if e.perf then leBytes (typeWidth e.ty) (s.perfValue e.index e.sub ch) else s.rawEntry p e.index e.sub ch

/-- The performance counters as they stand, snapshot at each boundary (R426). -/
def State.perfSnapshot (s : State) : List (Nat × Nat × Nat) :=
  ((entries.filter Entry.perf).map fun e =>
    (if e.chan then List.range 8 else [0]).map fun c => (e.index * 256 + e.sub, c, leNat (s.rawEntry .owner e.index e.sub c))).flatten

end Sys2Proof.Machine
end

