-- ==== Sys2Proof/Machine/DictWrite.lean ====
section
/-! DEFINITION. Writes of dictionary entries: the codes of Table 17-3, the ordered checks of R438 and the effect of each
accepted value. One function per range of Table 17-4; `c` is the slice of a channel-scoped entry and `v` the value's bytes. -/

namespace Sys2Proof.Machine

/-! ### Codes (Table 17-3) -/

def codeOk : Nat := 0x00
def codeDeferred : Nat := 0x01
def codeNoEntry : Nat := 0x10
def codeAccess : Nat := 0x11
def codeLocked : Nat := 0x12
def codeLength : Nat := 0x13
def codeSliceDown : Nat := 0x14
def codeRange : Nat := 0x15
def codeState : Nat := 0x16
def codeHoldup : Nat := 0x17
def codeStoreFail : Nat := 0x18
def codeBusy : Nat := 0x19

/-! ### Rights (R431, R432) -/

/-- Access of a principal: bit 0 reads, bit 1 writes, 0 hidden. -/
def State.accessOf (s : State) (p : Principal) (e : Entry) : Nat :=
  match p with
  | .host => if e.index = 0x8040 ∧ e.sub = 3 ∧ s.dict.credSecurity = [] then 2 else e.host
  | .operator => e.operator
  | .owner => e.owner
  | .security =>
    if e.index = 0x8040 ∨ (e.index = 0x8000 ∧ (e.sub = 3 ∨ e.sub = 4 ∨ e.sub = 6)) then 3
    -- the lifecycle entries too: every principal reads them (R445)
    else if e.index / 4096 = 1 ∨ e.index / 4096 = 8 ∨ (0x2200 ≤ e.index ∧ e.index ≤ 0x2206) then 1
    else 0

/-- The owner lock refuses a write by HOST or OPERATOR to a lock-held entry; LOAD_START only toward target 5 (R443). -/
def State.lockRefuses (s : State) (p : Principal) (e : Entry) : Bool :=
  s.dict.ownerLock && (p == .host || p == .operator) && e.lock && !(e.index == 0x6200 && e.sub == 4 && s.load.target != 5)

/-- Check 5 of R438 and R433: 0 when the channel names a slice that can answer. -/
def State.channelCode (s : State) (e : Entry) (c : Nat) : Nat :=
  if !e.chan then codeOk
  else if 8 ≤ c then codeRange
  else if e.index = 0xA000 || (s.sl c).present then codeOk
  else codeSliceDown

/-- A lifecycle ENABLE entry (R445). -/
def Entry.isEnable (e : Entry) : Bool := decide (0x2200 ≤ e.index) && decide (e.index ≤ 0x2206) && e.sub == 1

/-! ### Drips named by a write -/

/-- A value that names a drip: 48 bits. -/
def isDrip (n : Nat) : Bool := decide (n < 2 ^ 48)

/-- A drip lies at least `n` drips after DRIP_COUNT (R25). -/
def State.ahead (s : State) (d : Drip) (n : Nat) : Bool := decide (n ≤ (d - s.now).toNat) && decide ((d - s.now).toNat < 2 ^ 47)

/-- A number is a power of two. -/
def powerOfTwo (n : Nat) : Bool := (List.range 32).any fun k => n == 2 ^ k

/-- A number lies between two bounds. -/
def between (lo n hi : Nat) : Bool := decide (lo ≤ n) && decide (n ≤ hi)

/-! ### Credentials (R442) -/

/-- The keys of a list. -/
def credKeys (b : Bytes) : List Bytes := pieces 57 b

/-- The other two credential lists. -/
def Dict.otherKeys (d : Dict) (sub : Nat) : List Bytes :=
  (if sub = 1 then [] else credKeys d.credOperator) ++ (if sub = 2 then [] else credKeys d.credOwner) ++
  (if sub = 3 then [] else credKeys d.credSecurity)

/-- No key stands twice in the list or in another one. -/
def Dict.credOk (d : Dict) (sub : Nat) (v : Bytes) : Bool :=
  let ks := credKeys v
  ks.eraseDups.length == ks.length && ks.all fun k => !(d.otherKeys sub).contains k

/-- REVOKED: up to 256 serials of up to 20 bytes, each after its length byte (R428), with fuel. -/
def revokedOk : Nat → Nat → Bytes → Bool
  | _, _, [] => true
  | 0, _, _ => false
  | _, 0, _ => false
  | f + 1, k + 1, l :: rest => decide (l.toNat ≤ 20) && decide (l.toNat ≤ rest.length) && revokedOk f k (rest.drop l.toNat)

/-! ### Layouts that leave bits reserved -/

/-- A routing table: 3,072 entries of 16 bytes, SLICES in the multicast entries alone (Table 10-8). -/
def routeTableOk (v : Bytes) : Bool :=
  v.length == 49152 && (List.range 3072).all fun k => leNat (slice v (16 * k + 8) 8) / 2 ^ (if k < 2048 then 1 else 9) == 0

/-- The reserved bits of a region entry are 0 and no reserved code stands in it (Table 11-1). -/
def regionFormOk (w : Nat) : Bool :=
  bits w 127 114 == 0 && bits w 191 149 == 0 && bits w 255 240 == 0 && bits w 43 42 != 3 && bits w 11 0 == 0 &&
  (!bit w 41 || between 1 (bits w 92 64) 402653184)

/-- REGION_HANDOFF: entry in bits [11:0], the new owner in [51:32], H in [111:64], the rest 0 (R321). -/
def handoffFormOk (w : Nat) : Bool := bits w 31 12 == 0 && bits w 63 52 == 0 && bits w 127 112 == 0

/-- A group list: its length fits MEMBERS and its reserved bits are 0 (Tables 12-1 and 12-2). -/
def groupFormOk (v : Bytes) : Bool :=
  let h := leNat (slice v 0 16)
  decide (16 ≤ v.length) && v.length == 16 + 4 * bits h 14 2 && between 1 (bits h 14 2) 4096 && bits h 127 27 == 0 &&
  (List.range (bits h 14 2)).all fun i => leNat (slice v (16 + 4 * i) 4) / 2 ^ 23 == 0

/-! ### Check 6 of R438: the range of the value -/

/-- 0x2000 to 0x2FFF. -/
def range2 (index sub : Nat) (v : Bytes) : Bool :=
  let n := leNat v
  match index, sub with
  | 0x2010, 2 => decide (n ≤ 1)
  | 0x2010, 3 => v.length == 16
  | 0x2010, 4 => between 1 n 128
  | 0x2010, 5 => v.length == 16
  | 0x2010, 6 => between 1024 n 65535
  | 0x2010, 7 => between 10 n 3600
  | _, _ => true

/-- 0x3000 to 0x3FFF. -/
def range3 (index sub : Nat) (v : Bytes) : Bool :=
  let n := leNat v
  match index, sub with
  | 0x3260, 1 => decide (n < 4096)
  | 0x3260, 2 => v.length == 32 && regionFormOk n
  | 0x3260, 3 => v.length == 16 && handoffFormOk n
  | 0x3270, 10 => groupFormOk v
  | 0x3280, 1 => n % 64 == 0
  | 0x3280, 2 => between 16 n 65536 && powerOfTwo n
  | 0x3280, 5 => between 1 n 65536
  | 0x3280, 6 => between 1 n 256
  | _, _ => true

/-- 0x4000 to 0x4FFF. -/
def State.range4 (s : State) (index sub : Nat) (v : Bytes) : Bool :=
  let n := leNat v
  match index, sub with
  | 0x4000, 1 => decide (n < 0xFFC00)
  | 0x4000, 2 => decide (n ≤ 1)
  | 0x4000, 4 => isDrip n
  | 0x4000, 5 => between 8 n 65536
  | 0x4000, 6 | 0x4000, 7 => routeTableOk v
  | 0x4000, 8 => between 5 n 1000
  | 0x4000, 9 => decide (n ≤ 7)
  | 0x4000, 10 => between 4096 n 131072
  | 0x4000, 11 => between 4128 n 16777216 && decide (n ≤ s.pkg.winMax)
  | 0x4000, 12 => between 4128 n 16777216 && decide (s.pkg.winInit ≤ n)
  | 0x4000, 13 => between 5 n 10000
  | _, _ => true

/-- 0x5000 to 0x5FFF. -/
def State.range5 (s : State) (index sub c : Nat) (v : Bytes) : Bool :=
  let n := leNat v
  match index, sub with
  | 0x5000, 10 => between 1 n ((s.sl c).tiers.derivedRate.getD 224)
  | 0x5020, 1 => between 60 n 604800
  | 0x5020, 2 => between 10 n 60000
  | _, _ => true

/-- 0x6000 to 0x6FFF. -/
def range6 (index sub : Nat) (v : Bytes) : Bool :=
  let n := leNat v
  match index, sub with
  | 0x6000, 1 => between 64 n 262144
  | 0x6040, 2 => isDrip n
  | 0x6101, 1 => decide (n < 64)
  | 0x6101, 2 => n % 128 == 0
  | 0x6101, 3 => between 16 n 65536 && powerOfTwo n
  | 0x6110, 2 => decide (n ≤ 3)
  | 0x6110, 3 => isDrip n
  | 0x6120, 1 | 0x6120, 3 => decide (n ≤ 3)
  | 0x6200, 1 => decide (n ≤ 5)
  | 0x6200, 2 => chainFormOk v
  | 0x6200, 3 => v.length == 16
  | 0x6200, 8 => between 10 n 60000
  | 0x6200, 9 => between 1048576 n 1073741824
  | 0x6200, 10 => isDrip n
  | _, _ => true

/-- 0x7000 to 0xAFFF. -/
def State.range7 (s : State) (index sub : Nat) (v : Bytes) : Bool :=
  let n := leNat v
  match index, sub with
  | 0x7020, 1 => between 10 n 10000
  | 0x8000, 6 => revokedOk 256 (v.length + 1) v
  | 0x8000, 8 => between (2 ^ 24) n (2 ^ 40)
  | 0x8010, 1 => decide (n ≤ 7)
  | 0x8010, 7 => v.length == 64
  | 0x8020, 1 => v.length == 32
  | 0x8040, _ => s.dict.credOk sub v
  | 0x9000, 3 => decide (n ≤ 1)
  | 0x9020, 1 => n == 1 || n == 2
  | 0x9020, 5 => between 64 n 1048576
  | 0x9020, 6 => between 1 n 34
  | 0xA000, 1 => decide (n ≤ 1023)
  | _, _ => true

/-- The value lies in the range its defining chapter states; a BOOL is 0 or 1 (R430). -/
def State.rangeOk (s : State) (e : Entry) (c : Nat) (v : Bytes) : Bool :=
  (e.ty != 0 || decide (leNat v ≤ 1)) &&
  -- LEDGER_BASE lies in the state region; with no job loaded there is none, and any offset is taken (R358, log 128)
  (e.index != 0x3280 || e.sub != 1 || (if s.job.isSome then (s.sl c).tiers.inState (leNat v) 64 else decide (leNat v < 2 ^ 41))) &&
  match e.index / 4096 with
  | 2 => range2 e.index e.sub v
  | 3 => range3 e.index e.sub v
  | 4 => s.range4 e.index e.sub v
  | 5 => s.range5 e.index e.sub c v
  | 6 => range6 e.index e.sub v
  | _ => s.range7 e.index e.sub v

/-! ### Check 7 of R438: the device's state -/

/-- REGION_ENTRY changes only an entry with HOSTM 1 or VALID 0, and the table it makes passes R297. -/
def State.regionEntryOk (s : State) (c : Nat) (w : Nat) : Bool :=
  let x := s.sl c
  let k := x.remote.regionSel
  let old := x.region k
  let e := regionOfWord w
  (old.hostm || !old.valid) && regionOk (imagePartitions (s.img c)) e &&
  regionsDisjoint ((x.remote.regions.filter fun r => r.1 != k) ++ [(k, e)])

/-- REGION_HANDOFF (R301). -/
def State.handoffOk (s : State) (c : Nat) (w : Nat) : Bool :=
  let r := (s.sl c).region (bits w 11 0)
  let h : Drip := BitVec.ofNat 48 (bits w 111 64)
  r.valid && !r.pending && s.ahead h 2 && (!s.stillJob || s.isFrameStart h)

/-- COLL_GROUP_NEXT (R327). -/
def State.groupNextOk (s : State) (c : Nat) (v : Bytes) : Bool :=
  match s.job with
  | some j => groupOk j.nodes (s.place c) (groupOfBytes v)
  | none => false

/-- ROUTE_SWITCH_DRIP (R286). -/
def State.routeSwitchOk (s : State) (n : Nat) : Bool :=
  let d : Drip := BitVec.ofNat 48 n
  s.ahead d 2 && s.pkg.routeSwitch.isNone && (match s.pkg.drainEnd with | some e => !Drip.later e d | none => true) &&
  (!s.stillJob || s.isFrameStart d)

/-- COLL_EPOCH_DRIP (R345). -/
def State.collEpochOk (s : State) (n : Nat) : Bool :=
  let d : Drip := BitVec.ofNat 48 n
  s.isFrameStart d && s.ahead d 2 && s.pkg.collEpochs.all fun e => !Drip.later e d

/-- 0x2000 to 0x3FFF. -/
def State.state2 (s : State) (index sub c : Nat) (v : Bytes) : Bool :=
  let n := leNat v
  match index, sub with
  | 0x2000, 3 => n == 0 || s.job.isNone
  | 0x3260, 2 => s.regionEntryOk c n
  | 0x3260, 3 => s.handoffOk c n
  | 0x3270, 10 => s.groupNextOk c v
  | 0x3280, 1 | 0x3280, 2 => !(s.sl c).svc.ledgerEnable
  | _, _ =>
    -- Table 17-7: SENSORS, SUMP_PORT and the port groups are not stopped while a job is loaded
    !(between 0x2200 index 0x2206 && sub == 1 && n == 0 && s.job.isSome && (index == 0x2202 || decide (0x2204 ≤ index)))

/-- 0x4000 to 0x5FFF. -/
def State.state4 (s : State) (index sub : Nat) (v : Bytes) : Bool :=
  let n := leNat v
  match index, sub with
  | 0x4000, 1 => s.job.isNone
  | 0x4000, 2 => s.job.isNone && !(n == 1 && s.still.on)
  | 0x4000, 4 => s.routeSwitchOk n
  | 0x4000, 6 => !s.tableLive 0
  | 0x4000, 7 => !s.tableLive 1
  | 0x5000, 10 => (match s.job with | some j => decide (j.sumpRate ≤ n) | none => true)
  | _, _ => true

/-- 0x6000 to 0x6FFF. -/
def State.state6 (s : State) (index sub : Nat) (v : Bytes) : Bool :=
  let n := leNat v
  let ring := s.host.rings.getD s.dict.ringSel {}
  match index, sub with
  | 0x6000, 1 => s.job.isNone
  | 0x6040, 2 => s.collEpochOk n
  | 0x6101, 2 | 0x6101, 3 => !ring.enable
  | 0x6110, 2 => !s.pkg.reshapeArmed
  | 0x6110, 3 => if n = 0 then s.disarmReshape.isSome else (s.armReshape (BitVec.ofNat 64 n)).isSome
  | 0x6120, 3 => (s.serveHot n).isSome
  | 0x6200, 2 => true
  | 0x6200, 4 => s.load.st != 1 && (n == 0 || s.loadStart.isSome)
  | 0x6200, 12 => s.load.st != 1 && (s.switchEpoch (BitVec.ofNat 64 n)).isSome
  | 0x6200, _ => s.load.st != 1
  | 0x6300, 1 => s.job.isNone && !(n == 1 && s.pkg.congestionMode == 1)
  | _, _ => true

/-- A cold install (R464). -/
def State.bootSlotOk (s : State) (n : Nat) : Bool :=
  (s.fw.rollout == 0 || s.fw.rollout == 4) && !s.pkg.reshapeArmed && (n == s.fw.running || s.fw.valid.getD n false)

/-- 0x8000 to 0x9FFF. -/
def State.state8 (s : State) (index sub : Nat) (v : Bytes) : Bool :=
  let n := leNat v
  match index, sub with
  | 0x8020, 1 | 0x8020, 2 => !s.quoteRefused
  | 0x9000, 3 => s.bootSlotOk n
  | 0x9010, 2 => !s.stageRefused v.length
  | 0x9010, 3 => (s.stageCommit n).isSome
  | 0x9020, 1 => (s.startRollout n).isSome
  | _, _ => true

/-- The device's state admits the write. -/
def State.stateOk (s : State) (e : Entry) (c : Nat) (v : Bytes) : Bool :=
  match e.index / 4096 with
  | 2 | 3 => s.state2 e.index e.sub c v
  | 4 | 5 => s.state4 e.index e.sub v
  | 6 => s.state6 e.index e.sub v
  | 8 | 9 => s.state8 e.index e.sub v
  | _ => true

/-! ### The ordered checks (R438) -/

/-- A write that goes through the store: a persisted entry, or a segment of a firmware set (R434, R460); an ENABLE entry is
answered at once (R446). -/
def Entry.stored (e : Entry) : Bool := (e.persist && !e.isEnable) || (e.index == 0x9010 && e.sub == 2)

/-- The store refuses a write: HOLDUP, BUSY or STORE_FAIL, or 0 (R434, R436, R439). -/
def State.storeCode (s : State) (e : Entry) : Nat :=
  if !e.stored then codeOk
  else if !s.dict.holdup then codeHoldup
  else if s.dict.writing.isSome then codeBusy
  else if 100 ≤ s.dict.storeWear ∧ e.index / 4096 ≠ 8 then codeStoreFail
  else codeOk

/-- The length check: the width of a fixed-width type, the most a STR or BLOB holds, whole keys in a credential list. -/
def Entry.lengthOk (e : Entry) (v : Bytes) : Bool :=
  if typeWidth e.ty = 0 then decide (v.length ≤ e.len) && (e.index != 0x8040 || v.length % 57 == 0)
  else v.length == typeWidth e.ty

/-- A write of ENABLE 1 during STOPPING is deferred (Table 17-8). -/
def State.deferred (s : State) (e : Entry) (c : Nat) (v : Bytes) : Bool :=
  e.isEnable && leNat v == 1 && (s.lifeOf (e.index - 0x2200) c).st == 3

/-- The code a write ends with, or would end with once its record is in the store (R438). -/
def State.judgeWrite (s : State) (p : Principal) (e : Entry) (c : Nat) (v : Bytes) : Nat :=
  let a := s.accessOf p e
  if a = 0 then codeNoEntry
  else if a < 2 then codeAccess
  else if s.lockRefuses p e then codeLocked
  else if !e.lengthOk v then codeLength
  else if s.channelCode e c ≠ codeOk then s.channelCode e c
  else if !s.rangeOk e c v then codeRange
  else if !s.stateOk e c v then codeState
  else if s.storeCode e ≠ codeOk then s.storeCode e
  else if s.deferred e c v then codeDeferred
  else codeOk

/-- The code a read ends with (R438). -/
def State.judgeRead (s : State) (p : Principal) (e : Entry) (c : Nat) : Nat :=
  let a := s.accessOf p e
  if a = 0 then codeNoEntry
  else if a = 2 then codeAccess
  else s.channelCode e c

end Sys2Proof.Machine
end

