-- ==== Sys2Proof/Machine/DictApply.lean ====
section
/-! DEFINITION. What an accepted write of each dictionary entry does (chapters 02 to 21), the lifecycle functions (R445 to
R447), and the records of the on-package store (R434). -/

namespace Sys2Proof.Machine

/-! ### Lifecycle functions (Tables 17-7 and 17-8) -/

/-- Change a lifecycle function: 0 to 3 of the device, 4 to 6 of slice c. -/
def State.onLife (s : State) (f c : Nat) (g : Lifecycle → Lifecycle) : State :=
  if f < 4 then { s with dict := { s.dict with life := s.dict.life.modify f g } }
  else s.onSl c fun x => { x with life := x.life.modify (f - 4) g }

/-- A function changes state (Table 20-8). -/
def State.setLife (s : State) (f c st : Nat) : State := (s.onLife f c fun l => { l with st := st }).cause 6

/-- Bits of DOMAIN_STATE. -/
def onDomain (n : Nat) (on : Bool) (d : Nat) : Nat := if d.testBit n = on then d else d ^^^ 2 ^ n

def State.domain (s : State) (c n : Nat) (on : Bool) : State :=
  s.onSl c fun x => { x with power := { x.power with domains := onDomain n on x.power.domains } }

/-- The state of a sump link changes (R508, Table 20-8). -/
def State.setSumpLink (s : State) (c st : Nat) : State :=
  if (s.sl c).sump.link = st then s else (s.onSl c fun x => { x with sump := { x.sump with link := st } }).cause 4

/-- Ports 0 to 3 or 4 to 7 of a slice go DOWN. -/
def State.groupDown (s : State) (c f : Nat) : State :=
  ((List.range 4).map fun k => 4 * (f - 5) + k).foldl (fun (t : State) p =>
    let l : LinkId := .port (Fin.ofNat 8 p)
    if (t.link c l).st = linkDisabled then t else t.goDown c l linkDown 0) s

/-- A function starts (R445): its first steps are taken. -/
def State.startLife (s : State) (f c : Nat) : State :=
  let t := (s.onLife f c fun l => { l with deferred := false }).setLife f c 1
  match f with
  | 0 => { t with lantern := { t.lantern with idle := t.dict.idle, port := t.dict.udpPort, addrMode := t.dict.addrMode, addr := t.dict.addr } }
  | 4 => (t.domain c 19 true).setSumpLink c 1
  | 5 => t.domain c 17 true
  | 6 => t.domain c 18 true
  | _ => t

/-- Drop what a door has staged. -/
def State.dropStaging (s : State) (d : Door) : State :=
  { s with dict := { s.dict with staging := s.dict.staging.filter fun g => g.door != d } }

/-- The door of an access that waits. -/
def DictOp.door : DictOp → Door
  | .read d .. | .write d .. | .info d .. | .value d .. => d

/-- The lantern sessions that a predicate does not keep close: what they were staging and what they wait for go with them (R454). -/
def State.keepSessions (s : State) (keep : USession → Bool) : State :=
  let gone := s.lantern.sessions.filter fun u => !keep u
  let t := gone.foldl (fun (v : State) u => v.dropStaging (.session u.num)) s
  { t with
    lantern := { t.lantern with sessions := t.lantern.sessions.filter keep }
    dict := { t.dict with queued := t.dict.queued.filter fun o => !(gone.any fun u => o.door == .session u.num) } }

/-- The stop actions of a function (Table 17-7). -/
def State.stopActions (s : State) (f c : Nat) : State :=
  match f with
  | 0 =>
    let t := s.keepSessions fun _ => false
    { t with lantern := { t.lantern with handshakes := [] } }
  | 2 => { s with pkg := { s.pkg with i3c := [] } }
  | 4 => (s.domain c 19 false).setSumpLink c 0
  | 5 => (s.groupDown c 5).domain c 17 false
  | 6 => (s.groupDown c 6).domain c 18 false
  | _ => s

/-- The persisted record of an ENABLE waits to be written; only the latest value of an entry is (R446). -/
def State.queueEnable (s : State) (f c : Nat) (on : Bool) : State :=
  { s with dict := { s.dict with enableRecords := (s.dict.enableRecords.filter fun r => !(r.1 == f && r.2.1 == c)) ++ [(f, c, on)] } }

/-- A write of ENABLE (Table 17-8). -/
def State.writeEnable (s : State) (f c : Nat) (on : Bool) : State :=
  let l := s.lifeOf f c
  let t :=
    if l.st = 3 then s.onLife f c fun l => { l with deferred := on }
    else if on then (if l.st = 0 then s.startLife f c else s)
    else if l.st = 0 then s else s.setLife f c 3
  t.queueEnable f c on

/-! ### Ports (R255) -/

/-- PORT_DISABLE: the operator disables a port, or enables it again. -/
def State.setDisabled (s : State) (c p : Nat) (off : Bool) : State :=
  let l : LinkId := .port (Fin.ofNat 8 p)
  let t := s.onLink c l fun k => { k with disabled := off }
  let u : UnitRef := { kind := 7, index := 8 * p + 7 }
  if off then (if (s.link c l).st = linkDisabled then t else (t.goDown c l linkDisabled 1).mapDue c u)
  else if (s.link c l).st = linkDisabled then (t.onLink c l fun k => { k with st := linkDown }).mapDue c u
  else t

/-! ### Effects, one function per range -/

/-- 0x2000 to 0x2206. -/
def State.apply2 (s : State) (index sub c : Nat) (v : Bytes) : State :=
  let n := leNat v
  match index, sub with
  | 0x2000, 2 => { s with dict := { s.dict with ownerLock := n == 1 } }
  | 0x2000, 3 => { s with dict := { s.dict with restore := s.dict.restore || n == 1 } }
  | 0x2010, 2 => { s with dict := { s.dict with addrMode := n } }
  | 0x2010, 3 => { s with dict := { s.dict with addr := v } }
  | 0x2010, 4 => { s with dict := { s.dict with prefix_ := n } }
  | 0x2010, 5 => { s with dict := { s.dict with gateway := v } }
  | 0x2010, 6 => { s with dict := { s.dict with udpPort := n } }
  | 0x2010, 7 => { s with dict := { s.dict with idle := n } }
  | 0x2100, 4 => ({ s with time := { s.time with tiEnable := n == 1 } }).chooseParent
  | 0x2100, 5 => { s with time := { s.time with tiSeconds := n } }
  | _, _ => if between 0x2200 index 0x2206 && sub == 1 then s.writeEnable (index - 0x2200) c (n == 1) else s

/-- Put a region entry in the table of a slice. -/
def SliceState.setRegion (x : SliceState) (k : Nat) (e : RegionEntry) : SliceState :=
  { x with remote := { x.remote with regions := (x.remote.regions.filter fun r => r.1 != k) ++ [(k, e)] } }

/-- 0x3260 to 0x3280 of a slice. -/
def SliceState.apply3 (x : SliceState) (index sub : Nat) (v : Bytes) : SliceState :=
  let n := leNat v
  match index, sub with
  | 0x3260, 1 => { x with remote := { x.remote with regionSel := n } }
  | 0x3260, 2 => x.setRegion x.remote.regionSel (regionOfWord n)
  | 0x3260, 3 =>
    let k := bits n 11 0
    x.setRegion k { x.region k with nextOwner := bits n 51 32, pending := true, handoffDrip := BitVec.ofNat 48 (bits n 111 64) }
  | 0x3270, 8 => { x with coll := { x.coll with groupSel := n } }
  | 0x3270, 10 =>
    { x with coll := { x.coll with
      nextGroups := (x.coll.nextGroups.filter fun g => g.1 != x.coll.groupSel) ++ [(x.coll.groupSel, groupOfBytes v)] } }
  | 0x3280, 1 => { x with svc := { x.svc with ledgerBase := n } }
  | 0x3280, 2 => { x with svc := { x.svc with ledgerEntries := n } }
  | 0x3280, 3 =>
    let w := x.svc
    { x with svc := if n = 1 ∧ w.ledgerEnable = false then { w with ledgerEnable := true, ledgerHead := 0, ledgerPhase := true }
      else { w with ledgerEnable := n == 1 } }
  | 0x3280, 5 => { x with svc := { x.svc with scanDrips := n } }
  | 0x3280, 6 => { x with svc := { x.svc with scanMax := n } }
  | _, _ => x

/-- 0x4000 to 0x4030. -/
def State.apply4 (s : State) (index sub c : Nat) (v : Bytes) : State :=
  let n := leNat v
  let put (f : Package → Package) : State := { s with pkg := f s.pkg }
  match index, sub with
  | 0x4000, 1 => put fun p => { p with nodeId := n }
  | 0x4000, 2 => put fun p => { p with congestionMode := n }
  | 0x4000, 4 => put fun p => { p with routeSwitch := some (BitVec.ofNat 48 n), routeSwitchReg := n }
  | 0x4000, 5 => put fun p => { p with routeDrain := n }
  | 0x4000, 6 => put fun p => { p with tableA := v }
  | 0x4000, 7 => put fun p => { p with tableB := v }
  | 0x4000, 8 => put fun p => { p with e2e := n }
  | 0x4000, 9 => put fun p => { p with retryLimit := n }
  | 0x4000, 10 => put fun p => { p with markBytes := n }
  | 0x4000, 11 => put fun p => { p with winInit := n }
  | 0x4000, 12 => put fun p => { p with winMax := n }
  | 0x4000, 13 => put fun p => { p with lossHold := n }
  | 0x4030, 1 => put fun p => { p with fencePorts := n }
  | 0x4030, 2 => put fun p => { p with fenceSlices := n }
  | 0x4011, _ => s.setDisabled c (sub - 1) (n == 1)
  | _, _ => s

/-- 0x5000 and 0x5020. -/
def State.apply5 (s : State) (index sub c : Nat) (v : Bytes) : State :=
  let n := leNat v
  match index, sub with
  | 0x5000, 10 => s.onSl c fun x => { x with tiers := { x.tiers with sumpRate := n } }
  | 0x5020, 1 => { s with dict := { s.dict with scrubInterval := n } }
  | 0x5020, 2 => { s with dict := { s.dict with retrainInterval := n } }
  | 0x5020, 3 => { s with dict := { s.dict with legacyDrop := n == 1 } }
  | _, _ => s

/-- Setting RING_ENABLE starts the ring anew (R375). -/
def Ring.setEnable (r : Ring) (on : Bool) : Ring :=
  if on && !r.enable then { r with enable := true, head := 0, tail := 0, phase := true } else { r with enable := on }

/-- 0x6000 to 0x6300. -/
def State.apply6 (s : State) (index sub : Nat) (v : Bytes) : State :=
  let n := leNat v
  let w : Word := BitVec.ofNat 64 n
  match index, sub with
  | 0x6000, 1 =>
    let t := { s with time := { s.time with dripBeats := n } }
    if t.time.hasOrigin then t.setOrigin t.time.origin else t
  | 0x6040, 2 => { s with pkg := { s.pkg with collEpochs := s.pkg.collEpochs ++ [BitVec.ofNat 48 n], collEpochReg := n } }
  | 0x6100, 1 => { s with dict := { s.dict with ctxSel := n } }
  | 0x6101, 1 => { s with dict := { s.dict with ringSel := n } }
  | 0x6101, 2 => s.onRing s.dict.ringSel fun r => { r with base := n }
  | 0x6101, 3 => s.onRing s.dict.ringSel fun r => { r with entries := n }
  | 0x6101, 4 => s.onRing s.dict.ringSel fun r => r.setEnable (n == 1)
  | 0x6101, 5 => s.setRingHead s.dict.ringSel n
  | 0x6101, 8 => { s with host := { s.host with ring0Partial := n } }
  | 0x6110, 2 => { s with pkg := { s.pkg with reshapeSlot := n } }
  | 0x6110, 3 => if n = 0 then s.disarmReshape.getD s else (s.armReshape w).getD s
  | 0x6120, 1 => { s with dict := { s.dict with hotSel := n } }
  | 0x6120, 3 => (s.serveHot n).getD s
  | 0x6200, 1 => { s with load := { s.load with target := n } }
  | 0x6200, 2 => s.setChain v
  | 0x6200, 3 => { s with load := { s.load with source := v } }
  | 0x6200, 4 => if n = 1 then s.loadStart.getD s else s
  | 0x6200, 8 => { s with load := { s.load with upstreamTimeout := n } }
  | 0x6200, 9 => { s with load := { s.load with window := n } }
  | 0x6200, 10 => { s with load := { s.load with frameStart := n } }
  | 0x6200, 12 => (s.switchEpoch w).getD s
  | 0x6300, 1 => { s with still := { s.still with on := n == 1 } }
  | _, _ => s

/-- The credential list of a principal: the sub-index of Table 17-6. -/
def Principal.ofCred (sub : Nat) : Principal := if sub = 1 then .operator else if sub = 2 then .owner else .security

/-- A credential list takes effect: sessions of removed keys close, and new owner credentials clear OWNER_LOCK (R442). -/
def State.setCred (s : State) (sub : Nat) (v : Bytes) : State :=
  let d := s.dict
  let d1 := if sub = 1 then { d with credOperator := v } else if sub = 2 then { d with credOwner := v, ownerLock := false }
    else { d with credSecurity := v }
  ({ s with dict := d1 } : State).keepSessions fun u => u.principal != Principal.ofCred sub || (credKeys v).contains u.key

/-- FW_STAGE_STATE or FW_ROLLOUT_STATE changed (Table 20-8). -/
def State.fwCause (s : State) (old : Firmware) : State :=
  if s.fw.stageState = old.stageState ∧ s.fw.rollout = old.rollout then s else s.cause 2

/-- 0x7020 to 0x9020. -/
def State.apply8 (s : State) (index sub : Nat) (v : Bytes) : State :=
  let n := leNat v
  let put (f : Security → Security) : State := { s with sec := f s.sec }
  match index, sub with
  | 0x7020, 1 => { s with dict := { s.dict with telemPeriod := n } }
  | 0x8000, 3 => put fun k => { k with deviceCert := v }
  | 0x8000, 4 => put fun k => { k with caCert := v }
  | 0x8000, 6 => put fun k => { k with revoked := v }
  | 0x8000, 7 => put fun k => { k with linkEncrypt := n == 1 }
  | 0x8000, 8 => put fun k => { k with rekeyFrames := n }
  | 0x8010, 1 => put fun k => { k with mrSel := n }
  | 0x8010, 3 => put fun k => { k with logSel := n }
  | 0x8010, 7 => (put fun k => { k with mr7Value := v }).extendMR 7 v
  | 0x8020, 1 => (s.askQuote v).getD s
  | 0x8020, 2 => put fun k => { k with quoteData := v }
  | 0x8040, _ => s.setCred sub v
  | 0x9000, 3 => { s with fw := { s.fw with boot := n } }
  | 0x9010, 1 => { s with fw := { s.fw with stageOffset := n } }
  | 0x9010, 2 => (s.stageData v).fwCause s.fw
  | 0x9010, 3 => ((s.stageCommit n).getD s).fwCause s.fw
  | 0x9020, 1 => ((s.startRollout n).getD s).fwCause s.fw
  | 0x9020, 5 => { s with fw := { s.fw with settle := n } }
  | 0x9020, 6 => { s with fw := { s.fw with procSel := n } }
  | _, _ => s

/-- 0xA000 of a slice (R486, R487). -/
def Errors.applyA (e : Errors) (sub n : Nat) : Errors :=
  match sub with
  | 1 => { e with head := n }
  | 3 => { e with sel := n }
  | 9 => if n = 1 then { e with first := none, overflow := 0 } else e
  | _ => e

/-- An accepted value takes effect. -/
def State.applyEntry (s : State) (index sub c : Nat) (v : Bytes) : State :=
  match index / 4096 with
  | 2 => s.apply2 index sub c v
  | 3 => s.onSl c fun x => x.apply3 index sub v
  | 4 => s.apply4 index sub c v
  | 5 => s.apply5 index sub c v
  | 6 => s.apply6 index sub v
  | 10 => s.onSl c fun x => { x with err := x.err.applyA sub (leNat v) }
  | _ => s.apply8 index sub v

end Sys2Proof.Machine
end

