-- ==== Sys2Proof/Machine/Sump.lean ====
section
/-! DEFINITION. The sump port of a slice (R503 to R507): enumeration of the expander, loss of the link and its return. -/

namespace Sys2Proof.Machine

/-- The link figure L in bytes per beat, and the derived rate min(L, D) (R505). -/
def Expander.linkFigure (e : Expander) : Nat := 224 * e.lanes / 8 * e.rate / 64

def Expander.derivedRate (e : Expander) : Nat :=
  match e.cdat with
  | some b => min (Expander.linkFigure e) (4 * b / 1000)
  | none => Expander.linkFigure e

/-- The mapped capacity: whole 256 MiB, at most 1.5 TiB (R504). -/
def Expander.mapped (e : Expander) : Nat := min (e.sizeBytes / 268435456 * 268435456) 1649267441664

/-- A hot-set slot keeps items in the sump window of a slice. -/
def HotSlot.uses (h : HotSlot) (c : Nat) : Bool :=
  h.st != 0 && (match h.img with | some j => j.hotMap.any fun m => m.2.any fun p => p.1 == c | none => true)

/-- Enumeration reaches its last step (R504, R507). The entries take what was found. Another device than before loses what the
slice kept in the sump; a link below the rate the image states is REFUSED; else the link is UP. -/
def State.enumerate (s : State) (c : Nat) (e : Expander) : State :=
  let u := (s.sl c).sump
  let rate := Expander.derivedRate e
  let known := u.capacity != 0 || u.serial != 0
  let other := known && (u.serial != e.serial || u.capacity != Expander.mapped e)
  let slow := match s.job with | some j => decide (rate < j.sumpRate) | none => false
  let t := s.onSl c fun x => { x with
    sump := { x.sump with
      lanes := e.lanes, rate := e.rate, serial := e.serial, capacity := Expander.mapped e
      foreign := (x.sump.foreign || other || slow) && s.job.isSome }
    tiers := { x.tiers with derivedRate := some rate, sumpRate := min 224 rate } }
  let t1 := if other then { t with hot := t.hot.map fun h => if h.uses c then {} else h } else t
  t1.setSumpLink c (if slow && !other then 4 else 3)

/-- SUMP_LINK_DOWN (R506, R507): the fetches in flight fail, and the loss is counted; slots become ABSENT at the next drip. -/
def execSumpLinkDown (sl : SliceId) (s : State) : Out :=
  let x := s.sl sl
  if x.sump.link ≠ 3 then .next s
  else
    let t := x.tiers.fetches.foldl (fun (v : State) (f : Fetch) => v.failFetch sl f.layer f.slot 0x12 []) s
    let t1 := t.onSl sl fun y => { y with sump := { y.sump with linkDowns := y.sump.linkDowns + 1 } }
    .next ((t1.setSumpLink sl 0).report sl (mkReport 0x19 9 0))

/-- SUMP_RETRAIN (R507): while the function is ON a port that is down trains again and judges what it finds. -/
def execSumpRetrain (sl : SliceId) (x : Option Expander) (s : State) : Out :=
  if (s.lifeOf 4 sl).st ≠ 2 ∨ (s.sl sl).sump.link ≠ 0 then .next s
  else
    match x with
    | none => .next s
    | some e =>
      let t := if e.suitable then s.enumerate sl e else s.setSumpLink sl 4
      .next (t.report sl (mkReport 0x19 9 0))

/-- SUMP_READ_TIMEOUT (R506): a read unanswered for 1 ms fails its fetch. -/
def execSumpReadTimeout (sl : SliceId) (layer : Nat) (r : SlotRef) (s : State) : Out :=
  if (s.sl sl).tiers.fetches.any fun f => f.layer == layer && f.slot == r && !f.failed && f.full.isNone then
    .next (s.failFetch sl layer r 0x12 [])
  else .next s

/-- SUMP_EVENT_POLL (R506): one error record for each event of the expander. -/
def execSumpEventPoll (sl : SliceId) (events : List Nat) (s : State) : Out :=
  .next (events.foldl (fun (t : State) e => t.report sl (mkReport 0x19 9 0 0 255 [e])) s)

end Sys2Proof.Machine
end

