-- ==== Sys2Proof/Machine/Dictionary.lean ====
section
/-! DEFINITION. The doors of the object dictionary (chapter 17): the BAR0 window (R448 to R450), the answers of lantern
sessions (R452, R455), chunked values (R449), and the commands that write one entry through either door. -/

namespace Sys2Proof.Machine

/-! ### Doors -/

/-- A session of the lantern port. -/
def State.session? (s : State) (n : Nat) : Option USession := s.lantern.sessions.find? fun u => u.num == n

/-- The LANTERN function is ON. -/
def State.lanternOn (s : State) : Bool := (s.lifeOf 0 0).st == 2

/-- The principal behind a door (R431). -/
def State.principalOf (s : State) : Door → Option Principal
  | .bar0 => some .host
  | .session n => (s.session? n).map (·.principal)

/-- Change a session. -/
def State.onSession (s : State) (n : Nat) (f : USession → USession) : State :=
  { s with lantern := { s.lantern with sessions := s.lantern.sessions.map fun u => if u.num == n then f u else u } }

/-- A Uaric message from the device: header and body (Table 17-14). -/
def uaricBytes (type session seq : Nat) (body : Bytes) : Bytes :=
  [1#8, BitVec.ofNat 8 type] ++ leBytes 2 body.length ++ leBytes 4 session ++ leBytes 8 seq ++ body

/-- The TAG of a message under a session key (R452). -/
def uaricTag (k msg : Bytes) : Bytes := kmac256 k msg 16 (ascii "UARIC")

/-- A tagged message. -/
def uaricTagged (k : Bytes) (type session seq : Nat) (body : Bytes) : Bytes :=
  let m := uaricBytes type session seq body
  m ++ uaricTag k m

/-- The RESULT of a session's request: sent, and kept until the next request (R455). -/
def State.sendResult (s : State) (n code len : Nat) (data : Bytes) : State :=
  match s.session? n with
  | none => s
  | some u =>
    let m := uaricTagged u.k 0x18 n u.seq ([BitVec.ofNat 8 code, 0#8] ++ leBytes 4 len ++ data)
    (s.onSession n fun w => { w with result := m }).emit (.lantern m)

/-- The BAR0 window ends an access with a code; a read or INFO that took effect leaves its value and length (R449). -/
def Dict.ended (d : Dict) (code : Nat) (value : Option (Nat × Bytes)) : Dict :=
  match value with
  | some (len, b) => { d with busy := false, code := code, length := len, data := patch (slice d.data 0 4096) 0 b }
  | none => { d with busy := false, code := code }

/-- A door's access ends. -/
def State.answer (s : State) (d : Door) (code : Nat) (value : Option (Nat × Bytes)) : State :=
  match d with
  | .bar0 => { s with dict := s.dict.ended code value }
  | .session n => s.sendResult n code ((value.map (·.1)).getD 0) ((value.map (·.2)).getD [])

/-- A session's persisted write is under way, so the session takes no further request (R455). -/
def State.writingFor (s : State) (d : Door) : Bool :=
  match s.dict.writing with
  | some w => w.door == d
  | none => false

/-- A door is free to start an access. -/
def State.doorOpen (s : State) (d : Door) : Bool :=
  match d with
  | .bar0 => !s.dict.busy
  | .session n => s.lanternOn && (s.session? n).isSome && !s.writingFor d && !(s.dict.queued.any fun o => o.door == d)

/-- A door starts an access: the window shows what it was asked, and a session takes its next SEQ and keeps no RESULT. The window ignores an access
while it is busy, and shows OVERRUN (R450); a session's request is discarded (R455). -/
def State.startAccess (s : State) (d : Door) (index sub op : Nat) : Option State :=
  match d with
  | .bar0 =>
    if s.dict.busy then none
    else some { s with dict := { s.dict with indexReg := field index 16 0 + field sub 8 16 + field op 2 24, busy := true } }
  | .session n => if s.doorOpen d then some (s.onSession n fun u => { u with seq := u.seq + 1, result := [] }) else none

/-- What an access that cannot start leaves. -/
def State.lostAccess (s : State) (d : Door) : State :=
  match d with
  | .bar0 => { s with dict := { s.dict with overrun := true } }
  | .session _ => s

/-! ### Reads and INFO (R438, R441, R449) -/

/-- The part of a value that a chunk of `size` bytes names; a fixed-width value is read whole. -/
def Entry.chunk (e : Entry) (v : Bytes) (k size : Nat) : Bytes :=
  if typeWidth e.ty = 0 then (v.drop (size * k)).take size else v

/-- A read through a door. -/
def State.readAccess (s : State) (d : Door) (index sub c k size : Nat) : State :=
  match s.principalOf d, entry? index sub with
  | some p, some e =>
    let code := s.judgeRead p e c
    if code = codeOk then
      let v := s.readEntry e p c
      s.answer d codeOk (some (v.length, e.chunk v k size))
    else s.answer d code none
  | _, _ => s.answer d codeNoEntry none

/-- The descriptor of an entry (R441). -/
def State.infoBytes (s : State) (e : Entry) : Bytes :=
  [BitVec.ofNat 8 e.ty] ++ ([.host, .operator, .owner, .security].map fun p => BitVec.ofNat 8 (s.accessOf p e)) ++
  [BitVec.ofNat 8 (b2n e.persist + field (b2n e.chan) 1 1 + field (b2n e.lock) 1 2 + field (b2n e.perf) 1 3), 0#8, 0#8] ++
  leBytes 4 e.maxLen ++ zeros 4

/-- An INFO through a door. -/
def State.infoAccess (s : State) (d : Door) (index sub : Nat) : State :=
  match s.principalOf d, entry? index sub with
  | some p, some e => if s.accessOf p e = 0 then s.answer d codeNoEntry none else s.answer d codeOk (some (16, s.infoBytes e))
  | _, _ => s.answer d codeNoEntry none

/-! ### Writes (R434, R438, R449) -/

/-- A whole value is written through a door: refused, applied at once, or begun as a store write. -/
def State.writeValue (s : State) (d : Door) (index sub c : Nat) (v : Bytes) : State :=
  match s.principalOf d, entry? index sub with
  | some p, some e =>
    let code := s.judgeWrite p e c v
    let ch := if e.chan then c else 0
    if codeDeferred < code then s.answer d code none
    else if e.stored then
      { s with dict := { s.dict with writing := some { index := index, sub := sub, channel := ch, value := v, door := d } } }
    else if e.isEnable then (s.answer d code none).applyEntry index sub ch v
    else (s.applyEntry index sub ch v).answer d code none
  | _, _ => s.answer d codeNoEntry none

/-- The copy a door is staging. -/
def State.stagedBy (s : State) (d : Door) : Option Staging := s.dict.staging.find? fun g => g.door == d

/-- A chunk of a STR or BLOB arrives through a door whose chunks have `size` bytes: out of order, of another entry or of a wrong
length it ends with LENGTH and the copy is discarded; the last one writes the whole value (R449). -/
def State.writeChunk (s : State) (d : Door) (index sub c k : Nat) (last : Bool) (size : Nat) (b : Bytes) : State :=
  let cur : Staging := (s.stagedBy d).getD { door := d, index := index, sub := sub, channel := c, next := 0, data := [] }
  let t := s.dropStaging d
  if cur.index ≠ index ∨ cur.sub ≠ sub ∨ cur.channel ≠ c ∨ cur.next ≠ k ∨ size < b.length ∨ (last = false ∧ b.length ≠ size) then
    t.answer d codeLength none
  else if last then t.writeValue d index sub c (cur.data ++ b)
  else
    let g : Staging := { door := d, index := index, sub := sub, channel := c, next := k + 1, data := cur.data ++ b }
    State.answer { t with dict := { t.dict with staging := t.dict.staging ++ [g] } } d codeOk none

/-- A WRITE with the fields of its door: channel, chunk, LAST and the bytes given; a fixed-width entry takes its width of them,
and a hidden entry is no entry. -/
def State.writeAccess (s : State) (d : Door) (index sub c k : Nat) (last : Bool) (size : Nat) (len : Nat) (b : Bytes) : State :=
  match s.principalOf d, entry? index sub with
  | some p, some e =>
    if s.accessOf p e = 0 then s.answer d codeNoEntry none
    else if s.accessOf p e < 2 then s.answer d codeAccess none
    else if s.lockRefuses p e then s.answer d codeLocked none
    else if typeWidth e.ty = 0 then s.writeChunk d index sub (if e.chan then c else 0) k last size (b.take len)
    else s.writeValue d index sub c (match d with | .bar0 => slice b 0 (typeWidth e.ty) | .session _ => b.take len)
  | _, _ => s.answer d codeNoEntry none

/-- A whole value for one entry. For a STR or BLOB it comes as the chunks 0, 1 and so on, the first of which is out of order while the
door is staging a copy: it ends with LENGTH and the copy is discarded (R449). -/
def State.valueAccess (s : State) (d : Door) (index sub c : Nat) (v : Bytes) : State :=
  match s.principalOf d, entry? index sub with
  | some p, some e =>
    if typeWidth e.ty = 0 && decide (2 ≤ s.accessOf p e) && !s.lockRefuses p e && (s.stagedBy d).isSome then
      (s.dropStaging d).answer d codeLength none
    else s.writeValue d index sub c v
  | _, _ => s.writeValue d index sub c v

/-! ### The order of accesses (R439, R463) -/

/-- The access is applied. -/
def State.serveOp (s : State) : DictOp → State
  | .read d i j c k size => s.readAccess d i j c k size
  | .write d i j c k last size len b => s.writeAccess d i j c k last size len b
  | .info d i j => s.infoAccess d i j
  | .value d i j c v => s.valueAccess d i j c v

/-- An access that a door has started: it waits while the management controller is handed over (step 33, R463). -/
def State.access (s : State) (o : DictOp) : State :=
  if s.fw.handing 33 then { s with dict := { s.dict with queued := s.dict.queued ++ [o] } } else s.serveOp o

/-- The accesses that waited are applied, in order, once no handover holds them. -/
def State.serveQueued (s : State) : State :=
  if s.fw.handing 33 then s
  else s.dict.queued.foldl State.serveOp { s with dict := { s.dict with queued := [] } }

/-- A row that writes one entry: the whole value through a door (R438). -/
def State.doorWrite (s : State) (d : Door) (index sub c : Nat) (v : Bytes) : State :=
  match s.startAccess d index sub 1 with
  | some t => t.access (.value d index sub c v)
  | none => s.lostAccess d

/-! ### The BAR0 window (R448 to R450) -/

/-- A write of DICT_INDEX: the access OP names starts with the DICT_SEL in force; a reserved OP starts none. -/
def State.dictAccess (s : State) (index sub op : Nat) : State :=
  match s.startAccess .bar0 index sub op with
  | none => s.lostAccess .bar0
  | some t =>
    let sel := t.dict.sel
    let c := bits sel 2 0
    match op with
    | 0 => t.access (.read .bar0 index sub c (bits sel 11 8) 4096)
    | 1 => t.access (.write .bar0 index sub c (bits sel 11 8) (bit sel 12) 4096 (bits sel 28 16) (slice t.dict.data 0 4096))
    | 2 => t.access (.info .bar0 index sub)
    | _ => { t with dict := { t.dict with busy := false } }

/-- DICT_READ (R449). -/
def execDictRead (index sub : Nat) (s : State) : Out := .next (s.dictAccess index sub 0)

/-- DICT_WRITE (R438, R449). -/
def execDictWrite (index sub : Nat) (s : State) : Out := .next (s.dictAccess index sub 1)

/-- DICT_INFO (R441). -/
def execDictInfo (index sub : Nat) (s : State) : Out := .next (s.dictAccess index sub 2)

/-- DICT_OVERRUN_CLEAR (R450, Table 17-13). -/
def execDictOverrunClear (s : State) : Out := .next { s with dict := { s.dict with overrun := false } }

/-- DICT_STAGING_TIMEOUT (R449): the staging copy untouched for the longest is discarded. -/
def execDictStagingTimeout (s : State) : Out := .next { s with dict := { s.dict with staging := s.dict.staging.drop 1 } }

/-- PERSISTED_WRITE_COMMIT (R434): the record is read back; the value takes effect and MR3 is extended, or the old value
stays. -/
def execPersistedWriteCommit (readBackOk : Bool) (s : State) : Out :=
  match s.dict.writing with
  | none => .next s
  | some w =>
    let t := { s with dict := { s.dict with writing := none } }
    if readBackOk then
      let u := (t.applyEntry w.index w.sub w.channel w.value).answer w.door codeOk none
      .next (if w.index = 0x9010 then u.storeWrite else u.storeRecord w.index w.sub w.channel w.value)
    else .next ((t.storeReport).answer w.door codeStoreFail none)

/-! ### Lifecycle functions (R445 to R447) -/

/-- LIFECYCLE_ENABLE (R446): a write of 1. -/
def execLifecycleEnable (d : Door) (f : Fin 7) (ch : Nat) (s : State) : Out := .next (s.doorWrite d (0x2200 + f) 1 ch [1#8])

/-- LIFECYCLE_DISABLE (R446): a write of 0. -/
def execLifecycleDisable (d : Door) (f : Fin 7) (ch : Nat) (s : State) : Out := .next (s.doorWrite d (0x2200 + f) 1 ch [0#8])

/-- A failed start: the stop actions run, the function is OFF, its code is kept and ENABLE is cleared (R447). A step of a sump
port that fails leaves its link REFUSED (R504). -/
def State.failLife (s : State) (f c code : Nat) : State :=
  let t := (((s.stopActions f c).onLife f c fun l => { l with lastFail := code, deferred := false }).setLife f c 0).queueEnable f c false
  let u := if f = 4 ∧ code = 2 then t.setSumpLink c 4 else t
  u.report (if f < 4 then 0 else c) (mkReport 0x16 (if f = 4 then 9 else if 5 ≤ f then 7 else 11) (if f = 6 then 39 else if f = 5 then 7 else 0))

/-- LIFECYCLE_START_COMPLETE (R445): a function that was starting is ON; a sump port takes what it found, and a device that is
absent or does not suit fails the start (R504). -/
def execLifecycleStartComplete (f : Fin 7) (ch : Nat) (x : Option Expander) (s : State) : Out :=
  if (s.lifeOf f ch).st ≠ 1 then .next s
  else if f = 4 then
    match x with
    | some e => if e.suitable then .next ((s.setLife f ch 2).enumerate ch e) else .next (s.failLife f ch 2)
    | none => .next (s.failLife f ch 2)
  else .next (s.setLife f ch 2)

/-- LIFECYCLE_START_FAIL (R447), with code 1 TIMEOUT, 2 DEVICE or 3 POWER. -/
def execLifecycleStartFail (f : Fin 7) (ch code : Nat) (s : State) : Out :=
  .next (if (s.lifeOf f ch).st = 1 && between 1 code 3 then s.failLife f ch code else s)

/-- LIFECYCLE_STOP_COMPLETE (R446): the function is OFF, and a deferred start runs. -/
def execLifecycleStopComplete (f : Fin 7) (ch : Nat) (s : State) : Out :=
  if (s.lifeOf f ch).st ≠ 3 then .next s
  else
    let t := (s.stopActions f ch).setLife f ch 0
    .next (if (s.lifeOf f ch).deferred then t.startLife f ch else t)

/-- ENABLE_RECORD_WRITE (R446): the oldest waiting record is written once no store write is under way and the reserve is not
low. -/
def execEnableRecordWrite (readBackOk : Bool) (s : State) : Out :=
  match s.dict.enableRecords with
  | [] => .next s
  | (f, c, on) :: rest =>
    if s.dict.writing.isSome || !s.dict.holdup then .next s
    else
      let t := { s with dict := { s.dict with enableRecords := rest } }
      if readBackOk && decide (s.dict.storeWear < 100) then
        .next ((t.onLife f c fun l => { l with enable := on }).storeRecord (0x2200 + f) 1 (if f < 4 then 0 else c) (leBytes 1 (b2n on)))
      else .next (t.storeReport)

/-! ### Rows that write one entry -/

/-- ROUTE_SWITCH_DRIP (R286). -/
def execRouteSwitchDrip (d : Door) (v : Word) (s : State) : Out := .next (s.doorWrite d 0x4000 4 0 (leBytes 8 v.toNat))

/-- PORT_DISABLE (R255). -/
def execPortDisable (d : Door) (sl : SliceId) (p : PortId) (disable : Bool) (s : State) : Out :=
  .next (s.doorWrite d 0x4011 (p + 1) sl (leBytes 1 (b2n disable)))

/-- REGION_ENTRY (R297). -/
def execRegionEntry (d : Door) (sl : SliceId) (v : Bytes) (s : State) : Out := .next (s.doorWrite d 0x3260 2 sl v)

/-- REGION_HANDOFF (R301). -/
def execRegionHandoff (d : Door) (sl : SliceId) (v : Bytes) (s : State) : Out := .next (s.doorWrite d 0x3260 3 sl v)

/-- COLL_EPOCH_DRIP (R345). -/
def execCollEpochDrip (d : Door) (v : Word) (s : State) : Out := .next (s.doorWrite d 0x6040 2 0 (leBytes 8 v.toNat))

/-- LEDGER_ENABLE (R359). -/
def execLedgerEnable (d : Door) (sl : SliceId) (on : Bool) (s : State) : Out :=
  .next (s.doorWrite d 0x3280 3 sl (leBytes 1 (b2n on)))

/-- RING_ENABLE (R375), on the ring that RING_SEL names. -/
def execRingEnable (d : Door) (on : Bool) (s : State) : Out := .next (s.doorWrite d 0x6101 4 0 (leBytes 1 (b2n on)))

/-- HOT_SERVE (R349). -/
def execHotServe (d : Door) (slot : Nat) (s : State) : Out := .next (s.doorWrite d 0x6120 3 0 (leBytes 1 slot))

/-- RESHAPE_ARM (R372). -/
def execReshapeArm (d : Door) (v : Word) (s : State) : Out := .next (s.doorWrite d 0x6110 3 0 (leBytes 8 v.toNat))

/-- RESHAPE_DISARM (R372). -/
def execReshapeDisarm (d : Door) (s : State) : Out := .next (s.doorWrite d 0x6110 3 0 (zeros 8))

/-- LOAD_START (R376). -/
def execLoadStart (d : Door) (s : State) : Out := .next (s.doorWrite d 0x6200 4 0 [1#8])

/-- LOAD_CHAIN (R388). -/
def execLoadChain (d : Door) (v : Bytes) (s : State) : Out := .next (s.doorWrite d 0x6200 2 0 v)

/-- EPOCH_SWITCH (R392). -/
def execEpochSwitch (d : Door) (v : Word) (s : State) : Out := .next (s.doorWrite d 0x6200 12 0 (leBytes 8 v.toNat))

/-- QUOTE_NONCE (R424). -/
def execQuoteNonce (d : Door) (v : Bytes) (s : State) : Out := .next (s.doorWrite d 0x8020 1 0 v)

/-- MR7_EXTEND (R422). -/
def execMr7Extend (d : Door) (v : Bytes) (s : State) : Out := .next (s.doorWrite d 0x8010 7 0 v)

/-- DEFAULTS_RESTORE (R435). -/
def execDefaultsRestore (d : Door) (s : State) : Out := .next (s.doorWrite d 0x2000 3 0 [1#8])

/-- CREDENTIAL_WRITE (R442). -/
def execCredentialWrite (d : Door) (sub : Nat) (v : Bytes) (s : State) : Out := .next (s.doorWrite d 0x8040 sub 0 v)

/-- FW_STAGE_DATA (R460). -/
def execFwStageData (d : Door) (v : Bytes) (s : State) : Out := .next (s.doorWrite d 0x9010 2 0 v)

/-- FW_STAGE_COMMIT (R461). -/
def execFwStageCommit (d : Door) (len : Nat) (s : State) : Out := .next (s.doorWrite d 0x9010 3 0 (leBytes 4 len))

/-- FW_ROLLOUT (R462). -/
def execFwRollout (d : Door) (s : State) : Out := .next (s.doorWrite d 0x9020 1 0 [1#8])

/-- FW_ROLLBACK (R462). -/
def execFwRollback (d : Door) (s : State) : Out := .next (s.doorWrite d 0x9020 1 0 [2#8])

/-- FW_BOOT_SLOT (R464). -/
def execFwBootSlot (d : Door) (slot : Nat) (s : State) : Out := .next (s.doorWrite d 0x9000 3 0 (leBytes 1 slot))

/-- ERR_CLEAR (R487). -/
def execErrClear (d : Door) (sl : SliceId) (s : State) : Out := .next (s.doorWrite d 0xA000 9 sl [1#8])

end Sys2Proof.Machine
end

