-- ==== Sys2Proof/Machine/Uaric.lean ====
section
/-! DEFINITION. Uaric on the lantern port (R452 to R455): the handshake, sessions and their requests. -/

namespace Sys2Proof.Machine

/-! ### Messages -/

/-- The header and body of a message received. -/
def UaricMsg.plain (m : UaricMsg) : Bytes :=
  [BitVec.ofNat 8 m.version, BitVec.ofNat 8 m.type] ++ leBytes 2 m.body.length ++ leBytes 4 m.session ++ leBytes 8 m.seq ++ m.body

/-- The EUI-64 interface identifier of LANTERN_MAC, and the link-local address made of it (R451). -/
def eui64 : Bytes :=
  let m := slice Config.lanternMac 0 6
  (m.getD 0 0 ^^^ 2#8) :: (m.drop 1).take 2 ++ [0xFF#8, 0xFE#8] ++ m.drop 3

def linkLocal : Bytes := [0xFE#8, 0x80#8] ++ zeros 6 ++ eui64

/-- An address of the port: the link-local one, and the static one or one that SLAAC forms, which ends in the identifier (R451). -/
def State.ownAddress (s : State) (a : Bytes) : Bool :=
  a == linkLocal || (if s.lantern.addrMode = 0 then a == s.lantern.addr else a.length == 16 && slice a 8 8 == eui64)

/-- The port takes a datagram: the LANTERN function is ON, the datagram is for an address of the port and LANTERN_UDP_PORT, its body holds at most 1,184 bytes, and
it holds at most 1,232 (R451, R452). -/
def State.takesDatagram (s : State) (m : UaricMsg) : Bool :=
  s.lanternOn && m.dst.all s.ownAddress && m.dstPort == s.lantern.port && decide (m.body.length ≤ 1184) && decide (16 + m.body.length + m.tag.length ≤ 1232)

/-- A tagged message is of a session that exists and passes its TAG (R454). -/
def State.taggedFrom (s : State) (m : UaricMsg) : Option USession :=
  match s.session? m.session with
  | some u => if s.takesDatagram m && m.version == 1 && m.tag == uaricTag u.k (UaricMsg.plain m) then some u else none
  | none => none

/-- Answer a message with a REJECT: counted, with an error record (R453). -/
def State.reject (s : State) (m : UaricMsg) (code : Nat) : State :=
  ((({ s with lantern := { s.lantern with authFailures := s.lantern.authFailures + 1 } }).report 0
    (mkReport 0x12 12 0)).emit (.lantern (uaricBytes 0x1F m.session m.seq [BitVec.ofNat 8 code])))

/-- A session closes: what it was staging goes with it. -/
def State.closeSession (s : State) (n : Nat) : State :=
  s.keepSessions fun u => u.num != n

/-! ### The handshake (R453, R454) -/

def openPrincipal (b : Bytes) : Option Principal :=
  match leNat (slice b 0 1) with
  | 1 => some .operator
  | 2 => some .owner
  | 3 => some .security
  | _ => none

def openKey (b : Bytes) : Bytes := slice b 40 57
def openX448 (b : Bytes) : Bytes := slice b 97 56

/-- The credential list of a principal. -/
def Dict.credList (d : Dict) : Principal → Bytes
  | .operator => d.credOperator
  | .owner => d.credOwner
  | .security => d.credSecurity
  | .host => []

/-- The lowest session number that no session and no handshake holds. -/
def Lantern.freeNum (l : Lantern) : Option Nat :=
  ((List.range 8).map (· + 1)).find? fun n => !(l.sessions.any fun u => u.num == n) && !(l.handshakes.any fun h => h.num == n)

/-- The first REJECT of an OPEN, in the order of R453. -/
def State.openReject (s : State) (m : UaricMsg) : Option Nat :=
  if m.version ≠ 1 then some 5
  else if s.sec.identity ≠ 1 || s.sec.trngFailing then some 4
  else if 8 ≤ s.lantern.sessions.length || 4 ≤ s.lantern.handshakes.length || s.lantern.freeNum.isNone then some 3
  else
    match openPrincipal m.body with
    | some p => if m.body.length == 153 && (credKeys (s.dict.credList p)).contains (openKey m.body) then none else some 1
    | none => some 1

/-- OPEN (R453): a CHALLENGE with a fresh nonce and X448 pair, or a REJECT. -/
def execUaricOpen (m : UaricMsg) (s : State) : Out :=
  if !s.takesDatagram m then .next s
  else
    match s.openReject m with
    | some code => .next (s.reject m code)
    | none =>
      let n := s.lantern.freeNum.getD 1
      let (r, t) := s.drawTrng 88
      let nonce := slice r 0 32
      let priv := slice r 32 56
      let pub := slice (Config.x448Public priv) 0 56
      let th1 := shake256 (0x40#8 :: (m.body ++ nonce ++ pub)) 64
      let h : UHandshake :=
        { num := n, principal := (openPrincipal m.body).getD .operator, key := openKey m.body, th1 := th1
          k := kmac256 (Config.x448 priv (openX448 m.body)) th1 32 (ascii "LANTERN") }
      let body := nonce ++ pub ++ slice (Config.ed448Sign s.identitySeed "KN800-LANTERN" th1) 0 114
      .next (({ t with lantern := { t.lantern with handshakes := t.lantern.handshakes ++ [h] } }).emit
        (.lantern (uaricBytes 0x02 n m.seq body)))

/-- PROVE (R453): the signature over th2 opens the session, or a REJECT ends the handshake. -/
def execProve (m : UaricMsg) (s : State) : Out :=
  match s.lantern.handshakes.find? fun h => h.num == m.session with
  | none => .next s
  | some h =>
    if !s.takesDatagram m || m.version != 1 then .next s
    else
      let t := { s with lantern := { s.lantern with handshakes := s.lantern.handshakes.filter fun g => g.num != h.num } }
      if s.sec.identity ≠ 1 || s.sec.trngFailing then .next (t.reject m 4)
      else if m.body.length == 114 && Config.ed448Verify h.key "KN800-LANTERN" (shake256 (0x41#8 :: h.th1) 64) m.body then
        let u : USession := { num := h.num, principal := h.principal, key := h.key, k := h.k }
        .next (({ t with lantern := { t.lantern with sessions := t.lantern.sessions ++ [u] } }).emit
          (.lantern (uaricTagged h.k 0x04 h.num 0 (leBytes 4 t.lantern.idle ++ zeros 4))))
      else .next (t.reject m 2)

/-- UARIC_HANDSHAKE_TIMEOUT (R454). -/
def execUaricHandshakeTimeout (h : Nat) (s : State) : Out :=
  .next { s with lantern := { s.lantern with handshakes := s.lantern.handshakes.filter fun g => g.num != h } }

/-- CLOSE (R454). -/
def execUaricClose (m : UaricMsg) (s : State) : Out :=
  match s.taggedFrom m with
  | some u => .next (s.closeSession u.num)
  | none => .next s

/-- UARIC_IDLE_TIMEOUT (R454). -/
def execUaricIdleTimeout (n : Nat) (s : State) : Out := .next (s.closeSession n)

/-- CERT_GET (R452): a chunk of the device certificate or of the intermediate in effect. -/
def execCertGet (m : UaricMsg) (s : State) : Out :=
  let which := leNat (slice m.body 0 1)
  if !s.takesDatagram m || m.version != 1 || decide (1 < which) then .next s
  else
    let c := if which = 0 then s.sec.deviceCertUsed else s.sec.caCertUsed
    let part := (c.drop (1024 * leNat (slice m.body 1 1))).take 1024
    .next (s.emit (.lantern (uaricBytes 0x07 0 m.seq (leBytes 2 c.length ++ part))))

/-! ### Requests (R455) -/

/-- A session's request: one that repeats the last SEQ gets the kept RESULT again, the next SEQ is served, and any other is
discarded. -/
def State.uaricRequest (s : State) (m : UaricMsg) (type : Nat) (op : Door → DictOp) : State :=
  match s.taggedFrom m with
  | none => s
  | some u =>
    if m.type ≠ type then s
    else if m.seq = u.seq then (if u.result = [] then s else s.emit (.lantern u.result))
    else if m.seq = u.seq + 1 then
      match s.startAccess (.session u.num) 0 0 0 with
      | some t => t.access (op (.session u.num))
      | none => s
    else s

def UaricMsg.index (m : UaricMsg) : Nat := leNat (slice m.body 0 2)
def UaricMsg.sub (m : UaricMsg) : Nat := leNat (slice m.body 2 1)
def UaricMsg.channel (m : UaricMsg) : Nat := leNat (slice m.body 3 1)
def UaricMsg.chunk (m : UaricMsg) : Nat := leNat (slice m.body 4 1)
def UaricMsg.last (m : UaricMsg) : Bool := bit (leNat (slice m.body 5 1)) 0
def UaricMsg.chunkLen (m : UaricMsg) : Nat := leNat (slice m.body 6 2)

/-- READ (R455). -/
def execUaricRead (m : UaricMsg) (s : State) : Out :=
  .next (s.uaricRequest m 0x10 fun d => .read d (UaricMsg.index m) (UaricMsg.sub m) (UaricMsg.channel m) (UaricMsg.chunk m) 1024)

/-- WRITE (R455). -/
def execUaricWrite (m : UaricMsg) (s : State) : Out :=
  .next (s.uaricRequest m 0x11 fun d => .write d (UaricMsg.index m) (UaricMsg.sub m) (UaricMsg.channel m) (UaricMsg.chunk m)
    (UaricMsg.last m) 1024 (UaricMsg.chunkLen m) (m.body.drop 8))

/-- INFO (R455). -/
def execUaricInfo (m : UaricMsg) (s : State) : Out :=
  .next (s.uaricRequest m 0x12 fun d => .info d (UaricMsg.index m) (UaricMsg.sub m))

end Sys2Proof.Machine
end

