-- ==== Sys2Proof/Machine/Firmware.lean ====
section
/-! DEFINITION. The steps of a firmware rollout (R463 to R467). -/

namespace Sys2Proof.Machine

/-- The set a handover of the present rollout goes to: the target, or on the way back the running slot. -/
def Firmware.toSlot (f : Firmware) : Nat := if f.rollout = 3 then f.running else f.target

/-- The digest of the image that step k takes from a slot. -/
def Firmware.imageDigest (f : Firmware) (slot k : Nat) : Bytes :=
  let img := f.slots.getD slot []
  setDigest img (setEntry img (stepKind k))

/-- A processor can run neither image: it has failed as a unit, and R15 applies to its slice (R466). -/
def State.processorLost (s : State) (k : Nat) : State :=
  match stepSlice k with
  | some i => (s.failUnit i { kind := 0, index := 0 }).report i (mkReport 0x14 0 0)
  | none => s.report 0 (mkReport 0x14 (if k = 33 then 11 else 12) 0)

/-- One processor is back on its old set; after the last one the rollout has failed (R466). -/
def State.undone (s : State) : State :=
  let f := s.fw
  { s with fw := { f with switching := false, step := f.step - 1, rollout := if f.step ≤ 1 then 4 else f.rollout } }

/-- The security controller extends MR5 with the digest of the image that step k takes into service (R463). -/
def State.measureStep (s : State) (k : Nat) : State :=
  let d := s.fw.imageDigest s.fw.toSlot k
  let t := s.extendMR 5 d
  { t with
    fw := { t.fw with measured := t.fw.measured.modify t.fw.toSlot fun l => l.set (k - 1) d }
    sec := { t.sec with handoverSinceBoot := true } }

/-- HANDOVER_STEP (R463): at the first drip that qualifies, the next processor switches, if the image it loaded matches its
digest; the security controller has then extended MR5 for its own image as its old image's last act. Otherwise the rollout turns back, and a processor on its way back is lost (R466). -/
def execHandoverStep (digestOk : Bool) (s : State) : Out :=
  if !s.handoverDue then .next s
  else
    let f := s.fw
    let k := f.nextStep
    if digestOk then
      let t := { s with fw := { f with
        switching := true, lastH := s.now, collHold := 0, hold := 0, procs := f.procs.set (k - 1) f.toSlot } }
      .next (if k = 34 then t.measureStep k else t)
    else if f.rollout = 3 then .next (((s.processorLost k).undone).fwCause f)
    else .next (((s.report 0 (mkReport 0x14 11 0)).reverting).fwCause f)

/-- IMAGE_READY (R463): MR5 is extended with the image's digest, that of the security controller apart, and the step is complete; after
step 34 the target slot is the running slot (R467). Accesses that waited for step 33 are applied. -/
def execImageReady (s : State) : Out :=
  let f := s.fw
  if !f.switching then .next s
  else
    let k := f.nextStep
    let u := if k = 34 then s else s.measureStep k
    if f.rollout = 3 then .next (u.undone.fwCause f).serveQueued
    else
      let last := decide (k = 34)
      .next ({ u with fw := { u.fw with
        switching := false, step := k, running := if last then f.target else f.running, committing := last } } : State).serveQueued

/-- HANDOVER_READY_TIMEOUT (R466): the rollout turns back, and the processor is to be on the image it ran before at the next drip
boundary. One that was on its way back already is lost. -/
def execHandoverReadyTimeout (oldReturns : Bool) (s : State) : Out :=
  let f := s.fw
  if !f.switching then .next s
  else
    let k := f.nextStep
    if f.rollout = 3 then .next (((s.processorLost k).undone).fwCause f).serveQueued
    else
      let t := s.report 0 (mkReport 0x14 11 0)
      let u := t.reverting
      .next (({ u with fw := { u.fw with returning := some (k, oldReturns) } } : State).fwCause f)

/-- A drip boundary: a processor that did not report ready is back on its old image, or is lost (R466). -/
def State.returnProcessor (s : State) : State :=
  match s.fw.returning with
  | none => s
  | some (k, ok) =>
    let t := { s with fw := { s.fw with returning := none, procs := s.fw.procs.set (k - 1) s.fw.running } }
    (if ok then t else t.processorLost k).serveQueued

/-- ROLLOUT_RESUME (R465). -/
def execRolloutResume (s : State) : Out := .next (if s.fw.rollout = 2 then s.checkHold.fwCause s.fw else s)

/-- BOOT_SLOT_COMMIT (R467): after step 34 the running slot is written to FW_BOOT_SLOT, once the reserve and the store allow;
the rollout is IDLE, and the former running slot is the staging slot. -/
def execBootSlotCommit (readBackOk : Bool) (s : State) : Out :=
  let f := s.fw
  if !f.committing || !s.dict.holdup || s.dict.writing.isSome then .next s
  else if readBackOk && decide (s.dict.storeWear < 100) then
    let t := { s with fw := { f with boot := f.running, rollout := 0, committing := false, stageState := 0, stageReason := 0 } }
    .next ((t.storeRecord 0x9000 3 0 (leBytes 1 f.running)).fwCause f)
  else .next (s.storeReport)

end Sys2Proof.Machine
end

