-- ==== Sys2Proof/Machine/HostRegs.lean ====
section
/-! DEFINITION. The registers of BAR0 (R250, R448, R491, R501) as 8-byte words, and the commands that reach them. -/

namespace Sys2Proof.Machine

/-- A record of the host port (R509). -/
def State.hostReport (s : State) : State := s.report 0 (mkReport 0x18 14 0)

/-- An access through a BAR that the port refuses is counted and recorded (R491, R493). -/
def State.barAbort (s : State) : State :=
  ({ s with host := { s.host with barAborts := s.host.barAborts + 1 } }).hostReport

/-! ### MSI-X (R501) -/

/-- Pending messages of vectors that are masked no more are sent. -/
def State.sendPending (s : State) : State :=
  if !s.host.msixEnable then s
  else
    (setBits 64 s.host.pendingBits).foldl (fun (t : State) v =>
      if t.host.masked v then t
      else ({ t with host := { t.host with pendingBits := t.host.pendingBits ^^^ 2 ^ v } }).pushChan 17 (.message v)) s

/-- MASK of EVT_CTRL changes: the event vector sends a message when the unmasked causes change from 0. -/
def State.setEvtCtrl (s : State) (v : Nat) : State :=
  let t := { s with host := { s.host with evtVector := bits v 5 0, evtMask := bits v 15 8 } }
  if s.host.evt = 0 && t.host.evt != 0 then t.msix t.host.evtVector else t

/-- Bytes `8 * (o / 8)` to `8 * (o / 8) + 7` of the MSI-X table; the vector control holds its mask bit alone. -/
def State.setMsixTable (s : State) (o v : Nat) : State :=
  let k := o / 16
  let w := if o % 16 = 0 then v else v &&& (2 ^ 33 - 1)
  ({ s with host := { s.host with
      msix := s.host.msix.modify k fun e => patch (slice e 0 16) (o % 16 / 8 * 8) (leBytes 8 w) } }).sendPending

/-! ### Registers as they read -/

/-- The pool manager registers (Tables 09-6 to 09-11). A CLASS of 6 or 7 shows 0. -/
def Pools.reg (p : Pools) (o : Nat) : Nat :=
  if o < 0x30 then field (p.cls (o / 8)).base 41 0 + field (p.cls (o / 8)).count 18 42
  else if o < 0x60 then
    let c := (o - 0x30) / 8
    field (p.free c) 18 0 + field (p.unused c) 18 18 + field (p.cls c).lowFree 18 36
  else if o < 0x68 then p.ownerSel
  else if o < 0x70 then
    let w := bits p.ownerSel 5 0
    let c := bits p.ownerSel 8 6
    if c < 6 then
      field (p.held w c) 18 0 + field (ownerRes (p.owner w) c) 18 18 + field (ownerLim (p.owner w) c) 18 36 + field (p.owner w).kind 3 54
    else 0
  else if o < 0x78 then p.lastReject
  else b2n p.configured

/-- RING_VEC_r (Table 20-7). -/
def Ring.vec (r : Ring) : Nat := field r.vector 6 0 + field r.modCount 8 8 + field r.modTime 16 16

/-- Bytes in a segment of BAR2 (R492). -/
def HostPort.segment (h : HostPort) : Nat := 2 ^ h.bar2Size / 8

/-- BAR2_WIN_k (Table 20-6). -/
def HostPort.win (h : HostPort) (k : Nat) : Nat :=
  let w := h.wins.getD k (0, 0, false)
  field (w.1 - w.1 % h.segment) 41 0 + field w.2.1 3 41 + field (b2n w.2.2) 1 44

/-- DICT_STATUS (Table 17-13). -/
def Dict.status (d : Dict) : Nat := b2n d.busy + field (b2n d.overrun) 1 1 + field d.code 8 8 + field d.length 17 16

/-- The 8 bytes of BAR0 at an aligned offset (Table 20-3); a reserved offset reads 0, and so does a register of a slice that
failed its self-test, whose always-on domain alone the channel select reaches (R3). -/
def State.regValue (s : State) (o : Nat) : Nat :=
  let h := s.host
  if o = 0 then h.status
  else if o = 8 then h.chanSel
  else if o = 0x10 then field h.evtVector 6 0 + field h.evtMask 8 8
  else if o = 0x18 then h.evtCause
  else if 0x100 ≤ o ∧ o < 0x140 then h.win ((o - 0x100) / 8)
  else if o = 0x100000 then s.dict.sel
  else if o = 0x100008 then s.dict.indexReg
  else if o = 0x100010 then s.dict.status
  else if 0x101000 ≤ o ∧ o < 0x102000 then leNat (slice s.dict.data (o - 0x101000) 8)
  else if 0x200000 ≤ o ∧ o < 0x200400 then leNat (slice (h.msix.getD ((o - 0x200000) / 16) []) (o % 16) 8)
  else if o = 0x201000 then h.pendingBits
  else if 0x300000 ≤ o ∧ o < 0x300800 then
    let r := h.rings.getD ((o - 0x300000) / 0x20) {}
    if o % 0x20 = 0 then r.head else if o % 0x20 = 8 then r.tail else if o % 0x20 = 0x10 then r.vec else 0
  else if 0x400000 ≤ o ∧ o < 0x400080 then (if (s.sl h.chanSel).present then (s.sl h.chanSel).pools.reg (o - 0x400000) else 0)
  else if o = 0x401000 then (if (s.sl h.chanSel).present then (s.sl h.chanSel).svc.ledgerHead else 0)
  else 0

/-! ### Writes -/

/-- A write of the pool manager registers: `v` is the register with the bytes written, `w` those bytes alone. -/
def Pools.setReg (p : Pools) (o v w : Nat) : Pools :=
  if o = 0x60 then { p with ownerSel := bits v 8 0 }
  else if o = 0x70 then (if w.testBit 63 then { p with lastReject := p.lastReject % 2 ^ 63 } else p)
  else if o = 0x78 then
    (if w.testBit 1 then { p with classes := (List.range 6).map fun c => { p.cls c with lowFree := p.free c } } else p)
  else p

/-- A write of the register at an aligned offset: `v` is the register with the bytes written, `w` those bytes alone, and `low`
says that its first byte is among them. -/
def State.setReg (s : State) (o v w : Nat) (low : Bool) : State :=
  let put (f : HostPort → HostPort) : State := { s with host := f s.host }
  if o = 8 then put fun h => { h with chanSel := bits v 2 0 }
  else if o = 0x10 then s.setEvtCtrl v
  else if o = 0x18 then put fun h => { h with evtCause := h.evtCause &&& ((w % 256) ^^^ 0xFF) }
  else if 0x100 ≤ o ∧ o < 0x140 then put fun h => { h with wins := h.wins.set ((o - 0x100) / 8) (bits v 40 0, bits v 43 41, bit v 44) }
  else if o = 0x100000 then (if s.dict.busy then s else { s with dict := { s.dict with sel := v &&& 0x1FFF1F07 } })
  else if o = 0x100008 then (if low then s.dictAccess (bits v 15 0) (bits v 23 16) (bits v 25 24) else s)
  else if o = 0x100010 then (if bit w 1 then { s with dict := { s.dict with overrun := false } } else s)
  else if 0x101000 ≤ o ∧ o < 0x102000 then
    (if s.dict.busy then s else { s with dict := { s.dict with data := patch (slice s.dict.data 0 4096) (o - 0x101000) (leBytes 8 v) } })
  else if 0x200000 ≤ o ∧ o < 0x200400 then s.setMsixTable (o - 0x200000) v
  else if 0x300000 ≤ o ∧ o < 0x300800 then
    let r := (o - 0x300000) / 0x20
    if o % 0x20 = 0 then s.setRingHead r (bits v 15 0)
    else if o % 0x20 = 0x10 then s.onRing r fun k => { k with vector := bits v 5 0, modCount := bits v 15 8, modTime := bits v 31 16 }
    else s
  else if 0x400000 ≤ o ∧ o < 0x400080 then
    s.onSl s.host.chanSel fun x => if x.present then { x with pools := x.pools.setReg (o - 0x400000) v w } else x
  else s

/-- Whether BAR0 accepts an access: naturally aligned, of 4 or 8 bytes (R491). -/
def barSizeOk (off size : Nat) : Bool := (size == 4 || size == 8) && off % size == 0

/-- BAR0_INVALID_ACCESS (R491): a read completes with Completer Abort and a write is discarded. -/
def execBar0InvalidAccess (off size : Nat) (isWrite : Bool) (s : State) : Out :=
  if barSizeOk off size then .next s
  else
    let t := s.barAbort
    .next (if isWrite then t else t.emit (.cpl [] true false))

/-- REGISTER_WRITE (R491). -/
def execRegisterWrite (off : Nat) (data : Bytes) (s : State) : Out :=
  if barSizeOk off data.length then
    let o := off - off % 8
    let old := leBytes 8 (s.regValue o)
    .next (s.setReg o (leNat (patch old (off % 8) data)) (leNat (patch (zeros 8) (off % 8) data)) (off % 8 == 0))
  else .next s.barAbort

/-- EVT_CAUSE_CLEAR (R501, Table 20-8). -/
def execEvtCauseClear (mask : Nat) (s : State) : Out := .next (s.setReg 0x18 mask mask true)

/-- MSIX_UNMASK (R501): the mask bit of a vector is cleared, and its pending message is sent. -/
def execMsixUnmask (v : Fin 64) (s : State) : Out :=
  .next (s.setMsixTable (16 * v.val + 8) (leNat (slice (s.host.msix.getD v []) 8 4)))

/-- MSIX_MOD_TIMEOUT (R501): MOD_TIME of a ring has passed since its oldest counted record. -/
def execMsixModTimeout (ring : Fin 64) (s : State) : Out :=
  let r := s.host.rings.getD ring {}
  .next (if r.modTime ≠ 0 ∧ 0 < r.unsignalled then s.signalVector r.vector else s)

end Sys2Proof.Machine
end

