-- ==== Sys2Proof/Machine/HostPort.lean ====
section
/-! DEFINITION. BAR2 (R492 to R496), device DMA (R497 to R500), host-port resets and the host link (R500, R502), and
configuration requests (R488, R520). -/

namespace Sys2Proof.Machine

/-! ### BAR2 -/

/-- The slice and offset that a BAR2 offset reaches, if its segment is mapped (R492). -/
def HostPort.translate (h : HostPort) (a : Nat) : Option (Nat × Nat) :=
  let w := h.wins.getD (a / h.segment) (0, 0, false)
  if w.2.2 then some (w.2.1, w.1 - w.1 % h.segment + a % h.segment) else none

/-- Whether BAR2 reaches a range of a slice (Table 20-9). -/
def State.bar2Reach (s : State) (sl a n : Nat) (isWrite : Bool) : Bool :=
  let x := s.sl sl
  let whole := (inRegion a n .hbm && !deviceRegion a n) || inRegion a n .staging
  x.present && !x.power.heldInReset &&
    (if isWrite && s.job.isSome then x.tiers.inState a n || x.hbmFree a n else whole)

/-- BAR2_READ (R493, R494): the data as stored, with EP where a word is poisoned. -/
def State.bar2Read (s : State) (off len : Nat) : Out :=
  match s.host.translate off with
  | some (sl, a) =>
    if s.bar2Reach sl a len false then .next (s.emit (.cpl ((s.sl sl).load a len) false ((s.sl sl).poisoned a len)))
    else .next ((s.barAbort).emit (.cpl [] true false))
  | none => .next ((s.barAbort).emit (.cpl [] true false))

/-- BAR2_READ (R204, R493). The words that it finds uncorrectable come with the command. -/
def execBar2Read (off : Reads Nat) (len : Nat) (s : State) : Out :=
  (match s.host.translate off.on with
   | some k => s.findBad k.1 off.bad
   | none => s).bar2Read off.on len

/-- BAR2_WRITE (R493 to R495): a poisoned write is discarded whole and recorded. -/
def execBar2Write (t : Tlp) (s : State) : Out :=
  match s.host.translate t.offset with
  | some (sl, a) =>
    if !s.bar2Reach sl a t.data.length true then .next (s.barAbort)
    else if t.poisoned then .next (s.hostReport)
    else .next (s.onSl sl fun x => x.store a t.data)
  | none => .next (s.barAbort)

/-- BAR2_READ_TIMEOUT (R496): a read that no claim of its slice let through for 1 ms. -/
def execBar2ReadTimeout (s : State) : Out := .next ((s.barAbort).emit (.cpl [] true false))

/-! ### Device DMA -/

/-- The port may issue requests (R500). -/
def State.canIssue (s : State) : Bool := s.host.linkUp && s.host.bme

/-- A job is a read of host memory. -/
def DmaJob.isRead : DmaJob → Bool
  | .inputRead _ _ _ _ | .copyRead _ _ _ _ _ | .loadRead _ _ => true
  | _ => false

/-- A read of host memory fails: what it served ends (R499). -/
def State.failRead (s : State) (j : DmaJob) : State :=
  let t := ({ s with host := { s.host with dmaErrors := s.host.dmaErrors + 1 } }).hostReport
  match j with
  | .inputRead sl req _ _ => t.endNext sl (fun r => r.slot == req) .fault
  | .copyRead sl cmd _ _ _ => t.copyFailed sl cmd
  | .loadRead _ _ => if s.load.st = 1 ∨ s.load.st = 3 then t.failLoad .fault s.load.nextSeq 0 else t
  | _ => t

/-- A job that cannot issue fails what it serves; messages and records wait (R500). -/
def State.failJob (s : State) (j : DmaJob) : State :=
  match j with
  | .outputWrite sl req _ _ => s.endNext sl (fun r => r.slot == req) .fault
  | .copyWrite sl cmd _ _ => s.copyFailed sl cmd
  | _ => if j.isRead then s.failRead j else s

/-- While the port issues no request, what waits on channels 0 to 16 fails (R500). -/
def State.stallDma (s : State) : State :=
  let waiting := (s.host.chans.take 17).flatten
  let t := { s with host := { s.host with chans := (List.range 18).map fun c => if c < 17 then [] else s.host.chans.getD c [] } }
  waiting.foldl State.failJob t

/-- Bytes that one request takes at an address: at most `m`, and not across a 4 KiB boundary (R498). -/
def pieceLen (addr len m : Nat) : Nat := min len (min (max 1 m) (4096 - addr % 4096))

/-- The lowest free tag (R488, R498). -/
def HostPort.freeTag (h : HostPort) : Option Nat := (List.range 1024).find? fun t => !h.reads.any fun r => r.1 == t

/-- The request that a read issues next, and what is left of it: address, bytes, the part in flight, the rest. -/
def DmaJob.split (mrrs : Nat) : DmaJob → Nat × Nat × DmaJob × Option DmaJob
  | .inputRead sl q a len =>
    let n := pieceLen a len (min mrrs 4096)
    (a, n, .inputRead sl q a n, if n < len then some (.inputRead sl q ((a + n) % 2 ^ 64) (len - n)) else none)
  | .copyRead sl c a len dev =>
    let n := pieceLen a len (min mrrs 4096)
    (a, n, .copyRead sl c a n dev, if n < len then some (.copyRead sl c ((a + n) % 2 ^ 64) (len - n) (dev + n)) else none)
  | .loadRead a len =>
    let n := pieceLen a len (min mrrs 4096)
    (a, n, .loadRead a n, if n < len then some (.loadRead ((a + n) % 2 ^ 64) (len - n)) else none)
  | j => (0, 0, j, none)

/-- Put what is left of the head of a channel back at its head. -/
def State.setHead (s : State) (ch : Nat) (rest : List DmaJob) (left : Option DmaJob) : State :=
  { s with host := { s.host with chans := s.host.chans.set ch (match left with | some j => j :: rest | none => rest) } }

/-- A write request of the job at the head of a channel. -/
def State.issueWrite (s : State) (ch : Nat) (rest : List DmaJob) (j : DmaJob) : State :=
  match j with
  | .outputWrite sl req a b =>
    let n := pieceLen a b.length s.host.mps
    let left := b.drop n
    let t := (s.setHead ch rest (if left.isEmpty then none else some (.outputWrite sl req ((a + n) % 2 ^ 64) left))).emit (.hostWrite a (b.take n))
    if left.isEmpty then t.outputWritten sl req else t
  | .copyWrite sl c a b =>
    let n := pieceLen a b.length s.host.mps
    let left := b.drop n
    ((s.setHead ch rest (if left.isEmpty then none else some (.copyWrite sl c ((a + n) % 2 ^ 64) left))).emit (.hostWrite a (b.take n))).copyMoved sl c n
  | .recordWrite a b =>
    let n := pieceLen a b.length s.host.mps
    let left := b.drop n
    (s.setHead ch rest (if left.isEmpty then none else some (.recordWrite ((a + n) % 2 ^ 64) left))).emit (.hostWrite a (b.take n))
  | .message v =>
    let e := s.host.msix.getD v []
    ((s.setHead ch rest none).emit (.msix v)).emit (.hostWrite (leNat (slice e 0 8)) (slice e 8 4))
  | _ => s

/-- The channel that has the next turn: the first from `turn` on with a request that can issue (R498). -/
def HostPort.nextChannel (h : HostPort) : Option Nat :=
  ((List.range 18).map fun k => (h.turn + k) % 18).find? fun c =>
    match h.chans.getD c [] with
    | [] => false
    | j :: _ => !j.isRead || h.freeTag.isSome

/-- DMA_REQUEST_ISSUE (R498, R500): one request of the channel whose turn it is. -/
def execDmaRequestIssue (s : State) : Out :=
  if !s.canIssue then .next s.stallDma
  else
    match s.host.nextChannel with
    | none => .next s
    | some c =>
      match s.host.chans.getD c [] with
      | [] => .next s
      | j :: rest =>
        let t := { s with host := { s.host with turn := (c + 1) % 18 } }
        if j.isRead then
          let k := j.split s.host.mrrs
          let tag := s.host.freeTag.getD 0
          .next (({ t.setHead c rest k.2.2.2 with
            host := { (t.setHead c rest k.2.2.2).host with reads := s.host.reads ++ [(tag, k.2.2.1)] } }).emit (.hostRead tag k.1 k.2.1))
        else .next (t.issueWrite c rest j)

/-- Bytes a read in flight asked for. -/
def DmaJob.bytes : DmaJob → Nat
  | .inputRead _ _ _ n | .copyRead _ _ _ n _ | .loadRead _ n => n
  | _ => 0

/-- The data of a read arrives (R353, R363, R381). -/
def State.landRead (s : State) (j : DmaJob) (data : Bytes) : State :=
  match j with
  | .inputRead sl req a _ => s.inputLanded sl req a data
  | .copyRead sl cmd _ _ dev =>
    if (s.sl sl).svc.copies.any fun k => k.1.slot == cmd then
      (s.onSl sl fun x => x.store dev data).copyMoved sl cmd data.length
    else s
  | _ => s

/-- A read in flight ends, if the tag names one. -/
def State.endRead (s : State) (tag : Nat) (f : DmaJob → State → State) : State :=
  match s.host.reads.find? fun r => r.1 == tag with
  | none => s
  | some r => f r.2 { s with host := { s.host with reads := s.host.reads.filter fun k => k.1 != tag } }

/-- HOST_READ_COMPLETION (R499): the completion of a read, whole; `ok` is false for an Unsupported Request, a Completer Abort
or EP. -/
def execHostReadCompletion (tag : Nat) (data : Bytes) (ok : Bool) (s : State) : Out :=
  .next (s.endRead tag fun j t => if ok && data.length == j.bytes then t.landRead j data else t.failRead j)

/-- HOST_READ_TIMEOUT (R499). -/
def execHostReadTimeout (tag : Nat) (s : State) : Out := .next (s.endRead tag fun j t => t.failRead j)

/-! ### Resets (R502) -/

/-- Every request of a slice ends with CANCELLED and leaves with no record; commands and copies are dropped. -/
def State.dropRequests (s : State) (sl : Nat) : State :=
  let t := s.endReqs sl (fun _ => true) s.now s.now .cancelled
  let n := (t.sl sl).svc.reqs.length
  let u := t.onSvc sl fun v => { v with
    pass := { v.pass with gone := v.pass.gone ++ v.reqs.filter fun r => r.frame == v.pass.frame }
    older := v.older.map fun p => { p with gone := p.gone ++ v.reqs.filter fun r => r.frame == p.frame }
    reqs := [], pending := [], copies := [], ledgerEnable := false, ledgerHead := 0, ledgerPhase := true }
  { u with pkg := { u.pkg with requestsDone := u.pkg.requestsDone + n } }

/-- The host port after a reset: its registers and its function are at their reset values; the dictionary's ring settings and
the counters stay. -/
def HostPort.afterReset (h : HostPort) (r0 : HostPort) : HostPort :=
  { r0 with
    linkUp := h.linkUp, width := h.width, speed := h.speed, bar2Size := h.bar2Size
    rings := h.rings.zipIdx.map fun k => { base := k.1.base, entries := k.1.entries, vector := k.2 }
    ring0Partial := h.ring0Partial, ring0Slot := h.ring0Slot, hostResets := h.hostResets + 1
    barAborts := h.barAborts, dmaErrors := h.dmaErrors, dropped := h.dropped }

/-- The BAR0 window of the dictionary at its reset values; a store write of its goes on and answers no door. -/
def Dict.windowReset (d : Dict) : Dict :=
  { d with
    sel := 0x1000, indexReg := 0, busy := false, overrun := false, code := 0, length := 0, data := []
    staging := d.staging.filter fun g => g.door != .bar0
    writing := d.writing.map fun w => if w.door == .bar0 then { w with door := .session 0 } else w }

/-- The effects of a function level reset (Table 20-12). -/
def State.functionReset (s : State) : State :=
  let t := (s.ctxs.map (·.ctx)).foldl State.tearCtx s
  let u := t.eachSlice State.dropRequests
  let v := if u.load.st = 1 ∧ u.load.head then u.setLoad 2 u.load.status else u
  let w := v.onAll fun x => { x with pools := { x.pools with ownerSel := 0 } }
  ({ w with ctxs := [], tears := [], host := w.host.afterReset {}, dict := w.dict.windowReset }).hostReport

/-- FLR (R502). -/
def execFlr (s : State) : Out := .next s.functionReset

/-- PERST_N (R502): a hot reset, a link disable or PERST_N also takes the link down. -/
def execPerstN (k : HostReset) (s : State) : Out :=
  let t := s.functionReset
  match k with
  | .hotReset | .linkDisable | .perst =>
    .next { t with host := { t.host with linkUp := false, width := 0, speed := 0, bar2Size := 36 } }

/-- HOST_LINK_DOWN (R500, R502): the link leaves L0, or Bus Master Enable is cleared. -/
def execHostLinkDown (bme : Bool) (s : State) : Out :=
  let h := if bme then { s.host with bme := false } else { s.host with linkUp := false, width := 0, speed := 0 }
  .next ({ s with host := h } : State).stallDma

/-- HOST_LINK_UP (R488, R500): the link is in L0 at a width and a rate of Table 20-4. -/
def execHostLinkUp (width speed : Nat) (s : State) : Out :=
  if 2 ≤ width ∧ width ≤ 4 ∧ 1 ≤ speed ∧ speed ≤ 6 then
    .next { s with host := { s.host with linkUp := true, width := width, speed := speed } }
  else .next s

/-- CONFIGURATION_REQUEST (R488, R500, R508, R520): answered with Request Retry Status during the self-test. -/
def execConfigurationRequest (x : ConfigReq) (s : State) : Out :=
  if s.dict.deviceState = 0 then .next (s.emit (.cfg true))
  else
    let t : State :=
      match x with
      | .read => s
      | .bar2Size n => if 30 ≤ n ∧ n ≤ 36 then { s with host := { s.host with bar2Size := n } } else s
      | .busMaster on =>
        let u : State := { s with host := { s.host with bme := on } }
        if on then u else u.stallDma
      | .msixControl enable mask =>
        ({ s with host := { s.host with msixEnable := enable, msixMask := mask } } : State).sendPending
      | .payloadSizes mps mrrs =>
        if [128, 256, 512].contains mps && [128, 256, 512, 1024, 2048, 4096].contains mrrs then
          { s with host := { s.host with mps := mps, mrrs := mrrs } }
        else s
    .next (t.emit (.cfg false))

end Sys2Proof.Machine
end

