-- ==== Sys2Proof/Machine/Power.lean ====
section
/-! DEFINITION. Supplies, clocks, reset and heat (chapter 21), power-up and the start of the processors (R400, R412, R413, R421,
R422, R435, R468, R519, R520), and telemetry (R481). -/

namespace Sys2Proof.Machine

/-! ### What a reset leaves (R435, R482, R518) -/

/-- A power record (Table 19-6). Where the rule names the quantity, D0 holds it: 0 slice temperature, 1 slice power, 2 package power,
7 release; of the slice as a whole, 3 marks a trip, which the next boot counts (log 157). -/
def State.powerReport (s : State) (sl kind : Nat) (detail : List Nat) : State := s.report sl (mkReport 0x17 kind 0 0 255 detail)

/-- SP0 and SP1 as the lane maps of a slice assign them (R254). -/
def lanesOf (ports : List Link) : List (Option (Nat × Nat)) :=
  [4, 5].map fun t =>
    ((List.range 32).find? fun k => bits (ports.getD (k / 4) {}).laneMap (4 * (k % 4) + 3) (4 * (k % 4)) == t).map fun k => (k / 4, k % 4)

/-- A slice with its persisted entries, and with its error ring while VAUX holds; everything else is at its reset value. -/
def SliceState.cold (x : SliceState) (vaux : Bool) : SliceState :=
  let ports := x.ports.map fun (l : Link) => ({ disabled := l.disabled, laneMap := l.laneMap, st := if l.disabled then linkDisabled else linkDown } : Link)
  { err := if vaux then { x.err with queued := [] } else {}
    ports := ports
    tiers := { sumpRate := x.tiers.sumpRate }
    svc := { scanDrips := x.svc.scanDrips, scanMax := x.svc.scanMax }
    spares := { rowsSpared := x.spares.rowsSpared, sp := lanesOf ports
                portsOut := sliceMask fun p => (x.ports.getD p {}).disabled }
    life := x.life.map fun l => { enable := l.enable } }

/-- What the on-package store keeps of the dictionary's own entries, and the level of HOLDUP_OK. -/
def Dict.cold (d : Dict) : Dict :=
  { ownerLock := d.ownerLock, holdup := d.holdup, storeWear := d.storeWear, storeWrites := d.storeWrites, store := d.store, restore := d.restore
    credOperator := d.credOperator, credOwner := d.credOwner, credSecurity := d.credSecurity
    addrMode := d.addrMode, addr := d.addr, prefix_ := d.prefix_, gateway := d.gateway, udpPort := d.udpPort, idle := d.idle
    scrubInterval := d.scrubInterval, retrainInterval := d.retrainInterval, legacyDrop := d.legacyDrop
    unitMapChanges := d.unitMapChanges, telemPeriod := d.telemPeriod, tripCount := d.tripCount
    life := d.life.map fun l => { enable := l.enable } }

/-- The persisted fabric entries. -/
def Package.cold (p : Package) : Package :=
  { nodeId := p.nodeId, congestionMode := p.congestionMode, routeDrain := p.routeDrain, tableA := p.tableA, tableB := p.tableB
    e2e := p.e2e, retryLimit := p.retryLimit, markBytes := p.markBytes, winInit := p.winInit, winMax := p.winMax
    lossHold := p.lossHold }

/-- Everything but the persisted entries, and the always-on contents while VAUX holds, is at its reset value (R518). -/
def State.cold (s : State) (vaux : Bool) : State :=
  { State.reset with
    slices := s.slices.map fun x => x.cold vaux
    load := { upstreamTimeout := s.load.upstreamTimeout, window := s.load.window }
    still := { on := s.still.on }
    sec := { deviceCert := s.sec.deviceCert, caCert := s.sec.caCert, revoked := s.sec.revoked, linkEncrypt := s.sec.linkEncrypt
             rekeyFrames := s.sec.rekeyFrames, bootCount := s.sec.bootCount, helper := s.sec.helper
             identityKey := if vaux then s.sec.identityKey else [], memoryKey := if vaux then s.sec.memoryKey else [] }
    dict := s.dict.cold
    fw := { slots := s.fw.slots, valid := s.fw.valid, boot := s.fw.boot, counter := s.fw.counter, bootFails := s.fw.bootFails
            settle := s.fw.settle }
    time := { dripBeats := s.time.dripBeats, tiEnable := s.time.tiEnable }
    pkg := s.pkg.cold
    draws := s.draws, free := s.free, out := s.out, pending := s.pending }

/-- A slice under SYS_RST_N: as after power-up, but for the sump window, the counters that only a power-up resets, the unit map
and the HBM domains (R235, R473, R514, R518, R533). -/
def SliceState.warm (x : SliceState) : SliceState :=
  let y := x.cold true
  { y with
    mem := x.mem.filter fun c => decide (sumpBase ≤ c.1)
    poison := x.poison.filter fun w => decide (sumpBase ≤ w)
    ports := y.ports.zipIdx.map fun (k : Link × Nat) =>
      let l := x.ports.getD k.2 {}
      { k.1 with heldOut := l.heldOut, fecCorrected := l.fecCorrected, fecUncorrectable := l.fecUncorrectable,
                 replays := l.replays, downEvents := l.downEvents }
    ilinks := x.ilinks.map fun (l : Link) =>
      ({ fecCorrected := l.fecCorrected, fecUncorrectable := l.fecUncorrectable, replays := l.replays, downEvents := l.downEvents } : Link)
    fabric := { retransmits := x.fabric.retransmits, giveups := x.fabric.giveups }
    tiers := { y.tiers with scrubCorrected := x.tiers.scrubCorrected, scrubUncorrectable := x.tiers.scrubUncorrectable
                            scrubPasses := x.tiers.scrubPasses, derivedRate := x.tiers.derivedRate }
    spares := { x.spares with failed := x.spares.failed.filter (·.kind != 0), margins := [], migrating := [] }
    power := { heldInReset := x.power.heldInReset, throttleSteps := x.power.throttleSteps
               domains := field (bits x.power.domains 16 13) 4 13 } }

/-- SYS_RST_N acts (R518): the slices, the management controller and the host port are reset and the job is gone; the security
controller, the keys and sessions of the lantern port, the hot set and what only a power-up resets stay (R411). -/
def State.warm (s : State) : State :=
  let t := s.cold true
  { t with
    slices := s.slices.map SliceState.warm
    hot := s.hot.map fun h => if h.st == 3 then { h with st := 2 } else if h.st == 1 then {} else h
    sec := { s.sec with signQueue := [] }
    fw := { s.fw with switching := false, returning := none }
    lantern := { s.lantern with authFailures := 0 }
    host := { hostResets := s.host.hostResets, barAborts := s.host.barAborts, dmaErrors := s.host.dmaErrors, dropped := s.host.dropped }
    time := { t.time with origin := s.time.origin, hasOrigin := s.time.hasOrigin }
    pkg := { t.pkg with pwrOk := s.pkg.pwrOk, sysRst := s.pkg.sysRst, thermtrip := s.pkg.thermtrip
                        pllLocked := s.pkg.pllLocked, dividersRun := s.pkg.dividersRun, tap := s.pkg.tap } }

/-- An entry whose persisted record DEFAULTS_RESTORE leaves alone (R435). -/
def keptAtRestore (index sub : Nat) : Bool :=
  index / 4096 == 1 || index / 4096 == 8 || index == 0x2020 || index == 0x2000 || (index == 0x7000 && sub == 2) ||
  (index == 0x7010 && sub == 2) || index == 0x9000

/-- The entries that DEFAULTS_RESTORE marked take their defaults (R435). -/
def State.restored (s : State) : State :=
  if !s.dict.restore then s
  else
    { s with
      slices := s.slices.map fun (x : SliceState) =>
        { x with
          ports := x.ports.map fun _ => ({} : Link), tiers := { x.tiers with sumpRate := 224 }
          svc := { x.svc with scanDrips := 1, scanMax := 64 }, spares := { rowsSpared := x.spares.rowsSpared }
          life := List.replicate 3 { enable := true } }
      load := {}, still := {}, pkg := {}, time := {}
      fw := { s.fw with settle := 1024 }
      dict := { ownerLock := s.dict.ownerLock, holdup := s.dict.holdup, storeWear := s.dict.storeWear, storeWrites := s.dict.storeWrites
                store := s.dict.store.filter fun r => keptAtRestore r.index r.sub
                credOperator := s.dict.credOperator, credOwner := s.dict.credOwner, credSecurity := s.dict.credSecurity
                unitMapChanges := s.dict.unitMapChanges, tripCount := s.dict.tripCount } }

/-- Replace the records of the store. -/
def State.withStore (s : State) (l : List StoreRecord) : State := { s with dict := { s.dict with store := l } }

/-- The value an entry takes where neither of its records is valid: its default. -/
def defaultValue (index sub c : Nat) : Bytes :=
  if between 0x2200 index 0x2206 then leBytes 1 (b2n (State.reset.lifeOf (index - 0x2200) c).enable)
  else State.reset.rawEntry .owner index sub c

/-- A persisted entry is loaded with a value, before anything runs. -/
def State.loadEntry (s : State) (index sub c : Nat) (v : Bytes) : State :=
  let n := leNat v
  match index, sub with
  | 0x2020, 1 => { s with dict := { s.dict with tripCount := n } }
  | 0x7000, 2 => { s with dict := { s.dict with unitMapChanges := n } }
  | 0x7010, 2 => s.onSl c fun x => { x with spares := { x.spares with rowsSpared := n } }
  | 0x8000, 9 => { s with sec := { s.sec with bootCount := n } }
  | 0x8040, 1 => { s with dict := { s.dict with credOperator := v } }
  | 0x8040, 2 => { s with dict := { s.dict with credOwner := v } }
  | 0x8040, 3 => { s with dict := { s.dict with credSecurity := v } }
  | 0x9000, 5 => { s with fw := { s.fw with counter := n } }
  | 0x9000, 6 => { s with fw := { s.fw with bootFails := n } }
  | 0x4011, _ => s.onLink c (.port (Fin.ofNat 8 (sub - 1))) fun k => { k with disabled := n == 1 }
  | 0x4012, _ => s.onLink c (.port (Fin.ofNat 8 (sub - 1))) fun k => { k with laneMap := n }
  | _, _ => if between 0x2200 index 0x2206 then s.onLife (index - 0x2200) c fun l => { l with enable := n == 1 }
    else s.applyEntry index sub c v

/-- Whether a record that fails is one of a persisted entry. -/
def persistedRecord (r : LostRecord) : Bool :=
  entries.any fun e => e.index == r.index && e.sub == r.sub && e.persist && (e.chan || r.channel == 0) && decide (r.channel < 8)

/-- The records of the store that fail at a power-up (R435): the other record of the entry counts, and without a valid one the
entry takes its default. -/
def State.loadStore (s : State) (lost : List LostRecord) : State :=
  (lost.filter persistedRecord).foldl (fun (t : State) r =>
    let same (k : StoreRecord) : Bool := k.index == r.index && k.sub == r.sub && k.channel == r.channel
    let k := t.dict.store.find? same
    let old := if r.both then none else k.bind (·.older)
    let v := old.getD (defaultValue r.index r.sub r.channel)
    let store := (match k, old with
        | some k, some o => [({ k with count := k.count - 1, value := o, older := none } : StoreRecord).sealed_]
        | _, _ => []) ++
      t.dict.store.filter fun k => !same k
    -- an entry never written holds its value as shipped in both records: one of them is enough
    if k.isNone && !r.both then t else (t.loadEntry r.index r.sub r.channel v).withStore store) s

/-- The entries that no valid record holds are reported (R435). -/
def State.reportLost (s : State) (lost : List LostRecord) : State :=
  (lost.filter fun r => persistedRecord r && r.both).foldl (fun (t : State) _ => t.storeReport) s

/-! ### Identity and boot (R412, R413, R421, R468) -/

/-- IDENTITY_STATE (Table 16-1). -/
def State.identityOf (s : State) (trngOk : Bool) : Nat :=
  let pub := Config.ed448Public s.identitySeed
  if Config.certKey s.sec.deviceCert != pub || !Config.certSigned (Config.certKey s.sec.caCert) s.sec.deviceCert ||
     !Config.certSigned Config.rootKey s.sec.caCert then 2
  else if !trngOk then 3 else 1

/-- The device counts an event of its own in a persisted entry (R434). -/
def State.countBoot (s : State) : State :=
  s.devicePersist 0x8000 9 0 (leBytes 8 (s.sec.bootCount + 1)) fun v => { v with sec := { v.sec with bootCount := v.sec.bootCount + 1 } }

def State.countBootFail (s : State) : State :=
  let n := s.fw.bootFails + 1
  (s.devicePersist 0x9000 6 0 (leBytes 4 n) fun v => { v with fw := { v.fw with bootFails := n } }).report 0 (mkReport 0x14 11 0)

def State.countTrips (s : State) (n : Nat) : State :=
  if n = 0 then s
  else
    let m := s.dict.tripCount + n
    s.devicePersist 0x2020 1 0 (leBytes 4 m) fun v => { v with dict := { v.dict with tripCount := m } }

/-- A boot raises FW_ROLLBACK_COUNTER to the level of its set, and never lowers it (R435, R468). -/
def State.raiseCounter (s : State) (n : Nat) : State :=
  if n ≤ s.fw.counter then s
  else s.devicePersist 0x9000 5 0 (leBytes 4 n) fun v => { v with fw := { v.fw with counter := n } }

/-- Step 3 of Table 21-5: the measurement registers are 0, the identity is judged and the memory key is drawn. -/
def State.bootIdentity (s : State) (trngOk : Bool) : State :=
  let id := s.identityOf trngOk
  let k := if id = 1 then s.drawTrng 32 else ([], s)
  let t := k.2
  { t with sec :=
      { deviceCert := s.sec.deviceCert, caCert := s.sec.caCert, revoked := s.sec.revoked, linkEncrypt := s.sec.linkEncrypt
        rekeyFrames := s.sec.rekeyFrames, deviceCertUsed := s.sec.deviceCert, caCertUsed := s.sec.caCert
        helper := s.sec.helper, bootCount := s.sec.bootCount, identity := id, identityKey := Config.ed448Public s.identitySeed
        memoryKey := k.1, trngFailing := !trngOk } }

/-- Whether a slot passes the check of R468. -/
def Firmware.bootable (f : Firmware) (k : Nat) : Bool :=
  f.valid.getD k false && digestsOk (f.slots.getD k []) && decide (f.counter ≤ setRollback (f.slots.getD k []))

/-- The images of a set are measured into MR0 to MR2 (Table 16-4). -/
def State.measureSet (s : State) (k : Nat) : State :=
  let img := s.fw.slots.getD k []
  let d (kind : Nat) : Bytes := setDigest img (setEntry img kind)
  let t := ((s.extendMR 0 (slice Config.bootCode 0 64)).extendMR 0 (d 5)).extendMR 1 (d 4)
  (List.range 8).foldl (fun (u : State) _ => (((u.extendMR 2 (d 3)).extendMR 2 (d 2)).extendMR 2 (d 1)).extendMR 2 (d 0)) t

/-- The processors run the set of a slot, and its images are those last recorded (R467, R519). -/
def Firmware.started (f : Firmware) (k : Nat) : Firmware :=
  let img := f.slots.getD k []
  { f with
    running := k, procs := List.replicate 34 k
    measured := f.measured.set k ((List.range 34).map fun j => setDigest img (setEntry img (stepKind (j + 1)))) }

/-- One slot is tried (R468): whether its set has started. -/
def State.tryBoot (s : State) (k : Nat) (starts : Bool) : Bool × State :=
  if s.fw.bootable k then
    let t := s.measureSet k
    if starts then (true, ({ t with fw := t.fw.started k } : State).raiseCounter (setRollback (t.fw.slots.getD k [])))
    else (false, t.countBootFail)
  else (false, s.countBootFail)

/-- Step 4 of Table 21-5: the boot slot, else the other one. -/
def State.bootSet (s : State) (starts : List Bool) : Bool × State :=
  let a := s.tryBoot s.fw.boot (starts.getD s.fw.boot true)
  if a.1 then a else a.2.tryBoot (1 - s.fw.boot) (starts.getD (1 - s.fw.boot) true)

/-- The persisted value of an entry: of an ENABLE entry the one in the store, not what its function shows (R445, R446). -/
def State.persistedValue (s : State) (e : Entry) (c : Nat) : Bytes :=
  if e.isEnable then leBytes 1 (b2n (s.lifeOf (e.index - 0x2200) c).enable) else s.rawEntry .owner e.index e.sub c

/-- The persisted entries, in index order, as MR3 hashes them at boot (Table 16-4). -/
def State.persistedDigest (s : State) : Bytes :=
  digest64 ((entries.filter fun e => e.persist).map fun e =>
    ((if e.chan then List.range 8 else [0]).map fun c =>
      leBytes 2 e.index ++ leBytes 1 e.sub ++ leBytes 1 c ++ s.persistedValue e c).flatten).flatten

/-! ### Start-up (R400, R520) -/

/-- Step 5 of Table 21-5: the slices that pass their self-test are present; their HBM stacks are on (R3, R400, R515). -/
def State.selfTest (s : State) (b : BootInputs) : State :=
  s.eachSlice fun t i =>
    let ok := b.selfTest.testBit i && decide (b.alignFails.getD i 0 < 3) && !(t.sl i).power.heldInReset
    t.onSl i fun x => { x with
      present := ok, power := { x.power with domains := if ok then 0xF * 2 ^ 13 else 0, aclkDiv := 8 } }

/-- Steps 5 to 7: the self-test, DEVICE_STATE, and the lifecycle functions in ascending f (R445). -/
def State.bringUp (s : State) (b : BootInputs) : State :=
  let t := s.selfTest b
  let on := t.slices.any fun x => x.present
  let u := { t with dict := { t.dict with deviceState := if on then 1 else 4 } }
  (List.range 7).foldl (fun (v : State) f =>
    (if f < 4 then [0] else (List.range 8).filter fun c => (v.sl c).present).foldl
      (fun (w : State) c => if (w.lifeOf f c).enable then w.startLife f c else w) v) u

/-- Trip records in the rings (R524). -/
def State.tripRecords (s : State) : Nat :=
  (s.slices.map fun x => (x.err.ring.filter fun k => k.2.r.cls == 0x17 && k.2.r.unit.kind == 0 && k.2.r.detail.head? == some 3).length).sum

/-- POWER_UP (R513, R520): PWR_OK rises, and the device runs the steps of Table 21-5. -/
def execPowerUp (b : BootInputs) (s : State) : Out :=
  if s.pkg.pwrOk then .next s
  else
    let c := (((s.loadStore b.lost).cold true).restored).reportLost b.lost
    let t := { c with
      pkg := { c.pkg with pwrOk := true, sysRst := false }
      sec := { c.sec with helper := b.helper.getD c.sec.helper } }
    let failed (u : State) : State := { u with dict := { u.dict with deviceState := 4 } }
    if !b.railsOk then .next ((failed t).powerReport 0 13 [])
    else if !b.pllLocked then .next ((failed t).powerReport 0 13 [])
    else
      let t1 := { t with
        pkg := { t.pkg with pllLocked := true, dividersRun := true } }
      let k := (((t1.bootIdentity b.trngOk).countBoot).countTrips t1.tripRecords).bootSet b.setStarts
      if !k.1 then .next (failed k.2)
      else
        let m := k.2.extendMR 3 k.2.persistedDigest
        let u := m.selfTest b
        .next ((u.extendMR 6 u.unitMapDigest).bringUp b)

/-- A persisted write under way is completed by the board's reserve (R513). -/
def State.finishWrite (s : State) (vaux : Bool) : State :=
  match s.dict.writing with
  | some w =>
    if s.dict.holdup && vaux && w.index != 0x9010 then
      ({ s with dict := { s.dict with writing := none } }.applyEntry w.index w.sub w.channel w.value).storeRecord w.index w.sub w.channel w.value
    else s
  | none => s

/-- PWR_OK falls (R513, R518). -/
def State.powerDown (s : State) (vaux : Bool) : State := (s.finishWrite vaux).cold vaux

/-- PWR_OK_FALL (R518). -/
def execPwrOkFall (vauxHolds : Bool) (s : State) : Out := .next (s.powerDown vauxHolds)

/-- A slice fails as a unit and is held in reset (R15, R513): its stages end, its requests end with FAULT at the next drip and
its links go DOWN at both ends. -/
def State.failSlice (s : State) (sl : Nat) : State :=
  let live := (s.sl sl).runs.filter fun r => r.st == .launched
  let t := live.foldl (fun (v : State) r => v.faultStage sl r .fault) s
  let t1 := t.endNext sl (fun _ => true) .fault
  let t2 := (List.range 4).foldl (fun (v : State) e => v.onSl sl fun x => x.stopEngine e) t1
  let t3 := t2.onSl sl fun x =>
    { live.foldl (fun (y : SliceState) r => y.endRun r .withdrawn) x with
      quads := x.quads.map fun q => { q with st := .idle, loops := [] }
      power := { x.power with heldInReset := true } }
  let t4 := t3.onSpares sl fun p => p.withdraw { kind := 0, index := 0 }
  let t5 := (List.range 8).foldl (fun (v : State) p =>
    if (v.link sl (.port (Fin.ofNat 8 p))).st = linkDisabled then v else v.goDown sl (.port (Fin.ofNat 8 p)) linkDown 0) t4
  (List.range 8).foldl (fun (v : State) k =>
    if k = sl then v
    else (v.goDown sl (.link (Fin.ofNat 8 k)) linkDown 0).goDown k (.link (Fin.ofNat 8 sl)) linkDown 0) t5

/-- RAIL_FAULT (R513): a slice's own rail fails that slice; a shared rail makes the board lower PWR_OK. -/
def execRailFault (sl : Option SliceId) (s : State) : Out :=
  match sl with
  | some i => if (s.sl i).power.heldInReset then .next s else .next ((s.failSlice i).powerReport i 0 [])
  | none => .next (s.powerDown true)

/-! ### SYS_RST_N and the root PLL (R517 to R519) -/

/-- Every image of the running slot matches its digest and the digest last recorded for it (R519). -/
def Firmware.imagesOk (f : Firmware) : Bool :=
  let img := f.slots.getD f.running []
  digestsOk img && (List.range 34).all fun j =>
    (f.measured.getD f.running []).getD j [] == setDigest img (setEntry img (stepKind (j + 1)))

/-- The release of the reset (R519): the processors restart on the running slot's set. -/
def State.restart (s : State) (b : BootInputs) : State :=
  let f := s.fw
  let live := f.rollout == 1 || f.rollout == 2 || f.rollout == 3
  let t := { s with
    pkg := { s.pkg with dividersRun := true }
    fw := { f with procs := List.replicate 34 f.running, rollout := if live then 4 else f.rollout, hold := 0, switching := false
                   committing := false, collHold := 0 } }
  let u := if live then t.cause 2 else t
  if f.imagesOk then u.bringUp b
  else { u with dict := { u.dict with deviceState := 4 } }

/-- SYS_RST_ASSERT (R518). -/
def execSysRstAssert (s : State) : Out :=
  if !s.pkg.pwrOk || s.pkg.sysRst then .next s
  else .next ({ s with pkg := { s.pkg with sysRst := true } } : State).warm

/-- SYS_RST_RELEASE (R519). -/
def execSysRstRelease (b : BootInputs) (s : State) : Out :=
  if !s.pkg.pwrOk || !s.pkg.sysRst then .next s
  else
    let t := { s with pkg := { s.pkg with sysRst := false, tap := if s.pkg.tap = .idcode then .idcode else .bypass } }
    .next (if s.pkg.pllLocked then t.restart b else t)

/-- PLL_LOCK_LOSS (R517): the dividers stop, and the device acts as under SYS_RST_N. -/
def execPllLockLoss (s : State) : Out :=
  if !s.pkg.pwrOk || !s.pkg.pllLocked then .next s
  else .next (({ s with pkg := { s.pkg with pllLocked := false, dividersRun := false } } : State).warm.powerReport 0 13 [])

/-- PLL_RELOCK (R517): the device releases itself, unless SYS_RST_N is held; one whose power-up failed stays in reset (R513). -/
def execPllRelock (b : BootInputs) (s : State) : Out :=
  if !s.pkg.pwrOk || s.pkg.pllLocked then .next s
  else
    let t := { s with pkg := { s.pkg with pllLocked := true } }
    .next (if s.pkg.sysRst ∨ s.dict.deviceState = 4 then t else t.restart b)

/-! ### Heat and power (R511, R521 to R524) -/

/-- VID_STEP (R511): the code of a slice's VCORE changes by one; before the self-test ends it stays. -/
def execVidStep (sl : SliceId) (up : Bool) (s : State) : Out :=
  let c := (s.sl sl).power.vid
  if s.dict.deviceState = 0 ∨ (up = true ∧ 15 ≤ c) ∨ (up = false ∧ c = 0) then .next s
  else
    let n := if up then c + 1 else c - 1
    .next ((s.onSl sl fun x => { x with power := { x.power with vid := n } }).emit (.vid sl n))

/-- Every transceiver goes to electrical idle (R524). -/
def State.idleAll (s : State) : State :=
  let t := s.eachSlice fun u i =>
    let v := (List.range 8).foldl (fun (w : State) p =>
      if (w.link i (.port (Fin.ofNat 8 p))).st = linkDisabled then w else w.goDown i (.port (Fin.ofNat 8 p)) linkDown 0) u
    let v1 := (List.range 8).foldl (fun (w : State) k => if k = i then w else w.goDown i (.link (Fin.ofNat 8 k)) linkDown 0) v
    if (v1.sl i).sump.link = 3 then v1.setSumpLink i 0 else v1
  { t with host := { t.host with linkUp := false, width := 0, speed := 0 } }

/-- SENSOR_READ (R521, R524): a slice's highest junction temperature; the trip level stops the device, and the record of it is
taken at once, as the reports of the slice then are. -/
def execSensorRead (sl : SliceId) (temp : Int) (s : State) : Out :=
  let t := s.onSl sl fun x => { x with power := { x.power with temp := temp, tempHot := x.power.tempHot || decide (105 ≤ temp) } }
  if 115 ≤ temp ∧ s.pkg.thermtrip = false then
    let u := t.idleAll
    let v := ({ u with pkg := { u.pkg with thermtrip := true, dividersRun := false } } : State).powerReport sl 0 [3]
    .next ((v.onErr sl fun e => e.acceptAll v.now).cause 7)
  else .next t

/-- The lowest-numbered quantity of a slice at or above its throttle level in a window (Table 21-6). -/
def hotQuantity (p : Power) (package : Nat) : Option Nat :=
  if p.tempHot then some 0 else if 650 ≤ p.watts then some 1 else if 5500 ≤ package then some 2 else none

/-- The next step of the ACLK divider, down and up (R522). -/
def slower (d : Nat) : Nat := if d = 8 then 12 else if d = 12 then 16 else 24
def faster (d : Nat) : Nat := if d = 24 then 16 else if d = 16 then 12 else 8

/-- The divider of a slice changes by a step (R522). -/
def State.divide (s : State) (sl d q : Nat) : State :=
  ((s.onSl sl fun x => { x with power := { x.power with aclkDiv := d, throttleSteps := x.power.throttleSteps + 1 } }).powerReport
    sl 0 [q]).cause 7

/-- The requests with a live stage on a slice end with THROTTLE at the next drip, and later launches are withheld (R523). -/
def State.withhold (s : State) (sl : Nat) : State :=
  let live := (s.sl sl).runs.filter fun r => r.st == .launched
  let t := live.foldl (fun (v : State) r => v.endTied sl r v.now (v.now.plus 1) .throttle) s
  ((t.onSl sl fun x => { x with power := { x.power with withheld := true } }).powerReport sl 0 []).cause 7

/-- A window of one slice is judged. -/
def State.judgeWindow (s : State) (package sl : Nat) : State :=
  let p := (s.sl sl).power
  let t : State :=
    match hotQuantity p package with
    | none => s
    | some q =>
      if s.still.on then s.withhold sl
      else if p.aclkDiv < 24 then s.divide sl (slower p.aclkDiv) q
      else s
  t.onSl sl fun x => { x with power := { x.power with tempHot := decide (105 ≤ x.power.temp) } }

/-- POWER_WINDOW (R427, R521 to R523): a 1 ms window closes with the power of each slice and of the shared domains. -/
def execPowerWindow (watts : List Nat) (shared : Nat) (s : State) : Out :=
  let package := watts.sum + shared
  let w := s.pkg.windows ++ [package]
  let full := decide (10 ≤ w.length)
  let t := { s with
    slices := s.slices.zipIdx.map fun (k : SliceState × Nat) => { k.1 with power := { k.1.power with watts := watts.getD k.2 0 } }
    pkg := { s.pkg with
      powerFine := package, powerW := if full then w.sum / w.length else s.pkg.powerW, windows := if full then [] else w } }
  let u := if 300 < shared then t.powerReport 0 13 [] else t
  .next (u.eachSlice fun v i => v.judgeWindow package i)

/-- THROTTLE_RELEASE (R522, R523): every quantity of a slice has stayed below its release level for 10 ms. -/
def execThrottleRelease (sl : SliceId) (s : State) : Out :=
  let p := (s.sl sl).power
  if 100 ≤ p.temp ∨ p.tempHot = true ∨ 617 ≤ p.watts ∨ 5225 ≤ s.pkg.powerFine then .next s
  else if p.withheld then .next (s.onSl sl fun x => { x with power := { x.power with withheld := false } })
  else if !s.still.on && decide (8 < p.aclkDiv) then .next (s.divide sl (faster p.aclkDiv) 7)
  else .next s

/-! ### Board signals (R526, R528, R529) and telemetry (R481) -/

/-- HOLDUP_OK_CHANGE (R526): HOLDUP_STATE mirrors the filtered input. -/
def execHoldupOkChange (level : Bool) (s : State) : Out := .next { s with dict := { s.dict with holdup := level } }

/-- I3C_POLL (R528): while the SENSORS function is ON, the reading of a target is kept. -/
def execI3cPoll (target : Fin 16) (reading : Nat) (s : State) : Out :=
  if (s.lifeOf 2 0).st = 2 then
    .next { s with pkg := { s.pkg with i3c := (s.pkg.i3c.filter fun k => k.1 != target.val) ++ [(target.val, reading)] } }
  else .next s

/-- I3C_IBI (R528): an in-band interrupt is recorded. -/
def execI3cIbi (target : Fin 16) (data : Nat) (s : State) : Out :=
  .next (if (s.lifeOf 2 0).st = 2 then s.powerReport 0 13 [target.val, data] else s)

/-- IDCODE: STEPPING in bits [31:28], then 0x0800 and 0x5CF (R529). -/
def idcode : Nat := field Config.stepping 4 28 + field 0x0800 16 12 + 0x5CF

/-- TAP_INSTRUCTION (R529): the boundary tests are decoded as BYPASS while SYS_RST_N is high. -/
def execTapInstruction (x : TapInstr) (s : State) : Out :=
  let y : TapInstr := match x with
    | .bypass => .bypass
    | .idcode => .idcode
    | _ => if s.pkg.sysRst then x else .bypass
  let t := { s with pkg := { s.pkg with tap := y } }
  .next (if y = .idcode then t.emit (.idcode idcode) else t)

/-- A telemetry set (R481). -/
def State.telemetrySet (s : State) : Bytes :=
  leBytes 8 s.now.toNat ++ ((List.range 8).map fun i => BitVec.ofInt 8 (s.sl i).power.temp) ++
  ((List.range 8).map fun i => leBytes 2 (650 + 10 * (s.sl i).power.vid)).flatten

/-- TELEMETRY_SAMPLE (R481): while the TELEMETRY function is ON, a set is taken; the last 64 are kept. -/
def execTelemetrySample (s : State) : Out :=
  if (s.lifeOf 3 0).st = 2 then
    let l := s.dict.telem ++ [s.telemetrySet]
    .next { s with dict := { s.dict with telem := l.drop (l.length - 64) } }
  else .next s

end Sys2Proof.Machine
end

