-- ==== Sys2Proof/Machine/Stages.lean ====
section
/-! DEFINITION. The launch and the completion of scheduled stages (R28, R31 to R34, R54, R89, R100, R125, R167). A stage of a
kind that has a command of its own acts through it; STAGE_LAUNCH makes it launched. -/

namespace Sys2Proof.Machine

/-- A SELECT phase launches (R54, R67): the first one of its layer takes the row map, and after the last one of its pass a lost
row disturbs the pass no more (R403). -/
def State.launchSelect (s : State) (sl : Nat) (u : Run) (l : Nat) : State :=
  let others := (s.sl sl).runs.filter fun v => v.frame == u.frame && v.entry.f.role == .select && v.idx != u.idx
  let first := others.all fun v => v.entry.f.layer != some l || v.st == .waiting
  let last := others.all fun v => v.st != .waiting
  let t := if first then s.beginLayer sl l u.frame (((s.sl sl).selectTag u.frame l).getD 0) else s
  if last then
    t.onSvc sl fun v => v.onPass u.frame fun p => { p with selectsDone := true }
  else t

/-- The slots of a pool that a segment samples with rows for them have been used at its launch drip, if they were not STAGED later
(R219). -/
def SliceState.useSlots (x : SliceState) (u : Run) (launch : Drip) : SliceState :=
  match u.entry.f.layer with
  | none => x
  | some l =>
    x.onRes (fun e =>
      e.pool && e.layer == l && (e.state == 3 || e.state == 4) &&
      (u.entry.f.slots.contains { quad := e.quad, slot := e.slot }) &&
      decide (0 < bits (x.loadNat (shapeAddr x l + 64 + 8 * (64 * e.quad + e.slot)) 8) 19 12)) fun e => { e with lastUse := laterOf e.lastUse launch }

/-- A stage that may launch launches (R28); kinds with a command of their own act through it. -/
def State.launchStage (s : State) (sl : Nat) (u : Run) : State :=
  let t := s.markLaunched sl u
  let act : State := t.onSl sl fun x => x.setRun u fun v => { v with begun := true }
  match u.entry.kind with
  | .route =>
    let v := match u.entry.f.role, u.entry.f.layer, u.entry.unit with
      | .select, some l, _ => act.launchSelect sl u l
      | .grant, some l, .engine e => act.demands sl e.val l u
      | _, _, _ => act
    v.onSl sl fun x => x.startPhase u u.launchDrip
  | .quad =>
    match u.entry.unit with
    | .quad q => act.onSl sl fun x => (x.useSlots u u.launchDrip).startSegment q u u.launchDrip
    | _ => act
  | .inject => act.injectAll sl u u.entry.f.injection
  | .receive => act
  | _ => t

/-- STAGE_LAUNCH (R28, R33, R34, R49): a stage whose inputs are absent is held, or in still-water mode has missed. The command
says which claims meet in a cycle and which stage loses: the one that launches, or one that runs already. Of a stage that has
launched it says the claims that meet later in its run. -/
def execStageLaunch (sl : SliceId) (i : Nat) (hits : List Collision) (s : State) : Out :=
  match (s.sl sl).waitingRun i with
  | none => match (s.sl sl).launchedRun i with
    | none => .next s
    | some u => .next (hits.foldl (fun t c => t.collide sl u c) s)
  | some u => .next (if s.launchable sl u then hits.foldl (fun t c => t.collide sl u c) (s.launchStage sl u) else s.noteLate sl u)

/-- Nothing of an injection waits for a congestion window (R283). -/
def SliceState.injected (x : SliceState) (u : Run) : Bool := x.fabric.windowed.all fun w => w.issuer != .inject u.idx u.frame

/-- STAGE_COMPLETE (R31): an injection whose messages have left, or a receive, completes; every other kind completes with the
event that ends its work. -/
def execStageComplete (sl : SliceId) (i : Nat) (s : State) : Out :=
  match (s.sl sl).launchedRun i with
  | none => .next s
  | some u =>
    match u.entry.kind with
    | .inject => .next (if (s.sl sl).injected u then s.onSl sl fun x => x.completeRun u else s)
    | .receive => .next (s.onSl sl fun x => x.completeRun u)
    | _ => .next s

end Sys2Proof.Machine
end

