-- ==== Sys2Proof/Machine/Boundary.lean ====
section
/-! DEFINITION. The drip boundary (R24, R29, R35): time advances by a drip, presence is taken, the deadline monitor acts, and a
boundary that starts a frame applies what waits for one. -/

namespace Sys2Proof.Machine

/-! ### Time and presence (R24, R32, R40, R527) -/

/-- Units of 1/256 ns in a second. -/
def secondUnits : Nat := 256000000000

/-- System time moves to the next boundary, a trim removes at most 50 ppm of it from the offset (R40), and TIME_OUT_PPS rises
where a whole second passes (R527). -/
def State.tick (s : State) : State :=
  let p := s.time.dripBeats * beatUnits
  let next := ((s.time.now : Int) + p - Int.emod ((s.time.now : Int) - s.time.origin) p).toNat
  let trim : Int := (max 1 (p / 20000) : Nat)
  let left : Int := if s.time.slewing < 0 then min 0 (s.time.slewing + trim) else max 0 (s.time.slewing - trim)
  let t := { s with perf := s.perfSnapshot, time := { s.time with now := next, drip := s.time.drip.plus 1, slewing := left } }
  if (s.lifeOf 1 0).st = 2 ∧ s.time.now / secondUnits < next / secondUnits then t.emit (.timeOut true) else t

/-- The flags owed to this boundary are cleared, a slice takes those that stand, and what waits for this drip goes on (R32,
R101, R172, R534). -/
def SliceState.takeDrip (x : SliceState) (now : Drip) : SliceState :=
  let wakeT (t : Thread) : Thread :=
    match t.st with
    | .waitDrip d => if Drip.later d now then t else { t with st := .ready }
    | _ => t
  let wakeQ (q : Quad) : Quad :=
    match q.st with
    | .waitDrip d => if Drip.later d now then q else { q with st := .running }
    | _ => q
  let y := x.clearDue
  ({ y with
     flagsAt := y.flags
     engines := x.engines.map fun (g : Engine) => { g with threads := g.threads.map wakeT }
     quads := x.quads.map wakeQ } : SliceState).settleRows now

/-! ### The deadline monitor (R33 to R36) -/

/-- A stage has missed: its due drip is past and it has not completed, its latest launch drip is past and it has not launched,
or in still-water mode its launch drip is past and it has not launched, or it has waited where the mode allows no wait (R34, R35,
R59, R106, R172). -/
def Run.missed (u : Run) (still : Bool) (now : Drip) : Bool :=
  match u.st with
  | .launched => Drip.later now u.dueDrip || u.lateInput
  | .waiting => Drip.later now u.latestDrip || (still && Drip.later now u.launchDrip)
  | _ => false

/-- The link of an exchange stage is not up, or a slice it serves is marked lost (Table 02-4). -/
def SliceState.pathLost (x : SliceState) (u : Run) : Bool :=
  (match u.entry.unit with
   | .port p => (x.ports.getD p {}).st != linkUp
   | .link k => (x.ilinks.getD k {}).st != linkUp
   | _ => false) ||
  (x.exch.sections.any fun c => c.isReturn == u.entry.f.isReturn && some c.layer == u.entry.f.layer && !c.complete &&
    x.fabric.lost.contains c.peer) ||
  (x.exch.injections.any fun m => m.injection == u.entry.f.injection && x.fabric.lost.contains m.dst)

/-- A slice of the job cannot be reached: its internal link is not up, or its node has no eligible port. -/
def State.unreachable (s : State) (sl : Nat) (p : Place) : Bool :=
  if p.node = s.pkg.nodeId then p.slice != sl && !s.innerUp sl p.slice
  else (s.eligible p.node s.pkg.routeActive).isEmpty

/-- GRANT misses (R75): every request with a valid row in the layer ends, as for an exchange receive. -/
def State.missGrant (s : State) (sl : Nat) (u : Run) (l : Nat) (found : Drip) : State :=
  let x := s.sl sl
  let landed (p : Place) : Bool := x.routing.counts.any fun c => c.layer == l && c.src == p && some c.tag == x.selectTag u.frame l
  let absent := s.members.filter fun p => !landed p && !x.fabric.lost.contains p
  let st : Status := if absent.any (s.unreachable sl) then .fabricLost else .deadline
  s.eachSlice fun v i => v.endReqs i (fun r => r.inFrame u.frame && (v.sl i).hasRow l (fun _ => true) r) found s.now st l

/-- ASSIGN misses (R75): the requests with a choice placed on a destination whose grant record is absent end. -/
def State.missAssign (s : State) (sl : Nat) (u : Run) (l : Nat) (found : Drip) : State :=
  let x := s.sl sl
  let landed (p : Place) : Bool := x.routing.grants.any fun g => g.layer == l && g.src == p && some g.tag == x.selectTag u.frame l
  let hit := x.hasChoice l fun c => !landed { node := c.node, slice := c.slice }
  s.endReqs sl (fun r => s.ties sl u r && hit r) found s.now .deadline l

/-- The status of Table 02-4 ends the requests tied to a missed stage, or the row's note is done (R36, R75, R135, R340, R353). -/
def State.missOutcome (s : State) (sl : Nat) (u : Run) (found : Drip) : State :=
  let x := s.sl sl
  let layer := u.entry.f.layer.getD 0xFF
  match u.entry.kind with
  | .collective =>
    match x.coll.descs.find? fun d => d.1 == u.entry.f.desc with
    | some (_, d) => s.endInstance sl d.collId u.frame .collectiveStall s.now (some found)
    | none => s
  | .receive | .inject => s.endTied sl u found s.now (if x.pathLost u then .fabricLost else .deadline)
  | .quad => if u.entry.f.slots.isEmpty then s.endTied sl u found s.now .deadline else s.missSlots sl u
  | .route =>
    match u.entry.f.role, u.entry.f.layer with
    | .grant, some l => s.missGrant sl u l found
    | .assign, some l => s.missAssign sl u l found
    | _, _ => s.endTied sl u found s.now .deadline
  | .combine => s.endTied sl u found s.now .deadline
  | .input => s.endReqs sl (fun r => s.ties sl u r && !r.inputDone) found s.now .deadline layer
  | .outputMain => s.endReqs sl (fun r => s.ties sl u r && !r.sqz && !r.outputDone) found s.now .deadline layer
  | .outputSqz => s.endReqs sl (fun r => s.ties sl u r && r.sqz && !r.outputDone) found s.now .deadline layer
  | .windowClose => s.onSl sl fun y => { y with tiers := { y.tiers with window := { y.tiers.window with isOpen := false } } }
  | .handoff => s.onSl sl fun y => { y with remote := { y.remote with
      regions := y.remote.regions.map fun r => if r.1 == u.entry.f.region then (r.1, { r.2 with pending := false }) else r } }
  | .passDigest => s.onSvc sl fun v => v.onPass u.frame fun p => { p with incomplete := true }
  | .prefetch | .rangePrefetch | .view | .windowOpen => s

/-- Stages whose own miss ends no request: a kind without a status, a prefetch (R223), and an expert segment, whose requests
are ended by its returns (R135). -/
def Run.noStatus (u : Run) : Bool :=
  match u.entry.kind with
  | .quad => !u.entry.f.slots.isEmpty
  | .prefetch => true
  | k => tiesNone k

/-- The parked chunks of a collective step that will not launch are freed (R337). -/
def SliceState.freeParked (x : SliceState) (u : Run) : SliceState :=
  match u.entry.kind, x.coll.descs.find? fun d => d.1 == u.entry.f.desc with
  | .collective, some d => x.unpark fun n => chColl n == d.2.collId && chTag n == u.frame.toNat % 65536 &&
      decide (d.2.lead u.entry.f.step ≤ chChunk n) && decide (chChunk n < d.2.stop u.entry.f.step)
  | _, _ => x

/-- A missed stage is reported once: the threads of a phase stop (R89), it ends, its outcome is taken, and a record is written where no request is tied (R35, R36). -/
def State.missRun (s : State) (sl : Nat) (u : Run) (found : Drip) : State :=
  let untied := u.noStatus || !s.tied sl u
  let t := (s.onSl sl fun x => ((x.freeParked u).stopPhase u).endRunNow u .missed).missOutcome sl u found
  let v := { t with time := { t.time with stageMisses := t.time.stageMisses + 1 } }
  if untied then v.report sl (mkReport 0x01 10 0 0 u.entry.ctx) else v

/-- The monitor of a slice (R35). -/
def State.monitor (s : State) (sl : Nat) (found : Drip) : State :=
  (s.sl sl).runs.foldl (fun (v : State) u =>
    match (v.sl sl).runs.find? fun w => w.idx == u.idx && w.frame == u.frame with
    | none => v
    | some w =>
      if !w.missed v.still.on v.now then v
      else v.missRun sl w found) s

/-- Launches withdrawn on a unit that failed or is withheld, at the drip of the launch (R85, R472, R523). -/
def State.withdrawLaunches (s : State) (sl : Nat) : State :=
  let x := s.sl sl
  (x.runs.filter fun u => u.st == .waiting && !Drip.later u.launchDrip s.now && x.barred u.entry.unit).foldl
    (fun (v : State) u =>
      let tied := v.tied sl u
      let w := (v.onSl sl fun y => (y.freeParked u).endRunNow u .withdrawn).endTied sl u v.now v.now
        (if x.power.withheld then .throttle else .fault)
      if tied then w else w.report sl (mkReport 0x04 10 0 0 u.entry.ctx)) s

/-! ### Links, sump ports and rollouts (R18, R216, R287, R465, R474) -/

/-- Whether the chain of a collective step crosses a lost internal link of this device: two members next to each other are slices of
it whose link has been lost (R18, R328). -/
def State.chainCut (s : State) (sl : Nat) (u : Run) : Bool :=
  let x := s.sl sl
  match x.coll.descs.find? fun d => d.1 == u.entry.f.desc with
  | none => false
  | some (_, d) =>
    match x.coll.groups.find? fun g => g.1 == d.group with
    | none => false
    | some (_, g) => (g.members.zip (g.members.drop 1)).any fun p =>
        p.1.node == s.pkg.nodeId && p.2.node == s.pkg.nodeId && s.pairLost p.1.slice p.2.slice

/-- A request has traffic that a stage of its slice schedules over a lost internal link, an exchange stage or a collective step
(R18), or, in still-water mode, an injection for a destination whose set held a lost port, whichever link it leaves by (R287). -/
def State.cutBy (s : State) (sl : Nat) (u : Run) (r : Request) : Bool :=
  let x := s.sl sl
  let nodes := match s.job with | some j => j.nodes.filter (· != s.pkg.nodeId) | none => []
  let way (m : Nat) : Bool := s.wayLost m &&
    (match u.entry.f.layer with
     | some l => (!x.snapOf l u.frame && (match u.entry.unit with | .port _ => true | _ => false)) ||
         x.carriesFor (s.place sl) u (fun c => c.node == m) r
     | none => match u.entry.unit with
       | .port _ => true
       | _ => x.exch.injections.any fun q => q.injection == u.entry.f.injection && q.dst.node == m)
  (match u.entry.unit with
   | .link k => (u.entry.kind == .inject || u.entry.kind == .receive) && s.pairLost sl k && s.ties sl u r
   | .collective => s.chainCut sl u && s.ties sl u r
   | _ => false) ||
  (u.entry.kind == .inject && s.still.on && s.ties sl u r && nodes.any way)

/-- The requests that a lost port or internal link leaves without their scheduled traffic end, until the job is reloaded (R18,
R287). -/
def State.endLost (s : State) (sl : Nat) : State :=
  let x := s.sl sl
  s.endReqs sl (fun r => x.runs.any fun u => u.frame == r.frame && s.cutBy sl u r) (s.now - 1) s.now .fabricLost

/-- Whether what a stage carries, as far as it is not told apart by its choices, crosses the device's edge: it uses an external port,
or messages for another node wait under its injection number. -/
def State.outward (s : State) (sl : Nat) (u : Run) : Bool :=
  match u.entry.unit with
  | .port _ => true
  | _ => u.entry.kind == .inject &&
      (s.sl sl).exch.injections.any fun m => m.injection == u.entry.f.injection && m.dst.node != s.pkg.nodeId

/-- A stage that has not ended is a SCHEDULED injection of a request to another device, or a receive of its rows from one (R44): of a
stage that names a context or no layer by the way it uses; of an injection by the records it carries outward and the choices on other
nodes whose blocks it carries; of a receive of returns by the choices on other nodes, and of a receive of records by the port it uses.
Blocks that other homes send here are no request's of this device. -/
def State.crossesBy (s : State) (sl : Nat) (u : Run) (r : Request) : Bool :=
  let x := s.sl sl
  let away (c : Choice) : Bool := c.node != s.pkg.nodeId
  u.frame == r.frame && !u.over && (u.entry.kind == .inject || u.entry.kind == .receive) &&
  !(u.entry.kind == .inject && u.entry.f.isReturn) &&
  (if u.entry.ctx < 255 then r.cmd.ctx == u.entry.ctx && s.outward sl u
   else match u.entry.f.layer with
    | none => s.outward sl u
    | some l =>
      if u.entry.kind == .inject then
        (x.carriesRecords u l && s.outward sl u && x.hasRow l (fun _ => true) r) || x.carriesFor (s.place sl) u away r
      else if u.entry.f.isReturn then x.snapOf l u.frame && x.hasChoice l away r
      else u.entry.f.slots.isEmpty && s.outward sl u && x.hasRow l (fun _ => true) r)

/-- A request of a slice has a SCHEDULED injection to or from another device: such a stage of its pass, or a choice on another node in a
layer that its pass has still to finish (R44). -/
def State.crosses (s : State) (sl : Nat) (r : Request) : Bool :=
  let x := s.sl sl
  (x.runs.any fun u => s.crossesBy sl u r) ||
  x.routing.choices.any fun c => c.node != s.pkg.nodeId && c.kept != some none && x.snapOf c.layer r.frame &&
    decide (r.firstRow ≤ c.row) && decide (c.row < r.firstRow + r.rows) &&
    x.runs.any fun u => u.frame == r.frame && !u.over && u.entry.f.layer == some c.layer

/-- A stage that carries nothing but the ended requests' traffic over the device's edge stops whole: an injection on a port that
carries no grant records, or a receive of returns that come from other nodes alone (R44). -/
def State.stopsWhole (s : State) (sl : Nat) (u : Run) : Bool :=
  let x := s.sl sl
  match u.entry.kind, u.entry.unit with
  | .inject, .port _ => !u.entry.f.isReturn &&
      !(x.runs.any fun v => v.frame == u.frame && v.entry.f.role == .grant && v.entry.f.injection == u.entry.f.injection)
  | .receive, .port _ => u.entry.f.isReturn
  | .receive, .link _ =>
    let open_ := x.exch.sections.filter fun c => c.isReturn && some c.layer == u.entry.f.layer && !c.complete
    u.entry.f.isReturn && !open_.isEmpty && open_.all fun c => c.peer.node != s.pkg.nodeId
  | _, _ => false

/-- At the drip after the device entered FREE, the requests whose scheduled traffic crosses its edge end with FABRIC_LOST and
that traffic stops: what waits for other devices goes, a stage that carries nothing else is withdrawn, and any other injection of the
passes under way carries no more of it. Traffic confined to the device goes on. In MARKED mode no injection is scheduled (R44). -/
def State.endFree (s : State) : State :=
  if !s.time.freeDue then s
  else
    let t := { s with time := { s.time with freeDue := false } }
    if t.pkg.congestionMode = 1 || t.job.isNone then t
    else t.eachSlice fun v i =>
      let live := (v.sl i).runs.filter fun u => !u.over
      let stop := live.filter (v.stopsWhole i)
      (v.endReqs i (v.crosses i) (v.now - 1) v.now .fabricLost).onSl i fun x =>
        let y := { x with exch := { x.exch with injections := x.exch.injections.filter fun q => !v.freeStops q } }
        stop.foldl (fun (z : SliceState) u => z.endRunNow u .withdrawn)
          (y.onRuns fun u => if u.over then u else { u with freed := true })

/-- A slice without its sump: pool-homed slots with no copy are ABSENT (R216, R507). -/
def SliceState.sumpAbsent (x : SliceState) : SliceState :=
  if x.sump.link = 3 ∧ x.sump.foreign = false then x
  else if x.tiers.res.any fun e => e.pool && (e.state == 1 || e.state == 2) then
    x.onRes (fun e => e.pool && (e.state == 1 || e.state == 2)) fun e => { e with state := 0 }
  else x

/-- A port that has returned to UP joins the eligible sets; in still-water mode only at a job load (R287). -/
def State.joinPorts (s : State) : State :=
  if s.still.on && s.job.isSome then s
  else s.onAll fun x => { x with ports := x.ports.map fun (l : Link) =>
    if l.st = linkUp ∧ l.heldOut = false then { l with inService := true } else l }

/-- A lane whose remap waited for the unload is remapped (R474). -/
def State.remapWaiting (s : State) (sl : Nat) (w : UnitRef × Option Nat) : State :=
  let p := w.1.index / 8
  let l : LinkId := .port (Fin.ofNat 8 p)
  match ((s.sl sl).ports.getD p {}).laneOf (w.1.index % 8) with
  | none => s
  | some lane =>
    -- a lane that failed outright in the meantime has had the spare
    if s.laneSpareFree sl 0 || s.laneSpareFree sl 1 then (if (s.link sl l).active then s.goDown sl l linkDown 5 else s).remapLane sl p lane
    else s.report sl { cls := 0x15, unit := w.1 }

/-- With no job loaded nothing waits: unit-map changes and lane remaps take effect (R473, R474). -/
def State.applyIdle (s : State) : State :=
  if s.job.isSome then s
  else
    (s.applyWaiting).eachSlice fun v i =>
      let lanes := (v.sl i).spares.waiting
      lanes.foldl (fun u w => u.remapWaiting i w) (v.onSpares i fun p => { p with waiting := [] })

/-- The drips for which the collective condition has kept back a step that is otherwise due, and the holds (R463, R465). -/
def State.rolloutDrip (s : State) : State :=
  let f := s.fw
  let kept := (f.rollout = 1 || f.rollout = 2) && !f.switching && !s.collFree f.nextStep
  let t : State := { s with fw := { f with collHold := if kept then f.collHold + 1 else 0 } }
  t.checkHold.fwCause f

/-! ### The frame start (R29, R86, R216, R217, R352, R355, R391, R399, R403) -/

/-- A starting context is ON, and the opens it owes complete (R355). -/
def State.startCtxs (s : State) : State :=
  s.ctxs.foldl (fun (t : State) x =>
    if x.st = 1 then
      x.opens.foldl (fun (u : State) o => u.completeCmd o.1 o.2 .ok 0 (some o.2.ring)) (t.onCtx x.ctx fun y => { y with st := 2, opens := [] })
    else t) s

/-- The records that landed form the view of the frame; every replica of a slice whose record is missing holds code 0 (R217). -/
def State.switchView (s : State) (sl : Nat) : State :=
  if s.frame0 == s.now then s
  else
    let homed := match s.job with | some j => j.poolHomed ++ j.pinnedHomed | none => []
    let t := (s.sl sl).tiers
    let absent := homed.filter fun h => !t.viewLanded.contains h.1
    let places := (absent.map (·.1)).eraseDups
    let v := s.onSl sl fun x => { x with tiers := { t with
      view := t.viewNext ++ absent.map fun h => { place := h.1, layer := h.2.1, slot := h.2.2, code := 0 }
      viewNext := [], viewLanded := [], viewMissing := t.viewMissing + places.length } }
    places.foldl (fun (u : State) _ => u.report sl (mkReport 0x0A 10 0)) v

/-- The slots chosen by the last snapshot are evicted, and a STAGED slot that the view includes is RESIDENT (R216, R220). -/
def SliceState.frameSlots (x : SliceState) (me : Place) : SliceState :=
  let out (e : ResEntry) : Bool := e.pool && (e.state == 3 || e.state == 4) && !e.pinned &&
    x.tiers.evict.contains (e.layer, { quad := e.quad, slot := e.slot })
  let gone := x.tiers.res.filter out
  let y := if gone.isEmpty then x else x.onRes out fun e => { e with state := 1 }
  let z : SliceState := { y with tiers := { y.tiers with
    evict := [], releasing := y.tiers.releasing ++ gone.map (·.frame), evictions := y.tiers.evictions + gone.length } }
  let up (e : ResEntry) : Bool := e.pool && e.state == 3 && z.tiers.viewCode me e.layer { quad := e.quad, slot := e.slot } == 3
  if z.tiers.res.any up then z.onRes up fun e => { e with state := 4 } else z

/-- A PASS_DIGEST stage whose due drip is not past and whose pass has no digest yet (R406). -/
def SliceState.digestOwed (x : SliceState) (now : Drip) (u : Run) : Bool :=
  u.entry.kind == .passDigest && !Drip.later now u.dueDrip && (x.svc.passOf u.frame).passDigest.isEmpty

/-- The stages of the new frame, beside those of earlier frames of which a stage is still live, those that have ended included, since
the last of a frame in launch order clears a flag (R29, R534), and what the exchange, the collective engine and the sequencer keep no
more. -/
def SliceState.newRuns (x : SliceState) (si : SliceImage) (last now : Drip) : SliceState :=
  let kept := x.runs.filter fun u => x.runs.any fun v => v.frame == u.frame && (!v.over || x.digestOwed now v)
  { x with
    exch := { x.exch with sent := x.exch.sent.filter fun b => kept.any fun u => u.frame == b.frame }
    runs := kept ++ si.entries.zipIdx.map fun k => { idx := k.2, frame := now, entry := k.1 }
    coll := { x.coll with
      steps := x.coll.steps.filter fun c => !c.completed || c.frame == last
      ended := x.coll.ended.filter fun e => e.2.1 == last || kept.any fun u => u.frame == e.2.1 }
    svc := { x.svc with combined := x.svc.combined.filter (·.2 == now), boundaries := [] } }

/-- A pass begins at a slice: its requests are admitted, and it pins what its digests name; a pass of which a request or a stage is left
is kept beside it (R352, R391, R399, R405). -/
def State.startPass (s : State) (sl : Nat) : State :=
  let t := s.admitWaiting sl s.now
  let old (x : SliceState) : List Pass := (x.svc.older ++ [x.svc.pass]).filter fun p =>
    p.frame != s.now && (x.svc.reqs.any (fun r => r.frame == p.frame) || x.runs.any fun u => u.frame == p.frame)
  t.onSvc sl fun v => { v with older := old (t.sl sl), pass :=
    { frame := s.now, epoch := s.epochs.current, weightDigest := s.epochs.digest, fwVersion := s.fwVersion,
      unitMap := s.unitMapDigest, rowmap := v.rowmap } }

/-- The actions of a frame start: unit-map changes first, then a reshape and a weight-epoch switch (R473), then the pass, and
launches due at once on a barred unit are withdrawn. -/
def State.startFrame (s : State) : State :=
  let last := s.frame
  let s0 : State := { s with
    running := true, frame := s.now
    still := { s.still with disturbedPasses := s.still.disturbedPasses + s.disturbedNow } }
  let t := ((s0.applyWaiting.reshape).enterEpoch).tuningEpoch
  if t.job.isNone then t
  else
    let u := ({ t with running := true, frame := t.now, still := { t.still with unitMapDigest := t.unitMapDigest } } : State).startCtxs
    (u.eachSlice fun v i =>
      ((v.switchView i).onSl i fun x => (x.frameSlots (v.place i)).newRuns (v.img i) last v.now).startPass i).eachSlice
        State.withdrawLaunches

/-! ### The command -/

/-- DRIP_BOUNDARY (R24): with the clocks running, the drip count advances, the conditions of the past drip are settled, the
monitor finds what missed in it, and a frame start takes its actions. -/
def execDripBoundary (s : State) : Out :=
  if !s.pkg.dividersRun then .next s
  else
    let found := s.now
    let s0 := s.eachSlice State.formDue
    let s1 := (s0.settleAll found).tick
    let s2 := (s1.onAll fun x => (x.takeDrip s1.now).settleFetches s1.now).eachSlice State.portNext
    let s3 := s2.eachSlice fun v i => (v.monitor i found).withdrawLaunches i
    let s4 := ((s3.eachSlice State.endLost).endFree).onAll SliceState.sumpAbsent
    let s4f := s4.eachSlice fun v i => (List.range 8).foldl (fun w p => w.judgeFec i p) v
    let s5 := (((s4f.joinPorts.applyIdle).returnProcessor).rolloutDrip).retireEpoch
    .next (if s5.isFrameStart s5.now then s5.startFrame else s5)

end Sys2Proof.Machine
end

