-- ==== Sys2Proof/Machine/Dispatch.lean ====
section
/-! DEFINITION. The one dispatch: each command to its meaning. -/

namespace Sys2Proof.Machine

def exec (i : Instr) (s : State) : Host.Outcome State Fault Refusal :=
  match i with
  | .dripBoundary => Sys2Proof.Machine.execDripBoundary s
  | .stageLaunch sl n hits => Sys2Proof.Machine.execStageLaunch sl n hits s
  | .stageComplete sl n => Sys2Proof.Machine.execStageComplete sl n s
  | .timeSymbolSend sl p => Sys2Proof.Machine.execTimeSymbolSend sl p s
  | .timeSymbol sl p y => Sys2Proof.Machine.execTimeSymbol sl p y s
  | .holdoverTimeout => Sys2Proof.Machine.execHoldoverTimeout s
  | .timePacketSend sl p => Sys2Proof.Machine.execTimePacketSend sl p s
  | .timePacket sl p y => Sys2Proof.Machine.execTimePacket sl p y s
  | .timeInPps => Sys2Proof.Machine.execTimeInPps s
  | .timeInLock => Sys2Proof.Machine.execTimeInLock s
  | .timeInLoss => Sys2Proof.Machine.execTimeInLoss s
  | .panelLanded sl e layer panel => Sys2Proof.Machine.execPanelLanded sl e layer panel s
  | .countRecord sl src msg => Sys2Proof.Machine.execCountRecord sl src msg s
  | .grantRecord sl src msg => Sys2Proof.Machine.execGrantRecord sl src msg s
  | .viewRecord sl src msg => Sys2Proof.Machine.execViewRecord sl src msg s
  | .passDigestRecord sl src msg => Sys2Proof.Machine.execPassDigestRecord sl src msg s
  | .lookaheadCount sl src layer counts => Sys2Proof.Machine.execLookaheadCount sl src layer counts s
  | .routingEngineFail sl e => Sys2Proof.Machine.execRoutingEngineFail sl e s
  | .unitFail sl u => Sys2Proof.Machine.execUnitFail sl u s
  | .nop sl e t => Sys2Proof.Machine.execNop sl e t s
  | .movi sl e t => Sys2Proof.Machine.execMovi sl e t s
  | .add sl e t => Sys2Proof.Machine.execAdd sl e t s
  | .sub sl e t => Sys2Proof.Machine.execSub sl e t s
  | .mul sl e t => Sys2Proof.Machine.execMul sl e t s
  | .logic sl e t => Sys2Proof.Machine.execLogic sl e t s
  | .shift sl e t => Sys2Proof.Machine.execShift sl e t s
  | .cmp sl e t => Sys2Proof.Machine.execCmp sl e t s
  | .plog sl e t => Sys2Proof.Machine.execPlog sl e t s
  | .br sl e t => Sys2Proof.Machine.execBr sl e t s
  | .halt sl e t => Sys2Proof.Machine.execHalt sl e t s
  | .ld sl e t => Sys2Proof.Machine.execLd sl e t s
  | .st sl e t => Sys2Proof.Machine.execSt sl e t s
  | .xld sl e t => Sys2Proof.Machine.execXld sl e t s
  | .xst sl e t => Sys2Proof.Machine.execXst sl e t s
  | .xcopyGet sl e t => Sys2Proof.Machine.execXcopyGet sl e t s
  | .xcopyPut sl e t => Sys2Proof.Machine.execXcopyPut sl e t s
  | .xatomFadd sl e t => Sys2Proof.Machine.execXatomFadd sl e t s
  | .xatomCas sl e t => Sys2Proof.Machine.execXatomCas sl e t s
  | .score sl e t => Sys2Proof.Machine.execScore sl e t s
  | .topk sl e t => Sys2Proof.Machine.execTopk sl e t s
  | .capacityGrant sl e t => Sys2Proof.Machine.execCapacityGrant sl e t s
  | .capacityAssign sl e t => Sys2Proof.Machine.execCapacityAssign sl e t s
  | .sort sl e t => Sys2Proof.Machine.execSort sl e t s
  | .pack sl e t => Sys2Proof.Machine.execPack sl e t s
  | .send sl e t => Sys2Proof.Machine.execSend sl e t s
  | .recv sl e t => Sys2Proof.Machine.execRecv sl e t s
  | .alloc sl e t => Sys2Proof.Machine.execAlloc sl e t s
  | .done sl e t => Sys2Proof.Machine.execDone sl e t s
  | .free sl e t => Sys2Proof.Machine.execFree sl e t s
  | .poolRetry sl => Sys2Proof.Machine.execPoolRetry sl s
  | .waitDrip sl e t => Sys2Proof.Machine.execWaitDrip sl e t s
  | .waitDripWake sl e t => Sys2Proof.Machine.execWaitDripWake sl e t s
  | .fenceLocal sl e t => Sys2Proof.Machine.execFenceLocal sl e t s
  | .fenceMark sl e t => Sys2Proof.Machine.execFenceMark sl e t s
  | .fenceDrain sl e t => Sys2Proof.Machine.execFenceDrain sl e t s
  | .digest sl e t => Sys2Proof.Machine.execDigest sl e t s
  | .threadYield sl e => Sys2Proof.Machine.execThreadYield sl e s
  | .unitComplete sl e u => Sys2Proof.Machine.execUnitComplete sl e u s
  | .rangePrefetch sl n => Sys2Proof.Machine.execRangePrefetch sl n s
  | .dispatchBlock sl src msg => Sys2Proof.Machine.execDispatchBlock sl src msg s
  | .returnBlock sl src msg => Sys2Proof.Machine.execReturnBlock sl src msg s
  | .returnListWrite sl layer x => Sys2Proof.Machine.execReturnListWrite sl layer x s
  | .combineStage sl n => Sys2Proof.Machine.execCombineStage sl n s
  | .combineComplete sl n => Sys2Proof.Machine.execCombineComplete sl n s
  | .quadNop sl q => Sys2Proof.Machine.execQuadNop sl q s
  | .quadHalt sl q => Sys2Proof.Machine.execQuadHalt sl q s
  | .quadWaitDrip sl q => Sys2Proof.Machine.execQuadWaitDrip sl q s
  | .waitFlag sl q => Sys2Proof.Machine.execWaitFlag sl q s
  | .setFlag sl q => Sys2Proof.Machine.execSetFlag sl q s
  | .quadLoop sl q => Sys2Proof.Machine.execQuadLoop sl q s
  | .brz sl q => Sys2Proof.Machine.execBrz sl q s
  | .quadSet sl q => Sys2Proof.Machine.execQuadSet sl q s
  | .addi sl q => Sys2Proof.Machine.execAddi sl q s
  | .addq sl q => Sys2Proof.Machine.execAddq sl q s
  | .muli sl q => Sys2Proof.Machine.execMuli sl q s
  | .ldshape sl q => Sys2Proof.Machine.execLdshape sl q s
  | .wload sl q => Sys2Proof.Machine.execWload sl q s
  | .swap sl q => Sys2Proof.Machine.execSwap sl q s
  | .rowcopy sl q => Sys2Proof.Machine.execRowcopy sl q s
  | .stream sl q => Sys2Proof.Machine.execStream sl q s
  | .accload sl q => Sys2Proof.Machine.execAccload sl q s
  | .drain sl q => Sys2Proof.Machine.execDrain sl q s
  | .draint sl q => Sys2Proof.Machine.execDraint sl q s
  | .poisonedDrainReport sl q => Sys2Proof.Machine.execPoisonedDrainReport sl q s
  | .vopConvert sl q => Sys2Proof.Machine.execVopConvert sl q s
  | .vopAdd sl q => Sys2Proof.Machine.execVopAdd sl q s
  | .vopMul sl q => Sys2Proof.Machine.execVopMul sl q s
  | .vopMax sl q => Sys2Proof.Machine.execVopMax sl q s
  | .vopMin sl q => Sys2Proof.Machine.execVopMin sl q s
  | .vopAdds sl q => Sys2Proof.Machine.execVopAdds sl q s
  | .vopMuls sl q => Sys2Proof.Machine.execVopMuls sl q s
  | .vopAxpy sl q => Sys2Proof.Machine.execVopAxpy sl q s
  | .vopAddb sl q => Sys2Proof.Machine.execVopAddb sl q s
  | .vopMulb sl q => Sys2Proof.Machine.execVopMulb sl q s
  | .vopExp sl q => Sys2Proof.Machine.execVopExp sl q s
  | .vopSigmoid sl q => Sys2Proof.Machine.execVopSigmoid sl q s
  | .vopSilu sl q => Sys2Proof.Machine.execVopSilu sl q s
  | .vopTanh sl q => Sys2Proof.Machine.execVopTanh sl q s
  | .vopLog sl q => Sys2Proof.Machine.execVopLog sl q s
  | .vopRsqrt sl q => Sys2Proof.Machine.execVopRsqrt sl q s
  | .vopRecip sl q => Sys2Proof.Machine.execVopRecip sl q s
  | .vopExpsub sl q => Sys2Proof.Machine.execVopExpsub sl q s
  | .vopSwiglu sl q => Sys2Proof.Machine.execVopSwiglu sl q s
  | .vopSum sl q => Sys2Proof.Machine.execVopSum sl q s
  | .vopSumsq sl q => Sys2Proof.Machine.execVopSumsq sl q s
  | .vopMaxred sl q => Sys2Proof.Machine.execVopMaxred sl q s
  | .sumpTileArrival sl layer x tile data tag => Sys2Proof.Machine.execSumpTileArrival sl layer x tile data tag s
  | .fetchComplete sl layer x => Sys2Proof.Machine.execFetchComplete sl layer x s
  | .prefetchStage sl n => Sys2Proof.Machine.execPrefetchStage sl n s
  | .viewStage sl n => Sys2Proof.Machine.execViewStage sl n s
  | .frameRelease sl frame => Sys2Proof.Machine.execFrameRelease sl frame s
  | .windowOpen sl n => Sys2Proof.Machine.execWindowOpen sl n s
  | .windowClose sl n => Sys2Proof.Machine.execWindowClose sl n s
  | .patrolScrub sl corrected uncorrectable => Sys2Proof.Machine.execPatrolScrub sl corrected uncorrectable s
  | .hbmRetrain sl stack => Sys2Proof.Machine.execHbmRetrain sl stack s
  | .poolLowReset sl => Sys2Proof.Machine.execPoolLowReset sl s
  | .poolRejectClear sl => Sys2Proof.Machine.execPoolRejectClear sl s
  | .linkRetrainAttempt sl l => Sys2Proof.Machine.execLinkRetrainAttempt sl l s
  | .linkTrainComplete sl l => Sys2Proof.Machine.execLinkTrainComplete sl l s
  | .linkTrainTimeout sl l => Sys2Proof.Machine.execLinkTrainTimeout sl l s
  | .linkFrameSend sl l => Sys2Proof.Machine.execLinkFrameSend sl l s
  | .linkFrame sl l frame corrected fec => Sys2Proof.Machine.execLinkFrame sl l frame corrected fec s
  | .frameSilenceTimeout sl l => Sys2Proof.Machine.execFrameSilenceTimeout sl l s
  | .replayTimeout sl l => Sys2Proof.Machine.execReplayTimeout sl l s
  | .downSymbol sl l reason => Sys2Proof.Machine.execDownSymbol sl l reason s
  | .egressPacketStart sl l n => Sys2Proof.Machine.execEgressPacketStart sl l n s
  | .routerForward sl a p => Sys2Proof.Machine.execRouterForward sl a p s
  | .read sl a p => Sys2Proof.Machine.execRead sl a p s
  | .write sl a p => Sys2Proof.Machine.execWrite sl a p s
  | .reduce sl a p => Sys2Proof.Machine.execReduce sl a p s
  | .atomicFadd sl a p => Sys2Proof.Machine.execAtomicFadd sl a p s
  | .atomicCas sl a p => Sys2Proof.Machine.execAtomicCas sl a p s
  | .mcastWrite sl a p => Sys2Proof.Machine.execMcastWrite sl a p s
  | .operationApply sl => Sys2Proof.Machine.execOperationApply sl s
  | .readData sl a p => Sys2Proof.Machine.execReadData sl a p s
  | .ack sl a p => Sys2Proof.Machine.execAck sl a p s
  | .nack sl a p => Sys2Proof.Machine.execNack sl a p s
  | .atomicResult sl a p => Sys2Proof.Machine.execAtomicResult sl a p s
  | .e2eTimeout sl dst msgId => Sys2Proof.Machine.execE2eTimeout sl dst msgId s
  | .windowedSend sl dst => Sys2Proof.Machine.execWindowedSend sl dst s
  | .ctrlSkip sl a p => Sys2Proof.Machine.execCtrlSkip sl a p s
  | .ctrlLost p => Sys2Proof.Machine.execCtrlLost p s
  | .lossHoldExpiry node => Sys2Proof.Machine.execLossHoldExpiry node s
  | .lostMark => Sys2Proof.Machine.execLostMark s
  | .routeSwitchDrip d v => Sys2Proof.Machine.execRouteSwitchDrip d v s
  | .routeSwitch => Sys2Proof.Machine.execRouteSwitch s
  | .routeDrainEnd => Sys2Proof.Machine.execRouteDrainEnd s
  | .portDisable d sl p disable => Sys2Proof.Machine.execPortDisable d sl p disable s
  | .mcastComplete sl group msgId => Sys2Proof.Machine.execMcastComplete sl group msgId s
  | .regionEntry d sl v => Sys2Proof.Machine.execRegionEntry d sl v s
  | .regionHandoff d sl v => Sys2Proof.Machine.execRegionHandoff d sl v s
  | .ownershipMove sl entry => Sys2Proof.Machine.execOwnershipMove sl entry s
  | .handoffStage sl n => Sys2Proof.Machine.execHandoffStage sl n s
  | .collectiveStep sl n => Sys2Proof.Machine.execCollectiveStep sl n s
  | .sumChunk sl src msg => Sys2Proof.Machine.execSumChunk sl src msg s
  | .resultChunk sl src msg => Sys2Proof.Machine.execResultChunk sl src msg s
  | .pull sl src msg => Sys2Proof.Machine.execPull sl src msg s
  | .pullRepeat sl n => Sys2Proof.Machine.execPullRepeat sl n s
  | .chunkSend sl n => Sys2Proof.Machine.execChunkSend sl n s
  | .collectiveStepComplete sl n => Sys2Proof.Machine.execCollectiveStepComplete sl n s
  | .collEpochDrip d v => Sys2Proof.Machine.execCollEpochDrip d v s
  | .membershipEpoch => Sys2Proof.Machine.execMembershipEpoch s
  | .ledgerScan sl => Sys2Proof.Machine.execLedgerScan sl s
  | .submit sl n => Sys2Proof.Machine.execSubmit sl n s
  | .cancel sl n => Sys2Proof.Machine.execCancel sl n s
  | .ctxOpen sl n => Sys2Proof.Machine.execCtxOpen sl n s
  | .ctxClose sl n => Sys2Proof.Machine.execCtxClose sl n s
  | .copy sl n => Sys2Proof.Machine.execCopy sl n s
  | .inputStage sl n => Sys2Proof.Machine.execInputStage sl n s
  | .outputMain sl n => Sys2Proof.Machine.execOutputMain sl n s
  | .outputSqz sl n => Sys2Proof.Machine.execOutputSqz sl n s
  | .layerBoundary sl layer => Sys2Proof.Machine.execLayerBoundary sl layer s
  | .requestDeadline sl req => Sys2Proof.Machine.execRequestDeadline sl req s
  | .contextTeardown ctx => Sys2Proof.Machine.execContextTeardown ctx s
  | .contextOff ctx => Sys2Proof.Machine.execContextOff ctx s
  | .completionWrite ring => Sys2Proof.Machine.execCompletionWrite ring s
  | .ledgerEnable d sl on => Sys2Proof.Machine.execLedgerEnable d sl on s
  | .ringEnable d on => Sys2Proof.Machine.execRingEnable d on s
  | .ringHead ring v => Sys2Proof.Machine.execRingHead ring v s
  | .hotServe d slot => Sys2Proof.Machine.execHotServe d slot s
  | .reshapeArm d v => Sys2Proof.Machine.execReshapeArm d v s
  | .reshapeDisarm d => Sys2Proof.Machine.execReshapeDisarm d s
  | .reshape => Sys2Proof.Machine.execReshape s
  | .loadStart d => Sys2Proof.Machine.execLoadStart d s
  | .loadHostRead => Sys2Proof.Machine.execLoadHostRead s
  | .imageItem it img => Sys2Proof.Machine.execImageItem it img s
  | .manifestItem it => Sys2Proof.Machine.execManifestItem it s
  | .tileItem it => Sys2Proof.Machine.execTileItem it s
  | .panelItem it => Sys2Proof.Machine.execPanelItem it s
  | .placementItem it => Sys2Proof.Machine.execPlacementItem it s
  | .mapItem it m => Sys2Proof.Machine.execMapItem it m s
  | .endItem it => Sys2Proof.Machine.execEndItem it s
  | .itemForward => Sys2Proof.Machine.execItemForward s
  | .loadForwardAck seq => Sys2Proof.Machine.execLoadForwardAck seq s
  | .loadSeal => Sys2Proof.Machine.execLoadSeal s
  | .upstreamTimeout => Sys2Proof.Machine.execUpstreamTimeout s
  | .loadChain d v => Sys2Proof.Machine.execLoadChain d v s
  | .resumeToken v => Sys2Proof.Machine.execResumeToken v s
  | .epochSwitch d v => Sys2Proof.Machine.execEpochSwitch d v s
  | .weightEpochSwitch => Sys2Proof.Machine.execWeightEpochSwitch s
  | .epochRetire => Sys2Proof.Machine.execEpochRetire s
  | .passDigest sl n => Sys2Proof.Machine.execPassDigest sl n s
  | .passDigestForm sl n => Sys2Proof.Machine.execPassDigestForm sl n s
  | .hello sl p msg => Sys2Proof.Machine.execHello sl p msg s
  | .finishSign => Sys2Proof.Machine.execFinishSign s
  | .finish sl p msg => Sys2Proof.Machine.execFinish sl p msg s
  | .authTimeout sl p => Sys2Proof.Machine.execAuthTimeout sl p s
  | .linkRekey sl p => Sys2Proof.Machine.execLinkRekey sl p s
  | .oldKeyErase sl p => Sys2Proof.Machine.execOldKeyErase sl p s
  | .trngHealthFail => Sys2Proof.Machine.execTrngHealthFail s
  | .quoteNonce d v => Sys2Proof.Machine.execQuoteNonce d v s
  | .quoteComplete => Sys2Proof.Machine.execQuoteComplete s
  | .mr7Extend d v => Sys2Proof.Machine.execMr7Extend d v s
  | .dictRead index sub => Sys2Proof.Machine.execDictRead index sub s
  | .dictWrite index sub => Sys2Proof.Machine.execDictWrite index sub s
  | .dictInfo index sub => Sys2Proof.Machine.execDictInfo index sub s
  | .dictOverrunClear => Sys2Proof.Machine.execDictOverrunClear s
  | .dictStagingTimeout => Sys2Proof.Machine.execDictStagingTimeout s
  | .persistedWriteCommit readBackOk => Sys2Proof.Machine.execPersistedWriteCommit readBackOk s
  | .defaultsRestore d => Sys2Proof.Machine.execDefaultsRestore d s
  | .credentialWrite d sub v => Sys2Proof.Machine.execCredentialWrite d sub v s
  | .lifecycleEnable d f ch => Sys2Proof.Machine.execLifecycleEnable d f ch s
  | .lifecycleDisable d f ch => Sys2Proof.Machine.execLifecycleDisable d f ch s
  | .lifecycleStartComplete f ch x => Sys2Proof.Machine.execLifecycleStartComplete f ch x s
  | .lifecycleStartFail f ch code => Sys2Proof.Machine.execLifecycleStartFail f ch code s
  | .lifecycleStopComplete f ch => Sys2Proof.Machine.execLifecycleStopComplete f ch s
  | .enableRecordWrite readBackOk => Sys2Proof.Machine.execEnableRecordWrite readBackOk s
  | .uaricOpen m => Sys2Proof.Machine.execUaricOpen m s
  | .prove m => Sys2Proof.Machine.execProve m s
  | .uaricClose m => Sys2Proof.Machine.execUaricClose m s
  | .certGet m => Sys2Proof.Machine.execCertGet m s
  | .uaricRead m => Sys2Proof.Machine.execUaricRead m s
  | .uaricWrite m => Sys2Proof.Machine.execUaricWrite m s
  | .uaricInfo m => Sys2Proof.Machine.execUaricInfo m s
  | .uaricHandshakeTimeout h => Sys2Proof.Machine.execUaricHandshakeTimeout h s
  | .uaricIdleTimeout n => Sys2Proof.Machine.execUaricIdleTimeout n s
  | .fwStageData d v => Sys2Proof.Machine.execFwStageData d v s
  | .fwStageCommit d len => Sys2Proof.Machine.execFwStageCommit d len s
  | .fwRollout d => Sys2Proof.Machine.execFwRollout d s
  | .fwRollback d => Sys2Proof.Machine.execFwRollback d s
  | .fwBootSlot d slot => Sys2Proof.Machine.execFwBootSlot d slot s
  | .handoverStep digestOk => Sys2Proof.Machine.execHandoverStep digestOk s
  | .imageReady => Sys2Proof.Machine.execImageReady s
  | .handoverReadyTimeout oldReturns => Sys2Proof.Machine.execHandoverReadyTimeout oldReturns s
  | .rolloutResume => Sys2Proof.Machine.execRolloutResume s
  | .bootSlotCommit readBackOk => Sys2Proof.Machine.execBootSlotCommit readBackOk s
  | .marginSensorRead sl u below provisional => Sys2Proof.Machine.execMarginSensorRead sl u below provisional s
  | .spareMigration sl stack => Sys2Proof.Machine.execSpareMigration sl stack s
  | .telemetrySample => Sys2Proof.Machine.execTelemetrySample s
  | .errorReport sl r => Sys2Proof.Machine.execErrorReport sl r s
  | .errorRecordClose sl => Sys2Proof.Machine.execErrorRecordClose sl s
  | .errClear d sl => Sys2Proof.Machine.execErrClear d sl s
  | .registerWrite off data => Sys2Proof.Machine.execRegisterWrite off data s
  | .bar0InvalidAccess off size isWrite => Sys2Proof.Machine.execBar0InvalidAccess off size isWrite s
  | .evtCauseClear mask => Sys2Proof.Machine.execEvtCauseClear mask s
  | .msixUnmask v => Sys2Proof.Machine.execMsixUnmask v s
  | .bar2Read off len => Sys2Proof.Machine.execBar2Read off len s
  | .bar2Write t => Sys2Proof.Machine.execBar2Write t s
  | .bar2ReadTimeout => Sys2Proof.Machine.execBar2ReadTimeout s
  | .dmaRequestIssue => Sys2Proof.Machine.execDmaRequestIssue s
  | .hostReadCompletion tag data ok => Sys2Proof.Machine.execHostReadCompletion tag data ok s
  | .hostReadTimeout tag => Sys2Proof.Machine.execHostReadTimeout tag s
  | .msixModTimeout ring => Sys2Proof.Machine.execMsixModTimeout ring s
  | .flr => Sys2Proof.Machine.execFlr s
  | .perstN k => Sys2Proof.Machine.execPerstN k s
  | .hostLinkDown bme => Sys2Proof.Machine.execHostLinkDown bme s
  | .hostLinkUp width speed => Sys2Proof.Machine.execHostLinkUp width speed s
  | .sumpLinkDown sl => Sys2Proof.Machine.execSumpLinkDown sl s
  | .sumpRetrain sl x => Sys2Proof.Machine.execSumpRetrain sl x s
  | .sumpReadTimeout sl layer x => Sys2Proof.Machine.execSumpReadTimeout sl layer x s
  | .sumpEventPoll sl events => Sys2Proof.Machine.execSumpEventPoll sl events s
  | .powerUp b => Sys2Proof.Machine.execPowerUp b s
  | .pwrOkFall vauxHolds => Sys2Proof.Machine.execPwrOkFall vauxHolds s
  | .railFault sl => Sys2Proof.Machine.execRailFault sl s
  | .sysRstAssert => Sys2Proof.Machine.execSysRstAssert s
  | .sysRstRelease b => Sys2Proof.Machine.execSysRstRelease b s
  | .pllLockLoss => Sys2Proof.Machine.execPllLockLoss s
  | .vidStep sl up => Sys2Proof.Machine.execVidStep sl up s
  | .sensorRead sl temp => Sys2Proof.Machine.execSensorRead sl temp s
  | .powerWindow watts shared => Sys2Proof.Machine.execPowerWindow watts shared s
  | .throttleRelease sl => Sys2Proof.Machine.execThrottleRelease sl s
  | .holdupOkChange level => Sys2Proof.Machine.execHoldupOkChange level s
  | .i3cPoll target reading => Sys2Proof.Machine.execI3cPoll target reading s
  | .i3cIbi target data => Sys2Proof.Machine.execI3cIbi target data s
  | .tapInstruction x => Sys2Proof.Machine.execTapInstruction x s
  | .pllRelock b => Sys2Proof.Machine.execPllRelock b s
  | .trngHealthPass => Sys2Proof.Machine.execTrngHealthPass s
  | .hotServeLoadComplete => Sys2Proof.Machine.execHotServeLoadComplete s
  | .configurationRequest x => Sys2Proof.Machine.execConfigurationRequest x s

end Sys2Proof.Machine
end

