-- ==== Sys2Proof/Safety.lean ====
section
/-! DEFINITION. What counts as a well-shaped state, and the terms in which claims say when a command acts and what it leaves. -/

namespace Sys2Proof.Machine

/-! ### Shape (R2, R16, R18, R19, R87, R93, R144, R146, R167, R252, R364, R422) -/

/-- 32 registers and 8 predicates (R93). -/
def Thread.ok (h : Thread) : Prop := h.g.length = 32 ∧ h.p.length = 8

/-- 64 threads (R87). -/
def Engine.ok (g : Engine) : Prop := g.threads.length = 64 ∧ ∀ h ∈ g.threads, h.ok

/-- 16 registers, 4 arrays of 8 accumulator slots (R144, R146, R167). -/
def Quad.ok (k : Quad) : Prop := k.q.length = 16 ∧ k.arrays.length = 4 ∧ ∀ a ∈ k.arrays, a.slots.length = 8

/-- A slice: memory in canonical form, four logical engines, eight quads, eight ports and a link to each slice number. -/
def SliceState.ok (x : SliceState) : Prop :=
  x.mem.wf = true ∧ (x.engines.length = 4 ∧ ∀ g ∈ x.engines, g.ok) ∧ (x.quads.length = 8 ∧ ∀ k ∈ x.quads, k.ok) ∧
  x.ports.length = 8 ∧ x.ilinks.length = 8 ∧ x.life.length = 3

/-- The shape of the device, which every step keeps. -/
def State.Inv (s : State) : Prop :=
  (s.slices.length = 8 ∧ ∀ x ∈ s.slices, x.ok) ∧ s.host.rings.length = 64 ∧ s.host.chans.length = 18 ∧ s.sec.mr.length = 8 ∧
  s.dict.life.length = 4

/-- A step that answers a next state: neither a fault nor a refusal. -/
def Completes (o : Out) : Prop := ∃ t, o = .next t

/-- Everything of a state but its slices. -/
def SameBut (s t : State) : Prop := { s with slices := [] } = { t with slices := [] }

/-! ### Issue of a route program instruction (R91, R94, R96, R113) -/

/-- A thread may issue, and the word at its program counter is `w`. -/
def State.Issues (s : State) (sl : SliceId) (e : EngineId) (t : ThreadId) (w : Nat) : Prop :=
  let g := (s.sl sl).engine e
  let h := g.thread t
  g.mayIssue t = true ∧ (g.running = some t.val → h.issued < 64) ∧ h.pc ≤ 32767 ∧ (s.sl sl).routeWord e h.pc = w

/-- The state in which the thread has taken the issue slot, its program counter has passed the word, and the thread is then
changed by `f`; nothing else is changed. -/
def State.afterIssue (s : State) (sl : SliceId) (e : EngineId) (t : ThreadId) (f : Thread → Thread) : State :=
  s.onSl sl fun x => x.onEngine e fun g => (g.take t).onThread t fun k => f { k with pc := k.pc + 1 }

/-- As `afterIssue`, with the thread then in state `st` and the issue slot free for another (R91). -/
def State.afterBlock (s : State) (sl : SliceId) (e : EngineId) (t : ThreadId) (st : ThreadPhase) (f : Thread → Thread) : State :=
  (s.afterIssue sl e t id).onSl sl fun x => (x.onEngine e fun g => g.block t st).onThread e t f

/-- The second operand of a route program instruction (R96). -/
def secondOperand (h : Thread) (w : Nat) : Word := if bit (bits w 38 32) 0 then sext32 (bits w 31 0) else h.reg (bits w 43 39)

/-! ### Issue of a quad program word (R168, R169) -/

/-- A quad's segment runs, and the word at its program counter is `w`. -/
def State.QuadIssues (s : State) (sl : SliceId) (q : QuadId) (w : Nat) : Prop :=
  let k := s.quad sl q
  k.st = .running ∧ k.pc ≤ 8191 ∧ (k.program.getD k.pc 0).toNat = w

/-- The state in which the quad's program counter has passed the word and the quad is then changed by `f`; nothing else is
changed. -/
def State.afterWord (s : State) (sl : SliceId) (q : QuadId) (f : Quad → Quad) : State :=
  s.onQuad sl q fun k => f (k.goTo (k.pc + 1))

/-- The segment of a quad has ended with a fault of a code: the quad is idle, and the fault is counted and kept. -/
def State.SegmentEnds (s t : State) (sl : SliceId) (q : QuadId) (code : Nat) : Prop :=
  (t.quad sl q).st = .idle ∧ (t.sl sl).arr.quadFaults = (s.sl sl).arr.quadFaults + 1 ∧ bits (t.sl sl).arr.quadLastFault 7 0 = code

/-! ### Writes through a door (R438) -/

/-- A write of the whole value of an entry through a door is judged: the access starts and leaves `u`, no handover of the management
controller holds it (R463), the door has no STR or BLOB half staged if the entry is one (R449), and the checks end with a code. -/
def State.Judges (s : State) (d : Door) (index sub c : Nat) (v : Bytes) (u : State) (code : Nat) : Prop :=
  s.startAccess d index sub 1 = some u ∧ u.fw.handing 33 = false ∧
  ∃ p e, u.principalOf d = some p ∧ entry? index sub = some e ∧ (typeWidth e.ty = 0 → u.stagedBy d = none) ∧ u.judgeWrite p e c v = code

/-- The write is accepted: every check passes. -/
def State.Takes (s : State) (d : Door) (index sub c : Nat) (v : Bytes) (u : State) : Prop := s.Judges d index sub c v u codeOk

/-- Where a command `i` writes an entry through a door and is not accepted, the entry stays: a check that fails gives its code, a door
that is busy loses the access, and a handover of the management controller keeps it waiting (R438, R450, R455, R463). -/
def State.TurnsAway (s : State) (i : Instr) (d : Door) (index sub c : Nat) (v : Bytes) : Prop :=
  (∀ (u : State) (code : Nat), s.Judges d index sub c v u code → codeDeferred < code → exec i s = .next (u.answer d code none)) ∧
  (s.startAccess d index sub 1 = none → exec i s = .next (s.lostAccess d)) ∧
  ∀ u : State, s.startAccess d index sub 1 = some u → u.fw.handing 33 = true →
    exec i s = .next { u with dict := { u.dict with queued := u.dict.queued ++ [.value d index sub c v] } }

/-! ### Frames -/

/-- Slices other than `i`, and everything outside the slices, are as they were. -/
def OnlySlice (s t : State) (i : Nat) : Prop := SameBut s t ∧ ∀ j, j ≠ i → t.sl j = s.sl j

/-- Every byte of a slice's memory outside `n` bytes from `a` reads as before. -/
def SameBytesOutside (x y : SliceState) (a n : Nat) : Prop := ∀ b, b < a ∨ a + n ≤ b → y.mem.read b = x.mem.read b

end Sys2Proof.Machine
end

