-- ==== Sys2Proof/Certificates/Slice0/Obligations.lean ====
section
/-! DEFINITION. The statements for the provers: what the manual's rules say that the commands, the machine and its reset do. -/

open Sys2Proof Sys2Proof.Machine

/-- A step carries out the command at the front of the queue. For every command c, every state s and every rest of
the queue: a step of s with c in front of that rest answers what exec answers for c on s with the rest as its
queue; with an empty queue the device idles and the step answers s (the idling is the model's choice, log 5).
Rests on 95_what_each_step_holds. -/
def Obligations.StepRunsFront : Prop :=
  (∀ (c : Instr) (rest : List Instr) (s : State), step { s with pending := c :: rest } = exec c { s with pending := rest }) ∧
  ∀ s : State, s.pending = [] → step s = .next s

/-- The state at reset has the shape of the device. At reset there are eight slices, each with memory in canonical
form, four engines of 64 threads with 32 registers and 8 predicates, eight quads of 16 registers and four arrays
of eight slots, eight ports and its internal links, and the 64 rings, 18 channels and 8 measurement registers;
nothing waits, no job is loaded and no slice memory lists a byte. Rests on R2, R16, R93, R146, R364, R422. -/
def Obligations.ResetInv : Prop :=
  State.reset.Inv ∧ State.reset.pending = [] ∧ State.reset.job = none ∧ ∀ x ∈ State.reset.slices, x.mem = [] ∧ x.flags = [] ∧ x.runs = []

/-- Every step keeps the shape of the device. For every state s with the shape Inv: if a step of s answers a next
state, that state has the shape too. So the memory of every slice stays in its canonical form, and no command
loses or adds a slice, an engine, a thread, a register, a quad, a port, a ring, a channel or a measurement
register. Rests on R2, R16, R87, R93, R146, R252, R364, R422. -/
def Obligations.StepKeepsInv : Prop :=
  ∀ s t : State, s.Inv → step s = .next t → t.Inv

/-- A step takes the front command and leaves the rest of the queue. For every state s whose queue is c followed by
rest: if a step answers a next state, its queue is rest, unchanged and in order, whatever the command c did.
Rests on 95_what_each_step_holds. -/
def Obligations.QueueIsFirstInFirstOut : Prop :=
  ∀ (s t : State) (c : Instr) (rest : List Instr), s.pending = c :: rest → step s = .next t → t.pending = rest

/-- Every command answers a next state. Whatever the command and the state, exec answers a next state: no command of
the device ends in a fault of the model or in a refusal. What each command does where its conditions hold is
said by the statements of its family. Rests on R110, R206, R491. -/
def Obligations.NoCommandStops : Prop :=
  ∀ (c : Instr) (s : State), Completes (exec c s)

/-- The arithmetic, predicate, branch and ordering instructions of a route program. When a thread may issue and its
guard holds, NOP changes nothing, MOVI, ADD, SUB, MUL, LOGIC and SHIFT write gD with the value of their row (a
write to g0 is discarded), CMP and PLOG write pD (a write to p0 is discarded), BR adds its immediate to the
program counter, FENCE LOCAL changes nothing and FENCE MARK adds the named slice to the marks of the thread. A
branch below the first word leaves 32,768, one past the program store. Beside that the thread only takes the
issue slot, where a thread that waited for a staged copy becomes READY, and its program counter passes the word:
no other register, predicate, thread, slice or byte of memory changes. Rests on R93, R95, R96, R97, R107. -/
def Obligations.RouteAlu : Prop :=
  ∀ (s : State) (sl : SliceId) (e : EngineId) (t : ThreadId) (w : Nat), s.Inv → s.Issues sl e t w →
    (s.thread sl e t).guardHolds w = true →
    let h := s.thread sl e t
    let op := bits w 63 58
    let fn := bits w 38 32
    let d := bits w 53 49
    let put (v : Word) : State := s.afterIssue sl e t fun k => { k with g := if d = 0 then k.g else k.g.set d v }
    let putP (v : Bool) : State :=
      s.afterIssue sl e t fun k => { k with p := if bits w 51 49 = 0 then k.p else k.p.set (bits w 51 49) v }
    let a := h.reg (bits w 48 44)
    let b := secondOperand h w
    (op = 0x00 → exec (.nop sl e t) s = .next (s.afterIssue sl e t id)) ∧
    (op = 0x01 → exec (.movi sl e t) s = .next (put (if bit fn 1 then BitVec.ofNat 64 ((h.reg d).toNat % 2 ^ 32 + bits w 31 0 * 2 ^ 32)
      else sext32 (bits w 31 0)))) ∧
    (op = 0x02 → exec (.add sl e t) s = .next (put (a + b))) ∧
    (op = 0x03 → exec (.sub sl e t) s = .next (put (a - b))) ∧
    (op = 0x04 → exec (.mul sl e t) s = .next (put (BitVec.ofNat 64 (a.toNat * b.toNat)))) ∧
    (op = 0x05 → exec (.logic sl e t) s = .next (put (
      if bits fn 2 1 = 0 then a &&& b else if bits fn 2 1 = 1 then a ||| b else if bits fn 2 1 = 2 then a ^^^ b else a &&& ~~~b))) ∧
    (op = 0x06 → bits fn 2 1 ≠ 3 → exec (.shift sl e t) s = .next (put (
      if bits fn 2 1 = 0 then a <<< (b.toNat % 64) else if bits fn 2 1 = 1 then a >>> (b.toNat % 64)
      else a.sshiftRight (b.toNat % 64)))) ∧
    (op = 0x07 → bits fn 3 1 < 6 → exec (.cmp sl e t) s = .next (putP (
      if bits fn 3 1 = 0 then decide (a = b) else if bits fn 3 1 = 1 then decide (a ≠ b)
      else if bits fn 3 1 = 2 then decide (a.toNat < b.toNat) else if bits fn 3 1 = 3 then decide (b.toNat ≤ a.toNat)
      else if bits fn 3 1 = 4 then decide (a.toInt < b.toInt) else decide (b.toInt ≤ a.toInt)))) ∧
    (op = 0x08 → exec (.plog sl e t) s = .next (putP (
      let x := h.pred (bits w 46 44)
      let y := h.pred (bits w 41 39)
      if bits fn 2 1 = 0 then x && y else if bits fn 2 1 = 1 then x || y else if bits fn 2 1 = 2 then x != y else x && !y))) ∧
    (op = 0x09 → exec (.br sl e t) s = .next (s.afterIssue sl e t fun k =>
      { k with pc := if (h.pc : Int) + sint32 (bits w 31 0) < 0 then 32768 else ((h.pc : Int) + sint32 (bits w 31 0)).toNat })) ∧
    (op = 0x29 → bits fn 2 1 = 0 → exec (.fenceLocal sl e t) s = .next (s.afterIssue sl e t id)) ∧
    (op = 0x29 → bits fn 2 1 = 1 → exec (.fenceMark sl e t) s = .next (s.afterIssue sl e t fun k =>
      { k with marks := if k.marks.contains (gaPlace a.toNat) then k.marks else k.marks ++ [gaPlace a.toNat] }))

/-- An instruction whose guard is false has no effect. For every instruction of a route program whose word is at the
program counter of a thread that may issue and whose guard is false: the thread takes the issue slot, where a
thread that waited for a staged copy becomes READY, and its program counter passes the word, and nothing else
changes. Commands that carry words found uncorrectable are those that carry none. Rests on R96. -/
def Obligations.RouteGuardFalse : Prop :=
  ∀ (s : State) (sl : SliceId) (e : EngineId) (t : ThreadId) (w : Nat), s.Issues sl e t w → (s.thread sl e t).guardHolds w = false →
    let go (i : Instr) : Prop := exec i s = .next (s.afterIssue sl e t id)
    let op := bits w 63 58
    let f1 := bit (bits w 38 32) 1
    let f2 := bits (bits w 38 32) 2 1
    (op = 0x00 → go (.nop sl e t)) ∧ (op = 0x01 → go (.movi sl e t)) ∧ (op = 0x02 → go (.add sl e t)) ∧
    (op = 0x03 → go (.sub sl e t)) ∧ (op = 0x04 → go (.mul sl e t)) ∧ (op = 0x05 → go (.logic sl e t)) ∧
    (op = 0x06 → go (.shift sl e t)) ∧ (op = 0x07 → go (.cmp sl e t)) ∧ (op = 0x08 → go (.plog sl e t)) ∧
    (op = 0x09 → go (.br sl e t)) ∧ (op = 0x0A → go (.halt sl e t)) ∧ (op = 0x10 → go (.ld { on := sl } e t)) ∧
    (op = 0x11 → go (.st sl e t)) ∧ (op = 0x12 → go (.xld sl e t)) ∧ (op = 0x13 → go (.xst sl e t)) ∧
    (op = 0x14 → f1 = false → go (.xcopyGet sl e t)) ∧ (op = 0x14 → f1 = true → go (.xcopyPut { on := sl } e t)) ∧
    (op = 0x15 → f1 = false → go (.xatomFadd sl e t)) ∧ (op = 0x15 → f1 = true → go (.xatomCas sl e t)) ∧
    (op = 0x18 → go (.score { on := sl } e t)) ∧ (op = 0x19 → go (.topk { on := sl } e t)) ∧
    (op = 0x1A → f1 = false → go (.capacityGrant sl e t)) ∧ (op = 0x1A → f1 = true → go (.capacityAssign sl e t)) ∧
    (op = 0x1B → go (.sort sl e t)) ∧ (op = 0x1C → go (.pack { on := sl } e t)) ∧ (op = 0x1D → go (.send { on := sl } e t)) ∧
    (op = 0x1E → go (.recv sl e t)) ∧ (op = 0x20 → go (.alloc sl e t)) ∧ (op = 0x21 → go (.done sl e t)) ∧
    (op = 0x22 → go (.free sl e t)) ∧ (op = 0x28 → go (.waitDrip sl e t)) ∧ (op = 0x29 → f2 = 0 → go (.fenceLocal sl e t)) ∧
    (op = 0x29 → f2 = 1 → go (.fenceMark sl e t)) ∧ (op = 0x29 → f2 = 2 → go (.fenceDrain sl e t)) ∧
    (op = 0x2A → go (.digest { on := sl } e t))

/-- LD and ST, and their bounds. LD of a width n inside the 24-bit local space reads n bytes of the engine's routing
SRAM, zero-extended, into gD, and where none of them is poisoned changes nothing else; where one is poisoned,
the requests tied to the stage of the thread are ended with FAULT as faultStage says. An LD, SEND, PACK, SCORE,
TOPK, DIGEST, XCOPY put or UNIT_COMPLETE that comes with words it finds uncorrectable acts as one that comes
with none after those words are found. ST of the low n bytes of gB into the shared region or the thread's own
window changes those n bytes alone; every other byte of the slice reads as before. An LD or ST outside its
bounds changes no register: the thread faults with LOCAL_BOUNDS, which is counted and kept in LAST_FAULT, and is
IDLE. That an ST over both of its writable ranges faults is the model's choice (log 132). Rests on R94, R96,
R97, R109. -/
def Obligations.RouteLocalMemory : Prop :=
  ∀ (s : State) (sl : SliceId) (e : EngineId) (t : ThreadId) (w : Nat), s.Inv → s.Issues sl e t w →
    (s.thread sl e t).guardHolds w = true →
    let h := s.thread sl e t
    let op := bits w 63 58
    let fn := bits w 38 32
    let d := bits w 53 49
    let put (v : Word) : State := s.afterIssue sl e t fun k => { k with g := if d = 0 then k.g else k.g.set d v }
    let faults (i : Instr) (code : Nat) : Prop := ∃ u : State, exec i s = .next u ∧ (u.thread sl e t).st = .idle ∧
      (u.thread sl e t).g = h.g ∧ (u.sl sl).routing.threadFaults = (s.sl sl).routing.threadFaults + 1 ∧
      bits (u.sl sl).routing.lastFault 7 0 = code
    let n := 2 ^ bits fn 2 1
    let a := (h.reg (bits w 48 44) + sext32 (bits w 31 0)).toNat
    let loaded (n a : Nat) : Word := BitVec.ofNat 64 (leNat ((List.range n).map fun i => (s.sl sl).mem.read (engineAddr e a + i)))
    let own := (0xC40000 ≤ a ∧ a + n ≤ 0xD00000) ∨ (0xD00000 + t.val * 0xC000 ≤ a ∧ a + n ≤ 0xD00000 + (t.val + 1) * 0xC000)
    (op = 0x10 → a + n ≤ 0x1000000 → (s.sl sl).poisoned (engineAddr e a) n = false →
      exec (.ld { on := sl } e t) s = .next (put (loaded n a))) ∧
    (op = 0x10 → a + n ≤ 0x1000000 → (s.sl sl).poisoned (engineAddr e a) n = true → ∀ r, (s.sl sl).threadRun e t = some r →
      exec (.ld { on := sl } e t) s = .next (((s.afterIssue sl e t id).faultStage sl r .fault).onThread sl e t fun k =>
        { k with g := if d = 0 then k.g else k.g.set d (loaded n a) })) ∧
    (op = 0x11 → own → ∃ u : State, exec (.st sl e t) s = .next u ∧ OnlySlice s u sl ∧
      u.thread sl e t = (s.afterIssue sl e t id).thread sl e t ∧ SameBytesOutside (s.sl sl) (u.sl sl) (engineAddr e a) n ∧
      ∀ i, i < n → (u.sl sl).mem.read (engineAddr e a + i) = BitVec.ofNat 8 ((h.reg (bits w 43 39)).toNat >>> (8 * i))) ∧
    (op = 0x10 → 0x1000000 < a + n → faults (.ld { on := sl } e t) 1) ∧ (op = 0x11 → ¬ own → faults (.st sl e t) 1) ∧
    ∀ bad : List Nat, exec (.ld ⟨sl, bad⟩ e t) s = exec (.ld { on := sl } e t) (s.findBad sl bad) ∧
      exec (.send ⟨sl, bad⟩ e t) s = exec (.send { on := sl } e t) (s.findBad sl bad) ∧
      exec (.pack ⟨sl, bad⟩ e t) s = exec (.pack { on := sl } e t) (s.findBad sl bad) ∧
      exec (.score ⟨sl, bad⟩ e t) s = exec (.score { on := sl } e t) (s.findBad sl bad) ∧
      exec (.topk ⟨sl, bad⟩ e t) s = exec (.topk { on := sl } e t) (s.findBad sl bad) ∧
      exec (.digest ⟨sl, bad⟩ e t) s = exec (.digest { on := sl } e t) (s.findBad sl bad) ∧
      exec (.xcopyPut ⟨sl, bad⟩ e t) s = exec (.xcopyPut { on := sl } e t) (s.findBad sl bad) ∧
      ∀ u, exec (.unitComplete ⟨sl, bad⟩ e u) s = exec (.unitComplete { on := sl } e u) (s.findBad sl bad)

/-- XLD and XCOPY get send a READ and the thread waits. Outside still-water mode and outside the thread's prefetch
set, an XLD of width n at an address that is a multiple of n, and an XCOPY get of 8 to 4,096 bytes, a multiple
of 8, between an address and a writable local buffer that are multiples of 8, put the thread in WAIT_MEM with
one more access outstanding, clear its FENCE MARK for the slice addressed, and send that slice one READ message
whose packet carries the offset, the length, the thread's CTX and FENCE where the slice was marked. A range that
lies in the prefetch set is read from the staged copy, and the thread is in WAIT_MEM until another instruction
of its engine issues; a range of which a piece has not been staged reads as zeros, the model's choice (log 136).
In still-water mode an XLD or XCOPY get outside the prefetch set faults with STILL_WATER. An XLD whose address
is no multiple of n faults with MISALIGN. An XCOPY get faults with UNIT_ARG for its length, with MISALIGN for an
end that is no multiple of 8, and with LOCAL_BOUNDS for a local end it may not write, tried in this order; that
these come before STILL_WATER is the model's choice (log 135). Rests on R92, R96, R97, R102, R104, R107, R111. -/
def Obligations.RouteRemoteLoads : Prop :=
  ∀ (s : State) (sl : SliceId) (e : EngineId) (t : ThreadId) (w : Nat), s.Inv → s.Issues sl e t w →
    (s.thread sl e t).guardHolds w = true →
    let h := s.thread sl e t
    let op := bits w 63 58
    let fn := bits w 38 32
    let d := bits w 53 49
    let faults (i : Instr) (code : Nat) : Prop := ∃ u : State, exec i s = .next u ∧ (u.thread sl e t).st = .idle ∧
      (u.thread sl e t).g = h.g ∧ (u.sl sl).routing.threadFaults = (s.sl sl).routing.threadFaults + 1 ∧
      bits (u.sl sl).routing.lastFault 7 0 = code
    let a := (h.reg (bits w 48 44) + sext32 (bits w 31 0)).toNat
    let pl : Place := { node := bits a 63 44, slice := bits a 43 41 }
    let sent (n : Nat) (iss : Issuer) : State :=
      ((s.afterBlock sl e t .waitMem fun k => { k with other := k.other + 1 }).onThread sl e t fun k =>
        { k with marks := k.marks.filter (· != pl) }).sendMsg sl
        { dst := pl, opcode := 0x10, parts := [(bits a 40 0, leBytes 8 n)], ctx := h.ctx, fence := h.marks.contains pl, issuer := iss }
    let n := 2 ^ bits fn 2 1
    let m := (h.reg (bits w 43 39)).toNat
    let l := (h.reg d).toNat
    let copy (k : Nat) : Bytes := ((s.sl sl).stagedBytes h.prefetchSet a k).getD (zeros k)
    (op = 0x12 → a % n = 0 → s.inPrefetch sl h.prefetchSet a n = false → s.still.on = false →
      exec (.xld sl e t) s = .next (sent n (.thread e t 0 d 0 n))) ∧
    (op = 0x12 → a % n = 0 → s.inPrefetch sl h.prefetchSet a n = true → exec (.xld sl e t) s = .next (s.afterBlock sl e t .waitMem fun k =>
        { k with staged := true, g := if d = 0 then k.g else k.g.set d (BitVec.ofNat 64 (leNat (copy n))) })) ∧
    (op = 0x12 → a % n = 0 → s.inPrefetch sl h.prefetchSet a n = false → s.still.on = true → faults (.xld sl e t) 5) ∧
    (op = 0x12 → a % n ≠ 0 → faults (.xld sl e t) 2) ∧
    (op = 0x14 → bit fn 1 = false → 8 ≤ m → m ≤ 4096 → m % 8 = 0 → a % 8 = 0 → l % 8 = 0 → localWrite t l m = true →
      (s.inPrefetch sl h.prefetchSet a m = false → s.still.on = false →
        exec (.xcopyGet sl e t) s = .next (sent m (.thread e t 2 0 l m))) ∧
      (s.inPrefetch sl h.prefetchSet a m = true → exec (.xcopyGet sl e t) s =
        .next ((s.afterBlock sl e t .waitMem fun k => { k with staged := true }).onSl sl fun x => x.store (engineAddr e l) (copy m))) ∧
      (s.inPrefetch sl h.prefetchSet a m = false → s.still.on = true → faults (.xcopyGet sl e t) 5)) ∧
    (op = 0x14 → bit fn 1 = false →
      ((m < 8 ∨ 4096 < m ∨ m % 8 ≠ 0) → faults (.xcopyGet sl e t) 4) ∧
      (8 ≤ m → m ≤ 4096 → m % 8 = 0 → (a % 8 ≠ 0 ∨ l % 8 ≠ 0) → faults (.xcopyGet sl e t) 2) ∧
      (8 ≤ m → m ≤ 4096 → m % 8 = 0 → a % 8 = 0 → l % 8 = 0 → localWrite t l m = false → faults (.xcopyGet sl e t) 1))

/-- XST and XCOPY put send a WRITE. An XST of width n at an address that is a multiple of n, with fewer than 16
outstanding, sends the slice addressed one WRITE of the low n bytes of gB, counts one more outstanding and does
not wait; with 16 outstanding the thread is in WAIT_MEM before it issues and its program counter stays. An XCOPY
put of unpoisoned local bytes sends them in one WRITE and the thread is in WAIT_MEM. FENCE goes on the packet
where the slice was marked, and the mark is cleared. A store to the address of a multicast group goes to the
group as one message without FENCE; where the place is marked the thread faults with UNIT_ARG. An XCOPY put to
the address of a multicast group goes to the group in the same way. An XST whose address is no multiple of n
faults with MISALIGN. An XCOPY put faults with UNIT_ARG for its length, with MISALIGN for an end that is no
multiple of 8, and with LOCAL_BOUNDS for a local end outside the two ranges, tried in this order (log 135).
Rests on R92, R96, R97, R102, R107, R274, R314. -/
def Obligations.RouteRemoteStores : Prop :=
  ∀ (s : State) (sl : SliceId) (e : EngineId) (t : ThreadId) (w : Nat), s.Inv → s.Issues sl e t w →
    (s.thread sl e t).guardHolds w = true →
    let h := s.thread sl e t
    let op := bits w 63 58
    let fn := bits w 38 32
    let d := bits w 53 49
    let faults (i : Instr) (code : Nat) : Prop := ∃ u : State, exec i s = .next u ∧ (u.thread sl e t).st = .idle ∧
      (u.thread sl e t).g = h.g ∧ (u.sl sl).routing.threadFaults = (s.sl sl).routing.threadFaults + 1 ∧
      bits (u.sl sl).routing.lastFault 7 0 = code
    let a := (h.reg (bits w 48 44) + sext32 (bits w 31 0)).toNat
    let pl : Place := { node := bits a 63 44, slice := bits a 43 41 }
    let write (b : Bytes) (iss : Issuer) (v : State) : State :=
      (v.onThread sl e t fun k => { k with marks := k.marks.filter (· != pl) }).sendMsg sl
        { dst := pl, opcode := 0x11, parts := [(bits a 40 0, b)], ctx := h.ctx, fence := h.marks.contains pl, issuer := iss }
    let n := 2 ^ bits fn 2 1
    let m := (h.reg (bits w 43 39)).toNat
    let l := (h.reg d).toNat
    (op = 0x13 → a % n = 0 → bits a 63 44 < 0xFFC00 → h.xst < 16 →
      exec (.xst sl e t) s = .next ((write (leBytes n m) (.thread e t 1 0 0 n) (s.afterIssue sl e t id)).onThread sl e t fun k =>
        { k with xst := k.xst + 1 })) ∧
    (op = 0x13 → a % n = 0 → 16 ≤ h.xst →
      exec (.xst sl e t) s = .next (s.afterBlock sl e t .waitMem fun k => { k with pc := h.pc, xstWait := true })) ∧
    (op = 0x14 → bit fn 1 = true → 8 ≤ m → m ≤ 4096 → m % 8 = 0 → a % 8 = 0 → l % 8 = 0 → localWrite t l m = true →
      bits a 63 44 < 0xFFC00 → (s.sl sl).poisoned (engineAddr e l) m = false →
      exec (.xcopyPut { on := sl } e t) s = .next (write ((s.sl sl).load (engineAddr e l) m) (.thread e t 3 0 0 m)
        (s.afterBlock sl e t .waitMem fun k => { k with other := k.other + 1 }))) ∧
    (∀ g, gaGroup a = some g → op = 0x13 → a % n = 0 → h.xst < 16 →
      (h.marks.contains pl = false → exec (.xst sl e t) s = .next (((s.afterIssue sl e t id).sendMsg sl
        { dst := { node := 0, slice := 0 }, group := some g, opcode := 0x15, parts := [(bits a 40 0, leBytes n m)], ctx := h.ctx,
          issuer := .thread e t 1 0 0 n }).onThread sl e t fun k => { k with xst := k.xst + 1 })) ∧
      (h.marks.contains pl = true → faults (.xst sl e t) 4)) ∧
    (op = 0x13 → a % n ≠ 0 → faults (.xst sl e t) 2) ∧
    (∀ g, gaGroup a = some g → op = 0x14 → bit fn 1 = true → 8 ≤ m → m ≤ 4096 → m % 8 = 0 → a % 8 = 0 → l % 8 = 0 →
      localWrite t l m = true → (s.sl sl).poisoned (engineAddr e l) m = false → h.marks.contains pl = false →
      exec (.xcopyPut { on := sl } e t) s = .next ((s.afterBlock sl e t .waitMem fun k => { k with other := k.other + 1 }).sendMsg sl
        { dst := { node := 0, slice := 0 }, group := some g, opcode := 0x15, parts := [(bits a 40 0, (s.sl sl).load (engineAddr e l) m)],
          ctx := h.ctx, issuer := .thread e t 3 0 0 m })) ∧
    (op = 0x14 → bit fn 1 = true →
      ((m < 8 ∨ 4096 < m ∨ m % 8 ≠ 0) → faults (.xcopyPut { on := sl } e t) 4) ∧
      (8 ≤ m → m ≤ 4096 → m % 8 = 0 → (a % 8 ≠ 0 ∨ l % 8 ≠ 0) → faults (.xcopyPut { on := sl } e t) 2) ∧
      (8 ≤ m → m ≤ 4096 → m % 8 = 0 → a % 8 = 0 → l % 8 = 0 → localWrite t l m = false → faults (.xcopyPut { on := sl } e t) 1))

/-- XATOM FADD and XATOM CAS send one request with a REQ_ID and the thread waits. An XATOM FADD at a multiple of 4,
or an XATOM CAS at a multiple of 8, puts the thread in WAIT_MEM and sends the slice addressed one message with
opcode 0x13 or 0x14 whose payload is the addend of 4 bytes and 4 zero bytes, or COMPARE from gD and NEW from gB,
and whose REQ_ID is the next one to that slice: 1 at first, one more each time, and 1 again after 0xFFFFFFFF. At
any other address the thread faults with MISALIGN. Rests on R92, R97, R102, R107, R310. -/
def Obligations.RouteAtomics : Prop :=
  ∀ (s : State) (sl : SliceId) (e : EngineId) (t : ThreadId) (w : Nat), s.Inv → s.Issues sl e t w →
    (s.thread sl e t).guardHolds w = true →
    let h := s.thread sl e t
    let op := bits w 63 58
    let fn := bits w 38 32
    let d := bits w 53 49
    let faults (i : Instr) (code : Nat) : Prop := ∃ u : State, exec i s = .next u ∧ (u.thread sl e t).st = .idle ∧
      (u.thread sl e t).g = h.g ∧ (u.sl sl).routing.threadFaults = (s.sl sl).routing.threadFaults + 1 ∧
      bits (u.sl sl).routing.lastFault 7 0 = code
    let a := (h.reg (bits w 48 44) + sext32 (bits w 31 0)).toNat
    let pl : Place := { node := bits a 63 44, slice := bits a 43 41 }
    let id0 : Nat := ((s.sl sl).remote.reqIds.find? fun r => r.1 == pl).elim 1 fun r => r.2
    let v : State := (s.afterBlock sl e t .waitMem fun k => { k with other := k.other + 1 }).onSl sl fun x =>
      let y := x.onThread e t fun k => { k with marks := k.marks.filter (· != pl) }
      { y with remote := { y.remote with
          reqIds := (y.remote.reqIds.filter fun r => r.1 != pl) ++ [(pl, if id0 = 0xFFFFFFFF then 1 else id0 + 1)] } }
    let sent (o : Nat) (b : Bytes) (kind : Nat) : State := v.sendMsg sl
      { dst := pl, opcode := o, parts := [(bits a 40 0, b)], ctx := h.ctx, fence := h.marks.contains pl, reqId := id0,
        issuer := .thread e t kind d 0 8 }
    (op = 0x15 → bit fn 1 = false → a % 4 = 0 →
      exec (.xatomFadd sl e t) s = .next (sent 0x13 (leBytes 4 (h.reg (bits w 43 39)).toNat ++ zeros 4) 4)) ∧
    (op = 0x15 → bit fn 1 = true → a % 8 = 0 →
      exec (.xatomCas sl e t) s = .next (sent 0x14 (leBytes 8 (h.reg d).toNat ++ leBytes 8 (h.reg (bits w 43 39)).toNat) 5)) ∧
    (op = 0x15 → bit fn 1 = false → a % 4 ≠ 0 → faults (.xatomFadd sl e t) 2) ∧
    (op = 0x15 → bit fn 1 = true → a % 8 ≠ 0 → faults (.xatomCas sl e t) 2)

/-- SCORE, TOPK, CAPACITY, SORT, PACK and DIGEST start their unit. The thread enters WAIT_UNIT for the unit of the
instruction and leaves the issue slot. When the unit is not in use, it does the work of the instruction on the
operands, as unitWork says, and it is in use by the thread until it completes; when it is in use, the thread
waits for it with its word. For SCORE, TOPK, CAPACITY and SORT a descriptor inside the local space whose fields
are legal is all the unit asks. PACK asks for a layer, a buffer, a member of the job as destination, a list
inside the unit region or the shared region and blocks that fit in the buffer. DIGEST asks nothing. An operand
the unit refuses faults the thread with UNIT_ARG and leaves the units as they were. A DIGEST of more than
4,194,304 bytes faults with UNIT_ARG, and one with an end out of bounds with LOCAL_BOUNDS, the code being the
model's reading (log 137). Rests on R61, R67, R76, R77, R80, R97, R99, R108, R122. -/
def Obligations.RouteUnitStarts : Prop :=
  ∀ (s : State) (sl : SliceId) (e : EngineId) (t : ThreadId) (w : Nat), s.Inv → s.Issues sl e t w →
    (s.thread sl e t).guardHolds w = true →
    let h := s.thread sl e t
    let op := bits w 63 58
    let fn := bits w 38 32
    let d := bits w 53 49
    let faults (i : Instr) (code : Nat) : Prop := ∃ u : State, exec i s = .next u ∧ (u.thread sl e t).st = .idle ∧
      (u.thread sl e t).g = h.g ∧ (u.sl sl).routing.threadFaults = (s.sl sl).routing.threadFaults + 1 ∧
      bits (u.sl sl).routing.lastFault 7 0 = code
    let wait (u : EngineUnit) : State := (s.afterIssue sl e t id).blockThread sl e t (.waitUnit u)
    let idle (u : EngineUnit) : Prop := (((s.sl sl).engine e).busy.any fun b => b.1 == u) = false
    let starts (i : Instr) (u : EngineUnit) : Prop :=
      (idle u → ∀ v : State, (wait u).unitWork sl e t u w = some v →
        exec i s = .next (v.onSl sl fun x => x.onEngine e fun g => { g with busy := g.busy ++ [(u, t.val)] })) ∧
      (idle u → (wait u).unitWork sl e t u w = none → ∃ v : State, exec i s = .next v ∧ (v.thread sl e t).st = .idle ∧
        ((v.sl sl).engine e).busy = ((s.sl sl).engine e).busy ∧ bits (v.sl sl).routing.lastFault 7 0 = 4) ∧
      (¬ idle u → exec i s = .next ((wait u).onSl sl fun x => x.onEngine e fun g =>
        { g with waits := g.waits ++ [⟨u, t, BitVec.ofNat 64 w⟩] }))
    let n := (h.reg (bits w 43 39)).toNat
    let a := (h.reg (bits w 48 44)).toNat
    let desc := a + 32 ≤ 0x1000000 ∧ descOk (leNat ((s.sl sl).load (engineAddr e a) 32)) = true
    (op = 0x18 → starts (.score { on := sl } e t) .scoring) ∧ (op = 0x19 → starts (.topk { on := sl } e t) .topk) ∧
    (op = 0x1A → bit fn 1 = false → starts (.capacityGrant sl e t) .capacity) ∧
    (op = 0x1A → bit fn 1 = true → starts (.capacityAssign sl e t) .capacity) ∧
    (op = 0x1B → starts (.sort sl e t) .sorter) ∧ (op = 0x1C → starts (.pack { on := sl } e t) .pack) ∧
    (op = 0x2A → n ≤ 4194304 → localRead a n = true → localWrite t (h.reg d).toNat 64 = true → starts (.digest { on := sl } e t) .digest) ∧
    (op = 0x2A → 4194304 < n → faults (.digest { on := sl } e t) 4) ∧
    (op = 0x2A → n ≤ 4194304 → ¬ (localRead a n = true ∧ localWrite t (h.reg d).toNat 64 = true) → faults (.digest { on := sl } e t) 1) ∧
    (∀ u ∈ [EngineUnit.scoring, .topk, .capacity, .sorter], (((wait u).unitWork sl e t u w).isSome = true ↔ desc)) ∧
    ((wait .digest).unitWork sl e t .digest w).isSome = true ∧
    (∀ r li back b, (s.sl sl).threadRun e t = some r → (wait .pack).packLayer sl a r = some (li, back) →
      (s.sl sl).pools.match? (h.reg d).toNat = some b → bits n 40 0 = 0 → s.members.contains (placeOf n) = true →
      let v := wait .pack
      let k := if back then ((v.sl sl).returnRowsOf li.layer).length else ((v.sl sl).dispatchList li.layer).length
      let list := (v.sl sl).sortedList e a k
      let data := (if back then v.returnBlocks sl li r list (placeOf n) (bit fn 1) else (v.dispatchBlocks sl li r list (placeOf n) (bit fn 1)).1).flatten
      (a + 16 * k ≤ 0xC00000 ∨ (0xC40000 ≤ a ∧ a + 16 * k ≤ 0xD00000)) → data.length ≤ classSize b.cls →
      ∃ y : State, v.unitWork sl e t .pack w = some y ∧ (d ≠ 0 → (y.thread sl e t).reg d = BitVec.ofNat 64 data.length))

/-- HALT, RECV, WAIT_DRIP and FENCE DRAIN. HALT makes the thread IDLE, and the last thread of a ROUTE phase
completes it, unless a thread of it was stopped before its HALT. RECV leaves the thread READY where the flag is
set and waiting for it where it is not. WAIT_DRIP names the launch drip or the frame start plus IMM: a later
drip is waited for; a drip that has come is counted as late outside still-water mode, and in still-water mode
the thread waits and its stage is marked as missed. FENCE DRAIN waits only while an access is outstanding. Rests
on R89, R91, R101, R106, R107. -/
def Obligations.RouteWaits : Prop :=
  ∀ (s : State) (sl : SliceId) (e : EngineId) (t : ThreadId) (w : Nat), s.Inv → s.Issues sl e t w →
    (s.thread sl e t).guardHolds w = true →
    let h := s.thread sl e t
    let op := bits w 63 58
    let fn := bits w 38 32
    let imm := bits w 31 0
    let base : Drip := if bit fn 1 then h.launchDrip else match (s.sl sl).threadRun e t with | some r => r.frame | none => s.frame
    let at_ : Drip := base.plus imm
    (op = 0x0A → ∃ u : State, exec (.halt sl e t) s = .next u ∧ (u.thread sl e t).st = .idle ∧ (u.thread sl e t).g = h.g ∧
      ∀ r, (s.sl sl).threadRun e t = some r → r.entry.kind = .route → r.stopped = false →
        (∀ k ∈ r.threads, k ≠ t.val → (((s.sl sl).engine e).thread k).st = .idle) →
        ∀ v ∈ (u.sl sl).runs, v.idx = r.idx → v.frame = r.frame → v.st = .completed) ∧
    (op = 0x1E → exec (.recv sl e t) s = .next (s.afterBlock sl e t
      (if (s.sl sl).flags.contains imm then .ready else .waitFlag imm) id)) ∧
    (op = 0x28 → Drip.later at_ s.now = true → exec (.waitDrip sl e t) s = .next (s.afterBlock sl e t (.waitDrip at_) id)) ∧
    (op = 0x28 → Drip.later at_ s.now = false → s.still.on = false →
      exec (.waitDrip sl e t) s = .next ((s.afterIssue sl e t id).onSl sl fun x =>
        { x with routing := { x.routing with lateWaits := x.routing.lateWaits + 1 } })) ∧
    (op = 0x28 → Drip.later at_ s.now = false → s.still.on = true → ∃ u : State, exec (.waitDrip sl e t) s = .next u ∧
      (u.thread sl e t).st = .waitDrip at_ ∧
      ∀ r, (s.sl sl).threadRun e t = some r → ∀ v ∈ (u.sl sl).runs, v.idx = r.idx → v.frame = r.frame → v.lateInput = true) ∧
    (op = 0x29 → bits fn 2 1 = 2 → exec (.fenceDrain sl e t) s = .next (
      if h.xst = 0 ∧ h.other = 0 then s.afterBlock sl e t .ready id
      else s.afterBlock sl e t .waitMem fun k => { k with drain := true }))

/-- Waking, yielding, the completion of a unit and a range prefetch. WAIT_DRIP_WAKE makes a thread READY whose drip
has come and whose stage has not missed. THREAD_YIELD makes the running thread READY once it has issued 64
instructions in a row, and frees the issue slot. A unit other than the combine unit, and a scoring unit only
once it has scored every panel of its engine or its stage has ended, is freed by UNIT_COMPLETE, which makes its
thread READY and then grants the unit to the threads that wait for it, as grantWaiters says; before that
UNIT_COMPLETE leaves the scoring unit in use. RANGE_PREFETCH of a range of the own slice whose pieces can all be
read completes its stage with a staged copy of the bytes of every piece; where a piece cannot be read, the
requests tied to the stage end with PROTECTION and the pieces that can be read are staged. Of a range of another
slice it sends that slice one READ for each piece, scheduled in SCHEDULED mode. Rests on R91, R99, R104, R106. -/
def Obligations.RouteEngineActs : Prop :=
  ∀ (s : State) (sl : SliceId) (e : EngineId), s.Inv →
    (∀ (t : ThreadId) (d : Drip), (s.thread sl e t).st = .waitDrip d → Drip.later d s.now = false →
      (∀ r, (s.sl sl).threadRun e t = some r → r.lateInput = false) →
      exec (.waitDripWake sl e t) s = .next (s.onThread sl e t fun k => { k with st := .ready })) ∧
    (∀ t : ThreadId, ((s.sl sl).engine e).running = some t.val → 64 ≤ (s.thread sl e t).issued →
      exec (.threadYield sl e) s = .next (s.onSl sl fun x => x.onEngine e fun g =>
        { (g.onThread t fun k => { k with st := .ready }) with running := none, last := t })) ∧
    (∀ (u : EngineUnit) (t : ThreadId), u ≠ .combine → ((s.sl sl).engine e).busy.find? (fun b => b.1 == u) = some (u, t.val) →
      (s.thread sl e t).st = .waitUnit u → (((s.sl sl).engine e).waits.any fun k => k.unit == u && k.thread == t.val) = false →
      (u = .scoring → s.passDone sl e = true ∨ s.passLive sl e = false) →
      exec (.unitComplete { on := sl } e u) s = .next ((s.onSl sl fun x => x.onEngine e fun g =>
        { (g.onThread t fun k => { k with st := .ready }) with busy := g.busy.eraseP (· == (u, t.val)) }).grantWaiters sl e u 64)) ∧
    (((s.sl sl).engine e).busy.any (fun b => b.1 == .scoring) = true → s.passDone sl e = false → s.passLive sl e = true → s.still.on = false →
      exec (.unitComplete { on := sl } e .scoring) s = .next s) ∧
    (∀ (i : Nat) (r : Run) (v : State) (g : Range), s.actingRun sl i .rangePrefetch = some (r, v) →
      ((v.img sl).prefetchSets.getD (r.entry.f.prefetchSet - 1) []).getD r.entry.f.range default = g →
      let parts := payloadParts g.base (zeros g.len)
      let got := parts.filterMap fun p => ((v.sl sl).readBytes? (gaOffset p.1) p.2.length).map fun b => (p.1, b)
      let staged (ps : List (Nat × Bytes)) (x : SliceState) : SliceState :=
        { x with tiers := { x.tiers with staged :=
            (x.tiers.staged.filter fun k => !(k.1 == r.entry.f.prefetchSet && k.2.1 == r.entry.f.range)) ++
              [(r.entry.f.prefetchSet, r.entry.f.range, ps)] } }
      (gaPlace g.base = v.place sl → (∀ p ∈ parts, ((v.sl sl).readBytes? (gaOffset p.1) p.2.length).isSome = true) →
        exec (.rangePrefetch sl i) s = .next (v.onSl sl fun x => (staged got x).completeRun r)) ∧
      (gaPlace g.base = v.place sl → (∃ p ∈ parts, (v.sl sl).readBytes? (gaOffset p.1) p.2.length = none) →
        exec (.rangePrefetch sl i) s = .next ((v.onSl sl (staged got)).endTied sl r v.now (v.now.plus 1) .protection)) ∧
      (gaPlace g.base ≠ v.place sl → exec (.rangePrefetch sl i) s = .next (parts.foldl (fun (y : State) p => y.sendMsg sl
          { dst := gaPlace p.1, opcode := 0x10, parts := [(gaOffset p.1, leBytes 8 p.2.length)], ctx := 255,
            issuer := .prefetch r.idx p.1 r.frame, sched := v.pkg.congestionMode == 0 }) (v.onSl sl (staged [])))))

/-- ALLOC, DONE and FREE of a thread, and the acts of the pool manager. An ALLOC that is granted writes the handle
to gD and puts the account after the grant in force; one that no class can grant writes 0 under no-wait, and
otherwise outside still-water mode the thread waits in WAIT_POOL and its request joins the end of the queue,
while in still-water mode it faults with POOL_EMPTY. An ALLOC whose owner list breaks its rule, or whose length
no class serves, faults with UNIT_ARG. An accepted DONE sets the owner's bit of the buffer; an accepted FREE
sets pD, releases the buffer and raises its generation by 1; a rejected one clears pD, and one that is not a
stale handle is counted and kept in POOL_LAST_REJECT. No other buffer changes. Before a job has configured the
pools, and under an owner that is not declared, each of the three faults with UNIT_ARG. POOL_RETRY retries the
waiting ALLOCs in queue order: one that is granted writes the handle to the register it named, makes its thread
READY and leaves the queue; one that is still refused changes nothing. POOL_LOW_RESET makes every LOW_FREE the
number of free buffers of its class; POOL_REJECT_CLEAR clears VALID of POOL_LAST_REJECT and keeps its other
bits; neither changes anything else. Rests on R105, R237, R239, R241, R242, R243, R244, R245, R248, R250. -/
def Obligations.PoolInstructions : Prop :=
  (∀ (s : State) (sl : SliceId) (e : EngineId) (t : ThreadId) (w : Nat), s.Inv → s.Issues sl e t w →
    (s.thread sl e t).guardHolds w = true →
    let h := s.thread sl e t
    let op := bits w 63 58
    let fn := bits w 38 32
    let d := bits w 53 49
    let a := h.reg (bits w 48 44)
    let p := (s.sl sl).pools
    let faults (i : Instr) (code : Nat) : Prop := ∃ u : State, exec i s = .next u ∧ (u.thread sl e t).st = .idle ∧
      bits (u.sl sl).routing.lastFault 7 0 = code ∧ (u.sl sl).pools.bufs = p.bufs
    (op = 0x20 → s.ownerList sl e h w = none → faults (.alloc sl e t) 4) ∧
    (∀ l, s.ownerList sl e h w = some l → op = 0x20 →
      (bits w 43 39 = 0 ∨ (s.sl sl).poisoned (engineAddr e (h.reg (bits w 43 39)).toNat) 16 = false) →
      (∀ q, p.alloc h.owner a.toNat l h.ctx = (.unitArg, q) → faults (.alloc sl e t) 4) ∧
      (∀ q, p.alloc h.owner a.toNat l h.ctx = (.exhausted, q) → bit fn 1 = false → s.still.on = true → faults (.alloc sl e t) 6) ∧
      (∀ hd c i q, p.alloc h.owner a.toNat l h.ctx = (.granted hd c i, q) → exec (.alloc sl e t) s = .next
        ((s.afterIssue sl e t fun k => { k with g := if d = 0 then k.g else k.g.set d hd }).onSl sl fun x => { x with pools := q })) ∧
      (∀ q, p.alloc h.owner a.toNat l h.ctx = (.exhausted, q) → bit fn 1 = true → exec (.alloc sl e t) s = .next
        ((s.afterIssue sl e t fun k => { k with g := if d = 0 then k.g else k.g.set d 0 }).onSl sl fun x => { x with pools := q })) ∧
      (∀ q, p.alloc h.owner a.toNat l h.ctx = (.exhausted, q) → bit fn 1 = false → s.still.on = false →
        exec (.alloc sl e t) s = .next ((s.afterBlock sl e t .waitPool id).onSl sl fun x => { x with pools :=
          { q with
            poolWaits := q.poolWaits + 1
            waits := q.waits ++ [{ engine := e, thread := t, bytes := a.toNat, list := l, reg := d, owner := h.owner, ctx := h.ctx }] } }))) ∧
    (op = 0x21 → p.serves h.owner = true → judgeDoneFree p false h.owner a.toNat = none →
      ∃ u : State, exec (.done sl e t) s = .next u ∧ (u.sl sl).pools.bufs = p.bufs.map fun x =>
        if some (x.cls, x.idx) = p.named a.toNat then
          { x with done := x.done ||| 2 ^ ((ownerIndex ((p.match? a.toNat).elim [] Buf.list) h.owner).getD 0) } else x) ∧
    (op = 0x22 → p.serves h.owner = true → judgeDoneFree p true h.owner a.toNat = none →
      ∃ u : State, exec (.free sl e t) s = .next u ∧ (u.thread sl e t).pred (bits w 51 49) = true ∧
        (u.sl sl).pools.bufs = p.bufs.map fun x =>
          if some (x.cls, x.idx) = p.named a.toNat ∧ x.alloc = true then
            { x with alloc := false, gen := (x.gen + 1) % 256, done := 0, torn := false } else x) ∧
    (op = 0x22 → p.serves h.owner = true → ∀ r, judgeDoneFree p true h.owner a.toNat = some r →
      ∃ u : State, exec (.free sl e t) s = .next u ∧ (bits w 51 49 ≠ 0 → (u.thread sl e t).pred (bits w 51 49) = false) ∧
        (u.sl sl).pools.bufs = p.bufs ∧
        ((r = 2 ∧ p.staleTorn a.toNat = true) → (u.sl sl).pools.stale = p.stale + 1 ∧ (u.sl sl).pools.rejected = p.rejected) ∧
        (¬ (r = 2 ∧ p.staleTorn a.toNat = true) → (u.sl sl).pools.rejected = p.rejected + 1 ∧
          (u.sl sl).pools.lastReject = rejectWord a.toNat h.owner true r)) ∧
    (p.serves h.owner = false → ∀ i ∈ [(0x20, Instr.alloc sl e t), (0x21, .done sl e t), (0x22, .free sl e t)], op = i.1 → faults i.2 4)) ∧
  ∀ (s : State) (sl : SliceId),
    (let retry (v : State) (k : PoolWait) : State :=
      match (v.sl sl).pools.alloc k.owner k.bytes k.list k.ctx with
      | (.granted h _ _, q) => v.onSl sl fun x =>
          ({ x with pools := { q with waits := q.waits.filter (· != k) } }).onThread k.engine k.thread fun y =>
            { y with st := .ready, g := if k.reg = 0 then y.g else y.g.set k.reg h }
      | _ => v
    exec (.poolRetry sl) s = .next ((s.sl sl).pools.waits.foldl retry s)) ∧
    exec (.poolLowReset sl) s = .next (s.onSl sl fun x => { x with pools := { x.pools with
      classes := (List.range 6).map fun c => { x.pools.cls c with lowFree := x.pools.free c } } }) ∧
    exec (.poolRejectClear sl) s = .next (s.onSl sl fun x => { x with pools := { x.pools with
      lastReject := x.pools.lastReject % 2 ^ 63 } })

/-- A grant takes a free buffer that the owner's reserve or limit allows. Whenever an allocation is granted in class
c with buffer i: i is below the class's count and was not allocated, its buffers fit the request, the owner was
below its reserve in the class, or was below its limit with more buffers free than the unused reserves of all
owners, and the handle names the class. The queue of waiting ALLOCs is untouched and one grant is counted. Rests
on R239, R240, R241. -/
def Obligations.PoolGrantKeepsReserves : Prop :=
  ∀ (p q : Pools) (o n c i ctx : Nat) (l : List Nat) (h : Word), p.alloc o n l ctx = (.granted h c i, q) →
    c < 6 ∧ n ≤ classSize c ∧ i < (p.cls c).count ∧ (∀ b, p.buf? c i = some b → b.alloc = false) ∧
    (p.held o c < ownerRes (p.owner o) c ∨ (p.held o c < ownerLim (p.owner o) c ∧ p.unused c < p.free c)) ∧
    bits h.toNat 43 41 = c ∧ q.waits = p.waits ∧ q.allocs = p.allocs + 1

/-- SEND queues the packed blocks to the injection of the phase. In SCHEDULED mode a SEND whose offset and length
are those of blocks that PACK left for one destination, and whose IMM is an injection of the thread's phase, its
own or a further one that the phase owns, appends those blocks to the queue of the injection, each with its
destination and its bytes, and FENCE on the first where the destination was marked, and notes them as sent; the
mark is cleared, and a poisoned word among the bytes ends the requests tied to the phase as readFor says. In
MARKED mode what is queued for the injection then leaves as far as injectMarked allows. Where the thread runs no
phase, where offset and length are those of no such blocks, or where the phase does not own the injection, the
thread faults with UNIT_ARG and is IDLE. Rests on R97, R100, R107, R109, R124, R125. -/
def Obligations.ExchangeSend : Prop :=
  ∀ (s : State) (sl : SliceId) (e : EngineId) (t : ThreadId) (w : Nat), s.Inv → s.Issues sl e t w →
    (s.thread sl e t).guardHolds w = true → bits w 63 58 = 0x1D →
    let h := s.thread sl e t
    let x := s.sl sl
    let off := bits (h.reg (bits w 48 44)).toNat 40 0
    let n := (h.reg (bits w 43 39)).toNat
    (∀ (u : Run) (pl : Place) (lens : List Nat), x.threadRun e t = some u → x.exch.blocksAt off n = some (pl, lens) →
      (u.entry.f.injection = bits w 31 0 ∨ u.entry.f.owns.contains (bits w 31 0) = true) →
      let qs : List QueuedMsg := (cutAt lens (x.load off n)).zipIdx.map fun b =>
        { injection := bits w 31 0, dst := pl, data := b.1, fence := b.2 == 0 && h.marks.contains pl }
      let v := (((s.afterIssue sl e t id).readFor sl (some u) [(off, n)]).onThread sl e t fun k =>
          { k with marks := k.marks.filter (· != pl) }).onSl sl fun y =>
        { y with exch := { y.exch with injections := y.exch.injections ++ qs, sent := y.exch.sent ++ qs.map (sentBlock u.frame) } }
      (s.pkg.congestionMode ≠ 1 ∨ qs = [] → exec (.send { on := sl } e t) s = .next v) ∧
      (∀ (q : QueuedMsg) (rest : List QueuedMsg), qs = q :: rest → s.pkg.congestionMode = 1 → exec (.send { on := sl } e t) s =
        .next (v.injectMarked sl u (bits w 31 0) (blockHeader (leNat (q.data.take 64)))))) ∧
    ((x.threadRun e t).isNone = true ∨ (x.exch.blocksAt off n).isNone = true ∨
        (∃ u : Run, x.threadRun e t = some u ∧ u.entry.f.injection ≠ bits w 31 0 ∧ u.entry.f.owns.contains (bits w 31 0) = false) →
      ∃ u : State, exec (.send { on := sl } e t) s = .next u ∧ (u.thread sl e t).st = .idle ∧ bits (u.sl sl).routing.lastFault 7 0 = 4)

/-- Count, grant, view and pass-digest records land or are discarded. A count or grant record that a stage of its
layer waits for, whose header is right for that stage, whose reserved bits are 0, whose length and entry count
are those of the layer in that pass, whose source is a slice of the job, or for a grant one that holds a
replica, and has not landed before joins the records of the slice; when the last source has landed the input
flag of GRANT or of ASSIGN is set. A view record of the frame joins the next view with the code of every slot of
its slice, and a pass-digest record the digests of the pass that its tag names. A record that lands is written
to the buffer that the image names for its source, and sets the presence flag of that buffer. A record of any of
the four kinds that is not such a one is discarded: it is counted in EXCH_DISCARDED and changes neither memory
nor flags nor any record. Rests on R73, R74, R75, R124, R217, R406. -/
def Obligations.RecordsLand : Prop :=
  ∀ (s : State) (sl : SliceId) (src : Place) (msg : Bytes), s.Inv →
    let h := leNat (msg.take 16)
    let x := s.sl sl
    let head (k : Nat) : Prop := rKind h = k ∧ rReservedOk h = true ∧ rSrc h = src ∧ src ∈ s.members
    let landed (t : State) (bufs : List RecordBuf) : Prop := ∀ b, bufs.find? (fun k => k.src == src) = some b →
      (t.sl sl).load b.addr msg.length = msg ∧ ∀ f, b.flag = some f → f ∈ (t.sl sl).flags
    let discards (i : Instr) : Prop := ∃ t : State, exec i s = .next t ∧ (t.sl sl).exch.discarded = x.exch.discarded + 1 ∧
      (t.sl sl).routing = x.routing ∧ (t.sl sl).tiers = x.tiers ∧ (t.sl sl).svc = x.svc ∧ (t.sl sl).mem = x.mem ∧ (t.sl sl).flags = x.flags
    let dc (li : LayerInfo) : Nat := x.passDesc (s.tagFrame sl .grant (rLayer h) (rTag h)) li.mainDesc
    let da (li : LayerInfo) : Nat := x.passDesc (s.tagFrame sl .assign (rLayer h) (rTag h)) li.mainDesc
    let n (li : LayerInfo) : Nat := (slotsAt x (dc li) (s.place sl)).length * perSlot (dc li)
    let m (li : LayerInfo) : Nat := (slotsAt x (da li) src).length * perSlot (da li)
    let isCount (li : LayerInfo) : Prop := head 1 ∧ rOrder h = dOrder (dc li) ∧ rEntries h = n li ∧ msg.length = 16 + 2 * n li ∧
      (x.expecting .grant (rLayer h) (rTag h)).isSome = true ∧
      ∀ c ∈ x.routing.counts, ¬ (c.layer = rLayer h ∧ c.tag = rTag h ∧ c.src = src)
    let isGrant (li : LayerInfo) : Prop := head 2 ∧ rOrder h = dOrder (da li) ∧ rEntries h = m li ∧ msg.length = 16 + 4 * m li ∧
      src ∈ s.holders sl (da li) ∧ (∀ k ∈ entries32 msg (m li), bits k 31 28 = 0) ∧
      (x.expecting .assign (rLayer h) (rTag h)).isSome = true ∧
      ∀ c ∈ x.routing.grants, ¬ (c.layer = rLayer h ∧ c.tag = rTag h ∧ c.src = src)
    let isView : Prop := head 7 ∧ rLayer h = (s.viewLayers sl).1 ∧ rEntries h = 512 * (s.viewLayers sl).2 ∧
      msg.length = 16 + ceilDiv (rEntries h) 4 ∧ s.tagInFrame (rTag h) = true ∧ src ∉ x.tiers.viewLanded
    let isDigest : Prop := head 8 ∧ rLayer h = 0 ∧ rEntries h = 1 ∧ msg.length = 88 ∧ (∀ b ∈ msg.drop 81, b = 0) ∧
      (∀ g ∈ (x.svc.passOf (s.digestFrame sl (rTag h))).digests, g.1 ≠ src) ∧ s.expectsDigest sl (rTag h) = true
    (s.layer? sl (rLayer h) = none → discards (.countRecord sl src msg) ∧ discards (.grantRecord sl src msg)) ∧
    (∀ li : LayerInfo, s.layer? sl (rLayer h) = some li →
      (isCount li → ∃ t : State, exec (.countRecord sl src msg) s = .next t ∧ landed t li.countBufs ∧
          (t.sl sl).routing.counts = x.routing.counts ++ [⟨src, rLayer h, rTag h, entries16 msg (n li)⟩] ∧
          ((∀ p ∈ s.members, p ∈ x.fabric.lost ∨ ∃ c ∈ (t.sl sl).routing.counts, c.layer = rLayer h ∧ c.tag = rTag h ∧ c.src = p) →
            li.countFlag ∈ (t.sl sl).flags)) ∧
      (¬ isCount li → discards (.countRecord sl src msg)) ∧
      (isGrant li → ∃ t : State, exec (.grantRecord sl src msg) s = .next t ∧ landed t li.grantBufs ∧
          (t.sl sl).routing.grants = x.routing.grants ++
            [⟨src, rLayer h, rTag h, (entries32 msg (m li)).map fun k => (bits k 15 0, bits k 27 16)⟩] ∧
          ((∀ p ∈ (t.holders sl (da li)), ∃ c ∈ (t.sl sl).routing.grants, c.layer = rLayer h ∧ c.tag = rTag h ∧ c.src = p) →
            li.grantFlag ∈ (t.sl sl).flags)) ∧
      (¬ isGrant li → discards (.grantRecord sl src msg))) ∧
    (isView → ∃ t : State, exec (.viewRecord sl src msg) s = .next t ∧ landed t (s.img sl).viewBufs ∧
        (t.sl sl).tiers.viewLanded = x.tiers.viewLanded ++ [src] ∧ (t.sl sl).tiers.view = x.tiers.view ∧
        ∀ li ∈ (s.img sl).layers, ∀ r ∈ slotsAt x (x.passDesc s.nextFrame li.mainDesc) src,
          let i := 512 * (li.layer - rLayer h) + 64 * r.2.2.quad + r.2.2.slot
          ⟨src, li.layer, r.2.2, ((msg.getD (16 + i / 4) 0).toNat >>> (2 * (i % 4))) % 4⟩ ∈ (t.sl sl).tiers.viewNext) ∧
    (¬ isView → discards (.viewRecord sl src msg)) ∧
    (isDigest → ∃ t : State, exec (.passDigestRecord sl src msg) s = .next t ∧ landed t (s.img sl).digestBufs ∧
        (t.sl sl).svc = x.svc.onPass (s.digestFrame sl (rTag h)) fun p =>
          { p with digests := p.digests ++ [(src, slice msg 16 64, (msg.getD 80 0).toNat)] }) ∧
    (¬ isDigest → discards (.passDigestRecord sl src msg))

/-- A router panel lands, and a lookahead count is ranked. A panel that is the next of an engine's loads, with fewer
than two panel buffers held, is copied into the buffer whose turn it is, or into the other where that one is
held, and the next panel has the other's turn. Where its checks pass its presence flag is set. A scoring unit
that waits for just this panel takes it and waits for the engine's next. A panel that fails its checks gives
CHECKSUM of that layer at the next drip to every request of the slice that has a valid row; in a lookahead pass
it gives no request CHECKSUM, and the layer's lookahead of the frame selects nothing. A panel that is not the
next, or that finds both buffers held, changes nothing. A panel load that comes with words it finds
uncorrectable acts as one that comes with none after those words are found. A lookahead count joins those that
came in the same frame, and the slots taken up for a layer in a frame never exceed LOOKAHEAD_MAX. Rests on R59,
R61, R82, R204. -/
def Obligations.PanelsAndLookahead : Prop :=
  ∀ (s : State) (sl : SliceId) (li : LayerInfo) (layer : Nat), s.Inv → s.layer? sl layer = some li →
    (∀ (e : EngineId) (panel : Nat), s.sweepAt sl e layer panel = none ∨ 2 ≤ ((s.sl sl).heldPanels e panel).length →
      exec (.panelLanded { on := sl } e layer panel) s = .next s) ∧
    (∀ (e : EngineId) (panel : Nat) (bad : List Nat), exec (.panelLanded ⟨sl, bad⟩ e layer panel) s =
      exec (.panelLanded { on := sl } e layer panel) (s.findBad sl bad)) ∧
    (∀ (e : EngineId) (panel : Nat) (w : Sweep), s.sweepAt sl e layer panel = some w → panel % 4 = e.val →
      panel < dExperts li.mainDesc / 64 → ((s.sl sl).heldPanels e panel).length < 2 →
      let n := panelBytes li.mainDesc
      let b := (s.sl sl).load (panelAddr li.mainDesc panel) n
      let turn := ((s.sl sl).engine e).nextBuf
      let k := if ((s.sl sl).heldPanels e panel).any (fun p => p.buf == turn) then 1 - turn else turn
      (((s.sl sl).engine e).scoring = none → ∃ t : State, exec (.panelLanded { on := sl } e layer panel) s = .next t ∧
        ⟨layer, panel, w.pass, k⟩ ∈ ((t.sl sl).engine e).panels ∧ ((t.sl sl).engine e).nextBuf = 1 - k ∧
        (t.sl sl).load (engineAddr e (li.panelLocal + k * n)) n = b ∧
        (panelOk b = true → ∀ f, li.panelFlags[panel]? = some f → f ∈ (t.sl sl).flags)) ∧
      (∀ (p : ScorePass) (ln : LayerInfo), ((s.sl sl).engine e).scoring = some p → p.next = panel →
        (s.layer? sl (dLayer p.desc)).isSome = true → s.passLayer sl p = some ln → ln.layer = layer →
        ∃ t : State, exec (.panelLanded { on := sl } e layer panel) s = .next t ∧
          ((t.sl sl).engine e).scoring = some { p with next := panel + 4 } ∧
          (panelOk b = true → ∀ f, li.panelFlags[panel]? = some f → f ∈ (t.sl sl).flags)) ∧
      (panelOk b = false → w.look = false →
        ∃ t : State, exec (.panelLanded { on := sl } e layer panel) s = .next t ∧
          ∀ r ∈ (t.sl sl).svc.reqs, (∃ m ∈ (s.sl sl).svc.rowmap, m.valid = true ∧ m.req = r.slot) →
            ⟨s.now, s.now.plus 1, .checksum, layer⟩ ∈ r.conds) ∧
      (panelOk b = false → w.look = true → ∃ t : State, exec (.panelLanded { on := sl } e layer panel) s = .next t ∧
        (∀ r ∈ (t.sl sl).svc.reqs, ∃ q ∈ (s.sl sl).svc.reqs, q.slot = r.slot ∧ ∀ c ∈ r.conds, c.status = .checksum → c ∈ q.conds) ∧
        (layer, w.frame) ∈ (t.sl sl).routing.lookBad)) ∧
    (∀ (src : Place) (counts : List (SlotRef × Nat)) (lp : LayerInfo),
      (s.img sl).layers.find? (fun i => (s.nextLayer sl i.layer).map (·.layer) == some layer) = some lp →
      ∃ t : State, exec (.lookaheadCount sl src layer counts) s = .next t ∧
        (∀ k, k ∈ (t.sl sl).routing.look ↔
          k = ⟨src, layer, s.frame, counts⟩ ∨ (k ∈ (s.sl sl).routing.look ∧ k.frame = s.frame)) ∧
        (((s.sl sl).routing.looked.filter fun k => k.1 == layer && k.2.1 == s.frame).length ≤ dLookaheadMax lp.mainDesc →
          ((t.sl sl).routing.looked.filter fun k => k.1 == layer).length ≤ dLookaheadMax lp.mainDesc))

/-- Exchange blocks land, and the return list is written. A DISPATCH block, or a RETURN block, that fits its section
has each of its rows written to the landing position of its capacity row, or of the token and rank that the home
sent there, and is noted in the section: its SEQ is among those landed and its COUNT is added. A DISPATCH
section that it completes, when every other section of the slot is complete, makes the slot's input present; a
RETURN section that it completes, when every other return section of the layer is complete, makes the home's
return input present. A RETURN block with a status that is no tier drop marks the tokens of its rows with it. A
block that fails its CRC or zero-run check completes its section with CHECKSUM and is counted. A block for a
section that the slice does not expect, one whose header does not fit, and one that breaks the total of its
section are discarded and counted, and the sections stay. When every section of a slot is complete,
RETURN_LIST_WRITE writes the return list with that slot's rows into every engine's list buffer. Rests on R118,
R120, R130, R131, R132, R133, R137, R138. -/
def Obligations.ExchangeBlocks : Prop :=
  ∀ (s : State) (sl : SliceId) (src : Place) (msg : Bytes), s.Inv →
    let x := s.sl sl
    let n := leNat (msg.take 64)
    let h := blockHeader n
    let discards (i : Instr) : Prop := ∃ t : State, exec i s = .next t ∧
      (t.sl sl).exch.discarded = x.exch.discarded + 1 ∧ (t.sl sl).exch.sections = x.exch.sections
    let fails (i : Instr) (ret : Bool) (peer : Place) : Prop := ∃ t : State, exec i s = .next t ∧
      (∃ k ∈ (t.sl sl).exch.sections, k.is ret h.layer peer h.slot = true ∧ k.complete = true ∧ k.status = some 0x13) ∧
      (t.sl sl).exch.checksumBlocks = x.exch.checksumBlocks + 1
    let data := blockData (msg.take 64) h (msg.drop 64)
    let heads (c : Section) : Prop := 64 ≤ msg.length ∧ headerReserved n = true ∧ x.selectTag s.frame h.layer = some h.tag ∧ blockFits c h = true
    (∀ (li : LayerInfo) (c : Section), s.layer? sl h.layer = some li → x.exch.sections.find? (fun k => k.is false h.layer h.home h.slot) = some c →
      let fits : Prop := heads c ∧ h.kind = 4 ∧ h.exp = s.place sl ∧ h.status = 0 ∧ h.fmt = dHiddenFmt li.mainDesc ∧
        h.rowBytes = rowBytes (dHiddenFmt li.mainDesc) (dWidth li.mainDesc)
      let rowsIn (rows : List Bytes) (c' : Section) : State := s.onSl sl fun y =>
        ((h.rows.zip rows).foldl (fun v r => v.landRow h.layer (some h.slot) h.rowBytes r.1 r.2) y).onSections
          (fun k => k.is false h.layer h.home h.slot) fun _ => c'
      (fits → ∀ (c' : Section) (rows : List Bytes), data = some rows → c.account h = some c' →
        (c'.complete = false → exec (.dispatchBlock sl src msg) s = .next (rowsIn rows c')) ∧
        (c'.complete = true → (∀ k ∈ x.exch.sections, k.isReturn = false → k.layer = h.layer → k.slot = h.slot →
            k.peer ≠ h.home → k.complete = true) →
          ∃ t : State, exec (.dispatchBlock sl src msg) s = .next t ∧ c' ∈ (t.sl sl).exch.sections ∧
            ∀ f, li.dispatchFlags.find? (fun k => k.1 == h.slot) = some f → f.2 ∈ (t.sl sl).flags)) ∧
      (fits → data.isSome = true → c.account h = none → discards (.dispatchBlock sl src msg)) ∧
      (fits → data = none → fails (.dispatchBlock sl src msg) false h.home) ∧ (¬ fits → discards (.dispatchBlock sl src msg))) ∧
    (∀ (li : LayerInfo) (c : Section), s.layer? sl h.layer = some li → x.exch.sections.find? (fun k => k.is true h.layer h.exp h.slot) = some c →
      let fits : Prop := heads c ∧ h.kind = 5 ∧ h.home = s.place sl ∧ h.fmt = li.returnFmt ∧
        h.rowBytes = rowBytes (rowFmt li.returnFmt) (dWidth li.mainDesc)
      let mine (r : Nat) : List Choice := (x.sectionChoices h.layer h.exp h.slot).filter fun k => k.capRow == r
      (fits → ∀ (c' : Section) (rows : List Bytes), data = some rows → c.account h = some c' →
        (h.status = 0 → c'.complete = false → exec (.returnBlock sl src msg) s = .next (s.onSl sl fun y =>
          ((h.rows.zip rows).foldl (fun v r => (mine r.1).foldl
              (fun w k => w.landRow h.layer none h.rowBytes (k.row * dK li.mainDesc + k.rank) r.2) v) y).onSections
            (fun k => k.is true h.layer h.exp h.slot) fun _ => c')) ∧
        (c'.complete = true → (∀ k ∈ x.exch.sections, k.isReturn = true → k.layer = h.layer → k.is true h.layer h.exp h.slot = false →
            k.complete = true) →
          ∃ t : State, exec (.returnBlock sl src msg) s = .next t ∧ li.returnFlag ∈ (t.sl sl).flags) ∧
        (h.status ≠ 0 → s.legacyStatus h.status = false → ∃ t : State, exec (.returnBlock sl src msg) s = .next t ∧
          { c' with status := some h.status } ∈ (t.sl sl).exch.sections ∧
          ∀ r ∈ h.rows.take h.count, ∀ k ∈ mine r, (h.layer, k.row, h.status) ∈ (t.sl sl).exch.marks)) ∧
      (fits → data.isSome = true → c.account h = none → discards (.returnBlock sl src msg)) ∧
      (fits → data = none → fails (.returnBlock sl src msg) true h.exp) ∧ (¬ fits → discards (.returnBlock sl src msg))) ∧
    (∀ c ∈ [(Instr.dispatchBlock sl src msg, false, h.home), (.returnBlock sl src msg, true, h.exp)],
      (∀ k ∈ x.exch.sections, k.is c.2.1 h.layer c.2.2 h.slot = false) → discards c.1) ∧
    (∀ (li : LayerInfo) (layer : Nat) (r : SlotRef), s.layer? sl layer = some li →
      (∃ k ∈ x.exch.sections, k.isReturn = false ∧ k.layer = layer ∧ k.slot = r) →
      (∀ k ∈ x.exch.sections, k.isReturn = false → k.layer = layer → k.slot = r → k.complete = true) →
      ∃ t : State, exec (.returnListWrite sl layer r) s = .next t ∧ OnlySlice s t sl ∧ (layer, r, []) ∈ (t.sl sl).exch.returnLists ∧
        (t.sl sl).exch.sections = x.exch.sections ∧
        (li.returnLocal + ((t.sl sl).returnList layer).length ≤ 0x1000000 → ∀ e : EngineId,
          (t.sl sl).load (engineAddr e li.returnLocal) ((t.sl sl).returnList layer).length = (t.sl sl).returnList layer))

/-- A COMBINE phase starts its threads and its unit, and its completion is noted for the layer boundary. When a
COMBINE phase launches, each of its threads is READY at ENTRY with its number in g1, and the combine unit of its
engine is in use. When the unit completes over a well-formed descriptor of a layer of the image, with its output
outside the weight region, memory holds what the combine unit wrote for the home rows of the engine; with any
other descriptor memory is unchanged and the requests tied to the phase end with FAULT at the next drip. The
engine's combine unit is free, and where no other combine of the layer is left in the frame the layer waits for
its layer boundary. A completion that comes with words the unit finds uncorrectable acts as one that comes with
none after those words are found. Rests on R4, R89, R139, R140, R203, R204, R369. -/
def Obligations.CombinePhase : Prop :=
  ∀ (s : State) (sl : SliceId) (i : Nat), s.Inv →
    (∀ (u : Run) (v : State) (e : EngineId), s.actingRun sl i .combine = some (u, v) → u.entry.unit = .engine e →
      ∃ t : State, exec (.combineStage sl i) s = .next t ∧ (EngineUnit.combine, 64) ∈ ((t.sl sl).engine e).busy ∧
        ∀ k ∈ u.threads, k < 64 → (t.thread sl e k).st = .ready ∧ (t.thread sl e k).pc = u.entry.f.entry ∧
          (t.thread sl e k).reg 1 = BitVec.ofNat 64 (k - u.entry.f.first)) ∧
    (∀ bad : List Nat, exec (.combineComplete ⟨sl, bad⟩ i) s = exec (.combineComplete { on := sl } i) (s.findBad sl bad)) ∧
    (∀ (u : Run) (e : EngineId),
      (s.sl sl).runs.find? (fun v => v.idx == i && v.entry.kind == .combine && v.st == .launched && v.begun) = some u →
      u.entry.unit = .engine e → (((s.sl sl).engine e).busy.any fun b => b.1 == .combine) = true →
      let n := leNat ((s.sl sl).load (engineAddr e (u.entry.f.arg.toNat % 2 ^ 24)) 32)
      let fit : Prop := combineOk n = true ∧ ∃ li, s.layer? sl (bits n 15 8) = some li ∧ (s.sl sl).combineBarred e n li.mainDesc = false
      ∃ t : State, exec (.combineComplete { on := sl } i) s = .next t ∧ (∀ b ∈ ((t.sl sl).engine e).busy, b.1 ≠ .combine) ∧
        ((∀ v ∈ (s.sl sl).runs, v.entry.kind = .combine → v.frame = u.frame → v.entry.f.layer = u.entry.f.layer → v.idx = u.idx ∨ v.over = true) →
          ∃ d, (bits n 15 8, d) ∈ (t.sl sl).svc.combined) ∧
        (fit → (t.sl sl).mem = ((s.combineWork sl e n u).sl sl).mem ∧ ∀ f, u.entry.f.sets = some f → f ∈ (t.sl sl).flags) ∧
        (¬ fit → (t.sl sl).mem = (s.sl sl).mem ∧ (u.entry.ctx = 255 → ∀ q ∈ (s.sl sl).svc.reqs, s.ties sl u q = true →
          ∃ r ∈ (t.sl sl).svc.reqs, r.slot = q.slot ∧ ⟨s.now, s.now.plus 1, .fault, u.entry.f.layer.getD 0xFF⟩ ∈ r.conds)))

/-- The control and register words of a quad program. When the segment of a quad runs and the word at its program
counter is NOP, SET, ADDI, ADDQ, MULI, LDSHAPE, LOOP, BRZ, WAIT_FLAG, WAIT_DRIP, SET_FLAG or HALT, the quad
takes the effect of its row: the register writes change QD alone (a write to q0 is discarded), LOOP repeats the
next words or goes past them, BRZ goes to its target where qA is 0 and leaves the loops whose body does not hold
it (the model's choice, log 7), a target below the first word being one past the store, a wait whose flag or
drip has not come stops the quad, one whose drip has passed is counted as late or, in still-water mode, marks
its stage as missed, SET_FLAG sets its flag, and HALT ends the segment and completes its stage. A program
counter outside the store ends the segment with PC_BOUNDS, counts it and leaves the stage without completing it,
whichever of these commands finds it. Rests on R101, R106, R167, R168, R169, R171, R172, R173, R175. -/
def Obligations.QuadControl : Prop :=
  ∀ (s : State) (sl : SliceId) (q : QuadId), s.Inv →
    ((s.quad sl q).st = .running → 8191 < (s.quad sl q).pc →
      ∀ i ∈ [Instr.quadNop sl q, .quadHalt sl q, .quadWaitDrip sl q, .waitFlag sl q, .setFlag sl q, .quadLoop sl q, .brz sl q,
          .quadSet sl q, .addi sl q, .addq sl q, .muli sl q, .ldshape sl q],
        ∃ t : State, exec i s = .next t ∧ s.SegmentEnds t sl q 6 ∧ ∀ r, (s.sl sl).quadRun q = some r →
          (t.sl sl).runs = (s.sl sl).runs.map fun v => if v.idx = r.idx ∧ v.frame = r.frame then { v with stopped := true } else v) ∧
    ∀ w : Nat, s.QuadIssues sl q w →
    let k := s.quad sl q
    let x := s.sl sl
    let put (v : Word) : State := s.afterWord sl q fun j => if qD w = 0 then j else { j with q := j.q.set (qD w) v }
    let n := bits (qImm w) 15 0
    let count := if qA w = 0 then bits (qImm w) 31 16 else (k.reg (qA w)).toNat
    let base : Drip := if bit (qFn w) 0 then k.launchDrip else match x.quadRun q with | some u => u.frame | none => s.frame
    let at_ : Drip := base.plus (qImm w)
    (qCode w = 0x00 → exec (.quadNop sl q) s = .next (s.afterWord sl q id)) ∧
    (qCode w = 0x10 → exec (.quadSet sl q) s = .next (put (
      if bit (qFn w) 0 then BitVec.ofNat 64 ((k.reg (qD w)).toNat % 2 ^ 32 + qImm w * 2 ^ 32) else sext32 (qImm w)))) ∧
    (qCode w = 0x11 → exec (.addi sl q) s = .next (put (k.reg (qA w) + sext32 (qImm w)))) ∧
    (qCode w = 0x12 → exec (.addq sl q) s = .next (put (k.reg (qA w) + k.reg (qB w)))) ∧
    (qCode w = 0x13 → exec (.muli sl q) s = .next (put (BitVec.ofNat 64 ((k.reg (qA w)).toNat * qImm w)))) ∧
    (qCode w = 0x20 → exec (.ldshape sl q) s = .next (s.onQuad sl q fun j =>
      let e := x.loadNat (shapeAddr x (bits (qImm w) 15 8) + 64 + 8 * (64 * q.val + bits (qImm w) 5 0)) 8
      let v := if bits (qFn w) 1 0 = 0 then bits e 11 0 else if bits (qFn w) 1 0 = 1 then bits e 19 12
        else if bits (qFn w) 1 0 = 2 then bits e 36 36 else bits e 37 37
      let i := (j.goTo (j.pc + 1))
      { (if qD w = 0 then i else { i with q := i.q.set (qD w) (BitVec.ofNat 64 v) }) with
        cur := some (bits (qImm w) 15 8, bits (qImm w) 5 0), reached := i.reached ++ [bits (qImm w) 5 0] })) ∧
    (qCode w = 0x05 → 0 < count → 0 < n → exec (.quadLoop sl q) s = .next (s.onQuad sl q fun j =>
      { j with pc := k.pc + 1, loops := { first := k.pc + 1, stop := k.pc + 1 + n, left := count } :: j.loops })) ∧
    (qCode w = 0x05 → count = 0 ∨ n = 0 → exec (.quadLoop sl q) s = .next (s.onQuad sl q fun j => j.goTo (k.pc + 1 + n))) ∧
    (k.loops = [] → k.goTo (k.pc + 1) = { k with pc := k.pc + 1 }) ∧
    (∀ (f : LoopFrame) (r : List LoopFrame), k.loops = f :: r → f.stop = k.pc + 1 → 1 < f.left →
      k.goTo (k.pc + 1) = { k with pc := f.first, loops := { f with left := f.left - 1 } :: r }) ∧
    (qCode w = 0x06 → k.reg (qA w) = 0 →
      let p := if (k.pc : Int) + sint32 (qImm w) < 0 then 8192 else ((k.pc : Int) + sint32 (qImm w)).toNat
      exec (.brz sl q) s = .next (s.afterWord sl q fun j =>
        { j with pc := p, loops := k.loops.filter fun f => decide (f.first ≤ p) && decide (p < f.stop) })) ∧
    (qCode w = 0x06 → k.reg (qA w) ≠ 0 → exec (.brz sl q) s = .next (s.afterWord sl q id)) ∧
    (qCode w = 0x03 → exec (.waitFlag sl q) s = .next (s.afterWord sl q fun j =>
      if x.flags.contains (qImm w) then j else { j with st := .waitFlag (qImm w) })) ∧
    (qCode w = 0x02 → Drip.later at_ s.now = true →
      exec (.quadWaitDrip sl q) s = .next (s.afterWord sl q fun j => { j with st := .waitDrip at_ })) ∧
    (qCode w = 0x02 → Drip.later at_ s.now = false → s.still.on = false →
      exec (.quadWaitDrip sl q) s = .next ((s.afterWord sl q id).onSl sl fun y =>
        { y with routing := { y.routing with lateWaits := y.routing.lateWaits + 1 } })) ∧
    (qCode w = 0x02 → Drip.later at_ s.now = false → s.still.on = true → ∃ t : State, exec (.quadWaitDrip sl q) s = .next t ∧
      (t.quad sl q).st = .waitDrip at_ ∧
      ∀ r, x.quadRun q = some r → ∀ v ∈ (t.sl sl).runs, v.idx = r.idx → v.frame = r.frame → v.lateInput = true) ∧
    (qCode w = 0x04 → ∃ t : State, exec (.setFlag sl q) s = .next t ∧ qImm w ∈ (t.sl sl).flags ∧ (∀ f ∈ x.flags, f ∈ (t.sl sl).flags) ∧
      t.quad sl q = (s.afterWord sl q id).quad sl q ∧ (t.sl sl).mem = x.mem ∧ OnlySlice s t sl) ∧
    (qCode w = 0x01 → ∃ t : State, exec (.quadHalt sl q) s = .next t ∧ (t.quad sl q).st = .idle ∧ (t.quad sl q).q = k.q ∧
      (t.sl sl).mem = x.mem ∧ ∀ r, x.quadRun q = some r → ∀ v ∈ (t.sl sl).runs, v.idx = r.idx → v.frame = r.frame → v.st = .completed)

/-- WLOAD loads tiles into shadows in rotation, and SWAP makes them active. A WLOAD of tiles that lie back to back
in the memory it names, each with a valid header, its CRC and no poisoned word, leaves in the shadow of each
array of AMASK the last tile that the rotation gave it, counts the tiles, and leaves in QD the address after the
last one; no byte of memory changes. A tile whose CRC fails is absent: its shadow is poisoned with CHECKSUM and
the failure is counted. A tile with an invalid header ends the WLOAD with its shadow poisoned with FAULT. SWAP
copies the shadow of every array of AMASK into its active registers, and with an empty shadow ends the segment
with SWAP_EMPTY. ROWCOPY copies its bytes and no others, and with an end outside its regions ends the segment
with ADDR_BOUNDS. Words that a WLOAD finds uncorrectable are poisoned before it acts. Rests on R144, R149, R150,
R151, R165, R169, R171, R204. -/
def Obligations.QuadWeightBus : Prop :=
  ∀ (s : State) (sl : SliceId) (q : QuadId) (w : Nat), s.Inv → s.QuadIssues sl q w →
    let k := s.quad sl q
    let x := s.sl sl
    let arrs := qArrays w
    let a := (k.reg (qA w)).toNat
    let n := (k.reg (qB w)).toNat
    let place (b len : Nat) : Option Parts := if bit (qFn w) 0 then (ownChamber q b len).map fun p => [(p, len)] else x.quadHbm k b len
    let one (b : Nat) (t : Bytes) : Prop :=
      ∃ p p0, place b t.length = some p ∧ x.loadRanges p = t ∧ place b 32 = some p0 ∧ x.loadRanges p0 = t.take 32 ∧
        tileHeaderOk (leNat (t.take 32)) = true ∧ t.length = 32 + thBytes (leNat (t.take 32)) ∧ x.poisonedIn p = false
    (qCode w = 0x30 → arrs ≠ [] → ∀ ts : List Bytes, ts.length = n →
      (∀ i, i < n → one (a + ((ts.take i).map List.length).sum) (ts.getD i []) ∧ tileCrcOk (ts.getD i []) = true) →
      ∃ t : State, exec (.wload { on := sl } q) s = .next t ∧ (t.sl sl).mem = x.mem ∧ (t.sl sl).arr.tilesLoaded = x.arr.tilesLoaded + n ∧
        (qD w ≠ 0 → (t.quad sl q).reg (qD w) = BitVec.ofNat 64 (a + (ts.map List.length).sum)) ∧
        (∀ i, i < n → n ≤ i + arrs.length →
          ((t.quad sl q).array (arrs.getD (i % arrs.length) 0)).shadow = some { bytes := ts.getD i [], poison := none }) ∧
        ∀ b, ((t.quad sl q).array b).active = (k.array b).active ∧ ((t.quad sl q).array b).slots = (k.array b).slots) ∧
    (qCode w = 0x30 → n = 1 → ∀ (c : Nat) (cs : List Nat) (b : Bytes), arrs = c :: cs → one a b → tileCrcOk b = false →
      ∃ t : State, exec (.wload { on := sl } q) s = .next t ∧ ((t.quad sl q).array c).shadow = some { bytes := b, poison := some Status.checksum.code } ∧
        (t.sl sl).arr.tileCrcFails = x.arr.tileCrcFails + 1 ∧ (t.sl sl).arr.tilesLoaded = x.arr.tilesLoaded ∧ (t.quad sl q).st = .running) ∧
    (qCode w = 0x30 → n = 1 → ∀ (c : Nat) (cs : List Nat) (p : Parts), arrs = c :: cs → place a 32 = some p → tileHeaderOk (leNat (x.loadRanges p)) = false →
      ∃ t : State, exec (.wload { on := sl } q) s = .next t ∧ (((t.quad sl q).array c).shadow.bind fun z => z.poison) = some Status.fault.code ∧
        (t.sl sl).arr.tileHeaderFaults = x.arr.tileHeaderFaults + 1 ∧ (t.quad sl q).st = .running) ∧
    (qCode w = 0x31 → (∀ i ∈ arrs, (k.array i).shadow.isSome = true) →
      ∃ t : State, exec (.swap sl q) s = .next t ∧ OnlySlice s t sl ∧ (t.sl sl).mem = x.mem ∧ (t.quad sl q).q = k.q ∧
        ∀ i, ((t.quad sl q).array i).shadow = (k.array i).shadow ∧ ((t.quad sl q).array i).slots = (k.array i).slots ∧
          ((t.quad sl q).array i).active = if i ∈ arrs then (k.array i).shadow else (k.array i).active) ∧
    (qCode w = 0x31 → (∃ i ∈ arrs, (k.array i).shadow = none) → ∃ t : State, exec (.swap sl q) s = .next t ∧ s.SegmentEnds t sl q 4) ∧
    let src := if inRegion a n .staging || inRegion a n (.chamber q) then some [(a, n)] else x.quadHbm k a n
    (qCode w = 0x40 → ∀ (p : Parts) (d : Nat), src = some p → ownChamber q (k.reg (qD w)).toNat n = some d →
      ∃ t : State, exec (.rowcopy sl q) s = .next t ∧ OnlySlice s t sl ∧ SameBytesOutside x (t.sl sl) d n ∧
        (t.quad sl q) = (s.afterWord sl q id).quad sl q ∧ (t.sl sl).load d n = x.loadRanges p) ∧
    (qCode w = 0x40 → src = none ∨ ownChamber q (k.reg (qD w)).toNat n = none → ∃ t : State, exec (.rowcopy sl q) s = .next t ∧ s.SegmentEnds t sl q 5) ∧
    ∀ bad : List Nat, exec (.wload { on := sl, bad := bad } q) s = exec (.wload { on := sl } q) (s.findBad sl bad)

/-- STREAM adds tile sums into slots, and ACCLOAD reads a slot back. A STREAM of a legal row block inside the
chamber store that issues no poisoned word changes, in every array of AMASK, only the slots it names: against an
active tile that is dense or 2:4 and matches, a clearing stream replaces the sums of the slot and removes its
poison and an accumulating one adds with one rounding; a zero tile clears the slot to +0 or leaves it; a
poisoned tile poisons the slot with the same code, and a mismatch poisons it with FAULT. No byte of memory and
no register changes. An illegal descriptor ends the segment with DESC, and a block outside the store with
ADDR_BOUNDS. ACCLOAD of bytes inside the chamber store without a poisoned word fills the slot of each array of
AMASK with its 2,048 values in order and removes its poison; one outside the store ends the segment with
ADDR_BOUNDS. Words that a STREAM finds uncorrectable are poisoned before it acts. Rests on R145, R146, R154,
R156, R158, R159, R161, R165, R169, R170, R171, R204. -/
def Obligations.QuadStreams : Prop :=
  ∀ (s : State) (sl : SliceId) (q : QuadId) (w : Nat), s.Inv → s.QuadIssues sl q w →
    let k := s.quad sl q
    let x := s.sl sl
    let arrs := qArrays w
    let a := (k.reg (qA w)).toNat
    let slot := bits (qFn w) 6 4
    let acc := bit (qFn w) 0
    let wide := bit (qFn w) 2
    let trans := bit (qFn w) 3
    (qCode w = 0x41 → rowDesc (k.reg (qB w)).toNat = none → ∃ t : State, exec (.stream { on := sl } q) s = .next t ∧ s.SegmentEnds t sl q 8) ∧
    (∀ d : RowDesc, qCode w = 0x41 → rowDesc (k.reg (qB w)).toNat = some d → 0x1800000 < a + (15 * d.stride + d.rowBytes) →
      ∃ t : State, exec (.stream { on := sl } q) s = .next t ∧ s.SegmentEnds t sl q 5) ∧
    (∀ d : RowDesc, qCode w = 0x41 → rowDesc (k.reg (qB w)).toNat = some d → a + (15 * d.stride + d.rowBytes) ≤ 0x1800000 →
      ((arrs.any fun i => (k.array i).issues d.fmt slot wide trans) &&
        rowsPoisoned x d [(chamberAddr q a, 15 * d.stride + d.rowBytes)] (32 * bits (qImm w) 15 0)
          (min (if wide then 256 else 128) (32 * bits (qImm w) 31 16 - 32 * bits (qImm w) 15 0))) = false →
      let rows (span : Nat) := streamRows x d (chamberAddr q a) (32 * bits (qImm w) 15 0) (32 * bits (qImm w) 31 16) span
      ∃ t : State, exec (.stream { on := sl } q) s = .next t ∧ (t.sl sl).mem = x.mem ∧ (t.quad sl q).q = k.q ∧ (t.quad sl q).st = .running ∧
        ∀ i, ((t.quad sl q).array i).active = (k.array i).active ∧ ((t.quad sl q).array i).shadow = (k.array i).shadow ∧
          (i ∉ arrs → (t.quad sl q).array i = k.array i) ∧
          (i ∈ arrs →
            let y := k.array i
            let z := (t.quad sl q).array i
            (∀ m, m ≠ slot → m ≠ slot + 1 → z.slot m = y.slot m) ∧
            (y.active = none → (z.slot slot).poison = some Status.fault.code) ∧
            (∀ tile, y.active = some tile → ∀ c, tile.poison = some c → (z.slot slot).poison = some c ∧ (z.slot slot).vals = (y.slot slot).vals) ∧
            (∀ tile, y.active = some tile → tile.poison = none →
              let h := leNat (tile.bytes.take 32)
              let fits := streamFits h d.fmt wide trans slot
              (fits = false → (z.slot slot).poison = some Status.fault.code ∧ (z.slot slot).vals = (y.slot slot).vals) ∧
              (fits = true → thForm h = formZero →
                (z.slot slot).vals = (if acc then (y.slot slot).vals else []) ∧ (z.slot slot).poison = if acc then (y.slot slot).poison else none) ∧
              (fits = true → thForm h ≠ formZero → trans = false →
                let sums := (rows (if wide then 256 else 128)).map (forwardRow (thForm h) (transpose 128 (tileRows tile.bytes)))
                z.slot slot = ((y.slot slot).note h acc).put acc sums ∧ (slot < 7 → z.slot (slot + 1) = y.slot (slot + 1))) ∧
              (fits = true → thForm h = formDense → trans = true →
                z.slot slot = ((y.slot slot).note h acc).put acc ((rows 128).map (transposedOut formDense (tileRows tile.bytes)))) ∧
              (fits = true → thForm h = formSparse → trans = true →
                let outs := (rows 128).map (transposedOut formSparse (tileRows tile.bytes))
                z.slot slot = ((y.slot slot).note h acc).put acc (outs.map (·.take 128)) ∧
                z.slot (slot + 1) = ((y.slot (slot + 1)).note h acc).put acc (outs.map (·.drop 128)))))) ∧
    (qCode w = 0x42 →
      let fmt := if bit (qFn w) 0 then 4 else 9
      let n := 2048 * elemBytes fmt
      (a + n * arrs.length ≤ 0x1800000 → x.poisoned (chamberAddr q a) (n * arrs.length) = false →
        ∃ t : State, exec (.accload sl q) s = .next t ∧ (t.sl sl).mem = x.mem ∧ (t.quad sl q).q = k.q ∧
          (∀ m i, arrs[m]? = some i → (((t.quad sl q).array i).slot slot).poison = none ∧
            (((t.quad sl q).array i).slot slot).vals = toF32 (rowSpan fmt n (x.load (chamberAddr q a + m * n) n) 0 2048)) ∧
          ∀ i j, i ∉ arrs ∨ j ≠ slot → ((t.quad sl q).array i).slot j = (k.array i).slot j) ∧
      (0x1800000 < a + n * arrs.length → ∃ t : State, exec (.accload sl q) s = .next t ∧ s.SegmentEnds t sl q 5)) ∧
    ∀ bad : List Nat, exec (.stream { on := sl, bad := bad } q) s = exec (.stream { on := sl } q) (s.findBad sl bad)

/-- DRAIN and DRAINT write their bytes and no others, and a poisoned drain is reported. A DRAIN to a destination it
may write changes no byte outside the row block of its descriptor, no register and no active or shadow tile. Of
one array in a format without scales, the first ROWS rows hold the valid columns of the slot, each added to or
multiplied by the tensor where the word says so, and rounded once into the format; a poisoned slot writes +0 in
every element and waits for its report. A DRAIN to a place it may not write ends the segment with ADDR_BOUNDS,
and one with an illegal descriptor with DESC. A DRAINT to a tile in an open write window writes that tile and no
other byte, and notes the tile as written; outside every open window it ends the segment with WRITE_WINDOW. At
the next drip the report of a poisoned drain of a segment that serves a replica slot marks every section of that
slot with the code, and a section already marked keeps the lower code; that of a segment of no context and no
slot ends the requests tied to it with the code. Words that a DRAIN finds uncorrectable are poisoned before it
acts. Rests on R160, R161, R162, R163, R165, R166, R171, R188, R204, R211. -/
def Obligations.QuadDrains : Prop :=
  ∀ (s : State) (sl : SliceId) (q : QuadId) (w : Nat), s.Inv → s.QuadIssues sl q w →
    let k := s.quad sl q
    let x := s.sl sl
    let arrs := qArrays w
    let slot := bits (qFn w) 6 4
    let epi := if bit (qFn w) 2 = false ∧ (bits (qFn w) 1 0 = 1 ∨ bits (qFn w) 1 0 = 2) then bits (qFn w) 1 0 else 0
    (∀ d : RowDesc, qCode w = 0x50 → rowDesc (k.reg (qB w)).toNat = some d →
      (drainAddr q (k.reg (qD w)).toNat (15 * d.stride + d.rowBytes) = none ∨
        ∃ p, drainAddr q (k.reg (qD w)).toNat (15 * d.stride + d.rowBytes) = some p ∧ x.drainWritable p (15 * d.stride + d.rowBytes) = false) →
      ∃ t : State, exec (.drain { on := sl } q) s = .next t ∧ s.SegmentEnds t sl q 5) ∧
    (∀ (d : RowDesc) (p : Nat) (tens : Parts), qCode w = 0x50 → rowDesc (k.reg (qB w)).toNat = some d →
      (epi ≠ 0 → x.drainParts k q (k.reg (qA w)).toNat (15 * d.stride + d.rowBytes) = some tens) →
      drainAddr q (k.reg (qD w)).toNat (15 * d.stride + d.rowBytes) = some p → x.drainWritable p (15 * d.stride + d.rowBytes) = true →
      ∃ t : State, exec (.drain { on := sl } q) s = .next t ∧ SameBytesOutside x (t.sl sl) p (15 * d.stride + d.rowBytes) ∧ (t.quad sl q).q = k.q ∧
        (∀ i, ((t.quad sl q).array i).active = (k.array i).active ∧ ((t.quad sl q).array i).shadow = (k.array i).shadow) ∧
        ∀ i, arrs = [i] → isMX d.fmt = false → bit (qFn w) 2 = false →
          let z := (k.array i).slot slot
          let c := 128 * bits (qImm w) 15 0
          let n := min ((if z.poison.isSome then 127 else z.next) + 1) (d.rowBytes / elemBytes d.fmt - c)
          (z.poison.isSome = true → ∀ r, x.quadRun q = some r → (t.quad sl q).poisoned.length = k.poisoned.length + 1) ∧
          (z.vals.length ≤ 2048 → z.next ≤ 127 → ∀ m, m < d.rows →
            (t.sl sl).load (p + m * d.stride + c * elemBytes d.fmt) (n * elemBytes d.fmt) =
              if z.poison.isSome then zeros (n * elemBytes d.fmt)
              else (encodePlain d.fmt (epilogue epi ((z.rows.getD m []).take n) (if epi = 0 then [] else
                rowSpan d.fmt d.rowBytes (x.loadRanges (subParts tens (m * d.stride) d.rowBytes)) c n))).bytes)) ∧
    (qCode w = 0x50 → rowDesc (k.reg (qB w)).toNat = none → ∃ t : State, exec (.drain { on := sl } q) s = .next t ∧ s.SegmentEnds t sl q 8) ∧
    (∀ (i : Nat) (is : List Nat), qCode w = 0x51 → arrs = i :: is → bits (qFn w) 1 0 < 3 → bits (qImm w) 3 0 ≤ 8 →
      let form := if bits (qFn w) 1 0 = 0 then formDense else formSparse
      let dst := (k.reg (qD w)).toNat
      let n := 32 + tilePayload (bits (qImm w) 3 0) form
      (x.tiers.inWindow dst n = true → ∃ t : State, exec (.draint sl q) s = .next t ∧ dst ∈ (t.sl sl).tiers.written ∧
        (t.quad sl q).q = k.q ∧ ((∀ z ∈ (k.array i).slots, z.vals.length ≤ 2048) → SameBytesOutside x (t.sl sl) dst n)) ∧
      (x.tiers.inWindow dst n = false → ∃ t : State, exec (.draint sl q) s = .next t ∧ s.SegmentEnds t sl q 7)) ∧
    (∀ (p : PoisonedDrain) (l c : Nat), k.poisoned = [p] → Drip.later s.now p.at_ = true → p.run.entry.ctx = 255 → p.cur = some (l, c) →
      ({ quad := q.val, slot := c } : SlotRef) ∈ p.run.entry.f.slots →
      ∃ t : State, exec (.poisonedDrainReport sl q) s = .next t ∧ (t.quad sl q).poisoned = [] ∧
        (t.sl sl).exch.sections.length = x.exch.sections.length ∧
        ∀ (j : Nat) (g : Section), x.exch.sections[j]? = some g → (t.sl sl).exch.sections[j]? = some (
          if g.isReturn = false ∧ g.layer = l ∧ g.slot = { quad := q.val, slot := c }
          then { g with status := some (match g.status with | some st => min st p.code | none => p.code) } else g)) ∧
    (∀ p : PoisonedDrain, k.poisoned = [p] → Drip.later s.now p.at_ = true → p.run.entry.ctx = 255 → p.cur = none →
      ∃ t : State, exec (.poisonedDrainReport sl q) s = .next t ∧ (t.quad sl q).poisoned = [] ∧
        ∀ g ∈ x.svc.reqs, s.ties sl p.run g = true → ∃ r ∈ (t.sl sl).svc.reqs, r.slot = g.slot ∧
          ⟨p.at_, p.at_.plus 1, Status.ofCode p.code, p.run.entry.f.layer.getD 0xFF⟩ ∈ r.conds) ∧
    ∀ bad : List Nat, exec (.drain { on := sl, bad := bad } q) s = exec (.drain { on := sl } q) (s.findBad sl bad)

/-- The vector operations of a quad and their operand rules. A VOP whose operands satisfy the rules writes, from the
destination address, the result of its operation on each element, rounded once into the destination format, and
counts the elements saturated and a write that holds a non-finite value; every other part of the state but the
program counter stays, except that a poisoned word among its sources ends the requests tied to the segment as
faultStage says. CONVERT, ADDS, MULS, EXP, SIGMOID, SILU, TANH, LOG, RSQRT and RECIP take one source. ADD, MUL,
MAX, MIN, AXPY and SWIGLU work element by element on two, ADDB, MULB and EXPSUB on a source and one binary32
value, and SUM, SUMSQ and MAXRED reduce their source to one binary32. A VOP that breaks an operand rule is
counted and ends the segment with VOP_ARG. Rests on R171, R195, R196, R197, R198, R200. -/
def Obligations.VectorOperations : Prop :=
  ∀ (s : State) (sl : SliceId) (q : QuadId) (w : Nat), s.QuadIssues sl q w → qCode w = 0x60 →
    let k := s.quad sl q
    let x := s.sl sl
    let code := bits (qImm w) 7 0
    let after (bad : Bool) : State := match x.quadRun q with
      | some u => if bad then (s.afterWord sl q id).faultStage sl u .fault else s.afterWord sl q id
      | none => s.afterWord sl q id
    (∀ g : VopArgs, vopArgs k w .none false = some g →
      let put (f : F32 → F32) : State := (after (x.poisoned (chamberAddr q g.a) (vopBytes g.aFmt g.n))).onSl sl fun y =>
        let r := ((vopRead x q g.aFmt g.a g.n).map f).map F32.num
        let v := if isMX g.dFmt then encodeRow g.dFmt r else encodePlain g.dFmt r
        let z := y.store (chamberAddr q g.d) v.bytes
        { z with arr := { z.arr with
          satElements := z.arr.satElements + v.sat, nonfiniteVops := z.arr.nonfiniteVops + if v.nonfinite then 1 else 0 } }
      (code = 0x00 → exec (.vopConvert sl q) s = .next (put fun a => a)) ∧
      (code = 0x05 → exec (.vopAdds sl q) s = .next (put fun a => F32.add a g.scalar)) ∧
      (code = 0x06 → exec (.vopMuls sl q) s = .next (put fun a => F32.mul a g.scalar)) ∧
      (code = 0x10 → exec (.vopExp sl q) s = .next (put F32.exp)) ∧
      (code = 0x11 → exec (.vopSigmoid sl q) s = .next (put F32.sigmoid)) ∧
      (code = 0x12 → exec (.vopSilu sl q) s = .next (put F32.silu)) ∧
      (code = 0x13 → exec (.vopTanh sl q) s = .next (put F32.tanh)) ∧
      (code = 0x14 → exec (.vopLog sl q) s = .next (put F32.log)) ∧
      (code = 0x15 → exec (.vopRsqrt sl q) s = .next (put F32.rsqrt)) ∧
      (code = 0x16 → exec (.vopRecip sl q) s = .next (put F32.recip))) ∧
    (s.Inv → ∀ p ∈ ([(0x00, .none, false, .vopConvert sl q), (0x01, .each, false, .vopAdd sl q), (0x02, .each, false, .vopMul sl q),
        (0x03, .each, false, .vopMax sl q), (0x04, .each, false, .vopMin sl q), (0x05, .none, false, .vopAdds sl q),
        (0x06, .none, false, .vopMuls sl q), (0x07, .each, false, .vopAxpy sl q), (0x08, .one, false, .vopAddb sl q),
        (0x09, .one, false, .vopMulb sl q), (0x10, .none, false, .vopExp sl q), (0x11, .none, false, .vopSigmoid sl q),
        (0x12, .none, false, .vopSilu sl q), (0x13, .none, false, .vopTanh sl q), (0x14, .none, false, .vopLog sl q),
        (0x15, .none, false, .vopRsqrt sl q), (0x16, .none, false, .vopRecip sl q), (0x17, .one, false, .vopExpsub sl q),
        (0x18, .each, false, .vopSwiglu sl q), (0x20, .none, true, .vopSum sl q), (0x21, .none, true, .vopSumsq sl q),
        (0x22, .none, true, .vopMaxred sl q)] : List (Nat × VopB × Bool × Instr)),
      code = p.1 → vopArgs k w p.2.1 p.2.2.1 = none →
      ∃ t : State, exec p.2.2.2 s = .next t ∧ s.SegmentEnds t sl q 9 ∧ (t.sl sl).arr.vopFaults = x.arr.vopFaults + 1) ∧
    let put (g : VopArgs) (bad : Bool) (fmt : Nat) (r : List F32) : State := (after bad).onSl sl fun y =>
      let v := if isMX fmt then encodeRow fmt (r.map F32.num) else encodePlain fmt (r.map F32.num)
      let z := y.store (chamberAddr q g.d) v.bytes
      { z with arr := { z.arr with
        satElements := z.arr.satElements + v.sat, nonfiniteVops := z.arr.nonfiniteVops + if v.nonfinite then 1 else 0 } }
    (∀ g : VopArgs, vopArgs k w .each false = some g →
      let each (f : F32 → F32 → F32) : State := put g (x.poisoned (chamberAddr q g.a) (vopBytes g.aFmt g.n) ||
          x.poisoned (chamberAddr q g.b) (vopBytes g.aFmt g.n)) g.dFmt
        (((vopRead x q g.aFmt g.a g.n).zip (vopRead x q g.aFmt g.b g.n)).map fun p => f p.1 p.2)
      (code = 0x01 → exec (.vopAdd sl q) s = .next (each F32.add)) ∧
      (code = 0x02 → exec (.vopMul sl q) s = .next (each F32.mul)) ∧
      (code = 0x03 → exec (.vopMax sl q) s = .next (each F32.max)) ∧
      (code = 0x04 → exec (.vopMin sl q) s = .next (each F32.min)) ∧
      (code = 0x07 → exec (.vopAxpy sl q) s = .next (each fun a b => fma32 b a g.scalar)) ∧
      (code = 0x18 → exec (.vopSwiglu sl q) s = .next (each F32.swiglu))) ∧
    (∀ g : VopArgs, vopArgs k w .one false = some g →
      let one (f : F32 → F32 → F32) : State := put g (x.poisoned (chamberAddr q g.a) (vopBytes g.aFmt g.n) ||
          x.poisoned (chamberAddr q g.b) 4) g.dFmt
        ((vopRead x q g.aFmt g.a g.n).map fun a => f a (BitVec.ofNat 32 (x.loadNat (chamberAddr q g.b) 4)))
      (code = 0x08 → exec (.vopAddb sl q) s = .next (one F32.add)) ∧
      (code = 0x09 → exec (.vopMulb sl q) s = .next (one F32.mul)) ∧
      (code = 0x17 → exec (.vopExpsub sl q) s = .next (one fun a b => F32.exp (F32.sub a b)))) ∧
    (∀ g : VopArgs, vopArgs k w .none true = some g →
      let a := vopRead x q g.aFmt g.a g.n
      let bad := x.poisoned (chamberAddr q g.a) (vopBytes g.aFmt g.n)
      (code = 0x20 → exec (.vopSum sl q) s = .next (put g bad 9 [reduceBy F32.add 128 a])) ∧
      (code = 0x21 → exec (.vopSumsq sl q) s = .next (put g bad 9 [reduceBy F32.add 128 (a.map fun v => F32.mul v v)])) ∧
      (code = 0x22 → exec (.vopMaxred sl q) s = .next (put g bad 9 [reduceBy F32.max 128 a])))

/-- A drip boundary counts a drip, takes the presence flags, and ends a stage whose due drip has passed. While the
dividers run, on a device with no job, no stage, no request, no waiting change of the unit map, no rollout, no
processor on its way back and no corrected symbols counted on a port, DRIP_BOUNDARY counts one drip more; each
slice loses the flags that the stages of the past drip left to be cleared, takes those that stand as the flags
of the boundary, and every thread or quad that waits for a drip that has come goes on. While the dividers do not
run the command changes nothing. Where one stage is live on a device with a job loaded and no request, no
rollout, no processor on its way back, no corrected symbols counted and no frame start at the boundary, the
boundary ends as missed, and counts, a launched stage whose due drip is past or whose program has waited where
still-water mode allows no wait, and a waiting one whose latest launch drip is past; the threads of a missed
phase are stopped. A launched stage that has not missed stays launched. The stage is not a collective step and
not a pass digest. Rests on R24, R32, R33, R35, R36, R89, R101, R106, R172, R534. -/
def Obligations.DripBoundary : Prop :=
  let quiet (s : State) : Prop := s.fw.rollout = 0 ∧ s.fw.returning = none ∧
    ∀ x ∈ s.slices, ∀ l ∈ x.ports, l.fecCount = 0 ∧ l.fecHot = 0
  (∀ s : State, s.Inv →
    (s.pkg.dividersRun = true → s.job = none → quiet s → (∀ x ∈ s.slices, x.runs = [] ∧ x.svc.reqs = [] ∧ x.spares.waiting = []) →
      ∃ t : State, exec .dripBoundary s = .next t ∧ t.now = s.now.plus 1 ∧ t.job = none ∧
        ∀ sl : SliceId, (t.sl sl).flags = (s.sl sl).flags.filter (fun f => !(s.sl sl).toClear.contains f) ∧ (t.sl sl).toClear = [] ∧
          (t.sl sl).flagsAt = (t.sl sl).flags ∧
          (∀ (e : EngineId) (h : ThreadId) (d : Drip), (s.thread sl e h).st = .waitDrip d →
            (t.thread sl e h).st = if Drip.later d (s.now.plus 1) then .waitDrip d else .ready) ∧
          (∀ (q : QuadId) (d : Drip), (s.quad sl q).st = .waitDrip d →
            (t.quad sl q).st = if Drip.later d (s.now.plus 1) then .waitDrip d else .running)) ∧
    (s.pkg.dividersRun = false → exec .dripBoundary s = .next s)) ∧
  (∀ (s : State) (sl : SliceId) (u : Run) (j : Image), s.Inv → s.pkg.dividersRun = true → s.job = some j → quiet s →
    s.isFrameStart (s.now.plus 1) = false → (∀ x ∈ s.slices, x.svc.reqs = []) → (s.sl sl).runs = [u] →
    (∀ i : SliceId, i ≠ sl → (s.sl i).runs = []) → u.entry.kind ≠ .collective → u.entry.kind ≠ .passDigest →
    ∃ t : State, exec .dripBoundary s = .next t ∧ t.now = s.now.plus 1 ∧
      ((u.st = .launched ∧ (Drip.later (s.now.plus 1) u.dueDrip = true ∨ u.lateInput = true)) ∨
          (u.st = .waiting ∧ Drip.later (s.now.plus 1) u.latestDrip = true) →
        (t.sl sl).runs = [{ u with st := .missed }] ∧ t.time.stageMisses = s.time.stageMisses + 1 ∧
        ∀ (e : EngineId) (h : ThreadId), u.entry.unit = .engine e → h.val ∈ u.threads → (s.thread sl e h).run = u.idx →
          (t.thread sl e h).st = .idle) ∧
      (u.st = .launched → Drip.later (s.now.plus 1) u.dueDrip = false → u.lateInput = false → s.time.freeDue = false →
        (t.sl sl).runs = [u] ∧ t.time.stageMisses = s.time.stageMisses))

/-- STAGE_LAUNCH launches a stage that may launch and holds one that may not, and STAGE_COMPLETE completes.
STAGE_LAUNCH of a stage that may launch leaves it launched at the current drip: a quad segment runs from its
ENTRY with q1 the ARG, q2 the launch drip and every other register 0, and the threads of a phase are READY at
its ENTRY with their registers set. A stage that may not launch stays as it is outside still-water mode, and in
still-water mode a stage whose inputs are absent at its launch drip is noted as missed. A launched injection
leaves none of its messages queued. The collisions that the command brings are counted, at the launch and later
while the stage runs, and in still-water mode each that the stage loses gives the requests tied to it
SCHEDULE_COLLISION at the next drip; outside still-water mode they change nothing else. STAGE_COMPLETE completes
a launched receive, and an injection none of whose messages waits, and sets the flag of its output. Rests on
R28, R31, R32, R33, R34, R49, R50, R89, R93, R167. -/
def Obligations.StageLaunches : Prop :=
  ∀ (s : State) (sl : SliceId) (i : Nat) (u : Run) (hits : List Collision), s.Inv →
    let x := s.sl sl
    (x.waitingRun i = some u → s.launchable sl u = true → u.entry.kind ≠ .inject →
      ∃ t : State, exec (.stageLaunch sl i hits) s = .next t ∧
        (∀ v ∈ (t.sl sl).runs, v.idx = u.idx → v.frame = u.frame → v.st = .launched ∧ v.launchedAt = s.now) ∧
        (∀ q : QuadId, u.entry.kind = .quad → u.entry.unit = .quad q →
          (t.quad sl q).st = .running ∧ (t.quad sl q).pc = u.entry.f.entry ∧
          ∀ n, n < 16 → (t.quad sl q).reg n =
            if n = 1 then u.entry.f.arg else if n = 2 then BitVec.ofNat 64 u.launchDrip.toNat else 0) ∧
        (∀ (e : EngineId) (h : ThreadId), u.entry.kind = .route → u.entry.unit = .engine e →
          u.entry.f.first ≤ h.val → h.val < u.entry.f.first + u.entry.f.threads →
          (t.thread sl e h).st = .ready ∧ (t.thread sl e h).pc = u.entry.f.entry ∧
          (t.thread sl e h).reg 1 = BitVec.ofNat 64 (h.val - u.entry.f.first) ∧ (t.thread sl e h).reg 2 = u.entry.f.arg ∧
          (t.thread sl e h).reg 3 = BitVec.ofNat 64 u.launchDrip.toNat ∧
          (t.thread sl e h).reg 4 = BitVec.ofNat 64 (0xD00000 + h.val * 0xC000))) ∧
    (x.waitingRun i = some u → s.launchable sl u = true →
      let v := s.launchStage sl u
      let n := (hits.filter (collides (s.pkg.congestionMode == 0))).length
      (s.still.on = false ∨ (∀ c ∈ hits, collides (s.pkg.congestionMode == 0) c = false) →
        exec (.stageLaunch sl i hits) s = .next { v with time := { v.time with collisions := v.time.collisions + n } }) ∧
      (s.still.on = true → (∃ c ∈ hits, c.loser = none ∧ collides (s.pkg.congestionMode == 0) c = true) →
        ∃ t : State, exec (.stageLaunch sl i hits) s = .next t ∧ t.time.collisions = v.time.collisions + n ∧
          ∀ r ∈ (v.sl sl).svc.reqs, v.ties sl u r = true → ∃ r' ∈ (t.sl sl).svc.reqs, r'.slot = r.slot ∧
            (⟨s.now, s.now.plus 1, .scheduleCollision, u.entry.f.layer.getD 0xFF⟩ : Cond) ∈ r'.conds)) ∧
    (x.waitingRun i = none → x.launchedRun i = some u → ∃ t : State, exec (.stageLaunch sl i hits) s = .next t ∧
      t.time.collisions = s.time.collisions + (hits.filter (collides (s.pkg.congestionMode == 0))).length ∧ (t.sl sl).runs = x.runs ∧
      (s.still.on = true → (∃ c ∈ hits, c.loser = none ∧ collides (s.pkg.congestionMode == 0) c = true) →
        ∀ r ∈ x.svc.reqs, s.ties sl u r = true → ∃ r' ∈ (t.sl sl).svc.reqs, r'.slot = r.slot ∧
          (⟨s.now, s.now.plus 1, .scheduleCollision, u.entry.f.layer.getD 0xFF⟩ : Cond) ∈ r'.conds)) ∧
    (x.waitingRun i = some u → s.launchable sl u = true → u.entry.kind = .inject → ∃ t : State, exec (.stageLaunch sl i hits) s = .next t ∧
      ∀ m ∈ (t.sl sl).exch.injections, m.injection ≠ u.entry.f.injection) ∧
    (x.waitingRun i = some u → s.launchable sl u = false → s.still.on = false → exec (.stageLaunch sl i hits) s = .next s) ∧
    (x.waitingRun i = some u → s.still.on = true → u.launchDrip = s.now → x.present? u = false →
      ∃ t : State, exec (.stageLaunch sl i hits) s = .next t ∧
        ∀ v ∈ (t.sl sl).runs, v.idx = u.idx → v.frame = u.frame → v.lateInput = true) ∧
    (x.launchedRun i = some u → (u.entry.kind = .receive ∨ u.entry.kind = .inject ∧ ∀ m ∈ x.fabric.windowed, m.issuer ≠ .inject u.idx u.frame) →
      ∃ t : State, exec (.stageComplete sl i) s = .next t ∧ OnlySlice s t sl ∧ (t.sl sl).mem = x.mem ∧
        (∀ v ∈ (t.sl sl).runs, v.idx = u.idx → v.frame = u.frame → v.st = .completed) ∧
        ∀ f, u.entry.f.sets = some f → f ∈ (t.sl sl).flags)

/-- Time symbols and time packets, the parent port and the error bound. A port that is UP sends a TIME symbol with
its TSEQ, which then rises by one modulo 256, and a link-local TIME packet; a device in FREE that holds no
DRIP_ORIGIN and has heard of no other device makes itself grandmaster first (log 121). A TIME symbol that
arrives at the parent port and echoes one of this port gives the offset half of the difference of the two
one-way figures; with a job loaded in LOCKED the time is not stepped but slewed by the offset, the error bound
is the parent's bound plus the size of the offset and 32, and a bound above 512 goes back to ACQUIRING. In
ACQUIRING with no job the time is stepped once. A symbol on any other port, or one that echoes nothing, changes
no time (log 120). A TIME packet of a better grandmaster on the only port that carries time makes that port the
parent, with one hop more. Rests on R38, R39, R40, R41, R43, R269. -/
def Obligations.TimeSymbolsAndPackets : Prop :=
  ∀ (s : State) (sl : SliceId) (p : PortId), s.Inv → (s.link sl (.port p)).st = linkUp →
    exec (.timeSymbolSend sl p) s = .next (s.onLink sl (.port p) fun k =>
      { k with symbols := k.symbols ++ [timeSymbolBytes s k], tseq := (k.tseq + 1) % 256 }) ∧
    (s.time.state ≠ 0 ∨ s.time.hasOrigin = true ∨ s.timePorts ≠ [] →
      exec (.timePacketSend sl p) s = .next (s.enqueue sl (.port p) .own (timePacket s sl) none)) ∧
    (s.time.state = 0 → s.time.hasOrigin = false → s.timePorts = [] → ∃ t : State, exec (.timePacketSend sl p) s = .next t ∧
      t.time.state = 4 ∧ t.time.gmNode = s.pkg.nodeId ∧ t.time.hops = 0 ∧ t.time.hasOrigin = true ∧
      ∃ q ∈ (t.link sl (.port p)).egressReq, q.pkt.opcode = 0x18) ∧
    (∀ y : TimeSym,
      let o := ((((y.echoRx : Int) - y.echoT1) - ((y.rx : Int) - y.t1))) / 2
      let b := y.gmErr + o.natAbs + 32
      (s.time.parent ≠ 8 * sl.val + p.val ∨ paired y = false → exec (.timeSymbol sl p y) s = .next (s.onLink sl (.port p) fun k =>
        { k with timeRx := some (y.t1, y.rx), gmErr := y.gmErr })) ∧
      (s.time.parent = 8 * sl.val + p.val → paired y = true → s.time.state = 2 → s.job.isSome = true →
        ∃ t : State, exec (.timeSymbol sl p y) s = .next t ∧ t.time.now = s.time.now ∧ t.time.slewing = o ∧ t.time.offset = o ∧
          t.time.delay = ((((y.echoRx : Int) - y.echoT1) + ((y.rx : Int) - y.t1))) / 2 ∧ t.time.errBound = b ∧
          t.time.state = (if b ≤ 512 then 2 else 1) ∧ t.now = s.now) ∧
      (s.time.parent = 8 * sl.val + p.val → paired y = true → s.time.state = 1 → s.job = none → s.time.stepped = false →
        ∃ t : State, exec (.timeSymbol sl p y) s = .next t ∧ t.time.now = ((s.time.now : Int) + o).toNat ∧
          t.time.state = (if b ≤ 512 ∧ 63 ≤ s.time.good then 2 else 1))) ∧
    (∀ y : TimePkt, y.gmNode ≠ s.pkg.nodeId → (s.time.tiEnable && s.time.tiLocked) = false → (y.gmLocked = true ∨ y.gmNode < s.pkg.nodeId) →
      (s.time.state = 4 → s.time.held = true → y.gmLocked = true) →
      (∀ (i : SliceId) (r : PortId), (i, r) ≠ (sl, p) → (s.link i (.port r)).timePkt = none) →
      ∃ t : State, exec (.timePacket sl p y) s = .next t ∧ (t.link sl (.port p)).timePkt = some y ∧
        t.time.parent = 8 * sl.val + p.val ∧ t.time.gmNode = y.gmNode ∧ t.time.hops = y.hops + 1 ∧
        t.time.state = if s.time.state = 1 ∨ s.time.state = 2 then s.time.state else 1)

/-- TIME_IN pulses, lock and loss, and the end of holdover. An enabled TIME_IN pulse steps the time to the whole
second that TIME_IN_SECONDS gives with no job loaded, and slews it there otherwise; with TIME_IN disabled, or on
a device that has yielded to a lower node, it changes nothing. TIME_IN lock on a device that hears no time makes
it grandmaster and GRANDMASTER its state; one that hears a locked claim of a lower node alone follows that node
and has yielded. TIME_IN loss keeps the state and the time and clears the lock, and a grandmaster that lost it
holds its place: a TIME packet changes nothing but what its port last heard while no claim that it hears is
locked. The end of HOLDOVER leaves the state FREE and owes a drip boundary the end of what crosses the device's
edge. What the boundary then does for it (endFree), in SCHEDULED mode with a job loaded: every request whose
scheduled traffic goes to or comes from another device is given FABRIC_LOST, found in the drip that ended, a
request whose traffic does not is not touched, a stage that carries nothing else ends, and no message for
another node stays queued. Rests on R39, R44, R45, R47, R527. -/
def Obligations.TimeInputAndHoldover : Prop :=
  ∀ s : State, s.Inv →
    (s.time.tiEnable = true → s.time.yielded = false → s.job = none →
      let tm : Time := { s.time with now := s.time.tiSeconds * 256000000000 }
      exec .timeInPps s = .next { s with time := { tm with drip := dripAt tm } }) ∧
    (s.time.tiEnable = true → s.time.yielded = false → s.job.isSome = true →
      exec .timeInPps s = .next { s with time := { s.time with slewing := ((s.time.tiSeconds * 256000000000 : Nat) : Int) - s.time.now } }) ∧
    (s.time.tiEnable = false ∨ s.time.yielded = true → exec .timeInPps s = .next s) ∧
    (s.time.tiEnable = true → (∀ (i : SliceId) (r : PortId), (s.link i (.port r)).timePkt = none) →
      ∃ t : State, exec .timeInLock s = .next t ∧ t.time.tiLocked = true ∧ t.time.state = 4 ∧ t.time.gmNode = s.pkg.nodeId ∧
        t.time.gmLocked = true ∧ t.time.hops = 0 ∧ t.time.hasOrigin = true) ∧
    (∀ (n : Nat) (y : TimePkt), s.time.tiEnable = true → s.timePorts = [(n, y)] → y.gmLocked = true → y.gmNode < s.pkg.nodeId →
      ∃ t : State, exec .timeInLock s = .next t ∧ t.time.tiLocked = true ∧ t.time.yielded = true ∧ t.time.gmNode = y.gmNode ∧
        t.time.parent = n) ∧
    (∃ t : State, exec .timeInLoss s = .next t ∧ t.time.tiLocked = false ∧ t.time.yielded = false ∧ t.time.state = s.time.state ∧
      (s.time.state = 4 → t.time.gmLocked = false ∧ (s.time.gmLocked = true → t.time.held = true)) ∧ t.time.now = s.time.now) ∧
    (∀ (sl : SliceId) (p : PortId) (y : TimePkt), (s.link sl (.port p)).st = linkUp → s.time.state = 4 → s.time.held = true →
      s.ownClaim = false → y.gmLocked = false → (∀ (i : SliceId) (r : PortId) (k : TimePkt), (s.link i (.port r)).timePkt = some k → k.gmLocked = false) →
      exec (.timePacket sl p y) s = .next (s.onLink sl (.port p) fun k => { k with timePkt := some y })) ∧
    (s.time.state = 3 → ∃ t : State, exec .holdoverTimeout s = .next t ∧ t.time.state = 0 ∧ t.time.freeDue = true ∧ t.slices = s.slices) ∧
    (s.time.freeDue = true → s.pkg.congestionMode = 0 → s.job.isSome = true → ∀ sl : SliceId,
      (∀ r ∈ (s.sl sl).svc.reqs, s.crosses sl r = true → ∃ v ∈ (s.endFree.sl sl).svc.reqs, v.slot = r.slot ∧
        ⟨s.now - 1, s.now, .fabricLost, 0xFF⟩ ∈ v.conds) ∧
      (∀ r ∈ (s.sl sl).svc.reqs, s.crosses sl r = false → ∃ v ∈ (s.endFree.sl sl).svc.reqs, v.slot = r.slot ∧ v.conds = r.conds) ∧
      (∀ u ∈ (s.sl sl).runs, s.stopsWhole sl u = true → ∀ w ∈ (s.endFree.sl sl).runs, w.idx = u.idx → w.frame = u.frame → w.over = true) ∧
      ∀ q ∈ (s.endFree.sl sl).exch.injections, s.freeStops q = false)

/-- Failing units, margins and migrations with a job loaded. With a job loaded, a routing engine that fails stops
all its threads, runs nothing, ends the stages live on it and waits for its spare at the next frame start; an
array that fails leaves its quad idle and waits likewise. A reading within its margin starts the count of
readings anew, fewer than three readings in a row below it are only counted, and the third, where one of the
three is not provisional, takes the margin decision. A finished copy of SPARE_MIGRATION leaves the list of
copies and its change waits. When a whole slice fails, its stages end, its threads and quads are idle and it is
withdrawn; a failed sump port, and the whole collective engine, is withdrawn, so that nothing launches on it.
Rests on R15, R85, R471, R472, R473, R475. -/
def Obligations.FailedUnits : Prop :=
  ∀ (s : State) (sl : SliceId) (j : Image), s.Inv → s.job = some j →
    (∀ e : EngineId, ∃ t : State, exec (.routingEngineFail sl e) s = .next t ∧
      ((t.sl sl).engine e).failed = true ∧ ((t.sl sl).engine e).running = none ∧ ((t.sl sl).engine e).busy = [] ∧
      (∀ h : ThreadId, (t.thread sl e h).st = .idle) ∧
      ({ kind := 3, index := e.val }, none) ∈ (t.sl sl).spares.waiting ∧ ({ kind := 3, index := e.val } : UnitRef) ∈ (t.sl sl).spares.failed ∧
      ∀ u ∈ (t.sl sl).runs, u.entry.unit = .engine e → u.st ≠ .launched) ∧
    (∀ (q : QuadId) (a : Fin 4), (s.sl sl).spares.array.getD q 7 = 7 →
      ∃ t : State, exec (.unitFail sl { kind := 1, index := 8 * q.val + a.val }) s = .next t ∧ (t.quad sl q).st = .idle ∧
        ({ kind := 1, index := 8 * q.val + a.val }, none) ∈ (t.sl sl).spares.waiting ∧
        ({ kind := 1, index := 8 * q.val + a.val } : UnitRef) ∈ (t.sl sl).spares.failed ∧
        ∀ u ∈ (t.sl sl).runs, u.entry.unit = .quad q → u.st ≠ .launched) ∧
    (∀ (u : UnitRef) (prov : Bool),
      let ms := (s.sl sl).spares.margins
      exec (.marginSensorRead sl u false prov) s =
        .next (s.onSl sl fun x => { x with spares := { x.spares with margins := ms.filter fun m => m.1 != u } }) ∧
      (ms.find? (fun k => k.1 == u) = none → exec (.marginSensorRead sl u true prov) s = .next (s.onSl sl fun x => { x with spares :=
        { x.spares with margins := (ms.filter fun k => k.1 != u) ++ [(u, 1, !prov)] } })) ∧
      (∀ m : UnitRef × Nat × Bool, ms.find? (fun k => k.1 == u) = some m → 2 ≤ m.2.1 → m.2.2 = true ∨ prov = false →
        exec (.marginSensorRead sl u true prov) s = .next ((s.onSl sl fun x => { x with spares :=
          { x.spares with margins := ms.filter fun k => k.1 != u } }).marginDecision sl u)) ∧
      (∀ m : UnitRef × Nat × Bool, ms.find? (fun k => k.1 == u) = some m → m.2.1 < 2 →
        exec (.marginSensorRead sl u true prov) s = .next (s.onSl sl fun x => { x with spares := { x.spares with
          margins := (ms.filter fun k => k.1 != u) ++ [(u, m.2.1 + 1, m.2.2 || !prov)] } }))) ∧
    (∀ (stack : Fin 4) (m : Nat × Nat × Option Nat), (s.sl sl).spares.migrating.find? (fun k => k.1 == stack.val) = some m →
      ∃ t : State, exec (.spareMigration sl stack) s = .next t ∧ OnlySlice s t sl ∧
        (t.sl sl).spares.migrating = (s.sl sl).spares.migrating.erase m ∧
        ({ kind := 6, index := 65 * m.1 + m.2.1 }, m.2.2) ∈ (t.sl sl).spares.waiting) ∧
    (∃ t : State, exec (.unitFail sl { kind := 0, index := 0 }) s = .next t ∧ (∀ u ∈ (t.sl sl).runs, u.st ≠ .launched) ∧
      ({ kind := 0, index := 0 } : UnitRef) ∈ (t.sl sl).spares.failed ∧ (∀ q : QuadId, (t.quad sl q).st = .idle) ∧
      ∀ (e : EngineId) (h : ThreadId), (t.thread sl e h).st = .idle) ∧
    (∃ t : State, exec (.unitFail sl { kind := 9, index := 0 }) s = .next t ∧ (t.sl sl).barred .sump = true ∧
      ∀ u ∈ (t.sl sl).runs, u.entry.unit = .sump → u.st ≠ .launched) ∧
    ∃ t : State, exec (.unitFail sl { kind := 4, index := 0xFFF }) s = .next t ∧ (t.sl sl).barred .collective = true ∧
      ∀ u ∈ (t.sl sl).runs, u.entry.unit = .collective → u.st ≠ .launched

/-- Sump tiles land in their frame, and a fetch that fails gives its slot back at the next drip boundary. A sump
tile of a fetch that still lacks tiles, whose CRC and tag hold, is written into the fetch's frame at its place
in the image and noted, and the fetch has all its tiles as of this drip with the last; one that fails a check
fails the fetch with LAST_FAIL 0x13, and one that carries poison is counted and fails it with 0x12. A read
unanswered gives LAST_FAIL 0x12, and the loss of the sump link that is UP gives it to a fetch that lacks tiles,
is counted and leaves the link DOWN. A failed fetch is counted and holds its frame. The settling of fetches that
starts a drip (settleFetches) returns the slot of a failed one to SUMP and makes that of one with all its tiles
STAGED at the fetch's frame and used since then, in the bytes of the residency table too. FETCH_COMPLETE ends a
fetch so settled, counts it as late if it was not a lookahead and was settled after its due drip, and completes
the prefetch stage that started it when the stage has no other fetch under way; of another slot it does nothing.
Each event of the expander gives one report. A PREFETCH of one slot that is in SUMP takes the lowest released
frame, the slot is IN_FLIGHT and its image is read; with no released frame, and where it names no slot in SUMP,
it completes. Rests on R214, R215, R216, R220, R223, R229, R230, R235, R506, R507. -/
def Obligations.TierFetches : Prop :=
  ∀ (s : State) (sl : SliceId), s.Inv →
    let x := s.sl sl
    let k := x.tiers
    (∀ (layer : Nat) (r : SlotRef) (f : Fetch) (e : ResEntry),
      k.fetch? layer r = some f → k.res = [e] → k.entry? layer r = some e → k.fetches = [f] → f.failed = false → f.full = none →
      let failed (t : State) (c : Nat) : Prop := (t.sl sl).tiers.fetches = [{ f with failed := true }] ∧
        (t.sl sl).tiers.res = [{ e with lastFail := c }] ∧ (t.sl sl).tiers.fetchFailed = k.fetchFailed + 1
      (∀ (tile : Nat) (data tag : Bytes), tile < e.tiles → tile ∉ f.landed →
        let off := tileOffset x tile e.sumpAddr
        let good := tileCrcOk data = true ∧ tag = sumpTag s.sec.memoryKey off data
        (good → ∃ t : State, exec (.sumpTileArrival sl layer r tile { bytes := data } tag) s = .next t ∧ OnlySlice s t sl ∧
          SameBytesOutside x (t.sl sl) (k.poolBase + f.frame * k.frameBytes + (off - e.sumpAddr)) data.length ∧
          (t.sl sl).load (k.poolBase + f.frame * k.frameBytes + (off - e.sumpAddr)) data.length = data ∧
          (t.sl sl).tiers.fetches = [{ f with
            landed := f.landed ++ [tile], full := if f.landed.length + 1 = e.tiles then some s.now else none }]) ∧
        (¬ good → ∃ t : State, exec (.sumpTileArrival sl layer r tile { bytes := data } tag) s = .next t ∧ failed t 0x13) ∧
        ∃ t : State, exec (.sumpTileArrival sl layer r tile { bytes := data, poison := true } tag) s = .next t ∧ failed t 0x12 ∧
          (t.sl sl).sump.poison = x.sump.poison + 1) ∧
      (∃ t : State, exec (.sumpReadTimeout sl layer r) s = .next t ∧ failed t 0x12) ∧
      (x.sump.link = 3 → ∃ t : State, exec (.sumpLinkDown sl) s = .next t ∧ failed t 0x12 ∧
        (t.sl sl).sump.link = 0 ∧ (t.sl sl).sump.linkDowns = x.sump.linkDowns + 1)) ∧
    (∀ (f : Fetch) (e : ResEntry), k.fetches = [f] → k.res = [e] → k.entry? f.layer f.slot = some e → ∀ d : Drip,
      let y := x.settleFetches d
      let done : ResEntry := { e with state := 3, frame := f.frame, lastUse := d }
      (f.failed = true → y.tiers.res = [{ e with state := 1 }] ∧ y.tiers.fetches = [] ∧ y.tiers.present = k.present) ∧
      (f.failed = false → f.full.isSome = true → y.tiers.res = [done] ∧ y.tiers.fetches = [] ∧
        y.tiers.present = k.present ++ [{ f with full := some d }] ∧
        y.load (resOffset k.residencyBase e) 32 = leBytes 32 (resWord done)) ∧
      (f.failed = false → f.full = none → y.tiers.res = [{ e with state := 2 }] ∧ y.tiers.fetches = [f])) ∧
    (∀ (f : Fetch) (d : Drip), k.present = [f] → f.full = some d →
      ∃ t : State, exec (.fetchComplete sl f.layer f.slot) s = .next t ∧ OnlySlice s t sl ∧ (t.sl sl).tiers.present = [] ∧
        (t.sl sl).tiers.fetchLate = k.fetchLate + (if f.kind ≠ .lookahead ∧ Drip.later d f.due = true then 1 else 0) ∧
        (f.run = none → (t.sl sl).runs = x.runs) ∧
        ∀ i, f.run = some i → (∀ g ∈ k.fetches, g.run ≠ some i) → ∀ u,
          x.runs.find? (fun u => u.idx == i && u.entry.kind == .prefetch && u.st == .launched && !u.stopped) = some u →
          ∀ v ∈ (t.sl sl).runs, v.idx = u.idx → v.frame = u.frame → v.st = .completed) ∧
    (∀ (layer : Nat) (r : SlotRef), (∀ f ∈ k.present, f.layer = layer → f.slot ≠ r) → exec (.fetchComplete sl layer r) s = .next s) ∧
    exec (.sumpEventPoll sl []) s = .next s ∧
    (∀ (n : Nat) (rest : List Nat),
      exec (.sumpEventPoll sl (n :: rest)) s = exec (.sumpEventPoll sl rest) (s.report sl (mkReport 0x19 9 0 0 255 [n]))) ∧
    (∀ (i : Nat) (u : Run) (v : State), s.actingRun sl i .prefetch = some (u, v) →
      ((∀ p ∈ u.entry.f.prefetch, ∀ e, k.entry? p.1 p.2 = some e → e.pool = true → e.state ≠ 1) →
        exec (.prefetchStage sl i) s = .next (v.onSl sl fun y => y.completeRun u)) ∧
      (∀ (r : SlotRef) (e : ResEntry) (l : Nat), u.entry.f.prefetch = [(l, r)] → k.entry? l r = some e →
        e.pool = true → e.state = 1 → k.fetching l r = false →
        (k.freeFrame = none → ∃ t : State, exec (.prefetchStage sl i) s = .next t ∧ (t.sl sl).tiers.noFrame = k.noFrame + 1 ∧
          ∀ w ∈ (t.sl sl).runs, w.idx = u.idx → w.frame = u.frame → w.st = .completed) ∧
        ∀ f, k.freeFrame = some f →
        ∃ t : State, exec (.prefetchStage sl i) s = .next t ∧
          (∃ g ∈ (t.sl sl).tiers.fetches, g.layer = l ∧ g.slot = r ∧ g.frame = f ∧ g.run = some i) ∧
          (t.sl sl).tiers.stateOf l r = 2 ∧ Emit.cxlRead sl e.sumpAddr (fetchBytes e) ∈ t.out))

/-- The view, frame release, write windows, patrol scrub, retraining and the return of the sump port. A VIEW stage
completes, with its snapshot of the slots to evict where the sump port is not UP, and with the port UP on the
device the slice knew no slot is ABSENT after it. FRAME_RELEASE frees a frame that no segment under way sampled,
and does nothing while one did. WINDOW_OPEN opens the window of its ranges with no tile written and completes.
WINDOW_CLOSE, once no write that was admitted to the window waits to be applied, closes it, completes and leaves
the new root due, the epoch in force unchanged; until then its stage waits and the window stays as it is.
PATROL_SCRUB of a granule without an error moves to the next granule, and past the end of HBM starts a new pass
and counts one; the first granule of a pass notes when the pass began; a word corrected and a word that could
not be is counted; a pass that is under way longer than SCRUB_INTERVAL is noted. HBM_RETRAIN moves to the next
pseudo-channel of its stack, and does nothing while a copy to a spare pseudo-channel or row runs on the stack. A
sump port that is down and whose function is ON trains to UP, with no job loaded, on the device it knew, with
its entries as found and the hot-set slots kept; it stays down where it finds none, and is REFUSED one that is
not suitable. SUMP_RETRAIN of a port that is not down or whose function is not ON does nothing. Rests on R211,
R212, R217, R219, R220, R232, R234, R475, R504, R505, R507. -/
def Obligations.TierStages : Prop :=
  ∀ (s : State) (sl : SliceId), s.Inv →
    let x := s.sl sl
    let k := x.tiers
    (∀ (i : Nat) (u : Run) (v : State), s.actingRun sl i .view = some (u, v) →
      ∃ t : State, exec (.viewStage sl i) s = .next t ∧ (x.sump.link ≠ 3 → (t.sl sl).tiers.evict = (v.sl sl).evictions s.now) ∧
        (x.sump.link = 3 → x.sump.foreign = false → ∀ e ∈ (t.sl sl).tiers.res, e.pool = true → e.state ≠ 0) ∧
        ∀ w ∈ (t.sl sl).runs, w.idx = u.idx → w.frame = u.frame → w.st = .completed) ∧
    (∀ frame : Nat, ((∀ q ∈ x.quads, q.st ≠ .idle → ∀ m ∈ q.sampled, m.2 ≠ some frame) →
        exec (.frameRelease sl frame) s = .next (s.onSl sl fun y =>
          { y with tiers := { y.tiers with releasing := y.tiers.releasing.filter (· != frame) } })) ∧
      ((∃ q ∈ x.quads, q.st ≠ .idle ∧ ∃ m ∈ q.sampled, m.2 = some frame) → exec (.frameRelease sl frame) s = .next s)) ∧
    (∀ (i : Nat) (u : Run) (v : State), s.actingRun sl i .windowOpen = some (u, v) →
      ∃ t : State, exec (.windowOpen sl i) s = .next t ∧ (t.sl sl).tiers.window = { ranges := u.entry.f.ranges, isOpen := true } ∧
        (t.sl sl).tiers.written = [] ∧ ∀ w ∈ (t.sl sl).runs, w.idx = u.idx → w.frame = u.frame → w.st = .completed) ∧
    (∀ (i : Nat) (u : Run) (v : State), s.actingRun sl i .windowClose = some (u, v) → x.windowWrites = true →
      ∃ t : State, exec (.windowClose sl i) s = .next t ∧ (t.sl sl).tiers.window = k.window ∧
        ∀ w ∈ (t.sl sl).runs, w.idx = u.idx → w.frame = u.frame → w.st = .launched ∧ w.begun = false) ∧
    (∀ (i : Nat) (u : Run) (v : State), s.actingRun sl i .windowClose = some (u, v) → x.windowWrites = false →
      ∃ t : State, exec (.windowClose sl i) s = .next t ∧ (t.sl sl).tiers.window.isOpen = false ∧
        t.epochs.tuningRoot = some (weightRoot t.epochs.manifest) ∧ t.epochs.current = s.epochs.current ∧
        ∀ w ∈ (t.sl sl).runs, w.idx = u.idx → w.frame = u.frame → w.st = .completed) ∧
    (k.scrubPos = 0 → exec (.patrolScrub sl [] []) s =
      .next (s.onSl sl fun y => { y with tiers := { y.tiers with scrubPos := 256, scrubStart := s.time.now, scrubLate := false } })) ∧
    (k.scrubPos ≠ 0 → k.scrubPos + 256 < 0x4000000000 → s.scrubSlow sl = false → exec (.patrolScrub sl [] []) s =
      .next (s.onSl sl fun y => { y with tiers := { y.tiers with scrubPos := k.scrubPos + 256 } })) ∧
    (s.scrubSlow sl = true → ∃ t : State, exec (.patrolScrub sl [] []) s = .next t ∧ (t.sl sl).tiers.scrubLate = true ∧
      (t.sl sl).mem = x.mem ∧ (t.sl sl).tiers.scrubPos = if k.scrubPos + 256 < 0x4000000000 then k.scrubPos + 256 else 0) ∧
    (0x4000000000 ≤ k.scrubPos + 256 → s.scrubSlow sl = false → exec (.patrolScrub sl [] []) s =
      .next (s.onSl sl fun y => { y with tiers := { y.tiers with
        scrubPos := 0, scrubPasses := y.tiers.scrubPasses + 1, passCorrected := [] } })) ∧
    (∀ j, j < 32 → (∃ t : State, exec (.patrolScrub sl [k.scrubPos + 8 * j] []) s = .next t ∧
        (t.sl sl).tiers.scrubCorrected = k.scrubCorrected + 1) ∧
      ∃ t : State, exec (.patrolScrub sl [] [k.scrubPos + 8 * j]) s = .next t ∧
        (t.sl sl).tiers.scrubUncorrectable = k.scrubUncorrectable + 1) ∧
    (∀ stack : Fin 4, ((∀ m ∈ x.spares.migrating, m.1 ≠ stack.val) → exec (.hbmRetrain sl stack) s =
        .next (s.onSl sl fun y => { y with tiers := { y.tiers with
          retrainPos := y.tiers.retrainPos.modify stack.val fun n => (n + 1) % 64 } })) ∧
      ((∃ m ∈ x.spares.migrating, m.1 = stack.val) → exec (.hbmRetrain sl stack) s = .next s)) ∧
    (∀ e : Option Expander, (s.lifeOf 4 sl).st ≠ 2 ∨ x.sump.link ≠ 0 → exec (.sumpRetrain sl e) s = .next s) ∧
    ((s.lifeOf 4 sl).st = 2 → x.sump.link = 0 → exec (.sumpRetrain sl none) s = .next s) ∧
    (∀ e : Expander, (s.lifeOf 4 sl).st = 2 → x.sump.link = 0 → e.suitable = false →
      ∃ t : State, exec (.sumpRetrain sl (some e)) s = .next t ∧ (t.sl sl).sump.link = 4) ∧
    (∀ e : Expander, (s.lifeOf 4 sl).st = 2 → x.sump.link = 0 → e.suitable = true → s.job = none → x.sump.serial = e.serial →
      x.sump.capacity = Expander.mapped e →
      ∃ t : State, exec (.sumpRetrain sl (some e)) s = .next t ∧ (t.sl sl).sump.link = 3 ∧ (t.sl sl).sump.lanes = e.lanes ∧
        (t.sl sl).sump.rate = e.rate ∧ (t.sl sl).sump.capacity = x.sump.capacity ∧
        (t.sl sl).tiers.derivedRate = some (Expander.derivedRate e) ∧ t.hot = s.hot)

/-- Training, coming up, going down and the timers of a link. A link that is DOWN, neither held out nor disabled, on
a slice that is present starts to train. Training completes to UP with full credits and fresh numbers on an
internal link, and to AUTH on a port, which with a good identity and a healthy entropy source draws its key and
nonce and has its HELLO as its next message, and else draws nothing and has none. A training timeout leaves the
link DOWN with no loss counted. From UP, 2 µs of silence leaves it DOWN, its session discarded and the loss
counted, and so does a DOWN symbol of any reason; a DOWN symbol in AUTH leaves the port DOWN. The authentication
timeout takes a port in AUTH that has sent its whole HELLO DOWN, and does nothing to one that has not. After the
replay timeout every kept frame goes again from the oldest. A direction whose FCOUNT has reached REKEY_FRAMES
takes its next key and starts its count anew, the other direction's key unchanged. The old key of the receiving
direction is erased once 256 frames have come since the first under the new one, and not before. Rests on R255,
R256, R262, R263, R413, R414, R417, R420. -/
def Obligations.LinkStates : Prop :=
  ∀ (s : State) (sl : SliceId) (l : LinkId), s.Inv →
    let k := s.link sl l
    (k.st = linkDown → k.heldOut = false → k.disabled = false → (s.sl sl).present = true →
      exec (.linkRetrainAttempt sl l) s = .next (s.onLink sl l fun y => { y with st := linkTrain })) ∧
    (∀ i : Fin 8, l = .link i → k.st = linkTrain → ∃ t : State, exec (.linkTrainComplete sl l) s = .next t ∧
      (t.link sl l).st = linkUp ∧ (t.link sl l).reqCredits = 4096 ∧ (t.link sl l).rspCredits = 4096 ∧ (t.link sl l).txSeq = 0 ∧
      (t.link sl l).kept = []) ∧
    (∀ p : PortId, l = .port p → k.st = linkTrain → ∃ t : State, exec (.linkTrainComplete sl l) s = .next t ∧ (t.link sl l).st = linkAuth ∧
      (s.sec.identity = 1 → s.sec.trngFailing = false →
        t.draws = s.draws + 88 ∧ (t.link sl l).sess.txMsg = (t.link sl l).sess.hello ∧ (t.link sl l).sess.hello ≠ []) ∧
      (s.sec.identity ≠ 1 ∨ s.sec.trngFailing = true → t.draws = s.draws ∧ (t.link sl l).sess.hello = [])) ∧
    (k.st = linkTrain → ∃ t : State, exec (.linkTrainTimeout sl l) s = .next t ∧ (t.link sl l).st = linkDown ∧
      (t.link sl l).downEvents = k.downEvents) ∧
    (k.st = linkUp →
      (∃ t : State, exec (.frameSilenceTimeout sl l) s = .next t ∧ (t.link sl l).st = linkDown ∧ (t.link sl l).downEvents = k.downEvents + 1 ∧
        (t.link sl l).sess = {}) ∧
      ∀ reason : Nat, ∃ t : State, exec (.downSymbol sl l reason) s = .next t ∧ (t.link sl l).st = linkDown ∧
        (t.link sl l).downEvents = k.downEvents + 1 ∧ (t.link sl l).sess = {}) ∧
    (∀ (p : PortId) (reason : Nat), l = .port p → k.st = linkAuth →
      ∃ t : State, exec (.downSymbol sl l reason) s = .next t ∧ (t.link sl l).st = linkDown ∧ (t.link sl l).sess = {}) ∧
    (k.st = linkUp → k.kept ≠ [] → exec (.replayTimeout sl l) s = .next (s.onLink sl l fun y =>
      { y with resend := y.kept.map (·.seq), replays := y.replays + 1 })) ∧
    (∀ p : PortId, l = .port p → k.st = linkAuth → k.sess.hello ≠ [] → k.sess.txMsg = k.sess.hello →
      (k.sess.hello.length ≤ 30 * k.sess.txPart → ∃ t : State, exec (.authTimeout sl p) s = .next t ∧
        (t.link sl l).st = linkDown ∧ (t.link sl l).sess = {}) ∧
      (30 * k.sess.txPart < k.sess.hello.length → exec (.authTimeout sl p) s = .next s)) ∧
    (∀ p : PortId, l = .port p → k.st = linkAuth → k.sess.hello ≠ [] → k.sess.txMsg ≠ k.sess.hello →
      ∃ t : State, exec (.authTimeout sl p) s = .next t ∧ (t.link sl l).st = linkDown ∧ (t.link sl l).sess = {}) ∧
    (∀ p : PortId, l = .port p → k.st = linkUp → k.sess.txKey ≠ [] → s.sec.rekeyFrames ≤ k.sess.txCount →
      ∃ t : State, exec (.linkRekey sl p) s = .next t ∧ (t.link sl l).sess.txKey = nextKey k.sess.txGen k.sess.txSalt ∧
        (t.link sl l).sess.txCount = 0 ∧ (t.link sl l).sess.txPhase = !k.sess.txPhase ∧ (t.link sl l).sess.rxKey = k.sess.rxKey) ∧
    (∀ p : PortId, l = .port p → ∃ t : State, exec (.oldKeyErase sl p) s = .next t ∧
      (256 ≤ k.sess.sinceRekey → (t.link sl l).sess = { k.sess with rxOld := none }) ∧
      (k.sess.sinceRekey < 256 → (t.link sl l).sess = k.sess))

/-- The link handshake: HELLO, the signature, FINISH, and the health of the entropy source. A HELLO that arrives at
a port in AUTH which has its own and none of the peer is kept, the transcript queued for signing and the private
key erased where it passes every check of R416; where it fails one, the port is DOWN and the failure counted;
one that is not well formed fails the first. The signature at the head of the queue leaves it and the FINISH of
122 bytes is the port's next message, after what is left of its HELLO; with an empty queue nothing is signed. A
FINISH of the right form whose signature verifies brings the port UP under the session's keys once its own
FINISH has been sent and while the entropy source is healthy, and is else kept, the port in AUTH; any other
takes the port DOWN and the failure is counted. A failure of the entropy source is kept and reported; when its
tests pass again it is cleared. Rests on R414, R415, R416, R417, R419. -/
def Obligations.LinkHandshake : Prop :=
  ∀ (s : State) (sl : SliceId) (p : PortId), s.Inv →
    let l : LinkId := .port p
    let k := s.link sl l
    (∀ msg : Bytes, k.st = linkAuth → k.sess.hello ≠ [] → k.sess.peerHello = [] → ∃ t : State, exec (.hello sl p msg) s = .next t ∧
      (s.helloCheck msg = 0 → (t.link sl l).st = linkAuth ∧ (t.link sl l).sess.peerHello = msg ∧
        t.sec.signQueue = s.sec.signQueue ++ [(sl.val, p.val)] ∧ (t.link sl l).sess.priv = [] ∧ t.sec.authFailures = s.sec.authFailures) ∧
      (s.helloCheck msg ≠ 0 → (t.link sl l).st = linkDown ∧ t.sec.authFailures = s.sec.authFailures + 1)) ∧
    (∀ msg : Bytes, helloFormed msg = false → s.helloCheck msg = 1) ∧
    (s.sec.signQueue = [] → exec .finishSign s = .next s) ∧
    (∀ rest : List (Nat × Nat), s.sec.signQueue = (sl.val, p.val) :: rest → ∃ t : State, exec .finishSign s = .next t ∧
      t.sec.signQueue = rest ∧
      let fin := 2#8 :: (zeros 7 ++ slice (Config.ed448Sign s.identitySeed "KN800-LINK" k.sess.transcript) 0 114)
      fin.length = 122 ∧
      (k.sess.txPart < ceilDiv k.sess.txMsg.length 30 → (t.link sl l).sess = { k.sess with finish := fin }) ∧
      (ceilDiv k.sess.txMsg.length 30 ≤ k.sess.txPart → (t.link sl l).sess = { k.sess with txMsg := fin, txPart := 0 })) ∧
    (∀ msg : Bytes, k.st = linkAuth → k.sess.peerHello ≠ [] → k.sess.finishSeen = false → ∃ t : State, exec (.finish sl p msg) s = .next t ∧
      let good := msg.getD 0 0 = 2#8 ∧ msg.length = 122 ∧ (∀ b ∈ slice msg 1 7, b = 0) ∧
        Config.ed448Verify (Config.certKey (helloCert k.sess.peerHello)) "KN800-LINK" k.sess.transcript (msg.drop 8) = true
      (good → k.sess.finishSent = true → s.sec.trngFailing = false → (t.link sl l).st = linkUp ∧
        (t.link sl l).sess = ({ k.sess with finishSeen := true } : Session).activate ∧
        (t.link sl l).sess.txCount = 0 ∧ (t.link sl l).sess.rxCount = 0 ∧
        (t.link sl l).sess.okm = [] ∧ (t.link sl l).reqCredits = 4096) ∧
      (good → k.sess.finishSent = false ∨ s.sec.trngFailing = true → (t.link sl l).st = linkAuth ∧ (t.link sl l).sess.finishSeen = true) ∧
      (¬ good → (t.link sl l).st = linkDown ∧ t.sec.authFailures = s.sec.authFailures + 1)) ∧
    exec .trngHealthFail s = .next (({ s with sec := { s.sec with trngFailing := true } }).report 0 (mkReport 0x12 12 0)) ∧
    (∃ t : State, exec .trngHealthPass s = .next t ∧ t.sec.trngFailing = false)

/-- Frames sent and received, and the start of a packet on an egress. A link that is UP with nothing to send again,
data in its stream and room to keep it sends one DATA frame with the next FSEQ, keeps its 960 bytes and moves on
in the stream; with an empty stream, or no room to keep more, it sends an IDLE frame and keeps nothing new. On a
port, a frame with an uncorrectable codeword owes a NAK, its corrected symbols are counted, and the codeword is
counted where it ends; the 65th such codeword within 1 ms takes the port DOWN. An internal link carries no FEC:
what the command says of it has no effect. A frame whose CRC fails owes a NAK. A good DATA frame without
packets, control symbol or NAK on a link without keys is taken where its FSEQ is the next and else discarded,
and its header gives back credits and ends the keeping of the frames it acknowledges. The packet that an egress
starts is one that waits there and whose credits are there; one of the RSP network starts before any of the REQ
network, and the packet that starts spends its credits and joins the stream; without such a packet nothing
starts. Rests on R256, R257, R260, R261, R262, R263, R264. -/
def Obligations.LinkFrames : Prop :=
  ∀ (s : State) (sl : SliceId) (l : LinkId), s.Inv → (s.link sl l).st = linkUp →
    let x := s.sl sl
    let k := s.link sl l
    (k.resend = [] → k.txStream ≠ [] → k.kept.length < 512 → ∃ (t : State) (f : Bytes), exec (.linkFrameSend sl l) s = .next t ∧
      t.out = s.out ++ [.frame sl l f] ∧ (t.link sl l).txStream = k.txStream.drop 960 ∧ (t.link sl l).txSeq = (k.txSeq + 1) % 4096 ∧
      (t.link sl l).kept = k.kept ++ [{ seq := k.txSeq, stream := slice k.txStream 0 960 }]) ∧
    (k.resend = [] → k.txStream = [] ∨ 512 ≤ k.kept.length → ∃ (t : State) (f : Bytes), exec (.linkFrameSend sl l) s = .next t ∧
      t.out = s.out ++ [.frame sl l f] ∧ (t.link sl l).txStream = k.txStream ∧
      (t.link sl l).kept = k.kept ∧ (t.link sl l).txSeq = k.txSeq ∧ (t.link sl l).nakOwed = false) ∧
    (∀ (p : PortId) (f : Bytes) (n : Nat), l = .port p →
      let recent := (k.fecTimes.filter fun c => decide (s.time.now < c + 256000000)).length
      (∃ t : State, exec (.linkFrame sl l f n { bad := true, words := 0 }) s = .next t ∧ (t.link sl l).fecUncorrectable = k.fecUncorrectable ∧
        (t.link sl l).fecCorrected = k.fecCorrected + n ∧ (t.link sl l).st = linkUp ∧ (t.link sl l).nakSent = true) ∧
      (recent < 64 → ∃ t : State, exec (.linkFrame sl l f n { bad := true, words := 1 }) s = .next t ∧
        (t.link sl l).fecUncorrectable = k.fecUncorrectable + 1 ∧
        (t.link sl l).fecCorrected = k.fecCorrected + n ∧ (t.link sl l).st = linkUp ∧ (t.link sl l).nakSent = true) ∧
      (64 ≤ recent → ∃ t : State, exec (.linkFrame sl l f n { bad := true, words := 1 }) s = .next t ∧ (t.link sl l).st = linkDown ∧
        (t.link sl l).fecUncorrectable = k.fecUncorrectable + 1)) ∧
    (∀ (i : Fin 8) (f : Bytes) (n : Nat) (fec : Fec), l = .link i → exec (.linkFrame sl l f n fec) s = exec (.linkFrame sl l f 0 {}) s) ∧
    (∀ f : Bytes, f.length ≠ 1024 ∨ crc32c (f.take 1020) ≠ leNat (slice f 1020 4) →
      (∀ i : Fin 8, l = .link i → exec (.linkFrame sl l f 0 {}) s = .next (s.onLink sl l Link.badFrame)) ∧
      ∀ (p : PortId) (n : Nat), l = .port p → exec (.linkFrame sl l f n {}) s =
        .next (s.onLink sl l fun y => (({ y with fecCorrected := y.fecCorrected + n } : Link).fecRate s.time.now n).badFrame)) ∧
    (∀ f : Bytes, f.length = 1024 → crc32c (f.take 1020) = leNat (slice f 1020 4) → k.sess.rxKey = [] → bits (leNat (slice f 12 32)) 7 0 = 0 →
      let h := leNat (slice f 0 12)
      bits h 13 12 = kindDATA → bit h 14 = false → (∀ b ∈ slice f 44 960, b = 0) → k.rxStream = [] →
      ∃ t : State, exec (.linkFrame sl l f 0 {}) s = .next t ∧
        (t.link sl l).reqCredits = k.reqCredits + bits h 39 28 ∧ (t.link sl l).rspCredits = k.rspCredits + bits h 51 40 ∧
        (t.link sl l).rxSeq = (if bits h 11 0 = (k.rxSeq + 1) % 4096 then bits h 11 0 else k.rxSeq) ∧
        (t.link sl l).nakSent = (if bits h 11 0 = (k.rxSeq + 1) % 4096 then false else true) ∧
        (∀ pre y post, k.kept = pre ++ y :: post → y.seq = bits h 27 16 → (∀ z ∈ pre, z.seq ≠ bits h 27 16) → (t.link sl l).kept = post)) ∧
    (∀ (qs : List Queued) (c : Nat) (q : Queued), x.nextEgress qs c = some q → q ∈ qs ∧ packetCredits q.pkt ≤ c) ∧
    (∀ q : Queued, x.nextEgress k.egressRsp k.rspCredits = some q →
      (∃ t : State, exec (.egressPacketStart sl l .rsp) s = .next t ∧
        (t.link sl l).txStream = k.txStream ++ streamed l k.txStream.length (q.pkt, q.route) ∧
        (t.link sl l).egressRsp = k.egressRsp.erase q ∧ (t.link sl l).egressReq = k.egressReq ∧
        (t.link sl l).rspCredits = k.rspCredits - packetCredits q.pkt ∧ (t.link sl l).reqCredits = k.reqCredits) ∧
      exec (.egressPacketStart sl l .req) s = .next s) ∧
    (x.nextEgress k.egressRsp k.rspCredits = none → exec (.egressPacketStart sl l .rsp) s = .next s ∧
      (x.nextEgress k.egressReq k.reqCredits = none → exec (.egressPacketStart sl l .req) s = .next s) ∧
      ∀ q : Queued, x.nextEgress k.egressReq k.reqCredits = some q →
      ∃ t : State, exec (.egressPacketStart sl l .req) s = .next t ∧
        (t.link sl l).txStream = k.txStream ++ streamed l k.txStream.length (q.pkt, q.route) ∧
        (t.link sl l).egressReq = k.egressReq.erase q ∧ (t.link sl l).egressRsp = k.egressRsp ∧
        (t.link sl l).reqCredits = k.reqCredits - packetCredits q.pkt ∧ (t.link sl l).rspCredits = k.rspCredits)

/-- A request that passes the checks of Table 11-3 joins the apply queue. A READ, WRITE, REDUCE, ATOMIC_FADD,
ATOMIC_CAS or MCAST_WRITE (one that did not come over a port) of one packet for the slice, the oldest of its
network in its ingress buffer, of the loaded job and not trusted, whose ECRC and form are right, whose sender is
not marked lost, whose flow holds nothing back and has not taken it before, with room in the apply queue, and
which a reduction or an atomic passes the replay filter with: where the first valid entry of its job that holds
it is no SINK, grants the operation to its sender and for a WRITE of a WINDOW is open, its window offsets are
mapped, and it reads no poisoned word, it is appended to the apply queue, no byte of memory changes and no
refusal is counted. Where no valid entry of its job holds it, it is refused: it does not join the queue, no byte
changes and the refusal is counted. Rests on R273, R274, R295, R298, R299, R309, R312. -/
def Obligations.RemoteRequestsDelivered : Prop :=
  ∀ (s : State) (sl : SliceId) (a : Arrival) (p : Packet) (j : Image), s.Inv → s.job = some j → p.job = j.job → p.trusted = false →
    p.first = true → p.last = true → p.formOk = true → packetEcrc p = p.ecrc → s.routerBad a p = false → s.fromLost sl p = false →
    s.before sl a p = [] →
    let x := s.sl sl
    let f := x.dstFlow (Packet.src p) (Packet.group p)
    f.held = [] → f.wasSkipped p.flowSeq = false → f.delivered p.flowSeq = false → f.ready p = true → (f.msg p.msgId).refused = none →
    (∀ c ∈ f.completed, c.1 ≠ p.msgId) → x.remote.applyQ.length < 1024 →
    (p.filtered = true → (filterJudge x.remote.filter p s.time.now s.retrySpan).1 = .pass) →
    let taken (i : Instr) : Prop := ∃ t : State, exec i s = .next t ∧ (t.sl sl).remote.applyQ = x.remote.applyQ ++ [x.applyItem p a] ∧
      (t.sl sl).mem = x.mem ∧ (t.sl sl).remote.refused = x.remote.refused
    let refused (i : Instr) : Prop := ∃ t : State, exec i s = .next t ∧ (t.sl sl).remote.applyQ = x.remote.applyQ ∧
      (t.sl sl).mem = x.mem ∧ (t.sl sl).remote.refused = x.remote.refused + 1
    let each (q : Instr → Prop) : Prop :=
      (Packet.dst p = s.place sl → p.opcode = opREAD → q (.read sl a p)) ∧
      (Packet.dst p = s.place sl → p.opcode = opWRITE → q (.write sl a p)) ∧
      (Packet.dst p = s.place sl → p.opcode = opREDUCE → q (.reduce sl a p)) ∧
      (Packet.dst p = s.place sl → p.opcode = opFADD → q (.atomicFadd sl a p)) ∧
      (Packet.dst p = s.place sl → p.opcode = opCAS → q (.atomicCas sl a p)) ∧
      (p.opcode = opMCAST → (∀ r : PortId, a ≠ .port r) → q (.mcastWrite sl a p))
    (∀ (i : Nat) (e : RegionEntry), x.remote.regions.find? (fun r => r.2.valid && r.2.job == p.job && r.2.holds p.dstOffset p.covers) = some (i, e) →
      (∀ r ∈ x.remote.regions, r.1 = i → r.2.kind ≠ 1) → e.kind ≠ 1 → e.grants p.opcode = true → e.ownerOk p.opcode p.srcNode = true →
      (e.kind = 2 → p.opcode = opWRITE → x.tiers.inWindow p.dstOffset p.covers = true) →
      (regionOf p.dstOffset = .window → (x.ranges? p.dstOffset p.covers).isSome = true) →
      x.readsPoison p ((x.ranges? p.dstOffset p.covers).getD [(p.dstOffset, p.covers)]) = false → each taken) ∧
    ((∀ r ∈ x.remote.regions, r.2.valid = true → r.2.job = p.job → r.2.holds p.dstOffset p.covers = false) → each refused)

/-- The head of the apply queue is applied to memory. With no flow holding a packet back, OPERATION_APPLY takes the
head of the queue, where it reads no poisoned word and did not need a write window that has closed since, and
the rest stays. A READ changes no byte; a WRITE or MCAST_WRITE leaves its payload at its offset; a REDUCE leaves
in each element what its opcode modifier makes of the old value and the new, which for modifier 0 is the sum
modulo 2^64; an ATOMIC_FADD leaves the binary32 sum; an ATOMIC_CAS leaves the new value where the old one equals
the first half of its payload, and else changes nothing. Every byte outside the operation reads as before. One
whose window has closed, and one that reads a poisoned word, changes no byte, and the latter is counted. With an
empty queue nothing happens. A command that comes with words that its reads find uncorrectable acts as one
without after those words are found. Rests on R308, R309. -/
def Obligations.OperationsApply : Prop :=
  ∀ (s : State) (sl : SliceId) (o : ApplyItem) (rest : List ApplyItem), s.Inv →
    let x := s.sl sl
    let p := o.pkt
    (∀ y : State, (y.sl sl).remote.applyQ = [] → exec (.operationApply { on := sl }) y = .next y) ∧
    (x.remote.applyQ = o :: rest → (∀ f ∈ x.fabric.dst, f.held = []) →
    (∀ bad : List Nat, exec (.operationApply { on := sl, bad := bad }) s = exec (.operationApply { on := sl }) (s.findBad sl bad)) ∧
    (o.win = true → x.tiers.inWindow p.dstOffset p.covers = false → ∃ t : State, exec (.operationApply { on := sl }) s = .next t ∧ (t.sl sl).mem = x.mem) ∧
    (o.win = false ∨ x.tiers.inWindow p.dstOffset p.covers = true → x.readsPoison p o.ranges = true → p.last = true →
      ∃ t : State, exec (.operationApply { on := sl }) s = .next t ∧ (t.sl sl).mem = x.mem ∧ (t.sl sl).remote.poison = x.remote.poison + 1) ∧
    (o.win = false ∨ x.tiers.inWindow p.dstOffset p.covers = true → x.readsPoison p o.ranges = false →
    ∃ t : State, exec (.operationApply { on := sl }) s = .next t ∧ (t.sl sl).remote.applyQ = rest ∧
      (p.opcode = opREAD → (t.sl sl).mem = x.mem) ∧
      (p.opcode = opWRITE ∨ p.opcode = opMCAST → (t.sl sl).load p.dstOffset p.payload.length = p.payload ∧
        SameBytesOutside x (t.sl sl) p.dstOffset p.payload.length) ∧
      (p.opcode = opREDUCE → p.payload.length % max 1 (reduceSize p.opmod) = 0 →
        (t.sl sl).load p.dstOffset p.payload.length = reduceBytes p.opmod (x.load p.dstOffset p.payload.length) p.payload ∧
        SameBytesOutside x (t.sl sl) p.dstOffset p.payload.length) ∧
      (p.opcode = opREDUCE → p.opmod = 0 → p.payload.length = 8 →
        (t.sl sl).loadNat p.dstOffset 8 = (x.loadNat p.dstOffset 8 + leNat p.payload) % 2 ^ 64 ∧ SameBytesOutside x (t.sl sl) p.dstOffset 8) ∧
      (p.opcode = opFADD → (t.sl sl).loadNat p.dstOffset 4 =
          (F32.add (BitVec.ofNat 32 (x.loadNat p.dstOffset 4)) (BitVec.ofNat 32 (leNat (p.payload.take 4)))).toNat ∧
        SameBytesOutside x (t.sl sl) p.dstOffset 4) ∧
      (p.opcode = opCAS → SameBytesOutside x (t.sl sl) p.dstOffset 8 ∧
        (x.loadNat p.dstOffset 8 = leNat (slice p.payload 0 8) → (t.sl sl).loadNat p.dstOffset 8 = leNat (slice p.payload 8 8)) ∧
        (x.loadNat p.dstOffset 8 ≠ leNat (slice p.payload 0 8) → (t.sl sl).mem = x.mem))))

/-- Answers complete their message, and messages without one are sent again or given up. At a slice that is not
marked lost itself, with one unicast message unanswered and none waiting to leave, an answer in its turn with a
right ECRC for that message, of a thread, takes it off the list and completes the thread's access: DATA for an
XLD and RESULT for an atomic write the register, ACK for an XST counts it down, and no byte of memory changes; a
NACK for protection ends the thread. After E2E_TIMEOUT such a message outside still-water mode with retries left
is sent again, marked and counted, and any other is given up, counted and, but for one of a collective step, off
the list. A message that waits and may leave is sent, and one that may not stays. Rests on R92, R103, R270,
R276, R277, R279, R283, R300. -/
def Obligations.AnswersReachTheIssuer : Prop :=
  ∀ (s : State) (sl : SliceId) (m : OutMsg), s.Inv → s.silenced sl = false →
    let x := s.sl sl
    x.fabric.windowed = [] → x.fabric.outMsgs = [m] → m.group = none →
    (∀ (a : Arrival) (p : Packet) (e : EngineId) (h : ThreadId) (kind reg addr n : Nat), m.issuer = .thread e h kind reg addr n →
      Packet.dst p = s.place sl → packetEcrc p = p.ecrc → s.routerBad a p = false → s.fromLost sl p = false → s.before sl a p = [] → s.answered? sl p = some m →
      let done (i : Instr) (f : Thread → Thread) : Prop := ∃ t : State, exec i s = .next t ∧ (t.sl sl).fabric.outMsgs = [] ∧
        t.thread sl e h = f (s.thread sl e h) ∧ (t.sl sl).mem = x.mem
      (p.opcode = opDATA → m.op = opREAD → kind = 0 →
        done (.readData sl a p) fun k => (k.setReg reg (BitVec.ofNat 64 (leNat (p.payload.take 8)))).otherDone) ∧
      (p.opcode = opRESULT → m.op = opFADD ∨ m.op = opCAS → kind = 4 ∨ kind = 5 →
        done (.atomicResult sl a p) fun k => (k.setReg reg (BitVec.ofNat 64 (leNat (p.payload.take 8)))).otherDone) ∧
      (p.opcode = opACK → m.op = opWRITE → kind = 1 → done (.ack sl a p) Thread.xstDone) ∧
      (p.opcode = opNACK → p.opmod = 3 → ∃ t : State, exec (.nack sl a p) s = .next t ∧ (t.sl sl).fabric.outMsgs = [] ∧
        (t.thread sl e h).st = .idle)) ∧
    (s.still.on = false → m.retries < s.pkg.retryLimit → ∃ t : State, exec (.e2eTimeout sl m.dst m.msgId) s = .next t ∧
      (t.sl sl).fabric.retransmits = x.fabric.retransmits + 1 ∧ (t.sl sl).fabric.giveups = x.fabric.giveups ∧
      ∃ o ∈ (t.sl sl).fabric.outMsgs, o.msgId = m.msgId ∧ o.retries = m.retries + 1 ∧ o.retxed = true ∧ ∀ p ∈ o.packets, p.retx = true) ∧
    (s.still.on = true ∨ s.pkg.retryLimit ≤ m.retries →
      ∃ t : State, exec (.e2eTimeout sl m.dst m.msgId) s = .next t ∧
        (t.sl sl).fabric.giveups = x.fabric.giveups + 1 ∧
        ((∀ (i n : Nat) (d : Drip), m.issuer ≠ .coll i n d) → (t.sl sl).fabric.outMsgs = [])) ∧
    (∀ (w : WindowWait) (y : State), y = s.onSl sl (fun x => { x with fabric := { x.fabric with windowed := [w], outMsgs := [] } }) →
      (y.maySend sl w.dst w.group w.packets = true → ∃ t : State, exec (.windowedSend sl w.dst) y = .next t ∧
        (t.sl sl).fabric.windowed = [] ∧ (t.sl sl).fabric.outMsgs.length = 1) ∧
      (y.maySend sl w.dst w.group w.packets = false → exec (.windowedSend sl w.dst) y = .next y))

/-- Forwarding, skipped packets, lost slices and the switch of routing tables. A unicast packet for another node,
the oldest of its network in its ingress buffer, with a known opcode other than TIME, a payload within bounds
and a live table, is queued with TTL lowered by one at the one eligible port of its node where TTL is above 0
and that port is the slice's own, and is discarded with a report where TTL is 0. A TIME packet is taken out of
its ingress buffer and goes no further. CTRL SKIP of the next packet of a flow that holds nothing counts it as
delivered and changes no byte. CTRL LOST of the loaded job for this node is taken for its effective drip, or for
the next one where it comes late. Another node of the job with no eligible port for LOSS_HOLD, none of whose
slices is known to be lost, is noticed as lost 16 drips hence. At the drip of a notice it is done with and the
slices it names are marked lost on every slice. ROUTE_SWITCH at its drip activates the other table and drains
the previous one until ROUTE_DRAIN_END; before their drips both wait. Rests on R268, R271, R278, R285, R286,
R288. -/
def Obligations.FabricRouting : Prop :=
  ∀ (s : State) (sl : SliceId), s.Inv →
    (∀ (a : Arrival) (p : Packet) (q : PortId), s.routeWord sl a p = none → opKnown p.opcode = true → p.opcode ≠ opMCAST → p.opcode ≠ opTIME → s.before sl a p = [] →
      p.dstNode ≠ s.pkg.nodeId → p.plen ≤ 4096 → p.payload.length ≤ 4096 → s.tableLive p.epoch = true →
      let k := s.link sl (.port q)
      (0 < p.ttl → s.eligible p.dstNode p.epoch = [8 * sl.val + q.val] → ∃ t : State, exec (.routerForward sl a p) s = .next t ∧
        let y : Queued :=
          { pkt := { p with ttl := p.ttl - 1, mark := p.mark || decide (s.pkg.markBytes ≤ k.queuedBytes (netOf p.opcode)) }, route := none,
            origin := a, hold := if a = .own then none else some (s.sl sl).fabric.nextHold }
        (netOf p.opcode = .req → (t.link sl (.port q)).egressReq = k.egressReq ++ [y]) ∧
        (netOf p.opcode = .rsp → (t.link sl (.port q)).egressRsp = k.egressRsp ++ [y])) ∧
      (p.ttl = 0 → ∃ t : State, exec (.routerForward sl a p) s = .next t ∧
        (t.link sl (.port q)).egressReq = k.egressReq ∧ (t.link sl (.port q)).egressRsp = k.egressRsp ∧
        let r : Report := { cls := 0x0E, unit := Arrival.unit a, ctx := p.ctx, detail := [p.opcode, p.dstNode * 8 + p.dstSlice, p.flowSeq, p.ttl] }
        (t.sl (reportHome r sl)).err = (s.sl (reportHome r sl)).err.queue r)) ∧
    (∀ (a : Arrival) (p : Packet), p.opcode = opTIME → exec (.routerForward sl a p) s = .next (s.takeIngress sl a p)) ∧
    (∀ (a : Arrival) (p : Packet), p.opcode = opCTRL → p.opmod = 1 → Packet.dst p = s.place sl → s.routerBad a p = false → packetEcrc p = p.ecrc →
      s.fromLost sl p = false →
      let f := (s.sl sl).dstFlow (Packet.src p) none
      let n := leNat (slice p.payload 0 16)
      bit n 48 = false → bits n 47 32 = 1 → bits n 31 16 = f.base % 65536 → f.ahead = [] → f.held = [] →
      ∃ t : State, exec (.ctrlSkip sl a p) s = .next t ∧ ((t.sl sl).dstFlow (Packet.src p) none).base = f.base + 1 ∧
        (t.sl sl).mem = (s.sl sl).mem) ∧
    (∀ (p : Packet) (j : Image), s.job = some j → p.opcode = opCTRL → p.opmod = 0 → p.dstNode = s.pkg.nodeId → packetEcrc p = p.ecrc →
      let n := leNat (slice p.payload 0 16)
      let eff : Drip := BitVec.ofNat 48 (bits n 111 64)
      bits n 15 0 = j.job → s.fromLost p.dstSlice p = false → ∃ t : State, exec (.ctrlLost p) s = .next t ∧
        t.pkg.notices = s.pkg.notices ++ [(bits n 35 16, bits n 43 36, if Drip.later s.now eff = true then s.now.plus 1 else eff)]) ∧
    (∀ (node : Nat) (j : Image), s.job = some j → node ≠ s.pkg.nodeId → node ∈ j.nodes → s.eligible node s.pkg.routeActive = [] →
      (∀ k, k < 8 → s.lossKnown { node := node, slice := k } = false) → ∃ t : State, exec (.lossHoldExpiry node) s = .next t ∧
        t.pkg.notices = s.pkg.notices ++ [(node, 255, s.now.plus 16)]) ∧
    (∀ n ∈ s.pkg.notices, Drip.later n.2.2 s.now = false → ∃ t : State, exec .lostMark s = .next t ∧ n ∉ t.pkg.notices ∧
      ∀ k : Fin 8, bit n.2.1 k.val = true → ∀ i : SliceId, ({ node := n.1, slice := k.val } : Place) ∈ (t.sl i).fabric.lost) ∧
    (∀ d : Drip, s.pkg.routeSwitch = some d → Drip.later d s.now = false → exec .routeSwitch s = .next { s with pkg := { s.pkg with
      routeActive := 1 - s.pkg.routeActive, routeSwitch := none, drainEnd := some (d.plus s.pkg.routeDrain) } }) ∧
    (∀ d : Drip, s.pkg.routeSwitch = some d → Drip.later d s.now = true → exec .routeSwitch s = .next s) ∧
    (∀ d : Drip, s.pkg.drainEnd = some d → Drip.later d s.now = false →
      exec .routeDrainEnd s = .next { s with pkg := { s.pkg with drainEnd := none } }) ∧
    (∀ d : Drip, s.pkg.drainEnd = some d → Drip.later d s.now = true → exec .routeDrainEnd s = .next s)

/-- The outcome of a multicast write, and the handoff of a region. At a slice with one multicast message unanswered
and none waiting to leave: while a member is unanswered nothing happens; with every member complete the message
is done, no request changes and nothing is counted; with a member missing and some member complete, the requests
of its context and pass list the missing members and it is counted as partial; with none complete, those
requests have a condition for the next drip with the lowest code of the missing members. One of no context ends
no request. At its drip a pending handoff makes the next owner the owner, and before it waits. A HANDOFF stage
on a valid entry with no handoff pending moves the owner and completes, and any other stage is missed, cancels
the pending handoff and is counted. Rests on R301, R317, R318, R319. -/
def Obligations.MulticastAndOwnership : Prop :=
  ∀ (s : State) (sl : SliceId), s.Inv →
    let x := s.sl sl
    (∀ (k : McastMsg), x.remote.mcast = [k] → x.fabric.windowed = [] →
      ((∃ e ∈ k.members, e.2 = none) → exec (.mcastComplete sl k.group k.msgId) s = .next s) ∧
      ((∀ e ∈ k.members, e.2 = some 0) → ∃ t : State, exec (.mcastComplete sl k.group k.msgId) s = .next t ∧ (t.sl sl).remote.mcast = [] ∧
        (t.sl sl).remote.mcastPartial = x.remote.mcastPartial ∧
        (t.sl sl).svc.reqs = x.svc.reqs) ∧
      ((∀ e ∈ k.members, e.2.isSome = true) → (∃ e ∈ k.members, e.2 = some 0) → (∃ e ∈ k.members, e.2 ≠ some 0) → k.ctx < 255 →
        ∃ t : State, exec (.mcastComplete sl k.group k.msgId) s = .next t ∧ (t.sl sl).remote.mcastPartial = x.remote.mcastPartial + 1 ∧
          ∀ (i : SliceId), ∀ r ∈ (s.sl i).svc.reqs, r.cmd.ctx = k.ctx → r.frame = k.frame →
            r.addPartials ((k.members.filter fun e => e.2 != some 0).map fun e => partialEntry e.1 (e.2.getD 0) k.group) ∈ (t.sl i).svc.reqs) ∧
      (k.ctx = 255 → (∀ e ∈ k.members, e.2.isSome = true) → (∃ e ∈ k.members, e.2 ≠ some 0) →
        ∃ t : State, exec (.mcastComplete sl k.group k.msgId) s = .next t ∧ (t.sl sl).remote.mcast = [] ∧ (t.sl sl).svc.reqs = x.svc.reqs) ∧
      (k.members ≠ [] → (∀ e ∈ k.members, e.2.isSome = true ∧ e.2 ≠ some 0) → k.ctx < 255 →
        ∃ t : State, exec (.mcastComplete sl k.group k.msgId) s = .next t ∧ (t.sl sl).remote.mcastPartial = x.remote.mcastPartial ∧
          ∀ (i : SliceId), ∀ r ∈ (s.sl i).svc.reqs, r.cmd.ctx = k.ctx → r.frame = k.frame → ∃ v ∈ (t.sl i).svc.reqs, v.slot = r.slot ∧
            ⟨s.now, s.now.plus 1, Status.ofCode ((k.members.map fun e => e.2.getD 0).foldl min 255), 0xFF⟩ ∈ v.conds)) ∧
    (∀ (n : Nat) (e : RegionEntry), x.remote.regions = [(n, e)] → e.valid = true → e.pending = true → Drip.later e.handoffDrip s.now = false →
      exec (.ownershipMove sl n) s = .next (s.onSl sl fun y =>
        { y with remote := { y.remote with regions := [(n, { e with ownerNode := e.nextOwner, pending := false })] } })) ∧
    (∀ n : Nat, (x.region n).valid = false ∨ (x.region n).pending = false ∨ Drip.later (x.region n).handoffDrip s.now = true →
      exec (.ownershipMove sl n) s = .next s) ∧
    (∀ (i : Nat) (u : Run) (v : State), s.actingRun sl i .handoff = some (u, v) →
      ((x.region u.entry.f.region).valid = true → (x.region u.entry.f.region).pending = false →
        ∃ t : State, exec (.handoffStage sl i) s = .next t ∧ ((t.sl sl).region u.entry.f.region).ownerNode = u.entry.f.newOwner ∧
          ∀ w ∈ (t.sl sl).runs, w.idx = u.idx → w.frame = u.frame → w.st = .completed) ∧
      ((x.region u.entry.f.region).valid = false ∨ (x.region u.entry.f.region).pending = true → ∃ t : State, exec (.handoffStage sl i) s = .next t ∧
        ((t.sl sl).region u.entry.f.region).pending = false ∧ t.time.stageMisses = s.time.stageMisses + 1 ∧
          ∀ w ∈ (t.sl sl).runs, w.idx = u.idx → w.frame = u.frame → w.st = .missed))

/-- Accepted writes of fabric, region, collective, service and error entries. A write through either door that
passes every check takes effect: ROUTE_SWITCH_DRIP names the switch drip, the table in force unchanged; a region
entry stands at REGION_SEL, the others unchanged; a handoff is pending on its entry with its next owner and
drip; COLL_EPOCH_DRIP joins the epochs that wait; LEDGER_ENABLE set starts a ledger that was off at entry 0 with
phase 1, and cleared stops it; RING_ENABLE set starts a ring of RING_SEL that was off anew, and cleared stops
it; ERR_CLEAR clears ERR_FIRST and the overflow count and leaves the ring; and a write of PORT_DISABLE, a
persisted entry, is begun as a store write with the port as it was. A write that a check refuses ends with the
code of the first check that fails, one through a busy door is lost, and one while the management controller is
handed over waits: none of them changes the entry. Rests on R255, R286, R297, R301, R345, R359, R375, R434,
R438, R450, R455, R487. -/
def Obligations.DoorWritesFabricAndService : Prop :=
  ∀ (s : State) (d : Door), s.Inv →
    let took (i : Instr) (index sub c : Nat) (v : Bytes) (P : State → State → Prop) : Prop :=
      s.TurnsAway i d index sub c v ∧ ∀ u : State, s.Takes d index sub c v u → ∃ t : State, exec i s = .next t ∧ P u t
    let kept (i : Instr) (index sub c : Nat) (v : Bytes) : Prop :=
      took i index sub c v fun u t => t = { u with dict := { u.dict with
        writing := some { index := index, sub := sub, channel := c, value := v, door := d } } }
    (∀ v : Word, took (.routeSwitchDrip d v) 0x4000 4 0 (leBytes 8 v.toNat) fun _ t =>
      t.pkg.routeSwitch = some (BitVec.ofNat 48 v.toNat) ∧ t.pkg.routeActive = s.pkg.routeActive) ∧
    (∀ (sl : SliceId) (p : PortId) (off : Bool), kept (.portDisable d sl p off) 0x4011 (p.val + 1) sl (leBytes 1 (if off then 1 else 0))) ∧
    (∀ (sl : SliceId) (v : Bytes), took (.regionEntry d sl v) 0x3260 2 sl v fun _ t =>
      (t.sl sl).region (s.sl sl).remote.regionSel = regionOfWord (leNat v) ∧
      ∀ k, k ≠ (s.sl sl).remote.regionSel → (t.sl sl).region k = (s.sl sl).region k) ∧
    (∀ (sl : SliceId) (v : Bytes), took (.regionHandoff d sl v) 0x3260 3 sl v fun _ t =>
      (t.sl sl).region (bits (leNat v) 11 0) = { (s.sl sl).region (bits (leNat v) 11 0) with
        nextOwner := bits (leNat v) 51 32, pending := true, handoffDrip := BitVec.ofNat 48 (bits (leNat v) 111 64) }) ∧
    (∀ v : Word, took (.collEpochDrip d v) 0x6040 2 0 (leBytes 8 v.toNat) fun _ t =>
      t.pkg.collEpochs = s.pkg.collEpochs ++ [BitVec.ofNat 48 v.toNat]) ∧
    (∀ sl : SliceId, took (.ledgerEnable d sl true) 0x3280 3 sl [1#8] fun _ t => (t.sl sl).svc.ledgerEnable = true ∧
      ((s.sl sl).svc.ledgerEnable = false → (t.sl sl).svc.ledgerHead = 0 ∧ (t.sl sl).svc.ledgerPhase = true)) ∧
    (∀ sl : SliceId, took (.ledgerEnable d sl false) 0x3280 3 sl [0#8] fun _ t => (t.sl sl).svc.ledgerEnable = false) ∧
    (s.dict.ringSel < 64 → took (.ringEnable d true) 0x6101 4 0 [1#8] fun _ t => (t.host.rings.getD s.dict.ringSel {}).enable = true ∧
      ((s.host.rings.getD s.dict.ringSel {}).enable = false → (t.host.rings.getD s.dict.ringSel {}).head = 0 ∧
        (t.host.rings.getD s.dict.ringSel {}).tail = 0 ∧ (t.host.rings.getD s.dict.ringSel {}).phase = true)) ∧
    (s.dict.ringSel < 64 → took (.ringEnable d false) 0x6101 4 0 [0#8] fun _ t => (t.host.rings.getD s.dict.ringSel {}).enable = false) ∧
    (∀ sl : SliceId, took (.errClear d sl) 0xA000 9 sl [1#8] fun _ t => (t.sl sl).err.first = none ∧ (t.sl sl).err.overflow = 0 ∧
      (t.sl sl).err.ring = (s.sl sl).err.ring)

/-- Accepted writes of loading, epoch, hot-set, security, lifecycle and firmware entries. A write through either
door that passes every check takes effect: HOT_SERVE unloads the job and starts the load of its slot; a drip
arms a reshape and ends a pending epoch switch, and 0 disarms it; LOAD_START makes the device LOADING with
nothing received and the job as it was; LOAD_CHAIN gives the chain; EPOCH_SWITCH names the epoch and its drip,
the one in force unchanged; a nonce is kept and starts a quote; MR7_EXTEND extends measurement register 7 alone;
DEFAULTS_RESTORE marks the entries; ENABLE 1 starts a function that is OFF and leaves one that starts or is ON,
ENABLE 0 stops one that is not OFF, either queues its record, and an ENABLE 1 while it stops is deferred; a
commit judges the staged set; FW_ROLLOUT starts a rollout to the staging slot or a rollback to the slot that
does not run; credentials, firmware segments and the boot slot are begun as store writes. A write that a check
refuses ends with the code of the first check that fails, one through a busy door is lost, and one while the
management controller is handed over waits: none of them changes the entry. Rests on R349, R372, R376, R386,
R392, R422, R424, R435, R445, R446, R461, R462. -/
def Obligations.DoorWritesLoadingAndSecurity : Prop :=
  ∀ (s : State) (d : Door), s.Inv →
    let took (i : Instr) (index sub c : Nat) (v : Bytes) (P : State → State → Prop) : Prop :=
      s.TurnsAway i d index sub c v ∧ ∀ u : State, s.Takes d index sub c v u → ∃ t : State, exec i s = .next t ∧ P u t
    let kept (i : Instr) (index sub c : Nat) (v : Bytes) : Prop :=
      took i index sub c v fun u t => t = { u with dict := { u.dict with
        writing := some { index := index, sub := sub, channel := c, value := v, door := d } } }
    (∀ k, k < 4 → took (.hotServe d k) 0x6120 3 0 (leBytes 1 k) fun _ t => t.load.hotLoading = some k ∧ t.job = none) ∧
    (∀ v : Word, v ≠ 0 → took (.reshapeArm d v) 0x6110 3 0 (leBytes 8 v.toNat) fun _ t =>
      t.pkg.reshapeArmed = true ∧ t.pkg.reshapeDrip = v.toNat ∧ t.epochs.switch_ = none) ∧
    took (.reshapeDisarm d) 0x6110 3 0 (zeros 8) (fun _ t => t.pkg.reshapeArmed = false ∧ t.pkg.reshapeDrip = 0) ∧
    took (.loadStart d) 0x6200 4 0 [1#8] (fun _ t => t.load.st = 1 ∧ t.load.nextSeq = 0 ∧ t.load.manifest = [] ∧ t.load.ended = false ∧
      t.job = s.job) ∧
    (∀ v : Bytes, took (.loadChain d v) 0x6200 2 0 v fun _ t => t.load.chain = v) ∧
    (∀ v : Word, took (.epochSwitch d v) 0x6200 12 0 (leBytes 8 v.toNat) fun _ t =>
      t.epochs.switch_ = some (bits v.toNat 15 0, BitVec.ofNat 48 (bits v.toNat 63 16)) ∧ t.epochs.current = s.epochs.current) ∧
    (∀ v : Bytes, took (.quoteNonce d v) 0x8020 1 0 v fun _ t => t.sec.quoteState = 1 ∧ t.sec.quoteNonce = v ∧ t.sec.mr = s.sec.mr) ∧
    (∀ v : Bytes, took (.mr7Extend d v) 0x8010 7 0 v fun _ t => t.sec.mr = s.sec.mr.set 7 (digest64 (0x20#8 :: (s.sec.mr.getD 7 (zeros 64) ++ v))) ∧
      t.sec.logCount = s.sec.logCount + 1) ∧
    took (.defaultsRestore d) 0x2000 3 0 [1#8] (fun _ t => t.dict.restore = true) ∧
    (∀ (n : Nat) (v : Bytes), n < 4 → kept (.credentialWrite d n v) 0x8040 n 0 v) ∧
    (∀ (f : Fin 7) (c : Nat), took (.lifecycleEnable d f c) (0x2200 + f) 1 c [1#8] fun _ t =>
      (t.lifeOf f c).st = (if (s.lifeOf f c).st = 0 then 1 else (s.lifeOf f c).st) ∧
        t.dict.enableRecords.getLast? = some (f.val, if f.val < 4 then 0 else c, true)) ∧
    (∀ (f : Fin 7) (c : Nat) (u : State), s.Judges d (0x2200 + f) 1 c [1#8] u codeDeferred →
      ∃ t : State, exec (.lifecycleEnable d f c) s = .next t ∧ (t.lifeOf f c).st = 3 ∧ (t.lifeOf f c).deferred = true) ∧
    (∀ (f : Fin 7) (c : Nat), took (.lifecycleDisable d f c) (0x2200 + f) 1 c [0#8] fun _ t =>
      (t.lifeOf f c).st = (if (s.lifeOf f c).st = 0 then 0 else 3) ∧
        t.dict.enableRecords.getLast? = some (f.val, if f.val < 4 then 0 else c, false)) ∧
    (∀ v : Bytes, kept (.fwStageData d v) 0x9010 2 0 v) ∧
    (∀ len : Nat, took (.fwStageCommit d len) 0x9010 3 0 (leBytes 4 len) fun u t =>
      ∃ k, s.fw.staging? = some k ∧ t.fw.stageReason = u.stagingCheck (s.fw.slots.getD k []) (len % 2 ^ 32) ∧
        t.fw.stageState = (if t.fw.stageReason = 0 then 2 else 3)) ∧
    took (.fwRollout d) 0x9020 1 0 [1#8] (fun _ t => t.fw.rollout = 1 ∧ t.fw.step = 0 ∧ t.fw.startDrip = s.now ∧
      s.fw.staging? = some t.fw.target) ∧
    took (.fwRollback d) 0x9020 1 0 [2#8] (fun _ t => t.fw.rollout = 1 ∧ t.fw.step = 0 ∧ t.fw.target = 1 - s.fw.running) ∧
    (∀ k : Nat, kept (.fwBootSlot d k) 0x9000 3 0 (leBytes 1 k))

/-- The dictionary window, the store, and the ends of a lifecycle change. While the window is busy an access only
sets OVERRUN. An access that starts while no handover of the management controller holds it, of an entry that
exists: a read whose checks pass leaves the code 0x00, the length of the value and its bytes, or of a STR or
BLOB the chunk of them that DICT_SEL names, in the window, and one whose check fails leaves its code; an INFO of
an entry that HOST may see leaves its 16-byte descriptor; a write of a fixed-width entry that HOST may write
takes its width of the data, as a write of the whole value does, and so a RING_SEL of 64 or more is out of range
and one below 64 is the ring selected. An entry that does not exist gives NO_ENTRY to each. DICT_OVERRUN_CLEAR
clears OVERRUN, and DICT_STAGING_TIMEOUT drops the copy staged for the longest. A commit of the write under way
that reads back well takes the value into effect, answers 0x00 and puts its record, or for a firmware segment
its write, into the store, so that LINK_ENCRYPT has its new value and its record stands in the store; one that
does not is reported and answers STORE_FAIL, and what was in force stays; with no write under way nothing
happens. A function that was starting is ON, or with code 1, 2 or 3 has failed: OFF, the code kept, ENABLE 0
queued for the store; a sump port is ON where a suitable expander is found, and otherwise fails with code 2. One
that was stopping is OFF, or starts again where a start was deferred. The oldest ENABLE record that waits is
written while no store write is under way and the reserve is not low, and is given up where it does not read
back. Rests on R434, R436, R438, R441, R445, R446, R447, R449, R450, R504. -/
def Obligations.DictionaryAccess : Prop :=
  ∀ s : State, s.Inv →
    (∀ index sub : Nat, s.dict.busy = true →
      let lost (i : Instr) : Prop := exec i s = .next { s with dict := { s.dict with overrun := true } }
      lost (.dictRead index sub) ∧ lost (.dictWrite index sub) ∧ lost (.dictInfo index sub)) ∧
    (∀ (index sub op : Nat) (u : State), s.fw.handing 33 = false → s.startAccess .bar0 index sub op = some u →
      let c := bits s.dict.sel 2 0
      (∀ e : Entry, entry? index sub = some e →
        (op = 0 → u.judgeRead .host e c = 0 → ∃ t : State, exec (.dictRead index sub) s = .next t ∧ t.dict.busy = false ∧ t.dict.code = 0 ∧
          let v := u.readEntry e .host c
          let b := e.chunk v (bits s.dict.sel 11 8) 4096
          t.dict.length = v.length ∧ (b.length ≤ 4096 → t.dict.data.take b.length = b ∧ t.dict.data.length = 4096)) ∧
        (op = 0 → u.judgeRead .host e c ≠ 0 → ∃ t : State, exec (.dictRead index sub) s = .next t ∧ t.dict.busy = false ∧
          t.dict.code = u.judgeRead .host e c ∧ t.dict.data = s.dict.data) ∧
        (op = 2 → u.accessOf .host e ≠ 0 → ∃ t : State, exec (.dictInfo index sub) s = .next t ∧ t.dict.busy = false ∧ t.dict.code = 0 ∧
          t.dict.length = 16 ∧ t.dict.data.take 16 = u.infoBytes e) ∧
        (op = 1 → 2 ≤ u.accessOf .host e → u.lockRefuses .host e = false → typeWidth e.ty ≠ 0 → exec (.dictWrite index sub) s =
          .next (u.writeValue .bar0 index sub c (slice (slice s.dict.data 0 4096) 0 (typeWidth e.ty))))) ∧
      (entry? index sub = none →
        (op = 0 → ∃ t : State, exec (.dictRead index sub) s = .next t ∧ t.dict.code = 0x10 ∧ t.dict.busy = false ∧ t.dict.data = s.dict.data) ∧
        (op = 1 → ∃ t : State, exec (.dictWrite index sub) s = .next t ∧ t.dict.code = 0x10 ∧ t.dict.busy = false) ∧
        (op = 2 → ∃ t : State, exec (.dictInfo index sub) s = .next t ∧ t.dict.code = 0x10 ∧ t.dict.busy = false))) ∧
    (s.dict.busy = false → s.fw.handing 33 = false → ∃ t : State, exec (.dictWrite 0x6101 1) s = .next t ∧ t.dict.busy = false ∧
      (64 ≤ leNat (slice (slice s.dict.data 0 4096) 0 1) → t.dict.code = 0x15 ∧ t.dict.ringSel = s.dict.ringSel) ∧
      (leNat (slice (slice s.dict.data 0 4096) 0 1) < 64 →
        t.dict.code = 0 ∧ t.dict.ringSel = leNat (slice (slice s.dict.data 0 4096) 0 1))) ∧
    exec .dictOverrunClear s = .next { s with dict := { s.dict with overrun := false } } ∧
    exec .dictStagingTimeout s = .next { s with dict := { s.dict with staging := s.dict.staging.drop 1 } } ∧
    (s.dict.writing = none → ∀ ok : Bool, exec (.persistedWriteCommit ok) s = .next s) ∧
    (∀ w : PersistedWrite, s.dict.writing = some w →
      let y : State := { s with dict := { s.dict with writing := none } }
      let applied := (y.applyEntry w.index w.sub w.channel w.value).answer w.door 0 none
      (w.index ≠ 0x9010 → exec (.persistedWriteCommit true) s = .next (applied.storeRecord w.index w.sub w.channel w.value)) ∧
      (w.index = 0x9010 → exec (.persistedWriteCommit true) s = .next applied.storeWrite) ∧
      (w.index = 0x8000 → w.sub = 7 → ∃ t : State, exec (.persistedWriteCommit true) s = .next t ∧ t.dict.writing = none ∧
        t.sec.linkEncrypt = decide (leNat w.value = 1) ∧
        t.dict.store.head?.map (fun r => (r.index, r.sub, r.channel, r.value)) = some (w.index, w.sub, w.channel, w.value)) ∧
      ∃ t : State, exec (.persistedWriteCommit false) s = .next t ∧ t = y.storeReport.answer w.door 0x18 none ∧ t.dict.writing = none ∧
        t.sec = s.sec ∧ t.dict.store = s.dict.store) ∧
    (∀ (f : Fin 7) (c : Nat) (x : Option Expander), (f.val < 4 ∨ c < 8) → (s.lifeOf f c).st = 1 →
      let failed (i : Instr) (code : Nat) : Prop := ∃ t : State, exec i s = .next t ∧ (t.lifeOf f c).st = 0 ∧
        (t.lifeOf f c).lastFail = code ∧ t.dict.enableRecords.getLast? = some (f.val, c, false)
      (f ≠ 4 → ∃ t : State, exec (.lifecycleStartComplete f c x) s = .next t ∧ (t.lifeOf f c).st = 2) ∧
      (f = 4 → ∀ e : Expander, e.suitable = true →
        ∃ t : State, exec (.lifecycleStartComplete f c (some e)) s = .next t ∧ (t.lifeOf f c).st = 2) ∧
      (f = 4 → (∀ e : Expander, x = some e → e.suitable = false) → failed (.lifecycleStartComplete f c x) 2) ∧
      (∀ code : Nat, code = 1 ∨ code = 2 ∨ code = 3 → failed (.lifecycleStartFail f c code) code) ∧
      ∀ code : Nat, code = 0 ∨ 3 < code → exec (.lifecycleStartFail f c code) s = .next s) ∧
    (∀ (f : Fin 7) (c : Nat), (f.val < 4 ∨ c < 8) → (s.lifeOf f c).st = 3 → ∃ t : State, exec (.lifecycleStopComplete f c) s = .next t ∧
      (t.lifeOf f c).st = if (s.lifeOf f c).deferred then 1 else 0) ∧
    (∀ (f c : Nat) (on : Bool) (rest : List (Nat × Nat × Bool)), s.dict.enableRecords = (f, c, on) :: rest → (f < 4 ∨ f < 7 ∧ c < 8) →
      (s.dict.writing.isSome = true ∨ s.dict.holdup = false → ∀ ok : Bool, exec (.enableRecordWrite ok) s = .next s) ∧
      (s.dict.writing = none → s.dict.holdup = true →
        (s.dict.storeWear < 100 → ∃ t : State, exec (.enableRecordWrite true) s = .next t ∧
          t.dict.enableRecords = rest ∧ (t.lifeOf f c).enable = on ∧
          t.dict.store.head?.map (fun r => (r.index, r.sub, r.value)) = some (0x2200 + f, 1, [if on then 1#8 else 0#8])) ∧
        ∃ t : State, exec (.enableRecordWrite false) s = .next t ∧ t.dict.enableRecords = rest ∧ t.dict.store = s.dict.store))

/-- Collective steps: launch, sums and results of a live step, flow by PULL, completion, and the membership epoch. A
step that launches is live for its group at the membership epoch, or is void when its instance has ended or a
member of its group is lost. A chunk of a collective that the slice has no descriptor of is discarded and
recorded. A SUM chunk as its descriptor asks, from the only predecessor and within what it was granted, that a
live step takes out of its turn is kept with its status, forms no sum yet and changes no byte; in its turn and
with no status it forms the sum carrierAdd of the own input and the chunk, which a member that is not the tail
and has a working buffer holds to be sent, and of which the tail notes the result. A RESULT chunk from the
successor with no status at either end is noted and owed to each predecessor, and stands in the output where the
output may be written; where it may not, no byte changes if no request of the slice has a condition that waits.
A PULL that acts on a live step raises what the successor has passed and what may go, and chunks from its FIRST
up are to be sent again (which of two steps it acts on is the model's choice, log 150); one for a step that
waits to launch is kept. PULL_REPEAT tells each predecessor the first chunk still missing and that plus the free
working buffers, while chunks are missing. CHUNK_SEND marks the next permitted sum sent. A finished step is
completed and counted, and one that is not finished goes on. At the epoch drip, and not before, the next lists
are current, MEMBER_EPOCH rises by 1 modulo 65536 and the slices they name are lost no more. Rests on R333,
R334, R335, R336, R340, R341, R345. -/
def Obligations.CollectiveSteps : Prop :=
  ∀ (s : State) (sl : SliceId), s.Inv →
    let x := s.sl sl
    let live (c : CollStep) (n : Nat) : Prop :=
      x.coll.steps.find? (fun k => !k.completed && k.covers n && k.epoch == chEpoch n) = some c ∧ s.step? sl c = c
    let mine (i : Nat) (c : CollStep) : Prop := x.liveStep i = some c ∧ s.step? sl c = c
    (∀ (i : Nat) (u : Run) (v : State) (k : Nat) (d : CollDesc) (g : Group), s.actingRun sl i .collective = some (u, v) →
      x.coll.descs.find? (fun e => e.1 == u.entry.f.desc) = some (k, d) → x.coll.groups.find? (fun e => e.1 == d.group) = some (d.group, g) →
      (x.instanceEnded d.collId (u.frame.toNat % 65536) = true → ∃ t : State, exec (.collectiveStep sl i) s = .next t ∧
        (t.sl sl).coll.steps = x.coll.steps ∧ (t.sl sl).mem = x.mem ∧ ∀ w ∈ (t.sl sl).runs, w.idx = u.idx → w.frame = u.frame → w.st = .void) ∧
      (x.instanceEnded d.collId (u.frame.toNat % 65536) = false → (∃ p ∈ g.members, p ∈ x.fabric.lost) →
        ∃ t : State, exec (.collectiveStep sl i) s = .next t ∧ (∀ c ∈ (t.sl sl).coll.steps, c ∈ x.coll.steps) ∧
          ∀ w ∈ (t.sl sl).runs, w.idx = u.idx → w.frame = u.frame → w.st = .void) ∧
      (x.instanceEnded d.collId (u.frame.toNat % 65536) = false → (∀ p ∈ g.members, p ∉ x.fabric.lost) →
        ∃ (t : State) (c : CollStep), exec (.collectiveStep sl i) s = .next t ∧ c ∈ (t.sl sl).coll.steps ∧ c.run = u.idx ∧ c.frame = u.frame ∧
          c.desc = d ∧ c.group = g ∧ c.step = u.entry.f.step ∧ c.epoch = s.pkg.memberEpoch % 2 ∧ c.completed = false)) ∧
    (∀ (src : Place) (msg : Bytes), x.collDesc? (chColl (leNat (slice msg 0 64))) = none →
      exec (.sumChunk sl src msg) s = .next (s.discardChunk sl true) ∧ exec (.resultChunk sl src msg) s = .next (s.discardChunk sl true)) ∧
    (∀ (src : Place) (msg : Bytes) (c : CollStep) (idx : Nat) (d : CollDesc),
      let n := leNat (slice msg 0 64)
      let k := chChunk n
      let payload := if chZero n then none else some (msg.drop 64)
      64 ≤ msg.length → x.collDesc? (chColl n) = some (idx, d) → chunkAsExpected d n (msg.drop 64) = true → live c n →
      (chKind n = 0x09 → c.preds = [src] → (∃ g ∈ c.granted, g.1 = src ∧ k < g.2.2) → (∀ g ∈ c.got, g.2.1 ≠ k) → c.cur < c.hi →
        (c.cur < k → (∀ g ∈ c.got, g.2.1 ≠ c.cur) → ∃ t : State, exec (.sumChunk sl src msg) s = .next t ∧
          (t.step? sl c).got = c.got ++ [(src, k, payload)] ∧ (t.step? sl c).cur = c.cur ∧
          (t.step? sl c).status = lowStatus c.status (chStatus n) ∧ (t.sl sl).mem = x.mem) ∧
        (k = c.cur → chStatus n = 0 → c.succ.isSome = true → c.sums.length < 16 → ∃ t : State, exec (.sumChunk sl src msg) s = .next t ∧
          k < (t.step? sl c).cur ∧ (k, carrierAdd c.desc.wide (c.input x k).1 payload, false) ∈ (t.step? sl c).sums ∧ (t.sl sl).mem = x.mem) ∧
        (k = c.cur → chStatus n = 0 → c.succ = none → ∃ t : State, exec (.sumChunk sl src msg) s = .next t ∧
          k < (t.step? sl c).cur ∧ k ∈ (t.step? sl c).results)) ∧
      (chKind n = 0x0A → c.succ = some src → c.status = 0 → chStatus n = 0 →
        let a := c.desc.outAddr + k * c.desc.full * elemBytes (rowFmt c.desc.outFmt)
        ∃ t : State, exec (.resultChunk sl src msg) s = .next t ∧ k ∈ (t.step? sl c).results ∧
          (∀ p ∈ c.preds, (p, k) ∈ (t.step? sl c).owed) ∧
          (x.outRefused a (msg.drop 64).length = false → (t.sl sl).load a (msg.drop 64).length = msg.drop 64 ∧
            SameBytesOutside x (t.sl sl) a (msg.drop 64).length) ∧
          (x.outRefused a (msg.drop 64).length = true → (∀ r ∈ x.svc.reqs, r.ended = true ∨ r.conds = []) → (t.sl sl).mem = x.mem))) ∧
    (∀ (src : Place) (msg : Bytes) (c : CollStep),
      let n := leNat (slice msg 0 64)
      c ∈ x.coll.steps → c.completed = false → c.desc.collId = chColl n → c.frame.toNat % 65536 = chTag n → c.epoch = chEpoch n →
      c.succ = some src → c.pulledBy (chChunk n) = true → s.step? sl c = c →
      ∃ t : State, exec (.pull sl src msg) s = .next t ∧ (t.step? sl c).passed = max c.passed (chChunk n) ∧
        (t.step? sl c).limit = max c.limit (chLimit n) ∧
        ∀ e ∈ c.sums, chChunk n ≤ e.1 → (e.1, e.2.1, false) ∈ (t.step? sl c).sums) ∧
    (∀ (src : Place) (msg : Bytes) (idx : Nat) (d : CollDesc) (u : Run),
      let n := leNat (slice msg 0 64)
      x.collDesc? (chColl n) = some (idx, d) → (∀ c ∈ x.coll.steps, c.desc.collId ≠ chColl n) → x.chunkRun d idx n = some u → u.st = .waiting →
      x.instanceEnded (chColl n) (chTag n) = false → x.coll.pulls.length < 64 →
      exec (.pull sl src msg) s = .next (s.onSl sl fun y => { y with coll := { y.coll with pulls := y.coll.pulls ++ [(src, msg)] } })) ∧
    (∀ (i : Nat) (c : CollStep), mine i c →
      (c.cur < c.hi → ∃ t : State, exec (.pullRepeat sl i) s = .next t ∧ (t.sl sl).mem = x.mem ∧
        ∀ p ∈ c.preds, (p, c.first p, c.first p + c.freeBuffers) ∈ (t.step? sl c).granted) ∧
      (c.hi ≤ c.cur → exec (.pullRepeat sl i) s = .next s) ∧
      (∀ (p : Place) (k : Nat) (b : Option Bytes), c.succ = some p → (k, b, false) ∈ c.sums → (∀ e ∈ c.sums, e.1 < k → e.2.2 = true) →
        (∀ e ∈ c.sums, e.1 = k → e = (k, b, false)) → c.sums.Pairwise (fun e f => e.1 < f.1) → (k = c.lo ∨ k < c.limit) →
        ∃ t : State, exec (.chunkSend sl i) s = .next t ∧ (k, b, true) ∈ (t.step? sl c).sums) ∧
      (c.finished = false → exec (.collectiveStepComplete sl i) s = .next s) ∧
      (c.finished = true → ∃ t : State, exec (.collectiveStepComplete sl i) s = .next t ∧
        (∀ d ∈ (t.sl sl).coll.steps, c.key d = true → d.completed = true) ∧ (t.sl sl).coll.stepsDone = x.coll.stepsDone + 1)) ∧
    (∀ (e : Drip) (es : List Drip), s.pkg.collEpochs = e :: es →
      (Drip.later e s.now = true → exec .membershipEpoch s = .next s) ∧
      (Drip.later e s.now = false → ∃ t : State, exec .membershipEpoch s = .next t ∧ t.pkg.memberEpoch = (s.pkg.memberEpoch + 1) % 65536 ∧ t.pkg.collEpochs = es ∧
        (t.sl sl).coll.nextGroups = [] ∧ (t.sl sl).coll.steps = x.coll.steps ∧ (∀ g ∈ x.coll.nextGroups, g ∈ (t.sl sl).coll.groups) ∧
        ∀ g ∈ x.coll.nextGroups, ∀ p ∈ g.2.members, p ∉ (t.sl sl).fabric.lost))

/-- The ledger scan, commands and contexts. At a scan drip of an enabled ledger the record at LEDGER_HEAD whose
PHASE matches is accepted, while the pending queue has room and a slot and the completion's ring is owed fewer
than 4,096 records: it joins the pending queue with its words, or a faulty one has its completion owed with
FAULT and its REASON; with a full queue, another PHASE or a ledger that is off, nothing is accepted, and off the
scan drip nothing happens. A SUBMIT that acts is queued for admission, or ends with FAULT, REASON 3 where its
context is OFF or STOPPING and REASON 2 where it asks for a digest that the image does not form. A CANCEL takes
the pending requests it names from the queues and marks the admitted ones, or ends with FAULT REASON 5 where it
names none. A CTX_OPEN in OFF binds ring, owner and area and enters STARTING, or ends with FAULT REASON 2 where
its ring is not enabled or its owner is no context's; in STARTING or ON it ends with OK, and in STOPPING it is
deferred. A CTX_CLOSE in OFF ends with OK, and otherwise waits with the context STOPPING, whose earlier SUBMITs
have left the queues. A COPY of more bytes than its LENGTH ends with FAULT REASON 4, of none with OK, of a range
it may not use with FAULT REASON 2, and otherwise its bytes go to the DMA channel of its slice. A completion is
owed to a ring that is owed fewer than 4,096. A tear-down that is due makes a context that is not OFF STOPPING,
takes its SUBMITs from the queues, ends its requests and stops its threads, and one that is not due waits. A
STOPPING context with nothing left goes OFF at a drip after its last completion was written, and one deferred
open that may be made starts it; before, it stays. Rests on R354, R355, R356, R357, R359, R360, R361, R362,
R363, R364. -/
def Obligations.LedgerAndCommands : Prop :=
  ∀ (s : State) (sl : SliceId), s.Inv →
    let v := (s.sl sl).svc
    let owed (t : State) (ring : Nat) (c : Cmd) (st : Status) (reason : Nat) : Prop :=
      ring < 64 → (s.host.rings.getD ring {}).held.length < 4096 → ∃ k ∈ (t.host.rings.getD ring {}).held, k.status = st ∧ k.reason = reason ∧
        k.tag = c.tag ∧ k.kind = c.kind ∧ k.ctx = c.ctx ∧ k.slice = sl ∧ k.ledgerIndex = c.ledgerIndex ∧ k.endDrip = s.now
    let ends (i : Instr) (c : Cmd) (st : Status) (reason : Nat) : Prop :=
      ∃ t : State, exec i s = .next t ∧ (∀ d ∈ (t.sl sl).svc.pending, d.slot ≠ c.slot) ∧ owed t (s.ctxRing c.ctx) c st reason
    let gone (t : State) (p : Nat → Cmd → Prop) : Prop := ∀ j : SliceId, ∀ d ∈ (t.sl j).svc.pending, d.kind = 1 → ¬ p j d
    (let b := (s.sl sl).load (v.ledgerBase + 64 * v.ledgerHead) 64
     let w := (List.range 8).map fun i => leNat (slice b (8 * i) 8)
     let c : Cmd := { slot := v.freeSlot.getD 0, kind := bits (w.getD 0 0) 7 0, ctx := bits (w.getD 0 0) 15 8, tag := bits (w.getD 0 0) 63 32,
                      words := w, ledgerIndex := v.ledgerHead, acceptDrip := s.now, seq := v.accepted }
     let here := s.now.toNat % max 1 v.scanDrips = 0
     (¬ here → exec (.ledgerScan sl) s = .next s) ∧
     (here → v.ledgerEnable = false ∨ (w.getD 7 0).testBit 0 ≠ v.ledgerPhase ∨ 4096 ≤ v.pending.length → exec (.ledgerScan sl) s = .next (s.onSl sl SliceState.releaseWaits)) ∧
     (here → v.ledgerEnable = true → (w.getD 7 0).testBit 0 = v.ledgerPhase → v.pending.length < 4096 → v.freeSlot.isSome = true → 1 ≤ v.scanMax →
       (∀ r, recordFault b c s.tokenRows = some r →
         let ring := if bits (c.word 7) 47 16 ≠ crc32c (b.take 56) then s.ctxRing c.ctx else s.cmdRing c
         (s.host.rings.getD ring {}).held.length < 4096 →
         ∃ t : State, exec (.ledgerScan sl) s = .next t ∧ v.accepted < (t.sl sl).svc.accepted ∧ owed t ring c .fault r) ∧
       (recordFault b c s.tokenRows = none → (s.host.rings.getD (s.cmdRing c) {}).held.length < 4096 →
         ∃ t : State, exec (.ledgerScan sl) s = .next t ∧ v.accepted < (t.sl sl).svc.accepted ∧
           ∃ d ∈ (t.sl sl).svc.pending, { d with waitFlag := none } = c))) ∧
    (∀ (i : Nat) (c : Cmd), s.actingCmd sl i 1 = some c →
      (s.ctxState c.ctx = 0 ∨ s.ctxState c.ctx = 3 → ends (.submit sl i) c .fault 3) ∧
      (s.ctxState c.ctx = 1 ∨ s.ctxState c.ctx = 2 → c.wantsDigest = true → (∀ e ∈ (s.img sl).entries, e.kind ≠ .passDigest) →
        ends (.submit sl i) c .fault 2) ∧
      (s.ctxState c.ctx = 1 ∨ s.ctxState c.ctx = 2 → c.wantsDigest = false ∨ (∃ e ∈ (s.img sl).entries, e.kind = .passDigest) → ∃ t : State, exec (.submit sl i) s = .next t ∧
        OnlySlice s t sl ∧ (∀ d ∈ (t.sl sl).svc.pending, d.slot = i → d.queued = true) ∧
        (t.sl sl).svc.pending.length = v.pending.length ∧ (t.sl sl).mem = (s.sl sl).mem)) ∧
    (∀ (i : Nat) (c : Cmd), s.actingCmd sl i 2 = some c →
      let mine (j : Nat) (d : Cmd) : Prop :=
        d.ctx = c.ctx ∧ acceptedBefore (j, d) (sl.val, c) = true ∧ ((c.word 1).testBit 0 = true ∨ d.tag = bits (c.word 5) 31 0)
      let admitted (j : Nat) (r : Request) : Prop := mine j r.cmd ∧ r.ended = false ∧ r.outputDone = false ∧ s.lastBoundaryPast j = false
      let hit := ∃ j : SliceId, (∃ d ∈ (s.sl j).svc.pending, d.kind = 1 ∧ mine j d) ∨ ∃ r ∈ (s.sl j).svc.reqs, admitted j r
      (¬ hit → ends (.cancel sl i) c .fault 5) ∧
      (hit → ∃ t : State, exec (.cancel sl i) s = .next t ∧ gone t mine ∧
        (∀ j : SliceId, (t.sl j).svc.reqs.length = (s.sl j).svc.reqs.length ∧
          ∀ r ∈ (s.sl j).svc.reqs, admitted j r → { r with cancel := true } ∈ (t.sl j).svc.reqs))) ∧
    (∀ (i : Nat) (c : Cmd), s.actingCmd sl i 3 = some c →
      let opened : Ctx := { ctx := c.ctx, st := 1, ring := c.ring, owner := c.owner, area := c.hostA, opens := [(sl.val, c)] }
      (s.ctxState c.ctx = 0 → (s.host.rings.getD c.ring {}).enable = true → ((s.sl sl).pools.owner c.owner).kind = 1 →
        ∃ t : State, exec (.ctxOpen sl i) s = .next t ∧ t.ctx? c.ctx = some opened ∧ t.host = s.host) ∧
      (s.ctxState c.ctx = 0 → (s.host.rings.getD c.ring {}).enable = false →
        ∃ t : State, exec (.ctxOpen sl i) s = .next t ∧ t.ctxs = s.ctxs ∧ owed t 0 c .fault 2) ∧
      (s.ctxState c.ctx = 0 → (s.host.rings.getD c.ring {}).enable = true → ((s.sl sl).pools.owner c.owner).kind ≠ 1 →
        ∃ t : State, exec (.ctxOpen sl i) s = .next t ∧ t.ctxs = s.ctxs ∧ owed t c.ring c .fault 2) ∧
      (s.ctxState c.ctx = 1 ∨ s.ctxState c.ctx = 2 →
        ∃ t : State, exec (.ctxOpen sl i) s = .next t ∧ t.ctxs = s.ctxs ∧ owed t c.ring c .ok 0) ∧
      (∀ x : Ctx, c.ctx < 255 → s.ctx? c.ctx = some x → x.st = 3 → ∃ t : State, exec (.ctxOpen sl i) s = .next t ∧
        t.ctx? c.ctx = some { x with deferred := x.deferred ++ [(sl.val, c)] })) ∧
    (∀ (i : Nat) (c : Cmd), s.actingCmd sl i 4 = some c →
      (s.ctxState c.ctx = 0 → ends (.ctxClose sl i) c .ok 0) ∧
      (∀ x : Ctx, c.ctx < 255 → s.ctx? c.ctx = some x → x.st ≠ 0 → ∃ t : State, exec (.ctxClose sl i) s = .next t ∧
        t.ctx? c.ctx = some { x with st := 3, opens := if x.st = 3 then x.opens else [], closes := x.closes ++ [(sl.val, c)] } ∧
        (x.st ≠ 3 → gone t fun j d => d.ctx = c.ctx ∧ acceptedBefore (j, d) (sl.val, c) = true))) ∧
    (∀ (i : Nat) (c : Cmd), s.actingCmd sl i 5 = some c →
      let x := s.sl sl
      let n := if c.indirect then x.loadNat c.lenAddr 4 * 2 ^ c.lenShift else c.length
      let toHost := (c.word 1).testBit 0
      let inside := if toHost then inRegion c.dev n .hbm || inRegion c.dev n .staging else x.tiers.inState c.dev n || x.hbmFree c.dev n
      (c.length < n → ends (.copy sl i) c .fault 4) ∧
      (n = 0 → ends (.copy sl i) c .ok 0) ∧
      (n ≤ c.length → n ≠ 0 → inside = false → ends (.copy sl i) c .fault 2) ∧
      (n ≤ c.length → n ≠ 0 → inside = true → ∃ t : State, exec (.copy sl i) s = .next t ∧ (t.sl sl).mem = x.mem ∧
        (c, n) ∈ (t.sl sl).svc.copies ∧
        (toHost = true → t.host.chans.getD (2 * sl + 1) [] =
          s.host.chans.getD (2 * sl + 1) [] ++ [.copyWrite sl c.slot c.hostA (x.load c.dev n)]) ∧
        (toHost = false → t.host.chans.getD (2 * sl) [] = s.host.chans.getD (2 * sl) [] ++ [.copyRead sl c.slot c.hostA n c.dev]))) ∧
    (∀ (ctx : Nat) (x : Ctx), ctx < 255 → s.ctx? ctx = some x →
      (x.st ≠ 0 → (∃ e ∈ s.tears, e.1 = ctx ∧ Drip.later e.2 s.now = false) → ∃ t : State, exec (.contextTeardown ctx) s = .next t ∧
        t.ctxState ctx = 3 ∧ (gone t fun _ d => d.ctx = ctx) ∧
        (∀ j : SliceId, ∀ r ∈ (s.sl j).svc.reqs, r.cmd.ctx = ctx → ∃ q ∈ (t.sl j).svc.reqs, q.slot = r.slot ∧ q.ended = true) ∧
        ∀ (j : SliceId) (e : EngineId) (h : ThreadId), (s.thread j e h).ctx = ctx → (t.thread j e h).st = .idle) ∧
      ((∀ e ∈ s.tears, e.1 = ctx → Drip.later e.2 s.now = true) → exec (.contextTeardown ctx) s = .next s) ∧
      (x.st = 3 → s.ctxBusy ctx = false → x.wrote ≠ some s.now → x.deferred = [] → ∃ t : State, exec (.contextOff ctx) s = .next t ∧ t.ctx? ctx = none) ∧
      (∀ (i : SliceId) (c : Cmd), x.st = 3 → s.ctxBusy ctx = false → x.wrote ≠ some s.now → x.deferred = [(i.val, c)] → c.ctx = ctx →
        (s.host.rings.getD c.ring {}).enable = true → ((s.sl i).pools.owner c.owner).kind = 1 →
        ∃ t : State, exec (.contextOff ctx) s = .next t ∧
          t.ctx? ctx = some { ctx := ctx, st := 1, ring := c.ring, owner := c.owner, area := c.hostA, opens := [(i.val, c)] }) ∧
      (x.st ≠ 3 ∨ s.ctxBusy ctx = true ∨ x.wrote = some s.now → exec (.contextOff ctx) s = .next s))

/-- Input, output, layer boundaries, deadlines and completion rings. The INPUT stage asks host memory for the rows
of every live request of its frame, and a request of no bytes has its input; an OUTPUT stage of either kind
writes the rows, if there are any, of each request it serves to HOST_B on the channel of its slice. At the
boundary of a combined layer, taken once, a cancelled request has ended with CANCELLED, and a live one with no
condition that is projected beyond its deadline, or forced there, is switched with SQZ_LAYER the next layer
where there is one. From drip DEADLINE + 1 a live request whose output is not present has ended with DEADLINE
and has no valid row, one that ended before takes that condition too, and a pending SUBMIT is gone and counted;
before, or with the output present, a live request goes on. The oldest record owed to a ring that is open is
written at RING_TAIL, bytes 8 to 127 before word 0, the tail advances, PHASE turns at the wrap and a digest in
it is counted; while the ring is not open, the request's output still waits for its channel, or nothing is owed,
nothing is written. RING_HEAD takes the low 16 bits written and changes nothing else of the rings; one beyond an
enabled ring is recorded (log 149). Rests on R353, R364, R365, R367, R369, R370, R371, R498. -/
def Obligations.RequestsOfAPass : Prop :=
  ∀ (s : State) (sl : SliceId), s.Inv →
    let x := s.sl sl
    let row (f : Image → Nat) : Nat := match s.job with | some j => f j | none => 0
    (∀ (i : Nat) (u : Run) (v : State), s.actingRun sl i .input = some (u, v) → ∃ t : State, exec (.inputStage sl i) s = .next t ∧
      (t.sl sl).mem = x.mem ∧ ∀ r ∈ x.svc.reqs, r.liveIn u.frame = true →
        (r.rows * row (·.inRowBytes) ≠ 0 → .inputRead sl r.slot r.cmd.hostA (r.rows * row (·.inRowBytes)) ∈ t.host.chans.getD (2 * sl) []) ∧
        (r.rows * row (·.inRowBytes) = 0 → ∀ q ∈ (t.sl sl).svc.reqs, q.slot = r.slot → q.inputDone = true)) ∧
    (∀ (sqz : Bool) (i : Nat) (u : Run) (v : State), s.actingRun sl i (if sqz then .outputSqz else .outputMain) = some (u, v) →
      ∃ t : State, exec (if sqz then .outputSqz sl i else .outputMain sl i) s = .next t ∧
        ∀ r ∈ x.svc.reqs, x.writes sqz u.frame r = true → r.rows * row (·.outRowBytes) ≠ 0 →
          .outputWrite sl r.slot r.cmd.hostB
            (x.load (row (fun j => j.outAddr.getD sl 0) + r.firstRow * row (·.outRowBytes)) (r.rows * row (·.outRowBytes))) ∈
            t.host.chans.getD (2 * sl + 1) []) ∧
    (∀ (layer : Nat) (d : Drip), (layer, d) ∈ x.svc.combined → Drip.later d s.now = false → layer ∉ x.svc.boundaries → ∃ t : State, exec (.layerBoundary sl layer) s = .next t ∧
      layer ∈ (t.sl sl).svc.boundaries ∧ (∀ k ∈ (t.sl sl).svc.combined, k.1 ≠ layer) ∧
      (∀ r ∈ x.svc.reqs, r.cancel = true → r.ended = false → ∃ q ∈ (t.sl sl).svc.reqs, q.slot = r.slot ∧ q.ended = true ∧
        ⟨s.now, s.now, .cancelled, layer⟩ ∈ q.conds) ∧
      ∀ r ∈ x.svc.reqs, r.cancel = false → r.ended = false → r.conds = [] → r.sqz = false → (∃ k ∈ s.moeLayers sl, layer < k) →
        (s.overdue r (s.lagAt layer r.frame) = true ∨
          r.cmd.sqzForce = true ∧ r.cmd.noSqueeze = false ∧ layer < r.cmd.sqzFrom ∧ r.cmd.sqzFrom ≤ s.layerAfter sl (some layer)) →
        ∀ q ∈ (t.sl sl).svc.reqs, q.slot = r.slot → q.sqz = true ∧ q.sqzLayer = s.layerAfter sl (some layer)) ∧
    (∀ (req : Nat) (r : Request), x.svc.reqs.find? (fun q => q.slot == req && !q.ended) = some r →
      (Drip.later s.now r.deadline = true → r.present (r.deadline.plus 1) = false → ∃ t : State, exec (.requestDeadline sl req) s = .next t ∧
        (∀ q ∈ (t.sl sl).svc.reqs, q.slot = req → q.ended = true) ∧
        (∃ q ∈ (t.sl sl).svc.reqs, q.slot = req ∧ ⟨s.now, s.now, .deadline, 0xFF⟩ ∈ q.conds) ∧
        ∀ e ∈ (t.sl sl).svc.rowmap, e.valid = true → e.req ≠ req) ∧
      (Drip.later s.now r.deadline = false ∨ r.present (r.deadline.plus 1) = true → exec (.requestDeadline sl req) s = .next s)) ∧
    (∀ (req : Nat) (r : Request), x.svc.reqs.find? (fun q => q.slot == req) = some r → (∀ q ∈ x.svc.reqs, q.slot = req → q.ended = true) →
      Drip.later s.now r.deadline = true → r.present (r.deadline.plus 1) = false → ∃ t : State, exec (.requestDeadline sl req) s = .next t ∧
        ∀ q ∈ (t.sl sl).svc.reqs, q.slot = req → ⟨s.now, s.now, .deadline, 0xFF⟩ ∈ q.conds) ∧
    (∀ (req : Nat) (c : Cmd), (∀ q ∈ x.svc.reqs, q.slot ≠ req) →
      x.svc.pending.find? (fun d => d.slot == req && d.kind == 1) = some c → Drip.later s.now c.deadline = true →
      ∃ t : State, exec (.requestDeadline sl req) s = .next t ∧ (∀ d ∈ (t.sl sl).svc.pending, d.slot ≠ req) ∧
        t.pkg.deadlineEnds = s.pkg.deadlineEnds + 1) ∧
    (∀ (ring : Fin 64) (c : Completion) (cs : List Completion),
      let r := s.host.rings.getD ring {}
      let a := (r.base + 128 * r.tail) % 2 ^ 64
      r.held = c :: cs →
      (s.ringOpen r = false ∨ (∃ k, c.slot = some k ∧ ∃ j ∈ s.host.chans.getD (2 * c.slice + 1) [], j.serves c.slice k = true) →
        exec (.completionWrite ring) s = .next s) ∧
      (s.ringOpen r = true → (∀ k, c.slot = some k → ∀ j ∈ s.host.chans.getD (2 * c.slice + 1) [], j.serves c.slice k = false) →
        ∃ (t : State) (pre post : List DmaJob), exec (.completionWrite ring) s = .next t ∧
        (t.host.rings.getD ring {}).held = cs ∧
        (t.host.rings.getD ring {}).tail = (if r.entries ≤ r.tail + 1 then 0 else r.tail + 1) ∧
        (t.host.rings.getD ring {}).phase = (r.phase != decide (r.entries ≤ r.tail + 1)) ∧
        t.still.digestsWritten = s.still.digestsWritten + (if c.digest = [] then 0 else 1) ∧
        t.host.chans.getD 17 [] = pre ++ [.recordWrite (a + 8) ((completionBytes c r.phase).drop 8),
          .recordWrite a ((completionBytes c r.phase).take 8)] ++ post ∧ t.slices = s.slices)) ∧
    (∀ ring : Fin 64, (s.host.rings.getD ring {}).held = [] → exec (.completionWrite ring) s = .next s) ∧
    (∀ (ring : Fin 64) (n : Nat), ∃ t : State, exec (.ringHead ring n) s = .next t ∧ (t.host.rings.getD ring {}).head = n % 65536 ∧
      ({ t.host.rings.getD ring {} with head := (s.host.rings.getD ring {}).head } : Machine.Ring) = s.host.rings.getD ring {} ∧
      (∀ k, k ≠ ring.val → t.host.rings.getD k {} = s.host.rings.getD k {}) ∧
      let r := s.host.rings.getD ring {}
      let rep := mkReport 0x18 14 0
      let h := reportHome rep 0
      (r.enable = true → r.entries ≤ n % 65536 → (t.sl h).err = (s.sl h).err.queue rep) ∧
      (r.enable = false ∨ n % 65536 < r.entries → t.slices = s.slices))

/-- Items of a load stream. Where the load is open, the next item of a load in LOADING, whole by its ITEM_CRC and,
of a tile, its own CRC, is complete: it counts, the next SEQ rises, and it is kept and waits to be forwarded
where there is a next device that is served. An IMAGE part gives the image and the map, a MANIFEST part its
records, a MAP part adds to the map of an update, and END marks the stream ended once every ID of the map is
written. A TILE, and each part of a PANEL or PLACEMENT, is written where the map places it, and the last part
must make a whole that its record states. An IMAGE part of an update, a MAP part of another load, a MANIFEST
whose IDs do not rise, a tile that no record names or END too soon fails the load with FAULT; a tile, panel or
table that is not what its record states, and a tile of a repair that is not the one of the set, fails it with
CHECKSUM. An item that is not whole is asked for once more, and a second such item fails the load with CHECKSUM.
An item below the next SEQ is passed on. An item above it, one after END or one while the load is not open
changes nothing. An item of a HELD load of its chain and load ID is taken as in LOADING. Rests on R378, R379,
R380, R382, R384, R387, R388, R389, R390. -/
def Obligations.LoadItems : Prop :=
  ∀ (s : State) (i : LoadItem), s.Inv →
    let l := s.load
    let ok (t : State) : Prop := t.load.st = 1 ∧ t.load.items = l.items + 1 ∧ t.load.nextSeq = l.nextSeq + 1 ∧ t.load.history = l.history ++ [i] ∧
      t.load.toForward = (if l.next.isSome && !l.stopped then l.toForward ++ [i] else l.toForward) ∧ t.job = s.job
    let fails (t : State) (st : Status) : Prop := t.load.st = 4 ∧ t.load.status = st.code ∧ t.load.nextSeq = l.nextSeq ∧ t.job = s.job
    let placed (t : State) : Prop := ∀ (sl : SliceId) (a : Nat), l.places i.id = [(sl.val, a)] →
      (t.sl sl).load (a + 65536 * i.part) i.payload.length = i.payload ∧
      SameBytesOutside (s.sl sl) (t.sl sl) (a + 65536 * i.part) i.payload.length
    (l.st = 1 → l.ended = false → i.seq = l.nextSeq → s.loadOpen = true → itemWhole i = true →
      (∀ img : Image, i.kind = 0x11 → l.target = 5 → ∃ t : State, exec (.imageItem i img) s = .next t ∧ fails t .fault) ∧
      (∀ img : Image, i.kind = 0x11 → l.target ≠ 5 → ∃ t : State, exec (.imageItem i img) s = .next t ∧ ok t ∧ t.load.img = some img ∧
        t.load.map = (if l.target ≤ 3 then img.hotMap else img.loadMap) ∧ t.load.imageBytes = l.imageBytes ++ i.payload) ∧
      (let m := l.manifest ++ parseRecords i.payload.length i.payload
       i.kind = 0x12 →
        (i.payload.length % 16 = 0 → idsRise m = true → ∃ t : State, exec (.manifestItem i) s = .next t ∧ ok t ∧ t.load.manifest = m) ∧
        (i.payload.length % 16 ≠ 0 ∨ idsRise m = false → ∃ t : State, exec (.manifestItem i) s = .next t ∧ fails t .fault)) ∧
      (i.kind = 0x13 → idMatrix i.id < 14 → i.part = 0 → i.parts = 1 →
        (l.record? i.id = none → ∃ t : State, exec (.tileItem i) s = .next t ∧ fails t .fault) ∧
        ∀ r : CrcRecord, l.record? i.id = some r →
          let same : Prop := ∃ k ∈ s.epochs.manifest, k.id = r.id ∧ k.crc = r.crc
          let states : Prop := r.crc = thCrc (leNat (i.payload.take 32)) ∧ r.length = i.payload.length
          (¬ states → l.repair = false ∨ same → ∃ t : State, exec (.tileItem i) s = .next t ∧ fails t .checksum) ∧
          (l.repair = true → ¬ same → l.places i.id ≠ [] → ∃ t : State, exec (.tileItem i) s = .next t ∧ fails t .checksum) ∧
          (states → s.rangeFree i r.length = true →
            l.repair = false ∨ same ∨ (l.target = 5 ∧ l.places i.id = [] ∧ s.noRepair.isSome = true) →
            ∃ t : State, exec (.tileItem i) s = .next t ∧ ok t ∧ t.load.written = l.written ++ [i.id] ∧ placed t)) ∧
      (∀ (r : CrcRecord) (u : State), l.partOk i = true → l.record? i.id = some r → s.noRepair = some u → u.rangeFree i r.length = true →
        let all := (match l.open_ with | some o => o.2.2.2 | none => []) ++ i.payload
        let more (t : State) : Prop := ok t ∧ placed t ∧ t.load.written = l.written ∧ t.load.open_ = some (i.id, i.part + 1, i.parts, all)
        let done (t : State) : Prop := ok t ∧ placed t ∧ t.load.written = l.written ++ [i.id] ∧ t.load.open_ = none
        (i.kind = 0x14 → panelId i.id = true →
          let states : Prop := panelOk all = true ∧ r.crc = leNat (slice all (all.length - 32) 4) ∧ r.length = all.length
          (i.part + 1 ≠ i.parts → ∃ t : State, exec (.panelItem i) s = .next t ∧ more t) ∧
          (i.part + 1 = i.parts → states → ∃ t : State, exec (.panelItem i) s = .next t ∧ done t) ∧
          (i.part + 1 = i.parts → ¬ states → ∃ t : State, exec (.panelItem i) s = .next t ∧ fails t .checksum)) ∧
        (i.kind = 0x15 → placementId i.id = true →
          let states : Prop := r.crc = crc32c all ∧ r.length = all.length
          (i.part + 1 ≠ i.parts → ∃ t : State, exec (.placementItem i) s = .next t ∧ more t) ∧
          (i.part + 1 = i.parts → states → s.placementKept (idLayer i.id) all = true →
            ∃ t : State, exec (.placementItem i) s = .next t ∧ done t) ∧
          (i.part + 1 = i.parts → states → s.placementKept (idLayer i.id) all = false →
            ∃ t : State, exec (.placementItem i) s = .next t ∧ fails t .fault) ∧
          (i.part + 1 = i.parts → ¬ states → ∃ t : State, exec (.placementItem i) s = .next t ∧ fails t .checksum))) ∧
      (let whole : Prop := i.payload = [] ∧ l.open_ = none ∧ ∀ m ∈ l.map, m.1 ∈ l.written
       i.kind = 0x17 →
        (whole → ∃ t : State, exec (.endItem i) s = .next t ∧ ok t ∧ t.load.ended = true) ∧
        (¬ whole → ∃ t : State, exec (.endItem i) s = .next t ∧ fails t .fault)) ∧
      ∀ m : List (Nat × List (Nat × Nat)), i.kind = 0x16 →
        (l.target ≠ 5 → ∃ t : State, exec (.mapItem i m) s = .next t ∧ fails t .fault) ∧
        (l.target = 5 → s.isRepair (l.map ++ m) = true ∨ (s.tuning = false ∧ s.mapHits (l.map ++ m) = false) →
          ∃ t : State, exec (.mapItem i m) s = .next t ∧ ok t ∧ t.load.map = l.map ++ m ∧ t.load.repair = s.isRepair (l.map ++ m)) ∧
        (l.target = 5 → s.isRepair (l.map ++ m) = false → s.tuning = true ∨ s.mapHits (l.map ++ m) = true →
          ∃ t : State, exec (.mapItem i m) s = .next t ∧ fails t .fault)) ∧
    ∀ (img : Image) (m : List (Nat × List (Nat × Nat))), ∀ c ∈ [(0x11, Instr.imageItem i img), (0x12, Instr.manifestItem i), (0x13, Instr.tileItem i),
        (0x14, Instr.panelItem i), (0x15, Instr.placementItem i), (0x16, Instr.mapItem i m), (0x17, Instr.endItem i)], i.kind = c.1 →
      (l.st = 1 → l.ended = false → i.seq = l.nextSeq → s.loadOpen = true → itemWhole i = false →
        (l.retried = false → ∃ t : State, exec c.2 s = .next t ∧ t.load = { l with retried := true } ∧ t.job = s.job) ∧
        (l.retried = true → ∃ t : State, exec c.2 s = .next t ∧ fails t .checksum)) ∧
      (l.st = 1 ∨ l.st = 3 → i.seq < l.nextSeq → s.loadOpen = true → itemWhole i = true → exec c.2 s = .next (s.passItem i)) ∧
      (l.st = 1 → l.nextSeq < i.seq ∨ (l.ended = true ∧ l.nextSeq ≤ i.seq) ∨ s.loadOpen = false → exec c.2 s = .next s) ∧
      (l.st = 2 → i.chain = chainNo l.chain → i.loadId = chainLoad l.chain → s.loadOpen = true → l.ended = false → i.seq ≤ l.nextSeq →
        exec c.2 s = exec c.2 (s.setLoad 1 0))

/-- Reading, forwarding and resuming a load, sealing, weight epochs, the hot set and reshapes. The head of an open
load asks host memory for the next bytes of LOAD_SOURCE, one request at a time. The oldest item that waits is
forwarded where the forward window has room for it and its next device is not marked lost, and stays in the
window until it is acknowledged. A device in LOADING that is no head and hears nothing from upstream before END
is HELD with UPSTREAM_LOST. A resume token of this load makes a FULL device that is far enough serve its items
from the one after the token's, makes the head read again from that item, and is handed on toward the head by
any other device; a token of another load changes nothing. An ended load whose weight-set digest is the stated
one seals: target 4 becomes the job from LOAD_FRAME_START, a slot is READY, and an update that is no repair
waits for its switch under its epoch. With another digest the load fails with CHECKSUM, and an image that a
load-time check refuses fails it with FAULT. A hot-set slot whose load completes is SERVING and its image the
job. At the reshape drip the armed image is the job, or a device it leaves out has none. At W the update sealed
for the switch's epoch is current and the old epoch is kept until no live stage belongs to a pass that began
before it. Rests on R349, R374, R376, R380, R381, R382, R385, R387, R388, R391, R393. -/
def Obligations.LoadChainsAndEpochs : Prop :=
  ∀ s : State, s.Inv →
    let l := s.load
    (let len := leNat (slice l.source 8 8)
     (l.head = true → s.loadOpen = true → (l.st = 1 ∨ l.st = 3) → l.taken < len → s.host.chans.getD 16 [] = [] → s.host.reads = [] →
       ∃ t : State, exec .loadHostRead s = .next t ∧ t.load = l ∧
         t.host.chans.getD 16 [] = [.loadRead ((leNat (slice l.source 0 8) + l.taken) % 2 ^ 64) (min 65600 (len - l.taken))]) ∧
     (l.head = false ∨ s.loadOpen = false ∨ (l.st ≠ 1 ∧ l.st ≠ 3) ∨ len ≤ l.taken ∨ s.host.chans.getD 16 [] ≠ [] → exec .loadHostRead s = .next s)) ∧
    (∀ (i : LoadItem) (rest : List LoadItem) (n : Nat), l.toForward = i :: rest → l.next = some n →
      let held := (l.forwarded.map fun k => 64 + k.payload.length).sum
      let lost : Prop := ({ node := n, slice := 0 } : Place) ∈ (s.sl 0).fabric.lost
      (l.stopped = false → s.loadOpen = true → ¬ lost → held + 64 + i.payload.length ≤ l.window → ∃ t : State, exec .itemForward s = .next t ∧
        t.load = { l with toForward := rest, forwarded := l.forwarded ++ [i] } ∧ ∀ sl : SliceId, (t.sl sl).mem = (s.sl sl).mem) ∧
      (l.stopped = true ∨ s.loadOpen = false ∨ lost ∨ l.window < held + 64 + i.payload.length → exec .itemForward s = .next s)) ∧
    (l.toForward = [] ∨ l.next = none → exec .itemForward s = .next s) ∧
    (∀ q : Nat, exec (.loadForwardAck q) s = .next { s with load := { l with forwarded := l.forwarded.filter fun i => decide (q < i.seq) } }) ∧
    (l.st = 1 → l.head = false → l.ended = false → ∃ t : State, exec .upstreamTimeout s = .next t ∧ t.load = { l with st := 2, status := 0x1B }) ∧
    (l.st ≠ 1 ∨ l.head = true ∨ l.ended = true → exec .upstreamTimeout s = .next s) ∧
    (∀ v : Bytes,
      let w := leNat (slice v 0 16)
      let same : Prop := bits w 15 0 = chainNo l.chain ∧ bits w 31 16 = chainLoad l.chain ∧ (l.st = 1 ∨ l.st = 2 ∨ l.st = 3)
      let n := (bits w 71 32 + 1) % 2 ^ 40
      let open_ : Load := { l with stopped := false, forwarded := [], toForward := [] }
      (¬ same → exec (.resumeToken v) s = .next s) ∧
      (same → l.full = true → n ≤ l.nextSeq →
        exec (.resumeToken v) s = .next { s with load := { open_ with toForward := l.history.filter fun i => decide (n ≤ i.seq) } }) ∧
      (same → l.full = false ∨ l.nextSeq < n →
        (l.head = true → exec (.resumeToken v) s = .next { s with load := { open_ with taken := l.offsets.getD n l.taken } }) ∧
        (∀ p : Nat, l.head = false → l.prev = some p → exec (.resumeToken v) s = .next (({ s with load := open_ } : State).emit (.token p v))))) ∧
    (l.st ≠ 1 ∨ l.ended = false → exec .loadSeal s = .next s) ∧
    (l.st = 1 → l.ended = true → l.target ≠ 5 → ∀ j : Image, l.img = some j →
      ∃ t : State, exec .loadSeal s = .next t ∧
        (weightRoot l.manifest ≠ j.weightDigest → t.load.st = 4 ∧ t.load.status = 0x13 ∧ t.job = s.job) ∧
        (weightRoot l.manifest = j.weightDigest → l.target ≤ 3 → t.load.st = 3 ∧ t.job = s.job ∧
          (l.target < s.hot.length → (t.hot.getD l.target {}).st = 2 ∧ (t.hot.getD l.target {}).img = some j)) ∧
        (weightRoot l.manifest = j.weightDigest → l.target = 4 →
          match (s.tagImages j).loadJob j l.manifest (programDigest l.imageBytes) (BitVec.ofNat 48 l.frameStart) false with
          | some _ => t.load.st = 3 ∧ t.job = some j ∧ t.frame0 = BitVec.ofNat 48 l.frameStart
          | none => t.load.st = 4 ∧ t.load.status = Status.fault.code ∧ t.job = s.job)) ∧
    (l.st = 1 → l.ended = true → l.target = 5 → ∃ t : State, exec .loadSeal s = .next t ∧ t.job = s.job ∧
      (weightRoot l.manifest = slice l.imageBytes 0 64 → t.load.st = 3 ∧ t.epochs.current = s.epochs.current ∧
        (l.repair = true → t.epochs = s.epochs) ∧
        (l.repair = false → { epoch := l.updateEpoch.getD 0, manifest := l.manifest, map := l.map } ∈ t.epochs.sealed_)) ∧
      (weightRoot l.manifest ≠ slice l.imageBytes 0 64 → t.load.st = 4 ∧ t.load.status = 0x13)) ∧
    (∀ (k : Nat) (j : Image), l.hotLoading = some k → (s.hot.getD k {}).img = some j →
      let h := s.hot.getD k {}
      let p : State := { s with load := { l with hotLoading := none } }
      ∃ t : State, exec .hotServeLoadComplete s = .next t ∧ t.load.hotLoading = none ∧
        (p.hotSound j h.manifest = true → ∀ u : State,
          ((p.placeWeights j h.manifest).tagImages j).loadJob j h.manifest h.program (BitVec.ofNat 48 l.frameStart) false = some u →
          t.job = some j ∧ t.frame0 = BitVec.ofNat 48 l.frameStart ∧ (t.hot.getD k {}).st = 3) ∧
        (p.hotSound j h.manifest = false → t.job = s.job ∧ t.hot = s.hot)) ∧
    (l.hotLoading = none → exec .hotServeLoadComplete s = .next s) ∧
    (s.pkg.reshapeArmed = false ∨ BitVec.ofNat 48 s.pkg.reshapeDrip ≠ s.now → exec .reshape s = .next s) ∧
    (s.pkg.reshapeArmed = true → BitVec.ofNat 48 s.pkg.reshapeDrip = s.now → ∀ j : Image, s.pkg.reshapeHot.img = some j →
      let h := s.pkg.reshapeHot
      let p : State := { s with pkg := { s.pkg with reshapeArmed := false, reshapeDrip := 0, reshapeHot := {} }
                                hot := s.hot.map fun g => if g.st == 3 then { g with st := 2 } else g }
      let new := ((p.placeWeights j h.manifest).tagImages j).loadJob j h.manifest h.program s.now true
      ∃ t : State, exec .reshape s = .next t ∧ t.pkg.reshapeArmed = false ∧
        (s.pkg.nodeId ∈ j.nodes → p.hotSound j h.manifest = true → new.isSome = true → t.job = some j ∧ t.frame0 = s.now) ∧
        (s.pkg.nodeId ∉ j.nodes ∨ p.hotSound j h.manifest = false ∨ new = none → t.job = none)) ∧
    (∀ (e : Nat) (w : Drip), s.epochs.switch_ = some (e, w) →
      (∀ u : SealedUpdate, w = s.now → (s.epochs.sealed_.find? fun k => k.epoch == e) = some u → ∃ t : State, exec .weightEpochSwitch s = .next t ∧
        t.epochs.current = e ∧ t.epochs.since = w ∧ t.epochs.digest = weightRoot u.manifest ∧ t.epochs.manifest = u.manifest ∧
        t.epochs.map = s.mergeMaps u ∧ t.epochs.switch_ = none ∧
        t.epochs.previous = some { epoch := s.epochs.current, digest := s.epochs.digest, map := s.epochs.map }) ∧
      (w ≠ s.now → exec .weightEpochSwitch s = .next s)) ∧
    (s.epochs.switch_ = none → exec .weightEpochSwitch s = .next s) ∧
    ((∀ x ∈ s.slices, ∀ u ∈ x.runs, u.over = true ∨ Drip.notLater s.epochs.since u.frame = true) →
      exec .epochRetire s = .next { s with epochs := { s.epochs with previous := none } }) ∧
    ((∃ x ∈ s.slices, ∃ u ∈ x.runs, u.over = false ∧ Drip.notLater s.epochs.since u.frame = false) → exec .epochRetire s = .next s)

/-- The lantern port, quotes and the pass digest. A datagram that the port does not take changes nothing. An OPEN
that nothing rejects holds a handshake under the lowest free number, draws 88 bytes and is answered; a rejected
one is answered with its code and counted. A PROVE ends its handshake: it opens a session of its principal when
the identity holds, the TRNG is sound and its signature verifies, and is rejected and counted otherwise.
CERT_GET is answered with the chunk of the certificate in effect. Of a session's requests the one with the next
SEQ is served, its SEQ becomes the session's and its RESULT is kept and sent, with what the read or INFO shows
or the code of its refusal; while the management controller is handed over it waits, and while the session is
still served another it is discarded. The one with the last SEQ gets the kept RESULT again, and any other
changes nothing. CLOSE and the idle time end the session and what it stages, and the handshake time the
handshake. A quote that is made stands in QUOTE with its signature, and QUOTE_DATA is empty. At the due drip of
a PASS_DIGEST stage its pass, if it has no pass digest yet, gets that of the slice digests in order of node and
slice, with zeros for one that has not come, and a stage that launched has completed. Rests on R406, R424, R449,
R451, R452, R453, R454, R455, R463. -/
def Obligations.SessionsQuotesAndPassDigests : Prop :=
  ∀ s : State, s.Inv →
    let l := s.lantern
    let sent (t : State) (b : Bytes) : Prop := t.out = s.out ++ [.lantern b]
    (∀ m : UaricMsg,
      (s.takesDatagram m = false → exec (.uaricOpen m) s = .next s ∧ exec (.prove m) s = .next s ∧ exec (.certGet m) s = .next s) ∧
      (s.takesDatagram m = true →
        (s.openReject m = none → ∃ (t : State) (h : UHandshake) (b : Bytes), exec (.uaricOpen m) s = .next t ∧
          t.lantern.handshakes = l.handshakes ++ [h] ∧ l.freeNum = some h.num ∧ openPrincipal m.body = some h.principal ∧
          h.key = openKey m.body ∧ t.lantern.sessions = l.sessions ∧ t.draws = s.draws + 88 ∧
          sent t (uaricBytes 0x02 h.num m.seq b)) ∧
        (∀ code, s.openReject m = some code → ∃ t : State, exec (.uaricOpen m) s = .next t ∧ t.lantern.handshakes = l.handshakes ∧
          t.lantern.authFailures = l.authFailures + 1 ∧ sent t (uaricBytes 0x1F m.session m.seq [BitVec.ofNat 8 code])) ∧
        (∀ h : UHandshake, l.handshakes.find? (fun g => g.num == m.session) = some h → m.version = 1 →
          let sound := s.sec.identity == 1 && !s.sec.trngFailing
          let good := sound && m.body.length == 114 && Config.ed448Verify h.key "KN800-LANTERN" (shake256 (0x41#8 :: h.th1) 64) m.body
          ∃ t : State, exec (.prove m) s = .next t ∧ t.lantern.handshakes = l.handshakes.filter (fun g => g.num != h.num) ∧
            (good = true → t.lantern.sessions = l.sessions ++ [{ num := h.num, principal := h.principal, key := h.key, k := h.k }] ∧
              t.lantern.authFailures = l.authFailures ∧ sent t (uaricTagged h.k 0x04 h.num 0 (leBytes 4 l.idle ++ zeros 4))) ∧
            (good = false → t.lantern.sessions = l.sessions ∧ t.lantern.authFailures = l.authFailures + 1 ∧
              sent t (uaricBytes 0x1F m.session m.seq [if sound then 2#8 else 4#8]))) ∧
        (let which := leNat (slice m.body 0 1)
         let c := if which = 0 then s.sec.deviceCertUsed else s.sec.caCertUsed
         (m.version = 1 → which ≤ 1 → exec (.certGet m) s = .next (s.emit (.lantern
           (uaricBytes 0x07 0 m.seq (leBytes 2 c.length ++ (c.drop (1024 * leNat (slice m.body 1 1))).take 1024))))) ∧
         (m.version ≠ 1 ∨ 1 < which → exec (.certGet m) s = .next s)))) ∧
    (∀ m : UaricMsg, s.taggedFrom m = none →
      ∀ i ∈ [Instr.uaricRead m, Instr.uaricWrite m, Instr.uaricInfo m, Instr.uaricClose m], exec i s = .next s) ∧
    (∀ (m : UaricMsg) (u : USession), s.taggedFrom m = some u →
      let d : Door := .session u.num
      let e? := entry? (UaricMsg.index m) (UaricMsg.sub m)
      let c := UaricMsg.channel m
      let served (i : Instr) (q : State → Nat → Nat → Bytes → Prop) : Prop :=
        m.seq = u.seq + 1 → ∀ x : State, s.startAccess d 0 0 0 = some x → s.fw.handing 33 = false →
          ∃ (t : State) (w : USession) (code len : Nat) (data : Bytes),
            exec i s = .next t ∧ t.session? u.num = some w ∧ w.seq = m.seq ∧
            w.result = uaricTagged u.k 0x18 u.num m.seq ([BitVec.ofNat 8 code, 0#8] ++ leBytes 4 len ++ data) ∧ sent t w.result ∧ q x code len data
      let other (i : Instr) : Prop :=
        (m.seq = u.seq → u.result ≠ [] → exec i s = .next (s.emit (.lantern u.result))) ∧
        (m.seq ≠ u.seq → m.seq ≠ u.seq + 1 → exec i s = .next s) ∧
        (m.seq = u.seq + 1 → s.doorOpen d = false → exec i s = .next s) ∧
        (m.seq = u.seq + 1 → s.doorOpen d = true → s.fw.handing 33 = true → ∃ (t : State) (o : DictOp), exec i s = .next t ∧ o.door = d ∧
          t.dict.queued = s.dict.queued ++ [o] ∧ t.out = s.out)
      (m.type = 0x10 → other (.uaricRead m) ∧ served (.uaricRead m) fun x code len data =>
        (e? = none → code = 0x10 ∧ len = 0 ∧ data = []) ∧
        ∀ e, e? = some e → code = x.judgeRead u.principal e c ∧ (code ≠ 0 → len = 0 ∧ data = []) ∧
          (code = 0 → len = (x.readEntry e u.principal c).length ∧ data = e.chunk (x.readEntry e u.principal c) (UaricMsg.chunk m) 1024)) ∧
      (m.type = 0x12 → other (.uaricInfo m) ∧ served (.uaricInfo m) fun x code len data =>
        (e? = none → code = 0x10 ∧ len = 0 ∧ data = []) ∧
        ∀ e, e? = some e → (x.accessOf u.principal e = 0 → code = 0x10 ∧ len = 0 ∧ data = []) ∧
          (x.accessOf u.principal e ≠ 0 → code = 0 ∧ len = 16 ∧ data = x.infoBytes e)) ∧
      (m.type = 0x11 → other (.uaricWrite m) ∧
        (e? = none → served (.uaricWrite m) fun _ code len data => code = 0x10 ∧ len = 0 ∧ data = []) ∧
        (∀ (x : State) (e : Entry) (code : Nat), e? = some e → typeWidth e.ty ≠ 0 → m.seq = u.seq + 1 → codeDeferred < code →
          s.Judges d (UaricMsg.index m) (UaricMsg.sub m) c ((m.body.drop 8).take (UaricMsg.chunkLen m)) x code →
          exec (.uaricWrite m) s = .next (x.answer d code none)) ∧
        (∀ (v : Bytes) (x : State), UaricMsg.index m = 0x6101 → UaricMsg.sub m = 1 → (m.body.drop 8).take (UaricMsg.chunkLen m) = v →
          s.Takes d 0x6101 1 c v x → m.seq = u.seq + 1 →
          ∃ (t : State) (w : USession), exec (.uaricWrite m) s = .next t ∧ t.dict.ringSel = leNat v ∧ t.session? u.num = some w ∧ w.seq = m.seq ∧
            w.result = uaricTagged u.k 0x18 u.num m.seq ([0#8, 0#8] ++ zeros 4) ∧ sent t w.result)) ∧
      ∃ t : State, exec (.uaricClose m) s = .next t ∧ t.session? u.num = none ∧
        t.lantern.sessions = l.sessions.filter (fun w => w.num != u.num) ∧ ∀ g ∈ t.dict.staging, g.door ≠ d) ∧
    (∀ n : Nat, (∃ t : State, exec (.uaricIdleTimeout n) s = .next t ∧ t.session? n = none ∧
        t.lantern.sessions = l.sessions.filter (fun w => w.num != n) ∧ ((s.session? n).isSome = true → ∀ g ∈ t.dict.staging, g.door ≠ .session n)) ∧
      exec (.uaricHandshakeTimeout n) s = .next { s with lantern := { l with handshakes := l.handshakes.filter fun g => g.num != n } }) ∧
    (s.sec.quoteState = 1 → exec .quoteComplete s = .next { s with sec := { s.sec with
      quoteState := 2, quoteData := [], quoteBody := []
      quote := s.sec.quoteBody ++ slice (Config.ed448Sign s.identitySeed "KN800-QUOTE" s.sec.quoteBody) 0 114 } }) ∧
    (s.sec.quoteState ≠ 1 → exec .quoteComplete s = .next s) ∧
    ∀ (sl : SliceId) (i : Nat),
      let due := (s.sl sl).runs.find? fun r => r.idx == i && (s.sl sl).digestDue s.now r
      (due = none → exec (.passDigestForm sl i) s = .next s) ∧
      (∀ u : Run, due = some u → (s.sl sl).svc.pass.frame = u.frame ∨ (∃ p ∈ (s.sl sl).svc.older, p.frame = u.frame) →
        let old := (s.sl sl).svc.passOf u.frame
        let one (p : Place) : Bytes := match old.digests.find? fun g => g.1 == p with | some g => g.2.1 | none => zeros 64
        ∃ t : State, exec (.passDigestForm sl i) s = .next t ∧ OnlySlice s t sl ∧ (t.sl sl).mem = (s.sl sl).mem ∧
          ((t.sl sl).svc.passOf u.frame).passDigest = digest64 (0x05#8 :: (s.membersInOrder.map one).flatten) ∧
          (((t.sl sl).svc.passOf u.frame).incomplete = true ↔ old.incomplete = true ∨ ∃ p ∈ s.membersInOrder, ∀ g ∈ old.digests, g.1 ≠ p) ∧
          (u.st = .launched → ∀ r ∈ (t.sl sl).runs, r.idx = u.idx → r.frame = u.frame → r.st = .completed) ∧
          (u.st ≠ .launched → (t.sl sl).runs = (s.sl sl).runs))

/-- The steps of a rollout, its holds and its end. A handover that is due with a good digest makes the next
processor switch to the set the rollout goes to, and where that is the security controller MR5 is extended with
its image's digest; with a bad one the rollout turns back, or has failed when nothing is to be undone. An image
that reports ready extends MR5 with its digest, that of the security controller apart, and completes the step,
the last of which makes the target the running slot; on the way back it undoes the step. An image that does not
report in time leaves its processor to return, and the rollout turns back; on the way back the step is undone.
Accesses that waited are then served. A held rollout runs again once no reason holds it, as one that starts at
that drip, and otherwise stays held with the reason. After the last step the running slot is written to
FW_BOOT_SLOT and the rollout is IDLE, and a record that does not read back, or a store at its wear limit,
changes nothing of it. Rests on R463, R464, R465, R466, R467. -/
def Obligations.FirmwareRollout : Prop :=
  ∀ s : State, s.Inv →
    let f := s.fw
    let k := f.nextStep
    let back : Nat := if f.step = 0 then 4 else 3
    let measured (t : State) : Prop := t.sec.handoverSinceBoot = true ∧
      t.sec.mr.getD 5 [] = digest64 (0x20#8 :: (s.sec.mr.getD 5 [] ++ f.imageDigest f.toSlot k)) ∧ ∀ n, n ≠ 5 → t.sec.mr.getD n [] = s.sec.mr.getD n []
    (s.handoverDue = false → ∀ ok : Bool, exec (.handoverStep ok) s = .next s) ∧
    (s.handoverDue = true →
      (∃ t : State, exec (.handoverStep true) s = .next t ∧ t.fw.switching = true ∧ t.fw.lastH = s.now ∧ t.fw.collHold = 0 ∧ t.fw.hold = 0 ∧
        t.fw.procs = f.procs.set (k - 1) (if f.rollout = 3 then f.running else f.target) ∧ t.fw.rollout = f.rollout ∧ t.fw.step = f.step ∧
        t.fw.running = f.running ∧ (k = 34 → measured t) ∧ (k ≠ 34 → t.sec = s.sec)) ∧
      ∃ t : State, exec (.handoverStep false) s = .next t ∧
        (f.rollout = 1 → t.fw = { f with rollout := back, switching := false }) ∧
        (f.rollout = 3 → t.fw.step = f.step - 1 ∧ t.fw.rollout = (if f.step ≤ 1 then 4 else 3) ∧ t.fw.running = f.running)) ∧
    (f.switching = true →
      (∃ t : State, exec .imageReady s = .next t.serveQueued ∧ t.dict.queued = s.dict.queued ∧ t.fw.switching = false ∧
        (k ≠ 34 → measured t) ∧ (k = 34 → t.sec = s.sec) ∧
        (f.rollout ≠ 3 → t.fw.step = k ∧ t.fw.running = (if k = 34 then f.target else f.running) ∧ t.fw.committing = decide (k = 34)) ∧
        (f.rollout = 3 → t.fw.step = f.step - 1 ∧ t.fw.running = f.running ∧ t.fw.rollout = if f.step ≤ 1 then 4 else 3)) ∧
      ∀ old : Bool,
        (f.rollout ≠ 3 → ∃ t : State, exec (.handoverReadyTimeout old) s = .next t ∧ t.fw.switching = false ∧ t.fw.returning = some (k, old) ∧
          t.fw.rollout = back ∧ t.fw.step = f.step ∧ t.fw.running = f.running) ∧
        (f.rollout = 3 → ∃ t : State, exec (.handoverReadyTimeout old) s = .next t.serveQueued ∧ t.fw.switching = false ∧
          t.fw.step = f.step - 1 ∧ t.fw.rollout = (if f.step ≤ 1 then 4 else 3) ∧ t.fw.running = f.running)) ∧
    (f.switching = false → exec .imageReady s = .next s ∧ ∀ old : Bool, exec (.handoverReadyTimeout old) s = .next s) ∧
    (f.rollout = 2 → ∃ t : State, exec .rolloutResume s = .next t ∧
      (s.holdReason = 0 → t.fw = { f with rollout := 1, hold := 0, startDrip := s.now }) ∧
      (s.holdReason ≠ 0 → t.fw = { f with hold := s.holdReason })) ∧
    (f.rollout ≠ 2 → exec .rolloutResume s = .next s) ∧
    (f.committing = true → s.dict.holdup = true → s.dict.writing = none →
      (s.dict.storeWear < 100 → ∃ t : State, exec (.bootSlotCommit true) s = .next t ∧ t.fw.boot = f.running ∧ t.fw.running = f.running ∧
        t.fw.rollout = 0 ∧ t.fw.committing = false ∧
        t.dict.store.head?.map (fun r => (r.index, r.sub, r.value)) = some (0x9000, 3, leBytes 1 f.running)) ∧
      ∀ ok : Bool, ok = false ∨ 100 ≤ s.dict.storeWear → ∃ t : State, exec (.bootSlotCommit ok) s = .next t ∧ t.fw = f ∧ t.dict = s.dict) ∧
    (f.committing = false ∨ s.dict.holdup = false ∨ s.dict.writing ≠ none → ∀ ok : Bool, exec (.bootSlotCommit ok) s = .next s)

/-- BAR0 registers, interrupts and configuration requests. A naturally aligned write of 8 bytes changes the register
it names: CHAN_SEL, a BAR2 window, RING_HEAD and RING_VEC take the value of their fields, a W1C cause falls
where a 1 is written, and a read-only register and a reserved offset ignore it. A write or read that is not a
naturally aligned one of 4 or 8 bytes is counted and recorded, and the read completes with Completer Abort.
Unmasking a vector clears its mask bit and changes no other entry of the table, and its pending message is sent
unless MSI-X is disabled or the function is masked. A ring whose MOD_TIME has passed with records counted sends
the message of its vector, or sets its pending bit while the vector is masked, and the counts of the vector's
rings return to 0. A configuration request is answered, with Request Retry Status while the device starts up,
and sets Bus Master Enable, the BAR2 size, the payload sizes or the MSI-X control where its value is one of
Table 20-1; clearing Bus Master Enable empties the channels but 17. RING_HEAD beyond an enabled ring is recorded
(the model's choice, log 149). Rests on R488, R491, R492, R501, R520. -/
def Obligations.HostRegisters : Prop :=
  ∀ s : State, s.Inv →
    let h := s.host
    let writes (o : Nat) (v : Word) (t : State) : Prop := exec (.registerWrite o (leBytes 8 v.toNat)) s = .next t
    let answered (x : ConfigReq) (g : HostPort) : Prop := exec (.configurationRequest x) s = .next (State.emit { s with host := g } (.cfg false))
    (∀ v : Word,
      writes 8 v { s with host := { h with chanSel := bits v.toNat 2 0 } } ∧
      (∀ k : Fin 8, writes (0x100 + 8 * k.val) v
        { s with host := { h with wins := h.wins.set k.val (bits v.toNat 40 0, bits v.toNat 43 41, bit v.toNat 44) } }) ∧
      (∀ r : Fin 64, writes (0x300000 + 0x20 * r.val) v (s.setRingHead r (bits v.toNat 15 0)) ∧
        writes (0x300010 + 0x20 * r.val) v (s.onRing r fun q =>
          { q with vector := bits v.toNat 5 0, modCount := bits v.toNat 15 8, modTime := bits v.toNat 31 16 })) ∧
      writes 0x18 v { s with host := { h with evtCause := h.evtCause &&& ((v.toNat % 256) ^^^ 0xFF) } } ∧
      writes 0x20 v s ∧ writes 0 v s) ∧
    (∀ (r : Fin 64) (n : Nat), (s.setRingHead r n).host.rings = h.rings.modify r (fun q => { q with head := n % 65536 }) ∧
      ((h.rings.getD r {}).enable = false ∨ n % 65536 < (h.rings.getD r {}).entries → s.setRingHead r n = s.onRing r fun q => { q with head := n % 65536 })) ∧
    (∀ m : Nat, exec (.evtCauseClear m) s = .next { s with host := { h with evtCause := h.evtCause &&& ((m % 256) ^^^ 0xFF) } }) ∧
    (∀ (o : Nat) (b : Bytes), ¬ ((b.length = 4 ∨ b.length = 8) ∧ o % b.length = 0) → ∃ t : State, exec (.registerWrite o b) s = .next t ∧
      t.host = { h with barAborts := h.barAborts + 1 } ∧ (t.sl 0).err = (s.sl 0).err.queue (mkReport 0x18 14 0) ∧ t.out = s.out) ∧
    (∀ (o n : Nat) (w : Bool), (n = 4 ∨ n = 8) → o % n = 0 → exec (.bar0InvalidAccess o n w) s = .next s) ∧
    (∀ o n : Nat, ¬ ((n = 4 ∨ n = 8) ∧ o % n = 0) →
      (∃ t : State, exec (.bar0InvalidAccess o n false) s = .next t ∧ t.host = { h with barAborts := h.barAborts + 1 } ∧
        t.out = s.out ++ [.cpl [] true false]) ∧
      ∃ t : State, exec (.bar0InvalidAccess o n true) s = .next t ∧ t.host = { h with barAborts := h.barAborts + 1 } ∧ t.out = s.out) ∧
    (∀ v : Fin 64, h.msix.length = 64 → ∃ t : State, exec (.msixUnmask v) s = .next t ∧
      ((t.host.msix.getD v []).getD 12 0).toNat % 2 = 0 ∧ (∀ k, k ≠ v.val → t.host.msix.getD k [] = h.msix.getD k []) ∧
      (h.msixEnable = true → h.msixMask = false → h.pendingBits.testBit v = true →
        t.host.pendingBits.testBit v = false ∧ .message v ∈ t.host.chans.getD 17 []) ∧
      (h.msixEnable = false ∨ h.msixMask = true ∨ h.pendingBits = 0 → t.host.pendingBits = h.pendingBits ∧ t.host.chans = h.chans)) ∧
    (∀ ring : Fin 64,
      let r := h.rings.getD ring {}
      (r.modTime ≠ 0 → 0 < r.unsignalled → ∃ t : State, exec (.msixModTimeout ring) s = .next t ∧
        (∀ k < 64, (h.rings.getD k {}).vector = r.vector → (t.host.rings.getD k {}).unsignalled = 0) ∧
        (h.msixEnable = true → h.masked r.vector = false → t.host.chans.getD 17 [] = h.chans.getD 17 [] ++ [.message r.vector]) ∧
        (h.msixEnable = true → h.masked r.vector = true → t.host.pendingBits = h.pendingBits ||| 2 ^ r.vector ∧ t.host.chans = h.chans) ∧
        (h.msixEnable = false → t.host.pendingBits = h.pendingBits ∧ t.host.chans = h.chans)) ∧
      (r.modTime = 0 ∨ r.unsignalled = 0 → exec (.msixModTimeout ring) s = .next s)) ∧
    (s.dict.deviceState = 0 → ∀ x : ConfigReq, exec (.configurationRequest x) s = .next (s.emit (.cfg true))) ∧
    (s.dict.deviceState ≠ 0 →
      answered .read h ∧ (∀ n, answered (.bar2Size n) (if 30 ≤ n ∧ n ≤ 36 then { h with bar2Size := n } else h)) ∧
      answered (.busMaster true) { h with bme := true } ∧
      (∀ m : Bool, answered (.msixControl false m) { h with msixEnable := false, msixMask := m }) ∧
      (∀ m : Bool, ∃ t : State, exec (.configurationRequest (.msixControl true m)) s = .next t ∧ t.host.msixEnable = true ∧ t.host.msixMask = m ∧
        t.out = s.out ++ [.cfg false] ∧ (m = true ∨ h.pendingBits = 0 → t.host = { h with msixEnable := true, msixMask := m })) ∧
      (∀ mps mrrs : Nat, answered (.payloadSizes mps mrrs)
        (if mps ∈ [128, 256, 512] ∧ mrrs ∈ [128, 256, 512, 1024, 2048, 4096] then { h with mps := mps, mrrs := mrrs } else h)) ∧
      ∃ t : State, exec (.configurationRequest (.busMaster false)) s = .next t ∧ t.host.bme = false ∧ t.out.getLast? = some (.cfg false) ∧
        ∀ c < 17, t.host.chans.getD c [] = [])

/-- Device reads and writes of host memory. The channel whose turn it is issues one request: a read takes the lowest
free tag and asks for at most the read request size and not across 4 KiB, a write carries at most the payload
size and not across 4 KiB, and what is left stays at the head of its channel; the turn passes on. A message goes
to the address and with the data of its vector. A read that succeeds frees its tag and lands its bytes: a COPY's
and an input's in the slice's memory and nowhere else there, and with its last bytes the COPY is under way no
more; a load's are taken up by the items that follow. A read that fails, is answered in another length or is not
answered in time frees its tag, is counted, and ends what it served: the input's request has FAULT for the next
drip, a COPY is under way no more, and a load that reads fails with FAULT. While the port may not issue, every
channel but 17 is emptied. A completion of no tag changes nothing. Rests on R353, R363, R497, R498, R499, R500. -/
def Obligations.HostDma : Prop :=
  ∀ s : State, s.Inv →
    let h := s.host
    (s.canIssue = true → ∀ (c : Nat) (j : DmaJob) (rest : List DmaJob), h.nextChannel = some c → h.chans.getD c [] = j :: rest →
      let wrote (a : Nat) (b : Bytes) (mk : Nat → Bytes → DmaJob) : Prop :=
        let n := min b.length (min (max 1 h.mps) (4096 - a % 4096))
        ∃ t : State, exec .dmaRequestIssue s = .next t ∧ t.out = s.out ++ [.hostWrite a (b.take n)] ∧ t.host.turn = (c + 1) % 18 ∧
          t.host.chans.getD c [] = (if (b.drop n).isEmpty then rest else mk ((a + n) % 2 ^ 64) (b.drop n) :: rest)
      (∀ tag, j.isRead = true → h.freeTag = some tag →
        let k := j.split h.mrrs
        k.2.1 ≤ max 1 (min h.mrrs 4096) ∧ k.1 % 4096 + k.2.1 ≤ 4096 ∧ k.2.2.1.bytes = k.2.1 ∧
        ∃ t : State, exec .dmaRequestIssue s = .next t ∧ t.out = s.out ++ [.hostRead tag k.1 k.2.1] ∧
          t.host.reads = h.reads ++ [(tag, k.2.2.1)] ∧ t.host.turn = (c + 1) % 18 ∧
          t.host.chans.getD c [] = (match k.2.2.2 with | some l => l :: rest | none => rest) ∧
          (k.2.2.2 = none ↔ k.2.1 = j.bytes)) ∧
      (∀ (a : Nat) (b : Bytes), j = .recordWrite a b → wrote a b .recordWrite) ∧
      (∀ (sl q a : Nat) (b : Bytes), (j = .outputWrite sl q a b → wrote a b (.outputWrite sl q)) ∧
        (j = .copyWrite sl q a b → c ≠ 17 → wrote a b (.copyWrite sl q))) ∧
      (∀ v : Nat, j = .message v → ∃ t : State, exec .dmaRequestIssue s = .next t ∧ t.host.chans.getD c [] = rest ∧
        t.out = s.out ++ [.msix v, .hostWrite (leNat (slice (h.msix.getD v []) 0 8)) (slice (h.msix.getD v []) 8 4)])) ∧
    (s.canIssue = true → h.nextChannel = none → exec .dmaRequestIssue s = .next s) ∧
    (s.canIssue = false → ∃ t : State, exec .dmaRequestIssue s = .next t ∧ ∀ c < 17, t.host.chans.getD c [] = []) ∧
    (∀ (tag : Nat) (j : DmaJob), h.reads.find? (fun r => r.1 == tag) = some (tag, j) →
      let freed (t : State) : Prop := t.host.reads = h.reads.filter fun k => k.1 != tag
      (∀ (sl : SliceId) (q a dev n : Nat) (b : Bytes) (c : Cmd) (left : Nat), j = .copyRead sl q a n dev → b.length = n →
        (s.sl sl).svc.copies.find? (fun k => k.1.slot == q) = some (c, left) →
        ∃ t : State, exec (.hostReadCompletion tag b true) s = .next t ∧ freed t ∧ (t.sl sl).load dev n = b ∧
          SameBytesOutside (s.sl sl) (t.sl sl) dev n ∧
          (left ≤ n → ∀ k ∈ (t.sl sl).svc.copies, k.1.slot ≠ q) ∧
          (n < left → (t.sl sl).svc.copies.find? (fun k => k.1.slot == q) = some (c, left - n))) ∧
      (∀ (sl : SliceId) (q a n : Nat) (b : Bytes) (m : Image) (r : Request), j = .inputRead sl q a n → b.length = n → s.job = some m →
        (s.sl sl).svc.reqs.find? (fun v => v.slot == q) = some r →
        let p := m.inAddr.getD sl 0 + r.firstRow * m.inRowBytes + (a + 2 ^ 64 - r.cmd.hostA) % 2 ^ 64
        ∃ t : State, exec (.hostReadCompletion tag b true) s = .next t ∧ freed t ∧ (t.sl sl).load p n = b ∧
          SameBytesOutside (s.sl sl) (t.sl sl) p n ∧
          ∃ v ∈ (t.sl sl).svc.reqs, v.slot = q ∧ v.inputGot = r.inputGot + n) ∧
      (∀ (sl : SliceId) (q a n : Nat), j = .inputRead sl q a n →
        let failed (i : Instr) : Prop := ∃ t : State, exec i s = .next t ∧ freed t ∧ t.host.dmaErrors = h.dmaErrors + 1 ∧
          ∀ r ∈ (s.sl sl).svc.reqs, r.slot = q → r.ended = false → ∃ v ∈ (t.sl sl).svc.reqs, v.slot = q ∧
            ⟨s.now, s.now.plus 1, .fault, 0xFF⟩ ∈ v.conds
        (∀ b : Bytes, failed (.hostReadCompletion tag b false)) ∧ (∀ b : Bytes, b.length ≠ n → failed (.hostReadCompletion tag b true)) ∧
        failed (.hostReadTimeout tag)) ∧
      (∀ a n : Nat, j = .loadRead a n →
        let failed (i : Instr) : Prop := ∃ t : State, exec i s = .next t ∧ freed t ∧ t.host.dmaErrors = h.dmaErrors + 1 ∧
          (s.load.st = 1 ∨ s.load.st = 3 → t.load.st = 4 ∧ t.load.status = Status.fault.code)
        (∀ b : Bytes, b.length = n → exec (.hostReadCompletion tag b true) s = .next { s with host := { h with reads := h.reads.filter fun k => k.1 != tag } }) ∧
        (∀ b : Bytes, failed (.hostReadCompletion tag b false)) ∧ failed (.hostReadTimeout tag)) ∧
      (∀ (sl : SliceId) (q a n dev : Nat), j = .copyRead sl q a n dev → ∀ b : Bytes,
        ∀ i ∈ [Instr.hostReadTimeout tag, Instr.hostReadCompletion tag b false],
        ∃ t : State, exec i s = .next t ∧ freed t ∧ t.host.dmaErrors = h.dmaErrors + 1 ∧
          (∀ k ∈ (t.sl sl).svc.copies, k.1.slot ≠ q) ∧ ∀ i : SliceId, (t.sl i).mem = (s.sl i).mem)) ∧
    (∀ tag : Nat, (∀ r ∈ h.reads, r.1 ≠ tag) → exec (.hostReadTimeout tag) s = .next s ∧
      ∀ (b : Bytes) (ok : Bool), exec (.hostReadCompletion tag b ok) s = .next s)

/-- BAR2 reads and writes, poisoned words and poisoned writes. A BAR2 read that is mapped and allowed completes with
the data as stored, with EP set exactly where a word of it is poisoned, the words that it finds uncorrectable
among them. A BAR2 write that arrives poisoned changes no byte of memory and is reported; a write that is not
poisoned and is allowed stores its bytes and no others. An access that is not mapped or not allowed is counted
in BAR_ABORTS and reported, stores nothing, and a read of it completes with Completer Abort, as does a read
unanswered after 1 ms. -/
def Obligations.Bar2Accesses : Prop :=
  ∀ s : State, s.Inv →
    let h := s.host
    let reported (t : State) : Prop := (t.sl 0).err = (s.sl 0).err.queue (mkReport 0x18 14 0)
    (∀ (off len sl a : Nat), h.translate off = some (sl, a) → s.bar2Reach sl a len false = true →
      exec (.bar2Read { on := off } len) s = .next (s.emit (.cpl ((s.sl sl).load a len) false ((s.sl sl).poisoned a len)))) ∧
    (∀ (off len sl a : Nat) (bad : List Nat), h.translate off = some (sl, a) →
      exec (.bar2Read { on := off, bad := bad } len) s = exec (.bar2Read { on := off } len) (s.findBad sl bad)) ∧
    (∀ (off len : Nat) (bad : List Nat), h.translate off = none → exec (.bar2Read { on := off, bad := bad } len) s = exec (.bar2Read { on := off } len) s) ∧
    (∀ w : Tlp, w.poisoned = true → ∃ t : State, exec (.bar2Write w) s = .next t ∧ (∀ i : SliceId, (t.sl i).mem = (s.sl i).mem) ∧
      reported t ∧ t.out = s.out) ∧
    (∀ (w : Tlp) (sl a : Nat), w.poisoned = false → h.translate w.offset = some (sl, a) → s.bar2Reach sl a w.data.length true = true →
      exec (.bar2Write w) s = .next (s.onSl sl fun x => x.store a w.data)) ∧
    (∀ off len : Nat, (∀ sl a, h.translate off = some (sl, a) → s.bar2Reach sl a len false = false) →
      ∃ t : State, exec (.bar2Read { on := off } len) s = .next t ∧ t.host = { h with barAborts := h.barAborts + 1 } ∧ reported t ∧
        t.out = s.out ++ [.cpl [] true false]) ∧
    (∀ w : Tlp, (∀ sl a, h.translate w.offset = some (sl, a) → s.bar2Reach sl a w.data.length true = false) →
      ∃ t : State, exec (.bar2Write w) s = .next t ∧ t.host = { h with barAborts := h.barAborts + 1 } ∧ reported t ∧
        ∀ i : SliceId, (t.sl i).mem = (s.sl i).mem) ∧
    ∃ t : State, exec .bar2ReadTimeout s = .next t ∧ t.host = { h with barAborts := h.barAborts + 1 } ∧ reported t ∧
      t.out = s.out ++ [.cpl [] true false]

/-- The dictionary window while BUSY is 1. While BUSY is 1, a write of DICT_INDEX, of 4 or 8 bytes and whatever its
OP, sets OVERRUN and changes nothing else, so that the access under way goes on as it was; a write of DICT_SEL
or of any part of DICT_DATA changes nothing at all. -/
def Obligations.DictWindowBusy : Prop :=
  ∀ s : State, s.Inv → s.dict.busy = true →
    let ov : State := { s with dict := { s.dict with overrun := true } }
    (∀ b : Bytes, b.length = 4 ∨ b.length = 8 → exec (.registerWrite 0x100008 b) s = .next ov) ∧
    (∀ index sub : Nat, ∀ i ∈ [Instr.dictRead index sub, Instr.dictWrite index sub, Instr.dictInfo index sub], exec i s = .next ov) ∧
    (∀ b : Bytes, b.length = 4 ∨ b.length = 8 → exec (.registerWrite 0x100000 b) s = .next s) ∧
    (∀ b : Bytes, b.length = 4 → exec (.registerWrite 0x100004 b) s = .next s) ∧
    (∀ (b : Bytes) (k : Nat), b.length = 4 ∨ b.length = 8 → k * b.length < 4096 → exec (.registerWrite (0x101000 + k * b.length) b) s = .next s)

/-- A closed error record is written at ERR_TAIL, or dropped and counted where the ring is full. When the oldest
open record closes and the ring is not full, the record stands at the old ERR_TAIL, every other record stays,
and ERR_TAIL has advanced by one modulo 1,024. When (ERR_TAIL + 1) mod 1,024 is ERR_HEAD the record is dropped,
the ring and ERR_TAIL stay, and ERR_OVERFLOW has risen by one, up to its largest value. In both cases the SEQ of
the next record is as before, so the SEQ of a dropped record is used for no other. With no open record nothing
changes. -/
def Obligations.ClosedRecords : Prop :=
  ∀ (s : State) (sl : SliceId), s.Inv →
    let e := (s.sl sl).err
    (e.opened = [] → exec (.errorRecordClose sl) s = .next s) ∧
    (∀ (r : ErrRecord) (rest : List ErrRecord), e.opened = r :: rest →
      ∃ t : State, exec (.errorRecordClose sl) s = .next t ∧
        let f := (t.sl sl).err
        f.opened = rest ∧ f.nextSeq = e.nextSeq ∧ f.head = e.head ∧ f.first = e.first ∧ f.last = e.last ∧
        ((e.tail + 1) % 1024 ≠ e.head → f.tail = (e.tail + 1) % 1024 ∧ f.overflow = e.overflow ∧
          (∀ v : ErrRecord, (e.tail, v) ∈ f.ring ↔ v = { r with early := false }) ∧
          ∀ k ≠ e.tail, ∀ v : ErrRecord, (k, v) ∈ f.ring ↔ (k, v) ∈ e.ring) ∧
        ((e.tail + 1) % 1024 = e.head → f.ring = e.ring ∧ f.tail = e.tail ∧ f.overflow = min (e.overflow + 1) 0xFFFFFFFF))

/-- Error reports, telemetry, board readings and the TAP. Of the reports that wait, with the one made now, the
record unit accepts the first of the lowest UNIT. An accepted report is counted and written to ERR_LAST, and to
ERR_FIRST where that is empty; it raises the COUNT of an open record of its class and unit, or opens a record
with the next SEQ, for which the oldest of 16 open ones closes early. While TELEMETRY is ON a sample set is the
newest of at most 64. While SENSORS is ON the reading of an I3C target is kept in place of the last one, and an
in-band interrupt is reported, with the target and its data as the items of the record (the model's choice, log
157). HOLDUP_STATE follows the input. IDCODE shifts out the identification code, and outside SYS_RST_N every
other TAP instruction acts as BYPASS. Rests on R481, R484, R485, R526, R528, R529. -/
def Obligations.ReportsAndReadings : Prop :=
  ∀ (s : State) (sl : SliceId), s.Inv →
    let e := (s.sl sl).err
    (∀ (made r : Report) (pre post : List Report),
      let held := if made ∈ e.queued then e.queued
        else if (e.queued.filter fun k => k.unit == made.unit).length < 4 then e.queued ++ [made] else e.queued
      held = pre ++ r :: post → (∀ k ∈ held, reportUnit r ≤ reportUnit k) → (∀ k ∈ pre, reportUnit k ≠ reportUnit r) →
      ∃ t : State, exec (.errorReport sl made) s = .next t ∧
      let f := (t.sl sl).err
      let same (k : ErrRecord) : Prop := k.r.cls = r.cls ∧ k.r.unit = r.unit
      f.reports = e.reports + 1 ∧ f.queued = held.erase r ∧ (∃ k, f.last = some k ∧ k.r = r ∧ k.count = 1 ∧ k.lastDrip = s.now) ∧
      (∀ k, e.first = some k → f.first = some k) ∧ (e.first = none → f.first = f.last) ∧
      ((∀ k ∈ e.opened, ¬ same k) → e.opened.length < 16 → f.nextSeq = (e.nextSeq + 1) % 2 ^ 32 ∧
        f.opened = e.opened ++ [{ r := r, seq := e.nextSeq, firstDrip := s.now, lastDrip := s.now }]) ∧
      (∀ (old : ErrRecord) (rest : List ErrRecord), (∀ k ∈ e.opened, ¬ same k) → e.opened = old :: rest → 16 ≤ e.opened.length →
        f.nextSeq = (e.nextSeq + 1) % 2 ^ 32 ∧ f.opened = rest ++ [{ r := r, seq := e.nextSeq, firstDrip := s.now, lastDrip := s.now }] ∧
        ((e.tail + 1) % 1024 ≠ e.head → (e.tail, { old with early := true }) ∈ f.ring ∧ f.tail = (e.tail + 1) % 1024)) ∧
      (∀ k, e.opened.find? (fun y => y.r.cls == r.cls && y.r.unit == r.unit) = some k → f.nextSeq = e.nextSeq ∧
        f.opened.length = e.opened.length ∧ { k with count := min (k.count + 1) 0xFFFFFFFF, lastDrip := s.now } ∈ f.opened)) ∧
    ((s.lifeOf 3 0).st = 2 → ∃ t : State, exec .telemetrySample s = .next t ∧ t.dict.telem.length = min 64 (s.dict.telem.length + 1) ∧
      t.dict.telem.getLast? = some s.telemetrySet ∧ t.slices = s.slices) ∧
    ((s.lifeOf 3 0).st ≠ 2 → exec .telemetrySample s = .next s) ∧
    (∀ (i : Fin 16) (v : Nat),
      ((s.lifeOf 2 0).st = 2 → exec (.i3cPoll i v) s =
        .next { s with pkg := { s.pkg with i3c := (s.pkg.i3c.filter fun k => k.1 != i.val) ++ [(i.val, v)] } }) ∧
      ((s.lifeOf 2 0).st = 2 → exec (.i3cIbi i v) s = .next (s.report 0 (mkReport 0x17 13 0 0 255 [i.val, v]))) ∧
      ((s.lifeOf 2 0).st ≠ 2 → exec (.i3cPoll i v) s = .next s ∧ exec (.i3cIbi i v) s = .next s)) ∧
    (∀ b : Bool, exec (.holdupOkChange b) s = .next { s with dict := { s.dict with holdup := b } }) ∧
    (∀ x : TapInstr, x ≠ .idcode → exec (.tapInstruction x) s = .next { s with pkg := { s.pkg with
      tap := if s.pkg.sysRst = true then x else .bypass } }) ∧
    exec (.tapInstruction .idcode) s = .next (State.emit { s with pkg := { s.pkg with tap := .idcode } } (.idcode idcode))

/-- Function level reset, PERST_N, and the host link going down and up. An FLR leaves every ledger and ring disabled
with nothing held, no context, no pending command and no request on any slice, the BAR0 registers at their reset
values and every vector masked, counts in HOST_RESETS, and keeps the job and the link; PERST_N does the same and
takes the link down. A head that was loading is HELD. When the link goes down or Bus Master Enable falls the
channels but that of records are emptied and the rings keep what they hold; link up gives the width and the rate
where Table 20-4 has them, and changes nothing otherwise. Rests on R488, R491, R500, R502. -/
def Obligations.HostResets : Prop :=
  ∀ s : State, s.Inv →
    let h := s.host
    let quiet (t : State) : Prop :=
      t.ctxs = [] ∧ t.job = s.job ∧ t.host.hostResets = h.hostResets + 1 ∧ t.host.chanSel = 0 ∧ t.host.bme = false ∧ t.host.msixEnable = false ∧
      t.host.evtCause = 0 ∧ t.host.reads = [] ∧ (∀ c, t.host.chans.getD c [] = []) ∧ (∀ v : Fin 64, t.host.masked v = true) ∧
      (∀ r : Fin 64, (t.host.rings.getD r {}).enable = false ∧ (t.host.rings.getD r {}).held = []) ∧
      (∀ i : SliceId, (t.sl i).svc.ledgerEnable = false ∧ (t.sl i).svc.pending = [] ∧ (t.sl i).svc.reqs = [] ∧ (t.sl i).svc.copies = [] ∧
        (t.sl i).ports = (s.sl i).ports ∧ (t.sl i).fabric.outMsgs.length = (s.sl i).fabric.outMsgs.length) ∧
      (s.load.st = 1 → s.load.head = true → t.load.st = 2)
    (∃ t : State, exec .flr s = .next t ∧ quiet t ∧ t.host.linkUp = h.linkUp ∧ t.host.bar2Size = h.bar2Size) ∧
    (∀ k : HostReset, ∃ t : State, exec (.perstN k) s = .next t ∧ quiet t ∧ t.host.linkUp = false ∧ t.host.width = 0) ∧
    (∃ t : State, exec (.hostLinkDown false) s = .next t ∧ t.host.linkUp = false ∧ t.host.bme = h.bme ∧ (∀ c < 17, t.host.chans.getD c [] = []) ∧
      t.job = s.job ∧ ∀ (r : Fin 64), ∀ k ∈ (h.rings.getD r {}).held, k ∈ (t.host.rings.getD r {}).held) ∧
    (∃ t : State, exec (.hostLinkDown true) s = .next t ∧ t.host.linkUp = h.linkUp ∧ t.host.bme = false ∧ (∀ c < 17, t.host.chans.getD c [] = []) ∧
      t.job = s.job) ∧
    (∀ w v : Nat, 2 ≤ w → w ≤ 4 → 1 ≤ v → v ≤ 6 →
      exec (.hostLinkUp w v) s = .next { s with host := { h with linkUp := true, width := w, speed := v } }) ∧
    (∀ w v : Nat, w < 2 ∨ 4 < w ∨ v < 1 ∨ 6 < v → exec (.hostLinkUp w v) s = .next s)

/-- Power-up, loss of power, rails, SYS_RST_N and the root PLL. PWR_OK rising brings the device up: with the rails
and the PLL good it has booted once more and is READY or FAILED, with a slice present only where its self-test
passed, and without them it is FAILED; an entry (the statement takes NODE_ID) whose newer record fails takes the
value of the other, and with both failing its default; with PWR_OK already high nothing changes. PWR_OK falling
leaves no job, every memory empty and the error rings only while VAUX holds. A slice whose rail fails is held in
reset and the job stays loaded; a shared rail acts as PWR_OK falling. SYS_RST_N asserted unloads the job, keeps
the measurement registers, the PLL and the hot set, in which a serving slot is READY and one that was being
loaded EMPTY, and empties memory but for the sump; its release restarts the processors on the running slot, and
a rollout that ran has failed. The PLL losing its lock stops the dividers and unloads the job, and its relock
starts them, but not where the power-up had failed. Where the power, the reset or the PLL is not as the event
needs it, nothing changes. Rests on R412, R435, R468, R513, R517, R518, R519, R520. -/
def Obligations.PowerAndReset : Prop :=
  ∀ s : State, s.Inv →
    (∀ b : BootInputs,
      (s.pkg.pwrOk = true → exec (.powerUp b) s = .next s) ∧
      (s.pkg.pwrOk = false → ∃ t : State, exec (.powerUp b) s = .next t ∧ t.pkg.pwrOk = true ∧ t.job = none ∧
        (b.railsOk = false ∨ b.pllLocked = false → t.dict.deviceState = 4 ∧ t.pkg.dividersRun = false) ∧
        (b.railsOk = true → b.pllLocked = true → t.pkg.dividersRun = true ∧ (t.dict.deviceState = 1 ∨ t.dict.deviceState = 4) ∧
          (b.lost = [] → t.sec.bootCount = s.sec.bootCount + 1 ∧
            (t.fw.running = s.fw.boot ∨ t.fw.running = 1 - s.fw.boot ∨ t.dict.deviceState = 4)) ∧
          (b.lost = [{ index := 0x4000, sub := 1, both := true }] → t.pkg.nodeId = 0) ∧
          (∀ r : StoreRecord, ∀ v, b.lost = [{ index := 0x4000, sub := 1 }] → s.dict.restore = false →
            s.dict.store.find? (fun k => k.index == 0x4000 && k.sub == 1 && k.channel == 0) = some r → r.older = some v →
            t.pkg.nodeId = leNat v) ∧
          ∀ i : SliceId, (t.sl i).present = true → b.selfTest.testBit i = true))) ∧
    (∀ v : Bool, ∃ t : State, exec (.pwrOkFall v) s = .next t ∧ t.pkg.pwrOk = false ∧ t.job = none ∧ t.dict.deviceState = 0 ∧
      ∀ i : SliceId, (t.sl i).mem = [] ∧ (t.sl i).present = false ∧ (v = false → (t.sl i).err.ring = []) ∧
        (v = true → s.dict.writing = none → (t.sl i).err.ring = (s.sl i).err.ring)) ∧
    (∀ i : SliceId, (s.sl i).power.heldInReset = false → ∃ t : State, exec (.railFault (some i)) s = .next t ∧ t.job = s.job ∧
      (t.sl i).power.heldInReset = true ∧ t.pkg.pwrOk = s.pkg.pwrOk) ∧
    (∀ i : SliceId, (s.sl i).power.heldInReset = true → exec (.railFault (some i)) s = .next s) ∧
    exec (.railFault none) s = exec (.pwrOkFall true) s ∧
    (s.pkg.pwrOk = true → s.pkg.sysRst = false → ∃ t : State, exec .sysRstAssert s = .next t ∧ t.pkg.sysRst = true ∧ t.job = none ∧
      t.sec.mr = s.sec.mr ∧ t.pkg.pllLocked = s.pkg.pllLocked ∧ t.hot = s.hot.map (fun h => if h.st == 3 then { h with st := 2 } else if h.st == 1 then {} else h) ∧ t.dict.deviceState = 0 ∧
      ∀ i : SliceId, ∀ a, a < sumpBase → (t.sl i).mem.read a = 0) ∧
    (s.pkg.pwrOk = false ∨ s.pkg.sysRst = true → exec .sysRstAssert s = .next s) ∧
    (s.pkg.pwrOk = false ∨ s.pkg.pllLocked = false → exec .pllLockLoss s = .next s) ∧
    (∀ b : BootInputs,
      (s.pkg.pwrOk = false ∨ s.pkg.sysRst = false → exec (.sysRstRelease b) s = .next s) ∧
      (s.pkg.pwrOk = false ∨ s.pkg.pllLocked = true → exec (.pllRelock b) s = .next s) ∧
      let started (t : State) : Prop := t.pkg.dividersRun = true ∧ (t.dict.deviceState = 1 ∨ t.dict.deviceState = 4) ∧
        t.fw.running = s.fw.running ∧ t.fw.procs = List.replicate 34 s.fw.running ∧
        (s.fw.rollout = 1 ∨ s.fw.rollout = 2 ∨ s.fw.rollout = 3 → t.fw.rollout = 4)
      (s.pkg.pwrOk = true → s.pkg.sysRst = true → ∃ t : State, exec (.sysRstRelease b) s = .next t ∧ t.pkg.sysRst = false ∧
        (s.pkg.pllLocked = true → started t)) ∧
      (s.pkg.pwrOk = true → s.pkg.pllLocked = false → ∃ t : State, exec (.pllRelock b) s = .next t ∧ t.pkg.pllLocked = true ∧
        (s.pkg.sysRst = false → s.dict.deviceState ≠ 4 → started t) ∧
        (s.dict.deviceState = 4 → t.dict.deviceState = 4 ∧ t.pkg.dividersRun = s.pkg.dividersRun ∧ t.fw.procs = s.fw.procs))) ∧
    (s.pkg.pwrOk = true → s.pkg.pllLocked = true → ∃ t : State, exec .pllLockLoss s = .next t ∧ t.pkg.pllLocked = false ∧
      t.pkg.dividersRun = false ∧ t.job = none ∧ t.pkg.sysRst = s.pkg.sysRst ∧ t.sec.mr = s.sec.mr)

/-- Voltage steps, sensors, power windows and throttling. VID_STEP moves the code of one slice by one within its
range, once the self-test has ended. A sensor reading is the slice's temperature, and one at the trip level
stops the dividers and sets THERMTRIP. A power window whose slices are below their levels changes no divider and
withholds no slice; outside still-water mode a slice at or above its level has its ACLK divider one step slower,
and in still-water mode it has its launches withheld. A release below the release levels raises the divider by
one step, or ends the withholding. Rests on R427, R511, R521, R522, R523, R524. -/
def Obligations.HeatAndPowerLimits : Prop :=
  ∀ (s : State) (sl : SliceId), s.Inv →
    let p := (s.sl sl).power
    (s.dict.deviceState ≠ 0 →
      (p.vid < 15 → exec (.vidStep sl true) s =
        .next (State.emit (s.onSl sl fun x => { x with power := { x.power with vid := p.vid + 1 } }) (.vid sl (p.vid + 1)))) ∧
      (0 < p.vid → exec (.vidStep sl false) s =
        .next (State.emit (s.onSl sl fun x => { x with power := { x.power with vid := p.vid - 1 } }) (.vid sl (p.vid - 1))))) ∧
    (∀ up : Bool, s.dict.deviceState = 0 ∨ (up = true ∧ 15 ≤ p.vid) ∨ (up = false ∧ p.vid = 0) → exec (.vidStep sl up) s = .next s) ∧
    (∀ v : Int, ∃ t : State, exec (.sensorRead sl v) s = .next t ∧ (t.sl sl).power.temp = v ∧
      (v < 115 ∨ s.pkg.thermtrip = true → OnlySlice s t sl ∧ (t.sl sl).power.tempHot = (p.tempHot || decide (105 ≤ v))) ∧
      (115 ≤ v → s.pkg.thermtrip = false → t.pkg.thermtrip = true ∧ t.pkg.dividersRun = false ∧ t.host.linkUp = false)) ∧
    (∀ (ws : List Nat) (shared : Nat), ∃ t : State, exec (.powerWindow ws shared) s = .next t ∧ t.pkg.powerFine = ws.sum + shared ∧
      let hot := p.tempHot = true ∨ 650 ≤ ws.getD sl 0 ∨ 5500 ≤ ws.sum + shared
      (t.sl sl).power.watts = ws.getD sl 0 ∧ (t.sl sl).power.tempHot = decide (105 ≤ p.temp) ∧
      (¬ hot → (t.sl sl).power.aclkDiv = p.aclkDiv ∧ (t.sl sl).power.withheld = p.withheld) ∧
      (hot → s.still.on = true → (t.sl sl).power.withheld = true ∧ (t.sl sl).power.aclkDiv = p.aclkDiv) ∧
      (hot → s.still.on = false → (t.sl sl).power.withheld = p.withheld ∧
        (t.sl sl).power.aclkDiv = if p.aclkDiv < 24 then (if p.aclkDiv = 8 then 12 else if p.aclkDiv = 12 then 16 else 24) else p.aclkDiv)) ∧
    (let cool := p.temp < 100 ∧ p.tempHot = false ∧ p.watts < 617 ∧ s.pkg.powerFine < 5225
     (¬ cool → exec (.throttleRelease sl) s = .next s) ∧
     (cool → p.withheld = true → exec (.throttleRelease sl) s = .next (s.onSl sl fun x => { x with power := { x.power with withheld := false } })) ∧
     (cool → p.withheld = false → s.still.on = true ∨ p.aclkDiv ≤ 8 → exec (.throttleRelease sl) s = .next s) ∧
     (cool → p.withheld = false → s.still.on = false → 8 < p.aclkDiv → ∃ t : State, exec (.throttleRelease sl) s = .next t ∧
       (t.sl sl).power.aclkDiv = (if p.aclkDiv = 24 then 16 else if p.aclkDiv = 16 then 12 else 8) ∧
       (t.sl sl).power.throttleSteps = p.throttleSteps + 1))
end

