-- ==== Sys2Proof/Laws/Memory.lean ====
section
/-! SUPPORT. The laws of a slice's memory: what a read answers after a write, and that every operation keeps the canonical
form. -/

namespace Sys2Proof.Machine

/-! ### Reads after writes -/

/-- A read of the empty memory answers what an unlisted byte reads as. -/
@[simp] theorem Memory.read_nil (a : Nat) : Memory.read [] a = 0 := rfl

/-- Below the first offset listed, a memory in canonical form reads 0. -/
theorem Memory.read_below {m : Memory} {lo a : Nat} (h : Memory.wfFrom (some lo) m = true) (ha : a ≤ lo) : m.read a = 0 := by
  cases m with
  | nil => rfl
  | cons c m =>
    obtain ⟨k, v⟩ := c
    simp only [Memory.wfFrom, Bool.and_eq_true, decide_eq_true_eq] at h
    simp only [Memory.read, if_pos (show a < k by omega)]

/-- The byte written reads back. -/
theorem Memory.read_write_self {lo : Option Nat} {m : Memory} (h : Memory.wfFrom lo m = true) (a : Nat) (b : Byte) :
    (m.write a b).read a = b := by
  induction m generalizing lo with
  | nil =>
    by_cases hb : b = 0
    · subst hb; simp [Memory.write]
    · simp [Memory.write, Memory.read, show ¬b = 0#8 from hb]
  | cons c m ih =>
    obtain ⟨k, v⟩ := c
    simp only [Memory.wfFrom, Bool.and_eq_true] at h
    by_cases hk : a < k
    · by_cases hb : b = 0
      · subst hb; simp [Memory.write, Memory.read, hk]
      · simp [Memory.write, Memory.read, hk, show ¬b = 0#8 from hb]
    · by_cases he : k = a
      · subst he
        by_cases hb : b = 0
        · subst hb; simpa [Memory.write, Memory.read] using Memory.read_below h.2 (Nat.le_refl k)
        · simp [Memory.write, Memory.read, show ¬b = 0#8 from hb]
      · simpa [Memory.write, Memory.read, hk, he] using ih h.2

/-- A write leaves every other byte alone. -/
theorem Memory.read_write_of_ne {lo : Option Nat} {m : Memory} (h : Memory.wfFrom lo m = true) {a c : Nat} (hc : c ≠ a) (b : Byte) :
    (m.write a b).read c = m.read c := by
  induction m generalizing lo with
  | nil =>
    by_cases hb : b = 0
    · simp [Memory.write, hb]
    · simp [Memory.write, Memory.read, show ¬b = 0#8 from hb, Ne.symm hc]
  | cons e m ih =>
    obtain ⟨k, v⟩ := e
    simp only [Memory.wfFrom, Bool.and_eq_true] at h
    by_cases hk : a < k
    · by_cases hb : b = 0
      · simp [Memory.write, hk, hb]
      · simp only [Memory.write, hk, hb, if_true, if_false, Memory.read]
        by_cases h1 : c < a
        · simp [h1, show c < k by omega]
        · simp [h1, Ne.symm hc]
    · by_cases he : k = a
      · subst he
        by_cases hb : b = 0
        · subst hb
          by_cases h1 : c < k
          · simpa [Memory.write, Memory.read, h1] using Memory.read_below h.2 (Nat.le_of_lt h1)
          · simp [Memory.write, Memory.read, h1, Ne.symm hc]
        · simp [Memory.write, Memory.read, show ¬b = 0#8 from hb, Ne.symm hc]
      · by_cases h1 : c < k
        · simp [Memory.write, Memory.read, hk, he, h1]
        · by_cases h2 : k = c
          · subst h2; simp [Memory.write, Memory.read, hk, he]
          · simpa [Memory.write, Memory.read, hk, he, h1, h2] using ih h.2

/-! ### The canonical form -/

/-- A lower bound on the offsets may be lowered or dropped. -/
theorem Memory.wfFrom_weaken {m : Memory} {l l' : Nat} (h : Memory.wfFrom (some l) m = true) (hl : l' ≤ l) :
    Memory.wfFrom (some l') m = true := by
  cases m with
  | nil => rfl
  | cons c m =>
    simp only [Memory.wfFrom, Bool.and_eq_true, decide_eq_true_eq] at h ⊢
    exact ⟨⟨by omega, h.1.2⟩, h.2⟩

/-- A memory listed above a bound is in canonical form. -/
theorem Memory.wf_of_wfFrom {m : Memory} {lo : Option Nat} (h : Memory.wfFrom lo m = true) : m.wf = true := by
  cases m with
  | nil => rfl
  | cons c m =>
    simp only [Memory.wf, Memory.wfFrom, Bool.and_eq_true] at h ⊢
    exact ⟨⟨trivial, h.1.2⟩, h.2⟩

/-- A write above a bound keeps the form above that bound. -/
theorem Memory.wfFrom_write {lo : Option Nat} {m : Memory} (h : Memory.wfFrom lo m = true) {a : Nat} (ha : ∀ l, lo = some l → l < a)
    (b : Byte) : Memory.wfFrom lo (m.write a b) = true := by
  induction m generalizing lo with
  | nil =>
    by_cases hb : b = 0
    · simp [Memory.write, hb, Memory.wfFrom]
    · cases lo with
      | none => simp [Memory.write, show ¬b = 0#8 from hb, Memory.wfFrom]
      | some l => simp [Memory.write, show ¬b = 0#8 from hb, Memory.wfFrom, ha l rfl]
  | cons e m ih =>
    obtain ⟨k, v⟩ := e
    have hm := h
    simp only [Memory.wfFrom, Bool.and_eq_true] at h
    by_cases hk : a < k
    · by_cases hb : b = 0
      · simpa [Memory.write, hk, hb] using hm
      · simp only [Memory.write, hk, hb, if_true, if_false, Memory.wfFrom, Bool.and_eq_true, decide_eq_true_eq]
        refine ⟨⟨?_, by simpa using hb⟩, ⟨trivial, h.1.2⟩, h.2⟩
        cases lo with
        | none => rfl
        | some l => simpa using ha l rfl
    · by_cases he : k = a
      · subst he
        by_cases hb : b = 0
        · simp only [Memory.write, hb, Nat.lt_irrefl, if_true, if_false]
          cases lo with
          | none => exact Memory.wf_of_wfFrom h.2
          | some l => exact Memory.wfFrom_weaken h.2 (Nat.le_of_lt (ha l rfl))
        · simp only [Memory.write, hb, Nat.lt_irrefl, if_true, if_false, Memory.wfFrom, Bool.and_eq_true]
          exact ⟨⟨h.1.1, by simpa using hb⟩, h.2⟩
      · simp only [Memory.write, hk, he, if_false, Memory.wfFrom, Bool.and_eq_true]
        exact ⟨h.1, ih h.2 (by intro l hl; cases hl; omega)⟩

/-- Writing one byte keeps the canonical form. -/
theorem Memory.wf_write {m : Memory} (h : m.wf = true) (a : Nat) (b : Byte) : (m.write a b).wf = true :=
  Memory.wfFrom_write h (by intro l hl; cases hl) b

/-- Writing a byte string keeps the canonical form. -/
theorem Memory.wf_writeBytes {m : Memory} (h : m.wf = true) (a : Nat) (bs : Bytes) : (m.writeBytes a bs).wf = true := by
  induction bs generalizing m a with
  | nil => exact h
  | cons b bs ih => exact ih (Memory.wf_write h a b) (a + 1)

/-- Every offset listed lies above the bound. -/
theorem Memory.lt_of_mem {m : Memory} {l : Nat} (h : Memory.wfFrom (some l) m = true) : ∀ c ∈ m, l < c.1 := by
  induction m generalizing l with
  | nil => simp
  | cons e m ih =>
    obtain ⟨k, v⟩ := e
    simp only [Memory.wfFrom, Bool.and_eq_true, decide_eq_true_eq] at h
    intro c hc
    rcases List.mem_cons.1 hc with rfl | hc
    · exact h.1.1
    · exact Nat.lt_trans h.1.1 (ih h.2 c hc)

/-- Keeping some of the bytes keeps the canonical form. -/
theorem Memory.wfFrom_filter {lo : Option Nat} {m : Memory} (h : Memory.wfFrom lo m = true) (p : Host.Cell → Bool) :
    Memory.wfFrom lo (m.filter p) = true := by
  induction m generalizing lo with
  | nil => rfl
  | cons e m ih =>
    obtain ⟨k, v⟩ := e
    simp only [Memory.wfFrom, Bool.and_eq_true] at h
    by_cases hp : p (k, v) = true
    · rw [List.filter_cons_of_pos hp]
      simp only [Memory.wfFrom, Bool.and_eq_true]
      exact ⟨h.1, ih h.2⟩
    · rw [List.filter_cons_of_neg hp]
      have := ih h.2
      cases lo with
      | none => exact Memory.wf_of_wfFrom this
      | some l => exact Memory.wfFrom_weaken this (by simpa using Nat.le_of_lt (of_decide_eq_true h.1.1))

/-- Keeping some of the bytes keeps the canonical form. -/
theorem Memory.wf_filter {m : Memory} (h : m.wf = true) (p : Host.Cell → Bool) : Memory.wf (m.filter p) = true :=
  Memory.wfFrom_filter h p

/-! ### Byte strings -/

/-- A byte outside a byte string's place reads as before. -/
theorem Memory.read_writeBytes_outside {m : Memory} (h : m.wf = true) {a c : Nat} {bs : Bytes} (hc : c < a ∨ a + bs.length ≤ c) :
    (m.writeBytes a bs).read c = m.read c := by
  induction bs generalizing m a with
  | nil => rfl
  | cons b bs ih =>
    simp only [List.length_cons] at hc
    rw [Memory.writeBytes, ih (Memory.wf_write h a b) (by omega), Memory.read_write_of_ne h (by omega)]

/-- A byte of a byte string reads back. -/
theorem Memory.read_writeBytes {m : Memory} (h : m.wf = true) (a : Nat) {bs : Bytes} {i : Nat} (hi : i < bs.length) :
    (m.writeBytes a bs).read (a + i) = bs[i] := by
  induction bs generalizing m a i with
  | nil => simp at hi
  | cons b bs ih =>
    cases i with
    | zero => rw [Memory.writeBytes, Memory.read_writeBytes_outside (Memory.wf_write h a b) (by omega), Nat.add_zero,
        Memory.read_write_self h]; rfl
    | succ i =>
      have := ih (Memory.wf_write h a b) (a + 1) (i := i) (by simpa using hi)
      rw [Memory.writeBytes, show a + (i + 1) = a + 1 + i by omega, this]; rfl

/-- A byte string just written reads back whole. -/
theorem Memory.readBytes_writeBytes {m : Memory} (h : m.wf = true) (a : Nat) (bs : Bytes) :
    (m.writeBytes a bs).readBytes a bs.length = bs := by
  apply List.ext_getElem
  · simp [Memory.readBytes]
  · intro i _ h2
    simpa [Memory.readBytes] using Memory.read_writeBytes h a h2

/-- A range apart from a byte string's place reads as before. -/
theorem Memory.readBytes_writeBytes_outside {m : Memory} (h : m.wf = true) {a c n : Nat} {bs : Bytes}
    (hc : c + n ≤ a ∨ a + bs.length ≤ c) : (m.writeBytes a bs).readBytes c n = m.readBytes c n := by
  refine List.map_congr_left fun i hi => Memory.read_writeBytes_outside h ?_
  have := List.mem_range.1 hi
  omega

/-- A read of n bytes has n bytes. -/
@[simp] theorem Memory.length_readBytes (m : Memory) (a n : Nat) : (m.readBytes a n).length = n := by
  simp [Memory.readBytes]

/-! ### Bytes of a slice -/

@[simp] theorem SliceState.store_mem (x : SliceState) (a : Nat) (b : Bytes) : (x.store a b).mem = x.mem.writeBytes a b := rfl

/-- Storing bytes keeps the canonical form of a slice's memory. -/
theorem SliceState.store_wf {x : SliceState} (h : x.mem.wf = true) (a : Nat) (b : Bytes) : (x.store a b).mem.wf = true :=
  Memory.wf_writeBytes h a b

/-- Bytes stored in a slice load back. -/
theorem SliceState.load_store {x : SliceState} (h : x.mem.wf = true) (a : Nat) (b : Bytes) : (x.store a b).load a b.length = b :=
  Memory.readBytes_writeBytes h a b

/-- A range apart from the bytes stored loads as before. -/
theorem SliceState.load_store_outside {x : SliceState} (h : x.mem.wf = true) {a c n : Nat} {b : Bytes}
    (hc : c + n ≤ a ∨ a + b.length ≤ c) : (x.store a b).load c n = x.load c n :=
  Memory.readBytes_writeBytes_outside h hc

/-- The memory of every slice at reset is in canonical form. -/
theorem State.reset_mem_wf : ∀ x ∈ State.reset.slices, x.mem.wf = true := by
  intro x hx
  rw [List.eq_of_mem_replicate hx]
  rfl

end Sys2Proof.Machine
end

