-- ==== Sys2Proof/Laws/State.lean ====
section
/-! SUPPORT. What each update of the state and of a slice leaves alone, one lemma per field, and what the accessors of
slices, engines, threads and quads read after an update. -/

namespace Sys2Proof.Machine

/-! ### Slices of the state (R2) -/

/-- A slice of a state after a change of another slice or of itself. -/
theorem State.onSl_sl (s : State) (i j : Nat) (f : SliceState → SliceState) (hi : i < s.slices.length) :
    (s.onSl i f).sl j = if i = j then f (s.sl j) else s.sl j := by
  by_cases h : i = j
  · subst h; simp [State.onSl, State.sl, List.getD, hi]
  · simp [State.onSl, State.sl, List.getD, h]

@[simp] theorem State.onSl_sl_self (s : State) (i : Nat) (f : SliceState → SliceState) (hi : i < s.slices.length) :
    (s.onSl i f).sl i = f (s.sl i) := by simp [State.onSl_sl, hi]

@[simp] theorem State.onSl_sl_of_ne (s : State) {i j : Nat} (f : SliceState → SliceState) (h : j ≠ i) :
    (s.onSl i f).sl j = s.sl j := by simp [State.onSl, State.sl, List.getD, Ne.symm h]

@[simp] theorem State.onSl_length (s : State) (i : Nat) (f : SliceState → SliceState) :
    (s.onSl i f).slices.length = s.slices.length := by simp [State.onSl]

@[simp] theorem State.onAll_length (s : State) (f : SliceState → SliceState) : (s.onAll f).slices.length = s.slices.length := by
  simp [State.onAll]

@[simp] theorem State.onAll_sl (s : State) (f : SliceState → SliceState) {i : Nat} (hi : i < s.slices.length) :
    (s.onAll f).sl i = f (s.sl i) := by simp [State.onAll, State.sl, List.getD, hi]

/-- A slice of the state is one of its slices. -/
theorem State.sl_mem (s : State) {i : Nat} (hi : i < s.slices.length) : s.sl i ∈ s.slices := by
  simp [State.sl, List.getD, hi]

/-- Changing a slice to itself changes nothing. -/
@[simp] theorem State.onSl_id (s : State) (i : Nat) : s.onSl i id = s := by
  simp [State.onSl, List.modify_id]

/-- Two changes of one slice are one change. -/
theorem State.onSl_onSl (s : State) (i : Nat) (f g : SliceState → SliceState) : (s.onSl i f).onSl i g = s.onSl i (g ∘ f) := by
  simp [State.onSl, List.modify_modify_eq]


/-! ### Updates of the state, field by field -/

@[simp] theorem State.onSl_time (s : State) (i : Nat) (f : SliceState → SliceState) : (s.onSl i f).time = s.time := rfl
@[simp] theorem State.onSl_job (s : State) (i : Nat) (f : SliceState → SliceState) : (s.onSl i f).job = s.job := rfl
@[simp] theorem State.onSl_frame0 (s : State) (i : Nat) (f : SliceState → SliceState) : (s.onSl i f).frame0 = s.frame0 := rfl
@[simp] theorem State.onSl_frame (s : State) (i : Nat) (f : SliceState → SliceState) : (s.onSl i f).frame = s.frame := rfl
@[simp] theorem State.onSl_running (s : State) (i : Nat) (f : SliceState → SliceState) : (s.onSl i f).running = s.running := rfl
@[simp] theorem State.onSl_ctxs (s : State) (i : Nat) (f : SliceState → SliceState) : (s.onSl i f).ctxs = s.ctxs := rfl
@[simp] theorem State.onSl_tears (s : State) (i : Nat) (f : SliceState → SliceState) : (s.onSl i f).tears = s.tears := rfl
@[simp] theorem State.onSl_hot (s : State) (i : Nat) (f : SliceState → SliceState) : (s.onSl i f).hot = s.hot := rfl
@[simp] theorem State.onSl_load (s : State) (i : Nat) (f : SliceState → SliceState) : (s.onSl i f).load = s.load := rfl
@[simp] theorem State.onSl_epochs (s : State) (i : Nat) (f : SliceState → SliceState) : (s.onSl i f).epochs = s.epochs := rfl
@[simp] theorem State.onSl_still (s : State) (i : Nat) (f : SliceState → SliceState) : (s.onSl i f).still = s.still := rfl
@[simp] theorem State.onSl_sec (s : State) (i : Nat) (f : SliceState → SliceState) : (s.onSl i f).sec = s.sec := rfl
@[simp] theorem State.onSl_dict (s : State) (i : Nat) (f : SliceState → SliceState) : (s.onSl i f).dict = s.dict := rfl
@[simp] theorem State.onSl_lantern (s : State) (i : Nat) (f : SliceState → SliceState) : (s.onSl i f).lantern = s.lantern := rfl
@[simp] theorem State.onSl_fw (s : State) (i : Nat) (f : SliceState → SliceState) : (s.onSl i f).fw = s.fw := rfl
@[simp] theorem State.onSl_host (s : State) (i : Nat) (f : SliceState → SliceState) : (s.onSl i f).host = s.host := rfl
@[simp] theorem State.onSl_pkg (s : State) (i : Nat) (f : SliceState → SliceState) : (s.onSl i f).pkg = s.pkg := rfl
@[simp] theorem State.onSl_perf (s : State) (i : Nat) (f : SliceState → SliceState) : (s.onSl i f).perf = s.perf := rfl
@[simp] theorem State.onSl_draws (s : State) (i : Nat) (f : SliceState → SliceState) : (s.onSl i f).draws = s.draws := rfl
@[simp] theorem State.onSl_free (s : State) (i : Nat) (f : SliceState → SliceState) : (s.onSl i f).free = s.free := rfl
@[simp] theorem State.onSl_out (s : State) (i : Nat) (f : SliceState → SliceState) : (s.onSl i f).out = s.out := rfl
@[simp] theorem State.onSl_pending (s : State) (i : Nat) (f : SliceState → SliceState) : (s.onSl i f).pending = s.pending := rfl
@[simp] theorem State.onAll_time (s : State) (f : SliceState → SliceState) : (s.onAll f).time = s.time := rfl
@[simp] theorem State.onAll_job (s : State) (f : SliceState → SliceState) : (s.onAll f).job = s.job := rfl
@[simp] theorem State.onAll_frame0 (s : State) (f : SliceState → SliceState) : (s.onAll f).frame0 = s.frame0 := rfl
@[simp] theorem State.onAll_frame (s : State) (f : SliceState → SliceState) : (s.onAll f).frame = s.frame := rfl
@[simp] theorem State.onAll_running (s : State) (f : SliceState → SliceState) : (s.onAll f).running = s.running := rfl
@[simp] theorem State.onAll_ctxs (s : State) (f : SliceState → SliceState) : (s.onAll f).ctxs = s.ctxs := rfl
@[simp] theorem State.onAll_tears (s : State) (f : SliceState → SliceState) : (s.onAll f).tears = s.tears := rfl
@[simp] theorem State.onAll_hot (s : State) (f : SliceState → SliceState) : (s.onAll f).hot = s.hot := rfl
@[simp] theorem State.onAll_load (s : State) (f : SliceState → SliceState) : (s.onAll f).load = s.load := rfl
@[simp] theorem State.onAll_epochs (s : State) (f : SliceState → SliceState) : (s.onAll f).epochs = s.epochs := rfl
@[simp] theorem State.onAll_still (s : State) (f : SliceState → SliceState) : (s.onAll f).still = s.still := rfl
@[simp] theorem State.onAll_sec (s : State) (f : SliceState → SliceState) : (s.onAll f).sec = s.sec := rfl
@[simp] theorem State.onAll_dict (s : State) (f : SliceState → SliceState) : (s.onAll f).dict = s.dict := rfl
@[simp] theorem State.onAll_lantern (s : State) (f : SliceState → SliceState) : (s.onAll f).lantern = s.lantern := rfl
@[simp] theorem State.onAll_fw (s : State) (f : SliceState → SliceState) : (s.onAll f).fw = s.fw := rfl
@[simp] theorem State.onAll_host (s : State) (f : SliceState → SliceState) : (s.onAll f).host = s.host := rfl
@[simp] theorem State.onAll_pkg (s : State) (f : SliceState → SliceState) : (s.onAll f).pkg = s.pkg := rfl
@[simp] theorem State.onAll_perf (s : State) (f : SliceState → SliceState) : (s.onAll f).perf = s.perf := rfl
@[simp] theorem State.onAll_draws (s : State) (f : SliceState → SliceState) : (s.onAll f).draws = s.draws := rfl
@[simp] theorem State.onAll_free (s : State) (f : SliceState → SliceState) : (s.onAll f).free = s.free := rfl
@[simp] theorem State.onAll_out (s : State) (f : SliceState → SliceState) : (s.onAll f).out = s.out := rfl
@[simp] theorem State.onAll_pending (s : State) (f : SliceState → SliceState) : (s.onAll f).pending = s.pending := rfl
@[simp] theorem State.emit_time (s : State) (e : Emit) : (s.emit e).time = s.time := rfl
@[simp] theorem State.emit_job (s : State) (e : Emit) : (s.emit e).job = s.job := rfl
@[simp] theorem State.emit_frame0 (s : State) (e : Emit) : (s.emit e).frame0 = s.frame0 := rfl
@[simp] theorem State.emit_frame (s : State) (e : Emit) : (s.emit e).frame = s.frame := rfl
@[simp] theorem State.emit_running (s : State) (e : Emit) : (s.emit e).running = s.running := rfl
@[simp] theorem State.emit_slices (s : State) (e : Emit) : (s.emit e).slices = s.slices := rfl
@[simp] theorem State.emit_ctxs (s : State) (e : Emit) : (s.emit e).ctxs = s.ctxs := rfl
@[simp] theorem State.emit_tears (s : State) (e : Emit) : (s.emit e).tears = s.tears := rfl
@[simp] theorem State.emit_hot (s : State) (e : Emit) : (s.emit e).hot = s.hot := rfl
@[simp] theorem State.emit_load (s : State) (e : Emit) : (s.emit e).load = s.load := rfl
@[simp] theorem State.emit_epochs (s : State) (e : Emit) : (s.emit e).epochs = s.epochs := rfl
@[simp] theorem State.emit_still (s : State) (e : Emit) : (s.emit e).still = s.still := rfl
@[simp] theorem State.emit_sec (s : State) (e : Emit) : (s.emit e).sec = s.sec := rfl
@[simp] theorem State.emit_dict (s : State) (e : Emit) : (s.emit e).dict = s.dict := rfl
@[simp] theorem State.emit_lantern (s : State) (e : Emit) : (s.emit e).lantern = s.lantern := rfl
@[simp] theorem State.emit_fw (s : State) (e : Emit) : (s.emit e).fw = s.fw := rfl
@[simp] theorem State.emit_host (s : State) (e : Emit) : (s.emit e).host = s.host := rfl
@[simp] theorem State.emit_pkg (s : State) (e : Emit) : (s.emit e).pkg = s.pkg := rfl
@[simp] theorem State.emit_perf (s : State) (e : Emit) : (s.emit e).perf = s.perf := rfl
@[simp] theorem State.emit_draws (s : State) (e : Emit) : (s.emit e).draws = s.draws := rfl
@[simp] theorem State.emit_free (s : State) (e : Emit) : (s.emit e).free = s.free := rfl
@[simp] theorem State.emit_pending (s : State) (e : Emit) : (s.emit e).pending = s.pending := rfl
@[simp] theorem State.emit_out (s : State) (e : Emit) : (s.emit e).out = s.out ++ [e] := rfl
@[simp] theorem State.onCtx_time (s : State) (c : Nat) (f : Ctx → Ctx) : (s.onCtx c f).time = s.time := rfl
@[simp] theorem State.onCtx_job (s : State) (c : Nat) (f : Ctx → Ctx) : (s.onCtx c f).job = s.job := rfl
@[simp] theorem State.onCtx_frame0 (s : State) (c : Nat) (f : Ctx → Ctx) : (s.onCtx c f).frame0 = s.frame0 := rfl
@[simp] theorem State.onCtx_frame (s : State) (c : Nat) (f : Ctx → Ctx) : (s.onCtx c f).frame = s.frame := rfl
@[simp] theorem State.onCtx_running (s : State) (c : Nat) (f : Ctx → Ctx) : (s.onCtx c f).running = s.running := rfl
@[simp] theorem State.onCtx_slices (s : State) (c : Nat) (f : Ctx → Ctx) : (s.onCtx c f).slices = s.slices := rfl
@[simp] theorem State.onCtx_tears (s : State) (c : Nat) (f : Ctx → Ctx) : (s.onCtx c f).tears = s.tears := rfl
@[simp] theorem State.onCtx_hot (s : State) (c : Nat) (f : Ctx → Ctx) : (s.onCtx c f).hot = s.hot := rfl
@[simp] theorem State.onCtx_load (s : State) (c : Nat) (f : Ctx → Ctx) : (s.onCtx c f).load = s.load := rfl
@[simp] theorem State.onCtx_epochs (s : State) (c : Nat) (f : Ctx → Ctx) : (s.onCtx c f).epochs = s.epochs := rfl
@[simp] theorem State.onCtx_still (s : State) (c : Nat) (f : Ctx → Ctx) : (s.onCtx c f).still = s.still := rfl
@[simp] theorem State.onCtx_sec (s : State) (c : Nat) (f : Ctx → Ctx) : (s.onCtx c f).sec = s.sec := rfl
@[simp] theorem State.onCtx_dict (s : State) (c : Nat) (f : Ctx → Ctx) : (s.onCtx c f).dict = s.dict := rfl
@[simp] theorem State.onCtx_lantern (s : State) (c : Nat) (f : Ctx → Ctx) : (s.onCtx c f).lantern = s.lantern := rfl
@[simp] theorem State.onCtx_fw (s : State) (c : Nat) (f : Ctx → Ctx) : (s.onCtx c f).fw = s.fw := rfl
@[simp] theorem State.onCtx_host (s : State) (c : Nat) (f : Ctx → Ctx) : (s.onCtx c f).host = s.host := rfl
@[simp] theorem State.onCtx_pkg (s : State) (c : Nat) (f : Ctx → Ctx) : (s.onCtx c f).pkg = s.pkg := rfl
@[simp] theorem State.onCtx_perf (s : State) (c : Nat) (f : Ctx → Ctx) : (s.onCtx c f).perf = s.perf := rfl
@[simp] theorem State.onCtx_draws (s : State) (c : Nat) (f : Ctx → Ctx) : (s.onCtx c f).draws = s.draws := rfl
@[simp] theorem State.onCtx_free (s : State) (c : Nat) (f : Ctx → Ctx) : (s.onCtx c f).free = s.free := rfl
@[simp] theorem State.onCtx_out (s : State) (c : Nat) (f : Ctx → Ctx) : (s.onCtx c f).out = s.out := rfl
@[simp] theorem State.onCtx_pending (s : State) (c : Nat) (f : Ctx → Ctx) : (s.onCtx c f).pending = s.pending := rfl
@[simp] theorem State.pushChan_time (s : State) (c : Nat) (j : DmaJob) : (s.pushChan c j).time = s.time := rfl
@[simp] theorem State.pushChan_job (s : State) (c : Nat) (j : DmaJob) : (s.pushChan c j).job = s.job := rfl
@[simp] theorem State.pushChan_frame0 (s : State) (c : Nat) (j : DmaJob) : (s.pushChan c j).frame0 = s.frame0 := rfl
@[simp] theorem State.pushChan_frame (s : State) (c : Nat) (j : DmaJob) : (s.pushChan c j).frame = s.frame := rfl
@[simp] theorem State.pushChan_running (s : State) (c : Nat) (j : DmaJob) : (s.pushChan c j).running = s.running := rfl
@[simp] theorem State.pushChan_slices (s : State) (c : Nat) (j : DmaJob) : (s.pushChan c j).slices = s.slices := rfl
@[simp] theorem State.pushChan_ctxs (s : State) (c : Nat) (j : DmaJob) : (s.pushChan c j).ctxs = s.ctxs := rfl
@[simp] theorem State.pushChan_tears (s : State) (c : Nat) (j : DmaJob) : (s.pushChan c j).tears = s.tears := rfl
@[simp] theorem State.pushChan_hot (s : State) (c : Nat) (j : DmaJob) : (s.pushChan c j).hot = s.hot := rfl
@[simp] theorem State.pushChan_load (s : State) (c : Nat) (j : DmaJob) : (s.pushChan c j).load = s.load := rfl
@[simp] theorem State.pushChan_epochs (s : State) (c : Nat) (j : DmaJob) : (s.pushChan c j).epochs = s.epochs := rfl
@[simp] theorem State.pushChan_still (s : State) (c : Nat) (j : DmaJob) : (s.pushChan c j).still = s.still := rfl
@[simp] theorem State.pushChan_sec (s : State) (c : Nat) (j : DmaJob) : (s.pushChan c j).sec = s.sec := rfl
@[simp] theorem State.pushChan_dict (s : State) (c : Nat) (j : DmaJob) : (s.pushChan c j).dict = s.dict := rfl
@[simp] theorem State.pushChan_lantern (s : State) (c : Nat) (j : DmaJob) : (s.pushChan c j).lantern = s.lantern := rfl
@[simp] theorem State.pushChan_fw (s : State) (c : Nat) (j : DmaJob) : (s.pushChan c j).fw = s.fw := rfl
@[simp] theorem State.pushChan_pkg (s : State) (c : Nat) (j : DmaJob) : (s.pushChan c j).pkg = s.pkg := rfl
@[simp] theorem State.pushChan_perf (s : State) (c : Nat) (j : DmaJob) : (s.pushChan c j).perf = s.perf := rfl
@[simp] theorem State.pushChan_draws (s : State) (c : Nat) (j : DmaJob) : (s.pushChan c j).draws = s.draws := rfl
@[simp] theorem State.pushChan_free (s : State) (c : Nat) (j : DmaJob) : (s.pushChan c j).free = s.free := rfl
@[simp] theorem State.pushChan_out (s : State) (c : Nat) (j : DmaJob) : (s.pushChan c j).out = s.out := rfl
@[simp] theorem State.pushChan_pending (s : State) (c : Nat) (j : DmaJob) : (s.pushChan c j).pending = s.pending := rfl
@[simp] theorem State.onRing_time (s : State) (r : Nat) (f : Ring → Ring) : (s.onRing r f).time = s.time := rfl
@[simp] theorem State.onRing_job (s : State) (r : Nat) (f : Ring → Ring) : (s.onRing r f).job = s.job := rfl
@[simp] theorem State.onRing_frame0 (s : State) (r : Nat) (f : Ring → Ring) : (s.onRing r f).frame0 = s.frame0 := rfl
@[simp] theorem State.onRing_frame (s : State) (r : Nat) (f : Ring → Ring) : (s.onRing r f).frame = s.frame := rfl
@[simp] theorem State.onRing_running (s : State) (r : Nat) (f : Ring → Ring) : (s.onRing r f).running = s.running := rfl
@[simp] theorem State.onRing_slices (s : State) (r : Nat) (f : Ring → Ring) : (s.onRing r f).slices = s.slices := rfl
@[simp] theorem State.onRing_ctxs (s : State) (r : Nat) (f : Ring → Ring) : (s.onRing r f).ctxs = s.ctxs := rfl
@[simp] theorem State.onRing_tears (s : State) (r : Nat) (f : Ring → Ring) : (s.onRing r f).tears = s.tears := rfl
@[simp] theorem State.onRing_hot (s : State) (r : Nat) (f : Ring → Ring) : (s.onRing r f).hot = s.hot := rfl
@[simp] theorem State.onRing_load (s : State) (r : Nat) (f : Ring → Ring) : (s.onRing r f).load = s.load := rfl
@[simp] theorem State.onRing_epochs (s : State) (r : Nat) (f : Ring → Ring) : (s.onRing r f).epochs = s.epochs := rfl
@[simp] theorem State.onRing_still (s : State) (r : Nat) (f : Ring → Ring) : (s.onRing r f).still = s.still := rfl
@[simp] theorem State.onRing_sec (s : State) (r : Nat) (f : Ring → Ring) : (s.onRing r f).sec = s.sec := rfl
@[simp] theorem State.onRing_dict (s : State) (r : Nat) (f : Ring → Ring) : (s.onRing r f).dict = s.dict := rfl
@[simp] theorem State.onRing_lantern (s : State) (r : Nat) (f : Ring → Ring) : (s.onRing r f).lantern = s.lantern := rfl
@[simp] theorem State.onRing_fw (s : State) (r : Nat) (f : Ring → Ring) : (s.onRing r f).fw = s.fw := rfl
@[simp] theorem State.onRing_pkg (s : State) (r : Nat) (f : Ring → Ring) : (s.onRing r f).pkg = s.pkg := rfl
@[simp] theorem State.onRing_perf (s : State) (r : Nat) (f : Ring → Ring) : (s.onRing r f).perf = s.perf := rfl
@[simp] theorem State.onRing_draws (s : State) (r : Nat) (f : Ring → Ring) : (s.onRing r f).draws = s.draws := rfl
@[simp] theorem State.onRing_free (s : State) (r : Nat) (f : Ring → Ring) : (s.onRing r f).free = s.free := rfl
@[simp] theorem State.onRing_out (s : State) (r : Nat) (f : Ring → Ring) : (s.onRing r f).out = s.out := rfl
@[simp] theorem State.onRing_pending (s : State) (r : Nat) (f : Ring → Ring) : (s.onRing r f).pending = s.pending := rfl
@[simp] theorem State.extendMR_time (s : State) (n : Nat) (d : Bytes) : (s.extendMR n d).time = s.time := rfl
@[simp] theorem State.extendMR_job (s : State) (n : Nat) (d : Bytes) : (s.extendMR n d).job = s.job := rfl
@[simp] theorem State.extendMR_frame0 (s : State) (n : Nat) (d : Bytes) : (s.extendMR n d).frame0 = s.frame0 := rfl
@[simp] theorem State.extendMR_frame (s : State) (n : Nat) (d : Bytes) : (s.extendMR n d).frame = s.frame := rfl
@[simp] theorem State.extendMR_running (s : State) (n : Nat) (d : Bytes) : (s.extendMR n d).running = s.running := rfl
@[simp] theorem State.extendMR_slices (s : State) (n : Nat) (d : Bytes) : (s.extendMR n d).slices = s.slices := rfl
@[simp] theorem State.extendMR_ctxs (s : State) (n : Nat) (d : Bytes) : (s.extendMR n d).ctxs = s.ctxs := rfl
@[simp] theorem State.extendMR_tears (s : State) (n : Nat) (d : Bytes) : (s.extendMR n d).tears = s.tears := rfl
@[simp] theorem State.extendMR_hot (s : State) (n : Nat) (d : Bytes) : (s.extendMR n d).hot = s.hot := rfl
@[simp] theorem State.extendMR_load (s : State) (n : Nat) (d : Bytes) : (s.extendMR n d).load = s.load := rfl
@[simp] theorem State.extendMR_epochs (s : State) (n : Nat) (d : Bytes) : (s.extendMR n d).epochs = s.epochs := rfl
@[simp] theorem State.extendMR_still (s : State) (n : Nat) (d : Bytes) : (s.extendMR n d).still = s.still := rfl
@[simp] theorem State.extendMR_dict (s : State) (n : Nat) (d : Bytes) : (s.extendMR n d).dict = s.dict := rfl
@[simp] theorem State.extendMR_lantern (s : State) (n : Nat) (d : Bytes) : (s.extendMR n d).lantern = s.lantern := rfl
@[simp] theorem State.extendMR_fw (s : State) (n : Nat) (d : Bytes) : (s.extendMR n d).fw = s.fw := rfl
@[simp] theorem State.extendMR_host (s : State) (n : Nat) (d : Bytes) : (s.extendMR n d).host = s.host := rfl
@[simp] theorem State.extendMR_pkg (s : State) (n : Nat) (d : Bytes) : (s.extendMR n d).pkg = s.pkg := rfl
@[simp] theorem State.extendMR_perf (s : State) (n : Nat) (d : Bytes) : (s.extendMR n d).perf = s.perf := rfl
@[simp] theorem State.extendMR_draws (s : State) (n : Nat) (d : Bytes) : (s.extendMR n d).draws = s.draws := rfl
@[simp] theorem State.extendMR_free (s : State) (n : Nat) (d : Bytes) : (s.extendMR n d).free = s.free := rfl
@[simp] theorem State.extendMR_out (s : State) (n : Nat) (d : Bytes) : (s.extendMR n d).out = s.out := rfl
@[simp] theorem State.extendMR_pending (s : State) (n : Nat) (d : Bytes) : (s.extendMR n d).pending = s.pending := rfl
@[simp] theorem State.report_time (s : State) (i : Nat) (r : Report) : (s.report i r).time = s.time := rfl
@[simp] theorem State.report_job (s : State) (i : Nat) (r : Report) : (s.report i r).job = s.job := rfl
@[simp] theorem State.report_frame0 (s : State) (i : Nat) (r : Report) : (s.report i r).frame0 = s.frame0 := rfl
@[simp] theorem State.report_frame (s : State) (i : Nat) (r : Report) : (s.report i r).frame = s.frame := rfl
@[simp] theorem State.report_running (s : State) (i : Nat) (r : Report) : (s.report i r).running = s.running := rfl
@[simp] theorem State.report_ctxs (s : State) (i : Nat) (r : Report) : (s.report i r).ctxs = s.ctxs := rfl
@[simp] theorem State.report_tears (s : State) (i : Nat) (r : Report) : (s.report i r).tears = s.tears := rfl
@[simp] theorem State.report_hot (s : State) (i : Nat) (r : Report) : (s.report i r).hot = s.hot := rfl
@[simp] theorem State.report_load (s : State) (i : Nat) (r : Report) : (s.report i r).load = s.load := rfl
@[simp] theorem State.report_epochs (s : State) (i : Nat) (r : Report) : (s.report i r).epochs = s.epochs := rfl
@[simp] theorem State.report_still (s : State) (i : Nat) (r : Report) : (s.report i r).still = s.still := rfl
@[simp] theorem State.report_sec (s : State) (i : Nat) (r : Report) : (s.report i r).sec = s.sec := rfl
@[simp] theorem State.report_dict (s : State) (i : Nat) (r : Report) : (s.report i r).dict = s.dict := rfl
@[simp] theorem State.report_lantern (s : State) (i : Nat) (r : Report) : (s.report i r).lantern = s.lantern := rfl
@[simp] theorem State.report_fw (s : State) (i : Nat) (r : Report) : (s.report i r).fw = s.fw := rfl
@[simp] theorem State.report_host (s : State) (i : Nat) (r : Report) : (s.report i r).host = s.host := rfl
@[simp] theorem State.report_pkg (s : State) (i : Nat) (r : Report) : (s.report i r).pkg = s.pkg := rfl
@[simp] theorem State.report_perf (s : State) (i : Nat) (r : Report) : (s.report i r).perf = s.perf := rfl
@[simp] theorem State.report_draws (s : State) (i : Nat) (r : Report) : (s.report i r).draws = s.draws := rfl
@[simp] theorem State.report_free (s : State) (i : Nat) (r : Report) : (s.report i r).free = s.free := rfl
@[simp] theorem State.report_out (s : State) (i : Nat) (r : Report) : (s.report i r).out = s.out := rfl
@[simp] theorem State.report_pending (s : State) (i : Nat) (r : Report) : (s.report i r).pending = s.pending := rfl
@[simp] theorem State.endReqs_time (s : State) (i : Nat) (p : Request → Bool) (a b : Drip) (t : Status) (l : Nat) : (s.endReqs i p a b t l).time = s.time := rfl
@[simp] theorem State.endReqs_job (s : State) (i : Nat) (p : Request → Bool) (a b : Drip) (t : Status) (l : Nat) : (s.endReqs i p a b t l).job = s.job := rfl
@[simp] theorem State.endReqs_frame0 (s : State) (i : Nat) (p : Request → Bool) (a b : Drip) (t : Status) (l : Nat) : (s.endReqs i p a b t l).frame0 = s.frame0 := rfl
@[simp] theorem State.endReqs_frame (s : State) (i : Nat) (p : Request → Bool) (a b : Drip) (t : Status) (l : Nat) : (s.endReqs i p a b t l).frame = s.frame := rfl
@[simp] theorem State.endReqs_running (s : State) (i : Nat) (p : Request → Bool) (a b : Drip) (t : Status) (l : Nat) : (s.endReqs i p a b t l).running = s.running := rfl
@[simp] theorem State.endReqs_ctxs (s : State) (i : Nat) (p : Request → Bool) (a b : Drip) (t : Status) (l : Nat) : (s.endReqs i p a b t l).ctxs = s.ctxs := rfl
@[simp] theorem State.endReqs_tears (s : State) (i : Nat) (p : Request → Bool) (a b : Drip) (t : Status) (l : Nat) : (s.endReqs i p a b t l).tears = s.tears := rfl
@[simp] theorem State.endReqs_hot (s : State) (i : Nat) (p : Request → Bool) (a b : Drip) (t : Status) (l : Nat) : (s.endReqs i p a b t l).hot = s.hot := rfl
@[simp] theorem State.endReqs_load (s : State) (i : Nat) (p : Request → Bool) (a b : Drip) (t : Status) (l : Nat) : (s.endReqs i p a b t l).load = s.load := rfl
@[simp] theorem State.endReqs_epochs (s : State) (i : Nat) (p : Request → Bool) (a b : Drip) (t : Status) (l : Nat) : (s.endReqs i p a b t l).epochs = s.epochs := rfl
@[simp] theorem State.endReqs_still (s : State) (i : Nat) (p : Request → Bool) (a b : Drip) (t : Status) (l : Nat) : (s.endReqs i p a b t l).still = s.still := rfl
@[simp] theorem State.endReqs_sec (s : State) (i : Nat) (p : Request → Bool) (a b : Drip) (t : Status) (l : Nat) : (s.endReqs i p a b t l).sec = s.sec := rfl
@[simp] theorem State.endReqs_dict (s : State) (i : Nat) (p : Request → Bool) (a b : Drip) (t : Status) (l : Nat) : (s.endReqs i p a b t l).dict = s.dict := rfl
@[simp] theorem State.endReqs_lantern (s : State) (i : Nat) (p : Request → Bool) (a b : Drip) (t : Status) (l : Nat) : (s.endReqs i p a b t l).lantern = s.lantern := rfl
@[simp] theorem State.endReqs_fw (s : State) (i : Nat) (p : Request → Bool) (a b : Drip) (t : Status) (l : Nat) : (s.endReqs i p a b t l).fw = s.fw := rfl
@[simp] theorem State.endReqs_host (s : State) (i : Nat) (p : Request → Bool) (a b : Drip) (t : Status) (l : Nat) : (s.endReqs i p a b t l).host = s.host := rfl
@[simp] theorem State.endReqs_pkg (s : State) (i : Nat) (p : Request → Bool) (a b : Drip) (t : Status) (l : Nat) : (s.endReqs i p a b t l).pkg = s.pkg := rfl
@[simp] theorem State.endReqs_perf (s : State) (i : Nat) (p : Request → Bool) (a b : Drip) (t : Status) (l : Nat) : (s.endReqs i p a b t l).perf = s.perf := rfl
@[simp] theorem State.endReqs_draws (s : State) (i : Nat) (p : Request → Bool) (a b : Drip) (t : Status) (l : Nat) : (s.endReqs i p a b t l).draws = s.draws := rfl
@[simp] theorem State.endReqs_free (s : State) (i : Nat) (p : Request → Bool) (a b : Drip) (t : Status) (l : Nat) : (s.endReqs i p a b t l).free = s.free := rfl
@[simp] theorem State.endReqs_out (s : State) (i : Nat) (p : Request → Bool) (a b : Drip) (t : Status) (l : Nat) : (s.endReqs i p a b t l).out = s.out := rfl
@[simp] theorem State.endReqs_pending (s : State) (i : Nat) (p : Request → Bool) (a b : Drip) (t : Status) (l : Nat) : (s.endReqs i p a b t l).pending = s.pending := rfl
@[simp] theorem State.endNext_time (s : State) (i : Nat) (p : Request → Bool) (t : Status) (l : Nat) : (s.endNext i p t l).time = s.time := rfl
@[simp] theorem State.endNext_job (s : State) (i : Nat) (p : Request → Bool) (t : Status) (l : Nat) : (s.endNext i p t l).job = s.job := rfl
@[simp] theorem State.endNext_frame0 (s : State) (i : Nat) (p : Request → Bool) (t : Status) (l : Nat) : (s.endNext i p t l).frame0 = s.frame0 := rfl
@[simp] theorem State.endNext_frame (s : State) (i : Nat) (p : Request → Bool) (t : Status) (l : Nat) : (s.endNext i p t l).frame = s.frame := rfl
@[simp] theorem State.endNext_running (s : State) (i : Nat) (p : Request → Bool) (t : Status) (l : Nat) : (s.endNext i p t l).running = s.running := rfl
@[simp] theorem State.endNext_ctxs (s : State) (i : Nat) (p : Request → Bool) (t : Status) (l : Nat) : (s.endNext i p t l).ctxs = s.ctxs := rfl
@[simp] theorem State.endNext_tears (s : State) (i : Nat) (p : Request → Bool) (t : Status) (l : Nat) : (s.endNext i p t l).tears = s.tears := rfl
@[simp] theorem State.endNext_hot (s : State) (i : Nat) (p : Request → Bool) (t : Status) (l : Nat) : (s.endNext i p t l).hot = s.hot := rfl
@[simp] theorem State.endNext_load (s : State) (i : Nat) (p : Request → Bool) (t : Status) (l : Nat) : (s.endNext i p t l).load = s.load := rfl
@[simp] theorem State.endNext_epochs (s : State) (i : Nat) (p : Request → Bool) (t : Status) (l : Nat) : (s.endNext i p t l).epochs = s.epochs := rfl
@[simp] theorem State.endNext_still (s : State) (i : Nat) (p : Request → Bool) (t : Status) (l : Nat) : (s.endNext i p t l).still = s.still := rfl
@[simp] theorem State.endNext_sec (s : State) (i : Nat) (p : Request → Bool) (t : Status) (l : Nat) : (s.endNext i p t l).sec = s.sec := rfl
@[simp] theorem State.endNext_dict (s : State) (i : Nat) (p : Request → Bool) (t : Status) (l : Nat) : (s.endNext i p t l).dict = s.dict := rfl
@[simp] theorem State.endNext_lantern (s : State) (i : Nat) (p : Request → Bool) (t : Status) (l : Nat) : (s.endNext i p t l).lantern = s.lantern := rfl
@[simp] theorem State.endNext_fw (s : State) (i : Nat) (p : Request → Bool) (t : Status) (l : Nat) : (s.endNext i p t l).fw = s.fw := rfl
@[simp] theorem State.endNext_host (s : State) (i : Nat) (p : Request → Bool) (t : Status) (l : Nat) : (s.endNext i p t l).host = s.host := rfl
@[simp] theorem State.endNext_pkg (s : State) (i : Nat) (p : Request → Bool) (t : Status) (l : Nat) : (s.endNext i p t l).pkg = s.pkg := rfl
@[simp] theorem State.endNext_perf (s : State) (i : Nat) (p : Request → Bool) (t : Status) (l : Nat) : (s.endNext i p t l).perf = s.perf := rfl
@[simp] theorem State.endNext_draws (s : State) (i : Nat) (p : Request → Bool) (t : Status) (l : Nat) : (s.endNext i p t l).draws = s.draws := rfl
@[simp] theorem State.endNext_free (s : State) (i : Nat) (p : Request → Bool) (t : Status) (l : Nat) : (s.endNext i p t l).free = s.free := rfl
@[simp] theorem State.endNext_out (s : State) (i : Nat) (p : Request → Bool) (t : Status) (l : Nat) : (s.endNext i p t l).out = s.out := rfl
@[simp] theorem State.endNext_pending (s : State) (i : Nat) (p : Request → Bool) (t : Status) (l : Nat) : (s.endNext i p t l).pending = s.pending := rfl
@[simp] theorem State.msix_time (s : State) (v : Nat) : (s.msix v).time = s.time := by unfold State.msix; split <;> (try split) <;> rfl
@[simp] theorem State.msix_job (s : State) (v : Nat) : (s.msix v).job = s.job := by unfold State.msix; split <;> (try split) <;> rfl
@[simp] theorem State.msix_frame0 (s : State) (v : Nat) : (s.msix v).frame0 = s.frame0 := by unfold State.msix; split <;> (try split) <;> rfl
@[simp] theorem State.msix_frame (s : State) (v : Nat) : (s.msix v).frame = s.frame := by unfold State.msix; split <;> (try split) <;> rfl
@[simp] theorem State.msix_running (s : State) (v : Nat) : (s.msix v).running = s.running := by unfold State.msix; split <;> (try split) <;> rfl
@[simp] theorem State.msix_slices (s : State) (v : Nat) : (s.msix v).slices = s.slices := by unfold State.msix; split <;> (try split) <;> rfl
@[simp] theorem State.msix_ctxs (s : State) (v : Nat) : (s.msix v).ctxs = s.ctxs := by unfold State.msix; split <;> (try split) <;> rfl
@[simp] theorem State.msix_tears (s : State) (v : Nat) : (s.msix v).tears = s.tears := by unfold State.msix; split <;> (try split) <;> rfl
@[simp] theorem State.msix_hot (s : State) (v : Nat) : (s.msix v).hot = s.hot := by unfold State.msix; split <;> (try split) <;> rfl
@[simp] theorem State.msix_load (s : State) (v : Nat) : (s.msix v).load = s.load := by unfold State.msix; split <;> (try split) <;> rfl
@[simp] theorem State.msix_epochs (s : State) (v : Nat) : (s.msix v).epochs = s.epochs := by unfold State.msix; split <;> (try split) <;> rfl
@[simp] theorem State.msix_still (s : State) (v : Nat) : (s.msix v).still = s.still := by unfold State.msix; split <;> (try split) <;> rfl
@[simp] theorem State.msix_sec (s : State) (v : Nat) : (s.msix v).sec = s.sec := by unfold State.msix; split <;> (try split) <;> rfl
@[simp] theorem State.msix_dict (s : State) (v : Nat) : (s.msix v).dict = s.dict := by unfold State.msix; split <;> (try split) <;> rfl
@[simp] theorem State.msix_lantern (s : State) (v : Nat) : (s.msix v).lantern = s.lantern := by unfold State.msix; split <;> (try split) <;> rfl
@[simp] theorem State.msix_fw (s : State) (v : Nat) : (s.msix v).fw = s.fw := by unfold State.msix; split <;> (try split) <;> rfl
@[simp] theorem State.msix_pkg (s : State) (v : Nat) : (s.msix v).pkg = s.pkg := by unfold State.msix; split <;> (try split) <;> rfl
@[simp] theorem State.msix_perf (s : State) (v : Nat) : (s.msix v).perf = s.perf := by unfold State.msix; split <;> (try split) <;> rfl
@[simp] theorem State.msix_draws (s : State) (v : Nat) : (s.msix v).draws = s.draws := by unfold State.msix; split <;> (try split) <;> rfl
@[simp] theorem State.msix_free (s : State) (v : Nat) : (s.msix v).free = s.free := by unfold State.msix; split <;> (try split) <;> rfl
@[simp] theorem State.msix_out (s : State) (v : Nat) : (s.msix v).out = s.out := by unfold State.msix; split <;> (try split) <;> rfl
@[simp] theorem State.msix_pending (s : State) (v : Nat) : (s.msix v).pending = s.pending := by unfold State.msix; split <;> (try split) <;> rfl
@[simp] theorem State.cause_time (s : State) (b : Nat) : (s.cause b).time = s.time := by unfold State.cause; dsimp only; split <;> simp
@[simp] theorem State.cause_job (s : State) (b : Nat) : (s.cause b).job = s.job := by unfold State.cause; dsimp only; split <;> simp
@[simp] theorem State.cause_frame0 (s : State) (b : Nat) : (s.cause b).frame0 = s.frame0 := by unfold State.cause; dsimp only; split <;> simp
@[simp] theorem State.cause_frame (s : State) (b : Nat) : (s.cause b).frame = s.frame := by unfold State.cause; dsimp only; split <;> simp
@[simp] theorem State.cause_running (s : State) (b : Nat) : (s.cause b).running = s.running := by unfold State.cause; dsimp only; split <;> simp
@[simp] theorem State.cause_slices (s : State) (b : Nat) : (s.cause b).slices = s.slices := by unfold State.cause; dsimp only; split <;> simp
@[simp] theorem State.cause_ctxs (s : State) (b : Nat) : (s.cause b).ctxs = s.ctxs := by unfold State.cause; dsimp only; split <;> simp
@[simp] theorem State.cause_tears (s : State) (b : Nat) : (s.cause b).tears = s.tears := by unfold State.cause; dsimp only; split <;> simp
@[simp] theorem State.cause_hot (s : State) (b : Nat) : (s.cause b).hot = s.hot := by unfold State.cause; dsimp only; split <;> simp
@[simp] theorem State.cause_load (s : State) (b : Nat) : (s.cause b).load = s.load := by unfold State.cause; dsimp only; split <;> simp
@[simp] theorem State.cause_epochs (s : State) (b : Nat) : (s.cause b).epochs = s.epochs := by unfold State.cause; dsimp only; split <;> simp
@[simp] theorem State.cause_still (s : State) (b : Nat) : (s.cause b).still = s.still := by unfold State.cause; dsimp only; split <;> simp
@[simp] theorem State.cause_sec (s : State) (b : Nat) : (s.cause b).sec = s.sec := by unfold State.cause; dsimp only; split <;> simp
@[simp] theorem State.cause_dict (s : State) (b : Nat) : (s.cause b).dict = s.dict := by unfold State.cause; dsimp only; split <;> simp
@[simp] theorem State.cause_lantern (s : State) (b : Nat) : (s.cause b).lantern = s.lantern := by unfold State.cause; dsimp only; split <;> simp
@[simp] theorem State.cause_fw (s : State) (b : Nat) : (s.cause b).fw = s.fw := by unfold State.cause; dsimp only; split <;> simp
@[simp] theorem State.cause_pkg (s : State) (b : Nat) : (s.cause b).pkg = s.pkg := by unfold State.cause; dsimp only; split <;> simp
@[simp] theorem State.cause_perf (s : State) (b : Nat) : (s.cause b).perf = s.perf := by unfold State.cause; dsimp only; split <;> simp
@[simp] theorem State.cause_draws (s : State) (b : Nat) : (s.cause b).draws = s.draws := by unfold State.cause; dsimp only; split <;> simp
@[simp] theorem State.cause_free (s : State) (b : Nat) : (s.cause b).free = s.free := by unfold State.cause; dsimp only; split <;> simp
@[simp] theorem State.cause_out (s : State) (b : Nat) : (s.cause b).out = s.out := by unfold State.cause; dsimp only; split <;> simp
@[simp] theorem State.cause_pending (s : State) (b : Nat) : (s.cause b).pending = s.pending := by unfold State.cause; dsimp only; split <;> simp
@[simp] theorem State.complete_time (s : State) (c : Completion) : (s.complete c).time = s.time := by unfold State.complete; dsimp only; split <;> (try split) <;> simp
@[simp] theorem State.complete_job (s : State) (c : Completion) : (s.complete c).job = s.job := by unfold State.complete; dsimp only; split <;> (try split) <;> simp
@[simp] theorem State.complete_frame0 (s : State) (c : Completion) : (s.complete c).frame0 = s.frame0 := by unfold State.complete; dsimp only; split <;> (try split) <;> simp
@[simp] theorem State.complete_frame (s : State) (c : Completion) : (s.complete c).frame = s.frame := by unfold State.complete; dsimp only; split <;> (try split) <;> simp
@[simp] theorem State.complete_running (s : State) (c : Completion) : (s.complete c).running = s.running := by unfold State.complete; dsimp only; split <;> (try split) <;> simp
@[simp] theorem State.complete_ctxs (s : State) (c : Completion) : (s.complete c).ctxs = s.ctxs := by unfold State.complete; dsimp only; split <;> (try split) <;> simp
@[simp] theorem State.complete_tears (s : State) (c : Completion) : (s.complete c).tears = s.tears := by unfold State.complete; dsimp only; split <;> (try split) <;> simp
@[simp] theorem State.complete_hot (s : State) (c : Completion) : (s.complete c).hot = s.hot := by unfold State.complete; dsimp only; split <;> (try split) <;> simp
@[simp] theorem State.complete_load (s : State) (c : Completion) : (s.complete c).load = s.load := by unfold State.complete; dsimp only; split <;> (try split) <;> simp
@[simp] theorem State.complete_epochs (s : State) (c : Completion) : (s.complete c).epochs = s.epochs := by unfold State.complete; dsimp only; split <;> (try split) <;> simp
@[simp] theorem State.complete_still (s : State) (c : Completion) : (s.complete c).still = s.still := by unfold State.complete; dsimp only; split <;> (try split) <;> simp
@[simp] theorem State.complete_sec (s : State) (c : Completion) : (s.complete c).sec = s.sec := by unfold State.complete; dsimp only; split <;> (try split) <;> simp
@[simp] theorem State.complete_dict (s : State) (c : Completion) : (s.complete c).dict = s.dict := by unfold State.complete; dsimp only; split <;> (try split) <;> simp
@[simp] theorem State.complete_lantern (s : State) (c : Completion) : (s.complete c).lantern = s.lantern := by unfold State.complete; dsimp only; split <;> (try split) <;> simp
@[simp] theorem State.complete_fw (s : State) (c : Completion) : (s.complete c).fw = s.fw := by unfold State.complete; dsimp only; split <;> (try split) <;> simp
@[simp] theorem State.complete_pkg (s : State) (c : Completion) : (s.complete c).pkg = s.pkg := by unfold State.complete; dsimp only; split <;> (try split) <;> simp
@[simp] theorem State.complete_perf (s : State) (c : Completion) : (s.complete c).perf = s.perf := by unfold State.complete; dsimp only; split <;> (try split) <;> simp
@[simp] theorem State.complete_draws (s : State) (c : Completion) : (s.complete c).draws = s.draws := by unfold State.complete; dsimp only; split <;> (try split) <;> simp
@[simp] theorem State.complete_free (s : State) (c : Completion) : (s.complete c).free = s.free := by unfold State.complete; dsimp only; split <;> (try split) <;> simp
@[simp] theorem State.complete_out (s : State) (c : Completion) : (s.complete c).out = s.out := by unfold State.complete; dsimp only; split <;> (try split) <;> simp
@[simp] theorem State.complete_pending (s : State) (c : Completion) : (s.complete c).pending = s.pending := by unfold State.complete; dsimp only; split <;> (try split) <;> simp

/-! ### The slices of a state after an update that leaves them alone -/

@[simp] theorem State.emit_sl (s : State) (e : Emit) (i : Nat) : (s.emit e).sl i = s.sl i := rfl
@[simp] theorem State.onCtx_sl (s : State) (c : Nat) (f : Ctx → Ctx) (i : Nat) : (s.onCtx c f).sl i = s.sl i := rfl
@[simp] theorem State.pushChan_sl (s : State) (c : Nat) (j : DmaJob) (i : Nat) : (s.pushChan c j).sl i = s.sl i := rfl
@[simp] theorem State.onRing_sl (s : State) (r : Nat) (f : Ring → Ring) (i : Nat) : (s.onRing r f).sl i = s.sl i := rfl
@[simp] theorem State.extendMR_sl (s : State) (n : Nat) (d : Bytes) (i : Nat) : (s.extendMR n d).sl i = s.sl i := rfl
@[simp] theorem State.msix_sl (s : State) (v : Nat) (i : Nat) : (s.msix v).sl i = s.sl i := by simp [State.sl]
@[simp] theorem State.cause_sl (s : State) (b : Nat) (i : Nat) : (s.cause b).sl i = s.sl i := by simp [State.sl]

/-! ### Updates of a slice, field by field -/

@[simp] theorem SliceState.store_present (x : SliceState) (a : Nat) (b : Bytes) : (x.store a b).present = x.present := rfl
@[simp] theorem SliceState.store_flags (x : SliceState) (a : Nat) (b : Bytes) : (x.store a b).flags = x.flags := rfl
@[simp] theorem SliceState.store_flagsAt (x : SliceState) (a : Nat) (b : Bytes) : (x.store a b).flagsAt = x.flagsAt := rfl
@[simp] theorem SliceState.store_toClear (x : SliceState) (a : Nat) (b : Bytes) : (x.store a b).toClear = x.toClear := rfl
@[simp] theorem SliceState.store_runs (x : SliceState) (a : Nat) (b : Bytes) : (x.store a b).runs = x.runs := rfl
@[simp] theorem SliceState.store_engines (x : SliceState) (a : Nat) (b : Bytes) : (x.store a b).engines = x.engines := rfl
@[simp] theorem SliceState.store_routing (x : SliceState) (a : Nat) (b : Bytes) : (x.store a b).routing = x.routing := rfl
@[simp] theorem SliceState.store_exch (x : SliceState) (a : Nat) (b : Bytes) : (x.store a b).exch = x.exch := rfl
@[simp] theorem SliceState.store_quads (x : SliceState) (a : Nat) (b : Bytes) : (x.store a b).quads = x.quads := rfl
@[simp] theorem SliceState.store_arr (x : SliceState) (a : Nat) (b : Bytes) : (x.store a b).arr = x.arr := rfl
@[simp] theorem SliceState.store_tiers (x : SliceState) (a : Nat) (b : Bytes) : (x.store a b).tiers = x.tiers := rfl
@[simp] theorem SliceState.store_pools (x : SliceState) (a : Nat) (b : Bytes) : (x.store a b).pools = x.pools := rfl
@[simp] theorem SliceState.store_ports (x : SliceState) (a : Nat) (b : Bytes) : (x.store a b).ports = x.ports := rfl
@[simp] theorem SliceState.store_ilinks (x : SliceState) (a : Nat) (b : Bytes) : (x.store a b).ilinks = x.ilinks := rfl
@[simp] theorem SliceState.store_fabric (x : SliceState) (a : Nat) (b : Bytes) : (x.store a b).fabric = x.fabric := rfl
@[simp] theorem SliceState.store_remote (x : SliceState) (a : Nat) (b : Bytes) : (x.store a b).remote = x.remote := rfl
@[simp] theorem SliceState.store_coll (x : SliceState) (a : Nat) (b : Bytes) : (x.store a b).coll = x.coll := rfl
@[simp] theorem SliceState.store_svc (x : SliceState) (a : Nat) (b : Bytes) : (x.store a b).svc = x.svc := rfl
@[simp] theorem SliceState.store_err (x : SliceState) (a : Nat) (b : Bytes) : (x.store a b).err = x.err := rfl
@[simp] theorem SliceState.store_spares (x : SliceState) (a : Nat) (b : Bytes) : (x.store a b).spares = x.spares := rfl
@[simp] theorem SliceState.store_power (x : SliceState) (a : Nat) (b : Bytes) : (x.store a b).power = x.power := rfl
@[simp] theorem SliceState.store_sump (x : SliceState) (a : Nat) (b : Bytes) : (x.store a b).sump = x.sump := rfl
@[simp] theorem SliceState.store_life (x : SliceState) (a : Nat) (b : Bytes) : (x.store a b).life = x.life := rfl
@[simp] theorem SliceState.poisonRange_present (x : SliceState) (a n : Nat) : (x.poisonRange a n).present = x.present := rfl
@[simp] theorem SliceState.poisonRange_mem (x : SliceState) (a n : Nat) : (x.poisonRange a n).mem = x.mem := rfl
@[simp] theorem SliceState.poisonRange_flags (x : SliceState) (a n : Nat) : (x.poisonRange a n).flags = x.flags := rfl
@[simp] theorem SliceState.poisonRange_flagsAt (x : SliceState) (a n : Nat) : (x.poisonRange a n).flagsAt = x.flagsAt := rfl
@[simp] theorem SliceState.poisonRange_toClear (x : SliceState) (a n : Nat) : (x.poisonRange a n).toClear = x.toClear := rfl
@[simp] theorem SliceState.poisonRange_runs (x : SliceState) (a n : Nat) : (x.poisonRange a n).runs = x.runs := rfl
@[simp] theorem SliceState.poisonRange_engines (x : SliceState) (a n : Nat) : (x.poisonRange a n).engines = x.engines := rfl
@[simp] theorem SliceState.poisonRange_routing (x : SliceState) (a n : Nat) : (x.poisonRange a n).routing = x.routing := rfl
@[simp] theorem SliceState.poisonRange_exch (x : SliceState) (a n : Nat) : (x.poisonRange a n).exch = x.exch := rfl
@[simp] theorem SliceState.poisonRange_quads (x : SliceState) (a n : Nat) : (x.poisonRange a n).quads = x.quads := rfl
@[simp] theorem SliceState.poisonRange_arr (x : SliceState) (a n : Nat) : (x.poisonRange a n).arr = x.arr := rfl
@[simp] theorem SliceState.poisonRange_tiers (x : SliceState) (a n : Nat) : (x.poisonRange a n).tiers = x.tiers := rfl
@[simp] theorem SliceState.poisonRange_pools (x : SliceState) (a n : Nat) : (x.poisonRange a n).pools = x.pools := rfl
@[simp] theorem SliceState.poisonRange_ports (x : SliceState) (a n : Nat) : (x.poisonRange a n).ports = x.ports := rfl
@[simp] theorem SliceState.poisonRange_ilinks (x : SliceState) (a n : Nat) : (x.poisonRange a n).ilinks = x.ilinks := rfl
@[simp] theorem SliceState.poisonRange_fabric (x : SliceState) (a n : Nat) : (x.poisonRange a n).fabric = x.fabric := rfl
@[simp] theorem SliceState.poisonRange_remote (x : SliceState) (a n : Nat) : (x.poisonRange a n).remote = x.remote := rfl
@[simp] theorem SliceState.poisonRange_coll (x : SliceState) (a n : Nat) : (x.poisonRange a n).coll = x.coll := rfl
@[simp] theorem SliceState.poisonRange_svc (x : SliceState) (a n : Nat) : (x.poisonRange a n).svc = x.svc := rfl
@[simp] theorem SliceState.poisonRange_err (x : SliceState) (a n : Nat) : (x.poisonRange a n).err = x.err := rfl
@[simp] theorem SliceState.poisonRange_spares (x : SliceState) (a n : Nat) : (x.poisonRange a n).spares = x.spares := rfl
@[simp] theorem SliceState.poisonRange_power (x : SliceState) (a n : Nat) : (x.poisonRange a n).power = x.power := rfl
@[simp] theorem SliceState.poisonRange_sump (x : SliceState) (a n : Nat) : (x.poisonRange a n).sump = x.sump := rfl
@[simp] theorem SliceState.poisonRange_life (x : SliceState) (a n : Nat) : (x.poisonRange a n).life = x.life := rfl
@[simp] theorem SliceState.wakeOn_present (x : SliceState) (f : Nat) : (x.wakeOn f).present = x.present := rfl
@[simp] theorem SliceState.wakeOn_mem (x : SliceState) (f : Nat) : (x.wakeOn f).mem = x.mem := rfl
@[simp] theorem SliceState.wakeOn_poison (x : SliceState) (f : Nat) : (x.wakeOn f).poison = x.poison := rfl
@[simp] theorem SliceState.wakeOn_flags (x : SliceState) (f : Nat) : (x.wakeOn f).flags = x.flags := rfl
@[simp] theorem SliceState.wakeOn_flagsAt (x : SliceState) (f : Nat) : (x.wakeOn f).flagsAt = x.flagsAt := rfl
@[simp] theorem SliceState.wakeOn_toClear (x : SliceState) (f : Nat) : (x.wakeOn f).toClear = x.toClear := rfl
@[simp] theorem SliceState.wakeOn_runs (x : SliceState) (f : Nat) : (x.wakeOn f).runs = x.runs := rfl
@[simp] theorem SliceState.wakeOn_routing (x : SliceState) (f : Nat) : (x.wakeOn f).routing = x.routing := rfl
@[simp] theorem SliceState.wakeOn_exch (x : SliceState) (f : Nat) : (x.wakeOn f).exch = x.exch := rfl
@[simp] theorem SliceState.wakeOn_arr (x : SliceState) (f : Nat) : (x.wakeOn f).arr = x.arr := rfl
@[simp] theorem SliceState.wakeOn_tiers (x : SliceState) (f : Nat) : (x.wakeOn f).tiers = x.tiers := rfl
@[simp] theorem SliceState.wakeOn_pools (x : SliceState) (f : Nat) : (x.wakeOn f).pools = x.pools := rfl
@[simp] theorem SliceState.wakeOn_ports (x : SliceState) (f : Nat) : (x.wakeOn f).ports = x.ports := rfl
@[simp] theorem SliceState.wakeOn_ilinks (x : SliceState) (f : Nat) : (x.wakeOn f).ilinks = x.ilinks := rfl
@[simp] theorem SliceState.wakeOn_fabric (x : SliceState) (f : Nat) : (x.wakeOn f).fabric = x.fabric := rfl
@[simp] theorem SliceState.wakeOn_remote (x : SliceState) (f : Nat) : (x.wakeOn f).remote = x.remote := rfl
@[simp] theorem SliceState.wakeOn_coll (x : SliceState) (f : Nat) : (x.wakeOn f).coll = x.coll := rfl
@[simp] theorem SliceState.wakeOn_svc (x : SliceState) (f : Nat) : (x.wakeOn f).svc = x.svc := rfl
@[simp] theorem SliceState.wakeOn_err (x : SliceState) (f : Nat) : (x.wakeOn f).err = x.err := rfl
@[simp] theorem SliceState.wakeOn_spares (x : SliceState) (f : Nat) : (x.wakeOn f).spares = x.spares := rfl
@[simp] theorem SliceState.wakeOn_power (x : SliceState) (f : Nat) : (x.wakeOn f).power = x.power := rfl
@[simp] theorem SliceState.wakeOn_sump (x : SliceState) (f : Nat) : (x.wakeOn f).sump = x.sump := rfl
@[simp] theorem SliceState.wakeOn_life (x : SliceState) (f : Nat) : (x.wakeOn f).life = x.life := rfl
@[simp] theorem SliceState.setFlag_present (x : SliceState) (f : Nat) : (x.setFlag f).present = x.present := by unfold SliceState.setFlag; split <;> rfl
@[simp] theorem SliceState.setFlag_mem (x : SliceState) (f : Nat) : (x.setFlag f).mem = x.mem := by unfold SliceState.setFlag; split <;> rfl
@[simp] theorem SliceState.setFlag_poison (x : SliceState) (f : Nat) : (x.setFlag f).poison = x.poison := by unfold SliceState.setFlag; split <;> rfl
@[simp] theorem SliceState.setFlag_flagsAt (x : SliceState) (f : Nat) : (x.setFlag f).flagsAt = x.flagsAt := by unfold SliceState.setFlag; split <;> rfl
@[simp] theorem SliceState.setFlag_toClear (x : SliceState) (f : Nat) : (x.setFlag f).toClear = x.toClear := by unfold SliceState.setFlag; split <;> rfl
@[simp] theorem SliceState.setFlag_runs (x : SliceState) (f : Nat) : (x.setFlag f).runs = x.runs := by unfold SliceState.setFlag; split <;> rfl
@[simp] theorem SliceState.setFlag_routing (x : SliceState) (f : Nat) : (x.setFlag f).routing = x.routing := by unfold SliceState.setFlag; split <;> rfl
@[simp] theorem SliceState.setFlag_exch (x : SliceState) (f : Nat) : (x.setFlag f).exch = x.exch := by unfold SliceState.setFlag; split <;> rfl
@[simp] theorem SliceState.setFlag_arr (x : SliceState) (f : Nat) : (x.setFlag f).arr = x.arr := by unfold SliceState.setFlag; split <;> rfl
@[simp] theorem SliceState.setFlag_tiers (x : SliceState) (f : Nat) : (x.setFlag f).tiers = x.tiers := by unfold SliceState.setFlag; split <;> rfl
@[simp] theorem SliceState.setFlag_pools (x : SliceState) (f : Nat) : (x.setFlag f).pools = x.pools := by unfold SliceState.setFlag; split <;> rfl
@[simp] theorem SliceState.setFlag_ports (x : SliceState) (f : Nat) : (x.setFlag f).ports = x.ports := by unfold SliceState.setFlag; split <;> rfl
@[simp] theorem SliceState.setFlag_ilinks (x : SliceState) (f : Nat) : (x.setFlag f).ilinks = x.ilinks := by unfold SliceState.setFlag; split <;> rfl
@[simp] theorem SliceState.setFlag_fabric (x : SliceState) (f : Nat) : (x.setFlag f).fabric = x.fabric := by unfold SliceState.setFlag; split <;> rfl
@[simp] theorem SliceState.setFlag_remote (x : SliceState) (f : Nat) : (x.setFlag f).remote = x.remote := by unfold SliceState.setFlag; split <;> rfl
@[simp] theorem SliceState.setFlag_coll (x : SliceState) (f : Nat) : (x.setFlag f).coll = x.coll := by unfold SliceState.setFlag; split <;> rfl
@[simp] theorem SliceState.setFlag_svc (x : SliceState) (f : Nat) : (x.setFlag f).svc = x.svc := by unfold SliceState.setFlag; split <;> rfl
@[simp] theorem SliceState.setFlag_err (x : SliceState) (f : Nat) : (x.setFlag f).err = x.err := by unfold SliceState.setFlag; split <;> rfl
@[simp] theorem SliceState.setFlag_spares (x : SliceState) (f : Nat) : (x.setFlag f).spares = x.spares := by unfold SliceState.setFlag; split <;> rfl
@[simp] theorem SliceState.setFlag_power (x : SliceState) (f : Nat) : (x.setFlag f).power = x.power := by unfold SliceState.setFlag; split <;> rfl
@[simp] theorem SliceState.setFlag_sump (x : SliceState) (f : Nat) : (x.setFlag f).sump = x.sump := by unfold SliceState.setFlag; split <;> rfl
@[simp] theorem SliceState.setFlag_life (x : SliceState) (f : Nat) : (x.setFlag f).life = x.life := by unfold SliceState.setFlag; split <;> rfl
@[simp] theorem SliceState.clearFlag_present (x : SliceState) (f : Nat) : (x.clearFlag f).present = x.present := rfl
@[simp] theorem SliceState.clearFlag_mem (x : SliceState) (f : Nat) : (x.clearFlag f).mem = x.mem := rfl
@[simp] theorem SliceState.clearFlag_poison (x : SliceState) (f : Nat) : (x.clearFlag f).poison = x.poison := rfl
@[simp] theorem SliceState.clearFlag_runs (x : SliceState) (f : Nat) : (x.clearFlag f).runs = x.runs := rfl
@[simp] theorem SliceState.clearFlag_engines (x : SliceState) (f : Nat) : (x.clearFlag f).engines = x.engines := rfl
@[simp] theorem SliceState.clearFlag_routing (x : SliceState) (f : Nat) : (x.clearFlag f).routing = x.routing := rfl
@[simp] theorem SliceState.clearFlag_exch (x : SliceState) (f : Nat) : (x.clearFlag f).exch = x.exch := rfl
@[simp] theorem SliceState.clearFlag_quads (x : SliceState) (f : Nat) : (x.clearFlag f).quads = x.quads := rfl
@[simp] theorem SliceState.clearFlag_arr (x : SliceState) (f : Nat) : (x.clearFlag f).arr = x.arr := rfl
@[simp] theorem SliceState.clearFlag_tiers (x : SliceState) (f : Nat) : (x.clearFlag f).tiers = x.tiers := rfl
@[simp] theorem SliceState.clearFlag_pools (x : SliceState) (f : Nat) : (x.clearFlag f).pools = x.pools := rfl
@[simp] theorem SliceState.clearFlag_ports (x : SliceState) (f : Nat) : (x.clearFlag f).ports = x.ports := rfl
@[simp] theorem SliceState.clearFlag_ilinks (x : SliceState) (f : Nat) : (x.clearFlag f).ilinks = x.ilinks := rfl
@[simp] theorem SliceState.clearFlag_fabric (x : SliceState) (f : Nat) : (x.clearFlag f).fabric = x.fabric := rfl
@[simp] theorem SliceState.clearFlag_remote (x : SliceState) (f : Nat) : (x.clearFlag f).remote = x.remote := rfl
@[simp] theorem SliceState.clearFlag_coll (x : SliceState) (f : Nat) : (x.clearFlag f).coll = x.coll := rfl
@[simp] theorem SliceState.clearFlag_svc (x : SliceState) (f : Nat) : (x.clearFlag f).svc = x.svc := rfl
@[simp] theorem SliceState.clearFlag_err (x : SliceState) (f : Nat) : (x.clearFlag f).err = x.err := rfl
@[simp] theorem SliceState.clearFlag_spares (x : SliceState) (f : Nat) : (x.clearFlag f).spares = x.spares := rfl
@[simp] theorem SliceState.clearFlag_power (x : SliceState) (f : Nat) : (x.clearFlag f).power = x.power := rfl
@[simp] theorem SliceState.clearFlag_sump (x : SliceState) (f : Nat) : (x.clearFlag f).sump = x.sump := rfl
@[simp] theorem SliceState.clearFlag_life (x : SliceState) (f : Nat) : (x.clearFlag f).life = x.life := rfl
@[simp] theorem SliceState.setRowmap_present (x : SliceState) (m : List RowEntry) : (x.setRowmap m).present = x.present := rfl
@[simp] theorem SliceState.setRowmap_flags (x : SliceState) (m : List RowEntry) : (x.setRowmap m).flags = x.flags := rfl
@[simp] theorem SliceState.setRowmap_flagsAt (x : SliceState) (m : List RowEntry) : (x.setRowmap m).flagsAt = x.flagsAt := rfl
@[simp] theorem SliceState.setRowmap_toClear (x : SliceState) (m : List RowEntry) : (x.setRowmap m).toClear = x.toClear := rfl
@[simp] theorem SliceState.setRowmap_runs (x : SliceState) (m : List RowEntry) : (x.setRowmap m).runs = x.runs := rfl
@[simp] theorem SliceState.setRowmap_engines (x : SliceState) (m : List RowEntry) : (x.setRowmap m).engines = x.engines := rfl
@[simp] theorem SliceState.setRowmap_routing (x : SliceState) (m : List RowEntry) : (x.setRowmap m).routing = x.routing := rfl
@[simp] theorem SliceState.setRowmap_exch (x : SliceState) (m : List RowEntry) : (x.setRowmap m).exch = x.exch := rfl
@[simp] theorem SliceState.setRowmap_quads (x : SliceState) (m : List RowEntry) : (x.setRowmap m).quads = x.quads := rfl
@[simp] theorem SliceState.setRowmap_arr (x : SliceState) (m : List RowEntry) : (x.setRowmap m).arr = x.arr := rfl
@[simp] theorem SliceState.setRowmap_tiers (x : SliceState) (m : List RowEntry) : (x.setRowmap m).tiers = x.tiers := rfl
@[simp] theorem SliceState.setRowmap_pools (x : SliceState) (m : List RowEntry) : (x.setRowmap m).pools = x.pools := rfl
@[simp] theorem SliceState.setRowmap_ports (x : SliceState) (m : List RowEntry) : (x.setRowmap m).ports = x.ports := rfl
@[simp] theorem SliceState.setRowmap_ilinks (x : SliceState) (m : List RowEntry) : (x.setRowmap m).ilinks = x.ilinks := rfl
@[simp] theorem SliceState.setRowmap_fabric (x : SliceState) (m : List RowEntry) : (x.setRowmap m).fabric = x.fabric := rfl
@[simp] theorem SliceState.setRowmap_remote (x : SliceState) (m : List RowEntry) : (x.setRowmap m).remote = x.remote := rfl
@[simp] theorem SliceState.setRowmap_coll (x : SliceState) (m : List RowEntry) : (x.setRowmap m).coll = x.coll := rfl
@[simp] theorem SliceState.setRowmap_err (x : SliceState) (m : List RowEntry) : (x.setRowmap m).err = x.err := rfl
@[simp] theorem SliceState.setRowmap_spares (x : SliceState) (m : List RowEntry) : (x.setRowmap m).spares = x.spares := rfl
@[simp] theorem SliceState.setRowmap_power (x : SliceState) (m : List RowEntry) : (x.setRowmap m).power = x.power := rfl
@[simp] theorem SliceState.setRowmap_sump (x : SliceState) (m : List RowEntry) : (x.setRowmap m).sump = x.sump := rfl
@[simp] theorem SliceState.setRowmap_life (x : SliceState) (m : List RowEntry) : (x.setRowmap m).life = x.life := rfl
@[simp] theorem SliceState.onReqs_present (x : SliceState) (f : Request → Request) : (x.onReqs f).present = x.present := rfl
@[simp] theorem SliceState.onReqs_mem (x : SliceState) (f : Request → Request) : (x.onReqs f).mem = x.mem := rfl
@[simp] theorem SliceState.onReqs_poison (x : SliceState) (f : Request → Request) : (x.onReqs f).poison = x.poison := rfl
@[simp] theorem SliceState.onReqs_flags (x : SliceState) (f : Request → Request) : (x.onReqs f).flags = x.flags := rfl
@[simp] theorem SliceState.onReqs_flagsAt (x : SliceState) (f : Request → Request) : (x.onReqs f).flagsAt = x.flagsAt := rfl
@[simp] theorem SliceState.onReqs_toClear (x : SliceState) (f : Request → Request) : (x.onReqs f).toClear = x.toClear := rfl
@[simp] theorem SliceState.onReqs_runs (x : SliceState) (f : Request → Request) : (x.onReqs f).runs = x.runs := rfl
@[simp] theorem SliceState.onReqs_engines (x : SliceState) (f : Request → Request) : (x.onReqs f).engines = x.engines := rfl
@[simp] theorem SliceState.onReqs_routing (x : SliceState) (f : Request → Request) : (x.onReqs f).routing = x.routing := rfl
@[simp] theorem SliceState.onReqs_exch (x : SliceState) (f : Request → Request) : (x.onReqs f).exch = x.exch := rfl
@[simp] theorem SliceState.onReqs_quads (x : SliceState) (f : Request → Request) : (x.onReqs f).quads = x.quads := rfl
@[simp] theorem SliceState.onReqs_arr (x : SliceState) (f : Request → Request) : (x.onReqs f).arr = x.arr := rfl
@[simp] theorem SliceState.onReqs_tiers (x : SliceState) (f : Request → Request) : (x.onReqs f).tiers = x.tiers := rfl
@[simp] theorem SliceState.onReqs_pools (x : SliceState) (f : Request → Request) : (x.onReqs f).pools = x.pools := rfl
@[simp] theorem SliceState.onReqs_ports (x : SliceState) (f : Request → Request) : (x.onReqs f).ports = x.ports := rfl
@[simp] theorem SliceState.onReqs_ilinks (x : SliceState) (f : Request → Request) : (x.onReqs f).ilinks = x.ilinks := rfl
@[simp] theorem SliceState.onReqs_fabric (x : SliceState) (f : Request → Request) : (x.onReqs f).fabric = x.fabric := rfl
@[simp] theorem SliceState.onReqs_remote (x : SliceState) (f : Request → Request) : (x.onReqs f).remote = x.remote := rfl
@[simp] theorem SliceState.onReqs_coll (x : SliceState) (f : Request → Request) : (x.onReqs f).coll = x.coll := rfl
@[simp] theorem SliceState.onReqs_err (x : SliceState) (f : Request → Request) : (x.onReqs f).err = x.err := rfl
@[simp] theorem SliceState.onReqs_spares (x : SliceState) (f : Request → Request) : (x.onReqs f).spares = x.spares := rfl
@[simp] theorem SliceState.onReqs_power (x : SliceState) (f : Request → Request) : (x.onReqs f).power = x.power := rfl
@[simp] theorem SliceState.onReqs_sump (x : SliceState) (f : Request → Request) : (x.onReqs f).sump = x.sump := rfl
@[simp] theorem SliceState.onReqs_life (x : SliceState) (f : Request → Request) : (x.onReqs f).life = x.life := rfl
@[simp] theorem SliceState.onRuns_present (x : SliceState) (f : Run → Run) : (x.onRuns f).present = x.present := rfl
@[simp] theorem SliceState.onRuns_mem (x : SliceState) (f : Run → Run) : (x.onRuns f).mem = x.mem := rfl
@[simp] theorem SliceState.onRuns_poison (x : SliceState) (f : Run → Run) : (x.onRuns f).poison = x.poison := rfl
@[simp] theorem SliceState.onRuns_flags (x : SliceState) (f : Run → Run) : (x.onRuns f).flags = x.flags := rfl
@[simp] theorem SliceState.onRuns_flagsAt (x : SliceState) (f : Run → Run) : (x.onRuns f).flagsAt = x.flagsAt := rfl
@[simp] theorem SliceState.onRuns_toClear (x : SliceState) (f : Run → Run) : (x.onRuns f).toClear = x.toClear := rfl
@[simp] theorem SliceState.onRuns_engines (x : SliceState) (f : Run → Run) : (x.onRuns f).engines = x.engines := rfl
@[simp] theorem SliceState.onRuns_routing (x : SliceState) (f : Run → Run) : (x.onRuns f).routing = x.routing := rfl
@[simp] theorem SliceState.onRuns_exch (x : SliceState) (f : Run → Run) : (x.onRuns f).exch = x.exch := rfl
@[simp] theorem SliceState.onRuns_quads (x : SliceState) (f : Run → Run) : (x.onRuns f).quads = x.quads := rfl
@[simp] theorem SliceState.onRuns_arr (x : SliceState) (f : Run → Run) : (x.onRuns f).arr = x.arr := rfl
@[simp] theorem SliceState.onRuns_tiers (x : SliceState) (f : Run → Run) : (x.onRuns f).tiers = x.tiers := rfl
@[simp] theorem SliceState.onRuns_pools (x : SliceState) (f : Run → Run) : (x.onRuns f).pools = x.pools := rfl
@[simp] theorem SliceState.onRuns_ports (x : SliceState) (f : Run → Run) : (x.onRuns f).ports = x.ports := rfl
@[simp] theorem SliceState.onRuns_ilinks (x : SliceState) (f : Run → Run) : (x.onRuns f).ilinks = x.ilinks := rfl
@[simp] theorem SliceState.onRuns_fabric (x : SliceState) (f : Run → Run) : (x.onRuns f).fabric = x.fabric := rfl
@[simp] theorem SliceState.onRuns_remote (x : SliceState) (f : Run → Run) : (x.onRuns f).remote = x.remote := rfl
@[simp] theorem SliceState.onRuns_coll (x : SliceState) (f : Run → Run) : (x.onRuns f).coll = x.coll := rfl
@[simp] theorem SliceState.onRuns_svc (x : SliceState) (f : Run → Run) : (x.onRuns f).svc = x.svc := rfl
@[simp] theorem SliceState.onRuns_err (x : SliceState) (f : Run → Run) : (x.onRuns f).err = x.err := rfl
@[simp] theorem SliceState.onRuns_spares (x : SliceState) (f : Run → Run) : (x.onRuns f).spares = x.spares := rfl
@[simp] theorem SliceState.onRuns_power (x : SliceState) (f : Run → Run) : (x.onRuns f).power = x.power := rfl
@[simp] theorem SliceState.onRuns_sump (x : SliceState) (f : Run → Run) : (x.onRuns f).sump = x.sump := rfl
@[simp] theorem SliceState.onRuns_life (x : SliceState) (f : Run → Run) : (x.onRuns f).life = x.life := rfl
@[simp] theorem SliceState.settleRows_present (x : SliceState) (d : Drip) : (x.settleRows d).present = x.present := by unfold SliceState.settleRows; simp only []; split <;> rfl
@[simp] theorem SliceState.settleRows_flags (x : SliceState) (d : Drip) : (x.settleRows d).flags = x.flags := by unfold SliceState.settleRows; simp only []; split <;> rfl
@[simp] theorem SliceState.settleRows_flagsAt (x : SliceState) (d : Drip) : (x.settleRows d).flagsAt = x.flagsAt := by unfold SliceState.settleRows; simp only []; split <;> rfl
@[simp] theorem SliceState.settleRows_toClear (x : SliceState) (d : Drip) : (x.settleRows d).toClear = x.toClear := by unfold SliceState.settleRows; simp only []; split <;> rfl
@[simp] theorem SliceState.settleRows_runs (x : SliceState) (d : Drip) : (x.settleRows d).runs = x.runs := by unfold SliceState.settleRows; simp only []; split <;> rfl
@[simp] theorem SliceState.settleRows_engines (x : SliceState) (d : Drip) : (x.settleRows d).engines = x.engines := by unfold SliceState.settleRows; simp only []; split <;> rfl
@[simp] theorem SliceState.settleRows_routing (x : SliceState) (d : Drip) : (x.settleRows d).routing = x.routing := by unfold SliceState.settleRows; simp only []; split <;> rfl
@[simp] theorem SliceState.settleRows_exch (x : SliceState) (d : Drip) : (x.settleRows d).exch = x.exch := by unfold SliceState.settleRows; simp only []; split <;> rfl
@[simp] theorem SliceState.settleRows_quads (x : SliceState) (d : Drip) : (x.settleRows d).quads = x.quads := by unfold SliceState.settleRows; simp only []; split <;> rfl
@[simp] theorem SliceState.settleRows_arr (x : SliceState) (d : Drip) : (x.settleRows d).arr = x.arr := by unfold SliceState.settleRows; simp only []; split <;> rfl
@[simp] theorem SliceState.settleRows_tiers (x : SliceState) (d : Drip) : (x.settleRows d).tiers = x.tiers := by unfold SliceState.settleRows; simp only []; split <;> rfl
@[simp] theorem SliceState.settleRows_pools (x : SliceState) (d : Drip) : (x.settleRows d).pools = x.pools := by unfold SliceState.settleRows; simp only []; split <;> rfl
@[simp] theorem SliceState.settleRows_ports (x : SliceState) (d : Drip) : (x.settleRows d).ports = x.ports := by unfold SliceState.settleRows; simp only []; split <;> rfl
@[simp] theorem SliceState.settleRows_ilinks (x : SliceState) (d : Drip) : (x.settleRows d).ilinks = x.ilinks := by unfold SliceState.settleRows; simp only []; split <;> rfl
@[simp] theorem SliceState.settleRows_fabric (x : SliceState) (d : Drip) : (x.settleRows d).fabric = x.fabric := by unfold SliceState.settleRows; simp only []; split <;> rfl
@[simp] theorem SliceState.settleRows_remote (x : SliceState) (d : Drip) : (x.settleRows d).remote = x.remote := by unfold SliceState.settleRows; simp only []; split <;> rfl
@[simp] theorem SliceState.settleRows_coll (x : SliceState) (d : Drip) : (x.settleRows d).coll = x.coll := by unfold SliceState.settleRows; simp only []; split <;> rfl
@[simp] theorem SliceState.settleRows_err (x : SliceState) (d : Drip) : (x.settleRows d).err = x.err := by unfold SliceState.settleRows; simp only []; split <;> rfl
@[simp] theorem SliceState.settleRows_spares (x : SliceState) (d : Drip) : (x.settleRows d).spares = x.spares := by unfold SliceState.settleRows; simp only []; split <;> rfl
@[simp] theorem SliceState.settleRows_power (x : SliceState) (d : Drip) : (x.settleRows d).power = x.power := by unfold SliceState.settleRows; simp only []; split <;> rfl
@[simp] theorem SliceState.settleRows_sump (x : SliceState) (d : Drip) : (x.settleRows d).sump = x.sump := by unfold SliceState.settleRows; simp only []; split <;> rfl
@[simp] theorem SliceState.settleRows_life (x : SliceState) (d : Drip) : (x.settleRows d).life = x.life := by unfold SliceState.settleRows; simp only []; split <;> rfl
@[simp] theorem SliceState.onEngine_present (x : SliceState) (e : Nat) (f : Engine → Engine) : (x.onEngine e f).present = x.present := rfl
@[simp] theorem SliceState.onEngine_mem (x : SliceState) (e : Nat) (f : Engine → Engine) : (x.onEngine e f).mem = x.mem := rfl
@[simp] theorem SliceState.onEngine_poison (x : SliceState) (e : Nat) (f : Engine → Engine) : (x.onEngine e f).poison = x.poison := rfl
@[simp] theorem SliceState.onEngine_flags (x : SliceState) (e : Nat) (f : Engine → Engine) : (x.onEngine e f).flags = x.flags := rfl
@[simp] theorem SliceState.onEngine_flagsAt (x : SliceState) (e : Nat) (f : Engine → Engine) : (x.onEngine e f).flagsAt = x.flagsAt := rfl
@[simp] theorem SliceState.onEngine_toClear (x : SliceState) (e : Nat) (f : Engine → Engine) : (x.onEngine e f).toClear = x.toClear := rfl
@[simp] theorem SliceState.onEngine_runs (x : SliceState) (e : Nat) (f : Engine → Engine) : (x.onEngine e f).runs = x.runs := rfl
@[simp] theorem SliceState.onEngine_routing (x : SliceState) (e : Nat) (f : Engine → Engine) : (x.onEngine e f).routing = x.routing := rfl
@[simp] theorem SliceState.onEngine_exch (x : SliceState) (e : Nat) (f : Engine → Engine) : (x.onEngine e f).exch = x.exch := rfl
@[simp] theorem SliceState.onEngine_quads (x : SliceState) (e : Nat) (f : Engine → Engine) : (x.onEngine e f).quads = x.quads := rfl
@[simp] theorem SliceState.onEngine_arr (x : SliceState) (e : Nat) (f : Engine → Engine) : (x.onEngine e f).arr = x.arr := rfl
@[simp] theorem SliceState.onEngine_tiers (x : SliceState) (e : Nat) (f : Engine → Engine) : (x.onEngine e f).tiers = x.tiers := rfl
@[simp] theorem SliceState.onEngine_pools (x : SliceState) (e : Nat) (f : Engine → Engine) : (x.onEngine e f).pools = x.pools := rfl
@[simp] theorem SliceState.onEngine_ports (x : SliceState) (e : Nat) (f : Engine → Engine) : (x.onEngine e f).ports = x.ports := rfl
@[simp] theorem SliceState.onEngine_ilinks (x : SliceState) (e : Nat) (f : Engine → Engine) : (x.onEngine e f).ilinks = x.ilinks := rfl
@[simp] theorem SliceState.onEngine_fabric (x : SliceState) (e : Nat) (f : Engine → Engine) : (x.onEngine e f).fabric = x.fabric := rfl
@[simp] theorem SliceState.onEngine_remote (x : SliceState) (e : Nat) (f : Engine → Engine) : (x.onEngine e f).remote = x.remote := rfl
@[simp] theorem SliceState.onEngine_coll (x : SliceState) (e : Nat) (f : Engine → Engine) : (x.onEngine e f).coll = x.coll := rfl
@[simp] theorem SliceState.onEngine_svc (x : SliceState) (e : Nat) (f : Engine → Engine) : (x.onEngine e f).svc = x.svc := rfl
@[simp] theorem SliceState.onEngine_err (x : SliceState) (e : Nat) (f : Engine → Engine) : (x.onEngine e f).err = x.err := rfl
@[simp] theorem SliceState.onEngine_spares (x : SliceState) (e : Nat) (f : Engine → Engine) : (x.onEngine e f).spares = x.spares := rfl
@[simp] theorem SliceState.onEngine_power (x : SliceState) (e : Nat) (f : Engine → Engine) : (x.onEngine e f).power = x.power := rfl
@[simp] theorem SliceState.onEngine_sump (x : SliceState) (e : Nat) (f : Engine → Engine) : (x.onEngine e f).sump = x.sump := rfl
@[simp] theorem SliceState.onEngine_life (x : SliceState) (e : Nat) (f : Engine → Engine) : (x.onEngine e f).life = x.life := rfl
@[simp] theorem SliceState.onQuad_present (x : SliceState) (q : Nat) (f : Quad → Quad) : (x.onQuad q f).present = x.present := rfl
@[simp] theorem SliceState.onQuad_mem (x : SliceState) (q : Nat) (f : Quad → Quad) : (x.onQuad q f).mem = x.mem := rfl
@[simp] theorem SliceState.onQuad_poison (x : SliceState) (q : Nat) (f : Quad → Quad) : (x.onQuad q f).poison = x.poison := rfl
@[simp] theorem SliceState.onQuad_flags (x : SliceState) (q : Nat) (f : Quad → Quad) : (x.onQuad q f).flags = x.flags := rfl
@[simp] theorem SliceState.onQuad_flagsAt (x : SliceState) (q : Nat) (f : Quad → Quad) : (x.onQuad q f).flagsAt = x.flagsAt := rfl
@[simp] theorem SliceState.onQuad_toClear (x : SliceState) (q : Nat) (f : Quad → Quad) : (x.onQuad q f).toClear = x.toClear := rfl
@[simp] theorem SliceState.onQuad_runs (x : SliceState) (q : Nat) (f : Quad → Quad) : (x.onQuad q f).runs = x.runs := rfl
@[simp] theorem SliceState.onQuad_engines (x : SliceState) (q : Nat) (f : Quad → Quad) : (x.onQuad q f).engines = x.engines := rfl
@[simp] theorem SliceState.onQuad_routing (x : SliceState) (q : Nat) (f : Quad → Quad) : (x.onQuad q f).routing = x.routing := rfl
@[simp] theorem SliceState.onQuad_exch (x : SliceState) (q : Nat) (f : Quad → Quad) : (x.onQuad q f).exch = x.exch := rfl
@[simp] theorem SliceState.onQuad_arr (x : SliceState) (q : Nat) (f : Quad → Quad) : (x.onQuad q f).arr = x.arr := rfl
@[simp] theorem SliceState.onQuad_tiers (x : SliceState) (q : Nat) (f : Quad → Quad) : (x.onQuad q f).tiers = x.tiers := rfl
@[simp] theorem SliceState.onQuad_pools (x : SliceState) (q : Nat) (f : Quad → Quad) : (x.onQuad q f).pools = x.pools := rfl
@[simp] theorem SliceState.onQuad_ports (x : SliceState) (q : Nat) (f : Quad → Quad) : (x.onQuad q f).ports = x.ports := rfl
@[simp] theorem SliceState.onQuad_ilinks (x : SliceState) (q : Nat) (f : Quad → Quad) : (x.onQuad q f).ilinks = x.ilinks := rfl
@[simp] theorem SliceState.onQuad_fabric (x : SliceState) (q : Nat) (f : Quad → Quad) : (x.onQuad q f).fabric = x.fabric := rfl
@[simp] theorem SliceState.onQuad_remote (x : SliceState) (q : Nat) (f : Quad → Quad) : (x.onQuad q f).remote = x.remote := rfl
@[simp] theorem SliceState.onQuad_coll (x : SliceState) (q : Nat) (f : Quad → Quad) : (x.onQuad q f).coll = x.coll := rfl
@[simp] theorem SliceState.onQuad_svc (x : SliceState) (q : Nat) (f : Quad → Quad) : (x.onQuad q f).svc = x.svc := rfl
@[simp] theorem SliceState.onQuad_err (x : SliceState) (q : Nat) (f : Quad → Quad) : (x.onQuad q f).err = x.err := rfl
@[simp] theorem SliceState.onQuad_spares (x : SliceState) (q : Nat) (f : Quad → Quad) : (x.onQuad q f).spares = x.spares := rfl
@[simp] theorem SliceState.onQuad_power (x : SliceState) (q : Nat) (f : Quad → Quad) : (x.onQuad q f).power = x.power := rfl
@[simp] theorem SliceState.onQuad_sump (x : SliceState) (q : Nat) (f : Quad → Quad) : (x.onQuad q f).sump = x.sump := rfl
@[simp] theorem SliceState.onQuad_life (x : SliceState) (q : Nat) (f : Quad → Quad) : (x.onQuad q f).life = x.life := rfl
@[simp] theorem SliceState.onLink_present (x : SliceState) (l : LinkId) (f : Link → Link) : (x.onLink l f).present = x.present := by cases l <;> rfl
@[simp] theorem SliceState.onLink_mem (x : SliceState) (l : LinkId) (f : Link → Link) : (x.onLink l f).mem = x.mem := by cases l <;> rfl
@[simp] theorem SliceState.onLink_poison (x : SliceState) (l : LinkId) (f : Link → Link) : (x.onLink l f).poison = x.poison := by cases l <;> rfl
@[simp] theorem SliceState.onLink_flags (x : SliceState) (l : LinkId) (f : Link → Link) : (x.onLink l f).flags = x.flags := by cases l <;> rfl
@[simp] theorem SliceState.onLink_flagsAt (x : SliceState) (l : LinkId) (f : Link → Link) : (x.onLink l f).flagsAt = x.flagsAt := by cases l <;> rfl
@[simp] theorem SliceState.onLink_toClear (x : SliceState) (l : LinkId) (f : Link → Link) : (x.onLink l f).toClear = x.toClear := by cases l <;> rfl
@[simp] theorem SliceState.onLink_runs (x : SliceState) (l : LinkId) (f : Link → Link) : (x.onLink l f).runs = x.runs := by cases l <;> rfl
@[simp] theorem SliceState.onLink_engines (x : SliceState) (l : LinkId) (f : Link → Link) : (x.onLink l f).engines = x.engines := by cases l <;> rfl
@[simp] theorem SliceState.onLink_routing (x : SliceState) (l : LinkId) (f : Link → Link) : (x.onLink l f).routing = x.routing := by cases l <;> rfl
@[simp] theorem SliceState.onLink_exch (x : SliceState) (l : LinkId) (f : Link → Link) : (x.onLink l f).exch = x.exch := by cases l <;> rfl
@[simp] theorem SliceState.onLink_quads (x : SliceState) (l : LinkId) (f : Link → Link) : (x.onLink l f).quads = x.quads := by cases l <;> rfl
@[simp] theorem SliceState.onLink_arr (x : SliceState) (l : LinkId) (f : Link → Link) : (x.onLink l f).arr = x.arr := by cases l <;> rfl
@[simp] theorem SliceState.onLink_tiers (x : SliceState) (l : LinkId) (f : Link → Link) : (x.onLink l f).tiers = x.tiers := by cases l <;> rfl
@[simp] theorem SliceState.onLink_pools (x : SliceState) (l : LinkId) (f : Link → Link) : (x.onLink l f).pools = x.pools := by cases l <;> rfl
@[simp] theorem SliceState.onLink_fabric (x : SliceState) (l : LinkId) (f : Link → Link) : (x.onLink l f).fabric = x.fabric := by cases l <;> rfl
@[simp] theorem SliceState.onLink_remote (x : SliceState) (l : LinkId) (f : Link → Link) : (x.onLink l f).remote = x.remote := by cases l <;> rfl
@[simp] theorem SliceState.onLink_coll (x : SliceState) (l : LinkId) (f : Link → Link) : (x.onLink l f).coll = x.coll := by cases l <;> rfl
@[simp] theorem SliceState.onLink_svc (x : SliceState) (l : LinkId) (f : Link → Link) : (x.onLink l f).svc = x.svc := by cases l <;> rfl
@[simp] theorem SliceState.onLink_err (x : SliceState) (l : LinkId) (f : Link → Link) : (x.onLink l f).err = x.err := by cases l <;> rfl
@[simp] theorem SliceState.onLink_spares (x : SliceState) (l : LinkId) (f : Link → Link) : (x.onLink l f).spares = x.spares := by cases l <;> rfl
@[simp] theorem SliceState.onLink_power (x : SliceState) (l : LinkId) (f : Link → Link) : (x.onLink l f).power = x.power := by cases l <;> rfl
@[simp] theorem SliceState.onLink_sump (x : SliceState) (l : LinkId) (f : Link → Link) : (x.onLink l f).sump = x.sump := by cases l <;> rfl
@[simp] theorem SliceState.onLink_life (x : SliceState) (l : LinkId) (f : Link → Link) : (x.onLink l f).life = x.life := by cases l <;> rfl
@[simp] theorem SliceState.onReqs_load (x : SliceState) (a n : Nat) (f : Request → Request) : (x.onReqs f).load a n = x.load a n := rfl

/-! ### Threads and quads -/

@[simp] theorem SliceState.onEngine_engine (x : SliceState) {e : Nat} (f : Engine → Engine) (he : e < x.engines.length) :
    (x.onEngine e f).engine e = f (x.engine e) := by simp [SliceState.onEngine, SliceState.engine, List.getD, he]

@[simp] theorem SliceState.onEngine_engine_of_ne (x : SliceState) {e k : Nat} (f : Engine → Engine) (h : k ≠ e) :
    (x.onEngine e f).engine k = x.engine k := by
  simp [SliceState.onEngine, SliceState.engine, List.getD, Ne.symm h]

@[simp] theorem Engine.onThread_thread (g : Engine) {t : Nat} (f : Thread → Thread) (ht : t < g.threads.length) :
    (g.onThread t f).thread t = f (g.thread t) := by simp [Engine.onThread, Engine.thread, List.getD, ht]

@[simp] theorem Engine.onThread_thread_of_ne (g : Engine) {t k : Nat} (f : Thread → Thread) (h : k ≠ t) :
    (g.onThread t f).thread k = g.thread k := by
  simp [Engine.onThread, Engine.thread, List.getD, Ne.symm h]

@[simp] theorem SliceState.onQuad_quad (x : SliceState) {q : Nat} (f : Quad → Quad) (hq : q < x.quads.length) :
    (x.onQuad q f).quad q = f (x.quad q) := by simp [SliceState.onQuad, SliceState.quad, List.getD, hq]

@[simp] theorem SliceState.onQuad_quad_of_ne (x : SliceState) {q k : Nat} (f : Quad → Quad) (h : k ≠ q) :
    (x.onQuad q f).quad k = x.quad k := by
  simp [SliceState.onQuad, SliceState.quad, List.getD, Ne.symm h]

@[simp] theorem Quad.onArray_array (k : Quad) {a : Nat} (f : Array → Array) (ha : a < k.arrays.length) :
    (k.onArray a f).array a = f (k.array a) := by simp [Quad.onArray, Quad.array, List.getD, ha]

@[simp] theorem Quad.onArray_array_of_ne (k : Quad) {a b : Nat} (f : Array → Array) (h : b ≠ a) :
    (k.onArray a f).array b = k.array b := by simp [Quad.onArray, Quad.array, List.getD, Ne.symm h]

/-- Register 0 reads 0 whatever is written to it (R93). -/
@[simp] theorem Thread.reg_zero (h : Thread) : h.reg 0 = 0 := rfl
@[simp] theorem Thread.setReg_zero (h : Thread) (v : Word) : h.setReg 0 v = h := rfl

/-- A register written reads back (R93). -/
theorem Thread.reg_setReg (h : Thread) {n : Nat} (v : Word) (h0 : n ≠ 0) (hn : n < h.g.length) : (h.setReg n v).reg n = v := by
  simp [Thread.reg, Thread.setReg, h0, List.getD, hn]

/-- A write leaves every other register alone (R93). -/
theorem Thread.reg_setReg_of_ne (h : Thread) {n m : Nat} (v : Word) (hm : m ≠ n) : (h.setReg n v).reg m = h.reg m := by
  by_cases h0 : n = 0
  · simp [Thread.setReg, h0]
  · simp [Thread.reg, Thread.setReg, h0, List.getD, Ne.symm hm]

/-- Predicate 0 reads 1 (R93). -/
@[simp] theorem Thread.pred_zero (h : Thread) : h.pred 0 = true := rfl
@[simp] theorem Thread.setPred_zero (h : Thread) (v : Bool) : h.setPred 0 v = h := rfl

/-- A predicate written reads back (R93). -/
theorem Thread.pred_setPred (h : Thread) {n : Nat} (v : Bool) (h0 : n ≠ 0) (hn : n < h.p.length) : (h.setPred n v).pred n = v := by
  simp [Thread.pred, Thread.setPred, h0, List.getD, hn]

/-- Register 0 of a quad reads 0 whatever is written to it (R168). -/
@[simp] theorem Quad.reg_zero (k : Quad) : k.reg 0 = 0 := rfl
@[simp] theorem Quad.setReg_zero (k : Quad) (v : Word) : k.setReg 0 v = k := rfl

/-- A quad register written reads back (R168). -/
theorem Quad.reg_setReg (k : Quad) {n : Nat} (v : Word) (h0 : n ≠ 0) (hn : n < k.q.length) : (k.setReg n v).reg n = v := by
  simp [Quad.reg, Quad.setReg, h0, List.getD, hn]

/-- Changes of one thread or one quad are changes of its slice. -/
theorem State.onThread_eq (s : State) (sl e t : Nat) (f : Thread → Thread) : s.onThread sl e t f = s.onSl sl fun x => x.onThread e t f := rfl
theorem State.onQuad_eq (s : State) (sl q : Nat) (f : Quad → Quad) : s.onQuad sl q f = s.onSl sl fun x => x.onQuad q f := rfl
theorem State.onLink_eq (s : State) (sl : Nat) (l : LinkId) (f : Link → Link) : s.onLink sl l f = s.onSl sl fun x => x.onLink l f := rfl
theorem State.onSvc_eq (s : State) (sl : Nat) (f : Service → Service) :
    s.onSvc sl f = s.onSl sl fun x => { x with svc := f x.svc } := rfl

/-! ### The end of a stage (R32, R534) -/

@[simp] theorem SliceState.endRun_mem (x : SliceState) (u : Run) (st : RunState) : (x.endRun u st).mem = x.mem := rfl
@[simp] theorem SliceState.endRun_poison (x : SliceState) (u : Run) (st : RunState) : (x.endRun u st).poison = x.poison := rfl
@[simp] theorem SliceState.endRun_present (x : SliceState) (u : Run) (st : RunState) : (x.endRun u st).present = x.present := rfl
@[simp] theorem SliceState.endRun_flags (x : SliceState) (u : Run) (st : RunState) : (x.endRun u st).flags = x.flags := rfl
@[simp] theorem SliceState.endRun_flagsAt (x : SliceState) (u : Run) (st : RunState) : (x.endRun u st).flagsAt = x.flagsAt := rfl
@[simp] theorem SliceState.endRun_engines (x : SliceState) (u : Run) (st : RunState) : (x.endRun u st).engines = x.engines := rfl
@[simp] theorem SliceState.endRun_routing (x : SliceState) (u : Run) (st : RunState) : (x.endRun u st).routing = x.routing := rfl
@[simp] theorem SliceState.endRun_exch (x : SliceState) (u : Run) (st : RunState) : (x.endRun u st).exch = x.exch := rfl
@[simp] theorem SliceState.endRun_quads (x : SliceState) (u : Run) (st : RunState) : (x.endRun u st).quads = x.quads := rfl
@[simp] theorem SliceState.endRun_arr (x : SliceState) (u : Run) (st : RunState) : (x.endRun u st).arr = x.arr := rfl
@[simp] theorem SliceState.endRun_tiers (x : SliceState) (u : Run) (st : RunState) : (x.endRun u st).tiers = x.tiers := rfl
@[simp] theorem SliceState.endRun_pools (x : SliceState) (u : Run) (st : RunState) : (x.endRun u st).pools = x.pools := rfl
@[simp] theorem SliceState.endRun_ports (x : SliceState) (u : Run) (st : RunState) : (x.endRun u st).ports = x.ports := rfl
@[simp] theorem SliceState.endRun_ilinks (x : SliceState) (u : Run) (st : RunState) : (x.endRun u st).ilinks = x.ilinks := rfl
@[simp] theorem SliceState.endRun_fabric (x : SliceState) (u : Run) (st : RunState) : (x.endRun u st).fabric = x.fabric := rfl
@[simp] theorem SliceState.endRun_remote (x : SliceState) (u : Run) (st : RunState) : (x.endRun u st).remote = x.remote := rfl
@[simp] theorem SliceState.endRun_coll (x : SliceState) (u : Run) (st : RunState) : (x.endRun u st).coll = x.coll := rfl
@[simp] theorem SliceState.endRun_svc (x : SliceState) (u : Run) (st : RunState) : (x.endRun u st).svc = x.svc := rfl
@[simp] theorem SliceState.endRun_err (x : SliceState) (u : Run) (st : RunState) : (x.endRun u st).err = x.err := rfl
@[simp] theorem SliceState.endRun_spares (x : SliceState) (u : Run) (st : RunState) : (x.endRun u st).spares = x.spares := rfl
@[simp] theorem SliceState.endRun_power (x : SliceState) (u : Run) (st : RunState) : (x.endRun u st).power = x.power := rfl
@[simp] theorem SliceState.endRun_sump (x : SliceState) (u : Run) (st : RunState) : (x.endRun u st).sump = x.sump := rfl
@[simp] theorem SliceState.endRun_life (x : SliceState) (u : Run) (st : RunState) : (x.endRun u st).life = x.life := rfl
@[simp] theorem SliceState.endRun_toClear (x : SliceState) (u : Run) (st : RunState) :
    (x.endRun u st).toClear = x.toClear ++ x.clearedBy u := rfl

end Sys2Proof.Machine
end

