-- ==== Sys2Proof/Laws/Shape.lean ====
section
/-! SUPPORT. What keeps the shape of the device and the queue of waiting commands: one lemma for each shared operation, and the
rules by which they combine. -/

namespace Sys2Proof.Machine

/-- The queue is as before, and the shape is kept. -/
def State.Keeps (s t : State) : Prop := t.pending = s.pending ∧ (s.Inv → t.Inv)

theorem State.Keeps.refl (s : State) : s.Keeps s := ⟨rfl, id⟩

theorem State.Keeps.trans {s t u : State} (a : s.Keeps t) (b : t.Keeps u) : s.Keeps u := ⟨b.1.trans a.1, fun h => b.2 (a.2 h)⟩

/-- A choice between two kept states is kept. -/
theorem State.Keeps.ite {s t u : State} {p : Prop} [Decidable p] (a : s.Keeps t) (b : s.Keeps u) : s.Keeps (if p then t else u) := by
  split <;> assumption

/-- A fold of steps that each keep the shape keeps it. -/
theorem State.Keeps.foldl {α : Type} {f : State → α → State} (h : ∀ (s : State) (x : α), s.Keeps (f s x)) (l : List α) (s : State) :
    s.Keeps (l.foldl f s) := by
  induction l generalizing s with
  | nil => exact .refl s
  | cons x l ih => exact (h s x).trans (ih _)

theorem State.Keeps.eachSlice {f : State → Nat → State} (h : ∀ (s : State) (i : Nat), s.Keeps (f s i)) (s : State) : s.Keeps (s.eachSlice f) :=
  .foldl h _ s

/-- A state with the same slices, queue and numbers of rings, channels, measurement registers and functions. -/
theorem State.Keeps.of_eq {s t : State} (hp : t.pending = s.pending) (hs : t.slices = s.slices) (hr : t.host.rings.length = s.host.rings.length)
    (hc : t.host.chans.length = s.host.chans.length) (hm : t.sec.mr.length = s.sec.mr.length) (hl : t.dict.life.length = s.dict.life.length) :
    s.Keeps t := by
  refine ⟨hp, fun h => ?_⟩
  unfold State.Inv at h ⊢
  rw [hs, hr, hc, hm, hl]
  exact h

/-- A slice of a state with the shape has the shape. -/
theorem State.Inv.sl {s : State} (h : s.Inv) {i : Nat} (hi : i < 8) : (s.sl i).ok :=
  h.1.2 _ (s.sl_mem (by rw [h.1.1]; exact hi))

/-- A change of a list's element that keeps a property of all keeps it. -/
theorem forall_mem_modify {α : Type} {p : α → Prop} {f : α → α} {l : List α} (i : Nat) (h : ∀ x ∈ l, p x) (hf : ∀ x, p x → p (f x)) :
    ∀ x ∈ l.modify i f, p x := by
  induction l generalizing i with
  | nil => simp
  | cons a l ih =>
    cases i with
    | zero => simp only [List.modify_zero_cons, List.mem_cons, forall_eq_or_imp] at h ⊢; exact ⟨hf _ h.1, h.2⟩
    | succ i => simp only [List.modify_succ_cons, List.mem_cons, forall_eq_or_imp] at h ⊢; exact ⟨h.1, ih i h.2⟩

/-- A change of one slice that keeps a slice's shape. -/
theorem State.Keeps.onSl (s : State) (i : Nat) {f : SliceState → SliceState} (hf : ∀ x, x.ok → (f x).ok) : s.Keeps (s.onSl i f) := by
  refine ⟨rfl, fun h => ⟨⟨by simpa using h.1.1, forall_mem_modify i h.1.2 hf⟩, h.2⟩⟩

/-- A change of every slice that keeps a slice's shape. -/
theorem State.Keeps.onAll (s : State) {f : SliceState → SliceState} (hf : ∀ x, x.ok → (f x).ok) : s.Keeps (s.onAll f) := by
  refine ⟨rfl, fun h => ⟨⟨by simpa using h.1.1, ?_⟩, h.2⟩⟩
  intro x hx
  obtain ⟨y, hy, rfl⟩ := List.mem_map.1 hx
  exact hf y (h.1.2 y hy)

/-! ### Changes of a slice -/

/-- A slice with the same memory, engines, quads and links has the same shape. -/
theorem SliceState.ok.of_eq {x y : SliceState} (h : x.ok) (hm : y.mem = x.mem) (he : y.engines = x.engines) (hq : y.quads = x.quads)
    (hp : y.ports.length = x.ports.length) (hi : y.ilinks.length = x.ilinks.length) (hl : y.life.length = x.life.length) : y.ok := by
  unfold SliceState.ok at h ⊢
  rw [hm, he, hq, hp, hi, hl]
  exact h

theorem SliceState.ok.store {x : SliceState} (h : x.ok) (a : Nat) (b : Bytes) : (x.store a b).ok :=
  ⟨SliceState.store_wf h.1 a b, h.2⟩

theorem SliceState.ok.poisonRange {x : SliceState} (h : x.ok) (a n : Nat) : (x.poisonRange a n).ok := h

theorem SliceState.ok.clearFlag {x : SliceState} (h : x.ok) (f : Nat) : (x.clearFlag f).ok := h

theorem SliceState.ok.onReqs {x : SliceState} (h : x.ok) (f : Request → Request) : (x.onReqs f).ok := h

theorem SliceState.ok.onRuns {x : SliceState} (h : x.ok) (f : Run → Run) : (x.onRuns f).ok := h

theorem SliceState.ok.setRun {x : SliceState} (h : x.ok) (u : Run) (f : Run → Run) : (x.setRun u f).ok := h

theorem SliceState.ok.setRowmap {x : SliceState} (h : x.ok) (m : List RowEntry) : (x.setRowmap m).ok := h.store _ _

theorem SliceState.ok.settleRows {x : SliceState} (h : x.ok) (d : Drip) : (x.settleRows d).ok := by
  unfold SliceState.settleRows
  dsimp only
  split
  · exact h
  · exact ((h.onReqs _).setRowmap _).of_eq rfl rfl rfl rfl rfl rfl

/-- A change of one engine that keeps an engine's shape. -/
theorem SliceState.ok.onEngine {x : SliceState} (h : x.ok) (e : Nat) {f : Engine → Engine} (hf : ∀ g, g.ok → (f g).ok) : (x.onEngine e f).ok :=
  ⟨h.1, ⟨by simpa [SliceState.onEngine] using h.2.1.1, forall_mem_modify e h.2.1.2 hf⟩, h.2.2⟩

/-- A change of one quad that keeps a quad's shape. -/
theorem SliceState.ok.onQuad {x : SliceState} (h : x.ok) (q : Nat) {f : Quad → Quad} (hf : ∀ k, k.ok → (f k).ok) : (x.onQuad q f).ok :=
  ⟨h.1, h.2.1, ⟨by simpa [SliceState.onQuad] using h.2.2.1.1, forall_mem_modify q h.2.2.1.2 hf⟩, h.2.2.2⟩

theorem SliceState.ok.onLink {x : SliceState} (h : x.ok) (l : LinkId) (f : Link → Link) : (x.onLink l f).ok := by
  cases l <;> exact h.of_eq rfl rfl rfl (by simp [SliceState.onLink]) (by simp [SliceState.onLink]) rfl

theorem SliceState.ok.wakeOn {x : SliceState} (h : x.ok) (f : Nat) : (x.wakeOn f).ok := by
  obtain ⟨hm, ⟨he, hg⟩, ⟨hq, hk⟩, hr⟩ := h
  refine ⟨hm, ⟨by simpa [SliceState.wakeOn] using he, ?_⟩, ⟨by simpa [SliceState.wakeOn] using hq, ?_⟩, hr⟩
  · intro g hg'
    obtain ⟨g0, h0, rfl⟩ := List.mem_map.1 hg'
    refine ⟨by simpa using (hg g0 h0).1, ?_⟩
    intro t ht
    obtain ⟨t0, h1, rfl⟩ := List.mem_map.1 ht
    split <;> exact (hg g0 h0).2 t0 h1
  · intro k hk'
    obtain ⟨k0, h0, rfl⟩ := List.mem_map.1 hk'
    split <;> exact hk k0 h0

theorem SliceState.ok.setFlag {x : SliceState} (h : x.ok) (f : Nat) : (x.setFlag f).ok := by
  unfold SliceState.setFlag
  split
  · exact h
  · exact (h.wakeOn f).of_eq rfl rfl rfl rfl rfl rfl

theorem SliceState.ok.setFlag? {x : SliceState} (h : x.ok) (f : Option Nat) : (x.setFlag? f).ok := by
  cases f with
  | none => exact h
  | some f => exact h.setFlag f

/-- A fold of changes that each keep a slice's shape keeps it. -/
theorem SliceState.ok.foldl {α : Type} {f : SliceState → α → SliceState} (hf : ∀ x a, x.ok → (f x a).ok) (l : List α) {x : SliceState}
    (h : x.ok) : (l.foldl f x).ok := by
  induction l generalizing x with
  | nil => exact h
  | cons a l ih => exact ih (hf x a h)

theorem SliceState.ok.endRun {x : SliceState} (h : x.ok) (u : Run) (st : RunState) : (x.endRun u st).ok := h

theorem SliceState.ok.clearDue {x : SliceState} (h : x.ok) : x.clearDue.ok :=
  (SliceState.ok.foldl (fun _ f h => h.clearFlag f) x.toClear h).of_eq rfl rfl rfl rfl rfl rfl

theorem SliceState.ok.endRunNow {x : SliceState} (h : x.ok) (u : Run) (st : RunState) : (x.endRunNow u st).ok := (h.endRun u st).clearDue

theorem SliceState.ok.completeRun {x : SliceState} (h : x.ok) (u : Run) : (x.completeRun u).ok := (h.endRun u _).setFlag? _

/-! ### Changes of an engine and of a quad -/

theorem Engine.ok.onThread {g : Engine} (h : g.ok) (t : Nat) {f : Thread → Thread} (hf : ∀ k, k.ok → (f k).ok) : (g.onThread t f).ok :=
  ⟨by simpa [Engine.onThread] using h.1, forall_mem_modify t h.2 hf⟩

theorem Engine.ok.leave {g : Engine} (h : g.ok) (t : Nat) : (g.leave t).ok := by
  unfold Engine.leave
  split <;> exact h

theorem Thread.ok.copied {k : Thread} (h : k.ok) : k.copied.ok := by
  unfold Thread.copied
  split <;> exact h

theorem Engine.ok.take {g : Engine} (h : g.ok) (t : Nat) : (g.take t).ok := by
  refine Engine.ok.onThread (g := { g with running := some t, threads := g.threads.map Thread.copied }) ⟨by simpa using h.1, ?_⟩ t
    fun _ hk => hk
  intro k hk
  obtain ⟨k0, h0, rfl⟩ := List.mem_map.1 hk
  exact (h.2 k0 h0).copied

theorem Engine.ok.block {g : Engine} (h : g.ok) (t : Nat) (st : ThreadPhase) : (g.block t st).ok :=
  (h.onThread t (f := fun k => { k with st := st }) fun _ hk => hk).leave t

theorem Thread.ok.setReg {h : Thread} (hk : h.ok) (n : Nat) (v : Word) : (h.setReg n v).ok := by
  unfold Thread.setReg
  split
  · exact hk
  · exact ⟨by simpa using hk.1, hk.2⟩

theorem Thread.ok.setPred {h : Thread} (hk : h.ok) (n : Nat) (v : Bool) : (h.setPred n v).ok := by
  unfold Thread.setPred
  split
  · exact hk
  · exact ⟨hk.1, by simpa using hk.2⟩

theorem SliceState.ok.onThread {x : SliceState} (h : x.ok) (e t : Nat) {f : Thread → Thread} (hf : ∀ k, k.ok → (f k).ok) : (x.onThread e t f).ok :=
  h.onEngine e fun _ hg => hg.onThread t hf

theorem Quad.ok.setReg {k : Quad} (h : k.ok) (n : Nat) (v : Word) : (k.setReg n v).ok := by
  unfold Quad.setReg
  split
  · exact h
  · exact ⟨by simpa using h.1, h.2⟩

/-- A change of one array that keeps its slots. -/
theorem Quad.ok.onArray {k : Quad} (h : k.ok) (a : Nat) {f : Array → Array} (hf : ∀ y, y.slots.length = 8 → (f y).slots.length = 8) :
    (k.onArray a f).ok :=
  ⟨h.1, by simpa [Quad.onArray] using h.2.1, forall_mem_modify a h.2.2 hf⟩

theorem Quad.ok.onSlots {k : Quad} (h : k.ok) (f : AccSlot → AccSlot) : (k.onSlots f).ok := by
  refine ⟨h.1, by simpa [Quad.onSlots] using h.2.1, ?_⟩
  intro a ha
  obtain ⟨b, hb, rfl⟩ := List.mem_map.1 ha
  simpa using h.2.2 b hb

@[simp] theorem Array.onSlot_length (y : Array) (n : Nat) (f : AccSlot → AccSlot) : (y.onSlot n f).slots.length = y.slots.length := by
  simp [Array.onSlot]

/-- A thread that ends, stopped or halted, leaves the shape as it is. -/
theorem SliceState.ok.endThread {x : SliceState} (h : x.ok) (e t : Nat) (f : Issuer → Issuer) : (x.endThread e t f).ok :=
  (h.onEngine e (f := fun g =>
    let g1 := (g.onThread t fun h => { h with st := .idle, xstWait := false, drain := false, staged := false }).leave t
    { g1 with waits := g1.waits.filter fun w => w.thread != t }) fun _ hg =>
      (hg.onThread t (f := fun h => { h with st := .idle, xstWait := false, drain := false, staged := false }) fun _ hk => hk).leave t).of_eq
    rfl rfl rfl rfl rfl rfl

theorem SliceState.ok.stopThread {x : SliceState} (h : x.ok) (e t : Nat) : (x.stopThread e t).ok := h.endThread e t _

theorem SliceState.ok.haltThread {x : SliceState} (h : x.ok) (e t : Nat) : (x.haltThread e t).ok := h.endThread e t _

theorem SliceState.ok.tryCompletePhase {x : SliceState} (h : x.ok) (e t : Nat) : (x.tryCompletePhase e t).ok := by
  unfold SliceState.tryCompletePhase
  dsimp only
  split
  · split
    · exact h.completeRun _
    · exact h
  · exact h

theorem SliceState.ok.noComplete {x : SliceState} (h : x.ok) (u : Option Run) : (x.noComplete u).ok := by
  cases u with
  | none => exact h
  | some u => exact h.setRun u _

theorem SliceState.ok.startPhase {x : SliceState} (h : x.ok) (u : Run) (d : Drip) : (x.startPhase u d).ok := by
  unfold SliceState.startPhase
  split
  · exact h
  · refine SliceState.ok.foldl (fun y t hy => hy.onThread _ _ fun _ _ => ?_) _ h
    refine Thread.ok.setReg (Thread.ok.setReg (Thread.ok.setReg (Thread.ok.setReg ?_ _ _) _ _) _ _) _ _
    exact ⟨List.length_replicate .., List.length_replicate ..⟩

/-! ### Changes of the state -/

theorem State.Keeps.emit (s : State) (e : Emit) : s.Keeps (s.emit e) := .of_eq rfl rfl rfl rfl rfl rfl

theorem State.Keeps.onCtx (s : State) (c : Nat) (f : Ctx → Ctx) : s.Keeps (s.onCtx c f) := .of_eq rfl rfl rfl rfl rfl rfl

theorem State.Keeps.pushChan (s : State) (c : Nat) (j : DmaJob) : s.Keeps (s.pushChan c j) :=
  .of_eq rfl rfl rfl (by simp [State.pushChan]) rfl rfl

theorem State.Keeps.onRing (s : State) (r : Nat) (f : Ring → Ring) : s.Keeps (s.onRing r f) :=
  .of_eq rfl rfl (by simp [State.onRing]) rfl rfl rfl

theorem State.Keeps.extendMR (s : State) (n : Nat) (d : Bytes) : s.Keeps (s.extendMR n d) :=
  .of_eq rfl rfl rfl rfl (by simp [State.extendMR]) rfl

theorem State.Keeps.report (s : State) (i : Nat) (r : Report) : s.Keeps (s.report i r) :=
  .onSl s _ fun _ h => h.of_eq rfl rfl rfl rfl rfl rfl

theorem State.Keeps.endReqs (s : State) (i : Nat) (p : Request → Bool) (a b : Drip) (t : Status) (l : Nat) :
    s.Keeps (s.endReqs i p a b t l) := .onSl s _ fun _ h => (h.onReqs _).settleRows _

theorem State.Keeps.endNext (s : State) (i : Nat) (p : Request → Bool) (t : Status) (l : Nat) : s.Keeps (s.endNext i p t l) :=
  .endReqs ..

theorem State.Keeps.endCtxNext (s : State) (c : Nat) (t : Status) : s.Keeps (s.endCtxNext c t) :=
  .eachSlice (fun t i => .endNext t i _ _ _) s

theorem State.Keeps.endTied (s : State) (i : Nat) (u : Run) (a b : Drip) (t : Status) : s.Keeps (s.endTied i u a b t) := by
  unfold State.endTied
  split
  · exact .eachSlice (fun t i => .endReqs t i _ _ _ _ _) s
  · exact .endReqs ..

theorem State.Keeps.msix (s : State) (v : Nat) : s.Keeps (s.msix v) := by
  unfold State.msix
  split
  · exact .refl s
  · split
    · exact .of_eq rfl rfl rfl rfl rfl rfl
    · exact .pushChan ..

theorem State.Keeps.cause (s : State) (b : Nat) : s.Keeps (s.cause b) := by
  unfold State.cause
  have h : s.Keeps { s with host := { s.host with evtCause := s.host.evtCause ||| 2 ^ b } } := .of_eq rfl rfl rfl rfl rfl rfl
  exact .ite (h.trans (.msix _ _)) h

theorem State.Keeps.complete (s : State) (c : Completion) : s.Keeps (s.complete c) := by
  unfold State.complete
  refine .ite ?_ (.ite ((State.Keeps.onRing s _ _).trans (.cause _ _)) (.onRing ..))
  exact (State.Keeps.of_eq rfl rfl rfl rfl rfl rfl).trans (.report _ _ _)

theorem State.Keeps.completeCmd (s : State) (i : Nat) (c : Cmd) (t : Status) (r : Nat) (g : Option Nat) :
    s.Keeps (s.completeCmd i c t r g) := .complete ..

theorem State.Keeps.faultStage (s : State) (i : Nat) (u : Run) (t : Status) : s.Keeps (s.faultStage i u t) := by
  unfold State.faultStage
  exact .ite ((State.Keeps.endTied s i u _ _ t).trans (.of_eq rfl rfl rfl rfl rfl rfl)) (.endTied ..)

theorem State.Keeps.onThread (s : State) (i e t : Nat) {f : Thread → Thread} (hf : ∀ k, k.ok → (f k).ok) : s.Keeps (s.onThread i e t f) :=
  .onSl s i fun _ h => h.onThread e t hf

theorem State.Keeps.onQuad (s : State) (i q : Nat) {f : Quad → Quad} (hf : ∀ k, k.ok → (f k).ok) : s.Keeps (s.onQuad i q f) :=
  .onSl s i fun _ h => h.onQuad q hf

theorem State.Keeps.onLink (s : State) (i : Nat) (l : LinkId) (f : Link → Link) : s.Keeps (s.onLink i l f) :=
  .onSl s i fun _ h => h.onLink l f

theorem State.Keeps.onSvc (s : State) (i : Nat) (f : Service → Service) : s.Keeps (s.onSvc i f) :=
  .onSl s i fun _ h => h.of_eq rfl rfl rfl rfl rfl rfl

theorem State.Keeps.putReg (s : State) (i e t n : Nat) (v : Word) : s.Keeps (s.putReg i e t n v) := .onThread s i e t fun _ h => h.setReg n v

theorem State.Keeps.putPred (s : State) (i e t n : Nat) (v : Bool) : s.Keeps (s.putPred i e t n v) :=
  .onThread s i e t fun _ h => h.setPred n v

theorem State.Keeps.blockThread (s : State) (i e t : Nat) (st : ThreadPhase) : s.Keeps (s.blockThread i e t st) :=
  .onSl s i fun _ h => h.onEngine e fun _ hg => hg.block t st

theorem State.Keeps.endThreadWith (s : State) (i e t : Nat) (st : Status) : s.Keeps (s.endThreadWith i e t st) := by
  unfold State.endThreadWith
  dsimp only
  have h1 : s.Keeps (s.onSl i fun x => x.stopThread e t) := .onSl s i fun _ h => h.stopThread e t
  have h2 : ∀ u, s.Keeps ((s.onSl i fun x => x.stopThread e t).endTied i u s.now (s.now.plus 1) st) := fun u => h1.trans (.endTied ..)
  have h3 : ∀ v, s.Keeps v → s.Keeps ({ v with tears := v.tears ++ [((s.thread i e t).ctx, s.now.plus 1)] } : State) :=
    fun v h => h.trans (.of_eq rfl rfl rfl rfl rfl rfl)
  refine State.Keeps.ite (State.Keeps.trans (h3 _ ?_) (.onSl _ i fun _ h => h.noComplete _))
    (State.Keeps.trans ?_ (.onSl _ i fun _ h => h.tryCompletePhase e t))
  all_goals split
  all_goals first | exact h2 _ | exact h1

theorem State.Keeps.threadFault (s : State) (i e t c : Nat) : s.Keeps (s.threadFault i e t c) := by
  unfold State.threadFault
  dsimp only
  refine State.Keeps.trans ?_ (State.Keeps.endThreadWith _ i e t _)
  refine State.Keeps.trans (State.Keeps.report s i _) (State.Keeps.onSl _ i fun x h => ?_)
  exact h.of_eq rfl rfl rfl rfl rfl rfl

/-- An instruction of a thread keeps the shape if what it does beyond its issue keeps it. -/
theorem State.Keeps.issueThread (s : State) (i e t : Nat) (form : Form) {body : State → Thread → Nat → State}
    (hb : ∀ (s : State) (h : Thread) (w : Nat), s.Keeps (body s h w)) : s.Keeps (s.issueThread i e t form body) := by
  have h1 : s.Keeps (s.onSl i fun x => x.onEngine e fun g => (g.take t).onThread t fun k => { k with pc := k.pc + 1 }) :=
    .onSl s i fun _ h => h.onEngine e fun _ hg => (hg.take t).onThread t fun _ hk => hk
  unfold State.issueThread
  dsimp only
  exact .ite (.refl s) (.ite (.threadFault ..) (.ite (.ite (h1.trans (hb _ _ _)) h1) (.refl s)))

end Sys2Proof.Machine
end

