-- ==== Sys2Proof/Laws/Issue.lean ====
section
/-! SUPPORT. What the issue of an instruction, the launch of a stage, the writing of an entry and the owing of a completion can
do: one lemma for each of these shared operations. -/

namespace Sys2Proof.Machine

/-! ### Issue of a route program instruction -/

/-- An instruction whose guard holds acts on the state past its word. -/
theorem State.issueThread_runs {s : State} {sl : SliceId} {e : EngineId} {t : ThreadId} {w : Nat} {form : Form} {body : State → Thread → Nat → State}
    (h : s.Issues sl e t w) (hf : form w = true) (hg : (s.thread sl e t).guardHolds w = true) :
    s.issueThread sl e t form body = body (s.afterIssue sl e t id) (s.thread sl e t) w := by
  obtain ⟨h1, h2, h3, h4⟩ := h
  unfold State.issueThread
  dsimp only
  rw [if_neg, if_neg (by omega), h4, if_pos hf]
  · rw [show (((s.sl sl).engine e).thread t).guardHolds w = true from hg, if_pos rfl]
    rfl
  · simp only [Bool.or_eq_true, Bool.not_eq_true', Bool.and_eq_true, decide_eq_true_eq, beq_iff_eq]
    rintro (h | ⟨h5, h6⟩)
    · rw [h1] at h; cases h
    · have := h2 h5; omega

/-- An instruction whose guard is false only goes past its word (R96). -/
theorem State.issueThread_skips {s : State} {sl : SliceId} {e : EngineId} {t : ThreadId} {w : Nat} {form : Form} {body : State → Thread → Nat → State}
    (h : s.Issues sl e t w) (hf : form w = true) (hg : (s.thread sl e t).guardHolds w = false) :
    s.issueThread sl e t form body = s.afterIssue sl e t id := by
  obtain ⟨h1, h2, h3, h4⟩ := h
  unfold State.issueThread
  dsimp only
  rw [if_neg, if_neg (by omega), h4, if_pos hf]
  · rw [show (((s.sl sl).engine e).thread t).guardHolds w = false from hg]
    rfl
  · simp only [Bool.or_eq_true, Bool.not_eq_true', Bool.and_eq_true, decide_eq_true_eq, beq_iff_eq]
    rintro (h | ⟨h5, h6⟩)
    · rw [h1] at h; cases h
    · have := h2 h5; omega

/-- All that the issue of an instruction can do: nothing, a fault of the program counter, the passing of its word, or its body. -/
theorem State.issueThread_cases (s : State) (sl e t : Nat) (form : Form) (body : State → Thread → Nat → State) :
    let g := (s.sl sl).engine e
    let past := s.onSl sl fun x => x.onEngine e fun g => (g.take t).onThread t fun k => { k with pc := k.pc + 1 }
    s.issueThread sl e t form body = s ∨
    (32767 < (g.thread t).pc ∧ s.issueThread sl e t form body = s.threadFault sl e t faultPcBounds) ∨
    s.issueThread sl e t form body = past ∨
    ∃ w, form w = true ∧ (g.thread t).guardHolds w = true ∧ s.issueThread sl e t form body = body past (g.thread t) w := by
  unfold State.issueThread
  dsimp only
  by_cases h1 : (!((s.sl sl).engine e).mayIssue t || (((s.sl sl).engine e).running == some t &&
      decide (64 ≤ (((s.sl sl).engine e).thread t).issued))) = true
  · rw [if_pos h1]; exact .inl rfl
  · rw [if_neg h1]
    by_cases h2 : (((s.sl sl).engine e).thread t).pc > 32767
    · rw [if_pos h2]; exact .inr (.inl ⟨h2, rfl⟩)
    · rw [if_neg h2]
      by_cases h3 : form ((s.sl sl).routeWord e (((s.sl sl).engine e).thread t).pc) = true
      · rw [if_pos h3]
        by_cases h4 : (((s.sl sl).engine e).thread t).guardHolds ((s.sl sl).routeWord e (((s.sl sl).engine e).thread t).pc) = true
        · rw [if_pos h4]; exact .inr (.inr (.inr ⟨_, h3, h4, rfl⟩))
        · rw [if_neg h4]; exact .inr (.inr (.inl rfl))
      · rw [if_neg h3]; exact .inl rfl

/-! ### Issue of a quad program word -/

/-- A word of its class and opcode acts on the state past it (R168). -/
theorem State.issueQuad_runs {s : State} {sl : SliceId} {q : QuadId} {w code : Nat} {body : State → Quad → Nat → State}
    (h : s.QuadIssues sl q w) (hw : qCode w = code) :
    s.issueQuad sl q code body = body (s.afterWord sl q id) (s.quad sl q) w := by
  obtain ⟨h1, h2, h3⟩ := h
  unfold State.issueQuad
  dsimp only
  rw [if_neg (by simp [h1]), if_neg (by omega), h3, if_pos hw]
  rfl

/-- All that the issue of a quad program word can do: nothing, a fault of the program counter, or its body. -/
theorem State.issueQuad_cases (s : State) (sl q code : Nat) (body : State → Quad → Nat → State) :
    let k := s.quad sl q
    s.issueQuad sl q code body = s ∨
    (8191 < k.pc ∧ s.issueQuad sl q code body = s.segmentFault sl q none k.pc qfPcBounds) ∨
    ∃ w, qCode w = code ∧ s.issueQuad sl q code body = body (s.onQuad sl q fun k => k.goTo (k.pc + 1)) k w := by
  unfold State.issueQuad
  dsimp only
  by_cases h1 : (s.quad sl q).st ≠ .running
  · rw [if_pos h1]; exact .inl rfl
  · rw [if_neg h1]
    by_cases h2 : (s.quad sl q).pc > 8191
    · rw [if_pos h2]; exact .inr (.inl ⟨h2, rfl⟩)
    · rw [if_neg h2]
      by_cases h3 : qCode ((s.quad sl q).program.getD (s.quad sl q).pc 0).toNat = code
      · rw [if_pos h3]; exact .inr (.inr ⟨_, h3, rfl⟩)
      · rw [if_neg h3]; exact .inl rfl

/-! ### The launch of a stage -/

/-- A stage acts once: one already launched, or one that waits and may launch now, which is then launched (R28, R33). -/
theorem State.actingRun_cases {s t : State} {sl i : Nat} {k : StageKind} {u : Run} (h : s.actingRun sl i k = some (u, t)) :
    u.idx = i ∧ u.entry.kind = k ∧ u.st = .launched ∧
    ((u ∈ (s.sl sl).runs ∧ u.begun = false ∧ t = s.onSl sl fun y => y.setRun u fun v => { v with begun := true }) ∨
     ∃ v ∈ (s.sl sl).runs, s.launchable sl v = true ∧ v.st = .waiting ∧ u = { v with
         st := .launched, launchedAt := s.now, begun := true, lost := (s.sl sl).fabric.lost, dead := s.deadCtxs sl } ∧
       t = (s.markLaunched sl v).onSl sl fun y => y.setRun v fun z => { z with begun := true }) := by
  unfold State.actingRun at h
  dsimp only at h
  split at h
  · next u' hu =>
    cases h
    have hm := List.mem_of_find?_eq_some hu
    have hp := List.find?_some hu
    simp only [Bool.and_eq_true, beq_iff_eq, Bool.not_eq_true'] at hp
    exact ⟨hp.1.1.1, hp.1.1.2, hp.1.2, .inl ⟨hm, hp.2, rfl⟩⟩
  · split at h
    · next u' hu =>
      have hm := List.mem_of_find?_eq_some hu
      have hp := List.find?_some hu
      simp only [Bool.and_eq_true, beq_iff_eq] at hp
      split at h
      · next hl =>
        cases h
        exact ⟨hp.1.1, hp.1.2, rfl, .inr ⟨u', hm, hl, hp.2, rfl, rfl⟩⟩
      · cases h
    · cases h

/-! ### Writes through a door -/

/-- A write of a whole value whose checks pass is begun as a store write, or applied with its answer (R434, R438). -/
theorem State.doorWrite_takes {s u : State} {d : Door} {index sub c : Nat} {v : Bytes} (h : s.Takes d index sub c v u) :
    ∃ e, entry? index sub = some e ∧
      (e.stored = true → s.doorWrite d index sub c v =
        { u with dict := { u.dict with writing := some { index := index, sub := sub, channel := if e.chan then c else 0, value := v, door := d } } }) ∧
      (e.stored = false → e.isEnable = true → s.doorWrite d index sub c v = (u.answer d codeOk none).applyEntry index sub (if e.chan then c else 0) v) ∧
      (e.stored = false → e.isEnable = false → s.doorWrite d index sub c v = (u.applyEntry index sub (if e.chan then c else 0) v).answer d codeOk none) := by
  obtain ⟨ht, hf, p, e, hp, he, hs, hj⟩ := h
  refine ⟨e, he, ?_, ?_, ?_⟩ <;> intro h1 <;> (try intro h2) <;> by_cases hw : typeWidth e.ty = 0 <;>
    simp [State.doorWrite, State.access, State.serveOp, State.valueAccess, State.writeValue, codeOk, codeDeferred, *]

/-- A write that a check refuses ends with the code of that check and changes no entry (R438). -/
theorem State.doorWrite_refused {s u : State} {d : Door} {index sub c code : Nat} {v : Bytes} (h : s.Judges d index sub c v u code)
    (hc : codeDeferred < code) : s.doorWrite d index sub c v = u.answer d code none := by
  obtain ⟨ht, hf, p, e, hp, he, hs, hj⟩ := h
  by_cases hw : typeWidth e.ty = 0 <;>
    simp [State.doorWrite, State.access, State.serveOp, State.valueAccess, State.writeValue, *]

/-- A write through a door while the management controller is handed over waits, and is applied with the others that wait (R463). -/
theorem State.doorWrite_waits {s u : State} {d : Door} {index sub c : Nat} {v : Bytes} (h : s.startAccess d index sub 1 = some u)
    (hf : u.fw.handing 33 = true) :
    s.doorWrite d index sub c v = { u with dict := { u.dict with queued := u.dict.queued ++ [.value d index sub c v] } } := by
  simp [State.doorWrite, State.access, *]

/-- A write through a door that is busy changes no entry (R450, R455). -/
theorem State.doorWrite_lost {s : State} {d : Door} {index sub c : Nat} {v : Bytes} (h : s.startAccess d index sub 1 = none) :
    s.doorWrite d index sub c v = s.lostAccess d := by
  simp [State.doorWrite, h]

/-! ### Completions and reports -/

/-- A completion is owed to its ring, or dropped and counted when the ring would hold more than 4,096 (R365, R500). -/
theorem State.complete_cases (s : State) (c : Completion) :
    let t := s.onRing c.ring fun r => { r with held := holdIn c r.held }
    (4096 < t.ringHeld (t.host.rings.getD c.ring {}) ∧ (s.complete c).host = { s.host with dropped := s.host.dropped + 1 }) ∨
    (t.ringHeld (t.host.rings.getD c.ring {}) ≤ 4096 ∧ (s.complete c).slices = s.slices ∧
      (s.complete c).host.rings = s.host.rings.modify c.ring (fun r => { r with held := holdIn c r.held })) := by
  have hm : ∀ (t : State) (v : Nat), (t.msix v).host.rings = t.host.rings ∧ (t.msix v).slices = t.slices := by
    intro t v
    unfold State.msix
    split
    · exact ⟨rfl, rfl⟩
    · split <;> exact ⟨rfl, rfl⟩
  have hc : ∀ (t : State) (b : Nat), (t.cause b).host.rings = t.host.rings ∧ (t.cause b).slices = t.slices := by
    intro t b
    unfold State.cause
    dsimp only
    split
    · exact hm _ _
    · exact ⟨rfl, rfl⟩
  dsimp only
  unfold State.complete
  dsimp only
  split
  · next h => exact .inl ⟨h, rfl⟩
  · next h =>
    refine .inr ⟨by omega, ?_⟩
    split
    · exact ⟨(hc _ _).2, (hc _ _).1⟩
    · exact ⟨rfl, rfl⟩

/-- A report waits in the ring's queue, or is dropped and counted when its unit already has four there (R484). -/
theorem Errors.queue_cases (e : Errors) (r : Report) :
    ((e.queued.filter fun x => x.unit == r.unit).length < 4 ∧ e.queue r = { e with queued := e.queued ++ [r] }) ∨
    (4 ≤ (e.queued.filter fun x => x.unit == r.unit).length ∧ e.queue r = { e with overflow := min (e.overflow + 1) 0xFFFFFFFF }) := by
  unfold Errors.queue
  split
  · next h => exact .inl ⟨h, rfl⟩
  · next h => exact .inr ⟨by omega, rfl⟩

/-- A report goes to the ring of its home slice (R482). -/
theorem State.report_sl (s : State) (i : Nat) (r : Report) (h : s.slices.length = 8) (hi : i < 8) :
    (s.report i r).sl (reportHome r i) = { s.sl (reportHome r i) with err := (s.sl (reportHome r i)).err.queue r } := by
  have : reportHome r i < 8 := by unfold reportHome; split <;> omega
  exact s.onSl_sl_self _ _ (by omega)

/-- An extension of a measurement register leaves the other registers alone (R422). -/
theorem State.extendMR_other (s : State) {n m : Nat} (d : Bytes) (h : m ≠ n) : (s.extendMR n d).sec.mr.getD m [] = s.sec.mr.getD m [] := by
  simp [State.extendMR, List.getD, Ne.symm h]

/-- A status is given to the requests that a predicate picks, and no other request changes but by its rows (R12). -/
theorem SliceState.onReqs_reqs (x : SliceState) (f : Request → Request) : (x.onReqs f).svc.reqs = x.svc.reqs.map f := rfl

end Sys2Proof.Machine
end

