-- ==== Sys2Proof/WellFormed.lean ====
section
/-! DEFINITION. Which commands are well formed: every field of a record a command carries is within the width its table
gives it. A slice, a port, a thread or a quad is in range by its type. -/

namespace Sys2Proof

/-- A number fits a field of `w` bits (R6). -/
def fits (v w : Nat) : Bool := decide (v < 2 ^ w)

/-- A place: NODE of 20 bits and a slice 0 to 7 (R71). -/
def Place.wf (p : Place) : Bool := fits p.node 20 && fits p.slice 3

/-- A replica slot: quad 0 to 7, slot 0 to 63 (R71). -/
def SlotRef.wf (x : SlotRef) : Bool := fits x.quad 3 && fits x.slot 6

/-- A packet within Table 10-6 whose payload has the length PLEN says (R266). -/
def Packet.wf (p : Packet) : Bool :=
  fits p.opcode 8 && fits p.epoch 1 && fits p.job 16 && fits p.ctx 8 && fits p.srcSlice 3 && fits p.srcNode 20 &&
  fits p.dstNode 20 && fits p.dstSlice 3 && fits p.dstOffset 41 && fits p.plen 13 && fits p.opmod 3 && fits p.msgId 16 &&
  fits p.flowSeq 16 && fits p.mgroup 10 && fits p.ttl 5 && fits p.reqId 32 && fits p.ecrc 32 &&
  decide (p.payload.length ≤ 4096)

/-- A TIME symbol within Table 10-4. -/
def TimeSym.wf (y : TimeSym) : Bool := fits y.t1 64 && fits y.echoT1 64 && fits y.echoRx 64 && fits y.gmErr 32 && fits y.rx 64

/-- A TIME packet's payload (R269). -/
def TimePkt.wf (y : TimePkt) : Bool :=
  fits y.gmNode 20 && fits y.hops 8 && fits y.dripOrigin 64 && decide (1 ≤ y.dripBeats) && fits y.dripBeats 32

/-- A load item: the fields of its 64-byte header (Table 14-2). -/
def LoadItem.wf (i : LoadItem) : Bool :=
  fits i.kind 8 && fits i.chain 16 && fits i.loadId 16 && fits i.seq 40 && fits i.id 48 && fits i.epoch 16 &&
  fits i.itemCrc 32 && fits i.part 16 && fits i.parts 16 && decide (i.payload.length ≤ 65536)

/-- A Uaric message (Table 17-14). -/
def UaricMsg.wf (m : UaricMsg) : Bool :=
  fits m.version 8 && fits m.type 8 && fits m.session 32 && fits m.seq 64 && decide (m.body.length ≤ 1184) && fits m.dstPort 16 && m.dst.all fun a => decide (a.length = 16)

/-- A lantern session of a door is 1 to 8 (R452). -/
def Door.wf : Door → Bool
  | .bar0 => true
  | .session n => decide (1 ≤ n) && decide (n ≤ 8)

/-- A logical unit of Table 19-7: KIND 0 to 14, INDEX of 12 bits. -/
def UnitRef.wf (u : UnitRef) : Bool := decide (u.kind ≤ 14) && fits u.index 12

/-- A report: CLASS, STATUS and CTX of 8 bits (Table 19-5). -/
def Report.wf (r : Report) : Bool := fits r.cls 8 && r.unit.wf && fits r.status 8 && fits r.ctx 8 && decide (r.detail.length ≤ 8)

/-- An expander: a link of 4 or 8 lanes at 32 or 64 GT/s (R503). -/
def Expander.wf (x : Expander) : Bool := (x.lanes == 4 || x.lanes == 8) && (x.rate == 32 || x.rate == 64) && fits x.serial 64

/-- A collision: row, instance, network and claimants in the widths of D0 to D2 (R49). -/
def Collision.wf (c : Collision) : Bool :=
  fits c.row 8 && fits c.inst 8 && fits c.net 1 && fits c.won.1 8 && fits c.won.2 8 && fits c.lost.1 8 && fits c.lost.2 8

/-- A record of the store: its entry and its channel (R434). -/
def LostRecord.wf (r : LostRecord) : Bool := fits r.index 16 && fits r.sub 8 && fits r.channel 3

/-- Whether a command is well formed. -/
def Instr.wf : Instr → Bool
  | .stageLaunch _ _ hits => hits.all Collision.wf
  | .powerUp b | .sysRstRelease b | .pllRelock b => b.lost.all LostRecord.wf
  | .timeSymbol _ _ y => y.wf
  | .timePacket _ _ y => y.wf
  | .panelLanded _ _ layer panel => fits layer 8 && fits panel 8
  | .countRecord _ src _ | .grantRecord _ src _ | .viewRecord _ src _ | .passDigestRecord _ src _
  | .dispatchBlock _ src _ | .returnBlock _ src _ | .sumChunk _ src _ | .resultChunk _ src _ | .pull _ src _ => src.wf
  | .lookaheadCount _ src layer counts => src.wf && fits layer 8 && counts.all fun c => c.1.wf && fits c.2 10
  | .unitFail _ u => u.wf
  | .returnListWrite _ layer x => fits layer 8 && x.wf
  | .sumpTileArrival _ layer x tile data tag =>
    fits layer 8 && x.wf && fits tile 16 && decide (data.bytes.length ≤ 4194304) && tag.length == 32
  | .fetchComplete _ layer x | .sumpReadTimeout _ layer x => fits layer 8 && x.wf
  | .frameRelease _ frame => fits frame 16
  | .linkFrame _ _ frame _ fec => decide (frame.length ≤ 8192) && (fec.words == 0 || fec.bad)
  | .downSymbol _ _ reason => fits reason 8
  | .routerForward _ _ p | .read _ _ p | .write _ _ p | .reduce _ _ p | .atomicFadd _ _ p | .atomicCas _ _ p
  | .mcastWrite _ _ p | .readData _ _ p | .ack _ _ p | .nack _ _ p | .atomicResult _ _ p | .ctrlSkip _ _ p
  | .ctrlLost p => p.wf
  | .e2eTimeout _ dst msgId => dst.wf && fits msgId 16
  | .windowedSend _ dst => dst.wf
  | .lossHoldExpiry node => fits node 20
  | .mcastComplete _ group msgId => fits group 10 && fits msgId 16
  | .routeSwitchDrip d _ | .collEpochDrip d _ | .reshapeArm d _ | .epochSwitch d _ => d.wf
  | .portDisable d _ _ _ | .ledgerEnable d _ _ | .ringEnable d _ | .reshapeDisarm d | .loadStart d | .defaultsRestore d
  | .fwRollout d | .fwRollback d | .errClear d _ => d.wf
  | .regionEntry d _ v | .regionHandoff d _ v => d.wf && decide (v.length ≤ 64)
  | .ownershipMove _ entry => fits entry 12
  | .layerBoundary _ layer => fits layer 8
  | .requestDeadline _ req => fits req 12
  | .contextTeardown ctx | .contextOff ctx => decide (ctx < 255)
  | .ringHead _ v => fits v 32
  | .hotServe d slot => d.wf && decide (slot < 4)
  | .imageItem it _ | .manifestItem it | .tileItem it | .panelItem it | .placementItem it | .mapItem it _ | .endItem it => it.wf
  | .loadForwardAck seq => fits seq 40
  | .loadChain d v | .quoteNonce d v | .mr7Extend d v | .fwStageData d v => d.wf && decide (v.length ≤ 1048576)
  | .credentialWrite d j v => d.wf && fits j 8 && decide (v.length ≤ 4096)
  | .dictRead i j | .dictWrite i j | .dictInfo i j => fits i 16 && fits j 8
  | .lifecycleEnable d _ ch | .lifecycleDisable d _ ch => d.wf && decide (ch < 8)
  | .lifecycleStartComplete _ ch x => decide (ch < 8) && (match x with | some e => e.wf | none => true)
  | .lifecycleStartFail _ ch code => decide (ch < 8) && decide (1 ≤ code) && decide (code ≤ 3)
  | .lifecycleStopComplete _ ch => decide (ch < 8)
  | .uaricOpen m | .prove m | .uaricClose m | .certGet m | .uaricRead m | .uaricWrite m | .uaricInfo m => m.wf
  | .fwStageCommit d len => d.wf && fits len 32
  | .fwBootSlot d slot => d.wf && fits slot 1
  | .marginSensorRead _ u _ _ => u.wf
  | .errorReport _ r => r.wf
  | .registerWrite off data => fits off 24 && decide (data.length ≤ 8)
  | .bar0InvalidAccess off size _ => fits off 24 && fits size 13
  | .evtCauseClear mask => fits mask 8
  | .bar2Read off len => fits off.on 45 && decide (1 ≤ len) && decide (len ≤ 4096)
  | .bar2Write t => fits t.offset 45 && decide (t.data.length ≤ 4096)
  | .hostReadCompletion tag data _ => fits tag 10 && decide (data.length ≤ 4096)
  | .hostReadTimeout tag => fits tag 10
  | .sumpRetrain _ x => (match x with | some e => e.wf | none => true)
  | .sensorRead _ temp => decide (-273 ≤ temp) && decide (temp ≤ 1000)
  | .powerWindow watts _ => watts.length == 8
  | .i3cPoll _ reading => fits reading 32
  | .i3cIbi _ data => fits data 32
  | _ => true

end Sys2Proof
end

