-- ==== Sys2Proof/Tests/Slice0.lean ====
section
/-! SUPPORT. Tests: states and operands that meet the premises of each statement, one-step results worked out by hand from the
manual, and ill-formed commands. -/

open Sys2Proof

namespace Sys2Proof.Machine

set_option Elab.async false

/-! ### Helper states -/

/-- The state a command answers. -/
def after (o : Out) : State := match o with | .next t => t | _ => State.reset

/-- A device with eight slices, node 5, at drip 100. -/
def dev : State :=
  { State.reset with
    slices := List.replicate 8 { present := true }
    pkg := { nodeId := 5, pwrOk := true, sysRst := false, pllLocked := true, dividersRun := true }
    time := { drip := 100#48 }, frame := 96#48, frame0 := 96#48 }

theorem slice_ok : SliceState.ok { present := true } := by
  refine ⟨rfl, ⟨List.length_replicate .., fun g hg => ?_⟩, ⟨List.length_replicate .., fun k hk => ?_⟩,
    List.length_replicate .., List.length_replicate .., List.length_replicate ..⟩
  · rw [List.eq_of_mem_replicate hg]
    refine ⟨List.length_replicate .., fun h hh => ?_⟩
    rw [List.eq_of_mem_replicate hh]
    exact ⟨List.length_replicate .., List.length_replicate ..⟩
  · rw [List.eq_of_mem_replicate hk]
    refine ⟨List.length_replicate .., List.length_replicate .., fun a ha => ?_⟩
    rw [List.eq_of_mem_replicate ha]
    exact List.length_replicate ..

theorem dev_inv : dev.Inv :=
  ⟨⟨List.length_replicate .., fun x hx => by rw [List.eq_of_mem_replicate hx]; exact slice_ok⟩,
    by simp [dev, State.reset], List.length_replicate .., List.length_replicate .., by simp [dev, State.reset]⟩

/-- A state whose slices are another's and whose lists have their numbers. -/
theorem inv_of {s t : State} (h : s.Inv) (hs : t.slices = s.slices) (hr : t.host.rings.length = 64) (hc : t.host.chans.length = 18)
    (hm : t.sec.mr.length = 8) (hl : t.dict.life.length = 4) : t.Inv := by
  refine ⟨?_, hr, hc, hm, hl⟩
  rw [hs]
  exact h.1

/-- A routing descriptor (Table 03-1): 64 experts in one group, K 2, capacity 16, 16 rows, width 32, scale 1, placement table at
0x2000. -/
def desc0 : Nat :=
  64 + 1 * 2 ^ 15 + 1 * 2 ^ 22 + 2 * 2 ^ 29 + 1 * 2 ^ 64 + 1 * 2 ^ 72 + 0x3F800000 * 2 ^ 96 + 0x1000 * 2 ^ 128 + 1 * 2 ^ 169 + 0x2000 * 2 ^ 192

def layer0 : LayerInfo :=
  { layer := 0, mainDesc := desc0, sqzDesc := desc0, hiddenAddr := 0x100000, dispatchLocal := 0xC50000, returnLocal := 0xC60000
    returnRows := [(⟨0, 0⟩, 0x200000)], panelFlags := [10], countFlag := 11, grantFlag := 12, shapeFlag := 13
    dispatchFlags := [(⟨0, 0⟩, 14)], returnFlag := 15, combineFlag := 16 }

def image0 : SliceImage :=
  { layers := [layer0], prefetchSets := [[⟨5 * 2 ^ 44 + 0x3000, 64⟩]], placed := [⟨0, 0, 0, 0, 0⟩], residencyBase := 0x4000, rowmapBase := 0x7F00000000
    weightBase := 0, weightBytes := 0x1000000, stateBase := 0x1000000, stateBytes := 0x1000000, poolBase := 0x2000000, poolFrames := 16, frameBytes := 8192 }

/-- A job on the eight slices of node 5. -/
def job0 : Image :=
  { node := 5, nodes := [5], members := (List.range 8).map fun k => ⟨5, k⟩, frameLen := 64, slices := List.replicate 8 image0
    inRowBytes := 64, outRowBytes := 64, rows := 16 }

/-- Slice 0 with a change, in a device that runs the job; expert 0 of the layer is in quad 0, slot 0 of slice 0. -/
def moe (f : SliceState → SliceState) : State :=
  ({ dev with job := some job0, running := true }).onSl 0 fun x => f (x.store 0x2000 (leBytes 32 (2 ^ 34 + 5 * 2 ^ 64)))

theorem moe_inv {f : SliceState → SliceState} (hf : ∀ x, x.ok → (f x).ok) : (moe f).Inv :=
  ((State.Keeps.of_eq (s := dev) rfl rfl rfl rfl rfl rfl).trans (State.Keeps.onSl _ 0 fun _ hx => hf _ (hx.store _ _))).2 dev_inv


/-! ### Route program instructions (chapter 04) -/

/-- A word of a route program (Table 04-4): OP [63:58], PRED [57:55], NEG 54, D [53:49], A [48:44], B [43:39], FN [38:32],
IMM [31:0]. -/
def rword (op d a b fn imm : Nat) : Nat := op * 2 ^ 58 + d * 2 ^ 49 + a * 2 ^ 44 + b * 2 ^ 39 + fn * 2 ^ 32 + imm

/-- A thread with 7, 12, all ones, an address of slice 1 of node 6, 8, a local address, 4096 and a global address whose node
is 5 in g1 to g8. -/
def thr : Thread :=
  { st := .ready
    g := [0, 7, 12, 0xFFFFFFFFFFFFFFFF, 6 * 2 ^ 44 + 1 * 2 ^ 41 + 0x1000, 8, 0xC40000, 4096, 5 * 2 ^ 44, 0xC50000] ++ List.replicate 22 0 }

/-- A device whose slice 0 holds the job's tables, thread 0 of engine 0 as `h`, and a word at its program counter. -/
def onWith (f : SliceState → SliceState) (h : Thread) (w : Nat) : State :=
  moe fun x => f ((x.store (engineAddr 0 (0xC00000 + 8 * h.pc)) (leBytes 8 w)).onThread 0 0 fun _ => h)

def onWord (h : Thread) (w : Nat) : State := onWith id h w

def stilled (s : State) : State := { s with still := { on := true } }

/-- What statements about route program instructions suppose of the state and the word. -/
def Ready (s : State) (w : Nat) : Prop := s.Inv ∧ s.Issues 0 0 0 w ∧ (s.thread 0 0 0).guardHolds w = true

theorem ready_with {f : SliceState → SliceState} (hf : ∀ x, x.ok → (f x).ok) {h : Thread} (hk : h.ok) {w : Nat}
    (hi : (onWith f h w).Issues 0 0 0 w ∧ ((onWith f h w).thread 0 0 0).guardHolds w = true) : Ready (onWith f h w) w :=
  ⟨moe_inv fun _ hx => hf _ ((hx.store _ _).onThread 0 0 fun _ _ => hk), hi⟩

theorem ready_still {s : State} {w : Nat} (h : Ready s w) : Ready (stilled s) w := ⟨h.1, h.2.1, h.2.2⟩

theorem thr_ok : thr.ok := ⟨by decide, by decide⟩

theorem readies {f : SliceState → SliceState} (hf : ∀ x, x.ok → (f x).ok) {h : Thread} (hk : h.ok) {ws : List Nat}
    (hi : ∀ w ∈ ws, (onWith f h w).Issues 0 0 0 w ∧ ((onWith f h w).thread 0 0 0).guardHolds w = true) :
    ∀ w ∈ ws, Ready (onWith f h w) w := fun w hw => ready_with hf hk (hi w hw)

/-- The words of the arithmetic, predicate, branch and ordering instructions. -/
def aluWords : List Nat :=
  [rword 0x00 0 0 0 0 0, rword 0x01 3 0 0 0 5, rword 0x01 3 0 0 2 5, rword 0x02 3 1 2 0 0, rword 0x03 3 1 2 0 0, rword 0x04 3 1 2 0 0] ++
  [rword 0x05 3 1 2 0 0, rword 0x05 3 1 2 6 0, rword 0x06 3 1 2 0 0, rword 0x06 3 1 2 4 0, rword 0x07 2 1 2 0 0, rword 0x07 2 1 2 10 0] ++
  [rword 0x08 2 1 2 0 0, rword 0x08 2 1 2 6 0, rword 0x09 0 0 0 0 7, rword 0x29 0 0 0 0 0, rword 0x29 0 4 0 2 0]

theorem witness_routeAlu : ∀ w ∈ aluWords, Ready (onWord thr w) w ∧ (bits w 63 58 = 0x06 → bits (bits w 38 32) 2 1 ≠ 3) ∧
    (bits w 63 58 = 0x07 → bits (bits w 38 32) 3 1 < 6) ∧ 0 ≤ (((onWord thr w).thread 0 0 0).pc : Int) + sint32 (bits w 31 0) :=
  fun w hw => ⟨readies (fun _ h => h) thr_ok (ws := aluWords) (by simp only [State.Issues]; decide +kernel) w hw, by revert w; decide +kernel⟩

/-- Every instruction word with a guard that is false: PRED 1, which holds 0. -/
def falseWords : List Nat :=
  ([0x00, 0x01, 0x02, 0x03, 0x04, 0x05, 0x06, 0x07, 0x08, 0x09, 0x0A, 0x10, 0x11, 0x12, 0x13, 0x14, 0x15, 0x18, 0x19, 0x1A, 0x1B, 0x1C] ++
   [0x1D, 0x1E, 0x20, 0x21, 0x22, 0x28, 0x29, 0x2A]).map (fun op => rword op 0 0 0 0 0 + 2 ^ 55) ++
  [rword 0x14 0 0 0 2 0 + 2 ^ 55, rword 0x15 0 0 0 2 0 + 2 ^ 55, rword 0x1A 0 0 0 2 0 + 2 ^ 55, rword 0x29 0 0 0 2 0 + 2 ^ 55,
   rword 0x29 0 0 0 4 0 + 2 ^ 55]

theorem witness_routeGuardFalse : ∀ w ∈ falseWords,
    (onWord thr w).Issues 0 0 0 w ∧ ((onWord thr w).thread 0 0 0).guardHolds w = false := by
  simp only [State.Issues]; decide +kernel

/-- LD whose last byte is the last of the local space and one beyond, ST at both ends of the shared region and of the own
window, and one that crosses the end of the shared region. -/
theorem witness_routeLocalMemory :
    (∀ w ∈ [rword 0x10 3 6 0 6 0x3BFFF8, rword 0x10 3 6 0 6 0x3BFFF9, rword 0x11 0 6 2 6 0, rword 0x11 0 6 2 6 0xBFFF8,
        rword 0x11 0 6 2 6 0xC0000, rword 0x11 0 6 2 6 0xCBFF8, rword 0x11 0 6 2 6 0xBFFF9], Ready (onWord thr w) w) ∧
    ((thr.reg 6 + sext32 0x3BFFF8).toNat + 8 = 0x1000000 ∧ (thr.reg 6 + sext32 0x3BFFF9).toNat + 8 = 0x1000001) ∧
    ((onWord thr (rword 0x10 3 6 0 6 0x3BFFF8)).sl 0).poisoned (engineAddr 0 0xFFFFF8) 8 = false :=
  ⟨readies (fun _ h => h) thr_ok (by simp only [State.Issues]; decide +kernel), by decide, by decide +kernel⟩

/-- XLD, and XCOPY get of 8 and of 4,096 bytes, to slice 1 of node 6; XLD in still-water mode. -/
theorem witness_routeRemoteLoads :
    (∀ w ∈ [rword 0x12 3 4 0 6 8, rword 0x14 6 4 5 0 8, rword 0x14 6 4 7 0 8], Ready (onWord thr w) w ∧ Ready (stilled (onWord thr w)) w) ∧
    localWrite 0 0xC40000 8 = true ∧ localWrite 0 0xC40000 4096 = true ∧
    (∀ n ∈ [8, 4096], (onWord thr (rword 0x12 3 4 0 6 8)).inPrefetch 0 0 (6 * 2 ^ 44 + 1 * 2 ^ 41 + 0x1008) n = false) := by
  refine ⟨fun w hw => ?_, by decide, by decide, by decide +kernel⟩
  have h := readies (fun _ h => h) thr_ok (ws := [rword 0x12 3 4 0 6 8, rword 0x14 6 4 5 0 8, rword 0x14 6 4 7 0 8])
    (by simp only [State.Issues]; decide +kernel) w hw
  exact ⟨h, ready_still h⟩

/-- A range of the thread's prefetch set that is staged, an XLD that is not aligned and an XCOPY of 7 bytes. -/
def stagedSlice (x : SliceState) : SliceState := { x with tiers := { staged := [(1, 0, [(5 * 2 ^ 44 + 0x3000, zeros 64)])] } }

theorem stagedSlice_ok (x : SliceState) (h : x.ok) : (stagedSlice x).ok := h.of_eq rfl rfl rfl rfl rfl rfl

def staged (h : Thread) (w : Nat) : State := onWith stagedSlice { h with prefetchSet := 1 } w

theorem witness_routeRemoteLoads_staged :
    (∀ w ∈ [rword 0x12 3 8 0 6 0x3000, rword 0x14 6 8 5 0 0x3008], Ready (staged thr w) w) ∧
    (staged thr 0).inPrefetch 0 1 (5 * 2 ^ 44 + 0x3000) 8 = true ∧ ((staged thr 0).sl 0).stagedBytes 1 (5 * 2 ^ 44 + 0x3008) 8 = some (zeros 8) ∧
    (∀ w ∈ [rword 0x12 3 4 0 6 9, rword 0x14 6 4 1 0 8], Ready (onWord thr w) w) := by
  refine ⟨fun w hw => ready_with (h := { thr with prefetchSet := 1 }) stagedSlice_ok thr_ok ?_,
    by decide +kernel, by decide +kernel, readies (fun _ h => h) thr_ok (by simp only [State.Issues]; decide +kernel)⟩
  revert w; simp only [State.Issues]; decide +kernel

/-- XST with 15 and with 16 outstanding, and XCOPY put of 4,096 bytes. -/
theorem witness_routeRemoteStores :
    (∀ n ∈ [15, 16], Ready (onWord { thr with xst := n } (rword 0x13 0 4 2 6 8)) (rword 0x13 0 4 2 6 8)) ∧
    Ready (onWord thr (rword 0x14 6 4 7 2 8)) (rword 0x14 6 4 7 2 8) ∧
    bits (thr.reg 4 + sext32 8).toNat 63 44 < 0xFFC00 ∧
    ((onWord thr (rword 0x14 6 4 7 2 8)).sl 0).poisoned (engineAddr 0 0xC40000) 4096 = false := by
  refine ⟨fun n hn => ready_with (f := id) (h := { thr with xst := n }) (fun _ h => h) thr_ok ?_, ready_with (f := id) (fun _ h => h) thr_ok ?_, by decide, by decide +kernel⟩
  · revert n; simp only [State.Issues]; decide +kernel
  · simp only [State.Issues]; decide +kernel

/-- An XST to multicast group 3, whose place is marked or not, an XST that is not aligned, and an XCOPY put of 7 bytes. -/
def groupThr (m : List Place) : Thread := { thr with g := thr.g.set 4 (BitVec.ofNat 64 ((0xFFC00 + 3) * 2 ^ 44 + 0x1000)), marks := m }

theorem witness_routeRemoteStores_group :
    (∀ m ∈ [[], [⟨0xFFC03, 0⟩]], Ready (onWord (groupThr m) (rword 0x13 0 4 2 6 8)) (rword 0x13 0 4 2 6 8)) ∧
    gaGroup ((groupThr []).reg 4 + sext32 8).toNat = some 3 ∧ (groupThr [⟨0xFFC03, 0⟩]).marks.contains ⟨bits ((groupThr []).reg 4 + sext32 8).toNat 63 44, 0⟩ = true ∧
    (∀ w ∈ [rword 0x13 0 4 2 6 9, rword 0x14 6 4 1 2 8], Ready (onWord thr w) w) := by
  refine ⟨fun m hm => ready_with (f := id) (fun _ h => h) ⟨by simp [groupThr, thr], by simp [groupThr, thr]⟩ ?_, by decide +kernel, by decide +kernel,
    readies (fun _ h => h) thr_ok (by simp only [State.Issues]; decide +kernel)⟩
  revert m; simp only [State.Issues]; decide +kernel

theorem witness_routeAtomics : ∀ w ∈ [rword 0x15 3 4 2 0 4, rword 0x15 3 4 2 2 8, rword 0x15 3 4 2 0 5, rword 0x15 3 4 2 2 4], Ready (onWord thr w) w :=
  readies (fun _ h => h) thr_ok (by simp only [State.Issues]; decide +kernel)

/-- The pool with one free buffer of each class and its tail owner 1, and a slice whose routing SRAM holds the descriptor. -/
def pool0 : Pools :=
  { configured := true, classes := (List.range 6).map fun c => { base := 0x1000000 + 0x100000 * c, count := 1 }
    owners := [{}, { kind := 1, reserve := [1, 1, 1, 1, 1, 1], limit := [1, 1, 1, 1, 1, 1] }] }

def withPools (p : Pools) (x : SliceState) : SliceState := { x with pools := p }

theorem withPools_ok (p : Pools) {x : SliceState} (h : x.ok) : (withPools p x).ok := h

def unitSlice (x : SliceState) : SliceState :=
  withPools { pool0 with bufs := [{ cls := 5, idx := 0, alloc := true, owner := 1, list := [1] }] }
    (x.store (engineAddr 0 0xC40000) (leBytes 32 desc0))

def packThr : Thread := { thr with g := (thr.g.set 10 (handleWord 0x1500000 5 0)) }

theorem unitSlice_ok (x : SliceState) (h : x.ok) : (unitSlice x).ok := withPools_ok _ (h.store _ _)

/-- SCORE, TOPK, CAPACITY GRANT and ASSIGN, SORT, PACK of the dispatch list for slice 0 of node 5, and DIGEST of 4,096 bytes:
each unit is free and does its work. -/
theorem witness_routeUnitStarts :
    ∀ c ∈ [(EngineUnit.scoring, rword 0x18 3 6 0 0 0), (.topk, rword 0x19 3 6 0 0 0), (.capacity, rword 0x1A 0 6 0 0 0),
        (.capacity, rword 0x1A 0 6 0 2 0), (.sorter, rword 0x1B 3 6 0 0 0), (.pack, rword 0x1C 10 9 8 0 0), (.digest, rword 0x2A 6 6 7 0 0)],
      Ready (onWith unitSlice packThr c.2) c.2 ∧
      ((((onWith unitSlice packThr c.2).sl 0).engine 0).busy.any fun b => b.1 == c.1) = false ∧
      ((((onWith unitSlice packThr c.2).afterIssue 0 0 0 id).blockThread 0 0 0 (.waitUnit c.1)).unitWork 0 0 0 c.1 c.2).isSome = true := by
  intro c hc
  refine ⟨ready_with unitSlice_ok ⟨by decide, by decide⟩ ?_, ?_⟩
  · revert c; simp only [State.Issues]; decide +kernel
  · revert c; decide +kernel

/-- SCORE on a descriptor of no experts. -/
theorem witness_routeUnitStarts_bad : Ready (onWord thr (rword 0x18 3 6 0 0 0)) (rword 0x18 3 6 0 0 0) ∧
    descOk (leNat (((onWord thr (rword 0x18 3 6 0 0 0)).sl 0).load (engineAddr 0 0xC40000) 32)) = false :=
  ⟨ready_with (fun _ h => h) thr_ok (by simp only [State.Issues]; decide +kernel), by decide +kernel⟩

/-- The launched ROUTE phase of thread 0 of engine 0. -/
def phase0 : Run :=
  { idx := 0, frame := 96#48, st := .launched, launchedAt := 100#48
    entry := { unit := .engine 0, launch := 4, duration := 10, due := 40, inputs := [], kind := .route, f := { threads := 1, injection := 3 } } }

def withPhase (x : SliceState) : SliceState := { x with runs := [phase0], flags := [9] }

theorem withPhase_ok (x : SliceState) (h : x.ok) : (withPhase x).ok := h.of_eq rfl rfl rfl rfl rfl rfl

/-- HALT of the only thread of a phase, RECV of a flag that is set and of one that is not, WAIT_DRIP of a later drip and of one
that has come, in both modes, and FENCE DRAIN. -/
theorem witness_routeWaits :
    (∀ w ∈ [rword 0x0A 0 0 0 0 0, rword 0x1E 0 0 0 0 9, rword 0x1E 0 0 0 0 8, rword 0x28 0 0 0 0 5, rword 0x28 0 0 0 0 4, rword 0x28 0 0 0 2 1,
        rword 0x29 0 0 0 4 0], Ready (onWith withPhase thr w) w ∧ Ready (stilled (onWith withPhase thr w)) w ∧
      ((onWith withPhase thr w).sl 0).threadRun 0 0 = some phase0) ∧
    Drip.later (Drip.plus 96#48 5) 100#48 = true ∧ Drip.later (Drip.plus 96#48 4) 100#48 = false := by
  refine ⟨fun w hw => ?_, by decide, by decide⟩
  have h : Ready (onWith withPhase thr w) w := by
    refine ready_with withPhase_ok thr_ok ?_
    revert w; simp only [State.Issues]; decide +kernel
  refine ⟨h, ready_still h, ?_⟩
  clear h; revert w; decide +kernel

/-- A waiting thread whose drip has come, a thread that has issued 64 instructions in a row, a unit its thread waits for, and a
range prefetch of the own slice. -/
theorem witness_routeEngineActs :
    ((onWord { thr with st := .waitDrip 100#48 } 0).thread 0 0 0).st = .waitDrip 100#48 ∧ Drip.later 100#48 (onWord thr 0).now = false ∧
    ((onWord thr 0).sl 0).threadRun 0 0 = none ∧
    ((((onWith (fun x => x.onEngine 0 fun g => { g with running := some 0 }) { thr with issued := 64 } 0)).sl 0).engine 0).running = some 0 ∧
    ((((onWith (fun x => x.onEngine 0 fun g => { g with busy := [(.topk, 0)] }) { thr with st := .waitUnit .topk } 0)).sl 0).engine 0).busy =
      [(.topk, 0)] ∧
    (moe fun x => { x with runs := [{ phase0 with st := .waiting, entry := { phase0.entry with kind := .rangePrefetch, f := { prefetchSet := 1 } } }] }).actingRun
      0 0 .rangePrefetch ≠ none ∧
    gaPlace (5 * 2 ^ 44 + 0x3000) = ⟨5, 0⟩ ∧
    (∀ p ∈ payloadParts (5 * 2 ^ 44 + 0x3000) (zeros 64), (((moe id).sl 0).readBytes? (gaOffset p.1) p.2.length).isSome = true) ∧
    ((moe id).sl 0).readBytes? 0x1FFFFFFF000 64 = none ∧
    (((moe id).onSl 1 fun x => { x with runs := [{ phase0 with st := .waiting, entry := { phase0.entry with kind := .rangePrefetch, f := { prefetchSet := 1 } } }] }).actingRun
      1 0 .rangePrefetch).isSome = true := by decide +kernel

/-- The scoring unit in use: with its pass scored, with a panel to come, and with its stage gone. -/
theorem witness_routeEngineActs_scoring :
    let s (next : Nat) (st : RunState) : State := onWith (fun x => { (x.onEngine 0 fun g => { g with
        busy := [(.scoring, 0)], scoring := some { desc := desc0, look := false, run := 0, next := next } }) with
      runs := [{ phase0 with st := st, entry := { phase0.entry with f := { role := .score, layer := some 0, threads := 1 } } }] }) { thr with st := .waitUnit .scoring } 0
    (s 4 .launched).passDone 0 0 = true ∧ (s 0 .launched).passDone 0 0 = false ∧ (s 0 .launched).passLive 0 0 = true ∧
    (s 0 .missed).passLive 0 0 = false ∧ (s 0 .launched).still.on = false ∧ ((s 0 .launched).thread 0 0 0).st = .waitUnit .scoring := by decide +kernel

/-- ALLOC granted and exhausted, DONE and FREE accepted and rejected. -/
def poolThr : Thread :=
  { thr with owner := 1, g := (thr.g.set 10 (handleWord 0x1000000 0 0)).set 11 (handleWord 0x1100000 1 0) }

def poolOf (bufs : List Buf) (x : SliceState) : SliceState :=
  { x with pools := { pool0 with bufs := bufs, owners := [{}, { kind := 1, reserve := [1, 1, 1, 1, 1, 1], limit := [1, 1, 1, 1, 1, 1] }, { kind := 1 }] } }

def bufA : Buf := { cls := 0, idx := 0, alloc := true, owner := 1, list := [1] }
def bufB : Buf := { cls := 1, idx := 0, alloc := true, owner := 1, list := [1, 2] }

theorem poolOf_ok (b : List Buf) (x : SliceState) (h : x.ok) : (poolOf b x).ok := h.of_eq rfl rfl rfl rfl rfl rfl

theorem witness_poolInstructions :
    (∀ w ∈ [rword 0x20 3 5 0 0 0, rword 0x20 3 5 0 2 0, rword 0x21 0 11 0 0 0, rword 0x22 2 10 0 0 0, rword 0x22 2 11 0 0 0],
      Ready (onWith (poolOf [bufA, bufB]) poolThr w) w ∧ (onWith (poolOf [bufA, bufB]) poolThr w).ownerList 0 0 poolThr w = some [1]) ∧
    (pool0.alloc 1 8 [1] 255).1 = .granted (handleWord 0x1000000 0 0) 0 0 ∧
    (({ pool0 with owners := [{}, { kind := 1 }] } : Pools).alloc 1 8 [1] 255).1 = .exhausted ∧
    (let p : Pools := { pool0 with bufs := [bufA, bufB] }
     judgeDoneFree p false 1 (handleWord 0x1100000 1 0).toNat = none ∧ judgeDoneFree p true 1 (handleWord 0x1000000 0 0).toNat = none ∧
     judgeDoneFree p true 1 (handleWord 0x1100000 1 0).toNat = some 0) := by
  refine ⟨fun w hw => ⟨ready_with (poolOf_ok _) ⟨by decide, by decide⟩ ?_, ?_⟩, by decide +kernel⟩
  · revert w; simp only [State.Issues]; decide +kernel
  · revert w; decide +kernel

/-- ALLOC, DONE and FREE of owner 0, which is not declared. -/
theorem witness_poolInstructions_undeclared : ∀ w ∈ [rword 0x20 3 5 0 0 0, rword 0x21 0 11 0 0 0, rword 0x22 2 11 0 0 0],
    Ready (onWith (poolOf [bufA, bufB]) { poolThr with owner := 0 } w) w ∧ ((onWith (poolOf [bufA, bufB]) poolThr w).sl 0).pools.serves 0 = false := by
  intro w hw
  refine ⟨ready_with (poolOf_ok _) ⟨by decide, by decide⟩ ?_, ?_⟩
  · revert w; simp only [State.Issues]; decide +kernel
  · revert w; decide +kernel

/-- A handle of a buffer torn down is a stale handle of its last generation. -/
theorem witness_poolInstructions_stale :
    let p : Pools := { pool0 with bufs := [{ bufA with alloc := false, gen := 1, torn := true }] }
    judgeDoneFree p true 1 (handleWord 0x1000000 0 0).toNat = some 2 ∧ p.staleTorn (handleWord 0x1000000 0 0).toNat = true := by decide +kernel

theorem witness_poolGrantKeepsReserves : (pool0.alloc 1 256 [1] 255).1 = .granted (handleWord 0x1000000 0 0) 0 0 ∧
    (pool0.alloc 1 262144 [1] 255).1 = .granted (handleWord 0x1500000 5 0) 5 0 := by decide +kernel

/-- A waiting ALLOC that can be granted, and one that cannot. -/
theorem witness_poolManagerActs :
    let k : PoolWait := { engine := 0, thread := 0, bytes := 8, list := [1], reg := 3, owner := 1, ctx := 255 }
    (((onWith (fun x => { x with pools := { pool0 with waits := [k] } }) thr 0).sl 0).pools.waits = [k] ∧
      (({ pool0 with waits := [k] } : Pools).alloc 1 8 [1] 255).1 ≠ .exhausted) ∧
    (({ pool0 with waits := [k], owners := [{}, { kind := 1 }] } : Pools).alloc 1 8 [1] 255).1 = .exhausted := by decide +kernel

/-- A branch below the first word; an LD of poisoned words by a thread of a phase; XCOPYs with an end that is no multiple of 8 and
with a local end that may not be written; an XCOPY put to a multicast group. -/
theorem witness_routeBounds :
    (Ready (onWord thr (rword 0x09 0 0 0 0 0xFFFFFFFF)) (rword 0x09 0 0 0 0 0xFFFFFFFF) ∧
      ((onWord thr 0).thread 0 0 0).pc + sint32 0xFFFFFFFF < (0 : Int)) ∧
    (let f (x : SliceState) : SliceState := (withPhase x).poisonRange (engineAddr 0 0xC40000) 8
     let w := rword 0x10 3 6 0 6 0
     (onWith f thr w).Issues 0 0 0 w ∧ ((onWith f thr w).thread 0 0 0).guardHolds w = true ∧
     ((onWith f thr w).sl 0).poisoned (engineAddr 0 0xC40000) 8 = true ∧ ((onWith f thr w).sl 0).threadRun 0 0 = some phase0) ∧
    (∀ w ∈ [rword 0x14 6 4 5 0 9, rword 0x14 8 4 5 0 8, rword 0x14 6 4 5 2 9, rword 0x14 8 4 5 2 8], Ready (onWord thr w) w) ∧
    (8 ≤ (thr.reg 5).toNat ∧ (thr.reg 5).toNat ≤ 4096 ∧ (thr.reg 5).toNat % 8 = 0 ∧ localWrite 0 (thr.reg 8).toNat (thr.reg 5).toNat = false ∧
      (thr.reg 8).toNat % 8 = 0) ∧
    Ready (onWord (groupThr []) (rword 0x14 6 4 7 2 8)) (rword 0x14 6 4 7 2 8) := by
  refine ⟨⟨readies (fun _ h => h) thr_ok (ws := [rword 0x09 0 0 0 0 0xFFFFFFFF]) (by simp only [State.Issues]; decide +kernel) _ (by simp), by decide +kernel⟩,
    by simp only [State.Issues]; decide +kernel, readies (fun _ h => h) thr_ok (by simp only [State.Issues]; decide +kernel), by decide +kernel, ?_⟩
  exact ready_with (f := id) (fun _ h => h) ⟨by simp [groupThr, thr], by simp [groupThr, thr]⟩ (by simp only [State.Issues]; decide +kernel)

/-- A unit that is in use, a PACK and the units that refuse their operands; a PACK of a layer, a buffer and a list; DIGESTs of too
many bytes and out of bounds. -/
theorem witness_routeUnitStarts_refused :
    (let s := onWith (fun x => (unitSlice x).onEngine 0 fun g => { g with busy := [(.topk, 1)] }) packThr (rword 0x19 3 6 0 0 0)
     s.Issues 0 0 0 (rword 0x19 3 6 0 0 0) ∧ ((s.sl 0).engine 0).busy.any (fun b => b.1 == .topk) = true) ∧
    (let w := rword 0x1C 10 9 8 0 0
     let s := onWith (fun x => withPhase (unitSlice x)) packThr w
     let h := s.thread 0 0 0
     s.Issues 0 0 0 w ∧ (s.sl 0).threadRun 0 0 = some phase0 ∧ ((s.sl 0).pools.match? (h.reg 10).toNat).isSome = true ∧
     bits (h.reg 8).toNat 40 0 = 0 ∧ s.members.contains (placeOf (h.reg 8).toNat) = true ∧
     ((((s.afterIssue 0 0 0 id).blockThread 0 0 0 (.waitUnit .pack)).packLayer 0 (h.reg 9).toNat phase0).isSome = true)) ∧
    (4194304 < (0x400001 : Nat) ∧ localRead 0xFFFFFF 2 = false) := by
  simp only [State.Issues]; decide +kernel

/-- ALLOCs in still-water mode that no class can grant, of a length that none serves and with an owner list that breaks its rule. -/
theorem witness_poolInstructions_refused :
    (∀ w ∈ [rword 0x20 3 5 0 0 0], (stilled (onWith (fun x => withPools { pool0 with owners := [{}, { kind := 1 }] } x) poolThr w)).Issues 0 0 0 w) ∧
    (({ pool0 with owners := [{}, { kind := 1 }] } : Pools).alloc 1 8 [1] 255).1 = .exhausted ∧ (pool0.alloc 1 0x100000000 [1] 255).1 = .unitArg ∧
    (let s := onWith (fun x => withPools pool0 (x.store (engineAddr 0 0xC40000) (List.replicate 16 0xFF#8))) poolThr (rword 0x20 3 5 0 0 0 + 6 * 2 ^ 39)
     (s.sl 0).poisoned (engineAddr 0 0xC40000) 16 = false ∧ s.ownerList 0 0 poolThr (rword 0x20 3 5 0 0 0 + 6 * 2 ^ 39) = none) := by
  simp only [State.Issues]; decide +kernel

/-- SEND of the two blocks that PACK left for slice 1, to the injection of the phase and to one it does not own, and of an
offset that is the start of none. -/
def sendSlice (x : SliceState) : SliceState := { withPhase x with exch := { packed := [(0x1000000, ⟨5, 1⟩, [32, 64])] } }

theorem sendSlice_ok (x : SliceState) (h : x.ok) : (sendSlice x).ok := h.of_eq rfl rfl rfl rfl rfl rfl

def sendThr (off : Nat) : Thread := { thr with g := (thr.g.set 10 (BitVec.ofNat 64 off)).set 11 96 }

theorem witness_exchangeSend : ∀ c ∈ [(0x1000000, 3, true), (0x1000000, 4, true), (0x1000010, 3, false)], Ready (onWith sendSlice (sendThr c.1) (rword 0x1D 0 10 11 0 c.2.1)) (rword 0x1D 0 10 11 0 c.2.1) ∧
    (((onWith sendSlice (sendThr c.1) (rword 0x1D 0 10 11 0 c.2.1)).sl 0).exch.blocksAt c.1 96).isSome = c.2.2 := by
  intro c hc
  refine ⟨ready_with sendSlice_ok ⟨by simp [sendThr, thr], by simp [sendThr, thr]⟩ ?_, ?_⟩
  · revert c; simp only [State.Issues]; decide +kernel
  · revert c; decide +kernel

/-- The same SEND in MARKED mode. -/
def marked (s : State) : State := { s with pkg := { s.pkg with congestionMode := 1 } }

theorem witness_exchangeSend_marked :
    let w := rword 0x1D 0 10 11 0 3
    let s := marked (onWith sendSlice (sendThr 0x1000000) w)
    Ready s w ∧ s.pkg.congestionMode = 1 ∧ (s.sl 0).threadRun 0 0 = some phase0 ∧ phase0.entry.f.injection = 3 ∧
    (s.sl 0).exch.blocksAt 0x1000000 96 = some (⟨5, 1⟩, [32, 64]) ∧ (cutAt [32, 64] ((s.sl 0).load 0x1000000 96)).length = 2 := by
  have h : Ready (onWith sendSlice (sendThr 0x1000000) (rword 0x1D 0 10 11 0 3)) (rword 0x1D 0 10 11 0 3) :=
    ready_with sendSlice_ok ⟨by simp [sendThr, thr], by simp [sendThr, thr]⟩ (by simp only [State.Issues]; decide +kernel)
  exact ⟨⟨h.1, h.2.1, h.2.2⟩, by decide +kernel⟩

/-! Results of route program instructions, worked out by hand. -/

def g3 (w : Nat) (i : Instr) : Word := ((after (exec i (onWord thr w))).thread 0 0 0).reg 3

theorem test_add_wraps : g3 (rword 0x02 3 3 2 0 0) (.add 0 0 0) = 11 := by decide +kernel
theorem test_sub_immediate : g3 (rword 0x03 3 1 0 1 0xFFFFFFFF) (.sub 0 0 0) = 8 := by decide +kernel
theorem test_mul : g3 (rword 0x04 3 1 2 0 0) (.mul 0 0 0) = 84 := by decide +kernel
theorem test_movi_sign : g3 (rword 0x01 3 0 0 0 0x80000000) (.movi 0 0 0) = 0xFFFFFFFF80000000 := by decide +kernel
theorem test_movi_high : g3 (rword 0x01 3 0 0 2 1) (.movi 0 0 0) = 0x1FFFFFFFF := by decide +kernel
theorem test_logic_andnot : g3 (rword 0x05 3 2 1 6 0) (.logic 0 0 0) = 8 := by decide +kernel
theorem test_shift_arithmetic : g3 (rword 0x06 3 3 2 4 0) (.shift 0 0 0) = 0xFFFFFFFFFFFFFFFF := by decide +kernel
theorem test_shift_logical : g3 (rword 0x06 3 3 2 2 0) (.shift 0 0 0) = 0xFFFFFFFFFFFFF := by decide +kernel

/-- 7 < all ones as unsigned numbers, and not as signed ones. -/
theorem test_cmp : ((after (exec (.cmp 0 0 0) (onWord thr (rword 0x07 2 1 3 4 0)))).thread 0 0 0).pred 2 = true ∧
    ((after (exec (.cmp 0 0 0) (onWord thr (rword 0x07 2 1 3 8 0)))).thread 0 0 0).pred 2 = false := by decide +kernel

theorem test_branch : ((after (exec (.br 0 0 0) (onWord thr (rword 0x09 0 0 0 0 7)))).thread 0 0 0).pc = 7 := by decide +kernel

theorem test_store_bytes : ((after (exec (.st 0 0 0) (onWord thr (rword 0x11 0 6 4 6 0)))).sl 0).load (engineAddr 0 0xC40000) 8 =
    [0x00#8, 0x10#8, 0#8, 0#8, 0#8, 0x62#8, 0#8, 0#8] := by decide +kernel

theorem test_xld_sends_read :
    let t := after (exec (.xld 0 0 0) (onWord thr (rword 0x12 3 4 0 6 8)))
    (t.sl 0).fabric.outMsgs.map (fun m => (m.dst, m.packets.map fun p => (p.opcode, p.dstOffset, p.payload))) =
      [(⟨6, 1⟩, [(0x10, 0x1008, [8#8, 0#8, 0#8, 0#8, 0#8, 0#8, 0#8, 0#8])])] ∧ (t.thread 0 0 0).st = .waitMem := by decide +kernel

theorem test_alloc_grants : ((after (exec (.alloc 0 0 0) (onWith (poolOf []) poolThr (rword 0x20 3 5 0 0 0)))).thread 0 0 0).reg 3 = 0x1000000 := by
  decide +kernel

/-! ### Records, panels and the exchange (chapters 03 and 05) -/

/-- A run of a role of layer 0 in the frame that starts at drip 96, launched at drip 100. -/
def roleRun (i : Nat) (r : PhaseRole) : Run :=
  { phase0 with idx := i, st := .waiting, entry := { phase0.entry with f := { role := r, layer := some 0 } } }

def digestRun : Run := { phase0 with idx := 9, st := .waiting, entry := { phase0.entry with unit := .sequencer, kind := .passDigest } }

/-- SELECT, GRANT and ASSIGN of layer 0 and the pass digest wait; every slice but 1 has its count record landed. -/
def recSlice (x : SliceState) : SliceState :=
  { x with
    runs := [roleRun 0 .select, roleRun 1 .grant, roleRun 2 .assign, digestRun]
    routing := { counts := ([0, 2, 3, 4, 5, 6, 7] : List Nat).map fun k => ⟨⟨5, k⟩, 0, 100, [1, 0]⟩ } }

theorem recSlice_ok (x : SliceState) (h : x.ok) : (recSlice x).ok := h.of_eq rfl rfl rfl rfl rfl rfl

def countMsg : Bytes := recordHeader 1 0 0 ⟨5, 1⟩ 2 100 ++ [3#8, 0#8, 0#8, 0#8]
def grantMsg : Bytes := recordHeader 2 0 0 ⟨5, 0⟩ 2 100 ++ leBytes 4 (3 + 16 * 2 ^ 16) ++ leBytes 4 0
def viewMsg : Bytes := recordHeader 7 0 0 ⟨5, 1⟩ 512 100 ++ zeros 128
def digestMsg : Bytes := recordHeader 8 0 0 ⟨5, 1⟩ 1 100 ++ List.replicate 64 7#8 ++ [1#8] ++ zeros 7

theorem witness_recordsLand :
    let s := moe recSlice
    let x := s.sl 0
    s.Inv ∧ s.layer? 0 0 = some layer0 ∧
    (let h := leNat (countMsg.take 16)
     rKind h = 1 ∧ rReservedOk h = true ∧ rSrc h = ⟨5, 1⟩ ∧ rOrder h = dOrder desc0 ∧ rLayer h = 0 ∧
     rEntries h = (slotsAt x desc0 (s.place 0)).length * perSlot desc0 ∧ countMsg.length = 16 + 2 * rEntries h ∧
     rSrc h ∈ s.members ∧ (x.expecting .grant 0 (rTag h)).isSome = true ∧
     (∀ p ∈ s.members, p = ⟨5, 1⟩ ∨ (x.routing.counts.any fun c => c.layer == 0 && c.tag == rTag h && c.src == p) = true) ∧
     (x.routing.counts.any fun c => c.src == ⟨5, 1⟩) = false) ∧
    (let h := leNat (grantMsg.take 16)
     rKind h = 2 ∧ rReservedOk h = true ∧ rSrc h = ⟨5, 0⟩ ∧ rOrder h = dOrder desc0 ∧ rLayer h = 0 ∧
     rEntries h = (slotsAt x desc0 ⟨5, 0⟩).length * perSlot desc0 ∧ grantMsg.length = 16 + 4 * rEntries h ∧
     s.holders 0 desc0 = [⟨5, 0⟩] ∧ (∀ k ∈ entries32 grantMsg 2, bits k 31 28 = 0) ∧ (x.expecting .assign 0 (rTag h)).isSome = true ∧
     x.routing.grants = []) ∧
    (let h := leNat (viewMsg.take 16)
     rKind h = 7 ∧ rReservedOk h = true ∧ rSrc h = ⟨5, 1⟩ ∧ (rLayer h, rEntries h) = ((s.viewLayers 0).1, 512 * (s.viewLayers 0).2) ∧
     viewMsg.length = 16 + ceilDiv (rEntries h) 4 ∧ s.tagInFrame (rTag h) = true ∧ x.tiers.viewLanded = []) ∧
    (let h := leNat (digestMsg.take 16)
     rKind h = 8 ∧ rReservedOk h = true ∧ rSrc h = ⟨5, 1⟩ ∧ rLayer h = 0 ∧ rEntries h = 1 ∧ digestMsg.length = 88 ∧
     (∀ b ∈ digestMsg.drop 81, b = 0) ∧ (digestRun ∈ x.runs ∧ digestRun.over = false ∧ digestRun.launchDrip.toNat % 65536 = rTag h) ∧
     x.svc.pass.digests = []) ∧
    rKind (leNat (viewMsg.take 16)) ≠ 1 :=
  ⟨moe_inv recSlice_ok, by decide +kernel⟩

/-- A panel of 2,112 bytes of 0 with its CRC in its trailer, and one with a 0 for its CRC. -/
def panelBytesOf (ok : Bool) : Bytes := zeros 2112 ++ (leBytes 4 (if ok then crc32c (zeros 2112) else crc32c (zeros 2112) + 1) ++ zeros 28)

def panelSlice (ok : Bool) (x : SliceState) : SliceState :=
  ({ x with svc := { x.svc with rowmap := [{ valid := true, ctx := 3, req := 2 }] } } : SliceState).store 0x1000 (panelBytesOf ok)

theorem panelSlice_ok (b : Bool) (x : SliceState) (h : x.ok) : (panelSlice b x).ok :=
  SliceState.ok.store (x := { x with svc := { x.svc with rowmap := [{ valid := true, ctx := 3, req := 2 }] } }) h 0x1000 (panelBytesOf b)

theorem panelOk_of (b : Bool) : panelOk (panelBytesOf b) = b := by
  have hc : crc32c (zeros 2112) < 2 ^ 32 := crc32c_lt _
  have hl : ∀ v, (zeros 2112 ++ (leBytes 4 v ++ zeros 28)).length - 32 = 2112 := by intro v; simp
  have ht : ∀ v, (zeros 2112 ++ (leBytes 4 v ++ zeros 28)).take 2112 = zeros 2112 := fun v => List.take_left' (by simp)
  have hd : ∀ v, (zeros 2112 ++ (leBytes 4 v ++ zeros 28)).drop 2112 = leBytes 4 v ++ zeros 28 := fun v => List.drop_left' (by simp)
  have h4 : ∀ v, (leBytes 4 v ++ zeros 28).take 4 = leBytes 4 v := fun v => List.take_left' (by simp)
  have hz : ∀ v, (zeros 2112 ++ (leBytes 4 v ++ zeros 28)).drop (2112 + 4) = zeros 28 := by
    intro v
    rw [← List.drop_drop, hd]
    exact List.drop_left' (by simp)
  unfold panelOk panelBytesOf
  dsimp only
  rw [hl, ht, hd, h4, hz, leNat_leBytes, show (zeros 28).all (fun x => x == 0) = true by decide, Bool.and_true]
  cases b
  · simp only [Bool.false_eq_true, if_false, beq_eq_false_iff_ne]
    omega
  · simp only [if_true, beq_iff_eq]
    omega

theorem witness_panelsAndLookahead :
    (∀ b, (moe (panelSlice b)).Inv ∧ (moe (panelSlice b)).layer? 0 0 = some layer0 ∧
      panelOk (((moe (panelSlice b)).sl 0).load (panelAddr desc0 0) (panelBytes desc0)) = b) ∧
    (moe id).layer? 0 0 = some layer0 ∧
    (let two : Image := { job0 with slices := [{ image0 with layers := [layer0, { layer0 with layer := 2 }] }] }
     let s : State := { moe id with job := some two }
     s.layer? 0 2 ≠ none ∧ ((s.img 0).layers.find? (fun i => (s.nextLayer 0 i.layer).map (·.layer) == some 2)) = some layer0) := by
  refine ⟨fun b => ⟨moe_inv (panelSlice_ok b), by cases b <;> rfl, ?_⟩, by decide +kernel⟩
  have hl : (panelBytesOf b).length = panelBytes desc0 := by
    rw [show panelBytes desc0 = 2144 by decide]; simp [panelBytesOf]
  have hm : ∀ x : SliceState, x.ok → (panelSlice b x).load 0x1000 (panelBytesOf b).length = panelBytesOf b :=
    fun x hx => SliceState.load_store (x := { x with svc := { x.svc with rowmap := [{ valid := true, ctx := 3, req := 2 }] } }) hx.1 0x1000 _
  have h0 : (moe (panelSlice b)).sl 0 = panelSlice b (((dev.sl 0).store 0x2000 (leBytes 32 (2 ^ 34 + 5 * 2 ^ 64)))) := rfl
  rw [h0, show panelAddr desc0 0 = 0x1000 by decide, ← hl, hm _ ((dev_inv.sl (by decide)).store _ _)]
  exact panelOk_of b

/-- The first panel of an engine of which no pass has begun, with and without a pass in the scoring unit, and that of a lookahead
pass of the layer before. -/
def scorePass : ScorePass := { desc := desc0, look := false, run := 0, next := 0 }

def sweepSlice (scores : Bool) (x : SliceState) : SliceState :=
  (panelSlice true x).onEngine 0 fun g => { g with scoring := if scores then some scorePass else none }

theorem sweepSlice_ok (b : Bool) (x : SliceState) (h : x.ok) : (sweepSlice b x).ok := (panelSlice_ok true x h).onEngine 0 fun _ hg => hg

def lookJob : Image := { job0 with slices := [{ image0 with layers := [layer0, { layer0 with layer := 1 }] }] }

theorem witness_panelsAndLookahead_sweep :
    (∀ b, (moe (sweepSlice b)).Inv) ∧
    (let s := moe (sweepSlice false)
     (s.sweepAt 0 0 0 0).map (·.look) = some false ∧ 0 < dExperts desc0 / 64 ∧ (s.sl 0).heldPanels 0 0 = [] ∧ ((s.sl 0).engine 0).scoring = none) ∧
    (let s := moe (sweepSlice true)
     (s.sweepAt 0 0 0 0).isSome = true ∧ ((s.sl 0).engine 0).scoring = some scorePass ∧ (s.layer? 0 (dLayer desc0)).isSome = true ∧
     s.passLayer 0 scorePass = some layer0) ∧
    (let s : State := { moe (fun x => { x with runs := [roleRun 0 .lookahead] }) with job := some lookJob }
     (s.sweepAt 0 0 1 0).map (·.look) = some true ∧ (s.layer? 0 1).isSome = true) :=
  ⟨fun b => moe_inv (sweepSlice_ok b), by decide +kernel⟩

/-- A section of slice 0 for two rows of slice 1, and a return section of slice 0 for one row at slice 1. -/
def secSlice (x : SliceState) : SliceState :=
  { x with
    runs := [roleRun 0 .select]
    exch := { sections := [{ isReturn := false, layer := 0, peer := ⟨5, 1⟩, slot := ⟨0, 0⟩, rows := [0, 1] },
                           { isReturn := true, layer := 0, peer := ⟨5, 1⟩, slot := ⟨0, 0⟩, rows := [4] },
                           { isReturn := false, layer := 0, peer := ⟨5, 2⟩, slot := ⟨1, 0⟩, rows := [], complete := true }]
              landing := [⟨0, some ⟨0, 0⟩, 0, 0x300000⟩, ⟨0, none, 0, 0x400000⟩] } }

theorem secSlice_ok (x : SliceState) (h : x.ok) : (secSlice x).ok := h.of_eq rfl rfl rfl rfl rfl rfl

def blockMsg (kind : Nat) (home exp : Place) (fmt rb : Nat) (rows : List (Nat × Bytes)) : Bytes :=
  ((sectionBlocks
      { kind := kind, layer := 0, zrun := false, fmt := fmt, count := 0, last := false, seq := 0, status := 0, tag := 100, home := home,
        exp := exp, slot := ⟨0, 0⟩, rowBytes := rb, payloadBytes := 0, crc := 0, rows := [] } false rows).getD 0 [])

def dispatchMsg : Bytes :=
  blockMsg 4 ⟨5, 1⟩ ⟨5, 0⟩ 0 (rowBytes 0 32) [(0, List.replicate (rowBytes 0 32) 9#8), (1, zeros (rowBytes 0 32))]
def returnMsg : Bytes := blockMsg 5 ⟨5, 0⟩ ⟨5, 1⟩ 4 (rowBytes 4 32) [(4, List.replicate (rowBytes 4 32) 5#8)]

theorem witness_exchangeBlocks :
    let s := moe secSlice
    let x := s.sl 0
    s.Inv ∧ s.layer? 0 0 = some layer0 ∧
    (∀ m ∈ [dispatchMsg, returnMsg],
      let n := leNat (m.take 64)
      let h := blockHeader n
      64 ≤ m.length ∧ headerReserved n = true ∧ x.selectTag s.frame h.layer = some h.tag ∧ (blockData (m.take 64) h (m.drop 64)).isSome = true ∧
      h.layer = 0 ∧ h.slot = ⟨0, 0⟩ ∧
      ∃ c ∈ x.exch.sections, blockFits c h = true ∧ (c.account h).isSome = true ∧
        x.exch.sections.find? (fun k => k.is (h.kind == 5) h.layer (if h.kind = 5 then h.exp else h.home) h.slot) = some c) ∧
    (let h := blockHeader (leNat (dispatchMsg.take 64))
     h.kind = 4 ∧ h.exp = s.place 0 ∧ h.status = 0 ∧ h.fmt = dHiddenFmt desc0 ∧ h.rowBytes = rowBytes (dHiddenFmt desc0) (dWidth desc0)) ∧
    (let h := blockHeader (leNat (returnMsg.take 64))
     h.kind = 5 ∧ h.home = s.place 0 ∧ h.fmt = layer0.returnFmt ∧ h.rowBytes = rowBytes (rowFmt layer0.returnFmt) (dWidth desc0)) ∧
    (∀ k ∈ (moe id).sl 0 |>.exch.sections, k.is false 0 ⟨5, 1⟩ ⟨0, 0⟩ = false) ∧
    ((∃ k ∈ x.exch.sections, k.isReturn = false ∧ k.layer = 0 ∧ k.slot = ⟨1, 0⟩) ∧
      ∀ k ∈ x.exch.sections, k.isReturn = false → k.layer = 0 → k.slot = ⟨1, 0⟩ → k.complete = true) :=
  ⟨moe_inv secSlice_ok, by decide +kernel⟩

/-- The same blocks with a wrong CRC. -/
theorem witness_exchangeBlocks_checksum : ∀ m ∈ [dispatchMsg, returnMsg],
    let b := m.take 24 ++ leBytes 4 (leNat (slice m 24 4) + 1) ++ m.drop 28
    let h := blockHeader (leNat (b.take 64))
    headerReserved (leNat (b.take 64)) = true ∧ blockData (b.take 64) h (b.drop 64) = none ∧
    ((moe secSlice).sl 0).selectTag (moe secSlice).frame h.layer = some h.tag ∧
    ∃ c ∈ ((moe secSlice).sl 0).exch.sections, blockFits c h = true ∧ c.is (h.kind == 5) h.layer (if h.kind = 5 then h.exp else h.home) h.slot = true := by
  decide +kernel

/-- The dispatched rows land in their landing buffer, and the section completes. -/
theorem test_dispatch_lands :
    let t := after (exec (.dispatchBlock 0 ⟨5, 1⟩ dispatchMsg) (moe secSlice))
    (t.sl 0).load 0x300000 2 = [9#8, 9#8] ∧ ((t.sl 0).exch.sections.map (·.complete)) = [true, false, true] ∧ 14 ∈ (t.sl 0).flags := by
  decide +kernel

/-- A waiting COMBINE phase of four threads, and one whose unit runs. -/
def combineRun (st : RunState) (begun : Bool) : Run :=
  { phase0 with st := st, begun := begun, entry := { phase0.entry with kind := .combine, f := { threads := 4, entry := 5, arg := 0xC40000#64 } } }

def combineSlice (st : RunState) (begun : Bool) (x : SliceState) : SliceState :=
  { (x.onEngine 0 fun g => { g with busy := if begun then [(.combine, 64)] else [] }) with runs := [combineRun st begun] }

theorem combineSlice_ok (st : RunState) (b : Bool) (x : SliceState) (h : x.ok) : (combineSlice st b x).ok :=
  (h.onEngine 0 (f := fun g => { g with busy := if b then [(.combine, 64)] else [] }) fun _ hg => hg).of_eq rfl rfl rfl rfl rfl rfl

theorem witness_combinePhase :
    (moe (combineSlice .waiting false)).Inv ∧ ((moe (combineSlice .waiting false)).actingRun 0 0 .combine).isSome = true ∧
    (moe (combineSlice .launched true)).Inv ∧ ((moe (combineSlice .launched true)).sl 0).runs = [combineRun .launched true] ∧
    (EngineUnit.combine, 64) ∈ (((moe (combineSlice .launched true)).sl 0).engine 0).busy :=
  ⟨moe_inv (combineSlice_ok _ _), by decide +kernel, moe_inv (combineSlice_ok _ _), by decide +kernel⟩

/-- A request of the pass in context 3. -/
def passReq : Request :=
  { slot := 2, cmd := { slot := 2, kind := 1, ctx := 3, tag := 0, words := [], ledgerIndex := 0, acceptDrip := 0 }, rows := 1, firstRow := 0
    frame := 96#48, deadline := 200#48 }

/-- A combine descriptor of layer 0 and one of a layer that the image lacks, and a request that its phase serves. -/
def combineSlice2 (n : Nat) (x : SliceState) : SliceState :=
  { combineSlice .launched true (x.store (engineAddr 0 0xC40000) (leBytes 32 n)) with svc := { x.svc with reqs := [passReq] } }

theorem witness_combinePhase_descriptors :
    (∀ c ∈ [(6, true), (6 + 9 * 2 ^ 8, false), (7, false)],
      let s := moe (combineSlice2 c.1)
      let n := leNat ((s.sl 0).load (engineAddr 0 0xC40000) 32)
      n = c.1 ∧ (combineOk n && (s.layer? 0 (bits n 15 8)).isSome) = c.2 ∧ (s.sl 0).runs = [combineRun .launched true]) ∧
    ∃ q ∈ ((moe (combineSlice2 7)).sl 0).svc.reqs, (moe (combineSlice2 7)).ties 0 (combineRun .launched true) q = true := by
  decide +kernel

/-! ### Quads and vector operations (chapters 06 and 07) -/

/-- A word of a quad program (Table 06-7): CLASS and OP [63:56], AMASK [55:52], D [51:48], A [47:44], B [43:40], FN [39:32],
IMM [31:0]. -/
def qword (code mask d a b fn imm : Nat) : Nat :=
  code * 2 ^ 56 + mask * 2 ^ 52 + d * 2 ^ 48 + a * 2 ^ 44 + b * 2 ^ 40 + fn * 2 ^ 32 + imm

/-- A descriptor of a row block (Table 06-6): 2 rows of 256 bytes in BF16, 256 bytes apart. -/
def rowBlock : Nat := 2 + 4 * 2 ^ 5 + 256 * 2 ^ 9 + 8 * 2 ^ 27

/-- Quad 0 runs the one word `w`, with chamber addresses, a row block, counts and a VOP count in its registers. -/
def quad0 (w : Nat) : Quad :=
  { st := .running, program := [BitVec.ofNat 64 w], ctx := 255
    q := [0, 0x100, BitVec.ofNat 64 rowBlock, 0x2000, 2, 1, 0x17FF000, 0x17FF001, 0x200, 0x300, 4 + 0x3F800000 * 2 ^ 32, 0x1000000] ++ [0x101, 32, 0x17FE000, 0x17FE001] }

def onQuadWord (f : Quad → Quad) (g : SliceState → SliceState) (w : Nat) : State := moe fun x => g (x.onQuad 0 fun _ => f (quad0 w))

theorem quad0_ok (w : Nat) : (quad0 w).ok :=
  ⟨rfl, List.length_replicate .., fun a ha => by rw [List.eq_of_mem_replicate ha]; exact List.length_replicate ..⟩

theorem onQuadWord_inv {f : Quad → Quad} (hf : ∀ k, k.ok → (f k).ok) {g : SliceState → SliceState} (hg : ∀ x, x.ok → (g x).ok) (w : Nat) :
    (onQuadWord f g w).Inv := moe_inv fun _ hx => hg _ (hx.onQuad 0 fun _ _ => hf _ (quad0_ok w))

/-- The words of the control and register instructions: LOOP with a count and words, with no count and with no words, BRZ taken
and not taken, WAIT_FLAG of a flag that is set and of one that is not, WAIT_DRIP of a later drip and of one that has come. -/
def controlWords : List Nat :=
  [qword 0x00 0 0 0 0 0 0, qword 0x10 0 3 0 0 0 5, qword 0x10 0 3 0 0 1 5, qword 0x11 0 3 1 0 0 5, qword 0x12 0 3 1 2 0 0, qword 0x13 0 3 1 0 0 5] ++
  [qword 0x20 0 3 0 0 0 0, qword 0x05 0 0 0 0 0 (2 + 3 * 2 ^ 16), qword 0x05 0 0 0 0 0 2, qword 0x05 0 0 0 0 0 (3 * 2 ^ 16), qword 0x06 0 0 0 0 0 0,
   qword 0x06 0 0 1 0 0 7] ++
  [qword 0x03 0 0 0 0 0 9, qword 0x03 0 0 0 0 0 8, qword 0x02 0 0 0 0 0 5, qword 0x02 0 0 0 0 0 4, qword 0x04 0 0 0 0 0 9, qword 0x01 0 0 0 0 0 0]

theorem witness_quadControl :
    (∀ w ∈ controlWords, (onQuadWord id withPhase w).Inv ∧ (onQuadWord id withPhase w).QuadIssues 0 0 w) ∧
    Drip.later (Drip.plus 96#48 5) 100#48 = true ∧ Drip.later (Drip.plus 96#48 4) 100#48 = false ∧
    ((onQuadWord (fun k => { k with pc := 8192 }) id 0).quad 0 0).pc = 8192 ∧
    (∃ k : Quad, k = { quad0 0 with loops := [{ first := 0, stop := 1, left := 2 }] } ∧ k.goTo (k.pc + 1) = { k with loops := [{ first := 0, stop := 1, left := 1 }] }) := by
  refine ⟨fun w hw => ⟨onQuadWord_inv (fun _ h => h) withPhase_ok w, ?_⟩, by decide, by decide, by decide +kernel, ⟨_, rfl, by decide +kernel⟩⟩
  revert w; simp only [State.QuadIssues]; decide +kernel

/-- A zero tile in BF16: a header with its CRC and no payload (Table 06-2); one with a wrong CRC. -/
def zeroTile (bad : Nat) : Bytes :=
  tileHeader 4 2 0 127 127 7 (tileCrc (tileHeader 4 2 0 127 127 7 0) [] + bad)

def withTiles (bad : Nat) (x : SliceState) : SliceState := x.store (chamberAddr 0 0x2000) (zeroTile bad ++ zeroTile bad)

/-- WLOAD of two zero tiles, of one whose CRC fails and of one without a header; SWAP of a full and of an empty shadow; ROWCOPY
of 32 bytes inside the chamber store, and to its end. -/
theorem witness_quadWeightBus :
    (∀ c ∈ [(0, qword 0x30 1 3 3 4 1 0), (1, qword 0x30 1 3 3 5 1 0), (0, qword 0x30 1 3 1 5 1 0), (0, qword 0x31 1 0 0 0 0 0)],
      (onQuadWord id (withTiles c.1) c.2).Inv ∧ (onQuadWord id (withTiles c.1) c.2).QuadIssues 0 0 c.2) ∧
    (∀ c ∈ [0, 1], ∀ p ∈ [0x2000, 0x2020], ((onQuadWord id (withTiles c) 0).sl 0).load (chamberAddr 0 p) 32 = zeroTile c ∧ tileHeaderOk (leNat (zeroTile c)) = true ∧
      thBytes (leNat (zeroTile c)) = 0 ∧ tileCrcOk (zeroTile c) = (c == 0)) ∧
    tileHeaderOk (((onQuadWord id (withTiles 0) 0).sl 0).loadNat (chamberAddr 0 0x100) 32) = false ∧
    (∀ i ∈ qArrays (qword 0x31 1 0 0 0 0 0), ((quad0 0).array i).shadow = none ∧
      (({ quad0 0 with arrays := List.replicate 4 { shadow := some { bytes := zeroTile 0 } } } : Quad).array i).shadow.isSome = true) ∧
    (∀ w ∈ [qword 0x40 0 1 11 13 0 0, qword 0x40 0 7 11 13 0 0], (onQuadWord id (withTiles 0) w).QuadIssues 0 0 w) ∧
    inRegion 0x1000000 32 .hbm = true ∧ ownChamber 0 0x100 32 = some (chamberAddr 0 0x100) ∧ ownChamber 0 0x17FFFE0 32 = some (chamberAddr 0 0x17FFFE0) ∧
    ownChamber 0 0x17FFFE1 32 = none := by
  refine ⟨fun c hc => ⟨onQuadWord_inv (fun _ h => h) (fun x h => h.store _ _) _, ?_⟩, by decide +kernel, by decide +kernel, by decide +kernel, ?_, by decide +kernel⟩
  · revert c; simp only [State.QuadIssues]; decide +kernel
  · simp only [State.QuadIssues]; decide +kernel

/-- STREAM of an illegal descriptor, of a block that ends at the end of the chamber store and of one that ends beyond, and ACCLOAD
up to its end and beyond. -/
theorem witness_quadStreams :
    (∀ w ∈ [qword 0x41 1 0 1 0 0 0, qword 0x41 1 0 6 2 0 0, qword 0x41 1 0 7 2 0 0, qword 0x42 1 0 14 0 0 0, qword 0x42 1 0 15 0 0 0],
      (onQuadWord id id w).Inv ∧ (onQuadWord id id w).QuadIssues 0 0 w) ∧
    rowDesc 0 = none ∧ rowDesc rowBlock = some { rows := 2, fmt := 4, rowBytes := 256, stride := 256 } ∧ 0x17FF000 + (15 * 256 + 256) = 0x1800000 ∧
    rowsPoisoned ((onQuadWord id id 0).sl 0) { rows := 2, fmt := 4, rowBytes := 256, stride := 256 } [(chamberAddr 0 0x17FF000, 15 * 256 + 256)] 0 128 = false ∧
    0x17FE000 + 2048 * elemBytes 9 = 0x1800000 ∧ ((onQuadWord id id 0).sl 0).poisoned (chamberAddr 0 0x17FE000) 8192 = false := by
  refine ⟨fun w hw => ⟨onQuadWord_inv (fun _ h => h) (fun _ h => h) w, ?_⟩, by decide +kernel⟩
  revert w; simp only [State.QuadIssues]; decide +kernel

/-- Tiles of each form, forward and transposed, that a stream of BF16 rows matches, and two that it does not. -/
theorem witness_quadStreams_tiles :
    (∀ c ∈ [(formZero, false, false, 0), (formDense, false, false, 0), (formSparse, true, false, 0), (formDense, false, true, 7), (formSparse, false, true, 6)],
      streamFits (leNat (tileHeader 4 c.1 0 127 127 7 0)) 4 c.2.1 c.2.2.1 c.2.2.2 = true ∧ thForm (leNat (tileHeader 4 c.1 0 127 127 7 0)) = c.1) ∧
    streamFits (leNat (tileHeader 4 formDense 0 127 127 7 0)) 4 true false 0 = false ∧
    streamFits (leNat (tileHeader 4 formSparse 0 127 127 7 0)) 4 false true 7 = false := by decide

/-- DRAIN of one array to the chamber store, with an illegal descriptor, and DRAINT inside and outside a write window. -/
def windowed (x : SliceState) : SliceState := { x with tiers := { x.tiers with window := { ranges := [⟨0x1000000, 0x10000⟩], isOpen := true } } }

def withExch (e : Exchange) (x : SliceState) : SliceState := { x with exch := e }

theorem withExch_ok (e : Exchange) {x : SliceState} (h : x.ok) : (withExch e x).ok := h

def poisoned0 : PoisonedDrain :=
  { code := 0x13, array := 0, tileId := 7, cur := some (0, 5), at_ := 99#48
    run := { phase0 with entry := { phase0.entry with f := { slots := [⟨0, 5⟩] } } } }

def poisonSlice (x : SliceState) : SliceState :=
  withExch { sections := [{ isReturn := false, layer := 0, peer := ⟨5, 1⟩, slot := ⟨0, 5⟩, rows := [0], status := some 0x12 }] }
    (x.onQuad 0 fun k => { k with poisoned := [poisoned0] })

theorem poisonSlice_ok (x : SliceState) (h : x.ok) : (poisonSlice x).ok :=
  withExch_ok _ (h.onQuad 0 (f := fun k => { k with poisoned := [poisoned0] }) fun _ hk => hk)

theorem windowed_ok (x : SliceState) (h : x.ok) : (windowed x).ok := h

theorem witness_quadDrains :
    ∀ w ∈ [qword 0x50 1 1 0 2 0 0, qword 0x50 1 1 0 0 0 0, qword 0x51 1 11 0 0 0 4, qword 0x51 1 3 0 0 0 4],
      (onQuadWord id windowed w).Inv ∧ (onQuadWord id windowed w).QuadIssues 0 0 w :=
  fun w hw => ⟨onQuadWord_inv (fun _ h => h) windowed_ok w, by revert w; simp only [State.QuadIssues]; decide +kernel⟩

theorem witness_quadDrains_places :
    drainAddr 0 0x100 4096 = some (chamberAddr 0 0x100) ∧ drainAddr 0 0x4000000000 4096 = none ∧
    ((onQuadWord id windowed 0).sl 0).drainWritable (chamberAddr 0 0x100) 4096 = true ∧
    ((onQuadWord id windowed 0).sl 0).tiers.inWindow 0x1000000 (32 + tilePayload 4 formDense) = true ∧
    ((onQuadWord id windowed 0).sl 0).tiers.inWindow 0x2000 (32 + tilePayload 4 formDense) = false := by decide +kernel

theorem witness_quadDrains_report :
    (moe poisonSlice).Inv ∧ ((moe poisonSlice).quad 0 0).poisoned.length = 1 ∧ Drip.later 100#48 99#48 = true :=
  ⟨moe_inv poisonSlice_ok, by decide +kernel, by decide⟩

/-- VOPs of four binary32 values at 0x100 and 0x200 into 0x300, and one whose source is not at a multiple of 32. -/
theorem witness_vectorOperations :
    (∀ code ∈ [0x00, 0x01, 0x08, 0x20], (onQuadWord (fun k => { k with q := (k.q.set 8 0x100).set 9 0x200 |>.set 1 0x300 }) id
      (qword 0x60 0 1 8 10 0x99 code)).QuadIssues 0 0 (qword 0x60 0 1 8 10 0x99 code)) ∧
    (let k : Quad := { quad0 0 with q := ((quad0 0).q.set 8 0x100).set 9 0x200 |>.set 1 0x300 }
     let w := qword 0x60 0 1 8 10 0x99 0
     (vopArgs k w .none false).isSome = true ∧ (vopArgs k w .each false).isSome = true ∧ (vopArgs k w .one false).isSome = true ∧
     (vopArgs k w .none true).isSome = true ∧ vopArgs k (qword 0x60 0 1 12 10 0x99 0) .none false = none) ∧
    (∀ a ∈ [0x100, 0x200], ((onQuadWord id id 0).sl 0).poisoned (chamberAddr 0 a) 16 = false) := by
  refine ⟨?_, by decide +kernel⟩
  simp only [State.QuadIssues]; decide +kernel

/-- WLOAD that finds its first word uncorrectable poisons the shadow that it fills. -/
theorem test_wload_bad :
    let t := after (exec (.wload { on := 0, bad := [chamberAddr 0 0x2000] } 0) (onQuadWord id (withTiles 0) (qword 0x30 1 3 3 5 1 0)))
    ((t.quad 0 0).array 0).shadow.map (fun z => z.poison.isSome) = some true := by decide +kernel

/-! Results of quad instructions, worked out by hand. -/

def q3 (w : Nat) (i : Instr) : Word := ((after (exec i (onQuadWord id id w))).quad 0 0).reg 3

theorem test_quad_addi : q3 (qword 0x11 0 3 1 0 0 0xFFFFFFFF) (.addi 0 0) = 0xFF := by decide +kernel
theorem test_quad_set_high : q3 (qword 0x10 0 3 0 0 1 5) (.quadSet 0 0) = 0x500002000 := by decide +kernel
theorem test_quad_muli : q3 (qword 0x13 0 3 1 0 0 3) (.muli 0 0) = 0x300 := by decide +kernel

/-- 1.0 + 2.0 = 3.0 in binary32, by VOP ADD. -/
theorem test_vop_add :
    let f (x : SliceState) : SliceState := (x.store (chamberAddr 0 0x100) (leBytes 4 0x3F800000)).store (chamberAddr 0 0x200) (leBytes 4 0x40000000)
    let s := onQuadWord (fun k => { k with q := ((k.q.set 8 0x100).set 9 0x200).set 1 0x300 }) f (qword 0x60 0 1 8 10 0x99 1)
    ((after (exec (.vopAdd 0 0) s)).sl 0).loadNat (chamberAddr 0 0x300) 4 = 0x40400000 := by decide +kernel

/-- WLOAD counts two tiles and leaves the address after them; the shadow holds the second. -/
theorem test_wload :
    let t := after (exec (.wload { on := 0 } 0) (onQuadWord id (withTiles 0) (qword 0x30 1 3 3 4 1 0)))
    (t.quad 0 0).reg 3 = 0x2040 ∧ (t.sl 0).arr.tilesLoaded = 2 ∧ ((t.quad 0 0).array 0).shadow = some { bytes := zeroTile 0 } := by decide +kernel

/-! ### Time, stages, failing units and tiers (chapters 02, 08 and 19) -/

/-- A device without a job whose dividers run, with a thread and a quad that wait for drips 101 and 102; and one stage of a job
whose due drip is 100, or 101. -/
def waiting (d : Drip) : State := dev.onSl 0 fun x => (x.onThread 0 0 fun h => { h with st := .waitDrip d }).onQuad 0 fun k => { k with st := .waitDrip d }

theorem waiting_inv (d : Drip) : (waiting d).Inv :=
  (State.Keeps.onSl dev 0 fun _ hx => (hx.onThread 0 0 (f := fun h => { h with st := .waitDrip d }) fun _ hk => hk).onQuad 0
    (f := fun k => { k with st := .waitDrip d }) fun _ hk => hk).2 dev_inv

def dueRun (due : Nat) : Run := { phase0 with entry := { phase0.entry with due := due } }

def oneRun (u : Run) : State := moe fun x => { x with runs := [u] }

theorem oneRun_inv (u : Run) : (oneRun u).Inv := moe_inv fun _ hx => hx.of_eq rfl rfl rfl rfl rfl rfl

theorem witness_dripBoundary :
    (∀ d, (waiting d).Inv) ∧ ((waiting 101#48).thread 0 0 0).st = .waitDrip 101#48 ∧ ((waiting 102#48).quad 0 0).st = .waitDrip 102#48 ∧
    ((waiting 101#48).job = none ∧ (waiting 101#48).fw.rollout = 0 ∧ ∀ x ∈ (waiting 101#48).slices, x.runs = [] ∧ x.svc.reqs = [] ∧ x.spares.waiting = []) ∧
    (∀ due, (oneRun (dueRun due)).Inv) ∧
    ((oneRun (dueRun 4)).isFrameStart 101#48 = false ∧ (∀ x ∈ (oneRun (dueRun 4)).slices, x.svc.reqs = []) ∧
      (∀ i : SliceId, i ≠ 0 → ((oneRun (dueRun 4)).sl i).runs = [])) ∧
    Drip.later 101#48 (dueRun 4).dueDrip = true ∧ Drip.later 101#48 (dueRun 5).dueDrip = false :=
  ⟨waiting_inv, by decide +kernel, by decide +kernel, by decide +kernel, fun _ => oneRun_inv _, by decide +kernel, by decide, by decide⟩

/-- The boundary after drip 100 wakes what waits for 101 and not what waits for 102. -/
theorem test_boundary_wakes :
    ((after (exec .dripBoundary (waiting 101#48))).thread 0 0 0).st = .ready ∧
    ((after (exec .dripBoundary (waiting 102#48))).quad 0 0).st = .waitDrip 102#48 ∧ (after (exec .dripBoundary (waiting 101#48))).now = 101#48 := by
  decide +kernel

/-- The drip number wraps at 48 bits (R25). -/
theorem test_drip_wraps : (after (exec .dripBoundary { dev with time := { drip := 0xFFFFFFFFFFFF#48 } })).now = 0#48 := by decide +kernel

/-- A stage whose launch drip is the current one and one for the next, of each kind the statement names. -/
def stageOf (k : StageKind) (u : UnitName) (launch : Nat) (ins : List Nat) (st : RunState) : Run :=
  { idx := 0, frame := 96#48, st := st, launchedAt := 100#48, entry := { unit := u, launch := launch, duration := 2, due := 40, inputs := ins, kind := k, f := { threads := 2, entry := 3, sets := some 7 } } }

theorem witness_stageLaunches :
    (∀ u : Run, (oneRun u).Inv) ∧
    (∀ u ∈ [stageOf .quad (.quad 0) 4 [] .waiting, stageOf .route (.engine 0) 4 [] .waiting, stageOf .inject (.port 0) 4 [] .waiting],
      ((oneRun u).sl 0).waitingRun 0 = some u ∧ (oneRun u).launchable 0 u = true) ∧
    (∀ u ∈ [stageOf .quad (.quad 0) 5 [] .waiting, stageOf .quad (.quad 0) 4 [3] .waiting], (oneRun u).launchable 0 u = false) ∧
    (stageOf .quad (.quad 0) 4 [3] .waiting).launchDrip = 100#48 ∧
    ((oneRun (stageOf .quad (.quad 0) 4 [3] .waiting)).sl 0).present? (stageOf .quad (.quad 0) 4 [3] .waiting) = false ∧
    (∀ u ∈ [stageOf .receive (.port 0) 4 [] .launched, stageOf .inject (.port 0) 4 [] .launched], ((oneRun u).sl 0).launchedRun 0 = some u) ∧
    ((oneRun (stageOf .inject (.port 0) 4 [] .launched)).sl 0).fabric.windowed = [] :=
  ⟨oneRun_inv, by decide +kernel, by decide +kernel, by decide, by decide +kernel⟩

/-- A quad segment starts with its launch drip in q2 and the rest 0. -/
theorem test_launch_segment :
    let t := after (exec (.stageLaunch 0 0 []) (oneRun (stageOf .quad (.quad 0) 4 [] .waiting)))
    (t.quad 0 0).st = .running ∧ (t.quad 0 0).pc = 3 ∧ (t.quad 0 0).q = [0, 0, 100] ++ List.replicate 13 0 := by decide +kernel

/-- A collision of the chamber store: array 1's drain wins over the weight-bus fill; and one of a point that is not checked. -/
def hit : Collision := { row := 2, inst := 5, won := (0, 1), lost := (2, 0) }

def withReq (x : SliceState) : SliceState :=
  { x with svc := { x.svc with
      reqs := [{ slot := 2, cmd := { slot := 2, kind := 1, ctx := 3, tag := 0, words := [], ledgerIndex := 0, acceptDrip := 0 }, rows := 1, firstRow := 0,
                 frame := 96#48, deadline := 200#48 }] } }

/-- A device in still-water mode, or not, with a request of the pass and a segment that may launch. -/
def colliding (still : Bool) : State :=
  { (oneRun (stageOf .quad (.quad 0) 4 [] .waiting)).onSl 0 withReq with still := { on := still } }

theorem colliding_inv (b : Bool) : (colliding b).Inv :=
  (State.Keeps.of_eq (s := (oneRun (stageOf .quad (.quad 0) 4 [] .waiting)).onSl 0 withReq) (t := colliding b) rfl rfl rfl rfl rfl rfl).2
    ((State.Keeps.onSl (f := withReq) _ 0 fun _ h => h.of_eq rfl rfl rfl rfl rfl rfl).2 (oneRun_inv _))

theorem witness_collisions :
    (∀ b : Bool, ((colliding b).sl 0).waitingRun 0 = some (stageOf .quad (.quad 0) 4 [] .waiting) ∧
      (colliding b).launchable 0 (stageOf .quad (.quad 0) 4 [] .waiting) = true ∧ (colliding b).still.on = b) ∧
    collides true hit = true ∧ collides true { hit with row := 11 } = false ∧
    ∃ r ∈ ((colliding true).sl 0).svc.reqs, (colliding true).ties 0 (stageOf .quad (.quad 0) 4 [] .waiting) r = true :=
  ⟨by decide +kernel, by decide, by decide, by decide +kernel⟩

/-- A stage whose launch drip is the current one and whose input is absent in still-water mode, and a launched stage that
collides. -/
theorem witness_stageLaunches_still :
    (let s := stilled (oneRun (stageOf .quad (.quad 0) 4 [3] .waiting))
     (s.sl 0).waitingRun 0 = some (stageOf .quad (.quad 0) 4 [3] .waiting) ∧ s.still.on = true ∧ (stageOf .quad (.quad 0) 4 [3] .waiting).launchDrip = s.now ∧
     (s.sl 0).present? (stageOf .quad (.quad 0) 4 [3] .waiting) = false) ∧
    (let s := stilled ((oneRun (stageOf .quad (.quad 0) 4 [] .launched)).onSl 0 withReq)
     (s.sl 0).waitingRun 0 = none ∧ (s.sl 0).launchedRun 0 = some (stageOf .quad (.quad 0) 4 [] .launched) ∧
     ∃ r ∈ (s.sl 0).svc.reqs, s.ties 0 (stageOf .quad (.quad 0) 4 [] .launched) r = true) ∧
    ((oneRun { stageOf .route (.engine 0) 4 [] .launched with lateInput := true }).sl 0).runs.map (·.lateInput) = [true] := by decide +kernel

/-- R49: counted, recorded with D0 row 2 of instance 5, D1 position 0 of index 1, D2 position 2, and the request ends. -/
theorem test_collision :
    let t := after (exec (.stageLaunch 0 0 [hit, { hit with row := 11 }]) (colliding true))
    t.time.collisions = 1 ∧ ((t.sl 0).svc.reqs.map fun r => r.conds.map fun c => (c.given, c.status)) = [[(101#48, Status.scheduleCollision)]] ∧
    (((t.sl 0).err.opened.map fun k => (k.r.cls, k.r.status, k.r.detail)) ++ (t.sl 0).err.queued.map fun k => (k.cls, k.status, k.detail)) =
      [(0x02, 0x19, [0x502, 0x100, 0x2])] := by decide +kernel

/-- R50: only counted outside still-water mode. -/
theorem test_collision_counted :
    let t := after (exec (.stageLaunch 0 0 [hit]) (colliding false))
    t.time.collisions = 1 ∧ ((t.sl 0).svc.reqs.map fun r => r.conds) = [[]] := by decide +kernel

/-- A port that is UP, on devices in each state of time that the statement names. -/
def timed (tm : Time) (s : State) : State := { s.onLink 0 (.port 0) (fun k => { k with st := linkUp }) with time := tm }

theorem timed_inv (tm : Time) {s : State} (h : s.Inv) : (timed tm s).Inv :=
  ((State.Keeps.onLink s 0 (.port 0) fun k => { k with st := linkUp }).trans (.of_eq rfl rfl rfl rfl rfl rfl)).2 h

theorem witness_timeSymbolsAndPackets :
    (∀ tm, (timed tm dev).Inv ∧ (timed tm (moe id)).Inv) ∧ (∀ tm, ((timed tm dev).link 0 (.port 0)).st = linkUp) ∧
    (timed { parent := 0, state := 2 } (moe id)).job.isSome = true ∧ (timed { parent := 0, state := 1 } dev).job = none ∧
    (∀ (i : SliceId) (r : PortId), ((timed {} dev).link i (.port r)).timePkt = none) ∧ (timed {} dev).pkg.nodeId = 5 :=
  ⟨fun tm => ⟨timed_inv tm dev_inv, timed_inv tm (moe_inv fun _ h => h)⟩, fun _ => rfl, by decide +kernel⟩

/-- R38: with T1 1,000, its echo 2,000 sent and 1,900 received, and this one received at 1,300, the offset is half of
-100 - 300 = -400, so -200; the time goes from 5,000 to 4,800, and the bound is 10 + 200 + 32. -/
theorem test_time_symbol :
    let t := after (exec (.timeSymbol 0 0 { t1 := 1000, echoT1 := 2000, echoRx := 1900, gmErr := 10, rx := 1300 })
      (timed { parent := 0, state := 1, now := 5000 } dev))
    t.time.now = 4800 ∧ t.time.errBound = 242 := by decide +kernel

/-- Symbols that echo one of the port's and that echo none, at a parent port in ACQUIRING and in LOCKED. -/
theorem witness_timeSymbolsAndPackets_pairs :
    paired { t1 := 1000, echoT1 := 2000, echoRx := 1900, gmErr := 10, rx := 1300 } = true ∧
    paired { t1 := 1000, echoT1 := 0, echoRx := 0, gmErr := 10, rx := 1300 } = false ∧
    (timed { parent := 0, state := 1, now := 5000 } dev).time.stepped = false ∧
    (timed {} dev).time.hasOrigin = false ∧ (timed {} dev).timePorts = [] ∧ (timed {} dev).time.state = 0 ∧
    (timed { state := 4, held := true } dev).time.held = true := by decide +kernel

/-- A symbol that echoes nothing moves no time. -/
theorem test_time_symbol_unpaired :
    (after (exec (.timeSymbol 0 0 { t1 := 1000, echoT1 := 0, echoRx := 0, gmErr := 10, rx := 1300 })
      (timed { parent := 0, state := 1, now := 5000 } dev))).time.now = 5000 := by decide +kernel

/-- A device that owes the end of what crosses its edge: with a request that crosses and with one that does not. -/
def freed (port : Bool) : State :=
  { (oneRun (stageOf .inject (if port then .port 0 else .link 1) 4 [] .waiting)).onSl 0 withReq with time := { state := 0, drip := 100#48, freeDue := true } }

theorem witness_timeInputAndHoldover_free : ∀ b : Bool,
    (freed b).time.freeDue = true ∧ (freed b).pkg.congestionMode = 0 ∧ (freed b).job.isSome = true ∧
    (∃ r ∈ ((freed b).sl 0).svc.reqs, (freed b).crosses 0 r = b) ∧ ((freed b).sl 0).runs.map ((freed b).stopsWhole 0) = [b] := by decide +kernel

theorem witness_timeInputAndHoldover :
    (∀ tm, ({ dev with time := tm } : State).Inv) ∧
    (let s : State := { (oneRun (stageOf .inject (.port 0) 4 [] .waiting)).onSl 0 (fun x => { x with svc := { x.svc with
        reqs := [{ slot := 2, cmd := { slot := 2, kind := 1, ctx := 3, tag := 0, words := [], ledgerIndex := 0, acceptDrip := 0 }, rows := 1, firstRow := 0,
                   frame := 96#48, deadline := 200#48 }] } }) with time := { state := 3, drip := 100#48 } }
     s.pkg.congestionMode = 0 ∧ s.time.state = 3 ∧ ∃ k ∈ (s.sl 0).runs, k.entry.kind = .inject ∧ k.entry.unit = .port 0) :=
  ⟨fun tm => (State.Keeps.of_eq (s := dev) rfl rfl rfl rfl rfl rfl).2 dev_inv, by decide +kernel⟩

theorem witness_failedUnits :
    (moe id).job = some job0 ∧ ((moe id).sl 0).spares.array.getD 0 7 = 7 ∧
    (moe fun x => { x with spares := { x.spares with margins := [(⟨3, 1⟩, 1, false)], migrating := [(2, 5, none)] } }).Inv ∧
    (let p := ((moe fun x => { x with spares := { x.spares with margins := [(⟨3, 1⟩, 1, false)], migrating := [(2, 5, none)] } }).sl 0).spares
     p.margins.find? (fun k => k.1 == ⟨3, 1⟩) = some (⟨3, 1⟩, 1, false) ∧ p.migrating.find? (fun k => k.1 == 2) = some (2, 5, none)) :=
  ⟨by decide +kernel, by decide +kernel, moe_inv fun _ h => h, by decide +kernel⟩

/-- The one fetch of the one slot of the pool: two tiles of 32 bytes, the first landed or both. -/
def resEntry (st : Nat) : ResEntry := { layer := 0, quad := 0, slot := 0, state := st, pool := true, sumpAddr := 0x8000000000, tiles := 2, imageBytes := 64 }

def fetchOf (landed : List Nat) : Fetch := { kind := .demand, layer := 0, slot := ⟨0, 0⟩, frame := 1, due := 120#48, projected := 120#48, landed := landed }

def fetching (landed : List Nat) (x : SliceState) : SliceState :=
  { x with tiers := { x.tiers with poolBase := 0x2000000, poolFrames := 16, frameBytes := 8192, res := [resEntry 2], fetches := [fetchOf landed] }
           sump := { link := 3, capacity := 0x10000000 } }

theorem fetching_ok (l : List Nat) (x : SliceState) (h : x.ok) : (fetching l x).ok := h.of_eq rfl rfl rfl rfl rfl rfl

theorem witness_tierFetches :
    (∀ l, (moe (fetching l)).Inv) ∧
    (∀ l ∈ [[0], [0, 1]],
      let k := ((moe (fetching l)).sl 0).tiers
      k.fetch? 0 ⟨0, 0⟩ = some (fetchOf l) ∧ k.res = [resEntry 2] ∧ k.entry? 0 ⟨0, 0⟩ = some (resEntry 2) ∧ k.fetches = [fetchOf l]) ∧
    (1 < (resEntry 2).tiles ∧ 1 ∉ (fetchOf [0]).landed ∧ (fetchOf [0, 1]).landed.length = (resEntry 2).tiles) ∧
    (tileCrcOk (zeroTile 0) = true ∧ tileCrcOk (zeroTile 1) = false) ∧ ((moe (fetching [0])).sl 0).sump.link = 3 ∧
    (let u := { stageOf .prefetch .sump 4 [] .waiting with entry := { (stageOf .prefetch .sump 4 [] .waiting).entry with f := {} } }
     ((oneRun u).actingRun 0 0 .prefetch).isSome = true ∧ u.entry.f.prefetch = []) :=
  ⟨fun l => moe_inv (fetching_ok l), by decide +kernel, by decide, by decide +kernel⟩

/-- A fetch whose last tile has just landed, and a PREFETCH of the one slot with a free frame. -/
def prefetching (x : SliceState) : SliceState :=
  { fetching [] x with
    tiers := { (fetching [] x).tiers with fetches := [], res := [resEntry 1] }
    runs := [{ stageOf .prefetch .sump 4 [] .waiting with entry := { (stageOf .prefetch .sump 4 [] .waiting).entry with f := { prefetch := [(0, ⟨0, 0⟩)] } } }] }

theorem prefetching_ok (x : SliceState) (h : x.ok) : (prefetching x).ok := h.of_eq rfl rfl rfl rfl rfl rfl

/-- Fetches under way, and fetches whose slot is STAGED and whose end is still to be told. -/
def arrived (l p : List Fetch) (x : SliceState) : SliceState := { x with tiers := { x.tiers with fetches := l, present := p } }

theorem arrived_ok (l p : List Fetch) (x : SliceState) (h : x.ok) : (arrived l p (fetching [] x)).ok := h.of_eq rfl rfl rfl rfl rfl rfl

theorem witness_tierFetches_prefetch :
    (moe prefetching).Inv ∧
    (let x := (moe prefetching).sl 0
     ((moe prefetching).actingRun 0 0 .prefetch).isSome = true ∧ x.tiers.entry? 0 ⟨0, 0⟩ = some (resEntry 1) ∧
     x.tiers.fetching 0 ⟨0, 0⟩ = false ∧ x.tiers.freeFrame = some 0) ∧
    (∀ l f, (moe fun y => arrived l f (fetching [] y)).Inv) ∧
    (∀ f ∈ [fetchOf [0, 1], { fetchOf [0, 1] with full := some 100#48 }, { fetchOf [0, 1] with failed := true }],
      let k := ((moe fun y => arrived [f] [{ fetchOf [0, 1] with full := some 120#48 }] (fetching [] y)).sl 0).tiers
      k.fetches = [f] ∧ k.res = [resEntry 2] ∧ k.entry? 0 ⟨0, 0⟩ = some (resEntry 2) ∧
      k.present = [{ fetchOf [0, 1] with full := some 120#48 }]) :=
  ⟨moe_inv prefetching_ok, by decide +kernel, fun l f => moe_inv (arrived_ok l f), by decide +kernel⟩

def sumpSlice (x : SliceState) : SliceState := { x with sump := { serial := 9, capacity := 0x10000000 }, life := [{ st := 2 }, {}, {}] }

theorem sumpSlice_ok (x : SliceState) (h : x.ok) : (sumpSlice x).ok := h.of_eq rfl rfl rfl rfl rfl h.2.2.2.2.2.symm

def scrubAt (g : Nat) (x : SliceState) : SliceState := { x with tiers := { x.tiers with scrubPos := g } }

/-- Patrol scrub at a granule, with a number of seconds since its pass began. -/
def scrubbing (g secs : Nat) : State := { moe (scrubAt g) with time := { now := 256000000000 * secs } }

theorem scrubbing_inv (g secs : Nat) : (scrubbing g secs).Inv :=
  (State.Keeps.of_eq (s := moe (scrubAt g)) (t := scrubbing g secs) rfl rfl rfl rfl rfl rfl).2 (moe_inv fun _ h => h.of_eq rfl rfl rfl rfl rfl rfl)

theorem witness_tierStages :
    (∀ k ∈ [StageKind.view, .windowOpen, .windowClose], ((oneRun (stageOf k .sump 4 [] .waiting)).actingRun 0 0 k).isSome = true) ∧
    ((oneRun (stageOf .view .sump 4 [] .waiting)).sl 0).sump.link ≠ 3 ∧ (∀ q ∈ ((moe id).sl 0).quads, q.st = .idle) ∧
    ((moe id).sl 0).tiers.scrubPos = 0 ∧ ((scrubbing 512 0).sl 0).tiers.scrubPos = 512 ∧ (scrubbing 512 0).scrubSlow 0 = false ∧
    (scrubbing 512 4000).scrubSlow 0 = true ∧ (∀ g t, (scrubbing g t).Inv) ∧
    0x4000000000 ≤ ((scrubbing 0x3FFFFFFF00 0).sl 0).tiers.scrubPos + 256 ∧ (scrubbing 0x3FFFFFFF00 0).scrubSlow 0 = false ∧
    ((moe id).sl 0).spares.migrating = [] ∧
    (dev.onSl 0 sumpSlice).Inv ∧ (dev.onSl 0 sumpSlice).job = none ∧
    (let s : State := dev.onSl 0 sumpSlice
     (s.lifeOf 4 0).st = 2 ∧ (s.sl 0).sump.link = 0 ∧
     (s.sl 0).sump.capacity = min (0x1FFFFFFF / 268435456 * 268435456) 1649267441664 ∧ (s.sl 0).sump.serial = 9) :=
  by
    have onSump := (State.Keeps.onSl dev 0 sumpSlice_ok).2 dev_inv
    repeat' first | exact scrubbing_inv | exact onSump | apply And.intro
    all_goals decide +kernel

/-- At the next drip boundary the slot of a fetch whose two tiles have landed is STAGED in its frame, and FETCH_COMPLETE ends it (R216). -/
theorem test_fetch_complete :
    let x := ((moe fun y => arrived [{ fetchOf [0, 1] with full := some 100#48 }] [] (fetching [] y)).sl 0).settleFetches 101#48
    x.tiers.res.map (fun e => (e.state, e.frame)) = [(3, 1)] ∧ x.tiers.fetches = [] ∧
    ((after (exec (.fetchComplete 0 0 ⟨0, 0⟩) (moe fun _ => x))).sl 0).tiers.present = [] := by decide +kernel

/-! ### Links and the fabric (chapter 10) -/

/-- A device with the job, port 0 of slice 0 and the internal link to slice 1 as `k`, and the security controller as `c`. -/
def linked (k : Link) (c : Security) : State :=
  { (moe fun x => (x.onLink (.port 0) fun _ => k).onLink (.link 1) fun _ => k) with sec := { c with mr := List.replicate 8 (zeros 64) } }

theorem linked_inv (k : Link) (c : Security) : (linked k c).Inv :=
  ((State.Keeps.of_eq (s := moe fun x => (x.onLink (.port 0) fun _ => k).onLink (.link 1) fun _ => k) rfl rfl rfl rfl
    rfl rfl)).2
    (moe_inv fun _ hx => (hx.onLink _ _).onLink _ _)

theorem linked_link (k : Link) (c : Security) : (linked k c).link 0 (.port 0) = k ∧ (linked k c).link 0 (.link 1) = k := ⟨rfl, rfl⟩

def keysOf (tx : Bytes) (n since : Nat) : Link := { st := linkUp, sess := { txKey := tx, txCount := n, sinceRekey := since } }

/-- Every link state and every count the statement on links names. -/
theorem witness_linkStates :
    (∀ k c, (linked k c).Inv ∧ (linked k c).link 0 (.port 0) = k ∧ (linked k c).link 0 (.link 1) = k) ∧
    ((linked {} {}).sl 0).present = true ∧ (linked {} {}).pkg.congestionMode = 0 ∧
    ({ identity := 1 } : Security).trngFailing = false ∧ (keysOf [1#8] 4096 256).sess.txKey ≠ [] ∧
    ({ rekeyFrames := 4096 } : Security).rekeyFrames ≤ (keysOf [1#8] 4096 256).sess.txCount ∧ 256 ≤ (keysOf [1#8] 4096 256).sess.sinceRekey ∧
    (keysOf [1#8] 4096 255).sess.sinceRekey < 256 ∧
    (let k (n : Nat) : Link := { st := linkAuth, sess := { hello := zeros 60, txMsg := zeros 60, txPart := n } }
     (k 2).sess.hello ≠ [] ∧ (k 2).sess.txMsg = (k 2).sess.hello ∧ (k 2).sess.hello.length ≤ 30 * (k 2).sess.txPart ∧
     30 * (k 1).sess.txPart < (k 1).sess.hello.length ∧ ({ k 2 with sess := { (k 2).sess with txMsg := zeros 122 } } : Link).sess.txMsg ≠ (k 2).sess.hello) :=
  ⟨fun k c => ⟨linked_inv k c, linked_link k c⟩, by decide +kernel, by decide +kernel, by decide, by decide, by decide, by decide, by decide, by decide +kernel⟩

theorem test_link_down_symbol :
    let t := after (exec (.downSymbol 0 (.port 0) 1) (linked { st := linkUp } {}))
    (t.link 0 (.port 0)).st = 0 ∧ (t.link 0 (.port 0)).downEvents = 1 := by decide +kernel

/-- A port in AUTH that has sent its HELLO, one that has the peer's too, and a signature that waits. -/
theorem witness_linkHandshake :
    (∀ k c, (linked k c).Inv) ∧ helloFormed [] = false ∧
    (let k : Link := { st := linkAuth, sess := { hello := [1#8] } }
     k.sess.hello ≠ [] ∧ k.sess.peerHello = []) ∧
    (let k : Link := { st := linkAuth, sess := { hello := [1#8], peerHello := [1#8], txMsg := zeros 31, txPart := 1 } }
     k.sess.peerHello ≠ [] ∧ k.sess.finishSeen = false ∧ k.sess.finishSent = false ∧ k.sess.txPart < ceilDiv k.sess.txMsg.length 30 ∧
     ceilDiv ({ k.sess with txPart := 2 } : Session).txMsg.length 30 ≤ ({ k.sess with txPart := 2 } : Session).txPart) ∧
    (linked {} { signQueue := [(0, 0)] }).sec.signQueue = [(0, 0)] ∧
    (([1#8] : Bytes).getD 0 0 ≠ 2#8) :=
  ⟨linked_inv, by decide, by decide, by decide +kernel, by decide +kernel, by decide⟩

/-- A DATA frame of zero bytes with its CRC: FSEQ 0, kind DATA. -/
def dataFrame : Bytes := leBytes 12 (field kindDATA 2 12) ++ zeros 1008
def sealed (f : Bytes) : Bytes := f ++ leBytes 4 (crc32c f)

theorem sealed_ok (f : Bytes) (h : f.length = 1020) : (sealed f).length = 1024 ∧ crc32c ((sealed f).take 1020) = leNat (slice (sealed f) 1020 4) := by
  have ht : (sealed f).take 1020 = f := List.take_left' h
  have hd : (sealed f).drop 1020 = leBytes 4 (crc32c f) := List.drop_left' h
  refine ⟨by simp [sealed, h], ?_⟩
  rw [ht, slice, hd]
  have hl : (leBytes 4 (crc32c f)).take 4 = leBytes 4 (crc32c f) := List.take_of_length_le (by simp)
  simp only [hl, leBytes_length, Nat.sub_self]
  rw [show zeros 0 = [] from rfl, List.append_nil, leNat_leBytes]
  exact (Nat.mod_eq_of_lt (crc32c_lt f)).symm

/-- Links that are UP with nothing to send again: with data, without, and with a packet of each network and its credits. -/
def dataLink : Link := { st := linkUp, txStream := [1#8] }

def queuedPkt (op : Nat) : Packet := { opcode := op, plen := 8, payload := zeros 8 }

theorem witness_linkFrames :
    (∀ k c, (linked k c).Inv) ∧ (dataLink.resend = [] ∧ dataLink.txStream ≠ [] ∧ dataLink.kept.length < 512 ∧ dataLink.sess.rxKey = [] ∧ dataLink.rxStream = []) ∧
    (dataFrame.length = 1020 ∧ bits (leNat (slice dataFrame 12 32)) 7 0 = 0 ∧ bits (leNat (slice dataFrame 0 12)) 13 12 = kindDATA ∧
      bit (leNat (slice dataFrame 0 12)) 14 = false) ∧
    (∀ f : Bytes, f.length = 1020 → (sealed f).length = 1024 ∧ crc32c ((sealed f).take 1020) = leNat (slice (sealed f) 1020 4)) ∧
    (dataLink.fecTimes.filter fun x => decide (0 < x + 256000000)).length < 64 ∧
    (let k : Link := { st := linkUp, fecTimes := List.replicate 64 0, kept := [{ seq := 1, stream := [] }, { seq := 2, stream := [] }, { seq := 3, stream := [] }] }
     (linked k {}).time.now = 0 ∧ 64 ≤ (k.fecTimes.filter fun x => decide (0 < x + 256000000)).length ∧ k.resend = [] ∧ k.txStream = [] ∧
     k.kept = [{ seq := 1, stream := [] }] ++ { seq := 2, stream := [] } :: [{ seq := 3, stream := [] }]) ∧
    ([] : Bytes).length ≠ 1024 ∧
    ((dev.sl 0).nextEgress [{ pkt := queuedPkt opDATA }] 2 = some { pkt := queuedPkt opDATA } ∧ packetCredits (queuedPkt opDATA) = 2) ∧
    (dev.sl 0).nextEgress [] 2 = none ∧
    ((dev.sl 0).nextEgress [{ pkt := queuedPkt opREAD }] 2 = some { pkt := queuedPkt opREAD } ∧ packetCredits (queuedPkt opREAD) = 2) :=
  ⟨linked_inv, by decide, by decide +kernel, sealed_ok, by decide, by decide +kernel, by decide, by decide +kernel⟩

/-- Lanes 0 and 1 of a frame whose bytes count up (R253): words 0 and 4, and words 1 and 5; byte 0x1B leaves as 3, 2, 1, 0. -/
theorem test_lane_words :
    (laneBytes ((List.range 48).map (BitVec.ofNat 8)) 0).take 16 = ([0, 1, 2, 3, 4, 5, 6, 7, 32, 33, 34, 35, 36, 37, 38, 39] : Bytes) ∧
    (laneBytes ((List.range 48).map (BitVec.ofNat 8)) 1).take 9 = ([8, 9, 10, 11, 12, 13, 14, 15, 40] : Bytes) ∧
    byteSymbols 0x1B#8 = [3, 2, 1, 0] := by decide +kernel

/-! ### Remote memory, answers and routing (chapters 10 and 11) -/

/-- A one-packet request from slice 1 of node 6 to slice 0 of node 5, in job 1, sealed with its ECRC. -/
def request (op opmod reqId : Nat) (payload : Bytes) : Packet :=
  sealPacket { opcode := op, opmod := opmod, job := 1, ctx := 3, srcNode := 6, srcSlice := 1, dstNode := 5, dstSlice := 0, dstOffset := 0x5000
               plen := payload.length, payload := payload, reqId := reqId }

def requests : List (Packet × (Arrival → Packet → Instr)) :=
  [(request opREAD 0 0 (leBytes 8 16), Instr.read 0), (request opWRITE 0 0 (List.replicate 16 9#8), Instr.write 0),
   (request opREDUCE 0 1 (leBytes 8 2), Instr.reduce 0), (request opFADD 0 1 (leBytes 8 0x40000000), Instr.atomicFadd 0),
   (request opCAS 0 1 (leBytes 8 0 ++ leBytes 8 7), Instr.atomicCas 0), (request opMCAST 0 0 (leBytes 8 5), Instr.mcastWrite 0)]

/-- A region entry that grants everything to node 6, and none. -/
def regionSlice (on : Bool) (x : SliceState) : SliceState :=
  { x with remote := { x.remote with regions :=
      [(0, { base := 0x5000, valid := on, kind := 0, r := true, w := true, a := true, m := true, job := 1, pages := 1, ownerNode := 6 })] } }

theorem witness_remoteRequestsDelivered :
    (∀ b, (moe (regionSlice b)).Inv) ∧ (moe (regionSlice true)).job = some job0 ∧
    (∀ c ∈ requests,
      let p := c.1
      let s := moe (regionSlice true)
      let x := s.sl 0
      let f := x.dstFlow (Packet.src p) (Packet.group p)
      p.job = job0.job ∧ p.trusted = false ∧ p.first = true ∧ p.last = true ∧ p.formOk = true ∧ packetEcrc p = p.ecrc ∧
      s.routerBad .own p = false ∧ s.fromLost 0 p = false ∧ regionOf p.dstOffset = .hbm ∧ regionOf (p.dstOffset + p.covers) = .hbm ∧
      f.held = [] ∧ f.skipped = [] ∧ f.delivered p.flowSeq = false ∧ f.ready p = true ∧ (f.msg p.msgId).refused = none ∧ f.completed = [] ∧
      x.remote.applyQ.length < 1024 ∧ (p.filtered = true → (filterJudge x.remote.filter p s.time.now s.retrySpan).1 = .pass) ∧
      Packet.dst p = s.place 0 ∧
      (∀ r ∈ x.remote.regions, r.2.valid = true ∧ r.2.job = p.job ∧ r.2.holds p.dstOffset p.covers = true ∧ r.2.kind = 0 ∧
        r.2.grants p.opcode = true ∧ r.2.ownerOk p.opcode p.srcNode = true) ∧
      x.readsPoison p ((x.ranges? p.dstOffset p.covers).getD [(p.dstOffset, p.covers)]) = false) ∧
    (∀ r ∈ ((moe (regionSlice false)).sl 0).remote.regions, r.2.valid = false) :=
  ⟨fun b => moe_inv fun _ h => h.of_eq rfl rfl rfl rfl rfl rfl, by decide +kernel⟩

/-- A region that grants a WRITE to its sender takes it; without a valid entry it is refused. -/
theorem test_write_taken_and_refused :
    let p := request opWRITE 0 0 (List.replicate 16 9#8)
    ((after (exec (.write 0 .own p) (moe (regionSlice true)))).sl 0).remote.applyQ.map (fun o => (o.pkt, o.ranges, o.win)) = [(p, [(0x5000, 16)], false)] ∧
    ((after (exec (.write 0 .own p) (moe (regionSlice false)))).sl 0).remote.refused = 1 := by decide +kernel

def applying (p : Packet) (x : SliceState) : SliceState :=
  { x.store 0x5000 (leBytes 8 0x3F800000) with remote := { x.remote with applyQ := [x.applyItem p .own] } }

theorem applying_ok (p : Packet) (x : SliceState) (h : x.ok) : (applying p x).ok := ⟨SliceState.store_wf h.1 0x5000 (leBytes 8 0x3F800000), h.2⟩

/-- Every operation, and the two outcomes of a compare and swap. -/
theorem witness_operationsApply :
    (∀ p, (moe (applying p)).Inv) ∧ (∀ c ∈ requests, c.1.last = true ∧ (((moe (applying c.1)).sl 0).remote.applyQ.map (fun o => (o.pkt, o.win)) = [(c.1, false)]) ∧
      ((moe (applying c.1)).sl 0).fabric.dst = []) ∧
    ((request opREDUCE 0 1 (leBytes 8 2)).payload.length = 8) ∧
    ((moe (applying (request opCAS 0 1 (leBytes 8 0x3F800000 ++ leBytes 8 7)))).sl 0).loadNat 0x5000 8 =
      leNat (slice (request opCAS 0 1 (leBytes 8 0x3F800000 ++ leBytes 8 7)).payload 0 8) ∧
    ((moe (applying (request opCAS 0 1 (leBytes 8 0 ++ leBytes 8 7)))).sl 0).loadNat 0x5000 8 ≠ 0 :=
  ⟨fun p => moe_inv (applying_ok p), by decide +kernel⟩

/-- A WRITE that a window admitted, which is open or has closed since; a WINDOW_CLOSE stage waits for it while it is open. -/
def windowItem : ApplyItem := { pkt := { request opWRITE 0 0 (zeros 8) with dstOffset := 0x1000000 }, arr := .own, ranges := [(0x1000000, 8)], win := true }

def windowApplying (isOpen : Bool) (x : SliceState) : SliceState :=
  { x with
    tiers := { x.tiers with window := { ranges := [⟨0x1000000, 0x10000⟩], isOpen := isOpen } }, remote := { x.remote with applyQ := [windowItem] }
    runs := [stageOf .windowClose .sump 4 [] .waiting] }

theorem witness_operationsApply_window : ∀ b : Bool,
    let x := (moe (windowApplying b)).sl 0
    x.remote.applyQ = [windowItem] ∧ windowItem.win = true ∧ x.tiers.inWindow 0x1000000 8 = b ∧ windowItem.pkt.covers = 8 ∧ x.windowWrites = b ∧
    ((moe (windowApplying b)).actingRun 0 0 .windowClose).isSome = true := by decide +kernel

/-- 1.0 + 2.0 = 3.0 by ATOMIC_FADD; 0x3F800000 + 2 by REDUCE; a swap where the old value is as compared (Tables 11-5 and 11-4). -/
theorem test_operations :
    let m (p : Packet) : Nat := ((after (exec (.operationApply { on := 0 }) (moe (applying p)))).sl 0).loadNat 0x5000 8
    m (request opFADD 0 1 (leBytes 8 0x40000000)) = 0x40400000 ∧ m (request opREDUCE 0 1 (leBytes 8 2)) = 0x3F800002 ∧
    m (request opCAS 0 1 (leBytes 8 0x3F800000 ++ leBytes 8 7)) = 7 ∧ m (request opCAS 0 1 (leBytes 8 0 ++ leBytes 8 7)) = 0x3F800000 := by
  decide +kernel

/-- One unanswered message of a thread to slice 1 of node 6, of each request that a thread sends, and its answer. -/
def sentMsg (op kind retries : Nat) : OutMsg :=
  { dst := ⟨6, 1⟩, msgId := 0, firstSeq := 0, packets := [{ opcode := op, job := 1 }], issuer := .thread 0 0 kind 3 0 8, retries := retries }

def answerPkt (op opmod : Nat) : Packet :=
  sealPacket { opcode := op, opmod := opmod, job := 1, srcNode := 6, srcSlice := 1, dstNode := 5, dstSlice := 0, plen := 8, payload := leBytes 8 77 }

def outState (m : OutMsg) : State :=
  moe fun x => { x.onThread 0 0 (fun h => { h with st := .waitMem, other := 1, xst := 1 }) with fabric := { x.fabric with outMsgs := [m] } }

theorem outState_inv (m : OutMsg) : (outState m).Inv :=
  moe_inv fun x h => SliceState.ok.of_eq (x := x.onThread 0 0 fun h => { h with st := .waitMem, other := 1, xst := 1 })
    (h.onThread 0 0 (f := fun h => { h with st := .waitMem, other := 1, xst := 1 }) fun _ hk => hk) rfl rfl rfl rfl rfl rfl

theorem witness_answersReachTheIssuer :
    (∀ m, (outState m).Inv) ∧
    (∀ c ∈ [(opREAD, 0, opDATA, 0), (opFADD, 4, opRESULT, 0), (opCAS, 5, opRESULT, 0), (opWRITE, 1, opACK, 0), (opREAD, 0, opNACK, 3)],
      let s := outState (sentMsg c.1 c.2.1 0)
      let p := answerPkt c.2.2.1 c.2.2.2
      s.pkg.congestionMode = 0 ∧ s.silenced 0 = false ∧ (s.sl 0).fabric.windowed = [] ∧ (s.sl 0).fabric.outMsgs = [sentMsg c.1 c.2.1 0] ∧ (sentMsg c.1 c.2.1 0).group = none ∧
      Packet.dst p = s.place 0 ∧ packetEcrc p = p.ecrc ∧ s.routerBad .own p = false ∧ s.fromLost 0 p = false ∧
      s.answered? 0 p = some (sentMsg c.1 c.2.1 0) ∧ (sentMsg c.1 c.2.1 0).op = c.1) ∧
    ((outState (sentMsg opREAD 0 1)).still.on = false ∧ 1 < (outState (sentMsg opREAD 0 1)).pkg.retryLimit ∧ (outState (sentMsg opREAD 0 2)).pkg.retryLimit ≤ 2) ∧
    (let s : State := dev.onSl 0 (fun x => { x with fabric := { x.fabric with outMsgs := [{ sentMsg opREAD 0 2 with issuer := .none }] } })
     s.job = none ∧ (s.sl 0).fabric.outMsgs.map (·.issuer) = [.none]) ∧
    (moe id).maySend 0 ⟨6, 1⟩ none [{ opcode := opREAD }] = true :=
  ⟨outState_inv, by decide +kernel⟩

/-- DATA writes the register that the load named. -/
theorem test_data_answer :
    let t := after (exec (.readData 0 .own (answerPkt opDATA 0)) (outState (sentMsg opREAD 0 0)))
    (t.thread 0 0 0).reg 3 = 77 ∧ (t.thread 0 0 0).st = .ready ∧ (t.sl 0).fabric.outMsgs = [] := by decide +kernel

/-- Port 0 of slice 0 is UP and in service, and the active table sends node 6 there: entry 1024 + 6, PORT_MASK 1, VALID. -/
def tableBytes : Bytes := zeros (16 * 1030) ++ leBytes 8 1 ++ leBytes 8 1 ++ zeros (16 * 2041)

def routed (pk : Package → Package) : State :=
  let s := moe fun x => x.onLink (.port 0) fun k => { k with st := linkUp, inService := true }
  { s with pkg := pk s.pkg }

theorem routed_inv (pk : Package → Package) : (routed pk).Inv :=
  ((State.Keeps.of_eq (s := moe fun x => x.onLink (.port 0) fun k => { k with st := linkUp, inService := true }) rfl rfl rfl rfl rfl rfl)).2
    (moe_inv fun _ h => h.onLink _ _)

theorem witness_fabricRouting :
    (∀ pk, (routed pk).Inv) ∧
    (∀ ttl ∈ [0, 1],
      let p : Packet := { opcode := opREAD, dstNode := 6, ttl := ttl }
      let s := routed fun k => { k with tableA := tableBytes }
      s.routeWord 0 .own p = none ∧ opKnown p.opcode = true ∧ p.dstNode ≠ s.pkg.nodeId ∧ s.tableLive p.epoch = true ∧
      s.eligible p.dstNode p.epoch = [0]) ∧
    (let p := sealPacket { opcode := opCTRL, opmod := 1, srcNode := 6, srcSlice := 1, dstNode := 5, plen := 16, payload := skipPayload 0 0 1 }
     let s := routed id
     let n := leNat (slice p.payload 0 16)
     Packet.dst p = s.place 0 ∧ packetEcrc p = p.ecrc ∧ s.routerBad .own p = false ∧ bit n 48 = false ∧ bits n 47 32 = 1 ∧ bits n 31 16 = 0 ∧
     (s.sl 0).dstFlow (Packet.src p) none = { src := ⟨6, 1⟩, net := .req, group := none }) ∧
    (let p := sealPacket { opcode := opCTRL, dstNode := 5, plen := 16, payload := lostPayload 1 6 3 100#48 }
     let n := leNat (slice p.payload 0 16)
     p.opmod = 0 ∧ packetEcrc p = p.ecrc ∧ bits n 15 0 = job0.job ∧ Drip.later (routed id).now (BitVec.ofNat 48 (bits n 111 64)) = false) ∧
    (let s : State := { routed id with job := some { job0 with nodes := [5, 6] } }
     s.eligible 6 s.pkg.routeActive = [] ∧ ∀ k, k < 8 → s.lossKnown { node := 6, slice := k } = false) ∧
    ((routed fun k => { k with notices := [(6, 255, 100#48)] }).pkg.notices = [(6, 255, 100#48)] ∧
      Drip.later 100#48 (routed id).now = false) ∧
    ((routed fun k => { k with routeSwitch := some 100#48 }).pkg.routeSwitch = some 100#48 ∧
      (routed fun k => { k with drainEnd := some 100#48 }).pkg.drainEnd = some 100#48) ∧
    (∀ a ∈ [(Arrival.own)], ∀ op ∈ [opREAD, opTIME], (routed id).before 0 a { opcode := op } = []) ∧ opREAD ≠ opTIME ∧ opREAD ≠ opMCAST ∧
    netOf opREAD = .req ∧ netOf opDATA = .rsp ∧ Drip.later 101#48 (routed id).now = true ∧ (routed id).fromLost 0 { opcode := opREAD, srcNode := 6, srcSlice := 1 } = false := by
  refine ⟨routed_inv, ?_, by decide +kernel⟩
  decide +kernel

/-- A multicast message whose two members have completed, and one with a member missing; a pending handoff; a HANDOFF stage. -/
def mcastOf (a b : Nat) : McastMsg := { group := 4, msgId := 1, ctx := 3, members := [(⟨6, 0⟩, some a), (⟨6, 1⟩, some b)] }

def handoffRun : Run := { stageOf .handoff .sequencer 4 [] .waiting with entry := { (stageOf .handoff .sequencer 4 [] .waiting).entry with f := { region := 2, newOwner := 6 } } }

theorem witness_multicastAndOwnership :
    (∀ b ∈ [0, 0x15],
      let s := moe fun x => { x with remote := { x.remote with mcast := [mcastOf 0 b] } }
      (s.sl 0).remote.mcast = [mcastOf 0 b] ∧ (s.sl 0).fabric.windowed = [] ∧ s.pkg.congestionMode = 0 ∧ (s.sl 0).fabric.outMsgs = []) ∧
    ((∀ e ∈ (mcastOf 0 0).members, e.2 = some 0) ∧ (∀ e ∈ (mcastOf 0 0x15).members, e.2.isSome = true) ∧
      (∃ e ∈ (mcastOf 0 0x15).members, e.2 = some 0) ∧ (∃ e ∈ (mcastOf 0 0x15).members, e.2 ≠ some 0) ∧
      ∀ e ∈ (mcastOf 0x12 0x15).members, e.2.isSome = true ∧ e.2 ≠ some 0) ∧
    (let e : RegionEntry := { valid := true, pending := true, nextOwner := 6, handoffDrip := 100#48 }
     e.valid = true ∧ e.pending = true ∧ Drip.later e.handoffDrip (moe id).now = false) ∧
    (∀ b : Bool,
      let s := moe fun x => { x with runs := [handoffRun], remote := { x.remote with regions := [(2, { valid := true, pending := b })] } }
      (s.actingRun 0 0 .handoff).isSome = true ∧ ((s.sl 0).region 2).valid = true ∧ ((s.sl 0).region 2).pending = b ∧
      ((s.sl 0).region 3).valid = false) ∧
    (∃ e ∈ ({ mcastOf 0 0 with members := [(⟨6, 0⟩, some 0), (⟨6, 1⟩, none)] } : McastMsg).members, e.2 = none) ∧
    ({ mcastOf 0 0x15 with ctx := 255 } : McastMsg).ctx = 255 ∧ (mcastOf 0 0).ctx < 255 ∧ (mcastOf 0x12 0x15).members ≠ [] :=
  ⟨by decide +kernel, by decide, by decide +kernel⟩

/-! ### Writes through a door (chapter 17) -/

/-- The code with which a write through a door is judged, where it is judged at once. -/
def judged (s : State) (d : Door) (r : Nat × Nat × Nat × Bytes) : Option Nat :=
  match s.startAccess d r.1 r.2.1 1 with
  | some u =>
    match u.principalOf d, entry? r.1 r.2.1 with
    | some p, some e =>
      if u.fw.handing 33 || (typeWidth e.ty == 0 && (u.stagedBy d).isSome) then none else some (u.judgeWrite p e r.2.2.1 r.2.2.2)
    | _, _ => none
  | none => none

theorem judged_ok {s : State} {d : Door} {r : Nat × Nat × Nat × Bytes} {c : Nat} (h : judged s d r = some c) :
    ∃ u, s.Judges d r.1 r.2.1 r.2.2.1 r.2.2.2 u c := by
  unfold judged at h
  split at h
  · next u hu =>
    split at h
    · next p e hp he =>
      split at h
      · cases h
      · next hn =>
        simp only [Bool.or_eq_true, Bool.and_eq_true, beq_iff_eq, not_or, not_and, Bool.not_eq_true] at hn
        exact ⟨u, hu, hn.1, p, e, hp, he, fun h0 => by simpa using hn.2 h0, Option.some.inj h⟩
    · cases h
  · cases h

/-- Decides the premise of the statements on writes. -/
def takes (s : State) (d : Door) (r : Nat × Nat × Nat × Bytes) : Bool := judged s d r == some codeOk

theorem takes_ok {s : State} {d : Door} {r : Nat × Nat × Nat × Bytes} (h : takes s d r = true) : ∃ u, s.Takes d r.1 r.2.1 r.2.2.1 r.2.2.2 u :=
  judged_ok (eq_of_beq h)

def sessions : Lantern :=
  { sessions := [{ num := 1, principal := .operator, key := [], k := [] }, { num := 2, principal := .owner, key := [], k := [] },
      { num := 3, principal := .security, key := [], k := [] }] }

/-- The device with a job, the store ready, an identity, a session of each principal, and a change. -/
def doored (f : State → State) : State :=
  f { moe (regionSlice true) with
      dict := { deviceState := 1, holdup := true, life := [{ enable := true, st := 2 }, {}, {}, {}] }
      sec := { identity := 1, mr := List.replicate 8 (zeros 64) }, fw := {}, lantern := sessions
      hot := [{ st := 2, img := some job0 }, {}, {}, {}] }

def jobless (s : State) : State := { s with job := none }

/-- The state that each group of writes needs: a region selected, a sealed update, a staged set, and all a reshape names. -/
def selected (s : State) : State := s.onSl 0 fun x => { x with remote := { x.remote with regionSel := 5 } }
def sealedUp (s : State) : State := { s with epochs := { s.epochs with sealed_ := [{ epoch := 1 }] } }
def stagedUp (s : State) : State := { s with fw := { s.fw with stageState := 2 } }
def reshapable (s : State) : State :=
  { s with pkg := { s.pkg with routeSwitch := some 288#48, collEpochs := [288#48], collEpochReg := 288, reshapeSlot := 0 } }

theorem doored_inv (f : State → State) (hf : ∀ s : State, s.Keeps (f s)) : (doored f).Inv := by
  have h : (moe (regionSlice true)).Inv := moe_inv fun _ h => h.of_eq rfl rfl rfl rfl rfl rfl
  obtain ⟨a, b, c, d, _⟩ := h
  exact (hf _).2 ⟨a, b, c, d, rfl⟩

theorem witness_doorWritesFabricAndService :
    ((doored id).Inv ∧ (doored selected).Inv) ∧
    (∀ r ∈ ([(.session 1, 0x4000, 4, 0, leBytes 8 102), (.session 1, 0x4011, 1, 0, [0#8]), (.bar0, 0x3260, 3, 0, leBytes 16 (160 * 2 ^ 64)),
        (.session 2, 0x6040, 2, 0, leBytes 8 160), (.bar0, 0x3280, 3, 0, [1#8]), (.bar0, 0x3280, 3, 0, [0#8]), (.bar0, 0x6101, 4, 0, [1#8]),
        (.session 2, 0xA000, 9, 0, [1#8])] : List (Door × Nat × Nat × Nat × Bytes)), takes (doored id) r.1 r.2 = true) ∧
    takes (doored selected) .bar0 (0x3260, 2, 0, zeros 32) = true ∧
    (doored id).dict.ringSel < 64 ∧ ((doored id).sl 0).svc.ledgerEnable = false ∧ ((doored id).host.rings.getD 0 {}).enable = false := by
  refine ⟨⟨doored_inv _ fun _ => .refl _, doored_inv _ fun s => State.Keeps.onSl _ 0 fun _ h => h.of_eq rfl rfl rfl rfl rfl rfl⟩,
    by decide +kernel⟩

theorem witness_doorWritesLoadingAndSecurity :
    (∀ f ∈ [jobless, sealedUp, stagedUp, reshapable], (doored f).Inv) ∧
    (∀ r ∈ ([(.bar0, 0x6120, 3, 0, [0#8]), (.session 2, 0x6110, 3, 0, zeros 8), (.session 1, 0x6200, 4, 0, [1#8]),
        (.bar0, 0x6200, 2, 0, [0#8, 0#8, 0#8, 0#8, 1#8, 0#8, 0#8, 0#8, 5#8, 0#8, 0#8, 0#8]), (.bar0, 0x8020, 1, 0, zeros 32),
        (.session 2, 0x8010, 7, 0, zeros 64), (.session 1, 0x2000, 3, 0, [1#8]), (.session 3, 0x8040, 1, 0, []), (.session 3, 0x8040, 2, 0, []),
        (.bar0, 0x8040, 3, 0, []), (.bar0, 0x2201, 1, 0, [1#8]), (.bar0, 0x2200, 1, 0, [0#8]), (.session 1, 0x9010, 2, 0, [1#8]),
        (.bar0, 0x9010, 3, 0, leBytes 4 1), (.bar0, 0x9020, 1, 0, [2#8]), (.session 1, 0x9000, 3, 0, [0#8])] :
          List (Door × Nat × Nat × Nat × Bytes)), takes (doored jobless) r.1 r.2 = true) ∧
    ((doored jobless).lifeOf 1 0).st = 0 ∧ ((doored jobless).lifeOf 0 0).st = 2 ∧
    takes (doored sealedUp) (.session 1) (0x6200, 12, 0, leBytes 8 (1 + 288 * 65536)) = true ∧
    takes (doored stagedUp) .bar0 (0x9020, 1, 0, [1#8]) = true ∧
    takes (doored reshapable) .bar0 (0x6110, 3, 0, leBytes 8 288) = true := by
  refine ⟨fun f hf => ?_, by decide +kernel⟩
  fin_cases hf <;> exact doored_inv _ fun _ => .of_eq rfl rfl rfl rfl rfl rfl

/-- A write that a check refuses, one that is deferred, a window that is busy, and a handover of the management controller. -/
theorem witness_doorWrites_refused :
    judged (doored id) .bar0 (0x9020, 1, 0, [1#8]) = some codeState ∧
    judged (doored jobless) (.session 1) (0x8040, 1, 0, []) = some codeNoEntry ∧
    (let s := doored fun s => { s with dict := { s.dict with life := List.replicate 4 { enable := true, st := 3 } } }
     judged s .bar0 (0x2201, 1, 0, [1#8]) = some codeDeferred) ∧
    (let s := doored fun s => { s with dict := { s.dict with busy := true } }
     s.startAccess .bar0 0x4000 4 1 = none) ∧
    (let s := doored fun s => { s with fw := { s.fw with rollout := 1, step := 32, switching := true } }
     ∃ u ∈ s.startAccess .bar0 0x4000 4 1, u.fw.handing 33 = true) := by
  refine ⟨by decide +kernel, by decide +kernel, by decide +kernel, by decide +kernel, ?_⟩
  exact ⟨_, rfl, rfl⟩

/-- REGION_HANDOFF of entry 0 to node 7 at drip 160, and LOAD_START. -/
theorem test_door_writes :
    let t := after (exec (.regionHandoff .bar0 0 (leBytes 16 (7 * 2 ^ 32 + 160 * 2 ^ 64))) (doored id))
    ((t.sl 0).region 0).pending = true ∧ ((t.sl 0).region 0).nextOwner = 7 ∧ ((t.sl 0).region 0).handoffDrip = 160#48 ∧ t.dict.code = 0 ∧
    (after (exec (.loadStart (.session 1)) (doored jobless))).load.st = 1 := by decide +kernel

/-- A write that a check refuses changes nothing but the code: VALUE for ring 64 of RING_SEL, STATE for a routing switch at the present drip. -/
theorem test_door_refusals :
    (after (exec (.dictWrite 0x6101 1) { doored id with dict := { (doored id).dict with data := [64#8] } })).dict.code = 0x15 ∧
    (after (exec (.routeSwitchDrip (.session 1) 100) (doored id))).pkg.routeSwitch = none := by decide +kernel

/-- The window with its access, a write under way, and a function in each state. -/
def lifeDict (f : Lifecycle) (x : SliceState) : SliceState := { x with life := List.replicate 3 f }

def living (k : Lifecycle) (g : Dict → Dict) : State :=
  let s := moe (lifeDict k)
  { s with dict := g { holdup := true, life := List.replicate 4 k } }

def committing (sub : Nat) : PersistedWrite := { index := 0x8000, sub := sub, channel := 0, value := [1#8], door := .bar0 }

theorem living_inv (k : Lifecycle) (g : Dict → Dict) (hg : ∀ d, (g d).life.length = d.life.length) : (living k g).Inv := by
  obtain ⟨a, b, c, d, _⟩ : (moe (lifeDict k)).Inv := moe_inv fun x h => h.of_eq rfl rfl rfl rfl rfl h.2.2.2.2.2.symm
  exact ⟨a, b, c, d, (hg _).trans rfl⟩

theorem witness_dictionaryAccess :
    ((∀ b v, (living {} fun d => { d with busy := b, data := v }).Inv) ∧ (∀ n, (living {} fun d => { d with writing := some (committing n) }).Inv) ∧
      (∀ k, (living k id).Inv) ∧ ∀ l, (living {} fun d => { d with enableRecords := l }).Inv) ∧
    (living {} fun d => { d with busy := true }).dict.busy = true ∧ (living {} id).dict.busy = false ∧
    (∃ e, entry? 0x6101 1 = some e ∧ (living {} id).accessOf .host e = 3 ∧ e.chan = false ∧ bits (living {} id).dict.sel 11 8 = 0 ∧ typeWidth e.ty ≠ 0) ∧
    entry? 0x0FFF 0 = none ∧ bits (living {} id).dict.sel 2 0 = 0 ∧
    ((∀ b ∈ [63, 64], leNat (slice (slice (living {} fun d => { d with data := [BitVec.ofNat 8 b] }).dict.data 0 4096) 0 1) = b)) ∧
    (living {} fun d => { d with writing := some (committing 7) }).dict.writing = some (committing 7) ∧
    (∀ n ∈ [1, 3], ∀ b : Bool, ∀ f < 7, ((living { st := n, deferred := b } id).lifeOf f 0).st = n ∧ ((living { st := n, deferred := b } id).lifeOf f 0).deferred = b) ∧
    (let s := living {} fun d => { d with enableRecords := [(0, 0, true), (5, 1, false)] }
     s.dict.enableRecords = (0, 0, true) :: [(5, 1, false)] ∧ s.dict.writing = none ∧ s.dict.holdup = true ∧ s.dict.storeWear < 100) := by
  refine ⟨by refine ⟨?_, ?_, ?_, ?_⟩ <;> intros <;> exact living_inv _ _ fun _ => rfl, by decide +kernel, by decide +kernel,
    ⟨(entry? 0x6101 1).get (by decide +kernel), ?_⟩, by decide +kernel⟩
  decide +kernel

/-- The dictionary window while BUSY is 1, and the ends of its data. -/
theorem witness_dictWindowBusy :
    (∀ b v, (living {} fun d => { d with busy := b, data := v }).Inv) ∧ (living {} fun d => { d with busy := true }).dict.busy = true ∧
    (∀ k ∈ [0, 1023], k * (zeros 4).length < 4096) ∧ (∀ k ∈ [0, 511], k * (zeros 8).length < 4096) :=
  ⟨fun _ _ => living_inv _ _ fun _ => rfl, by decide +kernel, by decide, by decide⟩

/-- R450: a write of DICT_INDEX while BUSY is 1 sets OVERRUN and starts nothing. -/
theorem test_window_busy :
    let t := after (exec (.registerWrite 0x100008 (leBytes 4 0x12000)) (living {} fun d => { d with busy := true, code := 7 }))
    t.dict.overrun = true ∧ t.dict.code = 7 ∧ t.dict.busy = true := by decide +kernel

/-- DEVICE_STATE reads 2 SERVING over a running job (Table 17-4); a read of a hidden entry, of a write-only one and of a fixed one. -/
theorem test_dict_reads :
    let rd (i sub : Nat) : Dict := (after (exec (.dictRead i sub) (living {} id))).dict
    (rd 0x6101 1).code = 0 ∧ (rd 0x6101 1).length = 1 ∧ (rd 0x8010 7).code = 0x10 ∧ (rd 0x6200 4).code = 0x11 := by decide +kernel

/-- A persisted entry keeps its value where its record does not read back. -/
theorem test_persisted_write :
    let t := after (exec (.persistedWriteCommit false) (living {} fun d => { d with writing := some (committing 7) }))
    t.dict.code = 0x18 ∧ t.sec.linkEncrypt = false ∧ t.dict.writing = none := by decide +kernel

/-- A function that stops is OFF, or STARTING where a start waits (Table 17-8). -/
theorem test_lifecycle_stop :
    ((after (exec (.lifecycleStopComplete 5 0) (living { st := 3 } id))).lifeOf 5 0).st = 0 ∧
    ((after (exec (.lifecycleStopComplete 5 0) (living { st := 3, deferred := true } id))).lifeOf 5 0).st = 1 := by decide +kernel

/-! ### Collective steps (chapter 12) -/

/-- A collective of 16,385 elements in binary32 carriers: chunk 0 is full, chunk 1 holds one element. -/
def coll0 (out : Nat) : CollDesc :=
  { collId := 7, group := 3, ctx := 3, inFmt := 4, outFmt := 4, zeroGate := false, steps := 1, elems := 16385, chunksPerStep := 4, inAddr := 0x1000000
    outAddr := out, layer := 0, quad := 0, slot := 0 }

/-- The slice stands between slices 1 and 2 of node 5. -/
def group0 : Group := { valid := true, self := 1, members := [⟨5, 1⟩, ⟨5, 0⟩, ⟨5, 2⟩] }

def step0 (out cur limit passed : Nat) (sums : List (Nat × Option Bytes × Bool)) (results : List Nat) : CollStep :=
  { run := 0, frame := 96#48, desc := coll0 out, group := group0, step := 0, epoch := 0, cur := cur, granted := [(⟨5, 1⟩, 0, 16)], sums := sums
    limit := limit, passed := passed, results := results }

def collRun : Run :=
  { idx := 0, frame := 96#48, st := .launched, launchedAt := 100#48
    entry := { unit := .sequencer, launch := 4, duration := 0, due := 40, inputs := [], kind := .collective, f := { desc := 2, step := 0 } } }

def collState (cs : List CollStep) (ended : List (Nat × Drip × Nat)) (lost : List Place) : State :=
  moe fun x => { x with
    runs := [collRun], fabric := { x.fabric with lost := lost }, tiers := { x.tiers with weightBytes := 0x1000000 }
    coll := { x.coll with groups := [(3, group0)], descs := [(2, coll0 0x1800000)], steps := cs, ended := ended } }

theorem collState_inv (cs : List CollStep) (ended : List (Nat × Drip × Nat)) (lost : List Place) : (collState cs ended lost).Inv :=
  moe_inv fun _ h => h.of_eq rfl rfl rfl rfl rfl rfl

/-- A chunk of frame 96: kind, chunk, ZERO, elements, and its payload. -/
def chunkMsg (kind k : Nat) (zero : Bool) (fmt limit elems : Nat) (payload : Bytes) : Bytes :=
  leBytes 64 (kind + 7 * 2 ^ 8 + k * 2 ^ 24 + b2n zero * 2 ^ 44 + fmt * 2 ^ 56 + 96 * 2 ^ 64 + limit * 2 ^ 80 + elems * 2 ^ 100) ++ payload

theorem witness_collectiveSteps :
    (∀ cs e l, (collState cs e l).Inv) ∧
    ((∀ e ∈ [[], [(7, 96#48, 0)]], ∀ l ∈ [[], [(⟨5, 2⟩ : Place)]],
        ((collState [] e l).actingRun 0 0 .collective).isSome = true ∧ (((collState [] e l).sl 0).instanceEnded 7 96 = decide (e ≠ [])) ∧
        ((collState [] e l).sl 0).coll.descs.find? (fun d => d.1 == 2) = some (2, coll0 0x1800000) ∧
        ((collState [] e l).sl 0).coll.groups.find? (fun g => g.1 == 3) = some (3, group0)) ∧
      ∀ p ∈ group0.members, p ∉ ([] : List Place)) ∧
    (∀ m ∈ [chunkMsg 9 1 false 0 0 1 (zeros 4), chunkMsg 9 0 true 0 0 16384 [], chunkMsg 10 1 false 4 0 1 (zeros (elemBytes (rowFmt 4)))],
      ∀ out ∈ [0x1800000, 0x800000],
      let n := leNat (slice m 0 64)
      let c := step0 out 0 0 0 [] []
      let s : State := (collState [c] [] []).onSl 0 fun x => { x with coll := { x.coll with descs := [(2, coll0 out)] } }
      let x := s.sl 0
      64 ≤ m.length ∧ x.collDesc? (chColl n) = some (2, coll0 out) ∧ chunkAsExpected (coll0 out) n (m.drop 64) = true ∧
      x.coll.steps.find? (fun k => !k.completed && k.covers n && k.epoch == chEpoch n) = some c ∧ s.step? 0 c = c ∧ c.preds = [⟨5, 1⟩] ∧
      c.succ = some ⟨5, 2⟩ ∧ chStatus n = 0 ∧ c.cur < c.hi ∧
      x.outRefused (c.desc.outAddr + 1 * c.desc.full * elemBytes (rowFmt c.desc.outFmt)) 4 = decide (out = 0x800000)) ∧
    (let n := leNat (slice (chunkMsg 11 1 false 0 20 0 []) 0 64)
     let c := step0 0x1800000 1 0 0 [(0, none, true)] []
     chColl n = 7 ∧ c.desc.collId = 7 ∧ c.frame.toNat % 65536 = chTag n ∧ c.epoch = chEpoch n ∧ c.lo ≤ chChunk n ∧
     (collState [c] [] []).step? 0 c = c) ∧
    (∀ c ∈ [step0 0x1800000 1 0 0 [(0, none, false)] [], step0 0x1800000 2 4 2 [] [0, 1]],
      ((collState [c] [] []).sl 0).liveStep 0 = some c ∧ (collState [c] [] []).step? 0 c = c) ∧
    ((step0 0x1800000 1 0 0 [(0, none, false)] []).cur < (step0 0x1800000 1 0 0 [(0, none, false)] []).hi ∧
      (step0 0x1800000 1 0 0 [(0, none, false)] []).lo = 0 ∧ (step0 0x1800000 2 4 2 [] [0, 1]).finished = true) ∧
    (let s : State := { collState [] [] [] with pkg := { (collState [] [] []).pkg with collEpochs := [100#48] } }
     s.pkg.collEpochs = [100#48] ∧ Drip.later 100#48 s.now = false) := by
  refine ⟨collState_inv, ⟨by decide +kernel, by decide⟩, by decide +kernel⟩

/-- A PULL of FIRST 1 and LIMIT 20 of a step that ends at chunk 2; chunk 1 from slice 1 waits for chunk 0. -/
theorem test_pull_and_sum :
    let c := step0 0x1800000 1 0 0 [(0, none, true)] []
    let s := collState [c] [] []
    let d := (after (exec (.pull 0 ⟨5, 2⟩ (chunkMsg 11 1 false 0 20 0 [])) s)).step? 0 c
    let e := (after (exec (.sumChunk 0 ⟨5, 1⟩ (chunkMsg 9 1 false 0 0 1 [1#8, 2#8, 3#8, 4#8])) (collState [step0 0x1800000 0 0 0 [] []] [] []))).step? 0 c
    d.passed = 1 ∧ d.limit = 20 ∧ d.sums = [] ∧ e.cur = 0 ∧ e.got = [(⟨5, 1⟩, 1, some [1#8, 2#8, 3#8, 4#8])] := by decide +kernel

/-- Adding nothing changes nothing; 1.0 + 2.0 in binary32 carriers (R323). -/
theorem test_carrier_add :
    carrierAdd false none (some [1#8]) = some [1#8] ∧
    carrierAdd false (some (leBytes 4 0x3F800000)) (some (leBytes 4 0x40000000)) = some (leBytes 4 0x40400000) := by decide +kernel

/-! ### Contexts, commands and requests (chapter 13) -/

/-- A command record of Table 13-3 with its CRC and PHASE: KIND, context, tag 9, words 1 to 6. -/
def ledgerRecord (kind ctx : Nat) (w : List Nat) (phase : Nat) : Bytes :=
  let b := leBytes 8 (kind + ctx * 2 ^ 8 + 9 * 2 ^ 32) ++ (w.map (leBytes 8)).flatten
  b ++ leBytes 8 (phase + crc32c b * 2 ^ 16)

def cmd (kind ctx : Nat) (w : List Nat) : Cmd :=
  { slot := 4, kind := kind, ctx := ctx, tag := 9, words := (kind + ctx * 2 ^ 8 + 9 * 2 ^ 32) :: w ++ [0], ledgerIndex := 0, acceptDrip := 100#48, seq := 5 }

/-- An admitted request of slot 2 and rows 0 to 3 of the frame, of a SUBMIT accepted at drip 90. -/
def admittedReq (deadline : Drip) (cancel : Bool) : Request :=
  { slot := 2, rows := 4, firstRow := 0, frame := 96#48, deadline := deadline, cancel := cancel
    cmd := { slot := 2, kind := 1, ctx := 3, tag := 7, words := [1 + 3 * 2 ^ 8, 4 + deadline.toNat * 2 ^ 16, 0x100000, 0x200000, 0, 0, 0, 1], ledgerIndex := 0, acceptDrip := 90#48 } }

def serving (v : Service) (x : SliceState) : SliceState := { x with svc := v }

def served (v : Service) (cs : List Ctx) (ring : Machine.Ring) : State :=
  let s := moe (serving v)
  { s with ctxs := cs, host := { s.host with rings := s.host.rings.set 1 ring } }

theorem served_inv (v : Service) (cs : List Ctx) (ring : Machine.Ring) : (served v cs ring).Inv := by
  have h : (moe (serving v)).Inv := moe_inv fun _ h => h.of_eq rfl rfl rfl rfl rfl rfl
  exact ⟨h.1, (List.length_set ..).trans h.2.1, h.2.2⟩

def ctx3 (st : Nat) (deferred : List (Nat × Cmd)) : Ctx := { ctx := 3, st := st, ring := 1, owner := 2, area := 0x4000, deferred := deferred }

/-- The ledger with one record at its head, and a wrong one. -/
def ledgerAt (b : Bytes) (x : SliceState) : SliceState :=
  { x.store 0x8000 b with svc := { ledgerBase := 0x8000, ledgerEnable := true, scanDrips := 4 } }

theorem ledgerAt_ok (b : Bytes) (x : SliceState) (h : x.ok) : (ledgerAt b x).ok := (h.store 0x8000 b).of_eq rfl rfl rfl rfl rfl rfl

def goodRecord : Bytes := ledgerRecord 4 3 [0, 0, 0, 0, 0, 0] 1
def lateRecord : Bytes := ledgerRecord 4 3 [0, 0, 0, 0, 0, 0] 0
def badRecord : Bytes := ledgerRecord 4 255 [0, 0, 0, 0, 0, 0] 1

def copyWords (toHost dev len : Nat) : List Nat := [toHost, 0x100000, 0, dev, len, 0]

theorem witness_ledgerAndCommands :
    ((∀ v cs r, (served v cs r).Inv) ∧ ∀ b, (moe (ledgerAt b)).Inv) ∧
    (∀ b ∈ [goodRecord, lateRecord, badRecord],
      let s := moe (ledgerAt b)
      let v := (s.sl 0).svc
      let b' := (s.sl 0).load (v.ledgerBase + 64 * v.ledgerHead) 64
      let w := (List.range 8).map fun i => leNat (slice b' (8 * i) 8)
      let c : Cmd := { slot := v.freeSlot.getD 0, kind := bits (w.getD 0 0) 7 0, ctx := bits (w.getD 0 0) 15 8, tag := bits (w.getD 0 0) 63 32,
                       words := w, ledgerIndex := v.ledgerHead, acceptDrip := s.now, seq := v.accepted }
      s.now.toNat % max 1 v.scanDrips = 0 ∧ v.ledgerEnable = true ∧ (((w.getD 7 0).testBit 0 ≠ v.ledgerPhase) ↔ b = lateRecord) ∧
      v.pending.length < 4096 ∧ v.freeSlot.isSome = true ∧ 1 ≤ v.scanMax ∧ recordFault b' c s.tokenRows = (if b = badRecord then some 2 else none) ∧
      (s.host.rings.getD (s.cmdRing c) {}).held.length < 4096) ∧
    (let s := moe (ledgerAt goodRecord)
     ¬ (101#48 : Drip).toNat % max 1 (s.sl 0).svc.scanDrips = 0) ∧
    -- every command that acts, with its context in each state
    (∀ k ∈ [1, 2, 3, 4, 5], ∀ st ∈ [0, 1, 2, 3],
      let s := served { pending := [cmd k 3 [1 + 2 * 2 ^ 6, 0, 0, 0, 0, 0]] } (if st = 0 then [] else [ctx3 st []]) {}
      s.actingCmd 0 4 k = some (cmd k 3 [1 + 2 * 2 ^ 6, 0, 0, 0, 0, 0]) ∧ s.ctxState 3 = st ∧ (st ≠ 0 → s.ctx? 3 = some (ctx3 st []))) ∧
    ((cmd 1 3 [4, 0, 0, 0, 0, 0]).wantsDigest = false ∧ { cmd 1 3 [] with words := [2 ^ 16] }.wantsDigest = true ∧
      ∀ e ∈ ((served {} [] {}).img 0).entries, e.kind ≠ .passDigest) ∧
    -- CANCEL with nothing, with a pending SUBMIT, with an admitted request
    (let c := cmd 2 3 [0, 0, 0, 0, 7, 0]
     acceptedBefore (0, (admittedReq 200#48 false).cmd) ((0 : SliceId).val, c) = true ∧ (admittedReq 200#48 false).cmd.tag = bits (c.word 5) 31 0 ∧
     (served { pending := [c], reqs := [admittedReq 200#48 false] } [ctx3 2 []] {}).lastBoundaryPast 0 = false ∧
     (served { pending := [c] } [ctx3 2 []] {}).actingCmd 0 4 2 = some c) ∧
    -- CTX_OPEN with its ring enabled and not, and with an owner of kind 1 and not
    (∀ e : Bool, ((served {} [] { enable := e }).host.rings.getD 1 {}).enable = e) ∧
    (∀ k ∈ [0, 1], (({ owners := [{}, {}, { kind := k }] } : Pools).owner 2).kind = k) ∧
    -- COPY in its four cases
    (let s := served {} [] {}
     let inside (c : Cmd) (n : Nat) : Bool := inRegion c.dev n .hbm || inRegion c.dev n .staging
     inside (cmd 5 3 (copyWords 1 0x4000 64)) 64 = true ∧ (cmd 5 3 (copyWords 1 0x4000 64)).indirect = false ∧
     (cmd 5 3 (copyWords 1 0x4000 0)).length = 0 ∧ inside (cmd 5 3 (copyWords 1 (2 ^ 41 - 64) 64)) 64 = false ∧
     (s.sl 0).hbmFree 0x4000 64 = true ∧ ({ cmd 5 3 (copyWords 1 0x4000 4) with words := 2 ^ 18 :: copyWords 1 0x4000 4 ++ [0] } : Cmd).indirect = true) ∧
    -- tear-downs, and a context with nothing left
    (let s : State := { served { reqs := [admittedReq 200#48 false] } [ctx3 2 []] {} with tears := [(3, 100#48)] }
     s.ctx? 3 = some (ctx3 2 []) ∧ (∃ e ∈ s.tears, e.1 = 3 ∧ Drip.later e.2 s.now = false) ∧
     (∀ e ∈ ([(3, 101#48)] : List (Nat × Drip)), e.1 = 3 → Drip.later e.2 s.now = true) ∧ s.ctxBusy 3 = true) ∧
    (∀ d ∈ [[], [((0 : SliceId).val, cmd 3 3 [1 + 2 * 2 ^ 6, 0x4000, 0, 0, 0, 0])]],
      (served {} [ctx3 3 d] { enable := true }).ctx? 3 = some (ctx3 3 d) ∧ (served {} [ctx3 3 d] { enable := true }).ctxBusy 3 = false) := by
  refine ⟨⟨served_inv, fun b => moe_inv (ledgerAt_ok b)⟩, by decide +kernel⟩

/-- The scan takes the record, and the head advances; the phase of a wrong record stops it. -/
theorem test_ledger_scan :
    let f (b : Bytes) := ((after (exec (.ledgerScan 0) (moe (ledgerAt b)))).sl 0).svc
    (f goodRecord).ledgerHead = 1 ∧ (f goodRecord).pending.map (·.kind) = [4] ∧ (f lateRecord).ledgerHead = 0 ∧ (f badRecord).pending = [] := by
  decide +kernel

/-- CTX_OPEN binds ring 1, owner 2 and the area; CTX_CLOSE of a context that is OFF ends with OK on ring 0. -/
theorem test_contexts :
    let s (k : Nat) (cs : List Ctx) := { served { pending := [cmd k 3 [1 + 2 * 2 ^ 6, 0x4000, 0, 0, 0, 0]] } cs { enable := true } with job := none }
    ((after (exec (.ctxClose 0 4) (s 4 []))).host.rings.getD 0 {}).held.map (fun k => (k.status, k.reason, k.tag)) = [(.ok, 0, 9)] ∧
    ((after (exec (.ctxClose 0 4) (s 4 [ctx3 2 []]))).ctx? 3).map (·.st) = some 3 ∧
    ((after (exec (.submit 0 4) (s 1 []))).host.rings.getD 0 {}).held.map (fun k => (k.status, k.reason)) = [(.fault, 3)] ∧
    ((after (exec (.cancel 0 4) (s 2 []))).host.rings.getD 0 {}).held.map (fun k => (k.status, k.reason)) = [(.fault, 5)] := by decide +kernel

def ioRun (k : StageKind) : Run := stageOf k .sequencer 4 [] .launched

def inPass (r : Request) (k : StageKind) (x : SliceState) : SliceState :=
  { x with runs := [ioRun k], svc := { reqs := [r], combined := [(0, 100#48)], rowmap := [{ valid := true, ctx := 3, sqz := k == .outputSqz, req := 2 }] } }

/-- A job with MoE layers 0 and 1. -/
def twoLayers (s : State) : State := { s with job := some { job0 with slices := [{ image0 with layers := [layer0, { layer0 with layer := 1 }] }] } }

theorem inPass_inv (r : Request) (k : StageKind) : (moe (inPass r k)).Inv := moe_inv fun _ h => h.of_eq rfl rfl rfl rfl rfl rfl

def held0 : Completion := { ring := 1, status := .ok, ctx := 3, slice := 0, tag := 9, ledgerIndex := 0, kind := 4 }

theorem witness_requestsOfAPass :
    ((∀ r k, (moe (inPass r k)).Inv) ∧ ∀ v cs r, (served v cs r).Inv) ∧
    ((moe (inPass (admittedReq 200#48 false) .input)).actingRun 0 0 .input).isSome = true ∧ (admittedReq 200#48 false).inFrame 96#48 = true ∧
    (admittedReq 200#48 false).rows * job0.inRowBytes ≠ 0 ∧ (admittedReq 200#48 false).rows * ({ job0 with inRowBytes := 0 } : Image).inRowBytes = 0 ∧
    (∀ q : Bool,
      let s := moe (inPass (admittedReq 200#48 false) (if q then .outputSqz else .outputMain))
      (s.actingRun 0 0 (if q then .outputSqz else .outputMain)).isSome = true ∧ (s.sl 0).writes q 96#48 (admittedReq 200#48 false) = true) ∧
    (∀ c : Bool,
      let s := twoLayers (moe (inPass (admittedReq 97#48 c) .input))
      (0, 100#48) ∈ (s.sl 0).svc.combined ∧ Drip.later 100#48 s.now = false ∧ 0 ∉ (s.sl 0).svc.boundaries ∧ (s.sl 0).svc.reqs = [admittedReq 97#48 c] ∧ (∃ k ∈ s.moeLayers 0, 0 < k) ∧
      s.overdue (admittedReq 97#48 c) (s.lagAt 0 96#48) = true) ∧
    (let f (d : Drip) : State := moe (inPass (admittedReq d false) .input)
     ((f 99#48).sl 0).svc.reqs.find? (fun q => q.slot == 2 && !q.ended) = some (admittedReq 99#48 false) ∧
     ((f 100#48).sl 0).svc.reqs.find? (fun q => q.slot == 2 && !q.ended) = some (admittedReq 100#48 false) ∧
     Drip.later (f 99#48).now 99#48 = true ∧ Drip.later (f 100#48).now 100#48 = false ∧ (admittedReq 99#48 false).present 100#48 = false) ∧
    (let s := served { pending := [cmd 1 3 [4 + 99 * 2 ^ 16, 0, 0, 0, 0, 0]] } [ctx3 2 []] {}
     (s.sl 0).svc.pending.find? (fun d => d.slot == 4 && d.kind == 1) = some (cmd 1 3 [4 + 99 * 2 ^ 16, 0, 0, 0, 0, 0]) ∧
     Drip.later s.now (cmd 1 3 [4 + 99 * 2 ^ 16, 0, 0, 0, 0, 0]).deadline = true) ∧
    (∀ e : Bool, let s : State := { served {} [] { enable := e, held := [held0] } with host := { (served {} [] { enable := e, held := [held0] }).host with linkUp := true, bme := true } }
      (s.host.rings.getD 1 {}).held = [held0] ∧ s.ringOpen (s.host.rings.getD 1 {}) = e) := by
  refine ⟨⟨inPass_inv, served_inv⟩, by decide +kernel⟩

/-- A request of a status given in this drip whose DEADLINE has passed too, and a STOPPING context whose last completion was
written in this drip. -/
theorem witness_requestsOfAPass_ended :
    let r := { admittedReq 99#48 false with ended := true, conds := [⟨100#48, 100#48, .fault, 0xFF⟩] }
    let s := moe (inPass r .input)
    (s.sl 0).svc.reqs.find? (fun q => q.slot == 2) = some r ∧ Drip.later s.now r.deadline = true ∧ r.present (r.deadline.plus 1) = false ∧
    (served {} [{ ctx3 3 [] with wrote := some 100#48 }] {}).now = 100#48 := by decide +kernel

/-- The request of that status takes DEADLINE as well (R12). -/
theorem test_requests_ended :
    ((after (exec (.requestDeadline 0 2) (moe (inPass { admittedReq 99#48 false with ended := true, conds := [⟨100#48, 100#48, .fault, 0xFF⟩] } .input)))).sl
      0).svc.reqs.map (·.conds.map (·.status)) = [[.fault, .deadline]] := by decide +kernel

/-- From drip DEADLINE + 1 the request has ended with DEADLINE; the INPUT stage asks for 4 rows of 64 bytes at HOST_A. -/
theorem test_requests :
    ((after (exec (.requestDeadline 0 2) (moe (inPass (admittedReq 99#48 false) .input)))).sl 0).svc.reqs.map (·.ended) = [true] ∧
    ((after (exec (.requestDeadline 0 2) (moe (inPass (admittedReq 100#48 false) .input)))).sl 0).svc.reqs.map (·.ended) = [false] ∧
    (after (exec (.inputStage 0 0) (moe (inPass (admittedReq 200#48 false) .input)))).host.chans.getD 0 [] = [.inputRead 0 2 0x100000 256] := by
  decide +kernel

/-- At the boundary of layer 0 a request too late for its deadline runs its squeeze forms from layer 1 on. -/
theorem test_layer_boundary_switch :
    ((after (exec (.layerBoundary 0 0) (twoLayers (moe (inPass (admittedReq 97#48 false) .input))))).sl 0).svc.reqs.map
      (fun r => (r.sqz, r.sqzLayer)) = [(true, 1)] := by decide +kernel

/-! ### Loading, epochs and the hot set (chapter 14) -/

def sealItem (i : LoadItem) : LoadItem := { i with itemCrc := crc32c (itemHeader i 0 ++ i.payload) }

theorem sealItem_ok (i : LoadItem) : itemCrcOk (sealItem i) = true := by
  simp [itemCrcOk, sealItem, itemHeader]

def item (kind id part parts : Nat) (payload : Bytes) : LoadItem :=
  sealItem { kind := kind, chain := 0, loadId := 0, seq := 0, id := id, itemCrc := 0, part := part, parts := parts, payload := payload }

def loading (l : Load) : State := { moe id with load := l }

theorem loading_inv (l : Load) : (loading l).Inv :=
  (State.Keeps.of_eq (s := moe id) (t := loading l) rfl rfl rfl rfl rfl rfl).2 (moe_inv fun _ h => h)

def crcRecord (id crc len : Nat) : Bytes := leBytes 16 (id + crc * 2 ^ 48 + len * 2 ^ 80)

/-- 32 bytes of a panel with the trailer of R58. -/
def smallPanel : Bytes := zeros 32 ++ (leBytes 4 (crc32c (zeros 32)) ++ zeros 28)

/-- A load whose manifest gives an ID one record and whose map puts it at 0x10000 of slice 0. -/
def loadOf (target id : Nat) (crc len : Nat) : Load :=
  { st := 1, target := target, manifest := [{ id := id, crc := crc, length := len }], map := [(id, [(0, 0x10000)])] }

theorem witness_loadItems :
    ((∀ l, (loading l).Inv) ∧ ∀ k n p q b, itemCrcOk (item k n p q b) = true) ∧
    (let i := item 0x12 0 0 1 (crcRecord 5 7 32 ++ crcRecord 6 7 32)
     i.payload.length % 16 = 0 ∧ idsRise (parseRecords i.payload.length i.payload) = true) ∧
    (let i := item 0x12 0 0 1 (crcRecord 6 7 32 ++ crcRecord 5 7 32)
     idsRise (parseRecords i.payload.length i.payload) = false) ∧
    (let i := item 0x13 7 0 1 (zeroTile 0)
     idMatrix i.id < 14 ∧ i.part = 0 ∧ i.parts = 1 ∧ tileHeaderOk (leNat (i.payload.take 32)) = true ∧ tileCrcOk i.payload = true ∧
     i.payload.length = 32 ∧ (loadOf 4 6 0 32).record? i.id = none ∧
     (loadOf 4 7 0 33).record? i.id = some { id := 7, crc := 0, length := 33 } ∧
     let l := loadOf 4 7 (thCrc (leNat (zeroTile 0))) 32
     l.record? i.id = some { id := 7, crc := thCrc (leNat (i.payload.take 32)), length := 32 } ∧ (loading l).rangeFree i 32 = true ∧
     l.places i.id = [(0, 0x10000)]) ∧
    (let b := smallPanel
     let i := item 0x14 (15 * 2 ^ 22) 0 1 b
     let l := loadOf 4 (15 * 2 ^ 22) (crc32c (zeros 32)) 64
     panelId i.id = true ∧ l.partOk i = true ∧ l.record? i.id = some { id := 15 * 2 ^ 22, crc := leNat (slice b (b.length - 32) 4), length := b.length } ∧
     panelOk b = true ∧ (loading l).rangeFree i 64 = true) ∧
    (let i := item 0x15 (14 * 2 ^ 22) 0 1 (zeros 32)
     let l := loadOf 4 (14 * 2 ^ 22) (crc32c (zeros 32)) 32
     placementId i.id = true ∧ l.partOk i = true ∧ l.record? i.id = some { id := 14 * 2 ^ 22, crc := crc32c (zeros 32), length := 32 } ∧
     (loading l).placementKept (idLayer i.id) (zeros 32) = true) ∧
    ((∀ m ∈ (loadOf 4 7 0 32).map, m.1 ∈ [7]) ∧ ∃ m ∈ (loadOf 4 7 0 32).map, m.1 ∉ ({ loadOf 4 7 0 32 with written := [6] } : Load).written) ∧
    (let s := loading { st := 1, target := 5 }
     s.isRepair [] = true ∧ s.isRepair [(14 * 2 ^ 22, [(0, 0x10000)])] = false ∧ s.tuning = false ∧
     (∀ r ∈ s.pinnedRanges 0, 0x10000 + 1 ≤ r.1 ∨ r.1 + r.2 ≤ 0x10000)) ∧
    itemCrcOk { item 0x13 7 0 1 (zeroTile 0) with itemCrc := 0 } = false := by
  refine ⟨⟨loading_inv, fun _ _ _ _ _ => sealItem_ok _⟩, by decide +kernel⟩

/-- A chain of two devices of which this is number `self`. -/
def chain2 (self : Nat) : Bytes := [0#8, 0#8, 0#8, 0#8, 2#8, BitVec.ofNat 8 self, 0#8, 0#8] ++ leBytes 4 5 ++ leBytes 4 6

/-- An item below, at and above the next SEQ of a load that is open, in each state; one that is not whole; a tile of a repair that
is, and one that is not, the one of the set; a table that moves a place; an update while the set is tuned; a map that names a
place in use. -/
def tableMoves (s : State) : State :=
  { moe id with load := s.load, epochs := { s.epochs with map := [(7, [(0, 0x10000)])], manifest := [{ id := 7, crc := 1, length := 32 }] } }

theorem tableMoves_inv (s : State) : (tableMoves s).Inv :=
  (State.Keeps.of_eq (s := moe id) (t := tableMoves s) rfl rfl rfl rfl rfl rfl).2 (moe_inv fun _ h => h)

theorem witness_loadItems_states :
    (∀ s, (tableMoves s).Inv) ∧
    (loading { st := 1 }).loadOpen = true ∧ (stilled (loading { st := 1, target := 5 })).loadOpen = false ∧
    (let i := item 0x13 7 0 1 (zeroTile 0)
     itemWhole i = true ∧ itemWhole { i with itemCrc := i.itemCrc + 1 } = false ∧ itemWhole (item 0x13 7 0 1 (zeroTile 1)) = false ∧
     i.seq < ({ st := 3, nextSeq := 4 } : Load).nextSeq ∧ i.chain = chainNo (chain2 0) ∧ i.loadId = chainLoad (chain2 0)) ∧
    (let s := tableMoves (loading { st := 1, target := 5, repair := true, map := [(7, [(0, 0x10000)])], manifest := [{ id := 7, crc := thCrc (leNat (zeroTile 0)), length := 32 }] })
     s.load.places 7 ≠ [] ∧ ¬ (∃ k ∈ s.epochs.manifest, k.id = 7 ∧ k.crc = thCrc (leNat (zeroTile 0))) ∧ (∃ k ∈ s.epochs.manifest, k.id = 7 ∧ k.crc = 1) ∧
     s.noRepair.isNone = true) ∧
    (let s := loading { st := 1, target := 5, repair := true }
     s.load.places 7 = [] ∧ s.noRepair.isSome = true) ∧
    (let s := tableMoves (loading { st := 1, target := 5 })
     s.mapHits [(8, [(0, 0x10000)])] = true ∧ s.isRepair [(8, [(0, 0x10000)])] = false ∧ s.mapHits [(8, [(0, 0x20000)])] = false) ∧
    ({ loading { st := 1, target := 5 } with job := some { job0 with tuning := true } } : State).tuning = true ∧
    (loading { st := 1, target := 5 }).placementKept (idLayer (14 * 2 ^ 22)) (zeros 64) = false ∧
    (let i := item 0x15 (14 * 2 ^ 22) 0 1 (zeros 64)
     placementId i.id = true ∧ ({ st := 1, target := 5 } : Load).partOk i = true ∧ i.part + 1 = i.parts) :=
  ⟨tableMoves_inv, by decide +kernel⟩

/-- A part that is not the last one carries 65,536 bytes (R380). -/
theorem witness_loadItems_parts (b : Bytes) (h : b.length = 65536) :
    (loadOf 4 (15 * 2 ^ 22) 0 131072).partOk (item 0x14 (15 * 2 ^ 22) 0 2 b) = true ∧ itemCrcOk (item 0x14 (15 * 2 ^ 22) 0 2 b) = true := by
  refine ⟨?_, sealItem_ok _⟩
  simp [Load.partOk, loadOf, item, sealItem, h]

/-- An IMAGE part of an update fails the load. -/
theorem test_image_of_update :
    let t := after (exec (.imageItem (item 0x11 0 0 1 []) job0) (loading { st := 1, target := 5 }))
    t.load.st = 4 ∧ t.load.status = Status.fault.code := by decide +kernel

/-- A tile in force is written where the map names it; one of another CRC fails the load (R384). -/
theorem test_tile_item :
    let f (l : Load) := after (exec (.tileItem (item 0x13 7 0 1 (zeroTile 0))) (loading l))
    ((f (loadOf 4 7 (thCrc (leNat (zeroTile 0))) 32)).sl 0).load 0x10000 32 = (zeroTile 0) ∧
    (f (loadOf 4 7 (thCrc (leNat (zeroTile 0))) 32)).load.nextSeq = 1 ∧
    (f (loadOf 4 7 0 32)).load.st = 4 ∧ (f (loadOf 4 7 0 32)).load.status = 0x13 ∧ (f (loadOf 4 6 0 32)).load.status = 0x1A := by decide +kernel

/-- An image without members and stages that knows which links are DOWN, and a device that has its identity, on which it loads. -/
def small : Image := { node := 5, nodes := [5], frameLen := 64, linksOut := (List.range 8).map fun k => 255 - 2 ^ k }
def smallOf (m : List CrcRecord) : Image := { small with weightDigest := weightRoot m }
def bootd (f : State → State) : State :=
  f { dev with sec := { identity := 1, mr := List.replicate 8 (zeros 64) }, time := { dev.time with state := 2, hasOrigin := true } }
def setLoad (l : Load) (s : State) : State := { s with load := l }
def inHot (st : Nat) (j : Image) (s : State) : State := { s with hot := [{ st := st, img := some j }, {}, {}, {}] }
def armed (s : State) : State := { s with pkg := { s.pkg with reshapeArmed := true, reshapeDrip := 100, reshapeHot := { st := 2, img := some small } } }
def switching (w : Drip) (s : State) : State := { s with epochs := { s.epochs with switch_ := some (1, w), sealed_ := [{ epoch := 2 }, { epoch := 1 }] } }

theorem bootd_inv (f : State → State) (hf : ∀ s : State, s.Keeps (f s)) : (bootd f).Inv :=
  (hf _).2 (inv_of dev_inv rfl rfl rfl rfl rfl)

theorem witness_loadChainsAndEpochs :
    ((∀ f ∈ [setLoad {}, inHot 2 small, armed, switching 100#48, fun s => armed (inHot 2 small s)], (bootd f).Inv) ∧
      (∀ l, (bootd (setLoad l)).Inv) ∧ ∀ u, (oneRun u).Inv) ∧
    (let l : Load := { st := 1, chain := chain2 0, source := leBytes 8 0x10000 ++ leBytes 8 100 }
     l.head = true ∧ l.taken < leNat (slice l.source 8 8) ∧ (bootd (setLoad l)).host.chans.getD 16 [] = [] ∧ (bootd (setLoad l)).host.reads = []) ∧
    (∀ b : Bool,
      let i := item 0x13 7 0 1 (zeroTile 0)
      let l : Load := { st := 1, chain := chain2 0, toForward := [i], stopped := b }
      l.toForward = i :: [] ∧ l.next = some 6 ∧ 64 + i.payload.length ≤ l.window) ∧
    (({ st := 1 } : Load).head = false ∧ ({ st := 1 } : Load).ended = false) ∧
    (let l : Load := { st := 1, chain := chain2 1, nextSeq := 4, manifest := [{ id := 7, crc := 0, length := 32 }], map := [(7, [(0, 0)])] }
     let w := leNat (slice (leBytes 16 (2 * 2 ^ 32)) 0 16)
     bits w 15 0 = chainNo l.chain ∧ bits w 31 16 = chainLoad l.chain ∧ (bits w 71 32 + 1) % 2 ^ 40 ≤ l.nextSeq ∧ l.full = true ∧
     bits (leNat (slice (leBytes 16 1) 0 16)) 15 0 ≠ chainNo l.chain ∧ l.head = false ∧ l.prev = some 5 ∧ ({ l with map := [] } : Load).full = false ∧
     ({ l with chain := chain2 0 } : Load).head = true ∧ l.next = none ∧ l.nextSeq < (bits (leNat (leBytes 16 (4 * 2 ^ 32))) 71 32 + 1) % 2 ^ 40) ∧
    (let l : Load := { st := 1, target := 5, chain := chain2 0 }
     (bootd (setLoad { l with target := 4 })).loadOpen = true ∧ (stilled (bootd (setLoad l))).loadOpen = false ∧
     ({ node := 6, slice := 0 } : Place) ∈ ((bootd fun s => (setLoad l s).onSl 0 fun x => { x with fabric := { x.fabric with lost := [⟨6, 0⟩] } }).sl 0).fabric.lost ∧
     ({ node := 6, slice := 0 } : Place) ∉ ((bootd (setLoad l)).sl 0).fabric.lost) ∧
    (let l (j : Image) : Load := { st := 1, ended := true, img := some j }
     weightRoot (l (smallOf [])).manifest = (smallOf []).weightDigest ∧
     weightRoot (l small).manifest ≠ ({ small with weightDigest := 0#8 :: weightRoot [] } : Image).weightDigest ∧
     (l small).target = 4 ∧
     ((bootd (setLoad (l { smallOf [] with node := 6 }))).tagImages { smallOf [] with node := 6 }).loadJob { smallOf [] with node := 6 } [] (programDigest [])
       (BitVec.ofNat 48 0) false = none ∧
     (((bootd (setLoad (l (smallOf [])))).tagImages (smallOf [])).loadJob (smallOf []) [] (programDigest []) (BitVec.ofNat 48 0) false).isSome = true) ∧
    (let l : Load := { st := 1, ended := true, target := 5, manifest := [{ id := 7, crc := 1, length := 32 }] }
     weightRoot l.manifest = slice (weightRoot l.manifest) 0 64 ∧ weightRoot ({ l with manifest := [] } : Load).manifest ≠ slice l.imageBytes 0 64) ∧
    (let s := bootd fun u => setLoad { hotLoading := some 0 } (inHot 2 small u)
     s.load.hotLoading = some 0 ∧ (s.hot.getD 0 {}).img = some small ∧ ({ s with load := { s.load with hotLoading := none } } : State).hotSound small [] = true ∧
     (((({ s with load := { s.load with hotLoading := none } } : State).placeWeights small []).tagImages small).loadJob small [] [] (BitVec.ofNat 48 0) false).isSome = true) ∧
    (let s := bootd fun u => armed (inHot 3 small u)
     let p : State := { s with pkg := { s.pkg with reshapeArmed := false, reshapeDrip := 0, reshapeHot := {} }
                               hot := s.hot.map fun g => if g.st == 3 then { g with st := 2 } else g }
     BitVec.ofNat 48 s.pkg.reshapeDrip = s.now ∧ s.pkg.reshapeHot.img = some small ∧ s.pkg.nodeId ∈ small.nodes ∧
     s.pkg.nodeId ∉ ({ small with nodes := [] } : Image).nodes ∧ p.hotSound small [] = true ∧
     (((p.placeWeights small []).tagImages small).loadJob small [] [] s.now true).isSome = true ∧
     ((p.placeWeights small []).tagImages small).loadJob { small with node := 6 } [] [] s.now true = none) ∧
    ((bootd (switching 100#48)).epochs.switch_ = some (1, 100#48) ∧ (bootd (switching 100#48)).epochs.sealed_.find? (fun k => k.epoch == 1) = some { epoch := 1 } ∧
      (bootd (switching 100#48)).now = 100#48) ∧
    (let since (s : State) (d : Drip) : State := { s with epochs := { s.epochs with since := d } }
     let u := stageOf .quad (.quad 0) 4 [] .launched
     (∀ x ∈ (since (oneRun u) 96#48).slices, ∀ v ∈ x.runs, Drip.notLater 96#48 v.frame = true) ∧
     ∃ x ∈ (since (oneRun u) 160#48).slices, ∃ v ∈ x.runs, v.over = false ∧ Drip.notLater 160#48 v.frame = false) := by
  refine ⟨⟨fun f hf => ?_, fun _ => bootd_inv _ fun _ => .of_eq rfl rfl rfl rfl rfl rfl, oneRun_inv⟩, by decide +kernel, by decide +kernel,
    by decide +kernel, by decide +kernel, by decide +kernel, ⟨rfl, ?_, by decide +kernel⟩, by decide +kernel⟩
  · fin_cases hf <;> exact bootd_inv _ fun _ => .of_eq rfl rfl rfl rfl rfl rfl
  · exact fun h => by simp at h

/-- The load of a whole job: IMAGE, END, and the seal; the job starts at LOAD_FRAME_START. -/
theorem test_load_seals :
    let l : Load := { st := 1, ended := true, img := some (smallOf []), frameStart := 128 }
    let t := after (exec .loadSeal (bootd (setLoad l)))
    t.job = some (smallOf []) ∧ t.load.st = 3 ∧ t.frame0 = 128#48 := by
  refine ⟨rfl, rfl, rfl⟩

/-! ### The lantern port, quotes and firmware (chapters 16 to 18) -/

/-- A message of session 1 with its TAG. -/
def uaric (type seq : Nat) (body : Bytes) : UaricMsg :=
  let m : UaricMsg := { version := 1, type := type, session := 1, seq := seq, body := body }
  { m with tag := uaricTag [] (UaricMsg.plain m) }

theorem uaric_takes (type seq : Nat) {body : Bytes} (hb : body.length ≤ 1184) : (doored id).takesDatagram (uaric type seq body) = true := by
  have ht : (uaric type seq body).tag.length ≤ 16 := List.length_take_le ..
  have hl : (uaric type seq body).body.length ≤ 1184 := hb
  have hd : (uaric type seq body).dst = none := rfl
  have hp : ((uaric type seq body).dstPort == (doored id).lantern.port) = true := rfl
  have ho : (doored id).lanternOn = true := rfl
  simp only [State.takesDatagram, ho, hd, hp, Option.all_none, Bool.and_true, Bool.true_and, Bool.and_eq_true, decide_eq_true_eq]
  omega

theorem uaric_tagged (type seq : Nat) {body : Bytes} (hb : body.length ≤ 1184) :
    (doored id).taggedFrom (uaric type seq body) = some { num := 1, principal := .operator, key := [], k := [] } := by
  have h : (uaric type seq body).tag = uaricTag [] (UaricMsg.plain (uaric type seq body)) := rfl
  have hs : (doored id).session? (uaric type seq body).session = some { num := 1, principal := .operator, key := [], k := [] } := rfl
  have hl := uaric_takes type seq hb
  have hv : (uaric type seq body).version = 1 := rfl
  unfold State.taggedFrom
  rw [hs]
  simp [h, hl, hv]

/-- An operator's key, an OPEN that carries it, and one for a principal that there is not. -/
def opKey : Bytes := List.replicate 57 3#8
def openMsg (p : Nat) : UaricMsg := { version := 1, type := 1, session := 0, seq := 0, body := [BitVec.ofNat 8 p] ++ zeros 39 ++ opKey ++ zeros 56 }
def keyed (s : State) : State := { s with dict := { s.dict with credOperator := opKey } }
def shaking (s : State) : State := { s with lantern := { s.lantern with handshakes := [{ num := 4, principal := .operator, key := opKey, th1 := [], k := [] }] } }
def quoting (n : Nat) (s : State) : State := { s with sec := { s.sec with quoteState := n } }
def replied (s : State) : State :=
  { s with lantern := { sessions := [{ num := 1, principal := .operator, key := [], k := [], seq := 4, result := [1#8] }] } }

def digestDue : Run := { stageOf .passDigest .sequencer 4 [] .launched with entry := { (stageOf .passDigest .sequencer 4 [] .launched).entry with due := 4 } }

theorem witness_sessionsQuotesAndPassDigests :
    ((∀ f ∈ [id, keyed, shaking, replied, quoting 1], (doored f).Inv) ∧ ∀ u, (oneRun u).Inv) ∧
    ((doored keyed).takesDatagram (openMsg 1) = true ∧ (doored keyed).takesDatagram { openMsg 1 with dstPort := 30518 } = false ∧ (doored keyed).openReject (openMsg 1) = none ∧ (doored keyed).openReject (openMsg 4) = some 1) ∧
    (doored shaking).lantern.handshakes.find? (fun g => g.num == 4) = some { num := 4, principal := .operator, key := opKey, th1 := [], k := [] } ∧
    (∀ type seq body, body.length ≤ 1184 → (doored id).taggedFrom (uaric type seq body) = some { num := 1, principal := .operator, key := [], k := [] }) ∧
    (doored id).writingFor (.session 1) = false ∧ UaricMsg.index (uaric 0x10 1 (zeros 8)) = 0 ∧ entry? 0 0 = none ∧
    (let m := uaric 0x11 1 ([0x01#8, 0x61#8, 1#8, 0#8, 0#8, 1#8, 1#8, 0#8] ++ [5#8])
     UaricMsg.index m = 0x6101 ∧ UaricMsg.sub m = 1 ∧ m.body.drop 8 = [5#8] ∧ UaricMsg.chunkLen m = 1 ∧ m.seq = 0 + 1) ∧
    (∃ e, entry? 0x1000 1 = some e ∧ (doored id).accessOf .operator e ≠ 0) ∧
    ((doored replied).session? 1 = some { num := 1, principal := .operator, key := [], k := [], seq := 4, result := [1#8] }) ∧
    ((doored (quoting 1)).sec.quoteState = 1 ∧ (doored id).sec.quoteState ≠ 1) ∧
    (((oneRun digestDue).sl 0).runs.find? (fun r => r.idx == 0 && ((oneRun digestDue).sl 0).digestDue (oneRun digestDue).now r) = some digestDue ∧
      ((oneRun { digestDue with frame := 0#48 }).sl 0).svc.pass.frame = ({ digestDue with frame := 0#48 } : Run).frame ∧
      ((oneRun { digestDue with st := .waiting }).sl 0).runs.find? (fun r => r.idx == 0 && ((oneRun digestDue).sl 0).digestDue (oneRun digestDue).now r) =
        some { digestDue with st := .waiting }) ∧
    (uaric 0x10 1 (zeros 8)).seq = 0 + 1 ∧ ((doored id).startAccess (.session 1) 0 0 0).isSome = true ∧ (doored id).fw.handing 33 = false ∧
    (doored id).doorOpen (.session 1) = true ∧ (doored (quoting 1)).fw.handing 33 = false ∧
    (let s := doored fun s => { s with fw := { s.fw with rollout := 1, step := 32, switching := true }, dict := { s.dict with queued := [.info (.session 2) 0x9020 1] } }
     s.doorOpen (.session 1) = true ∧ s.fw.handing 33 = true ∧ s.doorOpen (.session 2) = false) ∧
    (let m := uaric 0x11 1 ([0x20#8, 0x90#8, 1#8, 0#8, 0#8, 1#8, 1#8, 0#8] ++ [1#8])
     (entry? (UaricMsg.index m) (UaricMsg.sub m)).map (fun e => decide (typeWidth e.ty ≠ 0)) = some true ∧
     judged (doored id) (.session 1) (UaricMsg.index m, UaricMsg.sub m, UaricMsg.channel m, (m.body.drop 8).take (UaricMsg.chunkLen m)) = some codeState ∧
     codeDeferred < codeState) := by
  refine ⟨⟨fun f hf => ?_, oneRun_inv⟩, by decide +kernel, by decide +kernel, uaric_tagged, by decide +kernel, by decide +kernel, by decide +kernel,
    by decide +kernel, ⟨(entry? 0x1000 1).get (by decide +kernel), by decide +kernel⟩, by decide +kernel⟩
  fin_cases hf <;> exact doored_inv _ fun _ => .of_eq rfl rfl rfl rfl rfl rfl

/-- CLOSE ends the session, and what a session asks for again is sent again. -/
theorem test_sessions :
    (after (exec (.uaricIdleTimeout 1) (doored id))).session? 1 = none ∧ (after (exec (.uaricIdleTimeout 1) (doored id))).lantern.sessions.length = 2 ∧
    (after (exec (.uaricOpen (openMsg 4)) (doored keyed))).lantern.authFailures = 1 := by decide +kernel

/-- A rollout at step 0 whose start is two drips past, one that switches, one that turns back, one held and one that commits. -/
def rolling (fw : Firmware) (b : Bool) : State :=
  { dev with fw := fw, dict := { holdup := b }, sec := { mr := List.replicate 8 (zeros 64) } }

theorem rolling_inv (fw : Firmware) (b : Bool) : (rolling fw b).Inv :=
  inv_of dev_inv rfl rfl rfl rfl rfl

theorem witness_firmwareRollout :
    (∀ fw b, (rolling fw b).Inv) ∧
    (∀ r ∈ [(1, 0), (3, 5)], (rolling { rollout := r.1, step := r.2, startDrip := 90#48, lastH := 90#48, settle := 2, target := 1 } true).handoverDue = true) ∧
    (rolling { rollout := 1, startDrip := 99#48 } true).handoverDue = false ∧
    ({ switching := true, rollout := 1, step := 33 } : Firmware).nextStep = 34 ∧ ({ switching := true, rollout := 3, step := 1 } : Firmware).switching = true ∧
    (rolling { rollout := 2 } true).holdReason = 0 ∧ (rolling { rollout := 2 } false).holdReason = 3 ∧
    (let s := rolling { committing := true } true
     s.fw.committing = true ∧ s.dict.holdup = true ∧ s.dict.writing = none ∧ s.dict.storeWear < 100) ∧
    (let s : State := { rolling { committing := true } true with dict := { holdup := true, storeWear := 100 } }
     s.fw.committing = true ∧ s.dict.holdup = true ∧ s.dict.writing = none ∧ 100 ≤ s.dict.storeWear) ∧
    (∀ r ∈ [1, 3], (rolling { rollout := r, step := 33, switching := true } true).fw.switching = true) := by
  refine ⟨rolling_inv, by decide +kernel⟩

/-- The first handover moves processor 1 to the target; a bad digest at step 0 fails the rollout. -/
theorem test_handover :
    let s := rolling { rollout := 1, startDrip := 90#48, target := 1 } true
    (after (exec (.handoverStep true) s)).fw.switching = true ∧ (after (exec (.handoverStep true) s)).fw.procs.take 2 = [1, 0] ∧
    (after (exec (.handoverStep false) s)).fw.rollout = 4 ∧ (after (exec .rolloutResume (rolling { rollout := 2 } false))).fw.hold = 3 := by decide +kernel

/-! ### The host port, errors, resets and power (chapters 19 to 21) -/

def hosted (f : HostPort → HostPort) : State :=
  let s := moe id
  { s with dict := { deviceState := 1 }, host := f { s.host with linkUp := true, bme := true } }

theorem hosted_inv (f : HostPort → HostPort) (hf : ∀ h, (f h).rings.length = h.rings.length ∧ (f h).chans.length = h.chans.length) : (hosted f).Inv := by
  obtain ⟨a, b, c, d, _⟩ : (moe id).Inv := moe_inv fun _ h => h
  exact ⟨a, (hf _).1.trans b, (hf _).2.trans c, d, rfl⟩

def pendingVec (b : Bool) (h : HostPort) : HostPort := { h with msixEnable := b, pendingBits := 8 }
def withRing2 (r : Machine.Ring) (h : HostPort) : HostPort := { h with msixEnable := true, rings := h.rings.set 2 r }
def withChan (c : Nat) (js : List DmaJob) (h : HostPort) : HostPort := { h with chans := h.chans.set c js }
def reading (j : DmaJob) (h : HostPort) : HostPort := { h with reads := [(3, j)] }

theorem witness_hostRegisters :
    ((∀ b, (hosted (pendingVec b)).Inv) ∧ (∀ r, (hosted (withRing2 r)).Inv) ∧ State.reset.Inv) ∧
    ¬ (((([1#8] : Bytes).length = 4) ∨ ([1#8] : Bytes).length = 8) ∧ 8 % ([1#8] : Bytes).length = 0) ∧ ¬ ((16 = 4 ∨ 16 = 8) ∧ 8 % 16 = 0) ∧
    (∀ b : Bool, let h := (hosted (pendingVec b)).host
      h.msix.length = 64 ∧ h.msixEnable = b ∧ h.msixMask = false ∧ h.pendingBits.testBit 3 = true) ∧
    (let h := (hosted (withRing2 { vector := 2, modTime := 5, unsignalled := 1 })).host
     (h.rings.getD 2 {}).modTime ≠ 0 ∧ 0 < (h.rings.getD 2 {}).unsignalled ∧ h.masked 2 = true ∧
     ({ h with msix := h.msix.set 2 (zeros 16) } : HostPort).masked 2 = false) ∧
    State.reset.dict.deviceState = 0 ∧ (hosted id).dict.deviceState ≠ 0 := by
  refine ⟨⟨fun _ => hosted_inv _ fun _ => ⟨rfl, rfl⟩, fun _ => hosted_inv _ fun _ => ⟨List.length_set .., rfl⟩, ?_⟩, by decide, by decide,
    by decide +kernel, by decide +kernel, by decide, by decide +kernel⟩
  exact ⟨⟨List.length_replicate .., fun x hx => by rw [List.eq_of_mem_replicate hx]; exact slice_ok.of_eq rfl rfl rfl rfl rfl rfl⟩, rfl, rfl, rfl, rfl⟩

/-- A write of RING_HEAD of ring 2, of CHAN_SEL, and of two bytes. -/
theorem test_registers :
    ((after (exec (.registerWrite 0x300040 (leBytes 8 7)) (hosted id))).host.rings.getD 2 {}).head = 7 ∧
    (after (exec (.registerWrite 8 (leBytes 8 5)) (hosted id))).host.chanSel = 5 ∧
    (after (exec (.registerWrite 8 (leBytes 2 5)) (hosted id))).host.barAborts = 1 := by decide +kernel

def inputOf (a n : Nat) : DmaJob := .inputRead 0 2 a n
def copySlice (x : SliceState) : SliceState := { x with svc := { reqs := [admittedReq 200#48 false], copies := [(cmd 5 3 (copyWords 0 0x40000 64), 64)] } }

def reads (j : DmaJob) : State :=
  let s := moe copySlice
  { s with host := { s.host with reads := [(3, j)] } }

theorem reads_inv (j : DmaJob) : (reads j).Inv := by
  obtain ⟨a, b, c, d, e⟩ : (moe copySlice).Inv := moe_inv fun _ h => h.of_eq rfl rfl rfl rfl rfl rfl
  exact ⟨a, b, c, d, e⟩

theorem witness_hostDma :
    ((∀ c js, (hosted (withChan c js)).Inv) ∧ ∀ j, (reads j).Inv) ∧
    (∀ j ∈ [(0, inputOf 0x10F00 5000), (17, DmaJob.recordWrite 0xFF8 (zeros 120)), (1, .outputWrite 0 2 0x100 [1#8]), (1, .copyWrite 0 4 0x100 [1#8]), (17, .message 3)],
      let s := hosted (withChan j.1 [j.2])
      s.canIssue = true ∧ s.host.nextChannel = some j.1 ∧ s.host.chans.getD j.1 [] = j.2 :: [] ∧ s.host.freeTag = some 0) ∧
    (inputOf 0x10F00 5000).isRead = true ∧ (hosted id).host.nextChannel = none ∧ (moe id).canIssue = false ∧
    (∀ j ∈ [inputOf 0x100000 64, .copyRead 0 4 0x100000 64 0x40000],
      let s := reads j
      s.host.reads.find? (fun r => r.1 == 3) = some (3, j) ∧ s.job = some job0 ∧
      (s.sl 0).svc.reqs.find? (fun v => v.slot == 2) = some (admittedReq 200#48 false) ∧
      (s.sl 0).svc.copies.find? (fun k => k.1.slot == 4) = some (cmd 5 3 (copyWords 0 0x40000 64), 64) ∧ ∀ r ∈ s.host.reads, r.1 ≠ 4) := by
  refine ⟨⟨fun _ _ => hosted_inv _ fun _ => ⟨rfl, List.length_set ..⟩, reads_inv⟩, by decide +kernel, by decide, by decide +kernel⟩

/-- A read of 5,000 bytes asks for 256 up to the next 4 KiB, and the rest stays; a COPY's bytes land and it completes. -/
theorem test_dma :
    let t := after (exec .dmaRequestIssue (hosted (withChan 0 [inputOf 0x10F00 5000])))
    t.out = [.hostRead 0 0x10F00 256] ∧ t.host.chans.getD 0 [] = [inputOf 0x11000 4744] ∧ t.host.turn = 1 ∧
    let u := after (exec (.hostReadCompletion 3 (List.replicate 64 9#8) true) (reads (.copyRead 0 4 0x100000 64 0x40000)))
    (u.sl 0).load 0x4003F 2 = [9#8, 0#8] ∧ (u.sl 0).svc.copies = [] := by decide +kernel

/-- BAR2 window 0 stands on slice 0, whose word at 0x1000 is poisoned. -/
def poisonedWord (x : SliceState) : SliceState := { x with poison := [0x1000] }

def bar2 (on : Bool) : State :=
  let s := dev.onSl 0 poisonedWord
  { s with host := { s.host with wins := (0, 0, on) :: s.host.wins.drop 1 } }

theorem bar2_inv (on : Bool) : (bar2 on).Inv :=
  ((State.Keeps.onSl dev 0 (f := poisonedWord) fun _ h => h.of_eq rfl rfl rfl rfl rfl rfl).trans (.of_eq rfl rfl rfl rfl rfl rfl)).2 dev_inv

/-- A window that is enabled and one that is not; an address that BAR2 reaches and one it does not. -/
theorem witness_bar2Accesses :
    (∀ b, (bar2 b).Inv) ∧ (bar2 true).host.translate 0x1000 = some (0, 0x1000) ∧ (bar2 false).host.translate 0x1000 = none ∧
    (∀ w : Bool, (bar2 true).bar2Reach 0 0x1000 8 w = true) ∧ (bar2 true).host.translate (2 ^ 33 - 1) = some (0, 2 ^ 33 - 1) ∧
    (bar2 true).bar2Reach 0 0x3FBFFFFFF8 8 false = true ∧ (bar2 true).bar2Reach 0 0x3FBFFFFFFC 8 false = false ∧
    (((bar2 true).sl 0).err.queued.filter fun r => r.unit == { kind := 14, index := 0 }).length < 4 := by
  refine ⟨bar2_inv, by decide +kernel⟩

/-- The completion carries the bytes as stored, with EP for the poisoned word; a poisoned write stores nothing (R494, R495). -/
theorem test_bar2 :
    (after (exec (.bar2Read { on := 0x1000 } 8) (bar2 true))).out = [.cpl (zeros 8) false true] ∧
    (after (exec (.bar2Read { on := 0x1008 } 4) (bar2 true))).out = [.cpl (zeros 4) false false] ∧
    (after (exec (.bar2Read { on := 0x1008, bad := [0x1008] } 4) (bar2 true))).out = [.cpl (zeros 4) false true] ∧
    ((after (exec (.bar2Write { offset := 0x2000, data := [5#8], poisoned := true }) (bar2 true))).sl 0).mem = [] ∧
    ((after (exec (.bar2Write { offset := 0x2000, data := [5#8] }) (bar2 true))).sl 0).mem = [(0x2000, 5#8)] := by decide +kernel

/-- Error rings: nothing open, a record open over a ring with room, and over a full one. -/
def errSlice (opened : List ErrRecord) (head tail dropped : Nat) (x : SliceState) : SliceState :=
  { x with err := { x.err with opened := opened, head := head, tail := tail, overflow := dropped } }

def errored (opened : List ErrRecord) (head tail dropped : Nat) : State := dev.onSl 0 (errSlice opened head tail dropped)

theorem errored_inv (opened : List ErrRecord) (head tail dropped : Nat) : (errored opened head tail dropped).Inv :=
  (State.Keeps.onSl dev 0 (f := errSlice opened head tail dropped) fun _ h => h.of_eq rfl rfl rfl rfl rfl rfl).2 dev_inv

def rec0 : ErrRecord := { r := mkReport 0x11 3 1 0x1A, seq := 6 }

theorem witness_closedRecords :
    (∀ o h t v, (errored o h t v).Inv) ∧ ((errored [] 0 0 0).sl 0).err.opened = [] ∧
    (∀ c ∈ [(0, 0), (0, 1022), (5, 1023), (0, 1023), (6, 5)],
      ((errored [rec0] c.1 c.2 0).sl 0).err.opened = [rec0] ∧ ((c.2 + 1) % 1024 = c.1 ↔ c ∈ [(0, 1023), (6, 5)])) :=
  ⟨errored_inv, by decide +kernel⟩

/-- At the last place ERR_TAIL wraps; a full ring drops the record, and OVERFLOW stays at its largest value. -/
theorem test_record_close :
    let f (h t v : Nat) := ((after (exec (.errorRecordClose 0) (errored [rec0] h t v))).sl 0).err
    (f 5 1023 0).tail = 0 ∧ (f 5 1023 0).ring.map (·.1) = [1023] ∧ (f 0 1023 7).tail = 1023 ∧ (f 0 1023 7).ring = [] ∧ (f 0 1023 7).overflow = 8 ∧
    (f 0 1023 0xFFFFFFFF).overflow = 0xFFFFFFFF := by decide +kernel

theorem witness_reportsAndReadings :
    ((∀ k, (living k id).Inv) ∧ ∀ o h t v, (errored o h t v).Inv) ∧ ((living { st := 2 } id).lifeOf 3 0).st = 2 ∧ ((living { st := 2 } id).lifeOf 2 0).st = 2 ∧
    ((living {} id).lifeOf 3 0).st ≠ 2 ∧ (((living {} id).sl 0).err.queued.filter fun k => k.unit == { kind := 13, index := 0 }).length < 4 ∧
    (∀ k ∈ [rec0], k.r.cls ≠ 0x12) ∧ ((errored [rec0] 0 0 0).sl 0).err.opened.find? (fun y => y.r.cls == 0x11 && y.r.unit == rec0.r.unit) = some rec0 := by
  refine ⟨⟨fun _ => living_inv _ _ fun _ => rfl, errored_inv⟩, by decide +kernel, by decide +kernel, by decide +kernel, by decide +kernel,
    by decide, by decide +kernel⟩

/-- The report that is made now is the only one that waits, or waits behind one of a lower UNIT. -/
theorem witness_reportsAndReadings_order :
    let made := mkReport 0x11 3 1 0x1A
    let lower := mkReport 0x11 2 0 0x1A
    ((errored [rec0] 0 0 0).sl 0).err.queued = [] ∧ ((errored [rec0] 0 0 0).sl 0).err.opened.length < 16 ∧
    (∀ q ∈ [[], [lower]],
      let held := if made ∈ q then q else if (q.filter fun k => k.unit == made.unit).length < 4 then q ++ [made] else q
      ∃ r ∈ held, held.head? = some r ∧ ∀ k ∈ held, reportUnit r ≤ reportUnit k) := by decide +kernel

/-- A second report of the class and unit of an open record raises its COUNT; another opens a record. -/
theorem test_error_report :
    let f (c : Nat) := ((after (exec (.errorReport 0 (mkReport c 3 1 0x1A)) (errored [rec0] 0 0 0))).sl 0).err
    (f 0x11).opened.map (fun k => (k.seq, k.count)) = [(6, 2)] ∧ (f 0x12).opened.map (fun k => (k.seq, k.count)) = [(6, 1), (0, 1)] ∧ (f 0x12).nextSeq = 1 := by
  decide +kernel

theorem witness_hostResets :
    (∀ b : Bool, ({ bootd id with load := { st := 1, chain := if b then chain2 0 else [] } } : State).load.head = b) ∧ (bootd id).Inv ∧
    2 ≤ (4 : Nat) ∧ (4 : Nat) ≤ 4 ∧ 1 ≤ (6 : Nat) := by
  refine ⟨by decide +kernel, bootd_inv _ fun _ => .refl _, by decide, by decide, by decide⟩

/-- After FLR no ring is enabled, the channels are empty and the job stays (R500). -/
theorem test_flr :
    let t := after (exec .flr (hosted (withChan 17 [.message 3])))
    t.host.hostResets = 1 ∧ t.host.chans.getD 17 [] = [] ∧ t.job = some job0 ∧ t.host.linkUp = true ∧ t.host.bme = false ∧
    (after (exec (.perstN .perst) (hosted id))).host.linkUp = false := by decide +kernel

def powered (p : Package) (fw : Firmware) : State := { dev with pkg := p, fw := fw }

theorem powered_inv (p : Package) (fw : Firmware) : (powered p fw).Inv := inv_of dev_inv rfl rfl rfl rfl rfl

/-- Every pair of PWR_OK and SYS_RST_N, both states of the PLL, rollouts in each state, and a slice held in reset. -/
theorem witness_powerAndReset :
    (∀ p fw, (powered p fw).Inv) ∧
    (∀ a b c : Bool, (powered { pwrOk := a, sysRst := b, pllLocked := c } {}).pkg.pwrOk = a ∧
      (powered { pwrOk := a, sysRst := b, pllLocked := c } {}).pkg.sysRst = b ∧ (powered { pwrOk := a, sysRst := b, pllLocked := c } {}).pkg.pllLocked = c) ∧
    ({} : BootInputs).railsOk = true ∧ ({} : BootInputs).pllLocked = true ∧ ({ railsOk := false } : BootInputs).railsOk = false ∧
    (∀ r ∈ [1, 2, 3], (powered {} { rollout := r }).fw.rollout = r) ∧ dev.dict.writing = none ∧
    (powered {} {}).dict.deviceState ≠ 4 ∧ ({ powered { pwrOk := true } {} with dict := { deviceState := 4 } } : State).Inv ∧
    (∀ b : Bool, (({ dev with slices := [{ power := { heldInReset := b } }] } : State).sl 0).power.heldInReset = b) := by
  refine ⟨powered_inv, fun _ _ _ => ⟨rfl, rfl, rfl⟩, rfl, rfl, rfl, by decide +kernel, rfl, by decide,
    inv_of dev_inv rfl rfl rfl rfl rfl, by decide +kernel⟩

/-- A device that is off, whose store holds 5 and before it 9 as NODE_ID. -/
def stored : State :=
  { dev with pkg := { dev.pkg with pwrOk := false }, dict := { store := [{ index := 0x4000, sub := 1, channel := 0, count := 2, value := leBytes 4 5, older := some (leBytes 4 9) }] } }

theorem witness_lostRecords :
    stored.Inv ∧ stored.pkg.pwrOk = false ∧ stored.dict.restore = false ∧
    ∃ r, stored.dict.store.find? (fun k => k.index == 0x4000 && k.sub == 1 && k.channel == 0) = some r ∧ r.older = some (leBytes 4 9) :=
  ⟨inv_of dev_inv rfl rfl rfl rfl rfl, rfl, rfl, _, rfl, rfl⟩

/-- R435: NODE_ID loads as 5, as 9 where the newer record fails, and as its default 0 where both do. -/
theorem test_lost_records :
    stored.pkg.nodeId = 5 ∧ (stored.loadStore [{ index := 0x4000, sub := 1 }]).pkg.nodeId = 9 ∧
    (stored.loadStore [{ index := 0x4000, sub := 1, both := true }]).pkg.nodeId = 0 := by decide +kernel

theorem test_power :
    (after (exec (.pwrOkFall true) (moe id))).job = none ∧ ((after (exec (.pwrOkFall true) (moe id))).sl 0).mem = [] ∧
    (after (exec .pllLockLoss (moe id))).pkg.dividersRun = false ∧ (after (exec .pllLockLoss (moe id))).job = none ∧
    ((after (exec (.railFault (some 3)) (moe id))).sl 3).power.heldInReset = true ∧ (after (exec (.railFault (some 3)) (moe id))).job = some job0 := by
  decide +kernel

def warm (p : Power) (x : SliceState) : SliceState := { x with power := p }

def hotSlice (p : Power) (still : Bool) : State :=
  let s := dev.onSl 0 (warm p)
  { s with dict := { deviceState := 1 }, still := { s.still with on := still } }

theorem hotSlice_inv (p : Power) (b : Bool) : (hotSlice p b).Inv := by
  obtain ⟨a, b, c, d, _⟩ := (State.Keeps.onSl dev 0 (f := warm p) fun _ h => h.of_eq rfl rfl rfl rfl rfl rfl).2 dev_inv
  exact ⟨a, b, c, d, rfl⟩

/-- Codes and dividers at and inside their ends; temperatures and watts on both sides of each level. -/
theorem witness_heatAndPowerLimits :
    (∀ p b, (hotSlice p b).Inv) ∧ (hotSlice {} false).dict.deviceState ≠ 0 ∧
    (∀ v ∈ [1, 14], ((hotSlice { vid := v } false).sl 0).power.vid < 15 ∧ 0 < ((hotSlice { vid := v } false).sl 0).power.vid) ∧
    (hotSlice {} false).pkg.thermtrip = false ∧
    (∀ b : Bool, (hotSlice {} b).still.on = b) ∧ (∀ w ∈ [649, 650], (650 ≤ [w].getD 0 0 ↔ w = 650)) ∧
    (∀ t ∈ [(99 : Int), 100], ∀ d ∈ [8, 12, 16, 24], ∀ w : Bool,
      ((hotSlice { temp := t, aclkDiv := d, withheld := w } false).sl 0).power.aclkDiv = d ∧
      ((hotSlice { temp := t, aclkDiv := d, withheld := w } false).sl 0).power.withheld = w ∧
      (((hotSlice { temp := t, aclkDiv := d, withheld := w } false).sl 0).power.temp < 100 ↔ t = 99)) := by
  refine ⟨hotSlice_inv, by decide +kernel⟩

/-- 650 W slow the ACLK from /8 to /12, in still-water mode withhold launches, and 649 W do neither; 114 C do not trip, and the
reports that wait are then accepted in the order of their units (R484, R521, R524). -/
theorem test_limits :
    let f (w : Nat) (b : Bool) := ((after (exec (.powerWindow [w] 0) (hotSlice {} b))).sl 0).power
    (f 649 false).aclkDiv = 8 ∧ (f 650 false).aclkDiv = 12 ∧ (f 650 true).aclkDiv = 8 ∧ (f 650 true).withheld = true ∧
    (after (exec (.sensorRead 0 114) (hotSlice {} false))).pkg.thermtrip = false ∧
    (({ queued := [mkReport 0x0D 7 7, mkReport 0x17 0 0 0 255 [3]] } : Errors).acceptAll 0).opened.map (fun k => k.r.cls) = [0x17, 0x0D] ∧
    ((after (exec (.vidStep 0 true) (hotSlice { vid := 15 } false))).sl 0).power.vid = 15 := by decide +kernel

/-! ### The queue -/

/-- The statements on a step: a state with the invariant and a command that waits, in front of another. -/
theorem witness_step :
    let s : State := { dev with pending := [.tapInstruction .clamp, .dripBoundary] }
    s.Inv ∧ (∃ t, step s = .next t ∧ t.pkg.tap = .bypass ∧ t.pending = [.dripBoundary]) ∧ step dev = .next dev := by
  refine ⟨⟨dev_inv.1, dev_inv.2⟩, ⟨_, rfl, rfl, rfl⟩, rfl⟩

/-! ### Ill-formed commands

A command whose fields are all in range, and for each check of `Instr.wf` one that it refuses. -/

def pkt0 : Packet := { opcode := 1, plen := 0 }
def item0 : LoadItem := { kind := 0x13, chain := 1, loadId := 1, seq := 0, id := 7, itemCrc := 0, payload := [] }
def msg0 : UaricMsg := { version := 1, type := 1, session := 0, seq := 0, body := [] }
def sym0 : TimeSym := { t1 := 0, echoT1 := 0, echoRx := 0, gmErr := 0, rx := 0 }
def tpk0 : TimePkt := { gmNode := 0, gmLocked := true, hops := 0, dripOrigin := 0, dripBeats := 256 }
def exp0 : Expander := { lanes := 8, rate := 64, serial := 0, sizeBytes := 0, cdat := none, suitable := true }
def rep0 : Report := mkReport 0x11 3 1 0x1A

theorem test_wf_accepts :
    ∀ i ∈ [Instr.timeSymbol 0 0 sym0, .timePacket 0 0 tpk0, .countRecord 0 ⟨5, 1⟩ [], .lookaheadCount 0 ⟨5, 1⟩ 3 [(⟨7, 63⟩, 4)], .read 0 .own pkt0,
      .tileItem item0, .uaricOpen msg0, .errorReport 0 rep0, .sumpRetrain 0 (some exp0), .routeSwitchDrip (.session 8) 4, .powerWindow (List.replicate 8 0) 0,
      .sensorRead 0 (-273), .bar2Read { on := 0 } 4096, .dictRead 0xFFFF 255, .contextOff 254, .dripBoundary], i.wf = true := by decide +kernel

/-- Packets: each field one past its width (Table 10-6). -/
theorem test_wf_packet :
    ∀ p ∈ [{ pkt0 with opcode := 256 }, { pkt0 with epoch := 2 }, { pkt0 with job := 65536 }, { pkt0 with ctx := 256 }, { pkt0 with srcSlice := 8 },
      { pkt0 with srcNode := 2 ^ 20 }, { pkt0 with dstNode := 2 ^ 20 }, { pkt0 with dstSlice := 8 }, { pkt0 with dstOffset := 2 ^ 41 },
      { pkt0 with plen := 8192 }, { pkt0 with opmod := 8 }, { pkt0 with msgId := 65536 }, { pkt0 with flowSeq := 65536 }, { pkt0 with mgroup := 1024 },
      { pkt0 with ttl := 32 }, { pkt0 with reqId := 2 ^ 32 }, { pkt0 with ecrc := 2 ^ 32 }],
      (Instr.write 0 .own p).wf = false ∧ (Instr.ctrlLost p).wf = false := by decide +kernel

/-- TIME symbols and packets (Table 10-4, R269). -/
theorem test_wf_time :
    (∀ y ∈ [{ sym0 with t1 := 2 ^ 64 }, { sym0 with echoT1 := 2 ^ 64 }, { sym0 with echoRx := 2 ^ 64 }, { sym0 with gmErr := 2 ^ 32 }, { sym0 with rx := 2 ^ 64 }],
      (Instr.timeSymbol 0 0 y).wf = false) ∧
    ∀ y ∈ [{ tpk0 with gmNode := 2 ^ 20 }, { tpk0 with hops := 256 }, { tpk0 with dripOrigin := 2 ^ 64 }, { tpk0 with dripBeats := 0 },
      { tpk0 with dripBeats := 2 ^ 32 }], (Instr.timePacket 0 0 y).wf = false := by decide +kernel

/-- Load items (Table 14-2) and Uaric messages (Table 17-14). -/
theorem test_wf_items :
    (∀ i ∈ [{ item0 with kind := 256 }, { item0 with chain := 65536 }, { item0 with loadId := 65536 }, { item0 with seq := 2 ^ 40 }, { item0 with id := 2 ^ 48 },
      { item0 with epoch := 65536 }, { item0 with itemCrc := 2 ^ 32 }, { item0 with part := 65536 }, { item0 with parts := 65536 }],
      (Instr.tileItem i).wf = false ∧ (Instr.endItem i).wf = false) ∧
    (∀ m ∈ [{ msg0 with version := 256 }, { msg0 with type := 256 }, { msg0 with session := 2 ^ 32 }, { msg0 with seq := 2 ^ 64 },
      { msg0 with body := List.replicate 1401 0#8 }], (Instr.uaricOpen m).wf = false) := by decide +kernel

/-- Records of the other kinds: reports (Table 19-5), units (Table 19-7), expanders, places, slots and doors. -/
theorem test_wf_records :
    (∀ r ∈ [{ rep0 with cls := 256 }, { rep0 with unit := ⟨15, 0⟩ }, { rep0 with unit := ⟨3, 4096⟩ }, { rep0 with status := 256 }, { rep0 with ctx := 256 },
      { rep0 with detail := List.replicate 9 0 }], (Instr.errorReport 0 r).wf = false) ∧
    (∀ e ∈ [{ exp0 with lanes := 2 }, { exp0 with rate := 16 }, { exp0 with serial := 2 ^ 64 }],
      (Instr.sumpRetrain 0 (some e)).wf = false ∧ (Instr.lifecycleStartComplete 4 0 (some e)).wf = false) ∧
    (∀ p ∈ [(⟨2 ^ 20, 0⟩ : Place), ⟨0, 8⟩], (Instr.countRecord 0 p []).wf = false ∧ (Instr.windowedSend 0 p).wf = false ∧ (Instr.e2eTimeout 0 p 0).wf = false) ∧
    (∀ x ∈ [(⟨8, 0⟩ : SlotRef), ⟨0, 64⟩], (Instr.returnListWrite 0 0 x).wf = false ∧ (Instr.fetchComplete 0 0 x).wf = false) ∧
    (∀ d ∈ [Door.session 0, .session 9], (Instr.loadStart d).wf = false ∧ (Instr.ringEnable d true).wf = false ∧ (Instr.quoteNonce d []).wf = false) := by
  decide +kernel

/-- Collisions (R49) and records of the store (R434). -/
theorem test_wf_collisions :
    (Instr.stageLaunch 0 0 [⟨2, 5, 0, (0, 1), (2, 0), none⟩]).wf = true ∧ (Instr.powerUp { lost := [⟨0x4000, 1, 0, true⟩] }).wf = true ∧
    (∀ c ∈ [(⟨256, 5, 0, (0, 1), (2, 0), none⟩ : Collision), ⟨2, 256, 0, (0, 1), (2, 0), none⟩, ⟨2, 5, 2, (0, 1), (2, 0), none⟩, ⟨2, 5, 0, (256, 1), (2, 0), none⟩,
      ⟨2, 5, 0, (0, 256), (2, 0), none⟩, ⟨2, 5, 0, (0, 1), (256, 0), none⟩, ⟨2, 5, 0, (0, 1), (2, 256), none⟩], (Instr.stageLaunch 0 0 [c]).wf = false) ∧
    ∀ r ∈ [(⟨65536, 1, 0, true⟩ : LostRecord), ⟨0x4000, 256, 0, true⟩, ⟨0x4000, 1, 8, true⟩],
      (Instr.powerUp { lost := [r] }).wf = false ∧ (Instr.sysRstRelease { lost := [r] }).wf = false ∧ (Instr.pllRelock { lost := [r] }).wf = false := by
  decide +kernel

/-- Every other check, at the first value beyond its range. -/
theorem test_wf_values :
    ∀ i ∈ [Instr.panelLanded { on := 0 } 0 256 0, .panelLanded { on := 0 } 0 0 256, .lookaheadCount 0 ⟨5, 1⟩ 256 [], .lookaheadCount 0 ⟨5, 1⟩ 0 [(⟨8, 0⟩, 0)],
      .lookaheadCount 0 ⟨5, 1⟩ 0 [(⟨0, 0⟩, 1024)], .unitFail 0 ⟨15, 0⟩, .returnListWrite 0 256 ⟨0, 0⟩, .sumpTileArrival 0 256 ⟨0, 0⟩ 0 { bytes := [] } (zeros 32),
      .sumpTileArrival 0 0 ⟨0, 0⟩ 65536 { bytes := [] } (zeros 32), .sumpTileArrival 0 0 ⟨0, 0⟩ 0 { bytes := [] } (zeros 31), .sumpReadTimeout 0 256 ⟨0, 0⟩, .frameRelease 0 65536,
      .downSymbol 0 (.port 0) 256, .e2eTimeout 0 ⟨5, 1⟩ 65536, .lossHoldExpiry (2 ^ 20), .mcastComplete 0 1024 0, .mcastComplete 0 0 65536,
      .regionEntry .bar0 0 (zeros 65), .ownershipMove 0 4096, .layerBoundary 0 256, .requestDeadline 0 4096, .contextTeardown 255, .contextOff 255,
      .ringHead 0 (2 ^ 32), .hotServe .bar0 4, .loadForwardAck (2 ^ 40), .credentialWrite .bar0 256 [], .credentialWrite .bar0 1 (zeros 4097),
      .dictRead 65536 0, .dictWrite 0 256, .dictInfo 65536 0, .lifecycleEnable .bar0 0 8, .lifecycleStartComplete 0 8 none, .lifecycleStartFail 0 8 0,
      .lifecycleStartFail 0 0 256, .lifecycleStopComplete 0 8, .fwStageCommit .bar0 (2 ^ 32), .fwBootSlot .bar0 2, .marginSensorRead 0 ⟨15, 0⟩ 0 false,
      .registerWrite (2 ^ 24) [], .registerWrite 0 (zeros 9), .bar0InvalidAccess (2 ^ 24) 0 false, .bar0InvalidAccess 0 8192 false, .evtCauseClear 256,
      .bar2Read { on := (2 ^ 45) } 1, .bar2Read { on := 0 } 0, .bar2Read { on := 0 } 4097, .linkFrame 0 (.port 0) [] 0 { words := 1 }, .bar2Write ⟨2 ^ 45, [], false⟩, .hostReadCompletion 1024 [] true, .hostReadTimeout 1024,
      .sensorRead 0 (-274), .sensorRead 0 1001, .powerWindow [0] 0, .i3cPoll 0 (2 ^ 32), .i3cIbi 0 (2 ^ 32)], i.wf = false := by decide +kernel

/-- Byte strings one longer than a command may carry. -/
theorem test_wf_lengths (b : Bytes) :
    (b.length = 8193 → ∀ c d, (Instr.linkFrame 0 (.port 0) b c { bad := d }).wf = false) ∧
    (b.length = 1048577 → (Instr.loadChain .bar0 b).wf = false ∧ (Instr.fwStageData .bar0 b).wf = false) ∧
    (b.length = 4097 → (Instr.write 0 .own { pkt0 with payload := b }).wf = false ∧ (Instr.bar2Write ⟨0, b, false⟩).wf = false ∧
      (Instr.hostReadCompletion 0 b true).wf = false) ∧
    (b.length = 65537 → (Instr.tileItem { item0 with payload := b }).wf = false) ∧
    (b.length = 4194305 → (Instr.sumpTileArrival 0 0 ⟨0, 0⟩ 0 { bytes := b } (zeros 32)).wf = false) := by
  refine ⟨fun h c d => ?_, fun h => ?_, fun h => ?_, fun h => ?_, fun h => ?_⟩ <;>
    simp [Instr.wf, Packet.wf, LoadItem.wf, Door.wf, h]

end Sys2Proof.Machine
end

/-! ### The dictionary window while an access is under way (R450)

A write of BAR0 is a write of the one register it falls in, so each clause is what that register does while BUSY is 1. -/

namespace Sys2Proof.Machine

/-- The loss does not depend on what the access asked for: none starts. -/
theorem State.dictAccess_of_busy {s : State} (hb : s.dict.busy = true) (index sub op : Nat) :
    s.dictAccess index sub op = s.lostAccess .bar0 := by
  have hnone : s.startAccess .bar0 index sub op = none := by simp only [State.startAccess, hb, if_true]
  simp only [State.dictAccess, hnone]

theorem State.setReg_dictSel_of_busy {s : State} (hb : s.dict.busy = true) (v w : Nat) (low : Bool) :
    s.setReg 0x100000 v w low = s := by
  simp [State.setReg, hb]

theorem State.setReg_dictIndex_of_busy {s : State} (hb : s.dict.busy = true) (v w : Nat) :
    s.setReg 0x100008 v w true = s.lostAccess .bar0 := by
  simp [State.setReg, State.dictAccess_of_busy hb]

theorem State.setReg_dictData_of_busy {s : State} (hb : s.dict.busy = true) {o : Nat} (hlo : 0x101000 ≤ o)
    (hhi : o < 0x102000) (v w : Nat) (low : Bool) : s.setReg o v w low = s := by
  have hwin : ¬ (0x100 ≤ o ∧ o < 0x140) := by omega
  have hne : o ≠ 8 ∧ o ≠ 0x10 ∧ o ≠ 0x18 ∧ o ≠ 0x100000 ∧ o ≠ 0x100008 ∧ o ≠ 0x100010 := by omega
  simp [State.setReg, hb, hwin, hne, hlo, hhi]

theorem barSizeOk_iff {off size : Nat} : barSizeOk off size = true ↔ (size = 4 ∨ size = 8) ∧ off % size = 0 := by
  simp [barSizeOk]

/-- If the register that a naturally aligned write falls in takes every value to `t`, so does the write (R491). -/
theorem exec_registerWrite_of_setReg {s t : State} {off : Nat} {b : Bytes} (hlen : b.length = 4 ∨ b.length = 8)
    (halign : off % b.length = 0) (hreg : ∀ v w : Nat, s.setReg (off - off % 8) v w (off % 8 == 0) = t) :
    exec (.registerWrite off b) s = .next t := by
  have hok : barSizeOk off b.length = true := barSizeOk_iff.mpr ⟨hlen, halign⟩
  change execRegisterWrite off b s = .next t
  simp only [execRegisterWrite, hok, if_true, hreg]

theorem mod_access_size_eq_zero {off n : Nat} (hn : n = 4 ∨ n = 8) (h8 : off % 8 = 0) : off % n = 0 := by
  rcases hn with rfl | rfl
  · omega
  · exact h8

/-- Settles O55: an access, or a write of DICT_INDEX, is lost, and DICT_SEL and DICT_DATA keep what they hold. -/
theorem dictWindowBusy : Obligations.DictWindowBusy := by
  intro s _ hb
  refine ⟨fun b hlen => ?index, fun index sub i hi => ?access, fun b hlen => ?sel, fun b hlen => ?selHigh,
    fun b k hlen hk => ?data⟩
  case index =>
    exact exec_registerWrite_of_setReg hlen (mod_access_size_eq_zero hlen rfl) (State.setReg_dictIndex_of_busy hb)
  case access =>
    simp only [List.mem_cons, List.not_mem_nil, or_false] at hi
    obtain rfl | rfl | rfl := hi
    · exact congrArg Host.Outcome.next (State.dictAccess_of_busy hb index sub 0)
    · exact congrArg Host.Outcome.next (State.dictAccess_of_busy hb index sub 1)
    · exact congrArg Host.Outcome.next (State.dictAccess_of_busy hb index sub 2)
  case sel =>
    exact exec_registerWrite_of_setReg hlen (mod_access_size_eq_zero hlen rfl)
      fun v w => State.setReg_dictSel_of_busy hb v w true
  case selHigh =>
    exact exec_registerWrite_of_setReg (.inl hlen) (by rw [hlen]) fun v w => State.setReg_dictSel_of_busy hb v w false
  case data =>
    have halign : (0x101000 + k * b.length) % b.length = 0 := by
      rw [Nat.add_mul_mod_self_right]
      exact mod_access_size_eq_zero hlen rfl
    exact exec_registerWrite_of_setReg hlen halign fun v w =>
      State.setReg_dictData_of_busy hb (by omega) (by omega) v w _

end Sys2Proof.Machine

/-! ### A closed error record (R486)

ERROR_RECORD_CLOSE changes the error ring of one slice, so the statement is about `Errors.closeOldest` alone: the oldest
record leaves the open ones, and `Errors.close` writes it at ERR_TAIL or drops it. -/

namespace Sys2Proof.Machine

theorem Errors.closeOldest_of_nil {e : Errors} (hnil : e.opened = []) (early : Bool) : e.closeOldest early = e := by
  simp only [Errors.closeOldest, hnil]

section OldestOpen

variable {e : Errors} {r : ErrRecord} {rest : List ErrRecord}

theorem Errors.closeOldest_of_cons (hcons : e.opened = r :: rest) (early : Bool) :
    e.closeOldest early = ({ e with opened := rest }).close { r with early := early } := by
  simp only [Errors.closeOldest, hcons]

theorem Errors.closeOldest_of_full (hcons : e.opened = r :: rest) (hfull : (e.tail + 1) % 1024 = e.head) (early : Bool) :
    e.closeOldest early = { e with opened := rest, overflow := min (e.overflow + 1) 0xFFFFFFFF } :=
  (Errors.closeOldest_of_cons hcons early).trans (if_pos hfull)

theorem Errors.closeOldest_of_room (hcons : e.opened = r :: rest) (hroom : (e.tail + 1) % 1024 ≠ e.head) (early : Bool) :
    e.closeOldest early = { e with
      opened := rest
      ring := (e.ring.filter fun k => k.1 != e.tail) ++ [(e.tail, { r with early := early })]
      tail := (e.tail + 1) % 1024 } :=
  (Errors.closeOldest_of_cons hcons early).trans (if_neg hroom)

/-- Whatever stood at the old ERR_TAIL, the closed record replaces it. -/
theorem Errors.mem_closeOldest_ring_at_tail (hcons : e.opened = r :: rest) (hroom : (e.tail + 1) % 1024 ≠ e.head)
    (early : Bool) (v : ErrRecord) : (e.tail, v) ∈ (e.closeOldest early).ring ↔ v = { r with early := early } := by
  simp [Errors.closeOldest_of_room hcons hroom]

theorem Errors.mem_closeOldest_ring_of_ne_tail (hcons : e.opened = r :: rest) (hroom : (e.tail + 1) % 1024 ≠ e.head)
    (early : Bool) {k : Nat} (hk : k ≠ e.tail) (v : ErrRecord) : (k, v) ∈ (e.closeOldest early).ring ↔ (k, v) ∈ e.ring := by
  simp [Errors.closeOldest_of_room hcons hroom, hk]

/-- The fields that do not depend on whether the ring has room. -/
theorem Errors.closeOldest_fields (hcons : e.opened = r :: rest) (early : Bool) :
    (e.closeOldest early).opened = rest ∧ (e.closeOldest early).nextSeq = e.nextSeq ∧
    (e.closeOldest early).head = e.head ∧ (e.closeOldest early).first = e.first ∧ (e.closeOldest early).last = e.last := by
  by_cases hfull : (e.tail + 1) % 1024 = e.head
  · simp [Errors.closeOldest_of_full hcons hfull]
  · simp [Errors.closeOldest_of_room hcons hfull]

end OldestOpen

/-- A change that gives a slice back as it was changes nothing. -/
theorem State.onSl_of_eq {s : State} {i : Nat} {f : SliceState → SliceState} (hi : i < s.slices.length)
    (hf : f (s.sl i) = s.sl i) : s.onSl i f = s := by
  have hget : f s.slices[i] = s.slices[i] := by simpa [State.sl, List.getD, hi] using hf
  simp [State.onSl, List.modify_eq_set_getElem?, hi, hget]

/-- Whether or not a record written raises EVT_CAUSE, the error ring is the one that the change gives. -/
theorem State.onErr_sl_err {s : State} {i : Nat} (hi : i < s.slices.length) (f : Errors → Errors) :
    ((s.onErr i f).sl i).err = f (s.sl i).err := by
  unfold State.onErr
  dsimp only
  split <;> simp [hi]

/-- A change that gives the error ring of a slice back as it was changes nothing, EVT_CAUSE included. -/
theorem State.onErr_of_eq {s : State} {i : Nat} {f : Errors → Errors} (hi : i < s.slices.length)
    (hf : f (s.sl i).err = (s.sl i).err) : s.onErr i f = s := by
  have hsl : s.onSl i (fun x => { x with err := f x.err }) = s := State.onSl_of_eq hi (by simp only [hf])
  simp only [State.onErr, hsl, if_true]

theorem exec_errorRecordClose (sl : SliceId) (s : State) :
    exec (.errorRecordClose sl) s = .next (s.onErr sl fun e => e.closeOldest false) := rfl

/-- Settles O56: with no open record the ring is given back as it was; otherwise the oldest one closes, into a ring with room or a full one. -/
theorem closedRecords : Obligations.ClosedRecords := by
  intro s sl hinv
  obtain ⟨⟨hlen, -⟩, -⟩ := hinv
  have hsl : (sl : Nat) < s.slices.length := by omega
  refine ⟨fun hnil => ?noneOpen, fun r rest hcons => ⟨_, exec_errorRecordClose sl s, ?oldestCloses⟩⟩
  case noneOpen =>
    rw [exec_errorRecordClose, State.onErr_of_eq hsl (Errors.closeOldest_of_nil hnil false)]
  case oldestCloses =>
    rw [State.onErr_sl_err hsl]
    obtain ⟨hopened, hseq, hhead, hfirst, hlast⟩ := Errors.closeOldest_fields hcons false
    refine ⟨hopened, hseq, hhead, hfirst, hlast, fun hroom => ?room, fun hfull => ?full⟩
    case room =>
      have hclose := Errors.closeOldest_of_room hcons hroom false
      exact ⟨by rw [hclose], by rw [hclose], Errors.mem_closeOldest_ring_at_tail hcons hroom false,
        fun k hk => Errors.mem_closeOldest_ring_of_ne_tail hcons hroom false hk⟩
    case full =>
      rw [Errors.closeOldest_of_full hcons hfull]
      exact ⟨rfl, rfl, rfl⟩

end Sys2Proof.Machine

/-! ### Accesses through BAR2 (R492 to R496)

A command's outcome is first told apart by whether BAR2 reaches the range. A refused access, and a poisoned write, is a
record of the host port in slice 0's ring, so what a record leaves alone is said once, and what an abort leaves alone follows. -/

namespace Sys2Proof.Machine

section HostRecord

variable {s : State} (hlen : s.slices.length = 8)
include hlen

/-- A record of the host port stands in slice 0's ring, whatever the slice (R509). -/
theorem State.hostReport_sl_zero :
    s.hostReport.sl 0 = { s.sl 0 with err := (s.sl 0).err.queue (mkReport 0x18 14 0) } :=
  s.report_sl 0 (mkReport 0x18 14 0) hlen (by omega)

theorem State.hostReport_err : (s.hostReport.sl 0).err = (s.sl 0).err.queue (mkReport 0x18 14 0) := by
  rw [State.hostReport_sl_zero hlen]

theorem State.hostReport_mem (i : Nat) : (s.hostReport.sl i).mem = (s.sl i).mem := by
  by_cases hi : i = 0
  · subst hi
    rw [State.hostReport_sl_zero hlen]
  · exact congrArg SliceState.mem (s.onSl_sl_of_ne _ hi)

theorem State.barAbort_err : (s.barAbort.sl 0).err = (s.sl 0).err.queue (mkReport 0x18 14 0) :=
  State.hostReport_err (s := { s with host := { s.host with barAborts := s.host.barAborts + 1 } }) hlen

theorem State.barAbort_mem (i : Nat) : (s.barAbort.sl i).mem = (s.sl i).mem :=
  State.hostReport_mem (s := { s with host := { s.host with barAborts := s.host.barAborts + 1 } }) hlen i

end HostRecord

@[simp] theorem State.hostReport_out (s : State) : s.hostReport.out = s.out := rfl
@[simp] theorem State.barAbort_out (s : State) : s.barAbort.out = s.out := rfl
@[simp] theorem State.barAbort_host (s : State) :
    s.barAbort.host = { s.host with barAborts := s.host.barAborts + 1 } := rfl

/-- A BAR2 access that is not mapped, or not allowed where it is mapped (R492, R493). -/
def State.bar2Refuses (s : State) (off n : Nat) (isWrite : Bool) : Prop :=
  ∀ sl a, s.host.translate off = some (sl, a) → s.bar2Reach sl a n isWrite = false

/-- The words that a read finds uncorrectable are poisoned first, and then it is a read that finds none (R204). -/
theorem exec_bar2Read_of_mapped {s : State} {off sl a : Nat} (hmap : s.host.translate off = some (sl, a))
    (bad : List Nat) (len : Nat) :
    exec (.bar2Read { on := off, bad := bad } len) s = (s.findBad sl bad).bar2Read off len := by
  change execBar2Read _ len s = _
  simp only [execBar2Read, hmap]

theorem exec_bar2Read_of_unmapped {s : State} {off : Nat} (hmap : s.host.translate off = none) (bad : List Nat) (len : Nat) :
    exec (.bar2Read { on := off, bad := bad } len) s = s.bar2Read off len := by
  change execBar2Read _ len s = _
  simp only [execBar2Read, hmap]

theorem exec_bar2Read_of_no_bad (s : State) (off len : Nat) : exec (.bar2Read { on := off } len) s = s.bar2Read off len := by
  cases hmap : s.host.translate off with
  | none => exact exec_bar2Read_of_unmapped hmap [] len
  | some k => exact exec_bar2Read_of_mapped hmap [] len

theorem exec_bar2Read_of_allowed {s : State} {off len sl a : Nat} (hmap : s.host.translate off = some (sl, a))
    (hreach : s.bar2Reach sl a len false = true) :
    exec (.bar2Read { on := off } len) s =
      .next (s.emit (.cpl ((s.sl sl).load a len) false ((s.sl sl).poisoned a len))) := by
  rw [exec_bar2Read_of_no_bad]
  simp only [State.bar2Read, hmap, hreach, if_true]

theorem exec_bar2Read_of_refused {s : State} {off len : Nat} (href : s.bar2Refuses off len false) :
    exec (.bar2Read { on := off } len) s = .next (s.barAbort.emit (.cpl [] true false)) := by
  rw [exec_bar2Read_of_no_bad]
  cases hmap : s.host.translate off with
  | none => simp only [State.bar2Read, hmap]
  | some k => simp only [State.bar2Read, hmap, href k.1 k.2 hmap, Bool.false_eq_true, if_false]

theorem exec_bar2Write_of_allowed {s : State} {w : Tlp} {sl a : Nat} (hmap : s.host.translate w.offset = some (sl, a))
    (hreach : s.bar2Reach sl a w.data.length true = true) :
    exec (.bar2Write w) s = .next (if w.poisoned then s.hostReport else s.onSl sl fun x => x.store a w.data) := by
  change execBar2Write w s = _
  cases hpoison : w.poisoned <;> simp [execBar2Write, hmap, hreach, hpoison]

theorem exec_bar2Write_of_refused {s : State} {w : Tlp} (href : s.bar2Refuses w.offset w.data.length true) :
    exec (.bar2Write w) s = .next s.barAbort := by
  change execBar2Write w s = _
  cases hmap : s.host.translate w.offset with
  | none => simp only [execBar2Write, hmap]
  | some k => simp only [execBar2Write, hmap, href k.1 k.2 hmap, Bool.not_false, if_true]

/-- A poisoned write is recorded once: as such where BAR2 reaches its range, and as a refused access elsewhere. -/
theorem exec_bar2Write_of_poisoned (s : State) {w : Tlp} (hpoison : w.poisoned = true) :
    exec (.bar2Write w) s = .next s.hostReport ∨ exec (.bar2Write w) s = .next s.barAbort := by
  by_cases href : s.bar2Refuses w.offset w.data.length true
  · exact .inr (exec_bar2Write_of_refused href)
  · simp only [State.bar2Refuses, not_forall, Bool.not_eq_false] at href
    obtain ⟨sl, a, hmap, hreach⟩ := href
    exact .inl (by rw [exec_bar2Write_of_allowed hmap hreach, if_pos hpoison])

theorem exec_bar2ReadTimeout (s : State) : exec .bar2ReadTimeout s = .next (s.barAbort.emit (.cpl [] true false)) := rfl

/-- Settles O54: an allowed access reads or stores its range; any other, and a read unanswered in time, is an abort of the port. -/
theorem bar2Accesses : Obligations.Bar2Accesses := by
  intro s hinv
  obtain ⟨⟨hlen, -⟩, -⟩ := hinv
  refine ⟨fun _ _ _ _ hmap hreach => exec_bar2Read_of_allowed hmap hreach, fun off len sl a bad hmap => ?readFindsBad,
    fun off len bad hmap => ?readUnmapped, fun w hpoison => ?writePoisoned, fun w sl a hclean hmap hreach => ?writeAllowed,
    fun off len href => ⟨_, exec_bar2Read_of_refused href, State.barAbort_host s, State.barAbort_err hlen, rfl⟩,
    fun w href => ⟨_, exec_bar2Write_of_refused href, State.barAbort_host s, State.barAbort_err hlen,
      fun i => State.barAbort_mem hlen i⟩,
    ⟨_, exec_bar2ReadTimeout s, State.barAbort_host s, State.barAbort_err hlen, rfl⟩⟩
  case readFindsBad => rw [exec_bar2Read_of_mapped hmap, exec_bar2Read_of_no_bad]
  case readUnmapped => rw [exec_bar2Read_of_unmapped hmap, exec_bar2Read_of_no_bad]
  case writePoisoned =>
    obtain hexec | hexec := exec_bar2Write_of_poisoned s hpoison
    · exact ⟨_, hexec, fun i => State.hostReport_mem hlen i, State.hostReport_err hlen, rfl⟩
    · exact ⟨_, hexec, fun i => State.barAbort_mem hlen i, State.barAbort_err hlen, rfl⟩
  case writeAllowed => rw [exec_bar2Write_of_allowed hmap hreach, hclean, if_neg Bool.false_ne_true]

end Sys2Proof.Machine

section
/-! Every function of Machine/State keeps the queue and the shape of the device. -/

namespace Sys2Proof.Machine

/-- A change of other parts of the state than its slices and its queue, by its numbers of rings, channels, registers and functions. -/
theorem State.Keeps.update {s : State} {time : Time} {job : Option Image} {frame0 frame : Drip} {running : Bool} {ctxs : List Ctx}
    {tears : List (Nat × Drip)} {hot : List HotSlot} {load : Load} {epochs : Epochs} {still : Still} {sec : Security} {dict : Dict}
    {lantern : Lantern} {fw : Firmware} {host : HostPort} {pkg : Package} {perf : List (Nat × Nat × Nat)} {draws free : Nat} {out : List Emit}
    (hr : host.rings.length = s.host.rings.length) (hc : host.chans.length = s.host.chans.length)
    (hm : sec.mr.length = s.sec.mr.length) (hl : dict.life.length = s.dict.life.length) :
    s.Keeps
      { time, job, frame0, frame, running, ctxs, tears, hot, load, epochs, still, sec, dict, lantern, fw, host, pkg, perf, draws, free, out,
        slices := s.slices, pending := s.pending } :=
  .of_eq rfl rfl hr hc hm hl

/-- A change of other parts of a slice than its memory, engines and quads, by its numbers of links and functions. -/
theorem SliceState.ok.update {x : SliceState} {present : Bool} {poison flags flagsAt toClear : List Nat} {runs : List Run} {routing : Routing}
    {exch : Exchange} {arr : ArrayCounters} {tiers : Tiers} {pools : Pools} {ports ilinks : List Link} {fabric : Fabric} {remote : Remote}
    {coll : Coll} {svc : Service} {err : Errors} {spares : Spares} {power : Power} {sump : Sump} {life : List Lifecycle} (h : x.ok)
    (hp : ports.length = x.ports.length) (hi : ilinks.length = x.ilinks.length) (hl : life.length = x.life.length) :
    SliceState.ok
      { present, poison, flags, flagsAt, toClear, runs, routing, exch, arr, tiers, pools, ports, ilinks, fabric, remote, coll, svc, err,
        spares, power, sump, life, mem := x.mem, engines := x.engines, quads := x.quads } :=
  h.of_eq rfl rfl rfl hp hi hl

theorem Engine.ok.update {g : Engine} {running : Option Nat} {last : Nat} {busy : List (EngineUnit × Nat)} {waits : List UnitWait}
    {panels : List PanelBuf} {nextBuf : Nat} {sweep : Option Sweep} {scoring : Option ScorePass} {failed : Bool} (hg : g.ok) :
    Engine.ok { threads := g.threads, running, last, busy, waits, panels, nextBuf, sweep, scoring, failed } := hg

theorem Thread.ok.update {k : Thread} {st : ThreadPhase} {pc issued xst other : Nat} {xstWait drain staged : Bool} {marks : List Place}
    {run ctx owner prefetchSet : Nat} {launchDrip : Drip} (hk : k.ok) :
    Thread.ok
      { st, pc, issued, xst, other, xstWait, drain, staged, marks, run, ctx, owner, prefetchSet, launchDrip, g := k.g, p := k.p } := hk

theorem Quad.ok.update {k : Quad} {st : QuadPhase} {pc : Nat} {loops : List LoopFrame} {cur : Option (Nat × Nat)} {reached : List Nat} {partials run
    ctx : Nat} {launchDrip : Drip} {program : List Word} {poisoned : List PoisonedDrain} {sampled : List (Nat × Option Nat)} (hk : k.ok) : Quad.ok {
    st, pc, q := k.q, loops, cur, reached, partials, run, ctx, launchDrip, arrays := k.arrays, program, poisoned, sampled } := hk

theorem SliceState.ok.ite {x y : SliceState} {p : Prop} [Decidable p] (hx : x.ok) (hy : y.ok) : (if p then x else y).ok := by
  split <;> assumption

theorem Engine.ok.ite {x y : Engine} {p : Prop} [Decidable p] (hx : x.ok) (hy : y.ok) : (if p then x else y).ok := by
  split <;> assumption

theorem Thread.ok.ite {x y : Thread} {p : Prop} [Decidable p] (hx : x.ok) (hy : y.ok) : (if p then x else y).ok := by
  split <;> assumption

theorem Quad.ok.ite {x y : Quad} {p : Prop} [Decidable p] (hx : x.ok) (hy : y.ok) : (if p then x else y).ok := by
  split <;> assumption

theorem Quad.ok.foldl {α : Type} {f : Quad → α → Quad} (hf : ∀ k a, k.ok → (f k a).ok) (l : List α) {k : Quad} (hk : k.ok) : (l.foldl f k).ok := by
  induction l generalizing k with
  | nil => exact hk
  | cons a l ih => exact ih (hf k a hk)

/-- Changes that keep the queue and the shape, one after the other. -/
theorem State.Keeps.comp {s t u : State} (b : t.Keeps u) (a : s.Keeps t) : s.Keeps u := a.trans b

/-- A fold that carries a state beside another value, by its state. -/
theorem State.Keeps.foldl_fst {α β : Type} {f : State × β → α → State × β} (h : ∀ (z : State × β) (x : α), z.1.Keeps (f z x).1)
    (l : List α) (z : State × β) : z.1.Keeps (l.foldl f z).1 := by
  induction l generalizing z with
  | nil => exact .refl _
  | cons x l ih => exact (h z x).trans (ih _)

theorem State.Keeps.foldl_snd {α β : Type} {f : β × State → α → β × State} (h : ∀ (z : β × State) (x : α), z.2.Keeps (f z x).2)
    (l : List α) (z : β × State) : z.2.Keeps (l.foldl f z).2 := by
  induction l generalizing z with
  | nil => exact .refl _
  | cons x l ih => exact (h z x).trans (ih _)

/-- An act that may be refused, in which case the state stays. -/
theorem State.Keeps.getD {s : State} {o : Option State} (h : ∀ t, o = some t → s.Keeps t) : s.Keeps (o.getD s) := by
  cases o with
  | none => exact .refl _
  | some t => exact h t rfl

theorem State.Keeps.takeFree (s : State) : s.Keeps s.takeFree.2 := .update rfl rfl rfl rfl

theorem State.Keeps.drawTrng (s : State) (n : Nat) : s.Keeps (s.drawTrng n).2 := .update rfl rfl rfl rfl

/-- Every slice changed in a way that keeps a slice's shape and depends on its number. -/
theorem State.Keeps.zipIdx {s t : State} {f : SliceState × Nat → SliceState} (hs : t.slices = s.slices.zipIdx.map f)
    (hf : ∀ k, k.1.ok → (f k).ok) (hr : State.Keeps s { t with slices := s.slices }) : s.Keeps t := by
  refine ⟨hr.1, fun h => ?_⟩
  obtain ⟨⟨-, -⟩, hrest⟩ := hr.2 h
  refine ⟨⟨by simpa [hs] using h.1.1, fun x hx => ?_⟩, hrest⟩
  rw [hs] at hx
  obtain ⟨⟨y, i⟩, hy, rfl⟩ := List.mem_map.1 hx
  exact hf _ (h.1.2 y ((List.mem_zipIdx hy).2.2 ▸ List.getElem_mem _))

/-- A change of other parts of the state than its slices and its queue, with the numbers of the shape. -/
theorem State.Keeps.of_shape {s t : State} (hp : t.pending = s.pending) (hs : t.slices = s.slices)
    (h : s.Inv → t.host.rings.length = 64 ∧ t.host.chans.length = 18 ∧ t.sec.mr.length = 8 ∧ t.dict.life.length = 4) : s.Keeps t :=
  ⟨hp, fun hi => ⟨hs ▸ hi.1, h hi⟩⟩

/-- A change of one slice that keeps its shape where the whole state has its shape. -/
theorem State.Keeps.ofSlice (s : State) (sl : SliceId) {f : SliceState → SliceState} (hf : s.Inv → ∀ x, x.ok → (f x).ok) : s.Keeps (s.onSl sl f) :=
  ⟨rfl, fun hs => (State.Keeps.onSl _ _ (hf hs)).2 hs⟩

/-- A command ends in a next state that keeps the queue and the shape: it neither stops nor is refused. -/
def State.Lands (s : State) (o : Out) : Prop := ∃ t, o = .next t ∧ s.Keeps t

theorem State.Lands.next {s t : State} (h : s.Keeps t) : s.Lands (.next t) := ⟨t, rfl, h⟩

theorem State.Lands.ite {s : State} {a b : Out} {p : Prop} [Decidable p] (ha : s.Lands a) (hb : s.Lands b) : s.Lands (if p then a else b) := by
  split <;> assumption

theorem State.Lands.comp {s t : State} {o : Out} (b : t.Lands o) (a : s.Keeps t) : s.Lands o := by
  obtain ⟨u, rfl, hu⟩ := b
  exact ⟨u, rfl, a.trans hu⟩

end Sys2Proof.Machine
end

section
/-! Every function of Machine/Ops keeps the queue and the shape of the device. -/

namespace Sys2Proof.Machine

theorem State.Keeps.setRingHead (s : State) (ring v : Nat) : s.Keeps (s.setRingHead ring v) := by
  unfold State.setRingHead
  dsimp only
  exact .comp (.ite (.report ..) (.refl _)) (.onRing ..)

end Sys2Proof.Machine
end

section
/-! Every function of Machine/Links keeps the queue and the shape of the device. -/

namespace Sys2Proof.Machine

theorem State.Keeps.enqueue (s : State) (sl : Nat) (l : LinkId) (a : Arrival) (p : Packet) (route : Option Nat) : s.Keeps (s.enqueue sl l a p route)
    := by
  unfold State.enqueue
  dsimp only
  exact .onLink ..

theorem State.Keeps.setTimeState (s : State) (st : Nat) : s.Keeps (s.setTimeState st) := by
  unfold State.setTimeState
  dsimp only
  exact .ite (.refl _) (.comp (.cause ..) (.comp (.ite (.report ..) (.refl _)) (.update rfl rfl rfl rfl)))

theorem State.Keeps.setOrigin (s : State) (o : Nat) : s.Keeps (s.setOrigin o) := by
  unfold State.setOrigin
  dsimp only
  exact .update rfl rfl rfl rfl

theorem State.Keeps.becomeGrandmaster (s : State) : s.Keeps s.becomeGrandmaster := by
  unfold State.becomeGrandmaster
  dsimp only
  exact .comp (.setTimeState ..) (.comp (.ite (.refl _) (.setOrigin ..)) (.update rfl rfl rfl rfl))

theorem State.Keeps.meetOrigin (s : State) (o : Nat) : s.Keeps (s.meetOrigin o) := by
  unfold State.meetOrigin
  dsimp only
  exact .ite (.update rfl rfl rfl rfl) (.ite (.setOrigin ..) (.comp (.ite (.refl _) (.report ..)) (.update rfl rfl rfl rfl)))

theorem State.Keeps.follow (s : State) (c : Bool × Nat) : s.Keeps (s.follow c) := by
  unfold State.follow
  dsimp only
  split
  · exact .refl _
  · exact .comp (.meetOrigin ..) (.comp (.ite (.refl _) (.setTimeState ..)) (.comp (.ite (.report ..) (.refl _)) (.update rfl rfl rfl rfl)))

theorem State.Keeps.chooseParent (s : State) : s.Keeps s.chooseParent := by
  unfold State.chooseParent
  dsimp only
  refine .ite (.ite (.refl _) (.follow ..)) ?_
  split
  · exact .ite (.becomeGrandmaster ..) (.ite (.comp (.setTimeState ..) (.update rfl rfl rfl rfl)) (.refl _))
  · exact .ite (.becomeGrandmaster ..) (.follow ..)

end Sys2Proof.Machine
end

section
/-! Every function of Machine/StageOps keeps the queue and the shape of the device. -/

namespace Sys2Proof.Machine

theorem State.Keeps.markLaunched (s : State) (sl : Nat) (u : Run) : s.Keeps (s.markLaunched sl u) := by
  unfold State.markLaunched
  dsimp only
  exact .onSl _ _ fun _ h => .setRun h ..

theorem State.Keeps.noteLate (s : State) (sl : Nat) (u : Run) : s.Keeps (s.noteLate sl u) := by
  unfold State.noteLate
  exact .ite (.onSl _ _ fun _ h => .setRun h ..) (.refl _)

theorem State.Keeps.collide (s : State) (sl : Nat) (v : Run) (c : Collision) : s.Keeps (s.collide sl v c) := by
  unfold State.collide
  dsimp only
  exact .ite (.refl _) (.ite (.update rfl rfl rfl rfl) (.comp (.ite (.endTied ..) (.refl _)) (.comp (.report ..) (.update rfl rfl rfl rfl))))

theorem State.Keeps.actingRun {s t : State} {sl i : Nat} {k : StageKind} {u : Run} (h : s.actingRun sl i k = some (u, t)) : s.Keeps t := by
  obtain ⟨-, -, -, ⟨-, -, rfl⟩ | ⟨v, -, -, -, -, rfl⟩⟩ := State.actingRun_cases h
  · exact .onSl _ _ fun _ h => h.setRun ..
  · exact .comp (.onSl _ _ fun _ h => h.setRun ..) (.onSl _ _ fun _ h => h.setRun ..)

end Sys2Proof.Machine
end

section
/-! Every function of Machine/ThreadOps keeps the queue and the shape of the device. -/

namespace Sys2Proof.Machine

theorem Thread.ok.wake {h : Thread} (hk : h.ok) : h.wake.ok := by
  unfold Thread.wake
  exact .update hk

theorem SliceState.ok.stopPhase {x : SliceState} (h : x.ok) (u : Run) : (x.stopPhase u).ok := by
  unfold SliceState.stopPhase
  dsimp only
  split
  · exact .foldl (fun _ _ h => .ite (.stopThread h ..) h) _ h
  · exact h

theorem State.Keeps.readFor (s : State) (sl : Nat) (u? : Option Run) (rs : List (Nat × Nat)) : s.Keeps (s.readFor sl u? rs) := by
  unfold State.readFor
  split
  · exact .ite (.faultStage ..) (.refl _)
  · exact .refl _

end Sys2Proof.Machine
end

section
/-! Every function of Machine/FabricOps keeps the queue and the shape of the device. -/

namespace Sys2Proof.Machine

theorem State.Keeps.routerDiscard (s : State) (sl : Nat) (a : Arrival) (p : Packet) : s.Keeps (s.routerDiscard sl a p) := by
  unfold State.routerDiscard
  exact .report ..

theorem State.Keeps.cross (s : State) (a b : Nat) (arr : Arrival) (p : Packet) (port : Option Nat) : s.Keeps (s.cross a b arr p port) := by
  unfold State.cross
  refine .ite (.enqueue ..) ?_
  split
  · exact .enqueue ..
  · exact .routerDiscard ..

theorem State.Keeps.toPort (s : State) (sl : Nat) (a : Arrival) (p : Packet) (n : Nat) : s.Keeps (s.toPort sl a p n) := by
  unfold State.toPort
  exact .ite (.enqueue ..) (.cross ..)

theorem State.Keeps.spray (s : State) (sl : Nat) (a : Arrival) (p : Packet) : s.Keeps (s.spray sl a p) := by
  unfold State.spray
  dsimp only
  split
  · exact .toPort ..
  · exact .routerDiscard ..

theorem State.Keeps.toOwn (s : State) (sl : Nat) (a : Arrival) (p : Packet) : s.Keeps (s.toOwn sl a p) := by
  unfold State.toOwn
  dsimp only
  exact .onSl _ _ fun _ h => .update h rfl rfl rfl

theorem State.Keeps.copyMulticast (s : State) (sl : Nat) (a : Arrival) (p : Packet) : s.Keeps (s.copyMulticast sl a p) := by
  unfold State.copyMulticast
  dsimp only
  exact .ite (.routerDiscard ..) (.comp (.foldl (fun _ _ => .ite (.refl _) (.ite (.toOwn ..) (.cross ..))) _ _) (.foldl (fun _ _ => .toPort ..) _ _))

theorem State.Keeps.routePacket (s : State) (sl : Nat) (a : Arrival) (route : Option Nat) (p : Packet) : s.Keeps (s.routePacket sl a route p) := by
  unfold State.routePacket
  dsimp only
  refine .ite (.routerDiscard ..) ?_
  refine .ite (.refl _) ?_
  refine .ite ?_ ?_
  · split
    · exact .ite (.ite (.toOwn ..) (.cross ..)) (.ite (.toPort ..) (.refl _))
    · exact .toOwn ..
    · exact .copyMulticast ..
  · refine .ite (.ite (.toOwn ..) (.cross ..)) ?_
    split
    · exact .ite (.toPort ..) (.spray ..)
    · exact .spray ..

theorem State.Keeps.creditBack (s : State) (sl : Nat) (a : Arrival) (p : Packet) : s.Keeps (s.creditBack sl a p) := by
  unfold State.creditBack
  dsimp only
  split
  · exact .onLink ..
  · exact .onLink ..
  · exact .refl _

theorem State.Keeps.freeHold (s : State) (sl : Nat) (a : Arrival) (hold : Option Nat) (p : Packet) : s.Keeps (s.freeHold sl a hold p) := by
  unfold State.freeHold
  split
  · exact .refl _
  · exact .ite (.refl _) (.creditBack ..)

theorem State.Keeps.takeOwn (s : State) (sl : Nat) (p : Packet) : s.Keeps (s.takeOwn sl p) := by
  unfold State.takeOwn
  dsimp only
  split
  · exact .refl _
  · exact .comp (.freeHold ..) (.onSl _ _ fun _ h => .update h rfl rfl rfl)

theorem State.Keeps.takeIngress (s : State) (sl : Nat) (a : Arrival) (p : Packet) : s.Keeps (s.takeIngress sl a p) := by
  unfold State.takeIngress
  dsimp only
  split
  · exact .onLink ..
  · exact .onLink ..
  · exact .takeOwn ..

theorem State.Keeps.liftIngress (s : State) (sl : Nat) (a : Arrival) (p : Packet) : s.Keeps (s.liftIngress sl a p) := by
  unfold State.liftIngress
  dsimp only
  split
  · exact .onLink ..
  · exact .onLink ..
  · exact .takeOwn ..

theorem State.Keeps.forward (s : State) (sl : Nat) (a : Arrival) (route : Option Nat) (p : Packet) : s.Keeps (s.forward sl a route p) := by
  unfold State.forward
  dsimp only
  exact .comp (.onSl _ _ fun _ h => .update h rfl rfl rfl) (.comp (.ite (.freeHold ..) (.refl _)) (.comp (.routePacket ..) (.liftIngress ..)))

theorem State.Keeps.setSrcFlow (s : State) (sl : Nat) (f : SrcFlow) : s.Keeps (s.setSrcFlow sl f) := by
  unfold State.setSrcFlow
  dsimp only
  exact .onSl _ _ fun _ h => .update h rfl rfl rfl

theorem State.Keeps.launchMsg (s : State) (sl : Nat) (dst : Place) (group : Option Nat) (ps : List Packet) (iss : Issuer) : s.Keeps (s.launchMsg sl
    dst group ps iss) := by
  unfold State.launchMsg
  dsimp only
  exact .ite (.refl _) (.comp (.foldl (fun _ _ => .routePacket ..) _ _) (.comp (.onSl _ _ fun _ h => .update h rfl rfl rfl) (.setSrcFlow ..)))

theorem State.Keeps.sendMsg (s : State) (sl : Nat) (m : SendSpec) : s.Keeps (s.sendMsg sl m) := by
  unfold State.sendMsg
  dsimp only
  exact .ite (.refl _) (.ite (.launchMsg ..) (.onSl _ _ fun _ h => .update h rfl rfl rfl))

theorem State.Keeps.releaseOne (s : State) (sl : Nat) (dst : Place) : s.Keeps (s.releaseOne sl dst) := by
  unfold State.releaseOne
  dsimp only
  split
  · exact .ite (.refl _) (.comp (.launchMsg ..) (.onSl _ _ fun _ h => .update h rfl rfl rfl))
  · exact .refl _

theorem State.Keeps.releaseHeld (s : State) (sl : Nat) (dst : Place) : s.Keeps (s.releaseHeld sl dst) := by
  unfold State.releaseHeld
  exact .ite (.refl _) (.foldl (fun _ _ => .ite (.releaseOne ..) (.refl _)) _ _)

theorem State.Keeps.windowAnswer (s : State) (sl : Nat) (m : OutMsg) (congested : Bool) : s.Keeps (s.windowAnswer sl m congested) := by
  unfold State.windowAnswer
  dsimp only
  exact .ite (.comp (.onSl _ _ fun _ h => .update h rfl rfl rfl) (.setSrcFlow ..)) (.refl _)

theorem State.Keeps.resendMsg (s : State) (sl : Nat) (m : OutMsg) : s.Keeps (s.resendMsg sl m) := by
  unfold State.resendMsg
  dsimp only
  exact .ite (.refl _) (.comp (.foldl (fun _ _ => .routePacket ..) _ _) (.comp (.ite (.setSrcFlow ..) (.refl _)) (.onSl _ _ fun _ h => .update h rfl
      rfl rfl)))

theorem State.Keeps.sendAnswer (s : State) (sl : Nat) (req : Packet) (op opmod : Nat) (payload : Bytes) (echo : Bool) : s.Keeps (s.sendAnswer sl req
    op opmod payload echo) := by
  unfold State.sendAnswer
  dsimp only
  exact .ite (.refl _) (.comp (.routePacket ..) (.setSrcFlow ..))

theorem SliceState.ok.setDstFlow {x : SliceState} (h : x.ok) (f : DstFlow) : (x.setDstFlow f).ok := by
  unfold SliceState.setDstFlow
  dsimp only
  exact .update h rfl rfl rfl

theorem State.Keeps.completeMsg (s : State) (sl : Nat) (req : Packet) (op opmod : Nat) (payload : Bytes) : s.Keeps (s.completeMsg sl req op opmod
    payload) := by
  unfold State.completeMsg
  dsimp only
  exact .comp (.onSl _ _ fun _ h => .setDstFlow h ..) (.sendAnswer ..)

theorem State.Keeps.nackMsg (s : State) (sl : Nat) (req : Packet) (reason off : Nat) : s.Keeps (s.nackMsg sl req reason off) := by
  unfold State.nackMsg
  exact .completeMsg ..

theorem State.Keeps.sendCtrl (s : State) (sl : Nat) (dst : Place) (opmod : Nat) (payload : Bytes) : s.Keeps (s.sendCtrl sl dst opmod payload) := by
  unfold State.sendCtrl
  exact .ite (.refl _) (.routePacket ..)

theorem State.Keeps.detectLoss (s : State) (node mask : Nat) : s.Keeps (s.detectLoss node mask) := by
  unfold State.detectLoss
  dsimp only
  split
  · exact .refl _
  · exact .ite (.refl _) (.comp (.foldl (fun _ _ => .ite (.refl _) (.sendCtrl ..)) _ _) (.update rfl rfl rfl rfl))

theorem State.Keeps.cutPairs (s : State) : s.Keeps s.cutPairs := by
  unfold State.cutPairs
  exact .ite (.refl _) (.foldl (fun _ _ => .foldl (fun _ _ => .ite (.detectLoss ..) (.refl _)) _ _) _ _)

end Sys2Proof.Machine
end

section
/-! Every function of Machine/Pools keeps the queue and the shape of the device. -/

namespace Sys2Proof.Machine

theorem State.Keeps.doneFree (s : State) (sl : Nat) (isFree : Bool) (o h : Nat) : s.Keeps (s.doneFree sl isFree o h).2 := by
  unfold State.doneFree
  dsimp only
  split
  · split
    · exact .refl _
    · exact .onSl _ _ fun _ h => .update h rfl rfl rfl
  · split
    · exact .onSl _ _ fun _ h => .update h rfl rfl rfl
    · exact .comp (.report ..) (.onSl _ _ fun _ h => .update h rfl rfl rfl)

theorem State.Keeps.retryWait (sl : Nat) (s : State) (w : PoolWait) : s.Keeps (retryWait sl s w) := by
  unfold Machine.retryWait
  split
  · exact .onSl _ _ fun _ h => .onThread (.update h rfl rfl rfl) _ _ fun _ hk => .wake (.setReg hk ..) ..
  · exact .refl _

theorem State.Lands.execPoolRetry (sl : SliceId) (s : State) : s.Lands (execPoolRetry sl s) := by
  unfold Machine.execPoolRetry
  exact .next (.foldl (fun _ _ => .retryWait ..) _ _)

theorem State.Lands.execPoolLowReset (sl : SliceId) (s : State) : s.Lands (execPoolLowReset sl s) := by
  unfold Machine.execPoolLowReset
  dsimp only
  exact .next (.onSl _ _ fun _ h => .update h rfl rfl rfl)

theorem State.Lands.execPoolRejectClear (sl : SliceId) (s : State) : s.Lands (execPoolRejectClear sl s) := by
  unfold Machine.execPoolRejectClear
  dsimp only
  exact .next (.onSl _ _ fun _ h => .update h rfl rfl rfl)

end Sys2Proof.Machine
end

section
/-! Every function of Machine/TierOps keeps the queue and the shape of the device. -/

namespace Sys2Proof.Machine

theorem SliceState.ok.onRes {x : SliceState} (h : x.ok) (p : ResEntry → Bool) (f : ResEntry → ResEntry) : (x.onRes p f).ok := by
  unfold SliceState.onRes
  dsimp only
  exact .foldl (fun _ _ h => .store h ..) _ (.update h rfl rfl rfl)

theorem SliceState.ok.copyPoisonOf {y : SliceState} (h : y.ok) (x : SliceState) (rs : Parts) (d : Nat) : (y.copyPoisonOf x rs d).ok := by
  unfold SliceState.copyPoisonOf
  exact List.foldlRecOn (motive := fun z : SliceState × Nat => z.1.ok) rs _ h fun z hz _ _ => .foldl (fun _ _ h => h.poisonRange ..) _ hz

theorem State.Keeps.reproject (s : State) (sl : Nat) : s.Keeps (s.reproject sl) := by
  unfold State.reproject
  dsimp only
  exact .onSl _ _ fun _ h => .update h rfl rfl rfl

theorem State.Keeps.portNext (s : State) (sl : Nat) : s.Keeps (s.portNext sl) := by
  unfold State.portNext
  dsimp only
  split
  · exact .refl _
  · refine .ite (.refl _) ?_
    split
    · exact .comp (.emit ..) (.onSl _ _ fun _ h => .update h rfl rfl rfl)
    · exact .onSl _ _ fun _ h => .update h rfl rfl rfl

theorem State.Keeps.startFetch (s : State) (sl : Nat) (k : FetchKind) (layer : Nat) (sr : SlotRef) (issued due : Drip) (run : Option Nat) :
    s.Keeps (s.startFetch sl k layer sr issued due run).2 := by
  unfold State.startFetch
  dsimp only
  split
  · exact .refl _
  · split
    · exact .onSl _ _ fun _ h => .update h rfl rfl rfl
    · split
      · exact .comp (.emit ..) (.onSl _ _ fun _ h => .update (.ite h (h.onRes ..)) rfl rfl rfl)
      · exact .comp (.reproject ..) (.onSl _ _ fun _ h => .update (.ite h (h.onRes ..)) rfl rfl rfl)

theorem State.Keeps.failFetch (s : State) (sl layer : Nat) (sr : SlotRef) (code : Nat) (detail : List Nat) : s.Keeps (s.failFetch sl layer sr code
    detail) := by
  unfold State.failFetch
  dsimp only
  exact .ite (.refl _) (.comp (.report ..) (.onSl _ _ fun _ h => .update (.onRes h ..) rfl rfl rfl))

theorem SliceState.ok.settleFetches {x : SliceState} (h : x.ok) (now : Drip) : (x.settleFetches now).ok := by
  unfold SliceState.settleFetches
  dsimp only
  exact .ite h (.update (.foldl (fun _ _ h => .onRes h ..) _ h) rfl rfl rfl)

end Sys2Proof.Machine
end

section
/-! Every function of Machine/RouteOps keeps the queue and the shape of the device. -/

namespace Sys2Proof.Machine

theorem State.Keeps.beginLayer (s : State) (sl l : Nat) (frame : Drip) (tag : Nat) : s.Keeps (s.beginLayer sl l frame tag) := by
  unfold State.beginLayer
  dsimp only
  exact .onSl _ _ fun _ h => .update h rfl rfl rfl

end Sys2Proof.Machine
end

section
/-! Every function of Machine/Records keeps the queue and the shape of the device. -/

namespace Sys2Proof.Machine

theorem State.Keeps.discard (s : State) (sl cls : Nat) : s.Keeps (s.discard sl cls) := by
  unfold State.discard
  dsimp only
  exact .comp (.report ..) (.onSl _ _ fun _ h => .update h rfl rfl rfl)

theorem SliceState.ok.landRecord {x : SliceState} (h : x.ok) (bufs : List RecordBuf) (src : Place) (msg : Bytes) : (x.landRecord bufs src msg).ok :=
    by
  unfold SliceState.landRecord
  split
  · exact .setFlag? (.store h ..) ..
  · exact h

theorem State.Keeps.checkCounts (s : State) (sl l tag : Nat) : s.Keeps (s.checkCounts sl l tag) := by
  unfold State.checkCounts
  dsimp only
  split
  · exact .refl _
  · exact .ite (.onSl _ _ fun _ h => .setFlag h ..) (.refl _)

theorem State.Keeps.checkGrants (s : State) (sl l tag : Nat) : s.Keeps (s.checkGrants sl l tag) := by
  unfold State.checkGrants
  dsimp only
  split
  · exact .refl _
  · exact .ite (.onSl _ _ fun _ h => .setFlag h ..) (.refl _)

theorem State.Keeps.landCount (s : State) (sl : Nat) (src : Place) (msg : Bytes) : s.Keeps (s.landCount sl src msg) := by
  unfold State.landCount
  dsimp only
  split
  · exact .discard ..
  · exact .ite (.comp (.checkCounts ..) (.onSl _ _ fun _ h => .update (.landRecord h ..) rfl rfl rfl)) (.discard ..)

theorem State.Keeps.landGrant (s : State) (sl : Nat) (src : Place) (msg : Bytes) : s.Keeps (s.landGrant sl src msg) := by
  unfold State.landGrant
  dsimp only
  split
  · exact .discard ..
  · exact .ite (.comp (.checkGrants ..) (.onSl _ _ fun _ h => .update (.landRecord h ..) rfl rfl rfl)) (.discard ..)

theorem State.Keeps.landView (s : State) (sl : Nat) (src : Place) (msg : Bytes) : s.Keeps (s.landView sl src msg) := by
  unfold State.landView
  dsimp only
  exact .ite (.onSl _ _ fun _ h => .update (.landRecord h ..) rfl rfl rfl) (.discard ..)

theorem State.Keeps.landPassDigest (s : State) (sl : Nat) (src : Place) (msg : Bytes) : s.Keeps (s.landPassDigest sl src msg) := by
  unfold State.landPassDigest
  dsimp only
  exact .ite (.onSl _ _ fun _ h => .update (.landRecord h ..) rfl rfl rfl) (.discard ..)

theorem State.Keeps.sendRecord (s : State) (sl inj : Nat) (dst : Place) (msg : Bytes) : s.Keeps (s.sendRecord sl inj dst msg) := by
  unfold State.sendRecord
  dsimp only
  refine .ite ?_ (.onSl _ _ fun _ h => .update h rfl rfl rfl)
  split
  · exact .landCount ..
  · exact .landGrant ..
  · exact .landView ..
  · exact .landPassDigest ..
  · exact .refl _

end Sys2Proof.Machine
end

section
/-! Every function of Machine/Routing keeps the queue and the shape of the device. -/

namespace Sys2Proof.Machine

theorem SliceState.ok.storeLogits {x : SliceState} (h : x.ok) (li : LayerInfo) (experts : Nat) (bs : List LogitBlock) : (x.storeLogits li experts
    bs).ok := by
  unfold SliceState.storeLogits
  exact .foldl (fun _ _ h => .store h ..) _ h

theorem State.Keeps.scoreNext (s : State) (sl e : Nat) : s.Keeps (s.scoreNext sl e) := by
  unfold State.scoreNext
  dsimp only
  split
  · exact .refl _
  · split
    · split
      · exact .refl _
      · exact .comp (.onSl _ _ fun _ h => .onEngine (.storeLogits (.update h rfl rfl rfl) ..) _ fun _ hg => .update hg) (.readFor ..)
    · exact .refl _

theorem SliceState.ok.copyInputs {x : SliceState} (h : x.ok) (li : LayerInfo) (d e : Nat) : (x.copyInputs li d e).ok := by
  unfold SliceState.copyInputs
  dsimp only
  exact .store (.store h ..) ..

theorem State.Keeps.scoreWork (s : State) (sl e d : Nat) (look : Bool) (run : Nat) (frame : Drip) : s.Keeps (s.scoreWork sl e d look run frame) := by
  unfold State.scoreWork
  dsimp only
  split
  · exact .refl _
  · exact .comp (.scoreNext ..) (.comp (.scoreNext ..) (.onSl _ _ fun _ h => .onEngine (.copyInputs h ..) _ fun _ hg => .update hg))

theorem State.Keeps.sendCounts (s : State) (sl : Nat) (li : LayerInfo) (tag inj : Nat) (frame : Drip) : s.Keeps (s.sendCounts sl li tag inj frame) :=
    by
  unfold State.sendCounts
  dsimp only
  exact .comp (.foldl (fun _ _ => .sendRecord ..) _ _) (.onSl _ _ fun _ h => .update h rfl rfl rfl)

theorem State.Keeps.topkWork (s : State) (sl e d : Nat) (sqz : Bool) (u : Run) : s.Keeps (s.topkWork sl e d sqz u) := by
  unfold State.topkWork
  dsimp only
  split
  · exact .refl _
  · split
    · exact .onSl _ _ fun _ h => .update h rfl rfl rfl
    · exact .comp (.ite (.sendCounts ..) (.refl _)) (.onSl _ _ fun _ h => .update h rfl rfl rfl)

theorem State.Keeps.topkLook (s : State) (sl e d : Nat) (frame : Drip) : s.Keeps (s.topkLook sl e d frame) := by
  unfold State.topkLook
  dsimp only
  split
  · exact .refl _
  · exact .comp (.foldl (fun _ _ => .ite (.refl _) (.emit ..)) _ _) (.onSl _ _ fun _ h => .update h rfl rfl rfl)

theorem State.Keeps.demand (s : State) (sl l : Nat) (fr : Drip) (slot : SlotRef) : s.Keeps (s.demand sl l fr slot) := by
  unfold State.demand
  dsimp only
  exact .ite (.startFetch ..) (.refl _)

theorem State.Keeps.demands (s : State) (sl e l : Nat) (u : Run) : s.Keeps (s.demands sl e l u) := by
  unfold State.demands
  dsimp only
  split
  · exact .refl _
  · exact .foldl (fun _ _ => .demand ..) _ _

theorem State.Keeps.finishGrant (s : State) (sl : Nat) (li : LayerInfo) (tag inj : Nat) (frame : Drip) : s.Keeps (s.finishGrant sl li tag inj frame)
    := by
  unfold State.finishGrant
  dsimp only
  exact .comp (.foldl (fun _ _ => .sendRecord ..) _ _) (.onSl _ _ fun _ h => .update (.setFlag (.store (.store h ..) ..) ..) rfl rfl rfl)

theorem State.Keeps.grantWork (s : State) (sl e d : Nat) (u : Run) : s.Keeps (s.grantWork sl e d u) := by
  unfold State.grantWork
  dsimp only
  split
  · exact .refl _
  · exact .comp (.ite (.finishGrant ..) (.refl _)) (.comp (.onSl _ _ fun _ h => .update h rfl rfl rfl) (.comp (.foldl (fun _ _ => .onSl _ _ fun _ h =>
      .update h rfl rfl rfl) _ _) (.ite (.refl _) (.foldl (fun _ _ => .comp (.report ..) (.onSl _ _ fun _ h => .update h rfl rfl rfl)) _ _))))

theorem State.Keeps.assignWork (s : State) (sl e d : Nat) (u : Run) : s.Keeps (s.assignWork sl e d u) := by
  unfold State.assignWork
  dsimp only
  split
  · exact .refl _
  · exact .onSl _ _ fun _ h => .update h rfl rfl rfl

theorem State.Keeps.sortWork (s : State) (sl e d : Nat) (frame : Drip) : s.Keeps (s.sortWork sl e d frame).2 := by
  unfold State.sortWork
  dsimp only
  split
  · exact .refl _
  · split
    · exact .refl _
    · exact .onSl _ _ fun _ h => .ite (.setFlag (.update (.foldl (fun _ _ h => h.store ..) _ h) rfl rfl rfl) _)
        (.update (.foldl (fun _ _ h => h.store ..) _ h) rfl rfl rfl)

theorem State.Lands.doPanelLanded (s : State) (sl : SliceId) (e : EngineId) (layer panel : Nat) : s.Lands (s.doPanelLanded sl e layer panel) := by
  unfold State.doPanelLanded
  dsimp only
  split
  · exact .ite (.next (.refl _)) (.ite (.next (.comp (.scoreNext ..) (.comp (.onSl _ _ fun _ h => .ite (.setFlag? (.onEngine (.store h ..) _ fun _ hg
      => .update hg) ..) (.onEngine (.store h ..) _ fun _ hg => .update hg)) (.readFor ..)))) (.next (.comp (.scoreNext ..) (.comp (.ite (.onSl _ _
      fun _ h => .update h rfl rfl rfl) (.endNext ..)) (.comp (.report ..) (.comp (.onSl _ _ fun _ h => .ite (.setFlag? (.onEngine (.store h ..) _ fun
      _ hg => .update hg) ..) (.onEngine (.store h ..) _ fun _ hg => .update hg)) (.readFor ..)))))))
  · exact .next (.refl _)

theorem State.Lands.execCountRecord (sl : SliceId) (src : Place) (msg : Bytes) (s : State) : s.Lands (execCountRecord sl src msg s) := by
  unfold Machine.execCountRecord
  exact .next (.landCount ..)

theorem State.Lands.execGrantRecord (sl : SliceId) (src : Place) (msg : Bytes) (s : State) : s.Lands (execGrantRecord sl src msg s) := by
  unfold Machine.execGrantRecord
  exact .next (.landGrant ..)

theorem State.Lands.execViewRecord (sl : SliceId) (src : Place) (msg : Bytes) (s : State) : s.Lands (execViewRecord sl src msg s) := by
  unfold Machine.execViewRecord
  exact .next (.landView ..)

theorem State.Lands.execPassDigestRecord (sl : SliceId) (src : Place) (msg : Bytes) (s : State) : s.Lands (execPassDigestRecord sl src msg s) := by
  unfold Machine.execPassDigestRecord
  exact .next (.landPassDigest ..)

theorem State.Keeps.lookFetch (s : State) (sl layer : Nat) (r : SlotRef) : s.Keeps (s.lookFetch sl layer r) := by
  unfold State.lookFetch
  dsimp only
  exact .ite (.comp (.ite (.onSl _ _ fun _ h => .update h rfl rfl rfl) (.refl _)) (.comp (.startFetch ..) (.onSl _ _ fun _ h => .update h rfl rfl
      rfl))) (.comp (.onSl _ _ fun _ h => .update h rfl rfl rfl) (.onSl _ _ fun _ h => .update h rfl rfl rfl))

theorem State.Lands.execLookaheadCount (sl : SliceId) (src : Place) (layer : Nat) (counts : List (SlotRef × Nat)) (s : State) : s.Lands
    (execLookaheadCount sl src layer counts s) := by
  unfold Machine.execLookaheadCount
  dsimp only
  split
  · exact .next (.comp (.foldl (fun _ _ => .lookFetch ..) _ _) (.onSl _ _ fun _ h => .update h rfl rfl rfl))
  · exact .next (.refl _)

end Sys2Proof.Machine
end

section
/-! Every function of Machine/Exchange keeps the queue and the shape of the device. -/

namespace Sys2Proof.Machine

theorem State.Keeps.packWork {s t : State} {sl e a n : Nat} {u : Run} {dst handle : Nat} {compress : Bool}
    (h : s.packWork sl e a u dst handle compress = some (n, t)) : s.Keeps t := by
  unfold State.packWork at h
  dsimp only at h
  split at h
  · next li isRet b hp hm =>
    cases isRet
    all_goals
      simp only [Bool.false_eq_true, if_false, if_true] at h
      split at h
      · cases h
      · split at h
        · cases h
        · rw [← (Prod.mk.inj (Option.some.inj h)).2]
          exact .comp (.onSl _ _ fun _ h => .update (h.store _ _) rfl rfl rfl) (.readFor ..)
  · cases h

theorem SliceState.ok.landRow {x : SliceState} (h : x.ok) (layer : Nat) (slot : Option SlotRef) (rb n : Nat) (b : Bytes) : (x.landRow layer slot rb n
    b).ok := by
  unfold SliceState.landRow
  split
  · exact .store h ..
  · exact h

theorem SliceState.ok.onSections {x : SliceState} (h : x.ok) (p : Section → Bool) (f : Section → Section) : (x.onSections p f).ok := by
  unfold SliceState.onSections
  dsimp only
  exact .update h rfl rfl rfl

theorem State.Keeps.checkSlot (s : State) (sl : Nat) (li : LayerInfo) (r : SlotRef) : s.Keeps (s.checkSlot sl li r) := by
  unfold State.checkSlot
  dsimp only
  exact .ite (.refl _) (.onSl _ _ fun _ h => .setFlag? (.foldl (fun _ _ h => .landRow h ..) _ h) ..)

theorem State.Keeps.checkReturns (s : State) (sl : Nat) (li : LayerInfo) : s.Keeps (s.checkReturns sl li) := by
  unfold State.checkReturns
  dsimp only
  exact .ite (.onSl _ _ fun _ h => .setFlag h ..) (.refl _)

theorem State.Keeps.markToken (s : State) (sl layer t st : Nat) : s.Keeps (s.markToken sl layer t st) := by
  unfold State.markToken
  dsimp only
  exact .comp (.endNext ..) (.onSl _ _ fun _ h => .update h rfl rfl rfl)

theorem State.Keeps.discardBlock (s : State) (sl : Nat) : s.Keeps (s.discardBlock sl) := by
  unfold State.discardBlock
  exact .discard ..

theorem State.Keeps.failSection (s : State) (sl : Nat) (li : LayerInfo) (c : Section) (rb : Nat) : s.Keeps (s.failSection sl li c rb) := by
  unfold State.failSection
  dsimp only
  exact .comp (.ite (.comp (.checkReturns ..) (.foldl (fun _ _ => .markToken ..) _ _)) (.checkSlot ..)) (.comp (.report ..) (.onSl _ _ fun _ h =>
      .update (.onSections (.foldl (fun _ _ h => .landRow h ..) _ h) ..) rfl rfl rfl))

theorem State.Keeps.landDispatch (s : State) (sl : Nat) (msg : Bytes) : s.Keeps (s.landDispatch sl msg) := by
  unfold State.landDispatch
  dsimp only
  split
  · refine .ite (.discardBlock ..) ?_
    split
    · exact .failSection ..
    · split
      · exact .comp (.discardBlock ..) (.onSl _ _ fun _ h => .foldl (fun _ _ h => .landRow h ..) _ h)
      · exact .comp (.checkSlot ..) (.comp (.onSl _ _ fun _ h => .onSections h ..) (.onSl _ _ fun _ h => .foldl (fun _ _ h => .landRow h ..) _ h))
  · exact .discardBlock ..

theorem State.Keeps.landReturn (s : State) (sl : Nat) (msg : Bytes) : s.Keeps (s.landReturn sl msg) := by
  unfold State.landReturn
  dsimp only
  split
  · refine .ite (.discardBlock ..) ?_
    split
    · exact .failSection ..
    · split
      · exact .comp (.discardBlock ..) (.onSl _ _ fun _ h => .foldl (fun _ _ h => .foldl (fun _ _ h => .landRow h ..) _ h) _ h)
      · exact .comp (.checkReturns ..) (.comp (.onSl _ _ fun _ h => .onSections h ..) (.comp (.ite (.refl _) (.foldl (fun _ _ => .markToken ..) _ _))
          (.onSl _ _ fun _ h => .foldl (fun _ _ h => .foldl (fun _ _ h => .landRow h ..) _ h) _ h)))
  · exact .discardBlock ..

theorem State.Keeps.exchangeReceive (s : State) (sl : Nat) (src : Place) (msg : Bytes) : s.Keeps (s.exchangeReceive sl src msg) := by
  unfold State.exchangeReceive
  split
  · exact .landCount ..
  · exact .landGrant ..
  · exact .landDispatch ..
  · exact .landReturn ..
  · exact .landView ..
  · exact .landPassDigest ..
  · exact .discardBlock ..

theorem State.Keeps.injectMsg (s : State) (sl : Nat) (u : Run) (q : QueuedMsg) : s.Keeps (s.injectMsg sl u q) := by
  unfold State.injectMsg
  dsimp only
  exact .ite (.refl _) (.comp (.ite (.exchangeReceive ..) (.sendMsg ..)) (.onSl _ _ fun _ h => .update h rfl rfl rfl))

theorem State.Keeps.injectAll (s : State) (sl : Nat) (u : Run) (inj : Nat) : s.Keeps (s.injectAll sl u inj) := by
  unfold State.injectAll
  dsimp only
  exact .comp (.foldl (fun _ _ => .injectMsg ..) _ _) (.onSl _ _ fun _ h => .update h rfl rfl rfl)

theorem State.Keeps.injectMarked (s : State) (sl : Nat) (u : Run) (inj : Nat) (h : BlockHeader) : s.Keeps (s.injectMarked sl u inj h) := by
  unfold State.injectMarked
  dsimp only
  refine .foldl_snd (fun _ _ => ?_) _ _
  split
  · exact .refl _
  · split
    · exact .comp (.injectMsg ..) (.onSl _ _ fun _ h => .update h rfl rfl rfl)
    · exact .refl _

theorem State.Keeps.combineWork (s : State) (sl e n : Nat) (u : Run) : s.Keeps (s.combineWork sl e n u) := by
  unfold State.combineWork
  dsimp only
  split
  · exact .refl _
  · refine .comp (.ite (.faultStage ..) (.refl _)) ?_
    refine .foldl_fst (fun _ _ => ?_) _ _
    split
    · exact .refl _
    · exact .onSl _ _ fun _ h => .update (.store h ..) rfl rfl rfl

theorem State.Lands.execDispatchBlock (sl : SliceId) (_src : Place) (msg : Bytes) (s : State) : s.Lands (execDispatchBlock sl _src msg s) := by
  unfold Machine.execDispatchBlock
  exact .next (.landDispatch ..)

theorem State.Lands.execReturnBlock (sl : SliceId) (_src : Place) (msg : Bytes) (s : State) : s.Lands (execReturnBlock sl _src msg s) := by
  unfold Machine.execReturnBlock
  exact .next (.landReturn ..)

theorem State.Lands.execReturnListWrite (sl : SliceId) (layer : Nat) (r : SlotRef) (s : State) : s.Lands (execReturnListWrite sl layer r s) := by
  unfold Machine.execReturnListWrite
  dsimp only
  split
  · exact .next (.refl _)
  · exact .ite (.next (.refl _)) (.next (.onSl _ _ fun _ h => .foldl (fun _ _ h => .store h ..) _ (.update h rfl rfl rfl)))

theorem State.Lands.execCombineStage (sl : SliceId) (i : Nat) (s : State) : s.Lands (execCombineStage sl i s) := by
  unfold Machine.execCombineStage
  split
  · exact .next (.refl _)
  · next ht =>
      split
      · exact .next (.actingRun ht)
      · exact .next (.comp (.onSl _ _ fun _ h => .onEngine (.startPhase h ..) _ fun _ hg => .update hg) (.actingRun ht))

theorem State.Lands.doCombineComplete (s : State) (sl : SliceId) (i : Nat) : s.Lands (s.doCombineComplete sl i) := by
  unfold State.doCombineComplete
  dsimp only
  split
  · exact .next (.refl _)
  · split
    · exact .next (.refl _)
    · exact .ite (.next (.comp (.onSl _ _ fun _ h => .tryCompletePhase (.ite (.ite (.setFlag? (.onEngine h _ fun _ hg => .update hg) ..) (.onEngine h
        _ fun _ hg => .update hg)) (.update (.ite (.setFlag? (.onEngine h _ fun _ hg => .update hg) ..) (.onEngine h _ fun _ hg => .update hg)) rfl
        rfl rfl)) ..) (.ite (.combineWork ..) (.comp (.faultStage ..) (.report ..))))) (.next (.refl _))

theorem State.Keeps.settleLost (s : State) (sl : Nat) (lost : Place → Bool) : s.Keeps (s.settleLost sl lost) := by
  unfold State.settleLost
  dsimp only
  refine .foldl (fun _ _ => ?_) _ _
  split
  · exact .refl _
  · exact .ite (.comp (.checkReturns ..) (.comp (.foldl (fun _ _ => .markToken ..) _ _) (.onSl _ _ fun _ h => .onSections h ..))) (.comp (.checkSlot
      ..) (.comp (.ite (.refl _) (.report ..)) (.onSl _ _ fun _ h => .ite (.onSections (.foldl (fun _ _ h => .landRow h ..) _ h) ..) (.update (.store
      (.onSections (.foldl (fun _ _ h => .landRow h ..) _ h) ..) ..) rfl rfl rfl))))

theorem State.Keeps.missSlots (s : State) (sl : Nat) (u : Run) : s.Keeps (s.missSlots sl u) := by
  unfold State.missSlots
  dsimp only
  exact .onSl _ _ fun _ h => .onSections h ..

theorem State.Keeps.settleMade (s : State) (sl : Nat) : s.Keeps (s.settleMade sl) := by
  unfold State.settleMade
  dsimp only
  exact .ite (.refl _) (.settleLost ..)

end Sys2Proof.Machine
end

section
/-! Every function of Machine/Quads keeps the queue and the shape of the device. -/

namespace Sys2Proof.Machine

theorem SliceState.ok.startSegment {x : SliceState} (h : x.ok) (q : Nat) (u : Run) (launch : Drip) : (x.startSegment q u launch).ok := by
  unfold SliceState.startSegment
  refine .onQuad h _ fun _ hk => .onSlots (.setReg (.setReg ?_ ..) ..) _
  exact ⟨List.length_replicate .., hk.2⟩

theorem State.Keeps.quadFault (s : State) (sl q : Nat) (a : Option Nat) (pc code : Nat) : s.Keeps (s.quadFault sl q a pc code) := by
  unfold State.quadFault
  dsimp only
  exact .comp (.onSl _ _ fun _ h => .update h rfl rfl rfl) (.report ..)

theorem SliceState.ok.markSlot {x : SliceState} (h : x.ok) (layer : Nat) (r : SlotRef) (code : Nat) : (x.markSlot layer r code).ok := by
  unfold SliceState.markSlot
  exact .onSections h ..

theorem SliceState.ok.endSegment {x : SliceState} (h : x.ok) (q : Nat) : (x.endSegment q).ok := by
  unfold SliceState.endSegment
  dsimp only
  split
  · exact .completeRun (.onQuad h _ fun _ hk => .update hk) ..
  · exact .onQuad h _ fun _ hk => .update hk

theorem SliceState.ok.stopSegment {x : SliceState} (h : x.ok) (q : Nat) : (x.stopSegment q).ok := by
  unfold SliceState.stopSegment
  dsimp only
  split
  · exact .setRun (.onQuad h _ fun _ hk => .update hk) ..
  · exact .onQuad h _ fun _ hk => .update hk

theorem State.Keeps.segmentFault (s : State) (sl q : Nat) (a : Option Nat) (pc code : Nat) : s.Keeps (s.segmentFault sl q a pc code) := by
  unfold State.segmentFault
  dsimp only
  refine .comp (.onSl _ _ fun _ h => .stopSegment h ..) ?_
  split
  · exact .comp (.onQuad _ _ _ fun _ hk => .onSlots hk ..) (.quadFault ..)
  · exact .comp (.ite (.faultStage ..) (.onSl _ _ fun _ h => .foldl (fun _ _ h => .markSlot h ..) _ h)) (.comp (.onQuad _ _ _ fun _ hk => .onSlots hk
      ..) (.quadFault ..))

theorem Quad.ok.wrap {k : Quad} (hk : k.ok) (n : Nat) : (Quad.wrap n k).ok := by
  induction n generalizing k with
  | zero => exact hk
  | succ n ih =>
    unfold Quad.wrap
    split
    · exact hk
    · split
      · exact hk
      · split
        · exact hk
        · exact ih hk

theorem Quad.ok.goTo {k : Quad} (hk : k.ok) (pc : Nat) : (k.goTo pc).ok := by
  unfold Quad.goTo
  exact .wrap (.update hk) ..

/-- A word of a quad program keeps the shape if what it does beyond its issue keeps it. -/
theorem State.Keeps.issueQuad (s : State) (sl q code : Nat) {body : State → Quad → Nat → State}
    (hb : ∀ (s : State) (k : Quad) (w : Nat), s.Keeps (body s k w)) : s.Keeps (s.issueQuad sl q code body) := by
  obtain h | ⟨-, h⟩ | ⟨w, -, h⟩ := s.issueQuad_cases sl q code body
  · rw [h]; exact .refl _
  · rw [h]; exact .segmentFault ..
  · rw [h]; exact .comp (hb ..) (.onQuad _ _ _ fun _ hk => hk.goTo _)

/-- A quad of a state with the shape has the shape. -/
theorem State.Inv.quad {s : State} (h : s.Inv) (sl : SliceId) (q : QuadId) : (s.quad sl q).ok := by
  obtain ⟨-, -, ⟨hlen, hall⟩, -⟩ := h.sl sl.isLt
  refine hall _ ?_
  simp [State.quad, SliceState.quad, List.getD, hlen]

theorem State.Lands.execQuadNop (sl : SliceId) (q : QuadId) (s : State) : s.Lands (execQuadNop sl q s) := by
  unfold Machine.execQuadNop
  exact .next (.issueQuad _ _ _ _ fun _ _ _ => .refl _)

theorem State.Lands.execQuadHalt (sl : SliceId) (q : QuadId) (s : State) : s.Lands (execQuadHalt sl q s) := by
  unfold Machine.execQuadHalt
  exact .next (.issueQuad _ _ _ _ fun _ _ _ => .onSl _ _ fun _ h => .endSegment h ..)

theorem State.Lands.execQuadWaitDrip (sl : SliceId) (q : QuadId) (s : State) : s.Lands (execQuadWaitDrip sl q s) := by
  unfold Machine.execQuadWaitDrip
  dsimp only
  refine .next ?_
  refine .issueQuad _ _ _ _ fun _ _ _ => ?_
  refine .ite (.onQuad _ _ _ fun _ hk => .update hk) ?_
  refine .ite ?_ (.onSl _ _ fun _ h => .update h rfl rfl rfl)
  split
  · exact .comp (.onSl _ _ fun _ h => .setRun h ..) (.onQuad _ _ _ fun _ hk => .update hk)
  · exact .onQuad _ _ _ fun _ hk => .update hk

theorem State.Lands.execWaitFlag (sl : SliceId) (q : QuadId) (s : State) : s.Lands (execWaitFlag sl q s) := by
  unfold Machine.execWaitFlag
  exact .next (.issueQuad _ _ _ _ fun _ _ _ => .ite (.refl _) (.onQuad _ _ _ fun _ hk => .update hk))

theorem State.Lands.execSetFlag (sl : SliceId) (q : QuadId) (s : State) : s.Lands (execSetFlag sl q s) := by
  unfold Machine.execSetFlag
  exact .next (.issueQuad _ _ _ _ fun _ _ _ => .onSl _ _ fun _ h => .setFlag h ..)

theorem State.Lands.execQuadLoop (sl : SliceId) (q : QuadId) (s : State) : s.Lands (execQuadLoop sl q s) := by
  unfold Machine.execQuadLoop
  refine .next ?_
  obtain h | ⟨-, h⟩ | ⟨w, -, h⟩ := s.issueQuad_cases sl q 0x05 _
  · rw [h]; exact .refl _
  · rw [h]; exact .segmentFault ..
  · rw [h]
    -- the body puts back the quad as it stood, changed, so its shape comes from the state's
    have hgo : s.Keeps (s.onQuad sl q fun k => k.goTo (k.pc + 1)) := .onQuad _ _ _ fun _ hk => hk.goTo _
    refine ⟨rfl, fun hs => (State.Keeps.onQuad _ _ _ fun _ _ => ?_).2 (hgo.2 hs)⟩
    have hk : (s.quad sl q).ok := hs.quad sl q
    exact .ite (hk.goTo _) hk

theorem State.Lands.execBrz (sl : SliceId) (q : QuadId) (s : State) : s.Lands (execBrz sl q s) := by
  unfold Machine.execBrz
  dsimp only
  exact .next (.issueQuad _ _ _ _ fun _ _ _ => .ite (.onQuad _ _ _ fun _ hk => .update hk) (.refl _))

theorem State.Lands.execQuadSet (sl : SliceId) (q : QuadId) (s : State) : s.Lands (execQuadSet sl q s) := by
  unfold Machine.execQuadSet
  dsimp only
  exact .next (.issueQuad _ _ _ _ fun _ _ _ => .onQuad _ _ _ fun _ hk => .setReg hk ..)

theorem State.Lands.execAddi (sl : SliceId) (q : QuadId) (s : State) : s.Lands (execAddi sl q s) := by
  unfold Machine.execAddi
  exact .next (.issueQuad _ _ _ _ fun _ _ _ => .onQuad _ _ _ fun _ hk => .setReg hk ..)

theorem State.Lands.execAddq (sl : SliceId) (q : QuadId) (s : State) : s.Lands (execAddq sl q s) := by
  unfold Machine.execAddq
  exact .next (.issueQuad _ _ _ _ fun _ _ _ => .onQuad _ _ _ fun _ hk => .setReg hk ..)

theorem State.Lands.execMuli (sl : SliceId) (q : QuadId) (s : State) : s.Lands (execMuli sl q s) := by
  unfold Machine.execMuli
  exact .next (.issueQuad _ _ _ _ fun _ _ _ => .onQuad _ _ _ fun _ hk => .setReg hk ..)

theorem State.Lands.execLdshape (sl : SliceId) (q : QuadId) (s : State) : s.Lands (execLdshape sl q s) := by
  unfold Machine.execLdshape
  dsimp only
  exact .next (.issueQuad _ _ _ _ fun _ _ _ => .onQuad _ _ _ fun _ hk => .update (.setReg hk ..))

theorem State.Keeps.setShadow (s : State) (sl q a : Nat) (t : Tile) : s.Keeps (s.setShadow sl q a t) := by
  unfold State.setShadow
  exact .onQuad _ _ _ fun _ hk => .onArray hk _ fun _ hy => by simpa using hy

theorem State.Keeps.absentTiles (s : State) (sl q : Nat) (arrs : List Nat) (i n code : Nat) : s.Keeps (s.absentTiles sl q arrs i n code) := by
  unfold State.absentTiles
  exact .foldl (fun _ _ => .setShadow ..) _ _

/-- The state in which the weight bus leaves off. -/
def BusEnd.state : BusEnd → State
  | .done s _ | .early s | .bounds s => s

theorem State.Keeps.busFrom_state (s : State) (sl q : Nat) (chamber : Bool) (arrs : List Nat) (pc n left a : Nat) :
    s.Keeps (s.busFrom sl q chamber arrs pc n left a).state := by
  induction left generalizing s a with
  | zero => exact .refl _
  | succ left ih =>
    unfold State.busFrom
    dsimp only
    split
    · split
      · exact .absentTiles ..
      · exact .refl _
    · split
      · exact .comp (.onSl _ _ fun _ h => .update h rfl rfl rfl) (.comp (.quadFault ..) (.absentTiles ..))
      · split
        · split
          · exact .absentTiles ..
          · exact .refl _
        · refine .comp (ih ..) (.comp (.ite (.refl _) (.onSl _ _ fun _ h => .update h rfl rfl rfl)) ?_)
          refine .comp (.ite (.refl _) (.comp (.onSl _ _ fun _ h => .update h rfl rfl rfl) (.quadFault ..))) ?_
          exact .ite (.refl _) (.setShadow ..)

theorem State.Lands.wload (s : State) (sl : SliceId) (q : QuadId) : s.Lands (s.wload sl q) := by
  unfold State.wload
  refine .next (.issueQuad _ _ _ _ fun v k w => ?_)
  have hbus := State.Keeps.busFrom_state v sl q (bit (qFn w) 0) (qArrays w) k.pc (k.reg (qB w)).toNat (k.reg (qB w)).toNat (k.reg (qA w)).toNat
  dsimp only
  split
  · next ht => rw [ht] at hbus; exact .comp (.onQuad _ _ _ fun _ hk => hk.setReg ..) hbus
  · next ht => rw [ht] at hbus; exact .comp (.onQuad _ _ _ fun _ hk => hk.setReg ..) (.comp (.takeFree _) hbus)
  · next ht => rw [ht] at hbus; exact .comp (.segmentFault ..) hbus

theorem State.Lands.execSwap (sl : SliceId) (q : QuadId) (s : State) : s.Lands (execSwap sl q s) := by
  unfold Machine.execSwap
  refine .next ?_
  refine .issueQuad _ _ _ _ fun _ _ _ => ?_
  split
  · exact .segmentFault ..
  · exact .onQuad _ _ _ fun _ hk => .foldl (fun _ _ hk => .onArray hk _ fun _ hy => by simpa using hy) _ hk

theorem State.Lands.execRowcopy (sl : SliceId) (q : QuadId) (s : State) : s.Lands (execRowcopy sl q s) := by
  unfold Machine.execRowcopy
  dsimp only
  refine .next ?_
  refine .issueQuad _ _ _ _ fun _ _ _ => ?_
  split
  · exact .onSl _ _ fun _ h => .copyPoisonOf (.store h ..) ..
  · exact .segmentFault ..

/-- A fold of changes of single slots keeps the number of slots. -/
theorem Array.foldl_onSlot_length {α : Type} (l : List α) (n : α → Nat) (f : α → AccSlot → AccSlot) (y : Array) :
    (l.foldl (fun z a => z.onSlot (n a) (f a)) y).slots.length = y.slots.length := by
  induction l generalizing y with
  | nil => rfl
  | cons a l ih => rw [List.foldl_cons, ih, Array.onSlot_length]

theorem Array.stream_length (y : Array) (fmt slot : Nat) (acc wide trans : Bool) (rows : Nat → List (List Num)) :
    (y.stream fmt slot acc wide trans rows).1.slots.length = y.slots.length := by
  unfold Array.stream
  dsimp only
  split
  · exact Array.foldl_onSlot_length ..
  · split
    · exact Array.foldl_onSlot_length ..
    · split
      · exact Array.foldl_onSlot_length ..
      · split
        · exact Array.onSlot_length ..
        · exact Array.foldl_onSlot_length ..

theorem Quad.ok.stream {k : Quad} (hk : k.ok) (a : Nat) {y : Array} (hy : y.slots.length = 8) : (k.onArray a fun _ => y).ok :=
  hk.onArray a fun _ _ => hy

/-- An array of a state with the shape has its eight slots. -/
theorem State.Inv.array {s : State} (h : s.Inv) (sl : SliceId) (q : QuadId) (a : Nat) : ((s.quad sl q).array a).slots.length = 8 := by
  obtain ⟨-, -, hall⟩ := h.quad sl q
  unfold Quad.array
  obtain ha | ha := Nat.lt_or_ge a (s.quad sl q).arrays.length
  · rw [List.getD_eq_getElem _ _ ha]; exact hall _ (List.getElem_mem ha)
  · rw [List.getD_eq_default _ _ ha]; rfl

/-- An array of a state put in the place of one of the same state. -/
theorem State.Keeps.putArray (s : State) (sl : SliceId) (q : QuadId) (a : Nat) {y : Array} (hy : s.Inv → y.slots.length = 8) :
    s.Keeps (s.onQuad sl q fun j => j.onArray a fun _ => y) :=
  ⟨rfl, fun hs => (State.Keeps.onQuad _ _ _ fun _ hk => hk.stream a (hy hs)).2 hs⟩

theorem State.Lands.stream (s : State) (sl : SliceId) (q : QuadId) : s.Lands (s.stream sl q) := by
  unfold State.stream
  refine .next (.issueQuad _ _ _ _ fun v k w => ?_)
  dsimp only
  split
  · exact .segmentFault ..
  · split
    · exact .segmentFault ..
    · refine .comp (.foldl (fun t a => .ite (.comp (.quadFault ..) (.putArray _ _ _ _ ?_)) (.putArray _ _ _ _ ?_)) _ _) (.ite ?_ (.refl _))
      · exact fun ht => (Array.stream_length ..).trans (ht.array sl q a)
      · exact fun ht => (Array.stream_length ..).trans (ht.array sl q a)
      · split
        · exact .faultStage ..
        · exact .refl _

theorem State.Lands.execAccload (sl : SliceId) (q : QuadId) (s : State) : s.Lands (execAccload sl q s) := by
  unfold Machine.execAccload
  dsimp only
  refine .next ?_
  refine .issueQuad _ _ _ _ fun _ _ _ => ?_
  split
  · exact .segmentFault ..
  · refine .comp (.foldl (fun _ _ => .onQuad _ _ _ fun _ hk => .onArray hk _ fun _ hy => by simpa using hy) _ _) ?_
    refine .ite ?_ (.refl _)
    split
    · exact .faultStage ..
    · exact .refl _

theorem State.Keeps.notePoisoned (s : State) (sl q a : Nat) (k : Quad) (code id : Nat) : s.Keeps (s.notePoisoned sl q a k code id) := by
  unfold State.notePoisoned
  split
  · exact .onQuad _ _ _ fun _ hk => .update hk
  · exact .refl _

theorem SliceState.ok.drainRow {x : SliceState} (h : x.ok) (d : RowDesc) (fmt c at_ : Nat) (v : List Num) : (x.drainRow d fmt c at_ v).1.ok := by
  unfold SliceState.drainRow
  dsimp only
  split
  · exact (h.store ..).store ..
  · exact h.store ..

theorem State.Keeps.drainArray (s : State) (sl : SliceId) (q a : Nat) (k : Quad) (d : RowDesc) (dst : Nat) (tens : Parts) (epi : Nat) (part : Bool)
    (slot c : Nat) : s.Keeps (s.drainArray sl q a k d dst tens epi part slot c).1 := by
  have hput : ∀ (n : Nat) (l : List (List F32 × Nat)) (f : SliceState × Nat × Bool → List F32 × Nat → SliceState × Nat × Bool)
      (_ : ∀ b r, b.1.ok → (f b r).1.ok) (z : SliceState) (g : AccSlot → AccSlot),
      s.Keeps (s.onSl sl fun _ =>
        let y := (l.foldl f (s.sl sl, 0, false))
        ({ y.1 with arr := { y.1.arr with satElements := y.1.arr.satElements + y.2.1 } } : SliceState).onQuad q fun j =>
          j.onArray a fun b => b.onSlot slot g) := fun n l f hf z g => .ofSlice _ _ fun hs _ _ => by
    refine .onQuad (.update (x := (l.foldl f (s.sl sl, 0, false)).1) ?_ rfl rfl rfl) _ fun _ hk => .onArray hk _ fun _ hb => (Array.onSlot_length
        ..).trans hb
    exact List.foldlRecOn (motive := fun b : SliceState × Nat × Bool => b.1.ok) _ _ (hs.sl sl.isLt) fun b hb r _ => hf b r hb
  unfold State.drainArray
  dsimp only
  split
  · refine .comp (.notePoisoned ..) (hput 0 _ _ ?_ {} _)
    intro b r hb
    split
    · exact hb.store ..
    · exact hb.drainRow ..
  · refine hput 0 _ _ ?_ {} _
    intro b r hb
    split
    · exact hb.store ..
    · exact hb.drainRow ..

theorem State.Lands.drain (s : State) (sl : SliceId) (q : QuadId) : s.Lands (s.drain sl q) := by
  unfold State.drain
  dsimp only
  refine .next ?_
  refine .issueQuad _ _ _ _ fun _ _ _ => ?_
  split
  · exact .segmentFault ..
  · split
    · refine .ite (.segmentFault ..) ?_
      refine .comp (.onSl _ _ fun _ h => .onQuad (.update h rfl rfl rfl) _ fun _ hk => .update hk) ?_
      refine .comp (.foldl_fst (fun z a => ?_) _ _) ?_
      · exact .drainArray ..
      · refine .ite ?_ (.refl _)
        split
        · exact .faultStage ..
        · exact .refl _
    · exact .segmentFault ..

theorem State.Lands.execDraint (sl : SliceId) (q : QuadId) (s : State) : s.Lands (execDraint sl q s) := by
  unfold Machine.execDraint
  dsimp only
  refine .next ?_
  refine .issueQuad _ _ _ _ fun _ _ _ => ?_
  split
  · exact .refl _
  · refine .ite (.refl _) ?_
    refine .ite (.segmentFault ..) ?_
    refine .comp (.foldl (fun _ _ => ?_) _ _) ?_
    · split
      · exact .notePoisoned ..
      · exact .refl _
    · refine .onSl _ _ fun _ h => ?_
      refine .update ?_ rfl rfl rfl
      refine .onQuad (.store h ..) _ fun _ hk => ?_
      refine .onArray hk _ fun _ hy => ?_
      simpa using hy

theorem State.Lands.execPoisonedDrainReport (sl : SliceId) (q : QuadId) (s : State) : s.Lands (execPoisonedDrainReport sl q s) := by
  unfold Machine.execPoisonedDrainReport
  dsimp only
  refine .next ?_
  refine .comp (.foldl (fun _ _ => ?_) _ _) (.onQuad _ _ _ fun _ hk => .update hk)
  refine .ite (.comp (.update rfl rfl rfl rfl) (.comp (.endTied ..) (.report ..))) ?_
  split
  · exact .comp (.ite (.onSl _ _ fun _ h => .markSlot h ..) (.endTied ..)) (.report ..)
  · exact .comp (.endTied ..) (.report ..)

end Sys2Proof.Machine
end

section
/-! Every function of Machine/Vector keeps the queue and the shape of the device. -/

namespace Sys2Proof.Machine

theorem State.Keeps.vop (s : State) (sl q code : Nat) (takesB : VopB) (reduces : Bool) (f : VopArgs → List F32 → List F32 → List F32) : s.Keeps (s.vop
    sl q code takesB reduces f) := by
  unfold State.vop
  dsimp only
  refine .ite (.refl _) ?_
  refine .issueQuad _ _ _ _ fun _ _ _ => ?_
  split
  · exact .comp (.segmentFault ..) (.onSl _ _ fun _ h => .update h rfl rfl rfl)
  · refine .comp (.onSl _ _ fun _ h => .update (.store h ..) rfl rfl rfl) ?_
    refine .ite ?_ (.refl _)
    split
    · exact .faultStage ..
    · exact .refl _

theorem State.Keeps.vop1 (s : State) (sl q code : Nat) (f : F32 → F32 → F32) : s.Keeps (s.vop1 sl q code f) := by
  unfold State.vop1
  exact .vop ..

theorem State.Keeps.vop2 (s : State) (sl q code : Nat) (f : F32 → F32 → F32 → F32) : s.Keeps (s.vop2 sl q code f) := by
  unfold State.vop2
  exact .vop ..

theorem State.Keeps.vopB (s : State) (sl q code : Nat) (f : F32 → F32 → F32) : s.Keeps (s.vopB sl q code f) := by
  unfold State.vopB
  exact .vop ..

theorem State.Keeps.vopR (s : State) (sl q code : Nat) (pre : F32 → F32) (f : F32 → F32 → F32) : s.Keeps (s.vopR sl q code pre f) := by
  unfold State.vopR
  exact .vop ..

theorem State.Lands.execVopConvert (sl : SliceId) (q : QuadId) (s : State) : s.Lands (execVopConvert sl q s) := by
  unfold Machine.execVopConvert
  exact .next (.vop1 ..)

theorem State.Lands.execVopAdd (sl : SliceId) (q : QuadId) (s : State) : s.Lands (execVopAdd sl q s) := by
  unfold Machine.execVopAdd
  exact .next (.vop2 ..)

theorem State.Lands.execVopMul (sl : SliceId) (q : QuadId) (s : State) : s.Lands (execVopMul sl q s) := by
  unfold Machine.execVopMul
  exact .next (.vop2 ..)

theorem State.Lands.execVopMax (sl : SliceId) (q : QuadId) (s : State) : s.Lands (execVopMax sl q s) := by
  unfold Machine.execVopMax
  exact .next (.vop2 ..)

theorem State.Lands.execVopMin (sl : SliceId) (q : QuadId) (s : State) : s.Lands (execVopMin sl q s) := by
  unfold Machine.execVopMin
  exact .next (.vop2 ..)

theorem State.Lands.execVopAdds (sl : SliceId) (q : QuadId) (s : State) : s.Lands (execVopAdds sl q s) := by
  unfold Machine.execVopAdds
  exact .next (.vop1 ..)

theorem State.Lands.execVopMuls (sl : SliceId) (q : QuadId) (s : State) : s.Lands (execVopMuls sl q s) := by
  unfold Machine.execVopMuls
  exact .next (.vop1 ..)

theorem State.Lands.execVopAxpy (sl : SliceId) (q : QuadId) (s : State) : s.Lands (execVopAxpy sl q s) := by
  unfold Machine.execVopAxpy
  exact .next (.vop2 ..)

theorem State.Lands.execVopAddb (sl : SliceId) (q : QuadId) (s : State) : s.Lands (execVopAddb sl q s) := by
  unfold Machine.execVopAddb
  exact .next (.vopB ..)

theorem State.Lands.execVopMulb (sl : SliceId) (q : QuadId) (s : State) : s.Lands (execVopMulb sl q s) := by
  unfold Machine.execVopMulb
  exact .next (.vopB ..)

theorem State.Lands.execVopExp (sl : SliceId) (q : QuadId) (s : State) : s.Lands (execVopExp sl q s) := by
  unfold Machine.execVopExp
  exact .next (.vop1 ..)

theorem State.Lands.execVopSigmoid (sl : SliceId) (q : QuadId) (s : State) : s.Lands (execVopSigmoid sl q s) := by
  unfold Machine.execVopSigmoid
  exact .next (.vop1 ..)

theorem State.Lands.execVopSilu (sl : SliceId) (q : QuadId) (s : State) : s.Lands (execVopSilu sl q s) := by
  unfold Machine.execVopSilu
  exact .next (.vop1 ..)

theorem State.Lands.execVopTanh (sl : SliceId) (q : QuadId) (s : State) : s.Lands (execVopTanh sl q s) := by
  unfold Machine.execVopTanh
  exact .next (.vop1 ..)

theorem State.Lands.execVopLog (sl : SliceId) (q : QuadId) (s : State) : s.Lands (execVopLog sl q s) := by
  unfold Machine.execVopLog
  exact .next (.vop1 ..)

theorem State.Lands.execVopRsqrt (sl : SliceId) (q : QuadId) (s : State) : s.Lands (execVopRsqrt sl q s) := by
  unfold Machine.execVopRsqrt
  exact .next (.vop1 ..)

theorem State.Lands.execVopRecip (sl : SliceId) (q : QuadId) (s : State) : s.Lands (execVopRecip sl q s) := by
  unfold Machine.execVopRecip
  exact .next (.vop1 ..)

theorem State.Lands.execVopExpsub (sl : SliceId) (q : QuadId) (s : State) : s.Lands (execVopExpsub sl q s) := by
  unfold Machine.execVopExpsub
  exact .next (.vopB ..)

theorem State.Lands.execVopSwiglu (sl : SliceId) (q : QuadId) (s : State) : s.Lands (execVopSwiglu sl q s) := by
  unfold Machine.execVopSwiglu
  exact .next (.vop2 ..)

theorem State.Lands.execVopSum (sl : SliceId) (q : QuadId) (s : State) : s.Lands (execVopSum sl q s) := by
  unfold Machine.execVopSum
  exact .next (.vopR ..)

theorem State.Lands.execVopSumsq (sl : SliceId) (q : QuadId) (s : State) : s.Lands (execVopSumsq sl q s) := by
  unfold Machine.execVopSumsq
  exact .next (.vopR ..)

theorem State.Lands.execVopMaxred (sl : SliceId) (q : QuadId) (s : State) : s.Lands (execVopMaxred sl q s) := by
  unfold Machine.execVopMaxred
  exact .next (.vopR ..)

end Sys2Proof.Machine
end

section
/-! Every function of Machine/UnitMap keeps the queue and the shape of the device. -/

namespace Sys2Proof.Machine

theorem State.Keeps.storeReport (s : State) : s.Keeps s.storeReport := by
  unfold State.storeReport
  exact .report ..

theorem State.Keeps.storeWrite (s : State) : s.Keeps s.storeWrite := by
  unfold State.storeWrite
  dsimp only
  exact .comp (.ite (.storeReport ..) (.refl _)) (.update rfl rfl rfl rfl)

theorem State.Keeps.storeRecord (s : State) (index sub c : Nat) (v : Bytes) : s.Keeps (s.storeRecord index sub c v) := by
  unfold State.storeRecord
  dsimp only
  exact .comp (.extendMR ..) (.comp (.storeWrite ..) (.update rfl rfl rfl rfl))

theorem State.Keeps.devicePersist (s : State) (index sub c : Nat) (v : Bytes) {f : State → State} (hf : ∀ s : State, s.Keeps (f s)) :
    s.Keeps (s.devicePersist index sub c v f) := by
  unfold State.devicePersist
  exact .ite (.storeReport ..) (.comp (.storeRecord ..) (hf _))

theorem State.Keeps.mapChanged (s : State) (sl : Nat) (u : UnitRef) : s.Keeps (s.mapChanged sl u) := by
  unfold State.mapChanged
  dsimp only
  exact .comp (.report ..) (.comp (.extendMR ..) (.devicePersist _ _ _ _ _ fun _ => .update rfl rfl rfl rfl))

theorem State.Keeps.onSpares (s : State) (sl : Nat) (f : Spares → Spares) : s.Keeps (s.onSpares sl f) := by
  unfold State.onSpares
  exact .onSl _ _ fun _ h => .update h rfl rfl rfl

theorem SliceState.ok.domainOff {x : SliceState} (h : x.ok) (n : Nat) : (x.domainOff n).ok := by
  unfold SliceState.domainOff
  dsimp only
  exact .ite (.update h rfl rfl rfl) h

/-- A fresh array, engine and quad have their shape. -/
theorem Array.fresh_length : ({} : Array).slots.length = 8 := rfl

theorem Engine.ok.fresh (b : Bool) : ({ failed := b } : Engine).ok :=
  ⟨List.length_replicate .., fun k hk => by rw [List.eq_of_mem_replicate hk]; exact ⟨List.length_replicate .., List.length_replicate ..⟩⟩

theorem Quad.ok.fresh (p : List Word) : ({ program := p } : Quad).ok :=
  ⟨List.length_replicate .., List.length_replicate .., fun a ha => by rw [List.eq_of_mem_replicate ha]; rfl⟩

theorem State.Keeps.applyMap (s : State) (sl : Nat) (w : UnitRef × Option Nat) : s.Keeps (s.applyMap sl w) := by
  unfold State.applyMap
  dsimp only
  split
  · refine .ite ?_ (.ite (.refl _) (.comp (.mapChanged ..) (.onSpares ..)))
    refine .comp (.mapChanged ..) ?_
    refine .comp (.onSl _ _ fun _ h => ?_) (.onSpares ..)
    refine .onQuad h _ fun _ hk => ?_
    refine .onArray hk _ fun _ hy => ?_
    exact Array.fresh_length
  · refine .ite ?_ (.ite (.refl _) (.comp (.mapChanged ..) (.comp (.onSl _ _ fun _ h => .domainOff h ..) (.onSpares ..))))
    refine .comp (.mapChanged ..) ?_
    refine .comp (.onSl _ _ fun _ h => ?_) (.onSpares ..)
    refine .onEngine h _ fun _ hg => ?_
    exact .fresh false
  · refine .ite (.mapChanged ..) ?_
    refine .ite ?_ (.comp (.mapChanged ..) (.onSpares ..))
    split
    · exact .comp (.mapChanged ..) (.onSpares ..)
    · exact .refl _
  · split
    · exact .comp (.mapChanged ..) (.comp (.devicePersist _ _ _ _ _ fun _ => .onSpares ..) (.onSpares ..))
    · exact .ite (.comp (.mapChanged ..) (.onSpares ..)) (.ite (.refl _) (.comp (.mapChanged ..) (.onSpares ..)))
  · exact .ite (.refl _) (.comp (.mapChanged ..) (.onSpares ..))
  · exact .ite (.refl _) (.comp (.mapChanged ..) (.onSpares ..))
  · exact .ite (.refl _) (.comp (.mapChanged ..) (.comp (.onSl _ _ fun _ h => .domainOff h ..) (.onSpares ..)))
  · exact .refl _

theorem State.Keeps.mapDue (s : State) (sl : Nat) (u : UnitRef) (row : Option Nat) : s.Keeps (s.mapDue sl u row) := by
  unfold State.mapDue
  exact .ite (.applyMap ..) (.ite (.refl _) (.onSpares ..))

theorem State.Keeps.applyWaiting (s : State) : s.Keeps s.applyWaiting := by
  unfold State.applyWaiting
  dsimp only
  exact .eachSlice (fun _ _ => .comp (.foldl (fun _ _ => .applyMap ..) _ _) (.onSpares ..)) _

end Sys2Proof.Machine
end

section
/-! Every function of Machine/LinkState keeps the queue and the shape of the device. -/

namespace Sys2Proof.Machine

theorem State.Keeps.requeue (s : State) (sl : Nat) (l : LinkId) (x : Queued) : s.Keeps (s.requeue sl l x) := by
  unfold State.requeue
  dsimp only
  refine .comp (.onSl _ _ fun _ h => .update h rfl rfl rfl) ?_
  refine .ite (.onSl _ _ fun _ h => .update h rfl rfl rfl) ?_
  split
  · exact .comp (.ite (.refl _) (.spray ..)) (.onSl _ _ fun _ h => .update h rfl rfl rfl)
  · split
    · exact .comp (.cross ..) (.onSl _ _ fun _ h => .update h rfl rfl rfl)
    · exact .comp (.cross ..) (.onSl _ _ fun _ h => .update h rfl rfl rfl)

theorem SliceState.ok.voidHolds {x : SliceState} (h : x.ok) (l : LinkId) : (x.voidHolds l).ok := by
  unfold SliceState.voidHolds
  dsimp only
  exact .update h (by simp) (by simp) rfl

theorem State.Keeps.goDown (s : State) (sl : Nat) (l : LinkId) (st reason : Nat) : s.Keeps (s.goDown sl l st reason) := by
  unfold State.goDown
  dsimp only
  refine .ite ?_ ?_
  · split
    · refine .comp (.ite (.chooseParent ..) (.refl _)) ?_
      refine .comp (.foldl_fst (fun _ _ => ?_) _ _) (.comp (.foldl (fun _ _ => .requeue ..) _ _) (.comp (.onSl _ _ fun _ h => .voidHolds h ..) (.comp
          (.report ..) (.comp (.onLink ..) (.comp (.update rfl rfl rfl rfl) (.comp (.onLink ..) (.ite (.refl _) (.emit ..))))))))
      split
      · exact .refl _
      · exact .freeHold ..
    · refine .comp (.cutPairs ..) ?_
      refine .comp (.mapDue ..) ?_
      refine .comp (.foldl_fst (fun _ _ => ?_) _ _) (.comp (.foldl (fun _ _ => .requeue ..) _ _) (.comp (.onSl _ _ fun _ h => .voidHolds h ..) (.comp
          (.report ..) (.comp (.onLink ..) (.comp (.update rfl rfl rfl rfl) (.comp (.onLink ..) (.ite (.refl _) (.emit ..))))))))
      split
      · exact .refl _
      · exact .freeHold ..
  · split
    · exact .comp (.update rfl rfl rfl rfl) (.comp (.onLink ..) (.ite (.refl _) (.emit ..)))
    · exact .comp (.mapDue ..) (.comp (.update rfl rfl rfl rfl) (.comp (.onLink ..) (.ite (.refl _) (.emit ..))))

theorem State.Keeps.goUp (s : State) (sl : Nat) (l : LinkId) : s.Keeps (s.goUp sl l) := by
  unfold State.goUp
  dsimp only
  split
  · exact .onLink ..
  · exact .comp (.mapDue ..) (.onLink ..)

end Sys2Proof.Machine
end

section
/-! Every function of Machine/Sessions keeps the queue and the shape of the device. -/

namespace Sys2Proof.Machine

theorem State.Keeps.beginAuth (s : State) (sl p : Nat) : s.Keeps (s.beginAuth sl p) := by
  unfold State.beginAuth
  dsimp only
  exact .ite (.comp (.onLink ..) (.comp (.drawTrng ..) (.comp (.drawTrng ..) (.onLink ..)))) (.onLink ..)

theorem State.Keeps.refusePeer (s : State) (sl p check : Nat) : s.Keeps (s.refusePeer sl p check) := by
  unfold State.refusePeer
  dsimp only
  exact .comp (.goDown ..) (.comp (.report ..) (.update rfl rfl rfl rfl))

theorem State.Keeps.tryAuthUp (s : State) (sl p : Nat) : s.Keeps (s.tryAuthUp sl p) := by
  unfold State.tryAuthUp
  dsimp only
  exact .ite (.comp (.goUp ..) (.onLink ..)) (.refl _)

theorem State.Keeps.takeHello (s : State) (sl p : Nat) (h : Bytes) : s.Keeps (s.takeHello sl p h) := by
  unfold State.takeHello
  dsimp only
  exact .ite (.refl _) (.ite (.refusePeer ..) (.comp (.update rfl rfl rfl rfl) (.onLink ..)))

theorem State.Keeps.takeFinish (s : State) (sl p : Nat) (f : Bytes) : s.Keeps (s.takeFinish sl p f) := by
  unfold State.takeFinish
  dsimp only
  exact .ite (.refl _) (.ite (.comp (.tryAuthUp ..) (.onLink ..)) (.refusePeer ..))

theorem State.Keeps.takeSession (s : State) (sl p part : Nat) (b : Bytes) : s.Keeps (s.takeSession sl p part b) := by
  unfold State.takeSession
  dsimp only
  exact .ite (.refl _) (.ite (.ite (.onLink ..) (.comp (.ite (.takeHello ..) (.takeFinish ..)) (.onLink ..))) (.onLink ..))

theorem State.Lands.execHello (sl : SliceId) (p : PortId) (msg : Bytes) (s : State) : s.Lands (execHello sl p msg s) := by
  unfold Machine.execHello
  exact .next (.takeHello ..)

theorem State.Lands.execFinishSign (s : State) : s.Lands (execFinishSign s) := by
  unfold Machine.execFinishSign
  dsimp only
  split
  · exact .next (.refl _)
  · exact .next (.comp (.onLink ..) (.update rfl rfl rfl rfl))

theorem State.Lands.execFinish (sl : SliceId) (p : PortId) (msg : Bytes) (s : State) : s.Lands (execFinish sl p msg s) := by
  unfold Machine.execFinish
  exact .next (.takeFinish ..)

theorem State.Lands.execAuthTimeout (sl : SliceId) (p : PortId) (s : State) : s.Lands (execAuthTimeout sl p s) := by
  unfold Machine.execAuthTimeout
  dsimp only
  exact .ite (.next (.goDown ..)) (.next (.refl _))

theorem State.Lands.execLinkRekey (sl : SliceId) (p : PortId) (s : State) : s.Lands (execLinkRekey sl p s) := by
  unfold Machine.execLinkRekey
  exact .next (.onLink ..)

theorem State.Lands.execOldKeyErase (sl : SliceId) (p : PortId) (s : State) : s.Lands (execOldKeyErase sl p s) := by
  unfold Machine.execOldKeyErase
  exact .next (.onLink ..)

end Sys2Proof.Machine
end

section
/-! Every function of Machine/Time keeps the queue and the shape of the device. -/

namespace Sys2Proof.Machine

theorem State.Lands.execTimeSymbolSend (sl : SliceId) (p : PortId) (s : State) : s.Lands (execTimeSymbolSend sl p s) := by
  unfold Machine.execTimeSymbolSend
  dsimp only
  exact .ite (.next (.onLink ..)) (.next (.refl _))

theorem State.Keeps.judgeBound (s : State) (b : Nat) : s.Keeps (s.judgeBound b) := by
  unfold State.judgeBound
  dsimp only
  refine .ite ?_ (.comp (.ite (.setTimeState ..) (.refl _)) (.update rfl rfl rfl rfl))
  refine .ite ?_ (.update rfl rfl rfl rfl)
  refine .ite (.comp (.setTimeState ..) (.update rfl rfl rfl rfl)) ?_
  split
  · exact .comp (.setOrigin ..) (.comp (.setTimeState ..) (.update rfl rfl rfl rfl))
  · exact .comp (.setTimeState ..) (.update rfl rfl rfl rfl)

theorem State.Keeps.takeTimeSymbol (s : State) (sl : Nat) (p : PortId) (y : TimeSym) : s.Keeps (s.takeTimeSymbol sl p y) := by
  unfold State.takeTimeSymbol
  dsimp only
  exact .ite (.ite (.comp (.judgeBound ..) (.comp (.ite (.update rfl rfl rfl rfl) (.update rfl rfl rfl rfl)) (.onLink ..))) (.onLink ..)) (.refl _)

theorem State.Lands.execTimeSymbol (sl : SliceId) (p : PortId) (y : TimeSym) (s : State) : s.Lands (execTimeSymbol sl p y s) := by
  unfold Machine.execTimeSymbol
  exact .next (.takeTimeSymbol ..)

theorem State.Lands.execHoldoverTimeout (s : State) : s.Lands (execHoldoverTimeout s) := by
  unfold Machine.execHoldoverTimeout
  dsimp only
  exact .ite (.next (.comp (.update rfl rfl rfl rfl) (.setTimeState ..))) (.next (.refl _))

theorem State.Keeps.standAlone (s : State) : s.Keeps s.standAlone := by
  unfold State.standAlone
  exact .ite (.becomeGrandmaster ..) (.refl _)

theorem State.Lands.execTimePacketSend (sl : SliceId) (p : PortId) (s : State) : s.Lands (execTimePacketSend sl p s) := by
  unfold Machine.execTimePacketSend
  dsimp only
  exact .ite (.next (.comp (.enqueue ..) (.standAlone ..))) (.next (.standAlone ..))

theorem State.Lands.execTimePacket (sl : SliceId) (p : PortId) (y : TimePkt) (s : State) : s.Lands (execTimePacket sl p y s) := by
  unfold Machine.execTimePacket
  exact .ite (.next (.comp (.chooseParent ..) (.onLink ..))) (.next (.refl _))

theorem State.Lands.execTimeInPps (s : State) : s.Lands (execTimeInPps s) := by
  unfold Machine.execTimeInPps
  dsimp only
  exact .ite (.ite (.next (.update rfl rfl rfl rfl)) (.next (.update rfl rfl rfl rfl))) (.next (.refl _))

theorem State.Lands.execTimeInLock (s : State) : s.Lands (execTimeInLock s) := by
  unfold Machine.execTimeInLock
  dsimp only
  exact .next (.comp (.chooseParent ..) (.update rfl rfl rfl rfl))

theorem State.Lands.execTimeInLoss (s : State) : s.Lands (execTimeInLoss s) := by
  unfold Machine.execTimeInLoss
  dsimp only
  exact .next (.comp (.ite (.report ..) (.refl _)) (.update rfl rfl rfl rfl))

end Sys2Proof.Machine
end

section
/-! Every function of Machine/LinkLayer keeps the queue and the shape of the device. -/

namespace Sys2Proof.Machine

theorem State.Keeps.ingress (s : State) (sl : Nat) (l : LinkId) (x : Packet × Option Nat) : s.Keeps (s.ingress sl l x) := by
  unfold State.ingress
  dsimp only
  refine .ite ?_ (.onLink ..)
  split
  · exact .ite (.comp (.routerDiscard ..) (.onLink ..)) (.comp (.ite (.refl _) (.comp (.chooseParent ..) (.onLink ..))) (.onLink ..))
  · exact .onLink ..

theorem State.Keeps.transmit (s : State) (sl : Nat) (l : LinkId) (b : Bytes × Link) : s.Keeps (s.transmit sl l b) := by
  unfold State.transmit
  exact .comp (.emit ..) (.onLink ..)

theorem State.Keeps.sendUp (s : State) (sl : Nat) (l : LinkId) : s.Keeps (s.sendUp sl l) := by
  unfold State.sendUp
  dsimp only
  split
  · split
    · exact .onLink ..
    · exact .ite (.goDown ..) (.transmit ..)
  · exact .ite (.transmit ..) (.transmit ..)

theorem State.Keeps.sendAuth (s : State) (sl : Nat) (l : LinkId) : s.Keeps (s.sendAuth sl l) := by
  unfold State.sendAuth
  dsimp only
  refine .ite ?_ (.transmit ..)
  refine .ite ?_ (.comp (.ite (.onLink ..) (.refl _)) (.transmit ..))
  split
  · exact .comp (.tryAuthUp ..) (.comp (.onLink ..) (.transmit ..))
  · exact .comp (.onLink ..) (.transmit ..)

theorem State.Lands.execLinkFrameSend (sl : SliceId) (l : LinkId) (s : State) : s.Lands (execLinkFrameSend sl l s) := by
  unfold Machine.execLinkFrameSend
  dsimp only
  exact .ite (.next (.sendUp ..)) (.ite (.next (.sendAuth ..)) (.ite (.next (.transmit ..)) (.next (.refl _))))

theorem State.Keeps.startEgress (s : State) (sl : Nat) (l : LinkId) (n : Net) (x : Queued) : s.Keeps (s.startEgress sl l n x) := by
  unfold State.startEgress
  exact .comp (.freeHold ..) (.onLink ..)

theorem State.Lands.execEgressPacketStart (sl : SliceId) (l : LinkId) (n : Net) (s : State) : s.Lands (execEgressPacketStart sl l n s) := by
  unfold Machine.execEgressPacketStart
  dsimp only
  refine .ite (.next (.refl _)) ?_
  split
  · exact .next (.startEgress ..)
  · exact .next (.refl _)
  · exact .next (.refl _)
  · split
    · exact .next (.startEgress ..)
    · exact .next (.refl _)

theorem State.Keeps.takeData (s : State) (sl : Nat) (l : LinkId) (fseq : Nat) (stream : Bytes) : s.Keeps (s.takeData sl l fseq stream) := by
  unfold State.takeData
  dsimp only
  exact .ite (.comp (.foldl (fun _ _ => .ingress ..) _ _) (.onLink ..)) (.onLink ..)

theorem State.Keeps.peerDown (s : State) (sl : Nat) (l : LinkId) : s.Keeps (s.peerDown sl l) := by
  unfold State.peerDown
  dsimp only
  exact .ite (.goDown ..) (.refl _)

theorem State.Keeps.takeSlot (s : State) (sl : Nat) (l : LinkId) (slot : Bytes) : s.Keeps (s.takeSlot sl l slot) := by
  unfold State.takeSlot
  dsimp only
  split
  · exact .takeTimeSymbol ..
  · exact .peerDown ..
  · exact .ite (.takeSession ..) (.refl _)
  · exact .refl _

theorem State.Keeps.goodFrame (s : State) (sl : Nat) (l : LinkId) (f : Bytes) : s.Keeps (s.goodFrame sl l f) := by
  unfold State.goodFrame
  dsimp only
  refine .ite (.takeSlot ..) ?_
  split
  · exact .goDown ..
  · exact .comp (.takeSlot ..) (.comp (.ite (.takeData ..) (.refl _)) (.onLink ..))

theorem State.Keeps.fecFail (s : State) (sl : Nat) (l : LinkId) : s.Keeps (s.fecFail sl l) := by
  unfold State.fecFail
  dsimp only
  exact .comp (.ite (.goDown ..) (.refl _)) (.comp (.report ..) (.onLink ..))

theorem State.Keeps.fecOf (s : State) (sl : Nat) (l : LinkId) (corrected : Nat) (fec : Fec) : s.Keeps (s.fecOf sl l corrected fec).1 := by
  cases l with
  | link k => exact .refl _
  | port p => exact .comp (.foldl (fun _ _ => .fecFail ..) _ _) (.onLink ..)

theorem State.Lands.execLinkFrame (sl : SliceId) (l : LinkId) (f : Bytes) (corrected : Nat) (fec : Fec) (s : State) : s.Lands (execLinkFrame sl l f
    corrected fec s) := by
  unfold Machine.execLinkFrame
  dsimp only
  exact .ite (.next (.refl _)) (.ite (.next (.comp (.onLink ..) (.fecOf ..))) (.ite (.next (.comp (.onLink ..) (.fecOf ..))) (.next (.comp (.goodFrame
      ..) (.fecOf ..)))))

theorem State.Lands.execLinkRetrainAttempt (sl : SliceId) (l : LinkId) (s : State) : s.Lands (execLinkRetrainAttempt sl l s) := by
  unfold Machine.execLinkRetrainAttempt
  dsimp only
  exact .ite (.next (.onLink ..)) (.next (.refl _))

theorem State.Lands.execLinkTrainComplete (sl : SliceId) (l : LinkId) (s : State) : s.Lands (execLinkTrainComplete sl l s) := by
  unfold Machine.execLinkTrainComplete
  refine .ite ?_ (.next (.refl _))
  split
  · exact .next (.beginAuth ..)
  · exact .next (.goUp ..)

theorem State.Lands.execLinkTrainTimeout (sl : SliceId) (l : LinkId) (s : State) : s.Lands (execLinkTrainTimeout sl l s) := by
  unfold Machine.execLinkTrainTimeout
  exact .ite (.next (.comp (.report ..) (.goDown ..))) (.next (.refl _))

theorem State.Lands.execFrameSilenceTimeout (sl : SliceId) (l : LinkId) (s : State) : s.Lands (execFrameSilenceTimeout sl l s) := by
  unfold Machine.execFrameSilenceTimeout
  exact .ite (.next (.goDown ..)) (.next (.refl _))

theorem State.Lands.execReplayTimeout (sl : SliceId) (l : LinkId) (s : State) : s.Lands (execReplayTimeout sl l s) := by
  unfold Machine.execReplayTimeout
  exact .next (.onLink ..)

theorem State.Lands.execDownSymbol (sl : SliceId) (l : LinkId) (_reason : Nat) (s : State) : s.Lands (execDownSymbol sl l _reason s) := by
  unfold Machine.execDownSymbol
  exact .next (.peerDown ..)

end Sys2Proof.Machine
end

section
/-! Every function of Machine/Spares keeps the queue and the shape of the device. -/

namespace Sys2Proof.Machine

theorem SliceState.ok.stopEngine {x : SliceState} (h : x.ok) (e : Nat) : (x.stopEngine e).ok := by
  unfold SliceState.stopEngine
  exact .onEngine (.foldl (fun _ _ h => .stopThread h ..) _ h) _ fun _ hg => .update hg

theorem State.Keeps.failLive (s : State) (sl : Nat) (u : UnitRef) : s.Keeps (s.failLive sl u) := by
  unfold State.failLive
  dsimp only
  exact .comp (.onSl _ _ fun _ h => .foldl (fun _ _ h => .endRun h ..) _ h) (.foldl (fun _ _ => .faultStage ..) _ _)

theorem State.Keeps.endSliceWork (s : State) (sl : Nat) : s.Keeps (s.endSliceWork sl) := by
  unfold State.endSliceWork
  dsimp only
  exact .comp (.eachSlice (fun _ _ => .endNext ..) _) (.ite (.refl _) (.endNext ..))

theorem State.Keeps.failEngine (s : State) (sl e : Nat) : s.Keeps (s.failEngine sl e) := by
  unfold State.failEngine
  dsimp only
  exact .comp (.mapDue ..) (.comp (.ite (.refl _) (.comp (.onSpares ..) (.endSliceWork ..))) (.comp (.onSpares ..) (.comp (.onSl _ _ fun _ h =>
      .stopEngine h ..) (.failLive ..))))

theorem State.Keeps.remapLane (s : State) (sl p lane : Nat) : s.Keeps (s.remapLane sl p lane) := by
  unfold State.remapLane
  dsimp only
  exact .ite (.comp (.storeRecord ..) (.comp (.mapChanged ..) (.onSl _ _ fun _ h => .update h (by simp) rfl rfl))) (.ite (.comp (.storeRecord ..)
      (.comp (.mapChanged ..) (.onSl _ _ fun _ h => .update h (by simp) rfl rfl))) (.comp (.mapDue ..) (.comp (.goDown ..) (.onLink ..))))

theorem State.Keeps.failLane (s : State) (sl p t : Nat) : s.Keeps (s.failLane sl p t) := by
  unfold State.failLane
  dsimp only
  split
  · exact .ite (.onSpares ..) (.refl _)
  · exact .comp (.remapLane ..) (.comp (.ite (.goDown ..) (.refl _)) (.ite (.onSpares ..) (.refl _)))

theorem State.Keeps.wrongSum (s : State) (sl : Nat) : s.Keeps (s.wrongSum sl) := by
  unfold State.wrongSum
  dsimp only
  exact .ite (.refl _) (.comp (.onSl _ _ fun _ h => .update h rfl rfl rfl) (.takeFree ..))

/-- A change of every quad that keeps a quad's shape. -/
theorem Quad.ok.all_map {l : List Quad} (h : l.length = 8 ∧ ∀ k ∈ l, k.ok) {f : Quad → Quad} (hf : ∀ k, k.ok → (f k).ok) :
    (l.map f).length = 8 ∧ ∀ k ∈ l.map f, k.ok := by
  refine ⟨by simpa using h.1, fun k hk => ?_⟩
  obtain ⟨k0, h0, rfl⟩ := List.mem_map.1 hk
  exact hf k0 (h.2 k0 h0)

theorem SliceState.ok.mapQuads {x y : SliceState} (hy : y.ok) (hx : x.ok) {f : Quad → Quad} (hf : ∀ k, k.ok → (f k).ok) :
    ({ y with quads := x.quads.map f } : SliceState).ok := by
  obtain ⟨-, -, hq, -⟩ := hx
  obtain ⟨hm, he, -, hl⟩ := hy
  exact ⟨hm, he, Quad.ok.all_map hq hf, hl⟩

theorem SliceState.ok.haltAll {x : SliceState} (h : x.ok) :
    ({ (List.range 4).foldl (fun (y : SliceState) e => y.stopEngine e) x with
       quads := x.quads.map fun q => { q with st := .idle, loops := [] } } : SliceState).ok :=
  .mapQuads (.foldl (fun _ _ h => h.stopEngine _) _ h) h fun _ hk => .update hk

theorem State.Keeps.failUnit (s : State) (sl : Nat) (u : UnitRef) : s.Keeps (s.failUnit sl u) := by
  unfold State.failUnit
  dsimp only
  split
  · exact .onSpares ..
  · split
    · exact .comp (.mapDue ..) (.comp (.onSpares ..) (.comp (.onSl _ _ fun _ h => .onQuad h _ fun _ hk => .update hk) (.comp (.failLive ..) (.ite
        (.onSpares ..) (.refl _)))))
    · exact .comp (.failEngine ..) (.ite (.onSpares ..) (.refl _))
    · exact .ite (.comp (.mapDue ..) (.comp (.onSpares ..) (.comp (.failLive ..) (.comp (.ite (.refl _) (.wrongSum ..)) (.ite (.onSpares ..) (.refl
        _)))))) (.comp (.mapDue ..) (.comp (.wrongSum ..) (.ite (.onSpares ..) (.refl _))))
    · exact .comp (.ite (.onSpares ..) (.mapDue ..)) (.ite (.onSpares ..) (.refl _))
    · exact .comp (.ite (.goDown ..) (.failLane ..)) (.ite (.onSpares ..) (.refl _))
    · exact .comp (.goDown ..) (.ite (.onSpares ..) (.refl _))
    · exact .comp (.mapDue ..) (.comp (.onSpares ..) (.comp (.failLive ..) (.ite (.onSpares ..) (.refl _))))
    · exact .comp (.report ..) (.comp (.onSpares ..) (.comp (.onSl _ _ fun _ h => h.haltAll) (.comp (.failLive ..) (.ite (.onSpares ..) (.refl _)))))
    · exact .comp (.report ..) (.comp (.onSpares ..) (.comp (.failLive ..) (.ite (.onSpares ..) (.refl _))))

theorem State.Lands.execRoutingEngineFail (sl : SliceId) (e : EngineId) (s : State) : s.Lands (execRoutingEngineFail sl e s) := by
  unfold Machine.execRoutingEngineFail
  exact .next (.failEngine ..)

theorem State.Lands.execUnitFail (sl : SliceId) (u : UnitRef) (s : State) : s.Lands (execUnitFail sl u s) := by
  unfold Machine.execUnitFail
  exact .next (.failUnit ..)

theorem State.Keeps.marginDecision (s : State) (sl : Nat) (u : UnitRef) : s.Keeps (s.marginDecision sl u) := by
  unfold State.marginDecision
  dsimp only
  split
  · exact .refl _
  · refine .ite (.report ..) ?_
    refine .ite ?_ (.mapDue ..)
    split
    · exact .refl _
    · exact .ite (.ite (.refl _) (.onSpares ..)) (.comp (.remapLane ..) (.ite (.goDown ..) (.refl _)))

theorem State.Keeps.judgeFec (s : State) (sl p : Nat) : s.Keeps (s.judgeFec sl p) := by
  unfold State.judgeFec
  dsimp only
  exact .ite (.refl _) (.ite (.onLink ..) (.comp (.marginDecision ..) (.comp (.onLink ..) (.takeFree ..))))

theorem State.Lands.execMarginSensorRead (sl : SliceId) (u : UnitRef) (below provisional : Bool) (s : State) : s.Lands (execMarginSensorRead sl u
    below provisional s) := by
  unfold Machine.execMarginSensorRead
  dsimp only
  exact .ite (.next (.onSpares ..)) (.ite (.next (.comp (.marginDecision ..) (.onSpares ..))) (.next (.onSpares ..)))

theorem State.Lands.execSpareMigration (sl : SliceId) (stack : Fin 4) (s : State) : s.Lands (execSpareMigration sl stack s) := by
  unfold Machine.execSpareMigration
  dsimp only
  split
  · exact .next (.refl _)
  · exact .next (.comp (.mapDue ..) (.onSpares ..))

theorem State.Keeps.retirePch (s : State) (sl stack pc : Nat) : s.Keeps (s.retirePch sl stack pc) := by
  unfold State.retirePch
  dsimp only
  exact .ite (.refl _) (.ite (.refl _) (.ite (.onSpares ..) (.report ..)))

theorem State.Keeps.retireRow (s : State) (sl stack pc row : Nat) : s.Keeps (s.retireRow sl stack pc row) := by
  unfold State.retireRow
  dsimp only
  exact .ite (.refl _) (.ite (.retirePch ..) (.ite (.refl _) (.ite (.report ..) (.onSpares ..))))

theorem State.Keeps.onErr (s : State) (sl : Nat) (f : Errors → Errors) : s.Keeps (s.onErr sl f) := by
  unfold State.onErr
  dsimp only
  exact .comp (.ite (.refl _) (.cause ..)) (.onSl _ _ fun _ h => .update h rfl rfl rfl)

theorem State.Lands.execErrorReport (sl : SliceId) (r : Report) (s : State) : s.Lands (execErrorReport sl r s) := by
  unfold Machine.execErrorReport
  exact .next (.onErr ..)

theorem State.Lands.execErrorRecordClose (sl : SliceId) (s : State) : s.Lands (execErrorRecordClose sl s) := by
  unfold Machine.execErrorRecordClose
  exact .next (.onErr ..)

end Sys2Proof.Machine
end

section
/-! Every function of Machine/Threads keeps the queue and the shape of the device. -/

namespace Sys2Proof.Machine

theorem State.Lands.execNop (sl : SliceId) (e : EngineId) (t : ThreadId) (s : State) : s.Lands (execNop sl e t s) := by
  unfold Machine.execNop
  exact .next (.issueThread _ _ _ _ _ fun _ _ _ => .refl _)

theorem State.Lands.execMovi (sl : SliceId) (e : EngineId) (t : ThreadId) (s : State) : s.Lands (execMovi sl e t s) := by
  unfold Machine.execMovi
  exact .next (.issueThread _ _ _ _ _ fun _ _ _ => .putReg ..)

theorem State.Lands.execAdd (sl : SliceId) (e : EngineId) (t : ThreadId) (s : State) : s.Lands (execAdd sl e t s) := by
  unfold Machine.execAdd
  exact .next (.issueThread _ _ _ _ _ fun _ _ _ => .putReg ..)

theorem State.Lands.execSub (sl : SliceId) (e : EngineId) (t : ThreadId) (s : State) : s.Lands (execSub sl e t s) := by
  unfold Machine.execSub
  exact .next (.issueThread _ _ _ _ _ fun _ _ _ => .putReg ..)

theorem State.Lands.execMul (sl : SliceId) (e : EngineId) (t : ThreadId) (s : State) : s.Lands (execMul sl e t s) := by
  unfold Machine.execMul
  exact .next (.issueThread _ _ _ _ _ fun _ _ _ => .putReg ..)

theorem State.Lands.execLogic (sl : SliceId) (e : EngineId) (t : ThreadId) (s : State) : s.Lands (execLogic sl e t s) := by
  unfold Machine.execLogic
  exact .next (.issueThread _ _ _ _ _ fun _ _ _ => .putReg ..)

theorem State.Lands.execShift (sl : SliceId) (e : EngineId) (t : ThreadId) (s : State) : s.Lands (execShift sl e t s) := by
  unfold Machine.execShift
  refine .next ?_
  refine .issueThread _ _ _ _ _ fun _ _ _ => ?_
  split
  · exact .putReg ..
  · exact .refl _

theorem State.Lands.execCmp (sl : SliceId) (e : EngineId) (t : ThreadId) (s : State) : s.Lands (execCmp sl e t s) := by
  unfold Machine.execCmp
  refine .next ?_
  refine .issueThread _ _ _ _ _ fun _ _ _ => ?_
  split
  · exact .putPred ..
  · exact .refl _

theorem State.Lands.execPlog (sl : SliceId) (e : EngineId) (t : ThreadId) (s : State) : s.Lands (execPlog sl e t s) := by
  unfold Machine.execPlog
  exact .next (.issueThread _ _ _ _ _ fun _ _ _ => .putPred ..)

theorem State.Lands.execBr (sl : SliceId) (e : EngineId) (t : ThreadId) (s : State) : s.Lands (execBr sl e t s) := by
  unfold Machine.execBr
  exact .next (.issueThread _ _ _ _ _ fun _ _ _ => .onThread _ _ _ _ fun _ hk => .update hk)

theorem State.Lands.execHalt (sl : SliceId) (e : EngineId) (t : ThreadId) (s : State) : s.Lands (execHalt sl e t s) := by
  unfold Machine.execHalt
  exact .next (.issueThread _ _ _ _ _ fun _ _ _ => .onSl _ _ fun _ h => .tryCompletePhase (.haltThread h ..) ..)

theorem State.Keeps.engineRead (s : State) (sl e t a n : Nat) : s.Keeps (s.engineRead sl e t a n) := by
  unfold State.engineRead
  exact .readFor ..

theorem State.Lands.doLd (s : State) (sl : SliceId) (e : EngineId) (t : ThreadId) : s.Lands (s.doLd sl e t) := by
  unfold State.doLd
  dsimp only
  exact .next (.issueThread _ _ _ _ _ fun _ _ _ => .ite (.comp (.putReg ..) (.engineRead ..)) (.threadFault ..))

theorem State.Lands.execSt (sl : SliceId) (e : EngineId) (t : ThreadId) (s : State) : s.Lands (execSt sl e t s) := by
  unfold Machine.execSt
  dsimp only
  exact .next (.issueThread _ _ _ _ _ fun _ _ _ => .ite (.onSl _ _ fun _ h => .store h ..) (.threadFault ..))

theorem State.Keeps.threadSend (s : State) (sl e t : Nat) (h : Thread) (a op : Nat) (payload : Bytes) (iss : Issuer) : s.Keeps (s.threadSend sl e t h
    a op payload iss) := by
  unfold State.threadSend
  dsimp only
  exact .comp (.sendMsg ..) (.onSl _ _ fun _ h => .ite (.update (.onThread h _ _ fun _ hk => .update hk) rfl rfl rfl) (.onThread h _ _ fun _ hk =>
      .update hk))

theorem State.Keeps.threadStore {s u : State} {sl e t a : Nat} {h : Thread} {b : Bytes} {iss : Issuer}
    (ht : s.threadStore sl e t h a b iss = some u) : s.Keeps u := by
  unfold State.threadStore at ht
  split at ht
  · cases ht; exact .threadSend ..
  · split at ht
    · cases ht
    · cases ht; exact .sendMsg ..

theorem State.Keeps.waitRemote (s : State) (sl e t : Nat) : s.Keeps (s.waitRemote sl e t) := by
  unfold State.waitRemote
  exact .comp (.onThread _ _ _ _ fun _ hk => .update hk) (.blockThread ..)

theorem State.Keeps.waitStaged (s : State) (sl e t : Nat) : s.Keeps (s.waitStaged sl e t) := by
  unfold State.waitStaged
  exact .comp (.onThread _ _ _ _ fun _ hk => .update hk) (.blockThread ..)

theorem State.Lands.execXld (sl : SliceId) (e : EngineId) (t : ThreadId) (s : State) : s.Lands (execXld sl e t s) := by
  unfold Machine.execXld
  dsimp only
  exact .next (.issueThread _ _ _ _ _ fun _ _ _ => .ite (.threadFault ..) (.ite (.comp (.putReg ..) (.waitStaged ..)) (.ite (.threadFault ..) (.comp
      (.threadSend ..) (.waitRemote ..)))))

theorem State.Lands.execXst (sl : SliceId) (e : EngineId) (t : ThreadId) (s : State) : s.Lands (execXst sl e t s) := by
  unfold Machine.execXst
  dsimp only
  refine .next ?_
  refine .issueThread _ _ _ _ _ fun _ _ _ => ?_
  refine .ite (.threadFault ..) ?_
  refine .ite (.comp (.onThread _ _ _ _ fun _ hk => .update hk) (.blockThread ..)) ?_
  split
  · next ht =>
      exact .comp (.onThread _ _ _ _ fun _ hk => .update hk) (.threadStore ht)
  · exact .threadFault ..

theorem State.Lands.execXcopyGet (sl : SliceId) (e : EngineId) (t : ThreadId) (s : State) : s.Lands (execXcopyGet sl e t s) := by
  unfold Machine.execXcopyGet
  dsimp only
  refine .next ?_
  refine .issueThread _ _ _ _ _ fun _ _ _ => ?_
  split
  · exact .threadFault ..
  · exact .ite (.comp (.onSl _ _ fun _ h => .store h ..) (.waitStaged ..)) (.ite (.threadFault ..) (.comp (.threadSend ..) (.waitRemote ..)))

theorem State.Lands.doXcopyPut (s : State) (sl : SliceId) (e : EngineId) (t : ThreadId) : s.Lands (s.doXcopyPut sl e t) := by
  unfold State.doXcopyPut
  dsimp only
  refine .next ?_
  refine .issueThread _ _ _ _ _ fun _ _ _ => ?_
  split
  · exact .threadFault ..
  · split
    · next ht =>
        exact .comp (.threadStore ht) (.comp (.waitRemote ..) (.engineRead ..))
    · exact .threadFault ..

theorem State.Lands.execXatomFadd (sl : SliceId) (e : EngineId) (t : ThreadId) (s : State) : s.Lands (execXatomFadd sl e t s) := by
  unfold Machine.execXatomFadd
  dsimp only
  exact .next (.issueThread _ _ _ _ _ fun _ _ _ => .ite (.threadFault ..) (.comp (.threadSend ..) (.waitRemote ..)))

theorem State.Lands.execXatomCas (sl : SliceId) (e : EngineId) (t : ThreadId) (s : State) : s.Lands (execXatomCas sl e t s) := by
  unfold Machine.execXatomCas
  dsimp only
  exact .next (.issueThread _ _ _ _ _ fun _ _ _ => .ite (.threadFault ..) (.comp (.threadSend ..) (.waitRemote ..)))

theorem State.Keeps.strayDesc (s : State) (sl e : Nat) (run : Option Run) : s.Keeps (s.strayDesc sl e run) := by
  unfold State.strayDesc
  dsimp only
  split
  · exact .comp (.faultStage ..) (.report ..)
  · exact .report ..

theorem State.Keeps.unitWork {s v : State} {sl e t : Nat} {u : EngineUnit} {w : Nat} (h : s.unitWork sl e t u w = some v) : s.Keeps v := by
  unfold State.unitWork at h
  dsimp only at h
  split at h
  · cases h
  split at h
  · cases h
    exact .ite (.comp (.putReg ..) (.strayDesc ..)) (.strayDesc ..)
  have hread : s.Keeps (if u == .scoring || u == .topk || u == .capacity || u == .sorter then
      s.readFor sl ((s.sl sl).threadRun e t) ((engineAddr e ((s.thread sl e t).opA w).toNat, 32) :: s.unitReads sl e u w
        (leNat ((s.sl sl).load (engineAddr e ((s.thread sl e t).opA w).toNat) 32)) (((s.sl sl).threadRun e t).elim s.frame (·.frame))) else s) :=
    .ite (.readFor ..) (.refl _)
  split at h
  · cases h; exact .comp (.scoreWork ..) hread
  · cases h
    split
    · exact .comp (.topkWork ..) hread
    · exact .comp (.topkWork ..) hread
    · exact .comp (.topkLook ..) hread
    · exact hread
  · cases h
    split
    · exact .comp (.ite (.assignWork ..) (.comp (.settleMade ..) (.grantWork ..))) hread
    · exact hread
  · cases h; exact .comp (.putReg ..) (.comp (.settleMade ..) (.comp (.sortWork ..) hread))
  · split at h
    · cases h; exact hread
    · split at h
      · next hp => cases h; exact .comp (.putReg ..) (.comp (.packWork hp) hread)
      · cases h
  · cases h; exact .comp (.onSl _ _ fun _ h => h.store ..) (.comp (.engineRead ..) hread)
  · cases h; exact hread

theorem State.Keeps.grantUnit (s : State) (sl e t : Nat) (u : EngineUnit) (w : Nat) : s.Keeps (s.grantUnit sl e t u w).2 := by
  unfold State.grantUnit
  split
  · next h => exact .comp (.onSl _ _ fun _ h => h.onEngine _ fun _ hg => .update hg) (.unitWork h)
  · exact .threadFault ..

theorem State.Keeps.startUnit (s : State) (sl e t : Nat) (u : EngineUnit) (w : Nat) : s.Keeps (s.startUnit sl e t u w) := by
  unfold State.startUnit
  dsimp only
  exact .ite (.comp (.onSl _ _ fun _ h => .onEngine h _ fun _ hg => .update hg) (.blockThread ..)) (.comp (.grantUnit ..) (.blockThread ..))

theorem State.Keeps.grantWaiters (s : State) (sl e : Nat) (u : EngineUnit) (n : Nat) : s.Keeps (s.grantWaiters sl e u n) := by
  induction n generalizing s with
  | zero => exact .refl _
  | succ n ih =>
    unfold State.grantWaiters
    dsimp only
    split
    · exact .refl _
    · exact .comp (.ite (.refl _) (ih _)) (.comp (.grantUnit ..) (.onSl _ _ fun _ h => h.onEngine _ fun _ hg => .update hg))

theorem State.Lands.doScore (s : State) (sl : SliceId) (e : EngineId) (t : ThreadId) : s.Lands (s.doScore sl e t) := by
  unfold State.doScore
  exact .next (.issueThread _ _ _ _ _ fun _ _ _ => .startUnit ..)

theorem State.Lands.doTopk (s : State) (sl : SliceId) (e : EngineId) (t : ThreadId) : s.Lands (s.doTopk sl e t) := by
  unfold State.doTopk
  exact .next (.issueThread _ _ _ _ _ fun _ _ _ => .startUnit ..)

theorem State.Lands.execCapacityGrant (sl : SliceId) (e : EngineId) (t : ThreadId) (s : State) : s.Lands (execCapacityGrant sl e t s) := by
  unfold Machine.execCapacityGrant
  exact .next (.issueThread _ _ _ _ _ fun _ _ _ => .startUnit ..)

theorem State.Lands.execCapacityAssign (sl : SliceId) (e : EngineId) (t : ThreadId) (s : State) : s.Lands (execCapacityAssign sl e t s) := by
  unfold Machine.execCapacityAssign
  exact .next (.issueThread _ _ _ _ _ fun _ _ _ => .startUnit ..)

theorem State.Lands.execSort (sl : SliceId) (e : EngineId) (t : ThreadId) (s : State) : s.Lands (execSort sl e t s) := by
  unfold Machine.execSort
  exact .next (.issueThread _ _ _ _ _ fun _ _ _ => .startUnit ..)

theorem State.Lands.doPack (s : State) (sl : SliceId) (e : EngineId) (t : ThreadId) : s.Lands (s.doPack sl e t) := by
  unfold State.doPack
  exact .next (.issueThread _ _ _ _ _ fun _ _ _ => .startUnit ..)

theorem State.Lands.doDigest (s : State) (sl : SliceId) (e : EngineId) (t : ThreadId) : s.Lands (s.doDigest sl e t) := by
  unfold State.doDigest
  dsimp only
  exact .next (.issueThread _ _ _ _ _ fun _ _ _ => .ite (.threadFault ..) (.ite (.threadFault ..) (.startUnit ..)))

theorem State.Lands.doSend (s : State) (sl : SliceId) (e : EngineId) (t : ThreadId) : s.Lands (s.doSend sl e t) := by
  unfold State.doSend
  dsimp only
  refine .next ?_
  refine .issueThread _ _ _ _ _ fun _ _ _ => ?_
  split
  · refine .ite (.threadFault ..) ?_
    refine .ite ?_ (.comp (.onSl _ _ fun _ h => .update h rfl rfl rfl) (.comp (.onThread _ _ _ _ fun _ hk => .update hk) (.readFor ..)))
    split
    · exact .comp (.onSl _ _ fun _ h => .update h rfl rfl rfl) (.comp (.onThread _ _ _ _ fun _ hk => .update hk) (.readFor ..))
    · exact .comp (.injectMarked ..) (.comp (.onSl _ _ fun _ h => .update h rfl rfl rfl) (.comp (.onThread _ _ _ _ fun _ hk => .update hk) (.readFor
        ..)))
  · exact .threadFault ..

theorem State.Lands.execRecv (sl : SliceId) (e : EngineId) (t : ThreadId) (s : State) : s.Lands (execRecv sl e t s) := by
  unfold Machine.execRecv
  exact .next (.issueThread _ _ _ _ _ fun _ _ _ => .blockThread ..)

theorem State.Lands.execAlloc (sl : SliceId) (e : EngineId) (t : ThreadId) (s : State) : s.Lands (execAlloc sl e t s) := by
  unfold Machine.execAlloc
  dsimp only
  refine .next ?_
  refine .issueThread _ _ _ _ _ fun _ _ _ => ?_
  split
  · exact .threadFault ..
  · split
    · exact .comp (.putReg ..) (.comp (.onSl _ _ fun _ h => .update h rfl rfl rfl) (.ite (.refl _) (.engineRead ..)))
    · exact .comp (.threadFault ..) (.comp (.onSl _ _ fun _ h => .update h rfl rfl rfl) (.ite (.refl _) (.engineRead ..)))
    · exact .ite (.comp (.putReg ..) (.comp (.onSl _ _ fun _ h => .update h rfl rfl rfl) (.ite (.refl _) (.engineRead ..)))) (.comp (.ite
        (.threadFault ..) (.comp (.onSl _ _ fun _ h => .update h rfl rfl rfl) (.blockThread ..))) (.comp (.onSl _ _ fun _ h => .update h rfl rfl rfl)
        (.ite (.refl _) (.engineRead ..))))

theorem State.Lands.execDone (sl : SliceId) (e : EngineId) (t : ThreadId) (s : State) : s.Lands (execDone sl e t s) := by
  unfold Machine.execDone
  exact .next (.issueThread _ _ _ _ _ fun _ _ _ => .ite (.doneFree ..) (.threadFault ..))

theorem State.Lands.execFree (sl : SliceId) (e : EngineId) (t : ThreadId) (s : State) : s.Lands (execFree sl e t s) := by
  unfold Machine.execFree
  dsimp only
  exact .next (.issueThread _ _ _ _ _ fun _ _ _ => .ite (.comp (.putPred ..) (.doneFree ..)) (.threadFault ..))

theorem State.Lands.execWaitDrip (sl : SliceId) (e : EngineId) (t : ThreadId) (s : State) : s.Lands (execWaitDrip sl e t s) := by
  unfold Machine.execWaitDrip
  dsimp only
  refine .next ?_
  refine .issueThread _ _ _ _ _ fun _ _ _ => ?_
  refine .ite (.blockThread ..) ?_
  refine .ite ?_ (.onSl _ _ fun _ h => .update h rfl rfl rfl)
  split
  · exact .comp (.onSl _ _ fun _ h => .setRun h ..) (.blockThread ..)
  · exact .blockThread ..

theorem State.Lands.execWaitDripWake (sl : SliceId) (e : EngineId) (t : ThreadId) (s : State) : s.Lands (execWaitDripWake sl e t s) := by
  unfold Machine.execWaitDripWake
  dsimp only
  split
  · exact .ite (.next (.refl _)) (.next (.onThread _ _ _ _ fun _ hk => .wake hk ..))
  · exact .next (.refl _)

theorem State.Lands.execFenceLocal (sl : SliceId) (e : EngineId) (t : ThreadId) (s : State) : s.Lands (execFenceLocal sl e t s) := by
  unfold Machine.execFenceLocal
  exact .next (.issueThread _ _ _ _ _ fun _ _ _ => .refl _)

theorem State.Lands.execFenceMark (sl : SliceId) (e : EngineId) (t : ThreadId) (s : State) : s.Lands (execFenceMark sl e t s) := by
  unfold Machine.execFenceMark
  dsimp only
  exact .next (.issueThread _ _ _ _ _ fun _ _ _ => .onThread _ _ _ _ fun _ hk => .update hk)

theorem State.Lands.execFenceDrain (sl : SliceId) (e : EngineId) (t : ThreadId) (s : State) : s.Lands (execFenceDrain sl e t s) := by
  unfold Machine.execFenceDrain
  exact .next (.issueThread _ _ _ _ _ fun _ _ _ => .ite (.blockThread ..) (.comp (.onThread _ _ _ _ fun _ hk => .update hk) (.blockThread ..)))

theorem State.Lands.execThreadYield (sl : SliceId) (e : EngineId) (s : State) : s.Lands (execThreadYield sl e s) := by
  unfold Machine.execThreadYield
  dsimp only
  split
  · exact .ite (.next (.blockThread ..)) (.next (.refl _))
  · exact .next (.refl _)

theorem State.Lands.doUnitComplete (s : State) (sl : SliceId) (e : EngineId) (u : EngineUnit) : s.Lands (s.doUnitComplete sl e u) := by
  unfold State.doUnitComplete
  dsimp only
  split
  · exact .next (.refl _)
  · refine .ite (.next (.refl _)) ?_
    refine .ite ?_ (.next (.comp (.grantWaiters ..) (.onSl _ _ fun _ h => .onEngine h _ fun _ hg => .ite (.onThread (.update hg) _ fun _ hk => .wake
        hk ..) (.update hg))))
    refine .next ?_
    split
    · exact .ite (.onSl _ _ fun _ h => .setRun h ..) (.refl _)
    · exact .refl _

theorem State.Lands.execRangePrefetch (sl : SliceId) (i : Nat) (s : State) : s.Lands (execRangePrefetch sl i s) := by
  unfold Machine.execRangePrefetch
  dsimp only
  split
  · exact .next (.refl _)
  · next ht =>
      exact .ite (.ite (.next (.comp (.onSl _ _ fun _ h => .completeRun (.update h rfl rfl rfl) ..) (.actingRun ht))) (.next (.comp (.endTied ..)
          (.comp (.onSl _ _ fun _ h => .update h rfl rfl rfl) (.actingRun ht))))) (.next (.comp (.foldl (fun _ _ => .sendMsg ..) _ _) (.comp (.onSl _
          _ fun _ h => .update h rfl rfl rfl) (.actingRun ht))))

end Sys2Proof.Machine
end

section
/-! Every function of Machine/Tiers keeps the queue and the shape of the device. -/

namespace Sys2Proof.Machine

theorem State.Lands.execSumpTileArrival (sl : SliceId) (layer : Nat) (r : SlotRef) (tile : Nat) (data : SumpData) (tag : Bytes) (s : State) : s.Lands
    (execSumpTileArrival sl layer r tile data tag s) := by
  unfold Machine.execSumpTileArrival
  dsimp only
  split
  · exact .ite (.next (.refl _)) (.ite (.next (.comp (.failFetch ..) (.onSl _ _ fun _ h => .update h rfl rfl rfl))) (.ite (.next (.onSl _ _ fun _ h =>
      .update (.store h ..) rfl rfl rfl)) (.next (.failFetch ..))))
  · exact .next (.refl _)

theorem State.Lands.execFetchComplete (sl : SliceId) (layer : Nat) (r : SlotRef) (s : State) : s.Lands (execFetchComplete sl layer r s) := by
  unfold Machine.execFetchComplete
  dsimp only
  split
  · exact .next (.refl _)
  · refine .next ?_
    refine .onSl _ _ fun _ h => ?_
    split
    · exact .update h rfl rfl rfl
    · refine .ite (.update h rfl rfl rfl) ?_
      split
      · exact .completeRun (.update h rfl rfl rfl) ..
      · exact .update h rfl rfl rfl

theorem State.Lands.execPrefetchStage (sl : SliceId) (i : Nat) (s : State) : s.Lands (execPrefetchStage sl i s) := by
  unfold Machine.execPrefetchStage
  dsimp only
  split
  · exact .next (.refl _)
  · next ht =>
      refine .next ?_
      refine .comp (.ite (.onSl _ _ fun _ h => .completeRun h ..) (.refl _)) ?_
      refine .comp (.foldl_snd (fun _ _ => ?_) _ _) (.actingRun ht)
      split
      · split
        · exact .startFetch ..
        · exact .refl _
      · exact .refl _

theorem State.Lands.execViewStage (sl : SliceId) (i : Nat) (s : State) : s.Lands (execViewStage sl i s) := by
  unfold Machine.execViewStage
  dsimp only
  split
  · exact .next (.refl _)
  · next ht =>
      exact .next (.comp (.onSl _ _ fun _ h => .completeRun h ..) (.comp (.foldl (fun _ _ => .sendRecord ..) _ _) (.comp (.onSl _ _ fun _ h => .update
          h rfl rfl rfl) (.comp (.onSl _ _ fun _ h => .ite (.onRes h ..) h) (.actingRun ht)))))

theorem State.Lands.execFrameRelease (sl : SliceId) (frame : Nat) (s : State) : s.Lands (execFrameRelease sl frame s) := by
  unfold Machine.execFrameRelease
  dsimp only
  exact .ite (.next (.refl _)) (.next (.onSl _ _ fun _ h => .update h rfl rfl rfl))

theorem State.Lands.execWindowOpen (sl : SliceId) (i : Nat) (s : State) : s.Lands (execWindowOpen sl i s) := by
  unfold Machine.execWindowOpen
  dsimp only
  split
  · exact .next (.refl _)
  · next ht =>
      exact .next (.comp (.onSl _ _ fun _ h => .completeRun (.update h rfl rfl rfl) ..) (.actingRun ht))

theorem State.Keeps.recordTile (s : State) (sl : Nat) (t : Nat × Nat) : s.Keeps (s.recordTile sl t) := by
  unfold State.recordTile
  dsimp only
  exact .ite (.update rfl rfl rfl rfl) (.report ..)

theorem State.Keeps.keepManifest (s : State) : s.Keeps s.keepManifest := by
  unfold State.keepManifest
  split
  · split
    · exact .onSl _ _ fun _ h => .store h ..
    · exact .refl _
  · exact .refl _

theorem State.Lands.execWindowClose (sl : SliceId) (i : Nat) (s : State) : s.Lands (execWindowClose sl i s) := by
  unfold Machine.execWindowClose
  dsimp only
  split
  · exact .next (.refl _)
  · next ht =>
      exact .ite (.next (.comp (.onSl _ _ fun _ h => .setRun h ..) (.actingRun ht))) (.next (.comp (.keepManifest ..) (.comp (.update rfl rfl rfl rfl)
          (.comp (.onSl _ _ fun _ h => .completeRun (.update h rfl rfl rfl) ..) (.comp (.foldl (fun _ _ => .recordTile ..) _ _) (.actingRun ht))))))

theorem State.Keeps.uncorrectable (s : State) (sl w : Nat) : s.Keeps (s.uncorrectable sl w) := by
  unfold State.uncorrectable
  dsimp only
  exact .comp (.retireRow ..) (.comp (.onSl _ _ fun _ h => .update (.onRes h ..) rfl rfl rfl) (.comp (.report ..) (.onSl _ _ fun _ h => .update
      (.poisonRange h ..) rfl rfl rfl)))

theorem State.Keeps.findBad (s : State) (sl : Nat) (ws : List Nat) : s.Keeps (s.findBad sl ws) := by
  unfold State.findBad
  refine .foldl (fun _ _ => ?_) _ _
  refine .ite (.refl _) ?_
  split
  · exact .uncorrectable ..
  · exact .comp (.report ..) (.onSl _ _ fun _ h => .poisonRange h ..)
  · exact .comp (.report ..) (.onSl _ _ fun _ h => .poisonRange h ..)
  · exact .comp (.report ..) (.onSl _ _ fun _ h => .poisonRange h ..)
  · exact .refl _

theorem State.Lands.execWload (sl : Reads SliceId) (q : QuadId) (s : State) : s.Lands (execWload sl q s) := by
  unfold Machine.execWload
  exact .comp (.wload ..) (.findBad ..)

theorem State.Lands.execStream (sl : Reads SliceId) (q : QuadId) (s : State) : s.Lands (execStream sl q s) := by
  unfold Machine.execStream
  exact .comp (.stream ..) (.findBad ..)

theorem State.Lands.execDrain (sl : Reads SliceId) (q : QuadId) (s : State) : s.Lands (execDrain sl q s) := by
  unfold Machine.execDrain
  exact .comp (.drain ..) (.findBad ..)

theorem State.Lands.execLd (sl : Reads SliceId) (e : EngineId) (t : ThreadId) (s : State) : s.Lands (execLd sl e t s) := by
  unfold Machine.execLd
  exact .comp (.doLd ..) (.findBad ..)

theorem State.Lands.execSend (sl : Reads SliceId) (e : EngineId) (t : ThreadId) (s : State) : s.Lands (execSend sl e t s) := by
  unfold Machine.execSend
  exact .comp (.doSend ..) (.findBad ..)

theorem State.Lands.execCombineComplete (sl : Reads SliceId) (i : Nat) (s : State) : s.Lands (execCombineComplete sl i s) := by
  unfold Machine.execCombineComplete
  exact .comp (.doCombineComplete ..) (.findBad ..)

theorem State.Lands.execPanelLanded (sl : Reads SliceId) (e : EngineId) (layer panel : Nat) (s : State) : s.Lands (execPanelLanded sl e layer panel s)
    := by
  unfold Machine.execPanelLanded
  exact .comp (.doPanelLanded ..) (.findBad ..)

theorem State.Lands.execPack (sl : Reads SliceId) (e : EngineId) (t : ThreadId) (s : State) : s.Lands (execPack sl e t s) := by
  unfold Machine.execPack
  exact .comp (.doPack ..) (.findBad ..)

theorem State.Lands.execScore (sl : Reads SliceId) (e : EngineId) (t : ThreadId) (s : State) : s.Lands (execScore sl e t s) := by
  unfold Machine.execScore
  exact .comp (.doScore ..) (.findBad ..)

theorem State.Lands.execTopk (sl : Reads SliceId) (e : EngineId) (t : ThreadId) (s : State) : s.Lands (execTopk sl e t s) := by
  unfold Machine.execTopk
  exact .comp (.doTopk ..) (.findBad ..)

theorem State.Lands.execDigest (sl : Reads SliceId) (e : EngineId) (t : ThreadId) (s : State) : s.Lands (execDigest sl e t s) := by
  unfold Machine.execDigest
  exact .comp (.doDigest ..) (.findBad ..)

theorem State.Lands.execXcopyPut (sl : Reads SliceId) (e : EngineId) (t : ThreadId) (s : State) : s.Lands (execXcopyPut sl e t s) := by
  unfold Machine.execXcopyPut
  exact .comp (.doXcopyPut ..) (.findBad ..)

theorem State.Lands.execUnitComplete (sl : Reads SliceId) (e : EngineId) (u : EngineUnit) (s : State) : s.Lands (execUnitComplete sl e u s) := by
  unfold Machine.execUnitComplete
  exact .comp (.doUnitComplete ..) (.findBad ..)

theorem State.Keeps.corrected (s : State) (sl w : Nat) : s.Keeps (s.corrected sl w) := by
  unfold State.corrected
  dsimp only
  exact .comp (.ite (.retirePch ..) (.refl _)) (.comp (.ite (.retireRow ..) (.refl _)) (.onSl _ _ fun _ h => .update h rfl rfl rfl))

theorem State.Keeps.scrubDue (s : State) (sl : Nat) : s.Keeps (s.scrubDue sl) := by
  unfold State.scrubDue
  dsimp only
  exact .ite (.onSl _ _ fun _ h => .update h rfl rfl rfl) (.ite (.comp (.report ..) (.onSl _ _ fun _ h => .update h rfl rfl rfl)) (.refl _))

theorem State.Lands.execPatrolScrub (sl : SliceId) (corrected uncorrectable : List Nat) (s : State) : s.Lands (execPatrolScrub sl corrected
    uncorrectable s) := by
  unfold Machine.execPatrolScrub
  dsimp only
  exact .next (.comp (.onSl _ _ fun _ h => .update h rfl rfl rfl) (.comp (.scrubDue ..) (.comp (.foldl (fun _ _ => .uncorrectable ..) _ _) (.foldl
      (fun _ _ => .corrected ..) _ _))))

theorem State.Lands.execHbmRetrain (sl : SliceId) (stack : Fin 4) (s : State) : s.Lands (execHbmRetrain sl stack s) := by
  unfold Machine.execHbmRetrain
  dsimp only
  exact .ite (.next (.refl _)) (.next (.onSl _ _ fun _ h => .update h rfl rfl rfl))

end Sys2Proof.Machine
end

section
/-! Every function of Machine/Collective keeps the queue and the shape of the device. -/

namespace Sys2Proof.Machine

theorem State.Keeps.sendChunk (s : State) (sl : Nat) (c : CollStep) (dst : Place) (msg : Bytes) : s.Keeps (s.sendChunk sl c dst msg) := by
  unfold State.sendChunk
  exact .sendMsg ..

theorem State.Keeps.onStep (s : State) (sl : Nat) (c : CollStep) (f : CollStep → CollStep) : s.Keeps (s.onStep sl c f) := by
  unfold State.onStep
  dsimp only
  exact .onSl _ _ fun _ h => .update h rfl rfl rfl

theorem SliceState.ok.raise {x : SliceState} (h : x.ok) (c : CollStep) (st : Nat) : (x.raise c st).ok := by
  unfold SliceState.raise
  dsimp only
  exact .update h rfl rfl rfl

theorem State.Keeps.pullAll (s : State) (sl : Nat) (c0 : CollStep) (again : Bool) : s.Keeps (s.pullAll sl c0 again) := by
  unfold State.pullAll
  dsimp only
  exact .foldl (fun _ _ => .ite (.refl _) (.comp (.sendChunk ..) (.onStep ..))) _ _

theorem State.Keeps.endColl (s : State) (sl : Nat) (c : CollStep) (st : Status) : s.Keeps (s.endColl sl c st) := by
  unfold State.endColl
  refine .ite (.endCtxNext ..) ?_
  split
  · exact .endTied ..
  · exact .refl _

theorem State.Keeps.takeResultBytes (s : State) (sl : Nat) (c0 : CollStep) (k : Nat) (b : Bytes) (sat : Nat) (nonfinite : Bool) : s.Keeps
    (s.takeResultBytes sl c0 k b sat nonfinite) := by
  unfold State.takeResultBytes
  dsimp only
  exact .comp (.foldl (fun _ _ => .comp (.sendChunk ..) (.onStep ..)) _ _) (.comp (.onStep ..) (.ite (.refl _) (.ite (.comp (.endColl ..) (.report
      ..)) (.onSl _ _ fun _ h => .update (.store h ..) rfl rfl rfl))))

theorem State.Keeps.formSums (s : State) (sl : Nat) (c : CollStep) (n : Nat) : s.Keeps (s.formSums sl c n) := by
  induction n generalizing s c with
  | zero => exact .refl _
  | succ n ih =>
    unfold State.formSums
    dsimp only
    refine .ite (.refl _) ?_
    have hstep : ∀ (b : Bool) (c d : CollStep) (f : CollStep → CollStep),
        s.Keeps ((s.onStep sl c f).onSl sl fun x => if b then x.raise d 0x1A else x) := fun b c d f =>
      .comp (.onSl _ _ fun _ h => by split; exacts [h.raise .., h]) (.onStep ..)
    split
    · exact .comp (ih ..) (.comp (.onStep ..) (hstep ..))
    · exact .comp (ih ..) (.comp (.takeResultBytes ..) (hstep ..))

theorem State.Keeps.sendSum (s : State) (sl : Nat) (c0 : CollStep) : s.Keeps (s.sendSum sl c0) := by
  unfold State.sendSum
  dsimp only
  split
  · exact .comp (.sendChunk ..) (.comp (.onSl _ _ fun _ h => .update h rfl rfl rfl) (.onStep ..))
  · exact .refl _

theorem State.Keeps.consumeSum (s : State) (sl : Nat) (c : CollStep) (src : Place) (n : Nat) (payload : Bytes) : s.Keeps (s.consumeSum sl c src n
    payload) := by
  unfold State.consumeSum
  dsimp only
  exact .comp (.pullAll ..) (.comp (.formSums ..) (.comp (.onSl _ _ fun _ h => .raise h ..) (.onStep ..)))

theorem State.Keeps.applyPull (s : State) (sl : Nat) (c : CollStep) (first limit : Nat) : s.Keeps (s.applyPull sl c first limit) := by
  unfold State.applyPull
  exact .comp (.pullAll ..) (.comp (.formSums ..) (.onStep ..))

theorem State.Keeps.discardChunk (s : State) (sl : Nat) (record : Bool) : s.Keeps (s.discardChunk sl record) := by
  unfold State.discardChunk
  dsimp only
  exact .comp (.ite (.report ..) (.refl _)) (.onSl _ _ fun _ h => .update h rfl rfl rfl)

theorem State.Keeps.park (s : State) (sl : Nat) (src : Place) (msg : Bytes) : s.Keeps (s.park sl src msg) := by
  unfold State.park
  dsimp only
  split
  · exact .onSl _ _ fun _ h => .update (.store (.update h rfl rfl rfl) ..) rfl rfl rfl
  · exact .onSl _ _ fun _ h => .update h rfl rfl rfl

theorem State.Keeps.takeChunk (s : State) (sl : Nat) (src : Place) (msg : Bytes) : s.Keeps (s.takeChunk sl src msg) := by
  unfold State.takeChunk
  dsimp only
  split
  · exact .discardChunk ..
  · refine .ite (.discardChunk ..) ?_
    split
    · exact .ite (.ite (.consumeSum ..) (.discardChunk ..)) (.ite (.comp (.takeResultBytes ..) (.onSl _ _ fun _ h => .raise h ..)) (.discardChunk ..))
    · refine .ite (.park ..) ?_
      refine .ite (.discardChunk ..) ?_
      split
      · exact .discardChunk ..
      · exact .discardChunk ..

theorem State.Keeps.takePull (s : State) (sl : Nat) (src : Place) (msg : Bytes) : s.Keeps (s.takePull sl src msg) := by
  unfold State.takePull
  dsimp only
  split
  · exact .foldl (fun _ _ => .applyPull ..) _ _
  · exact .ite (.foldl (fun _ _ => .applyPull ..) _ _) (.comp (.ite (.refl _) (.onSl _ _ fun _ h => .update h rfl rfl rfl)) (.foldl (fun _ _ =>
      .applyPull ..) _ _))

theorem State.Keeps.collReceive (s : State) (sl : Nat) (src : Place) (msg : Bytes) : s.Keeps (s.collReceive sl src msg) := by
  unfold State.collReceive
  split
  · exact .takePull ..
  · exact .takeChunk ..
  · exact .takeChunk ..
  · exact .discardChunk ..

theorem SliceState.ok.unpark {x : SliceState} (h : x.ok) (p : Nat → Bool) : (x.unpark p).ok := by
  unfold SliceState.unpark
  dsimp only
  exact .update h rfl rfl rfl

theorem State.Keeps.endInstance (s : State) (sl coll : Nat) (frame : Drip) (code : Status) (given : Drip) (found : Option Drip) : s.Keeps
    (s.endInstance sl coll frame code given found) := by
  unfold State.endInstance
  dsimp only
  refine .ite (.refl _) ?_
  refine .comp (.foldl (fun _ _ => .endTied ..) _ _) ?_
  refine .onSl _ _ fun _ h => ?_
  refine .update ?_ rfl rfl rfl
  refine .unpark ?_ ..
  refine .foldl (fun _ _ h => ?_) _ h
  split
  · exact .endRun h ..
  · exact h

theorem State.Lands.execCollectiveStep (sl : SliceId) (i : Nat) (s : State) : s.Lands (execCollectiveStep sl i s) := by
  unfold Machine.execCollectiveStep
  dsimp only
  split
  · exact .next (.refl _)
  · next ht =>
      split
      · exact .next (.comp (.onSl _ _ fun _ h => .endRun h ..) (.actingRun ht))
      · exact .ite (.next (.comp (.onSl _ _ fun _ h => .unpark (.endRun h ..) ..) (.actingRun ht))) (.ite (.next (.comp (.endInstance ..) (.comp
          (.onSl _ _ fun _ h => .unpark (.endRun h ..) ..) (.actingRun ht)))) (.next (.comp (.sendSum ..) (.comp (.pullAll ..) (.comp (.formSums ..)
          (.comp (.foldl (fun _ _ => .applyPull ..) _ _) (.comp (.onSl _ _ fun _ h => .update h rfl rfl rfl) (.comp (.foldl (fun _ _ => .ite
          (.discardChunk ..) (.comp (.onSl _ _ fun _ h => .raise h ..) (.onStep ..))) _ _) (.comp (.onSl _ _ fun _ h => .unpark h ..) (.comp (.onSl _
          _ fun _ h => .raise (.update h rfl rfl rfl) ..) (.actingRun ht)))))))))))

theorem State.Lands.execSumChunk (sl : SliceId) (src : Place) (msg : Bytes) (s : State) : s.Lands (execSumChunk sl src msg s) := by
  unfold Machine.execSumChunk
  exact .next (.takeChunk ..)

theorem State.Lands.execResultChunk (sl : SliceId) (src : Place) (msg : Bytes) (s : State) : s.Lands (execResultChunk sl src msg s) := by
  unfold Machine.execResultChunk
  exact .next (.takeChunk ..)

theorem State.Lands.execPull (sl : SliceId) (src : Place) (msg : Bytes) (s : State) : s.Lands (execPull sl src msg s) := by
  unfold Machine.execPull
  exact .next (.takePull ..)

theorem State.Lands.execPullRepeat (sl : SliceId) (i : Nat) (s : State) : s.Lands (execPullRepeat sl i s) := by
  unfold Machine.execPullRepeat
  split
  · exact .next (.refl _)
  · exact .next (.ite (.pullAll ..) (.refl _))

theorem State.Lands.execChunkSend (sl : SliceId) (i : Nat) (s : State) : s.Lands (execChunkSend sl i s) := by
  unfold Machine.execChunkSend
  split
  · exact .next (.refl _)
  · exact .next (.comp (.pullAll ..) (.comp (.sendSum ..) (.formSums ..)))

theorem State.Lands.execCollectiveStepComplete (sl : SliceId) (i : Nat) (s : State) : s.Lands (execCollectiveStepComplete sl i s) := by
  unfold Machine.execCollectiveStepComplete
  dsimp only
  split
  · exact .next (.refl _)
  · refine .ite (.next (.refl _)) ?_
    refine .next ?_
    refine .comp (.ite (.refl _) (.endColl ..)) ?_
    refine .comp (.onSl _ _ fun _ h => ?_) (.onStep ..)
    split
    · exact .completeRun (.update h rfl rfl rfl) ..
    · exact .update h rfl rfl rfl

theorem State.Lands.execMembershipEpoch (s : State) : s.Lands (execMembershipEpoch s) := by
  unfold Machine.execMembershipEpoch
  dsimp only
  split
  · exact .next (.refl _)
  · exact .ite (.next (.refl _)) (.next (.comp (.update rfl rfl rfl rfl) (.onAll _ fun _ h => .update h rfl rfl rfl)))

end Sys2Proof.Machine
end

section
/-! Every function of Machine/Remote keeps the queue and the shape of the device. -/

namespace Sys2Proof.Machine

theorem State.Keeps.settleMsg (s : State) (sl : Nat) (p : Packet) (op opmod : Nat) (payload : Bytes) : s.Keeps (s.settleMsg sl p op opmod payload) :=
    by
  unfold State.settleMsg
  dsimp only
  exact .comp (.ite (.onSl _ _ fun _ h => .update h rfl rfl rfl) (.refl _)) (.completeMsg ..)

theorem State.Keeps.answerAgain (s : State) (sl : Nat) (p ans : Packet) : s.Keeps (s.answerAgain sl p ans) := by
  unfold State.answerAgain
  exact .sendAnswer ..

theorem State.Keeps.noteRefusal (s : State) (sl : Nat) (p : Packet) (off step : Nat) : s.Keeps (s.noteRefusal sl p off step) := by
  unfold State.noteRefusal
  dsimp only
  exact .ite (.onSl _ _ fun _ h => .update h rfl rfl rfl) (.ite (.refl _) (.comp (.ite (.refl _) (.onSl _ _ fun _ h => .update h rfl rfl rfl))
      (.report ..)))

theorem State.Keeps.putMsg (s : State) (sl : Nat) (p : Packet) (m : OpenMsg) : s.Keeps (s.putMsg sl p m) := by
  unfold State.putMsg
  exact .onSl _ _ fun _ h => .setDstFlow h ..

theorem State.Keeps.refusePacket (s : State) (sl : Nat) (p : Packet) (m : OpenMsg) (reason off step : Nat) : s.Keeps (s.refusePacket sl p m reason off
    step) := by
  unfold State.refusePacket
  dsimp only
  exact .ite (.comp (.putMsg ..) (.noteRefusal ..)) (.comp (.ite (.completeMsg ..) (.settleMsg ..)) (.comp (.putMsg ..) (.noteRefusal ..)))

theorem State.Keeps.consume (s : State) (sl : Nat) (a : Arrival) (p : Packet) (m : OpenMsg) (entry : Option Nat) : s.Keeps (s.consume sl a p m entry)
    := by
  unfold State.consume
  dsimp only
  exact .ite (.comp (.ite (.comp (.settleMsg ..) (.exchangeReceive ..)) (.refl _)) (.putMsg ..)) (.ite (.comp (.ite (.comp (.settleMsg ..)
      (.collReceive ..)) (.refl _)) (.putMsg ..)) (.ite (.ite (.comp (.sendAnswer ..) (.putMsg ..)) (.comp (.ite (.settleMsg ..) (.refl _)) (.putMsg
      ..))) (.comp (.onSl _ _ fun _ h => .update h rfl rfl rfl) (.putMsg ..))))

theorem State.Keeps.deliver (s : State) (sl : Nat) (a : Arrival) (p : Packet) : s.Keeps (s.deliver sl a p) := by
  unfold State.deliver
  dsimp only
  split
  · exact .comp (.ite (.completeMsg ..) (.refl _)) (.comp (.putMsg ..) (.onSl _ _ fun _ h => .setDstFlow h ..))
  · split
    · exact .comp (.refusePacket ..) (.comp (.putMsg ..) (.onSl _ _ fun _ h => .setDstFlow h ..))
    · refine .ite ?_ ?_
      · split
        · split
          · exact .comp (.refusePacket ..) (.comp (.onSl _ _ fun _ h => .update h rfl rfl rfl) (.comp (.putMsg ..) (.onSl _ _ fun _ h => .setDstFlow h
              ..)))
          · exact .comp (.consume ..) (.comp (.onSl _ _ fun _ h => .update h rfl rfl rfl) (.comp (.putMsg ..) (.onSl _ _ fun _ h => .setDstFlow h
              ..)))
        · exact .comp (.onSl _ _ fun _ h => .update h rfl rfl rfl) (.onSl _ _ fun _ h => .setDstFlow h ..)
        · exact .comp (.sendAnswer ..) (.onSl _ _ fun _ h => .update h rfl rfl rfl)
        · exact .comp (.completeMsg ..) (.comp (.onSl _ _ fun _ h => .update h rfl rfl rfl) (.comp (.putMsg ..) (.onSl _ _ fun _ h => .setDstFlow h
            ..)))
        · exact .comp (.answerAgain ..) (.comp (.onSl _ _ fun _ h => .update h rfl rfl rfl) (.onSl _ _ fun _ h => .setDstFlow h ..))
      · split
        · exact .comp (.refusePacket ..) (.comp (.putMsg ..) (.onSl _ _ fun _ h => .setDstFlow h ..))
        · exact .comp (.consume ..) (.comp (.putMsg ..) (.onSl _ _ fun _ h => .setDstFlow h ..))

theorem State.Keeps.hold (s : State) (sl : Nat) (a : Arrival) (p : Packet) : s.Keeps (s.hold sl a p) := by
  unfold State.hold
  dsimp only
  refine .ite (.refl _) ?_
  split
  · exact .comp (.onSl _ _ fun _ h => .setDstFlow (.store (.update h rfl rfl rfl) ..) ..) (.takeIngress ..)
  · exact .onSl _ _ fun _ h => .update h rfl rfl rfl

theorem SliceState.ok.freeHeld {x : SliceState} (h : x.ok) (n : Nat) : (x.freeHeld n).ok := by
  unfold SliceState.freeHeld
  split
  · exact .update h rfl rfl rfl
  · exact h

theorem State.Keeps.deliverHeld (s : State) (sl : Nat) (src : Place) (group : Option Nat) (n : Nat) : s.Keeps (s.deliverHeld sl src group n) := by
  induction n generalizing s with
  | zero => exact .refl _
  | succ n ih =>
    unfold State.deliverHeld
    dsimp only
    refine .ite (.refl _) ?_
    split
    · exact .refl _
    · exact .comp (ih _) (.comp (.deliver ..) (.onSl _ _ fun _ h => .setDstFlow (.freeHeld h _) _))

theorem State.Keeps.refuseStray (s : State) (sl : Nat) (a : Arrival) (p : Packet) : s.Keeps (s.refuseStray sl a p) := by
  unfold State.refuseStray
  dsimp only
  exact .ite (.putMsg ..) (.refl _)

theorem State.Keeps.takeReq (s : State) (sl : Nat) (a : Arrival) (p : Packet) : s.Keeps (s.takeReq sl a p) := by
  unfold State.takeReq
  dsimp only
  refine .ite (.comp (.routerDiscard ..) (.takeIngress ..)) ?_
  refine .ite (.comp (.sendAnswer ..) (.takeIngress ..)) ?_
  refine .ite (.comp (.ite (.sendAnswer ..) (.refl _)) (.takeIngress ..)) ?_
  refine .ite (.takeIngress ..) ?_
  split
  · exact .comp (.answerAgain ..) (.takeIngress ..)
  · exact .ite (.ite (.comp (.deliver ..) (.comp (.takeIngress ..) (.refuseStray ..))) (.takeIngress ..)) (.ite (.takeIngress ..) (.ite (.refl _)
      (.comp (.ite (.comp (.deliverHeld ..) (.comp (.deliver ..) (.takeIngress ..))) (.hold ..)) (.refuseStray ..))))

theorem State.Keeps.receiveReq (s : State) (sl : Nat) (a : Arrival) (p : Packet) : s.Keeps (s.receiveReq sl a p) := by
  unfold State.receiveReq
  dsimp only
  exact .ite (.takeReq ..) (.refl _)

theorem State.Keeps.unicastReq (s : State) (sl : Nat) (a : Arrival) (p : Packet) (op : Nat) : s.Keeps (s.unicastReq sl a p op) := by
  unfold State.unicastReq
  exact .ite (.receiveReq ..) (.refl _)

theorem SliceState.ok.noteWritten {x : SliceState} (h : x.ok) (a n : Nat) : (x.noteWritten a n).ok := by
  unfold SliceState.noteWritten
  dsimp only
  exact .ite (.update h rfl rfl rfl) h

theorem State.Keeps.refuseApply (s : State) (sl : Nat) (p : Packet) (m : OpenMsg) (reason off step : Nat) : s.Keeps (s.refuseApply sl p m reason off
    step) := by
  unfold State.refuseApply
  dsimp only
  exact .comp (.refusePacket ..) (.onSl _ _ fun _ h => .update h rfl rfl rfl)

theorem State.Keeps.applyOp (s : State) (sl : Nat) (o : ApplyItem) : s.Keeps (s.applyOp sl o) := by
  unfold State.applyOp
  dsimp only
  exact .ite (.refuseApply ..) (.ite (.refuseApply ..) (.ite (.settleMsg ..) (.ite (.comp (.ite (.settleMsg ..) (.refl _)) (.onSl _ _ fun _ h =>
      .noteWritten (.store h ..) ..)) (.ite (.comp (.settleMsg ..) (.onSl _ _ fun _ h => .store h ..)) (.ite (.comp (.settleMsg ..) (.onSl _ _ fun _ h
      => .store h ..)) (.comp (.settleMsg ..) (.ite (.onSl _ _ fun _ h => .store h ..) (.refl _))))))))

theorem State.Keeps.deliverAllHeld (s : State) (sl : Nat) : s.Keeps (s.deliverAllHeld sl) := by
  unfold State.deliverAllHeld
  exact .foldl (fun _ _ => .ite (.refl _) (.deliverHeld ..)) _ _

theorem State.Lands.execRead (sl : SliceId) (a : Arrival) (p : Packet) (s : State) : s.Lands (execRead sl a p s) := by
  unfold Machine.execRead
  exact .next (.unicastReq ..)

theorem State.Lands.execWrite (sl : SliceId) (a : Arrival) (p : Packet) (s : State) : s.Lands (execWrite sl a p s) := by
  unfold Machine.execWrite
  exact .next (.unicastReq ..)

theorem State.Lands.execReduce (sl : SliceId) (a : Arrival) (p : Packet) (s : State) : s.Lands (execReduce sl a p s) := by
  unfold Machine.execReduce
  exact .next (.unicastReq ..)

theorem State.Lands.execAtomicFadd (sl : SliceId) (a : Arrival) (p : Packet) (s : State) : s.Lands (execAtomicFadd sl a p s) := by
  unfold Machine.execAtomicFadd
  exact .next (.unicastReq ..)

theorem State.Lands.execAtomicCas (sl : SliceId) (a : Arrival) (p : Packet) (s : State) : s.Lands (execAtomicCas sl a p s) := by
  unfold Machine.execAtomicCas
  exact .next (.unicastReq ..)

theorem State.Lands.execMcastWrite (sl : SliceId) (a : Arrival) (p : Packet) (s : State) : s.Lands (execMcastWrite sl a p s) := by
  unfold Machine.execMcastWrite
  dsimp only
  refine .ite (.next (.refl _)) ?_
  split
  · exact .next (.ite (.refl _) (.comp (.ite (.receiveReq ..) (.refl _)) (.forward ..)))
  · exact .next (.receiveReq ..)

theorem State.Lands.operationApply (s : State) (sl : SliceId) : s.Lands (s.operationApply sl) := by
  unfold State.operationApply
  dsimp only
  split
  · exact .next (.refl _)
  · exact .next (.comp (.deliverAllHeld ..) (.comp (.applyOp ..) (.onSl _ _ fun _ h => .update h rfl rfl rfl)))

theorem State.Lands.execOperationApply (sl : Reads SliceId) (s : State) : s.Lands (execOperationApply sl s) := by
  unfold Machine.execOperationApply
  exact .comp (.operationApply ..) (.findBad ..)

theorem SliceState.ok.skipRange {x : SliceState} (h : x.ok) (src : Place) (msgId first count : Nat) : (x.skipRange src msgId first count).ok := by
  unfold SliceState.skipRange
  dsimp only
  exact .setDstFlow (.foldl (fun _ _ h => .freeHeld h ..) _ h) ..

theorem State.Lands.execCtrlSkip (sl : SliceId) (a : Arrival) (p : Packet) (s : State) : s.Lands (execCtrlSkip sl a p s) := by
  unfold Machine.execCtrlSkip
  dsimp only
  exact .ite (.ite (.next (.comp (.routerDiscard ..) (.takeIngress ..))) (.ite (.next (.takeIngress ..)) (.next (.comp (.deliverHeld ..) (.comp (.onSl
      _ _ fun _ h => .skipRange h ..) (.takeIngress ..)))))) (.next (.refl _))

theorem SliceState.ok.onRegion {x : SliceState} (h : x.ok) (k : Nat) (f : RegionEntry → RegionEntry) : (x.onRegion k f).ok := by
  unfold SliceState.onRegion
  dsimp only
  exact .update h rfl rfl rfl

theorem State.Lands.execOwnershipMove (sl : SliceId) (entry : Nat) (s : State) : s.Lands (execOwnershipMove sl entry s) := by
  unfold Machine.execOwnershipMove
  dsimp only
  exact .ite (.next (.onSl _ _ fun _ h => .onRegion h ..)) (.next (.refl _))

theorem State.Lands.execHandoffStage (sl : SliceId) (i : Nat) (s : State) : s.Lands (execHandoffStage sl i s) := by
  unfold Machine.execHandoffStage
  dsimp only
  split
  · exact .next (.refl _)
  · next ht =>
      exact .ite (.next (.comp (.onSl _ _ fun _ h => .completeRun (.onRegion h ..) ..) (.actingRun ht))) (.next (.comp (.update rfl rfl rfl rfl)
          (.comp (.report ..) (.comp (.onSl _ _ fun _ h => .endRun (.onRegion h ..) ..) (.actingRun ht)))))

end Sys2Proof.Machine
end

section
/-! Every function of Machine/Answers keeps the queue and the shape of the device. -/

namespace Sys2Proof.Machine

theorem Thread.ok.drained {h : Thread} (hk : h.ok) : h.drained.ok := by
  unfold Thread.drained
  dsimp only
  exact .ite (.update (.wake hk ..)) hk

theorem Thread.ok.xstDone {h : Thread} (hk : h.ok) : h.xstDone.ok := by
  unfold Thread.xstDone
  dsimp only
  exact .ite (.update (.wake (.update hk) ..)) (.drained (.update hk) ..)

theorem Thread.ok.otherDone {h : Thread} (hk : h.ok) : h.otherDone.ok := by
  unfold Thread.otherDone
  exact .drained (.wake (.update hk) ..) ..

theorem SliceState.ok.landPiece {x : SliceState} (h : x.ok) (run a : Nat) (frame : Drip) (b : Bytes) (len : Nat → Nat → Nat) : (x.landPiece run a
    frame b len).ok := by
  unfold SliceState.landPiece
  dsimp only
  split
  · exact h
  · exact .ite (.completeRun (.update h rfl rfl rfl) ..) (.update h rfl rfl rfl)

theorem State.Keeps.issuerDone (s : State) (sl : Nat) (i : Issuer) (req : Option Packet) (dst : Place) (data : Bytes) : s.Keeps (s.issuerDone sl i req
    dst data) := by
  unfold State.issuerDone
  dsimp only
  split
  · split
    · exact .onThread _ _ _ _ fun _ hk => .otherDone (.setReg hk ..) ..
    · exact .onThread _ _ _ _ fun _ hk => .otherDone (.setReg hk ..) ..
    · exact .onThread _ _ _ _ fun _ hk => .otherDone (.setReg hk ..) ..
    · exact .onThread _ _ _ _ fun _ hk => .xstDone hk ..
    · exact .onSl _ _ fun _ h => .onThread (.store h ..) _ _ fun _ hk => .otherDone hk ..
    · exact .onThread _ _ _ _ fun _ hk => .otherDone hk ..
  · split
    · exact .ite (.onSl _ _ fun _ h => .update h rfl rfl rfl) (.refl _)
    · exact .refl _
  · exact .onSl _ _ fun _ h => .landPiece h ..
  · exact .update rfl rfl rfl rfl
  · exact .refl _
  · exact .refl _
  · exact .refl _

theorem State.Keeps.issuerFail (s : State) (sl : Nat) (i : Issuer) (st : Status) : s.Keeps (s.issuerFail sl i st) := by
  unfold State.issuerFail
  dsimp only
  split
  · exact .endThreadWith ..
  · exact .comp (.ite (.update rfl rfl rfl rfl) (.refl _)) (.endTied ..)
  · split
    · exact .endTied ..
    · exact .refl _
  · split
    · exact .endTied ..
    · exact .refl _
  · exact .endInstance ..
  · exact .update rfl rfl rfl rfl
  · exact .refl _

theorem State.Keeps.dropOut (s : State) (sl : Nat) (m : OutMsg) : s.Keeps (s.dropOut sl m) := by
  unfold State.dropOut
  dsimp only
  exact .onSl _ _ fun _ h => .update h rfl rfl rfl

theorem State.Keeps.countUnknown (s : State) (sl : Nat) (st : Status) : s.Keeps (s.countUnknown sl st) := by
  unfold State.countUnknown
  dsimp only
  exact .ite (.onSl _ _ fun _ h => .update h rfl rfl rfl) (.refl _)

theorem State.Keeps.failMsg (s : State) (sl : Nat) (m : OutMsg) (st : Status) : s.Keeps (s.failMsg sl m st) := by
  unfold State.failMsg
  exact .comp (.releaseHeld ..) (.comp (.issuerFail ..) (.comp (.countUnknown ..) (.dropOut ..)))

theorem State.Keeps.markMember (s : State) (sl g msgId : Nat) (who : Place → Bool) (code : Nat) (echo : Bool) : s.Keeps (s.markMember sl g msgId who
    code echo) := by
  unfold State.markMember
  dsimp only
  exact .onSl _ _ fun _ h => .update h rfl rfl rfl

theorem State.Keeps.giveUp (s : State) (sl : Nat) (m : OutMsg) : s.Keeps (s.giveUp sl m) := by
  unfold State.giveUp
  dsimp only
  split
  · exact .comp (.markMember ..) (.onSl _ _ fun _ h => .update h rfl rfl rfl)
  · exact .comp (.detectLoss ..) (.comp (.failMsg ..) (.comp (.sendCtrl ..) (.onSl _ _ fun _ h => .update h rfl rfl rfl)))

theorem State.Keeps.retryOrGiveUp (s : State) (sl : Nat) (m : OutMsg) : s.Keeps (s.retryOrGiveUp sl m) := by
  unfold State.retryOrGiveUp
  exact .ite (.giveUp ..) (.resendMsg ..)

theorem State.Keeps.nackRetry (s : State) (sl : Nat) (m : OutMsg) : s.Keeps (s.nackRetry sl m) := by
  unfold State.nackRetry
  exact .ite (.comp (.failMsg ..) (.sendCtrl ..)) (.retryOrGiveUp ..)

theorem State.Keeps.takeAnswer (s : State) (sl : Nat) (p : Packet) (m : OutMsg) : s.Keeps (s.takeAnswer sl p m) := by
  unfold State.takeAnswer
  dsimp only
  split
  · exact .ite (.comp (.nackRetry ..) (.windowAnswer ..)) (.comp (.ite (.failMsg ..) (.comp (.releaseHeld ..) (.comp (.issuerDone ..) (.dropOut ..))))
      (.windowAnswer ..))
  · exact .ite (.comp (.retryOrGiveUp ..) (.windowAnswer ..)) (.markMember ..)

theorem State.Keeps.receiveRsp (s : State) (sl : Nat) (a : Arrival) (p : Packet) (op : Nat) : s.Keeps (s.receiveRsp sl a p op) := by
  unfold State.receiveRsp
  dsimp only
  refine .ite ?_ (.refl _)
  refine .ite (.comp (.routerDiscard ..) (.takeIngress ..)) ?_
  refine .ite (.takeIngress ..) ?_
  split
  · exact .ite (.takeIngress ..) (.comp (.ite (.takeAnswer ..) (.refl _)) (.takeIngress ..))
  · exact .takeIngress ..

theorem State.Lands.execReadData (sl : SliceId) (a : Arrival) (p : Packet) (s : State) : s.Lands (execReadData sl a p s) := by
  unfold Machine.execReadData
  exact .next (.receiveRsp ..)

theorem State.Lands.execAck (sl : SliceId) (a : Arrival) (p : Packet) (s : State) : s.Lands (execAck sl a p s) := by
  unfold Machine.execAck
  exact .next (.receiveRsp ..)

theorem State.Lands.execNack (sl : SliceId) (a : Arrival) (p : Packet) (s : State) : s.Lands (execNack sl a p s) := by
  unfold Machine.execNack
  exact .next (.receiveRsp ..)

theorem State.Lands.execAtomicResult (sl : SliceId) (a : Arrival) (p : Packet) (s : State) : s.Lands (execAtomicResult sl a p s) := by
  unfold Machine.execAtomicResult
  exact .next (.receiveRsp ..)

theorem State.Lands.execE2eTimeout (sl : SliceId) (dst : Place) (msgId : Nat) (s : State) : s.Lands (execE2eTimeout sl dst msgId s) := by
  unfold Machine.execE2eTimeout
  dsimp only
  split
  · exact .next (.refl _)
  · exact .next (.comp (.retryOrGiveUp ..) (.windowAnswer ..))

theorem State.Lands.execWindowedSend (sl : SliceId) (dst : Place) (s : State) : s.Lands (execWindowedSend sl dst s) := by
  unfold Machine.execWindowedSend
  exact .next (.releaseOne ..)

theorem State.Lands.execMcastComplete (sl : SliceId) (g msgId : Nat) (s : State) : s.Lands (execMcastComplete sl g msgId s) := by
  unfold Machine.execMcastComplete
  dsimp only
  split
  · exact .next (.refl _)
  · refine .ite (.next (.refl _)) ?_
    refine .ite ?_ ?_
    · refine .next ?_
      refine .comp (.releaseHeld ..) ?_
      refine .comp (.issuerDone ..) ?_
      split
      · exact .comp (.dropOut ..) (.comp (.windowAnswer ..) (.onSl _ _ fun _ h => .update h rfl rfl rfl))
      · exact .onSl _ _ fun _ h => .update h rfl rfl rfl
    · refine .ite ?_ ?_
      · refine .next ?_
        refine .comp (.releaseHeld ..) ?_
        refine .comp (.issuerDone ..) ?_
        refine .comp (.report ..) ?_
        refine .comp (.ite (.onSl _ _ fun _ h => .update h rfl rfl rfl) (.refl _)) ?_
        split
        · exact .comp (.dropOut ..) (.comp (.windowAnswer ..) (.onSl _ _ fun _ h => .update h rfl rfl rfl))
        · exact .onSl _ _ fun _ h => .update h rfl rfl rfl
      · refine .ite ?_ ?_
        · refine .next ?_
          refine .comp (.releaseHeld ..) ?_
          refine .comp (.issuerDone ..) ?_
          refine .comp (.onAll _ fun _ h => .onReqs h ..) ?_
          refine .comp (.ite (.onSl _ _ fun _ h => .update h rfl rfl rfl) (.refl _)) ?_
          split
          · exact .comp (.dropOut ..) (.comp (.windowAnswer ..) (.onSl _ _ fun _ h => .update h rfl rfl rfl))
          · exact .onSl _ _ fun _ h => .update h rfl rfl rfl
        · refine .next ?_
          refine .comp (.issuerFail ..) ?_
          refine .comp (.eachSlice (fun _ _ => .endNext ..) _) ?_
          refine .comp (.ite (.onSl _ _ fun _ h => .update h rfl rfl rfl) (.refl _)) ?_
          split
          · exact .comp (.dropOut ..) (.comp (.windowAnswer ..) (.onSl _ _ fun _ h => .update h rfl rfl rfl))
          · exact .onSl _ _ fun _ h => .update h rfl rfl rfl

theorem State.Keeps.takeLost (s : State) (p : Packet) : s.Keeps (s.takeLost p) := by
  unfold State.takeLost
  dsimp only
  exact .ite (.refl _) (.comp (.ite (.report ..) (.refl _)) (.update rfl rfl rfl rfl))

theorem State.Keeps.takeAnywhere (s : State) (p : Packet) : s.Keeps (s.takeAnywhere p) := by
  unfold State.takeAnywhere
  dsimp only
  exact .eachSlice (fun _ _ => .comp (.takeIngress ..) (.comp (.foldl (fun _ _ => .takeIngress ..) _ _) (.foldl (fun _ _ => .takeIngress ..) _ _))) _

theorem State.Lands.execCtrlLost (p : Packet) (s : State) : s.Lands (execCtrlLost p s) := by
  unfold Machine.execCtrlLost
  dsimp only
  exact .ite (.next (.comp (.ite (.takeLost ..) (.refl _)) (.takeAnywhere ..))) (.next (.refl _))

theorem State.Lands.execLossHoldExpiry (node : Nat) (s : State) : s.Lands (execLossHoldExpiry node s) := by
  unfold Machine.execLossHoldExpiry
  split
  · exact .next (.refl _)
  · exact .next (.ite (.detectLoss ..) (.refl _))

theorem State.Keeps.markLost (s : State) (sl : Nat) (ps : List Place) : s.Keeps (s.markLost sl ps) := by
  unfold State.markLost
  dsimp only
  exact .ite (.refl _) (.comp (.foldl (fun _ _ => .endInstance ..) _ _) (.comp (.onSl _ _ fun _ h => .update h rfl rfl rfl) (.comp (.foldl (fun _ _ =>
      .checkCounts ..) _ _) (.comp (.settleLost ..) (.onSl _ _ fun _ h => .update h rfl rfl rfl)))))

theorem State.Lands.execLostMark (s : State) : s.Lands (execLostMark s) := by
  unfold Machine.execLostMark
  dsimp only
  exact .ite (.next (.refl _)) (.next (.comp (.foldl (fun _ _ => .endReqs ..) _ _) (.comp (.eachSlice (fun _ _ => .markLost ..) _) (.update rfl rfl
      rfl rfl))))

theorem State.Lands.execRouterForward (sl : SliceId) (a : Arrival) (p : Packet) (s : State) : s.Lands (execRouterForward sl a p s) := by
  unfold Machine.execRouterForward
  dsimp only
  exact .ite (.next (.comp (.ite (.takeLost ..) (.refl _)) (.takeIngress ..))) (.ite (.next (.takeIngress ..)) (.next (.ite (.forward ..) (.refl _))))

theorem State.Lands.execRouteSwitch (s : State) : s.Lands (execRouteSwitch s) := by
  unfold Machine.execRouteSwitch
  dsimp only
  split
  · exact .next (.refl _)
  · exact .ite (.next (.refl _)) (.next (.update rfl rfl rfl rfl))

theorem State.Lands.execRouteDrainEnd (s : State) : s.Lands (execRouteDrainEnd s) := by
  unfold Machine.execRouteDrainEnd
  dsimp only
  split
  · exact .next (.refl _)
  · exact .ite (.next (.refl _)) (.next (.update rfl rfl rfl rfl))

end Sys2Proof.Machine
end

section
/-! Every function of Machine/Service keeps the queue and the shape of the device. -/

namespace Sys2Proof.Machine

theorem State.Keeps.scanFrom (sl n : Nat) (s : State) : s.Keeps (State.scanFrom sl n s) := by
  induction n generalizing s with
  | zero => exact .refl _
  | succ n ih =>
    unfold State.scanFrom
    dsimp only
    refine .ite (.refl _) ?_
    split
    · exact .comp (ih _) (.comp (.completeCmd ..) (.onSvc ..))
    · exact .comp (ih _) (.comp (.onSvc ..) (.onSvc ..))

theorem SliceState.ok.releaseWaits {x : SliceState} (h : x.ok) : x.releaseWaits.ok := by
  unfold SliceState.releaseWaits
  dsimp only
  exact .foldl (fun _ _ h => .clearFlag h ..) _ (.update h rfl rfl rfl)

theorem State.Lands.execLedgerScan (sl : SliceId) (s : State) : s.Lands (execLedgerScan sl s) := by
  unfold Machine.execLedgerScan
  dsimp only
  exact .ite (.next (.refl _)) (.next (.comp (.onSl _ _ fun _ h => .releaseWaits h ..) (.ite (.scanFrom ..) (.refl _))))

theorem State.Keeps.dropCmd (s : State) (sl : Nat) (c : Cmd) : s.Keeps (s.dropCmd sl c) := by
  unfold State.dropCmd
  exact .onSvc ..

theorem State.Keeps.endCmd (s : State) (sl : Nat) (c : Cmd) (st : Status) (reason : Nat) : s.Keeps (s.endCmd sl c st reason) := by
  unfold State.endCmd
  exact .comp (.completeCmd ..) (.dropCmd ..)

theorem State.Lands.execSubmit (sl : SliceId) (i : Nat) (s : State) : s.Lands (execSubmit sl i s) := by
  unfold Machine.execSubmit
  dsimp only
  split
  · exact .next (.refl _)
  · exact .ite (.next (.endCmd ..)) (.ite (.next (.endCmd ..)) (.next (.onSvc ..)))

theorem State.Keeps.cancelPending (s : State) (p : Nat → Cmd → Bool) : s.Keeps (s.cancelPending p) := by
  unfold State.cancelPending
  exact .eachSlice (fun _ _ => .foldl (fun _ _ => .endCmd ..) _ _) _

theorem State.Lands.execCancel (sl : SliceId) (i : Nat) (s : State) : s.Lands (execCancel sl i s) := by
  unfold Machine.execCancel
  dsimp only
  split
  · exact .next (.refl _)
  · exact .ite (.next (.comp (.endCmd ..) (.comp (.eachSlice (fun _ _ => .onSl _ _ fun _ h => .onReqs h ..) _) (.cancelPending ..)))) (.next (.endCmd
      ..))

theorem State.Keeps.openCtx (s : State) (sl : Nat) (c : Cmd) : s.Keeps (s.openCtx sl c) := by
  unfold State.openCtx
  dsimp only
  split
  · exact .ite (.completeCmd ..) (.ite (.completeCmd ..) (.comp (.update rfl rfl rfl rfl) (.onAll _ fun _ h => .update h rfl rfl rfl)))
  · exact .onCtx ..
  · exact .completeCmd ..

theorem State.Lands.execCtxOpen (sl : SliceId) (i : Nat) (s : State) : s.Lands (execCtxOpen sl i s) := by
  unfold Machine.execCtxOpen
  split
  · exact .next (.refl _)
  · exact .next (.comp (.openCtx ..) (.dropCmd ..))

theorem State.Keeps.stopCtx (s : State) (c : Nat) : s.Keeps (s.stopCtx c) := by
  unfold State.stopCtx
  dsimp only
  exact .comp (.onCtx ..) (.foldl (fun _ _ => .completeCmd ..) _ _)

theorem State.Lands.execCtxClose (sl : SliceId) (i : Nat) (s : State) : s.Lands (execCtxClose sl i s) := by
  unfold Machine.execCtxClose
  dsimp only
  split
  · exact .next (.refl _)
  · exact .ite (.next (.endCmd ..)) (.ite (.next (.comp (.onCtx ..) (.dropCmd ..))) (.next (.comp (.cancelPending ..) (.comp (.stopCtx ..) (.comp
      (.onCtx ..) (.dropCmd ..))))))

theorem SliceState.ok.stopCtxThreads {x : SliceState} (h : x.ok) (c : Nat) : (x.stopCtxThreads c).ok := by
  unfold SliceState.stopCtxThreads
  dsimp only
  exact .foldl (fun _ _ h => .foldl (fun _ _ h => .ite (.noComplete (.stopThread h ..) ..) h) _ h) _ h

theorem State.Keeps.tearCtx (s : State) (c : Nat) : s.Keeps (s.tearCtx c) := by
  unfold State.tearCtx
  dsimp only
  exact .ite (.onAll _ fun _ h => .update (.stopCtxThreads h ..) rfl rfl rfl) (.comp (.eachSlice (fun _ _ => .comp (.onSl _ _ fun _ h => .update
      (.stopCtxThreads h ..) rfl rfl rfl) (.endReqs ..)) _) (.comp (.cancelPending ..) (.ite (.refl _) (.stopCtx ..))))

theorem State.Lands.execContextTeardown (ctx : Nat) (s : State) : s.Lands (execContextTeardown ctx s) := by
  unfold Machine.execContextTeardown
  dsimp only
  exact .ite (.next (.comp (.tearCtx ..) (.update rfl rfl rfl rfl))) (.next (.refl _))

theorem State.Lands.execContextOff (ctx : Nat) (s : State) : s.Lands (execContextOff ctx s) := by
  unfold Machine.execContextOff
  dsimp only
  split
  · exact .next (.refl _)
  · exact .ite (.next (.comp (.foldl (fun _ _ => .openCtx ..) _ _) (.comp (.update rfl rfl rfl rfl) (.foldl (fun _ _ => .completeCmd ..) _ _))))
      (.next (.refl _))

theorem State.Lands.execCopy (sl : SliceId) (i : Nat) (s : State) : s.Lands (execCopy sl i s) := by
  unfold Machine.execCopy
  dsimp only
  split
  · exact .next (.refl _)
  · exact .ite (.next (.endCmd ..)) (.ite (.next (.endCmd ..)) (.ite (.next (.endCmd ..)) (.next (.comp (.ite (.pushChan ..) (.pushChan ..)) (.comp
      (.onSvc ..) (.dropCmd ..))))))

theorem State.Keeps.copyMoved (s : State) (sl slot n : Nat) : s.Keeps (s.copyMoved sl slot n) := by
  unfold State.copyMoved
  split
  · exact .refl _
  · exact .ite (.comp (.completeCmd ..) (.onSvc ..)) (.onSvc ..)

theorem State.Keeps.copyFailed (s : State) (sl slot : Nat) : s.Keeps (s.copyFailed sl slot) := by
  unfold State.copyFailed
  dsimp only
  split
  · exact .refl _
  · exact .comp (.completeCmd ..) (.comp (.update rfl (by simp) rfl rfl) (.onSvc ..))

theorem State.Keeps.switchReq (s : State) (sl slot layer : Nat) : s.Keeps (s.switchReq sl slot layer) := by
  unfold State.switchReq
  dsimp only
  exact .comp (.update rfl rfl rfl rfl) (.onSl _ _ fun _ h => .setRowmap (.onReqs h ..) ..)

theorem State.Keeps.admitFrom (sl : Nat) (f : Drip) (cs : List Cmd) (next : Nat) (s : State) : s.Keeps (State.admitFrom sl f cs next s) := by
  induction cs generalizing next s with
  | nil => exact .refl _
  | cons c cs ih =>
    unfold State.admitFrom
    dsimp only
    refine .ite (ih ..) (.ite (.comp (ih ..) (.endCmd ..)) (.ite (.comp (ih ..) (.endCmd ..)) (.ite (.refl _) (.comp (ih ..) ?_))))
    refine .comp (.ite (.switchReq ..) (.refl _)) (.comp (.onSl _ _ fun _ h => .update h rfl rfl rfl) (.dropCmd ..))

theorem State.Keeps.admitWaiting (s : State) (sl : Nat) (f : Drip) : s.Keeps (s.admitWaiting sl f) := by
  unfold State.admitWaiting
  dsimp only
  exact .comp (.onSl _ _ fun _ h => .setRowmap h ..) (.comp (.admitFrom ..) (.onSvc ..))

theorem SliceState.ok.tryInput {x : SliceState} (h : x.ok) : x.tryInput.ok := by
  unfold SliceState.tryInput
  split
  · exact .ite (.completeRun h ..) h
  · exact h

theorem State.Keeps.startInput (s : State) (sl : Nat) (f : Drip) (r : Request) : s.Keeps (s.startInput sl f r) := by
  unfold State.startInput
  dsimp only
  exact .ite (.refl _) (.ite (.onSl _ _ fun _ h => .onReqs h ..) (.comp (.pushChan ..) (.onSl _ _ fun _ h => .onReqs h ..)))

theorem State.Lands.execInputStage (sl : SliceId) (i : Nat) (s : State) : s.Lands (execInputStage sl i s) := by
  unfold Machine.execInputStage
  split
  · refine .next ?_
    split
    · exact .ite (.noteLate ..) (.refl _)
    · exact .refl _
  · next ht =>
      exact .next (.comp (.onSl _ _ fun _ h => .tryInput h ..) (.comp (.foldl (fun _ _ => .startInput ..) _ _) (.actingRun ht)))

theorem State.Keeps.inputLanded (s : State) (sl slot addr : Nat) (data : Bytes) : s.Keeps (s.inputLanded sl slot addr data) := by
  unfold State.inputLanded
  dsimp only
  split
  · exact .onSl _ _ fun _ h => .tryInput (.onReqs (.store h ..) ..) ..
  · exact .refl _

theorem SliceState.ok.tryOutput {x : SliceState} (h : x.ok) (sqz : Bool) : (x.tryOutput sqz).ok := by
  unfold SliceState.tryOutput
  split
  · exact .ite (.completeRun h ..) h
  · exact h

theorem State.Keeps.outputWritten (s : State) (sl slot : Nat) : s.Keeps (s.outputWritten sl slot) := by
  unfold State.outputWritten
  split
  · exact .refl _
  · exact .ite (.refl _) (.comp (.onSl _ _ fun _ h => .tryOutput (.onReqs h ..) ..) (.endNext ..))

theorem State.Keeps.outputStage (s : State) (sl i : Nat) (k : StageKind) (sqz : Bool) : s.Keeps (s.outputStage sl i k sqz) := by
  unfold State.outputStage
  dsimp only
  split
  · split
    · exact .ite (.noteLate ..) (.refl _)
    · exact .refl _
  · next ht =>
      exact .comp (.onSl _ _ fun _ h => .tryOutput h ..) (.comp (.foldl (fun _ _ => .ite (.outputWritten ..) (.comp (.pushChan ..) (.onSl _ _ fun _ h
          => .onReqs h ..))) _ _) (.actingRun ht))

theorem State.Lands.execOutputMain (sl : SliceId) (i : Nat) (s : State) : s.Lands (execOutputMain sl i s) := by
  unfold Machine.execOutputMain
  exact .next (.outputStage ..)

theorem State.Lands.execOutputSqz (sl : SliceId) (i : Nat) (s : State) : s.Lands (execOutputSqz sl i s) := by
  unfold Machine.execOutputSqz
  exact .next (.outputStage ..)

theorem State.Lands.execLayerBoundary (sl : SliceId) (layer : Nat) (s : State) : s.Lands (execLayerBoundary sl layer s) := by
  unfold Machine.execLayerBoundary
  dsimp only
  exact .ite (.ite (.next (.comp (.foldl (fun _ _ => .switchReq ..) _ _) (.comp (.onSvc ..) (.endReqs ..)))) (.next (.comp (.onSvc ..) (.endReqs
      ..)))) (.next (.refl _))

theorem State.Lands.execRequestDeadline (sl : SliceId) (req : Nat) (s : State) : s.Lands (execRequestDeadline sl req s) := by
  unfold Machine.execRequestDeadline
  dsimp only
  split
  · exact .ite (.next (.endReqs ..)) (.next (.refl _))
  · split
    · exact .ite (.next (.endReqs ..)) (.next (.refl _))
    · split
      · exact .ite (.next (.comp (.update rfl rfl rfl rfl) (.endCmd ..))) (.next (.refl _))
      · exact .next (.refl _)

theorem State.Keeps.partialSlot (s : State) (ctx : Nat) : s.Keeps (s.partialSlot ctx).2 := by
  unfold State.partialSlot
  split
  · exact .onCtx ..
  · exact .update rfl rfl rfl rfl

theorem State.Keeps.dropDma (s : State) (sl slot : Nat) : s.Keeps (s.dropDma sl slot) := by
  unfold State.dropDma
  dsimp only
  exact .update rfl (by simp) rfl rfl

theorem State.Keeps.settle (s : State) (sl : Nat) (r : Request) (c0 : Cond) : s.Keeps (s.settle sl r c0) := by
  unfold State.settle
  dsimp only
  refine .comp (.complete ..) ?_
  refine .comp (.update rfl rfl rfl rfl) ?_
  refine .comp (.onSvc ..) ?_
  refine .comp (.ite (.refl _) (.dropDma ..)) ?_
  refine .comp (.foldl (fun _ _ => .report ..) _ _) ?_
  split
  · exact .partialSlot ..
  · exact .refl _

theorem State.Keeps.settleAll (s : State) (d : Drip) : s.Keeps (s.settleAll d) := by
  unfold State.settleAll
  refine .eachSlice (fun _ _ => ?_) _
  refine .foldl (fun _ _ => ?_) _ _
  split
  · exact .settle ..
  · exact .refl _

theorem State.Keeps.signalVector (s : State) (v : Nat) : s.Keeps (s.signalVector v) := by
  unfold State.signalVector
  dsimp only
  exact .comp (.msix ..) (.update (by simp) rfl rfl rfl)

theorem State.Lands.execCompletionWrite (ring : Fin 64) (s : State) : s.Lands (execCompletionWrite ring s) := by
  unfold Machine.execCompletionWrite
  dsimp only
  split
  · exact .next (.refl _)
  · refine .ite (.next (.refl _)) ?_
    refine .next ?_
    refine .comp (.ite (.signalVector ..) (.refl _)) ?_
    refine .comp (.onRing ..) ?_
    refine .comp (.onCtx ..) ?_
    refine .comp (.update rfl rfl rfl rfl) ?_
    refine .comp (.pushChan ..) ?_
    refine .comp (.pushChan ..) ?_
    split
    · exact .pushChan ..
    · exact .refl _

theorem State.Lands.execRingHead (ring : Fin 64) (v : Nat) (s : State) : s.Lands (execRingHead ring v s) := by
  unfold Machine.execRingHead
  exact .next (.setRingHead ..)

end Sys2Proof.Machine
end

section
/-! Every function of Machine/JobLoad keeps the queue and the shape of the device. -/

namespace Sys2Proof.Machine

theorem SliceState.ok.writeResidency {x : SliceState} (h : x.ok) : x.writeResidency.ok := by
  unfold SliceState.writeResidency
  dsimp only
  exact .foldl (fun _ _ h => .store h ..) _ (.foldl (fun _ _ h => .store h ..) _ h)

/-- A slice whose engines and quads are put back fresh, with its memory and the numbers of its links and functions, has the shape. -/
theorem SliceState.ok.of_fresh {x y : SliceState} (h : x.ok) (hm : y.mem = x.mem) (he : y.engines = x.engines.map fun g => { failed := g.failed })
    {p : List (List Word)} (hp : p.length = 8) (hq : y.quads = p.map fun w => { program := w })
    (hports : y.ports.length = x.ports.length) (hi : y.ilinks.length = x.ilinks.length) (hl : y.life.length = x.life.length) : y.ok := by
  obtain ⟨hmem, ⟨heng, -⟩, -, hpl, hil, hlf⟩ := h
  refine ⟨hm ▸ hmem, ⟨by simp [he, heng], ?_⟩, ⟨by simp [hq, hp], ?_⟩, hports.trans hpl, hi.trans hil, hl.trans hlf⟩
  · rw [he]
    intro g hg
    obtain ⟨g0, -, rfl⟩ := List.mem_map.1 hg
    exact .fresh _
  · rw [hq]
    intro k hk
    obtain ⟨w, -, rfl⟩ := List.mem_map.1 hk
    exact .fresh _

theorem SliceState.ok.takeImage {x : SliceState} (h : x.ok) (j : Image) (si : SliceImage) (pools : Pools) (land : List LandBuf) (keep : Bool)
    (winInit : Nat) : (x.takeImage j si pools land keep winInit).ok := by
  unfold SliceState.takeImage
  dsimp only
  refine .writeResidency (.foldl (fun _ _ h => h.store ..) _ (.foldl (fun _ _ h => h.store ..) _ ?_))
  refine .of_fresh h rfl rfl (p := (List.range 8).map fun q => si.quadPrograms.getD q []) (by simp) ?_ (by simp) (by simp) rfl
  simp

theorem State.Keeps.placeWeights (s : State) (j : Image) (m : List CrcRecord) : s.Keeps (s.placeWeights j m) := by
  unfold State.placeWeights
  dsimp only
  refine .foldl (fun _ _ => ?_) _ _
  split
  · exact .refl _
  · exact .foldl (fun _ _ => .onSl _ _ fun _ h => .store h ..) _ _

theorem State.Keeps.tagWrite (s : State) (sl a : Nat) (b : Bytes) : s.Keeps (s.tagWrite sl a b) := by
  unfold State.tagWrite
  dsimp only
  exact .ite (.refl _) (.onSl _ _ fun _ h => .update h rfl rfl rfl)

theorem State.Keeps.loadJob {s t : State} {j : Image} {m : List CrcRecord} {program : Bytes} {first : Drip} {keep : Bool}
    (h : s.loadJob j m program first keep = some t) : s.Keeps t := by
  unfold State.loadJob at h
  dsimp only at h
  split at h
  · cases h
  split at h
  · cases h
  cases h
  have hv := State.Keeps.eachSlice (f := fun v i => v.onSl i fun x =>
    x.takeImage j (j.slices.getD i {}) (((List.map (fun i => loadPools (s.sl i) (s.place i) (j.slices.getD i {})) (List.range 8)).getD i none).getD
      ({}, [])).1 (((List.map (fun i => loadPools (s.sl i) (s.place i) (j.slices.getD i {})) (List.range 8)).getD i none).getD ({}, [])).2
      keep v.pkg.winInit) (fun _ _ => .onSl _ _ fun _ h => h.takeImage ..) s
  split
  · refine .comp (.ite (.report ..) (.refl _)) (.comp (.cutPairs _) (.comp (.extendMR ..) (.comp (.extendMR ..) (.comp (.keepManifest _) ?_))))
    exact .comp (.update rfl rfl rfl rfl) hv
  · refine .comp (.cutPairs _) (.comp (.extendMR ..) (.comp (.extendMR ..) (.comp (.keepManifest _) ?_)))
    exact .comp (.update rfl rfl rfl rfl) hv

theorem State.Keeps.unloadJob (s : State) : s.Keeps s.unloadJob := by
  unfold State.unloadJob
  have hall : ∀ f : SliceState → SliceState, (∀ x, x.ok → (f x).ok) → s.Keeps (s.onAll f) := fun f hf => .onAll s hf
  dsimp only
  split
  · refine .comp (.setOrigin ..) (.comp (.update rfl rfl rfl rfl) (.onAll _ fun x h => ?_))
    exact .of_fresh h rfl rfl (p := x.quads.map (·.program)) (by simpa using h.2.2.1.1) (by simp) rfl rfl rfl
  · refine .comp (.update rfl rfl rfl rfl) (.onAll _ fun x h => ?_)
    exact .of_fresh h rfl rfl (p := x.quads.map (·.program)) (by simpa using h.2.2.1.1) (by simp) rfl rfl rfl

end Sys2Proof.Machine
end

section
/-! Every function of Machine/Load keeps the queue and the shape of the device. -/

namespace Sys2Proof.Machine

theorem State.Keeps.setLoad (s : State) (st status : Nat) : s.Keeps (s.setLoad st status) := by
  unfold State.setLoad
  dsimp only
  exact .comp (.ite (.refl _) (.cause ..)) (.update rfl rfl rfl rfl)

theorem State.Keeps.onHot (s : State) (k : Nat) (f : HotSlot → HotSlot) : s.Keeps (s.onHot k f) := by
  unfold State.onHot
  exact .update rfl rfl rfl rfl

theorem State.Keeps.loadRecord (s : State) (status : Nat) (named : List Nat) : s.Keeps (s.loadRecord status named) := by
  unfold State.loadRecord
  exact .report ..

theorem State.Keeps.failLoad (s : State) (st : Status) (seq id : Nat) : s.Keeps (s.failLoad st seq id) := by
  unfold State.failLoad
  dsimp only
  exact .ite (.comp (.onHot ..) (.comp (.update rfl rfl rfl rfl) (.comp (.loadRecord ..) (.setLoad ..)))) (.comp (.ite (.comp (.loadRecord ..)
      (.update rfl rfl rfl rfl)) (.update rfl rfl rfl rfl)) (.comp (.loadRecord ..) (.setLoad ..)))

theorem State.Keeps.loadStart {s t : State} (h : s.loadStart = some t) : s.Keeps t := by
  unfold State.loadStart at h
  dsimp only at h
  split at h
  · cases h
  · cases h
    exact .comp (.ite (.onHot ..) (.refl _)) (.comp (.update rfl rfl rfl rfl) (.setLoad ..))

theorem State.Keeps.writeItem (s : State) (i : LoadItem) : s.Keeps (s.writeItem i) := by
  unfold State.writeItem
  dsimp only
  exact .foldl (fun _ _ => .comp (.ite (.tagWrite ..) (.refl _)) (.onSl _ _ fun _ h => .store h ..)) _ _

theorem State.Keeps.itemDone (s : State) (i : LoadItem) : s.Keeps (s.itemDone i) := by
  unfold State.itemDone
  dsimp only
  exact .update rfl rfl rfl rfl

theorem State.Keeps.passItem (s : State) (i : LoadItem) : s.Keeps (s.passItem i) := by
  unfold State.passItem
  dsimp only
  exact .update rfl rfl rfl rfl

theorem State.Keeps.itemBad (s : State) (i : LoadItem) : s.Keeps (s.itemBad i) := by
  unfold State.itemBad
  dsimp only
  exact .ite (.failLoad ..) (.comp (.loadRecord ..) (.update rfl rfl rfl rfl))

theorem State.Keeps.itemArrives (s : State) (i : LoadItem) : s.Keeps (s.itemArrives i) := by
  unfold State.itemArrives
  exact .ite (.setLoad ..) (.refl _)

theorem State.Keeps.takeItem (s : State) (kind : Nat) (i : LoadItem) {f : State → State} (hf : ∀ s : State, s.Keeps (f s)) :
    s.Keeps (s.takeItem kind i f) := by
  unfold State.takeItem
  dsimp only
  refine .ite (.refl _) (.ite (.refl _) (.comp (.ite (.itemBad ..) (.ite (.passItem ..) ?_)) (.itemArrives ..)))
  exact .comp (hf _) (.update rfl rfl rfl rfl)

theorem State.Lands.execImageItem (i : LoadItem) (img : Image) (s : State) : s.Lands (execImageItem i img s) := by
  unfold Machine.execImageItem
  dsimp only
  exact .next (.takeItem _ _ _ fun _ => .ite (.failLoad ..) (.comp (.itemDone ..) (.update rfl rfl rfl rfl)))

theorem State.Lands.execManifestItem (i : LoadItem) (s : State) : s.Lands (execManifestItem i s) := by
  unfold Machine.execManifestItem
  dsimp only
  exact .next (.takeItem _ _ _ fun _ => .ite (.comp (.itemDone ..) (.update rfl rfl rfl rfl)) (.failLoad ..))

theorem State.Keeps.noRepair {s t : State} (h : s.noRepair = some t) : s.Keeps t := by
  unfold State.noRepair at h
  split at h
  · cases h; exact .refl _
  · split at h
    · cases h
    · cases h; exact .update rfl rfl rfl rfl

theorem State.Lands.execTileItem (i : LoadItem) (s : State) : s.Lands (execTileItem i s) := by
  unfold Machine.execTileItem
  dsimp only
  refine .next ?_
  refine .takeItem _ _ _ fun _ => ?_
  refine .ite (.failLoad ..) ?_
  split
  · exact .failLoad ..
  · exact .ite (.failLoad ..) (.ite (.comp (.failLoad ..) (.ite (.getD fun _ ht => .noRepair ht) (.refl _))) (.comp (.ite (.failLoad ..) (.comp
      (.itemDone ..) (.comp (.update rfl rfl rfl rfl) (.writeItem ..)))) (.ite (.getD fun _ ht => .noRepair ht) (.refl _))))

theorem State.Keeps.partItem (t : State) (i : LoadItem) (idOk : Bool) (crcOf : Bytes → Option Nat) (accept : Bytes → Bool) : t.Keeps (t.partItem i
    idOk crcOf accept) := by
  unfold State.partItem
  dsimp only
  refine .ite (.failLoad ..) ?_
  split
  · exact .comp (.failLoad ..) (.getD fun _ ht => .noRepair ht)
  · exact .ite (.comp (.failLoad ..) (.getD fun _ ht => .noRepair ht)) (.ite (.ite (.comp (.failLoad ..) (.getD fun _ ht => .noRepair ht)) (.comp
      (.ite (.failLoad ..) (.comp (.itemDone ..) (.comp (.update rfl rfl rfl rfl) (.writeItem ..)))) (.getD fun _ ht => .noRepair ht))) (.comp
      (.itemDone ..) (.comp (.update rfl rfl rfl rfl) (.comp (.writeItem ..) (.getD fun _ ht => .noRepair ht)))))

theorem State.Lands.execPanelItem (i : LoadItem) (s : State) : s.Lands (execPanelItem i s) := by
  unfold Machine.execPanelItem
  exact .next (.takeItem _ _ _ fun _ => .partItem ..)

theorem State.Lands.execMapItem (i : LoadItem) (m : List (Nat × List (Nat × Nat))) (s : State) : s.Lands (execMapItem i m s) := by
  unfold Machine.execMapItem
  dsimp only
  exact .next (.takeItem _ _ _ fun _ => .ite (.failLoad ..) (.ite (.failLoad ..) (.comp (.itemDone ..) (.update rfl rfl rfl rfl))))

theorem State.Lands.execPlacementItem (i : LoadItem) (s : State) : s.Lands (execPlacementItem i s) := by
  unfold Machine.execPlacementItem
  exact .next (.takeItem _ _ _ fun _ => .partItem ..)

theorem State.Lands.execEndItem (i : LoadItem) (s : State) : s.Lands (execEndItem i s) := by
  unfold Machine.execEndItem
  dsimp only
  exact .next (.takeItem _ _ _ fun _ => .ite (.comp (.itemDone ..) (.update rfl rfl rfl rfl)) (.failLoad ..))

theorem State.Lands.execLoadHostRead (s : State) : s.Lands (execLoadHostRead s) := by
  unfold Machine.execLoadHostRead
  dsimp only
  exact .ite (.next (.refl _)) (.next (.pushChan ..))

theorem State.Lands.execItemForward (s : State) : s.Lands (execItemForward s) := by
  unfold Machine.execItemForward
  dsimp only
  split
  · exact .ite (.next (.refl _)) (.next (.comp (.sendMsg ..) (.update rfl rfl rfl rfl)))
  · exact .next (.refl _)

theorem State.Lands.execLoadForwardAck (seq : Nat) (s : State) : s.Lands (execLoadForwardAck seq s) := by
  unfold Machine.execLoadForwardAck
  dsimp only
  exact .next (.update rfl rfl rfl rfl)

theorem State.Lands.execUpstreamTimeout (s : State) : s.Lands (execUpstreamTimeout s) := by
  unfold Machine.execUpstreamTimeout
  exact .ite (.next (.comp (.loadRecord ..) (.setLoad ..))) (.next (.refl _))

theorem State.Keeps.setChain (s : State) (v : Bytes) : s.Keeps (s.setChain v) := by
  unfold State.setChain
  dsimp only
  split
  · exact .comp (.ite (.emit ..) (.refl _)) (.update rfl rfl rfl rfl)
  · exact .update rfl rfl rfl rfl

theorem State.Lands.execResumeToken (v : Bytes) (s : State) : s.Lands (execResumeToken v s) := by
  unfold Machine.execResumeToken
  dsimp only
  refine .ite (.next (.refl _)) ?_
  refine .ite (.next (.update rfl rfl rfl rfl)) ?_
  refine .ite (.next (.update rfl rfl rfl rfl)) ?_
  split
  · exact .next (.comp (.emit ..) (.update rfl rfl rfl rfl))
  · exact .next (.update rfl rfl rfl rfl)

theorem State.Keeps.tagImage (s : State) (sl : Nat) (e : ResEntry) : s.Keeps (s.tagImage sl e) := by
  unfold State.tagImage
  dsimp only
  exact .foldl (fun _ _ => .onSl _ _ fun _ h => .store h ..) _ _

theorem State.Keeps.tagImages (s : State) (j : Image) : s.Keeps (s.tagImages j) := by
  unfold State.tagImages
  exact .eachSlice (fun _ _ => .foldl (fun _ _ => .tagImage ..) _ _) _

theorem State.Lands.execLoadSeal (s : State) : s.Lands (execLoadSeal s) := by
  unfold Machine.execLoadSeal
  dsimp only
  refine .ite (.next (.refl _)) ?_
  refine .ite (.ite (.next (.failLoad ..)) (.next (.comp (.ite (.refl _) (.update rfl rfl rfl rfl)) (.setLoad ..)))) ?_
  split
  · exact .next (.failLoad ..)
  · refine .ite (.next (.failLoad ..)) ?_
    refine .ite (.next (.comp (.onHot ..) (.comp (.setLoad ..) (.tagImages ..)))) ?_
    split
    · next ht =>
        exact .next (.comp (.setLoad ..) (.comp (.loadJob ht) (.tagImages ..)))
    · exact .next (.comp (.failLoad ..) (.tagImages ..))

theorem State.Keeps.switchEpoch {s t : State} {v : Word} (h : s.switchEpoch v = some t) : s.Keeps t := by
  unfold State.switchEpoch at h
  dsimp only at h
  split at h
  · cases h
  · cases h; exact .update rfl rfl rfl rfl

theorem State.Keeps.repin (s : State) : s.Keeps s.repin := by
  unfold State.repin
  dsimp only
  exact .onAll _ fun _ h => .ite (.update h rfl rfl rfl) h

theorem State.Keeps.enterEpoch (s : State) : s.Keeps s.enterEpoch := by
  unfold State.enterEpoch
  dsimp only
  split
  · exact .refl _
  · split
    · exact .refl _
    · exact .ite (.refl _) (.comp (.repin ..) (.comp (.extendMR ..) (.comp (.extendMR ..) (.comp (.keepManifest ..) (.comp (.update rfl rfl rfl rfl)
        (.eachSlice (fun _ _ => .onSl _ _ fun _ h => .update h rfl rfl rfl) _))))))

theorem State.Lands.execWeightEpochSwitch (s : State) : s.Lands (execWeightEpochSwitch s) := by
  unfold Machine.execWeightEpochSwitch
  exact .next (.enterEpoch ..)

theorem State.Keeps.retireEpoch (s : State) : s.Keeps s.retireEpoch := by
  unfold State.retireEpoch
  dsimp only
  exact .ite (.update rfl rfl rfl rfl) (.refl _)

theorem State.Lands.execEpochRetire (s : State) : s.Lands (execEpochRetire s) := by
  unfold Machine.execEpochRetire
  exact .next (.retireEpoch ..)

theorem State.Keeps.tuningEpoch (s : State) : s.Keeps s.tuningEpoch := by
  unfold State.tuningEpoch
  dsimp only
  split
  · exact .refl _
  · exact .comp (.extendMR ..) (.update rfl rfl rfl rfl)

theorem State.Keeps.serveHot {s t : State} {k : Nat} (h : s.serveHot k = some t) : s.Keeps t := by
  unfold State.serveHot at h
  dsimp only at h
  split at h
  · cases h
  · cases h; exact .comp (.update rfl rfl rfl rfl) (.unloadJob _)

theorem State.Lands.execHotServeLoadComplete (s : State) : s.Lands (execHotServeLoadComplete s) := by
  unfold Machine.execHotServeLoadComplete
  dsimp only
  split
  · exact .next (.refl _)
  · split
    · exact .next (.update rfl rfl rfl rfl)
    · refine .ite (.next (.comp (.loadRecord ..) (.update rfl rfl rfl rfl))) ?_
      split
      · next ht =>
          exact .next (.comp (.onHot ..) (.comp (.loadJob ht) (.comp (.tagImages ..) (.comp (.placeWeights ..) (.update rfl rfl rfl rfl)))))
      · exact .next (.comp (.loadRecord ..) (.update rfl rfl rfl rfl))

theorem State.Keeps.armReshape {s t : State} {v : Word} (h : s.armReshape v = some t) : s.Keeps t := by
  unfold State.armReshape at h
  dsimp only at h
  split at h
  · split at h
    · cases h
    · cases h
      exact .comp (.ite (.comp (.loadRecord ..) (.update rfl rfl rfl rfl)) (.refl _)) (.update rfl rfl rfl rfl)
  · cases h

theorem State.Keeps.disarmReshape {s t : State} (h : s.disarmReshape = some t) : s.Keeps t := by
  unfold State.disarmReshape at h
  dsimp only at h
  split at h
  · cases h
  · cases h; exact .update rfl rfl rfl rfl

theorem State.Keeps.leaveJob (s : State) : s.Keeps s.leaveJob := by
  unfold State.leaveJob
  dsimp only
  exact .comp (.unloadJob ..) (.comp (.settleAll ..) (.comp (.foldl (fun _ _ => .tearCtx ..) _ _) (.comp (.eachSlice (fun _ _ => .endReqs ..) _)
      (.cancelPending ..))))

theorem State.Keeps.reshape (s : State) : s.Keeps s.reshape := by
  unfold State.reshape
  dsimp only
  refine .ite (.refl _) ?_
  split
  · exact .update rfl rfl rfl rfl
  · refine .ite (.comp (.leaveJob ..) (.update rfl rfl rfl rfl)) ?_
    refine .ite (.comp (.loadRecord ..) (.comp (.leaveJob ..) (.update rfl rfl rfl rfl))) ?_
    split
    · next ht =>
        exact .comp (.onHot ..) (.comp (.loadJob ht) (.comp (.tagImages ..) (.comp (.placeWeights ..) (.update rfl rfl rfl rfl))))
    · exact .comp (.loadRecord ..) (.comp (.leaveJob ..) (.update rfl rfl rfl rfl))

theorem State.Lands.execReshape (s : State) : s.Lands (execReshape s) := by
  unfold Machine.execReshape
  exact .next (.reshape ..)

end Sys2Proof.Machine
end

section
/-! Every function of Machine/StillWater keeps the queue and the shape of the device. -/

namespace Sys2Proof.Machine

theorem State.Lands.execPassDigest (sl : SliceId) (i : Nat) (s : State) : s.Lands (execPassDigest sl i s) := by
  unfold Machine.execPassDigest
  dsimp only
  split
  · exact .next (.refl _)
  · next ht =>
      exact .next (.comp (.foldl (fun _ _ => .sendRecord ..) _ _) (.actingRun ht))

theorem State.Keeps.formPass (s : State) (sl : Nat) (u : Run) : s.Keeps (s.formPass sl u) := by
  unfold State.formPass
  dsimp only
  exact .onSl _ _ fun _ h => .ite (.completeRun (.update h rfl rfl rfl) ..) (.update h rfl rfl rfl)

theorem State.Lands.execPassDigestForm (sl : SliceId) (i : Nat) (s : State) : s.Lands (execPassDigestForm sl i s) := by
  unfold Machine.execPassDigestForm
  split
  · exact .next (.formPass ..)
  · exact .next (.refl _)

theorem State.Keeps.formDue (s : State) (sl : Nat) : s.Keeps (s.formDue sl) := by
  unfold State.formDue
  exact .foldl (fun _ _ => .formPass ..) _ _

end Sys2Proof.Machine
end

section
/-! Every function of Machine/Security keeps the queue and the shape of the device. -/

namespace Sys2Proof.Machine

theorem State.Lands.execTrngHealthFail (s : State) : s.Lands (execTrngHealthFail s) := by
  unfold Machine.execTrngHealthFail
  dsimp only
  exact .next (.comp (.report ..) (.update rfl rfl rfl rfl))

theorem State.Lands.execTrngHealthPass (s : State) : s.Lands (execTrngHealthPass s) := by
  unfold Machine.execTrngHealthPass
  dsimp only
  exact .next (.comp (.eachSlice (fun _ _ => .foldl (fun _ _ => .ite (.beginAuth ..) (.tryAuthUp ..)) _ _) _) (.update rfl rfl rfl rfl))

theorem State.Keeps.askQuote {s t : State} {v : Bytes} (h : s.askQuote v = some t) : s.Keeps t := by
  unfold State.askQuote at h
  split at h
  · cases h
  · cases h; exact .update rfl rfl rfl rfl

theorem State.Lands.execQuoteComplete (s : State) : s.Lands (execQuoteComplete s) := by
  unfold Machine.execQuoteComplete
  dsimp only
  exact .ite (.next (.update rfl rfl rfl rfl)) (.next (.refl _))

end Sys2Proof.Machine
end

section
/-! Every function of Machine/FirmwareOps keeps the queue and the shape of the device. -/

namespace Sys2Proof.Machine

theorem State.Keeps.stageData (s : State) (v : Bytes) : s.Keeps (s.stageData v) := by
  unfold State.stageData
  dsimp only
  split
  · exact .refl _
  · exact .update rfl rfl rfl rfl

theorem State.Keeps.stageCommit {s t : State} {n : Nat} (h : s.stageCommit n = some t) : s.Keeps t := by
  unfold State.stageCommit at h
  dsimp only at h
  split at h
  · cases h
  · cases h
    exact .comp (.ite (.refl _) (.report ..)) (.update rfl rfl rfl rfl)

theorem State.Keeps.startRollout {s t : State} {v : Nat} (h : s.startRollout v = some t) : s.Keeps t := by
  unfold State.startRollout at h
  dsimp only at h
  split at h
  · cases h
  · split at h
    · cases h
    · cases h; exact .update rfl rfl rfl rfl

theorem State.Keeps.checkHold (s : State) : s.Keeps s.checkHold := by
  unfold State.checkHold
  dsimp only
  exact .ite (.update rfl rfl rfl rfl) (.ite (.ite (.update rfl rfl rfl rfl) (.update rfl rfl rfl rfl)) (.refl _))

theorem State.Keeps.reverting (s : State) : s.Keeps s.reverting := by
  unfold State.reverting
  dsimp only
  exact .update rfl rfl rfl rfl

end Sys2Proof.Machine
end

section
/-! Every function of Machine/DictApply keeps the queue and the shape of the device. -/

namespace Sys2Proof.Machine

theorem State.Keeps.onLife (s : State) (f c : Nat) (g : Lifecycle → Lifecycle) : s.Keeps (s.onLife f c g) := by
  unfold State.onLife
  dsimp only
  exact .ite (.update rfl rfl rfl (by simp)) (.onSl _ _ fun _ h => .update h rfl rfl (by simp))

theorem State.Keeps.setLife (s : State) (f c st : Nat) : s.Keeps (s.setLife f c st) := by
  unfold State.setLife
  exact .comp (.cause ..) (.onLife ..)

theorem State.Keeps.domain (s : State) (c n : Nat) (on : Bool) : s.Keeps (s.domain c n on) := by
  unfold State.domain
  dsimp only
  exact .onSl _ _ fun _ h => .update h rfl rfl rfl

theorem State.Keeps.setSumpLink (s : State) (c st : Nat) : s.Keeps (s.setSumpLink c st) := by
  unfold State.setSumpLink
  dsimp only
  exact .ite (.refl _) (.comp (.cause ..) (.onSl _ _ fun _ h => .update h rfl rfl rfl))

theorem State.Keeps.groupDown (s : State) (c f : Nat) : s.Keeps (s.groupDown c f) := by
  unfold State.groupDown
  dsimp only
  exact .foldl (fun _ _ => .ite (.refl _) (.goDown ..)) _ _

theorem State.Keeps.startLife (s : State) (f c : Nat) : s.Keeps (s.startLife f c) := by
  unfold State.startLife
  dsimp only
  split
  · exact .comp (.update rfl rfl rfl rfl) (.comp (.setLife ..) (.onLife ..))
  · exact .comp (.setSumpLink ..) (.comp (.domain ..) (.comp (.setLife ..) (.onLife ..)))
  · exact .comp (.domain ..) (.comp (.setLife ..) (.onLife ..))
  · exact .comp (.domain ..) (.comp (.setLife ..) (.onLife ..))
  · exact .comp (.setLife ..) (.onLife ..)

theorem State.Keeps.dropStaging (s : State) (d : Door) : s.Keeps (s.dropStaging d) := by
  unfold State.dropStaging
  dsimp only
  exact .update rfl rfl rfl rfl

theorem State.Keeps.keepSessions (s : State) (keep : USession → Bool) : s.Keeps (s.keepSessions keep) := by
  unfold State.keepSessions
  dsimp only
  exact .comp (.update rfl rfl rfl rfl) (.foldl (fun _ _ => .dropStaging ..) _ _)

theorem State.Keeps.stopActions (s : State) (f c : Nat) : s.Keeps (s.stopActions f c) := by
  unfold State.stopActions
  dsimp only
  split
  · exact .comp (.update rfl rfl rfl rfl) (.keepSessions ..)
  · exact .update rfl rfl rfl rfl
  · exact .comp (.setSumpLink ..) (.domain ..)
  · exact .comp (.domain ..) (.groupDown ..)
  · exact .comp (.domain ..) (.groupDown ..)
  · exact .refl _

theorem State.Keeps.queueEnable (s : State) (f c : Nat) (on : Bool) : s.Keeps (s.queueEnable f c on) := by
  unfold State.queueEnable
  dsimp only
  exact .update rfl rfl rfl rfl

theorem State.Keeps.writeEnable (s : State) (f c : Nat) (on : Bool) : s.Keeps (s.writeEnable f c on) := by
  unfold State.writeEnable
  dsimp only
  exact .comp (.queueEnable ..) (.ite (.onLife ..) (.ite (.ite (.startLife ..) (.refl _)) (.ite (.refl _) (.setLife ..))))

theorem State.Keeps.setDisabled (s : State) (c p : Nat) (off : Bool) : s.Keeps (s.setDisabled c p off) := by
  unfold State.setDisabled
  dsimp only
  exact .ite (.comp (.ite (.refl _) (.comp (.mapDue ..) (.goDown ..))) (.onLink ..)) (.comp (.ite (.comp (.mapDue ..) (.onLink ..)) (.refl _))
      (.onLink ..))

theorem State.Keeps.apply2 (s : State) (index sub c : Nat) (v : Bytes) : s.Keeps (s.apply2 index sub c v) := by
  unfold State.apply2
  dsimp only
  split
  · exact .update rfl rfl rfl rfl
  · exact .update rfl rfl rfl rfl
  · exact .update rfl rfl rfl rfl
  · exact .update rfl rfl rfl rfl
  · exact .update rfl rfl rfl rfl
  · exact .update rfl rfl rfl rfl
  · exact .update rfl rfl rfl rfl
  · exact .update rfl rfl rfl rfl
  · exact .comp (.chooseParent ..) (.update rfl rfl rfl rfl)
  · exact .update rfl rfl rfl rfl
  · exact .ite (.writeEnable ..) (.refl _)

theorem SliceState.ok.setRegion {x : SliceState} (h : x.ok) (k : Nat) (e : RegionEntry) : (x.setRegion k e).ok := by
  unfold SliceState.setRegion
  dsimp only
  exact .update h rfl rfl rfl

theorem SliceState.ok.apply3 {x : SliceState} (h : x.ok) (index sub : Nat) (v : Bytes) : (x.apply3 index sub v).ok := by
  unfold SliceState.apply3
  dsimp only
  split
  · exact .update h rfl rfl rfl
  · exact .setRegion h ..
  · exact .setRegion h ..
  · exact .update h rfl rfl rfl
  · exact .update h rfl rfl rfl
  · exact .update h rfl rfl rfl
  · exact .update h rfl rfl rfl
  · exact .update h rfl rfl rfl
  · exact .update h rfl rfl rfl
  · exact .update h rfl rfl rfl
  · exact h

theorem State.Keeps.apply4 (s : State) (index sub c : Nat) (v : Bytes) : s.Keeps (s.apply4 index sub c v) := by
  unfold State.apply4
  dsimp only
  split
  · exact .update rfl rfl rfl rfl
  · exact .update rfl rfl rfl rfl
  · exact .update rfl rfl rfl rfl
  · exact .update rfl rfl rfl rfl
  · exact .update rfl rfl rfl rfl
  · exact .update rfl rfl rfl rfl
  · exact .update rfl rfl rfl rfl
  · exact .update rfl rfl rfl rfl
  · exact .update rfl rfl rfl rfl
  · exact .update rfl rfl rfl rfl
  · exact .update rfl rfl rfl rfl
  · exact .update rfl rfl rfl rfl
  · exact .update rfl rfl rfl rfl
  · exact .update rfl rfl rfl rfl
  · exact .setDisabled ..
  · exact .refl _

theorem State.Keeps.apply5 (s : State) (index sub c : Nat) (v : Bytes) : s.Keeps (s.apply5 index sub c v) := by
  unfold State.apply5
  dsimp only
  split
  · exact .onSl _ _ fun _ h => .update h rfl rfl rfl
  · exact .update rfl rfl rfl rfl
  · exact .update rfl rfl rfl rfl
  · exact .update rfl rfl rfl rfl
  · exact .refl _

theorem State.Keeps.apply6 (s : State) (index sub : Nat) (v : Bytes) : s.Keeps (s.apply6 index sub v) := by
  unfold State.apply6
  dsimp only
  split
  · exact .comp (.ite (.setOrigin ..) (.refl _)) (.update rfl rfl rfl rfl)
  · exact .update rfl rfl rfl rfl
  · exact .update rfl rfl rfl rfl
  · exact .update rfl rfl rfl rfl
  · exact .onRing ..
  · exact .onRing ..
  · exact .onRing ..
  · exact .setRingHead ..
  · exact .update rfl rfl rfl rfl
  · exact .update rfl rfl rfl rfl
  · exact .ite (.getD fun _ ht => .disarmReshape ht) (.getD fun _ ht => .armReshape ht)
  · exact .update rfl rfl rfl rfl
  · exact .getD fun _ ht => .serveHot ht
  · exact .update rfl rfl rfl rfl
  · exact .setChain ..
  · exact .update rfl rfl rfl rfl
  · exact .ite (.getD fun _ ht => .loadStart ht) (.refl _)
  · exact .update rfl rfl rfl rfl
  · exact .update rfl rfl rfl rfl
  · exact .update rfl rfl rfl rfl
  · exact .getD fun _ ht => .switchEpoch ht
  · exact .update rfl rfl rfl rfl
  · exact .refl _

theorem State.Keeps.setCred (s : State) (sub : Nat) (v : Bytes) : s.Keeps (s.setCred sub v) := by
  unfold State.setCred
  dsimp only
  refine .comp (.keepSessions ..) (.update rfl rfl rfl ?_)
  split
  · rfl
  · split <;> rfl

theorem State.Keeps.fwCause (s : State) (old : Firmware) : s.Keeps (s.fwCause old) := by
  unfold State.fwCause
  exact .ite (.refl _) (.cause ..)

theorem State.Keeps.apply8 (s : State) (index sub : Nat) (v : Bytes) : s.Keeps (s.apply8 index sub v) := by
  unfold State.apply8
  dsimp only
  split
  · exact .update rfl rfl rfl rfl
  · exact .update rfl rfl rfl rfl
  · exact .update rfl rfl rfl rfl
  · exact .update rfl rfl rfl rfl
  · exact .update rfl rfl rfl rfl
  · exact .update rfl rfl rfl rfl
  · exact .update rfl rfl rfl rfl
  · exact .update rfl rfl rfl rfl
  · exact .comp (.extendMR ..) (.update rfl rfl rfl rfl)
  · exact .getD fun _ ht => .askQuote ht
  · exact .update rfl rfl rfl rfl
  · exact .setCred ..
  · exact .update rfl rfl rfl rfl
  · exact .update rfl rfl rfl rfl
  · exact .comp (.fwCause ..) (.stageData ..)
  · exact .comp (.fwCause ..) (.getD fun _ ht => .stageCommit ht)
  · exact .comp (.fwCause ..) (.getD fun _ ht => .startRollout ht)
  · exact .update rfl rfl rfl rfl
  · exact .update rfl rfl rfl rfl
  · exact .refl _

theorem State.Keeps.applyEntry (s : State) (index sub c : Nat) (v : Bytes) : s.Keeps (s.applyEntry index sub c v) := by
  unfold State.applyEntry
  split
  · exact .apply2 ..
  · exact .onSl _ _ fun _ h => .apply3 h ..
  · exact .apply4 ..
  · exact .apply5 ..
  · exact .apply6 ..
  · exact .onSl _ _ fun _ h => .update h rfl rfl rfl
  · exact .apply8 ..

end Sys2Proof.Machine
end

section
/-! Every function of Machine/Sump keeps the queue and the shape of the device. -/

namespace Sys2Proof.Machine

theorem State.Keeps.enumerate (s : State) (c : Nat) (e : Expander) : s.Keeps (s.enumerate c e) := by
  unfold State.enumerate
  dsimp only
  exact .comp (.setSumpLink ..) (.comp (.ite (.update rfl rfl rfl rfl) (.refl _)) (.onSl _ _ fun _ h => .update h rfl rfl rfl))

theorem State.Lands.execSumpLinkDown (sl : SliceId) (s : State) : s.Lands (execSumpLinkDown sl s) := by
  unfold Machine.execSumpLinkDown
  dsimp only
  exact .ite (.next (.refl _)) (.next (.comp (.report ..) (.comp (.setSumpLink ..) (.comp (.onSl _ _ fun _ h => .update h rfl rfl rfl) (.foldl (fun _
      _ => .failFetch ..) _ _)))))

theorem State.Lands.execSumpRetrain (sl : SliceId) (x : Option Expander) (s : State) : s.Lands (execSumpRetrain sl x s) := by
  unfold Machine.execSumpRetrain
  dsimp only
  refine .ite (.next (.refl _)) ?_
  split
  · exact .next (.refl _)
  · exact .next (.comp (.report ..) (.ite (.enumerate ..) (.setSumpLink ..)))

theorem State.Lands.execSumpReadTimeout (sl : SliceId) (layer : Nat) (r : SlotRef) (s : State) : s.Lands (execSumpReadTimeout sl layer r s) := by
  unfold Machine.execSumpReadTimeout
  exact .ite (.next (.failFetch ..)) (.next (.refl _))

theorem State.Lands.execSumpEventPoll (sl : SliceId) (events : List Nat) (s : State) : s.Lands (execSumpEventPoll sl events s) := by
  unfold Machine.execSumpEventPoll
  exact .next (.foldl (fun _ _ => .report ..) _ _)

end Sys2Proof.Machine
end

section
/-! Every function of Machine/Dictionary keeps the queue and the shape of the device. -/

namespace Sys2Proof.Machine

theorem State.Keeps.onSession (s : State) (n : Nat) (f : USession → USession) : s.Keeps (s.onSession n f) := by
  unfold State.onSession
  dsimp only
  exact .update rfl rfl rfl rfl

theorem State.Keeps.sendResult (s : State) (n code len : Nat) (data : Bytes) : s.Keeps (s.sendResult n code len data) := by
  unfold State.sendResult
  dsimp only
  split
  · exact .refl _
  · exact .comp (.emit ..) (.onSession ..)

theorem Dict.ended_life (d : Dict) (code : Nat) (value : Option (Nat × Bytes)) : (d.ended code value).life = d.life := by
  unfold Dict.ended
  split <;> rfl

theorem State.Keeps.answer (s : State) (d : Door) (code : Nat) (value : Option (Nat × Bytes)) : s.Keeps (s.answer d code value) := by
  unfold State.answer
  split
  · exact .update rfl rfl rfl (by rw [Dict.ended_life])
  · exact .sendResult ..

theorem State.Keeps.startAccess {s t : State} {d : Door} {index sub op : Nat} (h : s.startAccess d index sub op = some t) : s.Keeps t := by
  unfold State.startAccess at h
  split at h
  · split at h
    · cases h
    · cases h; exact .update rfl rfl rfl rfl
  · split at h
    · cases h; exact .onSession ..
    · cases h

theorem State.Keeps.lostAccess (s : State) (d : Door) : s.Keeps (s.lostAccess d) := by
  unfold State.lostAccess
  dsimp only
  split
  · exact .update rfl rfl rfl rfl
  · exact .refl _

theorem State.Keeps.readAccess (s : State) (d : Door) (index sub c k size : Nat) : s.Keeps (s.readAccess d index sub c k size) := by
  unfold State.readAccess
  dsimp only
  split
  · exact .ite (.answer ..) (.answer ..)
  · exact .answer ..

theorem State.Keeps.infoAccess (s : State) (d : Door) (index sub : Nat) : s.Keeps (s.infoAccess d index sub) := by
  unfold State.infoAccess
  split
  · exact .ite (.answer ..) (.answer ..)
  · exact .answer ..

theorem State.Keeps.writeValue (s : State) (d : Door) (index sub c : Nat) (v : Bytes) : s.Keeps (s.writeValue d index sub c v) := by
  unfold State.writeValue
  dsimp only
  split
  · exact .ite (.answer ..) (.ite (.update rfl rfl rfl rfl) (.ite (.comp (.applyEntry ..) (.answer ..)) (.comp (.answer ..) (.applyEntry ..))))
  · exact .answer ..

theorem State.Keeps.writeChunk (s : State) (d : Door) (index sub c k : Nat) (last : Bool) (size : Nat) (b : Bytes) : s.Keeps (s.writeChunk d index sub
    c k last size b) := by
  unfold State.writeChunk
  dsimp only
  exact .ite (.comp (.answer ..) (.dropStaging ..)) (.comp (.ite (.writeValue ..) (.comp (.answer ..) (.update rfl rfl rfl rfl))) (.dropStaging ..))

theorem State.Keeps.writeAccess (s : State) (d : Door) (index sub c k : Nat) (last : Bool) (size len : Nat) (b : Bytes) : s.Keeps (s.writeAccess d
    index sub c k last size len b) := by
  unfold State.writeAccess
  split
  · exact .ite (.answer ..) (.ite (.answer ..) (.ite (.answer ..) (.ite (.writeChunk ..) (.writeValue ..))))
  · exact .answer ..

theorem State.Keeps.valueAccess (s : State) (d : Door) (index sub c : Nat) (v : Bytes) : s.Keeps (s.valueAccess d index sub c v) := by
  unfold State.valueAccess
  split
  · exact .ite (.comp (.answer ..) (.dropStaging ..)) (.writeValue ..)
  · exact .writeValue ..

theorem State.Keeps.serveOp (s : State) (o : DictOp) : s.Keeps (s.serveOp o) := by
  cases o with
  | read => exact .readAccess ..
  | write => exact .writeAccess ..
  | info => exact .infoAccess ..
  | value => exact .valueAccess ..

theorem State.Keeps.access (s : State) (o : DictOp) : s.Keeps (s.access o) := by
  unfold State.access
  dsimp only
  exact .ite (.update rfl rfl rfl rfl) (.serveOp ..)

theorem State.Keeps.serveQueued (s : State) : s.Keeps s.serveQueued := by
  unfold State.serveQueued
  dsimp only
  exact .ite (.refl _) (.comp (.foldl (fun _ _ => .serveOp ..) _ _) (.update rfl rfl rfl rfl))

theorem State.Keeps.doorWrite (s : State) (d : Door) (index sub c : Nat) (v : Bytes) : s.Keeps (s.doorWrite d index sub c v) := by
  unfold State.doorWrite
  split
  · next ht =>
      exact .comp (.access ..) (.startAccess ht)
  · exact .lostAccess ..

theorem State.Keeps.dictAccess (s : State) (index sub op : Nat) : s.Keeps (s.dictAccess index sub op) := by
  unfold State.dictAccess
  dsimp only
  split
  · exact .lostAccess ..
  · next ht =>
      split
      · exact .comp (.access ..) (.startAccess ht)
      · exact .comp (.access ..) (.startAccess ht)
      · exact .comp (.access ..) (.startAccess ht)
      · exact .comp (.update rfl rfl rfl rfl) (.startAccess ht)

theorem State.Lands.execDictRead (index sub : Nat) (s : State) : s.Lands (execDictRead index sub s) := by
  unfold Machine.execDictRead
  exact .next (.dictAccess ..)

theorem State.Lands.execDictWrite (index sub : Nat) (s : State) : s.Lands (execDictWrite index sub s) := by
  unfold Machine.execDictWrite
  exact .next (.dictAccess ..)

theorem State.Lands.execDictInfo (index sub : Nat) (s : State) : s.Lands (execDictInfo index sub s) := by
  unfold Machine.execDictInfo
  exact .next (.dictAccess ..)

theorem State.Lands.execDictOverrunClear (s : State) : s.Lands (execDictOverrunClear s) := by
  unfold Machine.execDictOverrunClear
  dsimp only
  exact .next (.update rfl rfl rfl rfl)

theorem State.Lands.execDictStagingTimeout (s : State) : s.Lands (execDictStagingTimeout s) := by
  unfold Machine.execDictStagingTimeout
  dsimp only
  exact .next (.update rfl rfl rfl rfl)

theorem State.Lands.execPersistedWriteCommit (readBackOk : Bool) (s : State) : s.Lands (execPersistedWriteCommit readBackOk s) := by
  unfold Machine.execPersistedWriteCommit
  dsimp only
  split
  · exact .next (.refl _)
  · exact .ite (.next (.comp (.ite (.storeWrite ..) (.storeRecord ..)) (.comp (.answer ..) (.comp (.applyEntry ..) (.update rfl rfl rfl rfl)))))
      (.next (.comp (.answer ..) (.comp (.storeReport ..) (.update rfl rfl rfl rfl))))

theorem State.Lands.execLifecycleEnable (d : Door) (f : Fin 7) (ch : Nat) (s : State) : s.Lands (execLifecycleEnable d f ch s) := by
  unfold Machine.execLifecycleEnable
  exact .next (.doorWrite ..)

theorem State.Lands.execLifecycleDisable (d : Door) (f : Fin 7) (ch : Nat) (s : State) : s.Lands (execLifecycleDisable d f ch s) := by
  unfold Machine.execLifecycleDisable
  exact .next (.doorWrite ..)

theorem State.Keeps.failLife (s : State) (f c code : Nat) : s.Keeps (s.failLife f c code) := by
  unfold State.failLife
  dsimp only
  exact .comp (.report ..) (.comp (.ite (.setSumpLink ..) (.refl _)) (.comp (.queueEnable ..) (.comp (.setLife ..) (.comp (.onLife ..) (.stopActions
      ..)))))

theorem State.Lands.execLifecycleStartComplete (f : Fin 7) (ch : Nat) (x : Option Expander) (s : State) : s.Lands (execLifecycleStartComplete f ch x
    s) := by
  unfold Machine.execLifecycleStartComplete
  refine .ite (.next (.refl _)) ?_
  refine .ite ?_ (.next (.setLife ..))
  split
  · exact .ite (.next (.comp (.enumerate ..) (.setLife ..))) (.next (.failLife ..))
  · exact .next (.failLife ..)

theorem State.Lands.execLifecycleStartFail (f : Fin 7) (ch code : Nat) (s : State) : s.Lands (execLifecycleStartFail f ch code s) := by
  unfold Machine.execLifecycleStartFail
  exact .next (.ite (.failLife ..) (.refl _))

theorem State.Lands.execLifecycleStopComplete (f : Fin 7) (ch : Nat) (s : State) : s.Lands (execLifecycleStopComplete f ch s) := by
  unfold Machine.execLifecycleStopComplete
  dsimp only
  exact .ite (.next (.refl _)) (.next (.comp (.ite (.startLife ..) (.refl _)) (.comp (.setLife ..) (.stopActions ..))))

theorem State.Lands.execEnableRecordWrite (readBackOk : Bool) (s : State) : s.Lands (execEnableRecordWrite readBackOk s) := by
  unfold Machine.execEnableRecordWrite
  dsimp only
  split
  · exact .next (.refl _)
  · exact .ite (.next (.refl _)) (.ite (.next (.comp (.storeRecord ..) (.comp (.onLife ..) (.update rfl rfl rfl rfl)))) (.next (.comp (.storeReport
      ..) (.update rfl rfl rfl rfl))))

theorem State.Lands.execRouteSwitchDrip (d : Door) (v : Word) (s : State) : s.Lands (execRouteSwitchDrip d v s) := by
  unfold Machine.execRouteSwitchDrip
  exact .next (.doorWrite ..)

theorem State.Lands.execPortDisable (d : Door) (sl : SliceId) (p : PortId) (disable : Bool) (s : State) : s.Lands (execPortDisable d sl p disable s)
    := by
  unfold Machine.execPortDisable
  exact .next (.doorWrite ..)

theorem State.Lands.execRegionEntry (d : Door) (sl : SliceId) (v : Bytes) (s : State) : s.Lands (execRegionEntry d sl v s) := by
  unfold Machine.execRegionEntry
  exact .next (.doorWrite ..)

theorem State.Lands.execRegionHandoff (d : Door) (sl : SliceId) (v : Bytes) (s : State) : s.Lands (execRegionHandoff d sl v s) := by
  unfold Machine.execRegionHandoff
  exact .next (.doorWrite ..)

theorem State.Lands.execCollEpochDrip (d : Door) (v : Word) (s : State) : s.Lands (execCollEpochDrip d v s) := by
  unfold Machine.execCollEpochDrip
  exact .next (.doorWrite ..)

theorem State.Lands.execLedgerEnable (d : Door) (sl : SliceId) (on : Bool) (s : State) : s.Lands (execLedgerEnable d sl on s) := by
  unfold Machine.execLedgerEnable
  exact .next (.doorWrite ..)

theorem State.Lands.execRingEnable (d : Door) (on : Bool) (s : State) : s.Lands (execRingEnable d on s) := by
  unfold Machine.execRingEnable
  exact .next (.doorWrite ..)

theorem State.Lands.execHotServe (d : Door) (slot : Nat) (s : State) : s.Lands (execHotServe d slot s) := by
  unfold Machine.execHotServe
  exact .next (.doorWrite ..)

theorem State.Lands.execReshapeArm (d : Door) (v : Word) (s : State) : s.Lands (execReshapeArm d v s) := by
  unfold Machine.execReshapeArm
  exact .next (.doorWrite ..)

theorem State.Lands.execReshapeDisarm (d : Door) (s : State) : s.Lands (execReshapeDisarm d s) := by
  unfold Machine.execReshapeDisarm
  exact .next (.doorWrite ..)

theorem State.Lands.execLoadStart (d : Door) (s : State) : s.Lands (execLoadStart d s) := by
  unfold Machine.execLoadStart
  exact .next (.doorWrite ..)

theorem State.Lands.execLoadChain (d : Door) (v : Bytes) (s : State) : s.Lands (execLoadChain d v s) := by
  unfold Machine.execLoadChain
  exact .next (.doorWrite ..)

theorem State.Lands.execEpochSwitch (d : Door) (v : Word) (s : State) : s.Lands (execEpochSwitch d v s) := by
  unfold Machine.execEpochSwitch
  exact .next (.doorWrite ..)

theorem State.Lands.execQuoteNonce (d : Door) (v : Bytes) (s : State) : s.Lands (execQuoteNonce d v s) := by
  unfold Machine.execQuoteNonce
  exact .next (.doorWrite ..)

theorem State.Lands.execMr7Extend (d : Door) (v : Bytes) (s : State) : s.Lands (execMr7Extend d v s) := by
  unfold Machine.execMr7Extend
  exact .next (.doorWrite ..)

theorem State.Lands.execDefaultsRestore (d : Door) (s : State) : s.Lands (execDefaultsRestore d s) := by
  unfold Machine.execDefaultsRestore
  exact .next (.doorWrite ..)

theorem State.Lands.execCredentialWrite (d : Door) (sub : Nat) (v : Bytes) (s : State) : s.Lands (execCredentialWrite d sub v s) := by
  unfold Machine.execCredentialWrite
  exact .next (.doorWrite ..)

theorem State.Lands.execFwStageData (d : Door) (v : Bytes) (s : State) : s.Lands (execFwStageData d v s) := by
  unfold Machine.execFwStageData
  exact .next (.doorWrite ..)

theorem State.Lands.execFwStageCommit (d : Door) (len : Nat) (s : State) : s.Lands (execFwStageCommit d len s) := by
  unfold Machine.execFwStageCommit
  exact .next (.doorWrite ..)

theorem State.Lands.execFwRollout (d : Door) (s : State) : s.Lands (execFwRollout d s) := by
  unfold Machine.execFwRollout
  exact .next (.doorWrite ..)

theorem State.Lands.execFwRollback (d : Door) (s : State) : s.Lands (execFwRollback d s) := by
  unfold Machine.execFwRollback
  exact .next (.doorWrite ..)

theorem State.Lands.execFwBootSlot (d : Door) (slot : Nat) (s : State) : s.Lands (execFwBootSlot d slot s) := by
  unfold Machine.execFwBootSlot
  exact .next (.doorWrite ..)

theorem State.Lands.execErrClear (d : Door) (sl : SliceId) (s : State) : s.Lands (execErrClear d sl s) := by
  unfold Machine.execErrClear
  exact .next (.doorWrite ..)

end Sys2Proof.Machine
end

section
/-! Every function of Machine/Uaric keeps the queue and the shape of the device. -/

namespace Sys2Proof.Machine

theorem State.Keeps.reject (s : State) (m : UaricMsg) (code : Nat) : s.Keeps (s.reject m code) := by
  unfold State.reject
  dsimp only
  exact .comp (.emit ..) (.comp (.report ..) (.update rfl rfl rfl rfl))

theorem State.Keeps.closeSession (s : State) (n : Nat) : s.Keeps (s.closeSession n) := by
  unfold State.closeSession
  exact .keepSessions ..

theorem State.Lands.execUaricOpen (m : UaricMsg) (s : State) : s.Lands (execUaricOpen m s) := by
  unfold Machine.execUaricOpen
  dsimp only
  refine .ite (.next (.refl _)) ?_
  split
  · exact .next (.reject ..)
  · exact .next (.comp (.emit ..) (.comp (.update rfl rfl rfl rfl) (.drawTrng ..)))

theorem State.Lands.execProve (m : UaricMsg) (s : State) : s.Lands (execProve m s) := by
  unfold Machine.execProve
  dsimp only
  split
  · exact .next (.refl _)
  · exact .ite (.next (.refl _)) (.ite (.next (.comp (.reject ..) (.update rfl rfl rfl rfl))) (.ite (.next (.comp (.emit ..) (.update rfl rfl rfl
      rfl))) (.next (.comp (.reject ..) (.update rfl rfl rfl rfl)))))

theorem State.Lands.execUaricHandshakeTimeout (h : Nat) (s : State) : s.Lands (execUaricHandshakeTimeout h s) := by
  unfold Machine.execUaricHandshakeTimeout
  dsimp only
  exact .next (.update rfl rfl rfl rfl)

theorem State.Lands.execUaricClose (m : UaricMsg) (s : State) : s.Lands (execUaricClose m s) := by
  unfold Machine.execUaricClose
  split
  · exact .next (.closeSession ..)
  · exact .next (.refl _)

theorem State.Lands.execUaricIdleTimeout (n : Nat) (s : State) : s.Lands (execUaricIdleTimeout n s) := by
  unfold Machine.execUaricIdleTimeout
  exact .next (.closeSession ..)

theorem State.Lands.execCertGet (m : UaricMsg) (s : State) : s.Lands (execCertGet m s) := by
  unfold Machine.execCertGet
  dsimp only
  exact .ite (.next (.refl _)) (.next (.emit ..))

theorem State.Keeps.uaricRequest (s : State) (m : UaricMsg) (type : Nat) (op : Door → DictOp) : s.Keeps (s.uaricRequest m type op) := by
  unfold State.uaricRequest
  split
  · exact .refl _
  · refine .ite (.refl _) ?_
    refine .ite (.ite (.refl _) (.emit ..)) ?_
    refine .ite ?_ (.refl _)
    split
    · next ht =>
        exact .comp (.access ..) (.startAccess ht)
    · exact .refl _

theorem State.Lands.execUaricRead (m : UaricMsg) (s : State) : s.Lands (execUaricRead m s) := by
  unfold Machine.execUaricRead
  exact .next (.uaricRequest ..)

theorem State.Lands.execUaricWrite (m : UaricMsg) (s : State) : s.Lands (execUaricWrite m s) := by
  unfold Machine.execUaricWrite
  exact .next (.uaricRequest ..)

theorem State.Lands.execUaricInfo (m : UaricMsg) (s : State) : s.Lands (execUaricInfo m s) := by
  unfold Machine.execUaricInfo
  exact .next (.uaricRequest ..)

end Sys2Proof.Machine
end

section
/-! Every function of Machine/Firmware keeps the queue and the shape of the device. -/

namespace Sys2Proof.Machine

theorem State.Keeps.processorLost (s : State) (k : Nat) : s.Keeps (s.processorLost k) := by
  unfold State.processorLost
  split
  · exact .comp (.report ..) (.failUnit ..)
  · exact .report ..

theorem State.Keeps.undone (s : State) : s.Keeps s.undone := by
  unfold State.undone
  dsimp only
  exact .update rfl rfl rfl rfl

theorem State.Keeps.measureStep (s : State) (k : Nat) : s.Keeps (s.measureStep k) := by
  unfold State.measureStep
  dsimp only
  exact .comp (.update rfl rfl rfl rfl) (.extendMR ..)

theorem State.Lands.execHandoverStep (digestOk : Bool) (s : State) : s.Lands (execHandoverStep digestOk s) := by
  unfold Machine.execHandoverStep
  dsimp only
  exact .ite (.next (.refl _)) (.ite (.next (.comp (.ite (.measureStep ..) (.refl _)) (.update rfl rfl rfl rfl))) (.ite (.next (.comp (.fwCause ..)
      (.comp (.undone ..) (.processorLost ..)))) (.next (.comp (.fwCause ..) (.comp (.reverting ..) (.report ..))))))

theorem State.Lands.execImageReady (s : State) : s.Lands (execImageReady s) := by
  unfold Machine.execImageReady
  dsimp only
  exact .ite (.next (.refl _)) (.ite (.next (.comp (.serveQueued ..) (.comp (.fwCause ..) (.comp (.undone ..) (.ite (.refl _) (.measureStep ..))))))
      (.next (.comp (.serveQueued ..) (.comp (.update rfl rfl rfl rfl) (.ite (.refl _) (.measureStep ..))))))

theorem State.Lands.execHandoverReadyTimeout (oldReturns : Bool) (s : State) : s.Lands (execHandoverReadyTimeout oldReturns s) := by
  unfold Machine.execHandoverReadyTimeout
  dsimp only
  exact .ite (.next (.refl _)) (.ite (.next (.comp (.serveQueued ..) (.comp (.fwCause ..) (.comp (.undone ..) (.processorLost ..))))) (.next (.comp
      (.fwCause ..) (.comp (.update rfl rfl rfl rfl) (.comp (.reverting ..) (.report ..))))))

theorem State.Keeps.returnProcessor (s : State) : s.Keeps s.returnProcessor := by
  unfold State.returnProcessor
  dsimp only
  split
  · exact .refl _
  · exact .comp (.serveQueued ..) (.comp (.ite (.refl _) (.processorLost ..)) (.update rfl rfl rfl rfl))

theorem State.Lands.execRolloutResume (s : State) : s.Lands (execRolloutResume s) := by
  unfold Machine.execRolloutResume
  exact .next (.ite (.comp (.fwCause ..) (.checkHold ..)) (.refl _))

theorem State.Lands.execBootSlotCommit (readBackOk : Bool) (s : State) : s.Lands (execBootSlotCommit readBackOk s) := by
  unfold Machine.execBootSlotCommit
  dsimp only
  exact .ite (.next (.refl _)) (.ite (.next (.comp (.fwCause ..) (.comp (.storeRecord ..) (.update rfl rfl rfl rfl)))) (.next (.storeReport ..)))

end Sys2Proof.Machine
end

section
/-! Every function of Machine/HostRegs keeps the queue and the shape of the device. -/

namespace Sys2Proof.Machine

theorem State.Keeps.hostReport (s : State) : s.Keeps s.hostReport := by
  unfold State.hostReport
  exact .report ..

theorem State.Keeps.barAbort (s : State) : s.Keeps s.barAbort := by
  unfold State.barAbort
  dsimp only
  exact .comp (.hostReport ..) (.update rfl rfl rfl rfl)

theorem State.Keeps.sendPending (s : State) : s.Keeps s.sendPending := by
  unfold State.sendPending
  refine .ite (.refl _) (.foldl (fun t v => .ite (.refl _) ?_) _ _)
  exact .comp (.pushChan ..) (.update rfl rfl rfl rfl)

theorem State.Keeps.setEvtCtrl (s : State) (v : Nat) : s.Keeps (s.setEvtCtrl v) := by
  unfold State.setEvtCtrl
  dsimp only
  exact .comp (.ite (.msix ..) (.refl _)) (.update rfl rfl rfl rfl)

theorem State.Keeps.setMsixTable (s : State) (o v : Nat) : s.Keeps (s.setMsixTable o v) := by
  unfold State.setMsixTable
  dsimp only
  exact .comp (.sendPending ..) (.update rfl rfl rfl rfl)

theorem State.Keeps.setReg (s : State) (o v w : Nat) (low : Bool) : s.Keeps (s.setReg o v w low) := by
  unfold State.setReg
  dsimp only
  exact .ite (.update rfl rfl rfl rfl) (.ite (.setEvtCtrl ..) (.ite (.update rfl rfl rfl rfl) (.ite (.update rfl rfl rfl rfl) (.ite (.ite (.refl _)
      (.update rfl rfl rfl rfl)) (.ite (.ite (.dictAccess ..) (.refl _)) (.ite (.ite (.update rfl rfl rfl rfl) (.refl _)) (.ite (.ite (.refl _)
      (.update rfl rfl rfl rfl)) (.ite (.setMsixTable ..) (.ite (.ite (.setRingHead ..) (.ite (.onRing ..) (.refl _))) (.ite (.onSl _ _ fun _ h =>
      .ite (.update h rfl rfl rfl) h) (.refl _)))))))))))

theorem State.Lands.execBar0InvalidAccess (off size : Nat) (isWrite : Bool) (s : State) : s.Lands (execBar0InvalidAccess off size isWrite s) := by
  unfold Machine.execBar0InvalidAccess
  dsimp only
  exact .ite (.next (.refl _)) (.next (.comp (.ite (.refl _) (.emit ..)) (.barAbort ..)))

theorem State.Lands.execRegisterWrite (off : Nat) (data : Bytes) (s : State) : s.Lands (execRegisterWrite off data s) := by
  unfold Machine.execRegisterWrite
  dsimp only
  exact .ite (.next (.setReg ..)) (.next (.barAbort ..))

theorem State.Lands.execEvtCauseClear (mask : Nat) (s : State) : s.Lands (execEvtCauseClear mask s) := by
  unfold Machine.execEvtCauseClear
  exact .next (.setReg ..)

theorem State.Lands.execMsixUnmask (v : Fin 64) (s : State) : s.Lands (execMsixUnmask v s) := by
  unfold Machine.execMsixUnmask
  exact .next (.setMsixTable ..)

theorem State.Lands.execMsixModTimeout (ring : Fin 64) (s : State) : s.Lands (execMsixModTimeout ring s) := by
  unfold Machine.execMsixModTimeout
  dsimp only
  exact .next (.ite (.signalVector ..) (.refl _))

end Sys2Proof.Machine
end

section
/-! Every function of Machine/HostPort keeps the queue and the shape of the device. -/

namespace Sys2Proof.Machine

theorem State.Lands.bar2Read (s : State) (off len : Nat) : s.Lands (s.bar2Read off len) := by
  unfold State.bar2Read
  split
  · exact .ite (.next (.emit ..)) (.next (.comp (.emit ..) (.barAbort ..)))
  · exact .next (.comp (.emit ..) (.barAbort ..))

theorem State.Lands.execBar2Read (off : Reads Nat) (len : Nat) (s : State) : s.Lands (execBar2Read off len s) := by
  unfold Machine.execBar2Read
  refine .comp (.bar2Read ..) ?_
  split
  · exact .findBad ..
  · exact .refl _

theorem State.Lands.execBar2Write (t : Tlp) (s : State) : s.Lands (execBar2Write t s) := by
  unfold Machine.execBar2Write
  split
  · exact .ite (.next (.barAbort ..)) (.ite (.next (.hostReport ..)) (.next (.onSl _ _ fun _ h => .store h ..)))
  · exact .next (.barAbort ..)

theorem State.Lands.execBar2ReadTimeout (s : State) : s.Lands (execBar2ReadTimeout s) := by
  unfold Machine.execBar2ReadTimeout
  exact .next (.comp (.emit ..) (.barAbort ..))

theorem State.Keeps.failRead (s : State) (j : DmaJob) : s.Keeps (s.failRead j) := by
  unfold State.failRead
  dsimp only
  split
  · exact .comp (.endNext ..) (.comp (.hostReport ..) (.update rfl rfl rfl rfl))
  · exact .comp (.copyFailed ..) (.comp (.hostReport ..) (.update rfl rfl rfl rfl))
  · exact .comp (.ite (.failLoad ..) (.refl _)) (.comp (.hostReport ..) (.update rfl rfl rfl rfl))
  · exact .comp (.hostReport ..) (.update rfl rfl rfl rfl)

theorem State.Keeps.failJob (s : State) (j : DmaJob) : s.Keeps (s.failJob j) := by
  unfold State.failJob
  split
  · exact .endNext ..
  · exact .copyFailed ..
  · exact .ite (.failRead ..) (.refl _)

theorem State.Keeps.stallDma (s : State) : s.Keeps s.stallDma :=
  .comp (.foldl (fun _ _ => .failJob ..) _ _) (.of_shape rfl rfl fun ⟨_, hr, _, hl⟩ => ⟨hr, by simp, hl⟩)

theorem State.Keeps.setHead (s : State) (ch : Nat) (rest : List DmaJob) (left : Option DmaJob) : s.Keeps (s.setHead ch rest left) := by
  unfold State.setHead
  dsimp only
  exact .update rfl (by simp) rfl rfl

theorem State.Keeps.issueWrite (s : State) (ch : Nat) (rest : List DmaJob) (j : DmaJob) : s.Keeps (s.issueWrite ch rest j) := by
  unfold State.issueWrite
  dsimp only
  split
  · exact .comp (.ite (.outputWritten ..) (.refl _)) (.comp (.emit ..) (.setHead ..))
  · exact .comp (.copyMoved ..) (.comp (.emit ..) (.setHead ..))
  · exact .comp (.emit ..) (.setHead ..)
  · exact .comp (.emit ..) (.comp (.emit ..) (.setHead ..))
  · exact .refl _

theorem State.Lands.execDmaRequestIssue (s : State) : s.Lands (execDmaRequestIssue s) := by
  unfold Machine.execDmaRequestIssue
  dsimp only
  refine .ite (.next (.stallDma ..)) ?_
  split
  · exact .next (.refl _)
  · split
    · exact .next (.refl _)
    · exact .ite (.next (.comp (.emit ..) (.comp (.update rfl rfl rfl rfl) (.comp (.setHead ..) (.update rfl rfl rfl rfl))))) (.next (.comp
        (.issueWrite ..) (.update rfl rfl rfl rfl)))

theorem State.Keeps.landRead (s : State) (j : DmaJob) (data : Bytes) : s.Keeps (s.landRead j data) := by
  unfold State.landRead
  split
  · exact .inputLanded ..
  · exact .ite (.comp (.copyMoved ..) (.onSl _ _ fun _ h => .store h ..)) (.refl _)
  · exact .refl _

theorem State.Keeps.endRead (s : State) (tag : Nat) {f : DmaJob → State → State} (hf : ∀ (j : DmaJob) (s : State), s.Keeps (f j s)) :
    s.Keeps (s.endRead tag f) := by
  unfold State.endRead
  split
  · exact .refl _
  · exact .comp (hf _ _) (.update rfl rfl rfl rfl)

theorem State.Lands.execHostReadCompletion (tag : Nat) (data : Bytes) (ok : Bool) (s : State) : s.Lands (execHostReadCompletion tag data ok s) := by
  unfold Machine.execHostReadCompletion
  exact .next (.endRead _ _ fun _ _ => .ite (.landRead ..) (.failRead ..))

theorem State.Lands.execHostReadTimeout (tag : Nat) (s : State) : s.Lands (execHostReadTimeout tag s) := by
  unfold Machine.execHostReadTimeout
  exact .next (.endRead _ _ fun _ _ => .failRead ..)

theorem State.Keeps.dropRequests (s : State) (sl : Nat) : s.Keeps (s.dropRequests sl) := by
  unfold State.dropRequests
  dsimp only
  exact .comp (.update rfl rfl rfl rfl) (.comp (.onSvc ..) (.endReqs ..))

theorem State.Keeps.functionReset (s : State) : s.Keeps s.functionReset := by
  unfold State.functionReset
  extract_lets t u v w
  have hw : s.Keeps w := by
    refine .comp (.onAll _ fun _ h => .update h rfl rfl rfl) (.comp (.ite (.setLoad ..) (.refl _)) ?_)
    exact .comp (.eachSlice (fun _ _ => .dropRequests ..) _) (.foldl (fun _ _ => .tearCtx ..) _ _)
  exact hw.trans (.comp (.hostReport _) (.of_shape (s := w) rfl rfl fun ⟨_, hr, _, hm, hl⟩ => ⟨by simpa [HostPort.afterReset] using hr, rfl, hm, hl⟩))

theorem State.Lands.execFlr (s : State) : s.Lands (execFlr s) := by
  unfold Machine.execFlr
  exact .next (.functionReset ..)

theorem State.Lands.execPerstN (k : HostReset) (s : State) : s.Lands (execPerstN k s) := by
  unfold Machine.execPerstN
  dsimp only
  split
  · exact .next (.comp (.update rfl rfl rfl rfl) (.functionReset ..))
  · exact .next (.comp (.update rfl rfl rfl rfl) (.functionReset ..))
  · exact .next (.comp (.update rfl rfl rfl rfl) (.functionReset ..))

theorem State.Lands.execHostLinkDown (bme : Bool) (s : State) : s.Lands (execHostLinkDown bme s) := by
  unfold Machine.execHostLinkDown
  refine .next (.comp (.stallDma _) (.update ?_ ?_ rfl rfl))
  · split <;> rfl
  · split <;> rfl

theorem State.Lands.execHostLinkUp (width speed : Nat) (s : State) : s.Lands (execHostLinkUp width speed s) := by
  unfold Machine.execHostLinkUp
  dsimp only
  exact .ite (.next (.update rfl rfl rfl rfl)) (.next (.refl _))

theorem State.Lands.execConfigurationRequest (x : ConfigReq) (s : State) : s.Lands (execConfigurationRequest x s) := by
  unfold Machine.execConfigurationRequest
  dsimp only
  refine .ite (.next (.emit ..)) ?_
  refine .next ?_
  refine .comp (.emit ..) ?_
  split
  · exact .refl _
  · exact .ite (.update rfl rfl rfl rfl) (.refl _)
  · exact .comp (.ite (.refl _) (.stallDma ..)) (.update rfl rfl rfl rfl)
  · exact .comp (.sendPending ..) (.update rfl rfl rfl rfl)
  · exact .ite (.update rfl rfl rfl rfl) (.refl _)

end Sys2Proof.Machine
end

section
/-! Every function of Machine/Power keeps the queue and the shape of the device. -/

namespace Sys2Proof.Machine

theorem State.Keeps.powerReport (s : State) (sl kind : Nat) (detail : List Nat) : s.Keeps (s.powerReport sl kind detail) := by
  unfold State.powerReport
  exact .report ..

/-- A slice whose engines, quads and memory are as at reset has the shape. -/
theorem SliceState.ok.of_reset {y : SliceState} (hm : y.mem.wf = true) (he : y.engines = List.replicate 4 {}) (hq : y.quads = List.replicate 8 {})
    (hp : y.ports.length = 8) (hi : y.ilinks.length = 8) (hl : y.life.length = 3) : y.ok := by
  refine ⟨hm, ⟨by rw [he]; rfl, fun g hg => ?_⟩, ⟨by rw [hq]; rfl, fun k hk => ?_⟩, hp, hi, hl⟩
  · rw [he] at hg; rw [List.eq_of_mem_replicate hg]; exact .fresh false
  · rw [hq] at hk; rw [List.eq_of_mem_replicate hk]; exact .fresh []

theorem SliceState.ok.cold {x : SliceState} (h : x.ok) (vaux : Bool) : (x.cold vaux).ok := by
  obtain ⟨-, -, -, hp, -, hl⟩ := h
  exact .of_reset rfl rfl rfl (by simpa [SliceState.cold] using hp) rfl (by simpa [SliceState.cold] using hl)

/-- A state whose slices are each changed in a way that keeps their shape, with the numbers of the other parts. -/
theorem State.Keeps.of_map {s t : State} {f : SliceState → SliceState} (hp : t.pending = s.pending) (hs : t.slices = s.slices.map f)
    (hf : ∀ x, x.ok → (f x).ok) (hr : s.Inv → t.host.rings.length = 64 ∧ t.host.chans.length = 18 ∧ t.sec.mr.length = 8 ∧ t.dict.life.length = 4) :
    s.Keeps t := by
  refine ⟨hp, fun h => ⟨⟨by simpa [hs] using h.1.1, fun x hx => ?_⟩, hr h⟩⟩
  rw [hs] at hx
  obtain ⟨y, hy, rfl⟩ := List.mem_map.1 hx
  exact hf y (h.1.2 y hy)

theorem State.Keeps.cold (s : State) (vaux : Bool) : s.Keeps (s.cold vaux) :=
  .of_map rfl rfl (fun _ h => h.cold vaux) fun ⟨_, _, _, _, hl⟩ => ⟨rfl, rfl, rfl, by simpa [State.cold, Dict.cold] using hl⟩

theorem SliceState.ok.warm {x : SliceState} (h : x.ok) : x.warm.ok := by
  obtain ⟨hm, -, -, hp, hi, hl⟩ := h
  refine .of_reset ?_ rfl rfl ?_ ?_ ?_
  · exact Memory.wf_filter hm _
  · simpa [SliceState.warm, SliceState.cold] using hp
  · simpa [SliceState.warm] using hi
  · simpa [SliceState.warm, SliceState.cold] using hl

theorem State.Keeps.warm (s : State) : s.Keeps s.warm :=
  .of_map rfl rfl (fun _ h => h.warm) fun ⟨_, _, _, hmr, hl⟩ => ⟨rfl, rfl, hmr, by simpa [State.warm, State.cold, Dict.cold] using hl⟩

theorem State.Keeps.restored (s : State) : s.Keeps s.restored := by
  unfold State.restored
  split
  · exact .refl _
  · exact .of_map rfl rfl (fun _ h => .of_eq h rfl rfl rfl (by simp) rfl h.2.2.2.2.2.symm) fun ⟨_, hr, hc, hm, _⟩ => ⟨hr, hc, hm, rfl⟩

theorem State.Keeps.withStore (s : State) (l : List StoreRecord) : s.Keeps (s.withStore l) := by
  unfold State.withStore
  dsimp only
  exact .update rfl rfl rfl rfl

theorem State.Keeps.loadEntry (s : State) (index sub c : Nat) (v : Bytes) : s.Keeps (s.loadEntry index sub c v) := by
  unfold State.loadEntry
  dsimp only
  split
  · exact .update rfl rfl rfl rfl
  · exact .update rfl rfl rfl rfl
  · exact .onSl _ _ fun _ h => .update h rfl rfl rfl
  · exact .update rfl rfl rfl rfl
  · exact .update rfl rfl rfl rfl
  · exact .update rfl rfl rfl rfl
  · exact .update rfl rfl rfl rfl
  · exact .update rfl rfl rfl rfl
  · exact .update rfl rfl rfl rfl
  · exact .onLink ..
  · exact .onLink ..
  · exact .ite (.onLife ..) (.applyEntry ..)

theorem State.Keeps.loadStore (s : State) (lost : List LostRecord) : s.Keeps (s.loadStore lost) := by
  unfold State.loadStore
  dsimp only
  exact .foldl (fun _ _ => .ite (.refl _) (.comp (.withStore ..) (.loadEntry ..))) _ _

theorem State.Keeps.reportLost (s : State) (lost : List LostRecord) : s.Keeps (s.reportLost lost) := by
  unfold State.reportLost
  exact .foldl (fun _ _ => .storeReport ..) _ _

theorem State.Keeps.countBoot (s : State) : s.Keeps s.countBoot := by
  unfold State.countBoot
  dsimp only
  exact .devicePersist _ _ _ _ _ fun _ => .update rfl rfl rfl rfl

theorem State.Keeps.countBootFail (s : State) : s.Keeps s.countBootFail := by
  unfold State.countBootFail
  dsimp only
  exact .comp (.report ..) (.devicePersist _ _ _ _ _ fun _ => .update rfl rfl rfl rfl)

theorem State.Keeps.countTrips (s : State) (n : Nat) : s.Keeps (s.countTrips n) := by
  unfold State.countTrips
  dsimp only
  exact .ite (.refl _) (.devicePersist _ _ _ _ _ fun _ => .update rfl rfl rfl rfl)

theorem State.Keeps.raiseCounter (s : State) (n : Nat) : s.Keeps (s.raiseCounter n) := by
  unfold State.raiseCounter
  dsimp only
  exact .ite (.refl _) (.devicePersist _ _ _ _ _ fun _ => .update rfl rfl rfl rfl)

theorem State.Keeps.bootIdentity (s : State) (trngOk : Bool) : s.Keeps (s.bootIdentity trngOk) := by
  unfold State.bootIdentity
  extract_lets id k t
  have ht : s.Keeps t := by
    unfold t k
    split
    · exact .drawTrng ..
    · exact .refl _
  exact ht.trans (.of_shape rfl rfl fun ⟨_, hr, hc, _, hl⟩ => ⟨hr, hc, rfl, hl⟩)

theorem State.Keeps.measureSet (s : State) (k : Nat) : s.Keeps (s.measureSet k) := by
  unfold State.measureSet
  dsimp only
  exact .comp (.foldl (fun _ _ => .comp (.extendMR ..) (.comp (.extendMR ..) (.comp (.extendMR ..) (.extendMR ..)))) _ _) (.comp (.extendMR ..) (.comp
      (.extendMR ..) (.extendMR ..)))

theorem State.Keeps.tryBoot (s : State) (k : Nat) (starts : Bool) : s.Keeps (s.tryBoot k starts).2 := by
  unfold State.tryBoot
  dsimp only
  split
  · split
    · exact .comp (.raiseCounter ..) (.comp (.update rfl rfl rfl rfl) (.measureSet ..))
    · exact .comp (.countBootFail _) (.measureSet ..)
  · exact .countBootFail _

theorem State.Keeps.bootSet (s : State) (starts : List Bool) : s.Keeps (s.bootSet starts).2 := by
  unfold State.bootSet
  dsimp only
  split
  · exact .tryBoot ..
  · exact .comp (.tryBoot ..) (.tryBoot ..)

theorem State.Keeps.selfTest (s : State) (b : BootInputs) : s.Keeps (s.selfTest b) := by
  unfold State.selfTest
  dsimp only
  exact .eachSlice (fun _ _ => .onSl _ _ fun _ h => .update h rfl rfl rfl) _

theorem State.Keeps.bringUp (s : State) (b : BootInputs) : s.Keeps (s.bringUp b) := by
  unfold State.bringUp
  dsimp only
  exact .comp (.foldl (fun _ _ => .foldl (fun _ _ => .ite (.startLife ..) (.refl _)) _ _) _ _) (.comp (.update rfl rfl rfl rfl) (.selfTest ..))

theorem State.Lands.execPowerUp (b : BootInputs) (s : State) : s.Lands (execPowerUp b s) := by
  unfold Machine.execPowerUp
  dsimp only
  exact .ite (.next (.refl _)) (.ite (.next (.comp (.powerReport ..) (.comp (.update rfl rfl rfl rfl) (.comp (.reportLost ..) (.comp (.restored ..)
      (.comp (.cold ..) (.loadStore ..))))))) (.ite (.next (.comp (.powerReport ..) (.comp (.update rfl rfl rfl rfl) (.comp (.reportLost ..) (.comp
      (.restored ..) (.comp (.cold ..) (.loadStore ..))))))) (.ite (.next (.comp (.update rfl rfl rfl rfl) (.comp (.bootSet ..) (.comp (.countTrips
      ..) (.comp (.countBoot ..) (.comp (.bootIdentity ..) (.comp (.update rfl rfl rfl rfl) (.comp (.reportLost ..) (.comp (.restored ..) (.comp
      (.cold ..) (.loadStore ..))))))))))) (.next (.comp (.bringUp ..) (.comp (.extendMR ..) (.comp (.selfTest ..) (.comp (.extendMR ..) (.comp
      (.bootSet ..) (.comp (.countTrips ..) (.comp (.countBoot ..) (.comp (.bootIdentity ..) (.comp (.update rfl rfl rfl rfl) (.comp (.reportLost ..)
      (.comp (.restored ..) (.comp (.cold ..) (.loadStore ..)))))))))))))))))

theorem State.Keeps.finishWrite (s : State) (vaux : Bool) : s.Keeps (s.finishWrite vaux) := by
  unfold State.finishWrite
  dsimp only
  split
  · exact .ite (.comp (.storeRecord ..) (.comp (.applyEntry ..) (.update rfl rfl rfl rfl))) (.refl _)
  · exact .refl _

theorem State.Keeps.powerDown (s : State) (vaux : Bool) : s.Keeps (s.powerDown vaux) := by
  unfold State.powerDown
  exact .comp (.cold ..) (.finishWrite ..)

theorem State.Lands.execPwrOkFall (vauxHolds : Bool) (s : State) : s.Lands (execPwrOkFall vauxHolds s) := by
  unfold Machine.execPwrOkFall
  exact .next (.powerDown ..)

theorem State.Keeps.failSlice (s : State) (sl : Nat) : s.Keeps (s.failSlice sl) := by
  unfold State.failSlice
  dsimp only
  refine .comp (.foldl (fun _ _ => .ite (.refl _) (.comp (.goDown ..) (.goDown ..))) _ _) ?_
  refine .comp (.foldl (fun _ _ => .ite (.refl _) (.goDown ..)) _ _) ?_
  refine .comp (.onSpares ..) ?_
  refine .comp (.onSl _ _ fun _ h => ?_) (.comp (.foldl (fun _ _ => .onSl _ _ fun _ h => .stopEngine h ..) _ _) (.comp (.endNext ..) (.foldl (fun _ _
      => .faultStage ..) _ _)))
  exact .mapQuads (.foldl (fun _ _ h => h.endRun _ _) _ h) h fun _ hk => .update hk

theorem State.Lands.execRailFault (sl : Option SliceId) (s : State) : s.Lands (execRailFault sl s) := by
  unfold Machine.execRailFault
  split
  · exact .ite (.next (.refl _)) (.next (.comp (.powerReport ..) (.failSlice ..)))
  · exact .next (.powerDown ..)

theorem State.Keeps.restart (s : State) (b : BootInputs) : s.Keeps (s.restart b) := by
  unfold State.restart
  dsimp only
  exact .comp (.ite (.bringUp ..) (.update rfl rfl rfl rfl)) (.comp (.ite (.cause ..) (.refl _)) (.update rfl rfl rfl rfl))

theorem State.Lands.execSysRstAssert (s : State) : s.Lands (execSysRstAssert s) := by
  unfold Machine.execSysRstAssert
  dsimp only
  exact .ite (.next (.refl _)) (.next (.comp (.warm ..) (.update rfl rfl rfl rfl)))

theorem State.Lands.execSysRstRelease (b : BootInputs) (s : State) : s.Lands (execSysRstRelease b s) := by
  unfold Machine.execSysRstRelease
  dsimp only
  exact .ite (.next (.refl _)) (.next (.comp (.ite (.restart ..) (.refl _)) (.update rfl rfl rfl rfl)))

theorem State.Lands.execPllLockLoss (s : State) : s.Lands (execPllLockLoss s) := by
  unfold Machine.execPllLockLoss
  dsimp only
  exact .ite (.next (.refl _)) (.next (.comp (.powerReport ..) (.comp (.warm ..) (.update rfl rfl rfl rfl))))

theorem State.Lands.execPllRelock (b : BootInputs) (s : State) : s.Lands (execPllRelock b s) := by
  unfold Machine.execPllRelock
  dsimp only
  exact .ite (.next (.refl _)) (.next (.comp (.ite (.refl _) (.restart ..)) (.update rfl rfl rfl rfl)))

theorem State.Lands.execVidStep (sl : SliceId) (up : Bool) (s : State) : s.Lands (execVidStep sl up s) := by
  unfold Machine.execVidStep
  dsimp only
  exact .ite (.next (.refl _)) (.next (.comp (.emit ..) (.onSl _ _ fun _ h => .update h rfl rfl rfl)))

theorem State.Keeps.idleAll (s : State) : s.Keeps s.idleAll := by
  unfold State.idleAll
  extract_lets t
  have ht : s.Keeps t := by
    refine .eachSlice (fun _ _ => ?_) _
    refine .comp (.ite (.setSumpLink ..) (.refl _)) ?_
    exact .comp (.foldl (fun _ _ => .ite (.refl _) (.goDown ..)) _ _) (.foldl (fun _ _ => .ite (.refl _) (.goDown ..)) _ _)
  clear_value t
  exact ht.trans (.update rfl rfl rfl rfl)

theorem State.Lands.execSensorRead (sl : SliceId) (temp : Int) (s : State) : s.Lands (execSensorRead sl temp s) := by
  unfold Machine.execSensorRead
  dsimp only
  exact .ite (.next (.comp (.cause ..) (.comp (.onErr ..) (.comp (.powerReport ..) (.comp (.update rfl rfl rfl rfl) (.comp (.idleAll ..) (.onSl _ _
      fun _ h => .update h rfl rfl rfl))))))) (.next (.onSl _ _ fun _ h => .update h rfl rfl rfl))

theorem State.Keeps.divide (s : State) (sl d q : Nat) : s.Keeps (s.divide sl d q) := by
  unfold State.divide
  dsimp only
  exact .comp (.cause ..) (.comp (.powerReport ..) (.onSl _ _ fun _ h => .update h rfl rfl rfl))

theorem State.Keeps.withhold (s : State) (sl : Nat) : s.Keeps (s.withhold sl) := by
  unfold State.withhold
  dsimp only
  exact .comp (.cause ..) (.comp (.powerReport ..) (.comp (.onSl _ _ fun _ h => .update h rfl rfl rfl) (.foldl (fun _ _ => .endTied ..) _ _)))

theorem State.Keeps.judgeWindow (s : State) (package sl : Nat) : s.Keeps (s.judgeWindow package sl) := by
  unfold State.judgeWindow
  dsimp only
  refine .comp (.onSl _ _ fun _ h => .update h rfl rfl rfl) ?_
  split
  · exact .refl _
  · exact .ite (.withhold ..) (.ite (.divide ..) (.refl _))

theorem State.Lands.execPowerWindow (watts : List Nat) (shared : Nat) (s : State) : s.Lands (execPowerWindow watts shared s) := by
  unfold Machine.execPowerWindow
  dsimp only
  refine .next ?_
  refine .comp (.eachSlice (fun _ _ => .judgeWindow ..) _) ?_
  refine .comp (.ite (.powerReport ..) (.refl _)) ?_
  exact .zipIdx rfl (fun _ h => .update h rfl rfl rfl) (.update rfl rfl rfl rfl)

theorem State.Lands.execThrottleRelease (sl : SliceId) (s : State) : s.Lands (execThrottleRelease sl s) := by
  unfold Machine.execThrottleRelease
  dsimp only
  exact .ite (.next (.refl _)) (.ite (.next (.onSl _ _ fun _ h => .update h rfl rfl rfl)) (.ite (.next (.divide ..)) (.next (.refl _))))

theorem State.Lands.execHoldupOkChange (level : Bool) (s : State) : s.Lands (execHoldupOkChange level s) := by
  unfold Machine.execHoldupOkChange
  dsimp only
  exact .next (.update rfl rfl rfl rfl)

theorem State.Lands.execI3cPoll (target : Fin 16) (reading : Nat) (s : State) : s.Lands (execI3cPoll target reading s) := by
  unfold Machine.execI3cPoll
  dsimp only
  exact .ite (.next (.update rfl rfl rfl rfl)) (.next (.refl _))

theorem State.Lands.execI3cIbi (target : Fin 16) (data : Nat) (s : State) : s.Lands (execI3cIbi target data s) := by
  unfold Machine.execI3cIbi
  exact .next (.ite (.powerReport ..) (.refl _))

theorem State.Lands.execTapInstruction (x : TapInstr) (s : State) : s.Lands (execTapInstruction x s) := by
  unfold Machine.execTapInstruction
  dsimp only
  exact .next (.comp (.ite (.emit ..) (.refl _)) (.update rfl rfl rfl rfl))

theorem State.Lands.execTelemetrySample (s : State) : s.Lands (execTelemetrySample s) := by
  unfold Machine.execTelemetrySample
  dsimp only
  exact .ite (.next (.update rfl rfl rfl rfl)) (.next (.refl _))

end Sys2Proof.Machine
end

section
/-! Every function of Machine/Stages keeps the queue and the shape of the device. -/

namespace Sys2Proof.Machine

theorem State.Keeps.launchSelect (s : State) (sl : Nat) (u : Run) (l : Nat) : s.Keeps (s.launchSelect sl u l) := by
  unfold State.launchSelect
  dsimp only
  exact .comp (.ite (.onSvc ..) (.refl _)) (.ite (.beginLayer ..) (.refl _))

theorem SliceState.ok.useSlots {x : SliceState} (h : x.ok) (u : Run) (launch : Drip) : (x.useSlots u launch).ok := by
  unfold SliceState.useSlots
  split
  · exact h
  · exact .onRes h ..

theorem State.Keeps.launchStage (s : State) (sl : Nat) (u : Run) : s.Keeps (s.launchStage sl u) := by
  unfold State.launchStage
  dsimp only
  split
  · refine .comp (.onSl _ _ fun _ h => .startPhase h ..) ?_
    split
    · exact .comp (.launchSelect ..) (.comp (.onSl _ _ fun _ h => .setRun h ..) (.markLaunched ..))
    · exact .comp (.demands ..) (.comp (.onSl _ _ fun _ h => .setRun h ..) (.markLaunched ..))
    · exact .comp (.onSl _ _ fun _ h => .setRun h ..) (.markLaunched ..)
  · split
    · exact .comp (.onSl _ _ fun _ h => .startSegment (.useSlots h ..) ..) (.comp (.onSl _ _ fun _ h => .setRun h ..) (.markLaunched ..))
    · exact .comp (.onSl _ _ fun _ h => .setRun h ..) (.markLaunched ..)
  · exact .comp (.injectAll ..) (.comp (.onSl _ _ fun _ h => .setRun h ..) (.markLaunched ..))
  · exact .comp (.onSl _ _ fun _ h => .setRun h ..) (.markLaunched ..)
  · exact .markLaunched ..

theorem State.Lands.execStageLaunch (sl : SliceId) (i : Nat) (hits : List Collision) (s : State) : s.Lands (execStageLaunch sl i hits s) := by
  unfold Machine.execStageLaunch
  split
  · split
    · exact .next (.refl _)
    · exact .next (.foldl (fun _ _ => .collide ..) _ _)
  · exact .next (.ite (.comp (.foldl (fun _ _ => .collide ..) _ _) (.launchStage ..)) (.noteLate ..))

theorem State.Lands.execStageComplete (sl : SliceId) (i : Nat) (s : State) : s.Lands (execStageComplete sl i s) := by
  unfold Machine.execStageComplete
  split
  · exact .next (.refl _)
  · split
    · exact .next (.ite (.onSl _ _ fun _ h => .completeRun h ..) (.refl _))
    · exact .next (.onSl _ _ fun _ h => .completeRun h ..)
    · exact .next (.refl _)

end Sys2Proof.Machine
end

section
/-! Every function of Machine/Boundary keeps the queue and the shape of the device. -/

namespace Sys2Proof.Machine

theorem State.Keeps.tick (s : State) : s.Keeps s.tick := by
  unfold State.tick
  dsimp only
  exact .comp (.ite (.emit ..) (.refl _)) (.update rfl rfl rfl rfl)

theorem SliceState.ok.takeDrip {x : SliceState} (h : x.ok) (now : Drip) : (x.takeDrip now).ok := by
  unfold SliceState.takeDrip
  dsimp only
  refine .settleRows ?_ now
  obtain ⟨hm, -, -, hp, hi, hl⟩ := h.clearDue
  obtain ⟨-, ⟨he, hg⟩, ⟨hq, hk⟩, -⟩ := h
  refine ⟨hm, ⟨by simpa using he, ?_⟩, ⟨by simpa using hq, ?_⟩, hp, hi, hl⟩
  · intro g hg'
    obtain ⟨g0, h0, rfl⟩ := List.mem_map.1 hg'
    refine ⟨by simpa using (hg g0 h0).1, ?_⟩
    intro t ht
    obtain ⟨t0, h1, rfl⟩ := List.mem_map.1 ht
    split
    · split <;> exact (hg g0 h0).2 t0 h1
    · exact (hg g0 h0).2 t0 h1
  · intro k hk'
    obtain ⟨k0, h0, rfl⟩ := List.mem_map.1 hk'
    split
    · split <;> exact hk k0 h0
    · exact hk k0 h0

theorem State.Keeps.missGrant (s : State) (sl : Nat) (u : Run) (l : Nat) (found : Drip) : s.Keeps (s.missGrant sl u l found) := by
  unfold State.missGrant
  dsimp only
  exact .eachSlice (fun _ _ => .endReqs ..) _

theorem State.Keeps.missAssign (s : State) (sl : Nat) (u : Run) (l : Nat) (found : Drip) : s.Keeps (s.missAssign sl u l found) := by
  unfold State.missAssign
  dsimp only
  exact .endReqs ..

theorem State.Keeps.missOutcome (s : State) (sl : Nat) (u : Run) (found : Drip) : s.Keeps (s.missOutcome sl u found) := by
  unfold State.missOutcome
  dsimp only
  split
  · split
    · exact .endInstance ..
    · exact .refl _
  · exact .endTied ..
  · exact .endTied ..
  · exact .ite (.endTied ..) (.missSlots ..)
  · split
    · exact .missGrant ..
    · exact .missAssign ..
    · exact .endTied ..
  · exact .endTied ..
  · exact .endReqs ..
  · exact .endReqs ..
  · exact .endReqs ..
  · exact .onSl _ _ fun _ h => .update h rfl rfl rfl
  · exact .onSl _ _ fun _ h => .update h rfl rfl rfl
  · exact .onSvc ..
  · exact .refl _
  · exact .refl _
  · exact .refl _
  · exact .refl _

theorem SliceState.ok.freeParked {x : SliceState} (h : x.ok) (u : Run) : (x.freeParked u).ok := by
  unfold SliceState.freeParked
  split
  · exact .unpark h ..
  · exact h

theorem State.Keeps.missRun (s : State) (sl : Nat) (u : Run) (found : Drip) : s.Keeps (s.missRun sl u found) := by
  unfold State.missRun
  dsimp only
  exact .comp (.ite (.report ..) (.refl _)) (.comp (.update rfl rfl rfl rfl) (.comp (.missOutcome ..) (.onSl _ _ fun _ h => .endRunNow (.stopPhase
      (.freeParked h ..) ..) ..)))

theorem State.Keeps.monitor (s : State) (sl : Nat) (found : Drip) : s.Keeps (s.monitor sl found) := by
  unfold State.monitor
  refine .foldl (fun _ _ => ?_) _ _
  split
  · exact .refl _
  · exact .ite (.refl _) (.missRun ..)

theorem State.Keeps.withdrawLaunches (s : State) (sl : Nat) : s.Keeps (s.withdrawLaunches sl) := by
  unfold State.withdrawLaunches
  dsimp only
  exact .foldl (fun _ _ => .comp (.ite (.refl _) (.report ..)) (.comp (.endTied ..) (.onSl _ _ fun _ h => .endRunNow (.freeParked h ..) ..))) _ _

theorem State.Keeps.endLost (s : State) (sl : Nat) : s.Keeps (s.endLost sl) := by
  unfold State.endLost
  dsimp only
  exact .endReqs ..

theorem State.Keeps.endFree (s : State) : s.Keeps s.endFree := by
  unfold State.endFree
  dsimp only
  exact .ite (.refl _) (.comp (.ite (.refl _) (.eachSlice (fun _ _ => .comp (.onSl _ _ fun _ h => .foldl (fun _ _ h => .endRunNow h ..) _ (.onRuns
      (.update h rfl rfl rfl) ..)) (.endReqs ..)) _)) (.update rfl rfl rfl rfl))

theorem SliceState.ok.sumpAbsent {x : SliceState} (h : x.ok) : x.sumpAbsent.ok := by
  unfold SliceState.sumpAbsent
  exact .ite h (.ite (.onRes h ..) h)

theorem State.Keeps.joinPorts (s : State) : s.Keeps s.joinPorts := by
  unfold State.joinPorts
  exact .ite (.refl _) (.onAll _ fun _ h => .update h (by simp) rfl rfl)

theorem State.Keeps.remapWaiting (s : State) (sl : Nat) (w : UnitRef × Option Nat) : s.Keeps (s.remapWaiting sl w) := by
  unfold State.remapWaiting
  dsimp only
  split
  · exact .refl _
  · exact .ite (.comp (.remapLane ..) (.ite (.goDown ..) (.refl _))) (.report ..)

theorem State.Keeps.applyIdle (s : State) : s.Keeps s.applyIdle := by
  unfold State.applyIdle
  dsimp only
  exact .ite (.refl _) (.comp (.eachSlice (fun _ _ => .comp (.foldl (fun _ _ => .remapWaiting ..) _ _) (.onSpares ..)) _) (.applyWaiting ..))

theorem State.Keeps.rolloutDrip (s : State) : s.Keeps s.rolloutDrip := by
  unfold State.rolloutDrip
  dsimp only
  exact .comp (.fwCause ..) (.comp (.checkHold ..) (.update rfl rfl rfl rfl))

theorem State.Keeps.startCtxs (s : State) : s.Keeps s.startCtxs := by
  unfold State.startCtxs
  exact .foldl (fun _ _ => .ite (.comp (.foldl (fun _ _ => .completeCmd ..) _ _) (.onCtx ..)) (.refl _)) _ _

theorem State.Keeps.switchView (s : State) (sl : Nat) : s.Keeps (s.switchView sl) := by
  unfold State.switchView
  dsimp only
  exact .ite (.refl _) (.comp (.foldl (fun _ _ => .report ..) _ _) (.onSl _ _ fun _ h => .update h rfl rfl rfl))

theorem SliceState.ok.frameSlots {x : SliceState} (h : x.ok) (me : Place) : (x.frameSlots me).ok := by
  unfold SliceState.frameSlots
  dsimp only
  exact .ite (.onRes (.update (.ite h (.onRes h ..)) rfl rfl rfl) ..) (.update (.ite h (.onRes h ..)) rfl rfl rfl)

theorem SliceState.ok.newRuns {x : SliceState} (h : x.ok) (si : SliceImage) (last now : Drip) : (x.newRuns si last now).ok := by
  unfold SliceState.newRuns
  dsimp only
  exact .update h rfl rfl rfl

theorem State.Keeps.startPass (s : State) (sl : Nat) : s.Keeps (s.startPass sl) := by
  unfold State.startPass
  dsimp only
  exact .comp (.onSvc ..) (.admitWaiting ..)

theorem State.Keeps.startFrame (s : State) : s.Keeps s.startFrame := by
  unfold State.startFrame
  dsimp only
  exact .comp (.ite (.refl _) (.comp (.eachSlice (fun _ _ => .withdrawLaunches ..) _) (.comp (.eachSlice (fun _ _ => .comp (.startPass ..) (.comp
      (.onSl _ _ fun _ h => .newRuns (.frameSlots h ..) ..) (.switchView ..))) _) (.comp (.startCtxs ..) (.update rfl rfl rfl rfl))))) (.comp
      (.tuningEpoch ..) (.comp (.enterEpoch ..) (.comp (.reshape ..) (.comp (.applyWaiting ..) (.update rfl rfl rfl rfl)))))

theorem State.Lands.execDripBoundary (s : State) : s.Lands (execDripBoundary s) := by
  unfold Machine.execDripBoundary
  dsimp only
  exact .ite (.next (.refl _)) (.next (.comp (.ite (.startFrame ..) (.refl _)) (.comp (.retireEpoch ..) (.comp (.rolloutDrip ..) (.comp
      (.returnProcessor ..) (.comp (.applyIdle ..) (.comp (.joinPorts ..) (.comp (.eachSlice (fun _ _ => .foldl (fun _ _ => .judgeFec ..) _ _) _)
      (.comp (.onAll _ fun _ h => .sumpAbsent h ..) (.comp (.endFree ..) (.comp (.eachSlice (fun _ _ => .endLost ..) _) (.comp (.eachSlice (fun _ _ =>
      .comp (.withdrawLaunches ..) (.monitor ..)) _) (.comp (.eachSlice (fun _ _ => .portNext ..) _) (.comp (.onAll _ fun _ h => .settleFetches
      (.takeDrip h ..) ..) (.comp (.tick ..) (.comp (.settleAll ..) (.eachSlice (fun _ _ => .formDue ..) _)))))))))))))))))

end Sys2Proof.Machine
end

section
/-! Every function of Machine/Dispatch keeps the queue and the shape of the device. -/

namespace Sys2Proof.Machine

theorem State.Lands.exec (i : Instr) (s : State) : s.Lands (exec i s) := by
  unfold Machine.exec
  split
  · exact .execDripBoundary ..
  · exact .execStageLaunch ..
  · exact .execStageComplete ..
  · exact .execTimeSymbolSend ..
  · exact .execTimeSymbol ..
  · exact .execHoldoverTimeout ..
  · exact .execTimePacketSend ..
  · exact .execTimePacket ..
  · exact .execTimeInPps ..
  · exact .execTimeInLock ..
  · exact .execTimeInLoss ..
  · exact .execPanelLanded ..
  · exact .execCountRecord ..
  · exact .execGrantRecord ..
  · exact .execViewRecord ..
  · exact .execPassDigestRecord ..
  · exact .execLookaheadCount ..
  · exact .execRoutingEngineFail ..
  · exact .execUnitFail ..
  · exact .execNop ..
  · exact .execMovi ..
  · exact .execAdd ..
  · exact .execSub ..
  · exact .execMul ..
  · exact .execLogic ..
  · exact .execShift ..
  · exact .execCmp ..
  · exact .execPlog ..
  · exact .execBr ..
  · exact .execHalt ..
  · exact .execLd ..
  · exact .execSt ..
  · exact .execXld ..
  · exact .execXst ..
  · exact .execXcopyGet ..
  · exact .execXcopyPut ..
  · exact .execXatomFadd ..
  · exact .execXatomCas ..
  · exact .execScore ..
  · exact .execTopk ..
  · exact .execCapacityGrant ..
  · exact .execCapacityAssign ..
  · exact .execSort ..
  · exact .execPack ..
  · exact .execSend ..
  · exact .execRecv ..
  · exact .execAlloc ..
  · exact .execDone ..
  · exact .execFree ..
  · exact .execPoolRetry ..
  · exact .execWaitDrip ..
  · exact .execWaitDripWake ..
  · exact .execFenceLocal ..
  · exact .execFenceMark ..
  · exact .execFenceDrain ..
  · exact .execDigest ..
  · exact .execThreadYield ..
  · exact .execUnitComplete ..
  · exact .execRangePrefetch ..
  · exact .execDispatchBlock ..
  · exact .execReturnBlock ..
  · exact .execReturnListWrite ..
  · exact .execCombineStage ..
  · exact .execCombineComplete ..
  · exact .execQuadNop ..
  · exact .execQuadHalt ..
  · exact .execQuadWaitDrip ..
  · exact .execWaitFlag ..
  · exact .execSetFlag ..
  · exact .execQuadLoop ..
  · exact .execBrz ..
  · exact .execQuadSet ..
  · exact .execAddi ..
  · exact .execAddq ..
  · exact .execMuli ..
  · exact .execLdshape ..
  · exact .execWload ..
  · exact .execSwap ..
  · exact .execRowcopy ..
  · exact .execStream ..
  · exact .execAccload ..
  · exact .execDrain ..
  · exact .execDraint ..
  · exact .execPoisonedDrainReport ..
  · exact .execVopConvert ..
  · exact .execVopAdd ..
  · exact .execVopMul ..
  · exact .execVopMax ..
  · exact .execVopMin ..
  · exact .execVopAdds ..
  · exact .execVopMuls ..
  · exact .execVopAxpy ..
  · exact .execVopAddb ..
  · exact .execVopMulb ..
  · exact .execVopExp ..
  · exact .execVopSigmoid ..
  · exact .execVopSilu ..
  · exact .execVopTanh ..
  · exact .execVopLog ..
  · exact .execVopRsqrt ..
  · exact .execVopRecip ..
  · exact .execVopExpsub ..
  · exact .execVopSwiglu ..
  · exact .execVopSum ..
  · exact .execVopSumsq ..
  · exact .execVopMaxred ..
  · exact .execSumpTileArrival ..
  · exact .execFetchComplete ..
  · exact .execPrefetchStage ..
  · exact .execViewStage ..
  · exact .execFrameRelease ..
  · exact .execWindowOpen ..
  · exact .execWindowClose ..
  · exact .execPatrolScrub ..
  · exact .execHbmRetrain ..
  · exact .execPoolLowReset ..
  · exact .execPoolRejectClear ..
  · exact .execLinkRetrainAttempt ..
  · exact .execLinkTrainComplete ..
  · exact .execLinkTrainTimeout ..
  · exact .execLinkFrameSend ..
  · exact .execLinkFrame ..
  · exact .execFrameSilenceTimeout ..
  · exact .execReplayTimeout ..
  · exact .execDownSymbol ..
  · exact .execEgressPacketStart ..
  · exact .execRouterForward ..
  · exact .execRead ..
  · exact .execWrite ..
  · exact .execReduce ..
  · exact .execAtomicFadd ..
  · exact .execAtomicCas ..
  · exact .execMcastWrite ..
  · exact .execOperationApply ..
  · exact .execReadData ..
  · exact .execAck ..
  · exact .execNack ..
  · exact .execAtomicResult ..
  · exact .execE2eTimeout ..
  · exact .execWindowedSend ..
  · exact .execCtrlSkip ..
  · exact .execCtrlLost ..
  · exact .execLossHoldExpiry ..
  · exact .execLostMark ..
  · exact .execRouteSwitchDrip ..
  · exact .execRouteSwitch ..
  · exact .execRouteDrainEnd ..
  · exact .execPortDisable ..
  · exact .execMcastComplete ..
  · exact .execRegionEntry ..
  · exact .execRegionHandoff ..
  · exact .execOwnershipMove ..
  · exact .execHandoffStage ..
  · exact .execCollectiveStep ..
  · exact .execSumChunk ..
  · exact .execResultChunk ..
  · exact .execPull ..
  · exact .execPullRepeat ..
  · exact .execChunkSend ..
  · exact .execCollectiveStepComplete ..
  · exact .execCollEpochDrip ..
  · exact .execMembershipEpoch ..
  · exact .execLedgerScan ..
  · exact .execSubmit ..
  · exact .execCancel ..
  · exact .execCtxOpen ..
  · exact .execCtxClose ..
  · exact .execCopy ..
  · exact .execInputStage ..
  · exact .execOutputMain ..
  · exact .execOutputSqz ..
  · exact .execLayerBoundary ..
  · exact .execRequestDeadline ..
  · exact .execContextTeardown ..
  · exact .execContextOff ..
  · exact .execCompletionWrite ..
  · exact .execLedgerEnable ..
  · exact .execRingEnable ..
  · exact .execRingHead ..
  · exact .execHotServe ..
  · exact .execReshapeArm ..
  · exact .execReshapeDisarm ..
  · exact .execReshape ..
  · exact .execLoadStart ..
  · exact .execLoadHostRead ..
  · exact .execImageItem ..
  · exact .execManifestItem ..
  · exact .execTileItem ..
  · exact .execPanelItem ..
  · exact .execPlacementItem ..
  · exact .execMapItem ..
  · exact .execEndItem ..
  · exact .execItemForward ..
  · exact .execLoadForwardAck ..
  · exact .execLoadSeal ..
  · exact .execUpstreamTimeout ..
  · exact .execLoadChain ..
  · exact .execResumeToken ..
  · exact .execEpochSwitch ..
  · exact .execWeightEpochSwitch ..
  · exact .execEpochRetire ..
  · exact .execPassDigest ..
  · exact .execPassDigestForm ..
  · exact .execHello ..
  · exact .execFinishSign ..
  · exact .execFinish ..
  · exact .execAuthTimeout ..
  · exact .execLinkRekey ..
  · exact .execOldKeyErase ..
  · exact .execTrngHealthFail ..
  · exact .execQuoteNonce ..
  · exact .execQuoteComplete ..
  · exact .execMr7Extend ..
  · exact .execDictRead ..
  · exact .execDictWrite ..
  · exact .execDictInfo ..
  · exact .execDictOverrunClear ..
  · exact .execDictStagingTimeout ..
  · exact .execPersistedWriteCommit ..
  · exact .execDefaultsRestore ..
  · exact .execCredentialWrite ..
  · exact .execLifecycleEnable ..
  · exact .execLifecycleDisable ..
  · exact .execLifecycleStartComplete ..
  · exact .execLifecycleStartFail ..
  · exact .execLifecycleStopComplete ..
  · exact .execEnableRecordWrite ..
  · exact .execUaricOpen ..
  · exact .execProve ..
  · exact .execUaricClose ..
  · exact .execCertGet ..
  · exact .execUaricRead ..
  · exact .execUaricWrite ..
  · exact .execUaricInfo ..
  · exact .execUaricHandshakeTimeout ..
  · exact .execUaricIdleTimeout ..
  · exact .execFwStageData ..
  · exact .execFwStageCommit ..
  · exact .execFwRollout ..
  · exact .execFwRollback ..
  · exact .execFwBootSlot ..
  · exact .execHandoverStep ..
  · exact .execImageReady ..
  · exact .execHandoverReadyTimeout ..
  · exact .execRolloutResume ..
  · exact .execBootSlotCommit ..
  · exact .execMarginSensorRead ..
  · exact .execSpareMigration ..
  · exact .execTelemetrySample ..
  · exact .execErrorReport ..
  · exact .execErrorRecordClose ..
  · exact .execErrClear ..
  · exact .execRegisterWrite ..
  · exact .execBar0InvalidAccess ..
  · exact .execEvtCauseClear ..
  · exact .execMsixUnmask ..
  · exact .execBar2Read ..
  · exact .execBar2Write ..
  · exact .execBar2ReadTimeout ..
  · exact .execDmaRequestIssue ..
  · exact .execHostReadCompletion ..
  · exact .execHostReadTimeout ..
  · exact .execMsixModTimeout ..
  · exact .execFlr ..
  · exact .execPerstN ..
  · exact .execHostLinkDown ..
  · exact .execHostLinkUp ..
  · exact .execSumpLinkDown ..
  · exact .execSumpRetrain ..
  · exact .execSumpReadTimeout ..
  · exact .execSumpEventPoll ..
  · exact .execPowerUp ..
  · exact .execPwrOkFall ..
  · exact .execRailFault ..
  · exact .execSysRstAssert ..
  · exact .execSysRstRelease ..
  · exact .execPllLockLoss ..
  · exact .execVidStep ..
  · exact .execSensorRead ..
  · exact .execPowerWindow ..
  · exact .execThrottleRelease ..
  · exact .execHoldupOkChange ..
  · exact .execI3cPoll ..
  · exact .execI3cIbi ..
  · exact .execTapInstruction ..
  · exact .execPllRelock ..
  · exact .execTrngHealthPass ..
  · exact .execHotServeLoadComplete ..
  · exact .execConfigurationRequest ..

end Sys2Proof.Machine
end

section
/-! What a step keeps: the settled statements on the step, the queue and the shape of the device. -/

namespace Sys2Proof.Machine

/-- Settles O1, by the definition of a step. -/
theorem stepRunsFront : Obligations.StepRunsFront := by
  refine ⟨fun _ _ _ => rfl, fun s h => ?_⟩
  simp [step, h]

/-- Settles O2: each slice of the reset state has fresh engines, quads and links and an empty memory. -/
theorem resetInv : Obligations.ResetInv := by
  have hfresh : ∀ x ∈ State.reset.slices, x = {} := fun x hx => List.eq_of_mem_replicate (n := 8) hx
  refine ⟨⟨⟨rfl, fun x hx => ?_⟩, rfl, rfl, rfl, rfl⟩, rfl, rfl, fun x hx => ?_⟩
  · rw [hfresh x hx]; exact .of_reset rfl rfl rfl rfl rfl rfl
  · rw [hfresh x hx]; exact ⟨rfl, rfl, rfl⟩

/-- Settles O3: taking the front command off leaves the shape alone, and every command keeps it. -/
theorem stepKeepsInv : Obligations.StepKeepsInv := by
  intro s t hs h
  unfold step at h
  split at h
  · cases h; exact hs
  · next c rest _ =>
    obtain ⟨u, hu, -, hinv⟩ := State.Lands.exec c { s with pending := rest }
    cases hu.symm.trans h
    exact hinv hs

/-- Settles O4: every command keeps the queue that the step leaves to it. -/
theorem queueIsFirstInFirstOut : Obligations.QueueIsFirstInFirstOut := by
  intro s t c rest hq h
  obtain ⟨u, hu, hp, -⟩ := State.Lands.exec c { s with pending := rest }
  simp only [step, hq] at h
  cases hu.symm.trans h
  exact hp

/-- Settles O5: every command lands in a next state. -/
theorem noCommandStops : Obligations.NoCommandStops := by
  intro c s
  obtain ⟨t, ht, -⟩ := State.Lands.exec c s
  exact ⟨t, ht⟩

end Sys2Proof.Machine
end

section
/-! SUPPORT. The issue of a plain instruction: what its thread is then. -/

namespace Sys2Proof.Machine

/-! ### What a thread does after its issue -/

theorem SliceState.onEngine_onEngine (x : SliceState) (e : Nat) (f g : Engine → Engine) :
    (x.onEngine e f).onEngine e g = x.onEngine e (g ∘ f) := by
  simp [SliceState.onEngine, List.modify_modify_eq]

theorem Engine.onThread_onThread (g : Engine) (t : Nat) (f k : Thread → Thread) : (g.onThread t f).onThread t k = g.onThread t (k ∘ f) := by
  simp [Engine.onThread, List.modify_modify_eq]

/-- A change of the thread after its issue is part of the issue. -/
theorem State.onThread_afterIssue (s : State) (sl : SliceId) (e : EngineId) (t : ThreadId) (f : Thread → Thread) :
    (s.afterIssue sl e t id).onThread sl e t f = s.afterIssue sl e t f := by
  unfold State.afterIssue State.onThread
  rw [State.onSl_onSl]
  congr 1
  funext x
  simp only [Function.comp_apply, SliceState.onThread, SliceState.onEngine_onEngine]
  congr 1
  funext g
  simp only [Function.comp_apply, Engine.onThread_onThread]
  rfl

/-- A register write after an issue, in the form that discards a write to g0. -/
theorem State.putReg_afterIssue (s : State) (sl : SliceId) (e : EngineId) (t : ThreadId) (n : Nat) (v : Word) :
    (s.afterIssue sl e t id).putReg sl e t n v = s.afterIssue sl e t fun k => { k with g := if n = 0 then k.g else k.g.set n v } := by
  unfold State.putReg
  rw [State.onThread_afterIssue]
  congr 1
  funext k
  unfold Thread.setReg
  split <;> rfl

/-- A predicate write after an issue, in the form that discards a write to p0. -/
theorem State.putPred_afterIssue (s : State) (sl : SliceId) (e : EngineId) (t : ThreadId) (n : Nat) (v : Bool) :
    (s.afterIssue sl e t id).putPred sl e t n v = s.afterIssue sl e t fun k => { k with p := if n = 0 then k.p else k.p.set n v } := by
  unfold State.putPred
  rw [State.onThread_afterIssue]
  congr 1
  funext k
  unfold Thread.setPred
  split <;> rfl

section
variable {s : State} {sl : SliceId} {e : EngineId} {t : ThreadId} {w : Nat} (hw : s.Issues sl e t w) (hg : (s.thread sl e t).guardHolds w = true)
include hw hg

/-- An instruction that writes gD, issued with its guard true. -/
theorem State.issueThread_putReg {form : Form} {n : Nat → Nat} {f : Thread → Nat → Word} {v : Word} (hf : form w = true)
    (hv : f (s.thread sl e t) w = v) :
    s.issueThread sl e t form (fun z h w => z.putReg sl e t (n w) (f h w)) =
      s.afterIssue sl e t fun k => { k with g := if n w = 0 then k.g else k.g.set (n w) v } := by
  rw [State.issueThread_runs hw hf hg, hv, State.putReg_afterIssue]

/-- An instruction that writes pD, issued with its guard true. -/
theorem State.issueThread_putPred {form : Form} {n : Nat → Nat} {f : Thread → Nat → Bool} {v : Bool} (hf : form w = true)
    (hv : f (s.thread sl e t) w = v) :
    s.issueThread sl e t form (fun z h w => z.putPred sl e t (n w) (f h w)) =
      s.afterIssue sl e t fun k => { k with p := if n w = 0 then k.p else k.p.set (n w) v } := by
  rw [State.issueThread_runs hw hf hg, hv, State.putPred_afterIssue]

end

theorem wordLogic_eq (c : Nat) (a b : Word) :
    wordLogic c a b = if c = 0 then a &&& b else if c = 1 then a ||| b else if c = 2 then a ^^^ b else a &&& ~~~b := by
  unfold wordLogic
  split <;> simp_all

theorem predLogic_eq (c : Nat) (a b : Bool) :
    predLogic c a b = if c = 0 then a && b else if c = 1 then a || b else if c = 2 then a != b else a && !b := by
  unfold predLogic
  split <;> simp_all

theorem opIs_eq {w op : Nat} (h : bits w 63 58 = op) : opIs op w = true := by simp [opIs, wOp, h]

theorem opFn1_eq {w op : Nat} {v : Bool} (h : bits w 63 58 = op) (hv : bit (bits w 38 32) 1 = v) : opFn1 op v w = true := by
  simp [opFn1, wOp, wFn, h, hv]

theorem opFn2_eq {w op v : Nat} (h : bits w 63 58 = op) (hv : bits (bits w 38 32) 2 1 = v) : opFn2 op v w = true := by
  simp [opFn2, wOp, wFn2, wFn, h, hv]

end Sys2Proof.Machine
end

section
/-! The arithmetic of a route program and the instructions whose guard is false. -/

namespace Sys2Proof.Machine

theorem compare_of_lt {c : Nat} (hc : c < 6) (a b : Word) :
    compare c a b = some (
      if c = 0 then decide (a = b) else if c = 1 then decide (a ≠ b)
      else if c = 2 then decide (a.toNat < b.toNat) else if c = 3 then decide (b.toNat ≤ a.toNat)
      else if c = 4 then decide (a.toInt < b.toInt) else decide (b.toInt ≤ a.toInt)) := by
  obtain rfl | rfl | rfl | rfl | rfl | rfl : c = 0 ∨ c = 1 ∨ c = 2 ∨ c = 3 ∨ c = 4 ∨ c = 5 := by omega
  · simp [compare]; rfl
  · simp [compare, bne]; rfl
  all_goals simp [compare]

theorem wordShift_of_ne {c : Nat} (hc : c < 4) (hc3 : c ≠ 3) (a b : Word) :
    wordShift c a b = some (
      if c = 0 then a <<< (b.toNat % 64) else if c = 1 then a >>> (b.toNat % 64) else a.sshiftRight (b.toNat % 64)) := by
  obtain rfl | rfl | rfl : c = 0 ∨ c = 1 ∨ c = 2 := by omega
  all_goals simp [wordShift]

/-- Settles O6: each row of the table by the value of its function, on the state past the word. -/
theorem routeAlu : Obligations.RouteAlu := by
  intro s sl e t w _ hw hg h op fn d put putP a b
  refine ⟨fun hop => ?nop, fun hop => ?movi, fun hop => ?add, fun hop => ?sub, fun hop => ?mul, fun hop => ?logic, fun hop hc => ?shift,
    fun hop hc => ?cmp, fun hop => ?plog, fun hop => ?br, fun hop hc => ?fenceLocal, fun hop hc => ?fenceMark⟩
  case nop => exact congrArg Host.Outcome.next (State.issueThread_runs hw (opIs_eq hop) hg)
  case movi => exact congrArg Host.Outcome.next (State.issueThread_putReg hw hg (opIs_eq hop) rfl)
  case add => exact congrArg Host.Outcome.next (State.issueThread_putReg hw hg (opIs_eq hop) rfl)
  case sub => exact congrArg Host.Outcome.next (State.issueThread_putReg hw hg (opIs_eq hop) rfl)
  case mul =>
    have hmul : a * b = BitVec.ofNat 64 (a.toNat * b.toNat) := by
      apply BitVec.eq_of_toNat_eq
      simp [BitVec.toNat_mul]
    exact congrArg Host.Outcome.next (State.issueThread_putReg hw hg (opIs_eq hop) hmul)
  case logic => exact congrArg Host.Outcome.next (State.issueThread_putReg hw hg (opIs_eq hop) (wordLogic_eq ..))
  case shift =>
    refine congrArg Host.Outcome.next ((State.issueThread_runs hw (opIs_eq hop) hg).trans ?_)
    have hlt : bits fn 2 1 < 4 := bits_lt ..
    have hs := wordShift_of_ne hlt hc a b
    exact Eq.trans (by rw [show wordShift (wFn2 w) (h.opA w) (h.src2 w) = _ from hs]; rfl) (State.putReg_afterIssue ..)
  case cmp =>
    refine congrArg Host.Outcome.next ((State.issueThread_runs hw (opIs_eq hop) hg).trans ?_)
    exact Eq.trans (by rw [show compare (bits (wFn w) 3 1) (h.opA w) (h.src2 w) = _ from compare_of_lt hc a b]; rfl) (State.putPred_afterIssue ..)
  case plog => exact congrArg Host.Outcome.next (State.issueThread_putPred hw hg (opIs_eq hop) (predLogic_eq ..))
  case br =>
    exact congrArg Host.Outcome.next ((State.issueThread_runs hw (opIs_eq hop) hg).trans (State.onThread_afterIssue ..))
  case fenceLocal => exact congrArg Host.Outcome.next (State.issueThread_runs hw (opFn2_eq hop hc) hg)
  case fenceMark => exact congrArg Host.Outcome.next ((State.issueThread_runs hw (opFn2_eq hop hc) hg).trans (State.onThread_afterIssue ..))

/-- Settles O7: an instruction of either form, issued with its guard false, only goes past its word. -/
theorem routeGuardFalse : Obligations.RouteGuardFalse := by
  intro s sl e t w hw hg go op f1 f2
  have hrow : ∀ {body : State → Thread → Nat → State} {n : Nat}, op = n → Host.Outcome.next (s.issueThread sl e t (opIs n) body) =
      (.next (s.afterIssue sl e t id) : Out) := fun h => congrArg _ (State.issueThread_skips hw (opIs_eq h) hg)
  have hrow1 : ∀ {body : State → Thread → Nat → State} {n : Nat} {v : Bool}, op = n → f1 = v →
      Host.Outcome.next (s.issueThread sl e t (opFn1 n v) body) = (.next (s.afterIssue sl e t id) : Out) := fun h hv =>
    congrArg _ (State.issueThread_skips hw (opFn1_eq h hv) hg)
  have hrow2 : ∀ {body : State → Thread → Nat → State} {n v : Nat}, op = n → f2 = v →
      Host.Outcome.next (s.issueThread sl e t (opFn2 n v) body) = (.next (s.afterIssue sl e t id) : Out) := fun h hv =>
    congrArg _ (State.issueThread_skips hw (opFn2_eq h hv) hg)
  exact ⟨hrow, hrow, hrow, hrow, hrow, hrow, hrow, hrow, hrow, hrow, hrow, hrow, hrow, hrow, hrow, hrow1, hrow1, hrow1, hrow1, hrow, hrow,
    hrow1, hrow1, hrow, hrow, hrow, hrow, hrow, hrow, hrow, hrow, hrow2, hrow2, hrow2, hrow⟩

end Sys2Proof.Machine
end

section
/-! SUPPORT. Parts of the slices that an operation leaves alone, and a thread that faults. -/

namespace Sys2Proof.Machine

/-! ### A part of every slice that an operation leaves alone -/

/-- Every slice of `t` has the part `π` that it has in `s`. -/
def State.Agree {β : Type} (π : SliceState → β) (s t : State) : Prop := ∀ i, π (t.sl i) = π (s.sl i)

section
variable {β : Type} {π : SliceState → β} {s t u : State}

theorem State.Agree.refl (s : State) : State.Agree π s s := fun _ => rfl

theorem State.Agree.of_slices (h : t.slices = s.slices) : State.Agree π s t := fun i => by rw [State.sl, State.sl, h]

theorem State.Agree.trans (a : State.Agree π s t) (b : State.Agree π t u) : State.Agree π s u := fun i => (b i).trans (a i)

theorem State.Agree.comp (b : State.Agree π t u) (a : State.Agree π s t) : State.Agree π s u := a.trans b

theorem State.Agree.ite {p : Prop} [Decidable p] (a : State.Agree π s t) (b : State.Agree π s u) : State.Agree π s (if p then t else u) := by
  split <;> assumption

theorem State.onSl_sl_of_le (s : State) {i : Nat} (f : SliceState → SliceState) (h : s.slices.length ≤ i) : s.onSl i f = s := by
  simp [State.onSl, List.modify_eq_self h]

theorem State.Agree.onSl {i : Nat} {f : SliceState → SliceState} (h : ∀ x, π (f x) = π x) : State.Agree π s (s.onSl i f) := fun j => by
  obtain hi | hi := Nat.lt_or_ge i s.slices.length
  · rw [State.onSl_sl _ _ _ _ hi]
    split
    · exact h _
    · rfl
  · rw [State.onSl_sl_of_le _ _ hi]

/-- As `onSl`, for a change that leaves the part alone only on the slice it is made on. -/
theorem State.Agree.onSl_at {i : Nat} {f : SliceState → SliceState} (h : π (f (s.sl i)) = π (s.sl i)) : State.Agree π s (s.onSl i f) := fun j => by
  obtain hi | hi := Nat.lt_or_ge i s.slices.length
  · rw [State.onSl_sl _ _ _ _ hi]
    split
    · next hij => subst hij; exact h
    · rfl
  · rw [State.onSl_sl_of_le _ _ hi]

theorem State.Agree.foldl {α : Type} {f : State → α → State} (h : ∀ s a, State.Agree π s (f s a)) (l : List α) (s : State) :
    State.Agree π s (l.foldl f s) := by
  induction l generalizing s with
  | nil => exact .refl _
  | cons a l ih => exact (h s a).trans (ih _)

theorem State.Agree.eachSlice {f : State → Nat → State} (h : ∀ s i, State.Agree π s (f s i)) (s : State) : State.Agree π s (s.eachSlice f) :=
  .foldl h _ s

theorem State.Agree.report {i : Nat} {r : Report} (h : ∀ x e, π { x with err := e } = π x) : State.Agree π s (s.report i r) :=
  .onSl fun _ => h _ _

/-- Ending requests changes the service part, the memory that holds the row map, and the poison over it. -/
theorem SliceState.settleRows_agree (h : ∀ x v m p, π { x with svc := v, mem := m, poison := p } = π x) (x : SliceState) (d : Drip) :
    π (x.settleRows d) = π x := by
  unfold SliceState.settleRows
  dsimp only
  split
  · rfl
  · exact h x _ _ _

variable (h : ∀ x v m p, π { x with svc := v, mem := m, poison := p } = π x)
include h

theorem State.Agree.endReqs {i : Nat} {p : Request → Bool} {a b : Drip} {st : Status} {l : Nat} : State.Agree π s (s.endReqs i p a b st l) :=
  .onSl fun x => (SliceState.settleRows_agree h _ _).trans (h x _ _ _)

theorem State.Agree.endTied {i : Nat} {u : Run} {a b : Drip} {st : Status} : State.Agree π s (s.endTied i u a b st) :=
  .ite (.eachSlice (fun _ _ => .endReqs h) _) (.endReqs h)

theorem State.Agree.faultStage {i : Nat} {u : Run} {st : Status} : State.Agree π s (s.faultStage i u st) := by
  unfold State.faultStage
  exact .ite (.comp (.of_slices rfl) (.endTied h)) (.endTied h)

theorem State.Agree.readFor {i : Nat} {u : Option Run} {rs : List (Nat × Nat)} : State.Agree π s (s.readFor i u rs) := by
  unfold State.readFor
  split
  · exact .ite (.faultStage h) (.refl _)
  · exact .refl _

end

/-! ### A thread that faults -/

/-- A part of the engines that a flag's waking leaves alone. -/
theorem SliceState.completeRun_agree {β : Type} {π : SliceState → β} (hw : ∀ x f, π (x.wakeOn f) = π x)
    (h : ∀ x r c f, π { x with runs := r, toClear := c, flags := f } = π x) (x : SliceState) (u : Run) : π (x.completeRun u) = π x := by
  unfold SliceState.completeRun
  have hend : π (x.endRun u .completed) = π x := h x _ _ x.flags
  cases hs : u.entry.f.sets with
  | none => exact hend
  | some f =>
    refine Eq.trans ?_ hend
    show π (SliceState.setFlag _ f) = _
    unfold SliceState.setFlag
    split
    · rfl
    · exact (h _ _ _ _).trans (hw _ f)

theorem SliceState.tryCompletePhase_agree {β : Type} {π : SliceState → β} (hw : ∀ x f, π (x.wakeOn f) = π x)
    (h : ∀ x r c f, π { x with runs := r, toClear := c, flags := f } = π x) (x : SliceState) (e t : Nat) : π (x.tryCompletePhase e t) = π x := by
  unfold SliceState.tryCompletePhase
  dsimp only
  split
  · split
    · exact SliceState.completeRun_agree hw h _ _
    · rfl
  · rfl

theorem State.Agree.endThreadWith {β : Type} {π : SliceState → β} {s : State} {i e t : Nat} {st : Status} (hw : ∀ x f, π (x.wakeOn f) = π x)
    (hr : ∀ x r c f, π { x with runs := r, toClear := c, flags := f } = π x)
    (h : ∀ x v m p, π { x with svc := v, mem := m, poison := p } = π x) :
    State.Agree π (s.onSl i fun x => x.stopThread e t) (s.endThreadWith i e t st) := by
  unfold State.endThreadWith
  dsimp only
  have h2 : State.Agree π (s.onSl i fun x => x.stopThread e t) (match (s.sl i).threadRun e t with
      | some u => (s.onSl i fun x => x.stopThread e t).endTied i u s.now (s.now.plus 1) st
      | none => s.onSl i fun x => x.stopThread e t) := by
    split
    · exact .endTied h
    · exact .refl _
  refine .ite (.comp (.onSl fun x => ?_) (.comp (.of_slices rfl) h2)) (.comp (.onSl fun x => SliceState.tryCompletePhase_agree hw hr _ _ _) h2)
  unfold SliceState.noComplete
  split
  · exact hr x _ x.toClear x.flags
  · rfl

/-- The registers of a thread, and whether it is IDLE. -/
def SliceState.threadPart (e t : Nat) (x : SliceState) : List Word × Bool := (((x.engine e).thread t).g, decide (((x.engine e).thread t).st = .idle))

theorem SliceState.wakeOn_thread (x : SliceState) (f e t : Nat) :
    ((x.wakeOn f).engine e).thread t =
      if ((x.engine e).thread t).st = .waitFlag f then { (x.engine e).thread t with st := .ready } else (x.engine e).thread t := by
  unfold SliceState.engine Engine.thread SliceState.wakeOn
  simp only [List.getD_eq_getElem?_getD, List.getElem?_map]
  cases x.engines[e]? with
  | none =>
    have hfresh : ({} : Engine).threads[t]?.getD {} = ({} : Thread) := by
      show (List.replicate 64 ({} : Thread))[t]?.getD {} = {}
      rw [List.getElem?_replicate]
      split <;> rfl
    simp only [Option.map_none, Option.getD_none, hfresh]
    rfl
  | some g =>
    simp only [Option.map_some, Option.getD_some, List.getElem?_map]
    cases g.threads[t]? <;> rfl

theorem SliceState.threadPart_wakeOn (e t : Nat) (x : SliceState) (f : Nat) : (x.wakeOn f).threadPart e t = x.threadPart e t := by
  unfold SliceState.threadPart
  rw [SliceState.wakeOn_thread]
  split
  · next h => simp [h]
  · rfl

/-- A stopped thread is IDLE with its registers. -/
theorem SliceState.threadPart_stopThread {x : SliceState} (hx : x.ok) (e : EngineId) (t : ThreadId) :
    (x.stopThread e t).threadPart e t = (((x.engine e).thread t).g, true) := by
  obtain ⟨-, ⟨he, hg⟩, -⟩ := hx
  have hlt : e.val < x.engines.length := by rw [he]; exact e.isLt
  have ht : t.val < (x.engine e).threads.length := by
    unfold SliceState.engine
    rw [List.getD_eq_getElem _ _ hlt, (hg _ (List.getElem_mem hlt)).1]
    exact t.isLt
  have hth : (((x.stopThread e t).engine e).thread t) =
      { ((x.engine e).thread t) with st := .idle, xstWait := false, drain := false, staged := false } := by
    show ((SliceState.onEngine x e _).engine e).thread t = _
    rw [SliceState.onEngine_engine _ _ hlt]
    have hleave : ∀ (g : Engine), (g.leave t).thread t = g.thread t := fun g => by unfold Engine.leave; split <;> rfl
    exact (hleave _).trans (Engine.onThread_thread _ _ ht)
  unfold SliceState.threadPart
  rw [hth]
  rfl

/-- What a faulted thread of a slice keeps: it is IDLE with its registers, and the fault is counted and kept; the pools are untouched but for the
queue of waiting threads. -/
theorem State.threadFault_ends {v : State} (hv : v.Inv) (sl : SliceId) (e : EngineId) (t : ThreadId) (code : Nat) (hc : code < 256) :
    let u := v.threadFault sl e t code
    (u.thread sl e t).st = .idle ∧ (u.thread sl e t).g = (v.thread sl e t).g ∧
    (u.sl sl).routing.threadFaults = (v.sl sl).routing.threadFaults + 1 ∧ bits (u.sl sl).routing.lastFault 7 0 = code ∧
    (u.sl sl).pools.bufs = (v.sl sl).pools.bufs := by
  have hlen : sl.val < v.slices.length := by rw [hv.1.1]; exact sl.isLt
  have hrep : ∀ {β : Type} {π : SliceState → β} (r : Report), (∀ x e, π { x with err := e } = π x) → π ((v.report sl r).sl sl) = π (v.sl sl) :=
    fun r h => State.Agree.report (s := v) (i := sl) (r := r) h sl
  unfold State.threadFault
  set r := mkReport _ _ _ _ _ _ with hr
  dsimp only
  set w := State.onSl (v.report sl r) sl _ with hw
  have hwlen : sl.val < w.slices.length := by simpa [hw, State.report] using hlen
  have hwsl : w.sl sl = { (v.report sl r).sl sl with routing := { ((v.report sl r).sl sl).routing with
      threadFaults := ((v.report sl r).sl sl).routing.threadFaults + 1
      lastFault := lastFaultWord code e t ((v.thread sl e t).faultPc code) v.now.toNat } } := by
    rw [hw, State.onSl_sl_self _ _ _ (by simpa [State.report] using hlen)]
  have hrepok : ((v.report sl r).sl sl).ok := ((State.Keeps.report v sl r).2 hv).sl sl.isLt
  have hwok : (w.sl sl).ok := by rw [hwsl]; exact .update hrepok rfl rfl rfl
  have hstop : (w.onSl sl fun x => x.stopThread e t).sl sl = (w.sl sl).stopThread e t := State.onSl_sl_self _ _ _ hwlen
  have hpart := State.Agree.endThreadWith (s := w) (i := sl) (e := e) (t := t) (st := .fault) (π := SliceState.threadPart e t)
    (SliceState.threadPart_wakeOn e t) (fun _ _ _ _ => rfl) (fun _ _ _ _ => rfl) sl
  rw [hstop, SliceState.threadPart_stopThread hwok] at hpart
  obtain ⟨hg, hst⟩ := Prod.mk.inj hpart
  have hrout := State.Agree.endThreadWith (s := w) (i := sl) (e := e) (t := t) (st := .fault) (π := SliceState.routing)
    (fun _ _ => rfl) (fun _ _ _ _ => rfl) (fun _ _ _ _ => rfl) sl
  have hpool := State.Agree.endThreadWith (s := w) (i := sl) (e := e) (t := t) (st := .fault) (π := fun x => x.pools.bufs)
    (fun _ _ => rfl) (fun _ _ _ _ => rfl) (fun _ _ _ _ => rfl) sl
  rw [hstop] at hrout hpool
  refine ⟨of_decide_eq_true hst, hg.trans ?_, ?_, ?_, hpool.trans ?_⟩
  · rw [hwsl]; exact hrep (π := fun x => ((x.engine e).thread t).g) r fun _ _ => rfl
  · rw [hrout]
    show (w.sl sl).routing.threadFaults = _
    rw [hwsl]; exact congrArg (·.threadFaults + 1) (hrep (π := SliceState.routing) r fun _ _ => rfl)
  · rw [hrout]
    show bits (w.sl sl).routing.lastFault 7 0 = _
    rw [hwsl]
    simp only [bits, lastFaultWord, field, Nat.shiftLeft_eq]
    omega
  · show (w.sl sl).pools.bufs = _
    rw [hwsl]; exact hrep (π := fun x => x.pools.bufs) r fun _ _ => rfl

end Sys2Proof.Machine
end

section
/-! SUPPORT. The thread and the slice after an issue. -/

namespace Sys2Proof.Machine

/-! ### The thread and the slice after an issue -/

theorem State.Agree.afterIssue {β : Type} {π : SliceState → β} (h : ∀ x g, π { x with engines := g } = π x) (s : State) (sl : SliceId) (e : EngineId)
    (t : ThreadId) (f : Thread → Thread) : State.Agree π s (s.afterIssue sl e t f) :=
  .onSl fun _ => h _ _

/-- A thread of a state with the shape, after a change of it. -/
theorem State.thread_onThread {s : State} (hs : s.Inv) (sl : SliceId) (e : EngineId) (t : ThreadId) (f : Thread → Thread) :
    (s.onThread sl e t f).thread sl e t = f (s.thread sl e t) := by
  obtain ⟨⟨hlen, -⟩, -⟩ := id hs
  obtain ⟨-, ⟨he, hall⟩, -⟩ := hs.sl sl.isLt
  have hel : e.val < (s.sl sl).engines.length := by rw [he]; exact e.isLt
  have htl : t.val < ((s.sl sl).engine e).threads.length := by
    unfold SliceState.engine
    rw [List.getD_eq_getElem _ _ hel, (hall _ (List.getElem_mem hel)).1]
    exact t.isLt
  unfold State.thread State.onThread
  rw [State.onSl_sl_self _ _ _ (by rw [hlen]; exact sl.isLt)]
  unfold SliceState.onThread
  rw [SliceState.onEngine_engine _ _ hel, Engine.onThread_thread _ _ htl]

/-- What the thread of an issue is then: READY or waiting no more, one word on, with its registers, marks and stage. -/
theorem State.afterIssue_thread {s : State} (hs : s.Inv) (sl : SliceId) (e : EngineId) (t : ThreadId) :
    ∃ n, (s.afterIssue sl e t id).thread sl e t =
      { s.thread sl e t with st := .running, issued := n, staged := false, pc := (s.thread sl e t).pc + 1 } ∨
      (s.afterIssue sl e t id).thread sl e t = { s.thread sl e t with st := .running, issued := n, pc := (s.thread sl e t).pc + 1 } := by
  obtain ⟨⟨hlen, -⟩, -⟩ := id hs
  obtain ⟨-, ⟨he, hall⟩, -⟩ := hs.sl sl.isLt
  have hel : e.val < (s.sl sl).engines.length := by rw [he]; exact e.isLt
  have htl : t.val < ((s.sl sl).engine e).threads.length := by
    unfold SliceState.engine
    rw [List.getD_eq_getElem _ _ hel, (hall _ (List.getElem_mem hel)).1]
    exact t.isLt
  set g := (s.sl sl).engine e with hgdef
  have htake : (g.take t).threads.length = g.threads.length := by simp [Engine.take, Engine.onThread]
  have hthread : (s.afterIssue sl e t id).thread sl e t = { (g.take t).thread t with pc := ((g.take t).thread t).pc + 1 } := by
    unfold State.thread State.afterIssue
    rw [State.onSl_sl_self _ _ _ (by rw [hlen]; exact sl.isLt), SliceState.onEngine_engine _ _ hel,
      Engine.onThread_thread _ _ (htake ▸ htl)]
    rfl
  have htaken : (g.take t).thread t = { (g.thread t).copied with
      st := .running, issued := (if g.running != some t.val then 0 else (g.thread t).copied.issued) + 1 } := by
    unfold Engine.take
    rw [Engine.onThread_thread _ _ (by simpa using htl)]
    have hmap : Engine.thread { g with running := some t.val, threads := g.threads.map Thread.copied } t = (g.thread t).copied := by
      simp [Engine.thread, List.getD_eq_getElem?_getD, List.getElem?_eq_getElem htl]
    rw [hmap]
  refine ⟨(if g.running != some t.val then 0 else (g.thread t).copied.issued) + 1, ?_⟩
  rw [hthread, htaken]
  unfold Thread.copied
  split
  · exact .inl rfl
  · exact .inr rfl

/-- The parts of the thread that an issue leaves alone. -/
theorem State.afterIssue_thread_parts {s : State} (hs : s.Inv) (sl : SliceId) (e : EngineId) (t : ThreadId) :
    let h := (s.afterIssue sl e t id).thread sl e t
    h.g = (s.thread sl e t).g ∧ h.run = (s.thread sl e t).run ∧ h.ctx = (s.thread sl e t).ctx ∧ h.marks = (s.thread sl e t).marks := by
  obtain ⟨n, h | h⟩ := State.afterIssue_thread hs sl e t
  all_goals rw [h]; exact ⟨rfl, rfl, rfl, rfl⟩

theorem State.afterIssue_threadRun {s : State} (hs : s.Inv) (sl : SliceId) (e : EngineId) (t : ThreadId) :
    ((s.afterIssue sl e t id).sl sl).threadRun e t = (s.sl sl).threadRun e t := by
  obtain ⟨-, hrun, -⟩ := State.afterIssue_thread_parts hs sl e t
  have hruns : ((s.afterIssue sl e t id).sl sl).runs = (s.sl sl).runs := State.Agree.afterIssue (π := SliceState.runs) (fun _ _ => rfl) s sl e t id sl
  unfold SliceState.threadRun
  dsimp only
  rw [hruns]
  rw [show ((((s.afterIssue sl e t id).sl sl).engine e).thread t).run = (((s.sl sl).engine e).thread t).run from hrun]

theorem State.Inv.afterIssue {s : State} (hs : s.Inv) (sl : SliceId) (e : EngineId) (t : ThreadId) : (s.afterIssue sl e t id).Inv :=
  (State.Keeps.onSl s sl fun _ h => h.onEngine e fun _ hg => .onThread (.take hg _) _ fun _ hk => .update hk).2 hs

/-- An instruction whose body faults, issued with its guard true: how its thread and slice then stand. -/
theorem State.issueThread_faults {s : State} {sl : SliceId} {e : EngineId} {t : ThreadId} {w code : Nat} (hs : s.Inv) (hw : s.Issues sl e t w)
    (hg : (s.thread sl e t).guardHolds w = true) {form : Form} {body : State → Thread → Nat → State} (hf : form w = true) (hc : code < 256)
    (hb : body (s.afterIssue sl e t id) (s.thread sl e t) w = (s.afterIssue sl e t id).threadFault sl e t code) :
    let u := s.issueThread sl e t form body
    (u.thread sl e t).st = .idle ∧ (u.thread sl e t).g = (s.thread sl e t).g ∧
    (u.sl sl).routing.threadFaults = (s.sl sl).routing.threadFaults + 1 ∧ bits (u.sl sl).routing.lastFault 7 0 = code ∧
    (u.sl sl).pools.bufs = (s.sl sl).pools.bufs := by
  intro u
  have hu : u = (s.afterIssue sl e t id).threadFault sl e t code := (State.issueThread_runs hw hf hg).trans hb
  obtain ⟨hst, hgs, hn, hl, hp⟩ := State.threadFault_ends (hs.afterIssue sl e t) sl e t code hc
  rw [hu]
  refine ⟨hst, hgs.trans (State.afterIssue_thread_parts hs sl e t).1, hn.trans ?_, hl, hp.trans ?_⟩
  · exact congrArg (·.threadFaults + 1) (State.Agree.afterIssue (π := SliceState.routing) (fun _ _ => rfl) s sl e t id sl)
  · exact State.Agree.afterIssue (π := fun x => x.pools.bufs) (fun _ _ => rfl) s sl e t id sl

theorem State.putReg_eq (s : State) (sl e t n : Nat) (v : Word) :
    s.putReg sl e t n v = s.onThread sl e t fun k => { k with g := if n = 0 then k.g else k.g.set n v } := by
  unfold State.putReg
  congr 1
  funext k
  unfold Thread.setReg
  split <;> rfl

theorem leBytes_getElem (n v i : Nat) (h : i < (leBytes n v).length) : (leBytes n v)[i] = BitVec.ofNat 8 (v >>> (8 * i)) := by
  induction n generalizing v i with
  | zero => simp at h
  | succ n ih =>
    cases i with
    | zero => rfl
    | succ i =>
      have hi : i < (leBytes n (v / 256)).length := by simpa using h
      rw [show (leBytes (n + 1) v)[i + 1] = (leBytes n (v / 256))[i] from rfl, ih (v / 256) i hi, show 8 * (i + 1) = 8 + 8 * i by omega,
        Nat.shiftRight_add, Nat.shiftRight_eq_div_pow v 8]

theorem localWrite_iff (t a n : Nat) :
    localWrite t a n = true ↔ (0xC40000 ≤ a ∧ a + n ≤ 0xD00000) ∨ (0xD00000 + t * 0xC000 ≤ a ∧ a + n ≤ 0xD00000 + (t + 1) * 0xC000) := by
  simp [localWrite]

/-- The bytes that a thread reads at a local address after its issue. -/
theorem State.afterIssue_loadNat (s : State) (sl : SliceId) (e : EngineId) (t : ThreadId) (a n : Nat) :
    ((s.afterIssue sl e t id).sl sl).loadNat a n = (s.sl sl).loadNat a n :=
  State.Agree.afterIssue (π := fun x => x.loadNat a n) (fun _ _ => rfl) s sl e t id sl

end Sys2Proof.Machine
end

section
/-! LD and ST. -/

namespace Sys2Proof.Machine

/-- A read by the engine of a thread just after its issue: it finds poison where the slice has it. -/
theorem State.afterIssue_engineRead {s : State} (hs : s.Inv) (sl : SliceId) (e : EngineId) (t : ThreadId) (a n : Nat) :
    (s.afterIssue sl e t id).engineRead sl e t a n =
      match (s.sl sl).threadRun e t with
      | some r => if (s.sl sl).poisoned (engineAddr e a) n then (s.afterIssue sl e t id).faultStage sl r .fault else s.afterIssue sl e t id
      | none => s.afterIssue sl e t id := by
  have hp : ((s.afterIssue sl e t id).sl sl).poisoned (engineAddr e a) n = (s.sl sl).poisoned (engineAddr e a) n :=
    State.Agree.afterIssue (π := fun x => x.poisoned (engineAddr e a) n) (fun _ _ => rfl) s sl e t id sl
  unfold State.engineRead State.readFor
  rw [State.afterIssue_threadRun hs]
  cases (s.sl sl).threadRun e t with
  | none => rfl
  | some r => simp only [List.any_cons, List.any_nil, Bool.or_false, hp]

theorem State.afterIssue_engineRead_clean {s : State} (hs : s.Inv) (sl : SliceId) (e : EngineId) (t : ThreadId) (a n : Nat)
    (hp : (s.sl sl).poisoned (engineAddr e a) n = false) : (s.afterIssue sl e t id).engineRead sl e t a n = s.afterIssue sl e t id := by
  rw [State.afterIssue_engineRead hs, hp]
  split <;> simp

/-- A command of a thread whose body faults, in the terms of the statements on faulting threads. -/
theorem State.next_faults {s : State} {sl : SliceId} {e : EngineId} {t : ThreadId} {w code : Nat} (hs : s.Inv) (hw : s.Issues sl e t w)
    (hg : (s.thread sl e t).guardHolds w = true) {form : Form} {body : State → Thread → Nat → State} (hf : form w = true) (hc : code < 256)
    (hb : body (s.afterIssue sl e t id) (s.thread sl e t) w = (s.afterIssue sl e t id).threadFault sl e t code) :
    ∃ u : State, Host.Outcome.next (s.issueThread sl e t form body) = (.next u : Out) ∧ (u.thread sl e t).st = .idle ∧
      (u.thread sl e t).g = (s.thread sl e t).g ∧ (u.sl sl).routing.threadFaults = (s.sl sl).routing.threadFaults + 1 ∧
      bits (u.sl sl).routing.lastFault 7 0 = code := by
  obtain ⟨h1, h2, h3, h4, -⟩ := State.issueThread_faults hs hw hg hf hc hb
  exact ⟨_, rfl, h1, h2, h3, h4⟩

section
variable {s : State} {sl : SliceId} {e : EngineId} {t : ThreadId} {w : Nat} (hs : s.Inv) (hw : s.Issues sl e t w)
  (hg : (s.thread sl e t).guardHolds w = true)
include hs hw hg

theorem exec_ld_of_clean (hop : bits w 63 58 = 0x10) (hle : localRead ((s.thread sl e t).addr w) (wWidth w) = true)
    (hp : (s.sl sl).poisoned (engineAddr e ((s.thread sl e t).addr w)) (wWidth w) = false) :
    exec (.ld { on := sl } e t) s = .next ((s.afterIssue sl e t id).putReg sl e t (wD w)
      (BitVec.ofNat 64 ((s.sl sl).loadNat (engineAddr e ((s.thread sl e t).addr w)) (wWidth w)))) := by
  refine congrArg Host.Outcome.next ((State.issueThread_runs hw (opIs_eq hop) hg).trans ((if_pos hle).trans ?_))
  rw [State.afterIssue_loadNat, State.afterIssue_engineRead_clean hs _ _ _ _ _ hp]

theorem exec_ld_of_poisoned (hop : bits w 63 58 = 0x10) (hle : localRead ((s.thread sl e t).addr w) (wWidth w) = true)
    (hp : (s.sl sl).poisoned (engineAddr e ((s.thread sl e t).addr w)) (wWidth w) = true) {r : Run} (hr : (s.sl sl).threadRun e t = some r) :
    exec (.ld { on := sl } e t) s = .next (((s.afterIssue sl e t id).faultStage sl r .fault).putReg sl e t (wD w)
      (BitVec.ofNat 64 ((s.sl sl).loadNat (engineAddr e ((s.thread sl e t).addr w)) (wWidth w)))) := by
  refine congrArg Host.Outcome.next ((State.issueThread_runs hw (opIs_eq hop) hg).trans ((if_pos hle).trans ?_))
  rw [State.afterIssue_loadNat, State.afterIssue_engineRead hs, hr]
  dsimp only
  rw [if_pos hp]

omit hs in
theorem exec_st_of_write (hop : bits w 63 58 = 0x11) (hle : localWrite t ((s.thread sl e t).addr w) (wWidth w) = true) :
    exec (.st sl e t) s = .next ((s.afterIssue sl e t id).onSl sl fun x =>
      x.store (engineAddr e ((s.thread sl e t).addr w)) (leBytes (wWidth w) ((s.thread sl e t).opB w).toNat)) :=
  congrArg Host.Outcome.next ((State.issueThread_runs hw (opIs_eq hop) hg).trans (if_pos hle))

end

/-- What a store of one slice after an issue leaves, and what it writes. -/
theorem State.afterIssue_store {s : State} (hs : s.Inv) (sl : SliceId) (e : EngineId) (t : ThreadId) (a : Nat) (b : Bytes) :
    let u := (s.afterIssue sl e t id).onSl sl fun x => x.store a b
    OnlySlice s u sl ∧ u.thread sl e t = (s.afterIssue sl e t id).thread sl e t ∧ SameBytesOutside (s.sl sl) (u.sl sl) a b.length ∧
    ∀ i (hi : i < b.length), (u.sl sl).mem.read (a + i) = b[i] := by
  intro u
  have hlen : sl.val < (s.afterIssue sl e t id).slices.length := by rw [(hs.afterIssue sl e t).1.1]; exact sl.isLt
  have hmem : (u.sl sl).mem = (s.sl sl).mem.writeBytes a b := by
    rw [State.onSl_sl_self _ _ _ hlen, SliceState.store_mem]
    exact congrArg (Memory.writeBytes · a b) (State.Agree.afterIssue (π := SliceState.mem) (fun _ _ => rfl) s sl e t id sl)
  have hwf : (s.sl sl).mem.wf = true := (hs.sl sl.isLt).1
  have hth : State.Agree (fun x => (x.engine e).thread t) (s.afterIssue sl e t id) u := .onSl fun _ => rfl
  refine ⟨⟨rfl, fun j hj => ?_⟩, hth sl, fun c hc => ?_, fun i hi => ?_⟩
  · rw [State.onSl_sl_of_ne _ _ hj]
    exact State.onSl_sl_of_ne _ _ hj
  · rw [hmem]; exact Memory.read_writeBytes_outside hwf hc
  · rw [hmem, Memory.read_writeBytes hwf]

/-- Settles O8: LD and ST inside their bounds and outside them, with words found uncorrectable first. -/
theorem routeLocalMemory : Obligations.RouteLocalMemory := by
  intro s sl e t w hs hw hg h op fn d put faults n a loaded own
  refine ⟨fun hop hle hclean => ?ld, fun hop hle hbad r hr => ?ldPoisoned, fun hop hown => ?st, fun hop hgt => ?ldBounds,
    fun hop hnot => ?stBounds, fun bad => ⟨rfl, rfl, rfl, rfl, rfl, rfl, rfl, fun _ => rfl⟩⟩
  case ld => exact (exec_ld_of_clean hs hw hg hop (decide_eq_true hle) hclean).trans (congrArg _ (State.putReg_afterIssue ..))
  case ldPoisoned => exact (exec_ld_of_poisoned hs hw hg hop (decide_eq_true hle) hbad hr).trans (congrArg _ (State.putReg_eq ..))
  case st =>
    obtain ⟨honly, hth, hout, hin⟩ := State.afterIssue_store hs sl e t (engineAddr e a) (leBytes n (h.reg (bits w 43 39)).toNat)
    rw [leBytes_length] at hout
    refine ⟨_, exec_st_of_write hw hg hop ((localWrite_iff ..).2 hown), honly, hth, hout, fun i hi => ?_⟩
    exact (hin i (by rwa [leBytes_length])).trans (leBytes_getElem ..)
  case ldBounds => exact State.next_faults hs hw hg (opIs_eq hop) (by decide) (if_neg fun h => Nat.not_le.2 hgt (of_decide_eq_true h))
  case stBounds => exact State.next_faults hs hw hg (opIs_eq hop) (by decide) (if_neg fun h => hnot ((localWrite_iff ..).1 h))

end Sys2Proof.Machine
end

section
/-! XLD and XCOPY get. -/

namespace Sys2Proof.Machine

/-! ### A thread that leaves the slot after its issue, and what it sends -/

/-- A change of one slice matters only by what it makes of that slice. -/
theorem State.onSl_congr {s : State} {i : Nat} {f g : SliceState → SliceState} (h : f (s.sl i) = g (s.sl i)) : s.onSl i f = s.onSl i g := by
  unfold State.onSl
  congr 1
  obtain hi | hi := Nat.lt_or_ge i s.slices.length
  · have hsl : s.sl i = s.slices[i] := by simp [State.sl, List.getD, hi]
    apply List.ext_getElem (by simp)
    intro n h1 h2
    simp only [List.getElem_modify]
    split
    · next hin => subst hin; rw [← hsl, h]
    · rfl
  · rw [List.modify_eq_self hi, List.modify_eq_self hi]

theorem State.onThread_blockThread_afterIssue (s : State) (sl : SliceId) (e : EngineId) (t : ThreadId) (st : ThreadPhase) (f : Thread → Thread) :
    ((s.afterIssue sl e t id).blockThread sl e t st).onThread sl e t f = s.afterBlock sl e t st f := by
  unfold State.blockThread State.onThread State.afterBlock
  rw [State.onSl_onSl]
  rfl

theorem State.onThread_onThread (s : State) (sl e t : Nat) (f g : Thread → Thread) :
    (s.onThread sl e t f).onThread sl e t g = s.onThread sl e t (g ∘ f) := by
  unfold State.onThread
  rw [State.onSl_onSl]
  congr 1
  funext x
  simp only [Function.comp_apply, SliceState.onThread, SliceState.onEngine_onEngine]
  congr 1
  funext k
  exact Engine.onThread_onThread ..

theorem State.onThread_afterBlock (s : State) (sl : SliceId) (e : EngineId) (t : ThreadId) (st : ThreadPhase) (f g : Thread → Thread) :
    (s.afterBlock sl e t st f).onThread sl e t g = s.afterBlock sl e t st (g ∘ f) := by
  rw [← State.onThread_blockThread_afterIssue, State.onThread_onThread, State.onThread_blockThread_afterIssue]

theorem State.Agree.afterBlock {β : Type} {π : SliceState → β} (h : ∀ x g, π { x with engines := g } = π x) (s : State) (sl : SliceId) (e : EngineId)
    (t : ThreadId) (st : ThreadPhase) (f : Thread → Thread) : State.Agree π s (s.afterBlock sl e t st f) :=
  .comp (.onSl fun x => (h (x.onEngine e _) _).trans (h x _)) (.afterIssue h s sl e t id)

/-- A request of a thread that carries no REQ_ID. -/
theorem State.threadSend_plain (s : State) (sl e t : Nat) (h : Thread) (a : Nat) {op : Nat} (b : Bytes) (iss : Issuer)
    (hop : (op == opFADD || op == opCAS) = false) :
    s.threadSend sl e t h a op b iss =
      (s.onThread sl e t fun k => { k with marks := k.marks.filter (· != gaPlace a) }).sendMsg sl
        { dst := gaPlace a, opcode := op, parts := [(gaOffset a, b)], ctx := h.ctx, fence := h.marks.contains (gaPlace a), issuer := iss } := by
  unfold State.threadSend
  simp only [hop, Bool.false_eq_true, if_false]
  rfl

/-- A request of a thread that carries the next REQ_ID to its slice. -/
theorem State.threadSend_withId (s : State) (sl e t : Nat) (h : Thread) (a : Nat) {op : Nat} (b : Bytes) (iss : Issuer)
    (hop : (op == opFADD || op == opCAS) = true) :
    let id0 : Nat := ((s.sl sl).remote.reqIds.find? fun r => r.1 == gaPlace a).elim 1 fun r => r.2
    s.threadSend sl e t h a op b iss =
      (s.onSl sl fun x =>
        let y := x.onThread e t fun k => { k with marks := k.marks.filter (· != gaPlace a) }
        { y with remote := { y.remote with
            reqIds := (y.remote.reqIds.filter fun r => r.1 != gaPlace a) ++ [(gaPlace a, if id0 = 0xFFFFFFFF then 1 else id0 + 1)] } }).sendMsg sl
        { dst := gaPlace a, opcode := op, parts := [(gaOffset a, b)], ctx := h.ctx, fence := h.marks.contains (gaPlace a), reqId := id0,
          issuer := iss } := by
  unfold State.threadSend
  simp only [hop, if_true]

section
variable {s : State} {sl : SliceId} {e : EngineId} {t : ThreadId} {w : Nat} (hs : s.Inv) (hw : s.Issues sl e t w)
  (hg : (s.thread sl e t).guardHolds w = true)

/-! ### XLD and XCOPY get -/

/-- The copy that the engine has staged of a range, with zeros where a piece is missing. -/
def SliceState.stagedCopy (x : SliceState) (set a n : Nat) : Bytes := (x.stagedBytes set a n).getD (zeros n)

theorem State.afterIssue_stagedCopy (set a n : Nat) :
    ((s.afterIssue sl e t id).sl sl).stagedCopy set a n = (s.sl sl).stagedCopy set a n :=
  State.Agree.afterIssue (π := fun x => x.stagedCopy set a n) (fun _ _ => rfl) s sl e t id sl

/-- A READ sent by a thread that waits for it. -/
theorem State.afterIssue_sendRead (h : Thread) (a n : Nat) (iss : Issuer) :
    ((s.afterIssue sl e t id).waitRemote sl e t).threadSend sl e t h a opREAD (leBytes 8 n) iss =
      ((s.afterBlock sl e t .waitMem fun k => { k with other := k.other + 1 }).onThread sl e t fun k =>
        { k with marks := k.marks.filter (· != gaPlace a) }).sendMsg sl
        { dst := gaPlace a, opcode := 0x10, parts := [(gaOffset a, leBytes 8 n)], ctx := h.ctx, fence := h.marks.contains (gaPlace a),
          issuer := iss } := by
  rw [State.threadSend_plain _ _ _ _ _ _ _ _ rfl]
  unfold State.waitRemote
  rw [State.onThread_blockThread_afterIssue]
  rfl

end

theorem State.afterIssue_waitStaged (s : State) (sl : SliceId) (e : EngineId) (t : ThreadId) :
    (s.afterIssue sl e t id).waitStaged sl e t = s.afterBlock sl e t .waitMem fun k => { k with staged := true } :=
  State.onThread_blockThread_afterIssue ..

theorem copyFault_none {t : Nat} {h : Thread} {w : Nat} (hn : 8 ≤ (h.opB w).toNat) (hn' : (h.opB w).toNat ≤ 4096) (hn0 : (h.opB w).toNat % 8 = 0)
    (ha : h.addr w % 8 = 0) (hl : (h.reg (wD w)).toNat % 8 = 0) (hloc : localWrite t (h.reg (wD w)).toNat (h.opB w).toNat = true) :
    copyFault t h w = none := by
  unfold copyFault
  dsimp only
  rw [if_neg (by omega), if_neg (by omega), hloc]
  rfl

theorem copyFault_unitArg {t : Nat} {h : Thread} {w : Nat} (hn : (h.opB w).toNat < 8 ∨ 4096 < (h.opB w).toNat ∨ (h.opB w).toNat % 8 ≠ 0) :
    copyFault t h w = some faultUnitArg := if_pos hn

theorem copyFault_misalign {t : Nat} {h : Thread} {w : Nat} (hn : 8 ≤ (h.opB w).toNat) (hn' : (h.opB w).toNat ≤ 4096)
    (hn0 : (h.opB w).toNat % 8 = 0) (ha : h.addr w % 8 ≠ 0 ∨ (h.reg (wD w)).toNat % 8 ≠ 0) : copyFault t h w = some faultMisalign :=
  (if_neg (by omega)).trans (if_pos ha)

theorem copyFault_localBounds {t : Nat} {h : Thread} {w : Nat} (hn : 8 ≤ (h.opB w).toNat) (hn' : (h.opB w).toNat ≤ 4096)
    (hn0 : (h.opB w).toNat % 8 = 0) (ha : h.addr w % 8 = 0) (hl : (h.reg (wD w)).toNat % 8 = 0)
    (hloc : localWrite t (h.reg (wD w)).toNat (h.opB w).toNat = false) : copyFault t h w = some faultLocalBounds := by
  unfold copyFault
  dsimp only
  rw [if_neg (by omega), if_neg (by omega), hloc]
  rfl

/-- Settles O9: XLD and XCOPY get by the checks in their order, the prefetch set and still water. -/
theorem routeRemoteLoads : Obligations.RouteRemoteLoads := by
  intro s sl e t w hs hw hg h op fn d faults a pl sent n m l copy
  have hxld : ∀ {u : State}, op = 0x12 → _ → exec (.xld sl e t) s = .next u := fun hop hb =>
    congrArg Host.Outcome.next ((State.issueThread_runs hw (opIs_eq hop) hg).trans hb)
  have hget : ∀ {u : State}, op = 0x14 → bit fn 1 = false → _ → exec (.xcopyGet sl e t) s = .next u := fun hop hf hb =>
    congrArg Host.Outcome.next ((State.issueThread_runs hw (opFn1_eq hop hf) hg).trans hb)
  refine ⟨fun hop ha hp hst => ?xld, fun hop ha hp => ?xldStaged, fun hop ha hp hst => ?xldStill, fun hop ha => ?xldAlign,
    fun hop hf hm8 hm hm0 ha hl hloc => ?get, fun hop hf => ⟨fun hbad => ?getLength, fun hm8 hm hm0 hbad => ?getAlign,
      fun hm8 hm hm0 ha hl hloc => ?getBounds⟩⟩
  case xld =>
    exact hxld hop ((if_neg (not_not.2 ha)).trans ((if_neg (Bool.eq_false_iff.1 hp)).trans ((if_neg (Bool.eq_false_iff.1 hst)).trans
      (State.afterIssue_sendRead ..))))
  case xldStaged =>
    refine hxld hop ((if_neg (not_not.2 ha)).trans ((if_pos hp).trans ?_))
    rw [State.afterIssue_waitStaged, State.putReg_eq, State.onThread_afterBlock]
    exact congrArg (fun b : Bytes => s.afterBlock sl e t .waitMem fun k =>
      { k with staged := true, g := if d = 0 then k.g else k.g.set d (BitVec.ofNat 64 (leNat b)) }) (State.afterIssue_stagedCopy ..)
  case xldStill =>
    exact State.next_faults hs hw hg (opIs_eq hop) (by decide) ((if_neg (not_not.2 ha)).trans ((if_neg (Bool.eq_false_iff.1 hp)).trans (if_pos hst)))
  case xldAlign => exact State.next_faults hs hw hg (opIs_eq hop) (by decide) (if_pos ha)
  case get =>
    have hnone : copyFault t h w = none := copyFault_none hm8 hm hm0 ha hl hloc
    refine ⟨fun hp hst => hget hop hf ?_, fun hp => hget hop hf ?_, fun hp hst =>
      State.next_faults hs hw hg (opFn1_eq hop hf) (by decide) ?_⟩
    all_goals rw [hnone]
    · exact (if_neg (Bool.eq_false_iff.1 hp)).trans ((if_neg (Bool.eq_false_iff.1 hst)).trans (State.afterIssue_sendRead ..))
    · refine (if_pos hp).trans ?_
      rw [State.afterIssue_waitStaged]
      exact State.onSl_congr (congrArg (SliceState.store _ _)
        (State.Agree.afterBlock (π := fun x => x.stagedCopy h.prefetchSet a m) (fun _ _ => rfl) s sl e t .waitMem _ sl))
    · exact (if_neg (Bool.eq_false_iff.1 hp)).trans (if_pos hst)
  case getLength => exact State.next_faults hs hw hg (opFn1_eq hop hf) (by decide) (by rw [copyFault_unitArg hbad]; rfl)
  case getAlign => exact State.next_faults hs hw hg (opFn1_eq hop hf) (by decide) (by rw [copyFault_misalign hm8 hm hm0 hbad]; rfl)
  case getBounds => exact State.next_faults hs hw hg (opFn1_eq hop hf) (by decide) (by rw [copyFault_localBounds hm8 hm hm0 ha hl hloc]; rfl)

end Sys2Proof.Machine
end

section
/-! XST, XCOPY put and the atomics. -/

namespace Sys2Proof.Machine

theorem State.threadStore_of_node (s : State) (sl e t : Nat) (h : Thread) {a : Nat} (b : Bytes) (iss : Issuer) (ha : gaNode a < 0xFFC00) :
    s.threadStore sl e t h a b iss = some (s.threadSend sl e t h a opWRITE b iss) := by
  unfold State.threadStore
  rw [show gaGroup a = none from if_neg (by omega)]

theorem State.threadStore_of_group (s : State) (sl e t : Nat) (h : Thread) {a g : Nat} (b : Bytes) (iss : Issuer) (ha : gaGroup a = some g) :
    s.threadStore sl e t h a b iss =
      if h.marks.contains (gaPlace a) then none
      else some (s.sendMsg sl
        { dst := { node := 0, slice := 0 }, group := some g, opcode := 0x15, parts := [(gaOffset a, b)], ctx := h.ctx, issuer := iss }) := by
  unfold State.threadStore
  rw [ha]
  rfl

/-- Settles O10: XST and XCOPY put to a slice and to a multicast group, and their faults in order. -/
theorem routeRemoteStores : Obligations.RouteRemoteStores := by
  intro s sl e t w hs hw hg h op fn d faults a pl write n m l
  have hxst : ∀ {u : State}, op = 0x13 → _ → exec (.xst sl e t) s = .next u := fun hop hb =>
    congrArg Host.Outcome.next ((State.issueThread_runs hw (opIs_eq hop) hg).trans hb)
  have hput : ∀ {u : State}, op = 0x14 → bit fn 1 = true → _ → exec (.xcopyPut { on := sl } e t) s = .next u := fun hop hf hb =>
    congrArg Host.Outcome.next ((State.issueThread_runs hw (opFn1_eq hop hf) hg).trans hb)
  have hload : ((s.afterIssue sl e t id).sl sl).load (engineAddr e l) m = (s.sl sl).load (engineAddr e l) m :=
    State.Agree.afterIssue (π := fun x => x.load (engineAddr e l) m) (fun _ _ => rfl) s sl e t id sl
  have hwait : (s.sl sl).poisoned (engineAddr e l) m = false → ((s.afterIssue sl e t id).engineRead sl e t l m).waitRemote sl e t =
      s.afterBlock sl e t .waitMem fun k => { k with other := k.other + 1 } := fun hp => by
    rw [State.afterIssue_engineRead_clean hs _ _ _ _ _ hp]
    exact State.onThread_blockThread_afterIssue ..
  refine ⟨fun hop ha hn hx => ?xst, fun hop ha hx => ?xstWait, fun hop hf hm8 hm hm0 ha hl hloc hn hp => ?put,
    fun g hgr hop ha hx => ⟨fun hmark => ?xstGroup, fun hmark => ?xstMarked⟩, fun hop ha => ?xstAlign,
    fun g hgr hop hf hm8 hm hm0 ha hl hloc hp hmark => ?putGroup, fun hop hf => ⟨fun hbad => ?putLength, fun hm8 hm hm0 hbad => ?putAlign,
      fun hm8 hm hm0 ha hl hloc => ?putBounds⟩⟩
  case xst =>
    refine hxst hop ((if_neg (not_not.2 ha)).trans ((if_neg (Nat.not_le.2 hx)).trans ?_))
    rw [State.threadStore_of_node (a := (s.thread sl e t).addr w) _ _ _ _ _ _ _ hn]
    dsimp only
    rw [State.threadSend_plain _ _ _ _ _ _ _ _ rfl]
    rfl
  case xstWait =>
    exact hxst hop ((if_neg (not_not.2 ha)).trans ((if_pos hx).trans (State.onThread_blockThread_afterIssue ..)))
  case put =>
    refine hput hop hf ?_
    rw [copyFault_none hm8 hm hm0 ha hl hloc]
    dsimp only
    rw [State.threadStore_of_node (a := (s.thread sl e t).addr w) _ _ _ _ _ _ _ hn]
    dsimp only
    rw [State.threadSend_plain _ _ _ _ _ _ _ _ rfl]
    exact congr (congrArg (fun v b => write b (.thread e t 3 0 0 m) v) (hwait hp)) hload
  case xstGroup =>
    have hno : (s.thread sl e t).marks.contains (gaPlace ((s.thread sl e t).addr w)) = false := hmark
    refine hxst hop ((if_neg (not_not.2 ha)).trans ((if_neg (Nat.not_le.2 hx)).trans ?_))
    rw [State.threadStore_of_group (a := (s.thread sl e t).addr w) _ _ _ _ _ _ _ hgr, hno]
    rfl
  case xstMarked =>
    have hyes : (s.thread sl e t).marks.contains (gaPlace ((s.thread sl e t).addr w)) = true := hmark
    refine State.next_faults hs hw hg (opIs_eq hop) (by decide) ((if_neg (not_not.2 ha)).trans ((if_neg (Nat.not_le.2 hx)).trans ?_))
    rw [State.threadStore_of_group (a := (s.thread sl e t).addr w) _ _ _ _ _ _ _ hgr, hyes]
    rfl
  case xstAlign => exact State.next_faults hs hw hg (opIs_eq hop) (by decide) (if_pos ha)
  case putGroup =>
    have hno : (s.thread sl e t).marks.contains (gaPlace ((s.thread sl e t).addr w)) = false := hmark
    refine hput hop hf ?_
    rw [copyFault_none hm8 hm hm0 ha hl hloc]
    dsimp only
    rw [State.threadStore_of_group (a := (s.thread sl e t).addr w) _ _ _ _ _ _ _ hgr, hno]
    exact congr (congrArg (fun (v : State) (b : Bytes) => v.sendMsg sl
        { dst := { node := 0, slice := 0 }, group := some g, opcode := 0x15, parts := [(bits a 40 0, b)], ctx := h.ctx,
          issuer := .thread e t 3 0 0 m }) (hwait hp)) hload
  case putLength => exact State.next_faults hs hw hg (opFn1_eq hop hf) (by decide) (by rw [copyFault_unitArg hbad]; rfl)
  case putAlign => exact State.next_faults hs hw hg (opFn1_eq hop hf) (by decide) (by rw [copyFault_misalign hm8 hm hm0 hbad]; rfl)
  case putBounds => exact State.next_faults hs hw hg (opFn1_eq hop hf) (by decide) (by rw [copyFault_localBounds hm8 hm hm0 ha hl hloc]; rfl)

/-- A request with a REQ_ID of a thread that waits for it. -/
theorem State.afterIssue_sendAtomic (s : State) (sl : SliceId) (e : EngineId) (t : ThreadId) (h : Thread) (a : Nat) {op : Nat} (b : Bytes)
    (iss : Issuer) (hop : (op == opFADD || op == opCAS) = true) :
    let pl := gaPlace a
    let id0 : Nat := ((s.sl sl).remote.reqIds.find? fun r => r.1 == pl).elim 1 fun r => r.2
    ((s.afterIssue sl e t id).waitRemote sl e t).threadSend sl e t h a op b iss =
      ((s.afterBlock sl e t .waitMem fun k => { k with other := k.other + 1 }).onSl sl fun x =>
        let y := x.onThread e t fun k => { k with marks := k.marks.filter (· != pl) }
        { y with remote := { y.remote with
            reqIds := (y.remote.reqIds.filter fun r => r.1 != pl) ++ [(pl, if id0 = 0xFFFFFFFF then 1 else id0 + 1)] } }).sendMsg sl
        { dst := pl, opcode := op, parts := [(gaOffset a, b)], ctx := h.ctx, fence := h.marks.contains pl, reqId := id0, issuer := iss } := by
  have hwait : (s.afterIssue sl e t id).waitRemote sl e t = s.afterBlock sl e t .waitMem fun k => { k with other := k.other + 1 } :=
    State.onThread_blockThread_afterIssue ..
  have hrem : ((s.afterBlock sl e t .waitMem fun k => { k with other := k.other + 1 }).sl sl).remote = (s.sl sl).remote :=
    State.Agree.afterBlock (π := SliceState.remote) (fun _ _ => rfl) s sl e t .waitMem _ sl
  dsimp only
  rw [hwait, State.threadSend_withId _ _ _ _ _ _ _ _ hop, hrem]

/-- Settles O11: an atomic takes the next REQ_ID and its thread waits; one that is misaligned faults. -/
theorem routeAtomics : Obligations.RouteAtomics := by
  intro s sl e t w hs hw hg h op fn d faults a pl id0 v sent
  refine ⟨fun hop hf ha => ?fadd, fun hop hf ha => ?cas, fun hop hf ha => ?faddAlign, fun hop hf ha => ?casAlign⟩
  case fadd =>
    exact congrArg Host.Outcome.next ((State.issueThread_runs hw (opFn1_eq hop hf) hg).trans ((if_neg (not_not.2 ha)).trans
      (State.afterIssue_sendAtomic s sl e t h a _ _ rfl)))
  case cas =>
    exact congrArg Host.Outcome.next ((State.issueThread_runs hw (opFn1_eq hop hf) hg).trans ((if_neg (not_not.2 ha)).trans
      (State.afterIssue_sendAtomic s sl e t h a _ _ rfl)))
  case faddAlign => exact State.next_faults hs hw hg (opFn1_eq hop hf) (by decide) (if_pos ha)
  case casAlign => exact State.next_faults hs hw hg (opFn1_eq hop hf) (by decide) (if_pos ha)

end Sys2Proof.Machine
end

section
/-! SUPPORT. A thread in WAIT_UNIT, and which operands a unit takes. -/

namespace Sys2Proof.Machine

/-! ### The engine beside its threads -/

/-- A part of an engine that a change of one engine leaves alone. -/
theorem SliceState.engine_onEngine_agree {β : Type} {ρ : Engine → β} (x : SliceState) (e k : Nat) {f : Engine → Engine} (h : ∀ g, ρ (f g) = ρ g) :
    ρ ((x.onEngine e f).engine k) = ρ (x.engine k) := by
  obtain hk | hk := eq_or_ne k e
  · subst hk
    obtain hl | hl := Nat.lt_or_ge k x.engines.length
    · rw [SliceState.onEngine_engine _ _ hl, h]
    · have : (x.onEngine k f).engines = x.engines := by simp [SliceState.onEngine, List.modify_eq_self hl]
      unfold SliceState.engine
      rw [this]
  · rw [SliceState.onEngine_engine_of_ne _ _ hk]

theorem Engine.leave_busy (g : Engine) (t : Nat) : (g.leave t).busy = g.busy := by
  unfold Engine.leave
  split <;> rfl

/-- The units in use of every engine, where a thread leaves the slot. -/
theorem State.Agree.blockThread_busy (s : State) (sl e t k : Nat) (st : ThreadPhase) :
    State.Agree (fun x => (x.engine k).busy) s (s.blockThread sl e t st) :=
  .onSl fun x => SliceState.engine_onEngine_agree (ρ := Engine.busy) x e k fun _ => Engine.leave_busy _ _

theorem State.Agree.afterIssue_busy (s : State) (sl : SliceId) (e : EngineId) (t : ThreadId) (k : Nat) (f : Thread → Thread) :
    State.Agree (fun x => (x.engine k).busy) s (s.afterIssue sl e t f) :=
  .onSl fun x => SliceState.engine_onEngine_agree (ρ := Engine.busy) x e k fun _ => rfl

/-- A part of the slices that the fault of a thread leaves alone. -/
theorem State.Agree.threadFault {β : Type} {π : SliceState → β} {s : State} {i e t c : Nat} (hw : ∀ x f, π (x.wakeOn f) = π x)
    (hstop : ∀ x, π (x.stopThread e t) = π x) (herr : ∀ x v, π { x with err := v } = π x) (hrout : ∀ x v, π { x with routing := v } = π x)
    (hr : ∀ x r c f, π { x with runs := r, toClear := c, flags := f } = π x)
    (h : ∀ x v m p, π { x with svc := v, mem := m, poison := p } = π x) : State.Agree π s (s.threadFault i e t c) := by
  unfold State.threadFault
  exact .comp (.endThreadWith hw hr h) (.comp (.onSl hstop) (.comp (.onSl fun x => hrout x _) (.report herr)))

theorem SliceState.stopThread_busy (x : SliceState) (e t k : Nat) : ((x.stopThread e t).engine k).busy = (x.engine k).busy :=
  SliceState.engine_onEngine_agree (ρ := Engine.busy) x e k fun _ => Engine.leave_busy _ t

theorem SliceState.wakeOn_busy (x : SliceState) (f k : Nat) : ((x.wakeOn f).engine k).busy = (x.engine k).busy := by
  unfold SliceState.engine SliceState.wakeOn
  simp only [List.getD_eq_getElem?_getD, List.getElem?_map]
  cases x.engines[k]? <;> rfl

theorem State.threadFault_busy (s : State) (i e t c k : Nat) :
    (((s.threadFault i e t c).sl i).engine k).busy = ((s.sl i).engine k).busy :=
  State.Agree.threadFault (π := fun x => (x.engine k).busy) (fun x f => SliceState.wakeOn_busy x f k) (fun x => SliceState.stopThread_busy x e t k)
    (fun _ _ => rfl) (fun _ _ => rfl) (fun _ _ _ _ => rfl) (fun _ _ _ _ => rfl) i

/-! ### A thread in WAIT_UNIT -/

/-- The state in which a thread has issued a unit's instruction and waits for the unit. -/
def State.unitWait (s : State) (sl : SliceId) (e : EngineId) (t : ThreadId) (u : EngineUnit) : State :=
  (s.afterIssue sl e t id).blockThread sl e t (.waitUnit u)

theorem State.Inv.unitWait {s : State} (hs : s.Inv) (sl : SliceId) (e : EngineId) (t : ThreadId) (u : EngineUnit) : (s.unitWait sl e t u).Inv :=
  (State.Keeps.blockThread ..).2 (hs.afterIssue sl e t)

theorem State.Agree.unitWait {β : Type} {π : SliceState → β} (h : ∀ x g, π { x with engines := g } = π x) (s : State) (sl : SliceId) (e : EngineId)
    (t : ThreadId) (u : EngineUnit) : State.Agree π s (s.unitWait sl e t u) :=
  .comp (.onSl fun x => h x _) (.afterIssue h s sl e t id)

theorem State.unitWait_busy (s : State) (sl : SliceId) (e : EngineId) (t : ThreadId) (u : EngineUnit) :
    (((s.unitWait sl e t u).sl sl).engine e).busy = ((s.sl sl).engine e).busy :=
  ((State.Agree.blockThread_busy _ sl e t e _).comp (State.Agree.afterIssue_busy s sl e t e id)) sl

/-- The registers and the stage of a thread that leaves the slot. -/
theorem State.blockThread_thread {s : State} (hs : s.Inv) (sl : SliceId) (e : EngineId) (t : ThreadId) (st : ThreadPhase) :
    (s.blockThread sl e t st).thread sl e t = { s.thread sl e t with st := st } := by
  have hleave : ∀ g : Engine, (g.leave t).thread t = g.thread t := fun g => by unfold Engine.leave; split <;> rfl
  have hon := State.thread_onThread hs sl e t fun k => { k with st := st }
  refine Eq.trans ?_ hon
  obtain ⟨⟨hlen, -⟩, -⟩ := id hs
  obtain ⟨-, ⟨he, -⟩, -⟩ := hs.sl sl.isLt
  have hel : e.val < (s.sl sl).engines.length := by rw [he]; exact e.isLt
  unfold State.thread State.blockThread State.onThread
  rw [State.onSl_sl_self _ _ _ (by rw [hlen]; exact sl.isLt), State.onSl_sl_self _ _ _ (by rw [hlen]; exact sl.isLt)]
  unfold SliceState.onThread
  rw [SliceState.onEngine_engine _ _ hel, SliceState.onEngine_engine _ _ hel]
  exact hleave _

theorem State.unitWait_thread {s : State} (hs : s.Inv) (sl : SliceId) (e : EngineId) (t : ThreadId) (u : EngineUnit) :
    ((s.unitWait sl e t u).thread sl e t).g = (s.thread sl e t).g ∧ ((s.unitWait sl e t u).thread sl e t).run = (s.thread sl e t).run := by
  obtain ⟨hg, hr, -⟩ := State.afterIssue_thread_parts hs sl e t
  unfold State.unitWait
  rw [State.blockThread_thread (hs.afterIssue sl e t)]
  exact ⟨hg, hr⟩

theorem State.unitWait_reg {s : State} (hs : s.Inv) (sl : SliceId) (e : EngineId) (t : ThreadId) (u : EngineUnit) (n : Nat) :
    ((s.unitWait sl e t u).thread sl e t).reg n = (s.thread sl e t).reg n := by
  unfold Thread.reg
  rw [(State.unitWait_thread hs sl e t u).1]

theorem State.unitWait_threadRun {s : State} (hs : s.Inv) (sl : SliceId) (e : EngineId) (t : ThreadId) (u : EngineUnit) :
    ((s.unitWait sl e t u).sl sl).threadRun e t = (s.sl sl).threadRun e t := by
  have hruns : ((s.unitWait sl e t u).sl sl).runs = (s.sl sl).runs := State.Agree.unitWait (π := SliceState.runs) (fun _ _ => rfl) s sl e t u sl
  have hrun := (State.unitWait_thread hs sl e t u).2
  unfold SliceState.threadRun
  dsimp only
  rw [hruns]
  rw [show ((((s.unitWait sl e t u).sl sl).engine e).thread t).run = (((s.sl sl).engine e).thread t).run from hrun]

/-! ### Which operands a unit takes -/

theorem State.unitWork_routed_isSome (s : State) (sl e t : Nat) {u : EngineUnit} (w : Nat) (hu : u ∈ [EngineUnit.scoring, .topk, .capacity, .sorter]) :
    (s.unitWork sl e t u w).isSome = true ↔
      ((s.thread sl e t).opA w).toNat + 32 ≤ 0x1000000 ∧ descOk (leNat ((s.sl sl).load (engineAddr e ((s.thread sl e t).opA w).toNat) 32)) = true := by
  have hrouted : (u == .scoring || u == .topk || u == .capacity || u == .sorter) = true := by
    simp only [List.mem_cons, List.not_mem_nil, or_false] at hu
    obtain rfl | rfl | rfl | rfl := hu <;> rfl
  unfold State.unitWork
  simp only [hrouted, Bool.true_and, if_true]
  by_cases hd : ((s.thread sl e t).opA w).toNat + 32 ≤ 0x1000000 ∧
      descOk (leNat ((s.sl sl).load (engineAddr e ((s.thread sl e t).opA w).toNat) 32)) = true
  · rw [if_neg (by simp [hd])]
    refine iff_of_true ?_ hd
    split
    · rfl
    · simp only [List.mem_cons, List.not_mem_nil, or_false] at hu
      obtain rfl | rfl | rfl | rfl := hu <;> rfl
  · rw [if_pos (by simpa [-not_and, Classical.not_and_iff_not_or_not] using hd)]
    exact iff_of_false (by simp) hd

/-- PACK takes a list and blocks that fit, and its count is that of their bytes. -/
theorem State.packWork_isSome (s : State) (sl e a : Nat) (u : Run) (dst handle : Nat) (compress : Bool) {li : LayerInfo} {back : Bool} {b : Buf}
    (hl : s.packLayer sl a u = some (li, back)) (hb : (s.sl sl).pools.match? handle = some b) (hdst : bits dst 40 0 = 0)
    (hmem : s.members.contains (placeOf dst) = true) :
    let k := if back then ((s.sl sl).returnRowsOf li.layer).length else ((s.sl sl).dispatchList li.layer).length
    let list := (s.sl sl).sortedList e a k
    let data := (if back then s.returnBlocks sl li u list (placeOf dst) compress
      else (s.dispatchBlocks sl li u list (placeOf dst) compress).1).flatten
    (a + 16 * k ≤ 0xC00000 ∨ (0xC40000 ≤ a ∧ a + 16 * k ≤ 0xD00000)) → data.length ≤ classSize b.cls →
    ∃ y, s.packWork sl e a u dst handle compress = some (data.length, y) := by
  intro k list data hk hdata
  unfold State.packWork
  dsimp only
  rw [hl, hb]
  dsimp only
  cases back
  all_goals
    refine ⟨_, (if_neg ?_).trans (if_neg (Nat.not_lt.2 hdata))⟩
    rintro (h | h)
    · exact h hdst
    · rw [hmem] at h
      simp [k] at h hk
      omega

end Sys2Proof.Machine
end

section
/-! The start of a unit. -/

namespace Sys2Proof.Machine

section
variable {s : State} {sl : SliceId} {e : EngineId} {t : ThreadId} (u : EngineUnit) (w : Nat)

/-- The unit of a thread that may start it at once. -/
theorem State.startUnit_idle (hu : (((s.sl sl).engine e).busy.any fun b => b.1 == u) = false) :
    (s.afterIssue sl e t id).startUnit sl e t u w = ((s.unitWait sl e t u).grantUnit sl e t u w).2 := by
  refine if_neg ?_
  show ¬ (((s.unitWait sl e t u).sl sl).engine e).busy.any _ = true
  rw [State.unitWait_busy, hu]
  decide

theorem State.startUnit_inUse (hu : (((s.sl sl).engine e).busy.any fun b => b.1 == u) = true) :
    (s.afterIssue sl e t id).startUnit sl e t u w =
      (s.unitWait sl e t u).onSl sl fun x => x.onEngine e fun g => { g with waits := g.waits ++ [⟨u, t, BitVec.ofNat 64 w⟩] } := by
  refine if_pos ?_
  show (((s.unitWait sl e t u).sl sl).engine e).busy.any _ = true
  rw [State.unitWait_busy, hu]

theorem State.grantUnit_of_work {s v : State} {sl e t : Nat} {u : EngineUnit} {w : Nat} (h : s.unitWork sl e t u w = some v) :
    s.grantUnit sl e t u w = (true, v.onSl sl fun x => x.onEngine e fun g => { g with busy := g.busy ++ [(u, t)] }) := by
  unfold State.grantUnit
  rw [h]

theorem State.grantUnit_of_refused {s : State} {sl e t : Nat} {u : EngineUnit} {w : Nat} (h : s.unitWork sl e t u w = none) :
    s.grantUnit sl e t u w = (false, s.threadFault sl e t faultUnitArg) := by
  unfold State.grantUnit
  rw [h]

/-- The start of a unit by an instruction whose body starts it: the unit idle and taking the operand, refusing it, or in use. -/
theorem State.issueThread_starts (hs : s.Inv) (hw : s.Issues sl e t w) (hg : (s.thread sl e t).guardHolds w = true) {form : Form}
    {body : State → Thread → Nat → State} (hf : form w = true)
    (hb : body (s.afterIssue sl e t id) (s.thread sl e t) w = (s.afterIssue sl e t id).startUnit sl e t u w) :
    let idle : Prop := (((s.sl sl).engine e).busy.any fun b => b.1 == u) = false
    (idle → ∀ v : State, (s.unitWait sl e t u).unitWork sl e t u w = some v →
      Host.Outcome.next (s.issueThread sl e t form body) = (.next (v.onSl sl fun x => x.onEngine e fun g => { g with busy := g.busy ++ [(u, t.val)] }) : Out)) ∧
    (idle → (s.unitWait sl e t u).unitWork sl e t u w = none → ∃ v : State, Host.Outcome.next (s.issueThread sl e t form body) = (.next v : Out) ∧
      (v.thread sl e t).st = .idle ∧ ((v.sl sl).engine e).busy = ((s.sl sl).engine e).busy ∧ bits (v.sl sl).routing.lastFault 7 0 = 4) ∧
    (¬ idle → Host.Outcome.next (s.issueThread sl e t form body) = (.next ((s.unitWait sl e t u).onSl sl fun x => x.onEngine e fun g =>
      { g with waits := g.waits ++ [⟨u, t, BitVec.ofNat 64 w⟩] }) : Out)) := by
  intro idle
  have hrun : s.issueThread sl e t form body = (s.afterIssue sl e t id).startUnit sl e t u w := (State.issueThread_runs hw hf hg).trans hb
  rw [hrun]
  refine ⟨fun hi v hv => ?_, fun hi hv => ?_, fun hi => ?_⟩
  · rw [State.startUnit_idle u w hi, State.grantUnit_of_work hv]
  · rw [State.startUnit_idle u w hi, State.grantUnit_of_refused hv]
    obtain ⟨hst, -, -, hl, -⟩ := State.threadFault_ends (hs.unitWait sl e t u) sl e t faultUnitArg (by decide)
    exact ⟨_, rfl, hst, (State.threadFault_busy ..).trans (State.unitWait_busy ..), hl⟩
  · rw [State.startUnit_inUse u w (by simpa [idle] using hi)]

end

/-- A register that the last act of an instruction writes. -/
theorem State.putReg_reg {s : State} (hs : s.Inv) (sl : SliceId) (e : EngineId) (t : ThreadId) {n : Nat} (hn : n < 32) (h0 : n ≠ 0) (v : Word) :
    ((s.putReg sl e t n v).thread sl e t).reg n = v := by
  unfold State.putReg
  rw [State.thread_onThread hs]
  refine Thread.reg_setReg _ _ h0 ?_
  obtain ⟨-, ⟨he, hall⟩, -⟩ := hs.sl sl.isLt
  have hel : e.val < (s.sl sl).engines.length := by rw [he]; exact e.isLt
  have hth : (s.thread sl e t).ok := by
    unfold State.thread SliceState.engine
    rw [List.getD_eq_getElem _ _ hel]
    obtain ⟨ht, hk⟩ := hall _ (List.getElem_mem hel)
    unfold Engine.thread
    rw [List.getD_eq_getElem _ _ (by rw [ht]; exact t.isLt)]
    exact hk _ (List.getElem_mem _)
  rw [hth.1]
  exact hn

theorem State.unitWait_routed_isSome {s : State} (hs : s.Inv) (sl : SliceId) (e : EngineId) (t : ThreadId) {u : EngineUnit} (w : Nat)
    (hu : u ∈ [EngineUnit.scoring, .topk, .capacity, .sorter]) :
    ((s.unitWait sl e t u).unitWork sl e t u w).isSome = true ↔
      ((s.thread sl e t).opA w).toNat + 32 ≤ 0x1000000 ∧ descOk (leNat ((s.sl sl).load (engineAddr e ((s.thread sl e t).opA w).toNat) 32)) = true := by
  have hload : ∀ a, ((s.unitWait sl e t u).sl sl).load a 32 = (s.sl sl).load a 32 := fun a =>
    State.Agree.unitWait (π := fun x => x.load a 32) (fun _ _ => rfl) s sl e t u sl
  rw [State.unitWork_routed_isSome _ _ _ _ _ hu, hload]
  unfold Thread.opA
  rw [State.unitWait_reg hs]

/-- PACK whose blocks fit leaves their number of bytes in gD. -/
theorem State.unitWait_pack {s y : State} (hs : s.Inv) (sl : SliceId) (e : EngineId) (t : ThreadId) (w : Nat) {r : Run} {n : Nat}
    (hr : (s.sl sl).threadRun e t = some r)
    (hy : (s.unitWait sl e t .pack).packWork sl e ((s.thread sl e t).opA w).toNat r ((s.thread sl e t).opB w).toNat
      ((s.thread sl e t).reg (wD w)).toNat (bit (wFn w) 1) = some (n, y)) :
    (s.unitWait sl e t .pack).unitWork sl e t .pack w = some (y.putReg sl e t (wD w) (BitVec.ofNat 64 n)) := by
  have hreg := State.unitWait_reg hs sl e t .pack
  have hrouted : ((EngineUnit.pack == .scoring || EngineUnit.pack == .topk || EngineUnit.pack == .capacity || EngineUnit.pack == .sorter)) = false := rfl
  unfold State.unitWork
  simp only [hrouted, Bool.false_and, Bool.false_eq_true, if_false, State.unitWait_threadRun hs, hr]
  unfold Thread.opA Thread.opB
  simp only [hreg]
  rw [show (s.unitWait sl e t .pack).packWork sl e ((s.thread sl e t).reg (wA w)).toNat r ((s.thread sl e t).reg (wB w)).toNat
    ((s.thread sl e t).reg (wD w)).toNat (bit (wFn w) 1) = some (n, y) from hy]

/-- Settles O12: the start of each unit, its faults, and the operands that it takes. -/
theorem routeUnitStarts : Obligations.RouteUnitStarts := by
  intro s sl e t w hs hw hg h op fn d faults wait idle starts n a desc
  have hrow : ∀ {u : EngineUnit} {c : Nat}, op = c → _ := fun {u c} hop =>
    State.issueThread_starts u w hs hw hg (form := opIs c) (body := fun v _ w => v.startUnit sl e t u w) (opIs_eq hop) rfl
  have hrow1 : ∀ {u : EngineUnit} {c : Nat} {b : Bool}, op = c → bit fn 1 = b → _ := fun {u c b} hop hb =>
    State.issueThread_starts u w hs hw hg (form := opFn1 c b) (body := fun v _ w => v.startUnit sl e t u w) (opFn1_eq hop hb) rfl
  refine ⟨fun hop => hrow hop, fun hop => hrow hop, fun hop hb => hrow1 hop hb, fun hop hb => hrow1 hop hb, fun hop => hrow hop, fun hop => hrow hop,
    fun hop hn hr hl => ?digest, fun hop hn => ?digestLength, fun hop hn hbad => ?digestBounds, fun u hu => ?operands, rfl,
    fun r li back b hr hl hb hdst hmem => ?pack⟩
  case digest =>
    refine State.issueThread_starts .digest w hs hw hg (opIs_eq hop) ((if_neg (Nat.not_lt.2 hn)).trans (if_neg ?_))
    rw [show localRead ((s.thread sl e t).opA w).toNat ((s.thread sl e t).opB w).toNat = true from hr,
      show localWrite t ((s.thread sl e t).reg (wD w)).toNat 64 = true from hl]
    decide
  case digestLength => exact State.next_faults hs hw hg (opIs_eq hop) (by decide) (if_pos hn)
  case digestBounds =>
    refine State.next_faults hs hw hg (opIs_eq hop) (by decide) ((if_neg (Nat.not_lt.2 hn)).trans (if_pos ?_))
    by_contra hc
    simp only [Bool.or_eq_true, not_or, Bool.not_eq_true', Bool.not_eq_false] at hc
    exact hbad hc
  case operands => exact State.unitWait_routed_isSome hs sl e t w hu
  case pack =>
    intro v k list data hk hdata
    have hv : v = s.unitWait sl e t .pack := rfl
    have hmatch : (v.sl sl).pools.match? (h.reg d).toNat = some b :=
      Eq.trans (congrArg (fun p : Pools => p.match? (h.reg d).toNat) (State.Agree.unitWait (π := SliceState.pools) (fun _ _ => rfl) s sl e t .pack sl)) hb
    obtain ⟨y, hy⟩ := State.packWork_isSome v sl e a r n (h.reg d).toNat (bit fn 1) hl hmatch hdst hmem hk hdata
    refine ⟨y.putReg sl e t d (BitVec.ofNat 64 data.length), State.unitWait_pack hs sl e t w hr hy, fun hd => ?_⟩
    exact State.putReg_reg ((State.Keeps.packWork hy).2 (hs.unitWait sl e t .pack)) sl e t (bits_lt ..) hd _

end Sys2Proof.Machine
end

section
/-! A HALT that does not complete its phase. -/

namespace Sys2Proof.Machine

/-! ### A thread at HALT beside an IDLE thread that still has its staged copy -/

/-- The phase of two threads that the witness runs. -/
def haltWitnessRun : Run :=
  { idx := 0, frame := 0, st := .launched
    entry := { kind := .route, unit := .engine 0, launch := 0, duration := 1, due := 0, inputs := [], f := { first := 0, threads := 2 } } }

/-- Thread 0 runs and is at a HALT; thread 1 of its phase is IDLE with a staged copy. -/
def haltWitness : State :=
  State.reset.onSl 0 fun x =>
    { x with
      mem := [(engineAddr 0 0xC00007, 0x28)]
      runs := [haltWitnessRun]
      engines := x.engines.modify 0 fun g =>
        { g with running := some 0, threads := (g.threads.set 0 { st := .running }).set 1 { staged := true } } }

theorem haltWitness_inv : haltWitness.Inv := by
  refine (State.Keeps.onSl State.reset 0 fun x h => ?_).2 resetInv.1
  obtain ⟨-, he, hq, hl⟩ := h
  refine ⟨rfl, ⟨by simpa using he.1, forall_mem_modify 0 he.2 fun g hg => ⟨by simpa using hg.1, fun k hk => ?_⟩⟩, hq, hl⟩
  obtain hk | rfl := List.mem_or_eq_of_mem_set hk
  · obtain hk | rfl := List.mem_or_eq_of_mem_set hk
    · exact hg.2 k hk
    · exact ⟨rfl, rfl⟩
  · exact ⟨rfl, rfl⟩

theorem haltWitness_issues : haltWitness.Issues 0 0 0 (0x28 * 2 ^ 56) := by
  exact ⟨by decide, fun _ => by decide, by decide, by decide⟩

/-- After the HALT of thread 0 the issue has made thread 1 READY, so the phase still runs. -/
theorem haltWitness_halt : ∃ u, exec (.halt 0 0 0) haltWitness = .next u ∧ (u.sl 0).runs = [haltWitnessRun] := ⟨_, rfl, by decide⟩

/-- Refutes O13: an IDLE thread of the phase that still has a staged copy becomes READY as the last thread issues its HALT, so the phase
is not completed. -/
theorem not_routeWaits : ¬ Obligations.RouteWaits := by
  intro h
  obtain ⟨hhalt, -⟩ := h haltWitness 0 0 0 (0x28 * 2 ^ 56) haltWitness_inv haltWitness_issues (by decide)
  obtain ⟨u, hu, -, -, hdone⟩ := hhalt (by decide)
  obtain ⟨v, hv, hruns⟩ := haltWitness_halt
  cases hu.symm.trans hv
  have hidle : ∀ k ∈ haltWitnessRun.threads, k ≠ (0 : ThreadId).val → (((haltWitness.sl (0 : SliceId)).engine (0 : EngineId)).thread k).st = .idle := by
    decide
  have := hdone haltWitnessRun (by decide) rfl rfl hidle haltWitnessRun (by rw [show (u.sl (0 : SliceId)).runs = _ from hruns]; exact List.mem_singleton_self _) rfl rfl
  cases this

end Sys2Proof.Machine
end

section
/-! The acts of an engine beside its threads. -/

namespace Sys2Proof.Machine

/-- A change of one engine matters only by what it makes of that engine. -/
theorem SliceState.onEngine_congr {x : SliceState} {e : Nat} {f g : Engine → Engine} (h : f (x.engine e) = g (x.engine e)) :
    x.onEngine e f = x.onEngine e g := by
  unfold SliceState.onEngine
  congr 1
  obtain he | he := Nat.lt_or_ge e x.engines.length
  · have hen : x.engine e = x.engines[e] := by simp [SliceState.engine, List.getD, he]
    apply List.ext_getElem (by simp)
    intro n h1 h2
    simp only [List.getElem_modify]
    split
    · next hin => subst hin; rw [← hen, h]
    · rfl
  · rw [List.modify_eq_self he, List.modify_eq_self he]

/-- A thread that yields leaves the slot READY. -/
theorem State.blockThread_running {s : State} {sl : SliceId} {e : EngineId} {t : ThreadId} (h : ((s.sl sl).engine e).running = some t.val)
    (st : ThreadPhase) :
    s.blockThread sl e t st = s.onSl sl fun x => x.onEngine e fun g =>
      { (g.onThread t fun k => { k with st := st }) with running := none, last := t } := by
  unfold State.blockThread
  refine State.onSl_congr (SliceState.onEngine_congr ?_)
  exact if_pos h

/-- A unit that completes is freed and its waiting thread goes on, before the unit is granted again. -/
theorem State.doUnitComplete_frees {s : State} {sl : SliceId} {e : EngineId} {u : EngineUnit} {t : ThreadId} (hu : u ≠ .combine)
    (hb : ((s.sl sl).engine e).busy.find? (fun b => b.1 == u) = some (u, t.val)) (hst : (s.thread sl e t).st = .waitUnit u)
    (hw : (((s.sl sl).engine e).waits.any fun k => k.unit == u && k.thread == t.val) = false)
    (hscore : u = .scoring → s.passDone sl e = true ∨ s.passLive sl e = false) :
    s.doUnitComplete sl e u = .next ((s.onSl sl fun x => x.onEngine e fun g =>
      { (g.onThread t fun k => { k with st := .ready }) with busy := g.busy.eraseP (· == (u, t.val)) }).grantWaiters sl e u 64) := by
  have hfree : s.onSl sl (fun x => x.onEngine e fun g =>
      let g1 := { g with busy := g.busy.eraseP (· == (u, t.val)) }
      if (g.thread t).st = .waitUnit u ∧ !(g.waits.any fun k => k.unit == u && k.thread == t.val) then g1.onThread t Thread.wake else g1) =
      s.onSl sl fun x => x.onEngine e fun g =>
        { (g.onThread t fun k => { k with st := .ready }) with busy := g.busy.eraseP (· == (u, t.val)) } := by
    refine State.onSl_congr (SliceState.onEngine_congr ?_)
    dsimp only
    rw [if_pos ⟨hst, by rw [hw]; rfl⟩]
    rfl
  unfold State.doUnitComplete
  rw [hb]
  dsimp only
  rw [if_neg hu, if_neg, hfree]
  simp only [Bool.and_eq_true, decide_eq_true_eq, Bool.not_eq_true', not_and, Bool.not_eq_true]
  rintro ⟨hs, hd⟩
  obtain h | h := hscore hs
  · rw [h] at hd; cases hd
  · exact h

/-- Settles O14: the wake of a drip, the yield, the completion of a unit and a range prefetch. -/
theorem routeEngineActs : Obligations.RouteEngineActs := by
  intro s sl e hs
  refine ⟨fun t d hst hd hlate => ?wake, fun t hrun hiss => ?yield, fun u t hu hb hst hw hscore => State.doUnitComplete_frees hu hb hst hw hscore,
    fun hbusy hdone hlive hstill => ?scoring, fun i r v g hact hg => ?range⟩
  case wake =>
    show execWaitDripWake sl e t s = _
    unfold execWaitDripWake
    rw [hst]
    dsimp only
    cases hr : (s.sl sl).threadRun e t with
    | none => exact if_neg (show ¬ (Drip.later d s.now || false) = true by rw [hd]; decide)
    | some r => exact if_neg (show ¬ (Drip.later d s.now || r.lateInput) = true by rw [hd, hlate r hr]; decide)
  case yield =>
    show execThreadYield sl e s = _
    unfold execThreadYield
    dsimp only
    rw [hrun]
    exact (if_pos hiss).trans (congrArg _ (State.blockThread_running hrun _))
  case scoring =>
    show s.doUnitComplete sl e .scoring = _
    obtain ⟨b, hb⟩ : ∃ b, ((s.sl sl).engine e).busy.find? (fun b => b.1 == EngineUnit.scoring) = some b := by
      rw [← Option.isSome_iff_exists, List.find?_isSome]
      simpa using hbusy
    unfold State.doUnitComplete
    rw [hb]
    simp only [hdone, hlive, hstill, Bool.not_false, Bool.and_true, decide_true, if_true, Bool.false_eq_true, if_false]
    split
    · next h => cases h
    · split <;> rfl
  case range =>
    intro parts got staged
    have hexec : exec (.rangePrefetch sl i) s =
        if gaPlace g.base = v.place sl then
          if got.length = parts.length then .next (v.onSl sl fun x => (staged got x).completeRun r)
          else .next ((v.onSl sl (staged got)).endTied sl r v.now (v.now.plus 1) .protection)
        else .next (parts.foldl (fun (y : State) p => y.sendMsg sl
          { dst := gaPlace p.1, opcode := 0x10, parts := [(gaOffset p.1, leBytes 8 p.2.length)], ctx := 255,
            issuer := .prefetch r.idx p.1 r.frame, sched := v.pkg.congestionMode == 0 }) (v.onSl sl (staged []))) := by
      subst hg
      show execRangePrefetch sl i s = _
      unfold execRangePrefetch
      rw [hact]
      rfl
    have hlen : got.length = parts.length ↔ ∀ p ∈ parts, ((v.sl sl).readBytes? (gaOffset p.1) p.2.length).isSome = true := by
      refine List.filterMap_length_eq_length.trans ?_
      simp
    refine ⟨fun hown hall => ?_, fun hown hsome => ?_, fun hother => ?_⟩
    · rw [hexec, if_pos hown, if_pos (hlen.2 hall)]
    · obtain ⟨p, hp, hnone⟩ := hsome
      rw [hexec, if_pos hown, if_neg]
      intro h
      have := hlen.1 h p hp
      rw [hnone] at this
      cases this
    · rw [hexec, if_neg hother]

end Sys2Proof.Machine
end

section
/-! SUPPORT. What an allocation can answer, and a grant. -/

namespace Sys2Proof.Machine

/-! ### What an allocation can answer -/

/-- A grant: the class that may grant, its lowest free buffer, and the state of the pools then. -/
theorem Pools.alloc_granted {p q : Pools} {o n c i ctx : Nat} {l : List Nat} {h : Word} (ha : p.alloc o n l ctx = (.granted h c i, q)) :
    p.grantClass o n = some c ∧ p.lowestFree c = some i ∧ (∃ gen, h = handleWord (p.offset c i) c gen) ∧
    q.waits = p.waits ∧ q.allocs = p.allocs + 1 := by
  unfold Pools.alloc at ha
  split at ha
  · cases ha
  · split at ha
    · cases ha
    · next c' hc =>
      split at ha
      · cases ha
      · next i' hi =>
        simp only [Prod.mk.injEq, AllocResult.granted.injEq] at ha
        obtain ⟨⟨rfl, rfl, rfl⟩, rfl⟩ := ha
        exact ⟨hc, hi, ⟨_, rfl⟩, rfl, rfl⟩

/-- An answer that is no grant leaves the buffers as they are. -/
theorem Pools.alloc_bufs {p q : Pools} {o n ctx : Nat} {l : List Nat} {r : AllocResult} (ha : p.alloc o n l ctx = (r, q))
    (hr : ∀ h c i, r ≠ .granted h c i) : q.bufs = p.bufs := by
  unfold Pools.alloc at ha
  split at ha
  · cases ha; rfl
  · split at ha
    · cases ha; rfl
    · split at ha
      · cases ha; rfl
      · exact absurd (Prod.mk.inj ha).1.symm (hr _ _ _)

/-- Where no request is served, an allocation answers UNIT_ARG. -/
theorem Pools.alloc_of_not_serves {p : Pools} {o : Nat} (hp : p.serves o = false) (n ctx : Nat) (l : List Nat) :
    p.alloc o n l ctx = (.unitArg, p) := by
  refine if_pos ?_
  unfold Pools.serves at hp
  cases hc : p.configured with
  | false => simp
  | true =>
    rw [hc, Bool.true_and] at hp
    simp only [bne_eq_false_iff_eq] at hp
    simp [hp]

theorem handleWord_class (off c gen : Nat) (hc : c < 6) : bits (handleWord off c gen).toNat 43 41 = c := by
  unfold handleWord bits field
  simp only [Nat.shiftLeft_eq, BitVec.toNat_ofNat, Nat.shiftRight_eq_div_pow]
  omega

/-- Settles O16: a grant takes the lowest free buffer of the class that may grant. -/
theorem poolGrantKeepsReserves : Obligations.PoolGrantKeepsReserves := by
  intro p q o n c i ctx l h ha
  obtain ⟨hclass, hfree, ⟨gen, rfl⟩, hwaits, hallocs⟩ := Pools.alloc_granted ha
  unfold Pools.grantClass at hclass
  have hmem := List.mem_of_find?_eq_some hclass
  have hmay := List.find?_some hclass
  simp only [List.mem_filter, List.mem_range, decide_eq_true_eq] at hmem
  simp only [Bool.and_eq_true, Bool.or_eq_true, decide_eq_true_eq] at hmay
  unfold Pools.lowestFree at hfree
  have hi := List.mem_of_find?_eq_some hfree
  have hb := List.find?_some hfree
  simp only [List.mem_range] at hi
  refine ⟨hmem.1, hmem.2, lt_of_lt_of_le hi (Nat.min_le_left _ _), fun b hbuf => ?_, hmay.1, handleWord_class _ _ _ hmem.1, hwaits, hallocs⟩
  unfold Pools.isFree at hb
  rw [hbuf] at hb
  simpa using hb

/-! ### DONE and FREE -/

/-- A buffer that a handle matches is the one that the handle names. -/
theorem Pools.match?_some {p : Pools} {h : Nat} {b : Buf} (hm : p.match? h = some b) : p.named h = some (b.cls, b.idx) := by
  unfold Pools.match? at hm
  split at hm
  · cases hm
  · next c i hn =>
    split at hm
    · next b' hb =>
      split at hm
      · cases hm
        have := List.find?_some hb
        simp only [Bool.and_eq_true, beq_iff_eq] at this
        rw [hn, this.1, this.2]
      · cases hm
    · cases hm

/-- A DONE or FREE that is accepted names an allocated buffer. -/
theorem judgeDoneFree_accepts {p : Pools} {isFree : Bool} {o h : Nat} (hj : judgeDoneFree p isFree o h = none) : ∃ b, p.match? h = some b := by
  unfold judgeDoneFree at hj
  split at hj
  · cases hj
  · next b hb => exact ⟨b, hb⟩

/-- What an accepted DONE or FREE leaves. -/
theorem State.doneFree_accepted {s : State} {sl o h : Nat} {isFree : Bool} (hj : judgeDoneFree (s.sl sl).pools isFree o h = none) :
    ∃ b, (s.sl sl).pools.match? h = some b ∧ s.doneFree sl isFree o h =
      (true, s.onSl sl fun x => { x with pools :=
        if isFree then (s.sl sl).pools.release b.cls b.idx false
        else { (s.sl sl).pools with bufs := (s.sl sl).pools.bufs.map fun x =>
          if x.cls == b.cls && x.idx == b.idx then { x with done := x.done ||| 2 ^ ((ownerIndex b.list o).getD 0) } else x } }) := by
  obtain ⟨b, hb⟩ := judgeDoneFree_accepts hj
  refine ⟨b, hb, ?_⟩
  unfold State.doneFree
  dsimp only
  rw [hj]
  dsimp only
  rw [hb]

/-- What a rejected DONE or FREE answers and leaves of the pools. -/
theorem State.doneFree_rejected {s : State} {sl o h r : Nat} {isFree : Bool} (hsl : sl < s.slices.length)
    (hj : judgeDoneFree (s.sl sl).pools isFree o h = some r) :
    let p := (s.sl sl).pools
    (s.doneFree sl isFree o h).1 = false ∧ ((s.doneFree sl isFree o h).2.sl sl).pools =
      if r = 2 && p.staleTorn h then { p with stale := p.stale + 1 }
      else { p with rejected := p.rejected + 1, lastReject := rejectWord h o isFree r } := by
  intro p
  unfold State.doneFree
  dsimp only
  rw [hj]
  dsimp only
  split
  · exact ⟨rfl, by rw [State.onSl_sl_self _ _ _ hsl]⟩
  · refine ⟨rfl, Eq.trans (State.Agree.report (π := SliceState.pools) (fun _ _ => rfl) sl) ?_⟩
    rw [State.onSl_sl_self _ _ _ hsl]

end Sys2Proof.Machine
end

section
/-! SUPPORT. ALLOC, DONE and FREE of a thread. -/

namespace Sys2Proof.Machine

/-! ### ALLOC -/

theorem State.afterIssue_ownerList (s : State) (sl : SliceId) (e : EngineId) (t : ThreadId) (h : Thread) (w : Nat) :
    (s.afterIssue sl e t id).ownerList sl e h w = s.ownerList sl e h w := by
  have hload : ∀ a, ((s.afterIssue sl e t id).sl sl).load a 16 = (s.sl sl).load a 16 := fun a =>
    State.Agree.afterIssue (π := fun x => x.load a 16) (fun _ _ => rfl) s sl e t id sl
  have hpools : ((s.afterIssue sl e t id).sl sl).pools = (s.sl sl).pools :=
    State.Agree.afterIssue (π := SliceState.pools) (fun _ _ => rfl) s sl e t id sl
  unfold State.ownerList
  simp only [hload, hpools]

/-- A thread instruction whose body faults from a state with the buffers of before: the thread is IDLE, the code kept, the buffers untouched. -/
theorem State.next_faults_pools {s z : State} {sl : SliceId} {e : EngineId} {t : ThreadId} {w code : Nat} (hw : s.Issues sl e t w)
    (hg : (s.thread sl e t).guardHolds w = true) {form : Form} {body : State → Thread → Nat → State} (hf : form w = true) (hc : code < 256)
    (hz : z.Inv) (hp : (z.sl sl).pools.bufs = (s.sl sl).pools.bufs)
    (hb : body (s.afterIssue sl e t id) (s.thread sl e t) w = z.threadFault sl e t code) :
    ∃ u : State, Host.Outcome.next (s.issueThread sl e t form body) = (.next u : Out) ∧ (u.thread sl e t).st = .idle ∧
      bits (u.sl sl).routing.lastFault 7 0 = code ∧ (u.sl sl).pools.bufs = (s.sl sl).pools.bufs := by
  obtain ⟨hst, -, -, hl, hbufs⟩ := State.threadFault_ends hz sl e t code hc
  exact ⟨_, congrArg _ ((State.issueThread_runs hw hf hg).trans hb), hst, hl, hbufs.trans hp⟩

/-- What an ALLOC makes of the answer of the pools. -/
def State.allocAnswer (s : State) (sl : SliceId) (e : EngineId) (t : ThreadId) (h : Thread) (w : Nat) (l : List Nat) : AllocResult → State
  | .granted hd _ _ => s.putReg sl e t (wD w) hd
  | .unitArg => s.threadFault sl e t faultUnitArg
  | .exhausted =>
    if bit (wFn w) 1 then s.putReg sl e t (wD w) 0
    else if s.still.on then s.threadFault sl e t faultPoolEmpty
    else (s.blockThread sl e t .waitPool).onSl sl fun x => { x with pools := { x.pools with
      poolWaits := x.pools.poolWaits + 1
      waits := x.pools.waits ++ [
        { engine := e, thread := t, bytes := (h.opA w).toNat, list := l, reg := wD w, owner := h.owner, ctx := h.ctx }] } }

section
variable {s : State} {sl : SliceId} {e : EngineId} {t : ThreadId} {w : Nat} (hs : s.Inv) (hw : s.Issues sl e t w)
  (hg : (s.thread sl e t).guardHolds w = true) (hop : bits w 63 58 = 0x20)
include hs hw hg hop

theorem execAlloc_noOwners (hl : s.ownerList sl e (s.thread sl e t) w = none) :
    ∃ u : State, exec (.alloc sl e t) s = .next u ∧ (u.thread sl e t).st = .idle ∧ bits (u.sl sl).routing.lastFault 7 0 = 4 ∧
      (u.sl sl).pools.bufs = (s.sl sl).pools.bufs := by
  refine State.next_faults_pools hw hg (opIs_eq hop) (by decide) (hs.afterIssue sl e t)
    (State.Agree.afterIssue (π := fun x => x.pools.bufs) (fun _ _ => rfl) s sl e t id sl) ?_
  dsimp only
  rw [State.afterIssue_ownerList, hl]
  rfl

omit hw hg hop in
/-- The pools as an ALLOC leaves them after its issue. -/
theorem State.afterIssue_pools (q : Pools) (hq : q.bufs = (s.sl sl).pools.bufs) :
    let z := (s.afterIssue sl e t id).onSl sl fun x => { x with pools := q }
    z.Inv ∧ (z.sl sl).pools.bufs = (s.sl sl).pools.bufs := by
  refine ⟨(State.Keeps.onSl _ _ fun _ h => .update h rfl rfl rfl).2 (hs.afterIssue sl e t), ?_⟩
  rw [State.onSl_sl_self _ _ _ (by rw [(hs.afterIssue sl e t).1.1]; exact sl.isLt), hq]

variable {l : List Nat} {q : Pools} {r : AllocResult} (hl : s.ownerList sl e (s.thread sl e t) w = some l)
  (hclean : wB w = 0 ∨ (s.sl sl).poisoned (engineAddr e ((s.thread sl e t).opB w).toNat) 16 = false)
  (ha : (s.sl sl).pools.alloc (s.thread sl e t).owner ((s.thread sl e t).opA w).toNat l (s.thread sl e t).ctx = (r, q))
include hl hclean ha

/-- An ALLOC whose owner list is good and read without poison, by the answer of the pools. -/
theorem execAlloc_answers :
    exec (.alloc sl e t) s = .next (((s.afterIssue sl e t id).onSl sl fun x => { x with pools := q }).allocAnswer sl e t (s.thread sl e t) w l r) := by
  have hread : (if wB w = 0 then s.afterIssue sl e t id
      else (s.afterIssue sl e t id).engineRead sl e t ((s.thread sl e t).opB w).toNat 16) = s.afterIssue sl e t id := by
    obtain h0 | hp := hclean
    · rw [if_pos h0]
    · rw [State.afterIssue_engineRead_clean hs _ _ _ _ _ hp, ite_self]
  have hpools : ((s.afterIssue sl e t id).sl sl).pools = (s.sl sl).pools :=
    State.Agree.afterIssue (π := SliceState.pools) (fun _ _ => rfl) s sl e t id sl
  refine congrArg Host.Outcome.next ((State.issueThread_runs hw (opIs_eq hop) hg).trans ?_)
  dsimp only
  rw [State.afterIssue_ownerList, hl]
  simp only [hread, hpools, ha]
  cases r <;> rfl

end

/-- A register write and a change of the pools of the same slice may be made in either order. -/
theorem State.putReg_onPools (s : State) (sl : SliceId) (e : EngineId) (t : ThreadId) (n : Nat) (v : Word) (q : Pools) :
    ((s.afterIssue sl e t id).onSl sl fun x => { x with pools := q }).putReg sl e t n v =
      (s.afterIssue sl e t fun k => { k with g := if n = 0 then k.g else k.g.set n v }).onSl sl fun x => { x with pools := q } := by
  rw [← State.putReg_afterIssue]
  unfold State.putReg State.onThread
  rw [State.onSl_onSl, State.onSl_onSl]
  rfl

theorem SliceState.onThread_id (x : SliceState) (e t : Nat) : x.onThread e t id = x := by
  unfold SliceState.onThread
  have : (fun g : Engine => g.onThread t id) = id := by
    funext g
    simp [Engine.onThread]
  rw [this]
  simp [SliceState.onEngine]

/-- A thread that leaves the slot after its issue and is not changed further. -/
theorem State.blockThread_afterIssue (s : State) (sl : SliceId) (e : EngineId) (t : ThreadId) (st : ThreadPhase) :
    (s.afterIssue sl e t id).blockThread sl e t st = s.afterBlock sl e t st id := by
  unfold State.afterBlock State.blockThread
  simp only [SliceState.onThread_id]

/-! ### DONE and FREE of a thread -/

section
variable {s : State} {sl : SliceId} {e : EngineId} {t : ThreadId} {w : Nat} (hs : s.Inv) (hw : s.Issues sl e t w)
  (hg : (s.thread sl e t).guardHolds w = true)
include hs hw hg

omit hs hw hg in
theorem State.afterIssue_pools_eq : ((s.afterIssue sl e t id).sl sl).pools = (s.sl sl).pools :=
  State.Agree.afterIssue (π := SliceState.pools) (fun _ _ => rfl) s sl e t id sl

omit hs in
theorem execDone_served (hop : bits w 63 58 = 0x21) (hp : (s.sl sl).pools.serves (s.thread sl e t).owner = true) :
    exec (.done sl e t) s =
      .next ((s.afterIssue sl e t id).doneFree sl false (s.thread sl e t).owner ((s.thread sl e t).opA w).toNat).2 := by
  refine congrArg Host.Outcome.next ((State.issueThread_runs hw (opIs_eq hop) hg).trans (if_pos ?_))
  rw [State.afterIssue_pools_eq, hp]

omit hs in
theorem execFree_served (hop : bits w 63 58 = 0x22) (hp : (s.sl sl).pools.serves (s.thread sl e t).owner = true) :
    let r := (s.afterIssue sl e t id).doneFree sl true (s.thread sl e t).owner ((s.thread sl e t).opA w).toNat
    exec (.free sl e t) s = .next (r.2.putPred sl e t (wPd w) r.1) := by
  refine congrArg Host.Outcome.next ((State.issueThread_runs hw (opIs_eq hop) hg).trans (if_pos ?_))
  rw [State.afterIssue_pools_eq, hp]

/-- Where the pools serve no request of the thread's owner, ALLOC, DONE and FREE fault with UNIT_ARG. -/
theorem pool_notServed (hp : (s.sl sl).pools.serves (s.thread sl e t).owner = false) {i : Nat × Instr}
    (hi : i ∈ [(0x20, Instr.alloc sl e t), (0x21, .done sl e t), (0x22, .free sl e t)]) (hop : bits w 63 58 = i.1) :
    ∃ u : State, exec i.2 s = .next u ∧ (u.thread sl e t).st = .idle ∧ bits (u.sl sl).routing.lastFault 7 0 = 4 ∧
      (u.sl sl).pools.bufs = (s.sl sl).pools.bufs := by
  have hpools := State.afterIssue_pools_eq (s := s) (sl := sl) (e := e) (t := t)
  have hno : ¬ ((s.afterIssue sl e t id).sl sl).pools.serves (s.thread sl e t).owner = true := by rw [hpools, hp]; decide
  simp only [List.mem_cons, List.not_mem_nil, or_false] at hi
  obtain rfl | rfl | rfl := hi
  · cases hl : s.ownerList sl e (s.thread sl e t) w with
    | none => exact execAlloc_noOwners hs hw hg hop hl
    | some l =>
      set z := if wB w = 0 then s.afterIssue sl e t id
        else (s.afterIssue sl e t id).engineRead sl e t ((s.thread sl e t).opB w).toNat 16 with hz
      have hread : State.Agree (fun x => x.pools) s z := by
        rw [hz]
        exact .ite (.afterIssue (fun _ _ => rfl) s sl e t id) (.comp (.readFor fun _ _ _ _ => rfl) (.afterIssue (fun _ _ => rfl) s sl e t id))
      have hinv : z.Inv := by
        rw [hz]
        split
        · exact hs.afterIssue sl e t
        · exact (State.Keeps.engineRead ..).2 (hs.afterIssue sl e t)
      have halloc := Pools.alloc_of_not_serves hp ((s.thread sl e t).opA w).toNat (s.thread sl e t).ctx l
      refine State.next_faults_pools (z := z.onSl sl fun x => { x with pools := (s.sl sl).pools }) hw hg (opIs_eq hop) (by decide)
        ((State.Keeps.onSl _ _ fun _ h => .update h rfl rfl rfl).2 hinv) ?_ ?_
      · rw [State.onSl_sl_self _ _ _ (by rw [hinv.1.1]; exact sl.isLt)]
      · dsimp only
        rw [State.afterIssue_ownerList, hl]
        dsimp only
        rw [← hz, show (z.sl sl).pools = (s.sl sl).pools from hread sl, halloc]
        rfl
  · exact State.next_faults_pools hw hg (opIs_eq hop) (by decide) (hs.afterIssue sl e t) (by rw [hpools]) (if_neg hno)
  · exact State.next_faults_pools hw hg (opIs_eq hop) (by decide) (hs.afterIssue sl e t) (by rw [hpools]) (if_neg hno)

end

end Sys2Proof.Machine
end

section
/-! The pool instructions. -/

namespace Sys2Proof.Machine

theorem State.putPred_thread {s : State} (hs : s.Inv) (sl : SliceId) (e : EngineId) (t : ThreadId) {n : Nat} (hn : n < 8) (v : Bool) :
    ((s.putPred sl e t n v).thread sl e t).pred n = if n = 0 then true else v := by
  unfold State.putPred
  rw [State.thread_onThread hs]
  split
  · next h0 => subst h0; rfl
  · next h0 =>
    refine Thread.pred_setPred _ _ h0 ?_
    obtain ⟨-, ⟨he, hall⟩, -⟩ := hs.sl sl.isLt
    have hel : e.val < (s.sl sl).engines.length := by rw [he]; exact e.isLt
    have hth : (s.thread sl e t).ok := by
      unfold State.thread SliceState.engine
      rw [List.getD_eq_getElem _ _ hel]
      obtain ⟨ht, hk⟩ := hall _ (List.getElem_mem hel)
      unfold Engine.thread
      rw [List.getD_eq_getElem _ _ (by rw [ht]; exact t.isLt)]
      exact hk _ (List.getElem_mem _)
    rw [hth.2]
    exact hn

theorem State.putPred_pools (s : State) (sl : SliceId) (e : EngineId) (t : ThreadId) (n : Nat) (v : Bool) :
    ((s.putPred sl e t n v).sl sl).pools = (s.sl sl).pools :=
  have h : State.Agree SliceState.pools s (s.putPred sl e t n v) := .onSl fun _ => rfl
  h sl

section
variable {s : State} {sl : SliceId} {e : EngineId} {t : ThreadId} {w : Nat} (hs : s.Inv) (hw : s.Issues sl e t w)
  (hg : (s.thread sl e t).guardHolds w = true)
include hs hw hg

/-- An accepted DONE sets the owner's bit of the buffer that the handle names. -/
theorem execDone_accepted (hop : bits w 63 58 = 0x21) (hp : (s.sl sl).pools.serves (s.thread sl e t).owner = true)
    (hj : judgeDoneFree (s.sl sl).pools false (s.thread sl e t).owner ((s.thread sl e t).opA w).toNat = none) :
    let p := (s.sl sl).pools
    let a := ((s.thread sl e t).opA w).toNat
    ∃ u : State, exec (.done sl e t) s = .next u ∧ (u.sl sl).pools.bufs = p.bufs.map fun x =>
      if some (x.cls, x.idx) = p.named a then
        { x with done := x.done ||| 2 ^ ((ownerIndex ((p.match? a).elim [] Buf.list) (s.thread sl e t).owner).getD 0) } else x := by
  have hpools := State.afterIssue_pools_eq (s := s) (sl := sl) (e := e) (t := t)
  intro p a
  rw [← hpools] at hj
  obtain ⟨b, hb, hd⟩ := State.doneFree_accepted hj
  refine ⟨_, execDone_served hw hg hop hp, ?_⟩
  rw [hd, hpools] at *
  rw [State.onSl_sl_self _ _ _ (by rw [(hs.afterIssue sl e t).1.1]; exact sl.isLt), show p.match? a = some b from hb, Pools.match?_some hb]
  simp only [Bool.false_eq_true, if_false, Option.elim_some, Option.some.injEq, Prod.mk.injEq, Bool.and_eq_true, beq_iff_eq]
  rfl

/-- An accepted FREE sets pD, and releases the buffer that the handle names with the next generation. -/
theorem execFree_accepted (hop : bits w 63 58 = 0x22) (hp : (s.sl sl).pools.serves (s.thread sl e t).owner = true)
    (hj : judgeDoneFree (s.sl sl).pools true (s.thread sl e t).owner ((s.thread sl e t).opA w).toNat = none) :
    let p := (s.sl sl).pools
    ∃ u : State, exec (.free sl e t) s = .next u ∧ (u.thread sl e t).pred (wPd w) = true ∧
      (u.sl sl).pools.bufs = p.bufs.map fun x =>
        if some (x.cls, x.idx) = p.named ((s.thread sl e t).opA w).toNat ∧ x.alloc = true then
          { x with alloc := false, gen := (x.gen + 1) % 256, done := 0, torn := false } else x := by
  have hpools := State.afterIssue_pools_eq (s := s) (sl := sl) (e := e) (t := t)
  intro p
  rw [← hpools] at hj
  obtain ⟨b, hb, hd⟩ := State.doneFree_accepted hj
  refine ⟨_, execFree_served hw hg hop hp, ?_, ?_⟩
  · rw [State.putPred_thread ((State.Keeps.doneFree ..).2 (hs.afterIssue sl e t)) sl e t (bits_lt ..), hd]
    exact ite_self _
  · rw [State.putPred_pools]
    rw [hd, hpools] at *
    rw [State.onSl_sl_self _ _ _ (by rw [(hs.afterIssue sl e t).1.1]; exact sl.isLt), Pools.match?_some hb]
    simp only [if_true, Pools.release, Option.some.injEq, Prod.mk.injEq, Bool.and_eq_true, beq_iff_eq]
    rfl

/-- A rejected FREE clears pD, and is counted as stale or as rejected. -/
theorem execFree_rejected (hop : bits w 63 58 = 0x22) (hp : (s.sl sl).pools.serves (s.thread sl e t).owner = true) {r : Nat}
    (hj : judgeDoneFree (s.sl sl).pools true (s.thread sl e t).owner ((s.thread sl e t).opA w).toNat = some r) :
    let p := (s.sl sl).pools
    let a := ((s.thread sl e t).opA w).toNat
    ∃ u : State, exec (.free sl e t) s = .next u ∧ (wPd w ≠ 0 → (u.thread sl e t).pred (wPd w) = false) ∧ (u.sl sl).pools =
      if r = 2 && p.staleTorn a then { p with stale := p.stale + 1 }
      else { p with rejected := p.rejected + 1, lastReject := rejectWord a (s.thread sl e t).owner true r } := by
  have hpools := State.afterIssue_pools_eq (s := s) (sl := sl) (e := e) (t := t)
  intro p a
  rw [← hpools] at hj
  obtain ⟨hfalse, hd⟩ := State.doneFree_rejected (by rw [(hs.afterIssue sl e t).1.1]; exact sl.isLt) hj
  refine ⟨_, execFree_served hw hg hop hp, fun h0 => ?_, ?_⟩
  · rw [State.putPred_thread ((State.Keeps.doneFree ..).2 (hs.afterIssue sl e t)) sl e t (bits_lt ..), hfalse, if_neg h0]
  · rw [State.putPred_pools, hd, hpools]

end

/-- Settles O15: ALLOC by the answer of the pools, DONE and FREE by their judgement, and the acts of the pool manager. -/
theorem poolInstructions : Obligations.PoolInstructions := by
  refine ⟨fun s sl e t w hs hw hg => ?_, fun s sl => ⟨?_, rfl, rfl⟩⟩
  · intro h op fn d a p faults
    refine ⟨fun hop hl => execAlloc_noOwners hs hw hg hop hl, fun l hl hop hclean => ?alloc, fun hop hp hj => execDone_accepted hs hw hg hop hp hj,
      fun hop hp hj => execFree_accepted hs hw hg hop hp hj, fun hop hp r hj => ?rejected,
      fun hp i hi hop => pool_notServed hs hw hg hp hi hop⟩
    case alloc =>
      have hans : ∀ {r q}, p.alloc h.owner a.toNat l h.ctx = (r, q) → exec (.alloc sl e t) s = .next
          (((s.afterIssue sl e t id).onSl sl fun x => { x with pools := q }).allocAnswer sl e t h w l r) := fun ha =>
        execAlloc_answers hs hw hg hop hl hclean ha
      refine ⟨fun q ha => ?_, fun q ha hno hstill => ?_, fun hd c i q ha => ?_, fun q ha hno => ?_, fun q ha hno hstill => ?_⟩
      · obtain ⟨hz, hbufs⟩ := State.afterIssue_pools hs q (Pools.alloc_bufs ha (fun _ _ _ => nofun))
        obtain ⟨hst, -, -, hlast, hb⟩ := State.threadFault_ends hz sl e t faultUnitArg (by decide)
        exact ⟨_, hans ha, hst, hlast, hb.trans hbufs⟩
      · obtain ⟨hz, hbufs⟩ := State.afterIssue_pools hs q (Pools.alloc_bufs ha (fun _ _ _ => nofun))
        obtain ⟨hst, -, -, hlast, hb⟩ := State.threadFault_ends hz sl e t faultPoolEmpty (by decide)
        exact ⟨_, (hans ha).trans (congrArg _ ((if_neg (Bool.eq_false_iff.1 hno)).trans (if_pos hstill))), hst, hlast, hb.trans hbufs⟩
      · exact (hans ha).trans (congrArg _ (State.putReg_onPools ..))
      · exact (hans ha).trans (congrArg _ ((if_pos hno).trans (State.putReg_onPools ..)))
      · refine (hans ha).trans (congrArg _ ((if_neg (Bool.eq_false_iff.1 hno)).trans ((if_neg (Bool.eq_false_iff.1 hstill)).trans ?_)))
        rw [← State.blockThread_afterIssue]
        unfold State.blockThread
        simp only [State.onSl_onSl]
        rfl
    case rejected =>
      obtain ⟨u, hu, hpred, hpools⟩ := execFree_rejected hs hw hg hop hp hj
      refine ⟨u, hu, hpred, ?_, fun hstale => ?_, fun hstale => ?_⟩
      · rw [hpools]; split <;> rfl
      · rw [hpools.trans (if_pos (Bool.and_eq_true_iff.2 ⟨decide_eq_true hstale.1, hstale.2⟩))]; exact ⟨rfl, rfl⟩
      · rw [hpools.trans (if_neg fun h => hstale ⟨of_decide_eq_true (Bool.and_eq_true_iff.1 h).1, (Bool.and_eq_true_iff.1 h).2⟩)]; exact ⟨rfl, rfl⟩
  · refine congrArg (fun f => Host.Outcome.next ((s.sl sl).pools.waits.foldl f s)) ?_
    funext v k
    unfold retryWait
    cases hr : (v.sl sl).pools.alloc k.owner k.bytes k.list k.ctx with
    | mk r q =>
      cases r with
      | granted hd c i =>
        refine congrArg (fun f : Thread → Thread => v.onSl sl fun x =>
          ({ x with pools := { q with waits := q.waits.filter (· != k) } } : SliceState).onThread k.engine k.thread f) ?_
        funext y
        unfold Thread.setReg Thread.wake
        split <;> rfl
      | unitArg => rfl
      | exhausted => rfl

end Sys2Proof.Machine
end

section
/-! SEND. -/

namespace Sys2Proof.Machine

/-- In MARKED mode a SEND lets its queue leave as the window allows. -/
def State.leaveMarked (v : State) (sl : SliceId) (u : Run) (w : Nat) : List QueuedMsg → State
  | [] => v
  | q :: _ => v.injectMarked sl u (wImm w) (blockHeader (leNat (q.data.take 64)))

section
variable {s : State} {sl : SliceId} {e : EngineId} {t : ThreadId} {w : Nat} (hs : s.Inv) (hw : s.Issues sl e t w)
  (hg : (s.thread sl e t).guardHolds w = true) (hop : bits w 63 58 = 0x1D)
include hs hw hg hop

/-- The packed blocks that a SEND appends to the queue of an injection. -/
def sentQueue (x : SliceState) (h : Thread) (w : Nat) (pl : Place) (lens : List Nat) : List QueuedMsg :=
  (cutAt lens (x.load (bits (h.opA w).toNat 40 0) (h.opB w).toNat)).zipIdx.map fun b =>
    { injection := wImm w, dst := pl, data := b.1, fence := b.2 == 0 && h.marks.contains pl }

/-- A SEND of packed blocks to an injection of its phase. -/
theorem exec_send_owned {u : Run} {pl : Place} {lens : List Nat} (hu : (s.sl sl).threadRun e t = some u)
    (hb : (s.sl sl).exch.blocksAt (bits ((s.thread sl e t).opA w).toNat 40 0) ((s.thread sl e t).opB w).toNat = some (pl, lens))
    (hi : u.entry.f.injection = wImm w ∨ u.entry.f.owns.contains (wImm w) = true) :
    let h := s.thread sl e t
    let qs := sentQueue (s.sl sl) h w pl lens
    let v := (((s.afterIssue sl e t id).readFor sl (some u) [(bits (h.opA w).toNat 40 0, (h.opB w).toNat)]).onThread sl e t fun k =>
      { k with marks := k.marks.filter (· != pl) }).onSl sl fun y =>
        { y with exch := { y.exch with injections := y.exch.injections ++ qs, sent := y.exch.sent ++ qs.map (sentBlock u.frame) } }
    exec (.send { on := sl } e t) s = .next (
      if s.pkg.congestionMode = 1 then v.leaveMarked sl u w qs else v) := by
  have hexch : ((s.afterIssue sl e t id).sl sl).exch = (s.sl sl).exch := State.Agree.afterIssue (π := SliceState.exch) (fun _ _ => rfl) s sl e t id sl
  have hload : ∀ a n, ((s.afterIssue sl e t id).sl sl).load a n = (s.sl sl).load a n := fun a n =>
    State.Agree.afterIssue (π := fun x => x.load a n) (fun _ _ => rfl) s sl e t id sl
  refine congrArg Host.Outcome.next ((State.issueThread_runs hw (opIs_eq hop) hg).trans ?_)
  dsimp only
  rw [State.afterIssue_threadRun hs, hu, hexch, hb]
  dsimp only
  rw [if_neg (by rintro ⟨hne, hno⟩
                 obtain h | h := hi
                 · exact hne h
                 · rw [h] at hno; cases hno), hload]
  rfl

/-- A SEND of no packed blocks, or to an injection that its phase does not own, faults. -/
theorem exec_send_fault
    (hbad : ((s.sl sl).threadRun e t).isNone = true ∨
      ((s.sl sl).exch.blocksAt (bits ((s.thread sl e t).opA w).toNat 40 0) ((s.thread sl e t).opB w).toNat).isNone = true ∨
      ∃ u : Run, (s.sl sl).threadRun e t = some u ∧ u.entry.f.injection ≠ wImm w ∧ u.entry.f.owns.contains (wImm w) = false) :
    ∃ u : State, exec (.send { on := sl } e t) s = .next u ∧ (u.thread sl e t).st = .idle ∧ bits (u.sl sl).routing.lastFault 7 0 = 4 := by
  have hexch : ((s.afterIssue sl e t id).sl sl).exch = (s.sl sl).exch := State.Agree.afterIssue (π := SliceState.exch) (fun _ _ => rfl) s sl e t id sl
  obtain ⟨hst, -, -, hl, -⟩ := State.threadFault_ends (hs.afterIssue sl e t) sl e t faultUnitArg (by decide)
  refine ⟨_, congrArg Host.Outcome.next ((State.issueThread_runs hw (opIs_eq hop) hg).trans ?_), hst, hl⟩
  dsimp only
  rw [State.afterIssue_threadRun hs, hexch]
  cases hu : (s.sl sl).threadRun e t with
  | none => rfl
  | some u =>
    cases hb : (s.sl sl).exch.blocksAt (bits ((s.thread sl e t).opA w).toNat 40 0) ((s.thread sl e t).opB w).toNat with
    | none => rfl
    | some b =>
      obtain h | h | ⟨v, hv, hne⟩ := hbad
      · rw [hu] at h; cases h
      · rw [hb] at h; cases h
      · rw [hu] at hv
        cases hv
        exact if_pos hne

end

/-- Settles O17: a SEND to an injection of the phase, by the congestion mode, and the SENDs that fault. -/
theorem exchangeSend : Obligations.ExchangeSend := by
  intro s sl e t w hs hw hg hop h x off n
  refine ⟨fun u pl lens hu hb hi => ?_, fun hbad => exec_send_fault hs hw hg hop hbad⟩
  intro qs v
  have hsend := exec_send_owned hs hw hg hop hu hb hi
  refine ⟨fun hno => hsend.trans (congrArg _ ?_), fun q rest hq hmode => hsend.trans (congrArg _ ?_)⟩
  · obtain hmode | hnil := hno
    · exact if_neg hmode
    · exact (congrArg (fun l => if s.pkg.congestionMode = 1 then v.leaveMarked sl u w l else v) hnil).trans (ite_self _)
  · exact (if_pos hmode).trans (congrArg (v.leaveMarked sl u w) hq)

end Sys2Proof.Machine
end

section
/-! SUPPORT. A record that lands, and one that is discarded. -/

namespace Sys2Proof.Machine

/-! ### A record that lands, and one that is discarded -/

/-- A discarded record is counted and changes neither memory nor flags nor any record. -/
theorem State.discard_discards {s : State} (hs : s.Inv) (sl : SliceId) (cls : Nat) :
    let t := s.discard sl cls
    (t.sl sl).exch.discarded = (s.sl sl).exch.discarded + 1 ∧ (t.sl sl).routing = (s.sl sl).routing ∧ (t.sl sl).tiers = (s.sl sl).tiers ∧
    (t.sl sl).svc = (s.sl sl).svc ∧ (t.sl sl).mem = (s.sl sl).mem ∧ (t.sl sl).flags = (s.sl sl).flags := by
  have hlen : sl.val < s.slices.length := by rw [hs.1.1]; exact sl.isLt
  have hpart : ∀ {β : Type} {π : SliceState → β}, (∀ x e, π { x with err := e } = π x) →
      π ((s.discard sl cls).sl sl) = π { s.sl sl with exch := { (s.sl sl).exch with discarded := (s.sl sl).exch.discarded + 1 } } := fun {β} {π} h => by
    unfold State.discard
    refine (State.Agree.report h sl).trans ?_
    rw [State.onSl_sl_self _ _ _ hlen]
  exact ⟨hpart (π := fun x => x.exch.discarded) fun _ _ => rfl, hpart (π := SliceState.routing) fun _ _ => rfl,
    hpart (π := SliceState.tiers) fun _ _ => rfl, hpart (π := SliceState.svc) fun _ _ => rfl, hpart (π := SliceState.mem) fun _ _ => rfl,
    hpart (π := SliceState.flags) fun _ _ => rfl⟩

/-- What the landing of a record leaves alone. -/
theorem SliceState.landRecord_agree {β : Type} {π : SliceState → β}
    (h : ∀ x m p e q f, π { x with mem := m, poison := p, engines := e, quads := q, flags := f } = π x) (x : SliceState) (bufs : List RecordBuf)
    (src : Place) (msg : Bytes) : π (x.landRecord bufs src msg) = π x := by
  unfold SliceState.landRecord
  split
  · next b _ =>
    have hstore : π (x.store b.addr msg) = π x := h x _ _ x.engines x.quads x.flags
    cases b.flag with
    | none => exact hstore
    | some f =>
      show π ((x.store b.addr msg).setFlag f) = π x
      unfold SliceState.setFlag
      split
      · exact hstore
      · exact (h (x.store b.addr msg) _ _ _ _ _).trans hstore
  · rfl

theorem SliceState.mem_setFlag (x : SliceState) (f : Nat) : f ∈ (x.setFlag f).flags := by
  unfold SliceState.setFlag
  split
  · next h => simpa using h
  · simp

theorem SliceState.setFlag_flags_subset (x : SliceState) (f : Nat) {g : Nat} (h : g ∈ x.flags) : g ∈ (x.setFlag f).flags := by
  unfold SliceState.setFlag
  split
  · exact h
  · exact List.mem_append_left _ h

/-- A landed record stands in the buffer of its source, whose presence flag is set. -/
theorem SliceState.landRecord_lands {x : SliceState} (hx : x.ok) (bufs : List RecordBuf) (src : Place) (msg : Bytes) {b : RecordBuf}
    (hb : bufs.find? (fun k => k.src == src) = some b) :
    (x.landRecord bufs src msg).load b.addr msg.length = msg ∧ ∀ f, b.flag = some f → f ∈ (x.landRecord bufs src msg).flags := by
  unfold SliceState.landRecord
  rw [hb]
  dsimp only
  cases b.flag with
  | none => exact ⟨SliceState.load_store hx.1 _ _, nofun⟩
  | some f =>
    refine ⟨?_, fun g hg => ?_⟩
    · show ((x.store b.addr msg).setFlag f).load b.addr msg.length = msg
      unfold SliceState.load
      rw [SliceState.setFlag_mem]
      exact SliceState.load_store hx.1 _ _
    · cases hg
      exact SliceState.mem_setFlag _ f

/-- A slice in which a record has landed, whatever else changed in it but its memory, with at most more flags. -/
theorem landed_of {x y : SliceState} (hx : x.ok) {bufs : List RecordBuf} {src : Place} {msg : Bytes}
    (hmem : y.mem = (x.landRecord bufs src msg).mem) (hf : ∀ f ∈ (x.landRecord bufs src msg).flags, f ∈ y.flags) :
    ∀ b, bufs.find? (fun k => k.src == src) = some b → y.load b.addr msg.length = msg ∧ ∀ f, b.flag = some f → f ∈ y.flags := by
  intro b hb
  obtain ⟨hload, hflag⟩ := SliceState.landRecord_lands hx bufs src msg hb
  refine ⟨?_, fun f h => hf f (hflag f h)⟩
  unfold SliceState.load at hload ⊢
  rw [hmem, hload]

end Sys2Proof.Machine
end

section
/-! SUPPORT. Which records land. -/

namespace Sys2Proof.Machine

/-! ### Which records land -/

/-- The descriptor that a record of a layer is judged by: that of the pass in which a stage of a role expects its tag. -/
def State.recordDesc (s : State) (sl : Nat) (role : PhaseRole) (li : LayerInfo) (h : Nat) : Nat :=
  (s.sl sl).passDesc (s.tagFrame sl role (rLayer h) (rTag h)) li.mainDesc

/-- The number of entries of the record of a place. -/
def State.recordEntries (s : State) (sl : Nat) (d : Nat) (p : Place) : Nat := (slotsAt (s.sl sl) d p).length * perSlot d

/-- A record whose header is right for its kind and its source. -/
def State.headFits (s : State) (src : Place) (h k : Nat) : Prop := rKind h = k ∧ rReservedOk h = true ∧ rSrc h = src ∧ src ∈ s.members

/-- The count record that a GRANT stage of its layer waits for. -/
def State.countFits (s : State) (sl : Nat) (src : Place) (msg : Bytes) (li : LayerInfo) : Prop :=
  let h := leNat (msg.take 16)
  let d := s.recordDesc sl .grant li h
  let n := s.recordEntries sl d (s.place sl)
  s.headFits src h 1 ∧ rOrder h = dOrder d ∧ rEntries h = n ∧ msg.length = 16 + 2 * n ∧ ((s.sl sl).expecting .grant (rLayer h) (rTag h)).isSome = true ∧
  ∀ c ∈ (s.sl sl).routing.counts, ¬ (c.layer = rLayer h ∧ c.tag = rTag h ∧ c.src = src)

/-- The grant record that an ASSIGN stage of its layer waits for. -/
def State.grantFits (s : State) (sl : Nat) (src : Place) (msg : Bytes) (li : LayerInfo) : Prop :=
  let h := leNat (msg.take 16)
  let d := s.recordDesc sl .assign li h
  let n := s.recordEntries sl d src
  s.headFits src h 2 ∧ rOrder h = dOrder d ∧ rEntries h = n ∧ msg.length = 16 + 4 * n ∧ src ∈ s.holders sl d ∧
  (∀ k ∈ entries32 msg n, bits k 31 28 = 0) ∧ ((s.sl sl).expecting .assign (rLayer h) (rTag h)).isSome = true ∧
  ∀ c ∈ (s.sl sl).routing.grants, ¬ (c.layer = rLayer h ∧ c.tag = rTag h ∧ c.src = src)

/-- The view record of the frame that has not landed. -/
def State.viewFits (s : State) (sl : Nat) (src : Place) (msg : Bytes) : Prop :=
  let h := leNat (msg.take 16)
  s.headFits src h 7 ∧ rLayer h = (s.viewLayers sl).1 ∧ rEntries h = 512 * (s.viewLayers sl).2 ∧ msg.length = 16 + ceilDiv (rEntries h) 4 ∧
  s.tagInFrame (rTag h) = true ∧ src ∉ (s.sl sl).tiers.viewLanded

/-- The pass-digest record that a pass still expects. -/
def State.digestFits (s : State) (sl : Nat) (src : Place) (msg : Bytes) : Prop :=
  let h := leNat (msg.take 16)
  s.headFits src h 8 ∧ rLayer h = 0 ∧ rEntries h = 1 ∧ msg.length = 88 ∧ (∀ b ∈ msg.drop 81, b = 0) ∧
  (∀ g ∈ ((s.sl sl).svc.passOf (s.digestFrame sl (rTag h))).digests, g.1 ≠ src) ∧ s.expectsDigest sl (rTag h) = true

theorem any_eq_false_iff {α : Type} {l : List α} {p : α → Bool} : (!l.any p) = true ↔ ∀ a ∈ l, ¬ p a = true := by simp

section
variable {s : State} {sl : Nat} {src : Place} {msg : Bytes} {li : LayerInfo}

/-- The state in which a count record has landed, before the presence of GRANT's input is judged. -/
def State.withCount (s : State) (sl : Nat) (src : Place) (msg : Bytes) (li : LayerInfo) : State :=
  let h := leNat (msg.take 16)
  s.onSl sl fun y => { y.landRecord li.countBufs src msg with routing := { y.routing with
    counts := y.routing.counts ++ [{ src := src, layer := rLayer h, tag := rTag h,
                                     entries := entries16 msg (s.recordEntries sl (s.recordDesc sl .grant li h) (s.place sl)) }] } }

theorem State.landCount_fits (hl : s.layer? sl (rLayer (leNat (msg.take 16))) = some li) (hf : s.countFits sl src msg li) :
    s.landCount sl src msg = (s.withCount sl src msg li).checkCounts sl (rLayer (leNat (msg.take 16))) (rTag (leNat (msg.take 16))) := by
  obtain ⟨⟨h1, h2, h3, h4⟩, h5, h6, h7, h8, h9⟩ := hf
  unfold State.landCount
  dsimp only
  rw [hl]
  refine if_pos ?_
  simp only [Bool.and_eq_true, beq_iff_eq, any_eq_false_iff, List.contains_iff_mem]
  exact ⟨⟨⟨⟨⟨⟨⟨⟨h1, h2⟩, h3⟩, h5⟩, h6⟩, h7⟩, h4⟩, h8⟩, fun c hc h => h9 c hc ⟨h.1.1, h.1.2, h.2⟩⟩

theorem State.landCount_discards (hl : s.layer? sl (rLayer (leNat (msg.take 16))) = some li) (hf : ¬ s.countFits sl src msg li) :
    s.landCount sl src msg = s.discard sl 0x04 := by
  unfold State.landCount
  dsimp only
  rw [hl]
  refine if_neg fun h => hf ?_
  simp only [Bool.and_eq_true, beq_iff_eq, any_eq_false_iff, List.contains_iff_mem] at h
  obtain ⟨⟨⟨⟨⟨⟨⟨⟨h1, h2⟩, h3⟩, h5⟩, h6⟩, h7⟩, h4⟩, h8⟩, h9⟩ := h
  exact ⟨⟨h1, h2, h3, h4⟩, h5, h6, h7, h8, fun c hc h => h9 c hc ⟨⟨h.1, h.2.1⟩, h.2.2⟩⟩

/-- The state in which a grant record has landed, before the presence of ASSIGN's input is judged. -/
def State.withGrant (s : State) (sl : Nat) (src : Place) (msg : Bytes) (li : LayerInfo) : State :=
  let h := leNat (msg.take 16)
  s.onSl sl fun y => { y.landRecord li.grantBufs src msg with routing := { y.routing with
    grants := y.routing.grants ++ [⟨src, rLayer h, rTag h,
      (entries32 msg (s.recordEntries sl (s.recordDesc sl .assign li h) src)).map fun e => (bits e 15 0, bits e 27 16)⟩] } }

theorem State.landGrant_fits (hl : s.layer? sl (rLayer (leNat (msg.take 16))) = some li) (hf : s.grantFits sl src msg li) :
    s.landGrant sl src msg = (s.withGrant sl src msg li).checkGrants sl (rLayer (leNat (msg.take 16))) (rTag (leNat (msg.take 16))) := by
  obtain ⟨⟨h1, h2, h3, -⟩, h5, h6, h7, h4, h10, h8, h9⟩ := hf
  unfold State.landGrant
  dsimp only
  rw [hl]
  refine if_pos ?_
  simp only [Bool.and_eq_true, beq_iff_eq, any_eq_false_iff, List.contains_iff_mem, List.all_eq_true]
  exact ⟨⟨⟨⟨⟨⟨⟨⟨⟨h1, h2⟩, h3⟩, h5⟩, h6⟩, h7⟩, h4⟩, h10⟩, h8⟩, fun c hc h => h9 c hc ⟨h.1.1, h.1.2, h.2⟩⟩

/-- A holder is a slice of the job. -/
theorem State.mem_members_of_holder {d : Nat} (h : src ∈ s.holders sl d) : src ∈ s.members := (List.mem_filter.1 h).1

theorem State.landGrant_discards (hl : s.layer? sl (rLayer (leNat (msg.take 16))) = some li) (hf : ¬ s.grantFits sl src msg li) :
    s.landGrant sl src msg = s.discard sl 0x04 := by
  unfold State.landGrant
  dsimp only
  rw [hl]
  refine if_neg fun h => hf ?_
  simp only [Bool.and_eq_true, beq_iff_eq, any_eq_false_iff, List.contains_iff_mem, List.all_eq_true] at h
  obtain ⟨⟨⟨⟨⟨⟨⟨⟨⟨h1, h2⟩, h3⟩, h5⟩, h6⟩, h7⟩, h4⟩, h10⟩, h8⟩, h9⟩ := h
  exact ⟨⟨h1, h2, h3, State.mem_members_of_holder h4⟩, h5, h6, h7, h4, h10, h8, fun c hc h => h9 c hc ⟨⟨h.1, h.2.1⟩, h.2.2⟩⟩

/-- The codes that a view record gives the slots of its slice. -/
def State.viewCodes (s : State) (sl : Nat) (src : Place) (msg : Bytes) : List ViewCode :=
  ((s.img sl).layers.map fun li =>
    (slotsAt (s.sl sl) ((s.sl sl).passDesc s.nextFrame li.mainDesc) src).map fun r =>
      let i := 512 * (li.layer - rLayer (leNat (msg.take 16))) + 64 * r.2.2.quad + r.2.2.slot
      ({ place := src, layer := li.layer, slot := r.2.2, code := ((msg.getD (16 + i / 4) 0).toNat >>> (2 * (i % 4))) % 4 } : ViewCode)).flatten

theorem State.landView_fits (hf : s.viewFits sl src msg) :
    s.landView sl src msg = s.onSl sl fun y => { y.landRecord (s.img sl).viewBufs src msg with tiers := { y.tiers with
      viewNext := y.tiers.viewNext ++ s.viewCodes sl src msg, viewLanded := y.tiers.viewLanded ++ [src] } } := by
  obtain ⟨⟨h1, h2, h3, h4⟩, h5, h6, h7, h8, h9⟩ := hf
  refine if_pos ?_
  simp only [Bool.and_eq_true, beq_iff_eq, Bool.not_eq_true', List.contains_iff_mem, ← Bool.not_eq_true]
  exact ⟨⟨⟨⟨⟨⟨⟨⟨h1, h2⟩, h3⟩, h5⟩, h6⟩, h7⟩, h4⟩, h8⟩, h9⟩

theorem State.landView_discards (hf : ¬ s.viewFits sl src msg) : s.landView sl src msg = s.discard sl 0x0A := by
  refine if_neg fun h => hf ?_
  simp only [Bool.and_eq_true, beq_iff_eq, Bool.not_eq_true', List.contains_iff_mem, ← Bool.not_eq_true] at h
  obtain ⟨⟨⟨⟨⟨⟨⟨⟨h1, h2⟩, h3⟩, h5⟩, h6⟩, h7⟩, h4⟩, h8⟩, h9⟩ := h
  exact ⟨⟨h1, h2, h3, h4⟩, h5, h6, h7, h8, h9⟩

theorem State.landPassDigest_fits (hf : s.digestFits sl src msg) :
    s.landPassDigest sl src msg = s.onSl sl fun y =>
      { y.landRecord (s.img sl).digestBufs src msg with svc := y.svc.onPass (s.digestFrame sl (rTag (leNat (msg.take 16)))) fun p =>
        { p with digests := p.digests ++ [(src, slice msg 16 64, (msg.getD 80 0).toNat)] } } := by
  obtain ⟨⟨h1, h2, h3, h4⟩, h5, h6, h7, h8, h9, h10⟩ := hf
  refine if_pos ?_
  simp only [Bool.and_eq_true, beq_iff_eq, any_eq_false_iff, List.contains_iff_mem, List.all_eq_true]
  exact ⟨⟨⟨⟨⟨⟨⟨⟨⟨h1, h2⟩, h3⟩, h5⟩, h6⟩, h7⟩, h8⟩, h4⟩, h9⟩, h10⟩

theorem State.landPassDigest_discards (hf : ¬ s.digestFits sl src msg) : s.landPassDigest sl src msg = s.discard sl 0x06 := by
  refine if_neg fun h => hf ?_
  simp only [Bool.and_eq_true, beq_iff_eq, any_eq_false_iff, List.contains_iff_mem, List.all_eq_true] at h
  obtain ⟨⟨⟨⟨⟨⟨⟨⟨⟨h1, h2⟩, h3⟩, h5⟩, h6⟩, h7⟩, h8⟩, h4⟩, h9⟩, h10⟩ := h
  exact ⟨⟨h1, h2, h3, h4⟩, h5, h6, h7, h8, h9, h10⟩

end

end Sys2Proof.Machine
end

section
/-! Count, grant, view and pass-digest records. -/

namespace Sys2Proof.Machine

/-! ### O18: count, grant, view and pass-digest records land or are discarded -/

/-- The slice after a flag that is set on a condition: its memory and records stay, no flag is lost, and where the condition holds the flag is set. -/
theorem State.setFlagIf_spec {u : State} {sl : Nat} (hlen : sl < u.slices.length) (c : Bool) (f : Nat) :
    let t := if c then u.onSl sl fun y => y.setFlag f else u
    (t.sl sl).mem = (u.sl sl).mem ∧ (t.sl sl).routing = (u.sl sl).routing ∧ (∀ g ∈ (u.sl sl).flags, g ∈ (t.sl sl).flags) ∧
    (c = true → f ∈ (t.sl sl).flags) := by
  cases c with
  | false => exact ⟨rfl, rfl, fun _ h => h, nofun⟩
  | true =>
    intro t
    have hsl : t.sl sl = (u.sl sl).setFlag f := State.onSl_sl_self _ _ _ hlen
    have hrouting : ((u.sl sl).setFlag f).routing = (u.sl sl).routing := by unfold SliceState.setFlag; split <;> rfl
    rw [hsl]
    exact ⟨SliceState.setFlag_mem _ _, hrouting, fun _ => SliceState.setFlag_flags_subset _ _, fun _ => SliceState.mem_setFlag _ _⟩

section
variable {s : State} {sl : SliceId} {src : Place} {msg : Bytes} {li : LayerInfo}

theorem State.withCount_slice (hs : s.Inv) :
    ((s.withCount sl src msg li).sl sl).mem = ((s.sl sl).landRecord li.countBufs src msg).mem ∧
    ((s.withCount sl src msg li).sl sl).flags = ((s.sl sl).landRecord li.countBufs src msg).flags ∧
    ((s.withCount sl src msg li).sl sl).fabric = (s.sl sl).fabric ∧
    ((s.withCount sl src msg li).sl sl).routing.counts = (s.sl sl).routing.counts ++ [⟨src, rLayer (leNat (msg.take 16)), rTag (leNat (msg.take 16)),
      entries16 msg (s.recordEntries sl (s.recordDesc sl .grant li (leNat (msg.take 16))) (s.place sl))⟩] := by
  have hlen : sl.val < s.slices.length := by rw [hs.1.1]; exact sl.isLt
  unfold State.withCount
  rw [State.onSl_sl_self _ _ _ hlen]
  refine ⟨rfl, rfl, SliceState.landRecord_agree (π := SliceState.fabric) (fun _ _ _ _ _ _ => rfl) _ _ _ _, rfl⟩

theorem State.withGrant_slice (hs : s.Inv) :
    ((s.withGrant sl src msg li).sl sl).mem = ((s.sl sl).landRecord li.grantBufs src msg).mem ∧
    ((s.withGrant sl src msg li).sl sl).flags = ((s.sl sl).landRecord li.grantBufs src msg).flags ∧
    ((s.withGrant sl src msg li).sl sl).runs = (s.sl sl).runs ∧
    ((s.withGrant sl src msg li).sl sl).routing = { (s.sl sl).routing with
      grants := (s.sl sl).routing.grants ++ [⟨src, rLayer (leNat (msg.take 16)), rTag (leNat (msg.take 16)),
        (entries32 msg (s.recordEntries sl (s.recordDesc sl .assign li (leNat (msg.take 16))) src)).map fun e => (bits e 15 0, bits e 27 16)⟩] } := by
  have hlen : sl.val < s.slices.length := by rw [hs.1.1]; exact sl.isLt
  unfold State.withGrant
  rw [State.onSl_sl_self _ _ _ hlen]
  refine ⟨rfl, rfl, SliceState.landRecord_agree (π := SliceState.runs) (fun _ _ _ _ _ _ => rfl) _ _ _ _, rfl⟩

/-- Which slices hold a replica is a matter of the placement table in memory. -/
theorem State.holders_congr {t u : State} {i d : Nat} (hjob : t.job = u.job) (hmem : (t.sl i).mem = (u.sl i).mem) : t.holders i d = u.holders i d := by
  have hrep : replicasOf (t.sl i) d = replicasOf (u.sl i) d := by
    unfold replicasOf placeEntry SliceState.loadNat SliceState.load
    rw [hmem]
  unfold State.holders State.members
  rw [hjob, hrep]

/-- The descriptor of the layer is the same once the record has landed. -/
theorem State.withGrant_recordDesc (hs : s.Inv) (h : Nat) : (s.withGrant sl src msg li).recordDesc sl .assign li h = s.recordDesc sl .assign li h := by
  obtain ⟨-, -, hruns, hrout⟩ := State.withGrant_slice (src := src) (msg := msg) (li := li) (sl := sl) hs
  unfold State.recordDesc State.tagFrame SliceState.expecting SliceState.passDesc SliceState.placementAt SliceState.selectTag
  rw [hruns, hrout]
  rfl

theorem State.checkCounts_spec {u : State} {l tag : Nat} (hlen : sl.val < u.slices.length) (hl : u.layer? sl l = some li) :
    let t := u.checkCounts sl l tag
    (t.sl sl).mem = (u.sl sl).mem ∧ (t.sl sl).routing = (u.sl sl).routing ∧ (∀ g ∈ (u.sl sl).flags, g ∈ (t.sl sl).flags) ∧
    ((∀ p ∈ u.members, p ∈ (u.sl sl).fabric.lost ∨ ∃ c ∈ (u.sl sl).routing.counts, c.layer = l ∧ c.tag = tag ∧ c.src = p) →
      li.countFlag ∈ (t.sl sl).flags) := by
  unfold State.checkCounts
  rw [hl]
  obtain ⟨hmem, hrout, hflags, hset⟩ := State.setFlagIf_spec hlen (u.members.all fun p =>
    (u.sl sl).fabric.lost.contains p || (u.sl sl).routing.counts.any fun c => c.layer == l && c.tag == tag && c.src == p) li.countFlag
  refine ⟨hmem, hrout, hflags, fun h => hset ?_⟩
  simpa only [List.all_eq_true, Bool.or_eq_true, List.contains_iff_mem, List.any_eq_true, Bool.and_eq_true, beq_iff_eq, and_assoc] using h

theorem State.checkGrants_spec {u : State} {l tag d : Nat} (hlen : sl.val < u.slices.length) (hl : u.layer? sl l = some li)
    (hd : (u.sl sl).passDesc (u.tagFrame sl .assign l tag) li.mainDesc = d) :
    let t := u.checkGrants sl l tag
    (t.sl sl).mem = (u.sl sl).mem ∧ (t.sl sl).routing = (u.sl sl).routing ∧ (∀ g ∈ (u.sl sl).flags, g ∈ (t.sl sl).flags) ∧
    t.job = u.job ∧
    ((∀ p ∈ u.holders sl d, ∃ c ∈ (u.sl sl).routing.grants, c.layer = l ∧ c.tag = tag ∧ c.src = p) → li.grantFlag ∈ (t.sl sl).flags) := by
  unfold State.checkGrants
  rw [hl, ← hd]
  obtain ⟨hmem, hrout, hflags, hset⟩ := State.setFlagIf_spec hlen
    ((u.holders sl ((u.sl sl).passDesc (u.tagFrame sl .assign l tag) li.mainDesc)).all fun p =>
      (u.sl sl).routing.grants.any fun c => c.layer == l && c.tag == tag && c.src == p) li.grantFlag
  refine ⟨hmem, hrout, hflags, by dsimp only; split <;> rfl, fun h => hset ?_⟩
  simpa only [List.all_eq_true, List.any_eq_true, Bool.and_eq_true, beq_iff_eq, and_assoc] using h

/-- A count record that fits joins the records of the slice; with the last source that is owed, GRANT has its input. -/
theorem State.landCount_lands (hs : s.Inv) (hl : s.layer? sl (rLayer (leNat (msg.take 16))) = some li) (hf : s.countFits sl src msg li) :
    let t := s.landCount sl src msg
    let h := leNat (msg.take 16)
    (∀ b, li.countBufs.find? (fun k => k.src == src) = some b →
      (t.sl sl).load b.addr msg.length = msg ∧ ∀ f, b.flag = some f → f ∈ (t.sl sl).flags) ∧
    (t.sl sl).routing.counts = (s.sl sl).routing.counts ++
      [⟨src, rLayer h, rTag h, entries16 msg (s.recordEntries sl (s.recordDesc sl .grant li h) (s.place sl))⟩] ∧
    ((∀ p ∈ s.members, p ∈ (s.sl sl).fabric.lost ∨ ∃ c ∈ (t.sl sl).routing.counts, c.layer = rLayer h ∧ c.tag = rTag h ∧ c.src = p) →
      li.countFlag ∈ (t.sl sl).flags) := by
  have hlen : sl.val < (s.withCount sl src msg li).slices.length := by
    unfold State.withCount; rw [State.onSl_length, hs.1.1]; exact sl.isLt
  obtain ⟨hmem, hflags, hfab, hcounts⟩ := State.withCount_slice (src := src) (msg := msg) (li := li) (sl := sl) hs
  rw [State.landCount_fits hl hf]
  obtain ⟨tmem, trout, tflags, tset⟩ := State.checkCounts_spec (tag := rTag (leNat (msg.take 16))) hlen hl
  refine ⟨landed_of (hs.1.2 _ (State.sl_mem s (hs.1.1.symm ▸ sl.isLt))) (tmem.trans hmem) fun f h => tflags f (hflags ▸ h),
    (congrArg Routing.counts trout).trans hcounts, fun h => tset ?_⟩
  rw [trout] at h
  rw [hfab]
  exact h

/-- A grant record that fits joins the records of the slice; with that of the last holder, ASSIGN has its input. -/
theorem State.landGrant_lands (hs : s.Inv) (hl : s.layer? sl (rLayer (leNat (msg.take 16))) = some li) (hf : s.grantFits sl src msg li) :
    let t := s.landGrant sl src msg
    let h := leNat (msg.take 16)
    (∀ b, li.grantBufs.find? (fun k => k.src == src) = some b →
      (t.sl sl).load b.addr msg.length = msg ∧ ∀ f, b.flag = some f → f ∈ (t.sl sl).flags) ∧
    (t.sl sl).routing.grants = (s.sl sl).routing.grants ++
      [⟨src, rLayer h, rTag h, (entries32 msg (s.recordEntries sl (s.recordDesc sl .assign li h) src)).map fun k => (bits k 15 0, bits k 27 16)⟩] ∧
    ((∀ p ∈ t.holders sl (s.recordDesc sl .assign li h), ∃ c ∈ (t.sl sl).routing.grants, c.layer = rLayer h ∧ c.tag = rTag h ∧ c.src = p) →
      li.grantFlag ∈ (t.sl sl).flags) := by
  have hlen : sl.val < (s.withGrant sl src msg li).slices.length := by
    unfold State.withGrant; rw [State.onSl_length, hs.1.1]; exact sl.isLt
  obtain ⟨hmem, hflags, -, hrout⟩ := State.withGrant_slice (src := src) (msg := msg) (li := li) (sl := sl) hs
  rw [State.landGrant_fits hl hf]
  obtain ⟨tmem, trout, tflags, tjob, tset⟩ := State.checkGrants_spec (tag := rTag (leNat (msg.take 16))) hlen hl
    (State.withGrant_recordDesc hs (leNat (msg.take 16)))
  refine ⟨landed_of (hs.1.2 _ (State.sl_mem s (hs.1.1.symm ▸ sl.isLt))) (tmem.trans hmem) fun f h => tflags f (hflags ▸ h),
    congrArg Routing.grants (trout.trans hrout), fun h => tset ?_⟩
  rw [trout, State.holders_congr tjob tmem] at h
  exact h

/-- A view record that fits joins the next view with the code of every slot of its slice. -/
theorem State.landView_lands (hs : s.Inv) (hf : s.viewFits sl src msg) :
    let t := s.landView sl src msg
    (∀ b, (s.img sl).viewBufs.find? (fun k => k.src == src) = some b →
      (t.sl sl).load b.addr msg.length = msg ∧ ∀ f, b.flag = some f → f ∈ (t.sl sl).flags) ∧
    (t.sl sl).tiers.viewLanded = (s.sl sl).tiers.viewLanded ++ [src] ∧ (t.sl sl).tiers.view = (s.sl sl).tiers.view ∧
    ∀ c ∈ s.viewCodes sl src msg, c ∈ (t.sl sl).tiers.viewNext := by
  have hlen : sl.val < s.slices.length := hs.1.1.symm ▸ sl.isLt
  rw [State.landView_fits hf]
  dsimp only
  rw [State.onSl_sl_self _ _ _ hlen]
  exact ⟨landed_of (hs.1.2 _ (State.sl_mem s hlen)) rfl fun _ h => h, rfl, rfl, fun c hc => List.mem_append_right _ hc⟩

/-- A pass-digest record that fits joins the digests of its pass. -/
theorem State.landPassDigest_lands (hs : s.Inv) (hf : s.digestFits sl src msg) :
    let t := s.landPassDigest sl src msg
    (∀ b, (s.img sl).digestBufs.find? (fun k => k.src == src) = some b →
      (t.sl sl).load b.addr msg.length = msg ∧ ∀ f, b.flag = some f → f ∈ (t.sl sl).flags) ∧
    (t.sl sl).svc = (s.sl sl).svc.onPass (s.digestFrame sl (rTag (leNat (msg.take 16)))) fun p =>
      { p with digests := p.digests ++ [(src, slice msg 16 64, (msg.getD 80 0).toNat)] } := by
  have hlen : sl.val < s.slices.length := hs.1.1.symm ▸ sl.isLt
  rw [State.landPassDigest_fits hf]
  dsimp only
  rw [State.onSl_sl_self _ _ _ hlen]
  exact ⟨landed_of (hs.1.2 _ (State.sl_mem s hlen)) rfl fun _ h => h, rfl⟩

theorem State.landRecord_no_layer (h : s.layer? sl (rLayer (leNat (msg.take 16))) = none) :
    s.landCount sl src msg = s.discard sl 0x06 ∧ s.landGrant sl src msg = s.discard sl 0x06 := by
  unfold State.landCount State.landGrant
  dsimp only
  rw [h]
  exact ⟨rfl, rfl⟩

end

/-- Settles O18: a record that fits lands, and any other of the four kinds is discarded, as the equations of the four landings say. -/
theorem recordsLand : Obligations.RecordsLand := by
  unfold Obligations.RecordsLand
  intro s sl src msg hs h x head landed discards dc da n m isCount isGrant isView isDigest
  have hdis : ∀ {i : Instr} {t : State} (cls : Nat), exec i s = .next t → t = s.discard sl cls → discards i := fun cls he ht =>
    ⟨_, he, ht ▸ State.discard_discards hs sl cls⟩
  refine ⟨fun hl => ⟨hdis 0x06 rfl (State.landRecord_no_layer hl).1, hdis 0x06 rfl (State.landRecord_no_layer hl).2⟩,
    fun li hl => ⟨fun hf => ⟨_, rfl, State.landCount_lands hs hl hf⟩, fun hf => hdis 0x04 rfl (State.landCount_discards hl hf),
      fun hf => ⟨_, rfl, State.landGrant_lands hs hl hf⟩, fun hf => hdis 0x04 rfl (State.landGrant_discards hl hf)⟩,
    fun hf => ?_, fun hf => hdis 0x0A rfl (State.landView_discards hf),
    fun hf => ⟨_, rfl, State.landPassDigest_lands hs hf⟩, fun hf => hdis 0x06 rfl (State.landPassDigest_discards hf)⟩
  obtain ⟨hland, hlanded, hview, hcodes⟩ := State.landView_lands hs hf
  refine ⟨_, rfl, hland, hlanded, hview, fun li hli r hr => hcodes _ ?_⟩
  exact List.mem_flatten.2 ⟨_, List.mem_map.2 ⟨li, hli, rfl⟩, List.mem_map.2 ⟨r, hr, rfl⟩⟩

end Sys2Proof.Machine
end

section
/-! A panel whose CHECKSUM overwrites its buffer. -/

namespace Sys2Proof.Machine

/-- The state that an outcome answers. -/
def Out.after : Out → State
  | .next u => u
  | _ => State.reset

theorem Out.after_next {i : Instr} {s u : State} (h : exec i s = .next u) : Out.after (exec i s) = u := by rw [h]; rfl

/-! ### A router panel whose CHECKSUM puts the row map over the panel buffer -/

/-- A layer of 64 experts and width 0, so that its one panel has the 32 bytes of its checks alone. -/
def panelWitnessLayer : LayerInfo := { layer := 0, mainDesc := 64, sqzDesc := 64 }

/-- A request that has a condition and whose row is still valid. -/
def panelWitnessRequest : Request :=
  { slot := 0, rows := 1, firstRow := 0, frame := 0, deadline := 0, conds := [⟨0, 0, .fault, 0xFF⟩]
    cmd := { slot := 0, kind := 0, ctx := 0, tag := 0, words := [], ledgerIndex := 0, acceptDrip := 0 } }

/-- The row map of slice 0 stands at the first panel buffer of engine 0, and the panel in memory fails its checks. -/
def panelWitness : State :=
  { State.reset.onSl 0 fun x =>
      { x with
        mem := [(0, 1)]
        svc := { x.svc with reqs := [panelWitnessRequest], rowmap := [{ valid := true }], rowmapBase := engineAddr 0 0 } } with
    job := some { slices := [{ layers := [panelWitnessLayer] }] } }

theorem panelWitness_inv : panelWitness.Inv := by
  have h := (State.Keeps.onSl State.reset 0 (f := fun x => { x with
      mem := [(0, 1)]
      svc := { x.svc with reqs := [panelWitnessRequest], rowmap := [{ valid := true }], rowmapBase := engineAddr 0 0 } })
    fun x hx => ⟨rfl, hx.2⟩).2 resetInv.1
  exact h

theorem panelWitness_lands :
    ((Out.after (exec (.panelLanded { on := 0 } 0 0 0) panelWitness)).sl (0 : SliceId)).load (engineAddr (0 : EngineId) 0) 32 = zeros 32 := by
  decide +kernel

/-- Refutes O19: the CHECKSUM of a bad panel settles a request that has ended before it, and the row map that is written then lies over the
panel buffer, which does not hold the bytes of the panel. -/
theorem not_panelsAndLookahead : ¬ Obligations.PanelsAndLookahead := by
  intro h
  obtain ⟨-, -, hland, -⟩ := h panelWitness 0 panelWitnessLayer 0 panelWitness_inv (by decide)
  obtain ⟨hidle, -⟩ := hland 0 0 { layer := 0, pass := none, look := false, frame := 0, next := 0 } (by decide) rfl (by decide) (by decide)
  obtain ⟨t, ht, -, -, hload, -⟩ := hidle (by decide)
  have hzero := panelWitness_lands
  rw [Out.after_next ht] at hzero
  have hne : zeros 32 ≠ (panelWitness.sl 0).load (panelAddr panelWitnessLayer.mainDesc 0) (panelBytes panelWitnessLayer.mainDesc) := by
    decide +kernel
  exact hne (hzero.symm.trans hload)

end Sys2Proof.Machine
end

section
/-! SUPPORT. Sections of the exchange receiver. -/

namespace Sys2Proof.Machine

/-! ### A change of one slice -/

theorem OnlySlice.onSl (s : State) {i : Nat} (f : SliceState → SliceState) : OnlySlice s (s.onSl i f) i :=
  ⟨rfl, fun _ hj => State.onSl_sl_of_ne _ _ hj⟩

/-! ### What the landing of a row and the setting of a flag leave alone -/

theorem foldl_agree {σ α β : Type} {π : σ → β} {f : σ → α → σ} (h : ∀ x a, π (f x a) = π x) (l : List α) (x : σ) : π (l.foldl f x) = π x := by
  induction l generalizing x with
  | nil => rfl
  | cons a l ih => exact (ih _).trans (h x a)

theorem SliceState.landRow_agree {β : Type} {π : SliceState → β} (h : ∀ x m p, π { x with mem := m, poison := p } = π x) (x : SliceState)
    (l : Nat) (r : Option SlotRef) (rb n : Nat) (b : Bytes) : π (x.landRow l r rb n b) = π x := by
  unfold SliceState.landRow
  split
  · exact h x _ _
  · rfl

theorem SliceState.setFlag_agree {β : Type} {π : SliceState → β} (h : ∀ x e q f, π { x with engines := e, quads := q, flags := f } = π x)
    (x : SliceState) (f : Nat) : π (x.setFlag f) = π x := by
  unfold SliceState.setFlag
  split
  · rfl
  · exact h x _ _ _

theorem SliceState.setFlag?_agree {β : Type} {π : SliceState → β} (h : ∀ x e q f, π { x with engines := e, quads := q, flags := f } = π x)
    (x : SliceState) (f : Option Nat) : π (x.setFlag? f) = π x := by
  cases f with
  | none => rfl
  | some f => exact SliceState.setFlag_agree h x f

/-! ### Sections of the exchange receiver -/

theorem Section.is_iff {c : Section} {ret : Bool} {l : Nat} {p : Place} {r : SlotRef} :
    c.is ret l p r = true ↔ c.isReturn = ret ∧ c.layer = l ∧ c.peer = p ∧ c.slot = r := by
  unfold Section.is
  simp only [Bool.and_eq_true, beq_iff_eq, and_assoc]

/-- The note of a landed block leaves the name of its section. -/
theorem Section.account_is {c c' : Section} {h : BlockHeader} (ha : c.account h = some c') (ret : Bool) (l : Nat) (p : Place) (r : SlotRef) :
    c'.is ret l p r = c.is ret l p r := by
  unfold Section.account at ha
  dsimp only at ha
  split at ha
  · cases ha; rfl
  · split at ha
    · cases ha
    · split at ha
      · split at ha
        · cases ha; rfl
        · cases ha
      · cases ha; rfl

/-- After a change of the sections that a predicate picks, one is either changed or was there and is not picked. -/
theorem SliceState.mem_onSections {x : SliceState} {p : Section → Bool} {f : Section → Section} {k : Section} :
    k ∈ (x.onSections p f).exch.sections ↔ (∃ c ∈ x.exch.sections, p c = true ∧ k = f c) ∨ (k ∈ x.exch.sections ∧ ¬ p k = true) := by
  show k ∈ x.exch.sections.map _ ↔ _
  simp only [List.mem_map]
  constructor
  · rintro ⟨c, hc, rfl⟩
    by_cases hp : p c = true
    · exact .inl ⟨c, hc, hp, if_pos hp⟩
    · rw [if_neg hp]
      exact .inr ⟨hc, hp⟩
  · rintro (⟨c, hc, hp, rfl⟩ | ⟨hk, hp⟩)
    · exact ⟨c, hc, if_pos hp⟩
    · exact ⟨k, hk, if_neg hp⟩

section
variable {s : State} {sl : Nat} {li : LayerInfo}

/-- A slot of which a section is not complete has no input yet. -/
theorem State.checkSlot_incomplete {r : SlotRef} {c : Section} (hc : c ∈ (s.sl sl).exch.sections) (hd : c.isReturn = false) (hl : c.layer = li.layer)
    (hr : c.slot = r) (hi : c.complete = false) : s.checkSlot sl li r = s := by
  refine if_pos ?_
  simp only [Bool.or_eq_true, Bool.not_eq_true', List.all_eq_false]
  exact .inr ⟨c, List.mem_filter.2 ⟨hc, by simp [hd, hl, hr]⟩, by simp [hi]⟩

/-- The judgement of a slot's input leaves the records of the exchange receiver. -/
theorem State.checkSlot_exch (r : SlotRef) : State.Agree SliceState.exch s (s.checkSlot sl li r) := by
  unfold State.checkSlot
  refine .ite (.refl _) (.onSl fun x => ?_)
  refine (SliceState.setFlag?_agree (π := SliceState.exch) (fun _ _ _ _ => rfl) _ _).trans ?_
  exact foldl_agree (fun _ _ => SliceState.landRow_agree (π := SliceState.exch) (fun _ _ _ => rfl) _ _ _ _ _ _) _ _

/-- With every section of a slot complete its input is present. -/
theorem State.checkSlot_complete (hlen : sl < s.slices.length) {r : SlotRef} {c : Section} (hc : c ∈ (s.sl sl).exch.sections)
    (hd : c.isReturn = false) (hl : c.layer = li.layer) (hr : c.slot = r)
    (hall : ∀ k ∈ (s.sl sl).exch.sections, k.isReturn = false → k.layer = li.layer → k.slot = r → k.complete = true)
    {f : SlotRef × Nat} (hf : li.dispatchFlags.find? (fun k => k.1 == r) = some f) : f.2 ∈ ((s.checkSlot sl li r).sl sl).flags := by
  unfold State.checkSlot
  dsimp only
  rw [if_neg, State.onSl_sl_self _ _ _ hlen, hf]
  · exact SliceState.mem_setFlag _ _
  · simp only [Bool.or_eq_true, Bool.not_eq_true', List.all_eq_false, List.mem_filter, Bool.and_eq_true, beq_iff_eq, not_or, List.isEmpty_iff,
      not_exists, not_and, Classical.not_not]
    exact ⟨List.ne_nil_of_mem (List.mem_filter.2 ⟨hc, by simp [hd, hl, hr]⟩), fun k hk => hall k hk.1 hk.2.1.1 hk.2.1.2 hk.2.2⟩

theorem State.checkReturns_incomplete {c : Section} (hc : c ∈ (s.sl sl).exch.sections) (hd : c.isReturn = true) (hl : c.layer = li.layer)
    (hi : c.complete = false) : s.checkReturns sl li = s := by
  refine if_neg ?_
  simp only [List.all_eq_true, not_forall]
  exact ⟨c, List.mem_filter.2 ⟨hc, by simp [hd, hl]⟩, by simp [hi]⟩

theorem State.checkReturns_exch : State.Agree SliceState.exch s (s.checkReturns sl li) := by
  unfold State.checkReturns
  exact .ite (.onSl fun x => SliceState.setFlag_agree (π := SliceState.exch) (fun _ _ _ _ => rfl) _ _) (.refl _)

theorem State.checkReturns_complete (hlen : sl < s.slices.length)
    (hall : ∀ k ∈ (s.sl sl).exch.sections, k.isReturn = true → k.layer = li.layer → k.complete = true) :
    li.returnFlag ∈ ((s.checkReturns sl li).sl sl).flags := by
  unfold State.checkReturns
  dsimp only
  rw [if_pos, State.onSl_sl_self _ _ _ hlen]
  · exact SliceState.mem_setFlag _ _
  · simp only [List.all_eq_true, List.mem_filter, Bool.and_eq_true, beq_iff_eq]
    exact fun k hk => hall k hk.1 hk.2.1 hk.2.2

/-- Marking a token adds its mark to the records of the receiver, and changes nothing else of them. -/
theorem State.markToken_exch (hlen : sl < s.slices.length) (l t st : Nat) :
    ((s.markToken sl l t st).sl sl).exch = { (s.sl sl).exch with marks := (s.sl sl).exch.marks ++ [(l, t, st)] } := by
  unfold State.markToken State.endNext
  refine (State.Agree.endReqs (π := SliceState.exch) (fun _ _ _ _ => rfl) sl).trans ?_
  rw [State.onSl_sl_self _ _ _ hlen]

theorem State.markTokens_exch {α : Type} (l st : Nat) (row : α → Nat) (ks : List α) (s : State) (hlen : sl < s.slices.length) :
    ((ks.foldl (fun v k => v.markToken sl l (row k) st) s).sl sl).exch =
      { (s.sl sl).exch with marks := (s.sl sl).exch.marks ++ ks.map fun k => (l, row k, st) } := by
  induction ks generalizing s with
  | nil => simp
  | cons k ks ih =>
    have hlen' : sl < (s.markToken sl l (row k) st).slices.length := by
      unfold State.markToken State.endNext State.endReqs
      simpa using hlen
    rw [List.foldl_cons, ih _ hlen', State.markToken_exch hlen]
    simp

end

end Sys2Proof.Machine
end

section
/-! Exchange blocks and the return list. -/

namespace Sys2Proof.Machine

/-! ### O20: exchange blocks land, and the return list is written -/

/-- The header of an exchange block. -/
def msgHeader (msg : Bytes) : BlockHeader := blockHeader (leNat (msg.take 64))

section
variable {s : State} {sl : SliceId} {msg : Bytes} {li : LayerInfo} {c c' : Section} {rows : List Bytes}

/-- What the header of a block of either kind must be for its section. -/
def State.headsFit (s : State) (sl : Nat) (msg : Bytes) (c : Section) : Prop :=
  64 ≤ msg.length ∧ headerReserved (leNat (msg.take 64)) = true ∧ (s.sl sl).selectTag s.frame (msgHeader msg).layer = some (msgHeader msg).tag ∧
  blockFits c (msgHeader msg) = true

/-- A DISPATCH block that its section may take. -/
def State.dispatchFits (s : State) (sl : Nat) (msg : Bytes) (li : LayerInfo) (c : Section) : Prop :=
  s.headsFit sl msg c ∧ (msgHeader msg).kind = 4 ∧ (msgHeader msg).exp = s.place sl ∧ (msgHeader msg).status = 0 ∧
  (msgHeader msg).fmt = dHiddenFmt li.mainDesc ∧ (msgHeader msg).rowBytes = rowBytes (dHiddenFmt li.mainDesc) (dWidth li.mainDesc)

/-- A RETURN block that its section may take. -/
def State.returnFits (s : State) (sl : Nat) (msg : Bytes) (li : LayerInfo) (c : Section) : Prop :=
  s.headsFit sl msg c ∧ (msgHeader msg).kind = 5 ∧ (msgHeader msg).home = s.place sl ∧ (msgHeader msg).fmt = li.returnFmt ∧
  (msgHeader msg).rowBytes = rowBytes (rowFmt li.returnFmt) (dWidth li.mainDesc)

/-- The rows of a block, or none where its CRC or its lengths are wrong. -/
def msgRows (msg : Bytes) : Option (List Bytes) := blockData (msg.take 64) (msgHeader msg) (msg.drop 64)

/-- The rows of a DISPATCH block stand at the landing positions of their capacity rows. -/
def SliceState.landDispatchRows (y : SliceState) (h : BlockHeader) (rows : List Bytes) : SliceState :=
  (h.rows.zip rows).foldl (fun v r => v.landRow h.layer (some h.slot) h.rowBytes r.1 r.2) y

/-- The choices that a home sent to a capacity row. -/
def SliceState.returnChoices (x : SliceState) (h : BlockHeader) (r : Nat) : List Choice :=
  (x.sectionChoices h.layer h.exp h.slot).filter fun k => k.capRow == r

/-- The rows of a RETURN block stand at the landing positions of the token and rank of each choice. -/
def SliceState.landReturnRows (y : SliceState) (choices : Nat → List Choice) (k : Nat) (h : BlockHeader) (rows : List Bytes) : SliceState :=
  (h.rows.zip rows).foldl (fun v r => (choices r.1).foldl (fun w c => w.landRow h.layer none h.rowBytes (c.row * k + c.rank) r.2) v) y

theorem SliceState.landDispatchRows_exch (y : SliceState) (h : BlockHeader) (rows : List Bytes) : (y.landDispatchRows h rows).exch = y.exch :=
  foldl_agree (fun _ _ => SliceState.landRow_agree (π := SliceState.exch) (fun _ _ _ => rfl) _ _ _ _ _ _) _ _

theorem SliceState.landReturnRows_exch (y : SliceState) (choices : Nat → List Choice) (k : Nat) (h : BlockHeader) (rows : List Bytes) :
    (y.landReturnRows choices k h rows).exch = y.exch :=
  foldl_agree (fun _ _ => foldl_agree (π := SliceState.exch) (fun _ _ => SliceState.landRow_agree (π := SliceState.exch) (fun _ _ _ => rfl) _ _ _ _ _ _) _ _) _ _

/-- The section of a block that has been found is the one its header names. -/
theorem section_found {l : List Section} {ret : Bool} {n : Nat} {p : Place} {r : SlotRef} (h : l.find? (fun k => k.is ret n p r) = some c) :
    c ∈ l ∧ c.isReturn = ret ∧ c.layer = n ∧ c.peer = p ∧ c.slot = r :=
  ⟨List.mem_of_find?_eq_some h, Section.is_iff.1 (List.find?_some (p := fun k : Section => k.is ret n p r) h)⟩

theorem State.layer?_layer {l : Nat} (h : s.layer? sl l = some li) : li.layer = l := by
  have := List.find?_some (p := fun i : LayerInfo => i.layer == l) h
  simpa using this

section
variable (hl : s.layer? sl (msgHeader msg).layer = some li)
  (hc : (s.sl sl).exch.sections.find? (fun k => k.is false (msgHeader msg).layer (msgHeader msg).home (msgHeader msg).slot) = some c)
include hl hc

theorem State.landDispatch_discards (hf : ¬ s.dispatchFits sl msg li c) : s.landDispatch sl msg = s.discardBlock sl := by
  unfold State.landDispatch
  unfold msgHeader at hl hc
  dsimp only
  rw [hl, hc]
  refine if_pos (Classical.not_not.1 fun h => hf ?_)
  simp only [Bool.or_eq_true, bne_iff_ne, Bool.not_eq_true', decide_eq_true_eq, not_or, ne_eq, Classical.not_not, Nat.not_lt, Bool.not_eq_false] at h
  obtain ⟨⟨⟨⟨⟨⟨⟨⟨h1, h2⟩, h3⟩, h4⟩, h5⟩, h6⟩, h7⟩, h8⟩, h9⟩ := h
  exact ⟨⟨h1, h3, h4, h9⟩, h2, h5, h6, h7, h8⟩

theorem State.landDispatch_lands (hf : s.dispatchFits sl msg li c) : s.landDispatch sl msg =
    match msgRows msg with
    | none => s.failSection sl li c (msgHeader msg).rowBytes
    | some rows =>
      match c.account (msgHeader msg) with
      | none => (s.onSl sl fun y => y.landDispatchRows (msgHeader msg) rows).discardBlock sl
      | some c' => (s.onSl sl fun y => (y.landDispatchRows (msgHeader msg) rows).onSections
          (fun k => k.is false (msgHeader msg).layer (msgHeader msg).home (msgHeader msg).slot) fun _ => c').checkSlot sl li (msgHeader msg).slot := by
  obtain ⟨⟨h1, h3, h4, h9⟩, h2, h5, h6, h7, h8⟩ := hf
  unfold State.landDispatch SliceState.landDispatchRows
  unfold msgHeader at hl hc
  dsimp only
  rw [hl, hc, h8]
  refine (if_neg ?_).trans ?_
  · simp only [Bool.or_eq_true, bne_iff_ne, Bool.not_eq_true', decide_eq_true_eq, not_or, ne_eq, Classical.not_not, Nat.not_lt, Bool.not_eq_false]
    exact ⟨⟨⟨⟨⟨⟨⟨⟨h1, h2⟩, h3⟩, h4⟩, h5⟩, h6⟩, h7⟩, h8⟩, h9⟩
  · show (match msgRows msg with | none => _ | some rows => _) = _
    cases msgRows msg with
    | none => rfl
    | some rows =>
      show (match c.account (msgHeader msg) with | none => _ | some c' => _) = _
      cases c.account (msgHeader msg) with
      | none => rfl
      | some c' => exact congrArg (fun t => State.checkSlot t sl li (msgHeader msg).slot) (State.onSl_onSl _ _ _ _)

end

section
variable (hl : s.layer? sl (msgHeader msg).layer = some li)
  (hc : (s.sl sl).exch.sections.find? (fun k => k.is true (msgHeader msg).layer (msgHeader msg).exp (msgHeader msg).slot) = some c)
include hl hc

theorem State.landReturn_discards (hf : ¬ s.returnFits sl msg li c) : s.landReturn sl msg = s.discardBlock sl := by
  unfold State.landReturn
  unfold msgHeader at hl hc
  dsimp only
  rw [hl, hc]
  refine if_pos (Classical.not_not.1 fun h => hf ?_)
  simp only [Bool.or_eq_true, bne_iff_ne, Bool.not_eq_true', decide_eq_true_eq, not_or, ne_eq, Classical.not_not, Nat.not_lt, Bool.not_eq_false] at h
  obtain ⟨⟨⟨⟨⟨⟨⟨h1, h2⟩, h3⟩, h4⟩, h5⟩, h7⟩, h8⟩, h9⟩ := h
  exact ⟨⟨h1, h3, h4, h9⟩, h2, h5, h7, h8⟩

theorem State.landReturn_lands (hf : s.returnFits sl msg li c) : s.landReturn sl msg =
    match msgRows msg with
    | none => s.failSection sl li c (msgHeader msg).rowBytes
    | some rows =>
      let t := s.onSl sl fun y => y.landReturnRows ((s.sl sl).returnChoices (msgHeader msg)) (dK li.mainDesc) (msgHeader msg) rows
      match c.account (msgHeader msg) with
      | none => t.discardBlock sl
      | some c' =>
        let u := if (msgHeader msg).status = 0 || s.legacyStatus (msgHeader msg).status then t
          else (((msgHeader msg).rows.take (msgHeader msg).count).map ((s.sl sl).returnChoices (msgHeader msg))).flatten.foldl
            (fun v k => v.markToken sl (msgHeader msg).layer k.row (msgHeader msg).status) t
        (u.onSl sl fun y => y.onSections (fun k => k.is true (msgHeader msg).layer (msgHeader msg).exp (msgHeader msg).slot) fun _ =>
          { c' with status := if (msgHeader msg).status = 0 then c'.status else some (msgHeader msg).status }).checkReturns sl li := by
  obtain ⟨⟨h1, h3, h4, h9⟩, h2, h5, h7, h8⟩ := hf
  unfold State.landReturn SliceState.landReturnRows
  unfold msgHeader at hl hc
  dsimp only
  rw [hl, hc, h8]
  refine (if_neg ?_).trans rfl
  simp only [Bool.or_eq_true, bne_iff_ne, Bool.not_eq_true', decide_eq_true_eq, not_or, ne_eq, Classical.not_not, Nat.not_lt, Bool.not_eq_false]
  exact ⟨⟨⟨⟨⟨⟨⟨h1, h2⟩, h3⟩, h4⟩, h5⟩, h7⟩, h8⟩, h9⟩

end

theorem State.discard_exch (hlen : sl.val < s.slices.length) (cls : Nat) :
    ((s.discard sl cls).sl sl).exch = { (s.sl sl).exch with discarded := (s.sl sl).exch.discarded + 1 } := by
  unfold State.discard
  refine (State.Agree.report (π := SliceState.exch) (fun _ _ => rfl) sl).trans ?_
  rw [State.onSl_sl_self _ _ _ hlen]

/-- A block that is discarded after its rows may have landed is counted, and the sections stay. -/
theorem State.discardBlock_of {t : State} (hlen : sl.val < t.slices.length) (h : (t.sl sl).exch = (s.sl sl).exch) :
    ((t.discardBlock sl).sl sl).exch.discarded = (s.sl sl).exch.discarded + 1 ∧ ((t.discardBlock sl).sl sl).exch.sections = (s.sl sl).exch.sections := by
  unfold State.discardBlock
  rw [State.discard_exch hlen, h]
  exact ⟨rfl, rfl⟩

/-- The slice once the rows of a failed section are zeroed and the section is complete with CHECKSUM. -/
def SliceState.failRows (x : SliceState) (li : LayerInfo) (c : Section) (rb : Nat) : SliceState :=
  let pos : List Nat := if c.isReturn then (x.sectionChoices li.layer c.peer c.slot).map fun k => k.row * dK li.mainDesc + k.rank else c.rows
  let y := pos.foldl (fun v n => v.landRow li.layer (if c.isReturn then none else some c.slot) rb n (zeros rb)) x
  let z := y.onSections (fun k => k.is c.isReturn li.layer c.peer c.slot) fun k => { k with complete := true, status := some 0x13 }
  { z with exch := { z.exch with checksumBlocks := z.exch.checksumBlocks + 1 } }

theorem SliceState.failRows_exch (x : SliceState) (rb : Nat) :
    (∀ k ∈ x.exch.sections, k.is c.isReturn li.layer c.peer c.slot = true →
      { k with complete := true, status := some 0x13 } ∈ (x.failRows li c rb).exch.sections) ∧
    (x.failRows li c rb).exch.checksumBlocks = x.exch.checksumBlocks + 1 := by
  have hrows : ∀ (pos : List Nat) (r : Option SlotRef),
      (pos.foldl (fun v n => v.landRow li.layer r rb n (zeros rb)) x).exch = x.exch := fun pos r =>
    foldl_agree (π := SliceState.exch) (fun _ _ => SliceState.landRow_agree (π := SliceState.exch) (fun _ _ _ => rfl) _ _ _ _ _ _) _ _
  unfold SliceState.failRows
  refine ⟨fun k hk hp => SliceState.mem_onSections.2 (.inl ⟨k, ?_, hp, rfl⟩), ?_⟩
  · rw [hrows]; exact hk
  · have hcount := congrArg (fun e : Exchange => e.checksumBlocks + 1) (hrows (if c.isReturn then
      (x.sectionChoices li.layer c.peer c.slot).map fun k => k.row * dK li.mainDesc + k.rank else c.rows) (if c.isReturn then none else some c.slot))
    exact hcount

theorem State.failSection_eq (rb : Nat) : s.failSection sl li c rb =
    let s2 := (s.onSl sl fun x => x.failRows li c rb).report sl (mkReport 0x06 0 0 0x13)
    if c.isReturn then
      (((s2.sl sl).sectionChoices li.layer c.peer c.slot).foldl (fun v k => v.markToken sl li.layer k.row 0x13) s2).checkReturns sl li
    else s2.checkSlot sl li c.slot := rfl

/-- A section that fails is complete with CHECKSUM and is counted. -/
theorem State.failSection_fails (hlen : sl.val < s.slices.length) {ret : Bool} {n : Nat} {p : Place} {r : SlotRef} (hn : li.layer = n)
    (hc : (s.sl sl).exch.sections.find? (fun k => k.is ret n p r) = some c) (rb : Nat) :
    let t := s.failSection sl li c rb
    (∃ k ∈ (t.sl sl).exch.sections, k.is ret n p r = true ∧ k.complete = true ∧ k.status = some 0x13) ∧
    (t.sl sl).exch.checksumBlocks = (s.sl sl).exch.checksumBlocks + 1 := by
  obtain ⟨hmem, rfl, hlay, rfl, rfl⟩ := section_found hc
  subst hn
  have hfail : ((s.onSl sl fun x => x.failRows li c rb).sl sl).exch = ((s.sl sl).failRows li c rb).exch := by
    rw [State.onSl_sl_self _ _ _ hlen]
  obtain ⟨hsec, hcount⟩ := SliceState.failRows_exch (li := li) (c := c) (s.sl sl) rb
  have hrep : (((s.onSl sl fun x => x.failRows li c rb).report sl (mkReport 0x06 0 0 0x13)).sl sl).exch = ((s.sl sl).failRows li c rb).exch :=
    (State.Agree.report (π := SliceState.exch) (fun _ _ => rfl) sl).trans hfail
  have hend : ((s.failSection sl li c rb).sl sl).exch.sections = ((s.sl sl).failRows li c rb).exch.sections ∧
      ((s.failSection sl li c rb).sl sl).exch.checksumBlocks = ((s.sl sl).failRows li c rb).exch.checksumBlocks := by
    rw [State.failSection_eq]
    have hsections := congrArg Exchange.sections hrep
    have hblocks := congrArg Exchange.checksumBlocks hrep
    dsimp only
    split
    · rw [State.checkReturns_exch sl, State.markTokens_exch _ _ _ _ _ (by unfold State.report; simpa using hlen)]
      exact ⟨hsections, hblocks⟩
    · rw [State.checkSlot_exch _ sl]
      exact ⟨hsections, hblocks⟩
  exact ⟨⟨{ c with complete := true, status := some 0x13 }, hend.1 ▸ hsec c hmem (Section.is_iff.2 ⟨rfl, hlay, rfl, rfl⟩), Section.is_iff.2 ⟨rfl, hlay, rfl, rfl⟩, rfl, rfl⟩,
    hend.2.trans hcount⟩

/-- The last block of a section makes the input of its slot present where the other sections of the slot are complete. -/
theorem State.dispatch_completes (hlen : sl.val < s.slices.length) {h : BlockHeader} (hn : li.layer = h.layer)
    (hc : (s.sl sl).exch.sections.find? (fun k => k.is false h.layer h.home h.slot) = some c) (ha : c.account h = some c') (hd : c'.complete = true)
    (hrest : ∀ k ∈ (s.sl sl).exch.sections, k.isReturn = false → k.layer = h.layer → k.slot = h.slot → k.peer ≠ h.home → k.complete = true)
    (rows : List Bytes) :
    let t := (s.onSl sl fun y => (y.landDispatchRows h rows).onSections (fun k => k.is false h.layer h.home h.slot) fun _ => c').checkSlot sl li h.slot
    c' ∈ (t.sl sl).exch.sections ∧ ∀ f, li.dispatchFlags.find? (fun k => k.1 == h.slot) = some f → f.2 ∈ (t.sl sl).flags := by
  obtain ⟨hmem, -⟩ := section_found hc
  obtain ⟨hret, hlay, -, hslot⟩ := Section.is_iff.1 ((Section.account_is ha _ _ _ _).trans (List.find?_some (p := fun k : Section => k.is false h.layer h.home h.slot) hc))
  have hsl : ((s.onSl sl fun y => (y.landDispatchRows h rows).onSections (fun k => k.is false h.layer h.home h.slot) fun _ => c').sl sl) =
      ((s.sl sl).landDispatchRows h rows).onSections (fun k => k.is false h.layer h.home h.slot) fun _ => c' := State.onSl_sl_self _ _ _ hlen
  have hin : c' ∈ (((s.sl sl).landDispatchRows h rows).onSections (fun k => k.is false h.layer h.home h.slot) fun _ => c').exch.sections := by
    refine SliceState.mem_onSections.2 (.inl ⟨c, ?_, List.find?_some (p := fun k : Section => k.is false h.layer h.home h.slot) hc, rfl⟩)
    rw [SliceState.landDispatchRows_exch]
    exact hmem
  refine ⟨by rw [State.checkSlot_exch _ sl, hsl]; exact hin, fun f hf => ?_⟩
  refine State.checkSlot_complete (by simpa using hlen) (hsl.symm ▸ hin) hret (hlay.trans hn.symm) hslot (fun k hk h1 h2 h3 => ?_) hf
  rw [hsl] at hk
  obtain ⟨_, _, _, rfl⟩ | ⟨hk, hnot⟩ := SliceState.mem_onSections.1 hk
  · exact hd
  · rw [SliceState.landDispatchRows_exch] at hk
    exact hrest k hk h1 (h2.trans hn) h3 fun h4 => hnot (Section.is_iff.2 ⟨h1, h2.trans hn, h4, h3⟩)

/-- A DISPATCH block that does not complete its section lands its rows and is noted. -/
theorem State.dispatch_goes_on (hlen : sl.val < s.slices.length) {h : BlockHeader} (hn : li.layer = h.layer)
    (hc : (s.sl sl).exch.sections.find? (fun k => k.is false h.layer h.home h.slot) = some c) (ha : c.account h = some c') (hd : c'.complete = false)
    (rows : List Bytes) :
    let t := s.onSl sl fun y => (y.landDispatchRows h rows).onSections (fun k => k.is false h.layer h.home h.slot) fun _ => c'
    t.checkSlot sl li h.slot = t := by
  obtain ⟨hmem, -⟩ := section_found hc
  obtain ⟨hret, hlay, -, hslot⟩ := Section.is_iff.1 ((Section.account_is ha _ _ _ _).trans (List.find?_some (p := fun k : Section => k.is false h.layer h.home h.slot) hc))
  refine State.checkSlot_incomplete ?_ hret (hlay.trans hn.symm) hslot hd
  rw [State.onSl_sl_self _ _ _ hlen]
  refine SliceState.mem_onSections.2 (.inl ⟨c, ?_, List.find?_some (p := fun k : Section => k.is false h.layer h.home h.slot) hc, rfl⟩)
  rw [SliceState.landDispatchRows_exch]
  exact hmem

section
variable {u : State} {h : BlockHeader} {q : Section} (hlen : sl.val < u.slices.length)
  (hin : ∃ k ∈ (u.sl sl).exch.sections, k.is true h.layer h.exp h.slot = true) 
include hlen hin

theorem State.mem_returnSections : q ∈ ((u.onSl sl fun y => y.onSections (fun k => k.is true h.layer h.exp h.slot) fun _ => q).sl sl).exch.sections := by
  obtain ⟨k, hk, hp⟩ := hin
  rw [State.onSl_sl_self _ _ _ hlen]
  exact SliceState.mem_onSections.2 (.inl ⟨k, hk, hp, rfl⟩)

/-- The judgement of the return input leaves the section that a RETURN block was noted in, and the marks. -/
theorem State.return_notes :
    let t := (u.onSl sl fun y => y.onSections (fun k => k.is true h.layer h.exp h.slot) fun _ => q).checkReturns sl li
    q ∈ (t.sl sl).exch.sections ∧ (t.sl sl).exch.marks = (u.sl sl).exch.marks := by
  dsimp only
  rw [State.checkReturns_exch sl]
  exact ⟨State.mem_returnSections hlen hin, by rw [State.onSl_sl_self _ _ _ hlen]; rfl⟩

theorem State.return_goes_on (hq : q.is true h.layer h.exp h.slot = true) (hn : li.layer = h.layer) (hd : q.complete = false) :
    let t := u.onSl sl fun y => y.onSections (fun k => k.is true h.layer h.exp h.slot) fun _ => q
    t.checkReturns sl li = t := by
  obtain ⟨hret, hlay, -⟩ := Section.is_iff.1 hq
  exact State.checkReturns_incomplete (State.mem_returnSections hlen hin) hret (hlay.trans hn.symm) hd

omit hin in
theorem State.return_completes (hn : li.layer = h.layer) (hd : q.complete = true)
    (hrest : ∀ k ∈ (u.sl sl).exch.sections, k.isReturn = true → k.layer = h.layer → k.is true h.layer h.exp h.slot = false → k.complete = true) :
    li.returnFlag ∈ (((u.onSl sl fun y => y.onSections (fun k => k.is true h.layer h.exp h.slot) fun _ => q).checkReturns sl li).sl sl).flags := by
  refine State.checkReturns_complete (by simpa using hlen) fun k hk h1 h2 => ?_
  rw [State.onSl_sl_self _ _ _ hlen] at hk
  obtain ⟨_, _, _, rfl⟩ | ⟨hk, hnot⟩ := SliceState.mem_onSections.1 hk
  · exact hd
  · exact hrest k hk h1 (h2.trans hn) (Bool.eq_false_iff.2 hnot)

end

/-- The rows of a RETURN block have landed; a status that is no tier drop has marked the tokens. -/
def State.returnMarked (s : State) (sl : Nat) (h : BlockHeader) (li : LayerInfo) (rows : List Bytes) : State :=
  let t := s.onSl sl fun y => y.landReturnRows ((s.sl sl).returnChoices h) (dK li.mainDesc) h rows
  if h.status = 0 || s.legacyStatus h.status then t
  else ((h.rows.take h.count).map ((s.sl sl).returnChoices h)).flatten.foldl (fun v k => v.markToken sl h.layer k.row h.status) t

/-- A section in which a RETURN block is noted, with the status that the block brings. -/
def Section.withStatus (c : Section) (h : BlockHeader) : Section := { c with status := if h.status = 0 then c.status else some h.status }

theorem State.returnMarked_exch (hlen : sl.val < s.slices.length) (h : BlockHeader) :
    ((s.returnMarked sl h li rows).sl sl).exch.sections = (s.sl sl).exch.sections ∧
    (h.status ≠ 0 → s.legacyStatus h.status = false → ∀ r ∈ h.rows.take h.count, ∀ k ∈ (s.sl sl).returnChoices h r,
      (h.layer, k.row, h.status) ∈ ((s.returnMarked sl h li rows).sl sl).exch.marks) := by
  have hrows : ((s.onSl sl fun y => y.landReturnRows ((s.sl sl).returnChoices h) (dK li.mainDesc) h rows).sl sl).exch = (s.sl sl).exch := by
    rw [State.onSl_sl_self _ _ _ hlen, SliceState.landReturnRows_exch]
  unfold State.returnMarked
  dsimp only
  split
  · next hcond =>
    refine ⟨congrArg Exchange.sections hrows, fun h0 hleg => ?_⟩
    simp [h0, hleg] at hcond
  · rw [State.markTokens_exch _ _ _ _ _ (by simpa using hlen)]
    have hsections := congrArg Exchange.sections hrows
    refine ⟨hsections, fun _ _ r hr k hk => List.mem_append_right _ (List.mem_map.2 ⟨k, ?_, rfl⟩)⟩
    exact List.mem_flatten.2 ⟨_, List.mem_map.2 ⟨r, hr, rfl⟩, hk⟩

theorem State.returnMarked_length (h : BlockHeader) : (s.returnMarked sl h li rows).slices.length = s.slices.length := by
  have hmark : ∀ (ks : List Choice) (t : State), (ks.foldl (fun v k => v.markToken sl h.layer k.row h.status) t).slices.length = t.slices.length :=
    fun ks t => foldl_agree (π := fun v : State => v.slices.length) (fun v k => by
      unfold State.markToken State.endNext State.endReqs
      simp) ks t
  unfold State.returnMarked
  dsimp only
  split
  · simp
  · simp [hmark]

/-- A block that no section expects is discarded. -/
theorem State.landBlock_unexpected :
    ((∀ k ∈ (s.sl sl).exch.sections, k.is false (msgHeader msg).layer (msgHeader msg).home (msgHeader msg).slot = false) →
      s.landDispatch sl msg = s.discardBlock sl) ∧
    ((∀ k ∈ (s.sl sl).exch.sections, k.is true (msgHeader msg).layer (msgHeader msg).exp (msgHeader msg).slot = false) →
      s.landReturn sl msg = s.discardBlock sl) := by
  unfold msgHeader
  constructor
  · intro h
    have hnone : (s.sl sl).exch.sections.find? (fun c => c.is false (blockHeader (leNat (msg.take 64))).layer
        (blockHeader (leNat (msg.take 64))).home (blockHeader (leNat (msg.take 64))).slot) = none :=
      List.find?_eq_none.2 fun k hk => Bool.eq_false_iff.1 (h k hk)
    unfold State.landDispatch
    dsimp only
    rw [hnone]
    cases s.layer? sl _ <;> rfl
  · intro h
    have hnone : (s.sl sl).exch.sections.find? (fun c => c.is true (blockHeader (leNat (msg.take 64))).layer
        (blockHeader (leNat (msg.take 64))).exp (blockHeader (leNat (msg.take 64))).slot) = none :=
      List.find?_eq_none.2 fun k hk => Bool.eq_false_iff.1 (h k hk)
    unfold State.landReturn
    dsimp only
    rw [hnone]
    cases s.layer? sl _ <;> rfl

/-- Bytes stored at one local address of every engine stand there. -/
theorem SliceState.load_storeEngines (L : Nat) (b : Bytes) (hb : L + b.length ≤ 0x1000000) (e : Nat) (es : List Nat) {x : SliceState} (hx : x.mem.wf = true)
    (h : e ∈ es ∨ x.load (engineAddr e L) b.length = b) :
    (es.foldl (fun v g => v.store (engineAddr g L) b) x).load (engineAddr e L) b.length = b := by
  induction es generalizing x with
  | nil => exact h.resolve_left (List.not_mem_nil)
  | cons g es ih =>
    refine ih (Memory.wf_writeBytes hx _ _) ?_
    obtain rfl | hne := eq_or_ne g e
    · exact .inr (SliceState.load_store hx _ _)
    · refine h.imp (fun h => (List.mem_cons.1 h).resolve_left (Ne.symm hne)) fun h => ?_
      rw [SliceState.load_store_outside hx, h]
      unfold engineAddr
      omega

/-- The slice once the return list of a layer is written with the rows of one more slot. -/
def SliceState.writeReturnList (x : SliceState) (li : LayerInfo) (layer : Nat) (r : SlotRef) : SliceState :=
  let y := { x with exch := { x.exch with
    returnLists := (x.exch.returnLists.filter fun k => !(k.1 == layer && k.2.1 == r)) ++ [(layer, r, [])] } }
  (List.range 4).foldl (fun v e => v.store (engineAddr e li.returnLocal) (y.returnList layer)) y

theorem SliceState.writeReturnList_spec {x : SliceState} (hx : x.mem.wf = true) (layer : Nat) (r : SlotRef) :
    let y := x.writeReturnList li layer r
    (layer, r, []) ∈ y.exch.returnLists ∧ y.exch.sections = x.exch.sections ∧
    (li.returnLocal + (y.returnList layer).length ≤ 0x1000000 → ∀ e : EngineId,
      y.load (engineAddr e li.returnLocal) (y.returnList layer).length = y.returnList layer) := by
  intro y
  have hexch : y.exch = { x.exch with
      returnLists := (x.exch.returnLists.filter fun k => !(k.1 == layer && k.2.1 == r)) ++ [(layer, r, [])] } :=
    foldl_agree (π := SliceState.exch) (f := fun v e => v.store (engineAddr e li.returnLocal) _) (fun _ _ => rfl) (List.range 4) _
  have hlist : y.returnList layer = SliceState.returnList { x with exch := y.exch } layer := rfl
  refine ⟨by rw [hexch]; simp, by rw [hexch], fun hb e => ?_⟩
  rw [hlist, hexch] at hb ⊢
  exact SliceState.load_storeEngines _ _ hb _ _ hx (.inl (List.mem_range.2 e.isLt))

theorem returnListWrite_writes {layer : Nat} {r : SlotRef} (hl : s.layer? sl layer = some li)
    (hsome : ∃ k ∈ (s.sl sl).exch.sections, k.isReturn = false ∧ k.layer = layer ∧ k.slot = r)
    (hall : ∀ k ∈ (s.sl sl).exch.sections, k.isReturn = false → k.layer = layer → k.slot = r → k.complete = true) :
    exec (.returnListWrite sl layer r) s = .next (s.onSl sl fun x => x.writeReturnList li layer r) := by
  show execReturnListWrite sl layer r s = _
  unfold execReturnListWrite
  rw [hl]
  refine if_neg ?_
  obtain ⟨k, hk, h1, h2, h3⟩ := hsome
  simp only [Bool.or_eq_true, Bool.not_eq_true', List.all_eq_false, List.mem_filter, Bool.and_eq_true, beq_iff_eq, not_or, List.isEmpty_iff,
    not_exists, not_and, Classical.not_not]
  exact ⟨List.ne_nil_of_mem (List.mem_filter.2 ⟨hk, by simp [h1, h2, h3]⟩), fun k hk => hall k hk.1 hk.2.1.1 hk.2.1.2 hk.2.2⟩

end

/-- Settles O20: what the receiver does with a block goes by what its header, its data and its section are. -/
theorem exchangeBlocks : Obligations.ExchangeBlocks := by
  unfold Obligations.ExchangeBlocks
  intro s sl src msg hs x n h discards fails data heads
  have hlen : sl.val < s.slices.length := hs.1.1.symm ▸ sl.isLt
  have hsame : (s.discardBlock sl |>.sl sl).exch.discarded = (s.sl sl).exch.discarded + 1 ∧
    (s.discardBlock sl |>.sl sl).exch.sections = (s.sl sl).exch.sections := State.discardBlock_of hlen rfl
  refine ⟨fun li c hl hc => ?_, fun li c hl hc => ?_, ?_, fun li layer r hl hsome hall => ?_⟩
  · intro fits rowsIn
    have hn : li.layer = h.layer := State.layer?_layer hl
    refine ⟨fun hf c' rows hrows hacc => ⟨fun hd => ?_, fun hd hrest => ?_⟩, fun hf hrows hacc => ?_, fun hf hrows => ?_, fun hf => ?_⟩
    · have hland := State.landDispatch_lands hl hc hf
      rw [show msgRows msg = some rows from hrows, show c.account (msgHeader msg) = some c' from hacc] at hland
      exact congrArg Host.Outcome.next (hland.trans (State.dispatch_goes_on hlen hn hc hacc hd rows))
    · have hland := State.landDispatch_lands hl hc hf
      rw [show msgRows msg = some rows from hrows, show c.account (msgHeader msg) = some c' from hacc] at hland
      exact ⟨_, congrArg Host.Outcome.next hland, State.dispatch_completes hlen hn hc hacc hd hrest rows⟩
    · obtain ⟨rows, hrows⟩ := Option.isSome_iff_exists.1 hrows
      have hland := State.landDispatch_lands hl hc hf
      rw [show msgRows msg = some rows from hrows, show c.account (msgHeader msg) = none from hacc] at hland
      refine ⟨_, congrArg Host.Outcome.next hland, State.discardBlock_of (by simpa using hlen) ?_⟩
      rw [State.onSl_sl_self _ _ _ hlen, SliceState.landDispatchRows_exch]
    · have hland := State.landDispatch_lands hl hc hf
      rw [show msgRows msg = none from hrows] at hland
      exact ⟨_, congrArg Host.Outcome.next hland, State.failSection_fails hlen hn hc _⟩
    · exact ⟨_, congrArg Host.Outcome.next (State.landDispatch_discards hl hc hf), hsame⟩
  · intro fits mine
    have hn : li.layer = h.layer := State.layer?_layer hl
    have hin : ∀ rows, ∃ k ∈ ((s.returnMarked sl h li rows).sl sl).exch.sections, k.is true h.layer h.exp h.slot = true := fun rows => by
      rw [(State.returnMarked_exch hlen h).1]
      exact ⟨c, List.mem_of_find?_eq_some hc, List.find?_some (p := fun k : Section => k.is true h.layer h.exp h.slot) hc⟩
    have hlen' : ∀ rows, sl.val < (s.returnMarked sl h li rows).slices.length := fun rows => by rw [State.returnMarked_length]; exact hlen
    refine ⟨fun hf c' rows hrows hacc => ?_, fun hf hrows hacc => ?_, fun hf hrows => ?_, fun hf => ?_⟩
    · have hland := State.landReturn_lands hl hc hf
      rw [show msgRows msg = some rows from hrows, show c.account (msgHeader msg) = some c' from hacc] at hland
      have hland : exec (.returnBlock sl src msg) s = .next (((s.returnMarked sl h li rows).onSl sl fun y =>
        y.onSections (fun k => k.is true h.layer h.exp h.slot) fun _ => c'.withStatus h).checkReturns sl li) := congrArg Host.Outcome.next hland
      have hq : (c'.withStatus h).is true h.layer h.exp h.slot = true :=
        (Section.account_is hacc _ _ _ _).trans (List.find?_some (p := fun k : Section => k.is true h.layer h.exp h.slot) hc)
      refine ⟨fun h0 hd => ?_, fun hd hrest => ⟨_, hland, ?_⟩, fun h0 hleg => ⟨_, hland, ?_⟩⟩
      · refine hland.trans (congrArg Host.Outcome.next ((State.return_goes_on (hlen' rows) (hin rows) hq hn hd).trans ?_))
        unfold State.returnMarked Section.withStatus
        dsimp only
        rw [h0]
        exact State.onSl_onSl _ _ _ _
      · refine State.return_completes (hlen' rows) hn hd ?_
        rw [(State.returnMarked_exch hlen h).1]
        exact hrest
      · obtain ⟨hnote, hmarks⟩ := State.return_notes (sl := sl) (li := li) (q := c'.withStatus h) (hlen' rows) (hin rows)
        refine ⟨?_, fun r hr k hk => ?_⟩
        · have hst : c'.withStatus h = { c' with status := some h.status } := by unfold Section.withStatus; rw [if_neg h0]
          exact hst ▸ hnote
        · rw [hmarks]
          exact (State.returnMarked_exch hlen h).2 h0 hleg r hr k hk
    · obtain ⟨rows, hrows⟩ := Option.isSome_iff_exists.1 hrows
      have hland := State.landReturn_lands hl hc hf
      rw [show msgRows msg = some rows from hrows, show c.account (msgHeader msg) = none from hacc] at hland
      refine ⟨_, congrArg Host.Outcome.next hland, State.discardBlock_of (by simpa using hlen) ?_⟩
      rw [State.onSl_sl_self _ _ _ hlen, SliceState.landReturnRows_exch]
    · have hland := State.landReturn_lands hl hc hf
      rw [show msgRows msg = none from hrows] at hland
      exact ⟨_, congrArg Host.Outcome.next hland, State.failSection_fails hlen hn hc _⟩
    · exact ⟨_, congrArg Host.Outcome.next (State.landReturn_discards hl hc hf), hsame⟩
  · obtain ⟨hdisp, hret⟩ := State.landBlock_unexpected (s := s) (sl := sl) (msg := msg)
    intro c hc hno
    obtain rfl | rfl : c = _ ∨ c = _ := by simpa using hc
    · exact ⟨_, congrArg Host.Outcome.next (hdisp hno), hsame⟩
    · exact ⟨_, congrArg Host.Outcome.next (hret hno), hsame⟩
  · refine ⟨_, returnListWrite_writes hl hsome hall, OnlySlice.onSl s _, ?_⟩
    rw [State.onSl_sl_self _ _ _ hlen]
    exact SliceState.writeReturnList_spec (hs.1.2 _ (State.sl_mem s hlen)).1 layer r

end Sys2Proof.Machine
end

section
/-! A combine whose FAULT writes memory. -/

namespace Sys2Proof.Machine

/-! ### A combine with a bad descriptor beside a request whose ending has not been settled -/

/-- The COMBINE phase that the witness runs. -/
def combineWitnessRun : Run :=
  { idx := 0, frame := 0, st := .launched, begun := true
    entry := { kind := .combine, unit := .engine 0, launch := 0, duration := 1, due := 0, inputs := [], f := { first := 0, threads := 1 } } }

/-- The slice of the witness: the combine unit of engine 0 is in use over a descriptor of zeros, and a request has a condition while its row
is still valid. -/
def combineWitnessSlice (x : SliceState) : SliceState :=
  { x with
    runs := [combineWitnessRun]
    engines := x.engines.modify 0 fun g => { g with busy := [(.combine, 64)] }
    svc := { x.svc with reqs := [panelWitnessRequest], rowmap := [{ valid := true, pos := 1 }] } }

def combineWitness : State := State.reset.onSl 0 combineWitnessSlice

theorem combineWitness_inv : combineWitness.Inv := by
  refine (State.Keeps.onSl State.reset 0 fun x h => ?_).2 resetInv.1
  obtain ⟨hm, he, hq, hl⟩ := h
  exact ⟨hm, ⟨by simpa [combineWitnessSlice] using he.1, forall_mem_modify 0 he.2 fun g hg => hg⟩, hq, hl⟩

/-- Ending the requests tied to the phase writes the row map. -/
theorem combineWitness_writes : ((Out.after (exec (.combineComplete { on := 0 } 0) combineWitness)).sl (0 : SliceId)).mem ≠ [] := by
  decide +kernel

/-- Refutes O21: with a bad descriptor the FAULT of the tied requests settles a request that has ended before it, and the row map is written
to memory. -/
theorem not_combinePhase : ¬ Obligations.CombinePhase := by
  intro h
  obtain ⟨-, -, hdone⟩ := h combineWitness 0 0 combineWitness_inv
  obtain ⟨t, ht, -, -, -, hbad⟩ := hdone combineWitnessRun 0 (by decide) rfl (by decide)
  have hmem := (hbad (fun hfit => absurd hfit.1 (by decide +kernel))).1
  refine combineWitness_writes ?_
  rw [Out.after_next ht, hmem]
  decide

end Sys2Proof.Machine
end

section
/-! SUPPORT. A quad and its program counter. -/

namespace Sys2Proof.Machine

/-! ### A quad and its program counter -/

/-- A change of one element of a list matters only by what it makes of that element. -/
theorem List.modify_congr_getD {α : Type} {l : List α} {i : Nat} {d : α} {f g : α → α} (h : f (l.getD i d) = g (l.getD i d)) :
    l.modify i f = l.modify i g := by
  obtain hi | hi := Nat.lt_or_ge i l.length
  · rw [List.getD_eq_getElem _ _ hi] at h
    apply List.ext_getElem (by simp)
    intro n h1 h2
    simp only [List.getElem_modify]
    split
    · next hin => subst hin; exact h
    · rfl
  · rw [List.modify_eq_self hi, List.modify_eq_self hi]

theorem SliceState.onQuad_onQuad (x : SliceState) (q : Nat) (f g : Quad → Quad) : (x.onQuad q f).onQuad q g = x.onQuad q (g ∘ f) := by
  simp [SliceState.onQuad, List.modify_modify_eq]

theorem SliceState.onQuad_congr {x : SliceState} {q : Nat} {f g : Quad → Quad} (h : f (x.quad q) = g (x.quad q)) : x.onQuad q f = x.onQuad q g := by
  unfold SliceState.onQuad
  rw [List.modify_congr_getD h]

theorem State.onQuad_congr {s : State} {sl q : Nat} {f g : Quad → Quad} (h : f (s.quad sl q) = g (s.quad sl q)) : s.onQuad sl q f = s.onQuad sl q g :=
  State.onSl_congr (SliceState.onQuad_congr h)

theorem State.onQuad_onQuad (s : State) (sl q : Nat) (f g : Quad → Quad) : (s.onQuad sl q f).onQuad sl q g = s.onQuad sl q (g ∘ f) := by
  unfold State.onQuad
  rw [State.onSl_onSl]
  exact congrArg _ (funext fun x => SliceState.onQuad_onQuad x q f g)

theorem SliceState.quad_onQuad {x : SliceState} (q : QuadId) (hx : x.ok) (f : Quad → Quad) : (x.onQuad q f).quad q = f (x.quad q) := by
  have hq : q.val < x.quads.length := hx.2.2.1.1.symm ▸ q.isLt
  simp [SliceState.quad, SliceState.onQuad, List.getD, hq]

theorem State.quad_onQuad {s : State} (hs : s.Inv) (sl : SliceId) (q : QuadId) (f : Quad → Quad) : (s.onQuad sl q f).quad sl q = f (s.quad sl q) := by
  unfold State.quad State.onQuad
  rw [State.onSl_sl_self _ _ _ (hs.1.1.symm ▸ sl.isLt)]
  exact SliceState.quad_onQuad q (hs.sl sl.isLt) f

/-- Going to a word changes the program counter and the loops alone. -/
theorem Quad.wrap_agree {β : Type} {π : Quad → β} (h : ∀ k p l, π { k with pc := p, loops := l } = π k) (n : Nat) (k : Quad) : π (k.wrap n) = π k := by
  induction n generalizing k with
  | zero => rfl
  | succ n ih =>
    unfold Quad.wrap
    split
    · rfl
    · split
      · rfl
      · split
        · exact h k _ _
        · exact (ih _).trans (h k k.pc _)

theorem Quad.goTo_agree {β : Type} {π : Quad → β} (h : ∀ k p l, π { k with pc := p, loops := l } = π k) (k : Quad) (p : Nat) : π (k.goTo p) = π k :=
  (Quad.wrap_agree h _ _).trans (h k p k.loops)

/-- Outside every loop the next word is the next one. -/
theorem Quad.goTo_of_no_loop {k : Quad} (h : k.loops = []) (p : Nat) : k.goTo p = { k with pc := p } := by
  unfold Quad.goTo Quad.wrap
  dsimp only
  rw [h]

/-- At the end of a loop's body with passes left the next word is the first of the body. -/
theorem Quad.goTo_of_loop_end {k : Quad} {f : LoopFrame} {r : List LoopFrame} {p : Nat} (h : k.loops = f :: r) (hstop : f.stop = p) (hleft : 1 < f.left) :
    k.goTo p = { k with pc := f.first, loops := { f with left := f.left - 1 } :: r } := by
  unfold Quad.goTo Quad.wrap
  dsimp only
  rw [h]
  dsimp only
  rw [if_neg (not_not.2 hstop.symm), if_pos hleft]

/-! ### The issue of a quad program word -/

section
variable {s : State} {sl : SliceId} {q : QuadId} {w : Nat}

theorem State.issueQuad_faults (hrun : (s.quad sl q).st = .running) (hpc : 8191 < (s.quad sl q).pc) (code : Nat) (body : State → Quad → Nat → State) :
    s.issueQuad sl q code body = s.segmentFault sl q none (s.quad sl q).pc qfPcBounds := by
  unfold State.issueQuad
  dsimp only
  rw [if_neg (not_not.2 hrun), if_pos hpc]

theorem State.onQuad_afterWord (f : Quad → Quad) : (s.afterWord sl q id).onQuad sl q f = s.afterWord sl q f :=
  State.onQuad_onQuad s sl q _ f

theorem State.afterWord_quad (hs : s.Inv) (f : Quad → Quad) : (s.afterWord sl q f).quad sl q = f ((s.quad sl q).goTo ((s.quad sl q).pc + 1)) :=
  State.quad_onQuad hs sl q _

/-- A part of the slices that does not depend on the quads is after a word as before. -/
theorem State.Agree.afterWord {β : Type} {π : SliceState → β} (h : ∀ x k, π { x with quads := k } = π x) (f : Quad → Quad) :
    State.Agree π s (s.afterWord sl q f) := .onSl fun x => h x _

theorem State.Inv.afterWord (hs : s.Inv) : (s.afterWord sl q id).Inv := (State.Keeps.onQuad s sl q fun _ hk => hk.goTo _).2 hs

/-- A quad's run is one of the slice that names the run which the quad holds. -/
theorem State.afterWord_quadRun (hs : s.Inv) : ((s.afterWord sl q id).sl sl).quadRun q = (s.sl sl).quadRun q := by
  have hrun : (((s.afterWord sl q id).sl sl).quad q).run = ((s.sl sl).quad q).run :=
    (congrArg Quad.run (State.afterWord_quad hs id)).trans (Quad.goTo_agree (π := Quad.run) (fun _ _ _ => rfl) _ _)
  unfold SliceState.quadRun
  rw [hrun, State.Agree.afterWord (π := SliceState.runs) (fun _ _ => rfl) id sl]

end

end Sys2Proof.Machine
end

section
/-! SUPPORT. A segment that ends with a fault. -/

namespace Sys2Proof.Machine

/-! ### A segment that ends with a fault -/

theorem SliceState.quad_onQuad_agree {β : Type} {π : Quad → β} {f : Quad → Quad} (h : ∀ k, π (f k) = π k) (x : SliceState) (q j : Nat) :
    π ((x.onQuad q f).quad j) = π (x.quad j) := by
  unfold SliceState.quad SliceState.onQuad
  simp only [List.getD_eq_getElem?_getD, List.getElem?_modify]
  cases x.quads[j]? with
  | none => rfl
  | some k =>
    simp only [Option.getD_some]
    split
    · exact h k
    · rfl

/-- A part of a slice that the marking of a slot leaves alone. -/
theorem SliceState.markSlot_agree {β : Type} {π : SliceState → β} (h : ∀ x e, π { x with exch := e } = π x) (x : SliceState) (l : Nat) (r : SlotRef)
    (c : Nat) : π (x.markSlot l r c) = π x := h x _

theorem SliceState.stopSegment_spec {x : SliceState} (hx : x.ok) (q : QuadId) :
    ((x.stopSegment q).quad q).st = .idle ∧ (x.stopSegment q).arr = x.arr ∧
    ∀ r, x.quadRun q = some r →
      (x.stopSegment q).runs = x.runs.map fun v => if v.idx = r.idx ∧ v.frame = r.frame then { v with stopped := true } else v := by
  have hidle : ((x.onQuad q fun k => { k with st := .idle, loops := [] }).quad q).st = .idle := congrArg Quad.st (SliceState.quad_onQuad q hx _)
  unfold SliceState.stopSegment
  dsimp only
  generalize x.quadRun q = o
  cases o with
  | none => exact ⟨hidle, rfl, fun _ h => (Option.some_ne_none _ h.symm).elim⟩
  | some u =>
    refine ⟨hidle, rfl, fun r h => ?_⟩
    obtain rfl := Option.some.inj h
    refine List.map_congr_left fun v _ => ?_
    simp only [Bool.and_eq_true, beq_iff_eq]

/-- The state of a segment that faults, before its segment is stopped: the fault is counted, the undrained slots are poisoned, and the slots or
the requests that the segment serves are told. -/
def State.segmentFaulted (s : State) (sl q : Nat) (a : Option Nat) (pc code : Nat) : State :=
  let x := s.sl sl
  let k := x.quad q
  let t := s.quadFault sl q a pc code
  let undrained := k.arrays.any fun y => y.slots.any (·.dirty)
  let t1 := t.onQuad sl q fun k =>
    k.onSlots fun z => if z.dirty then { z with poison := some Status.fault.code, dirty := false } else z
  match x.quadRun q with
    | none => t1
    | some u =>
      let l := u.entry.f.layer.getD 0
      let rest : List (Nat × SlotRef) :=
        (u.entry.f.slots.filter fun (r : SlotRef) => !(r.quad == q && k.reached.contains r.slot)).map fun r => (l, r)
      let cur : List (Nat × SlotRef) := match k.cur with
        | some c => if undrained then [(c.1, ({ quad := q, slot := c.2 } : SlotRef))] else []
        | none => []
      if u.entry.ctx < 255 || u.entry.f.slots.isEmpty then t1.faultStage sl u .fault
      else t1.onSl sl fun y => (rest ++ cur).foldl (fun (z : SliceState) (r : Nat × SlotRef) => z.markSlot r.1 r.2 Status.fault.code) y

section
variable {s : State} {sl : SliceId} {q : QuadId} {a : Option Nat} {pc code : Nat}

theorem State.segmentFault_eq : s.segmentFault sl q a pc code = (s.segmentFaulted sl q a pc code).onSl sl fun y => y.stopSegment q := rfl

/-- What a segment that faults leaves alone before it stops. -/
theorem State.Agree.segmentFaulted {β : Type} {π : SliceState → β} (hq : ∀ x, π (x.onQuad q fun k =>
      k.onSlots fun z => if z.dirty then { z with poison := some Status.fault.code, dirty := false } else z) = π x)
    (h : ∀ x v m p e, π { x with svc := v, mem := m, poison := p, exch := e } = π x) :
    State.Agree π (s.quadFault sl q a pc code) (s.segmentFaulted sl q a pc code) := by
  have h1 : State.Agree π (s.quadFault sl q a pc code) ((s.quadFault sl q a pc code).onQuad sl q fun k =>
      k.onSlots fun z => if z.dirty then { z with poison := some Status.fault.code, dirty := false } else z) := .onSl hq
  unfold State.segmentFaulted
  dsimp only
  split
  · exact h1
  · refine .ite (.comp (.faultStage fun x v m p => h x v m p x.exch) h1) (.comp (.onSl fun x => ?_) h1)
    exact foldl_agree (fun x _ => SliceState.markSlot_agree (fun x e => h x x.svc x.mem x.poison e) x _ _ _) _ _

theorem State.Agree.quadFault {β : Type} {π : SliceState → β} (h : ∀ x e r, π { x with err := e, arr := r } = π x) :
    State.Agree π s (s.quadFault sl q a pc code) := by
  unfold State.quadFault
  exact .comp (.onSl fun x => h x x.err _) (.report fun x e => h x e x.arr)

theorem State.Keeps.segmentFaulted (s : State) (sl : SliceId) (q : QuadId) (a : Option Nat) (pc code : Nat) :
    s.Keeps (s.segmentFaulted sl q a pc code) := by
  have h1 : s.Keeps ((s.quadFault sl q a pc code).onQuad sl q fun k =>
      k.onSlots fun z => if z.dirty then { z with poison := some Status.fault.code, dirty := false } else z) :=
    .comp (.onQuad _ _ _ fun _ hk => .onSlots hk ..) (.quadFault ..)
  unfold State.segmentFaulted
  dsimp only
  split
  · exact h1
  · exact .comp (.ite (.faultStage ..) (.onSl _ _ fun _ h => .foldl (fun _ _ h => .markSlot h ..) _ h)) h1

theorem bits_quadFaultWord (code q a pc drip : Nat) (h : code < 256) : bits (quadFaultWord code q a pc drip) 7 0 = code := by
  unfold quadFaultWord field bits
  simp only [Nat.shiftLeft_eq, Nat.shiftRight_zero]
  omega

/-- A quad fault is counted, and its code is kept. -/
theorem State.quadFault_counts (hs : s.Inv) :
    ((s.quadFault sl q a pc code).sl sl).arr.quadFaults = (s.sl sl).arr.quadFaults + 1 ∧
    (code < 256 → bits ((s.quadFault sl q a pc code).sl sl).arr.quadLastFault 7 0 = code) := by
  have harr : ∀ r, State.Agree SliceState.arr s (s.report sl r) := fun r => .report fun _ _ => rfl
  unfold State.quadFault
  dsimp only
  rw [State.onSl_sl_self]
  · exact ⟨congrArg (fun r : ArrayCounters => r.quadFaults + 1) (harr _ sl), fun h => bits_quadFaultWord _ _ _ _ _ h⟩
  · unfold State.report
    rw [State.onSl_length]
    exact hs.1.1.symm ▸ sl.isLt

/-- A segment that faults ends, and the fault is counted and kept. -/
theorem State.segmentFault_ends (hs : s.Inv) (hc : code < 256) :
    let t := s.segmentFault sl q a pc code
    s.SegmentEnds t sl q code ∧ ∀ r, (s.sl sl).quadRun q = some r →
      (t.sl sl).runs = (s.sl sl).runs.map fun v => if v.idx = r.idx ∧ v.frame = r.frame then { v with stopped := true } else v := by
  intro t
  have hok : ((s.segmentFaulted sl q a pc code).sl sl).ok := ((State.Keeps.segmentFaulted s sl q a pc code).2 hs).sl sl.isLt
  have hlen : sl.val < (s.segmentFaulted sl q a pc code).slices.length := ((State.Keeps.segmentFaulted s sl q a pc code).2 hs).1.1.symm ▸ sl.isLt
  have ht : t.sl sl = ((s.segmentFaulted sl q a pc code).sl sl).stopSegment q := by
    show (State.sl (State.segmentFault ..) _) = _
    rw [State.segmentFault_eq, State.onSl_sl_self _ _ _ hlen]
  obtain ⟨hidle, harr, hruns⟩ := SliceState.stopSegment_spec hok q
  have hrun : ((s.segmentFaulted sl q a pc code).sl sl).quadRun q = (s.sl sl).quadRun q := by
    have h1 : State.Agree (fun x => (x.quad q).run) s (s.segmentFaulted sl q a pc code) :=
      .comp (.segmentFaulted (fun x => SliceState.quad_onQuad_agree (π := Quad.run) (f := fun k => k.onSlots _) (fun _ => rfl) x q q) fun _ _ _ _ _ => rfl)
        (.quadFault fun _ _ _ => rfl)
    have h2 : State.Agree SliceState.runs s (s.segmentFaulted sl q a pc code) :=
      .comp (.segmentFaulted (fun _ => rfl) fun _ _ _ _ _ => rfl) (.quadFault fun _ _ _ => rfl)
    have h1 := h1 sl
    unfold SliceState.quadRun
    rw [h2 sl, show (((s.segmentFaulted sl q a pc code).sl sl).quad q).run = _ from h1]
  have hfault : State.Agree SliceState.arr (s.quadFault sl q a pc code) (s.segmentFaulted sl q a pc code) :=
    .segmentFaulted (fun _ => rfl) fun _ _ _ _ _ => rfl
  have hcount := State.quadFault_counts hs (sl := sl) (q := q) (a := a) (pc := pc) (code := code)
  have hrunsEq : State.Agree SliceState.runs s (s.segmentFaulted sl q a pc code) :=
    .comp (.segmentFaulted (fun _ => rfl) fun _ _ _ _ _ => rfl) (.quadFault fun _ _ _ => rfl)
  refine ⟨⟨?_, ?_, ?_⟩, fun r hr => ?_⟩
  · unfold State.quad; rw [ht]; exact hidle
  · rw [ht, harr, hfault sl]; exact hcount.1
  · rw [ht, harr, hfault sl]; exact hcount.2 hc
  · rw [ht, hruns r (hrun.trans hr), hrunsEq sl]

end

end Sys2Proof.Machine
end

section
/-! The control and register words of a quad program. -/

namespace Sys2Proof.Machine

/-! ### O22: the control and register words of a quad program -/

/-- The waking on a flag leaves a quad that does not wait for it. -/
theorem SliceState.quad_wakeOn {x : SliceState} {f q : Nat} (h : (x.quad q).st ≠ .waitFlag f) : (x.wakeOn f).quad q = x.quad q := by
  unfold SliceState.quad SliceState.wakeOn at *
  simp only [List.getD_eq_getElem?_getD, List.getElem?_map] at *
  cases hq : x.quads[q]? with
  | none => rfl
  | some k =>
    rw [hq] at h
    exact if_neg h

theorem SliceState.quad_setFlag {x : SliceState} {f q : Nat} (h : (x.quad q).st ≠ .waitFlag f) : (x.setFlag f).quad q = x.quad q := by
  unfold SliceState.setFlag
  split
  · rfl
  · exact SliceState.quad_wakeOn h

theorem SliceState.quad_setFlag? {x : SliceState} {o : Option Nat} {q : Nat} (h : ∀ f, (x.quad q).st ≠ .waitFlag f) : (x.setFlag? o).quad q = x.quad q := by
  cases o with
  | none => rfl
  | some f => exact SliceState.quad_setFlag (h f)

/-- A quad whose segment has ended. -/
def Quad.rest (k : Quad) : Quad := { k with st := .idle, loops := [] }

@[simp] theorem Quad.rest_st (k : Quad) : k.rest.st = .idle := rfl
@[simp] theorem Quad.rest_q (k : Quad) : k.rest.q = k.q := rfl

/-- A segment that ends leaves its quad idle, and the stage it serves has completed. -/
theorem SliceState.endSegment_spec {x : SliceState} (hx : x.ok) (q : QuadId) :
    ((x.endSegment q).quad q).st = .idle ∧ ((x.endSegment q).quad q).q = (x.quad q).q ∧ (x.endSegment q).mem = x.mem ∧
    ∀ r, x.quadRun q = some r → ∀ v ∈ (x.endSegment q).runs, v.idx = r.idx → v.frame = r.frame → v.st = .completed := by
  have hquad : (x.onQuad q fun k => { k with st := .idle, loops := [] }).quad q = (x.quad q).rest :=
    SliceState.quad_onQuad q hx _
  unfold SliceState.endSegment
  dsimp only
  generalize x.quadRun q = o
  cases o with
  | none => exact ⟨by rw [hquad, Quad.rest_st], by rw [hquad, Quad.rest_q], rfl, fun _ h => (Option.some_ne_none _ h.symm).elim⟩
  | some u =>
    dsimp only
    unfold SliceState.completeRun
    have hsame : (((x.onQuad q fun k => { k with st := .idle, loops := [] }).endRun u .completed).setFlag? u.entry.f.sets).quad q =
        (x.quad q).rest := by
      refine (SliceState.quad_setFlag? fun f => ?_).trans hquad
      have hidle : (((x.onQuad q fun k => { k with st := .idle, loops := [] }).endRun u .completed).quad q).st = .idle := congrArg Quad.st hquad
      rw [hidle]
      nofun
    refine ⟨by rw [hsame, Quad.rest_st], by rw [hsame, Quad.rest_q], ?_, fun r h v hv hi hf => ?_⟩
    · exact SliceState.setFlag?_agree (π := SliceState.mem) (fun _ _ _ _ => rfl) _ _
    · obtain rfl := Option.some.inj h
      rw [SliceState.setFlag?_agree (π := SliceState.runs) (fun _ _ _ _ => rfl)] at hv
      obtain ⟨v0, hv0, rfl⟩ := List.mem_map.1 hv
      split at hi <;> split at hf <;> simp_all

section
variable {s : State} {sl : SliceId} {q : QuadId} {w : Nat}

theorem Quad.setReg_eq (k : Quad) (n : Nat) (v : Word) : k.setReg n v = if n = 0 then k else { k with q := k.q.set n v } := rfl

theorem shapeField_eq (f e : Nat) : shapeField (bits f 1 0) e = if bits f 1 0 = 0 then bits e 11 0 else if bits f 1 0 = 1 then bits e 19 12
    else if bits f 1 0 = 2 then bits e 36 36 else bits e 37 37 := by
  unfold shapeField
  split
  · next h => rw [if_pos h]
  · next h => rw [if_neg (by omega), if_pos h]
  · next h => rw [if_neg (by omega), if_neg (by omega), if_pos h]
  · next h0 h1 h2 => rw [if_neg h0, if_neg h1, if_neg h2]

/-- LDSHAPE writes the field that FN names of the shape entry that IMM names, and the slot becomes the current one. -/
theorem execLdshape_eq (hw : s.QuadIssues sl q w) (hc : qCode w = 0x20) :
    exec (.ldshape sl q) s = .next (s.afterWord sl q fun j =>
      let e := (s.sl sl).loadNat (shapeAddr (s.sl sl) (bits (qImm w) 15 8) + 64 + 8 * (64 * q.val + bits (qImm w) 5 0)) 8
      { j.setReg (qD w) (BitVec.ofNat 64 (shapeField (bits (qFn w) 1 0) e)) with
        cur := some (bits (qImm w) 15 8, bits (qImm w) 5 0), reached := j.reached ++ [bits (qImm w) 5 0] }) := by
  have hload : State.Agree (fun x => x.loadNat (shapeAddr x (bits (qImm w) 15 8) + 64 + 8 * (64 * q.val + bits (qImm w) 5 0)) 8)
      s (s.afterWord sl q id) := .afterWord (fun _ _ => rfl) id
  refine congrArg Host.Outcome.next ((State.issueQuad_runs hw hc).trans ?_)
  have hload := hload sl
  dsimp only at hload ⊢
  rw [hload]
  exact State.onQuad_afterWord _

/-- The run a quad serves, and the frame or launch that its waits count from, are the same once the word is issued. -/
theorem State.afterWord_waitBase (hs : s.Inv) (c : Bool) (d : Drip) :
    (if c then d else match ((s.afterWord sl q id).sl sl).quadRun q with | some u => u.frame | none => (s.afterWord sl q id).frame) =
    if c then d else match (s.sl sl).quadRun q with | some u => u.frame | none => s.frame := by
  rw [State.afterWord_quadRun hs]
  rfl

/-- The drip that a WAIT_DRIP names: its immediate after the launch or the frame start. -/
def State.waitedDrip (s : State) (sl q w : Nat) : Drip :=
  (if bit (qFn w) 0 then (s.quad sl q).launchDrip else match (s.sl sl).quadRun q with | some u => u.frame | none => s.frame).plus (qImm w)

/-- WAIT_DRIP waits for a later drip, counts a past one as late, and in still-water mode waits and marks its stage as missed. -/
theorem execQuadWaitDrip_eq (hs : s.Inv) (hw : s.QuadIssues sl q w) (hc : qCode w = 0x02) :
    exec (.quadWaitDrip sl q) s = .next (
      if Drip.later (s.waitedDrip sl q w) s.now then s.afterWord sl q fun j => { j with st := .waitDrip (s.waitedDrip sl q w) }
      else if s.still.on then
        match (s.sl sl).quadRun q with
        | some u => (s.afterWord sl q fun j => { j with st := .waitDrip (s.waitedDrip sl q w) }).onSl sl fun x =>
            x.setRun u fun r => { r with lateInput := true }
        | none => s.afterWord sl q fun j => { j with st := .waitDrip (s.waitedDrip sl q w) }
      else (s.afterWord sl q id).onSl sl fun y => { y with routing := { y.routing with lateWaits := y.routing.lateWaits + 1 } }) := by
  refine congrArg Host.Outcome.next ((State.issueQuad_runs hw hc).trans ?_)
  dsimp only
  rw [State.afterWord_quadRun hs, State.onQuad_afterWord]
  rfl

/-- A quad that waits past its drip in still-water mode, and the missed stage it serves. -/
theorem State.lateWait_spec (hs : s.Inv) (d : Drip) :
    let v := s.afterWord sl q fun j => { j with st := .waitDrip d }
    let t := match (s.sl sl).quadRun q with
      | some u => v.onSl sl fun x => x.setRun u fun r => { r with lateInput := true }
      | none => v
    (t.quad sl q).st = .waitDrip d ∧
    ∀ r, (s.sl sl).quadRun q = some r → ∀ v ∈ (t.sl sl).runs, v.idx = r.idx → v.frame = r.frame → v.lateInput = true := by
  intro v t
  have hv : (v.quad sl q).st = .waitDrip d := congrArg Quad.st (State.afterWord_quad hs _)
  have hlen : sl.val < v.slices.length := by
    have h8 : v.slices.length = 8 := (State.onSl_length _ _ _).trans hs.1.1
    exact h8.symm ▸ sl.isLt
  cases hr : (s.sl sl).quadRun q with
  | none =>
    have ht : t = v := by simp only [t, hr]
    exact ht ▸ ⟨hv, fun _ h => (Option.some_ne_none _ h.symm).elim⟩
  | some u =>
    have ht : t = v.onSl sl fun x => x.setRun u fun r => { r with lateInput := true } := by simp only [t, hr]
    rw [ht]
    refine ⟨?_, fun r h j hj hi hf => ?_⟩
    · unfold State.quad
      rw [State.onSl_sl_self _ _ _ hlen]
      exact hv
    · obtain rfl := Option.some.inj h
      rw [State.onSl_sl_self _ _ _ hlen] at hj
      obtain ⟨j, -, rfl⟩ := List.mem_map.1 hj
      split at hi <;> split at hf <;> simp_all

/-- HALT makes the quad idle and completes the stage it serves. -/
theorem execQuadHalt_ends (hs : s.Inv) (hw : s.QuadIssues sl q w) (hc : qCode w = 0x01) :
    ∃ t : State, exec (.quadHalt sl q) s = .next t ∧ (t.quad sl q).st = .idle ∧ (t.quad sl q).q = (s.quad sl q).q ∧ (t.sl sl).mem = (s.sl sl).mem ∧
      ∀ r, (s.sl sl).quadRun q = some r → ∀ v ∈ (t.sl sl).runs, v.idx = r.idx → v.frame = r.frame → v.st = .completed := by
  have hexec : exec (.quadHalt sl q) s = .next ((s.afterWord sl q id).onSl sl fun x => x.endSegment q) :=
    congrArg Host.Outcome.next (State.issueQuad_runs hw hc)
  have hlen : sl.val < (s.afterWord sl q id).slices.length := hs.afterWord.1.1.symm ▸ sl.isLt
  obtain ⟨hst, hq, hmem, hruns⟩ := SliceState.endSegment_spec (hs.afterWord.sl sl.isLt) q
  refine ⟨_, hexec, ?_⟩
  unfold State.quad
  rw [State.onSl_sl_self _ _ _ hlen]
  have hregs : (((s.afterWord sl q id).sl sl).quad q).q = ((s.sl sl).quad q).q :=
    (congrArg Quad.q (State.afterWord_quad hs id)).trans (Quad.goTo_agree (π := Quad.q) (fun _ _ _ => rfl) _ _)
  have hsame : ((s.afterWord sl q id).sl sl).mem = (s.sl sl).mem := State.Agree.afterWord (π := SliceState.mem) (fun _ _ => rfl) id sl
  exact ⟨hst, hq.trans hregs, hmem.trans hsame, fun r hr => hruns r ((State.afterWord_quadRun hs).trans hr)⟩

/-- SET_FLAG sets its flag, and the quad that issues it is not among those it wakes. -/
theorem execSetFlag_sets (hs : s.Inv) (hw : s.QuadIssues sl q w) (hc : qCode w = 0x04) :
    ∃ t : State, exec (.setFlag sl q) s = .next t ∧ qImm w ∈ (t.sl sl).flags ∧ (∀ f ∈ (s.sl sl).flags, f ∈ (t.sl sl).flags) ∧
      t.quad sl q = (s.afterWord sl q id).quad sl q ∧ (t.sl sl).mem = (s.sl sl).mem ∧ OnlySlice s t sl := by
  have hexec : exec (.setFlag sl q) s = .next ((s.afterWord sl q id).onSl sl fun x => x.setFlag (qImm w)) :=
    congrArg Host.Outcome.next (State.issueQuad_runs hw hc)
  have hlen : sl.val < (s.afterWord sl q id).slices.length := hs.afterWord.1.1.symm ▸ sl.isLt
  have hrun : (((s.afterWord sl q id).sl sl).quad q).st = .running :=
    (congrArg Quad.st (State.afterWord_quad hs id)).trans ((Quad.goTo_agree (π := Quad.st) (fun _ _ _ => rfl) _ _).trans hw.1)
  have hflags : ((s.afterWord sl q id).sl sl).flags = (s.sl sl).flags := State.Agree.afterWord (π := SliceState.flags) (fun _ _ => rfl) id sl
  have hsame : ((s.afterWord sl q id).sl sl).mem = (s.sl sl).mem := State.Agree.afterWord (π := SliceState.mem) (fun _ _ => rfl) id sl
  refine ⟨_, hexec, ?_⟩
  unfold State.quad OnlySlice
  rw [State.onSl_sl_self _ _ _ hlen]
  refine ⟨SliceState.mem_setFlag _ _, fun f hf => SliceState.setFlag_flags_subset _ _ (hflags ▸ hf), SliceState.quad_setFlag (by rw [hrun]; nofun),
    (SliceState.setFlag_mem _ _).trans hsame, rfl, fun j hj => ?_⟩
  rw [State.onSl_sl_of_ne _ _ hj]
  exact State.onSl_sl_of_ne _ _ hj

end

/-- Settles O22: each word by the one equation for the issue of a quad's word. -/
theorem quadControl : Obligations.QuadControl := by
  unfold Obligations.QuadControl
  intro s sl q hs
  refine ⟨fun hrun hpc i hi => ?_, fun w hw => ?_⟩
  · have hfault := State.segmentFault_ends hs (sl := sl) (q := q) (a := none) (pc := (s.quad sl q).pc) (code := qfPcBounds) (by decide)
    have hexec : exec i s = .next (s.segmentFault sl q none (s.quad sl q).pc qfPcBounds) := by
      simp only [List.mem_cons, List.not_mem_nil, or_false] at hi
      obtain rfl | rfl | rfl | rfl | rfl | rfl | rfl | rfl | rfl | rfl | rfl | rfl := hi
      all_goals exact congrArg Host.Outcome.next (State.issueQuad_faults hrun hpc _ _)
    exact ⟨_, hexec, hfault⟩
  · intro k x put n count base at_
    refine ⟨fun hc => ?_, fun hc => ?_, fun hc => ?_, fun hc => ?_, fun hc => ?_, fun hc => ?_, fun hc hcount hn => ?_, fun hc hz => ?_,
      fun h => Quad.goTo_of_no_loop h _, fun f r h hstop hleft => Quad.goTo_of_loop_end h hstop hleft, fun hc hz => ?_, fun hc hz => ?_, fun hc => ?_,
      fun hc hl => ?_, fun hc hl hst => ?_, fun hc hl hst => ?_, fun hc => execSetFlag_sets hs hw hc, fun hc => execQuadHalt_ends hs hw hc⟩
    · exact congrArg Host.Outcome.next (State.issueQuad_runs hw hc)
    · exact congrArg Host.Outcome.next ((State.issueQuad_runs hw hc).trans (State.onQuad_afterWord _))
    · exact congrArg Host.Outcome.next ((State.issueQuad_runs hw hc).trans (State.onQuad_afterWord _))
    · exact congrArg Host.Outcome.next ((State.issueQuad_runs hw hc).trans (State.onQuad_afterWord _))
    · refine congrArg Host.Outcome.next ((State.issueQuad_runs hw hc).trans ((State.onQuad_afterWord _).trans ?_))
      have hprod : k.reg (qA w) * BitVec.ofNat 64 (qImm w) = BitVec.ofNat 64 ((k.reg (qA w)).toNat * qImm w) := by
        rw [BitVec.ofNat_mul, BitVec.ofNat_toNat, BitVec.setWidth_eq]
      rw [show (s.quad sl q).reg (qA w) * BitVec.ofNat 64 (qImm w) = _ from hprod]
      rfl
    · refine (execLdshape_eq hw hc).trans ?_
      refine congrArg Host.Outcome.next (congrArg (State.onQuad s sl q) (funext fun j => ?_))
      dsimp only [id, k, x]
      rw [shapeField_eq, Quad.setReg_eq]
    · refine congrArg Host.Outcome.next ((State.issueQuad_runs hw hc).trans ((State.onQuad_afterWord _).trans (State.onQuad_congr ?_)))
      exact if_neg (not_or.2 ⟨Nat.ne_of_gt hcount, Nat.ne_of_gt hn⟩)
    · refine congrArg Host.Outcome.next ((State.issueQuad_runs hw hc).trans ((State.onQuad_afterWord _).trans (State.onQuad_congr ?_)))
      exact if_pos hz
    · refine congrArg Host.Outcome.next ((State.issueQuad_runs hw hc).trans ?_)
      exact (if_pos hz).trans (State.onQuad_afterWord _)
    · refine congrArg Host.Outcome.next ((State.issueQuad_runs hw hc).trans ?_)
      exact if_neg hz
    · refine congrArg Host.Outcome.next ((State.issueQuad_runs hw hc).trans ?_)
      have hflags : ((s.afterWord sl q id).sl sl).flags = (s.sl sl).flags := State.Agree.afterWord (π := SliceState.flags) (fun _ _ => rfl) id sl
      rw [hflags, State.onQuad_afterWord]
      split <;> rfl
    · exact (execQuadWaitDrip_eq hs hw hc).trans (congrArg Host.Outcome.next (if_pos hl))
    · refine (execQuadWaitDrip_eq hs hw hc).trans (congrArg Host.Outcome.next ((if_neg (Bool.eq_false_iff.1 hl)).trans ?_))
      exact if_neg (Bool.eq_false_iff.1 hst)
    · refine ⟨_, (execQuadWaitDrip_eq hs hw hc).trans (congrArg Host.Outcome.next ((if_neg (Bool.eq_false_iff.1 hl)).trans (if_pos hst))), ?_⟩
      exact State.lateWait_spec hs _

end Sys2Proof.Machine
end

section
/-! SUPPORT. The weight bus. -/

namespace Sys2Proof.Machine

/-! ### The arrays of a quad -/

theorem qArrays_lt {w a : Nat} (h : a ∈ qArrays w) : a < 4 := List.mem_range.1 (List.mem_filter.1 h).1

theorem qArrays_nodup (w : Nat) : (qArrays w).Nodup := List.nodup_range.filter _

theorem Quad.array_onArray_same {k : Quad} {a : Nat} (ha : a < k.arrays.length) (f : Array → Array) : (k.onArray a f).array a = f (k.array a) := by
  simp [Quad.array, Quad.onArray, List.getD, ha]

theorem Quad.array_onArray_of_ne (k : Quad) {a b : Nat} (h : b ≠ a) (f : Array → Array) : (k.onArray a f).array b = k.array b := by
  simp [Quad.array, Quad.onArray, List.getD, Ne.symm h]

/-- A part of the arrays that a change of one leaves alone. -/
theorem Quad.array_onArray_agree {β : Type} {π : Array → β} {f : Array → Array} (h : ∀ y, π (f y) = π y) (k : Quad) (a b : Nat) :
    π ((k.onArray a f).array b) = π (k.array b) := by
  unfold Quad.array Quad.onArray
  simp only [List.getD_eq_getElem?_getD, List.getElem?_modify]
  cases k.arrays[b]? with
  | none => rfl
  | some y =>
    simp only [Option.getD_some]
    split
    · exact h y
    · rfl

/-! ### The weight bus -/

/-- An array whose shadow the bus has loaded. -/
def Array.loaded (y : Array) (t : Tile) : Array := { y with shadow := some t }

@[simp] theorem Array.loaded_shadow (y : Array) (t : Tile) : (y.loaded t).shadow = some t := rfl
@[simp] theorem Array.loaded_active (y : Array) (t : Tile) : (y.loaded t).active = y.active := rfl
@[simp] theorem Array.loaded_slots (y : Array) (t : Tile) : (y.loaded t).slots = y.slots := rfl

/-- What the bus reads of a slice: its memory, its poison, its windows and the pseudo-channels that are out. -/
def SliceState.busView (x : SliceState) : Memory × List Nat × Tiers × Spares := (x.mem, x.poison, x.tiers, x.spares)

/-- The memory that the bus reads at an address: the chamber store, or HBM under the mappings the segment sampled. -/
def State.busPlace (v : State) (sl : SliceId) (q : QuadId) (chamber : Bool) (a n : Nat) : Option Parts :=
  if chamber then (ownChamber q a n).map fun p => [(p, n)] else (v.sl sl).quadHbm (v.quad sl q) a n

/-- A whole tile with a valid header and no poisoned word lies at an address. -/
def State.busReads (v : State) (sl : SliceId) (q : QuadId) (chamber : Bool) (a : Nat) (t : Bytes) : Prop :=
  ∃ p p0, v.busPlace sl q chamber a t.length = some p ∧ (v.sl sl).loadRanges p = t ∧ v.busPlace sl q chamber a 32 = some p0 ∧
    (v.sl sl).loadRanges p0 = t.take 32 ∧ tileHeaderOk (leNat (t.take 32)) = true ∧ t.length = 32 + thBytes (leNat (t.take 32)) ∧
    (v.sl sl).poisonedIn p = false

/-- The bus has loaded a tile into the shadow of an array and counted it. -/
def State.busTile (v : State) (sl : SliceId) (q : QuadId) (a : Nat) (t : Bytes) : State :=
  (v.setShadow sl q a { bytes := t, poison := none }).onSl sl fun y => { y with arr := { y.arr with
    tilesLoaded := y.arr.tilesLoaded + 1
    zeroTiles := y.arr.zeroTiles + b2n (thForm (leNat (t.take 32)) == formZero) } }

section
variable {v u : State} {sl : SliceId} {q : QuadId} {chamber : Bool} {arrs : List Nat} {pc n left a : Nat} {t : Bytes}

theorem State.busPlace_congr (ht : (u.sl sl).tiers = (v.sl sl).tiers) (hk : (u.quad sl q).sampled = (v.quad sl q).sampled) :
    u.busPlace sl q chamber = v.busPlace sl q chamber := by
  unfold State.busPlace SliceState.quadHbm SliceState.sampledAddr
  rw [ht, hk]

theorem State.busReads_congr (hx : (u.sl sl).busView = (v.sl sl).busView) (hk : (u.quad sl q).sampled = (v.quad sl q).sampled) :
    u.busReads sl q chamber a t ↔ v.busReads sl q chamber a t := by
  unfold SliceState.busView at hx
  simp only [Prod.mk.injEq] at hx
  obtain ⟨hmem, hpoison, htiers, hspares⟩ := hx
  unfold State.busReads SliceState.loadRanges SliceState.load SliceState.poisonedIn SliceState.poisoned
  rw [State.busPlace_congr htiers hk, hmem, hpoison, hspares]

/-- A good tile at the address of the bus goes to the array whose turn it is, and the bus goes on behind it. -/
theorem State.busFrom_takes (harr : arrs ≠ []) (ht : v.busReads sl q chamber a t) (hcrc : tileCrcOk t = true) :
    v.busFrom sl q chamber arrs pc n (left + 1) a =
      (v.busTile sl q (arrs.getD ((n - (left + 1)) % arrs.length) 0) t).busFrom sl q chamber arrs pc n left (a + t.length) := by
  obtain ⟨p, p0, hp, hb, hp0, hb0, hok, hlen, hpoison⟩ := ht
  have hmax : max 1 arrs.length = arrs.length := Nat.max_eq_right (List.length_pos_of_ne_nil harr)
  have hat : ∀ m, (if chamber = true then (ownChamber q a m).map fun p => [(p, m)] else (v.sl sl).quadHbm ((v.sl sl).quad q) a m) =
    v.busPlace sl q chamber a m := fun _ => rfl
  have hempty : arrs.isEmpty = false := by simpa using harr
  unfold State.busTile
  conv_lhs => unfold State.busFrom
  dsimp only
  rw [hat, hp0]
  dsimp only
  rw [hb0, hok, hat, ← hlen, hp]
  dsimp only
  rw [hb, hcrc, hpoison, hempty, hmax]
  rfl

theorem State.Keeps.busTile (v : State) (sl : SliceId) (q : QuadId) (a : Nat) (t : Bytes) : v.Keeps (v.busTile sl q a t) :=
  .comp (.onSl _ _ fun _ h => .update h rfl rfl rfl) (.setShadow ..)

/-- What the bus does with a tile: the shadow of its array takes it, it is counted, and the bus reads as before. -/
theorem State.busTile_spec (hv : v.Inv) (sl : SliceId) (q : QuadId) (a : Nat) (t : Bytes) :
    let u := v.busTile sl q a t
    u.quad sl q = (v.quad sl q).onArray a (fun y => y.loaded { bytes := t, poison := none }) ∧
    (u.sl sl).busView = (v.sl sl).busView ∧ (u.sl sl).arr.tilesLoaded = (v.sl sl).arr.tilesLoaded + 1 := by
  have hlen : sl.val < (v.setShadow sl q a { bytes := t, poison := none }).slices.length :=
    ((State.Keeps.setShadow ..).2 hv).1.1.symm ▸ sl.isLt
  have hview : State.Agree SliceState.busView v (v.setShadow sl q a { bytes := t, poison := none }) := .onSl fun _ => rfl
  have harr : State.Agree SliceState.arr v (v.setShadow sl q a { bytes := t, poison := none }) := .onSl fun _ => rfl
  unfold State.busTile State.quad
  dsimp only
  rw [State.onSl_sl_self _ _ _ hlen]
  refine ⟨State.quad_onQuad hv sl q _, hview sl, ?_⟩
  rw [← harr sl]

/-- The first `m` tiles of a run have been loaded in rotation. -/
def State.busTiles (v : State) (sl : SliceId) (q : QuadId) (arrs : List Nat) (ts : List Bytes) (m : Nat) : State :=
  (List.range m).foldl (fun u j => u.busTile sl q (arrs.getD (j % arrs.length) 0) (ts.getD j [])) v

theorem State.busTiles_succ (v : State) (sl : SliceId) (q : QuadId) (arrs : List Nat) (ts : List Bytes) (m : Nat) :
    v.busTiles sl q arrs ts (m + 1) = (v.busTiles sl q arrs ts m).busTile sl q (arrs.getD (m % arrs.length) 0) (ts.getD m []) := by
  unfold State.busTiles
  rw [List.range_succ, List.foldl_append]
  rfl

theorem State.Inv.busTiles (hv : v.Inv) (ts : List Bytes) (m : Nat) : (v.busTiles sl q arrs ts m).Inv :=
  (State.Keeps.foldl (fun _ _ => .busTile ..) _ _).2 hv

/-- What the bus has done after `m` tiles. -/
theorem State.busTiles_spec (hv : v.Inv) (ts : List Bytes) (m : Nat) :
    let u := v.busTiles sl q arrs ts m
    (u.sl sl).busView = (v.sl sl).busView ∧ (u.sl sl).arr.tilesLoaded = (v.sl sl).arr.tilesLoaded + m ∧
    (∀ {β : Type} {π : Quad → β}, (∀ k z, π { k with arrays := z } = π k) → π (u.quad sl q) = π (v.quad sl q)) ∧
    ∀ b, ((u.quad sl q).array b).active = ((v.quad sl q).array b).active ∧ ((u.quad sl q).array b).slots = ((v.quad sl q).array b).slots := by
  induction m with
  | zero => exact ⟨rfl, rfl, fun _ => rfl, fun _ => ⟨rfl, rfl⟩⟩
  | succ m ih =>
    obtain ⟨hview, hcount, hquad, hactive⟩ := ih
    obtain ⟨hq, hv', hc⟩ := State.busTile_spec (State.Inv.busTiles hv ts m) sl q (arrs.getD (m % arrs.length) 0) (ts.getD m [])
    rw [State.busTiles_succ]
    refine ⟨hv'.trans hview, ?_, fun h => ?_, fun b => ?_⟩
    · rw [hc, hcount, Nat.add_assoc]
    · rw [hq]
      exact (h _ _).trans (hquad h)
    · rw [hq]
      exact ⟨(Quad.array_onArray_agree (π := Array.active) (fun y => y.loaded_active _) _ _ b).trans (hactive b).1,
        (Quad.array_onArray_agree (π := Array.slots) (fun y => y.loaded_slots _) _ _ b).trans (hactive b).2⟩

/-- The shadow of an array holds the last tile that the rotation gave it. -/
theorem State.busTiles_shadow (hv : v.Inv) (hlt : ∀ b ∈ arrs, b < 4) (hnd : arrs.Nodup) (ts : List Bytes) (m : Nat) {i : Nat} (hi : i < m)
    (him : m ≤ i + arrs.length) :
    (((v.busTiles sl q arrs ts m).quad sl q).array (arrs.getD (i % arrs.length) 0)).shadow = some { bytes := ts.getD i [], poison := none } := by
  have hpos : 0 < arrs.length := by omega
  have hget : ∀ j, ∃ h : j % arrs.length < arrs.length, arrs.getD (j % arrs.length) 0 = arrs[j % arrs.length] := fun j =>
    ⟨Nat.mod_lt _ hpos, List.getD_eq_getElem _ _ _⟩
  induction m with
  | zero => omega
  | succ m ih =>
    obtain ⟨hq, -, -⟩ := State.busTile_spec (State.Inv.busTiles hv ts m) sl q (arrs.getD (m % arrs.length) 0) (ts.getD m [])
    rw [State.busTiles_succ, hq]
    have harrays : ((v.busTiles sl q arrs ts m).quad sl q).arrays.length = 4 := ((State.Inv.busTiles hv ts m).quad sl q).2.1
    obtain rfl | hne := Nat.eq_or_lt_of_le (Nat.le_of_lt_succ hi)
    · obtain ⟨h, hg⟩ := hget i
      rw [Quad.array_onArray_same, Array.loaded_shadow]
      rw [harrays, hg]
      exact hlt _ (List.getElem_mem h)
    · rw [Quad.array_onArray_of_ne _ ?_]
      · exact ih hne (by omega)
      · obtain ⟨h1, hg1⟩ := hget i
        obtain ⟨h2, hg2⟩ := hget m
        rw [hg1, hg2]
        intro he
        have hmod := (List.Nodup.getElem_inj_iff hnd).1 he
        have : m - i < arrs.length := by omega
        have hdvd : (m - i) % arrs.length = 0 := Nat.sub_mod_eq_zero_of_mod_eq hmod.symm
        rw [Nat.mod_eq_of_lt this] at hdvd
        omega

/-- A run of good tiles that lie back to back is loaded to its end. -/
theorem State.busFrom_run (hv : v.Inv) (harr : arrs ≠ []) (ts : List Bytes)
    (h : ∀ i, i < ts.length → v.busReads sl q chamber (a + ((ts.take i).map List.length).sum) (ts.getD i []) ∧ tileCrcOk (ts.getD i []) = true)
    (m left : Nat) (hm : m + left = ts.length) :
    (v.busTiles sl q arrs ts m).busFrom sl q chamber arrs pc ts.length left (a + ((ts.take m).map List.length).sum) =
      .done (v.busTiles sl q arrs ts ts.length) (a + (ts.map List.length).sum) := by
  induction left generalizing m with
  | zero =>
    obtain rfl : m = ts.length := hm
    rw [List.take_length]
    rfl
  | succ left ih =>
    have hlt : m < ts.length := by omega
    obtain ⟨hread, hcrc⟩ := h m hlt
    obtain ⟨hview, -, hquad, -⟩ := State.busTiles_spec (sl := sl) (q := q) (arrs := arrs) hv ts m
    have hread' := (State.busReads_congr hview (hquad (π := Quad.sampled) fun _ _ => rfl)).2 hread
    have hidx : ts.length - (left + 1) = m := by omega
    have hsum : a + ((ts.take m).map List.length).sum + (ts.getD m []).length = a + ((ts.take (m + 1)).map List.length).sum := by
      rw [List.take_succ_eq_append_getElem hlt, List.map_append, List.sum_append, List.getD_eq_getElem _ _ hlt]
      simp [Nat.add_assoc]
    rw [State.busFrom_takes harr hread' hcrc, hidx, ← State.busTiles_succ, hsum]
    exact ih (m + 1) (by omega)

end

end Sys2Proof.Machine
end

section
/-! WLOAD, SWAP and ROWCOPY. -/

namespace Sys2Proof.Machine

/-! ### O23: WLOAD, SWAP and ROWCOPY -/

/-- The lengths of the parts of a range of windows add up to its length. -/
theorem cutWindows_length {fb : Nat} (hfb : 0 < fb) {map : Nat → Option Nat} (x : SliceState) (fuel : Nat) :
    ∀ {a n : Nat} {p : Parts}, 0x4000000000 ≤ a → (n = 0 ∨ n + (a - 0x4000000000) % fb ≤ fuel * fb) →
      cutWindows fb map fuel a n = some p → (x.loadRanges p).length = n := by
  induction fuel with
  | zero =>
    intro a n p ha h hp
    obtain rfl := Option.some.inj hp
    have hn : n = 0 := by omega
    exact hn.symm
  | succ fuel ih =>
    intro a n p ha h hp
    have hmod := Nat.mod_lt (a - 0x4000000000) hfb
    unfold cutWindows at hp
    dsimp only at hp
    split at hp
    · next hn => obtain rfl := Option.some.inj hp; exact hn.symm
    · next hn =>
      split at hp
      · next b r hb hr =>
        obtain rfl := Option.some.inj hp
        have hrest : (x.loadRanges r).length = n - min n (fb - (a - 0x4000000000) % fb) := by
          refine ih (by omega) ?_ hr
          obtain hle | hgt := Nat.le_total n (fb - (a - 0x4000000000) % fb)
          · exact .inl (by omega)
          · have hal : (a + min n (fb - (a - 0x4000000000) % fb) - 0x4000000000) % fb = 0 := by
              have hdiv := Nat.div_add_mod (a - 0x4000000000) fb
              rw [show a + min n (fb - (a - 0x4000000000) % fb) - 0x4000000000 = fb * ((a - 0x4000000000) / fb + 1) by rw [Nat.mul_add]; omega]
              exact Nat.mul_mod_right _ _
            rw [hal, Nat.min_eq_right hgt]
            refine .inr ?_
            have hstep : (fuel + 1) * fb = fuel * fb + fb := Nat.succ_mul _ _
            omega
        show (x.load b _ ++ x.loadRanges r).length = n
        rw [List.length_append, hrest]
        simp [SliceState.load, Memory.readBytes]
      · cases hp

theorem SliceState.length_load (x : SliceState) (a n : Nat) : (x.load a n).length = n := by simp [SliceState.load, Memory.readBytes]

/-- A range that a quad reads of HBM has as many bytes as it asks for. -/
theorem SliceState.quadHbm_length {x : SliceState} {k : Quad} {a n : Nat} {p : Parts} (h : x.quadHbm k a n = some p) : (x.loadRanges p).length = n := by
  unfold SliceState.quadHbm Tiers.windowParts at h
  split at h
  · obtain rfl := Option.some.inj h
    simp [SliceState.loadRanges, SliceState.length_load]
  · split at h
    · cases h
    · next hcond =>
      simp only [Bool.or_eq_true, Bool.not_eq_true', beq_iff_eq, not_or, Bool.not_eq_false] at hcond
      have hfb : 0 < x.tiers.frameBytes := Nat.pos_of_ne_zero hcond.2
      refine cutWindows_length hfb x _ ?_ (.inr ?_) h
      · have hreg := hcond.1
        unfold inRegion at hreg
        simp only [Bool.and_eq_true, beq_iff_eq] at hreg
        by_contra hlt
        have hhbm : regionOf a = .hbm := if_pos (Nat.lt_of_not_le hlt)
        rw [hhbm] at hreg
        cases hreg.1
      · have h1 := Nat.mod_lt (a - 0x4000000000) hfb
        have h2 := Nat.div_add_mod n x.tiers.frameBytes
        have h3 := Nat.mod_lt n hfb
        have h4 : (n / x.tiers.frameBytes + 2) * x.tiers.frameBytes = x.tiers.frameBytes * (n / x.tiers.frameBytes) + 2 * x.tiers.frameBytes := by ring
        omega

/-! ### SWAP -/

/-- The shadow of an array is in its active registers. -/
def Array.swapped (y : Array) : Array := { y with active := y.shadow }

/-- Each array of a list has its shadow in its active registers, and the others are as they were. -/
theorem Quad.array_swap (arrs : List Nat) (k : Quad) (hlt : ∀ a ∈ arrs, a < k.arrays.length) (i : Nat) :
    (arrs.foldl (fun z a => z.onArray a Array.swapped) k).array i = if i ∈ arrs then (k.array i).swapped else k.array i := by
  induction arrs generalizing k with
  | nil => rfl
  | cons a arrs ih =>
    have hlen : (k.onArray a Array.swapped).arrays.length = k.arrays.length := by simp [Quad.onArray]
    rw [List.foldl_cons, ih _ fun b hb => hlen.symm ▸ hlt b (List.mem_cons_of_mem _ hb)]
    obtain rfl | hne := eq_or_ne i a
    · rw [Quad.array_onArray_same (hlt i (List.mem_cons_self ..)), if_pos (List.mem_cons_self ..)]
      split <;> rfl
    · rw [Quad.array_onArray_of_ne _ hne]
      simp only [List.mem_cons, hne, false_or]

theorem Quad.q_swap (arrs : List Nat) (k : Quad) : (arrs.foldl (fun z a => z.onArray a Array.swapped) k).q = k.q :=
  foldl_agree (π := Quad.q) (f := fun z a => z.onArray a Array.swapped) (fun _ _ => rfl) _ _

section
variable {s : State} {sl : SliceId} {q : QuadId} {w : Nat}

theorem State.afterWord_array (i : Nat) : ((s.quad sl q).goTo ((s.quad sl q).pc + 1)).array i = (s.quad sl q).array i := by
  unfold Quad.array
  rw [Quad.goTo_agree (π := Quad.arrays) fun _ _ _ => rfl]

theorem execSwap_swaps (hs : s.Inv) (hw : s.QuadIssues sl q w) (hc : qCode w = 0x31) (hfull : ∀ i ∈ qArrays w, ((s.quad sl q).array i).shadow.isSome = true) :
    ∃ t : State, exec (.swap sl q) s = .next t ∧ OnlySlice s t sl ∧ (t.sl sl).mem = (s.sl sl).mem ∧ (t.quad sl q).q = (s.quad sl q).q ∧
      ∀ i, (t.quad sl q).array i = if i ∈ qArrays w then ((s.quad sl q).array i).swapped else (s.quad sl q).array i := by
  have hexec : exec (.swap sl q) s = .next (s.afterWord sl q fun j => (qArrays w).foldl (fun z a => z.onArray a Array.swapped) j) := by
    refine congrArg Host.Outcome.next ((State.issueQuad_runs hw hc).trans ?_)
    have hnone : (qArrays w).find? (fun a => ((s.quad sl q).array a).shadow.isNone) = none :=
      List.find?_eq_none.2 fun a ha => by simp [Option.isNone_iff_eq_none, Option.isSome_iff_ne_none.1 (hfull a ha)]
    rw [hnone]
    exact State.onQuad_afterWord _
  have harrays : ((s.quad sl q).goTo ((s.quad sl q).pc + 1)).arrays.length = 4 :=
    (congrArg List.length (Quad.goTo_agree (π := Quad.arrays) (fun _ _ _ => rfl) _ _)).trans (hs.quad sl q).2.1
  refine ⟨_, hexec, OnlySlice.onSl s _, State.Agree.afterWord (π := SliceState.mem) (fun _ _ => rfl) _ sl, ?_, fun i => ?_⟩
  · rw [State.afterWord_quad hs, Quad.q_swap]
    exact Quad.goTo_agree (π := Quad.q) (fun _ _ _ => rfl) _ _
  · rw [State.afterWord_quad hs, Quad.array_swap _ _ fun a ha => harrays.symm ▸ qArrays_lt ha, State.afterWord_array]

/-- A segment that ends after its word has passed has ended. -/
theorem State.segmentFault_ends_afterWord (hs : s.Inv) {a : Option Nat} {pc code : Nat} (hc : code < 256) :
    s.SegmentEnds ((s.afterWord sl q id).segmentFault sl q a pc code) sl q code := by
  obtain ⟨⟨hidle, hcount, hcode⟩, -⟩ := State.segmentFault_ends (hs.afterWord (sl := sl) (q := q)) (sl := sl) (q := q) (a := a) (pc := pc) hc
  have harr : ((s.afterWord sl q id).sl sl).arr = (s.sl sl).arr := State.Agree.afterWord (π := SliceState.arr) (fun _ _ => rfl) id sl
  exact ⟨hidle, harr ▸ hcount, hcode⟩

theorem execSwap_empty (hs : s.Inv) (hw : s.QuadIssues sl q w) (hc : qCode w = 0x31) (hempty : ∃ i ∈ qArrays w, ((s.quad sl q).array i).shadow = none) :
    ∃ t : State, exec (.swap sl q) s = .next t ∧ s.SegmentEnds t sl q 4 := by
  obtain ⟨i, hi, hnone⟩ := hempty
  have hsome : ((qArrays w).find? (fun a => ((s.quad sl q).array a).shadow.isNone)).isSome := by
    rw [List.find?_isSome]
    exact ⟨i, hi, by rw [hnone]; rfl⟩
  obtain ⟨a, ha⟩ := Option.isSome_iff_exists.1 hsome
  have hexec : exec (.swap sl q) s = .next ((s.afterWord sl q id).segmentFault sl q (some a) (s.quad sl q).pc qfSwapEmpty) := by
    refine congrArg Host.Outcome.next ((State.issueQuad_runs hw hc).trans ?_)
    rw [ha]
  exact ⟨_, hexec, State.segmentFault_ends_afterWord hs (by decide)⟩

/-! ### ROWCOPY -/

/-- Copying poison touches neither memory nor the quads. -/
theorem SliceState.copyPoisonOf_agree {β : Type} {π : SliceState → β} (h : ∀ x p, π { x with poison := p } = π x) (y x : SliceState) (rs : Parts)
    (d : Nat) : π (y.copyPoisonOf x rs d) = π y := by
  unfold SliceState.copyPoisonOf
  refine (foldl_agree (π := fun z : SliceState × Nat => π z.1) (fun z r => ?_) rs (y, d))
  exact foldl_agree (π := π) (fun u c => h u _) _ _

/-- Where ROWCOPY reads. -/
def State.rowSource (s : State) (sl : SliceId) (q : QuadId) (a n : Nat) : Option Parts :=
  if inRegion a n .staging || inRegion a n (.chamber q) then some [(a, n)] else (s.sl sl).quadHbm (s.quad sl q) a n

theorem State.rowSource_length {a n : Nat} {p : Parts} (h : s.rowSource sl q a n = some p) : ((s.sl sl).loadRanges p).length = n := by
  unfold State.rowSource at h
  split at h
  · obtain rfl := Option.some.inj h
    simp [SliceState.loadRanges, SliceState.length_load]
  · exact SliceState.quadHbm_length h

theorem execRowcopy_eq (hw : s.QuadIssues sl q w) (hc : qCode w = 0x40) :
    exec (.rowcopy sl q) s = .next (
      match s.rowSource sl q ((s.quad sl q).reg (qA w)).toNat ((s.quad sl q).reg (qB w)).toNat,
        ownChamber q ((s.quad sl q).reg (qD w)).toNat ((s.quad sl q).reg (qB w)).toNat with
      | some p, some d => (s.afterWord sl q id).onSl sl fun y => (y.store d (y.loadRanges p)).copyPoisonOf y p d
      | _, _ => (s.afterWord sl q id).segmentFault sl q none (s.quad sl q).pc qfAddrBounds) := by
  refine congrArg Host.Outcome.next ((State.issueQuad_runs hw hc).trans ?_)
  have htiers : ((s.afterWord sl q id).sl sl).tiers = (s.sl sl).tiers := State.Agree.afterWord (π := SliceState.tiers) (fun _ _ => rfl) id sl
  have hsrc : ∀ k a n, ((s.afterWord sl q id).sl sl).quadHbm k a n = (s.sl sl).quadHbm k a n := fun k a n => by
    unfold SliceState.quadHbm SliceState.sampledAddr
    rw [htiers]
  dsimp only
  rw [hsrc]
  rfl

theorem execRowcopy_copies (hs : s.Inv) (hw : s.QuadIssues sl q w) (hc : qCode w = 0x40) {p : Parts} {d : Nat}
    (hp : s.rowSource sl q ((s.quad sl q).reg (qA w)).toNat ((s.quad sl q).reg (qB w)).toNat = some p)
    (hd : ownChamber q ((s.quad sl q).reg (qD w)).toNat ((s.quad sl q).reg (qB w)).toNat = some d) :
    ∃ t : State, exec (.rowcopy sl q) s = .next t ∧ OnlySlice s t sl ∧ SameBytesOutside (s.sl sl) (t.sl sl) d ((s.quad sl q).reg (qB w)).toNat ∧
      t.quad sl q = (s.afterWord sl q id).quad sl q ∧ (t.sl sl).load d ((s.quad sl q).reg (qB w)).toNat = (s.sl sl).loadRanges p := by
  have hexec := execRowcopy_eq hw hc
  rw [hp, hd] at hexec
  have hlen : sl.val < (s.afterWord sl q id).slices.length := hs.afterWord.1.1.symm ▸ sl.isLt
  have hmem0 : ((s.afterWord sl q id).sl sl).mem = (s.sl sl).mem := State.Agree.afterWord (π := SliceState.mem) (fun _ _ => rfl) id sl
  have hload : ((s.afterWord sl q id).sl sl).loadRanges p = (s.sl sl).loadRanges p := by
    unfold SliceState.loadRanges SliceState.load
    rw [hmem0]
  have hn := State.rowSource_length hp
  refine ⟨_, hexec, ⟨rfl, fun j hj => (State.onSl_sl_of_ne _ _ hj).trans (State.onSl_sl_of_ne _ _ hj)⟩, ?_⟩
  unfold State.quad
  dsimp only
  rw [State.onSl_sl_self _ _ _ hlen]
  have hmem := SliceState.copyPoisonOf_agree (π := SliceState.mem) (fun _ _ => rfl)
    (((s.afterWord sl q id).sl sl).store d (((s.afterWord sl q id).sl sl).loadRanges p)) ((s.afterWord sl q id).sl sl) p d
  rw [SliceState.store_mem, hload, hmem0] at hmem
  have hwf : (s.sl sl).mem.wf = true := (hs.sl sl.isLt).1
  refine ⟨fun b hb => ?_, ?_, ?_⟩
  · rw [hload, hmem]
    exact Memory.read_writeBytes_outside hwf (by rw [hn]; exact hb)
  · exact SliceState.copyPoisonOf_agree (π := fun x => x.quad q) (fun _ _ => rfl) _ _ _ _
  · unfold SliceState.load
    rw [hload, hmem]
    have hback := Memory.readBytes_writeBytes hwf d ((s.sl sl).loadRanges p)
    rwa [hn] at hback

theorem execRowcopy_bounds (hs : s.Inv) (hw : s.QuadIssues sl q w) (hc : qCode w = 0x40)
    (h : s.rowSource sl q ((s.quad sl q).reg (qA w)).toNat ((s.quad sl q).reg (qB w)).toNat = none ∨
      ownChamber q ((s.quad sl q).reg (qD w)).toNat ((s.quad sl q).reg (qB w)).toNat = none) :
    ∃ t : State, exec (.rowcopy sl q) s = .next t ∧ s.SegmentEnds t sl q 5 := by
  have hexec := execRowcopy_eq hw hc
  have hends := State.segmentFault_ends_afterWord hs (sl := sl) (q := q) (a := none) (pc := (s.quad sl q).pc) (code := qfAddrBounds) (by decide)
  refine ⟨_, hexec, ?_⟩
  obtain h | h := h
  · rw [h]; exact hends
  · rw [h]
    split
    · next h2 => cases h2
    · exact hends

/-! ### WLOAD -/

theorem execWload_eq (hw : s.QuadIssues sl q w) (hc : qCode w = 0x30) :
    exec (.wload { on := sl } q) s = .next (
      match (s.afterWord sl q id).busFrom sl q (bit (qFn w) 0) (qArrays w) (s.quad sl q).pc ((s.quad sl q).reg (qB w)).toNat
        ((s.quad sl q).reg (qB w)).toNat ((s.quad sl q).reg (qA w)).toNat with
      | .done t a => t.onQuad sl q fun j => j.setReg (qD w) (BitVec.ofNat 64 a)
      | .early t => let r := t.takeFree; r.2.onQuad sl q fun j => j.setReg (qD w) r.1
      | .bounds t => t.segmentFault sl q none (s.quad sl q).pc qfAddrBounds) :=
  congrArg Host.Outcome.next (State.issueQuad_runs hw hc)

/-- The bus reads after the word has passed as before. -/
theorem State.busReads_afterWord (hs : s.Inv) {chamber : Bool} {a : Nat} {t : Bytes} :
    (s.afterWord sl q id).busReads sl q chamber a t ↔ s.busReads sl q chamber a t :=
  State.busReads_congr (State.Agree.afterWord (π := SliceState.busView) (fun _ _ => rfl) id sl)
    ((congrArg Quad.sampled (State.afterWord_quad hs id)).trans (Quad.goTo_agree (π := Quad.sampled) (fun _ _ _ => rfl) _ _))

theorem Quad.array_setReg (k : Quad) (n : Nat) (v : Word) (b : Nat) : (k.setReg n v).array b = k.array b := by
  unfold Quad.setReg
  split <;> rfl

theorem State.afterWord_quad_array (hs : s.Inv) (b : Nat) : ((s.afterWord sl q id).quad sl q).array b = (s.quad sl q).array b := by
  rw [State.afterWord_quad hs]
  exact State.afterWord_array b

theorem execWload_loads (hs : s.Inv) (hw : s.QuadIssues sl q w) (hc : qCode w = 0x30) (harr : qArrays w ≠ []) (ts : List Bytes)
    (hlen : ts.length = ((s.quad sl q).reg (qB w)).toNat)
    (h : ∀ i, i < ts.length →
      s.busReads sl q (bit (qFn w) 0) (((s.quad sl q).reg (qA w)).toNat + ((ts.take i).map List.length).sum) (ts.getD i []) ∧ tileCrcOk (ts.getD i []) = true) :
    ∃ t : State, exec (.wload { on := sl } q) s = .next t ∧ (t.sl sl).mem = (s.sl sl).mem ∧
      (t.sl sl).arr.tilesLoaded = (s.sl sl).arr.tilesLoaded + ts.length ∧
      (qD w ≠ 0 → (t.quad sl q).reg (qD w) = BitVec.ofNat 64 (((s.quad sl q).reg (qA w)).toNat + (ts.map List.length).sum)) ∧
      (∀ i, i < ts.length → ts.length ≤ i + (qArrays w).length →
        ((t.quad sl q).array ((qArrays w).getD (i % (qArrays w).length) 0)).shadow = some { bytes := ts.getD i [], poison := none }) ∧
      ∀ b, ((t.quad sl q).array b).active = ((s.quad sl q).array b).active ∧ ((t.quad sl q).array b).slots = ((s.quad sl q).array b).slots := by
  have hv := hs.afterWord (sl := sl) (q := q)
  have hrun := State.busFrom_run (pc := (s.quad sl q).pc) hv harr ts (fun i hi => (h i hi).imp_left (State.busReads_afterWord hs).2) 0 ts.length (Nat.zero_add _)
  have hexec := execWload_eq hw hc
  rw [← hlen] at hexec
  have hexec : exec (.wload { on := sl } q) s = .next (((s.afterWord sl q id).busTiles sl q (qArrays w) ts ts.length).onQuad sl q fun j =>
      j.setReg (qD w) (BitVec.ofNat 64 (((s.quad sl q).reg (qA w)).toNat + (ts.map List.length).sum))) := by
    rw [hexec]
    exact congrArg (fun r => Host.Outcome.next (match r with
      | .done t a => t.onQuad sl q fun j => j.setReg (qD w) (BitVec.ofNat 64 a)
      | .early t => let r := t.takeFree; r.2.onQuad sl q fun j => j.setReg (qD w) r.1
      | .bounds t => t.segmentFault sl q none (s.quad sl q).pc qfAddrBounds)) hrun
  have hu := State.Inv.busTiles (sl := sl) (q := q) (arrs := qArrays w) hv ts ts.length
  obtain ⟨hview, hcount, -, hactive⟩ := State.busTiles_spec (sl := sl) (q := q) (arrs := qArrays w) hv ts ts.length
  have hquad := State.quad_onQuad hu sl q fun j => j.setReg (qD w) (BitVec.ofNat 64 (((s.quad sl q).reg (qA w)).toNat + (ts.map List.length).sum))
  have hmem0 : ((s.afterWord sl q id).sl sl).mem = (s.sl sl).mem := State.Agree.afterWord (π := SliceState.mem) (fun _ _ => rfl) id sl
  have harr0 : ((s.afterWord sl q id).sl sl).arr = (s.sl sl).arr := State.Agree.afterWord (π := SliceState.arr) (fun _ _ => rfl) id sl
  have hput : State.Agree (fun x => (x.mem, x.arr)) ((s.afterWord sl q id).busTiles sl q (qArrays w) ts ts.length)
    (((s.afterWord sl q id).busTiles sl q (qArrays w) ts ts.length).onQuad sl q fun j =>
      j.setReg (qD w) (BitVec.ofNat 64 (((s.quad sl q).reg (qA w)).toNat + (ts.map List.length).sum))) := .onSl fun _ => rfl
  have hput := hput sl
  simp only [Prod.mk.injEq] at hput
  refine ⟨_, hexec, hput.1.trans ((congrArg Prod.fst hview).trans hmem0), ?_, fun hd => ?_, fun i hi him => ?_, fun b => ?_⟩
  · rw [hput.2, hcount, harr0]
  · rw [hquad]
    exact Quad.reg_setReg _ _ hd (by rw [(hu.quad sl q).1]; exact bits_lt _ _ _)
  · rw [hquad, Quad.array_setReg]
    exact State.busTiles_shadow hv (fun _ hb => qArrays_lt hb) (qArrays_nodup w) ts ts.length hi him
  · rw [hquad, Quad.array_setReg, ← State.afterWord_quad_array hs]
    exact hactive b

/-- The bus has left a bad tile in the shadow of an array, and the fault is counted. -/
def State.busBad (v : State) (sl : SliceId) (q : QuadId) (c : Nat) (z : Tile) (pc code : Nat) (count : ArrayCounters → ArrayCounters) : State :=
  ((v.setShadow sl q c z).quadFault sl q (some c) pc code).onSl sl fun y => { y with arr := count y.arr }

theorem State.busBad_spec {v : State} (hv : v.Inv) (sl : SliceId) (q : QuadId) {c : Nat} (hc : c < 4) (z : Tile) (pc code : Nat)
    (count : ArrayCounters → ArrayCounters) {β : Type} {π : ArrayCounters → β} (h : ∀ r n l, π (count { r with quadFaults := n, quadLastFault := l }) = π (count r)) :
    let u := v.busBad sl q c z pc code count
    u.Inv ∧ ((u.quad sl q).array c).shadow = some z ∧ (u.quad sl q).st = (v.quad sl q).st ∧ π (u.sl sl).arr = π (count (v.sl sl).arr) := by
  have h1 : (v.setShadow sl q c z).Inv := (State.Keeps.setShadow ..).2 hv
  have h2 : ((v.setShadow sl q c z).quadFault sl q (some c) pc code).Inv := (State.Keeps.quadFault ..).2 h1
  have hq1 : (v.setShadow sl q c z).quad sl q = (v.quad sl q).onArray c fun y => y.loaded z := State.quad_onQuad hv sl q _
  have hq2 : State.Agree (fun x => x.quad q) (v.setShadow sl q c z) (v.busBad sl q c z pc code count) :=
    .comp (.onSl fun _ => rfl) (.quadFault fun _ _ _ => rfl)
  have hquad : (v.busBad sl q c z pc code count).quad sl q = (v.quad sl q).onArray c fun y => y.loaded z := (hq2 sl).trans hq1
  have harrays : c < (v.quad sl q).arrays.length := (hv.quad sl q).2.1.symm ▸ hc
  refine ⟨(State.Keeps.onSl _ _ fun _ h => h.update rfl rfl rfl).2 h2, ?_, ?_, ?_⟩
  · rw [hquad, Quad.array_onArray_same harrays, Array.loaded_shadow]
  · rw [hquad]; rfl
  · unfold State.busBad
    rw [State.onSl_sl_self _ _ _ (h2.1.1.symm ▸ sl.isLt)]
    unfold State.quadFault
    dsimp only
    rw [State.onSl_sl_self]
    · have harr : State.Agree SliceState.arr v ((v.setShadow sl q c z).report sl
          (mkReport 0x08 1 (8 * q.val + ((v.setShadow sl q c z).sl sl).physArray q c) 0 (((v.setShadow sl q c z).sl sl).quad q).ctx
            [code, q, ((v.setShadow sl q c z).sl sl).physArray q c, pc])) := .comp (.report fun _ _ => rfl) (.onSl fun _ => rfl)
      have harr := harr sl
      refine (h _ _ _).trans ?_
      exact congrArg (fun r => π (count r)) harr
    · unfold State.report
      rw [State.onSl_length]
      exact h1.1.1.symm ▸ sl.isLt

/-- A tile whose CRC fails leaves its shadow poisoned, and the bus goes on behind it. -/
theorem State.busFrom_crc {v : State} {chamber : Bool} {c : Nat} {cs : List Nat} {pc a : Nat} {b : Bytes} (ht : v.busReads sl q chamber a b)
    (hcrc : tileCrcOk b = false) :
    v.busFrom sl q chamber (c :: cs) pc 1 1 a =
      .done (v.busBad sl q c { bytes := b, poison := some Status.checksum.code } pc qfTileCrc fun r => { r with tileCrcFails := r.tileCrcFails + 1 })
        (a + b.length) := by
  obtain ⟨p, p0, hp, hb, hp0, hb0, hok, hlen, -⟩ := ht
  have hat : ∀ m, (if chamber = true then (ownChamber q a m).map fun p => [(p, m)] else (v.sl sl).quadHbm ((v.sl sl).quad q) a m) =
    v.busPlace sl q chamber a m := fun _ => rfl
  unfold State.busFrom State.busBad
  dsimp only
  rw [hat, hp0]
  dsimp only
  rw [hb0, hok, hat, ← hlen, hp]
  dsimp only
  rw [hb, hcrc]
  rfl

/-- A tile without a valid header ends the run, with FAULT in the shadow of its array. -/
theorem State.busFrom_header {v : State} {chamber : Bool} {c : Nat} {cs : List Nat} {pc a : Nat} {p : Parts} (hp : v.busPlace sl q chamber a 32 = some p)
    (hok : tileHeaderOk (leNat ((v.sl sl).loadRanges p)) = false) :
    v.busFrom sl q chamber (c :: cs) pc 1 1 a =
      .early (v.busBad sl q c { bytes := zeros 32, poison := some Status.fault.code } pc qfTileHeader fun r =>
        { r with tileHeaderFaults := r.tileHeaderFaults + 1 }) := by
  have hat : ∀ m, (if chamber = true then (ownChamber q a m).map fun p => [(p, m)] else (v.sl sl).quadHbm ((v.sl sl).quad q) a m) =
    v.busPlace sl q chamber a m := fun _ => rfl
  have habsent : v.absentTiles sl q (c :: cs) 0 1 Status.fault.code = v.setShadow sl q c { bytes := zeros 32, poison := some Status.fault.code } := by
    unfold State.absentTiles
    have hmin : min (1 - 0) (c :: cs).length = 1 := by simp
    rw [hmin]
    simp [List.range_succ]
  unfold State.busFrom State.busBad
  dsimp only
  rw [hat, hp]
  dsimp only
  rw [hok, ← habsent]
  rfl

/-- What a write of a quad's register leaves. -/
theorem State.setQuadReg_spec {u : State} (hu : u.Inv) (sl : SliceId) (q : QuadId) (n : Nat) (v : Word) :
    let t := u.onQuad sl q fun j => j.setReg n v
    (∀ b, (t.quad sl q).array b = (u.quad sl q).array b) ∧ (t.quad sl q).st = (u.quad sl q).st ∧ (t.sl sl).arr = (u.sl sl).arr := by
  have harr : State.Agree SliceState.arr u (u.onQuad sl q fun j => j.setReg n v) := .onSl fun _ => rfl
  dsimp only
  rw [State.quad_onQuad hu, harr sl]
  refine ⟨fun b => Quad.array_setReg _ _ _ b, ?_, rfl⟩
  unfold Quad.setReg
  split <;> rfl

theorem State.afterWord_running (hs : s.Inv) (hw : s.QuadIssues sl q w) : ((s.afterWord sl q id).quad sl q).st = .running :=
  (congrArg Quad.st (State.afterWord_quad hs id)).trans ((Quad.goTo_agree (π := Quad.st) (fun _ _ _ => rfl) _ _).trans hw.1)

theorem execWload_crc (hs : s.Inv) (hw : s.QuadIssues sl q w) (hc : qCode w = 0x30) (hn : ((s.quad sl q).reg (qB w)).toNat = 1) {c : Nat} {cs : List Nat}
    {b : Bytes} (harr : qArrays w = c :: cs) (hb : s.busReads sl q (bit (qFn w) 0) ((s.quad sl q).reg (qA w)).toNat b) (hcrc : tileCrcOk b = false) :
    ∃ t : State, exec (.wload { on := sl } q) s = .next t ∧
      ((t.quad sl q).array c).shadow = some { bytes := b, poison := some Status.checksum.code } ∧
      (t.sl sl).arr.tileCrcFails = (s.sl sl).arr.tileCrcFails + 1 ∧ (t.sl sl).arr.tilesLoaded = (s.sl sl).arr.tilesLoaded ∧
      (t.quad sl q).st = .running := by
  have hv := hs.afterWord (sl := sl) (q := q)
  have hexec := execWload_eq hw hc
  rw [hn, harr, State.busFrom_crc ((State.busReads_afterWord hs).2 hb) hcrc] at hexec
  have hlt : c < 4 := qArrays_lt (harr ▸ List.mem_cons_self ..)
  obtain ⟨hu, hsh, hst, hcount⟩ := State.busBad_spec hv sl q hlt { bytes := b, poison := some Status.checksum.code } (s.quad sl q).pc qfTileCrc
    (fun r => { r with tileCrcFails := r.tileCrcFails + 1 }) (π := fun r => (r.tileCrcFails, r.tilesLoaded)) (fun _ _ _ => rfl)
  have harr0 : ((s.afterWord sl q id).sl sl).arr = (s.sl sl).arr := State.Agree.afterWord (π := SliceState.arr) (fun _ _ => rfl) id sl
  obtain ⟨harray, hst', harr'⟩ := State.setQuadReg_spec hu sl q (qD w) (BitVec.ofNat 64 (((s.quad sl q).reg (qA w)).toNat + b.length))
  simp only [Prod.mk.injEq] at hcount
  refine ⟨_, hexec, ?_, ?_, ?_, ?_⟩
  · rw [harray]; exact hsh
  · rw [harr', hcount.1, harr0]
  · rw [harr', hcount.2, harr0]
  · rw [hst', hst]; exact State.afterWord_running hs hw

theorem State.takeFree_sl (u : State) (i : Nat) : u.takeFree.2.sl i = u.sl i := rfl
theorem State.takeFree_quad (u : State) (i j : Nat) : u.takeFree.2.quad i j = u.quad i j := rfl

theorem execWload_header (hs : s.Inv) (hw : s.QuadIssues sl q w) (hc : qCode w = 0x30) (hn : ((s.quad sl q).reg (qB w)).toNat = 1) {c : Nat} {cs : List Nat}
    {p : Parts} (harr : qArrays w = c :: cs) (hp : s.busPlace sl q (bit (qFn w) 0) ((s.quad sl q).reg (qA w)).toNat 32 = some p)
    (hok : tileHeaderOk (leNat ((s.sl sl).loadRanges p)) = false) :
    ∃ t : State, exec (.wload { on := sl } q) s = .next t ∧
      (((t.quad sl q).array c).shadow.bind fun z => z.poison) = some Status.fault.code ∧
      (t.sl sl).arr.tileHeaderFaults = (s.sl sl).arr.tileHeaderFaults + 1 ∧ (t.quad sl q).st = .running := by
  have hv := hs.afterWord (sl := sl) (q := q)
  have hplace := State.busPlace_congr (u := s.afterWord sl q id) (v := s) (sl := sl) (q := q) (chamber := bit (qFn w) 0)
    (State.Agree.afterWord (π := SliceState.tiers) (fun _ _ => rfl) id sl)
    ((congrArg Quad.sampled (State.afterWord_quad hs id)).trans (Quad.goTo_agree (π := Quad.sampled) (fun _ _ _ => rfl) _ _))
  have hmem0 : ((s.afterWord sl q id).sl sl).mem = (s.sl sl).mem := State.Agree.afterWord (π := SliceState.mem) (fun _ _ => rfl) id sl
  have hload : ((s.afterWord sl q id).sl sl).loadRanges p = (s.sl sl).loadRanges p := by
    unfold SliceState.loadRanges SliceState.load
    rw [hmem0]
  have hexec := execWload_eq hw hc
  rw [hn, harr, State.busFrom_header (hplace ▸ hp) (hload ▸ hok)] at hexec
  have hlt : c < 4 := qArrays_lt (harr ▸ List.mem_cons_self ..)
  obtain ⟨hu, hsh, hst, hcount⟩ := State.busBad_spec hv sl q hlt { bytes := zeros 32, poison := some Status.fault.code } (s.quad sl q).pc qfTileHeader
    (fun r => { r with tileHeaderFaults := r.tileHeaderFaults + 1 }) (π := fun r => r.tileHeaderFaults) (fun _ _ _ => rfl)
  have harr0 : ((s.afterWord sl q id).sl sl).arr = (s.sl sl).arr := State.Agree.afterWord (π := SliceState.arr) (fun _ _ => rfl) id sl
  obtain ⟨harray, hst', harr'⟩ := State.setQuadReg_spec ((State.Keeps.takeFree _).2 hu) sl q (qD w) (State.takeFree _).1
  refine ⟨_, hexec, ?_, ?_, ?_⟩
  · rw [harray, State.takeFree_quad, hsh]; rfl
  · rw [harr', State.takeFree_sl, hcount, harr0]
  · rw [hst', State.takeFree_quad, hst, State.afterWord_running hs hw]

end

/-- Settles O23: a run of good tiles by induction on the tiles, the bad tiles and the words of SWAP and ROWCOPY by their equations. -/
theorem quadWeightBus : Obligations.QuadWeightBus := by
  unfold Obligations.QuadWeightBus
  intro s sl q w hs hw k x arrs a n place one
  refine ⟨fun hc harr ts hlen h => ?_, fun hc hn c cs b harr hb hcrc => execWload_crc hs hw hc hn harr hb hcrc,
    fun hc hn c cs p harr hp hok => execWload_header hs hw hc hn harr hp hok, fun hc hfull => ?_, fun hc hempty => execSwap_empty hs hw hc hempty,
    fun hc p d hp hd => execRowcopy_copies hs hw hc hp hd, fun hc h => execRowcopy_bounds hs hw hc h, fun bad => rfl⟩
  · obtain ⟨t, ht, hmem, hcount, hreg, hshadow, hactive⟩ := execWload_loads hs hw hc harr ts hlen fun i hi => h i (hlen ▸ hi)
    exact ⟨t, ht, hmem, hlen ▸ hcount, hreg, fun i hi him => hshadow i (hlen ▸ hi) (hlen ▸ him), hactive⟩
  · obtain ⟨t, ht, honly, hmem, hregs, harray⟩ := execSwap_swaps hs hw hc hfull
    refine ⟨t, ht, honly, hmem, hregs, fun i => ?_⟩
    rw [harray i]
    by_cases hi : i ∈ qArrays w
    · rw [if_pos hi, if_pos hi]; exact ⟨rfl, rfl, rfl⟩
    · rw [if_neg hi, if_neg hi]; exact ⟨rfl, rfl, rfl⟩

end Sys2Proof.Machine
end

section
/-! SUPPORT. What a stream does to an array. -/

namespace Sys2Proof.Machine

/-! ### The accumulator slots of an array -/

theorem Array.slot_onSlot_same {y : Array} {n : Nat} (h : n < y.slots.length) (f : AccSlot → AccSlot) : (y.onSlot n f).slot n = f (y.slot n) := by
  simp [Array.slot, Array.onSlot, List.getD, h]

theorem Array.slot_onSlot_of_ne (y : Array) {n m : Nat} (h : m ≠ n) (f : AccSlot → AccSlot) : (y.onSlot n f).slot m = y.slot m := by
  simp [Array.slot, Array.onSlot, List.getD, Ne.symm h]

@[simp] theorem Array.onSlot_active (y : Array) (n : Nat) (f : AccSlot → AccSlot) : (y.onSlot n f).active = y.active := rfl
@[simp] theorem Array.onSlot_shadow (y : Array) (n : Nat) (f : AccSlot → AccSlot) : (y.onSlot n f).shadow = y.shadow := rfl

/-- A change of the arrays that a list names, each once: each is changed as the list says, and the others are as they were. -/
theorem Quad.array_onArrays {α : Type} (key : α → Nat) (f : α → Array → Array) (l : List α) (k : Quad) (hnd : (l.map key).Nodup)
    (hlt : ∀ a ∈ l, key a < k.arrays.length) :
    (∀ a ∈ l, (l.foldl (fun z a => z.onArray (key a) (f a)) k).array (key a) = f a (k.array (key a))) ∧
    ∀ i, i ∉ l.map key → (l.foldl (fun z a => z.onArray (key a) (f a)) k).array i = k.array i := by
  induction l generalizing k with
  | nil => exact ⟨fun _ h => absurd h List.not_mem_nil, fun _ _ => rfl⟩
  | cons a l ih =>
    obtain ⟨hna, hnd⟩ := List.nodup_cons.1 (List.map_cons ▸ hnd)
    have hlen : (k.onArray (key a) (f a)).arrays.length = k.arrays.length := by simp [Quad.onArray]
    obtain ⟨hin, hout⟩ := ih (k.onArray (key a) (f a)) hnd fun b hb => hlen.symm ▸ hlt b (List.mem_cons_of_mem _ hb)
    rw [List.foldl_cons]
    refine ⟨fun b hb => ?_, fun i hi => ?_⟩
    · obtain rfl | hb := List.mem_cons.1 hb
      · rw [hout _ hna, Quad.array_onArray_same (hlt b (List.mem_cons_self ..))]
      · have hne : key b ≠ key a := fun h => hna (h ▸ List.mem_map_of_mem hb)
        rw [hin b hb, Quad.array_onArray_of_ne _ hne]
    · rw [List.map_cons, List.mem_cons, not_or] at hi
      rw [hout i hi.2, Quad.array_onArray_of_ne _ hi.1]

/-! ### What a stream does to an array -/

section
variable {y : Array} {fmt slot : Nat} {acc wide trans : Bool} {rows : Nat → List (List Num)} {tile : Tile}

/-- A stream changes slots alone, and of them those that it names. -/
theorem Array.stream_frame :
    (y.stream fmt slot acc wide trans rows).1.active = y.active ∧ (y.stream fmt slot acc wide trans rows).1.shadow = y.shadow ∧
    ∀ m, m ≠ slot → m ≠ slot + 1 → (y.stream fmt slot acc wide trans rows).1.slot m = y.slot m := by
  have hfold : ∀ {α : Type} (key : α → Nat) (f : α → AccSlot → AccSlot) (l : List α) (hl : ∀ a ∈ l, key a = slot ∨ key a = slot + 1) (z : Array),
      (l.foldl (fun z n => z.onSlot (key n) (f n)) z).active = z.active ∧ (l.foldl (fun z n => z.onSlot (key n) (f n)) z).shadow = z.shadow ∧
      ∀ m, m ≠ slot → m ≠ slot + 1 → (l.foldl (fun z n => z.onSlot (key n) (f n)) z).slot m = z.slot m := by
    intro α key f l hl
    induction l with
    | nil => exact fun z => ⟨rfl, rfl, fun _ _ _ => rfl⟩
    | cons a l ih =>
      intro z
      obtain ⟨ha, hs, hm⟩ := ih (fun b hb => hl b (List.mem_cons_of_mem _ hb)) (z.onSlot (key a) (f a))
      refine ⟨ha, hs, fun m h1 h2 => (hm m h1 h2).trans (Array.slot_onSlot_of_ne _ ?_ _)⟩
      obtain h | h := hl a (List.mem_cons_self ..)
      · rw [h]; exact h1
      · rw [h]; exact h2
  have hslots : ∀ h, ∀ n ∈ streamSlots h trans slot, n = slot ∨ n = slot + 1 := by
    intro h n hn
    unfold streamSlots at hn
    split at hn <;> simp_all
  unfold Array.stream
  dsimp only
  split
  · exact hfold id (fun _ a => { a with poison := some Status.fault.code, dirty := true }) [slot] (by simp) y
  · next t _ =>
    split
    · next c _ => exact hfold id (fun _ a => { a with poison := some c, dirty := true, tileId := thId _, next := 127 }) _ (hslots _) y
    · split
      · exact hfold id (fun _ a => { a with poison := some Status.fault.code, dirty := true }) [slot] (by simp) y
      · split
        · exact hfold id (fun _ a => { (a.note _ acc) with vals := if acc then a.vals else [] }) [slot] (by simp) y
        · exact hfold Prod.fst (fun n a => (a.note _ acc).put acc n.2) _ (fun n hn => hslots _ _ (List.of_mem_zip hn).1) y

theorem Array.stream_no_tile (hl : slot < y.slots.length) (h : y.active = none) :
    ((y.stream fmt slot acc wide trans rows).1.slot slot).poison = some Status.fault.code := by
  unfold Array.stream
  rw [h]
  show ((y.onSlot slot _).slot slot).poison = _
  rw [Array.slot_onSlot_same hl]

theorem Array.stream_poisoned (hl : slot < y.slots.length) (h : y.active = some tile) {c : Nat} (hc : tile.poison = some c) :
    ((y.stream fmt slot acc wide trans rows).1.slot slot).poison = some c ∧
    ((y.stream fmt slot acc wide trans rows).1.slot slot).vals = (y.slot slot).vals := by
  unfold Array.stream
  rw [h]
  dsimp only
  rw [hc]
  dsimp only
  unfold streamSlots
  split
  · show (((y.onSlot slot _).onSlot (slot + 1) _).slot slot).poison = _ ∧ (((y.onSlot slot _).onSlot (slot + 1) _).slot slot).vals = _
    rw [Array.slot_onSlot_of_ne _ (Nat.ne_of_lt (Nat.lt_succ_self _)), Array.slot_onSlot_same hl]
    exact ⟨rfl, rfl⟩
  · show ((y.onSlot slot _).slot slot).poison = _ ∧ ((y.onSlot slot _).slot slot).vals = _
    rw [Array.slot_onSlot_same hl]
    exact ⟨rfl, rfl⟩

theorem Array.stream_mismatch (hl : slot < y.slots.length) (h : y.active = some tile) (hc : tile.poison = none)
    (hf : streamFits (leNat (tile.bytes.take 32)) fmt wide trans slot = false) :
    ((y.stream fmt slot acc wide trans rows).1.slot slot).poison = some Status.fault.code ∧
    ((y.stream fmt slot acc wide trans rows).1.slot slot).vals = (y.slot slot).vals := by
  unfold Array.stream
  rw [h]
  dsimp only
  rw [hc, hf]
  show ((y.onSlot slot _).slot slot).poison = _ ∧ ((y.onSlot slot _).slot slot).vals = _
  rw [Array.slot_onSlot_same hl]
  exact ⟨rfl, rfl⟩

section
variable (hl : slot < y.slots.length) (h : y.active = some tile) (hc : tile.poison = none)
  (hf : streamFits (leNat (tile.bytes.take 32)) fmt wide trans slot = true)
include hl h hc hf

theorem Array.stream_zero (hz : thForm (leNat (tile.bytes.take 32)) = formZero) :
    (y.stream fmt slot acc wide trans rows).1.slot slot =
      { ((y.slot slot).note (leNat (tile.bytes.take 32)) acc) with vals := if acc then (y.slot slot).vals else [] } := by
  unfold Array.stream
  rw [h]
  dsimp only
  rw [hc, hf, hz]
  show (y.onSlot slot _).slot slot = _
  rw [Array.slot_onSlot_same hl]

omit hl in
theorem Array.stream_sums (hz : thForm (leNat (tile.bytes.take 32)) ≠ formZero) :
    (y.stream fmt slot acc wide trans rows).1 =
      ((streamSlots (leNat (tile.bytes.take 32)) trans slot).zip (streamSums tile.bytes trans (rows (if wide then 256 else 128)))).foldl
        (fun z n => z.onSlot n.1 fun a => (a.note (leNat (tile.bytes.take 32)) acc).put acc n.2) y := by
  unfold Array.stream
  rw [h]
  dsimp only
  rw [hc, hf]
  dsimp only
  rw [if_neg (by simp), if_neg hz]

/-- A forward stream adds or puts its sums in its slot. -/
theorem Array.stream_forward (hz : thForm (leNat (tile.bytes.take 32)) ≠ formZero) (ht : trans = false) :
    let z := (y.stream fmt slot acc wide trans rows).1
    z.slot slot = ((y.slot slot).note (leNat (tile.bytes.take 32)) acc).put acc
      ((rows (if wide then 256 else 128)).map (forwardRow (thForm (leNat (tile.bytes.take 32))) (transpose 128 (tileRows tile.bytes)))) ∧
    z.slot (slot + 1) = y.slot (slot + 1) := by
  subst ht
  rw [Array.stream_sums h hc hf hz]
  show (y.onSlot slot _).slot slot = _ ∧ (y.onSlot slot _).slot (slot + 1) = _
  rw [Array.slot_onSlot_same hl, Array.slot_onSlot_of_ne _ (Nat.succ_ne_self _)]
  exact ⟨rfl, rfl⟩

/-- A transposed stream of a dense tile adds or puts its outputs in its slot. -/
theorem Array.stream_dense (hd : thForm (leNat (tile.bytes.take 32)) = formDense) (ht : trans = true) (hw : wide = false) :
    (y.stream fmt slot acc wide trans rows).1.slot slot = ((y.slot slot).note (leNat (tile.bytes.take 32)) acc).put acc
      ((rows 128).map (transposedOut formDense (tileRows tile.bytes))) := by
  subst ht hw
  rw [Array.stream_sums h hc hf (by rw [hd]; decide)]
  unfold streamSlots streamSums
  rw [hd]
  show (y.onSlot slot _).slot slot = _
  rw [Array.slot_onSlot_same hl]
  rfl

/-- A transposed stream of a 2:4 tile adds or puts its outputs in two slots. -/
theorem Array.stream_sparse (hl1 : slot + 1 < y.slots.length) (hd : thForm (leNat (tile.bytes.take 32)) = formSparse) (ht : trans = true)
    (hw : wide = false) :
    let z := (y.stream fmt slot acc wide trans rows).1
    let outs := (rows 128).map (transposedOut formSparse (tileRows tile.bytes))
    z.slot slot = ((y.slot slot).note (leNat (tile.bytes.take 32)) acc).put acc (outs.map (·.take 128)) ∧
    z.slot (slot + 1) = ((y.slot (slot + 1)).note (leNat (tile.bytes.take 32)) acc).put acc (outs.map (·.drop 128)) := by
  subst ht hw
  rw [Array.stream_sums h hc hf (by rw [hd]; decide)]
  unfold streamSlots streamSums
  rw [hd]
  show ((y.onSlot slot _).onSlot (slot + 1) _).slot slot = _ ∧ ((y.onSlot slot _).onSlot (slot + 1) _).slot (slot + 1) = _
  rw [Array.slot_onSlot_of_ne _ (Nat.ne_of_lt (Nat.lt_succ_self _)), Array.slot_onSlot_same hl,
    Array.slot_onSlot_same (by rw [Array.onSlot_length]; exact hl1), Array.slot_onSlot_of_ne _ (Nat.succ_ne_self _)]
  exact ⟨rfl, rfl⟩

end

end

end Sys2Proof.Machine
end

section
/-! SUPPORT. STREAM and ACCLOAD on the arrays of a quad. -/

namespace Sys2Proof.Machine

/-! ### O24: STREAM and ACCLOAD -/

theorem Quad.onArray_congr {k : Quad} {a : Nat} {f g : Array → Array} (h : f (k.array a) = g (k.array a)) : k.onArray a f = k.onArray a g := by
  unfold Quad.onArray
  rw [List.modify_congr_getD h]

/-- How a STREAM runs: its format, its slot, how it adds, how wide it is, whether it is transposed, and its rows. -/
structure StreamForm where
  fmt : Nat
  slot : Nat
  acc : Bool
  wide : Bool
  trans : Bool
  rows : Nat → List (List Num)

def StreamForm.on (g : StreamForm) (y : Array) : Array × Bool := y.stream g.fmt g.slot g.acc g.wide g.trans g.rows

/-- One array has streamed; a mismatch is a fault of its quad. -/
def State.streamArray (t : State) (sl : SliceId) (q : QuadId) (pc : Nat) (g : StreamForm) (a : Nat) : State :=
  let r := g.on ((t.quad sl q).array a)
  let t1 := t.onQuad sl q fun j => j.onArray a fun _ => r.1
  if r.2 then t1.quadFault sl q (some a) pc qfTileForm else t1

section
variable {s t : State} {sl : SliceId} {q : QuadId} {w : Nat}

theorem State.streamArray_spec (ht : t.Inv) (pc : Nat) (g : StreamForm) (a : Nat) :
    let u := t.streamArray sl q pc g a
    u.Inv ∧ u.quad sl q = (t.quad sl q).onArray a (fun y => (g.on y).1) ∧ (u.sl sl).mem = (t.sl sl).mem := by
  have h1 : t.onQuad sl q (fun j => j.onArray a fun _ => (g.on ((t.quad sl q).array a)).1) = t.onQuad sl q fun j => j.onArray a fun y => (g.on y).1 :=
    State.onQuad_congr (Quad.onArray_congr rfl)
  have h2 : (t.onQuad sl q fun j => j.onArray a fun y => (g.on y).1).Inv :=
    (State.Keeps.onQuad _ _ _ fun _ hk => .onArray hk _ fun y hy => (Array.stream_length ..).trans hy).2 ht
  have h3 := State.quad_onQuad ht sl q fun j => j.onArray a fun y => (g.on y).1
  have hmem : State.Agree SliceState.mem t (t.onQuad sl q fun j => j.onArray a fun y => (g.on y).1) := .onSl fun _ => rfl
  unfold State.streamArray
  dsimp only
  rw [h1]
  split
  · have hq : State.Agree (fun x => (x.quad q, x.mem)) (t.onQuad sl q fun j => j.onArray a fun y => (g.on y).1)
      ((t.onQuad sl q fun j => j.onArray a fun y => (g.on y).1).quadFault sl q (some a) pc qfTileForm) := .quadFault fun _ _ _ => rfl
    have hq := hq sl
    simp only [Prod.mk.injEq] at hq
    exact ⟨(State.Keeps.quadFault ..).2 h2, hq.1.trans h3, hq.2.trans (hmem sl)⟩
  · exact ⟨h2, h3, hmem sl⟩

theorem State.streamArrays_spec (ht : t.Inv) (pc : Nat) (g : StreamForm) (arrs : List Nat) :
    let u := arrs.foldl (fun v a => v.streamArray sl q pc g a) t
    u.quad sl q = arrs.foldl (fun k a => k.onArray a fun y => (g.on y).1) (t.quad sl q) ∧ (u.sl sl).mem = (t.sl sl).mem := by
  induction arrs generalizing t with
  | nil => exact ⟨rfl, rfl⟩
  | cons a arrs ih =>
    obtain ⟨hinv, hquad, hmem⟩ := State.streamArray_spec (sl := sl) (q := q) ht pc g a
    obtain ⟨hq, hm⟩ := ih hinv
    exact ⟨by rw [List.foldl_cons, hq, hquad]; rfl, hm.trans hmem⟩

/-- The form of the STREAM of a word. -/
def State.streamForm (s : State) (sl : SliceId) (q : QuadId) (w : Nat) (d : RowDesc) : StreamForm :=
  { fmt := d.fmt, slot := bits (qFn w) 6 4, acc := bit (qFn w) 0, wide := bit (qFn w) 2, trans := bit (qFn w) 3
    rows := streamRows (s.sl sl) d (chamberAddr q ((s.quad sl q).reg (qA w)).toNat) (32 * bits (qImm w) 15 0) (32 * bits (qImm w) 31 16) }

theorem State.afterWord_mem (f : Quad → Quad) : ((s.afterWord sl q f).sl sl).mem = (s.sl sl).mem :=
  State.Agree.afterWord (π := SliceState.mem) (fun _ _ => rfl) f sl

theorem execStream_desc (hs : s.Inv) (hw : s.QuadIssues sl q w) (hc : qCode w = 0x41) (hd : rowDesc ((s.quad sl q).reg (qB w)).toNat = none) :
    ∃ t : State, exec (.stream { on := sl } q) s = .next t ∧ s.SegmentEnds t sl q 8 := by
  refine ⟨_, congrArg Host.Outcome.next ((State.issueQuad_runs hw hc).trans ?_), State.segmentFault_ends_afterWord hs (a := none) (pc := (s.quad sl q).pc) (by decide)⟩
  dsimp only
  rw [hd]
  rfl

theorem execStream_bounds (hs : s.Inv) (hw : s.QuadIssues sl q w) (hc : qCode w = 0x41) {d : RowDesc}
    (hd : rowDesc ((s.quad sl q).reg (qB w)).toNat = some d) (hb : 0x1800000 < ((s.quad sl q).reg (qA w)).toNat + d.extent) :
    ∃ t : State, exec (.stream { on := sl } q) s = .next t ∧ s.SegmentEnds t sl q 5 := by
  refine ⟨_, congrArg Host.Outcome.next ((State.issueQuad_runs hw hc).trans ?_), State.segmentFault_ends_afterWord hs (a := none) (pc := (s.quad sl q).pc) (by decide)⟩
  dsimp only
  rw [hd]
  dsimp only
  rw [show ownChamber q ((s.quad sl q).reg (qA w)).toNat d.extent = none from if_neg (Nat.not_le.2 hb)]
  rfl

/-- A STREAM that reads no poisoned word runs on each array of its mask. -/
theorem execStream_runs (hs : s.Inv) (hw : s.QuadIssues sl q w) (hc : qCode w = 0x41) {d : RowDesc}
    (hd : rowDesc ((s.quad sl q).reg (qB w)).toNat = some d) (hb : ((s.quad sl q).reg (qA w)).toNat + d.extent ≤ 0x1800000)
    (hclean : (((qArrays w).any fun i => ((s.quad sl q).array i).issues d.fmt (bits (qFn w) 6 4) (bit (qFn w) 2) (bit (qFn w) 3)) &&
        rowsPoisoned (s.sl sl) d [(chamberAddr q ((s.quad sl q).reg (qA w)).toNat, d.extent)] (32 * bits (qImm w) 15 0)
          (min (if bit (qFn w) 2 then 256 else 128) (32 * bits (qImm w) 31 16 - 32 * bits (qImm w) 15 0))) = false) :
    exec (.stream { on := sl } q) s = .next ((qArrays w).foldl (fun t a => t.streamArray sl q (s.quad sl q).pc (s.streamForm sl q w d) a)
      (s.afterWord sl q id)) := by
  refine congrArg Host.Outcome.next ((State.issueQuad_runs hw hc).trans ?_)
  have hview : ((s.afterWord sl q id).sl sl).busView = (s.sl sl).busView := State.Agree.afterWord (π := SliceState.busView) (fun _ _ => rfl) id sl
  have hpoisoned : ∀ p c n, rowsPoisoned ((s.afterWord sl q id).sl sl) d p c n = rowsPoisoned (s.sl sl) d p c n := fun p c n => by
    unfold SliceState.busView at hview
    simp only [Prod.mk.injEq] at hview
    unfold rowsPoisoned SliceState.poisonedIn SliceState.poisoned
    rw [hview.2.1, hview.2.2.2]
  have hrows : streamRows ((s.afterWord sl q id).sl sl) d = streamRows (s.sl sl) d := by
    unfold streamRows SliceState.load
    rw [State.afterWord_mem]
  have hissues : ((qArrays w).any fun i => (((s.afterWord sl q id).quad sl q).array i).issues d.fmt (bits (qFn w) 6 4) (bit (qFn w) 2) (bit (qFn w) 3)) =
      (qArrays w).any fun i => ((s.quad sl q).array i).issues d.fmt (bits (qFn w) 6 4) (bit (qFn w) 2) (bit (qFn w) 3) := by
    congr 1
    funext i
    rw [State.afterWord_quad_array hs]
  dsimp only
  rw [hd]
  dsimp only
  rw [show ownChamber q ((s.quad sl q).reg (qA w)).toNat d.extent = some _ from if_pos hb]
  dsimp only
  rw [hissues, hpoisoned, hclean, hrows]
  rfl

/-- What a STREAM that runs leaves and changes. -/
theorem execStream_streams (hs : s.Inv) (hw : s.QuadIssues sl q w) (hc : qCode w = 0x41) {d : RowDesc}
    (hd : rowDesc ((s.quad sl q).reg (qB w)).toNat = some d) (hb : ((s.quad sl q).reg (qA w)).toNat + d.extent ≤ 0x1800000)
    (hclean : (((qArrays w).any fun i => ((s.quad sl q).array i).issues d.fmt (bits (qFn w) 6 4) (bit (qFn w) 2) (bit (qFn w) 3)) &&
        rowsPoisoned (s.sl sl) d [(chamberAddr q ((s.quad sl q).reg (qA w)).toNat, d.extent)] (32 * bits (qImm w) 15 0)
          (min (if bit (qFn w) 2 then 256 else 128) (32 * bits (qImm w) 31 16 - 32 * bits (qImm w) 15 0))) = false) :
    ∃ t : State, exec (.stream { on := sl } q) s = .next t ∧ (t.sl sl).mem = (s.sl sl).mem ∧ (t.quad sl q).q = (s.quad sl q).q ∧
      (t.quad sl q).st = .running ∧ (∀ i ∈ qArrays w, (t.quad sl q).array i = ((s.streamForm sl q w d).on ((s.quad sl q).array i)).1) ∧
      ∀ i, i ∉ qArrays w → (t.quad sl q).array i = (s.quad sl q).array i := by
  obtain ⟨hquad, hmem⟩ := State.streamArrays_spec (sl := sl) (q := q) (hs.afterWord (sl := sl) (q := q)) (s.quad sl q).pc (s.streamForm sl q w d) (qArrays w)
  have harrays : ((s.afterWord sl q id).quad sl q).arrays.length = 4 := ((hs.afterWord (sl := sl) (q := q)).quad sl q).2.1
  obtain ⟨hin, hout⟩ := Quad.array_onArrays id (fun _ y => ((s.streamForm sl q w d).on y).1) (qArrays w) ((s.afterWord sl q id).quad sl q)
    (by rw [List.map_id]; exact qArrays_nodup w) fun a ha => harrays.symm ▸ qArrays_lt ha
  have hpart : ∀ {β : Type} {π : Quad → β}, (∀ k z, π { k with arrays := z } = π k) →
      π ((qArrays w).foldl (fun k a => k.onArray a fun y => ((s.streamForm sl q w d).on y).1) ((s.afterWord sl q id).quad sl q)) =
        π ((s.afterWord sl q id).quad sl q) := fun {β} {π} h => foldl_agree (π := π) (fun k a => h k _) _ _
  refine ⟨_, execStream_runs hs hw hc hd hb hclean, hmem.trans (State.afterWord_mem id), ?_, ?_, fun i hi => ?_, fun i hi => ?_⟩
  · rw [hquad, hpart (π := Quad.q) fun _ _ => rfl, State.afterWord_quad hs]
    exact Quad.goTo_agree (π := Quad.q) (fun _ _ _ => rfl) _ _
  · rw [hquad, hpart (π := Quad.st) fun _ _ => rfl, State.afterWord_running hs hw]
  · rw [hquad]
    exact (hin i hi).trans (by rw [id, State.afterWord_quad_array hs])
  · rw [hquad]
    exact (hout i (by rwa [List.map_id])).trans (State.afterWord_quad_array hs i)

/-! ### ACCLOAD -/

/-- A part of a clean range of the chamber stores is clean: no pseudo-channel of HBM lies there. -/
theorem SliceState.poisoned_part {x : SliceState} {p c n m : Nat} (hp : 0x4000000000 ≤ p) (h : x.poisoned p n = false) (hc : c + m ≤ n) :
    x.poisoned (p + c) m = false := by
  unfold SliceState.poisoned at *
  simp only [Bool.or_eq_false_iff, List.any_eq_false, Bool.and_eq_true, decide_eq_true_eq, not_and] at *
  refine ⟨fun w hw h1 h2 => h.1 w hw (by omega) (by omega), fun o ho hin => ?_⟩
  unfold inPch at hin
  simp only [Bool.and_eq_true, decide_eq_true_eq] at hin
  omega

/-- The slot of an array as ACCLOAD fills it. -/
def AccSlot.filled (z : AccSlot) (v : List F32) (bad : Bool) : AccSlot :=
  { z with vals := v, poison := if bad then z.poison else none, next := 127, dirty := true }

/-- The values that ACCLOAD reads at an address. -/
def SliceState.accValues (x : SliceState) (fmt a : Nat) : List F32 := toF32 (rowSpan fmt (2048 * elemBytes fmt) (x.load a (2048 * elemBytes fmt)) 0 2048)

/-- The state once ACCLOAD has filled a slot of each array of its mask. -/
def State.accLoaded (v : State) (sl : SliceId) (q : QuadId) (x : SliceState) (fmt slot p : Nat) (arrs : List Nat) : State :=
  let n := 2048 * elemBytes fmt
  arrs.zipIdx.foldl (fun t a => t.onQuad sl q fun j => j.onArray a.1 fun y => y.onSlot slot fun z =>
    z.filled (x.accValues fmt (p + a.2 * n)) (x.poisoned (p + a.2 * n) n)) v

theorem State.accLoaded_quad {v : State} (hv : v.Inv) (x : SliceState) (fmt slot p : Nat) (arrs : List Nat) :
    let t := v.accLoaded sl q x fmt slot p arrs
    t.quad sl q = arrs.zipIdx.foldl (fun j a => j.onArray a.1 fun y => y.onSlot slot fun z =>
      z.filled (x.accValues fmt (p + a.2 * (2048 * elemBytes fmt))) (x.poisoned (p + a.2 * (2048 * elemBytes fmt)) (2048 * elemBytes fmt))) (v.quad sl q) ∧
    (t.sl sl).mem = (v.sl sl).mem := by
  unfold State.accLoaded
  dsimp only
  generalize arrs.zipIdx = l
  induction l generalizing v with
  | nil => exact ⟨rfl, rfl⟩
  | cons a l ih =>
    have hinv := (State.Keeps.onQuad v sl q (f := fun j => j.onArray a.1 fun y => y.onSlot slot fun z =>
      z.filled (x.accValues fmt (p + a.2 * (2048 * elemBytes fmt))) (x.poisoned (p + a.2 * (2048 * elemBytes fmt)) (2048 * elemBytes fmt)))
      fun _ hk => .onArray hk _ fun y hy => (Array.onSlot_length y _ _).trans hy).2 hv
    obtain ⟨hquad, hmem⟩ := ih hinv
    have hstep : State.Agree SliceState.mem v (v.onQuad sl q fun j => j.onArray a.1 fun y => y.onSlot slot fun z =>
      z.filled (x.accValues fmt (p + a.2 * (2048 * elemBytes fmt))) (x.poisoned (p + a.2 * (2048 * elemBytes fmt)) (2048 * elemBytes fmt))) :=
      .onSl fun _ => rfl
    exact ⟨by rw [List.foldl_cons, List.foldl_cons, hquad, State.quad_onQuad hv], hmem.trans (hstep sl)⟩

end

end Sys2Proof.Machine
end

section
/-! STREAM and ACCLOAD. -/

namespace Sys2Proof.Machine

/-! ### O24: the words STREAM and ACCLOAD -/

section
variable {s : State} {sl : SliceId} {q : QuadId} {w : Nat}

/-- The element format that ACCLOAD reads. -/
def accFmt (w : Nat) : Nat := if bit (qFn w) 0 then 4 else 9

theorem execAccload_bounds (hs : s.Inv) (hw : s.QuadIssues sl q w) (hc : qCode w = 0x42)
    (hb : 0x1800000 < ((s.quad sl q).reg (qA w)).toNat + 2048 * elemBytes (accFmt w) * (qArrays w).length) :
    ∃ t : State, exec (.accload sl q) s = .next t ∧ s.SegmentEnds t sl q 5 := by
  refine ⟨_, congrArg Host.Outcome.next ((State.issueQuad_runs hw hc).trans ?_),
    State.segmentFault_ends_afterWord hs (a := none) (pc := (s.quad sl q).pc) (by decide)⟩
  unfold accFmt at hb
  dsimp only
  rw [show ownChamber q ((s.quad sl q).reg (qA w)).toNat _ = none from if_neg (Nat.not_le.2 hb)]
  rfl

theorem execAccload_eq (hw : s.QuadIssues sl q w) (hc : qCode w = 0x42)
    (hb : ((s.quad sl q).reg (qA w)).toNat + 2048 * elemBytes (accFmt w) * (qArrays w).length ≤ 0x1800000)
    (hclean : (s.sl sl).poisoned (chamberAddr q ((s.quad sl q).reg (qA w)).toNat) (2048 * elemBytes (accFmt w) * (qArrays w).length) = false) :
    exec (.accload sl q) s = .next ((s.afterWord sl q id).accLoaded sl q (s.sl sl) (accFmt w) (bits (qFn w) 6 4)
      (chamberAddr q ((s.quad sl q).reg (qA w)).toNat) (qArrays w)) := by
  refine congrArg Host.Outcome.next ((State.issueQuad_runs hw hc).trans ?_)
  have hview : ((s.afterWord sl q id).sl sl).busView = (s.sl sl).busView := State.Agree.afterWord (π := SliceState.busView) (fun _ _ => rfl) id sl
  unfold SliceState.busView at hview
  simp only [Prod.mk.injEq] at hview
  obtain ⟨hmem, hpoison, -, hspares⟩ := hview
  have hpoisoned : ((s.afterWord sl q id).sl sl).poisoned = (s.sl sl).poisoned := by
    unfold SliceState.poisoned
    rw [hpoison, hspares]
  have hload : ((s.afterWord sl q id).sl sl).load = (s.sl sl).load := by
    unfold SliceState.load
    rw [hmem]
  unfold accFmt at hb hclean ⊢
  dsimp only
  rw [show ownChamber q ((s.quad sl q).reg (qA w)).toNat _ = some _ from if_pos hb]
  dsimp only
  rw [hpoisoned, hload, hclean]
  rfl

/-- ACCLOAD of clean bytes fills one slot of each array of its mask, and changes no other. -/
theorem execAccload_fills (hs : s.Inv) (hw : s.QuadIssues sl q w) (hc : qCode w = 0x42)
    (hb : ((s.quad sl q).reg (qA w)).toNat + 2048 * elemBytes (accFmt w) * (qArrays w).length ≤ 0x1800000)
    (hclean : (s.sl sl).poisoned (chamberAddr q ((s.quad sl q).reg (qA w)).toNat) (2048 * elemBytes (accFmt w) * (qArrays w).length) = false) :
    ∃ t : State, exec (.accload sl q) s = .next t ∧ (t.sl sl).mem = (s.sl sl).mem ∧ (t.quad sl q).q = (s.quad sl q).q ∧
      (∀ m i, (qArrays w)[m]? = some i → (((t.quad sl q).array i).slot (bits (qFn w) 6 4)).poison = none ∧
        (((t.quad sl q).array i).slot (bits (qFn w) 6 4)).vals =
          (s.sl sl).accValues (accFmt w) (chamberAddr q ((s.quad sl q).reg (qA w)).toNat + m * (2048 * elemBytes (accFmt w)))) ∧
      ∀ i j, i ∉ qArrays w ∨ j ≠ bits (qFn w) 6 4 → ((t.quad sl q).array i).slot j = ((s.quad sl q).array i).slot j := by
  have hv := hs.afterWord (sl := sl) (q := q)
  obtain ⟨hquad, hmem⟩ := State.accLoaded_quad (sl := sl) (q := q) hv (s.sl sl) (accFmt w) (bits (qFn w) 6 4)
    (chamberAddr q ((s.quad sl q).reg (qA w)).toNat) (qArrays w)
  have harrays : ((s.afterWord sl q id).quad sl q).arrays.length = 4 := (hv.quad sl q).2.1
  have hfst : (qArrays w).zipIdx.map Prod.fst = qArrays w := List.zipIdx_map_fst _ _
  obtain ⟨hin, hout⟩ := Quad.array_onArrays Prod.fst (fun (a : Nat × Nat) y => y.onSlot (bits (qFn w) 6 4) fun z =>
      z.filled ((s.sl sl).accValues (accFmt w) (chamberAddr q ((s.quad sl q).reg (qA w)).toNat + a.2 * (2048 * elemBytes (accFmt w))))
        ((s.sl sl).poisoned (chamberAddr q ((s.quad sl q).reg (qA w)).toNat + a.2 * (2048 * elemBytes (accFmt w))) (2048 * elemBytes (accFmt w))))
    (qArrays w).zipIdx ((s.afterWord sl q id).quad sl q) (hfst.symm ▸ qArrays_nodup w)
    fun a ha => harrays.symm ▸ qArrays_lt (hfst ▸ List.mem_map_of_mem ha)
  refine ⟨_, execAccload_eq hw hc hb hclean, hmem.trans (State.afterWord_mem id), ?_, fun m i hm => ?_, fun i j hij => ?_⟩
  · rw [hquad, foldl_agree (π := Quad.q) (f := fun j (a : Nat × Nat) => j.onArray a.1 _) (fun _ _ => rfl), State.afterWord_quad hs]
    exact Quad.goTo_agree (π := Quad.q) (fun _ _ _ => rfl) _ _
  · have hmem' : (i, m) ∈ (qArrays w).zipIdx := List.mem_zipIdx_iff_getElem?.2 hm
    have hlt : m < (qArrays w).length := (List.getElem?_eq_some_iff.1 hm).1
    have hslot : bits (qFn w) 6 4 < (((s.afterWord sl q id).quad sl q).array i).slots.length := by
      rw [hv.array sl q i]; exact bits_lt _ _ _
    have hgood : (s.sl sl).poisoned (chamberAddr q ((s.quad sl q).reg (qA w)).toNat + m * (2048 * elemBytes (accFmt w))) (2048 * elemBytes (accFmt w)) =
        false := by
      refine SliceState.poisoned_part ?_ hclean ?_
      · unfold chamberAddr chamberBase; omega
      · calc m * (2048 * elemBytes (accFmt w)) + 2048 * elemBytes (accFmt w) = 2048 * elemBytes (accFmt w) * (m + 1) := by ring
          _ ≤ _ := Nat.mul_le_mul_left _ hlt
    rw [hquad, hin (i, m) hmem', Array.slot_onSlot_same hslot, hgood]
    exact ⟨rfl, rfl⟩
  · rw [hquad, ← State.afterWord_quad_array hs i]
    by_cases hi : i ∈ qArrays w
    · have hj := hij.resolve_left (not_not.2 hi)
      rw [← hfst] at hi
      obtain ⟨a, ha, rfl⟩ := List.mem_map.1 hi
      rw [hin a ha, Array.slot_onSlot_of_ne _ hj]
    · rw [hout i (hfst.symm ▸ hi)]

theorem streamFits_trans {h fmt slot : Nat} {wide trans : Bool} (hf : streamFits h fmt wide trans slot = true) (ht : trans = true) :
    wide = false ∧ (thForm h = formSparse → slot % 2 = 0) := by
  subst ht
  unfold streamFits at hf
  simp only [Bool.and_eq_true, Bool.not_eq_true', Bool.true_and, Bool.and_eq_false_iff, beq_eq_false_iff_ne] at hf
  refine ⟨hf.1.1.2, fun hz => ?_⟩
  have := hf.1.2.resolve_left (not_not.2 hz)
  omega

end

/-- Settles O24: what a stream does to an array case by case, and ACCLOAD array by array. -/
theorem quadStreams : Obligations.QuadStreams := by
  unfold Obligations.QuadStreams
  intro s sl q w hs hw k x arrs a slot acc wide trans
  refine ⟨fun hc hd => execStream_desc hs hw hc hd, fun d hc hd hb => execStream_bounds hs hw hc hd hb, fun d hc hd hb hclean => ?_,
    fun hc => ⟨fun hb hclean => execAccload_fills hs hw hc hb hclean, fun hb => execAccload_bounds hs hw hc hb⟩, fun bad => rfl⟩
  intro rows
  obtain ⟨t, ht, hmem, hregs, hrun, hin, hout⟩ := execStream_streams hs hw hc hd hb hclean
  refine ⟨t, ht, hmem, hregs, hrun, fun i => ?_⟩
  by_cases hi : i ∈ arrs
  · have hl : slot < (k.array i).slots.length := by rw [hs.array sl q i]; exact bits_lt _ _ _
    rw [hin i hi]
    obtain ⟨hactive, hshadow, hother⟩ := Array.stream_frame (y := k.array i) (fmt := d.fmt) (slot := slot) (acc := acc) (wide := wide) (trans := trans)
      (rows := rows)
    refine ⟨hactive, hshadow, fun h => absurd hi h, fun _ => ⟨hother, fun h => Array.stream_no_tile hl h, fun tile h c hp => Array.stream_poisoned hl h hp,
      fun tile h hp => ⟨fun hf => Array.stream_mismatch hl h hp hf, fun hf hz => ?_, fun hf hz htr => ?_, fun hf hz htr => ?_, fun hf hz htr => ?_⟩⟩⟩
    · have hz := Array.stream_zero (rows := rows) (acc := acc) hl h hp hf hz
      exact ⟨congrArg AccSlot.vals hz, congrArg AccSlot.poison hz⟩
    · obtain ⟨h1, h2⟩ := Array.stream_forward (rows := rows) (acc := acc) hl h hp hf hz htr
      exact ⟨h1, fun _ => h2⟩
    · exact Array.stream_dense (rows := rows) (acc := acc) hl h hp hf hz htr (streamFits_trans hf htr).1
    · have heven := (streamFits_trans hf htr).2 hz
      have hl1 : slot + 1 < (k.array i).slots.length := by
        rw [hs.array sl q i] at hl ⊢
        omega
      exact Array.stream_sparse (rows := rows) (acc := acc) hl h hp hf hl1 hz htr (streamFits_trans hf htr).1
  · rw [hout i hi]
    exact ⟨rfl, rfl, fun _ => rfl, fun h => absurd h hi⟩

end Sys2Proof.Machine
end

section
/-! A drain whose FAULT writes memory. -/

namespace Sys2Proof.Machine

/-! ### A drain whose tensor is poisoned beside a request whose ending has not been settled -/

/-- The segment that the witness runs. -/
def drainWitnessRun : Run :=
  { idx := 0, frame := 0, st := .launched, begun := true
    entry := { kind := .quad, unit := .quad 0, launch := 0, duration := 1, due := 0, inputs := [], f := {} } }

/-- A DRAIN of array 0 that adds a tensor: the row block of reg 1, the tensor at reg 2, the destination at reg 3. -/
def drainWitnessWord : Nat := qword 0x50 1 3 2 1 1 0

/-- One row of 32 bytes in format 4. -/
def drainWitnessDesc : RowDesc := { rows := 1, fmt := 4, rowBytes := 32, stride := 32 }

def drainWitnessQuad (k : Quad) : Quad :=
  { k with st := .running, program := [BitVec.ofNat 64 drainWitnessWord]
           q := (k.q.set 1 (BitVec.ofNat 64 (1 + 4 * 2 ^ 5 + 32 * 2 ^ 9 + 2 ^ 27))).set 2 0x1000 }

/-- The slice of the witness: the tensor of the drain is poisoned, and a request has a condition while its row is still valid. -/
def drainWitnessSlice (x : SliceState) : SliceState :=
  { x with
    runs := [drainWitnessRun]
    poison := [chamberAddr 0 0x1000]
    quads := x.quads.modify 0 drainWitnessQuad
    svc := { x.svc with reqs := [panelWitnessRequest], rowmap := [{ valid := true, pos := 1 }] } }

def drainWitness : State := State.reset.onSl 0 drainWitnessSlice

theorem drainWitness_inv : drainWitness.Inv := by
  refine (State.Keeps.onSl State.reset 0 fun x h => ?_).2 resetInv.1
  obtain ⟨hm, he, hq, hl⟩ := h
  refine ⟨hm, he, ⟨by simpa [drainWitnessSlice] using hq.1, forall_mem_modify 0 hq.2 fun k hk => ?_⟩, hl⟩
  exact ⟨by simpa [drainWitnessQuad] using hk.1, hk.2⟩

/-- The FAULT of the tied requests writes the row map, far below the row block. -/
theorem drainWitness_writes : ((Out.after (exec (.drain { on := 0 } 0) drainWitness)).sl (0 : SliceId)).mem.read 2 = 0x40 := by decide +kernel

/-- Refutes O25: the FAULT for a poisoned word of the drain's tensor settles a request that has ended before it, and the row map is written to
memory outside the row block. -/
theorem not_quadDrains : ¬ Obligations.QuadDrains := by
  intro h
  obtain ⟨-, hdrain, -⟩ := h drainWitness 0 0 drainWitnessWord drainWitness_inv (by unfold State.QuadIssues; decide +kernel)
  obtain ⟨t, ht, hsame, -⟩ := hdrain drainWitnessDesc (chamberAddr 0 0) [(chamberAddr 0 0x1000, 512)] (by decide +kernel) (by decide +kernel)
    (fun _ => by decide +kernel) (by decide +kernel) (by decide +kernel)
  have hread := hsame 2 (.inl (by decide))
  have hwrites := drainWitness_writes
  rw [Out.after_next ht, hread] at hwrites
  exact absurd hwrites (by decide +kernel)

end Sys2Proof.Machine
end

section
/-! SUPPORT. The issue of a VOP. -/

namespace Sys2Proof.Machine

/-! ### O26: the vector operations -/

section
variable {s : State} {sl : SliceId} {q : QuadId} {w : Nat}

/-- The state in which a VOP writes: its word has passed, and a poisoned source has ended the requests tied to the segment. -/
def State.vopState (s : State) (sl : SliceId) (q : QuadId) (bad : Bool) : State :=
  match (s.sl sl).quadRun q with
  | some u => if bad then (s.afterWord sl q id).faultStage sl u .fault else s.afterWord sl q id
  | none => s.afterWord sl q id

/-- The results of a VOP rounded once into a format and written, with their counts. -/
def SliceState.vopWrite (y : SliceState) (q : QuadId) (g : VopArgs) (fmt : Nat) (r : List F32) : SliceState :=
  let v := if isMX fmt then encodeRow fmt (r.map F32.num) else encodePlain fmt (r.map F32.num)
  let z := y.store (chamberAddr q g.d) v.bytes
  { z with arr := { z.arr with satElements := z.arr.satElements + v.sat, nonfiniteVops := z.arr.nonfiniteVops + if v.nonfinite then 1 else 0 } }

/-- Whether a VOP reads a poisoned word. -/
def SliceState.vopBad (x : SliceState) (q : QuadId) (g : VopArgs) (takesB : VopB) : Bool :=
  match takesB with
  | .none => x.poisoned (chamberAddr q g.a) (vopBytes g.aFmt g.n)
  | .each => x.poisoned (chamberAddr q g.a) (vopBytes g.aFmt g.n) || x.poisoned (chamberAddr q g.b) (vopBytes g.aFmt g.n)
  | .one => x.poisoned (chamberAddr q g.a) (vopBytes g.aFmt g.n) || x.poisoned (chamberAddr q g.b) 4

/-- The second source of a VOP. -/
def SliceState.vopSource (x : SliceState) (q : QuadId) (g : VopArgs) : VopB → List F32
  | .none => []
  | .each => vopRead x q g.aFmt g.b g.n
  | .one => [BitVec.ofNat 32 (x.loadNat (chamberAddr q g.b) 4)]

/-- A VOP with arguments has at least one element. -/
theorem vopArgs_pos {k : Quad} {b : VopB} {reduces : Bool} {g : VopArgs} (h : vopArgs k w b reduces = some g) : 1 ≤ g.n := by
  unfold vopArgs at h
  obtain ⟨hc, hg⟩ := Option.ite_none_right_eq_some.1 h
  obtain rfl := Option.some.inj hg
  exact hc.2.2.1

theorem vopBytes_pos {fmt n : Nat} (hn : 1 ≤ n) : vopBytes fmt n ≠ 0 := by
  have helem : 1 ≤ elemBytes fmt := by unfold elemBytes; split <;> decide
  unfold vopBytes rowBytes rowData
  split
  · next h =>
    unfold roundUp ceilDiv
    omega
  · exact Nat.ne_of_gt (Nat.mul_pos hn helem)

/-- A segment that faults counts no operand fault of its own. -/
theorem State.segmentFault_vopFaults {a : Option Nat} {pc code : Nat} :
    ((s.segmentFault sl q a pc code).sl sl).arr.vopFaults = (s.sl sl).arr.vopFaults := by
  have h1 : State.Agree (fun x => x.arr.vopFaults) s (s.quadFault sl q a pc code) := by
    unfold State.quadFault
    exact .comp (.onSl fun _ => rfl) (.report fun _ _ => rfl)
  have h2 : State.Agree (fun x => x.arr.vopFaults) (s.quadFault sl q a pc code) (s.segmentFaulted sl q a pc code) :=
    .segmentFaulted (fun _ => rfl) fun _ _ _ _ _ => rfl
  have h3 : State.Agree (fun x => x.arr.vopFaults) (s.segmentFaulted sl q a pc code) (s.segmentFault sl q a pc code) := .onSl fun x => by
    unfold SliceState.stopSegment
    dsimp only
    split <;> rfl
  exact ((h1.trans h2).trans h3) sl

theorem State.afterWord_quadRun_all : ((s.afterWord sl q id).sl sl).quadRun q = (s.sl sl).quadRun q := by
  have hrun : State.Agree (fun x => ((x.quad q).run, x.runs)) s (s.afterWord sl q id) := .onSl fun x =>
    congrArg (fun r => (r, x.runs)) (SliceState.quad_onQuad_agree (π := Quad.run) (Quad.goTo_agree (π := Quad.run) (fun _ _ _ => rfl) · _) x q q)
  have hrun := hrun sl
  simp only [Prod.mk.injEq] at hrun
  unfold SliceState.quadRun
  rw [hrun.1, hrun.2]

/-- The word that issues is that of the operation. -/
theorem State.vop_issues (hw : s.QuadIssues sl q w) {code : Nat} (hcode : bits (qImm w) 7 0 = code) {σ : Type} (a b : σ) :
    (if ((s.quad sl q).st = .running && decide ((s.quad sl q).pc ≤ 8191) &&
      bits (qImm ((s.quad sl q).program.getD (s.quad sl q).pc 0).toNat) 7 0 != code) = true then a else b) = b := by
  obtain ⟨-, -, rfl⟩ := hw
  refine if_neg ?_
  rw [hcode, bne_self_eq_false, Bool.and_false]
  exact Bool.false_ne_true

theorem State.vop_runs (hw : s.QuadIssues sl q w) (hc : qCode w = 0x60) {code : Nat} (hcode : bits (qImm w) 7 0 = code) {takesB : VopB} {reduces : Bool}
    {g : VopArgs} (hg : vopArgs (s.quad sl q) w takesB reduces = some g) (f : VopArgs → List F32 → List F32 → List F32) :
    s.vop sl q code takesB reduces f = (s.vopState sl q ((s.sl sl).vopBad q g takesB)).onSl sl fun y =>
      y.vopWrite q g (if reduces then 9 else g.dFmt)
        (f g (vopRead (s.sl sl) q g.aFmt g.a g.n) ((s.sl sl).vopSource q g takesB)) := by
  have hview : ((s.afterWord sl q id).sl sl).busView = (s.sl sl).busView := State.Agree.afterWord (π := SliceState.busView) (fun _ _ => rfl) id sl
  unfold SliceState.busView at hview
  simp only [Prod.mk.injEq] at hview
  obtain ⟨hmem, hpoison, -, hspares⟩ := hview
  have hpoisoned : ((s.afterWord sl q id).sl sl).poisoned = (s.sl sl).poisoned := by
    unfold SliceState.poisoned
    rw [hpoison, hspares]
  have hload : ((s.afterWord sl q id).sl sl).load = (s.sl sl).load := by
    unfold SliceState.load
    rw [hmem]
  have hread : vopRead ((s.afterWord sl q id).sl sl) = vopRead (s.sl sl) := by
    unfold vopRead
    rw [hload]
  have hnat : ((s.afterWord sl q id).sl sl).loadNat = (s.sl sl).loadNat := by
    unfold SliceState.loadNat
    rw [hload]
  have hb : vopBytes g.aFmt g.n ≠ 0 := vopBytes_pos (vopArgs_pos hg)
  unfold State.vop
  rw [State.vop_issues hw hcode, State.issueQuad_runs hw hc]
  dsimp only
  rw [hg]
  dsimp only
  rw [hpoisoned, State.afterWord_quadRun_all, hread, hnat]
  have hbad : ∀ bad : Bool, (if bad then (match (s.sl sl).quadRun q with
      | some u => (s.afterWord sl q id).faultStage sl u .fault | none => s.afterWord sl q id) else s.afterWord sl q id) = s.vopState sl q bad := by
    intro bad
    unfold State.vopState
    cases (s.sl sl).quadRun q <;> cases bad <;> rfl
  refine congrArg₂ (fun u F => State.onSl u sl F) ((hbad _).trans (congrArg (s.vopState sl q) ?_)) (funext fun y => ?_)
  · cases takesB
    · exact Bool.or_false _
    · show (_ || (vopBytes g.aFmt g.n != 0 && _)) = _
      rw [bne_iff_ne.2 hb, Bool.true_and]
      rfl
    · rfl
  · unfold SliceState.vopWrite
    cases reduces
    · rw [Bool.not_false, Bool.and_true]
      cases takesB <;> rfl
    · rw [Bool.not_true, Bool.and_false]
      cases takesB <;> rfl

theorem State.vop_faults (hs : s.Inv) (hw : s.QuadIssues sl q w) (hc : qCode w = 0x60) {code : Nat} (hcode : bits (qImm w) 7 0 = code) {takesB : VopB}
    {reduces : Bool} (hg : vopArgs (s.quad sl q) w takesB reduces = none) (f : VopArgs → List F32 → List F32 → List F32) :
    let t := s.vop sl q code takesB reduces f
    s.SegmentEnds t sl q 9 ∧ (t.sl sl).arr.vopFaults = (s.sl sl).arr.vopFaults + 1 := by
  have hexec : s.vop sl q code takesB reduces f = ((s.afterWord sl q id).onSl sl fun x =>
      { x with arr := { x.arr with vopFaults := x.arr.vopFaults + 1 } }).segmentFault sl q none (s.quad sl q).pc qfVopArg := by
    unfold State.vop
    rw [State.vop_issues hw hcode, State.issueQuad_runs hw hc]
    dsimp only
    rw [hg]
  have hv := hs.afterWord (sl := sl) (q := q)
  have hu : ((s.afterWord sl q id).onSl sl fun x => { x with arr := { x.arr with vopFaults := x.arr.vopFaults + 1 } }).Inv :=
    (State.Keeps.onSl _ _ fun _ h => h.update rfl rfl rfl).2 hv
  have harr : (((s.afterWord sl q id).onSl sl fun x => { x with arr := { x.arr with vopFaults := x.arr.vopFaults + 1 } }).sl sl).arr =
      { (s.sl sl).arr with vopFaults := (s.sl sl).arr.vopFaults + 1 } := by
    rw [State.onSl_sl_self _ _ _ (hv.1.1.symm ▸ sl.isLt)]
    have h0 : ((s.afterWord sl q id).sl sl).arr = (s.sl sl).arr := State.Agree.afterWord (π := SliceState.arr) (fun _ _ => rfl) id sl
    rw [h0]
  obtain ⟨⟨hidle, hcount, hlast⟩, -⟩ := State.segmentFault_ends hu (sl := sl) (q := q) (a := none) (pc := (s.quad sl q).pc) (code := qfVopArg) (by decide)
  have hvop := State.segmentFault_vopFaults (s := (s.afterWord sl q id).onSl sl fun x =>
    { x with arr := { x.arr with vopFaults := x.arr.vopFaults + 1 } }) (sl := sl) (q := q) (a := none) (pc := (s.quad sl q).pc) (code := qfVopArg)
  rw [harr] at hcount hvop
  rw [hexec]
  exact ⟨⟨hidle, hcount, hlast⟩, hvop⟩

end

end Sys2Proof.Machine
end

section
/-! The vector operations. -/

namespace Sys2Proof.Machine

/-- Settles O26: each operation by the one equation for the issue of a VOP. -/
theorem vectorOperations : Obligations.VectorOperations := by
  unfold Obligations.VectorOperations
  intro s sl q w hw hc k x code after
  have hrun : ∀ {c : Nat} {b : VopB} {r : Bool} {g : VopArgs}, code = c → vopArgs k w b r = some g → ∀ f,
      s.vop sl q c b r f = (s.vopState sl q (x.vopBad q g b)).onSl sl fun y =>
        y.vopWrite q g (if r then 9 else g.dFmt) (f g (vopRead x q g.aFmt g.a g.n) (x.vopSource q g b)) :=
    fun hcode hg f => State.vop_runs hw hc hcode hg f
  refine ⟨fun g hg => ?_, fun hs p hp hcode hg => ?_, fun g hg => ?_, fun g hg => ?_, fun g hg => ?_⟩
  · intro put
    refine ⟨fun h => ?_, fun h => ?_, fun h => ?_, fun h => ?_, fun h => ?_, fun h => ?_, fun h => ?_, fun h => ?_, fun h => ?_, fun h => ?_⟩
    all_goals exact congrArg Host.Outcome.next (hrun h hg _)
  · have hfaults : ∀ {c : Nat} {b : VopB} {r : Bool} {i : Instr}, code = c → vopArgs k w b r = none →
        (∃ f, exec i s = .next (s.vop sl q c b r f)) →
        ∃ t : State, exec i s = .next t ∧ s.SegmentEnds t sl q 9 ∧ (t.sl sl).arr.vopFaults = x.arr.vopFaults + 1 :=
      fun hcode hg ⟨f, hf⟩ => ⟨_, hf, State.vop_faults hs hw hc hcode hg f⟩
    refine hfaults hcode hg ?_
    simp only [List.mem_cons, List.not_mem_nil, or_false] at hp
    obtain rfl | rfl | rfl | rfl | rfl | rfl | rfl | rfl | rfl | rfl | rfl | rfl | rfl | rfl | rfl | rfl | rfl | rfl | rfl | rfl | rfl | rfl := hp
    all_goals exact ⟨_, rfl⟩
  · intro each
    refine ⟨fun h => ?_, fun h => ?_, fun h => ?_, fun h => ?_, fun h => ?_, fun h => ?_⟩
    all_goals exact congrArg Host.Outcome.next (hrun h hg _)
  · intro one
    refine ⟨fun h => ?_, fun h => ?_, fun h => ?_⟩
    all_goals exact congrArg Host.Outcome.next (hrun h hg _)
  · intro a bad
    refine ⟨fun h => ?_, fun h => ?_, fun h => ?_⟩
    · have hsum := hrun h hg fun _ a _ => [reduceBy F32.add 128 (a.map id)]
      rw [List.map_id] at hsum
      exact congrArg Host.Outcome.next hsum
    · exact congrArg Host.Outcome.next (hrun h hg fun _ a _ => [reduceBy F32.add 128 (a.map fun v => F32.mul v v)])
    · have hmax := hrun h hg fun _ a _ => [reduceBy F32.max 128 (a.map id)]
      rw [List.map_id] at hmax
      exact congrArg Host.Outcome.next hmax

end Sys2Proof.Machine
end

section
/-! SUPPORT. A device without requests: what the end of a drip boundary keeps. -/

namespace Sys2Proof.Machine

/-! ### Slices without requests -/

/-- Changing a slice to itself changes nothing. -/
theorem State.onSl_eq_self (s : State) (i : Nat) {f : SliceState → SliceState} (h : f (s.sl i) = s.sl i) : s.onSl i f = s := by
  obtain hi | hi := Nat.lt_or_ge i s.slices.length
  · have hm : s.slices.modify i f = s.slices := by
      refine List.ext_getElem? fun j => ?_
      rw [List.getElem?_modify]
      by_cases hij : i = j
      · subst hij
        have hg : f s.slices[i] = s.slices[i] := by simpa [State.sl, List.getD, hi] using h
        simp [hi, hg]
      · simp [hij]
    unfold State.onSl
    rw [hm]
  · exact s.onSl_sl_of_le _ hi

/-- With no request nothing is to be settled. -/
theorem SliceState.settleRows_of_no_reqs {x : SliceState} (h : x.svc.reqs = []) (d : Drip) : x.settleRows d = x := by
  simp [SliceState.settleRows, h]

theorem SliceState.onReqs_of_no_reqs {x : SliceState} (h : x.svc.reqs = []) (f : Request → Request) : x.onReqs f = x := by
  unfold SliceState.onReqs
  rw [h, List.map_nil, ← h]

/-- A slice without requests has none to end. -/
theorem State.endReqs_of_no_reqs {s : State} {i : Nat} (h : (s.sl i).svc.reqs = []) (p : Request → Bool) (a b : Drip) (c : Status) (l : Nat) :
    s.endReqs i p a b c l = s := by
  refine s.onSl_eq_self i ?_
  rw [SliceState.onReqs_of_no_reqs h, SliceState.settleRows_of_no_reqs h]

/-- No slice has a request. -/
def State.NoReqs (s : State) : Prop := ∀ i, (s.sl i).svc.reqs = []

theorem State.foldl_eq_self {α : Type} {f : State → α → State} {s : State} {l : List α} (h : ∀ a ∈ l, f s a = s) : l.foldl f s = s := by
  induction l with
  | nil => rfl
  | cons a l ih => rw [List.foldl_cons, h a List.mem_cons_self, ih fun b hb => h b (List.mem_cons_of_mem _ hb)]

theorem State.eachSlice_eq_self {f : State → Nat → State} {s : State} (h : ∀ i, f s i = s) : s.eachSlice f = s :=
  State.foldl_eq_self fun i _ => h i

/-- Of the slices one alone acts. -/
theorem State.foldl_single {f : State → Nat → State} {s : State} {k : Nat} (l : List Nat) (hnd : l.Nodup) (hk : k ∈ l)
    (h : ∀ i, i ≠ k → f s i = s) (h' : ∀ i, i ≠ k → f (f s k) i = f s k) : l.foldl f s = f s k := by
  induction l with
  | nil => cases hk
  | cons a l ih =>
    obtain ⟨hal, hnd⟩ := List.nodup_cons.1 hnd
    rw [List.foldl_cons]
    by_cases hak : a = k
    · subst hak
      exact State.foldl_eq_self fun b hb => h' b fun e => hal (e ▸ hb)
    · rw [h a hak]
      exact ih hnd ((List.mem_cons.1 hk).resolve_left fun e => hak e.symm)

theorem State.eachSlice_single {f : State → Nat → State} {s : State} {k : Nat} (hk : k < 8)
    (h : ∀ i, i ≠ k → f s i = s) (h' : ∀ i, i ≠ k → f (f s k) i = f s k) : s.eachSlice f = f s k :=
  State.foldl_single _ List.nodup_range (List.mem_range.2 hk) h h'

theorem State.NoReqs.endTied {s : State} (h : s.NoReqs) (i : Nat) (u : Run) (a b : Drip) (c : Status) : s.endTied i u a b c = s := by
  unfold State.endTied
  split
  · exact State.eachSlice_eq_self fun j => State.endReqs_of_no_reqs (h j) ..
  · exact State.endReqs_of_no_reqs (h i) ..

/-- A part of every slice that a change of all slices leaves alone. -/
theorem State.Agree.onAll {β : Type} {π : SliceState → β} {s : State} {f : SliceState → SliceState} (h : ∀ i, i < s.slices.length → π (f (s.sl i)) = π (s.sl i)) :
    State.Agree π s (s.onAll f) := fun i => by
  obtain hi | hi := Nat.lt_or_ge i s.slices.length
  · rw [State.onAll_sl _ _ hi]; exact h i hi
  · simp [State.onAll, State.sl, List.getD, hi]

/-! ### What a drip boundary without requests keeps -/

/-- The part of a slice that the statement on the drip boundary speaks of, and what decides whether more happens. -/
def SliceState.boundaryPart (x : SliceState) :=
  (x.flags, x.toClear, x.flagsAt, x.engines, x.quads, x.runs, x.svc.reqs, x.spares.waiting, x.ports.map fun l => (l.fecCount, l.fecHot))

/-- `t` keeps of `s` what the statement on the drip boundary speaks of. -/
structure State.Holds (s t : State) : Prop where
  view : State.Agree SliceState.boundaryPart s t
  job : t.job = s.job
  frame0 : t.frame0 = s.frame0
  rollout : t.fw.rollout = s.fw.rollout
  returning : t.fw.returning = s.fw.returning
  drip : t.time.drip = s.time.drip
  misses : t.time.stageMisses = s.time.stageMisses

theorem State.Holds.refl (s : State) : s.Holds s := ⟨.refl _, rfl, rfl, rfl, rfl, rfl, rfl⟩

theorem State.Holds.trans {s t u : State} (a : s.Holds t) (b : t.Holds u) : s.Holds u :=
  ⟨a.view.trans b.view, b.job.trans a.job, b.frame0.trans a.frame0, b.rollout.trans a.rollout, b.returning.trans a.returning,
    b.drip.trans a.drip, b.misses.trans a.misses⟩

theorem State.Holds.onSl {s : State} {i : Nat} {f : SliceState → SliceState} (h : (f (s.sl i)).boundaryPart = (s.sl i).boundaryPart) :
    s.Holds (s.onSl i f) := ⟨.onSl_at h, rfl, rfl, rfl, rfl, rfl, rfl⟩

theorem State.Holds.foldl {α : Type} {f : State → α → State} (l : List α) (h : ∀ (s : State) (a : α), s.Holds (f s a)) (s : State) : s.Holds (l.foldl f s) := by
  induction l generalizing s with
  | nil => exact .refl _
  | cons a l ih => exact (h s a).trans (ih _)

theorem State.Holds.eachSlice {f : State → Nat → State} (h : ∀ (s : State) (i : Nat), s.Holds (f s i)) (s : State) : s.Holds (s.eachSlice f) :=
  .foldl _ h s

/-- What the part of a slice tells, field by field. -/
theorem SliceState.boundaryPart_fields {x y : SliceState} (h : x.boundaryPart = y.boundaryPart) :
    (x.flags = y.flags ∧ x.toClear = y.toClear ∧ x.flagsAt = y.flagsAt ∧ x.engines = y.engines ∧ x.quads = y.quads) ∧
    (x.runs = y.runs ∧ x.svc.reqs = y.svc.reqs ∧ x.spares.waiting = y.spares.waiting) ∧
    x.ports.map (fun l => (l.fecCount, l.fecHot)) = y.ports.map fun l => (l.fecCount, l.fecHot) := by
  simp only [SliceState.boundaryPart, Prod.mk.injEq] at h
  obtain ⟨h1, h2, h3, h4, h5, h6, h7, h8, h9⟩ := h
  exact ⟨⟨h1, h2, h3, h4, h5⟩, ⟨h6, h7, h8⟩, h9⟩

theorem State.Holds.no_reqs {s t : State} (h : s.Holds t) (hs : s.NoReqs) : t.NoReqs := fun i =>
  (SliceState.boundaryPart_fields (h.view i)).2.1.2.1.trans (hs i)

theorem State.Holds.runs {s t : State} (h : s.Holds t) (i : Nat) : (t.sl i).runs = (s.sl i).runs :=
  (SliceState.boundaryPart_fields (h.view i)).2.1.1

/-- Writing memory and tiers leaves the part alone. -/
theorem SliceState.onRes_boundaryPart (x : SliceState) (p : ResEntry → Bool) (f : ResEntry → ResEntry) : (x.onRes p f).boundaryPart = x.boundaryPart := by
  unfold SliceState.onRes
  refine (foldl_agree (π := SliceState.boundaryPart) (fun z e => ?_) _ _).trans ?_
  · simp only [SliceState.boundaryPart, SliceState.store]
  · rfl

theorem SliceState.settleFetches_boundaryPart (x : SliceState) (d : Drip) : (x.settleFetches d).boundaryPart = x.boundaryPart := by
  unfold SliceState.settleFetches
  split
  · rfl
  · dsimp only
    generalize hy : List.foldl _ _ _ = y
    have hv : y.boundaryPart = x.boundaryPart := by
      rw [← hy]
      exact foldl_agree (π := SliceState.boundaryPart) (fun z f => SliceState.onRes_boundaryPart z _ _) _ _
    exact hv

theorem SliceState.sumpAbsent_boundaryPart (x : SliceState) : x.sumpAbsent.boundaryPart = x.boundaryPart := by
  unfold SliceState.sumpAbsent
  split
  · rfl
  · split
    · exact SliceState.onRes_boundaryPart ..
    · rfl

theorem State.portNext_holds (s : State) (i : Nat) : s.Holds (s.portNext i) := by
  unfold State.portNext
  split
  · exact .refl _
  · split
    · exact .refl _
    · dsimp only
      split
      · exact State.Holds.trans (.onSl rfl) ⟨.of_slices rfl, rfl, rfl, rfl, rfl, rfl, rfl⟩
      · exact .onSl rfl

theorem State.sumpAbsent_holds (s : State) : s.Holds (s.onAll SliceState.sumpAbsent) :=
  ⟨.onAll fun _ _ => SliceState.sumpAbsent_boundaryPart _, rfl, rfl, rfl, rfl, rfl, rfl⟩

theorem State.joinPorts_holds (s : State) : s.Holds s.joinPorts := by
  unfold State.joinPorts
  split
  · exact .refl _
  · refine ⟨.onAll fun i _ => ?_, rfl, rfl, rfl, rfl, rfl, rfl⟩
    simp only [SliceState.boundaryPart, List.map_map]
    congr 8
    refine List.map_congr_left fun l _ => ?_
    simp only [Function.comp]
    split <;> rfl

/-- A boundary without a job, whose waiting changes of the unit map are none. -/
theorem State.applyIdle_holds {s : State} (h : s.job = none → ∀ i, (s.sl i).spares.waiting = []) : s.Holds s.applyIdle := by
  unfold State.applyIdle
  cases hj : s.job with
  | some j => exact .refl _
  | none =>
    have hw := h hj
    have h0 {t : State} {i : Nat} {f : Spares → Spares} (hf : f (t.sl i).spares = (t.sl i).spares) : t.onSpares i f = t :=
      t.onSl_eq_self i (by rw [hf])
    have h1 : s.applyWaiting = s := by
      unfold State.applyWaiting
      refine State.eachSlice_eq_self fun i => ?_
      dsimp only
      rw [hw i, List.filter_nil, List.foldl_nil]
      refine h0 ?_
      simp only [hw i, List.filter_nil]
      rw [← hw i]
    rw [h1]
    have h2 : s.eachSlice (fun v i => (v.sl i).spares.waiting.foldl (fun u w => u.remapWaiting i w) (v.onSpares i fun p => { p with waiting := [] })) = s := by
      refine State.eachSlice_eq_self fun i => ?_
      rw [hw i, List.foldl_nil]
      refine h0 ?_
      rw [← hw i]
    rw [if_neg (by simp), h2]
    exact .refl _

/-- A device without a rollout. -/
theorem State.rolloutDrip_holds {s : State} (h : s.fw.rollout = 0) : s.Holds s.rolloutDrip := by
  have hc : ∀ t : State, t.fw.rollout = 0 → t.checkHold = t := fun t ht => by simp [State.checkHold, ht]
  unfold State.rolloutDrip
  dsimp only
  rw [hc]
  swap
  · exact h
  unfold State.fwCause
  rw [if_pos ⟨rfl, rfl⟩]
  exact ⟨.of_slices rfl, rfl, rfl, rfl, rfl, rfl, rfl⟩

theorem State.retireEpoch_holds (s : State) : s.Holds s.retireEpoch := by
  unfold State.retireEpoch
  split
  · exact ⟨.of_slices rfl, rfl, rfl, rfl, rfl, rfl, rfl⟩
  · exact .refl _

/-- No port has counted corrected symbols. -/
def State.NoFec (s : State) : Prop := ∀ i, ∀ c ∈ (s.sl i).ports.map (fun l => (l.fecCount, l.fecHot)), c = (0, 0)

theorem State.judgeFec_of_none {s : State} (h : s.NoFec) (i p : Nat) : s.judgeFec i p = s := by
  have hp : ((s.sl i).ports.getD p {}).fecCount = 0 ∧ ((s.sl i).ports.getD p {}).fecHot = 0 := by
    rw [List.getD_eq_getElem?_getD]
    cases hl : (s.sl i).ports[p]? with
    | none => exact ⟨rfl, rfl⟩
    | some l => exact Prod.mk.inj (h i _ (List.mem_map.2 ⟨l, List.mem_of_getElem? hl, rfl⟩))
  unfold State.judgeFec
  rw [if_pos hp]

theorem State.Holds.no_fec {s t : State} (h : s.Holds t) (hs : s.NoFec) : t.NoFec := fun i => by
  rw [(SliceState.boundaryPart_fields (h.view i)).2.2]
  exact hs i

/-- The acts of a boundary after what entering FREE ends. -/
def State.afterFree (s : State) : State :=
  ((((s.onAll SliceState.sumpAbsent).eachSlice fun v i =>
    (List.range 8).foldl (fun w p => w.judgeFec i p) v).joinPorts.applyIdle).returnProcessor.rolloutDrip).retireEpoch

theorem State.endLost_of_no_reqs {s : State} (h : s.NoReqs) : s.eachSlice State.endLost = s :=
  State.eachSlice_eq_self fun i => State.endReqs_of_no_reqs (h i) ..

/-- A quiet device. -/
structure State.Quiet (s : State) : Prop where
  fec : s.NoFec
  rollout : s.fw.rollout = 0
  returning : s.fw.returning = none
  waiting : s.job = none → ∀ i, (s.sl i).spares.waiting = []

theorem State.Quiet.afterFree {s : State} (hq : s.Quiet) : s.Holds s.afterFree := by
  unfold State.afterFree
  have h1 := State.sumpAbsent_holds s
  rw [State.eachSlice_eq_self fun i => State.foldl_eq_self fun p _ => State.judgeFec_of_none (h1.no_fec hq.fec) i p]
  have h2 := h1.trans (State.joinPorts_holds _)
  have h3 := h2.trans (State.applyIdle_holds fun hj i =>
    (SliceState.boundaryPart_fields (h2.view i)).2.1.2.2.trans (hq.waiting (h2.job.symm.trans hj) i))
  have hr : ∀ t : State, t.fw.returning = none → t.returnProcessor = t := fun t ht => by simp [State.returnProcessor, ht]
  rw [hr _ (h3.returning.trans hq.returning)]
  exact (h3.trans (State.rolloutDrip_holds (h3.rollout.trans hq.rollout))).trans (State.retireEpoch_holds _)

end Sys2Proof.Machine
end

section
/-! SUPPORT. The drip that a boundary takes. -/

namespace Sys2Proof.Machine

/-! ### The drip that a boundary takes -/

/-- A thread or a quad that waits for a drip goes on once it has come. -/
def Thread.onDrip (now : Drip) (t : Thread) : Thread :=
  match t.st with
  | .waitDrip d => if Drip.later d now then t else { t with st := .ready }
  | _ => t

def Quad.onDrip (now : Drip) (q : Quad) : Quad :=
  match q.st with
  | .waitDrip d => if Drip.later d now then q else { q with st := .running }
  | _ => q

theorem Thread.onDrip_run (now : Drip) (t : Thread) : (t.onDrip now).run = t.run := by
  unfold Thread.onDrip
  split
  · split <;> rfl
  · rfl

theorem Thread.onDrip_st {now d : Drip} {t : Thread} (h : t.st = .waitDrip d) :
    (t.onDrip now).st = if Drip.later d now then .waitDrip d else .ready := by
  unfold Thread.onDrip
  rw [h]
  dsimp only
  split
  · exact h
  · rfl

theorem Quad.onDrip_st {now d : Drip} {q : Quad} (h : q.st = .waitDrip d) :
    (q.onDrip now).st = if Drip.later d now then .waitDrip d else .running := by
  unfold Quad.onDrip
  rw [h]
  dsimp only
  split
  · exact h
  · rfl

theorem SliceState.foldl_clearFlag (l : List Nat) (x : SliceState) :
    l.foldl SliceState.clearFlag x =
      { x with flags := x.flags.filter fun f => !l.contains f, flagsAt := x.flagsAt.filter fun f => !l.contains f } := by
  induction l generalizing x with
  | nil => simp
  | cons a l ih =>
    rw [List.foldl_cons, ih]
    simp [SliceState.clearFlag, List.filter_filter, bne, BEq.beq, Bool.and_comm]

/-- A boundary on a slice without requests. -/
theorem SliceState.takeDrip_eq {x : SliceState} (h : x.svc.reqs = []) (now : Drip) :
    x.takeDrip now = { x with
      flags := x.flags.filter fun f => !x.toClear.contains f
      flagsAt := x.flags.filter fun f => !x.toClear.contains f
      toClear := []
      engines := x.engines.map fun (g : Engine) => { g with threads := g.threads.map (Thread.onDrip now) }
      quads := x.quads.map (Quad.onDrip now) } := by
  unfold SliceState.takeDrip SliceState.clearDue
  rw [SliceState.foldl_clearFlag, SliceState.settleRows_of_no_reqs (by exact h)]
  rfl

theorem SliceState.takeDrip_thread {x : SliceState} (hx : x.ok) (h : x.svc.reqs = []) (now : Drip) (e : EngineId) (t : ThreadId) :
    ((x.takeDrip now).engine e).thread t = ((x.engine e).thread t).onDrip now := by
  have he : (e : Nat) < x.engines.length := by rw [hx.2.1.1]; exact e.isLt
  have ht : (t : Nat) < (x.engines[(e : Nat)]).threads.length := by rw [(hx.2.1.2 _ (List.getElem_mem he)).1]; exact t.isLt
  rw [SliceState.takeDrip_eq h]
  simp [SliceState.engine, Engine.thread, List.getD_eq_getElem?_getD, he, ht]

theorem SliceState.takeDrip_quad {x : SliceState} (hx : x.ok) (h : x.svc.reqs = []) (now : Drip) (q : QuadId) :
    (x.takeDrip now).quad q = (x.quad q).onDrip now := by
  have hq : (q : Nat) < x.quads.length := by rw [hx.2.2.1.1]; exact q.isLt
  rw [SliceState.takeDrip_eq h]
  simp [SliceState.quad, List.getD_eq_getElem?_getD, hq]

/-! ### The boundary on a device without requests -/

/-- The acts of a boundary before the monitoring of the stages. -/
def State.afterTick (s : State) : State :=
  (s.tick.onAll fun x => (x.takeDrip s.tick.now).settleFetches s.tick.now).eachSlice State.portNext

theorem State.tick_slices (s : State) : s.tick.slices = s.slices := by
  unfold State.tick
  dsimp only
  split <;> rfl

theorem State.tick_keeps (s : State) : s.tick.job = s.job ∧ s.tick.frame0 = s.frame0 ∧ s.tick.fw = s.fw ∧ s.tick.now = s.now.plus 1 ∧
    s.tick.time.stageMisses = s.time.stageMisses ∧ s.tick.time.freeDue = s.time.freeDue := by
  unfold State.tick
  dsimp only
  split <;> exact ⟨rfl, rfl, rfl, rfl, rfl, rfl⟩

/-- The acts of a boundary from the monitoring of the stages to what entering FREE ends. -/
def State.monitored (s : State) : State := s.afterTick.eachSlice fun v i => (v.monitor i s.now).withdrawLaunches i

theorem State.exec_dripBoundary_of_no_reqs {s : State} (hrun : s.pkg.dividersRun = true) (hreqs : s.NoReqs)
    (hdig : ∀ i, (s.sl i).runs.filter ((s.sl i).digestDue s.now) = []) {m : State}
    (hm : (s.monitored.eachSlice State.endLost).endFree.afterFree = m) (hf : m.isFrameStart m.now = false) : exec .dripBoundary s = .next m := by
  have h0 : s.eachSlice State.formDue = s := State.eachSlice_eq_self fun i => by
    unfold State.formDue
    rw [hdig i, List.foldl_nil]
  have h1 : s.settleAll s.now = s := State.eachSlice_eq_self fun i => by rw [hreqs i, List.foldl_nil]
  show execDripBoundary s = _
  unfold execDripBoundary
  rw [hrun, h0]
  dsimp only
  rw [h1]
  subst hm
  exact (if_neg Bool.false_ne_true).trans (congrArg Host.Outcome.next (if_neg (Bool.eq_false_iff.1 hf)))

/-- The drip is taken on every slice, and of the rest that matters here nothing changes. -/
theorem State.afterTick_spec {s : State} (hs : s.Inv) :
    (∀ i, i < 8 → (s.afterTick.sl i).boundaryPart = ((s.sl i).takeDrip (s.now.plus 1)).boundaryPart) ∧ (∀ i, 8 ≤ i → (s.afterTick.sl i).boundaryPart = (s.sl i).boundaryPart) ∧
      s.afterTick.job = s.job ∧ s.afterTick.frame0 = s.frame0 ∧ s.afterTick.fw.rollout = s.fw.rollout ∧
      s.afterTick.fw.returning = s.fw.returning ∧ s.afterTick.now = s.now.plus 1 ∧ s.afterTick.time.stageMisses = s.time.stageMisses := by
  obtain ⟨hjob, hframe, hfw, hnow, hmiss, -⟩ := s.tick_keeps
  have hlen : s.tick.slices.length = 8 := by rw [s.tick_slices]; exact hs.1.1
  have h : (s.tick.onAll fun x => (x.takeDrip s.tick.now).settleFetches s.tick.now).Holds s.afterTick := .eachSlice State.portNext_holds _
  have hfw' : (s.tick.onAll fun x => (x.takeDrip s.tick.now).settleFetches s.tick.now).fw = s.fw := hfw
  refine ⟨fun i hi => ?_, fun i hi => ?_, h.job.trans hjob, h.frame0.trans hframe, h.rollout.trans (congrArg Firmware.rollout hfw'),
    h.returning.trans (congrArg Firmware.returning hfw'), h.drip.trans hnow, h.misses.trans hmiss⟩
  · refine (h.view i).trans ?_
    rw [State.onAll_sl _ _ (by rw [hlen]; exact hi), SliceState.settleFetches_boundaryPart, hnow]
    show ((s.tick.slices.getD i {}).takeDrip _).boundaryPart = _
    rw [s.tick_slices]
    rfl
  · refine (h.view i).trans ?_
    have hout : ∀ u : State, u.slices.length = 8 → u.sl i = {} := fun u hu => by
      unfold State.sl
      rw [List.getD_eq_getElem?_getD, List.getElem?_eq_none (by rw [hu]; exact hi), Option.getD_none]
    rw [hout _ ((State.onAll_length ..).trans hlen), hout s hs.1.1]

end Sys2Proof.Machine
end

section
/-! SUPPORT. A boundary without stages, and a stage that is found missed. -/

namespace Sys2Proof.Machine

/-! ### A boundary with no stage, and one with one stage -/

theorem State.forall_sl {P : SliceState → Prop} {s : State} (h : ∀ x ∈ s.slices, P x) (h0 : P {}) (i : Nat) : P (s.sl i) := by
  obtain hi | hi := Nat.lt_or_ge i s.slices.length
  · exact h _ (s.sl_mem hi)
  · unfold State.sl
    rw [List.getD_eq_getElem?_getD, List.getElem?_eq_none hi]
    exact h0

theorem State.noReqs_of {s : State} (h : ∀ x ∈ s.slices, x.svc.reqs = []) : s.NoReqs :=
  State.forall_sl (P := fun x => x.svc.reqs = []) h rfl

theorem State.noFec_of {s : State} (h : ∀ x ∈ s.slices, ∀ l ∈ x.ports, l.fecCount = 0 ∧ l.fecHot = 0) : s.NoFec :=
  State.forall_sl (P := fun x => ∀ c ∈ x.ports.map (fun (l : Link) => (l.fecCount, l.fecHot)), c = (0, 0))
    (fun x hx c hc => by
      obtain ⟨l, hl, rfl⟩ := List.mem_map.1 hc
      exact Prod.ext (h x hx l hl).1 (h x hx l hl).2) (by decide)

/-- The part of a slice after the drip, on a device without requests. -/
theorem State.afterTick_part {s : State} (hs : s.Inv) (hreqs : s.NoReqs) (i : Nat) :
    (s.afterTick.sl i).runs = (s.sl i).runs ∧ (s.afterTick.sl i).svc.reqs = [] ∧ (s.afterTick.sl i).spares.waiting = (s.sl i).spares.waiting ∧
      ((s.afterTick.sl i).ports.map fun l => (l.fecCount, l.fecHot)) = (s.sl i).ports.map fun l => (l.fecCount, l.fecHot) := by
  obtain ⟨hin, hout, -⟩ := State.afterTick_spec hs
  obtain hi | hi := Nat.lt_or_ge i 8
  · obtain ⟨-, ⟨h1, h2, h3⟩, h4⟩ := SliceState.boundaryPart_fields (hin i hi)
    rw [SliceState.takeDrip_eq (hreqs i)] at h1 h2 h3 h4
    exact ⟨h1, h2.trans (hreqs i), h3, h4⟩
  · obtain ⟨-, ⟨h1, h2, h3⟩, h4⟩ := SliceState.boundaryPart_fields (hout i hi)
    exact ⟨h1, h2.trans (hreqs i), h3, h4⟩

theorem State.monitor_of_no_runs {s : State} {i : Nat} (h : (s.sl i).runs = []) (d : Drip) : (s.monitor i d).withdrawLaunches i = s := by
  have hm : s.monitor i d = s := by
    unfold State.monitor
    rw [h, List.foldl_nil]
  rw [hm]
  unfold State.withdrawLaunches
  dsimp only
  rw [h, List.filter_nil, List.foldl_nil]

theorem State.endFree_holds_of_no_job {s : State} (h : s.job = none) : s.Holds s.endFree := by
  unfold State.endFree
  split
  · exact .refl _
  · dsimp only
    rw [if_pos (by simp [h])]
    exact ⟨.of_slices rfl, rfl, rfl, rfl, rfl, rfl, rfl⟩

/-- A boundary that finds no stage and no job. -/
theorem State.dripBoundary_idle {s : State} (hs : s.Inv) (hrun : s.pkg.dividersRun = true) (hjob : s.job = none) (hq : s.Quiet)
    (hreqs : s.NoReqs) (hruns : ∀ i, (s.sl i).runs = []) :
    ∃ t : State, exec .dripBoundary s = .next t ∧ t.now = s.now.plus 1 ∧ t.job = none ∧
      ∀ i, i < 8 → (t.sl i).boundaryPart = ((s.sl i).takeDrip (s.now.plus 1)).boundaryPart := by
  obtain ⟨hin, -, kjob, -, kro, kret, know, -⟩ := State.afterTick_spec hs
  have hpart := State.afterTick_part hs hreqs
  have hm : s.monitored = s.afterTick := State.eachSlice_eq_self fun i => State.monitor_of_no_runs ((hpart i).1.trans (hruns i)) _
  have hl : s.monitored.eachSlice State.endLost = s.afterTick := by
    rw [hm]
    exact State.endLost_of_no_reqs fun i => (hpart i).2.1
  have he := State.endFree_holds_of_no_job (kjob.trans hjob)
  have hqa : s.afterTick.endFree.Quiet :=
    ⟨he.no_fec fun i => by rw [(hpart i).2.2.2]; exact hq.fec i, he.rollout.trans (kro.trans hq.rollout), he.returning.trans (kret.trans hq.returning),
      fun _ i => (SliceState.boundaryPart_fields (he.view i)).2.1.2.2.trans ((hpart i).2.2.1.trans (hq.waiting hjob i))⟩
  have hh := he.trans hqa.afterFree
  have tjob : s.afterTick.endFree.afterFree.job = none := hh.job.trans (kjob.trans hjob)
  refine ⟨s.afterTick.endFree.afterFree, State.exec_dripBoundary_of_no_reqs hrun hreqs (fun i => by rw [hruns i]; rfl) (by rw [hl]) ?_,
    hh.drip.trans know, tjob, fun i hi => (hh.view i).trans (hin i hi)⟩
  unfold State.isFrameStart
  rw [tjob]

/-! ### A stage that is found missed -/

theorem State.missOutcome_holds {s : State} (h : s.NoReqs) {u : Run} (hk : u.entry.kind ≠ .collective) (i : Nat) (d : Drip) :
    s.Holds (s.missOutcome i u d) := by
  have hreq (j : Nat) (p : Request → Bool) (a b : Drip) (c : Status) (l : Nat) : s.endReqs j p a b c l = s := State.endReqs_of_no_reqs (h j) ..
  unfold State.missOutcome
  dsimp only
  split
  · next hc => exact absurd hc hk
  · rw [h.endTied]; exact .refl _
  · rw [h.endTied]; exact .refl _
  · split
    · rw [h.endTied]; exact .refl _
    · exact .onSl rfl
  · split
    · unfold State.missGrant
      dsimp only
      rw [State.eachSlice_eq_self fun j => hreq ..]
      exact .refl _
    · unfold State.missAssign
      dsimp only
      rw [hreq]
      exact .refl _
    · rw [h.endTied]; exact .refl _
  · rw [h.endTied]; exact .refl _
  · rw [hreq]; exact .refl _
  · rw [hreq]; exact .refl _
  · rw [hreq]; exact .refl _
  · exact .onSl rfl
  · exact .onSl rfl
  · refine .onSl ?_
    unfold Service.onPass
    dsimp only
    split <;> rfl
  all_goals exact .refl _

theorem State.report_holds (s : State) (i : Nat) (r : Report) : s.Holds (s.report i r) := .onSl rfl

theorem SliceState.freeParked_of_ne {x : SliceState} {u : Run} (hk : u.entry.kind ≠ .collective) : x.freeParked u = x := by
  unfold SliceState.freeParked
  split
  · next hc => exact absurd ‹_› hk
  · rfl

/-- What a missed stage leaves on its slice. -/
def SliceState.missStage (x : SliceState) (u : Run) : SliceState := (x.stopPhase u).endRunNow u .missed

/-- One stage more has been missed. -/
def State.countMiss (s : State) : State := { s with time := { s.time with stageMisses := s.time.stageMisses + 1 } }

theorem State.missRun_holds {s : State} {i : Nat} {u : Run} (hk : u.entry.kind ≠ .collective)
    (h : (s.onSl i fun x => x.missStage u).NoReqs) (d : Drip) : ((s.onSl i fun x => x.missStage u).countMiss).Holds (s.missRun i u d) := by
  have hf : (fun x : SliceState => ((x.freeParked u).stopPhase u).endRunNow u .missed) = fun x => x.missStage u := by
    funext x
    rw [SliceState.freeParked_of_ne hk]
    rfl
  unfold State.missRun
  rw [hf]
  dsimp only
  obtain ⟨v1, v2, v3, v4, v5, v6, v7⟩ := State.missOutcome_holds h hk i d
  have hv : ((s.onSl i fun x => x.missStage u).countMiss).Holds ((s.onSl i fun x => x.missStage u).missOutcome i u d).countMiss :=
    ⟨v1, v2, v3, v4, v5, v6, congrArg (· + 1) v7⟩
  split
  · exact hv.trans (State.report_holds ..)
  · exact hv

/-! #### Its threads -/

theorem SliceState.stopThread_thread_self {x : SliceState} (hx : x.ok) (e : EngineId) (t : ThreadId) :
    (((x.stopThread e t).engine e).thread t).st = .idle := by
  have he : (e : Nat) < x.engines.length := by rw [hx.2.1.1]; exact e.isLt
  have ht : (t : Nat) < (x.engine e).threads.length := by
    have hm : x.engine e ∈ x.engines := by simp [SliceState.engine, List.getD_eq_getElem?_getD, he]
    rw [(hx.2.1.2 _ hm).1]
    exact t.isLt
  have hl (g : Engine) : (g.leave t).threads = g.threads := by unfold Engine.leave; split <;> rfl
  unfold SliceState.stopThread SliceState.endThread
  show ((SliceState.onEngine x e _).engine e |>.thread t).st = _
  rw [SliceState.onEngine_engine _ _ he]
  simp only [Engine.thread, hl]
  simp [Engine.onThread, List.getD_eq_getElem?_getD, ht]

theorem SliceState.stopThread_thread (x : SliceState) (e t k : Nat) :
    (((x.stopThread e t).engine e).thread k).run = ((x.engine e).thread k).run ∧
      (((x.engine e).thread k).st = .idle → (((x.stopThread e t).engine e).thread k).st = .idle) := by
  have hl (g : Engine) : (g.leave t).threads = g.threads := by unfold Engine.leave; split <;> rfl
  unfold SliceState.stopThread SliceState.endThread
  dsimp only
  obtain he | he := Nat.lt_or_ge e x.engines.length
  · show ((SliceState.onEngine x e _).engine e |>.thread k).run = _ ∧ (_ → ((SliceState.onEngine x e _).engine e |>.thread k).st = _)
    rw [SliceState.onEngine_engine _ _ he]
    simp only [Engine.thread, hl, Engine.onThread, List.getD_eq_getElem?_getD, List.getElem?_modify]
    cases (x.engine e).threads[k]? with
    | none => exact ⟨rfl, id⟩
    | some h =>
      simp only [Option.getD_some]
      split <;> simp
  · have hid : (SliceState.onEngine x e fun g =>
        let g1 := (g.onThread t fun h => { h with st := .idle, xstWait := false, drain := false, staged := false }).leave t
        { g1 with waits := g1.waits.filter fun w => w.thread != t }) = x := by
      simp [SliceState.onEngine, List.modify_eq_self he]
    rw [hid]
    exact ⟨rfl, id⟩

/-- The threads that a missed phase has are idle after it is stopped. -/
theorem SliceState.foldl_stop_idle {e : EngineId} {h : ThreadId} {idx : Nat} (l : List Nat) {x : SliceState} (hx : x.ok)
    (hrun : ((x.engine e).thread h).run = idx) (hst : h.val ∈ l ∨ ((x.engine e).thread h).st = .idle) :
    (((l.foldl (fun (y : SliceState) t =>
      let k := (y.engine e).thread t
      if k.run == idx && k.st != .idle then y.stopThread e t else y) x).engine e).thread h).st = .idle := by
  induction l generalizing x with
  | nil => exact hst.resolve_left List.not_mem_nil
  | cons t l ih =>
    rw [List.foldl_cons]
    dsimp only
    by_cases hc : (((x.engine e).thread t).run == idx && ((x.engine e).thread t).st != .idle) = true
    · rw [if_pos hc]
      obtain ⟨h1, h2⟩ := SliceState.stopThread_thread x e t h
      refine ih (hx.stopThread e t) (h1.trans hrun) ?_
      obtain hm | hi := hst
      · obtain hm | hm := List.mem_cons.1 hm
        · rw [← hm]
          exact .inr (SliceState.stopThread_thread_self hx e h)
        · exact .inl hm
      · exact .inr (h2 hi)
    · rw [if_neg hc]
      refine ih hx hrun ?_
      obtain hm | hi := hst
      · obtain hm | hm := List.mem_cons.1 hm
        · rw [← hm, hrun] at hc
          exact .inr (by simpa using hc)
        · exact .inl hm
      · exact .inr hi

theorem SliceState.stopPhase_view {β : Type} {π : SliceState → β} (hs : ∀ x e t, π (SliceState.stopThread x e t) = π x) (x : SliceState) (u : Run) :
    π (x.stopPhase u) = π x := by
  unfold SliceState.stopPhase
  split
  · refine foldl_agree (fun y t => ?_) _ _
    dsimp only
    split
    · exact hs ..
    · rfl
  · rfl

theorem SliceState.missStage_idle {x : SliceState} (hx : x.ok) {u : Run} {e : EngineId} {h : ThreadId} (hu : u.entry.unit = .engine e)
    (hm : h.val ∈ u.threads) (hrun : ((x.engine e).thread h).run = u.idx) : (((x.missStage u).engine e).thread h).st = .idle := by
  have hw : (x.missStage u).engines = (x.stopPhase u).engines := by
    unfold SliceState.missStage SliceState.endRunNow SliceState.clearDue
    rw [SliceState.foldl_clearFlag]
    rfl
  unfold SliceState.engine
  rw [hw]
  unfold SliceState.stopPhase Run.engine?
  rw [hu]
  exact SliceState.foldl_stop_idle u.threads hx hrun (.inl hm)

theorem SliceState.missStage_runs {x : SliceState} {u : Run} (h : x.runs = [u]) : (x.missStage u).runs = [{ u with st := .missed }] := by
  have hw : (x.missStage u).runs = ((x.stopPhase u).endRun u .missed).runs := by
    unfold SliceState.missStage SliceState.endRunNow SliceState.clearDue
    rw [SliceState.foldl_clearFlag]
  rw [hw]
  unfold SliceState.endRun SliceState.setRun SliceState.onRuns
  dsimp only
  rw [SliceState.stopPhase_view (π := SliceState.runs) (fun _ _ _ => rfl), h]
  simp

theorem SliceState.missStage_rest (x : SliceState) (u : Run) :
    (x.missStage u).svc.reqs = x.svc.reqs ∧ (x.missStage u).spares.waiting = x.spares.waiting ∧ (x.missStage u).ports = x.ports := by
  have hw : ((x.missStage u).svc, (x.missStage u).spares, (x.missStage u).ports) = (x.svc, x.spares, x.ports) := by
    unfold SliceState.missStage SliceState.endRunNow SliceState.clearDue
    rw [SliceState.foldl_clearFlag]
    exact SliceState.stopPhase_view (π := fun y => (y.svc, y.spares, y.ports)) (fun _ _ _ => rfl) x u
  obtain ⟨h1, h2, h3⟩ : _ ∧ _ ∧ _ := by simpa only [Prod.mk.injEq] using hw
  exact ⟨congrArg _ h1, congrArg _ h2, h3⟩

end Sys2Proof.Machine
end

section
/-! SUPPORT. The monitoring of one stage. -/

namespace Sys2Proof.Machine

/-! ### The boundary with one stage -/

theorem State.Holds.foldl_of {α : Type} {f : State → α → State} {P : State → Prop} (l : List α) (hP : ∀ s t : State, s.Holds t → P s → P t)
    (h : ∀ (s : State) (a : α), P s → s.Holds (f s a)) {s : State} (hs : P s) : s.Holds (l.foldl f s) := by
  induction l generalizing s with
  | nil => exact .refl _
  | cons a l ih => exact (h s a hs).trans (ih (hP _ _ (h s a hs) hs))

/-- Every stage of every slice is over. -/
def State.AllOver (s : State) : Prop := ∀ i, ∀ u ∈ (s.sl i).runs, u.over = true

/-- Entering FREE ends no stage where all are over. -/
theorem State.endFree_holds_of_over {s : State} (hreqs : s.NoReqs) (hover : s.AllOver) : s.Holds s.endFree := by
  unfold State.endFree
  split
  · exact .refl _
  · dsimp only
    have h0 : s.Holds { s with time := { s.time with freeDue := false } } := ⟨.of_slices rfl, rfl, rfl, rfl, rfl, rfl, rfl⟩
    split
    · exact h0
    · refine h0.trans (State.Holds.foldl_of (P := fun v => v.NoReqs ∧ v.AllOver) _
        (fun a b hab hp => ⟨hab.no_reqs hp.1, fun i u hu => hp.2 i u (by rwa [hab.runs i] at hu)⟩) (fun v i hv => ?_) ⟨hreqs, hover⟩)
      obtain ⟨hvr, hvo⟩ := hv
      have hlive : ((v.sl i).runs.filter fun u => !u.over) = [] := List.filter_eq_nil_iff.2 fun u hu => by simp [hvo i u hu]
      rw [hlive, List.filter_nil, State.endReqs_of_no_reqs (hvr i)]
      refine .onSl ?_
      rw [List.foldl_nil]
      have hmap : ((v.sl i).runs.map fun u => if u.over then u else { u with freed := true }) = (v.sl i).runs :=
        (List.map_congr_left fun u hu => if_pos (hvo i u hu)).trans (List.map_id _)
      simp only [SliceState.boundaryPart, SliceState.onRuns, hmap]

theorem State.portNext_freeDue (s : State) (i : Nat) : (s.portNext i).time.freeDue = s.time.freeDue := by
  unfold State.portNext
  split
  · rfl
  · split
    · rfl
    · dsimp only
      split <;> rfl

theorem State.afterTick_freeDue (s : State) : s.afterTick.time.freeDue = s.time.freeDue := by
  have h (v : State) : (v.eachSlice State.portNext).time.freeDue = v.time.freeDue := by
    unfold State.eachSlice
    exact foldl_agree (π := fun v : State => v.time.freeDue) State.portNext_freeDue _ _
  unfold State.afterTick
  rw [h]
  exact s.tick_keeps.2.2.2.2.2

theorem State.afterTick_inv {s : State} (hs : s.Inv) : s.afterTick.Inv :=
  ((State.Keeps.tick s).trans ((State.Keeps.onAll _ fun _ h => (h.takeDrip _).settleFetches _).trans (.eachSlice State.Keeps.portNext _))).2 hs

section
variable {s : State} {sl : SliceId} {u : Run}

/-- The stage `u` alone is left on the device. -/
def State.OneRun (s : State) (sl : SliceId) (u : Run) : Prop := (s.sl sl).runs = [u] ∧ ∀ i : Nat, i ≠ sl → (s.sl i).runs = []

theorem State.OneRun.holds {t : State} (h : s.OneRun sl u) (ht : s.Holds t) : t.OneRun sl u :=
  ⟨(ht.runs _).trans h.1, fun i hi => (ht.runs i).trans (h.2 i hi)⟩

theorem State.monitor_of_one (h : (s.sl sl).runs = [u]) (d : Drip) :
    s.monitor sl d = if u.missed s.still.on s.now then s.missRun sl u d else s := by
  unfold State.monitor
  rw [h, List.foldl_cons, List.foldl_nil, h]
  simp only [List.find?_cons, beq_self_eq_true, Bool.and_self]
  cases u.missed s.still.on s.now <;> rfl

theorem State.withdrawLaunches_of_not_waiting (h : (s.sl sl).runs = [u]) (hw : u.st ≠ .waiting) : s.withdrawLaunches sl = s := by
  unfold State.withdrawLaunches
  dsimp only
  rw [h, List.filter_cons_of_neg (by simp [hw]), List.filter_nil, List.foldl_nil]

/-- A launched stage in time is left alone. -/
theorem State.monitorAll_in_time (h : s.OneRun sl u) (hst : u.st = .launched) (hm : u.missed s.still.on s.now = false) (d : Drip) :
    s.eachSlice (fun v i => (v.monitor i d).withdrawLaunches i) = s := by
  have h0 : (s.monitor sl d).withdrawLaunches sl = s := by
    rw [State.monitor_of_one h.1, hm, if_neg Bool.false_ne_true, State.withdrawLaunches_of_not_waiting h.1 (by simp [hst])]
  rw [State.eachSlice_single sl.isLt (fun i hi => State.monitor_of_no_runs (h.2 i hi) d), h0]
  intro i hi
  rw [h0]
  exact State.monitor_of_no_runs (h.2 i hi) d

/-- A stage found missed is ended as missed, and no other acts. -/
theorem State.monitorAll_missed (hlen : s.slices.length = 8) (h : s.OneRun sl u) (hreqs : s.NoReqs) (hk : u.entry.kind ≠ .collective)
    (hm : u.missed s.still.on s.now = true) (d : Drip) :
    ((s.onSl sl fun x => x.missStage u).countMiss).Holds (s.eachSlice fun v i => (v.monitor i d).withdrawLaunches i) := by
  have hsl : (sl : Nat) < s.slices.length := by rw [hlen]; exact sl.isLt
  have hnr : (s.onSl sl fun x => x.missStage u).NoReqs := fun i => by
    rw [State.onSl_sl _ _ _ _ hsl]
    split
    · exact (SliceState.missStage_rest _ u).1.trans (hreqs i)
    · exact hreqs i
  have hone : ((s.onSl sl fun x => x.missStage u).countMiss).OneRun sl { u with st := .missed } := by
    refine ⟨?_, fun i hi => ?_⟩
    · show ((s.onSl sl fun x => x.missStage u).sl sl).runs = _
      rw [State.onSl_sl_self _ _ _ hsl]
      exact SliceState.missStage_runs h.1
    · show ((s.onSl sl fun x => x.missStage u).sl i).runs = _
      rw [State.onSl_sl_of_ne _ _ hi]
      exact h.2 i hi
  have hh := State.missRun_holds hk hnr d
  have hrun := hone.holds hh
  have h0 : (s.monitor sl d).withdrawLaunches sl = s.missRun sl u d := by
    rw [State.monitor_of_one h.1, hm, if_pos rfl, State.withdrawLaunches_of_not_waiting hrun.1 (by simp)]
  rw [State.eachSlice_single sl.isLt (fun i hi => State.monitor_of_no_runs (h.2 i hi) d), h0]
  · exact hh
  · intro i hi
    rw [h0]
    exact State.monitor_of_no_runs (hrun.2 i hi) d

/-- Withdrawing the stages of a slice leaves those of the other slices. -/
theorem State.withdrawLaunches_runs_of_ne (s : State) {i j : Nat} (h : j ≠ i) : ((s.withdrawLaunches i).sl j).runs = (s.sl j).runs := by
  unfold State.withdrawLaunches
  refine foldl_agree (π := fun v : State => (v.sl j).runs) (fun v u => ?_) _ s
  dsimp only
  have h0 : ((v.onSl i fun y => (y.freeParked u).endRunNow u .withdrawn).sl j).runs = (v.sl j).runs := by rw [State.onSl_sl_of_ne _ _ h]
  have h1 (st : Status) : (((v.onSl i fun y => (y.freeParked u).endRunNow u .withdrawn).endTied i u v.now v.now st).sl j).runs = (v.sl j).runs :=
    (State.Agree.endTied (π := SliceState.runs) (fun _ _ _ _ => rfl) j).trans h0
  split
  · exact h1 _
  · exact (State.Agree.report (π := SliceState.runs) (fun _ _ => rfl) j).trans (h1 _)

/-! ### What any end of a boundary keeps -/

/-- What decides the acts after the stages, and the drip. -/
structure State.HoldsTop (s t : State) : Prop where
  fec : State.Agree (fun x => x.ports.map fun l => (l.fecCount, l.fecHot)) s t
  job : t.job = s.job
  frame0 : t.frame0 = s.frame0
  rollout : t.fw.rollout = s.fw.rollout
  returning : t.fw.returning = s.fw.returning
  drip : t.time.drip = s.time.drip

end

namespace State.HoldsTop
variable {s t v : State}

theorem refl (s : State) : s.HoldsTop s := ⟨.refl _, rfl, rfl, rfl, rfl, rfl⟩

theorem trans (a : s.HoldsTop t) (b : t.HoldsTop v) : s.HoldsTop v :=
  ⟨a.fec.trans b.fec, b.job.trans a.job, b.frame0.trans a.frame0, b.rollout.trans a.rollout, b.returning.trans a.returning, b.drip.trans a.drip⟩

theorem of_holds (h : s.Holds t) : s.HoldsTop t :=
  ⟨fun i => (SliceState.boundaryPart_fields (h.view i)).2.2, h.job, h.frame0, h.rollout, h.returning, h.drip⟩

theorem onSl {i : Nat} {f : SliceState → SliceState} (h : ∀ x, (f x).ports = x.ports) : s.HoldsTop (s.onSl i f) :=
  ⟨.onSl fun x => by rw [h], rfl, rfl, rfl, rfl, rfl⟩

theorem foldl {α : Type} {f : State → α → State} (l : List α) (h : ∀ (s : State) (a : α), s.HoldsTop (f s a)) (s : State) : s.HoldsTop (l.foldl f s) := by
  induction l generalizing s with
  | nil => exact .refl _
  | cons a l ih => exact (h s a).trans (ih _)

theorem eachSlice {f : State → Nat → State} (h : ∀ (s : State) (i : Nat), s.HoldsTop (f s i)) (s : State) : s.HoldsTop (s.eachSlice f) :=
  foldl _ h s

theorem endReqs (i : Nat) (p : Request → Bool) (a b : Drip) (c : Status) (l : Nat) : s.HoldsTop (s.endReqs i p a b c l) :=
  onSl fun _ => SliceState.settleRows_agree (π := SliceState.ports) (fun _ _ _ _ => rfl) _ _

theorem endTied (i : Nat) (u : Run) (a b : Drip) (c : Status) : s.HoldsTop (s.endTied i u a b c) := by
  unfold State.endTied
  split
  · exact eachSlice (fun _ _ => endReqs ..) _
  · exact endReqs ..

theorem endRunNow_ports (x : SliceState) (u : Run) (st : RunState) : (x.endRunNow u st).ports = x.ports := by
  unfold SliceState.endRunNow SliceState.clearDue
  rw [SliceState.foldl_clearFlag]
  rfl

theorem freeParked_ports (x : SliceState) (u : Run) : (x.freeParked u).ports = x.ports := by
  unfold SliceState.freeParked
  split <;> rfl

theorem withdrawLaunches (i : Nat) : s.HoldsTop (s.withdrawLaunches i) := by
  unfold State.withdrawLaunches
  refine foldl _ (fun v u => ?_) s
  dsimp only
  have h : v.HoldsTop ((v.onSl i fun y => (y.freeParked u).endRunNow u .withdrawn).endTied i u v.now v.now
      (if (s.sl i).power.withheld then .throttle else .fault)) :=
    (onSl fun x => (endRunNow_ports ..).trans (freeParked_ports ..)).trans (endTied ..)
  split
  · exact h
  · exact h.trans (onSl fun _ => rfl)

theorem endFree : s.HoldsTop s.endFree := by
  unfold State.endFree
  split
  · exact .refl _
  · dsimp only
    have h0 : s.HoldsTop { s with time := { s.time with freeDue := false } } := ⟨.of_slices rfl, rfl, rfl, rfl, rfl, rfl⟩
    split
    · exact h0
    · refine h0.trans (eachSlice (fun v i => (endReqs ..).trans (onSl fun x => ?_)) _)
      exact foldl_agree (π := SliceState.ports) (fun z u => endRunNow_ports z u .withdrawn) _ _

end State.HoldsTop

end Sys2Proof.Machine
end

section
/-! The drip boundary. -/

namespace Sys2Proof.Machine

section
variable {s : State} {sl : SliceId} {u : Run} {j : Image}

/-- Whatever becomes of the stage: no frame starts, and what is left after entering FREE the boundary holds. -/
theorem State.dripBoundary_one (hs : s.Inv) (hrun : s.pkg.dividersRun = true) (hjob : s.job = some j) (hro : s.fw.rollout = 0)
    (hret : s.fw.returning = none) (hfec : s.NoFec) (hf : s.isFrameStart (s.now.plus 1) = false) (hreqs : s.NoReqs) (hone : s.OneRun sl u)
    (hpd : u.entry.kind ≠ .passDigest) (hm : s.afterTick.HoldsTop s.monitored) :
    ∃ t : State, exec .dripBoundary s = .next t ∧ t.now = s.now.plus 1 ∧ (s.monitored.eachSlice State.endLost).endFree.Holds t := by
  obtain ⟨-, -, kjob, kframe, kro, kret, know, -⟩ := State.afterTick_spec hs
  have he : s.afterTick.HoldsTop (s.monitored.eachSlice State.endLost).endFree :=
    (hm.trans (.eachSlice (fun _ _ => .endReqs ..) _)).trans .endFree
  have hej := he.job.trans (kjob.trans hjob)
  have hall := State.Quiet.afterFree (s := (s.monitored.eachSlice State.endLost).endFree)
    ⟨fun i c hc => hfec i c (((he.fec i).trans (State.afterTick_part hs hreqs i).2.2.2) ▸ hc), he.rollout.trans (kro.trans hro),
      he.returning.trans (kret.trans hret), fun hn => absurd (hn.symm.trans hej) (Option.some_ne_none j).symm⟩
  have hnow : (s.monitored.eachSlice State.endLost).endFree.afterFree.now = s.now.plus 1 := hall.drip.trans (he.drip.trans know)
  refine ⟨_, State.exec_dripBoundary_of_no_reqs hrun hreqs (fun i => ?_) rfl ?_, hnow, hall⟩
  · by_cases hi : i = sl
    · rw [hi, hone.1, List.filter_cons_of_neg, List.filter_nil]
      unfold SliceState.digestDue
      simp [hpd]
    · rw [hone.2 i hi, List.filter_nil]
  · rw [hnow]
    unfold State.isFrameStart at hf ⊢
    rw [hall.job, hej, hall.frame0, he.frame0, kframe, ← hjob]
    exact hf

/-- A stage that has not missed may be withdrawn, and no other acts. -/
theorem State.monitorAll_of_not_missed (h : s.OneRun sl u) (hm : u.missed s.still.on s.now = false) (d : Drip) :
    s.eachSlice (fun v i => (v.monitor i d).withdrawLaunches i) = s.withdrawLaunches sl := by
  have h0 : (s.monitor sl d).withdrawLaunches sl = s.withdrawLaunches sl := by
    rw [State.monitor_of_one h.1, hm, if_neg Bool.false_ne_true]
  rw [State.eachSlice_single sl.isLt (fun i hi => State.monitor_of_no_runs (h.2 i hi) d), h0]
  intro i hi
  rw [h0]
  exact State.monitor_of_no_runs ((s.withdrawLaunches_runs_of_ne hi).trans (h.2 i hi)) d

/-- The state that a missed stage leaves, before the boundary goes on. -/
def State.missed (s : State) (sl : Nat) (u : Run) : State := (s.onSl sl fun x => x.missStage u).countMiss

theorem State.missed_sl_self (hlen : s.slices.length = 8) : (s.missed sl u).sl sl = (s.sl sl).missStage u :=
  State.onSl_sl_self _ _ _ (by rw [hlen]; exact sl.isLt)

theorem State.missed_sl_of_ne {i : Nat} (hi : i ≠ sl) : (s.missed sl u).sl i = s.sl i := State.onSl_sl_of_ne _ _ hi

theorem State.missed_misses (s : State) (i : Nat) (u : Run) : (s.missed i u).time.stageMisses = s.time.stageMisses + 1 := rfl

theorem State.OneRun.missed (hlen : s.slices.length = 8) (h : s.OneRun sl u) : (s.missed sl u).OneRun sl { u with st := .missed } :=
  ⟨by rw [State.missed_sl_self hlen]; exact SliceState.missStage_runs h.1, fun i hi => by rw [State.missed_sl_of_ne hi]; exact h.2 i hi⟩

theorem State.NoReqs.missed (hlen : s.slices.length = 8) (h : s.NoReqs) : (s.missed sl u).NoReqs := fun i => by
  by_cases hi : i = sl
  · rw [hi, State.missed_sl_self hlen]; exact (SliceState.missStage_rest _ u).1.trans (h sl)
  · rw [State.missed_sl_of_ne hi]; exact h i

theorem State.HoldsTop.missed : s.HoldsTop (s.missed sl u) :=
  State.HoldsTop.trans (.onSl fun x => (SliceState.missStage_rest x u).2.2) ⟨.of_slices rfl, rfl, rfl, rfl, rfl, rfl⟩

theorem State.OneRun.allOver (h : s.OneRun sl u) (hu : u.over = true) : s.AllOver := fun i w hw => by
  by_cases hi : i = sl
  · rw [hi, h.1, List.mem_singleton] at hw
    rw [hw]
    exact hu
  · rw [h.2 i hi] at hw
    cases hw

/-- A boundary that finds the stage missed. -/
theorem State.dripBoundary_missed (hs : s.Inv) (hrun : s.pkg.dividersRun = true) (hjob : s.job = some j) (hro : s.fw.rollout = 0)
    (hret : s.fw.returning = none) (hfec : s.NoFec) (hf : s.isFrameStart (s.now.plus 1) = false) (hreqs : s.NoReqs) (hone : s.OneRun sl u)
    (hk : u.entry.kind ≠ .collective) (hpd : u.entry.kind ≠ .passDigest) (hone' : s.afterTick.OneRun sl u)
    (hm : u.missed s.afterTick.still.on s.afterTick.now = true) :
    ∃ t : State, exec .dripBoundary s = .next t ∧ t.now = s.now.plus 1 ∧ (s.afterTick.missed sl u).Holds t := by
  have hlen := (State.afterTick_inv hs).1.1
  have hreqs' : s.afterTick.NoReqs := fun i => (State.afterTick_part hs hreqs i).2.1
  have hh : (s.afterTick.missed sl u).Holds s.monitored := State.monitorAll_missed hlen hone' hreqs' hk hm s.now
  obtain ⟨t, ht, htn, hbt⟩ := State.dripBoundary_one hs hrun hjob hro hret hfec hf hreqs hone hpd (State.HoldsTop.missed.trans (.of_holds hh))
  have hnr := hh.no_reqs (hreqs'.missed hlen)
  refine ⟨t, ht, htn, ?_⟩
  rw [State.endLost_of_no_reqs hnr] at hbt
  exact hh.trans ((State.endFree_holds_of_over hnr (((hone'.missed hlen).holds hh).allOver rfl)).trans hbt)

end

/-- Settles O27: without requests nothing but the drip, the flags of the boundary and what waits for a drip changes on a slice, and of the one
stage live the monitoring alone decides. -/
theorem dripBoundary : Obligations.DripBoundary := by
  unfold Obligations.DripBoundary
  refine ⟨fun s hs => ⟨fun hrun hjob hq hno => ?_, fun hrun => ?_⟩, fun s sl u j hs hrun hjob hq hf hreq hru hoth hk hpd => ?_⟩
  · obtain ⟨hro, hret, hfec⟩ := hq
    have hreqs := State.noReqs_of fun x hx => (hno x hx).2.1
    obtain ⟨t, ht, htn, htj, hpart⟩ := State.dripBoundary_idle hs hrun hjob
      ⟨State.noFec_of hfec, hro, hret, fun _ => State.forall_sl (P := fun x => x.spares.waiting = []) (fun x hx => (hno x hx).2.2) rfl⟩ hreqs
      (State.forall_sl (P := fun x => x.runs = []) (fun x hx => (hno x hx).1) rfl)
    refine ⟨t, ht, htn, htj, fun sl => ?_⟩
    obtain ⟨⟨h1, h2, h3, h4, h5⟩, -⟩ := SliceState.boundaryPart_fields (hpart sl sl.isLt)
    have hok := hs.sl sl.isLt
    have hr := hreqs sl
    refine ⟨by rw [h1, SliceState.takeDrip_eq hr], by rw [h2, SliceState.takeDrip_eq hr], by rw [h3, h1, SliceState.takeDrip_eq hr],
      fun e h d hd => ?_, fun q d hd => ?_⟩
    · have he : t.thread sl e h = (((s.sl sl).takeDrip (s.now.plus 1)).engine e).thread h := by
        unfold State.thread SliceState.engine
        rw [h4]
      rw [he, SliceState.takeDrip_thread hok hr]
      exact Thread.onDrip_st hd
    · have he : t.quad sl q = ((s.sl sl).takeDrip (s.now.plus 1)).quad q := by
        unfold State.quad SliceState.quad
        rw [h5]
      rw [he, SliceState.takeDrip_quad hok hr]
      exact Quad.onDrip_st hd
  · show execDripBoundary s = _
    unfold execDripBoundary
    rw [hrun]
    rfl
  · obtain ⟨hro, hret, hfec⟩ := hq
    have hfec := State.noFec_of hfec
    have hreqs := State.noReqs_of hreq
    have hapart := State.afterTick_part hs hreqs
    have hone : s.OneRun sl u := ⟨hru, fun i hi => ?_⟩
    swap
    · obtain h8 | h8 := Nat.lt_or_ge i 8
      · exact hoth ⟨i, h8⟩ fun e => hi (congrArg Fin.val e)
      · unfold State.sl
        rw [List.getD_eq_getElem?_getD, List.getElem?_eq_none (by rw [hs.1.1]; exact h8)]
        rfl
    have haone : s.afterTick.OneRun sl u := ⟨(hapart sl).1.trans hone.1, fun i hi => (hapart i).1.trans (hone.2 i hi)⟩
    have hainv := State.afterTick_inv hs
    obtain ⟨hain, -, -, -, -, -, know, kmiss⟩ := State.afterTick_spec hs
    by_cases hm : u.missed s.afterTick.still.on s.afterTick.now = true
    · obtain ⟨t, ht, htn, hbt⟩ := State.dripBoundary_missed hs hrun hjob hro hret hfec hf hreqs hone hk hpd haone hm
      refine ⟨t, ht, htn, fun _ => ⟨((haone.missed hainv.1.1).holds hbt).1, by rw [hbt.misses, State.missed_misses, kmiss], fun e h hu hmem hrunh => ?_⟩,
        fun hst hlate hin => ?_⟩
      · obtain ⟨⟨-, -, -, heng, -⟩, -⟩ := SliceState.boundaryPart_fields (hbt.view sl)
        have he : t.thread sl e h = (((s.afterTick.sl sl).missStage u).engine e).thread h := by
          unfold State.thread SliceState.engine
          rw [heng, State.missed_sl_self hainv.1.1]
        rw [he]
        refine SliceState.missStage_idle (hainv.sl sl.isLt) hu hmem ?_
        obtain ⟨⟨-, -, -, haeng, -⟩, -⟩ := SliceState.boundaryPart_fields (hain sl sl.isLt)
        have ha : ((s.afterTick.sl sl).engine e).thread h = (((s.sl sl).takeDrip (s.now.plus 1)).engine e).thread h := by
          unfold SliceState.engine
          rw [haeng]
        rw [ha, SliceState.takeDrip_thread (hs.sl sl.isLt) (hreqs sl), Thread.onDrip_run]
        exact hrunh
      · rw [know] at hm
        simp [Run.missed, hst, hlate, hin] at hm
    · have hm' := Bool.eq_false_iff.2 hm
      have hw : s.monitored = s.afterTick.withdrawLaunches sl := State.monitorAll_of_not_missed haone hm' s.now
      obtain ⟨t, ht, htn, hbt⟩ := State.dripBoundary_one hs hrun hjob hro hret hfec hf hreqs hone hpd (by rw [hw]; exact .withdrawLaunches _)
      refine ⟨t, ht, htn, fun hmiss => absurd ?_ hm, fun hst _ _ hfree => ?_⟩
      · rw [know]
        obtain ⟨hst, hl | hl⟩ | ⟨hst, hl⟩ := hmiss <;> simp [Run.missed, hst, hl]
      · rw [State.withdrawLaunches_of_not_waiting haone.1 (by simp [hst])] at hw
        have hfr : s.afterTick.endFree = s.afterTick := by
          unfold State.endFree
          rw [State.afterTick_freeDue, hfree]
          rfl
        rw [hw, State.endLost_of_no_reqs fun i => (hapart i).2.1, hfr] at hbt
        exact ⟨(haone.holds hbt).1, hbt.misses.trans kmiss⟩

end Sys2Proof.Machine
end

section
/-! SUPPORT. The state of the time base. -/

namespace Sys2Proof.Machine

/-! ### The time base: what a change of its state leaves alone -/

theorem State.setTimeState_time (s : State) (st : Nat) :
    (s.setTimeState st).time = if s.time.state = st then s.time else { s.time with state := st, good := 0, stepped := false } := by
  unfold State.setTimeState
  dsimp only
  split
  · rfl
  · rw [State.cause_time]
    split <;> rfl

theorem State.setTimeState_state (s : State) (st : Nat) : (s.setTimeState st).time.state = st := by
  rw [State.setTimeState_time]
  split
  · next h => exact h
  · rfl

theorem State.setTimeState_now (s : State) (st : Nat) : (s.setTimeState st).time.now = s.time.now := by
  rw [State.setTimeState_time]
  split <;> rfl

/-- The slices keep their ports, whatever is reported. -/
theorem State.setTimeState_ports (s : State) (st : Nat) : State.Agree SliceState.ports s (s.setTimeState st) := by
  unfold State.setTimeState
  dsimp only
  have h : State.Agree SliceState.ports s (if s.time.state = 2 && st = 1 then
      ({ s with time := { s.time with state := st, good := 0, stepped := false } } : State).report 0 (mkReport 0x03 13 0)
      else { s with time := { s.time with state := st, good := 0, stepped := false } }) :=
    .ite (.comp (.report fun _ _ => rfl) (.of_slices rfl)) (.of_slices rfl)
  exact .ite (.refl _) (h.trans (.of_slices (State.cause_slices ..)))

theorem State.Agree.link {s t : State} (h : State.Agree SliceState.ports s t) (i : Nat) (p : PortId) : t.link i (.port p) = s.link i (.port p) := by
  unfold State.link SliceState.link
  rw [h i]

theorem State.becomeGrandmaster_spec (s : State) : s.becomeGrandmaster.time.state = 4 ∧ s.becomeGrandmaster.time.gmNode = s.pkg.nodeId ∧
    s.becomeGrandmaster.time.hops = 0 ∧ s.becomeGrandmaster.time.hasOrigin = true ∧ State.Agree SliceState.ports s s.becomeGrandmaster := by
  have hu (lk : Bool) (t : State) (ht : t.time.gmNode = s.pkg.nodeId ∧ t.time.hops = 0) (hp : State.Agree SliceState.ports s t) :
      (fun v : State => v.time.state = 4 ∧ v.time.gmNode = s.pkg.nodeId ∧ v.time.hops = 0 ∧ v.time.hasOrigin = true ∧ State.Agree SliceState.ports s v)
        ((if t.time.hasOrigin then t else t.setOrigin (if lk then 0 else roundUp t.time.now beatUnits)).setTimeState 4) := by
    have h (w : State) (hw : w.time.gmNode = s.pkg.nodeId ∧ w.time.hops = 0) (ho : w.time.hasOrigin = true) (hwp : State.Agree SliceState.ports s w) :
        (w.setTimeState 4).time.state = 4 ∧ (w.setTimeState 4).time.gmNode = s.pkg.nodeId ∧ (w.setTimeState 4).time.hops = 0 ∧
          (w.setTimeState 4).time.hasOrigin = true ∧ State.Agree SliceState.ports s (w.setTimeState 4) := by
      refine ⟨w.setTimeState_state 4, ?_, ?_, ?_, hwp.trans (w.setTimeState_ports 4)⟩ <;> rw [State.setTimeState_time] <;> split
      exacts [hw.1, hw.1, hw.2, hw.2, ho, ho]
    dsimp only
    split
    · next ho => exact h t ht ho hp
    · exact h _ ht rfl (hp.trans (.of_slices rfl))
  exact hu _ _ ⟨rfl, rfl⟩ (.of_slices rfl)

/-! ### A TIME symbol and the error bound -/

theorem State.judgeBound_locked {s : State} (h : s.time.state = 2) (b : Nat) :
    (fun t : State => t.time.now = s.time.now ∧ t.time.slewing = s.time.slewing ∧ t.time.offset = s.time.offset ∧ t.time.delay = s.time.delay ∧
      t.time.errBound = b ∧ t.time.state = (if b ≤ 512 then 2 else 1) ∧ t.now = s.now) (s.judgeBound b) := by
  unfold State.judgeBound
  dsimp only
  split
  · simp [h, State.now]
  · simp [h, State.now, State.setTimeState_time]

theorem State.judgeBound_acquiring {s : State} (h : s.time.state = 1) (b : Nat) :
    (s.judgeBound b).time.now = s.time.now ∧ (s.judgeBound b).time.state = if b ≤ 512 ∧ 63 ≤ s.time.good then 2 else 1 := by
  unfold State.judgeBound
  dsimp only
  by_cases hb : b ≤ 512
  · by_cases hg : 63 ≤ s.time.good
    · rw [if_pos (c := b ≤ 512 ∧ 63 ≤ s.time.good) ⟨hb, hg⟩, if_pos hb, if_pos (by simpa [h] using hg)]
      split
      · exact ⟨State.setTimeState_now .., State.setTimeState_state ..⟩
      · split
        · exact ⟨State.setTimeState_now .., State.setTimeState_state ..⟩
        · exact ⟨State.setTimeState_now .., State.setTimeState_state ..⟩
    · rw [if_neg (c := b ≤ 512 ∧ 63 ≤ s.time.good) (fun hc => hg hc.2), if_pos hb, if_neg (by simp [h]; omega)]
      exact ⟨rfl, h⟩
  · rw [if_neg (c := b ≤ 512 ∧ 63 ≤ s.time.good) (fun hc => hb hc.1), if_neg hb, if_neg (by simp [h])]
    exact ⟨rfl, h⟩

/-! ### A TIME packet -/

/-- What following the grandmaster of a packet leaves. -/
def State.Followed (s t : State) (n : Nat) (y : TimePkt) : Prop :=
  State.Agree SliceState.ports s t ∧ t.time.parent = n ∧ t.time.gmNode = y.gmNode ∧ t.time.hops = y.hops + 1 ∧
    t.time.state = if s.time.state = 1 ∨ s.time.state = 2 then s.time.state else 1

theorem State.meetOrigin_spec (s : State) (o : Nat) : State.Agree SliceState.ports s (s.meetOrigin o) ∧ (s.meetOrigin o).time.parent = s.time.parent ∧
    (s.meetOrigin o).time.gmNode = s.time.gmNode ∧ (s.meetOrigin o).time.hops = s.time.hops ∧ (s.meetOrigin o).time.state = s.time.state := by
  unfold State.meetOrigin
  dsimp only
  split
  · exact ⟨.of_slices rfl, rfl, rfl, rfl, rfl⟩
  · split
    · exact ⟨.of_slices rfl, rfl, rfl, rfl, rfl⟩
    · split
      · exact ⟨.of_slices rfl, rfl, rfl, rfl, rfl⟩
      · exact ⟨.comp (.report fun _ _ => rfl) (.of_slices rfl), rfl, rfl, rfl, rfl⟩

theorem State.follow_of_only {s : State} {n : Nat} {y : TimePkt} (h : s.timePorts = [(n, y)]) (lk : Bool) : s.Followed (s.follow (lk, y.gmNode)) n y := by
  have hp : s.parentFor y.gmNode = some (n, y) := by simp [State.parentFor, h]
  unfold State.follow
  dsimp only
  rw [hp]
  dsimp only
  have hm (v : State) (hv : s.Followed v n y) : s.Followed (v.meetOrigin y.dripOrigin) n y := by
    obtain ⟨h1, h2, h3, h4, h5⟩ := v.meetOrigin_spec y.dripOrigin
    obtain ⟨k1, k2, k3, k4, k5⟩ := hv
    exact ⟨k1.trans h1, h2.trans k2, h3.trans k3, h4.trans k4, h5.trans k5⟩
  have hu (u : State) (hus : u.time.state = s.time.state) (hup : State.Agree SliceState.ports s u) (hu : u.time.parent = n ∧ u.time.gmNode = y.gmNode ∧ u.time.hops = y.hops + 1) :
      s.Followed (if u.time.state = 2 || u.time.state = 1 then u else u.setTimeState 1) n y := by
    obtain ⟨u1, u2, u3⟩ := hu
    split
    · next hc =>
      have hc' : s.time.state = 1 ∨ s.time.state = 2 := by simpa [hus, or_comm] using hc
      exact ⟨hup, u1, u2, u3, by rw [if_pos hc', hus]⟩
    · next hc =>
      have hc' : ¬(s.time.state = 1 ∨ s.time.state = 2) := by simpa [hus, or_comm, not_or, and_comm] using hc
      have hne : u.time.state ≠ 1 := fun he => hc' (.inl (hus.symm.trans he))
      refine ⟨hup.trans (u.setTimeState_ports 1), ?_, ?_, ?_, by rw [if_neg hc', State.setTimeState_state]⟩ <;> rw [State.setTimeState_time, if_neg hne]
      exacts [u1, u2, u3]
  refine hm _ (hu _ ?_ ?_ ?_)
  · split <;> rfl
  · exact .ite (.comp (.report fun _ _ => rfl) (.of_slices rfl)) (.of_slices rfl)
  · split <;> exact ⟨rfl, rfl, rfl⟩

/-- A device that hears the one packet of a better grandmaster follows it. -/
theorem State.chooseParent_of_only {s : State} {n : Nat} {y : TimePkt} (h : s.timePorts = [(n, y)]) (hy : y.gmNode ≠ s.pkg.nodeId)
    (hown : s.ownClaim = false) (hbest : y.gmLocked = true ∨ y.gmNode < s.pkg.nodeId)
    (hheld : s.time.state = 4 → s.time.held = true → y.gmLocked = true) : s.Followed s.chooseParent n y := by
  unfold State.chooseParent
  by_cases hg : s.gmStays = true
  · rw [if_pos hg]
    simp only [State.gmStays, hown, h, List.all_cons, List.all_nil, List.any_cons, List.any_nil, Bool.and_eq_true, Bool.or_eq_true,
      Bool.not_eq_true', beq_iff_eq, bne_iff_ne, Bool.and_true, Bool.or_false] at hg
    obtain ⟨⟨⟨-, hul⟩, hh⟩, hgm⟩ := hg
    have h4 : s.time.state ≠ 4 := fun he => by
      obtain hh | ⟨hne, -⟩ := hh
      · rw [hheld he hh] at hul; cases hul
      · exact hne he
    rw [if_neg h4, ← hgm.resolve_left h4]
    exact State.follow_of_only h false
  · have hb : s.bestClaim = some (y.gmLocked, y.gmNode) := by simp [State.bestClaim, h, hy]
    have hc : claimBetter (s.ownClaim, s.pkg.nodeId) (y.gmLocked, y.gmNode) = false := by
      rw [hown]
      obtain hl | hl := hbest
      · simp [claimBetter, hl]
      · simp only [claimBetter, Bool.false_and, Bool.false_or]
        simp; omega
    rw [if_neg hg, hb]
    dsimp only
    rw [hc, if_neg Bool.false_ne_true]
    exact State.follow_of_only h _

end Sys2Proof.Machine
end

section
/-! TIME symbols and TIME packets. -/

namespace Sys2Proof.Machine

/-! ### The links of a state -/

theorem State.link_onLink_self {s : State} (hs : s.Inv) (sl : SliceId) (p : PortId) (f : Link → Link) :
    (s.onLink sl (.port p) f).link sl (.port p) = f (s.link sl (.port p)) := by
  have hsl : (sl : Nat) < s.slices.length := by rw [hs.1.1]; exact sl.isLt
  have hp : (p : Nat) < (s.sl sl).ports.length := by rw [(hs.sl sl.isLt).2.2.2.1]; exact p.isLt
  unfold State.link State.onLink
  rw [State.onSl_sl_self _ _ _ hsl]
  simp [SliceState.link, SliceState.onLink, List.getD_eq_getElem?_getD, hp]

theorem State.link_onLink_of_ne (s : State) {i j : Nat} {p r : PortId} (h : ¬(j = i ∧ r = p)) (f : Link → Link) :
    (s.onLink i (.port p) f).link j (.port r) = s.link j (.port r) := by
  unfold State.link State.onLink
  by_cases hji : j = i
  · have hrp : (p : Nat) ≠ r := fun e => h ⟨hji, (Fin.ext e).symm⟩
    obtain hi | hi := Nat.lt_or_ge i s.slices.length
    · rw [hji, State.onSl_sl_self _ _ _ hi]
      simp [SliceState.link, SliceState.onLink, List.getD_eq_getElem?_getD, hrp]
    · rw [State.onSl_sl_of_le _ _ hi]
  · rw [State.onSl_sl_of_ne _ _ hji]

theorem State.onLink_congr {s : State} {i : Nat} {p : PortId} {f g : Link → Link} (h : f (s.link i (.port p)) = g (s.link i (.port p))) :
    s.onLink i (.port p) f = s.onLink i (.port p) g := by
  refine State.onSl_congr ?_
  unfold SliceState.onLink
  dsimp only
  rw [List.modify_congr_getD h]

theorem flatten_map_single {α : Type} {g : Nat → List α} {k : Nat} (l : List Nat) (hnd : l.Nodup) (hk : k ∈ l) (h : ∀ n ∈ l, n ≠ k → g n = []) :
    (l.map g).flatten = g k := by
  induction l with
  | nil => cases hk
  | cons a l ih =>
    obtain ⟨hal, hnd⟩ := List.nodup_cons.1 hnd
    rw [List.map_cons, List.flatten_cons]
    by_cases hak : a = k
    · subst hak
      have hnil : (l.map g).flatten = [] := List.flatten_eq_nil_iff.2 fun x hx => by
        obtain ⟨n, hn, rfl⟩ := List.mem_map.1 hx
        exact h n (List.mem_cons_of_mem _ hn) fun e => hal (e ▸ hn)
      rw [hnil, List.append_nil]
    · rw [h a List.mem_cons_self hak, List.nil_append]
      exact ih hnd ((List.mem_cons.1 hk).resolve_left fun e => hak e.symm) fun n hn => h n (List.mem_cons_of_mem _ hn)

/-- With one port that carries time. -/
theorem State.timePorts_of_only {s : State} {sl : SliceId} {p : PortId} {y : TimePkt} (hy : (s.link sl (.port p)).timePkt = some y)
    (hup : (s.link sl (.port p)).st = linkUp)
    (hno : ∀ (i : SliceId) (r : PortId), (i, r) ≠ (sl, p) → (s.link i (.port r)).timePkt = none) : s.timePorts = [(8 * sl.val + p.val, y)] := by
  have hdiv : (8 * sl.val + p.val) / 8 = sl.val := by omega
  have hmod : (Fin.ofNat 8 (8 * sl.val + p.val) : PortId) = p := Fin.ext (by simp [Fin.ofNat])
  unfold State.timePorts
  rw [flatten_map_single (k := 8 * sl.val + p.val) _ List.nodup_range (List.mem_range.2 (by omega))]
  · dsimp only
    rw [hdiv, hmod, hy]
    exact if_pos hup
  · intro n hn hne
    have hn := List.mem_range.1 hn
    have h := hno ⟨n / 8, by omega⟩ (Fin.ofNat 8 n) fun e => hne (by
      obtain ⟨h1, h2⟩ := Prod.mk.inj e
      have h1 := congrArg Fin.val h1
      have h2 := congrArg Fin.val h2
      simp [Fin.ofNat] at h1 h2
      omega)
    dsimp only at h ⊢
    rw [h]

/-- A device that stands alone makes itself grandmaster before it sends its first TIME packet. -/
theorem State.timePacketSend_alone {s : State} (hs : s.Inv) {sl : SliceId} {p : PortId} (hup : (s.link sl (.port p)).st = linkUp)
    (halone : s.standAlone = s.becomeGrandmaster) : ∃ t : State, exec (.timePacketSend sl p) s = .next t ∧
      t.time.state = 4 ∧ t.time.gmNode = s.pkg.nodeId ∧ t.time.hops = 0 ∧ t.time.hasOrigin = true ∧
      ∃ q ∈ (t.link sl (.port p)).egressReq, q.pkt.opcode = 0x18 := by
  obtain ⟨h1, h2, h3, h4, hp⟩ := s.becomeGrandmaster_spec
  have hinv : s.becomeGrandmaster.Inv := (State.Keeps.becomeGrandmaster s).2 hs
  refine ⟨s.becomeGrandmaster.enqueue sl (.port p) .own (timePacket s.becomeGrandmaster sl) none, ?_, h1, h2, h3, h4, ?_⟩
  · show execTimePacketSend sl p s = _
    unfold execTimePacketSend
    rw [halone]
    exact if_pos ((congrArg Link.st (hp.link sl p)).trans hup)
  · unfold State.enqueue
    rw [State.link_onLink_self hinv]
    exact ⟨_, List.mem_append_right _ List.mem_cons_self, rfl⟩

/-- A TIME symbol that pairs on the parent port, while locked and with a job loaded. -/
theorem State.takeTimeSymbol_locked {s : State} {sl : SliceId} {p : PortId} {y : TimeSym} (hup : (s.link sl (.port p)).st = linkUp)
    (hpar : s.time.parent = 8 * sl.val + p.val) (hy : paired y = true) (hst : s.time.state = 2) (hj : s.job.isSome = true) :
    (fun t : State => t.time.now = s.time.now ∧ t.time.slewing = symbolOffset y ∧ t.time.offset = symbolOffset y ∧ t.time.delay = symbolDelay y ∧
      t.time.errBound = errorBound y.gmErr (symbolOffset y) ∧ t.time.state = (if errorBound y.gmErr (symbolOffset y) ≤ 512 then 2 else 1) ∧ t.now = s.now)
      (s.takeTimeSymbol sl p y) := by
  unfold State.takeTimeSymbol
  rw [if_pos hup]
  dsimp only
  rw [if_pos (by simp [hpar, hst, hy]), if_neg (by simp [Option.isNone_eq_false_iff.2 hj])]
  exact State.judgeBound_locked (by exact hst) _

/-- One that pairs on the parent port, while acquiring for the first time with no job loaded. -/
theorem State.takeTimeSymbol_acquiring {s : State} {sl : SliceId} {p : PortId} {y : TimeSym} (hup : (s.link sl (.port p)).st = linkUp)
    (hpar : s.time.parent = 8 * sl.val + p.val) (hy : paired y = true) (hst : s.time.state = 1) (hj : s.job = none) (hstep : s.time.stepped = false) :
    (s.takeTimeSymbol sl p y).time.now = ((s.time.now : Int) + symbolOffset y).toNat ∧
      (s.takeTimeSymbol sl p y).time.state = if errorBound y.gmErr (symbolOffset y) ≤ 512 ∧ 63 ≤ s.time.good then 2 else 1 := by
  unfold State.takeTimeSymbol
  rw [if_pos hup]
  dsimp only
  rw [if_pos (by simp [hpar, hst, hy]), if_pos (by simp [hj, hst, hstep])]
  exact State.judgeBound_acquiring (by exact hst) _

/-- One on another port, or one that echoes nothing. -/
theorem State.takeTimeSymbol_elsewhere {s : State} {sl : SliceId} {p : PortId} {y : TimeSym} (hup : (s.link sl (.port p)).st = linkUp)
    (h : s.time.parent ≠ 8 * sl.val + p.val ∨ paired y = false) :
    s.takeTimeSymbol sl p y = s.onLink sl (.port p) fun k => { k with timeRx := some (y.t1, y.rx), gmErr := y.gmErr } := by
  unfold State.takeTimeSymbol
  rw [if_pos hup]
  dsimp only
  refine if_neg ?_
  obtain h | h := h <;> simp [h]

/-- Settles O29, along what a symbol or a packet on the parent port changes of the time. -/
theorem timeSymbolsAndPackets : Obligations.TimeSymbolsAndPackets := by
  unfold Obligations.TimeSymbolsAndPackets
  intro s sl p hs hup
  refine ⟨?_, fun hno => ?_, fun hst hor hno => ?_, fun y => ⟨fun h => ?_, fun hpar hy hst hj => ?_, fun hpar hy hst hj hstep => ?_⟩,
    fun y hy hown hbest hheld hoth => ?_⟩
  · show execTimeSymbolSend sl p s = _
    unfold execTimeSymbolSend
    dsimp only
    rw [if_pos hup]
    exact congrArg Host.Outcome.next (State.onLink_congr rfl)
  · have ha : s.standAlone = s := by
      refine if_neg ?_
      obtain h | h | h := hno <;> simp [h]
    show execTimePacketSend sl p s = _
    unfold execTimePacketSend
    rw [ha]
    exact if_pos hup
  · refine State.timePacketSend_alone hs hup (if_pos ?_)
    simp [hst, hor, hno]
  · exact congrArg Host.Outcome.next (State.takeTimeSymbol_elsewhere hup h)
  · exact ⟨_, rfl, State.takeTimeSymbol_locked hup hpar hy hst hj⟩
  · exact ⟨_, rfl, State.takeTimeSymbol_acquiring hup hpar hy hst hj hstep⟩
  · have hlink := State.link_onLink_self hs sl p fun k => { k with timePkt := some y }
    have honly := State.timePorts_of_only (s := s.onLink sl (.port p) fun k => { k with timePkt := some y }) (by rw [hlink]) (by rw [hlink]; exact hup)
      fun i r hne => by
        rw [State.link_onLink_of_ne]
        · exact hoth i r hne
        · exact fun e => hne (Prod.ext (Fin.ext e.1) e.2)
    obtain ⟨h1, h2, h3, h4, h5⟩ := State.chooseParent_of_only honly hy hown hbest hheld
    refine ⟨_, ?_, by rw [h1.link, hlink], h2, h3, h4, h5⟩
    show execTimePacket sl p y s = _
    unfold execTimePacket
    exact if_pos hup

end Sys2Proof.Machine
end

section
/-! The end of holdover beside an ended stage. -/

namespace Sys2Proof.Machine

/-! ### A live stage beside an ended one of its number -/

/-- An injection over a port, which has been completed. -/
def freeWitnessDone : Run :=
  { idx := 0, frame := 0, st := .completed
    entry := { kind := .inject, unit := .port 0, launch := 0, duration := 1, due := 0, inputs := [], f := {} } }

/-- A stage of the same number and frame start that waits, and that stays on the device. -/
def freeWitnessLive : Run :=
  { idx := 0, frame := 0, st := .waiting
    entry := { kind := .view, unit := .sequencer, launch := 0, duration := 1, due := 0, inputs := [], f := {} } }

def freeWitness : State :=
  { State.reset.onSl 0 fun x => { x with runs := [freeWitnessDone, freeWitnessLive] } with
    time := { State.reset.time with freeDue := true }
    job := some {} }

theorem freeWitness_inv : freeWitness.Inv :=
  (State.Keeps.onSl State.reset 0 (f := fun x => { x with runs := [freeWitnessDone, freeWitnessLive] }) fun _ hx => hx).2 resetInv.1

/-- Refutes O30: an ended injection that would be stopped whole has nothing of its number ended with it. -/
theorem not_timeInputAndHoldover : ¬ Obligations.TimeInputAndHoldover := by
  intro h
  obtain ⟨-, -, -, -, -, -, -, -, hfree⟩ := h freeWitness freeWitness_inv
  obtain ⟨-, -, hstop, -⟩ := hfree rfl (by decide) rfl 0
  have hover := hstop freeWitnessDone (by decide) (by decide) { freeWitnessLive with freed := true } (by decide +kernel) rfl rfl
  exact absurd hover (by decide)

end Sys2Proof.Machine
end

section
/-! SUPPORT. The stages of a failed unit. -/

namespace Sys2Proof.Machine

/-! ### The stages of a failed unit -/

/-- What the failing of a unit and the ending of requests leave alone, each in its own way. -/
def SliceState.unitPart (x : SliceState) := (x.runs, x.engines, x.quads, x.spares)

theorem SliceState.unitPart_fields {x y : SliceState} (h : x.unitPart = y.unitPart) :
    x.runs = y.runs ∧ x.engines = y.engines ∧ x.quads = y.quads ∧ x.spares = y.spares := by
  simpa only [SliceState.unitPart, Prod.mk.injEq] using h

theorem SliceState.endRun_parts (x : SliceState) (r : Run) (st : RunState) :
    ((x.endRun r st).engines, (x.endRun r st).quads, (x.endRun r st).spares) = (x.engines, x.quads, x.spares) := rfl

/-- After the stages of a list have been withdrawn, a launched one is none of them. -/
theorem SliceState.foldl_endRun_launched (l : List Run) (x : SliceState) :
    ∀ w ∈ (l.foldl (fun (y : SliceState) r => y.endRun r .withdrawn) x).runs, w.st = .launched → w ∈ x.runs ∧ w ∉ l := by
  induction l generalizing x with
  | nil => exact fun w hw _ => ⟨hw, List.not_mem_nil⟩
  | cons r l ih =>
    intro w hw hst
    obtain ⟨hmem, hnot⟩ := ih _ w hw hst
    obtain ⟨v, hv, he⟩ := List.mem_map.1 hmem
    by_cases hc : (v.idx == r.idx && v.frame == r.frame) = true
    · rw [if_pos hc] at he
      rw [← he] at hst
      cases hst
    · rw [if_neg hc] at he
      subst he
      refine ⟨hv, fun hm => ?_⟩
      obtain rfl | hm := List.mem_cons.1 hm
      · simp at hc
      · exact hnot hm

section
variable {s : State} {sl : SliceId} {u : UnitRef}

/-- The stages live on a failed unit are withdrawn; threads, quads and spares stay as they are. -/
theorem State.failLive_spec (hs : s.Inv) (u : UnitRef) :
    (∀ w ∈ ((s.failLive sl u).sl sl).runs, onUnit u w.entry.unit = true → w.st ≠ .launched) ∧
    (((s.failLive sl u).sl sl).engines = (s.sl sl).engines ∧ ((s.failLive sl u).sl sl).quads = (s.sl sl).quads ∧
      ((s.failLive sl u).sl sl).spares = (s.sl sl).spares) := by
  have ha : State.Agree SliceState.unitPart s (((s.sl sl).liveOn u).foldl (fun (v : State) r => v.faultStage sl r .fault) s) :=
    .foldl (fun _ _ => .faultStage fun _ _ _ _ => rfl) _ _
  obtain ⟨hr, he, hq, hp⟩ := SliceState.unitPart_fields (ha sl)
  have hl : (sl : Nat) < (((s.sl sl).liveOn u).foldl (fun (v : State) r => v.faultStage sl r .fault) s).slices.length := by
    rw [((State.Keeps.foldl (fun t r => State.Keeps.faultStage t sl r .fault) _ s).2 hs).1.1]
    exact sl.isLt
  have hsl : (s.failLive sl u).sl sl = ((s.sl sl).liveOn u).foldl (fun (y : SliceState) r => y.endRun r .withdrawn)
      ((((s.sl sl).liveOn u).foldl (fun (v : State) r => v.faultStage sl r .fault) s).sl sl) := State.onSl_sl_self _ _ _ hl
  have hparts := foldl_agree (π := fun y : SliceState => (y.engines, y.quads, y.spares)) (f := fun (y : SliceState) r => y.endRun r .withdrawn)
    (fun x r => SliceState.endRun_parts x r .withdrawn) ((s.sl sl).liveOn u) ((((s.sl sl).liveOn u).foldl (fun (v : State) r => v.faultStage sl r .fault) s).sl sl)
  rw [hsl]
  refine ⟨fun w hw hon hst => ?_, ?_⟩
  · obtain ⟨hmem, hnot⟩ := SliceState.foldl_endRun_launched _ _ w hw hst
    rw [hr] at hmem
    exact hnot (List.mem_filter.2 ⟨hmem, by simp [hst, hon]⟩)
  · simp only [Prod.mk.injEq] at hparts
    obtain ⟨h1, h2, h3⟩ := hparts
    exact ⟨h1.trans he, h2.trans hq, h3.trans hp⟩

end

/-! ### A failed engine -/

theorem SliceState.foldl_stopThread_idle {e : EngineId} {h : ThreadId} (l : List Nat) {x : SliceState} (hx : x.ok)
    (hst : h.val ∈ l ∨ ((x.engine e).thread h).st = .idle) :
    (((l.foldl (fun (y : SliceState) t => y.stopThread e t) x).engine e).thread h).st = .idle := by
  induction l generalizing x with
  | nil => exact hst.resolve_left List.not_mem_nil
  | cons t l ih =>
    rw [List.foldl_cons]
    refine ih (hx.stopThread e t) ?_
    obtain hm | hi := hst
    · obtain hm | hm := List.mem_cons.1 hm
      · rw [← hm]
        exact .inr (SliceState.stopThread_thread_self hx e h)
      · exact .inl hm
    · exact .inr ((SliceState.stopThread_thread x e t h).2 hi)

/-- A stopped engine runs nothing. -/
theorem SliceState.stopEngine_spec {x : SliceState} (hx : x.ok) (e : EngineId) :
    ((x.stopEngine e).engine e).failed = true ∧ ((x.stopEngine e).engine e).running = none ∧ ((x.stopEngine e).engine e).busy = [] ∧
      ∀ h : ThreadId, (((x.stopEngine e).engine e).thread h).st = .idle := by
  have hidle (h : ThreadId) := SliceState.foldl_stopThread_idle (List.range 64) (h := h) (e := e) hx (.inl (List.mem_range.2 h.isLt))
  have hf : ((List.range 64).foldl (fun (y : SliceState) t => y.stopThread e t) x).ok := SliceState.ok.foldl (fun _ _ hy => hy.stopThread _ _) _ hx
  unfold SliceState.stopEngine
  generalize (List.range 64).foldl (fun (y : SliceState) t => y.stopThread e t) x = y at hidle hf ⊢
  rw [SliceState.onEngine_engine _ _ (by rw [hf.2.1.1]; exact e.isLt)]
  exact ⟨rfl, rfl, rfl, hidle⟩

theorem SliceState.foldl_stopThread_parts (l : List Nat) (x : SliceState) (e : Nat) :
    (fun y : SliceState => (y.runs, y.quads, y.spares)) (l.foldl (fun y t => y.stopThread e t) x) = (x.runs, x.quads, x.spares) :=
  foldl_agree (π := fun y : SliceState => (y.runs, y.quads, y.spares)) (f := fun y t => y.stopThread e t) (fun _ _ => rfl) l x

/-- Stopping an engine leaves the stages, the quads and the spares. -/
theorem SliceState.stopEngine_parts (x : SliceState) (e : Nat) :
    ((x.stopEngine e).runs, (x.stopEngine e).quads, (x.stopEngine e).spares) = (x.runs, x.quads, x.spares) := by
  unfold SliceState.stopEngine
  rw [SliceState.onEngine_runs, SliceState.onEngine_quads, SliceState.onEngine_spares]
  exact SliceState.foldl_stopThread_parts _ x e

/-- Stopping an engine leaves the other engines. -/
theorem SliceState.stopEngine_engine_of_ne (x : SliceState) {e k : Nat} (h : k ≠ e) : (x.stopEngine e).engine k = x.engine k := by
  unfold SliceState.stopEngine
  rw [SliceState.onEngine_engine_of_ne _ _ h]
  generalize List.range 64 = l
  exact foldl_agree (π := fun y : SliceState => y.engine k) (f := fun y t => y.stopThread e t) (fun y _ => SliceState.onEngine_engine_of_ne y _ h) l x

/-- Where every engine of a list has been stopped its threads are idle. -/
theorem SliceState.foldl_stopEngine_idle {e : EngineId} {h : ThreadId} (l : List Nat) (hl : ∀ k ∈ l, k < 4) {x : SliceState} (hx : x.ok)
    (hst : e.val ∈ l ∨ ((x.engine e).thread h).st = .idle) :
    (((l.foldl (fun (y : SliceState) k => y.stopEngine k) x).engine e).thread h).st = .idle := by
  induction l generalizing x with
  | nil => exact hst.resolve_left List.not_mem_nil
  | cons k l ih =>
    rw [List.foldl_cons]
    refine ih (fun j hj => hl j (List.mem_cons_of_mem _ hj)) (hx.stopEngine k) ?_
    by_cases hk : e.val = k
    · rw [← hk]
      exact .inr ((SliceState.stopEngine_spec hx e).2.2.2 h)
    · rw [SliceState.stopEngine_engine_of_ne _ hk]
      exact hst.imp_left fun hm => (List.mem_cons.1 hm).resolve_left hk

/-! ### A change of the unit map that waits -/

section
variable {s : State} {sl : SliceId}

/-- With a job loaded the change waits. -/
theorem State.mapDue_waits (hs : s.Inv) (hj : s.job.isSome = true) (u : UnitRef) (row : Option Nat) :
    (u, row) ∈ ((s.mapDue sl u row).sl sl).spares.waiting := by
  have hsl : (sl : Nat) < s.slices.length := by rw [hs.1.1]; exact sl.isLt
  unfold State.mapDue
  rw [if_neg (by simpa [Option.isNone_iff_eq_none, Option.isSome_iff_ne_none] using hj)]
  split
  · next h => exact List.contains_iff_mem.1 h
  · unfold State.onSpares
    rw [State.onSl_sl_self _ _ _ hsl]
    exact List.mem_append_right _ List.mem_cons_self

/-- Beside that nothing of a slice changes. -/
theorem State.Agree.mapDue {β : Type} {π : SliceState → β} (h : ∀ x w, π { x with spares := { x.spares with waiting := w } } = π x)
    (hj : s.job.isSome = true) (i : Nat) (u : UnitRef) (row : Option Nat) : State.Agree π s (s.mapDue i u row) := by
  unfold State.mapDue
  rw [if_neg (by simpa [Option.isNone_iff_eq_none, Option.isSome_iff_ne_none] using hj)]
  exact .ite (.refl _) (.onSl fun x => h x _)

theorem Spares.mem_withdraw (p : Spares) (u : UnitRef) : u ∈ (p.withdraw u).failed := by
  unfold Spares.withdraw
  split
  · next h => exact List.contains_iff_mem.1 h
  · exact List.mem_append_right _ List.mem_cons_self

theorem State.Agree.endSliceWork {β : Type} {π : SliceState → β} (h : ∀ x v m p, π { x with svc := v, mem := m, poison := p } = π x) (i : Nat) :
    State.Agree π s (s.endSliceWork i) := by
  unfold State.endSliceWork State.endNext
  exact .comp (.eachSlice (fun _ _ => .endReqs h) _) (.ite (.refl _) (.endReqs h))

/-- What each step of a pass over the slices leaves alone, the pass leaves alone. -/
theorem State.eachSlice_agree {β : Type} {π : State → β} {f : State → Nat → State} (h : ∀ v i, π (f v i) = π v) (s : State) :
    π (s.eachSlice f) = π s := by
  unfold State.eachSlice
  exact foldl_agree h _ s

theorem State.endTied_job (s : State) (i : Nat) (u : Run) (a b : Drip) (c : Status) : (s.endTied i u a b c).job = s.job := by
  unfold State.endTied
  split
  · refine State.eachSlice_agree (π := State.job) (fun v k => ?_) s
    rfl
  · rfl

theorem State.faultStage_job (s : State) (i : Nat) (u : Run) (st : Status) : (s.faultStage i u st).job = s.job := by
  unfold State.faultStage
  dsimp only
  split
  · exact State.endTied_job ..
  · exact State.endTied_job ..

theorem State.failLive_job (s : State) (i : Nat) (u : UnitRef) : (s.failLive i u).job = s.job :=
  foldl_agree (π := State.job) (fun t r => State.faultStage_job t i r .fault) _ s

theorem State.endSliceWork_job (s : State) (i : Nat) : (s.endSliceWork i).job = s.job := by
  unfold State.endSliceWork
  refine (State.eachSlice_agree (π := State.job) (fun v k => ?_) _).trans ?_
  · rfl
  · split <;> rfl

end

end Sys2Proof.Machine
end

section
/-! SUPPORT. A failed routing engine. -/

namespace Sys2Proof.Machine

section
variable {s : State} {sl : SliceId}

theorem State.Inv.slices_lt (hs : s.Inv) (sl : SliceId) : (sl : Nat) < s.slices.length := by rw [hs.1.1]; exact sl.isLt

theorem SliceState.stopEngine_fields (x : SliceState) (e : Nat) :
    (x.stopEngine e).runs = x.runs ∧ (x.stopEngine e).quads = x.quads ∧ (x.stopEngine e).spares = x.spares := by
  simpa only [Prod.mk.injEq] using x.stopEngine_parts e

/-- What a failed engine leaves of the stages, and that it runs nothing. -/
def SliceState.EngineFailed (x : SliceState) (e : EngineId) : Prop :=
  ((x.engine e).failed = true ∧ (x.engine e).running = none ∧ (x.engine e).busy = [] ∧ ∀ h : ThreadId, ((x.engine e).thread h).st = .idle) ∧
    ({ kind := 3, index := e.val } : UnitRef) ∈ x.spares.failed ∧ ∀ u ∈ x.runs, u.entry.unit = .engine e → u.st ≠ .launched

/-- It depends on the stages, the engines and the failed units of the slice alone. -/
theorem SliceState.EngineFailed.congr {x y : SliceState} {e : EngineId} (h : (y.runs, y.engines, y.spares.failed) = (x.runs, x.engines, x.spares.failed))
    (hx : x.EngineFailed e) : y.EngineFailed e := by
  obtain ⟨h1, h2, h3⟩ : _ ∧ _ ∧ _ := by simpa only [Prod.mk.injEq] using h
  unfold SliceState.EngineFailed SliceState.engine
  rw [h1, h2, h3]
  exact hx

theorem SliceState.engine_congr {x y : SliceState} (h : x.engines = y.engines) (e : Nat) : x.engine e = y.engine e := by
  unfold SliceState.engine
  rw [h]

theorem SliceState.EngineFailed.of_withdraw {y : SliceState} {e : EngineId}
    (h : (y.engine e).failed = true ∧ (y.engine e).running = none ∧ (y.engine e).busy = [] ∧ ∀ h : ThreadId, ((y.engine e).thread h).st = .idle)
    (hr : ∀ u ∈ y.runs, u.entry.unit = .engine e → u.st ≠ .launched) :
    SliceState.EngineFailed { y with spares := y.spares.withdraw { kind := 3, index := e.val } } e := by
  unfold SliceState.EngineFailed
  rw [SliceState.engine_congr (x := { y with spares := y.spares.withdraw { kind := 3, index := e.val } }) (y := y) rfl]
  exact ⟨h, Spares.mem_withdraw _ _, hr⟩

theorem State.Agree.onSpares {β : Type} {π : SliceState → β} {f : Spares → Spares} (h : ∀ x, π { x with spares := f x.spares } = π x) (i : Nat) :
    State.Agree π s (s.onSpares i f) := .onSl h

/-- A routing engine that fails while a job is loaded. -/
theorem State.failEngine_fails (hs : s.Inv) (hj : s.job.isSome = true) (e : EngineId) :
    ((s.failEngine sl e).sl sl).EngineFailed e ∧ ({ kind := 3, index := e.val }, none) ∈ ((s.failEngine sl e).sl sl).spares.waiting := by
  have h0 := (State.Keeps.failLive s sl { kind := 3, index := e.val }).2 hs
  have hl0 := h0.slices_lt sl
  obtain ⟨hruns, -, -, -⟩ := State.failLive_spec (sl := sl) hs { kind := 3, index := e.val }
  unfold State.failEngine
  dsimp only
  generalize ht : ((s.failLive sl { kind := 3, index := e.val }).onSl sl fun x => x.stopEngine e).onSpares sl
    (fun p => p.withdraw { kind := 3, index := e.val }) = t
  have htsl : t.sl sl = (fun x : SliceState => { x with spares := x.spares.withdraw { kind := 3, index := e.val } })
      (((s.failLive sl { kind := 3, index := e.val }).sl sl).stopEngine e) := by
    rw [← ht]
    unfold State.onSpares
    rw [State.onSl_onSl, State.onSl_sl_self _ _ _ hl0]
    rfl
  have htj : t.job.isSome = true := by
    rw [← ht]
    rw [State.onSpares, State.onSl_job, State.onSl_job, State.failLive_job]
    exact hj
  have hti : t.Inv := by
    rw [← ht]
    exact ((State.Keeps.onSl _ sl fun _ h => h.stopEngine e).trans (.onSpares _ sl _)).2 h0
  have htf : (t.sl sl).EngineFailed e := by
    have hspec := SliceState.stopEngine_spec (h0.sl sl.isLt) e
    have hyr := (SliceState.stopEngine_fields ((s.failLive sl { kind := 3, index := e.val }).sl sl) e).1
    rw [htsl]
    generalize SliceState.stopEngine _ _ = y at hspec hyr ⊢
    exact SliceState.EngineFailed.of_withdraw hspec fun u hu hue => hruns u (by rw [← hyr]; exact hu) (by rw [hue]; simp [onUnit])
  have hw (v : State) (hv : v.Inv) (hvj : v.job.isSome = true) (hvf : (v.sl sl).EngineFailed e) :
      ((v.mapDue sl { kind := 3, index := e.val }).sl sl).EngineFailed e ∧
        ({ kind := 3, index := e.val }, none) ∈ ((v.mapDue sl { kind := 3, index := e.val }).sl sl).spares.waiting :=
    ⟨hvf.congr (State.Agree.mapDue (π := fun x => (x.runs, x.engines, x.spares.failed)) (fun _ _ => rfl) hvj sl _ none sl), State.mapDue_waits hv hvj _ _⟩
  split
  · exact hw t hti htj htf
  · refine hw _ ?_ ?_ ?_
    · exact ((State.Keeps.endSliceWork t sl).trans (.onSpares _ sl _)).2 hti
    · rw [State.onSpares, State.onSl_job, State.endSliceWork_job]
      exact htj
    · refine htf.congr ?_
      have h1 : State.Agree (fun x : SliceState => (x.runs, x.engines, x.spares.failed)) t (t.endSliceWork sl) := .endSliceWork (fun _ _ _ _ => rfl) sl
      exact (State.Agree.onSpares (π := fun x => (x.runs, x.engines, x.spares.failed)) (f := fun p => { p with routeless := true }) (fun _ => rfl) sl sl).trans
        (h1 sl)

end

end Sys2Proof.Machine
end

section
/-! Failing units, margin readings and migrations. -/

namespace Sys2Proof.Machine

section
variable {s : State} {sl : SliceId}

/-- A unit that is withdrawn, with its change of the unit map waiting. -/
theorem State.withdraw_mapDue (hs : s.Inv) (hj : s.job.isSome = true) (out l : UnitRef) :
    (((s.onSpares sl fun p => p.withdraw out).mapDue sl l).sl sl).runs = (s.sl sl).runs ∧
      (((s.onSpares sl fun p => p.withdraw out).mapDue sl l).sl sl).quads = (s.sl sl).quads ∧
      out ∈ (((s.onSpares sl fun p => p.withdraw out).mapDue sl l).sl sl).spares.failed ∧
      (l, none) ∈ (((s.onSpares sl fun p => p.withdraw out).mapDue sl l).sl sl).spares.waiting := by
  have hsl : (s.onSpares sl fun p => p.withdraw out).sl sl = { s.sl sl with spares := (s.sl sl).spares.withdraw out } :=
    State.onSl_sl_self _ _ _ (hs.slices_lt sl)
  have hm := State.Agree.mapDue (s := s.onSpares sl fun p => p.withdraw out) (π := fun x => (x.runs, x.quads, x.spares.failed))
    (fun _ _ => rfl) hj sl l none sl
  simp only [Prod.mk.injEq] at hm
  obtain ⟨h1, h2, h3⟩ := hm
  refine ⟨h1.trans (by rw [hsl]), h2.trans (by rw [hsl]), ?_, State.mapDue_waits ((State.Keeps.onSpares s sl _).2 hs) hj _ _⟩
  rw [h3, hsl]
  exact Spares.mem_withdraw _ _

/-- A failed unit whose stages end, and what stops with it. -/
theorem State.failed_unit_spec (hs : s.Inv) (hj : s.job.isSome = true) (u out l : UnitRef) {g : SliceState → SliceState}
    (hg : ∀ x, (g x).runs = x.runs) (hok : ∀ x : SliceState, x.ok → (g x).ok) :
    (∀ w ∈ (((((s.failLive sl u).onSl sl g).onSpares sl fun p => p.withdraw out).mapDue sl l).sl sl).runs,
      onUnit u w.entry.unit = true → w.st ≠ .launched) ∧
    (((((s.failLive sl u).onSl sl g).onSpares sl fun p => p.withdraw out).mapDue sl l).sl sl).quads = (g ((s.failLive sl u).sl sl)).quads ∧
    out ∈ (((((s.failLive sl u).onSl sl g).onSpares sl fun p => p.withdraw out).mapDue sl l).sl sl).spares.failed ∧
    (l, none) ∈ (((((s.failLive sl u).onSl sl g).onSpares sl fun p => p.withdraw out).mapDue sl l).sl sl).spares.waiting := by
  have h0 := (State.Keeps.failLive s sl u).2 hs
  have h1 := (State.Keeps.onSl _ sl hok).2 h0
  have hj1 : ((s.failLive sl u).onSl sl g).job.isSome = true := by rw [State.onSl_job, State.failLive_job]; exact hj
  have hsl := State.onSl_sl_self (s.failLive sl u) sl g (h0.slices_lt sl)
  obtain ⟨hruns, -⟩ := State.failLive_spec (sl := sl) hs u
  obtain ⟨hr, hq, hf, hw⟩ := State.withdraw_mapDue (sl := sl) h1 hj1 out l
  refine ⟨fun w hwm => hruns w ?_, hq.trans (by rw [hsl]), hf, hw⟩
  rw [hr, hsl, hg] at hwm
  exact hwm

theorem SliceState.quad_congr {x y : SliceState} (h : x.quads = y.quads) (q : Nat) : x.quad q = y.quad q := by
  unfold SliceState.quad
  rw [h]

/-- A finished copy to a spare. -/
theorem State.spareMigration_done {stack : Fin 4} {m : Nat × Nat × Option Nat} (hm : (s.sl sl).spares.migrating.find? (fun k => k.1 == stack.val) = some m) :
    exec (.spareMigration sl stack) s =
      .next ((s.onSpares sl fun p => { p with migrating := p.migrating.erase m }).mapDue sl { kind := 6, index := 65 * m.1 + m.2.1 } m.2.2) := by
  show execSpareMigration sl stack s = _
  unfold execSpareMigration
  rw [hm]

theorem State.mapDue_onlySlice {t : State} (h : OnlySlice s t sl) (hj : t.job.isSome = true) (u : UnitRef) (row : Option Nat) :
    OnlySlice s (t.mapDue sl u row) sl := by
  unfold State.mapDue
  rw [if_neg (by simpa [Option.isNone_iff_eq_none, Option.isSome_iff_ne_none] using hj)]
  split
  · exact h
  · exact ⟨h.1, fun k hk => (State.onSl_sl_of_ne _ _ hk).trans (h.2 k hk)⟩

/-- An array of a quad that fails, where the spare is free. -/
theorem State.failUnit_array (q : QuadId) (a : Fin 4) (h7 : (s.sl sl).spares.array.getD q 7 = 7) :
    s.failUnit sl { kind := 1, index := 8 * q.val + a.val } =
      ((((s.failLive sl { kind := 1, index := 8 * q.val + a.val }).onSl sl fun x => x.onQuad q fun k => { k with st := .idle, loops := [] }).onSpares sl
        fun p => p.withdraw { kind := 1, index := 8 * q.val + a.val }).mapDue sl { kind := 1, index := 8 * q.val + a.val }) := by
  have hdiv : (8 * q.val + a.val) / 8 = q.val := by omega
  have hmod : (8 * q.val + a.val) % 8 = a.val := by omega
  have hlog : (s.sl sl).spares.logical { kind := 1, index := 8 * q.val + a.val } = some { kind := 1, index := 8 * q.val + a.val } := by
    unfold Spares.logical
    dsimp only
    rw [hdiv, hmod, h7, if_pos rfl, if_neg (by omega), if_neg (by omega)]
  unfold State.failUnit
  dsimp only
  rw [hlog]
  dsimp only
  rw [hmod, hdiv, if_neg (by simp; omega)]
  rfl

def SliceState.withQuads (x : SliceState) (qs : List Quad) : SliceState := { x with quads := qs }

theorem SliceState.withQuads_engines (x : SliceState) (qs : List Quad) : (x.withQuads qs).engines = x.engines := rfl
theorem SliceState.withQuads_runs (x : SliceState) (qs : List Quad) : (x.withQuads qs).runs = x.runs := rfl
theorem SliceState.withQuads_quads (x : SliceState) (qs : List Quad) : (x.withQuads qs).quads = qs := rfl

/-- What the failing of the whole slice stops. -/
def SliceState.stopAll (x : SliceState) : SliceState :=
  ((List.range 4).foldl (fun (y : SliceState) e => y.stopEngine e) x).withQuads (x.quads.map fun q => { q with st := .idle, loops := [] })

theorem State.failUnit_slice : s.failUnit sl { kind := 0, index := 0 } =
    ((((s.failLive sl { kind := 0, index := 0 }).onSl sl SliceState.stopAll).onSpares sl fun p => p.withdraw { kind := 0, index := 0 }).report sl
      { cls := 0x15, unit := { kind := 0, index := 0 } }) := rfl

theorem State.failUnit_sump : s.failUnit sl { kind := 9, index := 0 } =
    ((s.failLive sl { kind := 9, index := 0 }).onSpares sl fun p => p.withdraw { kind := 9, index := 0 }).mapDue sl { kind := 9, index := 0 } := rfl

theorem State.failUnit_collective : s.failUnit sl { kind := 4, index := 0xFFF } =
    ((s.failLive sl { kind := 4, index := 0xFFF }).onSpares sl fun p => p.withdraw { kind := 4, index := 0xFFF }).mapDue sl
      { kind := 4, index := 0xFFF } := rfl

theorem SliceState.foldl_stopEngine_runs (l : List Nat) (x : SliceState) : (l.foldl (fun (y : SliceState) e => y.stopEngine e) x).runs = x.runs :=
  foldl_agree (π := SliceState.runs) (fun y e => (SliceState.stopEngine_fields y e).1) l x

theorem SliceState.stopAll_idle {x : SliceState} (hx : x.ok) (e : EngineId) (h : ThreadId) : ((x.stopAll.engine e).thread h).st = .idle := by
  unfold SliceState.stopAll
  rw [SliceState.engine_congr (SliceState.withQuads_engines ..)]
  exact SliceState.foldl_stopEngine_idle (List.range 4) (fun k hk => List.mem_range.1 hk) hx (.inl (List.mem_range.2 e.isLt))

theorem SliceState.stopAll_runs (x : SliceState) : x.stopAll.runs = x.runs :=
  (SliceState.withQuads_runs ..).trans (SliceState.foldl_stopEngine_runs (List.range 4) x)

theorem SliceState.stopAll_quad {x : SliceState} (hx : x.ok) (q : QuadId) : (x.stopAll.quad q).st = .idle := by
  have hq : (q : Nat) < x.quads.length := by rw [hx.2.2.1.1]; exact q.isLt
  unfold SliceState.stopAll SliceState.quad
  rw [SliceState.withQuads_quads]
  simp [List.getD_eq_getElem?_getD, hq]

/-- The whole slice fails. -/
theorem State.failUnit_slice_spec (hs : s.Inv) :
    (∀ u ∈ ((s.failUnit sl { kind := 0, index := 0 }).sl sl).runs, u.st ≠ .launched) ∧
      ({ kind := 0, index := 0 } : UnitRef) ∈ ((s.failUnit sl { kind := 0, index := 0 }).sl sl).spares.failed ∧
      (∀ q : QuadId, ((s.failUnit sl { kind := 0, index := 0 }).quad sl q).st = .idle) ∧
      ∀ (e : EngineId) (h : ThreadId), ((s.failUnit sl { kind := 0, index := 0 }).thread sl e h).st = .idle := by
  have h0 := (State.Keeps.failLive s sl { kind := 0, index := 0 }).2 hs
  obtain ⟨hruns, -⟩ := State.failLive_spec (sl := sl) hs { kind := 0, index := 0 }
  have hok := h0.sl sl.isLt
  generalize hx : (s.failLive sl { kind := 0, index := 0 }).sl sl = x at hruns hok
  have hpart : State.Agree (fun y : SliceState => (y.runs, y.engines, y.quads, y.spares))
      (((s.failLive sl { kind := 0, index := 0 }).onSl sl SliceState.stopAll).onSpares sl fun p => p.withdraw { kind := 0, index := 0 })
      (s.failUnit sl { kind := 0, index := 0 }) := by
    rw [State.failUnit_slice]
    exact .report fun _ _ => rfl
  have hsl : (((s.failLive sl { kind := 0, index := 0 }).onSl sl SliceState.stopAll).onSpares sl fun p => p.withdraw { kind := 0, index := 0 }).sl sl =
      (fun y : SliceState => { y with spares := y.spares.withdraw { kind := 0, index := 0 } }) x.stopAll := by
    unfold State.onSpares
    rw [State.onSl_onSl, State.onSl_sl_self _ _ _ (h0.slices_lt sl), hx]
    rfl
  have hp := hpart sl
  rw [hsl] at hp
  have hrun := x.stopAll_runs
  have hidle := SliceState.stopAll_idle hok
  have hquad := SliceState.stopAll_quad hok
  generalize x.stopAll = y at hp hrun hidle hquad
  simp only [Prod.mk.injEq] at hp
  obtain ⟨h1, h2, h3, h4⟩ := hp
  refine ⟨fun u hu => hruns u (by rwa [h1, hrun] at hu) rfl, by rw [h4]; exact Spares.mem_withdraw _ _, fun q => ?_, fun e h => ?_⟩
  · unfold State.quad
    rw [SliceState.quad_congr h3]
    exact hquad q
  · unfold State.thread
    rw [SliceState.engine_congr h2]
    exact hidle e h

end

/-- A stage that is launched on no failed unit. -/
theorem SliceState.barred_of_failed {x : SliceState} {n : UnitName} (h : unitRefOf n ∈ x.spares.failed) : x.barred n = true := by
  unfold SliceState.barred
  simp [h]

/-! ### Margin readings -/

section
variable {s : State} {sl : SliceId} {u : UnitRef} {prov : Bool}

theorem State.marginRead_first (hn : (s.sl sl).spares.margins.find? (fun k => k.1 == u) = none) :
    exec (.marginSensorRead sl u true prov) s = .next (s.onSl sl fun x => { x with spares :=
      { x.spares with margins := ((s.sl sl).spares.margins.filter fun k => k.1 != u) ++ [(u, 1, !prov)] } }) := by
  show execMarginSensorRead sl u true prov s = _
  unfold execMarginSensorRead
  dsimp only
  rw [hn]
  rfl

theorem State.marginRead_below {m : UnitRef × Nat × Bool} (hm : (s.sl sl).spares.margins.find? (fun k => k.1 == u) = some m) :
    exec (.marginSensorRead sl u true prov) s =
      if 3 ≤ m.2.1 + 1 && (m.2.2 || !prov) then
        .next ((s.onSl sl fun x => { x with spares := { x.spares with margins := (s.sl sl).spares.margins.filter fun k => k.1 != u } }).marginDecision sl u)
      else .next (s.onSl sl fun x => { x with spares := { x.spares with
        margins := ((s.sl sl).spares.margins.filter fun k => k.1 != u) ++ [(u, m.2.1 + 1, m.2.2 || !prov)] } }) := by
  show execMarginSensorRead sl u true prov s = _
  unfold execMarginSensorRead
  dsimp only
  rw [hm]
  rfl

end

/-- Settles O31, unit by unit. -/
theorem failedUnits : Obligations.FailedUnits := by
  unfold Obligations.FailedUnits
  intro s sl j hs hj
  have hjs : s.job.isSome = true := by rw [hj]; rfl
  refine ⟨fun e => ?_, fun q a h7 => ?_, fun u prov => ⟨rfl, fun hn => ?_, fun m hm h2 hfirm => ?_, fun m hm h2 => ?_⟩, fun stack m hm => ?_, ?_, ?_, ?_⟩
  · obtain ⟨⟨⟨h1, h2, h3, h4⟩, h5, h6⟩, h7⟩ := State.failEngine_fails (sl := sl) hs hjs e
    exact ⟨_, rfl, h1, h2, h3, h4, h7, h5, h6⟩
  · obtain ⟨hr, hq, hf, hw⟩ := State.failed_unit_spec (sl := sl) hs hjs { kind := 1, index := 8 * q.val + a.val } { kind := 1, index := 8 * q.val + a.val }
      { kind := 1, index := 8 * q.val + a.val } (g := fun x => x.onQuad q fun k => { k with st := .idle, loops := [] }) (fun _ => rfl)
      fun _ hx => hx.onQuad q fun _ hk => hk
    refine ⟨_, congrArg Host.Outcome.next (State.failUnit_array q a h7), ?_, hw, hf, fun u hu hue => hr u hu ?_⟩
    · unfold State.quad
      rw [SliceState.quad_congr hq, SliceState.quad_onQuad q (((State.Keeps.failLive s sl _).2 hs).sl sl.isLt)]
    · rw [hue]
      have hdiv : (8 * q.val + a.val) / 8 = q.val := by omega
      simp [onUnit, hdiv]
  · exact State.marginRead_first hn
  · rw [State.marginRead_below hm, if_pos (by obtain h | h := hfirm <;> simp [h2, h])]
  · rw [State.marginRead_below hm, if_neg (by simp; omega)]
  · have hi := (State.Keeps.onSpares s sl fun p => { p with migrating := p.migrating.erase m }).2 hs
    have hag := State.Agree.mapDue (s := s.onSpares sl fun p => { p with migrating := p.migrating.erase m }) (π := fun x => x.spares.migrating)
      (fun _ _ => rfl) hjs sl { kind := 6, index := 65 * m.1 + m.2.1 } m.2.2 sl
    refine ⟨_, State.spareMigration_done hm, State.mapDue_onlySlice (.onSl s _) hjs _ _, hag.trans ?_, State.mapDue_waits hi hjs _ _⟩
    unfold State.onSpares
    rw [State.onSl_sl_self _ _ _ (hs.slices_lt sl)]
  · obtain ⟨hr, hf, hq, ht⟩ := State.failUnit_slice_spec (sl := sl) hs
    exact ⟨_, rfl, hr, hf, hq, ht⟩
  · obtain ⟨hr, -, hf, -⟩ := State.failed_unit_spec (sl := sl) hs hjs { kind := 9, index := 0 } { kind := 9, index := 0 } { kind := 9, index := 0 }
      (g := id) (fun _ => rfl) fun _ hx => hx
    rw [State.onSl_id] at hr hf
    exact ⟨_, congrArg Host.Outcome.next State.failUnit_sump, SliceState.barred_of_failed hf, fun u hu hue => hr u hu (by rw [hue]; rfl)⟩
  · obtain ⟨hr, -, hf, -⟩ := State.failed_unit_spec (sl := sl) hs hjs { kind := 4, index := 0xFFF } { kind := 4, index := 0xFFF } { kind := 4, index := 0xFFF }
      (g := id) (fun _ => rfl) fun _ hx => hx
    rw [State.onSl_id] at hr hf
    exact ⟨_, congrArg Host.Outcome.next State.failUnit_collective, SliceState.barred_of_failed hf, fun u hu hue => hr u hu (by rw [hue]; rfl)⟩

end Sys2Proof.Machine
end

section
/-! SUPPORT. The residency table, and fetches that fail. -/

namespace Sys2Proof.Machine

/-! ### The residency table -/

theorem SliceState.onRes_agree {β : Type} {π : SliceState → β} (h : ∀ x t m p, π { x with tiers := t, mem := m, poison := p } = π x) (x : SliceState)
    (p : ResEntry → Bool) (f : ResEntry → ResEntry) : π (x.onRes p f) = π x := by
  unfold SliceState.onRes
  refine (foldl_agree (π := π) (fun z e => ?_) _ _).trans (h x _ _ _)
  exact h z z.tiers _ _

theorem SliceState.onRes_tiers (x : SliceState) (p : ResEntry → Bool) (f : ResEntry → ResEntry) :
    (x.onRes p f).tiers = { x.tiers with res := x.tiers.res.map fun e => if p e then f e else e } := by
  unfold SliceState.onRes
  dsimp only
  rw [foldl_agree (π := SliceState.tiers) (f := fun (z : SliceState) e => z.store (resOffset x.tiers.residencyBase e) (leBytes 32 (resWord e)))
    (fun z e => SliceState.store_tiers ..)]

theorem Tiers.entry?_is {k : Tiers} {layer : Nat} {r : SlotRef} {e : ResEntry} (h : k.entry? layer r = some e) : resIs e layer r = true := by
  have hp := List.find?_some h
  exact hp

/-! ### A fetch that fails -/

section
variable {s : State} {sl : SliceId} {layer : Nat} {r : SlotRef} {f : Fetch} {e : ResEntry}

/-- What a fetch that fails leaves of its slice. -/
def SliceState.failFetch (x : SliceState) (layer : Nat) (r : SlotRef) (c : Nat) : SliceState :=
  let is (f : Fetch) : Bool := f.layer == layer && f.slot == r && !f.failed && f.full.isNone
  let y := x.onRes (fun k => resIs k layer r) fun k => { k with lastFail := c }
  let runs := (y.tiers.fetches.filter is).filterMap (·.run)
  { y with
    runs := y.runs.map fun u => if u.entry.kind == .prefetch && u.st == .launched && runs.contains u.idx then { u with stopped := true } else u
    tiers := { y.tiers with
      fetches := y.tiers.fetches.map fun g => if is g then { g with failed := true } else g
      fetchFailed := y.tiers.fetchFailed + 1 } }

theorem State.failFetch_eq (h : ((s.sl sl).tiers.fetches.any fun f => f.layer == layer && f.slot == r && !f.failed && f.full.isNone) = true)
    (c : Nat) (d : List Nat) :
    s.failFetch sl layer r c d = (s.onSl sl fun x => x.failFetch layer r c).report sl (mkReport 0x0A 9 0 c 255 d) := by
  unfold State.failFetch
  dsimp only
  rw [if_neg (by rw [h]; exact Bool.false_ne_true)]
  rfl

/-- The one fetch of a slice is under way for its slot. -/
structure SliceState.OneFetch (x : SliceState) (layer : Nat) (r : SlotRef) (f : Fetch) (e : ResEntry) : Prop where
  fetches : x.tiers.fetches = [f]
  res : x.tiers.res = [e]
  fetch : x.tiers.fetch? layer r = some f
  entry : x.tiers.entry? layer r = some e
  failed : f.failed = false
  full : f.full = none

theorem SliceState.OneFetch.is {x : SliceState} (h : x.OneFetch layer r f e) :
    (f.layer == layer && f.slot == r && !f.failed && f.full.isNone) = true := by
  rw [h.failed, h.full]
  simpa using List.find?_some h.fetch

theorem SliceState.OneFetch.fails {x : SliceState} (h : x.OneFetch layer r f e) (c : Nat) :
    (x.failFetch layer r c).tiers.fetches = [{ f with failed := true }] ∧ (x.failFetch layer r c).tiers.res = [{ e with lastFail := c }] ∧
      (x.failFetch layer r c).tiers.fetchFailed = x.tiers.fetchFailed + 1 ∧ (x.failFetch layer r c).sump = x.sump := by
  have hs : (x.onRes (fun k => resIs k layer r) fun k => { k with lastFail := c }).sump = x.sump :=
    SliceState.onRes_agree (fun _ _ _ _ => rfl) x _ _
  have ht := SliceState.onRes_tiers x (fun k => resIs k layer r) fun k => { k with lastFail := c }
  unfold SliceState.failFetch
  dsimp only
  generalize SliceState.onRes _ _ _ = y at hs ht ⊢
  rw [ht]
  dsimp only
  rw [h.fetches, h.res, List.map_cons, List.map_nil, if_pos h.is, List.map_cons, List.map_nil, if_pos (Tiers.entry?_is h.entry)]
  exact ⟨rfl, rfl, rfl, hs⟩

/-- What the statement says of a fetch that has failed. -/
def State.FetchFailed (t : State) (sl : Nat) (k : Tiers) (f : Fetch) (e : ResEntry) (c : Nat) : Prop :=
  (t.sl sl).tiers.fetches = [{ f with failed := true }] ∧ (t.sl sl).tiers.res = [{ e with lastFail := c }] ∧
    (t.sl sl).tiers.fetchFailed = k.fetchFailed + 1

theorem State.failFetch_fails (hs : s.Inv) (h : (s.sl sl).OneFetch layer r f e) (c : Nat) (d : List Nat) :
    (s.failFetch sl layer r c d).FetchFailed sl (s.sl sl).tiers f e c ∧ ((s.failFetch sl layer r c d).sl sl).sump = (s.sl sl).sump := by
  rw [State.failFetch_eq (by rw [h.fetches]; simpa using h.is)]
  have hrep := State.Agree.report (s := s.onSl sl fun x => x.failFetch layer r c) (i := sl) (r := mkReport 0x0A 9 0 c 255 d)
    (π := fun x => (x.tiers, x.sump)) (fun _ _ => rfl) sl
  rw [State.onSl_sl_self _ _ _ (hs.slices_lt sl), Prod.mk.injEq] at hrep
  obtain ⟨ht, hsm⟩ := hrep
  obtain ⟨h1, h2, h3, h4⟩ := h.fails c
  unfold State.FetchFailed
  rw [ht, hsm]
  exact ⟨⟨h1, h2, h3⟩, h4⟩

/-! ### A tile that lands -/

theorem State.sumpTile_runs (h : (s.sl sl).OneFetch layer r f e) {tile : Nat} (ht : tile < e.tiles) (hl : tile ∉ f.landed) (data : SumpData) (tag : Bytes) :
    exec (.sumpTileArrival sl layer r tile data tag) s =
      if data.poison then
        .next ((s.onSl sl fun y => { y with sump := { y.sump with poison := y.sump.poison + 1 } }).failFetch sl layer r 0x12
          [thId (leNat (slice data.bytes 0 32))])
      else if tileCrcOk data.bytes && tag == sumpTag s.sec.memoryKey (tileOffset (s.sl sl) tile e.sumpAddr) data.bytes then
        .next (s.onSl sl fun y =>
          let z := y.store (y.tiers.poolBase + f.frame * y.tiers.frameBytes + (tileOffset (s.sl sl) tile e.sumpAddr - e.sumpAddr)) data.bytes
          { z with tiers := { z.tiers with fetches := z.tiers.fetches.map fun g =>
              if g == f then
                { g with landed := g.landed ++ [tile], full := if g.landed.length + 1 = e.tiles then some s.now else g.full }
              else g } })
      else .next (s.failFetch sl layer r 0x13 [thId (leNat (slice data.bytes 0 32))]) := by
  show execSumpTileArrival sl layer r tile data tag s = _
  unfold execSumpTileArrival
  dsimp only
  rw [h.fetch, h.entry]
  dsimp only
  refine if_neg ?_
  simp [h.failed, hl, ht]

end

end Sys2Proof.Machine
end

section
/-! SUPPORT. Sump tiles and settled fetches. -/

namespace Sys2Proof.Machine

section
variable {s : State} {sl : SliceId} {layer : Nat} {r : SlotRef} {f : Fetch} {e : ResEntry}

/-- A good tile stands in its frame, and is noted. -/
theorem State.sumpTile_lands (hs : s.Inv) (h : (s.sl sl).OneFetch layer r f e) {tile : Nat} (ht : tile < e.tiles) (hl : tile ∉ f.landed)
    {data tag : Bytes} (hcrc : tileCrcOk data = true) (htag : tag = sumpTag s.sec.memoryKey (tileOffset (s.sl sl) tile e.sumpAddr) data) :
    ∃ t : State, exec (.sumpTileArrival sl layer r tile { bytes := data } tag) s = .next t ∧ OnlySlice s t sl ∧
      SameBytesOutside (s.sl sl) (t.sl sl)
        ((s.sl sl).tiers.poolBase + f.frame * (s.sl sl).tiers.frameBytes + (tileOffset (s.sl sl) tile e.sumpAddr - e.sumpAddr)) data.length ∧
      (t.sl sl).load ((s.sl sl).tiers.poolBase + f.frame * (s.sl sl).tiers.frameBytes + (tileOffset (s.sl sl) tile e.sumpAddr - e.sumpAddr)) data.length = data ∧
      (t.sl sl).tiers.fetches = [{ f with
        landed := f.landed ++ [tile], full := if f.landed.length + 1 = e.tiles then some s.now else none }] := by
  have hx := hs.sl sl.isLt
  refine ⟨_, (State.sumpTile_runs h ht hl _ tag).trans ((if_neg Bool.false_ne_true).trans (if_pos (by simp [hcrc, htag]))), .onSl s _, ?_⟩
  rw [State.onSl_sl_self _ _ _ (hs.slices_lt sl)]
  refine ⟨?_, ?_, ?_⟩
  · exact fun b hb => Memory.read_writeBytes_outside hx.1 hb
  · exact SliceState.load_store hx.1 _ data
  · show List.map _ (s.sl sl).tiers.fetches = _
    rw [h.fetches]
    simp [h.full]

theorem State.sumpTile_fails (hs : s.Inv) (h : (s.sl sl).OneFetch layer r f e) {tile : Nat} (ht : tile < e.tiles) (hl : tile ∉ f.landed)
    {data tag : Bytes} (hbad : ¬(tileCrcOk data = true ∧ tag = sumpTag s.sec.memoryKey (tileOffset (s.sl sl) tile e.sumpAddr) data)) :
    ∃ t : State, exec (.sumpTileArrival sl layer r tile { bytes := data } tag) s = .next t ∧ t.FetchFailed sl (s.sl sl).tiers f e 0x13 :=
  ⟨_, (State.sumpTile_runs h ht hl _ tag).trans ((if_neg Bool.false_ne_true).trans (if_neg (by simpa using hbad))), (State.failFetch_fails hs h _ _).1⟩

theorem State.sumpTile_poisoned (hs : s.Inv) (h : (s.sl sl).OneFetch layer r f e) {tile : Nat} (ht : tile < e.tiles) (hl : tile ∉ f.landed)
    (data tag : Bytes) : ∃ t : State, exec (.sumpTileArrival sl layer r tile { bytes := data, poison := true } tag) s = .next t ∧
      t.FetchFailed sl (s.sl sl).tiers f e 0x12 ∧ (t.sl sl).sump.poison = (s.sl sl).sump.poison + 1 := by
  have hsl := State.onSl_sl_self s sl (fun y => { y with sump := { y.sump with poison := y.sump.poison + 1 } }) (hs.slices_lt sl)
  obtain ⟨h1, h2⟩ := State.failFetch_fails (s := s.onSl sl fun y => { y with sump := { y.sump with poison := y.sump.poison + 1 } })
    ((State.Keeps.onSl s sl (f := fun y => { y with sump := { y.sump with poison := y.sump.poison + 1 } }) fun _ hy => hy).2 hs) (by rw [hsl]; exact ⟨h.fetches, h.res, h.fetch, h.entry, h.failed, h.full⟩) 0x12
    [thId (leNat (slice data 0 32))]
  rw [hsl] at h1 h2
  exact ⟨_, (State.sumpTile_runs h ht hl _ tag).trans (if_pos rfl), h1, by rw [h2]⟩

theorem State.sumpReadTimeout_fails (hs : s.Inv) (h : (s.sl sl).OneFetch layer r f e) :
    ∃ t : State, exec (.sumpReadTimeout sl layer r) s = .next t ∧ t.FetchFailed sl (s.sl sl).tiers f e 0x12 :=
  ⟨_, if_pos (by rw [h.fetches]; simpa using h.is), (State.failFetch_fails hs h _ _).1⟩

theorem State.setSumpLink_spec {t : State} (ht : t.Inv) (st : Nat) : ((t.setSumpLink sl st).sl sl).tiers = (t.sl sl).tiers ∧
    ((t.setSumpLink sl st).sl sl).sump = { (t.sl sl).sump with link := st } := by
  unfold State.setSumpLink
  split
  · next h =>
    refine ⟨rfl, ?_⟩
    rw [← h]
  · rw [State.cause_sl, State.onSl_sl_self _ _ _ (ht.slices_lt sl)]
    exact ⟨rfl, rfl⟩

theorem State.sumpLinkDown_fails (hs : s.Inv) (h : (s.sl sl).OneFetch layer r f e) (hup : (s.sl sl).sump.link = 3) :
    ∃ t : State, exec (.sumpLinkDown sl) s = .next t ∧ t.FetchFailed sl (s.sl sl).tiers f e 0x12 ∧
      (t.sl sl).sump.link = 0 ∧ (t.sl sl).sump.linkDowns = (s.sl sl).sump.linkDowns + 1 := by
  obtain ⟨hl, hr⟩ : f.layer = layer ∧ f.slot = r := by simpa using List.find?_some h.fetch
  have hi := (State.Keeps.failFetch s sl layer r 0x12 []).2 hs
  obtain ⟨h1, h2⟩ := State.failFetch_fails hs h 0x12 []
  have hi1 := (State.Keeps.onSl _ sl (f := fun y => { y with sump := { y.sump with linkDowns := y.sump.linkDowns + 1 } }) fun _ hy => hy).2 hi
  have hsl := State.onSl_sl_self (s.failFetch sl layer r 0x12 []) sl (fun y => { y with sump := { y.sump with linkDowns := y.sump.linkDowns + 1 } })
    (hi.slices_lt sl)
  obtain ⟨h3, h4⟩ := State.setSumpLink_spec (sl := sl) hi1 0
  rw [hsl] at h3 h4
  have hrep := State.Agree.report (s := (((s.failFetch sl layer r 0x12 []).onSl sl fun y => { y with sump := { y.sump with linkDowns := y.sump.linkDowns + 1 } }).setSumpLink
    sl 0)) (i := sl) (r := mkReport 0x19 9 0) (π := fun x => (x.tiers, x.sump)) (fun _ _ => rfl) sl
  rw [Prod.mk.injEq, h3, h4] at hrep
  obtain ⟨h5, h6⟩ := hrep
  refine ⟨_, ?_, ?_, congrArg Sump.link h6, (congrArg Sump.linkDowns h6).trans (by rw [← h2])⟩
  · show execSumpLinkDown sl s = _
    unfold execSumpLinkDown
    dsimp only
    rw [if_neg (by simp [hup]), h.fetches, List.foldl_cons, List.foldl_nil, hl, hr]
  · unfold State.FetchFailed
    rw [h5]
    exact h1

/-! ### The fetches that a drip settles -/

/-- The residency entry that a settled fetch leaves. -/
def Fetch.settled (f : Fetch) (d : Drip) (e : ResEntry) : ResEntry :=
  if f.failed then { e with state := 1 } else if f.full.isSome then { e with state := 3, frame := f.frame, lastUse := d } else { e with state := 2 }

theorem SliceState.settleFetches_one {x : SliceState} (hf : x.tiers.fetches = [f]) (d : Drip) :
    x.settleFetches d = (fun y : SliceState => { y with tiers := { y.tiers with
      fetches := y.tiers.fetches.filter fun f => !f.failed && f.full.isNone
      present := y.tiers.present ++ (y.tiers.fetches.filter fun f => !f.failed && f.full.isSome).map fun f => { f with full := some d } } })
      (x.onRes (fun r => resIs r f.layer f.slot) (f.settled d)) := by
  unfold SliceState.settleFetches
  rw [hf]
  rfl

theorem SliceState.onRes_one {x : SliceState} (he : x.tiers.res = [e]) {p : ResEntry → Bool} (hp : p e = true) (g : ResEntry → ResEntry) :
    (x.onRes p g).tiers = { x.tiers with res := [g e] } ∧
      x.onRes p g = ({ x with tiers := { x.tiers with res := [g e] } } : SliceState).store (resOffset x.tiers.residencyBase (g e)) (leBytes 32 (resWord (g e))) := by
  refine ⟨?_, ?_⟩
  · rw [SliceState.onRes_tiers, he]
    simp [hp]
  · unfold SliceState.onRes
    rw [he]
    simp [hp]

/-! ### A fetch that is complete -/

end

end Sys2Proof.Machine
end

section
/-! The fetches of the tiers. -/

namespace Sys2Proof.Machine

theorem foldl_eq_init {σ α : Type} {f : σ → α → σ} {a : σ} {l : List α} (h : ∀ b ∈ l, f a b = a) : l.foldl f a = a := by
  induction l with
  | nil => rfl
  | cons b l ih => rw [List.foldl_cons, h b List.mem_cons_self, ih fun c hc => h c (List.mem_cons_of_mem _ hc)]

section
variable {s v : State} {sl : SliceId} {i : Nat} {u : Run} {f : Fetch} {e : ResEntry}

/-- A complete fetch leaves the list, and is counted where it is late. -/
def SliceState.dropFetch (x : SliceState) (f : Fetch) : SliceState :=
  { x with tiers := { x.tiers with
    present := x.tiers.present.filter (· != f)
    fetchLate := x.tiers.fetchLate + b2n (f.kind != .lookahead && f.full.any fun d => Drip.later d f.due) } }

/-- It ends the prefetch that waited for it alone. -/
def SliceState.endFetch (x : SliceState) (f : Fetch) : SliceState :=
  match f.run with
  | none => x
  | some i =>
    if x.tiers.fetches.any fun g => g.run == some i then x
    else match x.runs.find? fun u => u.idx == i && u.entry.kind == .prefetch && u.st == .launched && !u.stopped with
      | some u => x.completeRun u
      | none => x

theorem State.fetchComplete_of {layer : Nat} {r : SlotRef} (h : (s.sl sl).tiers.present.find? (fun f => f.layer == layer && f.slot == r) = some f) :
    exec (.fetchComplete sl layer r) s = .next (s.onSl sl fun y => (y.dropFetch f).endFetch f) := by
  show execFetchComplete sl layer r s = _
  unfold execFetchComplete
  rw [h]
  rfl

theorem State.fetchComplete_none {layer : Nat} {r : SlotRef} (h : (s.sl sl).tiers.present.find? (fun f => f.layer == layer && f.slot == r) = none) :
    exec (.fetchComplete sl layer r) s = .next s := by
  show execFetchComplete sl layer r s = _
  unfold execFetchComplete
  rw [h]

theorem SliceState.completeRun_tiers (x : SliceState) (u : Run) : (x.completeRun u).tiers = x.tiers :=
  (SliceState.setFlag?_agree (π := SliceState.tiers) (fun _ _ _ _ => rfl) _ _).trans rfl

/-- Every stage of the number and frame start is completed. -/
theorem SliceState.completeRun_completes (x : SliceState) (u : Run) : ∀ w ∈ (x.completeRun u).runs, w.idx = u.idx → w.frame = u.frame → w.st = .completed := by
  intro w hw hi hf
  have hr : (x.completeRun u).runs = (x.endRun u .completed).runs := SliceState.setFlag?_agree (π := SliceState.runs) (fun _ _ _ _ => rfl) _ _
  rw [hr] at hw
  obtain ⟨z, -, rfl⟩ := List.mem_map.1 hw
  dsimp only at hi hf ⊢
  split
  · rfl
  · next hc =>
    rw [if_neg hc] at hi hf
    exact absurd (by simp [hi, hf]) hc

theorem SliceState.endFetch_tiers (x : SliceState) (f : Fetch) : (x.endFetch f).tiers = x.tiers := by
  unfold SliceState.endFetch
  split
  · rfl
  · split
    · rfl
    · split
      · exact SliceState.completeRun_tiers ..
      · rfl

/-- The stage that acts is noted, and no more. -/
theorem State.actingRun_tiers {k : StageKind} (h : s.actingRun sl i k = some (u, v)) : State.Agree SliceState.tiers s v := by
  obtain ⟨-, -, -, ⟨-, -, rfl⟩ | ⟨w, -, -, -, -, rfl⟩⟩ := State.actingRun_cases h
  · exact .onSl fun _ => rfl
  · exact .comp (.onSl fun _ => rfl) (.onSl fun _ => rfl)

/-! ### A prefetch -/

/-- A prefetch of slots of which none is in SUMP. -/
theorem State.prefetch_idle (hact : s.actingRun sl i .prefetch = some (u, v))
    (hno : ∀ p ∈ u.entry.f.prefetch, ∀ e, (s.sl sl).tiers.entry? p.1 p.2 = some e → e.pool = true → e.state ≠ 1) :
    exec (.prefetchStage sl i) s = .next (v.onSl sl fun y => y.completeRun u) := by
  show execPrefetchStage sl i s = _
  unfold execPrefetchStage
  rw [hact]
  dsimp only
  have hv := State.actingRun_tiers hact sl
  rw [foldl_eq_init fun p hp => ?_]
  · rfl
  · dsimp only
    rw [hv]
    cases he : (s.sl sl).tiers.entry? p.1 p.2 with
    | none => rfl
    | some e =>
      refine if_neg ?_
      simp only [Bool.and_eq_true, beq_iff_eq, not_and]
      exact fun hc => absurd hc.2 (hno p hp e he hc.1)

/-- A prefetch of one slot that is in SUMP starts its fetch. -/
theorem State.prefetch_one {l : Nat} {r : SlotRef} (hact : s.actingRun sl i .prefetch = some (u, v)) (hl : u.entry.f.prefetch = [(l, r)])
    (he : (s.sl sl).tiers.entry? l r = some e) (hp : e.pool = true) (h1 : e.state = 1) (hf : (s.sl sl).tiers.fetching l r = false) :
    exec (.prefetchStage sl i) s =
      .next (if b2n (v.startFetch sl .scheduled l r u.launchedAt u.dueDrip (some i)).1 = 0 then
        (v.startFetch sl .scheduled l r u.launchedAt u.dueDrip (some i)).2.onSl sl fun y => y.completeRun u
        else (v.startFetch sl .scheduled l r u.launchedAt u.dueDrip (some i)).2) := by
  show execPrefetchStage sl i s = _
  unfold execPrefetchStage
  rw [hact]
  dsimp only
  rw [hl, List.foldl_cons, List.foldl_nil]
  dsimp only
  rw [State.actingRun_tiers hact sl, he]
  dsimp only
  have hc : (e.pool && e.state == 1 && !(s.sl sl).tiers.fetching l r) = true := by simp [hp, h1, hf]
  simp only [hc, if_true, Nat.zero_add]

theorem State.startFetch_no_frame {l : Nat} {r : SlotRef} {k : FetchKind} {a b : Drip} {n : Option Nat} (he : (s.sl sl).tiers.entry? l r = some e)
    (hf : (s.sl sl).tiers.freeFrame = none) :
    s.startFetch sl k l r a b n = (false, s.onSl sl fun y => { y with tiers := { y.tiers with noFrame := y.tiers.noFrame + 1 } }) := by
  unfold State.startFetch
  dsimp only
  rw [he]
  dsimp only
  rw [hf]

theorem Tiers.stateOf_of_find {k : Tiers} {l : Nat} {r : SlotRef} (h : k.res.find? (fun e => resIs e l r) = some e) (hp : e.pool = true) :
    k.stateOf l r = e.state := by
  have he : k.entry? l r = some e := h
  unfold Tiers.stateOf
  rw [he]
  exact if_pos hp

/-- What the start of a scheduled fetch leaves of its slice. -/
def SliceState.prefetches (x : SliceState) (ft : Fetch) : SliceState :=
  let z := x.onRes (fun e => resIs e ft.layer ft.slot) fun e => { e with state := 2 }
  { z with tiers := { z.tiers with
      fetches := z.tiers.fetches ++ [ft]
      fetchPrefetch := z.tiers.fetchPrefetch + 1, fetchDemand := z.tiers.fetchDemand + 0, fetchLookahead := z.tiers.fetchLookahead + 0 } }

theorem State.startFetch_frame {l n : Nat} {r : SlotRef} {a b : Drip} {m : Option Nat} (he : (s.sl sl).tiers.entry? l r = some e)
    (hf : (s.sl sl).tiers.freeFrame = some n) :
    s.startFetch sl .scheduled l r a b m = (true, (s.onSl sl fun y =>
      y.prefetches { kind := .scheduled, layer := l, slot := r, frame := n, due := b, projected := b, run := m, issued := a }).emit
        (.cxlRead sl e.sumpAddr (fetchBytes e))) := by
  unfold State.startFetch
  dsimp only
  rw [he]
  dsimp only
  rw [hf]
  rfl

/-- The slot of a fetch that has been started is in flight. -/
theorem SliceState.prefetches_spec {x : SliceState} {ft : Fetch} (he : x.tiers.entry? ft.layer ft.slot = some e) (hp : e.pool = true) :
    (x.prefetches ft).tiers.fetches = x.tiers.fetches ++ [ft] ∧ (x.prefetches ft).tiers.stateOf ft.layer ft.slot = 2 := by
  have ht := SliceState.onRes_tiers x (fun e => resIs e ft.layer ft.slot) fun e => { e with state := 2 }
  unfold SliceState.prefetches
  dsimp only
  generalize SliceState.onRes _ _ _ = y at ht ⊢
  rw [ht]
  refine ⟨rfl, ?_⟩
  have hfind : (x.tiers.res.map fun e => if resIs e ft.layer ft.slot then { e with state := 2 } else e).find?
      (fun k => resIs k ft.layer ft.slot) = some { e with state := 2 } := by
    have he' : x.tiers.res.find? (fun k => resIs k ft.layer ft.slot) = some e := he
    rw [List.find?_map]
    have hcomp : ((fun k => resIs k ft.layer ft.slot) ∘ fun e => if resIs e ft.layer ft.slot then { e with state := 2 } else e) =
        fun k : ResEntry => resIs k ft.layer ft.slot := by
      funext k
      simp only [Function.comp]
      split <;> rfl
    rw [hcomp, he', Option.map_some, if_pos (Tiers.entry?_is he)]
  exact Tiers.stateOf_of_find (e := { e with state := 2 }) hfind hp

end

/-- Settles O32, fetch by fetch. -/
theorem tierFetches : Obligations.TierFetches := by
  unfold Obligations.TierFetches
  intro s sl hs
  have hx := hs.sl sl.isLt
  have hlen := hs.slices_lt sl
  refine ⟨fun layer r f e hfetch hres hentry hfetches hfail hfull => ?_, fun f e hf he hent d => ⟨fun h => ?_, fun h h' => ?_, fun h h' => ?_⟩,
    fun f d hp hd => ?_, fun layer r hno => ?_, rfl, fun n rest => ?_, fun i u v hact => ⟨fun hno => ?_, fun r e l hl he hp h1 hf => ⟨fun hfr => ?_, fun n hfr => ?_⟩⟩⟩
  · have h : (s.sl sl).OneFetch layer r f e := ⟨hfetches, hres, hfetch, hentry, hfail, hfull⟩
    refine ⟨fun tile data tag ht hl => ⟨fun hg => State.sumpTile_lands hs h ht hl hg.1 hg.2, fun hb => State.sumpTile_fails hs h ht hl hb,
      State.sumpTile_poisoned hs h ht hl data tag⟩, State.sumpReadTimeout_fails hs h, fun hup => State.sumpLinkDown_fails hs h hup⟩
  · obtain ⟨h1, h2⟩ := SliceState.onRes_one he (p := fun k => resIs k f.layer f.slot) (Tiers.entry?_is hent) (f.settled d)
    rw [SliceState.settleFetches_one hf]
    dsimp only
    rw [h1]
    simp [hf, h, Fetch.settled]
  · obtain ⟨h1, h2⟩ := SliceState.onRes_one he (p := fun k => resIs k f.layer f.slot) (Tiers.entry?_is hent) (f.settled d)
    have hset : f.settled d e = { e with state := 3, frame := f.frame, lastUse := d } := by simp [Fetch.settled, h, h']
    rw [hset] at h1 h2
    rw [SliceState.settleFetches_one hf]
    refine ⟨?_, ?_, ?_, ?_⟩
    · dsimp only
      rw [h1]
    · dsimp only
      rw [h1]
      simp [hf, h, Option.isSome_iff_ne_none.1 h']
    · dsimp only
      rw [h1]
      simp [hf, h, h']
    · show SliceState.load (SliceState.onRes _ _ _) _ _ = _
      rw [h2]
      exact SliceState.load_store (x := { s.sl sl with tiers := { (s.sl sl).tiers with res := [{ e with state := 3, frame := f.frame, lastUse := d }] } })
        hx.1 (resOffset (s.sl sl).tiers.residencyBase e) (leBytes 32 (resWord { e with state := 3, frame := f.frame, lastUse := d }))
  · obtain ⟨h1, h2⟩ := SliceState.onRes_one he (p := fun k => resIs k f.layer f.slot) (Tiers.entry?_is hent) (f.settled d)
    rw [SliceState.settleFetches_one hf]
    dsimp only
    rw [h1]
    simp [hf, h, h', Fetch.settled]
  · refine ⟨_, State.fetchComplete_of (f := f) (by rw [hp]; simp), .onSl s _, ?_⟩
    rw [State.onSl_sl_self _ _ _ hlen, SliceState.endFetch_tiers]
    refine ⟨by simp [SliceState.dropFetch, hp], ?_, fun hr => ?_, fun i hr hno u hu => ?_⟩
    · by_cases hk : f.kind = .lookahead <;> by_cases hlate : Drip.later d f.due = true <;> simp [SliceState.dropFetch, hd, hk, hlate, b2n]
    · unfold SliceState.endFetch
      rw [hr]
      rfl
    · have hany : ((s.sl sl).dropFetch f).tiers.fetches.any (fun g => g.run == some i) = false := by
        simpa [SliceState.dropFetch] using hno
      have hend : ((s.sl sl).dropFetch f).endFetch f = ((s.sl sl).dropFetch f).completeRun u := by
        unfold SliceState.endFetch
        rw [hr]
        dsimp only
        rw [if_neg (by rw [hany]; exact Bool.false_ne_true), show ((s.sl sl).dropFetch f).runs.find? _ = some u from hu]
      rw [hend]
      exact SliceState.completeRun_completes _ u
  · refine State.fetchComplete_none (List.find?_eq_none.2 fun f hf => ?_)
    simpa using hno f hf
  · rfl
  · exact State.prefetch_idle hact hno
  · have hv := State.actingRun_tiers hact sl
    have hvl : (sl : Nat) < v.slices.length := ((State.Keeps.actingRun hact).2 hs).slices_lt sl
    have hex := State.prefetch_one hact hl he hp h1 hf
    rw [State.startFetch_no_frame (by rw [hv]; exact he) (by rw [hv]; exact hfr)] at hex
    refine ⟨_, hex.trans (congrArg Host.Outcome.next (if_pos rfl)), ?_⟩
    rw [State.onSl_onSl, State.onSl_sl_self _ _ _ hvl]
    refine ⟨(congrArg Tiers.noFrame (SliceState.completeRun_tiers _ u)).trans ?_, SliceState.completeRun_completes _ u⟩
    rw [← hv]
  · have hv := State.actingRun_tiers hact sl
    have hvl : (sl : Nat) < v.slices.length := ((State.Keeps.actingRun hact).2 hs).slices_lt sl
    have hex := State.prefetch_one hact hl he hp h1 hf
    rw [State.startFetch_frame (by rw [hv]; exact he) (by rw [hv]; exact hfr)] at hex
    refine ⟨_, hex.trans (congrArg Host.Outcome.next (if_neg Nat.one_ne_zero)), ?_⟩
    rw [State.emit_sl, State.onSl_sl_self _ _ _ hvl]
    obtain ⟨hfe, hst⟩ := SliceState.prefetches_spec (x := v.sl sl) (e := e)
      (ft := { kind := .scheduled, layer := l, slot := r, frame := n, due := u.dueDrip, projected := u.dueDrip, run := some i, issued := u.launchedAt })
      (by rw [hv]; exact he) hp
    rw [hfe]
    exact ⟨⟨_, List.mem_append_right _ List.mem_cons_self, rfl, rfl, rfl, rfl⟩, hst, List.mem_append_right _ List.mem_cons_self⟩

end Sys2Proof.Machine
end

section
/-! A window that closes beside an ended stage. -/

namespace Sys2Proof.Machine

/-! ### A window that closes beside an ended stage of its number -/

/-- The launched close of a write window. -/
def windowWitnessRun : Run :=
  { idx := 0, frame := 0, st := .launched
    entry := { kind := .windowClose, unit := .sump, launch := 0, duration := 1, due := 0, inputs := [], f := {} } }

/-- A write that was admitted to the window waits. -/
def windowWitnessSlice (x : SliceState) : SliceState :=
  { x with
    runs := [windowWitnessRun, { windowWitnessRun with st := .completed }]
    tiers := { x.tiers with window := { ranges := [], isOpen := true } }
    remote := { x.remote with applyQ := [windowItem] } }

def windowWitness : State := State.reset.onSl 0 windowWitnessSlice

theorem windowWitness_inv : windowWitness.Inv := (State.Keeps.onSl State.reset 0 (f := windowWitnessSlice) fun _ hx => hx).2 resetInv.1

theorem windowWitness_acts : (windowWitness.actingRun 0 0 .windowClose).map (·.1) = some windowWitnessRun := by decide +kernel

theorem windowWitness_keeps : { windowWitnessRun with st := .completed, begun := false } ∈
    ((Out.after (exec (.windowClose 0 0) windowWitness)).sl (0 : SliceId)).runs := by
  decide +kernel

/-- Refutes O33: where a close waits for a write, a stage of its number and frame start that ended before is not launched. -/
theorem not_tierStages : ¬ Obligations.TierStages := by
  intro h
  obtain ⟨-, -, -, hwait, -⟩ := h windowWitness 0 windowWitness_inv
  obtain ⟨⟨u, v⟩, hact, hu⟩ := Option.map_eq_some_iff.1 windowWitness_acts
  obtain rfl : u = windowWitnessRun := hu
  obtain ⟨t, ht, -, hruns⟩ := hwait 0 _ v hact (by decide +kernel)
  have hmem := windowWitness_keeps
  rw [Out.after_next ht] at hmem
  exact absurd (hruns _ hmem rfl rfl).1 (by decide)

end Sys2Proof.Machine
end

section
/-! SUPPORT. What routing and sending leave alone. -/

namespace Sys2Proof.Machine

/-! ### What routing leaves alone -/

/-- A link without the packets that wait on it and the credits that they return. -/
def Link.core (l : Link) : Link :=
  { l with egressReq := [], egressRsp := [], ingressReq := [], ingressRsp := [], reqReturn := 0, rspReturn := 0 }

/-- A slice without what routing a packet changes: the packets that wait, and the error records. -/
def SliceState.core (x : SliceState) : SliceState :=
  { x with
    fabric := { x.fabric with inject := [], nextHold := 0 }
    err := {}
    ports := x.ports.map Link.core
    ilinks := x.ilinks.map Link.core }

/-- A slice without what sending a message changes either: the flows from it, and the messages that it has under way. -/
def SliceState.sendCore (x : SliceState) : SliceState :=
  { x.core with
    fabric := { lost := x.fabric.lost, dst := x.fabric.dst }
    remote := { x.remote with mcast := [] } }

/-- `t` is `s` but for a part of its slices that `π` does not show. -/
structure State.Alike {β : Type} (π : SliceState → β) (s t : State) : Prop where
  agree : State.Agree π s t
  rest : SameBut s t

/-- `t` is `s` but for what routing changes. -/
abbrev State.Routes (s t : State) : Prop := State.Alike SliceState.core s t

/-- `t` is `s` but for what sending changes. -/
abbrev State.Sends (s t : State) : Prop := State.Alike SliceState.sendCore s t

theorem SameBut.trans {s t u : State} (h : SameBut s t) (k : SameBut t u) : SameBut s u := Eq.trans h k

namespace State.Alike
variable {β : Type} {π : SliceState → β} {s t u : State}

theorem refl (s : State) : State.Alike π s s := ⟨.refl s, rfl⟩

theorem trans (a : State.Alike π s t) (b : State.Alike π t u) : State.Alike π s u := ⟨a.agree.trans b.agree, a.rest.trans b.rest⟩

theorem comp (b : State.Alike π t u) (a : State.Alike π s t) : State.Alike π s u := a.trans b

theorem ite {p : Prop} [Decidable p] (a : State.Alike π s t) (b : State.Alike π s u) : State.Alike π s (if p then t else u) := by
  split <;> assumption

theorem onSl {i : Nat} {f : SliceState → SliceState} (h : ∀ x, π (f x) = π x) : State.Alike π s (s.onSl i f) := ⟨.onSl h, rfl⟩

theorem onSl_at {i : Nat} {f : SliceState → SliceState} (h : π (f (s.sl i)) = π (s.sl i)) : State.Alike π s (s.onSl i f) := ⟨.onSl_at h, rfl⟩

theorem foldl {α : Type} {f : State → α → State} (h : ∀ s a, State.Alike π s (f s a)) (l : List α) (s : State) : State.Alike π s (l.foldl f s) := by
  induction l generalizing s with
  | nil => exact refl _
  | cons a l ih => exact (h s a).trans (ih _)

theorem eachSlice {f : State → Nat → State} (h : ∀ s i, State.Alike π s (f s i)) (s : State) : State.Alike π s (s.eachSlice f) := foldl h _ s

/-- A field of a slice that the part shows. -/
theorem field {γ : Type} {ρ : SliceState → γ} (h : State.Alike π s t) (hρ : ∀ x y, π x = π y → ρ x = ρ y) : State.Alike ρ s t :=
  ⟨fun i => hρ _ _ (h.agree i), h.rest⟩

theorem job (h : State.Alike π s t) : t.job = s.job := (congrArg State.job h.rest).symm
theorem pkg (h : State.Alike π s t) : t.pkg = s.pkg := (congrArg State.pkg h.rest).symm
theorem time (h : State.Alike π s t) : t.time = s.time := (congrArg State.time h.rest).symm
theorem host (h : State.Alike π s t) : t.host = s.host := (congrArg State.host h.rest).symm
theorem sec (h : State.Alike π s t) : t.sec = s.sec := (congrArg State.sec h.rest).symm
theorem load (h : State.Alike π s t) : t.load = s.load := (congrArg State.load h.rest).symm
theorem out (h : State.Alike π s t) : t.out = s.out := (congrArg State.out h.rest).symm

end State.Alike

theorem map_modify_of_eq {α β : Type} {g : α → β} {f : α → α} (h : ∀ a, g (f a) = g a) (l : List α) (i : Nat) : (l.modify i f).map g = l.map g := by
  refine List.ext_getElem? fun n => ?_
  simp only [List.getElem?_map, List.getElem?_modify]
  cases l[n]? with
  | none => rfl
  | some a =>
    by_cases hn : i = n
    · simp [hn, h]
    · simp [hn]

theorem SliceState.core_onLink {f : Link → Link} (h : ∀ k, (f k).core = k.core) (x : SliceState) (l : LinkId) : (x.onLink l f).core = x.core := by
  cases l with
  | port p => simp only [SliceState.onLink, SliceState.core, map_modify_of_eq h]
  | link k => simp only [SliceState.onLink, SliceState.core, map_modify_of_eq h]

theorem SliceState.sendCore_of_core {x y : SliceState} (h : x.core = y.core) : x.sendCore = y.sendCore := by
  have hl : x.fabric.lost = y.fabric.lost := (congrArg (fun z : SliceState => z.fabric.lost) h :)
  have hd : x.fabric.dst = y.fabric.dst := (congrArg (fun z : SliceState => z.fabric.dst) h :)
  have hr : x.remote = y.remote := (congrArg SliceState.remote h :)
  unfold SliceState.sendCore
  rw [h, hl, hd, hr]

theorem State.Routes.sends {s t : State} (h : s.Routes t) : s.Sends t := h.field fun _ _ => SliceState.sendCore_of_core

/-- Slices with the same sending core have links with the same cores. -/
theorem SliceState.link_core_of_sendCore {x y : SliceState} (h : x.sendCore = y.sendCore) (l : LinkId) : (x.link l).core = (y.link l).core := by
  have hg (ls : List Link) (n : Nat) : (ls.getD n {}).core = (ls.map Link.core).getD n {} := by
    rw [List.getD_eq_getElem?_getD, List.getD_eq_getElem?_getD, List.getElem?_map]
    cases ls[n]? <;> rfl
  unfold SliceState.link
  cases l with
  | port p =>
    dsimp only
    rw [hg, hg, show x.ports.map Link.core = y.ports.map Link.core from congrArg SliceState.ports h]
  | link k =>
    dsimp only
    rw [hg, hg, show x.ilinks.map Link.core = y.ilinks.map Link.core from congrArg SliceState.ilinks h]

/-- What a link tells of itself beside the packets on it. -/
theorem State.Sends.link {β : Type} {s t : State} (h : s.Sends t) {π : Link → β} (hπ : ∀ k, π k.core = π k) (i : Nat) (l : LinkId) :
    π (t.link i l) = π (s.link i l) := by
  unfold State.link
  rw [← hπ, SliceState.link_core_of_sendCore (h.agree i), hπ]

namespace State.Routes
variable {s : State}

theorem report (i : Nat) (r : Report) : s.Routes (s.report i r) := .onSl fun _ => rfl

theorem routerDiscard (i : Nat) (a : Arrival) (p : Packet) : s.Routes (s.routerDiscard i a p) := report ..

theorem onLink {i : Nat} {l : LinkId} {f : Link → Link} (h : ∀ k, (f k).core = k.core) : s.Routes (s.onLink i l f) :=
  .onSl fun x => SliceState.core_onLink h x l

theorem enqueue (i : Nat) (l : LinkId) (a : Arrival) (p : Packet) (r : Option Nat) : s.Routes (s.enqueue i l a p r) :=
  onLink fun k => by
    dsimp only
    split <;> rfl

theorem cross (i j : Nat) (a : Arrival) (p : Packet) (n : Option Nat) : s.Routes (s.cross i j a p n) := by
  unfold State.cross
  split
  · exact enqueue ..
  · split
    · exact enqueue ..
    · exact routerDiscard ..

theorem toPort (i : Nat) (a : Arrival) (p : Packet) (n : Nat) : s.Routes (s.toPort i a p n) := .ite (enqueue ..) (cross ..)

theorem spray (i : Nat) (a : Arrival) (p : Packet) : s.Routes (s.spray i a p) := by
  unfold State.spray
  dsimp only
  split
  · exact toPort ..
  · exact routerDiscard ..

theorem toOwn (i : Nat) (a : Arrival) (p : Packet) : s.Routes (s.toOwn i a p) := .onSl fun _ => rfl

theorem copyMulticast (i : Nat) (a : Arrival) (p : Packet) : s.Routes (s.copyMulticast i a p) := by
  unfold State.copyMulticast
  dsimp only
  split
  · exact routerDiscard ..
  · refine .comp (.foldl (fun v k => ?_) _ _) (.foldl (fun v n => toPort ..) _ _)
    split
    · exact .refl _
    · split
      · exact toOwn ..
      · exact cross ..

theorem routePacket (i : Nat) (a : Arrival) (r : Option Nat) (p : Packet) : s.Routes (s.routePacket i a r p) := by
  unfold State.routePacket
  dsimp only
  refine .ite (routerDiscard ..) (.ite (.refl _) (.ite ?_ (.ite (.ite (toOwn ..) (cross ..)) ?_)))
  · split
    · exact .ite (.ite (toOwn ..) (cross ..)) (.ite (toPort ..) (.refl _))
    · exact toOwn ..
    · exact copyMulticast ..
  · split
    · exact .ite (toPort ..) (spray ..)
    · exact spray ..

theorem routeAll (i : Nat) (ps : List Packet) : s.Routes (ps.foldl (fun v p => v.routePacket i .own none p) s) := .foldl (fun _ _ => routePacket ..) _ _

theorem creditBack (i : Nat) (a : Arrival) (p : Packet) : s.Routes (s.creditBack i a p) := by
  unfold State.creditBack
  dsimp only
  have hg : ∀ k : Link, (match netOf p.opcode with
      | .req => { k with reqReturn := k.reqReturn + packetCredits p }
      | .rsp => { k with rspReturn := k.rspReturn + packetCredits p } : Link).core = k.core := fun k => by split <;> rfl
  split
  · exact onLink hg
  · exact onLink hg
  · exact .refl _

theorem freeHold (i : Nat) (a : Arrival) (h : Option Nat) (p : Packet) : s.Routes (s.freeHold i a h p) := by
  unfold State.freeHold
  split
  · exact .refl _
  · exact .ite (.refl _) (creditBack ..)

theorem takeOwn (i : Nat) (p : Packet) : s.Routes (s.takeOwn i p) := by
  unfold State.takeOwn
  split
  · exact .refl _
  · exact .comp (freeHold ..) (.onSl fun _ => rfl)

theorem takeIngress (i : Nat) (a : Arrival) (p : Packet) : s.Routes (s.takeIngress i a p) := by
  unfold State.takeIngress
  dsimp only
  split
  · refine onLink fun k => ?_
    split <;> split <;> rfl
  · refine onLink fun k => ?_
    split <;> split <;> rfl
  · exact takeOwn ..

theorem liftIngress (i : Nat) (a : Arrival) (p : Packet) : s.Routes (s.liftIngress i a p) := by
  unfold State.liftIngress
  dsimp only
  split
  · refine onLink fun k => ?_
    split <;> rfl
  · refine onLink fun k => ?_
    split <;> rfl
  · exact takeOwn ..

theorem forward (i : Nat) (a : Arrival) (r : Option Nat) (p : Packet) : s.Routes (s.forward i a r p) := by
  unfold State.forward
  dsimp only
  exact .comp (.onSl fun _ => rfl) (.ite (.comp (freeHold ..) (.comp (routePacket ..) (liftIngress ..))) (.comp (routePacket ..) (liftIngress ..)))

theorem sendCtrl (i : Nat) (d : Place) (m : Nat) (b : Bytes) : s.Routes (s.sendCtrl i d m b) := by
  unfold State.sendCtrl
  exact .ite (.refl _) (routePacket ..)

end State.Routes

namespace State.Sends
variable {s : State}

theorem setSrcFlow (i : Nat) (f : SrcFlow) : s.Sends (s.setSrcFlow i f) := .onSl fun _ => rfl

theorem launchMsg (i : Nat) (d : Place) (g : Option Nat) (ps : List Packet) (iss : Issuer) : s.Sends (s.launchMsg i d g ps iss) := by
  unfold State.launchMsg
  dsimp only
  exact .ite (.refl _) (.comp (State.Routes.routeAll ..).sends (.comp (.onSl fun _ => rfl) (setSrcFlow ..)))

theorem sendMsg (i : Nat) (m : SendSpec) : s.Sends (s.sendMsg i m) := by
  unfold State.sendMsg
  dsimp only
  exact .ite (.refl _) (.ite (launchMsg ..) (.onSl fun _ => rfl))

theorem releaseOne (i : Nat) (d : Place) : s.Sends (s.releaseOne i d) := by
  unfold State.releaseOne
  split
  · dsimp only
    exact .ite (.refl _) (.comp (launchMsg ..) (.onSl fun _ => rfl))
  · exact .refl _

theorem releaseHeld (i : Nat) (d : Place) : s.Sends (s.releaseHeld i d) := by
  unfold State.releaseHeld
  exact .ite (.refl _) (.foldl (fun _ _ => .ite (releaseOne ..) (.refl _)) _ _)

theorem windowAnswer (i : Nat) (m : OutMsg) (c : Bool) : s.Sends (s.windowAnswer i m c) := by
  unfold State.windowAnswer
  dsimp only
  exact .ite (.comp (.onSl fun _ => rfl) (setSrcFlow ..)) (.refl _)

theorem resendMsg (i : Nat) (m : OutMsg) : s.Sends (s.resendMsg i m) := by
  unfold State.resendMsg
  dsimp only
  exact .ite (.refl _) (.comp (State.Routes.routeAll ..).sends (.ite (.comp (setSrcFlow ..) (.onSl fun _ => rfl)) (.onSl fun _ => rfl)))

theorem sendAnswer (i : Nat) (q : Packet) (o m : Nat) (b : Bytes) (e : Bool) : s.Sends (s.sendAnswer i q o m b e) := by
  unfold State.sendAnswer
  dsimp only
  exact .ite (.refl _) (.comp (State.Routes.routePacket ..).sends (setSrcFlow ..))


end State.Sends

end Sys2Proof.Machine
end

section
/-! SUPPORT. What a link that leaves UP changes. -/

namespace Sys2Proof.Machine

/-! ### What a link that leaves UP changes -/

/-- A state without its slices, and without what the time base, the unit map and the host's causes change. -/
def State.calm (s : State) : State :=
  { s with
    slices := [], time := {}, host := {}
    pkg := { s.pkg with notices := [] }
    dict := { s.dict with store := [], storeWrites := 0, storeWear := 0, unitMapChanges := 0 }
    sec := { s.sec with mr := [], log := [], logCount := 0, logLost := 0 } }

/-- A slice without what sending changes, and without its unit map. -/
def SliceState.settleCore (x : SliceState) : SliceState := { x.sendCore with spares := {} }

/-- `t` is `s` but for what the end of a link changes at the rest of the device: the packets that wait, the time base, the unit map, the
notices of lost slices and what is recorded of them. -/
structure State.Settles (s t : State) : Prop where
  agree : State.Agree SliceState.settleCore s t
  calm : t.calm = s.calm

theorem SliceState.settleCore_of_sendCore {x y : SliceState} (h : x.sendCore = y.sendCore) : x.settleCore = y.settleCore := by
  unfold SliceState.settleCore
  rw [h]

theorem SliceState.link_core_of_settleCore {x y : SliceState} (h : x.settleCore = y.settleCore) (l : LinkId) : (x.link l).core = (y.link l).core := by
  have hx (z : SliceState) : (z.settleCore.link l).core = (z.link l).core := by
    have hcc (ls : List Link) : (ls.map Link.core).map Link.core = ls.map Link.core := by
      rw [List.map_map]
      exact List.map_congr_left fun _ _ => rfl
    have hg (ls : List Link) (n : Nat) : (ls.getD n {}).core = (ls.map Link.core).getD n {} := by
      rw [List.getD_eq_getElem?_getD, List.getD_eq_getElem?_getD, List.getElem?_map]
      cases ls[n]? <;> rfl
    unfold SliceState.link
    cases l with
    | port p => dsimp only; rw [hg, hg]; exact congrArg (List.getD · _ _) (hcc z.ports)
    | link k => dsimp only; rw [hg, hg]; exact congrArg (List.getD · _ _) (hcc z.ilinks)
  rw [← hx x, ← hx y, h]

theorem State.cause_calm (s : State) (b : Nat) : (s.cause b).calm = s.calm := by
  unfold State.cause State.msix
  dsimp only
  split
  · split
    · rfl
    · split <;> rfl
  · rfl

namespace State.Settles
variable {s t u : State}

theorem refl (s : State) : State.Settles s s := ⟨.refl s, rfl⟩

theorem trans (a : State.Settles s t) (b : State.Settles t u) : State.Settles s u := ⟨a.agree.trans b.agree, b.calm.trans a.calm⟩

theorem comp (b : State.Settles t u) (a : State.Settles s t) : State.Settles s u := a.trans b

theorem ite {p : Prop} [Decidable p] (a : State.Settles s t) (b : State.Settles s u) : State.Settles s (if p then t else u) := by
  split <;> assumption

theorem foldl {α : Type} {f : State → α → State} (h : ∀ s a, State.Settles s (f s a)) (l : List α) (s : State) : State.Settles s (l.foldl f s) := by
  induction l generalizing s with
  | nil => exact refl _
  | cons a l ih => exact (h s a).trans (ih _)

theorem of_sends (h : s.Sends t) : State.Settles s t :=
  ⟨fun i => SliceState.settleCore_of_sendCore (h.agree i),
    (congrArg (fun w : State => w.calm) h.rest.symm :)⟩

theorem of_routes (h : s.Routes t) : State.Settles s t := of_sends h.sends

theorem of_slices (hsl : t.slices = s.slices) (hc : t.calm = s.calm) : State.Settles s t := ⟨.of_slices hsl, hc⟩

theorem report (i : Nat) (r : Report) : State.Settles s (s.report i r) := of_routes (.report ..)

theorem cause (b : Nat) : State.Settles s (s.cause b) := of_slices (State.cause_slices ..) (s.cause_calm b)

/-- What the links tell beside the packets on them. -/
theorem link {β : Type} (h : State.Settles s t) {π : Link → β} (hπ : ∀ k, π k.core = π k) (i : Nat) (l : LinkId) : π (t.link i l) = π (s.link i l) := by
  unfold State.link
  rw [← hπ, SliceState.link_core_of_settleCore (h.agree i), hπ]

theorem job (h : State.Settles s t) : t.job = s.job := (congrArg State.job h.calm :)

/-! #### The time base -/

theorem setTimeState (st : Nat) : State.Settles s (s.setTimeState st) := by
  unfold State.setTimeState
  dsimp only
  exact .ite (refl _) (.comp (cause 5) (.ite (.comp (report ..) (of_slices rfl rfl)) (of_slices rfl rfl)))

theorem setOrigin (o : Nat) : State.Settles s (s.setOrigin o) := of_slices rfl rfl

theorem meetOrigin (o : Nat) : State.Settles s (s.meetOrigin o) := by
  unfold State.meetOrigin
  dsimp only
  exact .ite (of_slices rfl rfl) (.ite (setOrigin o) (.ite (of_slices rfl rfl) (.comp (report ..) (of_slices rfl rfl))))

theorem becomeGrandmaster : State.Settles s s.becomeGrandmaster := by
  unfold State.becomeGrandmaster
  dsimp only
  exact .comp (setTimeState 4) (.ite (of_slices rfl rfl) (.comp (setOrigin _) (of_slices rfl rfl)))

theorem follow (c : Bool × Nat) : State.Settles s (s.follow c) := by
  unfold State.follow
  split
  · exact refl _
  · dsimp only
    refine .comp (meetOrigin _) ?_
    have hv (u : State) : State.Settles u (if u.time.state = 2 || u.time.state = 1 then u else u.setTimeState 1) := .ite (refl _) (setTimeState 1)
    exact .comp (hv _) (.ite (.comp (report ..) (of_slices rfl rfl)) (of_slices rfl rfl))

theorem chooseParent : State.Settles s s.chooseParent := by
  unfold State.chooseParent
  refine .ite (.ite (refl _) (follow _)) ?_
  split
  · exact .ite becomeGrandmaster (.ite (.comp (setTimeState 3) (of_slices rfl rfl)) (refl _))
  · exact .ite becomeGrandmaster (follow _)

/-! #### The store and the unit map -/

theorem storeWrite : State.Settles s s.storeWrite := by
  unfold State.storeWrite
  dsimp only
  exact .ite (.comp (report ..) (of_slices rfl rfl)) (of_slices rfl rfl)

theorem extendMR (n : Nat) (d : Bytes) : State.Settles s (s.extendMR n d) := of_slices rfl rfl

theorem storeRecord (index sub c : Nat) (v : Bytes) : State.Settles s (s.storeRecord index sub c v) := by
  unfold State.storeRecord
  dsimp only
  exact .comp (extendMR ..) (.comp storeWrite (of_slices rfl rfl))

theorem devicePersist {index sub c : Nat} {v : Bytes} {f : State → State} (h : State.Settles s (f s)) : State.Settles s (s.devicePersist index sub c v f) :=
  .ite (report ..) (.comp (storeRecord ..) h)

theorem mapChanged (i : Nat) (u : UnitRef) : State.Settles s (s.mapChanged i u) := by
  unfold State.mapChanged
  dsimp only
  exact .comp (report ..) (.comp (extendMR ..) (devicePersist (of_slices rfl rfl)))

theorem onSpares (i : Nat) (f : Spares → Spares) : State.Settles s (s.onSpares i f) := ⟨.onSl fun _ => rfl, rfl⟩

theorem applyMap_link (i k : Nat) (r : Option Nat) : State.Settles s (s.applyMap i ({ kind := 8, index := k }, r)) := by
  unfold State.applyMap
  dsimp only
  exact .ite (refl _) (.comp (mapChanged ..) (onSpares ..))

theorem mapDue_link (i k : Nat) : State.Settles s (s.mapDue i { kind := 8, index := k }) :=
  .ite (applyMap_link ..) (.ite (refl _) (onSpares ..))

theorem detectLoss (n m : Nat) : State.Settles s (s.detectLoss n m) := by
  unfold State.detectLoss
  split
  · exact refl _
  · dsimp only
    exact .ite (refl _) (.comp (.foldl (fun _ _ => .ite (refl _) (of_routes (.sendCtrl ..))) _ _) (of_slices rfl rfl))

theorem cutPairs : State.Settles s s.cutPairs := by
  unfold State.cutPairs
  exact .ite (refl _) (.foldl (fun _ _ => .foldl (fun _ _ => .ite (detectLoss ..) (refl _)) _ _) _ _)

/-! #### The packets of the link -/

theorem requeue (i : Nat) (l : LinkId) (x : Queued) : State.Settles s (s.requeue i l x) := by
  have hold (v : State) (n : Nat) : v.Routes (v.onSl i fun y => { y with fabric := { y.fabric with nextHold := n } }) := .onSl fun _ => rfl
  refine of_routes ?_
  unfold State.requeue
  dsimp only
  refine .comp (hold _ _) (.trans (hold s (x.hold.getD (s.sl i).fabric.nextHold)) ?_)
  refine .ite (.refl _) ?_
  split
  · exact .ite (.refl _) (State.Routes.spray ..)
  · split
    · exact State.Routes.cross ..
    · exact State.Routes.cross ..

theorem voidHolds (i : Nat) (l : LinkId) : State.Settles s (s.onSl i fun x => x.voidHolds l) := by
  refine of_routes (.onSl fun x => ?_)
  unfold SliceState.voidHolds SliceState.core
  dsimp only
  rw [List.map_map, List.map_map]
  rfl

theorem freeHolds (i : Nat) (l : List (Arrival × Option Nat × Packet)) (v : State × List (Arrival × Option Nat)) (h : State.Settles s v.1) :
    State.Settles s (l.foldl (fun (v : State × List (Arrival × Option Nat)) x =>
      if v.2.contains (x.1, x.2.1) then v else (v.1.freeHold i x.1 x.2.1 x.2.2, (x.1, x.2.1) :: v.2)) v).1 := by
  induction l generalizing v with
  | nil => exact h
  | cons a l ih =>
    refine ih _ ?_
    dsimp only
    split
    · exact h
    · exact h.trans (of_routes (.freeHold ..))

end State.Settles

/-! ### A link that leaves UP -/

/-- The state in which the link is cleared: its DOWN symbol has been sent and its signature is asked for no more. -/
def State.dropLink (s : State) (sl : Nat) (l : LinkId) (st reason : Nat) : State :=
  let k := s.link sl l
  let s1 := if reason = 0 ∨ k.st = linkDown ∨ k.st = linkDisabled then s
    else s.emit (.frame sl l (buildFrame k s.sec.rekeyFrames kindIDLE 0 (symDown reason) []).1)
  { s1.onLink sl l fun x => x.cleared st with
    sec := { s1.sec with signQueue := match l with
      | .port p => s1.sec.signQueue.filter (· != (sl, p.val))
      | .link _ => s1.sec.signQueue } }

/-- The loss of a link that was UP is counted. -/
def State.countLoss (s : State) (sl : Nat) (l : LinkId) (v : State) : State :=
  v.onLink sl l fun x =>
    { x with
      downEvents := x.downEvents + 1, jobLost := x.jobLost || s.losesJob l
      lostFor := if s.losesJob l then x.lostFor ++ s.nodesBy sl l else x.lostFor }

theorem State.goDown_from_up {s : State} {sl : Nat} {l : LinkId} (h : (s.link sl l).st = linkUp) (st reason : Nat) :
    State.Settles (s.countLoss sl l (s.dropLink sl l st reason)) (s.goDown sl l st reason) := by
  unfold State.goDown
  dsimp only
  rw [if_pos h]
  have hq : State.Settles (s.countLoss sl l (s.dropLink sl l st reason))
      (((s.link sl l).queued.foldl (fun v x => v.requeue sl l x)
        (((s.countLoss sl l (s.dropLink sl l st reason)).report sl { cls := 0x0D, unit := LinkId.unit l }).onSl sl fun x => x.voidHolds l))) :=
    .comp (.foldl (fun _ _ => .requeue ..) _ _) (.comp (.voidHolds ..) (.report ..))
  have hf := State.Settles.freeHolds sl ((s.link sl l).queued.map fun x => (x.origin, x.hold, x.pkt)) (_, []) hq
  cases l with
  | port p => exact .ite (.comp .chooseParent hf) hf
  | link j => exact .comp .cutPairs (.comp (.mapDue_link ..) hf)

theorem State.goDown_otherwise {s : State} {sl : Nat} {l : LinkId} (h : (s.link sl l).st ≠ linkUp) (st reason : Nat) :
    State.Settles (s.dropLink sl l st reason) (s.goDown sl l st reason) := by
  unfold State.goDown
  dsimp only
  rw [if_neg h]
  cases l with
  | port p => exact .refl _
  | link j => exact .mapDue_link ..

end Sys2Proof.Machine
end

section
/-! Links that train, come up and go down. -/

namespace Sys2Proof.Machine

/-! ### The links of a state, internal ones and ports -/

theorem State.link_onLink {s : State} (hs : s.Inv) (sl : SliceId) (l : LinkId) (f : Link → Link) :
    (s.onLink sl l f).link sl l = f (s.link sl l) := by
  cases l with
  | port p => exact State.link_onLink_self hs sl p f
  | link k =>
    have hsl : (sl : Nat) < s.slices.length := by rw [hs.1.1]; exact sl.isLt
    have hk : (k : Nat) < (s.sl sl).ilinks.length := by rw [(hs.sl sl.isLt).2.2.2.2.1]; exact k.isLt
    unfold State.link State.onLink
    rw [State.onSl_sl_self _ _ _ hsl]
    simp [SliceState.link, SliceState.onLink, List.getD_eq_getElem?_getD, hk]

theorem State.onLink_congr_at {s : State} {i : Nat} {l : LinkId} {f g : Link → Link} (h : f (s.link i l) = g (s.link i l)) :
    s.onLink i l f = s.onLink i l g := by
  cases l with
  | port p => exact State.onLink_congr h
  | link k =>
    refine State.onSl_congr ?_
    unfold SliceState.onLink
    dsimp only
    rw [List.modify_congr_getD h]

theorem State.link_dropLink {s : State} (hs : s.Inv) (sl : SliceId) (l : LinkId) (st reason : Nat) :
    (s.dropLink sl l st reason).link sl l = (s.link sl l).cleared st := by
  show ((if _ then s else _ : State).onLink sl l _).link sl l = _
  split
  · exact State.link_onLink hs ..
  · exact State.link_onLink ((State.Keeps.emit s _).2 hs) ..

theorem State.dropLink_keeps (s : State) (sl : Nat) (l : LinkId) (st reason : Nat) : State.Keeps s (s.dropLink sl l st reason) := by
  unfold State.dropLink
  exact .comp (.update rfl rfl rfl rfl) (.comp (.onLink ..) (.ite (.refl _) (.emit ..)))

/-- A link that leaves UP: its session and its credits are gone, and the loss is counted. -/
theorem State.link_goDown_up {s : State} (hs : s.Inv) {sl : SliceId} {l : LinkId} (h : (s.link sl l).st = linkUp) (st reason : Nat) :
    ((s.goDown sl l st reason).link sl l).st = st ∧
      ((s.goDown sl l st reason).link sl l).downEvents = (s.link sl l).downEvents + 1 ∧ ((s.goDown sl l st reason).link sl l).sess = {} := by
  have hg := State.goDown_from_up h st reason
  have hc : (s.countLoss sl l (s.dropLink sl l st reason)).link sl l = _ :=
    (State.link_onLink ((s.dropLink_keeps sl l st reason).2 hs) sl l _).trans (by rw [State.link_dropLink hs])
  refine ⟨(hg.link (π := Link.st) (fun _ => rfl) sl l).trans ?_, (hg.link (π := Link.downEvents) (fun _ => rfl) sl l).trans ?_,
    (hg.link (π := Link.sess) (fun _ => rfl) sl l).trans ?_⟩
  all_goals rw [hc]; rfl

theorem State.link_goDown {s : State} (hs : s.Inv) {sl : SliceId} {l : LinkId} (h : (s.link sl l).st ≠ linkUp) (st reason : Nat) :
    ((s.goDown sl l st reason).link sl l).st = st ∧
      ((s.goDown sl l st reason).link sl l).downEvents = (s.link sl l).downEvents ∧ ((s.goDown sl l st reason).link sl l).sess = {} := by
  have hg := State.goDown_otherwise h st reason
  have hc := State.link_dropLink hs sl l st reason
  refine ⟨(hg.link (π := Link.st) (fun _ => rfl) sl l).trans ?_, (hg.link (π := Link.downEvents) (fun _ => rfl) sl l).trans ?_,
    (hg.link (π := Link.sess) (fun _ => rfl) sl l).trans ?_⟩
  all_goals rw [hc]; rfl

/-! ### Training, sessions and timers -/

/-- A port that starts to authenticate. -/
theorem State.beginAuth_spec {s : State} (hs : s.Inv) (sl : SliceId) (p : PortId) :
    ((s.beginAuth sl p).link sl (.port p)).st = linkAuth ∧
      (s.sec.identity = 1 → s.sec.trngFailing = false → (s.beginAuth sl p).draws = s.draws + 88 ∧
        ((s.beginAuth sl p).link sl (.port p)).sess.txMsg = ((s.beginAuth sl p).link sl (.port p)).sess.hello ∧
        ((s.beginAuth sl p).link sl (.port p)).sess.hello ≠ []) ∧
      (s.sec.identity ≠ 1 ∨ s.sec.trngFailing = true → (s.beginAuth sl p).draws = s.draws ∧
        ((s.beginAuth sl p).link sl (.port p)).sess.hello = []) := by
  have hp : (Fin.ofNat 8 (p : Nat) : PortId) = p := Fin.ext (Nat.mod_eq_of_lt p.isLt)
  have h0 := State.link_onLink hs sl (.port p) fun k => { k with st := linkAuth, sess := {} }
  unfold State.beginAuth
  rw [hp]
  dsimp only [State.drawTrng]
  by_cases hc : (s.sec.identity = 1 && !s.sec.trngFailing) = true
  · rw [if_pos hc]
    obtain ⟨hid, htr⟩ : s.sec.identity = 1 ∧ s.sec.trngFailing = false := by simpa using hc
    have hk : (s.onLink sl (.port p) fun k => { k with st := linkAuth, sess := {} }).Inv := (State.Keeps.onLink ..).2 hs
    have h1 (d : Nat) (f : Link → Link) := State.link_onLink
      (s := { s.onLink sl (.port p) fun k => { k with st := linkAuth, sess := {} } with draws := d }) hk sl (.port p) f
    rw [h1]
    refine ⟨(congrArg Link.st h0 :), fun _ _ => ⟨Nat.add_assoc .., rfl, fun h => ?_⟩, fun h => ?_⟩
    · exact absurd h (by simp [State.helloBytes])
    · simp [hid, htr] at h
  · rw [if_neg hc, h0]
    exact ⟨rfl, fun hid htr => absurd (by simp [hid, htr]) hc, fun _ => ⟨rfl, rfl⟩⟩

/-- An internal link that has trained is UP, with full credits and fresh numbers. -/
theorem State.link_goUp {s : State} (hs : s.Inv) (sl : SliceId) (l : LinkId) {β : Type} {π : Link → β} (hπ : ∀ k, π k.core = π k) :
    π ((s.goUp sl l).link sl l) = π { s.link sl l with
      st := linkUp, txSeq := 0, rxSeq := 4095, kept := [], resend := [], nakOwed := false, nakSent := false, rxStream := [], txStream := []
      reqCredits := 4096, rspCredits := 4096, reqReturn := 0, rspReturn := 0, fecTimes := [], symbols := [] } := by
  unfold State.goUp
  dsimp only
  cases l with
  | port p => exact congrArg π (State.link_onLink hs ..)
  | link j => exact ((State.Settles.mapDue_link sl j.val).link hπ sl (.link j)).trans (congrArg π (State.link_onLink hs ..))

theorem State.peerDown_of_live {s : State} {sl : Nat} {l : LinkId} (h : (s.link sl l).st = linkUp ∨ (s.link sl l).st = linkAuth) :
    s.peerDown sl l = s.goDown sl l linkDown 0 := if_pos h

/-- Settles O34: a link that leaves UP keeps the count of its loss through everything that follows from it, `link_goDown_up`. -/
theorem linkStates : Obligations.LinkStates := by
  unfold Obligations.LinkStates
  intro s sl l hs
  dsimp only
  have hauth {st : Nat} (h : st = linkAuth) : st ≠ linkUp := by rw [h]; decide
  refine ⟨fun h1 h2 h3 h4 => ?_, ?_, ?_, fun h => ?_, fun h => ⟨?_, fun reason => ?_⟩, ?_, fun h hk => ?_, ?_, ?_, ?_, ?_⟩
  · show execLinkRetrainAttempt sl l s = _
    unfold execLinkRetrainAttempt
    dsimp only
    rw [if_pos (by simp [h1, h2, h3, h4])]
  · rintro i rfl h
    refine ⟨s.goUp sl (.link i), ?_, State.link_goUp hs sl _ (π := Link.st) fun _ => rfl, State.link_goUp hs sl _ (π := Link.reqCredits) fun _ => rfl,
      State.link_goUp hs sl _ (π := Link.rspCredits) fun _ => rfl, State.link_goUp hs sl _ (π := Link.txSeq) fun _ => rfl,
      State.link_goUp hs sl _ (π := Link.kept) fun _ => rfl⟩
    show execLinkTrainComplete sl (.link i) s = _
    exact if_pos h
  · rintro p rfl h
    refine ⟨s.beginAuth sl p, ?_, State.beginAuth_spec hs sl p⟩
    show execLinkTrainComplete sl (.port p) s = _
    exact if_pos h
  · obtain ⟨h1, h2, -⟩ := State.link_goDown hs (sl := sl) (l := l) (by rw [h]; decide) linkDown 0
    exact ⟨_, if_pos h, ((State.Settles.report ..).link (π := Link.st) (fun _ => rfl) sl l).trans h1,
      ((State.Settles.report ..).link (π := Link.downEvents) (fun _ => rfl) sl l).trans h2⟩
  · exact ⟨_, if_pos h, State.link_goDown_up hs h linkDown 0⟩
  · exact ⟨_, congrArg Host.Outcome.next (State.peerDown_of_live (.inl h)), State.link_goDown_up hs h linkDown 0⟩
  · rintro p reason rfl h
    obtain ⟨h1, -, h3⟩ := State.link_goDown hs (hauth h) linkDown 0
    exact ⟨_, congrArg Host.Outcome.next (State.peerDown_of_live (.inr h)), h1, h3⟩
  · show Host.Outcome.next _ = _
    refine congrArg Host.Outcome.next (State.onLink_congr_at ?_)
    exact if_pos (by simp [h, hk])
  · rintro p rfl h hh ht
    refine ⟨fun hl => ?_, fun hl => ?_⟩
    · obtain ⟨h1, -, h3⟩ := State.link_goDown hs (hauth h) linkDown 4
      exact ⟨_, if_pos (by simp [h, Session.helloSent, hh, hl]), h1, h3⟩
    · exact if_neg (by simp [Session.helloSent, ht, hl])
  · rintro p rfl h hh ht
    obtain ⟨h1, -, h3⟩ := State.link_goDown hs (hauth h) linkDown 4
    exact ⟨_, if_pos (by simp [h, Session.helloSent, hh, ht]), h1, h3⟩
  · rintro p rfl h hk hn
    refine ⟨_, rfl, ?_⟩
    rw [State.link_onLink hs, if_pos h]
    unfold Session.rekeyTx
    rw [if_pos (by simp [hk, hn])]
    exact ⟨rfl, rfl, rfl, rfl⟩
  · rintro p rfl
    refine ⟨_, rfl, ?_⟩
    rw [State.link_onLink hs]
    exact ⟨fun h => if_pos h, fun h => if_neg (by omega)⟩

end Sys2Proof.Machine
end

section
/-! The handshake of a link. -/

namespace Sys2Proof.Machine

/-! ### The handshake of a link -/

theorem PortId.ofNat_val (p : PortId) : (Fin.ofNat 8 (p : Nat) : PortId) = p := Fin.ext (Nat.mod_eq_of_lt p.isLt)

/-- A peer that is refused: the port is DOWN, and the failure is counted. -/
theorem State.refusePeer_spec {s : State} (hs : s.Inv) {sl : SliceId} {p : PortId} (h : (s.link sl (.port p)).st = linkAuth) (c : Nat) :
    ((s.refusePeer sl p c).link sl (.port p)).st = linkDown ∧ (s.refusePeer sl p c).sec.authFailures = s.sec.authFailures + 1 := by
  unfold State.refusePeer
  rw [PortId.ofNat_val]
  dsimp only
  generalize hu : State.report { s with sec := { s.sec with authFailures := s.sec.authFailures + 1 } } _ _ = u
  have hui : u.Inv := by
    rw [← hu]
    exact (State.Keeps.report _ _ _).2 ((State.Keeps.update (s := s) rfl rfl rfl rfl).2 hs)
  have hul : (u.link sl (.port p)).st ≠ linkUp := by
    have hr : (u.link sl (.port p)).st = (s.link sl (.port p)).st := by
      rw [← hu]
      exact (State.Settles.report ..).link (π := Link.st) (fun _ => rfl) sl (.port p)
    rw [hr, h]
    decide
  refine ⟨(State.link_goDown hui hul linkDown 4).1, ?_⟩
  have hd := (congrArg (fun w : State => w.sec.authFailures) (State.goDown_otherwise hul linkDown 4).calm :)
  have hu' : (u.dropLink sl (.port p) linkDown 4).sec.authFailures = u.sec.authFailures := by
    show ((if _ then u else _ : State).sec).authFailures = _
    split <;> rfl
  exact hd.trans (hu'.trans (hu ▸ rfl))

/-- A HELLO that passes its checks is kept, and its transcript waits to be signed. -/
theorem State.takeHello_good {s : State} {sl : SliceId} {p : PortId} {msg : Bytes} (h : (s.link sl (.port p)).st = linkAuth)
    (hh : (s.link sl (.port p)).sess.hello ≠ []) (hp : (s.link sl (.port p)).sess.peerHello = []) (hc : s.helloCheck msg = 0) :
    s.takeHello sl p msg =
      let t := s.onLink sl (.port p) fun x => { x with sess := { (x.sess.derive msg) with signAsked := true } }
      { t with sec := { t.sec with signQueue := t.sec.signQueue ++ [(sl.val, p.val)] } } := by
  unfold State.takeHello
  rw [PortId.ofNat_val]
  dsimp only
  rw [if_neg (by simp [h, hh, hp]), if_neg (fun e => e hc)]

theorem State.takeHello_bad {s : State} {sl : SliceId} {p : PortId} {msg : Bytes} (h : (s.link sl (.port p)).st = linkAuth)
    (hh : (s.link sl (.port p)).sess.hello ≠ []) (hp : (s.link sl (.port p)).sess.peerHello = []) (hc : s.helloCheck msg ≠ 0) :
    s.takeHello sl p msg = s.refusePeer sl p (s.helloCheck msg) := by
  unfold State.takeHello
  rw [PortId.ofNat_val]
  dsimp only
  rw [if_neg (by simp [h, hh, hp]), if_pos hc]

/-- The form of a FINISH, and its signature. -/
def State.finishGood (s : State) (sl : SliceId) (p : PortId) (msg : Bytes) : Prop :=
  let k := s.link sl (.port p)
  msg.getD 0 0 = 2#8 ∧ msg.length = 122 ∧ (∀ b ∈ slice msg 1 7, b = 0) ∧
    Config.ed448Verify (Config.certKey (helloCert k.sess.peerHello)) "KN800-LINK" k.sess.transcript (msg.drop 8) = true

theorem State.finishGood_iff (s : State) (sl : SliceId) (p : PortId) (msg : Bytes) :
    (msg.getD 0 0 == 2#8 && msg.length == 122 && (slice msg 1 7).all (· == 0) &&
      Config.ed448Verify (Config.certKey (helloCert (s.link sl (.port p)).sess.peerHello)) "KN800-LINK" (s.link sl (.port p)).sess.transcript
        (msg.drop 8)) = true ↔ s.finishGood sl p msg := by
  simp [State.finishGood, and_assoc]

/-- A link that has had a good FINISH, and one whose session's keys come into use. -/
def Link.seen (x : Link) : Link := { x with sess := { x.sess with finishSeen := true } }

def Link.keyed (x : Link) : Link := { x with sess := x.sess.activate }

theorem State.takeFinish_good {s : State} {sl : SliceId} {p : PortId} {msg : Bytes} (h : (s.link sl (.port p)).st = linkAuth)
    (hp : (s.link sl (.port p)).sess.peerHello ≠ []) (hf : (s.link sl (.port p)).sess.finishSeen = false) (hg : s.finishGood sl p msg) :
    s.takeFinish sl p msg = (s.onLink sl (.port p) Link.seen).tryAuthUp sl p := by
  unfold State.takeFinish
  rw [PortId.ofNat_val]
  dsimp only
  rw [if_neg (by simp [h, hp, hf]), if_pos ((s.finishGood_iff sl p msg).2 hg)]
  rfl

theorem State.takeFinish_bad {s : State} {sl : SliceId} {p : PortId} {msg : Bytes} (h : (s.link sl (.port p)).st = linkAuth)
    (hp : (s.link sl (.port p)).sess.peerHello ≠ []) (hf : (s.link sl (.port p)).sess.finishSeen = false) (hg : ¬ s.finishGood sl p msg) :
    s.takeFinish sl p msg = s.refusePeer sl p 5 := by
  unfold State.takeFinish
  rw [PortId.ofNat_val]
  dsimp only
  rw [if_neg (by simp [h, hp, hf]), if_neg (mt (s.finishGood_iff sl p msg).1 hg)]

theorem State.tryAuthUp_ready {s : State} {sl : SliceId} {p : PortId} (h : (s.link sl (.port p)).st = linkAuth)
    (h1 : (s.link sl (.port p)).sess.finishSent = true) (h2 : (s.link sl (.port p)).sess.finishSeen = true) (h3 : s.sec.trngFailing = false) :
    s.tryAuthUp sl p = (s.onLink sl (.port p) Link.keyed).goUp sl (.port p) := by
  unfold State.tryAuthUp
  rw [PortId.ofNat_val]
  exact if_pos (by simp [h, h1, h2, h3])

theorem State.tryAuthUp_waits {s : State} {sl : SliceId} {p : PortId}
    (h1 : (s.link sl (.port p)).sess.finishSent = false ∨ s.sec.trngFailing = true) : s.tryAuthUp sl p = s := by
  unfold State.tryAuthUp
  rw [PortId.ofNat_val]
  exact if_neg (by rcases h1 with h1 | h1 <;> simp [h1])

theorem State.tryAuthUp_sec (s : State) (sl p : Nat) : (s.tryAuthUp sl p).sec = s.sec := by
  unfold State.tryAuthUp
  dsimp only
  split <;> rfl

theorem State.beginAuth_sec (s : State) (sl p : Nat) : (s.beginAuth sl p).sec = s.sec := by
  unfold State.beginAuth
  dsimp only
  split <;> rfl

/-- Every port that could not authenticate tries again. -/
def State.retryAuth (s : State) : State := s.eachSlice fun u i => (List.range 8).foldl (fun (v : State) p =>
  let k := v.link i (.port (Fin.ofNat 8 p))
  if k.st = linkAuth && k.sess.hello.isEmpty then v.beginAuth i p else v.tryAuthUp i p) u

theorem execTrngHealthPass_eq (s : State) : exec .trngHealthPass s = .next { s with sec := { s.sec with trngFailing := false } }.retryAuth := rfl

theorem State.retryAuth_sec (s : State) : s.retryAuth.sec = s.sec := by
  refine foldl_agree (π := State.sec) (fun u i => foldl_agree (π := State.sec) (fun v p => ?_) _ _) _ _
  dsimp only
  split
  · exact State.beginAuth_sec ..
  · exact State.tryAuthUp_sec ..

/-- The FINISH of a port. -/
def State.finishMessage (s : State) (sl : SliceId) (p : PortId) : Bytes :=
  2#8 :: (zeros 7 ++ slice (Config.ed448Sign s.identitySeed "KN800-LINK" (s.link sl (.port p)).sess.transcript) 0 114)

/-- The signature at the head of the queue. -/
theorem execFinishSign_cons {s : State} {sl : SliceId} {p : PortId} {rest : List (Nat × Nat)} (h : s.sec.signQueue = (sl.val, p.val) :: rest) :
    exec .finishSign s = .next (State.onLink { s with sec := { s.sec with signQueue := rest } } sl (.port p) fun k =>
      { k with sess := k.sess.queueFinish (s.finishMessage sl p) }) := by
  show execFinishSign s = _
  unfold execFinishSign
  rw [h]
  dsimp only
  rw [PortId.ofNat_val]
  rfl

/-- Settles O35: a refused peer is in AUTH, so that nothing but its own link falls with it, `State.refusePeer_spec`. -/
theorem linkHandshake : Obligations.LinkHandshake := by
  unfold Obligations.LinkHandshake
  intro s sl p hs
  dsimp only
  have hseen := State.link_onLink hs sl (.port p) Link.seen
  have hseen_inv := (State.Keeps.onLink s sl (.port p) Link.seen).2 hs
  refine ⟨fun msg h hh hp => ⟨_, rfl, fun hc => ?_, fun hc => ?_⟩, fun msg h => ?_, fun h => ?_, fun rest h => ⟨_, execFinishSign_cons h, rfl, ?_⟩,
    fun msg h hp hf => ⟨_, rfl, fun hg h1 h2 => ?_, fun hg h1 => ?_, fun hg => ?_⟩, rfl, ⟨_, execTrngHealthPass_eq s, ?_⟩⟩
  · rw [State.takeHello_good h hh hp hc]
    have hl := State.link_onLink hs sl (.port p) fun x => { x with sess := { (x.sess.derive msg) with signAsked := true } }
    refine ⟨(congrArg Link.st hl).trans h, (congrArg (fun x : Link => x.sess.peerHello) hl :), rfl, (congrArg (fun x : Link => x.sess.priv) hl :), rfl⟩
  · rw [State.takeHello_bad h hh hp hc]
    exact State.refusePeer_spec hs h _
  · unfold State.helloCheck
    exact if_pos (by simp [h])
  · show execFinishSign s = _
    unfold execFinishSign
    rw [h]
  · have hi : State.Inv { s with sec := { s.sec with signQueue := rest } } := (State.Keeps.update (s := s) rfl rfl rfl rfl).2 hs
    refine ⟨by simp, fun hq => ?_, fun hq => ?_⟩
    · rw [State.link_onLink hi]
      exact if_pos hq
    · rw [State.link_onLink hi]
      exact if_neg (Nat.not_lt.2 hq)
  · rw [State.takeFinish_good h hp hf hg, State.tryAuthUp_ready (s := s.onLink sl (.port p) Link.seen) (by rw [hseen]; exact h) (by rw [hseen]; exact h1) (by rw [hseen]; rfl) h2]
    have hup {β : Type} (π : Link → β) (hπ : ∀ k, π k.core = π k) := State.link_goUp ((State.Keeps.onLink _ sl (.port p) Link.keyed).2 hseen_inv) sl (.port p) hπ
    rw [hup Link.st fun _ => rfl, hup Link.sess fun _ => rfl, hup Link.reqCredits fun _ => rfl, State.link_onLink hseen_inv, hseen]
    exact ⟨rfl, rfl, rfl, rfl, rfl, rfl⟩
  · rw [State.takeFinish_good h hp hf hg, State.tryAuthUp_waits (s := s.onLink sl (.port p) Link.seen) (h1.imp (fun e => by rw [hseen]; exact e) id), hseen]
    exact ⟨h, rfl⟩
  · rw [State.takeFinish_bad h hp hf hg]
    exact State.refusePeer_spec hs h _
  · exact congrArg Security.trngFailing (State.retryAuth_sec _)

end Sys2Proof.Machine
end

section
/-! The record unit, telemetry and board readings. -/

namespace Sys2Proof.Machine

/-! ### The record unit of a slice -/

/-- The first element for which a test holds, changed. -/
theorem mem_modifyFirst_of_find {α : Type} {p : α → Bool} {f : α → α} {l : List α} {k : α} (h : l.find? p = some k) : f k ∈ modifyFirst p f l := by
  induction l with
  | nil => cases h
  | cons x xs ih =>
    unfold modifyFirst
    by_cases hx : p x = true
    · rw [List.find?_cons_of_pos hx] at h
      obtain rfl := Option.some.inj h
      rw [if_pos hx]
      exact List.mem_cons_self
    · rw [List.find?_cons_of_neg hx] at h
      rw [if_neg hx]
      exact List.mem_cons_of_mem _ (ih h)

/-- A record that is open for the same class and unit is raised. -/
theorem Errors.accept_again {e : Errors} {now : Drip} {r : Report} {k : ErrRecord}
    (h : e.opened.find? (fun y => y.r.cls == r.cls && y.r.unit == r.unit) = some k) :
    e.accept now r =
      let rec1 : ErrRecord := { r := r, seq := k.seq, firstDrip := now, lastDrip := now }
      { e with
        opened := modifyFirst (fun y => y.r.cls == r.cls && y.r.unit == r.unit)
          (fun y => { y with count := min (y.count + 1) 0xFFFFFFFF, lastDrip := now }) e.opened
        reports := e.reports + 1, last := some rec1, first := e.first.or (some rec1) } := by
  unfold Errors.accept
  dsimp only
  rw [h]
  cases e.first <;> rfl

/-- A record is opened, in place of the oldest of 16. -/
theorem Errors.accept_opens {e : Errors} {now : Drip} {r : Report}
    (h : e.opened.find? (fun y => y.r.cls == r.cls && y.r.unit == r.unit) = none) :
    e.accept now r =
      let e0 := if 16 ≤ e.opened.length then e.closeOldest true else e
      let rec1 : ErrRecord := { r := r, seq := e0.nextSeq, firstDrip := now, lastDrip := now }
      { e0 with
        opened := e0.opened ++ [rec1], nextSeq := (e0.nextSeq + 1) % 2 ^ 32
        reports := e0.reports + 1, last := some rec1, first := e0.first.or (some rec1) } := by
  unfold Errors.accept
  dsimp only
  rw [h]
  dsimp only
  cases (if 16 ≤ e.opened.length then e.closeOldest true else e).first <;> rfl

theorem Errors.closeOldest_kept (e : Errors) (early : Bool) :
    (e.closeOldest early).reports = e.reports ∧ (e.closeOldest early).queued = e.queued ∧ (e.closeOldest early).first = e.first ∧
      (e.closeOldest early).nextSeq = e.nextSeq := by
  unfold Errors.closeOldest Errors.close
  split
  · exact ⟨rfl, rfl, rfl, rfl⟩
  · split <;> exact ⟨rfl, rfl, rfl, rfl⟩

theorem length_modifyFirst {α : Type} (p : α → Bool) (f : α → α) (l : List α) : (modifyFirst p f l).length = l.length := by
  induction l with
  | nil => rfl
  | cons x xs ih =>
    unfold modifyFirst
    split
    · rfl
    · rw [List.length_cons, ih, List.length_cons]

/-- What an accepted report changes, whether its record is open or not. -/
theorem Errors.accept_spec (e : Errors) (now : Drip) (r : Report) :
    let f := e.accept now r
    let same (k : ErrRecord) : Prop := k.r.cls = r.cls ∧ k.r.unit = r.unit
    f.reports = e.reports + 1 ∧ f.queued = e.queued ∧ (∃ k, f.last = some k ∧ k.r = r ∧ k.count = 1 ∧ k.lastDrip = now) ∧
      (∀ k, e.first = some k → f.first = some k) ∧ (e.first = none → f.first = f.last) ∧
      ((∀ k ∈ e.opened, ¬ same k) → e.opened.length < 16 → f.nextSeq = (e.nextSeq + 1) % 2 ^ 32 ∧
        f.opened = e.opened ++ [{ r := r, seq := e.nextSeq, firstDrip := now, lastDrip := now }]) ∧
      (∀ (old : ErrRecord) (rest : List ErrRecord), (∀ k ∈ e.opened, ¬ same k) → e.opened = old :: rest → 16 ≤ e.opened.length →
        f.nextSeq = (e.nextSeq + 1) % 2 ^ 32 ∧ f.opened = rest ++ [{ r := r, seq := e.nextSeq, firstDrip := now, lastDrip := now }] ∧
        ((e.tail + 1) % 1024 ≠ e.head → (e.tail, { old with early := true }) ∈ f.ring ∧ f.tail = (e.tail + 1) % 1024)) ∧
      (∀ k, e.opened.find? (fun y => y.r.cls == r.cls && y.r.unit == r.unit) = some k → f.nextSeq = e.nextSeq ∧
        f.opened.length = e.opened.length ∧ { k with count := min (k.count + 1) 0xFFFFFFFF, lastDrip := now } ∈ f.opened) := by
  intro f same
  have hsame : (∀ k ∈ e.opened, ¬ same k) → e.opened.find? (fun y => y.r.cls == r.cls && y.r.unit == r.unit) = none := fun h =>
    List.find?_eq_none.2 fun k hk => by simpa [same] using h k hk
  cases hfind : e.opened.find? (fun y => y.r.cls == r.cls && y.r.unit == r.unit) with
  | some k =>
    have hf : f = _ := Errors.accept_again hfind
    clear_value f
    subst hf
    refine ⟨rfl, rfl, ⟨_, rfl, rfl, rfl, rfl⟩, fun k h => by simp only [h, Option.some_or], fun h => by simp only [h, Option.none_or],
      fun h => (by rw [hsame h] at hfind; cases hfind), fun _ _ h => (by rw [hsame h] at hfind; cases hfind), fun k' hk' => ?_⟩
    obtain rfl := Option.some.inj hk'
    exact ⟨rfl, length_modifyFirst .., mem_modifyFirst_of_find hfind⟩
  | none =>
    have hf : f = _ := Errors.accept_opens hfind
    clear_value f
    subst hf
    by_cases hlen : 16 ≤ e.opened.length
    · obtain ⟨hr, hq, hfi, hn⟩ := e.closeOldest_kept true
      dsimp only
      rw [if_pos hlen, hr, hq, hfi, hn]
      refine ⟨rfl, rfl, ⟨_, rfl, rfl, rfl, rfl⟩, fun k h => by rw [h, Option.some_or], fun h => by rw [h, Option.none_or],
        fun _ h => absurd hlen (by omega), fun old rest _ hcons _ => ⟨rfl, ?_, fun hroom => ?_⟩, fun k hk => by cases hk⟩
      · rw [(Errors.closeOldest_fields hcons true).1]
      · exact ⟨(Errors.mem_closeOldest_ring_at_tail hcons hroom true _).2 rfl, by rw [Errors.closeOldest_of_room hcons hroom]⟩
    · dsimp only
      rw [if_neg hlen]
      exact ⟨rfl, rfl, ⟨_, rfl, rfl, rfl, rfl⟩, fun k h => by rw [h, Option.some_or], fun h => by rw [h, Option.none_or],
        fun _ _ => ⟨rfl, rfl⟩, fun _ _ _ _ h => absurd h hlen, fun k hk => by cases hk⟩

/-- The report that is accepted next: the first of those with the lowest unit. -/
theorem Errors.nextReport_of_first {e : Errors} {r : Report} {pre post : List Report} (hq : e.queued = pre ++ r :: post)
    (hmin : ∀ k ∈ e.queued, reportUnit r ≤ reportUnit k) (hpre : ∀ k ∈ pre, reportUnit k ≠ reportUnit r) : e.nextReport = some r := by
  have hm : (e.queued.map reportUnit).min? = some (reportUnit r) := by
    refine List.min?_eq_some_iff.2 ⟨List.mem_map_of_mem (by rw [hq]; simp), fun u hu => ?_⟩
    obtain ⟨k, hk, rfl⟩ := List.mem_map.1 hu
    exact hmin k hk
  unfold Errors.nextReport
  rw [hm, hq]
  dsimp only
  rw [List.find?_append, List.find?_eq_none.2 (fun k hk => by simpa using hpre k hk), Option.none_or]
  exact List.find?_cons_of_pos (by simp)

/-- What the record unit holds once a report has been made. -/
def Errors.held (e : Errors) (made : Report) : List Report :=
  if made ∈ e.queued then e.queued else if (e.queued.filter fun k => k.unit == made.unit).length < 4 then e.queued ++ [made] else e.queued

theorem Errors.make_cases (e : Errors) (made : Report) :
    ∃ o : Nat, (if e.queued.contains made then e else e.queue made) = { e with queued := e.held made, overflow := o } := by
  unfold Errors.held
  by_cases hm : made ∈ e.queued
  · exact ⟨e.overflow, by rw [if_pos (by simpa using hm), if_pos hm]⟩
  · rw [if_neg (by simpa using hm), if_neg hm]
    unfold Errors.queue
    split
    · exact ⟨e.overflow, rfl⟩
    · exact ⟨_, rfl⟩

/-- The instruction that the TAP acts on: outside SYS_RST_N, BYPASS for every one but IDCODE. -/
theorem execTapInstruction_of_ne {x : TapInstr} (hx : x ≠ .idcode) (s : State) :
    exec (.tapInstruction x) s = .next { s with pkg := { s.pkg with tap := if s.pkg.sysRst = true then x else .bypass } } := by
  have hy : (if s.pkg.sysRst = true then x else .bypass) ≠ TapInstr.idcode := by
    split
    · exact hx
    · simp
  show execTapInstruction x s = _
  unfold execTapInstruction
  cases x with
  | idcode => exact absurd rfl hx
  | bypass =>
    rw [ite_self]
    rfl
  | _ => exact congrArg Host.Outcome.next (if_neg hy)

/-- Settles O57: the accepted report is the first of the lowest unit, `Errors.nextReport_of_first`, and its record is raised or opened,
`Errors.accept_spec`. -/
theorem reportsAndReadings : Obligations.ReportsAndReadings := by
  unfold Obligations.ReportsAndReadings
  intro s sl hs
  have hsl : (sl : Nat) < s.slices.length := by rw [hs.1.1]; exact sl.isLt
  refine ⟨fun made r pre post hq hmin hpre => ⟨_, rfl, ?_⟩, fun h => ?_, fun h => if_neg h, fun i v => ⟨fun h => if_pos h, fun h => ?_, fun h => ⟨if_neg h, ?_⟩⟩,
    fun b => rfl, fun x hx => ?_, rfl⟩
  · obtain ⟨o, ho⟩ := (s.sl sl).err.make_cases made
    have hnext : ({ (s.sl sl).err with queued := (s.sl sl).err.held made, overflow := o } : Errors).nextReport = some r :=
      Errors.nextReport_of_first (pre := pre) (post := post) hq hmin hpre
    have herr := State.onErr_sl_err hsl fun e => (if e.queued.contains made then e else e.queue made).acceptNext s.now
    rw [ho, Errors.acceptNext, hnext] at herr
    dsimp only at herr ⊢
    rw [herr]
    exact Errors.accept_spec { (s.sl sl).err with queued := ((s.sl sl).err.held made).erase r, overflow := o } s.now r
  · refine ⟨_, if_pos h, ?_, ?_, rfl⟩
    · simp only [List.length_drop, List.length_append, List.length_singleton]
      omega
    · rw [List.getLast?_drop]
      simp
  · exact congrArg Host.Outcome.next (if_pos h)
  · exact congrArg Host.Outcome.next (if_neg h)
  · exact execTapInstruction_of_ne hx s

end Sys2Proof.Machine
end

section
/-! SUPPORT. What ends where the host port issues no request. -/

namespace Sys2Proof.Machine

/-! ### What ends where the host port issues no request -/

theorem mem_holdIn {c d : Completion} {l : List Completion} (h : d ∈ l) : d ∈ holdIn c l := by
  induction l with
  | nil => cases h
  | cons e es ih =>
    unfold holdIn
    split
    · exact List.mem_cons_of_mem _ h
    · rcases List.mem_cons.1 h with rfl | h
      · exact List.mem_cons_self
      · exact List.mem_cons_of_mem _ (ih h)

/-- `t` is `s` but for what the end of a transfer leaves of the host port: no request joins channels 0 to 16, and no completion that a ring
holds is lost. -/
structure State.PortKeeps (s t : State) : Prop where
  bme : t.host.bme = s.host.bme
  linkUp : t.host.linkUp = s.host.linkUp
  job : t.job = s.job
  out : t.out = s.out
  reads : t.host.reads = s.host.reads
  chans : ∀ c, c ≠ 17 → s.host.chans.getD c [] = [] → t.host.chans.getD c [] = []
  held : ∀ (r : Nat), ∀ k ∈ (s.host.rings.getD r {}).held, k ∈ (t.host.rings.getD r {}).held

namespace State.PortKeeps
variable {s t u : State}

theorem refl (s : State) : State.PortKeeps s s := ⟨rfl, rfl, rfl, rfl, rfl, fun _ _ h => h, fun _ _ h => h⟩

theorem trans (a : State.PortKeeps s t) (b : State.PortKeeps t u) : State.PortKeeps s u :=
  ⟨b.bme.trans a.bme, b.linkUp.trans a.linkUp, b.job.trans a.job, b.out.trans a.out, b.reads.trans a.reads,
    fun c hc h => b.chans c hc (a.chans c hc h), fun r k h => b.held r k (a.held r k h)⟩

theorem comp (b : State.PortKeeps t u) (a : State.PortKeeps s t) : State.PortKeeps s u := a.trans b

theorem ite {p : Prop} [Decidable p] (a : State.PortKeeps s t) (b : State.PortKeeps s u) : State.PortKeeps s (if p then t else u) := by
  split <;> assumption

theorem foldl {α : Type} {f : State → α → State} (h : ∀ s a, State.PortKeeps s (f s a)) (l : List α) (s : State) :
    State.PortKeeps s (l.foldl f s) := by
  induction l generalizing s with
  | nil => exact refl _
  | cons a l ih => exact (h s a).trans (ih _)

/-- The channels and the rings stay as they are. -/
theorem of_host (hb : t.host.bme = s.host.bme) (hl : t.host.linkUp = s.host.linkUp) (hj : t.job = s.job) (ho : t.out = s.out)
    (hrd : t.host.reads = s.host.reads) (hc : t.host.chans = s.host.chans) (hr : t.host.rings = s.host.rings) : State.PortKeeps s t :=
  ⟨hb, hl, hj, ho, hrd, fun c _ h => by rw [hc, h], fun r k h => by rwa [hr]⟩

theorem report (i : Nat) (r : Report) : State.PortKeeps s (s.report i r) := of_host rfl rfl rfl rfl rfl rfl rfl

theorem endNext (i : Nat) (p : Request → Bool) (st : Status) (l : Nat) : State.PortKeeps s (s.endNext i p st l) := of_host rfl rfl rfl rfl rfl rfl rfl

theorem onSl (i : Nat) (f : SliceState → SliceState) : State.PortKeeps s (s.onSl i f) := of_host rfl rfl rfl rfl rfl rfl rfl

theorem pushChan (j : DmaJob) : State.PortKeeps s (s.pushChan 17 j) := by
  refine ⟨rfl, rfl, rfl, rfl, rfl, fun c hc h => ?_, fun _ _ h => h⟩
  show (s.host.chans.modify 17 _).getD c [] = []
  simpa [List.getD_eq_getElem?_getD, List.getElem?_modify, Ne.symm hc] using h

theorem msix (v : Nat) : State.PortKeeps s (s.msix v) := by
  unfold State.msix
  exact .ite (refl _) (.ite (of_host rfl rfl rfl rfl rfl rfl rfl) (pushChan _))

theorem cause (b : Nat) : State.PortKeeps s (s.cause b) := by
  unfold State.cause
  dsimp only
  exact .ite (.comp (msix _) (of_host rfl rfl rfl rfl rfl rfl rfl)) (of_host rfl rfl rfl rfl rfl rfl rfl)

theorem complete (c : Completion) : State.PortKeeps s (s.complete c) := by
  have hon : State.PortKeeps s (s.onRing c.ring fun r => { r with held := holdIn c r.held }) := by
    refine ⟨rfl, rfl, rfl, rfl, rfl, fun _ _ h => h, fun r k h => ?_⟩
    show k ∈ ((s.host.rings.modify c.ring _).getD r {}).held
    rw [List.getD_eq_getElem?_getD] at h ⊢
    rw [List.getElem?_modify]
    cases hr : s.host.rings[r]? with
    | none => rw [hr] at h; cases h
    | some q =>
      rw [hr] at h
      by_cases hcr : c.ring = r
      · simp only [hcr, if_true]
        exact mem_holdIn h
      · simp only [hcr, if_false]
        exact h
  unfold State.complete
  dsimp only
  exact .ite (.comp (report ..) (of_host rfl rfl rfl rfl rfl rfl rfl)) (.ite (.comp (cause _) hon) hon)

theorem completeCmd (sl : Nat) (c : Cmd) (st : Status) (reason : Nat) (ring : Option Nat) : State.PortKeeps s (s.completeCmd sl c st reason ring) :=
  complete _

theorem copyFailed (sl slot : Nat) : State.PortKeeps s (s.copyFailed sl slot) := by
  unfold State.copyFailed
  split
  · exact refl _
  · dsimp only
    refine .comp (completeCmd ..) (.trans (onSl sl _) ⟨rfl, rfl, rfl, rfl, rfl, fun c _ h => ?_, fun _ _ h => h⟩)
    rw [List.getD_eq_getElem?_getD] at h ⊢
    show ((List.map _ s.host.chans)[c]?).getD [] = []
    rw [List.getElem?_map]
    change (s.host.chans[c]?).getD [] = [] at h
    cases hc : s.host.chans[c]? with
    | none => rfl
    | some q =>
      rw [hc] at h
      cases h
      rfl

theorem loadRecord (st : Nat) (l : List Nat) : State.PortKeeps s (s.loadRecord st l) := report ..

theorem setLoad (a b : Nat) : State.PortKeeps s (s.setLoad a b) := by
  unfold State.setLoad
  dsimp only
  exact .ite (of_host rfl rfl rfl rfl rfl rfl rfl) (.comp (cause _) (of_host rfl rfl rfl rfl rfl rfl rfl))

theorem failLoad (st : Status) (a b : Nat) : State.PortKeeps s (s.failLoad st a b) := by
  have hu := State.PortKeeps.comp (.loadRecord st.code [a, b]) (State.PortKeeps.setLoad (s := s) 4 st.code)
  unfold State.failLoad
  dsimp only
  exact .ite (hu.trans (of_host rfl rfl rfl rfl rfl rfl rfl)) (.ite (.comp (loadRecord ..) (hu.trans (of_host rfl rfl rfl rfl rfl rfl rfl)))
    (hu.trans (of_host rfl rfl rfl rfl rfl rfl rfl)))

theorem failRead (j : DmaJob) : State.PortKeeps s (s.failRead j) := by
  have ht : State.PortKeeps s (State.hostReport { s with host := { s.host with dmaErrors := s.host.dmaErrors + 1 } }) :=
    .comp (report ..) (of_host rfl rfl rfl rfl rfl rfl rfl)
  unfold State.failRead
  dsimp only
  cases j with
  | inputRead sl q a n => exact .comp (endNext ..) ht
  | copyRead sl q a n d => exact .comp (copyFailed ..) ht
  | loadRead a n => exact .ite (.comp (failLoad ..) ht) ht
  | _ => exact ht

theorem failJob (j : DmaJob) : State.PortKeeps s (s.failJob j) := by
  unfold State.failJob
  cases j with
  | outputWrite sl q a b => exact endNext ..
  | copyWrite sl q a b => exact copyFailed ..
  | _ => exact .ite (failRead _) (refl _)

end State.PortKeeps

/-- The state in which the channels but that of records and messages are empty. -/
def State.emptied (s : State) : State :=
  { s with host := { s.host with chans := (List.range 18).map fun c => if c < 17 then [] else s.host.chans.getD c [] } }

theorem State.stallDma_eq (s : State) : s.stallDma = (s.host.chans.take 17).flatten.foldl State.failJob s.emptied := rfl

theorem State.emptied_chans (s : State) {c : Nat} (hc : c < 17) : s.emptied.host.chans.getD c [] = [] := by
  show ((List.range 18).map fun c => if c < 17 then [] else s.host.chans.getD c []).getD c [] = []
  rw [List.getD_eq_getElem?_getD, List.getElem?_map, List.getElem?_range (by omega)]
  simp only [Option.map_some, Option.getD_some]
  exact if_pos hc

/-- While the port may not issue, its channels but that of records and messages are emptied. -/
theorem State.stallDma_spec (s : State) :
    s.stallDma.host.bme = s.host.bme ∧ s.stallDma.host.linkUp = s.host.linkUp ∧ s.stallDma.job = s.job ∧ s.stallDma.out = s.out ∧
      (∀ c < 17, s.stallDma.host.chans.getD c [] = []) ∧
      ∀ (r : Nat), ∀ k ∈ (s.host.rings.getD r {}).held, k ∈ (s.stallDma.host.rings.getD r {}).held := by
  rw [State.stallDma_eq]
  have h := State.PortKeeps.foldl (f := State.failJob) (fun _ _ => .failJob _) (s.host.chans.take 17).flatten s.emptied
  exact ⟨h.bme, h.linkUp, h.job, h.out, fun c hc => h.chans c (by omega) (s.emptied_chans hc), h.held⟩

end Sys2Proof.Machine
end

section
/-! The registers of the host port. -/

namespace Sys2Proof.Machine

/-! ### Messages that wait for their mask -/

/-- The step of `State.sendPending`: one pending message is sent, unless its vector is masked. -/
def State.sendOne (t : State) (v : Nat) : State :=
  if t.host.masked v then t
  else ({ t with host := { t.host with pendingBits := t.host.pendingBits ^^^ 2 ^ v } }).pushChan 17 (.message v)

theorem State.sendPending_on {s : State} (h : s.host.msixEnable = true) :
    s.sendPending = (setBits 64 s.host.pendingBits).foldl State.sendOne s := by
  unfold State.sendPending
  rw [h]
  rfl

/-- What a message that is sent leaves of the state. -/
structure State.SendKeeps (s t : State) : Prop where
  msix : t.host.msix = s.host.msix
  enable : t.host.msixEnable = s.host.msixEnable
  mask : t.host.msixMask = s.host.msixMask
  chans : t.host.chans.length = s.host.chans.length
  queued : ∀ j ∈ s.host.chans.getD 17 [], j ∈ t.host.chans.getD 17 []
  out : t.out = s.out

theorem State.SendKeeps.refl (s : State) : s.SendKeeps s := ⟨rfl, rfl, rfl, rfl, fun _ h => h, rfl⟩

theorem State.SendKeeps.trans {s t u : State} (a : s.SendKeeps t) (b : t.SendKeeps u) : s.SendKeeps u :=
  ⟨b.msix.trans a.msix, b.enable.trans a.enable, b.mask.trans a.mask, b.chans.trans a.chans, fun j h => b.queued j (a.queued j h), b.out.trans a.out⟩

theorem getD_modify_self {α : Type} {l : List α} {n : Nat} (h : n < l.length) (f : α → α) (d : α) : (l.modify n f).getD n d = f (l.getD n d) := by
  simp [List.getD_eq_getElem?_getD, h]

theorem State.SendKeeps.sendOne (t : State) (v : Nat) : t.SendKeeps (t.sendOne v) := by
  unfold State.sendOne
  split
  · exact .refl t
  · refine ⟨rfl, rfl, rfl, List.length_modify .., fun j h => ?_, rfl⟩
    show j ∈ (t.host.chans.modify 17 _).getD 17 []
    by_cases h17 : 17 < t.host.chans.length
    · rw [getD_modify_self h17]
      exact List.mem_append_left _ h
    · rw [List.getD_eq_getElem?_getD, List.getElem?_eq_none (by omega)] at h
      cases h

theorem State.SendKeeps.foldl (l : List Nat) (t : State) : t.SendKeeps (l.foldl State.sendOne t) := by
  induction l generalizing t with
  | nil => exact .refl t
  | cons a l ih => exact (State.SendKeeps.sendOne t a).trans (ih _)

theorem State.SendKeeps.masked {s t : State} (h : s.SendKeeps t) (v : Nat) : t.host.masked v = s.host.masked v := by
  unfold HostPort.masked
  rw [h.msix, h.mask]

theorem State.sendOne_pending_of_ne (t : State) {v w : Nat} (h : w ≠ v) :
    (t.sendOne w).host.pendingBits.testBit v = t.host.pendingBits.testBit v := by
  unfold State.sendOne
  split
  · rfl
  · show (t.host.pendingBits ^^^ 2 ^ w).testBit v = _
    rw [Nat.testBit_xor, Nat.testBit_two_pow_of_ne h, Bool.xor_false]

theorem State.sendOne_self {t : State} {v : Nat} (hl : t.host.chans.length = 18) (hm : t.host.masked v = false)
    (hv : t.host.pendingBits.testBit v = true) :
    (t.sendOne v).host.pendingBits.testBit v = false ∧ .message v ∈ (t.sendOne v).host.chans.getD 17 [] := by
  unfold State.sendOne
  rw [hm]
  constructor
  · show (t.host.pendingBits ^^^ 2 ^ v).testBit v = false
    rw [Nat.testBit_xor, Nat.testBit_two_pow_self, hv]
    rfl
  · show _ ∈ (t.host.chans.modify 17 _).getD 17 []
    rw [getD_modify_self (by omega)]
    simp

theorem State.foldl_sendOne_pending (l : List Nat) (t : State) {v : Nat} (h : v ∉ l) :
    (l.foldl State.sendOne t).host.pendingBits.testBit v = t.host.pendingBits.testBit v := by
  induction l generalizing t with
  | nil => rfl
  | cons a l ih =>
    obtain ⟨ha, hl⟩ := not_or.1 (mt List.mem_cons.2 h)
    exact (ih _ hl).trans (t.sendOne_pending_of_ne (Ne.symm ha))

/-- A pending message whose vector is masked no more is sent. -/
theorem State.foldl_sendOne {l : List Nat} {t : State} {v : Nat} (hd : l.Nodup) (hin : v ∈ l) (hl : t.host.chans.length = 18)
    (hm : t.host.masked v = false) (hv : t.host.pendingBits.testBit v = true) :
    (l.foldl State.sendOne t).host.pendingBits.testBit v = false ∧ .message v ∈ (l.foldl State.sendOne t).host.chans.getD 17 [] := by
  induction l generalizing t with
  | nil => cases hin
  | cons a l ih =>
    obtain ⟨hal, hd⟩ := List.nodup_cons.1 hd
    have hk := State.SendKeeps.sendOne t a
    by_cases hav : a = v
    · subst hav
      obtain ⟨h1, h2⟩ := State.sendOne_self hl hm hv
      exact ⟨(State.foldl_sendOne_pending l _ hal).trans h1, (State.SendKeeps.foldl l _).queued _ h2⟩
    · exact ih hd ((List.mem_cons.1 hin).resolve_left (Ne.symm hav)) (hk.chans.trans hl) ((hk.masked v).trans hm)
        ((t.sendOne_pending_of_ne hav).trans hv)

theorem mem_setBits {n m v : Nat} : v ∈ setBits n m ↔ v < n ∧ m.testBit v = true := by
  unfold setBits
  rw [List.mem_filter, List.mem_range]

/-- While nothing pends, while the function is masked and while MSI-X is disabled, nothing is sent. -/
theorem State.sendPending_idle {s : State} (h : s.host.msixEnable = false ∨ s.host.msixMask = true ∨ s.host.pendingBits = 0) : s.sendPending = s := by
  by_cases he : s.host.msixEnable = true
  · rw [State.sendPending_on he]
    rcases h with h | h | h
    · rw [h] at he; cases he
    · refine foldl_eq_init fun v _ => if_pos ?_
      unfold HostPort.masked
      rw [h]
      rfl
    · rw [h]
      rfl
  · unfold State.sendPending
    exact if_pos (by simpa using he)

theorem State.SendKeeps.sendPending (s : State) : s.SendKeeps s.sendPending := by
  by_cases he : s.host.msixEnable = true
  · rw [State.sendPending_on he]
    exact .foldl ..
  · rw [State.sendPending_idle (.inl (by simpa using he))]
    exact .refl s

/-! ### The registers of BAR0 -/

/-- A write of a whole register. -/
theorem execRegisterWrite_whole (s : State) {o : Nat} (ho : o % 8 = 0) (v : Word) :
    exec (.registerWrite o (leBytes 8 v.toNat)) s = .next (s.setReg o v.toNat v.toNat true) := by
  have hv : leNat (leBytes 8 v.toNat) = v.toNat := by
    rw [leNat_leBytes]
    exact Nat.mod_eq_of_lt v.isLt
  have hp (b : Bytes) (hb : b.length = 8) : patch b 0 (leBytes 8 v.toNat) = leBytes 8 v.toNat := by
    simp [patch, List.drop_eq_nil_of_le (Nat.le_of_eq hb)]
  show execRegisterWrite o _ s = _
  unfold execRegisterWrite
  rw [leBytes_length, if_pos (barSizeOk_iff.2 ⟨.inr rfl, ho⟩)]
  dsimp only
  rw [ho, Nat.sub_zero, hp _ (leBytes_length ..), hp _ (by simp [zeros]), hv]
  rfl

section
variable (s : State) (v w : Nat) (low : Bool)

theorem State.setReg_win (k : Fin 8) : s.setReg (0x100 + 8 * k.val) v w low =
    { s with host := { s.host with wins := s.host.wins.set k.val (bits v 40 0, bits v 43 41, bit v 44) } } := by
  unfold State.setReg
  dsimp only
  rw [if_neg (by omega), if_neg (by omega), if_neg (by omega), if_pos (by omega), show (0x100 + 8 * k.val - 0x100) / 8 = k.val by omega]

theorem State.setReg_ring (r : Fin 64) {o : Nat} (ho : o = 0 ∨ o = 0x10) : s.setReg (0x300000 + 0x20 * r.val + o) v w low =
    if o = 0 then s.setRingHead r (bits v 15 0)
    else s.onRing r fun q => { q with vector := bits v 5 0, modCount := bits v 15 8, modTime := bits v 31 16 } := by
  unfold State.setReg
  dsimp only
  rw [if_neg (by omega), if_neg (by omega), if_neg (by omega), if_neg (by omega), if_neg (by omega), if_neg (by omega), if_neg (by omega),
    if_neg (by omega), if_neg (by omega), if_pos (by omega), show (0x300000 + 0x20 * r.val + o - 0x300000) / 0x20 = r.val by omega]
  rcases ho with rfl | rfl
  · rw [if_pos (by omega), if_pos rfl]
  · rw [if_neg (by omega), if_pos (by omega), if_neg (by decide)]

end

/-- RING_HEAD of a ring. -/
theorem State.setRingHead_spec (s : State) (r : Fin 64) (n : Nat) :
    (s.setRingHead r n).host.rings = s.host.rings.modify r (fun q => { q with head := n % 65536 }) ∧
      ((s.host.rings.getD r {}).enable = false ∨ n % 65536 < (s.host.rings.getD r {}).entries →
        s.setRingHead r n = s.onRing r fun q => { q with head := n % 65536 }) := by
  unfold State.setRingHead
  dsimp only
  refine ⟨?_, fun h => if_neg ?_⟩
  · split <;> rfl
  · rw [Bool.and_eq_true, decide_eq_true_eq, not_and, Nat.not_le]
    intro he
    exact h.resolve_left (by rw [he]; decide)

theorem State.barAbort_spec (s : State) :
    s.barAbort.host = { s.host with barAborts := s.host.barAborts + 1 } ∧ s.barAbort.out = s.out ∧
      (s.Inv → (s.barAbort.sl 0).err = (s.sl 0).err.queue (mkReport 0x18 14 0)) :=
  ⟨rfl, rfl, fun hs => State.hostReport_err (s := { s with host := { s.host with barAborts := s.host.barAborts + 1 } }) hs.1.1⟩

/-- The last word of an entry whose vector is unmasked. -/
def unmaskedWord (e : Bytes) : Nat := leNat (slice e 8 4) &&& (2 ^ 33 - 1)

/-- The state with a vector unmasked and nothing sent yet. -/
def State.unmasked (s : State) (v : Fin 64) : State :=
  { s with host := { s.host with
      msix := s.host.msix.modify v fun e => patch (slice e 0 16) 8 (leBytes 8 (unmaskedWord (s.host.msix.getD v []))) } }

theorem unmasked_word (e f : Bytes) : ((patch (slice e 0 16) 8 (leBytes 8 (unmaskedWord f))).getD 12 0).toNat = 0 := by
  have hw : unmaskedWord f < 2 ^ 32 := Nat.lt_of_le_of_lt Nat.and_le_left ((leNat_lt _).trans_eq (by rw [slice_length]; decide))
  have hl : ((slice e 0 16).take 8).length = 8 := by simp
  unfold patch
  rw [List.append_assoc, List.getD_append_right _ _ _ _ (by omega), hl, List.getD_append _ _ _ _ (by simp), List.getD_eq_getElem _ _ (by simp),
    leBytes_getElem, BitVec.toNat_ofNat, Nat.shiftRight_eq_div_pow, Nat.div_eq_of_lt (by simpa using hw)]

/-- The mask bit of a vector is cleared, and its pending message is sent. -/
theorem State.msixUnmask_spec {s : State} (hs : s.Inv) (v : Fin 64) (hlen : s.host.msix.length = 64) :
    ∃ t : State, exec (.msixUnmask v) s = .next t ∧
      ((t.host.msix.getD v []).getD 12 0).toNat % 2 = 0 ∧ (∀ k, k ≠ v.val → t.host.msix.getD k [] = s.host.msix.getD k []) ∧
      (s.host.msixEnable = true → s.host.msixMask = false → s.host.pendingBits.testBit v = true →
        t.host.pendingBits.testBit v = false ∧ .message v ∈ t.host.chans.getD 17 []) ∧
      (s.host.msixEnable = false ∨ s.host.msixMask = true ∨ s.host.pendingBits = 0 →
        t.host.pendingBits = s.host.pendingBits ∧ t.host.chans = s.host.chans) := by
  have hv : v.val < s.host.msix.length := by rw [hlen]; exact v.isLt
  have hu : s.setMsixTable (16 * v.val + 8) (leNat (slice (s.host.msix.getD v []) 8 4)) = (s.unmasked v).sendPending := by
    unfold State.setMsixTable State.unmasked
    rw [show (16 * v.val + 8) % 16 = 8 by omega, show (16 * v.val + 8) / 16 = v.val by omega]
    rfl
  have hk := State.SendKeeps.sendPending (s.unmasked v)
  have hother (k : Nat) (h : k ≠ v.val) : (s.unmasked v).host.msix.getD k [] = s.host.msix.getD k [] := by
    simp [State.unmasked, List.getD_eq_getElem?_getD, Ne.symm h]
  have hself : (((s.unmasked v).host.msix.getD v []).getD 12 0).toNat = 0 := by
    unfold State.unmasked
    dsimp only
    rw [getD_modify_self hv]
    exact unmasked_word ..
  refine ⟨_, congrArg Host.Outcome.next hu, ?_, fun k h => ?_, fun h1 h2 h3 => ?_, fun h => ?_⟩
  · rw [hk.msix, hself]
  · rw [hk.msix, hother k h]
  · have hm : (s.unmasked v).host.masked v = false := by
      unfold HostPort.masked
      rw [hself]
      exact (Bool.or_false _).trans h2
    rw [State.sendPending_on (s := s.unmasked v) h1]
    exact State.foldl_sendOne (List.nodup_range.filter _) (mem_setBits.2 ⟨v.isLt, h3⟩) hs.2.2.1 hm h3
  · rw [State.sendPending_idle (s := s.unmasked v) h]
    exact ⟨rfl, rfl⟩

theorem State.signalVector_spec {s : State} (hs : s.Inv) (v : Nat) :
    (∀ k < 64, (s.host.rings.getD k {}).vector = v → ((s.signalVector v).host.rings.getD k {}).unsignalled = 0) ∧
      (s.host.msixEnable = true → s.host.masked v = false → (s.signalVector v).host.chans.getD 17 [] = s.host.chans.getD 17 [] ++ [.message v]) ∧
      (s.host.msixEnable = true → s.host.masked v = true → (s.signalVector v).host.pendingBits = s.host.pendingBits ||| 2 ^ v ∧
        (s.signalVector v).host.chans = s.host.chans) ∧
      (s.host.msixEnable = false → (s.signalVector v).host.pendingBits = s.host.pendingBits ∧ (s.signalVector v).host.chans = s.host.chans) := by
  unfold State.signalVector
  dsimp only
  generalize hu : ({ s with host := { s.host with rings := s.host.rings.map _ } } : State) = u
  have hm (w : Nat) : u.host.masked w = s.host.masked w := hu ▸ rfl
  have he : u.host.msixEnable = s.host.msixEnable := hu ▸ rfl
  have hc : u.host.chans = s.host.chans := hu ▸ rfl
  have hp : u.host.pendingBits = s.host.pendingBits := hu ▸ rfl
  refine ⟨fun k hk hv => ?_, fun h1 h2 => ?_, fun h1 h2 => ?_, fun h1 => ?_⟩
  · have hr : (u.msix v).host.rings = u.host.rings := by
      unfold State.msix
      split
      · rfl
      · split <;> rfl
    have hk' : k < s.host.rings.length := by rw [hs.2.1]; exact hk
    rw [List.getD_eq_getElem _ _ hk'] at hv
    rw [hr, ← hu]
    dsimp only
    rw [List.getD_eq_getElem _ _ (by rwa [List.length_map]), List.getElem_map, if_pos (by simpa using hv)]
  · unfold State.msix
    rw [he, hm, h1, h2, ← hc]
    exact getD_modify_self (by rw [hc, hs.2.2.1]; decide) _ _
  · unfold State.msix
    rw [he, hm, h1, h2, ← hc, ← hp]
    exact ⟨rfl, rfl⟩
  · unfold State.msix
    rw [he, h1]
    exact ⟨hp, hc⟩

/-! ### Configuration requests -/

/-- What a configuration request changes before it is answered. -/
theorem execConfigurationRequest_started {s : State} (h : s.dict.deviceState ≠ 0) :
    exec (.configurationRequest .read) s = .next (s.emit (.cfg false)) ∧
      (∀ n, exec (.configurationRequest (.bar2Size n)) s =
        .next ((if 30 ≤ n ∧ n ≤ 36 then { s with host := { s.host with bar2Size := n } } else s : State).emit (.cfg false))) ∧
      (∀ on, exec (.configurationRequest (.busMaster on)) s =
        .next ((if on then { s with host := { s.host with bme := on } } else State.stallDma { s with host := { s.host with bme := on } }).emit (.cfg false))) ∧
      (∀ e m, exec (.configurationRequest (.msixControl e m)) s =
        .next ((State.sendPending { s with host := { s.host with msixEnable := e, msixMask := m } }).emit (.cfg false))) ∧
      ∀ mps mrrs, exec (.configurationRequest (.payloadSizes mps mrrs)) s =
        .next ((if [128, 256, 512].contains mps && [128, 256, 512, 1024, 2048, 4096].contains mrrs then
          { s with host := { s.host with mps := mps, mrrs := mrrs } } else s : State).emit (.cfg false)) :=
  ⟨if_neg h, fun _ => if_neg h, fun _ => if_neg h, fun _ _ => if_neg h, fun _ _ => if_neg h⟩

/-- Settles O52: a register write falls in one branch of `State.setReg`, and the pending messages are sent one by one,
`State.foldl_sendOne`. -/
theorem hostRegisters : Obligations.HostRegisters := by
  unfold Obligations.HostRegisters
  intro s hs
  dsimp only
  refine ⟨fun v => ⟨execRegisterWrite_whole s rfl v, fun k => ?_, fun r => ⟨?_, ?_⟩, ?_, execRegisterWrite_whole s rfl v, execRegisterWrite_whole s rfl v⟩,
    s.setRingHead_spec, fun m => rfl, fun o b hb => ?_, fun o n w hn ho => ?_, fun o n hno => ⟨?_, ?_⟩, State.msixUnmask_spec hs, fun ring => ⟨fun h1 h2 => ?_, fun h => ?_⟩,
    fun h x => if_pos h, fun h => ?_⟩
  · rw [execRegisterWrite_whole s (by omega), State.setReg_win]
  · have h := State.setReg_ring s v.toNat v.toNat true r (.inl rfl)
    rw [execRegisterWrite_whole s (by omega)]
    exact congrArg Host.Outcome.next h
  · have h := State.setReg_ring s v.toNat v.toNat true r (.inr rfl)
    rw [Nat.add_assoc, Nat.add_comm _ 0x10, ← Nat.add_assoc] at h
    rw [execRegisterWrite_whole s (by omega)]
    exact congrArg Host.Outcome.next h
  · exact execRegisterWrite_whole s rfl v
  · obtain ⟨h1, h2, h3⟩ := s.barAbort_spec
    exact ⟨s.barAbort, if_neg (mt barSizeOk_iff.1 hb), h1, h3 hs, h2⟩
  · exact if_pos (barSizeOk_iff.2 ⟨hn, ho⟩)
  · exact ⟨_, if_neg (mt barSizeOk_iff.1 hno), rfl, rfl⟩
  · exact ⟨_, if_neg (mt barSizeOk_iff.1 hno), rfl, rfl⟩
  · exact ⟨_, congrArg Host.Outcome.next (if_pos ⟨h1, h2⟩), State.signalVector_spec hs _⟩
  · exact congrArg Host.Outcome.next (if_neg fun hc => h.elim hc.1 fun h => Nat.ne_of_gt hc.2 h)
  · obtain ⟨hread, hbar2, hbus, hmsix, hsizes⟩ := execConfigurationRequest_started h
    refine ⟨hread, fun n => ?_, hbus true, fun m => ?_, fun m => ⟨_, hmsix true m, ?_⟩, fun mps mrrs => ?_, ⟨_, hbus false, ?_⟩⟩
    · rw [hbar2]
      split <;> rfl
    · rw [hmsix, State.sendPending_idle (.inl rfl)]
    · have hk := State.SendKeeps.sendPending { s with host := { s.host with msixEnable := true, msixMask := m } }
      refine ⟨hk.enable, hk.mask, congrArg (· ++ _) hk.out, fun hidle => ?_⟩
      rw [State.sendPending_idle (.inr hidle)]
      rfl
    · rw [hsizes]
      by_cases hc : mps ∈ [128, 256, 512] ∧ mrrs ∈ [128, 256, 512, 1024, 2048, 4096]
      · rw [if_pos hc, if_pos (by simpa using hc)]
      · rw [if_neg hc, if_neg (by simpa using hc)]
    · obtain ⟨hbme, -, -, -, hch, -⟩ := State.stallDma_spec { s with host := { s.host with bme := false } }
      exact ⟨hbme, List.getLast?_concat .., hch⟩

end Sys2Proof.Machine
end

section
/-! SUPPORT. Conditions of requests, and what a completion leaves alone. -/

namespace Sys2Proof.Machine

/-! ### Conditions of requests -/

/-- A request once its conditions given by a drip have taken effect. -/
def Request.settled (d : Drip) (r : Request) : Request :=
  if !r.ended && r.conds.any fun c => Drip.notLater c.given d then { r with ended := true } else r

/-- A request that is given a condition. -/
def Request.given (c : Cond) (r : Request) : Request := { r with conds := r.conds ++ [c] }

/-- What a condition that takes effect leaves of a request. -/
theorem Request.settled_eq (d : Drip) (r : Request) : ∃ e : Bool, r.settled d = { r with ended := e } := by
  unfold Request.settled
  split
  · exact ⟨true, rfl⟩
  · exact ⟨r.ended, rfl⟩

theorem Request.settled_conds (d : Drip) (r : Request) : (r.settled d).conds = r.conds := by
  obtain ⟨e, h⟩ := r.settled_eq d
  rw [h]

theorem Request.settled_slot (d : Drip) (r : Request) : (r.settled d).slot = r.slot := by
  obtain ⟨e, h⟩ := r.settled_eq d
  rw [h]

theorem SliceState.settleRows_reqs (x : SliceState) (d : Drip) : (x.settleRows d).svc.reqs = x.svc.reqs.map (Request.settled d) := by
  unfold SliceState.settleRows
  dsimp only
  split
  · next h =>
    have hnone : ∀ r ∈ x.svc.reqs, ¬ (!r.ended && r.conds.any fun c => Drip.notLater c.given d) = true := fun r hr hdue =>
      List.not_mem_nil (h ▸ List.mem_map_of_mem (f := Request.slot) (List.mem_filter.2 ⟨hr, hdue⟩))
    exact ((List.map_congr_left fun r hr => if_neg (hnone r hr)).trans (List.map_id' _)).symm
  · rfl

/-- The requests of a slice after some were given a condition. -/
theorem State.endReqs_reqs {s : State} {i : Nat} (hi : i < s.slices.length) (p : Request → Bool) (a b : Drip) (st : Status) (l : Nat) :
    ((s.endReqs i p a b st l).sl i).svc.reqs =
      (s.sl i).svc.reqs.map fun r => Request.settled s.now (if p r then r.given ⟨a, b, st, l⟩ else r) := by
  unfold State.endReqs
  rw [State.onSl_sl_self _ _ _ hi, SliceState.settleRows_reqs]
  exact List.map_map

/-- A request that is given a condition has it. -/
theorem State.endReqs_given {s : State} {i : Nat} (hi : i < s.slices.length) {p : Request → Bool} {r : Request} (hr : r ∈ (s.sl i).svc.reqs)
    (hp : p r = true) (a b : Drip) (st : Status) (l : Nat) :
    ∃ v ∈ ((s.endReqs i p a b st l).sl i).svc.reqs, v.slot = r.slot ∧ ⟨a, b, st, l⟩ ∈ v.conds := by
  refine ⟨_, State.endReqs_reqs hi p a b st l ▸ List.mem_map_of_mem hr, ?_, ?_⟩
  · rw [Request.settled_slot, if_pos hp]
    rfl
  · rw [Request.settled_conds, if_pos hp]
    exact List.mem_append_right _ List.mem_cons_self

/-! ### What a completion leaves alone -/

/-- `t` is `s` but for what a completion changes: the error records of the slices, and of the host port its rings, causes and messages. -/
structure State.Completes (s t : State) : Prop where
  agree : State.Agree (fun x => { x with err := ({} : Errors) }) s t
  out : t.out = s.out
  job : t.job = s.job
  turn : t.host.turn = s.host.turn
  reads : t.host.reads = s.host.reads
  dmaErrors : t.host.dmaErrors = s.host.dmaErrors
  resets : t.host.hostResets = s.host.hostResets
  chans : ∀ c, c ≠ 17 → t.host.chans.getD c [] = s.host.chans.getD c []

namespace State.Completes
variable {s t u : State}

theorem refl (s : State) : State.Completes s s := ⟨.refl s, rfl, rfl, rfl, rfl, rfl, rfl, fun _ _ => rfl⟩

theorem trans (a : State.Completes s t) (b : State.Completes t u) : State.Completes s u :=
  ⟨a.agree.trans b.agree, b.out.trans a.out, b.job.trans a.job, b.turn.trans a.turn, b.reads.trans a.reads, b.dmaErrors.trans a.dmaErrors,
    b.resets.trans a.resets, fun c hc => (b.chans c hc).trans (a.chans c hc)⟩

theorem comp (b : State.Completes t u) (a : State.Completes s t) : State.Completes s u := a.trans b

theorem ite {p : Prop} [Decidable p] (a : State.Completes s t) (b : State.Completes s u) : State.Completes s (if p then t else u) := by
  split <;> assumption

theorem report (i : Nat) (r : Report) : State.Completes s (s.report i r) := ⟨.report fun _ _ => rfl, rfl, rfl, rfl, rfl, rfl, rfl, fun _ _ => rfl⟩

theorem pushChan (j : DmaJob) : State.Completes s (s.pushChan 17 j) := by
  refine ⟨.of_slices rfl, rfl, rfl, rfl, rfl, rfl, rfl, fun c hc => ?_⟩
  show (s.host.chans.modify 17 _).getD c [] = _
  simp [List.getD_eq_getElem?_getD, Ne.symm hc]

theorem msix (v : Nat) : State.Completes s (s.msix v) := by
  unfold State.msix
  exact .ite (refl _) (.ite ⟨.of_slices rfl, rfl, rfl, rfl, rfl, rfl, rfl, fun _ _ => rfl⟩ (pushChan _))

theorem cause (b : Nat) : State.Completes s (s.cause b) := by
  have ht : State.Completes s { s with host := { s.host with evtCause := s.host.evtCause ||| 2 ^ b } } :=
    ⟨.of_slices rfl, rfl, rfl, rfl, rfl, rfl, rfl, fun _ _ => rfl⟩
  unfold State.cause
  dsimp only
  exact .ite (.comp (msix _) ht) ht

theorem complete (c : Completion) : State.Completes s (s.complete c) := by
  have hon : State.Completes s (s.onRing c.ring fun r => { r with held := holdIn c r.held }) :=
    ⟨.of_slices rfl, rfl, rfl, rfl, rfl, rfl, rfl, fun _ _ => rfl⟩
  unfold State.complete
  dsimp only
  exact .ite (.comp (report ..) ⟨.of_slices rfl, rfl, rfl, rfl, rfl, rfl, rfl, fun _ _ => rfl⟩) (.ite (.comp (cause _) hon) hon)

theorem completeCmd (sl : Nat) (c : Cmd) (st : Status) (reason : Nat) (ring : Option Nat) : State.Completes s (s.completeCmd sl c st reason ring) :=
  complete _

/-- What the slices tell beside their error records. -/
theorem slice {β : Type} {π : SliceState → β} (h : State.Completes s t) (hπ : ∀ x e, π { x with err := e } = π x) : State.Agree π s t := fun i =>
  (hπ _ _).symm.trans ((congrArg π (h.agree i)).trans (hπ _ _))

end State.Completes

end Sys2Proof.Machine
end

section
/-! Requests of the host port and reads that end. -/

namespace Sys2Proof.Machine

/-! ### Requests that the host port issues -/

theorem HostPort.nextChannel_lt {h : HostPort} {c : Nat} (hc : h.nextChannel = some c) : c < 18 := by
  have hm := List.mem_of_find?_eq_some hc
  obtain ⟨k, -, rfl⟩ := List.mem_map.1 hm
  exact Nat.mod_lt _ (by decide)

/-- The request at the head of the channel that has the turn. -/
theorem execDmaRequestIssue_head {s : State} (hi : s.canIssue = true) {c : Nat} {j : DmaJob} {rest : List DmaJob} (hc : s.host.nextChannel = some c)
    (hj : s.host.chans.getD c [] = j :: rest) :
    exec .dmaRequestIssue s = .next
      (let t : State := { s with host := { s.host with turn := (c + 1) % 18 } }
       if j.isRead then
        let k := j.split s.host.mrrs
        ({ t.setHead c rest k.2.2.2 with
          host := { (t.setHead c rest k.2.2.2).host with reads := s.host.reads ++ [(s.host.freeTag.getD 0, k.2.2.1)] } } : State).emit
            (.hostRead (s.host.freeTag.getD 0) k.1 k.2.1)
       else t.issueWrite c rest j) := by
  show execDmaRequestIssue s = _
  unfold execDmaRequestIssue
  rw [hi, hc]
  dsimp only
  rw [hj]
  exact (if_neg (by decide)).trans (apply_ite Host.Outcome.next _ _ _).symm

/-- The part of a read that is issued: within the read request size, not across 4 KiB, and what is left is the rest of it. -/
theorem DmaJob.split_spec {j : DmaJob} (hr : j.isRead = true) (m : Nat) :
    (j.split m).2.1 ≤ max 1 (min m 4096) ∧ (j.split m).1 % 4096 + (j.split m).2.1 ≤ 4096 ∧ (j.split m).2.2.1.bytes = (j.split m).2.1 ∧
      ((j.split m).2.2.2 = none ↔ (j.split m).2.1 = j.bytes) := by
  have hp (a len : Nat) : pieceLen a len (min m 4096) ≤ max 1 (min m 4096) ∧ a % 4096 + pieceLen a len (min m 4096) ≤ 4096 ∧
      pieceLen a len (min m 4096) ≤ len := by
    unfold pieceLen
    omega
  have hi (n len : Nat) (x : DmaJob) (hn : n ≤ len) : (if n < len then some x else none) = none ↔ n = len := by
    split
    · next h => exact ⟨fun e => (by cases e), fun e => absurd e (by omega)⟩
    · next h => exact ⟨fun _ => by omega, fun _ => rfl⟩
  cases j with
  | inputRead sl q a len =>
    obtain ⟨h1, h2, h3⟩ := hp a len
    exact ⟨h1, h2, rfl, hi _ _ _ h3⟩
  | copyRead sl q a len d =>
    obtain ⟨h1, h2, h3⟩ := hp a len
    exact ⟨h1, h2, rfl, hi _ _ _ h3⟩
  | loadRead a len =>
    obtain ⟨h1, h2, h3⟩ := hp a len
    exact ⟨h1, h2, rfl, hi _ _ _ h3⟩
  | _ => cases hr

theorem getD_set_self {α : Type} {l : List α} {n : Nat} (h : n < l.length) (a d : α) : (l.set n a).getD n d = a := by
  simp [List.getD_eq_getElem?_getD, h]

/-- The channel whose head has been put back. -/
theorem State.setHead_chans {s : State} (hs : s.host.chans.length = 18) {c : Nat} (hc : c < 18) (rest : List DmaJob) (l : Option DmaJob) :
    (s.setHead c rest l).host.chans.getD c [] = match l with | some j => j :: rest | none => rest :=
  getD_set_self (by omega) _ _

theorem State.copyMoved_completes (s : State) (sl slot n : Nat) : (s.copyMoved sl slot n).out = s.out ∧ (s.copyMoved sl slot n).host.turn = s.host.turn ∧
    (s.copyMoved sl slot n).host.reads = s.host.reads ∧ ∀ c, c ≠ 17 → (s.copyMoved sl slot n).host.chans.getD c [] = s.host.chans.getD c [] := by
  unfold State.copyMoved
  split
  · exact ⟨rfl, rfl, rfl, fun _ _ => rfl⟩
  · split
    · have h := State.Completes.completeCmd (s := s.onSvc sl fun v => { v with copies := v.copies.filter fun j => j.1.slot != slot }) sl
        (by assumption : Cmd × Nat).1 .ok 0 none
      exact ⟨h.out, h.turn, h.reads, h.chans⟩
    · exact ⟨rfl, rfl, rfl, fun _ _ => rfl⟩

theorem State.outputWritten_host (s : State) (sl slot : Nat) : (s.outputWritten sl slot).host = s.host ∧ (s.outputWritten sl slot).out = s.out := by
  unfold State.outputWritten
  split
  · exact ⟨rfl, rfl⟩
  · split <;> exact ⟨rfl, rfl⟩

/-- The state in which a part of the write at the head of a channel has been issued. -/
def State.wroteHead (s : State) (c : Nat) (rest : List DmaJob) (a : Nat) (b : Bytes) (mk : Nat → Bytes → DmaJob) : State :=
  let n := pieceLen a b.length s.host.mps
  let left := b.drop n
  (State.setHead { s with host := { s.host with turn := (c + 1) % 18 } } c rest
    (if left.isEmpty then none else some (mk ((a + n) % 2 ^ 64) left))).emit (.hostWrite a (b.take n))

theorem head_of_left (e : Bool) (x : DmaJob) (rest : List DmaJob) :
    (match (if e then none else some x : Option DmaJob) with | some j => j :: rest | none => rest) = if e then rest else x :: rest := by
  cases e <;> rfl

theorem State.wroteHead_spec {s : State} (hs : s.host.chans.length = 18) {c : Nat} (hc : c < 18) (rest : List DmaJob) (a : Nat) (b : Bytes)
    (mk : Nat → Bytes → DmaJob) :
    let n := min b.length (min (max 1 s.host.mps) (4096 - a % 4096))
    (s.wroteHead c rest a b mk).out = s.out ++ [.hostWrite a (b.take n)] ∧ (s.wroteHead c rest a b mk).host.turn = (c + 1) % 18 ∧
      (s.wroteHead c rest a b mk).host.chans.getD c [] = if (b.drop n).isEmpty then rest else mk ((a + n) % 2 ^ 64) (b.drop n) :: rest := by
  refine ⟨rfl, rfl, ?_⟩
  refine (State.setHead_chans (s := { s with host := { s.host with turn := (c + 1) % 18 } }) hs hc rest _).trans ?_
  dsimp only [pieceLen]
  exact head_of_left ..

theorem State.outputPart_host (t : State) (sl q : Nat) (e : Bool) :
    (if e then t.outputWritten sl q else t).host = t.host ∧ (if e then t.outputWritten sl q else t).out = t.out := by
  cases e
  · exact ⟨rfl, rfl⟩
  · exact t.outputWritten_host sl q

/-! ### Reads that end -/

/-- The state in which the tag of a read is free again. -/
def State.freeTag (s : State) (tag : Nat) : State := { s with host := { s.host with reads := s.host.reads.filter fun k => k.1 != tag } }

section
variable {s : State} {tag : Nat} {j : DmaJob} (h : s.host.reads.find? (fun r => r.1 == tag) = some (tag, j))
include h

theorem State.endRead_of_find (f : DmaJob → State → State) : s.endRead tag f = f j (s.freeTag tag) := by
  unfold State.endRead
  rw [h]
  rfl

theorem execHostReadCompletion_lands {b : Bytes} (hb : b.length = j.bytes) :
    exec (.hostReadCompletion tag b true) s = .next ((s.freeTag tag).landRead j b) := by
  refine congrArg Host.Outcome.next ((State.endRead_of_find h _).trans (if_pos ?_))
  simp [hb]

theorem execHostReadCompletion_fails {b : Bytes} {ok : Bool} (hb : ok = false ∨ b.length ≠ j.bytes) :
    exec (.hostReadCompletion tag b ok) s = .next ((s.freeTag tag).failRead j) := by
  refine congrArg Host.Outcome.next ((State.endRead_of_find h _).trans (if_neg ?_))
  rcases hb with hb | hb <;> simp [hb]

theorem execHostReadTimeout_fails : exec (.hostReadTimeout tag) s = .next ((s.freeTag tag).failRead j) :=
  congrArg Host.Outcome.next (State.endRead_of_find h _)

end

/-- A part of a COPY that has been moved: its slice's memory stays, and it is under way no more or with that much less left. -/
theorem State.copyMoved_spec {s : State} {sl : Nat} (hsl : sl < s.slices.length) {q left : Nat} {c : Cmd}
    (hk : (s.sl sl).svc.copies.find? (fun k => k.1.slot == q) = some (c, left)) (n : Nat) :
    ((s.copyMoved sl q n).sl sl).mem = (s.sl sl).mem ∧
      (left ≤ n → ∀ k ∈ ((s.copyMoved sl q n).sl sl).svc.copies, k.1.slot ≠ q) ∧
      (n < left → ((s.copyMoved sl q n).sl sl).svc.copies.find? (fun k => k.1.slot == q) = some (c, left - n)) := by
  unfold State.copyMoved
  rw [hk]
  dsimp only
  by_cases hle : left ≤ n
  · rw [if_pos hle]
    have h := (State.Completes.completeCmd (s := s.onSvc sl fun v => { v with copies := v.copies.filter fun j => j.1.slot != q }) sl c .ok 0 none).slice
      (π := fun x => (x.mem, x.svc.copies)) (fun _ _ => rfl) sl
    obtain ⟨h1, h2⟩ := Prod.mk.inj h
    have hself : (s.onSvc sl fun v => { v with copies := v.copies.filter fun j => j.1.slot != q }).sl sl = _ := s.onSl_sl_self _ _ hsl
    rw [h1, h2, hself]
    refine ⟨rfl, fun _ k hk => ?_, fun h => absurd hle (by omega)⟩
    simpa using (List.mem_filter.1 hk).2
  · rw [if_neg hle]
    have hself : (s.onSvc sl fun v => { v with copies := v.copies.map fun j => if j.1.slot == q then (j.1, j.2 - n) else j }).sl sl = _ :=
      s.onSl_sl_self _ _ hsl
    rw [hself]
    refine ⟨rfl, fun h => absurd h hle, fun _ => ?_⟩
    dsimp only
    have hc : (fun k : Cmd × Nat => k.1.slot == q) ∘ (fun j => if j.1.slot == q then (j.1, j.2 - n) else j) = fun k => k.1.slot == q :=
      funext fun j => by
        dsimp only [Function.comp_apply]
        split <;> rfl
    rw [List.find?_map, hc, hk]
    exact congrArg some (if_pos (by simpa using List.find?_some hk))

/-- The bytes of a COPY that land, and what is left of it. -/
theorem State.landRead_copy {s : State} (hs : s.Inv) (sl : SliceId) {q a dev left : Nat} {b : Bytes} {c : Cmd}
    (hk : (s.sl sl).svc.copies.find? (fun k => k.1.slot == q) = some (c, left)) :
    let t := s.landRead (.copyRead sl q a b.length dev) b
    t.host.reads = s.host.reads ∧ (t.sl sl).load dev b.length = b ∧ SameBytesOutside (s.sl sl) (t.sl sl) dev b.length ∧
      (left ≤ b.length → ∀ k ∈ (t.sl sl).svc.copies, k.1.slot ≠ q) ∧
      (b.length < left → (t.sl sl).svc.copies.find? (fun k => k.1.slot == q) = some (c, left - b.length)) := by
  have hsl := hs.slices_lt sl
  have hany : ((s.sl sl).svc.copies.any fun k => k.1.slot == q) = true := by
    obtain ⟨hq, hm⟩ := And.intro (List.find?_some hk) (List.mem_of_find?_eq_some hk)
    exact List.any_eq_true.2 ⟨_, hm, hq⟩
  have hland : s.landRead (.copyRead sl q a b.length dev) b = (s.onSl sl fun x => x.store dev b).copyMoved sl q b.length := if_pos hany
  have hu : (s.onSl sl fun x => x.store dev b).sl sl = (s.sl sl).store dev b := s.onSl_sl_self _ _ hsl
  have hmem := (hs.sl sl.isLt).1
  obtain ⟨-, -, hreads, -⟩ := State.copyMoved_completes (s.onSl sl fun x => x.store dev b) sl q b.length
  dsimp only
  rw [hland]
  obtain ⟨hm, hle, hlt⟩ := State.copyMoved_spec (s := s.onSl sl fun x => x.store dev b) (by rw [State.onSl_length]; exact hsl)
    (q := q) (c := c) (left := left) (by rw [hu]; exact hk) b.length
  refine ⟨hreads, ?_, fun d hd => ?_, hle, hlt⟩
  · unfold SliceState.load
    rw [hm, hu]
    exact SliceState.load_store hmem dev b
  · rw [hm, hu]
    exact Memory.read_writeBytes_outside hmem hd

/-- What the arrival of an input leaves alone. -/
theorem SliceState.tryInput_agree {β : Type} {π : SliceState → β} (hw : ∀ x f, π (x.wakeOn f) = π x)
    (h : ∀ x r c f, π { x with runs := r, toClear := c, flags := f } = π x) (x : SliceState) : π x.tryInput = π x := by
  unfold SliceState.tryInput
  split
  · split
    · exact SliceState.completeRun_agree hw h ..
    · rfl
  · rfl

/-- The bytes of an input that land. -/
theorem State.landRead_input {s : State} (hs : s.Inv) (sl : SliceId) {q a : Nat} {b : Bytes} {m : Image} {r : Request} (hm : s.job = some m)
    (hr : (s.sl sl).svc.reqs.find? (fun v => v.slot == q) = some r) :
    let t := s.landRead (.inputRead sl q a b.length) b
    let p := m.inAddr.getD sl 0 + r.firstRow * m.inRowBytes + (a + 2 ^ 64 - r.cmd.hostA) % 2 ^ 64
    t.host = s.host ∧ (t.sl sl).load p b.length = b ∧ SameBytesOutside (s.sl sl) (t.sl sl) p b.length ∧
      ∃ v ∈ (t.sl sl).svc.reqs, v.slot = q ∧ v.inputGot = r.inputGot + b.length := by
  have hmem := (hs.sl sl.isLt).1
  have hrm := List.mem_of_find?_eq_some hr
  have hq : r.slot = q := by simpa using List.find?_some hr
  dsimp only
  unfold State.landRead State.inputLanded
  dsimp only
  rw [hm, hr]
  dsimp only
  have hag (x : SliceState) := SliceState.tryInput_agree (π := fun x => (x.mem, x.svc.reqs)) (fun _ _ => rfl) (fun _ _ _ _ => rfl) x
  rw [State.onSl_sl_self _ _ _ (hs.slices_lt sl)]
  obtain ⟨h1, h2⟩ := Prod.mk.inj (hag (SliceState.onReqs _ _))
  refine ⟨rfl, ?_, fun d hd => ?_, ?_⟩
  · unfold SliceState.load
    rw [h1]
    exact SliceState.load_store hmem _ b
  · rw [h1]
    exact Memory.read_writeBytes_outside hmem hd
  · rw [h2]
    refine ⟨_, List.mem_map_of_mem hrm, ?_⟩
    rw [if_pos (by simpa using hq)]
    exact ⟨hq, rfl⟩

/-- A load that fails. -/
theorem State.failLoad_load (s : State) (st : Status) (a b : Nat) :
    (s.failLoad st a b).load.st = 4 ∧ (s.failLoad st a b).load.status = st.code := by
  have h : ((s.setLoad 4 st.code).loadRecord st.code [a, b]).load.st = 4 ∧ ((s.setLoad 4 st.code).loadRecord st.code [a, b]).load.status = st.code := by
    unfold State.setLoad
    dsimp only
    split
    · exact ⟨rfl, rfl⟩
    · exact ⟨congrArg Load.st (State.cause_load ..), congrArg Load.status (State.cause_load ..)⟩
  unfold State.failLoad
  dsimp only
  split
  · exact h
  · split <;> exact h

namespace State.Completes
variable {s : State}

theorem of_slices {t : State} (hsl : t.slices = s.slices) (hh : t.host = s.host) (ho : t.out = s.out) (hj : t.job = s.job) : State.Completes s t :=
  ⟨.of_slices hsl, ho, hj, by rw [hh], by rw [hh], by rw [hh], by rw [hh], fun _ _ => by rw [hh]⟩

theorem setLoad (a b : Nat) : State.Completes s (s.setLoad a b) := by
  unfold State.setLoad
  dsimp only
  exact .ite (of_slices rfl rfl rfl rfl) (.comp (cause _) (of_slices rfl rfl rfl rfl))

theorem failLoad (st : Status) (a b : Nat) : State.Completes s (s.failLoad st a b) := by
  have hu := State.Completes.comp (.report 0 (mkReport 0x11 11 0 st.code 255 [a, b])) (State.Completes.setLoad (s := s) 4 st.code)
  unfold State.failLoad
  dsimp only
  exact .ite (hu.trans (of_slices rfl rfl rfl rfl)) (.ite (.comp (report ..) (hu.trans (of_slices rfl rfl rfl rfl)))
    (hu.trans (of_slices rfl rfl rfl rfl)))

end State.Completes

/-- A COPY that fails is under way no more, and no memory changes. -/
theorem State.copyFailed_spec (s : State) (sl q : Nat) :
    (s.copyFailed sl q).host.reads = s.host.reads ∧ (s.copyFailed sl q).host.dmaErrors = s.host.dmaErrors ∧
      (∀ i, ((s.copyFailed sl q).sl i).mem = (s.sl i).mem) ∧
      (sl < s.slices.length → ∀ k ∈ ((s.copyFailed sl q).sl sl).svc.copies, k.1.slot ≠ q) := by
  unfold State.copyFailed
  split
  · next h => exact ⟨rfl, rfl, fun _ => rfl, fun _ k hk => by simpa using List.find?_eq_none.1 h k hk⟩
  · next k h =>
    dsimp only
    generalize hu : ({ s.onSvc sl fun v => { v with copies := v.copies.filter fun j => j.1.slot != q } with host := _ } : State) = u
    have hc := State.Completes.completeCmd (s := u) sl k.1 .fault 2 none
    have hsv := hc.slice (π := fun x => (x.mem, x.svc.copies)) (fun _ _ => rfl)
    have husl : u.slices = (s.onSvc sl fun v => { v with copies := v.copies.filter fun j => j.1.slot != q }).slices := hu ▸ rfl
    have hum : State.Agree SliceState.mem s u :=
      .comp (.of_slices husl) (.onSl (s := s) (i := sl) (f := fun x => { x with svc := { x.svc with copies := x.svc.copies.filter fun j => j.1.slot != q } }) fun _ => rfl)
    refine ⟨hc.reads.trans (hu ▸ rfl), hc.dmaErrors.trans (hu ▸ rfl), fun i => (Prod.mk.inj (hsv i)).1.trans (hum i), fun hsl j hj => ?_⟩
    have hself : (s.onSvc sl fun v => { v with copies := v.copies.filter fun j => j.1.slot != q }).sl sl = _ := s.onSl_sl_self _ _ hsl
    rw [(Prod.mk.inj (hsv sl)).2, State.sl, husl, ← State.sl, hself] at hj
    simpa using (List.mem_filter.1 hj).2

/-- A DMA error counted and recorded. -/
def State.countError (s : State) : State := State.hostReport { s with host := { s.host with dmaErrors := s.host.dmaErrors + 1 } }

theorem State.countError_length (s : State) : s.countError.slices.length = s.slices.length := State.onSl_length ..

theorem State.countError_agree (s : State) {β : Type} {π : SliceState → β} (h : ∀ x e, π { x with err := e } = π x) : State.Agree π s s.countError := by
  have hr : State.Agree π { s with host := { s.host with dmaErrors := s.host.dmaErrors + 1 } } s.countError := .report h
  exact fun i => hr i

/-- A read that fails frees nothing but its tag, and is counted. -/
theorem State.failRead_counted (s : State) (j : DmaJob) :
    (s.failRead j).host.reads = s.host.reads ∧ (s.failRead j).host.dmaErrors = s.host.dmaErrors + 1 := by
  unfold State.failRead
  dsimp only
  cases j with
  | copyRead sl q a n d =>
    obtain ⟨h1, h2, -, -⟩ := State.copyFailed_spec (State.hostReport { s with host := { s.host with dmaErrors := s.host.dmaErrors + 1 } }) sl q
    exact ⟨h1, h2⟩
  | loadRead a n =>
    dsimp only
    split
    · have h := State.Completes.failLoad (s := State.hostReport { s with host := { s.host with dmaErrors := s.host.dmaErrors + 1 } }) .fault s.load.nextSeq 0
      exact ⟨h.reads, h.dmaErrors⟩
    · exact ⟨rfl, rfl⟩
  | _ => exact ⟨rfl, rfl⟩

/-- Settles O53: what a COPY's completion changes beside the rings is nothing that the port's channels or the memory show,
`State.Completes`. -/
theorem hostDma : Obligations.HostDma := by
  unfold Obligations.HostDma
  intro s hs
  dsimp only
  refine ⟨fun hi c j rest hc hj => ?_, fun hi hn => ?_, fun hi => ?_, fun tag j hr => ⟨?_, ?_, ?_, ?_, ?_⟩, fun tag hr => ?_⟩
  · have hc18 := HostPort.nextChannel_lt hc
    have hex := execDmaRequestIssue_head hi hc hj
    refine ⟨fun tag hjr ht => ?_, ?_, fun sl q a b => ⟨?_, ?_⟩, ?_⟩
    · obtain ⟨h1, h2, h3, h4⟩ := DmaJob.split_spec hjr s.host.mrrs
      rw [if_pos hjr, ht] at hex
      exact ⟨h1, h2, h3, _, hex, rfl, rfl, rfl, State.setHead_chans (s := { s with host := { s.host with turn := (c + 1) % 18 } }) hs.2.2.1 hc18 rest _, h4⟩
    · rintro a b rfl
      exact ⟨_, hex, State.wroteHead_spec hs.2.2.1 hc18 rest a b .recordWrite⟩
    · rintro rfl
      obtain ⟨h1, h2, h3⟩ := State.wroteHead_spec hs.2.2.1 hc18 rest a b (.outputWrite sl q)
      refine ⟨_, hex, ?_⟩
      obtain ⟨he, ho⟩ := State.outputPart_host (s.wroteHead c rest a b (.outputWrite sl q)) sl q (b.drop (pieceLen a b.length s.host.mps)).isEmpty
      exact ⟨ho.trans h1, (congrArg HostPort.turn he).trans h2, (congrArg (fun h : HostPort => h.chans.getD c []) he).trans h3⟩
    · rintro rfl hne
      obtain ⟨h1, h2, h3⟩ := State.wroteHead_spec hs.2.2.1 hc18 rest a b (.copyWrite sl q)
      obtain ⟨k1, k2, -, k4⟩ := State.copyMoved_completes (s.wroteHead c rest a b (.copyWrite sl q)) sl q (pieceLen a b.length s.host.mps)
      exact ⟨_, hex, k1.trans h1, k2.trans h2, (k4 c hne).trans h3⟩
    · rintro v rfl
      exact ⟨_, hex, State.setHead_chans (s := { s with host := { s.host with turn := (c + 1) % 18 } }) hs.2.2.1 hc18 rest none, List.append_assoc ..⟩
  · show execDmaRequestIssue s = _
    unfold execDmaRequestIssue
    rw [hi, hn]
    rfl
  · obtain ⟨-, -, -, -, h, -⟩ := s.stallDma_spec
    refine ⟨s.stallDma, ?_, h⟩
    show execDmaRequestIssue s = _
    unfold execDmaRequestIssue
    rw [hi]
    rfl
  · rintro sl q a dev n b c left rfl rfl hk
    exact ⟨_, execHostReadCompletion_lands hr rfl, State.landRead_copy (s := s.freeTag tag) hs sl hk⟩
  · rintro sl q a n b m r rfl rfl hm hk
    obtain ⟨h1, h2⟩ := State.landRead_input (s := s.freeTag tag) (a := a) (b := b) hs sl hm hk
    exact ⟨_, execHostReadCompletion_lands hr rfl, congrArg HostPort.reads h1, h2⟩
  · rintro sl q a n rfl
    have hf : ((s.freeTag tag).failRead (.inputRead sl q a n)).host.reads = s.host.reads.filter (fun k => k.1 != tag) ∧
        ((s.freeTag tag).failRead (.inputRead sl q a n)).host.dmaErrors = s.host.dmaErrors + 1 ∧
        ∀ r ∈ (s.sl sl).svc.reqs, r.slot = q → r.ended = false → ∃ v ∈ (((s.freeTag tag).failRead (.inputRead sl q a n)).sl sl).svc.reqs, v.slot = q ∧
          ⟨s.now, s.now.plus 1, .fault, 0xFF⟩ ∈ v.conds := by
      obtain ⟨h1, h2⟩ := State.failRead_counted (s.freeTag tag) (.inputRead sl q a n)
      refine ⟨h1, h2, fun r hr hq _ => ?_⟩
      have hag : State.Agree (fun x => x.svc.reqs) s (s.freeTag tag).countError := fun i =>
        State.countError_agree (s.freeTag tag) (π := fun x => x.svc.reqs) (fun _ _ => rfl) i
      obtain ⟨v, hv, hvs, hvc⟩ := State.endReqs_given (s := (s.freeTag tag).countError) (i := sl) (p := fun r => r.slot == q) (r := r)
        (by rw [State.countError_length]; exact hs.slices_lt sl) (by have hsame := hag sl; dsimp only at hsame; rwa [hsame]) (by simpa using hq) s.now (s.now.plus 1) .fault 0xFF
      exact ⟨v, hv, hvs.trans hq, hvc⟩
    exact ⟨fun b => ⟨_, execHostReadCompletion_fails hr (.inl rfl), hf⟩, fun b hb => ⟨_, execHostReadCompletion_fails hr (.inr hb), hf⟩,
      _, execHostReadTimeout_fails hr, hf⟩
  · rintro a n rfl
    have hf : ((s.freeTag tag).failRead (.loadRead a n)).host.reads = s.host.reads.filter (fun k => k.1 != tag) ∧
        ((s.freeTag tag).failRead (.loadRead a n)).host.dmaErrors = s.host.dmaErrors + 1 ∧
        (s.load.st = 1 ∨ s.load.st = 3 → ((s.freeTag tag).failRead (.loadRead a n)).load.st = 4 ∧
          ((s.freeTag tag).failRead (.loadRead a n)).load.status = Status.fault.code) := by
      obtain ⟨h1, h2⟩ := State.failRead_counted (s.freeTag tag) (.loadRead a n)
      refine ⟨h1, h2, fun h => ?_⟩
      have he : (s.freeTag tag).failRead (.loadRead a n) = _ := if_pos h
      rw [he]
      exact State.failLoad_load ..
    exact ⟨fun b hb => execHostReadCompletion_lands hr hb, fun b => ⟨_, execHostReadCompletion_fails hr (.inl rfl), hf⟩, _, execHostReadTimeout_fails hr, hf⟩
  · rintro sl q a n dev rfl b i hi
    have hf : ((s.freeTag tag).failRead (.copyRead sl q a n dev)).host.reads = s.host.reads.filter (fun k => k.1 != tag) ∧
        ((s.freeTag tag).failRead (.copyRead sl q a n dev)).host.dmaErrors = s.host.dmaErrors + 1 ∧
        (∀ k ∈ (((s.freeTag tag).failRead (.copyRead sl q a n dev)).sl sl).svc.copies, k.1.slot ≠ q) ∧
        ∀ i : SliceId, (((s.freeTag tag).failRead (.copyRead sl q a n dev)).sl i).mem = (s.sl i).mem := by
      obtain ⟨h1, h2⟩ := State.failRead_counted (s.freeTag tag) (.copyRead sl q a n dev)
      obtain ⟨-, -, h3, h4⟩ := (s.freeTag tag).countError.copyFailed_spec sl q
      have hag : State.Agree SliceState.mem s (s.freeTag tag).countError := fun i =>
        State.countError_agree (s.freeTag tag) (fun _ _ => rfl) i
      exact ⟨h1, h2, h4 (by rw [State.countError_length]; exact hs.slices_lt sl), fun i => (h3 i).trans (hag i)⟩
    rcases List.mem_pair.1 hi with rfl | rfl
    · exact ⟨_, execHostReadTimeout_fails hr, hf⟩
    · exact ⟨_, execHostReadCompletion_fails hr (.inl rfl), hf⟩
  · have hnone : s.host.reads.find? (fun r => r.1 == tag) = none := List.find?_eq_none.2 fun r hr' => by simpa using hr r hr'
    have he (f : DmaJob → State → State) : s.endRead tag f = s := by
      unfold State.endRead
      rw [hnone]
    exact ⟨congrArg Host.Outcome.next (he _), fun b ok => congrArg Host.Outcome.next (he _)⟩

end Sys2Proof.Machine
end

section
/-! Resets of the host function, and the host link. -/

namespace Sys2Proof.Machine

/-! ### What the end of a context leaves alone -/

/-- The ports of a slice, and how many messages it has under way. -/
def SliceState.wires (x : SliceState) : List Link × Nat := (x.ports, x.fabric.outMsgs.length)

/-- `t` is `s` but for what the end of commands, requests and threads changes. -/
structure State.TearKeeps (s t : State) : Prop where
  agree : State.Agree SliceState.wires s t
  job : t.job = s.job
  load : t.load = s.load
  resets : t.host.hostResets = s.host.hostResets
  link : (t.host.linkUp, t.host.bar2Size) = (s.host.linkUp, s.host.bar2Size)
  armed : t.pkg.reshapeArmed = s.pkg.reshapeArmed

namespace State.TearKeeps
variable {s t u : State}

theorem refl (s : State) : State.TearKeeps s s := ⟨.refl s, rfl, rfl, rfl, rfl, rfl⟩

theorem trans (a : State.TearKeeps s t) (b : State.TearKeeps t u) : State.TearKeeps s u :=
  ⟨a.agree.trans b.agree, b.job.trans a.job, b.load.trans a.load, b.resets.trans a.resets, b.link.trans a.link, b.armed.trans a.armed⟩

theorem comp (b : State.TearKeeps t u) (a : State.TearKeeps s t) : State.TearKeeps s u := a.trans b

theorem ite {p : Prop} [Decidable p] (a : State.TearKeeps s t) (b : State.TearKeeps s u) : State.TearKeeps s (if p then t else u) := by
  split <;> assumption

theorem foldl {α : Type} {f : State → α → State} (h : ∀ s a, State.TearKeeps s (f s a)) (l : List α) (s : State) : State.TearKeeps s (l.foldl f s) := by
  induction l generalizing s with
  | nil => exact refl _
  | cons a l ih => exact (h s a).trans (ih _)

theorem eachSlice {f : State → Nat → State} (h : ∀ s i, State.TearKeeps s (f s i)) (s : State) : State.TearKeeps s (s.eachSlice f) := foldl h _ s

theorem of_host (hsl : State.Agree SliceState.wires s t) (hj : t.job = s.job) (hl : t.load = s.load) (hh : t.host = s.host)
    (hp : t.pkg.reshapeArmed = s.pkg.reshapeArmed) : State.TearKeeps s t :=
  ⟨hsl, hj, hl, by rw [hh], by rw [hh], hp⟩

theorem onSl {i : Nat} {f : SliceState → SliceState} (h : ∀ x, (f x).wires = x.wires) : State.TearKeeps s (s.onSl i f) :=
  of_host (.onSl h) rfl rfl rfl rfl

theorem onSvc (i : Nat) (f : Service → Service) : State.TearKeeps s (s.onSvc i f) := onSl fun _ => rfl

theorem onCtx (c : Nat) (f : Ctx → Ctx) : State.TearKeeps s (s.onCtx c f) := of_host (.of_slices rfl) rfl rfl rfl rfl

theorem report (i : Nat) (r : Report) : State.TearKeeps s (s.report i r) := onSl fun _ => rfl

theorem cause (b : Nat) : State.TearKeeps s (s.cause b) := by
  have hm (t : State) (v : Nat) : State.TearKeeps t (t.msix v) := by
    unfold State.msix
    exact .ite (refl _) (.ite ⟨.of_slices rfl, rfl, rfl, rfl, rfl, rfl⟩ ⟨.of_slices rfl, rfl, rfl, rfl, rfl, rfl⟩)
  have ht : State.TearKeeps s { s with host := { s.host with evtCause := s.host.evtCause ||| 2 ^ b } } := ⟨.of_slices rfl, rfl, rfl, rfl, rfl, rfl⟩
  unfold State.cause
  dsimp only
  exact .ite (.comp (hm ..) ht) ht

theorem completeCmd (sl : Nat) (c : Cmd) (st : Status) (reason : Nat) (ring : Option Nat) : State.TearKeeps s (s.completeCmd sl c st reason ring) := by
  have hon (r : Nat) (f : Ring → Ring) : State.TearKeeps s (s.onRing r f) := ⟨.of_slices rfl, rfl, rfl, rfl, rfl, rfl⟩
  unfold State.completeCmd State.complete
  dsimp only
  exact .ite (.comp (report ..) ⟨.of_slices rfl, rfl, rfl, rfl, rfl, rfl⟩) (.ite (.comp (cause _) (hon ..)) (hon ..))

theorem endCmd (sl : Nat) (c : Cmd) (st : Status) (reason : Nat) : State.TearKeeps s (s.endCmd sl c st reason) :=
  .comp (completeCmd ..) (onSvc ..)

theorem endReqs (i : Nat) (p : Request → Bool) (a b : Drip) (st : Status) (l : Nat) : State.TearKeeps s (s.endReqs i p a b st l) :=
  of_host (.endReqs (π := SliceState.wires) fun _ _ _ _ => rfl) rfl rfl rfl rfl

theorem cancelPending (p : Nat → Cmd → Bool) : State.TearKeeps s (s.cancelPending p) :=
  .foldl (fun _ _ => .foldl (fun _ _ => endCmd ..) _ _) _ _

theorem stopCtx (c : Nat) : State.TearKeeps s (s.stopCtx c) := .comp (onCtx ..) (.foldl (fun _ _ => completeCmd ..) _ _)

theorem onAll {f : SliceState → SliceState} (h : ∀ x, (f x).wires = x.wires) : State.TearKeeps s (s.onAll f) := by
  refine of_host (fun i => ?_) rfl rfl rfl rfl
  by_cases hi : i < s.slices.length
  · rw [State.onAll_sl _ _ hi, h]
  · have hd (v : State) (hv : v.slices.length ≤ i) : v.sl i = {} := by
      unfold State.sl
      rw [List.getD_eq_getElem?_getD, List.getElem?_eq_none hv]
      rfl
    rw [hd _ (by rw [State.onAll_length]; omega), hd s (by omega)]

end State.TearKeeps

theorem SliceState.stopCtxThreads_wires (x : SliceState) (c : Nat) : (x.stopCtxThreads c).wires = x.wires := by
  unfold SliceState.stopCtxThreads
  refine foldl_agree (π := SliceState.wires) (fun y e => foldl_agree (π := SliceState.wires) (fun z t => ?_) _ _) _ _
  dsimp only
  split
  · have hn (w : SliceState) (u : Option Run) : (w.noComplete u).wires = w.wires := by
      cases u <;> rfl
    rw [hn]
    show (_, List.length (List.map _ _)) = _
    rw [List.length_map]
    rfl
  · rfl

theorem State.TearKeeps.tearCtx (s : State) (c : Nat) : State.TearKeeps s (s.tearCtx c) := by
  have hy (y : SliceState) (v : Service) (p : Pools) (k : Coll) : ({ y with svc := v, pools := p, coll := k } : SliceState).wires = y.wires := rfl
  unfold State.tearCtx
  dsimp only
  refine .ite (.onAll fun x => (hy _ _ _ _).trans (x.stopCtxThreads_wires c)) (.comp (.eachSlice (fun v i => ?_) _) (.comp (.cancelPending _) (.ite (.refl _) (.stopCtx _))))
  exact .comp (.onSl fun x => (hy _ _ _ _).trans (x.stopCtxThreads_wires c)) (.endReqs ..)

/-- The service state of a slice with its requests gone. -/
def Service.cleared (v : Service) : Service :=
  { v with
    pass := { v.pass with gone := v.pass.gone ++ v.reqs.filter fun r => r.frame == v.pass.frame }
    older := v.older.map fun p => { p with gone := p.gone ++ v.reqs.filter fun r => r.frame == p.frame }
    reqs := [], pending := [], copies := [], ledgerEnable := false, ledgerHead := 0, ledgerPhase := true }

/-- The state in which the requests of a slice are gone. -/
def State.requestsGone (s : State) (i : Nat) : State := (s.endReqs i (fun _ => true) s.now s.now .cancelled).onSvc i Service.cleared

theorem State.dropRequests_slices (s : State) (i : Nat) : (s.dropRequests i).slices = (s.requestsGone i).slices := rfl

theorem State.TearKeeps.dropRequests (s : State) (i : Nat) : State.TearKeeps s (s.dropRequests i) := by
  have h : State.TearKeeps s (s.requestsGone i) := .comp (.onSvc ..) (.endReqs ..)
  exact h.trans (.of_host (.of_slices (State.dropRequests_slices s i)) rfl rfl rfl rfl)

/-- A slice that holds no requests and no commands, with its ledger off. -/
def SliceState.quiet (x : SliceState) : Prop := x.svc.ledgerEnable = false ∧ x.svc.pending = [] ∧ x.svc.reqs = [] ∧ x.svc.copies = []

theorem State.dropRequests_quiet {s : State} {i : Nat} (hi : i < s.slices.length) : ((s.dropRequests i).sl i).quiet := by
  have h : (s.dropRequests i).sl i = _ :=
    ((s.endReqs i (fun _ => true) s.now s.now .cancelled).onSl_sl_self i (fun x => { x with svc := x.svc.cleared })
      (by rw [State.endReqs, State.onSl_length]; exact hi))
  rw [h]
  exact ⟨rfl, rfl, rfl, rfl⟩

theorem State.dropRequests_other {s : State} {i j : Nat} (h : j ≠ i) : (s.dropRequests i).sl j = s.sl j := by
  have h1 : (s.dropRequests i).sl j = (s.endReqs i (fun _ => true) s.now s.now .cancelled).sl j := State.onSl_sl_of_ne _ _ h
  exact h1.trans (State.onSl_sl_of_ne _ _ h)

/-- Once the requests of a list of slices are dropped, each of them is quiet. -/
theorem State.foldl_dropRequests_quiet {l : List Nat} {s : State} (hs : s.slices.length = 8) {i : Nat} (hi : i < 8) (h : i ∈ l ∨ (s.sl i).quiet) :
    ((l.foldl State.dropRequests s).sl i).quiet := by
  induction l generalizing s with
  | nil => exact h.resolve_left List.not_mem_nil
  | cons a l ih =>
    have hlen : (s.dropRequests a).slices.length = 8 := by
      rw [State.dropRequests_slices]
      exact (State.onSl_length ..).trans ((State.onSl_length ..).trans hs)
    by_cases hia : i = a
    · subst hia
      exact ih hlen (.inr (State.dropRequests_quiet (by omega)))
    · refine ih hlen (h.imp (fun hm => (List.mem_cons.1 hm).resolve_left hia) fun hq => ?_)
      rwa [State.dropRequests_other hia]

/-- The state in which the contexts of the device have ended and its requests are gone. -/
def State.hushed (s : State) : State := ((s.ctxs.map (·.ctx)).foldl State.tearCtx s).eachSlice State.dropRequests

theorem State.hushed_keeps (s : State) : State.TearKeeps s s.hushed :=
  .comp (.eachSlice .dropRequests _) (.foldl .tearCtx _ _)

theorem State.hushed_quiet {s : State} (hs : s.Inv) {i : Nat} (hi : i < 8) : (s.hushed.sl i).quiet := by
  have ht : ((s.ctxs.map (·.ctx)).foldl State.tearCtx s).Inv := (State.Keeps.foldl (fun _ _ => .tearCtx ..) _ _).2 hs
  exact State.foldl_dropRequests_quiet ht.1.1 hi (.inl (List.mem_range.2 hi))

/-- A head that was loading is held. -/
def State.holdHead (u : State) : State := if u.load.st = 1 ∧ u.load.head then u.setLoad 2 u.load.status else u

theorem State.functionReset_eq (s : State) :
    s.functionReset =
      let w := s.hushed.holdHead.onAll fun x => { x with pools := { x.pools with ownerSel := 0 } }
      ({ w with ctxs := [], tears := [], host := w.host.afterReset {}, dict := w.dict.windowReset } : State).hostReport := rfl

/-- What holding the head's load leaves. -/
theorem State.holdHead_spec (u : State) :
    u.holdHead.slices = u.slices ∧ u.holdHead.job = u.job ∧ u.holdHead.host.hostResets = u.host.hostResets ∧
      (u.holdHead.host.linkUp, u.holdHead.host.bar2Size) = (u.host.linkUp, u.host.bar2Size) ∧
      (u.load.st = 1 → u.load.head = true → u.holdHead.load.st = 2) := by
  have hset : (u.setLoad 2 u.load.status).slices = u.slices ∧ (u.setLoad 2 u.load.status).job = u.job ∧
      (u.setLoad 2 u.load.status).host.hostResets = u.host.hostResets ∧
      ((u.setLoad 2 u.load.status).host.linkUp, (u.setLoad 2 u.load.status).host.bar2Size) = (u.host.linkUp, u.host.bar2Size) ∧
      (u.setLoad 2 u.load.status).load.st = 2 := by
    unfold State.setLoad
    dsimp only
    split
    · exact ⟨rfl, rfl, rfl, rfl, rfl⟩
    · have h := State.TearKeeps.cause (s := { u with load := { u.load with st := 2, status := u.load.status } }) 1
      exact ⟨State.cause_slices .., h.job, h.resets, h.link, congrArg Load.st h.load⟩
  unfold State.holdHead
  by_cases hc : u.load.st = 1 ∧ u.load.head = true
  · rw [if_pos hc]
    obtain ⟨h1, h2, h3, h4, h5⟩ := hset
    exact ⟨h1, h2, h3, h4, fun _ _ => h5⟩
  · rw [if_neg hc]
    exact ⟨rfl, rfl, rfl, rfl, fun h1 h2 => absurd ⟨h1, h2⟩ hc⟩

theorem HostPort.afterReset_spec (h : HostPort) :
    (h.afterReset {}).hostResets = h.hostResets + 1 ∧ (h.afterReset {}).chanSel = 0 ∧ (h.afterReset {}).bme = false ∧
      (h.afterReset {}).msixEnable = false ∧ (h.afterReset {}).evtCause = 0 ∧ (h.afterReset {}).reads = [] ∧
      (∀ c, (h.afterReset {}).chans.getD c [] = []) ∧ (∀ v : Fin 64, (h.afterReset {}).masked v = true) ∧
      ∀ r : Fin 64, ((h.afterReset {}).rings.getD r {}).enable = false ∧ ((h.afterReset {}).rings.getD r {}).held = [] := by
  refine ⟨rfl, rfl, rfl, rfl, rfl, rfl, fun c => ?_, fun v => ?_, fun r => ?_⟩
  · show (List.replicate 18 []).getD c [] = []
    rw [List.getD_eq_getElem?_getD, List.getElem?_replicate]
    split <;> rfl
  · show (false || (((List.replicate 64 (zeros 12 ++ [1#8, 0#8, 0#8, 0#8])).getD v []).getD 12 0).toNat.testBit 0) = true
    rw [List.getD_replicate _ v.isLt]
    decide
  · show (((h.rings.zipIdx.map fun k => { base := k.1.base, entries := k.1.entries, vector := k.2 } : List Machine.Ring)).getD r {}).enable = false ∧
      (((h.rings.zipIdx.map fun k => { base := k.1.base, entries := k.1.entries, vector := k.2 } : List Machine.Ring)).getD r {}).held = []
    rw [List.getD_eq_getElem?_getD, List.getElem?_map]
    cases h.rings.zipIdx[(r : Nat)]? <;> exact ⟨rfl, rfl⟩

/-- The host port once its function has been reset. -/
theorem State.functionReset_host (s : State) : s.functionReset.host = s.hushed.holdHead.host.afterReset {} := rfl

/-- What every slice tells after the reset, as far as neither its error records nor its pool selector show. -/
theorem State.functionReset_agree (s : State) {β : Type} {π : SliceState → β} (he : ∀ x e, π { x with err := e } = π x)
    (hp : ∀ x p, π { x with pools := p } = π x) (hs : s.Inv) {i : Nat} (hi : i < 8) : π (s.functionReset.sl i) = π (s.hushed.sl i) := by
  have hk := s.hushed.holdHead_spec.1
  have hlen : s.hushed.slices.length = 8 :=
    ((State.Keeps.comp (.eachSlice (fun _ _ => .dropRequests ..) _) (.foldl (fun _ _ => .tearCtx ..) _ _)).2 hs).1.1
  rw [State.functionReset_eq]
  dsimp only
  have hr := State.Agree.report (π := π) (i := 0) (r := mkReport 0x18 14 0) he (s := ({ s.hushed.holdHead.onAll fun x => { x with pools := { x.pools with ownerSel := 0 } } with
    ctxs := [], tears := [], host := (s.hushed.holdHead.host.afterReset {}), dict := s.hushed.holdHead.dict.windowReset } : State)) i
  refine hr.trans ?_
  show π ((s.hushed.holdHead.onAll _).sl i) = _
  rw [State.onAll_sl _ _ (by rw [hk, hlen]; exact hi), hp, State.sl, hk, ← State.sl]

/-- What a reset of the host function leaves of the device. -/
def State.resetQuiet (s t : State) : Prop :=
  t.ctxs = [] ∧ t.job = s.job ∧ t.host.hostResets = s.host.hostResets + 1 ∧ t.host.chanSel = 0 ∧ t.host.bme = false ∧ t.host.msixEnable = false ∧
    t.host.evtCause = 0 ∧ t.host.reads = [] ∧ (∀ c, t.host.chans.getD c [] = []) ∧ (∀ v : Fin 64, t.host.masked v = true) ∧
    (∀ r : Fin 64, (t.host.rings.getD r {}).enable = false ∧ (t.host.rings.getD r {}).held = []) ∧
    (∀ i : SliceId, (t.sl i).svc.ledgerEnable = false ∧ (t.sl i).svc.pending = [] ∧ (t.sl i).svc.reqs = [] ∧ (t.sl i).svc.copies = [] ∧
      (t.sl i).ports = (s.sl i).ports ∧ (t.sl i).fabric.outMsgs.length = (s.sl i).fabric.outMsgs.length) ∧
    (s.load.st = 1 → s.load.head = true → t.load.st = 2)

theorem State.functionReset_quiet {s : State} (hs : s.Inv) : s.resetQuiet s.functionReset := by
  have hk := s.hushed_keeps
  obtain ⟨-, hj, hres, -, hld⟩ := s.hushed.holdHead_spec
  obtain ⟨h1, h2, h3, h4, h5, h6, h7, h8, h9⟩ := s.hushed.holdHead.host.afterReset_spec
  refine ⟨rfl, hj.trans hk.job, ?_, h2, h3, h4, h5, h6, h7, h8, h9, fun i => ?_, fun ha hb => ?_⟩
  · rw [State.functionReset_host, h1, hres, hk.resets]
  · have hsvc := State.functionReset_agree s (π := SliceState.svc) (fun _ _ => rfl) (fun _ _ => rfl) hs i.isLt
    have hw := (State.functionReset_agree s (π := SliceState.wires) (fun _ _ => rfl) (fun _ _ => rfl) hs i.isLt).trans (hk.agree i)
    obtain ⟨hw1, hw2⟩ := Prod.mk.inj hw
    obtain ⟨q1, q2, q3, q4⟩ := State.hushed_quiet hs i.isLt
    rw [hsvc]
    exact ⟨q1, q2, q3, q4, hw1, hw2⟩
  · exact hld (by rw [hk.load]; exact ha) (by rw [hk.load]; exact hb)

/-- The link that a reset takes down changes nothing of this. -/
theorem State.resetQuiet.linkDown {s t : State} (h : s.resetQuiet t) :
    s.resetQuiet { t with host := { t.host with linkUp := false, width := 0, speed := 0, bar2Size := 36 } } := h

theorem execPerstN_eq (k : HostReset) (s : State) :
    exec (.perstN k) s = .next { s.functionReset with host := { s.functionReset.host with linkUp := false, width := 0, speed := 0, bar2Size := 36 } } := by
  cases k <;> rfl

/-- Settles O58: the end of the contexts and of the requests leaves the port and its link alone, and the registers come from the reset
values, `HostPort.afterReset_spec`. -/
theorem hostResets : Obligations.HostResets := by
  unfold Obligations.HostResets
  intro s hs
  have hlink : (s.functionReset.host.linkUp, s.functionReset.host.bar2Size) = (s.host.linkUp, s.host.bar2Size) := by
    obtain ⟨-, -, -, hl, -⟩ := s.hushed.holdHead_spec
    exact hl.trans s.hushed_keeps.link
  refine ⟨⟨s.functionReset, rfl, State.functionReset_quiet hs, (Prod.mk.inj hlink).1, (Prod.mk.inj hlink).2⟩, fun k => ?_, ?_, ?_, fun w v h1 h2 h3 h4 => ?_,
    fun w v h => ?_⟩
  · exact ⟨_, execPerstN_eq k s, (State.functionReset_quiet hs).linkDown, rfl, rfl⟩
  · obtain ⟨hb, hl, hj, -, hc, hh⟩ := State.stallDma_spec { s with host := { s.host with linkUp := false, width := 0, speed := 0 } }
    exact ⟨_, rfl, hl, hb, hc, hj, fun r k hk => hh r k hk⟩
  · obtain ⟨hb, hl, hj, -, hc, -⟩ := State.stallDma_spec { s with host := { s.host with bme := false } }
    exact ⟨_, rfl, hl, hb, hc, hj⟩
  · exact if_pos ⟨h1, h2, h3, h4⟩
  · exact if_neg (by omega)

end Sys2Proof.Machine
end

section
/-! Items of a load as they arrive. -/

namespace Sys2Proof.Machine

/-! ### Loads that fail -/

theorem State.setLoad_spec (s : State) (a b : Nat) : (s.setLoad a b).load = { s.load with st := a, status := b } ∧ (s.setLoad a b).job = s.job ∧
    (s.setLoad a b).slices = s.slices ∧ (s.setLoad a b).still = s.still ∧ (s.setLoad a b).epochs = s.epochs ∧ (s.setLoad a b).hot = s.hot ∧
    (s.setLoad a b).pkg = s.pkg := by
  unfold State.setLoad
  dsimp only
  split
  · exact ⟨rfl, rfl, rfl, rfl, rfl, rfl, rfl⟩
  · exact ⟨State.cause_load .., State.cause_job .., State.cause_slices .., State.cause_still .., State.cause_epochs .., State.cause_hot .., State.cause_pkg ..⟩

theorem State.failLoad_spec (s : State) (st : Status) (a b : Nat) :
    (s.failLoad st a b).load.st = 4 ∧ (s.failLoad st a b).load.status = st.code ∧ (s.failLoad st a b).load.nextSeq = s.load.nextSeq ∧
      (s.failLoad st a b).job = s.job := by
  obtain ⟨hl, hj, -⟩ := s.setLoad_spec 4 st.code
  obtain ⟨h1, h2⟩ := s.failLoad_load st a b
  refine ⟨h1, h2, ?_⟩
  unfold State.failLoad
  dsimp only
  have hn : (s.setLoad 4 st.code).load.nextSeq = s.load.nextSeq := by rw [hl]
  split
  · exact ⟨hn, hj⟩
  · split <;> exact ⟨hn, hj⟩

/-- An item whose load fails with a status: the items before it still count. -/
def State.itemFails (s t : State) (st : Status) : Prop :=
  t.load.st = 4 ∧ t.load.status = st.code ∧ t.load.nextSeq = s.load.nextSeq ∧ t.job = s.job

/-- The part of the load that an item which is taken finds. -/
structure State.LoadAlike (s u : State) : Prop where
  st : u.load.st = s.load.st
  items : u.load.items = s.load.items
  nextSeq : u.load.nextSeq = s.load.nextSeq
  history : u.load.history = s.load.history
  toForward : u.load.toForward = s.load.toForward
  next : u.load.next = s.load.next
  stopped : u.load.stopped = s.load.stopped
  job : u.job = s.job

theorem State.LoadAlike.fails {s u : State} (h : s.LoadAlike u) (st : Status) (a b : Nat) : s.itemFails (u.failLoad st a b) st := by
  obtain ⟨h1, h2, h3, h4⟩ := u.failLoad_spec st a b
  exact ⟨h1, h2, h3.trans h.nextSeq, h4.trans h.job⟩

/-- An item that is complete. -/
def State.itemOk (s : State) (i : LoadItem) (t : State) : Prop :=
  t.load.st = 1 ∧ t.load.items = s.load.items + 1 ∧ t.load.nextSeq = s.load.nextSeq + 1 ∧ t.load.history = s.load.history ++ [i] ∧
    t.load.toForward = (if s.load.next.isSome && !s.load.stopped then s.load.toForward ++ [i] else s.load.toForward) ∧ t.job = s.job

theorem State.LoadAlike.done {s u : State} (h : s.LoadAlike u) (hst : s.load.st = 1) (i : LoadItem) : s.itemOk i (u.itemDone i) := by
  refine ⟨h.st.trans hst, congrArg (· + 1) h.items, congrArg (· + 1) h.nextSeq, congrArg (· ++ [i]) h.history, ?_, h.job⟩
  show (if u.load.next.isSome && !u.load.stopped then u.load.toForward ++ [i] else u.load.toForward) = _
  rw [h.next, h.stopped, h.toForward]

/-! ### Items that arrive -/

/-- The state in which the next item of a load goes on to what its kind asks. -/
def State.admitted (s : State) (i : LoadItem) : State :=
  { s with load := { s.load with updateEpoch := if s.load.target = 5 then some (s.load.updateEpoch.getD i.epoch) else none } }

theorem State.LoadAlike.admitted (s : State) (i : LoadItem) : s.LoadAlike (s.admitted i) := ⟨rfl, rfl, rfl, rfl, rfl, rfl, rfl, rfl⟩

theorem State.itemArrives_of_ne {s : State} (h : s.load.st ≠ 2) (i : LoadItem) : s.itemArrives i = s := if_neg (by simp [h])

section
variable {s : State} {i : LoadItem} {kind : Nat} (hk : i.kind = kind)
include hk

theorem State.takeItem_next (f : State → State) (hst : s.load.st = 1) (he : s.load.ended = false) (hseq : i.seq = s.load.nextSeq)
    (ho : s.loadOpen = true) (hw : itemWhole i = true) : s.takeItem kind i f = f (s.admitted i) := by
  unfold State.takeItem
  dsimp only
  rw [State.itemArrives_of_ne (by omega), if_neg (by simp [hk, ho]), if_neg (by simp [hst, he, hseq]), if_neg (by simp [hw]), if_neg (by simp [hseq])]
  rfl

theorem State.takeItem_bad (f : State → State) (hst : s.load.st = 1) (he : s.load.ended = false) (hseq : i.seq = s.load.nextSeq)
    (ho : s.loadOpen = true) (hw : itemWhole i = false) : s.takeItem kind i f = s.itemBad i := by
  unfold State.takeItem
  dsimp only
  rw [State.itemArrives_of_ne (by omega), if_neg (by simp [hk, ho]), if_neg (by simp [hst, he, hseq]), if_pos (by simp [hw])]

theorem State.takeItem_again (f : State → State) (hst : s.load.st = 1 ∨ s.load.st = 3) (hseq : i.seq < s.load.nextSeq)
    (ho : s.loadOpen = true) (hw : itemWhole i = true) : s.takeItem kind i f = s.passItem i := by
  have ha : ((s.load.st = 1 || s.load.st = 2 || s.load.st = 3) && decide (i.seq < s.load.nextSeq)) = true := by
    rcases hst with h | h <;> simp [h, hseq]
  unfold State.takeItem
  dsimp only
  rw [State.itemArrives_of_ne (by omega), ha, if_neg (by simp [hk, ho]), if_neg (by simp), if_neg (by simp [hw]), if_pos rfl]

theorem State.takeItem_ignores (f : State → State) (hst : s.load.st = 1)
    (h : s.load.nextSeq < i.seq ∨ (s.load.ended = true ∧ s.load.nextSeq ≤ i.seq) ∨ s.loadOpen = false) : s.takeItem kind i f = s := by
  unfold State.takeItem
  dsimp only
  rw [State.itemArrives_of_ne (by omega)]
  by_cases ho : s.loadOpen = true
  · rw [if_neg (by simp [hk, ho])]
    refine if_pos ?_
    rcases h with h | ⟨h1, h2⟩ | h
    · have hlt : ¬ i.seq < s.load.nextSeq := by omega
      have hne : i.seq ≠ s.load.nextSeq := by omega
      simp [hlt, hne]
    · have hlt : ¬ i.seq < s.load.nextSeq := by omega
      simp [hlt, h1]
    · rw [h] at ho
      cases ho
  · exact if_pos (by simp [ho])

/-- A HELD device takes the item as one in LOADING does. -/
theorem State.takeItem_held (f : State → State) (hst : s.load.st = 2) (hc : i.chain = chainNo s.load.chain) (hl : i.loadId = chainLoad s.load.chain)
    (ho : s.loadOpen = true) (he : s.load.ended = false) (hseq : i.seq ≤ s.load.nextSeq) :
    s.takeItem kind i f = (s.setLoad 1 0).takeItem kind i f := by
  obtain ⟨hload, -, hsl, hstill, -⟩ := s.setLoad_spec 1 0
  have ha : s.itemArrives i = s.setLoad 1 0 := if_pos (by simp [hst, hc, hl])
  have ha' : (s.setLoad 1 0).itemArrives i = s.setLoad 1 0 := State.itemArrives_of_ne (by rw [hload]; show (1 : Nat) ≠ 2; decide) i
  have ho' : (s.setLoad 1 0).loadOpen = true := by
    unfold State.loadOpen at ho ⊢
    rw [hload, hsl, hstill]
    exact ho
  unfold State.takeItem
  dsimp only
  rw [ha, ha', if_neg (by simp [hk, ho']), if_neg (c := (i.kind != kind || !(s.setLoad 1 0).loadOpen) = true) (by simp [hk, ho']), hload]
  have hgo : ¬ (!((decide (1 = 1) || decide (1 = 2) || decide (1 = 3)) && decide (i.seq < s.load.nextSeq)) &&
      ((1 : Nat) != 1 || s.load.ended || i.seq != s.load.nextSeq)) = true := by
    rcases Nat.lt_or_eq_of_le hseq with h | h <;> simp [h, he]
  rw [if_neg hgo, if_neg hgo]

end

/-- The commands that bring an item, by their kinds. -/
def itemCommands (i : LoadItem) (img : Image) (m : List (Nat × List (Nat × Nat))) : List (Nat × Instr) :=
  [(0x11, Instr.imageItem i img), (0x12, Instr.manifestItem i), (0x13, Instr.tileItem i), (0x14, Instr.panelItem i),
    (0x15, Instr.placementItem i), (0x16, Instr.mapItem i m), (0x17, Instr.endItem i)]

/-- Each of them takes its item. -/
theorem itemCommands_take {i : LoadItem} {img : Image} {m : List (Nat × List (Nat × Nat))} {c : Nat × Instr} (hc : c ∈ itemCommands i img m) :
    ∃ f : State → State, ∀ s, exec c.2 s = .next (s.takeItem c.1 i f) := by
  simp only [itemCommands, List.mem_cons, List.not_mem_nil, or_false] at hc
  rcases hc with rfl | rfl | rfl | rfl | rfl | rfl | rfl <;> exact ⟨_, fun _ => rfl⟩

theorem State.itemBad_first {s : State} (h : s.load.retried = false) (i : LoadItem) :
    (s.itemBad i).load = { s.load with retried := true } ∧ (s.itemBad i).job = s.job := by
  unfold State.itemBad
  rw [h]
  exact ⟨rfl, rfl⟩

theorem State.itemBad_second {s : State} (h : s.load.retried = true) (i : LoadItem) : s.itemBad i = s.failLoad .checksum i.seq i.id := if_pos h

end Sys2Proof.Machine
end

section
/-! Items of a load that are written. -/

namespace Sys2Proof.Machine

/-! ### Items that are written -/

/-- What writing an item leaves of the state: the slices and their tags alone change. -/
theorem State.writeItem_rest (s : State) (i : LoadItem) : (s.writeItem i).load = s.load ∧ (s.writeItem i).job = s.job := by
  have h (l : List (Nat × Nat)) (t : State) : (l.foldl (fun (t : State) o =>
      let u := t.onSl o.1 fun x => x.store (o.2 + 65536 * i.part) i.payload
      if s.load.target ≤ 4 then u.tagWrite o.1 (o.2 + 65536 * i.part) i.payload else u) t).load = t.load ∧
      (l.foldl (fun (t : State) o =>
      let u := t.onSl o.1 fun x => x.store (o.2 + 65536 * i.part) i.payload
      if s.load.target ≤ 4 then u.tagWrite o.1 (o.2 + 65536 * i.part) i.payload else u) t).job = t.job := by
    have htag (v : State) (a b : Nat) (c : Bytes) : ((v.tagWrite a b c).load, (v.tagWrite a b c).job) = (v.load, v.job) := by
      unfold State.tagWrite
      split <;> rfl
    have hp := foldl_agree (π := fun t : State => (t.load, t.job)) (f := fun (t : State) (o : Nat × Nat) =>
      let u := t.onSl o.1 fun x => x.store (o.2 + 65536 * i.part) i.payload
      if s.load.target ≤ 4 then u.tagWrite o.1 (o.2 + 65536 * i.part) i.payload else u) (fun t o => by
        dsimp only
        split
        · exact htag ..
        · rfl) l t
    exact Prod.mk.inj hp
  exact h _ s

/-- The bytes of an item stand where the map names it. -/
def State.itemPlaced (s : State) (i : LoadItem) (t : State) : Prop := ∀ (sl : SliceId) (a : Nat), s.load.places i.id = [(sl.val, a)] →
  (t.sl sl).load (a + 65536 * i.part) i.payload.length = i.payload ∧
  SameBytesOutside (s.sl sl) (t.sl sl) (a + 65536 * i.part) i.payload.length

theorem State.writeItem_placed {s : State} (hs : s.Inv) (i : LoadItem) : s.itemPlaced i (s.writeItem i) := by
  intro sl a hp
  have hmem := (hs.sl sl.isLt).1
  have htag (v : State) (b : Nat) (c : Bytes) : ((v.tagWrite sl b c).sl sl).mem = (v.sl sl).mem := by
    have hag : State.Agree SliceState.mem v (v.tagWrite sl b c) := .ite (.refl _) (.onSl fun _ => rfl)
    exact hag sl
  have hu : ((s.writeItem i).sl sl).mem = ((s.sl sl).store (a + 65536 * i.part) i.payload).mem := by
    have hself : (s.onSl sl fun x => x.store (a + 65536 * i.part) i.payload).sl sl = _ := s.onSl_sl_self _ _ (hs.slices_lt sl)
    unfold State.writeItem
    rw [hp]
    dsimp only [List.foldl_cons, List.foldl_nil]
    split
    · rw [htag, hself]
    · rw [hself]
  refine ⟨?_, fun d hd => ?_⟩
  · unfold SliceState.load
    rw [hu]
    exact SliceState.load_store hmem ..
  · rw [hu]
    exact Memory.read_writeBytes_outside hmem hd

/-- The state in which an item has been written and its ID noted. -/
def State.wrote (u : State) (i : LoadItem) (w : List Nat → List Nat) (o : Option (Nat × Nat × Nat × Bytes) → Option (Nat × Nat × Nat × Bytes)) : State :=
  let v := u.writeItem i
  { v with load := { v.load with written := w v.load.written, open_ := o v.load.open_ } }

theorem State.wrote_load (u : State) (i : LoadItem) (w : List Nat → List Nat) (o : Option (Nat × Nat × Nat × Bytes) → Option (Nat × Nat × Nat × Bytes)) :
    (u.wrote i w o).load.written = w u.load.written ∧ (u.wrote i w o).load.open_ = o u.load.open_ := by
  obtain ⟨hl, -⟩ := u.writeItem_rest i
  exact ⟨congrArg (fun l : Load => w l.written) hl, congrArg (fun l : Load => o l.open_) hl⟩

theorem State.LoadAlike.wrote {s u : State} (h : s.LoadAlike u) (i : LoadItem) (w : List Nat → List Nat)
    (o : Option (Nat × Nat × Nat × Bytes) → Option (Nat × Nat × Nat × Bytes)) : s.LoadAlike (u.wrote i w o) := by
  obtain ⟨hl, hj⟩ := u.writeItem_rest i
  refine ⟨?_, ?_, ?_, ?_, ?_, ?_, ?_, hj.trans h.job⟩
  · exact (congrArg Load.st hl).trans h.st
  · exact (congrArg Load.items hl).trans h.items
  · exact (congrArg Load.nextSeq hl).trans h.nextSeq
  · exact (congrArg Load.history hl).trans h.history
  · exact (congrArg Load.toForward hl).trans h.toForward
  · exact (congrArg Load.next hl).trans h.next
  · exact (congrArg Load.stopped hl).trans h.stopped

/-! ### Whether a load is a repair -/

/-- The load once an item has shown whether it is a repair. -/
theorem State.noRepair_cases {t u : State} (h : t.noRepair = some u) :
    (u = t ∧ (t.load.target ≠ 5 ∨ t.load.repair = false)) ∨ (u = { t with load := { t.load with repair := false } } ∧ t.load.target = 5) := by
  unfold State.noRepair at h
  split at h
  · next hc => exact .inl ⟨(Option.some.inj h).symm, by simpa using hc⟩
  · next hc =>
    split at h
    · cases h
    · exact .inr ⟨(Option.some.inj h).symm, (by simpa using hc : t.load.target = 5 ∧ t.load.repair = true).1⟩

theorem State.noRepair_of_not {t : State} (h : t.load.repair = false) : t.noRepair = some t := if_pos (by simp [h])

/-! ### Tiles -/

/-- A tile that the set holds with this CRC. -/
def State.sameTile (t : State) (r : CrcRecord) : Bool := t.epochs.manifest.any fun k => k.id == r.id && k.crc == r.crc

theorem State.sameTile_iff (t : State) (r : CrcRecord) : t.sameTile r = true ↔ ∃ k ∈ t.epochs.manifest, k.id = r.id ∧ k.crc = r.crc := by
  simp [State.sameTile]

/-- A tile of an update that is new to the set and to the map. -/
def State.newTile (t : State) (i : LoadItem) (r : CrcRecord) : Bool := t.load.target = 5 && !t.sameTile r && (t.load.places i.id).isEmpty

/-- The tile states what its record says. -/
def CrcRecord.statesTile (r : CrcRecord) (b : Bytes) : Prop := r.crc = thCrc (leNat (b.take 32)) ∧ r.length = b.length

/-- What becomes of a tile, once it is known whether the load is a repair. -/
def State.judgeTile (u : State) (i : LoadItem) (r : CrcRecord) (same : Bool) : State :=
  if r.crc != thCrc (leNat (i.payload.take 32)) || r.length != i.payload.length || !(!u.load.repair || same) then
    u.failLoad .checksum i.seq i.id
  else if !u.rangeFree i r.length then u.failLoad .fault i.seq i.id
  else (u.wrote i (· ++ [i.id]) id).itemDone i

theorem State.judgeTile_refuses {u : State} {i : LoadItem} {r : CrcRecord} {same : Bool}
    (h : ¬ r.statesTile i.payload ∨ (u.load.repair = true ∧ same = false)) : u.judgeTile i r same = u.failLoad .checksum i.seq i.id := by
  refine if_pos ?_
  rcases h with h | ⟨h1, h2⟩
  · rw [Bool.or_eq_true]
    refine .inl ?_
    by_contra hn
    rw [Bool.or_eq_true, not_or, bne_iff_ne, bne_iff_ne, ne_eq, ne_eq, not_not, not_not] at hn
    exact h hn
  · simp [h1, h2]

theorem State.judgeTile_takes {u : State} {i : LoadItem} {r : CrcRecord} {same : Bool} (hst : r.statesTile i.payload)
    (h : u.load.repair = false ∨ same = true) (hf : u.rangeFree i r.length = true) :
    u.judgeTile i r same = (u.wrote i (· ++ [i.id]) id).itemDone i := by
  obtain ⟨h1, h2⟩ := hst
  unfold State.judgeTile
  rw [if_neg (by rcases h with h | h <;> simp [← h1, h2, h]), if_neg (by simp [hf])]

/-- A tile whose record is known. -/
def State.takeTile (t : State) (i : LoadItem) (r : CrcRecord) : State :=
  if t.newTile i r && t.noRepair.isNone then t.failLoad .fault i.seq i.id
  else (if t.newTile i r then t.noRepair.getD t else t).judgeTile i r (t.sameTile r)

/-- A tile that is not new, or a load that is no repair. -/
theorem State.takeTile_stays {t : State} {i : LoadItem} {r : CrcRecord} (h : t.newTile i r = true → t.noRepair = some t) :
    t.takeTile i r = t.judgeTile i r (t.sameTile r) := by
  unfold State.takeTile
  by_cases hc : t.newTile i r = true
  · rw [h hc, if_neg (by simp), if_pos hc]
    rfl
  · rw [if_neg (by simp [hc]), if_neg hc]

/-- A new tile shows that the load is no repair. -/
theorem State.takeTile_shows {t u : State} {i : LoadItem} {r : CrcRecord} (hc : t.newTile i r = true) (h : t.noRepair = some u) :
    t.takeTile i r = u.judgeTile i r (t.sameTile r) := by
  unfold State.takeTile
  rw [h, if_neg (by simp), if_pos hc]
  rfl

section
variable {s : State} {i : LoadItem} (hst : s.load.st = 1) (he : s.load.ended = false) (hseq : i.seq = s.load.nextSeq)
  (ho : s.loadOpen = true) (hw : itemWhole i = true)
include hst he hseq ho hw

theorem execTileItem_next (hk : i.kind = 0x13) (hm : idMatrix i.id < 14) (hp : i.part = 0) (hps : i.parts = 1) :
    exec (.tileItem i) s = .next (match s.load.record? i.id with
      | none => (s.admitted i).failLoad .fault i.seq i.id
      | some r => (s.admitted i).takeTile i r) := by
  refine congrArg Host.Outcome.next ((State.takeItem_next hk _ hst he hseq ho hw).trans ((if_neg ?_).trans ?_))
  · simp [Nat.not_le.2 hm, hp, hps]
  · show (match s.load.record? i.id with | none => _ | some r => _) = _
    cases s.load.record? i.id <;> rfl

end

theorem State.LoadAlike.of_eq {s u v : State} (h : s.LoadAlike u) (e : v = u ∨ v = { u with load := { u.load with repair := false } }) : s.LoadAlike v := by
  rcases e with rfl | rfl
  · exact h
  · exact ⟨h.st, h.items, h.nextSeq, h.history, h.toForward, h.next, h.stopped, h.job⟩

/-- An item that has been written is placed, and what it notes is noted. -/
theorem State.itemPlaced.wrote {s u : State} (h : s.itemPlaced i (u.writeItem i)) (w : List Nat → List Nat)
    (o : Option (Nat × Nat × Nat × Bytes) → Option (Nat × Nat × Nat × Bytes)) : s.itemPlaced i ((u.wrote i w o).itemDone i) := h

end Sys2Proof.Machine
end

section
/-! Parts of panels and tables, and the other items. -/

namespace Sys2Proof.Machine

/-! ### Parts of panels and tables -/

/-- What becomes of a part, once it is known whether the load is a repair. -/
def State.judgePart (t : State) (i : LoadItem) (r : CrcRecord) (crcOf : Bytes → Option Nat) (accept : Bytes → Bool) : State :=
  if !t.rangeFree i r.length then t.failLoad .fault i.seq i.id else
  let all := (match t.load.open_ with | some o => o.2.2.2 | none => []) ++ i.payload
  if i.part + 1 = i.parts then
    if crcOf all != some r.crc || r.length != all.length then t.failLoad .checksum i.seq i.id
    else if !accept all then t.failLoad .fault i.seq i.id
    else (t.wrote i (· ++ [i.id]) fun _ => none).itemDone i
  else (t.wrote i id fun _ => some (i.id, i.part + 1, i.parts, all)).itemDone i

theorem State.partItem_eq {t u : State} {i : LoadItem} {idOk : Bool} {r : CrcRecord} (hid : idOk = true) (hp : t.load.partOk i = true)
    (hu : t.noRepair = some u) (hr : u.load.record? i.id = some r) (crcOf : Bytes → Option Nat) (accept : Bytes → Bool) :
    t.partItem i idOk crcOf accept = u.judgePart i r crcOf accept := by
  unfold State.partItem
  rw [if_neg (by simp [hid, hp, hu]), hu]
  dsimp only [Option.getD_some]
  rw [hr]
  rfl

/-- The bytes of a panel or table so far. -/
def State.partsSoFar (s : State) (i : LoadItem) : Bytes := (match s.load.open_ with | some o => o.2.2.2 | none => []) ++ i.payload

section
variable {s u : State} {i : LoadItem} {r : CrcRecord} {crcOf : Bytes → Option Nat} {accept : Bytes → Bool}
  (ha : s.LoadAlike u) (hst : s.load.st = 1) (hopen : u.load.open_ = s.load.open_) (hwr : u.load.written = s.load.written)
  (hplaced : s.itemPlaced i (u.writeItem i)) (hf : u.rangeFree i r.length = true)
include ha hst hopen hwr hplaced hf

/-- A part that is not the last. -/
theorem State.judgePart_more (hl : i.part + 1 ≠ i.parts) :
    s.itemOk i (u.judgePart i r crcOf accept) ∧ s.itemPlaced i (u.judgePart i r crcOf accept) ∧
      (u.judgePart i r crcOf accept).load.written = s.load.written ∧
      (u.judgePart i r crcOf accept).load.open_ = some (i.id, i.part + 1, i.parts, s.partsSoFar i) := by
  have he : u.judgePart i r crcOf accept = (u.wrote i id fun _ => some (i.id, i.part + 1, i.parts, s.partsSoFar i)).itemDone i := by
    unfold State.judgePart State.partsSoFar
    rw [if_neg (by simp [hf]), hopen]
    exact if_neg hl
  rw [he]
  obtain ⟨h1, h2⟩ := u.wrote_load i id fun _ => some (i.id, i.part + 1, i.parts, s.partsSoFar i)
  exact ⟨(ha.wrote i _ _).done hst i, hplaced.wrote _ _, h1.trans hwr, h2⟩

omit hst hplaced hwr in
/-- A last part whose whole is not what its record states. -/
theorem State.judgePart_checksum (hl : i.part + 1 = i.parts) (hc : ¬ (crcOf (s.partsSoFar i) = some r.crc ∧ r.length = (s.partsSoFar i).length)) :
    s.itemFails (u.judgePart i r crcOf accept) .checksum := by
  have he : u.judgePart i r crcOf accept = u.failLoad .checksum i.seq i.id := by
    unfold State.judgePart
    rw [if_neg (by simp [hf]), hopen, if_pos hl]
    refine if_pos ?_
    rw [Bool.or_eq_true, bne_iff_ne, bne_iff_ne]
    exact not_and_or.1 hc
  rw [he]
  exact ha.fails ..

omit hst hplaced hwr in
theorem State.judgePart_refused (hl : i.part + 1 = i.parts) (hc : crcOf (s.partsSoFar i) = some r.crc ∧ r.length = (s.partsSoFar i).length)
    (hn : accept (s.partsSoFar i) = false) : s.itemFails (u.judgePart i r crcOf accept) .fault := by
  obtain ⟨h1, h2⟩ := hc
  have he : u.judgePart i r crcOf accept = u.failLoad .fault i.seq i.id := by
    unfold State.partsSoFar at h1 h2 hn
    unfold State.judgePart
    rw [if_neg (by simp [hf]), hopen, if_pos hl]
    rw [if_neg (by rw [h1, ← h2]; simp), if_pos (by rw [hn]; rfl)]
  rw [he]
  exact ha.fails ..

/-- A last part whose whole is what its record states. -/
theorem State.judgePart_done (hl : i.part + 1 = i.parts) (hc : crcOf (s.partsSoFar i) = some r.crc ∧ r.length = (s.partsSoFar i).length)
    (hn : accept (s.partsSoFar i) = true) :
    s.itemOk i (u.judgePart i r crcOf accept) ∧ s.itemPlaced i (u.judgePart i r crcOf accept) ∧
      (u.judgePart i r crcOf accept).load.written = s.load.written ++ [i.id] ∧ (u.judgePart i r crcOf accept).load.open_ = none := by
  obtain ⟨h1, h2⟩ := hc
  have he : u.judgePart i r crcOf accept = (u.wrote i (· ++ [i.id]) fun _ => none).itemDone i := by
    unfold State.partsSoFar at h1 h2 hn
    unfold State.judgePart
    rw [if_neg (by simp [hf]), hopen, if_pos hl]
    rw [if_neg (by rw [h1, ← h2]; simp), if_neg (by rw [hn]; decide)]
  rw [he]
  obtain ⟨k1, k2⟩ := u.wrote_load i (· ++ [i.id]) fun _ => none
  exact ⟨(ha.wrote i _ _).done hst i, hplaced.wrote _ _, k1.trans (by rw [hwr]), k2⟩

end

/-- An item is placed as the slices and the map are, whatever else differs. -/
theorem State.writeItem_placed_of {s v : State} (hv : v.Inv) (hsl : v.slices = s.slices) (hm : v.load.map = s.load.map) (i : LoadItem) :
    s.itemPlaced i (v.writeItem i) := by
  intro sl a hp
  have hs : s.sl sl = v.sl sl := by rw [State.sl, State.sl, hsl]
  rw [hs]
  refine State.writeItem_placed hv i sl a (Eq.trans ?_ hp)
  unfold Load.places
  rw [hm]

/-- A load that an item has shown to be no repair. -/
def State.noRepairs (t : State) : State := { t with load := { t.load with repair := false } }

/-- The load of an item that is admitted, once it is known whether it is a repair. -/
theorem State.admitted_noRepair {s u : State} (hs : s.Inv) (i : LoadItem) (h : s.noRepair = some u) :
    ∃ v, (s.admitted i).noRepair = some v ∧ s.LoadAlike v ∧ v.load.open_ = s.load.open_ ∧ v.load.written = s.load.written ∧
      v.load.record? i.id = s.load.record? i.id ∧ (∀ n, v.rangeFree i n = u.rangeFree i n) ∧ s.itemPlaced i (v.writeItem i) := by
  unfold State.noRepair at h
  by_cases hc : (s.load.target != 5 || !s.load.repair) = true
  · rw [if_pos hc] at h
    obtain rfl := Option.some.inj h
    exact ⟨s.admitted i, if_pos hc, .admitted s i, rfl, rfl, rfl, fun _ => rfl, State.writeItem_placed_of (v := s.admitted i) hs rfl rfl i⟩
  · rw [if_neg hc] at h
    by_cases hm : (s.tuning || s.mapHits s.load.map) = true
    · rw [if_pos hm] at h
      cases h
    · rw [if_neg hm] at h
      obtain rfl := Option.some.inj h
      exact ⟨(s.admitted i).noRepairs, (if_neg hc).trans (if_neg hm),
        ⟨rfl, rfl, rfl, rfl, rfl, rfl, rfl, rfl⟩, rfl, rfl, rfl, fun _ => rfl, State.writeItem_placed_of (v := (s.admitted i).noRepairs) hs rfl rfl i⟩

/-- The load of a tile or panel that is no repair, or a repair whose item is in the set. -/
theorem State.admitted_placed {s : State} (hs : s.Inv) (i : LoadItem) : s.itemPlaced i ((s.admitted i).writeItem i) :=
  State.writeItem_placed_of (s := s) (v := s.admitted i) hs rfl rfl i

section
variable {s : State} {i : LoadItem} (hst : s.load.st = 1) (he : s.load.ended = false) (hseq : i.seq = s.load.nextSeq)
  (ho : s.loadOpen = true) (hw : itemWhole i = true)
include hst he hseq ho hw

theorem execPanelItem_next (hk : i.kind = 0x14) :
    exec (.panelItem i) s = .next ((s.admitted i).partItem i (panelId i.id)
      (fun b => if panelOk b then some (leNat (slice b (b.length - 32) 4)) else none) fun _ => true) :=
  congrArg Host.Outcome.next (State.takeItem_next hk _ hst he hseq ho hw)

theorem execPlacementItem_next (hk : i.kind = 0x15) :
    exec (.placementItem i) s = .next ((s.admitted i).partItem i (placementId i.id) (fun b => some (crc32c b))
      ((s.admitted i).placementKept (idLayer i.id))) :=
  congrArg Host.Outcome.next (State.takeItem_next hk _ hst he hseq ho hw)

theorem execImageItem_next (hk : i.kind = 0x11) (img : Image) :
    exec (.imageItem i img) s = .next (if s.load.target = 5 then (s.admitted i).failLoad .fault i.seq i.id else
      (State.itemDone { s.admitted i with load := { (s.admitted i).load with
        img := some img, imageBytes := s.load.imageBytes ++ i.payload, map := if s.load.target ≤ 3 then img.hotMap else img.loadMap } } i)) :=
  congrArg Host.Outcome.next (State.takeItem_next hk _ hst he hseq ho hw)

theorem execManifestItem_next (hk : i.kind = 0x12) :
    exec (.manifestItem i) s = .next (
      let m := s.load.manifest ++ parseRecords i.payload.length i.payload
      if i.payload.length % 16 = 0 && idsRise m then State.itemDone { s.admitted i with load := { (s.admitted i).load with manifest := m } } i
      else (s.admitted i).failLoad .fault i.seq i.id) :=
  congrArg Host.Outcome.next (State.takeItem_next hk _ hst he hseq ho hw)

theorem execMapItem_next (hk : i.kind = 0x16) (m : List (Nat × List (Nat × Nat))) :
    exec (.mapItem i m) s = .next (
      if s.load.target != 5 then (s.admitted i).failLoad .fault i.seq i.id
      else
        let map := s.load.map ++ m
        if !s.isRepair map && (s.tuning || s.mapHits map) then (s.admitted i).failLoad .fault i.seq i.id
        else State.itemDone { s.admitted i with load := { (s.admitted i).load with
          map := map, repair := s.isRepair map, imageBytes := s.load.imageBytes ++ i.payload } } i) :=
  congrArg Host.Outcome.next (State.takeItem_next hk _ hst he hseq ho hw)

theorem execEndItem_next (hk : i.kind = 0x17) :
    exec (.endItem i) s = .next (
      if i.payload.isEmpty && s.load.open_.isNone && s.load.map.all fun m => s.load.written.contains m.1 then
        State.itemDone { s.admitted i with load := { (s.admitted i).load with ended := true } } i
      else (s.admitted i).failLoad .fault i.seq i.id) :=
  congrArg Host.Outcome.next (State.takeItem_next hk _ hst he hseq ho hw)

end

end Sys2Proof.Machine
end

section
/-! The items of a load stream. -/

namespace Sys2Proof.Machine

/-! ### The items of a load stream, by kind -/

/-- A tile whose load is no repair, or that the set holds. -/
theorem State.takeTile_kept {s : State} {i : LoadItem} {r : CrcRecord} (h : s.load.repair = false ∨ s.sameTile r = true) :
    (s.admitted i).takeTile i r = (s.admitted i).judgeTile i r (s.sameTile r) :=
  State.takeTile_stays fun hn => by
    rcases h with h | h
    · exact State.noRepair_of_not h
    · have hn' : (s.load.target = 5 && !s.sameTile r && (s.load.places i.id).isEmpty) = true := hn
      rw [h] at hn'
      simp at hn'

section
variable {s : State} {i : LoadItem} (hs : s.Inv) (hst : s.load.st = 1) (he : s.load.ended = false) (hseq : i.seq = s.load.nextSeq)
  (ho : s.loadOpen = true) (hw : itemWhole i = true)
include hst he hseq ho hw

theorem tileItem_unnamed (hk : i.kind = 0x13) (hm : idMatrix i.id < 14) (hp : i.part = 0) (hps : i.parts = 1) (hr : s.load.record? i.id = none) :
    ∃ t : State, exec (.tileItem i) s = .next t ∧ s.itemFails t .fault := by
  have hex := execTileItem_next hst he hseq ho hw hk hm hp hps
  rw [hr] at hex
  exact ⟨_, hex, (State.LoadAlike.admitted s i).fails ..⟩

theorem execTileItem_named (hk : i.kind = 0x13) (hm : idMatrix i.id < 14) (hp : i.part = 0) (hps : i.parts = 1) {r : CrcRecord}
    (hr : s.load.record? i.id = some r) : exec (.tileItem i) s = .next ((s.admitted i).takeTile i r) := by
  have hex := execTileItem_next hst he hseq ho hw hk hm hp hps
  rwa [hr] at hex

/-- A tile that is not what its record states, or not the one of a repair's set. -/
theorem tileItem_checksum (hk : i.kind = 0x13) (hm : idMatrix i.id < 14) (hp : i.part = 0) (hps : i.parts = 1) {r : CrcRecord}
    (hr : s.load.record? i.id = some r)
    (h : (¬ r.statesTile i.payload ∧ (s.load.repair = false ∨ s.sameTile r = true)) ∨
      (s.load.repair = true ∧ s.sameTile r = false ∧ s.load.places i.id ≠ [])) :
    ∃ t : State, exec (.tileItem i) s = .next t ∧ s.itemFails t .checksum := by
  have ht : (s.admitted i).takeTile i r = (s.admitted i).failLoad .checksum i.seq i.id := by
    rcases h with ⟨h1, h2⟩ | ⟨h1, h2, h3⟩
    · exact (State.takeTile_kept h2).trans (State.judgeTile_refuses (.inl h1))
    · have hnew : (s.admitted i).newTile i r = false := by
        show (s.load.target = 5 && !s.sameTile r && (s.load.places i.id).isEmpty) = false
        simp [h3]
      exact (State.takeTile_stays fun hn => by rw [hnew] at hn; cases hn).trans (State.judgeTile_refuses (.inr ⟨h1, h2⟩))
  exact ⟨_, execTileItem_named hst he hseq ho hw hk hm hp hps hr, ht ▸ (State.LoadAlike.admitted s i).fails ..⟩

include hs in
/-- A tile that is what its record states, and that the load may write. -/
theorem tileItem_taken (hk : i.kind = 0x13) (hm : idMatrix i.id < 14) (hp : i.part = 0) (hps : i.parts = 1) {r : CrcRecord}
    (hr : s.load.record? i.id = some r) (hstates : r.statesTile i.payload) (hf : s.rangeFree i r.length = true)
    (h : s.load.repair = false ∨ s.sameTile r = true ∨ (s.load.target = 5 ∧ s.load.places i.id = [] ∧ s.noRepair.isSome = true)) :
    ∃ t : State, exec (.tileItem i) s = .next t ∧ s.itemOk i t ∧ t.load.written = s.load.written ++ [i.id] ∧ s.itemPlaced i t := by
  have hdone (v : State) (ha : s.LoadAlike v) (hwr : v.load.written = s.load.written) (hpl : s.itemPlaced i (v.writeItem i)) :
      s.itemOk i ((v.wrote i (· ++ [i.id]) id).itemDone i) ∧ ((v.wrote i (· ++ [i.id]) id).itemDone i).load.written = s.load.written ++ [i.id] ∧
        s.itemPlaced i ((v.wrote i (· ++ [i.id]) id).itemDone i) :=
    ⟨(ha.wrote i _ _).done hst i, (v.wrote_load i (· ++ [i.id]) id).1.trans (by rw [hwr]), hpl.wrote _ _⟩
  have hex := execTileItem_named hst he hseq ho hw hk hm hp hps hr
  by_cases hkept : s.load.repair = false ∨ s.sameTile r = true
  · have ht := (State.takeTile_kept (i := i) hkept).trans (State.judgeTile_takes hstates hkept hf)
    rw [ht] at hex
    exact ⟨_, hex, hdone _ (.admitted s i) rfl (State.admitted_placed hs i)⟩
  · obtain ⟨hrep, hsame⟩ := not_or.1 hkept
    obtain ⟨h5, hpl, hno⟩ := (h.resolve_left hrep).resolve_left hsame
    obtain ⟨u, hu⟩ := Option.isSome_iff_exists.1 hno
    obtain ⟨v, hv, ha, -, hwr, -, hfree, hpv⟩ := State.admitted_noRepair hs i hu
    have hnew : (s.admitted i).newTile i r = true := by
      show (s.load.target = 5 && !s.sameTile r && (s.load.places i.id).isEmpty) = true
      simp [h5, hpl, hsame]
    have hvrep : v.load.repair = false := by
      rcases State.noRepair_cases hv with ⟨rfl, h | h⟩ | ⟨rfl, -⟩
      · exact absurd h5 h
      · exact absurd h hrep
      · rfl
    have hvfree : v.rangeFree i r.length = true := by
      have hufree : u.rangeFree i r.length = true := by
        have hup : u.load.places i.id = [] := by
          rcases State.noRepair_cases hu with ⟨rfl, -⟩ | ⟨rfl, -⟩ <;> exact hpl
        unfold State.rangeFree
        rw [hup]
        simp
      rw [hfree, hufree]
    rw [State.takeTile_shows hnew hv, State.judgeTile_takes hstates (.inl hvrep) hvfree] at hex
    exact ⟨_, hex, hdone v ha hwr hpv⟩

theorem imageItem_update (hk : i.kind = 0x11) (img : Image) (h5 : s.load.target = 5) :
    ∃ t : State, exec (.imageItem i img) s = .next t ∧ s.itemFails t .fault := by
  have hex := execImageItem_next hst he hseq ho hw hk img
  rw [if_pos h5] at hex
  exact ⟨_, hex, (State.LoadAlike.admitted s i).fails ..⟩

theorem imageItem_taken (hk : i.kind = 0x11) (img : Image) (h5 : s.load.target ≠ 5) :
    ∃ t : State, exec (.imageItem i img) s = .next t ∧ s.itemOk i t ∧ t.load.img = some img ∧
      t.load.map = (if s.load.target ≤ 3 then img.hotMap else img.loadMap) ∧ t.load.imageBytes = s.load.imageBytes ++ i.payload := by
  have hex := execImageItem_next hst he hseq ho hw hk img
  rw [if_neg h5] at hex
  generalize hu : ({ s.admitted i with load := _ } : State) = u at hex
  have ha : s.LoadAlike u := hu ▸ ⟨rfl, rfl, rfl, rfl, rfl, rfl, rfl, rfl⟩
  exact ⟨_, hex, ha.done hst i, hu ▸ rfl, hu ▸ rfl, hu ▸ rfl⟩

theorem manifestItem_taken (hk : i.kind = 0x12) (h1 : i.payload.length % 16 = 0)
    (h2 : idsRise (s.load.manifest ++ parseRecords i.payload.length i.payload) = true) :
    ∃ t : State, exec (.manifestItem i) s = .next t ∧ s.itemOk i t ∧
      t.load.manifest = s.load.manifest ++ parseRecords i.payload.length i.payload := by
  have hex := execManifestItem_next hst he hseq ho hw hk
  dsimp only at hex
  rw [if_pos (by simp [h1, h2])] at hex
  generalize hu : ({ s.admitted i with load := _ } : State) = u at hex
  have ha : s.LoadAlike u := hu ▸ ⟨rfl, rfl, rfl, rfl, rfl, rfl, rfl, rfl⟩
  exact ⟨_, hex, ha.done hst i, hu ▸ rfl⟩

theorem manifestItem_refused (hk : i.kind = 0x12)
    (h : i.payload.length % 16 ≠ 0 ∨ idsRise (s.load.manifest ++ parseRecords i.payload.length i.payload) = false) :
    ∃ t : State, exec (.manifestItem i) s = .next t ∧ s.itemFails t .fault := by
  have hex := execManifestItem_next hst he hseq ho hw hk
  dsimp only at hex
  rw [if_neg (by rcases h with h | h <;> simp [h])] at hex
  exact ⟨_, hex, (State.LoadAlike.admitted s i).fails ..⟩

theorem mapItem_taken (hk : i.kind = 0x16) (m : List (Nat × List (Nat × Nat))) (h5 : s.load.target = 5)
    (h : s.isRepair (s.load.map ++ m) = true ∨ (s.tuning = false ∧ s.mapHits (s.load.map ++ m) = false)) :
    ∃ t : State, exec (.mapItem i m) s = .next t ∧ s.itemOk i t ∧ t.load.map = s.load.map ++ m ∧
      t.load.repair = s.isRepair (s.load.map ++ m) := by
  have hex := execMapItem_next hst he hseq ho hw hk m
  dsimp only at hex
  rw [if_neg (by simp [h5]), if_neg (by rcases h with h | ⟨h1, h2⟩ <;> simp [*])] at hex
  generalize hu : ({ s.admitted i with load := _ } : State) = u at hex
  have ha : s.LoadAlike u := hu ▸ ⟨rfl, rfl, rfl, rfl, rfl, rfl, rfl, rfl⟩
  exact ⟨_, hex, ha.done hst i, hu ▸ rfl, hu ▸ rfl⟩

theorem mapItem_refused (hk : i.kind = 0x16) (m : List (Nat × List (Nat × Nat)))
    (h : s.load.target ≠ 5 ∨ (s.isRepair (s.load.map ++ m) = false ∧ (s.tuning = true ∨ s.mapHits (s.load.map ++ m) = true))) :
    ∃ t : State, exec (.mapItem i m) s = .next t ∧ s.itemFails t .fault := by
  have hex := execMapItem_next hst he hseq ho hw hk m
  refine ⟨_, hex.trans (congrArg Host.Outcome.next ?_), (State.LoadAlike.admitted s i).fails .fault i.seq i.id⟩
  by_cases h5 : s.load.target = 5
  · obtain ⟨h1, h2⟩ := h.resolve_left (not_not.2 h5)
    dsimp only
    rw [if_neg (by simp [h5]), if_pos (by rcases h2 with h2 | h2 <;> simp [h1, h2])]
  · exact if_pos (by simp [h5])

theorem endItem_taken (hk : i.kind = 0x17) (h1 : i.payload = []) (h2 : s.load.open_ = none) (h3 : ∀ m ∈ s.load.map, m.1 ∈ s.load.written) :
    ∃ t : State, exec (.endItem i) s = .next t ∧ s.itemOk i t ∧ t.load.ended = true := by
  have hex := execEndItem_next hst he hseq ho hw hk
  rw [if_pos (by simpa [h1, h2] using h3)] at hex
  generalize hu : ({ s.admitted i with load := _ } : State) = u at hex
  have ha : s.LoadAlike u := hu ▸ ⟨rfl, rfl, rfl, rfl, rfl, rfl, rfl, rfl⟩
  exact ⟨_, hex, ha.done hst i, hu ▸ rfl⟩

theorem endItem_refused (hk : i.kind = 0x17) (h : ¬ (i.payload = [] ∧ s.load.open_ = none ∧ ∀ m ∈ s.load.map, m.1 ∈ s.load.written)) :
    ∃ t : State, exec (.endItem i) s = .next t ∧ s.itemFails t .fault := by
  have hex := execEndItem_next hst he hseq ho hw hk
  rw [if_neg (by simpa [and_assoc] using h)] at hex
  exact ⟨_, hex, (State.LoadAlike.admitted s i).fails ..⟩

omit he hseq ho hw in
include hs in
/-- The parts of a panel and of a placement table. -/
theorem State.partItem_spec {r : CrcRecord} {u : State} {idOk : Bool} (hid : idOk = true) (hpart : s.load.partOk i = true)
    (hr : s.load.record? i.id = some r) (hno : s.noRepair = some u) (hf : u.rangeFree i r.length = true) (crcOf : Bytes → Option Nat)
    (accept : Bytes → Bool) :
    let t := (s.admitted i).partItem i idOk crcOf accept
    let states : Prop := crcOf (s.partsSoFar i) = some r.crc ∧ r.length = (s.partsSoFar i).length
    (i.part + 1 ≠ i.parts → s.itemOk i t ∧ s.itemPlaced i t ∧ t.load.written = s.load.written ∧
      t.load.open_ = some (i.id, i.part + 1, i.parts, s.partsSoFar i)) ∧
    (i.part + 1 = i.parts → states → accept (s.partsSoFar i) = true → s.itemOk i t ∧ s.itemPlaced i t ∧
      t.load.written = s.load.written ++ [i.id] ∧ t.load.open_ = none) ∧
    (i.part + 1 = i.parts → states → accept (s.partsSoFar i) = false → s.itemFails t .fault) ∧
    (i.part + 1 = i.parts → ¬ states → s.itemFails t .checksum) := by
  obtain ⟨v, hv, ha, hopen, hwr, hrec, hfree, hpv⟩ := State.admitted_noRepair hs i hno
  have hfv : v.rangeFree i r.length = true := (hfree _).trans hf
  dsimp only
  rw [State.partItem_eq (t := s.admitted i) hid hpart hv (hrec.trans hr)]
  exact ⟨State.judgePart_more ha hst hopen hwr hpv hfv, State.judgePart_done ha hst hopen hwr hpv hfv,
    State.judgePart_refused ha hopen hfv, State.judgePart_checksum ha hopen hfv⟩

end

/-- What every command that brings an item does with one that is not whole, not the next or of a HELD load. -/
theorem itemCommands_general {s : State} {i : LoadItem} {c : Nat × Instr} {f : State → State} (hf : ∀ s, exec c.2 s = .next (s.takeItem c.1 i f))
    (hk : i.kind = c.1) :
    (s.load.st = 1 → s.load.ended = false → i.seq = s.load.nextSeq → s.loadOpen = true → itemWhole i = false →
      (s.load.retried = false → ∃ t : State, exec c.2 s = .next t ∧ t.load = { s.load with retried := true } ∧ t.job = s.job) ∧
      (s.load.retried = true → ∃ t : State, exec c.2 s = .next t ∧ s.itemFails t .checksum)) ∧
    (s.load.st = 1 ∨ s.load.st = 3 → i.seq < s.load.nextSeq → s.loadOpen = true → itemWhole i = true → exec c.2 s = .next (s.passItem i)) ∧
    (s.load.st = 1 → s.load.nextSeq < i.seq ∨ (s.load.ended = true ∧ s.load.nextSeq ≤ i.seq) ∨ s.loadOpen = false → exec c.2 s = .next s) ∧
    (s.load.st = 2 → i.chain = chainNo s.load.chain → i.loadId = chainLoad s.load.chain → s.loadOpen = true → s.load.ended = false →
      i.seq ≤ s.load.nextSeq → exec c.2 s = exec c.2 (s.setLoad 1 0)) := by
  refine ⟨fun hst he hseq ho hw => ⟨fun hr => ⟨s.itemBad i, ?_, State.itemBad_first hr i⟩, fun hr => ⟨s.failLoad .checksum i.seq i.id, ?_, State.failLoad_spec ..⟩⟩,
    fun hst hseq ho hw => ?_, fun hst h => ?_, fun hst hch hid ho he hseq => ?_⟩
  · rw [hf, State.takeItem_bad hk f hst he hseq ho hw]
  · rw [hf, State.takeItem_bad hk f hst he hseq ho hw, State.itemBad_second hr]
  · rw [hf, State.takeItem_again hk f hst hseq ho hw]
  · rw [hf, State.takeItem_ignores hk f hst h]
  · rw [hf, hf, State.takeItem_held hk f hst hch hid ho he hseq]

/-- Settles O48: an item that is taken finds the load as it was but for its epoch and the repair flag, `State.LoadAlike`, and writes its
bytes where the map places it, `State.writeItem_placed`. -/
theorem loadItems : Obligations.LoadItems := by
  unfold Obligations.LoadItems
  intro s i hs
  refine ⟨fun hst he hseq ho hw => ⟨fun img hk => imageItem_update hst he hseq ho hw hk img, fun img hk => imageItem_taken hst he hseq ho hw hk img,
    fun hk => ⟨manifestItem_taken hst he hseq ho hw hk, manifestItem_refused hst he hseq ho hw hk⟩, fun hk hm hp hps => ⟨?_, fun r hr => ⟨?_, ?_, ?_⟩⟩,
    fun r u hpart hr hno hf => ⟨fun hk hid => ?_, fun hk hid => ?_⟩, fun hk => ⟨fun h => ?_, endItem_refused hst he hseq ho hw hk⟩,
    fun m hk => ⟨fun h => ?_, mapItem_taken hst he hseq ho hw hk m, fun _ h1 h2 => ?_⟩⟩, fun img m c hc hk => ?_⟩
  · exact tileItem_unnamed hst he hseq ho hw hk hm hp hps
  · intro hn h
    rw [← s.sameTile_iff] at h
    exact tileItem_checksum hst he hseq ho hw hk hm hp hps hr (.inl ⟨hn, h⟩)
  · intro h1 h2 h3
    rw [← s.sameTile_iff, Bool.not_eq_true] at h2
    exact tileItem_checksum hst he hseq ho hw hk hm hp hps hr (.inr ⟨h1, h2, h3⟩)
  · intro h1 h2 h3
    rw [← s.sameTile_iff] at h3
    exact tileItem_taken hs hst he hseq ho hw hk hm hp hps hr h1 h2 h3
  · obtain ⟨h1, h2, -, h4⟩ := State.partItem_spec hs hst hid hpart hr hno hf
      (fun b => if panelOk b then some (leNat (slice b (b.length - 32) 4)) else none) fun _ => true
    have hex := execPanelItem_next hst he hseq ho hw hk
    have hstates (b : Bytes) : (if panelOk b then some (leNat (slice b (b.length - 32) 4)) else none) = some r.crc ↔
        panelOk b = true ∧ r.crc = leNat (slice b (b.length - 32) 4) := by
      by_cases hb : panelOk b = true
      · simp [hb, eq_comm]
      · simp [hb]
    rw [hstates, and_assoc] at h2 h4
    exact ⟨fun h => ⟨_, hex, h1 h⟩, fun h k => ⟨_, hex, h2 h k rfl⟩, fun h k => ⟨_, hex, h4 h k⟩⟩
  · obtain ⟨h1, h2, h3, h4⟩ := State.partItem_spec hs hst hid hpart hr hno hf
      (fun b => some (crc32c b)) ((s.admitted i).placementKept (idLayer i.id))
    have hex := execPlacementItem_next hst he hseq ho hw hk
    rw [Option.some_inj, eq_comm (a := crc32c _)] at h2 h3 h4
    exact ⟨fun h => ⟨_, hex, h1 h⟩, fun h k l => ⟨_, hex, h2 h k l⟩, fun h k l => ⟨_, hex, h3 h k l⟩, fun h k => ⟨_, hex, h4 h k⟩⟩
  · obtain ⟨h1, h2, h3⟩ := h
    exact endItem_taken hst he hseq ho hw hk h1 h2 h3
  · exact mapItem_refused hst he hseq ho hw hk m (.inl h)
  · exact mapItem_refused hst he hseq ho hw hk m (.inr ⟨h1, h2⟩)
  · obtain ⟨f, hf⟩ := itemCommands_take hc
    exact itemCommands_general hf hk

end Sys2Proof.Machine
end

section
/-! A job that is left, and an image that becomes the job. -/

namespace Sys2Proof.Machine

/-! ### A device that leaves its job -/

theorem State.settle_armed (s : State) (sl : Nat) (r : Request) (c : Cond) : (s.settle sl r c).pkg.reshapeArmed = s.pkg.reshapeArmed := by
  have hr (v : State) (k : Completion) : (v.complete k).pkg = v.pkg := by
    unfold State.complete
    dsimp only
    split
    · rfl
    · split
      · exact State.cause_pkg ..
      · rfl
  have hp : (s.partialSlot r.cmd.ctx).2.pkg = s.pkg := by
    unfold State.partialSlot
    split <;> rfl
  have hf (l : List Cond) (v : State) : (l.foldl (fun (t : State) k => t.report sl (mkReport 0x01 10 0 k.status.code r.cmd.ctx)) v).pkg = v.pkg :=
    foldl_agree (π := State.pkg) (f := fun (t : State) (k : Cond) => t.report sl (mkReport 0x01 10 0 k.status.code r.cmd.ctx)) (fun _ _ => rfl) l v
  have h3 (b : Bool) (v : State) : (if b then v else v.dropDma sl r.slot).pkg = v.pkg := by
    cases b <;> rfl
  unfold State.settle
  dsimp only
  rw [hr]
  show (ite (r.outputDone = true) _ _ : State).pkg.reshapeArmed = _
  rw [h3, hf]
  split
  · rw [hp]
  · rfl

/-- The state in which the commands, the requests and the contexts of a job have ended. -/
def State.leftContexts (s : State) : State :=
  let t := (s.cancelPending fun _ _ => true).eachSlice fun u i => u.endReqs i (fun _ => true) u.now u.now .cancelled
  (t.ctxs.map (·.ctx)).foldl State.tearCtx t

/-- A device that leaves its job has none, and no reshape is armed by that. -/
theorem State.leaveJob_spec (s : State) : s.leaveJob.job = none ∧ s.leaveJob.pkg.reshapeArmed = s.pkg.reshapeArmed := by
  have hun (v : State) : v.unloadJob.job = none ∧ v.unloadJob.pkg = v.pkg := by
    unfold State.unloadJob
    dsimp only
    split <;> exact ⟨rfl, rfl⟩
  have hsettle (v : State) (d : Drip) : (v.settleAll d).pkg.reshapeArmed = v.pkg.reshapeArmed := by
    unfold State.settleAll
    refine State.eachSlice_agree (π := fun t : State => t.pkg.reshapeArmed) (fun t i => foldl_agree (π := fun t : State => t.pkg.reshapeArmed)
      (fun u r => ?_) _ t) v
    split
    · exact u.settle_armed ..
    · rfl
  have hkeep : State.TearKeeps s s.leftContexts :=
    .comp (.foldl .tearCtx _ _) (.comp (.eachSlice (fun _ _ => .endReqs ..) _) (.cancelPending _))
  have he : s.leaveJob = (s.leftContexts.settleAll s.leftContexts.now).unloadJob := rfl
  rw [he]
  exact ⟨(hun _).1, (congrArg Package.reshapeArmed (hun _).2).trans ((hsettle _ _).trans hkeep.armed)⟩

/-! ### The image that a load brings in -/

/-- What of a device shows that it has taken an image. -/
def State.bearing (s : State) : Option Image × Drip × Load × List HotSlot × Bool := (s.job, s.frame0, s.load, s.hot, s.pkg.reshapeArmed)

theorem State.Settles.bearing {s t : State} (h : State.Settles s t) : t.bearing = s.bearing := (congrArg State.bearing h.calm :)

theorem State.keepManifest_bearing (s : State) : s.keepManifest.bearing = s.bearing := by
  unfold State.keepManifest
  split
  · split <;> rfl
  · rfl

theorem State.tagImages_bearing (s : State) (j : Image) : (s.tagImages j).bearing = s.bearing :=
  State.eachSlice_agree (fun t _ => foldl_agree (fun u _ => foldl_agree (π := State.bearing) (f := fun (t : State) _ => t.onSl _ _) (fun _ _ => rfl) _ u) _ t) s

theorem State.placeWeights_bearing (s : State) (j : Image) (m : List CrcRecord) : (s.placeWeights j m).bearing = s.bearing := by
  refine foldl_agree (π := State.bearing) (fun t r => ?_) m s
  dsimp only
  split
  · rfl
  · exact foldl_agree (π := State.bearing) (f := fun (t : State) o => t.onSl _ _) (fun _ _ => rfl) _ t

/-- What a load that becomes the job leaves of the rest of the device. -/
theorem State.loadJob_spec {s u : State} {j : Image} {m : List CrcRecord} {program : Bytes} {first : Drip} {keep : Bool}
    (h : s.loadJob j m program first keep = some u) :
    u.job = some j ∧ u.frame0 = first ∧ u.load = s.load ∧ u.hot = s.hot ∧ u.pkg.reshapeArmed = s.pkg.reshapeArmed := by
  suffices hb : u.bearing = (some j, first, s.load, s.hot, s.pkg.reshapeArmed) by
    simpa [State.bearing] using hb
  unfold State.loadJob at h
  split at h
  · cases h
  · dsimp only at h
    split at h
    · cases h
    · obtain rfl := Option.some.inj h
      have hm (v : State) : (match j.unitMapDigest with
          | some d => if !j.stillWater && d != v.unitMapDigest then v.report 0 (mkReport 0x11 11 0) else v
          | none => v : State).bearing = v.bearing := by
        split
        · split <;> rfl
        · rfl
      have hmr (v : State) (n : Nat) (d : Bytes) : (v.extendMR n d).bearing = v.bearing := rfl
      refine (hm _).trans (State.Settles.cutPairs.bearing.trans ((hmr ..).trans ((hmr ..).trans ((State.keepManifest_bearing _).trans ?_))))
      generalize ht : s.eachSlice _ = t
      have hb : t.bearing = s.bearing := by
        rw [← ht]
        refine State.eachSlice_agree (π := State.bearing) (fun v i => ?_) s
        rfl
      obtain ⟨-, -, hl, hh, ha⟩ : _ ∧ _ ∧ _ ∧ _ ∧ _ := by simpa only [State.bearing, Prod.mk.injEq] using hb
      cases keep
      · exact congr (congr (congrArg (fun l h b => (some j, first, l, h, b)) hl) hh) ha
      · exact congr (congr (congrArg (fun l h b => (some j, first, l, h, b)) hl) hh) ha

end Sys2Proof.Machine
end

section
/-! Reading, forwarding and sealing a load, the hot set, reshapes and weight epochs. -/

namespace Sys2Proof.Machine

/-! ### Reading and forwarding a load -/

/-- A read of the load is under way or waits. -/
def State.loadReading (s : State) : Bool :=
  !(s.host.chans.getD 16 []).isEmpty || s.host.reads.any fun r => match r.2 with | .loadRead _ _ => true | _ => false

theorem execLoadHostRead_eq (s : State) : exec .loadHostRead s =
    if !s.load.head || !s.loadOpen || !(s.load.st = 1 || s.load.st = 3) || leNat (slice s.load.source 8 8) ≤ s.load.taken || s.loadReading then .next s
    else .next (s.pushChan 16 (.loadRead ((leNat (slice s.load.source 0 8) + s.load.taken) % 2 ^ 64)
      (min 65600 (leNat (slice s.load.source 8 8) - s.load.taken)))) := rfl

/-- Bytes of the forward window that are in use. -/
def Load.forwardHeld (l : Load) : Nat := (l.forwarded.map fun k => 64 + k.payload.length).sum

theorem execItemForward_eq {s : State} {i : LoadItem} {rest : List LoadItem} {n : Nat} (hf : s.load.toForward = i :: rest) (hn : s.load.next = some n) :
    exec .itemForward s =
      if s.load.stopped || !s.loadOpen || (s.sl 0).fabric.lost.contains { node := n, slice := 0 } ||
        s.load.window < s.load.forwardHeld + 64 + i.payload.length then .next s
      else .next (State.sendMsg { s with load := { s.load with toForward := rest, forwarded := s.load.forwarded ++ [i] } } 0
        { dst := { node := n, slice := 0 }, opcode := opWRITE, trusted := true, parts := payloadParts 0x7F01F00000 (itemBytes i), issuer := .load i.seq }) := by
  show execItemForward s = _
  unfold execItemForward
  dsimp only
  rw [hf, hn]
  rfl

/-! ### Resuming a load -/

/-- The load that serves a resume, with nothing forwarded yet. -/
def Load.reopened (l : Load) : Load := { l with stopped := false, forwarded := [], toForward := [] }

theorem execResumeToken_same {s : State} {v : Bytes} (h1 : bits (leNat (slice v 0 16)) 15 0 = chainNo s.load.chain)
    (h2 : bits (leNat (slice v 0 16)) 31 16 = chainLoad s.load.chain) (h3 : s.load.st = 1 ∨ s.load.st = 2 ∨ s.load.st = 3) :
    exec (.resumeToken v) s =
      (let n := (bits (leNat (slice v 0 16)) 71 32 + 1) % 2 ^ 40
       if s.load.full && n ≤ s.load.nextSeq then
        .next { s with load := { s.load.reopened with toForward := s.load.history.filter fun i => decide (n ≤ i.seq) } }
      else if s.load.head then .next { s with load := { s.load.reopened with taken := s.load.offsets.getD n s.load.taken } }
      else s.load.prev.elim (.next { s with load := s.load.reopened })
        fun p => .next (({ s with load := s.load.reopened } : State).emit (.token p v))) := by
  refine (if_neg ?_).trans ?_
  · rcases h3 with h3 | h3 | h3 <;> simp [h1, h2, h3]
  · dsimp only [Load.reopened]
    cases s.load.prev <;> rfl

theorem execResumeToken_other {s : State} {v : Bytes}
    (h : ¬ (bits (leNat (slice v 0 16)) 15 0 = chainNo s.load.chain ∧ bits (leNat (slice v 0 16)) 31 16 = chainLoad s.load.chain ∧
      (s.load.st = 1 ∨ s.load.st = 2 ∨ s.load.st = 3))) : exec (.resumeToken v) s = .next s := by
  refine if_pos ?_
  by_contra hn
  simp only [Bool.or_eq_true, not_or, bne_iff_ne, ne_eq, not_not, Bool.not_eq_true', Bool.not_eq_false, decide_eq_true_eq] at hn
  obtain ⟨⟨h3, h1⟩, h2⟩ := hn
  exact h ⟨h1, h2, or_assoc.1 h3⟩

/-! ### Sealing a load -/

theorem execLoadSeal_update {s : State} (h1 : s.load.st = 1) (h2 : s.load.ended = true) (h5 : s.load.target = 5) :
    exec .loadSeal s = .next (
      if weightRoot s.load.manifest != slice s.load.imageBytes 0 64 then s.failLoad .checksum s.load.nextSeq 0
      else
        let t := s.setLoad 3 0
        if s.load.repair then t else { t with epochs := { t.epochs with
          sealed_ := (t.epochs.sealed_.filter fun u => some u.epoch != s.load.updateEpoch) ++
            [{ epoch := s.load.updateEpoch.getD 0, manifest := s.load.manifest, map := s.load.map }] } }) := by
  refine (if_neg (by simp [h1, h2])).trans ((if_pos h5).trans ?_)
  exact (apply_ite Host.Outcome.next _ _ _).symm

theorem execLoadSeal_image {s : State} (h1 : s.load.st = 1) (h2 : s.load.ended = true) (h5 : s.load.target ≠ 5) {j : Image} (hj : s.load.img = some j) :
    exec .loadSeal s = .next (
      if weightRoot s.load.manifest != j.weightDigest then s.failLoad .checksum s.load.nextSeq 0
      else if s.load.target ≤ 3 then ((s.tagImages j).setLoad 3 0).onHot s.load.target fun _ =>
        { st := 2, img := some j, manifest := s.load.manifest, program := programDigest s.load.imageBytes }
      else ((s.tagImages j).loadJob j s.load.manifest (programDigest s.load.imageBytes) (BitVec.ofNat 48 s.load.frameStart) false).elim
        ((s.tagImages j).failLoad .fault s.load.nextSeq 0) fun u => u.setLoad 3 0) := by
  refine (if_neg (by simp [h1, h2])).trans ((if_neg h5).trans ?_)
  dsimp only
  rw [hj]
  dsimp only
  split
  · rfl
  · split
    · rfl
    · cases (s.tagImages j).loadJob j s.load.manifest (programDigest s.load.imageBytes) (BitVec.ofNat 48 s.load.frameStart) false <;> rfl

/-! ### The hot set and reshapes -/

theorem State.bearing_iff {s t : State} : t.bearing = s.bearing ↔
    t.job = s.job ∧ t.frame0 = s.frame0 ∧ t.load = s.load ∧ t.hot = s.hot ∧ t.pkg.reshapeArmed = s.pkg.reshapeArmed := by
  simp only [State.bearing, Prod.mk.injEq]

/-- The state in which no hot-set slot is being loaded. -/
def State.hotArrived (s : State) : State := { s with load := { s.load with hotLoading := none } }

/-- The image of a hot-set slot, if the load-time checks pass. -/
def State.hotJob (p : State) (j : Image) (h : HotSlot) (first : Drip) (keep : Bool) : Option State :=
  ((p.placeWeights j h.manifest).tagImages j).loadJob j h.manifest h.program first keep

theorem State.hotJob_spec {p u : State} {j : Image} {h : HotSlot} {first : Drip} {keep : Bool} (hu : p.hotJob j h first keep = some u) :
    u.job = some j ∧ u.frame0 = first ∧ u.load = p.load ∧ u.hot = p.hot ∧ u.pkg.reshapeArmed = p.pkg.reshapeArmed := by
  obtain ⟨h1, h2, h3, h4, h5⟩ := State.loadJob_spec hu
  have hb := (State.tagImages_bearing (p.placeWeights j h.manifest) j).trans (p.placeWeights_bearing j h.manifest)
  obtain ⟨-, -, hl, hh, ha⟩ := State.bearing_iff.1 hb
  exact ⟨h1, h2, h3.trans hl, h4.trans hh, h5.trans ha⟩

theorem execHotServeLoadComplete_eq {s : State} {k : Nat} {j : Image} (hk : s.load.hotLoading = some k) (hj : (s.hot.getD k {}).img = some j) :
    exec .hotServeLoadComplete s = .next (
      if !s.hotArrived.hotSound j (s.hot.getD k {}).manifest then s.hotArrived.loadRecord Status.checksum.code
      else (s.hotArrived.hotJob j (s.hot.getD k {}) (BitVec.ofNat 48 s.load.frameStart) false).elim (s.hotArrived.loadRecord Status.fault.code)
        fun u => u.onHot k fun g => { g with st := 3 }) := by
  show execHotServeLoadComplete s = _
  unfold execHotServeLoadComplete
  dsimp only
  rw [hk]
  dsimp only
  rw [hj]
  dsimp only
  split
  · next hn => exact congrArg Host.Outcome.next (if_pos hn).symm
  · next hn =>
    refine Eq.trans ?_ (congrArg Host.Outcome.next (if_neg hn).symm)
    unfold State.hotJob State.hotArrived
    dsimp only
    cases ((State.placeWeights { s with load := { s.load with hotLoading := none } } j (s.hot.getD k {}).manifest).tagImages j).loadJob j
      (s.hot.getD k {}).manifest (s.hot.getD k {}).program (BitVec.ofNat 48 s.load.frameStart) false <;> rfl

/-- The state in which a reshape is no more armed, and no slot is serving. -/
def State.disarmed (s : State) : State :=
  { s with pkg := { s.pkg with reshapeArmed := false, reshapeDrip := 0, reshapeHot := {} }
           hot := s.hot.map fun g => if g.st == 3 then { g with st := 2 } else g }

theorem State.reshape_eq {s : State} {j : Image} (ha : s.pkg.reshapeArmed = true) (hd : BitVec.ofNat 48 s.pkg.reshapeDrip = s.now)
    (hj : s.pkg.reshapeHot.img = some j) :
    s.reshape =
      if !j.nodes.contains s.pkg.nodeId then s.disarmed.leaveJob
      else if !s.disarmed.hotSound j s.pkg.reshapeHot.manifest then s.disarmed.leaveJob.loadRecord Status.checksum.code
      else (s.disarmed.hotJob j s.pkg.reshapeHot s.now true).elim (s.disarmed.leaveJob.loadRecord Status.fault.code)
        fun u => u.onHot s.pkg.reshapeSlot fun g => { g with st := 3 } := by
  unfold State.reshape
  dsimp only
  rw [if_neg (by simp [ha, hd]), hj]
  change (if (!j.nodes.contains s.pkg.nodeId) = true then s.disarmed.leaveJob
    else if (!s.disarmed.hotSound j s.pkg.reshapeHot.manifest) = true then s.disarmed.leaveJob.loadRecord Status.checksum.code else _) = _
  refine if_congr Iff.rfl rfl (if_congr Iff.rfl rfl ?_)
  change (match s.disarmed.hotJob j s.pkg.reshapeHot s.now true with
    | some u => u.onHot s.pkg.reshapeSlot fun g => { g with st := 3 }
    | none => s.disarmed.leaveJob.loadRecord Status.fault.code : State) = _
  cases s.disarmed.hotJob j s.pkg.reshapeHot s.now true <;> rfl

/-- Where a reshape that is armed takes a device to. -/
theorem State.reshape_moves {s : State} {j : Image} (ha : s.pkg.reshapeArmed = true) (hd : BitVec.ofNat 48 s.pkg.reshapeDrip = s.now)
    (hj : s.pkg.reshapeHot.img = some j) :
    s.reshape.pkg.reshapeArmed = false ∧
      (s.pkg.nodeId ∈ j.nodes → s.disarmed.hotSound j s.pkg.reshapeHot.manifest = true →
        (s.disarmed.hotJob j s.pkg.reshapeHot s.now true).isSome = true → s.reshape.job = some j ∧ s.reshape.frame0 = s.now) ∧
      (s.pkg.nodeId ∉ j.nodes ∨ s.disarmed.hotSound j s.pkg.reshapeHot.manifest = false ∨ s.disarmed.hotJob j s.pkg.reshapeHot s.now true = none →
        s.reshape.job = none) := by
  rw [State.reshape_eq ha hd hj]
  obtain ⟨hleft, harm⟩ := s.disarmed.leaveJob_spec
  have hdis : s.disarmed.pkg.reshapeArmed = false := rfl
  rw [hdis] at harm
  have hrec (v : State) (n : Nat) : (v.loadRecord n).job = v.job ∧ (v.loadRecord n).pkg = v.pkg := ⟨rfl, rfl⟩
  by_cases hn : s.pkg.nodeId ∈ j.nodes
  · rw [if_neg (by simpa using hn)]
    by_cases hsound : s.disarmed.hotSound j s.pkg.reshapeHot.manifest = true
    · rw [if_neg (by rw [hsound]; decide)]
      cases hu : s.disarmed.hotJob j s.pkg.reshapeHot s.now true with
      | none =>
        rw [Option.elim_none, (hrec ..).1, (hrec ..).2]
        exact ⟨harm, fun _ _ h => absurd h (by decide), fun _ => hleft⟩
      | some u =>
        obtain ⟨huj, huf, -, -, hua⟩ := State.hotJob_spec hu
        rw [hdis] at hua
        refine ⟨hua, fun _ _ _ => ⟨huj, huf⟩, ?_⟩
        rintro (h | h | h)
        · exact absurd hn h
        · exact absurd (hsound.symm.trans h) (by decide)
        · cases h
    · rw [if_pos (by simpa using hsound), (hrec ..).1, (hrec ..).2]
      exact ⟨harm, fun _ h _ => absurd h hsound, fun _ => hleft⟩
  · rw [if_pos (by simpa using hn)]
    exact ⟨harm, fun h _ _ => absurd h hn, fun _ => hleft⟩

theorem State.reshape_waits {s : State} (h : s.pkg.reshapeArmed = false ∨ BitVec.ofNat 48 s.pkg.reshapeDrip ≠ s.now) : s.reshape = s := by
  refine if_pos ?_
  rcases h with h | h <;> simp [h]

/-! ### The weight epochs -/

/-- The epochs of a device that keeps its image are the same whatever the manifest is kept for. -/
theorem State.keepManifest_epochs (s : State) : s.keepManifest.epochs = s.epochs := by
  unfold State.keepManifest
  split
  · split <;> rfl
  · rfl

theorem State.enterEpoch_spec {s : State} {e : Nat} {u : SealedUpdate} (hsw : s.epochs.switch_ = some (e, s.now))
    (hu : (s.epochs.sealed_.find? fun k => k.epoch == e) = some u) :
    s.enterEpoch.epochs =
      { current := e, since := s.now, digest := weightRoot u.manifest, switch_ := none, switchReg := s.epochs.switchReg, manifest := u.manifest
        map := s.mergeMaps u
        previous := some { epoch := s.epochs.current, digest := s.epochs.digest, map := s.epochs.map }
        sealed_ := s.epochs.sealed_.filter fun k => k.epoch != e, tuningRoot := s.epochs.tuningRoot } := by
  unfold State.enterEpoch
  rw [hsw]
  dsimp only
  rw [hu]
  dsimp only
  rw [if_neg (by simp)]
  exact State.keepManifest_epochs _

theorem State.enterEpoch_waits {s : State} {e : Nat} {w : Drip} (hsw : s.epochs.switch_ = some (e, w)) (hw : w ≠ s.now) : s.enterEpoch = s := by
  unfold State.enterEpoch
  rw [hsw]
  dsimp only
  split
  · rfl
  · exact if_pos (by simpa using hw)

theorem State.enterEpoch_none {s : State} (hsw : s.epochs.switch_ = none) : s.enterEpoch = s := by
  unfold State.enterEpoch
  rw [hsw]

theorem State.onHot_hot_self {s : State} {k : Nat} {f : HotSlot → HotSlot} (h : k < s.hot.length) :
    (s.onHot k f).hot.getD k {} = f (s.hot.getD k {}) := getD_modify_self h f {}

theorem State.setLoad_frame0 (s : State) (a b : Nat) : (s.setLoad a b).frame0 = s.frame0 := by
  unfold State.setLoad
  dsimp only
  split
  · rfl
  · exact State.cause_frame0 ..

theorem State.previous_none {s : State} (h : s.epochs.previous = none) : ({ s with epochs := { s.epochs with previous := none } } : State) = s := by
  rw [← h]

/-- Settles O49: the image that a load brings in keeps the load, the hot set and the armed reshape, `State.loadJob_spec`. -/
theorem loadChainsAndEpochs : Obligations.LoadChainsAndEpochs := by
  unfold Obligations.LoadChainsAndEpochs
  intro s hs
  refine ⟨⟨fun h1 h2 h3 h4 h5 h6 => ?_, fun h => ?_⟩, fun i rest n hf hn => ⟨fun h1 h2 h3 h4 => ?_, fun h => ?_⟩, fun h => ?_, fun q => rfl,
    fun h1 h2 h3 => ?_, fun h => ?_, fun v => ⟨fun h => execResumeToken_other h, fun h hfull hn => ?_, fun h hn => ⟨fun hh => ?_, fun p hh hp => ?_⟩⟩,
    fun h => ?_, fun h1 h2 h5 j hj => ?_, fun h1 h2 h5 => ?_, fun k j hk hj => ?_, fun h => ?_, fun h => ?_, fun ha hd j hj => ?_,
    fun e w hsw => ⟨fun u hw hu => ?_, fun hw => ?_⟩, fun h => ?_, fun h => ?_, fun h => ?_⟩
  · refine ⟨_, (execLoadHostRead_eq s).trans (if_neg ?_), rfl, ?_⟩
    · have h4' : ¬ leNat (slice s.load.source 8 8) ≤ s.load.taken := not_le.2 h4
      rw [h1, h2, State.loadReading, h5, h6]
      simpa [h4'] using or_iff_not_imp_left.1 h3
    · refine (getD_modify_self (by rw [hs.2.2.1]; decide) _ _).trans ?_
      rw [h5]
      rfl
  · refine (execLoadHostRead_eq s).trans (if_pos ?_)
    rcases h with h | h | ⟨h, h'⟩ | h | h <;> simp_all [State.loadReading]
  · have hsend := State.Sends.sendMsg (s := { s with load := { s.load with toForward := rest, forwarded := s.load.forwarded ++ [i] } }) 0
      { dst := { node := n, slice := 0 }, opcode := opWRITE, trusted := true, parts := payloadParts 0x7F01F00000 (itemBytes i), issuer := .load i.seq }
    refine ⟨_, (execItemForward_eq hf hn).trans (if_neg ?_), hsend.load, fun sl => (congrArg SliceState.mem (hsend.agree sl) :)⟩
    have h4' : ¬ s.load.window < s.load.forwardHeld + 64 + i.payload.length := not_lt.2 h4
    simp [h1, h2, h3, h4']
  · refine (execItemForward_eq hf hn).trans (if_pos ?_)
    have hw (h : s.load.window < _) : s.load.window < s.load.forwardHeld + 64 + i.payload.length := h
    rcases h with h | h | h | h
    · simp [h]
    · simp [h]
    · simp [h]
    · simp [hw h]
  · show execItemForward s = _
    unfold execItemForward
    dsimp only
    rcases h with h | h
    · rw [h]
    · rw [h]
      cases s.load.toForward <;> rfl
  · refine ⟨_, if_pos ⟨h1, h2, h3⟩, ?_⟩
    exact (s.setLoad_spec 2 Status.upstreamLost.code).1
  · refine if_neg ?_
    rintro ⟨h1, h2, h3⟩
    simp_all
  · obtain ⟨hc, hl, hst⟩ := h
    exact (execResumeToken_same hc hl hst).trans (if_pos (by simp only [hfull, Bool.true_and, decide_eq_true_eq]; exact hn))
  · obtain ⟨hc, hl, hst⟩ := h
    refine (execResumeToken_same hc hl hst).trans ((if_neg ?_).trans (if_pos hh))
    simp only [Bool.and_eq_true, decide_eq_true_eq, not_and, not_le]
    exact fun hf => hn.resolve_left (by simp [hf])
  · obtain ⟨hc, hl, hst⟩ := h
    refine (execResumeToken_same hc hl hst).trans ((if_neg ?_).trans ((if_neg (by simp [hh])).trans ?_))
    · simp only [Bool.and_eq_true, decide_eq_true_eq, not_and, not_le]
      exact fun hf => hn.resolve_left (by simp [hf])
    · rw [hp]
      rfl
  · refine if_pos ?_
    rcases h with h | h <;> simp [h]
  · refine ⟨_, execLoadSeal_image h1 h2 h5 hj, fun hw => ?_, fun hw ht => ?_, fun hw ht => ?_⟩
    · rw [if_pos (by simpa using hw)]
      obtain ⟨hst, hstat, -, hjob⟩ := s.failLoad_spec .checksum s.load.nextSeq 0
      exact ⟨hst, hstat, hjob⟩
    · rw [if_neg (by simpa using hw), if_pos ht]
      obtain ⟨hl, hjob, -, -, -, hhot, -⟩ := (s.tagImages j).setLoad_spec 3 0
      obtain ⟨hj', -, -, hh', -⟩ := State.bearing_iff.1 (s.tagImages_bearing j)
      refine ⟨congrArg Load.st hl, hjob.trans hj', fun hlt => ?_⟩
      have hlen : s.load.target < ((s.tagImages j).setLoad 3 0).hot.length := by rwa [hhot, hh']
      rw [State.onHot_hot_self hlen]
      exact ⟨rfl, rfl⟩
    · rw [if_neg (by simpa using hw), if_neg (by omega)]
      split
      · next u hu =>
        rw [hu]
        obtain ⟨hl, hjob, -⟩ := u.setLoad_spec 3 0
        obtain ⟨huj, huf, -⟩ := State.loadJob_spec hu
        exact ⟨congrArg Load.st hl, hjob.trans huj, (u.setLoad_frame0 3 0).trans huf⟩
      · next hu =>
        rw [hu]
        obtain ⟨hst, hstat, -, hjob⟩ := (s.tagImages j).failLoad_spec .fault s.load.nextSeq 0
        exact ⟨hst, hstat, hjob.trans (State.bearing_iff.1 (s.tagImages_bearing j)).1⟩
  · refine ⟨_, execLoadSeal_update h1 h2 h5, ?_⟩
    obtain ⟨hl, hjob, -, -, hep, -, -⟩ := s.setLoad_spec 3 0
    obtain ⟨hst, hstat, -, hfj⟩ := s.failLoad_spec .checksum s.load.nextSeq 0
    by_cases hw : weightRoot s.load.manifest = slice s.load.imageBytes 0 64
    · rw [if_neg (by simpa using hw)]
      dsimp only
      split
      · next hr => exact ⟨hjob, fun _ => ⟨congrArg Load.st hl, congrArg Epochs.current hep, fun _ => hep, fun h => by simp [hr] at h⟩, fun h => absurd hw h⟩
      · next hr =>
        refine ⟨hjob, fun _ => ⟨congrArg Load.st hl, (congrArg Epochs.current hep :), fun h => absurd h hr, fun _ => ?_⟩, fun h => absurd hw h⟩
        exact List.mem_append_right _ (List.mem_singleton.2 rfl)
    · rw [if_pos (by simpa using hw)]
      exact ⟨hfj, fun h => absurd h hw, fun _ => ⟨hst, hstat⟩⟩
  · refine ⟨_, execHotServeLoadComplete_eq hk hj, ?_, fun hsound u hu => ?_, fun hsound => ?_⟩
    · split
      · rfl
      · cases hu : s.hotArrived.hotJob j (s.hot.getD k {}) (BitVec.ofNat 48 s.load.frameStart) false with
        | none => rfl
        | some u => exact congrArg Load.hotLoading (State.hotJob_spec hu).2.2.1
    · change s.hotArrived.hotSound j (s.hot.getD k {}).manifest = true at hsound
      rw [if_neg (by rw [hsound]; decide)]
      change s.hotArrived.hotJob j (s.hot.getD k {}) (BitVec.ofNat 48 s.load.frameStart) false = some u at hu
      obtain ⟨huj, huf, -, hhot, -⟩ := State.hotJob_spec hu
      rw [hu]
      refine ⟨huj, huf, congrArg HotSlot.st (State.onHot_hot_self ?_)⟩
      rw [hhot]
      by_contra hge
      change ¬ k < s.hot.length at hge
      rw [List.getD_eq_getElem?_getD, List.getElem?_eq_none (not_lt.1 hge)] at hj
      cases hj
    · change s.hotArrived.hotSound j (s.hot.getD k {}).manifest = false at hsound
      rw [if_pos (by rw [hsound]; rfl)]
      exact ⟨rfl, rfl⟩
  · show execHotServeLoadComplete s = _
    unfold execHotServeLoadComplete
    rw [h]
  · exact congrArg Host.Outcome.next (State.reshape_waits h)
  · exact ⟨_, rfl, State.reshape_moves ha hd hj⟩
  · subst hw
    refine ⟨s.enterEpoch, rfl, ?_⟩
    rw [State.enterEpoch_spec hsw hu]
    exact ⟨rfl, rfl, rfl, rfl, rfl, rfl, rfl⟩
  · exact congrArg Host.Outcome.next (State.enterEpoch_waits hsw hw)
  · exact congrArg Host.Outcome.next (State.enterEpoch_none h)
  · refine congrArg Host.Outcome.next ?_
    cases hp : s.epochs.previous with
    | none => exact (if_neg (by simp [hp])).trans (State.previous_none hp).symm
    | some p => exact if_pos (by simpa [hp] using h)
  · refine congrArg Host.Outcome.next (if_neg ?_)
    obtain ⟨x, hx, u, hu, ho, hd⟩ := h
    rw [Bool.and_eq_true, List.all_eq_true]
    rintro ⟨-, hall⟩
    have := List.all_eq_true.1 (hall x hx) u hu
    simp [ho, hd] at this

end Sys2Proof.Machine
end

section
/-! Writes through the doors of the dictionary. -/

namespace Sys2Proof.Machine

/-! ### What the doors of the dictionary leave alone -/

/-- A device without what an access through a door changes of itself: the window, the sessions and what is sent. -/
def State.doorless (s : State) : State :=
  { s with
    dict := { s.dict with indexReg := 0, busy := false, code := 0, length := 0, data := [] }
    lantern := { s.lantern with sessions := [] }
    out := [] }

theorem State.answer_doorless (s : State) (d : Door) (code : Nat) (v : Option (Nat × Bytes)) : (s.answer d code v).doorless = s.doorless := by
  unfold State.answer
  cases d with
  | bar0 => cases v <;> rfl
  | session n =>
    dsimp only
    unfold State.sendResult
    split <;> rfl

theorem State.startAccess_doorless {s u : State} {d : Door} {index sub op : Nat} (h : s.startAccess d index sub op = some u) :
    u.doorless = s.doorless := by
  cases d with
  | bar0 =>
    change (if s.dict.busy then none else some ({ s with dict := { s.dict with indexReg := field index 16 0 + field sub 8 16 + field op 2 24, busy := true } } : State))
      = some u at h
    generalize field index 16 0 + field sub 8 16 + field op 2 24 = r at h
    split at h
    · cases h
    · exact Option.some.inj h ▸ rfl
  | session n =>
    change (if s.doorOpen (.session n) then some (s.onSession n fun u => { u with seq := u.seq + 1, result := [] }) else none) = some u at h
    split at h
    · exact Option.some.inj h ▸ rfl
    · cases h

/-- What two devices that differ by an access share. -/
theorem State.of_doorless {β : Type} {s t : State} (h : t.doorless = s.doorless) (π : State → β) (hπ : ∀ v, π v.doorless = π v) : π t = π s := by
  rw [← hπ t, h, hπ]

/-! ### The fate of a write through a door -/

/-- An entry of which only its place is known. -/
def Entry.named (index sub : Nat) : Entry := { (default : Entry) with index := index, sub := sub }

theorem entry?_index {index sub : Nat} {e : Entry} (h : entry? index sub = some e) : e.index = index ∧ e.sub = sub := by
  have hp := List.find?_some h
  simpa using hp

theorem State.stateOk_named {s : State} {e : Entry} {index sub : Nat} (hi : e.index = index) (hs : e.sub = sub) (c : Nat) (v : Bytes) :
    s.stateOk e c v = s.stateOk (.named index sub) c v := by
  subst hi hs
  rfl

/-- The parts of a judgement that a write passes. -/
theorem State.judgeWrite_passes {s : State} {p : Principal} {e : Entry} {c : Nat} {v : Bytes} (h : s.judgeWrite p e c v ≤ codeDeferred) :
    s.channelCode e c = codeOk ∧ s.stateOk e c v = true ∧ (s.judgeWrite p e c v = codeOk ↔ s.deferred e c v = false) := by
  have hcode : ∀ n : Nat, codeDeferred < n → ¬ n ≤ codeDeferred := fun n hn => not_le.2 hn
  have hchan : s.channelCode e c = codeOk ∨ codeDeferred < s.channelCode e c := by
    unfold State.channelCode
    split
    · exact .inl rfl
    · split
      · exact .inr (by decide)
      · split
        · exact .inl rfl
        · exact .inr (by decide)
  have hstore : s.storeCode e = codeOk ∨ codeDeferred < s.storeCode e := by
    unfold State.storeCode
    repeat' split
    · exact .inl rfl
    · exact .inr (by decide)
    · exact .inr (by decide)
    · exact .inr (by decide)
    · exact .inl rfl
  unfold State.judgeWrite at h ⊢
  dsimp only at h ⊢
  split at h
  · exact absurd h (by decide)
  next h1 =>
  split at h
  · exact absurd h (by decide)
  next h2 =>
  split at h
  · exact absurd h (by decide)
  next h3 =>
  split at h
  · exact absurd h (by decide)
  next h4 =>
  split at h
  next h5 => exact absurd h (hcode _ (hchan.resolve_left h5))
  next h5 =>
  split at h
  · exact absurd h (by decide)
  next h6 =>
  split at h
  · exact absurd h (by decide)
  next h7 =>
  split at h
  next h8 => exact absurd h (hcode _ (hstore.resolve_left h8))
  next h8 =>
  rw [if_neg h1, if_neg h2, if_neg h3, if_neg h4, if_neg h5, if_neg h6, if_neg h7, if_neg h8]
  refine ⟨not_not.1 h5, by simpa using h7, ?_⟩
  split
  next h9 => simp [h9, codeDeferred, codeOk]
  next h9 => simpa using h9

section
variable {s : State} {i : Instr} {d : Door} {index sub c : Nat} {v : Bytes} (hx : exec i s = .next (s.doorWrite d index sub c v))
include hx

theorem State.turnsAway : s.TurnsAway i d index sub c v :=
  ⟨fun _ _ hj hc => hx.trans (congrArg Host.Outcome.next (State.doorWrite_refused hj hc)),
    fun h => hx.trans (congrArg Host.Outcome.next (State.doorWrite_lost h)),
    fun _ h hf => hx.trans (congrArg Host.Outcome.next (State.doorWrite_waits h hf))⟩

/-- The fate of a write that takes effect at once, by what its entry asks. -/
theorem State.took_applied {P : State → State → Prop} {b : Bool}
    (he : (entry? index sub).map (fun e => (e.stored, e.isEnable, e.chan)) = some (false, false, b))
    (hP : ∀ u t : State, u.doorless = s.doorless → u.stateOk (.named index sub) c v = true →
      t.doorless = (u.applyEntry index sub (if b then c else 0) v).doorless → P u t) :
    s.TurnsAway i d index sub c v ∧ ∀ u : State, s.Takes d index sub c v u → ∃ t : State, exec i s = .next t ∧ P u t := by
  refine ⟨State.turnsAway hx, fun u hu => ?_⟩
  obtain ⟨e, hent, -, -, happ⟩ := State.doorWrite_takes hu
  obtain ⟨hstart, -, p, e', -, hent', -, hj⟩ := hu
  obtain rfl := Option.some.inj (hent.symm.trans hent')
  rw [hent, Option.map_some] at he
  simp only [Option.some.injEq, Prod.mk.injEq] at he
  obtain ⟨h1, h2, rfl⟩ := he
  obtain ⟨hi, hs⟩ := entry?_index hent
  refine ⟨_, hx.trans (congrArg Host.Outcome.next (happ h1 h2)), hP _ _ (State.startAccess_doorless hstart) ?_ (State.answer_doorless ..)⟩
  rw [← State.stateOk_named hi hs]
  exact (State.judgeWrite_passes (hj.le.trans (by decide))).2.1

/-- The fate of a write that goes through the store. -/
theorem State.took_stored {ch : Nat} (he : ∀ e, entry? index sub = some e → e.stored = true ∧ (if e.chan then c else 0) = ch) :
    s.TurnsAway i d index sub c v ∧ ∀ u : State, s.Takes d index sub c v u → ∃ t : State, exec i s = .next t ∧
      t = { u with dict := { u.dict with writing := some { index := index, sub := sub, channel := ch, value := v, door := d } } } := by
  refine ⟨State.turnsAway hx, fun u hu => ?_⟩
  obtain ⟨e, hent, hsto, -⟩ := State.doorWrite_takes hu
  obtain ⟨h1, rfl⟩ := he e hent
  exact ⟨_, hx.trans (congrArg Host.Outcome.next (hsto h1)), rfl⟩

end

end Sys2Proof.Machine
end

section
/-! Writes of fabric, region, collective, service and error entries. -/

namespace Sys2Proof.Machine

/-! ### The entries of a slice -/

theorem SliceState.setRegion_self (x : SliceState) (k : Nat) (e : RegionEntry) : (x.setRegion k e).region k = e := by
  unfold SliceState.region SliceState.setRegion
  dsimp only
  rw [List.find?_append, List.find?_eq_none.2 (by simp), Option.none_or]
  simp

theorem SliceState.setRegion_other {j k : Nat} (h : j ≠ k) (x : SliceState) (e : RegionEntry) : (x.setRegion k e).region j = x.region j := by
  unfold SliceState.region SliceState.setRegion
  dsimp only
  have hnew : ([(k, e)] : List (Nat × RegionEntry)).find? (fun r => r.1 == j) = none := by simp [h.symm]
  have hold : (x.remote.regions.filter fun r => r.1 != k).find? (fun r => r.1 == j) = x.remote.regions.find? fun r => r.1 == j := by
    rw [List.find?_filter]
    refine congrFun (congrArg List.find? (funext fun r => ?_)) _
    by_cases hr : r.1 = j
    · simp [hr, h]
    · simp [hr]
  rw [List.find?_append, hnew, Option.or_none, hold]

theorem SliceState.apply3_ledgerOn (x : SliceState) : (x.apply3 0x3280 3 [1#8]).svc.ledgerEnable = true ∧
    (x.svc.ledgerEnable = false → (x.apply3 0x3280 3 [1#8]).svc.ledgerHead = 0 ∧ (x.apply3 0x3280 3 [1#8]).svc.ledgerPhase = true) := by
  have hx : (x.apply3 0x3280 3 [1#8]).svc = if (1 : Nat) = 1 ∧ x.svc.ledgerEnable = false then
      { x.svc with ledgerEnable := true, ledgerHead := 0, ledgerPhase := true } else { x.svc with ledgerEnable := true } := rfl
  rw [hx]
  by_cases h : x.svc.ledgerEnable = false
  · rw [if_pos ⟨rfl, h⟩]
    exact ⟨rfl, fun _ => ⟨rfl, rfl⟩⟩
  · rw [if_neg fun hn => h hn.2]
    exact ⟨rfl, fun hn => absurd hn h⟩

theorem Ring.setEnable_on (r : Ring) : (r.setEnable true).enable = true ∧
    (r.enable = false → (r.setEnable true).head = 0 ∧ (r.setEnable true).tail = 0 ∧ (r.setEnable true).phase = true) := by
  unfold Ring.setEnable
  cases h : r.enable
  · exact ⟨rfl, fun _ => ⟨rfl, rfl, rfl⟩⟩
  · exact ⟨rfl, fun hn => by cases hn⟩

theorem entry?_portDisable (p : PortId) {e : Entry} (h : entry? 0x4011 (p.val + 1) = some e) : e.stored = true ∧ e.chan = true := by
  have hall : ∀ q : Fin 8, (entry? 0x4011 (q.val + 1)).all (fun k => k.stored && k.chan) = true := by decide
  have hp := hall p
  rw [h, Option.all_some, Bool.and_eq_true] at hp
  exact hp

/-- A slice of a device, through an access of a door. -/
theorem State.sl_of_doorless {s t : State} (h : t.doorless = s.doorless) (i : Nat) : t.sl i = s.sl i :=
  State.of_doorless h (fun v => v.sl i) fun _ => rfl

/-- Settles O42, entry by entry: what the doors leave alone is `State.doorless`, and the rest is what the entry takes. -/
theorem doorWritesFabricAndService : Obligations.DoorWritesFabricAndService := by
  unfold Obligations.DoorWritesFabricAndService
  intro s d hs
  have hword (v : Word) : leNat (leBytes 8 v.toNat) = v.toNat := by
    rw [leNat_leBytes]
    exact Nat.mod_eq_of_lt v.isLt
  have hsl {u t : State} {sl : SliceId} {f : SliceState → SliceState} (hu : u.doorless = s.doorless)
      (ht : t.doorless = (u.onSl sl f).doorless) : t.sl sl = f (s.sl sl) := by
    have hslices : u.slices = s.slices := (congrArg State.slices hu :)
    rw [State.sl_of_doorless ht, ← State.sl_of_doorless hu]
    exact u.onSl_sl_self sl f (by rw [hslices]; exact hs.slices_lt sl)
  have hpkg {u : State} (hu : u.doorless = s.doorless) : u.pkg = s.pkg := (congrArg State.pkg hu :)
  have hring {u t : State} {f : Ring → Ring} (hr : s.dict.ringSel < 64) (hu : u.doorless = s.doorless)
      (ht : t.doorless = (u.onRing u.dict.ringSel f).doorless) : t.host.rings.getD s.dict.ringSel {} = f (s.host.rings.getD s.dict.ringSel {}) := by
    have hsel : u.dict.ringSel = s.dict.ringSel := (congrArg (fun v : State => v.dict.ringSel) hu :)
    have hrings : u.host.rings = s.host.rings := (congrArg (fun v : State => v.host.rings) hu :)
    have ht' : t.host.rings = u.host.rings.modify u.dict.ringSel f := (congrArg (fun v : State => v.host.rings) ht :)
    rw [ht', hsel, hrings]
    exact getD_modify_self (by rw [hs.2.1]; exact hr) _ _
  refine ⟨fun v => State.took_applied rfl (b := false) rfl fun u t hu _ ht => ?_, fun sl p off => State.took_stored ?_ fun e he => ?_,
    fun sl v => State.took_applied rfl (b := true) rfl fun u t hu _ ht => ?_, fun sl v => State.took_applied rfl (b := true) rfl fun u t hu _ ht => ?_,
    fun v => State.took_applied rfl (b := false) rfl fun u t hu _ ht => ?_, fun sl => State.took_applied rfl (b := true) rfl fun u t hu _ ht => ?_,
    fun sl => State.took_applied rfl (b := true) rfl fun u t hu _ ht => ?_, fun hr => State.took_applied rfl (b := false) rfl fun u t hu _ ht => ?_,
    fun hr => State.took_applied rfl (b := false) rfl fun u t hu _ ht => ?_, fun sl => State.took_applied rfl (b := true) rfl fun u t hu _ ht => ?_⟩
  · have hp : t.pkg = { u.pkg with routeSwitch := some (BitVec.ofNat 48 (leNat (leBytes 8 v.toNat))), routeSwitchReg := leNat (leBytes 8 v.toNat) } :=
      (congrArg State.pkg ht :)
    rw [hp, hword, hpkg hu]
    exact ⟨rfl, rfl⟩
  · cases off <;> rfl
  · obtain ⟨hsto, hch⟩ := entry?_portDisable p he
    exact ⟨hsto, if_pos hch⟩
  · have hx := hsl hu ht (f := fun x => x.apply3 0x3260 2 v)
    rw [hx]
    exact ⟨SliceState.setRegion_self .., fun k hk => SliceState.setRegion_other hk ..⟩
  · have hx := hsl hu ht (f := fun x => x.apply3 0x3260 3 v)
    rw [hx]
    exact SliceState.setRegion_self ..
  · have hp : t.pkg = { u.pkg with collEpochs := u.pkg.collEpochs ++ [BitVec.ofNat 48 (leNat (leBytes 8 v.toNat))], collEpochReg := leNat (leBytes 8 v.toNat) } :=
      (congrArg State.pkg ht :)
    rw [hp, hword, hpkg hu]
  · rw [hsl hu ht (f := fun x => x.apply3 0x3280 3 [1#8])]
    exact SliceState.apply3_ledgerOn _
  · rw [hsl hu ht (f := fun x => x.apply3 0x3280 3 [0#8])]
    exact rfl
  · rw [hring hr hu ht (f := fun r => r.setEnable true)]
    exact Ring.setEnable_on _
  · rw [hring hr hu ht (f := fun r => r.setEnable false)]
    rfl
  · rw [hsl hu ht (f := fun x => { x with err := x.err.applyA 9 1 })]
    exact ⟨rfl, rfl, rfl⟩

end Sys2Proof.Machine
end

section
/-! Checks that answer a state, and the lifecycle functions. -/

namespace Sys2Proof.Machine

/-! ### Checks that answer a state -/

theorem State.unloadJob_job (s : State) : s.unloadJob.job = none := by
  unfold State.unloadJob
  dsimp only
  split <;> rfl

theorem State.serveHot_spec {s t : State} {k : Nat} (h : s.serveHot k = some t) : t.load.hotLoading = some k ∧ t.job = none := by
  unfold State.serveHot at h
  dsimp only at h
  split at h
  · cases h
  · exact Option.some.inj h ▸ ⟨rfl, s.unloadJob_job⟩

theorem State.armReshape_spec {s t : State} {v : Word} (h : s.armReshape v = some t) :
    t.pkg.reshapeArmed = true ∧ t.pkg.reshapeDrip = v.toNat ∧ t.epochs.switch_ = none := by
  unfold State.armReshape at h
  dsimp only at h
  split at h
  · split at h
    · cases h
    · refine Option.some.inj h ▸ ?_
      split
      · exact ⟨rfl, rfl, rfl⟩
      · next hs => exact ⟨rfl, rfl, by simpa using hs⟩
  · cases h

theorem State.disarmReshape_spec {s t : State} (h : s.disarmReshape = some t) : t.pkg.reshapeArmed = false ∧ t.pkg.reshapeDrip = 0 := by
  unfold State.disarmReshape at h
  dsimp only at h
  split at h
  · cases h
  · exact Option.some.inj h ▸ ⟨rfl, rfl⟩

theorem State.loadStart_spec {s t : State} (h : s.loadStart = some t) :
    t.load.st = 1 ∧ t.load.nextSeq = 0 ∧ t.load.manifest = [] ∧ t.load.ended = false ∧ t.job = s.job := by
  obtain ⟨hl, hj, -⟩ := s.setLoad_spec 1 0
  unfold State.loadStart at h
  dsimp only at h
  split at h
  · cases h
  · refine Option.some.inj h ▸ ?_
    have hst : (s.setLoad 1 0).load.st = 1 := by rw [hl]
    split <;> exact ⟨hst, rfl, rfl, rfl, hj⟩

theorem State.setChain_chain (s : State) (v : Bytes) : (s.setChain v).load.chain = v := by
  unfold State.setChain
  dsimp only
  split
  · split <;> split <;> rfl
  · split <;> rfl

theorem State.switchEpoch_spec {s t : State} {v : Word} (h : s.switchEpoch v = some t) :
    t.epochs.switch_ = some (bits v.toNat 15 0, BitVec.ofNat 48 (bits v.toNat 63 16)) ∧ t.epochs.current = s.epochs.current := by
  unfold State.switchEpoch at h
  dsimp only at h
  split at h
  · cases h
  · exact Option.some.inj h ▸ ⟨rfl, rfl⟩

theorem State.askQuote_spec {s t : State} {v : Bytes} (h : s.askQuote v = some t) :
    t.sec.quoteState = 1 ∧ t.sec.quoteNonce = v ∧ t.sec.mr = s.sec.mr := by
  unfold State.askQuote at h
  split at h
  · cases h
  · exact Option.some.inj h ▸ ⟨rfl, rfl, rfl⟩

theorem State.stageCommit_spec {s t : State} {n : Nat} (h : s.stageCommit n = some t) :
    ∃ k, s.fw.staging? = some k ∧ t.fw.stageReason = s.stagingCheck (s.fw.slots.getD k []) n ∧
      t.fw.stageState = (if t.fw.stageReason = 0 then 2 else 3) := by
  unfold State.stageCommit at h
  split at h
  · cases h
  · next k hk =>
    refine ⟨k, hk, ?_⟩
    dsimp only at h
    refine Option.some.inj h ▸ ?_
    split
    · exact ⟨rfl, rfl⟩
    · next hr => exact ⟨rfl, (if_neg hr).symm⟩

theorem State.startRollout_spec {s t : State} {v : Nat} (h : s.startRollout v = some t) :
    t.fw.rollout = 1 ∧ t.fw.step = 0 ∧ t.fw.startDrip = s.now ∧ (v = 1 → s.fw.staging? = some t.fw.target) ∧
      (v ≠ 1 → t.fw.target = 1 - s.fw.running) := by
  unfold State.startRollout at h
  dsimp only at h
  split at h
  · cases h
  · next k hk =>
    split at h
    · cases h
    · refine Option.some.inj h ▸ ⟨rfl, rfl, rfl, fun hv => ?_, fun hv => ?_⟩
      · rw [if_pos hv] at hk
        split at hk
        · next j hj =>
          split at hk
          · exact hj.trans hk
          · cases hk
        · cases hk
      · rw [if_neg hv] at hk
        exact (Option.some.inj hk).symm

theorem State.fwCause_fw (s : State) (f : Firmware) : (s.fwCause f).fw = s.fw := by
  unfold State.fwCause
  split
  · rfl
  · exact State.cause_fw ..

/-! ### The lifecycle functions -/

/-- The device has the lifecycle function, of a slice where it is one of a slice. -/
def State.HasLife (s : State) (f c : Nat) : Prop :=
  f < 7 ∧ s.dict.life.length = 4 ∧ (4 ≤ f → c < s.slices.length ∧ (s.sl c).life.length = 3)

theorem State.lifeOf_onLife {s : State} {f c : Nat} (h : s.HasLife f c) (g : Lifecycle → Lifecycle) : (s.onLife f c g).lifeOf f c = g (s.lifeOf f c) := by
  obtain ⟨hf, hd, hx⟩ := h
  unfold State.lifeOf State.onLife
  by_cases h4 : f < 4
  · rw [if_pos h4, if_pos h4, if_pos h4]
    exact getD_modify_self (by omega) _ _
  · obtain ⟨hc, hl⟩ := hx (by omega)
    rw [if_neg h4, if_neg h4, if_neg h4, State.onSl_sl_self _ _ _ hc]
    exact getD_modify_self (by omega) _ _

theorem State.lifeOf_onSl (s : State) (i f c : Nat) {g : SliceState → SliceState} (hg : ∀ x, (g x).life = x.life) : (s.onSl i g).lifeOf f c = s.lifeOf f c := by
  have h : State.Agree SliceState.life s (s.onSl i g) := .onSl hg
  unfold State.lifeOf
  rw [show ((s.onSl i g).sl c).life = (s.sl c).life from h c]
  rfl

theorem State.lifeOf_cause (s : State) (b f c : Nat) : (s.cause b).lifeOf f c = s.lifeOf f c := by
  unfold State.lifeOf State.sl
  rw [State.cause_dict, State.cause_slices]

theorem State.lifeOf_setLife {s : State} {f c : Nat} (h : s.HasLife f c) (st : Nat) : (s.setLife f c st).lifeOf f c = { s.lifeOf f c with st := st } := by
  unfold State.setLife
  rw [State.lifeOf_cause, State.lifeOf_onLife h]

theorem State.lifeOf_domain (s : State) (i n : Nat) (on : Bool) (f c : Nat) : (s.domain i n on).lifeOf f c = s.lifeOf f c := s.lifeOf_onSl _ _ _ fun _ => rfl

theorem State.lifeOf_setSumpLink (s : State) (i st f c : Nat) : (s.setSumpLink i st).lifeOf f c = s.lifeOf f c := by
  unfold State.setSumpLink
  split
  · rfl
  · rw [State.lifeOf_cause]
    exact s.lifeOf_onSl _ _ _ fun _ => rfl

theorem State.HasLife.onLife {s : State} {f c : Nat} (h : s.HasLife f c) (g : Lifecycle → Lifecycle) : (s.onLife f c g).HasLife f c := by
  obtain ⟨hf, hd, hx⟩ := h
  unfold State.onLife
  split
  · exact ⟨hf, by simpa using hd, hx⟩
  · refine ⟨hf, hd, fun h4 => ?_⟩
    obtain ⟨hc, hl⟩ := hx h4
    rw [State.onSl_sl_self _ _ _ hc]
    exact ⟨by simpa [State.onSl] using hc, by simpa using hl⟩

theorem State.lifeOf_startLife {s : State} {f c : Nat} (h : s.HasLife f c) : ((s.startLife f c).lifeOf f c).st = 1 := by
  have ht : ((s.onLife f c fun l => { l with deferred := false }).setLife f c 1).lifeOf f c = { s.lifeOf f c with deferred := false, st := 1 } := by
    rw [State.lifeOf_setLife (h.onLife _), State.lifeOf_onLife h]
  refine (congrArg Lifecycle.st (?_ : (s.startLife f c).lifeOf f c = _)).trans (congrArg Lifecycle.st ht)
  unfold State.startLife
  dsimp only
  split
  · rfl
  · rw [State.lifeOf_setSumpLink, State.lifeOf_domain]
  · rw [State.lifeOf_domain]
  · rw [State.lifeOf_domain]
  · rfl

/-- The function after its ENABLE is written (Table 17-8). -/
theorem State.lifeOf_writeEnable {s : State} {f c : Nat} (h : s.HasLife f c) (on : Bool) :
    ((s.writeEnable f c on).lifeOf f c).st = (if (s.lifeOf f c).st = 3 then 3 else if (s.lifeOf f c).st = 0 then b2n on
      else if on then (s.lifeOf f c).st else 3) ∧
    ((s.lifeOf f c).st = 3 → ((s.writeEnable f c on).lifeOf f c).deferred = on) ∧
    (s.writeEnable f c on).dict.enableRecords.getLast? = some (f, c, on) := by
  have hq (t : State) : (t.queueEnable f c on).lifeOf f c = t.lifeOf f c := rfl
  refine ⟨?_, fun h3 => ?_, List.getLast?_concat⟩
  · unfold State.writeEnable
    dsimp only
    rw [hq]
    split
    · next h3 =>
      rw [State.lifeOf_onLife h]
      exact h3
    · next h3 =>
      cases on
      · rw [if_neg (by decide)]
        split
        · next h0 => exact h0
        · rw [State.lifeOf_setLife h, if_neg (by decide)]
      · rw [if_pos rfl, if_pos rfl]
        split
        · exact State.lifeOf_startLife h
        · rfl
  · unfold State.writeEnable
    dsimp only
    rw [hq, if_pos h3, State.lifeOf_onLife h]

theorem State.applyEntry_enable (s : State) (f : Fin 7) (c : Nat) (v : Bytes) : s.applyEntry (0x2200 + f) 1 c v = s.writeEnable f c (leNat v == 1) := by
  fin_cases f <;> rfl

theorem entry?_enable (f : Fin 7) {e : Entry} (h : entry? (0x2200 + f) 1 = some e) : e.stored = false ∧ e.isEnable = true ∧ e.chan = decide (4 ≤ f.val) := by
  have hall : ∀ q : Fin 7, (entry? (0x2200 + q) 1).all (fun k => !k.stored && (k.isEnable && k.chan == decide (4 ≤ q.val))) = true := by decide
  have hp := hall f
  rw [h, Option.all_some, Bool.and_eq_true, Bool.and_eq_true, Bool.not_eq_true'] at hp
  exact ⟨hp.1, hp.2.1, eq_of_beq hp.2.2⟩

/-- A write of an entry of Table 17-7 that takes effect, at once or deferred, is answered first. -/
theorem State.doorWrite_enable {s u : State} {d : Door} {index sub c code : Nat} {v : Bytes} {e : Entry} (hj : s.Judges d index sub c v u code)
    (hc : code ≤ codeDeferred) (he : entry? index sub = some e) (hs : e.stored = false) (hn : e.isEnable = true) :
    s.doorWrite d index sub c v = (u.answer d code none).applyEntry index sub (if e.chan then c else 0) v := by
  obtain ⟨ht, hf, p, e', hp, he', hstage, hjudge⟩ := hj
  obtain rfl := Option.some.inj (he.symm.trans he')
  have hc' : ¬ codeDeferred < code := not_lt.2 hc
  by_cases hw : typeWidth e.ty = 0 <;> simp [State.doorWrite, State.access, State.serveOp, State.valueAccess, State.writeValue, *]

end Sys2Proof.Machine
end

section
/-! Writes of loading, epoch, hot-set, security, lifecycle and firmware entries. -/

namespace Sys2Proof.Machine

/-- The device through an access of a door. -/
theorem State.HasLife.of_inv {s u : State} (hs : s.Inv) (hu : u.doorless = s.doorless) {f : Fin 7} {c : Nat} (hc : 4 ≤ f.val → c < 8) : u.HasLife f c := by
  have hl : u.dict.life = s.dict.life := (congrArg (fun v : State => v.dict.life) hu :)
  have hx : u.slices = s.slices := (congrArg State.slices hu :)
  have hslice := fun h8 : c < 8 => State.Inv.sl hs h8
  obtain ⟨⟨hlen, -⟩, -, -, -, hlife⟩ := hs
  refine ⟨f.isLt, by rw [hl, hlife], fun h4 => ⟨by rw [hx, hlen]; exact hc h4, ?_⟩⟩
  rw [State.sl_of_doorless hu]
  obtain ⟨-, -, -, -, -, hlf⟩ := hslice (hc h4)
  exact hlf

theorem State.lifeOf_of_doorless {s u : State} (hu : u.doorless = s.doorless) (f c : Nat) : u.lifeOf f c = s.lifeOf f c :=
  State.of_doorless hu (fun v => v.lifeOf f c) fun _ => rfl

/-- A write of ENABLE that its checks pass (Table 17-8). -/
theorem State.doorWrite_lifecycle {s u : State} (hs : s.Inv) {d : Door} {f : Fin 7} {c code : Nat} {v : Bytes}
    (hj : s.Judges d (0x2200 + f) 1 c v u code) (hc : code ≤ codeDeferred) :
    ∃ w : State, s.doorWrite d (0x2200 + f) 1 c v = w.writeEnable f (if f.val < 4 then 0 else c) (leNat v == 1) ∧
      w.HasLife f (if f.val < 4 then 0 else c) ∧ (∀ t : State, t.lifeOf f c = t.lifeOf f (if f.val < 4 then 0 else c)) ∧
      w.lifeOf f c = s.lifeOf f c ∧ (code = codeOk ↔ ¬ (leNat v = 1 ∧ (s.lifeOf f c).st = 3)) := by
  obtain ⟨hstart, hf, p, e, hp, he, hstage, hjudge⟩ := hj
  obtain ⟨hsto, hen, hch⟩ := entry?_enable f he
  obtain ⟨hi, -⟩ := entry?_index he
  have hu := State.startAccess_doorless hstart
  obtain ⟨hchan, -, hdef⟩ := State.judgeWrite_passes (hjudge.le.trans hc)
  have hchannel : (if e.chan then c else 0) = if f.val < 4 then 0 else c := by
    rw [hch]
    by_cases h4 : f.val < 4
    · rw [if_pos h4, if_neg (by simpa using h4)]
    · rw [if_neg h4, if_pos (by simpa using h4)]
  have hlife (t : State) : t.lifeOf f c = t.lifeOf f (if f.val < 4 then 0 else c) := by
    by_cases h4 : f.val < 4
    · unfold State.lifeOf
      rw [if_pos h4, if_pos h4]
    · rw [if_neg h4]
  have hans := (State.answer_doorless u d code none).trans hu
  refine ⟨u.answer d code none, ?_, .of_inv hs hans fun h4 => ?_, hlife, State.lifeOf_of_doorless hans ..,
    ?_⟩
  · rw [State.doorWrite_enable ⟨hstart, hf, p, e, hp, he, hstage, hjudge⟩ hc he hsto hen, State.applyEntry_enable, hchannel]
  · rw [if_neg (by omega)]
    unfold State.channelCode at hchan
    rw [if_neg (by rw [hch]; simpa using h4)] at hchan
    by_contra h8
    rw [if_pos (by omega)] at hchan
    cases hchan
  · rw [← hjudge, hdef]
    unfold State.deferred
    rw [hen, hi, Nat.add_sub_cancel_left, State.lifeOf_of_doorless hu]
    simp

theorem State.askQuote_of {s : State} (h : (!s.quoteRefused) = true) (v : Bytes) : ∃ t, s.askQuote v = some t :=
  ⟨_, if_neg (by simpa using h)⟩

/-- An entry of the device whose writes go through the store. -/
theorem entry?_kept {index sub : Nat} (h : (entry? index sub).all (fun k => k.stored && !k.chan) = true) {e : Entry} (he : entry? index sub = some e)
    (c : Nat) : e.stored = true ∧ (if e.chan then c else 0) = 0 := by
  rw [he, Option.all_some, Bool.and_eq_true, Bool.not_eq_true'] at h
  exact ⟨h.1, by rw [h.2]; rfl⟩

/-- Settles O43, entry by entry: what an accepted value makes is what the check that admits it answered. -/
theorem doorWritesLoadingAndSecurity : Obligations.DoorWritesLoadingAndSecurity := by
  unfold Obligations.DoorWritesLoadingAndSecurity
  intro s d hs
  have hword (v : Word) : leNat (leBytes 8 v.toNat) = v.toNat := by
    rw [leNat_leBytes]
    exact Nat.mod_eq_of_lt v.isLt
  have hload {u t : State} (h : t.doorless = u.doorless) : t.load = u.load := (congrArg State.load h :)
  have hpkg {u t : State} (h : t.doorless = u.doorless) : t.pkg = u.pkg := (congrArg State.pkg h :)
  have hep {u t : State} (h : t.doorless = u.doorless) : t.epochs = u.epochs := (congrArg State.epochs h :)
  have hsec {u t : State} (h : t.doorless = u.doorless) : t.sec = u.sec := (congrArg State.sec h :)
  have hfw {u t : State} (h : t.doorless = u.doorless) : t.fw = u.fw := (congrArg State.fw h :)
  have hjob {u t : State} (h : t.doorless = u.doorless) : t.job = u.job := (congrArg State.job h :)
  have hsome {o : Option State} {n : State} (h : o.isSome = true) : ∃ t, o = some t ∧ o.getD n = t := by
    obtain ⟨t, ht⟩ := Option.isSome_iff_exists.1 h
    exact ⟨t, ht, by rw [ht]; rfl⟩
  refine ⟨fun k hk => State.took_applied rfl (b := false) rfl fun u t hu hok ht => ?_, fun v hv => State.took_applied rfl (b := false) rfl fun u t hu hok ht => ?_,
    State.took_applied rfl (b := false) rfl fun u t hu hok ht => ?_, State.took_applied rfl (b := false) rfl fun u t hu hok ht => ?_,
    fun v => State.took_applied rfl (b := false) rfl fun u t hu hok ht => ?_, fun v => State.took_applied rfl (b := false) rfl fun u t hu hok ht => ?_,
    fun v => State.took_applied rfl (b := false) rfl fun u t hu hok ht => ?_, fun v => State.took_applied rfl (b := false) rfl fun u t hu hok ht => ?_,
    State.took_applied rfl (b := false) rfl fun u t hu hok ht => ?_, fun n v hn => State.took_stored rfl fun e he => ?_,
    fun f c => ⟨State.turnsAway rfl, fun u hu => ?_⟩, fun f c u hu => ?_, fun f c => ⟨State.turnsAway rfl, fun u hu => ?_⟩,
    fun v => State.took_stored rfl fun e he => ?_,
    fun len => State.took_applied rfl (b := false) rfl fun u t hu hok ht => ?_,
    State.took_applied rfl (b := false) rfl fun u t hu hok ht => ?_, State.took_applied rfl (b := false) rfl fun u t hu hok ht => ?_,
    fun k => State.took_stored rfl fun e he => ?_⟩
  · have hn : leNat (leBytes 1 k) = k := by
      rw [leNat_leBytes]
      omega
    have hok' : (u.serveHot (leNat (leBytes 1 k))).isSome = true := hok
    obtain ⟨w, hw, hw'⟩ := hsome (n := u) hok'
    have ht' : t.doorless = ((u.serveHot (leNat (leBytes 1 k))).getD u).doorless := ht
    rw [hw'] at ht'
    obtain ⟨h1, h2⟩ := State.serveHot_spec hw
    rw [hload ht', hjob ht', h1, hn]
    exact ⟨rfl, h2⟩
  · have hn : leNat (leBytes 8 v.toNat) ≠ 0 := by
      rw [hword]
      exact fun h0 => hv (BitVec.eq_of_toNat_eq h0)
    have hofs : BitVec.ofNat 64 (leNat (leBytes 8 v.toNat)) = v := by rw [hword, BitVec.ofNat_toNat, BitVec.setWidth_eq]
    have hok' : (if leNat (leBytes 8 v.toNat) = 0 then u.disarmReshape.isSome else (u.armReshape (BitVec.ofNat 64 (leNat (leBytes 8 v.toNat)))).isSome) = true := hok
    have ht' : t.doorless = (if leNat (leBytes 8 v.toNat) = 0 then u.disarmReshape.getD u else
      (u.armReshape (BitVec.ofNat 64 (leNat (leBytes 8 v.toNat)))).getD u : State).doorless := ht
    rw [if_neg hn, hofs] at hok' ht'
    obtain ⟨w, hw, hw'⟩ := hsome (n := u) hok'
    rw [hw'] at ht'
    rw [hpkg ht', hep ht']
    exact State.armReshape_spec hw
  · have hok' : u.disarmReshape.isSome = true := hok
    have ht' : t.doorless = (u.disarmReshape.getD u).doorless := ht
    obtain ⟨w, hw, hw'⟩ := hsome (n := u) hok'
    rw [hw'] at ht'
    rw [hpkg ht']
    exact State.disarmReshape_spec hw
  · have hok' : (u.load.st != 1 && (false || u.loadStart.isSome)) = true := hok
    rw [Bool.and_eq_true, Bool.false_or] at hok'
    have ht' : t.doorless = (u.loadStart.getD u).doorless := ht
    obtain ⟨w, hw, hw'⟩ := hsome (n := u) hok'.2
    rw [hw'] at ht'
    obtain ⟨h1, h2, h3, h4, h5⟩ := State.loadStart_spec hw
    rw [hload ht', hjob ht', h5]
    exact ⟨h1, h2, h3, h4, hjob hu⟩
  · rw [hload (u := u.setChain v) ht]
    exact u.setChain_chain v
  · have hofs : BitVec.ofNat 64 (leNat (leBytes 8 v.toNat)) = v := by rw [hword, BitVec.ofNat_toNat, BitVec.setWidth_eq]
    have hok' : (u.load.st != 1 && (u.switchEpoch (BitVec.ofNat 64 (leNat (leBytes 8 v.toNat)))).isSome) = true := hok
    have ht' : t.doorless = ((u.switchEpoch (BitVec.ofNat 64 (leNat (leBytes 8 v.toNat)))).getD u).doorless := ht
    rw [hofs] at hok' ht'
    obtain ⟨w, hw, hw'⟩ := hsome (n := u) (Bool.and_eq_true _ _ ▸ hok').2
    rw [hw'] at ht'
    obtain ⟨h1, h2⟩ := State.switchEpoch_spec hw
    rw [hep ht', h1, h2, hep hu]
    exact ⟨rfl, rfl⟩
  · have hok' : (!u.quoteRefused) = true := hok
    have ht' : t.doorless = ((u.askQuote v).getD u).doorless := ht
    obtain ⟨w, hw⟩ := State.askQuote_of hok' v
    rw [hw, Option.getD_some] at ht'
    obtain ⟨h1, h2, h3⟩ := State.askQuote_spec hw
    rw [hsec ht', h3, hsec hu]
    exact ⟨h1, h2, rfl⟩
  · have ht' : t.doorless = (({ u with sec := { u.sec with mr7Value := v } } : State).extendMR 7 v).doorless := ht
    rw [hsec ht', ← hsec hu]
    exact ⟨rfl, rfl⟩
  · have ht' : t.dict.restore = (u.dict.restore || true) := (congrArg (fun w : State => w.dict.restore) ht :)
    rw [ht', Bool.or_true]
  · have hall : ∀ q : Fin 4, (entry? 0x8040 q.val).all (fun k => k.stored && !k.chan) = true := by decide
    exact entry?_kept (hall ⟨n, hn⟩) he _
  · obtain ⟨w, hw, hhas, hch, hl, hcode⟩ := State.doorWrite_lifecycle hs hu (by decide)
    refine ⟨_, congrArg Host.Outcome.next hw, ?_⟩
    obtain ⟨h1, -, h3⟩ := State.lifeOf_writeEnable hhas true
    have hne : (s.lifeOf f c).st ≠ 3 := fun h => hcode.1 rfl ⟨rfl, h⟩
    rw [hch]
    refine ⟨h1.trans ?_, h3⟩
    rw [← hch, hl, if_neg hne]
    rfl
  · obtain ⟨w, hw, hhas, hch, hl, hcode⟩ := State.doorWrite_lifecycle hs hu le_rfl
    refine ⟨_, congrArg Host.Outcome.next hw, ?_⟩
    obtain ⟨h1, h2, -⟩ := State.lifeOf_writeEnable hhas true
    have h3 : (s.lifeOf f c).st = 3 := (not_not.1 fun h => absurd (hcode.2 h) (by decide)).2
    rw [hch]
    rw [← hch w, hl] at h1 h2
    exact ⟨h1.trans (if_pos h3), h2 h3⟩
  · obtain ⟨w, hw, hhas, hch, hl, hcode⟩ := State.doorWrite_lifecycle hs hu (by decide)
    refine ⟨_, congrArg Host.Outcome.next hw, ?_⟩
    obtain ⟨h1, -, h3⟩ := State.lifeOf_writeEnable hhas false
    rw [hch]
    refine ⟨h1.trans ?_, h3⟩
    rw [← hch, hl]
    by_cases h0 : (s.lifeOf f c).st = 0
    · rw [if_pos h0, if_neg (by omega), if_pos h0]
      rfl
    · rw [if_neg h0]
      split
      · rfl
      · rfl
  · exact entry?_kept (by decide) he _
  · have hn : leNat (leBytes 4 len) = len % 2 ^ 32 := leNat_leBytes 4 len
    have hok' : (u.stageCommit (leNat (leBytes 4 len))).isSome = true := hok
    have ht' : t.doorless = (((u.stageCommit (leNat (leBytes 4 len))).getD u).fwCause u.fw).doorless := ht
    obtain ⟨w, hw, hw'⟩ := hsome (n := u) hok'
    rw [hw'] at ht'
    rw [hn] at hw
    rw [hfw ht', State.fwCause_fw, ← hfw hu]
    exact State.stageCommit_spec hw
  · have hok' : (u.startRollout 1).isSome = true := hok
    have ht' : t.doorless = (((u.startRollout 1).getD u).fwCause u.fw).doorless := ht
    obtain ⟨w, hw, hw'⟩ := hsome (n := u) hok'
    rw [hw'] at ht'
    obtain ⟨h1, h2, h3, h4, -⟩ := State.startRollout_spec hw
    rw [hfw ht', State.fwCause_fw, ← hfw hu]
    exact ⟨h1, h2, h3.trans (congrArg (fun v : State => v.time.drip) hu :), h4 rfl⟩
  · have hok' : (u.startRollout 2).isSome = true := hok
    have ht' : t.doorless = (((u.startRollout 2).getD u).fwCause u.fw).doorless := ht
    obtain ⟨w, hw, hw'⟩ := hsome (n := u) hok'
    rw [hw'] at ht'
    obtain ⟨h1, h2, -, -, h5⟩ := State.startRollout_spec hw
    rw [hfw ht', State.fwCause_fw, ← hfw hu]
    exact ⟨h1, h2, h5 (by decide)⟩
  · exact entry?_kept (by decide) he _

end Sys2Proof.Machine
end

section
/-! What leaves the lifecycle functions alone. -/

namespace Sys2Proof.Machine

/-! ### What leaves the lifecycle functions alone -/

/-- `t` has the lifecycle functions of `s`. -/
structure State.SameLife (s t : State) : Prop where
  agree : State.Agree SliceState.life s t
  dict : t.dict.life = s.dict.life

namespace State.SameLife
variable {s t u : State}

theorem refl (s : State) : State.SameLife s s := ⟨.refl s, rfl⟩

theorem trans (a : State.SameLife s t) (b : State.SameLife t u) : State.SameLife s u := ⟨a.agree.trans b.agree, b.dict.trans a.dict⟩

theorem comp (b : State.SameLife t u) (a : State.SameLife s t) : State.SameLife s u := a.trans b

theorem ite {p : Prop} [Decidable p] (a : State.SameLife s t) (b : State.SameLife s u) : State.SameLife s (if p then t else u) := by
  split <;> assumption

theorem foldl {α : Type} {f : State → α → State} (h : ∀ s a, State.SameLife s (f s a)) (l : List α) (s : State) : State.SameLife s (l.foldl f s) := by
  induction l generalizing s with
  | nil => exact refl _
  | cons a l ih => exact (h s a).trans (ih _)

theorem onSl {i : Nat} {f : SliceState → SliceState} (h : ∀ x, (f x).life = x.life) : State.SameLife s (s.onSl i f) := ⟨.onSl h, rfl⟩

theorem of_slices (h : t.slices = s.slices) (hd : t.dict.life = s.dict.life) : State.SameLife s t := ⟨.of_slices h, hd⟩

theorem after (h : State.SameLife s t) (hs : u.slices = t.slices) (hd : u.dict.life = t.dict.life) : State.SameLife s u := h.trans (of_slices hs hd)

theorem of_settles (h : State.Settles s t) : State.SameLife s t :=
  ⟨fun i => (congrArg SliceState.life (h.agree i) :), (congrArg (fun v : State => v.dict.life) h.calm :)⟩

theorem lifeOf (h : State.SameLife s t) (f c : Nat) : t.lifeOf f c = s.lifeOf f c := by
  unfold State.lifeOf
  rw [h.dict, show (t.sl c).life = (s.sl c).life from h.agree c]

theorem cause (b : Nat) : State.SameLife s (s.cause b) := of_settles (.cause b)

theorem report (i : Nat) (r : Report) : State.SameLife s (s.report i r) := onSl fun _ => rfl

theorem onLink (i : Nat) (l : LinkId) (f : Link → Link) : State.SameLife s (s.onLink i l f) := by
  refine onSl fun x => ?_
  unfold SliceState.onLink
  cases l <;> rfl

theorem goDown (i : Nat) (l : LinkId) (st reason : Nat) : State.SameLife s (s.goDown i l st reason) := by
  have hdrop : State.SameLife s (s.dropLink i l st reason) := by
    unfold State.dropLink
    dsimp only
    refine .comp (t := State.onLink _ i l fun x => x.cleared st) (of_slices rfl rfl) (.comp (onLink ..) ?_)
    exact .ite (.refl _) (of_slices rfl rfl)
  by_cases h : (s.link i l).st = linkUp
  · exact .comp (of_settles (State.goDown_from_up h st reason)) (.comp (onLink ..) hdrop)
  · exact .comp (of_settles (State.goDown_otherwise h st reason)) hdrop

theorem domain (i n : Nat) (on : Bool) : State.SameLife s (s.domain i n on) := onSl fun _ => rfl

theorem setSumpLink (i st : Nat) : State.SameLife s (s.setSumpLink i st) := by
  unfold State.setSumpLink
  exact .ite (.refl _) (.comp (cause _) (onSl fun _ => rfl))

theorem keepSessions (k : USession → Bool) : State.SameLife s (s.keepSessions k) := by
  unfold State.keepSessions
  exact (foldl (f := fun (v : State) (u : USession) => v.dropStaging (.session u.num)) (fun _ _ => of_slices rfl rfl) _ s).after rfl rfl

theorem stopActions (f c : Nat) : State.SameLife s (s.stopActions f c) := by
  have hdown (j : Nat) : State.SameLife s (s.groupDown c j) := foldl (fun _ _ => .ite (.refl _) (goDown ..)) _ _
  unfold State.stopActions
  split
  · exact (keepSessions _).after rfl rfl
  · exact of_slices rfl rfl
  · exact .comp (setSumpLink ..) (domain ..)
  · exact .comp (domain ..) (hdown 5)
  · exact .comp (domain ..) (hdown 6)
  · exact .refl _

theorem enumerate (c : Nat) (e : Expander) : State.SameLife s (s.enumerate c e) := by
  unfold State.enumerate
  dsimp only
  generalize ht : s.onSl c _ = t
  have hl : State.SameLife s t := ht ▸ onSl fun _ => rfl
  refine .comp (setSumpLink ..) (.ite (hl.after rfl rfl) hl)

theorem storeReport : State.SameLife s s.storeReport := report ..

theorem storeWrite : State.SameLife s s.storeWrite := of_settles .storeWrite

theorem storeRecord (index sub c : Nat) (v : Bytes) : State.SameLife s (s.storeRecord index sub c v) := of_settles (.storeRecord ..)

end State.SameLife

theorem State.Inv.hasLife {s : State} (hs : s.Inv) {f c : Nat} (h : f < 4 ∨ f < 7 ∧ c < 8) : s.HasLife f c :=
  .of_inv (f := ⟨f, by omega⟩) hs rfl fun h4 => by have : 4 ≤ f := h4; omega

theorem State.lifeOf_failLife {s : State} (hs : s.Inv) {f c : Nat} (h : f < 4 ∨ f < 7 ∧ c < 8) (code : Nat) :
    ((s.failLife f c code).lifeOf f c).st = 0 ∧ ((s.failLife f c code).lifeOf f c).lastFail = code ∧
      (s.failLife f c code).dict.enableRecords.getLast? = some (f, c, false) := by
  have hstop := State.Inv.hasLife ((State.Keeps.stopActions s f c).2 hs) h
  have hlife : ((((s.stopActions f c).onLife f c fun l => { l with lastFail := code, deferred := false }).setLife f c 0).lifeOf f c) =
      { s.lifeOf f c with lastFail := code, deferred := false, st := 0 } := by
    rw [State.lifeOf_setLife (hstop.onLife _), State.lifeOf_onLife hstop, (State.SameLife.stopActions f c).lifeOf]
  have hq (t : State) : State.SameLife t (t.queueEnable f c false) := .of_slices rfl rfl
  have hu (t : State) : State.SameLife t (if f = 4 ∧ code = 2 then t.setSumpLink c 4 else t) := .ite (.setSumpLink ..) (.refl _)
  have hd (t : State) : (if f = 4 ∧ code = 2 then t.setSumpLink c 4 else t).dict = t.dict := by
    split
    · unfold State.setSumpLink
      split
      · rfl
      · exact State.cause_dict ..
    · rfl
  unfold State.failLife
  dsimp only
  rw [(State.SameLife.report _ _).lifeOf, (hu _).lifeOf, (hq _).lifeOf, hlife]
  refine ⟨rfl, rfl, ?_⟩
  change (ite (f = 4 ∧ code = 2) _ _ : State).dict.enableRecords.getLast? = _
  rw [hd]
  exact List.getLast?_concat

end Sys2Proof.Machine
end

section
/-! Accesses of the window, and the commit of a write. -/

namespace Sys2Proof.Machine

/-! ### Accesses of the window -/

section
variable {s u : State} {index sub : Nat}

theorem State.dictAccess_busy (h : s.dict.busy = true) (op : Nat) : s.dictAccess index sub op = { s with dict := { s.dict with overrun := true } } := by
  have hn : s.startAccess .bar0 index sub op = none := if_pos h
  unfold State.dictAccess
  rw [hn]
  rfl

/-- The window starts an access in a device that no handover holds. -/
structure State.Opens (s : State) (index sub op : Nat) (u : State) : Prop where
  start : s.startAccess .bar0 index sub op = some u
  free : s.fw.handing 33 = false

namespace State.Opens
variable {op : Nat}

theorem doorless (h : s.Opens index sub op u) : u.doorless = s.doorless := State.startAccess_doorless h.start

theorem sel (h : s.Opens index sub op u) : u.dict.sel = s.dict.sel := (congrArg (fun v : State => v.dict.sel) h.doorless :)

theorem data (h : s.Opens index sub op u) : u.dict.data = s.dict.data := by
  have hs := h.start
  change (if s.dict.busy then none else some _) = some u at hs
  split at hs
  · cases hs
  · exact Option.some.inj hs ▸ rfl

theorem unheld (h : s.Opens index sub op u) : u.fw.handing 33 = false := by
  rw [show u.fw = s.fw from (congrArg State.fw h.doorless :)]
  exact h.free

theorem access (h : s.Opens index sub op u) (o : DictOp) : u.access o = u.serveOp o := if_neg (by rw [h.unheld]; decide)

theorem read (h : s.Opens index sub 0 u) :
    s.dictAccess index sub 0 = u.readAccess .bar0 index sub (bits s.dict.sel 2 0) (bits s.dict.sel 11 8) 4096 := by
  unfold State.dictAccess
  rw [h.start, ← h.sel]
  exact h.access _

theorem write (h : s.Opens index sub 1 u) :
    s.dictAccess index sub 1 = u.writeAccess .bar0 index sub (bits s.dict.sel 2 0) (bits s.dict.sel 11 8) (bit s.dict.sel 12) 4096
      (bits s.dict.sel 28 16) (slice s.dict.data 0 4096) := by
  unfold State.dictAccess
  rw [h.start, ← h.sel, ← h.data]
  exact h.access _

theorem info (h : s.Opens index sub 2 u) : s.dictAccess index sub 2 = u.infoAccess .bar0 index sub := by
  unfold State.dictAccess
  rw [h.start]
  exact h.access _

end State.Opens
end

/-! ### Accesses by what their checks say -/

/-- The value of a fixed-width entry that a write carries. -/
def Door.value (d : Door) (width len : Nat) (b : Bytes) : Bytes :=
  match d with
  | .bar0 => slice b 0 width
  | .session _ => b.take len

section
variable {s : State} {d : Door} {p : Principal} {index sub c : Nat} (hp : s.principalOf d = some p)
include hp

theorem State.readAccess_of {e : Entry} (he : entry? index sub = some e) (k size : Nat) : s.readAccess d index sub c k size =
    if s.judgeRead p e c = codeOk then s.answer d codeOk (some ((s.readEntry e p c).length, e.chunk (s.readEntry e p c) k size))
    else s.answer d (s.judgeRead p e c) none := by
  unfold State.readAccess
  rw [hp, he]

theorem State.readAccess_none (he : entry? index sub = none) (k size : Nat) : s.readAccess d index sub c k size = s.answer d codeNoEntry none := by
  unfold State.readAccess
  rw [hp, he]

theorem State.infoAccess_of {e : Entry} (he : entry? index sub = some e) : s.infoAccess d index sub =
    if s.accessOf p e = 0 then s.answer d codeNoEntry none else s.answer d codeOk (some (16, s.infoBytes e)) := by
  unfold State.infoAccess
  rw [hp, he]

theorem State.infoAccess_none (he : entry? index sub = none) : s.infoAccess d index sub = s.answer d codeNoEntry none := by
  unfold State.infoAccess
  rw [hp, he]

theorem State.writeAccess_none (he : entry? index sub = none) (k : Nat) (last : Bool) (size len : Nat) (b : Bytes) :
    s.writeAccess d index sub c k last size len b = s.answer d codeNoEntry none := by
  unfold State.writeAccess
  rw [hp, he]

/-- A write of a fixed-width entry that its principal may write is a write of the whole value. -/
theorem State.writeAccess_whole {e : Entry} (he : entry? index sub = some e) (ha : 2 ≤ s.accessOf p e) (hl : s.lockRefuses p e = false)
    (hw : typeWidth e.ty ≠ 0) (k : Nat) (last : Bool) (size len : Nat) (b : Bytes) :
    s.writeAccess d index sub c k last size len b =
      s.writeValue d index sub c (Door.value d (typeWidth e.ty) len b) := by
  unfold State.writeAccess
  rw [hp, he]
  dsimp only
  rw [if_neg (by omega), if_neg (by omega), if_neg (by simp [hl]), if_neg hw]
  cases d <;> rfl

end

theorem State.infoBytes_length (s : State) (e : Entry) : (s.infoBytes e).length = 16 := by
  unfold State.infoBytes
  simp

theorem patch_start {a b : Bytes} (h : b.length ≤ a.length) : (patch a 0 b).take b.length = b ∧ (patch a 0 b).length = a.length := by
  unfold patch
  simp
  omega

/-- What the window shows once a read or INFO has taken effect. -/
theorem Dict.ended_shown (d : Dict) {len : Nat} {b : Bytes} (h : b.length ≤ 4096) :
    (d.ended codeOk (some (len, b))).data.take b.length = b ∧ (d.ended codeOk (some (len, b))).data.length = 4096 := by
  have hl : (slice d.data 0 4096).length = 4096 := by
    unfold slice zeros
    simp
  have hp := patch_start (a := slice d.data 0 4096) (b := b) (by omega)
  exact ⟨hp.1, hp.2.trans hl⟩

/-! ### The commit of a write -/

theorem execPersistedWriteCommit_eq {s : State} {w : PersistedWrite} (hw : s.dict.writing = some w) (ok : Bool) :
    exec (.persistedWriteCommit ok) s =
      (let y : State := { s with dict := { s.dict with writing := none } }
       let applied := (y.applyEntry w.index w.sub w.channel w.value).answer w.door 0 none
       if ok then .next (if w.index = 0x9010 then applied.storeWrite else applied.storeRecord w.index w.sub w.channel w.value)
       else .next (y.storeReport.answer w.door 0x18 none)) := by
  show execPersistedWriteCommit ok s = _
  unfold execPersistedWriteCommit
  rw [hw]
  rfl

theorem State.storeWrite_dict (s : State) : s.storeWrite.dict.store = s.dict.store ∧ s.storeWrite.dict.writing = s.dict.writing ∧
    s.storeWrite.dict.enableRecords = s.dict.enableRecords ∧ s.storeWrite.sec = s.sec ∧ s.storeWrite.fw = s.fw := by
  unfold State.storeWrite
  dsimp only
  split <;> exact ⟨rfl, rfl, rfl, rfl, rfl⟩

/-- What a record that is written leaves of the store, and of the rest that a write may find. -/
theorem State.storeRecord_dict (s : State) (index sub c : Nat) (v : Bytes) :
    (s.storeRecord index sub c v).dict.store.head?.map (fun r => (r.index, r.sub, r.channel, r.value)) = some (index, sub, c, v) ∧
      (s.storeRecord index sub c v).dict.writing = s.dict.writing ∧ (s.storeRecord index sub c v).dict.enableRecords = s.dict.enableRecords ∧
      (s.storeRecord index sub c v).sec.linkEncrypt = s.sec.linkEncrypt ∧ (s.storeRecord index sub c v).fw = s.fw := by
  unfold State.storeRecord
  dsimp only
  generalize ht : ({ s with dict := { s.dict with store := _ :: _ } } : State) = t
  obtain ⟨hst, hwr, hen, hsec, hfw⟩ := t.storeWrite_dict
  refine ⟨?_, hwr.trans (ht ▸ rfl), hen.trans (ht ▸ rfl), (congrArg Security.linkEncrypt hsec).trans (ht ▸ rfl), hfw.trans (ht ▸ rfl)⟩
  change t.storeWrite.dict.store.head?.map _ = _
  rw [hst, ← ht]
  rfl

end Sys2Proof.Machine
end

section
/-! The dictionary window, the store and lifecycle changes. -/

namespace Sys2Proof.Machine

/-! ### The selector of rings -/

/-- The entry RING_SEL. -/
def ringSelEntry : Entry := ⟨0x6101, 1, 1, 3, 3, 3, false, false, false, 0⟩

theorem entry?_ringSel : entry? 0x6101 1 = some ringSelEntry := by decide

theorem State.judgeWrite_ringSel (u : State) (c : Nat) {v : Bytes} (hv : v.length = 1) :
    u.judgeWrite .host ringSelEntry c v = if leNat v < 64 then codeOk else codeRange := by
  have hlen : ringSelEntry.lengthOk v = true := by
    show (v.length == 1) = true
    rw [hv]
    rfl
  have hrange : u.rangeOk ringSelEntry c v = decide (leNat v < 64) := by
    show (true && true && decide (leNat v < 64)) = _
    rfl
  have hlock : u.lockRefuses .host ringSelEntry = false := by
    unfold State.lockRefuses
    simp [ringSelEntry]
  unfold State.judgeWrite
  dsimp only
  rw [if_neg (show u.accessOf .host ringSelEntry ≠ 0 from (by decide : (3 : Nat) ≠ 0)), if_neg (show ¬ u.accessOf .host ringSelEntry < 2 from (by decide : ¬ (3 : Nat) < 2)),
    if_neg (by rw [hlock]; decide), if_neg (by rw [hlen]; decide), if_neg (show ¬ u.channelCode ringSelEntry c ≠ codeOk from fun h => h rfl), hrange]
  by_cases hn : leNat v < 64
  · rw [if_neg (by simpa using hn), if_pos hn]
    rfl
  · rw [if_pos (by simpa using hn), if_neg hn]

theorem State.writeValue_of {s : State} {d : Door} {p : Principal} {index sub c : Nat} {v : Bytes} {e : Entry} (hp : s.principalOf d = some p)
    (he : entry? index sub = some e) (hst : e.stored = false) (hen : e.isEnable = false) :
    s.writeValue d index sub c v = if codeDeferred < s.judgeWrite p e c v then s.answer d (s.judgeWrite p e c v) none
      else (s.applyEntry index sub (if e.chan then c else 0) v).answer d (s.judgeWrite p e c v) none := by
  unfold State.writeValue
  rw [hp, he]
  dsimp only
  rw [hst, hen]
  rfl

/-- Settles O44: the window by what its checks say, the lifecycle functions by what a step leaves of them. -/
theorem dictionaryAccess : Obligations.DictionaryAccess := by
  unfold Obligations.DictionaryAccess
  intro s hs
  refine ⟨fun index sub hb => ⟨?_, ?_, ?_⟩, fun index sub op u hf hu => ⟨fun e he => ⟨fun h0 hj => ?_, fun h0 hj => ?_, fun h2 ha => ?_, fun h1 ha hl hw => ?_⟩,
      fun he => ⟨fun h0 => ?_, fun h1 => ?_, fun h2 => ?_⟩⟩, fun hb hf => ?_, rfl, rfl, fun hw ok => ?_, fun w hw => ⟨fun hi => ?_, fun hi => ?_, fun hi hsub => ?_, ?_⟩,
    fun f c x hfc hst => ⟨fun h4 => ?_, fun h4 e he => ?_, fun h4 he => ?_, fun code hc => ?_, fun code hc => ?_⟩, fun f c hfc hst => ?_,
    fun f c on rest hrec hfc => ⟨fun hw ok => ?_, fun hw hh => ⟨fun hwear => ?_, ?_⟩⟩⟩
  · exact congrArg Host.Outcome.next (State.dictAccess_busy hb 0)
  · exact congrArg Host.Outcome.next (State.dictAccess_busy hb 1)
  · exact congrArg Host.Outcome.next (State.dictAccess_busy hb 2)
  · subst h0
    have ho : s.Opens index sub 0 u := ⟨hu, hf⟩
    refine ⟨_, congrArg Host.Outcome.next (ho.read.trans ((State.readAccess_of (p := .host) rfl he ..).trans (if_pos hj))), rfl, rfl, rfl, fun hl => ?_⟩
    exact u.dict.ended_shown hl
  · subst h0
    have ho : s.Opens index sub 0 u := ⟨hu, hf⟩
    exact ⟨_, congrArg Host.Outcome.next (ho.read.trans ((State.readAccess_of (p := .host) rfl he ..).trans (if_neg hj))), rfl, rfl, ho.data⟩
  · subst h2
    have ho : s.Opens index sub 2 u := ⟨hu, hf⟩
    refine ⟨_, congrArg Host.Outcome.next (ho.info.trans ((State.infoAccess_of (p := .host) rfl he).trans (if_neg ha))), rfl, rfl, rfl, ?_⟩
    have hl := u.infoBytes_length e
    have hshown := (u.dict.ended_shown (len := 16) (b := u.infoBytes e) (by omega)).1
    rw [hl] at hshown
    exact hshown
  · subst h1
    have ho : s.Opens index sub 1 u := ⟨hu, hf⟩
    exact congrArg Host.Outcome.next (ho.write.trans (State.writeAccess_whole (p := .host) rfl he ha hl hw ..))
  · subst h0
    have ho : s.Opens index sub 0 u := ⟨hu, hf⟩
    exact ⟨_, congrArg Host.Outcome.next (ho.read.trans (State.readAccess_none (p := .host) rfl he ..)), rfl, rfl, ho.data⟩
  · subst h1
    have ho : s.Opens index sub 1 u := ⟨hu, hf⟩
    exact ⟨_, congrArg Host.Outcome.next (ho.write.trans (State.writeAccess_none (p := .host) rfl he ..)), rfl, rfl⟩
  · subst h2
    have ho : s.Opens index sub 2 u := ⟨hu, hf⟩
    exact ⟨_, congrArg Host.Outcome.next (ho.info.trans (State.infoAccess_none (p := .host) rfl he)), rfl, rfl⟩
  · obtain ⟨u, hu⟩ : ∃ u, s.startAccess .bar0 0x6101 1 1 = some u := ⟨_, if_neg (by simp [hb])⟩
    have ho : s.Opens 0x6101 1 1 u := ⟨hu, hf⟩
    have hv : (slice (slice s.dict.data 0 4096) 0 1).length = 1 := by
      unfold slice zeros
      simp
    have hlock : u.lockRefuses .host ringSelEntry = false := by
      unfold State.lockRefuses
      simp [ringSelEntry]
    have hwhole := State.writeAccess_whole (s := u) (d := .bar0) (p := .host) rfl entry?_ringSel (by decide : 2 ≤ (3 : Nat)) hlock (by decide)
      (c := bits s.dict.sel 2 0) (bits s.dict.sel 11 8) (bit s.dict.sel 12) 4096 (bits s.dict.sel 28 16) (slice s.dict.data 0 4096)
    have hval := State.writeValue_of (s := u) (d := .bar0) (p := .host) (c := bits s.dict.sel 2 0) (v := slice (slice s.dict.data 0 4096) 0 1)
      rfl entry?_ringSel rfl rfl
    rw [State.judgeWrite_ringSel u _ hv] at hval
    refine ⟨_, congrArg Host.Outcome.next (ho.write.trans (hwhole.trans hval)), ?_⟩
    have hring : u.dict.ringSel = s.dict.ringSel := (congrArg (fun v : State => v.dict.ringSel) ho.doorless :)
    by_cases hn : leNat (slice (slice s.dict.data 0 4096) 0 1) < 64
    · rw [if_pos hn, if_neg (by decide)]
      exact ⟨rfl, fun h => absurd hn (not_lt.2 h), fun _ => ⟨rfl, rfl⟩⟩
    · rw [if_neg hn, if_pos (by decide)]
      exact ⟨rfl, fun _ => ⟨rfl, hring⟩, fun h => absurd h hn⟩
  · show execPersistedWriteCommit ok s = _
    unfold execPersistedWriteCommit
    rw [hw]
  · refine (execPersistedWriteCommit_eq hw true).trans ((if_pos rfl).trans ?_)
    rw [if_neg hi]
  · refine (execPersistedWriteCommit_eq hw true).trans ((if_pos rfl).trans ?_)
    rw [if_pos hi]
  · refine ⟨_, (execPersistedWriteCommit_eq hw true).trans (if_pos rfl), ?_⟩
    rw [if_neg (by omega)]
    generalize ht : State.answer (State.applyEntry _ w.index w.sub w.channel w.value) w.door 0 none = t
    obtain ⟨h1, h2, -, h4, -⟩ := t.storeRecord_dict w.index w.sub w.channel w.value
    rw [hi, hsub] at ht
    have hd := ht ▸ State.answer_doorless ..
    refine ⟨h2.trans (congrArg (fun v : State => v.dict.writing) hd :), h4.trans ?_, h1⟩
    refine (congrArg (fun v : State => v.sec.linkEncrypt) hd :).trans ?_
    exact beq_eq_decide _ _
  · refine ⟨_, (execPersistedWriteCommit_eq hw false).trans (if_neg (by decide)), rfl, ?_⟩
    have hd := State.answer_doorless (State.storeReport { s with dict := { s.dict with writing := none } }) w.door 0x18 none
    exact ⟨(congrArg (fun v : State => v.dict.writing) hd :), (congrArg State.sec hd :), (congrArg (fun v : State => v.dict.store) hd :)⟩
  · refine ⟨_, (if_neg (not_not.2 hst)).trans (if_neg (by simpa using h4)), ?_⟩
    rw [State.lifeOf_setLife (hs.hasLife (by omega))]
  · refine ⟨_, (if_neg (not_not.2 hst)).trans ((if_pos h4).trans (if_pos he)), ?_⟩
    rw [State.SameLife.enumerate _ _ |>.lifeOf, State.lifeOf_setLife (hs.hasLife (by omega))]
  · have hfail := State.lifeOf_failLife hs (f := f) (c := c) (by omega) 2
    refine ⟨_, (if_neg (not_not.2 hst)).trans ((if_pos h4).trans ?_), hfail⟩
    cases x with
    | none => rfl
    | some e => exact if_neg (by simp [he e rfl])
  · have hfail := State.lifeOf_failLife hs (f := f) (c := c) (by omega) code
    refine ⟨_, congrArg Host.Outcome.next (if_pos ?_), hfail⟩
    rcases hc with rfl | rfl | rfl <;> simp [hst, between]
  · refine congrArg Host.Outcome.next (if_neg ?_)
    rcases hc with rfl | hc
    · simp [between]
    · simp [between, hc]
  · have hlife : ((s.stopActions f c).setLife f c 0).lifeOf f c = { s.lifeOf f c with st := 0 } := by
      rw [State.lifeOf_setLife (State.Inv.hasLife ((State.Keeps.stopActions s f c).2 hs) (by omega)), (State.SameLife.stopActions f c).lifeOf]
    refine ⟨_, if_neg (not_not.2 hst), ?_⟩
    cases hd : (s.lifeOf f c).deferred
    · exact congrArg Lifecycle.st hlife
    · exact State.lifeOf_startLife (State.Inv.hasLife ((State.Keeps.setLife _ _ _ _).2 ((State.Keeps.stopActions s f c).2 hs)) (by omega))
  · show execEnableRecordWrite ok s = _
    unfold execEnableRecordWrite
    rw [hrec]
    exact if_pos (by rcases hw with h | h <;> simp [h])
  · obtain ⟨t, ht⟩ : ∃ t : State, t = ({ s with dict := { s.dict with enableRecords := rest } } : State).onLife f c fun l => { l with enable := on } := ⟨_, rfl⟩
    refine ⟨t.storeRecord (0x2200 + f) 1 (if f < 4 then 0 else c) (leBytes 1 (b2n on)), ?_, ?_⟩
    · show execEnableRecordWrite true s = _
      unfold execEnableRecordWrite
      rw [hrec, ht]
      exact (if_neg (by simp [hw, hh])).trans (if_pos (by simpa using hwear))
    · obtain ⟨h1, -, h3, -, -⟩ := t.storeRecord_dict (0x2200 + f) 1 (if f < 4 then 0 else c) (leBytes 1 (b2n on))
      have hval : leBytes 1 (b2n on) = [if on then 1#8 else 0#8] := by cases on <;> rfl
      have hhas : State.HasLife { s with dict := { s.dict with enableRecords := rest } } f c := hs.hasLife hfc
      have hkept : t.dict.enableRecords = rest := by
        rw [ht]
        unfold State.onLife
        split <;> rfl
      refine ⟨h3.trans hkept, ?_, ?_⟩
      · rw [(State.SameLife.storeRecord ..).lifeOf, ht, State.lifeOf_onLife hhas]
      · rw [← hval]
        simpa only [Option.map_map, Function.comp_def, Option.map_some] using
          congrArg (Option.map fun r : Nat × Nat × Nat × Bytes => (r.1, r.2.1, r.2.2.2)) h1
  · refine ⟨State.storeReport { s with dict := { s.dict with enableRecords := rest } }, ?_, rfl, rfl⟩
    show execEnableRecordWrite false s = _
    unfold execEnableRecordWrite
    rw [hrec]
    exact (if_neg (by simp [hw, hh])).trans (if_neg (by simp))

end Sys2Proof.Machine
end

section
/-! The steps of a firmware rollout. -/

namespace Sys2Proof.Machine

/-! ### A processor that is lost -/

/-- A device without its slices, and without the tear-downs that wait. -/
def State.boards (s : State) : State := { s with slices := [], tears := [] }

theorem State.endTied_boards (s : State) (i : Nat) (u : Run) (a b : Drip) (c : Status) : (s.endTied i u a b c).boards = s.boards := by
  unfold State.endTied
  split
  · refine State.eachSlice_agree (π := State.boards) (fun v k => ?_) s
    rfl
  · rfl

theorem State.faultStage_boards (s : State) (i : Nat) (u : Run) (st : Status) : (s.faultStage i u st).boards = s.boards := by
  unfold State.faultStage
  dsimp only
  split <;> exact State.endTied_boards ..

theorem State.failLive_boards (s : State) (i : Nat) (u : UnitRef) : (s.failLive i u).boards = s.boards :=
  foldl_agree (π := State.boards) (fun t r => State.faultStage_boards t i r .fault) _ s

theorem State.processorLost_boards (s : State) (k : Nat) : (s.processorLost k).boards = s.boards := by
  have hreport (v : State) (i : Nat) (r : Report) : (v.report i r).boards = v.boards := rfl
  have hslice (v : State) (i : Nat) : (v.failUnit i { kind := 0, index := 0 }).boards = (v.failLive i { kind := 0, index := 0 }).boards := rfl
  unfold State.processorLost
  split
  · rw [hreport, hslice]
    exact State.failLive_boards ..
  · rfl

theorem State.processorLost_fw (s : State) (k : Nat) : (s.processorLost k).fw = s.fw := (congrArg State.fw (s.processorLost_boards k) :)

theorem State.processorLost_queued (s : State) (k : Nat) : (s.processorLost k).dict.queued = s.dict.queued :=
  (congrArg (fun v : State => v.dict.queued) (s.processorLost_boards k) :)

theorem State.fwCause_dict (s : State) (f : Firmware) : (s.fwCause f).dict = s.dict := by
  unfold State.fwCause
  split
  · rfl
  · exact State.cause_dict ..

theorem State.fwCause_sec (s : State) (f : Firmware) : (s.fwCause f).sec = s.sec := by
  unfold State.fwCause
  split
  · rfl
  · exact State.cause_sec ..

/-! ### The image that a step takes into service -/

/-- Measurement register 5 is extended with a digest, and the device knows of the handover. -/
def State.Measured (s t : State) (d : Bytes) : Prop :=
  t.sec.handoverSinceBoot = true ∧ t.sec.mr.getD 5 [] = digest64 (0x20#8 :: (s.sec.mr.getD 5 [] ++ d)) ∧ ∀ n, n ≠ 5 → t.sec.mr.getD n [] = s.sec.mr.getD n []

theorem State.Measured.of_sec {s t u : State} {d : Bytes} (h : s.Measured t d) (hu : u.sec = t.sec) : s.Measured u d := by
  unfold State.Measured
  rw [hu]
  exact h

theorem State.measureStep_measured {s u : State} (hmr : s.sec.mr.length = 8) (hu : u.sec = s.sec) (k : Nat) :
    s.Measured (u.measureStep k) (u.fw.imageDigest u.fw.toSlot k) := by
  have hm : (u.measureStep k).sec.mr = s.sec.mr.set 5 (digest64 (0x20#8 :: (s.sec.mr.getD 5 (zeros 64) ++ u.fw.imageDigest u.fw.toSlot k))) := by
    show u.sec.mr.set 5 _ = _
    rw [hu]
  have h5 : s.sec.mr.getD 5 (zeros 64) = s.sec.mr.getD 5 [] := by
    rw [List.getD_eq_getElem?_getD, List.getD_eq_getElem?_getD, List.getElem?_eq_getElem (by omega)]
    rfl
  refine ⟨rfl, ?_, fun n hn => ?_⟩
  · rw [hm, h5]
    exact getD_set_self (by omega) _ _
  · rw [hm, List.getD_eq_getElem?_getD, List.getD_eq_getElem?_getD, List.getElem?_set_ne (by omega), ← List.getD_eq_getElem?_getD]

/-- What measuring leaves of a rollout. -/
theorem State.measureStep_fw (s : State) (k : Nat) : ∃ m, (s.measureStep k).fw = { s.fw with measured := m } := ⟨_, rfl⟩

theorem State.measureStep_queued (s : State) (k : Nat) : (s.measureStep k).dict.queued = s.dict.queued := rfl

/-! ### The commands of a rollout -/

/-- The state in which the next processor switches. -/
def State.handed (s : State) : State :=
  { s with fw := { s.fw with
    switching := true, lastH := s.now, collHold := 0, hold := 0, procs := s.fw.procs.set (s.fw.nextStep - 1) s.fw.toSlot } }

theorem execHandoverStep_good {s : State} (h : s.handoverDue = true) : exec (.handoverStep true) s =
    .next (if s.fw.nextStep = 34 then s.handed.measureStep s.fw.nextStep else s.handed) := (if_neg (by simp [h])).trans rfl

theorem execHandoverStep_bad {s : State} (h : s.handoverDue = true) : exec (.handoverStep false) s =
    .next (if s.fw.rollout = 3 then ((s.processorLost s.fw.nextStep).undone).fwCause s.fw
      else ((s.report 0 (mkReport 0x14 11 0)).reverting).fwCause s.fw) :=
  (if_neg (by simp [h])).trans (apply_ite Host.Outcome.next _ _ _).symm

/-- The state that an image which reports ready is measured in. -/
def State.readied (s : State) : State := if s.fw.nextStep = 34 then s else s.measureStep s.fw.nextStep

/-- The state in which a step is complete. -/
def State.stepDone (s u : State) : State :=
  { u with fw := { u.fw with
    switching := false, step := s.fw.nextStep, running := if decide (s.fw.nextStep = 34) then s.fw.target else s.fw.running
    committing := decide (s.fw.nextStep = 34) } }

theorem execImageReady_eq {s : State} (h : s.fw.switching = true) : exec .imageReady s =
    .next (if s.fw.rollout = 3 then (s.readied.undone).fwCause s.fw else s.stepDone s.readied).serveQueued := by
  refine (if_neg (by simp [h])).trans ?_
  by_cases h3 : s.fw.rollout = 3
  · rw [if_pos h3, if_pos h3]
    rfl
  · rw [if_neg h3, if_neg h3]
    rfl

theorem State.readied_spec {s : State} (hmr : s.sec.mr.length = 8) :
    s.readied.dict = s.dict ∧ (∃ m, s.readied.fw = { s.fw with measured := m }) ∧
      (s.fw.nextStep ≠ 34 → s.Measured s.readied (s.fw.imageDigest s.fw.toSlot s.fw.nextStep)) ∧ (s.fw.nextStep = 34 → s.readied.sec = s.sec) := by
  unfold State.readied
  by_cases hk : s.fw.nextStep = 34
  · rw [if_pos hk]
    exact ⟨rfl, ⟨_, rfl⟩, fun h => absurd hk h, fun _ => rfl⟩
  · rw [if_neg hk]
    exact ⟨rfl, s.measureStep_fw _, fun _ => State.measureStep_measured hmr rfl _, fun h => absurd h hk⟩

/-- Settles O51, command by command. -/
theorem firmwareRollout : Obligations.FirmwareRollout := by
  unfold Obligations.FirmwareRollout
  intro s hs
  have hmr : s.sec.mr.length = 8 := hs.2.2.2.1
  refine ⟨fun h ok => if_pos (by simp [h]), fun h => ⟨?_, ?_⟩, fun h => ⟨?_, fun old => ⟨fun h3 => ?_, fun h3 => ?_⟩⟩, fun h => ⟨if_pos (by simp [h]), fun old => if_pos (by simp [h])⟩,
    fun h => ?_, fun h => congrArg Host.Outcome.next (if_neg h), fun hc hh hw => ⟨fun hwear => ?_, fun ok hok => ?_⟩, fun h ok => if_pos ?_⟩
  · refine ⟨_, execHandoverStep_good h, ?_⟩
    have hmeas := State.measureStep_measured hmr (u := s.handed) rfl s.fw.nextStep
    by_cases hk : s.fw.nextStep = 34
    · rw [if_pos hk]
      exact ⟨rfl, rfl, rfl, rfl, rfl, rfl, rfl, rfl, fun _ => hmeas, fun hn => absurd hk hn⟩
    · rw [if_neg hk]
      exact ⟨rfl, rfl, rfl, rfl, rfl, rfl, rfl, rfl, fun hn => absurd hn hk, fun _ => rfl⟩
  · refine ⟨_, execHandoverStep_bad h, fun h1 => ?_, fun h3 => ?_⟩
    · rw [if_neg (by omega), State.fwCause_fw]
      rfl
    · rw [if_pos h3, State.fwCause_fw]
      have hl := s.processorLost_fw s.fw.nextStep
      unfold State.undone
      dsimp only
      rw [hl, h3]
      exact ⟨rfl, rfl, rfl⟩
  · refine ⟨_, execImageReady_eq h, ?_⟩
    obtain ⟨hd, ⟨m, hm⟩, hmeas, hsec⟩ := State.readied_spec hmr
    by_cases h3 : s.fw.rollout = 3
    · have hfw : (s.readied.undone.fwCause s.fw).fw = { s.fw with measured := m, switching := false, step := s.fw.step - 1, rollout := if s.fw.step ≤ 1 then 4 else 3 } := by
        rw [State.fwCause_fw]
        unfold State.undone
        dsimp only
        rw [hm, h3]
      rw [if_pos h3, hfw, State.fwCause_dict, State.fwCause_sec]
      exact ⟨(congrArg Dict.queued hd :), rfl, fun hk => (hmeas hk).of_sec (State.fwCause_sec ..), hsec, fun hn => absurd h3 hn, fun _ => ⟨rfl, rfl, rfl⟩⟩
    · rw [if_neg h3]
      refine ⟨(congrArg Dict.queued hd :), rfl, hmeas, hsec, fun _ => ⟨rfl, ?_, rfl⟩, fun hn => absurd hn h3⟩
      unfold State.stepDone
      simp only [decide_eq_true_eq]
  · refine ⟨_, (if_neg (by simp [h])).trans (if_neg h3), ?_⟩
    rw [State.fwCause_fw]
    exact ⟨rfl, rfl, rfl, rfl, rfl⟩
  · refine ⟨((s.processorLost s.fw.nextStep).undone).fwCause s.fw, (if_neg (by simp [h])).trans (if_pos h3), ?_⟩
    rw [State.fwCause_fw]
    have hl := s.processorLost_fw s.fw.nextStep
    unfold State.undone
    dsimp only
    rw [hl, h3]
    exact ⟨rfl, rfl, rfl, rfl⟩
  · refine ⟨_, congrArg Host.Outcome.next (if_pos h), ?_⟩
    rw [State.fwCause_fw]
    unfold State.checkHold
    dsimp only
    rw [if_neg (by simp [h]), if_pos h]
    by_cases h0 : s.holdReason = 0
    · rw [if_pos h0]
      exact ⟨fun _ => rfl, fun hn => absurd h0 hn⟩
    · rw [if_neg h0]
      exact ⟨fun hn => absurd hn h0, fun _ => rfl⟩
  · obtain ⟨t, ht⟩ : ∃ t : State, t = { s with fw := { s.fw with boot := s.fw.running, rollout := 0, committing := false, stageState := 0, stageReason := 0 } } := ⟨_, rfl⟩
    obtain ⟨h1, -, -, -, h5⟩ := t.storeRecord_dict 0x9000 3 0 (leBytes 1 s.fw.running)
    refine ⟨(t.storeRecord 0x9000 3 0 (leBytes 1 s.fw.running)).fwCause s.fw, ?_, ?_⟩
    · rw [ht]
      exact (if_neg (by simp [hc, hh, hw])).trans (if_pos (by simpa using hwear))
    · rw [State.fwCause_fw, State.fwCause_dict, h5, ht]
      rw [ht] at h1
      refine ⟨rfl, rfl, rfl, rfl, ?_⟩
      simpa only [Option.map_map, Function.comp_def, Option.map_some] using
        congrArg (Option.map fun r : Nat × Nat × Nat × Bytes => (r.1, r.2.1, r.2.2.2)) h1
  · refine ⟨s.storeReport, (if_neg (by simp [hc, hh, hw])).trans (if_neg ?_), rfl, rfl⟩
    rcases hok with h | h
    · simp [h]
    · simp [h]
  · rcases h with h | h | h
    · simp [h]
    · simp [h]
    · simp [Option.isSome_iff_ne_none.2 h]

end Sys2Proof.Machine
end

section
/-! Sessions of the lantern port and their requests. -/

namespace Sys2Proof.Machine

/-! ### Sessions of the lantern port -/

theorem find?_map_num {l : List USession} {n : Nat} {u : USession} {f : USession → USession} (hf : ∀ w, (f w).num = w.num)
    (h : l.find? (fun w => w.num == n) = some u) : (l.map fun w => if w.num == n then f w else w).find? (fun w => w.num == n) = some (f u) := by
  rw [List.find?_map]
  have hcomp : ((fun w : USession => w.num == n) ∘ fun w => if w.num == n then f w else w) = fun w => w.num == n := by
    funext w
    simp only [Function.comp]
    split
    · rw [hf]
    · rfl
  rw [hcomp, h, Option.map_some, if_pos (List.find?_some h :)]

theorem State.session?_onSession {s : State} {n : Nat} {u : USession} {f : USession → USession} (hf : ∀ w, (f w).num = w.num)
    (h : s.session? n = some u) : (s.onSession n f).session? n = some (f u) := find?_map_num hf h

theorem State.session?_num {s : State} {n : Nat} {u : USession} (h : s.session? n = some u) : u.num = n := eq_of_beq (List.find?_some h :)

/-- A RESULT is kept by the session it goes to, and is sent. -/
theorem State.sendResult_spec {s : State} {n : Nat} {u : USession} (h : s.session? n = some u) (code len : Nat) (data : Bytes) :
    (s.sendResult n code len data).session? n =
        some { u with result := uaricTagged u.k 0x18 n u.seq ([BitVec.ofNat 8 code, 0#8] ++ leBytes 4 len ++ data) } ∧
      (s.sendResult n code len data).out =
        s.out ++ [.lantern (uaricTagged u.k 0x18 n u.seq ([BitVec.ofNat 8 code, 0#8] ++ leBytes 4 len ++ data))] := by
  unfold State.sendResult
  rw [h]
  exact ⟨State.session?_onSession (f := fun w => { w with result := _ }) (fun _ => rfl) h, rfl⟩

/-- What a session's request that the device takes up finds. -/
structure State.Serves (s : State) (n : Nat) (u : USession) (x : State) : Prop where
  session : x.session? n = some { u with seq := u.seq + 1, result := [] }
  doorless : x.doorless = s.doorless
  out : x.out = s.out

theorem State.startAccess_session {s x : State} {n index sub op : Nat} {u : USession} (hu : s.session? n = some u)
    (h : s.startAccess (.session n) index sub op = some x) : s.Serves n u x := by
  have hd := State.startAccess_doorless h
  change (if s.doorOpen (.session n) then some (s.onSession n fun u => { u with seq := u.seq + 1, result := [] }) else none) = some x at h
  split at h
  · refine ⟨?_, hd, ?_⟩
    · exact Option.some.inj h ▸ State.session?_onSession (f := fun w => { w with seq := w.seq + 1, result := [] }) (fun _ => rfl) hu
    · exact Option.some.inj h ▸ rfl
  · cases h

namespace State.Serves
variable {s x : State} {n : Nat} {u : USession}

theorem principal (h : s.Serves n u x) : x.principalOf (.session n) = some u.principal := by
  unfold State.principalOf
  dsimp only
  rw [h.session]
  rfl

theorem handing (h : s.Serves n u x) : x.fw.handing 33 = s.fw.handing 33 := by rw [show x.fw = s.fw from (congrArg State.fw h.doorless :)]

end State.Serves

/-! ### Requests of a session -/

section
variable {s : State} {m : UaricMsg} {u : USession} (hu : s.taggedFrom m = some u)
include hu

theorem State.taggedFrom_session : s.session? u.num = some u := by
  unfold State.taggedFrom at hu
  split at hu
  · next w hw =>
    split at hu
    · obtain rfl := Option.some.inj hu
      rw [State.session?_num hw]
      exact hw
    · cases hu
  · cases hu

variable {type : Nat} (ht : m.type = type) (op : Door → DictOp)
include ht

theorem State.uaricRequest_again (hseq : m.seq = u.seq) (hr : u.result ≠ []) : s.uaricRequest m type op = s.emit (.lantern u.result) := by
  unfold State.uaricRequest
  rw [hu]
  exact (if_neg (not_not.2 ht)).trans ((if_pos hseq).trans (if_neg hr))

theorem State.uaricRequest_discarded (h1 : m.seq ≠ u.seq) (h2 : m.seq ≠ u.seq + 1) : s.uaricRequest m type op = s := by
  unfold State.uaricRequest
  rw [hu]
  exact (if_neg (not_not.2 ht)).trans ((if_neg h1).trans (if_neg h2))

theorem State.uaricRequest_next (hseq : m.seq = u.seq + 1) :
    s.uaricRequest m type op = ((s.startAccess (.session u.num) 0 0 0).map fun t => t.access (op (.session u.num))).getD s := by
  unfold State.uaricRequest
  rw [hu]
  refine (if_neg (not_not.2 ht)).trans ((if_neg (by omega)).trans ((if_pos hseq).trans ?_))
  cases s.startAccess (.session u.num) 0 0 0 <;> rfl

theorem State.uaricRequest_closed (hseq : m.seq = u.seq + 1) (hd : s.doorOpen (.session u.num) = false) : s.uaricRequest m type op = s := by
  have hn : s.startAccess (.session u.num) 0 0 0 = none := if_neg (by rw [hd]; decide)
  rw [State.uaricRequest_next hu ht op hseq, hn]
  rfl

theorem State.uaricRequest_waits (hseq : m.seq = u.seq + 1) (hd : s.doorOpen (.session u.num) = true) (hf : s.fw.handing 33 = true) :
    (s.uaricRequest m type op).dict.queued = s.dict.queued ++ [op (.session u.num)] ∧ (s.uaricRequest m type op).out = s.out := by
  obtain ⟨x, hx⟩ : ∃ x, s.startAccess (.session u.num) 0 0 0 = some x := ⟨_, if_pos hd⟩
  have hs := State.startAccess_session (State.taggedFrom_session hu) hx
  have hq : x.access (op (.session u.num)) = { x with dict := { x.dict with queued := x.dict.queued ++ [op (.session u.num)] } } :=
    if_pos (hs.handing.trans hf)
  rw [State.uaricRequest_next hu ht op hseq, hx, Option.map_some, Option.getD_some, hq]
  exact ⟨congrArg (· ++ _) (congrArg (fun v : State => v.dict.queued) hs.doorless :), hs.out⟩

theorem State.uaricRequest_served {x : State} (hseq : m.seq = u.seq + 1) (hx : s.startAccess (.session u.num) 0 0 0 = some x) (hf : s.fw.handing 33 = false) :
    s.uaricRequest m type op = x.serveOp (op (.session u.num)) := by
  have hs := State.startAccess_session (State.taggedFrom_session hu) hx
  rw [State.uaricRequest_next hu ht op hseq, hx, Option.map_some, Option.getD_some]
  exact if_neg (by rw [hs.handing, hf]; decide)

end

end Sys2Proof.Machine
end

section
/-! Sessions, quotes and pass digests. -/

namespace Sys2Proof.Machine

/-! ### Sessions that close -/

theorem foldl_dropStaging_staging (l : List USession) (s : State) :
    (l.foldl (fun (v : State) u => v.dropStaging (.session u.num)) s).dict.staging =
      s.dict.staging.filter fun g => l.all fun u => g.door != .session u.num := by
  induction l generalizing s with
  | nil => exact (List.filter_eq_self.2 fun _ _ => rfl).symm
  | cons u l ih =>
    rw [List.foldl_cons, ih]
    show (s.dict.staging.filter _).filter _ = _
    rw [List.filter_filter]
    refine List.filter_congr fun g _ => ?_
    rw [List.all_cons, Bool.and_comm]

theorem foldl_dropStaging_sessions (l : List USession) (s : State) :
    (l.foldl (fun (v : State) u => v.dropStaging (.session u.num)) s).lantern = s.lantern :=
  foldl_agree (π := State.lantern) (f := fun (v : State) (u : USession) => v.dropStaging (.session u.num)) (fun _ _ => rfl) l s

/-- A session that closes is gone, and what it was staging too. -/
theorem State.closeSession_spec (s : State) (n : Nat) : (s.closeSession n).session? n = none ∧
    (s.closeSession n).lantern.sessions = s.lantern.sessions.filter (fun w => w.num != n) ∧
    ((s.session? n).isSome = true → ∀ g ∈ (s.closeSession n).dict.staging, g.door ≠ .session n) := by
  have hs : (s.closeSession n).lantern.sessions = s.lantern.sessions.filter (fun w => w.num != n) := by
    unfold State.closeSession State.keepSessions
    dsimp only
    rw [foldl_dropStaging_sessions]
  refine ⟨?_, hs, fun hsome g hg => ?_⟩
  · unfold State.session?
    rw [hs, List.find?_eq_none]
    intro w hw
    simpa using (List.mem_filter.1 hw).2
  · unfold State.closeSession State.keepSessions at hg
    dsimp only at hg
    rw [foldl_dropStaging_staging, List.mem_filter, List.all_eq_true] at hg
    obtain ⟨w, hw⟩ := Option.isSome_iff_exists.1 hsome
    have hn := State.session?_num hw
    have hmem : w ∈ s.lantern.sessions := List.mem_of_find?_eq_some hw
    have := hg.2 w (List.mem_filter.2 ⟨hmem, by simp [hn]⟩)
    rw [hn] at this
    simpa using this

/-! ### A pass digest -/

theorem Service.passOf_onPass {v : Service} {fr : Drip} (h : v.pass.frame = fr ∨ ∃ p ∈ v.older, p.frame = fr) {f : Pass → Pass}
    (hf : ∀ p, (f p).frame = p.frame) : (v.onPass fr f).passOf fr = f (v.passOf fr) := by
  unfold Service.onPass Service.passOf
  by_cases hp : v.pass.frame = fr
  · rw [if_pos (beq_iff_eq.2 hp), if_pos (beq_iff_eq.2 hp)]
    exact if_pos (beq_iff_eq.2 ((hf _).trans hp))
  · have hn : ¬ (v.pass.frame == fr) = true := by simpa using hp
    rw [if_neg hn, if_neg hn, if_neg hn]
    have hcomp : ((fun p : Pass => p.frame == fr) ∘ fun p => if p.frame == fr then f p else p) = fun p => p.frame == fr := by
      funext p
      simp only [Function.comp]
      split
      · rw [hf]
      · rfl
    obtain ⟨p, hmem, hfr⟩ := h.resolve_left hp
    obtain ⟨q, hq⟩ := Option.isSome_iff_exists.1 (List.find?_isSome (p := fun p : Pass => p.frame == fr).2 ⟨p, hmem, beq_iff_eq.2 hfr⟩)
    show ((v.older.map _).find? _).getD {} = f ((v.older.find? _).getD {})
    rw [List.find?_map, hcomp, hq]
    exact if_pos (List.find?_some hq :)

/-- The digest of a slice as its pass holds it, zeros where none has come. -/
def Pass.digestOf (p : Pass) (m : Place) : Bytes :=
  match p.digests.find? fun g => g.1 == m with
  | some g => g.2.1
  | none => zeros 64

/-- A pass with the pass digest that another one's digests give. -/
def Pass.formed (p old : Pass) (ms : List Place) : Pass :=
  { p with
    passDigest := digest64 (0x05#8 :: (ms.map old.digestOf).flatten)
    incomplete := p.incomplete || !(ms.all fun m => old.digests.any fun g => g.1 == m) }

theorem Pass.formed_incomplete (p : Pass) (ms : List Place) :
    (p.formed p ms).incomplete = true ↔ p.incomplete = true ∨ ∃ m ∈ ms, ∀ g ∈ p.digests, g.1 ≠ m := by
  unfold Pass.formed
  simp only [Bool.or_eq_true, Bool.not_eq_true', List.all_eq_false, List.any_eq_true, beq_iff_eq, not_exists, not_and]

/-- A slice in which a stage has changed its pass, and has completed where it was launched. -/
def SliceState.withPass (x : SliceState) (u : Run) (f : Pass → Pass) : SliceState :=
  let y := { x with svc := x.svc.onPass u.frame f }
  if u.st == .launched then y.completeRun u else y

theorem SliceState.withPass_spec {x : SliceState} {u : Run} (h : x.svc.pass.frame = u.frame ∨ ∃ p ∈ x.svc.older, p.frame = u.frame) {f : Pass → Pass}
    (hf : ∀ p, (f p).frame = p.frame) :
    (x.withPass u f).svc.passOf u.frame = f (x.svc.passOf u.frame) ∧ (x.withPass u f).mem = x.mem ∧
      (u.st = .launched → ∀ r ∈ (x.withPass u f).runs, r.idx = u.idx → r.frame = u.frame → r.st = .completed) ∧
      (u.st ≠ .launched → (x.withPass u f).runs = x.runs) := by
  have hpass := Service.passOf_onPass h hf
  unfold SliceState.withPass
  dsimp only
  by_cases hl : u.st = .launched
  · rw [if_pos (by rw [hl]; rfl)]
    have hsvc (y : SliceState) : (y.completeRun u).svc = y.svc :=
      (SliceState.setFlag?_agree (π := SliceState.svc) (fun _ _ _ _ => rfl) _ _).trans rfl
    have hmem (y : SliceState) : (y.completeRun u).mem = y.mem :=
      (SliceState.setFlag?_agree (π := SliceState.mem) (fun _ _ _ _ => rfl) _ _).trans rfl
    rw [hsvc, hmem]
    exact ⟨hpass, rfl, fun _ => SliceState.completeRun_completes _ _, fun hn => absurd hl hn⟩
  · rw [if_neg (by simpa using hl)]
    exact ⟨hpass, rfl, fun hn => absurd hn hl, fun _ => rfl⟩

theorem State.onSl_withPass {s : State} (hs : s.Inv) (sl : SliceId) {u : Run}
    (h : (s.sl sl).svc.pass.frame = u.frame ∨ ∃ p ∈ (s.sl sl).svc.older, p.frame = u.frame) {f : Pass → Pass} (hf : ∀ p, (f p).frame = p.frame) :
    let t := s.onSl sl fun x => x.withPass u f
    (t.sl sl).svc.passOf u.frame = f ((s.sl sl).svc.passOf u.frame) ∧ (t.sl sl).mem = (s.sl sl).mem ∧
      (u.st = .launched → ∀ r ∈ (t.sl sl).runs, r.idx = u.idx → r.frame = u.frame → r.st = .completed) ∧
      (u.st ≠ .launched → (t.sl sl).runs = (s.sl sl).runs) := by
  dsimp only
  rw [State.onSl_sl_self _ _ _ (hs.slices_lt sl)]
  exact SliceState.withPass_spec h hf

/-! ### The answers of a session's requests -/

/-- What the answer of a request that is served leaves of its session. -/
theorem State.Serves.answered {s x : State} {n : Nat} {u : USession} (h : s.Serves n u x) (code : Nat) (v : Option (Nat × Bytes)) :
    ∃ w, (x.answer (.session n) code v).session? n = some w ∧ w.seq = u.seq + 1 ∧
      w.result = uaricTagged u.k 0x18 n (u.seq + 1) ([BitVec.ofNat 8 code, 0#8] ++ leBytes 4 ((v.map (·.1)).getD 0) ++ (v.map (·.2)).getD []) ∧
      (x.answer (.session n) code v).out = s.out ++ [.lantern w.result] := by
  obtain ⟨h1, h2⟩ := State.sendResult_spec h.session code ((v.map (·.1)).getD 0) ((v.map (·.2)).getD [])
  refine ⟨_, h1, rfl, rfl, ?_⟩
  rw [← h.out]
  exact h2

/-- The first checks of a write of a fixed-width entry answer what the whole judgement would. -/
theorem State.writeAccess_judged {x : State} {d : Door} {p : Principal} {index sub c code : Nat} {e : Entry} (hp : x.principalOf d = some p)
    (he : entry? index sub = some e) (hw : typeWidth e.ty ≠ 0) {k : Nat} {last : Bool} {size len : Nat} {b : Bytes}
    (hj : x.judgeWrite p e c (Door.value d (typeWidth e.ty) len b) = code) :
    (codeDeferred < code → x.writeAccess d index sub c k last size len b = x.answer d code none) ∧
      (code ≤ codeDeferred → x.writeAccess d index sub c k last size len b = x.writeValue d index sub c (Door.value d (typeWidth e.ty) len b)) := by
  have hgate : (x.accessOf p e = 0 ∧ code = codeNoEntry) ∨ (x.accessOf p e ≠ 0 ∧ x.accessOf p e < 2 ∧ code = codeAccess) ∨
      (2 ≤ x.accessOf p e ∧ x.lockRefuses p e = true ∧ code = codeLocked) ∨ (2 ≤ x.accessOf p e ∧ x.lockRefuses p e = false) := by
    unfold State.judgeWrite at hj
    dsimp only at hj
    by_cases h0 : x.accessOf p e = 0
    · rw [if_pos h0] at hj
      exact .inl ⟨h0, hj.symm⟩
    · rw [if_neg h0] at hj
      by_cases h2 : x.accessOf p e < 2
      · rw [if_pos h2] at hj
        exact .inr (.inl ⟨h0, h2, hj.symm⟩)
      · rw [if_neg h2] at hj
        by_cases hl : x.lockRefuses p e = true
        · rw [if_pos hl] at hj
          exact .inr (.inr (.inl ⟨not_lt.1 h2, hl, hj.symm⟩))
        · exact .inr (.inr (.inr ⟨not_lt.1 h2, by simpa using hl⟩))
  have hpe : x.writeAccess d index sub c k last size len b =
      if x.accessOf p e = 0 then x.answer d codeNoEntry none
      else if x.accessOf p e < 2 then x.answer d codeAccess none
      else if x.lockRefuses p e then x.answer d codeLocked none
      else x.writeValue d index sub c (Door.value d (typeWidth e.ty) len b) := by
    unfold State.writeAccess
    rw [hp, he]
    dsimp only
    rw [if_neg hw]
    cases d <;> rfl
  rw [hpe]
  rcases hgate with ⟨h0, rfl⟩ | ⟨h0, h2, rfl⟩ | ⟨h2, hl, rfl⟩ | ⟨h2, hl⟩
  · rw [if_pos h0]
    exact ⟨fun _ => rfl, fun h => absurd h (by decide)⟩
  · rw [if_neg h0, if_pos h2]
    exact ⟨fun _ => rfl, fun h => absurd h (by decide)⟩
  · rw [if_neg (by omega), if_neg (by omega), if_pos hl]
    exact ⟨fun _ => rfl, fun h => absurd h (by decide)⟩
  · rw [if_neg (by omega), if_neg (by omega), if_neg (by rw [hl]; decide)]
    refine ⟨fun hc => ?_, fun _ => rfl⟩
    unfold State.writeValue
    rw [hp, he]
    dsimp only
    rw [hj, if_pos hc]

/-! ### The handshake -/

theorem State.openReject_none {s : State} {m : UaricMsg} (h : s.openReject m = none) :
    ∃ n p, s.lantern.freeNum = some n ∧ openPrincipal m.body = some p := by
  unfold State.openReject at h
  split at h
  · cases h
  · split at h
    · cases h
    · split at h
      · cases h
      · next hfree =>
        simp only [Bool.or_eq_true, Option.isNone_iff_eq_none, not_or] at hfree
        obtain ⟨n, hn⟩ := Option.ne_none_iff_exists'.1 hfree.2
        split at h
        · next p hp => exact ⟨n, p, hn, hp⟩
        · cases h

/-- The nonce and the X448 pair that a CHALLENGE draws, and the transcript up to it (R453). -/
def State.challengeNonce (s : State) : Bytes := slice (s.drawTrng 88).1 0 32
def State.challengePriv (s : State) : Bytes := slice (s.drawTrng 88).1 32 56
def State.challengePub (s : State) : Bytes := slice (Config.x448Public s.challengePriv) 0 56
def State.challengeTh1 (s : State) (m : UaricMsg) : Bytes := shake256 (0x40#8 :: (m.body ++ s.challengeNonce ++ s.challengePub)) 64

/-- The handshake that an OPEN starts. -/
def State.handshakeOf (s : State) (m : UaricMsg) : UHandshake :=
  { num := s.lantern.freeNum.getD 1, principal := (openPrincipal m.body).getD .operator, key := openKey m.body, th1 := s.challengeTh1 m
    k := kmac256 (Config.x448 s.challengePriv (openX448 m.body)) (s.challengeTh1 m) 32 (ascii "LANTERN") }

/-- The body of a CHALLENGE. -/
def State.challengeBody (s : State) (m : UaricMsg) : Bytes :=
  s.challengeNonce ++ s.challengePub ++ slice (Config.ed448Sign s.identitySeed "KN800-LANTERN" (s.challengeTh1 m)) 0 114

/-- The state in which a CHALLENGE has answered an OPEN. -/
def State.challenged (s : State) (m : UaricMsg) : State :=
  State.emit { s with draws := s.draws + 88, lantern := { s.lantern with handshakes := s.lantern.handshakes ++ [s.handshakeOf m] } }
    (.lantern (uaricBytes 0x02 (s.handshakeOf m).num m.seq (s.challengeBody m)))

theorem execUaricOpen_challenge {s : State} {m : UaricMsg} (ht : s.takesDatagram m = true) (hr : s.openReject m = none) :
    exec (.uaricOpen m) s = .next (s.challenged m) := by
  show execUaricOpen m s = _
  unfold execUaricOpen
  rw [if_neg (by simp [ht]), hr]
  rfl

/-- The state in which the handshake of a PROVE has ended. -/
def State.proved (s : State) (h : UHandshake) : State :=
  { s with lantern := { s.lantern with handshakes := s.lantern.handshakes.filter fun g => g.num != h.num } }

/-- The state in which a PROVE has opened its session. -/
def State.opened (s : State) (h : UHandshake) : State :=
  State.emit { s.proved h with lantern := { (s.proved h).lantern with
    sessions := (s.proved h).lantern.sessions ++ [{ num := h.num, principal := h.principal, key := h.key, k := h.k }] } }
    (.lantern (uaricTagged h.k 0x04 h.num 0 (leBytes 4 s.lantern.idle ++ zeros 4)))

theorem execProve_eq {s : State} {m : UaricMsg} {h : UHandshake} (hg : s.lantern.handshakes.find? (fun g => g.num == m.session) = some h)
    (ht : s.takesDatagram m = true) (hv : m.version = 1) : exec (.prove m) s = .next (
      if (s.sec.identity == 1 && !s.sec.trngFailing) = true then
        if (m.body.length == 114 && Config.ed448Verify h.key "KN800-LANTERN" (shake256 (0x41#8 :: h.th1) 64) m.body) = true then s.opened h
        else (s.proved h).reject m 2
      else (s.proved h).reject m 4) := by
  show execProve m s = _
  unfold execProve
  rw [hg]
  refine (if_neg (by simp [ht, hv])).trans ?_
  by_cases hsound : (s.sec.identity == 1 && !s.sec.trngFailing) = true
  · have hn : ¬ (decide (s.sec.identity ≠ 1) || s.sec.trngFailing) = true := by simpa using hsound
    rw [if_pos hsound]
    refine (if_neg hn).trans ?_
    by_cases hgood : (m.body.length == 114 && Config.ed448Verify h.key "KN800-LANTERN" (shake256 (0x41#8 :: h.th1) 64) m.body) = true
    · rw [if_pos hgood, if_pos hgood]
      rfl
    · rw [if_neg hgood, if_neg hgood]
      rfl
  · have hn : (decide (s.sec.identity ≠ 1) || s.sec.trngFailing) = true := by
      simp only [Bool.and_eq_true, beq_iff_eq, Bool.not_eq_true', not_and, Bool.not_eq_false] at hsound
      simp only [Bool.or_eq_true, decide_eq_true_eq]
      exact or_iff_not_imp_left.2 fun h1 => hsound (not_not.1 h1)
    rw [if_neg hsound]
    exact if_pos hn

/-- Settles O50, message by message. -/
theorem sessionsQuotesAndPassDigests : Obligations.SessionsQuotesAndPassDigests := by
  unfold Obligations.SessionsQuotesAndPassDigests
  intro s hs
  refine ⟨fun m => ⟨fun h => ⟨?_, ?_, ?_⟩, fun h => ⟨fun hno => ?_, fun code hcode => ?_, fun g hg hver => ?_, fun hver hw => ?_, fun hno => ?_⟩⟩, fun m h i hi => ?_,
    fun m u hu => ⟨fun ht => ⟨⟨fun hq hr => ?_, fun h1 h2 => ?_, fun hq hd => ?_, fun hq hd hf => ?_⟩, fun hq x hx hf => ?_⟩,
      fun ht => ⟨⟨fun hq hr => ?_, fun h1 h2 => ?_, fun hq hd => ?_, fun hq hd hf => ?_⟩, fun hq x hx hf => ?_⟩,
      fun ht => ⟨⟨fun hq hr => ?_, fun h1 h2 => ?_, fun hq hd => ?_, fun hq hd hf => ?_⟩, fun he hq x hx hf => ?_, fun x e code he hw hq hc hj => ?_,
        fun v x hi hsub hv hx hq => ?_⟩, ?_⟩,
    fun n => ⟨⟨_, rfl, s.closeSession_spec n⟩, rfl⟩, fun h => if_pos h, fun h => if_neg h, fun sl i => ⟨fun h => ?_, fun u h hold => ?_⟩⟩
  · exact if_pos (by simp [h])
  · show execProve m s = _
    unfold execProve
    split
    · rfl
    · exact if_pos (by simp [h])
  · exact if_pos (by simp [h])
  · obtain ⟨n, p, hn, hp⟩ := State.openReject_none hno
    refine ⟨_, s.handshakeOf m, s.challengeBody m, execUaricOpen_challenge h hno, rfl, ?_, ?_, rfl, rfl, rfl, rfl⟩
    · show _ = some (s.lantern.freeNum.getD 1)
      rw [hn]
      rfl
    · show _ = some ((openPrincipal m.body).getD .operator)
      rw [hp]
      rfl
  · refine ⟨s.reject m code, ?_, rfl, rfl, rfl⟩
    show execUaricOpen m s = _
    unfold execUaricOpen
    rw [if_neg (by simp [h]), hcode]
  · refine ⟨_, execProve_eq hg h hver, ?_, fun hgood => ?_, fun hgood => ?_⟩
    · split
      · split <;> rfl
      · rfl
    · have hgood' : ((s.sec.identity == 1 && !s.sec.trngFailing) && m.body.length == 114 &&
          Config.ed448Verify g.key "KN800-LANTERN" (shake256 (0x41#8 :: g.th1) 64) m.body) = true := hgood
      rw [Bool.and_assoc, Bool.and_eq_true] at hgood'
      rw [if_pos hgood'.1, if_pos hgood'.2]
      exact ⟨rfl, rfl, rfl⟩
    · have hgood' : ((s.sec.identity == 1 && !s.sec.trngFailing) && m.body.length == 114 &&
          Config.ed448Verify g.key "KN800-LANTERN" (shake256 (0x41#8 :: g.th1) 64) m.body) = false := hgood
      change _ ∧ _ ∧ (State.out _ = s.out ++ [.lantern (uaricBytes 0x1F m.session m.seq [if (s.sec.identity == 1 && !s.sec.trngFailing) then 2#8 else 4#8])])
      by_cases hsound : (s.sec.identity == 1 && !s.sec.trngFailing) = true
      · rw [Bool.and_assoc, hsound, Bool.true_and] at hgood'
        rw [if_pos hsound, if_pos hsound, if_neg (by rw [hgood']; decide)]
        exact ⟨rfl, rfl, rfl⟩
      · rw [if_neg hsound, if_neg hsound]
        exact ⟨rfl, rfl, rfl⟩
  · exact if_neg (by simp [h, hver, hw])
  · refine if_pos ?_
    rcases hno with hno | hno
    · simp [hno]
    · simp [hno]
  · have hreq (type : Nat) (op : Door → DictOp) : s.uaricRequest m type op = s := by
      unfold State.uaricRequest
      rw [h]
    simp only [List.mem_cons, List.not_mem_nil, or_false] at hi
    rcases hi with rfl | rfl | rfl | rfl
    · exact congrArg Host.Outcome.next (hreq ..)
    · exact congrArg Host.Outcome.next (hreq ..)
    · exact congrArg Host.Outcome.next (hreq ..)
    · show execUaricClose m s = _
      unfold execUaricClose
      rw [h]
  · exact congrArg Host.Outcome.next (State.uaricRequest_again hu ht _ hq hr)
  · exact congrArg Host.Outcome.next (State.uaricRequest_discarded hu ht _ h1 h2)
  · exact congrArg Host.Outcome.next (State.uaricRequest_closed hu ht _ hq hd)
  · exact ⟨_, _, rfl, rfl, State.uaricRequest_waits hu ht _ hq hd hf⟩
  · have hserve := State.startAccess_session (State.taggedFrom_session hu) hx
    have hex : exec (.uaricRead m) s = .next (x.readAccess (.session u.num) (UaricMsg.index m) (UaricMsg.sub m) (UaricMsg.channel m) (UaricMsg.chunk m) 1024) :=
      congrArg Host.Outcome.next (State.uaricRequest_served hu ht _ hq hx hf)
    cases he : entry? (UaricMsg.index m) (UaricMsg.sub m) with
    | none =>
      rw [State.readAccess_none hserve.principal he] at hex
      obtain ⟨w, h1, h2, h3, h4⟩ := hserve.answered codeNoEntry none
      exact ⟨_, w, codeNoEntry, 0, [], hex, h1, h2.trans hq.symm, hq ▸ h3, h4, fun _ => ⟨rfl, rfl, rfl⟩, fun e hn => by cases hn⟩
    | some e =>
      rw [State.readAccess_of hserve.principal he] at hex
      by_cases hj : x.judgeRead u.principal e (UaricMsg.channel m) = codeOk
      · rw [if_pos hj] at hex
        obtain ⟨w, h1, h2, h3, h4⟩ := hserve.answered codeOk (some ((x.readEntry e u.principal (UaricMsg.channel m)).length,
          e.chunk (x.readEntry e u.principal (UaricMsg.channel m)) (UaricMsg.chunk m) 1024))
        refine ⟨_, w, codeOk, _, _, hex, h1, h2.trans hq.symm, hq ▸ h3, h4, fun hn => absurd hn (Option.some_ne_none _), fun e' hn => ?_⟩
        obtain rfl := Option.some.inj hn
        exact ⟨hj.symm, fun h0 => absurd rfl h0, fun _ => ⟨rfl, rfl⟩⟩
      · rw [if_neg hj] at hex
        obtain ⟨w, h1, h2, h3, h4⟩ := hserve.answered (x.judgeRead u.principal e (UaricMsg.channel m)) none
        refine ⟨_, w, _, 0, [], hex, h1, h2.trans hq.symm, hq ▸ h3, h4, fun hn => absurd hn (Option.some_ne_none _), fun e' hn => ?_⟩
        obtain rfl := Option.some.inj hn
        exact ⟨rfl, fun _ => ⟨rfl, rfl⟩, fun h0 => absurd h0 hj⟩
  · exact congrArg Host.Outcome.next (State.uaricRequest_again hu ht _ hq hr)
  · exact congrArg Host.Outcome.next (State.uaricRequest_discarded hu ht _ h1 h2)
  · exact congrArg Host.Outcome.next (State.uaricRequest_closed hu ht _ hq hd)
  · exact ⟨_, _, rfl, rfl, State.uaricRequest_waits hu ht _ hq hd hf⟩
  · have hserve := State.startAccess_session (State.taggedFrom_session hu) hx
    have hex : exec (.uaricInfo m) s = .next (x.infoAccess (.session u.num) (UaricMsg.index m) (UaricMsg.sub m)) :=
      congrArg Host.Outcome.next (State.uaricRequest_served hu ht _ hq hx hf)
    cases he : entry? (UaricMsg.index m) (UaricMsg.sub m) with
    | none =>
      rw [State.infoAccess_none hserve.principal he] at hex
      obtain ⟨w, h1, h2, h3, h4⟩ := hserve.answered codeNoEntry none
      exact ⟨_, w, codeNoEntry, 0, [], hex, h1, h2.trans hq.symm, hq ▸ h3, h4, fun _ => ⟨rfl, rfl, rfl⟩, fun e hn => by cases hn⟩
    | some e =>
      rw [State.infoAccess_of hserve.principal he] at hex
      by_cases ha : x.accessOf u.principal e = 0
      · rw [if_pos ha] at hex
        obtain ⟨w, h1, h2, h3, h4⟩ := hserve.answered codeNoEntry none
        refine ⟨_, w, codeNoEntry, 0, [], hex, h1, h2.trans hq.symm, hq ▸ h3, h4, fun hn => absurd hn (Option.some_ne_none _), fun e' hn => ?_⟩
        obtain rfl := Option.some.inj hn
        exact ⟨fun _ => ⟨rfl, rfl, rfl⟩, fun hn => absurd ha hn⟩
      · rw [if_neg ha] at hex
        obtain ⟨w, h1, h2, h3, h4⟩ := hserve.answered codeOk (some (16, x.infoBytes e))
        refine ⟨_, w, codeOk, 16, _, hex, h1, h2.trans hq.symm, hq ▸ h3, h4, fun hn => absurd hn (Option.some_ne_none _), fun e' hn => ?_⟩
        obtain rfl := Option.some.inj hn
        exact ⟨fun hn => absurd hn ha, fun _ => ⟨rfl, rfl, rfl⟩⟩
  · exact congrArg Host.Outcome.next (State.uaricRequest_again hu ht _ hq hr)
  · exact congrArg Host.Outcome.next (State.uaricRequest_discarded hu ht _ h1 h2)
  · exact congrArg Host.Outcome.next (State.uaricRequest_closed hu ht _ hq hd)
  · exact ⟨_, _, rfl, rfl, State.uaricRequest_waits hu ht _ hq hd hf⟩
  · have hserve := State.startAccess_session (State.taggedFrom_session hu) hx
    have hex : exec (.uaricWrite m) s = .next (x.writeAccess (.session u.num) (UaricMsg.index m) (UaricMsg.sub m) (UaricMsg.channel m) (UaricMsg.chunk m)
        (UaricMsg.last m) 1024 (UaricMsg.chunkLen m) (m.body.drop 8)) := congrArg Host.Outcome.next (State.uaricRequest_served hu ht _ hq hx hf)
    rw [State.writeAccess_none hserve.principal he] at hex
    obtain ⟨w, h1, h2, h3, h4⟩ := hserve.answered codeNoEntry none
    exact ⟨_, w, codeNoEntry, 0, [], hex, h1, h2.trans hq.symm, hq ▸ h3, h4, rfl, rfl, rfl⟩
  · obtain ⟨hstart, hfree, p, e', hp, he', -, hjudge⟩ := hj
    have hserve := State.startAccess_session (State.taggedFrom_session hu) hstart
    have hx : s.startAccess (.session u.num) 0 0 0 = some x := hstart
    have hex : exec (.uaricWrite m) s = .next (x.writeAccess (.session u.num) (UaricMsg.index m) (UaricMsg.sub m) (UaricMsg.channel m) (UaricMsg.chunk m)
        (UaricMsg.last m) 1024 (UaricMsg.chunkLen m) (m.body.drop 8)) :=
      congrArg Host.Outcome.next (State.uaricRequest_served hu ht _ hq hx (by rw [← hserve.handing]; exact hfree))
    obtain rfl := Option.some.inj (he.symm.trans he')
    rw [hex, (State.writeAccess_judged hp he hw (len := UaricMsg.chunkLen m) (b := m.body.drop 8) hjudge).1 hc]
  · obtain ⟨hstart, hfree, p, e', hp, he', -, hjudge⟩ := hx
    have hserve := State.startAccess_session (State.taggedFrom_session hu) hstart
    have hx : s.startAccess (.session u.num) 0 0 0 = some x := hstart
    have hex : exec (.uaricWrite m) s = .next (x.writeAccess (.session u.num) (UaricMsg.index m) (UaricMsg.sub m) (UaricMsg.channel m) (UaricMsg.chunk m)
        (UaricMsg.last m) 1024 (UaricMsg.chunkLen m) (m.body.drop 8)) :=
      congrArg Host.Outcome.next (State.uaricRequest_served hu ht _ hq hx (by rw [← hserve.handing]; exact hfree))
    obtain rfl := Option.some.inj (entry?_ringSel.symm.trans he')
    subst hv
    rw [hi, hsub, (State.writeAccess_judged hp he' (by decide) (len := UaricMsg.chunkLen m) (b := m.body.drop 8) hjudge).2 (by decide),
      State.writeValue_of hp he' rfl rfl] at hex
    change x.judgeWrite p ringSelEntry (UaricMsg.channel m) (Door.value (.session u.num) (typeWidth ringSelEntry.ty) (UaricMsg.chunkLen m) (m.body.drop 8)) = codeOk at hjudge
    rw [hjudge, if_neg (by decide)] at hex
    generalize hy : x.applyEntry 0x6101 1 _ _ = y at hex
    have hys : y.session? u.num = x.session? u.num := hy ▸ rfl
    have hyo : y.out = x.out := hy ▸ rfl
    obtain ⟨h1, h2⟩ := State.sendResult_spec (hys.trans hserve.session) codeOk 0 []
    refine ⟨_, _, hex, ?_, h1, hq.symm, ?_, ?_⟩
    · exact (congrArg (fun v : State => v.dict.ringSel) (State.answer_doorless y (.session u.num) codeOk none) :).trans (hy ▸ rfl)
    · rw [hq]
      simp only [List.append_nil]
      rfl
    · rw [hyo, hserve.out] at h2
      exact h2
  · show ∃ t, execUaricClose m s = .next t ∧ _
    refine ⟨s.closeSession u.num, ?_, ?_⟩
    · unfold execUaricClose
      rw [hu]
    · obtain ⟨h1, h2, h3⟩ := s.closeSession_spec u.num
      exact ⟨h1, h2, h3 (by rw [State.taggedFrom_session hu]; rfl)⟩
  · show execPassDigestForm sl i s = _
    unfold execPassDigestForm
    rw [h]
  · refine ⟨s.formPass sl u, ?_, .onSl s _, ?_⟩
    · show execPassDigestForm sl i s = _
      unfold execPassDigestForm
      rw [h]
    · obtain ⟨hpass, hmem, hdone, hkept⟩ := State.onSl_withPass hs sl hold
        (f := fun p => p.formed ((s.sl sl).svc.passOf u.frame) s.membersInOrder) fun _ => rfl
      refine ⟨hmem, congrArg Pass.passDigest hpass, ?_, hdone, hkept⟩
      have hinc : (((s.formPass sl u).sl sl).svc.passOf u.frame).incomplete = _ := congrArg Pass.incomplete hpass
      rw [hinc]
      exact Pass.formed_incomplete ..

end Sys2Proof.Machine
end

section
/-! A step for each slice, and what leaves the power of the slices alone. -/

namespace Sys2Proof.Machine

/-! ### A step for each slice -/

section
variable {β : Type} {π : SliceState → β} {P : Nat → β → β} {f : State → Nat → State} {I : State → Prop}
  (hkeep : ∀ v i, I v → I (f v i)) (hself : ∀ v i, I v → i < 8 → π ((f v i).sl i) = P i (π (v.sl i)))
  (hother : ∀ v i j, j ≠ i → π ((f v i).sl j) = π (v.sl j))
include hkeep hself hother

theorem foldl_slices_at (l : List Nat) (hl : ∀ i ∈ l, i < 8) (hd : l.Nodup) {s : State} (h : I s) (j : Nat) :
    π ((l.foldl f s).sl j) = if j ∈ l then P j (π (s.sl j)) else π (s.sl j) := by
  induction l generalizing s with
  | nil => rfl
  | cons i l ih =>
    obtain ⟨hi, hl'⟩ := List.forall_mem_cons.1 hl
    obtain ⟨hni, hd'⟩ := List.nodup_cons.1 hd
    rw [List.foldl_cons, ih hl' hd' (hkeep s i h)]
    by_cases hj : j = i
    · subst hj
      rw [if_neg hni, if_pos (List.mem_cons_self ..), hself s j h hi]
    · simp only [hother s i j hj, List.mem_cons, hj, false_or]

/-- What a step for each slice makes of a part of one slice. -/
theorem State.eachSlice_at {s : State} (h : I s) (sl : SliceId) : π ((s.eachSlice f).sl sl) = P sl (π (s.sl sl)) := by
  unfold State.eachSlice
  rw [foldl_slices_at hkeep hself hother _ (fun i hi => List.mem_range.1 hi) List.nodup_range h, if_pos (List.mem_range.2 sl.isLt)]

end

/-! ### What leaves the power of the slices alone -/

/-- `t` has the power of the slices and the still-water mode of `s`. -/
structure State.SamePower (s t : State) : Prop where
  agree : State.Agree SliceState.power s t
  still : t.still = s.still

namespace State.SamePower
variable {s t u : State}

theorem refl (s : State) : State.SamePower s s := ⟨.refl s, rfl⟩

theorem trans (a : State.SamePower s t) (b : State.SamePower t u) : State.SamePower s u := ⟨a.agree.trans b.agree, b.still.trans a.still⟩

theorem comp (b : State.SamePower t u) (a : State.SamePower s t) : State.SamePower s u := a.trans b

theorem ite {p : Prop} [Decidable p] (a : State.SamePower s t) (b : State.SamePower s u) : State.SamePower s (if p then t else u) := by
  split <;> assumption

theorem foldl {α : Type} {f : State → α → State} (h : ∀ s a, State.SamePower s (f s a)) (l : List α) (s : State) : State.SamePower s (l.foldl f s) := by
  induction l generalizing s with
  | nil => exact refl _
  | cons a l ih => exact (h s a).trans (ih _)

theorem onSl {i : Nat} {f : SliceState → SliceState} (h : ∀ x, (f x).power = x.power) : State.SamePower s (s.onSl i f) := ⟨.onSl h, rfl⟩

theorem of_slices (h : t.slices = s.slices) (hd : t.still = s.still) : State.SamePower s t := ⟨.of_slices h, hd⟩

theorem after (h : State.SamePower s t) (hs : u.slices = t.slices) (hd : u.still = t.still) : State.SamePower s u := h.trans (of_slices hs hd)

theorem of_settles (h : State.Settles s t) : State.SamePower s t :=
  ⟨fun i => (congrArg SliceState.power (h.agree i) :), (congrArg State.still h.calm :)⟩

theorem cause (b : Nat) : State.SamePower s (s.cause b) := of_settles (.cause b)

theorem report (i : Nat) (r : Report) : State.SamePower s (s.report i r) := onSl fun _ => rfl

theorem powerReport (i k : Nat) (d : List Nat) : State.SamePower s (s.powerReport i k d) := report ..

theorem onErr (i : Nat) (f : Errors → Errors) : State.SamePower s (s.onErr i f) := by
  unfold State.onErr
  exact .ite (onSl fun _ => rfl) (.comp (cause _) (onSl fun _ => rfl))

theorem onLink (i : Nat) (l : LinkId) (f : Link → Link) : State.SamePower s (s.onLink i l f) := by
  refine onSl fun x => ?_
  unfold SliceState.onLink
  cases l <;> rfl

theorem goDown (i : Nat) (l : LinkId) (st reason : Nat) : State.SamePower s (s.goDown i l st reason) := by
  have hdrop : State.SamePower s (s.dropLink i l st reason) := by
    unfold State.dropLink
    dsimp only
    refine .comp (t := State.onLink _ i l fun x => x.cleared st) (of_slices rfl rfl) (.comp (onLink ..) ?_)
    exact .ite (.refl _) (of_slices rfl rfl)
  by_cases h : (s.link i l).st = linkUp
  · exact .comp (of_settles (State.goDown_from_up h st reason)) (.comp (onLink ..) hdrop)
  · exact .comp (of_settles (State.goDown_otherwise h st reason)) hdrop

theorem setSumpLink (i st : Nat) : State.SamePower s (s.setSumpLink i st) := by
  unfold State.setSumpLink
  exact .ite (.refl _) (.comp (cause _) (onSl fun _ => rfl))

theorem endTied (i : Nat) (u : Run) (a b : Drip) (c : Status) : State.SamePower s (s.endTied i u a b c) := by
  refine ⟨fun j => ?_, ?_⟩
  · exact State.Agree.endTied (π := SliceState.power) (fun _ _ _ _ => rfl) j
  · exact (congrArg State.still (State.endTied_boards s i u a b c) :)

end State.SamePower

end Sys2Proof.Machine
end

section
/-! A power window of one slice. -/

namespace Sys2Proof.Machine

/-! ### A power window of one slice -/

/-- The power of a slice after a window of it is judged (R521 to R523). -/
def Power.judged (p : Power) (still : Bool) (package : Nat) : Power :=
  let q := if (hotQuantity p package).isNone then p
    else if still then { p with withheld := true }
    else if p.aclkDiv < 24 then { p with aclkDiv := slower p.aclkDiv, throttleSteps := p.throttleSteps + 1 }
    else p
  { q with tempHot := decide (105 ≤ p.temp) }

theorem Power.judged_watts (p : Power) (still : Bool) (package : Nat) : (p.judged still package).watts = p.watts := by
  unfold Power.judged
  dsimp only
  split
  · rfl
  · split
    · rfl
    · split <;> rfl

theorem Power.judged_tempHot (p : Power) (still : Bool) (package : Nat) : (p.judged still package).tempHot = decide (105 ≤ p.temp) := rfl

section
variable {s : State} {i : Nat} (hs : s.Inv) (hi : i < 8)
include hs hi

theorem State.divide_power (d q : Nat) :
    ((s.divide i d q).sl i).power = { (s.sl i).power with aclkDiv := d, throttleSteps := (s.sl i).power.throttleSteps + 1 } := by
  unfold State.divide
  have hk := (State.SamePower.cause 7).comp (State.SamePower.powerReport (s := s.onSl i fun x =>
    { x with power := { x.power with aclkDiv := d, throttleSteps := x.power.throttleSteps + 1 } }) i 0 [q])
  exact (hk.agree i).trans (congrArg SliceState.power (State.onSl_sl_self _ _ _ (hs.slices_lt ⟨i, hi⟩)))

theorem State.withhold_power : ((s.withhold i).sl i).power = { (s.sl i).power with withheld := true } := by
  unfold State.withhold
  dsimp only
  generalize hl : (s.sl i).runs.filter _ = live
  generalize ht : live.foldl (fun (v : State) r => v.endTied i r v.now (v.now.plus 1) .throttle) s = t
  have hp : State.SamePower s t := ht ▸ .foldl (fun _ _ => .endTied ..) _ _
  have hlen : i < t.slices.length := by
    rw [← ht]
    exact ((State.Keeps.foldl (fun _ _ => .endTied ..) _ _).2 hs).slices_lt ⟨i, hi⟩
  have hk := (State.SamePower.cause 7).comp (State.SamePower.powerReport (s := t.onSl i fun x => { x with power := { x.power with withheld := true } }) i 0 [])
  refine (hk.agree i).trans ?_
  rw [State.onSl_sl_self _ _ _ hlen]
  exact congrArg (fun p : Power => { p with withheld := true }) (hp.agree i)

theorem State.judgeWindow_self (package : Nat) :
    ((s.judgeWindow package i).sl i).power = Power.judged (s.sl i).power s.still.on package := by
  have hset (t : State) (hlen : i < t.slices.length) : ((t.onSl i fun x => { x with power := { x.power with tempHot := decide (105 ≤ x.power.temp) } }).sl i).power =
      { (t.sl i).power with tempHot := decide (105 ≤ (t.sl i).power.temp) } := by
    rw [State.onSl_sl_self _ _ _ hlen]
  unfold State.judgeWindow Power.judged
  dsimp only
  cases hq : hotQuantity (s.sl i).power package with
  | none => exact hset s (hs.slices_lt ⟨i, hi⟩)
  | some q =>
    dsimp only
    rw [Option.isNone_some, if_neg Bool.false_ne_true]
    by_cases hon : s.still.on = true
    · rw [if_pos hon, if_pos hon, hset _ (((State.Keeps.withhold s i).2 hs).slices_lt ⟨i, hi⟩), State.withhold_power hs hi]
    · rw [if_neg hon, if_neg hon]
      split
      · rw [hset _ (((State.Keeps.divide s i _ q).2 hs).slices_lt ⟨i, hi⟩), State.divide_power hs hi]
      · exact hset s (hs.slices_lt ⟨i, hi⟩)

end

/-- A window of one slice changes the power of no other. -/
theorem State.judgeWindow_other (s : State) (package i j : Nat) (h : j ≠ i) : ((s.judgeWindow package i).sl j).power = (s.sl j).power ∧
    (s.judgeWindow package i).still = s.still := by
  have hset (t : State) (f : SliceState → SliceState) : ((t.onSl i f).sl j).power = (t.sl j).power ∧ (t.onSl i f).still = t.still :=
    ⟨congrArg SliceState.power (t.onSl_sl_of_ne f h), rfl⟩
  have hkeep {t u : State} (hk : State.SamePower t u) : (u.sl j).power = (t.sl j).power ∧ u.still = t.still := ⟨hk.agree j, hk.still⟩
  have hdivide (d q : Nat) : ((s.divide i d q).sl j).power = (s.sl j).power ∧ (s.divide i d q).still = s.still := by
    obtain ⟨h1, h2⟩ := hkeep ((State.SamePower.cause 7).comp (State.SamePower.powerReport (s := s.onSl i fun x =>
      { x with power := { x.power with aclkDiv := d, throttleSteps := x.power.throttleSteps + 1 } }) i 0 [q]))
    obtain ⟨h3, h4⟩ := hset s fun x => { x with power := { x.power with aclkDiv := d, throttleSteps := x.power.throttleSteps + 1 } }
    exact ⟨h1.trans h3, h2.trans h4⟩
  have hwithhold : ((s.withhold i).sl j).power = (s.sl j).power ∧ (s.withhold i).still = s.still := by
    unfold State.withhold
    dsimp only
    generalize (s.sl i).runs.filter _ = live
    generalize ht : live.foldl (fun (v : State) r => v.endTied i r v.now (v.now.plus 1) .throttle) s = t
    have hp : State.SamePower s t := ht ▸ .foldl (fun _ _ => .endTied ..) _ _
    obtain ⟨h1, h2⟩ := hkeep ((State.SamePower.cause 7).comp (State.SamePower.powerReport (s := t.onSl i fun x => { x with power := { x.power with withheld := true } }) i 0 []))
    obtain ⟨h3, h4⟩ := hset t fun x => { x with power := { x.power with withheld := true } }
    exact ⟨h1.trans (h3.trans (hp.agree j)), h2.trans (h4.trans hp.still)⟩
  unfold State.judgeWindow
  dsimp only
  rw [(hset ..).1, (hset ..).2]
  split
  · exact ⟨rfl, rfl⟩
  · split
    · exact hwithhold
    · split
      · exact hdivide ..
      · exact ⟨rfl, rfl⟩

end Sys2Proof.Machine
end

section
/-! Sensors, power windows and throttling. -/

namespace Sys2Proof.Machine

/-! ### The sensors and the trip -/

theorem State.SamePower.idleAll (s : State) : State.SamePower s s.idleAll := by
  unfold State.idleAll
  dsimp only
  generalize ht : State.eachSlice _ _ = t
  refine State.SamePower.after (t := t) ?_ rfl rfl
  rw [← ht]
  refine .foldl (fun u i => ?_) _ s
  refine .comp (.ite (.setSumpLink ..) (.refl _)) ?_
  exact .comp (.foldl (fun _ _ => .ite (.refl _) (.goDown ..)) _ _) (.foldl (fun _ _ => .ite (.refl _) (.goDown ..)) _ _)

/-- A device whose trip is set and whose dividers have stopped. -/
def State.tripSet (s : State) : State := { s with pkg := { s.pkg with thermtrip := true, dividersRun := false } }

theorem State.SamePower.tripSet (s : State) : State.SamePower s s.tripSet := of_slices rfl rfl

theorem State.idleAll_linkUp (s : State) : s.idleAll.host.linkUp = false := by
  unfold State.idleAll
  dsimp only

/-- A device that the trip level has stopped. -/
def State.tripped (s : State) : State := s.idleAll.tripSet

theorem execSensorRead_trip {s : State} {sl : SliceId} {v : Int} (h : 115 ≤ v) (ht : s.pkg.thermtrip = false) : exec (.sensorRead sl v) s = .next
    (let t := (s.onSl sl fun x => { x with power := { x.power with temp := v, tempHot := x.power.tempHot || decide (105 ≤ v) } }).tripped.powerReport sl 0 [3]
     (t.onErr sl fun e => e.acceptAll t.now).cause 7) := by
  show execSensorRead sl v s = _
  unfold execSensorRead
  dsimp only
  rw [if_pos ⟨h, ht⟩]
  rfl

theorem State.tripped_spec (s : State) (i : Nat) (d : List Nat) (g : Errors → Errors) :
    let t := ((s.tripped.powerReport i 0 d).onErr i g).cause 7
    State.SamePower s t ∧ t.pkg.thermtrip = true ∧ t.pkg.dividersRun = false ∧ t.host.linkUp = false := by
  have hp : State.SamePower s s.tripped := .comp (.tripSet _) (.idleAll s)
  have hcause (v : State) (b : Nat) : (v.cause b).pkg = v.pkg ∧ (v.cause b).host.linkUp = v.host.linkUp := by
    exact ⟨State.cause_pkg .., (State.PortKeeps.cause b).linkUp⟩
  have hreport : (s.tripped.powerReport i 0 d).pkg = s.tripped.pkg ∧ (s.tripped.powerReport i 0 d).host = s.tripped.host := ⟨rfl, rfl⟩
  have herr (v : State) : (v.onErr i g).pkg = v.pkg ∧ (v.onErr i g).host.linkUp = v.host.linkUp := by
    unfold State.onErr
    dsimp only
    split
    · exact ⟨rfl, rfl⟩
    · obtain ⟨h1, h2⟩ := hcause (v.onSl i fun x => { x with err := g x.err }) 0
      exact ⟨h1, h2⟩
  dsimp only
  rw [(hcause ..).1, (hcause ..).2, (herr _).1, (herr _).2, hreport.1, hreport.2]
  exact ⟨.comp (.cause _) (.comp (.onErr ..) (.comp (.powerReport ..) hp)), rfl, rfl, s.idleAll_linkUp⟩

/-! ### The power windows -/

/-- The state in which a window has given each slice its power. -/
def State.windowed (s : State) (ws : List Nat) (shared : Nat) : State :=
  { s with
    slices := s.slices.zipIdx.map fun (k : SliceState × Nat) => { k.1 with power := { k.1.power with watts := ws.getD k.2 0 } }
    pkg := { s.pkg with
      powerFine := ws.sum + shared
      powerW := if decide (10 ≤ (s.pkg.windows ++ [ws.sum + shared]).length) then (s.pkg.windows ++ [ws.sum + shared]).sum / (s.pkg.windows ++ [ws.sum + shared]).length else s.pkg.powerW
      windows := if decide (10 ≤ (s.pkg.windows ++ [ws.sum + shared]).length) then [] else s.pkg.windows ++ [ws.sum + shared] } }

theorem execPowerWindow_eq (s : State) (ws : List Nat) (shared : Nat) : exec (.powerWindow ws shared) s = .next
    ((if 300 < shared then (s.windowed ws shared).powerReport 0 13 [] else s.windowed ws shared).eachSlice fun v i => v.judgeWindow (ws.sum + shared) i) := rfl

theorem State.judgeWindow_pkg (s : State) (package i : Nat) : (s.judgeWindow package i).pkg = s.pkg := by
  have hdivide (d q : Nat) : (s.divide i d q).pkg = s.pkg := State.cause_pkg ..
  have hwithhold : (s.withhold i).pkg = s.pkg := by
    unfold State.withhold
    dsimp only
    rw [State.cause_pkg]
    refine foldl_agree (π := State.pkg) (f := fun (v : State) r => v.endTied i r v.now (v.now.plus 1) .throttle) (fun v r => ?_) _ s
    exact (congrArg State.pkg (v.endTied_boards i r v.now (v.now.plus 1) .throttle) :)
  have hset (t : State) (f : SliceState → SliceState) : (t.onSl i f).pkg = t.pkg := rfl
  unfold State.judgeWindow
  dsimp only
  rw [hset]
  split
  · rfl
  · split
    · exact hwithhold
    · split
      · exact hdivide ..
      · rfl

theorem State.windowed_spec {s : State} (hs : s.Inv) (ws : List Nat) (shared : Nat) (sl : SliceId) :
    let t := if 300 < shared then (s.windowed ws shared).powerReport 0 13 [] else s.windowed ws shared
    t.Inv ∧ t.still = s.still ∧ t.pkg.powerFine = ws.sum + shared ∧ (t.sl sl).power = { (s.sl sl).power with watts := ws.getD sl 0 } := by
  have hkeep : s.Keeps (s.windowed ws shared) := .zipIdx rfl (fun _ h => .update h rfl rfl rfl) (.update rfl rfl rfl rfl)
  have hpow : ((s.windowed ws shared).sl sl).power = { (s.sl sl).power with watts := ws.getD sl 0 } := by
    have hsl := hs.slices_lt sl
    unfold State.windowed State.sl
    simp [List.getD_eq_getElem?_getD, hsl]
  dsimp only
  split
  · exact ⟨(State.Keeps.powerReport _ _ _ _).2 (hkeep.2 hs), rfl, rfl, ((State.SamePower.powerReport 0 13 []).agree sl).trans hpow⟩
  · exact ⟨hkeep.2 hs, rfl, rfl, hpow⟩

theorem State.powerWindow_spec {s : State} (hs : s.Inv) (ws : List Nat) (shared : Nat) (sl : SliceId) :
    let t := (if 300 < shared then (s.windowed ws shared).powerReport 0 13 [] else s.windowed ws shared).eachSlice fun v i => v.judgeWindow (ws.sum + shared) i
    t.pkg.powerFine = ws.sum + shared ∧
      (t.sl sl).power = Power.judged { (s.sl sl).power with watts := ws.getD sl 0 } s.still.on (ws.sum + shared) := by
  obtain ⟨hi, hst, hpk, hpow⟩ := State.windowed_spec hs ws shared sl
  dsimp only at hi hst hpk hpow ⊢
  generalize (if 300 < shared then (s.windowed ws shared).powerReport 0 13 [] else s.windowed ws shared) = t at hi hst hpk hpow ⊢
  refine ⟨(State.eachSlice_agree (π := fun v : State => v.pkg.powerFine) (fun v i => congrArg Package.powerFine (v.judgeWindow_pkg ..)) t).trans hpk, ?_⟩
  rw [← hpow]
  refine State.eachSlice_at (π := SliceState.power) (P := fun _ p => p.judged s.still.on (ws.sum + shared)) (I := fun v => v.Inv ∧ v.still = s.still)
    (fun v i hv => ⟨(State.Keeps.judgeWindow v _ i).2 hv.1, (v.judgeWindow_other _ i (i + 1) (by omega)).2.trans hv.2⟩) (fun v i hv hi8 => ?_)
    (fun v i j hj => (v.judgeWindow_other _ i j hj).1) ⟨hi, hst⟩ sl
  rw [← hv.2]
  exact State.judgeWindow_self hv.1 hi8 _

theorem hotQuantity_isNone (p : Power) (package : Nat) :
    (hotQuantity p package).isNone = true ↔ ¬ (p.tempHot = true ∨ 650 ≤ p.watts ∨ 5500 ≤ package) := by
  unfold hotQuantity
  split
  · next h => simp [h]
  · next h =>
    split
    · next h1 => simp [h1]
    · next h1 =>
      split
      · next h2 => simp [h2]
      · next h2 => simpa [h] using ⟨not_le.1 h1, not_le.1 h2⟩

/-- Settles O60, command by command. -/
theorem heatAndPowerLimits : Obligations.HeatAndPowerLimits := by
  unfold Obligations.HeatAndPowerLimits
  intro s sl hs
  have hcool (h : (s.sl sl).power.temp < 100 ∧ (s.sl sl).power.tempHot = false ∧ (s.sl sl).power.watts < 617 ∧ s.pkg.powerFine < 5225) :
      ¬ (100 ≤ (s.sl sl).power.temp ∨ (s.sl sl).power.tempHot = true ∨ 617 ≤ (s.sl sl).power.watts ∨ 5225 ≤ s.pkg.powerFine) := by
    obtain ⟨h1, h2, h3, h4⟩ := h
    simp [h2, h1, h3, h4]
  refine ⟨fun hd => ⟨fun h => ?_, fun h => ?_⟩, fun up h => if_pos h, fun v => ?_, fun ws shared => ?_, fun h => ?_, fun h hw => ?_, fun h hw hno => ?_, fun h hw hon hdiv => ?_⟩
  · exact if_neg (by rintro (h0 | ⟨-, h0⟩ | ⟨h0, -⟩); exacts [hd h0, absurd h0 (by omega), absurd h0 (by decide)])
  · exact if_neg (by rintro (h0 | ⟨h0, -⟩ | ⟨-, h0⟩); exacts [hd h0, absurd h0 (by decide), absurd h0 (by omega)])
  · have hsl := hs.slices_lt sl
    have hpow : ((s.onSl sl fun x => { x with power := { x.power with temp := v, tempHot := x.power.tempHot || decide (105 ≤ v) } }).sl sl).power =
        { (s.sl sl).power with temp := v, tempHot := (s.sl sl).power.tempHot || decide (105 ≤ v) } := congrArg SliceState.power (State.onSl_sl_self _ _ _ hsl)
    by_cases hv : 115 ≤ v ∧ s.pkg.thermtrip = false
    · refine ⟨_, execSensorRead_trip hv.1 hv.2, ?_⟩
      obtain ⟨h1, h2, h3, h4⟩ := State.tripped_spec
        (s.onSl sl fun x => { x with power := { x.power with temp := v, tempHot := x.power.tempHot || decide (105 ≤ v) } }) sl [3] fun e => e.acceptAll _
      refine ⟨?_, fun h => ?_, fun _ _ => ⟨h2, h3, h4⟩⟩
      · exact congrArg Power.temp ((h1.agree sl).trans hpow)
      · rcases h with h | h
        · omega
        · rw [hv.2] at h
          cases h
    · refine ⟨_, if_neg hv, congrArg Power.temp hpow, fun _ => ⟨.onSl s _, congrArg Power.tempHot hpow⟩, fun h1 h2 => absurd ⟨h1, h2⟩ hv⟩
  · refine ⟨_, execPowerWindow_eq s ws shared, ?_⟩
    obtain ⟨hpk, hpow⟩ := State.powerWindow_spec hs ws shared sl
    dsimp only at hpk hpow
    rw [hpow]
    have hq := hotQuantity_isNone { (s.sl sl).power with watts := ws.getD sl 0 } (ws.sum + shared)
    dsimp only at hq
    refine ⟨hpk, Power.judged_watts .., Power.judged_tempHot .., fun hcold => ?_, fun hhot hon => ?_, fun hhot hon => ?_⟩
    · unfold Power.judged
      rw [if_pos (hq.2 hcold)]
      exact ⟨rfl, rfl⟩
    · unfold Power.judged
      rw [if_neg fun hn => hq.1 hn hhot, if_pos hon]
      exact ⟨rfl, rfl⟩
    · unfold Power.judged
      rw [if_neg fun hn => hq.1 hn hhot, if_neg (by rw [hon]; decide)]
      dsimp only
      split
      · exact ⟨rfl, rfl⟩
      · exact ⟨rfl, rfl⟩
  · refine if_pos ?_
    by_contra hn
    simp only [not_or, not_le] at hn
    exact h ⟨hn.1, by simpa using hn.2.1, hn.2.2.1, hn.2.2.2⟩
  · exact (if_neg (hcool h)).trans (if_pos hw)
  · refine (if_neg (hcool h)).trans ((if_neg (by simp [hw])).trans (if_neg ?_))
    rcases hno with hno | hno <;> simp [hno]
  · refine ⟨_, (if_neg (hcool h)).trans ((if_neg (by simp [hw])).trans (if_pos (by simp [hon, hdiv]))), ?_⟩
    rw [State.divide_power hs sl.isLt]
    exact ⟨rfl, rfl⟩

end Sys2Proof.Machine
end

section
/-! What a start-up leaves alone, and the boot of the firmware. -/

namespace Sys2Proof.Machine

/-! ### What a start-up leaves alone -/

/-- What of a device the start of its functions leaves alone. -/
def State.startView (s : State) : Package × Option Image × Firmware × Security × Nat := (s.pkg, s.job, s.fw, s.sec, s.dict.deviceState)

theorem State.startView_iff {s t : State} : t.startView = s.startView ↔
    t.pkg = s.pkg ∧ t.job = s.job ∧ t.fw = s.fw ∧ t.sec = s.sec ∧ t.dict.deviceState = s.dict.deviceState := by
  simp only [State.startView, Prod.mk.injEq]

/-- `t` is `s` but for what the start of a function changes. -/
structure State.Starts (s t : State) : Prop where
  view : t.startView = s.startView
  agree : State.Agree SliceState.present s t

namespace State.Starts
variable {s t u : State}

theorem refl (s : State) : State.Starts s s := ⟨rfl, .refl s⟩

theorem trans (a : State.Starts s t) (b : State.Starts t u) : State.Starts s u := ⟨b.view.trans a.view, a.agree.trans b.agree⟩

theorem comp (b : State.Starts t u) (a : State.Starts s t) : State.Starts s u := a.trans b

theorem ite {p : Prop} [Decidable p] (a : State.Starts s t) (b : State.Starts s u) : State.Starts s (if p then t else u) := by
  split <;> assumption

theorem foldl {α : Type} {f : State → α → State} (h : ∀ s a, State.Starts s (f s a)) (l : List α) (s : State) : State.Starts s (l.foldl f s) := by
  induction l generalizing s with
  | nil => exact refl _
  | cons a l ih => exact (h s a).trans (ih _)

theorem onSl {i : Nat} {f : SliceState → SliceState} (h : ∀ x, (f x).present = x.present) : State.Starts s (s.onSl i f) := ⟨rfl, .onSl h⟩

theorem of_slices (h : t.slices = s.slices) (hv : t.startView = s.startView) : State.Starts s t := ⟨hv, .of_slices h⟩

theorem cause (b : Nat) : State.Starts s (s.cause b) := by
  refine of_slices (State.cause_slices ..) ?_
  unfold State.startView
  rw [State.cause_pkg, State.cause_job, State.cause_fw, State.cause_sec, State.cause_dict]

theorem onLife (f c : Nat) (g : Lifecycle → Lifecycle) : State.Starts s (s.onLife f c g) := by
  unfold State.onLife
  exact .ite (of_slices rfl rfl) (onSl fun _ => rfl)

theorem setLife (f c st : Nat) : State.Starts s (s.setLife f c st) := .comp (cause _) (onLife ..)

theorem setSumpLink (i st : Nat) : State.Starts s (s.setSumpLink i st) := by
  unfold State.setSumpLink
  exact .ite (.refl _) (.comp (cause _) (onSl fun _ => rfl))

theorem domain (i n : Nat) (on : Bool) : State.Starts s (s.domain i n on) := onSl fun _ => rfl

theorem startLife (f c : Nat) : State.Starts s (s.startLife f c) := by
  have ht : State.Starts s ((s.onLife f c fun l => { l with deferred := false }).setLife f c 1) := .comp (setLife ..) (onLife ..)
  unfold State.startLife
  dsimp only
  split
  · exact ht.trans (of_slices rfl rfl)
  · exact .comp (setSumpLink ..) (.comp (domain ..) ht)
  · exact .comp (domain ..) ht
  · exact .comp (domain ..) ht
  · exact ht

end State.Starts

/-! ### The self-test and the functions of a start-up -/

theorem State.selfTest_spec (s : State) (b : BootInputs) : (s.selfTest b).startView = s.startView ∧
    (s.Inv → ∀ i : SliceId, ((s.selfTest b).sl i).present = true → b.selfTest.testBit i = true) := by
  unfold State.selfTest
  refine ⟨State.eachSlice_agree (π := State.startView) (fun v i => ?_) s, fun hs i hp => ?_⟩
  · rfl
  · have hat := State.eachSlice_at (f := fun t i => t.onSl i fun x => { x with
        present := b.selfTest.testBit i && decide (b.alignFails.getD i 0 < 3) && !(t.sl i).power.heldInReset
        power := { x.power with domains := if b.selfTest.testBit i && decide (b.alignFails.getD i 0 < 3) && !(t.sl i).power.heldInReset then 0xF * 2 ^ 13 else 0, aclkDiv := 8 } })
      (π := fun x => (x.present, x.power.heldInReset))
      (P := fun i p => (b.selfTest.testBit i && decide (b.alignFails.getD i 0 < 3) && !p.2, p.2)) (I := fun v => v.slices.length = 8)
      (fun v i hv => by simpa [State.onSl] using hv) (fun v i hv hi => by rw [State.onSl_sl_self _ _ _ (by omega)])
      (fun v i j hj => by rw [State.onSl_sl_of_ne _ _ hj]) hs.1.1 i
    have h1 := (Prod.mk.inj hat).1
    rw [h1] at hp
    simp only [Bool.and_eq_true] at hp
    exact hp.1.1

/-- A start-up leaves a device READY or FAILED, with a slice present only where its self-test passed. -/
theorem State.bringUp_spec (s : State) (b : BootInputs) : (s.bringUp b).pkg = s.pkg ∧ (s.bringUp b).job = s.job ∧ (s.bringUp b).fw = s.fw ∧
    (s.bringUp b).sec = s.sec ∧ ((s.bringUp b).dict.deviceState = 1 ∨ (s.bringUp b).dict.deviceState = 4) ∧
    (s.Inv → ∀ i : SliceId, ((s.bringUp b).sl i).present = true → b.selfTest.testBit i = true) := by
  obtain ⟨hview, hpres⟩ := s.selfTest_spec b
  have hfun (u : State) : State.Starts u ((List.range 7).foldl (fun (v : State) f =>
      (if f < 4 then [0] else (List.range 8).filter fun c => (v.sl c).present).foldl
        (fun (w : State) c => if (w.lifeOf f c).enable then w.startLife f c else w) v) u) :=
    .foldl (fun _ _ => .foldl (fun _ _ => .ite (.startLife ..) (.refl _)) _ _) _ _
  unfold State.bringUp
  dsimp only
  generalize s.selfTest b = t at hview hpres ⊢
  have hd : (if t.slices.any fun x => x.present then 1 else 4) = 1 ∨ (if t.slices.any fun x => x.present then 1 else 4) = 4 := by
    split
    · exact .inl rfl
    · exact .inr rfl
  generalize (if t.slices.any fun x => x.present then 1 else 4) = d at hd ⊢
  have hs := hfun { t with dict := { t.dict with deviceState := d } }
  obtain ⟨hp, hj, hf, hsec, -⟩ := State.startView_iff.1 hview
  obtain ⟨hp', hj', hf', hsec', hd'⟩ := State.startView_iff.1 hs.view
  refine ⟨hp'.trans hp, hj'.trans hj, hf'.trans hf, hsec'.trans hsec, ?_, fun hi i h => hpres hi i ?_⟩
  · rw [hd']
    exact hd
  · rw [← h]
    exact (hs.agree i).symm

/-! ### The boot of the firmware -/

/-- What of a device the boot of the firmware leaves alone. -/
def State.bootView (s : State) : Bool × Bool × Nat × Option Image × Nat × Nat :=
  (s.pkg.pwrOk, s.pkg.dividersRun, s.pkg.nodeId, s.job, s.fw.boot, s.sec.bootCount)

theorem State.bootView_iff {s t : State} : t.bootView = s.bootView ↔ t.pkg.pwrOk = s.pkg.pwrOk ∧ t.pkg.dividersRun = s.pkg.dividersRun ∧
    t.pkg.nodeId = s.pkg.nodeId ∧ t.job = s.job ∧ t.fw.boot = s.fw.boot ∧ t.sec.bootCount = s.sec.bootCount := by
  simp only [State.bootView, Prod.mk.injEq]

/-- `t` is `s` but for what the boot of the firmware changes. -/
structure State.Boots (s t : State) : Prop where
  view : t.bootView = s.bootView
  agree : State.Agree SliceState.present s t

namespace State.Boots
variable {s t u : State}

theorem refl (s : State) : State.Boots s s := ⟨rfl, .refl s⟩

theorem trans (a : State.Boots s t) (b : State.Boots t u) : State.Boots s u := ⟨b.view.trans a.view, a.agree.trans b.agree⟩

theorem comp (b : State.Boots t u) (a : State.Boots s t) : State.Boots s u := a.trans b

theorem ite {p : Prop} [Decidable p] (a : State.Boots s t) (b : State.Boots s u) : State.Boots s (if p then t else u) := by
  split <;> assumption

theorem foldl {α : Type} {f : State → α → State} (h : ∀ s a, State.Boots s (f s a)) (l : List α) (s : State) : State.Boots s (l.foldl f s) := by
  induction l generalizing s with
  | nil => exact refl _
  | cons a l ih => exact (h s a).trans (ih _)

theorem of_slices (h : t.slices = s.slices) (hv : t.bootView = s.bootView) : State.Boots s t := ⟨hv, .of_slices h⟩

theorem of_settles (h : State.Settles s t) : State.Boots s t :=
  ⟨(congrArg State.bootView h.calm :), fun i => (congrArg SliceState.present (h.agree i) :)⟩

theorem report (i : Nat) (r : Report) : State.Boots s (s.report i r) := of_settles (.report ..)

theorem extendMR (n : Nat) (d : Bytes) : State.Boots s (s.extendMR n d) := of_settles (.extendMR ..)

theorem devicePersist {index sub c : Nat} {v : Bytes} {f : State → State} (h : State.Boots s (f s)) : State.Boots s (s.devicePersist index sub c v f) :=
  .ite (report ..) (.comp (of_settles (.storeRecord ..)) h)

theorem countBootFail : State.Boots s s.countBootFail := .comp (report ..) (devicePersist (of_slices rfl rfl))

theorem countTrips (n : Nat) : State.Boots s (s.countTrips n) := by
  unfold State.countTrips
  exact .ite (.refl _) (devicePersist (of_slices rfl rfl))

theorem raiseCounter (n : Nat) : State.Boots s (s.raiseCounter n) := by
  unfold State.raiseCounter
  exact .ite (.refl _) (devicePersist (of_slices rfl rfl))

theorem measureSet (k : Nat) : State.Boots s (s.measureSet k) := by
  unfold State.measureSet
  dsimp only
  exact .comp (.foldl (fun _ _ => .comp (extendMR ..) (.comp (extendMR ..) (.comp (extendMR ..) (extendMR ..)))) _ _)
    (.comp (extendMR ..) (.comp (extendMR ..) (extendMR ..)))

theorem bootIdentity (b : Bool) : State.Boots s (s.bootIdentity b) := by
  unfold State.bootIdentity
  dsimp only
  split <;> exact of_slices rfl rfl

end State.Boots

/-- The running slot of a device that a store record of another entry leaves alone. -/
theorem State.raiseCounter_running (s : State) (n : Nat) : (s.raiseCounter n).fw.running = s.fw.running := by
  unfold State.raiseCounter State.devicePersist
  split
  · rfl
  · split
    · rfl
    · obtain ⟨-, -, -, -, hf⟩ := State.storeRecord_dict ({ s with fw := { s.fw with counter := n } } : State) 0x9000 5 0 (leBytes 4 n)
      exact (congrArg Firmware.running hf :).trans rfl

theorem State.tryBoot_spec (s : State) (k : Nat) (starts : Bool) :
    State.Boots s (s.tryBoot k starts).2 ∧ ((s.tryBoot k starts).1 = true → (s.tryBoot k starts).2.fw.running = k) := by
  unfold State.tryBoot
  split
  · have hm : State.Boots s (s.measureSet k) := .measureSet k
    generalize s.measureSet k = t at hm
    have hstart : State.Boots t { t with fw := t.fw.started k } := .of_slices rfl rfl
    dsimp only
    split
    · refine ⟨hm.trans (hstart.trans ?_), fun _ => State.raiseCounter_running ..⟩
      exact .raiseCounter _
    · exact ⟨hm.trans .countBootFail, fun h => by cases h⟩
  · exact ⟨.countBootFail, fun h => by cases h⟩

theorem State.bootSet_spec (s : State) (starts : List Bool) : State.Boots s (s.bootSet starts).2 ∧
    ((s.bootSet starts).1 = true → (s.bootSet starts).2.fw.running = s.fw.boot ∨ (s.bootSet starts).2.fw.running = 1 - s.fw.boot) := by
  obtain ⟨h1, h2⟩ := s.tryBoot_spec s.fw.boot (starts.getD s.fw.boot true)
  unfold State.bootSet
  dsimp only
  split
  · next h => exact ⟨h1, fun _ => .inl (h2 h)⟩
  · obtain ⟨h3, h4⟩ := (s.tryBoot s.fw.boot (starts.getD s.fw.boot true)).2.tryBoot_spec (1 - s.fw.boot) (starts.getD (1 - s.fw.boot) true)
    exact ⟨h1.trans h3, fun h => .inr (h4 h)⟩

theorem State.countBoot_spec (s : State) : s.countBoot.sec.bootCount = s.sec.bootCount + 1 ∧ State.Boots { s with sec := { s.sec with bootCount := s.sec.bootCount + 1 } } s.countBoot := by
  have hn : ¬ (100 ≤ s.dict.storeWear ∧ 0x8000 / 4096 ≠ 8) := fun h => h.2 rfl
  have hk : State.Boots { s with sec := { s.sec with bootCount := s.sec.bootCount + 1 } } s.countBoot := by
    unfold State.countBoot State.devicePersist
    rw [if_neg hn]
    exact .of_settles (.storeRecord ..)
  exact ⟨(congrArg (fun v : Bool × Bool × Nat × Option Image × Nat × Nat => v.2.2.2.2.2) hk.view :), hk⟩

end Sys2Proof.Machine
end

section
/-! The steps of a power-up. -/

namespace Sys2Proof.Machine

/-! ### The steps of a power-up -/

/-- The device as the store gives it, before any step of a power-up. -/
def State.coldStart (s : State) (lost : List LostRecord) : State := (((s.loadStore lost).cold true).restored).reportLost lost

/-- The device with PWR_OK high. -/
def State.powered (s : State) (b : BootInputs) : State :=
  { s.coldStart b.lost with
    pkg := { (s.coldStart b.lost).pkg with pwrOk := true, sysRst := false }
    sec := { (s.coldStart b.lost).sec with helper := b.helper.getD (s.coldStart b.lost).sec.helper } }

/-- The device with its clocks. -/
def State.clocked (s : State) : State := { s with pkg := { s.pkg with pllLocked := true, dividersRun := true } }

/-- A device whose power-up has failed. -/
def State.bootFailed (s : State) : State := { s with dict := { s.dict with deviceState := 4 } }

/-- The boot of the firmware of a device with its clocks: whether a set has started. -/
def State.firmwareBoot (s : State) (b : BootInputs) : Bool × State :=
  (((s.bootIdentity b.trngOk).countBoot).countTrips s.tripRecords).bootSet b.setStarts

/-- The device whose firmware has started, up to its start-up. -/
def State.measuredUp (s : State) (b : BootInputs) : State :=
  let u := (s.extendMR 3 s.persistedDigest).selfTest b
  u.extendMR 6 u.unitMapDigest

theorem execPowerUp_unpowered {s : State} {b : BootInputs} (h : s.pkg.pwrOk = false) (hb : b.railsOk = false ∨ b.pllLocked = false) :
    exec (.powerUp b) s = .next ((s.powered b).bootFailed.powerReport 0 13 []) := by
  refine (if_neg (by simp [h])).trans ?_
  rcases hb with hb | hb
  · exact if_pos (by simp [hb])
  · by_cases hr : (!b.railsOk) = true
    · exact if_pos hr
    · exact (if_neg hr).trans (if_pos (by simp [hb]))

theorem execPowerUp_powered {s : State} {b : BootInputs} (h : s.pkg.pwrOk = false) (hr : b.railsOk = true) (hp : b.pllLocked = true) :
    exec (.powerUp b) s = .next (
      if ((s.powered b).clocked.firmwareBoot b).1 then (((s.powered b).clocked.firmwareBoot b).2.measuredUp b).bringUp b
      else ((s.powered b).clocked.firmwareBoot b).2.bootFailed) := by
  refine (if_neg (by simp [h])).trans ((if_neg (by simp [hr])).trans ((if_neg (by simp [hp])).trans ?_))
  by_cases hk : ((s.powered b).clocked.firmwareBoot b).1 = true
  · rw [if_pos hk]
    exact if_neg (by rw [Bool.not_eq_true', Bool.not_eq_false]; exact hk)
  · rw [if_neg hk]
    exact if_pos (by rw [Bool.not_eq_true']; exact Bool.not_eq_true _ ▸ hk)

/-! ### The device at its power-up -/

theorem State.reportLost_boots (s : State) (lost : List LostRecord) : State.Boots s (s.reportLost lost) := by
  unfold State.reportLost
  exact .foldl (fun _ _ => .report ..) _ _

theorem State.sl_map {s t : State} {f : SliceState → SliceState} (h : t.slices = s.slices.map f) {i : Nat} (hi : i < s.slices.length) :
    t.sl i = f (s.sl i) := by
  unfold State.sl
  rw [h]
  simp [List.getD_eq_getElem?_getD, hi]

theorem State.cold_sl {s : State} (hs : s.Inv) (vaux : Bool) (i : SliceId) : (s.cold vaux).sl i = (s.sl i).cold vaux :=
  State.sl_map (f := fun x => x.cold vaux) rfl (hs.slices_lt i)

theorem State.present_of_all {s : State} (h : ∀ x ∈ s.slices, x.present = false) (i : Nat) : (s.sl i).present = false := by
  unfold State.sl
  rw [List.getD_eq_getElem?_getD]
  cases hx : s.slices[i]? with
  | none => rfl
  | some x => exact h x (List.mem_of_getElem? hx)

/-- What the store and the defaults leave of a device before the steps of a power-up. -/
theorem State.restored_spec (s : State) : (s.cold true).restored.job = none ∧ (s.cold true).restored.pkg.dividersRun = false ∧
    (s.cold true).restored.sec.bootCount = s.sec.bootCount ∧ (s.cold true).restored.fw.boot = s.fw.boot ∧
    (s.cold true).restored.pkg.nodeId = (if s.dict.restore then 0 else s.pkg.nodeId) ∧ ∀ i : Nat, ((s.cold true).restored.sl i).present = false := by
  have hc : ∀ x ∈ (s.cold true).slices, x.present = false := by
    intro x hx
    obtain ⟨y, -, rfl⟩ := List.mem_map.1 hx
    rfl
  have hrest : (s.cold true).dict.restore = s.dict.restore := rfl
  unfold State.restored
  rw [hrest]
  cases s.dict.restore with
  | false => exact ⟨rfl, rfl, rfl, rfl, rfl, State.present_of_all hc⟩
  | true =>
    refine ⟨rfl, rfl, rfl, rfl, rfl, State.present_of_all fun x hx => ?_⟩
    obtain ⟨y, hy, rfl⟩ := List.mem_map.1 hx
    exact hc y hy

theorem State.loadStore_one {s : State} {r : LostRecord} (hp : persistedRecord r = true) {k : Option StoreRecord}
    (hk : s.dict.store.find? (fun k => k.index == r.index && k.sub == r.sub && k.channel == r.channel) = k) (hb : k.isSome = true ∨ r.both = true) :
    ∃ l, s.loadStore [r] =
      (s.loadEntry r.index r.sub r.channel ((if r.both then none else k.bind (·.older)).getD (defaultValue r.index r.sub r.channel))).withStore l := by
  unfold State.loadStore
  rw [List.filter_cons_of_pos hp, List.filter_nil, List.foldl_cons, List.foldl_nil]
  dsimp only
  rw [hk]
  refine ⟨_, if_neg ?_⟩
  rcases hb with hb | hb
  · cases k with
    | none => cases hb
    | some q => simp
  · simp [hb]

theorem State.powered_spec {s : State} (hs : s.Inv) (b : BootInputs) :
    (s.powered b).pkg.pwrOk = true ∧ (s.powered b).pkg.dividersRun = false ∧ (s.powered b).job = none ∧
      (s.powered b).sec.bootCount = (s.loadStore b.lost).sec.bootCount ∧ (s.powered b).fw.boot = (s.loadStore b.lost).fw.boot ∧
      (s.powered b).pkg.nodeId = (if (s.loadStore b.lost).dict.restore then 0 else (s.loadStore b.lost).pkg.nodeId) ∧
      (∀ i : SliceId, ((s.powered b).sl i).present = false) ∧ (s.powered b).Inv := by
  have hi := (State.Keeps.loadStore s b.lost).2 hs
  obtain ⟨hj, hd, hc, hf, hn, hp⟩ := State.restored_spec (s.loadStore b.lost)
  have hk := (((s.loadStore b.lost).cold true).restored).reportLost_boots b.lost
  have hinv : (s.coldStart b.lost).Inv := (State.Keeps.reportLost _ _).2 ((State.Keeps.restored _).2 ((State.Keeps.cold _ _).2 hi))
  change State.Boots _ (s.coldStart b.lost) at hk
  unfold State.powered
  generalize s.coldStart b.lost = c at hk hinv
  obtain ⟨-, h2, h3, h4, h5, h6⟩ := State.bootView_iff.1 hk.view
  exact ⟨rfl, h2.trans hd, h4.trans hj, h6.trans hc, h5.trans hf, h3.trans hn, fun i => (hk.agree i).trans (hp i), hinv⟩

/-! ### The device that has booted -/

theorem State.firmwareBoot_spec {s : State} (hs : s.Inv) (b : BootInputs) :
    (s.firmwareBoot b).2.pkg.pwrOk = s.pkg.pwrOk ∧ (s.firmwareBoot b).2.pkg.dividersRun = s.pkg.dividersRun ∧
      (s.firmwareBoot b).2.pkg.nodeId = s.pkg.nodeId ∧ (s.firmwareBoot b).2.job = s.job ∧ (s.firmwareBoot b).2.sec.bootCount = s.sec.bootCount + 1 ∧
      (∀ i : Nat, ((s.firmwareBoot b).2.sl i).present = (s.sl i).present) ∧ (s.firmwareBoot b).2.Inv ∧
      ((s.firmwareBoot b).1 = true → (s.firmwareBoot b).2.fw.running = s.fw.boot ∨ (s.firmwareBoot b).2.fw.running = 1 - s.fw.boot) := by
  have hid : State.Boots s (s.bootIdentity b.trngOk) := .bootIdentity _
  have hinv := (State.Keeps.bootIdentity s b.trngOk).2 hs
  unfold State.firmwareBoot
  generalize s.bootIdentity b.trngOk = v at hid hinv
  obtain ⟨hcount, hboot⟩ := v.countBoot_spec
  have htrips : State.Boots v.countBoot (v.countBoot.countTrips s.tripRecords) := .countTrips _
  have hinv' := (State.Keeps.countTrips _ s.tripRecords).2 ((State.Keeps.countBoot v).2 hinv)
  generalize v.countBoot.countTrips s.tripRecords = w at htrips hinv'
  obtain ⟨hset, hrun⟩ := w.bootSet_spec b.setStarts
  have hinv'' := (State.Keeps.bootSet w b.setStarts).2 hinv'
  have hall := (hboot.trans (htrips.trans hset))
  obtain ⟨h1, h2, h3, h4, h5, h6⟩ := State.bootView_iff.1 hid.view
  obtain ⟨k1, k2, k3, k4, -, k6⟩ := State.bootView_iff.1 hall.view
  obtain ⟨-, -, -, -, j5, -⟩ := State.bootView_iff.1 (hboot.trans htrips).view
  refine ⟨k1.trans h1, k2.trans h2, k3.trans h3, k4.trans h4, k6.trans (congrArg (· + 1) h6 :), fun i => (hall.agree i).trans (hid.agree i), hinv'', fun hk => ?_⟩
  rw [← h5, ← show w.fw.boot = v.fw.boot from j5]
  exact hrun hk

theorem State.measuredUp_spec (s : State) (b : BootInputs) : (s.measuredUp b).pkg = s.pkg ∧ (s.measuredUp b).job = s.job ∧
    (s.measuredUp b).sec.bootCount = s.sec.bootCount ∧ (s.measuredUp b).fw = s.fw ∧ (s.Inv → (s.measuredUp b).Inv) := by
  have hext (v : State) (n : Nat) (d : Bytes) : (v.extendMR n d).pkg = v.pkg ∧ (v.extendMR n d).job = v.job ∧
      (v.extendMR n d).sec.bootCount = v.sec.bootCount ∧ (v.extendMR n d).fw = v.fw := ⟨rfl, rfl, rfl, rfl⟩
  have hkeep : s.Keeps (s.measuredUp b) := .comp (.extendMR ..) (.comp (.selfTest ..) (.extendMR ..))
  obtain ⟨h1, h2, h3, h4⟩ := hext s 3 s.persistedDigest
  obtain ⟨k1, k2, k3, k4, -⟩ := State.startView_iff.1 ((s.extendMR 3 s.persistedDigest).selfTest_spec b).1
  obtain ⟨j1, j2, j3, j4⟩ := hext ((s.extendMR 3 s.persistedDigest).selfTest b) 6 ((s.extendMR 3 s.persistedDigest).selfTest b).unitMapDigest
  exact ⟨j1.trans (k1.trans h1), j2.trans (k2.trans h2), j3.trans ((congrArg Security.bootCount k4).trans h3), j4.trans (k3.trans h4), hkeep.2⟩

end Sys2Proof.Machine
end

section
/-! Power, reset and the root PLL. -/

namespace Sys2Proof.Machine

/-- A device whose clocks run at its power-up, whether or not its firmware has started. -/
theorem State.powerUp_spec {s : State} (hs : s.Inv) (b : BootInputs) {t : State}
    (ht : t = if ((s.powered b).clocked.firmwareBoot b).1 then (((s.powered b).clocked.firmwareBoot b).2.measuredUp b).bringUp b
      else ((s.powered b).clocked.firmwareBoot b).2.bootFailed) :
    t.pkg.pwrOk = true ∧ t.pkg.dividersRun = true ∧ t.job = none ∧ t.sec.bootCount = (s.powered b).sec.bootCount + 1 ∧
      t.pkg.nodeId = (s.powered b).pkg.nodeId ∧ (t.dict.deviceState = 1 ∨ t.dict.deviceState = 4) ∧
      (t.fw.running = (s.powered b).fw.boot ∨ t.fw.running = 1 - (s.powered b).fw.boot ∨ t.dict.deviceState = 4) ∧
      ∀ i : SliceId, (t.sl i).present = true → b.selfTest.testBit i = true := by
  obtain ⟨hpwr, -, hjob, -, -, -, hpres, hinv⟩ := State.powered_spec hs b
  have hcinv : (s.powered b).clocked.Inv := hinv
  have hspec := State.firmwareBoot_spec hcinv b
  generalize (s.powered b).clocked.firmwareBoot b = k at ht hspec
  obtain ⟨h1, h2, h3, h4, h5, h6, h7, h8⟩ := hspec
  generalize hv : k.2 = v at ht h1 h2 h3 h4 h5 h6 h7 h8
  have h2' : v.pkg.dividersRun = true := h2
  by_cases hk : k.1 = true
  · obtain ⟨k1, k2, k3, k4, k5⟩ := v.measuredUp_spec b
    obtain ⟨j1, j2, j3, j4, j5, j6⟩ := (v.measuredUp b).bringUp_spec b
    rw [ht.trans (if_pos hk), j1, j2, j3, j4, k1, k2, k3, k4]
    exact ⟨h1.trans hpwr, h2', h4.trans hjob, h5, h3, j5, (h8 hk).imp id .inl, j6 (k5 h7)⟩
  · have hfail (w : State) : w.bootFailed.pkg = w.pkg ∧ w.bootFailed.job = w.job ∧ w.bootFailed.sec = w.sec ∧ w.bootFailed.dict.deviceState = 4 ∧
        ∀ i, w.bootFailed.sl i = w.sl i := ⟨rfl, rfl, rfl, rfl, fun _ => rfl⟩
    obtain ⟨f1, f2, f3, f4, f5⟩ := hfail v
    rw [ht.trans (if_neg hk), f1, f2, f3]
    refine ⟨h1.trans hpwr, h2', h4.trans hjob, h5, h3, .inr f4, .inr (.inr f4), fun i h => ?_⟩
    rw [f5] at h
    exact absurd (h.symm.trans ((h6 i).trans (hpres i))) (by decide)

/-! ### The entry NODE_ID at a power-up -/

theorem loadEntry_nodeId (s : State) (v : Bytes) (l : List StoreRecord) : ((s.loadEntry 0x4000 1 0 v).withStore l).pkg.nodeId = leNat v ∧
    ((s.loadEntry 0x4000 1 0 v).withStore l).dict.restore = s.dict.restore := ⟨rfl, rfl⟩

theorem State.loadStore_nodeId_default (s : State) : (s.loadStore [{ index := 0x4000, sub := 1, both := true }]).pkg.nodeId = 0 := by
  obtain ⟨l, hl⟩ := State.loadStore_one (s := s) (r := { index := 0x4000, sub := 1, both := true }) (by decide) rfl (.inr rfl)
  rw [hl]
  refine (loadEntry_nodeId s _ l).1.trans ?_
  rfl

theorem State.loadStore_nodeId_older {s : State} {r : StoreRecord} {v : Bytes}
    (hr : s.dict.store.find? (fun k => k.index == 0x4000 && k.sub == 1 && k.channel == 0) = some r) (hv : r.older = some v) :
    (s.loadStore [{ index := 0x4000, sub := 1 }]).pkg.nodeId = leNat v ∧ (s.loadStore [{ index := 0x4000, sub := 1 }]).dict.restore = s.dict.restore := by
  obtain ⟨l, hl⟩ := State.loadStore_one (s := s) (r := { index := 0x4000, sub := 1 }) (by decide) hr (.inl rfl)
  rw [hl]
  have hval : ((if false then none else (some r).bind fun k => k.older).getD (defaultValue 0x4000 1 0)) = v := by
    rw [if_neg Bool.false_ne_true, Option.bind_some, hv, Option.getD_some]
  obtain ⟨h1, h2⟩ := loadEntry_nodeId s ((if false then none else (some r).bind fun k => k.older).getD (defaultValue 0x4000 1 0)) l
  exact ⟨h1.trans (congrArg leNat hval), h2⟩

/-! ### The loss of power, and SYS_RST_N -/

theorem State.powerDown_sl {s : State} (hs : s.Inv) (v : Bool) (i : SliceId) : (s.powerDown v).sl i = ((s.finishWrite v).sl i).cold v :=
  State.cold_sl ((State.Keeps.finishWrite s v).2 hs) v i

theorem State.finishWrite_none {s : State} (h : s.dict.writing = none) (v : Bool) : s.finishWrite v = s := by
  unfold State.finishWrite
  rw [h]

theorem Memory.read_filter_below (m : Memory) {a n : Nat} (h : a < n) : Memory.read (m.filter fun c => decide (n ≤ c.1)) a = 0 := by
  have hall : ∀ c ∈ m.filter (fun c => decide (n ≤ c.1)), n ≤ c.1 := fun c hc => by simpa using (List.mem_filter.1 hc).2
  cases hm : m.filter fun c => decide (n ≤ c.1) with
  | nil => rfl
  | cons c l =>
    have hc := hall c (hm ▸ List.mem_cons_self ..)
    exact if_pos (by omega)

/-- A rollout is under way. -/
def Firmware.rolling (f : Firmware) : Bool := f.rollout == 1 || f.rollout == 2 || f.rollout == 3

/-- The firmware of a device whose processors restart. -/
def Firmware.restarted (f : Firmware) : Firmware :=
  { f with procs := List.replicate 34 f.running, rollout := if f.rolling then 4 else f.rollout, hold := 0, switching := false
           committing := false, collHold := 0 }

/-- The device whose processors restart, up to its start-up. -/
def State.restarted (s : State) : State :=
  let t := { s with pkg := { s.pkg with dividersRun := true }, fw := s.fw.restarted }
  if s.fw.rolling then t.cause 2 else t

theorem State.restarted_spec (s : State) : s.restarted.pkg = { s.pkg with dividersRun := true } ∧ s.restarted.fw = s.fw.restarted ∧
    (s.fw.rollout = 1 ∨ s.fw.rollout = 2 ∨ s.fw.rollout = 3 → s.fw.restarted.rollout = 4) := by
  refine ⟨?_, ?_, fun h => if_pos ?_⟩
  · unfold State.restarted
    dsimp only
    split
    · exact State.cause_pkg ..
    · rfl
  · unfold State.restarted
    dsimp only
    split
    · exact State.cause_fw ..
    · rfl
  · unfold Firmware.rolling
    rcases h with h | h | h <;> rw [h] <;> rfl

/-- What the release of a reset leaves (R519). -/
theorem State.restart_spec (s : State) (b : BootInputs) : (s.restart b).pkg.dividersRun = true ∧
    ((s.restart b).dict.deviceState = 1 ∨ (s.restart b).dict.deviceState = 4) ∧ (s.restart b).fw.running = s.fw.running ∧
    (s.restart b).fw.procs = List.replicate 34 s.fw.running ∧
    (s.fw.rollout = 1 ∨ s.fw.rollout = 2 ∨ s.fw.rollout = 3 → (s.restart b).fw.rollout = 4) ∧ (s.restart b).pkg.sysRst = s.pkg.sysRst ∧
    (s.restart b).pkg.pllLocked = s.pkg.pllLocked := by
  have hrest : s.restart b = if s.fw.imagesOk then s.restarted.bringUp b else s.restarted.bootFailed := rfl
  obtain ⟨h1, h2, h3⟩ := s.restarted_spec
  obtain ⟨j1, -, j3, -, j5, -⟩ := s.restarted.bringUp_spec b
  rw [hrest]
  split
  · rw [j1, j3, h1, h2]
    exact ⟨rfl, j5, rfl, rfl, h3, rfl, rfl⟩
  · have hfail : s.restarted.bootFailed.pkg = s.restarted.pkg ∧ s.restarted.bootFailed.fw = s.restarted.fw ∧ s.restarted.bootFailed.dict.deviceState = 4 :=
      ⟨rfl, rfl, rfl⟩
    rw [hfail.1, hfail.2.1, h1, h2]
    exact ⟨rfl, .inr hfail.2.2, rfl, rfl, h3, rfl, rfl⟩

/-! ### A slice that fails -/

/-- The job and the power of a device. -/
def State.board (s : State) : Option Image × Bool := (s.job, s.pkg.pwrOk)

theorem State.goDown_board (s : State) (i : Nat) (l : LinkId) (st reason : Nat) : (s.goDown i l st reason).board = s.board := by
  have hdrop : (s.dropLink i l st reason).board = s.board := by
    unfold State.dropLink
    dsimp only
    split <;> rfl
  by_cases h : (s.link i l).st = linkUp
  · exact (congrArg State.board (State.goDown_from_up h st reason).calm :).trans hdrop
  · exact (congrArg State.board (State.goDown_otherwise h st reason).calm :).trans hdrop

/-- A slice that fails once its stages have ended and its engines have stopped. -/
def State.stopSlice (s : State) (sl : Nat) : State :=
  (List.range 4).foldl (fun (v : State) e => v.onSl sl fun x => x.stopEngine e)
    ((((s.sl sl).runs.filter fun r => r.st == .launched).foldl (fun (v : State) r => v.faultStage sl r .fault) s).endNext sl (fun _ => true) .fault)

/-- The links of a failed slice go DOWN at both ends. -/
def State.cutSlice (s : State) (sl : Nat) : State :=
  (List.range 8).foldl (fun (v : State) k =>
      if k = sl then v else (v.goDown sl (.link (Fin.ofNat 8 k)) linkDown 0).goDown k (.link (Fin.ofNat 8 sl)) linkDown 0)
    ((List.range 8).foldl (fun (v : State) p =>
      if (v.link sl (.port (Fin.ofNat 8 p))).st = linkDisabled then v else v.goDown sl (.port (Fin.ofNat 8 p)) linkDown 0) s)

/-- A slice held in reset. -/
def SliceState.heldBack (x : SliceState) (live : List Run) (quads : List Quad) : SliceState :=
  { live.foldl (fun (y : SliceState) r => y.endRun r .withdrawn) x with
    quads := quads, power := { x.power with heldInReset := true } }

theorem State.failSlice_eq (s : State) (sl : Nat) : s.failSlice sl =
    State.cutSlice (((s.stopSlice sl).onSl sl fun x =>
      x.heldBack ((s.sl sl).runs.filter fun r => r.st == .launched) (x.quads.map fun q => { q with st := .idle, loops := [] })).onSpares sl
        fun p => p.withdraw { kind := 0, index := 0 }) sl := rfl

theorem State.stopSlice_board (s : State) (sl : Nat) : (s.stopSlice sl).board = s.board := by
  have hfault (v : State) (r : Run) : (v.faultStage sl r .fault).board = v.board := (congrArg State.board (v.faultStage_boards sl r .fault) :)
  have hend (v : State) : (v.endNext sl (fun _ => true) .fault).board = v.board := rfl
  have hstop (v : State) : ((List.range 4).foldl (fun (v : State) e => v.onSl sl fun x => x.stopEngine e) v).board = v.board :=
    foldl_agree (π := State.board) (f := fun (v : State) e => v.onSl sl fun x => x.stopEngine e) (fun _ _ => rfl) _ v
  unfold State.stopSlice
  rw [hstop, hend]
  exact foldl_agree (π := State.board) (f := fun (v : State) r => v.faultStage sl r .fault) hfault _ s

theorem State.cutSlice_spec (s : State) (sl : Nat) : (s.cutSlice sl).board = s.board ∧ State.SamePower s (s.cutSlice sl) := by
  unfold State.cutSlice
  refine ⟨?_, .comp (.foldl (fun _ _ => .ite (.refl _) (.comp (.goDown ..) (.goDown ..))) _ _) (.foldl (fun _ _ => .ite (.refl _) (.goDown ..)) _ _)⟩
  refine (foldl_agree (π := State.board) (fun v k => ?_) _ _).trans (foldl_agree (π := State.board) (fun v p => ?_) _ _)
  · split
    · rfl
    · exact (State.goDown_board ..).trans (State.goDown_board ..)
  · split
    · rfl
    · exact State.goDown_board ..

theorem State.onSl_board (s : State) (i : Nat) (f : SliceState → SliceState) : (s.onSl i f).board = s.board := rfl

/-- The spares of a slice are no part of its power. -/
theorem State.SamePower.onSpares (s : State) (i : SliceId) (f : Spares → Spares) : State.SamePower s (s.onSpares i f) :=
  .onSl (i := i) (f := fun x => { x with spares := f x.spares }) fun _ => rfl

theorem SliceState.heldBack_held (x : SliceState) (live : List Run) (quads : List Quad) : (x.heldBack live quads).power.heldInReset = true := rfl

theorem State.failSlice_spec {s : State} (hs : s.Inv) (i : SliceId) : (s.failSlice i).board = s.board ∧ ((s.failSlice i).sl i).power.heldInReset = true := by
  rw [State.failSlice_eq]
  have hkeep : s.Keeps (s.stopSlice i) :=
    .comp (.foldl (fun _ _ => .onSl _ _ fun _ h => .stopEngine h ..) _ _) (.comp (.endNext ..) (.foldl (fun _ _ => .faultStage ..) _ _))
  have hboard := s.stopSlice_board i
  generalize s.stopSlice i = t at hkeep hboard
  generalize (s.sl i).runs.filter _ = live
  have hheld : ((t.onSl i fun x => x.heldBack live (x.quads.map fun q => { q with st := .idle, loops := [] })).sl i).power.heldInReset = true := by
    rw [State.onSl_sl_self _ _ _ ((hkeep.2 hs).slices_lt i)]
    exact SliceState.heldBack_held ..
  have hstay := (t.onSl_board i fun x => x.heldBack live (x.quads.map fun q => { q with st := .idle, loops := [] })).trans hboard
  generalize (t.onSl i fun x => x.heldBack live (x.quads.map fun q => { q with st := .idle, loops := [] })) = u at hheld hstay
  have hsp := State.SamePower.onSpares u i fun p => p.withdraw { kind := 0, index := 0 }
  have hson : (u.onSpares i fun p => p.withdraw { kind := 0, index := 0 }).board = u.board := u.onSl_board i _
  generalize (u.onSpares i fun p => p.withdraw { kind := 0, index := 0 }) = w at hsp hson
  obtain ⟨h1, h2⟩ := w.cutSlice_spec i
  exact ⟨h1.trans (hson.trans hstay), (congrArg Power.heldInReset ((State.SamePower.comp h2 hsp).agree i)).trans hheld⟩

/-- Settles O59, event by event. -/
theorem powerAndReset : Obligations.PowerAndReset := by
  unfold Obligations.PowerAndReset
  intro s hs
  refine ⟨fun b => ⟨fun h => if_pos h, fun h => ?_⟩, fun v => ⟨_, rfl, rfl, rfl, rfl, fun i => ?_⟩, fun i h => ?_, fun i h => if_pos h, rfl, fun h1 h2 => ?_,
    fun h => if_pos (by rcases h with h | h <;> simp [h]), fun h => if_pos (by rcases h with h | h <;> simp [h]), fun b => ⟨fun h => if_pos (by rcases h with h | h <;> simp [h]),
      fun h => if_pos (by rcases h with h | h <;> simp [h]), fun h1 h2 => ?_, fun h1 h2 => ?_⟩, fun h1 h2 => ?_⟩
  · by_cases hb : b.railsOk = true ∧ b.pllLocked = true
    · refine ⟨_, execPowerUp_powered h hb.1 hb.2, ?_⟩
      obtain ⟨-, -, -, hcount, hboot, hnode, -, -⟩ := State.powered_spec hs b
      obtain ⟨h1, h2, h3, h4, h5, h6, h7, h8⟩ := State.powerUp_spec hs b rfl
      refine ⟨h1, h3, fun hno => ?_, fun _ _ => ⟨h2, h6, fun hl => ?_, fun hl => ?_, fun r v hl hrest hr hv => ?_, h8⟩⟩
      · rcases hno with hno | hno
        · rw [hb.1] at hno
          cases hno
        · rw [hb.2] at hno
          cases hno
      · rw [hl] at hcount hboot
        rw [hboot] at h7
        rw [hcount] at h4
        exact ⟨h4, h7⟩
      · rw [h5, hnode, hl, State.loadStore_nodeId_default, ite_self]
      · obtain ⟨j1, j2⟩ := State.loadStore_nodeId_older hr hv
        rw [h5, hnode, hl, j2, j1, hrest]
        rfl
    · have hno : b.railsOk = false ∨ b.pllLocked = false := by
        cases hr : b.railsOk with
        | false => exact .inl rfl
        | true => exact .inr (by simpa [hr] using hb)
      obtain ⟨h1, h2, h3, -⟩ := State.powered_spec hs b
      refine ⟨_, execPowerUp_unpowered h hno, h1, h3, fun _ => ⟨rfl, h2⟩, fun hr hp => absurd ⟨hr, hp⟩ hb⟩
  · have hsl := State.powerDown_sl hs v i
    rw [hsl]
    refine ⟨rfl, rfl, fun hv => ?_, fun hv hw => ?_⟩
    · rw [hv]
      rfl
    · rw [hv, State.finishWrite_none hw]
      rfl
  · obtain ⟨h1, h2⟩ := State.failSlice_spec hs i
    refine ⟨_, if_neg (by rw [h]; decide), congrArg Prod.fst h1, ?_, congrArg Prod.snd h1⟩
    exact (congrArg Power.heldInReset ((State.SamePower.powerReport i 0 []).agree i)).trans h2
  · refine ⟨_, if_neg (by simp [h1, h2]), rfl, rfl, rfl, rfl, rfl, rfl, fun i a ha => ?_⟩
    have hsl : (State.warm { s with pkg := { s.pkg with sysRst := true } }).sl i = (s.sl i).warm := State.sl_map (s := s) (f := SliceState.warm) rfl (hs.slices_lt i)
    rw [hsl]
    exact Memory.read_filter_below _ ha
  · by_cases hp : s.pkg.pllLocked = true
    · obtain ⟨k1, k2, k3, k4, k5, k6, -⟩ := State.restart_spec { s with pkg := { s.pkg with sysRst := false, tap := if s.pkg.tap = .idcode then .idcode else .bypass } } b
      refine ⟨_, (if_neg (by simp [h1, h2])).trans (congrArg Host.Outcome.next (if_pos hp)), k6, fun _ => ⟨k1, k2, k3, k4, k5⟩⟩
    · exact ⟨_, (if_neg (by simp [h1, h2])).trans (congrArg Host.Outcome.next (if_neg hp)), rfl, fun hn => absurd hn hp⟩
  · by_cases hr : s.pkg.sysRst = true ∨ s.dict.deviceState = 4
    · refine ⟨_, (if_neg (by simp [h1, h2])).trans (congrArg Host.Outcome.next (if_pos hr)), rfl, fun hn h4 => ?_, fun h4 => ⟨h4, rfl, rfl⟩⟩
      rcases hr with hr | hr
      · rw [hn] at hr
        cases hr
      · exact absurd hr h4
    · obtain ⟨k1, k2, k3, k4, k5, -, k7⟩ := State.restart_spec { s with pkg := { s.pkg with pllLocked := true } } b
      exact ⟨_, (if_neg (by simp [h1, h2])).trans (congrArg Host.Outcome.next (if_neg hr)), k7, fun _ _ => ⟨k1, k2, k3, k4, k5⟩, fun h4 => absurd (.inr h4) hr⟩
  · exact ⟨_, if_neg (by simp [h1, h2]), rfl, rfl, rfl, rfl, rfl⟩

end Sys2Proof.Machine
end

section
/-! Input and output of a pass. -/

namespace Sys2Proof.Machine

/-! ### A fold that brings something about -/

/-- What one item of a list brings about, and every later one keeps, holds once the list has been gone through. -/
theorem foldl_reaches {σ α : Type} {f : σ → α → σ} {I P : σ → Prop} {a : α} {l : List α} (ha : a ∈ l) (hI : ∀ s b, I s → I (f s b))
    (hget : ∀ s, I s → P (f s a)) (hkeep : ∀ s b, I s → P s → P (f s b)) {s : σ} (hs : I s) : P (l.foldl f s) := by
  have hstay (k : List α) : ∀ {s : σ}, I s → P s → P (k.foldl f s) := by
    induction k with
    | nil => exact fun _ h => h
    | cons b k ih => exact fun hs h => ih (hI _ b hs) (hkeep _ b hs h)
  induction l generalizing s with
  | nil => cases ha
  | cons b l ih =>
    rcases List.mem_cons.1 ha with rfl | ha
    · exact hstay l (hI s a hs) (hget s hs)
    · exact ih ha (hI s b hs)

/-- What every item of a list keeps is kept by the list. -/
theorem foldl_keeps {σ α : Type} {f : σ → α → σ} {P : σ → Prop} (h : ∀ s a, P s → P (f s a)) (l : List α) {s : σ} (hs : P s) : P (l.foldl f s) := by
  induction l generalizing s with
  | nil => exact hs
  | cons a l ih => exact ih (h s a hs)

/-! ### The stage that acts, and its requests -/

/-- A stage that begins to act changes the runs of its slice alone. -/
theorem State.actingRun_agree {β : Type} {π : SliceState → β} (h : ∀ x r, π { x with runs := r } = π x) {s t : State} {sl i : Nat} {k : StageKind} {u : Run}
    (hact : s.actingRun sl i k = some (u, t)) : State.Agree π s t := by
  obtain ⟨-, -, -, ⟨-, -, rfl⟩ | ⟨w, -, -, -, -, rfl⟩⟩ := State.actingRun_cases hact
  · exact .onSl fun _ => h _ _
  · exact .comp (.onSl fun _ => h _ _) (.onSl fun _ => h _ _)

theorem State.actingRun_board {s t : State} {sl i : Nat} {k : StageKind} {u : Run} (hact : s.actingRun sl i k = some (u, t)) :
    t.job = s.job ∧ t.host = s.host := by
  obtain ⟨-, -, -, ⟨-, -, rfl⟩ | ⟨w, -, -, -, -, rfl⟩⟩ := State.actingRun_cases hact <;> exact ⟨rfl, rfl⟩

/-- A job is queued at the end of its channel. -/
theorem State.mem_pushChan {s : State} {c : Nat} {j k : DmaJob} (h : k ∈ s.host.chans.getD c []) (d : Nat) : k ∈ (s.pushChan d j).host.chans.getD c [] := by
  show k ∈ (s.host.chans.modify d (· ++ [j])).getD c []
  obtain hc | hc := Nat.lt_or_ge c s.host.chans.length
  · rw [List.getD_eq_getElem _ _ (by rw [List.length_modify]; exact hc), List.getElem_modify]
    rw [List.getD_eq_getElem _ _ hc] at h
    split
    · exact List.mem_append_left _ h
    · exact h
  · rw [List.getD_eq_default _ _ hc] at h
    cases h

theorem State.pushChan_mem {s : State} {c : Nat} (hc : c < s.host.chans.length) (j : DmaJob) : j ∈ (s.pushChan c j).host.chans.getD c [] := by
  have h : (s.pushChan c j).host.chans.getD c [] = s.host.chans.getD c [] ++ [j] := getD_modify_self hc _ _
  rw [h]
  exact List.mem_append_right _ List.mem_cons_self

/-- The requests of a slice after a change to each. -/
theorem State.onReqs_reqs {s : State} {i : Nat} (hi : i < s.slices.length) (f : Request → Request) :
    ((s.onSl i fun x => x.onReqs f).sl i).svc.reqs = (s.sl i).svc.reqs.map f := by
  rw [State.onSl_sl_self _ _ _ hi]
  rfl

/-- What a slice tells beside its runs and flags stays where a stage completes. -/
theorem SliceState.completeRun_svc (x : SliceState) (u : Run) : (x.completeRun u).svc = x.svc :=
  SliceState.completeRun_agree (π := SliceState.svc) (fun _ _ => rfl) (fun _ _ _ _ => rfl) x u

theorem SliceState.completeRun_mem (x : SliceState) (u : Run) : (x.completeRun u).mem = x.mem :=
  SliceState.completeRun_agree (π := SliceState.mem) (fun _ _ => rfl) (fun _ _ _ _ => rfl) x u

theorem SliceState.tryInput_spec (x : SliceState) : x.tryInput.svc = x.svc ∧ x.tryInput.mem = x.mem := by
  unfold SliceState.tryInput
  split
  · split
    · exact ⟨SliceState.completeRun_svc .., SliceState.completeRun_mem ..⟩
    · exact ⟨rfl, rfl⟩
  · exact ⟨rfl, rfl⟩

theorem SliceState.tryOutput_svc (x : SliceState) (sqz : Bool) : (x.tryOutput sqz).svc = x.svc := by
  unfold SliceState.tryOutput
  split
  · split
    · exact SliceState.completeRun_svc ..
    · rfl
  · rfl

/-! ### INPUT -/

/-- The bytes of a request's input rows. -/
def State.inBytes (s : State) (r : Request) : Nat := r.rows * s.job.elim 0 fun j => j.inRowBytes

theorem State.startInput_eq (s : State) (sl : Nat) (f : Drip) (r : Request) : s.startInput sl f r =
    if !r.liveIn f then s
    else if s.inBytes r = 0 then s.onSl sl fun x => x.onReqs fun q => if q.slot == r.slot then { q with inputDone := true } else q
    else (s.onSl sl fun x => x.onReqs fun q => if q.slot == r.slot then { q with inputRows := zeros (s.inBytes r) } else q).pushChan
      (2 * sl) (.inputRead sl r.slot r.cmd.hostA (s.inBytes r)) := by
  unfold State.startInput State.inBytes
  cases s.job <;> rfl

theorem State.startInput_keeps (s : State) (sl : Nat) (f : Drip) (r : Request) :
    (s.startInput sl f r).job = s.job ∧ State.Agree SliceState.mem s (s.startInput sl f r) ∧
      (∀ c k, k ∈ s.host.chans.getD c [] → k ∈ (s.startInput sl f r).host.chans.getD c []) ∧
      (sl < s.slices.length → ∀ n, (∀ q ∈ (s.sl sl).svc.reqs, q.slot = n → q.inputDone = true) →
        ∀ q ∈ ((s.startInput sl f r).sl sl).svc.reqs, q.slot = n → q.inputDone = true) := by
  rw [State.startInput_eq]
  split
  · exact ⟨rfl, .refl s, fun _ _ h => h, fun _ _ h => h⟩
  · split
    · refine ⟨rfl, .onSl fun _ => rfl, fun _ _ h => h, fun hi n h q hq hn => ?_⟩
      rw [State.onReqs_reqs hi] at hq
      obtain ⟨p, hp, rfl⟩ := List.mem_map.1 hq
      split
      · rfl
      · next hne => exact h p hp (by rw [if_neg hne] at hn; exact hn)
    · refine ⟨rfl, .onSl fun _ => rfl, fun c k h => State.mem_pushChan h _, fun hi n h q hq hn => ?_⟩
      rw [State.pushChan_sl, State.onReqs_reqs hi] at hq
      obtain ⟨p, hp, rfl⟩ := List.mem_map.1 hq
      split at hn
      · next he => rw [if_pos he]; exact h p hp hn
      · next he => rw [if_neg he]; exact h p hp hn

/-- The read of a live request's rows waits on the channel of its slice. -/
theorem State.startInput_reads {s : State} {sl : Nat} {f : Drip} {r : Request} (hr : r.liveIn f = true) (hn : s.inBytes r ≠ 0)
    (hc : 2 * sl < s.host.chans.length) :
    .inputRead sl r.slot r.cmd.hostA (s.inBytes r) ∈ (s.startInput sl f r).host.chans.getD (2 * sl) [] := by
  rw [State.startInput_eq, hr, Bool.not_true, if_neg Bool.false_ne_true, if_neg hn]
  exact State.pushChan_mem (s := State.onSl ..) hc _

/-- A live request of no bytes has its input. -/
theorem State.startInput_none {s : State} {sl : Nat} {f : Drip} {r : Request} (hr : r.liveIn f = true) (hn : s.inBytes r = 0)
    (hi : sl < s.slices.length) : ∀ q ∈ ((s.startInput sl f r).sl sl).svc.reqs, q.slot = r.slot → q.inputDone = true := by
  rw [State.startInput_eq, hr, Bool.not_true, if_neg Bool.false_ne_true, if_pos hn]
  intro q hq hs
  rw [State.onReqs_reqs hi] at hq
  obtain ⟨p, hp, rfl⟩ := List.mem_map.1 hq
  split
  · rfl
  · next hne => exact absurd (by rw [if_neg hne] at hs; exact beq_iff_eq.2 hs) hne

/-- What the INPUT stage of a frame does for the requests of a slice. -/
theorem State.foldInput_spec {s : State} (hs : s.Inv) (sl : SliceId) (f : Drip) (l : List Request) :
    ((l.foldl (fun v r => v.startInput sl f r) s).sl sl).mem = (s.sl sl).mem ∧ ∀ r ∈ l, r.liveIn f = true →
      (s.inBytes r ≠ 0 → .inputRead sl r.slot r.cmd.hostA (s.inBytes r) ∈ (l.foldl (fun v r => v.startInput sl f r) s).host.chans.getD (2 * sl) []) ∧
      (s.inBytes r = 0 → ∀ q ∈ ((l.foldl (fun v r => v.startInput sl f r) s).sl sl).svc.reqs, q.slot = r.slot → q.inputDone = true) := by
  have hstep (v : State) (r : Request) (h : v.Inv ∧ v.job = s.job) : (v.startInput sl f r).Inv ∧ (v.startInput sl f r).job = s.job :=
    ⟨(State.Keeps.startInput v sl f r).2 h.1, (v.startInput_keeps sl f r).1.trans h.2⟩
  have hbytes {v : State} (r : Request) (h : v.job = s.job) : v.inBytes r = s.inBytes r := by
    unfold State.inBytes
    rw [h]
  refine ⟨State.Agree.foldl (fun v r => (v.startInput_keeps sl f r).2.1) l s sl, fun r hr hl => ⟨fun hn => ?_, fun hn => ?_⟩⟩
  · refine foldl_reaches (P := fun v : State => .inputRead sl r.slot r.cmd.hostA (s.inBytes r) ∈ v.host.chans.getD (2 * sl) []) hr hstep (fun v h => ?_)
      (fun v q _ h => (v.startInput_keeps sl f q).2.2.1 _ _ h) ⟨hs, rfl⟩
    have h2 := hbytes r h.2
    rw [← h2]
    exact State.startInput_reads hl (h2 ▸ hn) (by rw [h.1.2.2.1]; omega)
  · exact foldl_reaches (P := fun v : State => ∀ q ∈ (v.sl sl).svc.reqs, q.slot = r.slot → q.inputDone = true) hr hstep
      (fun v h => State.startInput_none hl ((hbytes r h.2).trans hn) (h.1.slices_lt sl))
      (fun v q h hk => (v.startInput_keeps sl f q).2.2.2 (h.1.slices_lt sl) _ hk) ⟨hs, rfl⟩

theorem execInputStage_acts {s t : State} {sl : SliceId} {i : Nat} {u : Run} (h : s.actingRun sl i .input = some (u, t)) :
    exec (.inputStage sl i) s = .next (((t.sl sl).svc.reqs.foldl (fun v r => v.startInput sl u.frame r) t).onSl sl SliceState.tryInput) := by
  show execInputStage sl i s = _
  unfold execInputStage
  rw [h]

/-! ### OUTPUT -/

/-- The bytes of a request's output rows at a slice. -/
def State.outBytes (s : State) (sl : Nat) (x : SliceState) (r : Request) : Bytes :=
  x.load (s.job.elim 0 (fun j => j.outAddr.getD sl 0) + r.firstRow * s.job.elim 0 fun j => j.outRowBytes) (r.rows * s.job.elim 0 fun j => j.outRowBytes)

/-- An OUTPUT stage writes one request. -/
def State.startOutput (s : State) (sl : Nat) (b : Bytes) (r : Request) : State :=
  if b.isEmpty then s.outputWritten sl r.slot
  else (s.onSl sl fun y => y.onReqs fun q => if q.slot == r.slot then { q with outputRows := b } else q).pushChan
    (2 * sl + 1) (.outputWrite sl r.slot r.cmd.hostB b)

theorem State.outputStage_acts {s t : State} {sl i : Nat} {k : StageKind} {u : Run} (sqz : Bool) (h : s.actingRun sl i k = some (u, t)) :
    s.outputStage sl i k sqz =
      (((t.sl sl).svc.reqs.filter ((t.sl sl).writes sqz u.frame)).foldl (fun v r => v.startOutput sl (s.outBytes sl (t.sl sl) r) r) t).onSl sl
        fun y => y.tryOutput sqz := by
  unfold State.outputStage State.startOutput State.outBytes
  rw [h]
  cases s.job <;> rfl

theorem State.outputWritten_chans (s : State) (sl slot : Nat) : (s.outputWritten sl slot).host.chans = s.host.chans := by
  unfold State.outputWritten
  split
  · rfl
  · split <;> rfl

theorem State.startOutput_chans {s : State} {sl : Nat} {r : Request} {b : Bytes} {k : DmaJob} {c : Nat} (h : k ∈ s.host.chans.getD c []) :
    k ∈ (s.startOutput sl b r).host.chans.getD c [] := by
  unfold State.startOutput
  split
  · rw [State.outputWritten_chans]
    exact h
  · exact State.mem_pushChan (s := State.onSl ..) h _

theorem State.startOutput_writes {s : State} {sl : Nat} {r : Request} {b : Bytes} (hb : b ≠ []) (hc : 2 * sl + 1 < s.host.chans.length) :
    .outputWrite sl r.slot r.cmd.hostB b ∈ (s.startOutput sl b r).host.chans.getD (2 * sl + 1) [] := by
  unfold State.startOutput
  rw [if_neg (by rwa [List.isEmpty_iff])]
  exact State.pushChan_mem (s := State.onSl ..) hc _

end Sys2Proof.Machine
end

section
/-! Layer boundaries and deadlines. -/

namespace Sys2Proof.Machine

/-! ### Conditions that take effect at once -/

theorem later_self (d : Drip) : Drip.later d d = false := by
  unfold Drip.later
  rw [BitVec.sub_self]
  rfl

/-- A request that is given a condition of this drip has ended. -/
theorem Request.settled_given (d : Drip) (r : Request) (st : Status) (l : Nat) : ((r.given ⟨d, d, st, l⟩).settled d).ended = true := by
  have hlast : (r.given ⟨d, d, st, l⟩).conds.any (fun c => Drip.notLater c.given d) = true :=
    List.any_eq_true.2 ⟨⟨d, d, st, l⟩, List.mem_append_right _ List.mem_cons_self, by unfold Drip.notLater; rw [later_self]; rfl⟩
  cases he : r.ended with
  | false =>
    unfold Request.settled
    rw [hlast, if_pos]
    rw [show (r.given ⟨d, d, st, l⟩).ended = r.ended from rfl, he]
    rfl
  | true =>
    unfold Request.settled
    split
    · rfl
    · exact he

/-- A request with no condition goes on. -/
theorem Request.settled_none {r : Request} (h : r.conds = []) (d : Drip) : r.settled d = r := by
  unfold Request.settled
  rw [h, List.any_nil, Bool.and_false, if_neg Bool.false_ne_true]

/-! ### Layer boundaries -/

/-- A request that switches to the squeeze schedule. -/
def Request.switched (slot layer : Nat) (r : Request) : Request := if r.slot == slot then { r with sqz := true, sqzLayer := layer } else r

theorem Request.switched_keeps (slot layer : Nat) (r : Request) :
    (r.switched slot layer).slot = r.slot ∧ (r.switched slot layer).ended = r.ended ∧ (r.switched slot layer).conds = r.conds := by
  unfold Request.switched
  split <;> exact ⟨rfl, rfl, rfl⟩

theorem State.switchReq_svc {s : State} {sl : Nat} (hi : sl < s.slices.length) (slot layer : Nat) :
    ((s.switchReq sl slot layer).sl sl).svc.reqs = (s.sl sl).svc.reqs.map (Request.switched slot layer) ∧
      ((s.switchReq sl slot layer).sl sl).svc.boundaries = (s.sl sl).svc.boundaries ∧
      ((s.switchReq sl slot layer).sl sl).svc.combined = (s.sl sl).svc.combined := by
  unfold State.switchReq
  dsimp only
  rw [show ∀ (t : State) (p : Package), ({ t with pkg := p } : State).sl sl = t.sl sl from fun _ _ => rfl, State.onSl_sl_self _ _ _ hi]
  exact ⟨rfl, rfl, rfl⟩

/-- What the switches at a boundary leave, and what they do. -/
theorem State.foldSwitch_spec {s : State} (hs : s.Inv) (sl : SliceId) (layer : Nat) (l : List Request) :
    ((l.foldl (fun v r => v.switchReq sl r.slot layer) s).sl sl).svc.boundaries = (s.sl sl).svc.boundaries ∧
      ((l.foldl (fun v r => v.switchReq sl r.slot layer) s).sl sl).svc.combined = (s.sl sl).svc.combined ∧
      (∀ r ∈ (s.sl sl).svc.reqs, ∃ q ∈ ((l.foldl (fun v r => v.switchReq sl r.slot layer) s).sl sl).svc.reqs,
        q.slot = r.slot ∧ q.ended = r.ended ∧ q.conds = r.conds) ∧
      ∀ r ∈ l, ∀ q ∈ ((l.foldl (fun v r => v.switchReq sl r.slot layer) s).sl sl).svc.reqs, q.slot = r.slot → q.sqz = true ∧ q.sqzLayer = layer := by
  have hstep (v : State) (r : Request) (h : v.Inv) : (v.switchReq sl r.slot layer).Inv := (State.Keeps.switchReq v sl r.slot layer).2 h
  refine ⟨?_, ?_, fun r hr => ?_, fun r hr => ?_⟩
  · exact (foldl_keeps (P := fun v : State => v.Inv ∧ (v.sl sl).svc.boundaries = (s.sl sl).svc.boundaries)
      (fun v r h => ⟨hstep v r h.1, (State.switchReq_svc (h.1.slices_lt sl) _ _).2.1.trans h.2⟩) l ⟨hs, rfl⟩).2
  · exact (foldl_keeps (P := fun v : State => v.Inv ∧ (v.sl sl).svc.combined = (s.sl sl).svc.combined)
      (fun v r h => ⟨hstep v r h.1, (State.switchReq_svc (h.1.slices_lt sl) _ _).2.2.trans h.2⟩) l ⟨hs, rfl⟩).2
  · refine (foldl_keeps (P := fun v : State => v.Inv ∧ ∃ q ∈ (v.sl sl).svc.reqs, q.slot = r.slot ∧ q.ended = r.ended ∧ q.conds = r.conds)
      (fun v p h => ⟨hstep v p h.1, ?_⟩) l ⟨hs, r, hr, rfl, rfl, rfl⟩).2
    obtain ⟨hv, q, hq, h1, h2, h3⟩ := h
    obtain ⟨k1, k2, k3⟩ := q.switched_keeps p.slot layer
    exact ⟨_, (State.switchReq_svc (hv.slices_lt sl) _ _).1 ▸ List.mem_map_of_mem hq, k1.trans h1, k2.trans h2, k3.trans h3⟩
  · refine foldl_reaches (P := fun v : State => ∀ q ∈ (v.sl sl).svc.reqs, q.slot = r.slot → q.sqz = true ∧ q.sqzLayer = layer) hr hstep
      (fun v h q hq hn => ?_) (fun v p h hk q hq hn => ?_) hs
    · rw [(State.switchReq_svc (h.slices_lt sl) _ _).1] at hq
      obtain ⟨p, -, rfl⟩ := List.mem_map.1 hq
      have hp : p.slot = r.slot := (p.switched_keeps r.slot layer).1.symm.trans hn
      unfold Request.switched
      rw [if_pos (beq_iff_eq.2 hp)]
      exact ⟨rfl, rfl⟩
    · rw [(State.switchReq_svc (h.slices_lt sl) _ _).1] at hq
      obtain ⟨o, ho, rfl⟩ := List.mem_map.1 hq
      have hold := hk o ho ((o.switched_keeps p.slot layer).1.symm.trans hn)
      unfold Request.switched
      split
      · exact ⟨rfl, rfl⟩
      · exact hold

/-- A slice whose boundary of a layer is taken, before its requests are projected. -/
def State.boundaryTaken (s : State) (sl layer : Nat) : State :=
  (s.endReqs sl (fun r => r.cancel) s.now s.now .cancelled layer).onSvc sl fun v =>
    { v with combined := v.combined.filter (·.1 != layer), boundaries := v.boundaries ++ [layer] }

/-- The requests that switch at the boundary of a layer (R369, R370). -/
def State.switching (s : State) (sl layer : Nat) (r : Request) : Bool :=
  !r.ended && !r.sqz && (s.overdue r (s.lagAt layer r.frame) ||
    (r.cmd.sqzForce && !r.cmd.noSqueeze && decide (layer < r.cmd.sqzFrom) && decide (r.cmd.sqzFrom ≤ s.layerAfter sl (some layer))))

theorem State.boundaryTaken_svc {s : State} {sl : Nat} (hi : sl < s.slices.length) (layer : Nat) :
    ((s.boundaryTaken sl layer).sl sl).svc.reqs =
        (s.sl sl).svc.reqs.map (fun r => Request.settled s.now (if r.cancel then r.given ⟨s.now, s.now, .cancelled, layer⟩ else r)) ∧
      layer ∈ ((s.boundaryTaken sl layer).sl sl).svc.boundaries ∧ ∀ k ∈ ((s.boundaryTaken sl layer).sl sl).svc.combined, k.1 ≠ layer := by
  unfold State.boundaryTaken State.onSvc
  rw [State.onSl_sl_self _ _ _ (by rw [show (s.endReqs sl _ _ _ _ _).slices.length = s.slices.length from List.length_modify ..]; exact hi)]
  refine ⟨State.endReqs_reqs hi .., List.mem_append_right _ List.mem_cons_self, fun k hk => ?_⟩
  exact bne_iff_ne.1 (List.mem_filter.1 hk).2

theorem execLayerBoundary_taken {s : State} {sl : SliceId} {layer : Nat} {d : Drip} (hd : (layer, d) ∈ (s.sl sl).svc.combined)
    (hnow : Drip.later d s.now = false) (hnot : layer ∉ (s.sl sl).svc.boundaries) :
    exec (.layerBoundary sl layer) s = .next
      (if (s.moeLayers sl).any fun k => decide (layer < k) then
        (((s.boundaryTaken sl layer).sl sl).svc.reqs.filter (s.switching sl layer)).foldl
          (fun u r => u.switchReq sl r.slot (s.layerAfter sl (some layer))) (s.boundaryTaken sl layer)
      else s.boundaryTaken sl layer) := by
  show execLayerBoundary sl layer s = _
  have hgo : ((s.sl sl).svc.combined.any (fun k => k.1 == layer && !Drip.later k.2 s.now) && !(s.sl sl).svc.boundaries.contains layer) = true := by
    rw [Bool.and_eq_true, List.any_eq_true, Bool.not_eq_true']
    exact ⟨⟨_, hd, by simp [hnow]⟩, by simpa using hnot⟩
  unfold execLayerBoundary
  exact (if_pos hgo).trans (apply_ite Host.Outcome.next ..).symm

/-! ### Deadlines -/

/-- The rows of a request that ends are no longer valid. -/
theorem SliceState.settleRows_rowmap {x : SliceState} {d : Drip} {r : Request} (hr : r ∈ x.svc.reqs) (he : r.ended = false)
    (hc : (r.conds.any fun c => Drip.notLater c.given d) = true) : ∀ e ∈ (x.settleRows d).svc.rowmap, e.valid = true → e.req ≠ r.slot := by
  have hgone : r.slot ∈ (x.svc.reqs.filter fun q => !q.ended && q.conds.any fun c => Drip.notLater c.given d).map (·.slot) :=
    List.mem_map_of_mem (List.mem_filter.2 ⟨hr, by rw [he, hc]; rfl⟩)
  unfold SliceState.settleRows
  dsimp only
  rw [if_neg fun hn => List.not_mem_nil (hn ▸ hgone)]
  intro e hmem hv
  obtain ⟨f, -, rfl⟩ := List.mem_map.1 hmem
  split at hv
  · cases hv
  · next hno =>
    rw [if_neg hno]
    intro hs
    refine hno ?_
    rw [hv, hs]
    exact List.contains_iff_mem.2 hgone

/-- The requests of a slot after a condition of this drip. -/
theorem State.endReqs_now {s : State} {i : Nat} (hi : i < s.slices.length) (n : Nat) (st : Status) (l : Nat) :
    (∀ q ∈ ((s.endReqs i (fun q => q.slot == n) s.now s.now st l).sl i).svc.reqs, q.slot = n → q.ended = true ∧ ⟨s.now, s.now, st, l⟩ ∈ q.conds) ∧
      ∀ r ∈ (s.sl i).svc.reqs, r.slot = n → r.ended = false →
        ∀ e ∈ ((s.endReqs i (fun q => q.slot == n) s.now s.now st l).sl i).svc.rowmap, e.valid = true → e.req ≠ n := by
  constructor
  · intro q hq hn
    rw [State.endReqs_reqs hi] at hq
    obtain ⟨r, -, rfl⟩ := List.mem_map.1 hq
    rw [Request.settled_slot] at hn
    split at hn
    · next hp =>
      rw [if_pos hp]
      refine ⟨Request.settled_given .., ?_⟩
      rw [Request.settled_conds]
      exact List.mem_append_right _ List.mem_cons_self
    · next hp => exact absurd (beq_iff_eq.2 hn) hp
  · intro r hr hn he
    unfold State.endReqs
    rw [State.onSl_sl_self _ _ _ hi]
    have hmem : r.given ⟨s.now, s.now, st, l⟩ ∈ ((s.sl i).onReqs fun r => if r.slot == n then r.given ⟨s.now, s.now, st, l⟩ else r).svc.reqs := by
      have h := List.mem_map_of_mem (f := fun r : Request => if r.slot == n then r.given ⟨s.now, s.now, st, l⟩ else r) hr
      rwa [if_pos (beq_iff_eq.2 hn)] at h
    have h := SliceState.settleRows_rowmap (d := s.now) hmem he
      (List.any_eq_true.2 ⟨_, List.mem_append_right _ List.mem_cons_self, by unfold Drip.notLater; rw [later_self]; rfl⟩)
    rw [show (r.given ⟨s.now, s.now, st, l⟩).slot = n from hn] at h
    exact h

/-- A request that may take the condition of its deadline. -/
def State.expired (s : State) (r : Request) : Bool := Drip.later s.now r.deadline && !r.present (r.deadline.plus 1)

theorem execRequestDeadline_live {s : State} {sl : SliceId} {n : Nat} {r : Request}
    (h : (s.sl sl).svc.reqs.find? (fun q => q.slot == n && !q.ended) = some r) :
    exec (.requestDeadline sl n) s = .next (if s.expired r then s.endReqs sl (fun q => q.slot == n) s.now s.now .deadline else s) := by
  show execRequestDeadline sl n s = _
  unfold execRequestDeadline
  dsimp only
  rw [h]
  exact (apply_ite Host.Outcome.next ..).symm

theorem execRequestDeadline_ended {s : State} {sl : SliceId} {n : Nat} {r : Request}
    (h : (s.sl sl).svc.reqs.find? (fun q => q.slot == n) = some r) (he : ∀ q ∈ (s.sl sl).svc.reqs, q.slot = n → q.ended = true) :
    exec (.requestDeadline sl n) s = .next (if s.expired r then s.endReqs sl (fun q => q.slot == n) s.now s.now .deadline else s) := by
  have hnone : (s.sl sl).svc.reqs.find? (fun q => q.slot == n && !q.ended) = none := List.find?_eq_none.2 fun q hq hp => by
    rw [Bool.and_eq_true, beq_iff_eq, Bool.not_eq_true'] at hp
    rw [he q hq hp.1] at hp
    cases hp.2
  show execRequestDeadline sl n s = _
  unfold execRequestDeadline
  dsimp only
  rw [hnone, h]
  exact (apply_ite Host.Outcome.next ..).symm

theorem execRequestDeadline_pending {s : State} {sl : SliceId} {n : Nat} {c : Cmd} (hno : ∀ q ∈ (s.sl sl).svc.reqs, q.slot ≠ n)
    (hc : (s.sl sl).svc.pending.find? (fun d => d.slot == n && d.kind == 1) = some c) (hl : Drip.later s.now c.deadline = true) :
    ∃ t, exec (.requestDeadline sl n) s = .next t ∧ t.slices = (s.endCmd sl c .deadline 0).slices ∧
      t.pkg.deadlineEnds = (s.endCmd sl c .deadline 0).pkg.deadlineEnds + 1 := by
  have hnone : (s.sl sl).svc.reqs.find? (fun q => q.slot == n && !q.ended) = none := List.find?_eq_none.2 fun q hq hp =>
    hno q hq (beq_iff_eq.1 (Bool.and_eq_true .. ▸ hp).1)
  have hnone' : (s.sl sl).svc.reqs.find? (fun q => q.slot == n) = none := List.find?_eq_none.2 fun q hq hp => hno q hq (beq_iff_eq.1 hp)
  refine ⟨{ s.endCmd sl c .deadline 0 with pkg := { (s.endCmd sl c .deadline 0).pkg with deadlineEnds := (s.endCmd sl c .deadline 0).pkg.deadlineEnds + 1 } },
    ?_, rfl, rfl⟩
  show execRequestDeadline sl n s = _
  unfold execRequestDeadline
  dsimp only
  rw [hnone, hnone', hc]
  exact if_pos hl

/-- The commands that wait at a slice once one has ended. -/
theorem State.endCmd_pending {s : State} {sl : Nat} (hi : sl < s.slices.length) (c : Cmd) (st : Status) (n : Nat) :
    ((s.endCmd sl c st n).sl sl).svc.pending = (s.sl sl).svc.pending.filter fun d => d.slot != c.slot := by
  have h := (State.Completes.completeCmd (s := s.dropCmd sl c) sl c st n none).slice (π := fun x => x.svc.pending) (fun _ _ => rfl) sl
  refine h.trans ?_
  unfold State.dropCmd State.onSvc
  rw [State.onSl_sl_self _ _ _ hi]

theorem State.Keeps.startOutput (s : State) (sl : Nat) (b : Bytes) (r : Request) : s.Keeps (s.startOutput sl b r) :=
  .ite (.outputWritten ..) (.comp (.pushChan ..) (.onSl _ _ fun _ h => .onReqs h ..))

theorem State.Keeps.boundaryTaken (s : State) (sl layer : Nat) : s.Keeps (s.boundaryTaken sl layer) :=
  .comp (.onSl _ _ fun _ h => .update h rfl rfl rfl) (.endReqs ..)

end Sys2Proof.Machine
end

section
/-! Completion records, and the requests of a pass. -/

namespace Sys2Proof.Machine

/-! ### The records owed to a ring -/

/-- What a message of a vector leaves of the rings, and what it queues. -/
theorem State.signalVector_keeps {s : State} (hs : s.host.chans.length = 18) (v : Nat) :
    (s.signalVector v).slices = s.slices ∧ (s.signalVector v).still = s.still ∧
      (∃ post, (s.signalVector v).host.chans.getD 17 [] = s.host.chans.getD 17 [] ++ post) ∧
      ∀ k, ((s.signalVector v).host.rings.getD k {}).held = (s.host.rings.getD k {}).held ∧
        ((s.signalVector v).host.rings.getD k {}).tail = (s.host.rings.getD k {}).tail ∧
        ((s.signalVector v).host.rings.getD k {}).phase = (s.host.rings.getD k {}).phase := by
  unfold State.signalVector
  dsimp only
  generalize hu : ({ s with host := { s.host with rings := s.host.rings.map _ } } : State) = u
  have hc : u.host.chans = s.host.chans := hu ▸ rfl
  have hr : (u.msix v).host.rings = u.host.rings := by
    unfold State.msix
    split
    · rfl
    · split <;> rfl
  refine ⟨(State.msix_slices u v).trans (hu ▸ rfl), (State.msix_still u v).trans (hu ▸ rfl), ?_, fun k => ?_⟩
  · rw [← hc]
    unfold State.msix
    split
    · exact ⟨[], (List.append_nil _).symm⟩
    · split
      · exact ⟨[], (List.append_nil _).symm⟩
      · exact ⟨[.message v], getD_modify_self (by rw [hc, hs]; decide) _ _⟩
  · rw [hr, ← hu]
    dsimp only
    simp only [List.getD_eq_getElem?_getD, List.getElem?_map]
    cases s.host.rings[k]? with
    | none => exact ⟨rfl, rfl, rfl⟩
    | some r =>
      simp only [Option.map_some, Option.getD_some]
      split <;> exact ⟨rfl, rfl, rfl⟩

/-- The partial record of a completion, where it has one. -/
def State.partialWrite (s : State) (c : Completion) : State :=
  c.part.elim s fun k => s.pushChan 17 (.recordWrite ((s.partialArea c.ctx + 528 * k) % 2 ^ 64) (partialBytes c))

/-- The two writes of a record: bytes 8 to 127, then word 0. -/
def State.queueRecord (s : State) (a : Nat) (b : Bytes) : State :=
  (s.pushChan 17 (.recordWrite (a + 8) (b.drop 8))).pushChan 17 (.recordWrite a (b.take 8))

/-- The device notes the digest of a record and that its context has one written. -/
def State.noteRecord (s : State) (c : Completion) (now : Drip) : State :=
  { s with still := { s.still with digestsWritten := s.still.digestsWritten + b2n (!c.digest.isEmpty) } }.onCtx c.ctx fun x => { x with wrote := some now }

/-- A ring whose oldest record has been written where `r` stood. -/
def Ring.wrote (r : Machine.Ring) (cs : List Completion) (q : Machine.Ring) : Machine.Ring :=
  { q with held := cs, tail := if r.entries ≤ r.tail + 1 then 0 else q.tail + 1, phase := q.phase != decide (r.entries ≤ r.tail + 1)
           unsignalled := q.unsignalled + 1 }

/-- The oldest record of a ring is written, up to its message. -/
def State.recordWritten (s : State) (ring : Nat) (c : Completion) (cs : List Completion) : State :=
  let r := s.host.rings.getD ring {}
  (((s.partialWrite c).queueRecord ((r.base + 128 * r.tail) % 2 ^ 64) (completionBytes c r.phase)).noteRecord c s.now).onRing ring (r.wrote cs)

/-- A request's rows still wait to be written to host memory. -/
def State.outputWaits (s : State) (c : Completion) : Bool :=
  c.slot.elim false fun k => (s.host.chans.getD (2 * c.slice + 1) []).any fun j => j.serves c.slice k

theorem execCompletionWrite_held {s : State} {ring : Fin 64} {c : Completion} {cs : List Completion}
    (h : (s.host.rings.getD ring {}).held = c :: cs) :
    exec (.completionWrite ring) s =
      if !s.ringOpen (s.host.rings.getD ring {}) || s.outputWaits c then .next s
      else .next (if max 1 (s.host.rings.getD ring {}).modCount ≤ (s.host.rings.getD ring {}).unsignalled + 1 then
          (s.recordWritten ring c cs).signalVector (s.host.rings.getD ring {}).vector
        else s.recordWritten ring c cs) := by
  show execCompletionWrite ring s = _
  unfold execCompletionWrite State.outputWaits State.recordWritten State.partialWrite
  dsimp only
  rw [h]
  dsimp only
  cases c.slot <;> cases c.part <;> rfl

theorem State.outputWaits_of {s : State} {c : Completion} {k : Nat} {j : DmaJob} (hk : c.slot = some k)
    (hj : j ∈ s.host.chans.getD (2 * c.slice + 1) []) (hs : j.serves c.slice k = true) : s.outputWaits c = true := by
  unfold State.outputWaits
  rw [hk]
  exact List.any_eq_true.2 ⟨j, hj, hs⟩

theorem State.outputWaits_none {s : State} {c : Completion}
    (h : ∀ k, c.slot = some k → ∀ j ∈ s.host.chans.getD (2 * c.slice + 1) [], j.serves c.slice k = false) : s.outputWaits c = false := by
  unfold State.outputWaits
  cases hk : c.slot with
  | none => rfl
  | some k => exact List.any_eq_false.2 fun j hj => by rw [h k hk j hj]; decide

theorem State.queueRecord_spec {s : State} (h : s.host.chans.length = 18) (a : Nat) (b : Bytes) :
    (s.queueRecord a b).slices = s.slices ∧ (s.queueRecord a b).host.rings = s.host.rings ∧ (s.queueRecord a b).still = s.still ∧
      (s.queueRecord a b).host.chans.length = 18 ∧
      (s.queueRecord a b).host.chans.getD 17 [] = s.host.chans.getD 17 [] ++ [.recordWrite (a + 8) (b.drop 8), .recordWrite a (b.take 8)] := by
  refine ⟨rfl, rfl, rfl, ?_, ?_⟩
  · show ((s.host.chans.modify 17 _).modify 17 _).length = 18
    rw [List.length_modify, List.length_modify, h]
  · show ((s.host.chans.modify 17 _).modify 17 _).getD 17 [] = _
    rw [getD_modify_self (by rw [List.length_modify, h]; decide), getD_modify_self (by rw [h]; decide), List.append_assoc]
    rfl

theorem State.noteRecord_spec (s : State) (c : Completion) (now : Drip) :
    (s.noteRecord c now).slices = s.slices ∧ (s.noteRecord c now).host = s.host ∧
      (s.noteRecord c now).still.digestsWritten = s.still.digestsWritten + b2n (!c.digest.isEmpty) := ⟨rfl, rfl, rfl⟩

/-- What writing the oldest record of a ring does. -/
theorem State.recordWritten_spec {s : State} (hs : s.Inv) (ring : Fin 64) (c : Completion) (cs : List Completion) :
    let r := s.host.rings.getD ring {}
    let a := (r.base + 128 * r.tail) % 2 ^ 64
    (s.recordWritten ring c cs).slices = s.slices ∧
      ((s.recordWritten ring c cs).host.rings.getD ring {}).held = cs ∧
      ((s.recordWritten ring c cs).host.rings.getD ring {}).tail = (if r.entries ≤ r.tail + 1 then 0 else r.tail + 1) ∧
      ((s.recordWritten ring c cs).host.rings.getD ring {}).phase = (r.phase != decide (r.entries ≤ r.tail + 1)) ∧
      (s.recordWritten ring c cs).still.digestsWritten = s.still.digestsWritten + (if c.digest = [] then 0 else 1) ∧
      (s.recordWritten ring c cs).host.chans.length = 18 ∧
      ∃ pre, (s.recordWritten ring c cs).host.chans.getD 17 [] = pre ++ [.recordWrite (a + 8) ((completionBytes c r.phase).drop 8),
          .recordWrite a ((completionBytes c r.phase).take 8)] := by
  have hp : (s.partialWrite c).slices = s.slices ∧ (s.partialWrite c).host.rings = s.host.rings ∧ (s.partialWrite c).still = s.still ∧
      (s.partialWrite c).host.chans.length = 18 := by
    unfold State.partialWrite
    cases c.part with
    | none => exact ⟨rfl, rfl, rfl, hs.2.2.1⟩
    | some k => exact ⟨rfl, rfl, rfl, (List.length_modify ..).trans hs.2.2.1⟩
  unfold State.recordWritten
  dsimp only
  generalize s.partialWrite c = p at hp
  obtain ⟨h1, h2, h3, h4⟩ := hp
  have hlen : (ring : Nat) < p.host.rings.length := by rw [h2, hs.2.1]; exact ring.isLt
  obtain ⟨pre, hpre⟩ : ∃ pre, p.host.chans.getD 17 [] = pre := ⟨_, rfl⟩
  obtain ⟨q1, q2, q3, q4, q5⟩ := State.queueRecord_spec h4 (((s.host.rings.getD ring {}).base + 128 * (s.host.rings.getD ring {}).tail) % 2 ^ 64)
    (completionBytes c (s.host.rings.getD ring {}).phase)
  generalize p.queueRecord _ _ = u at q1 q2 q3 q4 q5
  obtain ⟨n1, n2, n3⟩ := u.noteRecord_spec c s.now
  generalize u.noteRecord c s.now = v at n1 n2 n3
  have hring : (v.onRing ring ((s.host.rings.getD ring {}).wrote cs)).host.rings.getD ring {} =
      (s.host.rings.getD ring {}).wrote cs (s.host.rings.getD ring {}) := by
    refine (getD_modify_self (by rw [n2, q2]; exact hlen) _ _).trans ?_
    rw [n2, q2, h2]
  rw [hring]
  refine ⟨n1.trans (q1.trans h1), rfl, rfl, rfl, n3.trans ?_, (congrArg (fun h : HostPort => h.chans.length) n2 :).trans q4, pre,
    (congrArg (fun h : HostPort => h.chans.getD 17 []) n2 :).trans (hpre ▸ q5)⟩
  rw [q3, h3]
  cases c.digest <;> rfl

/-- Settles O47, command by command. -/
theorem requestsOfAPass : Obligations.RequestsOfAPass := by
  unfold Obligations.RequestsOfAPass
  intro s sl hs x row
  have hsl := hs.slices_lt sl
  have hrow (f : Image → Nat) : row f = s.job.elim 0 f := by
    cases h : s.job with
    | none => exact congrArg (fun j : Option Image => (match j with | some j => f j | none => 0)) h
    | some j => exact congrArg (fun j : Option Image => (match j with | some j => f j | none => 0)) h
  refine ⟨fun i u v hact => ?_, fun sqz i u v hact => ?_, fun layer d hd hnow hnot => ?_, fun n r hr => ⟨fun h1 h2 => ?_, fun h => ?_⟩,
    fun n r hr he h1 h2 => ?_, fun n c hno hc hl => ?_, fun ring c cs => ?_, fun ring h => ?_, fun ring n => ?_⟩
  · have hx : (v.sl sl).mem = x.mem ∧ (v.sl sl).svc = x.svc :=
      ⟨State.actingRun_agree (π := SliceState.mem) (fun _ _ => rfl) hact sl, State.actingRun_agree (π := SliceState.svc) (fun _ _ => rfl) hact sl⟩
    have hb (r : Request) : v.inBytes r = r.rows * row (·.inRowBytes) := by
      unfold State.inBytes
      rw [(State.actingRun_board hact).1, hrow]
    have hv := (State.Keeps.actingRun hact).2 hs
    obtain ⟨hmem, hreq⟩ := State.foldInput_spec hv sl u.frame (v.sl sl).svc.reqs
    have hk : State.Keeps v ((v.sl sl).svc.reqs.foldl (fun w r => w.startInput sl u.frame r) v) := .foldl (fun _ _ => .startInput ..) _ _
    refine ⟨_, execInputStage_acts hact, ?_, fun r hr hl => ?_⟩
    · rw [State.onSl_sl_self _ _ _ ((hk.2 hv).slices_lt sl), (SliceState.tryInput_spec _).2, hmem, hx.1]
    · rw [State.onSl_sl_self _ _ _ ((hk.2 hv).slices_lt sl), (SliceState.tryInput_spec _).1, ← hb]
      exact hreq r (hx.2 ▸ hr) hl
  · have hx : (v.sl sl).mem = x.mem ∧ (v.sl sl).svc = x.svc :=
      ⟨State.actingRun_agree (π := SliceState.mem) (fun _ _ => rfl) hact sl, State.actingRun_agree (π := SliceState.svc) (fun _ _ => rfl) hact sl⟩
    have hout (r : Request) : s.outBytes sl (v.sl sl) r =
        x.load (row (fun j => j.outAddr.getD sl 0) + r.firstRow * row (·.outRowBytes)) (r.rows * row (·.outRowBytes)) := by
      unfold State.outBytes SliceState.load
      rw [hx.1, hrow, hrow]
    have hwr (r : Request) : (v.sl sl).writes sqz u.frame r = x.writes sqz u.frame r := by
      unfold SliceState.writes
      rw [hx.2]
    refine ⟨s.outputStage sl i (if sqz then .outputSqz else .outputMain) sqz, by cases sqz <;> rfl, fun r hr hw hn => ?_⟩
    have hlen : (s.outBytes sl (v.sl sl) r).length = r.rows * row (·.outRowBytes) := by
      rw [hout]
      exact (List.length_map _).trans List.length_range
    rw [State.outputStage_acts sqz hact, ← hout]
    refine foldl_reaches (I := State.Inv) (P := fun w : State => .outputWrite sl r.slot r.cmd.hostB (s.outBytes sl (v.sl sl) r) ∈ w.host.chans.getD (2 * sl + 1) [])
      (List.mem_filter.2 ⟨hx.2 ▸ hr, (hwr r).trans hw⟩) (fun w q h => ?_) (fun w h => ?_) (fun w q _ h => State.startOutput_chans h)
      ((State.Keeps.actingRun hact).2 hs)
    · exact (State.Keeps.startOutput w sl _ q).2 h
    · exact State.startOutput_writes (fun h => hn (by rw [← hlen, h]; rfl)) (by rw [h.2.2.1]; omega)
  · obtain ⟨h1, h2, h3⟩ := State.boundaryTaken_svc hsl layer
    have hb : (s.boundaryTaken sl layer).Inv := (State.Keeps.boundaryTaken s sl layer).2 hs
    obtain ⟨k1, k2, k3, k4⟩ := State.foldSwitch_spec hb sl (s.layerAfter sl (some layer))
      (((s.boundaryTaken sl layer).sl sl).svc.reqs.filter (s.switching sl layer))
    refine ⟨_, execLayerBoundary_taken hd hnow hnot, ?_, fun k hk => ?_, fun r hr hc he => ?_, fun r hr hc he hcs hsq hlay hgo => ?_⟩
    · split
      · exact k1 ▸ h2
      · exact h2
    · split at hk
      · exact h3 k (k2 ▸ hk)
      · exact h3 k hk
    · have hq := List.mem_map_of_mem (f := fun r : Request => Request.settled s.now (if r.cancel then r.given ⟨s.now, s.now, .cancelled, layer⟩ else r)) hr
      rw [← h1, if_pos hc] at hq
      have hcond : ⟨s.now, s.now, .cancelled, layer⟩ ∈ (Request.settled s.now (r.given ⟨s.now, s.now, .cancelled, layer⟩)).conds := by
        rw [Request.settled_conds]
        exact List.mem_append_right _ List.mem_cons_self
      have hslot : (Request.settled s.now (r.given ⟨s.now, s.now, .cancelled, layer⟩)).slot = r.slot := Request.settled_slot ..
      split
      · obtain ⟨q, hmem, e1, e2, e3⟩ := k3 _ hq
        exact ⟨q, hmem, e1.trans hslot, e2.trans (Request.settled_given ..), e3 ▸ hcond⟩
      · exact ⟨_, hq, hslot, Request.settled_given .., hcond⟩
    · have hq := List.mem_map_of_mem (f := fun r : Request => Request.settled s.now (if r.cancel then r.given ⟨s.now, s.now, .cancelled, layer⟩ else r)) hr
      rw [← h1, hc, if_neg Bool.false_ne_true, Request.settled_none hcs] at hq
      obtain ⟨k, hk, hlt⟩ := hlay
      rw [if_pos (List.any_eq_true.2 ⟨k, hk, decide_eq_true hlt⟩)]
      refine k4 r (List.mem_filter.2 ⟨hq, ?_⟩)
      unfold State.switching
      rw [he, hsq]
      rcases hgo with h | ⟨g1, g2, g3, g4⟩
      · rw [h]
        rfl
      · rw [g1, g2, decide_eq_true g3, decide_eq_true g4]
        exact Bool.or_true _
  · have hgo : s.expired r = true := by
      unfold State.expired
      rw [h1, h2]
      rfl
    have hp := List.find?_some hr
    rw [Bool.and_eq_true, beq_iff_eq, Bool.not_eq_true'] at hp
    have hmem := List.mem_of_find?_eq_some hr
    obtain ⟨k1, k2⟩ := State.endReqs_now hsl n .deadline 0xFF
    obtain ⟨q, hq, hqs, hqc⟩ := State.endReqs_given hsl (p := fun q => q.slot == n) hmem (beq_iff_eq.2 hp.1) s.now s.now .deadline 0xFF
    rw [execRequestDeadline_live hr, if_pos hgo]
    exact ⟨_, rfl, fun q hq hn => (k1 q hq hn).1, ⟨q, hq, hqs.trans hp.1, hqc⟩, k2 r hmem hp.1 hp.2⟩
  · have hno : s.expired r = false := by
      unfold State.expired
      rcases h with h | h <;> rw [h]
      · rfl
      · exact Bool.and_false _
    rw [execRequestDeadline_live hr, if_neg (by rw [hno]; decide)]
  · have hgo : s.expired r = true := by
      unfold State.expired
      rw [h1, h2]
      rfl
    rw [execRequestDeadline_ended hr he, if_pos hgo]
    exact ⟨_, rfl, fun q hq hn => ((State.endReqs_now hsl n .deadline 0xFF).1 q hq hn).2⟩
  · obtain ⟨t, ht, k1, k2⟩ := execRequestDeadline_pending hno hc hl
    have hp := List.find?_some hc
    rw [Bool.and_eq_true, beq_iff_eq] at hp
    refine ⟨t, ht, fun d hd hn => ?_, k2.trans ?_⟩
    · have hd' : d ∈ ((s.endCmd sl c .deadline 0).sl sl).svc.pending := by
        unfold State.sl at hd ⊢
        rwa [k1] at hd
      rw [State.endCmd_pending hsl, List.mem_filter, hp.1, hn] at hd'
      exact bne_iff_ne.1 hd'.2 rfl
    · exact congrArg (· + 1) (congrArg Package.deadlineEnds (State.complete_pkg (s.dropCmd sl c) _) :)
  · intro r a hheld
    have hexec := execCompletionWrite_held hheld
    refine ⟨fun h => ?_, fun ho hw => ?_⟩
    · rw [hexec, if_pos]
      rcases h with h | ⟨k, hk, j, hj, hs⟩
      · rw [h]
        rfl
      · rw [State.outputWaits_of hk hj hs]
        exact Bool.or_true _
    · rw [hexec, if_neg (by rw [ho, State.outputWaits_none hw]; decide)]
      obtain ⟨k1, k2, k3, k4, k5, k6, pre, k7⟩ := State.recordWritten_spec hs ring c cs
      split
      · obtain ⟨m1, m2, ⟨post, m3⟩, m4⟩ := State.signalVector_keeps k6 r.vector
        obtain ⟨m5, m6, m7⟩ := m4 ring
        exact ⟨_, pre, post, rfl, m5.trans k2, m6.trans k3, m7.trans k4, (congrArg Still.digestsWritten m2).trans k5, m3.trans (congrArg (· ++ post) k7),
          m1.trans k1⟩
      · exact ⟨_, pre, [], rfl, k2, k3, k4, k5, k7.trans (List.append_nil _).symm, k1⟩
  · show execCompletionWrite ring s = _
    unfold execCompletionWrite
    dsimp only
    rw [h]
  · obtain ⟨k1, k2⟩ := s.setRingHead_spec ring n
    have hring : (s.setRingHead ring n).host.rings.getD ring {} = { s.host.rings.getD ring {} with head := n % 65536 } := by
      rw [k1]
      exact getD_modify_self (by rw [hs.2.1]; exact ring.isLt) _ _
    refine ⟨s.setRingHead ring n, rfl, congrArg Ring.head hring, by rw [hring], fun k hk => ?_, fun he hn => ?_, fun h => ?_⟩
    · rw [k1]
      simp [List.getD_eq_getElem?_getD, Ne.symm hk]
    · have h : s.setRingHead ring n = (s.onRing ring fun q => { q with head := n % 65536 }).report 0 (mkReport 0x18 14 0) :=
        if_pos (Bool.and_eq_true .. ▸ ⟨he, decide_eq_true hn⟩)
      rw [h]
      exact State.hostReport_err (s := s.onRing ring fun q => { q with head := n % 65536 }) hs.1.1
    · rw [k2 h]
      rfl

end Sys2Proof.Machine
end

section
/-! Commands that end, and the records owed to the rings. -/

namespace Sys2Proof.Machine

/-! ### Completions that are owed -/

theorem mem_holdIn_self (c : Completion) (l : List Completion) : c ∈ holdIn c l := by
  induction l with
  | nil => exact List.mem_cons_self
  | cons d l ih =>
    unfold holdIn
    split
    · exact List.mem_cons_self
    · exact List.mem_cons_of_mem _ ih

theorem length_holdIn (c : Completion) (l : List Completion) : (holdIn c l).length = l.length + 1 := by
  induction l with
  | nil => rfl
  | cons d l ih =>
    unfold holdIn
    split
    · rfl
    · rw [List.length_cons, ih, List.length_cons]

theorem State.ringHeld_le (s : State) (r : Machine.Ring) : s.ringHeld r ≤ r.held.length := by
  unfold State.ringHeld Ring.over
  split
  · exact Nat.sub_le ..
  · exact Nat.le_refl _

theorem State.cause_rings (s : State) (b : Nat) : (s.cause b).host.rings = s.host.rings := by
  unfold State.cause
  dsimp only
  split
  · unfold State.msix
    split
    · rfl
    · split <;> rfl
  · rfl

/-- A completion joins a ring that is owed fewer than 4,096 records (R365). -/
theorem State.complete_rings {s : State} {c : Completion} (hl : (s.host.rings.getD c.ring {}).held.length < 4096) (hr : c.ring < s.host.rings.length) :
    (s.complete c).host.rings = s.host.rings.modify c.ring fun r => { r with held := holdIn c r.held } := by
  unfold State.complete
  dsimp only
  rw [if_neg]
  · split
    · exact State.cause_rings ..
    · rfl
  · refine Nat.not_lt.2 (Nat.le_trans (State.ringHeld_le ..) ?_)
    rw [show (s.onRing c.ring _).host.rings.getD c.ring {} = _ from getD_modify_self hr _ _, length_holdIn]
    exact hl

/-- The completion of a command that ends now. -/
def State.cmdRecord (s : State) (sl : Nat) (c : Cmd) (st : Status) (reason : Nat) (ring : Option Nat) : Completion :=
  { ring := ring.getD (s.ctxRing c.ctx), status := st, ctx := c.ctx, slice := sl, tag := c.tag,
    ledgerIndex := c.ledgerIndex, kind := c.kind, reason := reason, acceptDrip := c.acceptDrip, endDrip := s.now }

theorem State.completeCmd_eq (s : State) (sl : Nat) (c : Cmd) (st : Status) (reason : Nat) (ring : Option Nat) :
    s.completeCmd sl c st reason ring = s.complete (s.cmdRecord sl c st reason ring) := rfl

theorem State.cmdRecord_ring (s : State) (sl : Nat) (c : Cmd) (st : Status) (reason : Nat) (ring : Option Nat) :
    (s.cmdRecord sl c st reason ring).ring = ring.getD (s.ctxRing c.ctx) := rfl

/-- A completion of a command is owed to a ring, at the drip and by the rings of a state. -/
def State.Owed (s : State) (sl : SliceId) (t : State) (ring : Nat) (c : Cmd) (st : Status) (reason : Nat) : Prop :=
  ring < 64 → (s.host.rings.getD ring {}).held.length < 4096 → ∃ k ∈ (t.host.rings.getD ring {}).held, k.status = st ∧ k.reason = reason ∧
    k.tag = c.tag ∧ k.kind = c.kind ∧ k.ctx = c.ctx ∧ k.slice = sl ∧ k.ledgerIndex = c.ledgerIndex ∧ k.endDrip = s.now

theorem State.completeCmd_owed {s u : State} (hs : s.Inv) (hr : u.host.rings = s.host.rings) (hn : u.now = s.now) (sl : SliceId) (c : Cmd) (st : Status)
    (reason : Nat) (ring : Option Nat) : s.Owed sl (u.completeCmd sl c st reason ring) (ring.getD (u.ctxRing c.ctx)) c st reason := by
  intro hring hlen
  refine ⟨u.cmdRecord sl c st reason ring, ?_, rfl, rfl, rfl, rfl, rfl, rfl, rfl, hn⟩
  have hlt : ring.getD (u.ctxRing c.ctx) < u.host.rings.length := by rw [hr, hs.2.1]; exact hring
  rw [State.completeCmd_eq, State.complete_rings (by rw [hr]; exact hlen) hlt, State.cmdRecord_ring, getD_modify_self hlt]
  exact mem_holdIn_self _ _

/-- What a ring is beside the records it is owed. -/
def Ring.settings (r : Machine.Ring) : Machine.Ring := { r with held := [] }

/-- A slice but for its error records and the commands that wait there. -/
def SliceState.idleQueue (x : SliceState) : SliceState := { x with err := {}, svc := { x.svc with pending := [] } }

/-- `t` is `s` but for commands that ended: their queues, the records owed to the rings and what reports them. -/
structure State.Owes (s t : State) : Prop where
  agree : State.Agree SliceState.idleQueue s t
  now : t.now = s.now
  job : t.job = s.job
  ctxs : t.ctxs = s.ctxs
  settings : ∀ r, (t.host.rings.getD r {}).settings = (s.host.rings.getD r {}).settings
  held : ∀ r, ∀ k ∈ (s.host.rings.getD r {}).held, k ∈ (t.host.rings.getD r {}).held
  queue : ∀ i, ∀ d ∈ (t.sl i).svc.pending, d ∈ (s.sl i).svc.pending

namespace State.Owes
variable {s t u : State}

theorem refl (s : State) : State.Owes s s := ⟨.refl s, rfl, rfl, rfl, fun _ => rfl, fun _ _ h => h, fun _ _ h => h⟩

theorem trans (a : State.Owes s t) (b : State.Owes t u) : State.Owes s u :=
  ⟨a.agree.trans b.agree, b.now.trans a.now, b.job.trans a.job, b.ctxs.trans a.ctxs, fun r => (b.settings r).trans (a.settings r),
    fun r k h => b.held r k (a.held r k h), fun i d h => a.queue i d (b.queue i d h)⟩

theorem comp (b : State.Owes t u) (a : State.Owes s t) : State.Owes s u := a.trans b

theorem ite {p : Prop} [Decidable p] (a : State.Owes s t) (b : State.Owes s u) : State.Owes s (if p then t else u) := by
  split <;> assumption

theorem foldl {α : Type} {f : State → α → State} (h : ∀ s a, State.Owes s (f s a)) (l : List α) (s : State) : State.Owes s (l.foldl f s) := by
  induction l generalizing s with
  | nil => exact refl _
  | cons a l ih => exact (h s a).trans (ih _)

theorem eachSlice {f : State → Nat → State} (h : ∀ s i, State.Owes s (f s i)) (s : State) : State.Owes s (s.eachSlice f) := foldl h _ s

theorem complete (c : Completion) : State.Owes s (s.complete c) := by
  have hc : State.Completes s (s.complete c) := .complete c
  have hpend (i : Nat) : ((s.complete c).sl i).svc.pending = (s.sl i).svc.pending := hc.slice (π := fun x => x.svc.pending) (fun _ _ => rfl) i
  have hrings (k : Nat) : ((s.complete c).host.rings.getD k {}).settings = (s.host.rings.getD k {}).settings := by
    have hmod : ((s.host.rings.modify c.ring fun r => { r with held := holdIn c r.held }).getD k {}).settings = (s.host.rings.getD k {}).settings := by
      simp only [List.getD_eq_getElem?_getD, List.getElem?_modify]
      cases s.host.rings[k]? with
      | none => rfl
      | some q =>
        simp only [Option.getD_some]
        split <;> rfl
    unfold State.complete
    dsimp only
    split
    · rfl
    · split
      · rw [State.cause_rings]
        exact hmod
      · exact hmod
  exact ⟨hc.slice (π := SliceState.idleQueue) fun _ _ => rfl, congrArg Time.drip (State.complete_time s c), State.complete_job s c, State.complete_ctxs s c, hrings,
    (State.PortKeeps.complete (s := s) c).held, fun i d h => hpend i ▸ h⟩

theorem completeCmd (sl : Nat) (c : Cmd) (st : Status) (reason : Nat) (ring : Option Nat) : State.Owes s (s.completeCmd sl c st reason ring) :=
  complete _

theorem dropCmd (sl : Nat) (c : Cmd) : State.Owes s (s.dropCmd sl c) := by
  refine ⟨.onSl fun _ => rfl, rfl, rfl, rfl, fun _ => rfl, fun _ _ h => h, fun i d h => ?_⟩
  unfold State.dropCmd State.onSvc at h
  obtain hi | hi := Nat.lt_or_ge sl s.slices.length
  · rw [State.onSl_sl _ _ _ _ hi] at h
    split at h
    · next hsl =>
      subst hsl
      exact (List.mem_filter.1 h).1
    · exact h
  · rwa [State.onSl_sl_of_le _ _ hi] at h

theorem endCmd (sl : Nat) (c : Cmd) (st : Status) (reason : Nat) : State.Owes s (s.endCmd sl c st reason) := .comp (completeCmd ..) (dropCmd ..)

theorem cancelPending (p : Nat → Cmd → Bool) : State.Owes s (s.cancelPending p) := .eachSlice (fun _ _ => .foldl (fun _ _ => endCmd ..) _ _) _

/-- What the slices tell beside their error records and the commands that wait. -/
theorem slice {β : Type} {π : SliceState → β} (h : State.Owes s t) (hπ : ∀ x, π x.idleQueue = π x) : State.Agree π s t := fun i =>
  (hπ _).symm.trans ((congrArg π (h.agree i)).trans (hπ _))

end State.Owes

/-- A completion that is owed stays so while more commands end. -/
theorem State.Owed.later {s t u : State} {sl : SliceId} {ring : Nat} {c : Cmd} {st : Status} {reason : Nat} (h : s.Owed sl t ring c st reason)
    (hk : ∀ k ∈ (t.host.rings.getD ring {}).held, k ∈ (u.host.rings.getD ring {}).held) : s.Owed sl u ring c st reason := fun hr hl => by
  obtain ⟨k, hmem, hp⟩ := h hr hl
  exact ⟨k, hk k hmem, hp⟩

/-- A command that ends leaves the queue of its slice, and its completion is owed. -/
theorem State.endCmd_ends {s : State} (hs : s.Inv) (sl : SliceId) (c : Cmd) (st : Status) (reason : Nat) :
    (∀ d ∈ ((s.endCmd sl c st reason).sl sl).svc.pending, d.slot ≠ c.slot) ∧ s.Owed sl (s.endCmd sl c st reason) (s.ctxRing c.ctx) c st reason := by
  refine ⟨fun d hd => ?_, ?_⟩
  · rw [State.endCmd_pending (hs.slices_lt sl)] at hd
    exact bne_iff_ne.1 (List.mem_filter.1 hd).2
  · exact State.completeCmd_owed (u := s.dropCmd sl c) hs rfl rfl sl c st reason none

/-- The commands that are to be cancelled have left their queues. -/
theorem State.cancelPending_gone {s : State} (hs : s.Inv) (p : Nat → Cmd → Bool) (j : SliceId) :
    ∀ d ∈ ((s.cancelPending p).sl j).svc.pending, d.kind = 1 → p j d = false := by
  have hkeep (v : State) (i : Nat) (hv : v.Inv) :
      (((v.sl i).svc.pending.filter fun c => c.kind == 1 && p i c).foldl (fun u c => u.endCmd i c .cancelled 0) v).Inv :=
    (State.Keeps.foldl (fun _ _ => .endCmd ..) _ v).2 hv
  unfold State.cancelPending State.eachSlice
  refine foldl_reaches (P := fun v : State => ∀ d ∈ (v.sl j).svc.pending, d.kind = 1 → p j d = false) (List.mem_range.2 j.isLt) hkeep (fun v hv d hd hk => ?_)
    (fun v i _ h d hd hk => ?_) hs
  · by_contra hp
    have hv8 := hv.slices_lt j
    have hin := (State.Owes.foldl (fun u c => State.Owes.endCmd (s := u) j c .cancelled 0) _ v).queue j d hd
    have hmem : d ∈ (v.sl j).svc.pending.filter fun c => c.kind == 1 && p j c := List.mem_filter.2 ⟨hin, by rw [hk, Bool.eq_true_of_not_eq_false hp]; rfl⟩
    have hout := foldl_reaches (f := fun u c => State.endCmd u j c .cancelled 0) (I := State.Inv) (P := fun v : State => ∀ e ∈ (v.sl j).svc.pending, e.slot ≠ d.slot) hmem
      (fun u c hu => (State.Keeps.endCmd ..).2 hu) (fun u hu => (State.endCmd_ends hu j d .cancelled 0).1)
      (fun u c _ h e he => h e ((State.Owes.endCmd (s := u) j c .cancelled 0).queue j e he)) hv
    exact hout d hd rfl
  · exact h d ((State.Owes.foldl (fun u c => State.Owes.endCmd (s := u) i c .cancelled 0) _ v).queue j d hd) hk

end Sys2Proof.Machine
end

section
/-! The ledger scan. -/

namespace Sys2Proof.Machine

/-! ### The ledger scan -/

/-- The record at LEDGER_HEAD of a slice. -/
def State.ledgerRecord (s : State) (sl : Nat) : Bytes := (s.sl sl).load ((s.sl sl).svc.ledgerBase + 64 * (s.sl sl).svc.ledgerHead) 64

/-- The words of the record at LEDGER_HEAD. -/
def State.ledgerWords (s : State) (sl : Nat) : List Nat := (List.range 8).map fun i => leNat (slice (s.ledgerRecord sl) (8 * i) 8)

/-- The command that the record at LEDGER_HEAD makes. -/
def State.ledgerCmd (s : State) (sl : Nat) : Cmd :=
  { slot := (s.sl sl).svc.freeSlot.getD 0, kind := bits ((s.ledgerWords sl).getD 0 0) 7 0, ctx := bits ((s.ledgerWords sl).getD 0 0) 15 8
    tag := bits ((s.ledgerWords sl).getD 0 0) 63 32, words := s.ledgerWords sl, ledgerIndex := (s.sl sl).svc.ledgerHead, acceptDrip := s.now
    seq := (s.sl sl).svc.accepted }

/-- The ring to which the command at LEDGER_HEAD owes its completion. -/
def State.ledgerRing (s : State) (sl : Nat) : Nat :=
  if bits ((s.ledgerCmd sl).word 7) 47 16 ≠ crc32c ((s.ledgerRecord sl).take 56) then s.ctxRing (s.ledgerCmd sl).ctx else s.cmdRing (s.ledgerCmd sl)

/-- The scan stops at the record at LEDGER_HEAD. -/
def State.scanStops (s : State) (sl : Nat) : Bool :=
  ((s.ledgerWords sl).getD 7 0).testBit 0 != (s.sl sl).svc.ledgerPhase || decide (4096 ≤ (s.sl sl).svc.pending.length) || (s.sl sl).svc.freeSlot.isNone ||
    decide (4096 ≤ s.ringHeld (s.host.rings.getD (s.ledgerRing sl) {}))

/-- The sequencer goes past the record at LEDGER_HEAD. -/
def State.scanned (s : State) (sl : Nat) : State :=
  s.onSvc sl fun v => { v with
    ledgerHead := if (s.sl sl).svc.ledgerEntries ≤ (s.sl sl).svc.ledgerHead + 1 then 0 else v.ledgerHead + 1
    ledgerPhase := v.ledgerPhase != decide ((s.sl sl).svc.ledgerEntries ≤ (s.sl sl).svc.ledgerHead + 1)
    accepted := v.accepted + 1 }

/-- The flag that the command at LEDGER_HEAD waits for, if it waits. -/
def State.ledgerWait (s : State) (sl : Nat) : Option Nat :=
  if ((s.ledgerCmd sl).kind = 1 || (s.ledgerCmd sl).kind = 5) && ((s.ledgerWords sl).getD 0 0).testBit 19 then some (bits ((s.ledgerWords sl).getD 0 0) 31 20)
  else none

/-- A state whose slice has one more command that waits. -/
def State.queueCmd (s : State) (sl : Nat) (d : Cmd) : State := s.onSvc sl fun v => { v with pending := v.pending ++ [d] }

/-- What becomes of the record at LEDGER_HEAD: REASON where it ends at once, and else nothing. -/
def State.ledgerTaken (s : State) (sl : Nat) : Option Nat → State
  | some r => (s.scanned sl).completeCmd sl (s.ledgerCmd sl) .fault r (some (s.ledgerRing sl))
  | none => (s.scanned sl).queueCmd sl { s.ledgerCmd sl with waitFlag := s.ledgerWait sl }

theorem State.scanFrom_succ (sl n : Nat) (s : State) : State.scanFrom sl (n + 1) s =
    if s.scanStops sl then s
    else State.scanFrom sl n (s.ledgerTaken sl (recordFault (s.ledgerRecord sl) (s.ledgerCmd sl) s.tokenRows)) := by
  have hring : s.ledgerRing sl = if bits ((s.ledgerCmd sl).word 7) 47 16 != crc32c ((s.ledgerRecord sl).take 56) then s.ctxRing (s.ledgerCmd sl).ctx
      else s.cmdRing (s.ledgerCmd sl) := if_congr bne_iff_ne.symm rfl rfl
  unfold State.scanStops
  rw [hring, State.scanFrom]
  unfold State.ledgerTaken State.scanned State.ledgerWait State.queueCmd
  rw [hring]
  unfold State.ledgerCmd State.ledgerWords State.ledgerRecord
  dsimp only
  generalize recordFault _ _ _ = o
  cases o with
  | none => rfl
  | some r => rfl

theorem State.scanned_svc {s : State} {sl : Nat} (hi : sl < s.slices.length) :
    ((s.scanned sl).sl sl).svc.accepted = (s.sl sl).svc.accepted + 1 ∧ ((s.scanned sl).sl sl).svc.pending = (s.sl sl).svc.pending := by
  unfold State.scanned State.onSvc
  rw [State.onSl_sl_self _ _ _ hi]
  exact ⟨rfl, rfl⟩

/-- What a scan leaves: what the rings are owed and the commands that wait at the slice stay. -/
structure State.Scans (sl : Nat) (s t : State) : Prop where
  accepted : (s.sl sl).svc.accepted ≤ (t.sl sl).svc.accepted
  queue : ∀ d ∈ (s.sl sl).svc.pending, d ∈ (t.sl sl).svc.pending
  held : ∀ r, ∀ k ∈ (s.host.rings.getD r {}).held, k ∈ (t.host.rings.getD r {}).held

theorem State.ledgerTaken_spec {s : State} {sl : Nat} (hi : sl < s.slices.length) (o : Option Nat) :
    State.Scans sl s (s.ledgerTaken sl o) ∧ (s.sl sl).svc.accepted < ((s.ledgerTaken sl o).sl sl).svc.accepted := by
  obtain ⟨h1, h2⟩ := State.scanned_svc hi
  cases o with
  | some r =>
    have h : State.Completes (s.scanned sl) (s.ledgerTaken sl (some r)) := .completeCmd ..
    have hacc : ((s.ledgerTaken sl (some r)).sl sl).svc.accepted = _ := (h.slice (π := fun x => x.svc.accepted) (fun _ _ => rfl) sl).trans h1
    have hpen : ((s.ledgerTaken sl (some r)).sl sl).svc.pending = _ := (h.slice (π := fun x => x.svc.pending) (fun _ _ => rfl) sl).trans h2
    exact ⟨⟨by omega, fun d hd => hpen ▸ hd, fun k => (State.PortKeeps.completeCmd (s := s.scanned sl) ..).held k⟩, by omega⟩
  | none =>
    have h : ((s.ledgerTaken sl none).sl sl) = { (s.scanned sl).sl sl with svc := { ((s.scanned sl).sl sl).svc with
        pending := ((s.scanned sl).sl sl).svc.pending ++ [{ s.ledgerCmd sl with waitFlag := s.ledgerWait sl }] } } :=
      State.onSl_sl_self (s.scanned sl) sl _ (by rw [State.scanned, State.onSvc, State.onSl_length]; exact hi)
    refine ⟨⟨?_, fun d hd => ?_, fun _ _ h => h⟩, ?_⟩
    · rw [h]
      show _ ≤ ((s.scanned sl).sl sl).svc.accepted
      omega
    · rw [h]
      exact List.mem_append_left _ (h2 ▸ hd)
    · rw [h]
      show _ < ((s.scanned sl).sl sl).svc.accepted
      omega

theorem State.Keeps.ledgerTaken (s : State) (sl : Nat) (o : Option Nat) : s.Keeps (s.ledgerTaken sl o) := by
  cases o with
  | some r => exact .comp (.completeCmd ..) (.onSl _ _ fun _ h => .update h rfl rfl rfl)
  | none => exact .comp (.onSl _ _ fun _ h => .update h rfl rfl rfl) (.onSl _ _ fun _ h => .update h rfl rfl rfl)

theorem State.scanFrom_scans (sl : SliceId) (n : Nat) {s : State} (hs : s.Inv) : State.Scans sl s (State.scanFrom sl n s) := by
  induction n generalizing s with
  | zero => exact ⟨Nat.le_refl _, fun _ h => h, fun _ _ h => h⟩
  | succ n ih =>
    rw [State.scanFrom_succ]
    split
    · exact ⟨Nat.le_refl _, fun _ h => h, fun _ _ h => h⟩
    · obtain ⟨h1, -⟩ := State.ledgerTaken_spec (hs.slices_lt sl) (recordFault (s.ledgerRecord sl) (s.ledgerCmd sl) s.tokenRows)
      have h2 := ih ((State.Keeps.ledgerTaken s sl (recordFault (s.ledgerRecord sl) (s.ledgerCmd sl) s.tokenRows)).2 hs)
      exact ⟨h1.accepted.trans h2.accepted, fun d h => h2.queue d (h1.queue d h), fun r k h => h2.held r k (h1.held r k h)⟩

/-- A scan that takes the record at LEDGER_HEAD. -/
theorem State.scanFrom_takes {s : State} (hs : s.Inv) (sl : SliceId) {n : Nat} (hn : 1 ≤ n) (hgo : s.scanStops sl = false) :
    State.Scans sl (s.ledgerTaken sl (recordFault (s.ledgerRecord sl) (s.ledgerCmd sl) s.tokenRows)) (State.scanFrom sl n s) ∧
      (s.sl sl).svc.accepted < ((State.scanFrom sl n s).sl sl).svc.accepted := by
  obtain ⟨n, rfl⟩ := Nat.exists_eq_add_of_le' hn
  rw [State.scanFrom_succ, if_neg (by rw [hgo]; decide)]
  have h := State.scanFrom_scans sl n ((State.Keeps.ledgerTaken s sl (recordFault (s.ledgerRecord sl) (s.ledgerCmd sl) s.tokenRows)).2 hs)
  exact ⟨h, (State.ledgerTaken_spec (hs.slices_lt sl) _).2.trans_le h.accepted⟩

theorem State.scanFrom_stops {s : State} {sl : Nat} (h : s.scanStops sl = true) (n : Nat) : State.scanFrom sl n s = s := by
  cases n with
  | zero => rfl
  | succ n => rw [State.scanFrom_succ, if_pos h]

/-! ### Commands that wait for a flag -/

/-- One command in the turn of the scan: the queue so far, the contexts that still wait, and the flags to be cleared. -/
def SliceState.waitStep (x : SliceState) (acc : List Cmd × List Nat × List Nat) (c : Cmd) : List Cmd × List Nat × List Nat :=
  match c.waitFlag with
  | none => (acc.1 ++ [c], acc.2)
  | some f =>
    if x.flags.contains f && x.flagsAt.contains f && !acc.2.1.contains c.ctx then (acc.1 ++ [{ c with waitFlag := none }], acc.2.1, acc.2.2 ++ [f])
    else (acc.1 ++ [c], acc.2.1 ++ [c.ctx], acc.2.2)

/-- A command without the flag it waits for. -/
def Cmd.unwaited (c : Cmd) : Cmd := { c with waitFlag := none }

theorem SliceState.waitStep_queue (x : SliceState) (acc : List Cmd × List Nat × List Nat) (c : Cmd) :
    ∃ d, d.unwaited = c.unwaited ∧ (x.waitStep acc c).1 = acc.1 ++ [d] := by
  unfold SliceState.waitStep
  split
  · exact ⟨c, rfl, rfl⟩
  · split
    · exact ⟨c.unwaited, rfl, rfl⟩
    · exact ⟨c, rfl, rfl⟩

theorem SliceState.releaseWaits_svc (x : SliceState) : x.releaseWaits.svc = { x.svc with pending := (x.svc.pending.foldl x.waitStep ([], [], [])).1 } :=
  foldl_agree (π := SliceState.svc) (f := SliceState.clearFlag) (fun _ _ => rfl) _ _

/-- Every command that waited is still in the queue, perhaps without its flag. -/
theorem SliceState.releaseWaits_spec (x : SliceState) : x.releaseWaits.svc.accepted = x.svc.accepted ∧
    ∀ c ∈ x.svc.pending, ∃ d ∈ x.releaseWaits.svc.pending, d.unwaited = c.unwaited := by
  rw [SliceState.releaseWaits_svc]
  refine ⟨rfl, fun c hc => ?_⟩
  refine foldl_reaches (I := fun _ => True) (P := fun acc : List Cmd × List Nat × List Nat => ∃ d ∈ acc.1, d.unwaited = c.unwaited) hc (fun _ _ _ => trivial)
    (fun acc _ => ?_) (fun acc e _ h => ?_) trivial
  · obtain ⟨d, hd, he⟩ := x.waitStep_queue acc c
    exact ⟨d, he ▸ List.mem_append_right _ List.mem_cons_self, hd⟩
  · obtain ⟨d, hd, he⟩ := h
    obtain ⟨f, -, hf⟩ := x.waitStep_queue acc e
    exact ⟨d, hf ▸ List.mem_append_left _ hd, he⟩

theorem execLedgerScan_here {s : State} {sl : SliceId} (h : s.now.toNat % max 1 (s.sl sl).svc.scanDrips = 0) :
    exec (.ledgerScan sl) s = .next ((if (s.sl sl).svc.ledgerEnable then State.scanFrom sl (s.sl sl).svc.scanMax s else s).onSl sl SliceState.releaseWaits) :=
  if_neg (by rw [h]; decide)

end Sys2Proof.Machine
end

section
/-! Contexts: opening, stopping and tear-down. -/

namespace Sys2Proof.Machine

/-! ### Records of contexts -/

theorem State.ctx?_ctx {s : State} {c : Nat} {x : Ctx} (h : s.ctx? c = some x) : x.ctx = c := 
  beq_iff_eq.1 (List.find?_some (p := fun y : Ctx => y.ctx == c) h)

/-- The record of a context after a change to it. -/
theorem State.onCtx_ctx? (s : State) (c : Nat) {f : Ctx → Ctx} (hf : ∀ x, (f x).ctx = x.ctx) : (s.onCtx c f).ctx? c = (s.ctx? c).map f := by
  show List.find? (fun x : Ctx => x.ctx == c) (s.ctxs.map fun x => if x.ctx == c then f x else x) = (s.ctxs.find? fun x => x.ctx == c).map f
  induction s.ctxs with
  | nil => rfl
  | cons x l ih =>
    by_cases h : (x.ctx == c) = true
    · have hx : ((f x).ctx == c) = true := by rw [hf]; exact h
      rw [List.map_cons, if_pos h, List.find?_cons_of_pos (p := fun x : Ctx => x.ctx == c) hx, List.find?_cons_of_pos (p := fun x : Ctx => x.ctx == c) h]
      rfl
    · rw [List.map_cons, if_neg h, List.find?_cons_of_neg (p := fun x : Ctx => x.ctx == c) h, List.find?_cons_of_neg (p := fun x : Ctx => x.ctx == c) h, ih]

theorem State.ctxState_of {s : State} {c : Nat} {x : Ctx} (hc : c < 255) (h : s.ctx? c = some x) : s.ctxState c = x.st := by
  unfold State.ctxState
  rw [if_neg (by omega), h]

theorem State.ctxState_none {s : State} {c : Nat} (hc : c < 255) (h : s.ctx? c = none) : s.ctxState c = 0 := by
  unfold State.ctxState
  rw [if_neg (by omega), h]

theorem State.Owes.ctx? {s t : State} (h : State.Owes s t) (c : Nat) : t.ctx? c = s.ctx? c := by
  unfold State.ctx?
  rw [h.ctxs]

theorem State.Owes.ctxState {s t : State} (h : State.Owes s t) (c : Nat) : t.ctxState c = s.ctxState c := by
  unfold State.ctxState State.ctx?
  rw [h.job, h.ctxs]

/-! ### Opening a context -/

/-- The record of a context that a command opens. -/
def Cmd.opened (c : Cmd) (sl : Nat) : Ctx := { ctx := c.ctx, st := 1, ring := c.ring, owner := c.owner, area := c.hostA, opens := [(sl, c)] }

/-- CTX_OPEN binds a context that is OFF. -/
theorem State.openCtx_binds {s : State} {sl : Nat} {c : Cmd} (h0 : s.ctxState c.ctx = 0) (hr : (s.host.rings.getD c.ring {}).enable = true)
    (ho : ((s.sl sl).pools.owner c.owner).kind = 1) :
    (s.openCtx sl c).ctx? c.ctx = some (c.opened sl) ∧ (s.openCtx sl c).host = s.host := by
  have h : s.openCtx sl c = { s.onAll (fun y => { y with svc := { y.svc with endCodes := y.svc.endCodes.filter fun e => e.1 != c.ctx } }) with
      ctxs := (s.ctxs.filter fun y => y.ctx != c.ctx) ++ [c.opened sl] } := by
    unfold State.openCtx
    rw [h0]
    dsimp only
    rw [hr, ho]
    rfl
  rw [h]
  refine ⟨?_, rfl⟩
  have hnone : (s.ctxs.filter fun y => y.ctx != c.ctx).find? (fun x => x.ctx == c.ctx) = none :=
    List.find?_eq_none.2 fun x hx he => bne_iff_ne.1 (List.mem_filter.1 hx).2 (beq_iff_eq.1 he)
  show List.find? (fun x : Ctx => x.ctx == c.ctx) ((s.ctxs.filter fun y => y.ctx != c.ctx) ++ [c.opened sl]) = _
  rw [List.find?_append, hnone, Option.none_or]
  exact List.find?_cons_of_pos (beq_iff_eq.2 rfl)

theorem State.openCtx_noRing {s : State} {sl : Nat} {c : Cmd} (h0 : s.ctxState c.ctx = 0) (hr : (s.host.rings.getD c.ring {}).enable = false) :
    s.openCtx sl c = s.completeCmd sl c .fault 2 (some 0) := by
  unfold State.openCtx
  rw [h0]
  dsimp only
  rw [hr]
  rfl

theorem State.openCtx_noOwner {s : State} {sl : Nat} {c : Cmd} (h0 : s.ctxState c.ctx = 0) (hr : (s.host.rings.getD c.ring {}).enable = true)
    (ho : ((s.sl sl).pools.owner c.owner).kind ≠ 1) : s.openCtx sl c = s.completeCmd sl c .fault 2 (some c.ring) := by
  unfold State.openCtx
  rw [h0]
  dsimp only
  rw [hr, if_neg (by decide), if_pos (bne_iff_ne.2 ho)]
  rfl

theorem State.openCtx_open {s : State} {sl : Nat} {c : Cmd} (h : s.ctxState c.ctx = 1 ∨ s.ctxState c.ctx = 2) :
    s.openCtx sl c = s.completeCmd sl c .ok 0 (some c.ring) := by
  unfold State.openCtx
  rcases h with h | h <;> rw [h] <;> rfl

theorem State.openCtx_stopping {s : State} {sl : Nat} {c : Cmd} (h : s.ctxState c.ctx = 3) :
    s.openCtx sl c = s.onCtx c.ctx fun x => { x with deferred := x.deferred ++ [(sl, c)] } := by
  unfold State.openCtx
  rw [h]
  rfl

/-! ### Stopping a context -/

/-- What a context leaves of itself as it enters STOPPING. -/
def Ctx.stopping (x : Ctx) : Ctx := { x with st := 3, opens := [] }

/-- A context enters STOPPING once its opens have ended. -/
theorem State.stopCtx_eq (s : State) (c : Nat) : ∃ u, State.Owes s u ∧ s.Keeps u ∧ s.stopCtx c = u.onCtx c Ctx.stopping :=
  ⟨_, .foldl (fun _ _ => .completeCmd ..) _ _, .foldl (fun _ _ => .completeCmd ..) _ _, rfl⟩

theorem State.stopCtx_ctx? (s : State) (c : Nat) : (s.stopCtx c).ctx? c = (s.ctx? c).map Ctx.stopping := by
  obtain ⟨u, hu, -, h⟩ := s.stopCtx_eq c
  rw [h, State.onCtx_ctx? (f := Ctx.stopping) _ _ fun _ => rfl, hu.ctx?]

/-! ### The threads of a context -/

theorem SliceState.stopThread_ctx (x : SliceState) (e t k n : Nat) :
    (((x.stopThread e t).engine k).thread n).ctx = ((x.engine k).thread n).ctx ∧
      (((x.engine k).thread n).st = .idle → (((x.stopThread e t).engine k).thread n).st = .idle) := by
  have hl (g : Engine) : (g.leave t).threads = g.threads := by unfold Engine.leave; split <;> rfl
  by_cases hk : k = e
  · subst hk
    refine ⟨?_, (x.stopThread_thread k t n).2⟩
    unfold SliceState.stopThread SliceState.endThread
    dsimp only
    obtain he | he := Nat.lt_or_ge k x.engines.length
    · show ((SliceState.onEngine x k _).engine k |>.thread n).ctx = _
      rw [SliceState.onEngine_engine _ _ he]
      simp only [Engine.thread, hl, Engine.onThread, List.getD_eq_getElem?_getD, List.getElem?_modify]
      cases (x.engine k).threads[n]? with
      | none => rfl
      | some h =>
        simp only [Option.getD_some]
        split <;> rfl
    · show ((SliceState.onEngine x k _).engine k |>.thread n).ctx = _
      rw [show SliceState.onEngine x k _ = x from by simp [SliceState.onEngine, List.modify_eq_self he]]
  · have h : (x.stopThread e t).engine k = x.engine k := SliceState.onEngine_engine_of_ne x _ hk
    rw [h]
    exact ⟨rfl, id⟩

theorem SliceState.noComplete_engine (x : SliceState) (u : Option Run) (k : Nat) : (x.noComplete u).engine k = x.engine k := by
  cases u <;> rfl

/-- One thread in the turn of a context's end. -/
def SliceState.stopIf (c e : Nat) (z : SliceState) (t : Nat) : SliceState :=
  if ((z.engine e).thread t).ctx == c && ((z.engine e).thread t).st != .idle then (z.stopThread e t).noComplete (z.threadRun e t) else z

theorem SliceState.stopCtxThreads_eq (x : SliceState) (c : Nat) :
    x.stopCtxThreads c = (List.range 4).foldl (fun (y : SliceState) e => (List.range 64).foldl (SliceState.stopIf c e) y) x := rfl

theorem SliceState.stopIf_thread (c e : Nat) (z : SliceState) (t k n : Nat) :
    (((SliceState.stopIf c e z t).engine k).thread n).ctx = ((z.engine k).thread n).ctx ∧
      (((z.engine k).thread n).st = .idle → (((SliceState.stopIf c e z t).engine k).thread n).st = .idle) := by
  unfold SliceState.stopIf
  split
  · rw [SliceState.noComplete_engine]
    exact z.stopThread_ctx e t k n
  · exact ⟨rfl, id⟩

theorem SliceState.ok.stopIf {z : SliceState} (h : z.ok) (c e t : Nat) : (SliceState.stopIf c e z t).ok := .ite (.noComplete (.stopThread h ..) ..) h

theorem SliceState.stopIf_self {z : SliceState} (hz : z.ok) (c : Nat) (e : EngineId) (t : ThreadId) (h : ((z.engine e).thread t).ctx = c) :
    (((SliceState.stopIf c e z t).engine e).thread t).st = .idle := by
  unfold SliceState.stopIf
  split
  · rw [SliceState.noComplete_engine]
    exact SliceState.stopThread_thread_self hz e t
  · next hno =>
    rw [h, beq_self_eq_true, Bool.true_and, Bool.not_eq_true, bne_eq_false_iff_eq] at hno
    exact hno

/-- The threads of a context are idle once it has ended, and no thread changes its context. -/
theorem SliceState.stopCtxThreads_thread {x : SliceState} (hx : x.ok) (c : Nat) (e : EngineId) (t : ThreadId) :
    (((x.stopCtxThreads c).engine e).thread t).ctx = ((x.engine e).thread t).ctx ∧
      (((x.engine e).thread t).ctx = c ∨ ((x.engine e).thread t).st = .idle → (((x.stopCtxThreads c).engine e).thread t).st = .idle) := by
  have hctx (k : Nat) (y : SliceState) (l : List Nat) : (((l.foldl (SliceState.stopIf c k) y).engine e).thread t).ctx = ((y.engine e).thread t).ctx :=
    foldl_agree (π := fun y : SliceState => ((y.engine e).thread t).ctx) (fun y n => (SliceState.stopIf_thread c k y n e t).1) l y
  have hidle (k : Nat) (y : SliceState) (l : List Nat) (h : ((y.engine e).thread t).st = .idle) :
      (((l.foldl (SliceState.stopIf c k) y).engine e).thread t).st = .idle :=
    foldl_keeps (P := fun y : SliceState => ((y.engine e).thread t).st = .idle) (fun y n => (SliceState.stopIf_thread c k y n e t).2) l h
  rw [SliceState.stopCtxThreads_eq]
  refine ⟨foldl_agree (π := fun y : SliceState => ((y.engine e).thread t).ctx) (f := fun y k => (List.range 64).foldl (SliceState.stopIf c k) y)
    (fun y k => hctx k y _) _ x, fun h => ?_⟩
  rcases h with h | h
  · refine foldl_reaches (f := fun y k => (List.range 64).foldl (SliceState.stopIf c k) y) (I := fun y : SliceState => y.ok ∧ ((y.engine e).thread t).ctx = c)
      (P := fun y : SliceState => ((y.engine e).thread t).st = .idle) (List.mem_range.2 e.isLt)
      (fun y k hy => ⟨.foldl (fun _ _ h => h.stopIf ..) _ hy.1, (hctx k y _).trans hy.2⟩) (fun y hy => ?_) (fun y k _ => hidle k y _) ⟨hx, h⟩
    exact foldl_reaches (f := SliceState.stopIf c e) (I := fun y : SliceState => y.ok ∧ ((y.engine e).thread t).ctx = c)
      (P := fun y : SliceState => ((y.engine e).thread t).st = .idle) (List.mem_range.2 t.isLt)
      (fun y n hy => ⟨hy.1.stopIf .., (SliceState.stopIf_thread c e y n e t).1.trans hy.2⟩) (fun y hy => SliceState.stopIf_self hy.1 c e t hy.2)
      (fun y n _ => (SliceState.stopIf_thread c e y n e t).2) hy
  · exact foldl_keeps (P := fun y : SliceState => ((y.engine e).thread t).st = .idle) (fun y k => hidle k y _) _ h

/-! ### The tear-down of a context -/

/-- A slice whose part in a context is torn down. -/
def SliceState.torn (c code : Nat) (x : SliceState) : SliceState :=
  let y := x.stopCtxThreads c
  { y with
    svc := { y.svc with endCodes := (y.svc.endCodes.filter fun e => e.1 != c) ++ [(c, code)] }
    pools := y.pools.tearDown c
    coll := ((y.coll.steps.filter fun k => k.desc.ctx == c && !k.completed).foldl (fun z k => z.raise k code) y).coll }

/-- One slice in the tear-down of a context. -/
def State.tearStep (c code : Nat) (v : State) (i : Nat) : State := (v.endReqs i (Request.isCtx c) v.now v.now .cancelled).onSl i (SliceState.torn c code)

/-- The device before the slices' part in a context is torn down: its commands have ended. -/
def State.tearing (s : State) (c : Nat) : State := (if s.ctxState c = 3 then s else s.stopCtx c).cancelPending fun _ d => d.ctx == c

theorem State.tearCtx_eq {s : State} {c : Nat} (h : s.ctxState c ≠ 0) :
    s.tearCtx c = (s.tearing c).eachSlice (State.tearStep c ((s.tearing c).ctxCode c)) := if_neg h

theorem SliceState.torn_svc (c code : Nat) (x : SliceState) : (x.torn c code).svc.reqs = x.svc.reqs ∧ (x.torn c code).svc.pending = x.svc.pending := by
  have hno (z : SliceState) (u : Option Run) : (z.noComplete u).svc = z.svc := by cases u <;> rfl
  have h : (x.stopCtxThreads c).svc = x.svc := by
    refine foldl_agree (π := SliceState.svc) (f := fun y e => (List.range 64).foldl (SliceState.stopIf c e) y) (fun y e => ?_) _ x
    refine foldl_agree (π := SliceState.svc) (fun z t => ?_) _ y
    unfold SliceState.stopIf
    split
    · exact (hno ..).trans rfl
    · rfl
  unfold SliceState.torn
  dsimp only
  rw [h]
  exact ⟨rfl, rfl⟩

theorem State.Keeps.tearStep (c code : Nat) (v : State) (i : Nat) : v.Keeps (v.tearStep c code i) := by
  refine .comp (.onSl _ _ fun _ h => ?_) (.endReqs ..)
  exact .update (h.stopCtxThreads c) rfl rfl rfl

theorem State.tearStep_other (c code : Nat) (v : State) {i j : Nat} (h : j ≠ i) : (v.tearStep c code i).sl j = v.sl j :=
  (State.onSl_sl_of_ne _ _ h).trans (State.onSl_sl_of_ne _ _ h)

theorem State.tearStep_self (c code : Nat) {v : State} {i : Nat} (h : i < v.slices.length) :
    (v.tearStep c code i).sl i = ((v.endReqs i (Request.isCtx c) v.now v.now .cancelled).sl i).torn c code :=
  State.onSl_sl_self _ _ _ (by rw [State.endReqs, State.onSl_length]; exact h)

theorem SliceState.torn_engine (c code : Nat) (x : SliceState) (k : Nat) : (x.torn c code).engine k = (x.stopCtxThreads c).engine k := by
  unfold SliceState.engine SliceState.torn
  dsimp only

theorem State.tearStep_thread {v : State} (hv : v.Inv) (c code i : Nat) (j : SliceId) (e : EngineId) (h : ThreadId) :
    ((v.tearStep c code i).thread j e h).ctx = (v.thread j e h).ctx ∧
      (i = j ∧ (v.thread j e h).ctx = c ∨ (v.thread j e h).st = .idle → ((v.tearStep c code i).thread j e h).st = .idle) := by
  by_cases hij : i = j
  · subst hij
    have hend : ((v.endReqs j (Request.isCtx c) v.now v.now .cancelled).sl j).engines = (v.sl j).engines :=
      State.Agree.endReqs (π := SliceState.engines) (fun _ _ _ _ => rfl) j
    have hth : (((v.endReqs j (Request.isCtx c) v.now v.now .cancelled).sl j).engine e).thread h = v.thread j e h :=
      congrArg (fun l : List Engine => (l.getD e {}).thread h) hend
    obtain ⟨h1, h2⟩ := SliceState.stopCtxThreads_thread (((State.Keeps.endReqs ..).2 hv).sl j.isLt) c e h
    rw [hth] at h1 h2
    have hnew : (v.tearStep c code j).thread j e h = ((((v.endReqs j (Request.isCtx c) v.now v.now .cancelled).sl j).stopCtxThreads c).engine e).thread h := by
      unfold State.thread
      rw [State.tearStep_self c code (hv.slices_lt j), SliceState.torn_engine]
    rw [hnew]
    exact ⟨h1, fun h => h2 (h.imp And.right id)⟩
  · have hother : (v.tearStep c code i).thread j e h = v.thread j e h := by
      unfold State.thread
      rw [State.tearStep_other c code v (Ne.symm hij)]
    rw [hother]
    exact ⟨rfl, fun h => h.resolve_left fun h => hij h.1⟩

theorem SliceState.settleRows_pending (x : SliceState) (d : Drip) : (x.settleRows d).svc.pending = x.svc.pending := by
  unfold SliceState.settleRows
  dsimp only
  split <;> rfl

theorem State.Agree.endReqs_pending {s : State} {i : Nat} (hi : i < s.slices.length) {p : Request → Bool} {a b : Drip} {st : Status} {l : Nat} :
    ((s.endReqs i p a b st l).sl i).svc.pending = (s.sl i).svc.pending := by
  unfold State.endReqs
  rw [State.onSl_sl_self _ _ _ hi]
  exact SliceState.settleRows_pending ..

/-- What the slices' part in a tear-down does. -/
theorem State.tearSteps_spec {s : State} (hs : s.Inv) (c code : Nat) (j : SliceId) :
    ((s.eachSlice (State.tearStep c code)).sl j).svc.pending = (s.sl j).svc.pending ∧
      ((s.eachSlice (State.tearStep c code)).sl j).svc.reqs =
        (s.sl j).svc.reqs.map (fun r => Request.settled s.now (if r.isCtx c then r.given ⟨s.now, s.now, .cancelled, 0xFF⟩ else r)) ∧
      ∀ (e : EngineId) (h : ThreadId), (s.thread j e h).ctx = c → ((s.eachSlice (State.tearStep c code)).thread j e h).st = .idle := by
  have hkeep (v : State) (i : Nat) (h : v.Inv ∧ v.now = s.now) : (v.tearStep c code i).Inv ∧ (v.tearStep c code i).now = s.now :=
    ⟨(State.Keeps.tearStep c code v i).2 h.1, h.2⟩
  refine ⟨?_, ?_, fun e h hc => ?_⟩
  · refine State.eachSlice_at (π := fun x => x.svc.pending) (P := fun _ l => l) hkeep (fun v i hv hi => ?_)
      (fun v i k hk => by rw [State.tearStep_other c code v hk]) ⟨hs, rfl⟩ j
    rw [State.tearStep_self c code (hv.1.slices_lt ⟨i, hi⟩), (SliceState.torn_svc ..).2]
    exact State.Agree.endReqs_pending (hv.1.slices_lt ⟨i, hi⟩)
  · refine State.eachSlice_at (π := fun x => x.svc.reqs) (P := fun _ l => l.map _) hkeep (fun v i hv hi => ?_)
      (fun v i k hk => by rw [State.tearStep_other c code v hk]) ⟨hs, rfl⟩ j
    rw [State.tearStep_self c code (hv.1.slices_lt ⟨i, hi⟩), (SliceState.torn_svc ..).1, State.endReqs_reqs (hv.1.slices_lt ⟨i, hi⟩), hv.2]
  · refine foldl_reaches (I := fun v : State => v.Inv ∧ (v.thread j e h).ctx = c) (P := fun v : State => (v.thread j e h).st = .idle)
      (List.mem_range.2 j.isLt) (fun v i hv => ⟨(State.Keeps.tearStep c code v i).2 hv.1, (State.tearStep_thread hv.1 c code i j e h).1.trans hv.2⟩)
      (fun v hv => (State.tearStep_thread hv.1 c code j j e h).2 (.inl ⟨rfl, hv.2⟩)) (fun v i hv hi => (State.tearStep_thread hv.1 c code i j e h).2 (.inr hi))
      ⟨hs, hc⟩

end Sys2Proof.Machine
end

section
/-! The acts of commands. -/

namespace Sys2Proof.Machine

/-! ### SUBMIT and CANCEL -/

section
variable {s : State} {sl : SliceId} {i : Nat} {c : Cmd}

theorem execSubmit_refused (h : s.actingCmd sl i 1 = some c) (hc : s.ctxState c.ctx = 0 ∨ s.ctxState c.ctx = 3) :
    exec (.submit sl i) s = .next (s.endCmd sl c .fault 3) := by
  show execSubmit sl i s = _
  unfold execSubmit
  rw [h]
  exact if_pos hc

/-- A context that takes SUBMITs. -/
def State.ctxTakes (s : State) (c : Nat) : Prop := s.ctxState c = 1 ∨ s.ctxState c = 2

theorem State.ctxTakes.not_off (hc : s.ctxTakes c.ctx) : ¬ (s.ctxState c.ctx = 0 ∨ s.ctxState c.ctx = 3) := by
  unfold State.ctxTakes at hc
  omega

theorem execSubmit_noDigest (h : s.actingCmd sl i 1 = some c) (hc : s.ctxTakes c.ctx) (hw : c.wantsDigest = true)
    (he : ∀ e ∈ (s.img sl).entries, e.kind ≠ .passDigest) : exec (.submit sl i) s = .next (s.endCmd sl c .fault 2) := by
  show execSubmit sl i s = _
  unfold execSubmit
  rw [h]
  dsimp only
  rw [if_neg hc.not_off, if_pos]
  rw [hw, List.any_eq_false.2 fun e h => by rw [beq_iff_eq]; exact he e h]
  rfl

/-- A slice whose SUBMIT of a slot waits for admission. -/
def SliceState.submitted (i : Nat) (x : SliceState) : SliceState :=
  { x with svc := { x.svc with pending := x.svc.pending.map fun d => if d.slot == i then { d with queued := true } else d } }

theorem execSubmit_queued (h : s.actingCmd sl i 1 = some c) (hc : s.ctxTakes c.ctx)
    (hd : c.wantsDigest = false ∨ ∃ e ∈ (s.img sl).entries, e.kind = .passDigest) :
    exec (.submit sl i) s = .next (s.onSl sl (SliceState.submitted i)) := by
  show execSubmit sl i s = _
  unfold execSubmit
  rw [h]
  dsimp only
  rw [if_neg hc.not_off, if_neg]
  · rfl
  · rcases hd with hd | ⟨e, he, hk⟩
    · rw [hd, Bool.false_and]
      decide
    · have hany : ((s.img sl).entries.any fun e => e.kind == .passDigest) = true := List.any_eq_true.2 ⟨e, he, beq_iff_eq.2 hk⟩
      rw [hany, Bool.not_true, Bool.and_false]
      decide

/-- The commands that a CANCEL of a slice names. -/
def Cmd.cancels (c : Cmd) (sl : Nat) (j : Nat) (d : Cmd) : Bool :=
  d.ctx == c.ctx && acceptedBefore (j, d) (sl, c) && ((c.word 1).testBit 0 || d.tag == bits (c.word 5) 31 0)

theorem Cmd.cancels_iff {sl j : Nat} {d : Cmd} : c.cancels sl j d = true ↔
    d.ctx = c.ctx ∧ acceptedBefore (j, d) (sl, c) = true ∧ ((c.word 1).testBit 0 = true ∨ d.tag = bits (c.word 5) 31 0) := by
  unfold Cmd.cancels
  rw [Bool.and_eq_true, Bool.and_eq_true, Bool.or_eq_true, beq_iff_eq, beq_iff_eq, and_assoc]

/-- The admitted requests that a CANCEL of a slice names. -/
def State.cancelsReq (s : State) (c : Cmd) (sl : Nat) (j : Nat) (r : Request) : Bool :=
  c.cancels sl j r.cmd && !r.ended && !r.outputDone && !s.lastBoundaryPast j

theorem State.cancelsReq_iff {sl j : Nat} {r : Request} : s.cancelsReq c sl j r = true ↔
    c.cancels sl j r.cmd = true ∧ r.ended = false ∧ r.outputDone = false ∧ s.lastBoundaryPast j = false := by
  unfold State.cancelsReq
  rw [Bool.and_eq_true, Bool.and_eq_true, Bool.and_eq_true, Bool.not_eq_true', Bool.not_eq_true', Bool.not_eq_true', and_assoc, and_assoc]

/-- A CANCEL names something. -/
def State.cancelHits (s : State) (c : Cmd) (sl : Nat) : Bool :=
  (List.range 8).any fun j => (s.sl j).svc.pending.any (fun d => d.kind == 1 && c.cancels sl j d) || (s.sl j).svc.reqs.any (s.cancelsReq c sl j)

theorem State.cancelHits_iff {sl : Nat} : s.cancelHits c sl = true ↔
    ∃ j : SliceId, (∃ d ∈ (s.sl j).svc.pending, d.kind = 1 ∧ c.cancels sl j d = true) ∨ ∃ r ∈ (s.sl j).svc.reqs, s.cancelsReq c sl j r = true := by
  unfold State.cancelHits
  simp only [List.any_eq_true, Bool.or_eq_true, Bool.and_eq_true, beq_iff_eq, List.mem_range]
  exact ⟨fun ⟨j, hj, h⟩ => ⟨⟨j, hj⟩, h⟩, fun ⟨j, h⟩ => ⟨j, j.isLt, h⟩⟩

/-- The device once the commands and requests that a CANCEL names are taken out or marked. -/
def State.cancelled (s : State) (c : Cmd) (sl : Nat) : State :=
  (s.cancelPending (c.cancels sl)).eachSlice fun u j => u.onSl j fun x => x.onReqs fun r => if s.cancelsReq c sl j r then { r with cancel := true } else r

theorem execCancel_eq (h : s.actingCmd sl i 2 = some c) :
    exec (.cancel sl i) s = if s.cancelHits c sl then .next ((s.cancelled c sl).endCmd sl c .ok 0) else .next (s.endCmd sl c .fault 5) := by
  show execCancel sl i s = _
  unfold execCancel
  rw [h]
  rfl

theorem State.Keeps.cancelled (s : State) (c : Cmd) (sl : Nat) : s.Keeps (s.cancelled c sl) :=
  .comp (.foldl (fun _ _ => .onSl _ _ fun _ h => .onReqs h ..) _ _) (.cancelPending ..)

theorem State.cancelled_spec (hs : s.Inv) (c : Cmd) (sl : Nat) (j : SliceId) :
    ((s.cancelled c sl).sl j).svc.pending = ((s.cancelPending (c.cancels sl)).sl j).svc.pending ∧
      ((s.cancelled c sl).sl j).svc.reqs = (s.sl j).svc.reqs.map fun r => if s.cancelsReq c sl j r then { r with cancel := true } else r := by
  have h0 : State.Owes s (s.cancelPending (c.cancels sl)) := .cancelPending _
  unfold State.cancelled
  generalize hv : s.cancelPending (c.cancels sl) = v at h0
  have hvi : v.Inv := hv ▸ (State.Keeps.cancelPending ..).2 hs
  refine ⟨?_, ?_⟩
  · exact State.Agree.eachSlice (π := fun x => x.svc.pending)
      (f := fun u j => u.onSl j fun x => x.onReqs fun r => if s.cancelsReq c sl j r then { r with cancel := true } else r) (fun _ _ => .onSl fun _ => rfl) v j
  have hreqs : (v.sl j).svc.reqs = (s.sl j).svc.reqs := h0.slice (π := fun x => x.svc.reqs) (fun _ => rfl) j
  rw [← hreqs]
  refine State.eachSlice_at (I := State.Inv) (π := fun x => x.svc.reqs)
    (P := fun j l => l.map fun r => if s.cancelsReq c sl j r then { r with cancel := true } else r) (fun v i hv => (State.Keeps.onSl _ _ fun _ h => .onReqs h ..).2 hv)
    (fun v i hv hi => State.onReqs_reqs (hv.slices_lt ⟨i, hi⟩) _) (fun v i k hk => by rw [State.onSl_sl_of_ne _ _ hk]) hvi j

end

/-! ### CTX_OPEN, CTX_CLOSE and COPY -/

section
variable {s : State} {sl : SliceId} {i : Nat} {c : Cmd}

theorem execCtxOpen_acts (h : s.actingCmd sl i 3 = some c) : exec (.ctxOpen sl i) s = .next ((s.dropCmd sl c).openCtx sl c) := by
  show execCtxOpen sl i s = _
  unfold execCtxOpen
  rw [h]

theorem State.dropCmd_pools (s : State) (sl j : Nat) (c : Cmd) : ((s.dropCmd sl c).sl j).pools = (s.sl j).pools :=
  (State.Owes.dropCmd (s := s) sl c).slice (π := SliceState.pools) (fun _ => rfl) j

/-- A context once a CTX_CLOSE waits for it. -/
def Ctx.closing (x : Ctx) (sl : Nat) (c : Cmd) : Ctx := { x with closes := x.closes ++ [(sl, c)] }

theorem execCtxClose_acts (h : s.actingCmd sl i 4 = some c) :
    exec (.ctxClose sl i) s = .next (if s.ctxState c.ctx = 0 then s.endCmd sl c .ok 0
      else if s.ctxState c.ctx = 3 then (s.dropCmd sl c).onCtx c.ctx fun x => x.closing sl c
      else (((s.dropCmd sl c).onCtx c.ctx fun x => x.closing sl c).stopCtx c.ctx).cancelPending
        fun j d => d.ctx == c.ctx && acceptedBefore (j, d) (sl.val, c)) := by
  show execCtxClose sl i s = _
  unfold execCtxClose
  rw [h]
  rw [apply_ite Host.Outcome.next, apply_ite Host.Outcome.next]
  rfl

/-- The bytes that a COPY moves. -/
def SliceState.copyBytes (x : SliceState) (c : Cmd) : Nat := if c.indirect then x.loadNat c.lenAddr 4 * 2 ^ c.lenShift else c.length

/-- A COPY's range may be used. -/
def SliceState.copyInside (x : SliceState) (c : Cmd) : Bool :=
  if (c.word 1).testBit 0 then inRegion c.dev (x.copyBytes c) .hbm || inRegion c.dev (x.copyBytes c) .staging
  else x.tiers.inState c.dev (x.copyBytes c) || x.hbmFree c.dev (x.copyBytes c)

/-- A COPY goes under way. -/
def State.copyStarted (s : State) (sl : SliceId) (c : Cmd) : State :=
  (s.dropCmd sl c).onSvc sl fun v => { v with copies := v.copies ++ [(c, (s.sl sl).copyBytes c)] }

theorem execCopy_acts (h : s.actingCmd sl i 5 = some c) :
    exec (.copy sl i) s = .next (if c.length < (s.sl sl).copyBytes c then s.endCmd sl c .fault 4
      else if (s.sl sl).copyBytes c = 0 then s.endCmd sl c .ok 0
      else if !(s.sl sl).copyInside c then s.endCmd sl c .fault 2
      else if (c.word 1).testBit 0 then (s.copyStarted sl c).pushChan (2 * sl.val + 1) (.copyWrite sl c.slot c.hostA ((s.sl sl).load c.dev ((s.sl sl).copyBytes c)))
      else (s.copyStarted sl c).pushChan (2 * sl.val) (.copyRead sl c.slot c.hostA ((s.sl sl).copyBytes c) c.dev)) := by
  show execCopy sl i s = _
  unfold execCopy
  rw [h]
  rw [apply_ite Host.Outcome.next, apply_ite Host.Outcome.next, apply_ite Host.Outcome.next]
  rfl

theorem State.copyStarted_spec (hs : s.Inv) (sl : SliceId) (c : Cmd) :
    ((s.copyStarted sl c).sl sl).mem = (s.sl sl).mem ∧ (c, (s.sl sl).copyBytes c) ∈ ((s.copyStarted sl c).sl sl).svc.copies ∧
      (s.copyStarted sl c).host = s.host := by
  have h := (s.dropCmd sl c).onSl_sl_self sl (fun x => { x with svc := { x.svc with copies := x.svc.copies ++ [(c, (s.sl sl).copyBytes c)] } })
    (((State.Keeps.dropCmd ..).2 hs).slices_lt sl)
  have hmem : ((s.dropCmd sl c).sl sl).mem = (s.sl sl).mem := (State.Owes.dropCmd (s := s) sl c).slice (π := SliceState.mem) (fun _ => rfl) sl
  refine ⟨(congrArg SliceState.mem h).trans hmem, ?_, rfl⟩
  rw [show (s.copyStarted sl c).sl sl = _ from h]
  exact List.mem_append_right _ List.mem_cons_self

end

/-! ### The end of a context -/

theorem execContextTeardown_waits {s : State} {ctx : Nat} (h : ∀ e ∈ s.tears, e.1 = ctx → Drip.later e.2 s.now = true) :
    exec (.contextTeardown ctx) s = .next s := by
  refine if_neg ?_
  rw [Bool.not_eq_true, List.any_eq_false]
  intro e he hdue
  rw [Bool.and_eq_true, beq_iff_eq] at hdue
  rw [h e he hdue.1] at hdue
  exact absurd hdue.2 (by decide)

/-- The device without the tear-downs of a context that are due. -/
def State.tearsTaken (s : State) (ctx : Nat) : State := { s with tears := s.tears.filter fun e => !(e.1 == ctx && !Drip.later e.2 s.now) }

theorem execContextTeardown_due {s : State} {ctx : Nat} (h : ∃ e ∈ s.tears, e.1 = ctx ∧ Drip.later e.2 s.now = false) :
    exec (.contextTeardown ctx) s = .next ((s.tearsTaken ctx).tearCtx ctx) := by
  refine if_pos ?_
  obtain ⟨e, he, h1, h2⟩ := h
  exact List.any_eq_true.2 ⟨e, he, by rw [h1, h2, beq_self_eq_true]; rfl⟩

/-- The closes of a context have ended, and its record is gone. -/
theorem execContextOff_off {s : State} {ctx : Nat} {x : Ctx} (hx : s.ctx? ctx = some x) (h3 : x.st = 3) (hb : s.ctxBusy ctx = false)
    (hw : x.wrote ≠ some s.now) : ∃ u : State, State.Owes s u ∧
      exec (.contextOff ctx) s = .next (x.deferred.foldl (fun (v : State) o => v.openCtx o.1 o.2) { u with ctxs := u.ctxs.filter fun y => y.ctx != ctx }) := by
  refine ⟨_, .foldl (f := fun (u : State) o => u.completeCmd o.1 o.2 .ok 0) (fun _ _ => .completeCmd ..) x.closes s, ?_⟩
  show execContextOff ctx s = _
  unfold execContextOff
  rw [hx]
  exact if_pos (by rw [h3, hb, bne_iff_ne.2 hw]; decide)

theorem execContextOff_stays {s : State} {ctx : Nat} {x : Ctx} (hx : s.ctx? ctx = some x) (h : x.st ≠ 3 ∨ s.ctxBusy ctx = true ∨ x.wrote = some s.now) :
    exec (.contextOff ctx) s = .next s := by
  show execContextOff ctx s = _
  unfold execContextOff
  rw [hx]
  refine if_neg ?_
  rcases h with h | h | h
  · simp [h]
  · simp [h]
  · simp [h]

theorem State.tearSteps_ctxState (s : State) (c code k : Nat) : (s.eachSlice (State.tearStep c code)).ctxState k = s.ctxState k := by
  have h : ((s.eachSlice (State.tearStep c code)).ctxs, (s.eachSlice (State.tearStep c code)).job) = (s.ctxs, s.job) :=
    foldl_agree (π := fun w : State => (w.ctxs, w.job)) (f := State.tearStep c code) (fun _ _ => rfl) _ s
  obtain ⟨h1, h2⟩ := Prod.mk.inj h
  unfold State.ctxState State.ctx?
  rw [h1, h2]

/-- A tear-down of a context that is not OFF. -/
theorem State.tearCtx_spec {s : State} (hs : s.Inv) {c : Nat} {x : Ctx} (hc : c < 255) (hx : s.ctx? c = some x) (h0 : x.st ≠ 0) :
    (s.tearCtx c).ctxState c = 3 ∧ (∀ j : SliceId, ∀ d ∈ ((s.tearCtx c).sl j).svc.pending, d.kind = 1 → d.ctx ≠ c) ∧
      (∀ j : SliceId, ∀ r ∈ (s.sl j).svc.reqs, r.cmd.ctx = c → ∃ q ∈ ((s.tearCtx c).sl j).svc.reqs, q.slot = r.slot ∧ q.ended = true) ∧
      ∀ (j : SliceId) (e : EngineId) (h : ThreadId), (s.thread j e h).ctx = c → ((s.tearCtx c).thread j e h).st = .idle := by
  have hst := State.ctxState_of hc hx
  -- the device once the context is STOPPING and its commands have ended
  have hstop : ∃ v : State, (if s.ctxState c = 3 then s else s.stopCtx c) = v ∧ v.ctxState c = 3 ∧ v.Inv ∧ State.Agree SliceState.idleQueue s v ∧ v.now = s.now := by
    split
    · next h => exact ⟨s, rfl, h, hs, .refl s, rfl⟩
    · obtain ⟨u, hu, hk, he⟩ := s.stopCtx_eq c
      refine ⟨_, he, ?_, (State.Keeps.onCtx ..).2 (hk.2 hs), hu.agree.trans (.of_slices rfl), hu.now⟩
      rw [← he]
      exact State.ctxState_of hc ((s.stopCtx_ctx? c).trans (by rw [hx]; rfl))
  obtain ⟨v, hv, hv3, hvi, hva, hvn⟩ := hstop
  have hp : s.tearing c = v.cancelPending fun _ d => d.ctx == c := by
    unfold State.tearing
    rw [hv]
  have ho : State.Owes v (s.tearing c) := hp ▸ .cancelPending _
  have hi : (s.tearing c).Inv := hp ▸ (State.Keeps.cancelPending ..).2 hvi
  have hq (j : Nat) : ((s.tearing c).sl j).idleQueue = (s.sl j).idleQueue := (hva.trans ho.agree) j
  rw [State.tearCtx_eq (hst ▸ h0)]
  have hpend (j : SliceId) : ∀ d ∈ ((s.tearing c).sl j).svc.pending, d.kind = 1 → (d.ctx == c) = false := hp ▸ State.cancelPending_gone hvi (fun _ d => d.ctx == c) j
  generalize (s.tearing c).ctxCode c = code
  have h3 := ho.ctxState c
  generalize s.tearing c = w at hi hq hpend h3
  refine ⟨?_, fun j d hd hk he => ?_, fun j r hr he => ?_, fun j e h he => ?_⟩
  · rw [State.tearSteps_ctxState]
    exact h3.trans hv3
  · rw [(State.tearSteps_spec hi c code j).1] at hd
    have h := hpend j d hd hk
    rw [he, beq_self_eq_true] at h
    cases h
  · have hreqs : (w.sl j).svc.reqs = (s.sl j).svc.reqs := (congrArg (fun x : SliceState => x.svc.reqs) (hq j) :)
    have hm := List.mem_map_of_mem (f := fun r : Request => Request.settled w.now (if r.isCtx c then r.given ⟨w.now, w.now, .cancelled, 0xFF⟩ else r))
      (hreqs ▸ hr : r ∈ (w.sl j).svc.reqs)
    rw [← (State.tearSteps_spec hi c code j).2.1, if_pos (show r.isCtx c = true from beq_iff_eq.2 he)] at hm
    exact ⟨_, hm, Request.settled_slot .., Request.settled_given ..⟩
  · have hth : w.thread j e h = s.thread j e h := (congrArg (fun x : SliceState => (x.engine e).thread h) (hq j) :)
    exact (State.tearSteps_spec hi c code j).2.2 e h (hth ▸ he)

end Sys2Proof.Machine
end

section
/-! The ledger and its commands. -/

namespace Sys2Proof.Machine

/-! ### The outcomes of a ledger scan -/

section
variable {s : State} {sl : SliceId}

theorem execLedgerScan_elsewhere (h : ¬ s.now.toNat % max 1 (s.sl sl).svc.scanDrips = 0) : exec (.ledgerScan sl) s = .next s := if_pos (bne_iff_ne.2 h)

theorem execLedgerScan_idle (h : s.now.toNat % max 1 (s.sl sl).svc.scanDrips = 0)
    (hno : (s.sl sl).svc.ledgerEnable = false ∨ ((s.ledgerWords sl).getD 7 0).testBit 0 ≠ (s.sl sl).svc.ledgerPhase ∨ 4096 ≤ (s.sl sl).svc.pending.length) :
    exec (.ledgerScan sl) s = .next (s.onSl sl SliceState.releaseWaits) := by
  rw [execLedgerScan_here h]
  split
  · next he =>
    have hstop : s.scanStops sl = true := by
      unfold State.scanStops
      rcases hno with hno | hno | hno
      · rw [he] at hno
        cases hno
      · rw [bne_iff_ne.2 hno]
        simp
      · rw [decide_eq_true hno]
        simp
    rw [State.scanFrom_stops hstop]
  · rfl

/-- The record at LEDGER_HEAD is a command that the slice has room for. -/
structure State.LedgerReady (s : State) (sl : SliceId) : Prop where
  here : s.now.toNat % max 1 (s.sl sl).svc.scanDrips = 0
  enable : (s.sl sl).svc.ledgerEnable = true
  phase : ((s.ledgerWords sl).getD 7 0).testBit 0 = (s.sl sl).svc.ledgerPhase
  room : (s.sl sl).svc.pending.length < 4096
  slot : (s.sl sl).svc.freeSlot.isSome = true
  some : 1 ≤ (s.sl sl).svc.scanMax
  ring : (s.host.rings.getD (s.ledgerRing sl) {}).held.length < 4096

/-- A scan that takes the record at LEDGER_HEAD, as its REASON has it. -/
theorem execLedgerScan_takes (hs : s.Inv) (h : s.LedgerReady sl) {o : Option Nat} (ho : recordFault (s.ledgerRecord sl) (s.ledgerCmd sl) s.tokenRows = o) :
    ∃ t : State, exec (.ledgerScan sl) s = .next t ∧ (s.sl sl).svc.accepted < (t.sl sl).svc.accepted ∧
      (∀ r, ∀ k ∈ ((s.ledgerTaken sl o).host.rings.getD r {}).held, k ∈ (t.host.rings.getD r {}).held) ∧
      ∀ c ∈ ((s.ledgerTaken sl o).sl sl).svc.pending, ∃ d ∈ (t.sl sl).svc.pending, d.unwaited = c.unwaited := by
  have hgo : s.scanStops sl = false := by
    have h1 : (((s.ledgerWords sl).getD 7 0).testBit 0 != (s.sl sl).svc.ledgerPhase) = false := bne_eq_false_iff_eq.2 h.phase
    have h2 : (s.sl sl).svc.freeSlot.isNone = false := by rw [← Option.not_isSome, h.slot]; rfl
    unfold State.scanStops
    rw [h1, h2, decide_eq_false (Nat.not_le.2 h.room), decide_eq_false (Nat.not_le.2 (Nat.lt_of_le_of_lt (State.ringHeld_le ..) h.ring))]
    rfl
  obtain ⟨hscan, hacc⟩ := State.scanFrom_takes hs sl h.some hgo
  rw [ho] at hscan
  have hk : s.Keeps (State.scanFrom sl (s.sl sl).svc.scanMax s) := .scanFrom ..
  have hlen := (hk.2 hs).slices_lt sl
  generalize hu : State.scanFrom sl (s.sl sl).svc.scanMax s = u at hscan hacc hlen
  obtain ⟨h1, h2⟩ := (u.sl sl).releaseWaits_spec
  refine ⟨u.onSl sl SliceState.releaseWaits, by rw [execLedgerScan_here h.here, if_pos h.enable, hu], ?_, hscan.held, fun c hc => ?_⟩
  · rw [State.onSl_sl_self _ _ _ hlen, h1]
    exact hacc
  · rw [State.onSl_sl_self _ _ _ hlen]
    exact h2 c (hscan.queue c hc)

theorem State.ledgerRing_of_fine (h : recordFault (s.ledgerRecord sl) (s.ledgerCmd sl) s.tokenRows = none) : s.ledgerRing sl = s.cmdRing (s.ledgerCmd sl) := by
  have hcrc : bits ((s.ledgerCmd sl).word 7) 47 16 = crc32c ((s.ledgerRecord sl).take 56) := by
    by_contra hne
    unfold recordFault at h
    rw [if_pos (by rw [bne_iff_ne.2 hne]; simp)] at h
    cases h
  exact if_neg (not_not_intro hcrc)

/-- The ring of a faulty record is owed its completion. -/
theorem State.ledgerTaken_owed (hs : s.Inv) (r : Nat) : s.Owed sl (s.ledgerTaken sl (some r)) (s.ledgerRing sl) (s.ledgerCmd sl) .fault r :=
  State.completeCmd_owed (u := s.scanned sl) hs rfl rfl sl (s.ledgerCmd sl) .fault r (some (s.ledgerRing sl))

/-- A good record's command joins the queue. -/
theorem State.ledgerTaken_queued (hs : s.Inv) : ∃ c ∈ ((s.ledgerTaken sl none).sl sl).svc.pending, c.unwaited = s.ledgerCmd sl := by
  have h : ((s.ledgerTaken sl none).sl sl) = { (s.scanned sl).sl sl with svc := { ((s.scanned sl).sl sl).svc with
      pending := ((s.scanned sl).sl sl).svc.pending ++ [{ s.ledgerCmd sl with waitFlag := s.ledgerWait sl }] } } :=
    State.onSl_sl_self (s.scanned sl) sl _ (by rw [State.scanned, State.onSvc, State.onSl_length]; exact hs.slices_lt sl)
  rw [h]
  exact ⟨_, List.mem_append_right _ List.mem_cons_self, rfl⟩

end

/-- Settles O46, command by command. -/
theorem ledgerAndCommands : Obligations.LedgerAndCommands := by
  unfold Obligations.LedgerAndCommands
  intro s sl hs v owed ends gone
  have hsl := hs.slices_lt sl
  have hends {i : Instr} {c : Cmd} {st : Status} {n : Nat} (h : exec i s = .next (s.endCmd sl c st n)) : ends i c st n := by
    obtain ⟨h1, h2⟩ := State.endCmd_ends hs sl c st n
    exact ⟨_, h, h1, h2⟩
  have hdrop (c : Cmd) (st : Status) (n ring : Nat) : owed ((s.dropCmd sl c).completeCmd sl c st n (some ring)) ring c st n :=
    State.completeCmd_owed (u := s.dropCmd sl c) hs rfl rfl sl c st n (some ring)
  have hdropped (c : Cmd) : State.Owes s (s.dropCmd sl c) := .dropCmd ..
  refine ⟨?_, fun i c hact => ?_, fun i c hact => ?_, fun i c hact => ?_, fun i c hact => ?_, fun i c hact => ?_, fun ctx x hlt hx => ?_⟩
  · intro b w c here
    have hb : b = s.ledgerRecord sl := rfl
    have hw : w = s.ledgerWords sl := rfl
    have hc : c = s.ledgerCmd sl := rfl
    clear_value c w b
    subst hb hw hc
    refine ⟨execLedgerScan_elsewhere, execLedgerScan_idle, fun hh he hp hr hf h1 => ⟨fun r hfault => ?_, fun hfine hring => ?_⟩⟩
    · intro ring hring
      have hready : s.LedgerReady sl := ⟨hh, he, hp, hr, hf, h1, hring⟩
      obtain ⟨t, ht, hacc, hheld, -⟩ := execLedgerScan_takes hs hready hfault
      exact ⟨t, ht, hacc, (State.ledgerTaken_owed hs r).later (hheld _)⟩
    · have hready : s.LedgerReady sl := ⟨hh, he, hp, hr, hf, h1, by rw [State.ledgerRing_of_fine hfine]; exact hring⟩
      obtain ⟨t, ht, hacc, -, hq⟩ := execLedgerScan_takes hs hready hfine
      obtain ⟨d, hd, hdc⟩ := State.ledgerTaken_queued (sl := sl) hs
      obtain ⟨e, he', hec⟩ := hq d hd
      exact ⟨t, ht, hacc, e, he', hec.trans hdc⟩
  · refine ⟨fun h => hends (execSubmit_refused hact h), fun h hw he => hends (execSubmit_noDigest hact h hw he), fun h hd =>
      ⟨_, execSubmit_queued hact h hd, OnlySlice.onSl .., ?_⟩⟩
    rw [State.onSl_sl_self _ _ _ hsl]
    refine ⟨fun d hd hi => ?_, List.length_map _, rfl⟩
    obtain ⟨e, -, rfl⟩ := List.mem_map.1 hd
    split
    · rfl
    · next hne => exact absurd (by rw [if_neg hne] at hi; exact beq_iff_eq.2 hi) hne
  · intro mine admitted hit
    have hmine (j : Nat) (d : Cmd) : c.cancels sl j d = true ↔ mine j d := Cmd.cancels_iff
    have hadm (j : Nat) (r : Request) : s.cancelsReq c sl j r = true ↔ admitted j r := State.cancelsReq_iff.trans (and_congr_left' (hmine ..))
    have hhit : s.cancelHits c sl = true ↔ hit := by
      rw [State.cancelHits_iff]
      simp only [hmine, hadm]
      rfl
    refine ⟨fun h => hends ?_, fun h => ?_⟩
    · rw [execCancel_eq hact, if_neg (mt hhit.1 h)]
    · have hin := (State.Keeps.cancelled s c sl).2 hs
      have hend : State.Owes (s.cancelled c sl) ((s.cancelled c sl).endCmd sl c .ok 0) := .endCmd ..
      refine ⟨_, (execCancel_eq hact).trans (if_pos (hhit.2 h)), fun j d hd hk hm => ?_, fun j => ?_⟩
      · have hd' := hend.queue j d hd
        rw [(State.cancelled_spec hs c sl j).1] at hd'
        rw [← hmine, State.cancelPending_gone hs _ j d hd' hk] at hm
        cases hm
      · have hreq : (((s.cancelled c sl).endCmd sl c .ok 0).sl j).svc.reqs = _ :=
          (hend.slice (π := fun x => x.svc.reqs) (fun _ => rfl) j).trans (State.cancelled_spec hs c sl j).2
        rw [hreq]
        refine ⟨List.length_map _, fun r hr ha => ?_⟩
        have hm := List.mem_map_of_mem (f := fun r : Request => if s.cancelsReq c sl j r then { r with cancel := true } else r) hr
        rwa [if_pos ((hadm ..).2 ha)] at hm
  · intro opened
    have hexec := execCtxOpen_acts hact
    have hst : (s.dropCmd sl c).ctxState c.ctx = s.ctxState c.ctx := (hdropped c).ctxState _
    have hpool : (((s.dropCmd sl c).sl sl).pools.owner c.owner).kind = ((s.sl sl).pools.owner c.owner).kind := by rw [State.dropCmd_pools]
    refine ⟨fun h0 hr ho => ?_, fun h0 hr => ?_, fun h0 hr ho => ?_, fun h => ?_, fun x hlt hx h3 => ?_⟩
    · obtain ⟨h1, h2⟩ := State.openCtx_binds (s := s.dropCmd sl c) (sl := sl) (hst.trans h0) hr (hpool.trans ho)
      exact ⟨_, hexec, h1, h2⟩
    · rw [State.openCtx_noRing (hst.trans h0) hr] at hexec
      exact ⟨_, hexec, State.complete_ctxs .., hdrop c _ _ _⟩
    · rw [State.openCtx_noOwner (hst.trans h0) hr (fun h => ho (hpool ▸ h))] at hexec
      exact ⟨_, hexec, State.complete_ctxs .., hdrop c _ _ _⟩
    · rw [State.openCtx_open (by rw [hst]; exact h)] at hexec
      exact ⟨_, hexec, State.complete_ctxs .., hdrop c _ _ _⟩
    · rw [State.openCtx_stopping (hst.trans ((State.ctxState_of hlt hx).trans h3))] at hexec
      exact ⟨_, hexec, (State.onCtx_ctx? (f := fun x => { x with deferred := x.deferred ++ [(sl.val, c)] }) (s.dropCmd sl c) c.ctx fun _ => rfl).trans
        (congrArg (Option.map _) hx)⟩
  · have hexec := execCtxClose_acts hact
    refine ⟨fun h0 => hends (by rw [hexec, if_pos h0]), fun x hlt hx h0 => ?_⟩
    have hst := State.ctxState_of hlt hx
    have hclose : ((s.dropCmd sl c).onCtx c.ctx fun x => x.closing sl c).ctx? c.ctx = some (x.closing sl c) :=
      (State.onCtx_ctx? (f := fun x => x.closing sl c) (s.dropCmd sl c) c.ctx fun _ => rfl).trans (congrArg (Option.map _) hx)
    rw [hst, if_neg h0] at hexec
    by_cases h3 : x.st = 3
    · rw [if_pos h3] at hexec
      refine ⟨_, hexec, hclose.trans ?_, fun h => absurd h3 h⟩
      rw [if_pos h3, ← h3]
      rfl
    · rw [if_neg h3] at hexec
      have hin : (((s.dropCmd sl c).onCtx c.ctx fun x => x.closing sl c).stopCtx c.ctx).Inv :=
        (State.Keeps.stopCtx ..).2 ((State.Keeps.onCtx ..).2 ((State.Keeps.dropCmd ..).2 hs))
      refine ⟨_, hexec, ?_, fun _ j d hd hk hm => ?_⟩
      · rw [(State.Owes.cancelPending _).ctx?, State.stopCtx_ctx?, hclose, if_neg h3]
        rfl
      · have h := State.cancelPending_gone hin _ j d hd hk
        rw [hm.1, hm.2, beq_self_eq_true] at h
        cases h
  · intro x n toHost inside
    have hn : n = (s.sl sl).copyBytes c := rfl
    have hi : inside = (s.sl sl).copyInside c := rfl
    clear_value inside n
    subst hn hi
    have hexec := execCopy_acts hact
    refine ⟨fun h => hends (hexec.trans (by rw [if_pos h])), fun h => hends (hexec.trans ?_), fun h1 h2 h3 => hends (hexec.trans ?_), fun h1 h2 h3 => ?_⟩
    · rw [if_neg (by rw [h]; exact Nat.not_lt_zero _), if_pos h]
    · rw [if_neg (Nat.not_lt.2 h1), if_neg h2, if_pos (by rw [h3]; rfl)]
    · rw [if_neg (Nat.not_lt.2 h1), if_neg h2, if_neg (by rw [h3]; decide)] at hexec
      obtain ⟨k1, k2, k3⟩ := State.copyStarted_spec hs sl c
      refine ⟨_, hexec, ?_, ?_, fun ht => ?_, fun ht => ?_⟩
      · split <;> exact k1
      · split <;> exact k2
      · rw [if_pos ht]
        exact (getD_modify_self (by rw [k3, hs.2.2.1]; omega) _ _).trans (by rw [k3])
      · rw [if_neg (by rw [show (c.word 1).testBit 0 = false from ht]; decide)]
        exact (getD_modify_self (by rw [k3, hs.2.2.1]; omega) _ _).trans (by rw [k3])
  · refine ⟨fun h0 hdue => ?_, execContextTeardown_waits, fun h3 hb hw hd => ?_, fun i c h3 hb hw hd hc hr ho => ?_, execContextOff_stays hx⟩
    · obtain ⟨h1, h2, h4, h5⟩ := State.tearCtx_spec (s := s.tearsTaken ctx) hs hlt hx h0
      exact ⟨_, execContextTeardown_due hdue, h1, h2, h4, h5⟩
    · obtain ⟨u, -, hexec⟩ := execContextOff_off hx h3 hb hw
      rw [hd] at hexec
      exact ⟨_, hexec, List.find?_eq_none.2 fun y hy he => bne_iff_ne.1 (List.mem_filter.1 hy).2 (beq_iff_eq.1 he)⟩
    · obtain ⟨u, hu, hexec⟩ := execContextOff_off hx h3 hb hw
      rw [hd] at hexec
      subst hc
      have hoff : State.ctxState { u with ctxs := u.ctxs.filter fun y => y.ctx != c.ctx } c.ctx = 0 :=
        State.ctxState_none hlt (List.find?_eq_none.2 fun y hy he => bne_iff_ne.1 (List.mem_filter.1 hy).2 (beq_iff_eq.1 he))
      have hring : (u.host.rings.getD c.ring {}).enable = true := ((congrArg Ring.enable (hu.settings c.ring)) :).trans hr
      have hown : ((u.sl i).pools.owner c.owner).kind = 1 := by
        rw [hu.slice (π := SliceState.pools) (fun _ => rfl) i]
        exact ho
      exact ⟨_, hexec, (State.openCtx_binds hoff hring hown).1⟩

end Sys2Proof.Machine
end

section
/-! Answers to messages, and requests that take conditions. -/

namespace Sys2Proof.Machine

/-! ### What the answer to a message leaves alone -/

/-- The requests of a slice, its remote part, and the messages that wait to leave it. -/
def SliceState.asked (x : SliceState) : Service × Remote × List WindowWait := (x.svc, x.remote, x.fabric.windowed)

theorem SliceState.landPiece_agree {β : Type} {π : SliceState → β} (hw : ∀ x f, π (x.wakeOn f) = π x)
    (h : ∀ x r c f, π { x with runs := r, toClear := c, flags := f } = π x) (ht : ∀ x t, π { x with tiers := t } = π x) (x : SliceState) (run a : Nat)
    (frame : Drip) (b : Bytes) (len : Nat → Nat → Nat) : π (x.landPiece run a frame b len) = π x := by
  unfold SliceState.landPiece
  split
  · rfl
  · dsimp only
    split
    · exact (SliceState.completeRun_agree hw h _ _).trans (ht ..)
    · exact ht ..

theorem State.Agree.issuerDone {s : State} {sl : Nat} {i : Issuer} {req : Option Packet} {dst : Place} {data : Bytes} :
    State.Agree SliceState.asked s (s.issuerDone sl i req dst data) := by
  unfold State.issuerDone
  cases i with
  | thread e t kind reg addr n =>
    dsimp only
    split <;> exact .onSl fun _ => rfl
  | coll run id frame =>
    cases req with
    | none => exact .refl _
    | some p => exact .ite (.onSl fun _ => rfl) (.refl _)
  | prefetch run addr frame =>
    exact .onSl fun x => SliceState.landPiece_agree (π := SliceState.asked) (fun _ _ => rfl) (fun _ _ _ _ => rfl) (fun _ _ => rfl) x ..
  | load seq => exact .of_slices rfl
  | _ => exact .refl _

theorem State.releaseHeld_none {s : State} {sl : Nat} (h : (s.sl sl).fabric.windowed = []) (dst : Place) : s.releaseHeld sl dst = s := by
  unfold State.releaseHeld
  rw [h]
  exact ite_self _

/-- The end of a message that has its answer. -/
def State.answered (s : State) (sl : Nat) (iss : Issuer) (dst : Place) : State := (s.issuerDone sl iss none dst []).releaseHeld sl dst

theorem State.answered_agree {s : State} {sl : Nat} (h : (s.sl sl).fabric.windowed = []) (iss : Issuer) (dst : Place) :
    State.Agree SliceState.asked s (s.answered sl iss dst) := by
  have hd : State.Agree SliceState.asked s (s.issuerDone sl iss none dst []) := .issuerDone
  unfold State.answered
  rw [State.releaseHeld_none ((congrArg (fun p => p.2.2) (hd sl)).trans h)]
  exact hd

/-! ### Requests that only take conditions -/

/-- Every request of `s` stands in `t`, with the conditions it had. -/
structure State.Grows (s t : State) : Prop where
  reqs : ∀ i, ∀ r ∈ (s.sl i).svc.reqs, ∃ v ∈ (t.sl i).svc.reqs, v.slot = r.slot ∧ ∀ c ∈ r.conds, c ∈ v.conds

namespace State.Grows
variable {s t u : State}

theorem refl (s : State) : State.Grows s s := ⟨fun _ r h => ⟨r, h, rfl, fun _ h => h⟩⟩

theorem trans (a : State.Grows s t) (b : State.Grows t u) : State.Grows s u := ⟨fun i r h => by
  obtain ⟨v, hv, h1, h2⟩ := a.reqs i r h
  obtain ⟨w, hw, h3, h4⟩ := b.reqs i v hv
  exact ⟨w, hw, h3.trans h1, fun c hc => h4 c (h2 c hc)⟩⟩

theorem comp (b : State.Grows t u) (a : State.Grows s t) : State.Grows s u := a.trans b

theorem ite {p : Prop} [Decidable p] (a : State.Grows s t) (b : State.Grows s u) : State.Grows s (if p then t else u) := by
  split <;> assumption

theorem foldl {α : Type} {f : State → α → State} (h : ∀ s a, State.Grows s (f s a)) (l : List α) (s : State) : State.Grows s (l.foldl f s) := by
  induction l generalizing s with
  | nil => exact refl _
  | cons a l ih => exact (h s a).trans (ih _)

theorem eachSlice {f : State → Nat → State} (h : ∀ s i, State.Grows s (f s i)) (s : State) : State.Grows s (s.eachSlice f) := foldl h _ s

theorem of_agree (h : State.Agree SliceState.svc s t) : State.Grows s t := ⟨fun i r hr => ⟨r, by rwa [h i], rfl, fun _ h => h⟩⟩

theorem onSl {i : Nat} {f : SliceState → SliceState} (h : ∀ x, (f x).svc = x.svc) : State.Grows s (s.onSl i f) := of_agree (.onSl h)

theorem endReqs (i : Nat) (p : Request → Bool) (a b : Drip) (st : Status) (l : Nat) : State.Grows s (s.endReqs i p a b st l) := by
  refine ⟨fun j r hr => ?_⟩
  by_cases hj : j = i
  · subst hj
    obtain hl | hl := Nat.lt_or_ge j s.slices.length
    · refine ⟨_, State.endReqs_reqs hl p a b st l ▸ List.mem_map_of_mem hr, ?_, fun c hc => ?_⟩
      · rw [Request.settled_slot]
        split <;> rfl
      · rw [Request.settled_conds]
        split
        · exact List.mem_append_left _ hc
        · exact hc
    · exact ⟨r, by unfold State.endReqs; rwa [State.onSl_sl_of_le _ _ hl], rfl, fun _ h => h⟩
  · exact ⟨r, by unfold State.endReqs; rwa [State.onSl_sl_of_ne _ _ hj], rfl, fun _ h => h⟩

theorem endTied (i : Nat) (u : Run) (a b : Drip) (st : Status) : State.Grows s (s.endTied i u a b st) :=
  .ite (.eachSlice (fun _ _ => .endReqs ..) _) (.endReqs ..)

theorem endThreadWith (i e t : Nat) (st : Status) : State.Grows s (s.endThreadWith i e t st) := by
  have h1 : State.Grows s (s.onSl i fun x => x.stopThread e t) := .onSl fun _ => rfl
  unfold State.endThreadWith
  dsimp only
  have htry (x : SliceState) : (x.tryCompletePhase e t).svc = x.svc :=
    SliceState.tryCompletePhase_agree (π := SliceState.svc) (fun _ _ => rfl) (fun _ _ _ _ => rfl) _ _ _
  cases (s.sl i).threadRun e t with
  | none => exact .ite (.comp (.onSl fun _ => rfl) (h1.trans (.of_agree (.of_slices rfl)))) (.comp (.onSl htry) h1)
  | some u =>
    have h2 := (endTied i u s.now (s.now.plus 1) st).comp h1
    exact .ite (.comp (.onSl fun _ => rfl) (h2.trans (.of_agree (.of_slices rfl)))) (.comp (.onSl htry) h2)

end State.Grows

/-- A part of the slices that the end of a collective leaves alone. -/
theorem State.endInstance_agree {β : Type} {π : SliceState → β} (hr : ∀ x r c, π { x with runs := r, toClear := c } = π x)
    (hp : ∀ x p c, π { x with pools := p, coll := c } = π x) (s : State) (sl id : Nat) (frame : Drip) (code : Status) (given : Drip) (found : Option Drip) :
    (s.endInstance sl id frame code given found = s ∨ ∃ (t : State) (l : List Run) (a : Drip), State.Agree π s t ∧
      s.endInstance sl id frame code given found = l.foldl (fun v u => v.endTied sl u a given code) t) := by
  unfold State.endInstance
  dsimp only
  split
  · exact .inl rfl
  · refine .inr ⟨_, _, _, .onSl fun y => ?_, rfl⟩
    refine (hp (SliceState.unpark _ _) _ _).trans ((hp _ _ _).trans ?_)
    refine foldl_agree (π := π) (fun z c => ?_) _ y
    split
    · exact hr z _ _
    · rfl

theorem State.Grows.endInstance (s : State) (sl id : Nat) (frame : Drip) (code : Status) (given : Drip) (found : Option Drip) :
    State.Grows s (s.endInstance sl id frame code given found) := by
  rcases State.endInstance_agree (π := SliceState.svc) (fun _ _ _ => rfl) (fun _ _ _ => rfl) s sl id frame code given found with h | ⟨t, l, a, h1, h2⟩
  · rw [h]
    exact .refl s
  · rw [h2]
    exact .comp (.foldl (fun _ _ => .endTied ..) _ _) (.of_agree h1)

theorem State.Agree.endInstance (s : State) (sl id : Nat) (frame : Drip) (code : Status) (given : Drip) (found : Option Drip) :
    State.Agree SliceState.remote s (s.endInstance sl id frame code given found) := by
  rcases State.endInstance_agree (π := SliceState.remote) (fun _ _ _ => rfl) (fun _ _ _ => rfl) s sl id frame code given found with h | ⟨t, l, a, h1, h2⟩
  · rw [h]
    exact .refl s
  · rw [h2]
    exact .comp (.foldl (fun _ _ => .endTied fun _ _ _ _ => rfl) _ _) h1

theorem State.Grows.issuerFail {s : State} (sl : Nat) (i : Issuer) (st : Status) : State.Grows s (s.issuerFail sl i st) := by
  unfold State.issuerFail
  dsimp only
  cases i with
  | thread e t _ _ _ _ => exact .endThreadWith ..
  | halted u => exact .ite ((State.Grows.endTied ..).trans (.of_agree (.of_slices rfl))) (.endTied ..)
  | coll run id frame => exact .endInstance ..
  | load _ => exact .of_agree (.of_slices rfl)
  | none => exact .refl _
  | _ =>
    dsimp only
    split
    · exact .endTied ..
    · exact .refl _

theorem State.Agree.issuerFail {s : State} {sl : Nat} {i : Issuer} {st : Status} : State.Agree SliceState.remote s (s.issuerFail sl i st) := by
  have htied (v : State) (u : Run) (a b : Drip) : State.Agree SliceState.remote v (v.endTied sl u a b st) := .endTied fun _ _ _ _ => rfl
  unfold State.issuerFail
  dsimp only
  cases i with
  | thread e t _ _ _ _ =>
    have h1 : State.Agree SliceState.remote s (s.onSl sl fun x => x.stopThread e t) := .onSl fun _ => rfl
    exact h1.trans (.endThreadWith (fun _ _ => rfl) (fun _ _ _ _ => rfl) fun _ _ _ _ => rfl)
  | halted u => exact .ite (State.Agree.trans (htied s u _ _) (.of_slices rfl)) (htied s u _ _)
  | coll run id frame => exact .endInstance s sl id frame st _ none
  | load _ => exact .of_slices rfl
  | none => exact .refl _
  | _ =>
    dsimp only
    split
    · exact htied s _ _ _
    · exact .refl _

end Sys2Proof.Machine
end

section
/-! Multicast outcomes and the owners of regions. -/

namespace Sys2Proof.Machine

/-! ### The outcome of a multicast write -/

/-- The message of a multicast that is still under way. -/
def State.mcastMsg (s : State) (sl : Nat) (k : McastMsg) : Option OutMsg :=
  (s.sl sl).fabric.outMsgs.find? fun m => m.group == some k.group && m.msgId == k.msgId

/-- The device once a multicast is no longer under way. -/
def State.mcastGone (s : State) (sl : Nat) (k : McastMsg) : State :=
  let t := s.onSl sl fun x => { x with remote := { x.remote with mcast := x.remote.mcast.filter fun o => !(o.group == k.group && o.msgId == k.msgId) } }
  (s.mcastMsg sl k).elim t fun m => (t.windowAnswer sl m k.echo).dropOut sl m

/-- Who waits for a multicast, and where it went. -/
def State.mcastIssuer (s : State) (sl : Nat) (k : McastMsg) : Issuer := (s.mcastMsg sl k).elim .none fun m => m.issuer
def State.mcastDst (s : State) (sl : Nat) (k : McastMsg) : Place := (s.mcastMsg sl k).elim default fun m => m.dst

/-- The members that have not completed a multicast. -/
def McastMsg.missing (k : McastMsg) : List (Place × Option Nat) := k.members.filter fun e => e.2 != some 0

/-- The device with a multicast counted as partial, where some member completed it. -/
def State.countPartial (s : State) (sl : Nat) (k : McastMsg) : State :=
  if 0 < k.members.length - k.missing.length then s.onSl sl fun x => { x with remote := { x.remote with mcastPartial := x.remote.mcastPartial + 1 } } else s

/-- The requests that a multicast serves. -/
def McastMsg.serves (k : McastMsg) (r : Request) : Bool := r.isCtx k.ctx && r.frame == k.frame

theorem execMcastComplete_eq {s : State} {sl : SliceId} {k : McastMsg} (h : (s.sl sl).remote.mcast = [k]) :
    exec (.mcastComplete sl k.group k.msgId) s =
      if k.members.any fun e => e.2.isNone then .next s
      else if k.missing.isEmpty then .next ((s.mcastGone sl k).answered sl (s.mcastIssuer sl k) (s.mcastDst sl k))
      else if k.ctx = 255 then .next ((((s.mcastGone sl k).countPartial sl k).report sl (mkReport 0x0F 0 0)).answered sl (s.mcastIssuer sl k) (s.mcastDst sl k))
      else if 0 < k.members.length - k.missing.length then
        .next ((((s.mcastGone sl k).countPartial sl k).onAll fun x => x.onReqs fun r => if k.serves r then
          r.addPartials (k.missing.map fun e => partialEntry e.1 (e.2.getD 0) k.group) else r).answered sl (s.mcastIssuer sl k) (s.mcastDst sl k))
      else .next ((((s.mcastGone sl k).countPartial sl k).eachSlice fun w i =>
          w.endNext i k.serves (Status.ofCode ((k.missing.map fun e => e.2.getD 0).foldl min 255))).issuerFail sl (s.mcastIssuer sl k)
        (Status.ofCode ((k.missing.map fun e => e.2.getD 0).foldl min 255))) := by
  have hf : (s.sl sl).remote.mcast.find? (fun o => o.group == k.group && o.msgId == k.msgId) = some k := by
    rw [h]
    exact List.find?_cons_of_pos (by simp)
  show execMcastComplete sl k.group k.msgId s = _
  unfold execMcastComplete State.mcastGone State.mcastIssuer State.mcastDst State.mcastMsg
  rw [hf]
  dsimp only
  cases (s.sl sl).fabric.outMsgs.find? fun m => m.group == some k.group && m.msgId == k.msgId <;> rfl

theorem State.Agree.windowAnswer {s : State} {sl : Nat} {m : OutMsg} {c : Bool} : State.Agree SliceState.asked s (s.windowAnswer sl m c) := by
  unfold State.windowAnswer State.setSrcFlow
  exact .ite (.comp (.onSl fun _ => rfl) (.onSl fun _ => rfl)) (.refl _)

/-- A multicast that is no longer under way leaves the requests and what waits to be sent. -/
theorem State.mcastGone_spec {s : State} (hs : s.Inv) {sl : SliceId} {k : McastMsg} (h : (s.sl sl).remote.mcast = [k]) :
    State.Agree SliceState.svc s (s.mcastGone sl k) ∧ ((s.mcastGone sl k).sl sl).remote = { (s.sl sl).remote with mcast := [] } ∧
      ((s.mcastGone sl k).sl sl).fabric.windowed = (s.sl sl).fabric.windowed ∧ s.Keeps (s.mcastGone sl k) := by
  unfold State.mcastGone
  dsimp only
  generalize ht : (s.onSl sl fun x => { x with remote := { x.remote with mcast := x.remote.mcast.filter fun o => !(o.group == k.group && o.msgId == k.msgId) } }) = t
  have hsvc : State.Agree SliceState.svc s t := ht ▸ .onSl fun _ => rfl
  have hkeep : s.Keeps t := ht ▸ .onSl _ _ fun _ h => .update h rfl rfl rfl
  have hsl : t.sl sl = { s.sl sl with remote := { (s.sl sl).remote with mcast := [] } } := by
    rw [← ht, State.onSl_sl_self _ _ _ (hs.slices_lt sl), h]
    have hno : [k].filter (fun o => !(o.group == k.group && o.msgId == k.msgId)) = [] := by simp
    rw [hno]
  have hu : State.Agree SliceState.asked t ((s.mcastMsg sl k).elim t fun m => (t.windowAnswer sl m k.echo).dropOut sl m) := by
    cases s.mcastMsg sl k with
    | none => exact .refl t
    | some m => exact .comp (.onSl fun _ => rfl) .windowAnswer
  have hk : t.Keeps ((s.mcastMsg sl k).elim t fun m => (t.windowAnswer sl m k.echo).dropOut sl m) := by
    cases s.mcastMsg sl k with
    | none => exact .refl t
    | some m => exact .comp (.dropOut ..) (.windowAnswer ..)
  generalize (s.mcastMsg sl k).elim t (fun m => (t.windowAnswer sl m k.echo).dropOut sl m) = u at hu hk
  refine ⟨fun i => (congrArg (fun p => p.1) (hu i)).trans (hsvc i), ?_, ?_, hkeep.trans hk⟩
  · rw [show (u.sl sl).remote = (t.sl sl).remote from congrArg (fun p => p.2.1) (hu sl), hsl]
  · rw [show (u.sl sl).fabric.windowed = (t.sl sl).fabric.windowed from congrArg (fun p => p.2.2) (hu sl), hsl]

/-- A multicast counted as partial keeps everything but that count. -/
theorem State.countPartial_spec {s : State} (hs : s.Inv) (sl : SliceId) (k : McastMsg) :
    State.Agree SliceState.svc s (s.countPartial sl k) ∧ ((s.countPartial sl k).sl sl).fabric.windowed = (s.sl sl).fabric.windowed ∧
      ((s.countPartial sl k).sl sl).remote.mcast = (s.sl sl).remote.mcast ∧
      ((s.countPartial sl k).sl sl).remote.mcastPartial = (if 0 < k.members.length - k.missing.length then (s.sl sl).remote.mcastPartial + 1 else (s.sl sl).remote.mcastPartial) ∧
      s.Keeps (s.countPartial sl k) := by
  unfold State.countPartial
  split
  · refine ⟨.onSl fun _ => rfl, ?_, ?_, ?_, .onSl _ _ fun _ h => .update h rfl rfl rfl⟩ <;> rw [State.onSl_sl_self _ _ _ (hs.slices_lt sl)]
  · exact ⟨.refl s, rfl, rfl, rfl, .refl s⟩

theorem McastMsg.missing_nil {k : McastMsg} : k.missing.isEmpty = true ↔ ∀ e ∈ k.members, e.2 = some 0 := by
  unfold McastMsg.missing
  rw [List.isEmpty_iff, List.filter_eq_nil_iff]
  simp only [bne_iff_ne, ne_eq, not_not]

/-- Some member completed the multicast. -/
theorem McastMsg.done_pos {k : McastMsg} : 0 < k.members.length - k.missing.length ↔ ∃ e ∈ k.members, e.2 = some 0 := by
  have h := List.length_eq_length_filter_add (l := k.members) fun e => e.2 != some 0
  unfold McastMsg.missing
  have hpos : 0 < (k.members.filter fun e => !(e.2 != some 0)).length ↔ ∃ e ∈ k.members, e.2 = some 0 := by
    rw [List.length_pos_iff_exists_mem]
    simp only [List.mem_filter, bne, Bool.not_not, beq_iff_eq]
  rw [← hpos]
  omega

theorem State.onAll_reqs {s : State} (f : Request → Request) (i : SliceId) (hs : s.Inv) :
    ((s.onAll fun x => x.onReqs f).sl i).svc.reqs = (s.sl i).svc.reqs.map f := by
  rw [State.onAll_sl _ _ (hs.slices_lt i)]
  rfl

theorem McastMsg.unanswered_iff {k : McastMsg} : ¬ (k.members.any fun e => e.2.isNone) = true ↔ ∀ e ∈ k.members, e.2.isSome = true := by
  rw [List.any_eq_true]
  simp only [not_exists, not_and, Option.isNone_iff_eq_none, Option.isSome_iff_ne_none]

theorem McastMsg.serves_iff {k : McastMsg} {r : Request} : k.serves r = true ↔ r.cmd.ctx = k.ctx ∧ r.frame = k.frame := by
  unfold McastMsg.serves Request.isCtx
  rw [Bool.and_eq_true, beq_iff_eq, beq_iff_eq]

section
variable {s : State} {sl : SliceId} {k : McastMsg} (hs : s.Inv) (hk : (s.sl sl).remote.mcast = [k]) (hw : (s.sl sl).fabric.windowed = [])
include hs hk hw

/-- The outcome of a multicast that every member answered. -/
theorem execMcastComplete_done (h : ∀ e ∈ k.members, e.2 = some 0) : ∃ t : State, exec (.mcastComplete sl k.group k.msgId) s = .next t ∧
    (t.sl sl).remote.mcast = [] ∧ (t.sl sl).remote.mcastPartial = (s.sl sl).remote.mcastPartial ∧ (t.sl sl).svc.reqs = (s.sl sl).svc.reqs := by
  have hany : ¬ (k.members.any fun e => e.2.isNone) = true := by
    rw [List.any_eq_true]
    rintro ⟨e, he, hn⟩
    rw [h e he] at hn
    cases hn
  obtain ⟨h1, h2, h3, -⟩ := State.mcastGone_spec hs hk
  have h4 := State.answered_agree (h3.trans hw) (s.mcastIssuer sl k) (s.mcastDst sl k) sl
  have hrem : ((s.mcastGone sl k).answered sl (s.mcastIssuer sl k) (s.mcastDst sl k) |>.sl sl).remote = _ := (congrArg (fun p => p.2.1) h4).trans h2
  refine ⟨_, (execMcastComplete_eq hk).trans ((if_neg hany).trans (if_pos (McastMsg.missing_nil.2 h))), ?_, ?_, ?_⟩
  · rw [hrem]
  · rw [hrem]
  · exact congrArg Service.reqs ((congrArg (fun p => p.1) h4).trans (h1 sl))

/-- What every outcome of a multicast with a member missing starts from. -/
theorem State.mcastMissed : ∃ v : State, (s.mcastGone sl k).countPartial sl k = v ∧ v.Inv ∧ State.Agree SliceState.svc s v ∧ (v.sl sl).fabric.windowed = [] ∧
    (v.sl sl).remote.mcast = [] ∧ v.now = s.now ∧
    (v.sl sl).remote.mcastPartial = if 0 < k.members.length - k.missing.length then (s.sl sl).remote.mcastPartial + 1 else (s.sl sl).remote.mcastPartial := by
  obtain ⟨h1, h2, h3, h4⟩ := State.mcastGone_spec hs hk
  obtain ⟨k1, k2, k3, k4, k5⟩ := State.countPartial_spec (h4.2 hs) sl k
  refine ⟨_, rfl, k5.2 (h4.2 hs), h1.trans k1, k2.trans (h3.trans hw), k3.trans (by rw [h2]), ?_, k4.trans (by rw [h2])⟩
  have hgone : (s.mcastGone sl k).now = s.now := by
    unfold State.mcastGone
    cases s.mcastMsg sl k with
    | none => rfl
    | some m =>
      show (State.windowAnswer _ sl m k.echo).now = s.now
      unfold State.windowAnswer
      dsimp only
      split <;> rfl
  unfold State.countPartial
  split <;> exact hgone

theorem execMcastComplete_partial (hall : ∀ e ∈ k.members, e.2.isSome = true) (hdone : ∃ e ∈ k.members, e.2 = some 0) (hmiss : ∃ e ∈ k.members, e.2 ≠ some 0)
    (hc : k.ctx < 255) : ∃ t : State, exec (.mcastComplete sl k.group k.msgId) s = .next t ∧
      (t.sl sl).remote.mcastPartial = (s.sl sl).remote.mcastPartial + 1 ∧ ∀ (i : SliceId), ∀ r ∈ (s.sl i).svc.reqs, r.cmd.ctx = k.ctx → r.frame = k.frame →
        r.addPartials (k.missing.map fun e => partialEntry e.1 (e.2.getD 0) k.group) ∈ (t.sl i).svc.reqs := by
  obtain ⟨v, hv, hi, hsvc, hwin, -, -, hpart⟩ := State.mcastMissed hs hk hw
  have hpos := McastMsg.done_pos.2 hdone
  have hexec := execMcastComplete_eq hk
  rw [if_neg (McastMsg.unanswered_iff.2 hall), if_neg (mt McastMsg.missing_nil.1 (by simpa using hmiss)), if_neg (by omega), if_pos hpos, hv] at hexec
  generalize hu : (v.onAll fun x => x.onReqs fun r => if k.serves r then r.addPartials (k.missing.map fun e => partialEntry e.1 (e.2.getD 0) k.group) else r) = u at hexec
  have husl (i : SliceId) : u.sl i = (v.sl i).onReqs fun r => if k.serves r then r.addPartials (k.missing.map fun e => partialEntry e.1 (e.2.getD 0) k.group) else r := by
    rw [← hu, State.onAll_sl _ _ (hi.slices_lt i)]
  have hans := State.answered_agree (s := u) (sl := sl) (by rw [husl]; exact hwin) (s.mcastIssuer sl k) (s.mcastDst sl k)
  refine ⟨_, hexec, ?_, fun i r hr hc hf => ?_⟩
  · rw [show ((u.answered sl (s.mcastIssuer sl k) (s.mcastDst sl k)).sl sl).remote = (u.sl sl).remote from congrArg (fun p => p.2.1) (hans sl), husl]
    exact hpart.trans (if_pos hpos)
  · rw [show ((u.answered sl (s.mcastIssuer sl k) (s.mcastDst sl k)).sl i).svc = (u.sl i).svc from congrArg (fun p => p.1) (hans i), husl]
    have hm := List.mem_map_of_mem (f := fun r : Request => if k.serves r then r.addPartials (k.missing.map fun e => partialEntry e.1 (e.2.getD 0) k.group) else r)
      ((hsvc i).symm ▸ hr : r ∈ (v.sl i).svc.reqs)
    rwa [if_pos (McastMsg.serves_iff.2 ⟨hc, hf⟩)] at hm

theorem execMcastComplete_unowned (hc : k.ctx = 255) (hall : ∀ e ∈ k.members, e.2.isSome = true) (hmiss : ∃ e ∈ k.members, e.2 ≠ some 0) :
    ∃ t : State, exec (.mcastComplete sl k.group k.msgId) s = .next t ∧ (t.sl sl).remote.mcast = [] ∧ (t.sl sl).svc.reqs = (s.sl sl).svc.reqs := by
  obtain ⟨v, hv, hi, hsvc, hwin, hmc, -, -⟩ := State.mcastMissed hs hk hw
  have hexec := execMcastComplete_eq hk
  rw [if_neg (McastMsg.unanswered_iff.2 hall), if_neg (mt McastMsg.missing_nil.1 (by simpa using hmiss)), if_pos hc, hv] at hexec
  have hrep : State.Agree SliceState.asked v (v.report sl (mkReport 0x0F 0 0)) := .report fun _ _ => rfl
  generalize v.report sl (mkReport 0x0F 0 0) = u at hexec hrep
  have hans := hrep.trans (State.answered_agree (s := u) (sl := sl) ((congrArg (fun p => p.2.2) (hrep sl)).trans hwin) (s.mcastIssuer sl k) (s.mcastDst sl k))
  exact ⟨_, hexec, (congrArg (fun p => p.2.1.mcast) (hans sl)).trans hmc, congrArg Service.reqs ((congrArg (fun p => p.1) (hans sl)).trans (hsvc sl))⟩

theorem execMcastComplete_failed (hne : k.members ≠ []) (hall : ∀ e ∈ k.members, e.2.isSome = true ∧ e.2 ≠ some 0) (hc : k.ctx < 255) :
    ∃ t : State, exec (.mcastComplete sl k.group k.msgId) s = .next t ∧ (t.sl sl).remote.mcastPartial = (s.sl sl).remote.mcastPartial ∧
      ∀ (i : SliceId), ∀ r ∈ (s.sl i).svc.reqs, r.cmd.ctx = k.ctx → r.frame = k.frame → ∃ v ∈ (t.sl i).svc.reqs, v.slot = r.slot ∧
        ⟨s.now, s.now.plus 1, Status.ofCode ((k.members.map fun e => e.2.getD 0).foldl min 255), 0xFF⟩ ∈ v.conds := by
  obtain ⟨v, hv, hi, hsvc, -, -, hnow, hpart⟩ := State.mcastMissed hs hk hw
  have hmis : k.missing = k.members := List.filter_eq_self.2 fun e he => bne_iff_ne.2 (hall e he).2
  have hpos : ¬ 0 < k.members.length - k.missing.length := by rw [hmis]; omega
  have hexec := execMcastComplete_eq hk
  rw [if_neg (McastMsg.unanswered_iff.2 fun e he => (hall e he).1), if_neg (by rw [hmis, List.isEmpty_iff]; exact hne), if_neg (by omega), if_neg hpos,
    hv, hmis] at hexec
  generalize Status.ofCode ((k.members.map fun e => e.2.getD 0).foldl min 255) = st at hexec ⊢
  have hend : State.Agree SliceState.remote v (v.eachSlice fun w i => w.endNext i k.serves st) := .eachSlice (fun _ _ => .endReqs fun _ _ _ _ => rfl) v
  have hgiven (i : SliceId) : ∀ r ∈ (v.sl i).svc.reqs, k.serves r = true →
      ∃ q ∈ ((v.eachSlice fun w i => w.endNext i k.serves st).sl i).svc.reqs, q.slot = r.slot ∧ ⟨s.now, s.now.plus 1, st, 0xFF⟩ ∈ q.conds := by
    intro r hr hsv
    have hreqs := State.eachSlice_at (I := fun w : State => w.Inv ∧ w.now = s.now) (f := fun w i => w.endNext i k.serves st) (π := fun x => x.svc.reqs)
      (P := fun _ l => l.map fun r => Request.settled s.now (if k.serves r then r.given ⟨s.now, s.now.plus 1, st, 0xFF⟩ else r))
      (fun w i h => ⟨(State.Keeps.endNext ..).2 h.1, h.2⟩) (fun w i h hi => ?_) (fun w i j hj => by rw [State.endNext, State.endReqs, State.onSl_sl_of_ne _ _ hj])
      ⟨hi, hnow⟩ i
    · have hm := List.mem_map_of_mem (f := fun r : Request => Request.settled s.now (if k.serves r then r.given ⟨s.now, s.now.plus 1, st, 0xFF⟩ else r)) hr
      rw [if_pos hsv] at hm
      refine ⟨Request.settled s.now (r.given ⟨s.now, s.now.plus 1, st, 0xFF⟩), by rw [hreqs]; exact hm, Request.settled_slot .., ?_⟩
      rw [Request.settled_conds]
      exact List.mem_append_right _ List.mem_cons_self
    · rw [State.endNext, State.endReqs_reqs (h.1.slices_lt ⟨i, hi⟩), h.2]
  generalize (v.eachSlice fun w i => w.endNext i k.serves st) = u at hexec hend hgiven
  have hfail : State.Agree SliceState.remote u (u.issuerFail sl (s.mcastIssuer sl k) st) := .issuerFail
  refine ⟨_, hexec, (congrArg Remote.mcastPartial (hend.trans hfail sl)).trans (hpart.trans (if_neg hpos)), fun i r hr hc hf => ?_⟩
  obtain ⟨q, hq, hqs, hqc⟩ := hgiven i r (by rw [hsvc]; exact hr) (McastMsg.serves_iff.2 ⟨hc, hf⟩)
  obtain ⟨w, hw, h1, h2⟩ := (State.Grows.issuerFail (s := u) sl (s.mcastIssuer sl k) st).reqs i q hq
  exact ⟨w, hw, h1.trans hqs, h2 _ hqc⟩

end

/-! ### The owner of a region -/

theorem SliceState.region_eq (x : SliceState) (n : Nat) : x.region n = (x.remote.regions.find? fun r => r.1 == n).elim {} fun r => r.2 := by
  unfold SliceState.region
  cases x.remote.regions.find? fun r => r.1 == n <;> rfl

theorem SliceState.onRegion_region (x : SliceState) (n : Nat) (f : RegionEntry → RegionEntry) :
    (x.onRegion n f).region n = if x.remote.regions.any (fun r => r.1 == n) then f (x.region n) else {} := by
  rw [SliceState.region_eq, SliceState.region_eq]
  unfold SliceState.onRegion
  dsimp only
  induction x.remote.regions with
  | nil => rfl
  | cons r l ih =>
    by_cases h : (r.1 == n) = true
    · rw [List.map_cons, if_pos h, List.find?_cons_of_pos (p := fun r : Nat × RegionEntry => r.1 == n) (a := (r.1, f r.2)) h,
        List.find?_cons_of_pos (p := fun r : Nat × RegionEntry => r.1 == n) h, List.any_cons, h]
      rfl
    · rw [List.map_cons, if_neg h, List.find?_cons_of_neg (p := fun r : Nat × RegionEntry => r.1 == n) h, List.find?_cons_of_neg (p := fun r : Nat × RegionEntry => r.1 == n) h, List.any_cons,
        Bool.eq_false_of_not_eq_true h, Bool.false_or, ih]

/-- A region that stands in the table, where it is valid. -/
theorem SliceState.region_valid {x : SliceState} {n : Nat} (h : (x.region n).valid = true) : x.remote.regions.any (fun r => r.1 == n) = true := by
  unfold SliceState.region at h
  split at h
  · next r hr => exact List.any_eq_true.2 ⟨r, List.mem_of_find?_eq_some hr, List.find?_some (p := fun r : Nat × RegionEntry => r.1 == n) hr⟩
  · cases h

/-- Every stage of the number and frame start has ended so. -/
theorem SliceState.endRun_ends (x : SliceState) (u : Run) (st : RunState) : ∀ w ∈ (x.endRun u st).runs, w.idx = u.idx → w.frame = u.frame → w.st = st := by
  intro w hw hi hf
  obtain ⟨z, -, rfl⟩ := List.mem_map.1 hw
  dsimp only at hi hf ⊢
  split
  · rfl
  · next hc =>
    rw [if_neg hc] at hi hf
    exact absurd (by simp [hi, hf]) hc

theorem execHandoffStage_moves {s v : State} {sl : SliceId} {i : Nat} {u : Run} (hact : s.actingRun sl i .handoff = some (u, v))
    (hv : ((v.sl sl).region u.entry.f.region).valid = true) (hp : ((v.sl sl).region u.entry.f.region).pending = false) :
    exec (.handoffStage sl i) s =
      .next (v.onSl sl fun x => (x.onRegion u.entry.f.region fun r => { r with ownerNode := u.entry.f.newOwner }).completeRun u) := by
  show execHandoffStage sl i s = _
  unfold execHandoffStage
  rw [hact]
  exact if_pos (by rw [hv, hp]; rfl)

theorem execHandoffStage_missed {s v : State} {sl : SliceId} {i : Nat} {u : Run} (hact : s.actingRun sl i .handoff = some (u, v))
    (h : ((v.sl sl).region u.entry.f.region).valid = false ∨ ((v.sl sl).region u.entry.f.region).pending = true) :
    ∃ t : State, exec (.handoffStage sl i) s = .next t ∧
      State.Agree (fun x => (x.remote, x.runs)) (v.onSl sl fun x => (x.onRegion u.entry.f.region fun r => { r with pending := false }).endRun u .missed) t ∧
      t.time.stageMisses = v.time.stageMisses + 1 := by
  generalize hw : (v.onSl sl fun x => (x.onRegion u.entry.f.region fun r => { r with pending := false }).endRun u .missed) = w
  refine ⟨{ w.report sl (mkReport 0x01 10 0 0 u.entry.ctx) with time := { w.time with stageMisses := w.time.stageMisses + 1 } }, ?_,
    .trans (.report (i := sl) (r := mkReport 0x01 10 0 0 u.entry.ctx) fun _ _ => rfl) (.of_slices rfl), hw ▸ rfl⟩
  show execHandoffStage sl i s = _
  unfold execHandoffStage
  rw [hact, ← hw]
  exact if_neg (by rcases h with h | h <;> rw [h] <;> simp)

/-- Settles O41, command by command. -/
theorem multicastAndOwnership : Obligations.MulticastAndOwnership := by
  unfold Obligations.MulticastAndOwnership
  intro s sl hs x
  refine ⟨fun k hk hw => ⟨fun h => ?_, execMcastComplete_done hs hk hw, execMcastComplete_partial hs hk hw, execMcastComplete_unowned hs hk hw,
    execMcastComplete_failed hs hk hw⟩, fun n e he hv hp hd => ?_, fun n h => if_neg ?_, fun i u v hact => ⟨fun hv hp => ?_, fun h => ?_⟩⟩
  · obtain ⟨e, he, hn⟩ := h
    exact (execMcastComplete_eq hk).trans (if_pos (List.any_eq_true.2 ⟨e, he, by rw [hn]; rfl⟩))
  · have hr : (s.sl sl).region n = e := by
      unfold SliceState.region
      rw [he, List.find?_cons_of_pos (by simp)]
    refine (if_pos (by rw [hr, hv, hp, hd]; rfl) : execOwnershipMove sl n s = _).trans (congrArg Host.Outcome.next (State.onSl_congr ?_))
    unfold SliceState.onRegion
    rw [he]
    simp
  · rcases h with h | h | h <;> simp [x, h]
  all_goals
    have hrem : (v.sl sl).remote = x.remote := State.actingRun_agree (π := SliceState.remote) (fun _ _ => rfl) hact sl
    have hreg : (v.sl sl).region u.entry.f.region = x.region u.entry.f.region := by
      rw [SliceState.region_eq, SliceState.region_eq, hrem]
    have hlen := ((State.Keeps.actingRun hact).2 hs).slices_lt sl
  · have hgo : ((v.sl sl).region u.entry.f.region).valid = true ∧ ((v.sl sl).region u.entry.f.region).pending = false := by rw [hreg]; exact ⟨hv, hp⟩
    refine ⟨_, execHandoffStage_moves hact hgo.1 hgo.2, ?_, ?_⟩ <;> rw [State.onSl_sl_self _ _ _ hlen]
    · rw [SliceState.region_eq, SliceState.completeRun_agree (π := SliceState.remote) (fun _ _ => rfl) (fun _ _ _ _ => rfl), ← SliceState.region_eq,
        SliceState.onRegion_region, if_pos (SliceState.region_valid hgo.1)]
    · exact SliceState.completeRun_completes _ u
  · have hno : ((v.sl sl).region u.entry.f.region).valid = false ∨ ((v.sl sl).region u.entry.f.region).pending = true := by rw [hreg]; exact h
    obtain ⟨t, ht, h1, h2⟩ := execHandoffStage_missed hact hno
    have htime : v.time = s.time := by
      obtain ⟨-, -, -, ⟨-, -, rfl⟩ | ⟨w, -, -, -, -, rfl⟩⟩ := State.actingRun_cases hact <;> rfl
    have h4 : (t.sl sl).remote = _ := congrArg (fun p => p.1) (h1 sl)
    have h5 : (t.sl sl).runs = _ := congrArg (fun p => p.2) (h1 sl)
    have h3 : (t.sl sl).region u.entry.f.region = ((v.sl sl).onRegion u.entry.f.region fun r => { r with pending := false }).region u.entry.f.region := by
      rw [SliceState.region_eq, h4, State.onSl_sl_self _ _ _ hlen]
      exact (SliceState.region_eq ..).symm
    refine ⟨t, ht, ?_, h2.trans (by rw [htime]), ?_⟩
    · rw [h3, SliceState.onRegion_region]
      split <;> rfl
    · rw [h5, State.onSl_sl_self _ _ _ hlen]
      exact SliceState.endRun_ends _ u .missed

end Sys2Proof.Machine
end

section
/-! The messages that a slice has under way. -/

namespace Sys2Proof.Machine

/-! ### The messages that a slice has under way -/

/-- What routing a packet shows of a slice. -/
theorem State.Routes.shows {s t : State} {β : Type} {π : SliceState → β} (h : s.Routes t) (hπ : ∀ x, π x.core = π x) : State.Agree π s t := fun i =>
  (hπ _).symm.trans ((congrArg π (h.agree i)).trans (hπ _))

/-- What sending a message shows of a slice. -/
theorem State.Sends.shows {s t : State} {β : Type} {π : SliceState → β} (h : s.Sends t) (hπ : ∀ x, π x.sendCore = π x) : State.Agree π s t := fun i =>
  (hπ _).symm.trans ((congrArg π (h.agree i)).trans (hπ _))

/-- The messages of a slice: how many are unanswered and how many wait, and how many it has given up. -/
def SliceState.sending (x : SliceState) : Nat × Nat × Nat := (x.fabric.outMsgs.length, x.fabric.windowed.length, x.fabric.giveups)

theorem SliceState.sending_none {x y : SliceState} (h : x.sending = y.sending) :
    (y.fabric.outMsgs = [] → x.fabric.outMsgs = []) ∧ (y.fabric.windowed = [] → x.fabric.windowed = []) ∧ x.fabric.giveups = y.fabric.giveups := by
  obtain ⟨h1, h2⟩ := Prod.mk.inj h
  obtain ⟨h3, h4⟩ := Prod.mk.inj h2
  refine ⟨fun h => List.length_eq_zero_iff.1 ?_, fun h => List.length_eq_zero_iff.1 ?_, h4⟩
  · rw [h1, h]
    rfl
  · rw [h3, h]
    rfl

/-- The end of what waits for a message takes none from the messages of the slice. -/
theorem State.issuerFail_sending (s : State) (sl : Nat) (i : Issuer) (st : Status) : State.Agree SliceState.sending s (s.issuerFail sl i st) := by
  have htied (v : State) (u : Run) (a b : Drip) : State.Agree SliceState.sending v (v.endTied sl u a b st) := .endTied fun _ _ _ _ => rfl
  have hinst (v : State) (id : Nat) (f given : Drip) : State.Agree SliceState.sending v (v.endInstance sl id f st given none) := by
    rcases State.endInstance_agree (π := SliceState.sending) (fun _ _ _ => rfl) (fun _ _ _ => rfl) v sl id f st given none with h | ⟨t, l, a, h1, h2⟩
    · rw [h]
      exact .refl v
    · rw [h2]
      exact .comp (.foldl (fun _ _ => .endTied fun _ _ _ _ => rfl) _ _) h1
  have hstop (e t : Nat) : State.Agree SliceState.sending s (s.onSl sl fun x => x.stopThread e t) := .onSl fun x => by
    show (List.length (List.map _ _), List.length (List.map _ _), _) = _
    rw [List.length_map, List.length_map]
    rfl
  unfold State.issuerFail
  dsimp only
  cases i with
  | thread e t _ _ _ _ => exact (hstop e t).trans (.endThreadWith (fun _ _ => rfl) (fun _ _ _ _ => rfl) fun _ _ _ _ => rfl)
  | halted u => exact .ite (State.Agree.trans (htied s u _ _) (.of_slices rfl)) (htied s u _ _)
  | coll run id frame => exact hinst s id frame _
  | load _ => exact .of_slices rfl
  | none => exact .refl _
  | _ =>
    dsimp only
    split
    · exact htied s _ _ _
    · exact .refl _

/-- The one message of a slice is that of an answer, settled or not. -/
def State.Awaits (s : State) (sl : Nat) (m : OutMsg) : Prop := ∃ b, (s.sl sl).fabric.outMsgs = [{ m with settled := b }]

theorem OutMsg.is_self (m : OutMsg) : m.is m.dst m.group = true := by
  unfold OutMsg.is
  rw [beq_self_eq_true, beq_self_eq_true]
  rfl

/-- The window's answer leaves the one message under way, and nothing that waits. -/
theorem State.windowAnswer_awaits {s : State} {sl : Nat} (hi : sl < s.slices.length) {m : OutMsg} (h : s.Awaits sl m) (c : Bool) :
    (s.windowAnswer sl m c).Awaits sl m ∧ ((s.windowAnswer sl m c).sl sl).fabric.windowed = (s.sl sl).fabric.windowed ∧
      ((s.windowAnswer sl m c).sl sl).fabric.giveups = (s.sl sl).fabric.giveups ∧
      ((s.windowAnswer sl m c).sl sl).fabric.retransmits = (s.sl sl).fabric.retransmits := by
  unfold State.windowAnswer State.setSrcFlow
  dsimp only
  split
  · rw [State.Awaits, State.onSl_sl_self _ _ _ (by rw [State.onSl_length]; exact hi), State.onSl_sl_self _ _ _ hi]
    obtain ⟨b, hb⟩ := h
    refine ⟨⟨true, ?_⟩, rfl, rfl, rfl⟩
    show List.map _ (s.sl sl).fabric.outMsgs = _
    rw [hb, List.map_singleton, if_pos (Bool.and_eq_true .. ▸ ⟨m.is_self, beq_self_eq_true m.msgId⟩)]
  · exact ⟨h, rfl, rfl, rfl⟩

theorem State.dropOut_spec {s : State} {sl : Nat} (hi : sl < s.slices.length) {m : OutMsg} (h : s.Awaits sl m) :
    ((s.dropOut sl m).sl sl).fabric.outMsgs = [] ∧ ((s.dropOut sl m).sl sl).fabric.windowed = (s.sl sl).fabric.windowed ∧
      ((s.dropOut sl m).sl sl).fabric.giveups = (s.sl sl).fabric.giveups := by
  unfold State.dropOut
  rw [State.onSl_sl_self _ _ _ hi]
  obtain ⟨b, hb⟩ := h
  refine ⟨?_, rfl, rfl⟩
  show List.eraseP _ (s.sl sl).fabric.outMsgs = []
  rw [hb]
  exact List.eraseP_cons_of_pos (Bool.and_eq_true .. ▸ ⟨m.is_self, beq_self_eq_true m.msgId⟩)

/-- Routing leaves the one message under way. -/
theorem State.Routes.awaits {s t : State} (h : s.Routes t) {sl : Nat} {m : OutMsg} (ha : s.Awaits sl m) : t.Awaits sl m := by
  obtain ⟨b, hb⟩ := ha
  exact ⟨b, (h.shows (π := fun x => x.fabric.outMsgs) (fun _ => rfl) sl).trans hb⟩

/-- A message fails: it is under way no more. -/
theorem State.failMsg_spec {s : State} (hs : s.Inv) (sl : SliceId) {m : OutMsg} (h : s.Awaits sl m) (hw : (s.sl sl).fabric.windowed = []) (st : Status) :
    ((s.failMsg sl m st).sl sl).fabric.outMsgs = [] ∧ ((s.failMsg sl m st).sl sl).fabric.giveups = (s.sl sl).fabric.giveups ∧
      s.failMsg sl m st = ((s.dropOut sl m).countUnknown sl st).issuerFail sl m.issuer st := by
  obtain ⟨h1, h2, h3⟩ := State.dropOut_spec (hs.slices_lt sl) h
  have hcount : State.Agree SliceState.sending (s.dropOut sl m) ((s.dropOut sl m).countUnknown sl st) := by
    unfold State.countUnknown
    exact .ite (.onSl fun _ => rfl) (.refl _)
  obtain ⟨k1, k2, k3⟩ := SliceState.sending_none ((hcount.trans (State.issuerFail_sending _ sl m.issuer st)) sl)
  have heq : s.failMsg sl m st = ((s.dropOut sl m).countUnknown sl st).issuerFail sl m.issuer st := State.releaseHeld_none (k2 (h2.trans hw)) m.dst
  rw [heq]
  exact ⟨k1 h1, k3.trans h3, rfl⟩

theorem State.Agree.detectLoss (s : State) (node mask : Nat) : State.Agree SliceState.core s (s.detectLoss node mask) := by
  unfold State.detectLoss
  split
  · exact .refl s
  · dsimp only
    exact .ite (.refl s) (.comp (.foldl (fun v n => .ite (.refl v) (State.Routes.sendCtrl ..).agree) _ _) (.of_slices rfl))

end Sys2Proof.Machine
end

section
/-! Answers, retries and messages given up. -/

namespace Sys2Proof.Machine

/-! ### An answer is taken -/

theorem State.dropOut_agree {β : Type} {π : SliceState → β} (h : ∀ x f, π { x with fabric := f } = π x) {s : State} {sl : Nat} {m : OutMsg} :
    State.Agree π s (s.dropOut sl m) := .onSl fun _ => h _ _

/-- A thread that is ended is IDLE. -/
theorem State.endThreadWith_idle {s : State} (hs : s.Inv) (sl : SliceId) (e : EngineId) (t : ThreadId) (st : Status) :
    ((s.endThreadWith sl e t st).thread sl e t).st = .idle := by
  have hpart := State.Agree.endThreadWith (s := s) (i := sl) (e := e) (t := t) (st := st) (π := SliceState.threadPart e t)
    (SliceState.threadPart_wakeOn e t) (fun _ _ _ _ => rfl) (fun _ _ _ _ => rfl) sl
  rw [State.onSl_sl_self _ _ _ (hs.slices_lt sl), SliceState.threadPart_stopThread (hs.sl sl.isLt)] at hpart
  exact of_decide_eq_true (Prod.mk.inj hpart).2

section
variable {s : State} {sl : SliceId} {a : Arrival} {p : Packet} {m : OutMsg} {op : Nat}

/-- An answer in its turn, for a message under way. -/
structure State.Answers (s : State) (sl : SliceId) (a : Arrival) (p : Packet) (m : OutMsg) : Prop where
  dst : Packet.dst p = s.place sl
  ecrc : packetEcrc p = p.ecrc
  good : s.routerBad a p = false
  live : s.fromLost sl p = false
  turn : s.before sl a p = []
  msg : s.answered? sl p = some m

theorem State.receiveRsp_takes (h : s.Answers sl a p m) (ho : p.opcode = op)
    (hk : op ≠ opNACK ∧ answerOp m.op = op ∨ op = opNACK ∧ 1 ≤ p.opmod ∧ p.opmod ≤ 6) :
    s.receiveRsp sl a p op = (s.takeIngress sl a p).takeAnswer sl p m := by
  unfold State.receiveRsp
  dsimp only
  rw [if_pos (by rw [decide_eq_true ho, h.dst, h.turn]; simp), if_neg (by rw [h.good]; decide), if_neg (by rw [h.live, h.ecrc]; simp), h.msg]
  dsimp only
  rcases hk with ⟨h1, h2⟩ | ⟨h1, h2, h3⟩
  · rw [if_neg (by rw [decide_eq_false h1]; simp), if_pos (by rw [h2]; simp)]
  · have hin : ¬ (decide (op = opNACK) && (decide (p.opmod < 1) || decide (6 < p.opmod))) = true := by
      rw [decide_eq_false (Nat.not_lt.2 h2), decide_eq_false (Nat.not_lt.2 h3)]
      simp
    rw [if_neg hin, if_pos (by rw [decide_eq_true h1]; rfl)]

/-- What has become of the message before its issuer is told. -/
def State.taken (s : State) (sl : Nat) (a : Arrival) (p : Packet) (m : OutMsg) (echo : Bool) : State := (s.takeIngress sl a p).windowAnswer sl m echo

theorem State.takeAnswer_done (hg : m.group = none) (ho : p.opcode ≠ opNACK) : (s.takeIngress sl a p).takeAnswer sl p m =
    (((s.taken sl a p m p.echo).dropOut sl m).issuerDone sl m.issuer m.packets.head? m.dst p.payload).releaseHeld sl m.dst := by
  have hb : (p.opcode == opNACK) = false := beq_eq_false_iff_ne.2 ho
  unfold State.takeAnswer State.taken
  rw [hg, hb]
  dsimp only
  rw [Bool.false_and, Bool.false_and, Bool.or_false, if_neg Bool.false_ne_true, if_neg ho]

theorem State.takeAnswer_ends (hg : m.group = none) (ho : p.opcode = opNACK) (h3 : p.opmod = 3) : (s.takeIngress sl a p).takeAnswer sl p m =
    (s.taken sl a p m p.echo).failMsg sl m .protection := by
  unfold State.takeAnswer State.taken
  rw [hg, ho, h3]
  dsimp only
  have h1 : ((3 : Nat) == nackRETRY) = false := by decide
  have h2 : ((3 : Nat) == nackECRC) = false := by decide
  rw [h1, h2, Bool.or_false, Bool.and_false, Bool.or_false, if_neg Bool.false_ne_true, if_pos rfl]
  rfl

variable (hs : s.Inv) (ha : s.Awaits sl m) (hw : (s.sl sl).fabric.windowed = [])
include hs ha hw

/-- A message whose answer is taken: nothing else waits, and the threads and the memory are as they were. -/
theorem State.taken_spec (echo : Bool) : (s.taken sl a p m echo).Inv ∧ (s.taken sl a p m echo).Awaits sl m ∧
    ((s.taken sl a p m echo).sl sl).fabric.windowed = [] ∧ ((s.taken sl a p m echo).sl sl).engines = (s.sl sl).engines ∧
    ((s.taken sl a p m echo).sl sl).mem = (s.sl sl).mem := by
  have hr : s.Routes (s.takeIngress sl a p) := .takeIngress ..
  have hsend : (s.takeIngress sl a p).Sends (s.taken sl a p m echo) := .windowAnswer ..
  have hi : (s.takeIngress sl a p).Inv := (State.Keeps.takeIngress ..).2 hs
  obtain ⟨h1, h2, -, -⟩ := State.windowAnswer_awaits (hi.slices_lt sl) (hr.awaits ha) echo
  exact ⟨(State.Keeps.windowAnswer ..).2 hi, h1, h2.trans ((hr.shows (π := fun x => x.fabric.windowed) (fun _ => rfl) sl).trans hw),
    (hsend.shows (π := SliceState.engines) (fun _ => rfl) sl).trans (hr.shows (π := SliceState.engines) (fun _ => rfl) sl),
    (hsend.shows (π := SliceState.mem) (fun _ => rfl) sl).trans (hr.shows (π := SliceState.mem) (fun _ => rfl) sl)⟩

/-- An answer that ends the wait of a thread. -/
theorem State.answer_done (hg : m.group = none) (ho : p.opcode ≠ opNACK) (h : s.Answers sl a p m) (hop : answerOp m.op = p.opcode) {e : EngineId} {t : ThreadId}
    {f : Thread → Thread} (hf : ∀ v : State, v.issuerDone sl m.issuer m.packets.head? m.dst p.payload = v.onThread sl e t f) :
    ∃ u : State, s.receiveRsp sl a p p.opcode = u ∧ (u.sl sl).fabric.outMsgs = [] ∧ u.thread sl e t = f (s.thread sl e t) ∧ (u.sl sl).mem = (s.sl sl).mem := by
  obtain ⟨hi, haw, hwin, heng, hmem⟩ := State.taken_spec (a := a) (p := p) hs ha hw p.echo
  obtain ⟨h1, h2, -⟩ := State.dropOut_spec (hi.slices_lt sl) haw
  have hdi : ((s.taken sl a p m p.echo).dropOut sl m).Inv := (State.Keeps.dropOut ..).2 hi
  have hde : (((s.taken sl a p m p.echo).dropOut sl m).sl sl).engines = (s.sl sl).engines :=
    (State.dropOut_agree (π := SliceState.engines) (fun _ _ => rfl) sl).trans heng
  have hdm : (((s.taken sl a p m p.echo).dropOut sl m).sl sl).mem = (s.sl sl).mem := (State.dropOut_agree (π := SliceState.mem) (fun _ _ => rfl) sl).trans hmem
  have heq := (State.receiveRsp_takes h rfl (.inl ⟨ho, hop⟩)).trans (State.takeAnswer_done hg ho)
  generalize (s.taken sl a p m p.echo).dropOut sl m = v at h1 h2 hdi hde hdm heq
  have hon : State.Agree (fun x => (x.fabric, x.mem)) v (v.onThread sl e t f) := .onSl fun _ => rfl
  have hfab := congrArg (fun p => p.1) (hon sl)
  rw [hf, State.releaseHeld_none ((congrArg Fabric.windowed hfab).trans (h2.trans hwin))] at heq
  refine ⟨_, heq, (congrArg Fabric.outMsgs hfab).trans h1, ?_, (congrArg (fun p => p.2) (hon sl)).trans hdm⟩
  rw [State.thread_onThread hdi]
  exact congrArg (fun l : List Engine => f ((l.getD e {}).thread t)) hde

/-- A NACK that ends the thread. -/
theorem State.answer_ends (hg : m.group = none) (ho : p.opcode = opNACK) (h3 : p.opmod = 3) (h : s.Answers sl a p m) {e : EngineId} {t : ThreadId}
    {k r ad n : Nat} (hiss : m.issuer = .thread e t k r ad n) :
    ∃ u : State, s.receiveRsp sl a p opNACK = u ∧ (u.sl sl).fabric.outMsgs = [] ∧ (u.thread sl e t).st = .idle := by
  obtain ⟨hi, haw, hwin, -⟩ := State.taken_spec (a := a) (p := p) hs ha hw p.echo
  obtain ⟨h1, -, h2⟩ := State.failMsg_spec hi sl haw hwin .protection
  refine ⟨_, (State.receiveRsp_takes h ho (.inr ⟨rfl, by omega, by omega⟩)).trans (State.takeAnswer_ends hg ho h3), h1, ?_⟩
  rw [h2, hiss]
  exact State.endThreadWith_idle ((State.Keeps.countUnknown ..).2 ((State.Keeps.dropOut ..).2 hi)) sl e t .protection

end

/-! ### Messages without an answer -/

section
variable {s : State} {sl : SliceId} {m : OutMsg} (hs : s.Inv) (hm : (s.sl sl).fabric.outMsgs = [m]) (hg : m.group = none)
include hm

theorem State.awaits_of : s.Awaits sl m := ⟨m.settled, hm⟩

include hg

theorem execE2eTimeout_eq : exec (.e2eTimeout sl m.dst m.msgId) s =
    .next ((s.windowAnswer sl m true).retryOrGiveUp sl { m with settled := true }) := by
  show execE2eTimeout sl m.dst m.msgId s = _
  unfold execE2eTimeout
  dsimp only
  rw [hm, List.find?_cons_of_pos (by rw [hg]; simp)]

include hs

omit hg in
/-- A message is sent again. -/
theorem State.resent_spec (hq : s.silenced sl = false) (u : State) (hu : s.windowAnswer sl m true = u) :
    ((u.resendMsg sl { m with settled := true }).sl sl).fabric.retransmits = (s.sl sl).fabric.retransmits + 1 ∧
      ((u.resendMsg sl { m with settled := true }).sl sl).fabric.giveups = (s.sl sl).fabric.giveups ∧
      ∃ o ∈ ((u.resendMsg sl { m with settled := true }).sl sl).fabric.outMsgs, o.msgId = m.msgId ∧ o.retries = m.retries + 1 ∧ o.retxed = true ∧
        ∀ p ∈ o.packets, p.retx = true := by
  have hsend : s.Sends u := hu ▸ .windowAnswer ..
  obtain ⟨h1, h2, h3, h4⟩ := State.windowAnswer_awaits (hs.slices_lt sl) (State.awaits_of hm) true
  have hui : u.Inv := hu ▸ (State.Keeps.windowAnswer ..).2 hs
  rw [hu] at h1 h2 h3 h4
  have hquiet : u.silenced sl = false := by
    have hlost : (u.sl sl).fabric.lost = (s.sl sl).fabric.lost := hsend.shows (π := fun x => x.fabric.lost) (fun _ => rfl) sl
    unfold State.silenced State.place
    rw [hsend.pkg, hlost]
    exact hq
  have hsl := hui.slices_lt sl
  unfold State.resendMsg
  rw [hquiet, if_neg Bool.false_ne_true]
  dsimp only
  generalize hqs : m.packets.map (fun p => sealPacket { p with retx := true, epoch := u.pkg.routeActive, ttl := 31, mark := false }) = qs
  have hretx : ∀ p ∈ qs, p.retx = true := by
    intro p hp
    rw [← hqs] at hp
    obtain ⟨q, -, rfl⟩ := List.mem_map.1 hp
    rfl
  -- the flow's window and the routing of the packets leave the messages
  generalize ht : (u.onSl sl fun x => { x with fabric := { x.fabric with
      retransmits := x.fabric.retransmits + 1
      outMsgs := x.fabric.outMsgs.map fun o => if o.is m.dst m.group && o.msgId == m.msgId then
        { o with packets := qs, retries := o.retries + 1, retxed := true, settled := false } else o } }) = t
  have hmsgs : (t.sl sl).fabric.retransmits = (s.sl sl).fabric.retransmits + 1 ∧ (t.sl sl).fabric.giveups = (s.sl sl).fabric.giveups ∧
      (t.sl sl).fabric.outMsgs = [{ m with packets := qs, retries := m.retries + 1, retxed := true, settled := false }] := by
    rw [← ht, State.onSl_sl_self _ _ _ hsl]
    refine ⟨congrArg (· + 1) h4, h3, ?_⟩
    obtain ⟨b, hb⟩ := h1
    show List.map _ (u.sl sl).fabric.outMsgs = _
    rw [hb, List.map_singleton, if_pos (Bool.and_eq_true .. ▸ ⟨m.is_self, beq_self_eq_true m.msgId⟩)]
  have hflow : State.Agree (fun x => (x.fabric.retransmits, x.fabric.giveups, x.fabric.outMsgs)) t
      (qs.foldl (fun v p => v.routePacket sl .own none p) (if t.pkg.congestionMode = 1 then
        t.setSrcFlow sl { t.srcFlow sl m.dst m.group .req with out := (t.srcFlow sl m.dst m.group .req).out + messageBytes m.packets } else t)) :=
    .comp ((State.Routes.routeAll ..).shows fun _ => rfl) (.ite (.onSl fun _ => rfl) (.refl t))
  obtain ⟨k1, k2⟩ := Prod.mk.inj (hflow sl)
  obtain ⟨k3, k4⟩ := Prod.mk.inj k2
  exact ⟨k1.trans hmsgs.1, k3.trans hmsgs.2.1, { m with packets := qs, retries := m.retries + 1, retxed := true, settled := false },
    (k4.trans hmsgs.2.2) ▸ List.mem_cons_self, rfl, rfl, rfl, hretx⟩

/-- A message is given up. -/
theorem State.givenUp_spec (hw : (s.sl sl).fabric.windowed = []) :
    (((s.windowAnswer sl m true).giveUp sl { m with settled := true }).sl sl).fabric.giveups = (s.sl sl).fabric.giveups + 1 ∧
      (((s.windowAnswer sl m true).giveUp sl { m with settled := true }).sl sl).fabric.outMsgs = [] := by
  obtain ⟨h1, h2, h3, -⟩ := State.windowAnswer_awaits (hs.slices_lt sl) (State.awaits_of hm) true
  have hui : (s.windowAnswer sl m true).Inv := (State.Keeps.windowAnswer ..).2 hs
  generalize s.windowAnswer sl m true = u at h1 h2 h3 hui
  have heq : u.giveUp sl { m with settled := true } = (((u.onSl sl fun x => { x with fabric := { x.fabric with giveups := x.fabric.giveups + 1 } }).sendCtrl
      sl m.dst 1 (skipPayload m.msgId m.firstSeq m.packets.length)).failMsg sl { m with settled := true }
      (if m.filtered then .remoteUnknown else .fabricLost)).detectLoss m.dst.node (2 ^ m.dst.slice) := by
    unfold State.giveUp
    dsimp only
    rw [hg]
    rfl
  rw [heq]
  generalize ht : (u.onSl sl fun x => { x with fabric := { x.fabric with giveups := x.fabric.giveups + 1 } }) = t
  have hti : t.Inv := ht ▸ (State.Keeps.onSl _ _ fun _ h => .update h rfl rfl rfl).2 hui
  have htm : t.Awaits sl { m with settled := true } ∧ (t.sl sl).fabric.windowed = [] ∧ (t.sl sl).fabric.giveups = (s.sl sl).fabric.giveups + 1 := by
    rw [← ht, State.Awaits, State.onSl_sl_self _ _ _ (hui.slices_lt sl)]
    exact ⟨h1, h2.trans hw, congrArg (· + 1) h3⟩
  have hctrl : t.Routes (t.sendCtrl sl m.dst 1 (skipPayload m.msgId m.firstSeq m.packets.length)) := .sendCtrl ..
  have hci : (t.sendCtrl sl m.dst 1 (skipPayload m.msgId m.firstSeq m.packets.length)).Inv := (State.Keeps.sendCtrl ..).2 hti
  generalize t.sendCtrl sl m.dst 1 (skipPayload m.msgId m.firstSeq m.packets.length) = v at hctrl hci
  obtain ⟨k1, k2, -⟩ := State.failMsg_spec hci sl (hctrl.awaits htm.1) ((hctrl.shows (π := fun x => x.fabric.windowed) (fun _ => rfl) sl).trans htm.2.1)
    (if m.filtered then .remoteUnknown else .fabricLost)
  generalize v.failMsg sl { m with settled := true } _ = w at k1 k2
  have hd := State.Agree.detectLoss w m.dst.node (2 ^ m.dst.slice) sl
  exact ⟨(congrArg (fun x : SliceState => x.fabric.giveups) hd).trans (k2.trans ((hctrl.shows (π := fun x => x.fabric.giveups) (fun _ => rfl) sl).trans htm.2.2)),
    (congrArg (fun x : SliceState => x.fabric.outMsgs) hd).trans k1⟩

end

/-! ### A message that waits to leave -/

theorem State.launchMsg_spec {s : State} {sl : Nat} (hi : sl < s.slices.length) (hq : s.silenced sl = false) (d : Place) (g : Option Nat) (ps : List Packet)
    (iss : Issuer) : ((s.launchMsg sl d g ps iss).sl sl).fabric.windowed = (s.sl sl).fabric.windowed ∧
      ((s.launchMsg sl d g ps iss).sl sl).fabric.outMsgs.length = (s.sl sl).fabric.outMsgs.length + 1 := by
  unfold State.launchMsg
  rw [hq, if_neg Bool.false_ne_true]
  dsimp only
  generalize ht : (State.onSl (s.setSrcFlow sl _) sl _) = t
  have hmsgs : (t.sl sl).fabric.windowed = (s.sl sl).fabric.windowed ∧ (t.sl sl).fabric.outMsgs.length = (s.sl sl).fabric.outMsgs.length + 1 := by
    rw [← ht, State.setSrcFlow, State.onSl_sl_self _ _ _ (by rw [State.onSl_length]; exact hi), State.onSl_sl_self _ _ _ hi]
    exact ⟨rfl, List.length_append⟩
  generalize List.map _ _ = qs
  obtain ⟨h1, h2⟩ := Prod.mk.inj ((State.Routes.routeAll (s := t) sl qs).shows (π := fun x => (x.fabric.windowed, x.fabric.outMsgs)) (fun _ => rfl) sl)
  exact ⟨h1.trans hmsgs.1, (congrArg List.length h2).trans hmsgs.2⟩

theorem State.releaseOne_sends {y : State} {sl : Nat} {w : WindowWait} (hw : (y.sl sl).fabric.windowed = [w]) (h : y.maySend sl w.dst w.group w.packets = true) :
    y.releaseOne sl w.dst = (y.onSl sl fun x => { x with fabric := { x.fabric with windowed := x.fabric.windowed.eraseP (· == w) } }).launchMsg
      sl w.dst w.group w.packets w.issuer := by
  unfold State.releaseOne
  rw [hw, List.find?_cons_of_pos (by rw [h, beq_self_eq_true]; rfl)]
  dsimp only
  rw [List.find?_cons_of_pos (by rw [beq_self_eq_true, beq_self_eq_true]; rfl), if_neg (by simp)]

theorem State.releaseOne_stays {y : State} {sl : Nat} {w : WindowWait} (hw : (y.sl sl).fabric.windowed = [w]) (h : y.maySend sl w.dst w.group w.packets = false) :
    y.releaseOne sl w.dst = y := by
  unfold State.releaseOne
  rw [hw, List.find?_cons_of_neg (by rw [h]; simp), List.find?_nil]

/-- A message that waits alone and may leave is under way. -/
theorem State.releaseOne_spec {y : State} {sl : Nat} {w : WindowWait} (hi : sl < y.slices.length) (hq : y.silenced sl = false)
    (hw : (y.sl sl).fabric.windowed = [w]) (hm : (y.sl sl).fabric.outMsgs = []) (h : y.maySend sl w.dst w.group w.packets = true) :
    ((y.releaseOne sl w.dst).sl sl).fabric.windowed = [] ∧ ((y.releaseOne sl w.dst).sl sl).fabric.outMsgs.length = 1 := by
  rw [State.releaseOne_sends hw h]
  generalize ht : (y.onSl sl fun x => { x with fabric := { x.fabric with windowed := x.fabric.windowed.eraseP (· == w) } }) = t
  have hfab : (t.sl sl).fabric = { (y.sl sl).fabric with windowed := (y.sl sl).fabric.windowed.eraseP (· == w) } := by
    rw [← ht, State.onSl_sl_self _ _ _ hi]
  have hquiet : t.silenced sl = false := by
    unfold State.silenced State.place at hq ⊢
    rw [hfab, ← ht]
    exact hq
  obtain ⟨h1, h2⟩ := State.launchMsg_spec (s := t) (sl := sl) (by rw [← ht, State.onSl_length]; exact hi) hquiet w.dst w.group w.packets w.issuer
  rw [hfab] at h1 h2
  exact ⟨h1.trans (by rw [hw]; exact List.eraseP_cons_of_pos (beq_self_eq_true w)), h2.trans (by rw [hm]; rfl)⟩

/-! ### O39 -/

section
variable {s : State} {sl : SliceId} {m : OutMsg}

theorem State.retryOrGiveUp_resends (h : s.still.on = false) (hr : m.retries < s.pkg.retryLimit) : s.retryOrGiveUp sl m = s.resendMsg sl m :=
  if_neg (by rw [h, decide_eq_false (Nat.not_le.2 hr)]; decide)

theorem State.retryOrGiveUp_givesUp (h : s.still.on = true ∨ s.pkg.retryLimit ≤ m.retries) : s.retryOrGiveUp sl m = s.giveUp sl m :=
  if_pos (by rw [Bool.or_eq_true]; exact h.imp_right decide_eq_true)

end

/-- Settles O39: with one message under way and none that waits, an answer leaves no message, and the thread that issued it is told once; routing and the
window's account keep the threads and the memory (`taken_spec`). -/
theorem answersReachTheIssuer : Obligations.AnswersReachTheIssuer := by
  unfold Obligations.AnswersReachTheIssuer
  intro s sl m hs hq x hw hm hg
  have ha : s.Awaits sl m := State.awaits_of hm
  have hpkg : (s.windowAnswer sl m true).still = s.still ∧ (s.windowAnswer sl m true).pkg = s.pkg := by
    have hsend : s.Sends (s.windowAnswer sl m true) := .windowAnswer ..
    exact ⟨(congrArg State.still hsend.rest).symm, hsend.pkg⟩
  refine ⟨fun a p e h kind reg addr n hiss hdst hcrc hgood hlive hturn hans => ?_, fun hstill hr => ?_, fun h => ?_, fun w y hy => ?_⟩
  · have hA : s.Answers sl a p m := ⟨hdst, hcrc, hgood, hlive, hturn, hans⟩
    refine ⟨fun ho hop hk => ?_, fun ho hop hk => ?_, fun ho hop hk => ?_, fun ho h3 => ?_⟩
    · obtain ⟨u, hu, h1, h2, h3⟩ := State.answer_done hs ha hw hg (by rw [ho]; decide) hA (by rw [hop, ho]; rfl) (e := e) (t := h)
        (f := fun k => (k.setReg reg (BitVec.ofNat 64 (leNat (p.payload.take 8)))).otherDone) (by rw [hiss, hk]; exact fun _ => rfl)
      exact ⟨u, (congrArg (fun o => Host.Outcome.next (s.receiveRsp sl a p o)) ho.symm).trans (congrArg _ hu), h1, h2, h3⟩
    · obtain ⟨u, hu, h1, h2, h3⟩ := State.answer_done hs ha hw hg (by rw [ho]; decide) hA (by rw [ho]; rcases hop with h | h <;> rw [h] <;> rfl) (e := e) (t := h)
        (f := fun k => (k.setReg reg (BitVec.ofNat 64 (leNat (p.payload.take 8)))).otherDone) (by rcases hk with h | h <;> rw [hiss, h] <;> exact fun _ => rfl)
      exact ⟨u, (congrArg (fun o => Host.Outcome.next (s.receiveRsp sl a p o)) ho.symm).trans (congrArg _ hu), h1, h2, h3⟩
    · obtain ⟨u, hu, h1, h2, h3⟩ := State.answer_done hs ha hw hg (by rw [ho]; decide) hA (by rw [hop, ho]; rfl) (e := e) (t := h)
        (f := Thread.xstDone) (by rw [hiss, hk]; exact fun _ => rfl)
      exact ⟨u, (congrArg (fun o => Host.Outcome.next (s.receiveRsp sl a p o)) ho.symm).trans (congrArg _ hu), h1, h2, h3⟩
    · obtain ⟨u, hu, h1, h2⟩ := State.answer_ends hs ha hw hg ho h3 hA hiss
      exact ⟨u, congrArg _ hu, h1, h2⟩
  · rw [execE2eTimeout_eq hm hg, State.retryOrGiveUp_resends (by rw [hpkg.1]; exact hstill) (by rw [hpkg.2]; exact hr)]
    exact ⟨_, rfl, State.resent_spec hs hm hq _ rfl⟩
  · rw [execE2eTimeout_eq hm hg, State.retryOrGiveUp_givesUp (by rw [hpkg.1, hpkg.2]; exact h)]
    obtain ⟨h1, h2⟩ := State.givenUp_spec hs hm hg hw
    exact ⟨_, rfl, h1, fun _ => h2⟩
  · have hy' : (y.sl sl).fabric = { (s.sl sl).fabric with windowed := [w], outMsgs := [] } := by rw [hy, State.onSl_sl_self _ _ _ (hs.slices_lt sl)]
    have hwin : (y.sl sl).fabric.windowed = [w] := congrArg Fabric.windowed hy'
    refine ⟨fun h => ⟨_, rfl, State.releaseOne_spec (by rw [hy, State.onSl_length]; exact hs.slices_lt sl) ?_ hwin (congrArg Fabric.outMsgs hy') h⟩,
      fun h => congrArg _ (State.releaseOne_stays hwin h)⟩
    unfold State.silenced State.place at hq ⊢
    rw [hy', hy]
    exact hq

end Sys2Proof.Machine
end

section
/-! The receiver of remote operations. -/

namespace Sys2Proof.Machine

/-! ### The receiver of remote operations -/

/-- What the answer to a message leaves of its receiver: the memory, the apply queue and the counts of refusals. -/
def SliceState.endpoint (x : SliceState) : Memory × List ApplyItem × Nat × Nat := (x.mem, x.remote.applyQ, x.remote.poison, x.remote.refused)

/-- The flows of a kind hold no packet back. -/
def SliceState.HoldsNone (P : DstFlow → Prop) (x : SliceState) : Prop := ∀ f ∈ x.fabric.dst, P f → f.held = []

section
variable {P : DstFlow → Prop} {x : SliceState} {src : Place} {g : Option Nat}

theorem SliceState.HoldsNone.of_dst {y : SliceState} (h : x.HoldsNone P) (hd : y.fabric.dst = x.fabric.dst) : y.HoldsNone P := by
  unfold SliceState.HoldsNone
  rw [hd]
  exact h

theorem SliceState.HoldsNone.dstFlow (h : x.HoldsNone P) (hP : ∀ f, f.is src g = true → P f) : (x.dstFlow src g).held = [] := by
  unfold SliceState.dstFlow
  split
  · next f hf => exact h f (List.mem_of_find?_eq_some hf) (hP f (List.find?_some (p := fun k : DstFlow => k.is src g) hf))
  · rfl

theorem SliceState.HoldsNone.setDstFlow (h : x.HoldsNone P) {f : DstFlow} (hf : f.held = []) : (x.setDstFlow f).HoldsNone P := by
  intro k hk hp
  rcases List.mem_append.1 hk with hk | hk
  · exact h k (List.mem_filter.1 hk).1 hp
  · rw [List.mem_singleton.1 hk]
    exact hf

end

/-- From `s` to `t` the receiver of a slice changes no more than its flows, and none of a kind comes to hold a packet. -/
structure State.Receives (P : DstFlow → Prop) (sl : Nat) (s t : State) : Prop where
  endpoint : (t.sl sl).endpoint = (s.sl sl).endpoint
  flows : (s.sl sl).HoldsNone P → (t.sl sl).HoldsNone P

namespace State.Receives
variable {P : DstFlow → Prop} {sl : Nat} {s t u : State}

theorem refl (s : State) : State.Receives P sl s s := ⟨rfl, id⟩

theorem trans (a : State.Receives P sl s t) (b : State.Receives P sl t u) : State.Receives P sl s u := ⟨b.endpoint.trans a.endpoint, b.flows ∘ a.flows⟩

theorem comp (b : State.Receives P sl t u) (a : State.Receives P sl s t) : State.Receives P sl s u := a.trans b

theorem ite {p : Prop} [Decidable p] (a : State.Receives P sl s t) (b : State.Receives P sl s u) : State.Receives P sl s (if p then t else u) := by
  split <;> assumption

theorem sends (h : s.Sends t) : State.Receives P sl s t :=
  ⟨h.shows (π := SliceState.endpoint) (fun _ => rfl) sl,
    fun k => k.of_dst (h.shows (π := fun x => x.fabric.dst) (fun _ => rfl) sl)⟩

theorem onSl {f : SliceState → SliceState} (h : ∀ x, (f x).endpoint = x.endpoint) (hf : ∀ x, x.HoldsNone P → (f x).HoldsNone P) :
    State.Receives P sl s (s.onSl sl f) := by
  refine ⟨State.Agree.onSl h sl, fun k => ?_⟩
  by_cases hi : sl < s.slices.length
  · rw [State.onSl_sl_self _ _ _ hi]
    exact hf _ k
  · rw [State.onSl_sl_of_le _ _ (Nat.not_lt.1 hi)]
    exact k

variable {p : Packet} (hP : ∀ f : DstFlow, f.is (Packet.src p) (Packet.group p) = true → P f)
include hP

theorem putMsg (m : OpenMsg) : State.Receives P sl s (s.putMsg sl p m) := onSl (fun _ => rfl) fun _ h => h.setDstFlow (h.dstFlow hP)

theorem completeMsg (op mod : Nat) (b : Bytes) : State.Receives P sl s (s.completeMsg sl p op mod b) := by
  unfold State.completeMsg
  exact .comp (onSl (fun _ => rfl) fun _ h => h.setDstFlow (h.dstFlow hP)) (sends (.sendAnswer ..))

theorem settleMsg (op mod : Nat) (b : Bytes) : State.Receives P sl s (s.settleMsg sl p op mod b) := by
  unfold State.settleMsg
  exact .comp (.ite (onSl (fun _ => rfl) fun _ h => h) (refl _)) (completeMsg hP ..)

/-- A refusal changes the receiver as its note does. -/
theorem refusePacket (m : OpenMsg) (reason off step : Nat) : State.Receives P sl (s.noteRefusal sl p off step) (s.refusePacket sl p m reason off step) := by
  unfold State.refusePacket
  exact .ite (putMsg hP _) (.comp (.ite (completeMsg hP ..) (settleMsg hP ..)) (putMsg hP _))

end State.Receives

section
variable {s : State} {sl : SliceId} {p : Packet} (hs : s.Inv)
include hs

theorem noteRefusal_poison (off : Nat) : ((s.noteRefusal sl p off 8).sl sl).endpoint =
    ((s.sl sl).mem, (s.sl sl).remote.applyQ, (s.sl sl).remote.poison + 1, (s.sl sl).remote.refused) := by
  unfold State.noteRefusal
  rw [if_pos rfl, State.onSl_sl_self _ _ _ (hs.slices_lt sl)]
  rfl

theorem noteRefusal_counts (hp : p.trusted = false) (off : Nat) {step : Nat} (h : step ≠ 8) (h0 : step ≠ 0) :
    ((s.noteRefusal sl p off step).sl sl).endpoint = ((s.sl sl).mem, (s.sl sl).remote.applyQ, (s.sl sl).remote.poison, (s.sl sl).remote.refused + 1) := by
  unfold State.noteRefusal
  dsimp only
  rw [if_neg h, if_neg h0, hp, if_neg Bool.false_ne_true]
  generalize ht : s.report sl _ = t
  have hrep : (t.sl sl).endpoint = (s.sl sl).endpoint := ht ▸ State.Agree.report (fun _ _ => rfl) sl
  obtain ⟨h1, h2⟩ := Prod.mk.inj hrep
  obtain ⟨h2, h3⟩ := Prod.mk.inj h2
  obtain ⟨h3, h4⟩ := Prod.mk.inj h3
  rw [State.onSl_sl_self _ _ _ (by rw [← ht, State.report, State.onSl_length]; exact hs.slices_lt sl)]
  show (_, _, _, (t.sl sl).remote.refused + 1) = _
  rw [h4, h1, h2, h3]

end

theorem noteRefusal_flows {P : DstFlow → Prop} (s : State) (sl : Nat) (p : Packet) (off step : Nat) (h : (s.sl sl).HoldsNone P) :
    ((s.noteRefusal sl p off step).sl sl).HoldsNone P := by
  have hdst : State.Agree (fun x => x.fabric.dst) s (s.noteRefusal sl p off step) := by
    unfold State.noteRefusal
    dsimp only
    exact .ite (.onSl fun _ => rfl) (.ite (.refl s) (.ite (.onSl fun _ => rfl) (.comp (.onSl fun _ => rfl) (.onSl fun _ => rfl))))
  exact h.of_dst (hdst sl)

end Sys2Proof.Machine
end

section
/-! The application of remote operations. -/

namespace Sys2Proof.Machine

/-! ### The application of operations -/

/-- The bytes that an operation puts at its offset. -/
def SliceState.operationBytes (x : SliceState) (p : Packet) : Bytes :=
  if p.opcode = opREAD then []
  else if p.opcode = opWRITE ∨ p.opcode = opMCAST then p.payload
  else if p.opcode = opREDUCE then reduceBytes p.opmod (x.load p.dstOffset p.payload.length) p.payload
  else if p.opcode = opFADD then
    leBytes 4 (F32.add (BitVec.ofNat 32 (x.loadNat p.dstOffset 4)) (BitVec.ofNat 32 (leNat (p.payload.take 4)))).toNat
  else if x.loadNat p.dstOffset 8 = leNat (slice p.payload 0 8) then slice p.payload 8 8 else []

/-- All the flows of a slice. -/
abbrev anyFlow : DstFlow → Prop := fun _ => True

theorem State.deliverAllHeld_none {s : State} {sl : Nat} (h : (s.sl sl).HoldsNone anyFlow) : s.deliverAllHeld sl = s := by
  unfold State.deliverAllHeld
  rw [List.foldl_ext _ (fun v _ => v) s fun v f hf => if_pos (by rw [h f hf trivial]; rfl)]
  exact List.foldl_fixed' (fun _ => rfl) _

section
variable {s : State} {sl : SliceId} {o : ApplyItem} (hs : s.Inv)
include hs

theorem State.onSl_settleMsg {f : SliceState → SliceState} {m : Memory} (p : Packet) (op mod : Nat) (b : Bytes)
    (hf : (f (s.sl sl)).endpoint = (m, (s.sl sl).remote.applyQ, (s.sl sl).remote.poison, (s.sl sl).remote.refused))
    (hd : (f (s.sl sl)).fabric.dst = (s.sl sl).fabric.dst) (h : (s.sl sl).HoldsNone anyFlow) :
    (((s.onSl sl f).settleMsg sl p op mod b).sl sl).endpoint = (m, (s.sl sl).remote.applyQ, (s.sl sl).remote.poison, (s.sl sl).remote.refused) ∧
      (((s.onSl sl f).settleMsg sl p op mod b).sl sl).HoldsNone anyFlow := by
  have hr : State.Receives anyFlow sl (s.onSl sl f) ((s.onSl sl f).settleMsg sl p op mod b) := .settleMsg (fun _ _ => trivial) ..
  have hself := State.onSl_sl_self s sl f (hs.slices_lt sl)
  exact ⟨hr.endpoint.trans (hself.symm ▸ hf), hr.flows (hself.symm ▸ h.of_dst hd)⟩

/-- An operation that its checks let through puts its bytes into memory. -/
theorem State.applyOp_applies (h : (s.sl sl).HoldsNone anyFlow) (hw : o.win = false ∨ (s.sl sl).tiers.inWindow o.pkt.dstOffset o.pkt.covers = true)
    (hp : (s.sl sl).readsPoison o.pkt o.ranges = false) :
    ((s.applyOp sl o).sl sl).endpoint = ((s.sl sl).mem.writeBytes o.pkt.dstOffset ((s.sl sl).operationBytes o.pkt), (s.sl sl).remote.applyQ,
      (s.sl sl).remote.poison, (s.sl sl).remote.refused) ∧ ((s.applyOp sl o).sl sl).HoldsNone anyFlow := by
  have hwin : ¬ (o.win && !(s.sl sl).tiers.inWindow o.pkt.dstOffset o.pkt.covers) = true := by
    rcases hw with hw | hw <;> rw [hw] <;> simp
  have hid (op mod : Nat) (b : Bytes) : State.Receives anyFlow sl s (s.settleMsg sl o.pkt op mod b) := .settleMsg (fun _ _ => trivial) ..
  unfold State.applyOp SliceState.operationBytes
  dsimp only
  rw [if_neg hwin, if_neg (by rw [hp]; exact Bool.false_ne_true)]
  by_cases h1 : o.pkt.opcode = opREAD
  · rw [if_pos h1, if_pos h1]
    exact ⟨(hid ..).endpoint, (hid ..).flows h⟩
  rw [if_neg h1, if_neg h1]
  by_cases h2 : o.pkt.opcode = opWRITE ∨ o.pkt.opcode = opMCAST
  · rw [if_pos h2, if_pos h2]
    have hnote (x : SliceState) (a n : Nat) : (x.noteWritten a n).endpoint = x.endpoint ∧ (x.noteWritten a n).fabric.dst = x.fabric.dst := by
      unfold SliceState.noteWritten
      split <;> exact ⟨rfl, rfl⟩
    split
    · exact State.onSl_settleMsg hs _ _ _ _ (hnote _ _ _).1 (hnote _ _ _).2 h
    · rw [State.onSl_sl_self _ _ _ (hs.slices_lt sl)]
      exact ⟨(hnote _ _ _).1, h.of_dst (hnote _ _ _).2⟩
  rw [if_neg h2, if_neg h2]
  by_cases h3 : o.pkt.opcode = opREDUCE
  · rw [if_pos h3, if_pos h3]
    exact State.onSl_settleMsg hs _ _ _ _ rfl rfl h
  rw [if_neg h3, if_neg h3]
  by_cases h4 : o.pkt.opcode = opFADD
  · rw [if_pos h4, if_pos h4]
    exact State.onSl_settleMsg hs _ _ _ _ rfl rfl h
  rw [if_neg h4, if_neg h4]
  split
  · exact State.onSl_settleMsg hs _ _ _ _ rfl rfl h
  · exact ⟨(hid ..).endpoint, (hid ..).flows h⟩

/-- An operation that is refused when it comes to be applied. -/
theorem State.refuseApply_spec (p : Packet) (m : OpenMsg) (reason off step : Nat) (h : (s.sl sl).HoldsNone anyFlow) :
    ((s.refuseApply sl p m reason off step).sl sl).mem = (s.sl sl).mem ∧ ((s.refuseApply sl p m reason off step).sl sl).HoldsNone anyFlow ∧
      (step = 8 → ((s.refuseApply sl p m reason off step).sl sl).remote.poison = (s.sl sl).remote.poison + 1) := by
  unfold State.refuseApply
  dsimp only
  generalize ht : (s.onSl sl fun x => _) = t
  have hself : (t.sl sl).mem = (s.sl sl).mem ∧ (t.sl sl).fabric.dst = (s.sl sl).fabric.dst ∧ (t.sl sl).remote.poison = (s.sl sl).remote.poison := by
    rw [← ht, State.onSl_sl_self _ _ _ (hs.slices_lt sl)]
    exact ⟨rfl, rfl, rfl⟩
  have hti : t.Inv := ht ▸ (State.Keeps.onSl _ _ fun _ h => .update h rfl rfl rfl).2 hs
  obtain ⟨h1, h2, h3⟩ := hself
  generalize Option.elim _ p _ = q
  have hr : State.Receives anyFlow sl (t.noteRefusal sl q off step) (t.refusePacket sl q m reason off step) := .refusePacket (fun _ _ => trivial) ..
  have hmem : State.Agree SliceState.mem t (t.noteRefusal sl q off step) := by
    unfold State.noteRefusal
    dsimp only
    exact .ite (.onSl fun _ => rfl) (.ite (.refl t) (.ite (.onSl fun _ => rfl) (.comp (.onSl fun _ => rfl) (.onSl fun _ => rfl))))
  refine ⟨(congrArg (fun e => e.1) hr.endpoint).trans ((hmem sl).trans h1), hr.flows (noteRefusal_flows t sl q off step (h.of_dst h2)), fun h8 => ?_⟩
  subst h8
  exact (congrArg (fun e => e.2.2.1) (hr.endpoint.trans (noteRefusal_poison hti off))).trans (congrArg (· + 1) h3)

end

/-! ### The elements of a reduction -/

/-- Two strings of whole elements, put together element by element, keep their length. -/
theorem length_zip_chunksOf {z : Nat} (hz : 0 < z) {g : Bytes × Bytes → Bytes} (hg : ∀ e, (g e).length = z) (n : Nat) {xs ys : Bytes}
    (h : ys.length = xs.length) (hn : xs.length ≤ n) (hd : z ∣ xs.length) : (((chunksOf z n xs).zip (chunksOf z n ys)).map g).flatten.length = xs.length := by
  induction n generalizing xs ys with
  | zero => exact (Nat.le_zero.1 hn).symm
  | succ n ih =>
    cases xs with
    | nil => rfl
    | cons a xs =>
      cases ys with
      | nil => exact absurd h.symm (Nat.succ_ne_zero _)
      | cons b ys =>
        have hle : z ≤ (a :: xs).length := Nat.le_of_dvd (Nat.succ_pos _) hd
        have hlen : ((a :: xs).drop z).length = (a :: xs).length - z := List.length_drop
        have hrest := ih (xs := (a :: xs).drop z) (ys := (b :: ys).drop z) (by rw [List.length_drop, h, hlen]) (by omega)
          (by rw [hlen]; exact Nat.dvd_sub hd (dvd_refl z))
        show (g ((a :: xs).take z, (b :: ys).take z) ++ (((chunksOf z n ((a :: xs).drop z)).zip (chunksOf z n ((b :: ys).drop z))).map g).flatten).length = _
        rw [List.length_append, hg, hrest, hlen, Nat.add_sub_cancel' hle]

theorem length_reduceBytes {opmod : Nat} {old v : Bytes} (h : v.length = old.length) (hd : old.length % max 1 (reduceSize opmod) = 0) :
    (reduceBytes opmod old v).length = old.length := by
  unfold reduceBytes pieces
  dsimp only
  rw [h]
  exact length_zip_chunksOf (Nat.lt_of_lt_of_le Nat.one_pos (Nat.le_max_left ..)) (fun e => leBytes_length ..) _ h (Nat.le_refl _) (Nat.dvd_of_mod_eq_zero hd)

theorem pieces_whole {b : Bytes} {z : Nat} (h : b.length = z) (hz : 0 < z) : pieces z b = [b] := by
  unfold pieces
  obtain ⟨n, hn⟩ := Nat.exists_eq_succ_of_ne_zero (Nat.ne_of_gt hz)
  rw [h, hn]
  cases b with
  | nil => exact absurd h (Nat.ne_of_lt hz)
  | cons a b =>
    show (a :: b).take (n + 1) :: chunksOf (n + 1) n ((a :: b).drop (n + 1)) = _
    rw [List.take_of_length_le (by omega), List.drop_of_length_le (by omega)]
    cases n <;> rfl

theorem reduceBytes_add {old v : Bytes} (ho : old.length = 8) (hv : v.length = 8) : reduceBytes 0 old v = leBytes 8 ((leNat old + leNat v) % 2 ^ 64) := by
  show ((((pieces 8 old).zip (pieces 8 v)).map fun e => leBytes 8 (reduceElem 0 (leNat e.1) (leNat e.2))).flatten) = _
  rw [pieces_whole ho (by decide), pieces_whole hv (by decide)]
  exact List.append_nil _

/-! ### O38 -/

/-- What a write of bytes leaves. -/
theorem written_spec {x y : SliceState} (hx : x.mem.wf = true) {a n : Nat} {b : Bytes} (h : y.mem = x.mem.writeBytes a b) (hn : b.length = n) :
    y.load a n = b ∧ SameBytesOutside x y a n := by
  subst hn
  refine ⟨(congrArg (fun m => Memory.readBytes m a b.length) h).trans (Memory.readBytes_writeBytes hx a b), fun c hc => ?_⟩
  rw [h]
  exact Memory.read_writeBytes_outside hx hc

section
variable {s : State} {sl : SliceId} {o : ApplyItem} {rest : List ApplyItem} (hs : s.Inv) (hq : (s.sl sl).remote.applyQ = o :: rest)
include hs hq

/-- The head of the queue is taken. -/
theorem execOperationApply_takes : ∃ u : State, u.Inv ∧ u.sl sl = { s.sl sl with remote := { (s.sl sl).remote with applyQ := rest } } ∧
    exec (.operationApply { on := sl }) s = .next ((u.applyOp sl o).deliverAllHeld sl) := by
  refine ⟨s.onSl sl fun x => { x with remote := { x.remote with applyQ := rest } }, (State.Keeps.onSl _ _ fun _ h => .update h rfl rfl rfl).2 hs,
    State.onSl_sl_self _ _ _ (hs.slices_lt sl), ?_⟩
  show State.operationApply s sl = _
  unfold State.operationApply
  rw [hq]

variable (hf : ∀ f ∈ (s.sl sl).fabric.dst, f.held = [])
include hf

theorem execOperationApply_refuses {reason step : Nat} (h : ∀ u : State, u.sl sl = { s.sl sl with remote := { (s.sl sl).remote with applyQ := rest } } →
      ∃ m off, u.applyOp sl o = u.refuseApply sl o.pkt m reason off step) :
    ∃ t : State, exec (.operationApply { on := sl }) s = .next t ∧ (t.sl sl).mem = (s.sl sl).mem ∧
      (step = 8 → (t.sl sl).remote.poison = (s.sl sl).remote.poison + 1) := by
  obtain ⟨u, hui, hu, hex⟩ := execOperationApply_takes hs hq
  have hfree : (u.sl sl).HoldsNone anyFlow := by
    rw [hu]
    exact fun f hk _ => hf f hk
  obtain ⟨m, off, heq⟩ := h u hu
  obtain ⟨h1, h2, h3⟩ := State.refuseApply_spec hui o.pkt m reason off step hfree
  rw [heq, State.deliverAllHeld_none h2] at hex
  exact ⟨_, hex, h1.trans (congrArg SliceState.mem hu :), fun h8 => (h3 h8).trans (congrArg (fun x => x.remote.poison + 1) hu :)⟩

theorem execOperationApply_applies (hw : o.win = false ∨ (s.sl sl).tiers.inWindow o.pkt.dstOffset o.pkt.covers = true)
    (hp : (s.sl sl).readsPoison o.pkt o.ranges = false) : ∃ t : State, exec (.operationApply { on := sl }) s = .next t ∧ (t.sl sl).remote.applyQ = rest ∧
      (t.sl sl).mem = (s.sl sl).mem.writeBytes o.pkt.dstOffset ((s.sl sl).operationBytes o.pkt) := by
  obtain ⟨u, hui, hu, hex⟩ := execOperationApply_takes hs hq
  have hfree : (u.sl sl).HoldsNone anyFlow := by
    rw [hu]
    exact fun f hk _ => hf f hk
  obtain ⟨h1, h2⟩ := State.applyOp_applies hui (o := o) hfree (by rw [hu]; exact hw) (by rw [hu]; exact hp)
  rw [State.deliverAllHeld_none h2] at hex
  rw [hu] at h1
  exact ⟨_, hex, congrArg (fun e => e.2.1) h1, congrArg (fun e => e.1) h1⟩

end

section
variable {x : SliceState} {p : Packet}

theorem SliceState.operationBytes_write (h : p.opcode = opWRITE ∨ p.opcode = opMCAST) : x.operationBytes p = p.payload := by
  unfold SliceState.operationBytes
  rw [if_neg (by rcases h with h | h <;> rw [h] <;> decide), if_pos h]

theorem SliceState.operationBytes_reduce (h : p.opcode = opREDUCE) :
    x.operationBytes p = reduceBytes p.opmod (x.load p.dstOffset p.payload.length) p.payload := by
  unfold SliceState.operationBytes
  rw [if_neg (by rw [h]; decide), if_neg (by rw [h]; decide), if_pos h]

theorem SliceState.operationBytes_fadd (h : p.opcode = opFADD) : x.operationBytes p =
    leBytes 4 (F32.add (BitVec.ofNat 32 (x.loadNat p.dstOffset 4)) (BitVec.ofNat 32 (leNat (p.payload.take 4)))).toNat := by
  unfold SliceState.operationBytes
  rw [if_neg (by rw [h]; decide), if_neg (by rw [h]; decide), if_neg (by rw [h]; decide), if_pos h]

theorem SliceState.operationBytes_cas (h : p.opcode = opCAS) : x.operationBytes p =
    if x.loadNat p.dstOffset 8 = leNat (slice p.payload 0 8) then slice p.payload 8 8 else [] := by
  unfold SliceState.operationBytes
  rw [if_neg (by rw [h]; decide), if_neg (by rw [h]; decide), if_neg (by rw [h]; decide), if_neg (by rw [h]; decide)]

end

/-- Settles O38: every operation that its checks let through puts its bytes (`operationBytes`) at its offset, and its answer keeps them. -/
theorem operationsApply : Obligations.OperationsApply := by
  unfold Obligations.OperationsApply
  intro s sl o rest hs x p
  refine ⟨fun y hy => ?_, fun hq hf => ⟨fun _ => rfl, fun hw hin => ?_, fun hw hp _ => ?_, fun hw hp => ?_⟩⟩
  · show State.operationApply y sl = _
    unfold State.operationApply
    rw [hy]
  · obtain ⟨t, h1, h2, -⟩ := execOperationApply_refuses hs hq hf (reason := nackPROT) (step := if p.trusted then 5 else 7) fun u hu => by
      unfold State.applyOp
      exact ⟨_, _, if_pos (by rw [hu, hw]; exact congrArg (fun b => !b) hin)⟩
    exact ⟨t, h1, h2⟩
  · obtain ⟨t, h1, h2, h3⟩ := execOperationApply_refuses hs hq hf (reason := nackPOISON) (step := 8) fun u hu => by
      have hopen : ¬ (o.win && !(u.sl sl).tiers.inWindow p.dstOffset p.covers) = true := by
        rw [hu]
        rcases hw with hw | hw
        · rw [hw]
          exact Bool.false_ne_true
        · exact fun h => Bool.false_ne_true ((congrArg (fun b => !b) hw).symm.trans (Bool.and_eq_true_iff.1 h).2)
      unfold State.applyOp
      exact ⟨_, _, (if_neg hopen).trans (if_pos (by rw [hu]; exact hp))⟩
    exact ⟨t, h1, h2, h3 rfl⟩
  · obtain ⟨t, h1, h2, h3⟩ := execOperationApply_applies hs hq hf hw hp
    have hwf : x.mem.wf = true := (hs.sl sl.isLt).1
    have hwrite {b : Bytes} {n : Nat} (hb : x.operationBytes p = b) (hn : b.length = n) : (t.sl sl).load p.dstOffset n = b ∧ SameBytesOutside x (t.sl sl) p.dstOffset n :=
      written_spec hwf (h3.trans (congrArg _ hb)) hn
    refine ⟨t, h1, h2, fun h => ?_, fun h => hwrite (SliceState.operationBytes_write h) rfl, fun h hd => ?_, fun h h0 h8 => ?_, fun h => ?_, fun h => ?_⟩
    · exact h3.trans (congrArg (Memory.writeBytes x.mem p.dstOffset) (if_pos h))
    · exact hwrite (SliceState.operationBytes_reduce h) ((length_reduceBytes (SliceState.length_load ..).symm (by rw [SliceState.length_load]; exact hd)).trans
        (SliceState.length_load ..))
    · have hb := SliceState.operationBytes_reduce (x := x) h
      rw [h0, h8, reduceBytes_add (SliceState.length_load ..) h8] at hb
      obtain ⟨k1, k2⟩ := hwrite hb (leBytes_length ..)
      refine ⟨(congrArg leNat k1).trans ((leNat_leBytes ..).trans (Nat.mod_eq_of_lt ?_)), k2⟩
      exact Nat.mod_lt _ (by decide)
    · obtain ⟨k1, k2⟩ := hwrite (SliceState.operationBytes_fadd h) (leBytes_length ..)
      exact ⟨(congrArg leNat k1).trans ((leNat_leBytes ..).trans (Nat.mod_eq_of_lt (BitVec.isLt _))), k2⟩
    · have hb := SliceState.operationBytes_cas (x := x) h
      by_cases heq : x.loadNat p.dstOffset 8 = leNat (slice p.payload 0 8)
      · rw [if_pos heq] at hb
        obtain ⟨k1, k2⟩ := hwrite hb (slice_length ..)
        exact ⟨k2, fun _ => congrArg leNat k1, fun hne => absurd heq hne⟩
      · rw [if_neg heq] at hb
        have hmem : (t.sl sl).mem = x.mem := h3.trans (congrArg _ hb)
        exact ⟨fun c _ => congrArg (fun m => Memory.read m c) hmem, fun he => absurd he heq, fun _ => hmem⟩

end Sys2Proof.Machine
end

section
/-! Requests that are delivered. -/

namespace Sys2Proof.Machine

/-! ### Requests that are delivered -/

/-- What the checks of a request look at. -/
def SliceState.checked (x : SliceState) : SliceState := { x with
  fabric := {}
  err := {}
  ports := []
  ilinks := []
  remote := { x.remote with filter := [] } }

section
variable {s t : State} {sl : Nat} {p : Packet} {m : OpenMsg} (hf : p.first = true) (ht : p.trusted = false)
include hf ht

/-- A request that no entry holds fails step 4. -/
theorem State.checkLate_fails (h : ∀ r ∈ (s.sl sl).remote.regions, r.2.valid = true → r.2.job = p.job → r.2.holds p.dstOffset p.covers = false) :
    s.checkLate sl p m = .fail nackPROT p.dstOffset 4 := by
  have hnone : ((s.sl sl).remote.regions.find? fun r => r.2.valid && r.2.job == p.job && r.2.holds p.dstOffset p.covers) = none := by
    refine List.find?_eq_none.2 fun r hr h' => ?_
    obtain ⟨h1, h2⟩ := Bool.and_eq_true_iff.1 h'
    obtain ⟨h3, h4⟩ := Bool.and_eq_true_iff.1 h1
    exact Bool.false_ne_true ((h r hr h3 (beq_iff_eq.1 h4)).symm.trans h2)
  unfold State.checkLate
  dsimp only
  rw [ht, hf, if_neg Bool.false_ne_true, if_pos rfl, hnone]

/-- A request that passes steps 4 to 8. -/
theorem State.checkLate_passes {i : Nat} {e : RegionEntry}
    (h : ((s.sl sl).remote.regions.find? fun r => r.2.valid && r.2.job == p.job && r.2.holds p.dstOffset p.covers) = some (i, e)) (hk : e.kind ≠ 1)
    (hg : e.grants p.opcode = true) (ho : e.ownerOk p.opcode p.srcNode = true)
    (hw : e.kind = 2 → p.opcode = opWRITE → (s.sl sl).tiers.inWindow p.dstOffset p.covers = true)
    (hr : regionOf p.dstOffset = .window → ((s.sl sl).ranges? p.dstOffset p.covers).isSome = true)
    (hp : (s.sl sl).readsPoison p (((s.sl sl).ranges? p.dstOffset p.covers).getD [(p.dstOffset, p.covers)]) = false) :
    s.checkLate sl p m = .pass (some i) := by
  have h1 : ¬ (decide (regionOf p.dstOffset = .window) && ((s.sl sl).ranges? p.dstOffset p.covers).isNone) = true := by
    rw [Bool.and_eq_true, decide_eq_true_iff]
    rintro ⟨a, b⟩
    rw [Option.isNone_iff_eq_none] at b
    exact absurd (hr a) (by rw [b]; decide)
  have h2 : ¬ (decide (e.kind = 2) && decide (p.opcode = opWRITE) && !(s.sl sl).tiers.inWindow p.dstOffset p.covers) = true := by
    rw [Bool.and_eq_true, Bool.and_eq_true, decide_eq_true_iff, decide_eq_true_iff]
    rintro ⟨⟨a, b⟩, c⟩
    rw [hw a b] at c
    exact Bool.false_ne_true c
  unfold State.checkLate
  dsimp only
  rw [ht, hf, if_neg Bool.false_ne_true, if_pos rfl, h]
  dsimp only
  rw [if_neg h1, if_neg (by rw [hg]; decide), if_neg (by rw [ho]; decide), if_neg h2, if_neg hk, if_neg (by rw [hp]; decide)]

end

/-- A request that passed its checks is appended to the apply queue, where its entry is no SINK. -/
theorem State.consume_applies {s : State} {sl : Nat} {a : Arrival} {p : Packet} {m : OpenMsg} {i : Nat} (ht : p.trusted = false)
    (h : ∀ r ∈ (s.sl sl).remote.regions, r.1 = i → r.2.kind ≠ 1) : ∃ m', s.consume sl a p m (some i) =
      (s.putMsg sl p m').onSl sl fun x => { x with remote := { x.remote with applyQ := x.remote.applyQ ++ [x.applyItem p a] } } := by
  have hsink : ((s.sl sl).remote.regions.any fun r => r.1 == i && r.2.kind == 1) = false := by
    refine List.any_eq_false.2 fun r hr hc => ?_
    obtain ⟨h1, h2⟩ := Bool.and_eq_true_iff.1 hc
    exact h r hr (beq_iff_eq.1 h1) (beq_iff_eq.1 h2)
  have hcoll : s.toColl sl p = false := by
    unfold State.toColl
    rw [ht]
    rfl
  have hload : toLoader p = false := by
    unfold toLoader
    rw [ht]
    rfl
  unfold State.consume
  dsimp only
  rw [hsink, if_neg Bool.false_ne_true, hcoll, if_neg Bool.false_ne_true, hload, if_neg Bool.false_ne_true]
  exact ⟨_, rfl⟩

/-- The flow of a request at its receiver. -/
abbrev flowOf (p : Packet) : DstFlow → Prop := fun f => f.is (Packet.src p) (Packet.group p) = true

/-- Whose flow it is, and what it holds back. -/
def DstFlow.holds (f : DstFlow) : Place × Option Nat × List (Packet × Nat) := (f.src, f.group, f.held)

theorem DstFlow.holds_advance (n : Nat) (f : DstFlow) : (DstFlow.advance n f).holds = f.holds := by
  induction n generalizing f with
  | zero => rfl
  | succ n ih =>
    unfold DstFlow.advance
    split
    · exact ih _
    · rfl

theorem DstFlow.holds_settle (f : DstFlow) (q : Nat) : (f.settle q).holds = f.holds := by
  unfold DstFlow.settle
  split
  · rfl
  · split
    · rfl
    · exact DstFlow.holds_advance _ _

theorem SliceState.dstFlow_is (x : SliceState) (src : Place) (g : Option Nat) : (x.dstFlow src g).is src g = true := by
  unfold SliceState.dstFlow
  split
  · next f hf => exact List.find?_some (p := fun k : DstFlow => k.is src g) hf
  · exact Bool.and_eq_true_iff.2 ⟨beq_self_eq_true _, beq_self_eq_true _⟩

/-- Once a flow that holds nothing is put back, no flow of its kind holds anything. -/
theorem SliceState.holdsNone_setDstFlow {x : SliceState} {f : DstFlow} {src : Place} {g : Option Nat} (hi : f.is src g = true) (h : f.held = []) :
    (x.setDstFlow f).HoldsNone fun k => k.is src g = true := by
  obtain ⟨h1, h2⟩ := Bool.and_eq_true_iff.1 hi
  intro k hk hp
  rcases List.mem_append.1 hk with hk | hk
  · have hn := (List.mem_filter.1 hk).2
    rw [beq_iff_eq.1 h1, beq_iff_eq.1 h2, hp] at hn
    exact absurd hn (by decide)
  · rw [List.mem_singleton.1 hk]
    exact h

theorem filterJudge_pass {l : List FilterSlot} {p : Packet} {now wait : Nat} (h : (filterJudge l p now wait).1 = .pass) :
    filterJudge l p now wait = (.pass, (filterJudge l p now wait).2) := by
  rw [← h]

/-- What becomes of a request that the late checks judge. -/
def State.judged (v : State) (sl : Nat) (a : Arrival) (p : Packet) (m : OpenMsg) : State :=
  match v.checkLate sl p m with
  | .fail reason off step => v.refusePacket sl p m reason off step
  | .pass k => v.consume sl a p m k

theorem State.judged_fail {v : State} {sl : Nat} {a : Arrival} {p : Packet} {m : OpenMsg} {reason off step : Nat}
    (h : v.checkLate sl p m = .fail reason off step) : v.judged sl a p m = v.refusePacket sl p m reason off step := by
  unfold State.judged
  rw [h]

theorem State.judged_pass {v : State} {sl : Nat} {a : Arrival} {p : Packet} {m : OpenMsg} {k : Option Nat} (h : v.checkLate sl p m = .pass k) :
    v.judged sl a p m = v.consume sl a p m k := by
  unfold State.judged
  rw [h]

/-- A request of a flow that holds nothing, and of no refused message, comes to the late checks: what they look at is as it was. -/
theorem State.deliver_judged {s : State} (hs : s.Inv) {sl : SliceId} {a : Arrival} {p : Packet}
    (hheld : ((s.sl sl).dstFlow (Packet.src p) (Packet.group p)).held = [])
    (href : (((s.sl sl).dstFlow (Packet.src p) (Packet.group p)).msg p.msgId).refused = none) (he : s.checkEarly p = .pass none)
    (hj : p.filtered = true → (filterJudge (s.sl sl).remote.filter p s.time.now s.retrySpan).1 = .pass) :
    ∃ (v : State) (m : OpenMsg), v.Inv ∧ (v.sl sl).checked = (s.sl sl).checked ∧ (v.sl sl).HoldsNone (flowOf p) ∧ s.deliver sl a p = v.judged sl a p m := by
  generalize hm : ({ ((s.sl sl).dstFlow (Packet.src p) (Packet.group p)).msg p.msgId with
    mark := (((s.sl sl).dstFlow (Packet.src p) (Packet.group p)).msg p.msgId).mark || p.mark } : OpenMsg) = m
  generalize hseen : (s.onSl sl fun x => x.setDstFlow (((s.sl sl).dstFlow (Packet.src p) (Packet.group p)).settle p.flowSeq)) = u
  have hui : u.Inv := hseen ▸ (State.Keeps.onSl _ _ fun _ h => .setDstFlow h ..).2 hs
  have huc : State.Agree SliceState.checked s u := hseen ▸ .onSl fun _ => rfl
  have htc : State.Agree SliceState.checked s (u.putMsg sl p m) := huc.trans (.onSl fun _ => rfl)
  have hti : (u.putMsg sl p m).Inv := (State.Keeps.putMsg ..).2 hui
  have hth : ((u.putMsg sl p m).sl sl).HoldsNone (flowOf p) := by
    refine (State.Receives.putMsg (P := flowOf p) (fun _ h => h) m).flows ?_
    rw [← hseen, State.onSl_sl_self _ _ _ (hs.slices_lt sl)]
    have hk := DstFlow.holds_settle ((s.sl sl).dstFlow (Packet.src p) (Packet.group p)) p.flowSeq
    obtain ⟨h1, h2⟩ := Prod.mk.inj hk
    obtain ⟨h2, h3⟩ := Prod.mk.inj h2
    refine SliceState.holdsNone_setDstFlow ?_ (h3.trans hheld)
    unfold DstFlow.is
    rw [h1, h2]
    exact (s.sl sl).dstFlow_is _ _
  by_cases hp : p.filtered = true
  · generalize hv : ((u.putMsg sl p m).onSl sl fun x => { x with
      remote := { x.remote with filter := (filterJudge (s.sl sl).remote.filter p s.time.now s.retrySpan).2 } }) = v
    have hvc : State.Agree SliceState.checked (u.putMsg sl p m) v := hv ▸ .onSl fun _ => rfl
    refine ⟨v, m, hv ▸ (State.Keeps.onSl _ _ fun _ h => .update h rfl rfl rfl).2 hti, (htc.trans hvc) sl, ?_, ?_⟩
    · rw [← hv, State.onSl_sl_self _ _ _ (hti.slices_lt sl)]
      exact hth
    · unfold State.deliver
      rw [← hv, ← hseen, ← hm]
      dsimp only
      rw [href, he, if_pos hp, hj hp]
      rfl
  · refine ⟨u.putMsg sl p m, m, hti, htc sl, hth, ?_⟩
    unfold State.deliver
    rw [← hseen, ← hm]
    dsimp only
    rw [href, he, if_neg hp]
    rfl

/-! ### O37 -/

/-- A request that the receiver takes in its turn: of the job, of one packet, and new to a flow that holds nothing. -/
structure State.Requests (s : State) (sl : Nat) (a : Arrival) (p : Packet) : Prop where
  trusted : p.trusted = false
  first : p.first = true
  last : p.last = true
  early : s.checkEarly p = .pass none
  ecrc : packetEcrc p = p.ecrc
  good : s.routerBad a p = false
  live : s.fromLost sl p = false
  turn : s.before sl a p = []
  held : ((s.sl sl).dstFlow (Packet.src p) (Packet.group p)).held = []
  skipped : ((s.sl sl).dstFlow (Packet.src p) (Packet.group p)).wasSkipped p.flowSeq = false
  fresh : ((s.sl sl).dstFlow (Packet.src p) (Packet.group p)).delivered p.flowSeq = false
  ready : ((s.sl sl).dstFlow (Packet.src p) (Packet.group p)).ready p = true
  sound : (((s.sl sl).dstFlow (Packet.src p) (Packet.group p)).msg p.msgId).refused = none
  done : ∀ c ∈ ((s.sl sl).dstFlow (Packet.src p) (Packet.group p)).completed, c.1 ≠ p.msgId
  room : (s.sl sl).remote.applyQ.length < 1024
  filter : p.filtered = true → (filterJudge (s.sl sl).remote.filter p s.time.now s.retrySpan).1 = .pass

section
variable {s : State} {sl : SliceId} {a : Arrival} {p : Packet}

theorem State.deliverHeld_none {src : Place} {g : Option Nat} (h : ((s.sl sl).dstFlow src g).held = []) (n : Nat) : s.deliverHeld sl src g n = s := by
  cases n with
  | zero => rfl
  | succ n =>
    unfold State.deliverHeld
    dsimp only
    rw [h, List.find?_nil]
    exact ite_self _

theorem State.receiveReq_delivers (h : s.Requests sl a p) :
    s.receiveReq sl a p = ((s.takeIngress sl a p).deliver sl a p).deliverHeld sl (Packet.src p) (Packet.group p) 1 := by
  have hstray : s.refuseStray sl a p = s := by
    unfold State.refuseStray
    rw [h.trusted]
    rfl
  have hdone : (if p.filtered then none else (((s.sl sl).dstFlow (Packet.src p) (Packet.group p)).completed.find? fun c => c.1 == p.msgId)) = none := by
    split
    · rfl
    · exact List.find?_eq_none.2 fun c hc hk => h.done c hc (beq_iff_eq.1 hk)
  have hturn : s.inTurn sl a p = true := by
    unfold State.inTurn
    rw [h.turn]
    rfl
  have htake : s.takeReq sl a p = ((s.takeIngress sl a p).deliver sl a p).deliverHeld sl (Packet.src p) (Packet.group p) 1 := by
    unfold State.takeReq
    dsimp only
    rw [h.good, if_neg Bool.false_ne_true, if_neg (not_not_intro h.ecrc), h.live, if_neg Bool.false_ne_true, h.skipped, if_neg Bool.false_ne_true, hdone]
    dsimp only
    rw [h.fresh, if_neg Bool.false_ne_true, h.held, List.any_nil, if_neg Bool.false_ne_true, if_neg (Nat.not_le.2 h.room), if_pos h.ready, hstray]
    rfl
  unfold State.receiveReq
  dsimp only
  rw [hturn, h.turn, htake]
  exact if_pos rfl

/-- What a request that is received leaves, once it is judged. -/
theorem State.receiveReq_spec (hs : s.Inv) (h : s.Requests sl a p) : ∃ (v : State) (m : OpenMsg), v.Inv ∧ (v.sl sl).checked = (s.sl sl).checked ∧
    (v.sl sl).HoldsNone (flowOf p) ∧ (((v.judged sl a p m).sl sl).HoldsNone (flowOf p) → s.receiveReq sl a p = v.judged sl a p m) := by
  have hr : s.Routes (s.takeIngress sl a p) := .takeIngress ..
  have hflow : ((s.takeIngress sl a p).sl sl).dstFlow (Packet.src p) (Packet.group p) = (s.sl sl).dstFlow (Packet.src p) (Packet.group p) :=
    hr.shows (π := fun x => x.dstFlow (Packet.src p) (Packet.group p)) (fun _ => rfl) sl
  have hfilter : ((s.takeIngress sl a p).sl sl).remote.filter = (s.sl sl).remote.filter := hr.shows (π := fun x => x.remote.filter) (fun _ => rfl) sl
  have hspan : (s.takeIngress sl a p).retrySpan = s.retrySpan := by
    unfold State.retrySpan
    rw [hr.pkg]
  have hearly : (s.takeIngress sl a p).checkEarly p = s.checkEarly p := by
    unfold State.checkEarly
    rw [hr.job]
  obtain ⟨v, m, h1, h2, h3, h4⟩ := State.deliver_judged ((State.Keeps.takeIngress s sl a p).2 hs) (sl := sl) (a := a) (p := p) (by rw [hflow]; exact h.held)
    (by rw [hflow]; exact h.sound) (hearly.trans h.early) (by rw [hfilter, hspan, hr.time]; exact h.filter)
  refine ⟨v, m, h1, h2.trans (hr.shows (π := SliceState.checked) (fun _ => rfl) sl), h3, fun hk => ?_⟩
  rw [State.receiveReq_delivers h, h4]
  exact State.deliverHeld_none (hk.dstFlow fun _ h => h) 1

/-- A request that an entry lets through is appended to the apply queue. -/
theorem State.receiveReq_taken (hs : s.Inv) (h : s.Requests sl a p) {i : Nat} {e : RegionEntry}
    (hf : ((s.sl sl).remote.regions.find? fun r => r.2.valid && r.2.job == p.job && r.2.holds p.dstOffset p.covers) = some (i, e))
    (hsink : ∀ r ∈ (s.sl sl).remote.regions, r.1 = i → r.2.kind ≠ 1) (hk : e.kind ≠ 1)
    (hg : e.grants p.opcode = true) (ho : e.ownerOk p.opcode p.srcNode = true)
    (hw : e.kind = 2 → p.opcode = opWRITE → (s.sl sl).tiers.inWindow p.dstOffset p.covers = true)
    (hr : regionOf p.dstOffset = .window → ((s.sl sl).ranges? p.dstOffset p.covers).isSome = true)
    (hp : (s.sl sl).readsPoison p (((s.sl sl).ranges? p.dstOffset p.covers).getD [(p.dstOffset, p.covers)]) = false) :
    ((s.receiveReq sl a p).sl sl).remote.applyQ = (s.sl sl).remote.applyQ ++ [(s.sl sl).applyItem p a] ∧ ((s.receiveReq sl a p).sl sl).mem = (s.sl sl).mem ∧
      ((s.receiveReq sl a p).sl sl).remote.refused = (s.sl sl).remote.refused := by
  obtain ⟨v, m, hv, hc, hn, heq⟩ := State.receiveReq_spec hs h
  have hregions : (v.sl sl).remote.regions = (s.sl sl).remote.regions := (congrArg (fun x : SliceState => x.remote.regions) hc :)
  have hranges : (v.sl sl).ranges? p.dstOffset p.covers = (s.sl sl).ranges? p.dstOffset p.covers :=
    (congrArg (fun x : SliceState => x.ranges? p.dstOffset p.covers) hc :)
  have hwin : (v.sl sl).tiers = (s.sl sl).tiers := (congrArg SliceState.tiers hc :)
  have hpoison (l : List (Nat × Nat)) : (v.sl sl).readsPoison p l = (s.sl sl).readsPoison p l := (congrArg (fun x : SliceState => x.readsPoison p l) hc :)
  have hitem : (v.sl sl).applyItem p a = (s.sl sl).applyItem p a := (congrArg (fun x : SliceState => x.applyItem p a) hc :)
  have hpass : v.checkLate sl p m = .pass (some i) := State.checkLate_passes h.first h.trusted (by rw [hregions]; exact hf) hk hg ho (by rw [hwin]; exact hw)
    (by rw [hranges]; exact hr) (by rw [hranges, hpoison]; exact hp)
  obtain ⟨m', hcons⟩ := State.consume_applies (s := v) (sl := sl) (a := a) (m := m) h.trusted (by rw [hregions]; exact hsink)
  have hput : (v.putMsg sl p m').sl sl = (v.sl sl).setDstFlow (((v.sl sl).dstFlow (Packet.src p) (Packet.group p)).setMsg m') :=
    State.onSl_sl_self _ _ _ (hv.slices_lt sl)
  have hpr : State.Receives (flowOf p) sl v (v.putMsg sl p m') := .putMsg (fun _ h => h) m'
  have hpi : (v.putMsg sl p m').Inv := (State.Keeps.putMsg ..).2 hv
  have hself := State.onSl_sl_self (v.putMsg sl p m') sl
    (fun x => { x with remote := { x.remote with applyQ := x.remote.applyQ ++ [x.applyItem p a] } }) (hpi.slices_lt sl)
  rw [State.judged_pass hpass, hcons] at heq
  rw [heq (by rw [hself]; exact hpr.flows hn), hself, hput]
  refine ⟨?_, (congrArg SliceState.mem hc :), (congrArg (fun x : SliceState => x.remote.refused) hc :)⟩
  show (v.sl sl).remote.applyQ ++ [(v.sl sl).applyItem p a] = _
  rw [hitem]
  exact (congrArg (fun x : SliceState => x.remote.applyQ ++ [(s.sl sl).applyItem p a]) hc :)

/-- A request that no entry holds is refused. -/
theorem State.receiveReq_refused (hs : s.Inv) (h : s.Requests sl a p)
    (hno : ∀ r ∈ (s.sl sl).remote.regions, r.2.valid = true → r.2.job = p.job → r.2.holds p.dstOffset p.covers = false) :
    ((s.receiveReq sl a p).sl sl).remote.applyQ = (s.sl sl).remote.applyQ ∧ ((s.receiveReq sl a p).sl sl).mem = (s.sl sl).mem ∧
      ((s.receiveReq sl a p).sl sl).remote.refused = (s.sl sl).remote.refused + 1 := by
  obtain ⟨v, m, hv, hc, hn, heq⟩ := State.receiveReq_spec hs h
  have hregions : (v.sl sl).remote.regions = (s.sl sl).remote.regions := (congrArg (fun x : SliceState => x.remote.regions) hc :)
  have hfail : v.checkLate sl p m = .fail nackPROT p.dstOffset 4 := State.checkLate_fails h.first h.trusted (by rw [hregions]; exact hno)
  have hr : State.Receives (flowOf p) sl (v.noteRefusal sl p p.dstOffset 4) (v.refusePacket sl p m nackPROT p.dstOffset 4) := .refusePacket (fun _ h => h) ..
  rw [State.judged_fail hfail] at heq
  rw [heq (hr.flows (noteRefusal_flows v sl p p.dstOffset 4 hn))]
  have hend := hr.endpoint.trans (noteRefusal_counts hv h.trusted p.dstOffset (by decide) (by decide))
  exact ⟨(congrArg (fun e => e.2.1) hend).trans (congrArg (fun x : SliceState => x.remote.applyQ) hc :), (congrArg (fun e => e.1) hend).trans (congrArg SliceState.mem hc :),
    (congrArg (fun e => e.2.2.2) hend).trans (congrArg (fun x : SliceState => x.remote.refused + 1) hc :)⟩

theorem State.checkEarly_passes {j : Image} (hj : s.job = some j) (hp : p.job = j.job) (ht : p.trusted = false) (hf : p.formOk = true) :
    s.checkEarly p = .pass none := by
  unfold State.checkEarly
  dsimp only
  rw [hj, hp, ht, if_neg Bool.false_ne_true]
  dsimp only
  rw [if_neg (by simp), if_pos hf]

theorem State.unicastReq_receives {op : Nat} (ho : p.opcode = op) (hd : Packet.dst p = s.place sl) : s.unicastReq sl a p op = s.receiveReq sl a p :=
  if_pos (Bool.and_eq_true_iff.2 ⟨decide_eq_true ho, beq_iff_eq.2 hd⟩)

theorem execMcastWrite_receives (ho : p.opcode = opMCAST) (h : ∀ r : PortId, a ≠ .port r) : execMcastWrite sl a p s = .next (s.receiveReq sl a p) := by
  unfold execMcastWrite
  rw [if_neg (not_not_intro ho)]
  cases a with
  | port r => exact absurd rfl (h r)
  | _ => rfl

end

/-- Settles O37: what the late checks look at is as it was when the request comes to them (`receiveReq_spec`), so the entry that holds it decides. -/
theorem remoteRequestsDelivered : Obligations.RemoteRequestsDelivered := by
  unfold Obligations.RemoteRequestsDelivered
  intro s sl a p j hs hj hjob ht hfirst hlast hform hcrc hgood hlive hturn x f hheld hskip hfresh hready hsound hdone hroom hfilter taken refused each
  have h : s.Requests sl a p := ⟨ht, hfirst, hlast, State.checkEarly_passes hj hjob ht hform, hcrc, hgood, hlive, hturn, hheld, hskip, hfresh, hready, hsound, hdone,
    hroom, hfilter⟩
  -- each of the commands is the receiver's taking of the request
  have hall (q : Instr → Prop) (hq : ∀ i, exec i s = .next (s.receiveReq sl a p) → q i) : each q :=
    ⟨fun hd ho => hq _ (congrArg _ (State.unicastReq_receives ho hd)), fun hd ho => hq _ (congrArg _ (State.unicastReq_receives ho hd)),
      fun hd ho => hq _ (congrArg _ (State.unicastReq_receives ho hd)), fun hd ho => hq _ (congrArg _ (State.unicastReq_receives ho hd)),
      fun hd ho => hq _ (congrArg _ (State.unicastReq_receives ho hd)), fun ho hn => hq _ (execMcastWrite_receives ho hn)⟩
  exact ⟨fun i e hf hsink hk hg ho hw hr hp => hall _ fun _ hi => ⟨_, hi, State.receiveReq_taken hs h hf hsink hk hg ho hw hr hp⟩,
    fun hno => hall _ fun _ hi => ⟨_, hi, State.receiveReq_refused hs h hno⟩⟩

end Sys2Proof.Machine
end

section
/-! Frames that are sent, and packets that start. -/

namespace Sys2Proof.Machine

/-! ### Frames that are sent -/

/-- What a change of a link leaves of any link. -/
theorem SliceState.link_onLink_of {β : Type} {π : Link → β} {f : Link → Link} (h : ∀ k, π (f k) = π k) (x : SliceState) (l l' : LinkId) :
    π ((x.onLink l' f).link l) = π (x.link l) := by
  have hlist (ls : List Link) (i j : Nat) : π ((ls.modify i f).getD j {}) = π (ls.getD j {}) := by
    rw [List.getD_eq_getElem?_getD, List.getD_eq_getElem?_getD, List.getElem?_modify]
    cases ls[j]? with
    | none => rfl
    | some k =>
      show π (if i = j then f k else k) = π k
      split
      · exact h k
      · rfl
  unfold SliceState.onLink SliceState.link
  cases l' with
  | port p =>
    cases l with
    | port q => exact hlist ..
    | link k => rfl
  | link k =>
    cases l with
    | port q => rfl
    | link j => exact hlist ..

theorem State.link_onLink_of {β : Type} {π : Link → β} {f : Link → Link} (h : ∀ k, π (f k) = π k) (s : State) (i j : Nat) (l l' : LinkId) :
    π ((s.onLink i l' f).link j l) = π (s.link j l) :=
  State.Agree.onSl (π := fun x => π (x.link l)) (fun x => x.link_onLink_of h l l') j

/-- What a link shows of its frames, without the credits to return, the NAK and the session. -/
def Link.frames (k : Link) : Bytes × List KeptFrame × Nat := (k.txStream, k.kept, k.txSeq)

section
variable {s : State} {sl : SliceId} {l : LinkId} (hs : s.Inv)
include hs

theorem State.transmit_spec (b : Bytes × Link) : (s.transmit sl l b).out = s.out ++ [.frame sl l b.1] ∧ (s.transmit sl l b).link sl l = b.2 :=
  ⟨rfl, State.link_onLink hs sl l fun _ => b.2⟩

end

theorem State.nextSymbol_link (s : State) (k : Link) : (s.nextSymbol k).2 = { k with symbols := (s.nextSymbol k).2.symbols } := by
  unfold State.nextSymbol
  cases k.symbols <;> rfl

theorem buildFrame_link (k : Link) (limit kind seq : Nat) (slot stream : Bytes) :
    (buildFrame k limit kind seq slot stream).2.frames = k.frames ∧ (buildFrame k limit kind seq slot stream).2.nakOwed = false := ⟨rfl, rfl⟩

section
variable {s : State} {sl : SliceId} {l : LinkId} (hs : s.Inv) (hr : (s.link sl l).resend = [])
include hs hr

/-- A link with data and room to keep them sends a DATA frame. -/
theorem State.sendUp_data (ht : (s.link sl l).txStream ≠ []) (hk : (s.link sl l).kept.length < 512) : ∃ f, (s.sendUp sl l).out = s.out ++ [.frame sl l f] ∧
    ((s.sendUp sl l).link sl l).frames = ((s.link sl l).txStream.drop 960,
      (s.link sl l).kept ++ [{ seq := (s.link sl l).txSeq, stream := slice (s.link sl l).txStream 0 960 }], ((s.link sl l).txSeq + 1) % 4096) := by
  have hn := s.nextSymbol_link (s.link sl l)
  unfold State.sendUp
  dsimp only
  generalize (s.nextSymbol (s.link sl l)).1 = slot
  generalize (s.nextSymbol (s.link sl l)).2 = k at hn
  have hres : k.resend = [] := (congrArg Link.resend hn).trans hr
  have hne : k.txStream.isEmpty = false := by
    rw [hn]
    exact List.isEmpty_eq_false_iff.2 ht
  have hlen : ¬ 512 ≤ k.kept.length := by
    rw [hn]
    exact Nat.not_le.2 hk
  rw [hres]
  dsimp only
  rw [hne, decide_eq_false hlen, Bool.or_self, if_neg Bool.false_ne_true]
  refine ⟨_, (State.transmit_spec hs _).1, ?_⟩
  rw [(State.transmit_spec hs _).2, (buildFrame_link ..).1, hn]
  rfl

/-- A link with nothing to send, or no room to keep it, sends an IDLE frame. -/
theorem State.sendUp_idle (h : (s.link sl l).txStream = [] ∨ 512 ≤ (s.link sl l).kept.length) : ∃ f, (s.sendUp sl l).out = s.out ++ [.frame sl l f] ∧
    ((s.sendUp sl l).link sl l).frames = (s.link sl l).frames ∧ ((s.sendUp sl l).link sl l).nakOwed = false := by
  have hn := s.nextSymbol_link (s.link sl l)
  unfold State.sendUp
  dsimp only
  generalize (s.nextSymbol (s.link sl l)).1 = slot
  generalize (s.nextSymbol (s.link sl l)).2 = k at hn
  have hres : k.resend = [] := (congrArg Link.resend hn).trans hr
  have hidle : (k.txStream.isEmpty || decide (512 ≤ k.kept.length)) = true := by
    rw [hn, Bool.or_eq_true]
    exact h.imp List.isEmpty_iff.2 decide_eq_true
  rw [hres]
  dsimp only
  rw [if_pos hidle]
  refine ⟨_, (State.transmit_spec hs _).1, ?_⟩
  rw [(State.transmit_spec hs _).2, (buildFrame_link ..).1, (buildFrame_link ..).2, hn]
  exact ⟨rfl, rfl⟩

end

/-! ### Packets that start on an egress -/

/-- What a link shows but for the credits that it owes its peer. -/
def Link.owing (k : Link) : Link := { k with reqReturn := 0, rspReturn := 0 }

theorem State.creditBack_owing (s : State) (i : Nat) (a : Arrival) (p : Packet) (j : Nat) (l : LinkId) :
    ((s.creditBack i a p).link j l).owing = (s.link j l).owing := by
  unfold State.creditBack
  dsimp only
  cases a with
  | own => rfl
  | port q => exact s.link_onLink_of (fun k => by cases netOf p.opcode <;> rfl) ..
  | link q => exact s.link_onLink_of (fun k => by cases netOf p.opcode <;> rfl) ..

theorem State.freeHold_owing (s : State) (i : Nat) (a : Arrival) (h : Option Nat) (p : Packet) (j : Nat) (l : LinkId) :
    ((s.freeHold i a h p).link j l).owing = (s.link j l).owing := by
  unfold State.freeHold
  cases h with
  | none => rfl
  | some n =>
    dsimp only
    split
    · rfl
    · exact s.creditBack_owing ..

section
variable {s : State} {sl : SliceId} {l : LinkId}

theorem State.startEgress_spec (hs : s.Inv) (n : Net) (q : Queued) : ((s.startEgress sl l n q).link sl l).owing = ((s.link sl l).startPacket l n q |>.owing) := by
  unfold State.startEgress
  rw [State.freeHold_owing, State.link_onLink hs]

end

theorem SliceState.mem_claims {x : SliceState} {qs : List Queued} : ∀ k ∈ x.claims qs, k.2 ∈ qs := by
  have hfold (rs : List Queued) (a : List (Nat × Queued)) (ha : ∀ k ∈ a, k.2 ∈ qs) (hrs : ∀ q ∈ rs, q ∈ qs) :
      ∀ k ∈ rs.foldl (fun a q =>
        let c := (if q.pkt.sched then 0 else 100) + x.claimant q
        if a.any fun k => k.1 % 100 == c % 100 then a else a ++ [(c, q)]) a, k.2 ∈ qs := by
    induction rs generalizing a with
    | nil => exact ha
    | cons q rs ih =>
      refine ih _ ?_ fun r hr => hrs r (List.mem_cons_of_mem _ hr)
      dsimp only
      generalize (if q.pkt.sched then 0 else 100) + x.claimant q = c
      split
      · exact ha
      · intro k hk
        rcases List.mem_append.1 hk with hk | hk
        · exact ha k hk
        · rw [List.mem_singleton.1 hk]
          exact hrs q List.mem_cons_self
  exact hfold qs [] (fun _ h => absurd h List.not_mem_nil) fun _ h => h

/-- The packet that an egress starts waits there, and its credits are there. -/
theorem SliceState.nextEgress_some {x : SliceState} {qs : List Queued} {c : Nat} {q : Queued} (h : x.nextEgress qs c = some q) :
    q ∈ qs ∧ packetCredits q.pkt ≤ c := by
  have hfold (ks : List (Nat × Queued)) (b : Option (Nat × Queued)) (P : Nat × Queued → Prop) (hb : ∀ k, b = some k → P k) (hk : ∀ k ∈ ks, P k) :
      ∀ k, ks.foldl (fun (b : Option (Nat × Queued)) k => match b with
        | none => some k
        | some c => if k.1 < c.1 then some k else b) b = some k → P k := by
    induction ks generalizing b with
    | nil => exact hb
    | cons k ks ih =>
      refine ih _ (fun j hj => ?_) fun j hj => hk j (List.mem_cons_of_mem _ hj)
      have hself : P k := hk k List.mem_cons_self
      cases b with
      | none => exact Option.some.inj hj ▸ hself
      | some d =>
        dsimp only at hj
        split at hj
        · exact Option.some.inj hj ▸ hself
        · exact hb j hj
  unfold SliceState.nextEgress at h
  obtain ⟨k, hk, rfl⟩ := Option.map_eq_some_iff.1 h
  refine hfold _ none (fun k => k.2 ∈ qs ∧ packetCredits k.2.pkt ≤ c) (fun _ h => absurd h (by simp)) (fun k hk => ?_) k hk
  obtain ⟨h1, h2⟩ := List.mem_filter.1 hk
  exact ⟨SliceState.mem_claims k h1, of_decide_eq_true h2⟩

end Sys2Proof.Machine
end

section
/-! Frames that are received. -/

namespace Sys2Proof.Machine

/-! ### Frames that are received -/

/-- What a link shows but for the rate of its corrected symbols. -/
def Link.rated (k : Link) : Link := { k with fecSecond := 0, fecCount := 0, fecHot := 0 }

theorem Link.fecRate_rated (k : Link) (now n : Nat) : (k.fecRate now n).rated = k.rated := by
  unfold Link.fecRate
  dsimp only
  split <;> rfl

/-- What the FEC of a port leaves of a link with corrected symbols. -/
def Link.corrected (now n : Nat) (k : Link) : Link := ({ k with fecCorrected := k.fecCorrected + n } : Link).fecRate now n

section
variable (now n : Nat) (k : Link)

theorem Link.corrected_st : (k.corrected now n).st = k.st := (congrArg Link.st (Link.fecRate_rated { k with fecCorrected := k.fecCorrected + n } now n) :)

theorem Link.corrected_counts : (k.corrected now n).fecCorrected = k.fecCorrected + n ∧ (k.corrected now n).fecUncorrectable = k.fecUncorrectable ∧
    (k.corrected now n).fecTimes = k.fecTimes :=
  have h := Link.fecRate_rated { k with fecCorrected := k.fecCorrected + n } now n
  ⟨(congrArg Link.fecCorrected h :), (congrArg Link.fecUncorrectable h :), (congrArg Link.fecTimes h :)⟩

end

theorem State.onLink_onLink (s : State) (i : Nat) (l : LinkId) (f g : Link → Link) : (s.onLink i l f).onLink i l g = s.onLink i l (g ∘ f) := by
  unfold State.onLink
  rw [State.onSl_onSl]
  congr 1
  funext x
  cases l with
  | port p => exact congrArg (fun ls => { x with ports := ls }) (List.modify_modify_eq ..)
  | link k => exact congrArg (fun ls => { x with ilinks := ls }) (List.modify_modify_eq ..)

/-- An uncorrectable codeword of a link that is UP. -/
theorem State.fecFail_spec {s : State} (hs : s.Inv) {sl : SliceId} {l : LinkId} (hup : (s.link sl l).st = linkUp) {recent : Nat}
    (hr : ((s.link sl l).fecTimes.filter fun c => decide (s.time.now < c + 256000000)).length = recent) :
    ((s.fecFail sl l).link sl l).fecUncorrectable = (s.link sl l).fecUncorrectable + 1 ∧
      (recent < 64 → ((s.fecFail sl l).link sl l).st = linkUp ∧ ((s.fecFail sl l).link sl l).fecCorrected = (s.link sl l).fecCorrected) ∧
      (64 ≤ recent → ((s.fecFail sl l).link sl l).st = linkDown) := by
  unfold State.fecFail
  dsimp only
  generalize ht : (State.onLink s sl l fun k => _) = t
  have hti : t.Inv := ht ▸ (State.Keeps.onLink ..).2 hs
  have htl : t.link sl l = { s.link sl l with
      fecUncorrectable := (s.link sl l).fecUncorrectable + 1
      fecTimes := ((s.link sl l).fecTimes.filter fun x => decide (s.time.now < x + 256000000)) ++ [s.time.now] } := by
    rw [← ht, State.link_onLink hs]
  have hrep : (t.report sl { cls := 0x0C, unit := LinkId.unit l }).link sl l = t.link sl l := State.Agree.report (π := fun x => x.link l) (fun _ _ => rfl) sl
  generalize hu : t.report sl { cls := 0x0C, unit := LinkId.unit l } = u at hrep
  have hui : u.Inv := hu ▸ (State.Keeps.report ..).2 hti
  have hul := hrep.trans htl
  have hlen : (u.link sl l).fecTimes.length = recent + 1 := by
    rw [hul]
    exact List.length_append.trans (congrArg (· + 1) hr)
  have hust : (u.link sl l).st = linkUp := (congrArg Link.st hul).trans hup
  by_cases hc : 64 ≤ recent
  · rw [if_pos (by rw [hlen, hust]; exact Bool.and_eq_true_iff.2 ⟨decide_eq_true (Nat.lt_succ_of_le hc), decide_eq_true rfl⟩)]
    have hg := State.goDown_from_up hust linkDown 3
    have hcl := (State.link_onLink ((u.dropLink_keeps sl l linkDown 3).2 hui) sl l _ : (u.countLoss sl l (u.dropLink sl l linkDown 3)).link sl l = _)
    rw [State.link_dropLink hui] at hcl
    refine ⟨(hg.link (π := Link.fecUncorrectable) (fun _ => rfl) sl l).trans ?_, fun h => absurd hc (Nat.not_le.2 h), fun _ => (State.link_goDown_up hui hust linkDown 3).1⟩
    exact (congrArg Link.fecUncorrectable hcl).trans (congrArg Link.fecUncorrectable hul :)
  · rw [if_neg (by rw [hlen, Bool.and_eq_true, decide_eq_true_iff]; omega)]
    exact ⟨congrArg Link.fecUncorrectable hul, fun _ => ⟨hust, (congrArg Link.fecCorrected hul :)⟩, fun h => absurd h hc⟩

/-- A header that asks for no replay. -/
theorem Link.takeHeader_spec (k : Link) {h : Nat} (hn : bit h 14 = false) : (k.takeHeader h).reqCredits = k.reqCredits + bits h 39 28 ∧
    (k.takeHeader h).rspCredits = k.rspCredits + bits h 51 40 ∧ (k.takeHeader h).rxSeq = k.rxSeq ∧ (k.takeHeader h).rxStream = k.rxStream ∧
    ∀ pre y post, k.kept = pre ++ y :: post → y.seq = bits h 27 16 → (∀ z ∈ pre, z.seq ≠ bits h 27 16) → (k.takeHeader h).kept = post := by
  have heq : k.takeHeader h = { k with
      kept := (if k.kept.any fun x => x.seq == bits h 27 16 then ((k.kept.dropWhile fun x => x.seq != bits h 27 16).drop 1) else k.kept)
      resend := k.resend.filter fun f => (if k.kept.any fun x => x.seq == bits h 27 16 then ((k.kept.dropWhile fun x => x.seq != bits h 27 16).drop 1) else k.kept).any
        fun x => x.seq == f
      reqCredits := k.reqCredits + bits h 39 28, rspCredits := k.rspCredits + bits h 51 40 } := by
    unfold Link.takeHeader
    dsimp only
    rw [hn]
    rfl
  refine ⟨congrArg Link.reqCredits heq, congrArg Link.rspCredits heq, (congrArg Link.rxSeq heq :), (congrArg Link.rxStream heq :), fun pre y post hk hy hpre => ?_⟩
  refine (congrArg Link.kept heq).trans ?_
  show (if k.kept.any fun x => x.seq == bits h 27 16 then ((k.kept.dropWhile fun x => x.seq != bits h 27 16).drop 1) else k.kept) = post
  have hdrop : (pre ++ y :: post).dropWhile (fun x => x.seq != bits h 27 16) = y :: post := by
    rw [List.dropWhile_append_of_pos fun z hz => bne_iff_ne.2 (hpre z hz), List.dropWhile_cons_of_neg (by rw [hy]; simp)]
  have hany : ((pre ++ y :: post).any fun x => x.seq == bits h 27 16) = true :=
    List.any_eq_true.2 ⟨y, List.mem_append_right _ List.mem_cons_self, beq_iff_eq.2 hy⟩
  rw [hk, hany, if_pos rfl, hdrop]
  rfl

/-- Fill holds no packet. -/
theorem State.parseStream_fill (s : State) (inner : Bool) (n : Nat) {b : Bytes} (h : ∀ x ∈ b, x = 0) : (s.parseStream inner n b).1 = [] := by
  induction n generalizing b with
  | zero => rfl
  | succ n ih =>
    unfold State.parseStream
    split
    · rfl
    · next hne =>
      have hall : (b.all fun x => x == 0) = true := List.all_eq_true.2 fun x hx => beq_iff_eq.2 (h x hx)
      have hhead : (b.getD 0 0 == 0) = true := by
        cases b with
        | nil => rfl
        | cons x b => exact beq_iff_eq.2 (h x List.mem_cons_self)
      cases inner with
      | true => rw [if_pos rfl, if_pos hall]
      | false =>
        rw [if_neg Bool.false_ne_true, if_pos hhead]
        exact ih fun x hx => h x (List.mem_of_mem_drop hx)

/-! ### O36 -/

section
variable {s : State} {sl : SliceId} {l : LinkId} (hs : s.Inv) (hup : (s.link sl l).st = linkUp)
include hup

theorem execLinkFrame_up (f : Bytes) (n : Nat) (fec : Fec) : exec (.linkFrame sl l f n fec) s = if (s.fecOf sl l n fec).2 ∨ f.length ≠ 1024 ∨
    crc32c (f.take 1020) ≠ leNat (slice f 1020 4) then .next ((s.fecOf sl l n fec).1.onLink sl l fun y => if y.st = linkUp then y.badFrame else y)
    else .next ((s.fecOf sl l n fec).1.goodFrame sl l f) := by
  show execLinkFrame sl l f n fec s = _
  unfold execLinkFrame
  dsimp only
  rw [if_neg (by rw [hup]; decide)]
  by_cases h : (s.fecOf sl l n fec).2 = true
  · rw [if_pos h, if_pos (.inl h)]
  · rw [if_neg h]
    by_cases h' : f.length ≠ 1024 ∨ crc32c (f.take 1020) ≠ leNat (slice f 1020 4)
    · rw [if_pos h', if_pos (.inr h')]
    · rw [if_neg h', if_neg (not_or.2 ⟨h, h'⟩)]

include hs

/-- A frame that fails leaves a port that is UP so. -/
theorem link_badFrame_up : (s.onLink sl l fun y => if y.st = linkUp then y.badFrame else y).link sl l = (s.link sl l).badFrame := by
  rw [State.link_onLink hs, if_pos hup]

/-- A good DATA frame of fill on a link without keys. -/
theorem State.goodFrame_fill {f : Bytes} (hkey : (s.link sl l).sess.rxKey = []) (hslot : bits (leNat (slice f 12 32)) 7 0 = 0)
    (hkind : bits (leNat (slice f 0 12)) 13 12 = kindDATA) (hnak : bit (leNat (slice f 0 12)) 14 = false) (hfill : ∀ b ∈ slice f 44 960, b = 0)
    (hrx : (s.link sl l).rxStream = []) : ((s.goodFrame sl l f).link sl l).reqCredits = (s.link sl l).reqCredits + bits (leNat (slice f 0 12)) 39 28 ∧
      ((s.goodFrame sl l f).link sl l).rspCredits = (s.link sl l).rspCredits + bits (leNat (slice f 0 12)) 51 40 ∧
      ((s.goodFrame sl l f).link sl l).rxSeq =
        (if bits (leNat (slice f 0 12)) 11 0 = ((s.link sl l).rxSeq + 1) % 4096 then bits (leNat (slice f 0 12)) 11 0 else (s.link sl l).rxSeq) ∧
      ((s.goodFrame sl l f).link sl l).nakSent = (if bits (leNat (slice f 0 12)) 11 0 = ((s.link sl l).rxSeq + 1) % 4096 then false else true) ∧
      ∀ pre y post, (s.link sl l).kept = pre ++ y :: post → y.seq = bits (leNat (slice f 0 12)) 27 16 →
        (∀ z ∈ pre, z.seq ≠ bits (leNat (slice f 0 12)) 27 16) → ((s.goodFrame sl l f).link sl l).kept = post := by
  generalize hh : leNat (slice f 0 12) = h at hkind hnak ⊢
  obtain ⟨h1, h2, h3, h4, h5⟩ := (s.link sl l).takeHeader_spec hnak
  have hslots (u : State) : u.takeSlot sl l (slice f 12 32) = u := by
    unfold State.takeSlot
    dsimp only
    rw [hslot]
    cases l <;> rfl
  have heq : s.goodFrame sl l f = (s.onLink sl l fun y => ({ y with sess := (s.link sl l).sess }).takeHeader h).takeData sl l (bits h 11 0) (slice f 44 960) := by
    unfold State.goodFrame
    dsimp only
    rw [if_neg (not_not_intro hup), if_pos hkey, hh]
    dsimp only
    rw [if_pos hkind, hslots]
  have hlink : (s.onLink sl l fun y => ({ y with sess := (s.link sl l).sess }).takeHeader h).link sl l = (s.link sl l).takeHeader h := State.link_onLink hs ..
  have hki : (s.onLink sl l fun y => ({ y with sess := (s.link sl l).sess }).takeHeader h).Inv := (State.Keeps.onLink ..).2 hs
  rw [heq]
  generalize (s.onLink sl l fun y => ({ y with sess := (s.link sl l).sess }).takeHeader h) = t at hlink hki
  have hseq : (t.link sl l).rxSeq = (s.link sl l).rxSeq := (congrArg Link.rxSeq hlink).trans h3
  have hstream : (t.link sl l).rxStream = [] := (congrArg Link.rxStream hlink).trans (h4.trans hrx)
  unfold State.takeData
  dsimp only
  rw [hseq]
  by_cases hin : bits h 11 0 = ((s.link sl l).rxSeq + 1) % 4096
  · rw [if_pos hin, if_pos hin, if_pos hin, hstream, List.nil_append, State.parseStream_fill _ _ _ hfill, List.foldl_nil, State.link_onLink hki, hlink]
    exact ⟨h1, h2, rfl, rfl, h5⟩
  · rw [if_neg hin, if_neg hin, if_neg hin, State.link_onLink hki, hlink]
    exact ⟨h1, h2, h3, rfl, h5⟩

end

/-- Settles O36: by the branches of a send, a receive and an egress; the link is followed through the FEC, the CRC and the header. -/
theorem linkFrames : Obligations.LinkFrames := by
  unfold Obligations.LinkFrames
  intro s sl l hs hup x k
  have hsend : exec (.linkFrameSend sl l) s = .next (s.sendUp sl l) := if_pos hup
  have hcorr (n : Nat) : (s.onLink sl l (Link.corrected s.time.now n)).Inv ∧ (s.onLink sl l (Link.corrected s.time.now n)).link sl l = k.corrected s.time.now n :=
    ⟨(State.Keeps.onLink ..).2 hs, State.link_onLink hs ..⟩
  refine ⟨fun hr ht hk => ?_, fun hr h => ?_, ?_, ?_, ?_, ?_, fun qs c q h => SliceState.nextEgress_some h, fun q hq => ?_, fun hq => ?_⟩
  · obtain ⟨f, h1, h2⟩ := State.sendUp_data hs hr ht hk
    obtain ⟨h3, h4⟩ := Prod.mk.inj h2
    obtain ⟨h4, h5⟩ := Prod.mk.inj h4
    exact ⟨_, f, hsend, h1, h3, h5, h4⟩
  · obtain ⟨f, h1, h2, h3⟩ := State.sendUp_idle hs hr h
    obtain ⟨h4, h5⟩ := Prod.mk.inj h2
    obtain ⟨h5, h6⟩ := Prod.mk.inj h5
    exact ⟨_, f, hsend, h1, h4, h5, h6, h3⟩
  · intro p f n hl recent
    obtain ⟨hi, hlink⟩ := hcorr n
    have hst : ((s.onLink sl l (Link.corrected s.time.now n)).link sl l).st = linkUp := by
      rw [hlink, Link.corrected_st]
      exact hup
    obtain ⟨hc1, hc2, hc3⟩ := Link.corrected_counts s.time.now n k
    have hfec (w : Nat) : exec (.linkFrame sl l f n { bad := true, words := w }) s =
        .next (((List.range w).foldl (fun (v : State) _ => v.fecFail sl l) (s.onLink sl l (Link.corrected s.time.now n))).onLink sl l
          fun y => if y.st = linkUp then y.badFrame else y) := by
      have hof : s.fecOf sl l n { bad := true, words := w } =
          ((List.range w).foldl (fun (v : State) _ => v.fecFail sl l) (s.onLink sl l (Link.corrected s.time.now n)), true) := by
        rw [hl]
        rfl
      rw [execLinkFrame_up hup, hof, if_pos (.inl rfl)]
    obtain ⟨h1, h2, h3⟩ := State.fecFail_spec hi hst (recent := recent) (by rw [hlink, hc3]; rfl)
    have hfi : ((s.onLink sl l (Link.corrected s.time.now n)).fecFail sl l).Inv := (State.Keeps.fecFail ..).2 hi
    have hnone : exec (.linkFrame sl l f n { bad := true, words := 0 }) s =
      .next ((s.onLink sl l (Link.corrected s.time.now n)).onLink sl l fun y => if y.st = linkUp then y.badFrame else y) := hfec 0
    have hone : exec (.linkFrame sl l f n { bad := true, words := 1 }) s =
      .next (((s.onLink sl l (Link.corrected s.time.now n)).fecFail sl l).onLink sl l fun y => if y.st = linkUp then y.badFrame else y) := hfec 1
    refine ⟨⟨_, hnone, ?_⟩, fun hlt => ⟨_, hone, ?_⟩, fun hle => ⟨_, hone, ?_⟩⟩
    · rw [link_badFrame_up hi hst, hlink]
      exact ⟨hc2, hc1, (Link.corrected_st ..).trans hup, rfl⟩
    · obtain ⟨h4, h5⟩ := h2 hlt
      rw [link_badFrame_up hfi h4]
      exact ⟨h1.trans (by rw [hlink, hc2]), h5.trans (by rw [hlink, hc1]), h4, rfl⟩
    · have h4 := h3 hle
      rw [State.link_onLink hfi, if_neg (by rw [h4]; decide)]
      exact ⟨h4, h1.trans (by rw [hlink, hc2])⟩
  · intro i f n fec hl
    subst hl
    rw [execLinkFrame_up hup, execLinkFrame_up hup]
    rfl
  · intro f hf
    refine ⟨fun i hl => ?_, fun p n hl => ?_⟩
    · have hof : s.fecOf sl l 0 {} = (s, false) := by
        rw [hl]
        rfl
      rw [execLinkFrame_up hup, hof, if_pos (.inr hf)]
      exact congrArg _ (State.onLink_congr_at (if_pos hup))
    · have hof : s.fecOf sl l n {} = (s.onLink sl l (Link.corrected s.time.now n), false) := by
        rw [hl]
        rfl
      rw [execLinkFrame_up hup, hof, if_pos (.inr hf)]
      dsimp only
      rw [State.onLink_onLink]
      exact congrArg _ (State.onLink_congr_at (if_pos ((Link.corrected_st ..).trans hup)))
  · intro f hlen hcrc hkey hslot h hkind hnak hfill hrx
    have hgood (u : State) (hof : (s.fecOf sl l 0 {}) = (u, false)) : exec (.linkFrame sl l f 0 {}) s = .next (u.goodFrame sl l f) := by
      rw [execLinkFrame_up hup, hof, if_neg]
      rintro (h | h | h)
      · exact Bool.false_ne_true h
      · exact h hlen
      · exact h hcrc
    cases l with
    | link i => exact ⟨_, hgood s rfl, State.goodFrame_fill hs hup hkey hslot hkind hnak hfill hrx⟩
    | port p =>
      obtain ⟨hi, hlink⟩ := hcorr 0
      have hrated : (k.corrected s.time.now 0).rated = ({ k with fecCorrected := k.fecCorrected + 0 } : Link).rated := Link.fecRate_rated ..
      have hof : s.fecOf sl (.port p) 0 {} = (s.onLink sl (.port p) (Link.corrected s.time.now 0), false) := rfl
      generalize s.onLink sl (.port p) (Link.corrected s.time.now 0) = u at hi hlink hof
      have hview {β : Type} (π : Link → β) (hπ : ∀ k, π k.rated = π k) (hc : ∀ c, π ({ k with fecCorrected := c } : Link) = π k) : π (u.link sl (.port p)) = π k := by
        rw [hlink, ← hπ, hrated, hπ, hc]
      have hst := hview Link.st (fun _ => rfl) fun _ => rfl
      have hseq := hview Link.rxSeq (fun _ => rfl) fun _ => rfl
      have hkept := hview Link.kept (fun _ => rfl) fun _ => rfl
      have hreq := hview Link.reqCredits (fun _ => rfl) fun _ => rfl
      have hrsp := hview Link.rspCredits (fun _ => rfl) fun _ => rfl
      have hall := State.goodFrame_fill hi (hst.trans hup) ((hview (fun k => k.sess.rxKey) (fun _ => rfl) fun _ => rfl).trans hkey) hslot hkind hnak hfill
        ((hview Link.rxStream (fun _ => rfl) fun _ => rfl).trans hrx)
      rw [hseq, hkept, hreq, hrsp] at hall
      exact ⟨_, hgood _ hof, hall⟩
  · refine ⟨⟨s.startEgress sl l .rsp q, ?_, ?_⟩, ?_⟩
    · show execEgressPacketStart sl l .rsp s = _
      unfold execEgressPacketStart
      dsimp only
      rw [if_neg (not_not_intro hup), hq]
    · have hspec := State.startEgress_spec (l := l) (sl := sl) hs .rsp q
      exact ⟨(congrArg Link.txStream hspec :), (congrArg Link.egressRsp hspec :), (congrArg Link.egressReq hspec :), (congrArg Link.rspCredits hspec :),
        (congrArg Link.reqCredits hspec :)⟩
    · show execEgressPacketStart sl l .req s = _
      unfold execEgressPacketStart
      dsimp only
      rw [if_neg (not_not_intro hup), hq]
  · refine ⟨?_, fun hn => ?_, fun q hq' => ⟨s.startEgress sl l .req q, ?_, ?_⟩⟩
    · show execEgressPacketStart sl l .rsp s = _
      unfold execEgressPacketStart
      dsimp only
      rw [if_neg (not_not_intro hup), hq]
    · show execEgressPacketStart sl l .req s = _
      unfold execEgressPacketStart
      dsimp only
      rw [if_neg (not_not_intro hup), hq, hn]
    · show execEgressPacketStart sl l .req s = _
      unfold execEgressPacketStart
      dsimp only
      rw [if_neg (not_not_intro hup), hq, hq']
    · have hspec := State.startEgress_spec (l := l) (sl := sl) hs .req q
      exact ⟨(congrArg Link.txStream hspec :), (congrArg Link.egressReq hspec :), (congrArg Link.egressRsp hspec :), (congrArg Link.reqCredits hspec :),
        (congrArg Link.rspCredits hspec :)⟩

end Sys2Proof.Machine
end

section
/-! A router forwards. -/

namespace Sys2Proof.Machine

/-! ### A router forwards -/

/-- What waits on a link to leave. -/
def Link.queues (k : Link) : List Queued × List Queued := (k.egressReq, k.egressRsp)


section
variable (s : State) (i : Nat) (a : Arrival) (p : Packet) (j : Nat) (l : LinkId)

theorem State.creditBack_err : State.Agree SliceState.err s (s.creditBack i a p) := by
  unfold State.creditBack State.onLink
  dsimp only
  cases a with
  | own => exact .refl s
  | port q => exact .onSl fun _ => rfl
  | link q => exact .onSl fun _ => rfl

theorem State.freeHold_err (h : Option Nat) : State.Agree SliceState.err s (s.freeHold i a h p) := by
  unfold State.freeHold
  cases h with
  | none => exact .refl s
  | some n => exact .ite (.refl s) (s.creditBack_err i a p)

theorem State.freeHold_queues (h : Option Nat) : ((s.freeHold i a h p).link j l).queues = (s.link j l).queues :=
  (congrArg Link.queues (s.freeHold_owing i a h p j l) :)

theorem State.takeOwn_spec : State.Agree (fun x => (x.err, x.fabric.nextHold)) s (s.takeOwn i p) ∧ ((s.takeOwn i p).link j l).queues = (s.link j l).queues := by
  unfold State.takeOwn
  cases (s.sl i).fabric.inject.find? fun q => q.pkt == p with
  | none => exact ⟨.refl s, rfl⟩
  | some q =>
    dsimp only
    generalize ht : (State.onSl s i fun x => _) = t
    have hta : State.Agree (fun x => (x.err, x.fabric.nextHold, x.link l)) s t := ht ▸ .onSl fun _ => rfl
    refine ⟨fun k => ?_, (t.freeHold_queues i q.origin p j l q.hold).trans (congrArg (fun e => e.2.2.queues) (hta j))⟩
    have h1 := t.freeHold_err i q.origin p q.hold k
    have h2 : ((t.freeHold i q.origin q.hold p).sl k).fabric.nextHold = (t.sl k).fabric.nextHold := by
      have hf : State.Agree (fun x => x.fabric) t (t.freeHold i q.origin q.hold p) := by
        unfold State.freeHold State.creditBack State.onLink
        cases q.hold with
        | none => exact .refl t
        | some n =>
          dsimp only
          refine .ite (.refl t) ?_
          cases q.origin with
          | own => exact .refl t
          | port q => exact .onSl fun _ => rfl
          | link q => exact .onSl fun _ => rfl
      exact congrArg Fabric.nextHold (hf k)
    exact (Prod.ext h1 h2).trans (congrArg (fun e => (e.1, e.2.1)) (hta k))

theorem State.liftIngress_spec : State.Agree (fun x => (x.err, x.fabric.nextHold)) s (s.liftIngress i a p) ∧
    ((s.liftIngress i a p).link j l).queues = (s.link j l).queues := by
  unfold State.liftIngress
  dsimp only
  cases a with
  | own => exact s.takeOwn_spec i p j l
  | port q => exact ⟨.onSl fun _ => rfl, s.link_onLink_of (fun k => by cases netOf p.opcode <;> rfl) ..⟩
  | link q => exact ⟨.onSl fun _ => rfl, s.link_onLink_of (fun k => by cases netOf p.opcode <;> rfl) ..⟩

/-- A router that forwards: what it leaves is what routing the lifted packet leaves. -/
theorem State.forward_spec (r : Option Nat) : ((s.forward i a r p).link j l).queues = (((s.liftIngress i a p).routePacket i a r p).link j l).queues ∧
    State.Agree SliceState.err ((s.liftIngress i a p).routePacket i a r p) (s.forward i a r p) := by
  unfold State.forward
  dsimp only
  generalize (s.liftIngress i a p).routePacket i a r p = t
  generalize hu : (if s.waits i a p then t.freeHold i a (some (s.sl i).fabric.nextHold) p else t) = u
  have huq : (u.link j l).queues = (t.link j l).queues := by
    rw [← hu]
    split
    · exact t.freeHold_queues ..
    · rfl
  have hue : State.Agree SliceState.err t u := hu ▸ .ite (t.freeHold_err i a p _) (.refl t)
  have hlast : State.Agree (fun x => (x.err, x.link l)) u (u.onSl i fun x => { x with fabric := { x.fabric with nextHold := (s.sl i).fabric.nextHold + 1 } }) :=
    .onSl fun _ => rfl
  exact ⟨(congrArg (fun e => e.2.queues) (hlast j)).trans huq, hue.trans fun k => congrArg (fun e => e.1) (hlast k)⟩

/-- The ports that serve a node are as they were. -/
theorem State.eligible_routes {s t : State} (h : s.Routes t) (dst epoch : Nat) : t.eligible dst epoch = s.eligible dst epoch := by
  have hserves : t.portServes = s.portServes := by
    funext n
    unfold State.portServes
    exact (h.sends.link (π := fun k => k.st == linkUp && k.inService) (fun _ => rfl) (n / 8) _ :)
  unfold State.eligible State.entryPorts
  rw [hserves, h.pkg]

/-- A packet as it stands in the queue of a link. -/
def State.queuedAt (s : State) (i : Nat) (l : LinkId) (a : Arrival) (p : Packet) : Queued :=
  { pkt := { p with mark := p.mark || decide (s.pkg.markBytes ≤ (s.link i l).queuedBytes (netOf p.opcode)) }
    route := none
    origin := a
    hold := if a = .own then none else some (s.sl i).fabric.nextHold }

theorem State.enqueue_queues {s : State} (hs : s.Inv) (sl : SliceId) (l : LinkId) :
    (netOf p.opcode = .req → ((s.enqueue sl l a p none).link sl l).queues = ((s.link sl l).egressReq ++ [s.queuedAt sl l a p], (s.link sl l).egressRsp)) ∧
      (netOf p.opcode = .rsp → ((s.enqueue sl l a p none).link sl l).queues = ((s.link sl l).egressReq, (s.link sl l).egressRsp ++ [s.queuedAt sl l a p])) := by
  unfold State.enqueue
  rw [State.link_onLink hs]
  dsimp only
  refine ⟨fun h => ?_, fun h => ?_⟩
  · rw [h]
    unfold State.queuedAt
    rw [h]
    rfl
  · rw [h]
    unfold State.queuedAt
    rw [h]
    rfl

end

section
variable {s : State} {sl : SliceId} {a : Arrival} {p : Packet}

theorem State.routePacket_sprays (hk : opKnown p.opcode = true) (hm : p.opcode ≠ opMCAST) (ht : p.opcode ≠ opTIME) (hd : p.dstNode ≠ s.pkg.nodeId)
    (hl : p.plen ≤ 4096) (hb : p.payload.length ≤ 4096) (he : s.tableLive p.epoch = true) (httl : 0 < p.ttl) :
    s.routePacket sl a none p = s.spray sl a { p with ttl := p.ttl - 1 } := by
  unfold State.routePacket
  have hz : decide (p.ttl = 0) = false := decide_eq_false (Nat.ne_of_gt httl)
  have hlen : decide (p.payload.length > 4096) = false := decide_eq_false (Nat.not_lt.2 hb)
  have hplen : decide (p.plen > 4096) = false := decide_eq_false (Nat.not_lt.2 hl)
  rw [if_neg (by rw [hk, he, hz, hlen, hplen]; decide), if_neg ht, if_neg hm, if_neg hd]

theorem State.routePacket_discards (httl : p.ttl = 0) : s.routePacket sl a none p = s.routerDiscard sl a p := by
  unfold State.routePacket
  exact if_pos (by rw [httl]; simp)

theorem State.spray_port {q : PortId} (h : s.eligible p.dstNode p.epoch = [8 * sl.val + q.val]) : s.spray sl a p = s.enqueue sl (.port q) a p none := by
  have hq : (Fin.ofNat 8 (8 * sl.val + q.val) : PortId) = q := Fin.ext (by show (8 * sl.val + q.val) % 8 = q.val; omega)
  have hsl : (8 * sl.val + q.val) / 8 = sl.val := by omega
  unfold State.spray State.toPort
  dsimp only
  rw [h, List.length_singleton, Nat.mod_one]
  dsimp only [List.getElem?_cons_zero]
  rw [if_pos hsl, hq]

/-- What a packet looks like in the queue does not depend on where it was taken from. -/
theorem State.queuedAt_lift (l : LinkId) (p' : Packet) : (s.liftIngress sl a p).queuedAt sl l a p' = s.queuedAt sl l a p' := by
  have hq := (s.liftIngress_spec sl a p sl l).2
  have hh : ((s.liftIngress sl a p).sl sl).fabric.nextHold = (s.sl sl).fabric.nextHold := congrArg (fun e => e.2) ((s.liftIngress_spec sl a p sl l).1 sl)
  have hp : (s.liftIngress sl a p).pkg = s.pkg := State.Alike.pkg (State.Routes.liftIngress (s := s) sl a p)
  have hbytes : ((s.liftIngress sl a p).link sl l).queuedBytes (netOf p'.opcode) = (s.link sl l).queuedBytes (netOf p'.opcode) := by
    unfold Link.queuedBytes
    obtain ⟨h1, h2⟩ := Prod.mk.inj hq
    rw [h1, h2]
  unfold State.queuedAt
  rw [hh, hp, hbytes]

theorem execRouterForward_forwards (hr : s.routeWord sl a p = none) (ht : p.opcode ≠ opTIME) (hb : s.before sl a p = []) (hd : p.dstNode ≠ s.pkg.nodeId) :
    exec (.routerForward sl a p) s = .next (s.forward sl a none p) := by
  have hturn : s.inTurn sl a p = true := by
    unfold State.inTurn
    rw [hb]
    rfl
  show execRouterForward sl a p s = _
  unfold execRouterForward
  dsimp only
  rw [if_neg (by rw [beq_eq_false_iff_ne.2 hd]; simp), if_neg ht, if_pos hturn, hr]

variable (hs : s.Inv)
include hs

/-- A packet for another node that one port of the slice alone reaches is queued there. -/
theorem State.forward_queues {q : PortId} (hk : opKnown p.opcode = true) (hm : p.opcode ≠ opMCAST) (ht : p.opcode ≠ opTIME) (hd : p.dstNode ≠ s.pkg.nodeId)
    (hl : p.plen ≤ 4096) (hb : p.payload.length ≤ 4096) (he : s.tableLive p.epoch = true) (httl : 0 < p.ttl)
    (h : s.eligible p.dstNode p.epoch = [8 * sl.val + q.val]) :
    (netOf p.opcode = .req → ((s.forward sl a none p).link sl (.port q)).queues =
      ((s.link sl (.port q)).egressReq ++ [s.queuedAt sl (.port q) a { p with ttl := p.ttl - 1 }], (s.link sl (.port q)).egressRsp)) ∧
    (netOf p.opcode = .rsp → ((s.forward sl a none p).link sl (.port q)).queues =
      ((s.link sl (.port q)).egressReq, (s.link sl (.port q)).egressRsp ++ [s.queuedAt sl (.port q) a { p with ttl := p.ttl - 1 }])) := by
  have hr : s.Routes (s.liftIngress sl a p) := .liftIngress ..
  have hi : (s.liftIngress sl a p).Inv := (State.Keeps.liftIngress ..).2 hs
  have hlive : (s.liftIngress sl a p).tableLive p.epoch = true := by
    unfold State.tableLive at he ⊢
    rw [hr.pkg]
    exact he
  have hroute := (State.routePacket_sprays (s := s.liftIngress sl a p) (sl := sl) (a := a) hk hm ht (by rw [hr.pkg]; exact hd) hl hb hlive httl).trans
    (State.spray_port (s := s.liftIngress sl a p) (p := { p with ttl := p.ttl - 1 }) ((State.eligible_routes hr ..).trans h))
  have hq := (s.forward_spec sl a p sl (.port q) none).1
  have hlift := (s.liftIngress_spec sl a p sl (.port q)).2
  obtain ⟨h1, h2⟩ := Prod.mk.inj hlift
  obtain ⟨h3, h4⟩ := State.enqueue_queues a { p with ttl := p.ttl - 1 } hi sl (.port q)
  rw [h1, h2, State.queuedAt_lift] at h3 h4
  rw [hq, hroute]
  exact ⟨h3, h4⟩

/-- A packet that has no hop left is discarded with a report. -/
theorem State.forward_discards (q : PortId) (httl : p.ttl = 0) : ((s.forward sl a none p).link sl (.port q)).queues = (s.link sl (.port q)).queues ∧
    ∀ r : Report, r = { cls := 0x0E, unit := Arrival.unit a, ctx := p.ctx, detail := [p.opcode, p.dstNode * 8 + p.dstSlice, p.flowSeq, p.ttl] } →
      ((s.forward sl a none p).sl (reportHome r sl)).err = (s.sl (reportHome r sl)).err.queue r := by
  have hi : (s.liftIngress sl a p).Inv := (State.Keeps.liftIngress ..).2 hs
  obtain ⟨hq, he⟩ := s.forward_spec sl a p sl (.port q) none
  obtain ⟨hle, hlq⟩ := s.liftIngress_spec sl a p sl (.port q)
  rw [State.routePacket_discards httl] at hq he
  have hrep (r : Report) : State.Agree (fun x => x.link (.port q)) (s.liftIngress sl a p) ((s.liftIngress sl a p).report sl r) := .report fun _ _ => rfl
  refine ⟨hq.trans ((congrArg Link.queues (hrep _ sl)).trans hlq), fun r hr => ?_⟩
  subst hr
  have hhome : reportHome { cls := 0x0E, unit := Arrival.unit a, ctx := p.ctx, detail := [p.opcode, p.dstNode * 8 + p.dstSlice, p.flowSeq, p.ttl] } sl = sl := by
    cases a <;> rfl
  rw [hhome, he sl]
  unfold State.routerDiscard State.report
  rw [hhome, State.onSl_sl_self _ _ _ (hi.slices_lt sl)]
  exact congrArg (fun e => Errors.queue e.1 _) (hle sl)

end

end Sys2Proof.Machine
end

section
/-! Skipped packets, lost slices and routing tables. -/

namespace Sys2Proof.Machine

/-! ### Skipped packets, lost slices and routing tables -/

theorem SliceState.dstFlow_setDstFlow {x : SliceState} {f : DstFlow} {src : Place} {g : Option Nat} (h : f.is src g = true) : (x.setDstFlow f).dstFlow src g = f := by
  obtain ⟨h1, h2⟩ := Bool.and_eq_true_iff.1 h
  have hnone : (x.fabric.dst.filter fun k => !k.is f.src f.group).find? (fun k => k.is src g) = none := by
    refine List.find?_eq_none.2 fun k hk hs => ?_
    have hn := (List.mem_filter.1 hk).2
    rw [beq_iff_eq.1 h1, beq_iff_eq.1 h2, hs] at hn
    exact absurd hn (by decide)
  unfold SliceState.dstFlow SliceState.setDstFlow
  dsimp only
  rw [List.find?_append, hnone, Option.none_or, List.find?_cons_of_pos (p := fun k : DstFlow => k.is src g) h]

section
variable {f : DstFlow}

theorem DstFlow.pos_next : f.pos (f.base % 65536) = some f.base := by
  have hd : (f.base % 65536 + 65536 - f.base % 65536) % 65536 = 0 := by omega
  unfold DstFlow.pos
  dsimp only
  rw [hd]
  rfl

theorem DstFlow.settle_next (ha : f.ahead = []) : f.settle (f.base % 65536) = { f with base := f.base + 1 } := by
  unfold DstFlow.settle
  rw [DstFlow.pos_next]
  dsimp only
  rw [ha, List.contains_nil, if_neg Bool.false_ne_true]
  show (if [f.base].contains f.base then _ else _) = _
  rw [if_pos (by simp)]
  have hgone : [f.base].filter (fun k => k != f.base) = [] := by simp
  show ({ f with base := f.base + 1, ahead := [f.base].filter (· != f.base) } : DstFlow) = _
  rw [hgone, ← ha]

end

/-- The next packet of a flow that holds nothing is skipped. -/
theorem SliceState.skipRange_next {x : SliceState} {src : Place} {id first : Nat} (hf : first = (x.dstFlow src none).base % 65536)
    (ha : (x.dstFlow src none).ahead = []) (hh : (x.dstFlow src none).held = []) :
    ∃ g : DstFlow, x.skipRange src id first 1 = x.setDstFlow g ∧ g.is src none = true ∧ g.base = (x.dstFlow src none).base + 1 ∧ g.held = [] := by
  have his := x.dstFlow_is src none
  have hmod : ((x.dstFlow src none).base % 65536 + 0) % 65536 = (x.dstFlow src none).base % 65536 := by omega
  unfold SliceState.skipRange
  dsimp only
  rw [hf, List.range_one, List.map_singleton, hmod, List.foldl_cons, List.foldl_nil, DstFlow.settle_next ha, hh, List.filter_nil, List.foldl_nil]
  exact ⟨_, rfl, his, rfl, rfl⟩

theorem execCtrlSkip_next {s : State} (hs : s.Inv) {sl : SliceId} {a : Arrival} {p : Packet} (ho : p.opcode = opCTRL) (hm : p.opmod = 1)
    (hd : Packet.dst p = s.place sl) (hg : s.routerBad a p = false) (hc : packetEcrc p = p.ecrc) (hl : s.fromLost sl p = false)
    (h48 : bit (leNat (slice p.payload 0 16)) 48 = false) (hn : bits (leNat (slice p.payload 0 16)) 47 32 = 1)
    (hf : bits (leNat (slice p.payload 0 16)) 31 16 = ((s.sl sl).dstFlow (Packet.src p) none).base % 65536) (ha : ((s.sl sl).dstFlow (Packet.src p) none).ahead = [])
    (hh : ((s.sl sl).dstFlow (Packet.src p) none).held = []) :
    ∃ t : State, exec (.ctrlSkip sl a p) s = .next t ∧ ((t.sl sl).dstFlow (Packet.src p) none).base = ((s.sl sl).dstFlow (Packet.src p) none).base + 1 ∧
      (t.sl sl).mem = (s.sl sl).mem := by
  have hr : s.Routes (s.takeIngress sl a p) := .takeIngress ..
  have hi : (s.takeIngress sl a p).Inv := (State.Keeps.takeIngress ..).2 hs
  have hflow : ((s.takeIngress sl a p).sl sl).dstFlow (Packet.src p) none = (s.sl sl).dstFlow (Packet.src p) none :=
    hr.shows (π := fun x => x.dstFlow (Packet.src p) none) (fun _ => rfl) sl
  have hmem : ((s.takeIngress sl a p).sl sl).mem = (s.sl sl).mem := hr.shows (π := SliceState.mem) (fun _ => rfl) sl
  obtain ⟨g, h1, h2, h3, h4⟩ := SliceState.skipRange_next (x := (s.takeIngress sl a p).sl sl) (src := Packet.src p) (id := bits (leNat (slice p.payload 0 16)) 15 0)
    (first := bits (leNat (slice p.payload 0 16)) 31 16) (by rw [hflow]; exact hf) (by rw [hflow]; exact ha) (by rw [hflow]; exact hh)
  have hself := State.onSl_sl_self (s.takeIngress sl a p) sl (fun x => x.skipRange (Packet.src p) (bits (leNat (slice p.payload 0 16)) 15 0)
    (bits (leNat (slice p.payload 0 16)) 31 16) (bits (leNat (slice p.payload 0 16)) 47 32)) (hi.slices_lt sl)
  rw [hn] at hself
  rw [h1] at hself
  generalize ht : ((s.takeIngress sl a p).onSl sl fun x => x.skipRange (Packet.src p) (bits (leNat (slice p.payload 0 16)) 15 0)
    (bits (leNat (slice p.payload 0 16)) 31 16) 1) = t at hself
  have htf : (t.sl sl).dstFlow (Packet.src p) none = g := by
    rw [hself]
    exact SliceState.dstFlow_setDstFlow h2
  refine ⟨t, ?_, by rw [htf, h3, hflow], by rw [hself]; exact hmem⟩
  show execCtrlSkip sl a p s = _
  unfold execCtrlSkip
  dsimp only
  rw [if_pos (by rw [ho, hm, hd]; simp), hg, if_neg Bool.false_ne_true, if_neg (by rw [h48, hl]; simp [hc]), hn, ht, State.deliverHeld_none (by rw [htf]; exact h4)]

/-! ### Notices of lost slices -/

theorem State.Routes.takeAnywhere (s : State) (p : Packet) : s.Routes (s.takeAnywhere p) := by
  unfold State.takeAnywhere
  have htake (u : State) (i : Nat) (a : Arrival) : u.Routes (u.takeIngress i a p) := .takeIngress ..
  exact .eachSlice (fun v i => .comp (htake ..) (.comp (.foldl (fun _ _ => htake ..) _ _) (.foldl (fun _ _ => htake ..) _ _))) s

theorem State.takeLost_notices {s : State} {p : Packet} {j : Image} (hj : s.job = some j) (hn : bits (leNat (slice p.payload 0 16)) 15 0 = j.job) :
    (s.takeLost p).pkg.notices = s.pkg.notices ++ [(bits (leNat (slice p.payload 0 16)) 35 16, bits (leNat (slice p.payload 0 16)) 43 36,
      if Drip.later s.now (BitVec.ofNat 48 (bits (leNat (slice p.payload 0 16)) 111 64)) = true then s.now.plus 1
      else BitVec.ofNat 48 (bits (leNat (slice p.payload 0 16)) 111 64))] := by
  have hid : s.jobId = j.job := by
    unfold State.jobId
    rw [hj]
  unfold State.takeLost
  dsimp only
  rw [if_neg (by rw [hj, hid, hn]; simp)]
  split <;> rfl

theorem execCtrlLost_notices {s : State} {p : Packet} {j : Image} (hj : s.job = some j) (ho : p.opcode = opCTRL) (hm : p.opmod = 0)
    (hd : p.dstNode = s.pkg.nodeId) (hc : packetEcrc p = p.ecrc) (hn : bits (leNat (slice p.payload 0 16)) 15 0 = j.job) (hl : s.fromLost p.dstSlice p = false) :
    ∃ t : State, exec (.ctrlLost p) s = .next t ∧ t.pkg.notices = s.pkg.notices ++ [(bits (leNat (slice p.payload 0 16)) 35 16,
      bits (leNat (slice p.payload 0 16)) 43 36,
      if Drip.later s.now (BitVec.ofNat 48 (bits (leNat (slice p.payload 0 16)) 111 64)) = true then s.now.plus 1
      else BitVec.ofNat 48 (bits (leNat (slice p.payload 0 16)) 111 64))] := by
  have hr := State.Routes.takeAnywhere s p
  have hnow : (s.takeAnywhere p).now = s.now := congrArg Time.drip hr.time
  have h := State.takeLost_notices (hr.job.trans hj) hn
  rw [hnow, hr.pkg] at h
  refine ⟨_, ?_, h⟩
  show execCtrlLost p s = _
  unfold execCtrlLost
  dsimp only
  rw [if_pos (by rw [ho, hm, hd]; simp), if_pos (by rw [hl]; simp [hc])]

/-- A node of which nothing is known is noticed as lost. -/
theorem State.detectLoss_notices {s : State} {node : Nat} {j : Image} (hj : s.job = some j) (h : ∀ k, k < 8 → s.lossKnown { node := node, slice := k } = false) :
    (s.detectLoss node 255).pkg.notices = s.pkg.notices ++ [(node, 255, s.now.plus 16)] := by
  have hnew : ((List.range 8).filter fun k => (255 : Nat).testBit k && !s.lossKnown { node := node, slice := k }) = List.range 8 := by
    refine List.filter_eq_self.2 fun k hk => ?_
    have hk8 := List.mem_range.1 hk
    rw [h k hk8]
    exact (by decide : ∀ k < 8, ((255 : Nat).testBit k && !false) = true) k hk8
  unfold State.detectLoss
  rw [hj]
  dsimp only
  rw [hnew, if_neg (by decide)]
  have hctrl (v : State) (i : Nat) (d : Place) (b : Bytes) : v.Routes (v.sendCtrl i d 0 b) := .sendCtrl ..
  exact congrArg Package.notices (State.Alike.pkg (State.Alike.foldl (π := SliceState.core) (fun v n => .ite (.refl v) (hctrl ..)) _ _))

theorem execLossHoldExpiry_notices {s : State} {node : Nat} {j : Image} (hj : s.job = some j) (hn : node ≠ s.pkg.nodeId) (hm : node ∈ j.nodes)
    (he : s.eligible node s.pkg.routeActive = []) : exec (.lossHoldExpiry node) s = .next (s.detectLoss node 255) := by
  show execLossHoldExpiry node s = _
  unfold execLossHoldExpiry
  rw [hj]
  dsimp only
  rw [if_pos (by rw [he, List.contains_iff_mem.2 hm, decide_eq_true hn]; rfl)]

/-! ### Lost marks -/

/-- `t` is `s` but for its slices, and their fabric is as it was. -/
abbrev State.SameFabric (s t : State) : Prop := State.Alike SliceState.fabric s t

namespace State.SameFabric

theorem endReqs (s : State) (i : Nat) (p : Request → Bool) (f g : Drip) (st : Status) (l : Nat) : s.SameFabric (s.endReqs i p f g st l) :=
  ⟨.endReqs fun _ _ _ _ => rfl, rfl⟩

theorem endTied (s : State) (i : Nat) (u : Run) (f g : Drip) (st : Status) : s.SameFabric (s.endTied i u f g st) := by
  unfold State.endTied
  exact .ite (.eachSlice (fun _ _ => endReqs ..) s) (endReqs ..)

theorem report (s : State) (i : Nat) (r : Report) : s.SameFabric (s.report i r) := ⟨.report fun _ _ => rfl, rfl⟩

theorem endInstance (s : State) (i id : Nat) (f : Drip) (c : Status) (g : Drip) (d : Option Drip) : s.SameFabric (s.endInstance i id f c g d) := by
  have hrest : State.Alike (fun _ => ()) s (s.endInstance i id f c g d) := by
    unfold State.endInstance
    dsimp only
    exact .ite (.refl s) (.comp (.foldl (fun v u => (endTied v i u _ _ _).field fun _ _ _ => rfl) _ _) (.onSl fun _ => rfl))
  refine ⟨?_, hrest.rest⟩
  rcases State.endInstance_agree (π := SliceState.fabric) (fun _ _ _ => rfl) (fun _ _ _ => rfl) s i id f c g d with h | ⟨t, l, a, h1, h2⟩
  · rw [h]
    exact .refl s
  · rw [h2]
    exact .comp (.foldl (fun v u => (endTied v i u _ _ _).agree) _ _) h1

end State.SameFabric

theorem SliceState.landRow_fabric (x : SliceState) (l : Nat) (r : Option SlotRef) (rb n : Nat) (b : Bytes) : (x.landRow l r rb n b).fabric = x.fabric := by
  unfold SliceState.landRow
  split <;> rfl

namespace State.SameFabric
variable (s : State) (sl : Nat)

theorem markToken (l t st : Nat) : s.SameFabric (s.markToken sl l t st) := .comp (endReqs ..) (.onSl fun _ => rfl)

theorem checkReturns (li : LayerInfo) : s.SameFabric (s.checkReturns sl li) := .ite (.onSl fun _ => SliceState.setFlag_fabric ..) (.refl s)

theorem checkCounts (l tag : Nat) : s.SameFabric (s.checkCounts sl l tag) := by
  unfold State.checkCounts
  split
  · exact .refl s
  · exact .ite (.onSl fun _ => SliceState.setFlag_fabric ..) (.refl s)

theorem checkSlot (li : LayerInfo) (r : SlotRef) : s.SameFabric (s.checkSlot sl li r) := by
  unfold State.checkSlot
  dsimp only
  refine .ite (.refl s) (.onSl fun y => ?_)
  have hrows (rb u : Nat) (l : List Nat) : (l.foldl (fun v i => v.landRow li.layer (some r) rb (u + i) (zeros rb)) y).fabric = y.fabric :=
    foldl_agree (π := SliceState.fabric) (fun _ _ => SliceState.landRow_fabric ..) l y
  unfold SliceState.setFlag?
  split
  · exact (SliceState.setFlag_fabric ..).trans (hrows ..)
  · exact hrows ..

theorem settleLost (lost : Place → Bool) : s.SameFabric (s.settleLost sl lost) := by
  unfold State.settleLost
  dsimp only
  refine .foldl (fun v c => ?_) _ _
  split
  · exact .refl v
  · refine .ite (.comp (checkReturns ..) (.comp (.foldl (fun _ _ => markToken ..) _ _) (.onSl fun _ => rfl)))
      (.comp (checkSlot ..) (.comp (.ite (.refl _) (report ..)) (.onSl fun y => ?_)))
    have hrows (l : List Nat) (rb : Nat) : (l.foldl (fun z n => z.landRow c.layer (some c.slot) rb n (zeros rb)) y).fabric = y.fabric :=
      foldl_agree (π := SliceState.fabric) (fun _ _ => SliceState.landRow_fabric ..) l y
    split
    · exact hrows ..
    · exact hrows ..

end State.SameFabric

/-- `t` is `s` but for its slices, and marks no fewer places lost. -/
structure State.Marks (s t : State) : Prop where
  rest : SameBut s t
  lost : ∀ (i : Nat) (p : Place), p ∈ (s.sl i).fabric.lost → p ∈ (t.sl i).fabric.lost

theorem State.Marks.of_sameFabric {s t : State} (h : s.SameFabric t) : s.Marks t := ⟨h.rest, fun i _ hp => by
  rw [h.agree i]
  exact hp⟩

theorem State.Marks.trans {s t u : State} (a : s.Marks t) (b : t.Marks u) : s.Marks u := ⟨a.rest.trans b.rest, fun i p h => b.lost i p (a.lost i p h)⟩

/-- What follows the mark of lost places at a slice keeps the marks. -/
theorem State.markLost_spec (s : State) (sl : Nat) (ps : List Place) :
    s.Marks (s.markLost sl ps) ∧ (sl < s.slices.length → ∀ p ∈ ps, p ∈ ((s.markLost sl ps).sl sl).fabric.lost) := by
  unfold State.markLost
  dsimp only
  generalize hnew : (ps.filter fun p => !(s.sl sl).fabric.lost.contains p) = new
  by_cases he : new.isEmpty = true
  · rw [if_pos he]
    refine ⟨⟨rfl, fun _ _ h => h⟩, fun _ p hp => ?_⟩
    by_contra hc
    have hin : p ∈ new := hnew ▸ List.mem_filter.2 ⟨hp, by rw [List.contains_eq_mem, decide_eq_false hc]; rfl⟩
    rw [List.isEmpty_iff.1 he] at hin
    exact absurd hin List.not_mem_nil
  rw [if_neg he]
  generalize ht : (s.onSl sl fun x => { x with fabric := { x.fabric with lost := x.fabric.lost ++ new } }) = t
  have hst : s.Marks t := by
    refine ⟨ht ▸ rfl, fun i p hp => ?_⟩
    subst ht
    by_cases hi : i = sl
    · subst hi
      by_cases hlt : i < s.slices.length
      · rw [State.onSl_sl_self _ _ _ hlt]
        exact List.mem_append_left _ hp
      · rw [State.onSl_sl_of_le _ _ (Nat.not_lt.1 hlt)]
        exact hp
    · rw [State.onSl_sl_of_ne _ _ (fun h => hi h)]
      exact hp
  have hmark (hlt : sl < s.slices.length) : ∀ p ∈ ps, p ∈ (t.sl sl).fabric.lost := by
    intro p hp
    rw [← ht, State.onSl_sl_self _ _ _ hlt]
    by_cases hc : p ∈ (s.sl sl).fabric.lost
    · exact List.mem_append_left _ hc
    · exact List.mem_append_right _ (hnew ▸ List.mem_filter.2 ⟨hp, by rw [List.contains_eq_mem, decide_eq_false hc]; rfl⟩)
  have hlost : t.SameFabric (t.settleLost sl fun p => new.contains p) := State.SameFabric.settleLost ..
  generalize t.settleLost sl (fun p => new.contains p) = u at hlost
  have hcounts (l : List (Nat × Nat)) : u.SameFabric (l.foldl (fun (w : State) k => w.checkCounts sl k.1 k.2) u) :=
    .foldl (fun _ _ => State.SameFabric.checkCounts ..) _ _
  have hflags (v : State) : v.SameFabric (v.onSl sl fun z => { z with
      flagsAt := z.flagsAt ++ z.flags.filter fun f => !(s.sl sl).flags.contains f && !z.flagsAt.contains f }) := .onSl fun _ => rfl
  have hends (v : State) (l : List CollStep) : v.SameFabric (l.foldl (fun w c => w.endInstance sl c.desc.collId c.frame .fabricLost w.now) v) :=
    .foldl (fun _ _ => State.SameFabric.endInstance ..) _ _
  have hrest (w : State) (h : t.SameFabric w) : s.Marks w ∧ (sl < s.slices.length → ∀ p ∈ ps, p ∈ (w.sl sl).fabric.lost) :=
    ⟨hst.trans (.of_sameFabric h), fun hlt p hp => (State.Marks.of_sameFabric h).lost sl p (hmark hlt p hp)⟩
  exact hrest _ (hlost.trans ((hcounts _).trans ((hflags _).trans (hends _ _))))

theorem State.eachSlice_markLost {s : State} (hs : s.Inv) (ps : List Place) (sl : SliceId) : s.Marks (s.eachSlice fun v i => v.markLost i ps) ∧
    ∀ p ∈ ps, p ∈ ((s.eachSlice fun v i => v.markLost i ps).sl sl).fabric.lost := by
  unfold State.eachSlice
  have hlen (v : State) (i : Nat) : v.Inv → (v.markLost i ps).Inv := (State.Keeps.markLost ..).2
  refine ⟨foldl_keeps (P := fun v => s.Marks v) (fun v i h => h.trans (v.markLost_spec i ps).1) _ ⟨rfl, fun _ _ h => h⟩, ?_⟩
  exact foldl_reaches (P := fun v : State => ∀ p ∈ ps, p ∈ (v.sl sl).fabric.lost) (I := fun v : State => v.Inv) (a := sl.val) (List.mem_range.2 sl.isLt) hlen
    (fun v hv => (v.markLost_spec sl ps).2 (hv.slices_lt sl)) (fun v i _ h p hp => (v.markLost_spec i ps).1.lost _ p (h p hp)) hs

/-- At the drip of a notice the places it names are lost on every slice, and the notice is done with. -/
theorem execLostMark_spec {s : State} (hs : s.Inv) {n : Nat × Nat × Drip} (hn : n ∈ s.pkg.notices) (hd : Drip.later n.2.2 s.now = false) :
    ∃ t : State, exec .lostMark s = .next t ∧ n ∉ t.pkg.notices ∧
      ∀ k : Fin 8, bit n.2.1 k.val = true → ∀ i : SliceId, ({ node := n.1, slice := k.val } : Place) ∈ (t.sl i).fabric.lost := by
  have hdue : n ∈ s.pkg.notices.filter fun n => !Drip.later n.2.2 s.now := List.mem_filter.2 ⟨hn, by rw [hd]; rfl⟩
  have hne : ¬ (s.pkg.notices.filter fun n => !Drip.later n.2.2 s.now).isEmpty = true := fun h => by
    rw [List.isEmpty_iff.1 h] at hdue
    exact absurd hdue List.not_mem_nil
  generalize hps : (((s.pkg.notices.filter fun n => !Drip.later n.2.2 s.now).map fun n =>
    (setBits 8 n.2.1).map fun k => ({ node := n.1, slice := k } : Place)).flatten.eraseDups) = ps
  generalize ht : ({ s with pkg := { s.pkg with notices := s.pkg.notices.filter fun n => Drip.later n.2.2 s.now } } : State) = t
  have hti : t.Inv := ht ▸ hs
  have hends (v : State) (l : List Place) : v.SameFabric (l.foldl (fun v p => v.endReqs p.slice (fun _ => true) v.now v.now .fabricLost) v) :=
    .foldl (fun _ _ => State.SameFabric.endReqs ..) _ _
  have hin (k : Fin 8) (hk : bit n.2.1 k.val = true) : ({ node := n.1, slice := k.val } : Place) ∈ ps := by
    rw [← hps]
    refine List.mem_eraseDups.2 (List.mem_flatten.2 ⟨_, List.mem_map_of_mem hdue, List.mem_map.2 ⟨k.val, ?_, rfl⟩⟩)
    exact List.mem_filter.2 ⟨List.mem_range.2 k.isLt, hk⟩
  refine ⟨(ps.filter fun p => p.node == s.pkg.nodeId).foldl (fun v p => v.endReqs p.slice (fun _ => true) v.now v.now .fabricLost)
    (t.eachSlice fun v i => v.markLost i ps), ?_, ?_, fun k hk i => ?_⟩
  · show execLostMark s = _
    unfold execLostMark
    dsimp only
    rw [if_neg hne, hps, ht]
  · have hpkg : (t.eachSlice fun v i => v.markLost i ps).pkg = t.pkg := (congrArg State.pkg (State.eachSlice_markLost hti ps 0).1.rest).symm
    rw [(hends ..).pkg, hpkg, ← ht]
    intro h
    exact Bool.false_ne_true (hd.symm.trans (List.mem_filter.1 h).2)
  · exact (State.Marks.of_sameFabric (hends ..)).lost i _ ((State.eachSlice_markLost hti ps i).2 _ (hin k hk))

/-! ### O40 -/

section
variable {s : State} {d : Drip}

theorem execRouteSwitch_eq (h : s.pkg.routeSwitch = some d) : exec .routeSwitch s = if Drip.later d s.now then .next s else .next { s with pkg := { s.pkg with
    routeActive := 1 - s.pkg.routeActive, routeSwitch := none, drainEnd := some (d.plus s.pkg.routeDrain) } } := by
  show execRouteSwitch s = _
  unfold execRouteSwitch
  rw [h]

theorem execRouteDrainEnd_eq (h : s.pkg.drainEnd = some d) :
    exec .routeDrainEnd s = if Drip.later d s.now then .next s else .next { s with pkg := { s.pkg with drainEnd := none } } := by
  show execRouteDrainEnd s = _
  unfold execRouteDrainEnd
  rw [h]

end

/-- Settles O40: a lifted packet is routed as if it had not been taken (`forward_queues`), and what follows a mark of lost slices keeps it
(`markLost_spec`). -/
theorem fabricRouting : Obligations.FabricRouting := by
  unfold Obligations.FabricRouting
  intro s sl hs
  refine ⟨fun a p q hr hk hm ht hb hd hl hlen he => ⟨fun httl hel => ⟨_, execRouterForward_forwards hr ht hb hd, ?_⟩,
      fun httl => ⟨_, execRouterForward_forwards hr ht hb hd, ?_⟩⟩, fun a p ht => ?_, fun a p ho hm hd hg hc hl h48 hn hf ha hh =>
      execCtrlSkip_next hs ho hm hd hg hc hl h48 hn hf ha hh, fun p j hj ho hm hd hc hn hl => execCtrlLost_notices hj ho hm hd hc hn hl,
    fun node j hj hn hm he h => ⟨_, execLossHoldExpiry_notices hj hn hm he, State.detectLoss_notices hj h⟩, fun n hn hd => execLostMark_spec hs hn hd,
    fun d h hl => ?_, fun d h hl => ?_, fun d h hl => ?_, fun d h hl => ?_⟩
  · obtain ⟨h1, h2⟩ := State.forward_queues hs hk hm ht hd hl hlen he httl hel
    exact ⟨fun h => congrArg Prod.fst (h1 h), fun h => congrArg Prod.snd (h2 h)⟩
  · obtain ⟨h1, h2⟩ := State.forward_discards hs q httl
    obtain ⟨h3, h4⟩ := Prod.mk.inj h1
    exact ⟨h3, h4, h2 _ rfl⟩
  · show execRouterForward sl a p s = _
    unfold execRouterForward
    dsimp only
    rw [if_neg (by rw [ht]; simp [opTIME, opCTRL]), if_pos ht]
  · exact (execRouteSwitch_eq h).trans (if_neg (by rw [hl]; decide))
  · exact (execRouteSwitch_eq h).trans (if_pos hl)
  · exact (execRouteDrainEnd_eq h).trans (if_neg (by rw [hl]; decide))
  · exact (execRouteDrainEnd_eq h).trans (if_pos hl)

end Sys2Proof.Machine
end

section
/-! Steps of the collective engine. -/

namespace Sys2Proof.Machine

/-! ### Steps of the collective engine -/

/-- A step without what its chunks change. -/
def CollStep.fixed (c : CollStep) : CollStep :=
  { c with status := 0, cur := 0, granted := [], got := [], sums := [], limit := 0, passed := 0, results := [], owed := [] }

theorem CollStep.key_fixed {d e : CollStep} (h : d.fixed = e.fixed) (c : CollStep) : d.key c = e.key c := (congrArg (fun x => CollStep.key x c) h :)

/-- What names a step. -/
def CollStep.name (c : CollStep) : Nat × Drip × Nat × Nat := (c.run, c.frame, c.desc.collId, c.step)

theorem CollStep.key_iff (c d : CollStep) : c.key d = true ↔ c.name = d.name := by
  unfold CollStep.key CollStep.name
  simp only [Bool.and_eq_true, beq_iff_eq, Prod.mk.injEq, and_assoc]

/-- A step is on the list of its slice. -/
def State.HasStep (s : State) (sl : Nat) (c : CollStep) : Prop := ((s.sl sl).coll.steps.find? fun d => d.key c).isSome = true

section
variable {s t : State} {sl : Nat} {c : CollStep}

theorem find?_fixed {l : List CollStep} {F : CollStep → CollStep} (hF : ∀ d, (F d).fixed = d.fixed) :
    ((l.map F).find? fun d => d.key c) = (l.find? fun d => d.key c).map F := by
  rw [List.find?_map]
  congr 2
  funext d
  exact CollStep.key_fixed (hF d) c

/-- The step of a list that is changed one by one. -/
theorem State.step?_map {F : CollStep → CollStep} (hF : ∀ d, (F d).fixed = d.fixed) (h : (t.sl sl).coll.steps = (s.sl sl).coll.steps.map F) :
    (s.HasStep sl c → t.step? sl c = F (s.step? sl c)) ∧ (¬ s.HasStep sl c → t.step? sl c = s.step? sl c) := by
  unfold State.HasStep State.step?
  rw [h, find?_fixed hF]
  cases (s.sl sl).coll.steps.find? fun d => d.key c with
  | none => exact ⟨fun h => absurd h (by decide), fun _ => rfl⟩
  | some d => exact ⟨fun _ => rfl, fun h => absurd rfl h⟩

theorem State.HasStep.of_fixed (h : s.HasStep sl c) (hf : (t.sl sl).coll.steps.map CollStep.fixed = (s.sl sl).coll.steps.map CollStep.fixed) : t.HasStep sl c := by
  have hfind (l : List CollStep) : ((l.map CollStep.fixed).find? fun d => d.key c).isSome = (l.find? fun d => d.key c).isSome := by
    rw [find?_fixed (F := CollStep.fixed) fun _ => rfl, Option.isSome_map]
  unfold State.HasStep at h ⊢
  rw [← hfind, hf, hfind]
  exact h

theorem State.step?_name (s : State) (sl : Nat) (c : CollStep) : (s.step? sl c).name = c.name := by
  unfold State.step?
  cases hf : (s.sl sl).coll.steps.find? fun d => d.key c with
  | none => rfl
  | some d => exact (CollStep.key_iff ..).1 (List.find?_some (p := fun d : CollStep => d.key c) hf)

/-- A step on the list is what each step of its name is there. -/
theorem State.step?_eq {d : CollStep} (h : s.HasStep sl c) (hn : d.name = c.name) : s.step? sl d = s.step? sl c := by
  have hkey : (fun e : CollStep => e.key d) = fun e => e.key c := by
    funext e
    exact Bool.eq_iff_iff.2 (by rw [CollStep.key_iff, CollStep.key_iff, hn])
  unfold State.HasStep at h
  unfold State.step?
  rw [hkey]
  obtain ⟨e, he⟩ := Option.isSome_iff_exists.1 h
  rw [he]
  rfl

end

/-- From `s` to `t` the steps of a slice stay what they are, and the one that a step names changes as `R` tells. -/
structure State.Tracks (sl : Nat) (c : CollStep) (R : CollStep → CollStep → Prop) (s t : State) : Prop where
  fixed : (t.sl sl).coll.steps.map CollStep.fixed = (s.sl sl).coll.steps.map CollStep.fixed
  step : R (s.step? sl c) (t.step? sl c)

/-- The words of a slice's memory, and what of it cannot be read. -/
def SliceState.words (x : SliceState) : Memory × List Nat × List (Nat × Nat) := (x.mem, x.poison, x.spares.outPch)

/-- Sending a message leaves the collective engine and the memory alone. -/
theorem State.sendChunk_keeps (s : State) (sl : Nat) (d : CollStep) (p : Place) (b : Bytes) :
    State.Agree (fun x => (x.coll, x.words)) s (s.sendChunk sl d p b) := (State.Sends.sendMsg ..).shows fun _ => rfl

theorem State.onStep_keeps (s : State) (sl : Nat) (d : CollStep) (f : CollStep → CollStep) : State.Agree SliceState.words s (s.onStep sl d f) :=
  .onSl fun _ => rfl

namespace State.Tracks
variable {sl : Nat} {c : CollStep} {R : CollStep → CollStep → Prop} {s t u : State}

theorem has (h : State.Tracks sl c R s t) {d : CollStep} (hs : s.HasStep sl d) : t.HasStep sl d := hs.of_fixed h.fixed

theorem mono {Q : CollStep → CollStep → Prop} (h : State.Tracks sl c R s t) (hq : ∀ d e, R d e → Q d e) : State.Tracks sl c Q s t := ⟨h.fixed, hq _ _ h.step⟩

theorem ite {p : Prop} [Decidable p] (a : State.Tracks sl c R s t) (b : State.Tracks sl c R s u) : State.Tracks sl c R s (if p then t else u) := by
  split <;> assumption

section
variable (ht : ∀ d e f, R d e → R e f → R d f)
include ht

theorem trans (a : State.Tracks sl c R s t) (b : State.Tracks sl c R t u) : State.Tracks sl c R s u := ⟨b.fixed.trans a.fixed, ht _ _ _ a.step b.step⟩

theorem comp (b : State.Tracks sl c R t u) (a : State.Tracks sl c R s t) : State.Tracks sl c R s u := trans ht a b

end

section
variable (hr : ∀ d, R d d)
include hr

theorem refl (s : State) : State.Tracks sl c R s s := ⟨rfl, hr _⟩

theorem of_coll (h : (t.sl sl).coll = (s.sl sl).coll) : State.Tracks sl c R s t := by
  have hstep : t.step? sl c = s.step? sl c := by
    unfold State.step?
    rw [h]
  exact ⟨by rw [h], hstep ▸ hr _⟩

theorem sendChunk (s : State) (d : CollStep) (p : Place) (b : Bytes) : State.Tracks sl c R s (s.sendChunk sl d p b) :=
  of_coll hr (congrArg (fun e => e.1) (s.sendChunk_keeps sl d p b sl))

/-- The steps of a slice are changed one by one. -/
theorem map {f : SliceState → SliceState} {F : CollStep → CollStep} (hf : ∀ x : SliceState, (f x).coll.steps = x.coll.steps.map F) (hF : ∀ d, (F d).fixed = d.fixed)
    (h : s.HasStep sl c → R (s.step? sl c) (F (s.step? sl c))) : State.Tracks sl c R s (s.onSl sl f) := by
  by_cases hi : sl < s.slices.length
  · have hs : ((s.onSl sl f).sl sl).coll.steps = (s.sl sl).coll.steps.map F := by
      rw [State.onSl_sl_self _ _ _ hi]
      exact hf _
    obtain ⟨h1, h2⟩ := State.step?_map (c := c) hF hs
    refine ⟨?_, ?_⟩
    · rw [hs, List.map_map]
      exact List.map_congr_left fun d _ => hF d
    · by_cases hh : s.HasStep sl c
      · exact (h1 hh).symm ▸ h hh
      · exact (h2 hh).symm ▸ hr _
  · rw [State.onSl_sl_of_le _ _ (Nat.not_lt.1 hi)]
    exact refl hr s

/-- A step is changed. -/
theorem onStep {d : CollStep} {f : CollStep → CollStep} (hf : ∀ e, (f e).fixed = e.fixed)
    (h : s.HasStep sl c → (s.step? sl c).key d = true → R (s.step? sl c) (f (s.step? sl c))) : State.Tracks sl c R s (s.onStep sl d f) := by
  refine map hr (F := fun e => if e.key d then f e else e) (fun _ => rfl) (fun e => ?_) fun hh => ?_
  · split
    · exact hf e
    · rfl
  · split
    · next hk => exact h hh hk
    · exact hr _

/-- A status is met by the steps of a collective in a frame. -/
theorem raise {d : CollStep} {st : Nat} (h : ∀ e st, R e { e with status := st }) : State.Tracks sl c R s (s.onSl sl fun x => x.raise d st) := by
  refine map hr (F := fun e => if e.desc.collId == d.desc.collId && e.frame == d.frame then { e with status := lowStatus e.status st } else e) (fun _ => rfl)
    (fun e => ?_) fun _ => ?_
  · split <;> rfl
  · split
    · exact h _ _
    · exact hr _

theorem foldl {α : Type} (ht : ∀ d e f, R d e → R e f → R d f) {f : State → α → State} (h : ∀ v a, State.Tracks sl c R v (f v a)) (l : List α) (s : State) :
    State.Tracks sl c R s (l.foldl f s) := by
  induction l generalizing s with
  | nil => exact refl hr s
  | cons a l ih => exact trans ht (h s a) (ih (f s a))

end

end State.Tracks

/-! ### PULLs -/

/-- What a PULL to the predecessors changes of a step: what it granted. -/
def CollStep.Granted (d e : CollStep) : Prop := e = { d with granted := e.granted }

theorem CollStep.Granted.refl (d : CollStep) : d.Granted d := rfl

theorem CollStep.Granted.trans (d e f : CollStep) (a : d.Granted e) (b : e.Granted f) : d.Granted f := by
  unfold CollStep.Granted at *
  rw [b, a]

theorem State.pullAll_tracks (s : State) (sl : Nat) (c d : CollStep) (again : Bool) : State.Tracks sl c CollStep.Granted s (s.pullAll sl d again) := by
  unfold State.pullAll
  refine .foldl CollStep.Granted.refl CollStep.Granted.trans (fun v p => ?_) _ _
  exact .ite (.refl CollStep.Granted.refl v) (.comp CollStep.Granted.trans (.sendChunk CollStep.Granted.refl ..)
    (.onStep CollStep.Granted.refl (fun _ => rfl) fun _ _ => rfl))

theorem State.pullAll_mem (s : State) (sl : Nat) (d : CollStep) (again : Bool) : State.Agree SliceState.words s (s.pullAll sl d again) := by
  unfold State.pullAll
  refine .foldl (fun v p => ?_) _ _
  dsimp only
  have hsend (w : State) (d : CollStep) (b : Bytes) : State.Agree SliceState.words w (w.sendChunk sl d p b) := fun i =>
    congrArg (fun e => e.2) (w.sendChunk_keeps sl d p b i)
  exact .ite (.refl v) (.comp (hsend _ _ _) (v.onStep_keeps sl _ _))

end Sys2Proof.Machine
end

section
/-! Sums and results. -/

namespace Sys2Proof.Machine

/-! ### Sums and results -/

/-- What the sums that are formed change of a step: they are added at the end, and nothing is taken from the results. -/
structure CollStep.Forms (d e : CollStep) : Prop where
  fixed : e.fixed = d.fixed
  cur : d.cur ≤ e.cur
  sums : ∃ l, e.sums = d.sums ++ l
  results : ∀ k ∈ d.results, k ∈ e.results
  owed : ∀ o ∈ d.owed, o ∈ e.owed
  pulled : (e.passed, e.limit) = (d.passed, d.limit)

namespace CollStep.Forms

/-- What a step granted and the status it carries are nothing of its sums. -/
theorem told (d : CollStep) (g : List (Place × Nat × Nat)) (st : Nat) : d.Forms { d with granted := g, status := st } :=
  ⟨rfl, Nat.le_refl _, ⟨[], (List.append_nil _).symm⟩, fun _ h => h, fun _ h => h, rfl⟩

theorem refl (d : CollStep) : d.Forms d := told d d.granted d.status

theorem trans (d e f : CollStep) (a : d.Forms e) (b : e.Forms f) : d.Forms f := by
  obtain ⟨l, hl⟩ := a.sums
  obtain ⟨m, hm⟩ := b.sums
  exact ⟨b.fixed.trans a.fixed, Nat.le_trans a.cur b.cur, ⟨l ++ m, by rw [hm, hl, List.append_assoc]⟩, fun k h => b.results k (a.results k h),
    fun o h => b.owed o (a.owed o h), b.pulled.trans a.pulled⟩

theorem of_granted (d e : CollStep) (h : d.Granted e) : d.Forms e := by
  unfold CollStep.Granted at h
  rw [h]
  exact told d e.granted d.status

theorem status (e : CollStep) (st : Nat) : e.Forms { e with status := st } := told e e.granted st

end CollStep.Forms

theorem State.endColl_coll (s : State) (sl : Nat) (c : CollStep) (st : Status) : State.Agree SliceState.coll s (s.endColl sl c st) := by
  unfold State.endColl
  refine .ite (.eachSlice (fun _ _ => .endReqs fun _ _ _ _ => rfl) s) ?_
  split
  · exact .endTied fun _ _ _ _ => rfl
  · exact .refl s

/-- What the write of a result leaves at the member, before it is noted. -/
def State.resultWritten (s : State) (sl : Nat) (c : CollStep) (k : Nat) (b : Bytes) (sat : Nat) (nonfinite : Bool) : State :=
  let a := c.desc.outAddr + k * c.desc.full * elemBytes (rowFmt c.desc.outFmt)
  if c.status ≠ 0 then s
  else if (s.sl sl).outRefused a b.length then (s.report sl (mkReport 0x10 4 0xFFF 0x1A c.desc.ctx)).endColl sl c .fault
  else s.onSl sl fun x =>
    let y := x.store a b
    { y with
      tiers := { y.tiers with written := if y.tiers.inWindow a b.length then y.tiers.written ++ [a] else y.tiers.written }
      arr := { y.arr with satElements := y.arr.satElements + sat, nonfiniteDrains := y.arr.nonfiniteDrains + b2n nonfinite } }

/-- A result is noted, and owed to a predecessor. -/
def CollStep.noted (k : Nat) (d : CollStep) : CollStep := { d with results := if d.results.contains k then d.results else d.results ++ [k] }

def CollStep.owes (p : Place) (k : Nat) (d : CollStep) : CollStep := { d with owed := if d.owed.contains (p, k) then d.owed else d.owed ++ [(p, k)] }

section
variable (s : State) (sl : Nat) (c : CollStep)

theorem State.takeResultBytes_eq (c0 : CollStep) (k : Nat) (b : Bytes) (sat : Nat) (nonfinite : Bool) : s.takeResultBytes sl c0 k b sat nonfinite =
    (s.step? sl c0).preds.foldl (fun v p => (v.onStep sl (s.step? sl c0) (CollStep.owes p k)).sendChunk sl (s.step? sl c0) p
      ((s.step? sl c0).header 0x0A k false (s.step? sl c0).desc.outFmt 0 ((s.step? sl c0).desc.count k) ++ b))
      ((s.resultWritten sl (s.step? sl c0) k b sat nonfinite).onStep sl (s.step? sl c0) (CollStep.noted k)) := rfl

theorem State.resultWritten_coll (k : Nat) (b : Bytes) (sat : Nat) (nonfinite : Bool) : State.Agree SliceState.coll s (s.resultWritten sl c k b sat nonfinite) := by
  unfold State.resultWritten
  dsimp only
  exact .ite (.refl s) (.ite (.comp (State.endColl_coll _ sl _ _) (.report fun _ _ => rfl)) (.onSl fun _ => rfl))

end

theorem mem_insert {α : Type} [BEq α] [LawfulBEq α] (l : List α) (a : α) : a ∈ (if l.contains a then l else l ++ [a]) ∧ ∀ b ∈ l, b ∈ (if l.contains a then l else l ++ [a]) := by
  split
  · next h => exact ⟨List.contains_iff_mem.1 h, fun _ h => h⟩
  · exact ⟨List.mem_append_right _ (List.mem_singleton.2 rfl), fun _ h => List.mem_append_left _ h⟩

theorem CollStep.Forms.noted (k : Nat) (d : CollStep) : d.Forms (d.noted k) :=
  ⟨rfl, Nat.le_refl _, ⟨[], (List.append_nil _).symm⟩, (mem_insert d.results k).2, fun _ h => h, rfl⟩

theorem CollStep.Forms.owes (p : Place) (k : Nat) (d : CollStep) : d.Forms (d.owes p k) :=
  ⟨rfl, Nat.le_refl _, ⟨[], (List.append_nil _).symm⟩, fun _ h => h, (mem_insert d.owed (p, k)).2, rfl⟩

theorem State.takeResultBytes_forms (s : State) (sl : Nat) (c c0 : CollStep) (k : Nat) (b : Bytes) (sat : Nat) (nonfinite : Bool) :
    State.Tracks sl c CollStep.Forms s (s.takeResultBytes sl c0 k b sat nonfinite) := by
  rw [State.takeResultBytes_eq]
  refine .comp CollStep.Forms.trans (.foldl CollStep.Forms.refl CollStep.Forms.trans (fun v p => ?_) _ _) (.comp CollStep.Forms.trans (.onStep CollStep.Forms.refl
    (fun _ => rfl) fun _ _ => .noted k _) (.of_coll CollStep.Forms.refl (State.resultWritten_coll _ _ _ _ _ _ _ sl)))
  exact .comp CollStep.Forms.trans (.sendChunk CollStep.Forms.refl ..) (.onStep CollStep.Forms.refl (fun _ => rfl) fun _ _ => .owes p k _)

/-- What a predecessor sent of a chunk. -/
def CollStep.part (c : CollStep) (k : Nat) (p : Place) : Option Bytes :=
  match c.got.find? fun g => g.1 == p && g.2.1 == k with
  | some g => g.2.2
  | none => none

/-- The sum of the chunk whose turn it is. -/
def CollStep.total (c : CollStep) (x : SliceState) : Option Bytes :=
  c.preds.foldl (fun v p => carrierAdd c.desc.wide v (c.part c.cur p)) (c.input x c.cur).1

/-- No sum can be formed now. -/
def CollStep.waits (c : CollStep) : Bool :=
  c.completed || decide (c.hi ≤ c.cur) || !(c.preds.all fun p => c.got.any fun g => g.1 == p && g.2.1 == c.cur) || (c.succ.isSome && decide (16 ≤ c.sums.length))

/-- The turn of a chunk is over. -/
def CollStep.formed (k : Nat) (d : CollStep) : CollStep := { d with cur := k + 1, got := d.got.filter fun g => g.2.1 != k }

/-- A sum waits to be sent. -/
def CollStep.summed (k : Nat) (t : Option Bytes) (d : CollStep) : CollStep := { d with sums := d.sums ++ [(k, t, false)] }

/-- The turn of the step's chunk is over; a poisoned input is a status of its collective. -/
def State.sumFormed (s : State) (sl : Nat) (c : CollStep) : State :=
  (s.onStep sl c (CollStep.formed c.cur)).onSl sl fun x => if (c.input (s.sl sl) c.cur).2 then x.raise c 0x1A else x

section
variable {s : State} {sl : Nat} {c : CollStep}

theorem State.formSums_waits {d : CollStep} (hd : s.step? sl c = d) (h : d.waits = true) (n : Nat) : s.formSums sl c n = s := by
  subst hd
  cases n with
  | zero => rfl
  | succ n => exact if_pos h

theorem State.formSums_passes {d : CollStep} (hd : s.step? sl c = d) (h : d.waits = false) (hs : d.succ.isSome = true) (n : Nat) :
    s.formSums sl c (n + 1) = ((s.sumFormed sl d).onStep sl d (CollStep.summed d.cur (d.total (s.sl sl)))).formSums sl d n := by
  subst hd
  refine (if_neg (Bool.eq_false_iff.1 h)).trans ?_
  obtain ⟨p, hp⟩ := Option.isSome_iff_exists.1 hs
  rw [hp]
  rfl

theorem State.formSums_ends {d : CollStep} (hd : s.step? sl c = d) (h : d.waits = false) (hs : d.succ = none) (n : Nat) :
    s.formSums sl c (n + 1) = ((s.sumFormed sl d).takeResultBytes sl d d.cur (resultChunkOf d.desc d.cur (d.total (s.sl sl))).bytes
      (resultChunkOf d.desc d.cur (d.total (s.sl sl))).sat (resultChunkOf d.desc d.cur (d.total (s.sl sl))).nonfinite).formSums sl d n := by
  subst hd
  refine (if_neg (Bool.eq_false_iff.1 h)).trans ?_
  rw [hs]
  rfl

theorem State.sumFormed_forms (c0 : CollStep) {d : CollStep} (hd : s.step? sl c = d) : State.Tracks sl c0 CollStep.Forms s (s.sumFormed sl d) := by
  have hraise (v : State) : State.Tracks sl c0 CollStep.Forms v (v.onSl sl fun x => if (d.input (s.sl sl) d.cur).2 then x.raise d 0x1A else x) := by
    cases (d.input (s.sl sl) d.cur).2 with
    | true => exact .raise CollStep.Forms.refl CollStep.Forms.status
    | false => exact .map CollStep.Forms.refl (F := id) (fun x => (List.map_id _).symm) (fun _ => rfl) fun _ => .refl _
  refine .comp CollStep.Forms.trans (hraise _) (.onStep CollStep.Forms.refl (fun _ => rfl) fun hh hk => ?_)
  -- the step whose turn it is is the one that is followed
  have hname : c.name = c0.name := by
    rw [← s.step?_name sl c, hd, ← (CollStep.key_iff ..).1 hk, s.step?_name]
  have heq : s.step? sl c0 = d := (State.step?_eq hh hname).symm.trans hd
  rw [heq]
  exact ⟨rfl, Nat.le_succ _, ⟨[], (List.append_nil _).symm⟩, fun _ h => h, fun _ h => h, rfl⟩

end

theorem CollStep.Forms.summed (k : Nat) (t : Option Bytes) (d : CollStep) : d.Forms (d.summed k t) :=
  ⟨rfl, Nat.le_refl _, ⟨_, rfl⟩, fun _ h => h, fun _ h => h, rfl⟩

theorem State.formSums_forms (s : State) (sl : Nat) (c0 c : CollStep) (n : Nat) : State.Tracks sl c0 CollStep.Forms s (s.formSums sl c n) := by
  induction n generalizing s c with
  | zero => exact .refl CollStep.Forms.refl s
  | succ n ih =>
    cases hw : (s.step? sl c).waits with
    | true =>
      rw [State.formSums_waits rfl hw]
      exact .refl CollStep.Forms.refl s
    | false =>
      cases hs : (s.step? sl c).succ with
      | none =>
        rw [State.formSums_ends rfl hw hs]
        exact .comp CollStep.Forms.trans (ih ..) (.comp CollStep.Forms.trans (State.takeResultBytes_forms ..) (State.sumFormed_forms c0 rfl))
      | some p =>
        rw [State.formSums_passes rfl hw (by rw [hs]; rfl)]
        exact .comp CollStep.Forms.trans (ih ..) (.comp CollStep.Forms.trans (.onStep CollStep.Forms.refl (fun _ => rfl) fun _ _ => .summed ..)
          (State.sumFormed_forms c0 rfl))

/-- A step that was looked up is looked up as before. -/
theorem State.Tracks.step?_step? {s t : State} {sl : Nat} {c : CollStep} {R : CollStep → CollStep → Prop} (h : State.Tracks sl c R s t) :
    t.step? sl (s.step? sl c) = t.step? sl c := by
  by_cases hh : s.HasStep sl c
  · exact State.step?_eq (h.has hh) (s.step?_name sl c)
  · have hself : s.step? sl c = c := by
      unfold State.HasStep at hh
      unfold State.step?
      rw [Option.not_isSome_iff_eq_none.1 hh]
      rfl
    rw [hself]

theorem CollStep.succ_fixed {d e : CollStep} (h : e.fixed = d.fixed) : e.succ = d.succ := (congrArg CollStep.succ h :)

theorem State.sumFormed_mem (s : State) (sl : Nat) (c : CollStep) : State.Agree SliceState.words s (s.sumFormed sl c) := by
  unfold State.sumFormed
  refine .comp (.onSl fun x => ?_) (s.onStep_keeps sl _ _)
  split <;> rfl

/-- A member with a successor writes nothing as it forms its sums. -/
theorem State.formSums_mem (s : State) (sl : Nat) (c : CollStep) (hs : (s.step? sl c).succ.isSome = true) (n : Nat) :
    State.Agree SliceState.words s (s.formSums sl c n) := by
  induction n generalizing s c with
  | zero => exact .refl s
  | succ n ih =>
    cases hw : (s.step? sl c).waits with
    | true =>
      rw [State.formSums_waits rfl hw]
      exact .refl s
    | false =>
      rw [State.formSums_passes rfl hw hs]
      have htrack : State.Tracks sl c CollStep.Forms s ((s.sumFormed sl (s.step? sl c)).onStep sl (s.step? sl c)
          (CollStep.summed (s.step? sl c).cur ((s.step? sl c).total (s.sl sl)))) :=
        .comp CollStep.Forms.trans (.onStep CollStep.Forms.refl (fun _ => rfl) fun _ _ => .summed ..) (State.sumFormed_forms c rfl)
      generalize ht : (s.sumFormed sl (s.step? sl c)).onStep sl (s.step? sl c) (CollStep.summed (s.step? sl c).cur ((s.step? sl c).total (s.sl sl))) = t at htrack
      have hmem : State.Agree SliceState.words s t := ht ▸ .comp (State.onStep_keeps _ sl _ _) (s.sumFormed_mem sl _)
      refine hmem.trans (ih t _ ?_)
      rw [htrack.step?_step?, CollStep.succ_fixed htrack.step.fixed]
      exact hs

end Sys2Proof.Machine
end

section
/-! What a result leaves. -/

namespace Sys2Proof.Machine

/-! ### What a chunk leaves of the step that takes it -/

section
variable {s : State} {sl : Nat} {c : CollStep}

theorem State.HasStep.slice (h : s.HasStep sl c) : sl < s.slices.length := by
  by_contra hi
  have hnone : (s.sl sl).coll.steps = [] := by
    unfold State.sl
    rw [List.getD_eq_default _ _ (Nat.not_lt.1 hi)]
  unfold State.HasStep at h
  rw [hnone] at h
  cases h

theorem State.step?_onStep (h : s.HasStep sl c) {d : CollStep} (hd : d.name = c.name) {f : CollStep → CollStep} (hf : ∀ e, (f e).fixed = e.fixed) :
    (s.onStep sl d f).step? sl c = f (s.step? sl c) := by
  have hs : ((s.onStep sl d f).sl sl).coll.steps = (s.sl sl).coll.steps.map fun e => if e.key d then f e else e := by
    unfold State.onStep
    rw [State.onSl_sl_self _ _ _ h.slice]
  refine ((State.step?_map (fun e => ?_) hs).1 h).trans (if_pos ((CollStep.key_iff ..).2 ((s.step?_name sl c).trans hd.symm)))
  split
  · exact hf e
  · rfl

theorem State.step?_raise (h : s.HasStep sl c) (d : CollStep) (hd : d.name = c.name) (st : Nat) :
    (s.onSl sl fun x => x.raise d st).step? sl c = { s.step? sl c with status := lowStatus (s.step? sl c).status st } := by
  have hs : ((s.onSl sl fun x => x.raise d st).sl sl).coll.steps = (s.sl sl).coll.steps.map fun e =>
      if e.desc.collId == d.desc.collId && e.frame == d.frame then { e with status := lowStatus e.status st } else e := by
    rw [State.onSl_sl_self _ _ _ h.slice]
    rfl
  have hname := (s.step?_name sl c).trans hd.symm
  obtain ⟨-, h1⟩ := Prod.mk.inj hname
  obtain ⟨h1, h2⟩ := Prod.mk.inj h1
  obtain ⟨h2, -⟩ := Prod.mk.inj h2
  refine ((State.step?_map (fun e => ?_) hs).1 h).trans (if_pos (Bool.and_eq_true_iff.2 ⟨beq_iff_eq.2 h2, beq_iff_eq.2 h1⟩))
  split <;> rfl

theorem State.HasStep.onStep (h : s.HasStep sl c) (d : CollStep) {f : CollStep → CollStep} (hf : ∀ e, (f e).fixed = e.fixed) : (s.onStep sl d f).HasStep sl c :=
  (State.Tracks.onStep (R := fun _ _ => True) (s := s) (c := c) (d := d) (fun _ => trivial) hf fun _ _ => trivial).has h

theorem State.step?_of_coll {t : State} (h : (t.sl sl).coll = (s.sl sl).coll) (d : CollStep) : t.step? sl d = s.step? sl d := by
  unfold State.step?
  rw [h]

/-- The turn of a chunk is over at its step. -/
theorem State.step?_sumFormed (h : s.HasStep sl c) : ∃ st, (s.sumFormed sl (s.step? sl c)).step? sl c = { (s.step? sl c).formed (s.step? sl c).cur with status := st } := by
  have hname := s.step?_name sl c
  have hon := State.step?_onStep h hname (f := CollStep.formed (s.step? sl c).cur) fun _ => rfl
  have hh : (s.onStep sl (s.step? sl c) (CollStep.formed (s.step? sl c).cur)).HasStep sl c := h.onStep _ fun _ => rfl
  unfold State.sumFormed
  generalize s.onStep sl (s.step? sl c) (CollStep.formed (s.step? sl c).cur) = v at hon hh
  cases ((s.step? sl c).input (s.sl sl) (s.step? sl c).cur).2 with
  | true =>
    have hr := State.step?_raise hh _ hname 0x1A
    rw [hon] at hr
    simp only [if_true]
    exact ⟨_, hr⟩
  | false =>
    simp only [Bool.false_eq_true, if_false]
    refine ⟨(s.step? sl c).status, (State.step?_of_coll ?_ c).trans hon⟩
    rw [State.onSl_sl_self _ _ _ hh.slice]

/-- A result is noted at its step. -/
theorem State.takeResultBytes_notes (h : s.HasStep sl c) {d : CollStep} (hd : d.name = c.name) (k : Nat) (b : Bytes) (sat : Nat) (nonfinite : Bool) :
    k ∈ ((s.takeResultBytes sl d k b sat nonfinite).step? sl c).results ∧
      ∀ p ∈ (s.step? sl d).preds, (p, k) ∈ ((s.takeResultBytes sl d k b sat nonfinite).step? sl c).owed := by
  have hname : (s.step? sl d).name = c.name := (s.step?_name sl d).trans hd
  generalize hv : (s.resultWritten sl (s.step? sl d) k b sat nonfinite) = v
  have hvc : (v.sl sl).coll = (s.sl sl).coll := hv ▸ State.resultWritten_coll s sl _ k b sat nonfinite sl
  have hvh : v.HasStep sl c := by
    unfold State.HasStep at h ⊢
    rw [hvc]
    exact h
  have hnote : (v.onStep sl (s.step? sl d) (CollStep.noted k)).HasStep sl c := hvh.onStep _ fun _ => rfl
  have hstep := State.step?_onStep hvh hname (f := CollStep.noted k) fun _ => rfl
  have hsend (w : State) (p : Place) : State.Tracks sl c CollStep.Forms w ((w.onStep sl (s.step? sl d) (CollStep.owes p k)).sendChunk sl (s.step? sl d) p
      ((s.step? sl d).header 0x0A k false (s.step? sl d).desc.outFmt 0 ((s.step? sl d).desc.count k) ++ b)) :=
    .comp CollStep.Forms.trans (.sendChunk CollStep.Forms.refl ..) (.onStep CollStep.Forms.refl (fun _ => rfl) fun _ _ => .owes p k _)
  rw [State.takeResultBytes_eq, hv]
  refine ⟨(State.Tracks.foldl CollStep.Forms.refl CollStep.Forms.trans hsend _ _).step.results k ?_, fun p hp => ?_⟩
  · rw [hstep]
    exact (mem_insert ..).1
  · refine foldl_reaches (I := fun w : State => w.HasStep sl c) (P := fun w : State => (p, k) ∈ (w.step? sl c).owed) hp (fun w q hw => (hsend w q).has hw)
      (fun w hw => ?_) (fun w q _ hp => (hsend w q).step.owed _ hp) hnote
    have hcoll := congrArg (fun e => e.1) (State.sendChunk_keeps (w.onStep sl (s.step? sl d) (CollStep.owes p k)) sl (s.step? sl d) p
      ((s.step? sl d).header 0x0A k false (s.step? sl d).desc.outFmt 0 ((s.step? sl d).desc.count k) ++ b) sl)
    rw [State.step?_of_coll hcoll, State.step?_onStep hw hname (f := CollStep.owes p k) fun _ => rfl]
    exact (mem_insert ..).1

theorem State.takeResultBytes_mem (s : State) (sl : Nat) (d : CollStep) (k : Nat) (b : Bytes) (sat : Nat) (nonfinite : Bool) :
    ((s.takeResultBytes sl d k b sat nonfinite).sl sl).mem = ((s.resultWritten sl (s.step? sl d) k b sat nonfinite).sl sl).mem := by
  rw [State.takeResultBytes_eq]
  have hon (v : State) (f : CollStep → CollStep) : State.Agree SliceState.mem v (v.onStep sl (s.step? sl d) f) := .onSl fun _ => rfl
  have hsend (v : State) (p : Place) (m : Bytes) : State.Agree SliceState.mem v (v.sendChunk sl (s.step? sl d) p m) := fun i =>
    congrArg (fun e => e.2.1) (v.sendChunk_keeps sl (s.step? sl d) p m i)
  exact State.Agree.comp (State.Agree.foldl (fun v p => .comp (hsend _ _ _) (hon v _)) _ _) (hon _ _) sl

end

end Sys2Proof.Machine
end

section
/-! A result that is refused. -/

namespace Sys2Proof.Machine

/-! ### A result that is refused -/

theorem next_notYet (d : Drip) : Drip.notLater (d.plus 1) d = false := by
  have h : (d.plus 1 - d).toNat = 1 := by
    unfold Drip.plus
    bv_omega
  unfold Drip.notLater Drip.later
  rw [h]
  decide

/-- No request of a slice has a condition that is given before the next drip, but those that have ended. -/
def SliceState.Quiet (d : Drip) (x : SliceState) : Prop := ∀ r ∈ x.svc.reqs, r.ended = true ∨ ∀ e ∈ r.conds, e.given = d.plus 1

theorem SliceState.Quiet.settle {d : Drip} {x : SliceState} (h : x.Quiet d) : x.settleRows d = x := by
  unfold SliceState.settleRows
  dsimp only
  have hnone : (x.svc.reqs.filter fun r => !r.ended && r.conds.any fun c => Drip.notLater c.given d) = [] := by
    refine List.filter_eq_nil_iff.2 fun r hr hdue => ?_
    obtain ⟨hlive, hany⟩ := Bool.and_eq_true_iff.1 hdue
    obtain he | hc := h r hr
    · rw [he] at hlive
      cases hlive
    · obtain ⟨e, hem, hg⟩ := List.any_eq_true.1 hany
      rw [hc e hem, next_notYet] at hg
      cases hg
  rw [hnone]
  rfl

theorem SliceState.Quiet.give {d : Drip} {x : SliceState} (h : x.Quiet d) (p : Request → Bool) (found : Drip) (st : Status) (l : Nat) :
    (x.onReqs fun r => if p r then { r with conds := r.conds ++ [⟨found, d.plus 1, st, l⟩] } else r).Quiet d := by
  intro r hr
  obtain ⟨q, hq, rfl⟩ := List.mem_map.1 hr
  have hq := h q hq
  split
  · refine hq.imp id fun hc e he => ?_
    obtain he | he := List.mem_append.1 he
    · exact hc e he
    · rw [List.mem_singleton.1 he]
  · exact hq

/-- The slice is quiet at a drip, and its memory is `m`. -/
def State.Rests (sl : Nat) (d : Drip) (m : Memory) (s : State) : Prop := s.now = d ∧ (s.sl sl).Quiet d ∧ (s.sl sl).mem = m

theorem State.Rests.endReqs {sl : Nat} {d : Drip} {m : Memory} {s : State} (h : s.Rests sl d m) (i : Nat) (p : Request → Bool) (found : Drip) (st : Status) (l : Nat) :
    (s.endReqs i p found (d.plus 1) st l).Rests sl d m := by
  obtain ⟨hnow, hq, hm⟩ := h
  unfold State.endReqs
  refine ⟨hnow, ?_⟩
  rw [hnow]
  by_cases hi : i = sl
  · subst hi
    by_cases hlen : i < s.slices.length
    · have hgive := hq.give p found st l
      rw [State.onSl_sl_self _ _ _ hlen, hgive.settle]
      exact ⟨hgive, hm⟩
    · rw [State.onSl_sl_of_le _ _ (Nat.not_lt.1 hlen)]
      exact ⟨hq, hm⟩
  · rw [State.onSl_sl_of_ne _ _ (Ne.symm hi)]
    exact ⟨hq, hm⟩

theorem State.Rests.eachSlice {sl : Nat} {d : Drip} {m : Memory} {f : State → Nat → State} (hf : ∀ (v : State) (i : Nat), v.Rests sl d m → (f v i).Rests sl d m)
    {s : State} (h : s.Rests sl d m) : (s.eachSlice f).Rests sl d m := by
  unfold State.eachSlice
  exact foldl_keeps hf _ h

/-- Ending the requests of a collective at the next drip writes nothing while the slice is quiet. -/
theorem State.Rests.endColl {sl : Nat} {d : Drip} {m : Memory} {s : State} (h : s.Rests sl d m) (c : CollStep) (st : Status) : (s.endColl sl c st).Rests sl d m := by
  unfold State.endColl
  split
  · unfold State.endCtxNext
    refine .eachSlice (fun v i hv => ?_) h
    unfold State.endNext
    rw [hv.1]
    exact hv.endReqs ..
  · split
    · unfold State.endTied
      rw [h.1]
      split
      · exact .eachSlice (fun v i hv => hv.endReqs ..) h
      · exact h.endReqs ..
    · exact h

section
variable (s : State) (sl : SliceId) (c : CollStep) (k : Nat) (b : Bytes) (sat : Nat) (nonfinite : Bool) (hc : c.status = 0)
include hc

theorem State.resultWritten_refused (hr : (s.sl sl).outRefused (c.desc.outAddr + k * c.desc.full * elemBytes (rowFmt c.desc.outFmt)) b.length = true)
    (hq : ∀ r ∈ (s.sl sl).svc.reqs, r.ended = true ∨ r.conds = []) : ((s.resultWritten sl c k b sat nonfinite).sl sl).mem = (s.sl sl).mem := by
  unfold State.resultWritten
  dsimp only
  rw [if_neg (not_not.2 hc), if_pos hr]
  have hrep : State.Agree (fun x => (x.svc.reqs, x.mem)) s (s.report sl (mkReport 0x10 4 0xFFF 0x1A c.desc.ctx)) := .report fun _ _ => rfl
  obtain ⟨h1, h2⟩ := Prod.mk.inj (hrep sl)
  have hrest : (s.report sl (mkReport 0x10 4 0xFFF 0x1A c.desc.ctx)).Rests sl s.now (s.sl sl).mem := by
    refine ⟨rfl, fun r hm => ?_, h2⟩
    rw [h1] at hm
    exact (hq r hm).imp id fun hn e he => by rw [hn] at he; cases he
  exact (hrest.endColl c .fault).2.2

theorem State.resultWritten_stored (hs : sl.val < s.slices.length) (hr : (s.sl sl).outRefused (c.desc.outAddr + k * c.desc.full * elemBytes (rowFmt c.desc.outFmt)) b.length = false) :
    ((s.resultWritten sl c k b sat nonfinite).sl sl).mem =
      (s.sl sl).mem.writeBytes (c.desc.outAddr + k * c.desc.full * elemBytes (rowFmt c.desc.outFmt)) b := by
  unfold State.resultWritten
  dsimp only
  rw [if_neg (not_not.2 hc), if_neg (Bool.eq_false_iff.1 hr), State.onSl_sl_self _ _ _ hs]
  rfl

end

end Sys2Proof.Machine
end

section
/-! Chunks of a live step. -/

namespace Sys2Proof.Machine

/-! ### Chunks of a live step -/

theorem lowStatus_zero (a : Nat) : lowStatus a 0 = a := by
  unfold lowStatus
  split
  · next h => exact h.symm
  · rfl

/-- What a chunk is matched by. -/
def CollStep.takes (c : CollStep) (n : Nat) : Bool := !c.completed && c.covers n && c.epoch == chEpoch n

theorem CollStep.key_self (c : CollStep) : c.key c = true := (CollStep.key_iff c c).2 rfl

theorem State.HasStep.of_mem {s : State} {sl : Nat} {c : CollStep} (h : c ∈ (s.sl sl).coll.steps) : s.HasStep sl c :=
  List.find?_isSome.2 ⟨c, h, c.key_self⟩

theorem CollStep.input_eq {c e : CollStep} {x y : SliceState} (hg : e.gated = c.gated) (hst : e.status = c.status) (hd : e.desc = c.desc)
    (hw : y.words = x.words) (k : Nat) : e.input y k = c.input x k := by
  obtain ⟨hm, hw⟩ := Prod.mk.inj hw
  obtain ⟨hp, hs⟩ := Prod.mk.inj hw
  unfold CollStep.input SliceState.poisoned SliceState.load
  rw [hg, hst, hd, hm, hp, hs]

section
variable {s : State} {sl : SliceId} {src : Place} {msg : Bytes} {c : CollStep} {idx : Nat} {d : CollDesc} {n : Nat}
  (hlen : 64 ≤ msg.length) (hd : (s.sl sl).collDesc? (chColl (leNat (slice msg 0 64))) = some (idx, d))
  (hexp : chunkAsExpected d (leNat (slice msg 0 64)) (msg.drop 64) = true)
  (hlive : ((s.sl sl).coll.steps.find? fun c => c.takes (leNat (slice msg 0 64))) = some c)
include hlen hd hexp hlive

theorem State.takeChunk_live : s.takeChunk sl src msg = if chKind (leNat (slice msg 0 64)) == 0x09 then
    if c.preds.contains src && (c.granted.any fun g => g.1 == src && decide (chChunk (leNat (slice msg 0 64)) < g.2.2)) then
      s.consumeSum sl c src (leNat (slice msg 0 64)) (msg.drop 64)
    else s.discardChunk sl true
    else if c.succ == some src then
      (s.onSl sl fun x => x.raise c (chStatus (leNat (slice msg 0 64)))).takeResultBytes sl c (chChunk (leNat (slice msg 0 64))) (msg.drop 64)
    else s.discardChunk sl true := by
  unfold CollStep.takes at hlive
  unfold State.takeChunk
  dsimp only
  rw [hd, hlive]
  dsimp only
  rw [hexp, if_neg]
  simp only [Bool.not_true, Bool.or_false, Option.isNone_some, Bool.false_and, decide_eq_true_eq, Nat.not_lt]
  exact hlen

end

/-! ### The result of a chunk -/

section
variable {s : State} {sl : SliceId} {c : CollStep} (hs : s.Inv) (hhas : s.HasStep sl c) (hself : s.step? sl c = c) (hc : c.status = 0) (k : Nat) (b : Bytes)
include hs hhas hself hc

theorem State.takeResult_live : let v := (s.onSl sl fun x => x.raise c 0).takeResultBytes sl c k b
    let a := c.desc.outAddr + k * c.desc.full * elemBytes (rowFmt c.desc.outFmt)
    k ∈ (v.step? sl c).results ∧ (∀ p ∈ c.preds, (p, k) ∈ (v.step? sl c).owed) ∧
      ((s.sl sl).outRefused a b.length = false → (v.sl sl).load a b.length = b ∧ SameBytesOutside (s.sl sl) (v.sl sl) a b.length) ∧
      ((s.sl sl).outRefused a b.length = true → (∀ r ∈ (s.sl sl).svc.reqs, r.ended = true ∨ r.conds = []) → (v.sl sl).mem = (s.sl sl).mem) := by
  have hstep := State.step?_raise hhas c rfl 0
  have hh : (s.onSl sl fun x => x.raise c 0).HasStep sl c :=
    (State.Tracks.raise (R := fun _ _ => True) (s := s) (c := c) (d := c) (fun _ => trivial) fun _ _ => trivial).has hhas
  have hx : State.Agree (fun x => (x.mem, x.svc, x.tiers)) s (s.onSl sl fun x => x.raise c 0) := .onSl fun _ => rfl
  rw [hself, hc, lowStatus_zero] at hstep
  generalize (s.onSl sl fun x => x.raise c 0) = v at hstep hh hx
  obtain ⟨hm, hx⟩ := Prod.mk.inj (hx sl)
  obtain ⟨hsvc, htiers⟩ := Prod.mk.inj hx
  have href (a n : Nat) : (v.sl sl).outRefused a n = (s.sl sl).outRefused a n := by
    unfold SliceState.outRefused
    rw [htiers]
  obtain ⟨h1, h2⟩ := State.takeResultBytes_notes hh rfl k b 0 false
  have hmem := State.takeResultBytes_mem v sl c k b 0 false
  rw [hstep] at h2 hmem
  refine ⟨h1, h2, fun hr => ?_, fun hr hq => ?_⟩
  · have hst := State.resultWritten_stored v sl { c with status := 0 } k b 0 false rfl hh.slice ((href _ _).trans hr)
    rw [hm] at hst
    exact written_spec (hs.sl sl.isLt).1 (hmem.trans hst) rfl
  · exact (hmem.trans (State.resultWritten_refused v sl { c with status := 0 } k b 0 false rfl ((href _ _).trans hr) (hsvc ▸ hq))).trans hm

end

end Sys2Proof.Machine
end

section
/-! A SUM chunk that a live step takes. -/

namespace Sys2Proof.Machine

/-! ### A SUM chunk that a live step takes -/

/-- A chunk of a predecessor is kept until its turn, with the status that came with it. -/
def State.sumKept (s : State) (sl : Nat) (c : CollStep) (src : Place) (k : Nat) (payload : Option Bytes) (st : Nat) : State :=
  (s.onStep sl c fun d => { d with got := d.got ++ [(src, k, payload)] }).onSl sl fun x => x.raise c st

/-- The step after that. -/
def CollStep.keeps (c : CollStep) (src : Place) (k : Nat) (payload : Option Bytes) (st : Nat) : CollStep :=
  { c with got := c.got ++ [(src, k, payload)], status := lowStatus c.status st }

/-- The chunk whose turn it is has come from the only predecessor. -/
theorem CollStep.part_keeps {c : CollStep} {src : Place} {k : Nat} (hgot : ∀ g ∈ c.got, g.2.1 ≠ k) (payload : Option Bytes) (st : Nat) :
    (c.keeps src k payload st).part k src = payload := by
  have hfind : (c.got ++ [(src, k, payload)]).find? (fun g => g.1 == src && g.2.1 == k) = some (src, k, payload) := by
    rw [List.find?_append, List.find?_eq_none.2 fun g hg h => hgot g hg (beq_iff_eq.1 (Bool.and_eq_true_iff.1 h).2)]
    simp
  unfold CollStep.part CollStep.keeps
  dsimp only
  rw [hfind]

section
variable {s : State} {sl : SliceId} {c : CollStep} {src : Place}
  (hhas : s.HasStep sl c) (hself : s.step? sl c = c)
include hhas hself

theorem State.step?_sumKept (k : Nat) (payload : Option Bytes) (st : Nat) : (s.sumKept sl c src k payload st).step? sl c = c.keeps src k payload st ∧
    (s.sumKept sl c src k payload st).HasStep sl c := by
  have hon := State.step?_onStep hhas (d := c) rfl (f := fun d => { d with got := d.got ++ [(src, k, payload)] }) fun _ => rfl
  have hh := State.HasStep.onStep hhas c (f := fun d => { d with got := d.got ++ [(src, k, payload)] }) fun _ => rfl
  refine ⟨(State.step?_raise hh c rfl st).trans ?_, (State.Tracks.raise (R := fun _ _ => True) (c := c) (fun _ => trivial) fun _ _ => trivial).has hh⟩
  rw [hon, hself]
  rfl

omit hhas in
theorem State.consumeSum_new {n : Nat} (b : Bytes) (hgot : ∀ g ∈ c.got, g.2.1 ≠ chChunk n) (hcur : c.cur ≤ chChunk n) :
    s.consumeSum sl c src n b = (((s.sumKept sl c src (chChunk n) (if chZero n then none else some b) (chStatus n)).formSums sl c 64).pullAll sl c false) := by
  have hnew : (decide (chChunk n < (s.step? sl c).cur) || (s.step? sl c).got.any fun g => g.1 == src && g.2.1 == chChunk n) = false := by
    rw [hself, Bool.or_eq_false_iff]
    exact ⟨decide_eq_false (Nat.not_lt.2 hcur), List.any_eq_false.2 fun g hg h => hgot g hg (beq_iff_eq.1 (Bool.and_eq_true_iff.1 h).2)⟩
  unfold State.consumeSum State.sumKept
  dsimp only
  rw [hnew]
  rfl

variable (hpreds : c.preds = [src]) (hlive : c.completed = false) (k : Nat) (hgot : ∀ g ∈ c.got, g.2.1 ≠ k) (hhi : c.cur < c.hi)
include hpreds hlive hgot hhi

omit hhas hself hlive hgot hhi in
/-- A chunk that comes before its turn forms no sum. -/
theorem CollStep.keeps_waits (hk : c.cur < k) (hcur : ∀ g ∈ c.got, g.2.1 ≠ c.cur) (payload : Option Bytes) (st : Nat) : (c.keeps src k payload st).waits = true := by
  have hnot : ((c.keeps src k payload st).preds.all fun p => (c.keeps src k payload st).got.any fun g => g.1 == p && g.2.1 == c.cur) = false := by
    have hp : (c.keeps src k payload st).preds = [src] := hpreds
    rw [hp, List.all_cons, List.all_nil, Bool.and_true]
    refine List.any_eq_false.2 fun g hg h => ?_
    have hgk := beq_iff_eq.1 (Bool.and_eq_true_iff.1 h).2
    obtain hg | hg := List.mem_append.1 (show g ∈ c.got ++ [(src, k, payload)] from hg)
    · exact hcur g hg hgk
    · rw [List.mem_singleton.1 hg] at hgk
      exact absurd hgk (Nat.ne_of_gt hk)
  unfold CollStep.waits
  rw [show (c.keeps src k payload st).cur = c.cur from rfl, hnot]
  simp

omit hhas hself hgot in
/-- A chunk whose turn it is forms its sum where there is room for it. -/
theorem CollStep.keeps_passes (hk : k = c.cur) (hroom : c.succ.isSome = true → c.sums.length < 16) (payload : Option Bytes) (st : Nat) :
    (c.keeps src k payload st).waits = false := by
  have hready : ((c.keeps src k payload st).preds.all fun p => (c.keeps src k payload st).got.any fun g => g.1 == p && g.2.1 == c.cur) = true := by
    have hp : (c.keeps src k payload st).preds = [src] := hpreds
    rw [hp, List.all_cons, List.all_nil, Bool.and_true]
    exact List.any_eq_true.2 ⟨(src, k, payload), List.mem_append_right _ (List.mem_singleton.2 rfl), by simp [hk]⟩
  have hr : (c.succ.isSome && decide (16 ≤ c.sums.length)) = false := by
    cases hsucc : c.succ.isSome with
    | false => rfl
    | true => exact decide_eq_false (Nat.not_le.2 (hroom hsucc))
  unfold CollStep.waits
  rw [show (c.keeps src k payload st).cur = c.cur from rfl, hready, show (c.keeps src k payload st).completed = false from hlive,
    show (c.keeps src k payload st).hi = c.hi from rfl, decide_eq_false (Nat.not_le.2 hhi), show (c.keeps src k payload st).succ = c.succ from rfl,
    show (c.keeps src k payload st).sums = c.sums from rfl, hr]
  rfl

omit hhas hself hlive hhi in
/-- The sum of the chunk: the own input and what the only predecessor sent. -/
theorem CollStep.keeps_total (hk : k = c.cur) (payload : Option Bytes) {x y : SliceState} (hw : y.words = x.words) :
    (c.keeps src k payload 0).total y = carrierAdd c.desc.wide (c.input x k).1 payload := by
  have hp : (c.keeps src k payload 0).preds = [src] := hpreds
  unfold CollStep.total
  rw [hp, show (c.keeps src k payload 0).cur = k from hk.symm,
    CollStep.input_eq (c := c) (e := c.keeps src k payload 0) rfl (lowStatus_zero _) rfl hw]
  simp only [List.foldl_cons, List.foldl_nil, CollStep.part_keeps hgot]
  rfl

end

/-- What forming the sums and telling the predecessors leaves of a step. -/
theorem State.formsAndPulls (s : State) (sl : Nat) (c d e : CollStep) (n : Nat) : State.Tracks sl c CollStep.Forms s ((s.formSums sl d n).pullAll sl e false) :=
  .comp CollStep.Forms.trans ((State.pullAll_tracks _ sl c e false).mono CollStep.Forms.of_granted) (State.formSums_forms s sl c d n)

section
variable {s : State} {sl : SliceId} {c : CollStep} {src : Place} {n : Nat} {b : Bytes}
  (hhas : s.HasStep sl c) (hself : s.step? sl c = c) (hpreds : c.preds = [src]) (hlive : c.completed = false)
  (hgot : ∀ g ∈ c.got, g.2.1 ≠ chChunk n) (hhi : c.cur < c.hi)
include hhas hself hpreds hlive hgot hhi

omit hlive hhi in
theorem State.consumeSum_early (hk : c.cur < chChunk n) (hcur : ∀ g ∈ c.got, g.2.1 ≠ c.cur) : let t := s.consumeSum sl c src n b
    (t.step? sl c).got = c.got ++ [(src, chChunk n, if chZero n then none else some b)] ∧ (t.step? sl c).cur = c.cur ∧
      (t.step? sl c).status = lowStatus c.status (chStatus n) ∧ (t.sl sl).mem = (s.sl sl).mem := by
  dsimp only
  obtain ⟨hstep, -⟩ := State.step?_sumKept (src := src) hhas hself (chChunk n) (if chZero n then none else some b) (chStatus n)
  have hmem : State.Agree SliceState.mem s (s.sumKept sl c src (chChunk n) (if chZero n then none else some b) (chStatus n)) :=
    .comp (.onSl fun _ => rfl) (.onSl fun _ => rfl)
  rw [State.consumeSum_new hself b hgot (Nat.le_of_lt hk),
    State.formSums_waits hstep (CollStep.keeps_waits hpreds _ hk hcur _ _)]
  generalize s.sumKept sl c src (chChunk n) (if chZero n then none else some b) (chStatus n) = v at hstep hmem
  have hg := (v.pullAll_tracks sl c c false).step
  unfold CollStep.Granted at hg
  rw [hg, hstep]
  exact ⟨rfl, rfl, rfl, (congrArg (fun w => w.1) (v.pullAll_mem sl c false sl)).trans (hmem sl)⟩

theorem State.consumeSum_passes (hk : chChunk n = c.cur) (hst : chStatus n = 0) (hsucc : c.succ.isSome = true) (hroom : c.sums.length < 16) :
    let t := s.consumeSum sl c src n b
    chChunk n < (t.step? sl c).cur ∧
      (chChunk n, carrierAdd c.desc.wide (c.input (s.sl sl) (chChunk n)).1 (if chZero n then none else some b), false) ∈ (t.step? sl c).sums ∧
      (t.sl sl).mem = (s.sl sl).mem := by
  dsimp only
  obtain ⟨hstep, hh⟩ := State.step?_sumKept (src := src) hhas hself (chChunk n) (if chZero n then none else some b) (chStatus n)
  have hwords : State.Agree SliceState.words s (s.sumKept sl c src (chChunk n) (if chZero n then none else some b) (chStatus n)) :=
    .comp (.onSl fun _ => rfl) (.onSl fun _ => rfl)
  rw [State.consumeSum_new hself b hgot (Nat.le_of_eq hk.symm)]
  rw [hst] at hstep hh hwords ⊢
  generalize chChunk n = k at hk hgot hstep hh hwords ⊢
  subst hk
  generalize (if chZero n then none else some b) = payload at hstep hh hwords ⊢
  generalize s.sumKept sl c src c.cur payload 0 = v at hstep hh hwords ⊢
  have hw := CollStep.keeps_passes hpreds hlive c.cur hhi rfl (fun _ => hroom) payload 0
  have hform := State.formSums_passes hstep hw hsucc 63
  rw [CollStep.keeps_total hpreds _ hgot rfl payload (hwords sl)] at hform
  obtain ⟨st, hsum⟩ := State.step?_sumFormed hh
  have hh1 := (State.sumFormed_forms (s := v) (sl := sl) (c := c) c hstep).has hh
  rw [hstep] at hsum
  have hon := State.step?_onStep hh1 (d := c.keeps src c.cur payload 0) rfl
    (f := CollStep.summed c.cur (carrierAdd c.desc.wide (c.input (s.sl sl) c.cur).1 payload)) fun _ => rfl
  have hlast := (State.formsAndPulls ((v.sumFormed sl (c.keeps src c.cur payload 0)).onStep sl (c.keeps src c.cur payload 0)
    (CollStep.summed c.cur (carrierAdd c.desc.wide (c.input (s.sl sl) c.cur).1 payload))) sl c (c.keeps src c.cur payload 0) c 63).step
  have hmem := (State.pullAll_mem (v.formSums sl c 64) sl c false sl).trans ((State.formSums_mem v sl c (by rw [hstep]; exact hsucc) 64 sl).trans (hwords sl))
  rw [hon, hsum] at hlast
  refine ⟨?_, ?_, congrArg (fun w => w.1) hmem⟩
  · rw [hform]
    exact hlast.cur
  · obtain ⟨l, hl⟩ := hlast.sums
    rw [hform]
    exact (show _ = _ from hl) ▸ List.mem_append_left _ (List.mem_append_right _ (List.mem_singleton.2 rfl))

theorem State.consumeSum_ends (hk : chChunk n = c.cur) (hsucc : c.succ = none) : let t := s.consumeSum sl c src n b
    chChunk n < (t.step? sl c).cur ∧ chChunk n ∈ (t.step? sl c).results := by
  dsimp only
  obtain ⟨hstep, hh⟩ := State.step?_sumKept (src := src) hhas hself (chChunk n) (if chZero n then none else some b) (chStatus n)
  rw [State.consumeSum_new hself b hgot (Nat.le_of_eq hk.symm)]
  generalize chChunk n = k at hk hgot hstep hh ⊢
  subst hk
  generalize (if chZero n then none else some b) = payload at hstep hh ⊢
  generalize chStatus n = st0 at hstep hh ⊢
  generalize s.sumKept sl c src c.cur payload st0 = v at hstep hh ⊢
  have hw := CollStep.keeps_passes hpreds hlive c.cur hhi rfl (fun h => by rw [hsucc] at h; cases h) payload st0
  rw [State.formSums_ends hstep hw hsucc 63]
  obtain ⟨st, hsum⟩ := State.step?_sumFormed hh
  have hh1 := (State.sumFormed_forms (s := v) (sl := sl) (c := c) c hstep).has hh
  rw [hstep] at hsum
  generalize v.sumFormed sl (c.keeps src c.cur payload st0) = w at hsum hh1 ⊢
  generalize (resultChunkOf (c.keeps src c.cur payload st0).desc (c.keeps src c.cur payload st0).cur
    ((c.keeps src c.cur payload st0).total (v.sl sl))) = r
  have hres := (State.takeResultBytes_notes hh1 (d := c.keeps src c.cur payload st0) rfl c.cur r.bytes r.sat r.nonfinite).1
  have hforms := (w.takeResultBytes_forms sl c (c.keeps src c.cur payload st0) c.cur r.bytes r.sat r.nonfinite).step
  have hlast := (State.formsAndPulls (w.takeResultBytes sl (c.keeps src c.cur payload st0) c.cur r.bytes r.sat r.nonfinite) sl c
    (c.keeps src c.cur payload st0) c 63).step
  rw [hsum] at hforms
  exact ⟨Nat.le_trans hforms.cur hlast.cur, hlast.results _ hres⟩

end

end Sys2Proof.Machine
end

section
/-! PULLs of the successor. -/

namespace Sys2Proof.Machine

/-! ### PULLs of the successor -/

/-- What a PULL changes of a step. -/
def CollStep.pull (f l : Nat) (d : CollStep) : CollStep :=
  { d with
    passed := max d.passed (min f d.hi), limit := max d.limit l
    sums := (d.sums.filter fun k => decide (f ≤ k.1)).map fun k => (k.1, k.2.1, false) }

theorem State.applyPull_eq (s : State) (sl : Nat) (c : CollStep) (f l : Nat) :
    s.applyPull sl c f l = ((s.onStep sl c (CollStep.pull f l)).formSums sl c 64).pullAll sl c false := rfl

/-- A PULL acts on the step of its name, and then sums are formed. -/
def CollStep.PulledBy (f l : Nat) (d e : CollStep) : Prop := d.Forms e ∨ (d.pull f l).Forms e

theorem State.applyPull_tracks (s : State) (sl : Nat) (c e : CollStep) (f l : Nat) : State.Tracks sl c (CollStep.PulledBy f l) s (s.applyPull sl e f l) := by
  have hon : State.Tracks sl c (fun d d' => d' = d ∨ d' = d.pull f l) s (s.onStep sl e (CollStep.pull f l)) :=
    .onStep (fun _ => .inl rfl) (fun _ => rfl) fun _ _ => .inr rfl
  have hform := State.formsAndPulls (s.onStep sl e (CollStep.pull f l)) sl c e e 64
  refine ⟨hform.fixed.trans hon.fixed, hon.step.imp (fun h => ?_) fun h => ?_⟩ <;> exact h ▸ hform.step

theorem State.applyPull_pulls {s : State} {sl : Nat} {c : CollStep} (h : s.HasStep sl c) (f l : Nat) :
    ((s.step? sl c).pull f l).Forms ((s.applyPull sl c f l).step? sl c) := by
  have hform := (State.formsAndPulls (s.onStep sl c (CollStep.pull f l)) sl c c c 64).step
  rw [State.step?_onStep h rfl (f := CollStep.pull f l) fun _ => rfl] at hform
  exact hform

/-- A step that PULLs up to `f` may have acted on, as it was before. -/
structure CollStep.MayPull (f l : Nat) (c d : CollStep) : Prop where
  fixed : d.fixed = c.fixed
  passed : max d.passed f = max c.passed f
  limit : max d.limit l = max c.limit l
  sums : ∀ e ∈ c.sums, f ≤ e.1 → ∃ b, (e.1, e.2.1, b) ∈ d.sums

/-- A step that a PULL has acted on. -/
structure CollStep.HasPull (f l : Nat) (c d : CollStep) : Prop where
  passed : d.passed = max c.passed f
  limit : d.limit = max c.limit l
  sums : ∀ e ∈ c.sums, f ≤ e.1 → (e.1, e.2.1, false) ∈ d.sums

namespace CollStep.MayPull
variable {f l : Nat} {c d e : CollStep}

theorem refl (f l : Nat) (c : CollStep) : CollStep.MayPull f l c c := ⟨rfl, rfl, rfl, fun e he _ => ⟨e.2.2, he⟩⟩

theorem forms (h : CollStep.MayPull f l c d) (hf : d.Forms e) : CollStep.MayPull f l c e := by
  obtain ⟨hp, hl⟩ := Prod.mk.inj hf.pulled
  obtain ⟨m, hm⟩ := hf.sums
  refine ⟨hf.fixed.trans h.fixed, hp ▸ h.passed, hl ▸ h.limit, fun a ha hfa => ?_⟩
  obtain ⟨b, hb⟩ := h.sums a ha hfa
  exact ⟨b, hm ▸ List.mem_append_left _ hb⟩

theorem pull (h : CollStep.MayPull f l c d) (hf : f ≤ c.hi) : CollStep.HasPull f l c (d.pull f l) := by
  have hhi : d.hi = c.hi := (congrArg CollStep.hi h.fixed :)
  refine ⟨?_, h.limit, fun a ha hfa => ?_⟩
  · rw [← h.passed]
    exact congrArg (max d.passed) (hhi ▸ Nat.min_eq_left hf)
  · obtain ⟨b, hb⟩ := h.sums a ha hfa
    exact List.mem_map.2 ⟨_, List.mem_filter.2 ⟨hb, decide_eq_true hfa⟩, rfl⟩

end CollStep.MayPull

namespace CollStep.HasPull
variable {f l : Nat} {c d e : CollStep}

theorem forms (h : CollStep.HasPull f l c d) (hf : d.Forms e) : CollStep.HasPull f l c e := by
  obtain ⟨hp, hl⟩ := Prod.mk.inj hf.pulled
  obtain ⟨m, hm⟩ := hf.sums
  exact ⟨hp.trans h.passed, hl.trans h.limit, fun a ha hfa => hm ▸ List.mem_append_left _ (h.sums a ha hfa)⟩

theorem mayPull (h : CollStep.HasPull f l c d) (hfix : d.fixed = c.fixed) : CollStep.MayPull f l c d := by
  refine ⟨hfix, ?_, ?_, fun a ha hfa => ⟨_, h.sums a ha hfa⟩⟩
  · rw [h.passed, Nat.max_assoc, Nat.max_self]
  · rw [h.limit, Nat.max_assoc, Nat.max_self]

end CollStep.HasPull

theorem CollStep.MayPull.pulledBy {f l : Nat} {c d e : CollStep} (h : CollStep.MayPull f l c d) (hf : f ≤ c.hi) (hp : CollStep.PulledBy f l d e) :
    CollStep.MayPull f l c e := by
  obtain hp | hp := hp
  · exact h.forms hp
  · exact ((h.pull hf).mayPull (show (d.pull f l).fixed = c.fixed from h.fixed)).forms hp

theorem CollStep.HasPull.pulledBy {f l : Nat} {c d e : CollStep} (h : CollStep.HasPull f l c d) (hm : CollStep.MayPull f l c d) (hf : f ≤ c.hi)
    (hp : CollStep.PulledBy f l d e) : CollStep.HasPull f l c e := by
  obtain hp | hp := hp
  · exact h.forms hp
  · exact (hm.pull hf).forms hp

/-- A PULL that names a step among others acts on it. -/
theorem State.foldPulls {s : State} {sl : Nat} {c : CollStep} (h : s.HasStep sl c) (hself : s.step? sl c = c) {l : List CollStep} (hc : c ∈ l) {f : Nat} (hf : f ≤ c.hi)
    (lim : Nat) : CollStep.HasPull f lim c ((l.foldl (fun v e => v.applyPull sl e f lim) s).step? sl c) := by
  refine foldl_reaches (I := fun v : State => v.HasStep sl c ∧ CollStep.MayPull f lim c (v.step? sl c)) (P := fun v => CollStep.HasPull f lim c (v.step? sl c)) hc
    (fun v e hv => ?_) (fun v hv => ?_) (fun v e hv hp => ?_) ⟨h, hself.symm ▸ .refl f lim c⟩
  · have ht := v.applyPull_tracks sl c e f lim
    exact ⟨ht.has hv.1, hv.2.pulledBy hf ht.step⟩
  · exact (hv.2.pull hf).forms (State.applyPull_pulls hv.1 f lim)
  · exact hp.pulledBy hv.2 hf (v.applyPull_tracks sl c e f lim).step

/-- The live steps of a collective whose successor sends a PULL. -/
def SliceState.pulledSteps (x : SliceState) (src : Place) (n : Nat) : List CollStep :=
  x.coll.steps.filter fun c => !c.completed && c.desc.collId == chColl n && c.frame.toNat % 65536 == chTag n && c.epoch == chEpoch n && c.succ == some src

/-- The steps after a PULL are those that it was applied to. -/
theorem State.takePull_coll (s : State) (sl : Nat) (src : Place) (msg : Bytes) (d : CollStep) : (s.takePull sl src msg).step? sl d =
    ((((s.sl sl).pulledSteps src (leNat (slice msg 0 64))).filter fun c => c.pulledBy (chChunk (leNat (slice msg 0 64)))).foldl
      (fun v c => v.applyPull sl c (chChunk (leNat (slice msg 0 64))) (chLimit (leNat (slice msg 0 64)))) s).step? sl d := by
  unfold State.takePull SliceState.pulledSteps
  dsimp only
  generalize (List.foldl _ s _) = t
  have hon : (t.onSl sl fun y => { y with coll := { y.coll with pulls := y.coll.pulls ++ [(src, msg)] } }).step? sl d = t.step? sl d := by
    have hsteps : ((t.onSl sl fun y => { y with coll := { y.coll with pulls := y.coll.pulls ++ [(src, msg)] } }).sl sl).coll.steps = (t.sl sl).coll.steps :=
      State.Agree.onSl (π := fun y => y.coll.steps) (f := fun y => { y with coll := { y.coll with pulls := y.coll.pulls ++ [(src, msg)] } })
        (fun _ => rfl) sl
    unfold State.step?
    rw [hsteps]
  have hite {p : Prop} [Decidable p] {a b : State} (ha : a.step? sl d = t.step? sl d) (hb : b.step? sl d = t.step? sl d) :
      (if p then a else b).step? sl d = t.step? sl d := by
    split <;> assumption
  cases (s.sl sl).collDesc? (chColl (leNat (slice msg 0 64))) with
  | none => rfl
  | some k => exact hite rfl (hite rfl hon)

theorem State.takePull_waits {s : State} {sl : SliceId} {src : Place} {msg : Bytes} {idx : Nat} {d : CollDesc} {u : Run}
    (hd : (s.sl sl).collDesc? (chColl (leNat (slice msg 0 64))) = some (idx, d))
    (hno : ∀ c ∈ (s.sl sl).coll.steps, c.desc.collId ≠ chColl (leNat (slice msg 0 64)))
    (hu : (s.sl sl).chunkRun d idx (leNat (slice msg 0 64)) = some u) (hst : u.st = .waiting)
    (he : (s.sl sl).instanceEnded (chColl (leNat (slice msg 0 64))) (chTag (leNat (slice msg 0 64))) = false) (hlen : (s.sl sl).coll.pulls.length < 64) :
    s.takePull sl src msg = s.onSl sl fun y => { y with coll := { y.coll with pulls := y.coll.pulls ++ [(src, msg)] } } := by
  have hnone : ((s.sl sl).coll.steps.filter fun c => !c.completed && c.desc.collId == chColl (leNat (slice msg 0 64)) &&
      c.frame.toNat % 65536 == chTag (leNat (slice msg 0 64)) && c.epoch == chEpoch (leNat (slice msg 0 64)) && c.succ == some src) = [] := by
    refine List.filter_eq_nil_iff.2 fun c hc h => ?_
    simp only [Bool.and_eq_true, beq_iff_eq] at h
    exact hno c hc h.1.1.1.2
  unfold State.takePull
  dsimp only
  rw [hnone, hd]
  dsimp only
  rw [hu, he]
  simp [hst, Nat.not_le.2 hlen]

end Sys2Proof.Machine
end

section
/-! A live step repeats, sends and ends. -/

namespace Sys2Proof.Machine

/-! ### A live step repeats its PULLs, sends a sum, and ends -/

/-- What a step has to tell a predecessor. -/
def CollStep.wants (c : CollStep) (q : Place) : Place × Nat × Nat := (q, c.first q, c.first q + c.freeBuffers)

/-- A predecessor is told anew. -/
def State.tell (s : State) (sl : Nat) (c : CollStep) (q : Place) : State :=
  (s.onStep sl (s.step? sl c) fun d => { d with granted := (d.granted.filter fun g => g.1 != q) ++ [(s.step? sl c).wants q] }).sendChunk sl (s.step? sl c) q
    ((s.step? sl c).header 0x0B ((s.step? sl c).first q) false 0 ((s.step? sl c).wants q).2.2 0)

theorem State.pullAll_again (s : State) (sl : Nat) (c : CollStep) : s.pullAll sl c true = c.preds.foldl (fun v q => v.tell sl c q) s := by
  unfold State.pullAll
  congr 1
  funext v q
  exact if_neg (by simp)

theorem State.tell_tracks (s : State) (sl : Nat) (c : CollStep) (q : Place) : State.Tracks sl c CollStep.Granted s (s.tell sl c q) :=
  .comp CollStep.Granted.trans (.sendChunk CollStep.Granted.refl ..) (.onStep CollStep.Granted.refl (fun _ => rfl) fun _ _ => rfl)

theorem State.step?_tell {s : State} {sl : Nat} {c : CollStep} (h : s.HasStep sl c) (hg : c.Granted (s.step? sl c)) (q : Place) :
    (s.tell sl c q).step? sl c = { c with granted := ((s.step? sl c).granted.filter fun g => g.1 != q) ++ [c.wants q] } := by
  have hw : (s.step? sl c).wants q = c.wants q := by
    rw [show s.step? sl c = _ from hg]
    rfl
  have hon := State.step?_onStep h (s.step?_name sl c)
    (f := fun d => { d with granted := (d.granted.filter fun g => g.1 != q) ++ [(s.step? sl c).wants q] }) fun _ => rfl
  refine (State.step?_of_coll (congrArg (fun e => e.1) (State.sendChunk_keeps _ sl _ q _ sl)) c).trans (hon.trans ?_)
  rw [hw]
  conv_lhs => rw [show s.step? sl c = _ from hg]

section
variable {s : State} {sl : SliceId} {i : Nat} {c : CollStep} (hmine : (s.sl sl).liveStep i = some c) (hself : s.step? sl c = c)
include hmine

theorem SliceState.liveStep_mem : s.HasStep sl c := .of_mem (List.mem_of_find?_eq_some hmine)

theorem execPullRepeat_live : exec (.pullRepeat sl i) s = .next (if c.cur < c.hi then s.pullAll sl c true else s) := by
  show execPullRepeat sl i s = _
  unfold execPullRepeat
  rw [hmine]

theorem execChunkSend_live : exec (.chunkSend sl i) s = .next (((s.formSums sl c 64).sendSum sl c).pullAll sl c false) := by
  show execChunkSend sl i s = _
  unfold execChunkSend
  rw [hmine]

include hself

theorem State.pullAll_grants : ∀ p ∈ c.preds, (p, c.first p, c.first p + c.freeBuffers) ∈ ((s.pullAll sl c true).step? sl c).granted := by
  intro p hp
  rw [State.pullAll_again]
  refine foldl_reaches (I := fun v : State => v.HasStep sl c ∧ c.Granted (v.step? sl c))
    (P := fun v : State => (p, c.first p, c.first p + c.freeBuffers) ∈ (v.step? sl c).granted) hp (fun v q hv => ?_) (fun v hv => ?_) (fun v q hv hm => ?_)
    ⟨SliceState.liveStep_mem hmine, hself.symm ▸ .refl c⟩
  · have h := State.step?_tell hv.1 hv.2 q
    exact ⟨(v.tell_tracks sl c q).has hv.1, h ▸ rfl⟩
  · rw [State.step?_tell hv.1 hv.2 p]
    exact List.mem_append_right _ (List.mem_singleton.2 rfl)
  · rw [State.step?_tell hv.1 hv.2 q]
    by_cases hq : p = q
    · subst hq
      exact List.mem_append_right _ (List.mem_singleton.2 rfl)
    · exact List.mem_append_left _ (List.mem_filter.2 ⟨hm, bne_iff_ne.2 hq⟩)

end

/-! ### The next sum that may go -/

/-- A sum may go. -/
def CollStep.maySend (c : CollStep) (k : Nat × Option Bytes × Bool) : Bool := !k.2.2 && (k.1 == c.lo || decide (k.1 < c.limit))

theorem State.sendSum_sends {s : State} {sl : Nat} {c d : CollStep} (hd : s.step? sl c = d) {p : Place} (hp : d.succ = some p) {k : Nat} {b : Option Bytes} {e : Bool}
    (hf : d.sums.find? d.maySend = some (k, b, e)) : s.sendSum sl c =
      ((s.onStep sl d fun d => { d with sums := d.sums.map fun e => if e.1 == k then (e.1, e.2.1, true) else e }).onSl sl fun x =>
        { x with coll := { x.coll with zeroChunks := x.coll.zeroChunks + b2n b.isNone } }).sendChunk sl d p
        (d.header 0x09 k b.isNone (b2n d.desc.wide) 0 (d.desc.count k) ++ b.getD []) := by
  subst hd
  unfold CollStep.maySend at hf
  unfold State.sendSum
  dsimp only
  rw [hp, hf]

/-- The first sum of a sorted list that has not gone. -/
theorem find?_unsent {l : List (Nat × Option Bytes × Bool)} {q : Nat × Option Bytes × Bool → Bool} {k : Nat} {b : Option Bytes} (hm : (k, b, false) ∈ l)
    (hq : q (k, b, false) = true) (hlow : ∀ e ∈ l, e.1 < k → q e = false) (hsort : l.Pairwise fun e f => e.1 < f.1) : l.find? q = some (k, b, false) := by
  obtain ⟨as, bs, rfl⟩ := List.append_of_mem hm
  refine List.find?_eq_some_iff_append.2 ⟨hq, as, bs, rfl, fun e he => ?_⟩
  have hlt := (List.pairwise_append.1 hsort).2.2 e he _ List.mem_cons_self
  rw [hlow e (List.mem_append_left _ he) hlt]
  rfl

section
variable {s : State} {sl : SliceId} {i : Nat} {c : CollStep} (hmine : (s.sl sl).liveStep i = some c) (hself : s.step? sl c = c)
include hmine hself

theorem State.chunkSend_sends {p : Place} {k : Nat} {b : Option Bytes} (hp : c.succ = some p) (hm : (k, b, false) ∈ c.sums)
    (hlow : ∀ e ∈ c.sums, e.1 < k → e.2.2 = true) (hsort : c.sums.Pairwise fun e f => e.1 < f.1) (hmay : k = c.lo ∨ k < c.limit) :
    (k, b, true) ∈ ((((s.formSums sl c 64).sendSum sl c).pullAll sl c false).step? sl c).sums := by
  have hhas := SliceState.liveStep_mem hmine
  have hform := s.formSums_forms sl c c 64
  have hh := hform.has hhas
  have hforms := hform.step
  rw [hself] at hforms
  generalize s.formSums sl c 64 = v at hh hforms ⊢
  generalize hd : v.step? sl c = d at hforms
  obtain ⟨l, hl⟩ := hforms.sums
  have hlo : d.lo = c.lo := (congrArg CollStep.lo hforms.fixed :)
  have hlim : d.limit = c.limit := (Prod.mk.inj hforms.pulled).2
  have hfind : d.sums.find? d.maySend = some (k, b, false) := by
    rw [hl, List.find?_append, find?_unsent hm ?_ (fun e he hlt => ?_) hsort]
    · rfl
    · unfold CollStep.maySend
      rw [hlo, hlim]
      simpa using hmay
    · unfold CollStep.maySend
      rw [hlow e he hlt]
      rfl
  rw [State.sendSum_sends hd ((CollStep.succ_fixed hforms.fixed).trans hp) hfind]
  have hname : d.name = c.name := hd ▸ v.step?_name sl c
  have hon := State.step?_onStep hh hname (f := fun d => { d with sums := d.sums.map fun e => if e.1 == k then (e.1, e.2.1, true) else e }) fun _ => rfl
  rw [hd] at hon
  generalize (v.onStep sl d fun d => { d with sums := d.sums.map fun e => if e.1 == k then (e.1, e.2.1, true) else e }) = w at hon ⊢
  have hpull (u : State) : ((u.pullAll sl c false).step? sl c).sums = (u.step? sl c).sums := by
    have h := (u.pullAll_tracks sl c c false).step
    rw [show _ = _ from h]
  rw [hpull, State.step?_of_coll (congrArg (fun e => e.1) (State.sendChunk_keeps _ sl _ p _ sl))]
  have hzero : (w.onSl sl fun x => { x with coll := { x.coll with zeroChunks := x.coll.zeroChunks + b2n b.isNone } }).step? sl c = w.step? sl c := by
    have hsteps : ((w.onSl sl fun x => { x with coll := { x.coll with zeroChunks := x.coll.zeroChunks + b2n b.isNone } }).sl sl).coll.steps = (w.sl sl).coll.steps :=
      State.Agree.onSl (π := fun y => y.coll.steps) (f := fun x => { x with coll := { x.coll with zeroChunks := x.coll.zeroChunks + b2n b.isNone } }) (fun _ => rfl) sl
    unfold State.step?
    rw [hsteps]
  rw [hzero, hon]
  refine List.mem_map.2 ⟨(k, b, false), hl ▸ List.mem_append_left _ hm, ?_⟩
  rw [if_pos (beq_iff_eq.2 rfl)]

omit hself in
theorem execCollectiveStepComplete_waits (h : c.finished = false) : exec (.collectiveStepComplete sl i) s = .next s := by
  show execCollectiveStepComplete sl i s = _
  unfold execCollectiveStepComplete
  rw [hmine]
  dsimp only
  rw [h]
  rfl

omit hself in
theorem execCollectiveStepComplete_ends (h : c.finished = true) : ∃ t : State, exec (.collectiveStepComplete sl i) s = .next t ∧
    (∀ d ∈ (t.sl sl).coll.steps, c.key d = true → d.completed = true) ∧ (t.sl sl).coll.stepsDone = (s.sl sl).coll.stepsDone + 1 := by
  have hlen := (SliceState.liveStep_mem hmine).slice
  show ∃ t, execCollectiveStepComplete sl i s = _ ∧ _
  unfold execCollectiveStepComplete
  rw [hmine]
  dsimp only
  rw [h]
  simp only [Bool.not_true, Bool.false_eq_true, if_false]
  refine ⟨_, rfl, ?_⟩
  have hlast {t : State} : ((if c.status = 0 then t else t.endColl sl c (Status.ofCode c.status)).sl sl).coll = (t.sl sl).coll := by
    split
    · rfl
    · exact State.endColl_coll t sl c _ sl
  have hdone (x : SliceState) (u : Run) : (x.completeRun u).coll = x.coll :=
    SliceState.completeRun_agree (π := SliceState.coll) (fun _ _ => rfl) (fun _ _ _ _ => rfl) x u
  have hon : ((s.onStep sl c fun d => { d with completed := true }).sl sl).coll =
      { (s.sl sl).coll with steps := (s.sl sl).coll.steps.map fun d => if d.key c then { d with completed := true } else d } := by
    unfold State.onStep
    rw [State.onSl_sl_self _ _ _ hlen]
  have hlen1 : sl.val < (s.onStep sl c fun d => { d with completed := true }).slices.length := by
    unfold State.onStep
    rw [State.onSl_length]
    exact hlen
  generalize (s.onStep sl c fun d => { d with completed := true }) = v at hon hlen1 ⊢
  have hleaves (y : SliceState) (hy : y.coll = { (v.sl sl).coll with stepsDone := (v.sl sl).coll.stepsDone + 1 }) :
      (∀ d ∈ y.coll.steps, c.key d = true → d.completed = true) ∧ y.coll.stepsDone = (s.sl sl).coll.stepsDone + 1 := by
    rw [hy, hon]
    refine ⟨fun d hd hk => ?_, rfl⟩
    obtain ⟨e, -, rfl⟩ := List.mem_map.1 hd
    by_cases he : e.key c = true
    · rw [if_pos he]
    · rw [if_neg he, CollStep.key_iff] at hk
      exact absurd ((CollStep.key_iff e c).2 hk.symm) he
  rw [hlast, State.onSl_sl_self _ _ _ hlen1]
  refine hleaves _ ?_
  split
  · exact hdone ..
  · rfl

end

/-! ### The membership epoch -/

section
variable {s : State} {e : Drip} {es : List Drip} (h : s.pkg.collEpochs = e :: es)
include h

theorem execMembershipEpoch_waits (hl : Drip.later e s.now = true) : exec .membershipEpoch s = .next s := by
  show execMembershipEpoch s = _
  unfold execMembershipEpoch
  rw [h]
  exact if_pos hl

theorem execMembershipEpoch_rises (hs : s.Inv) (sl : SliceId) (hl : Drip.later e s.now = false) : ∃ t : State, exec .membershipEpoch s = .next t ∧
    t.pkg.memberEpoch = (s.pkg.memberEpoch + 1) % 65536 ∧ t.pkg.collEpochs = es ∧ (t.sl sl).coll.nextGroups = [] ∧
    (t.sl sl).coll.steps = (s.sl sl).coll.steps ∧ (∀ g ∈ (s.sl sl).coll.nextGroups, g ∈ (t.sl sl).coll.groups) ∧
    ∀ g ∈ (s.sl sl).coll.nextGroups, ∀ p ∈ g.2.members, p ∉ (t.sl sl).fabric.lost := by
  show ∃ t, execMembershipEpoch s = _ ∧ _
  unfold execMembershipEpoch
  rw [h]
  dsimp only
  rw [if_neg (Bool.eq_false_iff.1 hl)]
  refine ⟨_, rfl, rfl, rfl, ?_⟩
  have hnamed {g : Nat × Group} (hg : g ∈ (s.sl sl).coll.nextGroups) (l : List (Nat × Group)) : g ∈ l ++ (s.sl sl).coll.nextGroups := List.mem_append_right _ hg
  have hat (f : SliceState → SliceState) : ((s.onAll f).sl sl) = f (s.sl sl) := State.onAll_sl s f (hs.slices_lt sl)
  refine ⟨?_, ?_, fun g hg => ?_, fun g hg p hp hlost => ?_⟩
  · exact congrArg (fun x => x.coll.nextGroups) (hat _)
  · exact congrArg (fun x => x.coll.steps) (hat _)
  · exact (congrArg (fun x => x.coll.groups) (hat _)) ▸ hnamed hg _
  · have hfilter := (congrArg (fun x : SliceState => x.fabric.lost) (hat _)) ▸ hlost
    have hnot := (List.mem_filter.1 hfilter).2
    rw [List.contains_iff_mem.2 ?_] at hnot
    · cases hnot
    · refine List.mem_flatten.2 ⟨_, List.mem_map.2 ⟨s.sl sl, s.sl_mem (hs.slices_lt sl), rfl⟩, ?_⟩
      exact List.mem_flatten.2 ⟨g.2.members, List.mem_map.2 ⟨g, hnamed hg _, rfl⟩, hp⟩

end

end Sys2Proof.Machine
end

section
/-! A collective step launches. -/

namespace Sys2Proof.Machine

/-! ### A collective step launches -/

/-- The runs of a launch entry and a frame are void. -/
def SliceState.Voids (u : Run) (x : SliceState) : Prop := ∀ w ∈ x.runs, w.idx = u.idx → w.frame = u.frame → w.st = .void

theorem SliceState.endRun_voids (x : SliceState) (u : Run) : (x.endRun u .void).Voids u := by
  intro w hw hi hf
  obtain ⟨z, -, rfl⟩ := List.mem_map.1 hw
  dsimp only at hi hf ⊢
  split
  · rfl
  · next hc =>
    rw [if_neg hc] at hi hf
    exact absurd (by simp [hi, hf]) hc

/-- A run that is launched is none of those that are void. -/
theorem SliceState.Voids.endRun {u : Run} {x : SliceState} (h : x.Voids u) {w : Run} (hw : w ∈ x.runs) (hl : w.st = .launched) (st : RunState) :
    (x.endRun w st).Voids u := by
  intro r hr hi hf
  obtain ⟨z, hz, rfl⟩ := List.mem_map.1 hr
  dsimp only at hi hf ⊢
  split
  · next hc =>
    obtain ⟨h1, h2⟩ := Bool.and_eq_true_iff.1 hc
    rw [if_pos hc] at hi hf
    have hv := h w hw ((beq_iff_eq.1 h1).symm.trans hi) ((beq_iff_eq.1 h2).symm.trans hf)
    rw [hl] at hv
    cases hv
  · next hc =>
    rw [if_neg hc] at hi hf
    exact h z hz hi hf

/-- The run of a live step is withdrawn. -/
def SliceState.withdraw (z : SliceState) (c : CollStep) : SliceState :=
  match z.runs.find? fun u => u.idx == c.run && u.frame == c.frame && u.st == .launched with
  | some u => z.endRun u .withdrawn
  | none => z

theorem SliceState.Voids.withdraw {u : Run} {y : SliceState} (hy : y.Voids u) (l : List CollStep) :
    (l.foldl SliceState.withdraw y).Voids u ∧ (l.foldl SliceState.withdraw y).coll = y.coll := by
  refine foldl_keeps (P := fun z : SliceState => z.Voids u ∧ z.coll = y.coll) (fun z c hz => ?_) l ⟨hy, rfl⟩
  unfold SliceState.withdraw
  split
  · next w hw =>
    have hst := List.find?_some hw
    simp only [Bool.and_eq_true, beq_iff_eq] at hst
    exact ⟨hz.1.endRun (List.mem_of_find?_eq_some hw) hst.2 _, hz.2⟩
  · exact hz

/-- A collective that ends leaves no step that was not there, and no void run becomes another. -/
theorem State.endInstance_void {s : State} {sl : Nat} {u : Run} (h : (s.sl sl).Voids u) (coll : Nat) (frame : Drip) (code : Status) (given : Drip) (found : Option Drip) :
    ((s.endInstance sl coll frame code given found).sl sl).Voids u ∧
      ∀ c ∈ ((s.endInstance sl coll frame code given found).sl sl).coll.steps, c ∈ (s.sl sl).coll.steps := by
  have htied (l : List Run) (t : State) (a b : Drip) : State.Agree (fun x => (x.runs, x.coll)) t (l.foldl (fun v u => v.endTied sl u a b code) t) :=
    .foldl (fun _ _ => .endTied fun _ _ _ _ => rfl) _ _
  unfold State.endInstance
  dsimp only
  split
  · exact ⟨h, fun _ hc => hc⟩
  · obtain ⟨h1, h2⟩ := Prod.mk.inj (htied _ _ _ _ sl)
    unfold SliceState.Voids
    rw [h1, h2]
    by_cases hlen : sl < s.slices.length
    · rw [State.onSl_sl_self _ _ _ hlen]
      obtain ⟨hv, hc⟩ := h.withdraw ((s.sl sl).coll.steps.filter fun c => !c.completed && c.desc.collId == coll && c.frame == frame)
      exact ⟨hv, fun c hm => hc ▸ (List.mem_filter.1 hm).1⟩
    · rw [State.onSl_sl_of_le _ _ (Nat.not_lt.1 hlen)]
      exact ⟨h, fun _ hc => hc⟩

section
variable {s v : State} {sl : SliceId} {i k : Nat} {u : Run} {d : CollDesc} {g : Group}
  (hact : s.actingRun sl i .collective = some (u, v))
  (hd : ((s.sl sl).coll.descs.find? fun e => e.1 == u.entry.f.desc) = some (k, d))
  (hg : ((s.sl sl).coll.groups.find? fun e => e.1 == d.group) = some (d.group, g))

/-- What a step launches with. -/
def State.launchedStep (v : State) (sl : Nat) (u : Run) (d : CollDesc) (g : Group) : CollStep :=
  { run := u.idx, frame := u.frame, desc := d, group := g, step := u.entry.f.step, epoch := v.pkg.memberEpoch % 2,
    table := v.pkg.routeActive, gated := (v.sl sl).gateClosed d,
    status := lowStatus (if d.ctx < 255 && v.ctxState d.ctx != 2 then (v.sl sl).svc.endCode d.ctx else 0) ((v.sl sl).carried d.collId u.frame),
    cur := d.lead u.entry.f.step, passed := d.lead u.entry.f.step }

/-- The chunks of a step. -/
def heldBy (u : Run) (d : CollDesc) (n : Nat) : Bool :=
  chColl n == d.collId && chTag n == u.frame.toNat % 65536 && decide (d.lead u.entry.f.step ≤ chChunk n) && decide (chChunk n < d.stop u.entry.f.step)

/-- The step is void. -/
def State.voided (v : State) (sl : Nat) (u : Run) (d : CollDesc) : State := v.onSl sl fun y => (y.endRun u .void).unpark (heldBy u d)

/-- A parked lead chunk is taken. -/
def State.leadTaken (v : State) (sl : Nat) (c : CollStep) (k : Place × Bytes × Nat) : State :=
  let n := leNat (slice k.2.1 0 64)
  if chEpoch n ≠ c.epoch then v.discardChunk sl true
  else (v.onStep sl c fun e => { e with
    got := e.got ++ [(k.1, chChunk n, if chZero n then none else some (k.2.1.drop 64))] }).onSl sl fun y => y.raise c (chStatus n)

/-- The step joins those of its slice. -/
def State.stepJoins (t : State) (sl : Nat) (d : CollDesc) (c : CollStep) : State :=
  t.onSl sl fun y => ({ y with coll := { y.coll with steps := y.coll.steps ++ [c] } } : SliceState).raise c
    (if d.ctx < 255 && t.ctxState d.ctx != 2 then (t.sl sl).svc.endCode d.ctx else 0)

/-- The PULLs held for a step. -/
def SliceState.heldPulls (x : SliceState) (c : CollStep) : List (Place × Bytes) :=
  x.coll.pulls.filter fun k => c.covers (leNat (slice k.2 0 64)) && some k.1 == c.succ

/-- The step takes its lead chunk and the PULLs that wait for it. -/
def State.stepTakes (s1 : State) (sl : Nat) (x : SliceState) (c : CollStep) : State :=
  (x.heldPulls c).foldl (fun (v : State) k => v.applyPull sl c (chChunk (leNat (slice k.2 0 64))) (chLimit (leNat (slice k.2 0 64))))
    (((x.coll.parked.filter fun k => c.covers (leNat (slice k.2.1 0 64)) && c.preds.contains k.1).foldl (fun (v : State) k => v.leadTaken sl c k)
      (s1.onSl sl fun y => y.unpark fun n => c.covers n)).onSl sl fun y =>
        { y with coll := { y.coll with pulls := y.coll.pulls.filter fun k => !(x.heldPulls c).contains k } })

/-- The step is live. -/
def State.stepLaunched (t : State) (sl : Nat) (d : CollDesc) (c : CollStep) : State :=
  ((((t.stepJoins sl d c).stepTakes sl (t.sl sl) c).formSums sl c 64).pullAll sl c true).sendSum sl c

include hact hd hg

theorem execCollectiveStep_launches : exec (.collectiveStep sl i) s = .next (if (v.sl sl).instanceEnded d.collId (u.frame.toNat % 65536) then v.voided sl u d
    else if g.members.any fun p => (v.sl sl).fabric.lost.contains p then (v.voided sl u d).endInstance sl d.collId u.frame .fabricLost (v.now.plus 1)
    else v.stepLaunched sl d (v.launchedStep sl u d g)) := by
  have hcoll : (v.sl sl).coll = (s.sl sl).coll := State.actingRun_agree (π := SliceState.coll) (fun _ _ => rfl) hact sl
  show execCollectiveStep sl i s = _
  unfold execCollectiveStep
  rw [hact]
  dsimp only
  rw [← hcoll] at hd hg
  rw [hd]
  dsimp only
  rw [hg]
  dsimp only
  split
  · rfl
  · split <;> rfl

end

/-! ### The steps stay what they are -/

/-- The steps of a slice change in nothing but what their chunks change. -/
def State.SameSteps (sl : Nat) (s t : State) : Prop := (t.sl sl).coll.steps.map CollStep.fixed = (s.sl sl).coll.steps.map CollStep.fixed

namespace State.SameSteps
variable {sl : Nat} {s t : State}

theorem refl (s : State) : State.SameSteps sl s s := rfl

theorem trans {u : State} (a : State.SameSteps sl s t) (b : State.SameSteps sl t u) : State.SameSteps sl s u := Eq.trans b a

theorem ite {p : Prop} [Decidable p] {u : State} (a : State.SameSteps sl s t) (b : State.SameSteps sl s u) : State.SameSteps sl s (if p then t else u) := by
  split <;> assumption

theorem of_coll (h : (t.sl sl).coll = (s.sl sl).coll) : State.SameSteps sl s t := by
  unfold State.SameSteps
  rw [h]

theorem keep {f : SliceState → SliceState} (h : ∀ x : SliceState, (f x).coll.steps = x.coll.steps) : State.SameSteps sl s (s.onSl sl f) :=
  State.Agree.onSl (π := fun x => x.coll.steps.map CollStep.fixed) (fun x => congrArg (List.map CollStep.fixed) (h x)) sl

theorem onStep (c d : CollStep) {f : CollStep → CollStep} (h : ∀ e, (f e).fixed = e.fixed) : State.SameSteps sl s (s.onStep sl d f) :=
  (State.Tracks.onStep (c := c) (R := fun _ _ => True) (fun _ => trivial) h fun _ _ => trivial).fixed

theorem raise (d : CollStep) (st : Nat) : State.SameSteps sl s (s.onSl sl fun x => x.raise d st) :=
  (State.Tracks.raise (c := d) (R := fun _ _ => True) (fun _ => trivial) fun _ _ => trivial).fixed

theorem foldl {α : Type} {f : State → α → State} (h : ∀ v a, State.SameSteps sl v (f v a)) (l : List α) (s : State) : State.SameSteps sl s (l.foldl f s) := by
  induction l generalizing s with
  | nil => exact refl s
  | cons a l ih => exact (h s a).trans (ih _)

theorem discardChunk (s : State) (record : Bool) : State.SameSteps sl s (s.discardChunk sl record) := by
  unfold State.discardChunk
  have hon : State.SameSteps sl s (s.onSl sl fun x => { x with coll := { x.coll with discarded := x.coll.discarded + 1 } }) := keep fun _ => rfl
  exact hon.trans (.ite (of_coll (State.Agree.report (fun _ _ => rfl) sl)) (refl _))

theorem sendSum (s : State) (sl : Nat) (c : CollStep) : State.SameSteps sl s (s.sendSum sl c) := by
  unfold State.sendSum
  dsimp only
  split
  · refine trans (trans (onStep c _ (f := fun d => { d with sums := _ }) ?_) (keep ?_)) (of_coll (congrArg (fun e => e.1) (State.sendChunk_keeps _ sl _ _ _ sl)))
    · exact fun _ => rfl
    · exact fun _ => rfl
  · exact refl s

theorem leadTaken (v : State) (sl : Nat) (c : CollStep) (k : Place × Bytes × Nat) : State.SameSteps sl v (v.leadTaken sl c k) := by
  unfold State.leadTaken
  dsimp only
  refine .ite (discardChunk ..) (trans (onStep c c (f := fun e => { e with got := _ }) ?_) (raise ..))
  exact fun _ => rfl

theorem stepTakes (s : State) (sl : Nat) (x : SliceState) (c : CollStep) : State.SameSteps sl s (s.stepTakes sl x c) := by
  unfold State.stepTakes
  have hpull (v : State) (f l : Nat) : State.SameSteps sl v (v.applyPull sl c f l) := (v.applyPull_tracks sl c c f l).fixed
  have hunpark : State.SameSteps sl s (s.onSl sl fun y => y.unpark fun n => c.covers n) := keep fun _ => rfl
  have hheld (v : State) (q : Place × Bytes → Bool) : State.SameSteps sl v (v.onSl sl fun y => { y with coll := { y.coll with pulls := y.coll.pulls.filter q } }) :=
    keep fun _ => rfl
  exact trans (trans (trans hunpark (foldl (fun v k => leadTaken v sl c k) _ _)) (hheld _ _)) (foldl (fun v k => hpull v _ _) _ _)

theorem stepLaunched (t : State) (sl : Nat) (d : CollDesc) (c : CollStep) : State.SameSteps sl (t.stepJoins sl d c) (t.stepLaunched sl d c) := by
  unfold State.stepLaunched
  exact trans (trans (trans (stepTakes ..) (State.formSums_forms _ sl c c 64).fixed) (State.pullAll_tracks _ sl c c true).fixed) (sendSum ..)

end State.SameSteps

/-- A step that launches is on the list of its slice. -/
theorem State.stepLaunched_has (t : State) (sl : Nat) (hl : sl < t.slices.length) (d : CollDesc) (c : CollStep) :
    ∃ e ∈ ((t.stepLaunched sl d c).sl sl).coll.steps, e.fixed = c.fixed := by
  have h : _ = _ := State.SameSteps.stepLaunched t sl d c
  have hm : c.fixed ∈ ((t.stepLaunched sl d c).sl sl).coll.steps.map CollStep.fixed := by
    rw [h]
    unfold State.stepJoins
    rw [State.onSl_sl_self _ _ _ hl]
    refine List.mem_map.2 ⟨_, List.mem_map.2 ⟨c, List.mem_append_right _ (List.mem_singleton.2 rfl), rfl⟩, ?_⟩
    split <;> rfl
  exact List.mem_map.1 hm

end Sys2Proof.Machine
end

section
/-! The collective steps. -/

namespace Sys2Proof.Machine

/-! ### The collective steps -/

section
variable {s v : State} {sl : SliceId} {i k : Nat} {u : Run} {d : CollDesc} {g : Group} (hs : s.Inv)
  (hact : s.actingRun sl i .collective = some (u, v))
  (hd : ((s.sl sl).coll.descs.find? fun e => e.1 == u.entry.f.desc) = some (k, d))
  (hg : ((s.sl sl).coll.groups.find? fun e => e.1 == d.group) = some (d.group, g))
include hs hact

theorem State.actingRun_slice : sl.val < v.slices.length ∧ (v.sl sl).coll = (s.sl sl).coll ∧ (v.sl sl).mem = (s.sl sl).mem ∧
    (v.sl sl).fabric.lost = (s.sl sl).fabric.lost ∧ v.pkg.memberEpoch = s.pkg.memberEpoch := by
  have hx : State.Agree (fun x => (x.coll, x.mem, x.fabric.lost)) s v := State.actingRun_agree (fun _ _ => rfl) hact
  have hpkg : v.pkg.memberEpoch = s.pkg.memberEpoch := by
    obtain ⟨-, -, -, ⟨-, -, rfl⟩ | ⟨w, -, -, -, -, rfl⟩⟩ := State.actingRun_cases hact <;> rfl
  obtain ⟨h1, h2⟩ := Prod.mk.inj (hx sl)
  obtain ⟨h2, h3⟩ := Prod.mk.inj h2
  exact ⟨((State.Keeps.actingRun hact).2 hs).slices_lt sl, h1, h2, h3, hpkg⟩

/-- A void step writes nothing, and stays on no list. -/
theorem State.voided_spec : ((v.voided sl u d).sl sl).Voids u ∧ ((v.voided sl u d).sl sl).coll.steps = (s.sl sl).coll.steps ∧
    ((v.voided sl u d).sl sl).mem = (s.sl sl).mem := by
  obtain ⟨hl, hc, hm, -⟩ := State.actingRun_slice hs hact
  unfold State.voided
  rw [State.onSl_sl_self _ _ _ hl]
  exact ⟨(v.sl sl).endRun_voids u, congrArg (fun k => k.steps) hc, hm⟩

include hd hg

theorem execCollectiveStep_ended (he : (s.sl sl).instanceEnded d.collId (u.frame.toNat % 65536) = true) : ∃ t : State,
    exec (.collectiveStep sl i) s = .next t ∧ (t.sl sl).coll.steps = (s.sl sl).coll.steps ∧ (t.sl sl).mem = (s.sl sl).mem ∧
      ∀ w ∈ (t.sl sl).runs, w.idx = u.idx → w.frame = u.frame → w.st = .void := by
  obtain ⟨-, hc, -⟩ := State.actingRun_slice hs hact
  obtain ⟨hv, hst, hm⟩ := State.voided_spec (d := d) hs hact
  refine ⟨_, (execCollectiveStep_launches hact hd hg).trans (congrArg Host.Outcome.next (if_pos ?_)), hst, hm, hv⟩
  unfold SliceState.instanceEnded at he ⊢
  rw [hc]
  exact he

theorem execCollectiveStep_lost (he : (s.sl sl).instanceEnded d.collId (u.frame.toNat % 65536) = false) (hlost : ∃ p ∈ g.members, p ∈ (s.sl sl).fabric.lost) :
    ∃ t : State, exec (.collectiveStep sl i) s = .next t ∧ (∀ c ∈ (t.sl sl).coll.steps, c ∈ (s.sl sl).coll.steps) ∧
      ∀ w ∈ (t.sl sl).runs, w.idx = u.idx → w.frame = u.frame → w.st = .void := by
  obtain ⟨-, hc, -, hf, -⟩ := State.actingRun_slice hs hact
  obtain ⟨hv, hst, -⟩ := State.voided_spec (d := d) hs hact
  obtain ⟨h1, h2⟩ := State.endInstance_void hv d.collId u.frame .fabricLost (v.now.plus 1) none
  obtain ⟨p, hp, hpl⟩ := hlost
  refine ⟨_, (execCollectiveStep_launches hact hd hg).trans (congrArg Host.Outcome.next ((if_neg ?_).trans (if_pos ?_))), fun c hc => hst ▸ h2 c hc, h1⟩
  · unfold SliceState.instanceEnded at he ⊢
    rw [hc, he]
    decide
  · rw [hf]
    exact List.any_eq_true.2 ⟨p, hp, List.contains_iff_mem.2 hpl⟩

theorem execCollectiveStep_live (he : (s.sl sl).instanceEnded d.collId (u.frame.toNat % 65536) = false) (hlost : ∀ p ∈ g.members, p ∉ (s.sl sl).fabric.lost) :
    ∃ (t : State) (c : CollStep), exec (.collectiveStep sl i) s = .next t ∧ c ∈ (t.sl sl).coll.steps ∧ c.run = u.idx ∧ c.frame = u.frame ∧
      c.desc = d ∧ c.group = g ∧ c.step = u.entry.f.step ∧ c.epoch = s.pkg.memberEpoch % 2 ∧ c.completed = false := by
  obtain ⟨hl, hc, -, hf, hpkg⟩ := State.actingRun_slice hs hact
  obtain ⟨c, hm, hfix⟩ := v.stepLaunched_has sl hl d (v.launchedStep sl u d g)
  refine ⟨_, c, (execCollectiveStep_launches hact hd hg).trans (congrArg Host.Outcome.next ((if_neg ?_).trans (if_neg ?_))), hm,
    (congrArg CollStep.run hfix :), (congrArg CollStep.frame hfix :), (congrArg CollStep.desc hfix :), (congrArg CollStep.group hfix :),
    (congrArg CollStep.step hfix :), (congrArg CollStep.epoch hfix :).trans ?_, (congrArg CollStep.completed hfix :)⟩
  · unfold SliceState.instanceEnded at he ⊢
    rw [hc, he]
    decide
  · rw [hf]
    intro h
    obtain ⟨p, hp, hpl⟩ := List.any_eq_true.1 h
    exact hlost p hp (List.contains_iff_mem.1 hpl)
  · exact congrArg (· % 2) hpkg

end

section
variable {s : State} {sl : SliceId} {src : Place} {msg : Bytes}

theorem execChunk_unknown (h : (s.sl sl).collDesc? (chColl (leNat (slice msg 0 64))) = none) :
    exec (.sumChunk sl src msg) s = .next (s.discardChunk sl true) ∧ exec (.resultChunk sl src msg) s = .next (s.discardChunk sl true) := by
  have hd : s.takeChunk sl src msg = s.discardChunk sl true := by
    unfold State.takeChunk
    dsimp only
    rw [h]
  exact ⟨congrArg Host.Outcome.next hd, congrArg Host.Outcome.next hd⟩

section
variable {c : CollStep} {idx : Nat} {d : CollDesc}
  (hlen : 64 ≤ msg.length) (hd : (s.sl sl).collDesc? (chColl (leNat (slice msg 0 64))) = some (idx, d))
  (hexp : chunkAsExpected d (leNat (slice msg 0 64)) (msg.drop 64) = true)
  (hlive : ((s.sl sl).coll.steps.find? fun c => c.takes (leNat (slice msg 0 64))) = some c)
include hlen hd hexp hlive

theorem execSumChunk_takes (hkind : chKind (leNat (slice msg 0 64)) = 0x09) (hpreds : c.preds = [src])
    (hgr : ∃ g ∈ c.granted, g.1 = src ∧ chChunk (leNat (slice msg 0 64)) < g.2.2) :
    exec (.sumChunk sl src msg) s = .next (s.consumeSum sl c src (leNat (slice msg 0 64)) (msg.drop 64)) := by
  obtain ⟨g, hg, hg1, hg2⟩ := hgr
  refine congrArg Host.Outcome.next ((State.takeChunk_live hlen hd hexp hlive).trans ((if_pos (beq_iff_eq.2 hkind)).trans (if_pos ?_)))
  rw [Bool.and_eq_true, hpreds]
  exact ⟨List.contains_iff_mem.2 (List.mem_singleton.2 rfl), List.any_eq_true.2 ⟨g, hg, Bool.and_eq_true_iff.2 ⟨beq_iff_eq.2 hg1, decide_eq_true hg2⟩⟩⟩

theorem execResultChunk_takes (hkind : chKind (leNat (slice msg 0 64)) = 0x0A) (hsucc : c.succ = some src) (hst : chStatus (leNat (slice msg 0 64)) = 0) :
    exec (.resultChunk sl src msg) s =
      .next ((s.onSl sl fun x => x.raise c 0).takeResultBytes sl c (chChunk (leNat (slice msg 0 64))) (msg.drop 64)) := by
  refine congrArg Host.Outcome.next ((State.takeChunk_live hlen hd hexp hlive).trans ((if_neg ?_).trans ((if_pos (beq_iff_eq.2 hsucc)).trans ?_)))
  · rw [hkind]
    decide
  · rw [hst]

end

theorem execPull_pulls {c : CollStep} (hc : c ∈ (s.sl sl).coll.steps) (hlive : c.completed = false) (hid : c.desc.collId = chColl (leNat (slice msg 0 64)))
    (hfr : c.frame.toNat % 65536 = chTag (leNat (slice msg 0 64))) (hep : c.epoch = chEpoch (leNat (slice msg 0 64))) (hsucc : c.succ = some src)
    (hp : c.pulledBy (chChunk (leNat (slice msg 0 64))) = true) (hself : s.step? sl c = c) :
    CollStep.HasPull (chChunk (leNat (slice msg 0 64))) (chLimit (leNat (slice msg 0 64))) c ((s.takePull sl src msg).step? sl c) := by
  rw [State.takePull_coll]
  refine State.foldPulls (.of_mem hc) hself (List.mem_filter.2 ⟨List.mem_filter.2 ⟨hc, ?_⟩, hp⟩) ?_ _
  · simp [hlive, hid, hfr, hep, hsucc]
  · unfold CollStep.pulledBy at hp
    simp only [Bool.and_eq_true, Bool.or_eq_true, decide_eq_true_eq, beq_iff_eq] at hp
    obtain ⟨-, h | h⟩ := hp
    · exact Nat.le_of_lt h
    · exact Nat.le_of_eq h.1.1

end

/-- Settles O45: a chunk, a result and a PULL are followed through the step they name (`State.Tracks`): what forming sums and
telling the predecessors does to a step takes nothing from its sums and results (`CollStep.Forms`). -/
theorem collectiveSteps : Obligations.CollectiveSteps := by
  unfold Obligations.CollectiveSteps
  intro s sl hs x live mine
  refine ⟨fun i u v k d g hact hd hg => ⟨fun he => ?_, fun he hl => ?_, fun he hl => ?_⟩, fun src msg h => execChunk_unknown h,
    fun src msg c idx d hlen hd hexp hlive => ⟨fun hkind hpreds hgr hgot hhi => ?_, fun hkind hsucc hst0 hst => ?_⟩,
    fun src msg c hc hlive hid hfr hep hsucc hp hself => ?_, fun src msg idx d u hd hno hu hst he hlen => ?_,
    fun i c hm => ⟨fun hc => ?_, fun hc => ?_, fun p k b hp hk hlow _ hsort hmay => ?_, fun hf => ?_, fun hf => ?_⟩,
    fun e es h => ⟨execMembershipEpoch_waits h, execMembershipEpoch_rises h hs sl⟩⟩
  · exact execCollectiveStep_ended hs hact hd hg he
  · exact execCollectiveStep_lost hs hact hd hg he hl
  · exact execCollectiveStep_live hs hact hd hg he hl
  · -- a SUM chunk from the only predecessor, within what it was granted
    obtain ⟨hfind, hself⟩ := hlive
    have hhas : s.HasStep sl c := .of_mem (List.mem_of_find?_eq_some hfind)
    have htakes := List.find?_some hfind
    simp only [Bool.and_eq_true, Bool.not_eq_true'] at htakes
    have hexec := execSumChunk_takes hlen hd hexp hfind hkind hpreds hgr
    refine ⟨fun hk hcur => ⟨_, hexec, State.consumeSum_early hhas hself hpreds hgot hk hcur⟩,
      fun hk hst hsucc hroom => ⟨_, hexec, State.consumeSum_passes hhas hself hpreds htakes.1.1 hgot hhi hk hst hsucc hroom⟩,
      fun hk hst hsucc => ⟨_, hexec, State.consumeSum_ends hhas hself hpreds htakes.1.1 hgot hhi hk hsucc⟩⟩
  · -- a RESULT chunk from the successor
    obtain ⟨hfind, hself⟩ := hlive
    have hhas : s.HasStep sl c := .of_mem (List.mem_of_find?_eq_some hfind)
    exact ⟨_, execResultChunk_takes hlen hd hexp hfind hkind hsucc hst, State.takeResult_live hs hhas hself hst0 _ _⟩
  · obtain ⟨h1, h2, h3⟩ := execPull_pulls hc hlive hid hfr hep hsucc hp hself
    exact ⟨_, rfl, h1, h2, h3⟩
  · exact congrArg Host.Outcome.next (State.takePull_waits hd hno hu hst he hlen)
  · exact ⟨_, (execPullRepeat_live hm.1).trans (congrArg Host.Outcome.next (if_pos hc)), congrArg (fun w => w.1) (s.pullAll_mem sl c true sl), State.pullAll_grants hm.1 hm.2⟩
  · exact (execPullRepeat_live hm.1).trans (congrArg Host.Outcome.next (if_neg (Nat.not_lt.2 hc)))
  · exact ⟨_, execChunkSend_live hm.1, State.chunkSend_sends hm.1 hm.2 hp hk hlow hsort hmay⟩
  · exact execCollectiveStepComplete_waits hm.1 hf
  · exact execCollectiveStepComplete_ends hm.1 hf

end Sys2Proof.Machine
end

section
/-! The requests a stage is tied to. -/

namespace Sys2Proof.Machine

/-! ### The requests a stage is tied to -/

/-- What the tie of a stage to a request is read from. -/
def SliceState.tieCore (x : SliceState) : SliceState := { routing := x.routing, runs := x.runs, exch := x.exch }

/-- A request without its conditions. -/
def Request.plain (r : Request) : Request := { r with conds := [], ended := false }

theorem SliceState.hasRow_tieCore {x : SliceState} {l : Nat} {f : Drip} (h : x.snapOf l f = true) (p : Nat → Bool) (r : Request) :
    x.hasRow l p r = x.tieCore.hasRow l p r := by
  obtain ⟨k, hk, hl⟩ := List.any_eq_true.1 h
  -- a layer that SELECT has launched for has its own rows
  obtain ⟨m, hm⟩ := Option.isSome_iff_exists.1 (List.find?_isSome.2 ⟨k, hk, (Bool.and_eq_true_iff.1 hl).1⟩ : (x.snap? l).isSome = true)
  have hvalid (t : Nat) : x.rowValid l t = x.tieCore.rowValid l t := by
    unfold SliceState.rowValid
    rw [show x.tieCore.snap? l = x.snap? l from rfl, show x.snap? l = some m from hm]
  unfold SliceState.hasRow
  simp only [hvalid]

theorem SliceState.handles_tieCore (x : SliceState) (me : Place) (u : Run) (r : Request) : x.handles me u r = x.tieCore.handles me u r := by
  unfold SliceState.handles
  cases u.entry.f.layer with
  | none => rfl
  | some l =>
    dsimp only
    split
    · rfl
    · rw [show x.tieCore.snapOf l u.frame = x.snapOf l u.frame from rfl]
      cases h : x.snapOf l u.frame with
      | false => rfl
      | true =>
        simp only [SliceState.hasRow_tieCore h]
        rfl

theorem SliceState.ties_tieCore (x : SliceState) (me : Place) (u : Run) (r : Request) : x.ties me u r = x.tieCore.ties me u r := by
  unfold SliceState.ties
  simp only [SliceState.handles_tieCore x]

theorem SliceState.ties_congr {x y : SliceState} (h : y.tieCore = x.tieCore) {r q : Request} (hr : q.plain = r.plain) (me : Place) (u : Run) :
    y.ties me u q = x.ties me u r := by
  have hplain (z : SliceState) (r : Request) : z.ties me u r = z.ties me u r.plain := rfl
  rw [SliceState.ties_tieCore, h, ← SliceState.ties_tieCore, hplain, hr, ← hplain]

/-! ### Collisions of a stage -/

/-- Every request of `s` stands in `t` but for its conditions, and keeps those that it had. -/
structure State.Adds (s t : State) : Prop where
  reqs : ∀ i, ∀ r ∈ (s.sl i).svc.reqs, ∃ q ∈ (t.sl i).svc.reqs, q.plain = r.plain ∧ ∀ c ∈ r.conds, c ∈ q.conds

/-- A part of a slice that the ending of requests leaves alone. -/
def SliceState.stageCore (x : SliceState) : SliceState :=
  { routing := x.routing, runs := x.runs, exch := x.exch, engines := x.engines, quads := x.quads }

/-- What ends requests gives them conditions, and changes no stage. -/
structure State.Ends (s t : State) : Prop where
  adds : State.Adds s t
  alike : State.Alike SliceState.stageCore s t

namespace State.Ends
variable {s t u : State}

theorem refl (s : State) : State.Ends s s := ⟨⟨fun _ r h => ⟨r, h, rfl, fun _ h => h⟩⟩, .refl s⟩

theorem trans (a : State.Ends s t) (b : State.Ends t u) : State.Ends s u := by
  refine ⟨⟨fun i r h => ?_⟩, a.alike.trans b.alike⟩
  obtain ⟨q, hq, h1, h2⟩ := a.adds.reqs i r h
  obtain ⟨w, hw, h3, h4⟩ := b.adds.reqs i q hq
  exact ⟨w, hw, h3.trans h1, fun c hc => h4 c (h2 c hc)⟩

theorem ite {p : Prop} [Decidable p] (a : State.Ends s t) (b : State.Ends s u) : State.Ends s (if p then t else u) := by
  split <;> assumption

theorem foldl {α : Type} {f : State → α → State} (h : ∀ s a, State.Ends s (f s a)) (l : List α) (s : State) : State.Ends s (l.foldl f s) := by
  induction l generalizing s with
  | nil => exact refl _
  | cons a l ih => exact (h s a).trans (ih _)

theorem report (i : Nat) (r : Report) : State.Ends s (s.report i r) := by
  have h : State.Agree SliceState.svc s (s.report i r) := .report fun _ _ => rfl
  exact ⟨⟨fun j q hq => ⟨q, by rwa [h j], rfl, fun _ h => h⟩⟩, ⟨.report fun _ _ => rfl, rfl⟩⟩

theorem ties (h : State.Ends s t) {r q : Request} (hr : q.plain = r.plain) (i : Nat) (u : Run) : t.ties i u q = s.ties i u r := by
  have hcore : (t.sl i).tieCore = (s.sl i).tieCore := (congrArg SliceState.tieCore (h.alike.agree i) :)
  unfold State.ties
  rw [h.alike.pkg]
  exact SliceState.ties_congr hcore hr _ u

end State.Ends

theorem State.slice_of_req {s : State} {i : Nat} {r : Request} (h : r ∈ (s.sl i).svc.reqs) : i < s.slices.length := by
  by_contra hi
  have hnone : (s.sl i).svc.reqs = [] := by
    unfold State.sl
    rw [List.getD_eq_default _ _ (Nat.not_lt.1 hi)]
  rw [hnone] at h
  cases h

/-- A request that a status is given to. -/
theorem State.endReqs_gives {s : State} {i : Nat} {r : Request} (hr : r ∈ (s.sl i).svc.reqs) (p : Request → Bool) (a b : Drip) (st : Status) (l : Nat) :
    ∃ q ∈ ((s.endReqs i p a b st l).sl i).svc.reqs, q.plain = r.plain ∧ (∀ c ∈ r.conds, c ∈ q.conds) ∧ (p r = true → ⟨a, b, st, l⟩ ∈ q.conds) := by
  refine ⟨_, State.endReqs_reqs (State.slice_of_req hr) p a b st l ▸ List.mem_map_of_mem hr, ?_, fun c hc => ?_, fun hp => ?_⟩
  · obtain ⟨e, he⟩ := (if p r = true then r.given ⟨a, b, st, l⟩ else r).settled_eq s.now
    rw [he]
    split <;> rfl
  · rw [Request.settled_conds]
    split
    · exact List.mem_append_left _ hc
    · exact hc
  · rw [Request.settled_conds, if_pos hp]
    exact List.mem_append_right _ (List.mem_singleton.2 rfl)

namespace State.Ends
variable {s : State}

theorem endReqs (i : Nat) (p : Request → Bool) (a b : Drip) (st : Status) (l : Nat) : State.Ends s (s.endReqs i p a b st l) := by
  refine ⟨⟨fun j r hr => ?_⟩, ⟨.endReqs fun _ _ _ _ => rfl, rfl⟩⟩
  by_cases hj : j = i
  · subst hj
    obtain ⟨q, hq, h1, h2, -⟩ := State.endReqs_gives hr p a b st l
    exact ⟨q, hq, h1, h2⟩
  · exact ⟨r, by unfold State.endReqs; rwa [State.onSl_sl_of_ne _ _ hj], rfl, fun _ h => h⟩

theorem endTied (i : Nat) (u : Run) (a b : Drip) (st : Status) : State.Ends s (s.endTied i u a b st) :=
  .ite (.foldl (fun _ _ => .endReqs ..) _ _) (.endReqs ..)

end State.Ends

/-- A request that a stage is tied to is given the status. -/
theorem State.endTied_gives {s : State} {sl : SliceId} {u : Run} {r : Request} (hr : r ∈ (s.sl sl).svc.reqs) (ht : s.ties sl u r = true) (a b : Drip) (st : Status) :
    ∃ q ∈ ((s.endTied sl u a b st).sl sl).svc.reqs, q.plain = r.plain ∧ ⟨a, b, st, u.entry.f.layer.getD 0xFF⟩ ∈ q.conds := by
  unfold State.endTied
  split
  · refine foldl_reaches (a := sl.val) (I := fun v : State => ∃ q ∈ (v.sl sl).svc.reqs, q.plain = r.plain)
      (P := fun v : State => ∃ q ∈ (v.sl sl).svc.reqs, q.plain = r.plain ∧ ⟨a, b, st, u.entry.f.layer.getD 0xFF⟩ ∈ q.conds)
      (List.mem_range.2 sl.isLt) (fun v i hv => ?_) (fun v hv => ?_) (fun v i _ hv => ?_) ⟨r, hr, rfl⟩
    · obtain ⟨q, hq, h1⟩ := hv
      obtain ⟨w, hw, h2, -⟩ := (State.Ends.endReqs (s := v) i (s.ties i u) a b st (u.entry.f.layer.getD 0xFF)).adds.reqs sl q hq
      exact ⟨w, hw, h2.trans h1⟩
    · obtain ⟨q, hq, h1⟩ := hv
      obtain ⟨w, hw, h2, -, h3⟩ := State.endReqs_gives hq (s.ties sl u) a b st (u.entry.f.layer.getD 0xFF)
      exact ⟨w, hw, h2.trans h1, h3 (((State.Ends.refl s).ties h1 sl u).trans ht)⟩
    · obtain ⟨q, hq, h1, h3⟩ := hv
      obtain ⟨w, hw, h2, h4⟩ := (State.Ends.endReqs (s := v) i (s.ties i u) a b st (u.entry.f.layer.getD 0xFF)).adds.reqs sl q hq
      exact ⟨w, hw, h2.trans h1, h4 _ h3⟩
  · obtain ⟨q, hq, h1, -, h3⟩ := State.endReqs_gives hr (s.ties sl u) a b st (u.entry.f.layer.getD 0xFF)
    exact ⟨q, hq, h1, h3 ht⟩

end Sys2Proof.Machine
end

section
/-! The collisions that a command brings. -/

namespace Sys2Proof.Machine

/-! ### The collisions that a command brings -/

/-- More collisions have been counted. -/
def State.counted (s : State) (n : Nat) : State := { s with time := { s.time with collisions := s.time.collisions + n } }

theorem State.counted_counted (s : State) (m n : Nat) : (s.counted m).counted n = s.counted (m + n) := by
  unfold State.counted
  simp only [Nat.add_assoc]

theorem State.Ends.counted {s t : State} (h : State.Ends s t) (n : Nat) : State.Ends (s.counted n) (t.counted n) :=
  ⟨⟨h.adds.reqs⟩, ⟨h.alike.agree, (congrArg (fun z => State.counted z n) h.alike.rest :)⟩⟩

/-- A collision counts. -/
def State.counts (s : State) (c : Collision) : Nat := b2n (collides (s.pkg.congestionMode == 0) c)

/-- The collisions of a command that count. -/
def State.countsOf (s : State) (hits : List Collision) : Nat := (hits.filter (collides (s.pkg.congestionMode == 0))).length

theorem State.countsOf_cons (s : State) (c : Collision) (hits : List Collision) : s.countsOf (c :: hits) = s.counts c + s.countsOf hits := by
  unfold State.countsOf State.counts
  cases h : collides (s.pkg.congestionMode == 0) c with
  | true => rw [List.filter_cons_of_pos h, List.length_cons, Nat.add_comm]; rfl
  | false => rw [List.filter_cons_of_neg (by rw [h]; decide)]; exact (Nat.zero_add _).symm

/-- The stage that loses. -/
def State.losing (s : State) (sl : Nat) (v : Run) (c : Collision) : Run :=
  match c.loser with
  | some i => ((s.sl sl).launchedRun i).getD v
  | none => v

section
variable {s : State} {sl : Nat} {v : Run} {c : Collision}

theorem State.collide_passes (h : s.still.on = false ∨ collides (s.pkg.congestionMode == 0) c = false) : s.collide sl v c = s.counted (s.counts c) := by
  unfold State.collide State.counted State.counts
  dsimp only
  cases hc : collides (s.pkg.congestionMode == 0) c with
  | false => rfl
  | true =>
    obtain h | h := h
    · simp only [h]
      rfl
    · rw [hc] at h
      cases h

theorem State.collide_still (h : s.still.on = true) (hc : collides (s.pkg.congestionMode == 0) c = true) : ∃ r : Report,
    s.collide sl v c = if s.tied sl (s.losing sl v c) then
      ((s.counted 1).report sl r).endTied sl (s.losing sl v c) s.now (s.now.plus 1) .scheduleCollision else (s.counted 1).report sl r := by
  refine ⟨{ cls := 0x02, unit := (s.sl sl).unitOf (s.losing sl v c).entry.unit, status := if s.tied sl (s.losing sl v c) then 0x19 else 0,
            ctx := (s.losing sl v c).entry.ctx, detail := collisionDetail c }, ?_⟩
  unfold State.collide
  dsimp only
  rw [hc, h]
  rfl

theorem State.collide_ends : State.Ends (s.counted (s.counts c)) (s.collide sl v c) := by
  by_cases h : s.still.on = true ∧ collides (s.pkg.congestionMode == 0) c = true
  · obtain ⟨r, hr⟩ := State.collide_still (sl := sl) (v := v) h.1 h.2
    have hcount : s.counts c = 1 := by
      unfold State.counts
      rw [h.2]
      rfl
    rw [hr, hcount]
    exact .ite (.trans (.report ..) (.endTied ..)) (.report ..)
  · rw [not_and_or, Bool.not_eq_true, Bool.not_eq_true] at h
    rw [State.collide_passes h]
    exact .refl _

end

/-- What the collisions of a command do. -/
theorem State.collideAll_ends (s : State) (sl : Nat) (v : Run) (hits : List Collision) :
    State.Ends (s.counted (s.countsOf hits)) (hits.foldl (fun t c => t.collide sl v c) s) := by
  induction hits generalizing s with
  | nil => exact .refl _
  | cons c hits ih =>
    have h1 : State.Ends (s.counted (s.counts c)) (s.collide sl v c) := State.collide_ends
    have h2 := ih (s.collide sl v c)
    have hpkg : (s.collide sl v c).countsOf hits = s.countsOf hits := by
      unfold State.countsOf
      rw [h1.alike.pkg]
      rfl
    rw [hpkg] at h2
    rw [State.countsOf_cons, ← State.counted_counted]
    exact (h1.counted _).trans h2

theorem State.collideAll_passes {s : State} (sl : Nat) (v : Run) {hits : List Collision}
    (h : s.still.on = false ∨ ∀ c ∈ hits, collides (s.pkg.congestionMode == 0) c = false) :
    hits.foldl (fun t c => t.collide sl v c) s = s.counted (s.countsOf hits) := by
  induction hits generalizing s with
  | nil => rfl
  | cons c hits ih =>
    have h1 : s.collide sl v c = s.counted (s.counts c) := State.collide_passes (h.imp id fun h => h c List.mem_cons_self)
    rw [List.foldl_cons, h1, ih (s := s.counted (s.counts c)) (h.imp id fun h c hc => h c (List.mem_cons_of_mem _ hc)), State.countsOf_cons,
      ← State.counted_counted]
    rfl

/-- A collision that the launching stage loses ends its requests in still-water mode. -/
theorem State.collideAll_gives {s : State} (sl : SliceId) (u : Run) {hits : List Collision} (hst : s.still.on = true) {c : Collision} (hm : c ∈ hits)
    (hl : c.loser = none) (hc : collides (s.pkg.congestionMode == 0) c = true) {r : Request} (hr : r ∈ (s.sl sl).svc.reqs) (ht : s.ties sl u r = true) :
    ∃ q ∈ ((hits.foldl (fun t c => t.collide sl u c) s).sl sl).svc.reqs, q.plain = r.plain ∧
      ⟨s.now, s.now.plus 1, .scheduleCollision, u.entry.f.layer.getD 0xFF⟩ ∈ q.conds := by
  refine foldl_reaches (I := fun w : State => ∃ k, State.Ends (s.counted k) w) (P := fun w : State => ∃ q ∈ (w.sl sl).svc.reqs, q.plain = r.plain ∧
      ⟨s.now, s.now.plus 1, .scheduleCollision, u.entry.f.layer.getD 0xFF⟩ ∈ q.conds) hm (fun w d hw => ?_) (fun w hw => ?_) (fun w d _ hw => ?_)
    ⟨0, .refl s⟩
  · obtain ⟨k, hk⟩ := hw
    refine ⟨k + w.counts d, ?_⟩
    rw [← State.counted_counted]
    exact (hk.counted _).trans State.collide_ends
  · obtain ⟨k, hk⟩ := hw
    obtain ⟨q, hq, h1, -⟩ := hk.adds.reqs sl r hr
    have hnow : w.now = s.now := (congrArg Time.drip hk.alike.time :)
    have hstill : w.still.on = true := ((congrArg (fun z => z.still.on) hk.alike.rest :) : s.still.on = w.still.on) ▸ hst
    have hties : w.ties sl u q = true := (hk.ties h1 sl u).trans ht
    obtain ⟨rep, hrep⟩ := State.collide_still (s := w) (sl := sl) (v := u) (c := c) hstill (by rw [hk.alike.pkg]; exact hc)
    have hlose : w.losing sl u c = u := by
      unfold State.losing
      rw [hl]
    have htied : w.tied sl u = true := by
      unfold State.tied
      split
      · exact List.any_eq_true.2 ⟨sl.val, List.mem_range.2 sl.isLt, List.any_eq_true.2 ⟨q, hq, hties⟩⟩
      · exact List.any_eq_true.2 ⟨q, hq, hties⟩
    rw [hrep, hlose, if_pos htied, hnow]
    have he : State.Ends (w.counted 1) ((w.counted 1).report sl rep) := .report ..
    obtain ⟨q2, hq2, h2, -⟩ := he.adds.reqs sl q hq
    obtain ⟨q3, hq3, h3, h4⟩ := State.endTied_gives hq2 ((he.ties h2 sl u).trans hties) s.now (s.now.plus 1) .scheduleCollision
    exact ⟨q3, hq3, h3.trans (h2.trans h1), h4⟩
  · obtain ⟨q, hq, h1, h2⟩ := hw
    obtain ⟨q2, hq2, h3, h4⟩ := (State.collide_ends (s := w) (sl := sl) (v := u) (c := d)).adds.reqs sl q hq
    exact ⟨q2, hq2, h3.trans h1, h4 _ h2⟩

end Sys2Proof.Machine
end

section
/-! A stage launches. -/

namespace Sys2Proof.Machine

/-! ### A stage launches -/

/-- The stages of an entry and a frame are launched at a drip. -/
def SliceState.Launched (d : Drip) (u : Run) (x : SliceState) : Prop := ∀ v ∈ x.runs, v.idx = u.idx → v.frame = u.frame → v.st = .launched ∧ v.launchedAt = d

/-- What a launch leaves of the runs, the engines and the quads. -/
def SliceState.units (x : SliceState) : List Run × List Engine × List Quad := (x.runs, x.engines, x.quads)

/-- The stage is launched, and its act has begun. -/
def State.launchBegun (s : State) (sl : Nat) (u : Run) : State := (s.markLaunched sl u).onSl sl fun x => x.setRun u fun v => { v with begun := true }

section
variable {s : State} {sl : SliceId} (u : Run) (hs : s.Inv)
include hs

theorem State.markLaunched_launched : ((s.markLaunched sl u).sl sl).Launched s.now u := by
  unfold State.markLaunched
  rw [State.onSl_sl_self _ _ _ (hs.slices_lt sl)]
  intro v hv hi hf
  obtain ⟨z, -, rfl⟩ := List.mem_map.1 hv
  dsimp only at hi hf ⊢
  split
  · exact ⟨rfl, rfl⟩
  · next hc =>
    rw [if_neg hc] at hi hf
    exact absurd (by simp [hi, hf]) hc

theorem State.launchBegun_launched : ((s.launchBegun sl u).sl sl).Launched s.now u := by
  have hmark := State.markLaunched_launched (sl := sl) u hs
  have hl : sl.val < (s.markLaunched sl u).slices.length := ((State.Keeps.markLaunched s sl u).2 hs).slices_lt sl
  unfold State.launchBegun
  rw [State.onSl_sl_self _ _ _ hl]
  intro v hv hi hf
  obtain ⟨z, hz, rfl⟩ := List.mem_map.1 hv
  dsimp only at hi hf ⊢
  split
  · next hc =>
    rw [if_pos hc] at hi hf
    exact hmark z hz hi hf
  · next hc =>
    rw [if_neg hc] at hi hf
    exact hmark z hz hi hf

end

section
variable (s : State) (sl : Nat) (u : Run)

theorem State.launchBegun_alike : State.Alike (fun x => (x.engines, x.quads)) s (s.launchBegun sl u) :=
  .comp (.onSl fun _ => rfl) (.onSl fun _ => rfl)

/-! ### What a phase does before its threads start -/

theorem State.launchSelect_alike (l : Nat) : State.Alike SliceState.units s (s.launchSelect sl u l) := by
  unfold State.launchSelect
  dsimp only
  have hlayer (v : State) (f : Drip) (n : Nat) : State.Alike SliceState.units v (v.beginLayer sl l f n) := .onSl fun _ => rfl
  have hsvc (v : State) (f : Service → Service) : State.Alike SliceState.units v (v.onSvc sl f) := .onSl fun _ => rfl
  exact .ite (.comp (hsvc _ _) (.ite (hlayer ..) (.refl s))) (.ite (hlayer ..) (.refl s))

theorem State.reproject_alike : State.Alike SliceState.units s (s.reproject sl) := .onSl fun _ => rfl

theorem State.startFetch_alike (l : Nat) (r : SlotRef) (a b : Drip) (n : Option Nat) : State.Alike SliceState.units s (s.startFetch sl .demand l r a b n).2 := by
  unfold State.startFetch
  dsimp only
  split
  · exact .refl s
  · split
    · exact .onSl fun _ => rfl
    · refine .comp (State.reproject_alike _ sl) (.onSl fun x => ?_)
      exact SliceState.onRes_agree (π := SliceState.units) (fun _ _ _ _ => rfl) x _ _

theorem State.demands_alike (e l : Nat) : State.Alike SliceState.units s (s.demands sl e l u) := by
  unfold State.demands
  dsimp only
  split
  · exact .refl s
  · refine .foldl (fun v r => ?_) _ s
    unfold State.demand
    exact .ite (State.startFetch_alike ..) (.refl v)

/-- A phase takes what it finds at its launch. -/
def State.phaseTakes (s : State) (sl : Nat) (u : Run) : State :=
  match u.entry.f.role, u.entry.f.layer, u.entry.unit with
  | .select, some l, _ => s.launchSelect sl u l
  | .grant, some l, .engine e => s.demands sl e.val l u
  | _, _, _ => s

theorem State.phaseTakes_alike : State.Alike SliceState.units s (s.phaseTakes sl u) := by
  unfold State.phaseTakes
  split
  · exact State.launchSelect_alike ..
  · exact State.demands_alike ..
  · exact .refl s

/-- A thread of a phase as it starts. -/
def Run.phaseThread (u : Run) (launch : Drip) (t : Nat) : Thread :=
  let h : Thread :=
    { st := .ready, pc := u.entry.f.entry, run := u.idx, ctx := u.entry.ctx, owner := u.entry.f.owner, prefetchSet := u.entry.f.prefetchSet,
      launchDrip := launch }
  (((h.setReg 1 (BitVec.ofNat 64 (t - u.entry.f.first))).setReg 2 u.entry.f.arg).setReg 3 (BitVec.ofNat 64 launch.toNat)).setReg 4
    (BitVec.ofNat 64 (0xD00000 + t * 0xC000))

variable {u}

theorem State.launchStage_route (hk : u.entry.kind = .route) :
    s.launchStage sl u = ((s.launchBegun sl u).phaseTakes sl u).onSl sl fun x => x.startPhase u u.launchDrip := by
  unfold State.launchStage
  dsimp only
  rw [hk]
  rfl

theorem State.launchStage_quad (hk : u.entry.kind = .quad) {q : QuadId} (hq : u.entry.unit = .quad q) :
    s.launchStage sl u = (s.launchBegun sl u).onSl sl fun x => (x.useSlots u u.launchDrip).startSegment q u u.launchDrip := by
  unfold State.launchStage
  dsimp only
  rw [hk]
  dsimp only
  rw [hq]
  rfl

theorem State.launchStage_inject (hk : u.entry.kind = .inject) : s.launchStage sl u = (s.launchBegun sl u).injectAll sl u u.entry.f.injection := by
  unfold State.launchStage
  dsimp only
  rw [hk]
  rfl

end

theorem SliceState.startPhase_threads {u : Run} {e : EngineId} (he : u.entry.unit = .engine e) (x : SliceState) (launch : Drip) :
    x.startPhase u launch = u.threads.foldl (fun y t => y.onThread e t fun _ => u.phaseThread launch t) x := by
  unfold SliceState.startPhase Run.engine?
  rw [he]
  rfl

/-- A thread of a phase starts as the phase says. -/
theorem SliceState.startPhase_thread {x : SliceState} (hx : x.ok) {u : Run} {e : EngineId} (he : u.entry.unit = .engine e) (launch : Drip) {h : ThreadId}
    (h1 : u.entry.f.first ≤ h.val) (h2 : h.val < u.entry.f.first + u.entry.f.threads) : ((x.startPhase u launch).engine e).thread h = u.phaseThread launch h := by
  have hmem : h.val ∈ u.threads := List.mem_map.2 ⟨h.val - u.entry.f.first, List.mem_range.2 (by omega), by omega⟩
  have hok (t : Nat) : (u.phaseThread launch t).ok :=
    Thread.ok.setReg (Thread.ok.setReg (Thread.ok.setReg (Thread.ok.setReg ⟨List.length_replicate .., List.length_replicate ..⟩ _ _) _ _) _ _) _ _
  rw [SliceState.startPhase_threads he]
  refine foldl_reaches (I := SliceState.ok) (P := fun y : SliceState => (y.engine e).thread h = u.phaseThread launch h) hmem
    (fun y t hy => hy.onThread _ _ fun _ _ => hok t) (fun y hy => ?_) (fun y t hy hp => ?_) hx
  · obtain ⟨-, ⟨hlen, hg⟩, -⟩ := hy
    have hel : e.val < y.engines.length := hlen.symm ▸ e.isLt
    have hth : h.val < (y.engine e).threads.length := by
      have hgm : y.engine e ∈ y.engines := by
        unfold SliceState.engine
        rw [List.getD_eq_getElem _ _ hel]
        exact List.getElem_mem _
      rw [(hg _ hgm).1]
      exact h.isLt
    unfold SliceState.onThread
    rw [SliceState.onEngine_engine _ _ hel, Engine.onThread_thread _ _ hth]
  · obtain ⟨-, ⟨hlen, -⟩, -⟩ := hy
    have hel : e.val < y.engines.length := hlen.symm ▸ e.isLt
    unfold SliceState.onThread
    rw [SliceState.onEngine_engine _ _ hel]
    by_cases ht : h.val = t
    · subst ht
      by_cases hth : h.val < (y.engine e).threads.length
      · rw [Engine.onThread_thread _ _ hth]
      · rw [show (y.engine e).onThread h.val (fun _ => u.phaseThread launch h.val) = y.engine e from ?_]
        · exact hp
        · unfold Engine.onThread
          rw [List.modify_eq_self (Nat.not_lt.1 hth)]
    · rw [Engine.onThread_thread_of_ne _ _ ht]
      exact hp

end Sys2Proof.Machine
end

section
/-! An injection leaves nothing queued. -/

namespace Sys2Proof.Machine

/-! ### An injection leaves nothing queued -/

/-- The messages that wait for an injection. -/
def SliceState.queue (x : SliceState) : List QueuedMsg := x.exch.injections

/-- `t` is `s` but for what no message waits for. -/
abbrev State.SameQueue (s t : State) : Prop := State.Alike SliceState.queue s t

theorem SliceState.setFlag?_queue (x : SliceState) (f : Option Nat) : (x.setFlag? f).queue = x.queue :=
  SliceState.setFlag?_agree (π := SliceState.queue) (fun _ _ _ _ => rfl) _ _

theorem SliceState.landRow_queue (x : SliceState) (l : Nat) (r : Option SlotRef) (rb n : Nat) (b : Bytes) : (x.landRow l r rb n b).queue = x.queue :=
  SliceState.landRow_agree (π := SliceState.queue) (fun _ _ _ => rfl) ..

theorem SliceState.landRecord_queue (x : SliceState) (bufs : List RecordBuf) (src : Place) (msg : Bytes) : (x.landRecord bufs src msg).queue = x.queue := by
  unfold SliceState.landRecord
  split
  · exact SliceState.setFlag?_queue ..
  · rfl

namespace State.SameQueue
variable (s : State) (sl : Nat)

theorem discard (cls : Nat) : State.SameQueue s (s.discard sl cls) := .comp (.onSl fun _ => rfl) (.onSl fun _ => rfl)

theorem setFlag? (f : Option Nat) : State.SameQueue s (s.onSl sl fun x => x.setFlag? f) := .onSl fun x => x.setFlag?_queue f

theorem endReqs (p : Request → Bool) (a b : Drip) (st : Status) (l : Nat) : State.SameQueue s (s.endReqs sl p a b st l) := ⟨.endReqs fun _ _ _ _ => rfl, rfl⟩

theorem checkCounts (l tag : Nat) : State.SameQueue s (s.checkCounts sl l tag) := by
  unfold State.checkCounts
  split
  · exact .refl s
  · exact .ite (setFlag? s sl (some _)) (.refl s)

theorem checkGrants (l tag : Nat) : State.SameQueue s (s.checkGrants sl l tag) := by
  unfold State.checkGrants
  split
  · exact .refl s
  · exact .ite (setFlag? s sl (some _)) (.refl s)

theorem landCount (src : Place) (msg : Bytes) : State.SameQueue s (s.landCount sl src msg) := by
  unfold State.landCount
  dsimp only
  split
  · exact discard ..
  · exact .ite (.comp (checkCounts ..) (.onSl fun y => y.landRecord_queue _ _ _)) (discard ..)

theorem landGrant (src : Place) (msg : Bytes) : State.SameQueue s (s.landGrant sl src msg) := by
  unfold State.landGrant
  dsimp only
  split
  · exact discard ..
  · exact .ite (.comp (checkGrants ..) (.onSl fun y => y.landRecord_queue _ _ _)) (discard ..)

theorem landView (src : Place) (msg : Bytes) : State.SameQueue s (s.landView sl src msg) := by
  unfold State.landView
  dsimp only
  exact .ite (.onSl fun y => y.landRecord_queue _ _ _) (discard ..)

theorem landPassDigest (src : Place) (msg : Bytes) : State.SameQueue s (s.landPassDigest sl src msg) := by
  unfold State.landPassDigest
  dsimp only
  exact .ite (.onSl fun y => y.landRecord_queue _ _ _) (discard ..)

theorem checkSlot (li : LayerInfo) (r : SlotRef) : State.SameQueue s (s.checkSlot sl li r) := by
  unfold State.checkSlot
  dsimp only
  refine .ite (.refl s) (.onSl fun y => (SliceState.setFlag?_queue ..).trans ?_)
  exact foldl_agree (π := SliceState.queue) (fun v i => SliceState.landRow_queue ..) _ _

theorem checkReturns (li : LayerInfo) : State.SameQueue s (s.checkReturns sl li) := by
  unfold State.checkReturns
  dsimp only
  exact .ite (setFlag? s sl (some _)) (.refl s)

theorem markToken (l t st : Nat) : State.SameQueue s (s.markToken sl l t st) := .comp (endReqs ..) (.onSl fun _ => rfl)

theorem failSection (li : LayerInfo) (c : Section) (rb : Nat) : State.SameQueue s (s.failSection sl li c rb) := by
  unfold State.failSection
  dsimp only
  have hrows : State.SameQueue s (s.onSl sl fun x =>
      let pos : List Nat := if c.isReturn then (x.sectionChoices li.layer c.peer c.slot).map fun k => k.row * dK li.mainDesc + k.rank else c.rows
      let y := pos.foldl (fun v n => v.landRow li.layer (if c.isReturn then none else some c.slot) rb n (zeros rb)) x
      let z := y.onSections (fun k => k.is c.isReturn li.layer c.peer c.slot) fun k => { k with complete := true, status := some 0x13 }
      { z with exch := { z.exch with checksumBlocks := z.exch.checksumBlocks + 1 } }) :=
    .onSl fun x => foldl_agree (π := SliceState.queue) (fun v n => SliceState.landRow_queue ..) _ x
  have hrep (v : State) (r : Report) : State.SameQueue v (v.report sl r) := .onSl fun _ => rfl
  exact .ite (.comp (checkReturns ..) (.comp (.foldl (fun v k => markToken ..) _ _) (.comp (hrep ..) hrows))) (.comp (checkSlot ..) (.comp (hrep ..) hrows))

theorem landDispatch (msg : Bytes) : State.SameQueue s (s.landDispatch sl msg) := by
  unfold State.landDispatch
  dsimp only
  split
  · refine .ite (discard ..) ?_
    split
    · exact failSection ..
    · have hrows (h : BlockHeader) (rb : Nat) (rows : List Bytes) : State.SameQueue s (s.onSl sl fun y =>
          (h.rows.zip rows).foldl (fun v r => v.landRow h.layer (some h.slot) rb r.1 r.2) y) :=
        .onSl fun x => foldl_agree (π := SliceState.queue) (fun v n => SliceState.landRow_queue ..) _ x
      split
      · exact .comp (discard ..) (hrows ..)
      · exact .comp (checkSlot ..) (.comp (.onSl fun _ => rfl) (hrows ..))
  · exact discard ..

theorem landReturn (msg : Bytes) : State.SameQueue s (s.landReturn sl msg) := by
  unfold State.landReturn
  dsimp only
  split
  · refine .ite (discard ..) ?_
    split
    · exact failSection ..
    · have hrows (h : BlockHeader) (rb d : Nat) (choice : Nat → List Choice) (l : List (Nat × Bytes)) : State.SameQueue s (s.onSl sl fun y =>
          l.foldl (fun v r => (choice r.1).foldl (fun w k => w.landRow h.layer none rb (k.row * d + k.rank) r.2) v) y) :=
        .onSl fun x => foldl_agree (π := SliceState.queue) (fun v r => foldl_agree (π := SliceState.queue) (fun w k => SliceState.landRow_queue ..) _ v) l x
      split
      · exact .comp (discard ..) (hrows _ _ _ (fun r => List.filter (fun k => k.capRow == r) _) _)
      · exact .comp (checkReturns ..) (.comp (.onSl fun _ => rfl) (.comp (.ite (.refl _) (.foldl (fun v k => markToken ..) _ _))
          (hrows _ _ _ (fun r => List.filter (fun k => k.capRow == r) _) _)))
  · exact discard ..

theorem exchangeReceive (src : Place) (msg : Bytes) : State.SameQueue s (s.exchangeReceive sl src msg) := by
  unfold State.exchangeReceive
  split
  · exact landCount ..
  · exact landGrant ..
  · exact landDispatch ..
  · exact landReturn ..
  · exact landView ..
  · exact landPassDigest ..
  · exact discard ..

theorem injectMsg (u : Run) (q : QueuedMsg) : State.SameQueue s (s.injectMsg sl u q) := by
  unfold State.injectMsg
  dsimp only
  have hsend (v : State) (m : SendSpec) : State.SameQueue v (v.sendMsg sl m) := 
    (State.Sends.sendMsg (s := v) sl m).field fun x y h => (congrArg SliceState.queue h :)
  have hcount : State.SameQueue s (s.onSl sl fun x => { x with exch := x.exch.countSent q.data }) := by
    refine .onSl fun x => ?_
    unfold SliceState.queue Exchange.countSent
    dsimp only
    split <;> rfl
  exact .ite (.refl s) (.ite (.comp (exchangeReceive ..) hcount) (.comp (hsend ..) hcount))

end State.SameQueue

/-- Nothing of an injection that launches stays queued. -/
theorem State.injectAll_queue {s : State} {sl : Nat} (hl : sl < s.slices.length) (u : Run) (inj : Nat) :
    ∀ m ∈ ((s.injectAll sl u inj).sl sl).queue, m.injection ≠ inj := by
  unfold State.injectAll
  dsimp only
  intro m hm
  rw [(State.Alike.foldl (π := SliceState.queue) (fun v q => State.SameQueue.injectMsg v sl u q) _ _).agree sl, State.onSl_sl_self _ _ _ hl] at hm
  exact bne_iff_ne.1 (List.mem_filter.1 hm).2

end Sys2Proof.Machine
end

section
/-! A segment and a phase as they launch. -/

namespace Sys2Proof.Machine

/-! ### A segment and a phase as they launch -/

section
variable {s : State} {sl : SliceId} {u : Run} (hs : s.Inv)

theorem SliceState.startSegment_quad {x : SliceState} (hx : x.ok) (q : QuadId) (u : Run) (launch : Drip) :
    ((x.startSegment q u launch).quad q).st = .running ∧ ((x.startSegment q u launch).quad q).pc = u.entry.f.entry ∧
      ∀ n, n < 16 → ((x.startSegment q u launch).quad q).reg n = if n = 1 then u.entry.f.arg else if n = 2 then BitVec.ofNat 64 launch.toNat else 0 := by
  obtain ⟨-, -, ⟨hlen, -⟩, -⟩ := hx
  have hq : q.val < x.quads.length := hlen.symm ▸ q.isLt
  unfold SliceState.startSegment
  rw [SliceState.onQuad_quad _ _ hq]
  refine ⟨rfl, rfl, fun n hn => ?_⟩
  by_cases h0 : n = 0
  · subst h0
    rfl
  · by_cases h1 : n = 1
    · subst h1
      rfl
    · by_cases h2 : n = 2
      · subst h2
        rfl
      · rw [if_neg h1, if_neg h2]
        refine (if_neg h0).trans ?_
        show (((List.replicate 16 (0 : Word)).set 1 _).set 2 _).getD n 0 = 0
        rw [List.getD_eq_getElem?_getD, List.getElem?_set_ne (Ne.symm h2), List.getElem?_set_ne (Ne.symm h1), List.getElem?_replicate]
        split <;> rfl

include hs

theorem State.launchStage_segment (hk : u.entry.kind = .quad) {q : QuadId} (hq : u.entry.unit = .quad q) :
    ((s.launchStage sl u).quad sl q).st = .running ∧ ((s.launchStage sl u).quad sl q).pc = u.entry.f.entry ∧
      ∀ n, n < 16 → ((s.launchStage sl u).quad sl q).reg n =
        if n = 1 then u.entry.f.arg else if n = 2 then BitVec.ofNat 64 u.launchDrip.toNat else 0 := by
  have hbegun : (s.launchBegun sl u).Inv := ((State.Keeps.onSl _ sl fun _ h => SliceState.ok.setRun h ..).2 ((State.Keeps.markLaunched s sl u).2 hs))
  rw [State.launchStage_quad s sl hk hq]
  unfold State.quad
  rw [State.onSl_sl_self _ _ _ (hbegun.slices_lt sl)]
  exact SliceState.startSegment_quad (.useSlots (hbegun.sl sl.isLt) ..) q u u.launchDrip

theorem State.launchStage_phase (hk : u.entry.kind = .route) {e : EngineId} (he : u.entry.unit = .engine e) {h : ThreadId}
    (h1 : u.entry.f.first ≤ h.val) (h2 : h.val < u.entry.f.first + u.entry.f.threads) : (s.launchStage sl u).thread sl e h = u.phaseThread u.launchDrip h := by
  have hbegun : (s.launchBegun sl u).Inv := ((State.Keeps.onSl _ sl fun _ h => SliceState.ok.setRun h ..).2 ((State.Keeps.markLaunched s sl u).2 hs))
  have hv : ((s.launchBegun sl u).phaseTakes sl u).Inv := by
    unfold State.phaseTakes
    split
    · exact (State.Keeps.launchSelect _ sl u _).2 hbegun
    · exact (State.Keeps.demands _ sl _ _ u).2 hbegun
    · exact hbegun
  rw [State.launchStage_route s sl hk]
  unfold State.thread
  rw [State.onSl_sl_self _ _ _ (hv.slices_lt sl)]
  exact SliceState.startPhase_thread (hv.sl sl.isLt) he u.launchDrip h1 h2

theorem State.launchStage_launched (hk : u.entry.kind ≠ .inject) : ((s.launchStage sl u).sl sl).Launched s.now u := by
  have hmark := State.markLaunched_launched (sl := sl) u hs
  have hbegun := State.launchBegun_launched (sl := sl) u hs
  have hruns {v : State} (h : (v.sl sl).runs = ((s.launchBegun sl u).sl sl).runs) : (v.sl sl).Launched s.now u := by
    unfold SliceState.Launched
    rw [h]
    exact hbegun
  have hseg (q : QuadId) (x : SliceState) : ((x.useSlots u u.launchDrip).startSegment q u u.launchDrip).runs = x.runs := by
    show (x.useSlots u u.launchDrip).runs = x.runs
    unfold SliceState.useSlots
    split
    · rfl
    · exact SliceState.onRes_agree (π := SliceState.runs) (fun _ _ _ _ => rfl) ..
  have hphase (x : SliceState) : (x.startPhase u u.launchDrip).runs = x.runs := by
    unfold SliceState.startPhase
    split
    · rfl
    · refine foldl_agree (π := SliceState.runs) (fun y t => ?_) _ x
      rfl
  unfold State.launchStage
  dsimp only
  split
  · refine hruns ((State.Agree.onSl (π := SliceState.runs) hphase sl).trans ?_)
    exact congrArg (fun k => k.1) ((State.phaseTakes_alike (s.launchBegun sl u) sl u).agree sl)
  · split
    · exact hruns (State.Agree.onSl (π := SliceState.runs) (hseg _) sl)
    · exact hbegun
  · next h => exact absurd h hk
  · exact hbegun
  · exact hmark

end

/-- A launch changes neither the settings nor the time. -/
theorem State.launchStage_alike (s : State) (sl : Nat) (u : Run) : State.Alike (fun _ => ()) s (s.launchStage sl u) := by
  have hmark : State.Alike (fun _ => ()) s (s.markLaunched sl u) := .onSl fun _ => rfl
  have hbegun : State.Alike (fun _ => ()) s (s.launchBegun sl u) := .comp (.onSl fun _ => rfl) hmark
  unfold State.launchStage
  dsimp only
  split
  · exact .comp (.onSl fun _ => rfl) (hbegun.trans ((State.phaseTakes_alike (s.launchBegun sl u) sl u).field fun _ _ _ => rfl))
  · split
    · exact .comp (.onSl fun _ => rfl) hbegun
    · exact hbegun
  · refine hbegun.trans ?_
    unfold State.injectAll
    dsimp only
    refine .comp (.foldl (fun v q => ?_) _ _) (.onSl fun _ => rfl)
    exact (State.SameQueue.injectMsg v sl u q).field fun _ _ _ => rfl
  · exact hbegun
  · exact hmark

end Sys2Proof.Machine
end

section
/-! The launch and the completion of stages. -/

namespace Sys2Proof.Machine

/-! ### The launch and the completion of stages -/

section
variable {s : State} {sl : SliceId} {i : Nat} {u : Run} {hits : List Collision}

theorem execStageLaunch_launches (hw : (s.sl sl).waitingRun i = some u) (hl : s.launchable sl u = true) :
    exec (.stageLaunch sl i hits) s = .next (hits.foldl (fun t c => t.collide sl u c) (s.launchStage sl u)) := by
  show execStageLaunch sl i hits s = _
  unfold execStageLaunch
  rw [hw]
  exact congrArg Host.Outcome.next (if_pos hl)

theorem execStageLaunch_holds (hw : (s.sl sl).waitingRun i = some u) (hl : s.launchable sl u = false) :
    exec (.stageLaunch sl i hits) s = .next (s.noteLate sl u) := by
  show execStageLaunch sl i hits s = _
  unfold execStageLaunch
  rw [hw]
  exact congrArg Host.Outcome.next (if_neg (Bool.eq_false_iff.1 hl))

theorem execStageLaunch_runs (hw : (s.sl sl).waitingRun i = none) (hr : (s.sl sl).launchedRun i = some u) :
    exec (.stageLaunch sl i hits) s = .next (hits.foldl (fun t c => t.collide sl u c) s) := by
  show execStageLaunch sl i hits s = _
  unfold execStageLaunch
  rw [hw]
  dsimp only
  rw [hr]

/-- What the collisions of a launch leave of the stages of the slice. -/
theorem State.collideAll_stage (v : State) (sl : Nat) (u : Run) (hits : List Collision) :
    ((hits.foldl (fun t c => t.collide sl u c) v).sl sl).stageCore = (v.sl sl).stageCore :=
  (State.collideAll_ends v sl u hits).alike.agree sl

theorem State.collideAll_count (v : State) (sl : Nat) (u : Run) (hits : List Collision) :
    (hits.foldl (fun t c => t.collide sl u c) v).time.collisions = v.time.collisions + v.countsOf hits :=
  congrArg Time.collisions (State.collideAll_ends v sl u hits).alike.time

/-- In still-water mode a request of a stage that loses where it launches is given the status of a collision. -/
theorem State.collideAll_slot {v : State} (hst : v.still.on = true)
    (hex : ∃ c ∈ hits, c.loser = none ∧ collides (v.pkg.congestionMode == 0) c = true) {r : Request} (hr : r ∈ (v.sl sl).svc.reqs) (ht : v.ties sl u r = true) :
    ∃ r' ∈ ((hits.foldl (fun t c => t.collide sl u c) v).sl sl).svc.reqs, r'.slot = r.slot ∧
      (⟨v.now, v.now.plus 1, .scheduleCollision, u.entry.f.layer.getD 0xFF⟩ : Cond) ∈ r'.conds := by
  obtain ⟨c, hm, hl, hc⟩ := hex
  obtain ⟨q, hq, h1, h2⟩ := State.collideAll_gives sl u hst hm hl hc hr ht
  exact ⟨q, hq, (congrArg Request.slot h1 :), h2⟩

/-- A stage whose inputs are absent at its launch drip is noted in still-water mode. -/
theorem State.noteLate_notes (hs : s.Inv) (hst : s.still.on = true) (hd : u.launchDrip = s.now) (hp : (s.sl sl).present? u = false) :
    ∀ v ∈ ((s.noteLate sl u).sl sl).runs, v.idx = u.idx → v.frame = u.frame → v.lateInput = true := by
  unfold State.noteLate
  rw [if_pos (by rw [hst, hd, hp]; simp), State.onSl_sl_self _ _ _ (hs.slices_lt sl)]
  intro v hv hi hf
  obtain ⟨z, -, rfl⟩ := List.mem_map.1 hv
  dsimp only at hi hf ⊢
  split
  · rfl
  · next hc =>
    rw [if_neg hc] at hi hf
    exact absurd (by simp [hi, hf]) hc

theorem execStageComplete_completes (hs : s.Inv) (hr : (s.sl sl).launchedRun i = some u)
    (hk : u.entry.kind = .receive ∨ u.entry.kind = .inject ∧ ∀ m ∈ (s.sl sl).fabric.windowed, m.issuer ≠ .inject u.idx u.frame) :
    ∃ t : State, exec (.stageComplete sl i) s = .next t ∧ OnlySlice s t sl ∧ (t.sl sl).mem = (s.sl sl).mem ∧
      (∀ v ∈ (t.sl sl).runs, v.idx = u.idx → v.frame = u.frame → v.st = .completed) ∧ ∀ f, u.entry.f.sets = some f → f ∈ (t.sl sl).flags := by
  have hexec : exec (.stageComplete sl i) s = .next (s.onSl sl fun x => x.completeRun u) := by
    show execStageComplete sl i s = _
    unfold execStageComplete
    rw [hr]
    dsimp only
    obtain hk | ⟨hk, hw⟩ := hk
    · rw [hk]
    · rw [hk]
      exact congrArg Host.Outcome.next (if_pos (List.all_eq_true.2 fun m hm => bne_iff_ne.2 (hw m hm)))
  refine ⟨_, hexec, ⟨rfl, fun j hj => State.onSl_sl_of_ne _ _ hj⟩, ?_⟩
  rw [State.onSl_sl_self _ _ _ (hs.slices_lt sl)]
  refine ⟨SliceState.completeRun_mem .., SliceState.completeRun_completes _ _, fun f hf => ?_⟩
  unfold SliceState.completeRun
  rw [hf]
  exact SliceState.mem_setFlag ..

end

/-- Settles O28: what a launch does to its stage, and then the collisions of the command one by one: each changes no stage, counts
if it counts, and in still-water mode gives the requests tied to the stage that loses their status (`State.collideAll_gives`). -/
theorem stageLaunches : Obligations.StageLaunches := by
  unfold Obligations.StageLaunches
  intro s sl i u hits hs x
  have hboard := s.launchStage_alike sl u
  have hpkg : (s.launchStage sl u).pkg = s.pkg := hboard.pkg
  have hnow : (s.launchStage sl u).now = s.now := congrArg Time.drip hboard.time
  have hstill : (s.launchStage sl u).still = s.still := (congrArg State.still hboard.rest).symm
  have hcore := State.collideAll_stage (s.launchStage sl u) sl u hits
  refine ⟨fun hw hl hk => ⟨_, execStageLaunch_launches hw hl, ?_, fun q hkq hq => ?_, fun e h hkr he h1 h2 => ?_⟩, fun hw hl => ⟨fun h => ?_, fun hst hex => ?_⟩,
    fun hw hr => ⟨_, execStageLaunch_runs hw hr, State.collideAll_count .., (congrArg SliceState.runs (State.collideAll_stage s sl u hits) :),
      fun hst hex r hr ht => State.collideAll_slot hst hex hr ht⟩,
    fun hw hl hk => ⟨_, execStageLaunch_launches hw hl, ?_⟩, fun hw hl hst => ?_, fun hw hst hd hp => ?_, fun hr hk => execStageComplete_completes hs hr hk⟩
  · -- the stages of the entry and the frame are launched
    have hruns := (congrArg SliceState.runs hcore :)
    intro v hv
    exact State.launchStage_launched hs hk v (hruns ▸ hv)
  · have hquads : ((hits.foldl (fun t c => t.collide sl u c) (s.launchStage sl u)).quad sl q) = (s.launchStage sl u).quad sl q :=
      (congrArg (fun y : SliceState => y.quad q) hcore :)
    rw [hquads]
    exact State.launchStage_segment hs hkq hq
  · have hthread : ((hits.foldl (fun t c => t.collide sl u c) (s.launchStage sl u)).thread sl e h) = (s.launchStage sl u).thread sl e h :=
      (congrArg (fun y : SliceState => (y.engine e).thread h) hcore :)
    rw [hthread, State.launchStage_phase hs hkr he h1 h2]
    exact ⟨rfl, rfl, rfl, rfl, rfl, rfl⟩
  · refine (execStageLaunch_launches hw hl).trans (congrArg Host.Outcome.next ((State.collideAll_passes sl u ?_).trans ?_))
    · rw [hpkg, hstill]
      exact h
    · unfold State.counted State.countsOf
      rw [hpkg]
  · refine ⟨_, execStageLaunch_launches hw hl, (State.collideAll_count ..).trans ?_, fun r hr ht => ?_⟩
    · unfold State.countsOf
      rw [hpkg]
    · have hgives := State.collideAll_slot (u := u) (hits := hits) (v := s.launchStage sl u) (by rw [hstill]; exact hst) (by rw [hpkg]; exact hex) hr ht
      rw [hnow] at hgives
      exact hgives
  · rw [State.launchStage_inject s sl hk] at hcore ⊢
    have hbegun : (s.launchBegun sl u).Inv := ((State.Keeps.onSl _ sl fun _ h => SliceState.ok.setRun h ..).2 ((State.Keeps.markLaunched s sl u).2 hs))
    have hqueue := (congrArg SliceState.queue hcore :)
    intro m hm
    exact State.injectAll_queue (hbegun.slices_lt sl) u u.entry.f.injection m (hqueue ▸ hm)
  · refine (execStageLaunch_holds hw hl).trans (congrArg Host.Outcome.next (if_neg ?_))
    rw [hst]
    simp
  · have hl : s.launchable sl u = false := by
      unfold State.launchable
      dsimp only
      rw [show (s.sl sl).present? u = false from hp]
      simp
    exact ⟨_, execStageLaunch_holds hw hl, State.noteLate_notes hs hst hd hp⟩

end Sys2Proof.Machine
end
